-- ==== Sys2Proof/Word.lean ====
section
/-!
DEFINITION. Words and bytes of the RN6400 (R3: multi-byte fields are little-endian).
-/

namespace Sys2Proof

/-- A 32-bit register or bus word. -/
abbrev Word := BitVec 32

/-- One byte of a memory, a frame or a tag page. -/
abbrev Byte := BitVec 8

/-- The byte with the value n modulo 256. -/
abbrev byteOf (n : Nat) : Byte := BitVec.ofNat 8 n

/-- The word with the value n modulo 2^32. -/
abbrev wordOf (n : Nat) : Word := BitVec.ofNat 32 n

end Sys2Proof
end

