-- ==== Sys2Proof/Syntax.lean ====
section
/-!
DEFINITION. The commands of the RN6400: one constructor per row of spec/opcode_table.json, with the row's operands, and the types of those operands.
A value that reaches the block from outside (a sample, a received frame, a pin level, a result of a verification) is an operand of the command that brings it.
The operand `us` is the time of the command in microseconds after the last catch, for commands the spec stamps (R16, R28).
-/

namespace Sys2Proof

/-- Requesters of the interconnect (R17, Table 1-6 BESTAT.REQ): a Scull asks for its tenant in user mode, or for the partition monitor in machine mode (R23). -/
inductive Requester where
  | cox | scull0 | scull1 | scull2 | scull3 | linkEngine | prefetch | debugPort | monitor0 | monitor1 | monitor2 | monitor3
  deriving DecidableEq, Repr

/-- The memories with check bits that the Cox uses (R65, COX.MMINFO.MEM). -/
inductive EccMem where
  | itcm | dtcm | sram | eflash
  deriving DecidableEq, Repr

/-- Reset causes in the order of their codes (Table 5-4). -/
inductive ResetCause where
  | por | pin | soft | lockstep | eccFatal | stall | clkLoss | wake | debug | lcs
  deriving DecidableEq, Repr

/-- The failed check of the Camlan image, 01 to 03 (R116). -/
inductive ImageCheck where
  | header | digest | signature
  deriving DecidableEq, Repr

/-- The grant registers of a partition's page (Table 4-13, offsets 0x20 to 0x3C). -/
inductive GrantReg where
  | arx0 | arx1 | atx | crx0 | crx1 | ctx | gpio | misc
  deriving DecidableEq, Repr

/-- Keep-alive sources (Table 6-2). -/
inductive KSource where
  | packaux | kin | kbat
  deriving DecidableEq, Repr

/-- The ports CHA and CHB; direction A leaves CHA, direction B leaves CHB (08). -/
inductive RingPort where
  | a | b
  deriving DecidableEq, Repr

/-- The three CAN controllers (Table 13-1). -/
inductive CanId where
  | a | b | c
  deriving DecidableEq, Repr

/-- What wakes the part through CAN (R303). -/
inductive CanWakeBall where
  | rx (x : CanId) | wakeBall
  deriving DecidableEq, Repr

/-- An access of a tenant: an instruction fetch, a load, a store, or an AMO or LR/SC (R80). -/
inductive Access where
  | fetch | load | store | amo
  deriving DecidableEq, Repr

/-- What a user-mode context does that may be a partition fault (R92): an access judged by the PMP and the grant filter (R88, R89, R91), a user access to a CSR (R81), another exception, a memory class of the word as its array holds it, data and check bits (R65, R93). `mepc` is the address of its instruction. -/
inductive UserFault where
  | access (acc : Access) (addr mepc : Nat)
  | csr (num : Nat) (write : Bool) (mepc mtval : Nat)
  | exception (mcause mepc mtval : Nat)
  | memory (acc : Access) (addr data check mepc : Nat)
  deriving DecidableEq, Repr

/-- A received CAN frame (R294): remote frames carry rtr. -/
structure CanFrame where
  ident : Nat
  ide : Bool
  fdf : Bool
  brs : Bool
  esi : Bool
  rtr : Bool
  dlc : Nat
  data : List Byte
  deriving DecidableEq, Repr

/-- A bus access of the program buffer (R74). -/
structure BusAccess where
  addr : Nat
  write : Option Word
  deriving DecidableEq, Repr

/-- What the keep-alive path measures, as its registers show it at a catch (Table 6-9): KIN, PACKAUX, KSYS and KBAT [mV], KIN current and charging current [mA], and the charger's draw from KVIN [mW]. -/
structure KpaMeas where
  kinMv : Nat
  kinMa : Nat
  paMv : Nat
  ksysMv : Nat
  kbatMv : Nat
  kbatMa : Int
  drawMw : Nat
  deriving DecidableEq, Repr

/-- What is measured or sensed at a catch and has no row of its own: raw feedback levels FB0 to FB11, the pump's VGS [mV] and coil rail [10 mV], the mean of the last 512 IMDPE samples, the motor current [mA], and whether the tally entries of the ended stroke passed verification (R363). -/
structure CatchIn where
  fb : Nat
  vgsMv : Nat
  rail : Nat
  imdMean : Nat
  motorMa : Nat
  tallyOk : Bool
  kpa : KpaMeas
  deriving DecidableEq, Repr

/-- The configuration parameters of the manual, by their key without its index (all Parameters tables). -/
inductive PName where
  | strokePeriod | strokeHeat | helmDefault | easyAutoclear | easyAutoclearMax | coxEccCorrMax
  | partSlots | partQuota | partGrants | partXip | partKeyhash | partitionAutoresume
  | partitionAutoresumeMax | shoreMinGap | kpaPaIlim | kpaKinVmin | kpaKinFrac | kpaVocPeriod
  | kpaBsVoc | kpaBsQual | kpaBsHold | kpaBsMargin | kpaKbatChem | kpaKbatCells
  | kpaKbatCap | kpaDetect | kpaKidOhm | kpaChgIcc | kpaChgVcv | kpaChgTpre
  | kpaChgTtot | kpaZoneT | kpaZoneHyst | kpaNimhDv | kpaNimhDtdt | kpaNimhBlank
  | kpaEoc | kpaAuxMode | kpaAuxV | kpaAuxI | kpaAuxVrch | kpaAuxRatio
  | kpaAuxNratio | measRshunt | measShuntTcr | measShuntLt | measShuntInv | fcsOcs
  | measXchk | measXchkN | hvsRatio | hvsGain | hvsEn | hvsAvg
  | hvsXchk | tmpR25 | tmpBeta | tmpEn | chnModules | chnSeatSerial
  | chnSeatString | chnRetry | chnLostHeats | chnBreakN | chnHealN | radTxpwr
  | radModTxpwr | radJoinCh | radRetry | radMapN | radMapBad | radMapQuar
  | radMapLead | twnProve | twnDisagreeMax | twnClearHeats | ctrRole | ctrIbreak
  | ctrPullin | ctrHold | ctrTclose | ctrTopen | ctrWeld | ctrWeldDv
  | ctrWeldT | ctrDefer | ctrRext | ctrAdmitV | ctrAdmitI | ctrAdmitWait
  | ctrPreR | ctrPreCbus | ctrPreErated | ctrPreTauth | ctrPreTmax | pumpHoldMax
  | pumpCpump | ctrFbinv | sinFunc | sinSrc | sinTarget | sinLatch
  | sinPair | sinDiscT | mdiFitted | mdiDirinv | mdiSrcOpen | mdiSrcClosed
  | mdiRsense | mdiIlim | mdiDuty | mdiTmove | mdiIbreak | imdPeriod
  | imdRinj | imdRmeas | imdRatio | imdUmin | imdVref | imdWarn
  | imdAlarm | imdAlarmN | imdAction | imdKinExcl | imdKinWarn | estTable
  | estChem | estCap | estImaxChg | estImaxDis | estRestI | estRestT
  | estOcvSlope | estBalI | estLoadWin | estCapDsoc | estCapGain | estRDi
  | estWarn | estLow | estFinal | estWarnHyst | estLowW | estFinalW
  | estHibIdle | estHibGrace | estWakeI | estSurgeRk | estSurgeMargin | estSurgeNotice
  | canNbr | canDbr | canNsp | canDsp | canBusoffHold | canWake
  | canCycles | canMatrix | canaStd | canaId | canaPeriod | crewEnable
  | crewLane | crewListen | crewMirror | crewKey | conBaud | conAutobaud
  | conEcho | conPrompt | conNotify | conIdle | tallyCommit | qpXipDiv
  | qpXipCmd | qpXipDummy | qpXipSeqcont | qpXipAhead | qpDesel | gpioSafe
  | secSvcKeyhash | secVendorService
  deriving DecidableEq, Repr

/-- A parameter key: its name and its index, 0 where the key has none. -/
structure PKey where
  name : PName
  idx : Nat
  deriving DecidableEq, Repr

/-- A parameter value (R339). Numbers are held in 1/1,000 of their unit; an enumeration value is its place in the range column, from 0. -/
inductive PVal where
  | num (milli : Int)
  | sym (n : Nat)
  | ident (n : Nat)
  | span (base sizeKiB : Nat)
  | slots (l : List (Nat × Nat × Nat))
  | names (l : List Nat)
  | matrix (cols : List (Nat × Nat)) (cells : List (Nat × Nat × Nat × Nat))
  | table (bytes : List Byte)
  | absent
  deriving DecidableEq, Repr

/-- The commands (spec/opcode_table.json, one constructor per row). -/
inductive Instr where
  /-- REGISTER_WRITE (R7): A write to a register field that has no row of its own sets, clears or ignores the field according to its access code. -/
  | registerWrite (rq : Requester) (addr : Nat) (value : Word)
  /-- READ_CLEAR (R7): A completed read of an RC field returns its value and clears it to its reset value in the same access. -/
  | readClear (rq : Requester) (addr : Nat) (aborted : Bool)
  /-- BUS_ERROR (R21): An access to an unmapped address or a write to a read-only region ends in an access fault and is recorded in SYS.BEADDR and SYS.BESTAT. -/
  | busError (rq : Requester) (user write : Bool) (addr : Nat)
  /-- STROKE_TIMER_START (R28): A write of STK.CTRL.RUN starts the stroke timer, with the first catch 1 us later, and begins the stake-boat interval. -/
  | strokeTimerStart (jedec : Nat)
  /-- CATCH (R30): At each catch the agreement unit samples, the CCA snapshot is taken, the order set closes, outputs update and the catch broadcast is sent. -/
  | catchPoint (inp : CatchIn)
  /-- GATHER_DEADLINE (R26): At 70 % of the stroke the gather window closes and the quiet region begins. -/
  | gatherDeadline
  /-- FINISH (R31): A write of 1 to STK.FIN.DONE signals the finish, clean at or before the deadline, and clears the stall counter. -/
  | finish (us : Nat)
  /-- COX_CRAB (R53): A finish deadline passed without a clean finish: CRAB is set, CONSEC increases, the finish permit is withheld and the order set is merged into the next one. -/
  | coxCrab
  /-- EASY_AUTOCLEAR (R55): After easy.autoclear seconds with every contactor open and no crab, easy entered only for crabs is left automatically. -/
  | easyAutoclear
  /-- RECOVERY_TAIL (R26): At 95 % of the stroke the recovery tail begins. -/
  | recoveryTail
  /-- WATCH (R37): A watch begins at a catch at which STK.WPH wraps to 0. -/
  | watch
  /-- STROKE_TRIM (R27): A write of STK.TRIM lengthens or shortens the next stroke by a saturated signed amount, then clears. -/
  | strokeTrim (v : Int)
  /-- HEAT_RESTART (R35): A write of STK.HCTRL.HRESTART makes the heat phase 0 at the catch after the stroke of the write. -/
  | heatRestart
  /-- AGREEMENT_DEMAND (R39): A write of AGR.DEMAND starts sampling of the masked groups, or sets LOST while BUSY. -/
  | agreementDemand (mask : Nat)
  /-- DEMAND_DONE (R39): The demand sampling completes within 1 us and sets AGR.DSTAT.DONE. -/
  | demandDone (us : Nat) (fb : Nat)
  /-- INTERRUPT_LINE_CHANGE (R40): A changed interrupt line is presented to both Cox cores on the same core cycle. -/
  | interruptLineChange (line : Nat) (level : Bool)
  /-- TENANT_CRAB_LIMIT (R56): The tenant crab count of a partition reaches 3 and the partition is suspended. -/
  | tenantCrabLimit (k : Nat)
  /-- LOCKSTEP_MISMATCH (R61): A compare-group difference sets COX.STATUS.MM, records the groups and closes the permit gate within 25 ns. -/
  | lockstepMismatch (groups : Nat) (pc : Word)
  /-- LOCKSTEP_RESET (R62): 10 us after a mismatch under LOCK the part resets with cause LOCKSTEP. -/
  | lockstepReset
  /-- ECC_CORRECTED (R66): A read syndrome of class CORRECTED is corrected, written back, counted and logged. -/
  | eccCorrected (rq : Requester) (addr data check : Nat)
  /-- ECC_FATAL (R66): An ADDRESS or UNCORRECTABLE class on a Cox access sets FATAL and closes the permit gate. -/
  | eccFatal (addr data check : Nat) (pc : Word)
  /-- ECCFATAL_RESET (R66): 10 us after a fatal memory class under LOCK the part resets with cause ECCFATAL. -/
  | eccFatalReset
  /-- ECC_CORR_LIMIT (R67): More than cox.ecc_corr_max corrected errors in one watch make Camlan enter easy with cause 0x13. -/
  | eccCorrLimit
  /-- INJECT_DIFFERENCE (R69): COX.INJ.GO inverts bit 0 of the named group on the checker side for one cycle while LOCK is 0. -/
  | injectDifference (group det : Nat)
  /-- INJECT_CLEAR (R69): COX.INJ.CLR clears STEST.DET and MM and reopens the gate unless FATAL is set. -/
  | injectClear
  /-- COX_LOCK (R70): Writing COX.CTRL.LOCK enables the mismatch reset and disables injection until the next reset. -/
  | coxLock
  /-- PERMIT_ARM (R73): Writing COX.PERMIT.ARM arms the pump feed once, only after LOCK and STEST_PASS. -/
  | permitArm
  /-- MISMATCH_ACK (R63): Writing COX.MMINFO.ACK releases the retained records to record the next fault. -/
  | mismatchAck
  /-- MISMATCH_RESET_INHIBIT (R78): Writing COX.CTRL.MMRST_INH inhibits the mismatch reset only while debug was seen in SERVICE. -/
  | mismatchResetInhibit (value : Bool)
  /-- RESET_PIN (R415): A low level on RESET_N of at least 10 us asserts a reset of cause PIN. -/
  | resetPin (lowUs : Nat)
  /-- POR_ASSERT (R109): KSYS below the assertion level asserts the power-on reset and clears the always-on domain. -/
  | porAssert
  /-- POR_RELEASE (R109): KSYS held above the release level for the release delay releases the power-on reset. -/
  | porRelease
  /-- SOFT_RESET (R113): Writing RST.SOFT with GO and key 0xA5C3 resets the part with cause SOFT. -/
  | softReset (value : Word)
  /-- RESET_ASSERT (R115): Within 1 us of any reset assertion all actuators turn off, the pump stops and interface pins go to safe levels. -/
  | resetAssert (cause : ResetCause)
  /-- RESET_RELEASE (R415): An internal reset held for 10 us is released and the wipe starts. -/
  | resetRelease
  /-- WIPE_DONE (R118): The wipe of every volatile memory completes, sets RST.WIPE.DONE and the boot ROM runs. -/
  | wipeDone (durUs : Nat)
  /-- CRYSTAL_START_FAIL (R122): The 24 MHz crystal has not started 5 ms after enable and the boot ROM holds in the clock fault state. -/
  | crystalStartFail
  /-- IMAGE_VERIFY (R116): The boot ROM finishes verifying the Camlan image and either starts Camlan or enters the image fault state. -/
  | imageVerify (failed : Option ImageCheck) (build lcsBad : Nat)
  /-- STALL_RESET (R114): The stall counter reaches RST.STALL.LIMIT and the part resets with cause STALL. -/
  | stallReset
  /-- BOOT_TIMER_EXPIRE (R114): The boot timer reaches 500 ms without being stopped and the part resets with cause STALL. -/
  | bootTimerExpire
  /-- BOOT_HOLD (R114): Writing RST.BOOT.HOLD stops the boot timer. -/
  | bootHold
  /-- CLOCK_LOSS (R123): The clock monitor finds the crystal stopped or the PLL unlocked, closes the permit gate and resets with cause CLKLOSS. -/
  | clockLoss
  /-- X32_LOSS (R123): Loss of the 32.768 kHz crystal sets CLK.STAT.X32LOSS and the always-on domain runs from the divided RC oscillator. -/
  | x32Loss
  /-- STAKE_BOAT_END (R129): At the catch beginning the second watch the helm passes, restrictions end, tenants start and Camlan enters RUN or easy. -/
  | stakeBoatEnd
  /-- SHORE_PERIODIC (R120): 10 minutes after the previous shore record a periodic record falls due. -/
  | shorePeriodic
  /-- SHORE_GAP_END (R120): shore.min_gap ends and a state change held back is written. -/
  | shoreGapEnd
  /-- LCS_REQUEST (R126): Writing LCS.REQ with its key begins a life-cycle transition by writing the PENDING record. -/
  | lcsRequest (value : Word)
  /-- LCS_TRANSITION_COMPLETE (R126): The wipe set is erased, the new state written, fuses blown, and the part resets with cause LCS. -/
  | lcsTransitionComplete
  /-- SERVICE_TIMEOUT (R410): 24 hours after the last SERVICE command Camlan returns to SEALED at the first catch at which R125 holds. -/
  | serviceTimeout
  /-- MONITOR_YIELD (R82): The YIELD monitor call ends the slot cleanly. -/
  | monitorYield (sc : Nat)
  /-- MONITOR_WAIT (R82): The WAIT monitor call blocks until an event in the mask is pending. -/
  | monitorWait (sc : Nat) (mask : Nat)
  /-- MONITOR_SETVEC (R82): The SETVEC monitor call registers or disables an event handler. -/
  | monitorSetvec (sc : Nat) (handler : Nat) (mask : Nat)
  /-- MONITOR_EVRET (R83): The EVRET monitor call resumes the interrupted context and unmasks events. -/
  | monitorEvret (sc : Nat)
  /-- MONITOR_INFO (R82): The INFO monitor call returns Scull, slot index, stroke number and time left. -/
  | monitorInfo (sc : Nat) (us : Nat)
  /-- MONITOR_LOG (R349): The LOG monitor call submits a record to the partition's own book. -/
  | monitorLog (sc : Nat) (code sev a2 a3 : Nat)
  /-- MONITOR_UNKNOWN_CALL (R82): An ECALL with an unknown call number returns -1. -/
  | monitorUnknownCall (sc : Nat) (call : Nat)
  /-- EVENT_DELIVERY (R83): A pending event in a registered mask is delivered to the partition's handler. -/
  | eventDelivery (sc : Nat)
  /-- EVENT_SET (R83): Writing PART.EVSET sets event bits in a partition's EVP. -/
  | eventSet (value : Word)
  /-- SLOT_START (R85): At a slot start the monitor saves the context, maintains the caches, programs the PMP and writes the partition number. -/
  | slotStart (sc : Nat) (idx : Nat)
  /-- SLOT_END (R85): At a slot end the partition is pre-empted within 1 us. -/
  | slotEnd (sc : Nat)
  /-- SLOT_SWAP_REQUEST (R86): Writing PART.CTRL.SWAP requests a slot bank exchange at the next watch catch. -/
  | slotSwapRequest
  /-- SCULL_ENABLE (R81): Writing PART.CTRL.SCULLEN starts the named Sculls under the partition monitor. -/
  | scullEnable (mask : Nat)
  /-- GRANT_WRITE (R90): A grant bit write already set elsewhere or belonging to Camlan is ignored and sets PART.CTRL.GERR. -/
  | grantWrite (k : Nat) (reg : GrantReg) (value : Word)
  /-- PARTITION_FAULT (R92): A user-mode exception other than ECALL stops the partition and Camlan suspends it. -/
  | partitionFault (sc : Nat) (why : UserFault)
  /-- SCULL_FAULT (R94): A machine-mode exception halts the Scull and suspends every partition holding a slot on it. -/
  | scullFault (sc : Nat) (mcause : Nat)
  /-- DOORBELL (R97): A write of the mailbox doorbell is stamped and starts the copy of its entries into the order latch. -/
  | doorbell (k : Nat) (value : Word) (us : Nat)
  /-- DOORBELL_COPY_DONE (R97): The doorbell copy ends within 2 us and PART.DBSTAT.BUSY clears. -/
  | doorbellCopyDone (k : Nat)
  /-- TENANT_IMAGE_VERIFY (R102): Camlan completes verification of a tenant image, passing it or suspending the partition with cause 0x06. -/
  | tenantImageVerify (k : Nat) (image header : List Byte)
  /-- AUTO_RESUME (R106): After partition.autoresume seconds a partition suspended for a resumable cause restarts. -/
  | autoResume (k : Nat)
  /-- SOURCE_DISQUALIFY (R131): A keep-alive source meets its disqualifying condition and the KPA changes source within 10 us. -/
  | sourceDisqualify (src : KSource) (mv : Nat)
  /-- SOURCE_QUALIFY (R131): A keep-alive source meets its qualifying condition for its time and becomes selectable. -/
  | sourceQualify (src : KSource) (mv : Nat)
  /-- MPPT_STEP (R136): At 10 Hz while KIN is limited the KPA moves VREF by 0.5 %. -/
  | mpptStep (rose : Bool)
  /-- VOC_CHECK (R137): Every kpa.voc_period the KPA opens the KIN switch for the open-circuit check, or skips it. -/
  | vocCheck
  /-- VOC_NOW (R137): Writing KPA.CTRL.VOCNOW requests an immediate open-circuit check. -/
  | vocNow
  /-- VOC_WINDOW_END (R137): After 20 ms the KIN switch closes and VREF is reset to kin_frac times VOC when it differs by more than 8 %. -/
  | vocWindowEnd (vocMv : Nat)
  /-- BLACK_START_QUALIFY (R138): KIN stays above kpa.bs_voc for kpa.bs_qual and the start stage ramps KSYS. -/
  | blackStartQualify (kinMv : Nat)
  /-- BLACK_START_SCULLS (R139): After kpa.bs_hold with no KIN shortfall and a margin shown, Camlan writes SCULLEN. -/
  | blackStartSculls
  /-- KBAT_INSERTED (R141): 500 ms of presence samples declare the backup battery present and the charger enters DETECT. -/
  | kbatInserted (kthCode kidOhm10 kbatMv : Nat)
  /-- KBAT_MISSING (R141): 4 consecutive absent samples declare the backup battery missing and the charger goes to MISSING. -/
  | kbatMissing
  /-- KBAT_SHORT_PROBE_END (R142): After 2 s of the probe with KBAT still below 1.0 V the charger goes to FAULT. -/
  | kbatShortProbeEnd (kbatMv : Nat)
  /-- CHARGE_PHASE_LEVEL (R143): KBAT reaches a phase level and the charger moves to the next phase. -/
  | chargePhaseLevel (kbatMv : Nat)
  /-- CHARGE_TIMER_EXPIRE (R143): The pre-charge or total charge timer expires and the charger goes to FAULT. -/
  | chargeTimerExpire
  /-- CHARGE_TAPER_END (R147): In AUTO mode the CV current stays below C/20 for 60 s and the charge ends in DONE. -/
  | chargeTaperEnd
  /-- NIMH_DELTA_V (R146): Three consecutive 16 s averages below the peak end a NiMH charge. -/
  | nimhDeltaV
  /-- NIMH_DTDT (R146): A KTH temperature rise at kpa.nimh_dtdt over 60 s ends a NiMH charge. -/
  | nimhDtdt
  /-- CHARGE_ZONE_CHANGE (R144): The KTH temperature crosses a zone breakpoint and the charge current and voltage change or the charger pauses. -/
  | chargeZoneChange (kthCenti : Int) (kbatMv : Nat)
  /-- CHARGE_HEADROOM (R145): KVIN falls within 1.5 V of KBAT and the charger pauses, resuming at 2.0 V. -/
  | chargeHeadroom (kvinMv kbatMv : Nat)
  /-- CHARGE_OVERVOLTAGE (R148): KBAT exceeds 105 % of its limit and the charger stops within 10 us. -/
  | chargeOvervoltage
  /-- CHARGE_OV_CHECK (R148): 4 ms after an overvoltage stop the charger goes to FAULT or MISSING. -/
  | chargeOvCheck (present : Bool)
  /-- CHARGE_RECHARGE (R143): In AUTO mode KBAT below its recharge level for 10 s restarts DETECT. -/
  | chargeRecharge
  /-- CHARGE_SOURCE_LOST (R143): The charging source is lost and the charger stops within 10 us. -/
  | chargeSourceLost
  /-- CHARGER_STOP (R147): KPA.CTRL.STOPCHG ends a charge in DONE. -/
  | chargerStop
  /-- CHARGER_START (R147): KPA.CTRL.STARTCHG starts a charge in DETECT. -/
  | chargerStart
  /-- CHARGER_CLEAR (R142): KPA.CTRL.CLRKBAT clears a charger fault to DETECT. -/
  | chargerClear
  /-- AUX_CLEAR (R153): KPA.CTRL.CLRAUX takes the auxiliary output from LATCHED to SOFTSTART. -/
  | auxClear
  /-- SHIP_ENTER (R149): Writing KPA.SHIP with its key stops the KSYS converter and opens the KBAT switch within 10 ms. -/
  | shipEnter (value : Word)
  /-- SHIP_WAKE (R150): KBTN held 0.5 s or a source at 9 V for 100 ms ends ship mode and the part starts with cause POR. -/
  | shipWake
  /-- KBTN_LONG_PRESS (R151): KBTN held 10 s opens all source switches for 1.5 s and the part power-cycles. -/
  | kbtnLongPress
  /-- KBTN_PRESS (R151): A KBTN press of 20 ms to 10 s sets the KBTN flag and wakes from hibernation. -/
  | kbtnPress
  /-- AUX_FAULT (R153): Primary overcurrent for 1 ms turns the auxiliary drivers off and enters FAULT, or LATCHED at the third. -/
  | auxFault
  /-- AUX_RETRY (R153): 5 s after an auxiliary fault the output returns to SOFTSTART. -/
  | auxRetry
  /-- AUX_SOFTSTART_TIMEOUT (R153): Soft start not reaching target in 50 ms enters FAULT. -/
  | auxSoftstartTimeout
  /-- AUX_CHARGER_END (R152): In CHARGER mode the current below aux_i/10 for 60 s ends the charge and enters STANDBY. -/
  | auxChargerEnd
  /-- AUX_PROBE (R152): Every 10 minutes in STANDBY a 100 ms probe restarts the charge if the secondary is low. -/
  | auxProbe (secondaryMv : Nat)
  /-- CCA_INTERVAL (R154): At the end of each CCA interval its sample times duration is added to the accumulator. -/
  | ccaInterval (sampleNv : Int) (durNs : Nat)
  /-- CCA_LIVE_READ (R157): A read of CCA.ACCL latches the high word of the same value into ACCH. -/
  | ccaLiveRead
  /-- STROKE_TIME_READ (R28): A read of STK.TIMEL latches the high time word for that requester. -/
  | strokeTimeRead (rq : Requester) (us : Nat)
  /-- CURRENT_WAKE (R160): CCA.WAKE.CNT consecutive samples above the threshold in hibernation raise the current wake. -/
  | currentWake
  /-- OCS_TRIP (R164): The short comparator trips, latches FCS.FLAGS.OCS, records OCSTIME and triggers capture. -/
  | ocsTrip (us nv : Nat)
  /-- BKI_TRIP (R165): The break-inhibit comparator trips and asserts the break-inhibit line to the coil drivers. -/
  | bkiTrip (nv : Nat)
  /-- BKI_RELEASE (R163): The magnitude stays below release level for 10 us and the comparator releases. -/
  | bkiRelease (nv : Nat)
  /-- CAPTURE_TRIGGER (R166): FCS.CTRL.CAPTRIG triggers the capture buffer if armed. -/
  | captureTrigger
  /-- CAPTURE_ARM (R166): FCS.CTRL.CAPARM re-arms the capture buffer. -/
  | captureArm
  /-- CAPTURE_READ (R166): A read of FCS.CAPDATA returns the sample at POS and advances POS. -/
  | captureRead
  /-- FCS_SELF_TEST (R167): FCS.TEST.GO applies a +180 mV test voltage for 20 us with comparator outputs routed only to TEST. -/
  | fcsSelfTest
  /-- FCS_SELF_TEST_END (R167): The 20 us self-test window ends and its results set TEST bits or STFAIL. -/
  | fcsSelfTestEnd (ocs bki : Bool) (meanCode : Int)
  /-- HVS_TEST (R172): HVS.CTRL.TEST drives a 1 uA test current out of the named channels for 1 ms. -/
  | hvsTest (mask : Nat)
  /-- HVS_TEST_END (R172): The 1 ms HVS test ends and OPEN is set or cleared for each channel. -/
  | hvsTestEnd (fullScale : Nat)
  /-- LINK_LOSS (R178): A chain receiver loses link after 4 us without transitions and its port stops sending idle. -/
  | linkLoss (port : RingPort)
  /-- LINK_REGAIN (R178): A chain receiver regains link after 100 us of valid idle. -/
  | linkRegain (port : RingPort)
  /-- ENUM_TIMEOUT (R193): The ENUM state ends by time-out and the ring becomes WHOLE or SPLIT as found. -/
  | enumTimeout (echoA echoB : Bool)
  /-- SAMPLE_READS_START (R199): At catch plus 600 us the chain starts the heat-phase SAMPLE reads in order. -/
  | sampleReadsStart
  /-- CHAIN_RESPONSE (R197): A chain response is received and checked for CRC, seat, tag and type. -/
  | chainResponse (dir : RingPort) (raw : List Byte) (us : Nat)
  /-- CHAIN_TIMEOUT (R197): No response begins within 20 us plus 1.5 us per hop and the attempt fails. -/
  | chainTimeout (dir : RingPort) (us : Nat)
  /-- CATCH_ECHO (R193): A CATCH copy returns to the other port and is judged good or bad. -/
  | catchEcho (dir : RingPort) (good sameEnd : Bool) (latency10ns : Nat)
  /-- RING_SPLIT (R193): An echo missing or bad at chn.break_n consecutive catches makes the ring SPLIT. -/
  | ringSplit (armaLast armbLast : Nat)
  /-- RING_HEAL (R193): Both echoes good at chn.heal_n consecutive catches make the ring WHOLE. -/
  | ringHeal
  /-- SEAT_LOST (R195): A seat without valid chain response for chn.lost_heats heats becomes LOST. -/
  | seatLost (seat : Nat)
  /-- CHAIN_SUBMIT (R203): Writing CHN.SUBMIT queues a QUEUED tag, or counts it in TXT.BADSUB. -/
  | chainSubmit (tag cls : Nat)
  /-- RADIO_RETUNE (R216): At catch minus 150 us the radio retunes to the next stroke's data channel. -/
  | radioRetune
  /-- BEACON (R211): At catch plus 100 us the radio sends the beacon in slot 0. -/
  | beacon
  /-- RADIO_SLOT (R213): At a slot start the radio sends the next transaction's request. -/
  | radioSlot (slot : Nat)
  /-- RADIO_RESPONSE (R213): A radio response is received and checked for CRC and MIC. -/
  | radioResponse (air : List Byte) (us : Nat)
  /-- RADIO_TIMEOUT (R213): No ACCESS field by request end plus 60 us records a radio time-out. -/
  | radioTimeout (us : Nat)
  /-- LOCK_LOSS (R217): The lock detector drops during the gather window and the radio retunes. -/
  | lockLoss
  /-- LOCK_TIMEOUT (R217): No lock within 120 us of a retune starts a full calibration. -/
  | lockTimeout
  /-- SLOT_FORFEIT (R217): No lock by slot start plus 80 us forfeits the slot, or the beacon. -/
  | slotForfeit (slot : Nat) (lockDelayUs : Nat)
  /-- CALIBRATE_NOW (R216): Writing RAD.CALCTRL.CALNOW requests a calibration in the next quiet region. -/
  | calibrateNow
  /-- JOIN_REQUEST (R219): A JOIN_REQ is received and accepted into the buffer or dropped. -/
  | joinRequest (air : List Byte)
  /-- GRANT_QUEUE (R219): Writing RAD.GRANT queues a join grant for a seat. -/
  | grantQueue (seat : Nat)
  /-- RADIO_SUBMIT (R203): Writing RAD.SUBMIT queues a tag on the radio path. -/
  | radioSubmit (tag cls : Nat)
  /-- CHANNEL_QUARANTINE_END (R207): A bad channel becomes eligible again after rad.map_quar minutes. -/
  | channelQuarantineEnd (ch : Nat)
  /-- SEAT_FAULTY (R223): A seat reaching twn.disagree_max DISAGREE outcomes in 24 hours becomes faulty. -/
  | seatFaulty (seat : Nat)
  /-- ONE_BLADE (R224): The seventeenth consecutive single-path heat sets ONE_BLADE. -/
  | oneBlade (seat : Nat)
  /-- COIL_OVERCURRENT (R230): A coil-driver overcurrent turns the output off within 5 us and sets CTR.FAULT.OC. -/
  | coilOvercurrent (c : Nat)
  /-- COIL_OPEN_LOAD (R230): Hold current below 50 % at full duty for 10 ms sets CTR.FAULT.OPENLOAD. -/
  | coilOpenLoad (c : Nat)
  /-- CLOSE_TIMEOUT (R232): A contact not closed within ctr.c.tclose fails to close and its string goes OPEN. -/
  | closeTimeout (c : Nat)
  /-- NEG_OPEN_TIMEOUT (R233): ctr.c.topen after POS turned off NEG is turned off if not already. -/
  | negOpenTimeout (s : Nat)
  /-- WELD_FEEDBACK (R234): Feedback still closed ctr.c.topen after turn-off declares a weld. -/
  | weldFeedback (c : Nat)
  /-- WELD_HVS_JUDGE (R234): At the end of ctr.weld_t the weld pair test judges the contactor. -/
  | weldHvsJudge (c : Nat)
  /-- PUMP_SNAP (R417): VGS falls through the snap level, the coil rail switch turns off and CTR.OUT is cleared. -/
  | pumpSnap
  /-- RAIL_LOSS (R417): The coil rail below 9 V for 1 ms clears CTR.OUT. -/
  | railLoss
  /-- RAIL_UP (R420): The pump fed without a gap for t_up makes the coil rail up. -/
  | railUp
  /-- PUMP_SKIP (R237): PUMP.CTRL.SKIP withholds the pump feed for the next stroke. -/
  | pumpSkip
  /-- SNAP_TEST (R236): PUMP.CTRL.SNAPTEST forces the snap for 1 ms while every output is off. -/
  | snapTest
  /-- DEFER_EXPIRE (R240): ctr.defer expires with an output still held and Camlan enters easy with cause 0x19. -/
  | deferExpire
  /-- ENERGY_GATE_TIMEOUT (R245): The energy gate still closed after ctr.admit_wait ends the closing order. -/
  | energyGateTimeout (s : Nat)
  /-- ADMIT_TIMEOUT (R248): A string still admitting after ctr.admit_wait has NEG opened and its order ended. -/
  | admitTimeout (s : Nat)
  /-- TEST_PULSE_FAULT (R250): An overcurrent on a test-pulse source turns it off and sets TPFAULT. -/
  | testPulseFault (src : Nat)
  /-- SIN_LEVEL_CHANGE (R251): The filtered level of an input changes after 3 ms of the new level outside excluded windows. -/
  | sinLevelChange (n : Nat) (level : Bool)
  /-- SIN_FINDING (R251): A stuck or cross finding seen in 2 consecutive cycles is set. -/
  | sinFinding (n : Nat) (cross : Option Nat)
  /-- SIN_FINDING_CLEAR (R251): A finding clears after 10 consecutive clean high cycles. -/
  | sinFindingClear (n : Nat)
  /-- SIN_PAIR_DISCREPANCY (R254): One input of a pair tripped alone for sin.disc_t latches both tripped. -/
  | sinPairDiscrepancy (n : Nat)
  /-- MDI_TIMEOUT (R256): A move not ended after mdi.tmove, or 6 s for homing, ends in TIMEOUT. -/
  | mdiTimeout
  /-- MDI_STALL (R256): Motor current above mdi.ilim for 200 ms ends the move in STALL. -/
  | mdiStall
  /-- MDI_OVERCURRENT (R256): Bridge current above twice mdi.ilim turns the bridge off in hardware. -/
  | mdiOvercurrent
  /-- MDI_BRAKE_END (R255): After 100 ms of braking the bridge turns off or the new move starts. -/
  | mdiBrakeEnd
  /-- MDI_WAIT_DEFER (R257): An isolator move waiting beyond ctr.defer is logged and keeps waiting. -/
  | mdiWaitDefer
  /-- MDI_GO (R255): MDI.CTRL.GO starts a move in DIR at the next catch. -/
  | mdiGo (close : Bool)
  /-- MDI_STOP (R255): MDI.CTRL.STOP brakes and stops the bridge at the next catch. -/
  | mdiStop
  /-- IMD_HALF_END (R261): The first half of an insulation period ends and the switches change at the catch. -/
  | imdHalfEnd (v1 v1a v1b u1 : Nat)
  /-- IMD_PERIOD_END (R261): An insulation period ends and pole resistances are computed and validated. -/
  | imdPeriodEnd (v2 v2a v2b u2 : Nat)
  /-- IMD_KIN_EXCLUDE (R263): The KIN-excluded period falls due and KINSW opens at the boundary, or is postponed. -/
  | imdKinExclude
  /-- KIN_STALE (R263): 60 minutes without a valid excluded period set G_KIN to 0 and STALE_KIN. -/
  | kinStale
  /-- IMD_SWITCH_FAULT (R265): LED current below 1 mA for 100 us sets SWFAULT and turns the switch off. -/
  | imdSwitchFault (nSide : Bool)
  /-- HIBERNATE_IDLE (R284): est.hib_idle minutes of idleness start the hibernation grace. -/
  | hibernateIdle
  /-- HIBERNATE_GRACE_END (R284): The grace ends and the part hands over to the always-on domain. -/
  | hibernateGraceEnd
  /-- CONSOLE_WAKE (R285): A console receive line held low 10 ms in hibernation wakes the part with cause WAKE. -/
  | consoleWake (port : Nat)
  /-- SURGE_DOORBELL (R286): A write of SDOOR is stamped as a surge request or ticket release. -/
  | surgeDoorbell (k : Nat) (value : Word) (us : Nat)
  /-- TICKET_EXPIRE (R289): An active ticket reaches its expiry stroke and ends. -/
  | ticketExpire
  /-- CAN_FRAME_RECEIVED (R294): A received frame is stored into the matching receive object or the receive-all FIFO. -/
  | canFrameReceived (x : CanId) (f : CanFrame) (us : Nat)
  /-- WINDOW_SELECT (R296): A write of CANx.WSEL copies the selected object into the requester's buffer. -/
  | windowSelect (rq : Requester) (x : CanId) (value : Word)
  /-- WINDOW_COMMIT (R296): CANx.WCOMMIT.GO writes the buffer back into the selected object. -/
  | windowCommit (rq : Requester) (x : CanId)
  /-- TX_REQUEST (R297): A write of CANx.TXREQ requests transmission and sets PENDING. -/
  | txRequest (rq : Requester) (x : CanId) (mask : Word) (us : Nat)
  /-- TX_ABORT (R297): A write of CANx.TXABORT ends a pending object with ABORTED. -/
  | txAbort (rq : Requester) (x : CanId) (mask : Word)
  /-- TX_ATTEMPT (R300): An attempt starts on an idle bus when its worst-case end lies within its limit. -/
  | txAttempt (x : CanId) (obj : Nat) (us : Nat)
  /-- TX_ATTEMPT_END (R300): An attempt ends sent or failed and the object ends or waits. -/
  | txAttemptEnd (x : CanId) (ok lostArb : Bool) (lec : Nat)
  /-- TX_LIMIT_REACHED (R300): The window end or deadline stops further attempts and the object ends MISSED, EXPIRED or TIMEOUT. -/
  | txLimitReached (x : CanId) (obj : Nat) (byDeadline : Bool)
  /-- CAN_ERROR_STATE (R301): A controller's error state changes. -/
  | canErrorState (x : CanId) (err tec rec lec dlec : Nat)
  /-- CAN_BUS_OFF (R301): A controller enters bus-off. -/
  | canBusOff (x : CanId)
  /-- BUSOFF_HOLD_END (R301): can.x.busoff_hold after bus-off Camlan sets AUTORECOV. -/
  | busoffHoldEnd (x : CanId)
  /-- BUSOFF_RECOVERED (R301): The ISO recovery sequence completes. -/
  | busoffRecovered (x : CanId) (ms : Nat)
  /-- CAN_WAKE (R303): A CAN wake indication ends hibernation. -/
  | canWake (ball : CanWakeBall)
  /-- CANA_PERIODIC (R304): Every cana.period Camlan requests the LIMITS and STATE frames. -/
  | canaPeriodic
  /-- CREW_REFERENCE_SEND (R308): The leader or deputy sends the reference frame at catch plus 20 us. -/
  | crewReferenceSend
  /-- CREW_REFERENCE_RECEIVED (R308): A reference frame's start of frame is captured in CANB.SOFREF. -/
  | crewReferenceReceived (data : List Byte) (sof : Nat)
  /-- CREW_REFERENCE_MISSING (R313): 8 missing references make the lowest locked lane deputy, or the lane lose lock. -/
  | crewReferenceMissing
  /-- CREW_LISTEN_END (R309): crew.listen ends without a reference and Camlan starts the stroke timer itself. -/
  | crewListenEnd (jedec : Nat)
  /-- ARM_RUN (R309): With ARMRUN set the next captured reference starts the stroke timer in hardware. -/
  | armRun (jedec : Nat)
  /-- CREW_JOIN_RECEIVED (R310): A join frame is received and recorded for admission. -/
  | crewJoinReceived (lane : Nat) (data : List Byte) (us : Nat)
  /-- CREW_SUMMARY_RECEIVED (R312): A status summary frame is received for a lane. -/
  | crewSummaryReceived (lane : Nat) (data : List Byte) (us : Nat)
  /-- LANE_GONE (R312): A third missed summary row declares the lane gone. -/
  | laneGone (lane : Nat)
  /-- CREW_ORDERS_RECEIVED (R314): An orders frame is accepted as rank-5 orders or discarded. -/
  | crewOrdersReceived (lane : Nat) (data : List Byte) (us : Nat)
  /-- CREW_OUTCOME_RECEIVED (R315): An outcome frame is received and recorded in TL0. -/
  | crewOutcomeReceived (lane : Nat) (data : List Byte) (us : Nat)
  /-- CREW_NOREPLY (R336): No outcome frame after 2 watches answers a crew command with error 14. -/
  | crewNoreply (lane : Nat)
  /-- CONSOLE_LINE (R321): A terminator completes a console line, which is stamped and parsed. -/
  | consoleLine (port : Nat) (us : Nat)
  /-- AUTOBAUD (R319): The start bit of the first CR is measured and the nearest rate adopted. -/
  | autobaud (port : Nat) (width : Nat)
  /-- CONSOLE_BREAK (R320): A receive line low for 10 ms discards the partial line. -/
  | consoleBreak (port : Nat)
  /-- SESSION_IDLE (R330): con.idle seconds without a line return the session to VIEW. -/
  | sessionIdle (port : Nat)
  /-- LOGIN_LOCKOUT_END (R331): The 10-minute login lockout of a port ends. -/
  | loginLockoutEnd (port : Nat)
  /-- CHALLENGE_EXPIRE (R332): A SERVICE challenge expires after 60 s. -/
  | challengeExpire (port : Nat)
  /-- NOTICE_FLUSH (R327): A withheld notice is sent when the line completes or after 5 s. -/
  | noticeFlush (port : Nat)
  /-- LOST_NOTICE (R329): When output buffer space returns a lost notice reports dropped notices. -/
  | lostNotice (port : Nat)
  /-- PING (R333): ping replies pong. -/
  | ping (port : Nat)
  /-- LOGIN_INSTALLER (R331): login installer checks the code and raises the session to INSTALLER. -/
  | loginInstaller (port : Nat) (code : Nat)
  /-- LOGIN_TENANT (R331): login tenant checks the partition code and raises the session to TENANT. -/
  | loginTenant (port : Nat) (k : Nat) (code : Nat)
  /-- LOGIN_SERVICE (R332): login service answers with a challenge. -/
  | loginService (port : Nat)
  /-- AUTH (R408): auth verifies the signature against enrolled service keys. -/
  | auth (port : Nat) (id : Nat) (sig : List Byte)
  /-- LOGOUT (R330): logout returns the session to VIEW and frees its helm. -/
  | logout (port : Nat)
  /-- WHOAMI (R333): whoami reports the session's level, port, source, rank and helm. -/
  | whoami (port : Nat)
  /-- PASSCODE (R333): passcode sets an installer or tenant login code. -/
  | passcode (port : Nat) (k : Nat) (code : Nat)
  /-- SHOW_VERSION (R333): show version reports part, revision, grade, Camlan version and UID. -/
  | showVersion (port : Nat)
  /-- SHOW_START (R130): show start reports the start progress of the stake-boat interval. -/
  | showStart (port : Nat) (us : Nat)
  /-- SHOW_STATUS (R333): show status reports state, helm, SOC, current and limits. -/
  | showStatus (port : Nat)
  /-- SHOW_STRING (R333): show string reports a string record. -/
  | showString (port : Nat) (s : Nat)
  /-- SHOW_SEAT (R333): show seat reports a seat record with cells and temperatures. -/
  | showSeat (port : Nat) (n : Nat)
  /-- SHOW_HELM (R333): show helm reports the holder. -/
  | showHelm (port : Nat)
  /-- SHOW_TICKET (R333): show ticket reports the active ticket. -/
  | showTicket (port : Nat)
  /-- SHOW_MDI (R333): show mdi reports the isolator fields. -/
  | showMdi (port : Nat)
  /-- SHOW_IMD (R333): show imd reports the insulation monitor fields. -/
  | showImd (port : Nat)
  /-- SHOW_SIN (R333): show sin reports the safety input fields. -/
  | showSin (port : Nat)
  /-- SHOW_KPA (R333): show kpa reports the keep-alive fields. -/
  | showKpa (port : Nat)
  /-- SHOW_PART (R333): show part reports one line per partition. -/
  | showPart (port : Nat)
  /-- SHOW_CREW (R333): show crew reports the crew link state and lanes. -/
  | showCrew (port : Nat)
  /-- SHOW_CHAIN (R333): show chain reports ring state, seats and counters. -/
  | showChain (port : Nat)
  /-- SHOW_RADIO (R333): show radio reports the hop set and forfeits. -/
  | showRadio (port : Nat)
  /-- SHOW_RESET (R333): show reset reports reset cause, count and wipe. -/
  | showReset (port : Nat)
  /-- SHOW_TALLY (R333): show tally reports every tally counter. -/
  | showTally (port : Nat)
  /-- GET (R333): get reports confirmed parameter values in canonical form. -/
  | getParam (port : Nat) (keys : List PKey)
  /-- OPEN (R334): open places an OPEN order of the session on its target. -/
  | openOrder (port : Nat) (target : Nat) (us : Nat)
  /-- CLOSE (R334): close places a CLOSE order of the session on its target. -/
  | closeOrder (port : Nat) (target : Nat) (us : Nat)
  /-- LIMIT (R334): limit places a limit order classed as DERATE or RAISE by value. -/
  | limitOrder (port : Nat) (target : Nat) (mA : Int) (us : Nat)
  /-- HELM_TAKE (R334): helm take places a TAKE_HELM order. -/
  | helmTake (port : Nat) (us : Nat)
  /-- HELM_RELEASE (R334): helm release places a RELEASE_HELM order. -/
  | helmRelease (port : Nat) (us : Nat)
  /-- SURGE (R335): surge places a surge request stamped as an order. -/
  | surge (port : Nat) (power : Int) (duration : Nat) (us : Nat)
  /-- SURGE_RELEASE (R335): surge release ends this console's ticket. -/
  | surgeRelease (port : Nat)
  /-- CREW_ORDER (R336): crew order sends an order to a lane in the next orders window. -/
  | crewOrder (port lane kind target : Nat) (value : Int) (ref : Nat)
  /-- CREW_SURGE (R336): crew surge sends a surge request to a lane. -/
  | crewSurge (port lane : Nat) (power : Int) (duration : Nat) (ref : Nat)
  /-- SET (R338): set stages every pair or none after range and staging checks. -/
  | setParams (port : Nat) (pairs : List (PKey × PVal))
  /-- STAGE_SHOW (R341): stage show lists staged parameters with confirmed values. -/
  | stageShow (port : Nat)
  /-- STAGE_CHECK (R341): stage check reports the staged count and check value. -/
  | stageCheck (port : Nat)
  /-- STAGE_DROP (R341): stage drop discards the staging. -/
  | stageDrop (port : Nat)
  /-- STAGE_DUMP (R339): stage dump returns the canonical serialization lines. -/
  | stageDump (port : Nat)
  /-- CONFIRM (R340): confirm applies the staging when the check value matches and checks still pass. -/
  | confirm (port : Nat) (check : Word)
  /-- LCS_COMMISSION (R125): lcs commission requests a transition to COMMISSIONING. -/
  | lcsCommission (port : Nat) (code : Nat)
  /-- LCS_BLANK (R125): lcs blank requests a transition from COMMISSIONING to BLANK. -/
  | lcsBlank (port : Nat)
  /-- LCS_SEAL (R125): lcs seal requests a transition to SEALED. -/
  | lcsSeal (port : Nat)
  /-- LCS_SERVICE (R125): lcs service requests a transition from SEALED to SERVICE. -/
  | lcsService (port : Nat)
  /-- LCS_RETIRE (R125): lcs retire requests a transition to RETIRED. -/
  | lcsRetire (port : Nat)
  /-- CLEAR_EASY (R54): clear easy leaves easy when every contactor is open by feedback. -/
  | clearEasy (port : Nat)
  /-- CLEAR_PRECHARGE (R246): clear precharge ends a pre-charge lockout and its failure times. -/
  | clearPrecharge (port : Nat) (s : Nat)
  /-- CLEAR_WELD (R235): clear weld takes a WELDED string to OPEN under its conditions. -/
  | clearWeld (port : Nat) (s : Nat)
  /-- CLEAR_CONTACTOR (R230): clear contactor clears a coil-driver fault. -/
  | clearContactor (port : Nat) (c : Nat)
  /-- CLEAR_MDI (R259): clear mdi takes the isolator from FAULT to HOMING. -/
  | clearMdi (port : Nat)
  /-- CLEAR_SIN (R253): clear sin ends a latched safety-input trip. -/
  | clearSin (port : Nat) (n : Nat)
  /-- CLEAR_IMD (R266): clear imd ends the insulation alarm refusal. -/
  | clearImd (port : Nat)
  /-- CLEAR_SEAT (R223): clear seat ends a seat's faulty condition. -/
  | clearSeat (port : Nat) (n : Nat)
  /-- CLEAR_KBAT (R142): clear kbat clears the backup charger fault. -/
  | clearKbat (port : Nat)
  /-- CLEAR_AUX (R153): clear aux clears the latched auxiliary output. -/
  | clearAux (port : Nat)
  /-- STOP (R130): stop in the stake-boat interval makes Camlan enter easy with cause 0x16 at its end. -/
  | stop (port : Nat)
  /-- SHIP (R149): ship enters ship mode when its conditions hold. -/
  | ship (port : Nat)
  /-- HIBERNATE (R284): hibernate announces hibernation and starts the grace. -/
  | hibernate (port : Nat)
  /-- KBAT_START (R147): kbat start starts a backup charge. -/
  | kbatStart (port : Nat)
  /-- KBAT_STOP (R147): kbat stop ends a backup charge in DONE. -/
  | kbatStop (port : Nat)
  /-- SUSPEND (R104): suspend suspends a partition with cause 0x07. -/
  | suspend (port : Nat) (k : Nat)
  /-- RESUME (R106): resume restarts a suspended partition from its entry points. -/
  | resume (port : Nat) (k : Nat)
  /-- PAIR_SEAT (R220): pair seat pairs one seat over the wire when permitted. -/
  | pairSeat (port : Nat) (n : Nat)
  /-- PAIR_ALL (R220): pair all pairs every seat, creating the radio network first if needed. -/
  | pairAll (port : Nat)
  /-- EST_SAVE (R342): est save writes the restore record taken at the next finish. -/
  | estSave (port : Nat)
  /-- EST_RESTORE_BEGIN (R342): est restore begin opens a restore transfer. -/
  | estRestoreBegin (port : Nat) (size : Nat)
  /-- EST_RESTORE_DATA (R342): est restore off carries a data line of the record. -/
  | estRestoreData (port : Nat) (off : Nat) (data : List Byte)
  /-- EST_RESTORE_END (R279): est restore end judges the record and accepts or refuses it. -/
  | estRestoreEnd (port : Nat)
  /-- LOG_HEAD (R333): log head reports a book's FIRST, NEXT and counts. -/
  | logHead (port : Nat) (book : Nat)
  /-- LOG_READ (R343): log read copies up to 16 records within one stroke. -/
  | logRead (port : Nat) (book seq count : Nat)
  /-- LOG_RELEASE (R348): log release frees records of a book. -/
  | logRelease (port : Nat) (book upto : Nat)
  /-- LOG_SUBMIT (R349): A write of LOG.SUBGO judges and queues a record submission. -/
  | logSubmit (rq : Requester)
  /-- LOG_RECORD_WRITE (R350): The LOG writer stores the oldest pending record into its book and advances NEXT. -/
  | logRecordWrite
  /-- LOG_CURSOR_LOAD (R354): A write of LOG.CURSEQ loads the window and sets WSTAT. -/
  | logCursorLoad (rq : Requester) (seq : Word)
  /-- LOG_WINDOW_ADVANCE (R354): A read of WIN7 advances CURSEQ and loads the next record. -/
  | logWindowAdvance (rq : Requester)
  /-- LOG_BOOK_RELEASE (R348): A write of LOG.RELEASE sets the book's FIRST. -/
  | logBookRelease (rq : Requester) (book : Nat)
  /-- TALLY_ACC_COMMIT (R362): Every tally.commit minutes the ACC counters are committed. -/
  | tallyAccCommit (verifyOk : Bool)
  /-- EFC_PROGRAM (R365): EFC.CMD program writes one 64-bit word, suspending an erase if needed. -/
  | efcProgram (rq : Requester) (key : Nat)
  /-- EFC_ERASE (R365): EFC.CMD erase erases one 8 KiB sector. -/
  | efcErase (rq : Requester) (key : Nat)
  /-- EFC_TOLERANT_READ (R359): EFC.CMD tolerant read reports data and ECC class without raising faults. -/
  | efcTolerantRead (rq : Requester) (data check : Nat)
  /-- EFC_OPERATION_DONE (R365): An eflash operation ends and sets DONE or an error. -/
  | efcOperationDone (ok : Bool)
  /-- SECTOR_REFRESH (R366): run_s passing a multiple of 3 days starts the refresh of the next sector. -/
  | sectorRefresh
  /-- TAG_REQA (R368): REQA is answered with ATQA. -/
  | tagReqa
  /-- TAG_WUPA (R368): WUPA is answered with ATQA. -/
  | tagWupa
  /-- TAG_ANTICOLLISION (R368): An anticollision command at a cascade level returns UID bytes. -/
  | tagAnticollision (level : Nat) (bitsKnown : List Byte)
  /-- TAG_SELECT (R368): SELECT selects the tag at a cascade level. -/
  | tagSelect (level : Nat) (uid : List Byte)
  /-- TAG_HLTA (R368): HLTA halts the tag. -/
  | tagHlta
  /-- TAG_READ (R369): READ returns 4 pages of the current sector. -/
  | tagRead (page : Nat)
  /-- TAG_WRITE (R369): WRITE programs one field-writable page. -/
  | tagWrite (page : Nat) (data : List Byte) (verifyOk : Bool) (us : Nat)
  /-- TAG_COMPAT_WRITE (R369): COMPATIBILITY_WRITE writes the first 4 of 16 bytes to a page. -/
  | tagCompatWrite (page : Nat) (data : List Byte) (verifyOk : Bool) (us : Nat)
  /-- TAG_SECTOR_SELECT (R369): SECTOR_SELECT changes the current sector. -/
  | tagSectorSelect (sector : Nat)
  /-- TAG_FIELD_ON (R379): An NFC field is detected. -/
  | tagFieldOn
  /-- TAG_FIELD_OFF (R377): The field is removed and releases the mailbox semaphore. -/
  | tagFieldOff
  /-- TAG_HOST_STORE (R372): A host store to the tag window gathers into the row buffer. -/
  | tagHostStore (addr : Nat) (data : List Byte)
  /-- TAG_FLUSH (R372): TAG.CTRL.FLUSH programs the row buffer. -/
  | tagFlush
  /-- TAG_ROW_PROGRAM_DONE (R372): A host row finishes programming and BUSY clears. -/
  | tagRowProgramDone (verifyOk : Bool)
  /-- TAG_CONFIRMATION (R375): Camlan reads a newly written confirmation field and executes it as confirm. -/
  | tagConfirmation
  /-- TAG_MAILBOX_REQUEST (R378): Camlan takes the semaphore and executes a mailbox line at VIEW level. -/
  | tagMailboxRequest
  /-- TAG_SEMAPHORE_TAKE (R377): TAG.MBSEM.TAKE gives the host the semaphore only when free. -/
  | tagSemaphoreTake
  /-- TAG_SEMAPHORE_RELEASE (R377): TAG.MBSEM.RELEASE frees the host's semaphore. -/
  | tagSemaphoreRelease
  /-- TAG_FIELD_IDLE_RELEASE (R377): 50 ms without a field mailbox command releases the field's semaphore. -/
  | tagFieldIdleRelease
  /-- TAG_WIPE (R371): TAG.WIPE writes zero to the TAGU or TAGC regions. -/
  | tagWipe (value : Word)
  /-- QP_PUSH (R382): QP PUSH queues an entry or refuses it. -/
  | qpPush (rq : Requester) (n : Nat)
  /-- QP_CHAIN_RUN (R381): A waiting queue chain takes the bus. -/
  | qpChainRun (n : Nat)
  /-- QP_CHAIN_END (R382): A queue chain ends and IRQ entries update DONECNT. -/
  | qpChainEnd (received : List Word)
  /-- XIP_MISS (R388): A window access missing the prefetch buffer starts a fill. -/
  | xipMiss (sc : Nat) (addr : Nat)
  /-- XIP_LINE_DONE (R390): A fill's line read ends and its tag is checked. -/
  | xipLineDone (data tag data2 tag2 : List Byte)
  /-- XIP_INVALIDATE (R388): QP.CTRL.INVAL clears the prefetch buffer. -/
  | xipInvalidate
  /-- QP_SLAVE_FRAME (R386): QSEL3 rising in slave mode accepts or rejects the frame whole. -/
  | qpSlaveFrame (bits : Nat) (words : List Word)
  /-- GPIO_SET (R393): A write of GPIO.SET drives pins high. -/
  | gpioSet (rq : Requester) (pins : Word)
  /-- GPIO_CLR (R393): A write of GPIO.CLR drives pins low. -/
  | gpioClr (rq : Requester) (pins : Word)
  /-- GPIO_EDGE (R393): An enabled edge sets EDGE and the partition's GPIO event. -/
  | gpioEdge (pin : Nat) (level : Bool)
  /-- DEBUG_AUTH (R409): The JTAG AUTH exchange verifies a debug challenge response. -/
  | debugAuth (sig : List Byte)
  /-- DEBUG_HALT (R76): A debug halt request halts both cores in step. -/
  | debugHalt
  /-- DEBUG_RESUME (R76): A debug resume request resumes both cores. -/
  | debugResume
  /-- DEBUG_STEP (R76): A debug step request single-steps both cores. -/
  | debugStep
  /-- DEBUG_ABSTRACT_COMMAND (R74): An abstract command reads or writes a GPR or CSR. -/
  | debugAbstractCommand (regno : Nat) (write : Option Word)
  /-- DEBUG_PROGRAM_BUFFER (R74): The program buffer executes on the Cox with P0's rights. -/
  | debugProgramBuffer (words : List Word) (acc : BusAccess)
  /-- DEBUG_SYSBUS_READ (R74): System-bus access reads the boot ROM. -/
  | debugSysbusRead (addr : Nat)
  /-- DEBUG_RESET_REQUEST (R113): A debug-module reset request while attached resets with cause DEBUG. -/
  | debugResetRequest
  /-- SEC_SHA256 (R101): SEC operation SHA-256. -/
  | secSha256
  /-- SEC_AES_ECB (R221): SEC operation AES-ECB. -/
  | secAesEcb
  /-- SEC_AES_CCM (R210): SEC operation AES-CCM. -/
  | secAesCcm
  /-- SEC_AES_CMAC (R389): SEC operation AES-CMAC. -/
  | secAesCmac
  /-- SEC_ECDSA_VERIFY (R408): SEC operation ECDSA P-256 verify. -/
  | secEcdsaVerify
  /-- SEC_OPERATION_DONE (R408): A SEC operation ends and sets DONE or ERR. -/
  | secOperationDone (ok : Bool)
  /-- SEC_KEY_LOAD (R405): SEC.KEYLOAD loads a key slot from the buffer. -/
  | secKeyLoad (slot : Nat)
  /-- SEC_KEY_GENERATE (R405): SEC.KEYLOAD with GEN generates a key in a slot. -/
  | secKeyGenerate (slot : Nat)
  /-- SEC_RANDOM_READ (R405): A read of SEC.RAND returns a fresh random word. -/
  | secRandomRead
  /-- FINISH_DEADLINE (R26): At 90 % of every stroke the finish deadline passes and STK.IRQ.FINDL is set, whether or not the finish was clean. -/
  | finishDeadline
  /-- FCS_SAMPLE (R162): Every 1 us the FCS converts a 12-bit code, and a code at either end of the range sets FCS.FLAGS.SAT and its IRQ. -/
  | fcsSample (code : Int)
  /-- HVS_CONVERSION (R169): Each HVS channel conversion updates RAW and MEAN and sets HVS.STAT.SAT and its IRQ at full scale. -/
  | hvsConversion (ch : Nat) (code : Nat)
  /-- TMP_CONVERSION (R174): Every 1 ms each NTC input and the die sensor are converted, and an input found open or shorted sets TMP.IRQ.INVALID. -/
  | tmpConversion (codes : List Nat) (dieCenti : Int)
  /-- SOURCE_LIMIT (R133): The selected keep-alive source reaches its limit, the charger then the auxiliary output are cut back and CUT, or KIN_SHORT with KBAT supplementing, is set. -/
  | sourceLimit (chargerCut auxCut systemShort : Bool)
  /-- AUX_TARGET_REACHED (R153): The auxiliary output's soft start reaches its target and the output enters RUN. -/
  | auxTargetReached
  /-- PULLIN_END (R229): ctr.c.pullin after a coil output turns on, the driver leaves full duty and regulates the hold current with 20 kHz PWM and clears PHASE.PULLIN. -/
  | pullinEnd (c : Nat)
  /-- LOCK_ACQUIRED (R217): The radio synthesizer reaches lock after a retune or calibration, and a transmit request waiting for lock is sent at that moment. -/
  | lockAcquired (us : Nat)
  /-- CONSOLE_BYTE_RECEIVED (R321): A byte received on a console is checked for framing, stored in the receive FIFO, echoed or edited in the typed form, and counted toward the line length. -/
  | consoleByteReceived (port : Nat) (byte : Byte) (framingOk : Bool)
  /-- CONSOLE_BYTE_SENT (R318): A console transmitter finishes sending a byte, freeing transmit space and setting TXEMPTY when the FIFO empties. -/
  | consoleByteSent (port : Nat)
  deriving DecidableEq, Repr

end Sys2Proof
end

