-- ==== Sys2Proof/Decode.lean ====
section
/-!
DEFINITION. The table of commands gives no bits: the commands of this block are operations and events, not words. No word spells one.
-/

namespace Sys2Proof

/-- The command a word spells by the table's bits: none, since no row of the table has bits. -/
def decodeTableWord (_nbits _w : Nat) : Option Instr := none

end Sys2Proof
end

