-- ==== Sys2Proof/Config.lean ====
section
/-!
DEFINITION. What the manual leaves open, as constants without a body: nothing can evaluate them, so a claim holds for every value of them (DESIGN CHOICE, log entries 1 and 2).
-/

namespace Sys2Proof.Config

/-- The n-th free value of the machine: a value the manual leaves open (DESIGN CHOICE, log entry 1). -/
opaque freeWord : Nat → BitVec 32

/-- SHA-256 of a byte string: named by R101, R116, R404 and R408, given by no section of the manual (DESIGN CHOICE, log entry 2). -/
opaque sha256 : List Byte → List Byte

/-- AES-128 encryption of one 16-byte block under a 16-byte key (R221, R405), given by no section of the manual (DESIGN CHOICE, log entry 2). -/
opaque aes128 : List Byte → List Byte → List Byte

/-- AES-CMAC of a message under a 16-byte key (R314, R389), given by no section of the manual (DESIGN CHOICE, log entry 2). -/
opaque aesCmac : List Byte → List Byte → List Byte

/-- ECDSA P-256 verification of a signature over a digest with a public key (R101, R408): key, digest, signature (DESIGN CHOICE, log entry 2). -/
opaque ecdsaVerify : List Byte → List Byte → List Byte → Bool

/-- The candidate public keys of a signature, in the order of R408: R with even y, with odd y, and the same for r + n; each 64 bytes, x then y; of a digest and a signature (DESIGN CHOICE, log entry 2). -/
opaque ecdsaCandidates : List Byte → List Byte → List (List Byte)

/-- The fused hash of the vendor service key (R408), which the manual does not give (DESIGN CHOICE, log entry 2). -/
opaque vendorServiceHash : List Byte

/-- e to the power of minus x, for the decay laws of R244, R288 and R286 (DESIGN CHOICE, log entry 2). -/
opaque expNeg : Rat → Rat

/-- The natural logarithm of a positive number, for the NTC conversion of R175 (DESIGN CHOICE, log entry 2). -/
opaque ln : Rat → Rat

/-- The code the Cox sees for a value of hardware that the manual does not fix, as a function of its place and of the data it depends on (DESIGN CHOICE, log entry 1). -/
opaque freeOf : Nat → Nat → Nat

end Sys2Proof.Config
end

