-- ==== Sys2Proof/Machine/Flags.lean ====
section
/-!
DEFINITION. Check values and number formats that every block shares: the two CRCs (R181, R323), little-endian packing (R3), severities (Table 15-4), rounding and saturation.
-/

namespace Sys2Proof.Machine

/-- The n low bytes of a number, least significant first (R3). -/
def leBytes : Nat → Nat → List Byte
  | 0, _ => []
  | n + 1, v => byteOf v :: leBytes n (v / 256)

/-- The number whose little-endian bytes are given (R3). -/
def leNat : List Byte → Nat
  | [] => 0
  | b :: t => b.toNat + 256 * leNat t

/-- A signed number in n bytes, two's complement (R4). -/
def leInt (n : Nat) (v : Int) : List Byte := leBytes n (v % (256 ^ n : Nat)).toNat

abbrev u8 (v : Nat) : List Byte := leBytes 1 v
abbrev u16 (v : Nat) : List Byte := leBytes 2 v
abbrev u32 (v : Nat) : List Byte := leBytes 4 v
abbrev s16 (v : Int) : List Byte := leInt 2 v
abbrev s32 (v : Int) : List Byte := leInt 4 v

/-- The two's complement reading of an n-bit field (R4). -/
def signed (n v : Nat) : Int := if v % 2 ^ n < 2 ^ (n - 1) then (v % 2 ^ n : Nat) else ((v % 2 ^ n : Nat) : Int) - (2 ^ n : Nat)

/-- One bit step of the reflected CRC-32 (R181). -/
def crc32Bit (c : Nat) : Nat := if c % 2 = 1 then (c / 2) ^^^ 0xEDB88320 else c / 2

def crc32Byte (c : Nat) (b : Byte) : Nat :=
  crc32Bit (crc32Bit (crc32Bit (crc32Bit (crc32Bit (crc32Bit (crc32Bit (crc32Bit (c ^^^ b.toNat))))))))

/-- CRC-32 with the IEEE 802.3 polynomial, reflected, initial value and final XOR 0xFFFF_FFFF (R181). -/
def crc32 (l : List Byte) : Nat := (l.foldl crc32Byte 0xFFFFFFFF) ^^^ 0xFFFFFFFF

/-- One bit step of CRC-16/CCITT-FALSE (R323). -/
def crc16Bit (c : Nat) : Nat := if c / 0x8000 % 2 = 1 then (c * 2 % 0x10000) ^^^ 0x1021 else c * 2 % 0x10000

def crc16Byte (c : Nat) (b : Byte) : Nat :=
  crc16Bit (crc16Bit (crc16Bit (crc16Bit (crc16Bit (crc16Bit (crc16Bit (crc16Bit (c ^^^ (b.toNat * 256)))))))))

/-- CRC-16/CCITT-FALSE: polynomial 0x1021, initial value 0xFFFF, no reflection, no final XOR (R323). -/
def crc16 (l : List Byte) : Nat := l.foldl crc16Byte 0xFFFF

/-- The ASCII bytes of a text. -/
def asciiBytes (t : String) : List Byte := t.toList.map (fun c => byteOf c.toNat)

/-- A quotient rounded to the nearest integer, half away from zero (DESIGN CHOICE, log entry 5). -/
def roundDiv (n : Int) (d : Nat) : Int :=
  if 0 ≤ n then (2 * n + d) / (2 * d : Nat) else -((2 * (-n) + d) / (2 * d : Nat))

/-- The nearest integer to a rational number, half away from zero (DESIGN CHOICE, log entry 5). -/
def roundRat (q : Rat) : Int := roundDiv q.num q.den

/-- A value held between two bounds. -/
def clampInt (lo hi v : Int) : Int := if v < lo then lo else if hi < v then hi else v

/-- A count that stops at its field's largest value. -/
def satAdd (n max k : Nat) : Nat := if max ≤ n + k then max else n + k

/-- Codes of severity CRITICAL (Table 15-4). -/
def criticalCodes : List Nat :=
  [0x0202, 0x0203, 0x0301, 0x0302, 0x0305, 0x0501, 0x0502, 0x0505, 0x0701, 0x090E, 0x0A04, 0x0A06, 0x0A07, 0x0B42, 0x0E05,
   0x0F03, 0x0F04, 0x0F14, 0x0F15]

/-- Codes of severity ERROR (Table 15-4). -/
def errorCodes : List Nat :=
  [0x0201, 0x0211, 0x0403, 0x0406, 0x0603, 0x0606, 0x0609, 0x0702, 0x0703, 0x0704, 0x0707, 0x0801, 0x0805, 0x0806, 0x090D,
   0x090F, 0x0A03, 0x0A08, 0x0A0B, 0x0A0C, 0x0B04, 0x0B21, 0x0B25, 0x0B26, 0x0B46, 0x0C11, 0x0D02, 0x0D16, 0x0E03, 0x0F11, 0x0F12]

/-- Codes of severity WARNING (Table 15-4). -/
def warningCodes : List Nat :=
  [0x0210, 0x0221, 0x0222, 0x0223, 0x0225, 0x0226, 0x0303, 0x0304, 0x0405, 0x0503, 0x0506, 0x0602, 0x0605, 0x0705, 0x0706,
   0x0708, 0x0803, 0x0809, 0x080A, 0x0901, 0x0902, 0x0906, 0x090A, 0x090B, 0x090C, 0x0A05, 0x0A0D, 0x0A10, 0x0B05, 0x0B06,
   0x0B23, 0x0B24, 0x0B41, 0x0B43, 0x0B44, 0x0B45, 0x0C20, 0x0D01, 0x0D04, 0x0D10, 0x0D12, 0x0D15, 0x0D17, 0x0E02, 0x0E07,
   0x0E08, 0x0E0A, 0x0F02]

/-- The severity of a Camlan code (R357): 4 CRITICAL, 3 ERROR, 2 WARNING, otherwise 1 NOTICE. -/
def severity (code : Nat) : Nat :=
  if criticalCodes.contains code then 4 else if errorCodes.contains code then 3 else if warningCodes.contains code then 2 else 1

/-- One upper-case hex digit. -/
def hexDigitU (n : Nat) : Char := (['0', '1', '2', '3', '4', '5', '6', '7', '8', '9', 'A', 'B', 'C', 'D', 'E', 'F'] : List Char).getD (n % 16) '0'

/-- n upper-case hex digits, the most significant first. -/
def hexU : Nat → Nat → String
  | 0, _ => ""
  | n + 1, v => hexU n (v / 16) ++ String.singleton (hexDigitU v)

/-- A number as `0x` and lower-case digits without leading zeros (R333). -/
def hex0x (v : Nat) : String := "0x" ++ String.ofList (Nat.toDigits 16 v)

/-- A check value as two groups of four digits, the high half first (R340). -/
def checkText (v : Nat) : String := hexU 4 (v / 65536) ++ "-" ++ hexU 4 v

end Sys2Proof.Machine
end

