-- ==== Sys2Proof/Machine/Params.lean ====
section
/-!
DEFINITION. The configuration parameters of every Parameters table: key, index, range, default and moment of application (R6, R338 to R341).
-/

namespace Sys2Proof

/-- How a key carries its index (R339). -/
inductive PIndex where
  | none | dec (lo hi : Nat) | named (l : List String)
  deriving DecidableEq, Repr

/-- The range column. Numbers in 1/1,000 of the unit; `int0` also admits 0. -/
inductive PKind where
  | int (lo hi : Int) | int0 (lo hi : Int) | frac (lo hi : Int) | numset (l : List Int) | enum (l : List String)
  | chans (n : Nat) | pair | slots | quota | xip | grants | hash | ident | table | matrix_ | key | ocs
  deriving DecidableEq, Repr

/-- The default column; `derived` stands for a default computed from another parameter, which reads as absent here. -/
inductive PDflt where
  | fixed (v : PVal) | zone | conZero | derived
  deriving DecidableEq, Repr

/-- The Applied column. -/
inductive Applied where
  | confirmation | reset | interval | pairing | slot | watch
  deriving DecidableEq, Repr

structure PInfo where
  prefix_ : String
  index : PIndex
  suffix : String
  kind : PKind
  dflt : PDflt
  applied : Applied
  deriving DecidableEq, Repr

/-- The Parameters tables. -/
def PName.info : PName → PInfo
  | .strokePeriod => ⟨"stroke.period", .none, "", .numset [2000, 5000, 10000, 20000], .fixed (.num 10000), .reset⟩
  | .strokeHeat => ⟨"stroke.heat", .none, "", .int 1000 16000, .fixed (.num 8000), .reset⟩
  | .helmDefault => ⟨"helm.default", .none, "", .enum ["none", "con0", "con1", "crew_leader", "p1", "p2", "p3", "p4", "p5", "p6", "p7"], .fixed (.sym 0), .interval⟩
  | .easyAutoclear => ⟨"easy.autoclear", .none, "", .int0 10000 3600000, .fixed (.num 60000), .confirmation⟩
  | .easyAutoclearMax => ⟨"easy.autoclear_max", .none, "", .int 0 10000, .fixed (.num 3000), .confirmation⟩
  | .coxEccCorrMax => ⟨"cox.ecc_corr_max", .none, "", .int 1000 255000, .fixed (.num 16000), .confirmation⟩
  | .partSlots => ⟨"part.p", .dec 1 7, ".slots", .slots, .fixed .absent, .watch⟩
  | .partQuota => ⟨"part.p", .dec 1 7, ".quota", .quota, .fixed .absent, .reset⟩
  | .partGrants => ⟨"part.p", .dec 1 7, ".grants", .grants, .fixed .absent, .slot⟩
  | .partXip => ⟨"part.p", .dec 1 7, ".xip", .xip, .fixed .absent, .reset⟩
  | .partKeyhash => ⟨"part.p", .dec 1 7, ".keyhash", .hash, .fixed .absent, .reset⟩
  | .partitionAutoresume => ⟨"partition.autoresume", .none, "", .int0 10000 3600000, .fixed (.num 30000), .confirmation⟩
  | .partitionAutoresumeMax => ⟨"partition.autoresume_max", .none, "", .int 0 10000, .fixed (.num 3000), .confirmation⟩
  | .shoreMinGap => ⟨"shore.min_gap", .none, "", .int 10000 300000, .fixed (.num 30000), .confirmation⟩
  | .kpaPaIlim => ⟨"kpa.pa_ilim", .none, "", .frac 200 2000, .fixed (.num 1500), .confirmation⟩
  | .kpaKinVmin => ⟨"kpa.kin_vmin", .none, "", .frac 9000 50000, .fixed (.num 9000), .confirmation⟩
  | .kpaKinFrac => ⟨"kpa.kin_frac", .none, "", .frac 600 900, .fixed (.num 800), .confirmation⟩
  | .kpaVocPeriod => ⟨"kpa.voc_period", .none, "", .int 1000 60000, .fixed (.num 5000), .confirmation⟩
  | .kpaBsVoc => ⟨"kpa.bs_voc", .none, "", .frac 9000 50000, .fixed (.num 12000), .confirmation⟩
  | .kpaBsQual => ⟨"kpa.bs_qual", .none, "", .frac 500 30000, .fixed (.num 2000), .confirmation⟩
  | .kpaBsHold => ⟨"kpa.bs_hold", .none, "", .int 1000 600000, .fixed (.num 10000), .confirmation⟩
  | .kpaBsMargin => ⟨"kpa.bs_margin", .none, "", .frac 200 5000, .fixed (.num 1000), .confirmation⟩
  | .kpaKbatChem => ⟨"kpa.kbat_chem", .none, "", .enum ["li-ion", "lifepo4", "nimh", "none"], .fixed (.sym 3), .reset⟩
  | .kpaKbatCells => ⟨"kpa.kbat_cells", .none, "", .int 1000 10000, .derived, .reset⟩
  | .kpaKbatCap => ⟨"kpa.kbat_cap", .none, "", .int 100000 20000000, .fixed (.num 1000000), .reset⟩
  | .kpaDetect => ⟨"kpa.detect", .none, "", .enum ["kth", "kid", "both"], .fixed (.sym 0), .reset⟩
  | .kpaKidOhm => ⟨"kpa.kid_ohm", .none, "", .int 1000000 200000000, .fixed (.num 10000000), .reset⟩
  | .kpaChgIcc => ⟨"kpa.chg_icc", .none, "", .int 10000 20000000, .fixed .absent, .confirmation⟩
  | .kpaChgVcv => ⟨"kpa.chg_vcv", .none, "", .frac 3450 4350, .fixed .absent, .confirmation⟩
  | .kpaChgTpre => ⟨"kpa.chg_tpre", .none, "", .int 10000 240000, .fixed (.num 60000), .confirmation⟩
  | .kpaChgTtot => ⟨"kpa.chg_ttot", .none, "", .frac 1000 24000, .fixed (.num 10000), .confirmation⟩
  | .kpaZoneT => ⟨"kpa.zone_t", .dec 0 4, "", .int (-20000) 80000, .zone, .confirmation⟩
  | .kpaZoneHyst => ⟨"kpa.zone_hyst", .none, "", .int 1000 5000, .fixed (.num 2000), .confirmation⟩
  | .kpaNimhDv => ⟨"kpa.nimh_dv", .none, "", .int 2000 15000, .fixed (.num 5000), .confirmation⟩
  | .kpaNimhDtdt => ⟨"kpa.nimh_dtdt", .none, "", .frac 500 3000, .fixed (.num 1000), .confirmation⟩
  | .kpaNimhBlank => ⟨"kpa.nimh_blank", .none, "", .int 60000 1200000, .fixed (.num 300000), .confirmation⟩
  | .kpaEoc => ⟨"kpa.eoc", .none, "", .enum ["auto", "host"], .fixed (.sym 0), .confirmation⟩
  | .kpaAuxMode => ⟨"kpa.aux_mode", .none, "", .enum ["off", "supply", "charger"], .fixed (.sym 0), .confirmation⟩
  | .kpaAuxV => ⟨"kpa.aux_v", .none, "", .frac 3000 24000, .fixed (.num 5000), .confirmation⟩
  | .kpaAuxI => ⟨"kpa.aux_i", .none, "", .int 50000 2000000, .fixed (.num 500000), .confirmation⟩
  | .kpaAuxVrch => ⟨"kpa.aux_vrch", .none, "", .frac 50 1000, .fixed (.num 100), .confirmation⟩
  | .kpaAuxRatio => ⟨"kpa.aux_ratio", .none, "", .frac 1000 32000, .fixed (.num 5000), .reset⟩
  | .kpaAuxNratio => ⟨"kpa.aux_nratio", .none, "", .frac 1000 32000, .fixed (.num 1000), .reset⟩
  | .measRshunt => ⟨"meas.rshunt", .none, "", .frac 25000 1000000, .fixed (.num 100000), .reset⟩
  | .measShuntTcr => ⟨"meas.shunt_tcr", .none, "", .frac (-200000) 200000, .fixed (.num 0), .confirmation⟩
  | .measShuntLt => ⟨"meas.shunt_lt", .none, "", .enum ["none", "lt0", "lt1", "lt2", "lt3", "lt4", "lt5", "lt6", "lt7"], .fixed (.sym 0), .confirmation⟩
  | .measShuntInv => ⟨"meas.shunt_inv", .none, "", .enum ["no", "yes"], .fixed (.sym 0), .reset⟩
  | .fcsOcs => ⟨"fcs.ocs", .none, "", .ocs, .derived, .confirmation⟩
  | .measXchk => ⟨"meas.xchk", .none, "", .frac 1000 10000, .fixed (.num 3000), .confirmation⟩
  | .measXchkN => ⟨"meas.xchk_n", .none, "", .int 1000 100000, .fixed (.num 10000), .confirmation⟩
  | .hvsRatio => ⟨"hvs.ratio.", .named ["vs0", "vs1", "vs2", "vs3", "vbus", "vpre"], "", .frac 10000 2000000, .fixed (.num 401000), .confirmation⟩
  | .hvsGain => ⟨"hvs.gain.", .named ["vs0", "vs1", "vs2", "vs3", "vbus", "vpre"], "", .frac (-20000000) 20000000, .fixed (.num 0), .confirmation⟩
  | .hvsEn => ⟨"hvs.en", .none, "", .chans 6, .fixed (.names (List.range 6)), .reset⟩
  | .hvsAvg => ⟨"hvs.avg", .none, "", .numset [1000, 2000, 4000, 8000, 16000, 32000, 64000], .fixed (.num 16000), .confirmation⟩
  | .hvsXchk => ⟨"hvs.xchk", .none, "", .frac 1000 10000, .fixed (.num 2000), .confirmation⟩
  | .tmpR25 => ⟨"tmp.r25.", .dec 0 7, "", .frac 1000000 100000000, .fixed (.num 10000000), .confirmation⟩
  | .tmpBeta => ⟨"tmp.beta.", .dec 0 7, "", .frac 2000000 5000000, .fixed (.num 3435000), .confirmation⟩
  | .tmpEn => ⟨"tmp.en", .none, "", .chans 8, .fixed (.names (List.range 8)), .reset⟩
  | .chnModules => ⟨"chn.modules", .none, "", .int 1000 128000, .fixed .absent, .reset⟩
  | .chnSeatSerial => ⟨"chn.seat.", .dec 1 128, ".serial", .ident, .fixed .absent, .reset⟩
  | .chnSeatString => ⟨"chn.seat.", .dec 1 128, ".string", .enum ["0", "1", "2", "3", "none"], .fixed (.sym 4), .reset⟩
  | .chnRetry => ⟨"chn.retry", .none, "", .int 0 2000, .fixed (.num 2000), .confirmation⟩
  | .chnLostHeats => ⟨"chn.lost_heats", .none, "", .int 1000 4000, .fixed (.num 2000), .confirmation⟩
  | .chnBreakN => ⟨"chn.break_n", .none, "", .int 1000 8000, .fixed (.num 2000), .confirmation⟩
  | .chnHealN => ⟨"chn.heal_n", .none, "", .int 10000 1000000, .fixed (.num 100000), .confirmation⟩
  | .radTxpwr => ⟨"rad.txpwr", .none, "", .int (-20000) 8000, .fixed (.num 0), .confirmation⟩
  | .radModTxpwr => ⟨"rad.mod_txpwr", .none, "", .int (-20000) 8000, .fixed (.num 0), .pairing⟩
  | .radJoinCh => ⟨"rad.join_ch", .none, "", .int 0 39000, .fixed (.num 30000), .reset⟩
  | .radRetry => ⟨"rad.retry", .none, "", .int 0 2000, .fixed (.num 2000), .confirmation⟩
  | .radMapN => ⟨"rad.map_n", .none, "", .int 16000 256000, .fixed (.num 64000), .confirmation⟩
  | .radMapBad => ⟨"rad.map_bad", .none, "", .frac 5000 75000, .fixed (.num 25000), .confirmation⟩
  | .radMapQuar => ⟨"rad.map_quar", .none, "", .int 1000 60000, .fixed (.num 10000), .confirmation⟩
  | .radMapLead => ⟨"rad.map_lead", .none, "", .int 50000 1000000, .fixed (.num 200000), .confirmation⟩
  | .twnProve => ⟨"twn.prove", .none, "", .int 1000 16000, .fixed (.num 2000), .confirmation⟩
  | .twnDisagreeMax => ⟨"twn.disagree_max", .none, "", .int 1000 64000, .fixed (.num 8000), .confirmation⟩
  | .twnClearHeats => ⟨"twn.clear_heats", .none, "", .int 1000 16000, .fixed (.num 4000), .confirmation⟩
  | .ctrRole => ⟨"ctr.", .dec 0 11, ".role", .enum ["none", "pos_0", "pos_1", "pos_2", "pos_3", "neg_0", "neg_1", "neg_2", "neg_3", "pre_0", "pre_1", "pre_2", "pre_3"], .fixed (.sym 0), .reset⟩
  | .ctrIbreak => ⟨"ctr.", .dec 0 11, ".ibreak", .frac 1000 5000000, .fixed .absent, .confirmation⟩
  | .ctrPullin => ⟨"ctr.", .dec 0 11, ".pullin", .int 20000 250000, .fixed (.num 100000), .confirmation⟩
  | .ctrHold => ⟨"ctr.", .dec 0 11, ".hold", .int 50000 1000000, .fixed (.num 300000), .confirmation⟩
  | .ctrTclose => ⟨"ctr.", .dec 0 11, ".tclose", .int 10000 500000, .fixed (.num 50000), .confirmation⟩
  | .ctrTopen => ⟨"ctr.", .dec 0 11, ".topen", .int 5000 200000, .fixed (.num 30000), .confirmation⟩
  | .ctrWeld => ⟨"ctr.", .dec 0 11, ".weld", .pair, .fixed .absent, .confirmation⟩
  | .ctrWeldDv => ⟨"ctr.weld_dv", .none, "", .frac 500 20000, .fixed (.num 2000), .confirmation⟩
  | .ctrWeldT => ⟨"ctr.weld_t", .none, "", .frac 1000 60000, .fixed (.num 5000), .confirmation⟩
  | .ctrDefer => ⟨"ctr.defer", .none, "", .frac 100 30000, .fixed (.num 2000), .confirmation⟩
  | .ctrRext => ⟨"ctr.", .dec 0 3, ".rext", .frac 0 500000, .fixed (.num 5000), .confirmation⟩
  | .ctrAdmitV => ⟨"ctr.admit_v", .none, "", .frac 1000 50000, .fixed (.num 5000), .confirmation⟩
  | .ctrAdmitI => ⟨"ctr.admit_i", .none, "", .frac 1000 1000000, .fixed (.num 50000), .confirmation⟩
  | .ctrAdmitWait => ⟨"ctr.admit_wait", .none, "", .int 5000 3600000, .fixed (.num 60000), .confirmation⟩
  | .ctrPreR => ⟨"ctr.pre.r", .none, "", .frac 1000 10000000, .fixed .absent, .confirmation⟩
  | .ctrPreCbus => ⟨"ctr.pre.cbus", .none, "", .frac 10000 100000000, .fixed .absent, .confirmation⟩
  | .ctrPreErated => ⟨"ctr.pre.erated", .none, "", .frac 10000 100000000, .fixed .absent, .confirmation⟩
  | .ctrPreTauth => ⟨"ctr.pre.tauth", .none, "", .frac 10000 3600000, .fixed (.num 120000), .confirmation⟩
  | .ctrPreTmax => ⟨"ctr.pre.tmax", .none, "", .frac 4000 20000, .fixed (.num 6000), .confirmation⟩
  | .pumpHoldMax => ⟨"pump.hold_max", .none, "", .frac 20000 500000, .fixed (.num 200000), .confirmation⟩
  | .pumpCpump => ⟨"pump.cpump", .none, "", .frac 1000 1000000, .fixed .absent, .confirmation⟩
  | .ctrFbinv => ⟨"ctr.", .dec 0 11, ".fbinv", .enum ["no", "yes"], .fixed (.sym 0), .reset⟩
  | .sinFunc => ⟨"sin.", .dec 0 7, ".func", .enum ["none", "monitor", "trip"], .fixed (.sym 0), .confirmation⟩
  | .sinSrc => ⟨"sin.", .dec 0 7, ".src", .enum ["none", "tpa", "tpb", "tpc", "tpd"], .fixed (.sym 0), .confirmation⟩
  | .sinTarget => ⟨"sin.", .dec 0 7, ".target", .enum ["string0", "string1", "string2", "string3", "battery", "mdi"], .fixed (.sym 4), .confirmation⟩
  | .sinLatch => ⟨"sin.", .dec 0 7, ".latch", .enum ["no", "yes"], .fixed (.sym 0), .confirmation⟩
  | .sinPair => ⟨"sin.", .dec 0 7, ".pair", .enum ["none", "sin0", "sin1", "sin2", "sin3", "sin4", "sin5", "sin6", "sin7"], .fixed (.sym 0), .confirmation⟩
  | .sinDiscT => ⟨"sin.disc_t", .none, "", .int 20000 1000000, .fixed (.num 100000), .confirmation⟩
  | .mdiFitted => ⟨"mdi.fitted", .none, "", .enum ["no", "yes"], .fixed (.sym 0), .reset⟩
  | .mdiDirinv => ⟨"mdi.dirinv", .none, "", .enum ["no", "yes"], .fixed (.sym 0), .confirmation⟩
  | .mdiSrcOpen => ⟨"mdi.src_open", .none, "", .enum ["tpa", "tpb", "tpc", "tpd"], .fixed (.sym 2), .confirmation⟩
  | .mdiSrcClosed => ⟨"mdi.src_closed", .none, "", .enum ["tpa", "tpb", "tpc", "tpd"], .fixed (.sym 3), .confirmation⟩
  | .mdiRsense => ⟨"mdi.rsense", .none, "", .frac 5000 200000, .fixed (.num 20000), .reset⟩
  | .mdiIlim => ⟨"mdi.ilim", .none, "", .frac 500 10000, .fixed (.num 3000), .confirmation⟩
  | .mdiDuty => ⟨"mdi.duty", .none, "", .int 40000 100000, .fixed (.num 100000), .confirmation⟩
  | .mdiTmove => ⟨"mdi.tmove", .none, "", .frac 1000 20000, .fixed (.num 6000), .confirmation⟩
  | .mdiIbreak => ⟨"mdi.ibreak", .none, "", .frac 0 1000000, .fixed (.num 0), .confirmation⟩
  | .imdPeriod => ⟨"imd.period", .none, "", .frac 4000 60000, .fixed (.num 8000), .confirmation⟩
  | .imdRinj => ⟨"imd.rinj", .none, "", .frac 50000 2000000, .fixed .absent, .confirmation⟩
  | .imdRmeas => ⟨"imd.rmeas", .none, "", .frac 500000 20000000, .fixed .absent, .confirmation⟩
  | .imdRatio => ⟨"imd.ratio", .none, "", .frac 10000 2000000, .fixed (.num 401000), .confirmation⟩
  | .imdUmin => ⟨"imd.umin", .none, "", .frac 20000 200000, .fixed (.num 50000), .confirmation⟩
  | .imdVref => ⟨"imd.vref", .none, "", .frac 50000 1000000, .fixed .absent, .confirmation⟩
  | .imdWarn => ⟨"imd.warn", .none, "", .frac 100000 2000000, .fixed (.num 500000), .confirmation⟩
  | .imdAlarm => ⟨"imd.alarm", .none, "", .frac 50000 1000000, .fixed (.num 100000), .confirmation⟩
  | .imdAlarmN => ⟨"imd.alarm_n", .none, "", .int 1000 10000, .fixed (.num 2000), .confirmation⟩
  | .imdAction => ⟨"imd.action", .none, "", .enum ["open", "report"], .fixed (.sym 0), .confirmation⟩
  | .imdKinExcl => ⟨"imd.kin_excl", .none, "", .int 5000 120000, .fixed (.num 15000), .confirmation⟩
  | .imdKinWarn => ⟨"imd.kin_warn", .none, "", .frac 10000 10000000, .fixed (.num 100000), .confirmation⟩
  | .estTable => ⟨"est.", .dec 0 3, ".table", .table, .fixed .absent, .confirmation⟩
  | .estChem => ⟨"est.", .dec 0 3, ".chem", .int 0 3000, .fixed (.num 0), .confirmation⟩
  | .estCap => ⟨"est.", .dec 0 3, ".cap", .frac 1000 2000000, .fixed .absent, .confirmation⟩
  | .estImaxChg => ⟨"est.", .dec 0 3, ".imax_chg", .frac 1000 2000000, .derived, .confirmation⟩
  | .estImaxDis => ⟨"est.", .dec 0 3, ".imax_dis", .frac 1000 2000000, .derived, .confirmation⟩
  | .estRestI => ⟨"est.rest_i", .none, "", .frac 0 100000000, .derived, .confirmation⟩
  | .estRestT => ⟨"est.rest_t", .none, "", .int 5000 240000, .fixed (.num 30000), .confirmation⟩
  | .estOcvSlope => ⟨"est.ocv_slope", .none, "", .frac 100 10000, .fixed (.num 1000), .confirmation⟩
  | .estBalI => ⟨"est.bal_i", .none, "", .frac 0 500000, .fixed (.num 0), .confirmation⟩
  | .estLoadWin => ⟨"est.load_win", .none, "", .int 5000 600000, .fixed (.num 60000), .confirmation⟩
  | .estCapDsoc => ⟨"est.cap_dsoc", .none, "", .frac 40000 90000, .fixed (.num 40000), .confirmation⟩
  | .estCapGain => ⟨"est.cap_gain", .none, "", .frac 50 1000, .fixed (.num 500), .confirmation⟩
  | .estRDi => ⟨"est.r_di", .none, "", .frac 0 100000000, .derived, .confirmation⟩
  | .estWarn => ⟨"est.warn", .none, "", .frac 0 50000, .fixed (.num 20000), .confirmation⟩
  | .estLow => ⟨"est.low", .none, "", .frac 0 50000, .fixed (.num 10000), .confirmation⟩
  | .estFinal => ⟨"est.final", .none, "", .frac 0 50000, .fixed (.num 3000), .confirmation⟩
  | .estWarnHyst => ⟨"est.warn_hyst", .none, "", .frac 1000 10000, .fixed (.num 2000), .confirmation⟩
  | .estLowW => ⟨"est.low_w", .none, "", .frac 0 1000, .fixed (.num 400), .confirmation⟩
  | .estFinalW => ⟨"est.final_w", .none, "", .frac 0 1000, .fixed (.num 100), .confirmation⟩
  | .estHibIdle => ⟨"est.hib_idle", .none, "", .int0 5000 1440000, .fixed (.num 0), .confirmation⟩
  | .estHibGrace => ⟨"est.hib_grace", .none, "", .int 10000 600000, .fixed (.num 60000), .confirmation⟩
  | .estWakeI => ⟨"est.wake_i", .none, "", .frac 0 100000000, .derived, .confirmation⟩
  | .estSurgeRk => ⟨"est.surge_rk", .none, "", .frac 1000 3000, .fixed (.num 1500), .confirmation⟩
  | .estSurgeMargin => ⟨"est.surge_margin", .none, "", .frac 0 200, .fixed (.num 20), .confirmation⟩
  | .estSurgeNotice => ⟨"est.surge_notice", .none, "", .int 1000 30000, .fixed (.num 2000), .confirmation⟩
  | .canNbr => ⟨"can.", .named ["a", "b", "c"], ".nbr", .numset [125000, 250000, 500000, 1000000], .fixed (.num 500000), .reset⟩
  | .canDbr => ⟨"can.", .named ["a", "b", "c"], ".dbr", .enum ["none", "500", "1000", "2000", "4000", "5000", "8000"], .fixed (.sym 0), .reset⟩
  | .canNsp => ⟨"can.", .named ["a", "b", "c"], ".nsp", .frac 60000 90000, .fixed (.num 80000), .reset⟩
  | .canDsp => ⟨"can.", .named ["a", "b", "c"], ".dsp", .frac 60000 90000, .fixed (.num 75000), .reset⟩
  | .canBusoffHold => ⟨"can.", .named ["a", "b", "c"], ".busoff_hold", .frac 0 60000, .fixed (.num 1000), .confirmation⟩
  | .canWake => ⟨"can.", .named ["a", "b", "c"], ".wake", .enum ["no", "yes"], .fixed (.sym 0), .confirmation⟩
  | .canCycles => ⟨"can.", .named ["a", "b", "c"], ".cycles", .numset [1000, 2000, 4000, 8000, 16000, 32000, 64000], .fixed (.num 1000), .reset⟩
  | .canMatrix => ⟨"can.", .named ["a", "b", "c"], ".matrix", .matrix_, .fixed .absent, .reset⟩
  | .canaStd => ⟨"cana.std", .none, "", .enum ["no", "yes"], .fixed (.sym 1), .confirmation⟩
  | .canaId => ⟨"cana.id", .none, "", .int 0 2045000, .fixed (.num 848000), .confirmation⟩
  | .canaPeriod => ⟨"cana.period", .none, "", .int 20000 1000000, .fixed (.num 100000), .confirmation⟩
  | .crewEnable => ⟨"crew.enable", .none, "", .enum ["no", "yes"], .fixed (.sym 0), .reset⟩
  | .crewLane => ⟨"crew.lane", .none, "", .int 0 63000, .fixed (.num 0), .reset⟩
  | .crewListen => ⟨"crew.listen", .none, "", .int 20000 200000, .fixed (.num 60000), .reset⟩
  | .crewMirror => ⟨"crew.mirror", .none, "", .enum ["no", "yes"], .fixed (.sym 1), .confirmation⟩
  | .crewKey => ⟨"crew.key", .none, "", .key, .fixed .absent, .reset⟩
  | .conBaud => ⟨"con.", .dec 0 1, ".baud", .numset [9600000, 19200000, 38400000, 57600000, 115200000, 230400000, 460800000, 921600000], .fixed (.num 115200000), .reset⟩
  | .conAutobaud => ⟨"con.", .dec 0 1, ".autobaud", .enum ["no", "yes"], .fixed (.sym 1), .reset⟩
  | .conEcho => ⟨"con.", .dec 0 1, ".echo", .enum ["no", "yes"], .conZero, .confirmation⟩
  | .conPrompt => ⟨"con.", .dec 0 1, ".prompt", .enum ["no", "yes"], .conZero, .confirmation⟩
  | .conNotify => ⟨"con.", .dec 0 1, ".notify", .enum ["no", "yes"], .fixed (.sym 1), .confirmation⟩
  | .conIdle => ⟨"con.idle", .none, "", .int 60000 3600000, .fixed (.num 600000), .confirmation⟩
  | .tallyCommit => ⟨"tally.commit", .none, "", .int 5000 60000, .fixed (.num 15000), .confirmation⟩
  | .qpXipDiv => ⟨"qp.xip.div", .none, "", .int 2000 255000, .fixed (.num 2000), .reset⟩
  | .qpXipCmd => ⟨"qp.xip.cmd", .none, "", .enum ["0x03", "0x0b"], .fixed (.sym 1), .reset⟩
  | .qpXipDummy => ⟨"qp.xip.dummy", .none, "", .int 0 15000, .fixed (.num 8000), .reset⟩
  | .qpXipSeqcont => ⟨"qp.xip.seqcont", .none, "", .enum ["no", "yes"], .fixed (.sym 1), .confirmation⟩
  | .qpXipAhead => ⟨"qp.xip.ahead", .none, "", .enum ["no", "yes"], .fixed (.sym 1), .confirmation⟩
  | .qpDesel => ⟨"qp.desel", .none, "", .int 1000 15000, .fixed (.num 5000), .confirmation⟩
  | .gpioSafe => ⟨"gpio.", .dec 0 31, ".safe", .enum ["input", "low", "high"], .fixed (.sym 0), .confirmation⟩
  | .secSvcKeyhash => ⟨"sec.svc.", .dec 0 3, ".keyhash", .hash, .fixed .absent, .confirmation⟩
  | .secVendorService => ⟨"sec.vendor_service", .none, "", .enum ["no", "yes"], .fixed (.sym 1), .confirmation⟩

/-- The default of `kpa.zone_t0` to `kpa.zone_t4` (06, Parameters). -/
def zoneDefault (i : Nat) : Int := ([0, 10000, 45000, 50000, 60000] : List Int).getD i 0

/-- The default value of a parameter; absent where the manual gives `none` or derives it. -/
def PKey.dflt (k : PKey) : PVal :=
  match (PName.info k.name).dflt with
  | .fixed v => v
  | .zone => .num (zoneDefault k.idx)
  | .conZero => .sym (if k.idx = 0 then 1 else 0)
  | .derived => .absent

/-- Whether the key's index exists. -/
def PKey.idxOk (k : PKey) : Bool :=
  match (PName.info k.name).index with
  | .none => k.idx == 0
  | .dec lo hi => decide (lo ≤ k.idx) && decide (k.idx ≤ hi)
  | .named l => decide (k.idx < l.length)

/-- The key as written (R322, R339). -/
def PKey.text (k : PKey) : String :=
  let i := PName.info k.name
  match i.index with
  | .none => i.prefix_
  | .dec _ _ => i.prefix_ ++ toString k.idx ++ i.suffix
  | .named l => i.prefix_ ++ l.getD k.idx "" ++ i.suffix

/-- Whether entry starts rise and entries do not overlap, each at least 50 us long and inside the period (R84); entries are scull, start, length. -/
def slotsOk (period : Nat) (l : List (Nat × Nat × Nat)) : Bool :=
  l.all (fun e => decide (e.1 < 4) && decide (50 ≤ e.2.2) && decide (e.2.1 + e.2.2 ≤ period))
    && decide (l.Pairwise (fun a b => a.1 ≠ b.1 ∨ a.2.1 + a.2.2 ≤ b.2.1 ∨ b.2.1 + b.2.2 ≤ a.2.1))

/-- Whether a value lies in its parameter's range (R6); a number of kind `int` is whole (DESIGN CHOICE, log entry 163). -/
def PVal.inRange (k : PKind) (v : PVal) : Bool :=
  match k, v with
  | .int lo hi, .num m => decide (lo ≤ m) && decide (m ≤ hi) && decide (m % 1000 = 0)
  | .int0 lo hi, .num m => decide (m = 0) || (decide (lo ≤ m) && decide (m ≤ hi) && decide (m % 1000 = 0))
  | .frac lo hi, .num m => decide (lo ≤ m) && decide (m ≤ hi)
  | .numset l, .num m => l.contains m
  | .enum l, .sym n => decide (n < l.length)
  | .chans n, .names l => l.all (fun c => decide (c < n))
  | .pair, .names l => decide (l.length = 2) && l.all (fun c => decide (c < 6))
  | .slots, .slots l => decide (l.length ≤ 64)
  | .quota, .span b kib =>
      decide (b % 4096 = 0) && decide (kib % 4 = 0) && decide (16 ≤ kib) && decide (0x20000000 ≤ b) && decide (b + kib * 1024 ≤ 0x203E0000)
  | .xip, .span b kib => decide (b % 65536 = 0) && decide (kib % 64 = 0) && decide (0 < kib) && decide (b + kib * 1024 ≤ 0x10000000)
  | .grants, .names _ => true
  | .hash, .table l => decide (l.length = 32)
  | .key, .table l => decide (l.length = 16)
  | .ident, .ident n => decide (n < 2 ^ 64)
  | .table, .table _ => true
  | .matrix_, .matrix _ _ => true
  | .ocs, .num m => decide (0 < m)
  | _, .absent => true
  | _, _ => false

/-- Whether `none` is a value of the parameter (its default is `none` or derived). -/
def PKey.mayBeAbsent (k : PKey) : Bool := decide (k.dflt = .absent)

/-- Whether the pair may be staged as to its range (R338). -/
def pairOk (k : PKey) (v : PVal) : Bool :=
  k.idxOk && (if v = .absent then k.mayBeAbsent else v.inRange (PName.info k.name).kind)

/-- The value a list of settings gives a key; a key it does not name has its default. -/
def Settings.get (l : List (PKey × PVal)) (k : PKey) : PVal :=
  match l.find? (fun e => e.1 = k) with
  | some e => e.2
  | none => k.dflt

/-- The settings with a key set: a key at its default is not held. -/
def Settings.put (l : List (PKey × PVal)) (k : PKey) (v : PVal) : List (PKey × PVal) :=
  let l' := l.filter (fun e => e.1 ≠ k)
  if v = k.dflt then l' else (k, v) :: l'

end Sys2Proof
end

