-- ==== Sys2Proof/Machine/Cells.lean ====
section
/-!
DEFINITION. Sparse tables: a list of (key, value) pairs with rising keys, in which no entry equals what an unlisted key reads as.
Registers, memory, parameters and indexed records are held so: equal contents are equal lists.
-/

namespace Sys2Proof.Machine

/-- The value at key `a`; `d` is what an unlisted key reads as. -/
def Tab.get {α : Type} (d : α) : List (Nat × α) → Nat → α
  | [], _ => d
  | (b, w) :: t, a => if a < b then d else if a = b then w else Tab.get d t a

/-- The table without its leading entries at or below key `a`. -/
def Tab.dropLe {α : Type} (a : Nat) : List (Nat × α) → List (Nat × α)
  | [] => []
  | (b, w) :: t => if b ≤ a then Tab.dropLe a t else (b, w) :: t

/-- The table with key `a` set to `v`: the entry goes where `v` is what the unlisted key reads as. -/
def Tab.put {α : Type} [DecidableEq α] (d : α) : List (Nat × α) → Nat → α → List (Nat × α)
  | [], a, v => if v = d then [] else [(a, v)]
  | (b, w) :: t, a, v =>
    if a < b then (if v = d then (b, w) :: t else (a, v) :: (b, w) :: t)
    else if a = b then (if v = d then Tab.dropLe a t else (a, v) :: t)
    else (b, w) :: Tab.put d t a v

/-- Keys rise strictly and lie above `lo` where one is given. -/
def Tab.rising {α : Type} : Option Nat → List (Nat × α) → Bool
  | _, [] => true
  | none, (b, _) :: t => Tab.rising (some b) t
  | some lo, (b, _) :: t => decide (lo < b) && Tab.rising (some b) t

/-- The canonical form: keys rise strictly and no entry equals what its key reads as when unlisted. -/
def Tab.wf {α : Type} [DecidableEq α] (dflt : Nat → α) (l : List (Nat × α)) : Bool :=
  Tab.rising none l && l.all (fun e => decide (e.2 ≠ dflt e.1))

/-- The table without the entries whose key satisfies `p`. -/
def Tab.drop {α : Type} (p : Nat → Bool) (l : List (Nat × α)) : List (Nat × α) :=
  l.filter (fun e => !p e.1)

end Sys2Proof.Machine
end

