-- ==== Sys2Proof/Machine/RegMap.lean ====
section
/-!
DEFINITION. The register maps of every block (Tables 1-6 to 19-4): the address of each register by its name in the manual, its reset value, and which of its bits are RO, RW, WO, W1C and RC (R7).
Bits in no mask are reserved (R8). Where the manual gives 'from fuses' or 'from eflash', the reset value here is the model's (DESIGN CHOICE, log entry 3).
-/

namespace Sys2Proof.Machine

/-- One row of a register map: `count` registers from offset `start`, `stride` bytes apart, with their reset value and access masks. -/
structure RegRow where
  start : Nat
  stride : Nat
  count : Nat
  reset : Nat
  ro : Nat
  rw : Nat
  wo : Nat
  w1c : Nat
  rc : Nat
  deriving DecidableEq, Repr

/-- SYS registers (Table 1-6). -/
def rowsSys : List RegRow :=
  [ ⟨0x000, 4, 1, 0x64000B, 0xFFFFFF, 0x0, 0x0, 0x0, 0x0⟩,  -- ID
    ⟨0x004, 4, 1, 0x0, 0x1, 0x0, 0x0, 0x0, 0x0⟩,  -- GRADE
    ⟨0x008, 4, 1, 0x0, 0xFFFFFFFF, 0x0, 0x0, 0x0, 0x0⟩,  -- UID0
    ⟨0x00C, 4, 1, 0x0, 0xFFFFFFFF, 0x0, 0x0, 0x0, 0x0⟩,  -- UID1
    ⟨0x010, 4, 1, 0x0, 0xFFFFFFFF, 0x0, 0x0, 0x0, 0x0⟩,  -- CAMLAN
    ⟨0x014, 4, 1, 0x4800704, 0xFFFFFFF, 0x0, 0x0, 0x0, 0x0⟩,  -- CAPS
    ⟨0x018, 4, 1, 0x0, 0xFFFFFFFF, 0x0, 0x0, 0x0, 0x0⟩,  -- BEADDR
    ⟨0x01C, 4, 1, 0x0, 0xFF, 0x0, 0x0, 0x100, 0x0⟩ ]  -- BESTAT

/-- RST registers (Table 5-12). -/
def rowsRst : List RegRow :=
  [ ⟨0x000, 4, 1, 0x1, 0x0, 0x0, 0x0, 0x3FF, 0x0⟩,  -- CAUSE
    ⟨0x004, 4, 1, 0x0, 0xF, 0x0, 0x0, 0x0, 0x0⟩,  -- LAST
    ⟨0x008, 4, 1, 0x0, 0xFFFF, 0x0, 0x0, 0x0, 0x0⟩,  -- COUNT
    ⟨0x00C, 4, 1, 0x0, 0x0, 0x0, 0xFFFF0001, 0x0, 0x0⟩,  -- SOFT
    ⟨0x010, 4, 1, 0x0, 0xFFF0001, 0x0, 0x0, 0x0, 0x0⟩,  -- WIPE
    ⟨0x014, 4, 1, 0x200000, 0x3F003F, 0x0, 0x0, 0x0, 0x0⟩,  -- STALL
    ⟨0x018, 4, 1, 0x0, 0x0, 0x0, 0x1, 0x0, 0x0⟩,  -- BOOT
    ⟨0x01C, 4, 4, 0x0, 0x0, 0xFFFFFFFF, 0x0, 0x0, 0x0⟩ ]  -- RETAIN

/-- LCS registers (Table 5-13). -/
def rowsLcs : List RegRow :=
  [ ⟨0x000, 4, 1, 0x70, 0x77, 0x0, 0x0, 0x0, 0x0⟩,  -- STATE
    ⟨0x004, 4, 1, 0x0, 0x7, 0x0, 0x0, 0x0, 0x0⟩,  -- FUSES
    ⟨0x008, 4, 1, 0x0, 0x0, 0x0, 0xFFFF0007, 0x0, 0x0⟩,  -- REQ
    ⟨0x00C, 4, 1, 0x0, 0x7F, 0x0, 0x0, 0x0, 0x0⟩,  -- WIPESET
    ⟨0x010, 4, 1, 0x0, 0xFFFF, 0x0, 0x0, 0x0, 0x0⟩,  -- TCOUNT
    ⟨0x014, 4, 1, 0x0, 0x1, 0x0, 0x0, 0x2, 0x0⟩ ]  -- STAT

/-- STK registers (Table 2-9). -/
def rowsStk : List RegRow :=
  [ ⟨0x000, 4, 1, 0x72, 0x0, 0x1F3, 0x0, 0x0, 0x0⟩,  -- CTRL
    ⟨0x004, 4, 1, 0x0, 0xFFFFFFFF, 0x0, 0x0, 0x0, 0x0⟩,  -- NUM
    ⟨0x008, 4, 1, 0x0, 0x7FFF, 0x0, 0x0, 0x0, 0x0⟩,  -- PHASE
    ⟨0x00C, 4, 1, 0x0, 0x1FF000F, 0x0, 0x0, 0x0, 0x0⟩,  -- POS
    ⟨0x010, 4, 1, 0x0, 0xFFFFFFFF, 0x0, 0x0, 0x0, 0x0⟩,  -- TIMEL
    ⟨0x014, 4, 1, 0x0, 0xFFFF, 0x0, 0x0, 0x0, 0x0⟩,  -- TIMEH
    ⟨0x018, 4, 1, 0x0, 0x0, 0x0, 0x1, 0x0, 0x0⟩,  -- FIN
    ⟨0x01C, 4, 1, 0x0, 0x31, 0x0, 0x0, 0x102, 0x0⟩,  -- STAT
    ⟨0x020, 4, 1, 0x0, 0x0, 0x0, 0x0, 0x0, 0xFFFF⟩,  -- CRABCNT
    ⟨0x024, 4, 1, 0x0, 0x0, 0xFF, 0x0, 0x0, 0x0⟩,  -- TRIM
    ⟨0x028, 4, 1, 0x0, 0x0, 0x0, 0x1, 0x0, 0x0⟩,  -- HCTRL
    ⟨0x02C, 4, 1, 0x0, 0x0, 0x0, 0x0, 0x1F, 0x0⟩,  -- IRQ
    ⟨0x030, 4, 1, 0x0, 0x0, 0x1F, 0x0, 0x0, 0x0⟩ ]  -- IRQEN

/-- AGR registers (Table 2-10). -/
def rowsAgr : List RegRow :=
  [ ⟨0x000, 4, 1, 0x0, 0x0, 0x0, 0xFF, 0x0, 0x0⟩,  -- DEMAND
    ⟨0x004, 4, 1, 0x0, 0x1, 0x0, 0x0, 0x6, 0x0⟩,  -- DSTAT
    ⟨0x008, 4, 1, 0x0, 0xFFFFFFFF, 0x0, 0x0, 0x0, 0x0⟩,  -- CNUM
    ⟨0x00C, 4, 1, 0x0, 0xFFFFFFFF, 0x0, 0x0, 0x0, 0x0⟩,  -- DSTAMP
    ⟨0x010, 4, 1, 0x0, 0xFFF, 0x0, 0x0, 0x0, 0x0⟩,  -- C_FB
    ⟨0x014, 4, 1, 0x0, 0xFFFFFF, 0x0, 0x0, 0x0, 0x0⟩,  -- C_SIN
    ⟨0x018, 4, 1, 0x0, 0xF, 0x0, 0x0, 0x0, 0x0⟩,  -- C_MDI
    ⟨0x01C, 4, 1, 0x0, 0xFFFFFF, 0x0, 0x0, 0x0, 0x0⟩,  -- C_FLAGS
    ⟨0x020, 4, 1, 0x0, 0xFFFFFFFF, 0x0, 0x0, 0x0, 0x0⟩,  -- C_CCAL
    ⟨0x024, 4, 1, 0x0, 0xFFFFFFFF, 0x0, 0x0, 0x0, 0x0⟩,  -- C_CCAH
    ⟨0x028, 4, 1, 0x0, 0xFFFFFFFF, 0x0, 0x0, 0x0, 0x0⟩,  -- C_HVS0
    ⟨0x02C, 4, 1, 0x0, 0xFFFFFFFF, 0x0, 0x0, 0x0, 0x0⟩,  -- C_HVS1
    ⟨0x030, 4, 1, 0x0, 0xFFFFFFFF, 0x0, 0x0, 0x0, 0x0⟩,  -- C_HVS2
    ⟨0x034, 4, 4, 0x0, 0xFFFFFFFF, 0x0, 0x0, 0x0, 0x0⟩,  -- C_TMP
    ⟨0x044, 4, 1, 0x0, 0xFFFF, 0x0, 0x0, 0x0, 0x0⟩,  -- C_DIE
    ⟨0x110, 4, 14, 0x0, 0xFFFFFFFF, 0x0, 0x0, 0x0, 0x0⟩ ]  -- D_BANK

/-- COX registers (Table 3-7). -/
def rowsCox : List RegRow :=
  [ ⟨0x000, 4, 1, 0x0, 0x0, 0x3, 0x0, 0x0, 0x0⟩,  -- CTRL
    ⟨0x004, 4, 1, 0x0, 0xD, 0x2, 0x0, 0x0, 0x0⟩,  -- STATUS
    ⟨0x008, 4, 1, 0x0, 0x0, 0x1, 0x0, 0x0, 0x0⟩,  -- PERMIT
    ⟨0x00C, 4, 1, 0x0, 0xFFFFFF, 0x0, 0x0, 0x0, 0x0⟩,  -- MMGRP
    ⟨0x010, 4, 1, 0x0, 0xFFFFFFFF, 0x0, 0x0, 0x0, 0x0⟩,  -- MMPC
    ⟨0x014, 4, 1, 0x0, 0xFFFFFFFF, 0x0, 0x0, 0x0, 0x0⟩,  -- MMSTROKE
    ⟨0x018, 4, 1, 0x0, 0xFF1F, 0x0, 0x10000, 0x0, 0x0⟩,  -- MMINFO
    ⟨0x01C, 4, 1, 0x0, 0x0, 0x0, 0x31F, 0x0, 0x0⟩,  -- INJ
    ⟨0x020, 4, 1, 0x1F000000, 0xFFFFFF, 0x1F000000, 0x0, 0x0, 0x0⟩,  -- STEST
    ⟨0x024, 4, 1, 0x0, 0x0, 0x0, 0x0, 0x0, 0xFFFF⟩,  -- ECC_ITCM
    ⟨0x028, 4, 1, 0x0, 0x0, 0x0, 0x0, 0x0, 0xFFFF⟩,  -- ECC_DTCM
    ⟨0x02C, 4, 1, 0x0, 0x0, 0x0, 0x0, 0x0, 0xFFFF⟩,  -- ECC_OTHER
    ⟨0x030, 4, 1, 0x0, 0xFFFFFFFF, 0x0, 0x0, 0x0, 0x0⟩,  -- ECCADDR
    ⟨0x034, 4, 1, 0x0, 0x7FFFC, 0x0, 0x0, 0x0, 0x0⟩,  -- SCRUB
    ⟨0x038, 4, 1, 0x0, 0x0, 0x0, 0x0, 0x1, 0x0⟩,  -- IRQ
    ⟨0x03C, 4, 1, 0x0, 0x0, 0x1, 0x0, 0x0, 0x0⟩,  -- IRQEN
    ⟨0x040, 4, 1, 0x0, 0xFFFFFFFF, 0x0, 0x0, 0x0, 0x0⟩ ]  -- MMADDR

/-- PART registers (Table 4-13). -/
def rowsPart : List RegRow :=
  [ ⟨0x000, 4, 1, 0x0, 0x200, 0xF, 0x100, 0x400, 0x0⟩,  -- CTRL
    ⟨0x004, 4, 1, 0x0, 0x1F1F1F1F, 0x0, 0x0, 0x0, 0x0⟩,  -- SCULLST
    ⟨0x008, 4, 1, 0x0, 0x0, 0x0, 0xFFF0007, 0x0, 0x0⟩,  -- EVSET
    ⟨0x00C, 4, 1, 0x0, 0xFFFFFFFF, 0x0, 0x0, 0x0, 0x0⟩,  -- RADDR
    ⟨0x010, 4, 1, 0x0, 0xF7, 0x0, 0x0, 0x100, 0x0⟩,  -- RSTAT
    ⟨0x014, 4, 1, 0x0, 0x0, 0x0, 0x0, 0x0, 0xFFFF⟩,  -- ECC
    ⟨0x018, 4, 1, 0x0, 0x0, 0x0, 0x0, 0x1FEFE, 0x0⟩,  -- IRQ
    ⟨0x01C, 4, 1, 0x0, 0x0, 0x1FFFE, 0x0, 0x0, 0x0⟩,  -- IRQEN
    ⟨0x100, 8, 128, 0x0, 0x0, 0x7FFF7FFF, 0x0, 0x0, 0x0⟩,  -- SLOTA
    ⟨0x104, 8, 128, 0x0, 0x0, 0x80000007, 0x0, 0x0, 0x0⟩,  -- SLOTB
    ⟨0x800, 256, 7, 0x0, 0x0, 0xFF03FF03, 0x0, 0x0, 0x0⟩,  -- STATE
    ⟨0x804, 256, 7, 0x0, 0x0, 0x3FF000, 0x0, 0x0, 0x0⟩,  -- QBASE
    ⟨0x808, 256, 7, 0x0, 0x0, 0x3FF000, 0x0, 0x0, 0x0⟩,  -- QSIZE
    ⟨0x80C, 256, 7, 0x0, 0xFFF, 0x0, 0x0, 0x0, 0x0⟩,  -- EVP
    ⟨0x810, 256, 7, 0x0, 0xFFFFFFFF, 0x0, 0x0, 0x0, 0x0⟩,  -- DBSTAMP
    ⟨0x814, 256, 7, 0x0, 0x3F01, 0x0, 0x0, 0x2, 0x0⟩,  -- DBSTAT
    ⟨0x820, 256, 7, 0x0, 0x0, 0xFFFFFF00, 0x0, 0x0, 0x0⟩,  -- GR_ARX0
    ⟨0x824, 256, 7, 0x0, 0x0, 0xFFFFFFFF, 0x0, 0x0, 0x0⟩,  -- GR_ARX1
    ⟨0x828, 256, 7, 0x0, 0x0, 0xFFFFFF00, 0x0, 0x0, 0x0⟩,  -- GR_ATX
    ⟨0x82C, 256, 7, 0x0, 0x0, 0xFFFFFF00, 0x0, 0x0, 0x0⟩,  -- GR_CRX0
    ⟨0x830, 256, 7, 0x0, 0x0, 0xFFFFFFFF, 0x0, 0x0, 0x0⟩,  -- GR_CRX1
    ⟨0x834, 256, 7, 0x0, 0x0, 0xFFFFFF00, 0x0, 0x0, 0x0⟩,  -- GR_CTX
    ⟨0x838, 256, 7, 0x0, 0x0, 0xFFFFFFFF, 0x0, 0x0, 0x0⟩,  -- GR_GPIO
    ⟨0x83C, 256, 7, 0x0, 0x0, 0x1F, 0x0, 0x0, 0x0⟩,  -- GR_MISC
    ⟨0x840, 256, 7, 0x0, 0x0, 0xFFF0000, 0x0, 0x0, 0x0⟩,  -- XIPBASE
    ⟨0x844, 256, 7, 0x0, 0x0, 0xFFF0000, 0x0, 0x0, 0x0⟩ ]  -- XIPSIZE

/-- KPA registers (Table 6-9). -/
def rowsKpa : List RegRow :=
  [ ⟨0x000, 4, 1, 0x0, 0x0, 0xF, 0x1F00, 0x0, 0x0⟩,  -- CTRL
    ⟨0x004, 4, 1, 0x3, 0x1FF03, 0x0, 0x0, 0x0, 0x0⟩,  -- STAT
    ⟨0x008, 4, 1, 0xCD2328, 0x0, 0xFFFFFF, 0x0, 0x0, 0x0⟩,  -- KINCFG
    ⟨0x00C, 4, 1, 0x0, 0xFFFFFFFF, 0x0, 0x0, 0x0, 0x0⟩,  -- MPPT
    ⟨0x010, 4, 1, 0x0, 0x0, 0x0, 0x0, 0x0, 0xFF⟩,  -- MPPTC
    ⟨0x014, 4, 1, 0x0, 0xFFFFFFFF, 0x0, 0x0, 0x0, 0x0⟩,  -- MEAS0
    ⟨0x018, 4, 1, 0x0, 0xFFFFFFFF, 0x0, 0x0, 0x0, 0x0⟩,  -- MEAS1
    ⟨0x01C, 4, 1, 0x0, 0xFFFFFFFF, 0x0, 0x0, 0x0, 0x0⟩,  -- MEAS2
    ⟨0x020, 4, 1, 0x0, 0xFFFFFFFF, 0x0, 0x0, 0x0, 0x0⟩,  -- MEAS3
    ⟨0x024, 4, 1, 0x0, 0x0, 0xFFFF03F3, 0x0, 0x0, 0x0⟩,  -- CHG0
    ⟨0x028, 4, 1, 0x0, 0x0, 0xFFFFFFFF, 0x0, 0x0, 0x0⟩,  -- CHG1
    ⟨0x02C, 4, 1, 0x643C, 0x0, 0x1FFFF, 0x0, 0x0, 0x0⟩,  -- CHG2
    ⟨0x030, 4, 1, 0x1E0A05, 0x0, 0xFFFFFF, 0x0, 0x0, 0x0⟩,  -- NIMH
    ⟨0x034, 4, 1, 0x322D0A00, 0x0, 0xFFFFFFFF, 0x0, 0x0, 0x0⟩,  -- ZONE0
    ⟨0x038, 4, 1, 0x23C, 0x0, 0xFFF, 0x0, 0x0, 0x0⟩,  -- ZONE1
    ⟨0x03C, 4, 1, 0x0, 0xFFFF0F7F, 0x0, 0x0, 0x0, 0x0⟩,  -- CHGST
    ⟨0x040, 4, 1, 0x3E8, 0x0, 0xFFFF, 0x0, 0x0, 0x0⟩,  -- KIDCFG
    ⟨0x044, 4, 1, 0x0, 0x0, 0x0, 0xFFFF0001, 0x0, 0x0⟩,  -- SHIP
    ⟨0x048, 4, 1, 0x0, 0x0, 0xFFFFFF3, 0x0, 0x0, 0x0⟩,  -- AUXCFG
    ⟨0x04C, 4, 1, 0x100050, 0x0, 0xFFFF03FF, 0x0, 0x0, 0x0⟩,  -- AUXSCL
    ⟨0x050, 4, 1, 0x0, 0xFFF0037, 0x0, 0x0, 0x0, 0x0⟩,  -- AUXST
    ⟨0x054, 4, 1, 0x0, 0x0, 0x0, 0x0, 0xFF, 0x0⟩,  -- IRQ
    ⟨0x058, 4, 1, 0x0, 0x0, 0xFF, 0x0, 0x0, 0x0⟩,  -- IRQEN
    ⟨0x05C, 4, 1, 0x142EE0, 0x0, 0xFFFFFF, 0x0, 0x0, 0x0⟩ ]  -- BSCFG

/-- CCA registers (Table 7-6). -/
def rowsCca : List RegRow :=
  [ ⟨0x000, 4, 1, 0x5, 0x0, 0x7, 0x0, 0x0, 0x0⟩,  -- CTRL
    ⟨0x004, 4, 1, 0x0, 0x7, 0x0, 0x0, 0x100, 0x0⟩,  -- STAT
    ⟨0x008, 4, 1, 0x0, 0xFFFFFFFF, 0x0, 0x0, 0x0, 0x0⟩,  -- ACCL
    ⟨0x00C, 4, 1, 0x0, 0xFFFFFFFF, 0x0, 0x0, 0x0, 0x0⟩,  -- ACCH
    ⟨0x010, 4, 1, 0x0, 0xFFFFFF, 0x0, 0x0, 0x0, 0x0⟩,  -- SAMPLE
    ⟨0x014, 4, 1, 0x0, 0xFFFF, 0x0, 0x0, 0x0, 0x0⟩,  -- GAIN
    ⟨0x018, 4, 1, 0x0, 0xFFFF, 0x0, 0x0, 0x0, 0x0⟩,  -- OFS
    ⟨0x01C, 4, 1, 0x0, 0x0, 0xFFFFFFF, 0x0, 0x0, 0x0⟩,  -- WAKE
    ⟨0x020, 4, 1, 0x0, 0x0, 0x0, 0x0, 0x3, 0x0⟩,  -- IRQ
    ⟨0x024, 4, 1, 0x0, 0x0, 0x3, 0x0, 0x0, 0x0⟩ ]  -- IRQEN

/-- FCS registers (Table 7-7). -/
def rowsFcs : List RegRow :=
  [ ⟨0x000, 4, 1, 0x1, 0x0, 0x3, 0xC, 0x0, 0x0⟩,  -- CTRL
    ⟨0x004, 4, 1, 0x30, 0x0, 0x3F, 0x0, 0x0, 0x0⟩,  -- OCS
    ⟨0x008, 4, 1, 0x1, 0x0, 0x3F, 0x0, 0x0, 0x0⟩,  -- BKI
    ⟨0x00C, 4, 1, 0x0, 0x2, 0x0, 0x0, 0x1D, 0x0⟩,  -- FLAGS
    ⟨0x010, 4, 1, 0x0, 0xFFFFFFFF, 0x0, 0x0, 0x0, 0x0⟩,  -- OCSTIME
    ⟨0x014, 4, 1, 0x0, 0xFFF, 0x0, 0x0, 0x0, 0x0⟩,  -- SAMPLE
    ⟨0x018, 4, 1, 0x0, 0xFFF0FFF, 0x0, 0x0, 0x0, 0x0⟩,  -- SMINMAX
    ⟨0x01C, 4, 1, 0x0, 0xFFFFF, 0x0, 0x0, 0x0, 0x0⟩,  -- SMEAN
    ⟨0x020, 4, 1, 0x0, 0x103FF, 0x0, 0x0, 0x0, 0x0⟩,  -- CAP
    ⟨0x024, 4, 1, 0x0, 0xFFF, 0x0, 0x0, 0x0, 0x0⟩,  -- CAPDATA
    ⟨0x028, 4, 1, 0x0, 0xFF0700, 0x0, 0x1, 0x0, 0x0⟩,  -- TEST
    ⟨0x02C, 4, 1, 0x0, 0xFFFFFFFF, 0x0, 0x0, 0x0, 0x0⟩,  -- TRIM
    ⟨0x030, 4, 1, 0x0, 0x0, 0x0, 0x0, 0xF, 0x0⟩,  -- IRQ
    ⟨0x034, 4, 1, 0x0, 0x0, 0xF, 0x0, 0x0, 0x0⟩ ]  -- IRQEN

/-- HVS registers (Table 7-8). -/
def rowsHvs : List RegRow :=
  [ ⟨0x000, 4, 1, 0x43F, 0x0, 0x73F, 0x3F0000, 0x0, 0x0⟩,  -- CTRL
    ⟨0x004, 4, 6, 0x0, 0xFFFFFFFF, 0x0, 0x0, 0x0, 0x0⟩,  -- CH
    ⟨0x01C, 4, 6, 0x0, 0x0, 0xFFFFFFFF, 0x0, 0x0, 0x0⟩,  -- TRIM
    ⟨0x034, 4, 1, 0x0, 0x3F, 0x0, 0x0, 0x3F3F00, 0x0⟩,  -- STAT
    ⟨0x038, 4, 1, 0x0, 0x0, 0x0, 0x0, 0x3, 0x0⟩,  -- IRQ
    ⟨0x03C, 4, 1, 0x0, 0x0, 0x3, 0x0, 0x0, 0x0⟩ ]  -- IRQEN

/-- CHN registers (Table 8-12). -/
def rowsChn : List RegRow :=
  [ ⟨0x000, 4, 1, 0x0, 0x0, 0x3F, 0x0, 0x0, 0x0⟩,  -- CTRL
    ⟨0x004, 4, 1, 0x0, 0xFFFFF7, 0x0, 0x0, 0x0, 0x0⟩,  -- RING
    ⟨0x008, 4, 1, 0x0, 0xFFFFFF, 0x0, 0x0, 0x0, 0x0⟩,  -- SEATS
    ⟨0x00C, 4, 1, 0x0, 0xFFFFFFFF, 0x0, 0x0, 0x0, 0x0⟩,  -- COUNTDN
    ⟨0x010, 4, 1, 0x0, 0xFFFF, 0x0, 0x0, 0x0, 0x0⟩,  -- RINGLAT
    ⟨0x014, 4, 1, 0xF14, 0x0, 0xFFFF, 0x0, 0x0, 0x0⟩,  -- TMO
    ⟨0x018, 4, 1, 0x2, 0x0, 0x3, 0x0, 0x0, 0x0⟩,  -- RETRY
    ⟨0x01C, 4, 1, 0x0, 0x0, 0x0, 0x37FFF, 0x0, 0x0⟩,  -- SUBMIT
    ⟨0x020, 4, 1, 0x0, 0x303FF, 0x0, 0x0, 0x0, 0x0⟩,  -- QSTAT
    ⟨0x024, 4, 1, 0x0, 0x0, 0x0, 0x0, 0x0, 0x80007FFF⟩,  -- DONE
    ⟨0x028, 4, 1, 0x0, 0x0, 0x0, 0x0, 0x0, 0xFFFF⟩,  -- CNTCRC
    ⟨0x02C, 4, 1, 0x0, 0x0, 0x0, 0x0, 0x0, 0xFFFF⟩,  -- CNTTMO
    ⟨0x030, 4, 1, 0x0, 0x0, 0x0, 0x0, 0x0, 0xFFFF⟩,  -- CNTRETRY
    ⟨0x034, 4, 1, 0x0, 0x0, 0x0, 0x0, 0x0, 0xFFFF⟩,  -- CNTLATE
    ⟨0x040, 4, 4, 0x0, 0xFFFFFFFF, 0x0, 0x0, 0x0, 0x0⟩,  -- PRES
    ⟨0x050, 4, 4, 0x0, 0xFFFFFFFF, 0x0, 0x0, 0x0, 0x0⟩,  -- LOST
    ⟨0x060, 4, 1, 0x0, 0x0, 0x0, 0x0, 0xF, 0x0⟩,  -- IRQ
    ⟨0x064, 4, 1, 0x0, 0x0, 0xF, 0x0, 0x0, 0x0⟩ ]  -- IRQEN

/-- RAD registers (Table 9-10). -/
def rowsRad : List RegRow :=
  [ ⟨0x000, 4, 1, 0x1E0000, 0x0, 0x3FFF0F, 0x0, 0x0, 0x0⟩,  -- CTRL
    ⟨0x004, 4, 1, 0x0, 0xFF3F07, 0x0, 0x0, 0x0, 0x0⟩,  -- STAT
    ⟨0x008, 4, 1, 0xFFFF, 0x0, 0xFFFFFF, 0x0, 0x0, 0x0⟩,  -- HOPCTRL
    ⟨0x00C, 4, 4, 0x0, 0x0, 0x3F3F3F3F, 0x0, 0x0, 0x0⟩,  -- HOPSET
    ⟨0x01C, 4, 4, 0x0, 0x0, 0x3F3F3F3F, 0x0, 0x0, 0x0⟩,  -- NEWSET
    ⟨0x02C, 4, 1, 0x0, 0xFFFFFFFF, 0x0, 0x0, 0x0, 0x0⟩,  -- MAPLO
    ⟨0x030, 4, 1, 0x0, 0xFFFFFFFF, 0x0, 0x0, 0x0, 0x0⟩,  -- MAPHI
    ⟨0x034, 4, 1, 0x0, 0x0, 0xFFFFFFFF, 0x0, 0x0, 0x0⟩,  -- ACCESS
    ⟨0x038, 4, 1, 0x0, 0x0, 0xFFFFFFFF, 0x0, 0x0, 0x0⟩,  -- SESSION
    ⟨0x03C, 4, 1, 0x0, 0x0, 0x0, 0x37FFF, 0x0, 0x0⟩,  -- SUBMIT
    ⟨0x040, 4, 1, 0x0, 0x0, 0x0, 0x0, 0x0, 0x80007FFF⟩,  -- DONE
    ⟨0x044, 4, 1, 0x0, 0x0, 0x0, 0x1, 0x0, 0x0⟩,  -- CALCTRL
    ⟨0x048, 4, 1, 0x0, 0xFFFF, 0x0, 0x0, 0x0, 0x0⟩,  -- CALSTAT
    ⟨0x04C, 4, 1, 0x0, 0x0, 0x0, 0x0, 0x0, 0xFFFF⟩,  -- CNTCRC
    ⟨0x050, 4, 1, 0x0, 0x0, 0x0, 0x0, 0x0, 0xFFFF⟩,  -- CNTMIC
    ⟨0x054, 4, 1, 0x0, 0x0, 0x0, 0x0, 0x0, 0xFFFF⟩,  -- CNTTMO
    ⟨0x058, 4, 1, 0x0, 0x0, 0x0, 0x0, 0x0, 0xFFFFFFFF⟩,  -- CNTFORFEIT
    ⟨0x05C, 4, 1, 0x0, 0x0, 0x0, 0x0, 0x0, 0xFFFF⟩,  -- CNTUNPAIRED
    ⟨0x060, 4, 1, 0x0, 0xFFFF01FF, 0x0, 0x0, 0x0, 0x0⟩,  -- JOINSTAT
    ⟨0x064, 4, 1, 0x0, 0x0, 0x0, 0x0, 0x0, 0x8000FFFF⟩,  -- JOINRD
    ⟨0x068, 4, 1, 0x0, 0x0, 0x0, 0xFF, 0x0, 0x0⟩,  -- GRANT
    ⟨0x06C, 4, 1, 0x0, 0x0, 0x0, 0x0, 0x3F, 0x0⟩,  -- IRQ
    ⟨0x070, 4, 1, 0x0, 0x0, 0x3F, 0x0, 0x0, 0x0⟩,  -- IRQEN
    ⟨0x100, 4, 40, 0x0, 0x0, 0x0, 0x0, 0x0, 0xFFFFFFFF⟩ ]  -- CHSTAT

/-- TWN registers (Table 9-11). -/
def rowsTwn : List RegRow :=
  [ ⟨0x000, 4, 1, 0x1C01, 0x0, 0xFF01, 0x0, 0x0, 0x0⟩,  -- CTRL
    ⟨0x004, 4, 1, 0x0, 0xFFFF, 0x0, 0x0, 0x0, 0x0⟩,  -- STAT
    ⟨0x008, 4, 1, 0x0, 0x0, 0x0, 0x0, 0x0, 0xFFFF⟩,  -- CNTAGR
    ⟨0x00C, 4, 1, 0x0, 0x0, 0x0, 0x0, 0x0, 0xFFFF⟩,  -- CNTCHN
    ⟨0x010, 4, 1, 0x0, 0x0, 0x0, 0x0, 0x0, 0xFFFF⟩,  -- CNTRAD
    ⟨0x014, 4, 1, 0x0, 0x0, 0x0, 0x0, 0x0, 0xFFFF⟩,  -- CNTDIS
    ⟨0x018, 4, 1, 0x0, 0x0, 0x0, 0x0, 0x0, 0xFFFF⟩,  -- CNTMIS
    ⟨0x01C, 4, 1, 0x0, 0xFFFFFF, 0x0, 0x0, 0x0, 0x0⟩,  -- LASTDIS
    ⟨0x020, 4, 1, 0x0, 0x7FFF, 0x0, 0x0, 0x0, 0x0⟩,  -- LASTDTAG
    ⟨0x024, 4, 1, 0x0, 0x0, 0x0, 0x0, 0x3, 0x0⟩,  -- IRQ
    ⟨0x028, 4, 1, 0x0, 0x0, 0x3, 0x0, 0x0, 0x0⟩ ]  -- IRQEN

/-- TXT registers (Table 8-13). -/
def rowsTxt : List RegRow :=
  [ ⟨0x000, 4, 1, 0x0, 0x0, 0x3, 0x0, 0x0, 0x0⟩,  -- CTRL
    ⟨0x004, 4, 1, 0x4, 0x7, 0x0, 0x0, 0x0, 0x0⟩,  -- LIFE
    ⟨0x008, 4, 1, 0x0, 0xFFFFFFFF, 0x0, 0x0, 0x0, 0x0⟩,  -- STAT
    ⟨0x00C, 4, 1, 0x0, 0x0, 0x0, 0x0, 0x0, 0xFFFF⟩,  -- EXPIRED
    ⟨0x010, 4, 1, 0x0, 0x7FFF, 0x0, 0x0, 0x0, 0x0⟩,  -- LASTEXP
    ⟨0x014, 4, 1, 0x0, 0x0, 0x0, 0x0, 0x0, 0xFFFF⟩,  -- LATE
    ⟨0x018, 4, 1, 0x0, 0x0, 0x0, 0x0, 0x0, 0xFFFF⟩,  -- BADSUB
    ⟨0x01C, 4, 1, 0x0, 0x0, 0x0, 0x0, 0x3, 0x0⟩,  -- IRQ
    ⟨0x020, 4, 1, 0x0, 0x0, 0x3, 0x0, 0x0, 0x0⟩ ]  -- IRQEN

/-- CTR registers (Table 10-9). -/
def rowsCtr : List RegRow :=
  [ ⟨0x000, 4, 1, 0x0, 0x0, 0x1, 0x0, 0x0, 0x0⟩,  -- CTRL
    ⟨0x004, 4, 1, 0x0, 0x0, 0xFFF, 0x0, 0x0, 0x0⟩,  -- OUT
    ⟨0x008, 4, 1, 0x0, 0xFFF0FFF, 0x0, 0x0, 0x0, 0x0⟩,  -- STAT
    ⟨0x00C, 4, 1, 0x0, 0xFFF, 0x0, 0x0, 0x0, 0x0⟩,  -- PHASE
    ⟨0x010, 4, 1, 0x0, 0x0, 0x0, 0x0, 0xFFF0FFF, 0x0⟩,  -- FAULT
    ⟨0x014, 4, 1, 0x0, 0x3, 0x0, 0x0, 0x0, 0x0⟩,  -- BKI
    ⟨0x018, 4, 1, 0x0, 0x0, 0x0, 0x0, 0x7, 0x0⟩,  -- IRQ
    ⟨0x01C, 4, 1, 0x0, 0x0, 0x7, 0x0, 0x0, 0x0⟩,  -- IRQEN
    ⟨0x040, 4, 12, 0x1012C64, 0x0, 0x303FFFF, 0x0, 0x0, 0x0⟩,  -- CFG
    ⟨0x080, 4, 12, 0x0, 0xFF0FFF, 0x0, 0x0, 0x0, 0x0⟩ ]  -- IMEAS

/-- PUMP registers (Table 10-10). -/
def rowsPump : List RegRow :=
  [ ⟨0x000, 4, 1, 0x0, 0x0, 0x1, 0x6, 0x0, 0x0⟩,  -- CTRL
    ⟨0x004, 4, 1, 0x0, 0xF, 0x0, 0x0, 0x0, 0x0⟩,  -- STAT
    ⟨0x008, 4, 1, 0x0, 0xFFF3FFF, 0x0, 0x0, 0x0, 0x0⟩,  -- VGS
    ⟨0x00C, 4, 1, 0x0, 0x0, 0x0, 0x0, 0x0, 0xFFFF⟩,  -- UNFED
    ⟨0x010, 4, 1, 0x0, 0x0, 0x0, 0x0, 0x3, 0x0⟩,  -- IRQ
    ⟨0x014, 4, 1, 0x0, 0x0, 0x3, 0x0, 0x0, 0x0⟩ ]  -- IRQEN

/-- MDI registers (Table 11-6). -/
def rowsMdi : List RegRow :=
  [ ⟨0x000, 4, 1, 0x0, 0x0, 0xFF03, 0x70, 0x0, 0x0⟩,  -- CTRL
    ⟨0x004, 4, 1, 0x0, 0xFFFF0177, 0x0, 0x0, 0x0, 0x0⟩,  -- STAT
    ⟨0x008, 4, 1, 0x3C1E43, 0x0, 0xFFFF77, 0x0, 0x0, 0x0⟩,  -- CFG
    ⟨0x00C, 4, 1, 0x0, 0xFFFFFFFF, 0x0, 0x0, 0x0, 0x0⟩,  -- IMEAS
    ⟨0x010, 4, 1, 0x0, 0x0, 0x0, 0x0, 0x3F, 0x0⟩,  -- FAULT
    ⟨0x014, 4, 1, 0x0, 0x0, 0x0, 0x0, 0x7, 0x0⟩,  -- IRQ
    ⟨0x018, 4, 1, 0x0, 0x0, 0x7, 0x0, 0x0, 0x0⟩ ]  -- IRQEN

/-- SIN registers (Table 11-7). -/
def rowsSin : List RegRow :=
  [ ⟨0x000, 4, 1, 0xF, 0x0, 0xF, 0x0, 0x0, 0x0⟩,  -- CTRL
    ⟨0x004, 4, 1, 0x0, 0x3FFF, 0x0, 0x0, 0xF0000, 0x0⟩,  -- TPSTAT
    ⟨0x008, 4, 1, 0x0, 0xFFFFFF, 0x0, 0x0, 0x0, 0x0⟩,  -- STAT
    ⟨0x00C, 4, 1, 0x0, 0x3FF, 0x0, 0x0, 0x0, 0x0⟩,  -- RAW
    ⟨0x010, 4, 8, 0x0, 0x0, 0x7, 0x0, 0x0, 0x0⟩,  -- CFG
    ⟨0x030, 4, 1, 0x0, 0x0, 0x0, 0x0, 0xFFFFF, 0x0⟩,  -- IRQ
    ⟨0x034, 4, 1, 0x0, 0x0, 0xFFFFF, 0x0, 0x0, 0x0⟩ ]  -- IRQEN

/-- IMD registers (Table 11-8). -/
def rowsImd : List RegRow :=
  [ ⟨0x000, 4, 1, 0x0, 0x0, 0xF, 0x0, 0x0, 0x0⟩,  -- CTRL
    ⟨0x004, 4, 1, 0x0, 0x37, 0x0, 0x0, 0x100, 0x0⟩,  -- STAT
    ⟨0x008, 4, 1, 0x0, 0xFFFF, 0x0, 0x0, 0x0, 0x0⟩,  -- CODE
    ⟨0x00C, 4, 1, 0x0, 0xFFFF, 0x0, 0x0, 0x0, 0x0⟩,  -- MEAN
    ⟨0x010, 4, 1, 0xFFFFFFFF, 0x0, 0xFFFFFFFF, 0x0, 0x0, 0x0⟩,  -- RP
    ⟨0x014, 4, 1, 0xFFFFFFFF, 0x0, 0xFFFFFFFF, 0x0, 0x0, 0x0⟩,  -- RN
    ⟨0x018, 4, 1, 0xFFFFFFFF, 0x0, 0xFFFFFFFF, 0x0, 0x0, 0x0⟩,  -- RKIN
    ⟨0x01C, 4, 1, 0xFFFFFFFF, 0x0, 0xFFFFFFFF, 0x0, 0x0, 0x0⟩,  -- RNTOT
    ⟨0x020, 4, 1, 0x0, 0x0, 0xFF, 0x0, 0x0, 0x0⟩,  -- FLAGS
    ⟨0x024, 4, 1, 0x0, 0x0, 0x0, 0x0, 0x1, 0x0⟩,  -- IRQ
    ⟨0x028, 4, 1, 0x0, 0x0, 0x1, 0x0, 0x0, 0x0⟩ ]  -- IRQEN

/-- CAN registers (Table 13-12). -/
def rowsCan : List RegRow :=
  [ ⟨0x000, 4, 1, 0x0, 0x0, 0x3FF, 0x0, 0x0, 0x0⟩,  -- CTRL
    ⟨0x004, 4, 1, 0x0, 0x0, 0x7F7FFFFF, 0x0, 0x0, 0x0⟩,  -- NBT
    ⟨0x008, 4, 1, 0x0, 0x0, 0xF0F1F1F, 0x0, 0x0, 0x0⟩,  -- DBT
    ⟨0x00C, 4, 1, 0x0, 0x7F000000, 0x7F7F01, 0x0, 0x0, 0x0⟩,  -- TDC
    ⟨0x010, 4, 1, 0x0, 0x1F3F077F, 0x0, 0x0, 0x0, 0x0⟩,  -- STAT
    ⟨0x014, 4, 1, 0x0, 0xFFFF, 0x0, 0x0, 0x0, 0x0⟩,  -- ECR
    ⟨0x018, 4, 1, 0x0, 0x0, 0x0, 0x0, 0x0, 0xFFFF⟩,  -- CEL
    ⟨0x01C, 4, 1, 0x0, 0x0, 0x803F007F, 0x0, 0x0, 0x0⟩,  -- MTX
    ⟨0x020, 4, 1, 0x0, 0x0, 0x800007FF, 0x0, 0x0, 0x0⟩,  -- REFID
    ⟨0x024, 4, 1, 0x0, 0xFFFFFFFF, 0x0, 0x0, 0x0, 0x0⟩,  -- SOFREF
    ⟨0x028, 4, 1, 0x0, 0x0, 0x7FFF, 0x0, 0x0, 0x0⟩,  -- REFDLY
    ⟨0x040, 4, 16, 0x0, 0x0, 0x7FFF7FFF, 0x0, 0x0, 0x0⟩,  -- COL
    ⟨0x080, 4, 1, 0x0, 0x0, 0x0, 0x0, 0xFFFFFFFF, 0x0⟩,  -- RXNEW0
    ⟨0x084, 4, 1, 0x0, 0x0, 0x0, 0x0, 0xFFFFFFFF, 0x0⟩,  -- RXNEW1
    ⟨0x088, 4, 1, 0x0, 0x0, 0x0, 0x0, 0xFFFFFFFF, 0x0⟩,  -- RXLOST0
    ⟨0x08C, 4, 1, 0x0, 0x0, 0x0, 0x0, 0xFFFFFFFF, 0x0⟩,  -- RXLOST1
    ⟨0x090, 4, 1, 0x0, 0x0, 0xFFFFFFFF, 0x0, 0x0, 0x0⟩,  -- RXEN0
    ⟨0x094, 4, 1, 0x0, 0x0, 0xFFFFFFFF, 0x0, 0x0, 0x0⟩,  -- RXEN1
    ⟨0x098, 4, 1, 0x0, 0xFFFFFFFF, 0x0, 0x0, 0x0, 0x0⟩,  -- TXPEND
    ⟨0x09C, 4, 1, 0x0, 0x0, 0x0, 0xFFFFFFFF, 0x0, 0x0⟩,  -- TXREQ
    ⟨0x0A0, 4, 1, 0x0, 0x0, 0x0, 0xFFFFFFFF, 0x0, 0x0⟩,  -- TXABORT
    ⟨0x0A4, 4, 1, 0x0, 0x0, 0x0, 0x0, 0xFFFFFFFF, 0x0⟩,  -- TXDONE
    ⟨0x0A8, 4, 1, 0x0, 0x1FF, 0x0, 0x0, 0x0, 0x0⟩,  -- FIFOST
    ⟨0x0AC, 4, 1, 0x0, 0x0, 0x0, 0x0, 0x0, 0xFFFF⟩,  -- FIFODROP
    ⟨0x0B0, 4, 1, 0x0, 0x0, 0x1, 0x0, 0x0, 0x0⟩,  -- FIFOCTRL
    ⟨0x0B4, 4, 1, 0x0, 0x0, 0x0, 0x0, 0xFF, 0x0⟩,  -- IRQ
    ⟨0x0B8, 4, 1, 0x0, 0x0, 0xFF, 0x0, 0x0, 0x0⟩,  -- IRQEN
    ⟨0x0C0, 4, 1, 0x0, 0x0, 0x7F03, 0x0, 0x0, 0x0⟩,  -- WSEL
    ⟨0x0C4, 4, 1, 0x0, 0x0, 0x0, 0x1, 0x0, 0x0⟩,  -- WCOMMIT
    ⟨0x100, 4, 18, 0x0, 0x0, 0xFFFFFFFF, 0x0, 0x0, 0x0⟩,  -- WBUF
    ⟨0x200, 4, 32, 0x0, 0xFFFFFFF7, 0x0, 0x0, 0x0, 0x0⟩,  -- TXST
    ⟨0x400, 4, 256, 0x0, 0x0, 0x7F7F7F7F, 0x0, 0x0, 0x0⟩ ]  -- CELL

/-- CON registers (Table 14-10). -/
def rowsCon : List RegRow :=
  [ ⟨0x000, 4, 1, 0x7, 0x0, 0xF, 0x700, 0x0, 0x0⟩,  -- CTRL
    ⟨0x004, 4, 1, 0xD0, 0x0, 0xFFFF, 0x0, 0x0, 0x0⟩,  -- BAUD
    ⟨0x008, 4, 1, 0x2, 0x1F, 0x0, 0x0, 0xF00, 0x0⟩,  -- STAT
    ⟨0x00C, 4, 1, 0x0, 0x0, 0x0, 0x0, 0x0, 0x800000FF⟩,  -- RXDATA
    ⟨0x010, 4, 1, 0x0, 0x0, 0x0, 0xFF, 0x0, 0x0⟩,  -- TXDATA
    ⟨0x014, 4, 1, 0x0, 0x1FF01FF, 0x0, 0x0, 0x0, 0x0⟩,  -- FIFO
    ⟨0x018, 4, 1, 0x0, 0xFFFF, 0x0, 0x0, 0x0, 0x0⟩,  -- ABMEAS
    ⟨0x01C, 4, 1, 0x20, 0x0, 0xFF, 0x0, 0x0, 0x0⟩,  -- RXTO
    ⟨0x020, 4, 1, 0x0, 0x0, 0x0, 0x0, 0x1F, 0x0⟩,  -- IRQ
    ⟨0x024, 4, 1, 0x0, 0x0, 0x1F, 0x0, 0x0, 0x0⟩ ]  -- IRQEN

/-- LOG registers (Table 15-8). -/
def rowsLog : List RegRow :=
  [ ⟨0x000, 4, 1, 0x3, 0x0, 0x3, 0x0, 0x0, 0x0⟩,  -- CTRL
    ⟨0x004, 4, 1, 0x0, 0x7F007F, 0x0, 0x0, 0x0, 0x0⟩,  -- PEND
    ⟨0x008, 4, 1, 0x0, 0x0, 0x0, 0x0, 0x0, 0xFFFF⟩,  -- PENDDROP
    ⟨0x00C, 4, 1, 0x0, 0x0, 0x0, 0x0, 0x7, 0x0⟩,  -- IRQ
    ⟨0x010, 4, 1, 0x0, 0x0, 0x7, 0x0, 0x0, 0x0⟩,  -- IRQEN
    ⟨0x020, 4, 1, 0x0, 0x0, 0xF7FFFFFF, 0x0, 0x0, 0x0⟩,  -- SUBCODE
    ⟨0x024, 4, 1, 0x0, 0x0, 0xFFFFFFFF, 0x0, 0x0, 0x0⟩,  -- SUBARG0
    ⟨0x028, 4, 1, 0x0, 0x0, 0xFFFFFFFF, 0x0, 0x0, 0x0⟩,  -- SUBARG1
    ⟨0x02C, 4, 1, 0x0, 0x0, 0xFFFFFFFF, 0x0, 0x0, 0x0⟩,  -- SUBARGX
    ⟨0x030, 4, 1, 0x0, 0x0, 0xFFFFFFFF, 0x0, 0x0, 0x0⟩,  -- SUBTIMEL
    ⟨0x034, 4, 1, 0x0, 0x0, 0xC000FFFF, 0x0, 0x0, 0x0⟩,  -- SUBTIMEH
    ⟨0x038, 4, 1, 0x0, 0x0, 0x0, 0x1, 0x0, 0x0⟩,  -- SUBGO
    ⟨0x03C, 4, 1, 0x0, 0x3, 0x0, 0x0, 0x0, 0x0⟩,  -- SUBSTAT
    ⟨0x040, 4, 1, 0x0, 0x0, 0xF, 0x0, 0x0, 0x0⟩,  -- CURSOR
    ⟨0x044, 4, 1, 0x0, 0x0, 0xFFFFFFFF, 0x0, 0x0, 0x0⟩,  -- CURSEQ
    ⟨0x048, 4, 1, 0x0, 0x7, 0x0, 0x0, 0x0, 0x0⟩,  -- WSTAT
    ⟨0x060, 4, 8, 0x0, 0xFFFFFFFF, 0x0, 0x0, 0x0, 0x0⟩,  -- WIN
    ⟨0x080, 4, 1, 0x0, 0x0, 0x0, 0xF1, 0x0, 0x0⟩,  -- RELEASE
    ⟨0x084, 4, 1, 0x0, 0x0, 0xFFFFFFFF, 0x0, 0x0, 0x0⟩,  -- RELUPTO
    ⟨0x100, 16, 9, 0x0, 0xFFFFFFFF, 0x0, 0x0, 0x0, 0x0⟩,  -- BFIRST
    ⟨0x104, 16, 9, 0x0, 0xFFFFFFFF, 0x0, 0x0, 0x0, 0x0⟩,  -- BNEXT
    ⟨0x108, 16, 9, 0x0, 0xFFFFFFFF, 0x0, 0x0, 0x0, 0x0⟩,  -- BOVF
    ⟨0x10C, 16, 9, 0x0, 0xFFFFFFFF, 0x0, 0x0, 0x0, 0x0⟩ ]  -- BSUPP

/-- EFC registers (Table 15-11). -/
def rowsEfc : List RegRow :=
  [ ⟨0x000, 4, 1, 0x1, 0x0, 0x3, 0x0, 0x0, 0x0⟩,  -- CTRL
    ⟨0x004, 4, 1, 0x0, 0x37, 0x0, 0x0, 0x300, 0x0⟩,  -- STAT
    ⟨0x008, 4, 1, 0x0, 0x0, 0x3FFFF8, 0x0, 0x0, 0x0⟩,  -- ADDR
    ⟨0x00C, 4, 1, 0xFFFFFFFF, 0x0, 0xFFFFFFFF, 0x0, 0x0, 0x0⟩,  -- WDATA0
    ⟨0x010, 4, 1, 0xFFFFFFFF, 0x0, 0xFFFFFFFF, 0x0, 0x0, 0x0⟩,  -- WDATA1
    ⟨0x014, 4, 1, 0x0, 0x0, 0x0, 0xFFFF0013, 0x0, 0x0⟩,  -- CMD
    ⟨0x018, 4, 1, 0x0, 0xFFFFFFFF, 0x0, 0x0, 0x0, 0x0⟩,  -- RDATA0
    ⟨0x01C, 4, 1, 0x0, 0xFFFFFFFF, 0x0, 0x0, 0x0, 0x0⟩,  -- RDATA1
    ⟨0x020, 4, 1, 0x0, 0xFF03, 0x0, 0x0, 0x0, 0x0⟩,  -- RCLASS
    ⟨0x024, 4, 1, 0x0, 0x0, 0x0, 0x0, 0x0, 0xFFFFFFFF⟩,  -- OPCNT
    ⟨0x028, 4, 1, 0x0, 0x0, 0x0, 0x0, 0x3, 0x0⟩,  -- IRQ
    ⟨0x02C, 4, 1, 0x0, 0x0, 0x3, 0x0, 0x0, 0x0⟩ ]  -- IRQEN

/-- TAG registers (Table 16-9). -/
def rowsTag : List RegRow :=
  [ ⟨0x000, 4, 1, 0x1, 0x0, 0x1, 0x2, 0x0, 0x0⟩,  -- CTRL
    ⟨0x004, 4, 1, 0x0, 0x77, 0x0, 0x0, 0x300, 0x0⟩,  -- STAT
    ⟨0x008, 4, 1, 0x0, 0x3, 0x0, 0x30, 0x0, 0x0⟩,  -- MBSEM
    ⟨0x00C, 4, 1, 0x0, 0xFFFFFFFF, 0x0, 0x0, 0x0, 0x0⟩,  -- CONFSTAMP
    ⟨0x010, 4, 1, 0x0, 0x0, 0x0, 0xFFFF0003, 0x0, 0x0⟩,  -- WIPE
    ⟨0x014, 4, 1, 0x0, 0x7FF, 0x0, 0x0, 0x0, 0x0⟩,  -- LASTW
    ⟨0x018, 4, 1, 0x0, 0x0, 0x0, 0x0, 0x0, 0xFFFF⟩,  -- FWCNT
    ⟨0x01C, 4, 1, 0x0, 0x0, 0x0, 0x0, 0x7F, 0x0⟩,  -- IRQ
    ⟨0x020, 4, 1, 0x0, 0x0, 0x7F, 0x0, 0x0, 0x0⟩ ]  -- IRQEN

/-- QP registers (Table 17-4). -/
def rowsQp : List RegRow :=
  [ ⟨0x000, 4, 1, 0x0, 0x0, 0x3F, 0x100, 0x0, 0x0⟩,  -- CTRL
    ⟨0x004, 4, 1, 0x50802, 0x0, 0xF0FFF, 0x0, 0x0, 0x0⟩,  -- XIPCLK
    ⟨0x008, 4, 1, 0x0, 0x1F, 0x0, 0x0, 0x0, 0x0⟩,  -- STAT
    ⟨0x00C, 4, 1, 0x0, 0x0, 0x0, 0x0, 0x0, 0xFFFF⟩,  -- FILLCNT
    ⟨0x010, 4, 1, 0x0, 0x0, 0x0, 0x0, 0x0, 0xFFFFFFFF⟩,  -- TAGFAIL
    ⟨0x014, 4, 1, 0x0, 0xFFFFFFF, 0x0, 0x0, 0x0, 0x0⟩,  -- TAGADDR
    ⟨0x018, 4, 1, 0x0, 0x0, 0x0, 0x0, 0x3, 0x0⟩,  -- IRQ
    ⟨0x01C, 4, 1, 0x0, 0x0, 0x3, 0x0, 0x0, 0x0⟩,  -- IRQEN
    ⟨0x040, 16, 7, 0x0, 0x0, 0xFFF0000, 0x0, 0x0, 0x0⟩,  -- WIN_BASE
    ⟨0x044, 16, 7, 0x0, 0x0, 0xFFF0000, 0x0, 0x0, 0x0⟩,  -- WIN_SIZE
    ⟨0x048, 16, 7, 0x0, 0x0, 0xFFFFFFFF, 0x0, 0x0, 0x0⟩,  -- WIN_VER
    ⟨0x04C, 16, 7, 0x0, 0x0, 0x1, 0x0, 0x0, 0x0⟩,  -- WIN_EN
    ⟨0x100, 64, 4, 0x50002, 0x0, 0x10F01FF, 0x0, 0x0, 0x0⟩,  -- Q_CFG
    ⟨0x104, 64, 4, 0x700, 0x0, 0x3371F03, 0x0, 0x0, 0x0⟩,  -- Q_ENTCTL
    ⟨0x108, 64, 4, 0x0, 0x0, 0x0, 0xFFFFFFFF, 0x0, 0x0⟩,  -- Q_ENTDATA
    ⟨0x10C, 64, 4, 0x0, 0x0, 0x0, 0x1, 0x0, 0x0⟩,  -- Q_PUSH
    ⟨0x110, 64, 4, 0x1000, 0x3F1F01, 0x0, 0x0, 0x1000000, 0x0⟩,  -- Q_STAT
    ⟨0x114, 64, 4, 0x0, 0x0, 0x0, 0x0, 0x0, 0xFFFFFFFF⟩,  -- Q_RXDATA
    ⟨0x118, 64, 4, 0x0, 0x0, 0x0, 0x0, 0x0, 0xFF⟩,  -- Q_DONECNT
    ⟨0x1E0, 4, 1, 0x0, 0xFFFF7F, 0x0, 0x0, 0x0, 0xFF000000⟩,  -- SLVST
    ⟨0x1E4, 4, 1, 0x0, 0x0, 0x0, 0x0, 0x0, 0xFFFFFFFF⟩ ]  -- SLVRX

/-- GPIO registers (Table 17-5). -/
def rowsGpio : List RegRow :=
  [ ⟨0x000, 4, 1, 0x0, 0x0, 0xFFFFFFFF, 0x0, 0x0, 0x0⟩,  -- DIR
    ⟨0x004, 4, 1, 0x0, 0x0, 0xFFFFFFFF, 0x0, 0x0, 0x0⟩,  -- OUT
    ⟨0x008, 4, 1, 0x0, 0x0, 0x0, 0xFFFFFFFF, 0x0, 0x0⟩,  -- SET
    ⟨0x00C, 4, 1, 0x0, 0x0, 0x0, 0xFFFFFFFF, 0x0, 0x0⟩,  -- CLR
    ⟨0x010, 4, 1, 0x0, 0xFFFFFFFF, 0x0, 0x0, 0x0, 0x0⟩,  -- IN
    ⟨0x014, 4, 1, 0x0, 0x0, 0xFFFFFFFF, 0x0, 0x0, 0x0⟩,  -- RISE
    ⟨0x018, 4, 1, 0x0, 0x0, 0xFFFFFFFF, 0x0, 0x0, 0x0⟩,  -- FALL
    ⟨0x01C, 4, 1, 0x0, 0x0, 0x0, 0x0, 0xFFFFFFFF, 0x0⟩,  -- EDGE
    ⟨0x020, 4, 1, 0x0, 0x0, 0xFFFFFFFF, 0x0, 0x0, 0x0⟩,  -- SAFE
    ⟨0x024, 4, 1, 0x0, 0x0, 0xFFFFFFFF, 0x0, 0x0, 0x0⟩ ]  -- SAFEDIR

/-- CLK registers (Table 5-14). -/
def rowsClk : List RegRow :=
  [ ⟨0x000, 4, 1, 0x0, 0x0, 0x3, 0x0, 0x0, 0x0⟩,  -- CTRL
    ⟨0x004, 4, 1, 0x0, 0xF, 0x0, 0x0, 0x100, 0x0⟩,  -- STAT
    ⟨0x008, 4, 1, 0x19000C8, 0xFFFFFFFF, 0x0, 0x0, 0x0, 0x0⟩,  -- FREQ
    ⟨0x00C, 4, 1, 0x20, 0x0, 0x3F, 0x0, 0x0, 0x0⟩ ]  -- X32TRIM

/-- TMP registers (Table 7-9). -/
def rowsTmp : List RegRow :=
  [ ⟨0x000, 4, 1, 0x1FF, 0x0, 0x1FF, 0x0, 0x0, 0x0⟩,  -- CTRL
    ⟨0x004, 4, 8, 0x0, 0x3FFFF, 0x0, 0x0, 0x0, 0x0⟩,  -- LT
    ⟨0x024, 4, 1, 0x0, 0xFFFF, 0x0, 0x0, 0x0, 0x0⟩,  -- DIE
    ⟨0x028, 4, 1, 0x0, 0xFFFF, 0x0, 0x0, 0x0, 0x0⟩,  -- REFTRIM
    ⟨0x02C, 4, 1, 0x0, 0x0, 0x0, 0x0, 0xFF, 0x0⟩,  -- IRQ
    ⟨0x030, 4, 1, 0x0, 0x0, 0xFF, 0x0, 0x0, 0x0⟩ ]  -- IRQEN

/-- DBG registers (Table 3-8). -/
def rowsDbg : List RegRow :=
  [ ⟨0x000, 4, 1, 0x0, 0x1F, 0x0, 0x0, 0x0, 0x0⟩,  -- STAT
    ⟨0x004, 4, 1, 0x0, 0x3, 0x0, 0x0, 0x0, 0x0⟩,  -- FAILS
    ⟨0x008, 4, 1, 0x0, 0xFFFFFFFF, 0x0, 0x0, 0x0, 0x0⟩ ]  -- SESSID

/-- SEC registers (Table 19-4). -/
def rowsSec : List RegRow :=
  [ ⟨0x000, 4, 1, 0x1, 0x0, 0x1, 0x0, 0x0, 0x0⟩,  -- CTRL
    ⟨0x004, 4, 1, 0x7, 0xF, 0x0, 0x0, 0x300, 0x0⟩,  -- STAT
    ⟨0x008, 4, 1, 0x0, 0xFFFFFFFF, 0x0, 0x0, 0x0, 0x0⟩,  -- RAND
    ⟨0x00C, 4, 1, 0x0, 0xFFE, 0x0, 0x0, 0x0, 0x0⟩,  -- KHVALID
    ⟨0x010, 4, 1, 0x0, 0xFF0F, 0x0, 0x0, 0x0, 0x0⟩,  -- AUTH
    ⟨0x014, 4, 1, 0x0, 0xFFFFFFFF, 0x0, 0x0, 0x0, 0x0⟩,  -- CHALID
    ⟨0x020, 4, 4, 0x0, 0xFFFFFFFF, 0x0, 0x0, 0x0, 0x0⟩,  -- NONCE
    ⟨0x100, 4, 1, 0x0, 0x0, 0xFF07, 0x0, 0x0, 0x0⟩,  -- OP
    ⟨0x104, 4, 1, 0x0, 0x0, 0xFFFFFFFF, 0x0, 0x0, 0x0⟩,  -- SRC
    ⟨0x108, 4, 1, 0x0, 0x0, 0xFFFFFFFF, 0x0, 0x0, 0x0⟩,  -- DST
    ⟨0x10C, 4, 1, 0x0, 0x0, 0xFFFFFFFF, 0x0, 0x0, 0x0⟩,  -- LEN
    ⟨0x110, 4, 1, 0x0, 0x0, 0x0, 0x1, 0x0, 0x0⟩,  -- GO
    ⟨0x114, 4, 1, 0x0, 0x0, 0x0, 0xFFFF01FF, 0x0, 0x0⟩,  -- KEYLOAD
    ⟨0x118, 4, 1, 0x0, 0x0, 0x0, 0x0, 0x3, 0x0⟩,  -- IRQ
    ⟨0x11C, 4, 1, 0x0, 0x0, 0x3, 0x0, 0x0, 0x0⟩ ]  -- IRQEN

/-- The 34 peripheral blocks and their bases (Table 1-4). -/
def regBlocks : List (Nat × List RegRow) :=
  [ (0x40000000, rowsSys),
    (0x40001000, rowsRst),
    (0x40002000, rowsLcs),
    (0x40003000, rowsStk),
    (0x40004000, rowsAgr),
    (0x40005000, rowsCox),
    (0x40006000, rowsPart),
    (0x40007000, rowsKpa),
    (0x40008000, rowsCca),
    (0x40009000, rowsFcs),
    (0x4000A000, rowsHvs),
    (0x4000B000, rowsChn),
    (0x4000C000, rowsRad),
    (0x4000D000, rowsTwn),
    (0x4000E000, rowsTxt),
    (0x4000F000, rowsCtr),
    (0x40010000, rowsPump),
    (0x40011000, rowsMdi),
    (0x40012000, rowsSin),
    (0x40013000, rowsImd),
    (0x40014000, rowsCan),
    (0x40015000, rowsCan),
    (0x40016000, rowsCan),
    (0x40017000, rowsCon),
    (0x40018000, rowsCon),
    (0x40019000, rowsLog),
    (0x4001A000, rowsEfc),
    (0x4001B000, rowsTag),
    (0x4001C000, rowsQp),
    (0x4001D000, rowsGpio),
    (0x4001E000, rowsClk),
    (0x4001F000, rowsTmp),
    (0x40020000, rowsDbg),
    (0x40021000, rowsSec) ]

namespace Reg

abbrev SYS_ID : Nat := 0x40000000
abbrev SYS_GRADE : Nat := 0x40000004
abbrev SYS_UID0 : Nat := 0x40000008
abbrev SYS_UID1 : Nat := 0x4000000C
abbrev SYS_CAMLAN : Nat := 0x40000010
abbrev SYS_CAPS : Nat := 0x40000014
abbrev SYS_BEADDR : Nat := 0x40000018
abbrev SYS_BESTAT : Nat := 0x4000001C
abbrev STK_CTRL : Nat := 0x40003000
abbrev STK_NUM : Nat := 0x40003004
abbrev STK_PHASE : Nat := 0x40003008
abbrev STK_POS : Nat := 0x4000300C
abbrev STK_TIMEL : Nat := 0x40003010
abbrev STK_TIMEH : Nat := 0x40003014
abbrev STK_FIN : Nat := 0x40003018
abbrev STK_STAT : Nat := 0x4000301C
abbrev STK_CRABCNT : Nat := 0x40003020
abbrev STK_TRIM : Nat := 0x40003024
abbrev STK_HCTRL : Nat := 0x40003028
abbrev STK_IRQ : Nat := 0x4000302C
abbrev STK_IRQEN : Nat := 0x40003030
abbrev AGR_DEMAND : Nat := 0x40004000
abbrev AGR_DSTAT : Nat := 0x40004004
abbrev AGR_CNUM : Nat := 0x40004008
abbrev AGR_DSTAMP : Nat := 0x4000400C
abbrev AGR_C_FB : Nat := 0x40004010
abbrev AGR_C_SIN : Nat := 0x40004014
abbrev AGR_C_MDI : Nat := 0x40004018
abbrev AGR_C_FLAGS : Nat := 0x4000401C
abbrev AGR_C_CCAL : Nat := 0x40004020
abbrev AGR_C_CCAH : Nat := 0x40004024
abbrev AGR_C_HVS0 : Nat := 0x40004028
abbrev AGR_C_HVS1 : Nat := 0x4000402C
abbrev AGR_C_HVS2 : Nat := 0x40004030
abbrev AGR_C_TMP (n : Nat) : Nat := 0x40004034 + 4 * n
abbrev AGR_C_DIE : Nat := 0x40004044
abbrev AGR_D_BANK (n : Nat) : Nat := 0x40004110 + 4 * n
abbrev COX_CTRL : Nat := 0x40005000
abbrev COX_STATUS : Nat := 0x40005004
abbrev COX_PERMIT : Nat := 0x40005008
abbrev COX_MMGRP : Nat := 0x4000500C
abbrev COX_MMPC : Nat := 0x40005010
abbrev COX_MMSTROKE : Nat := 0x40005014
abbrev COX_MMINFO : Nat := 0x40005018
abbrev COX_INJ : Nat := 0x4000501C
abbrev COX_STEST : Nat := 0x40005020
abbrev COX_ECC_ITCM : Nat := 0x40005024
abbrev COX_ECC_DTCM : Nat := 0x40005028
abbrev COX_ECC_OTHER : Nat := 0x4000502C
abbrev COX_ECCADDR : Nat := 0x40005030
abbrev COX_SCRUB : Nat := 0x40005034
abbrev COX_IRQ : Nat := 0x40005038
abbrev COX_IRQEN : Nat := 0x4000503C
abbrev COX_MMADDR : Nat := 0x40005040
abbrev DBG_STAT : Nat := 0x40020000
abbrev DBG_FAILS : Nat := 0x40020004
abbrev DBG_SESSID : Nat := 0x40020008
abbrev PART_CTRL : Nat := 0x40006000
abbrev PART_SCULLST : Nat := 0x40006004
abbrev PART_EVSET : Nat := 0x40006008
abbrev PART_RADDR : Nat := 0x4000600C
abbrev PART_RSTAT : Nat := 0x40006010
abbrev PART_ECC : Nat := 0x40006014
abbrev PART_IRQ : Nat := 0x40006018
abbrev PART_IRQEN : Nat := 0x4000601C
abbrev PART_SLOTA (n : Nat) : Nat := 0x40006100 + 8 * n
abbrev PART_SLOTB (n : Nat) : Nat := 0x40006104 + 8 * n
abbrev PART_STATE (n : Nat) : Nat := 0x40006800 + 256 * n
abbrev PART_QBASE (n : Nat) : Nat := 0x40006804 + 256 * n
abbrev PART_QSIZE (n : Nat) : Nat := 0x40006808 + 256 * n
abbrev PART_EVP (n : Nat) : Nat := 0x4000680C + 256 * n
abbrev PART_DBSTAMP (n : Nat) : Nat := 0x40006810 + 256 * n
abbrev PART_DBSTAT (n : Nat) : Nat := 0x40006814 + 256 * n
abbrev PART_GR_ARX0 (n : Nat) : Nat := 0x40006820 + 256 * n
abbrev PART_GR_ARX1 (n : Nat) : Nat := 0x40006824 + 256 * n
abbrev PART_GR_ATX (n : Nat) : Nat := 0x40006828 + 256 * n
abbrev PART_GR_CRX0 (n : Nat) : Nat := 0x4000682C + 256 * n
abbrev PART_GR_CRX1 (n : Nat) : Nat := 0x40006830 + 256 * n
abbrev PART_GR_CTX (n : Nat) : Nat := 0x40006834 + 256 * n
abbrev PART_GR_GPIO (n : Nat) : Nat := 0x40006838 + 256 * n
abbrev PART_GR_MISC (n : Nat) : Nat := 0x4000683C + 256 * n
abbrev PART_XIPBASE (n : Nat) : Nat := 0x40006840 + 256 * n
abbrev PART_XIPSIZE (n : Nat) : Nat := 0x40006844 + 256 * n
abbrev RST_CAUSE : Nat := 0x40001000
abbrev RST_LAST : Nat := 0x40001004
abbrev RST_COUNT : Nat := 0x40001008
abbrev RST_SOFT : Nat := 0x4000100C
abbrev RST_WIPE : Nat := 0x40001010
abbrev RST_STALL : Nat := 0x40001014
abbrev RST_BOOT : Nat := 0x40001018
abbrev RST_RETAIN (n : Nat) : Nat := 0x4000101C + 4 * n
abbrev LCS_STATE : Nat := 0x40002000
abbrev LCS_FUSES : Nat := 0x40002004
abbrev LCS_REQ : Nat := 0x40002008
abbrev LCS_WIPESET : Nat := 0x4000200C
abbrev LCS_TCOUNT : Nat := 0x40002010
abbrev LCS_STAT : Nat := 0x40002014
abbrev CLK_CTRL : Nat := 0x4001E000
abbrev CLK_STAT : Nat := 0x4001E004
abbrev CLK_FREQ : Nat := 0x4001E008
abbrev CLK_X32TRIM : Nat := 0x4001E00C
abbrev KPA_CTRL : Nat := 0x40007000
abbrev KPA_STAT : Nat := 0x40007004
abbrev KPA_KINCFG : Nat := 0x40007008
abbrev KPA_MPPT : Nat := 0x4000700C
abbrev KPA_MPPTC : Nat := 0x40007010
abbrev KPA_MEAS0 : Nat := 0x40007014
abbrev KPA_MEAS1 : Nat := 0x40007018
abbrev KPA_MEAS2 : Nat := 0x4000701C
abbrev KPA_MEAS3 : Nat := 0x40007020
abbrev KPA_CHG0 : Nat := 0x40007024
abbrev KPA_CHG1 : Nat := 0x40007028
abbrev KPA_CHG2 : Nat := 0x4000702C
abbrev KPA_NIMH : Nat := 0x40007030
abbrev KPA_ZONE0 : Nat := 0x40007034
abbrev KPA_ZONE1 : Nat := 0x40007038
abbrev KPA_CHGST : Nat := 0x4000703C
abbrev KPA_KIDCFG : Nat := 0x40007040
abbrev KPA_SHIP : Nat := 0x40007044
abbrev KPA_AUXCFG : Nat := 0x40007048
abbrev KPA_AUXSCL : Nat := 0x4000704C
abbrev KPA_AUXST : Nat := 0x40007050
abbrev KPA_IRQ : Nat := 0x40007054
abbrev KPA_IRQEN : Nat := 0x40007058
abbrev KPA_BSCFG : Nat := 0x4000705C
abbrev CCA_CTRL : Nat := 0x40008000
abbrev CCA_STAT : Nat := 0x40008004
abbrev CCA_ACCL : Nat := 0x40008008
abbrev CCA_ACCH : Nat := 0x4000800C
abbrev CCA_SAMPLE : Nat := 0x40008010
abbrev CCA_GAIN : Nat := 0x40008014
abbrev CCA_OFS : Nat := 0x40008018
abbrev CCA_WAKE : Nat := 0x4000801C
abbrev CCA_IRQ : Nat := 0x40008020
abbrev CCA_IRQEN : Nat := 0x40008024
abbrev FCS_CTRL : Nat := 0x40009000
abbrev FCS_OCS : Nat := 0x40009004
abbrev FCS_BKI : Nat := 0x40009008
abbrev FCS_FLAGS : Nat := 0x4000900C
abbrev FCS_OCSTIME : Nat := 0x40009010
abbrev FCS_SAMPLE : Nat := 0x40009014
abbrev FCS_SMINMAX : Nat := 0x40009018
abbrev FCS_SMEAN : Nat := 0x4000901C
abbrev FCS_CAP : Nat := 0x40009020
abbrev FCS_CAPDATA : Nat := 0x40009024
abbrev FCS_TEST : Nat := 0x40009028
abbrev FCS_TRIM : Nat := 0x4000902C
abbrev FCS_IRQ : Nat := 0x40009030
abbrev FCS_IRQEN : Nat := 0x40009034
abbrev HVS_CTRL : Nat := 0x4000A000
abbrev HVS_CH (n : Nat) : Nat := 0x4000A004 + 4 * n
abbrev HVS_TRIM (n : Nat) : Nat := 0x4000A01C + 4 * n
abbrev HVS_STAT : Nat := 0x4000A034
abbrev HVS_IRQ : Nat := 0x4000A038
abbrev HVS_IRQEN : Nat := 0x4000A03C
abbrev TMP_CTRL : Nat := 0x4001F000
abbrev TMP_LT (n : Nat) : Nat := 0x4001F004 + 4 * n
abbrev TMP_DIE : Nat := 0x4001F024
abbrev TMP_REFTRIM : Nat := 0x4001F028
abbrev TMP_IRQ : Nat := 0x4001F02C
abbrev TMP_IRQEN : Nat := 0x4001F030
abbrev CHN_CTRL : Nat := 0x4000B000
abbrev CHN_RING : Nat := 0x4000B004
abbrev CHN_SEATS : Nat := 0x4000B008
abbrev CHN_COUNTDN : Nat := 0x4000B00C
abbrev CHN_RINGLAT : Nat := 0x4000B010
abbrev CHN_TMO : Nat := 0x4000B014
abbrev CHN_RETRY : Nat := 0x4000B018
abbrev CHN_SUBMIT : Nat := 0x4000B01C
abbrev CHN_QSTAT : Nat := 0x4000B020
abbrev CHN_DONE : Nat := 0x4000B024
abbrev CHN_CNTCRC : Nat := 0x4000B028
abbrev CHN_CNTTMO : Nat := 0x4000B02C
abbrev CHN_CNTRETRY : Nat := 0x4000B030
abbrev CHN_CNTLATE : Nat := 0x4000B034
abbrev CHN_PRES (n : Nat) : Nat := 0x4000B040 + 4 * n
abbrev CHN_LOST (n : Nat) : Nat := 0x4000B050 + 4 * n
abbrev CHN_IRQ : Nat := 0x4000B060
abbrev CHN_IRQEN : Nat := 0x4000B064
abbrev TXT_CTRL : Nat := 0x4000E000
abbrev TXT_LIFE : Nat := 0x4000E004
abbrev TXT_STAT : Nat := 0x4000E008
abbrev TXT_EXPIRED : Nat := 0x4000E00C
abbrev TXT_LASTEXP : Nat := 0x4000E010
abbrev TXT_LATE : Nat := 0x4000E014
abbrev TXT_BADSUB : Nat := 0x4000E018
abbrev TXT_IRQ : Nat := 0x4000E01C
abbrev TXT_IRQEN : Nat := 0x4000E020
abbrev RAD_CTRL : Nat := 0x4000C000
abbrev RAD_STAT : Nat := 0x4000C004
abbrev RAD_HOPCTRL : Nat := 0x4000C008
abbrev RAD_HOPSET (n : Nat) : Nat := 0x4000C00C + 4 * n
abbrev RAD_NEWSET (n : Nat) : Nat := 0x4000C01C + 4 * n
abbrev RAD_MAPLO : Nat := 0x4000C02C
abbrev RAD_MAPHI : Nat := 0x4000C030
abbrev RAD_ACCESS : Nat := 0x4000C034
abbrev RAD_SESSION : Nat := 0x4000C038
abbrev RAD_SUBMIT : Nat := 0x4000C03C
abbrev RAD_DONE : Nat := 0x4000C040
abbrev RAD_CALCTRL : Nat := 0x4000C044
abbrev RAD_CALSTAT : Nat := 0x4000C048
abbrev RAD_CNTCRC : Nat := 0x4000C04C
abbrev RAD_CNTMIC : Nat := 0x4000C050
abbrev RAD_CNTTMO : Nat := 0x4000C054
abbrev RAD_CNTFORFEIT : Nat := 0x4000C058
abbrev RAD_CNTUNPAIRED : Nat := 0x4000C05C
abbrev RAD_JOINSTAT : Nat := 0x4000C060
abbrev RAD_JOINRD : Nat := 0x4000C064
abbrev RAD_GRANT : Nat := 0x4000C068
abbrev RAD_IRQ : Nat := 0x4000C06C
abbrev RAD_IRQEN : Nat := 0x4000C070
abbrev RAD_CHSTAT (n : Nat) : Nat := 0x4000C100 + 4 * n
abbrev TWN_CTRL : Nat := 0x4000D000
abbrev TWN_STAT : Nat := 0x4000D004
abbrev TWN_CNTAGR : Nat := 0x4000D008
abbrev TWN_CNTCHN : Nat := 0x4000D00C
abbrev TWN_CNTRAD : Nat := 0x4000D010
abbrev TWN_CNTDIS : Nat := 0x4000D014
abbrev TWN_CNTMIS : Nat := 0x4000D018
abbrev TWN_LASTDIS : Nat := 0x4000D01C
abbrev TWN_LASTDTAG : Nat := 0x4000D020
abbrev TWN_IRQ : Nat := 0x4000D024
abbrev TWN_IRQEN : Nat := 0x4000D028
abbrev CTR_CTRL : Nat := 0x4000F000
abbrev CTR_OUT : Nat := 0x4000F004
abbrev CTR_STAT : Nat := 0x4000F008
abbrev CTR_PHASE : Nat := 0x4000F00C
abbrev CTR_FAULT : Nat := 0x4000F010
abbrev CTR_BKI : Nat := 0x4000F014
abbrev CTR_IRQ : Nat := 0x4000F018
abbrev CTR_IRQEN : Nat := 0x4000F01C
abbrev CTR_CFG (n : Nat) : Nat := 0x4000F040 + 4 * n
abbrev CTR_IMEAS (n : Nat) : Nat := 0x4000F080 + 4 * n
abbrev PUMP_CTRL : Nat := 0x40010000
abbrev PUMP_STAT : Nat := 0x40010004
abbrev PUMP_VGS : Nat := 0x40010008
abbrev PUMP_UNFED : Nat := 0x4001000C
abbrev PUMP_IRQ : Nat := 0x40010010
abbrev PUMP_IRQEN : Nat := 0x40010014
abbrev MDI_CTRL : Nat := 0x40011000
abbrev MDI_STAT : Nat := 0x40011004
abbrev MDI_CFG : Nat := 0x40011008
abbrev MDI_IMEAS : Nat := 0x4001100C
abbrev MDI_FAULT : Nat := 0x40011010
abbrev MDI_IRQ : Nat := 0x40011014
abbrev MDI_IRQEN : Nat := 0x40011018
abbrev SIN_CTRL : Nat := 0x40012000
abbrev SIN_TPSTAT : Nat := 0x40012004
abbrev SIN_STAT : Nat := 0x40012008
abbrev SIN_RAW : Nat := 0x4001200C
abbrev SIN_CFG (n : Nat) : Nat := 0x40012010 + 4 * n
abbrev SIN_IRQ : Nat := 0x40012030
abbrev SIN_IRQEN : Nat := 0x40012034
abbrev IMD_CTRL : Nat := 0x40013000
abbrev IMD_STAT : Nat := 0x40013004
abbrev IMD_CODE : Nat := 0x40013008
abbrev IMD_MEAN : Nat := 0x4001300C
abbrev IMD_RP : Nat := 0x40013010
abbrev IMD_RN : Nat := 0x40013014
abbrev IMD_RKIN : Nat := 0x40013018
abbrev IMD_RNTOT : Nat := 0x4001301C
abbrev IMD_FLAGS : Nat := 0x40013020
abbrev IMD_IRQ : Nat := 0x40013024
abbrev IMD_IRQEN : Nat := 0x40013028
abbrev CAN_CTRL (x : Nat) : Nat := 0x40014000 + 0x1000 * x
abbrev CAN_NBT (x : Nat) : Nat := 0x40014004 + 0x1000 * x
abbrev CAN_DBT (x : Nat) : Nat := 0x40014008 + 0x1000 * x
abbrev CAN_TDC (x : Nat) : Nat := 0x4001400C + 0x1000 * x
abbrev CAN_STAT (x : Nat) : Nat := 0x40014010 + 0x1000 * x
abbrev CAN_ECR (x : Nat) : Nat := 0x40014014 + 0x1000 * x
abbrev CAN_CEL (x : Nat) : Nat := 0x40014018 + 0x1000 * x
abbrev CAN_MTX (x : Nat) : Nat := 0x4001401C + 0x1000 * x
abbrev CAN_REFID (x : Nat) : Nat := 0x40014020 + 0x1000 * x
abbrev CAN_SOFREF (x : Nat) : Nat := 0x40014024 + 0x1000 * x
abbrev CAN_REFDLY (x : Nat) : Nat := 0x40014028 + 0x1000 * x
abbrev CAN_COL (x n : Nat) : Nat := 0x40014040 + 0x1000 * x + 4 * n
abbrev CAN_RXNEW0 (x : Nat) : Nat := 0x40014080 + 0x1000 * x
abbrev CAN_RXNEW1 (x : Nat) : Nat := 0x40014084 + 0x1000 * x
abbrev CAN_RXLOST0 (x : Nat) : Nat := 0x40014088 + 0x1000 * x
abbrev CAN_RXLOST1 (x : Nat) : Nat := 0x4001408C + 0x1000 * x
abbrev CAN_RXEN0 (x : Nat) : Nat := 0x40014090 + 0x1000 * x
abbrev CAN_RXEN1 (x : Nat) : Nat := 0x40014094 + 0x1000 * x
abbrev CAN_TXPEND (x : Nat) : Nat := 0x40014098 + 0x1000 * x
abbrev CAN_TXREQ (x : Nat) : Nat := 0x4001409C + 0x1000 * x
abbrev CAN_TXABORT (x : Nat) : Nat := 0x400140A0 + 0x1000 * x
abbrev CAN_TXDONE (x : Nat) : Nat := 0x400140A4 + 0x1000 * x
abbrev CAN_FIFOST (x : Nat) : Nat := 0x400140A8 + 0x1000 * x
abbrev CAN_FIFODROP (x : Nat) : Nat := 0x400140AC + 0x1000 * x
abbrev CAN_FIFOCTRL (x : Nat) : Nat := 0x400140B0 + 0x1000 * x
abbrev CAN_IRQ (x : Nat) : Nat := 0x400140B4 + 0x1000 * x
abbrev CAN_IRQEN (x : Nat) : Nat := 0x400140B8 + 0x1000 * x
abbrev CAN_WSEL (x : Nat) : Nat := 0x400140C0 + 0x1000 * x
abbrev CAN_WCOMMIT (x : Nat) : Nat := 0x400140C4 + 0x1000 * x
abbrev CAN_WBUF (x n : Nat) : Nat := 0x40014100 + 0x1000 * x + 4 * n
abbrev CAN_TXST (x n : Nat) : Nat := 0x40014200 + 0x1000 * x + 4 * n
abbrev CAN_CELL (x n : Nat) : Nat := 0x40014400 + 0x1000 * x + 4 * n
abbrev CON_CTRL (x : Nat) : Nat := 0x40017000 + 0x1000 * x
abbrev CON_BAUD (x : Nat) : Nat := 0x40017004 + 0x1000 * x
abbrev CON_STAT (x : Nat) : Nat := 0x40017008 + 0x1000 * x
abbrev CON_RXDATA (x : Nat) : Nat := 0x4001700C + 0x1000 * x
abbrev CON_TXDATA (x : Nat) : Nat := 0x40017010 + 0x1000 * x
abbrev CON_FIFO (x : Nat) : Nat := 0x40017014 + 0x1000 * x
abbrev CON_ABMEAS (x : Nat) : Nat := 0x40017018 + 0x1000 * x
abbrev CON_RXTO (x : Nat) : Nat := 0x4001701C + 0x1000 * x
abbrev CON_IRQ (x : Nat) : Nat := 0x40017020 + 0x1000 * x
abbrev CON_IRQEN (x : Nat) : Nat := 0x40017024 + 0x1000 * x
abbrev LOG_CTRL : Nat := 0x40019000
abbrev LOG_PEND : Nat := 0x40019004
abbrev LOG_PENDDROP : Nat := 0x40019008
abbrev LOG_IRQ : Nat := 0x4001900C
abbrev LOG_IRQEN : Nat := 0x40019010
abbrev LOG_SUBCODE : Nat := 0x40019020
abbrev LOG_SUBARG0 : Nat := 0x40019024
abbrev LOG_SUBARG1 : Nat := 0x40019028
abbrev LOG_SUBARGX : Nat := 0x4001902C
abbrev LOG_SUBTIMEL : Nat := 0x40019030
abbrev LOG_SUBTIMEH : Nat := 0x40019034
abbrev LOG_SUBGO : Nat := 0x40019038
abbrev LOG_SUBSTAT : Nat := 0x4001903C
abbrev LOG_CURSOR : Nat := 0x40019040
abbrev LOG_CURSEQ : Nat := 0x40019044
abbrev LOG_WSTAT : Nat := 0x40019048
abbrev LOG_WIN (n : Nat) : Nat := 0x40019060 + 4 * n
abbrev LOG_RELEASE : Nat := 0x40019080
abbrev LOG_RELUPTO : Nat := 0x40019084
abbrev LOG_BFIRST (n : Nat) : Nat := 0x40019100 + 16 * n
abbrev LOG_BNEXT (n : Nat) : Nat := 0x40019104 + 16 * n
abbrev LOG_BOVF (n : Nat) : Nat := 0x40019108 + 16 * n
abbrev LOG_BSUPP (n : Nat) : Nat := 0x4001910C + 16 * n
abbrev EFC_CTRL : Nat := 0x4001A000
abbrev EFC_STAT : Nat := 0x4001A004
abbrev EFC_ADDR : Nat := 0x4001A008
abbrev EFC_WDATA0 : Nat := 0x4001A00C
abbrev EFC_WDATA1 : Nat := 0x4001A010
abbrev EFC_CMD : Nat := 0x4001A014
abbrev EFC_RDATA0 : Nat := 0x4001A018
abbrev EFC_RDATA1 : Nat := 0x4001A01C
abbrev EFC_RCLASS : Nat := 0x4001A020
abbrev EFC_OPCNT : Nat := 0x4001A024
abbrev EFC_IRQ : Nat := 0x4001A028
abbrev EFC_IRQEN : Nat := 0x4001A02C
abbrev TAG_CTRL : Nat := 0x4001B000
abbrev TAG_STAT : Nat := 0x4001B004
abbrev TAG_MBSEM : Nat := 0x4001B008
abbrev TAG_CONFSTAMP : Nat := 0x4001B00C
abbrev TAG_WIPE : Nat := 0x4001B010
abbrev TAG_LASTW : Nat := 0x4001B014
abbrev TAG_FWCNT : Nat := 0x4001B018
abbrev TAG_IRQ : Nat := 0x4001B01C
abbrev TAG_IRQEN : Nat := 0x4001B020
abbrev QP_CTRL : Nat := 0x4001C000
abbrev QP_XIPCLK : Nat := 0x4001C004
abbrev QP_STAT : Nat := 0x4001C008
abbrev QP_FILLCNT : Nat := 0x4001C00C
abbrev QP_TAGFAIL : Nat := 0x4001C010
abbrev QP_TAGADDR : Nat := 0x4001C014
abbrev QP_IRQ : Nat := 0x4001C018
abbrev QP_IRQEN : Nat := 0x4001C01C
abbrev QP_WIN_BASE (n : Nat) : Nat := 0x4001C040 + 16 * n
abbrev QP_WIN_SIZE (n : Nat) : Nat := 0x4001C044 + 16 * n
abbrev QP_WIN_VER (n : Nat) : Nat := 0x4001C048 + 16 * n
abbrev QP_WIN_EN (n : Nat) : Nat := 0x4001C04C + 16 * n
abbrev QP_Q_CFG (n : Nat) : Nat := 0x4001C100 + 64 * n
abbrev QP_Q_ENTCTL (n : Nat) : Nat := 0x4001C104 + 64 * n
abbrev QP_Q_ENTDATA (n : Nat) : Nat := 0x4001C108 + 64 * n
abbrev QP_Q_PUSH (n : Nat) : Nat := 0x4001C10C + 64 * n
abbrev QP_Q_STAT (n : Nat) : Nat := 0x4001C110 + 64 * n
abbrev QP_Q_RXDATA (n : Nat) : Nat := 0x4001C114 + 64 * n
abbrev QP_Q_DONECNT (n : Nat) : Nat := 0x4001C118 + 64 * n
abbrev QP_SLVST : Nat := 0x4001C1E0
abbrev QP_SLVRX : Nat := 0x4001C1E4
abbrev GPIO_DIR : Nat := 0x4001D000
abbrev GPIO_OUT : Nat := 0x4001D004
abbrev GPIO_SET : Nat := 0x4001D008
abbrev GPIO_CLR : Nat := 0x4001D00C
abbrev GPIO_IN : Nat := 0x4001D010
abbrev GPIO_RISE : Nat := 0x4001D014
abbrev GPIO_FALL : Nat := 0x4001D018
abbrev GPIO_EDGE : Nat := 0x4001D01C
abbrev GPIO_SAFE : Nat := 0x4001D020
abbrev GPIO_SAFEDIR : Nat := 0x4001D024
abbrev SEC_CTRL : Nat := 0x40021000
abbrev SEC_STAT : Nat := 0x40021004
abbrev SEC_RAND : Nat := 0x40021008
abbrev SEC_KHVALID : Nat := 0x4002100C
abbrev SEC_AUTH : Nat := 0x40021010
abbrev SEC_CHALID : Nat := 0x40021014
abbrev SEC_NONCE (n : Nat) : Nat := 0x40021020 + 4 * n
abbrev SEC_OP : Nat := 0x40021100
abbrev SEC_SRC : Nat := 0x40021104
abbrev SEC_DST : Nat := 0x40021108
abbrev SEC_LEN : Nat := 0x4002110C
abbrev SEC_GO : Nat := 0x40021110
abbrev SEC_KEYLOAD : Nat := 0x40021114
abbrev SEC_IRQ : Nat := 0x40021118
abbrev SEC_IRQEN : Nat := 0x4002111C

end Reg

end Sys2Proof.Machine
end

