-- ==== Sys2Proof/Machine/State.lean ====
section
/-!
DEFINITION. The state of the RN6400, as plain data, and the state right after the first power-on reset is released.
Every register of the register maps lives in `regs` under its address; the rest of the state the manual describes lives in typed records, one per block.
-/

namespace Sys2Proof.Machine

/-- Why a step stops with a fault. -/
inductive Fault where
  /-- Raised by no meaning of this model: the manual names no command that stops the part. Safe. -/
  | none
  deriving DecidableEq, Repr

/-- Why a command is refused. -/
inductive Refusal where
  /-- A command whose meaning is not written yet, by its mnemonic (raised by Dispatch alone). Safe. -/
  | notModelled (mnemonic : String)
  deriving DecidableEq, Repr

/-- What the part is doing as a whole (R109, R113, R116, R118, R122, R149, R284). -/
inductive Phase where
  | porHeld | shipMode | held | wiping | bootRom | clockFault | stestFault (n : Nat) | imageFault (n : Nat) | camlan | hibernating
  deriving DecidableEq, Repr

/-- Camlan's stroke state (Table 2-5, STATE of Table 4-4); `idle` before the stroke timer starts. -/
inductive CamState where
  | idle | stake | run | crab1 | easy
  deriving DecidableEq, Repr

/-- Where an order came from, for its reply (R52). -/
inductive Origin where
  | camlan | sin (n : Nat) | console (port : Nat) (tag : Option String) | crew (idx : Nat) | mailbox (k idx : Nat)
  deriving DecidableEq, Repr

/-- An order in an order set (R42, R43, Tables 2-2 and 4-6). -/
structure Order where
  source : Nat
  rank : Nat
  kind : Nat
  target : Nat
  value : Int
  ref : Nat
  stamp : Nat
  stroke : Nat
  /-- stamped in the stake-boat interval (R51) -/
  inStake : Bool
  origin : Origin
  deriving DecidableEq, Repr

/-- The helm (R48): the holder's source code, 0xFF when free, its rank, the stamp of the TAKE_HELM that took it (0 without an order), and the stroke since which it is held. -/
structure Helm where
  holder : Nat
  rank : Nat
  stamp : Nat
  since : Nat
  deriving DecidableEq, Repr

/-- One outcome of a resolution (Table 2-3): the order, the outcome code, the winner's source (0xFF none) and stamp, and the kind the order has by R42. -/
structure Outcome where
  order : Order
  code : Nat
  winner : Nat
  wstamp : Nat
  /-- the kind that R42 gives the order -/
  kind : Nat
  deriving DecidableEq, Repr

/-- The stroke timer and the agreement unit beyond their registers (02). -/
structure StrokeSt where
  /-- the first catch has happened -/
  started : Bool
  /-- microseconds of the time base at the last catch, modulo 2^48 -/
  base : Nat
  /-- trim carried by the present stroke [us] -/
  trimNow : Int
  /-- a finish was written since the last catch -/
  finWritten : Bool
  /-- the crab of the present stroke was already counted -/
  crabbed : Bool
  /-- the last stroke ended in a crab -/
  prevCrab : Bool
  /-- the stroke timer passed a finish permit for the present stroke's successor (R31) -/
  permit : Bool
  /-- the pump feed granted for the present stroke (R72) -/
  feed : Bool
  hrestart : Bool
  /-- mask of the demand in progress -/
  demand : Nat
  /-- interrupt lines as presented to both cores (R40) -/
  lines : Nat
  /-- the slot banks exchange at the next catch that begins a watch (R86) -/
  swapReq : Bool
  /-- time of the first finish of this stroke [us after catch] -/
  finUs : Option Nat
  deriving DecidableEq, Repr

/-- Since when the conditions of R139 have stood [us of the clock]: no KIN shortfall, the charger's draw, KIN near its open-circuit voltage. -/
structure BlackSt where
  noShort : Option Nat
  draw : Option Nat
  volt : Option Nat
  deriving DecidableEq, Repr

/-- Camlan's own state (02, 05). -/
structure CamSt where
  state : CamState
  /-- causes of easy logged since entry, the cause of entry first (R416) -/
  easyCauses : List Nat
  /-- orders of the present set, in order of arrival; sets merged by a crab stay here (R53) -/
  orders : List Order
  /-- standing values by limit target code [mA] (R42) -/
  standing : List (Nat × Int)
  helm : Helm
  /-- the port whose first login after the interval receives the default helm (R50) -/
  helmPort : Option Nat
  /-- time since which every contactor is open and no crab happened [us] (R55) -/
  quietSince : Option Nat
  /-- times of automatic clearings [us] -/
  autoclears : List Nat
  /-- `stop` was received in the interval (R130) -/
  stopped : Bool
  /-- a self-test of the interval failed (R129): its easy cause -/
  selfTest : List Nat
  /-- causes from the reset (R64, Table 5-4) -/
  resetEasy : List Nat
  /-- cell view generation (R14) -/
  gen : Nat
  /-- outcomes of the last resolution -/
  outcomes : List Outcome
  /-- replies of the last resolution, waiting for the finish (R44, R334) -/
  waiting : List Outcome
  /-- HRESTART was written for this enumeration (R35) -/
  enumDone : Bool
  /-- corrected errors in this watch (R67) -/
  corrected : Nat
  /-- stroke at whose catch the second watch after the interval begins (R35) -/
  enumLimit : Nat
  /-- time of the last command at SERVICE level, or of Camlan's start [us]; the return to SEALED is due but blocked; that was logged in this watch (R410) -/
  svcAt : Nat
  svcBlocked : Bool
  svcLogged : Bool
  /-- what Camlan has noted of a black start (R139) -/
  black : BlackSt
  deriving DecidableEq, Repr

/-- Power and reset (05). -/
structure PowerSt where
  phase : Phase
  /-- the boot timer runs (R114) -/
  bootTimer : Bool
  /-- a fault that will reset the part 10 us later: its cause (R62, R66) -/
  faultReset : Option Nat
  /-- cause of the reset being held -/
  cause : Nat
  /-- the start test (R69): groups that passed, and the group injected and not yet cleared -/
  injDone : Nat
  injNow : Option Nat
  /-- the shore record: time of the last write [us], a change held back -/
  shoreAt : Option Nat
  shoreHeld : Bool
  /-- contactor feedback and isolator state in the last shore record -/
  shoreFb : Nat
  shoreMdi : Nat
  /-- times of the records other than periodic ones, how many wait to be folded into the next periodic one, and when that was logged (R376) -/
  shoreTimes : List Nat
  shoreFold : Nat
  foldLogged : Option Nat
  /-- what ended hibernation, until Camlan logs it (R285): 1 current, 2 CAN, 3 console, 4 button -/
  wakeSrc : Nat
  /-- what woke through CAN: controllers 0 to 2, 3 the ball CAN_WAKE (R303) -/
  wakeBall : Nat
  /-- length of the hibernation [s] (R411) -/
  sleptS : Nat
  deriving DecidableEq, Repr

/-- A record waiting for its book (R344, R350). -/
structure LogRec where
  book : Nat
  code : Nat
  source : Nat
  sevfl : Nat
  time : Nat
  stroke : Nat
  /-- ARG and ARGX, 12 bytes -/
  arg : List Byte
  deriving DecidableEq, Repr

/-- A token bucket (R351). -/
structure Bucket where
  tokens : Nat
  supp : Nat
  deriving DecidableEq, Repr

/-- The logbook beyond its registers and its SRAM (15). -/
structure LogSt where
  pend : List LogRec
  /-- buckets by book * 65536 + code -/
  buckets : List (Nat × Bucket)
  /-- records lost to FULL since the last report, by book (R352) -/
  lost : List (Nat × Nat)
  /-- CRITICAL records to resubmit (R353) -/
  kept : List LogRec
  /-- first records of units whose continuation is awaited, by requester (CONT of SUBTIMEH) -/
  units : List (Nat × LogRec)
  deriving DecidableEq, Repr

/-- A session level (Table 14-2). -/
inductive Level where
  | view | tenant (k : Nat) | installer | service
  deriving DecidableEq, Repr

/-- One line sent by a console: the tag of a machine reply, whether lines of the same reply follow, and the body (R325, R326); `note` marks a notice (R327), `bare` text without a line end: a prompt or an echo (R321, R325). -/
structure OutLine where
  tag : Option String
  more : Bool
  note : Bool
  bare : Bool
  body : String
  deriving DecidableEq, Repr

/-- A console port beyond its registers (14). -/
structure ConSt where
  rx : List Byte
  tx : List Byte
  /-- the line being received -/
  line : List Byte
  tooLong : Bool
  lastCr : Bool
  fe : Nat
  level : Level
  /-- time of the last received line [us] (R330) -/
  lastLine : Nat
  /-- the last line was a machine line: notices take the machine form (DEDUCED, log entry 50) -/
  machine : Bool
  /-- lines accepted and waiting for execution, by their tag, none for the typed form -/
  ready : List (Option String)
  /-- tags of machine commands not yet answered (R324) -/
  tags : List String
  /-- typed lines not yet answered -/
  typed : Nat
  /-- the output buffer: lines, and the bytes of the line that is moving into the transmit FIFO -/
  out : List OutLine
  sending : List Byte
  /-- notices held back while a typed line is partly received (R327) -/
  withheld : List String
  dropped : Nat
  /-- an outstanding SERVICE challenge: its number (R332) -/
  challenge : Option Nat
  /-- the nonce of that challenge (R407) -/
  nonce : List Byte
  /-- when that challenge was given [us of the always-on clock] -/
  challengeAt : Nat
  /-- the session stood above VIEW when the last reset came; Camlan's next start logs it (R330) -/
  wasUp : Bool
  /-- the challenge was verified and the port holds a SERVICE authentication (R125) -/
  authed : Bool
  /-- the port adopted a rate since reset; a measurement of the next CR is armed (R319) -/
  adopted : Bool
  abArm : Bool
  /-- line errors of the watch: framing, overrun, CRC (0x0E08) -/
  errFrame : Nat
  errOver : Nat
  errCrc : Nat
  deriving DecidableEq, Repr

/-- A context of a partition on a Scull: what monitor calls return in a0 to a3 (R82), and whether the context waits (WAIT) and is in its handler. -/
structure Ctx where
  a0 : Int
  a1 : Nat
  a2 : Nat
  a3 : Nat
  wait : Option Nat
  inHandler : Bool
  /-- a0 to a3 and the wait of the context the handler interrupted, restored by EVRET (R83) -/
  saved : Int
  saved1 : Nat
  saved2 : Nat
  saved3 : Nat
  savedWait : Option Nat
  deriving DecidableEq, Repr

/-- A partition beyond its page of registers (04). -/
structure PartSt where
  handler : Nat
  hmask : Nat
  /-- events masked until EVRET (R83) -/
  masked : Bool
  version : Nat
  verified : Bool
  /-- times of automatic resumes [us] (R106) -/
  resumes : List Nat
  /-- doorbell rung in the present set: stamp (R98) -/
  bell : Option Nat
  /-- entry offsets and initial stacks by Scull, and the Sculls with a context, of the verified image (Table 4-8) -/
  entry : List Nat
  stack : List Nat
  ctxMask : Nat
  /-- the image's initialised data and its quota offset (R87) -/
  data : List Byte
  dataDst : Nat
  /-- the grants in force since the last slot start, in the order of the page's registers (R90) -/
  grants : List (Nat × Nat)
  /-- the tag area as Camlan programmed it when it sealed the window: header, then tags (R389, R391) -/
  sealed : List Byte
  deriving DecidableEq, Repr

/-- How a PMP entry matches (R88, Table 4-3). -/
inductive PmpMode where
  | off | tor | napot
  deriving DecidableEq, Repr

/-- A PMP entry: mode, address (the base of a NAPOT region, the top of a TOR region), size of a NAPOT region, permissions. -/
structure PmpEntry where
  mode : PmpMode
  addr : Nat
  size : Nat
  r : Bool
  w : Bool
  x : Bool
  deriving DecidableEq, Repr

def PmpEntry.off (addr : Nat) : PmpEntry := ⟨.off, addr, 0, false, false, false⟩

/-- A Scull (04): the slot running, whether its partition has yielded, its PMP, its caches and `mcounteren`. -/
structure ScullSt where
  slot : Option Nat
  part : Nat
  /-- the partition's slot has ended its work (yield) -/
  yielded : Bool
  /-- start of the running slot after catch and its length [us] -/
  start : Nat
  len : Nat
  /-- the 16 PMP regions (R79, R88) -/
  pmp : List PmpEntry
  /-- lines of 32 bytes in the instruction and the data cache, the newest first (R80) -/
  icache : List Nat
  dcache : List Nat
  /-- user reads permitted: bit 0 cycle, bit 2 instret (R81) -/
  mcounteren : Nat
  deriving DecidableEq, Repr

/-- The radio keys and numbers kept with them (R210, R219, R405). -/
structure RadKeys where
  session : Nat
  netKey : List Byte
  access : Nat
  /-- seat keys: seat, key identity, key -/
  seats : List (Nat × Nat × List Byte)
  jcounts : List (Nat × Nat)
  /-- seats whose serial was changed in SERVICE and that were not paired since (R220) -/
  changed : List Nat
  deriving DecidableEq, Repr

/-- The trims that production test writes into fuses (R177): gains [1 ppm] and offsets [LSB of the trim registers], per HVS channel for `hvs`. -/
structure TrimFuses where
  ccaGain : Int
  ccaOfs : Int
  fcsGain : Int
  fcsOfs : Int
  ocsOfs : Int
  bkiOfs : Int
  hvs : List (Int × Int)
  tmpRef : Int
  deriving DecidableEq, Repr

def TrimFuses.init : TrimFuses :=
  { ccaGain := 0, ccaOfs := 0, fcsGain := 0, fcsOfs := 0, ocsOfs := 0, bkiOfs := 0, hvs := List.replicate 6 (0, 0), tmpRef := 0 }

/-- What eflash, fuses and the tag hold beside the raw words, and survives every reset (R117, R341). -/
structure NonVol where
  confirmed : List (PKey × PVal)
  staged : List (PKey × PVal)
  cfgGen : Nat
  /-- rollback floors by partition (R103) -/
  floors : List (Nat × Nat)
  /-- login codes: 0 for INSTALLER, k for partition k (R331) -/
  codes : List (Nat × Nat)
  /-- the nameplate code held in the tag (R331) -/
  nameplate : Nat
  /-- times of failed logins by port [us of the always-on clock] (R331) -/
  fails0 : List Nat
  fails1 : List Nat
  locked0 : Bool
  locked1 : Bool
  /-- wipe set and target of an unfinished transition (R126): target, wipe set -/
  pendingLcs : Option (Nat × Nat)
  /-- the two copies of the life-cycle record in eflash: its bytes and their CRC-32 (R124) -/
  lcsRec : List (List Byte × Nat)
  /-- committed tally counters by number (Table 15-6) -/
  tally : List (Nat × Nat)
  tallyActive : Nat
  tallyGen : Nat
  tallyNext : Nat
  shoreSeq : Nat
  /-- `run_s` of the last 0x1305 (R412) -/
  profileAt : Option Nat
  /-- strings whose pre-charge path is locked out (R246) -/
  preLock : List Nat
  rad : RadKeys
  trims : TrimFuses
  deriving DecidableEq, Repr

/-- The always-on domain beside its registers (R117). -/
structure AlwaysOn where
  /-- time of the 32.768 kHz time base [us] -/
  us : Nat
  /-- times of failed pre-charge attempts by string, kept with H (R246) -/
  preFails : List (Nat × List Nat)
  /-- the 32.768 kHz crystal is lost (R123) -/
  x32lost : Bool
  /-- the retained COX records hold a fault that is not acknowledged (R63) -/
  coxHeld : Bool
  deriving DecidableEq, Repr

/-- The tally sums in DTCM and the eflash controller's operation (15). -/
structure TallySt where
  /-- sums not yet committed, by counter -/
  acc : List (Nat × Nat)
  /-- increments kept after a failed write (R363) -/
  keptOps : List (Nat × Nat)
  /-- the operation in progress: 0 program, 1 erase, 2 tolerant read, and its byte offset -/
  op : Option (Nat × Nat)
  /-- the 64-bit word being programmed -/
  opData : Nat
  /-- an erase suspended by a program: its byte offset -/
  suspended : Option Nat
  /-- entries of the present stroke fail verification three times; one was wanted and failed (R363); refreshes due (R366) -/
  bad : Bool
  failed : Bool
  due : Nat
  deriving DecidableEq, Repr

/-- The debug module (03): general registers and CSRs the abstract commands reach, and the data it last returned. -/
structure DebugSt where
  gpr : List (Nat × Word)
  csr : List (Nat × Word)
  data : Nat
  /-- the challenge number of the JTAG exchange -/
  chal : Nat
  /-- the program buffer of 8 words (R74); the last command ended in an exception (R57) -/
  progbuf : List Word
  exception : Bool
  deriving DecidableEq, Repr

/-- The coulomb converter beyond its registers (07); always on. -/
structure CcaSt where
  /-- the accumulator in counts of 1 nV·s with 16 fraction bits (R154) -/
  acc : Int
  /-- settling intervals left after a chop (R158) -/
  settle : Nat
  /-- the last sample, and the last one before the chop, in sample LSB -/
  sample : Int
  held : Int
  /-- consecutive samples above the wake threshold (R160) -/
  wakeRun : Nat
  deriving DecidableEq, Repr

def CcaSt.init : CcaSt := ⟨0, 0, 0, 0, 0⟩

/-- The FCS, HVS and TMP beyond their registers, and Camlan's checks on them (07). -/
structure MeasSt where
  /-- catch snapshot of the last catch in counts, none before the first (R161) -/
  snap : Option Int
  /-- a settling interval fell in the present stroke (R168) -/
  settled : Bool
  /-- mean battery current of the ended stroke [mA] (R161) -/
  cur : Int
  /-- FCS samples of the present stroke: minimum, maximum, sum, count (R162) -/
  fMin : Int
  fMax : Int
  fSum : Int
  fCount : Nat
  /-- the newest samples, newest first, up to 1,024, and how many still follow the trigger; none while not triggered (R166) -/
  capture : List Int
  capLeft : Option Nat
  /-- the self-test runs (R167) -/
  selfTest : Bool
  /-- consecutive strokes in which CCA and FCS disagree (R168) -/
  xRun : Nat
  /-- SAT was logged in this run of watches; SAT catches in the watch (R162) -/
  satLogged : Bool
  satCount : Nat
  /-- newest HVS codes by channel, newest first (R170) -/
  hvs : List (Nat × List Nat)
  /-- channels under the 1 uA test (R172) -/
  hvsTest : Nat
  /-- suspect channels logged in this watch (R173) -/
  suspLogged : Nat
  /-- inputs invalid as last logged (R175) -/
  ltInvalid : Nat
  /-- the offsets of the OCS and BKI DACs as the boot ROM loaded them (R177) -/
  dacOfs : Int × Int
  deriving DecidableEq, Repr

def MeasSt.init : MeasSt :=
  { snap := none, settled := false, cur := 0, fMin := 0, fMax := 0, fSum := 0, fCount := 0, capture := [], capLeft := none,
    selfTest := false, xRun := 0, satLogged := false, satCount := 0, hvs := [], hvsTest := 0,
    suspLogged := 0, ltInvalid := 0, dacOfs := (0, 0) }

/-- A coil output and its contact (10). -/
structure CoilSt where
  /-- time at which the output turned off last, and whether that was ordered -/
  offAt : Option Nat
  offOrdered : Bool
  /-- the feedback at the last catch -/
  fb : Bool
  /-- a turn-off is being judged for a weld: proved by a catch, all proving catches within ctr.weld_dv (R234) -/
  weldRun : Bool
  weldProved : Bool
  weldWithin : Bool
  /-- it fell, or its ordered turn-on was cleared, without an ordered turn-off (R417) -/
  lost : Bool
  /-- found welded (R235) -/
  welded : Bool
  deriving DecidableEq, Repr

def CoilSt.init : CoilSt := ⟨none, false, false, false, false, false, false, false⟩

/-- A string (Table 10-6). -/
structure StrSt where
  /-- 1 OPEN, 2 PRECHARGING, 3 ADMITTING, 4 CLOSED, 5 WELDED, 6 LOCKED_OUT -/
  st : Nat
  /-- a closing order stands; since when it waits for the gate or admission -/
  closing : Bool
  waitSince : Option Nat
  /-- an opening is under way (R249) -/
  opening : Bool
  /-- the string is to be opened at the next decision -/
  wantOpen : Bool
  /-- pre-charge: outputs on, t0, Vpack [mV], VBUS below 10 % before the outputs turned on, the check at tau passed, the check at 3 tau passed, POS ordered -/
  attempt : Bool
  t0 : Option Nat
  vpack : Nat
  busLow : Bool
  tau1 : Bool
  tau3 : Bool
  posOrdered : Bool
  /-- the wait for the energy gate was logged (R245) -/
  gateLogged : Bool
  /-- heat of the present attempt [mJ], attempts of the closing order -/
  energy : Nat
  tries : Nat
  /-- result of the last attempt for the cell view field PRE: 3 complete, 4 failed -/
  preShow : Nat
  /-- a driver fault of a closed or closing string (R230) -/
  coilFault : Bool
  deriving DecidableEq, Repr

def StrSt.init : StrSt :=
  { st := 1, closing := false, waitSince := none, opening := false, wantOpen := false, attempt := false, t0 := none, vpack := 0,
    busLow := false, tau1 := false, tau3 := false, posOrdered := false, gateLogged := false, energy := 0, tries := 0, preShow := 0,
    coilFault := false }

/-- Contactors, strings and the stroke pump beyond their registers (10). -/
structure CtrSt where
  strs : List (Nat × StrSt)
  coils : List (Nat × CoilSt)
  /-- heat in the pre-charge resistor [mJ] (R244), V_R at the last catch [mV] -/
  heat : Rat
  vr : Nat
  /-- a PRE output was on in the ended stroke; one fell in the present stroke without order -/
  preWas : Bool
  preFell : Bool
  heatSet : Bool
  /-- deferral of held outputs: since when, expired (R240) -/
  defer : Option Nat
  deferDone : Bool
  /-- outputs held at the last catch -/
  held : Nat
  /-- the outputs on with BKIEN set for which the BKI code was written last (R239) -/
  bkiOf : List Nat
  /-- the pump has been fed without a gap since (R420) -/
  fedSince : Option Nat
  /-- the rail was reported up (RAIL_UP) -/
  railUp : Bool
  skip : Bool
  /-- pump test: 0 not run, 1 SKIP written, 2 skipped stroke running, 3 done (R237), and VGS_a [mV] -/
  test : Nat
  vgsA : Nat
  /-- clean finishes since the start of the timer -/
  clean : Nat
  /-- the OCS trip was acted on (R241) -/
  ocsSeen : Bool
  deriving DecidableEq, Repr

def CtrSt.init : CtrSt :=
  { strs := [], coils := [], heat := 0, vr := 0, preWas := false, preFell := false, heatSet := false, defer := none, deferDone := false, held := 0, bkiOf := [], fedSince := none,
    railUp := false, skip := false, test := 0, vgsA := 0, clean := 0, ocsSeen := false }

/-- The isolator (Table 11-2): 0 UNKNOWN, 1 HOMING, 2 OPEN, 3 CLOSED, 4 WAITING, 5 MOVING, 6 FAULT. -/
structure MdiSt where
  st : Nat
  /-- target of the move, waiting or running: 0 OPEN, 1 CLOSED -/
  target : Nat
  homing : Bool
  /-- the position shown while waiting -/
  posBefore : Nat
  /-- since when the move runs; since when levels and findings of the position switches stand as they do -/
  since : Nat
  lvlSince : Nat
  /-- the bridge brakes until BRAKE_END; the move that follows -/
  brake : Bool
  nextMove : Option Nat
  /-- waiting since, and whether that was logged (R257) -/
  waitSince : Option Nat
  waitLogged : Bool
  /-- the move is that of an applied order (R258) -/
  ordered : Bool
  /-- filtered levels and findings: OPEN, CLOSED, OFAULT, CFAULT -/
  lvl : Nat
  /-- the switch opposite the target became active in this move (R256) -/
  rev : Bool
  peak : Nat
  /-- GO and STOP written by MDI.CTRL: direction of GO -/
  go : Option Nat
  stop : Bool
  /-- what the bridge takes at the next catch (R12): 0 no change, 1 off, 2 brake, 3 drive toward the target -/
  cmd : Nat
  deriving DecidableEq, Repr

def MdiSt.init : MdiSt :=
  { st := 0, target := 0, homing := false, posBefore := 0, since := 0, lvlSince := 0, ordered := false, brake := false, nextMove := none,
    waitSince := none, waitLogged := false, lvl := 0, rev := false, peak := 0, go := none, stop := false, cmd := 0 }

/-- The safety inputs (11). -/
structure SinSt where
  /-- latched trips (R253, R254) -/
  latched : Nat
  /-- tripped at the last catch -/
  tripped : Nat
  /-- foreign source of a cross by input, 1 to 4 -/
  crossBy : List (Nat × Nat)
  deriving DecidableEq, Repr

def SinSt.init : SinSt := ⟨0, 0, []⟩

/-- The insulation monitor (11). Conductances in microsiemens. -/
structure ImdSt where
  /-- a period runs; its second half runs; strokes left in the half -/
  on : Bool
  second : Bool
  excl : Bool
  /-- PE means and bus voltages of the first half [mV] -/
  v1 : Nat
  u1 : Nat
  firstOk : Bool
  /-- a switch fault arose during the period -/
  faulted : Bool
  /-- the excluded period is postponed, and that was logged (R263) -/
  postponed : Bool
  /-- last valid included and excluded results -/
  gNPrev : Option Rat
  gNExcl : Option Rat
  gKin : Rat
  /-- invalid periods in a row, periods since the last valid one, periods below the alarm threshold -/
  invalid : Nat
  sinceValid : Nat
  low : Nat
  /-- an alarm's refusal of closing orders (R266) -/
  refuse : Bool
  kinLow : Bool
  /-- the stroke in which KINHOLD was set for the excluded period that falls due (R135, R263) -/
  due : Option Nat
  deriving DecidableEq, Repr

def ImdSt.init : ImdSt :=
  { on := false, second := false, excl := false, v1 := 0, u1 := 0, firstOk := false, faulted := false, postponed := false, gNPrev := none, gNExcl := none, gKin := 0, invalid := 0, sinceValid := 3, low := 0,
    refuse := false, kinLow := false, due := none }

/-- A cell's estimate (R270 to R276): SOC [percent], capacity [mAh], resistance [microohm], whether each was learned or restored, whether each was updated since the module was swapped. -/
structure CellEst where
  soc : Rat
  cap : Rat
  res : Rat
  capL : Bool
  resL : Bool
  capSwap : Bool
  resSwap : Bool
  /-- resynchronized in this run; the SOC of the last resync and the charge counted since [mAh], while counting is not interrupted -/
  resync : Bool
  r1 : Option (Rat × Rat)
  /-- this run's own counts [percent] (R279) -/
  counted : Rat
  /-- consecutive used samples above VHI, below VLO (R282) -/
  hi : Nat
  lo : Nat
  deriving DecidableEq, Repr

/-- A seat of the chain and its newest used data (08, 09, 12). -/
structure SeatSt where
  /-- enumerated in this run; LOST; heats without a valid chain response -/
  enumd : Bool
  lost : Bool
  silent : Nat
  /-- stroke of the last good chain response, and of the catch of re-admission (R195, R196) -/
  lastGood : Nat
  readmit : Option Nat
  serial : Nat
  cells : Nat
  temps : Nat
  caps : Nat
  /-- MAKER, MODEL, FWVER and HWREV of its IDENT, MODT of its newest used sample [0.01 °C] (Table 8-4) -/
  maker : Nat
  model : Nat
  fwver : Nat
  hwrev : Nat
  modT : Int
  /-- stroke whose catch the newest used data carries, none without data (R200) -/
  used : Option Nat
  cellV : List Nat
  temp : List Int
  bal : Nat
  flags : Nat
  /-- UNPROVEN (R196), proving: agreed heats still wanted (R223) -/
  unproven : Bool
  proving : Nat
  /-- last twin outcome (Table 4-5); the heat last counted and what it counts as: 1 a single path, 2 AGREED; single-path run, ONE_BLADE, run of agreed heats (R222 to R224) -/
  twin : Nat
  heatNo : Option Nat
  heatKind : Nat
  single : Nat
  oneBlade : Bool
  agreed : Nat
  disag : List Nat
  faulty : Bool
  aged : Bool
  blind : Bool
  /-- the last data came from one path -/
  onePath : Bool
  /-- a good radio response since the start (R35, R219) -/
  radioOk : Bool
  /-- the cells' estimates (12); the SOC comes from OCV at the first used sample (R280) -/
  est : List CellEst
  ocvInit : Bool
  /-- accepted capacity and resistance updates (Table 12-1) -/
  capN : Nat
  resN : Nat
  /-- cell voltages of the last five minutes (R271) -/
  vHist : List (Nat × List Nat)
  stale : Bool
  /-- the OPEN order of R226 was placed for the present blindness -/
  opened : Bool
  deriving DecidableEq, Repr

def SeatSt.init : SeatSt :=
  { enumd := false, lost := false, silent := 0, lastGood := 0, readmit := none, serial := 0, cells := 0, temps := 0, caps := 0, maker := 0, model := 0, fwver := 0, hwrev := 0, modT := 0, used := none, cellV := [], temp := [],
    bal := 0, flags := 0, unproven := false, proving := 0, twin := 4, heatNo := none, heatKind := 0, single := 0, oneBlade := false, agreed := 0, disag := [],
    faulty := false, aged := false, blind := false, onePath := false, radioOk := false, est := [], ocvInit := false,
    capN := 0, resN := 0, vHist := [], stale := false, opened := false }

/-- The keep-alive path beyond its registers (06); kept through every reset but POR (R117). -/
structure KpaSt where
  /-- the backup battery is present (R141) -/
  present : Bool
  /-- the phase a pause left, and why it pauses: bit 0 zone, 1 zone CV below KBAT, 2 headroom (Table 6-4) -/
  phase : Nat
  pause : Nat
  /-- the 10 mA short probe runs (R142) -/
  probe : Bool
  /-- an overvoltage stop awaits its check (R148) -/
  ov : Bool
  /-- charging ended because its source was lost, and resumes when one returns (R143) -/
  lost : Bool
  /-- time spent in the charge [us] -/
  chargeUs : Nat
  /-- last direction of VREF: upward (R136; DESIGN CHOICE for the first, log entry 145) -/
  up : Bool
  /-- the KIN switch is open for the open-circuit check (R137) -/
  vocOpen : Bool
  /-- KBAT supplements a short KIN (R133) -/
  supplement : Bool
  /-- times of auxiliary output faults [us] (Table 6-6) -/
  auxFaults : List Nat
  /-- the backup SOC [percent], none while unknown; counts since then [mA us]; a removal was logged in this run (R281) -/
  soc : Option Rat
  removed : Bool
  /-- the current the charger is set to [mA] (R140, R144) -/
  setMa : Nat
  /-- PACKAUX has been disqualified since the start: it then qualifies below 60 V only (Table 6-2) -/
  paRe : Bool
  /-- the power the charger draws from KVIN [mW], as last measured (R139) -/
  drawMw : Nat
  deriving DecidableEq, Repr

def KpaSt.init : KpaSt :=
  { present := false, phase := 0, pause := 0, probe := false, ov := false, lost := false, chargeUs := 0, up := true, vocOpen := false,
    supplement := false, auxFaults := [], soc := none, removed := false, setMa := 0, paRe := false, drawMw := 0 }

/-- A message object of a CAN controller: its two control words and 64 data bytes (Table 13-12). -/
structure CanObj where
  w0 : Nat
  w1 : Nat
  data : List Byte
  deriving DecidableEq, Repr

def CanObj.init : CanObj := ⟨0, 0, []⟩

/-- A CAN controller beyond its registers (13). -/
structure CanSt where
  rx : List (Nat × CanObj)
  tx : List (Nat × CanObj)
  /-- the receive-all FIFO, the oldest first -/
  fifo : List CanObj
  /-- the transmit object whose attempt is on the bus, and whether it started in an exclusive window -/
  attempt : Option Nat
  exclusive : Bool
  /-- time of the request by transmit object [us] -/
  reqAt : List (Nat × Nat)
  /-- end of the exclusive window in which the object's one attempt was made [us] -/
  triedTo : List (Nat × Nat)
  /-- objects aborted while their attempt is on the bus -/
  aborting : Nat
  /-- frames dropped in this watch (R295) -/
  dropped : Nat
  deriving DecidableEq, Repr

def CanSt.init : CanSt := ⟨[], [], [], none, false, [], [], 0, 0⟩

/-- A queue entry of the Q-port (R382). -/
structure QEnt where
  dir : Nat
  wlen : Nat
  count : Nat
  sel : Nat
  cont : Bool
  irq : Bool
  words : List Nat
  deriving DecidableEq, Repr

/-- The Q-port beyond its registers (17). -/
structure QpSt where
  /-- queues, data words of the entry being built, and receive FIFOs, by select -/
  queues : List (Nat × List QEnt)
  stage : List (Nat × List Nat)
  rx : List (Nat × List Nat)
  slave : List Nat
  /-- the select whose chain is on the bus -/
  chain : Option Nat
  /-- the line being filled, whether on demand, and the Sculls waiting for it (R388) -/
  fill : Option Nat
  demand : Bool
  waiters : List Nat
  /-- misses waiting for the bus: Scull and line -/
  misses : List (Nat × Nat)
  /-- lines and tag groups held, the most recently used first -/
  lines : List Nat
  groups : List Nat
  /-- the line that sequential continuation would read next -/
  next : Option Nat
  /-- a queue chain goes before the next XIP transaction; the select served last (R381) -/
  turn : Bool
  last : Nat
  deriving DecidableEq, Repr

def QpSt.init : QpSt := ⟨[], [], [], [], none, none, false, [], [], [], [], none, false, 3⟩

/-- A field command of the tag that waits for a row in programming (R372). -/
inductive FieldCmd where
  | read (page : Nat)
  | write (page : Nat) (data : List Byte) (verifyOk : Bool) (us : Nat)
  deriving DecidableEq, Repr

/-- The NFC tag beyond its registers and its EEPROM (16). The front end is powered by the field or by KSYS. -/
structure TagSt where
  field : Bool
  /-- 0 IDLE, 1 READY 1, 2 READY 2, 3 ACTIVE, 4 HALT; woken from HALT -/
  air : Nat
  star : Bool
  sector : Nat
  /-- the last answer on the air: bytes, or a 4-bit ACK or NAK -/
  answer : List Byte
  ack : Option Nat
  /-- the row buffer: row address and the bytes stored by offset (R372) -/
  buf : Option (Nat × List (Nat × Byte))
  /-- rows to program, the one being programmed first -/
  rows : List (Nat × List Byte)
  wait : Option FieldCmd
  /-- 0 free, 1 field, 2 host -/
  owner : Nat
  preempts : Nat
  /-- stamp of a completed confirmation that Camlan has not executed: time and stroke (R375) -/
  confAt : Option (Nat × Nat)
  /-- the last request taken, a request waiting with its stamp, and reply text left to fetch (R378) -/
  lastReq : Nat
  request : Option Nat
  more : List Byte
  /-- a reply that the field's access to the mailbox cut off, to be written again (R378) -/
  reply : Option (List Byte)
  deriving DecidableEq, Repr

def TagSt.init : TagSt :=
  { field := false, air := 0, star := false, sector := 0, answer := [], ack := none, buf := none, rows := [], wait := none, owner := 0,
    preempts := 0, confAt := none, lastReq := 0, request := none, more := [], reply := none }

/-- A chain frame, or the inner frame of an air frame (Table 8-1): header fields and payload. -/
structure Frame where
  seat : Nat
  type : Nat
  tag : Nat
  catchNo : Nat
  flags : Nat
  payload : List Byte
  deriving DecidableEq, Repr

/-- A transaction that Camlan could not issue for want of entries and issues in a later stroke (R419). -/
structure Wanted where
  type : Nat
  seat : Nat
  paths : Nat
  req : List Byte
  rspLen : Nat
  cls : Nat
  deriving DecidableEq, Repr

/-- The module chain, the transaction table and the twin comparison beyond their registers and the table's bytes (08, 09). -/
structure ChnSt where
  /-- submitted tags waiting for the chain: tag, class, direction B -/
  queue : List (Nat × Nat × Bool)
  flyA : Option Nat
  flyB : Option Nat
  done : List Nat
  /-- tags that hold payload, and tags of Camlan's own transactions with their class -/
  data : List Nat
  own : List (Nat × Nat)
  /-- tags decided by the twin compare at a gather deadline (R222) -/
  decided : List Nat
  /-- valid responses received by tag -/
  got : List (Nat × Frame)
  rgot : List (Nat × Frame)
  /-- where Camlan's search for entries starts; transactions not issued in this watch (R419) -/
  next : Nat
  skipped : Nat
  wanted : List Wanted
  /-- frames sent on CHA and on CHB since the last catch, as they stand on the line (R180); the ports that send idle (R179, Table 8-6) -/
  sentA : List (List Byte)
  sentB : List (List Byte)
  idleA : Bool
  idleB : Bool
  /-- when the next request may start in each direction [us] (R197, R198) -/
  readyA : Nat
  readyB : Nat
  /-- heats since the start (R223, R224) -/
  heatNo : Nat
  /-- the direction of the next read in WHOLE is B (R199) -/
  dirB : Bool
  /-- echoes of the last catch, good and on the opposite port; runs of catches -/
  echoA : Bool
  echoB : Bool
  badRun : Nat
  goodRun : Nat
  splitFor : Nat
  /-- link was seen since the start; a late enumeration is due (R194) -/
  seen : Bool
  lateDue : Bool
  /-- enumeration: running, on CHB, the seat asked for, waiting for the next catch broadcast, whose echoes are awaited, late; complete on the chain -/
  enumOn : Bool
  enumB : Bool
  enumSeat : Nat
  enumWait : Bool
  enumSent : Bool
  late : Bool
  complete : Bool
  /-- catch-up reads wanted: seat and stroke of the catch (R199) -/
  catchup : List (Nat × Nat)
  deriving DecidableEq, Repr

def ChnSt.init : ChnSt :=
  { queue := [], flyA := none, flyB := none, done := [], data := [], own := [], decided := [], got := [], rgot := [], next := 0, skipped := 0, wanted := [],
    sentA := [], sentB := [], idleA := true, idleB := true, readyA := 0, readyB := 0, heatNo := 0,
    dirB := false, echoA := false, echoB := false, badRun := 0, goodRun := 0, splitFor := 0, seen := false, lateDue := false,
    enumOn := false, enumB := false, enumSeat := 1, enumWait := false, enumSent := false, late := false, complete := false, catchup := [] }

/-- A pairing under way (R220, R221): the seat, the key identity and keys sent, the stroke of activation, and who asked. -/
structure PairSt where
  seat : Nat
  keyId : Nat
  key : List Byte
  act : Option Nat
  asker : Origin
  deriving DecidableEq, Repr

/-- The radio beyond its registers (09). -/
structure RadSt where
  queue : List (Nat × Nat)
  fly : Option Nat
  done : List Nat
  /-- the slot whose frame waits for lock (R217); the last stroke with a beacon -/
  waiting : Option Nat
  beaconAt : Option Nat
  /-- the join window is open (R216); the air frames sent since the last catch (R209) -/
  window : Bool
  sent : List (List Byte)
  /-- the slot at which the transaction in flight ends -/
  busyTo : Nat
  /-- join buffer: seat, index, JCOUNT; the next index; seats granted; grants queued (R219) -/
  joins : List (Nat × Nat × Nat)
  joinNext : Nat
  granted : List Nat
  grants : List Nat
  /-- seats whose refusal was logged in this watch -/
  refused : List Nat
  /-- the last attempts by channel, true where failed; bad channels and since when [us] (R207) -/
  hist : List (Nat × List Bool)
  bad : List (Nat × Nat)
  /-- calibration wanted: by command, by temperature -/
  calNow : Bool
  calTemp : Bool
  pairs : List PairSt
  deriving DecidableEq, Repr

def RadSt.init : RadSt :=
  { queue := [], fly := none, done := [], waiting := none, window := false, sent := [], beaconAt := none, busyTo := 0, joins := [], joinNext := 0,
    granted := [], grants := [], refused := [], hist := [], bad := [], calNow := false, calTemp := false, pairs := [] }

/-- A current step of a string whose samples Camlan reads for one seat (R275): the stroke after the step, the change of the string's current [mA], and the cell voltages before and after. -/
structure StepEst where
  seat : Nat
  stroke : Nat
  dI : Rat
  vPrev : Option (List Nat)
  vNow : Option (List Nat)
  deriving DecidableEq, Repr

/-- A string's estimation beyond its cells (R271, R272, R275). -/
structure StrEst where
  /-- since when the current condition of rest holds; a resync of this rest was logged -/
  restSince : Option Nat
  restLogged : Bool
  /-- the string's current by stroke over est.load_win: time [us] and mA -/
  load : List (Nat × Rat)
  /-- the string's current of the last stroke [mA], whether its FCS extremes lay within 5 % of the mean, and whether the string was closed throughout it -/
  last : Rat
  flat : Bool
  closed : Bool
  /-- closed at the last catch -/
  shut : Bool
  /-- cells updated in this watch (0x0C03) -/
  updated : Nat
  /-- the zero limits of a blind seat stand (R225, R227) -/
  blindHold : Bool
  deriving DecidableEq, Repr

def StrEst.init : StrEst := ⟨none, false, [], 0, false, false, false, 0, false⟩

/-- A surge ticket (R288): number, power [W], duration requested, expiry stroke, and its holder's source; the LIMITED notice was written. -/
structure Ticket where
  n : Nat
  power : Int
  expiry : Nat
  holder : Nat
  limited : Bool
  deriving DecidableEq, Repr

/-- A surge request of the present set (R286): source, rank, stamp, kind (1 request, 2 release), power, duration, reference, and where it came from. -/
structure SurgeReq where
  source : Nat
  rank : Nat
  stamp : Nat
  stroke : Nat
  kind : Nat
  power : Int
  duration : Nat
  ref : Nat
  origin : Origin
  deriving DecidableEq, Repr

/-- The result of a surge request (Table 12-4): RESULT, ticket number, its expiry stroke, and the two offers. -/
structure SurgeOut where
  req : SurgeReq
  result : Nat
  ticket : Nat
  expiry : Nat
  offerP : Int
  offerT : Nat
  deriving DecidableEq, Repr

/-- An accepted restore record (R279): its bytes, and its source. -/
structure Restore where
  data : List Byte
  origin : Origin
  deriving DecidableEq, Repr

/-- Estimation, warnings, hibernation and tickets (12). -/
structure EstSt where
  strs : List (Nat × StrEst)
  steps : List StepEst
  /-- the charge counted in the last stroke [nVs], none while a snapshot is invalid; the snapshot of this run's first catch -/
  dq : Option Int
  first : Option Int
  /-- protective limits by limit target [mA] as last published, and zero-limit causes -/
  prot : List (Nat × Int)
  applied : List (Nat × Int)
  warn : Nat
  /-- reported battery SOC [percent] as last published -/
  soc : Rat
  /-- hibernation: idle since, pending since, on request -/
  idleSince : Option Nat
  pending : Bool
  /-- tickets -/
  ticket : Option Ticket
  nextTicket : Nat
  reqs : List SurgeReq
  /-- results waiting for their reply at the finish -/
  outs : List SurgeOut
  /-- stroke of this run's first catch -/
  runStart : Nat
  /-- a restore was accepted in this run; the record waiting for the next catch; a save awaited -/
  restored : Bool
  restore : Option Restore
  saves : List (Nat × Option String)
  /-- the restore transfer: port, size, bytes so far -/
  transfer : Option (Nat × Nat × List Byte)
  deriving DecidableEq, Repr

def EstSt.init : EstSt :=
  { strs := [], steps := [], dq := none, first := none, prot := [], applied := [], warn := 0, soc := 0, idleSince := none, pending := false,
    ticket := none, nextTicket := 1, reqs := [], outs := [], runStart := 0, restored := false, restore := none, saves := [], transfer := none }

/-- The fields of a lane's status summary that this lane keeps (Table 13-8), with bit 0 of QFLAGS. -/
structure Summary where
  state : Nat
  soc : Nat
  current : Int
  chgLim : Nat
  disLim : Nat
  cap : Nat
  locked : Bool
  deriving DecidableEq, Repr

/-- One entry of an orders frame (Table 13-8). -/
structure CrewEntry where
  kind : Nat
  target : Nat
  value : Int
  ref : Nat
  deriving DecidableEq, Repr

/-- One entry of an outcome frame (Table 13-8). -/
structure CrewOutcome where
  outcome : Nat
  kind : Nat
  target : Nat
  winner : Nat
  ref : Nat
  value : Int
  deriving DecidableEq, Repr

/-- An orders frame waiting at the leader (R315, R316, R336): its lane, its entries, and its surge request or release: kind, power, duration, reference. -/
structure CrewSend where
  lane : Nat
  entries : List CrewEntry
  surge : Option (Nat × Int × Nat × Nat)
  deriving DecidableEq, Repr

/-- A crew command of a console that awaits its outcome (R336): lane, reference, whether it is a surge request, port and tag, and the stroke of the command. -/
structure CrewWait where
  lane : Nat
  ref : Nat
  surge : Bool
  port : Nat
  tag : Option String
  stroke : Nat
  deriving DecidableEq, Repr

/-- The crew link (13). -/
structure CrewSt where
  /-- Table 13-9: 0 OFF, 1 LISTEN, 2 JOINING, 3 MEMBER, 4 LEADER, 5 DUPLICATE -/
  st : Nat
  leader : Option Nat
  /-- this lane is the deputy -/
  deputy : Bool
  /-- the lane that sent the last reference and whether as deputy: ROWOFS is set at a change of sender (R311) -/
  sender : Option (Nat × Bool)
  /-- lock, the stroke since which it holds, runs of references within and beyond 20 us, strokes without a reference -/
  locked : Bool
  lockAt : Nat
  good : Nat
  badRun : Nat
  missing : Nat
  /-- STROKE of this stroke's reference, and of the last one -/
  ref : Option Nat
  lastRef : Nat
  /-- phase error of this stroke, and the trim written last -/
  err : Int
  tPrev : Int
  /-- STROKE of the sender's last watch catch (R313) -/
  watchAt : Option Nat
  /-- a reference was heard; a join frame of a lower lane was heard in the interval -/
  heardRef : Bool
  heardLower : Bool
  /-- admitted lanes, and join frames of this watch: lane, UIDLO, PERIOD, HEAT -/
  lanes : List Nat
  joins : List (Nat × Nat × Nat × Nat)
  /-- lanes whose summary arrived in this stroke's row, rows missed, the newest summaries and the reference of each, lanes declared gone -/
  seen : List Nat
  missed : List (Nat × Nat)
  sums : List (Nat × Summary × Nat)
  gone : List Nat
  /-- LEADSTROKE of the orders frames accepted for the present set; 0x0D17 was logged in this watch; orders frames discarded (R314); frames discarded for their window or length (R307) -/
  frames : List Nat
  refused : Bool
  discarded : Nat
  strays : Nat
  /-- orders frames to send, outcome frames to send (64 bytes each), console commands waiting -/
  send : List CrewSend
  outs : List (List Byte)
  waits : List CrewWait
  deriving DecidableEq, Repr

def CrewSt.init : CrewSt :=
  { st := 0, leader := none, deputy := false, sender := none, locked := false, lockAt := 0, good := 0, badRun := 0, missing := 0,
    ref := none, lastRef := 0, err := 0, tPrev := 0, watchAt := none, heardRef := false, heardLower := false, lanes := [], joins := [],
    seen := [], missed := [], sums := [], gone := [], frames := [], refused := false, discarded := 0, strays := 0, send := [], outs := [], waits := [] }



/-- The security engine beyond its registers (19): the keys loaded by KEYLOAD, by slot, and the operation running: function, key, source, destination, bytes, additional data. -/
structure SecSt where
  keys : List (Nat × List Byte)
  op : Option (Nat × Nat × Nat × Nat × Nat × Nat)
  deriving DecidableEq, Repr

def SecSt.init : SecSt := ⟨[], none⟩

/-- Camlan's acts at a catch: none in progress, which is so between commands; what it counts is gathered (R362); and the causes of easy found so far are gathered too (R416). -/
inductive CatchActs where
  | idle
  | counting
  | finding (causes : List Nat)
  deriving DecidableEq, Repr

/-- The state of the RN6400. -/
@[ext]
structure State where
  /-- every register of the register maps, by address; per-requester copies under address + n * 2^32 (DESIGN CHOICE, log entry 4) -/
  regs : List (Nat × Word)
  /-- the addressed memories: shared SRAM, TCMs, transaction table, logbook SRAM, eflash, tag EEPROM -/
  mem : List Host.Cell
  power : PowerSt
  stk : StrokeSt
  cam : CamSt
  log : LogSt
  con0 : ConSt
  con1 : ConSt
  parts : List (Nat × PartSt)
  ctxs : List (Nat × Ctx)
  sculls : List (Nat × ScullSt)
  /-- parameters in force (R341) -/
  inForce : List (PKey × PVal)
  nv : NonVol
  ao : AlwaysOn
  tally : TallySt
  dbg : DebugSt
  cca : CcaSt
  meas : MeasSt
  ctr : CtrSt
  mdi : MdiSt
  sin : SinSt
  imd : ImdSt
  /-- seats 0x01 to 0x80 -/
  seats : List (Nat × SeatSt)
  kpa : KpaSt
  /-- CANA, CANB and CANC by number 0 to 2 -/
  cans : List (Nat × CanSt)
  qp : QpSt
  tag : TagSt
  chn : ChnSt
  rad : RadSt
  est : EstSt
  crew : CrewSt
  /-- the data the last completed read of a register returned: the model's own field, so that what a read answers is state -/
  rdata : Word
  sec : SecSt
  /-- commands waiting, the oldest first -/
  pending : List Instr
  /-- free values drawn so far (DESIGN CHOICE, log entry 1) -/
  freeCtr : Nat
  acts : CatchActs
  deriving DecidableEq, Repr

def Helm.free : Helm := ⟨0xFF, 0, 0, 0⟩

def StrokeSt.init : StrokeSt :=
  ⟨false, 0, 0, false, false, false, false, false, false, 0, 0, false, none⟩

def CamSt.init : CamSt :=
  { state := .idle, easyCauses := [], orders := [], standing := [], helm := Helm.free, helmPort := none, quietSince := none,
    autoclears := [], stopped := false, selfTest := [], resetEasy := [], gen := 0, outcomes := [], waiting := [], enumDone := false,
    corrected := 0, enumLimit := 0, svcAt := 0, svcBlocked := false, svcLogged := false, black := ⟨none, none, none⟩ }

def LogSt.init : LogSt := ⟨[], [], [], [], []⟩

def ConSt.init : ConSt :=
  { rx := [], tx := [], line := [], tooLong := false, lastCr := false, fe := 0, level := .view, lastLine := 0,
    machine := false, ready := [], tags := [], typed := 0, out := [], sending := [], withheld := [], dropped := 0, challenge := none, nonce := [], challengeAt := 0, wasUp := false, authed := false, adopted := false, abArm := true,
    errFrame := 0, errOver := 0, errCrc := 0 }

def Ctx.init : Ctx :=
  { a0 := 0, a1 := 0, a2 := 0, a3 := 0, wait := none, inHandler := false, saved := 0, saved1 := 0, saved2 := 0, saved3 := 0, savedWait := none }

def PartSt.init : PartSt :=
  { handler := 0, hmask := 0, masked := false, version := 0, verified := false, resumes := [], bell := none, entry := [], stack := [], ctxMask := 0,
    data := [], dataDst := 0, grants := [], sealed := [] }

def ScullSt.init : ScullSt :=
  { slot := none, part := 0, yielded := false, start := 0, len := 0, pmp := List.replicate 16 (PmpEntry.off 0), icache := [], dcache := [], mcounteren := 5 }

/-- A copy of the life-cycle record: state, pending target, wipe set, transitions, and the CRC-32 over them (R124; DESIGN CHOICE for the layout, log entry 108). -/
def lcsCopy (state target wipe count : Nat) : List Byte × Nat :=
  let b := leBytes 1 state ++ leBytes 1 target ++ leBytes 1 wipe ++ leBytes 2 count
  (b, crc32 b)

/-- Both copies of the record (R124). -/
def lcsBoth (state target wipe count : Nat) : List (List Byte × Nat) := [lcsCopy state target wipe count, lcsCopy state target wipe count]

def NonVol.init : NonVol :=
  { confirmed := [], staged := [], cfgGen := 0, floors := [], codes := [], nameplate := 0, fails0 := [], fails1 := [],
    locked0 := false, locked1 := false, pendingLcs := none, lcsRec := lcsBoth 0 7 0 0, tally := [], tallyActive := 254, tallyGen := 0, tallyNext := 1,
    shoreSeq := 0, profileAt := none, preLock := [], rad := ⟨0, [], 0, [], [], []⟩, trims := TrimFuses.init }

def TallySt.init : TallySt := ⟨[], [], none, 0, none, false, false, 0⟩

def DebugSt.init : DebugSt := { gpr := [], csr := [], data := 0, chal := 0, progbuf := List.replicate 8 0, exception := false }

def PowerSt.init : PowerSt :=
  { phase := .wiping, bootTimer := false, faultReset := none, cause := 0, injDone := 0, injNow := none, shoreAt := none, shoreHeld := false, shoreFb := 0, shoreMdi := 0, shoreTimes := [], shoreFold := 0, foldLogged := none, wakeSrc := 0, wakeBall := 0, sleptS := 0 }

/-- The machine right after its power-on reset is released: the wipe has begun and no requester runs (R118, DESIGN CHOICE, log entry 3). -/
def State.reset : State :=
  { regs := [], mem := [], power := PowerSt.init, stk := StrokeSt.init, cam := CamSt.init, log := LogSt.init,
    con0 := ConSt.init, con1 := ConSt.init, parts := [], ctxs := [], sculls := [], inForce := [], nv := NonVol.init, ao := ⟨0, [], false, false⟩,
    tally := TallySt.init, dbg := DebugSt.init,
    cca := CcaSt.init, meas := MeasSt.init, ctr := CtrSt.init, mdi := MdiSt.init, sin := SinSt.init, imd := ImdSt.init,
    seats := [],
    kpa := KpaSt.init,
    cans := [], qp := QpSt.init,
    tag := TagSt.init,
    chn := ChnSt.init, rad := RadSt.init,
    est := EstSt.init,
    crew := CrewSt.init,
    rdata := 0,
    sec := SecSt.init,
    pending := [], freeCtr := 0, acts := .idle }

end Sys2Proof.Machine
end

