-- ==== Sys2Proof/Machine/Ops.lean ====
section
/-!
DEFINITION. The named operations over registers, memory, time, parameters and the logbook that every command uses.
-/

namespace Sys2Proof.Machine

/-! Registers -/

/-- The row of a register map that holds an offset. -/
def rowAt (rows : List RegRow) (off : Nat) : Option RegRow :=
  rows.find? (fun r => decide (r.start ≤ off) && decide ((off - r.start) % r.stride = 0) && decide ((off - r.start) / r.stride < r.count))

/-- The row that describes the register at an address, none for a reserved offset (R22). -/
def regRow (a : Nat) : Option RegRow :=
  match regBlocks.find? (fun b => b.1 = a % 2 ^ 32 / 4096 * 4096) with
  | some b => rowAt b.2 (a % 4096)
  | none => none

/-- The reset value of the register at an address; 0 for a reserved offset (R22). -/
def regReset (a : Nat) : Word :=
  match regRow a with
  | some r => wordOf r.reset
  | none => 0

/-- The register at an address. -/
def State.rd (s : State) (a : Nat) : Word := Tab.get (regReset a) s.regs a

/-- The state with a register set, whatever its access code: what the hardware and Camlan do. -/
def State.wr (s : State) (a : Nat) (v : Word) : State := { s with regs := Tab.put (regReset a) s.regs a v }

/-- The register as a number. -/
def State.rdN (s : State) (a : Nat) : Nat := (s.rd a).toNat

def State.wrN (s : State) (a n : Nat) : State := s.wr a (wordOf n)

/-- The field of w bits from bit lo. -/
def getField (n lo w : Nat) : Nat := n / 2 ^ lo % 2 ^ w

/-- The number with its field of w bits from bit lo set to v, modulo 2^w. -/
def putField (n lo w v : Nat) : Nat := n / 2 ^ (lo + w) * 2 ^ (lo + w) + v % 2 ^ w * 2 ^ lo + n % 2 ^ lo

def State.fld (s : State) (a lo w : Nat) : Nat := getField (s.rdN a) lo w

def State.setFld (s : State) (a lo w v : Nat) : State := s.wrN a (putField (s.rdN a) lo w v)

def State.bit (s : State) (a b : Nat) : Bool := decide (s.fld a b 1 = 1)

def State.setBit (s : State) (a b : Nat) (v : Bool) : State := s.setFld a b 1 (if v then 1 else 0)

/-- The state with the bits of a mask set in a register. -/
def State.orReg (s : State) (a m : Nat) : State := s.wrN a (s.rdN a ||| m)

/-- The state with the bits of a mask cleared in a register. -/
def State.clrReg (s : State) (a m : Nat) : State := s.wrN a (s.rdN a - (s.rdN a &&& m))

/-- A counter field that stops at its largest value. -/
def State.incSat (s : State) (a lo w k : Nat) : State := s.setFld a lo w (satAdd (s.fld a lo w) (2 ^ w - 1) k)

/-- The number of a requester: Cox 0, Scull 0 to 3 as 1 to 4 in either mode, link engine 5, prefetch unit 6, debug port 7 (Table 1-6). -/
def Requester.idx : Requester → Nat
  | .cox => 0 | .scull0 | .monitor0 => 1 | .scull1 | .monitor1 => 2 | .scull2 | .monitor2 => 3 | .scull3 | .monitor3 => 4
  | .linkEngine => 5 | .prefetch => 6 | .debugPort => 7

/-- The key of a requester's own copy of a register (DESIGN CHOICE, log entry 4). -/
def rqReg (rq : Requester) (a : Nat) : Nat := a + Requester.idx rq * 2 ^ 32

/-! Memory -/

/-- Whether an address lies in the eflash (Table 1-3). -/
def inEflash (a : Nat) : Bool := decide (0x08000000 ≤ a) && decide (a ≤ 0x083FFFFF)

/-- What a byte that nothing has written reads as: erased eflash all ones, every wiped memory zero (R118, DESIGN CHOICE, log entry 6). -/
def memDflt (a : Nat) : Byte := if inEflash a then 0xFF else 0

/-- The memories held byte by byte: eflash, ITCM, DTCM, shared SRAM, transaction table, logbook SRAM, tag EEPROM (Table 1-3). -/
def inMem (a : Nat) : Bool :=
  inEflash a || (decide (0x10000000 ≤ a) && decide (a ≤ 0x1003FFFF)) || (decide (0x10100000 ≤ a) && decide (a ≤ 0x1011FFFF))
    || (decide (0x20000000 ≤ a) && decide (a ≤ 0x203FFFFF)) || (decide (0x28000000 ≤ a) && decide (a ≤ 0x280FFFFF))
    || (decide (0x2C000000 ≤ a) && decide (a ≤ 0x2C03FFFF)) || (decide (0x50000000 ≤ a) && decide (a ≤ 0x50001FFF))

/-- Whether an address is mapped (R20): the memories, boot ROM, XIP window and peripheral blocks. -/
def mapped (a : Nat) : Bool :=
  inMem a || decide (a ≤ 0xFFFF) || (decide (0x30000000 ≤ a) && decide (a ≤ 0x3FFFFFFF)) || (decide (0x40000000 ≤ a) && decide (a ≤ 0x40021FFF))

/-- One byte of memory. -/
def State.rdB (s : State) (a : Nat) : Byte := Tab.get (memDflt a) s.mem a

/-- The state with one byte of memory set. -/
def State.wrB (s : State) (a : Nat) (v : Byte) : State := { s with mem := Tab.put (memDflt a) s.mem a v }

/-- The canonical form of a memory: addresses rise strictly and no entry equals what its address reads as when unlisted. -/
abbrev Memory.wf (m : List Host.Cell) : Bool := Tab.wf memDflt m

/-- Consecutive bytes from an address. -/
def State.rdBytes (s : State) (a : Nat) : Nat → List Byte
  | 0 => []
  | n + 1 => s.rdB a :: s.rdBytes (a + 1) n

/-- The state with consecutive bytes written from an address. -/
def State.wrBytes (s : State) (a : Nat) : List Byte → State
  | [] => s
  | b :: t => (s.wrB a b).wrBytes (a + 1) t

/-- The little-endian number of n bytes at an address (R3). -/
def State.ld (s : State) (a n : Nat) : Nat := leNat (s.rdBytes a n)

/-- The state with a number stored in n bytes at an address (R3). -/
def State.st (s : State) (a n v : Nat) : State := s.wrBytes a (leBytes n v)

/-- The state with a range of memory back at what it reads as when unlisted. -/
def State.clearMem (s : State) (lo hi : Nat) : State :=
  { s with mem := Tab.drop (fun a => decide (lo ≤ a) && decide (a < hi)) s.mem }

/-! Free values -/

/-- The next free value and the state that has drawn it (DESIGN CHOICE, log entry 1). -/
def State.free (s : State) : Nat × State := ((Config.freeWord s.freeCtr).toNat, { s with freeCtr := s.freeCtr + 1 })

/-- n free bytes: what an operation that failed its verify leaves (DESIGN CHOICE, log entry 1). -/
def State.freeBytes (s : State) (n : Nat) : List Byte × State :=
  let (f, s) := s.free
  ((List.range n).map (fun i => byteOf (Config.freeOf f i)), s)

/-- n free bytes stored from an address (DESIGN CHOICE, log entry 1). -/
def State.spoil (s : State) (a n : Nat) : State :=
  let (b, s) := s.freeBytes n
  s.wrBytes a b

/-! Time -/

/-- Whether the stroke timer runs. -/
def State.running (s : State) : Bool := s.bit Reg.STK_CTRL 8

/-- The stroke period [us] (Table 2-1). -/
def State.period (s : State) : Nat := ([2000, 5000, 10000, 20000] : List Nat).getD (s.fld Reg.STK_CTRL 0 2) 10000

/-- The watch length [strokes] (Table 2-1). -/
def State.watchLen (s : State) : Nat := ([500, 200, 100, 50] : List Nat).getD (s.fld Reg.STK_CTRL 0 2) 100

/-- The heat [strokes] (R34). -/
def State.heat (s : State) : Nat := s.fld Reg.STK_CTRL 4 4 + 1

/-- Microseconds since the last catch. -/
def State.us (s : State) : Nat := s.fld Reg.STK_PHASE 0 15

/-- The 48-bit time base (R28). -/
def State.now (s : State) : Nat := (s.stk.base + s.us) % 2 ^ 48

/-- The state at a time after the last catch: the stamp of a command (R16). (DESIGN CHOICE, log entry 67) -/
def State.atUs (s : State) (us : Nat) : State := s.setFld Reg.STK_PHASE 0 15 us

def State.strokeNo (s : State) : Nat := s.rdN Reg.STK_NUM

/-- Stroke a lies at or before stroke b (R29). -/
def strokeLe (a b : Nat) : Bool := decide ((b + 2 ^ 32 - a % 2 ^ 32) % 2 ^ 32 < 2 ^ 31)

/-- Stamp a is earlier than stamp b, compared modulo 2^48 (R29). -/
def stampLt (a b : Nat) : Bool :=
  decide (a % 2 ^ 48 ≠ b % 2 ^ 48) && decide ((b + 2 ^ 48 - a % 2 ^ 48) % 2 ^ 48 < 2 ^ 47)

/-- A point of the stroke [us]: a percentage of the period (Table 2-1). -/
def State.point (s : State) (percent : Nat) : Nat := s.period * percent / 100

/-- The time of the always-on clock [us], on which windows of hours and minutes are judged. -/
def State.clock (s : State) : Nat := s.ao.us + s.us

/-- The entries of a list of times that lie within the last span. -/
def within (now span : Nat) (l : List Nat) : List Nat := l.filter (fun t => decide (now < t + span))

abbrev hours24 : Nat := 86400000000
abbrev minutes10 : Nat := 600000000

/-! Parameters -/

/-- A parameter in force. -/
def State.par (s : State) (n : PName) (i : Nat := 0) : PVal := Settings.get s.inForce ⟨n, i⟩

/-- The number of a value in 1/1,000 of its unit, none where absent. -/
def numOf : PVal → Option Int
  | .num m => some m
  | _ => none

/-- A number in force in 1/1,000 of its unit; 0 where absent. -/
def State.parN (s : State) (n : PName) (i : Nat := 0) : Int := (numOf (s.par n i)).getD 0

def State.parN? (s : State) (n : PName) (i : Nat := 0) : Option Int := numOf (s.par n i)

/-- A whole number in force; 0 where absent. -/
def State.parI (s : State) (n : PName) (i : Nat := 0) : Nat := (s.parN n i / 1000).toNat

/-- The place of an enumeration value in force. -/
def State.parS (s : State) (n : PName) (i : Nat := 0) : Nat :=
  match s.par n i with
  | .sym k => k
  | _ => 0

/-- An identifier in force; 0 where absent. -/
def State.parId (s : State) (n : PName) (i : Nat := 0) : Nat :=
  match s.par n i with
  | .ident k => k
  | _ => 0

/-- A set of names in force. -/
def State.parL (s : State) (n : PName) (i : Nat := 0) : List Nat :=
  match s.par n i with
  | .names l => l
  | _ => []

/-- The settings with every parameter of one moment of application taken from the confirmed configuration (R340). -/
def applySettings (m : Applied) (confirmed inForce : List (PKey × PVal)) : List (PKey × PVal) :=
  confirmed.filter (fun e => decide ((PName.info e.1.name).applied = m)) ++ inForce.filter (fun e => decide ((PName.info e.1.name).applied ≠ m))

def State.applyAt (s : State) (m : Applied) : State := { s with inForce := applySettings m s.nv.confirmed s.inForce }

/-! Logbook (15) -/

/-- The records a book holds (R347). -/
def bookCap (b : Nat) : Nat := if b = 0 then 4096 else 512

/-- Where a book lies in the logbook SRAM (Table 1-3). -/
def bookBase (b : Nat) : Nat := if b = 0 then 0x2C000000 else 0x2C020000 + (b - 1) * 0x4000

/-- Buckets a book has (R351). -/
def bookBuckets (b : Nat) : Nat := if b = 0 then 256 else 64

/-- Records held in a book: FIRST up to NEXT (R347). -/
def State.bookHeld (s : State) (b : Nat) : Nat := (s.rdN (Reg.LOG_BNEXT b) + 2 ^ 32 - s.rdN (Reg.LOG_BFIRST b)) % 2 ^ 32

/-- Records queued for a book. -/
def State.bookQueued (s : State) (b : Nat) : Nat := (s.log.pend.filter (fun r => decide (r.book = b))).length

/-- The bucket of a code in a book: its own, or the shared one when the book's buckets are all taken (R351). -/
def State.bucketKey (s : State) (b code : Nat) : Nat :=
  let k := b * 65536 + code
  if s.log.buckets.any (fun e => decide (e.1 = k)) then k
  else if (s.log.buckets.filter (fun e => decide (e.1 / 65536 = b ∧ e.1 % 65536 ≠ 0xFFFF))).length < bookBuckets b then k
  else b * 65536 + 0xFFFF

/-- A bucket; a code not yet seen has a full one (R351). -/
def State.bucket (s : State) (k : Nat) : Bucket :=
  match s.log.buckets.find? (fun e => decide (e.1 = k)) with
  | some e => e.2
  | none => ⟨8, 0⟩

def State.setBucket (s : State) (k : Nat) (b : Bucket) : State :=
  { s with log := { s.log with buckets := (s.log.buckets.filter (fun e => decide (e.1 ≠ k))) ++ [(k, b)] } }

/-- The depth and the highest depth of the pending FIFO (R350). -/
def State.setPend (s : State) (l : List LogRec) : State :=
  let s := { s with log := { s.log with pend := l } }
  let s := s.setFld Reg.LOG_PEND 0 7 l.length
  s.setFld Reg.LOG_PEND 16 7 (max (s.fld Reg.LOG_PEND 16 7) l.length)

/-- A record of the logbook itself: SOURCE 0xF0 (R351, R352). -/
def State.ownRec (s : State) (book code sevfl : Nat) (args : List Byte) : LogRec :=
  ⟨book, code, 0xF0, sevfl, s.now, if s.running then s.strokeNo else 0xFFFFFFFF, (args ++ List.replicate 12 (0 : Byte)).take 12⟩

/-- The first record after room returns names the records lost (R352). -/
def State.reportLost (s : State) (b : Nat) : State :=
  let n := Tab.get 0 s.log.lost b
  if n ≠ 0 ∧ s.bookHeld b + s.bookQueued b < bookCap b ∧ s.log.pend.length < 64 then
    let s' := s.setPend (s.log.pend ++ [s.ownRec b 0x0F03 (severity 0x0F03) (u32 n)])
    { s' with log := { s'.log with lost := Tab.put 0 s'.log.lost b 0 } }
  else s

/-- The registers that a submission to a book may change. -/
abbrev logRegs (b : Nat) : List Nat := [Reg.LOG_PEND, Reg.LOG_BSUPP b, Reg.LOG_BOVF b, Reg.LOG_PENDDROP, Reg.LOG_IRQ]

/-- Results of a submission (LOG.SUBSTAT). -/
abbrev subQueued : Nat := 0
abbrev subSuppressed : Nat := 1
abbrev subFull : Nat := 2
abbrev subPendFull : Nat := 3

/-- A unit of one or two records judged and queued (R349, R351, R352): the result and the state. -/
def State.submit (s : State) (unit : List LogRec) : Nat × State :=
  match unit with
  | [] => (subQueued, s)
  | r :: _ =>
    let exempt := decide (r.sevfl % 8 = 4) || decide (r.source = 0xF0) || !s.bit Reg.LOG_CTRL 1
    let k := s.bucketKey r.book r.code
    let b := s.bucket k
    if !exempt && decide (b.tokens = 0) then
      let s := s.setBucket k { b with supp := b.supp + 1 }
      (subSuppressed, s.incSat (Reg.LOG_BSUPP r.book) 0 32 unit.length)
    else
      let s := if exempt then s else s.setBucket k { b with tokens := b.tokens - 1 }
      let s := s.reportLost r.book
      if bookCap r.book < s.bookHeld r.book + s.bookQueued r.book + unit.length then
        let s := s.incSat (Reg.LOG_BOVF r.book) 0 32 unit.length
        (subFull, { s with log := { s.log with lost := Tab.put 0 s.log.lost r.book (Tab.get 0 s.log.lost r.book + unit.length) } })
      else if 64 < s.log.pend.length + unit.length then
        (subPendFull, (s.incSat Reg.LOG_PENDDROP 0 16 1).setBit Reg.LOG_IRQ 1 true)
      else (subQueued, s.setPend (s.log.pend ++ unit))

/-- The records of an event: the first 12 argument bytes, then a continuation with CONT set when there are more (R345). -/
def State.unitOf (s : State) (book code source sevfl : Nat) (args : List Byte) : List LogRec :=
  let stroke := if s.running then s.strokeNo else 0xFFFFFFFF
  let pad (l : List Byte) : List Byte := (l ++ List.replicate 12 (0 : Byte)).take 12
  let r : LogRec := ⟨book, code, source, sevfl, s.now, stroke, pad args⟩
  if args.length ≤ 12 then [r] else [r, { r with sevfl := sevfl + 64, arg := pad (args.drop 12) }]

/-- Camlan logs an event in one book; a CRITICAL one lost to PENDFULL is kept, up to 16 (R353, R357). -/
def State.logIn (s : State) (book code source : Nat) (args : List Byte) : State :=
  let unit := s.unitOf book code source (severity code) args
  let (r, s') := s.submit unit
  if r = subPendFull ∧ severity code = 4 ∧ s'.log.kept.length + unit.length ≤ 16 then
    { s' with log := { s'.log with kept := s'.log.kept ++ unit } }
  else s'

/-- Camlan logs an event in the safety book. (DEDUCED, log entry 87) -/
def State.logS (s : State) (code : Nat) (args : List Byte) : State := s.logIn 0 code 0 args

/-- Camlan logs an event in TL0. -/
def State.logT0 (s : State) (code : Nat) (args : List Byte) : State := s.logIn 1 code 0 args

/-- Camlan logs an event in the safety book and in TL0. -/
def State.logS0 (s : State) (code : Nat) (args : List Byte) : State := (s.logS code args).logT0 code args

/-- Camlan logs an event in the safety book and in a partition's own book. -/
def State.logSK (s : State) (k code : Nat) (args : List Byte) : State := (s.logS code args).logIn (1 + k) code 0 args

/-! Events, notices -/

/-- Event bits set in a partition's EVP (R83). -/
def State.setEvp (s : State) (k bits : Nat) : State := s.orReg (Reg.PART_EVP (k - 1)) (bits % 4096)

/-- Event bits set in every partition that runs. -/
def State.setEvpAll (s : State) (bits : Nat) : State :=
  (List.range 7).foldl (fun s k => if s.fld (Reg.PART_STATE k) 0 2 = 2 then s.setEvp (k + 1) bits else s) s

/-- A console port. -/
def State.con (s : State) (p : Nat) : ConSt := if p = 0 then s.con0 else s.con1

def State.setCon (s : State) (p : Nat) (c : ConSt) : State := if p = 0 then { s with con0 := c } else { s with con1 := c }

/-- The place of a grant register in a partition's page (Table 4-13). -/
def GrantReg.idx : GrantReg → Nat
  | .arx0 => 0 | .arx1 => 1 | .atx => 2 | .crx0 => 3 | .crx1 => 4 | .ctx => 5 | .gpio => 6 | .misc => 7

/-- A grant register of a partition as it is in force, latched at the partition's last slot start (R90). -/
def State.grant (s : State) (k : Nat) (r : GrantReg) : Nat := Tab.get 0 (Tab.get PartSt.init s.parts k).grants (GrantReg.idx r)

/-- Whether a grant bit of a partition is in force. -/
def State.granted (s : State) (k : Nat) (r : GrantReg) (b : Nat) : Bool := decide (getField (s.grant k r) b 1 = 1)

/-- STAT and FIFO follow the FIFOs of a port (Table 14-10). -/
def State.showCon (s : State) (p : Nat) : State :=
  let c := s.con p
  let s := ((s.setBit (Reg.CON_STAT p) 0 (!c.rx.isEmpty)).setBit (Reg.CON_STAT p) 1 (decide (c.tx.length < 256))).setBit (Reg.CON_STAT p) 2 c.tx.isEmpty
  (s.setFld (Reg.CON_FIFO p) 0 9 c.rx.length).setFld (Reg.CON_FIFO p) 16 9 c.tx.length

/-- Whether a partition holds CON1: Camlan then serves CON0 only (R24). -/
def State.con1Granted (s : State) : Bool := (List.range 7).any (fun k => s.granted (k + 1) .misc 0)

/-- The text of a line as sent, without its line end: `#` TAG, `+` on all but the last line, the body and its CRC (R326, R327). -/
def OutLine.text (l : OutLine) : String :=
  let crcd (t : String) : String := t ++ "*" ++ hexU 4 (crc16 (asciiBytes t))
  if l.bare then l.body
  else if l.note then (match l.tag with | some _ => crcd ("#! " ++ l.body ++ " ") | none => "! " ++ l.body)
  else match l.tag with
    | some t => crcd ("#" ++ t ++ (if l.more then "+ " else " ") ++ l.body ++ " ")
    | none => l.body

/-- The bytes of an output line as sent, its line end CR LF included. -/
def OutLine.bytes (l : OutLine) : List Byte := asciiBytes l.text ++ (if l.bare then [] else [0x0D, 0x0A])

/-- The length of a line as sent, its line end included. -/
def OutLine.size (l : OutLine) : Nat :=
  let b := l.body.length + 2
  if l.bare then l.body.length
  else if l.note then (match l.tag with | some _ => b + 9 | none => b + 2)
  else match l.tag with
    | some t => b + t.length + (if l.more then 9 else 8)
    | none => b

/-- Bytes in a port's output buffer (R329). -/
def ConSt.outBytes (c : ConSt) : Nat := (c.out.map OutLine.size).foldl (· + ·) 0 + c.sending.length

/-- Camlan's Ianel is silent on CON1 while a partition holds it (R24). -/
def State.conServed (s : State) (p : Nat) : Bool := decide (p = 0) || (decide (p = 1) && !s.con1Granted)

/-- The form of the notices on a port: machine once its last line was a machine line (DEDUCED, log entry 50). -/
def ConSt.noteTag (c : ConSt) : Option String := if c.machine then some "" else none

/-- A notice on one port: withheld while a typed line is partly received, dropped and counted above 3,072 bytes (R327, R329). -/
def State.notice (s : State) (p : Nat) (body : String) : State :=
  if !s.conServed p ∨ s.parS .conNotify p = 0 then s
  else
    let c := s.con p
    if c.line ≠ [] ∧ c.line.head? ≠ some 0x23 then s.setCon p { c with withheld := c.withheld ++ [body] }
    else if 3072 < c.outBytes then s.setCon p { c with dropped := c.dropped + 1 }
    else s.setCon p { c with out := c.out ++ [OutLine.mk c.noteTag false true false body] }

/-- A reply line is queued for its port; the last line ends the command, and a typed reply is followed by the prompt (R325, R326). -/
def State.sayLine (s : State) (p : Nat) (tag : Option String) (more : Bool) (body : String) : State :=
  let c := s.con p
  let c := { c with out := c.out ++ [OutLine.mk tag more false false body] }
  let prompt : List OutLine := if tag.isNone && !more && s.parS .conPrompt p == 1 then [OutLine.mk none false false true "rn> "] else []
  let c := { c with out := c.out ++ prompt }
  let c := if more then c else match tag with
    | some t => { c with tags := c.tags.erase t }
    | none => { c with typed := c.typed - 1 }
  s.setCon p c

/-- A reply of several lines (R325, R326). -/
def State.say (s : State) (p : Nat) (tag : Option String) : List String → State
  | [] => s
  | [b] => s.sayLine p tag false b
  | b :: c :: t => (s.sayLine p tag true b).say p tag (c :: t)

/-- A notice on both ports. -/
def State.noticeAll (s : State) (body : String) : State := (s.notice 0 body).notice 1 body

/-! Contactors by feedback -/

/-- Every configured contactor reads open in the catch bank (R54, R125). -/
def State.allOpen (s : State) : Bool :=
  (List.range 12).all (fun c => s.parS .ctrRole c == 0 || !(s.fld Reg.AGR_C_FB c 1 == 1))

/-- The life-cycle state (Table 5-13). -/
def State.lcs (s : State) : Nat := s.fld Reg.LCS_STATE 0 3

abbrev lcsBlank : Nat := 0
abbrev lcsCommissioning : Nat := 1
abbrev lcsSealed : Nat := 2
abbrev lcsService : Nat := 3
abbrev lcsRetired : Nat := 4

/-- Camlan was started and no reset is held. -/
def State.started (s : State) : Bool := decide (s.power.phase = .camlan)

/-- Camlan runs: it was started, and the debugger does not halt the Cox (R76). -/
def State.camlanOn (s : State) : Bool := s.started && !s.bit Reg.DBG_STAT 3

/-- Camlan runs past the stake-boat interval. -/
def State.rowing (s : State) : Bool := s.camlanOn && decide (s.cam.state ≠ .idle) && decide (s.cam.state ≠ .stake)

/-- The part has left its last reset, and it is neither in ship mode nor hibernating: its hardware works, the wipe included. -/
def State.powered (s : State) : Bool :=
  match s.power.phase with
  | .porHeld | .shipMode | .held | .hibernating => false
  | _ => true

/-- Requesters run: none does before the wipe is complete (R118). -/
def State.awake (s : State) : Bool := s.powered && decide (s.power.phase ≠ .wiping)

/-- What a requester's access does: nothing while no requester runs (R118). -/
def State.byRequester (s t : State) : State := if s.awake then t else s

/-- The answer of a command that always completes. -/
abbrev done (s : State) : Host.Outcome State Fault Refusal := .next s

end Sys2Proof.Machine
end

