-- ==== Sys2Proof/Machine/Text.lean ====
section
/-!
DEFINITION. Configuration as text and its checks: canonical forms (R339, R404), the check value (R340), derived defaults, and every staging rule (R6, R19, R33, R36, R84, R90, R228, R242, R252, R254, R268, R292, R299, R305, R389, R401, R408, R414).
-/

namespace Sys2Proof.Machine

abbrev Settings : Type := List (PKey × PVal)

/-! Every parameter name, in the order of the Parameters tables. -/

def params0 : List PName :=
  [.strokePeriod, .strokeHeat, .helmDefault, .easyAutoclear, .easyAutoclearMax, .coxEccCorrMax, .partSlots, .partQuota, .partGrants, .partXip, .partKeyhash, .partitionAutoresume, .partitionAutoresumeMax, .shoreMinGap, .kpaPaIlim, .kpaKinVmin, .kpaKinFrac, .kpaVocPeriod, .kpaBsVoc, .kpaBsQual, .kpaBsHold, .kpaBsMargin, .kpaKbatChem, .kpaKbatCells]

def params1 : List PName :=
  [.kpaKbatCap, .kpaDetect, .kpaKidOhm, .kpaChgIcc, .kpaChgVcv, .kpaChgTpre, .kpaChgTtot, .kpaZoneT, .kpaZoneHyst, .kpaNimhDv, .kpaNimhDtdt, .kpaNimhBlank, .kpaEoc, .kpaAuxMode, .kpaAuxV, .kpaAuxI, .kpaAuxVrch, .kpaAuxRatio, .kpaAuxNratio, .measRshunt, .measShuntTcr, .measShuntLt, .measShuntInv, .fcsOcs]

def params2 : List PName :=
  [.measXchk, .measXchkN, .hvsRatio, .hvsGain, .hvsEn, .hvsAvg, .hvsXchk, .tmpR25, .tmpBeta, .tmpEn, .chnModules, .chnSeatSerial, .chnSeatString, .chnRetry, .chnLostHeats, .chnBreakN, .chnHealN, .radTxpwr, .radModTxpwr, .radJoinCh, .radRetry, .radMapN, .radMapBad, .radMapQuar]

def params3 : List PName :=
  [.radMapLead, .twnProve, .twnDisagreeMax, .twnClearHeats, .ctrRole, .ctrIbreak, .ctrPullin, .ctrHold, .ctrTclose, .ctrTopen, .ctrWeld, .ctrWeldDv, .ctrWeldT, .ctrDefer, .ctrRext, .ctrAdmitV, .ctrAdmitI, .ctrAdmitWait, .ctrPreR, .ctrPreCbus, .ctrPreErated, .ctrPreTauth, .ctrPreTmax, .pumpHoldMax]

def params4 : List PName :=
  [.pumpCpump, .ctrFbinv, .sinFunc, .sinSrc, .sinTarget, .sinLatch, .sinPair, .sinDiscT, .mdiFitted, .mdiDirinv, .mdiSrcOpen, .mdiSrcClosed, .mdiRsense, .mdiIlim, .mdiDuty, .mdiTmove, .mdiIbreak, .imdPeriod, .imdRinj, .imdRmeas, .imdRatio, .imdUmin, .imdVref, .imdWarn]

def params5 : List PName :=
  [.imdAlarm, .imdAlarmN, .imdAction, .imdKinExcl, .imdKinWarn, .estTable, .estChem, .estCap, .estImaxChg, .estImaxDis, .estRestI, .estRestT, .estOcvSlope, .estBalI, .estLoadWin, .estCapDsoc, .estCapGain, .estRDi, .estWarn, .estLow, .estFinal, .estWarnHyst, .estLowW, .estFinalW]

def params6 : List PName :=
  [.estHibIdle, .estHibGrace, .estWakeI, .estSurgeRk, .estSurgeMargin, .estSurgeNotice, .canNbr, .canDbr, .canNsp, .canDsp, .canBusoffHold, .canWake, .canCycles, .canMatrix, .canaStd, .canaId, .canaPeriod, .crewEnable, .crewLane, .crewListen, .crewMirror, .crewKey, .conBaud, .conAutobaud]

def params7 : List PName :=
  [.conEcho, .conPrompt, .conNotify, .conIdle, .tallyCommit, .qpXipDiv, .qpXipCmd, .qpXipDummy, .qpXipSeqcont, .qpXipAhead, .qpDesel, .gpioSafe, .secSvcKeyhash, .secVendorService]

def allParams : List PName :=
  params0 ++ params1 ++ params2 ++ params3 ++ params4 ++ params5 ++ params6 ++ params7

/-- Every index of a name. -/
def pnIndices (n : PName) : List Nat :=
  match (PName.info n).index with
  | .none => [0]
  | .dec lo hi => (List.range (hi + 1 - lo)).map (· + lo)
  | .named l => List.range l.length

/-- Every parameter key. -/
def allKeys : List PKey := allParams.flatMap (fun n => (pnIndices n).map (fun i => PKey.mk n i))

/-! Numbers of a configuration -/

/-- A number of a configuration in 1/1,000 of its unit, none where absent. -/
def cfgN (l : Settings) (n : PName) (i : Nat := 0) : Option Int :=
  match Settings.get l (PKey.mk n i) with
  | .num m => some m
  | _ => none

def cfgS (l : Settings) (n : PName) (i : Nat := 0) : Nat :=
  match Settings.get l (PKey.mk n i) with
  | .sym k => k
  | _ => 0

/-- C of a configuration's battery [mA]: the sum over its configured strings. -/
def cfgRole (l : Settings) (r : Nat) : List Nat := (List.range 12).filter (fun c => cfgS l .ctrRole c == r)
def cfgStrings (l : Settings) : List Nat := (List.range 4).filter (fun s => !(cfgRole l (1 + s)).isEmpty)
def cfgC (l : Settings) : Int := ((cfgStrings l).map (fun s => (cfgN l .estCap s).getD 0)).foldl (· + ·) 0

/-- The default of a parameter in a configuration, the derived ones computed (Tables 6-3, 7-2 and 12-4a). -/
def cfgDflt (l : Settings) (k : PKey) : PVal :=
  let chem := cfgS l .kpaKbatChem
  let num (m : Int) : PVal := .num m
  match k.name with
  | .fcsOcs => match cfgN l .measRshunt with | some r => if r ≤ 0 then .absent else num (roundDiv (150 * 1000000000) r.toNat) | none => .absent
  | .estImaxChg => match cfgN l .estCap k.idx with | some c => num c | none => .absent
  | .estImaxDis => match cfgN l .estCap k.idx with | some c => num c | none => .absent
  | .estRestI => num (cfgC l / 100)
  | .estWakeI => num (cfgC l / 50)
  | .estRDi => num (cfgC l / 5)
  | .kpaKbatCells => num (if chem = 2 then 3000 else 1000)
  | .kpaChgIcc => num ((cfgN l .kpaKbatCap).getD 0 / 2)
  | .kpaChgVcv => if chem = 0 then num 4200 else if chem = 1 then num 3600 else .absent
  | _ => k.dflt

/-- The value of a parameter in a configuration, derived defaults included. -/
def cfgVal (l : Settings) (k : PKey) : PVal :=
  match Settings.get l k with
  | .absent => cfgDflt l k
  | v => v

def cfgNum (l : Settings) (n : PName) (i : Nat := 0) : Option Int :=
  match cfgVal l (PKey.mk n i) with
  | .num m => some m
  | _ => none

/-! Canonical text (R339) -/

/-- A number of 1/1,000 with the fewest fraction digits. -/
def milliText (m : Int) : String :=
  let n := m.natAbs
  let f := n % 1000
  let digits := if f = 0 then "" else if f % 100 = 0 then "." ++ toString (f / 100) else if f % 10 = 0 then
      "." ++ toString (f / 100) ++ toString (f / 10 % 10) else "." ++ toString (f / 100) ++ toString (f / 10 % 10) ++ toString (f % 10)
  (if m < 0 then "-" else "") ++ toString (n / 1000) ++ digits

/-- The bytes of a list as upper-case hex. -/
def hexBytes (l : List Byte) : String := l.foldl (fun t b => t ++ hexU 2 b.toNat) ""

/-- A text list joined by a separator. -/
def joinText (sep : String) : List String → String
  | [] => ""
  | [x] => x
  | x :: t => x ++ sep ++ joinText sep t

/-- The place of a grant in canonical order: its name without index, then the index (R339). -/
def grantKey (g : Nat) : Nat := if g = 292 then 400 else if 289 ≤ g ∧ g ≤ 291 then g + 200 else if g = 288 then 250 else g

/-- The name of a grant (R339, DESIGN CHOICE, log entry 14). -/
def grantName (g : Nat) : String :=
  if g < 64 then "cana.rx" ++ toString g else if g < 128 then "cana.tx" ++ toString (g - 64)
  else if g < 192 then "canc.rx" ++ toString (g - 128) else if g < 256 then "canc.tx" ++ toString (g - 192)
  else if g < 288 then "gpio" ++ toString (g - 256) else if g = 288 then "con1" else if g < 292 then "qsel" ++ toString (g - 288) else "log"

/-- A number inserted into a rising list without repeats, by a key. -/
def insKey (f : Nat → Nat) (x : Nat) : List Nat → List Nat
  | [] => [x]
  | y :: t => if f x < f y then x :: y :: t else if f x = f y then y :: t else y :: insKey f x t

def sortKey (f : Nat → Nat) (l : List Nat) : List Nat := l.foldr (insKey f) []

/-- Slot entries ordered by Scull, then by start. -/
def insSlot (x : Nat × Nat × Nat) : List (Nat × Nat × Nat) → List (Nat × Nat × Nat)
  | [] => [x]
  | y :: t => if x.1 < y.1 ∨ (x.1 = y.1 ∧ x.2.1 ≤ y.2.1) then x :: y :: t else y :: insSlot x t

/-- A value in the form in which it is held: lists in canonical order. -/
def canonVal (k : PKind) (v : PVal) : PVal :=
  match k, v with
  | .grants, .names l => .names (sortKey grantKey l)
  | .chans _, .names l => .names (sortKey id l)
  | .pair, .names l => .names (sortKey id l)
  | .slots, .slots l => .slots (l.foldr insSlot [])
  | _, v => v

def hvsNames : List String := ["vs0", "vs1", "vs2", "vs3", "vbus", "vpre"]

/-- The channels of the HVS in the byte order of their names: vbus, vpre, vs0 to vs3. -/
def hvsOrder (c : Nat) : Nat := ([2, 3, 4, 5, 0, 1] : List Nat).getD c 9

/-- A value in canonical text (R339, R404; DESIGN CHOICE, log entry 40 for a CAN matrix, which has no canonical form). -/
def valText (k : PKind) (v : PVal) : String :=
  match v with
  | .absent => "none"
  | .num m => milliText m
  | .sym n => match k with
    | .enum l => l.getD n ""
    | _ => toString n
  | .ident n => "0x" ++ hexU 16 n
  | .span b kib => "0x" ++ hexU 8 b ++ "-" ++ toString kib
  | .slots l => joinText "," (l.map (fun e => toString e.1 ++ "-" ++ toString e.2.1 ++ "-" ++ toString e.2.2))
  | .names l => match k with
    | .grants => joinText "," (l.map grantName)
    | .chans 8 => joinText "," (l.map (fun c => "lt" ++ toString c))
    | _ => joinText "," ((sortKey hvsOrder l).map (fun c => hvsNames.getD c ""))
  | .table b => match k with
    | .key => "kcv:" ++ hexBytes ((Config.aes128 b (List.replicate 16 0)).take 4)
    | _ => "0x" ++ hexBytes b
  | .matrix cols cells => joinText "," (cols.map (fun c => toString c.1 ++ "-" ++ toString c.2) ++ cells.map (fun c => toString c.1 ++ "-" ++ toString c.2.1 ++ "-" ++ toString c.2.2.1 ++ "-" ++ toString c.2.2.2))

def keyText (l : Settings) (k : PKey) : String := PKey.text k ++ "=" ++ valText (PName.info k.name).kind (cfgVal l k)

/-- Byte order of texts. -/
def lexLe : List Nat → List Nat → Bool
  | [], _ => true
  | _ :: _, [] => false
  | a :: s, b :: t => decide (a < b) || (decide (a = b) && lexLe s t)

def textLe (a b : String) : Bool := lexLe (a.toList.map Char.toNat) (b.toList.map Char.toNat)

def insText (x : PKey) : List PKey → List PKey
  | [] => [x]
  | y :: t => if textLe (PKey.text x) (PKey.text y) then x :: y :: t else y :: insText x t

/-- Keys in ascending byte order of their text. -/
def sortKeys (l : List PKey) : List PKey := l.foldr insText []

/-- The lines of a configuration's canonical serialization (R339). -/
def dumpLines (l : Settings) : List String :=
  "camlan=4.2" :: (sortKeys ((l.filter (fun e => decide (e.2 ≠ cfgDflt l e.1 ∧ e.2 ≠ e.1.dflt))).map (fun e => e.1))).map (keyText l)

/-- The check value of a configuration (R340). -/
def checkOf (l : Settings) : Nat := crc32 ((dumpLines l).flatMap (fun t => asciiBytes t ++ [0x0A]))

/-! Staging rules (R338) -/

/-- The range of the parameters whose bounds depend on others (R6). -/
def derivedRange (l : Settings) (k : PKey) (m : Int) : Bool :=
  let c := cfgC l
  let between (lo hi : Int) : Bool := decide (lo ≤ m) && decide (m ≤ hi)
  let chem := cfgS l .kpaKbatChem
  let cap := (cfgN l .kpaKbatCap).getD 0
  match k.name with
  | .estRestI => decide (c ≤ m * 1000) && decide (m * 1000 ≤ c * 50)
  | .estWakeI => decide (c ≤ m * 1000) && decide (m * 1000 ≤ c * 100)
  | .estRDi => decide (c * 50 ≤ m * 1000) && between 0 c
  | .fcsOcs => match cfgN l .measRshunt with
    | some r => decide (3125 * 1000000 ≤ m * r) && decide (m * r ≤ 196875 * 1000000)
    | none => false
  | .kpaAuxRatio => decide (m * 16 % 1000 = 0)
  | .kpaAuxNratio => decide (m * 16 % 1000 = 0)
  | .kpaKbatCells => if chem = 0 then between 1000 3000 else if chem = 1 then between 1000 4000 else if chem = 2 then between 3000 10000 else true
  | .kpaChgIcc => decide (cap ≤ m * 10) && decide (m ≤ cap)
  | .kpaChgVcv => if chem = 0 then between 4100 4350 else if chem = 1 then between 3450 3650 else true
  | .canaPeriod => match cfgN l .strokePeriod with | some p => decide (p ≠ 0) && decide (m % p = 0) | none => false
  | .qpXipDiv => if cfgS l .qpXipCmd = 0 then decide (4000 ≤ m) else true
  | _ => true

/-- A rule that fails: the key and the rule's label. -/
abbrev Broken : Type := PKey × String

def chk (ok : Bool) (n : PName) (i : Nat) (rule : String) : List Broken := if ok then [] else [(PKey.mk n i, rule)]

/-- R6: every set value in its range, ascending and descending families included. -/
def rulesR6 (l : Settings) : List Broken :=
  l.flatMap (fun e => match e.2 with
    | .num m => chk (pairOk e.1 e.2 && derivedRange l e.1 m) e.1.name e.1.idx "R6"
    | _ => chk (pairOk e.1 e.2) e.1.name e.1.idx "R6")
  ++ (List.range 4).flatMap (fun i => chk (decide ((cfgN l .kpaZoneT i).getD 0 < (cfgN l .kpaZoneT (i + 1)).getD 0)) .kpaZoneT (i + 1) "R6")
  ++ chk (decide ((cfgN l .estLow).getD 0 < (cfgN l .estWarn).getD 0)) .estLow 0 "R6"
  ++ chk (decide ((cfgN l .estFinal).getD 0 < (cfgN l .estLow).getD 0)) .estFinal 0 "R6"
  ++ chk (decide ((cfgN l .imdAlarm).getD 0 < (cfgN l .imdWarn).getD 0)) .imdAlarm 0 "R6"
  ++ chk (decide (cfgS l .mdiSrcOpen ≠ cfgS l .mdiSrcClosed)) .mdiSrcClosed 0 "R6"
  ++ chk (decide (5 * (cfgN l .strokePeriod).getD 0 ≤ 2 * (cfgN l .pumpHoldMax).getD 0)) .pumpHoldMax 0 "R237"

/-- R33: the minimum hold time 0.7 × 2.2 ms/nF × CPUMP against 2.5 periods. -/
def rulesR33 (l : Settings) : List Broken :=
  match cfgN l .pumpCpump with
  | some c => chk (decide (250 * (cfgN l .strokePeriod).getD 0 ≤ 154 * c)) .strokePeriod 0 "R33"
  | none => []

/-- The gather capacity of N modules at a period [us] (R201, R215). -/
def gatherCapacity (period n : Nat) : Nat :=
  let g := period * 70 / 100
  min (2 * ((4 * (g - 600)) / (2 * (720 + 3 * (n - 1))))) (((g - 100) / 250 - 2) / 2)

/-- R36: ⌈N / heat⌉ within the gather capacity, when the staging changes the heat, the period or chn.modules. -/
def rulesR36 (l : Settings) (changed : List PName) : List Broken :=
  if !(changed.contains .strokeHeat || changed.contains .strokePeriod || changed.contains .chnModules) then []
  else
    let n := (((cfgN l .chnModules).map (fun m => (m / 1000).toNat)).getD 128)
    let h := ((cfgN l .strokeHeat).getD 8000 / 1000).toNat
    chk (decide (0 < h) && decide ((n + h - 1) / h ≤ gatherCapacity ((cfgN l .strokePeriod).getD 0).toNat n)) .strokeHeat 0 "R36"

/-- The slots of every partition: partition, Scull, start, length. -/
def cfgSlots (l : Settings) : List (Nat × Nat × Nat × Nat) :=
  ((List.range 7).map (· + 1)).flatMap (fun k => match Settings.get l (PKey.mk .partSlots k) with
    | .slots e => e.map (fun x => (k, x.1, x.2.1, x.2.2))
    | _ => [])

/-- Entries with those that follow them. -/
def laterPairs {α : Type} : List α → List (α × α)
  | [] => []
  | x :: t => t.map (fun y => (x, y)) ++ laterPairs t

/-- R84: slots of at least 50 us inside the period, at most 16 on a Scull, without overlap on one Scull. -/
def rulesR84 (l : Settings) : List Broken :=
  let p := ((cfgN l .strokePeriod).getD 0).toNat
  let e := cfgSlots l
  e.flatMap (fun x => chk (decide (x.2.1 < 4) && decide (50 ≤ x.2.2.2) && decide (x.2.2.1 + x.2.2.2 ≤ p)) .partSlots x.1 "R84")
  ++ (laterPairs e).flatMap (fun q => chk (decide (q.1.2.1 ≠ q.2.2.1) || decide (q.1.2.2.1 + q.1.2.2.2 ≤ q.2.2.2.1) || decide (q.2.2.2.1 + q.2.2.2.2 ≤ q.1.2.2.1)) .partSlots q.2.1 "R84")
  ++ (List.range 4).flatMap (fun sc => match (e.filter (fun x => decide (x.2.1 = sc))).drop 16 with
    | [] => []
    | x :: _ => chk false .partSlots x.1 "R84")

/-- Spans of bytes of a family of keys: key index, base, length. -/
def cfgSpans (l : Settings) (n : PName) : List (Nat × Nat × Nat) :=
  ((List.range 7).map (· + 1)).filterMap (fun k => match Settings.get l (PKey.mk n k) with
    | .span b kib => some (k, b, kib * 1024)
    | _ => none)

def apart (a b : Nat × Nat × Nat) : Bool := decide (a.2.1 + a.2.2 ≤ b.2.1) || decide (b.2.1 + b.2.2 ≤ a.2.1)

/-- R19: quotas do not overlap. R389: image windows with their tag areas do not overlap and stay in the XIP window. -/
def rulesSpans (l : Settings) : List Broken :=
  let q := cfgSpans l .partQuota
  let x := (cfgSpans l .partXip).map (fun e => (e.1, e.2.1, e.2.2 + 4096 + e.2.2 / 32))
  (laterPairs q).flatMap (fun p => chk (apart p.1 p.2) .partQuota p.2.1 "R19")
  ++ x.flatMap (fun e => chk (decide (e.2.1 + e.2.2 ≤ 0x10000000)) .partXip e.1 "R389")
  ++ (laterPairs x).flatMap (fun p => chk (apart p.1 p.2) .partXip p.2.1 "R389")

/-- The grants that exist and do not belong to Camlan (R89). -/
def grantable (g : Nat) : Bool :=
  (decide (8 ≤ g) && decide (g ≤ 63)) || (decide (72 ≤ g) && decide (g ≤ 95)) || (decide (136 ≤ g) && decide (g ≤ 191))
    || (decide (200 ≤ g) && decide (g ≤ 223)) || (decide (256 ≤ g) && decide (g ≤ 292))

/-- R90: one object, port, select or pin to at most one partition, none of Camlan's. -/
def rulesR90 (l : Settings) : List Broken :=
  let g (k : Nat) : List Nat := match Settings.get l (PKey.mk .partGrants k) with
    | .names x => x
    | _ => []
  ((List.range 7).map (· + 1)).flatMap (fun k =>
    chk ((g k).all (fun x => grantable x && (decide (x = 292) || !((List.range (k - 1)).any (fun j => (g (j + 1)).contains x))))) .partGrants k "R90")

/-- R228: a configured string has exactly one POS and one NEG, and at most one PRE. -/
def rulesR228 (l : Settings) : List Broken :=
  (List.range 4).flatMap (fun s =>
    let p := (cfgRole l (1 + s)).length
    let n := (cfgRole l (5 + s)).length
    let r := (cfgRole l (9 + s)).length
    let key := ((cfgRole l (1 + s)) ++ (cfgRole l (5 + s)) ++ (cfgRole l (9 + s))).headD 0
    chk (decide (p = 0 ∧ n = 0 ∧ r = 0) || decide (p = 1 ∧ n = 1 ∧ r ≤ 1)) .ctrRole key "R228")

/-- Whether any coil driver has a PRE role. -/
def cfgAnyPre (l : Settings) : Bool := (List.range 4).any (fun s => !(cfgRole l (9 + s)).isEmpty)

/-- R242: τ of at least 4 periods. -/
def rulesR242 (l : Settings) : List Broken :=
  match cfgN l .ctrPreR, cfgN l .ctrPreCbus with
  | some r, some c => chk (!cfgAnyPre l || decide (4 * (cfgN l .strokePeriod).getD 0 * 1000000 ≤ r * c)) .ctrPreCbus 0 "R242"
  | _, _ => []

/-- R252 and R254: a TRIP input has a source; a pair is named from both sides, both TRIP, with different sources. -/
def rulesSin (l : Settings) : List Broken :=
  (List.range 8).flatMap (fun n =>
    let f := cfgS l .sinFunc n
    let p := cfgS l .sinPair n
    let m := p - 1
    chk (decide (f ≠ 2) || decide (cfgS l .sinSrc n ≠ 0)) .sinSrc n "R252"
    ++ chk (decide (p = 0) || (decide (m ≠ n) && decide (cfgS l .sinPair m = n + 1) && decide (f = 2) && decide (cfgS l .sinFunc m = 2) && decide (cfgS l .sinSrc n ≠ cfgS l .sinSrc m))) .sinPair n "R254")

/-- R268: OCV rows strictly increasing in SOC, VLO < VSHUT < VHI, in a table of 1,222 bytes. -/
def tableOk (b : List Byte) : Bool :=
  let w (o : Nat) : Nat := (b.getD o 0).toNat + (b.getD (o + 1) 0).toNat * 256
  decide (b.length = 1222) && (List.range 8).all (fun j => (List.range 63).all (fun n => decide (w (144 + (64 * j + n) * 2) < w (144 + (64 * j + n + 1) * 2))))
    && decide (w 1220 < w 1218) && decide (w 1218 < w 1216)

def rulesR268 (l : Settings) : List Broken :=
  (List.range 4).flatMap (fun k => match Settings.get l (PKey.mk .estTable k) with
    | .table b => chk (tableOk b) .estTable k "R268"
    | _ => [])

/-! CAN bit timing (R292) -/

/-- Prescaler, first and second segment of a bit: the smallest prescaler that reaches the sample point [1/1,000 percent] within 1 %. -/
def canSegs (hz sp pmax s1min s1max s2min s2max : Nat) : Option (Nat × Nat × Nat) :=
  ((List.range pmax).filterMap (fun i =>
    let p := i + 1
    if hz = 0 ∨ 80000000 % (hz * p) ≠ 0 then none
    else
      let n := 80000000 / (hz * p)
      let s1 := (2 * n * sp + 100000) / 200000 - 1
      let s2 := n - 1 - s1
      let at' := (1 + s1) * 100000
      if s1min ≤ s1 ∧ s1 ≤ s1max ∧ s2min ≤ s2 ∧ s2 ≤ s2max ∧ at' ≤ sp * n + 1000 * n ∧ sp * n ≤ at' + 1000 * n then some (p, s1, s2) else none)).head?

/-- The data rate of `can.x.dbr` [bit/s], none without one. -/
def dataHz (k : Nat) : Option Nat := ([none, some 500000, some 1000000, some 2000000, some 4000000, some 5000000, some 8000000] : List (Option Nat)).getD k none

/-- A nominal bit: prescaler to 256, segments 2 to 256 and 2 to 128; a data bit: prescaler to 32, segments 1 to 32 and 1 to 16. -/
def cfgNominal (l : Settings) (x : Nat) : Option (Nat × Nat × Nat) :=
  canSegs ((cfgN l .canNbr x).getD 0).toNat ((cfgN l .canNsp x).getD 0).toNat 256 2 256 2 128

def cfgData (l : Settings) (x : Nat) : Option (Nat × Nat × Nat) :=
  match dataHz (cfgS l .canDbr x) with
  | some hz => canSegs hz ((cfgN l .canDsp x).getD 0).toNat 32 1 32 1 16
  | none => none

/-- R292: every rate is reachable. R299: columns apart and inside the period. R305: no crew link at 2 ms. -/
def rulesCan (l : Settings) : List Broken :=
  let p := ((cfgN l .strokePeriod).getD 0).toNat
  [0, 2].flatMap (fun x =>
    chk (cfgNominal l x).isSome .canNbr x "R292" ++ chk ((dataHz (cfgS l .canDbr x)).isNone || (cfgData l x).isSome) .canDbr x "R292"
    ++ (match Settings.get l (PKey.mk .canMatrix x) with
      | .matrix cols cells =>
        chk (decide (cols.length ≤ 16) && cols.all (fun c => decide (c.1 ≤ c.2) && decide (c.2 ≤ p)) && (laterPairs cols).all (fun q => decide (q.1.2 ≤ q.2.1) || decide (q.2.2 ≤ q.1.1))
          && cells.all (fun c => decide (c.1 < 64) && decide (c.2.1 < cols.length) && decide (c.2.2.1 < 3) && decide (c.2.2.2 < 32))) .canMatrix x "R299"
      | _ => []))
  ++ chk (decide (cfgS l .crewEnable = 0) || decide (p ≠ 2000)) .crewEnable 0 "R305"

/-- R401: 2 × mdi.ilim × mdi.rsense up to 250 mV. R408: the vendor is shut out only with a service slot enrolled. -/
def rulesMisc (l : Settings) : List Broken :=
  chk (decide (2 * (cfgN l .mdiIlim).getD 0 * (cfgN l .mdiRsense).getD 0 ≤ 250 * 1000000)) .mdiIlim 0 "R401"
  ++ chk (decide (cfgS l .secVendorService = 1) || (List.range 4).any (fun n => decide (Settings.get l (PKey.mk .secSvcKeyhash n) ≠ .absent))) .secVendorService 0 "R408"

/-- R414: what a configured function requires. -/
def rulesR414 (l : Settings) : List Broken :=
  let has (n : PName) (i : Nat) : Bool := decide (Settings.get l (PKey.mk n i) ≠ .absent)
  let roles := (List.range 12).filter (fun c => cfgS l .ctrRole c != 0)
  roles.flatMap (fun c => chk (has .ctrIbreak c) .ctrIbreak c "R414")
  ++ (if roles.isEmpty then [] else chk (has .pumpCpump 0) .pumpCpump 0 "R414")
  ++ (cfgStrings l).flatMap (fun s => chk (has .estCap s) .estCap s "R414")
  ++ (if cfgAnyPre l then [PName.ctrPreR, .ctrPreCbus, .ctrPreErated].flatMap (fun n => chk (has n 0) n 0 "R414") else [])
  ++ (if (cfgStrings l).isEmpty then [] else [PName.imdRinj, .imdRmeas, .imdVref].flatMap (fun n => chk (has n 0) n 0 "R414"))

/-- Every rule that a configuration breaks, in one fixed order (R338; DESIGN CHOICE, log entry 41 for the order). -/
def brokenRules (l : Settings) (changed : List PName) : List Broken :=
  rulesR6 l ++ rulesR33 l ++ rulesR36 l changed ++ rulesR84 l ++ rulesSpans l ++ rulesR90 l ++ rulesR228 l ++ rulesR242 l ++ rulesSin l ++ rulesR268 l
    ++ rulesCan l ++ rulesMisc l ++ rulesR414 l

end Sys2Proof.Machine
end

