-- ==== Sys2Proof/Machine/Operands.lean ====
section
/-!
DEFINITION. Operand forms: register accesses by access code (R7, R8, R22, R23), order kinds and targets (R42, Table 4-6), coil roles (R228), HVS and current values in physical units (R161, R170).
-/

namespace Sys2Proof.Machine

/-! Register accesses -/

/-- What a software write leaves in a register: RW bits take the value, W1C bits written as 1 clear, every other bit keeps its state (R7, R8). -/
def writeByAccess (r : RegRow) (old v : Nat) : Nat :=
  let kept := old - (old &&& r.rw)
  let cleared := kept - (kept &&& (r.w1c &&& v))
  cleared + (v &&& r.rw)

/-- Whether a requester may write a peripheral register (Table 1-4): the Cox everywhere but DBG; a tenant only what a grant admits, judged for its partition by `tenantWrites`. -/
def coxBlockWritable (a : Nat) : Bool := decide (a / 4096 ≠ 0x40020)

/-- The Scull of a requester in either mode (R17). -/
def Requester.scull? : Requester → Option Nat
  | .scull0 | .monitor0 => some 0
  | .scull1 | .monitor1 => some 1
  | .scull2 | .monitor2 => some 2
  | .scull3 | .monitor3 => some 3
  | _ => none

/-- The requester is the partition monitor: a Scull in machine mode. -/
def Requester.isMonitor : Requester → Bool
  | .monitor0 | .monitor1 | .monitor2 | .monitor3 => true
  | _ => false

/-- The partition number that a Scull's request carries, 0 for none (R17). -/
def State.slotOf (s : State) (rq : Requester) : Nat :=
  match Requester.scull? rq with
  | some sc => (Tab.get ScullSt.init s.sculls sc).part
  | none => 0

/-- The partition for which a Scull asks in user mode, 0 for none. -/
def State.partOf (s : State) (rq : Requester) : Nat := if Requester.isMonitor rq then 0 else s.slotOf rq

/-- The registers of LOG that a tenant with its LOG grant reaches (Table 15-8): submission, cursor, window, release, and its own book's. -/
def logWindow (k off : Nat) (write : Bool) : Bool :=
  (decide (0x020 ≤ off) && decide (off ≤ 0x044)) || decide (off = 0x080) || decide (off = 0x084)
    || (!write && (decide (off = 0x048) || (decide (0x060 ≤ off) && decide (off ≤ 0x07C)) || decide (off / 16 = 0x10 + (1 + k))))

/-- The grant filter for a tenant's access to a block that takes a grant (R89, Table 1-4): CAN objects by their grant, CON1 whole, QSEL queues, GPIO pins, the own logbook window. -/
def State.tenantGranted (s : State) (k a : Nat) (write : Bool) : Bool :=
  let g (b : Nat) : Bool := s.granted k .misc b
  let any (l : List GrantReg) : Bool := l.any (fun r => decide (s.grant k r ≠ 0))
  decide (1 ≤ k) &&
    (if a / 4096 = 0x40018 then g 0
     else if a / 4096 = 0x40019 then g 4 && logWindow k (a % 4096) write
     else if a / 4096 = 0x4001C then g 1 || g 2 || g 3
     else if a / 4096 = 0x4001D then any [.gpio]
     else if a / 4096 = 0x40014 then any [.atx, .arx0, .arx1]
     else if a / 4096 = 0x40016 then any [.ctx, .crx0, .crx1]
     else false)

/-- Whether a tenant may write a peripheral register (R23). -/
def State.tenantWrites (s : State) (k a : Nat) : Bool := s.tenantGranted k a true

/-- Whether a requester may write a peripheral register (R23): the monitor none. -/
def State.mayWrite (s : State) (rq : Requester) (a : Nat) : Bool :=
  match rq with
  | .cox => coxBlockWritable a
  | .scull0 | .scull1 | .scull2 | .scull3 => s.tenantWrites (s.partOf rq) a
  | _ => false

/-- Whether a tenant may read a peripheral register (Table 1-4): SYS to 0x014, STK, its own page, and what its grants admit. -/
def State.tenantReads (s : State) (k a : Nat) : Bool :=
  s.tenantGranted k a false || decide (a / 4096 = 0x40003) || (decide (0x40000000 ≤ a) && decide (a ≤ 0x40000017))
    || (decide (1 ≤ k) && decide (a / 256 = (0x40006800 + (k - 1) * 0x100) / 256))

/-- The blocks the partition monitor may read (Table 1-4): SYS, RST, LCS, STK, PART, CLK. -/
def monitorReads (a : Nat) : Bool := ([0x40000, 0x40001, 0x40002, 0x40003, 0x40006, 0x4001E] : List Nat).contains (a / 4096)

/-- Whether a requester may read a peripheral register (R23). -/
def State.mayRead (s : State) (rq : Requester) (a : Nat) : Bool :=
  match rq with
  | .cox => true
  | .scull0 | .scull1 | .scull2 | .scull3 => s.tenantReads (s.partOf rq) a
  | .monitor0 | .monitor1 | .monitor2 | .monitor3 => monitorReads a
  | _ => false

/-- Registers held per requester (†: LOG submit, cursor and window; STK.TIMEH; CAN WSEL and WBUF). -/
def perRequester (a : Nat) : Bool :=
  (decide (0x40019020 ≤ a) && decide (a ≤ 0x4001907C)) || decide (a = Reg.STK_TIMEH)
    || ((decide (a / 4096 = 0x40014) || decide (a / 4096 = 0x40015) || decide (a / 4096 = 0x40016))
        && (decide (a % 4096 = 0x0C0) || (decide (0x100 ≤ a % 4096) && decide (a % 4096 ≤ 0x147))))

/-- Where a requester's access to a register goes. -/
def regFor (rq : Requester) (a : Nat) : Nat := if perRequester a then rqReg rq a else a

/-! Orders -/

abbrev kOpen : Nat := 1
abbrev kClose : Nat := 2
abbrev kDerate : Nat := 3
abbrev kRaise : Nat := 4
abbrev kTake : Nat := 5
abbrev kRelease : Nat := 6

abbrev tBattery : Nat := 4
abbrev tMdi : Nat := 5
/-- The pre-charge path, on which an OPEN or CLOSE of BATTERY counts beside the strings (R42); no order names it alone. -/
abbrev tPre : Nat := 6
abbrev tChgBat : Nat := 0x14
abbrev tDisBat : Nat := 0x1C

/-- Whether a target is a limit (Table 4-6). -/
def isLimit (t : Nat) : Bool := (decide (0x10 ≤ t) && decide (t ≤ 0x14)) || (decide (0x18 ≤ t) && decide (t ≤ 0x1C))

/-- The coil with a role: 1 + s POS, 5 + s NEG, 9 + s PRE (R228). -/
def State.coilOf (s : State) (role : Nat) : Option Nat := (List.range 12).find? (fun c => s.parS .ctrRole c == role)

def State.posOf (s : State) (str : Nat) : Option Nat := s.coilOf (1 + str)
def State.negOf (s : State) (str : Nat) : Option Nat := s.coilOf (5 + str)
def State.preOf (s : State) (str : Nat) : Option Nat := s.coilOf (9 + str)

/-- Whether a string is configured: it has a POS (R228). -/
def State.strConf (s : State) (str : Nat) : Bool := decide (str < 4) && (s.posOf str).isSome

/-- The configured strings in ascending order. -/
def State.strings (s : State) : List Nat := (List.range 4).filter s.strConf

/-- The capacity C of a string [mAh], read in mA for its C-rates. -/
def State.capMah (s : State) (str : Nat) : Int := s.parN .estCap str

/-- C of the battery [mA]: the sum over the configured strings. -/
def State.capBat (s : State) : Int := (s.strings.map s.capMah).foldl (· + ·) 0

/-- `est.s.imax_chg` [mA], 1C by default. -/
def State.imaxChg (s : State) (str : Nat) : Int := (s.parN? .estImaxChg str).getD (s.capMah str)
def State.imaxDis (s : State) (str : Nat) : Int := (s.parN? .estImaxDis str).getD (s.capMah str)

/-- The maximum of a limit target [mA] (R42). -/
def State.targetMax (s : State) (t : Nat) : Int :=
  if t = tChgBat then (s.strings.map s.imaxChg).foldl (· + ·) 0
  else if t = tDisBat then (s.strings.map s.imaxDis).foldl (· + ·) 0
  else if t < 0x14 then s.imaxChg (t - 0x10) else s.imaxDis (t - 0x18)

/-- The standing value of a limit target [mA] (R42). -/
def State.standing (s : State) (t : Nat) : Int := Tab.get 0 s.cam.standing t

def State.setStanding (s : State) (t : Nat) (v : Int) : State :=
  { s with cam := { s.cam with standing := Tab.put 0 s.cam.standing t v } }

/-- The ten limit targets. -/
def limitTargets : List Nat := [0x10, 0x11, 0x12, 0x13, 0x14, 0x18, 0x19, 0x1A, 0x1B, 0x1C]

/-- Whether R42 admits an order of a kind on a target with a value. -/
def State.admits (s : State) (kind target : Nat) (value : Int) : Bool :=
  if kind = kTake ∨ kind = kRelease then true
  else if kind = kOpen ∨ kind = kClose then
    (if target < 4 then s.strConf target
     else if target = tBattery then !s.strings.isEmpty
     else decide (target = tMdi) && s.parS .mdiFitted == 1)
  else if kind = kDerate ∨ kind = kRaise then
    isLimit target && (if target = tChgBat ∨ target = tDisBat then !s.strings.isEmpty else s.strConf (target % 8))
      && decide (0 ≤ value) && decide (value ≤ s.targetMax target)
  else false

/-- Whether an admitted order closes: CLOSE, or a limit above the standing value (R42). -/
def State.closingOrder (s : State) (o : Order) : Bool :=
  decide (o.kind = kClose) || ((decide (o.kind = kDerate) || decide (o.kind = kRaise)) && decide (s.standing o.target < o.value))

/-- The kind of an admitted order (R42): a limit below the standing value is a DERATE, one above it a RAISE, whatever kind its source named; one equal to it keeps the kind named. -/
def State.orderKind (s : State) (o : Order) : Nat :=
  if o.kind = kDerate ∨ o.kind = kRaise then
    (if o.value < s.standing o.target then kDerate else if s.standing o.target < o.value then kRaise else o.kind)
  else o.kind

def Order.helmKind (o : Order) : Bool := decide (o.kind = kTake) || decide (o.kind = kRelease)

/-! Measured values in physical units -/

/-- The HVS code of a channel in the catch bank: 0 to 3 VS0 to VS3, 4 VBUS, 5 VPRE (Table 2-10). -/
def State.hvsCode (s : State) (c : Nat) : Nat :=
  if c < 2 then s.fld Reg.AGR_C_HVS0 (16 * c) 16 else if c < 4 then s.fld Reg.AGR_C_HVS1 (16 * (c - 2)) 16 else s.fld Reg.AGR_C_HVS2 (16 * (c - 4)) 16

/-- A MEAN code as millivolts: code × 1.25 / 65,536 × hvs.ratio.c (R170). -/
def State.codeMv (s : State) (c code : Nat) : Nat := (roundDiv ((code : Int) * 1250 * s.parN .hvsRatio c) (65536 * 1000)).toNat

/-- The voltage of an HVS channel in the catch bank [mV]. -/
def State.volt (s : State) (c : Nat) : Nat := s.codeMv c (s.hvsCode c)

abbrev chBus : Nat := 4
abbrev chPre : Nat := 5

/-- The temperature of a valid local NTC input [0.01 °C], none when open, shorted, disabled or outside −40 to +150 °C (R174, R175). -/
def State.ntcOf (s : State) (m code : Nat) : Option Int :=
  if !(s.parL .tmpEn).contains m || decide (63570 < code) || decide (code < 1966) then none
  else
    let rntc : Rat := (10000 * code : Rat) / ((65536 : Int) - code)
    let inv : Rat := (20 : Rat) / 5963 + Config.ln (rntc / ((s.parN .tmpR25 m : Rat) / 1000)) / ((s.parN .tmpBeta m : Rat) / 1000)
    if inv ≤ 0 then none
    else
      let t := roundRat ((1 / inv - (27315 : Rat) / 100) * 100)
      if t < -4000 ∨ 15000 < t then none else some t

/-- The code of a local NTC input in the catch bank. -/
def State.ltCode (s : State) (m : Nat) : Nat := s.fld (Reg.AGR_C_TMP (m / 2)) (16 * (m % 2)) 16

/-- The shunt resistance at the present shunt temperature [nΩ]: meas.rshunt × (1 + tcr × 10⁻⁶ × (T − 25 °C)); T is 25 °C without a valid input (R161). -/
def State.rshunt (s : State) : Rat :=
  let r0 : Rat := (s.parN .measRshunt : Rat)
  let lt := s.parS .measShuntLt
  let t : Int := if lt = 0 then 2500 else (s.ntcOf (lt - 1) (s.ltCode (lt - 1))).getD 2500
  r0 * (1 + (s.parN .measShuntTcr : Rat) / 1000 / 1000000 * ((t : Rat) / 100 - 25))

/-- The larger magnitude of FCS.SMINMAX, in LSB (R257). -/
def State.strokeMaxLsb (s : State) : Nat :=
  max (signed 12 (s.fld Reg.FCS_SMINMAX 0 12)).natAbs (signed 12 (s.fld Reg.FCS_SMINMAX 16 12)).natAbs

/-- An FCS magnitude in LSB of 200 mV / 2,048 as milliamperes (R162). -/
def State.lsbMa (s : State) (n : Nat) : Nat :=
  if s.rshunt ≤ 0 then 0 else (roundRat ((n : Rat) * 200000000 / 2048 * 1000 / s.rshunt)).toNat

/-- The FCS stroke maximum [mA]. -/
def State.strokeMaxMa (s : State) : Nat := s.lsbMa s.strokeMaxLsb

/-- Grade 0 is the RN6400-E, 1 the RN6400-X (Table 1-6). -/
def State.gradeX (s : State) : Bool := s.bit Reg.SYS_GRADE 0

end Sys2Proof.Machine
end

