-- ==== Sys2Proof/Machine/Ecc.lean ====
section
/-!
DEFINITION. The error code of the memories: check bits over data and folded address, syndromes and classes of a read (R65, R66).
-/

namespace Sys2Proof.Machine

/-- The memory with check bits that holds an address (Table 1-3, R65). -/
def memOf (a : Nat) : Option EccMem :=
  if 0x10000000 ≤ a ∧ a ≤ 0x1003FFFF then some .itcm
  else if 0x10100000 ≤ a ∧ a ≤ 0x1011FFFF then some .dtcm
  else if 0x20000000 ≤ a ∧ a ≤ 0x203FFFFF then some .sram
  else if inEflash a then some .eflash
  else none

/-- Data bits, folded address bits and check bits of a memory (R65). -/
def codeShape : EccMem → Nat × Nat × Nat
  | .itcm => (32, 16, 7)
  | .dtcm => (32, 15, 7)
  | .sram => (32, 20, 7)
  | .eflash => (64, 19, 8)

/-- Where a memory begins (Table 1-3). -/
def memBase : EccMem → Nat
  | .itcm => 0x10000000
  | .dtcm => 0x10100000
  | .sram => 0x20000000
  | .eflash => 0x08000000

/-- The bytes of a protected word. -/
def wordBytes (m : EccMem) : Nat := (codeShape m).1 / 8

/-- The number of the word within its memory: what is folded into the code (R65). -/
def wordIndex (m : EccMem) (a : Nat) : Nat := (a - memBase m) / wordBytes m

/-- The parity of the low n bits of a number. -/
def parityOf (n v : Nat) : Nat := (List.range n).foldl (fun p b => (p + getField v b 1) % 2) 0

/-- The position of the i-th bit in the Hamming code: the numbers from 3 that are no power of 2, in order. -/
def hammingPlace (i : Nat) : Nat := ((List.range 256).filter (fun p => decide (3 ≤ p) && decide (2 ^ Nat.log2 p ≠ p))).getD i 0

/-- The column of the i-th bit of data and address under r check bits: its position, with the last check bit chosen so that the weight is odd, as R66 needs (DESIGN CHOICE, log entry 141). -/
def hammingColumn (r i : Nat) : Nat :=
  let p := hammingPlace i
  p + (if parityOf (r - 1) p = 0 then 2 ^ (r - 1) else 0)

/-- The check bits of a word and its address (R65): the columns of the bits that are 1, added. -/
def checkBits (m : EccMem) (index data : Nat) : Nat :=
  let (n, k, r) := codeShape m
  let whole := data % 2 ^ n + index % 2 ^ k * 2 ^ n
  (List.range (n + k)).foldl (fun c i => if getField whole i 1 = 1 then c ^^^ hammingColumn r i else c) 0

/-- The check bits stored with the word at an address: those of its last write (R65). -/
def State.storedCheck (s : State) (m : EccMem) (a : Nat) : Nat :=
  checkBits m (wordIndex m a) (s.ld (memBase m + wordIndex m a * wordBytes m) (wordBytes m))

/-- The classes of a read (R66). -/
inductive EccClass where
  | clean
  /-- the corrected data -/
  | corrected (data : Nat)
  | address
  | uncorrectable
  deriving DecidableEq, Repr

/-- The syndrome of a read: the check bits recomputed, added to those stored (R65). -/
def eccSyndrome (m : EccMem) (index data check : Nat) : Nat := checkBits m index data ^^^ (check % 2 ^ (codeShape m).2.2)

/-- The class of a read: the check bits recomputed from the data read and the address requested, against those stored (R65, R66). -/
def eccClass (m : EccMem) (index data check : Nat) : EccClass :=
  let (n, k, r) := codeShape m
  let syn := eccSyndrome m index data check
  if syn = 0 then .clean
  else match (List.range (n + k)).find? (fun i => decide (hammingColumn r i = syn)) with
    | some i => if i < n then .corrected (putField (data % 2 ^ n) i 1 (1 - getField data i 1)) else .address
    | none => if (List.range r).any (fun j => decide (2 ^ j = syn)) then .corrected (data % 2 ^ n) else .uncorrectable

/-- A fatal class: ADDRESS or UNCORRECTABLE (R66). -/
def EccClass.fatal : EccClass → Bool
  | .address | .uncorrectable => true
  | _ => false

end Sys2Proof.Machine
end

