-- ==== Sys2Proof/Machine/Tally.lean ====
section
/-!
DEFINITION. The tally: slots in eflash, OP and ACC counters, compaction (R358 to R364, Table 15-6).
-/

namespace Sys2Proof.Machine

/-- The 44 live counters (Table 15-6). -/
def tallyIds : List Nat :=
  [0x01, 0x03, 0x04, 0x05, 0x06, 0x07] ++ (List.range 12).map (· + 0x10) ++ [0x20] ++ (List.range 4).map (· + 0x24) ++ [0x30, 0x31]
    ++ (List.range 10).map (· + 0x40) ++ (List.range 5).map (· + 0x50) ++ [0x60, 0x70, 0x71, 0x72]

/-- The address of a tally slot: sectors of eflash bank 1, 512 slots of 16 bytes (R358). -/
def tallyAddr (sector slot : Nat) : Nat := 0x08200000 + sector * 0x2000 + slot * 16

/-- The bytes of a tally slot (Table 15-5). -/
def tallySlot (id gen v : Nat) : List Byte :=
  let b := u16 id ++ u16 gen ++ u32 v ++ u32 (v / 2 ^ 32) ++ u16 0xFFFF
  b ++ u16 (crc16 b)

/-- A counter's committed value: that of its last valid entry, 0 without one (R360). -/
def State.tallyVal (s : State) (id : Nat) : Nat := Tab.get 0 s.nv.tally id

/-- One entry appended to the active sector (R358). -/
def State.tallyAppend (s : State) (id v : Nat) : State :=
  let s := s.wrBytes (tallyAddr s.nv.tallyActive s.nv.tallyNext) (tallySlot id s.nv.tallyGen v)
  { s with nv := { s.nv with tally := Tab.put 0 s.nv.tally id v, tallyNext := s.nv.tallyNext + 1 } }

/-- The sector not in use. -/
def otherSector (n : Nat) : Nat := if n = 254 then 255 else 254

/-- An erase counter passing 50,000 or 90,000 is logged with 0x0F12 (R364). -/
def State.eraseMilestone (s : State) (sector n : Nat) : State :=
  if n = 50001 ∨ n = 90001 then s.logS 0x0F12 (u8 sector ++ u32 n) else s

/-- Compaction: erase the other sector, write the last value of every counter, then the header with the next generation; the new sector becomes active (R361). -/
def State.tallyCompact (s : State) : State :=
  let new := otherSector s.nv.tallyActive
  let idErase := if new = 254 then 0x70 else 0x71
  let n := s.tallyVal idErase + 1
  let gen := s.nv.tallyGen + 1
  let s := s.clearMem (tallyAddr new 0) (tallyAddr new 512)
  let s := { s with nv := { s.nv with tally := Tab.put 0 s.nv.tally idErase n, tallyActive := new, tallyGen := gen, tallyNext := 1 } }
  let s := tallyIds.foldl (fun s id => s.tallyAppend id (s.tallyVal id)) s
  let s := s.wrBytes (tallyAddr new 0) (tallySlot 0xFFF0 gen gen)
  (s.logS 0x0F10 (u8 new ++ u32 gen ++ u8 tallyIds.length)).eraseMilestone new n

/-- An entry written, after compaction when the active sector has no free slot (R361). -/
def State.tallyWrite (s : State) (id v : Nat) : State :=
  (if 511 < s.nv.tallyNext then s.tallyCompact else s).tallyAppend id v

/-- Whether a counter is frozen: in RETIRED all but run_s and refresh_pos (R362). -/
def State.tallyFrozen (s : State) (id : Nat) : Bool := decide (s.lcs = lcsRetired) && decide (id ≠ 0x01) && decide (id ≠ 0x72)

/-- Increments kept for a counter after failed writes (R363). -/
def State.tallyKept (s : State) (id : Nat) : Nat := Tab.get 0 s.tally.keptOps id

/-- An OP counter counts before its act (R362). What Camlan counts at a catch makes one entry for each counter, written at its end; where an entry fails verification three times the increment is kept until a write succeeds (R363). (DEDUCED, log entry 84) -/
def State.tallyOp (s : State) (id : Nat) : State :=
  if s.tallyFrozen id then s
  else if s.tally.bad || decide (s.acts ≠ .idle) then
    { s with tally := { s.tally with keptOps := Tab.put 0 s.tally.keptOps id (s.tallyKept id + 1), failed := s.tally.failed || s.tally.bad } }
  else
    let n := s.tallyKept id
    ({ s with tally := { s.tally with keptOps := Tab.put 0 s.tally.keptOps id 0 } }).tallyWrite id (s.tallyVal id + n + 1)

/-- A closing act that would wait for an entry that fails is not performed (R363). -/
def State.tallyDeny (s : State) : State := { s with tally := { s.tally with failed := true } }

/-- Kept increments are written when writes succeed again (R363). -/
def State.tallyFlush (s : State) : State :=
  if s.tally.bad then s
  else
    let l := s.tally.keptOps
    l.foldl (fun s e => if e.2 = 0 then s else s.tallyWrite e.1 (s.tallyVal e.1 + e.2)) { s with tally := { s.tally with keptOps := [] } }

/-- Powered time is summed (R362); each multiple of 259,200 s that `run_s` passes makes a refresh due (R366). -/
def State.runFor (s : State) (n : Nat) : State :=
  let old := s.tallyVal 0x01 + Tab.get 0 s.tally.acc 0x01
  { s with tally := { s.tally with acc := Tab.put 0 s.tally.acc 0x01 (Tab.get 0 s.tally.acc 0x01 + n), due := s.tally.due + ((old + n) / 259200 - old / 259200) } }

/-- An ACC counter is summed in DTCM (R362). -/
def State.tallyAcc (s : State) (id n : Nat) : State :=
  { s with tally := { s.tally with acc := Tab.put 0 s.tally.acc id (Tab.get 0 s.tally.acc id + n) } }

/-- Every ACC sum is committed (R362). -/
def State.tallyCommit (s : State) : State :=
  let l := s.tally.acc
  let s := { s with tally := { s.tally with acc := [] } }
  l.foldl (fun s e => if s.tallyFrozen e.1 then s else s.tallyWrite e.1 (s.tallyVal e.1 + e.2)) s

end Sys2Proof.Machine
end

