-- ==== Sys2Proof/Machine/Orders.lean ====
section
/-!
DEFINITION. Orders, the helm, easy, and the resolution of an order set (R42 to R55, R416, R421).
-/

namespace Sys2Proof.Machine

/-! Order sets -/

/-- An order enters the set of the present stroke with its stamp (R43). -/
def State.placeOrder (s : State) (source rank kind target : Nat) (value : Int) (ref stamp : Nat) (origin : Origin) : State :=
  let o : Order := ⟨source, rank, kind, target, value, ref, stamp, s.strokeNo, decide (s.cam.state = .stake), origin⟩
  { s with cam := { s.cam with orders := s.cam.orders ++ [o] } }

/-- A rank-1 OPEN order of Camlan protection (R47). -/
def State.protectOpen (s : State) (target : Nat) : State := s.placeOrder 0 1 kOpen target 0 0 s.now .camlan

/-! The helm -/

/-- Whether a source code is a partition's, and which (Table 2-2). -/
def partOfSource (src : Nat) : Option Nat := if 0x21 ≤ src ∧ src ≤ 0x27 then some (src - 0x20) else none

/-- The console port of a source code. -/
def portOfSource (src : Nat) : Option Nat := if src = 0x10 ∨ src = 0x11 then some (src - 0x10) else none

/-- The rank of a partition's orders: P1 6 to P7 12 (Table 2-2). -/
def partRank (k : Nat) : Nat := 5 + k

/-- Base of a partition's order mailbox (Table 1-3). -/
def mailbox (k : Nat) : Nat := 0x203F0000 + (k - 1) * 0x1000

/-- The helm passes to a holder; the change is logged in the safety book and TL0 with code 0x0224 (R50, Table 2-8). -/
def State.setHelm (s : State) (h : Helm) (cause : Nat) : State :=
  let old := s.cam.helm.holder
  ({ s with cam := { s.cam with helm := h } }).logS0 0x0224 (u8 old ++ u8 h.holder ++ u8 cause)

/-- The helm is freed without an order (R50): a console that held it receives the notice `helm freed`. -/
def State.freeHelm (s : State) (cause : Nat) : State :=
  if s.cam.helm.holder = 0xFF then s
  else
    let old := s.cam.helm.holder
    let s' := s.setHelm Helm.free cause
    match portOfSource old with
    | some p =>
      let why := if cause = 6 then "logout" else if cause = 7 then "timeout" else if cause = 8 then "lockout" else "easy"
      s'.notice p ("helm freed cause=" ++ why)
    | none => s'

/-- The helm is freed when a given source holds it. -/
def State.freeHelmOf (s : State) (src cause : Nat) : State := if s.cam.helm.holder = src then s.freeHelm cause else s

/-- A frame of the crew link in the form of an outcome frame (Table 13-8): LEADSTROKE answered, COUNT, the area of the entries, and the surge fields. -/
def State.crewFrame (s : State) (lead count : Nat) (area : List Byte) (sresult ticket : Nat) (spower : Int) (stime sref : Nat) : List Byte :=
  u8 1 ++ u8 (s.parI .crewLane) ++ u8 count ++ [0] ++ u32 lead ++ (area ++ List.replicate 36 (0 : Byte)).take 36
    ++ u8 sresult ++ [0, 0, 0] ++ u32 ticket ++ s32 spower ++ u32 stime ++ u32 sref

/-- The notice HELM_TAKEN to a crew leader: an outcome frame with COUNT 0 (R315); its OUTCOME and WINNER bytes name the notice and the new holder. (DESIGN CHOICE, log entry 126) -/
def State.crewHelmTaken (s : State) (holder : Nat) : State :=
  { s with crew := { s.crew with outs := s.crew.outs ++ [s.crewFrame s.crew.lastRef 0 (u8 0x10 ++ [0, 0] ++ u8 holder) 0xFF 0 0 0 0] } }

/-- TAKE_HELM succeeds: the former holder receives HELM_TAKEN in its mailbox, on its console or in a frame of the crew link (R49, R100, R315). -/
def State.takeHelm (s : State) (o : Order) : State :=
  let old := s.cam.helm.holder
  let s' := s.setHelm ⟨o.source, o.rank, o.stamp, s.strokeNo⟩ (if old = 0xFF then 1 else 2)
  match partOfSource old with
  | some k => (s'.st (mailbox k + 0x808) 4 (o.source + 0x10 * 256 + s.strokeNo % 65536 * 65536)).setEvp k 4
  | none =>
    match portOfSource old with
    | some p => s'.notice p ("helm taken by=" ++ hex0x o.source)
    | none => if old = 0x18 then s'.crewHelmTaken o.source else s'

/-! Easy -/

/-- Camlan is in easy; entered in the stake-boat interval, easy shows the interval's state until its end (R54, R128). -/
def State.inEasy (s : State) : Bool := decide (s.cam.state = .easy) || (decide (s.cam.state = .stake) && !s.cam.easyCauses.isEmpty)

/-- EASYCAUSE of the cell view: the cause of entry until easy is left (R416). -/
def State.easyCause (s : State) : Nat := if s.inEasy then s.cam.easyCauses.headD 0 else 0

/-- Every string is to be opened, as for OPEN BATTERY (R54). -/
def State.openAll (s : State) : State :=
  s.strings.foldl (fun s i =>
    let st := Tab.get StrSt.init s.ctr.strs i
    { s with ctr := { s.ctr with strs := Tab.put StrSt.init s.ctr.strs i { st with wantOpen := true, closing := false } } }) s

/-- A cause of easy waits for the end of the stake-boat interval (R129). -/
def State.easyHeld (s : State) (cause : Nat) : State :=
  if s.cam.selfTest.contains cause then s else { s with cam := { s.cam with selfTest := s.cam.selfTest ++ [cause] } }

/-- A cause of easy takes effect (R54, R416): it is logged with 0x0202; outside easy Camlan enters easy, frees the helm and opens every contactor. -/
def State.easyNow (s : State) (cause : Nat) : State :=
  let s := s.logS 0x0202 (u8 cause)
  if s.inEasy then { s with cam := { s.cam with easyCauses := s.cam.easyCauses ++ [cause] } }
  else
    let s := { s with cam := { s.cam with state := if s.cam.state = CamState.stake then .stake else .easy, easyCauses := [cause], quietSince := none } }
    let s := (s.tallyOp 0x50).freeHelm 10
    ((s.openAll).setEvpAll 0x80).noticeAll ("easy cause=" ++ hex0x cause)

/-- A cause of easy arises (R54, R416): before the stroke timer starts it waits for the end of the interval (DEDUCED, log entry 112); among the acts of one catch it waits until Camlan has found every cause of that catch; otherwise it takes effect at once. -/
def State.easy (s : State) (cause : Nat) : State :=
  if s.cam.state = .idle then s.easyHeld cause
  else
    match s.acts with
    | .finding l => { s with acts := .finding (l ++ [cause]) }
    | _ => s.easyNow cause

/-- A failed self-test of the interval makes Camlan enter easy at its end (R129, R167, R237). -/
def State.easyAtEnd (s : State) (cause : Nat) : State :=
  if s.cam.state = .idle ∨ s.cam.state = .stake then s.easyHeld cause else s.easy cause

/-- Several causes at one moment: the lowest is the cause of entry, the others follow in ascending order (R416). -/
def State.easyMany (s : State) (causes : List Nat) : State :=
  ((List.range 256).filter (fun c => causes.contains c)).foldl State.easyNow s

/-- Camlan begins to look for causes of easy at a catch (R416). -/
def State.findCauses (s : State) : State := { s with acts := .finding [] }

/-- The causes found. -/
def CatchActs.causes : CatchActs → List Nat
  | .finding l => l
  | _ => []

/-- The causes found take effect in ascending order (R416). -/
def State.takeCauses (s : State) : State := ({ s with acts := .counting }).easyMany s.acts.causes

/-- Easy is left: 0 by `clear easy`, 1 automatically (R54, R55). -/
def State.leaveEasy (s : State) (how : Nat) : State :=
  let s := { s with cam := { s.cam with state := if s.cam.state = CamState.stake then .stake else .run, easyCauses := [], quietSince := none } }
  (s.logS 0x0203 (u8 how)).noticeAll "easy left"

/-! Resolution (R51) -/

/-- The targets an order covers: a BATTERY OPEN or CLOSE counts on each configured string and on the pre-charge path (R42); helm orders cover none. -/
def State.covers (s : State) (o : Order) : List Nat :=
  if o.helmKind then []
  else if o.target = tBattery ∧ (o.kind = kOpen ∨ o.kind = kClose) then s.strings ++ [tPre] else [o.target]

/-- Orders with their place in the set: the higher place is the later order (R43, R98). -/
abbrev Placed := Nat × Order

/-- Whether a later order of the same source covers the target (R43). -/
def State.supersededOn (s : State) (l : List Placed) (p : Placed) (t : Nat) : Bool :=
  l.any (fun q => decide (p.1 < q.1) && decide (q.2.source = p.2.source) && (s.covers q.2).contains t)

/-- The targets on which an order still counts. -/
def State.counting (s : State) (l : List Placed) (p : Placed) : List Nat :=
  (s.covers p.2).filter (fun t => !s.supersededOn l p t)

/-- The targets that decide an order's one outcome: a BATTERY order is judged on its strings alone (R52). -/
def State.judged (s : State) (l : List Placed) (p : Placed) : List Nat :=
  (s.counting l p).filter (fun t => decide (t ≠ tPre))

/-- Camlan's state refuses a closing order: in easy, stamped in the stake-boat interval, by the life cycle (Table 5-6), while the return to SEALED is blocked (R410), and after an insulation alarm (R51, R266). -/
def State.stateRefuses (s : State) (o : Order) : Bool :=
  s.inEasy || o.inStake || decide (s.lcs = lcsBlank) || decide (s.lcs = lcsRetired)
    || (decide (s.lcs = lcsService) && decide (o.rank ≠ 3)) || s.imd.refuse || s.cam.svcBlocked

/-- Pre-charge is needed when |VSs − VBUS| exceeds max(2 % of VSs, 5 V) and no string is CLOSED (R242, R247). -/
def State.busLive (s : State) : Bool := s.strings.any (fun i => (Tab.get StrSt.init s.ctr.strs i).st == 4)

def State.needsPre (s : State) (i : Nat) : Bool :=
  !s.busLive && decide (max (s.volt i / 50) 5000 < ((s.volt i : Int) - s.volt chBus).natAbs)

/-- Whether a string's pre-charge path is locked out and the string needs it (R246). -/
def State.strLocked (s : State) (i : Nat) : Bool := s.nv.preLock.contains i && (s.preOf i).isSome && s.needsPre i

/-- A closing order its target refuses (R51 step 4, R235, R246, R258, R260); a closing act whose tally entry fails is refused too (R363). (DEDUCED, log entry 76) A BATTERY order is refused for any configured string, also one on which it was superseded. (DESIGN CHOICE, log entry 128) -/
def State.targetRefuses (s : State) (o : Order) : Bool :=
  let mdiNotClosed := s.parS .mdiFitted == 1 && decide (s.mdi.st ≠ 3)
  if o.kind = kClose ∧ s.tally.bad then true
  else if o.kind = kClose ∧ o.target = tMdi then (decide (s.mdi.st = 5) || decide (s.mdi.st = 4)) && s.mdi.target == 0 || decide (s.mdi.st = 1)
  else if o.kind = kClose then
    mdiNotClosed || (s.covers o).any (fun t => decide (t < 4) && ((Tab.get StrSt.init s.ctr.strs t).st == 5 || s.strLocked t))
  else false

/-- Order a precedes order b: higher rank, then the earlier stamp modulo 2^48 (R29), then the lower source code (R51). -/
def Order.beats (a b : Order) : Bool :=
  decide (a.rank < b.rank)
    || (decide (a.rank = b.rank)
      && (stampLt a.stamp b.stamp || (decide (a.stamp % 2 ^ 48 = b.stamp % 2 ^ 48) && decide (a.source < b.source))))

/-- The winner of a list of orders: one that no other beats, the later of two of the same source and stamp. -/
def winner : List Placed → Option Placed
  | [] => none
  | p :: t =>
    match winner t with
    | none => some p
    | some q => if Order.beats p.2 q.2 then some p else some q

/-- What step 2 of a resolution leaves: the state with the helm changed, the places of the TAKE_HELM orders that failed, and those that succeeded against another holder or a free helm. -/
structure HelmResult where
  state : State
  lost : List Nat
  won : List Placed

/-- Step 2: helm orders in stamp order (R421). A TAKE_HELM that another competing one beats, or that does not outrank the holder, fails. (DEDUCED, log entry 74) -/
def State.helmStep (s : State) (helmOrders : List Placed) (tried : List Nat) : List Placed → HelmResult
  | [] => ⟨s, [], []⟩
  | p :: rest =>
    let o := p.2
    let h := s.cam.helm
    if o.kind = kRelease then
      let s' := if o.source = h.holder then s.setHelm Helm.free 3 else s
      s'.helmStep helmOrders (p.1 :: tried) rest
    else if o.source = h.holder then s.helmStep helmOrders (p.1 :: tried) rest
    else
      let beaten := helmOrders.any (fun q => decide (q.2.kind = kTake) && decide (q.1 ≠ p.1) && !tried.contains q.1 && Order.beats q.2 o)
      if !beaten && (decide (h.holder = 0xFF) || decide (o.rank < h.rank)) then
        let r := (s.takeHelm o).helmStep helmOrders (p.1 :: tried) rest
        { r with won := p :: r.won }
      else
        let r := s.helmStep helmOrders (p.1 :: tried) rest
        { r with lost := p.1 :: r.lost }

/-- Whom a failed TAKE_HELM names: the winning TAKE_HELM of its set, else the holder after step 2 with the stamp by which it took the helm (R421). -/
def HelmResult.named (r : HelmResult) : Nat × Nat :=
  match winner r.won with
  | some w => (w.2.source, w.2.stamp)
  | none => (r.state.cam.helm.holder, r.state.cam.helm.stamp)

/-- The winner on a target among the orders still counting: any protective order drops the closing ones (R51 step 5). -/
def State.targetWinner (s : State) (l : List Placed) (t : Nat) (here : List Placed) : Option Placed :=
  let here := here.filter (fun p => (s.counting l p).contains t)
  let prot := here.filter (fun p => !s.closingOrder p.2)
  winner (if prot.isEmpty then here else prot)

/-- What a resolution decides: the state with the helm changed, every order with its outcome, and the winner on each target. -/
structure Resolution where
  state : State
  outcomes : List Outcome
  winners : List (Nat × Order)

/-- Every target an order can cover. -/
def allTargets : List Nat := [tPre, 0, 1, 2, 3, tMdi] ++ limitTargets

/-- The resolution of an order set (R51, R52); the values shown are those before the winners are applied. (DEDUCED, log entry 75) An order that R42 does not admit supersedes none, and SUPERSEDED is given before REFUSED_STATE. (DESIGN CHOICE, log entry 127) -/
def State.resolveSet (s : State) (orders : List Order) : Resolution :=
  let l : List Placed := (List.range orders.length).zip orders
  let bad := l.filter (fun p => !s.admits p.2.kind p.2.target p.2.value)
  let live := l.filter (fun p => s.admits p.2.kind p.2.target p.2.value)
  let gone := live.filter (fun p => !p.2.helmKind && (s.judged live p).isEmpty)
  let live2 := live.filter (fun p => p.2.helmKind || !(s.counting live p).isEmpty)
  let refusedA := live2.filter (fun p => s.closingOrder p.2 && s.stateRefuses p.2)
  let live3 := live2.filter (fun p => !(s.closingOrder p.2 && s.stateRefuses p.2))
  let helmOrders := live3.filter (fun p => p.2.helmKind)
  let helm := s.helmStep helmOrders [] helmOrders
  let s' := helm.state
  let live4 := live3.filter (fun p => !p.2.helmKind)
  let noHelm := live4.filter (fun p => s.closingOrder p.2 && decide (p.2.source ≠ s'.cam.helm.holder))
  let live5 := live4.filter (fun p => !(s.closingOrder p.2 && decide (p.2.source ≠ s'.cam.helm.holder)))
  let refusedB := live5.filter (fun p => s.closingOrder p.2 && s.targetRefuses p.2)
  let live6 := live5.filter (fun p => !(s.closingOrder p.2 && s.targetRefuses p.2))
  let wins : List (Nat × Placed) := allTargets.filterMap (fun t => (s.targetWinner live t live6).map (fun w => (t, w)))
  let has (x : List Placed) (p : Placed) : Bool := x.any (fun q => decide (q.1 = p.1))
  let out (p : Placed) : Outcome :=
    let o := p.2
    if has bad p then ⟨o, 5, 0xFF, 0, o.kind⟩
    else if has gone p then ⟨o, 3, 0xFF, 0, s.orderKind o⟩
    else if has refusedA p || has refusedB p then ⟨o, 4, 0xFF, 0, s.orderKind o⟩
    else if has noHelm p then ⟨o, 2, 0xFF, 0, s.orderKind o⟩
    else if o.helmKind then
      (if helm.lost.contains p.1 then ⟨o, 1, helm.named.1, helm.named.2, s.orderKind o⟩ else ⟨o, 0, o.source, o.stamp, s.orderKind o⟩)
    else
      match wins.find? (fun w => (s.judged live p).contains w.1 && decide (w.2.1 ≠ p.1)) with
      | some w => ⟨o, 1, w.2.2.source, w.2.2.stamp, s.orderKind o⟩
      | none => ⟨o, 0, o.source, o.stamp, s.orderKind o⟩
  ⟨s', l.map out, wins.map (fun w => (w.1, w.2.2))⟩

/-! Records and replies (R52, R99) -/

/-- The logbook code of an outcome (Table 2-3). -/
def outcomeCode (c : Nat) : Nat := ([0x0220, 0x0221, 0x0222, 0x0225, 0x0223, 0x0226] : List Nat).getD c 0x0226

/-- The book of a source: TL1 to TL7 for partitions, TL0 for the others (R52). -/
def bookOfSource (src : Nat) : Nat :=
  match partOfSource src with
  | some k => 1 + k
  | none => 1

/-- An outcome is recorded in the logbook of its source (R52, Table 2-8). -/
def State.logOutcome (s : State) (x : Outcome) : State :=
  s.logIn (bookOfSource x.order.source) (outcomeCode x.code) x.order.source
    (u8 x.code ++ u8 x.order.target ++ u8 x.kind ++ u8 x.winner ++ u32 x.wstamp)

/-- The value a reply shows: the target's standing value after resolution, 0 for a target without a limit (Table 4-6). -/
def State.replyValue (s : State) (x : Outcome) : Int :=
  if isLimit x.order.target ∧ ¬ (x.order.helmKind = true) then s.standing x.order.target else 0

/-- Whether an outcome answers an order of partition k's mailbox. -/
def Outcome.ofPart (k : Nat) (x : Outcome) : Bool :=
  match x.order.origin with
  | .mailbox k' _ => decide (k' = k)
  | _ => false

/-- The address of reply entry e: 0x810 + e × 16, entry 63 at 0xC80 (Table 4-6). -/
def replyAddr (k e : Nat) : Nat := mailbox k + (if e = 63 then 0xC80 else 0x810 + e * 16)

/-- One reply entry (Table 4-6). -/
def State.writeReply (s : State) (k e : Nat) (x : Outcome) : State :=
  s.wrBytes (replyAddr k e)
    (u8 x.code ++ u8 x.kind ++ u8 x.order.target ++ u8 x.winner ++ u32 x.wstamp ++ u32 x.order.ref ++ s32 (s.replyValue x))

/-- Camlan writes a partition's replies: entries, RN1 and RN2, RSTAMP, RSEQ last, then the REPLY event (R99). -/
def State.writeReplies (s : State) (outs : List Outcome) (k : Nat) : State :=
  let mine := outs.filter (Outcome.ofPart k)
  match mine with
  | [] => s
  | x :: _ =>
    let first := x.order.stamp
    let n1 := (mine.filter (fun y => decide (y.order.stamp = first))).length
    let n2 := mine.length - n1
    let later := (mine.getLast?.map (fun y => y.order)).getD x.order
    let s := ((List.range mine.length).zip mine).foldl (fun s e => s.writeReply k e.1 e.2) s
    let s := s.st (mailbox k + 0x80C) 2 (n1 + n2 * 256)
    let s := s.st (mailbox k + 0xC78) 4 (if n2 = 0 then 0 else later.stamp)
    let s := s.st (mailbox k + 0x804) 4 first
    (s.st (mailbox k + 0x800) 4 later.stroke).setEvp k 2

end Sys2Proof.Machine
end

