-- ==== Sys2Proof/Machine/Seats.lean ====
section
/-!
DEFINITION. Seats as Camlan knows them: the read set, ages, and what a string's seats allow (R34, R96, R200, R225, R248).
-/

namespace Sys2Proof.Machine

def State.seat (s : State) (n : Nat) : SeatSt := Tab.get SeatSt.init s.seats n

def State.setSeat (s : State) (n : Nat) (x : SeatSt) : State := { s with seats := Tab.put SeatSt.init s.seats n x }

def State.updSeat (s : State) (n : Nat) (f : SeatSt → SeatSt) : State := s.setSeat n (f (s.seat n))

/-- The number of modules configured, none while `chn.modules` is not set. -/
def State.modules (s : State) : Option Nat := (s.parN? .chnModules).map (fun m => (m / 1000).toNat)

/-- The read set in ascending seat order (R34). -/
def State.readSet (s : State) : List Nat :=
  match s.modules with
  | some n => (List.range n).map (· + 1)
  | none => ((List.range 128).map (· + 1)).filter (fun n => (s.seat n).enumd)

/-- The string a seat is assigned to, 4 for none. -/
def State.seatString (s : State) (n : Nat) : Nat := s.parS .chnSeatString n

/-- The seats of a string in the read set. -/
def State.strSeats (s : State) (i : Nat) : List Nat := s.readSet.filter (fun n => s.seatString n == i)

/-- Seats read per stroke: k = ⌈N / heat⌉ (R34). -/
def State.readsPerStroke (s : State) : Nat := (s.readSet.length + s.heat - 1) / s.heat

/-- The seats of the present heat phase: indices i with ⌊i / k⌋ = phase (R34). -/
def State.phaseSeats (s : State) (phase : Nat) : List Nat :=
  let k := s.readsPerStroke
  (s.readSet.drop (phase * k)).take k

/-- Every seat of a string is free of BLIND, UNPROVEN and proving (R248). -/
def State.strSeatsReady (s : State) (i : Nat) : Bool :=
  (s.strSeats i).all (fun n => !(s.seat n).blind && !(s.seat n).unproven && decide ((s.seat n).proving = 0))

/-- The sum of a string's cell resistances plus ctr.s.rext [microohm] (R248). -/
def State.strRes (s : State) (i : Nat) : Rat :=
  ((s.strSeats i).map (fun n => ((s.seat n).est.map CellEst.res).foldl (· + ·) 0)).foldl (· + ·) 0 + (s.parN .ctrRext i : Rat)

/-- The parallel resistance of the closed strings other than i [microohm], 0 with none. -/
def State.closedRes (s : State) (i : Nat) : Rat :=
  let g := ((s.strings.filter (fun j => decide (j ≠ i) && (Tab.get StrSt.init s.ctr.strs j).st == 4)).map
    (fun j => if s.strRes j ≤ 0 then (0 : Rat) else 1 / s.strRes j)).foldl (· + ·) 0
  if g = 0 then 0 else 1 / g

end Sys2Proof.Machine
end

