-- ==== Sys2Proof/Machine/Contactors.lean ====
section
/-!
DEFINITION. Contactors, stroke pump, pre-charge and strings (10): what Camlan and the hardware do at a catch, and the events of the family.
-/

namespace Sys2Proof.Machine

/-! Access -/

def State.str (s : State) (i : Nat) : StrSt := Tab.get StrSt.init s.ctr.strs i

def State.setStr (s : State) (i : Nat) (x : StrSt) : State := { s with ctr := { s.ctr with strs := Tab.put StrSt.init s.ctr.strs i x } }

def State.updStr (s : State) (i : Nat) (f : StrSt → StrSt) : State := s.setStr i (f (s.str i))

def State.coil (s : State) (c : Nat) : CoilSt := Tab.get CoilSt.init s.ctr.coils c

def State.updCoil (s : State) (c : Nat) (f : CoilSt → CoilSt) : State :=
  { s with ctr := { s.ctr with coils := Tab.put CoilSt.init s.ctr.coils c (f (s.coil c)) } }

/-- The output is on (CTR.STAT.ON). -/
def State.coilOn (s : State) (c : Nat) : Bool := s.bit Reg.CTR_STAT c

/-- The contact reads closed in the catch bank (R232). -/
def State.fbc (s : State) (c : Nat) : Bool := s.bit Reg.AGR_C_FB c

/-- The string a coil's role names (R228). -/
def State.strOfCoil (s : State) (c : Nat) : Option Nat :=
  let r := s.parS .ctrRole c
  if 1 ≤ r ∧ r ≤ 4 then some (r - 1) else if 5 ≤ r ∧ r ≤ 8 then some (r - 5) else if 9 ≤ r ∧ r ≤ 12 then some (r - 9) else none

/-- Camlan writes an ordered output; each change counts in the tally first (R231), and an output is not turned on when its entry fails (R363). -/
def State.order (s : State) (c : Nat) (v : Bool) : State :=
  if s.bit Reg.CTR_OUT c = v then s
  else if v && s.tally.bad then s.tallyDeny
  else (s.tallyOp (0x10 + c)).setBit Reg.CTR_OUT c v

def State.orderOpt (s : State) (c : Option Nat) (v : Bool) : State :=
  match c with
  | some c => s.order c v
  | none => s

def State.fbcOpt (s : State) (c : Option Nat) : Bool :=
  match c with
  | some c => s.fbc c
  | none => false

def State.onOpt (s : State) (c : Option Nat) : Bool :=
  match c with
  | some c => s.coilOn c || s.bit Reg.CTR_OUT c
  | none => false

/-- The coils of a string. -/
def State.strCoils (s : State) (i : Nat) : List Nat := (s.posOf i).toList ++ (s.negOf i).toList ++ (s.preOf i).toList

/-! Stroke pump (R72, R236, R420) -/

/-- The four conditions of R72 beside the finish permit: start test passed, armed, no mismatch or fatal class, no debug session. -/
def State.gateOpen (s : State) : Bool :=
  s.bit Reg.COX_STATUS 1 && s.bit Reg.COX_PERMIT 0 && !s.bit Reg.COX_STATUS 2 && !s.bit Reg.COX_STATUS 3 && !s.bit Reg.DBG_STAT 1

/-- The feed ends within the stroke (R236). -/
def State.cutFeed (s : State) : State :=
  let s := s.setBit Reg.PUMP_STAT 0 false
  { s with stk := { s.stk with feed := false }, ctr := { s.ctr with fedSince := none, railUp := false } }

/-- The permit gate is closed (R61): the pump is no longer fed. -/
def State.stopFeed (s : State) : State :=
  let s := (s.setBit Reg.COX_STATUS 0 false).cutFeed
  { s with stk := { s.stk with permit := false } }

/-- The feed of a new stroke: fed if and only if the five conditions of R72 and PUMP.CTRL.EN hold and no SKIP withholds it. -/
def State.feedStroke (s : State) (permit : Bool) : State :=
  let fed := permit && s.gateOpen && s.bit Reg.PUMP_CTRL 0 && !s.ctr.skip
  let s := (s.setBit Reg.PUMP_STAT 0 fed)
  let s := if fed then s else s.incSat Reg.PUMP_UNFED 0 16 1
  { s with
    stk := { s.stk with feed := fed, permit := false },
    ctr := { s.ctr with
      skip := false, railUp := s.ctr.railUp && fed,
      fedSince := if fed then (match s.ctr.fedSince with | some t => some t | none => some s.now) else none } }

/-- CTR.IMEASn: nothing in an output that is off, full duty in pull-in, the regulated current in hold; the current in pull-in and the duty in hold are free values (DESIGN CHOICE, log entry 1). -/
def State.coilSense (s : State) (c phase : Nat) : State :=
  let r := Reg.CTR_IMEAS c
  if phase = 0 then s.wrN r 0
  else if phase = 1 then (s.setFld r 0 12 (Config.freeOf 994 (s.now * 16 + c) % 4096)).setFld r 16 8 100
  else (s.setFld r 0 12 (s.fld (Reg.CTR_CFG c) 8 10)).setFld r 16 8 (Config.freeOf 995 (s.now * 16 + c) % 256)

/-- An output turns off at a time, by order or not: the judgement of its contact begins (R234). -/
def CoilSt.turnedOff (x : CoilSt) (now : Nat) (ordered : Bool) : CoilSt :=
  { x with offAt := some now, offOrdered := ordered, weldRun := true, weldProved := false, weldWithin := true }

/-- The coil is a pre-charge contactor's (R228). -/
def State.isPre (s : State) (c : Nat) : Bool := decide (9 ≤ s.parS .ctrRole c)

/-- An output that is on turns off between two catches, unordered: a pre-charge output so ended heated the resistor in this stroke (R12, R244). -/
def State.fallCoil (s : State) (c : Nat) (drop : Bool) : State :=
  let s := s.updCoil c (fun x => { x.turnedOff s.now false with lost := x.lost || drop })
  (if s.isPre c then { s with ctr := { s.ctr with preFell := true } } else s).coilSense c 0

/-- Every coil falls without order: the ordered outputs, the outputs and what is held are cleared (R12, R417). -/
def State.dropCoils (s : State) : State :=
  let s := (List.range 12).foldl (fun s c =>
    if s.coilOn c then s.fallCoil c true
    else if s.bit Reg.CTR_OUT c then s.updCoil c (fun x => { x with lost := true }) else s) s
  let s := ((s.wrN Reg.CTR_OUT 0).wrN Reg.CTR_STAT 0).wrN Reg.CTR_PHASE 0
  { (s.setBit Reg.CTR_BKI 1 false) with ctr := { s.ctr with railUp := false, held := 0 } }

/-! Outputs at a catch (R12, R229, R238 to R240, R420) -/

/-- One output at a catch: it turns off unless break inhibit holds it, and turns on when no fault stands, the drivers are enabled and the rail has been up. -/
def State.catchCoil (s : State) (line : Bool) (c : Nat) : State :=
  let want := s.bit Reg.CTR_OUT c
  let on := s.coilOn c
  let fault := s.bit Reg.CTR_FAULT c || s.bit Reg.CTR_FAULT (16 + c)
  if on && !want then
    if line && s.bit (Reg.CTR_CFG c) 24 then (s.setBit Reg.CTR_STAT (16 + c) true)
    else
      let s := if s.bit Reg.CTR_STAT (16 + c) then s.setBit Reg.CTR_IRQ 2 true else s
      let s := ((s.setBit Reg.CTR_STAT c false).setBit Reg.CTR_STAT (16 + c) false).setBit Reg.CTR_PHASE c false
      (s.updCoil c (fun x => x.turnedOff s.now true)).coilSense c 0
  else if !on && want && !fault && s.bit Reg.CTR_CTRL 0 && s.ctr.railUp then
    let s := (s.setBit Reg.CTR_STAT c true).setBit Reg.CTR_PHASE c true
    (s.updCoil c (fun x => { x with weldRun := false, lost := false })).coilSense c 1
  else if on && want then s.setBit Reg.CTR_STAT (16 + c) false
  else s

/-- The outputs that are on and have BKIEN set (R239). -/
def State.bkiSet (s : State) : List Nat := (List.range 12).filter (fun c => s.coilOn c && s.bit (Reg.CTR_CFG c) 24)

/-- The smallest breaking current among the outputs on with BKIEN set [mA] (R239). -/
def State.ibreak (s : State) : Option Int :=
  s.bkiSet.foldl (fun m c =>
    match s.parN? .ctrIbreak c, m with
    | some v, some w => some (min v w)
    | some v, none => some v
    | none, m => m) none

/-- The BKI code: the largest with code × 3.125 mV plus the grade's threshold error at or below I_break × RSHUNT(T); 1 when none satisfies it (R165). -/
def State.bkiCode (s : State) (ib : Int) : Nat :=
  let uv := (ib : Rat) * s.rshunt / 1000000
  let c := ((uv - (if s.gradeX then 3000 else 2500)) / 3125).floor
  if c < 1 then 1 else min c.toNat 63

/-- The outputs take the state Camlan wrote in the ended stroke; the BKI code is written anew where the outputs on with BKIEN set have changed since it was written last (R12, R239). -/
def State.catchOutputs (s : State) : State :=
  let line := s.bit Reg.FCS_FLAGS 1
  let s' := (List.range 12).foldl (fun s c => s.catchCoil line c) s
  let held := s'.fld Reg.CTR_STAT 16 12
  let s' := (s'.setBit Reg.CTR_BKI 0 line).setBit Reg.CTR_BKI 1 (decide (held ≠ 0))
  if s'.bkiSet = s'.ctr.bkiOf then s' else
  let s' := { s' with ctr := { s'.ctr with bkiOf := s'.bkiSet } }
  match s'.ibreak with
  | some ib => s'.setFld Reg.FCS_BKI 0 6 (s'.bkiCode ib)
  | none => s'

/-- Held outputs (R240): each is logged when it is first held; the deferral starts with the first and ends when none is held. -/
def State.catchDefer (s : State) : State :=
  let held := s.fld Reg.CTR_STAT 16 12
  let was := s.ctr.held
  let s := { s with ctr := { s.ctr with held := held } }
  if held = 0 then { s with ctr := { s.ctr with defer := none, deferDone := false } }
  else
    let fresh := held &&& (was ^^^ 0xFFF)
    let s := if fresh = 0 then s else (s.setBit Reg.CTR_IRQ 1 true).logS 0x0A05 (u32 fresh ++ s32 (s.meas.cur / 1000))
    if was = 0 then { (s.tallyOp 0x53) with ctr := { s.ctr with defer := some s.now, deferDone := false } } else s

/-! Feedback (R232, R234, R417) -/

/-- The feedback bank: 1 for closed, after FBINV (09, "Feedback"). -/
def State.fbBank (s : State) (raw : Nat) : Nat :=
  (List.range 12).foldl (fun n c =>
    let high := decide (getField raw c 1 = 1)
    let inv := s.bit (Reg.CTR_CFG c) 25
    putField n c 1 (if high = inv then 1 else 0)) 0

/-- An opening is ordered or begins: POS and PRE off at once, NEG after the bank shows POS open; OPEN once NEG is off and open (R233). -/
def State.openStep (s : State) (i : Nat) : State :=
  let s := (s.orderOpt (s.posOf i) false).orderOpt (s.preOf i) false
  let s := if s.fbcOpt (s.posOf i) then s else s.orderOpt (s.negOf i) false
  if (s.strCoils i).any (fun c => s.coilOn c || s.bit Reg.CTR_OUT c) || s.fbcOpt (s.negOf i) then s
  else s.updStr i (fun x => { x with opening := false, attempt := false, t0 := none, posOrdered := false, st := if x.st = 5 ∨ x.st = 6 then x.st else 1 })

/-- A welded contactor (R235): the string goes WELDED, its other contactors are ordered open at once, and Camlan enters easy; each turn-off is judged once. Tests: 1 feedback, 2 HVS, 3 bypass. -/
def State.weld (s : State) (c test : Nat) : State :=
  match s.strOfCoil c with
  | none => s
  | some i =>
    let s := s.updStr i (fun x => { x with st := 5, closing := false, opening := true, wantOpen := false, attempt := false })
    let s := s.updCoil c (fun x => { x with weldRun := false, offAt := none, welded := true })
    let s := s.openStep i
    ((s.tallyOp 0x54).logS 0x0A04 (u8 c ++ u8 test)).easy 0x1B

/-- A failed attempt is kept with its time; the third within 15 minutes locks the path out (R246). -/
def State.countPreFail (s : State) (i : Nat) : State :=
  let t := s.clock
  let l := within t 900000000 (Tab.get [] s.ao.preFails i) ++ [t]
  let s := { s with ao := { s.ao with preFails := Tab.put [] s.ao.preFails i l } }
  if 3 ≤ l.length ∧ !s.nv.preLock.contains i then
    let s := { s with nv := { s.nv with preLock := s.nv.preLock ++ [i] } }
    s.logS 0x0A0C (u8 i)
  else s

/-- The coil's output is off for a driver fault (R230). -/
def State.faulted (s : State) (c : Nat) : Bool := s.bit Reg.CTR_FAULT c || s.bit Reg.CTR_FAULT (16 + c)

/-- A change of feedback at a catch is logged; a contact that opens without an ordered turn-off, other than by a driver fault, is marked (R417). (DEDUCED, log entry 81) -/
def State.catchContact (s : State) (c : Nat) : State :=
  if s.parS .ctrRole c = 0 then s
  else
    let x := s.coil c
    let is := s.fbc c
    let ordered := x.offOrdered && !s.coilOn c || !s.bit Reg.CTR_OUT c && s.coilOn c
    let s := s.updCoil c (fun x => { x with fb := is, lost := x.lost || (x.fb && !is && !ordered && !s.faulted c) })
    if is && !x.fb then s.logS 0x0A01 (u8 c ++ u32 s.strokeNo)
    else if x.fb && !is then s.logS 0x0A02 (u8 c ++ u32 s.strokeNo ++ u32 (s.strokeMaxMa / 1000))
    else s

/-- The contacts of a string that fell before count no more (R417). -/
def State.unmark (s : State) (i : Nat) : State :=
  (s.strCoils i).foldl (fun s c => s.updCoil c (fun x => { x with lost := false })) s

/-- Contacts dropped without order, by another cause than a driver fault (R417): the string goes OPEN and its closing order ends; an attempt so ended counts as failed. One record names the first such contact of POS, NEG and PRE. -/
def State.catchDrop (s : State) (i : Nat) : State :=
  let x := s.str i
  if x.st == 2 || x.st == 3 || x.st == 4 then
    match (s.strCoils i).filter (fun c => (s.coil c).lost && !s.fbc c && !s.faulted c) with
    | c :: _ =>
      let s := s.logS 0x0A13 (u8 c ++ u8 i)
      let s := if x.attempt then s.countPreFail i else s
      (s.unmark i).updStr i (fun x => { x with st := 1, closing := false, opening := true, wantOpen := false, attempt := false, t0 := none, preShow := if x.attempt then 4 else x.preShow })
    | [] => s
  else s

/-- Camlan's model of an HVS channel for the weld test of a string: none where unknown (R234). -/
def State.expected (s : State) (i ch : Nat) : Option Int :=
  let bus : Option Int :=
    let l := s.strings.filter (fun j => decide (j ≠ i) && (s.str j).st == 4)
    if l.isEmpty then none else some (((l.map (fun j => (s.volt j : Int))).foldl (· + ·) 0) / l.length)
  if ch < 4 then some (s.volt ch : Int)
  else if ch = chBus then bus
  else
    match s.strings.find? (fun j => (s.preOf j).isSome) with
    | some j => if (s.preOf j).any s.coilOn then some (s.volt j : Int) else bus
    | none => bus

/-- One catch of a weld pair test (R234). -/
def State.weldCatch (s : State) (c : Nat) : State :=
  match s.parL .ctrWeld c, s.strOfCoil c with
  | [a, b], some i =>
    if !(s.coil c).weldRun || s.fbc c then s
    else
      match s.expected i a, s.expected i b with
      | some ea, some eb =>
        if (ea - eb).natAbs < 20000 then s
        else
          let near := decide ((((s.volt a : Int) - s.volt b).natAbs : Int) ≤ s.parN .ctrWeldDv)
          s.updCoil c (fun x => { x with weldProved := true, weldWithin := x.weldWithin && near })
      | _, _ => s
  | _, _ => s

/-! Pre-charge (R242 to R246) -/

/-- τ = ctr.pre.r × ctr.pre.cbus [us]. -/
def State.tau (s : State) : Rat := (s.parN .ctrPreR : Rat) * s.parN .ctrPreCbus / 1000000

/-- E_fail = Vpack² / ctr.pre.r × (τ + 4 × P) [mJ] (R245). -/
def State.eFail (s : State) (vpack : Nat) : Rat :=
  (vpack : Rat) * vpack / s.parN .ctrPreR * (s.tau + 4 * (s.period : Rat)) / 1000000

/-- H [mJ], kept in RST.RETAIN0 in millijoules as well (R244; DEDUCED, log entry 7). -/
def State.keepHeat (s : State) (h : Rat) : State :=
  ({ s with ctr := { s.ctr with heatSet := true, heat := h } }).wrN (Reg.RST_RETAIN 0) (roundRat h % 2 ^ 32).toNat

/-- H at the first catch of a run: from RETAIN0, or ctr.pre.erated − E_fail after a POR (R244). -/
def State.heatStart (s : State) : State :=
  if s.ctr.heatSet then s
  else
    let vp := (s.strings.filter (fun i => (s.preOf i).isSome)).foldl (fun m i => max m (s.volt i)) 0
    let h : Rat := if s.fld Reg.RST_LAST 0 4 = 0 then (s.parN .ctrPreErated : Rat) - s.eFail vp else (signed 32 (s.rdN (Reg.RST_RETAIN 0)) : Rat)
    s.keepHeat h

/-- A PRE output is on. -/
def State.preOn (s : State) : Bool := s.strings.any (fun i => match s.preOf i with | some c => s.coilOn c | none => false)

/-- Energy into the resistor over the ended stroke [mJ]: P × (V_R,n² + V_R,n+1²) / (2 × ctr.pre.r), zero where PRE was off in it (R244). -/
def State.heatTerm (s : State) (vr : Nat) : Rat :=
  if s.ctr.preWas && decide (0 < s.parN .ctrPreR) then
    (s.period : Rat) * ((s.ctr.vr : Rat) * s.ctr.vr + (vr : Rat) * vr) / (2 * s.parN .ctrPreR) / 1000000
  else 0

/-- The modelled heat at a catch (R244). -/
def State.heatCatch (s : State) : State :=
  let vr := ((s.volt chPre : Int) - s.volt chBus).natAbs
  let e := s.heatTerm vr
  let h := s.ctr.heat * Config.expNeg ((s.period : Rat) / (s.parN .ctrPreTauth * 1000 : Int)) + e
  let s := ({ s with ctr := { s.ctr with vr := vr } }).keepHeat h
  s.strings.foldl (fun s i => if (s.str i).attempt then s.updStr i (fun x => { x with energy := x.energy + (roundRat e).toNat }) else s) s

/-- A pre-charge attempt starts when the energy gate allows it: counted in the tally, then PRE and NEG on (R233, R243, R245). -/
def State.startPre (s : State) (i : Nat) : State :=
  let x := s.str i
  let vp := s.volt i
  if s.tally.bad then s.tallyDeny
  else if s.ctr.heat + s.eFail vp ≤ (s.parN .ctrPreErated : Rat) then
    let s := s.tallyOp (0x24 + i)
    let s := (s.orderOpt (s.negOf i) true).orderOpt (s.preOf i) true
    let s := s.updStr i (fun x => { x with attempt := true, t0 := none, busLow := decide (s.volt chBus * 10 < vp), tau1 := false, tau3 := false, posOrdered := false, energy := 0, tries := x.tries + 1, gateLogged := false })
    s.logS 0x0A09 (u8 i ++ u8 (x.tries + 1) ++ u32 (s.ctr.heat / 1000).floor.toNat)
  else if x.gateLogged then s
  else (s.updStr i (fun x => { x with gateLogged := true })).logS 0x0A0D (u8 i ++ u32 (s.ctr.heat / 1000).floor.toNat)

/-- SHORT (1) or SLOW (2): PRE and NEG off, a failed attempt counted; SLOW tries again, SHORT ends the closing order (R243, R246). -/
def State.preFail (s : State) (i res : Nat) : State :=
  let x := s.str i
  let s := (s.orderOpt (s.preOf i) false).orderOpt (s.negOf i) false
  let ms := match x.t0 with | some t => (s.now - t) / 1000 | none => 0
  let s := s.logS 0x0A0B (u8 i ++ u8 res ++ u32 ms ++ u32 (x.energy / 1000))
  let s := s.countPreFail i
  let locked := s.nv.preLock.contains i
  s.updStr i (fun x => { x with attempt := false, t0 := none, preShow := 4, closing := x.closing && decide (res = 2) && !locked, waitSince := some s.now, st := if locked then 6 else if res = 2 && x.closing then 2 else 1, opening := locked || !(decide (res = 2) && x.closing) })

/-- The checks of Table 10-3 on the catch bank of a running attempt: SHORT by current, BYPASS at t0, COMPLETE, then the checks at τ, 3 τ and the end. -/
def State.preRun (s : State) (i t0 : Nat) : State :=
  let x := s.str i
  let vp := x.vpack
  let bus := s.volt chBus
  let el : Rat := ((s.now - t0 : Nat) : Rat)
  let short := decide ((3 : Rat) / 2 * vp * 1000 / s.parN .ctrPreR < (s.strokeMaxMa : Rat))
  if short then s.preFail i 1
  else if s.now = t0 ∧ x.busLow ∧ vp * 80 ≤ bus * 100 then (match s.posOf i with | some c => s.weld c 3 | none => s)
  else if ((vp : Int) - bus).natAbs ≤ max (vp / 50) 5000 then
    if s.tally.bad then s.tallyDeny else
    let s := (s.orderOpt (s.posOf i) true).updStr i (fun x => { x with posOrdered := true, attempt := false, preShow := 3 })
    s.logS 0x0A0A (u8 i ++ u32 ((s.now - t0) / 1000) ++ u32 (x.energy / 1000))
  else if !x.tau1 && decide (s.tau ≤ el) && decide (bus * 10 < vp) then s.preFail i 1
  else if !x.tau1 && decide (s.tau ≤ el) && decide (bus * 100 < vp * 55) then s.preFail i 2
  else if !x.tau3 && decide (3 * s.tau ≤ el) && decide (bus * 100 < vp * 92) then s.preFail i 2
  else if s.tau * (s.parN .ctrPreTmax : Rat) / 1000 ≤ el then s.preFail i 2
  else s.updStr i (fun x => { x with tau1 := x.tau1 || decide (s.tau ≤ el), tau3 := x.tau3 || decide (3 * s.tau ≤ el) })

/-- An attempt at a catch: t0 is the first whose bank shows NEG and PRE closed, and Vpack the string's voltage there (R242). -/
def State.preCheck (s : State) (i : Nat) : State :=
  match (s.str i).t0 with
  | none =>
    if s.fbcOpt (s.negOf i) && s.fbcOpt (s.preOf i) then
      (s.updStr i (fun x => { x with t0 := some s.now, vpack := s.volt i })).preRun i s.now
    else s
  | some t0 => s.preRun i t0

/-! Admission (R247, R248) -/

/-- |ΔV| between a string and the bus [mV]. -/
def State.deltaV (s : State) (i : Nat) : Nat := ((s.volt i : Int) - s.volt chBus).natAbs

/-- I_pred = |ΔV| / (R_s + R_p) + |I| × R_p / (R_s + R_p) [mA] (R248). -/
def State.iPred (s : State) (i : Nat) : Rat :=
  let rs := s.strRes i
  let rp := s.closedRes i
  if rs + rp ≤ 0 then 0 else ((s.deltaV i : Rat) * 1000000 + (s.meas.cur.natAbs : Rat) * rp) / (rs + rp)

/-- Whether an HVS channel is suspect or open (R172, R173). -/
def State.channelBad (s : State) (c : Nat) : Bool := s.bit Reg.HVS_STAT c || s.bit Reg.HVS_STAT (16 + c)

/-- The conditions of R248 in one catch bank. -/
def State.admitOk (s : State) (i : Nat) : Bool :=
  decide ((s.deltaV i : Int) ≤ s.parN .ctrAdmitV) && s.strSeatsReady i && !s.channelBad i && !s.channelBad chBus
    && (decide (s.closedRes i = 0) || decide (s.iPred i ≤ (s.parN .ctrAdmitI : Rat)))

/-! String states (R233, R249) -/

/-- ADMITTING, with NEG on (R233, R248). -/
def State.startAdmit (s : State) (i : Nat) : State :=
  (s.updStr i (fun x => { x with st := 3, waitSince := some s.now, posOrdered := false })).orderOpt (s.negOf i) true

/-- A closing order begins: PRECHARGING through the energy gate, or ADMITTING (R233, R247). While one string is PRECHARGING, every other waits in ADMITTING: strings are taken in ascending order. (DESIGN CHOICE, log entry 131) -/
def State.beginClose (s : State) (i : Nat) : State :=
  let s := s.unmark i
  if s.needsPre i && (s.preOf i).isSome && !s.strings.any (fun j => (s.str j).st == 2) then
    (s.updStr i (fun x => { x with st := 2, waitSince := some s.now, tries := 0, gateLogged := false, preShow := 0 })).startPre i
  else s.startAdmit i

/-- POS closed by feedback after pre-charge or admission: PRE off, the string is CLOSED (R233, Table 10-6). -/
def State.closeDone (s : State) (i : Nat) : State :=
  if s.fbcOpt (s.posOf i) && s.fbcOpt (s.negOf i) then
    (s.orderOpt (s.preOf i) false).updStr i (fun x => { x with st := 4, closing := false, attempt := false, t0 := none, waitSince := none })
  else s

/-- What Camlan decides for a string at a catch, from the catch bank and the orders applied (R44, R233, R249). -/
def State.strStep (s : State) (i : Nat) : State :=
  let x := s.str i
  let busy := (s.strCoils i).any (fun c => s.coilOn c || s.bit Reg.CTR_OUT c)
  let s := if x.wantOpen then
      s.updStr i (fun x => { x with wantOpen := false, closing := false, opening := busy || x.opening || x.st == 2 || x.st == 3 || x.st == 4 })
    else s
  let x := s.str i
  if x.opening then s.openStep i
  else if x.st = 1 ∨ x.st = 6 then
    (if s.strLocked i then s.updStr i (fun x => { x with st := 6, closing := false })
     else if !x.closing then s.updStr i (fun x => { x with st := 1 })
     else if s.tally.bad then (s.updStr i (fun x => { x with closing := false })).tallyDeny else s.beginClose i)
  else if x.st = 2 then
    (if x.posOrdered then s.closeDone i
     else if x.attempt then s.preCheck i
     else if x.closing && !busy && !(s.fbcOpt (s.negOf i)) then (if s.needsPre i then s.startPre i else s.startAdmit i) else s)
  else if x.st = 3 then
    (if x.posOrdered then s.closeDone i
     else if s.fbcOpt (s.negOf i) && s.admitOk i then
       if s.tally.bad then s.tallyDeny else
       let s' := (s.orderOpt (s.posOf i) true).updStr i (fun x => { x with posOrdered := true })
       s'.logS 0x0A0E (u8 i ++ u32 (s.deltaV i) ++ u32 (s.iPred i / 1000).floor.toNat)
     else s)
  else s

/-- An OPEN or CLOSE that won on a string (R249): a CLOSE meets an opening under way without change. -/
def State.winString (s : State) (i kind : Nat) : State :=
  if kind = kOpen then s.updStr i (fun x => { x with wantOpen := true, closing := false })
  else
    let x := s.str i
    if x.opening || x.wantOpen || (x.st != 1 && x.st != 6) then s else s.updStr i (fun x => { x with closing := true })

/-- An OPEN or CLOSE of BATTERY that won on the pre-charge path (R42): an OPEN opens every string that is PRECHARGING, whoever won on the string itself; a CLOSE does nothing there, since the path closes only in the sequence of a string (R233). (DESIGN CHOICE, log entry 130) -/
def State.winPre (s : State) (kind : Nat) : State :=
  if kind = kOpen then
    s.strings.foldl (fun s i => if (s.str i).st = 2 then s.updStr i (fun x => { x with wantOpen := true, closing := false }) else s) s
  else s

/-! Short circuit (R241) -/

/-- An OCS trip seen in the catch bank: OPEN BATTERY at rank 1, 0x0A07, easy 0x1A; Camlan clears the flag as it acts (R164, DEDUCED, log entry 42). -/
def State.shortCircuit (s : State) : State :=
  if s.bit Reg.AGR_C_FLAGS 0 then
    let s := ({ (s.setBit Reg.FCS_FLAGS 0 false) with ctr := { s.ctr with ocsSeen := true } }).protectOpen tBattery
    ((s.tallyOp 0x52).logS 0x0A07 (u32 (s.rdN Reg.FCS_OCSTIME))).easy 0x1A
  else { s with ctr := { s.ctr with ocsSeen := s.ctr.ocsSeen && s.inEasy } }

/-! Pump test (R237) -/

/-- The pump test at a catch: VGS_a where the skipped stroke begins, VGS_b where it ends. -/
def State.pumpTest (s : State) (vgs : Nat) (skipped : Bool) : State :=
  if s.ctr.test = 1 ∧ skipped then { s with ctr := { s.ctr with test := 2, vgsA := vgs } }
  else if s.ctr.test = 2 then
    let a := s.ctr.vgsA
    let s := { s with ctr := { s.ctr with test := 3 } }
    let est : Rat := if vgs < a then (s.period : Rat) * ((a : Int) - 4000 : Int) / ((a : Int) - vgs : Int) else 0
    let ok := decide (vgs < a) && decide ((5 : Rat) / 2 * s.period ≤ est) && decide (est ≤ (s.parN .pumpHoldMax : Rat))
    let s := s.logS 0x0A11 (u32 (roundRat (est / 100)).toNat ++ u8 (if ok then 1 else 2))
    if ok then s else s.easyAtEnd 0x1C
  else s

/-! Events -/

/-- A coil-driver fault (R230): the output turns off at once and stays off; the string of a closed or closing contactor counts as opened. -/
def State.coilFault (s : State) (c : Nat) (openLoad : Bool) : State :=
  let s := ((s.setBit Reg.CTR_STAT c false).setBit Reg.CTR_STAT (16 + c) false).setBit Reg.CTR_PHASE c false
  let s := ((s.setBit Reg.CTR_OUT c false).setBit Reg.CTR_FAULT (if openLoad then 16 + c else c) true).setBit Reg.CTR_IRQ 0 true
  let s := s.fallCoil c false
  match s.strOfCoil c with
  | none => s
  | some i =>
    let x := s.str i
    if x.st = 2 ∨ x.st = 3 ∨ x.st = 4 then
      let s := s.updStr i (fun x => { x with st := 1, closing := false, opening := true, wantOpen := false, attempt := false, t0 := none, coilFault := true })
      s.logS 0x0A08 (u8 c ++ u8 (if openLoad then 2 else 1))
    else s

/-- COIL_OVERCURRENT (R230): detected at all times on an output that is on. -/
def doCoilOvercurrent (s : State) (c : Nat) : State := if c < 12 ∧ s.coilOn c then s.coilFault c false else s

/-- COIL_OPEN_LOAD (R230): detected only while PUMP.STAT.RAIL_OK is 1. -/
def doCoilOpenLoad (s : State) (c : Nat) : State := if c < 12 ∧ s.coilOn c ∧ s.bit Reg.PUMP_STAT 2 then s.coilFault c true else s

/-- CLOSE_TIMEOUT (R232): a contact still open after ctr.c.tclose has failed to close. -/
def doCloseTimeout (s : State) (c : Nat) : State :=
  if c < 12 ∧ s.coilOn c ∧ !s.fbc c then
    match s.strOfCoil c with
    | none => s
    | some i =>
      let s := (s.order c false).logS 0x0A03 (u8 c)
      s.updStr i (fun x => { x with st := if x.st = 5 ∨ x.st = 6 then x.st else 1, closing := false, opening := true, wantOpen := false, attempt := false, t0 := none })
  else s

/-- NEG_OPEN_TIMEOUT (R233): ctr.c.topen after POS turned off, NEG is turned off. -/
def doNegOpenTimeout (s : State) (i : Nat) : State :=
  if s.strConf i ∧ (s.str i).opening ∧ !(match s.posOf i with | some c => s.coilOn c | none => false) then s.orderOpt (s.negOf i) false else s

/-- WELD_FEEDBACK (R234): feedback still closed ctr.c.topen after the output turned off. -/
def doWeldFeedback (s : State) (c : Nat) : State :=
  if c < 12 ∧ !s.coilOn c ∧ s.fbc c ∧ (s.coil c).offAt.isSome then s.weld c 1 else s

/-- WELD_HVS_JUDGE (R234): at the end of ctr.weld_t, welded when feedback reads open, a catch proved the contact, and the channels stayed within ctr.weld_dv. -/
def doWeldHvsJudge (s : State) (c : Nat) : State :=
  let x := s.coil c
  if x.weldRun ∧ !s.coilOn c then
    let s := s.updCoil c (fun x => { x with weldRun := false })
    if !s.fbc c && x.weldProved && x.weldWithin && decide (s.parL .ctrWeld c ≠ []) then s.weld c 2 else s
  else s

/-- PUMP_SNAP (R417): the rail switch turns off, every coil falls and CTR.OUT is cleared. -/
def doPumpSnap (s : State) : State :=
  let s := ((s.setBit Reg.PUMP_STAT 3 true).setBit Reg.PUMP_STAT 1 false).setBit Reg.PUMP_STAT 2 false
  s.dropCoils

/-- RAIL_LOSS (R417): the coil rail below 9 V for 1 ms clears CTR.OUT. -/
def doRailLoss (s : State) : State :=
  let s := s.setBit Reg.PUMP_STAT 2 false
  let s := if s.bit Reg.PUMP_STAT 0 then s.setBit Reg.PUMP_IRQ 0 true else s
  s.dropCoils

/-- RAIL_UP (R420): the pump has been fed without a gap for t_up. -/
def doRailUp (s : State) : State :=
  if s.ctr.fedSince.isSome ∧ s.bit Reg.PUMP_STAT 0 then
    let s := ((s.setBit Reg.PUMP_STAT 1 true).setBit Reg.PUMP_STAT 2 true).setBit Reg.PUMP_STAT 3 false
    { s with ctr := { s.ctr with railUp := true } }
  else s

/-- PUMP_SKIP (R237): the feed is withheld for the next stroke. -/
def doPumpSkip (s : State) : State := { s with ctr := { s.ctr with skip := true } }

/-- SNAP_TEST (R236): accepted only while every output is off; the snap switch turns the rail off. -/
def doSnapTest (s : State) : State :=
  if s.fld Reg.CTR_STAT 0 12 = 0 then
    let s := ((s.setBit Reg.PUMP_STAT 3 true).setBit Reg.PUMP_STAT 1 false).setBit Reg.PUMP_STAT 2 false
    s.dropCoils
  else s

/-- DEFER_EXPIRE (R240): ctr.defer expires with an output still held: 0x0A06 and easy 0x19. -/
def doDeferExpire (s : State) : State :=
  if s.ctr.defer.isSome ∧ !s.ctr.deferDone ∧ s.fld Reg.CTR_STAT 16 12 ≠ 0 then
    let s := s.logS 0x0A06 (u32 (s.fld Reg.CTR_STAT 16 12) ++ s32 (s.meas.cur / 1000))
    ({ s with ctr := { s.ctr with deferDone := true } }).easy 0x19
  else s

/-- ENERGY_GATE_TIMEOUT (R245): the closing order of a string still waiting for the gate ends. -/
def doEnergyGateTimeout (s : State) (i : Nat) : State :=
  let x := s.str i
  if x.st = 2 ∧ !x.attempt ∧ !x.posOrdered ∧ x.gateLogged then s.updStr i (fun x => { x with st := 1, closing := false, gateLogged := false }) else s

/-- ADMIT_TIMEOUT (R248): a string still waiting has its NEG opened and its order ended: 0x0A10. -/
def doAdmitTimeout (s : State) (i : Nat) : State :=
  let x := s.str i
  if x.st = 3 ∧ !x.posOrdered then
    let s := s.logS 0x0A10 (u8 i ++ u32 (s.deltaV i) ++ u32 (s.iPred i / 1000).floor.toNat)
    let s := s.orderOpt (s.negOf i) false
    s.updStr i (fun x => { x with st := 1, closing := false, opening := true })
  else s

/-- PULLIN_END (R229): the driver leaves full duty and regulates the hold current. -/
def doPullinEnd (s : State) (c : Nat) : State :=
  if c < 12 ∧ s.coilOn c ∧ s.bit Reg.CTR_PHASE c then
    (s.setBit Reg.CTR_PHASE c false).coilSense c 2
  else s

def execCoilOvercurrent (c : Nat) (s : State) := done (doCoilOvercurrent s c)
def execCoilOpenLoad (c : Nat) (s : State) := done (doCoilOpenLoad s c)
def execCloseTimeout (c : Nat) (s : State) := done (doCloseTimeout s c)
def execNegOpenTimeout (i : Nat) (s : State) := done (doNegOpenTimeout s i)
def execWeldFeedback (c : Nat) (s : State) := done (doWeldFeedback s c)
def execWeldHvsJudge (c : Nat) (s : State) := done (doWeldHvsJudge s c)
def execPumpSnap (s : State) := done (doPumpSnap s)
def execRailLoss (s : State) := done (doRailLoss s)
def execRailUp (s : State) := done (doRailUp s)
def execPumpSkip (s : State) := done (s.byRequester (doPumpSkip s))
def execSnapTest (s : State) := done (s.byRequester (doSnapTest s))
def execDeferExpire (s : State) := done (doDeferExpire s)
def execEnergyGateTimeout (i : Nat) (s : State) := done (doEnergyGateTimeout s i)
def execAdmitTimeout (i : Nat) (s : State) := done (doAdmitTimeout s i)
def execPullinEnd (c : Nat) (s : State) := done (doPullinEnd s c)

/-! Clearing (Table 14-6): whether there is something to clear, whether its condition holds, and the effect -/

/-- `clear precharge S` (R246): the lockout and the kept failure times end. -/
def State.clearPre (s : State) (i : Nat) : State :=
  let s := { s with nv := { s.nv with preLock := s.nv.preLock.filter (fun j => decide (j ≠ i)) }, ao := { s.ao with preFails := Tab.put [] s.ao.preFails i [] } }
  let s := s.updStr i (fun x => { x with st := if x.st = 6 then (if (s.strCoils i).any (fun c => (s.coil c).welded) then 5 else 1) else x.st, preShow := if x.preShow = 4 then 0 else x.preShow })
  s.logS0 0x0A12 (u8 i ++ u8 2)

/-- A string with a welded contactor. -/
def State.weldShown (s : State) (i : Nat) : Bool := decide ((s.str i).st = 5) || (s.strCoils i).any (fun c => (s.coil c).welded)

/-- `clear weld S` is accepted only while the feedback of each welded contactor reads open and the weld pair, if any, shows 20 V or more (R235). -/
def State.weldClearable (s : State) (i : Nat) : Bool :=
  ((s.strCoils i).filter (fun c => (s.coil c).welded)).all (fun c => !s.fbc c && (match s.parL .ctrWeld c with
    | [a, b] => decide (20000 ≤ ((s.volt a : Int) - s.volt b).natAbs)
    | _ => true))

def State.clearWeldOf (s : State) (i : Nat) : State :=
  let s := (s.strCoils i).foldl (fun s c => s.updCoil c (fun x => { x with welded := false })) s
  (s.updStr i (fun x => { x with st := if x.st = 5 then 1 else x.st })).logS0 0x0A12 (u8 i ++ u8 1)

/-- `clear contactor C` (R230): the driver fault clears while the output is off. -/
def State.clearCoil (s : State) (c : Nat) : State :=
  let s := ((s.setBit Reg.CTR_FAULT c false).setBit Reg.CTR_FAULT (16 + c) false).updCoil c (fun x => { x with lost := false })
  let s := match s.strOfCoil c with | some i => s.updStr i (fun x => { x with coilFault := false }) | none => s
  s.logS0 0x0A12 (u8 c ++ u8 3)

/-- The cell view field PRE (R246): 0 idle, 1 waiting, 2 running, 3 complete, 4 failed, 5 locked out. -/
def State.preField (s : State) : Nat :=
  match s.strings.filter (fun i => (s.preOf i).isSome) with
  | [] => 0
  | l =>
    let f (i : Nat) : Nat :=
      let x := s.str i
      if s.nv.preLock.contains i then 5 else if x.attempt then 2 else if x.st = 2 ∧ !x.posOrdered ∧ x.gateLogged then 1 else x.preShow
    l.foldl (fun m i => max m (f i)) 0

end Sys2Proof.Machine
end

