-- ==== Sys2Proof/Machine/Isolator.lean ====
section
/-!
DEFINITION. The motorized isolator and the safety inputs (11, R250 to R260).
-/

namespace Sys2Proof.Machine

def State.setMdi (s : State) (m : MdiSt) : State := { s with mdi := m }

abbrev mdiUnknown : Nat := 0
abbrev mdiHoming : Nat := 1
abbrev mdiOpen : Nat := 2
abbrev mdiClosed : Nat := 3
abbrev mdiWaiting : Nat := 4
abbrev mdiMoving : Nat := 5
abbrev mdiFault : Nat := 6

/-- MDIPOS of a state: 0 unknown, 1 open, 2 closed, 3 moving, 4 fault; a waiting isolator shows the position before (Table 11-2). -/
def MdiSt.pos (m : MdiSt) : Nat :=
  if m.st = mdiUnknown then 0 else if m.st = mdiOpen then 1 else if m.st = mdiClosed then 2
  else if m.st = mdiFault then 4 else if m.st = mdiWaiting then m.posBefore else 3

/-- MDIPOS of the cell view: 0 with no isolator fitted (R258). -/
def State.mdiPos (s : State) : Nat := if s.parS .mdiFitted = 0 then 0 else s.mdi.pos

/-- MDI.STAT follows the isolator's state and position. -/
def State.showMdi (s : State) : State :=
  let p := s.mdi.pos
  let s' := if s.fld Reg.MDI_STAT 4 3 = p then s else s.setBit Reg.MDI_IRQ 2 true
  (s'.setFld Reg.MDI_STAT 0 3 s.mdi.st).setFld Reg.MDI_STAT 4 3 p

/-- The bridge is driving. -/
def State.driving (s : State) : Bool := s.bit Reg.MDI_STAT 8

/-- Position inputs: the switch of a target is active, the other inactive, both without findings (R255). -/
def MdiSt.atTarget (m : MdiSt) : Bool :=
  let tgt := m.target % 2
  decide (getField m.lvl tgt 1 = 1) && decide (getField m.lvl (1 - tgt) 1 = 0) && decide (getField m.lvl 2 2 = 0)

/-- The conditions under which an isolator move may start (R257). -/
def State.moveAllowed (s : State) : Bool :=
  let mains := (List.range 12).filter (fun c => decide (1 ≤ s.parS .ctrRole c) && decide (s.parS .ctrRole c ≤ 8))
  let floorNv : Rat := if s.gradeX then 1190625 else 890625
  let ib : Rat := (s.parN .mdiIbreak : Rat) * s.rshunt / 1000
  mains.all (fun c => !s.coilOn c && !s.fbc c)
    && decide ((s.strokeMaxLsb : Rat) * 200000000 / 2048 ≤ (if ib < floorNv then floorNv else ib))

/-- Nothing is pending on the bridge: it neither drives nor brakes, and takes no new state at the next catch. -/
def State.bridgeIdle (s : State) : Bool := !s.driving && !s.mdi.brake && s.mdi.cmd == 0

/-- The isolator left CLOSED without an applied order while a string is not OPEN: OPEN BATTERY at rank 1 and 0x0B06 (R258). -/
def State.leftClosed (s : State) (new : Nat) : State :=
  if s.strings.any (fun i => (s.str i).st ≠ 1) then (s.protectOpen tBattery).logS 0x0B06 (u8 2 ++ u8 new) else s.logS 0x0B06 (u8 2 ++ u8 new)

/-- A move is decided: counted in the tally, and the bridge drives from the next catch (R12, R255, Table 11-2); one that no order asked for takes the isolator out of CLOSED (R258). -/
def State.startMove (s : State) : State :=
  let m := s.mdi
  let duty := if m.homing then 40 else s.parI .mdiDuty
  if s.tally.bad ∧ m.target = 1 ∧ !m.homing then s.tallyDeny else
  let s := (s.tallyOp 0x20).setFld Reg.MDI_CTRL 8 8 duty
  let s := s.setMdi { m with st := if m.homing then mdiHoming else mdiMoving, cmd := 3, waitSince := none, waitLogged := false }
  let s := if m.pos = 2 ∧ !m.ordered ∧ !m.homing then s.showMdi.leftClosed 3 else s.showMdi
  if m.homing then s else s.logS 0x0B01 (u8 m.target ++ u8 duty)

/-- The bridge drives: the move's time, transitions and peak begin (R255, R256). -/
def State.driveBridge (s : State) : State :=
  let m := s.mdi
  ((s.setBit Reg.MDI_STAT 8 true).setFld Reg.MDI_STAT 16 16 0).setMdi
    { m with since := s.now, peak := 0, rev := false, cmd := 0 }

/-- A move is wanted toward a target: it is decided when R257 holds and the bridge is idle, else the isolator waits. -/
def State.wantMove (s : State) (target : Nat) (homing ordered : Bool) : State :=
  let m := s.mdi
  let s := s.setMdi { m with target := target, homing := homing, ordered := ordered, nextMove := none, posBefore := m.pos }
  if s.moveAllowed && s.bridgeIdle && !(s.tally.bad && target == 1 && !homing) then s.startMove
  else (s.setMdi { s.mdi with st := if homing then mdiHoming else mdiWaiting, waitSince := some s.now, waitLogged := false }).showMdi

/-- The bridge at a catch (R12, R255): it takes the state written in the ended stroke; STOP brakes; a GO written starts a move when R257 holds. -/
def State.mdiOutput (s : State) : State :=
  let m := s.mdi
  if m.stop && s.driving then
    ((s.setBit Reg.MDI_STAT 8 false).setMdi { m with stop := false, go := none, cmd := 0, brake := true, nextMove := none, st := mdiHoming, homing := true, target := 0 }).showMdi
  else if m.cmd = 3 then s.driveBridge
  else if m.cmd = 2 then (s.setBit Reg.MDI_STAT 8 false).setMdi { m with cmd := 0, brake := true }
  else if m.cmd = 1 then (s.setBit Reg.MDI_STAT 8 false).setMdi { m with cmd := 0 }
  else match m.go with
    | some d =>
      let s := s.setMdi { m with go := none, stop := false }
      if s.parS .mdiFitted = 0 ∨ s.driving ∨ (m.st ≠ mdiOpen ∧ m.st ≠ mdiClosed) then s
      else
        let s := s.wantMove d false false
        if s.mdi.cmd = 3 then s.driveBridge else s
    | none => if m.stop then s.setMdi { m with stop := false } else s

/-- An OPEN or CLOSE that won on MDI (R257, R260): OPEN first opens every string, and turns a move toward CLOSED around after a brake. -/
def State.winMdi (s : State) (kind : Nat) : State :=
  let m := s.mdi
  if kind = kOpen then
    let s := s.openAll
    if m.st = mdiClosed then s.wantMove 0 false true
    else if m.st = mdiMoving ∧ m.target = 1 then
      (if s.driving then (s.setMdi { m with cmd := 2, nextMove := some 0, target := 0 }).showMdi
       else (s.setMdi { m with cmd := 0 }).wantMove 0 false true)
    else if m.st = mdiWaiting ∧ m.target = 1 then (s.setMdi { m with st := mdiOpen, waitSince := none }).showMdi
    else s
  else if m.st = mdiOpen then s.wantMove 1 false true
  else s

/-- A move or a watched position ends in FAULT: 0 TIMEOUT, 1 STALL, 2 REVERSED, 3 CHATTER, 4 POSFAULT, 5 OC (R256), logged from 1 (R418). -/
def State.mdiFail (s : State) (f : Nat) : State :=
  let ms := if s.driving then (s.now - s.mdi.since) / 1000 else 0
  let s := ((s.setBit Reg.MDI_FAULT f true).setBit Reg.MDI_IRQ 1 true).setMdi { s.mdi with st := mdiFault, nextMove := none, waitSince := none, cmd := if s.driving then 1 else 0 }
  s.showMdi.logS 0x0B04 (u8 (f + 1) ++ u8 (s.fld Reg.MDI_STAT 16 4) ++ u32 ms)

/-- A watched position is lost: HOMING when both switches are inactive and clean, otherwise FAULT with POSFAULT (R259). (DEDUCED, log entry 78) -/
def State.watchPosition (s : State) : State :=
  let m := s.mdi
  let want := if m.st = mdiOpen then 1 else 2
  if getField m.lvl 0 4 = want then s
  else
    let old := m.pos
    let s := if getField m.lvl 0 4 = 0 then (s.setMdi { m with st := mdiHoming, homing := true, target := 0, waitSince := some s.now, waitLogged := false }).showMdi else s.mdiFail 4
    if old = 2 then s.leftClosed s.mdi.pos else s.logS 0x0B06 (u8 old ++ u8 s.mdi.pos)

/-- A running move at a catch: its faults in the order POSFAULT, REVERSED, CHATTER, then its success after 8 ms at the target (R255, R256); the bridge changes at the next catch. -/
def State.moveCatch (s : State) : State :=
  let m := s.mdi
  if getField m.lvl 2 2 ≠ 0 ∨ getField m.lvl 0 2 = 3 then s.mdiFail 4
  else if m.rev then s.mdiFail 2
  else if 6 < s.fld Reg.MDI_STAT 16 4 then s.mdiFail 3
  else if m.atTarget && decide (m.lvlSince + 8000 ≤ s.now) then
    let ms := (s.now - m.since) / 1000
    let s := s.setBit Reg.MDI_IRQ 0 true
    let s := (s.setMdi { m with st := if m.target = 0 then mdiOpen else mdiClosed, homing := false, cmd := 2 }).showMdi
    if m.homing then s.logS 0x0B03 (u32 ms) else s.logS 0x0B02 (u8 s.mdi.pos ++ u32 ms ++ u32 m.peak)
  else s

/-- What Camlan decides for the isolator at a catch (R255 to R260). -/
def State.mdiCatch (s : State) : State :=
  if s.parS .mdiFitted = 0 ∨ s.mdi.st = mdiUnknown then s
  else
    let m := s.mdi
    let s' : State :=
      if m.cmd ≠ 0 then s
      else if m.st = mdiFault then (if s.driving then s.setMdi { m with cmd := 1 } else s)
      else if s.driving then (if m.st = mdiMoving ∨ m.st = mdiHoming then s.moveCatch else s)
      else if m.st = mdiOpen ∨ m.st = mdiClosed then s.watchPosition
      else if m.brake then s
      else match m.nextMove with
        | some t => s.wantMove t false true
        | none => if (m.st = mdiWaiting ∨ m.st = mdiHoming) ∧ s.moveAllowed then s.startMove else s
    if s'.driving then s'.setFld Reg.MDI_STAT 20 12 (min 4095 ((s'.now - s'.mdi.since) / 10000)) else s'

/-- The motor current sensed at a catch and its peak in the move (MDI.IMEAS). -/
def State.motorMeas (s : State) (mA : Nat) : State :=
  let pk := if s.driving then max s.mdi.peak mA else s.mdi.peak
  (s.wrN Reg.MDI_IMEAS (min 65535 mA + min 65535 pk * 65536)).setMdi { s.mdi with peak := pk }

/-- Homing toward OPEN begins (R259). -/
def State.startHoming (s : State) : State :=
  if s.parS .mdiFitted = 0 then s
  else (s.setMdi { s.mdi with st := mdiHoming, homing := true, target := 0, posBefore := s.mdi.pos, nextMove := none, waitSince := some s.now, waitLogged := false }).showMdi

/-! Isolator events -/

/-- MDI_TIMEOUT (R256). -/
def doMdiTimeout (s : State) : State := if s.driving ∧ (s.mdi.st = mdiMoving ∨ s.mdi.st = mdiHoming) then s.mdiFail 0 else s

/-- MDI_STALL (R256): motor current above mdi.ilim for 200 ms. -/
def doMdiStall (s : State) : State := if s.driving ∧ (s.mdi.st = mdiMoving ∨ s.mdi.st = mdiHoming) then s.mdiFail 1 else s

/-- MDI_OVERCURRENT (R256): the bridge is off at once. -/
def doMdiOvercurrent (s : State) : State :=
  if s.driving then
    let s := (s.mdiFail 5).setBit Reg.MDI_STAT 8 false
    s.setMdi { s.mdi with cmd := 0 }
  else s

/-- MDI_BRAKE_END (R255): after 100 ms of braking the bridge turns off, or the new move follows at the next catch. (DEDUCED, log entry 77) -/
def doMdiBrakeEnd (s : State) : State := if s.mdi.brake then s.setMdi { s.mdi with brake := false } else s

/-- MDI_WAIT_DEFER (R257): a wait beyond ctr.defer is logged and goes on. -/
def doMdiWaitDefer (s : State) : State :=
  if s.mdi.waitSince.isSome ∧ !s.mdi.waitLogged then
    (s.setMdi { s.mdi with waitLogged := true }).logS 0x0B05 (u8 s.mdi.target ++ u32 (s.strokeMaxMa / 1000))
  else s

/-- MDI_GO (R255): a move in DIR at the next catch. -/
def doMdiGo (s : State) (close : Bool) : State := s.setMdi { s.mdi with go := some (if close then 1 else 0) }

/-- MDI_STOP (R255): brake and stop at the next catch; the isolator then homes (DEDUCED, log entry 39). -/
def doMdiStop (s : State) : State := s.setMdi { s.mdi with stop := true }

/-! Safety inputs -/

/-- The source of an input: SIN0 to SIN7, 8 MDI_OPEN, 9 MDI_CLOSED; 1 to 4 for TPA to TPD, 0 none (R251). -/
def State.sinSource (s : State) (n : Nat) : Nat :=
  if n < 8 then s.fld (Reg.SIN_CFG n) 0 3 else if n = 8 then s.fld Reg.MDI_CFG 0 3 else s.fld Reg.MDI_CFG 4 3

/-- TEST_PULSE_FAULT (R250): the source turns off, TPFAULT is set, 0x0B26 is logged, and its inputs read low. -/
def doTestPulseFault (s : State) (src : Nat) : State :=
  if src < 4 then
    let s := ((s.setBit Reg.SIN_TPSTAT (16 + src) true).setBit Reg.SIN_CTRL src false).setBit Reg.SIN_IRQ (16 + src) true
    let s := (List.range 10).foldl (fun s n => if s.sinSource n = src + 1 then s.setBit Reg.SIN_RAW n false else s) s
    s.logS 0x0B26 (u8 (src + 1))
  else s

/-- The source of an input does not drive: not enabled, or off after an overcurrent until it is cleared and enabled (R250); an input fed by it reads low. -/
def State.sourceOff (s : State) (n : Nat) : Bool :=
  decide (s.sinSource n ≠ 0) && (!s.bit Reg.SIN_CTRL (s.sinSource n - 1) || s.bit Reg.SIN_TPSTAT (16 + (s.sinSource n - 1)))

/-- Microseconds in the 10 ms cycle of the sources, against the time base (SIN.TPSTAT.PHASE, R250). -/
def State.tpPhase (s : State) : Nat := s.now % 10000

/-- A source's output at this time: high but for 400 us from its fall, which lies 2,500 us after that of the source before (R250). -/
def State.tpHigh (s : State) (src : Nat) : Bool :=
  s.bit Reg.SIN_CTRL src && !s.bit Reg.SIN_TPSTAT (16 + src) && decide (400 ≤ (s.tpPhase + 10000 - 2500 * src) % 10000)

/-- The levels or findings of the position switches change; an opposite switch that becomes active in a move is noted (R255, R256). -/
def State.setLvl (s : State) (b : Nat) (v : Bool) : State :=
  if decide (getField s.mdi.lvl b 1 = 1) = v then s
  else s.setMdi { s.mdi with lvl := putField s.mdi.lvl b 1 (if v then 1 else 0), lvlSince := s.now, rev := s.mdi.rev || (s.driving && v && b == 1 - s.mdi.target % 2) }

/-- SIN_LEVEL_CHANGE (R251): the filtered level of an input or of a position switch changes; none rises while its source is off (R250). -/
def doSinLevelChange (s : State) (n : Nat) (level : Bool) : State :=
  if level ∧ s.sourceOff n then s
  else if n < 8 then
    if s.bit Reg.SIN_STAT n = level then s else ((s.setBit Reg.SIN_STAT n level).setBit Reg.SIN_RAW n level).setBit Reg.SIN_IRQ n true
  else if n < 10 ∧ decide (getField s.mdi.lvl (n - 8) 1 = 1) ≠ level then
    let s := (s.setBit Reg.SIN_RAW n level).setLvl (n - 8) level
    if s.driving then s.incSat Reg.MDI_STAT 16 4 1 else s
  else s

/-- Whether the filtered level of an input is high. -/
def State.sinHigh (s : State) (n : Nat) : Bool := if n < 8 then s.bit Reg.SIN_STAT n else decide (getField s.mdi.lvl (n - 8) 1 = 1)

/-- Cross of a safety input set by a foreign source, or cleared (0x0B23). -/
def State.setCross (s : State) (n : Nat) (v : Bool) (src : Nat) : State :=
  if s.bit Reg.SIN_STAT (8 + n) = v then s
  else
    let s : State := { ((s.setBit Reg.SIN_STAT (8 + n) v).setBit Reg.SIN_IRQ (8 + n) true) with sin := { s.sin with crossBy := if v then Tab.put 0 s.sin.crossBy n src else s.sin.crossBy } }
    s.logS 0x0B23 (u8 n ++ u8 src ++ u8 (if v then 1 else 0))

/-- Stuck of a safety input set or cleared (0x0B24). -/
def State.setStuck (s : State) (n : Nat) (v : Bool) : State :=
  if s.bit Reg.SIN_STAT (16 + n) = v then s
  else ((s.setBit Reg.SIN_STAT (16 + n) v).setBit Reg.SIN_IRQ (8 + n) true).logS 0x0B24 (u8 n ++ u8 (if v then 1 else 0))

/-- SIN_FINDING (R251): cross from a foreign source, or stuck; only while the level is high and the input has a source. -/
def doSinFinding (s : State) (n : Nat) (cross : Option Nat) : State :=
  if s.sinSource n = 0 ∨ !s.sinHigh n ∨ cross = some (s.sinSource n) then s
  else if n < 8 then
    match cross with
    | some src => s.setCross n true src
    | none => s.setStuck n true
  else if n < 10 then s.setLvl (2 + (n - 8)) true
  else s

/-- SIN_FINDING_CLEAR (R251): after 10 consecutive cycles in which the level is high and both checks pass; while it is low the findings keep their state. -/
def doSinFindingClear (s : State) (n : Nat) : State :=
  if !s.sinHigh n then s
  else if n < 8 then (s.setCross n false (Tab.get 0 s.sin.crossBy n)).setStuck n false
  else if n < 10 then s.setLvl (2 + (n - 8)) false
  else s

/-- A source was written for an input: without one its findings stay 0 (R251). -/
def State.sinSourceSet (s : State) (n : Nat) : State :=
  if s.sinSource n ≠ 0 then s else (s.setCross n false (Tab.get 0 s.sin.crossBy n)).setStuck n false

/-- The partner of a TRIP input when each names the other (R254). -/
def State.sinPartner (s : State) (n : Nat) : Option Nat :=
  let p := s.parS .sinPair n
  if p = 0 then none
  else if s.parS .sinPair (p - 1) = n + 1 ∧ s.parS .sinFunc n = 2 ∧ s.parS .sinFunc (p - 1) = 2 then some (p - 1) else none

/-- The catch bank shows an input tripped: low level, cross or stuck (R252). -/
def State.bankTripped (s : State) (n : Nat) : Bool :=
  !s.bit Reg.AGR_C_SIN n || s.bit Reg.AGR_C_SIN (8 + n) || s.bit Reg.AGR_C_SIN (16 + n)

/-- Tripped for Camlan: the bank shows it, or the trip is latched; an input with function none is disabled (R252, R253). -/
def State.sinTripped (s : State) (n : Nat) : Bool :=
  decide (s.parS .sinFunc n ≠ 0) && (s.bankTripped n || decide (getField s.sin.latched n 1 = 1))

/-- SIN_PAIR_DISCREPANCY (R254): both inputs of the pair are latched tripped. -/
def doSinPairDiscrepancy (s : State) (n : Nat) : State :=
  match s.sinPartner n with
  | some p =>
    if s.sinTripped n = s.sinTripped p then s
    else
      let l := putField (putField s.sin.latched n 1 1) p 1 1
      ({ s with sin := { s.sin with latched := l } }).logS 0x0B25 (u8 (min n p) ++ u8 (max n p))
  | none => s

/-- One safety input at a catch: changes logged, the latch set, and an OPEN order of rank 2 for a tripped TRIP input (R47, R252). -/
def State.sinCatchOne (s : State) (n : Nat) : State :=
  let trip := s.sinTripped n
  let was := decide (getField s.sin.tripped n 1 = 1)
  let s := { s with sin := { s.sin with tripped := putField s.sin.tripped n 1 (if trip then 1 else 0) } }
  let s := if trip && !was then
      s.logS 0x0B21 (u8 n ++ u8 (if !s.bit Reg.AGR_C_SIN n then 1 else if s.bit Reg.AGR_C_SIN (8 + n) then 2 else if s.bit Reg.AGR_C_SIN (16 + n) then 3 else 0))
    else if was && !trip then s.logS 0x0B22 (u8 n) else s
  let s := if trip && s.parS .sinLatch n == 1 then { s with sin := { s.sin with latched := putField s.sin.latched n 1 1 } } else s
  if trip && s.parS .sinFunc n == 2 then s.placeOrder (0x08 + n) 2 kOpen (s.parS .sinTarget n) 0 0 s.now (.sin n) else s

def State.sinCatch (s : State) : State := (List.range 8).foldl State.sinCatchOne s

/-- `clear sin n` (R253): ends the latch. -/
def State.clearSinOf (s : State) (n : Nat) : State :=
  ({ s with sin := { s.sin with latched := putField s.sin.latched n 1 0 } }).logS0 0x0B27 (u8 n)

/-- `clear mdi` (R259): FAULT to HOMING. -/
def State.clearMdiOf (s : State) : State :=
  let f := ((List.range 6).find? (fun b => s.bit Reg.MDI_FAULT b)).getD 0
  (s.startHoming.clrReg Reg.MDI_FAULT 0x3F).logS0 0x0B07 (u8 (f + 1))

def execMdiTimeout (s : State) := done (doMdiTimeout s)
def execMdiStall (s : State) := done (doMdiStall s)
def execMdiOvercurrent (s : State) := done (doMdiOvercurrent s)
def execMdiBrakeEnd (s : State) := done (doMdiBrakeEnd s)
def execMdiWaitDefer (s : State) := done (doMdiWaitDefer s)
def execMdiGo (close : Bool) (s : State) := done (s.byRequester (doMdiGo s close))
def execMdiStop (s : State) := done (s.byRequester (doMdiStop s))
def execTestPulseFault (src : Nat) (s : State) := done (doTestPulseFault s src)
def execSinLevelChange (n : Nat) (level : Bool) (s : State) := done (doSinLevelChange s n level)
def execSinFinding (n : Nat) (cross : Option Nat) (s : State) := done (doSinFinding s n cross)
def execSinFindingClear (n : Nat) (s : State) := done (doSinFindingClear s n)
def execSinPairDiscrepancy (n : Nat) (s : State) := done (doSinPairDiscrepancy s n)

end Sys2Proof.Machine
end

