-- ==== Sys2Proof/Machine/Measure.lean ====
section
/-!
DEFINITION. Current, voltage and temperature measurement (07).
-/

namespace Sys2Proof.Machine

/-! Coulomb converter -/

/-- The accumulator's limit in counts with 16 fraction bits (R154, R159). -/
abbrev accMax : Int := (2 ^ 63 - 1) * 65536
abbrev accMin : Int := -(2 ^ 63) * 65536

/-- The accumulator in counts of 1 nV·s (R154). -/
def State.accCount (s : State) : Int := s.cca.acc / 65536

/-- ACCL shows the live low word. -/
def State.showAcc (s : State) : State := s.wrN Reg.CCA_ACCL (s.accCount % 4294967296).toNat

/-- The 24-bit code of a voltage: ±100 mV over 2^24 codes, an LSB of 11.92 nV (R154, Table 7-6; DEDUCED, log entry 147). -/
def ccaCode (nv : Int) : Int := clampInt (-8388608) 8388607 (roundDiv (nv * 8388608) 100000000)

/-- What a sample adds to the accumulator over its interval: code × LSB × duration, in counts of 1 nV·s with 16 fraction bits (R154). -/
def ccaAdds (code : Int) (durNs : Nat) : Int := code * durNs / 1280

/-- A conversion with the fuse trims: gain [1 ppm], offset [10 nV] (R177, Table 7-6). -/
def State.ccaTrimmed (s : State) (nv : Int) : Int :=
  roundDiv (nv * (1000000 + signed 16 (s.fld Reg.CCA_GAIN 0 16))) 1000000 + signed 16 (s.fld Reg.CCA_OFS 0 16) * 10

/-- A conversion of the fast stream with the fuse trims: gain [1 ppm], offset [10 uV], LSB 97.66 uV (R162, R177, Table 7-7). -/
def State.fcsTrimmed (s : State) (code : Int) : Int :=
  roundDiv (code * (1000000 + signed 16 (s.fld Reg.FCS_TRIM 0 16))) 1000000 + roundDiv (signed 16 (s.fld Reg.FCS_TRIM 16 16) * 1024) 10000

/-- CCA_INTERVAL (R154, R156, R158, R159): the converter's mean voltage, trimmed and signed, is the sample; sample × interval duration is added; a settling interval after a chop adds the last sample before it; in hibernation CNT consecutive samples above TH raise the current wake (R160). (DEDUCED, log entry 107) -/
def doCcaInterval (s : State) (sampleNv : Int) (durNs : Nat) : State :=
  if !s.bit Reg.CCA_CTRL 0 then s
  else
    let settling := decide (0 < s.cca.settle)
    let trimmed := s.ccaTrimmed sampleNv
    let code := if settling then s.cca.held else ccaCode (if s.bit Reg.CCA_CTRL 1 then -trimmed else trimmed)
    let sum := s.cca.acc + ccaAdds code durNs
    let sat := decide (accMax < sum) || decide (sum < accMin)
    let new := sat && !s.bit Reg.CCA_STAT 8
    let above := s.bit Reg.CCA_STAT 2 && decide (s.fld Reg.CCA_WAKE 0 24 < code.natAbs)
    let s := { s with
      cca := { acc := clampInt accMin accMax sum, settle := s.cca.settle - 1, sample := code, held := s.cca.held, wakeRun := if above then s.cca.wakeRun + 1 else 0 },
      meas := { s.meas with settled := s.meas.settled || settling } }
    let s := (s.setBit Reg.CCA_STAT 1 settling).setFld Reg.CCA_SAMPLE 0 24 (code % 16777216).toNat
    let s := if above && decide (s.fld Reg.CCA_WAKE 24 4 ≤ s.cca.wakeRun) then s.setBit Reg.CCA_IRQ 0 true else s
    let s := if sat then ((s.setBit Reg.CCA_STAT 8 true).setBit Reg.CCA_IRQ 1 true) else s
    let s := if new && s.camlanOn then s.logS 0x0707 [] else s
    s.showAcc

/-- CCA_LIVE_READ (R157): the read of ACCL latches bits [63:32] of the same value into ACCH. -/
def doCcaLiveRead (s : State) : State := s.showAcc.wrN Reg.CCA_ACCH (s.accCount / 4294967296 % 4294967296).toNat

/-- The chop at a watch (R158): polarity reversed, three settling intervals follow that add the last sample before it. -/
def State.chop (s : State) : State :=
  if s.bit Reg.CCA_CTRL 0 && s.bit Reg.CCA_CTRL 2 then
    let s := { s with cca := { s.cca with settle := 3, held := s.cca.sample } }
    s.setBit Reg.CCA_STAT 0 (!s.bit Reg.CCA_STAT 0)
  else s

/-- The CCA snapshot of a catch, and the mean current of the ended stroke: 0 at the first catch (R41, R161). -/
def State.snapshot (s : State) (durUs : Nat) : State :=
  let c := s.accCount
  let u := (c % (2 ^ 64 : Nat)).toNat
  let s := (s.wrN Reg.AGR_C_CCAL (u % 4294967296)).wrN Reg.AGR_C_CCAH (u / 4294967296)
  let cur : Int := match s.meas.snap with
    | some p => if s.rshunt ≤ 0 ∨ durUs = 0 then 0 else roundRat (((c - p : Int) : Rat) * 1000000000 / (durUs * s.rshunt))
    | none => 0
  let s := match s.meas.snap with
    | some p => if p ≤ c then s.tallyAcc 0x30 (c - p).toNat else s.tallyAcc 0x31 (p - c).toNat
    | none => s
  { s with meas := { s.meas with snap := some c, cur := cur } }

/-! Fast current stream -/

/-- The capture buffer is triggered when armed: 767 samples follow (R166). -/
def State.trigger (s : State) : State :=
  if s.bit Reg.FCS_CAP 16 || s.meas.capLeft.isSome then s else { s with meas := { s.meas with capLeft := some 767 } }

/-- One sample into the capture buffer; DONE after the last (R166). -/
def State.captureSample (s : State) (code : Int) : State :=
  if s.bit Reg.FCS_CAP 16 then s
  else
    let l := (code :: s.meas.capture).take 1024
    match s.meas.capLeft with
    | some (n + 1) =>
      let s := { s with meas := { s.meas with capture := l, capLeft := if n = 0 then none else some n } }
      if n = 0 then ((s.setBit Reg.FCS_CAP 16 true).setFld Reg.FCS_CAP 0 10 0).setBit Reg.FCS_IRQ 2 true else s
    | _ => { s with meas := { s.meas with capture := l } }

/-- FCS_SAMPLE (R162, R177): a conversion, trimmed, a 12-bit code, inverted where FCS.CTRL.INV is set; a code at either end of the range sets SAT. -/
def doFcsSample (s : State) (code : Int) : State :=
  if !s.bit Reg.FCS_CTRL 0 then s
  else
    let raw := clampInt (-2048) 2047 (s.fcsTrimmed code)
    let c := clampInt (-2048) 2047 (if s.bit Reg.FCS_CTRL 1 then -raw else raw)
    let m := s.meas
    let s := { s with meas := { m with fMin := if m.fCount = 0 then c else min m.fMin c, fMax := if m.fCount = 0 then c else max m.fMax c, fSum := m.fSum + c, fCount := m.fCount + 1 } }
    let s := s.setFld Reg.FCS_SAMPLE 0 12 (c % 4096).toNat
    let s := if raw = -2048 ∨ raw = 2047 then (s.setBit Reg.FCS_FLAGS 3 true).setBit Reg.FCS_IRQ 3 true else s
    s.captureSample c

/-- At a catch the FCS latches minimum, maximum and mean of the ended stroke (R162); without a sample they keep their values. -/
def State.fcsLatch (s : State) : State :=
  let m := s.meas
  if m.fCount = 0 then s
  else
    let mean := roundDiv (m.fSum * 16) m.fCount
    let s := s.wrN Reg.FCS_SMINMAX ((m.fMin % 4096).toNat + (m.fMax % 4096).toNat * 65536)
    let s := s.setFld Reg.FCS_SMEAN 0 20 (mean % 1048576).toNat
    { s with meas := { m with fMin := 0, fMax := 0, fSum := 0, fCount := 0 } }

/-- A comparator's threshold [nV]: code × 3.125 mV, which holds with the DAC offsets that the boot ROM loads (R163, R177). -/
def dacNv (code : Nat) : Nat := code * 3125000

/-- The level [nV] below which a comparator releases: one step below its threshold, half a step at code 1 (R163). -/
def releaseNv (code : Nat) : Nat := if code = 1 then 1562500 else dacNv code - 3125000

/-- OCS_TRIP (R163, R164, R167): the short flag is latched, OCSTIME recorded and the capture triggered; during the self-test the comparator reaches only TEST. -/
def doOcsTrip (s : State) (us nv : Nat) : State :=
  if s.fld Reg.FCS_OCS 0 6 = 0 ∨ nv ≤ dacNv (s.fld Reg.FCS_OCS 0 6) then s
  else if s.meas.selfTest then s.setBit Reg.FCS_TEST 8 true
  else
    let s := s.atUs us
    let s := ((s.setBit Reg.FCS_FLAGS 0 true).wrN Reg.FCS_OCSTIME (s.now % 4294967296)).setBit Reg.FCS_IRQ 0 true
    let peak := s.meas.capture.foldl (fun m c => if m.natAbs < c.natAbs then c else m) 0
    let s := s.trigger
    if s.camlanOn then s.logS 0x0701 (u32 (s.rdN Reg.FCS_OCSTIME) ++ s16 peak) else s

/-- BKI_TRIP (R163, R165, R167): the break-inhibit line is asserted to the coil drivers. -/
def doBkiTrip (s : State) (nv : Nat) : State :=
  if s.fld Reg.FCS_BKI 0 6 = 0 ∨ nv ≤ dacNv (s.fld Reg.FCS_BKI 0 6) then s
  else if s.meas.selfTest then s.setBit Reg.FCS_TEST 9 true
  else (((s.setBit Reg.FCS_FLAGS 1 true).setBit Reg.FCS_FLAGS 2 true).setBit Reg.FCS_IRQ 1 true).setBit Reg.CTR_BKI 0 true

/-- BKI_RELEASE (R163, R167): the magnitude has stayed below the release level, and the line is released; a disabled comparator releases too. -/
def doBkiRelease (s : State) (nv : Nat) : State :=
  if s.meas.selfTest ∨ (s.fld Reg.FCS_BKI 0 6 ≠ 0 ∧ releaseNv (s.fld Reg.FCS_BKI 0 6) ≤ nv) then s
  else (s.setBit Reg.FCS_FLAGS 1 false).setBit Reg.CTR_BKI 0 false

/-- CAPTURE_TRIGGER (R166). -/
def doCaptureTrigger (s : State) : State := s.trigger

/-- CAPTURE_ARM (R166). -/
def doCaptureArm (s : State) : State :=
  { ((s.setBit Reg.FCS_CAP 16 false).setFld Reg.FCS_CAP 0 10 0) with meas := { s.meas with capLeft := none } }

/-- CAPTURE_READ (R166): the sample at POS, oldest first; the read advances POS. -/
def doCaptureRead (s : State) : State :=
  let pos := s.fld Reg.FCS_CAP 0 10
  let v := s.meas.capture.reverse.getD pos 0
  (s.setFld Reg.FCS_CAPDATA 0 12 (v % 4096).toNat).setFld Reg.FCS_CAP 0 10 (pos + 1)

/-- FCS_SELF_TEST (R167): 180 mV for 20 us; the comparators reach only TEST. -/
def doFcsSelfTest (s : State) : State :=
  { ((s.setFld Reg.FCS_TEST 8 3 0)) with meas := { s.meas with selfTest := true } }

/-- FCS_SELF_TEST_END (R167): the results; a failure sets STFAIL, is logged with 0x0703 and leads to easy 0x18; the latency shown in LAT is a free value (DESIGN CHOICE, log entry 1). -/
def doFcsSelfTestEnd (s : State) (ocs bki : Bool) (meanCode : Int) : State :=
  if !s.meas.selfTest then s
  else
    let uv := meanCode * 200000000 / 2048
    let mok := decide (171000000 ≤ uv) && decide (uv ≤ 189000000)
    let (lat, s) := s.free
    let s := { s with meas := { s.meas with selfTest := false } }
    let s := s.setFld Reg.FCS_TEST 16 8 (lat % 256)
    let s := ((s.setBit Reg.FCS_TEST 8 ocs).setBit Reg.FCS_TEST 9 bki).setBit Reg.FCS_TEST 10 mok
    if ocs && bki && mok then s
    else ((s.setBit Reg.FCS_FLAGS 4 true).logS 0x0703 (u8 (s.fld Reg.FCS_TEST 8 3))).easyAtEnd 0x18

/-! High-voltage sense -/

/-- A mean with the trims of its channel, factory and installer (R170, R177, Table 7-8). -/
def State.hvsTrimmed (s : State) (c mean : Nat) : Nat :=
  let gain := signed 16 (s.fld (Reg.HVS_TRIM c) 0 16)
  let ofs := signed 16 (s.fld (Reg.HVS_TRIM c) 16 16)
  (clampInt 0 65535 (roundDiv ((mean : Int) * (1000000 + gain)) 1000000 + ofs)).toNat

/-- HVS_CONVERSION (R169, R170, R172): RAW takes the code; MEAN the mean of the newest codes, those of the 1 uA test excluded; full scale sets SAT. -/
def doHvsConversion (s : State) (ch code : Nat) : State :=
  if 6 ≤ ch then s
  else if !s.bit Reg.HVS_CTRL ch then s.wrN (Reg.HVS_CH ch) 0
  else
    let code := min code 65535
    let s := s.setFld (Reg.HVS_CH ch) 0 16 code
    let s := if code = 65535 then (s.setBit Reg.HVS_STAT (8 + ch) true).setBit Reg.HVS_IRQ 1 true else s
    if getField s.meas.hvsTest ch 1 = 1 then s
    else
      let n := 2 ^ s.fld Reg.HVS_CTRL 8 3
      let w := (code :: Tab.get [] s.meas.hvs ch).take n
      let mean := (w.foldl (· + ·) 0) / w.length
      let s := { s with meas := { s.meas with hvs := Tab.put [] s.meas.hvs ch w } }
      s.setFld (Reg.HVS_CH ch) 16 16 (s.hvsTrimmed ch mean)

/-- HVS_TEST (R172): the test current out of the named enabled channels. -/
def doHvsTest (s : State) (mask : Nat) : State := { s with meas := { s.meas with hvsTest := mask &&& s.fld Reg.HVS_CTRL 0 6 } }

/-- HVS_TEST_END (R172): OPEN is set or cleared for each tested channel; each change is logged with 0x0704. -/
def doHvsTestEnd (s : State) (fullScale : Nat) : State :=
  let t := s.meas.hvsTest
  let s := (List.range 6).foldl (fun s c =>
    if getField t c 1 = 0 then s
    else
      let isOpen := decide (getField fullScale c 1 = 1)
      if s.bit Reg.HVS_STAT c = isOpen then s
      else ((s.setBit Reg.HVS_STAT c isOpen).setBit Reg.HVS_IRQ 0 true).logS 0x0704 (u8 c ++ u8 (if isOpen then 1 else 0))) s
  { s with meas := { s.meas with hvsTest := 0 } }

/-! Temperature inputs -/

/-- The code of an NTC conversion with the reference trim [1 ppm], in steps of four counts (R174, R177). -/
def State.ntcCode (s : State) (code : Nat) : Nat :=
  (clampInt 0 65535 (roundDiv ((code : Int) * (1000000 + signed 16 (s.fld Reg.TMP_REFTRIM 0 16))) 1000000)).toNat / 4 * 4

/-- One local NTC input converted (R174). -/
def State.ntcConvert (s : State) (m code : Nat) : State :=
  if !s.bit Reg.TMP_CTRL m then s
  else
    let code := s.ntcCode code
    let opened := decide (63570 < code)
    let short := decide (code < 1966)
    let was := s.bit (Reg.TMP_LT m) 16 || s.bit (Reg.TMP_LT m) 17
    let s := s.wrN (Reg.TMP_LT m) (code + (if opened then 65536 else 0) + (if short then 131072 else 0))
    if (opened || short) && !was then s.setBit Reg.TMP_IRQ m true else s

/-- TMP_CONVERSION (R174, R176): every input and the die sensor. -/
def doTmpConversion (s : State) (codes : List Nat) (dieCenti : Int) : State :=
  let s := ((List.range 8).zip codes).foldl (fun s e => s.ntcConvert e.1 e.2) s
  if s.bit Reg.TMP_CTRL 8 then s.setFld Reg.TMP_DIE 0 16 (clampInt (-32768) 32767 dieCenti % 65536).toNat else s

/-! Camlan's checks at a catch -/

/-- The CCA and FCS mean currents of the ended stroke are compared (R168); the run begins anew when it has led to 0x0702 (DESIGN CHOICE, log entry 148). -/
def State.crossCheck (s : State) : State :=
  let skip := s.meas.settled || s.bit Reg.FCS_FLAGS 3
  let s := { s with meas := { s.meas with settled := false } }
  if skip || decide (s.rshunt ≤ 0) then s
  else
    let fcs : Rat := (signed 20 (s.fld Reg.FCS_SMEAN 0 20) : Rat) / 16 * 200000000 / 2048 * 1000 / s.rshunt
    let full : Rat := 200000000 * 1000 / s.rshunt
    let d : Rat := (s.meas.cur : Rat) - fcs
    let lim : Rat := full * s.parN .measXchk / 100000
    if lim < d ∨ d < -lim then
      let run := s.meas.xRun + 1
      let s := { s with meas := { s.meas with xRun := run } }
      if s.parI .measXchkN ≤ run then
        (({ s with meas := { s.meas with xRun := 0 } }).logS 0x0702 (s32 (s.meas.cur / 1000) ++ s32 (roundRat (fcs / 1000)))).easy 0x17
      else s
    else { s with meas := { s.meas with xRun := 0 } }

/-- SAT is read and cleared at a catch; logged with 0x0708 at the first, then at most once per watch (R162). -/
def State.satCheck (s : State) : State :=
  if s.bit Reg.FCS_FLAGS 3 then
    let n := s.meas.satCount + 1
    let first := !s.meas.satLogged
    let s := { (s.setBit Reg.FCS_FLAGS 3 false) with meas := { s.meas with satCount := n, satLogged := true } }
    if first then s.logS 0x0708 (u32 n) else s
  else s

/-- An enabled NTC input changing to invalid or valid again is logged with 0x0706 (R175). -/
def State.ntcCheck (s : State) : State :=
  (List.range 8).foldl (fun s m =>
    if !(s.parL .tmpEn).contains m then s
    else
      let bad := (s.ntcOf m (s.ltCode m)).isNone
      let was := decide (getField s.meas.ltInvalid m 1 = 1)
      if bad = was then s
      else
        ({ s with meas := { s.meas with ltInvalid := putField s.meas.ltInvalid m 1 (if bad then 1 else 0) } }).logS 0x0706
          (u8 m ++ u16 (s.ltCode m) ++ u8 (if bad then 1 else 0))) s

def execCcaInterval (sampleNv : Int) (durNs : Nat) (s : State) := done (doCcaInterval s sampleNv durNs)
def execCcaLiveRead (s : State) := done (s.byRequester (doCcaLiveRead s))
def execOcsTrip (us nv : Nat) (s : State) := done (doOcsTrip s us nv)
def execBkiTrip (nv : Nat) (s : State) := done (doBkiTrip s nv)
def execBkiRelease (nv : Nat) (s : State) := done (doBkiRelease s nv)
def execCaptureTrigger (s : State) := done (s.byRequester (doCaptureTrigger s))
def execCaptureArm (s : State) := done (s.byRequester (doCaptureArm s))
def execCaptureRead (s : State) := done (s.byRequester (doCaptureRead s))
def execFcsSelfTest (s : State) := done (s.byRequester (doFcsSelfTest s))
def execFcsSelfTestEnd (ocs bki : Bool) (meanCode : Int) (s : State) := done (doFcsSelfTestEnd s ocs bki meanCode)
def execHvsTest (mask : Nat) (s : State) := done (s.byRequester (doHvsTest s mask))
def execHvsTestEnd (fullScale : Nat) (s : State) := done (doHvsTestEnd s fullScale)
def execFcsSample (code : Int) (s : State) := done (doFcsSample s code)
def execHvsConversion (ch code : Nat) (s : State) := done (doHvsConversion s ch code)
def execTmpConversion (codes : List Nat) (dieCenti : Int) (s : State) := done (doTmpConversion s codes dieCenti)

end Sys2Proof.Machine
end

