-- ==== Sys2Proof/Machine/Reset.lean ====
section
/-!
DEFINITION. What a reset leaves: the survivors of R117, the safe levels of R115, and the causes of R113. Every reset of the part goes through `assertReset`.
-/

namespace Sys2Proof.Machine

/-- Registers held in fuses or eflash: they survive every reset (R117, Table 5-13). -/
def fuseReg (a : Nat) : Bool :=
  decide (a = Reg.LCS_STATE) || decide (a = Reg.LCS_FUSES) || decide (a = Reg.LCS_WIPESET) || decide (a = Reg.LCS_TCOUNT)

/-- Registers of the always-on domain and the retained COX records (R63, R117, Tables 6-9 and 7-6; DEDUCED, log entry 8 for the KPA). -/
def alwaysOnReg (a : Nat) : Bool :=
  decide (a = Reg.RST_CAUSE) || decide (a = Reg.RST_LAST) || decide (a = Reg.RST_COUNT)
    || (decide (Reg.RST_RETAIN 0 ≤ a) && decide (a ≤ Reg.RST_RETAIN 3))
    || decide (a = Reg.COX_MMGRP) || decide (a = Reg.COX_MMPC) || decide (a = Reg.COX_MMSTROKE) || decide (a = Reg.COX_MMINFO)
    || decide (a = Reg.COX_MMADDR)
    || (decide (Reg.CCA_CTRL ≤ a) && decide (a ≤ Reg.CCA_WAKE))
    || (decide (Reg.KPA_CTRL ≤ a) && decide (a ≤ Reg.KPA_MEAS3)) || decide (a = Reg.KPA_BSCFG)

/-- Registers that a reset other than POR preserves. -/
def keptReg (a : Nat) : Bool := fuseReg a || alwaysOnReg a

/-- Memory that every reset preserves: eflash and the tag EEPROM (R117). -/
def keptMem (a : Nat) : Bool := inEflash a || (decide (0x50000000 ≤ a) && decide (a ≤ 0x50001FFF))

/-- The charger and the auxiliary output stop; tracking and source selection go on (R115). -/
def State.stopKpa (s : State) : State :=
  let s := (s.clrReg Reg.KPA_CTRL 0xB).clrReg Reg.KPA_STAT (0x10 * 256 + 0x20 * 256 + 0x40 * 256)
  { s with kpa := { s.kpa with pause := 0, probe := false, ov := false, lost := false, chargeUs := 0, removed := false, supplement := false, setMa := 0 } }

/-- The field side of the tag goes on through a reset (R115, R379); the row buffer, the semaphore and what Camlan knows are lost. -/
def TagSt.kept (t : TagSt) : TagSt := { TagSt.init with field := t.field, air := t.air, star := t.star, sector := t.sector }

/-- A console through a reset: nothing but that its session stood above VIEW (R330). -/
def ConSt.reset (c : ConSt) : ConSt := { ConSt.init with wasUp := c.wasUp || decide (c.level ≠ .view) }

/-- An erase that a reset interrupts leaves its sector neither erased nor valid: free bytes (R365). -/
def State.cutErase (s : State) : State :=
  let e := match s.tally.op with
    | some (1, e) => some e
    | _ => s.tally.suspended
  match e with
  | some e =>
    s.spoil (0x08000000 + e) 0x2000
  | none => s

/-- The part while a reset is held: only the survivors of R117 keep their values, and every output is off because every other register is at its reset value (R115, R118). -/
def State.heldBy (s : State) (cause : Nat) : State :=
  let s := s.cutErase
  { State.reset with
    regs := Tab.drop (fun a => !keptReg a) s.regs,
    mem := Tab.drop (fun a => !keptMem a) s.mem,
    power := { PowerSt.init with phase := .held, cause := cause },
    nv := s.nv, inForce := s.nv.confirmed, ao := s.ao, cca := s.cca, kpa := s.kpa, tag := s.tag.kept, con0 := s.con0.reset, con1 := s.con1.reset,
    pending := s.pending, freeCtr := s.freeCtr }

/-- RST.LAST, CAUSE and COUNT take the new reset (R113). -/
def State.countReset (s : State) (cause : Nat) : State :=
  ((s.setFld Reg.RST_LAST 0 4 cause).setBit Reg.RST_CAUSE cause true).incSat Reg.RST_COUNT 0 16 1

/-- A reset of a cause other than POR is asserted (R113, R115, R117): the CCA converts at its normal rate again (R154), and lock-step and fatal-memory resets are counted in MMINFO. -/
def State.assertReset (s : State) (cause : Nat) : State :=
  let s := ((s.heldBy cause).stopKpa.countReset cause).setBit Reg.CCA_STAT 2 false
  if cause = 3 ∨ cause = 4 then s.incSat Reg.COX_MMINFO 8 8 1 else s

/-- The power-on reset is asserted: it clears the always-on domain and the retained records too (R109, R117). -/
def State.assertPor (s : State) : State :=
  let s := s.cutErase
  { State.reset with
    regs := Tab.drop (fun a => !fuseReg a) s.regs,
    mem := Tab.drop (fun a => !keptMem a) s.mem,
    power := { PowerSt.init with phase := .porHeld, cause := 0 },
    nv := s.nv, inForce := s.nv.confirmed, tag := s.tag.kept, con0 := s.con0.reset, con1 := s.con1.reset, pending := s.pending, freeCtr := s.freeCtr }

/-- Hibernation ends and the part restarts with cause WAKE (R285); the always-on time base has counted the hibernation, whose length comes from outside (DESIGN CHOICE, log entry 9). -/
def State.wake (s : State) (src : Nat) : State :=
  match s.power.phase with
  | .hibernating =>
    let (n, s) := s.free
    let s := (s.assertReset 7)
    { s with power := { s.power with wakeSrc := src, sleptS := n }, ao := { s.ao with us := s.ao.us + n * 1000000 } }
  | _ => s

/-- The code of a reset cause (Table 5-4). -/
def causeCode : ResetCause → Nat
  | .por => 0 | .pin => 1 | .soft => 2 | .lockstep => 3 | .eccFatal => 4 | .stall => 5 | .clkLoss => 6 | .wake => 7 | .debug => 8 | .lcs => 9

end Sys2Proof.Machine
end

