-- ==== Sys2Proof/Machine/Keepalive.lean ====
section
/-!
DEFINITION. The keep-alive power path (06): source selection, tracking, black start, the backup charger, ship mode, the button and the auxiliary output.
-/

namespace Sys2Proof.Machine

def State.setKpa (s : State) (k : KpaSt) : State := { s with kpa := k }

/-- Camlan logs a keep-alive event while it runs. -/
def State.logKpa (s : State) (code : Nat) (args : List Byte) : State := if s.camlanOn then s.logS code args else s

/-- A code of a KPA register or record that the manual names without giving its value (DESIGN CHOICE, log entry 1). -/
def kpaCode (place n : Nat) : Nat := Config.freeOf place n

/-! Sources (R131 to R133) -/

abbrev srcPack : Nat := 0
abbrev srcKin : Nat := 1
abbrev srcKbat : Nat := 2
abbrev srcNone : Nat := 3

def State.ksrc (s : State) : Nat := s.fld Reg.KPA_STAT 0 2

/-- Flag b of KPA.STAT.FLAGS: 0 PA_OK, 1 KIN_OK, 2 KBAT_OK, 3 KIN_SHORT, 4 CUT, 5 CHG_ACTIVE, 6 KBAT_FAULT, 7 KBTN. -/
def State.kflag (s : State) (b : Nat) : Bool := s.bit Reg.KPA_STAT (8 + b)

def State.setKflag (s : State) (b : Nat) (v : Bool) : State := s.setBit Reg.KPA_STAT (8 + b) v

/-- Charger states (Table 6-4). -/
abbrev cOff : Nat := 0
abbrev cDetect : Nat := 1
abbrev cTrickle : Nat := 2
abbrev cPre : Nat := 3
abbrev cCc : Nat := 4
abbrev cCv : Nat := 5
abbrev cDone : Nat := 6
abbrev cPause : Nat := 7
abbrev cFault : Nat := 8
abbrev cMissing : Nat := 9

def State.chg (s : State) : Nat := s.fld Reg.KPA_CHGST 0 4

/-- The charger is in TRICKLE, PRECHARGE, CC or CV: KBAT is not a source candidate (R143). -/
def State.charging (s : State) : Bool := decide (cTrickle ≤ s.chg) && decide (s.chg ≤ cCv)

/-- The source the hardware selects: PACKAUX, then KIN, then KBAT (R131, Table 6-2). -/
def State.bestSource (s : State) : Nat :=
  if s.kflag 0 then srcPack
  else if s.kflag 1 && !s.bit Reg.KPA_CTRL 3 then srcKin
  else if s.kflag 2 && !s.charging then srcKbat
  else srcNone

/-- A change of source is shown, raises its interrupt and is logged with 0x0601 (R131, Table 6-8). -/
def State.selectSource (s : State) (cause : Nat) : State :=
  let old := s.ksrc
  let new := s.bestSource
  if old = new then s
  else ((s.setFld Reg.KPA_STAT 0 2 new).setBit Reg.KPA_IRQ 0 true).logKpa 0x0601 (u8 old ++ u8 new ++ u8 (kpaCode 0x0601 cause))

/-- KINHOLD disqualifies KIN, which must then qualify again (R131, R132, Table 6-2). -/
def State.kinHeld (s : State) : State :=
  (if s.bit Reg.KPA_CTRL 3 then (s.setKflag 1 false).setKflag 3 false else s).selectSource 4

/-- KPA.CTRL.KINHOLD takes KIN out of the selection, or lets it qualify again (R135). (DEDUCED, log entry 83) -/
def State.kinHold (s : State) (v : Bool) : State := (s.setBit Reg.KPA_CTRL 3 v).kinHeld

/-- A flag of KPA.STAT as Camlan knows it: out of the catch bank (R13, Table 2-10). -/
def State.agreedKpa (s : State) (b : Nat) : Bool := s.bit Reg.AGR_C_FLAGS (8 + b)

/-- Camlan may order KINSW open (R135). -/
def State.kinMayOpen (s : State) : Bool := s.agreedKpa 0 || s.agreedKpa 2

/-- Camlan starts the Sculls (R102, R139): PART.CTRL.SCULLEN. -/
def State.startSculls (s : State) : State := if s.rowing then s.orReg Reg.PART_CTRL 0xF else s

/-- A black start ends when PACKAUX qualifies or KBAT becomes usable (R139). -/
def State.endBlack (s : State) : State := s.setBit Reg.KPA_STAT 16 false

/-! Charger (R140 to R148) -/

/-- Chemistry: 0 none, 1 Li-ion, 2 LiFePO4, 3 NiMH. -/
def State.chem (s : State) : Nat := s.fld Reg.KPA_CHG0 0 2
def State.kcells (s : State) : Nat := s.fld Reg.KPA_CHG0 4 4

/-- A per-cell level of Table 6-3 for Li-ion, LiFePO4, NiMH, times the cells [mV]. -/
def State.perCell (s : State) (li lfp nimh : Nat) : Nat :=
  (if s.chem = 1 then li else if s.chem = 2 then lfp else nimh) * s.kcells

def State.trickleMv (s : State) : Nat := s.perCell 2200 2000 800
def State.preMv (s : State) : Nat := s.perCell 3000 2600 1000
/-- The CV voltage; the charger delivers at most 17.6 V (R140). -/
def State.cvMv (s : State) : Nat := min 17600 (s.fld Reg.KPA_CHG1 16 16 * s.kcells)
/-- The levels at which KBAT is usable as a source, and below which it is cut (Table 6-3). -/
def State.usableMv (s : State) : Nat := s.perCell 3200 2900 1000
def State.cutMv (s : State) : Nat := s.perCell 2900 2600 900
def State.rechargeMv (s : State) : Nat := if s.chem = 3 then 1280 * s.kcells else s.cvMv - s.perCell 150 200 0

/-- CV − KBAT limits of a zone [mV] for Li-ion and LiFePO4 (Table 6-5). -/
def State.zoneCvMv (s : State) (zone : Nat) : Nat :=
  s.cvMv - (if zone = 3 then s.perCell 100 50 0 else if zone = 4 then s.perCell 200 100 0 else 0)

/-- Zones in which the chemistry pauses (Table 6-5). -/
def State.zonePauses (s : State) (zone : Nat) : Bool :=
  decide (zone = 0) || decide (zone = 5) || (decide (zone = 4) && decide (s.chem = 3))

/-- The current of a zone [mA]: a share of kpa.chg_icc, or C/10 in Z4 (Table 6-5). -/
def State.zoneMa (s : State) (zone : Nat) : Nat :=
  let icc := s.fld Reg.KPA_CHG1 0 16
  if zone = 1 then icc * (if s.chem = 3 then 25 else 50) / 100
  else if zone = 2 then icc
  else if zone = 3 then icc * 50 / 100
  else if zone = 4 then s.fld Reg.KPA_CHG0 16 16 / 10
  else 0

/-- The current the charger gives in its state [mA]: 10 mA for the short probe and in TRICKLE, C/10 in PRECHARGE, each at most that of the zone, the zone's in CC and CV, and never more than 2.0 A (R140, R142, R144). -/
def State.chargeMa (s : State) : Nat :=
  let zone := s.zoneMa (s.fld Reg.KPA_CHGST 4 3)
  if s.kpa.ov then 0
  else if s.chg = cDetect then (if s.kpa.probe then 10 else 0)
  else if s.chg = cTrickle then min 10 zone
  else if s.chg = cPre then min 2000 (min (s.fld Reg.KPA_CHG0 16 16 / 10) zone)
  else if s.chg = cCc ∨ s.chg = cCv then min 2000 zone
  else 0

/-- The charger follows its state. -/
def State.setCurrent (s : State) : State := s.setKpa { s.kpa with setMa := s.chargeMa }

/-- Breakpoint T0 to T4 [0.01 °C] (KPA.ZONE0, ZONE1). -/
def State.zoneT (s : State) (i : Nat) : Int :=
  signed 8 (if i < 4 then s.fld Reg.KPA_ZONE0 (8 * i) 8 else s.fld Reg.KPA_ZONE1 0 8) * 100

/-- The zone of a KTH temperature, left toward Z2 only past the hysteresis (R144). (DEDUCED, log entry 82) -/
def State.zoneOf (s : State) (old : Nat) (t : Int) : Nat :=
  let h : Int := s.fld Reg.KPA_ZONE1 8 4 * 100
  let above (i : Nat) : Bool :=
    if i < 2 then (if old ≤ i then decide (s.zoneT i + h ≤ t) else decide (s.zoneT i ≤ t))
    else (if i < old then decide (s.zoneT i - h < t) else decide (s.zoneT i ≤ t))
  ((List.range 5).filter above).length

/-- The charger enters a state; the phases are logged with 0x0607 (Table 6-8). -/
def State.toCharge (s : State) (new : Nat) : State :=
  let old := s.chg
  if old = new then s
  else
    let phase (n : Nat) : Bool := (decide (cTrickle ≤ n) && decide (n ≤ cCv)) || decide (n = cPause)
    let s := (s.setFld Reg.KPA_CHGST 0 4 new).setKflag 6 (decide (new = cFault))
    let s := s.setKflag 5 (s.charging && !s.kpa.ov)
    let s := if phase old || phase new then s.logKpa 0x0607 (u8 old ++ u8 new ++ u8 (s.fld Reg.KPA_CHGST 4 3)) else s
    s.setCurrent.selectSource 5

/-- A charge fault: FAULT, REASON, 0x0609 with 1 timer, 2 overvoltage, 3 KTH shorted, 4 short; a short is logged with 0x0606 too (R142, R418). -/
def State.chargeFault (s : State) (reason : Nat) : State :=
  let s := s.setKpa { s.kpa with probe := false, ov := false, pause := 0 }
  let s := (s.setFld Reg.KPA_CHGST 8 4 (kpaCode 0x703C (4 + reason))).setBit Reg.KPA_IRQ 4 true
  let s := s.setKflag 2 false
  ((s.toCharge cFault).logKpa 0x0609 (u8 reason)).selectSource 5

/-- A charge ends in DONE: 0x0608 with 1 taper, 2 −ΔV, 3 dT/dt, 4 `kbat stop`; the backup SOC becomes 100 % (R146, R147, R281), and the tally counts it. -/
def State.chargeDone (s : State) (reason : Nat) : State :=
  let s := s.setKpa { s.kpa with probe := false, pause := 0, chargeUs := 0, soc := some 100 }
  let s := (s.setFld Reg.KPA_CHGST 8 4 (kpaCode 0x703C reason)).setBit Reg.KPA_IRQ 3 true
  let s := if s.camlanOn then s.tallyOp 0x60 else s
  (s.toCharge cDone).logKpa 0x0608 (u8 reason)

/-- A phase with its pauses applied: zone, zone CV below KBAT, headroom (R144, R145). -/
def State.enterPhase (s : State) (phase kbatMv : Nat) : State :=
  let zone := s.fld Reg.KPA_CHGST 4 3
  let cvLow := decide (s.chem ≠ 3) && (decide (phase = cCc) || decide (phase = cCv)) && decide (s.zoneCvMv zone < kbatMv)
  let p := putField (putField s.kpa.pause 0 1 (if s.zonePauses zone then 1 else 0)) 1 1 (if cvLow then 1 else 0)
  let s := s.setKpa { s.kpa with phase := phase, pause := p }
  s.toCharge (if p = 0 then phase else cPause)

/-- DETECT: the short test, then the phase by the KBAT voltage (R142, Table 6-4). -/
def State.detect (s : State) (kbatMv : Nat) : State :=
  let s := (s.setKpa { s.kpa with chargeUs := 0, pause := 0, lost := false, ov := false }).toCharge cDetect
  if kbatMv < 1000 then (s.setKpa { s.kpa with probe := true }).setCurrent
  else
    let s := s.setKpa { s.kpa with probe := false }
    if kbatMv < s.trickleMv then s.enterPhase cTrickle kbatMv
    else if kbatMv < s.preMv then s.enterPhase cPre kbatMv
    else if kbatMv < s.rechargeMv then s.enterPhase cCc kbatMv
    else s.toCharge cDone

/-- The charger may run: enabled, a battery chemistry set, a battery present that supplements no source, and a source on KVIN (R133, R143). -/
def State.mayCharge (s : State) : Bool :=
  s.bit Reg.KPA_CTRL 0 && decide (s.chem ≠ 0) && s.kpa.present && !s.kpa.supplement && (decide (s.ksrc = srcPack) || decide (s.ksrc = srcKin))

def State.kbatMv (s : State) : Nat := s.fld Reg.KPA_MEAS2 0 16

/-- The charger leaves OFF for DETECT once it may run (Table 6-4). -/
def State.chargeFromOff (s : State) : State := if s.chg = cOff ∧ s.mayCharge then s.detect s.kbatMv else s

/-- AUXEN or the mode of the auxiliary output changed (R152, Table 6-6). -/
def State.auxWritten (s : State) : State :=
  if s.bit Reg.KPA_CTRL 1 && decide (s.fld Reg.KPA_AUXCFG 0 2 ≠ 0) then (if s.fld Reg.KPA_AUXST 0 3 = 0 then s.setFld Reg.KPA_AUXST 0 3 1 else s)
  else s.setFld Reg.KPA_AUXST 0 3 0

/-- A write of CHGEN or AUXEN takes effect (Tables 6-4 and 6-6). -/
def State.kpaCtrlWritten (s : State) : State :=
  let s := if s.bit Reg.KPA_CTRL 0 then s.chargeFromOff
    else if s.chg = cFault ∨ s.chg = cMissing then s else s.toCharge cOff
  s.auxWritten

/-- At the end of the stake-boat interval the charger and the auxiliary output are enabled as configured (R129, Table 5-8). -/
def State.enableKpa (s : State) : State :=
  ((s.setBit Reg.KPA_CTRL 0 (decide (s.parS .kpaKbatChem ≠ 3))).setBit Reg.KPA_CTRL 1 (decide (s.parS .kpaAuxMode ≠ 0))).kpaCtrlWritten

/-! Source events -/

/-- The system load alone exceeds KIN and no supplement is possible (R133): KIN_SHORT, its interrupt and 0x0602. -/
def State.kinShort (s : State) : State :=
  if s.kflag 3 then s
  else
    let s := (s.setKflag 3 true).setBit Reg.KPA_IRQ 6 true
    s.logKpa 0x0602 (u16 (s.fld Reg.KPA_MEAS0 0 16) ++ u32 (s.fld Reg.KPA_MEAS0 0 16 * s.fld Reg.KPA_MEAS0 16 16 / 1000))

/-- Whether a source meets its qualifying level [mV] (Table 6-2), at its nominal value (DESIGN CHOICE, log entry 143). -/
def State.qualifies (s : State) (src : KSource) (mv : Nat) : Bool :=
  match src with
  | .packaux => decide (9000 ≤ mv) && decide (mv < (if s.kpa.paRe then 60000 else 62000))
  | .kin => decide (9000 ≤ mv) && decide (mv < 62000) && !s.bit Reg.KPA_CTRL 3 && (s.kflag 0 || s.kflag 2)
  | .kbat => s.kpa.present && decide (s.chg ≠ cFault) && decide (s.usableMv ≤ mv)

/-- Whether a source meets its disqualifying level [mV] (Table 6-2; DESIGN CHOICE, log entry 143). -/
def State.disqualifies (s : State) (src : KSource) (mv : Nat) : Bool :=
  match src with
  | .packaux => decide (mv < 8500) || decide (62000 < mv)
  | .kin => (decide (mv ≤ s.fld Reg.KPA_KINCFG 0 16) && s.kflag 3) || decide (62000 < mv)
  | .kbat => decide (mv < s.cutMv)

/-- SOURCE_QUALIFY (R131, R139, R143): the source meets its level for its time. KIN with no other source qualifies by BLACK_START_QUALIFY alone (Table 6-2). -/
def doSourceQualify (s : State) (src : KSource) (mv : Nat) : State :=
  if !s.qualifies src mv then s
  else match src with
    | .packaux => (((s.setKflag 0 true).selectSource 1).endBlack).chargeFromOff
    | .kin => ((s.setKflag 1 true).selectSource 2).chargeFromOff
    | .kbat => ((s.setKflag 2 true).selectSource 3).endBlack

/-- SOURCE_DISQUALIFY (R131, R132): the next qualified source takes over; a KBAT that supplemented KIN leaves the shortfall to R133. -/
def doSourceDisqualify (s : State) (src : KSource) (mv : Nat) : State :=
  if !s.disqualifies src mv then s
  else match src with
    | .packaux => ((s.setKflag 0 false).setKpa { s.kpa with paRe := true }).selectSource 1
    | .kin => (((s.setKflag 1 false).setKflag 3 false).setKpa { s.kpa with supplement := false }).selectSource 2
    | .kbat =>
      let t := ((s.setKflag 2 false).setKpa { s.kpa with supplement := false }).selectSource 3
      if s.kpa.supplement && decide (t.ksrc = srcKin) then t.kinShort else t

/-- SOURCE_LIMIT (R133): the charger is cut back first, then the auxiliary output; a short KIN is supplemented by a usable KBAT with the charger off, or KIN_SHORT is set; KIN_SHORT clears when the shortfall or its want of a supplement ends (DESIGN CHOICE, log entry 144), and the charger resumes in DETECT (R143). -/
def doSourceLimit (s : State) (chargerCut auxCut systemShort : Bool) : State :=
  let s := s.setKflag 4 (chargerCut || auxCut)
  if systemShort && decide (s.ksrc = srcKin) then
    if s.kflag 2 then
      let s := (s.setKflag 3 false).setKpa { s.kpa with supplement := true }
      if s.charging ∨ s.chg = cPause ∨ s.chg = cDetect then s.toCharge cOff else s
    else s.kinShort
  else ((s.setKflag 3 false).setKpa { s.kpa with supplement := false }).chargeFromOff

/-- MPPT_STEP (R136): VREF moves by 0.5 %, bounded by kpa.kin_vmin and 0.95 × VOC, while KIN is limited. -/
def doMpptStep (s : State) (rose : Bool) : State :=
  if s.ksrc = srcKin ∧ (s.kflag 3 ∨ s.kflag 4) ∧ s.bit Reg.KPA_CTRL 2 then
    let up := if rose then s.kpa.up else !s.kpa.up
    let v := s.fld Reg.KPA_MPPT 0 16
    let w := roundDiv ((v : Int) * (if up then 1005 else 995)) 1000
    let hi : Int := s.fld Reg.KPA_MPPT 16 16 * 95 / 100
    let w := max (min w hi) (s.fld Reg.KPA_KINCFG 0 16 : Nat)
    (s.setFld Reg.KPA_MPPT 0 16 w.toNat).setKpa { s.kpa with up := up }
  else s

/-- The open-circuit check may run: KBAT usable and KINSW closed (R137, DEDUCED, log entry 10). -/
def State.vocMayRun (s : State) : Bool := s.kflag 2 && !s.bit Reg.IMD_STAT 2 && !s.kpa.vocOpen

/-- VOC_CHECK (R137): the KIN switch opens for 20 ms, or the check is skipped and counted. -/
def doVocCheck (s : State) : State :=
  if s.vocMayRun then s.setKpa { s.kpa with vocOpen := true } else s.incSat Reg.KPA_MPPTC 0 8 1

/-- VOC_NOW (R137): an immediate check under the same conditions. -/
def doVocNow (s : State) : State := if s.vocMayRun then s.setKpa { s.kpa with vocOpen := true } else s

/-- kpa.kin_frac × VOC (KPA.KINCFG.KFRAC in 1/256). -/
def State.fracVoc (s : State) (voc : Nat) : Nat := s.fld Reg.KPA_KINCFG 16 8 * voc / 256

/-- VOC_WINDOW_END (R137). -/
def doVocWindowEnd (s : State) (vocMv : Nat) : State :=
  if s.kpa.vocOpen then
    let p := s.fracVoc vocMv
    let v := s.fld Reg.KPA_MPPT 0 16
    let s := (s.setKpa { s.kpa with vocOpen := false }).setFld Reg.KPA_MPPT 16 16 vocMv
    let s := if p * 8 < ((v : Int) - p).natAbs * 100 then s.setFld Reg.KPA_MPPT 0 16 p else s
    s.logKpa 0x060C (u16 vocMv ++ u16 (s.fld Reg.KPA_MPPT 0 16) ++ u8 (s.fld Reg.KPA_MPPTC 0 8))
  else s

/-- BLACK_START_QUALIFY (R138): with no other source, KIN held above kpa.bs_voc; its voltage is taken as VOC and VREF is set before the ramp. -/
def doBlackStartQualify (s : State) (kinMv : Nat) : State :=
  if s.kflag 0 ∨ s.kflag 2 ∨ kinMv < s.fld Reg.KPA_BSCFG 0 16 then s
  else
    let s := (s.setFld Reg.KPA_MPPT 16 16 kinMv).setFld Reg.KPA_MPPT 0 16 (s.fracVoc kinMv)
    ((s.setKflag 1 true).setBit Reg.KPA_STAT 16 true).selectSource 2

/-- What Camlan notes at a catch of the conditions of a black start (R139): since when KIN_SHORT has been 0, the charger has drawn kpa.bs_margin, and KIN has stood at 0.90 × VOC with no battery accepting charge. -/
def State.blackNote (s : State) : State :=
  let hold (ok : Bool) (t : Option Nat) : Option Nat := if ok then (match t with | some x => some x | none => some s.clock) else none
  let b := s.cam.black
  { s with cam := { s.cam with black :=
    { noShort := hold (!s.agreedKpa 3) b.noShort
      draw := hold (decide (s.parN .kpaBsMargin ≤ (s.kpa.drawMw : Int))) b.draw
      volt := hold (!s.agreedKpa 5 && decide (s.fld Reg.KPA_MPPT 16 16 * 9 ≤ s.fld Reg.KPA_MEAS0 0 16 * 10)) b.volt } } }

/-- Whether a condition has stood for kpa.bs_hold. -/
def State.heldFor (s : State) (t : Option Nat) : Bool :=
  match t with
  | some x => decide (x + (s.parN .kpaBsHold).toNat * 1000 ≤ s.clock)
  | none => false

/-- The panel has shown that it carries the Sculls (R139). -/
def State.marginShown (s : State) : Bool :=
  s.heldFor s.cam.black.noShort && (s.heldFor s.cam.black.draw || s.heldFor s.cam.black.volt)

/-- BLACK_START_SCULLS (R139): after kpa.bs_hold with KIN_SHORT 0 and a margin shown, Camlan starts the Sculls. -/
def doBlackStartSculls (s : State) : State :=
  if s.bit Reg.KPA_STAT 16 && s.marginShown then s.startSculls else s

/-- At a catch after the end of a black start Camlan starts Sculls that are still stopped (R13, R139). -/
def State.blackCatch (s : State) : State :=
  if s.rowing && !s.bit Reg.KPA_STAT 16 && decide (s.fld Reg.PART_CTRL 0 4 = 0) && (s.agreedKpa 0 || s.agreedKpa 2) then s.blackNote.startSculls else s.blackNote

/-- Once per watch while the Sculls are held in a black start: 0x0603 with the power of KIN and the charger's draw (R139). -/
def State.blackWatch (s : State) : State :=
  if s.bit Reg.KPA_STAT 16 && s.rowing && decide (s.fld Reg.PART_CTRL 0 4 = 0) then
    s.logS 0x0603 (u32 (s.fld Reg.KPA_MEAS0 0 16 * s.fld Reg.KPA_MEAS0 16 16 / 1000) ++ u32 s.kpa.drawMw)
  else s

/-! Battery and charger events -/

/-- KTH below 3 % of its reference is shorted (R141). -/
def kthShorted (kthCode : Nat) : Bool := decide (kthCode < 1966)

/-- KBAT_INSERTED (R141, R142, R281): the presence samples; a battery not yet known is new; a shorted KTH is a fault by any presence test, of a battery already present too. -/
def doKbatInserted (s : State) (kthCode kidOhm10 kbatMv : Nat) : State :=
  let known := s.kpa.present
  let s := (s.setFld Reg.KPA_MEAS3 16 16 kidOhm10).setFld Reg.KPA_MEAS2 0 16 kbatMv
  let s := if known then s
    else ((s.setBit Reg.KPA_IRQ 1 true).setKpa { s.kpa with present := true, soc := none }).logKpa 0x0604 (u16 kthCode ++ u32 (kidOhm10 * 10))
  if kthShorted kthCode then (if s.chg = cFault then s else s.chargeFault 3)
  else if known then s
  else if s.mayCharge then s.detect kbatMv else s.toCharge cOff

/-- KBAT_MISSING (R141, R143): MISSING from any state; a fault ends with the removal. -/
def doKbatMissing (s : State) : State :=
  let old := s.chg
  let s := (s.setKpa { s.kpa with present := false, probe := false, ov := false, pause := 0, soc := none, removed := s.kpa.removed || s.camlanOn }).setKflag 2 false
  (((s.toCharge cMissing).setBit Reg.KPA_IRQ 2 true).logKpa 0x0605 (u8 old)).selectSource 3

/-- KBAT_SHORT_PROBE_END (R142): still below 1.0 V after 2 s is a short. -/
def doKbatShortProbeEnd (s : State) (kbatMv : Nat) : State :=
  if s.chg = cDetect ∧ s.kpa.probe then
    let s := s.setFld Reg.KPA_MEAS2 0 16 kbatMv
    if kbatMv < 1000 then (s.logKpa 0x0606 (u16 kbatMv)).chargeFault 4 else s.detect kbatMv
  else s

/-- The charger after a change of its pause reasons: PAUSE while one stands, else the phase left (Table 6-4). -/
def State.repause (s : State) (p : Nat) : State :=
  if s.charging then
    let s := s.setKpa { s.kpa with pause := p, phase := s.chg }
    if p = 0 then s else s.toCharge cPause
  else if s.chg = cPause then
    let s := s.setKpa { s.kpa with pause := p }
    if p = 0 then s.toCharge s.kpa.phase else s
  else s

/-- CHARGE_PHASE_LEVEL (R143, Table 6-4): the next phase at its level; a pause for the zone CV ends below it; NiMH at its maximum stops in FAULT (R146). -/
def doChargePhaseLevel (s : State) (kbatMv : Nat) : State :=
  let s := s.setFld Reg.KPA_MEAS2 0 16 kbatMv
  if s.chg = cTrickle ∧ s.trickleMv ≤ kbatMv then s.enterPhase (if s.preMv ≤ kbatMv then cCc else cPre) kbatMv
  else if s.chg = cPre ∧ s.preMv ≤ kbatMv then (s.setKpa { s.kpa with chargeUs := 0 }).enterPhase cCc kbatMv
  else if s.chg = cCc ∧ s.chem = 3 ∧ 1600 * s.kcells ≤ kbatMv then s.chargeFault 2
  else if s.chg = cCc ∧ s.chem ≠ 3 ∧ s.zoneCvMv (s.fld Reg.KPA_CHGST 4 3) ≤ kbatMv then s.toCharge cCv
  else if s.chg = cPause ∧ getField s.kpa.pause 1 1 = 1 ∧ kbatMv < s.zoneCvMv (s.fld Reg.KPA_CHGST 4 3) then s.repause (putField s.kpa.pause 1 1 0)
  else s

/-- CHARGE_TIMER_EXPIRE (R143). -/
def doChargeTimerExpire (s : State) : State := if s.charging then s.chargeFault 1 else s

/-- CHARGE_TAPER_END (R147): only in AUTO mode. -/
def doChargeTaperEnd (s : State) : State := if s.chg = cCv ∧ !s.bit Reg.KPA_CHG2 16 then s.chargeDone 1 else s

/-- NIMH_DELTA_V (R146, R147): a normal termination, only in AUTO mode. -/
def doNimhDeltaV (s : State) : State := if s.chg = cCc ∧ s.chem = 3 ∧ !s.bit Reg.KPA_CHG2 16 then s.chargeDone 2 else s

/-- NIMH_DTDT (R146, R147): in both modes. -/
def doNimhDtdt (s : State) : State := if s.chg = cCc ∧ s.chem = 3 then s.chargeDone 3 else s

/-- CHARGE_ZONE_CHANGE (R144). -/
def doChargeZoneChange (s : State) (kthCenti : Int) (kbatMv : Nat) : State :=
  let zone := s.zoneOf (s.fld Reg.KPA_CHGST 4 3) kthCenti
  let s := ((s.setFld Reg.KPA_MEAS3 0 16 (kthCenti % 65536).toNat).setFld Reg.KPA_MEAS2 0 16 kbatMv).setFld Reg.KPA_CHGST 4 3 zone
  let ph := if s.chg = cPause then s.kpa.phase else s.chg
  let cvLow := decide (s.chem ≠ 3) && (decide (ph = cCc) || decide (ph = cCv)) && decide (s.zoneCvMv zone < kbatMv)
  (s.repause (putField (putField s.kpa.pause 0 1 (if s.zonePauses zone then 1 else 0)) 1 1 (if cvLow then 1 else 0))).setCurrent

/-- CHARGE_HEADROOM (R145): below 1.5 V PAUSE with reason HEADROOM, at 2.0 V resume. -/
def doChargeHeadroom (s : State) (kvinMv kbatMv : Nat) : State :=
  let low := if getField s.kpa.pause 2 1 = 1 then decide (kvinMv < kbatMv + 2000) else decide (kvinMv < kbatMv + 1500)
  let s := if low && s.charging then s.setFld Reg.KPA_CHGST 8 4 (kpaCode 0x703C 9) else s
  s.repause (putField s.kpa.pause 2 1 (if low then 1 else 0))

/-- CHARGE_OVERVOLTAGE (R148): the charger stops within 10 us. -/
def doChargeOvervoltage (s : State) : State :=
  if s.charging then ((s.setKpa { s.kpa with ov := true }).setKflag 5 false).setCurrent else s

/-- CHARGE_OV_CHECK (R148): FAULT when the battery is still present, else MISSING. -/
def doChargeOvCheck (s : State) (present : Bool) : State :=
  if s.kpa.ov then (if present then s.chargeFault 2 else doKbatMissing s) else s

/-- CHARGE_RECHARGE (R143): in AUTO mode KBAT below its recharge level restarts DETECT. -/
def doChargeRecharge (s : State) : State :=
  if s.chg = cDone ∧ !s.bit Reg.KPA_CHG2 16 ∧ s.mayCharge then s.detect (min s.kbatMv (s.rechargeMv - 1)) else s

/-- CHARGE_SOURCE_LOST (R143): the charger stops and resumes in DETECT once a source returns. -/
def doChargeSourceLost (s : State) : State :=
  if s.charging ∨ s.chg = cPause ∨ s.chg = cDetect then (s.setKpa { s.kpa with lost := true, probe := false, pause := 0 }).toCharge cOff else s

/-- CHARGER_STOP (R147): `kbat stop` ends the charge in DONE. -/
def doChargerStop (s : State) : State :=
  if s.charging ∨ s.chg = cPause ∨ s.chg = cDetect then s.chargeDone 4 else s

/-- CHARGER_START (R147): `kbat start` begins a charge in DETECT. -/
def doChargerStart (s : State) : State :=
  if s.mayCharge ∧ (s.chg = cDone ∨ s.chg = cOff) then s.detect s.kbatMv else s

/-- CHARGER_CLEAR (R142, Table 6-4): FAULT to DETECT. -/
def doChargerClear (s : State) : State :=
  if s.chg = cFault then (if s.mayCharge then s.detect s.kbatMv else s.toCharge cOff) else s

/-- Minutes in the charge, counted once per watch; the timers stand in PAUSE (Table 6-4). -/
def State.chargeWatch (s : State) : State :=
  if s.charging then
    let u := s.kpa.chargeUs + 1000000
    (s.setKpa { s.kpa with chargeUs := u }).setFld Reg.KPA_CHGST 16 16 (min 65535 (u / 60000000))
  else s

/-! Ship mode and button (R149 to R151) -/

/-- VCORE is gone: the pull-downs hold the coil drivers, the bridge, the insulation switches and KINSW off (R112). -/
def State.coreOff (s : State) : State :=
  let s := (s.dropCoils.clrReg Reg.IMD_CTRL 0xF).clrReg Reg.IMD_STAT 0x37
  let s : State := { s with
    imd := { s.imd with on := false, second := false, excl := false, due := none },
    mdi := { s.mdi with brake := false, cmd := 0, go := none, stop := false, nextMove := none } }
  s.setBit Reg.MDI_STAT 8 false

/-- SHIP_ENTER (R149, Tables 6-4 and 6-6): KPA.SHIP with its key stops the KSYS converter and opens the KBAT switch; charger and auxiliary output are off. (DEDUCED, log entry 89) -/
def doShipEnter (s : State) (value : Word) : State :=
  if getField value.toNat 0 1 = 1 ∧ getField value.toNat 16 16 = 0x5348 then
    let s := (s.coreOff.setFld Reg.KPA_AUXST 0 3 0).toCharge cOff
    { s with power := { s.power with phase := .shipMode } }
  else s

/-- SHIP_WAKE (R150): the KPA closes the KBAT switch, and the part starts with cause POR. -/
def doShipWake (s : State) : State :=
  match s.power.phase with
  | .shipMode => s.assertPor
  | _ => s

/-- KBTN_LONG_PRESS (R151): every source switch opens for 1.5 s in any mode, and the part restarts with cause POR. -/
def doKbtnLongPress (s : State) : State := s.assertPor

/-- KBTN_PRESS (R151, R285): the KBTN flag, and a wake from hibernation. -/
def doKbtnPress (s : State) : State := ((s.setKflag 7 true).setBit Reg.KPA_IRQ 7 true).wake 4

/-! Auxiliary output (R152, R153) -/

def State.aux (s : State) : Nat := s.fld Reg.KPA_AUXST 0 3
def State.toAux (s : State) (n : Nat) : State := s.setFld Reg.KPA_AUXST 0 3 n

/-- A fault of the output: FAULT, or LATCHED at the third within 10 minutes; cause 1 overcurrent, 2 soft-start time-out (Table 6-6). -/
def State.auxFail (s : State) (cause : Nat) : State :=
  let l := within s.clock minutes10 s.kpa.auxFaults ++ [s.clock]
  let s := (s.setKpa { s.kpa with auxFaults := l }).setFld Reg.KPA_AUXST 4 2 (min 3 l.length)
  let s := (s.toAux (if 3 ≤ l.length then 5 else 4)).setBit Reg.KPA_IRQ 5 true
  s.logKpa 0x060B (u8 (kpaCode 0x060B cause) ++ u8 l.length)

/-- AUX_FAULT (R153): primary overcurrent for 1 ms. -/
def doAuxFault (s : State) : State := if s.aux = 1 ∨ s.aux = 2 then s.auxFail 1 else s

/-- AUX_RETRY (R153): 5 s after a fault. -/
def doAuxRetry (s : State) : State := if s.aux = 4 then s.toAux 1 else s

/-- AUX_SOFTSTART_TIMEOUT (R153): the target not reached in 50 ms. -/
def doAuxSoftstartTimeout (s : State) : State := if s.aux = 1 then s.auxFail 2 else s

/-- AUX_TARGET_REACHED (R153). -/
def doAuxTargetReached (s : State) : State := if s.aux = 1 then s.toAux 2 else s

/-- AUX_CHARGER_END (R152): in CHARGER mode the output enters STANDBY. -/
def doAuxChargerEnd (s : State) : State := if s.aux = 2 ∧ s.fld Reg.KPA_AUXCFG 0 2 = 2 then s.toAux 3 else s

/-- AUX_PROBE (R152): restarts when the secondary reads below aux_v − aux_vrch. -/
def doAuxProbe (s : State) (secondaryMv : Nat) : State :=
  let vset := s.fld Reg.KPA_AUXCFG 4 12 * 10
  let drop := (s.fld Reg.KPA_AUXSCL 26 6 + 1) * 50
  if s.aux = 3 ∧ secondaryMv < vset - drop then s.toAux 1 else s

/-- AUX_CLEAR (R153): LATCHED to SOFTSTART. -/
def doAuxClear (s : State) : State :=
  if s.aux = 5 then ((s.setKpa { s.kpa with auxFaults := [] }).setFld Reg.KPA_AUXST 4 2 0).toAux 1 else s

def execSourceQualify (src : KSource) (mv : Nat) (s : State) := done (doSourceQualify s src mv)
def execSourceDisqualify (src : KSource) (mv : Nat) (s : State) := done (doSourceDisqualify s src mv)
def execSourceLimit (chargerCut auxCut systemShort : Bool) (s : State) := done (doSourceLimit s chargerCut auxCut systemShort)
def execMpptStep (rose : Bool) (s : State) := done (doMpptStep s rose)
def execVocCheck (s : State) := done (doVocCheck s)
def execVocNow (s : State) := done (s.byRequester (doVocNow s))
def execVocWindowEnd (vocMv : Nat) (s : State) := done (doVocWindowEnd s vocMv)
def execBlackStartQualify (kinMv : Nat) (s : State) := done (doBlackStartQualify s kinMv)
def execBlackStartSculls (s : State) := done (doBlackStartSculls s)
def execKbatInserted (kthCode kidOhm10 kbatMv : Nat) (s : State) := done (doKbatInserted s kthCode kidOhm10 kbatMv)
def execKbatMissing (s : State) := done (doKbatMissing s)
def execKbatShortProbeEnd (kbatMv : Nat) (s : State) := done (doKbatShortProbeEnd s kbatMv)
def execChargePhaseLevel (kbatMv : Nat) (s : State) := done (doChargePhaseLevel s kbatMv)
def execChargeTimerExpire (s : State) := done (doChargeTimerExpire s)
def execChargeTaperEnd (s : State) := done (doChargeTaperEnd s)
def execNimhDeltaV (s : State) := done (doNimhDeltaV s)
def execNimhDtdt (s : State) := done (doNimhDtdt s)
def execChargeZoneChange (kthCenti : Int) (kbatMv : Nat) (s : State) := done (doChargeZoneChange s kthCenti kbatMv)
def execChargeHeadroom (kvinMv kbatMv : Nat) (s : State) := done (doChargeHeadroom s kvinMv kbatMv)
def execChargeOvervoltage (s : State) := done (doChargeOvervoltage s)
def execChargeOvCheck (present : Bool) (s : State) := done (doChargeOvCheck s present)
def execChargeRecharge (s : State) := done (doChargeRecharge s)
def execChargeSourceLost (s : State) := done (doChargeSourceLost s)
def execChargerStop (s : State) := done (s.byRequester (doChargerStop s))
def execChargerStart (s : State) := done (s.byRequester (doChargerStart s))
def execChargerClear (s : State) := done (s.byRequester (doChargerClear s))
def execShipEnter (value : Word) (s : State) := done (s.byRequester (doShipEnter s value))
def execShipWake (s : State) := done (doShipWake s)
def execKbtnLongPress (s : State) := done (doKbtnLongPress s)
def execKbtnPress (s : State) := done (doKbtnPress s)
def execAuxFault (s : State) := done (doAuxFault s)
def execAuxRetry (s : State) := done (doAuxRetry s)
def execAuxSoftstartTimeout (s : State) := done (doAuxSoftstartTimeout s)
def execAuxTargetReached (s : State) := done (doAuxTargetReached s)
def execAuxChargerEnd (s : State) := done (doAuxChargerEnd s)
def execAuxProbe (secondaryMv : Nat) (s : State) := done (doAuxProbe s secondaryMv)
def execAuxClear (s : State) := done (s.byRequester (doAuxClear s))

end Sys2Proof.Machine
end

