-- ==== Sys2Proof/Machine/Logbook.lean ====
section
/-!
DEFINITION. The logbook's writer, window and releases, the tally commits, the eflash controller and the sector refresh (R344 to R367).
-/

namespace Sys2Proof.Machine

/-! Submission (R349) -/

/-- The partition whose slot a Scull requester runs, with its LOG grant (R89). -/
def State.logTenant (s : State) (rq : Requester) : Option Nat :=
  let k := s.partOf rq
  if 1 ≤ k ∧ s.granted k .misc 4 then some k else none

/-- The record a requester's submit registers describe; a tenant's is forced to its own book, source, severity and TENANT (R349), and only the Cox gives a time (R353). -/
def State.subRecord (s : State) (rq : Requester) : Option LogRec :=
  let r (a : Nat) : Nat := s.rdN (rqReg rq a)
  let c := r Reg.LOG_SUBCODE
  let th := r Reg.LOG_SUBTIMEH
  let arg := u32 (r Reg.LOG_SUBARG0) ++ u32 (r Reg.LOG_SUBARG1) ++ u32 (r Reg.LOG_SUBARGX)
  let stroke := if s.running then s.strokeNo else 0xFFFFFFFF
  match rq with
  | .cox =>
    let given := decide (getField th 30 1 = 1)
    let time := if given then r Reg.LOG_SUBTIMEL + getField th 0 16 * 2 ^ 32 else s.now
    if 8 < getField c 28 4 then none
    else some ⟨getField c 28 4, getField c 0 16, getField c 16 8, getField c 24 3 + (if given then 16 else 0), time, stroke, arg⟩
  | _ =>
    match s.logTenant rq with
    | some k => some ⟨1 + k, getField c 0 16, 0x20 + k, min 3 (getField c 24 3) + 32, s.now, stroke, arg⟩
    | none => none

/-- LOG_SUBMIT: with CONT set the record waits for its continuation; the unit is judged whole and SUBSTAT shows the result (R345, R349). -/
def doLogSubmit (s : State) (rq : Requester) : State :=
  match s.subRecord rq with
  | none => s
  | some r =>
    let i := Requester.idx rq
    match s.log.units.find? (fun e => decide (e.1 = i)) with
    | some (_, first) =>
      let s : State := { s with log := { s.log with units := s.log.units.filter (fun e => decide (e.1 ≠ i)) } }
      let (res, s) := s.submit [first, { first with sevfl := first.sevfl ||| 64, arg := r.arg }]
      s.wrN (rqReg rq Reg.LOG_SUBSTAT) res
    | none =>
      if s.bit (rqReg rq Reg.LOG_SUBTIMEH) 31 ∧ rq = .cox then { s with log := { s.log with units := s.log.units ++ [(i, r)] } }
      else
        let (res, s) := s.submit [r]
        s.wrN (rqReg rq Reg.LOG_SUBSTAT) res

def execLogSubmit (rq : Requester) (s : State) := done (s.byRequester (doLogSubmit s rq))

/-! The writer (R344, R346, R350) -/

/-- The 32 bytes of a record (Table 15-1). -/
def recBytes (seq : Nat) (r : LogRec) : List Byte :=
  let body := u32 seq ++ leBytes 6 r.time ++ u16 r.code ++ u8 r.source ++ u8 r.sevfl ++ r.arg.take 8 ++ u32 r.stroke ++ (r.arg.drop 8).take 4
  body ++ (if r.book = 0 then u16 (crc16 body) else [0x00, 0x5A])

/-- Where a book keeps the record of a sequence number (R347). -/
def slotAddr (b seq : Nat) : Nat := bookBase b + seq % bookCap b * 32

/-- LOG_RECORD_WRITE: the oldest queued record is stored and its book's NEXT advances after it (R346, R350). -/
def doLogRecordWrite (s : State) : State :=
  match s.log.pend with
  | [] => s
  | r :: rest =>
    if !s.bit Reg.LOG_CTRL 0 then s
    else
      let seq := s.rdN (Reg.LOG_BNEXT r.book)
      let s : State := { s with log := { s.log with pend := rest } }
      let s := s.setFld Reg.LOG_PEND 0 7 rest.length
      let s := s.wrBytes (slotAddr r.book seq) (recBytes seq r)
      let s := s.wrN (Reg.LOG_BNEXT r.book) (seq + 1)
      let s := if getField r.sevfl 3 1 = 1 then s.setBit Reg.LOG_IRQ 2 true else s
      if s.bookHeld r.book = bookCap r.book then s.setBit Reg.LOG_IRQ 0 true else s

def execLogRecordWrite (s : State) := done (doLogRecordWrite s)

/-! Reading (R354) -/

/-- The book of a requester's cursor: a tenant's is forced to its own. -/
def State.curBook (s : State) (rq : Requester) : Nat :=
  match rq with
  | .cox => s.fld (rqReg rq Reg.LOG_CURSOR) 0 4
  | _ => 1 + s.partOf rq

/-- Whether a requester may read the logbook through its window. -/
def State.mayReadLog (s : State) (rq : Requester) : Bool :=
  match rq with
  | .cox => true
  | _ => (s.logTenant rq).isSome

/-- The window takes a sequence number's record and WSTAT says whether it is held (R354). -/
def State.loadWin (s : State) (rq : Requester) (seq : Nat) : State :=
  let b := s.curBook rq
  let first := if b < 9 then s.rdN (Reg.LOG_BFIRST b) else 0
  let held := if b < 9 then s.bookHeld b else 0
  let off := (seq + 2 ^ 32 - first) % 2 ^ 32
  let valid := decide (off < held)
  let gone := !valid && decide (2 ^ 31 ≤ off)
  let s := s.wrN (rqReg rq Reg.LOG_WSTAT) (if valid then 1 else if gone then 2 else 4)
  (List.range 8).foldl (fun s i => s.wrN (rqReg rq (Reg.LOG_WIN i)) (if valid then s.ld (slotAddr b seq + 4 * i) 4 else 0)) s

/-- LOG_CURSOR_LOAD: a write of CURSEQ loads the window. -/
def doLogCursorLoad (s : State) (rq : Requester) (seq : Word) : State :=
  if s.mayReadLog rq then (s.wr (rqReg rq Reg.LOG_CURSEQ) seq).loadWin rq seq.toNat else s

def execLogCursorLoad (rq : Requester) (seq : Word) (s : State) := done (s.byRequester (doLogCursorLoad s rq seq))

/-- LOG_WINDOW_ADVANCE: a read of WIN7 returns its word, advances CURSEQ and loads the next record. -/
def doLogWindowAdvance (s : State) (rq : Requester) : State :=
  let n := (s.rdN (rqReg rq Reg.LOG_CURSEQ) + 1) % 2 ^ 32
  if s.mayReadLog rq then { (s.wrN (rqReg rq Reg.LOG_CURSEQ) n).loadWin rq n with rdata := s.rd (rqReg rq (Reg.LOG_WIN 7)) } else s

def execLogWindowAdvance (rq : Requester) (s : State) := done (s.byRequester (doLogWindowAdvance s rq))

/-- A release: FIRST becomes the smaller of upto + 1 and NEXT, records lost before are reported as room returns (R352), and Camlan records the release; an upto below FIRST has no effect (R348). (DEDUCED, log entry 86) -/
def State.release (s : State) (b upto source : Nat) : State :=
  if 8 < b then s
  else
    let first := s.rdN (Reg.LOG_BFIRST b)
    let off := (upto + 2 ^ 32 - first) % 2 ^ 32
    if 2 ^ 31 ≤ off then s
    else ((s.wrN (Reg.LOG_BFIRST b) (first + min (off + 1) (s.bookHeld b))).reportLost b).logS 0x0F05 (u8 b ++ u32 upto ++ u8 source)

/-- LOG_BOOK_RELEASE: a write of LOG.RELEASE frees records up to RELUPTO; a tenant's is its own book's (R348). -/
def doLogBookRelease (s : State) (rq : Requester) (book : Nat) : State :=
  match rq with
  | .cox => s.release book (s.rdN Reg.LOG_RELUPTO) 0
  | _ =>
    match s.logTenant rq with
    | some k => s.release (1 + k) (s.rdN Reg.LOG_RELUPTO) (0x20 + k)
    | none => s

def execLogBookRelease (rq : Requester) (book : Nat) (s : State) := done (s.byRequester (doLogBookRelease s rq book))

/-! What the block does at a watch and Camlan at a catch (R351 to R353) -/

/-- One bucket at a watch: its suppressed count is summarised and cleared, once the pending FIFO has room for the summary, and a token added (R351). -/
def State.bucketWatch (s : State) (e : Nat × Bucket) : State :=
  let k := e.1
  let wait := decide (64 ≤ s.log.pend.length)
  let s := s.setBucket k ⟨min 8 (e.2.tokens + 1), if wait then e.2.supp else 0⟩
  if e.2.supp = 0 ∨ wait = true then s
  else (s.submit [s.ownRec (k / 65536) 0x0F02 (severity 0x0F02 + 8) (u16 (k % 65536) ++ u32 (min (2 ^ 32 - 1) e.2.supp))]).2

/-- The records lost to PENDFULL in the watch are reported and the count cleared, when the report itself finds room (R352). (DEDUCED, log entry 85) -/
def State.reportDropped (s : State) (n : Nat) : State :=
  let sub := s.submit [s.ownRec 0 0x0F04 (severity 0x0F04) (u32 n)]
  if sub.1 = subQueued then sub.2.setFld Reg.LOG_PENDDROP 0 16 0 else s

/-- The LOG block at a catch that begins a watch: summaries and tokens (R351), then the report of PENDFULL losses (R352). -/
def State.logWatch (s : State) : State :=
  let s := s.log.buckets.foldl State.bucketWatch s
  let n := s.fld Reg.LOG_PENDDROP 0 16
  if n = 0 then s else s.reportDropped n

/-- Records and their continuations, as units. -/
def logUnits : List LogRec → List (List LogRec)
  | [] => []
  | r :: t =>
    match logUnits t with
    | [] => [[r]]
    | (c :: u) :: rest => if getField c.sevfl 6 1 = 1 ∧ getField r.sevfl 6 1 = 0 then (r :: c :: u) :: rest else [r] :: (c :: u) :: rest
    | [] :: rest => [r] :: rest

/-- CRITICAL records lost to PENDFULL are submitted again with their time and LATE; those that fail again stay (R353). -/
def State.resubmit (s : State) : State :=
  let stroke := if s.running then s.strokeNo else 0xFFFFFFFF
  let l := logUnits s.log.kept
  l.foldl (fun s u =>
    let (r, s') := s.submit (u.map (fun x => { x with sevfl := x.sevfl ||| 16, stroke := stroke }))
    if r = subPendFull then { s' with log := { s'.log with kept := s'.log.kept ++ u } } else s')
    { s with log := { s.log with kept := [] } }

/-! Tally (R360 to R364) -/

/-- Whether the 16 bytes of a slot are valid entries of a generation: the CHECK matches and GEN is the header's (R359). -/
def slotValid (b : List Byte) (gen : Nat) : Bool :=
  decide (leNat (b.drop 14) = crc16 (b.take 14)) && decide (leNat ((b.drop 2).take 2) = gen % 65536)

/-- The generation in a tally sector's header, none when the header is not valid (R360). -/
def State.headerGen (s : State) (sector : Nat) : Option Nat :=
  let b := s.rdBytes (tallyAddr sector 0) 16
  let g := leNat ((b.drop 4).take 4)
  if leNat (b.take 2) = 0xFFF0 ∧ slotValid b g then some g else none

/-- One slot of the active sector read at start: a valid entry gives its counter its value, a torn one is logged (R359, R360). -/
def State.scanSlot (s : State) (sector gen slot : Nat) : State :=
  let b := s.rdBytes (tallyAddr sector slot) 16
  if b.all (fun x => decide (x = 0xFF)) then s
  else
    let s : State := { s with nv := { s.nv with tallyNext := slot + 1 } }
    if slotValid b gen then
      let id := leNat (b.take 2)
      if id = 0xFFE0 then s
      else { s with nv := { s.nv with tally := Tab.put 0 s.nv.tally id (leNat ((b.drop 4).take 8)) } }
    else s.logS 0x0F11 (u8 sector ++ u32 slot)

/-- The active tally sector and its generation: the valid header with the higher one (R360). -/
def State.activeTally (s : State) : Option (Nat × Nat) :=
  match s.headerGen 254, s.headerGen 255 with
  | some a, some b => if a < b then some (255, b) else some (254, a)
  | some a, none => some (254, a)
  | none, some b => some (255, b)
  | none, none => none

/-- TALLY_SCAN: every slot of the active sector is read (R360); with no active sector, sector 254 is erased and headed (DEDUCED, log entry 16). -/
def State.tallyScan (s : State) : State :=
  match s.activeTally with
  | some (sector, gen) =>
    (List.range 511).foldl (fun s i => s.scanSlot sector gen (i + 1))
      { s with nv := { s.nv with tally := [], tallyActive := sector, tallyGen := gen, tallyNext := 1 } }
  | none =>
    let s := s.clearMem (tallyAddr 254 0) (tallyAddr 254 512)
    let s := s.wrBytes (tallyAddr 254 0) (tallySlot 0xFFF0 1 1)
    { s with nv := { s.nv with tally := [], tallyActive := 254, tallyGen := 1, tallyNext := 1 } }

/-- A write that failed its verification: the slot holds free bytes and is not programmed again (R359, R363). -/
def State.tallyTear (s : State) : State :=
  let s := if 511 < s.nv.tallyNext then s.tallyCompact else s
  let s := s.spoil (tallyAddr s.nv.tallyActive s.nv.tallyNext) 16
  { s with nv := { s.nv with tallyNext := s.nv.tallyNext + 1 } }

/-- Three failed verifications, each in the next slot: 0x0F15 with the last slot's address and operation 0, easy 0x1D (R363). -/
def State.tallyFailed (s : State) : State :=
  let s := s.tallyTear.tallyTear.tallyTear
  (s.logS 0x0F15 (u32 (tallyAddr s.nv.tallyActive (s.nv.tallyNext - 1)) ++ u8 0)).easy 0x1D

/-- TALLY_ACC_COMMIT: the ACC sums are committed; after a failed write they stay (R362, R363). -/
def doTallyAccCommit (s : State) (verifyOk : Bool) : State :=
  if !s.camlanOn then s else if verifyOk then s.tallyFlush.tallyCommit else s.tallyFailed

def execTallyAccCommit (verifyOk : Bool) (s : State) := done (doTallyAccCommit s verifyOk)

/-! Eflash controller (R365) -/

/-- The byte offset in EFC.ADDR. -/
def State.efcOff (s : State) : Nat := s.fld Reg.EFC_ADDR 3 19 * 8

/-- The bank of a byte offset: STAT bit 4 or 5. -/
def efcBank (off : Nat) : Nat := off / 0x200000

/-- STAT while an operation runs on an offset, with ERASING and SUSPENDED. -/
def State.efcShow (s : State) (busy erasing susp : Bool) (off : Nat) : State :=
  let s := (((s.setBit Reg.EFC_STAT 0 busy).setBit Reg.EFC_STAT 1 erasing).setBit Reg.EFC_STAT 2 susp)
  (s.setBit Reg.EFC_STAT 4 (busy && efcBank off == 0)).setBit Reg.EFC_STAT 5 (busy && efcBank off == 1)

/-- EFC_PROGRAM: from the Cox with the key; while an erase runs only with AUTOSUSP, which suspends it (R365, Table 15-11). -/
def doEfcProgram (s : State) (rq : Requester) (key : Nat) : State :=
  let off := s.efcOff
  let data := s.rdN Reg.EFC_WDATA0 + s.rdN Reg.EFC_WDATA1 * 2 ^ 32
  if rq ≠ .cox ∨ key ≠ 0x4546 ∨ !s.bit Reg.EFC_CTRL 0 then s
  else
    match s.tally.op with
    | none => ({ s with tally := { s.tally with op := some (0, off), opData := data } }).efcShow true false false off
    | some (1, e) =>
      if s.bit Reg.EFC_CTRL 1 then
        ({ s with tally := { s.tally with op := some (0, off), opData := data, suspended := some e } }).efcShow true true true off
      else s
    | some _ => s

def execEfcProgram (rq : Requester) (key : Nat) (s : State) := done (s.byRequester (doEfcProgram s rq key))

/-- EFC_ERASE: from the Cox with the key, when no operation runs (R365). -/
def doEfcErase (s : State) (rq : Requester) (key : Nat) : State :=
  if rq ≠ .cox ∨ key ≠ 0x4546 ∨ !s.bit Reg.EFC_CTRL 0 ∨ s.tally.op.isSome then s
  else ({ s with tally := { s.tally with op := some (1, s.efcOff / 0x2000 * 0x2000) } }).efcShow true true false s.efcOff

def execEfcErase (rq : Requester) (key : Nat) (s : State) := done (s.byRequester (doEfcErase s rq key))

/-- The class of a tolerant read: 0 clean, 1 corrected, 2 address, 3 uncorrectable (Table 15-11). -/
def EccClass.code : EccClass → Nat
  | .clean => 0
  | .corrected _ => 1
  | .address => 2
  | .uncorrectable => 3

/-- What a tolerant read leaves: the word, corrected where its class says so and free where it is fatal, its class and its syndrome (R359). -/
def State.efcAnswer (s : State) (cls : EccClass) (data syndrome : Nat) : State :=
  let lo := s.free.1
  let hi := s.free.2.free.1
  let v := match cls with
    | .corrected d => d
    | _ => if cls.fatal then lo % 2 ^ 32 + hi % 2 ^ 32 * 2 ^ 32 else data
  let s := if cls.fatal then s.free.2.free.2 else s
  let s := (s.wrN Reg.EFC_RDATA0 v).wrN Reg.EFC_RDATA1 (v / 2 ^ 32)
  (s.wrN Reg.EFC_RCLASS (EccClass.code cls + syndrome * 256)).setBit Reg.EFC_IRQ 0 true

/-- EFC_TOLERANT_READ: the word at ADDR, data and check bits as the array holds them, with its class and syndrome (R65, R66, R359, R365): a CORRECTED word reads corrected, one of class ADDRESS or UNCORRECTABLE as a free value. (DEDUCED, log entry 90) -/
def doEfcTolerantRead (s : State) (rq : Requester) (data check : Nat) : State :=
  if rq ≠ .cox ∨ !s.bit Reg.EFC_CTRL 0 ∨ s.tally.op.isSome then s
  else
    let i := wordIndex .eflash (0x08000000 + s.efcOff)
    s.efcAnswer (eccClass .eflash i data check) data (eccSyndrome .eflash i data check)

def execEfcTolerantRead (rq : Requester) (data check : Nat) (s : State) := done (s.byRequester (doEfcTolerantRead s rq data check))

/-- EFC_OPERATION_DONE: a program leaves its word, an erase all ones; a failed one leaves free bytes and PERR or EERR; a suspended erase resumes (R365). -/
def doEfcOperationDone (s : State) (ok : Bool) : State :=
  let fin (s : State) : State := if ok then s.setBit Reg.EFC_IRQ 0 true else (s.setBit Reg.EFC_IRQ 0 true).setBit Reg.EFC_IRQ 1 true
  match s.tally.op with
  | none => s
  | some (0, off) =>
    let a := 0x08000000 + off
    let s := (if ok then s.wrBytes a (leBytes 8 s.tally.opData) else s.spoil a 8).incSat Reg.EFC_OPCNT 0 16 1
    let s := fin (if ok then s else s.setBit Reg.EFC_STAT 8 true)
    match s.tally.suspended with
    | some e => ({ s with tally := { s.tally with op := some (1, e), suspended := none } }).efcShow true true false e
    | none => ({ s with tally := { s.tally with op := none } }).efcShow false false false off
  | some (_, off) =>
    let a := 0x08000000 + off
    let s := if ok then s.clearMem a (a + 0x2000) else s.spoil a 0x2000
    let s := s.incSat Reg.EFC_OPCNT 16 16 1
    let s := fin (if ok then s else s.setBit Reg.EFC_STAT 9 true)
    ({ s with tally := { s.tally with op := none } }).efcShow false false false off

def execEfcOperationDone (ok : Bool) (s : State) := done (doEfcOperationDone s ok)

/-! Refresh (R366, R367) -/

/-- The address of an eflash sector, 0 to 511. -/
def sectorAddr (t : Nat) : Nat := 0x08000000 + t * 0x2000

/-- The spare sector: sector 253 of bank 1. -/
abbrev spareSector : Nat := 509

/-- One sector's bytes copied onto another. -/
def State.copySector (s : State) (src dst : Nat) : State :=
  let b := s.rdBytes (sectorAddr src) 0x2000
  (s.clearMem (sectorAddr dst) (sectorAddr dst + 0x2000)).wrBytes (sectorAddr dst) b

/-- The refresh journal entry: target, state 1 COPIED or 2 DONE, CRC-32 of the target (Table 15-5). -/
def State.journalWrite (s : State) (t : Nat) (copied : Bool) : State :=
  let v := t + (if copied then 1 else 2) * 2 ^ 28 + crc32 (s.rdBytes (sectorAddr spareSector) 0x2000) * 2 ^ 32
  let s := if 511 < s.nv.tallyNext then s.tallyCompact else s
  let s := s.wrBytes (tallyAddr s.nv.tallyActive s.nv.tallyNext) (tallySlot 0xFFE0 s.nv.tallyGen v)
  { s with nv := { s.nv with tallyNext := s.nv.tallyNext + 1 } }

/-- A sector whose bytes are all ones. -/
def State.sectorErased (s : State) (t : Nat) : Bool :=
  !s.mem.any (fun c => decide (sectorAddr t ≤ c.1) && decide (c.1 < sectorAddr (t + 1)))

/-- SECTOR_REFRESH: when one is due, the sector at refresh_pos passes through the spare, or is skipped when erased, and the position advances over 509 sectors (R366). -/
def doSectorRefresh (s : State) : State :=
  if !s.camlanOn || s.tally.due == 0 then s
  else
    let s : State := { s with tally := { s.tally with due := s.tally.due - 1 } }
    let pos := s.tallyVal 0x72
    let t := pos % 2 ^ 32
    let pass := pos / 2 ^ 32
    let next := if 508 ≤ t then (pass + 1) * 2 ^ 32 else pass * 2 ^ 32 + (t + 1)
    if 508 < t ∨ s.sectorErased t = true then s.tallyWrite 0x72 next
    else
      let s := (s.copySector t spareSector).journalWrite t true
      let s := s.copySector spareSector t
      ((s.journalWrite t false).tallyWrite 0x72 next).logS 0x0F13 (u32 t ++ u32 pass)

def execSectorRefresh (s : State) := done (doSectorRefresh s)

/-- The sector of the last valid journal entry, where its state is COPIED and the spare has its CRC (R366, R367). -/
def State.cutRefresh (s : State) : Option Nat :=
  match s.activeTally with
  | none => none
  | some (sector, gen) =>
    let entry (i : Nat) : Option (Nat × Nat) :=
      let b := s.rdBytes (tallyAddr sector (i + 1)) 16
      if slotValid b gen && decide (leNat (b.take 2) = 0xFFE0) then some (leNat ((b.drop 4).take 4), leNat ((b.drop 8).take 4)) else none
    match ((List.range 511).filterMap entry).getLast? with
    | some (v, c) => if v / 2 ^ 28 = 1 ∧ c = crc32 (s.rdBytes (sectorAddr spareSector) 0x2000) then some (v % 512) else none
    | none => none

/-- The boot ROM repeats step 3 of a refresh whose journal entry says COPIED (R367). -/
def State.refreshRecovery (s : State) : State :=
  match s.cutRefresh with
  | some t => s.copySector spareSector t
  | none => s

/-- Camlan at start logs a refresh that the boot ROM completed, and journals it as DONE (R366, R367). -/
def State.refreshReport (s : State) (cut : Option Nat) : State :=
  match cut with
  | some t => (s.journalWrite t false).logS 0x0F14 (u32 t)
  | none => s

end Sys2Proof.Machine
end

