-- ==== Sys2Proof/Machine/Chem.lean ====
section
/-!
DEFINITION. Chemistry tables (R268) and what a used sample does to a seat's cells before any learning (R276, R280, R282).
-/

namespace Sys2Proof.Machine

/-- Linear interpolation through rising points; the nearest end applies outside them. -/
def interp : List (Rat × Rat) → Rat → Rat
  | [], _ => 0
  | [p], _ => p.2
  | p :: q :: t, x =>
    if x ≤ p.1 then p.2
    else if x < q.1 then p.2 + (q.2 - p.2) * (x - p.1) / (q.1 - p.1)
    else interp (q :: t) x

/-- A byte of the table a string uses; a table that is not set has free contents (DESIGN CHOICE, log entry 18). -/
def State.chemByte (s : State) (i off : Nat) : Nat :=
  let k := s.parI .estChem i
  match s.par .estTable k with
  | .table l => (l.getD off 0).toNat
  | _ => Config.freeOf (920 + k) off % 256

/-- A u16 of the table. -/
def State.chemU (s : State) (i off : Nat) : Nat := s.chemByte i off + s.chemByte i (off + 1) * 256

/-- Interpolation over the eight temperature breakpoints of a row of u16 values at an offset; temperature in 0.01 °C. -/
def State.chemT (s : State) (i off : Nat) (t : Int) : Rat :=
  interp ((List.range 8).map (fun j => ((signed 16 (s.chemU i (128 + 2 * j)) : Rat), (s.chemU i (off + 2 * j) : Rat)))) (t : Rat)

/-- The OCV curve at a temperature: SOC [percent] against OCV [100 µV]. -/
def State.ocvCurve (s : State) (i : Nat) (t : Int) : List (Rat × Rat) :=
  (List.range 64).map (fun n =>
    ((s.chemU i (2 * n) : Rat) / 100,
     interp ((List.range 8).map (fun j => ((signed 16 (s.chemU i (128 + 2 * j)) : Rat), (s.chemU i (144 + (64 * j + n) * 2) : Rat)))) (t : Rat)))

/-- OCV [100 µV] at a SOC and temperature. -/
def State.ocv (s : State) (i : Nat) (soc : Rat) (t : Int) : Rat := interp (s.ocvCurve i t) soc

/-- The SOC at which the table gives a voltage [100 µV]. -/
def State.socAt (s : State) (i : Nat) (v : Rat) (t : Int) : Rat := interp ((s.ocvCurve i t).map (fun p => (p.2, p.1))) v

/-- The slope of the segment that holds a SOC [100 µV per percent]. -/
def slopeAt : List (Rat × Rat) → Rat → Rat
  | p :: q :: t, x => if x < q.1 ∨ t = [] then (if q.1 = p.1 then 0 else (q.2 - p.2) / (q.1 - p.1)) else slopeAt (q :: t) x
  | _, _ => 0

/-- RDEF [µΩ], CHGF and DISF [0.01 C] at a temperature. -/
def State.rdef (s : State) (i : Nat) (t : Int) : Rat := s.chemT i 1168 t
def State.chgf (s : State) (i : Nat) (t : Int) : Rat := s.chemT i 1184 t
def State.disf (s : State) (i : Nat) (t : Int) : Rat := s.chemT i 1200 t

/-- VHI, VSHUT and VLO [100 µV]. -/
def State.vhi (s : State) (i : Nat) : Nat := s.chemU i 1216
def State.vshut (s : State) (i : Nat) : Nat := s.chemU i 1218
def State.vlo (s : State) (i : Nat) : Nat := s.chemU i 1220

/-- The temperature of a seat's cells: its first valid input, 25 °C without one (DESIGN CHOICE, log entry 19). -/
def SeatSt.tempOf (x : SeatSt) : Int := (x.temp.filter (fun t => decide (t ≠ -32768))).headD 2500

/-- A cell that starts on defaults: capacity est.s.cap, resistance RDEF, and a SOC the manual does not state (R276, DESIGN CHOICE, log entry 1). (DEDUCED, log entry 121) -/
def State.freshCell (s : State) (i : Nat) (t : Int) (seed c : Nat) : CellEst :=
  { soc := (Config.freeOf seed c : Rat) / 100, cap := (s.capMah i : Rat), res := s.rdef i t, capL := false, resL := false,
    capSwap := false, resSwap := false, resync := false, r1 := none, counted := 0, hi := 0, lo := 0 }

/-- The cells of a seat that have no estimate yet begin on defaults (R276). -/
def State.fillCells (s : State) (n : Nat) : State :=
  let x := s.seat n
  if x.cells ≤ x.est.length then s
  else
    let (seed, s) := s.free
    s.setSeat n { x with est := x.est ++ ((List.range (x.cells - x.est.length)).map (fun c => s.freshCell (s.seatString n) x.tempOf seed (x.est.length + c))) }

/-- What a used sample does to the estimates of its seat: cells begin on defaults, a swapped module takes its SOC from OCV (R280), runs beyond VHI and VLO are counted (R282), and the voltages are kept for five minutes (R271). -/
def State.estSample (s : State) (n : Nat) : State :=
  let s := s.fillCells n
  let x := s.seat n
  let i := s.seatString n
  let t := x.tempOf
  let est := ((List.range x.est.length).zip x.est).map (fun (e : Nat × CellEst) =>
    let v := x.cellV.getD e.1 0
    let c := e.2
    let c := if x.ocvInit then { c with soc := s.socAt i (v : Rat) t, r1 := none } else c
    { c with hi := if s.vhi i < v then c.hi + 1 else 0, lo := if v < s.vlo i then c.lo + 1 else 0 })
  let now := s.clock
  s.setSeat n { x with est := est, ocvInit := false, vHist := (x.vHist.filter (fun e => decide (now ≤ e.1 + 300000000))) ++ [(now, x.cellV)] }

end Sys2Proof.Machine
end

