-- ==== Sys2Proof/Machine/Wire.lean ====
section
/-!
DEFINITION. The bits of module frames: the chain frame with its CRC (R180, R181, Table 8-1) and the air frame with its AES-128-CCM protection (R209, R210, Tables 9-1 and 9-2).
-/

namespace Sys2Proof.Machine

/-! Chain frames -/

/-- Bits of FLAGS (Table 8-1). -/
abbrev flagRsp : Nat := 1
abbrev flagNak : Nat := 2
abbrev flagRetry : Nat := 4
abbrev flagDirB : Nat := 8

/-- A bit of a frame's FLAGS. -/
def Frame.flag (f : Frame) (m : Nat) : Bool := decide (f.flags / m % 2 = 1)

def isNak (f : Frame) : Bool := f.flag flagNak

/-- The 8-byte header (Table 8-1) and the payload. -/
def Frame.bytes (f : Frame) : List Byte :=
  u8 f.seat ++ u8 f.type ++ u16 f.tag ++ u16 f.catchNo ++ u8 f.payload.length ++ u8 f.flags ++ f.payload

/-- A frame as a port sends it: preamble, start byte, header, payload, CRC (R180, R181). -/
def Frame.line (f : Frame) : List Byte := [0x55, 0x55, 0xE3] ++ f.bytes ++ u32 (crc32 f.bytes)

/-- The frame whose header and payload bytes stand at the head of a list. -/
def frameOf (l : List Byte) : Frame :=
  { seat := leNat (l.take 1), type := leNat ((l.drop 1).take 1), tag := leNat ((l.drop 2).take 2), catchNo := leNat ((l.drop 4).take 2)
    flags := leNat ((l.drop 7).take 1), payload := (l.drop 8).take (leNat ((l.drop 6).take 1)) }

/-- What a receiver makes of the bytes after a start byte: nothing when LENGTH exceeds 96 or they stop before the CRC ends, else whether the CRC passes, and the frame (R180, R181). -/
def recvChain (l : List Byte) : Option (Bool × Frame) :=
  let n := leNat ((l.drop 6).take 1)
  if l.length < 8 ∨ 96 < n ∨ l.length < 12 + n then none
  else some (decide (crc32 (l.take (8 + n)) = leNat ((l.drop (8 + n)).take 4)), frameOf l)

/-! AES-128-CCM with a 4-byte MIC, a 2-byte length field and a 13-byte nonce (R210); the construction is that of the standard the manual names (PRESUMED, log entry 149) -/

/-- A block under a key, 16 bytes. -/
def aesBlock (k x : List Byte) : List Byte := (List.range 16).map (fun i => (Config.aes128 k x).getD i 0)

def xorBlock (a b : List Byte) : List Byte := List.zipWith (fun x y => x ^^^ y) a b

/-- Filled with zeros to whole blocks. -/
def padBlock (l : List Byte) : List Byte := l ++ List.replicate ((16 - l.length % 16) % 16) (0 : Byte)

def be16 (n : Nat) : List Byte := [byteOf (n / 256), byteOf n]

/-- The chained check value over the nonce block, the additional data and the text. -/
def ccmMac (k nonce aad text : List Byte) : List Byte :=
  let l := (0x49 :: nonce) ++ be16 text.length ++ padBlock (be16 aad.length ++ aad) ++ padBlock text
  (List.range (l.length / 16)).foldl (fun x i => aesBlock k (xorBlock x ((l.drop (16 * i)).take 16))) (List.replicate 16 (0 : Byte))

/-- Key stream block i. -/
def ccmBlock (k nonce : List Byte) (i : Nat) : List Byte := aesBlock k ((0x01 :: nonce) ++ be16 i)

/-- n bytes of key stream for a text. -/
def ccmStream (k nonce : List Byte) (n : Nat) : List Byte := ((List.range ((n + 15) / 16)).flatMap (fun i => ccmBlock k nonce (i + 1))).take n

def ccmMic (k nonce aad text : List Byte) : List Byte := xorBlock ((ccmMac k nonce aad text).take 4) ((ccmBlock k nonce 0).take 4)

/-- The text encrypted, then the MIC. -/
def ccmSeal (k nonce aad text : List Byte) : List Byte := xorBlock text (ccmStream k nonce text.length) ++ ccmMic k nonce aad text

/-- The text of a sealed one, nothing when the MIC fails. -/
def ccmOpen (k nonce aad sealed : List Byte) : Option (List Byte) :=
  let n := sealed.length - 4
  let text := xorBlock (sealed.take n) (ccmStream k nonce n)
  if ccmMic k nonce aad text = sealed.drop n then some text else none

/-! Air frames -/

/-- KIND of an air frame, which is also DIR of its nonce except for requests and beacons (Tables 9-1, 9-2). -/
inductive AirKind where
  | beacon | request | response | joinRequest | joinGrant
  deriving DecidableEq, Repr

def AirKind.code : AirKind → Nat
  | .beacon => 0
  | .request => 1
  | .response => 2
  | .joinRequest => 3
  | .joinGrant => 4

/-- DIR, byte 0 of the nonce (Table 9-2). -/
def AirKind.dir : AirKind → Nat
  | .request => 0
  | .response => 1
  | .beacon => 2
  | .joinRequest => 3
  | .joinGrant => 4

/-- The bytes of the clear extension (Table 9-1). -/
def AirKind.ext : AirKind → Nat
  | .beacon => 8
  | .joinRequest => 12
  | .request | .response | .joinGrant => 0

/-- The 13-byte nonce of Table 9-2. -/
def airNonce (k : AirKind) (seat session stroke tag try_ : Nat) : List Byte :=
  u8 k.dir ++ u8 seat ++ u32 session ++ u32 stroke ++ u16 tag ++ u8 try_

/-- Fields 3 to 6 of an air frame: air header, clear extension, inner frame encrypted, MIC. -/
def airBody (k : AirKind) (key nonce ext : List Byte) (seat try_ : Nat) (inner : List Byte) : List Byte :=
  let clear := u8 k.code ++ u8 seat ++ u8 try_ ++ u8 inner.length ++ ext
  clear ++ ccmSeal key nonce clear inner

/-- The fields after ACCESS, with the CRC over fields 3 to 6 (R209). -/
def airTail (k : AirKind) (key nonce ext : List Byte) (seat try_ : Nat) (inner : List Byte) : List Byte :=
  airBody k key nonce ext seat try_ inner ++ u32 (crc32 (airBody k key nonce ext seat try_ inner))

/-- An air frame as the radio sends it (Table 9-1). -/
def airFrame (access : Nat) (tail : List Byte) : List Byte := [0x55, 0x55] ++ u32 access ++ tail

/-- What a receiver makes of the fields after ACCESS: the CRC first, then the MIC (R209). -/
inductive AirGot where
  | crc | mic
  | good (f : Frame)
  deriving DecidableEq, Repr

def recvAir (k : AirKind) (key nonce : List Byte) (l : List Byte) : AirGot :=
  let n := 8 + k.ext + leNat ((l.drop 3).take 1)
  if l.length < n + 4 ∨ crc32 (l.take n) ≠ leNat ((l.drop n).take 4) then .crc
  else match ccmOpen key nonce (l.take (4 + k.ext)) ((l.take n).drop (4 + k.ext)) with
    | none => .mic
    | some p => .good (frameOf p)

end Sys2Proof.Machine
end

