-- ==== Sys2Proof/Machine/Chain.lean ====
section
/-!
DEFINITION. The module chain, the transaction table, the twin comparison, and what Camlan does with the seats' answers (R178 to R204, R222 to R224, R419).
-/

namespace Sys2Proof.Machine

def State.setChn (s : State) (c : ChnSt) : State := { s with chn := c }
def State.setRad (s : State) (r : RadSt) : State := { s with rad := r }

/-! Transaction table (R202, Table 8-9) -/

/-- The address of a table entry. -/
def txAddr (t : Nat) : Nat := 0x28000000 + t % 32768 * 32

/-- A field of a head entry. -/
def State.hd (s : State) (t off n : Nat) : Nat := s.ld (txAddr t + off) n
def State.setHd (s : State) (t off n v : Nat) : State := s.st (txAddr t + off) n v

abbrev txFree : Nat := 0
abbrev txQueued : Nat := 2
abbrev txFlight : Nat := 3
abbrev txComplete : Nat := 4
abbrev txFailed : Nat := 5
abbrev txExpired : Nat := 6

/-- Whether a tag holds payload. -/
def State.isData (s : State) (t : Nat) : Bool := s.chn.data.contains t

/-- The STATE of a head; an entry that holds payload is DATA. -/
def State.txState (s : State) (t : Nat) : Nat := if s.isData t then 1 else s.hd t 0 1

/-- A bit of PATHS. -/
def State.path (s : State) (t b : Nat) : Bool := decide (s.hd t 3 1 / 2 ^ b % 2 = 1)

def State.setPath (s : State) (t b : Nat) : State := s.setHd t 3 1 (s.hd t 3 1 ||| 2 ^ b)

/-- Heads QUEUED or IN_FLIGHT, found among the table's bytes that are not zero. -/
def State.activeTags (s : State) : List Nat :=
  (s.mem.filter (fun e => decide (0x28000000 ≤ e.1) && decide (e.1 < 0x28100000) && decide (e.1 % 32 = 0) && (decide (e.2.toNat = 2) || decide (e.2.toNat = 3)))).map
    (fun e => (e.1 - 0x28000000) / 32) |>.filter (fun t => !s.isData t)

/-- TXT.STAT, TWN.STAT and the queue depths follow the table and the queues: transactions on both paths await their decision. -/
def State.showTx (s : State) : State :=
  let n := s.activeTags.length
  let s := s.setFld Reg.TWN_STAT 0 16 (s.activeTags.filter (fun t => s.path t 0 && s.path t 1 && !s.chn.decided.contains t)).length
  let s := (s.setFld Reg.TXT_STAT 0 16 n).setFld Reg.TXT_STAT 16 16 (max n (s.fld Reg.TXT_STAT 16 16))
  let s := s.setFld Reg.CHN_QSTAT 0 10 s.chn.queue.length
  (s.setBit Reg.CHN_QSTAT 16 s.chn.flyA.isSome).setBit Reg.CHN_QSTAT 17 s.chn.flyB.isSome

/-- CHN.DONE and RAD.DONE show the oldest tag. -/
def State.showDone (s : State) : State :=
  let v (l : List Nat) : Nat := match l with
    | [] => 0
    | t :: _ => t + 2 ^ 31
  (s.wrN Reg.CHN_DONE (v s.chn.done)).wrN Reg.RAD_DONE (v s.rad.done)

/-! Ring and timing (R183, R193, R197 to R199) -/

abbrev ringDown : Nat := 0
abbrev ringEnum : Nat := 1
abbrev ringWhole : Nat := 2
abbrev ringSplit : Nat := 3
abbrev ringIsolated : Nat := 4

def State.ring (s : State) : Nat := s.fld Reg.CHN_RING 0 3

def State.setRing (s : State) (n : Nat) : State := if s.ring = n then s else (s.setFld Reg.CHN_RING 0 3 n).setBit Reg.CHN_IRQ 1 true

/-- Enumerated seats, and the wrapping seats of the arms. -/
def State.enumSeats (s : State) : List Nat := ((List.range 128).map (· + 1)).filter (fun n => (s.seat n).enumd)
def State.armA (s : State) : Nat := s.fld Reg.CHN_RING 8 8
def State.armB (s : State) : Nat := s.fld Reg.CHN_RING 16 8

/-- The hops of a request and its response together (R183). -/
def State.hops (s : State) (dirB : Bool) : Nat :=
  if s.ring = ringSplit then (if dirB then 2 * s.fld Reg.CHN_SEATS 16 8 - 1 else 2 * s.fld Reg.CHN_SEATS 8 8 - 1) else s.enumSeats.length - 1

/-- T_read in quarters of a microsecond: 180 + 0.75 × h (R197). -/
def State.tRead (s : State) (dirB : Bool) : Nat := 720 + 3 * s.hops dirB

/-- The heat phase and the stroke within the watch (STK.POS). -/
def State.hph (s : State) : Nat := s.fld Reg.STK_POS 0 4
def State.wph (s : State) : Nat := s.fld Reg.STK_POS 16 9

/-- The gather deadline [us]. -/
def State.gather (s : State) : Nat := s.point 70

/-- When the next request of a direction may start [us]: now, or after the gap that ends an answered attempt. -/
def State.ready (s : State) (dirB : Bool) : Nat := max s.us (if dirB then s.chn.readyB else s.chn.readyA)

def State.setReady (s : State) (dirB : Bool) (us : Nat) : State := s.setChn (if dirB then { s.chn with readyB := us } else { s.chn with readyA := us })

/-- Whether an attempt started as soon as it may ends by the gather deadline (R198, R199). -/
def State.fits (s : State) (dirB : Bool) : Bool := decide (s.ready dirB * 4 + s.tRead dirB ≤ s.gather * 4)

/-- The port of a direction is on (Table 8-12). -/
def State.portOn (s : State) (dirB : Bool) : Bool := s.bit Reg.CHN_CTRL (if dirB then 2 else 1)

/-- A frame leaves a port that is on (R180); a frame for direction B carries DIRB (Table 8-1). -/
def State.sendOn (s : State) (dirB : Bool) (f : Frame) : State :=
  let f := { f with flags := f.flags + if dirB then flagDirB else 0 }
  if !s.portOn dirB then s
  else s.setChn (if dirB then { s.chn with sentB := s.chn.sentB ++ [f.line] } else { s.chn with sentA := s.chn.sentA ++ [f.line] })

/-- A broadcast on both ports: no transaction, TAG 0 (DEDUCED, log entry 150). -/
def State.broadcast (s : State) (type : Nat) (payload : List Byte) : State :=
  let f : Frame := { seat := 0xFF, type := type, tag := 0, catchNo := s.strokeNo % 65536, flags := 0, payload := payload }
  (s.sendOn false f).sendOn true f

/-- Whether a direction can carry a transaction to a seat: automatic, one direction only, or in SPLIT the one port with link or the seat's arm (R193, Table 8-12). -/
def State.dirOk (s : State) (t : Nat) (wantB dirB : Bool) : Bool :=
  s.portOn dirB &&
  let mode := s.fld Reg.CHN_CTRL 4 2
  let seat := s.hd t 2 1
  if mode = 1 then !dirB
  else if mode = 2 then dirB
  else if s.ring = ringSplit ∧ s.bit Reg.CHN_RING 4 ≠ s.bit Reg.CHN_RING 5 then dirB == s.bit Reg.CHN_RING 5
  else if s.ring = ringSplit ∧ seat ≤ 128 then
    (if seat ≤ s.armA then !dirB else if s.armB ≠ 0 ∧ s.armB ≤ seat then dirB else dirB == wantB)
  else dirB == wantB

/-- Whether the ring carries a transaction now: none in DOWN and ISOLATED, only the ENUM and IDENT of R191 in ENUM (R194). -/
def State.ringCarries (s : State) (t : Nat) : Bool :=
  s.bit Reg.CHN_CTRL 0 && (decide (s.ring = ringWhole) || decide (s.ring = ringSplit) || (decide (s.ring = ringEnum) && s.chn.own.any (fun o => decide (o.1 = t)) && (decide (s.hd t 1 1 = 0x01) || decide (s.hd t 1 1 = 0x10))))

/-- The next tag for an idle direction: by class, then in order of submission; none before catch + 600 us, where the stroke's reads begin, but in an enumeration (R199). -/
def State.pick (s : State) (dirB : Bool) : Option Nat :=
  let ok := s.chn.queue.filter (fun e => s.ringCarries e.1 && s.dirOk e.1 e.2.2 dirB && s.fits dirB && (decide (s.ring = ringEnum) || decide (600 ≤ s.us)))
  let best := (List.range 4).findSome? (fun c => ok.find? (fun e => decide (e.2.1 = c)))
  best.map (fun e => e.1)

/-- The request bytes of a head. -/
def State.reqOf (s : State) (t : Nat) : List Byte := (List.range (s.hd t 6 1)).map (fun i => s.rdB (txAddr (s.hd t 0xC 2) + i))

/-- The request of a head is sent in a direction; a retry keeps TAG and CATCH and sets RETRY (R198). -/
def State.sendTx (s : State) (t : Nat) (dirB retry : Bool) : State :=
  s.sendOn dirB { seat := s.hd t 2 1, type := s.hd t 1 1, tag := t, catchNo := s.hd t 4 2, flags := if retry then flagRetry else 0, payload := s.reqOf t }

/-- An attempt begins (R197, R203). -/
def State.attempt (s : State) (t : Nat) (dirB : Bool) : State :=
  let s := (s.setHd t 0 1 txFlight).setHd t 0x15 1 (s.hd t 0x15 1 + 1)
  let s := if dirB then s.setPath t 4 else s
  let c := { s.chn with queue := s.chn.queue.filter (fun e => decide (e.1 ≠ t)) }
  (s.setChn (if dirB then { c with flyB := some t } else { c with flyA := some t })).sendTx t dirB false

/-- Idle directions take their next transactions. -/
def State.kick (s : State) : State :=
  let s := if s.chn.flyA.isSome then s else match s.pick false with
    | some t => s.attempt t false
    | none => s
  let s := if s.chn.flyB.isSome then s else match s.pick true with
    | some t => s.attempt t true
    | none => s
  s.showTx

/-! Allocation and issue (R203, R204, R419) -/

/-- Whether Camlan may use an entry: FREE, or EXPIRED and discarded, no payload, and 4 heats past its last ISSUE (R203, R204). -/
def State.usable (s : State) (t : Nat) : Bool :=
  !s.isData t && (decide (s.hd t 0 1 = txFree) || decide (s.hd t 0 1 = txExpired)) && (decide (s.hd t 3 1 = 0) || decide (4 * s.heat ≤ (s.strokeNo + 2 ^ 32 - s.hd t 8 4) % 2 ^ 32))

/-- The first run of n usable entries at or after a place, none after a full round. (DESIGN CHOICE, log entry 92) -/
def State.findRun (s : State) (n : Nat) : Nat → Nat → Option Nat
  | 0, _ => none
  | fuel + 1, t =>
    if t % 32768 + n ≤ 32768 ∧ (List.range n).all (fun i => s.usable (t % 32768 + i)) then some (t % 32768) else s.findRun n fuel (t + 1)

/-- Entries of 32 bytes that a length takes. -/
def dataCount (len : Nat) : Nat := (len + 31) / 32

/-- The paths a seat's transactions take: the radio only for a seat that reports one and is paired (R214). -/
def State.radioSeat (s : State) (n : Nat) : Bool := decide ((s.seat n).caps % 2 = 1) && s.nv.rad.seats.any (fun k => decide (k.1 = n))

/-- Transactions to a seat that requested both paths and have not ended. -/
def State.openBoth (s : State) (seat : Nat) : Nat := (s.activeTags.filter (fun t => decide (s.hd t 2 1 = seat) && s.path t 0 && s.path t 1)).length

/-- The entries of live request data equal to a request, which a new head shares (R202). -/
def State.sharedReq (s : State) (req : List Byte) : Option Nat :=
  if req = [] then none
  else (s.chn.own.find? (fun o => decide (s.hd o.1 6 1 = req.length) && decide (s.reqOf o.1 = req))).map (fun o => s.hd o.1 0xC 2)

/-- The entries a transaction takes beside its head: request data of its own, response data. -/
def State.entriesFor (s : State) (req : List Byte) (rspLen : Nat) : Nat × Nat :=
  (if (s.sharedReq req).isSome then 0 else dataCount req.length, 2 * dataCount rspLen)

/-- Where a transaction finds its entries: none while none are free, nor while eight transactions of its seat are open on both paths, so that never more than eight have ended on one path and not on the other (R187, R419; DEDUCED, log entry 151). -/
def State.room (s : State) (seat paths : Nat) (req : List Byte) (rspLen : Nat) : Option Nat :=
  if paths % 4 = 3 ∧ 8 ≤ s.openBoth seat then none
  else s.findRun (1 + (s.entriesFor req rspLen).1 + (s.entriesFor req rspLen).2) 32768 s.chn.next

/-- A transaction takes its entries: head QUEUED, request data, and its submission on each path (R203). -/
def State.place (s : State) (t : Nat) (w : Wanted) (catch_ : Nat) : State :=
  let (nReq, nRsp) := s.entriesFor w.req w.rspLen
  let reqAt := (s.sharedReq w.req).getD (if w.req = [] then 0xFFFF else t + 1)
  let head := u8 txQueued ++ u8 w.type ++ u8 w.seat ++ u8 w.paths ++ u16 catch_ ++ u8 w.req.length ++ u8 w.rspLen ++ u32 s.strokeNo
    ++ u16 reqAt ++ u16 (if nRsp = 0 then 0xFFFF else t + 1 + nReq) ++ List.replicate 16 0
  let s := (s.wrBytes (txAddr t) head).wrBytes (txAddr (t + 1)) (if nReq = 0 then [] else w.req)
  let s := s.setChn { s.chn with
    own := s.chn.own ++ [(t, w.cls)], data := s.chn.data ++ ((List.range (nReq + nRsp)).map (fun i => t + 1 + i)),
    next := t + 1 + nReq + nRsp, queue := if w.paths % 2 = 1 then s.chn.queue ++ [(t, w.cls, s.chn.dirB)] else s.chn.queue, dirB := !s.chn.dirB }
  if w.paths / 2 % 2 = 1 then s.setRad { s.rad with queue := s.rad.queue ++ [(t, w.cls)] } else s

/-- Camlan wants a transaction: it is placed, or not issued in this stroke; then a control or bulk command waits for a later one (R419). -/
def State.enqueue (s : State) (w : Wanted) (catch_ : Nat) : State :=
  match s.room w.seat w.paths w.req w.rspLen with
  | some t => s.place t w catch_
  | none => s.setChn { s.chn with skipped := s.chn.skipped + 1, wanted := if w.cls < 2 then s.chn.wanted else s.chn.wanted ++ [w] }

/-- Camlan issues a transaction, and idle directions take what they can. -/
def State.issue (s : State) (type seat paths catch_ : Nat) (req : List Byte) (rspLen cls : Nat) : State :=
  (s.enqueue ⟨type, seat, paths, req, rspLen, cls⟩ catch_).kick

/-- The commands that waited are issued in this stroke, as far as entries allow (R419). -/
def State.issueWanted (s : State) : State :=
  s.chn.wanted.foldl (fun s w =>
    match s.room w.seat w.paths w.req w.rspLen with
    | some t => s.place t w (s.strokeNo % 65536)
    | none => s.setChn { s.chn with wanted := s.chn.wanted ++ [w] }) (s.setChn { s.chn with wanted := [] })

/-- Camlan lets go of a transaction: its head takes a STATE, its response data is free, and its request data unless another head shares it (R202 to R204). -/
def State.dropTx (s : State) (t st : Nat) : State :=
  let q := s.hd t 0xC 2
  let shared := s.chn.own.any (fun o => decide (o.1 ≠ t) && decide (s.hd o.1 0xC 2 = q))
  let gone := (if shared then [] else (List.range (dataCount (s.hd t 6 1))).map (fun i => q + i))
    ++ (List.range (2 * dataCount (s.hd t 7 1))).map (fun i => s.hd t 0xE 2 + i)
  let s := gone.foldl (fun s d => s.setHd d 0 4 0) (s.setHd t 0 1 st)
  s.setChn { s.chn with own := s.chn.own.filter (fun o => decide (o.1 ≠ t)), data := s.chn.data.filter (fun d => !gone.contains d), got := s.chn.got.filter (fun g => decide (g.1 ≠ t)), rgot := s.chn.rgot.filter (fun g => decide (g.1 ≠ t)) }

/-- Camlan frees a transaction it has consumed. -/
def State.freeTx (s : State) (t : Nat) : State := s.dropTx t txFree

/-- The paths of a command that goes on both: the radio for a seat that has one, but not while the ring is enumerated (R188, R194, R214). -/
def State.bothPaths (s : State) (n : Nat) : Nat := if s.radioSeat n && !s.chn.enumOn then 3 else 1

/-- The stroke whose low 16 bits a CATCH field carries: the newest at or before the present one. -/
def State.strokeOf (s : State) (catch_ : Nat) : Nat := (s.strokeNo + 2 ^ 32 - (s.strokeNo + 65536 - catch_ % 65536) % 65536) % 2 ^ 32

/-! Enumeration (R191, R192, R194 to R196) -/

/-- Presence, lost and count registers follow the seats. -/
def State.showSeats (s : State) : State :=
  let mask (p : SeatSt → Bool) (i : Nat) : Nat := (List.range 32).foldl (fun a b => if p (s.seat (32 * i + b + 1)) then a + 2 ^ b else a) 0
  let s' := (List.range 4).foldl (fun s' i => (s'.wrN (Reg.CHN_PRES i) (mask SeatSt.enumd i)).wrN (Reg.CHN_LOST i) (mask SeatSt.lost i)) s
  let l := s.enumSeats
  let s' := s'.setFld Reg.CHN_SEATS 0 8 l.length
  if s.ring = ringSplit then
    (s'.setFld Reg.CHN_SEATS 8 8 (l.filter (fun n => decide (n ≤ s.armA))).length).setFld Reg.CHN_SEATS 16 8 (l.filter (fun n => decide (s.armB ≠ 0) && decide (s.armB ≤ n))).length
  else (s'.setFld Reg.CHN_SEATS 8 8 0).setFld Reg.CHN_SEATS 16 8 0

/-- ENUM to the first unassigned module on CHA or CHB. -/
def State.sendEnum (s : State) (seat : Nat) (dirB : Bool) : State :=
  (s.setChn { s.chn with dirB := dirB }).issue 0x01 0xFE 1 (s.strokeNo % 65536) (u8 seat) 24 2

/-- ENUM_CLEAR on both ports, by which every module releases its seat, and the enumeration from seat 1 on CHA (R191). -/
def State.startEnum (s : State) (late : Bool) : State :=
  let s := (List.range 128).foldl (fun s i => if (s.seat (i + 1)).enumd then s.updSeat (i + 1) (fun x => { x with enumd := false }) else s) s
  let s := (s.setRing ringEnum).setChn { s.chn with enumOn := true, enumB := false, enumSeat := 1, enumWait := false, enumSent := false, late := late, complete := false }
  ((s.broadcast 0x02 []).sendEnum 1 false).showSeats

/-- The isolated segment: in SPLIT the seats between the arms, which answer through neither port; with no arm on CHB those beyond the arm on CHA (R193). -/
def State.isolated (s : State) : Option (Nat × Nat) :=
  let lo := s.armA + 1
  let hi := if s.armB = 0 then max (s.enumSeats.getLast?.getD 0) (s.modules.getD 0) else s.armB - 1
  if s.ring = ringSplit ∧ lo ≤ hi then some (lo, hi) else none

/-- Code 0x0805 for an isolated segment that was not there before (R193). -/
def State.noteIsolated (s : State) (was : Option (Nat × Nat)) : State :=
  match s.isolated with
  | some (lo, hi) => if was = some (lo, hi) then s else s.logS 0x0805 (u8 lo ++ u8 hi)
  | none => s

/-- Enumeration on the chain ends: the ring state found, code 0x0807, and after a late one the heat phase restarts (R191, R194). -/
def State.endEnum (s : State) (whole : Bool) : State :=
  let late := s.chn.late
  let s := s.setChn { s.chn with enumOn := false, enumWait := false, enumSent := false, complete := true, late := false, badRun := 0, goodRun := 0, splitFor := 0 }
  let l := s.enumSeats
  let s := if whole then ((s.setRing ringWhole).setFld Reg.CHN_RING 8 8 0).setFld Reg.CHN_RING 16 8 0
    else
      let lastA := (l.filter (fun n => decide (n < s.chn.enumSeat) || !s.chn.enumB)).getLast?.getD 0
      let firstB := if s.chn.enumB then (l.filter (fun n => decide (s.chn.enumSeat < n) && decide (lastA < n))).headD 0 else 0
      ((s.setRing ringSplit).setFld Reg.CHN_RING 8 8 lastA).setFld Reg.CHN_RING 16 8 firstB
  let s := (s.showSeats.logS 0x0807 (u8 l.length ++ u8 s.ring)).noteIsolated none
  let extra := l.filter (fun n => (match s.modules with | some m => decide (m < n) | none => false) || s.seatString n == 4)
  let s := extra.foldl (fun s n => s.logS 0x0808 (u8 n)) s
  if late then { s with stk := { s.stk with hrestart := true } } else s

/-- The last seat on CHB that can be asked for. -/
def State.topSeat (s : State) : Nat := s.modules.getD 0x80

/-- The enumeration goes on with the next seat of its direction, or its direction has ended. -/
def State.enumNext (s : State) (answered : Bool) : State :=
  let c := s.chn
  if !c.enumOn then s
  else if answered then
    let n := if c.enumB then c.enumSeat - 1 else c.enumSeat + 1
    if n = 0 ∨ 128 < n then (if c.enumB then s.endEnum false else s.setChn { c with enumSeat := n, enumWait := true, enumSent := false })
    else (s.setChn { c with enumSeat := n }).sendEnum n c.enumB
  else if c.enumB then s.endEnum false
  else s.setChn { c with enumWait := true, enumSent := false }

/-- The fields of an IDENT payload that a seat keeps (Table 8-4). -/
def SeatSt.ident (x : SeatSt) (p : List Byte) : SeatSt :=
  { x with
    enumd := true, serial := leNat (p.take 8), maker := leNat ((p.drop 8).take 2), model := leNat ((p.drop 10).take 2), fwver := leNat ((p.drop 12).take 4), hwrev := (p.getD 16 0).toNat, cells := min 16 (p.getD 17 0).toNat, temps := min 8 (p.getD 18 0).toNat, caps := (p.getD 19 0).toNat }

/-- The configured serial of a seat. -/
def State.serialOf (s : State) (n : Nat) : Option Nat :=
  match s.par .chnSeatSerial n with
  | .ident k => some k
  | _ => none

/-- A module swap (R192, R280): logged, the seat STALE_LEARNED, its SOC to come from OCV. -/
def State.moduleSwap (s : State) (n : Nat) : State :=
  let x := s.seat n
  let s := s.logS 0x0806 (u8 n ++ u32 (x.serial % 2 ^ 32) ++ u32 ((s.serialOf n).getD 0 % 2 ^ 32))
  let s := s.updSeat n (fun x => { x with stale := true, ocvInit := true, est := x.est.map (fun c => { c with capSwap := false, resSwap := false }) })
  s.logS 0x0C12 (u8 n ++ u8 1)

/-- The common CFG addresses of a seat with their values (R190): no parameter gives them, so each is any value the module takes (DESIGN CHOICE, log entry 152). -/
def State.cfgPairs (s : State) (n : Nat) : List Byte :=
  let x := s.seat n
  u16 0x8000 ++ u16 (1 + Config.freeOf 810 n % max 1 x.cells) ++ u16 0x8001 ++ u16 (Config.freeOf 811 n % (x.temps + 1)) ++ u16 0x8002 ++ u16 (1 + Config.freeOf 812 n % 100)

/-- What an IDENT answer of a seat settles (R190, R192, R196): a swap where the serial differs from the configured one, once for each module found; a LOST seat is re-admitted only on a match (DEDUCED, log entry 43); at an enumeration and a re-admission the common CFG addresses are written. -/
def State.identRead (s : State) (n : Nat) (p : List Byte) : State :=
  let was := s.seat n
  let s := s.setSeat n (was.ident p)
  let found := (s.seat n).serial
  let s := match s.serialOf n with
    | some k => if k ≠ found ∧ ¬(was.lost ∧ was.stale ∧ was.serial = found) then s.moduleSwap n else s
    | none => s
  let back := was.lost && decide (s.serialOf n = some found)
  let s := if back then
      let s := s.updSeat n (fun x => { x with lost := false, silent := 0, readmit := some s.strokeNo, unproven := true })
      (s.setBit Reg.CHN_IRQ 2 true).logS 0x0804 (u8 n ++ u16 (s.strokeNo % 65536))
    else s
  if back || s.chn.enumOn then s.showSeats.issue 0x31 n (s.bothPaths n) (s.strokeNo % 65536) (s.cfgPairs n) 1 2 else s.showSeats

/-! Twin comparison (R222, R223) -/

/-- The header of a response with masked FLAGS, and its payload, as compared. -/
def compared (f : Frame) (fmask : Nat) : List Byte := Frame.bytes { f with flags := f.flags - (f.flags &&& fmask) }

/-- The first place at which two byte strings differ; 0xFF for a length difference (Table 9-11). -/
def firstDiff (a b : List Byte) : Nat :=
  if a.length ≠ b.length then 0xFF else ((List.range a.length).find? (fun i => decide (a.getD i 0 ≠ b.getD i 0))).getD 0xFF

/-- The outcome of two copies (Table 9-6). -/
def twinOutcome (fmask : Nat) : Option Frame → Option Frame → Nat
  | some a, some b => if compared a fmask = compared b fmask then 0 else 3
  | some _, none => 1
  | none, some _ => 2
  | none, none => 4

def State.gotOf (s : State) (t : Nat) : Option Frame := (s.chn.got.find? (fun g => decide (g.1 = t))).map (fun g => g.2)
def State.rgotOf (s : State) (t : Nat) : Option Frame := (s.chn.rgot.find? (fun g => decide (g.1 = t))).map (fun g => g.2)

/-- The decision of a transaction that requested both paths, into its head and the counters; with the compare off there is none. -/
def State.twinDecide (s : State) (t : Nat) : State :=
  if !s.bit Reg.TWN_CTRL 0 then s
  else if !(s.path t 0 && s.path t 1) then s.setHd t 0x1B 1 0xFF
  else
    let o := twinOutcome (s.fld Reg.TWN_CTRL 8 8) (s.gotOf t) (s.rgotOf t)
    let s := (s.setHd t 0x1B 1 o).updSeat (s.hd t 2 1) (fun x => { x with twin := o })
    let s := s.incSat ([Reg.TWN_CNTAGR, Reg.TWN_CNTCHN, Reg.TWN_CNTRAD, Reg.TWN_CNTDIS, Reg.TWN_CNTMIS].getD o Reg.TWN_CNTMIS) 0 16 1
    if o = 3 then
      let off := match s.gotOf t, s.rgotOf t with
        | some a, some b => firstDiff (compared a (s.fld Reg.TWN_CTRL 8 8)) (compared b (s.fld Reg.TWN_CTRL 8 8))
        | _, _ => 0xFF
      let seat := s.hd t 2 1
      let s := (s.wrN Reg.TWN_LASTDIS (seat + off % 256 * 256 + s.hd t 1 1 * 65536)).wrN Reg.TWN_LASTDTAG t
      let s := (s.setBit Reg.TWN_IRQ 0 true).updSeat seat (fun x => { x with proving := s.parI .twnProve, agreed := 0, heatKind := 0, disag := within s.clock hours24 x.disag ++ [s.clock] })
      s.logS 0x090A (u8 seat ++ u8 (s.hd t 1 1) ++ u16 (s.hd t 4 2) ++ u8 (off % 256))
    else if o = 4 then s.setBit Reg.TWN_IRQ 1 true
    else s

/-! Use of the data (R196, R200, R222 to R224) -/

/-- A SAMPLE payload into its seat (Table 8-4). -/
def SeatSt.sample (x : SeatSt) (stroke : Nat) (p : List Byte) (onePath : Bool) : SeatSt :=
  let w (o : Nat) : Nat := leNat ((p.drop o).take 2)
  let nc := min 16 (p.getD 4 0).toNat
  let nt := min 8 (p.getD 5 0).toNat
  { x with used := some stroke, flags := w 0, bal := w 2, modT := signed 16 (w 6), cells := nc, temps := nt, onePath := onePath, cellV := (List.range nc).map (fun i => w (8 + 2 * i)), temp := (List.range nt).map (fun i => signed 16 (w (40 + 2 * i))) }

/-- One current step whose samples are awaited (R275) takes the voltages of an AGREED sample. -/
def State.noteStep (s : State) (n stroke : Nat) (p : List Byte) : State :=
  let w (o : Nat) : Nat := leNat ((p.drop o).take 2)
  let v := (List.range (min 16 (p.getD 4 0).toNat)).map (fun i => w (8 + 2 * i))
  { s with est := { s.est with steps := s.est.steps.map (fun e => if e.seat ≠ n then e else if stroke = e.stroke then { e with vNow := some v } else if (stroke + 1) % 2 ^ 32 = e.stroke then { e with vPrev := some v } else e) } }

/-- A heat of used data is counted once for its seat: a single path (1), AGREED (2), or AGREED after a single path. A heat between, or one that is not AGREED, breaks the run of AGREED heats and a proof (R223, R224). -/
def SeatSt.countHeat (x : SeatSt) (heatNo prove : Nat) (agreed : Bool) : SeatSt :=
  let same := decide (x.heatNo = some heatNo)
  let kind := if same then x.heatKind else 0
  let goesOn := same || (decide (x.heatKind = 2) && (match x.heatNo with | some h => decide (h + 1 = heatNo) | none => false))
  let run := if goesOn then x.agreed else 0
  let left := if goesOn ∨ x.proving = 0 then x.proving else prove
  if agreed then (if kind = 2 then x else { x with heatNo := some heatNo, heatKind := 2, single := 0, agreed := run + 1, proving := left - 1 })
  else if 1 ≤ kind then x
  else { x with heatNo := some heatNo, heatKind := 1, single := x.single + 1, agreed := run, proving := left }

/-- The seat after a SAMPLE of a stroke: its values, whether it is still unproven, and its heat counted. -/
def SeatSt.taken (x : SeatSt) (heat heatNo prove stroke : Nat) (payload : List Byte) (agreed : Bool) : SeatSt :=
  let y := (x.sample stroke payload (!agreed)).countHeat heatNo prove agreed
  { y with unproven := match y.readmit with | some r => y.unproven && !strokeLe (r + heat) stroke | none => y.unproven }

/-- The number of the heat that a stroke belongs to: the present one, or the one before (R275). -/
def State.heatOf (s : State) (stroke : Nat) : Nat := if (s.strokeNo + 2 ^ 32 - stroke) % 2 ^ 32 ≤ s.hph then s.chn.heatNo else s.chn.heatNo - 1

/-- A SAMPLE of a stroke used for the seat: its values, the counts of agreed and single heats, and the return of a blade (R196, R223, R224). (DEDUCED, log entry 97) -/
def State.takeSample (s : State) (n stroke : Nat) (payload : List Byte) (agreed : Bool) : State :=
  let s := s.updSeat n (fun x => x.taken s.heat (s.heatOf stroke) (s.parI .twnProve) stroke payload agreed)
  let x := s.seat n
  let s := if x.oneBlade ∧ s.parI .twnClearHeats ≤ x.agreed then
      (s.updSeat n (fun x => { x with oneBlade := false })).logS 0x090B (u8 n ++ u8 0 ++ u8 0)
    else s
  s.estSample n

/-- In SPLIT a seat that answers with WRAP set ends the arm of the port it answered through; what then lies between the arms is isolated (R193). -/
def State.noteWrap (s : State) (n : Nat) (f : Frame) : State :=
  if s.ring = ringSplit ∧ leNat (f.payload.take 2) / 8 % 2 = 1 then
    (s.setFld Reg.CHN_RING (if f.flag flagDirB then 16 else 8) 8 n).showSeats.noteIsolated s.isolated
  else s

/-- A seat whose data Camlan uses: within `chn.modules` and with a string (R192). -/
def State.named (s : State) (n : Nat) : Bool := decide (s.seatString n < 4) && (match s.modules with | some m => decide (n ≤ m) | none => true)

/-- What Camlan does with a decided SAMPLE of a seat: a read that failed on a path is caught up (R199, R214), and the data is used as the outcome allows, dated by the CATCH it carries (R192, R200, R222, R223). -/
def State.useSample (s : State) (t n : Nat) (readClass : Nat) : State :=
  let o := s.hd t 0x1B 1
  let asked := s.strokeOf (s.hd t 4 2)
  let data (f : Option Frame) : Option Frame := match f with
    | some f => if isNak f then none else some f
    | none => none
  let good := data (s.gotOf t)
  let rgood := data (s.rgotOf t)
  let x := s.seat n
  let agreed := o == 0 && good.isSome
  let frame := if o = 3 then none else match good with
    | some f => some f
    | none => rgood
  let s := if o = 0xFF then s.updSeat n (fun x => { x with twin := if good.isSome then 1 else 4 }) else s
  let again := decide (readClass < 2) && (decide (o = 1 ∨ o = 2 ∨ o = 4) || decide (o = 0xFF) && good.isNone)
  let s := if again then s.setChn { s.chn with catchup := (s.chn.catchup.filter (fun e => decide (e ≠ (n, asked)))) ++ [(n, asked)] } else s
  let s := match good with
    | some f => s.noteWrap n f
    | none => s
  match frame with
  | none => s
  | some f =>
    let stroke := s.strokeOf f.catchNo
    let s := if agreed then s.noteStep n stroke f.payload else s
    let chainOnly := good.isSome && rgood.isNone
    let older := match x.used with
      | some u => !strokeLe u stroke
      | none => false
    if !s.named n || x.faulty || older || (!agreed && decide (0 < x.proving)) || (x.lost && chainOnly) then s
    else s.takeSample n stroke f.payload agreed

/-! Pairing answers (R220, R221) -/

/-- The reply line of a pairing, on the port that asked; more lines follow while others of the same command are under way or still to be answered (R221, R326). -/
def State.pairReply (s : State) (p : PairSt) (ok more : Bool) : State :=
  let line := "pair seat=" ++ toString p.seat ++ " keyid=" ++ toString p.keyId ++ " result=" ++ (if ok then "paired" else "refused")
  match p.asker with
  | .console port tag => s.sayLine port tag (more || s.rad.pairs.any (fun q => decide (q.asker = p.asker) && decide (q.seat ≠ p.seat))) line
  | _ => s

/-- The key check value of a key: the first 4 bytes of AES-128 of a zero block under it (Table 9-5). -/
def kcv (key : List Byte) : List Byte := (Config.aes128 key (List.replicate 16 0)).take 4

/-- KEY_LOAD for a seat with a new key from the random source (R221, Table 9-5). -/
def State.keyLoad (s : State) (n keyId : Nat) (asker : Origin) : State :=
  let (f, s) := s.free
  let key := (List.range 16).map (fun i => byteOf (Config.freeOf f i))
  let hop := (List.range 16).map (fun i => byteOf (s.fld (Reg.RAD_HOPSET (i / 4)) (8 * (i % 4)) 6))
  let s := s.setRad { s.rad with pairs := (s.rad.pairs.filter (fun p => decide (p.seat ≠ n))) ++ [⟨n, keyId, key, none, asker⟩] }
  s.issue 0x40 n 1 (s.strokeNo % 65536) (u8 keyId ++ u8 (s.fld Reg.RAD_CTRL 16 6) ++ u8 (s.fld Reg.RAD_STAT 16 8) ++ leInt 1 (s.parN .radModTxpwr / 1000)
    ++ u32 s.nv.rad.access ++ key ++ s.nv.rad.netKey ++ hop) 8 2

/-- The answer to KEY_LOAD or KEY_CONFIRM: on a KCV match KEY_CONFIRM with ACTCATCH 32 strokes ahead (DEDUCED, log entry 20), otherwise, and on a NAK of either, ACTION 0 and a restart with a new KEYID. -/
def State.pairAnswer (s : State) (n type : Nat) (f : Option Frame) : State :=
  match s.rad.pairs.find? (fun p => decide (p.seat = n)) with
  | none => s
  | some p =>
    let put (s : State) (q : PairSt) : State := s.setRad { s.rad with pairs := s.rad.pairs.map (fun x => if x.seat = n then q else x) }
    let retry (s : State) : State :=
      let s := s.issue 0x41 n 1 (s.strokeNo % 65536) (u8 p.keyId ++ u8 0 ++ u16 0) 4 2
      s.keyLoad n ((p.keyId + 1) % 256) p.asker
    match f with
    | none => if type = 0x41 ∧ p.act = none then s else retry s
    | some f =>
      if type = 0x40 then
        (if isNak f ∨ (f.payload.getD 1 0).toNat ≠ 0 ∨ (f.payload.drop 4).take 4 ≠ kcv p.key then retry s
         else
           let act := (s.strokeNo + 32) % 2 ^ 32
           (put s { p with act := some act }).issue 0x41 n 1 (s.strokeNo % 65536) (u8 p.keyId ++ u8 1 ++ u16 (act % 65536)) 4 2)
      else if isNak f ∧ p.act ≠ none then retry s
      else s

/-! Ends of paths (R203) -/

/-- Camlan consumes one of its own transactions and frees it; a control or bulk command whose copies disagree is sent again under a new tag, and no copy of it is used (R222). -/
def State.consume (s : State) (t : Nat) : State :=
  match s.chn.own.find? (fun o => decide (o.1 = t)) with
  | none => s
  | some (_, cls) =>
    let type := s.hd t 1 1
    let seat := s.hd t 2 1
    let f := match s.gotOf t with
      | some f => some f
      | none => s.rgotOf t
    let o := s.hd t 0x1B 1
    let proves := decide (o = 1) && decide (0 < (s.seat seat).proving)
    let answer := (match s.gotOf t with | some f => if isNak f ∨ proves then none else some f | none => none)
    let req := s.reqOf t
    let both := s.hd t 3 1 % 4
    let rspLen := s.hd t 7 1
    let s := if type = 0x20 then s.useSample t seat cls else s
    let s := s.freeTx t
    if o = 3 ∧ type ≠ 0x20 then s.issue type seat both (s.strokeNo % 65536) req rspLen cls
    else if type = 0x01 then
      match answer with
      | some f =>
        let s := (s.updSeat f.seat (fun x => { x with enumd := true })).showSeats
        s.issue 0x10 f.seat (s.bothPaths f.seat) (s.strokeNo % 65536) [] 24 2
      | none => s.enumNext false
    else if type = 0x10 then
      let s := match answer with
        | some f => s.identRead seat f.payload
        | none => s
      if s.chn.enumOn then s.enumNext true else s
    else if type = 0x40 ∨ type = 0x41 then s.pairAnswer seat type f
    else if type = 0x20 then
      (if (s.seat seat).lost && answer.isSome then s.issue 0x10 seat (s.bothPaths seat) (s.strokeNo % 65536) [] 24 2 else s)
    else s

/-- A path's end: its bit, and when every requested path has ended COMPLETE or FAILED, the completed-tag queue, from which Camlan takes its own tag, and the twin decision. -/
def State.pathEnded (s : State) (t : Nat) (radio : Bool) : State :=
  let s := s.setPath t (if radio then 3 else 2)
  let doneC := !s.path t 0 || s.path t 2
  let doneR := !s.path t 1 || s.path t 3
  let s := if radio then (s.setRad { s.rad with done := s.rad.done ++ [t] }).setBit Reg.RAD_IRQ 0 true else s
  if !(doneC && doneR) then s.showDone
  else
    let ok := decide (s.hd t 0x14 1 = 1) || decide (s.hd t 0x16 1 = 1)
    let s := (s.setHd t 0 1 (if ok then txComplete else txFailed)).setBit Reg.CHN_IRQ 0 true
    let s := s.setChn { s.chn with done := s.chn.done ++ [t] }
    let s := if s.chn.decided.contains t then s.setChn { s.chn with decided := s.chn.decided.filter (fun d => decide (d ≠ t)) } else s.twinDecide t
    if s.chn.own.any (fun o => decide (o.1 = t)) then
      let s := s.setChn { s.chn with done := s.chn.done.filter (fun d => decide (d ≠ t)) }
      ((s.setRad { s.rad with done := s.rad.done.filter (fun d => decide (d ≠ t)) }).consume t).showDone.showTx
    else s.showDone

/-- The chain path of a tag ends with a status; its direction is free again. A SAMPLE read answered by data or a NAK, or caught up, ends the seat's silence; another counts its heat (R195). -/
def State.chainEnd (s : State) (t st : Nat) : State :=
  let s := s.setHd t 0x14 1 st
  let off (x : Option Nat) : Option Nat := if x = some t then none else x
  let s := s.setChn { s.chn with flyA := off s.chn.flyA, flyB := off s.chn.flyB, queue := s.chn.queue.filter (fun e => decide (e.1 ≠ t)) }
  let read (cls : Nat) : Bool := s.chn.own.any (fun o => decide (o = (t, cls))) && decide (s.hd t 1 1 = 0x20)
  let n := s.hd t 2 1
  let s := if (read 0 || read 1) && (decide (st = 1) || decide (st = 4)) then
      s.updSeat n (fun x => { x with silent := 0, lastGood := if st = 1 then s.strokeOf (s.hd t 4 2) else x.lastGood })
    else if read 0 then s.updSeat n (fun x => { x with silent := x.silent + 1 })
    else s
  (s.pathEnded t false).kick

/-- The last answer of a tag on the chain that its attempts leave, for the comparison. -/
def State.keepGot (s : State) (t : Nat) (f : Option Frame) : State :=
  s.setChn { s.chn with got := s.chn.got.filter (fun (g : Nat × Frame) => decide (g.1 ≠ t)) ++ (match f with | some f => [(t, f)] | none => []) }

/-- A chain path ended by an answer: its time, length and data (R203). -/
def State.fillChain (s : State) (t us : Nat) (f : Frame) : State :=
  let s := ((s.keepGot t (some f)).setHd t 0x10 2 us).setHd t 0x18 1 f.payload.length
  if s.hd t 0xE 2 = 0xFFFF then s else s.wrBytes (txAddr (s.hd t 0xE 2)) (f.payload.take (32 * dataCount (s.hd t 7 1)))

/-- Whether a failed attempt is retried: a retry is left, and it would end by the gather deadline (R198). -/
def State.retries (s : State) (t : Nat) (dirB : Bool) : Bool := decide (s.hd t 0x15 1 ≤ min 2 (s.fld Reg.CHN_RETRY 0 2)) && s.fits dirB

/-- A failed attempt: a retry on the same path, or the path ends with the status and, after NAK 0x04, the NAK (R198). -/
def State.chainFail (s : State) (t : Nat) (dirB : Bool) (st : Nat) (nak : Option (Nat × Frame)) : State :=
  if s.retries t dirB then
    (((s.keepGot t none).setHd t 0x15 1 (s.hd t 0x15 1 + 1)).incSat Reg.CHN_CNTRETRY 0 16 1).sendTx t dirB true
  else match nak with
    | some (us, f) => (s.fillChain t us f).chainEnd t st
    | none => (s.keepGot t none).chainEnd t st

/-- The transaction in flight on the chain in a direction of travel. -/
def State.fly (s : State) (dir : RingPort) : Option Nat :=
  match dir with
  | .a => s.chn.flyA
  | .b => s.chn.flyB

def portB : RingPort → Bool
  | .a => false
  | .b => true

/-- A response for a tag that is EXPIRED, FREE or holds data is discarded and counted (R204). -/
def State.lateResponse (s : State) (f : Frame) : State :=
  let st := s.txState f.tag
  if st = txExpired ∨ st = txFree ∨ st = 1 then (s.incSat Reg.TXT_LATE 0 16 1).setBit Reg.TXT_IRQ 1 true else s

/-- The seat a response must carry: the requested one, or for 0xFE the seat that ENUM named. -/
def State.expectSeat (s : State) (t : Nat) : Nat :=
  if s.hd t 2 1 = 0xFE then (s.rdB (txAddr (s.hd t 0xC 2))).toNat else s.hd t 2 1

/-- Whether a response is the one a transaction awaits: its SEAT, TAG and TYPE, and a payload of no more than RSPLEN, or a NAK (R197, Table 8-9). -/
def State.answers (s : State) (t seat : Nat) (f : Frame) : Bool :=
  decide (f.tag = t) && decide (f.type = s.hd t 1 1) && decide (f.seat = seat) && (isNak f || decide (f.payload.length ≤ s.hd t 7 1))

/-- A NAK: its code into the head, code 0x080A. -/
def State.noteNak (s : State) (t : Nat) (f : Frame) : State :=
  (s.setHd t 0x1A 1 (f.payload.getD 0 0).toNat).logS 0x080A (u8 f.seat ++ u8 f.type ++ u8 (f.payload.getD 0 0).toNat)

/-- The codes of a NAK that the master retries (Table 8-2). -/
def nakRetried (f : Frame) : Bool := isNak f && decide ((f.payload.getD 0 0).toNat = 4)

/-- CHAIN_RESPONSE: the bytes after a start byte, in a direction of travel, ending at a time. What is cut short, too long or no response is discarded (R180, R188); the rest is judged by time, CRC, SEAT, TAG and TYPE (R181, R197, R198, R203, R204). (DEDUCED, log entry 93) -/
def doChainResponse (s : State) (dir : RingPort) (raw : List Byte) (us : Nat) : State :=
  let s := s.atUs us
  let dirB := portB dir
  match recvChain raw with
  | none => s
  | some (ok, f) =>
    if ok ∧ !f.flag flagRsp then s
    else
      let s := if ok then s.lateResponse f else s
      match s.fly dir with
      | none => s
      | some t =>
        let s := s.setReady dirB (us + 2)
        if s.gather < us then (s.incSat Reg.CHN_CNTLATE 0 16 1).chainEnd t 5
        else if !ok then (s.incSat Reg.CHN_CNTCRC 0 16 1).chainFail t dirB 3 none
        else if !s.answers t (s.expectSeat t) f then s.chainFail t dirB 3 none
        else if nakRetried f then (s.noteNak t f).chainFail t dirB 4 (some (us, f))
        else if isNak f then ((s.noteNak t f).fillChain t us f).chainEnd t 4
        else (s.fillChain t us f).chainEnd t 1

def execChainResponse (dir : RingPort) (raw : List Byte) (us : Nat) (s : State) := done (doChainResponse s dir raw us)

/-- CHAIN_TIMEOUT (R197). -/
def doChainTimeout (s : State) (dir : RingPort) (us : Nat) : State :=
  let s := s.atUs us
  match s.fly dir with
  | none => s
  | some t => (s.incSat Reg.CHN_CNTTMO 0 16 1).chainFail t (portB dir) 2 none

def execChainTimeout (dir : RingPort) (us : Nat) (s : State) := done (doChainTimeout s dir us)

/-- CHAIN_SUBMIT: a tag that is QUEUED enters the queue, another is ignored and counted (R203). -/
def doChainSubmit (s : State) (tag cls : Nat) : State :=
  if s.txState tag ≠ txQueued then s.incSat Reg.TXT_BADSUB 0 16 1
  else (s.setChn { s.chn with queue := s.chn.queue ++ [(tag % 32768, cls % 4, s.chn.dirB)], dirB := !s.chn.dirB }).kick

def execChainSubmit (tag cls : Nat) (s : State) := done (s.byRequester (doChainSubmit s tag cls))

/-- Whether a read of an earlier stroke may still be caught up: its heat runs on (R199), or a current step awaits it (R275). -/
def State.mayCatchUp (s : State) (e : Nat × Nat) : Bool :=
  decide ((s.strokeNo + 2 ^ 32 - e.2) % 2 ^ 32 ≤ s.hph)
    || s.est.steps.any (fun x => decide (x.seat = e.1) && decide (e.2 = x.stroke ∨ (e.2 + 1) % 2 ^ 32 = x.stroke))

/-- Camlan queues the SAMPLE read of a seat for a catch (R199, R214). -/
def State.queueRead (s : State) (n stroke cls : Nat) : State := s.enqueue ⟨0x20, n, if s.radioSeat n then 3 else 1, [], 56, cls⟩ (stroke % 65536)

/-- SAMPLE_READS_START: the SAMPLE reads of the heat phase in ascending seat order, then the catch-up reads of the same heat; then the directions start (R199). -/
def doSampleReadsStart (s : State) : State :=
  if !s.camlanOn ∨ s.ring = ringDown ∨ s.ring = ringEnum then s
  else
    let s := s.atUs 600
    let s := (s.phaseSeats s.hph).foldl (fun s n => s.queueRead n s.strokeNo 0) s
    let l := s.chn.catchup.filter s.mayCatchUp
    (l.foldl (fun s e => s.queueRead e.1 e.2 1) (s.setChn { s.chn with catchup := [] })).kick

def execSampleReadsStart (s : State) := done (doSampleReadsStart s)

/-! Ring (R193 to R195) -/

/-- Whether a port's transmit pair sends idle (R179, Table 8-6). -/
def State.setIdle (s : State) (port : RingPort) (v : Bool) : State :=
  match port with
  | .a => s.setChn { s.chn with idleA := v }
  | .b => s.setChn { s.chn with idleB := v }

/-- The bit of CHN.RING that shows a port's link. -/
def linkBit : RingPort → Nat
  | .a => 4
  | .b => 5

/-- LINK_LOSS: the port stops sending idle (R179); without link on either port an enumerated ring is ISOLATED, which sends idle as DOWN does (Table 8-6; DEDUCED, log entry 153), and a late enumeration is no longer due (R194). -/
def doLinkLoss (s : State) (port : RingPort) : State :=
  let s := (s.setBit Reg.CHN_RING (linkBit port) false).setIdle port false
  if s.bit Reg.CHN_RING 4 || s.bit Reg.CHN_RING 5 then s
  else
    let s := s.setChn { s.chn with lateDue := false }
    if s.ring = ringWhole ∨ s.ring = ringSplit then ((s.setRing ringIsolated).setIdle .a true).setIdle .b true
    else if s.ring = ringDown then (s.setIdle .a true).setIdle .b true
    else s

def execLinkLoss (port : RingPort) (s : State) := done (doLinkLoss s port)

/-- LINK_REGAIN: the port sends idle again; from DOWN the ring is enumerated at once in the interval, later at the next watch; from ISOLATED it becomes SPLIT (Table 8-6, R194). -/
def doLinkRegain (s : State) (port : RingPort) : State :=
  let s := (s.setBit Reg.CHN_RING (linkBit port) true).setIdle port true
  let s := s.setChn { s.chn with seen := true }
  if s.ring = ringIsolated then s.setRing ringSplit
  else if s.ring = ringDown ∧ s.camlanOn then
    (if s.cam.state = .stake then s.startEnum false else if s.rowing then s.setChn { s.chn with lateDue := true } else s)
  else s

def execLinkRegain (port : RingPort) (s : State) := done (doLinkRegain s port)

/-- ENUM_TIMEOUT: the ENUM state ends with the ring as found (Table 8-6). -/
def doEnumTimeout (s : State) (echoA echoB : Bool) : State := if s.ring = ringEnum then s.endEnum (echoA && echoB) else s

def execEnumTimeout (echoA echoB : Bool) (s : State) := done (doEnumTimeout s echoA echoB)

/-- CATCH_ECHO: a copy is judged; only a good one on the opposite port counts for the whole ring, and CHN.RING shows it (R193). -/
def doCatchEcho (s : State) (dir : RingPort) (good sameEnd : Bool) (latency10ns : Nat) : State :=
  let s := s.setFld Reg.CHN_RINGLAT 0 16 latency10ns
  let v := good && !sameEnd
  match dir with
  | .a => (s.setChn { s.chn with echoA := v }).setBit Reg.CHN_RING 6 v
  | .b => (s.setChn { s.chn with echoB := v }).setBit Reg.CHN_RING 7 v

def execCatchEcho (dir : RingPort) (good sameEnd : Bool) (latency10ns : Nat) (s : State) := done (doCatchEcho s dir good sameEnd latency10ns)

/-- RING_SPLIT: at the chn.break_n-th catch with an echo missing or bad (R193); seats between the arms are an isolated segment, code 0x0805. -/
def doRingSplit (s : State) (armaLast armbLast : Nat) : State :=
  if s.ring = ringWhole ∧ s.parI .chnBreakN ≤ s.chn.badRun then
    let s := ((s.setRing ringSplit).setFld Reg.CHN_RING 8 8 armaLast).setFld Reg.CHN_RING 16 8 armbLast
    let s := (s.setChn { s.chn with splitFor := 0, goodRun := 0 }).showSeats
    (s.logS 0x0801 (u8 (s.fld Reg.CHN_RING 6 2) ++ u8 armaLast ++ u8 armbLast)).noteIsolated none
  else s

def execRingSplit (armaLast armbLast : Nat) (s : State) := done (doRingSplit s armaLast armbLast)

/-- RING_HEAL: both echoes good on the opposite ports at chn.heal_n consecutive catches (R193). -/
def doRingHeal (s : State) : State :=
  if s.ring = ringSplit ∧ s.parI .chnHealN ≤ s.chn.goodRun then
    let s := ((s.setRing ringWhole).setFld Reg.CHN_RING 8 8 0).setFld Reg.CHN_RING 16 8 0
    ((s.setChn { s.chn with badRun := 0 }).showSeats).logS 0x0802 (u32 s.chn.splitFor)
  else s

def execRingHeal (s : State) := done (doRingHeal s)

/-- SEAT_LOST: after chn.lost_heats heats without a valid chain response (R195). -/
def doSeatLost (s : State) (seat : Nat) : State :=
  let x := s.seat seat
  if s.readSet.contains seat ∧ !x.lost ∧ s.parI .chnLostHeats ≤ x.silent then
    (((s.setSeat seat { x with lost := true }).showSeats).setBit Reg.CHN_IRQ 2 true).logS 0x0803 (u8 seat ++ u16 (x.lastGood % 65536))
  else s

def execSeatLost (seat : Nat) (s : State) := done (doSeatLost s seat)

/-- SEAT_FAULTY: twn.disagree_max DISAGREE outcomes within 24 hours (R223). -/
def doSeatFaulty (s : State) (seat : Nat) : State :=
  let x := s.seat seat
  let n := (within s.clock hours24 x.disag).length
  if !x.faulty ∧ s.parI .twnDisagreeMax ≤ n then (s.setSeat seat { x with faulty := true }).logS 0x090F (u8 seat ++ u8 n) else s

def execSeatFaulty (seat : Nat) (s : State) := done (doSeatFaulty s seat)

/-- ONE_BLADE: the seventeenth consecutive single-path heat (R224); the surviving path is 1 the chain or 2 the radio. -/
def doOneBlade (s : State) (seat : Nat) : State :=
  let x := s.seat seat
  if !x.oneBlade ∧ 17 ≤ x.single then (s.setSeat seat { x with oneBlade := true }).logS 0x090B (u8 seat ++ u8 (if x.twin = 2 then 2 else 1) ++ u8 1) else s

def execOneBlade (seat : Nat) (s : State) := done (doOneBlade s seat)

/-! At catches, deadlines and watches -/

/-- The sweep of the transaction table (R204). -/
def State.sweep (s : State) : State :=
  if !s.bit Reg.TXT_CTRL 1 then s
  else
    let s := s.activeTags.foldl (fun s t =>
      if strokeLe (s.hd t 8 4 + 4 * s.heat) s.strokeNo then
        let off (x : Option Nat) : Option Nat := if x = some t then none else x
        let s := if s.chn.own.any (fun o => decide (o.1 = t)) then s.dropTx t txExpired else s.setHd t 0 1 txExpired
        let s := s.setChn { s.chn with flyA := off s.chn.flyA, flyB := off s.chn.flyB, queue := s.chn.queue.filter (fun e => decide (e.1 ≠ t)) }
        let s := s.setRad { s.rad with queue := s.rad.queue.filter (fun e => decide (e.1 ≠ t)), fly := off s.rad.fly }
        let s := ((s.incSat Reg.TXT_EXPIRED 0 16 1).wrN Reg.TXT_LASTEXP t).setBit Reg.TXT_IRQ 0 true
        s.logS 0x0809 (u16 t ++ u8 (s.hd t 2 1) ++ u8 (s.hd t 1 1))
      else s) s
    s.showTx

/-- The echoes of the ended stroke's broadcast are judged: a missing one reads bad, and the runs of R193 count. -/
def State.judgeEchoes (s : State) : State :=
  let c := s.chn
  let both := c.echoA && c.echoB
  let s := (s.setBit Reg.CHN_RING 6 c.echoA).setBit Reg.CHN_RING 7 c.echoB
  if s.ring = ringWhole then (s.setChn { c with badRun := if both then 0 else c.badRun + 1, echoA := false, echoB := false }).setBit Reg.CHN_IRQ 3 (!both || s.bit Reg.CHN_IRQ 3)
  else if s.ring = ringSplit then s.setChn { c with goodRun := if both then c.goodRun + 1 else 0, splitFor := c.splitFor + 1, echoA := false, echoB := false }
  else s.setChn { c with echoA := false, echoB := false }

/-- The CATCH broadcast (R184): COUNTDOWN 20,300 and the low 16 bits of the new stroke; the payload's FLAGS has no stated value (DESIGN CHOICE, log entry 150). -/
def State.sendCatch (s : State) : State :=
  if s.bit Reg.CHN_CTRL 0 ∧ s.bit Reg.CHN_CTRL 3 then
    (s.wrN Reg.CHN_COUNTDN 20300).broadcast 0x03 (u32 20300 ++ u16 (Config.freeOf 808 0) ++ u16 0)
  else s

/-- The chain at a catch: the echoes of the last broadcast are judged, the new one is sent, commands that waited are issued, and an enumeration on CHA that ended goes on once the echoes of the next broadcast are known (R184, R191, R193, R419). (DEDUCED, log entry 94) -/
def State.chainCatch (s : State) : State :=
  let both := s.chn.echoA && s.chn.echoB
  let s := s.judgeEchoes
  let s := s.setChn { s.chn with sentA := [], sentB := [], readyA := 0, readyB := 0, heatNo := if s.hph = 0 then s.chn.heatNo + 1 else s.chn.heatNo }
  let s := s.sendCatch.issueWanted
  if s.chn.enumOn && s.chn.enumWait then
    if !s.chn.enumSent then s.setChn { s.chn with enumSent := true }
    else if both then s.endEnum true
    else (s.setChn { s.chn with enumB := true, enumWait := false, enumSent := false, enumSeat := s.topSeat }).sendEnum s.topSeat true
  else s.kick

/-- The gather deadline: reads that did not start are not sent, radio retries that found no slot end with the status of their last attempt, and transactions of both paths are decided with unended paths failed (R199, R222). -/
def State.chainDeadline (s : State) : State :=
  let reads := s.chn.queue.filter (fun e => decide (e.2.1 < 2))
  let s := reads.foldl (fun s e => s.chainEnd e.1 6) s
  let rreads := s.rad.queue.filter (fun e => decide (e.2 ≠ 2) && decide (e.2 ≠ 3))
  let s := rreads.foldl (fun s e =>
    let s := if e.2 < 2 then s.setHd e.1 0x16 1 6 else s
    (s.setRad { s.rad with queue := s.rad.queue.filter (fun q => decide (q.1 ≠ e.1)) }).pathEnded e.1 true) s
  let open_ := s.activeTags.filter (fun t => decide (s.hd t 0 1 = txFlight) && s.path t 0 && s.path t 1 && !s.chn.decided.contains t)
  open_.foldl (fun s t => (s.twinDecide t).setChn { (s.twinDecide t).chn with decided := s.chn.decided ++ [t] }) s

/-- The chain at a watch: a late enumeration begins, ENUM seeks LOST seats in each arm, transactions not issued are reported (R194, R195, R419). -/
def State.chainWatch (s : State) : State :=
  let n := s.chn.skipped
  let s := if n = 0 then s else (s.setChn { s.chn with skipped := 0 }).logS 0x080B (u32 n)
  if s.chn.lateDue ∧ s.ring = ringDown then (s.setChn { s.chn with lateDue := false }).startEnum true
  else if s.ring = ringWhole ∨ s.ring = ringSplit then
    let lost := s.readSet.filter (fun n => (s.seat n).lost)
    let inA := if s.ring = ringWhole then lost else lost.filter (fun n => decide (n ≤ s.armA))
    let inB := if s.ring = ringWhole then [] else lost.filter (fun n => decide (s.armB ≠ 0) && decide (s.armB ≤ n) && !inA.contains n)
    let s := match inA with
      | n :: _ => s.sendEnum n false
      | [] => s
    match inB.getLast? with
    | some n => s.sendEnum n true
    | none => s
  else s

end Sys2Proof.Machine
end

