-- ==== Sys2Proof/Machine/Radio.lean ====
section
/-!
DEFINITION. The module radio: slots, hopping, calibration, join and key activation (R205 to R221).
-/

namespace Sys2Proof.Machine

/-! Registers of the synthesizer -/

def State.radLocked (s : State) : Bool := s.bit Reg.RAD_STAT 0
def State.radOn (s : State) : Bool := s.started && s.bit Reg.RAD_CTRL 0

/-- LOCK, SETTLE and CAL of RAD.STAT. -/
def State.radStat (s : State) (lock settle cal : Bool) : State := ((s.setBit Reg.RAD_STAT 0 lock).setBit Reg.RAD_STAT 1 settle).setBit Reg.RAD_STAT 2 cal

/-- Entry i of the hop set in force, and of the pending one (Table 9-10). -/
def State.hopset (s : State) (i : Nat) : Nat := s.fld (Reg.RAD_HOPSET (i / 4)) (8 * (i % 4)) 6
def State.newset (s : State) (i : Nat) : Nat := s.fld (Reg.RAD_NEWSET (i / 4)) (8 * (i % 4)) 6

/-- The data channel of a stroke (R206). -/
def State.dataChannel (s : State) (n : Nat) : Nat := s.hopset (7 * n % 16)

/-- A channel set written into HOPSET or NEWSET. -/
def State.putSet (s : State) (reg : Nat → Nat) (l : List Nat) : State :=
  (List.range 16).foldl (fun s i => s.setFld (reg (i / 4)) (8 * (i % 4)) 6 (l.getD i 0)) s

/-! Channel map (R207) -/

def State.histOf (s : State) (c : Nat) : List Bool := Tab.get [] s.rad.hist c
def State.chBad (s : State) (c : Nat) : Bool := s.rad.bad.any (fun e => decide (e.1 = c))

/-- MAPLO and MAPHI show the good channels. -/
def State.showMap (s : State) : State :=
  let m (lo n : Nat) : Nat := (List.range n).foldl (fun a b => if s.chBad (lo + b) then a else a + 2 ^ b) 0
  (s.wrN Reg.RAD_MAPLO (m 0 32)).setFld Reg.RAD_MAPHI 0 8 (m 32 8)

/-- The failed fraction of a channel's kept attempts. -/
def State.failFrac (s : State) (c : Nat) : Rat :=
  let l := s.histOf c
  if l.isEmpty then 0 else ((l.filter id).length : Rat) / (l.length : Rat)

/-- One attempt on a channel: counted, and the channel is bad when more than rad.map_bad percent of the last rad.map_n failed (R207). -/
def State.mapAttempt (s : State) (c : Nat) (failed : Bool) : State :=
  let n := s.parI .radMapN
  let l := (s.histOf c ++ [failed])
  let l := l.drop (l.length - n)
  let s := s.setRad { s.rad with hist := Tab.put [] s.rad.hist c l }
  let s := if failed then s.incSat (Reg.RAD_CHSTAT c) 16 16 1 else s
  if l.length = n ∧ s.parN .radMapBad * (n : Int) < ((l.filter id).length : Int) * 100000 ∧ !s.chBad c then
    (s.setRad { s.rad with bad := s.rad.bad ++ [(c, s.clock)] }).showMap
  else s

/-- Insertion of a channel by failure fraction, then by number. -/
def State.insertCh (s : State) (c : Nat) : List Nat → List Nat
  | [] => [c]
  | d :: t => if s.failFrac c < s.failFrac d ∨ (s.failFrac c = s.failFrac d ∧ c < d) then c :: d :: t else d :: s.insertCh c t

/-- Channels by failure fraction, then by number. -/
def State.sortCh (s : State) (l : List Nat) : List Nat := l.foldr (fun c a => s.insertCh c a) []

/-- A set with each channel that is not good replaced by the next of a list, and filled up from it. -/
def replaceBad (good : Nat → Bool) : List Nat → List Nat → List Nat
  | [], pool => pool
  | c :: t, pool =>
    if good c then c :: replaceBad good t pool
    else match pool with
      | [] => replaceBad good t []
      | d :: pool => d :: replaceBad good t pool

/-- A hop set from a present one: bad channels are replaced by eligible channels outside it, and when fewer than 16 are good it is filled from the least-bad (R207): the set and the fill flag. -/
def State.buildSet (s : State) (present : List Nat) : List Nat × Bool :=
  let join := s.fld Reg.RAD_CTRL 16 6
  let ok (c : Nat) : Bool := !s.chBad c && decide (c ≠ join)
  let cand := s.sortCh ((List.range 40).filter (fun c => ok c && !present.contains c))
  let worse := s.sortCh ((List.range 40).filter (fun c => s.chBad c && decide (c ≠ join)))
  ((replaceBad ok present (cand ++ worse)).take 16, decide ((present.filter ok).length + cand.length < 16))

/-- Whether a channel has been bad for rad.map_quar minutes (R207). -/
def State.quarOver (s : State) (ch : Nat) : Bool := s.rad.bad.any (fun e => decide (e.1 = ch) && decide (e.2 + s.parI .radMapQuar * 60000000 ≤ s.clock))

/-- CHANNEL_QUARANTINE_END: after rad.map_quar minutes a bad channel is eligible again (R207). -/
def doChannelQuarantineEnd (s : State) (ch : Nat) : State :=
  if s.quarOver ch then
    (s.setRad { s.rad with bad := s.rad.bad.filter (fun e => decide (e.1 ≠ ch)), hist := Tab.put [] s.rad.hist ch [] }).showMap
  else s

def execChannelQuarantineEnd (ch : Nat) (s : State) := done (doChannelQuarantineEnd s ch)

/-- HOP_SET_CHANGE at a watch: a bad channel in the set and no switch pending leads to a new set with a switch catch ahead, code 0x0904 (R207). -/
def State.hopWatch (s : State) : State :=
  let s := s.setRad { s.rad with refused := [] }
  let present := (List.range 16).map s.hopset
  if !s.radOn ∨ s.fld Reg.RAD_HOPCTRL 0 16 ≠ 0xFFFF ∨ !present.any s.chBad then s
  else
    let (new, fill) := s.buildSet present
    let old := s.fld Reg.RAD_STAT 16 8
    let sw := (s.strokeNo + s.parI .radMapLead) % 65536
    let sw := if sw = 0xFFFF then 0 else sw
    let s := (s.putSet Reg.RAD_NEWSET new).wrN Reg.RAD_HOPCTRL (sw + (old + 1) % 256 * 65536)
    s.logS 0x0904 (u8 old ++ u8 ((old + 1) % 256) ++ u16 sw ++ u8 (if fill then 1 else 0))

/-- HOP_SET_SWITCH at its catch (R207). -/
def State.hopCatch (s : State) : State :=
  if s.fld Reg.RAD_HOPCTRL 0 16 ≠ 0xFFFF ∧ s.fld Reg.RAD_HOPCTRL 0 16 = s.strokeNo % 65536 then
    let s := s.putSet Reg.RAD_HOPSET ((List.range 16).map s.newset)
    (s.setFld Reg.RAD_STAT 16 8 (s.fld Reg.RAD_HOPCTRL 16 8)).setFld Reg.RAD_HOPCTRL 0 16 0xFFFF
  else s

/-- The radio at a catch: a new stroke's frames, and the switch of the hop set (R207). -/
def State.radioCatch (s : State) : State :=
  let s := s.setRad { s.rad with sent := [] }
  if s.started && s.bit Reg.RAD_CTRL 0 then s.hopCatch else s

/-! Session (R210) and start -/

/-- SESSION is incremented and committed before use: at each start, and again where STK.NUM passes a multiple of 2³¹. -/
def State.newSession (s : State) : State :=
  let n := (s.nv.rad.session + 1) % 2 ^ 32
  ({ s with nv := { s.nv with rad := { s.nv.rad with session := n } } }).wrN Reg.RAD_SESSION n

def State.sessionCatch (s : State) : State := if s.radOn && s.rowing && decide (s.strokeNo % 2 ^ 31 = 0) then s.newSession else s

/-- The radio at the start of the stroke timer: on the join channel only, in the states of Table 5-6 that allow it; the first hop set is built by the rule of R207 (DEDUCED, log entry 21). -/
def State.startRadio (s : State) : State :=
  if s.lcs = lcsBlank ∨ s.lcs = lcsRetired then s.setBit Reg.RAD_CTRL 0 false
  else
    let s := ((s.setBit Reg.RAD_CTRL 0 true).setBit Reg.RAD_CTRL 2 true).wrN Reg.RAD_ACCESS s.nv.rad.access
    let s := (s.putSet Reg.RAD_HOPSET (s.buildSet []).1).showMap
    (s.newSession.setFld Reg.RAD_STAT 8 6 (s.fld Reg.RAD_CTRL 16 6))

/-- At the end of the stake-boat interval the radio leaves the join channel and answers the buffered requests (R129). -/
def State.radioInterval (s : State) : State :=
  if !s.bit Reg.RAD_CTRL 0 then s
  else ((s.setBit Reg.RAD_CTRL 1 true).setBit Reg.RAD_CTRL 2 false).setBit Reg.RAD_CTRL 3 true

/-! Air frames (R209, R210, R212, R219) -/

/-- The seat key of a paired seat. -/
def State.seatKey (s : State) (n : Nat) : List Byte := ((s.nv.rad.seats.find? (fun k => decide (k.1 = n))).map (fun k => k.2.2)).getD []

/-- A frame leaves the radio. -/
def State.transmit (s : State) (tail : List Byte) : State := s.setRad { s.rad with sent := s.rad.sent ++ [airFrame (s.rdN Reg.RAD_ACCESS) tail] }

/-- The 16 channels of a set as bytes. -/
def channelBytes (f : Nat → Nat) : List Byte := (List.range 16).map (fun i => byteOf (f i))

/-- Whether a switch of the hop set is pending (R207). -/
def State.switching (s : State) : Bool := decide (s.fld Reg.RAD_HOPCTRL 0 16 ≠ 0xFFFF)

/-- The announcement of a beacon: the switch catch, the pending version and set, without one the set in force (R207, R210). -/
def State.announcement (s : State) : List Byte :=
  u16 (s.fld Reg.RAD_HOPCTRL 0 16)
    ++ (if s.switching then u8 (s.fld Reg.RAD_HOPCTRL 16 8) ++ u8 0 ++ channelBytes s.newset else u8 (s.fld Reg.RAD_STAT 16 8) ++ u8 0 ++ channelBytes s.hopset)

/-- The CATCH frame inside a beacon sent at a time of the stroke: COUNTDOWN from the end of ACCESS, 24 us after its start, to catch + 250 us (R212). -/
def State.beaconInner (s : State) (us : Nat) : List Byte :=
  Frame.bytes { seat := 0xFF, type := 0x03, tag := 0, catchNo := s.strokeNo % 65536, flags := 0
                payload := u32 ((250 - (us + 24)) * 100) ++ u16 (Config.freeOf 808 1) ++ u16 0 ++ s.announcement }

/-- The beacon under the network key (Tables 9-1, 9-2). -/
def State.sendBeacon (s : State) (us : Nat) : State :=
  let session := s.rdN Reg.RAD_SESSION
  let ext := u32 session ++ u16 (s.strokeNo / 65536) ++ u8 (s.fld Reg.RAD_STAT 16 8) ++ u8 0
  let s := s.setRad { s.rad with beaconAt := some s.strokeNo, waiting := none }
  s.transmit (airTail .beacon s.nv.rad.netKey (airNonce .beacon 0xFF session s.strokeNo 0 0) ext 0xFF 0 (s.beaconInner us))

/-- The request of a head under its seat's key; `try_` counts attempts from 0, and a retry sets RETRY (R210, R214). -/
def State.sendRequest (s : State) (t try_ : Nat) : State :=
  let n := s.hd t 2 1
  let inner := Frame.bytes { seat := n, type := s.hd t 1 1, tag := t, catchNo := s.hd t 4 2, flags := if try_ = 0 then 0 else flagRetry, payload := s.reqOf t }
  s.transmit (airTail .request (s.seatKey n) (airNonce .request n (s.rdN Reg.RAD_SESSION) s.strokeNo t try_) [] n try_ inner)

/-- A JOIN_GRANT to a seat, sent at a time of the stroke: COUNTDOWN from the end of its ACCESS to the next catch (R219). Its TAG is the low half of JCOUNT. -/
def State.sendGrant (s : State) (n jcount us : Nat) : State :=
  let session := s.rdN Reg.RAD_SESSION
  let payload := u32 session ++ u32 s.strokeNo ++ u32 ((s.period - (us + 24)) * 100) ++ u8 (s.fld Reg.RAD_STAT 16 8) ++ u8 0
    ++ u16 (s.fld Reg.RAD_HOPCTRL 0 16) ++ channelBytes s.hopset
  let inner := Frame.bytes { seat := n, type := 0x71, tag := jcount % 65536, catchNo := s.strokeNo % 65536, flags := 0, payload := payload }
  s.transmit (airTail .joinGrant (s.seatKey n) (airNonce .joinGrant n session s.strokeNo (jcount % 65536) 0) [] n 0 inner)

/-! Synthesizer (R216, R217) -/

/-- RADIO_RETUNE: at catch − 150 us, where the join window ends, toward the next stroke's data channel, with the hop set in force then. -/
def doRadioRetune (s : State) : State :=
  if !s.radOn then s
  else
    let n := (s.strokeNo + 1) % 2 ^ 32
    let sw := s.fld Reg.RAD_HOPCTRL 0 16
    let ch := if s.bit Reg.RAD_CTRL 2 then s.fld Reg.RAD_CTRL 16 6 else if sw ≠ 0xFFFF ∧ sw = n % 65536 then s.newset (7 * n % 16) else s.dataChannel n
    ((s.setRad { s.rad with window := false }).radStat false true false).setFld Reg.RAD_STAT 8 6 ch

def execRadioRetune (s : State) := done (doRadioRetune s)

/-- A calibration: its reason (1 watch, 2 temperature, 3 lock loss, 4 command), the die temperature kept (R216, 0x0903). -/
def State.calibrate (s : State) (reason : Nat) : State :=
  let die := signed 16 (s.fld Reg.AGR_C_DIE 0 16)
  let s := (s.radStat false false true).wrN Reg.RAD_CALSTAT (s.fld Reg.AGR_C_DIE 0 16)
  let s := (s.setRad { s.rad with calNow := false, calTemp := false, window := false }).setBit Reg.RAD_IRQ 5 true
  s.logS 0x0903 (u8 reason ++ s16 die)

/-- CALIBRATE_NOW. -/
def doCalibrateNow (s : State) : State := s.setRad { s.rad with calNow := true }

def execCalibrateNow (s : State) := done (s.byRequester (doCalibrateNow s))

/-- LOCK_LOSS: the radio retunes at once. -/
def doLockLoss (s : State) : State := if s.radOn ∧ s.radLocked then (s.radStat false true false).setBit Reg.RAD_IRQ 4 true else s

def execLockLoss (s : State) := done (doLockLoss s)

/-- LOCK_TIMEOUT: no lock within 120 us of the retune. -/
def doLockTimeout (s : State) : State := if s.radOn ∧ s.bit Reg.RAD_STAT 1 then s.calibrate 3 else s

def execLockTimeout (s : State) := done (doLockTimeout s)

/-! Slots (R211 to R214) -/

/-- The slots of a stroke (R211). -/
def State.slotsOf (s : State) : Nat := (s.gather - 100) / 250

/-- The slots a transaction occupies (R213). -/
def State.txSlots (s : State) (t : Nat) : Nat := (10 + 4 * (26 + s.hd t 6 1) + 40 + 4 * (26 + s.hd t 7 1) + 249) / 250

/-- The class of a retry, between the heat-phase reads and the catch-up reads (R214). -/
abbrev retryClass : Nat := 4

/-- The order of the classes on the radio (R214): reads, retries, catch-up reads, control, bulk. -/
def radioOrder : List Nat := [0, retryClass, 1, 2, 3]

/-- The next radio transaction that ends by the gather deadline when started in a slot; a broadcast is never sent (R213, R214). -/
def State.pickRadio (s : State) (slot : Nat) : Option Nat :=
  let ok := s.rad.queue.filter (fun e => decide (slot + s.txSlots e.1 ≤ s.slotsOf) && decide (s.hd e.1 2 1 ≠ 0xFF))
  (radioOrder.findSome? (fun c => ok.find? (fun e => decide (e.2 = c)))).map (fun e => e.1)

/-- An attempt is sent in a slot: TRY and the channel's use are counted. -/
def State.sendRadio (s : State) (t slot : Nat) : State :=
  let s := if s.hd t 0 1 = txQueued then s.setHd t 0 1 txFlight else s
  let s := (s.setHd t 0x17 1 (s.hd t 0x17 1 + 1)).sendRequest t (s.hd t 0x17 1)
  let s := s.setRad { s.rad with queue := s.rad.queue.filter (fun e => decide (e.1 ≠ t)), fly := some t, busyTo := slot + s.txSlots t, waiting := none }
  (s.incSat (Reg.RAD_CHSTAT (s.fld Reg.RAD_STAT 8 6)) 0 16 1).showTx

/-- BEACON: sent in slot 0 when the synthesizer is locked, else it waits for lock. -/
def doBeacon (s : State) : State :=
  if !s.radOn ∨ !s.bit Reg.RAD_CTRL 1 ∨ s.bit Reg.RAD_CTRL 2 then s
  else if s.radLocked then s.sendBeacon 100
  else s.setRad { s.rad with waiting := some 0 }

def execBeacon (s : State) := done (doBeacon s)

/-- RADIO_SLOT: from slot 2 on, one transaction at a time (R211, R213, R214). -/
def doRadioSlot (s : State) (slot : Nat) : State :=
  if !s.radOn ∨ s.bit Reg.RAD_CTRL 2 ∨ slot < 2 ∨ s.slotsOf ≤ slot ∨ s.rad.fly.isSome ∨ slot < s.rad.busyTo then s
  else
    match s.pickRadio slot with
    | none => s
    | some t => if s.radLocked then s.sendRadio t slot else s.setRad { s.rad with waiting := some slot }

def execRadioSlot (slot : Nat) (s : State) := done (doRadioSlot s slot)

/-- The time on air of a transaction from its request's start to its response's end [us] (R213). -/
def State.airTime (s : State) (t : Nat) : Nat := 4 * (26 + s.hd t 6 1) + 40 + 4 * (26 + s.hd t 7 1)

/-- Whether a transaction sent at a time runs past the last of the slots it has from a slot on (R217). -/
def State.overruns (s : State) (t slot us : Nat) : Bool := decide (100 + 250 * (slot + s.txSlots t) < us + s.airTime t)

/-- LOCK_ACQUIRED: a frame that waits in its slot is sent at lock; a transaction that would run past its last slot takes one slot more (R217). -/
def doLockAcquired (s : State) (us : Nat) : State :=
  if !s.radOn then s
  else
    let s := s.radStat true false false
    match s.rad.waiting with
    | none => s
    | some 0 => s.sendBeacon us
    | some slot =>
      match s.pickRadio slot with
      | some t =>
        let s := s.sendRadio t slot
        if s.overruns t slot us then s.setRad { s.rad with busyTo := s.rad.busyTo + 1 } else s
      | none => s.setRad { s.rad with waiting := none }

def execLockAcquired (us : Nat) (s : State) := done (doLockAcquired s us)

/-- SLOT_FORFEIT: no lock by slot start + 80 us; it is no attempt (R217). -/
def doSlotForfeit (s : State) (slot lockDelayUs : Nat) : State :=
  if s.rad.waiting ≠ some slot then s
  else
    let t := (s.pickRadio slot).getD 0
    let s := (s.setRad { s.rad with waiting := none }).setBit Reg.RAD_IRQ 1 true
    if slot = 0 then (s.incSat Reg.RAD_CNTFORFEIT 16 16 1).logS 0x0901 (u32 s.strokeNo ++ u32 lockDelayUs)
    else (s.incSat Reg.RAD_CNTFORFEIT 0 16 1).logS 0x0902 (u8 slot ++ u16 t)

def execSlotForfeit (slot lockDelayUs : Nat) (s : State) := done (doSlotForfeit s slot lockDelayUs)

/-- RADIO_SUBMIT: as CHAIN_SUBMIT, on the radio path (R203). -/
def doRadioSubmit (s : State) (tag cls : Nat) : State :=
  if s.txState tag ≠ txQueued then s.incSat Reg.TXT_BADSUB 0 16 1
  else (s.setRad { s.rad with queue := s.rad.queue ++ [(tag % 32768, cls % 4)] }).showTx

def execRadioSubmit (tag cls : Nat) (s : State) := done (s.byRequester (doRadioSubmit s tag cls))

/-- The radio path of a tag ends with a status. -/
def State.radioEnd (s : State) (t st : Nat) : State :=
  ((s.setHd t 0x16 1 st).setRad { s.rad with fly := if s.rad.fly = some t then none else s.rad.fly, queue := s.rad.queue.filter (fun e => decide (e.1 ≠ t)) }).pathEnded t true

/-- The first slot that starts at or after a time and after the transactions under way. -/
def State.nextSlot (s : State) : Nat := max ((s.us + 249 - 100) / 250) s.rad.busyTo

/-- The last answer of a tag on the radio that its attempts leave, for the comparison. -/
def State.keepRgot (s : State) (t : Nat) (f : Option Frame) : State :=
  s.setChn { s.chn with rgot := s.chn.rgot.filter (fun (g : Nat × Frame) => decide (g.1 ≠ t)) ++ (match f with | some f => [(t, f)] | none => []) }

/-- A radio path ended by an answer: its time, length and data (R203). -/
def State.fillRadio (s : State) (t us : Nat) (f : Frame) : State :=
  let s := ((s.keepRgot t (some f)).setHd t 0x12 2 us).setHd t 0x19 1 f.payload.length
  let n := dataCount (s.hd t 7 1)
  if s.hd t 0xE 2 = 0xFFFF then s else s.wrBytes (txAddr (s.hd t 0xE 2 + n)) (f.payload.take (32 * n))

/-- A failed radio attempt: a retry in the next free slots while rad.retry admits one, at most twice, else the path ends with the status and, after NAK 0x04, the NAK (R214). -/
def State.radioFail (s : State) (t st : Nat) (nak : Option (Nat × Frame)) : State :=
  if s.hd t 0x17 1 ≤ min 2 (s.parI .radRetry) ∧ s.nextSlot + s.txSlots t ≤ s.slotsOf then
    let s := (s.keepRgot t none).setHd t 0x16 1 st
    s.setRad { s.rad with fly := none, queue := s.rad.queue ++ [(t, retryClass)] }
  else match nak with
    | some (us, f) => (s.fillRadio t us f).radioEnd t st
    | none => (s.keepRgot t none).radioEnd t st

/-- RADIO_SYNCED: a seat's first good radio response takes it out of the join buffer (R219). -/
def State.synced (s : State) (n : Nat) : State :=
  let s := s.updSeat n (fun x => { x with radioOk := true })
  match s.rad.joins.find? (fun j => decide (j.1 = n)) with
  | some (_, idx, _) =>
    if s.rad.granted.contains n then
      let s := s.setRad { s.rad with joins := s.rad.joins.filter (fun j => decide (j.1 ≠ n)), granted := s.rad.granted.filter (fun g => decide (g ≠ n)) }
      (s.setFld Reg.RAD_JOINSTAT 0 9 s.rad.joins.length).logS 0x0905 (u8 n ++ u8 idx)
    else s
  | none => s

/-- What the radio makes of the fields after ACCESS while it awaits the response to a tag: the nonce is that of the attempt, under the seat's key (R209, R210). -/
def State.openAir (s : State) (t : Nat) (air : List Byte) : AirGot :=
  let n := s.hd t 2 1
  recvAir .response (s.seatKey n) (airNonce .response n (s.rdN Reg.RAD_SESSION) s.strokeNo t (s.hd t 0x17 1 - 1)) air

/-- RADIO_RESPONSE: the fields after ACCESS, ending at a time: CRC, then MIC, then SEAT, TAG and TYPE (R207, R209, R213, R214, R222). Without a transaction in flight there is no nonce to open a frame with, and it is discarded. (DEDUCED, log entry 93) -/
def doRadioResponse (s : State) (air : List Byte) (us : Nat) : State :=
  let s := s.atUs us
  match s.rad.fly with
  | none => s
  | some t =>
    let ch := s.fld Reg.RAD_STAT 8 6
    match s.openAir t air with
    | .crc => ((s.incSat Reg.RAD_CNTCRC 0 16 1).mapAttempt ch true).radioFail t 3 none
    | .mic => ((s.incSat Reg.RAD_CNTMIC 0 16 1).mapAttempt ch true).radioFail t 3 none
    | .good f =>
      let s := s.mapAttempt ch false
      if !s.answers t (s.hd t 2 1) f ∨ !f.flag flagRsp then s.radioFail t 3 none
      else
        let s := s.synced f.seat
        if nakRetried f then (s.noteNak t f).radioFail t 4 (some (us, f))
        else if isNak f then ((s.noteNak t f).fillRadio t us f).radioEnd t 4
        else (s.fillRadio t us f).radioEnd t 1

def execRadioResponse (air : List Byte) (us : Nat) (s : State) := done (doRadioResponse s air us)

/-- RADIO_TIMEOUT (R213). -/
def doRadioTimeout (s : State) (us : Nat) : State :=
  let s := s.atUs us
  match s.rad.fly with
  | none => s
  | some t => ((s.incSat Reg.RAD_CNTTMO 0 16 1).mapAttempt (s.fld Reg.RAD_STAT 8 6) true).radioFail t 2 none

def execRadioTimeout (us : Nat) (s : State) := done (doRadioTimeout s us)

/-! Join (R219) -/

/-- The fields of a JOIN_REQ that stand in clear (Table 9-1): KIND, the claimed seat, SERIAL and JCOUNT. -/
structure JoinReq where
  kind : Nat
  seat : Nat
  serial : Nat
  jcount : Nat
  deriving DecidableEq, Repr

def joinReq (air : List Byte) : JoinReq :=
  { kind := leNat (air.take 1), seat := leNat ((air.drop 1).take 1), serial := leNat ((air.drop 4).take 8), jcount := leNat ((air.drop 12).take 4) }

/-- Whether a JOIN_REQ passes its CRC and its MIC under the claimed seat's key (R219, Table 9-2). -/
def State.joinGenuine (s : State) (air : List Byte) : Bool :=
  let q := joinReq air
  s.nv.rad.seats.any (fun k => decide (k.1 = q.seat)) &&
    (match recvAir .joinRequest (s.seatKey q.seat) (airNonce .joinRequest q.seat 0xFFFFFFFF q.jcount 0 0) air with
     | .good f => decide (f.type = 0x70)
     | _ => false)

/-- The radio listens on the join channel: in the stake-boat interval, and in a join window (R129, R216). -/
def State.listens (s : State) : Bool := s.radOn && (s.bit Reg.RAD_CTRL 2 || s.rad.window)

/-- An accepted join request enters the buffer with the next index; a repeat keeps its index, and a request beyond 256 is dropped (R129, R219). -/
def State.bufferJoin (s : State) (seat jcount : Nat) : State :=
  let s : State := { s with nv := { s.nv with rad := { s.nv.rad with jcounts := Tab.put 0 s.nv.rad.jcounts seat jcount } } }
  let r := s.rad
  if r.joins.any (fun j => decide (j.1 = seat)) then
    s.setRad { r with joins := r.joins.map (fun j => if j.1 = seat then (j.1, j.2.1, jcount) else j), granted := r.granted.filter (fun g => decide (g ≠ seat)) }
  else if 256 ≤ r.joins.length then s.incSat Reg.RAD_JOINSTAT 16 16 1
  else
    let s := s.setRad { r with joins := r.joins ++ [(seat, r.joinNext, jcount)], joinNext := r.joinNext + 1 }
    let s := (s.setFld Reg.RAD_JOINSTAT 0 9 s.rad.joins.length).setBit Reg.RAD_IRQ 2 true
    if s.rdN Reg.RAD_JOINRD = 0 then s.wrN Reg.RAD_JOINRD (seat + r.joinNext % 256 * 256 + 2 ^ 31) else s

/-- A refused join request is counted, and logged once per watch and seat (R219); the codes of its reason are not stated (DESIGN CHOICE, log entry 1). -/
def State.refuseJoin (s : State) (seat serial why : Nat) : State :=
  let s := (s.incSat Reg.RAD_CNTUNPAIRED 0 16 1).setBit Reg.RAD_IRQ 3 true
  if s.rad.refused.contains seat then s
  else (s.setRad { s.rad with refused := s.rad.refused ++ [seat] }).logS 0x0906 (u8 seat ++ u32 (serial % 2 ^ 32) ++ u8 (Config.freeOf 906 why % 256))

/-- JOIN_REQUEST: the fields after ACCESS; accepted into the buffer, or dropped and counted (R219). -/
def doJoinRequest (s : State) (air : List Byte) : State :=
  let q := joinReq air
  if !s.listens ∨ q.kind ≠ 3 then s
  else if !s.joinGenuine air then s.refuseJoin q.seat q.serial 1
  else if s.serialOf q.seat ≠ some q.serial then s.refuseJoin q.seat q.serial 2
  else if q.jcount ≤ Tab.get 0 s.nv.rad.jcounts q.seat then s.refuseJoin q.seat q.serial 3
  else s.bufferJoin q.seat q.jcount

def execJoinRequest (air : List Byte) (s : State) := done (doJoinRequest s air)

/-- GRANT_QUEUE: a write of RAD.GRANT. -/
def doGrantQueue (s : State) (seat : Nat) : State := s.setRad { s.rad with grants := s.rad.grants ++ [seat % 256] }

def execGrantQueue (seat : Nat) (s : State) := done (s.byRequester (doGrantQueue s seat))

/-- The JCOUNT that a grant to a seat answers. -/
def State.jcountOf (s : State) (n : Nat) : Nat := ((s.rad.joins.find? (fun j => decide (j.1 = n))).map (fun j => j.2.2)).getD (Tab.get 0 s.nv.rad.jcounts n)

/-- The join window: the radio turns to the join channel and sends the grants in index order, each of 232 us ending within the window, one after the other from its start; for the rest it listens (R216, R219). (DEDUCED, log entry 95) -/
def State.joinWindow (s : State) : State :=
  let n := (s.period - s.gather - 300) / 232
  let due := (s.rad.joins.map (fun j => j.1)).filter (fun g => !s.rad.granted.contains g)
  let all := s.rad.grants ++ (if s.cam.state = .stake then [] else due.filter (fun g => !s.rad.grants.contains g))
  let sent := all.take n
  let s := (s.radStat false true false).setFld Reg.RAD_STAT 8 6 (s.fld Reg.RAD_CTRL 16 6)
  let s := s.setRad { s.rad with window := true, granted := s.rad.granted ++ sent.filter (fun g => !s.rad.granted.contains g), grants := s.rad.grants.drop (min n s.rad.grants.length) }
  ((List.range sent.length).zip sent).foldl (fun s (e : Nat × Nat) => s.sendGrant e.2 (s.jcountOf e.2) (s.gather + 150 + 232 * e.1)) s

/-- The quiet region: a due calibration from the gather deadline, else the join window (R216). -/
def State.radioQuiet (s : State) : State :=
  if !s.radOn then s
  else
    let die := signed 16 (s.fld Reg.AGR_C_DIE 0 16)
    let moved := decide (1000 ≤ (die - signed 16 (s.fld Reg.RAD_CALSTAT 0 16)).natAbs)
    let due := if s.wph = 1 then 1 else if s.rad.calTemp then 2 else if s.rad.calNow then 4 else 0
    let s := s.setRad { s.rad with busyTo := 0, waiting := none, calTemp := moved && due == 0 }
    if due ≠ 0 then s.calibrate due
    else if s.bit Reg.RAD_CTRL 3 then s.joinWindow else s

/-! Keys (R221, R405) -/

/-- KEY_ACTIVATION: at ACTCATCH the new key is committed, code 0x0908. -/
def State.keyCatch (s : State) : State :=
  let dueNow := s.rad.pairs.filter (fun p => decide (p.act = some s.strokeNo))
  dueNow.foldl (fun s p =>
    let r := s.nv.rad
    let s : State := { s with nv := { s.nv with rad := { r with seats := (r.seats.filter (fun k => decide (k.1 ≠ p.seat))) ++ [(p.seat, p.keyId, p.key)], changed := r.changed.filter (fun n => decide (n ≠ p.seat)) } } }
    let s := s.setRad { s.rad with pairs := s.rad.pairs.filter (fun q => decide (q.seat ≠ p.seat)) }
    (s.logS 0x0908 (u8 p.seat ++ u8 p.keyId)).pairReply p true false) s

/-- Whether a seat may be paired: in COMMISSIONING any, in SERVICE one whose serial was changed there; always with a matching IDENT (R220). -/
def State.mayPair (s : State) (n : Nat) : Bool :=
  let x := s.seat n
  (decide (s.lcs = lcsCommissioning) || (decide (s.lcs = lcsService) && s.nv.rad.changed.contains n))
    && x.enumd && !x.lost && decide (s.serialOf n = some x.serial)

/-- At the first pairing after an entry into COMMISSIONING Camlan draws the access word and the network key, code 0x1307 (R405). -/
def State.ensureNetwork (s : State) : State :=
  if s.nv.rad.netKey ≠ [] then s
  else
    let (a, s) := s.free
    let (f, s) := s.free
    let key := (List.range 16).map (fun i => byteOf (Config.freeOf f i))
    let s : State := { s with nv := { s.nv with rad := { s.nv.rad with netKey := key, access := a % 2 ^ 32 } } }
    (s.wrN Reg.RAD_ACCESS a).logS 0x1307 (u16 (a % 65536))

/-- `pair` of one seat: KEY_LOAD when permitted, else refused with code 0x0909 (R220); `rad.mod_txpwr` is applied at a pairing (Table 9-8). -/
def State.pairOne (s : State) (asker : Origin) (more : Bool) (n : Nat) : State :=
  if !s.mayPair n then
    let reason := Config.freeOf 909 (if s.lcs ≠ lcsCommissioning ∧ !(s.lcs = lcsService ∧ s.nv.rad.changed.contains n) then 1 else 2) % 256
    (s.logS 0x0909 (u8 n ++ u8 reason)).pairReply ⟨n, 0, [], none, asker⟩ false more
  else
    let s := (s.applyAt .pairing).ensureNetwork
    let old := ((s.nv.rad.seats.find? (fun k => decide (k.1 = n))).map (fun k => k.2.1)).getD 0
    s.keyLoad n ((old + 1) % 256) asker

end Sys2Proof.Machine
end

