-- ==== Sys2Proof/Machine/Estimation.lean ====
section
/-!
DEFINITION. State estimation, learning, the restore record, protective limits, warnings, hibernation and surge tickets (12), and the ages of seats (R200, R225 to R227).
-/

namespace Sys2Proof.Machine

def State.setEst (s : State) (e : EstSt) : State := { s with est := e }

def State.strEst (s : State) (i : Nat) : StrEst := Tab.get StrEst.init s.est.strs i

def State.updStrEst (s : State) (i : Nat) (f : StrEst → StrEst) : State :=
  s.setEst { s.est with strs := Tab.put StrEst.init s.est.strs i (f (s.strEst i)) }

/-! Shares (R269, R273) -/

/-- The configured strings that are closed. -/
def State.closedStrings (s : State) : List Nat := s.strings.filter (fun i => (s.str i).st == 4)

/-- G_s = 1 / R_s; 0 for a string without a resistance. -/
def State.condOf (s : State) (i : Nat) : Rat := if s.strRes i ≤ 0 then 0 else 1 / s.strRes i

/-- The share G_s / ΣG of a closed string; equal shares when no closed string has a resistance (DESIGN CHOICE, log entry 30). -/
def State.shareOf (s : State) (i : Nat) : Rat :=
  let l := s.closedStrings
  let g := (l.map s.condOf).foldl (· + ·) 0
  if !l.contains i then 0 else if g = 0 then 1 / (l.length : Rat) else s.condOf i / g

/-- The current of a string in the ended stroke [mA] (R269). -/
def State.strCur (s : State) (i : Nat) : Rat := (s.meas.cur : Rat) * s.shareOf i

/-- The cells of a string with their seat's temperature. -/
def State.strCells (s : State) (i : Nat) : List (CellEst × Int) :=
  (s.strSeats i).flatMap (fun n => (s.seat n).est.map (fun c => (c, (s.seat n).tempOf)))

/-- The least of a list of numbers, `d` for an empty list. -/
def minRat (d : Rat) : List Rat → Rat
  | [] => d
  | x :: t => t.foldl min x

def maxRat (d : Rat) : List Rat → Rat
  | [] => d
  | x :: t => t.foldl max x

/-- A string's capacity [mAh]: the smallest of its cells, the rated one without cells (R273). -/
def State.strCap (s : State) (i : Nat) : Rat := minRat (s.capMah i : Rat) ((s.strCells i).map (fun c => c.1.cap))

/-- I_load of a string [mA]: its discharge current averaged over est.load_win, 0 while it charges (R272; DEDUCED, log entry 31). -/
def State.loadCur (s : State) (i : Nat) : Rat :=
  let e := s.strEst i
  if 0 < e.last ∨ e.load = [] then 0 else max 0 (-((e.load.map (fun x => x.2)).foldl (· + ·) 0 / (e.load.length : Rat)))

/-- The reported SOC of a cell [percent] (R272); where SOC_0 reaches 100 % the manual gives no value (DESIGN CHOICE, log entry 1). -/
def State.socRep (s : State) (i : Nat) (c : CellEst) (t : Int) : Rat :=
  let s0 := s.socAt i ((s.vshut i : Rat) + s.loadCur i * c.res / 100000) t
  if s0 = 100 then (Config.freeOf 950 i % 10001 : Nat) / 100 else max 0 (min 100 (100 * (c.soc - s0) / (100 - s0)))

/-- A string's SOC [percent] (R273), none without cells. -/
def State.strSoc (s : State) (i : Nat) : Option Rat :=
  match (s.strCells i).map (fun c => s.socRep i c.1 c.2) with
  | [] => none
  | l =>
    let lo := minRat 0 l
    let hi := maxRat 0 l
    if lo + 100 - hi = 0 then some ((Config.freeOf 951 i % 10001 : Nat) / 100) else some (lo / (lo + 100 - hi) * 100)

/-- A string's SOH [percent]: its capacity over the rated one (R273). -/
def State.strSoh (s : State) (i : Nat) : Rat := if s.capMah i = 0 then 0 else s.strCap i / (s.capMah i : Rat) * 100

/-- The battery SOC [percent]: the mean over the configured strings, weighted by capacity (R273); free while no string has a cell (DESIGN CHOICE, log entry 1). -/
def State.batSoc (s : State) : Rat :=
  let l := s.strings.filterMap (fun i => (s.strSoc i).map (fun x => (x, s.strCap i)))
  let w := (l.map (fun e => e.2)).foldl (· + ·) 0
  if w = 0 then (Config.freeOf 952 0 % 10001 : Nat) / 100 else (l.map (fun e => e.1 * e.2)).foldl (· + ·) 0 / w

/-- The battery's SOH [percent], weighted as its SOC (DEDUCED, log entry 32). -/
def State.batSoh (s : State) : Rat :=
  let w := (s.strings.map s.strCap).foldl (· + ·) 0
  if w = 0 then 0 else (s.strings.map (fun i => s.strSoh i * s.strCap i)).foldl (· + ·) 0 / w

/-! Ages (R200, R225 to R227) -/

/-- The age of a seat in strokes: from the CATCH of its newest used data, without data from the first catch of the run (R96, R192, R200). -/
def State.ageStrokes (s : State) (n : Nat) : Nat := (s.strokeNo + 65536 - ((s.seat n).used.getD s.est.runStart) % 65536) % 65536

def State.ageHeats (s : State) (n : Nat) : Nat := s.ageStrokes n / s.heat

/-- AGED, BLIND and the OPEN of twelve heats for one seat at a finish. -/
def State.ageSeat (s : State) (n : Nat) : State :=
  let a := s.ageHeats n
  let x := s.seat n
  let i := s.seatString n
  let s := if decide (2 ≤ a) && !x.aged then s.logS 0x090C (u8 n ++ u8 (min a 255)) else s
  let s := if decide (4 ≤ a) && !x.blind then (s.logS 0x090D (u8 n ++ u8 i)).updStrEst i (fun e => { e with blindHold := true }) else s
  let s := if decide (a < 4) && x.blind then s.logS 0x0910 (u8 n ++ u8 i) else s
  let s := if decide (12 ≤ a) && !x.opened && decide (i < 4) then (s.logS 0x090E (u8 i ++ u8 n)).protectOpen i else s
  s.updSeat n (fun y => { y with
    aged := decide (2 ≤ a), blind := decide (4 ≤ a), opened := decide (12 ≤ a) && (y.opened || decide (i < 4)),
    est := if 2 ≤ a ∨ y.unproven = true then y.est.map (fun c => { c with r1 := none }) else y.est })

/-- At each finish every seat of the read set that has a string is judged, since no data of another is used (R192; DEDUCED, log entry 154); a string's zero limits lift when no seat of it is blind, proving or UNPROVEN (R227). -/
def State.ageFinish (s : State) : State :=
  let s := (s.readSet.filter s.named).foldl State.ageSeat s
  s.strings.foldl (fun s i => if s.strSeatsReady i then s.updStrEst i (fun e => { e with blindHold := false }) else s) s

/-! Counting at a catch (R269, R270, R271) -/

/-- The snapshots of this catch: the charge counted in the ended stroke, and the first snapshot of the run. `old` is the snapshot before. -/
def State.noteSnap (s : State) (old : Option Int) : State :=
  s.setEst { s.est with
    dq := match old, s.meas.snap with
      | some a, some b => some (b - a)
      | _, _ => none,
    first := match s.est.first with
      | some f => some f
      | none => s.meas.snap }

/-- One cell of string i counts the ended stroke (R270); a CCA overflow interrupts learning (R274). -/
def State.countCell (s : State) (i : Nat) (dq : Int) (bal : Bool) (c : CellEst) : CellEst :=
  let q : Rat := if s.rshunt ≤ 0 then 0 else (dq : Rat) / s.rshunt * s.shareOf i * 10 / 36
  let qb : Rat := if bal then (s.parN .estBalI : Rat) / 1000 * (s.period : Rat) / 1000000 / 3600 else 0
  let d := q - qb
  let pc := if c.cap = 0 then 0 else 100 * d / c.cap
  let r1 := if s.bit Reg.CCA_STAT 8 then none else c.r1.map (fun r => (r.1, r.2 + d))
  { c with soc := max (-10) (min 110 (c.soc + pc)), counted := c.counted + pc, r1 := r1 }

/-- Every cell of the configured strings counts (R270). -/
def State.countStroke (s : State) : State :=
  match s.est.dq with
  | none => s
  | some dq =>
    s.readSet.foldl (fun s n =>
      let i := s.seatString n
      let x := s.seat n
      if i < 4 then
        s.setSeat n { x with est := ((List.range x.est.length).zip x.est).map (fun e => s.countCell i dq (getField x.bal e.1 1 == 1) e.2) }
      else s) s

/-- The FCS extremes of the ended stroke lie within 5 % of its mean (R275). -/
def State.flatStroke (s : State) : Bool :=
  let mean : Rat := (signed 20 (s.fld Reg.FCS_SMEAN 0 20) : Rat) / 16
  let lo : Rat := (signed 12 (s.fld Reg.FCS_SMINMAX 0 12) : Rat)
  let hi : Rat := (signed 12 (s.fld Reg.FCS_SMINMAX 16 12) : Rat)
  let a := if mean < 0 then -mean else mean
  decide (mean - lo ≤ a * 5 / 100) && decide (hi - mean ≤ a * 5 / 100)

/-- `est.rest_i`, `est.r_di` and `est.wake_i` [mA] with their derived defaults. -/
def State.restI (s : State) : Rat := ((s.parN? .estRestI).map (fun (v : Int) => (v : Rat))).getD ((s.capBat : Rat) / 100)
def State.stepI (s : State) (i : Nat) : Rat := ((s.parN? .estRDi).map (fun (v : Int) => (v : Rat))).getD ((s.capMah i : Rat) / 5)
def State.wakeI (s : State) : Rat := ((s.parN? .estWakeI).map (fun (v : Int) => (v : Rat))).getD ((s.capBat : Rat) / 50)

def absRat (x : Rat) : Rat := if x < 0 then -x else x

/-- Every cell of a string has changed by less than 1 mV over the last five minutes (R271). -/
def State.cellsCalm (s : State) (i : Nat) : Bool :=
  (s.strSeats i).all (fun n =>
    let h := (s.seat n).vHist
    (List.range (s.seat n).cells).all (fun c =>
      let l := h.map (fun e => e.2.getD c 0)
      match l with
      | [] => true
      | v :: t => decide (t.foldl max v < t.foldl min v + 10)))

/-- A current step between the two last strokes starts the reads of both catches on every seat of the string (R275). -/
def State.stepStart (s : State) (i : Nat) (cur : Rat) (flat closed : Bool) : State :=
  let e := s.strEst i
  let n := (s.strokeNo + 2 ^ 32 - 1) % 2 ^ 32
  if closed && e.closed && flat && e.flat && decide (s.stepI i ≤ absRat (cur - e.last)) then
    let add := (s.strSeats i).map (fun k => ({ seat := k, stroke := n, dI := cur - e.last, vPrev := none, vNow := none } : StepEst))
    let reads := (s.strSeats i).flatMap (fun k => [(k, (n + 2 ^ 32 - 1) % 2 ^ 32), (k, n)])
    let s := s.setEst { s.est with steps := s.est.steps ++ add }
    s.setChn { s.chn with catchup := (s.chn.catchup.filter (fun x => !reads.contains x)) ++ reads }
  else s

/-- One string at a catch: rest, load window, current step. -/
def State.strCatch (s : State) (i : Nat) : State :=
  let shut := (s.str i).st == 4
  let closed := shut && (s.strEst i).shut
  let cur := s.strCur i
  let flat := s.flatStroke
  let s := s.stepStart i cur flat closed
  let calm := decide (absRat cur < s.restI ∨ !shut) && s.cellsCalm i
  let win := s.parI .estLoadWin * 1000000
  let now := s.clock
  s.updStrEst i (fun e => { e with
    restSince := if calm then (match e.restSince with | some t => some t | none => some now) else none,
    restLogged := calm && e.restLogged,
    load := (e.load.filter (fun x => decide (now < x.1 + win))) ++ [(now, cur)],
    last := cur, flat := flat, closed := closed, shut := shut })

/-- The samples around a step give each cell's resistance (R275); steps the modules no longer hold are dropped (R186). -/
def State.stepLearn (s : State) (e : StepEst) : State :=
  let i := s.seatString e.seat
  let x := s.seat e.seat
  match e.vPrev, e.vNow with
  | some a, some b =>
    let t := x.tempOf
    let rd := s.rdef i t
    let step (k : Nat) (c : CellEst) : CellEst × Bool :=
      let r : Rat := (((b.getD k 0 : Int) - (a.getD k 0 : Int) : Int) : Rat) * 100000 / e.dI
      if rd / 5 ≤ r ∧ r ≤ 5 * rd then ({ c with res := c.res + (r - c.res) / 8, resL := true, resSwap := true }, true) else (c, false)
    if x.unproven ∨ 0 < x.proving ∨ x.faulty then s
    else
      let l := ((List.range x.est.length).zip x.est).map (fun k => step k.1 k.2)
      let n := (l.filter (fun k => k.2)).length
      (s.setSeat e.seat { x with est := l.map (fun k => k.1), resN := min 65535 (x.resN + n) }).updStrEst i (fun y => { y with updated := y.updated + n })
  | _, _ => s

/-- STALE_LEARNED clears once every cell had both updates since the swap (R280). -/
def State.staleClear (s : State) (n : Nat) : State :=
  let x := s.seat n
  if x.stale && !x.est.isEmpty && x.est.all (fun c => c.capSwap && c.resSwap) then (s.setSeat n { x with stale := false }).logS 0x0C12 (u8 n ++ u8 0) else s

/-- Every awaited step at a catch. -/
def State.stepsCatch (s : State) : State :=
  let l := s.est.steps
  let ready := l.filter (fun e => e.vPrev.isSome && e.vNow.isSome)
  let waiting := l.filter (fun e => !(e.vPrev.isSome && e.vNow.isSome) && decide ((s.strokeNo + 2 ^ 32 - e.stroke) % 2 ^ 32 < 16))
  let s := ready.foldl State.stepLearn (s.setEst { s.est with steps := waiting })
  ready.foldl (fun s e => s.staleClear e.seat) s

/-- The backup battery counts its current once its SOC is known (R281). -/
def State.kbatCount (s : State) : State :=
  let cap := s.parI .kpaKbatCap
  match s.kpa.soc with
  | none => s
  | some x =>
    let q : Rat := (signed 16 (s.fld Reg.KPA_MEAS2 16 16) : Rat) * (s.period : Rat) / 3600000000
    s.setKpa { s.kpa with soc := some (if cap = 0 then x else max 0 (min 100 (x + 100 * q / (cap : Rat)))) }

/-! Rest resync and capacity (R271, R274) -/

/-- Cap_new judged against 50 % and 120 % of est.s.cap (R274): the cell, and what is logged. (DEDUCED, log entry 98) -/
def State.capLearn (s : State) (i : Nat) (c : CellEst) (soc2 : Rat) : CellEst × Option (Rat × Bool) :=
  match c.r1 with
  | none => ({ c with r1 := some (soc2, 0) }, none)
  | some (soc1, q) =>
    let d := absRat (soc2 - soc1)
    if d < (s.parN .estCapDsoc : Rat) / 1000 ∨ d = 0 then (c, none)
    else
      let new := 100 * absRat q / d
      let rated := (s.capMah i : Rat)
      if rated / 2 ≤ new ∧ new ≤ rated * 12 / 10 then
        ({ c with cap := c.cap + (s.parN .estCapGain : Rat) / 1000 * (new - c.cap), capL := true, capSwap := true, r1 := some (soc2, 0) }, some (new, true))
      else ({ c with r1 := some (soc2, 0) }, some (new, false))

/-- One seat during rest: its cells resynchronize where the OCV is steep enough. -/
def State.resyncSeat (s : State) (i n : Nat) : State × Nat :=
  let x := s.seat n
  if x.used.isNone ∨ x.aged = true ∨ x.unproven = true ∨ 0 < x.proving then (s, 0)
  else
    let t := x.tempOf
    let curve := s.ocvCurve i t
    let go (k : Nat) (c : CellEst) : CellEst × Option (Rat × Bool) × Bool :=
      let soc := s.socAt i (x.cellV.getD k 0 : Rat) t
      if slopeAt curve soc * 100 < (s.parN .estOcvSlope : Rat) then (c, none, false)
      else
        let (c', l) := s.capLearn i c soc
        ({ c' with soc := soc, resync := true }, l, true)
    let l := ((List.range x.est.length).zip x.est).map (fun e => (e.1, go e.1 e.2))
    let acc := (l.filter (fun e => match e.2.2.1 with | some (_, ok) => ok | none => false)).length
    let s := s.setSeat n { x with est := l.map (fun e => e.2.1), capN := min 65535 (x.capN + acc) }
    let s := l.foldl (fun s e => match e.2.2.1 with
      | some (new, ok) => s.logS 0x0C02 (u8 n ++ u8 e.1 ++ u32 (roundRat (new / 10)).toNat ++ u8 (if ok then 1 else 0))
      | none => s) s
    (s.staleClear n, (l.filter (fun e => e.2.2.2)).length)

/-- Rest at a finish: the resync of a string, logged once per rest (R271). -/
def State.restFinish (s : State) (i : Nat) : State :=
  match (s.strEst i).restSince with
  | none => s
  | some t =>
    if s.clock < t + s.parI .estRestT * 60000000 then s
    else
      let (s, n) := (s.strSeats i).foldl (fun (a : State × Nat) k => let (s', m) := a.1.resyncSeat i k; (s', a.2 + m)) (s, 0)
      if 0 < n ∧ !(s.strEst i).restLogged then (s.updStrEst i (fun e => { e with restLogged := true })).logS 0x0C01 (u8 i ++ u32 n) else s

/-! Warnings and protective limits (R282, R283) -/

/-- The threshold of a warning level [percent]. -/
def State.warnAt (s : State) (l : Nat) : Rat := (s.parN (if l = 1 then .estWarn else if l = 2 then .estLow else .estFinal) : Rat) / 1000

/-- The level that a SOC gives, from the present one (Table 12-2). -/
def State.warnLevel (s : State) (soc : Rat) : Nat :=
  let on (l : Nat) : Bool := decide (soc ≤ s.warnAt l) || (decide (l ≤ s.est.warn) && decide (soc ≤ s.warnAt l + (s.parN .estWarnHyst : Rat) / 1000))
  if on 3 then 3 else if on 2 then 2 else if on 1 then 1 else 0

/-- The warning level at a finish: on a change the tenant event, the log and the notices (R283). -/
def State.warnFinish (s : State) : State :=
  let soc := s.batSoc
  let new := s.warnLevel soc
  let old := s.est.warn
  let s := s.setEst { s.est with soc := soc, warn := new }
  if new = old then s
  else
    let s := if new = 0 then s else s.setEvpAll (2 ^ (2 + new))
    let s := s.logS 0x0C20 (u8 old ++ u8 new ++ u32 (roundRat (soc * 100)).toNat)
    s.noticeAll ("warn level=" ++ (["none", "warn", "low", "final"].getD new "") ++ " soc=" ++ toString (roundRat (soc * 100)).toNat)

/-- W of Table 12-2, 1 while a ticket is active (R289). -/
def State.warnFactor (s : State) : Rat :=
  if s.est.ticket.isSome then 1
  else if s.est.warn = 2 then (s.parN .estLowW : Rat) / 1000
  else if s.est.warn = 3 then (s.parN .estFinalW : Rat) / 1000
  else 1

/-- The least CHGF or DISF over the temperatures of a string's cells (R282). -/
def State.worstFactor (s : State) (i : Nat) (f : State → Nat → Int → Rat) : Rat := minRat 0 ((s.strCells i).map (fun c => f s i c.2))

/-- A closed string's charge limit before the rules that make it zero [mA] (R282). -/
def State.protChg (s : State) (i : Nat) : Rat :=
  let cells := (s.strCells i).filterMap (fun c => if c.1.res ≤ 0 then none else some ((((s.vhi i : Rat) - s.ocv i c.1.soc c.2) * 100000) / c.1.res))
  if (s.strCells i).any (fun c => decide (3 ≤ c.1.hi)) then 0
  else max 0 (min (s.imaxChg i : Rat) (min (s.worstFactor i State.chgf / 100 * s.strCap i) (minRat (s.imaxChg i : Rat) cells)))

/-- A closed string's discharge limit with W = 1 [mA] (R282). -/
def State.protDis1 (s : State) (i : Nat) : Rat :=
  let cells := (s.strCells i).filterMap (fun c => if c.1.res ≤ 0 then none else some (((s.ocv i c.1.soc c.2 - (s.vshut i : Rat)) * 100000) / c.1.res))
  if (s.strCells i).any (fun c => decide (3 ≤ c.1.lo)) then 0
  else max 0 (min (s.imaxDis i : Rat) (min (s.worstFactor i State.disf / 100 * s.strCap i) (minRat (s.imaxDis i : Rat) cells)))

/-- The outputs held by break inhibit, by role: POS and PRE of a string hold that string, NEG the battery (R240). -/
def State.heldOf (s : State) (i : Nat) : Bool := ((s.posOf i).toList ++ (s.preOf i).toList).any (fun c => getField s.ctr.held c 1 == 1)
def State.heldShared (s : State) : Bool := (List.range 4).any (fun i => (s.negOf i).toList.any (fun c => getField s.ctr.held c 1 == 1))

/-- Zero limits of the battery: easy, an OCS trip, a held shared path, an isolator waiting (R54, R240, R241, R257). -/
def State.zeroBattery (s : State) : Bool := s.inEasy || s.ctr.ocsSeen || s.heldShared || (s.parS .mdiFitted == 1 && (s.mdi.st == mdiWaiting || s.mdi.waitSince.isSome))

/-- Zero limits of a string: the battery's in easy, a weld, a driver fault, a held output, a blind seat (R225, R230, R235, R240). -/
def State.zeroString (s : State) (i : Nat) : Bool :=
  s.inEasy || s.ctr.ocsSeen || (s.str i).st == 5 || (s.str i).coilFault || s.heldOf i || (s.strEst i).blindHold

/-- What the manual does not limit: the protective limit of a string that is not closed, and of the battery without a closed string (DESIGN CHOICE, log entry 33). -/
def openLimit (t : Nat) : Int := (Config.freeOf 940 t : Int)

/-- A string's protective limit [mA]. -/
def State.protStr (s : State) (dis : Bool) (i : Nat) : Int :=
  if s.zeroString i then 0
  else if (s.str i).st = 4 then (if dis then s.protDis1 i * s.warnFactor else s.protChg i).floor
  else openLimit ((if dis then 0x18 else 0x10) + i)

/-- The battery's protective limit [mA]: the smallest I_s,lim × ΣG / G_s over the closed strings (R282). -/
def State.protBat (s : State) (dis : Bool) : Int :=
  if s.zeroBattery then 0
  else
    match s.closedStrings with
    | [] => openLimit (if dis then 0x1C else 0x14)
    | l => (minRat 0 (l.map (fun i => if s.shareOf i = 0 then 0 else (s.protStr dis i : Rat) / s.shareOf i))).floor

/-- The protective and the applied limit of every target at a finish: the applied one is the lower of the protective and the ordered limit (R47). -/
def State.limitsFinish (s : State) : State :=
  let prot (t : Nat) : Int := if t % 8 = 4 then s.protBat (decide (0x18 ≤ t)) else s.protStr (decide (0x18 ≤ t)) (t % 8)
  let ts := limitTargets.filter (fun t => t % 8 = 4 ∨ s.strConf (t % 8))
  s.setEst { s.est with prot := ts.map (fun t => (t, prot t)), applied := ts.map (fun t => (t, max 0 (min (prot t) (s.standing t)))) }

/-- The applied limit of a target as last published [mA]. -/
def State.appliedLim (s : State) (t : Nat) : Int := ((s.est.applied.find? (fun e => decide (e.1 = t))).map (fun e => e.2)).getD 0

/-! Surge prediction (R287) -/

/-- A cell of the prediction: SOC [percent], percent per mA over the burst, mV-equivalent resistance [100 µV per mA], OCV curve. -/
structure BurstCell where
  soc : Rat
  k : Rat
  r : Rat
  curve : List (Rat × Rat)

/-- The end voltage of a cell [100 µV] at a burst current [mA]; `sg` is −1 for a discharge and 1 for a charge. -/
def BurstCell.vEnd (b : BurstCell) (sg i : Rat) : Rat := interp b.curve (b.soc + sg * b.k * i) + sg * i * b.r

/-- The currents at which a cell crosses a point of its curve. -/
def BurstCell.breaks (b : BurstCell) (sg : Rat) : List Rat := if b.k = 0 then [] else b.curve.map (fun p => sg * (p.1 - b.soc) / b.k)

/-- A list of numbers in ascending order. -/
def insRat (x : Rat) : List Rat → List Rat
  | [] => [x]
  | y :: t => if x ≤ y then x :: y :: t else y :: insRat x t

def sortRat (l : List Rat) : List Rat := l.foldr insRat []

/-- The largest I × V_end on one stretch of linear end voltages from a to b with sums va and vb. -/
def stretchMax (a b va vb : Rat) : Rat :=
  let ends := max (a * va) (b * vb)
  if b ≤ a then ends
  else
    let m := (vb - va) / (b - a)
    let v0 := va - m * a
    if m = 0 then ends
    else
      let x := -v0 / (2 * m)
      if a < x ∧ x < b then max ends (x * (v0 + m * x)) else ends

/-- The largest power [mA × 100 µV] a string carries up to the first current at which a cell passes its threshold, along rising currents. -/
def burstWalk (cells : List BurstCell) (sg thr : Rat) : Rat → List Rat → Rat
  | _, [] => 0
  | a, b :: rest =>
    let ok (v : Rat) : Bool := decide (0 ≤ sg * (thr - v))
    let sum (i : Rat) : Rat := (cells.map (fun c => c.vEnd sg i)).foldl (· + ·) 0
    if !cells.all (fun c => ok (c.vEnd sg a)) then 0
    else if cells.all (fun c => ok (c.vEnd sg b)) then max (stretchMax a b (sum a) (sum b)) (burstWalk cells sg thr b rest)
    else
      let cross (c : BurstCell) : Rat :=
        let va := c.vEnd sg a
        let vb := c.vEnd sg b
        if ok vb ∨ va = vb then b else a + (b - a) * (thr - va) / (vb - va)
      let e := minRat b (cells.map cross)
      stretchMax a e (sum a) (sum e)

/-- The cells of a string for a burst of a duration [s]. -/
def State.burstCells (s : State) (i dur : Nat) : List BurstCell :=
  (s.strCells i).map (fun c =>
    let cap : Rat := c.1.cap
    let k : Rat := if cap = 0 then 0 else (dur : Rat) / (36 * cap)
    (⟨c.1.soc, k, c.1.res * (s.parN .estSurgeRk : Rat) / 1000 / 100000, s.ocvCurve i c.2⟩ : BurstCell))

/-- The largest finishable magnitude of power [W] of the battery for a duration: each closed string's own, over its share. -/
def State.burstMax (s : State) (charge : Bool) (dur : Nat) : Rat :=
  let one (i : Nat) : Rat :=
    let sg : Rat := if charge then 1 else -1
    let m : Rat := (s.parN .estSurgeMargin : Rat) * 10
    let thr := if charge then (s.vhi i : Rat) - m else (s.vshut i : Rat) + m
    let lim := if s.zeroString i then 0 else if charge then s.protChg i else s.protDis1 i
    let cells := s.burstCells i dur
    let pts := sortRat ((cells.flatMap (fun c => c.breaks sg)).filter (fun x => decide (0 < x) && decide (x < lim))) ++ [lim]
    if s.shareOf i = 0 then 0 else burstWalk cells sg thr 0 pts / 10000000 / s.shareOf i
  match s.closedStrings with
  | [] => 0
  | l => minRat 0 (l.map one)

/-- Whether a power can be held for a duration (R287); nothing is finishable without a closed string (DEDUCED, log entry 34). -/
def State.finishable (s : State) (power : Int) (dur : Nat) : Bool := decide ((power.natAbs : Rat) ≤ s.burstMax (decide (0 < power)) dur)

/-- OFFER_P: the largest power up to the asked one in 10 W steps (R287, R288). -/
def State.offerP (s : State) (power : Int) (dur : Nat) : Int :=
  let m := min power.natAbs ((s.burstMax (decide (0 < power)) dur).floor.toNat) / 10 * 10
  if power < 0 then -(m : Int) else (m : Int)

/-- OFFER_T: the longest duration up to the asked one in 1 s steps. -/
def State.offerT (s : State) (power : Int) (dur : Nat) : Nat := ((List.range dur).reverse.find? (fun t => s.finishable power (t + 1))).map (· + 1) |>.getD 0

/-! Tickets (R286 to R290) -/

/-- The mailbox areas of a surge (Table 12-4). -/
def State.writeSurge (s : State) (k result ref ticket : Nat) (power : Int) (expiry : Nat) (offP : Int) (offT : Nat) (stroke : Nat) : State :=
  let b := mailbox k
  let s := s.wrBytes (b + 0xC04) (u8 result ++ [0, 0, 0] ++ u32 ref ++ u32 ticket ++ s32 power ++ u32 expiry ++ s32 offP ++ u32 offT)
  (s.st (b + 0xC00) 4 stroke).setEvp k 0x40

/-- An outcome frame of the crew link (Table 13-8): LEADSTROKE answered, entries of 12 bytes, and the surge fields. -/
def State.crewOutcomeFrame (s : State) (lead : Nat) (entries : List (List Byte)) (sresult ticket : Nat) (spower : Int) (stime sref : Nat) : List Byte :=
  s.crewFrame lead entries.length entries.flatten sresult ticket spower stime sref

/-- A notice for the holder of a ticket: mailbox, console or an outcome frame with COUNT 0 (R315), the log in both books (R290, Table 12-5). -/
def State.ticketNotice (s : State) (t : Ticket) (notice cause expiry : Nat) : State :=
  let s := (s.logS 0x0C41 (u32 t.n ++ u8 notice ++ u32 expiry)).logIn (bookOfSource t.holder) 0x0C41 0 (u32 t.n ++ u8 notice ++ u32 expiry)
  match partOfSource t.holder with
  | some k =>
    let b := mailbox k
    let s := s.wrBytes (b + 0xC44) (u8 notice ++ u8 cause ++ [0, 0] ++ u32 t.n ++ u32 expiry)
    (s.st (b + 0xC40) 4 s.strokeNo).setEvp k 0x40
  | none =>
    match portOfSource t.holder with
    | some p =>
      let nm := (["", "shortened", "ended", "", "limited", "released"] : List String).getD notice ""
      if nm = "" then s
      else s.notice p ("ticket notice=" ++ nm ++ " ticket=" ++ toString t.n ++ " expiry=" ++ toString expiry ++ (if notice = 2 then " cause=" ++ toString cause else ""))
    | none =>
      if t.holder = 0x18 then
        { s with crew := { s.crew with outs := s.crew.outs ++ [s.crewOutcomeFrame s.crew.lastRef [] (Config.freeOf 984 notice % 256) t.n t.power expiry 0] } }
      else s

/-- The active ticket ends with a notice (R288 to R290). -/
def State.endTicket (s : State) (notice cause : Nat) : State :=
  match s.est.ticket with
  | none => s
  | some t => (s.setEst { s.est with ticket := none }).ticketNotice t notice cause s.strokeNo

/-- A surge request enters the set of the present stroke; of a source the latest counts (R286). -/
def State.placeSurge (s : State) (q : SurgeReq) : State :=
  s.setEst { s.est with reqs := (s.est.reqs.filter (fun x => decide (x.source ≠ q.source))) ++ [q] }

/-- The result of one request of the closed set (R286, R288), judged after the helm orders; releases of a source that holds no ticket have no stated result (DESIGN CHOICE, log entry 35). (DEDUCED, log entry 102) -/
def State.surgeOne (s : State) (q : SurgeReq) : State :=
  let out (s : State) (result ticket expiry : Nat) (p : Int) (t : Nat) : State :=
    let s := s.setEst { s.est with outs := s.est.outs ++ [⟨q, result, ticket, expiry, p, t⟩] }
    let args := u8 result ++ s32 q.power ++ u32 q.duration ++ (if result = 0 then u32 ticket else s32 p) ++ u32 t
    let s := (s.logS 0x0C40 args).logIn (bookOfSource q.source) 0x0C40 0 args
    match q.origin with
    | .mailbox k _ => s.writeSurge k result q.ref ticket (if result = 0 then q.power else 0) expiry p t q.stroke
    | _ => s
  let bad := decide (q.kind = 1) && (decide (q.power = 0) || decide (1000000 < q.power.natAbs) || decide (q.duration = 0) || decide (3600 < q.duration))
  if q.kind = 2 then
    match s.est.ticket with
    | some t =>
      if t.holder = q.source then out (s.endTicket 5 0) 5 t.n s.strokeNo 0 0 else out s (Config.freeOf 960 0 % 256) 0 0 0 0
    | none => out s (Config.freeOf 960 1 % 256) 0 0 0 0
  else if q.kind ≠ 1 ∨ bad then out s 3 0 0 0 0
  else if s.inEasy || s.strings.any (fun i => (s.str i).st == 5 || (s.str i).st == 6) then out s 4 0 0 0 0
  else if q.source ≠ s.cam.helm.holder then out s 2 0 0 0 0
  else if s.finishable q.power q.duration then
    let n := s.est.nextTicket
    let expiry := (s.strokeNo + (q.duration * 1000000 + s.period - 1) / s.period) % 2 ^ 32
    let s := match s.est.ticket with
      | some t => if t.holder = q.source then s.endTicket 3 0 else s.endTicket 2 5
      | none => s
    let s := s.setEst { s.est with ticket := some ⟨n, q.power, expiry, q.source, false⟩, nextTicket := n + 1 }
    out s 0 n expiry 0 0
  else out s 1 0 0 (s.offerP q.power q.duration) (s.offerT q.power q.duration)

/-- The surge requests of a closed set are resolved with it, in order of arrival (R288). A pending hibernation is cancelled by a request (R284). -/
def State.surgeResolve (s : State) : State :=
  let l := s.est.reqs
  l.foldl State.surgeOne (s.setEst { s.est with reqs := [] })

/-- Why the active ticket ends at once, the lowest code first (R290). -/
def State.ticketCause (s : State) (t : Ticket) : Nat :=
  if s.inEasy then 1
  else if s.ctr.ocsSeen then 2
  else if s.closedStrings.any (fun i => s.zeroString i || s.protStr (decide (t.power < 0)) i == 0) then 3
  else if s.strings.any (fun i => (s.strSeats i).any (fun n => (s.seat n).cellV.any (fun v => decide (v < s.vlo i)))) then 4
  else if t.holder ≠ s.cam.helm.holder then 5
  else if s.strings.any (fun i => (s.strEst i).shut && (s.str i).st != 4) then 6
  else 0

/-- The battery voltage for a power [mV]: VBUS (DEDUCED, log entry 36). -/
def State.batMv (s : State) : Nat := s.volt chBus

/-- The ticket at a finish: it ends on a cause of R290, whose notice and change of limits fall into this finish, and an ordered limit below its power gives LIMITED once (R289). -/
def State.ticketFinish (s : State) : State :=
  match s.est.ticket with
  | none => s
  | some t =>
    let c := s.ticketCause t
    if c ≠ 0 then (s.endTicket 2 c).limitsFinish
    else
      let lim := s.standing (if t.power < 0 then tDisBat else tChgBat)
      let low := decide (lim * (s.batMv : Int) < (t.power.natAbs : Int) * 1000000)
      let s := s.setEst { s.est with ticket := some { t with limited := low } }
      if low && !t.limited then s.ticketNotice t 4 0 t.expiry else s

/-- The remainder of a ticket is predicted at every watch; it is shortened, never below est.surge_notice from the present catch (R290). -/
def State.ticketWatch (s : State) : State :=
  match s.est.ticket with
  | none => s
  | some t =>
    let left := (t.expiry + 2 ^ 32 - s.strokeNo) % 2 ^ 32
    let sec := left * s.period / 1000000
    if s.finishable t.power sec then s
    else
      let n := s.offerT t.power sec
      let keep := max n (s.parI .estSurgeNotice)
      let expiry := (s.strokeNo + (keep * 1000000 + s.period - 1) / s.period) % 2 ^ 32
      if keep < sec then
        (s.setEst { s.est with ticket := some { t with expiry := expiry } }).ticketNotice t 1 0 expiry
      else s

/-- 0x0C03 once per watch with the cells updated (R275). -/
def State.estWatch (s : State) : State :=
  let s := s.strings.foldl (fun s i =>
    let n := (s.strEst i).updated
    if n = 0 then s else (s.updStrEst i (fun e => { e with updated := 0 })).logS 0x0C03 (u8 i ++ u32 n)) s
  s.ticketWatch

/-- SURGE_DOORBELL (R286): a write of 1 to SDOOR is stamped and enters the set; other values are ignored. -/
def doSurgeDoorbell (s : State) (k : Nat) (value : Word) (us : Nat) : State :=
  if value ≠ 1 ∨ k < 1 ∨ 7 < k ∨ !s.rowing then s
  else
    let s := s.atUs us
    let b := mailbox k
    s.placeSurge ⟨0x20 + k, partRank k, s.now, s.strokeNo, s.ld (b + 0x410) 1, signed 32 (s.ld (b + 0x414) 4), s.ld (b + 0x418) 4, s.ld (b + 0x41C) 4, .mailbox k 0⟩

def execSurgeDoorbell (k : Nat) (value : Word) (us : Nat) (s : State) := done (doSurgeDoorbell s k value us)

/-- TICKET_EXPIRE (R289): the active ticket ends at its expiry stroke with notice RELEASED (DEDUCED, log entry 37). -/
def doTicketExpire (s : State) : State :=
  match s.est.ticket with
  | some t => if strokeLe t.expiry s.strokeNo then s.endTicket 5 0 else s
  | none => s

def execTicketExpire (s : State) := done (doTicketExpire s)

/-! Restore record (R277 to R279) -/

/-- CRC-32 of the chemistry tables in force. -/
def State.chemCrc (s : State) : Nat := crc32 ((List.range 4).flatMap (fun k => match s.par .estTable k with | .table l => l | _ => []))

/-- The entry of a seat (Table 12-1). -/
def State.recEntry (s : State) (n : Nat) : List Byte :=
  let x := s.seat n
  let pad (l : List Byte) : List Byte := (l ++ List.replicate 32 (0 : Byte)).take 32
  let all (f : CellEst → Bool) : Nat := if !x.est.isEmpty && x.est.all f then 1 else 0
  leBytes 8 x.serial ++ u16 (all CellEst.capL + 2 * all CellEst.resL + (if x.stale then 4 else 0)) ++ u8 x.est.length ++ u8 0 ++ u16 x.capN ++ u16 x.resN
    ++ pad (x.est.flatMap (fun c => u16 (roundRat (c.cap / 10)).toNat)) ++ pad (x.est.flatMap (fun c => u16 (roundRat c.res).toNat))
    ++ pad (x.est.flatMap (fun c => s16 (roundRat (c.soc * 100)))) ++ List.replicate 16 (0 : Byte)

/-- The restore record taken at a finish (R277). -/
def State.saveRecord (s : State) : List Byte :=
  let seats := s.enumSeats
  let kb := s.kpa.soc
  let hdr := u32 0x53455452 ++ u16 1 ++ u16 seats.length ++ u32 (s.rdN Reg.SYS_UID0) ++ u32 (s.rdN Reg.SYS_UID1) ++ u32 (s.rdN (Reg.RST_RETAIN 1))
    ++ u32 s.strokeNo ++ leInt 8 (s.meas.snap.getD 0) ++ u32 s.chemCrc ++ u16 ((kb.map (fun x => (roundRat (x * 100)).toNat)).getD 0) ++ u16 (if kb.isSome then 1 else 0)
    ++ List.replicate 24 (0 : Byte)
  let body := hdr ++ seats.flatMap s.recEntry
  body ++ u32 (crc32 body)

/-- A record is judged (R279): 0 accepted, else the reason of 0x0C11 numbered from 1 in the manual's order: CRC, UID, FMT, too early, already restored (R418). -/
def State.judgeRecord (s : State) (l : List Byte) : Nat :=
  let w (o n : Nat) : Nat := leNat ((l.drop o).take n)
  let n := l.length
  if !s.rowing then 4
  else if s.est.restored then 5
  else if w 0 4 ≠ 0x53455452 ∨ w 4 2 ≠ 1 ∨ n ≠ 0x40 + w 6 2 * 0x80 + 4 then 3
  else if leNat (l.drop (n - 4)) ≠ crc32 (l.take (n - 4)) then 1
  else if w 8 4 ≠ s.rdN Reg.SYS_UID0 ∨ w 12 4 ≠ s.rdN Reg.SYS_UID1 then 2
  else 0

/-- The learned values of one entry applied to its seat; another serial makes it STALE_LEARNED (R279, R280). -/
def State.restoreSeat (s : State) (l : List Byte) (n : Nat) : State :=
  let w (o k : Nat) : Nat := leNat ((l.drop o).take k)
  let s := s.fillCells n
  let x := s.seat n
  let go (k : Nat) (c : CellEst) : CellEst :=
    let c := if w 8 2 % 2 = 1 then { c with cap := (w (0x10 + 2 * k) 2 : Rat) * 10, capL := true } else c
    if w 8 2 / 2 % 2 = 1 then { c with res := (w (0x30 + 2 * k) 2 : Rat), resL := true } else c
  let est := ((List.range x.est.length).zip x.est).map (fun e => let c := if e.1 < w 0xA 1 then go e.1 e.2 else e.2; { c with r1 := none })
  let s := s.setSeat n { x with est := est, capN := w 0xC 2, resN := w 0xE 2 }
  if w 0 8 ≠ x.serial then
    (s.updSeat n (fun y => { y with stale := true, est := y.est.map (fun c => { c with capSwap := false, resSwap := false }) })).logS 0x0C12 (u8 n ++ u8 1)
  else if w 8 2 / 4 % 2 = 1 then s.updSeat n (fun y => { y with stale := true }) else s

/-- The SOC of one entry applied to its seat: with the same EPOCH the charge since ACCREF is added, shared by the capacities of the strings, and this run's own counts always (R279). -/
def State.restoreSoc (s : State) (same : Bool) (dq : Int) (l : List Byte) (n : Nat) : State :=
  let w (o k : Nat) : Nat := leNat ((l.drop o).take k)
  let i := s.seatString n
  let caps := (s.strings.map s.strCap).foldl (· + ·) 0
  let q : Rat := if s.rshunt ≤ 0 ∨ caps = 0 then 0 else (dq : Rat) / s.rshunt * (s.strCap i / caps) * 10 / 36
  let go (k : Nat) (c : CellEst) : CellEst :=
    if c.resync then c
    else
      let base : Rat := (signed 16 (w (0x50 + 2 * k) 2) : Rat) / 100
      let ran := if same && decide (c.cap ≠ 0) then 100 * q / c.cap else 0
      { c with soc := max (-10) (min 110 (base + ran + c.counted)) }
  s.updSeat n (fun x => { x with est := ((List.range x.est.length).zip x.est).map (fun e => if e.1 < w 0xA 1 then go e.1 e.2 else e.2) })

/-- At a catch the accepted record is applied to the enumerated seats in order (R279). (DEDUCED, log entry 99) -/
def State.restoreCatch (s : State) : State :=
  match s.est.restore with
  | none => s
  | some r =>
    let l := r.data
    let w (o n : Nat) : Nat := leNat ((l.drop o).take n)
    let same := decide (w 0x10 4 = s.rdN (Reg.RST_RETAIN 1))
    let socOk := decide (w 0x20 4 = s.chemCrc)
    let acc := leNat ((l.drop 0x18).take 8)
    let dq := s.est.first.getD 0 - signed 64 acc
    let seats := s.enumSeats.take (w 6 2)
    let taken := (seats.filter (fun n => (s.seat n).est.any (fun c => !c.resync))).length
    let entries := ((List.range seats.length).zip seats).map (fun e => (((l.drop (0x40 + e.1 * 0x80)).take 0x80), e.2))
    let s := entries.foldl (fun s e => s.restoreSeat e.1 e.2) s
    let s := if socOk then entries.foldl (fun s e => s.restoreSoc same dq e.1 e.2) s else s
    let s := if w 0x26 2 % 2 = 1 ∧ !s.kpa.removed then s.setKpa { s.kpa with soc := some ((w 0x24 2 : Rat) / 100) } else s
    let s := s.logS 0x0C10 (u8 seats.length ++ u8 (if same then 1 else 0) ++ u8 (if socOk then taken else 0))
    s.setEst { s.est with restore := none }

/-! Hibernation (R284, R285) -/

/-- The conditions under which the part counts itself idle. -/
def State.idleNow (s : State) : Bool :=
  s.strings.all (fun i => (s.str i).st == 1) && s.mdi.st != mdiMoving && s.mdi.st != mdiHoming && s.est.ticket.isNone
    && decide (absRat (s.meas.cur : Rat) < s.wakeI) && !s.cam.outcomes.any (fun o => o.code == 0)

/-- The idle time at a catch. -/
def State.idleCatch (s : State) : State :=
  s.setEst { s.est with idleSince := if s.idleNow && s.rowing then (match s.est.idleSince with | some t => some t | none => some s.clock) else none }

/-- The grace begins: 0x0C30, the tenant event WARN and the notice. -/
def State.hibPending (s : State) : State :=
  let g := s.parI .estHibGrace
  if s.est.pending then s
  else (((s.setEst { s.est with pending := true }).logS 0x0C30 (u32 g ++ u8 1)).setEvpAll 8).noticeAll ("hibernate in=" ++ toString g)

/-- An applied closing order, a surge request or a login cancels the entry. -/
def State.hibCancel (s : State) : State :=
  if !s.est.pending then s
  else ((s.setEst { s.est with pending := false, idleSince := none }).logS 0x0C30 (u32 (s.parI .estHibGrace) ++ u8 0)).noticeAll "hibernate cancelled"

/-- HIBERNATE_IDLE (R284). -/
def doHibernateIdle (s : State) : State :=
  let m := s.parI .estHibIdle
  match s.est.idleSince with
  | some t => if s.rowing ∧ m ≠ 0 ∧ t + m * 60000000 ≤ s.clock then s.hibPending else s
  | none => s

def execHibernateIdle (s : State) := done (doHibernateIdle s)

/-- CONSOLE_WAKE (R285). -/
def doConsoleWake (s : State) (port : Nat) : State := if port < 2 then s.wake 3 else s

def execConsoleWake (port : Nat) (s : State) := done (doConsoleWake s port)

end Sys2Proof.Machine
end

