-- ==== Sys2Proof/Machine/Insulation.lean ====
section
/-!
DEFINITION. The insulation monitor (11, R261 to R267). Conductances are in microsiemens, voltages in millivolts.
-/

namespace Sys2Proof.Machine

def State.setImd (s : State) (x : ImdSt) : State := { s with imd := x }

/-- Flag b of IMD.FLAGS (R267): 0 WARN, 1 ALARM, 2 VALID, 3 EXCL, 4 STALE_KIN, 5 SWFAULT, 6 UNSETTLED, 7 BUSLOW. -/
def State.imdFlag (s : State) (b : Nat) : Bool := s.bit Reg.IMD_FLAGS b
def State.setImdFlag (s : State) (b : Nat) (v : Bool) : State := s.setBit Reg.IMD_FLAGS b v

/-- Camlan orders the injection switches and KINSW, which follow at the next catch (R12); bit 3 set drives the KIN switch open (DEDUCED, log entry 10). -/
def State.imdSwitches (s : State) (p n kin : Bool) : State :=
  ((s.setBit Reg.IMD_CTRL 1 p).setBit Reg.IMD_CTRL 2 n).setBit Reg.IMD_CTRL 3 kin

/-- The switches take the order written in the ended stroke (R12, Table 11-8); none closes while SWFAULT stands (R265). -/
def State.catchImd (s : State) : State :=
  let p := s.bit Reg.IMD_CTRL 1 && !s.bit Reg.IMD_STAT 8
  let n := s.bit Reg.IMD_CTRL 2 && !s.bit Reg.IMD_STAT 8
  let s := ((s.setBit Reg.IMD_STAT 0 p).setBit Reg.IMD_STAT 1 n).setBit Reg.IMD_STAT 2 (s.bit Reg.IMD_CTRL 3)
  (s.setBit Reg.IMD_STAT 4 p).setBit Reg.IMD_STAT 5 n

/-- KINHOLD clears at the catch at which KINSW closes again (R135, R263). -/
def State.kinRelease (s : State) : State :=
  if s.bit Reg.KPA_CTRL 3 && !s.imd.excl && s.imd.due.isNone && !s.bit Reg.IMD_STAT 2 then s.kinHold false else s

/-- A period begins: the P switch closed, the N switch open (R261); none while SWFAULT stands or a required value is missing. -/
def State.startPeriod (s : State) : State :=
  if s.bit Reg.IMD_STAT 8 || decide (s.parN .imdRinj ≤ 0) || decide (s.parN .imdRmeas ≤ 0) || decide (s.parN .imdVref ≤ 0) then
    (s.setImd { s.imd with on := false }).imdSwitches false false false
  else ((s.setBit Reg.IMD_CTRL 0 true).setImd { s.imd with on := true, second := false, faulted := false, firstOk := false }).imdSwitches true false s.imd.excl

/-- A pole resistance as published: above 10 MΩ 0xFFFF_FFFE, below 10 kΩ 0 (R262). -/
def ohmOf (g : Rat) : Nat :=
  if g * 10000000 < 1000000 then 0xFFFFFFFE
  else let r := roundRat (1000000 / g); if r < 10000 then 0 else r.toNat

/-- 1/G without the publication limits, 0xFFFF_FFFF for none (IMD.RKIN). -/
def ohmRaw (g : Rat) : Nat := if g ≤ 0 then 0xFFFFFFFF else min 0xFFFFFFFE (roundRat (1000000 / g)).toNat

/-- Conductances of a period (R261): D, G_P and G_N. -/
def State.imdSolve (s : State) (v1 u1 v2 u2 : Nat) : Rat × Rat × Rat :=
  let gi : Rat := (1000000 : Rat) / s.parN .imdRinj
  let gm : Rat := (1000000 : Rat) / s.parN .imdRmeas
  let d : Rat := ((u2 : Int) - v2 : Int) * (v1 : Rat) - ((u1 : Int) - v1 : Int) * (v2 : Rat)
  (d, gi * u1 * v2 / d, gi * u2 * ((u1 : Int) - v1 : Int) / d - gm)

/-- The warning and alarm of valid included periods (R266). -/
def State.imdJudge (s : State) (rp rn : Nat) : State :=
  let r := min rp rn
  let thr (n : PName) : Rat := (s.parN n : Rat) * s.parN .imdVref / 1000000
  let kilo (x : Nat) : List Byte := u32 (x / 1000)
  let warn := if (r : Rat) < thr .imdWarn then true else if thr .imdWarn * 5 / 4 < (r : Rat) then false else s.imdFlag 0
  let s := if warn = s.imdFlag 0 then s else (s.setImdFlag 0 warn).logS 0x0B41 (kilo rp ++ kilo rn)
  let low := if (r : Rat) < thr .imdAlarm then s.imd.low + 1 else 0
  let s := s.setImd { s.imd with low := low }
  if s.parI .imdAlarmN ≤ low ∧ !s.imdFlag 1 then
    let act := s.parS .imdAction
    let s := (s.setImdFlag 1 true).logS 0x0B42 (kilo rp ++ kilo rn ++ u8 (act + 1))
    if act = 0 then (s.setImd { s.imd with refuse := true }).protectOpen tBattery else s
  else s

/-- A valid included period publishes ISO_P and the pack's ISO_N (R264). -/
def State.imdIncluded (s : State) (gp gn : Rat) : State :=
  let pack : Rat := match s.imd.gNExcl with
    | some e => max (gn - s.imd.gKin) (min gn e)
    | none => gn
  let rp := ohmOf gp
  let rn := ohmOf pack
  let s := s.setImd { s.imd with gNPrev := some gn }
  let s := ((s.wrN Reg.IMD_RP rp).wrN Reg.IMD_RN rn).wrN Reg.IMD_RNTOT (ohmOf gn)
  (s.setImdFlag 3 false).imdJudge rp rn

/-- A valid excluded period gives the module's leakage; a low one is logged with 0x0B43 (R263, R264). -/
def State.imdExcluded (s : State) (gn : Rat) : State :=
  let g : Rat := max 0 ((s.imd.gNPrev.getD 0) - gn)
  let low := decide (0 < g) && decide ((1000000 : Rat) / g < (s.parN .imdKinWarn : Rat))
  let was := s.imd.kinLow
  let s := s.setImd { s.imd with gNExcl := some gn, gKin := g, kinLow := low }
  let s := ((s.wrN Reg.IMD_RKIN (ohmRaw g)).setImdFlag 4 false).setImdFlag 3 true
  if low && !was then s.logS 0x0B43 (u32 (ohmRaw g / 1000)) else s

/-- R135 forbids opening KINSW: the excluded period is postponed, logged once for each run of postponements (R263). -/
def State.postponeExcl (s : State) : State :=
  let s := s.setImd { s.imd with due := none }
  if s.imd.postponed then s else (s.setImd { s.imd with postponed := true }).logS 0x0B44 (u8 s.ksrc)

/-- A boundary: the period that begins is the excluded one where KINHOLD was set at least one stroke before, a valid included period has just ended and KIN may still be spared (R135, R263). (DESIGN CHOICE, log entry 146) -/
def State.excludeNext (s : State) : State :=
  match s.imd.due with
  | none => s
  | some n =>
    if n = s.strokeNo then s
    else if s.imd.gNPrev.isNone then s.setImd { s.imd with due := none }
    else if s.kinMayOpen then s.setImd { s.imd with due := none, excl := true, postponed := false }
    else s.postponeExcl

/-- IMD_HALF_END (R261): means of the first half; the switches change at the catch. (DEDUCED, log entry 115) -/
def doImdHalfEnd (s : State) (v1 v1a v1b u1 : Nat) : State :=
  if s.imd.on ∧ !s.imd.second then
    let ok := decide (((v1a : Int) - v1b).natAbs * 500 < u1)
    (s.setImd { s.imd with second := true, v1 := v1, u1 := u1, firstOk := ok }).imdSwitches false true s.imd.excl
  else s

/-- IMD_PERIOD_END (R261, R262, R264): the conductances are computed and judged; the next period begins. -/
def doImdPeriodEnd (s : State) (v2 v2a v2b u2 : Nat) : State :=
  if s.imd.on ∧ s.imd.second then
    let m := s.imd
    let umin := s.parN .imdUmin
    let high := decide (umin ≤ (m.u1 : Int)) && decide (umin ≤ (u2 : Int))
    let near := decide (((m.u1 : Int) - u2).natAbs * 20 ≤ max m.u1 u2)
    let settled := m.firstOk && decide (((v2a : Int) - v2b).natAbs * 500 < u2)
    let (d, gp, gn) := s.imdSolve m.v1 m.u1 v2 u2
    let phys := decide (0 < d) && decide (-(1 : Rat) / 10 < gp) && decide (-(1 : Rat) / 10 < gn)
    let s := s.setImd { m with excl := false }
    let s' : State :=
      if high && near && settled && phys && !m.faulted then
        let s := s.setImd { s.imd with invalid := 0, sinceValid := 0 }
        let s := ((s.setImdFlag 2 true).setImdFlag 6 false).setImdFlag 7 false
        if m.excl then s.imdExcluded (max 0 gn) else s.imdIncluded (max 0 gp) (max 0 gn)
      else
        let inv := if high then m.invalid + 1 else 0
        let s := s.setImd { s.imd with invalid := inv, sinceValid := m.sinceValid + 1, gNPrev := none }
        let s := ((s.setImdFlag 2 false).setImdFlag 6 (high && near)).setImdFlag 7 (!(high && near))
        let s := if 3 ≤ m.sinceValid + 1 then (s.wrN Reg.IMD_RP 0xFFFFFFFF).wrN Reg.IMD_RN 0xFFFFFFFF else s
        if high && decide (inv = 3) then
          s.logS 0x0B45 (u8 (Config.freeOf 0x0B45 (if m.faulted then 1 else if !near then 2 else if !settled then 3 else 4)))
        else s
    s'.excludeNext.startPeriod
  else s

/-- IMD_KIN_EXCLUDE (R135, R263): the excluded period falls due: Camlan sets KINHOLD before the boundary at which KINSW opens, or postpones. (DESIGN CHOICE, log entry 146) -/
def doImdKinExclude (s : State) : State :=
  if s.imd.on ∧ !s.imd.excl ∧ s.imd.due.isNone then
    if s.kinMayOpen then (s.setImd { s.imd with due := some s.strokeNo }).kinHold true else s.postponeExcl
  else s

/-- KIN_STALE (R263): without a valid excluded period G_KIN is taken as 0. -/
def doKinStale (s : State) : State :=
  ((s.setImd { s.imd with gKin := 0 }).setImdFlag 4 true).wrN Reg.IMD_RKIN 0xFFFFFFFF

/-- IMD_SWITCH_FAULT (R265): SWFAULT is set, the switch turns off, the period is invalid. -/
def doImdSwitchFault (s : State) (nSide : Bool) : State :=
  let b := if nSide then 1 else 0
  if s.bit Reg.IMD_STAT b then
    let s := (((s.setBit Reg.IMD_STAT 8 true).setBit Reg.IMD_STAT b false).setBit Reg.IMD_STAT (4 + b) false).setBit Reg.IMD_CTRL (1 + b) false
    let s := ((s.setImdFlag 5 true).setBit Reg.IMD_IRQ 0 true).setImd { s.imd with faulted := true }
    s.logKpa 0x0B46 (u8 (Config.freeOf 0x0B46 b))
  else s

/-- Once per watch Camlan clears SWFAULT while the LED path is intact, and periods run again (R265). (DEDUCED, log entry 116) -/
def State.imdWatch (s : State) : State :=
  if s.bit Reg.IMD_STAT 8 then
    let s := (s.setBit Reg.IMD_STAT 8 false).setImdFlag 5 false
    if s.imd.on then s else s.startPeriod
  else s

/-- `clear imd` (R266): the alarm and its refusal end. -/
def State.clearImdAlarm (s : State) : State :=
  let s := s.setImd { s.imd with refuse := false, low := 0 }
  if s.imdFlag 1 then
    (s.setImdFlag 1 false).logS 0x0B42 (u32 (s.rdN Reg.IMD_RP / 1000) ++ u32 (s.rdN Reg.IMD_RN / 1000) ++ u8 (s.parS .imdAction + 1))
  else s

def execImdHalfEnd (v1 v1a v1b u1 : Nat) (s : State) := done (doImdHalfEnd s v1 v1a v1b u1)
def execImdPeriodEnd (v2 v2a v2b u2 : Nat) (s : State) := done (doImdPeriodEnd s v2 v2a v2b u2)
def execImdKinExclude (s : State) := done (doImdKinExclude s)
def execKinStale (s : State) := done (doKinStale s)
def execImdSwitchFault (nSide : Bool) (s : State) := done (doImdSwitchFault s nSide)

end Sys2Proof.Machine
end

