-- ==== Sys2Proof/Machine/Lockstep.lean ====
section
/-!
DEFINITION. The Cox lock-step pair: mismatches, memory classes, the start test, the permit (03, R57 to R73, R78), and the resets that need no other block (05).
-/

namespace Sys2Proof.Machine

/-- COX.CTRL.LOCK. -/
def State.locked (s : State) : Bool := s.bit Reg.COX_CTRL 0

/-- The mismatch reset is inhibited: MMRST_INH with a session seen, in SERVICE (R78). -/
def State.resetInhibited (s : State) : Bool :=
  s.bit Reg.COX_CTRL 1 && s.bit Reg.DBG_STAT 1 && decide (s.lcs = lcsService)

/-- A reset follows 10 us after a fault under LOCK (R62, R66); the first fault names its cause. -/
def State.armReset (s : State) (cause : Nat) : State :=
  if s.locked && !s.resetInhibited && s.power.faultReset.isNone then { s with power := { s.power with faultReset := some cause } } else s

/-- The retained records take a fault while they hold none (R63): cause 1 lock-step, 2 fatal memory. -/
def State.retain (s : State) (cause groups pc memClass addr : Nat) : State :=
  if s.ao.coxHeld then s
  else
    let s := ((s.wrN Reg.COX_MMGRP groups).wrN Reg.COX_MMPC pc).wrN Reg.COX_MMSTROKE s.strokeNo
    let s := (s.setFld Reg.COX_MMINFO 0 2 cause).setFld Reg.COX_MMINFO 2 3 memClass
    { (s.wrN Reg.COX_MMADDR addr) with ao := { s.ao with coxHeld := true } }

/-- LOCKSTEP_MISMATCH (R60 to R63, R69, R78): MM, the gate closed; under LOCK the groups of the first cycle are retained and a reset follows, also where MM stood already. -/
def doLockstepMismatch (s : State) (groups : Nat) (pc : Word) : State :=
  if !s.powered ∨ groups % 2 ^ 24 = 0 then s
  else if s.locked then
    (((s.setBit Reg.COX_STATUS 2 true).stopFeed).retain 1 (groups % 2 ^ 24) pc.toNat 0 0).armReset 3
  else ((s.setBit Reg.COX_STATUS 2 true).stopFeed).orReg Reg.COX_STEST (groups % 2 ^ 24)

/-- LOCKSTEP_RESET (R62). -/
def doLockstepReset (s : State) : State := if s.power.faultReset = some 3 then s.assertReset 3 else s

/-! Memory faults (R66, R67) -/

/-- The code of a memory (COX.MMINFO.MEM). -/
def memCode : EccMem → Nat
  | .itcm => 0 | .dtcm => 1 | .sram => 2 | .eflash => 3

/-- The counter of corrected errors of a memory. -/
def eccReg : EccMem → Nat
  | .itcm => Reg.COX_ECC_ITCM | .dtcm => Reg.COX_ECC_DTCM | _ => Reg.COX_ECC_OTHER

/-- The corrected word is written back (R66). -/
def State.writeBack (s : State) (m : EccMem) (a data : Nat) : State :=
  s.st (memBase m + wordIndex m a * wordBytes m) (wordBytes m) data

/-- ECC_CORRECTED (R66, R67): a read of class CORRECTED is written back; it is counted and logged for the Cox and the scrubber, a Scull's access is counted in PART.ECC (R93). -/
def doEccCorrected (s : State) (rq : Requester) (addr data check : Nat) : State :=
  match memOf addr with
  | none => s
  | some m =>
    match eccClass m (wordIndex m addr) data check with
    | .corrected d =>
      let s := s.writeBack m addr d
      match rq with
      | .cox =>
        let s := ((s.incSat (eccReg m) 0 16 1).wrN Reg.COX_ECCADDR addr).setBit Reg.COX_IRQ 0 true
        let s := { s with cam := { s.cam with corrected := s.cam.corrected + 1 } }
        s.logKpa 0x0303 (u8 (memCode m) ++ u32 addr)
      | .linkEngine | .prefetch | .debugPort => s
      | _ => s.incSat Reg.PART_ECC 0 16 1
    | _ => s

/-- ECC_FATAL (R66): a read of class ADDRESS or UNCORRECTABLE sets FATAL and closes the gate; under LOCK the fault is retained, with no groups in MMGRP (DESIGN CHOICE, log entry 137). -/
def doEccFatal (s : State) (addr data check : Nat) (pc : Word) : State :=
  match s.powered, memOf addr with
  | true, some m =>
    let c := eccClass m (wordIndex m addr) data check
    if c.fatal then
      let s := (s.setBit Reg.COX_STATUS 3 true).stopFeed
      if s.locked then (s.retain 2 0 pc.toNat (memCode m + (if c = .address then 4 else 0)) addr).armReset 4 else s
    else s
  | _, _ => s

/-- ECCFATAL_RESET (R66). -/
def doEccFatalReset (s : State) : State := if s.power.faultReset = some 4 then s.assertReset 4 else s

/-- ECC_CORR_LIMIT (R67): more than cox.ecc_corr_max corrected errors in the watch. -/
def doEccCorrLimit (s : State) : State :=
  if s.parI .coxEccCorrMax < s.cam.corrected then (s.logKpa 0x0304 (u32 s.cam.corrected)).easy 0x13 else s

/-- The boot ROM enters a fault state: the boot timer stops and every output stays off (R71, R114, R116, R122). -/
def State.bootFault (s : State) (p : Phase) : State :=
  { s with power := { s.power with phase := p, bootTimer := false } }

/-- The start test fails (R71): FAILGRP takes the group, 24 a stray mismatch or 25 a fatal class, and the gate stays closed. -/
def State.startTestFail (s : State) (n : Nat) : State :=
  ((s.setFld Reg.COX_STEST 24 5 n).setBit Reg.COX_STATUS 0 false).bootFault (.stestFault n)

/-- The boot ROM runs, before LOCK. -/
def State.inStartTest (s : State) : Bool := decide (s.power.phase = .bootRom)

/-- INJECT_DIFFERENCE (R69, R70): only while LOCK is 0; `det` is what the comparator finds in that cycle, exactly the group in a part without fault. -/
def doInjectDifference (s : State) (group det : Nat) : State :=
  if s.locked ∨ 23 < group then s
  else
    let s := { s with power := { s.power with injNow := if s.inStartTest then some group else s.power.injNow } }
    if det % 2 ^ 24 = 0 then s
    else ((s.setBit Reg.COX_STATUS 2 true).stopFeed).orReg Reg.COX_STEST (det % 2 ^ 24)

/-- DET and MM clear, and the gate opens unless FATAL stands. -/
def State.clearInjection (s : State) : State :=
  ((s.setFld Reg.COX_STEST 0 24 0).setBit Reg.COX_STATUS 2 false).setBit Reg.COX_STATUS 0 (!s.bit Reg.COX_STATUS 3)

/-- INJECT_CLEAR (R69): in the start test the boot ROM first requires that DET shows the injected group alone and that the gate is closed; else the group fails (R71). -/
def doInjectClear (s : State) : State :=
  if s.locked then s
  else match s.power.injNow with
    | none => s.clearInjection
    | some g =>
      if s.fld Reg.COX_STEST 0 24 ≠ 2 ^ g ∨ s.bit Reg.COX_STATUS 0 = true then s.startTestFail g
      else ({ s with power := { s.power with injNow := none, injDone := s.power.injDone ||| 2 ^ g } }).clearInjection

/-- The lowest group that has not passed its injection. -/
def State.untested (s : State) : Option Nat := (List.range 24).find? (fun g => decide (getField s.power.injDone g 1 = 0))

/-- The start test ends (R69, R71): it fails with a group that did not pass, with 24 on a stray mismatch and 25 on a fatal class; a pass sets STEST_PASS and LOCK with the gate open (DEDUCED, log entry 11). -/
def State.startTestEnd (s : State) : State :=
  match s.untested with
  | some g => s.startTestFail g
  | none =>
    if s.bit Reg.COX_STATUS 2 then s.startTestFail 24
    else if s.bit Reg.COX_STATUS 3 then s.startTestFail 25
    else ((s.setBit Reg.COX_STATUS 1 true).setBit Reg.COX_STATUS 0 true).setBit Reg.COX_CTRL 0 true

/-- COX_LOCK (R70): the boot ROM writes LOCK only after a pass; only a reset clears it. -/
def doCoxLock (s : State) : State :=
  if s.locked || !s.awake then s
  else if s.inStartTest then s.startTestEnd
  else s.setBit Reg.COX_CTRL 0 true

/-- PERMIT_ARM (R73). -/
def doPermitArm (s : State) : State :=
  if s.locked && s.bit Reg.COX_STATUS 1 then s.setBit Reg.COX_PERMIT 0 true else s

/-- MISMATCH_ACK (R63). -/
def doMismatchAck (s : State) : State := { s with ao := { s.ao with coxHeld := false } }

/-- MISMATCH_RESET_INHIBIT (R78). -/
def doMismatchResetInhibit (s : State) (value : Bool) : State :=
  if s.bit Reg.DBG_STAT 1 && decide (s.lcs = lcsService) then s.setBit Reg.COX_CTRL 1 value else s

/-- The scrubber's part of a recovery tail: 1,024 bytes onward, around 384 KiB (R68). -/
def State.scrub (s : State) : State := s.setFld Reg.COX_SCRUB 2 17 ((s.fld Reg.COX_SCRUB 2 17 + 256) % 98304)

/-! Resets (R109, R113 to R115, R123, R415) -/

/-- RESET_PIN (R415): 10 us or more always resets, below 2 us never, between them a free value decides (DESIGN CHOICE, log entry 1). -/
def doResetPin (s : State) (lowUs : Nat) : State :=
  if lowUs < 2 ∨ s.power.phase = .porHeld ∨ s.power.phase = .shipMode then s
  else if 10 ≤ lowUs then s.assertReset 1
  else
    let (n, s) := s.free
    if n % 2 = 1 then s.assertReset 1 else s

/-- POR_ASSERT (R109). -/
def doPorAssert (s : State) : State := s.assertPor

/-- POR_RELEASE (R109): the wipe starts. -/
def doPorRelease (s : State) : State :=
  match s.power.phase with
  | .porHeld => { s with power := { s.power with phase := .wiping } }
  | _ => s

/-- SOFT_RESET (R113): GO with key 0xA5C3, after the ACC counters are committed (R362). -/
def doSoftReset (s : State) (value : Word) : State :=
  if getField value.toNat 0 1 = 1 ∧ getField value.toNat 16 16 = 0xA5C3 ∧ s.awake then s.tallyCommit.assertReset 2 else s

/-- RESET_ASSERT (R115): a reset already held for the same cause stays as it is, and a held POR gives way to no other (R109). -/
def doResetAssert (s : State) (cause : ResetCause) : State :=
  match s.power.phase, cause with
  | .porHeld, _ => s
  | .shipMode, _ => s
  | .held, c => if s.power.cause = causeCode c then s else match c with | .por => s.assertPor | c => s.assertReset (causeCode c)
  | _, .por => s.assertPor
  | _, c => s.assertReset (causeCode c)

/-- RESET_RELEASE (R415): the wipe starts at the release. -/
def doResetRelease (s : State) : State :=
  match s.power.phase with
  | .held => { s with power := { s.power with phase := .wiping } }
  | _ => s

/-- CRYSTAL_START_FAIL (R122): the clock fault state. -/
def doCrystalStartFail (s : State) : State :=
  match s.power.phase with
  | .bootRom => s.bootFault .clockFault
  | _ => s

/-- STALL_RESET (R114). -/
def doStallReset (s : State) : State :=
  if s.fld Reg.RST_STALL 16 6 ≤ s.fld Reg.RST_STALL 0 6 then s.assertReset 5 else s

/-- BOOT_TIMER_EXPIRE (R114). -/
def doBootTimerExpire (s : State) : State := if s.power.bootTimer then s.assertReset 5 else s

/-- BOOT_HOLD (R114): the boot timer stops. -/
def doBootHold (s : State) : State := { s with power := { s.power with bootTimer := false } }

/-- CLOCK_LOSS (R123): only while the clock monitor is active. -/
def doClockLoss (s : State) : State := if s.bit Reg.CLK_STAT 3 then s.stopFeed.assertReset 6 else s

/-- X32_LOSS (R123): X32LOSS and 0x0506; the always-on domain goes on from the divided RC oscillator. -/
def doX32Loss (s : State) : State :=
  if s.ao.x32lost then s
  else
    let s := { ((s.setBit Reg.CLK_STAT 2 false).setBit Reg.CLK_STAT 8 true) with ao := { s.ao with x32lost := true } }
    s.logKpa 0x0506 []

/-- CURRENT_WAKE (R160, R285): the current wake that CCA.WAKE.CNT samples above TH have raised wakes the part from hibernation. -/
def doCurrentWake (s : State) : State := if s.bit Reg.CCA_IRQ 0 then s.wake 1 else s

def execLockstepMismatch (groups : Nat) (pc : Word) (s : State) := done (doLockstepMismatch s groups pc)
def execLockstepReset (s : State) := done (doLockstepReset s)
def execEccCorrected (rq : Requester) (addr data check : Nat) (s : State) := done (doEccCorrected s rq addr data check)
def execEccFatal (addr data check : Nat) (pc : Word) (s : State) := done (doEccFatal s addr data check pc)
def execEccFatalReset (s : State) := done (doEccFatalReset s)
def execEccCorrLimit (s : State) := done (doEccCorrLimit s)
def execInjectDifference (group det : Nat) (s : State) := done (s.byRequester (doInjectDifference s group det))
def execInjectClear (s : State) := done (s.byRequester (doInjectClear s))
def execCoxLock (s : State) := done (doCoxLock s)
def execPermitArm (s : State) := done (s.byRequester (doPermitArm s))
def execMismatchAck (s : State) := done (s.byRequester (doMismatchAck s))
def execMismatchResetInhibit (value : Bool) (s : State) := done (s.byRequester (doMismatchResetInhibit s value))
def execResetPin (lowUs : Nat) (s : State) := done (doResetPin s lowUs)
def execPorAssert (s : State) := done (doPorAssert s)
def execPorRelease (s : State) := done (doPorRelease s)
def execSoftReset (value : Word) (s : State) := done (doSoftReset s value)
def execResetAssert (cause : ResetCause) (s : State) := done (doResetAssert s cause)
def execResetRelease (s : State) := done (doResetRelease s)
def execCrystalStartFail (s : State) := done (doCrystalStartFail s)
def execStallReset (s : State) := done (doStallReset s)
def execBootTimerExpire (s : State) := done (doBootTimerExpire s)
def execBootHold (s : State) := done (s.byRequester (doBootHold s))
def execClockLoss (s : State) := done (doClockLoss s)
def execX32Loss (s : State) := done (doX32Loss s)
def execCurrentWake (s : State) := done (doCurrentWake s)

end Sys2Proof.Machine
end

