-- ==== Sys2Proof/Machine/Can.lean ====
section
/-!
DEFINITION. The CAN FD controllers: reception, object windows, transmit objects, the schedule matrix and the attempt rule, errors and wake (13, R291 to R303).
-/

namespace Sys2Proof.Machine

def canIdx : CanId → Nat
  | .a => 0 | .b => 1 | .c => 2

def State.can (s : State) (x : Nat) : CanSt := Tab.get CanSt.init s.cans x
def State.setCan (s : State) (x : Nat) (c : CanSt) : State := { s with cans := Tab.put CanSt.init s.cans x c }

/-- The bytes a DLC stands for; classical frames carry at most 8. -/
def dlcLen (fdf : Bool) (dlc : Nat) : Nat :=
  if dlc ≤ 8 then dlc else if !fdf then 8 else ([12, 16, 20, 24, 32, 48, 64] : List Nat).getD (dlc - 9) 64

/-- The partition whose grant names a receive object of CANA or CANC (R89). -/
def State.rxGrant (s : State) (x o : Nat) : Option Nat :=
  (List.range 7).find? (fun k =>
    if x = 0 then (if o < 32 then s.granted (k + 1) .arx0 o else s.granted (k + 1) .arx1 (o - 32))
    else if x = 2 then (if o < 32 then s.granted (k + 1) .crx0 o else s.granted (k + 1) .crx1 (o - 32))
    else false)

/-- The transmit objects of a controller that a requester may reach: the Cox all, a tenant its grants (R89). -/
def State.txMask (s : State) (rq : Requester) (x : Nat) : Nat :=
  match rq with
  | .cox => 2 ^ 32 - 1
  | .scull0 | .scull1 | .scull2 | .scull3 =>
    let k := s.partOf rq
    if k = 0 then 0 else if x = 0 then s.grant k .atx else if x = 2 then s.grant k .ctx else 0
  | _ => 0

/-- Whether a requester may select an object: receive 0 to 63 (kind 0), transmit 0 to 31 (kind 1), FIFO head (kind 2) (R295, R296). -/
def State.maySelect (s : State) (rq : Requester) (x kind idx : Nat) : Bool :=
  match rq with
  | .cox => (decide (kind = 0) && decide (idx < 64)) || (decide (kind = 1) && decide (idx < 32)) || decide (kind = 2)
  | .scull0 | .scull1 | .scull2 | .scull3 =>
    let k := s.partOf rq
    if k = 0 then false
    else if kind = 0 then decide (idx < 64) && decide (s.rxGrant x idx = some (k - 1))
    else if kind = 1 then decide (idx < 32) && decide (getField (s.txMask rq x) idx 1 = 1)
    else false
  | _ => false

/-! Reception (R294, R295) -/

/-- The two control words and the data of a received frame. -/
def frameObj (f : CanFrame) (ts : Nat) : CanObj :=
  let id := if f.ide then f.ident % 2 ^ 29 else f.ident % 2 ^ 11 * 2 ^ 18
  let b (v : Bool) (n : Nat) : Nat := if v then 2 ^ n else 0
  let n := if f.rtr then 0 else dlcLen f.fdf f.dlc
  ⟨id + b f.ide 29 + b f.fdf 30 + b f.brs 31, ts % 2 ^ 24 + f.dlc % 16 * 2 ^ 24 + b f.esi 28 + b f.rtr 31,
    (f.data.take n ++ List.replicate 64 (0 : Byte)).take 64⟩

/-- The lowest enabled receive object whose identifier and IDE match (R294). -/
def State.rxMatch (s : State) (x : Nat) (o : CanObj) : Option Nat :=
  (List.range 64).find? (fun i =>
    (if i < 32 then s.bit (Reg.CAN_RXEN0 x) i else s.bit (Reg.CAN_RXEN1 x) (i - 32))
      && decide ((Tab.get CanObj.init (s.can x).rx i).w0 % 2 ^ 30 = o.w0 % 2 ^ 30))

/-- A frame goes into the receive-all FIFO, or is dropped when it is full (R295). -/
def State.toFifo (s : State) (x : Nat) (o : CanObj) : State :=
  let c := s.can x
  if 128 ≤ c.fifo.length then
    ((s.setCan x { c with dropped := c.dropped + 1 }).incSat (Reg.CAN_FIFODROP x) 0 16 1).setBit (Reg.CAN_IRQ x) 2 true
  else
    let s := s.setCan x { c with fifo := c.fifo ++ [o] }
    let n := c.fifo.length + 1
    ((s.setFld (Reg.CAN_FIFOST x) 0 8 n).setBit (Reg.CAN_FIFOST x) 8 (decide (n = 128))).setBit (Reg.CAN_IRQ x) 1 true

/-- A frame is stored in a receive object: NEW, LOST when NEW stood, and the tenant's CAN event (R294). -/
def State.toObject (s : State) (x i : Nat) (o : CanObj) : State :=
  let c := s.can x
  let new := if i < 32 then Reg.CAN_RXNEW0 x else Reg.CAN_RXNEW1 x
  let lost := if i < 32 then Reg.CAN_RXLOST0 x else Reg.CAN_RXLOST1 x
  let s := s.setCan x { c with rx := Tab.put CanObj.init c.rx i o }
  let s := if s.bit new (i % 32) then s.setBit lost (i % 32) true else s
  let s := (s.setBit new (i % 32) true).setBit (Reg.CAN_IRQ x) 0 true
  match s.rxGrant x i with
  | some k => s.setEvp (k + 1) 0x100
  | none => s

/-- A frame that passed its CRC is stored (R291, R294, R295): remote frames go into the FIFO alone. -/
def State.canStore (s : State) (n : Nat) (o : CanObj) : State :=
  match (if getField o.w1 31 1 = 1 then none else s.rxMatch n o) with
  | some i =>
    let s := s.toObject n i o
    if s.bit (Reg.CAN_FIFOCTRL n) 0 then s.toFifo n o else s
  | none => s.toFifo n o

/-- CAN_FRAME_RECEIVED (R291, R294, R295): with the controller on, FD frames with FDEN, and no frame of the bus in the internal loop. (DEDUCED, log entry 156) -/
def doCanFrameReceived (s : State) (x : CanId) (f : CanFrame) (us : Nat) : State :=
  let n := canIdx x
  if !s.bit (Reg.CAN_CTRL n) 0 || s.bit (Reg.CAN_CTRL n) 4 || (f.fdf && !s.bit (Reg.CAN_CTRL n) 1) then s
  else
    let s := s.atUs us
    s.canStore n (frameObj f s.now)

/-! Object windows (R296) -/

/-- The data of an object: bytes beyond its DLC length read as 0 and are sent as 0 (Table 13-12). -/
def CanObj.held (o : CanObj) : List Byte :=
  (o.data.take (dlcLen (decide (getField o.w0 30 1 = 1)) (getField o.w1 24 4)) ++ List.replicate 64 (0 : Byte)).take 64

/-- The buffer of a requester takes an object. -/
def State.loadBuf (s : State) (rq : Requester) (x : Nat) (o : CanObj) : State :=
  let s := (s.wrN (rqReg rq (Reg.CAN_WBUF x 0)) o.w0).wrN (rqReg rq (Reg.CAN_WBUF x 1)) o.w1
  (List.range 16).foldl (fun s i => s.wrN (rqReg rq (Reg.CAN_WBUF x (2 + i))) (leNat ((o.held.drop (4 * i)).take 4))) s

/-- The object a requester's buffer spells. -/
def State.readBuf (s : State) (rq : Requester) (x : Nat) : CanObj :=
  ⟨s.rdN (rqReg rq (Reg.CAN_WBUF x 0)), s.rdN (rqReg rq (Reg.CAN_WBUF x 1)),
    (List.range 16).flatMap (fun i => u32 (s.rdN (rqReg rq (Reg.CAN_WBUF x (2 + i)))))⟩

/-- WINDOW_SELECT (R296): the write is the access; a refused selection reaches nothing. -/
def doWindowSelect (s : State) (rq : Requester) (x : CanId) (value : Word) : State :=
  let n := canIdx x
  let kind := getField value.toNat 0 2
  let idx := getField value.toNat 8 7
  if !s.maySelect rq n kind idx then s
  else
    let s := s.wr (rqReg rq (Reg.CAN_WSEL n)) (wordOf (kind + idx * 256))
    let c := s.can n
    if kind = 0 then
      let new := if idx < 32 then Reg.CAN_RXNEW0 n else Reg.CAN_RXNEW1 n
      let lost := if idx < 32 then Reg.CAN_RXLOST0 n else Reg.CAN_RXLOST1 n
      let o := Tab.get CanObj.init c.rx idx
      let w1 := putField (putField o.w1 29 1 (s.fld lost (idx % 32) 1)) 30 1 (s.fld new (idx % 32) 1)
      ((s.loadBuf rq n { o with w1 := w1 }).setBit new (idx % 32) false).setBit lost (idx % 32) false
    else if kind = 1 then s.loadBuf rq n (Tab.get CanObj.init c.tx idx)
    else match c.fifo with
      | [] => s.loadBuf rq n CanObj.init
      | o :: t =>
        let s := (s.setCan n { c with fifo := t }).loadBuf rq n o
        (s.setFld (Reg.CAN_FIFOST n) 0 8 t.length).setBit (Reg.CAN_FIFOST n) 8 false

/-- Whether a transmit object is PENDING. -/
def State.txPending (s : State) (x o : Nat) : Bool := s.bit (Reg.CAN_TXPEND x) o

/-- WINDOW_COMMIT (R296, R302): no effect on a pending transmit object; a partition's ROMOK is written as 0. -/
def doWindowCommit (s : State) (rq : Requester) (x : CanId) : State :=
  let n := canIdx x
  let w := s.rdN (rqReg rq (Reg.CAN_WSEL n))
  let kind := getField w 0 2
  let idx := getField w 8 7
  if !s.maySelect rq n kind idx then s
  else
    let o := s.readBuf rq n
    let c := s.can n
    if kind = 0 then s.setCan n { c with rx := Tab.put CanObj.init c.rx idx { Tab.get CanObj.init c.rx idx with w0 := o.w0 } }
    else if kind = 1 then
      if s.txPending n idx then s
      else s.setCan n { c with tx := Tab.put CanObj.init c.tx idx { o with w1 := o.w1 % (match rq with | .cox => 2 ^ 29 | _ => 2 ^ 28) } }
    else s

/-! Transmission (R297 to R300) -/

/-- A transmit object. -/
def State.txObj (s : State) (x o : Nat) : CanObj := Tab.get CanObj.init (s.can x).tx o

/-- A transmit object ends with a result of Table 13-2: 2 SENT, 3 MISSED, 4 EXPIRED, 5 TIMEOUT, 6 ABORTED. -/
def State.txEnd (s : State) (x o result : Nat) : State :=
  let s := ((s.setBit (Reg.CAN_TXPEND x) o false).setBit (Reg.CAN_TXDONE x) o true).setFld (Reg.CAN_TXST x o) 0 3 result
  let s := s.setCan x { s.can x with aborting := putField (s.can x).aborting o 1 0 }
  if result = 2 then s.setBit (Reg.CAN_IRQ x) 3 true
  else if result = 6 then s
  else s.setBit (Reg.CAN_IRQ x) 4 true

/-- TX_REQUEST (R297): PENDING, with the deadline counted from the write; a request of a pending object changes nothing. (DESIGN CHOICE, log entry 157) -/
def State.txRequestOne (s : State) (x o : Nat) : State :=
  if s.txPending x o then s
  else
    let c := s.can x
    let s := s.setCan x { c with reqAt := Tab.put 0 c.reqAt o s.now }
    (s.setBit (Reg.CAN_TXPEND x) o true).wrN (Reg.CAN_TXST x o) 1

def State.txRequest (s : State) (x mask : Nat) : State :=
  (List.range 32).foldl (fun s o => if getField mask o 1 = 1 then s.txRequestOne x o else s) s

def doTxRequest (s : State) (rq : Requester) (x : CanId) (mask : Word) (us : Nat) : State :=
  let n := canIdx x
  (s.atUs us).txRequest n (mask.toNat &&& s.txMask rq n)

/-- TX_ABORT (R297): an attempt on the bus completes first. -/
def State.txAbortOne (s : State) (x o : Nat) : State :=
  if !s.txPending x o then s
  else if (s.can x).attempt = some o then s.setCan x { s.can x with aborting := putField (s.can x).aborting o 1 1 }
  else s.txEnd x o 6

def State.txAbort (s : State) (x mask : Nat) : State :=
  (List.range 32).foldl (fun s o => if getField mask o 1 = 1 then s.txAbortOne x o else s) s

def doTxAbort (s : State) (rq : Requester) (x : CanId) (mask : Word) : State :=
  let n := canIdx x
  s.txAbort n (mask.toNat &&& s.txMask rq n)

/-- Nominal and data bit times in quanta of 12.5 ns (R292). -/
def State.nomBit (s : State) (x : Nat) : Nat :=
  (s.fld (Reg.CAN_NBT x) 0 8 + 1) * (3 + s.fld (Reg.CAN_NBT x) 8 8 + s.fld (Reg.CAN_NBT x) 16 7)

def State.dataBit (s : State) (x : Nat) : Nat :=
  (s.fld (Reg.CAN_DBT x) 0 5 + 1) * (3 + s.fld (Reg.CAN_DBT x) 8 5 + s.fld (Reg.CAN_DBT x) 16 4)

/-- The worst-case frame time T_w in quanta of 12.5 ns (R298). -/
def State.frameTime (s : State) (x : Nat) (o : CanObj) : Nat :=
  let ide := decide (getField o.w0 29 1 = 1)
  let fdf := decide (getField o.w0 30 1 = 1)
  let n := dlcLen fdf (getField o.w1 24 4)
  let tn := s.nomBit x
  if !fdf then (if ide then 67 + 8 * n + (53 + 8 * n) / 4 else 47 + 8 * n + (33 + 8 * n) / 4) * tn
  else
    let td := if getField o.w0 31 1 = 1 then s.dataBit x else tn
    (if ide then 57 else 34) * tn + ((5 * (5 + 8 * n) + 3) / 4 + (if n ≤ 16 then 27 else 32)) * td

/-- The cell of a row and column: its type (0 OFF, 1 EXCLUSIVE, 2 ARBITRATING) and its object (R299). -/
def State.cell (s : State) (x r c : Nat) : Nat × Nat :=
  let b := getField (s.rdN (Reg.CAN_CELL x ((16 * r + c) / 4))) (8 * ((16 * r + c) % 4)) 8
  (b % 4, b / 4 % 32)

/-- The row of a stroke (R299). -/
def State.rowOf (s : State) (x stroke : Nat) : Nat :=
  let cyc := s.fld (Reg.CAN_MTX x) 0 7
  if cyc = 0 then 0 else (stroke + s.fld (Reg.CAN_MTX x) 16 6) % cyc

def State.colStart (s : State) (x c : Nat) : Nat := s.fld (Reg.CAN_COL x c) 0 15
def State.colEnd (s : State) (x c : Nat) : Nat := s.fld (Reg.CAN_COL x c) 16 15

/-- Columns in use in a row, with their cells. -/
def State.rowCells (s : State) (x r : Nat) : List (Nat × Nat × Nat) :=
  if !s.bit (Reg.CAN_MTX x) 31 then []
  else ((List.range 16).map (fun c => (c, (s.cell x r c).1, (s.cell x r c).2))).filter (fun e => e.2.1 ≠ 0 && decide (s.colStart x e.1 < s.colEnd x e.1))

/-- An object named in any cell is a scheduled object (R299). -/
def State.scheduled (s : State) (x o : Nat) : Bool :=
  (List.range (s.fld (Reg.CAN_MTX x) 0 7)).any (fun r => (s.rowCells x r).any (fun e => decide (e.2.2 = o)))

/-- The absolute deadline of a transmit object [us], none without one (R297). -/
def State.txDeadline (s : State) (x o : Nat) : Option Nat :=
  let d := getField (s.txObj x o).w1 0 24
  if d = 0 then none else some (Tab.get 0 (s.can x).reqAt o + d)

/-- A limit and a deadline, whichever comes first. -/
def minDeadline (limit : Option Nat) (deadline : Option Nat) : Option Nat :=
  match limit, deadline with
  | some a, some b => some (min a b)
  | some a, none => some a
  | none, d => d

/-- The limit of an attempt that would start now (Table 13-3): none when the object may not attempt now, some none without any limit; and whether the window is exclusive. -/
def State.attemptLimit (s : State) (x o : Nat) : Option (Option Nat × Bool) :=
  let t := s.us
  let base := s.now - t
  let cells := s.rowCells x (s.rowOf x s.strokeNo)
  let dl := s.txDeadline x o
  if s.scheduled x o then
    match cells.find? (fun e => decide (e.2.2 = o) && decide (s.colStart x e.1 ≤ t) && decide (t < s.colEnd x e.1)) with
    | some (c, ty, _) =>
      if ty = 1 ∧ (base + s.colStart x c ≤ Tab.get 0 (s.can x).reqAt o ∨ Tab.get 0 (s.can x).triedTo o = base + s.colEnd x c) then none
      else some (minDeadline (some (base + s.colEnd x c)) dl, decide (ty = 1))
    | none => none
  else if cells.any (fun e => decide (s.colStart x e.1 ≤ t) && decide (t < s.colEnd x e.1)) then none
  else
    let later := (cells.filter (fun e => decide (t < s.colStart x e.1))).map (fun e => base + s.colStart x e.1)
    let next := ((s.rowCells x (s.rowOf x (s.strokeNo + 1))).map (fun e => base + s.period + s.colStart x e.1))
    some (minDeadline ((later ++ next).foldl (fun m v => match m with | some w => some (min v w) | none => some v) none) dl, false)

/-- The controller may start a frame: on, not bus-off, the bus idle, not listening only (R300, R301, Table 13-12). -/
def State.canReady (s : State) (x : Nat) : Bool :=
  s.bit (Reg.CAN_CTRL x) 0 && decide (s.fld (Reg.CAN_STAT x) 0 2 ≠ 2) && (s.can x).attempt.isNone && !s.bit (Reg.CAN_CTRL x) 5

/-- The attempt rule for an object now: PENDING, the bus idle, the limit kept, restricted operation respected (R300, R302). (DEDUCED, log entry 29) -/
def State.mayAttempt (s : State) (x o : Nat) : Bool :=
  s.txPending x o && s.canReady x && (decide (getField (s.txObj x o).w0 30 1 = 0) || s.bit (Reg.CAN_CTRL x) 1)
    && (!s.bit (Reg.CAN_CTRL x) 2 || (s.bit (Reg.CAN_CTRL x) 3 && decide (getField (s.txObj x o).w1 28 1 = 1)))
    && (match s.attemptLimit x o with
        | none => false
        | some (none, _) => true
        | some (some l, _) => decide (s.now * 80 + s.frameTime x (s.txObj x o) ≤ l * 80))

/-- The end of the window that an object is in [us absolute], 0 outside. -/
def State.txWindowEnd (s : State) (x o : Nat) : Nat :=
  match (s.rowCells x (s.rowOf x s.strokeNo)).find? (fun e => decide (e.2.2 = o) && decide (s.colStart x e.1 ≤ s.us) && decide (s.us < s.colEnd x e.1)) with
  | some (c, _, _) => s.now - s.us + s.colEnd x c
  | none => 0

/-- TX_ATTEMPT (R300): the lowest object ready starts, and a started attempt runs to its end. (DESIGN CHOICE, log entry 22) -/
def doTxAttempt (s : State) (x : CanId) (obj us : Nat) : State :=
  let n := canIdx x
  let s' := s.atUs us
  if s'.mayAttempt n obj && !((List.range obj).any (fun o => s'.mayAttempt n o)) then
    let excl := match s'.attemptLimit n obj with | some (_, e) => e | none => false
    let c := s'.can n
    let s := s'.setCan n { c with attempt := some obj, exclusive := excl, triedTo := if excl then Tab.put 0 c.triedTo obj (s'.txWindowEnd n obj) else c.triedTo }
    (s.setBit (Reg.CAN_STAT n) 2 false).setFld (Reg.CAN_TXST n obj) 8 24 s.now
  else s

/-- The start of the next cell that names an object, after a time of this stroke [us absolute]: later columns of this row, then the rows that follow. (DEDUCED, log entry 119) -/
def State.nextCell (s : State) (x o : Nat) : Option Nat :=
  let base := s.now - s.us
  let here := ((s.rowCells x (s.rowOf x s.strokeNo)).filter (fun e => decide (e.2.2 = o) && decide (s.us ≤ s.colStart x e.1))).map (fun e => base + s.colStart x e.1)
  let rows := (List.range (s.fld (Reg.CAN_MTX x) 0 7)).flatMap (fun i =>
    ((s.rowCells x (s.rowOf x (s.strokeNo + i + 1))).filter (fun e => decide (e.2.2 = o))).map (fun e => base + (i + 1) * s.period + s.colStart x e.1))
  (here ++ rows).head?

/-- An object whose window closed stays PENDING when a later cell names it and its deadline allows; else it ends (Table 13-3). -/
def State.windowClosed (s : State) (x o result : Nat) : State :=
  match s.nextCell x o with
  | none => s.txEnd x o result
  | some t =>
    match s.txDeadline x o with
    | some d => if t * 80 + s.frameTime x (s.txObj x o) ≤ d * 80 then s else s.txEnd x o result
    | none => s

/-- The frame of a transmit object as it is received: its identifier and data, the time, no DEADLINE. -/
def CanObj.sent (o : CanObj) (ts : Nat) : CanObj := ⟨o.w0, ts % 2 ^ 24 + getField o.w1 24 4 * 2 ^ 24, o.held⟩

/-- The attempt on the bus ends (R297, R300): SENT, or a failed attempt, counted; an exclusive window has one attempt. In the internal loop the controller receives its own frame. (DEDUCED, log entry 156) -/
def State.attemptEnd (s : State) (x : CanId) (ok lostArb : Bool) : State :=
  let n := canIdx x
  let c := s.can n
  match c.attempt with
  | none => s
  | some o =>
    let s := (s.setCan n { c with attempt := none, exclusive := false }).setBit (Reg.CAN_STAT n) 2 true
    if ok then
      let s := s.txEnd n o 2
      if s.bit (Reg.CAN_CTRL n) 4 then s.canStore n ((s.txObj n o).sent s.now) else s
    else
      let s := s.incSat (Reg.CAN_TXST n o) 4 4 1
      let s := if lostArb then s else s.incSat (Reg.CAN_CEL n) 0 16 1
      if getField c.aborting o 1 = 1 then s.txEnd n o 6
      else if c.exclusive then s.windowClosed n o 3
      else s

/-- TX_ATTEMPT_END: a failed attempt leaves its ISO error code in LEC; an attempt that lost arbitration is no error. -/
def doTxAttemptEnd (s : State) (x : CanId) (ok lostArb : Bool) (lec : Nat) : State :=
  let n := canIdx x
  let s := if (s.can n).attempt.isSome && !ok && !lostArb then s.setFld (Reg.CAN_STAT n) 4 3 lec else s
  s.attemptEnd x ok lostArb

/-- TX_LIMIT_REACHED (R300): TIMEOUT by the deadline, else MISSED or EXPIRED for a scheduled object; a free object waits. -/
def doTxLimitReached (s : State) (x : CanId) (obj : Nat) (byDeadline : Bool) : State :=
  let n := canIdx x
  if !s.txPending n obj ∨ (s.can n).attempt = some obj then s
  else if byDeadline then (if (s.txDeadline n obj).isSome then s.txEnd n obj 5 else s)
  else if !s.scheduled n obj then s
  else
    let excl := (s.rowCells n (s.rowOf n s.strokeNo)).any (fun e => decide (e.2.2 = obj) && decide (e.2.1 = 1))
    s.windowClosed n obj (if excl then 3 else 4)

/-! Errors and wake (R301, R303) -/

/-- Bus-off (R301): an attempt on the bus has failed, and none can start until recovery. (DEDUCED, log entry 45) -/
def State.busOff (s : State) (x : CanId) : State :=
  let n := canIdx x
  let s := if (s.can n).attempt.isSome then s.attemptEnd x false false else s
  ((s.setBit (Reg.CAN_IRQ n) 6 true).setBit (Reg.CAN_STAT n) 2 true).logKpa 0x0D02 (u8 n)

/-- The error state and the counters change (R301): each change of the state is logged with 0x0D01; the change to bus-off with 0x0D02 too. -/
def State.errState (s : State) (x : CanId) (err tec rec : Nat) : State :=
  let n := canIdx x
  let old := s.fld (Reg.CAN_STAT n) 0 2
  let s := ((s.setFld (Reg.CAN_STAT n) 0 2 err).setFld (Reg.CAN_ECR n) 0 8 tec).setFld (Reg.CAN_ECR n) 8 7 rec
  let s := s.setBit (Reg.CAN_ECR n) 15 (decide (128 ≤ rec))
  if old = err % 4 then s
  else
    let s := (s.setBit (Reg.CAN_IRQ n) 5 true).logKpa 0x0D01 (u8 n ++ u8 (err % 4) ++ u8 tec ++ u8 rec)
    if err % 4 = 2 then s.busOff x else s

/-- CAN_ERROR_STATE (R301): with the ISO error codes of the nominal and the data phase that led to it; restricted operation leaves the counters, and so the state, unchanged (R302). -/
def doCanErrorState (s : State) (x : CanId) (err tec rec lec dlec : Nat) : State :=
  let n := canIdx x
  if s.bit (Reg.CAN_CTRL n) 2 then s
  else ((s.setFld (Reg.CAN_STAT n) 4 3 lec).setFld (Reg.CAN_STAT n) 8 3 dlec).errState x err tec rec

/-- CAN_BUS_OFF (R301): the error counters stand as they are. -/
def doCanBusOff (s : State) (x : CanId) : State :=
  let n := canIdx x
  if s.fld (Reg.CAN_STAT n) 0 2 = 2 || s.bit (Reg.CAN_CTRL n) 2 then s else s.errState x 2 (s.fld (Reg.CAN_ECR n) 0 8) (s.fld (Reg.CAN_ECR n) 8 7)

/-- BUSOFF_HOLD_END (R301): Camlan sets AUTORECOV on CANA and CANC. -/
def doBusoffHoldEnd (s : State) (x : CanId) : State :=
  let n := canIdx x
  if s.fld (Reg.CAN_STAT n) 0 2 = 2 then s.setBit (Reg.CAN_CTRL n) 6 true else s

/-- BUSOFF_RECOVERED (R301): only with AUTORECOV set; on CANA and CANC Camlan clears it for the next bus-off (DEDUCED, log entry 12). -/
def doBusoffRecovered (s : State) (x : CanId) (ms : Nat) : State :=
  let n := canIdx x
  if s.fld (Reg.CAN_STAT n) 0 2 = 2 ∧ s.bit (Reg.CAN_CTRL n) 6 then
    let s := (s.errState x 0 0 0).logKpa 0x0D03 (u8 n ++ u32 ms)
    if n = 1 then s else s.setBit (Reg.CAN_CTRL n) 6 false
  else s

/-- CAN_WAKE (R285, R303): a controller or the ball, where can.x.wake enables it. -/
def doCanWake (s : State) (ball : CanWakeBall) : State :=
  let (on, b) : Bool × Nat := match ball with
    | .rx x => (s.parS .canWake (canIdx x) == 1, canIdx x)
    | .wakeBall => ((List.range 3).any (fun i => s.parS .canWake i == 1), 3)
  if on then
    let s' := s.wake 2
    if s'.power.wakeSrc = 2 then { s' with power := { s'.power with wakeBall := b } } else s'
  else s

/-- Once per watch: frames dropped from the FIFO are logged with 0x0D04 (R295). -/
def State.canWatch (s : State) : State :=
  (List.range 3).foldl (fun s x =>
    let c := s.can x
    if c.dropped = 0 then s else (s.setCan x { c with dropped := 0 }).logS 0x0D04 (u8 x ++ u32 c.dropped)) s

/-- What CANx.STAT shows of CTRL: restricted operation; the bus is idle while the controller is on and no frame of its own is on it. -/
def State.canCtrl (s : State) (x : Nat) : State :=
  (s.setBit (Reg.CAN_STAT x) 3 (s.bit (Reg.CAN_CTRL x) 2)).setBit (Reg.CAN_STAT x) 2 (s.bit (Reg.CAN_CTRL x) 0 && (s.can x).attempt.isNone)

/-- What CANx.STAT shows at a catch: restricted operation, the row in force and the column the stroke begins in (Table 13-12; DESIGN CHOICE, log entry 44). -/
def State.canCatch (s : State) : State :=
  (List.range 3).foldl (fun s x =>
    let s := (s.canCtrl x).setFld (Reg.CAN_STAT x) 16 6 (s.rowOf x s.strokeNo)
    match (s.rowCells x (s.rowOf x s.strokeNo)).find? (fun e => decide (s.colStart x e.1 = 0)) with
    | some e => (s.setFld (Reg.CAN_STAT x) 24 4 e.1).setBit (Reg.CAN_STAT x) 28 true
    | none => s.setBit (Reg.CAN_STAT x) 28 false) s

/-- Every request of a mask of transmit objects ends when its partition is suspended; a frame on the bus completes (R105). -/
def State.canDisable (s : State) (x mask : Nat) : State := s.txAbort x mask

def execCanFrameReceived (x : CanId) (f : CanFrame) (us : Nat) (s : State) := done (doCanFrameReceived s x f us)
def execWindowSelect (rq : Requester) (x : CanId) (value : Word) (s : State) := done (s.byRequester (doWindowSelect s rq x value))
def execWindowCommit (rq : Requester) (x : CanId) (s : State) := done (s.byRequester (doWindowCommit s rq x))
def execTxRequest (rq : Requester) (x : CanId) (mask : Word) (us : Nat) (s : State) := done (s.byRequester (doTxRequest s rq x mask us))
def execTxAbort (rq : Requester) (x : CanId) (mask : Word) (s : State) := done (s.byRequester (doTxAbort s rq x mask))
def execTxAttempt (x : CanId) (obj us : Nat) (s : State) := done (doTxAttempt s x obj us)
def execTxLimitReached (x : CanId) (obj : Nat) (byDeadline : Bool) (s : State) := done (doTxLimitReached s x obj byDeadline)
def execCanErrorState (x : CanId) (err tec rec lec dlec : Nat) (s : State) := done (doCanErrorState s x err tec rec lec dlec)
def execCanBusOff (x : CanId) (s : State) := done (doCanBusOff s x)
def execBusoffHoldEnd (x : CanId) (s : State) := done (doBusoffHoldEnd s x)
def execBusoffRecovered (x : CanId) (ms : Nat) (s : State) := done (doBusoffRecovered s x ms)
def execCanWake (ball : CanWakeBall) (s : State) := done (doCanWake s ball)

end Sys2Proof.Machine
end

