-- ==== Sys2Proof/Machine/Qport.lean ====
section
/-!
DEFINITION. The Q-port, its queues and the sealed XIP window's prefetch buffer, slave mode, and GPIO (17, R380 to R393).
-/

namespace Sys2Proof.Machine

def State.setQp (s : State) (q : QpSt) : State := { s with qp := q }

/-- The partition that holds the grant of QSEL1 to QSEL3, none for QSEL0 (R89). -/
def State.qselGrant (s : State) (n : Nat) : Option Nat :=
  if 1 ≤ n ∧ n ≤ 3 then (List.range 7).find? (fun k => s.granted (k + 1) .misc n) else none

/-- Whether a requester may reach a select's block (Table 17-4). -/
def State.mayQsel (s : State) (rq : Requester) (n : Nat) : Bool :=
  match rq with
  | .cox => decide (n < 4)
  | .scull0 | .scull1 | .scull2 | .scull3 => decide (0 < s.partOf rq) && decide (s.qselGrant n = some (s.partOf rq - 1))
  | _ => false

def State.queue (s : State) (n : Nat) : List QEnt := Tab.get [] s.qp.queues n

/-- A queue set, with its free entries shown. -/
def State.setQueue (s : State) (n : Nat) (l : List QEnt) : State :=
  (s.setQp { s.qp with queues := Tab.put [] s.qp.queues n l }).setFld (Reg.QP_Q_STAT n) 8 5 (16 - l.length)

def State.qrx (s : State) (n : Nat) : List Nat := Tab.get [] s.qp.rx n

def State.setQrx (s : State) (n : Nat) (l : List Nat) : State :=
  let s := (s.setQp { s.qp with rx := Tab.put [] s.qp.rx n l }).setFld (Reg.QP_Q_STAT n) 16 6 l.length
  s.wrN (Reg.QP_Q_RXDATA n) (l.headD 0)

/-- The entry that ENTCTL and the words appended to ENTDATA spell (R382). -/
def State.builtEntry (s : State) (n : Nat) : QEnt :=
  let c := s.rdN (Reg.QP_Q_ENTCTL n)
  { dir := getField c 0 2, wlen := getField c 8 5 + 1, count := getField c 16 3 + 1, sel := getField c 20 2, cont := decide (getField c 24 1 = 1), irq := decide (getField c 25 1 = 1), words := Tab.get [] s.qp.stage n }

/-- QCLK clocks of an entry; SEL 1 adds DESEL clocks between words (R384). -/
def State.entClocks (s : State) (n : Nat) (e : QEnt) : Nat :=
  e.count * e.wlen + (if e.sel = 1 then (e.count - 1) * s.fld (Reg.QP_Q_CFG n) 16 4 else 0)

/-- Whether an entry links the next one into its chain; SEL 1 ignores CONT (R384). -/
def QEnt.links (e : QEnt) : Bool := e.cont && decide (e.sel ≠ 1)

/-- The chain at the front of a queue: an entry with every following one its CONT links (R381). -/
def frontChain : List QEnt → List QEnt
  | [] => []
  | e :: t => if e.links then e :: frontChain t else [e]

/-- The entries at the end of a queue that a new entry would join. -/
def openTail (l : List QEnt) : List QEnt := (l.reverse.takeWhile QEnt.links).reverse

/-- A word appended to the entry being built (ENTDATA). -/
def State.qpData (s : State) (n w : Nat) : State :=
  let l := Tab.get [] s.qp.stage n
  if 8 < l.length then s else s.setQp { s.qp with stage := Tab.put [] s.qp.stage n (l ++ [w]) }

/-! Seal keys and tags (R389) -/

/-- The seal key of a partition: SEC derives it from the fused root key, the partition number and the enrolled key hash; no rule gives the derivation (DESIGN CHOICE, log entries 1, 63). -/
def State.sealKey (s : State) (k : Nat) : List Byte :=
  let h := match s.par .partKeyhash k with | .table b => leNat b | _ => 0
  (List.range 16).map (fun i => byteOf (Config.freeOf 991 (h * 4096 + k * 16 + i)))

/-- The tag of a line: the first 8 bytes of the CMAC over its flash address, the image's VERSION and its 256 bytes (R389). -/
def lineTag (key : List Byte) (addr version : Nat) (data : List Byte) : List Byte := (Config.aesCmac key (u32 addr ++ u32 version ++ data)).take 8

/-- The seal header of an image, with HTAG over its first 0x30 bytes (R389). -/
def sealHeader (key : List Byte) (k version size : Nat) (digest : List Byte) : List Byte :=
  let b := u32 0x4C414553 ++ u16 1 ++ u8 k ++ u8 0 ++ u32 version ++ u32 (size / 256) ++ digest
  b ++ (Config.aesCmac key b).take 8

/-- The tag area that Camlan programs when it seals: the header, padded to 4 KiB with 0xFF, and the tag of every line of the image (R389, R391). -/
def tagArea (key : List Byte) (header : List Byte) (base version : Nat) (image : List Byte) (lines : Nat) : List Byte :=
  header ++ List.replicate (4096 - header.length) 0xFF
    ++ (List.range lines).flatMap (fun i => lineTag key (base + 256 * i) version ((image.drop (256 * i)).take 256))

/-- The partition whose enabled window holds a line of 256 bytes (R390). -/
def State.windowOf (s : State) (line : Nat) : Option Nat :=
  (List.range 7).find? (fun k =>
    s.bit (Reg.QP_WIN_EN k) 0 && decide (s.fld (Reg.QP_WIN_BASE k) 16 12 * 256 ≤ line)
      && decide (line < s.fld (Reg.QP_WIN_BASE k) 16 12 * 256 + s.fld (Reg.QP_WIN_SIZE k) 16 12 * 256))

/-- No transaction is on the bus (R381). -/
def State.busFree (s : State) : Bool := s.qp.chain.isNone && s.qp.fill.isNone

/-- The select whose chain goes next: round robin over QSEL0 to QSEL3 (R381). -/
def State.nextSelect (s : State) : Option Nat :=
  (([1, 2, 3, 4] : List Nat).map (fun i => (s.qp.last + i) % 4)).find? (fun n => decide (s.queue n ≠ []))

/-- Whether the bus lies between a fill's tag-group read and its line read, with the group not yet held: a waiting chain goes there (R381, R388). -/
def State.groupGap (s : State) : Option Nat :=
  match s.qp.fill with
  | none => none
  | some line => if s.qp.chain.isNone && (s.windowOf line).isSome && !s.qp.groups.contains (line / 16) then some (line / 16) else none

/-- STAT of the port: BUSY, OWNER, HELD. -/
def State.showBus (s : State) : State :=
  let owner := match s.qp.chain with | some n => n + 1 | none => 0
  ((s.setBit Reg.QP_STAT 0 (!s.busFree)).setFld Reg.QP_STAT 1 3 owner).setBit Reg.QP_STAT 4 s.qp.next.isSome

/-- QP_PUSH (R382, R383): refused for a wrong number of words, a full queue, or a chain beyond 128 us; a select that sequential continuation holds rises for it (R388). -/
def doQpPush (s : State) (rq : Requester) (n : Nat) : State :=
  if !s.mayQsel rq n then s
  else
    let e := s.builtEntry n
    let l := s.queue n
    let need := if e.dir = 0 then e.count else 0
    let div := s.fld (Reg.QP_Q_CFG n) 0 8
    let clocks := ((openTail l ++ [e]).map (s.entClocks n)).foldl (· + ·) 0
    let s := s.setQp { s.qp with stage := Tab.put [] s.qp.stage n [] }
    if e.words.length ≠ need ∨ 16 ≤ l.length ∨ 128000 < clocks * div * 10 then s.setBit (Reg.QP_Q_STAT n) 24 true
    else
      let s := s.setQueue n (l ++ [e])
      if s.busFree then (s.setQp { s.qp with next := none }).showBus else s

/-- A tag group becomes the newest of the 4 held (R388). -/
def heldGroups (l : List Nat) (g : Nat) : List Nat := (g :: l.filter (· ≠ g)).take 4

/-- A chain takes the bus; a held select rises. -/
def State.runChain (s : State) (n : Nat) : State :=
  ((s.setQp { s.qp with chain := some n, next := none, turn := false, last := n }).setBit (Reg.QP_Q_STAT n) 0 true).showBus

/-- QP_CHAIN_RUN (R381, R388): the chain whose turn it is takes the free bus, or the bus between a fill's tag-group read, which has then ended, and its line read. -/
def doQpChainRun (s : State) (n : Nat) : State :=
  if s.nextSelect ≠ some n ∨ !s.bit Reg.QP_CTRL 0 then s
  else if s.busFree then s.runChain n
  else match s.groupGap with
    | some g => (s.setQp { s.qp with groups := heldGroups s.qp.groups g }).runChain n
    | none => s

/-- What an entry leaves when it ends: received words, DONECNT, and the partition's QP event (R382). -/
def State.entryEnd (s : State) (n : Nat) (e : QEnt) (words : List Nat) : State :=
  let got := (words.take e.count).map (fun w => w % 2 ^ e.wlen)
  let s := if e.dir = 1 then s.setQrx n ((s.qrx n ++ got).take 32) else s
  if e.irq then
    let s := s.incSat (Reg.QP_Q_DONECNT n) 0 8 1
    match s.qselGrant n with
    | some k => s.setEvp (k + 1) 0x400
    | none => s
  else s

/-- The entries of a chain end in order, each taking its received words. -/
def State.entriesEnd (s : State) (n : Nat) (words : List Nat) : List QEnt → State
  | [] => s
  | e :: t => (s.entryEnd n e words).entriesEnd n (if e.dir = 1 then words.drop e.count else words) t

/-- A line fill of the XIP window starts (R388): QSEL0 continues when the line follows the last one and its tag group, where it needs one, is held. -/
def State.startFill (s : State) (line : Nat) (sculls : List Nat) (demand : Bool) : State :=
  (s.setQp { s.qp with fill := some line, waiters := sculls, demand := demand, next := if s.qp.next = some line ∧ ((s.windowOf line).isNone = true ∨ s.qp.groups.contains (line / 16) = true) then s.qp.next else none }).showBus

/-- A chain goes before the next fill: an XIP transaction ended while it waited (R381). -/
def State.chainFirst (s : State) : Bool := s.qp.turn && s.bit Reg.QP_CTRL 0 && s.nextSelect.isSome

/-- When the bus is free and no chain goes first, the oldest waiting miss is filled (R381). -/
def State.nextMiss (s : State) : State :=
  match s.busFree && !s.chainFirst, s.qp.misses with
  | true, (_, line) :: _ =>
    let same := (s.qp.misses.filter (fun m => decide (m.2 = line))).map (fun m => m.1)
    (s.setQp { s.qp with misses := s.qp.misses.filter (fun m => decide (m.2 ≠ line)) }).startFill line same true
  | _, _ => s

/-- QP_CHAIN_END (R381, R382). -/
def doQpChainEnd (s : State) (received : List Word) : State :=
  match s.qp.chain with
  | none => s
  | some n =>
    let l := s.queue n
    let ch := frontChain l
    let s := s.entriesEnd n (received.map (fun w => w.toNat)) ch
    let s := (s.setQueue n (l.drop ch.length)).setBit (Reg.QP_Q_STAT n) 0 false
    (s.setQp { s.qp with chain := none }).showBus.nextMiss

/-- XIP_MISS (R388): one fill serves several misses on a line. -/
def doXipMiss (s : State) (sc addr : Nat) : State :=
  let line := addr % 2 ^ 28 / 256
  if !s.bit Reg.QP_CTRL 1 then s
  else if s.qp.lines.contains line then s.setQp { s.qp with lines := line :: s.qp.lines.filter (· ≠ line) }
  else if s.qp.fill = some line then s.setQp { s.qp with waiters := s.qp.waiters ++ [sc], demand := true }
  else (s.setQp { s.qp with misses := s.qp.misses ++ [(sc, line)] }).nextMiss

/-- An XIP transaction ended: a waiting chain goes next, else the oldest miss (R381). -/
def State.fillEnd (s : State) : State := (s.setQp { s.qp with turn := s.nextSelect.isSome }).showBus.nextMiss

/-- A line is delivered: held as the newest of 16, its tag group as the newest of 4; sequential continuation and reading ahead (R388). -/
def State.deliver (s : State) (line : Nat) (tagged : Bool) : State :=
  let g := line / 16
  let wasDemand := s.qp.demand
  let s := s.incSat Reg.QP_FILLCNT 0 16 1
  let s := s.setQp { s.qp with fill := none, waiters := [], demand := false, lines := (line :: s.qp.lines.filter (· ≠ line)).take 16, groups := if tagged then heldGroups s.qp.groups g else s.qp.groups, next := if s.bit Reg.QP_CTRL 2 && s.nextSelect.isNone then some (line + 1) else none }
  let s := s.fillEnd
  if wasDemand && s.bit Reg.QP_CTRL 3 && s.busFree && !s.chainFirst && !s.qp.lines.contains (line + 1) then s.startFill (line + 1) [] false else s

/-- XIP_INVALIDATE (R388): the prefetch buffer is cleared. -/
def doXipInvalidate (s : State) : State := s.setQp { s.qp with lines := [], groups := [], next := none }

/-- QP_SLAVE_FRAME (R386): accepted whole, or rejected whole, counted and logged with 1 length, 2 size, 3 FIFO. -/
def doQpSlaveFrame (s : State) (bits : Nat) (words : List Word) : State :=
  if !s.bit (Reg.QP_Q_CFG 3) 24 then s
  else
    let wlen := s.fld (Reg.QP_Q_ENTCTL 3) 8 5 + 1
    let n := bits / wlen
    let reason := if bits = 0 ∨ bits % wlen ≠ 0 then 1 else if 64 * wlen < bits then 2 else if 64 < s.qp.slave.length + n then 3 else 0
    if reason = 0 then
      let l := s.qp.slave ++ (words.take n).map (fun w => w.toNat % 2 ^ wlen)
      let s := (s.setQp { s.qp with slave := l }).setFld Reg.QP_SLVST 0 7 l.length
      (s.incSat Reg.QP_SLVST 8 16 1).wrN Reg.QP_SLVRX (l.headD 0)
    else
      let s := (s.incSat Reg.QP_SLVST 24 8 1).setBit Reg.QP_IRQ 1 true
      if s.camlanOn then
        match s.qselGrant 3 with
        | some k => s.logSK (k + 1) 0x1103 (u32 bits ++ u8 reason)
        | none => s.logS 0x1103 (u32 bits ++ u8 reason)
      else s

/-- A suspended partition's select: the entry in progress completes and its select rises; the rest and the receive FIFO are discarded (R385). -/
def State.flushQsel (s : State) (n : Nat) : State :=
  let l := if s.qp.chain = some n then (s.queue n).take 1 |>.map (fun e => { e with cont := false }) else []
  (s.setQueue n l).setQrx n []

/-! GPIO (R393) -/

/-- The pins a requester may reach: the Cox all, a tenant its grants; in slave mode pins 30 and 31 leave general use (R386). -/
def State.gpioMask (s : State) (rq : Requester) : Nat :=
  let all := match rq with
    | .cox => 2 ^ 32 - 1
    | .scull0 | .scull1 | .scull2 | .scull3 => if s.partOf rq = 0 then 0 else s.grant (s.partOf rq) .gpio
    | _ => 0
  if s.bit (Reg.QP_Q_CFG 3) 24 then all % 2 ^ 30 else all

/-- GPIO_SET (R393). -/
def doGpioSet (s : State) (rq : Requester) (pins : Word) : State := s.orReg Reg.GPIO_OUT (pins.toNat &&& s.gpioMask rq)

/-- GPIO_CLR (R393). -/
def doGpioClr (s : State) (rq : Requester) (pins : Word) : State := s.clrReg Reg.GPIO_OUT (pins.toNat &&& s.gpioMask rq)

/-- GPIO_EDGE (R393): the input level, an enabled edge, and the tenant's GPIO event. -/
def doGpioEdge (s : State) (pin : Nat) (level : Bool) : State :=
  if 32 ≤ pin ∨ (s.bit (Reg.QP_Q_CFG 3) 24 ∧ 30 ≤ pin) ∨ s.bit Reg.GPIO_IN pin = level then s
  else
    let s := s.setBit Reg.GPIO_IN pin level
    if s.bit (if level then Reg.GPIO_RISE else Reg.GPIO_FALL) pin then
      let s := s.setBit Reg.GPIO_EDGE pin true
      match (List.range 7).find? (fun k => s.granted (k + 1) .gpio pin) with
      | some k => s.setEvp (k + 1) 0x800
      | none => s
    else s

/-- A suspended partition's pins: outputs take their SAFE level where SAFEDIR is 1, and become inputs where it is 0 (R393). -/
def State.gpioSafe (s : State) (mask : Nat) : State :=
  (List.range 32).foldl (fun s p =>
    if getField mask p 1 = 1 ∧ s.bit Reg.GPIO_DIR p then
      (if s.bit Reg.GPIO_SAFEDIR p then s.setBit Reg.GPIO_OUT p (s.bit Reg.GPIO_SAFE p) else s.setBit Reg.GPIO_DIR p false)
    else s) s

def execQpPush (rq : Requester) (n : Nat) (s : State) := done (s.byRequester (doQpPush s rq n))
def execQpChainRun (n : Nat) (s : State) := done (doQpChainRun s n)
def execQpChainEnd (received : List Word) (s : State) := done (doQpChainEnd s received)
def execXipMiss (sc addr : Nat) (s : State) := done (doXipMiss s sc addr)
def execXipInvalidate (s : State) := done (s.byRequester (doXipInvalidate s))
def execQpSlaveFrame (bits : Nat) (words : List Word) (s : State) := done (doQpSlaveFrame s bits words)
def execGpioSet (rq : Requester) (pins : Word) (s : State) := done (s.byRequester (doGpioSet s rq pins))
def execGpioClr (rq : Requester) (pins : Word) (s : State) := done (s.byRequester (doGpioClr s rq pins))
def execGpioEdge (pin : Nat) (level : Bool) (s : State) := done (doGpioEdge s pin level)

end Sys2Proof.Machine
end

