-- ==== Sys2Proof/Machine/Partitions.lean ====
section
/-!
DEFINITION. Sculls and tenant partitions: monitor calls, events, slots, grants, faults, doorbells, verification, suspension and resume (04, R82 to R106, R390, R391).
-/

namespace Sys2Proof.Machine

/-! Access -/

def State.part (s : State) (k : Nat) : PartSt := Tab.get PartSt.init s.parts k
def State.setPart (s : State) (k : Nat) (p : PartSt) : State := { s with parts := Tab.put PartSt.init s.parts k p }
def State.scull (s : State) (sc : Nat) : ScullSt := Tab.get ScullSt.init s.sculls sc
def State.setScull (s : State) (sc : Nat) (x : ScullSt) : State := { s with sculls := Tab.put ScullSt.init s.sculls sc x }

/-- The context of partition k on Scull sc. -/
def State.ctx (s : State) (sc k : Nat) : Ctx := Tab.get Ctx.init s.ctxs (sc * 8 + k)
def State.setCtx (s : State) (sc k : Nat) (c : Ctx) : State := { s with ctxs := Tab.put Ctx.init s.ctxs (sc * 8 + k) c }

/-- States of a partition (Table 4-9). -/
abbrev pEmpty : Nat := 0
abbrev pVerifying : Nat := 1
abbrev pRunning : Nat := 2
abbrev pSuspended : Nat := 3

def State.partState (s : State) (k : Nat) : Nat := s.fld (Reg.PART_STATE (k - 1)) 0 2
def State.partCause (s : State) (k : Nat) : Nat := s.fld (Reg.PART_STATE (k - 1)) 8 8
def State.crabs (s : State) (k : Nat) : Nat := s.fld (Reg.PART_STATE (k - 1)) 16 2
def State.evp (s : State) (k : Nat) : Nat := s.fld (Reg.PART_EVP (k - 1)) 0 12

/-- The partition executing on a Scull: it holds the slot, has not yielded and does not wait. -/
def State.caller (s : State) (sc : Nat) : Option Nat :=
  let x := s.scull sc
  if x.slot.isSome ∧ 1 ≤ x.part ∧ x.part ≤ 7 ∧ !x.yielded ∧ (s.ctx sc x.part).wait.isNone then some x.part else none

/-- SCULLST of a Scull: the partition in the slot, and idle (R85). -/
def State.showScull (s : State) (sc : Nat) : State :=
  let x := s.scull sc
  (s.setFld Reg.PART_SCULLST (8 * sc) 3 (if x.slot.isSome then x.part else 0)).setBit Reg.PART_SCULLST (8 * sc + 3) (x.slot.isNone || x.yielded)

/-- The slot entry e of a bank of a Scull: start, length, partition, enabled (Table 4-13). -/
def slotIdx (bank sc e : Nat) : Nat := bank * 64 + sc * 16 + e

def State.bank (s : State) : Nat := s.fld Reg.PART_CTRL 9 1

/-- The partitions with an enabled slot on a Scull in the active bank. -/
def State.slotParts (s : State) (sc : Nat) : List Nat :=
  ((List.range 16).filter (fun e => s.bit (Reg.PART_SLOTB (slotIdx s.bank sc e)) 31)).map (fun e => s.fld (Reg.PART_SLOTB (slotIdx s.bank sc e)) 0 3)

/-! Suspension and resume (R105, R106) -/

/-- The partition's slots become idle on every Scull. -/
def State.idlePart (s : State) (k : Nat) : State :=
  (List.range 4).foldl (fun s sc =>
    if (s.scull sc).part = k ∧ (s.scull sc).slot.isSome then (s.setScull sc { s.scull sc with yielded := true, part := 0 }).showScull sc else s) s

/-- A partition is suspended with a cause (R105, Table 4-10). -/
def State.suspend (s : State) (k cause : Nat) : State :=
  let i := k - 1
  let con1 := s.granted k .misc 0
  let s := (s.setFld (Reg.PART_STATE i) 0 2 pSuspended).setFld (Reg.PART_STATE i) 8 8 cause
  let s := (s.idlePart k).freeHelmOf (0x20 + k) 5
  let s := (s.canDisable 0 (s.grant k .atx)).canDisable 2 (s.grant k .ctx)
  let s := [1, 2, 3].foldl (fun s n => if s.granted k .misc n then s.flushQsel n else s) s
  let s := s.gpioSafe (s.grant k .gpio)
  let s := if con1 then ({ s with con1 := { s.con1 with rx := [] } }).showCon 1 else s
  s.logSK k 0x0211 (u8 k)

/-- The quota of a partition: base and size in bytes. -/
def State.quotaOf (s : State) (k : Nat) : Nat × Nat :=
  (0x20000000 + s.fld (Reg.PART_QBASE (k - 1)) 12 10 * 4096, s.fld (Reg.PART_QSIZE (k - 1)) 12 10 * 4096)

/-- The quota is filled with zeros, the image's initialised data is copied into it, and every context begins at its entry point (R87, R106). -/
def State.initPart (s : State) (k : Nat) : State :=
  let (b, n) := s.quotaOf k
  let s := (s.clearMem b (b + n)).wrBytes (b + (s.part k).dataDst) (s.part k).data
  let s := (List.range 4).foldl (fun s sc => s.setCtx sc k Ctx.init) s
  let s := s.setPart k { s.part k with handler := 0, hmask := 0, masked := false }
  (s.setFld (Reg.PART_STATE (k - 1)) 16 2 0).setFld (Reg.PART_STATE (k - 1)) 0 2 pRunning

/-- Camlan loads a running partition's window into QP.WINk (R390). -/
def State.loadWindow (s : State) (k : Nat) : State :=
  let i := k - 1
  let s := (s.wrN (Reg.QP_WIN_BASE i) (s.rdN (Reg.PART_XIPBASE i))).wrN (Reg.QP_WIN_SIZE i) (s.rdN (Reg.PART_XIPSIZE i))
  (s.wrN (Reg.QP_WIN_VER i) (s.part k).version).setBit (Reg.QP_WIN_EN i) 0 true

/-- A verified partition starts: its rollback floor rises to the started VERSION (R102, R103). -/
def State.startPart (s : State) (k : Nat) : State :=
  let v := (s.part k).version
  let s := { s with nv := { s.nv with floors := Tab.put 0 s.nv.floors k (max v (Tab.get 0 s.nv.floors k)) } }
  let s := ((s.initPart k).setFld (Reg.PART_STATE (k - 1)) 8 8 0).loadWindow k
  s.logSK k 0x0401 (u8 k ++ u32 v)

/-- Tenants start in the life-cycle states of Table 5-6. -/
def State.tenantsRun (s : State) : Bool := decide (s.lcs ≠ lcsBlank) && decide (s.lcs ≠ lcsRetired)

/-- The partition whose image Camlan verifies now: they are taken one after another in partition order (R102). -/
def State.verifyTurn (s : State) : Option Nat :=
  ((List.range 7).map (· + 1)).find? (fun k => decide (s.partState k = pVerifying) && !(s.part k).verified)

/-- At a catch past the interval every verified partition still VERIFYING starts (R102), once every image is verified and so every sealing write is done (R391). (DEDUCED, log entry 161) -/
def State.startVerified (s : State) : State :=
  if s.rowing && s.tenantsRun && s.verifyTurn.isNone then
    ((List.range 7).map (· + 1)).foldl (fun s k => if s.partState k = pVerifying ∧ (s.part k).verified then s.startPart k else s) s
  else s

/-- A partition resumes: 0 by command, 1 automatically (R106). (DEDUCED, log entry 79) -/
def State.resumePart (s : State) (k how : Nat) : State :=
  (((s.initPart k).setFld (Reg.PART_STATE (k - 1)) 8 8 0).loadWindow k).logSK k 0x0404 (u8 k ++ u8 how)

/-- TENANT_CRAB_LIMIT (R56). -/
def doTenantCrabLimit (s : State) (k : Nat) : State :=
  if 1 ≤ k ∧ k ≤ 7 ∧ s.partState k = pRunning ∧ 3 ≤ s.crabs k then s.suspend k 0x01 else s

/-- AUTO_RESUME (R106): for causes 0x01 to 0x04, at most partition.autoresume_max times in 24 hours. -/
def doAutoResume (s : State) (k : Nat) : State :=
  let p := s.part k
  let l := within s.clock hours24 p.resumes
  if 1 ≤ k ∧ k ≤ 7 ∧ s.partState k = pSuspended ∧ 1 ≤ s.partCause k ∧ s.partCause k ≤ 4 ∧ s.parI .partitionAutoresume ≠ 0 ∧ l.length < s.parI .partitionAutoresumeMax then
    let s := (s.setPart k { p with resumes := l ++ [s.clock] }).setFld (Reg.PART_STATE (k - 1)) 24 8 (l.length + 1)
    s.resumePart k 1
  else s

/-! Monitor calls (R82, R83) -/

/-- MONITOR_YIELD: the slot ends cleanly, and the crab count is reset (R56). -/
def doMonitorYield (s : State) (sc : Nat) : State :=
  match s.caller sc with
  | some k =>
    let s := (s.setScull sc { s.scull sc with yielded := true }).setFld (Reg.PART_STATE (k - 1)) 16 2 0
    (s.setCtx sc k { s.ctx sc k with a0 := 0 }).showScull sc
  | none => s

/-- MONITOR_WAIT: returns at once when an event of the mask is pending, and clears it; else the context blocks. -/
def doMonitorWait (s : State) (sc mask : Nat) : State :=
  match s.caller sc with
  | some k =>
    let got := s.evp k &&& mask
    if got = 0 then s.setCtx sc k { s.ctx sc k with wait := some mask }
    else (s.clrReg (Reg.PART_EVP (k - 1)) got).setCtx sc k { s.ctx sc k with a0 := (got : Int) }
  | none => s

/-- Whether an address lies in the partition's image window or quota (R82). -/
def State.ownCode (s : State) (k a : Nat) : Bool :=
  let (b, n) := s.quotaOf k
  let xb := 0x30000000 + s.fld (Reg.PART_XIPBASE (k - 1)) 16 12 * 65536
  let xn := s.fld (Reg.PART_XIPSIZE (k - 1)) 16 12 * 65536
  (decide (b ≤ a) && decide (a < b + n)) || (decide (xb ≤ a) && decide (a < xb + xn))

/-- MONITOR_SETVEC: a handler, 4-byte aligned and in the partition's own image or quota; 0 disables. The handler, its mask and the masking until EVRET are held once per partition. (DESIGN CHOICE, log entry 132) -/
def doMonitorSetvec (s : State) (sc handler mask : Nat) : State :=
  match s.caller sc with
  | some k =>
    if handler = 0 then (s.setPart k { s.part k with handler := 0, hmask := 0 }).setCtx sc k { s.ctx sc k with a0 := 0 }
    else if handler % 4 = 0 ∧ s.ownCode k handler then
      (s.setPart k { s.part k with handler := handler, hmask := mask }).setCtx sc k { s.ctx sc k with a0 := 0 }
    else s.setCtx sc k { s.ctx sc k with a0 := -2 }
  | none => s

/-- MONITOR_EVRET: the interrupted context resumes, in its WAIT where it was blocked, and events are unmasked. Outside a handler the call changes nothing. (DESIGN CHOICE, log entry 133) -/
def doMonitorEvret (s : State) (sc : Nat) : State :=
  match s.caller sc with
  | some k =>
    let c := s.ctx sc k
    if c.inHandler then
      (s.setCtx sc k { c with inHandler := false, a0 := c.saved, a1 := c.saved1, a2 := c.saved2, a3 := c.saved3, wait := c.savedWait }).setPart k { s.part k with masked := false }
    else s
  | none => s

/-- MONITOR_INFO: Scull, slot index, stroke, microseconds left in the slot. -/
def doMonitorInfo (s : State) (sc us : Nat) : State :=
  match s.caller sc with
  | some k =>
    let x := s.scull sc
    s.setCtx sc k { s.ctx sc k with a0 := (sc : Int), a1 := x.slot.getD 0, a2 := s.strokeNo, a3 := x.start + x.len - us }
  | none => s

/-- MONITOR_LOG (R82, R349): the partition's own book, SOURCE 0x20 + k, severity at most 3, TENANT set. -/
def doMonitorLog (s : State) (sc code sev a2 a3 : Nat) : State :=
  match s.caller sc with
  | some k =>
    if code < 0x8000 ∨ 0xFFFE < code then s.setCtx sc k { s.ctx sc k with a0 := -2 }
    else if !s.granted k .misc 4 then s.setCtx sc k { s.ctx sc k with a0 := -3 }
    else
      let (r, s) := s.submit (s.unitOf (1 + k) code (0x20 + k) (min 3 sev + 32) (u32 a2 ++ u32 a3))
      s.setCtx sc k { s.ctx sc k with a0 := if r = subQueued ∨ r = subSuppressed then 0 else -3 }
  | none => s

/-- MONITOR_UNKNOWN_CALL: returns −1. -/
def doMonitorUnknownCall (s : State) (sc call : Nat) : State :=
  match s.caller sc with
  | some k => if 6 ≤ call then s.setCtx sc k { s.ctx sc k with a0 := -1 } else s
  | none => s

/-- EVENT_DELIVERY (R83): a waiting context takes its events; else the handler is entered with the bits, which are cleared and masked until EVRET. An event that both want ends the WAIT. (DESIGN CHOICE, log entry 133) -/
def doEventDelivery (s : State) (sc : Nat) : State :=
  let x := s.scull sc
  let k := x.part
  if x.slot.isNone ∨ k = 0 ∨ 7 < k ∨ x.yielded then s
  else
    let c := s.ctx sc k
    let p := s.part k
    let waited := s.evp k &&& c.wait.getD 0
    let bits := s.evp k &&& p.hmask
    if waited ≠ 0 then (s.clrReg (Reg.PART_EVP (k - 1)) waited).setCtx sc k { c with wait := none, a0 := (waited : Int) }
    else if p.handler ≠ 0 ∧ !p.masked ∧ bits ≠ 0 then
      let s := (s.clrReg (Reg.PART_EVP (k - 1)) bits).setPart k { p with masked := true }
      s.setCtx sc k { c with inHandler := true, saved := c.a0, saved1 := c.a1, saved2 := c.a2, saved3 := c.a3, savedWait := c.wait, wait := none, a0 := (bits : Int) }
    else s

/-- EVENT_SET: PART.EVSET sets event bits of a partition. -/
def doEventSet (s : State) (value : Word) : State :=
  let k := getField value.toNat 0 3
  if k = 0 then s else s.setEvp k (getField value.toNat 16 12)

/-! Slots (R84 to R86, R56) -/

/-- Grant names as numbers: 0 to 63 cana.rx, 64 to 95 cana.tx, 128 to 191 canc.rx, 192 to 223 canc.tx, 256 to 287 gpio, 288 con1, 289 to 291 qsel1 to qsel3, 292 log (DESIGN CHOICE, log entry 14). -/
def grantBits (l : List Nat) (lo n : Nat) : Nat :=
  (List.range n).foldl (fun m b => if l.contains (lo + b) then m + 2 ^ b else m) 0

/-- Camlan writes the confirmed grants into a partition's page (R90); they take effect at its next slot start. -/
def State.loadGrants (s : State) (k : Nat) : State :=
  let l := match Settings.get s.nv.confirmed ⟨.partGrants, k⟩ with | .names l => l | _ => []
  let i := k - 1
  let s := ((s.wrN (Reg.PART_GR_ARX0 i) (grantBits l 0 32)).wrN (Reg.PART_GR_ARX1 i) (grantBits l 32 32)).wrN (Reg.PART_GR_ATX i) (grantBits l 64 32)
  let s := ((s.wrN (Reg.PART_GR_CRX0 i) (grantBits l 128 32)).wrN (Reg.PART_GR_CRX1 i) (grantBits l 160 32)).wrN (Reg.PART_GR_CTX i) (grantBits l 192 32)
  let misc := grantBits l 288 1 + 2 * grantBits l 289 3 + 16 * grantBits l 292 1
  (s.wrN (Reg.PART_GR_GPIO i) (grantBits l 256 32)).wrN (Reg.PART_GR_MISC i) misc

/-- A grant register of a partition's page. -/
def grantAddr (k : Nat) : GrantReg → Nat
  | .arx0 => Reg.PART_GR_ARX0 (k - 1) | .arx1 => Reg.PART_GR_ARX1 (k - 1) | .atx => Reg.PART_GR_ATX (k - 1)
  | .crx0 => Reg.PART_GR_CRX0 (k - 1) | .crx1 => Reg.PART_GR_CRX1 (k - 1) | .ctx => Reg.PART_GR_CTX (k - 1)
  | .gpio => Reg.PART_GR_GPIO (k - 1) | .misc => Reg.PART_GR_MISC (k - 1)

def grantRegs : List GrantReg := [.arx0, .arx1, .atx, .crx0, .crx1, .ctx, .gpio, .misc]

/-- Grant bits that more than one partition may hold: LOG, the window of each partition's own book. -/
def grantShared : GrantReg → Nat
  | .misc => 0x10
  | _ => 0

/-- The grants of partition k's page take effect (R90); what another partition still held of them ends, so that one object is granted to at most one. (DESIGN CHOICE, log entry 134) -/
def State.takeGrants (s : State) (k : Nat) : State :=
  let page (r : GrantReg) : Nat := s.rdN (grantAddr k r)
  let own := grantRegs.map (fun r => (GrantReg.idx r, page r))
  let less (j : Nat) : List (Nat × Nat) := grantRegs.map (fun r =>
    (GrantReg.idx r, s.grant j r - (s.grant j r &&& (page r - (page r &&& grantShared r)))))
  ((List.range 7).map (· + 1)).foldl (fun s j => s.setPart j { s.part j with grants := if j = k then own else less j }) s

/-- The PMP of a Scull for a partition's slot (Table 4-3); entries 9 to 15 are off. -/
def State.pmpOf (s : State) (k : Nat) : List PmpEntry :=
  let (b, n) := s.quotaOf k
  let xb := 0x30000000 + s.fld (Reg.PART_XIPBASE (k - 1)) 16 12 * 65536
  let xn := s.fld (Reg.PART_XIPSIZE (k - 1)) 16 12 * 65536
  [PmpEntry.off b, ⟨.tor, b + n, 0, true, true, true⟩, PmpEntry.off xb, ⟨.tor, xb + xn, 0, true, false, true⟩,
    ⟨.napot, 0x203E0000, 0x10000, true, false, false⟩, ⟨.napot, 0x203F7000, 64, true, false, false⟩,
    ⟨.napot, mailbox k, 0x800, true, true, false⟩, ⟨.napot, mailbox k + 0x800, 0x800, true, false, false⟩,
    ⟨.napot, 0x40000000, 0x40000, true, true, false⟩] ++ List.replicate 7 (PmpEntry.off 0)

/-- The partition switch of a Scull at a slot start (R85): the data cache written back and both caches invalidated, the PMP programmed, the partition number written. -/
def State.switchTo (s : State) (sc k idx start len : Nat) : State :=
  (s.setScull sc { s.scull sc with slot := some idx, part := k, yielded := false, start := start, len := len, pmp := s.pmpOf k, icache := [], dcache := [] }).showScull sc

/-- The requester of a tenant on a Scull. -/
def scullRq (sc : Nat) : Requester := match sc with | 0 => .scull0 | 1 => .scull1 | 2 => .scull2 | _ => .scull3

/-- At a slot switch the monitor zeroes the Scull's CAN selections and buffers (R296). -/
def State.zeroWindows (s : State) (sc : Nat) : State :=
  let rq := scullRq sc
  [0, 1, 2].foldl (fun s x =>
    (List.range 18).foldl (fun s i => s.wr (rqReg rq (Reg.CAN_WBUF x i)) 0) (s.wr (rqReg rq (Reg.CAN_WSEL x)) 0)) s

/-- SLOT_START (R85, R90): the entry of the active bank begins on a started Scull; a partition that does not run leaves the slot idle. -/
def doSlotStart (s : State) (sc idx : Nat) : State :=
  let i := slotIdx s.bank sc idx
  if 4 ≤ sc ∨ 16 ≤ idx ∨ !s.bit (Reg.PART_SLOTB i) 31 ∨ !s.bit Reg.PART_CTRL sc ∨ s.bit Reg.PART_SCULLST (8 * sc + 4) then s
  else
    let k := s.fld (Reg.PART_SLOTB i) 0 3
    let start := s.fld (Reg.PART_SLOTA i) 0 15
    let len := s.fld (Reg.PART_SLOTA i) 16 15
    if k = 0 ∨ s.partState k ≠ pRunning then s
    else
      let l := s.nv.confirmed.filter (fun e => decide (e.1 = (PKey.mk .partGrants k)))
      let s : State := { s with inForce := l ++ s.inForce.filter (fun (e : PKey × PVal) => decide (e.1 ≠ (PKey.mk .partGrants k))) }
      let s := (s.takeGrants k).zeroWindows sc
      let s := s.switchTo sc k idx start len
      if (s.ctx sc k).wait.isSome ∨ ((s.part k).handler ≠ 0 ∧ !(s.part k).masked) then doEventDelivery s sc else s

/-- A Scull whose slot has ended is idle under the monitor (R85). -/
def ScullSt.ended (x : ScullSt) : ScullSt := { x with slot := none, part := 0, yielded := false, start := 0, len := 0 }

/-- SLOT_END (R56, R85): without a yield, and not blocked in WAIT, the partition is charged one tenant crab. -/
def doSlotEnd (s : State) (sc : Nat) : State :=
  let x := s.scull sc
  match x.slot with
  | none => s
  | some idx =>
    let k := x.part
    let clean := x.yielded || k = 0 || (s.ctx sc k).wait.isSome
    let s := (s.setScull sc x.ended).showScull sc
    if k = 0 then s
    else if clean then s.setFld (Reg.PART_STATE (k - 1)) 16 2 0
    else
      let n := min 3 (s.crabs k + 1)
      let s := (s.setFld (Reg.PART_STATE (k - 1)) 16 2 n).setBit Reg.PART_IRQ (8 + k) true
      s.logSK k 0x0210 (u8 k ++ u8 idx ++ u8 n)

/-- SLOT_SWAP_REQUEST (R86). -/
def doSlotSwapRequest (s : State) : State := { s with stk := { s.stk with swapReq := true } }

/-- The banks exchange at the catch that begins a watch (R86). -/
def State.swapBanks (s : State) : State :=
  if s.stk.swapReq then
    let b := 1 - s.bank
    let s := { (s.setFld Reg.PART_CTRL 9 1 b) with stk := { s.stk with swapReq := false } }
    s.logS 0x0407 (u8 b)
  else s

/-- Camlan writes the slots in force into the inactive bank and asks for the exchange (R86). (DEDUCED, log entry 120) -/
def State.writeSlots (s : State) (settings : List (PKey × PVal)) : State :=
  let b := 1 - s.bank
  let entries : List (Nat × Nat × Nat × Nat) := ((List.range 7).map (· + 1)).flatMap (fun k =>
    match Settings.get settings ⟨.partSlots, k⟩ with
    | .slots l => l.map (fun e => (e.1, k, e.2.1, e.2.2))
    | _ => [])
  let s := (List.range 64).foldl (fun s i => (s.wrN (Reg.PART_SLOTA (b * 64 + i)) 0).wrN (Reg.PART_SLOTB (b * 64 + i)) 0) s
  let s := (List.range 4).foldl (fun s sc =>
    let l := (entries.filter (fun e => decide (e.1 = sc))).take 16
    ((List.range l.length).zip l).foldl (fun (s : State) (e : Nat × (Nat × Nat × Nat × Nat)) =>
      let i := slotIdx b sc e.1
      (s.wrN (Reg.PART_SLOTA i) (e.2.2.2.1 + e.2.2.2.2 * 65536)).wrN (Reg.PART_SLOTB i) (e.2.2.1 + 2 ^ 31)) s) s
  doSlotSwapRequest s

/-- SCULL_ENABLE (R102): writing 0 has no effect. -/
def doScullEnable (s : State) (mask : Nat) : State := s.orReg Reg.PART_CTRL (mask % 16)

/-! Grants (R89, R90) -/

/-- Grant bits that belong to Camlan: the CAN objects 0 to 7 (R89). -/
def grantCamlan : GrantReg → Nat
  | .arx0 | .atx | .crx0 | .ctx => 0xFF
  | _ => 0

/-- The bits a grant register has; a write to the others has no effect (R8, Table 4-13). -/
def grantBitsOf : GrantReg → Nat
  | .misc => 0x1F
  | _ => 2 ^ 32 - 1

/-- GRANT_WRITE (R90): a write naming a bit of another partition, or one of Camlan's, is ignored and sets GERR; the LOG window is each partition's own. The page shows the write; it takes effect at the partition's next slot start. -/
def doGrantWrite (s : State) (k : Nat) (reg : GrantReg) (value : Word) : State :=
  if k = 0 ∨ 7 < k then s
  else
    let v := value.toNat &&& grantBitsOf reg
    let others := ((List.range 7).map (· + 1)).foldl (fun m j => if j = k then m else m ||| s.rdN (grantAddr j reg)) 0
    let bad := (v &&& grantCamlan reg) ||| (v &&& (others - (others &&& grantShared reg)))
    if bad ≠ 0 then s.setBit Reg.PART_CTRL 10 true else s.wrN (grantAddr k reg) v

/-! Faults (R91 to R94) -/

/-- A bus error recorded in SYS, unless one stands there (R21, R25). -/
def State.busRecord (s : State) (rq : Requester) (write : Bool) (addr : Nat) : State :=
  if s.bit Reg.SYS_BESTAT 8 then s
  else (s.wrN Reg.SYS_BEADDR addr).wrN Reg.SYS_BESTAT (Requester.idx rq + s.slotOf rq * 16 + (if write then 128 else 0) + 256)

/-- A bus error of the Cox is recorded, and is a Camlan fault: easy with cause 0x02 (R21). -/
def State.coxBusError (s : State) (write : Bool) (addr : Nat) : State :=
  let s := s.busRecord .cox write addr
  if s.camlanOn then s.easy 0x02 else s

/-- 0x0403 and the suspension (R92). -/
def State.partFault (s : State) (k cause mcause mepc mtval : Nat) : State :=
  (s.logSK k 0x0403 (u8 k ++ u8 cause ++ u32 mcause ++ u32 mepc ++ u16 mtval)).suspend k cause

/-- The record of the first refused access (R91). -/
def State.refusedRecord (s : State) (sc k : Nat) (filter write : Bool) (addr : Nat) : State :=
  let s := s.setBit Reg.PART_IRQ 16 true
  if s.bit Reg.PART_RSTAT 8 then s
  else (s.wrN Reg.PART_RADDR addr).wrN Reg.PART_RSTAT (k + sc % 4 * 16 + (if write then 64 else 0) + (if filter then 128 else 0) + 256)

/-- The bits of a register that a tenant's grants let it reach (R23, Table 13-12, Table 17-4, Table 17-5). -/
def State.tenantMask (s : State) (rq : Requester) (a : Nat) : Nat :=
  let all := 2 ^ 32 - 1
  let k := s.partOf rq
  let off := a % 4096
  if a / 4096 = 0x40014 ∨ a / 4096 = 0x40016 then
    let x := (a / 4096 - 0x40014) / 2
    let r0 := s.grant k (if x = 0 then .arx0 else .crx0)
    let r1 := s.grant k (if x = 0 then .arx1 else .crx1)
    let tx := s.grant k (if x = 0 then .atx else .ctx)
    if off = 0x080 ∨ off = 0x088 ∨ off = 0x090 then r0
    else if off = 0x084 ∨ off = 0x08C ∨ off = 0x094 then r1
    else if off = 0x098 ∨ off = 0x09C ∨ off = 0x0A0 ∨ off = 0x0A4 then tx
    else if off = 0x0C0 ∨ off = 0x0C4 ∨ (0x100 ≤ off ∧ off ≤ 0x147) then all
    else if 0x200 ≤ off ∧ off < 0x280 then (if getField tx ((off - 0x200) / 4) 1 = 1 then all else 0)
    else 0
  else if a / 4096 = 0x4001C then (if 0x140 ≤ off ∧ off < 0x200 ∧ s.mayQsel rq ((off - 0x100) / 0x40) then all else 0)
  else if a / 4096 = 0x4001D then (if off ≤ 0x1C then s.gpioMask rq else 0)
  else all

/-- The bits of a register that a requester reaches; in slave mode pins 30 and 31 leave general use (R386). -/
def State.reachMask (s : State) (rq : Requester) (a : Nat) : Nat :=
  match rq with
  | .cox => if a / 4096 = 0x4001D then s.gpioMask .cox else 2 ^ 32 - 1
  | .monitor0 | .monitor1 | .monitor2 | .monitor3 => 2 ^ 32 - 1
  | _ => s.tenantMask rq a

/-- Whether a PMP entry matches an address; a TOR region begins at the address of the entry before it (R88). -/
def pmpMatches (l : List PmpEntry) (i a : Nat) : Bool :=
  let e := l.getD i (PmpEntry.off 0)
  match e.mode with
  | .off => false
  | .tor => decide ((l.getD (i - 1) (PmpEntry.off 0)).addr ≤ a) && decide (a < e.addr)
  | .napot => decide (e.addr ≤ a) && decide (a < e.addr + e.size)

/-- What an entry permits. -/
def PmpEntry.permits (e : PmpEntry) : Access → Bool
  | .fetch => e.x
  | .load => e.r
  | .store => e.w
  | .amo => e.r && e.w

/-- Whether a Scull's PMP permits a user-mode access (R88): the first entry that matches decides, and where none matches the access is refused. -/
def State.pmpPermits (s : State) (sc : Nat) (acc : Access) (a : Nat) : Bool :=
  let l := (s.scull sc).pmp
  match (List.range 16).find? (fun i => pmpMatches l i a) with
  | some i => (l.getD i (PmpEntry.off 0)).permits acc
  | none => false

/-- A write, for the records of refused accesses and bus errors. -/
def Access.isWrite : Access → Bool
  | .store | .amo => true
  | _ => false

/-- The cause of an access fault: 1 fetch, 5 load, 7 store or AMO (R92; PRESUMED, log entry 135). -/
def Access.mcause : Access → Nat
  | .fetch => 1
  | .load => 5
  | .store | .amo => 7

/-- Whether the grant filter admits a user-mode access to the peripheral region (R89). -/
def State.filterAdmits (s : State) (sc : Nat) (write : Bool) (a : Nat) : Bool :=
  let rq := scullRq sc
  (if write then s.mayWrite rq a else s.mayRead rq a) && decide (s.reachMask rq (a - a % 4) ≠ 0)

/-- The tenant quota space (Table 1-3). -/
def inQuotaSpace (a : Nat) : Bool := decide (0x20000000 ≤ a) && decide (a ≤ 0x203DFFFF)

/-- An admitted access leaves its line in a cache, which holds the quota space and the XIP window only (R80); which line gives way is not stated: the model drops the least recently used (DESIGN CHOICE, log entry 136). -/
def State.cacheLine (s : State) (sc : Nat) (acc : Access) (a : Nat) : State :=
  if inQuotaSpace a || (decide (0x30000000 ≤ a) && decide (a ≤ 0x3FFFFFFF)) then
    let x := s.scull sc
    let put (l : List Nat) : List Nat := (a / 32 :: l.filter (fun n => decide (n ≠ a / 32))).take 512
    s.setScull sc (if acc = .fetch then { x with icache := put x.icache } else { x with dcache := put x.dcache })
  else s

/-- `misa` of a Scull: RV32 with A, C, F, I, M and U (R79). -/
abbrev scullMisa : Nat := 0x40101125

/-- The CSRs a user-mode access may reach (R79, R81): fflags, frm and fcsr; `cycle` and `instret` with their high halves, to read, where `mcounteren` permits them. -/
def State.userCsr (s : State) (sc num : Nat) (write : Bool) : Bool :=
  if num = 1 ∨ num = 2 ∨ num = 3 then true
  else !write && decide (num = 0xC00 ∨ num = 0xC01 ∨ num = 0xC02 ∨ num = 0xC80 ∨ num = 0xC81 ∨ num = 0xC82) && decide (getField (s.scull sc).mcounteren (num % 128) 1 = 1)

/-- An access of a tenant that the PMP and the filter judge (R80, R88 to R92): a refused one never reaches its target; an AMO or LR/SC outside the quota space is a store access fault. -/
def State.tenantAccess (s : State) (sc k : Nat) (acc : Access) (a mepc : Nat) : State :=
  if !s.pmpPermits sc acc a then (s.refusedRecord sc k false (Access.isWrite acc) a).partFault k 0x02 (Access.mcause acc) mepc a
  else if decide (acc = .amo) && !inQuotaSpace a then s.partFault k 0x02 7 mepc a
  else if decide (0x40000000 ≤ a) && !s.filterAdmits sc (Access.isWrite acc) a then (s.refusedRecord sc k true (Access.isWrite acc) a).partFault k 0x02 (Access.mcause acc) mepc a
  else s.cacheLine sc acc a

/-- The partition that a Scull executes, none outside a slot of one that runs. -/
def State.tenantOn (s : State) (sc : Nat) : Option Nat :=
  let x := s.scull sc
  if x.slot.isNone ∨ x.part = 0 ∨ 7 < x.part ∨ s.partState x.part ≠ pRunning then none else some x.part

/-- A bus error of a tenant access (R21, R91); where the manual's event brings no mepc a free value stands (DESIGN CHOICE, log entry 1). -/
def State.tenantBusError (s : State) (sc : Nat) (write : Bool) (addr : Nat) : State :=
  match s.tenantOn sc with
  | none => s
  | some k =>
    let (pc, s) := (s.busRecord (scullRq sc) write addr).free
    s.partFault k 0x02 (if write then 7 else 5) pc addr

/-- PARTITION_FAULT (R79 to R81, R91 to R93): an ECALL and whatever the PMP, the filter and the CSR rights admit are no fault, nor is a word read without a fatal class. -/
def doPartitionFault (s : State) (sc : Nat) (why : UserFault) : State :=
  match s.tenantOn sc with
  | none => s
  | some k =>
    match why with
    | .access acc addr mepc => s.tenantAccess sc k acc addr mepc
    | .csr num write mepc mtval => if s.userCsr sc num write then s else s.partFault k 0x03 2 mepc mtval
    | .exception mcause mepc mtval => if mcause = 8 then s else s.partFault k (if mcause = 1 ∨ mcause = 5 ∨ mcause = 7 then 0x02 else 0x03) mcause mepc mtval
    | .memory acc addr data check mepc =>
      match memOf addr with
      | some m => if (eccClass m (wordIndex m addr) data check).fatal then s.partFault k 0x04 (Access.mcause acc) mepc addr else s
      | none => s

/-- SCULL_FAULT (R94): the Scull halts, and every partition with a slot on it is suspended with cause 0x05. (DEDUCED, log entry 80) -/
def doScullFault (s : State) (sc mcause : Nat) : State :=
  if 4 ≤ sc ∨ s.bit Reg.PART_SCULLST (8 * sc + 4) then s
  else
    let s := (s.setBit Reg.PART_SCULLST (8 * sc + 4) true).logS 0x0406 (u8 sc ++ u32 mcause)
    ((List.range 7).map (· + 1)).foldl (fun s k =>
      if !(s.slotParts sc).contains k then s
      else if s.partState k = pRunning ∨ s.partState k = pVerifying then s.suspend k 0x05
      else if s.partState k = pSuspended ∧ s.partCause k ≠ 6 then s.setFld (Reg.PART_STATE (k - 1)) 8 8 0x05
      else s) s

/-! The order mailbox (R97, R98) -/

/-- The order latch of a partition. -/
def latch (k : Nat) : Nat := 0x203F8000 + (k - 1) * 0x200

/-- One order entry of the mailbox enters the set with the doorbell's stamp. -/
def State.placeEntry (s : State) (k e : Nat) : State :=
  let a := mailbox k + 0x10 + e * 16
  let s := s.wrBytes (latch k + e * 16) (s.rdBytes a 16)
  s.placeOrder (0x20 + k) (partRank k) (s.ld a 1) (s.ld (a + 1) 1) (signed 32 (s.ld (a + 4) 4)) (s.ld (a + 8) 4) s.now (.mailbox k e)

/-- DOORBELL (R97, R98): the entries are stamped and copied; a bad count, or a second doorbell of the set, is LOST. (DEDUCED, log entry 113) -/
def doDoorbell (s : State) (k : Nat) (value : Word) (us : Nat) : State :=
  if k = 0 ∨ 7 < k ∨ s.partState k ≠ pRunning then s
  else
    let s := (s.atUs us).st (mailbox k) 4 value.toNat
    let n := value.toNat % 64
    let i := k - 1
    if n = 0 ∨ 32 < n then s.setBit (Reg.PART_DBSTAT i) 1 true
    else if (s.part k).bell.isSome then (s.setBit (Reg.PART_DBSTAT i) 1 true).logIn (1 + k) 0x0405 0 (u8 k ++ u32 s.strokeNo)
    else
      let s := s.setPart k { s.part k with bell := some s.now }
      let s := (s.wrN (Reg.PART_DBSTAMP i) (s.now % 2 ^ 32)).setFld (Reg.PART_DBSTAT i) 8 6 n
      let s := (s.setBit (Reg.PART_DBSTAT i) 0 true).setBit Reg.PART_IRQ k true
      (List.range n).foldl (fun s e => s.placeEntry k e) s

/-- DOORBELL_COPY_DONE (R97). -/
def doDoorbellCopyDone (s : State) (k : Nat) : State :=
  if k = 0 ∨ 7 < k then s else s.setBit (Reg.PART_DBSTAT (k - 1)) 0 false

/-! Verification (R102, R104, R391) -/

/-- Sculls on which a partition holds a slot, as a mask. -/
def State.slotMask (s : State) (k : Nat) : Nat :=
  match s.par .partSlots k with
  | .slots l => (List.range 4).foldl (fun m sc => if l.any (fun e => decide (e.1 = sc)) then m + 2 ^ sc else m) 0
  | _ => 0

/-- The header of a tenant image (Table 4-8). -/
structure ImageHeader where
  magic : Nat
  fmt : Nat
  part : Nat
  ctxMask : Nat
  version : Nat
  size : Nat
  entry : List Nat
  stack : List Nat
  dataSrc : Nat
  dataDst : Nat
  dataSize : Nat
  bssSize : Nat
  quotaMin : Nat
  pubkey : List Byte
  signature : List Byte
  deriving DecidableEq, Repr

/-- Bytes of an image from an offset. -/
def slice (l : List Byte) (off n : Nat) : List Byte := (l.drop off).take n

/-- The header at the start of an image (R3, Table 4-8). -/
def imageHeader (l : List Byte) : ImageHeader :=
  let n (off w : Nat) : Nat := leNat (slice l off w)
  { magic := n 0 4, fmt := n 4 2, part := n 6 1, ctxMask := n 7 1, version := n 8 4, size := n 0xC 4,
    entry := (List.range 4).map (fun i => n (0x10 + 4 * i) 4), stack := (List.range 4).map (fun i => n (0x20 + 4 * i) 4),
    dataSrc := n 0x30 4, dataDst := n 0x34 4, dataSize := n 0x38 4, bssSize := n 0x3C 4, quotaMin := n 0x40 4,
    pubkey := slice l 0x80 64, signature := slice l 0xC0 64 }

/-- The signed digest of an image (R101): header bytes 0x000 to 0x0BF, then image bytes 0x100 to IMGSIZE − 1. -/
def imageDigest (l : List Byte) : List Byte :=
  Config.sha256 (l.take 0xC0 ++ slice l 0x100 ((imageHeader l).size - 0x100))

/-- The key hash enrolled in slot k (R103). -/
def State.enrolled (s : State) (k : Nat) : List Byte := match s.par .partKeyhash k with | .table b => b | _ => []

/-- The failed check of R102, 1 to 7 in its order; 0 when every one holds. -/
def State.imageCheck (s : State) (k : Nat) (image : List Byte) : Nat :=
  let h := imageHeader image
  let quota := (s.quotaOf k).2
  if h.magic ≠ 0x54504E52 ∨ h.fmt ≠ 1 then 1
  else if h.part ≠ k then 2
  else if (h.ctxMask &&& s.slotMask k) ≠ s.slotMask k then 3
  else if h.version < Tab.get 0 s.nv.floors k then 4
  else if quota < h.quotaMin ∨ quota < h.dataDst + h.dataSize + h.bssSize then 5
  else if Config.sha256 h.pubkey ≠ s.enrolled k then 6
  else if !Config.ecdsaVerify h.pubkey (imageDigest image) h.signature then 7
  else 0

/-- What a verified image gives its partition: version, entry points, stacks, contexts and initialised data (Table 4-8, R87). -/
def PartSt.withImage (p : PartSt) (image : List Byte) : PartSt :=
  let h := imageHeader image
  { p with
    verified := true, version := h.version, entry := h.entry, stack := h.stack, ctxMask := h.ctxMask,
    data := slice image h.dataSrc h.dataSize, dataDst := h.dataDst }

/-- TENANT_IMAGE_VERIFY (R102, R104, R391): a refused image suspends with cause 0x06; a valid one is sealed when the tag header found at TBASE is missing, invalid or stale. -/
def doTenantImageVerify (s : State) (k : Nat) (image header : List Byte) : State :=
  if s.verifyTurn ≠ some k then s
  else
    let r := s.imageCheck k image
    if r ≠ 0 then (s.logS 0x0402 (u8 k ++ u8 r)).suspend k 0x06
    else
      let h := imageHeader image
      let s := s.setPart k ((s.part k).withImage image)
      let want := sealHeader (s.sealKey k) k h.version h.size (imageDigest image)
      if header = want then s
      else
        let area := tagArea (s.sealKey k) want (s.rdN (Reg.PART_XIPBASE (k - 1))) h.version image (h.size / 256)
        (s.setPart k { s.part k with sealed := area }).logS 0x1102 (u8 k ++ u32 h.version ++ u32 (h.size / 256))

/-- At Camlan's start every configured partition enters VERIFYING, the others are EMPTY (R104). -/
def State.beginVerify (s : State) : State :=
  ((List.range 7).map (· + 1)).foldl (fun s k =>
    let has := decide (s.par .partKeyhash k ≠ .absent) && decide (s.slotMask k ≠ 0) && s.tenantsRun
    s.setFld (Reg.PART_STATE (k - 1)) 0 2 (if has then pVerifying else pEmpty)) s

/-- Whether a line of partition k's window carries its tag (R389, R390). -/
def State.tagOk (s : State) (k line : Nat) (data tag : List Byte) : Bool :=
  decide (tag = lineTag (s.sealKey k) (line * 256) (s.rdN (Reg.QP_WIN_VER (k - 1))) data)

/-- XIP_LINE_DONE (R388, R390): a line passes on the check of its first or its repeated read, each a line and its stored tag; a final failure ends the accesses in a bus error and suspends the partition, for a line read ahead too. (DEDUCED, log entry 160) -/
def doXipLineDone (s : State) (data tag data2 tag2 : List Byte) : State :=
  match s.qp.fill with
  | none => s
  | some line =>
    if s.qp.chain.isSome then s else
    match s.windowOf line with
    | none => s.deliver line false
    | some i =>
      if s.tagOk (i + 1) line data tag then s.deliver line true
      else
        let s := s.incSat Reg.QP_TAGFAIL 0 16 1
        if s.tagOk (i + 1) line data2 tag2 then s.deliver line true
        else
          let k := i + 1
          let s := ((s.incSat Reg.QP_TAGFAIL 16 16 1).wrN Reg.QP_TAGADDR (line * 256)).setBit Reg.QP_IRQ 0 true
          let s := s.qp.waiters.foldl (fun s sc => s.busRecord (scullRq sc) false (0x30000000 + line * 256)) s
          let s := (s.setQp { s.qp with fill := none, waiters := [], demand := false, next := none }).fillEnd
          let s := s.logSK k 0x1101 (u8 k ++ u32 (line * 256))
          if s.partState k = pRunning then s.suspend k 0x02 else s

def execTenantCrabLimit (k : Nat) (s : State) := done (doTenantCrabLimit s k)
def execAutoResume (k : Nat) (s : State) := done (doAutoResume s k)
def execMonitorYield (sc : Nat) (s : State) := done (doMonitorYield s sc)
def execMonitorWait (sc mask : Nat) (s : State) := done (doMonitorWait s sc mask)
def execMonitorSetvec (sc handler mask : Nat) (s : State) := done (doMonitorSetvec s sc handler mask)
def execMonitorEvret (sc : Nat) (s : State) := done (doMonitorEvret s sc)
def execMonitorInfo (sc us : Nat) (s : State) := done (doMonitorInfo s sc us)
def execMonitorLog (sc code sev a2 a3 : Nat) (s : State) := done (doMonitorLog s sc code sev a2 a3)
def execMonitorUnknownCall (sc call : Nat) (s : State) := done (doMonitorUnknownCall s sc call)
def execEventDelivery (sc : Nat) (s : State) := done (doEventDelivery s sc)
def execEventSet (value : Word) (s : State) := done (s.byRequester (doEventSet s value))
def execSlotStart (sc idx : Nat) (s : State) := done (doSlotStart s sc idx)
def execSlotEnd (sc : Nat) (s : State) := done (doSlotEnd s sc)
def execSlotSwapRequest (s : State) := done (s.byRequester (doSlotSwapRequest s))
def execScullEnable (mask : Nat) (s : State) := done (s.byRequester (doScullEnable s mask))
def execGrantWrite (k : Nat) (reg : GrantReg) (value : Word) (s : State) := done (s.byRequester (doGrantWrite s k reg value))
def execPartitionFault (sc : Nat) (why : UserFault) (s : State) := done (doPartitionFault s sc why)
def execScullFault (sc mcause : Nat) (s : State) := done (doScullFault s sc mcause)
def execDoorbell (k : Nat) (value : Word) (us : Nat) (s : State) := done (doDoorbell s k value us)
def execDoorbellCopyDone (k : Nat) (s : State) := done (doDoorbellCopyDone s k)
def execTenantImageVerify (k : Nat) (image header : List Byte) (s : State) := done (doTenantImageVerify s k image header)
def execXipLineDone (data tag data2 tag2 : List Byte) (s : State) := done (doXipLineDone s data tag data2 tag2)

end Sys2Proof.Machine
end

