-- ==== Sys2Proof/Machine/Tag.lean ====
section
/-!
DEFINITION. The NFC tag: air interface, memory, row buffer, mailbox semaphore and wipes (R368 to R379).
-/

namespace Sys2Proof.Machine

def State.setTag (s : State) (t : TagSt) : State := { s with tag := t }

/-- The host window of the tag (Table 1-3). -/
abbrev tagBase : Nat := 0x50000000

/-- An answer of bytes on the air. -/
def State.tagAnswer (s : State) (l : List Byte) : State := s.setTag { s.tag with answer := l, ack := none }

/-- A 4-bit answer: ACK 0xA, NAK 0x0 or 0x5. -/
def State.tagAck (s : State) (n : Nat) : State := s.setTag { s.tag with answer := [], ack := some n }

/-- No answer. -/
def State.tagSilent (s : State) : State := s.setTag { s.tag with answer := [], ack := none }

/-- TAG.STAT follows the field side and the row buffer; without KSYS the registers hold nothing (R379). -/
def State.showTag (s : State) : State :=
  if !s.powered then s
  else
    let t := s.tag
    let s := ((s.setBit Reg.TAG_STAT 0 t.field).setBit Reg.TAG_STAT 1 (t.air == 3)).setBit Reg.TAG_STAT 2 (!t.rows.isEmpty)
    (s.setFld Reg.TAG_STAT 4 3 t.sector).setFld Reg.TAG_MBSEM 0 2 t.owner

def State.tagIrq (s : State) (b : Nat) : State := if s.powered then s.setBit Reg.TAG_IRQ b true else s

/-! Fixed contents (R368, R373) -/

/-- UID0 to UID6: the manufacturer code and SYS.UID bits [47:0], most significant byte first (R368). -/
def State.tagUid (s : State) : List Byte :=
  let u := s.rdN Reg.SYS_UID0 + s.rdN Reg.SYS_UID1 * 2 ^ 32
  (0x5A : Byte) :: [5, 4, 3, 2, 1, 0].map (fun i => byteOf (u / 256 ^ i))

/-- The exclusive or of bytes. -/
def xorBytes (l : List Byte) : Byte := l.foldl (· ^^^ ·) 0

/-- Cascade level 1: 0x88, UID0 to UID2, BCC0; level 2: UID3 to UID6, BCC1 (R368). -/
def State.tagLevel (s : State) (level : Nat) : List Byte :=
  let u := s.tagUid
  let l := if level = 1 then (0x88 : Byte) :: u.take 3 else u.drop 3
  l ++ [xorBytes l]

/-- The nameplate payload (Table 16-4); DATE and LOT are what production test wrote, which the manual does not fix (DESIGN CHOICE, log entry 1). -/
def State.nameplate (s : State) : List Byte :=
  let c := s.nv.nameplate
  let digits : List Byte := [100000, 10000, 1000, 100, 10, 1].map (fun d => byteOf (0x30 + c / d % 10))
  let b := u16 1 ++ u16 0x6400 ++ u8 0x0B ++ u8 (s.fld Reg.SYS_GRADE 0 1) ++ u16 0 ++ u32 (s.rdN Reg.SYS_UID0) ++ u32 (s.rdN Reg.SYS_UID1)
    ++ digits ++ u16 0 ++ u32 (Config.freeOf 900 0) ++ u32 (Config.freeOf 900 1) ++ List.replicate 12 0
  b ++ u32 (crc32 b)

/-- Sector 0: UID, check and lock bytes, capability container, NDEF TLV with the nameplate, terminator, zeros (R368, R373). -/
def State.tagFixed (s : State) : List Byte :=
  let u := s.tagUid
  u.take 3 ++ [xorBytes ((0x88 : Byte) :: u.take 3)] ++ u.drop 3 ++ [xorBytes (u.drop 3), 0x48, 0xFF, 0xFF]
    ++ [0xE1, 0x10, 0x7E, 0x0F] ++ [0x03, 0x52, 0xD2, 0x1F, 0x30] ++ asciiBytes "application/vnd.plaostel.rn6400" ++ s.nameplate ++ [0xFE]

/-- One byte of the tag as either side reads it: the fixed sector, the EEPROM, zero in sectors 4 to 7 (R370). -/
def State.tagByte (s : State) (off : Nat) : Byte :=
  if off < 0x400 then s.tagFixed.getD off 0 else if off < 0x1000 then s.rdB (tagBase + off) else 0

/-! Regions (Tables 16-2 and 16-3) -/

/-- The mailbox, by byte offset. -/
def inMailbox (off : Nat) : Bool := decide (0xC00 ≤ off) && decide (off < 0xE00)

/-- The confirmation field, by byte offset. -/
def inConfirmation (off : Nat) : Bool := decide (0x7C0 ≤ off) && decide (off < 0x7D0)

/-- Regions the host owns: commissioning record, shore slots, mailbox status. -/
def hostOwned (off : Nat) : Bool :=
  (decide (0x400 ≤ off) && decide (off < 0x7C0)) || (decide (0x800 ≤ off) && decide (off < 0xC00)) || (decide (0xE00 ≤ off) && decide (off < 0xE10))

/-! The row buffer (R372) -/

/-- The bytes a row will hold: the EEPROM with the stored bytes over it. -/
def State.rowBytes (s : State) (row : Nat) (l : List (Nat × Byte)) : List Byte :=
  (List.range 16).map (fun i =>
    match l.reverse.find? (fun e => decide (e.1 = i)) with
    | some e => e.2
    | none => s.rdB (row + i))

/-- The buffer goes to programming. -/
def State.flushRow (s : State) : State :=
  match s.tag.buf with
  | none => s
  | some (row, l) => (s.setTag { s.tag with buf := none, rows := s.tag.rows ++ [(row, s.rowBytes row l)] }).showTag

/-! The semaphore (R377) -/

/-- The owner is shown in MBSEM and in byte 0 of the mailbox status. -/
def State.setOwner (s : State) (n : Nat) : State := ((s.setTag { s.tag with owner := n }).wrB (tagBase + 0xE00) (byteOf n)).showTag

/-- The field takes the mailbox: the host's unprogrammed mailbox stores are discarded when the host held it. -/
def State.fieldTakes (s : State) : State :=
  if s.tag.owner = 2 then
    let t := s.tag
    let keep (row : Nat) : Bool := !inMailbox (row - tagBase)
    let buf := match t.buf with
      | some (row, l) => if keep row then some (row, l) else none
      | none => none
    let n := (t.preempts + 1) % 65536
    let s := ((s.setTag { t with buf := buf, rows := t.rows.filter (fun r => keep r.1), preempts := n }).setOwner 1).tagIrq 4
    let s := s.wrBytes (tagBase + 0xE04) (u16 n)
    if s.camlanOn then s.logS 0x1005 (u32 n) else s
  else s.setOwner 1

def State.freeMailbox (s : State) : State := (s.setOwner 0).tagIrq 5

/-! Air interface (R368, R369; state names of ISO/IEC 14443-3, PRESUMED, log entry 17) -/

/-- Whether the front end answers: the field is present and the field side is enabled. -/
def State.tagAir (s : State) : Bool := s.tag.field && (!s.powered || s.bit Reg.TAG_CTRL 0)

/-- A command that does not fit its state returns the tag to IDLE, or to HALT when it was woken from there. -/
def State.tagBack (s : State) : State := (s.setTag { s.tag with air := if s.tag.star then 4 else 0, answer := [], ack := none }).showTag

/-- TAG_REQA: from IDLE the tag answers ATQA 0x0044. -/
def doTagReqa (s : State) : State :=
  if !s.tagAir then s
  else if s.tag.air = 0 then s.setTag { s.tag with air := 1, star := false, answer := u16 0x0044, ack := none }
  else if s.tag.air = 4 then s.tagSilent else s.tagBack

def execTagReqa (s : State) := done (doTagReqa s)

/-- TAG_WUPA: from IDLE and from HALT. -/
def doTagWupa (s : State) : State :=
  if !s.tagAir then s
  else if s.tag.air = 0 ∨ s.tag.air = 4 then s.setTag { s.tag with air := 1, star := s.tag.air == 4, answer := u16 0x0044, ack := none }
  else s.tagBack

def execTagWupa (s : State) := done (doTagWupa s)

/-- TAG_ANTICOLLISION: the rest of the level's bytes when the known ones match. -/
def doTagAnticollision (s : State) (level : Nat) (bitsKnown : List Byte) : State :=
  if !s.tagAir then s
  else if s.tag.air = level ∧ (level = 1 ∨ level = 2) then
    (if (s.tagLevel level).take bitsKnown.length = bitsKnown then s.tagAnswer ((s.tagLevel level).drop bitsKnown.length) else s.tagSilent)
  else s.tagBack

def execTagAnticollision (level : Nat) (bitsKnown : List Byte) (s : State) := done (doTagAnticollision s level bitsKnown)

/-- TAG_SELECT: level 1 leads to level 2 (SAK 0x04), level 2 to ACTIVE with SAK 0x00 and sector 0 (R368, R369). -/
def doTagSelect (s : State) (level : Nat) (uid : List Byte) : State :=
  if !s.tagAir then s
  else if s.tag.air = level ∧ (level = 1 ∨ level = 2) ∧ uid = (s.tagLevel level).take uid.length ∧ 4 ≤ uid.length then
    (if level = 1 then s.setTag { s.tag with air := 2, answer := u8 0x04, ack := none }
     else (s.setTag { s.tag with air := 3, sector := 0, answer := u8 0x00, ack := none }).showTag)
  else s.tagBack

def execTagSelect (level : Nat) (uid : List Byte) (s : State) := done (doTagSelect s level uid)

/-- TAG_HLTA: an ACTIVE tag halts without an answer. -/
def doTagHlta (s : State) : State :=
  if !s.tagAir then s
  else if s.tag.air = 3 then (s.setTag { s.tag with air := 4, star := true, answer := [], ack := none }).showTag else s.tagBack

def execTagHlta (s : State) := done (doTagHlta s)

/-- A read of 16 bytes from four pages, wrapping within the sector (Table 16-1). -/
def State.fieldRead (s : State) (page : Nat) : State :=
  let pages := (List.range 4).map (fun i => (page + i) % 256)
  let base := s.tag.sector * 1024
  let s := if s.tag.sector = 3 ∧ pages.any (fun p => decide (p < 0x80)) then s.fieldTakes else s
  s.tagAnswer (pages.flatMap (fun p => (List.range 4).map (fun i => s.tagByte (base + p * 4 + i))))

/-- A write of one page: NAK 0x0 where the field may not write, NAK 0x5 when its verify fails (R369, R371, R375, R378). -/
def State.fieldWrite (s : State) (page : Nat) (data : List Byte) (verifyOk : Bool) (us : Nat) : State :=
  let off := s.tag.sector * 1024 + page * 4
  if 255 < page ∨ !(inConfirmation off || inMailbox off) then s.tagAck 0
  else
    let s := if inMailbox off then s.fieldTakes else s
    if !verifyOk then
      let (f, s) := s.free
      let s := s.wrBytes (tagBase + off) (u32 f)
      let s := if s.powered then (s.setBit Reg.TAG_STAT 9 true).tagIrq 6 else s
      (if s.camlanOn then s.logS 0x1006 (u8 s.tag.sector ++ u8 page) else s).tagAck 5
    else
      let s := s.wrBytes (tagBase + off) ((data ++ List.replicate 4 0).take 4)
      let s := if s.powered then (s.wrN Reg.TAG_LASTW (page + s.tag.sector * 256)).incSat Reg.TAG_FWCNT 0 16 1 else s
      let s := if off = 0x7CC ∧ s.powered then
          let s := if s.running then s.atUs us else s
          ((s.wrN Reg.TAG_CONFSTAMP s.now).tagIrq 2).setTag { s.tag with confAt := some (s.now, s.strokeNo) }
        else s
      let seq := s.ld (tagBase + 0xC02) 2
      let s := if off = 0xC00 ∧ s.powered ∧ seq ≠ s.tag.lastReq then
          let s := if s.running then s.atUs us else s
          (s.tagIrq 3).setTag { s.tag with request := some s.now }
        else s
      s.tagAck 0xA

/-- A field command while a row programs is answered once that row ends (R372). (DEDUCED, log entry 91) -/
def State.fieldCmd (s : State) (c : FieldCmd) : State :=
  if !s.tagAir then s
  else if s.tag.air ≠ 3 then s.tagBack
  else if s.tag.rows ≠ [] then s.setTag { s.tag with wait := some c, answer := [], ack := none }
  else
    match c with
    | .read p => s.fieldRead p
    | .write p d v us => s.fieldWrite p d v us

/-- TAG_READ. -/
def doTagRead (s : State) (page : Nat) : State := s.fieldCmd (.read page)

def execTagRead (page : Nat) (s : State) := done (doTagRead s page)

/-- TAG_WRITE. -/
def doTagWrite (s : State) (page : Nat) (data : List Byte) (verifyOk : Bool) (us : Nat) : State := s.fieldCmd (.write page data verifyOk us)

def execTagWrite (page : Nat) (data : List Byte) (verifyOk : Bool) (us : Nat) (s : State) := done (doTagWrite s page data verifyOk us)

/-- TAG_COMPAT_WRITE: the first 4 of the 16 bytes, as WRITE. -/
def doTagCompatWrite (s : State) (page : Nat) (data : List Byte) (verifyOk : Bool) (us : Nat) : State := s.fieldCmd (.write page (data.take 4) verifyOk us)

def execTagCompatWrite (page : Nat) (data : List Byte) (verifyOk : Bool) (us : Nat) (s : State) := done (doTagCompatWrite s page data verifyOk us)

/-- TAG_SECTOR_SELECT: sectors 0 to 7 by silence, another by NAK 0x0 (Table 16-1). -/
def doTagSectorSelect (s : State) (sector : Nat) : State :=
  if !s.tagAir then s
  else if s.tag.air ≠ 3 then s.tagBack
  else if sector ≤ 7 then (s.setTag { s.tag with sector := sector, answer := [], ack := none }).showTag
  else s.tagAck 0

def execTagSectorSelect (sector : Nat) (s : State) := done (doTagSectorSelect s sector)

/-- TAG_FIELD_ON. -/
def doTagFieldOn (s : State) : State :=
  let s := ((s.setTag { s.tag with field := true, air := 0, star := false, answer := [], ack := none }).showTag).tagIrq 0
  if s.camlanOn then s.logS 0x1001 (u8 1) else s

def execTagFieldOn (s : State) := done (doTagFieldOn s)

/-- TAG_FIELD_OFF: RF off releases the field's semaphore (R377). -/
def doTagFieldOff (s : State) : State :=
  let s := ((s.setTag { s.tag with field := false, air := 0, star := false, answer := [], ack := none, wait := none }).showTag).tagIrq 1
  let s := if s.tag.owner = 1 then s.freeMailbox else s
  if s.camlanOn then s.logS 0x1001 (u8 0) else s

def execTagFieldOff (s : State) := done (doTagFieldOff s)

/-! The host side -/

/-- TAG_HOST_STORE: into the row buffer where the host may write; a mailbox store without the semaphore is ignored and sets MBERR; elsewhere a bus error (R371). -/
def doTagHostStore (s : State) (addr : Nat) (data : List Byte) : State :=
  let off := addr - tagBase
  if addr < tagBase ∨ 0x2000 ≤ off then s.coxBusError true addr
  else if inMailbox off ∧ s.tag.owner ≠ 2 then s.setBit Reg.TAG_STAT 8 true
  else if !(hostOwned off || inMailbox off) then s.coxBusError true addr
  else
    let row := addr / 16 * 16
    let new := ((List.range data.length).zip data).map (fun e => (addr - row + e.1, e.2)) |>.filter (fun e => decide (e.1 < 16))
    match s.tag.buf with
    | some (r, l) =>
      if r = row then s.setTag { s.tag with buf := some (row, l ++ new) }
      else
        let s := s.flushRow
        s.setTag { s.tag with buf := some (row, new) }
    | none => s.setTag { s.tag with buf := some (row, new) }

def execTagHostStore (addr : Nat) (data : List Byte) (s : State) := done (s.byRequester (doTagHostStore s addr data))

/-- TAG_FLUSH: the row buffer is programmed. -/
def doTagFlush (s : State) : State := s.flushRow

def execTagFlush (s : State) := done (s.byRequester (doTagFlush s))

/-- TAG_ROW_PROGRAM_DONE: the row holds its bytes, or free ones when its verify failed; then a waiting field command is answered (R372, R377). -/
def doTagRowProgramDone (s : State) (verifyOk : Bool) : State :=
  match s.tag.rows with
  | [] => s
  | (row, b) :: rest =>
    let (b, s) := if verifyOk then (b, s) else
      let (f, s) := s.free
      ((List.range 16).map (fun i => byteOf (Config.freeOf f i)), s)
    let s := (s.setTag { s.tag with rows := rest }).wrBytes row b
    let s := if verifyOk then s else
      let s := (s.setBit Reg.TAG_STAT 9 true).tagIrq 6
      if s.camlanOn then s.logS 0x1006 (u8 ((row - tagBase) / 1024) ++ u8 ((row - tagBase) % 1024 / 4)) else s
    let s := s.showTag
    match s.tag.wait with
    | none => s
    | some c =>
      let later := s.tag.rows
      let s := (s.setTag { s.tag with wait := none, rows := [] })
      let s := s.fieldCmd c
      let kept := if s.tag.owner = 1 then later.filter (fun r => !inMailbox (r.1 - tagBase)) else later
      (s.setTag { s.tag with rows := kept }).showTag

def execTagRowProgramDone (verifyOk : Bool) (s : State) := done (doTagRowProgramDone s verifyOk)

/-- TAG_SEMAPHORE_TAKE: a host take succeeds only when the semaphore is free (R377). -/
def doTagSemaphoreTake (s : State) : State := if s.tag.owner = 0 then s.setOwner 2 else s

def execTagSemaphoreTake (s : State) := done (s.byRequester (doTagSemaphoreTake s))

/-- TAG_SEMAPHORE_RELEASE: by the host. -/
def doTagSemaphoreRelease (s : State) : State := if s.tag.owner = 2 then s.setOwner 0 else s

def execTagSemaphoreRelease (s : State) := done (s.byRequester (doTagSemaphoreRelease s))

/-- TAG_FIELD_IDLE_RELEASE: 50 ms without a field command to the mailbox (R377). -/
def doTagFieldIdleRelease (s : State) : State := if s.tag.owner = 1 then s.freeMailbox else s

def execTagFieldIdleRelease (s : State) := done (doTagFieldIdleRelease s)

/-- Zeros over a range of the tag. -/
def State.zeroTag (s : State) (lo hi : Nat) : State := s.clearMem (tagBase + lo) (tagBase + hi)

/-- TAGU: the commissioning record, the confirmation field, the shore slots and the mailbox (Table 5-7, R371). (DEDUCED, log entry 114) -/
def State.wipeTagU (s : State) : State :=
  let s := (((s.zeroTag 0x400 0x7D0).zeroTag 0x800 0xC00).zeroTag 0xC00 0xE00).zeroTag 0xE00 0xE10
  { s with nv := { s.nv with shoreSeq := 0 } }

/-- TAGC: the confirmation field. -/
def State.wipeTagC (s : State) : State := s.zeroTag 0x7C0 0x7D0

/-- TAG_WIPE: the named regions, with KEY 0x5457 (R371, Table 16-9). -/
def doTagWipe (s : State) (value : Word) : State :=
  let v := value.toNat
  if getField v 16 16 ≠ 0x5457 then s
  else
    let s := if getField v 0 1 = 1 then s.wipeTagU else s
    if getField v 1 1 = 1 then s.wipeTagC else s

def execTagWipe (value : Word) (s : State) := done (s.byRequester (doTagWipe s value))

end Sys2Proof.Machine
end

