-- ==== Sys2Proof/Machine/View.lean ====
section
/-!
DEFINITION. What Camlan publishes at a finish: the cell view (R14, R95, R96) and the shore record (R120, R376).
-/

namespace Sys2Proof.Machine

/-! Cell view (Tables 4-4 and 4-5) -/

/-- The address of a cell view copy: A 0, B 1 (Table 1-3). -/
def viewBase (copy : Nat) : Nat := 0x203E0000 + copy * 0x8000

abbrev viewHeader : Nat := 0x203F7000

/-- STATE of the cell view (Table 2-5). -/
def State.stateCode (s : State) : Nat :=
  match s.cam.state with
  | .idle | .stake => 0
  | .run => 1
  | .crab1 => 2
  | .easy => 3

/-- A value in 1/100 as an unsigned field. -/
def centi (x : Rat) : Nat := (roundRat (x * 100)).toNat

/-- The cells of a seat that run on a default capacity or resistance (R276). -/
def SeatSt.unlearned (x : SeatSt) : Bool := x.est.isEmpty || x.est.any (fun c => !c.capL || !c.resL)

/-- QUAL of a seat (Table 4-5). -/
def SeatSt.qual (x : SeatSt) : Nat :=
  let b (n : Nat) (v : Bool) : Nat := if v then 2 ^ n else 0
  if x.enumd then
    1 + b 1 x.aged + b 2 x.blind + b 3 x.unproven + b 4 x.oneBlade + b 5 x.unlearned + b 6 x.stale + b 7 x.onePath + b 8 (x.twin == 3)
  else b 1 x.aged + b 2 x.blind

/-- STRING of a seat: 0xFF above chn.modules and without a string (R192). -/
def State.seatStr8 (s : State) (n : Nat) : Nat := if s.readSet.contains n ∧ s.seatString n < 4 then s.seatString n else 0xFF

/-- A seat record; a seat of the read set that is not enumerated carries no data, any other reads zero (R96). (DEDUCED, log entry 101) -/
def State.seatRecord (s : State) (n : Nat) : List Byte :=
  let x := s.seat n
  let i := s.seatString n
  let pad (k : Nat) (l : List Byte) : List Byte := (l ++ List.replicate k (0 : Byte)).take k
  let age := min 255 (s.ageHeats n)
  if x.enumd then
    let cap := minRat (s.capMah i : Rat) (x.est.map CellEst.cap)
    u8 n ++ u8 (s.seatStr8 n) ++ u8 x.cells ++ u8 x.temps ++ u16 x.qual ++ u16 (x.used.getD 0) ++ u8 age ++ u8 x.twin ++ u16 x.bal
      ++ u32 (x.cellV.foldl (· + ·) 0) ++ pad 32 (x.cellV.flatMap u16) ++ pad 16 (x.temp.flatMap s16)
      ++ pad 32 (x.est.flatMap (fun c => u16 (centi (s.socRep i c x.tempOf))))
      ++ u16 (roundRat (cap / 10)).toNat ++ u16 (if s.capMah i = 0 then 0 else centi (cap / (s.capMah i : Rat) * 100)) ++ leBytes 8 x.serial
  else if s.readSet.contains n then u8 n ++ u8 (s.seatStr8 n) ++ [0, 0] ++ u16 x.qual ++ [0, 0] ++ u8 age ++ u8 4
  else []

/-- QUAL of a string: the OR of its seats'. -/
def State.strQual (s : State) (i : Nat) : Nat := (s.strSeats i).foldl (fun m n => m ||| (s.seat n).qual) 0

/-- Cell voltages of a string [100 µV] and valid temperatures [0.01 °C]. -/
def State.strVolts (s : State) (i : Nat) : List Nat := (s.strSeats i).flatMap (fun n => (s.seat n).cellV)
def State.strTemps (s : State) (i : Nat) : List Int := (s.strSeats i).flatMap (fun n => (s.seat n).temp.filter (fun t => decide (t ≠ -32768)))

/-- The extremes of a list; a string without a sample has no stated extremes (DESIGN CHOICE, log entry 1). -/
def extremes (seed : Nat) (l : List Int) : Int × Int :=
  match l with
  | [] => ((Config.freeOf 970 seed : Int), (Config.freeOf 971 seed : Int))
  | x :: t => (t.foldl min x, t.foldl max x)

/-- A string record; a string that is not configured reads zero (R96). -/
def State.strRecord (s : State) (i : Nat) : List Byte :=
  if !s.strConf i then []
  else
    let (vlo, vhi) := extremes i ((s.strVolts i).map (fun (v : Nat) => (v : Int)))
    let (tlo, thi) := extremes (i + 4) (s.strTemps i)
    u8 (s.str i).st ++ u8 (s.strSeats i).length ++ u16 (s.strQual i) ++ u32 (s.volt i) ++ u32 ((s.strVolts i).foldl (· + ·) 0 / 10)
      ++ u32 (s.appliedLim (0x10 + i)).toNat ++ u32 (s.appliedLim (0x18 + i)).toNat ++ u16 (centi ((s.strSoc i).getD s.est.soc)) ++ u16 (centi (s.strSoh i))
      ++ s16 vlo ++ s16 vhi ++ s16 tlo ++ s16 thi ++ u32 (roundRat (s.strCap i)).toNat

/-- Battery power [W] (DEDUCED, log entry 36). -/
def State.batPower (s : State) : Int := roundDiv (s.meas.cur * (s.batMv : Int)) 1000000

/-- A local temperature as published: 0x8000 where invalid (R175). -/
def State.ltPublished (s : State) (m : Nat) : Int := (s.ntcOf m (s.ltCode m)).getD (-32768)

/-- The head of a cell view copy up to the string records. -/
def State.viewHead (s : State) (gen : Nat) : List Byte :=
  let t := s.est.ticket
  u32 gen ++ u32 s.strokeNo ++ leBytes 8 s.stk.base ++ u8 s.stateCode ++ u8 s.easyCause ++ u8 s.cam.helm.holder ++ u8 s.cam.helm.rank
    ++ u8 s.lcs ++ u8 s.enumSeats.length ++ u8 s.heat ++ u8 s.hph ++ u8 s.est.warn ++ List.replicate 0x27 (0 : Byte)
    ++ s32 s.meas.cur ++ u32 (s.volt chBus) ++ u32 (s.volt chPre) ++ u32 (s.appliedLim tChgBat).toNat ++ u32 (s.appliedLim tDisBat).toNat
    ++ u16 (centi s.est.soc) ++ u16 (centi s.batSoh) ++ s32 s.batPower ++ u32 (s.rdN Reg.IMD_RP) ++ u32 (s.rdN Reg.IMD_RN)
    ++ u8 s.ksrc ++ u8 s.mdiPos ++ u8 s.preField ++ u8 0
    ++ u32 ((t.map Ticket.n).getD 0) ++ s32 ((t.map Ticket.power).getD 0) ++ u32 ((t.map Ticket.expiry).getD 0)

/-- The copy that the header names, bit 0 of the header (R14 and the text before R95). -/
def State.viewCopy (s : State) : Nat := s.ld viewHeader 4 % 2

/-- The cell view is published: everything into the copy that is not current, then the header in one store, then the event VIEW (R14, R44). The generation stands in bits [31:1] and the view format 0x0001 at offset 4; DEDUCED, log entry 38 for the first generation. -/
def State.publish (s : State) : State :=
  let copy := 1 - s.viewCopy % 2
  let b := viewBase copy
  let gen := s.cam.gen % 2 ^ 31
  let img := s
  let s := s.clearMem b (b + 0x8000)
  let s := s.wrBytes b (img.viewHead gen)
  let s := (List.range 4).foldl (fun s i => s.wrBytes (b + 0x80 + i * 0x40) (img.strRecord i)) s
  let s := s.wrBytes (b + 0x180) (u8 (img.fld Reg.AGR_C_SIN 0 8) ++ u8 (img.fld Reg.AGR_C_SIN 8 8) ++ u8 (img.fld Reg.AGR_C_SIN 16 8))
  let s := s.wrBytes (b + 0x184) (u16 (img.fld Reg.AGR_C_FB 0 12))
  let s := s.wrBytes (b + 0x188) (((List.range 8).flatMap (fun m => s16 (img.ltPublished m))) ++ u16 (img.fld Reg.AGR_C_DIE 0 16))
  let s := ((List.range 128).map (· + 1)).foldl (fun s n => s.wrBytes (b + 0x200 + (n - 1) * 0x80) (img.seatRecord n)) s
  let s : State := { s with cam := { s.cam with gen := (gen + 1) % 2 ^ 31 } }
  ((s.st (viewHeader + 4) 4 1).st viewHeader 4 (gen * 2 + copy)).setEvpAll 1

/-! Shore record (R120, R376, Table 16-7) -/

def shoreSlot (seq : Nat) : Nat := tagBase + 0x800 + seq % 16 * 64

/-- Whether a slot holds a record whose CRC matches. -/
def State.shoreValid (s : State) (slot : Nat) : Bool :=
  let b := s.rdBytes (shoreSlot slot) 64
  decide (leNat (b.drop 60) = crc32 (b.take 60)) && decide (leNat (b.take 4) ≠ 0)

/-- At start Camlan continues from the highest valid SEQ (R376). -/
def State.shoreScan (s : State) : State :=
  let l := ((List.range 16).filter s.shoreValid).map (fun i => s.ld (shoreSlot i) 4)
  { s with nv := { s.nv with shoreSeq := l.foldl max 0 } }

/-- The 64 bytes of a record. -/
def State.shoreBytes (s : State) (seq reason : Nat) : List Byte :=
  let str (i : Nat) : Nat := if s.strConf i then (s.str i).st else 0
  let run := s.tallyVal 0x01 + Tab.get 0 s.tally.acc 0x01
  let b := u32 seq ++ u32 s.strokeNo ++ u32 (s.rdN (Reg.RST_RETAIN 1)) ++ u8 s.lcs ++ u8 s.stateCode ++ u8 s.easyCause ++ u8 (s.fld Reg.RST_LAST 0 4)
    ++ u16 (s.fld Reg.AGR_C_FB 0 12) ++ u16 (s.fld Reg.CTR_OUT 0 12) ++ u16 (str 0 + str 1 * 16 + str 2 * 256 + str 3 * 4096) ++ u8 s.mdiPos ++ u8 s.est.warn
    ++ u16 (centi s.est.soc) ++ u8 s.ksrc ++ u8 reason ++ u32 (min (s.rdN Reg.IMD_RP) (s.rdN Reg.IMD_RN)) ++ s32 s.meas.cur ++ u32 (s.volt chBus)
    ++ u32 run ++ leBytes 6 s.stk.base ++ List.replicate 10 (0 : Byte)
  b ++ u32 (crc32 b)

/-- A record into the next slot. -/
def State.shoreWrite (s : State) (reason : Nat) : State :=
  let seq := (s.nv.shoreSeq + 1) % 2 ^ 32
  let s := s.wrBytes (shoreSlot seq) (s.shoreBytes seq reason)
  { s with
    nv := { s.nv with shoreSeq := seq },
    power := { s.power with shoreAt := some s.clock, shoreHeld := false, shoreFb := s.fld Reg.AGR_C_FB 0 12, shoreMdi := s.mdiPos } }

/-- A record other than a periodic one: within the budget of 1,056 in 24 hours, else folded into the next periodic record (R376). (DESIGN CHOICE, log entry 100) -/
def State.shore (s : State) (reason : Nat) : State :=
  let l := within s.clock hours24 s.power.shoreTimes
  if l.length < 1056 then
    let s := s.shoreWrite reason
    { s with power := { s.power with shoreTimes := l ++ [s.clock] } }
  else
    let due := match s.power.foldLogged with
      | some t => decide (t + hours24 ≤ s.clock)
      | none => true
    let s := if due then s.logS 0x1007 (u32 (s.power.shoreFold + 1)) else s
    { s with power := { s.power with shoreTimes := l, shoreFold := s.power.shoreFold + 1, shoreHeld := false,
                                     foldLogged := if due then some s.clock else s.power.foldLogged, shoreFb := s.fld Reg.AGR_C_FB 0 12, shoreMdi := s.mdiPos } }

/-- Since the last record at least shore.min_gap has passed. -/
def State.shoreGapOver (s : State) : Bool :=
  match s.power.shoreAt with
  | some t => decide (t + s.parI .shoreMinGap * 1000000 ≤ s.clock)
  | none => true

/-- A change of a contactor's or the isolator's state by feedback writes a record, or waits for the end of the gap (R120). -/
def State.shoreCatch (s : State) : State :=
  if !s.rowing then s
  else if s.fld Reg.AGR_C_FB 0 12 = s.power.shoreFb ∧ s.mdiPos = s.power.shoreMdi then s
  else if s.shoreGapOver then s.shore 1
  else { s with power := { s.power with shoreHeld := true, shoreFb := s.fld Reg.AGR_C_FB 0 12, shoreMdi := s.mdiPos } }

/-- SHORE_PERIODIC (R120): ten minutes after the previous record; bit 7 where records were folded. -/
def doShorePeriodic (s : State) : State :=
  let due := match s.power.shoreAt with
    | some t => decide (t + minutes10 ≤ s.clock)
    | none => false
  if s.rowing && due then
    let s' := s.shoreWrite (2 + (if s.power.shoreFold = 0 then 0 else 0x80))
    { s' with power := { s'.power with shoreFold := 0 } }
  else s

def execShorePeriodic (s : State) := done (doShorePeriodic s)

/-- SHORE_GAP_END (R120): the change held back is written. -/
def doShoreGapEnd (s : State) : State := if s.rowing && s.power.shoreHeld && s.shoreGapOver then s.shore 1 else s

def execShoreGapEnd (s : State) := done (doShoreGapEnd s)

/-- HIBERNATE_GRACE_END (R284): a shore record, CCA.WAKE at est.wake_i with 4 samples, CANx_STBN low where can.x.wake is set (R303), and the hand-over to the always-on domain. -/
def doHibernateGraceEnd (s : State) : State :=
  if !(s.rowing && s.est.pending) then s
  else
    let s := (s.shore 4).tallyCommit
    let nv : Rat := s.wakeI * s.rshunt / 1000
    let s := s.wrN Reg.CCA_WAKE (min 16777215 (roundRat (nv * 8388608 / 100000000)).toNat + 4 * 2 ^ 24)
    let s := s.stopFeed.coreOff.setBit Reg.CCA_STAT 2 true
    let s : State := { s with cca := { s.cca with wakeRun := 0 } }
    let s := ([0, 1, 2] : List Nat).foldl (fun s x => if s.bit (Reg.CAN_CTRL x) 8 then s.setBit (Reg.CAN_CTRL x) 7 false else s) s
    { s with power := { s.power with phase := .hibernating } }

def execHibernateGraceEnd (s : State) := done (doHibernateGraceEnd s)

end Sys2Proof.Machine
end

