-- ==== Sys2Proof/Machine/ConsoleBase.lean ====
section
/-!
DEFINITION. What every Ianel command shares: sessions and levels (R330, Table 14-2), errors (R328), the execution of an accepted line (R324, R333), the bytes of a port (R318 to R321, R329).
-/

namespace Sys2Proof.Machine

/-! Errors (Table 14-1) -/

def errNames : List String :=
  ["", "syntax", "long", "unknown", "args", "crc", "level", "state", "busy", "range", "locked", "check", "nothing", "auth", "noreply", "tag", "condition", "absent"]

/-- `err NN name [key=value …]` (R325, R328). -/
def errLine (n : Nat) (extra : String := "") : String :=
  "err " ++ toString (n / 10) ++ toString (n % 10) ++ " " ++ errNames.getD n "" ++ (if extra = "" then "" else " " ++ extra)

/-! Sessions (Table 14-2) -/

def Level.isView (l : Level) : Bool := decide (l = .view)
/-- I+: INSTALLER or SERVICE. -/
def Level.isIplus (l : Level) : Bool := decide (l = .installer) || decide (l = .service)
/-- T+: TENANT, INSTALLER or SERVICE. -/
def Level.isTplus (l : Level) : Bool := !l.isView
def Level.isService (l : Level) : Bool := decide (l = .service)
def Level.tenantOf : Level → Option Nat
  | .tenant k => some k
  | _ => none

/-- The source code of a session's orders, none at VIEW. -/
def sessionSource (p : Nat) : Level → Option Nat
  | .view => none
  | .tenant k => some (0x20 + k)
  | .installer | .service => some (0x10 + p)

/-- The rank of a session's orders, none at VIEW. -/
def Level.rank : Level → Option Nat
  | .view => none
  | .tenant k => some (partRank k)
  | .installer => some 4
  | .service => some 3

def Level.word : Level → String
  | .view => "view"
  | .tenant _ => "tenant"
  | .installer => "installer"
  | .service => "service"

/-- The number of a level in a log argument, which the manual does not fix (DESIGN CHOICE, log entry 1). -/
def Level.code : Level → Nat
  | .view => Config.freeOf 980 0 % 256
  | .tenant _ => Config.freeOf 980 1 % 256
  | .installer => Config.freeOf 980 2 % 256
  | .service => Config.freeOf 980 3 % 256

/-- `login level= port= source= rank=` (Table 14-3). -/
def loginLine (p : Nat) (l : Level) : String :=
  "login level=" ++ l.word ++ " port=con" ++ toString p ++ " source=" ++ (match sessionSource p l with | some x => hex0x x | none => "-")
    ++ " rank=" ++ (match l.rank with | some r => toString r | none => "-")

/-- The session leaves its level: any helm it held is freed (R330, R50). (DEDUCED, log entry 71) -/
def State.leaveLevel (s : State) (p cause : Nat) : State :=
  match sessionSource p (s.con p).level with
  | some src => s.freeHelmOf src cause
  | none => s

/-- A session above VIEW returns to VIEW, code 0x0E04 with the cause 1 logout, 2 idle, 3 reset (R330, R418). (DEDUCED, log entry 72) -/
def State.toView (s : State) (p cause helmCause : Nat) : State :=
  if (s.con p).level.isView then s
  else
    let s := s.leaveLevel p helmCause
    let s := s.setCon p { s.con p with level := .view, authed := false }
    s.logS0 0x0E04 (u8 p ++ u8 cause)

/-- A session rises to a level: code 0x0E01, a pending hibernation is cancelled, and the first session at INSTALLER or SERVICE on the port named by helm.default receives a free helm (R50, R284, R331). -/
def State.rise (s : State) (p : Nat) (l : Level) : State :=
  let s := if (s.con p).level = l then s else s.leaveLevel p 6
  let s := s.setCon p { s.con p with level := l, authed := decide (l = .service) }
  let s := s.logS0 0x0E01 (u8 p ++ u8 l.code ++ u8 (l.tenantOf.getD 0))
  let s := s.hibCancel
  if s.cam.helmPort = some p ∧ l.isIplus = true then
    let s : State := { s with cam := { s.cam with helmPort := none } }
    if s.cam.helm.holder = 0xFF then s.setHelm ⟨0x10 + p, l.rank.getD 0, 0, s.strokeNo⟩ 4 else s
  else s

/-! Life-cycle words -/

def lcsWord (n : Nat) : String := (["blank", "commissioning", "sealed", "service", "retired"] : List String).getD n ""

/-- Camlan has not passed the stake-boat interval: every line but `show start` and `stop` is answered `starting` (R130). -/
def State.starting (s : State) : Bool := decide (s.cam.state = .idle) || decide (s.cam.state = .stake)

/-! Execution of a command line -/

/-- A command on a port takes the oldest accepted line; with none waiting it stands for a typed line of its own (DESIGN CHOICE, log entry 51). -/
def State.takeLine (s : State) (p : Nat) : Option String × State :=
  match (s.con p).ready with
  | t :: rest => (t, s.setCon p { s.con p with ready := rest })
  | [] => (none, s.setCon p { s.con p with typed := (s.con p).typed + 1, lastLine := s.clock })

/-- A command at SERVICE level restarts the 24 hours of R410, unless the return already fell due. -/
def State.noteService (s : State) (p : Nat) : State :=
  if (s.con p).level.isService && !s.cam.svcBlocked then { s with cam := { s.cam with svcAt := s.clock } } else s

/-- Runs a command of an accepted line: `starting` in the interval, error 06 below its level, otherwise its effect, which replies under the line's tag (R130, R333). -/
def State.ianel (s : State) (p : Nat) (ok : Level → Bool) (act : State → Option String → State) : State :=
  if !(s.camlanOn && s.conServed p) then s
  else
    let (tag, s) := s.takeLine p
    if s.starting then s.say p tag ["starting"]
    else if !ok (s.con p).level then s.say p tag [errLine 6]
    else act (s.noteService p) tag

/-- A command that only reports. -/
def State.report (s : State) (p : Nat) (f : State → List String) : State :=
  s.ianel p (fun _ => true) (fun s tag => s.say p tag (f s))

/-! Bytes (R318 to R321, R329) -/

/-- Lines taken into a byte stream until n bytes are held. -/
def takeBytes (n : Nat) : List OutLine → List Byte → List OutLine × List Byte
  | [], acc => ([], acc)
  | l :: t, acc => if n ≤ acc.length then (l :: t, acc) else takeBytes n t (acc ++ l.bytes)

/-- Camlan moves what it holds for a port into the transmit FIFO of 256 bytes, in order, without waiting (R329; DESIGN CHOICE, log entry 52). -/
def State.pump (s : State) (p : Nat) : State :=
  if !s.conServed p then s
  else
    let c := s.con p
    let room := 256 - c.tx.length
    let (out, bytes) := takeBytes room c.out c.sending
    (s.setCon p { c with out := out, sending := bytes.drop room, tx := c.tx ++ bytes.take room }).showCon p

/-- Notices withheld from a typed line are sent (R327). -/
def State.flushNotices (s : State) (p : Nat) : State :=
  let l := (s.con p).withheld
  let s := s.setCon p { s.con p with withheld := [] }
  l.foldl (fun s b =>
    let c := s.con p
    if 3072 < c.outBytes then s.setCon p { c with dropped := c.dropped + 1 }
    else s.setCon p { c with out := c.out ++ [OutLine.mk c.noteTag false true false b] }) s

/-- Bare text on a port: an echo or a prompt. -/
def State.bare (s : State) (p : Nat) (t : String) : State :=
  let c := s.con p
  s.setCon p { c with out := c.out ++ [OutLine.mk none false false true t] }

end Sys2Proof.Machine
end

