-- ==== Sys2Proof/Machine/Staging.lean ====
section
/-!
DEFINITION. Staging and confirming a configuration from either console and from the tag (R337 to R341, R374, R375).
-/

namespace Sys2Proof.Machine

/-! The staged configuration -/

/-- Settings with a list of others put over them. -/
def overlay (base : Settings) (l : List (PKey × PVal)) : Settings := l.foldl (fun b e => Settings.put b e.1 e.2) base

/-- The configuration that confirming now would put in force. -/
def State.stagedCfg (s : State) : Settings := overlay s.nv.confirmed s.nv.staged

/-- The present check value (R340). -/
def State.checkNow (s : State) : Nat := checkOf s.stagedCfg

/-- What differs from the confirmed configuration, by key. -/
def diffOf (confirmed new : Settings) (keys : List PKey) : List (PKey × PVal) :=
  (keys.filter (fun k => decide (Settings.get new k ≠ Settings.get confirmed k))).map (fun k => (k, Settings.get new k))

/-- The keys of a list, the first occurrence of each. -/
def keysOf : List (PKey × PVal) → List PKey
  | [] => []
  | e :: t => e.1 :: (keysOf t).filter (fun k => decide (k ≠ e.1))

/-- The number of a configuration's source in a log argument, port or tag, which the manual does not fix (DESIGN CHOICE, log entry 1): 0 and 1 the ports, 2 the tag. -/
def cfgSource (n : Nat) : Nat := Config.freeOf 981 n % 256

abbrev srcTag : Nat := 2

/-- `stage show` (R341). -/
def State.stageLines (s : State) : List String :=
  (sortKeys (s.nv.staged.map (fun e => e.1))).map (fun k =>
    keyText s.stagedCfg k ++ " was=" ++ valText (PName.info k.name).kind (cfgVal s.nv.confirmed k))

/-! The commissioning record (R374, Table 16-5) -/

/-- `stage show` lines, each ending in LF, that fit DUMP whole. -/
def dumpFit (room : Nat) : List (List Byte) → List Byte
  | [] => []
  | l :: t => if l.length ≤ room then l ++ dumpFit (room - l.length) t else []

abbrev recBase : Nat := 0x50000400

/-- The record is rewritten; a confirmation by the tag brings its own result. -/
def State.writeRecord (s : State) (conf : Option (List Byte)) : State :=
  let old := s.rdBytes (recBase + 0x18) 12
  let kept := if s.ld recBase 2 = 1 then old else u16 0 ++ u8 0xFF ++ List.replicate 9 (0 : Byte)
  let lines := s.stageLines.map (fun t => asciiBytes t ++ [(0x0A : Byte)])
  let all := (lines.map List.length).foldl (· + ·) 0
  let dump := dumpFit 892 lines
  let b := u16 1 ++ u16 (s.ld (recBase + 2) 2 + 1) ++ u8 s.lcs ++ [0, 0, 0] ++ u32 (checkOf s.nv.confirmed) ++ u32 s.nv.cfgGen
    ++ u32 (if s.nv.staged = [] then 0 else s.checkNow) ++ u16 s.nv.staged.length ++ u16 (dump.length + if dump.length < all then 0x8000 else 0)
    ++ conf.getD kept ++ List.replicate 28 (0 : Byte) ++ (dump ++ List.replicate 892 (0 : Byte)).take 892
  s.wrBytes recBase (b ++ u32 (crc32 b))

/-! Staging (R338) -/

/-- Key material of R404. -/
def keyMaterial : PName → Bool
  | .partKeyhash | .secSvcKeyhash | .secVendorService | .crewKey => true
  | _ => false

/-- Staging is open to a session: INSTALLER in COMMISSIONING, SERVICE in COMMISSIONING or SERVICE (R338); key material at SERVICE level in SERVICE only (R404). (DEDUCED, log entry 70) -/
def State.stagingOpen (s : State) (l : Level) (keys : Bool) : Bool :=
  match l with
  | .installer => decide (s.lcs = lcsCommissioning)
  | .service => decide (s.lcs = lcsService) || (decide (s.lcs = lcsCommissioning) && !keys)
  | _ => false

/-- Error 07 with the life-cycle state. -/
def State.stateErr (s : State) : String := errLine 7 ("state=" ++ lcsWord s.lcs)

/-- `set`: every pair or none (R338). (DEDUCED, log entry 58) -/
def State.stagePairs (s : State) (src : Nat) (pairs : List (PKey × PVal)) : String × State :=
  let range (b : PKey) (rule : String) : String := errLine 9 ("key=" ++ PKey.text b ++ " rule=" ++ rule)
  match pairs.find? (fun e => !pairOk e.1 e.2) with
  | some e => (range e.1 "R6", s)
  | none =>
    let l := pairs.map (fun e => (e.1, canonVal (PName.info e.1.name).kind e.2))
    let new := overlay s.stagedCfg l
    let staged := diffOf s.nv.confirmed new (keysOf (s.nv.staged ++ l))
    match brokenRules new (staged.map (fun e => e.1.name)) with
    | b :: _ => (range b.1 b.2, s)
    | [] =>
      let s : State := { s with nv := { s.nv with staged := staged } }
      let s := s.logS 0x0E06 (u8 (cfgSource src) ++ u32 staged.length ++ u32 s.checkNow)
      ("set staged=" ++ toString staged.length ++ " check=" ++ checkText s.checkNow, s.writeRecord none)

/-- SET (R338). -/
def doSetParams (s : State) (port : Nat) (pairs : List (PKey × PVal)) : State :=
  s.ianel port (fun _ => true) (fun s tag =>
    if !s.stagingOpen (s.con port).level (pairs.any (fun e => keyMaterial e.1.name)) then s.say port tag [s.stateErr]
    else
      let (r, s) := s.stagePairs port pairs
      s.say port tag [r])

/-- STAGE_SHOW: the last line is the reply's noun; an empty staging is `ok` (R325, R341). -/
def doStageShow (s : State) (port : Nat) : State :=
  s.report port (fun s => if s.nv.staged = [] then ["ok"] else s.stageLines)

/-- STAGE_CHECK (R341). -/
def doStageCheck (s : State) (port : Nat) : State :=
  s.report port (fun s => ["stage staged=" ++ toString s.nv.staged.length ++ " check=" ++ checkText s.checkNow])

/-- STAGE_DUMP: the canonical serialization of the staged configuration (R339). -/
def doStageDump (s : State) (port : Nat) : State := s.report port (fun s => dumpLines s.stagedCfg)

/-- STAGE_DROP (R341): with nothing staged it replies `ok` and logs nothing. -/
def doStageDrop (s : State) (port : Nat) : State :=
  s.ianel port (fun _ => true) (fun s tag =>
    if !s.stagingOpen (s.con port).level false then s.say port tag [s.stateErr]
    else if s.nv.staged = [] then s.say port tag ["ok"]
    else
      let s : State := { s with nv := { s.nv with staged := [] } }
      let s := (s.logS 0x0E06 (u8 (cfgSource port) ++ u32 0 ++ u32 s.checkNow)).writeRecord none
      s.say port tag ["ok"])

/-! Confirming (R340, R341) -/

/-- Enrolling a new key hash in a slot sets its partition's rollback floor to 0 (R103). -/
def resetFloors (floors : List (Nat × Nat)) (changed : List PKey) : List (Nat × Nat) :=
  changed.foldl (fun l k => if k.name = .partKeyhash then Tab.put 0 l k.idx 0 else l) floors

/-- Key hashes that changed are logged with code 0x1303: tenant slots and service slots. -/
def State.logHashes (s : State) (changed : List PKey) : State :=
  changed.foldl (fun s k =>
    match k.name with
    | .partKeyhash => s.logS0 0x1303 (u8 (Config.freeOf 982 0) ++ u8 k.idx)
    | .secSvcKeyhash => s.logS0 0x1303 (u8 (Config.freeOf 982 1) ++ u8 k.idx)
    | _ => s) s

/-- SEC.KHVALID shows the enrolled slots: tenants by the configuration in force, services by the confirmed one (Table 19-4). -/
def State.showHashes (s : State) : State :=
  let bits (l : Settings) (n : PName) (ks : List Nat) : Nat := ks.foldl (fun m k => if Settings.get l (PKey.mk n k) ≠ .absent then m + 2 ^ k else m) 0
  s.wrN Reg.SEC_KHVALID (bits s.inForce .partKeyhash [1, 2, 3, 4, 5, 6, 7] + 256 * bits s.nv.confirmed .secSvcKeyhash [0, 1, 2, 3])

/-- The result of a confirmation: its error, or the numbers of parameters applied and pending a reset. -/
structure Confirmed where
  err : Nat
  detail : String
  applied : Nat
  pending : Nat
  deriving DecidableEq, Repr

/-- `confirm` with a check value: 11 when it differs, 12 with nothing staged, 9 when a check fails; otherwise both copies take the staged configuration and the staging is erased (R340, R341). (DEDUCED, log entry 59) -/
def State.confirmCheck (s : State) (src check : Nat) : Confirmed × State :=
  let cfg := s.stagedCfg
  let changed := s.nv.staged.map (fun e => e.1)
  let refuse (n : Nat) (d : String) : Confirmed × State := (⟨n, d, 0, 0⟩, s.logS0 0x0E07 (u8 (cfgSource src) ++ u8 n))
  if check ≠ s.checkNow then refuse 11 ""
  else if s.nv.staged = [] then refuse 12 ""
  else
    match brokenRules cfg (changed.map (fun k => k.name)) with
    | b :: _ => refuse 9 ("key=" ++ PKey.text b.1 ++ " rule=" ++ b.2)
    | [] =>
      let m := (changed.filter (fun k => decide ((PName.info k.name).applied = .reset))).length
      let n := changed.length - m
      let serials := (changed.filter (fun k => decide (k.name = .chnSeatSerial))).map (fun k => k.idx)
      let r := s.nv.rad
      let rad := if s.lcs = lcsService then { r with changed := r.changed ++ serials.filter (fun i => !r.changed.contains i) } else r
      let s : State := { s with nv := { s.nv with confirmed := cfg, staged := [], cfgGen := s.nv.cfgGen + 1, rad := rad, floors := resetFloors s.nv.floors changed } }
      let s := s.logS0 0x0E05 (u8 (cfgSource src) ++ u32 check ++ u32 n ++ u32 m)
      let s := (s.logHashes changed).showHashes
      let s := if changed.any (fun k => decide (k.name = .strokePeriod) || decide (k.name = .strokeHeat)) then
          s.logS 0x0204 (u8 ((Settings.get cfg (PKey.mk .strokePeriod 0) |> numOf |>.getD 0) / 1000).toNat ++ u8 ((Settings.get cfg (PKey.mk .strokeHeat 0) |> numOf |>.getD 0) / 1000).toNat)
        else s
      let s := if changed.any (fun k => decide (k.name = .partSlots)) then s.writeSlots cfg else s
      let s := if changed.any (fun k => decide (k.name = .partGrants)) then ((List.range 7).map (· + 1)).foldl State.loadGrants s else s
      (⟨0, "", n, m⟩, s)

/-- CONFIRM (R340). -/
def doConfirm (s : State) (port : Nat) (check : Word) : State :=
  s.ianel port (fun _ => true) (fun s tag =>
    if !s.stagingOpen (s.con port).level false then s.say port tag [s.stateErr]
    else
      let (r, s) := s.confirmCheck port check.toNat
      let s := s.writeRecord none
      if r.err ≠ 0 then s.say port tag [errLine r.err r.detail]
      else s.say port tag ["confirm applied=" ++ toString r.applied ++ " pending_reset=" ++ toString r.pending ++ " check=" ++ checkText check.toNat])

/-! The tag (R375) -/

/-- The value of a hex digit in either case. -/
def hexVal (b : Byte) : Option Nat :=
  let n := b.toNat
  if 0x30 ≤ n ∧ n ≤ 0x39 then some (n - 0x30) else if 0x41 ≤ n ∧ n ≤ 0x46 then some (n - 55) else if 0x61 ≤ n ∧ n ≤ 0x66 then some (n - 87) else none

/-- The number of a run of hex digits, none when one is not. -/
def hexNum : List Byte → Nat → Option Nat
  | [], acc => some acc
  | b :: t, acc => match hexVal b with
    | some d => hexNum t (acc * 16 + d)
    | none => none

/-- TAG_CONFIRMATION (R375): a valid field with a new CONFSEQ is executed as `confirm`, code 0x1002, its result in the record; an invalid one is logged with 0x1003 by the first check that fails, in the rule's order. -/
def doTagConfirmation (s : State) : State :=
  if !s.camlanOn || s.starting || s.tag.confAt.isNone then s
  else
    let s := s.setTag { s.tag with confAt := none }
    let f := s.rdBytes 0x500007C0 16
    let seq := leNat (f.take 2)
    let bad := if leNat ((f.drop 12).take 2) ≠ crc16 (f.take 12) then 1 else if f.getD 14 0 ≠ 0x43 then 2 else if (hexNum ((f.drop 4).take 8) 0).isNone then 3 else 0
    if bad ≠ 0 then s.logS 0x1003 (u16 seq ++ u8 (Config.freeOf 0x1003 bad))
    else if seq = s.ld (recBase + 0x18) 2 then s
    else
      let (r, s) := s.confirmCheck srcTag ((hexNum ((f.drop 4).take 8) 0).getD 0)
      let s := s.logS0 0x1002 (u16 seq ++ u8 r.err)
      s.writeRecord (some (u16 seq ++ u8 r.err ++ u8 r.applied ++ u8 r.pending ++ [0, 0, 0] ++ u32 s.strokeNo))

def execSetParams (port : Nat) (pairs : List (PKey × PVal)) (s : State) := done (doSetParams s port pairs)
def execStageShow (port : Nat) (s : State) := done (doStageShow s port)
def execStageCheck (port : Nat) (s : State) := done (doStageCheck s port)
def execStageDrop (port : Nat) (s : State) := done (doStageDrop s port)
def execStageDump (port : Nat) (s : State) := done (doStageDump s port)
def execConfirm (port : Nat) (check : Word) (s : State) := done (doConfirm s port check)
def execTagConfirmation (s : State) := done (doTagConfirmation s)

end Sys2Proof.Machine
end

