-- ==== Sys2Proof/Machine/Configure.lean ====
section
/-!
DEFINITION. Camlan's block configuration: the registers it writes from the parameters in force, when it starts and when a confirmation applies (R338 to R341 and the register maps of every block).
-/

namespace Sys2Proof.Machine

/-- A number in force in 1/1,000 of its unit, derived defaults included; 0 where absent. -/
def State.cfgMilli (s : State) (n : PName) (i : Nat := 0) : Int := (cfgNum s.inForce n i).getD 0

/-- A number in force as a field: its value over a step in 1/1,000 of the unit, to the nearest, never below 0. -/
def State.cfgField (s : State) (n : PName) (step : Nat) (i : Nat := 0) : Nat := (roundDiv (s.cfgMilli n i) step).toNat

/-- A temperature or another signed value in whole units as a field of 8 bits. -/
def State.cfgS8 (s : State) (n : PName) (i : Nat := 0) : Nat := (roundDiv (s.cfgMilli n i) 1000 % 256).toNat

/-- The exponent of a power of two. -/
def log2Of (n : Nat) : Nat := Nat.log2 n

/-- The keep-alive path (06, Registers): CHEM is 0 none, 1 Li-ion, 2 LiFePO4, 3 NiMH; tracking runs from the start (Table 5-8), and a changed kpa.aux_mode starts or stops the output (R152). -/
def State.configureKpa (s : State) : State :=
  let chem := ([1, 2, 3, 0] : List Nat).getD (s.parS .kpaKbatChem) 0
  let s := s.wrN Reg.KPA_KINCFG (s.cfgField .kpaKinVmin 1 + (roundRat ((s.cfgMilli .kpaKinFrac : Rat) * 256 / 1000)).toNat * 2 ^ 16)
  let s := s.wrN Reg.KPA_CHG0 (chem + s.cfgField .kpaKbatCells 1000 * 16 + s.parS .kpaDetect * 256 + s.cfgField .kpaKbatCap 1000 * 2 ^ 16)
  let s := s.wrN Reg.KPA_CHG1 (s.cfgField .kpaChgIcc 1000 + s.cfgField .kpaChgVcv 1 * 2 ^ 16)
  let s := s.wrN Reg.KPA_CHG2 (s.cfgField .kpaChgTpre 1000 + s.cfgField .kpaChgTtot 100 * 256 + s.parS .kpaEoc * 2 ^ 16)
  let s := s.wrN Reg.KPA_NIMH (s.cfgField .kpaNimhDv 1000 + s.cfgField .kpaNimhDtdt 100 * 256 + s.cfgField .kpaNimhBlank 10000 * 2 ^ 16)
  let s := s.wrN Reg.KPA_ZONE0 (s.cfgS8 .kpaZoneT 0 + s.cfgS8 .kpaZoneT 1 * 256 + s.cfgS8 .kpaZoneT 2 * 2 ^ 16 + s.cfgS8 .kpaZoneT 3 * 2 ^ 24)
  let s := s.wrN Reg.KPA_ZONE1 (s.cfgS8 .kpaZoneT 4 + s.cfgField .kpaZoneHyst 1000 * 256)
  let s := s.wrN Reg.KPA_KIDCFG (s.cfgField .kpaKidOhm 10000)
  let s := s.wrN Reg.KPA_AUXCFG (s.parS .kpaAuxMode + s.cfgField .kpaAuxV 10 * 16 + s.cfgField .kpaAuxI 1000 * 2 ^ 16)
  let ratio := (roundRat ((s.cfgMilli .kpaAuxRatio : Rat) * 16 / 1000)).toNat
  let nratio := (roundRat ((s.cfgMilli .kpaAuxNratio : Rat) * 16 / 1000)).toNat
  let s := s.wrN Reg.KPA_AUXSCL (ratio + nratio * 2 ^ 16 + (s.cfgField .kpaAuxVrch 50 - 1) * 2 ^ 26)
  let s := s.wrN Reg.KPA_BSCFG (s.cfgField .kpaBsVoc 1 + s.cfgField .kpaBsQual 100 * 2 ^ 16)
  let s := s.setBit Reg.KPA_CTRL 2 true
  if s.rowing then (s.setBit Reg.KPA_CTRL 1 (decide (s.parS .kpaAuxMode ≠ 0))).auxWritten else s

/-- The OCS code: fcs.ocs rounded down to a whole code of 3.125 mV over meas.rshunt (R164). -/
def State.ocsCode (s : State) : Nat := min 63 ((s.cfgMilli .fcsOcs * s.parN .measRshunt) / 3125000000).toNat

/-- A mask of channels in force. -/
def State.parMask (s : State) (n : PName) (i : Nat := 0) : Nat := (s.parL n i).foldl (fun m c => m ||| 2 ^ c) 0

/-- Measurement: the inversion of the shunt, OCS, the channels, averaging and installer trims of the HVS (R177), the NTC inputs (07, Registers). -/
def State.configureMeas (s : State) : State :=
  let inv := decide (s.parS .measShuntInv = 1)
  let s := (s.setBit Reg.CCA_CTRL 1 inv).setBit Reg.FCS_CTRL 1 inv
  let s := s.setFld Reg.FCS_OCS 0 6 s.ocsCode
  let s := (s.setFld Reg.HVS_CTRL 0 6 (s.parMask .hvsEn)).setFld Reg.HVS_CTRL 8 3 (log2Of (s.parI .hvsAvg))
  let s := (List.range 6).foldl (fun s c => s.setFld (Reg.HVS_TRIM c) 0 16
    (clampInt (-32768) 32767 ((s.nv.trims.hvs.getD c (0, 0)).1 + s.parN .hvsGain c / 1000) % 65536).toNat) s
  s.setFld Reg.TMP_CTRL 0 8 (s.parMask .tmpEn)

/-- Contactors, safety inputs and isolator (10, 11, Registers). BKIEN is set where ctr.c.ibreak is set (R238). -/
def State.configureCoils (s : State) : State :=
  let s := (List.range 12).foldl (fun s c =>
    let bki := if s.par .ctrIbreak c = .absent then 0 else 2 ^ 24
    s.wrN (Reg.CTR_CFG c) (s.cfgField .ctrPullin 1000 c + s.cfgField .ctrHold 1000 c * 256 + bki + s.parS .ctrFbinv c * 2 ^ 25)) s
  let s := (s.setBit Reg.CTR_CTRL 0 true).setBit Reg.PUMP_CTRL 0 true
  let s := (List.range 8).foldl (fun s n => (s.wrN (Reg.SIN_CFG n) (s.parS .sinSrc n)).sinSourceSet n) s
  let fitted := decide (s.parS .mdiFitted = 1)
  let s := (s.setBit Reg.MDI_CTRL 0 fitted).setBit Reg.MDI_CTRL 1 (decide (s.parS .mdiDirinv = 1))
  let s := if s.driving || decide (s.mdi.cmd = 3) then s else s.setFld Reg.MDI_CTRL 8 8 (s.parI .mdiDuty)
  s.wrN Reg.MDI_CFG (s.parS .mdiSrcOpen + 1 + (s.parS .mdiSrcClosed + 1) * 16 + s.cfgField .mdiIlim 100 * 256 + s.cfgField .mdiTmove 100 * 2 ^ 16)

/-- Partitions: quota, image window and grants (04, Registers). -/
def State.configureParts (s : State) : State :=
  ((List.range 7).map (· + 1)).foldl (fun s k =>
    let s := match s.par .partQuota k with
      | .span b n => (s.wrN (Reg.PART_QBASE (k - 1)) (b - 0x20000000)).wrN (Reg.PART_QSIZE (k - 1)) (n * 1024)
      | _ => (s.wrN (Reg.PART_QBASE (k - 1)) 0).wrN (Reg.PART_QSIZE (k - 1)) 0
    let s := match s.par .partXip k with
      | .span b n => (s.wrN (Reg.PART_XIPBASE (k - 1)) b).wrN (Reg.PART_XIPSIZE (k - 1)) (n * 1024)
      | _ => (s.wrN (Reg.PART_XIPBASE (k - 1)) 0).wrN (Reg.PART_XIPSIZE (k - 1)) 0
    s.loadGrants k) s

/-- Bit timing of a controller: each field one less than its value, each SJW equal to its TSEG2 (R292); delay compensation at DBRP 1 and 2 (R293). -/
def State.canTiming (s : State) (x : Nat) (n d : Option (Nat × Nat × Nat)) : State :=
  let s := match n with
    | some (p, a, b) => s.wrN (Reg.CAN_NBT x) (p - 1 + (a - 1) * 256 + (b - 1) * 2 ^ 16 + (b - 1) * 2 ^ 24)
    | none => s
  match d with
  | some (p, a, b) =>
    let s := s.wrN (Reg.CAN_DBT x) (p - 1 + (a - 1) * 256 + (b - 1) * 2 ^ 16 + (b - 1) * 2 ^ 24)
    s.wrN (Reg.CAN_TDC x) (if p ≤ 2 then 1 + (1 + a) * p * 256 + 4 * 2 ^ 16 else 0)
  | none => s.wrN (Reg.CAN_TDC x) 0

/-- A schedule matrix into its registers: columns, cells, CYCLES (R299). -/
def State.canMatrixInto (s : State) (x cycles : Nat) (cols : List (Nat × Nat)) (cells : List (Nat × Nat × Nat × Nat)) : State :=
  let s := (List.range 16).foldl (fun s c => let e := cols.getD c (0, 0); s.wrN (Reg.CAN_COL x c) (e.1 + e.2 * 2 ^ 16)) s
  let s := { s with regs := Tab.drop (fun a => decide (Reg.CAN_CELL x 0 ≤ a) && decide (a ≤ Reg.CAN_CELL x 255)) s.regs }
  let s := cells.foldl (fun s e => s.setFld (Reg.CAN_CELL x ((16 * e.1 + e.2.1) / 4)) (8 * ((16 * e.1 + e.2.1) % 4)) 8 (e.2.2.1 + 4 * e.2.2.2)) s
  s.setFld (Reg.CAN_MTX x) 0 7 cycles

/-- CANA and CANC (13): on, transceiver normal, restricted while the interval lasts (Table 5-8). -/
def State.configureCan (s : State) (x : Nat) : State :=
  let d := cfgData s.inForce x
  let s := s.canTiming x (cfgNominal s.inForce x) d
  let s := match s.par .canMatrix x with
    | .matrix cols cells => (s.canMatrixInto x (s.parI .canCycles x) cols cells).setBit (Reg.CAN_MTX x) 31 true
    | _ => s
  let s := ((s.setBit (Reg.CAN_CTRL x) 0 true).setBit (Reg.CAN_CTRL x) 1 d.isSome).setBit (Reg.CAN_CTRL x) 7 true
  ((s.setBit (Reg.CAN_CTRL x) 8 (decide (s.parS .canWake x = 1))).setBit (Reg.CAN_CTRL x) 2 (!s.rowing)).canCtrl x

/-- Crew transmit objects on CANB, one for each window (DESIGN CHOICE, log entry 60). -/
abbrev crewRef : Nat := 0
abbrev crewSum : Nat := 1
abbrev crewOrd : Nat := 2
abbrev crewOut : Nat := 3
abbrev crewJoin : Nat := 4

/-- The start and the end of a crew window [us after catch] (Table 13-6). -/
def State.crewWindow (s : State) (c : Nat) : Nat × Nat :=
  let e := ([(0, 5), (5, 15), (15, 50), (50, 85), (85, 95)] : List (Nat × Nat)).getD c (0, 0)
  (s.period * e.1 / 100, s.period * e.2 / 100)

/-- The matrix Camlan writes for the crew link: the five windows of Table 13-6, the summary in the lane's own row (R306, R311). -/
def State.crewMatrix (s : State) : State :=
  let lane := s.parI .crewLane
  let cells := (List.range 64).flatMap (fun r =>
    [(r, 0, 1, crewRef)] ++ (if r = lane then [(r, 1, 1, crewSum)] else []) ++ [(r, 2, 2, crewOrd), (r, 3, 2, crewOut), (r, 4, 2, crewJoin)])
  (s.canMatrixInto 1 64 ((List.range 5).map s.crewWindow) cells).setBit (Reg.CAN_MTX 1) 31 true

/-- CANB: off without the crew link; else 500 kbit/s and 2 Mbit/s, restricted with the presence frame, the reference captured (R293, R302, R305, R306, R308). -/
def State.configureCrew (s : State) : State :=
  if s.parS .crewEnable = 0 then s.setBit (Reg.CAN_CTRL 1) 0 false
  else
    let s := s.canTiming 1 (some (1, 127, 32)) (some (1, 29, 10))
    let s := (s.crewMatrix).wrN (Reg.CAN_REFID 1) (0x010 + 2 ^ 31)
    let s := (((s.setBit (Reg.CAN_CTRL 1) 0 true).setBit (Reg.CAN_CTRL 1) 1 true).setBit (Reg.CAN_CTRL 1) 6 true).setBit (Reg.CAN_CTRL 1) 7 true
    let s := s.setBit (Reg.CAN_CTRL 1) 8 (decide (s.parS .canWake 1 = 1))
    (if s.rowing then s else (s.setBit (Reg.CAN_CTRL 1) 2 true).setBit (Reg.CAN_CTRL 1) 3 true).canCtrl 1

/-- A console port: its rate unless it adopted one, and autobaud (R318, R319). -/
def State.configureCon (s : State) (p : Nat) : State :=
  let rate := s.parI .conBaud p
  let s := if (s.con p).adopted ∨ rate = 0 then s else s.wrN (Reg.CON_BAUD p) (roundDiv 24000000 rate).toNat
  s.setBit (Reg.CON_CTRL p) 3 (decide (s.parS .conAutobaud p = 1))

/-- The Q-port's XIP window and the safe levels of the pins (17, Registers). -/
def State.configureQp (s : State) : State :=
  let s := ((s.setBit Reg.QP_CTRL 0 true).setBit Reg.QP_CTRL 1 true).setBit Reg.QP_CTRL 2 (decide (s.parS .qpXipSeqcont = 1))
  let s := (s.setBit Reg.QP_CTRL 3 (decide (s.parS .qpXipAhead = 1))).setBit Reg.QP_CTRL 5 (decide (s.parS .qpXipCmd = 1))
  let s := s.wrN Reg.QP_XIPCLK (s.parI .qpXipDiv + s.parI .qpXipDummy * 256 + s.parI .qpDesel * 2 ^ 16)
  let bits (f : Nat → Bool) : Nat := (List.range 32).foldl (fun m n => if f n then m + 2 ^ n else m) 0
  let safe : List Nat := (List.range 32).map (fun n => s.parS .gpioSafe n)
  (s.wrN Reg.GPIO_SAFE (bits (fun n => safe.getD n 0 == 2))).wrN Reg.GPIO_SAFEDIR (bits (fun n => safe.getD n 0 != 0))

/-- The chain, the radio and the twin comparison: retries, transmit power, join channel (08, 09, Registers). -/
def State.configureLinks (s : State) : State :=
  let s := s.setFld Reg.CHN_RETRY 0 2 (s.parI .chnRetry)
  (s.setFld Reg.RAD_CTRL 8 8 (s.cfgS8 .radTxpwr)).setFld Reg.RAD_CTRL 16 6 (s.parI .radJoinCh)

/-- Every block follows the parameters in force. -/
def State.configure (s : State) : State :=
  let s := ((s.configureKpa).configureMeas).configureCoils
  let s := (((s.configureParts).configureCan 0).configureCan 2).configureCrew
  let s := (((s.configureCon 0).configureCon 1).configureQp).configureLinks
  s.showHashes

/-- A confirmation takes effect: the parameters applied at confirmation, and the blocks that carry them (R340). -/
def State.applyConfirmed (s : State) : State :=
  let t := s.applyAt .confirmation
  if t.inForce = s.inForce then t else t.configure

end Sys2Proof.Machine
end

