-- ==== Sys2Proof/Machine/Lcs.lean ====
section
/-!
DEFINITION. The life cycle (R124 to R127, R405, R406, R410): transitions, their conditions, their wipe sets, and the commands that ask for them.
-/

namespace Sys2Proof.Machine

/-- Bits of a wipe set (Table 5-13). -/
abbrev wKrad : Nat := 1
abbrev wKlogin : Nat := 2
abbrev wCfg : Nat := 4
abbrev wCfgstg : Nat := 8
abbrev wTen : Nat := 16
abbrev wTagu : Nat := 32
abbrev wTagc : Nat := 64

/-- The wipe set of a transition; none where Table 5-7 has no such transition. -/
def wipeOf (source target : Nat) : Option Nat :=
  if target = lcsRetired then (if source = lcsRetired then none else some (wKrad + wKlogin + wCfg + wCfgstg + wTen + wTagu))
  else if source = lcsBlank ∧ target = lcsCommissioning then some wTagu
  else if source = lcsCommissioning ∧ target = lcsBlank then some (wKrad + wKlogin + wCfg + wCfgstg + wTen + wTagu)
  else if (source = lcsCommissioning ∨ source = lcsService) ∧ target = lcsSealed then some (wCfgstg + wTagc)
  else if source = lcsSealed ∧ target = lcsService then some 0
  else if (source = lcsSealed ∨ source = lcsService) ∧ target = lcsCommissioning then some (wKrad + wKlogin + wTen + wCfgstg + wTagu)
  else none

/-- The names of a wipe set, `-` for none. -/
def wipeText (w : Nat) : String :=
  let names := ((List.range 7).filter (fun b => decide (getField w b 1 = 1))).map
    (fun b => (["krad", "klogin", "cfg", "cfgstg", "ten", "tagu", "tagc"] : List String).getD b "")
  if names = [] then "-" else joinText "," names

/-- The conditions that hold for every request of a transition, by the codes of 0x0503: 1 not in Table 5-7, 5 SEALED_ONCE blown, 6 no confirmed configuration, 7 a staged change, 8 the interval, 9 a contactor not open; 0 when all hold. -/
def State.lcsCommon (s : State) (target : Nat) : Nat :=
  let sealing := decide (s.lcs = lcsCommissioning) && decide (target = lcsSealed)
  if (wipeOf s.lcs target).isNone then 1
  else if target = lcsBlank ∧ s.bit Reg.LCS_FUSES 0 = true then 5
  else if sealing = true ∧ s.nv.confirmed = [] then 6
  else if sealing = true ∧ s.nv.staged ≠ [] then 7
  else if !s.rowing then 8
  else if !s.allOpen then 9
  else 0

/-- A transition is refused (R125). -/
def State.lcsRefused (s : State) (target cond : Nat) : State := s.logS0 0x0503 (u8 target ++ u8 cond)

/-- The life-cycle record is written, both copies, from what LCS shows (R124). -/
def State.writeLcs (s : State) : State :=
  { s with nv := { s.nv with lcsRec := lcsBoth s.lcs (s.fld Reg.LCS_STATE 4 3) (s.fld Reg.LCS_WIPESET 0 7) (s.fld Reg.LCS_TCOUNT 0 16) } }

/-- A transition begins: the record takes PENDING and the wipe set, the ACC counters are committed (R126, R362). -/
def State.beginTransition (s : State) (target wipe : Nat) : State :=
  let s := s.tallyCommit
  let s := ((s.setFld Reg.LCS_STATE 4 3 target).wrN Reg.LCS_WIPESET wipe).setBit Reg.LCS_STAT 0 true
  { s.writeLcs with nv := { s.writeLcs.nv with pendingLcs := some (target, wipe) } }

/-- LCS_REQUEST: a write of LCS.REQ with its key; the conditions of R125 that need no session are judged here. -/
def doLcsRequest (s : State) (value : Word) : State :=
  let t := getField value.toNat 0 3
  if getField value.toNat 16 16 ≠ 0x4C43 ∨ s.camlanOn = false ∨ s.nv.pendingLcs.isSome = true then s
  else
    match s.lcsCommon t, wipeOf s.lcs t with
    | 0, some w => s.beginTransition t w
    | c, _ => s.lcsRefused t c

def execLcsRequest (value : Word) (s : State) := done (doLcsRequest s value)

/-! Completion (R126, R127) -/

/-- Parameters of TEN: key-hash slots and partition settings. (DEDUCED, log entry 48) -/
def tenParam : PName → Bool
  | .partSlots | .partQuota | .partGrants | .partXip | .partKeyhash => true
  | _ => false

/-- The items of a wipe set are erased (Table 5-7). -/
def State.wipe (s : State) (w : Nat) : State :=
  let has (b : Nat) : Bool := decide (getField w b 1 = 1)
  let nv := s.nv
  let nv := if has 0 then { nv with rad := { nv.rad with netKey := [], access := 0, seats := [], jcounts := [], changed := [] } } else nv
  let nv := if has 1 then { nv with codes := [] } else nv
  let nv := if has 2 then { nv with confirmed := [] } else nv
  let nv := if has 3 then { nv with staged := [] } else nv
  let nv := if has 4 then { nv with confirmed := nv.confirmed.filter (fun e => !tenParam e.1.name), floors := [] } else nv
  let s : State := { s with nv := nv }
  let s := if has 5 then s.wipeTagU else s
  if has 6 then s.wipeTagC else s

/-- Configured seats without a radio key (R406). -/
def State.unpaired (s : State) : Nat := (s.readSet.filter (fun n => !s.nv.rad.seats.any (fun e => decide (e.1 = n)))).length

/-- A transition is completed: the wipe set erased, the new state written, fuses blown, the event logged, and a reset with cause LCS (R126, R127, R374). -/
def State.finishTransition (s : State) (code target wipe : Nat) : State :=
  let old := s.lcs
  let unpaired := s.unpaired
  let s := s.wipe wipe
  let s := ((s.setFld Reg.LCS_STATE 0 3 target).setFld Reg.LCS_STATE 4 3 7).incSat Reg.LCS_TCOUNT 0 16 1
  let s := s.writeLcs
  let s : State := { s with nv := { s.nv with pendingLcs := none } }
  let s := if target = lcsSealed then s.setBit Reg.LCS_FUSES 0 true else if target = lcsRetired then s.orReg Reg.LCS_FUSES 6 else s
  let s := s.writeRecord none
  let s := if target = lcsSealed then s.logS 0x1306 (u8 unpaired) else s
  let s := s.logS code ((if code = 0x0502 then u8 old else []) ++ u8 target ++ u8 wipe)
  s.assertReset 9

/-- LCS_TRANSITION_COMPLETE (R126). -/
def doLcsTransitionComplete (s : State) : State :=
  match s.nv.pendingLcs with
  | some (t, w) => if s.camlanOn then s.finishTransition 0x0502 t w else s
  | none => s

def execLcsTransitionComplete (s : State) := done (doLcsTransitionComplete s)

/-! The console's requests (Table 14-5) -/

/-- The reply of a refused request, by the failed condition. (DEDUCED, log entry 49) -/
def State.lcsErr (s : State) (cond : Nat) : String :=
  if cond = 1 then s.stateErr else if cond = 3 then errLine 13 else if cond = 4 then errLine 6 else errLine 16 ("cond=" ++ toString cond)

/-- A request on a port: `own` gives the condition of the command itself that fails, 0 when none does. -/
def State.lcsCommand (s : State) (p target : Nat) (own : State → Nat) : State :=
  s.ianel p (fun _ => true) (fun s tag =>
    if s.nv.pendingLcs.isSome then s.say p tag [errLine 8]
    else
      match wipeOf s.lcs target with
      | none => (s.lcsRefused target 1).say p tag [s.lcsErr 1]
      | some w =>
        let c := if own s = 0 then s.lcsCommon target else own s
        if c = 0 then
          let text := "lcs from=" ++ lcsWord s.lcs ++ " to=" ++ lcsWord target ++ " wipe=" ++ wipeText w
          (s.beginTransition target w).say p tag [text]
        else (s.lcsRefused target c).say p tag [s.lcsErr c])

/-- LCS_COMMISSION: from BLANK at CON0 with the nameplate code, else at SERVICE level. -/
def doLcsCommission (s : State) (port code : Nat) : State :=
  s.lcsCommand port lcsCommissioning (fun s =>
    if s.lcs = lcsBlank then (if port ≠ 0 then 2 else if code ≠ s.nv.nameplate then 3 else 0)
    else if (s.con port).level.isService then 0 else 4)

/-- LCS_BLANK: at INSTALLER level. -/
def doLcsBlank (s : State) (port : Nat) : State :=
  s.lcsCommand port lcsBlank (fun s => if (s.con port).level.isIplus then 0 else 4)

/-- LCS_SEAL: at INSTALLER level from COMMISSIONING, at SERVICE level from SERVICE. -/
def doLcsSeal (s : State) (port : Nat) : State :=
  s.lcsCommand port lcsSealed (fun s =>
    let l := (s.con port).level
    if l.isService || (l.isIplus && decide (s.lcs = lcsCommissioning)) then 0 else 4)

/-- LCS_SERVICE: with a SERVICE authentication on the port. -/
def doLcsService (s : State) (port : Nat) : State :=
  s.lcsCommand port lcsService (fun s => if (s.con port).authed then 0 else 10)

/-- LCS_RETIRE: at SERVICE level, or at INSTALLER level in COMMISSIONING. -/
def doLcsRetire (s : State) (port : Nat) : State :=
  s.lcsCommand port lcsRetired (fun s =>
    let l := (s.con port).level
    if l.isService || (l.isIplus && decide (s.lcs = lcsCommissioning)) then 0 else 4)

/-! The return from SERVICE (R410) -/

/-- The return falls due 24 hours after the last SERVICE command and stays due until it takes effect. (DEDUCED, log entry 47) -/
def State.serviceDue (s : State) : Bool :=
  s.rowing && decide (s.lcs = lcsService) && s.nv.pendingLcs.isNone && (s.cam.svcBlocked || decide (s.cam.svcAt + hours24 ≤ s.clock))

/-- An attempt: the transition to SEALED, or, with a contactor not open, 0x0503 once per watch and every closing order refused. -/
def State.serviceReturn (s : State) : State :=
  if !s.serviceDue then s
  else if s.allOpen then s.beginTransition lcsSealed (wCfgstg + wTagc)
  else
    let s := if s.cam.svcLogged then s else s.lcsRefused lcsSealed 9
    { s with cam := { s.cam with svcBlocked := true, svcLogged := true } }

/-- SERVICE_TIMEOUT (R410). -/
def doServiceTimeout (s : State) : State := s.serviceReturn

def execLcsCommission (port code : Nat) (s : State) := done (doLcsCommission s port code)
def execLcsBlank (port : Nat) (s : State) := done (doLcsBlank s port)
def execLcsSeal (port : Nat) (s : State) := done (doLcsSeal s port)
def execLcsService (port : Nat) (s : State) := done (doLcsService s port)
def execLcsRetire (port : Nat) (s : State) := done (doLcsRetire s port)
def execServiceTimeout (s : State) := done (doServiceTimeout s)

end Sys2Proof.Machine
end

