-- ==== Sys2Proof/Machine/Crew.lean ====
section
/-!
DEFINITION. Camlan's frames on CANA and the crew link on CANB (R304 to R317, R336).
-/

namespace Sys2Proof.Machine

/-! CANA (R304, Table 13-5) -/

/-- A classical base frame, or an FD frame with bit-rate switch: identifier, deadline, DLC, ROMOK, data. -/
def txFrame (fd : Bool) (ident deadline dlc : Nat) (romok : Bool) (data : List Byte) : CanObj :=
  ⟨ident % 2048 * 2 ^ 18 + (if fd then 3 * 2 ^ 30 else 0), deadline % 2 ^ 24 + dlc * 2 ^ 24 + (if romok then 2 ^ 28 else 0),
    (data ++ List.replicate 64 (0 : Byte)).take 64⟩

/-- Camlan writes a transmit object and requests it; a request whose deadline has passed ends first. -/
def State.sendObj (s : State) (x o : Nat) (f : CanObj) : State :=
  let s := if s.txPending x o && (s.can x).attempt != some o && (match s.txDeadline x o with | some d => decide (d ≤ s.now) | none => false) then s.txEnd x o 5 else s
  if s.txPending x o then s
  else (s.setCan x { s.can x with tx := Tab.put CanObj.init (s.can x).tx o f }).txRequestOne x o

/-- The base of the latest cell view. -/
def State.viewNow (s : State) : Nat := viewBase (s.viewCopy % 2)

/-- LIMITS: limits in 0.1 A, and the voltages of the highest string at VHI and of the lowest at VSHUT in 0.1 V. -/
def State.canaLimits (s : State) : List Byte :=
  let v := s.viewNow
  let cells (i : Nat) : Nat := ((s.strSeats i).map (fun n => (s.seat n).cells)).foldl (· + ·) 0
  let hi := (s.strings.map (fun i => cells i * s.vhi i)).foldl max 0
  let lo : Nat := match s.strings.map (fun i => cells i * s.vshut i) with
    | [] => 0
    | x :: t => t.foldl min x
  u16 (roundDiv (s.ld (v + 0x4C) 4) 100).toNat ++ u16 (roundDiv (s.ld (v + 0x50) 4) 100).toNat ++ u16 (roundDiv hi 1000).toNat ++ u16 (roundDiv lo 1000).toNat

/-- STATE: VBUS, the current, the SOC, the warning level and Camlan's state. -/
def State.canaState (s : State) : List Byte :=
  let v := s.viewNow
  u16 (roundDiv (s.ld (v + 0x44) 4) 100).toNat ++ s16 (roundDiv (signed 32 (s.ld (v + 0x40) 4)) 100) ++ u16 (s.ld (v + 0x54) 2) ++ u8 (s.ld (v + 0x18) 1)
    ++ u8 (s.ld (v + 0x10) 1)

/-- CANA_PERIODIC: LIMITS and STATE with a deadline of the period (R304). -/
def doCanaPeriodic (s : State) : State :=
  if !(s.rowing && s.parS .canaStd == 1) then s
  else
    let d := s.parI .canaPeriod * 1000
    let id := s.parI .canaId
    (s.sendObj 0 0 (txFrame false id d 8 false s.canaLimits)).sendObj 0 1 (txFrame false (id + 1) d 8 false s.canaState)

/-- WARNING at a change of the warning level, with a deadline of 100 ms (R304), from the lowest of objects 2 to 7 that is not pending. (DESIGN CHOICE, log entry 158) -/
def State.canaWarning (s : State) (old : Nat) : State :=
  if !(s.rowing && s.parS .canaStd == 1) then s
  else
    let o := ((List.range 6).map (· + 2)).find? (fun o => !s.txPending 0 o)
    s.sendObj 0 (o.getD 7) (txFrame false (s.parI .canaId + 2) 100000 8 false (u8 s.est.warn ++ u8 old ++ u16 (s.ld (s.viewNow + 0x54) 2) ++ u32 s.strokeNo))

/-! The crew link -/

def State.setCrew (s : State) (c : CrewSt) : State := { s with crew := c }

abbrev cwOff : Nat := 0
abbrev cwListen : Nat := 1
abbrev cwJoining : Nat := 2
abbrev cwMember : Nat := 3
abbrev cwLeader : Nat := 4
abbrev cwDuplicate : Nat := 5

/-- This lane's number. -/
def State.lane (s : State) : Nat := s.parI .crewLane

/-- The crew link works on this lane: enabled and not silenced. -/
def State.crewOn (s : State) : Bool := s.camlanOn && decide (s.crew.st ≠ cwOff) && decide (s.crew.st ≠ cwDuplicate)

def State.leading (s : State) : Bool := decide (s.crew.st = cwLeader)

/-- The lowest lane of a list. -/
def lowest : List Nat → Option Nat
  | [] => none
  | x :: t => some (t.foldl min x)

/-- A lane set as a mask of 64 bits. -/
def laneMask (l : List Nat) : Nat := l.foldl (fun m n => m ||| 2 ^ n) 0

/-- The leader changes: code 0x0D13 with a cause the manual does not number, 0 takeover, 1 interval, 2 reference, 3 declared gone (DESIGN CHOICE, log entry 1). -/
def State.newLeader (s : State) (l cause : Nat) : State :=
  if s.crew.leader = some l then s
  else
    let old := s.crew.leader.getD 0xFF
    (s.setCrew { s.crew with leader := some l }).logS0 0x0D13 (u8 old ++ u8 l ++ u8 (Config.freeOf 983 cause % 256))

/-- Lock gained or lost (R308); without lock nothing is sent in an exclusive window. -/
def State.setLock (s : State) (v : Bool) : State :=
  if s.crew.locked = v then s
  else
    let s := (s.setCrew { s.crew with locked := v, lockAt := s.strokeNo }).logS 0x0D10 (u8 s.lane ++ s32 s.crew.err ++ u8 (if v then 1 else 0))
    if v then s else s.txAbortOne 1 crewSum

/-- The deputy's part starts or stops (R313); its own references give its rows (R311). -/
def State.setDeputy (s : State) (v : Bool) : State :=
  if s.crew.deputy = v then s
  else ((s.setCrew { s.crew with deputy := v, sender := none }).setFld (Reg.CAN_MTX 1) 16 6 (if v then 0 else s.fld (Reg.CAN_MTX 1) 16 6)).logS 0x0D14 (u8 s.lane ++ u8 (if v then 1 else 0))

/-- This lane becomes leader: its rows follow its own stroke number, and it is admitted if no lane is (R311, R313). (DEDUCED, log entry 28) -/
def State.takeLead (s : State) (cause : Nat) : State :=
  let s := (s.setDeputy false).newLeader s.lane cause
  let lanes := if s.crew.lanes.contains s.lane then s.crew.lanes else s.crew.lanes ++ [s.lane]
  let s := s.setCrew { s.crew with st := cwLeader, lanes := lanes, joins := [], sender := none }
  (s.setLock true).setFld (Reg.CAN_MTX 1) 16 6 0

/-- A lane with this lane's number: it falls silent until the next reset (R317). -/
def State.duplicate (s : State) : State :=
  let s := ((s.setCrew { s.crew with st := cwDuplicate, send := [], outs := [] }).setDeputy false).logS 0x0D16 (u8 s.lane)
  s.txAbort 1 0xFFFFFFFF

/-! Sending -/

/-- The status summary (Table 13-8). -/
def State.summaryBytes (s : State) (ref : Nat) : List Byte :=
  let t := s.est.ticket
  let cap : Rat := (s.strings.map s.strCap).foldl (· + ·) 0
  let closed := s.strings.foldl (fun m i => if (s.str i).st = 4 then m + 2 ^ i else m) 0
  let q := (if s.crew.locked then 1 else 0) + (if s.readSet.any (fun n => (s.seat n).blind) then 2 else 0)
    + (if s.strings.any (fun i => (s.str i).st == 5 || (s.str i).st == 6) then 4 else 0)
  u8 0 ++ u8 s.lane ++ u8 s.stateCode ++ u8 s.est.warn ++ u32 ref ++ u16 (centi s.est.soc) ++ u16 (centi s.batSoh) ++ s32 s.meas.cur ++ u32 (s.volt chBus)
    ++ u32 (s.appliedLim tChgBat).toNat ++ u32 (s.appliedLim tDisBat).toNat ++ u32 (roundRat (cap / 10)).toNat ++ u8 s.cam.helm.holder ++ u8 s.cam.helm.rank
    ++ u8 closed ++ u8 s.mdiPos ++ u32 (min (s.rdN Reg.IMD_RP) (s.rdN Reg.IMD_RN)) ++ u32 ((t.map Ticket.n).getD 0) ++ s32 ((t.map Ticket.power).getD 0)
    ++ u8 s.easyCause ++ u8 q ++ s16 s.crew.err ++ List.replicate 12 (0 : Byte)

/-- The summary is requested in the lane's own row, only while locked and admitted (R308, R311); one that an earlier row left pending is replaced. -/
def State.sendSummary (s : State) (ref : Nat) : State :=
  if s.crew.locked && s.crew.lanes.contains s.lane && decide (ref % 64 = s.lane) then
    (s.txAbortOne 1 crewSum).sendObj 1 crewSum (txFrame true (0x080 + s.lane) 0 15 false (s.summaryBytes ref))
  else s

/-- The join frame, the presence frame in the stake-boat interval, once locked for one heat and until admitted (R310). -/
def State.sendJoin (s : State) : State :=
  if s.crew.locked && !s.crew.lanes.contains s.lane && decide (s.heat ≤ (s.strokeNo + 2 ^ 32 - s.crew.lockAt) % 2 ^ 32) then
    let b := u32 (s.rdN Reg.SYS_UID0) ++ u8 (s.fld Reg.STK_CTRL 0 2) ++ u8 s.heat ++ u8 (if s.rowing then 0 else 1) ++ [0]
    s.sendObj 1 crewJoin (txFrame true (0x1C0 + s.lane) 0 8 true b)
  else s

/-- The crew key in force, if one is set (R314). -/
def State.crewKey (s : State) : Option (List Byte) := match s.par .crewKey with | .table l => some l | _ => none

/-- The MAC of an orders frame: over the identifier and bytes 0 to 55 under the crew key (Table 13-8). -/
def crewMac (key : List Byte) (lane : Nat) (b : List Byte) : List Byte := (List.range 8).map (fun i => (Config.aesCmac key (u16 (0x100 + lane) ++ b)).getD i 0)

/-- The bytes of an orders frame with its MAC (R314, Table 13-8). -/
def State.ordersBytes (s : State) (f : CrewSend) (lead : Nat) : List Byte :=
  let ents := f.entries.flatMap (fun e => u8 e.kind ++ u8 e.target ++ [0, 0] ++ s32 e.value ++ u32 e.ref)
  let (k, p, d, r) := f.surge.getD (0, 0, 0, 0)
  let b := u32 lead ++ u8 s.lane ++ u8 f.entries.length ++ u8 k ++ [0] ++ (ents ++ List.replicate 36 (0 : Byte)).take 36 ++ s32 p ++ u32 d ++ u32 r
  b ++ crewMac (s.crewKey.getD []) f.lane b

/-- The next orders frame of the leader is written and requested. -/
def State.nextOrders (s : State) : State :=
  match s.crew.send with
  | f :: _ => s.sendObj 1 crewOrd (txFrame true (0x100 + f.lane) 0 15 false (s.ordersBytes f s.strokeNo))
  | [] => s

/-- The next outcome frame is written and requested, for the first outcomes window that starts (R315). -/
def State.nextOutcome (s : State) : State :=
  if !s.crewOn then s
  else match s.crew.outs with
  | b :: _ => s.sendObj 1 crewOut (txFrame true (0x080 + s.lane) 0 15 false b)
  | [] => s

/-- A crew frame was sent: the next of its kind follows. -/
def State.crewSent (s : State) (o : Nat) : State :=
  if o = crewOrd then (s.setCrew { s.crew with send := s.crew.send.drop 1 }).nextOrders
  else if o = crewOut then (s.setCrew { s.crew with outs := s.crew.outs.drop 1 }).nextOutcome
  else s

/-- TX_ATTEMPT_END with what Camlan does on CANB when a frame of the crew link was sent (R307, R315). -/
def doTxEnd (s : State) (x : CanId) (ok lostArb : Bool) (lec : Nat) : State :=
  let s' := doTxAttemptEnd s x ok lostArb lec
  match x, (s.can 1).attempt with
  | .b, some o => if ok && s.crewOn then s'.crewSent o else s'
  | _, _ => s'

def execTxAttemptEnd (x : CanId) (ok lostArb : Bool) (lec : Nat) (s : State) := done (doTxEnd s x ok lostArb lec)

/-- What a lane sends in a stroke once it knows the reference's STROKE. -/
def State.crewStroke (s : State) (ref : Nat) : State :=
  let s := s.sendSummary ref
  if s.leading then (s.txAbortOne 1 crewOrd).nextOrders.nextOutcome else s.sendJoin.nextOutcome

/-- The reference payload (Table 13-8). -/
def State.referenceBytes (s : State) : List Byte :=
  u32 s.strokeNo ++ u8 (s.crew.leader.getD s.lane) ++ u8 ((if s.crew.deputy then 1 else 0) + (if s.wph = 0 then 2 else 0)) ++ u8 (s.fld Reg.STK_CTRL 0 2)
    ++ u8 s.heat ++ leBytes 8 (laneMask s.crew.lanes)

/-- CREW_REFERENCE_SEND: the leader's or the deputy's reference starts on the bus at catch + 20 us (R308). -/
def doCrewReferenceSend (s : State) : State :=
  if !(s.crewOn && s.rowing && (s.leading || s.crew.deputy) && s.canReady 1) then s
  else
    let s := s.atUs 20
    let f := txFrame true 0x010 0 10 false s.referenceBytes
    let s := s.setCan 1 { s.can 1 with tx := Tab.put CanObj.init (s.can 1).tx crewRef f, attempt := some crewRef, exclusive := true, reqAt := Tab.put 0 (s.can 1).reqAt crewRef s.now }
    let s := ((s.setBit (Reg.CAN_TXPEND 1) crewRef true).wrN (Reg.CAN_TXST 1 crewRef) 1).setFld (Reg.CAN_TXST 1 crewRef) 8 24 s.now
    let s := (s.setBit (Reg.CAN_STAT 1) 2 false).setCrew { s.crew with ref := some s.strokeNo, lastRef := s.strokeNo, missing := 0 }
    s.crewStroke s.strokeNo

/-! What is received (Table 13-8) -/

/-- An unsigned field of a frame. -/
def crewField (d : List Byte) (off n : Nat) : Nat := leNat ((d.drop off).take n)

/-- A signed field of 4 bytes. -/
def crewInt (d : List Byte) (off : Nat) : Int := signed 32 (crewField d off 4)

def summaryOf (d : List Byte) : Summary :=
  ⟨crewField d 2 1, crewField d 8 2, crewInt d 12, crewField d 20 4, crewField d 24 4, crewField d 28 4, decide (crewField d 49 1 % 2 = 1)⟩

/-- The entries that COUNT gives, at most three. -/
def ordersOf (d : List Byte) : List CrewEntry :=
  (List.range (min 3 (crewField d 5 1))).map (fun e => ⟨crewField d (8 + 12 * e) 1, crewField d (9 + 12 * e) 1, crewInt d (12 + 12 * e), crewField d (16 + 12 * e) 4⟩)

def outcomesOf (d : List Byte) : List CrewOutcome :=
  (List.range (min 3 (crewField d 2 1))).map (fun e =>
    ⟨crewField d (8 + 12 * e) 1, crewField d (9 + 12 * e) 1, crewField d (10 + 12 * e) 1, crewField d (11 + 12 * e) 1, crewField d (12 + 12 * e) 4, crewInt d (16 + 12 * e)⟩)

/-- Whether a frame that ends at a time of this stroke lies in the window of a column (R307, Table 13-6). (DEDUCED, log entry 159) -/
def State.inCrewWindow (s : State) (c us : Nat) : Bool := decide ((s.crewWindow c).1 ≤ us) && decide (us ≤ (s.crewWindow c).2)

/-- A frame outside its window, with another length or of another type is discarded and counted (R307). -/
def State.stray (s : State) : State := s.setCrew { s.crew with strays := s.crew.strays + 1 }

/-! Receiving references (R308 to R313) -/

/-- The phase error of a start of frame: SOFREF − catch − 20 us, between −P/2 and +P/2. -/
def State.phaseErr (s : State) (sof : Nat) : Int :=
  let p : Int := s.period
  let d : Int := signed 32 ((sof : Int) - (s.stk.base : Int) - 20 |>.emod (2 ^ 32)).toNat
  (d + p / 2) % p - p / 2

/-- Lock by the runs of references (R308). -/
def State.lockStep (s : State) (e : Int) : State :=
  let inside := decide (e.natAbs ≤ 20)
  let good := if inside then s.crew.good + 1 else 0
  let bad := if inside then 0 else s.crew.badRun + 1
  let s := s.setCrew { s.crew with good := good, badRun := bad, err := e }
  if !s.crew.locked && decide (8 ≤ good) then s.setLock true
  else if s.crew.locked && decide (4 ≤ bad) then s.setLock false
  else s

/-- ROWOFS follows the reference's STROKE (R311). -/
def State.setRows (s : State) (stroke : Nat) : State := s.setFld (Reg.CAN_MTX 1) 16 6 ((stroke + 2 ^ 32 - s.strokeNo) % 64)

/-- What a reference gives in a stroke: the phase and lock, rows, lanes and the leader (R308 to R313). -/
def State.takeReference (s : State) (data : List Byte) (sof : Nat) : State :=
  let stroke := crewField data 0 4
  let leader := crewField data 4 1
  let flags := crewField data 5 1
  let dep := decide (flags % 2 = 1)
  let s := if s.crew.deputy && !dep then s.setDeputy false else s
  let changed := decide (s.crew.sender ≠ some (leader, dep))
  let wasLocked := s.crew.locked
  let s := s.setCrew { s.crew with ref := some stroke, lastRef := stroke, missing := 0, sender := some (leader, dep),
                                   watchAt := if flags / 2 % 2 = 1 then some stroke else s.crew.watchAt }
  let s := if s.crew.deputy then s else s.lockStep (s.phaseErr sof)
  let s := if changed || (s.crew.locked && !wasLocked) then s.setRows stroke else s
  let s := if dep then s else s.newLeader leader 2
  let new := (List.range 64).filter (fun l => decide (getField (crewField data 8 8) l 1 = 1))
  let s := (new.filter (fun l => !s.crew.lanes.contains l)).foldl (fun s l => s.logS 0x0D11 (u8 l)) s
  let s := s.setCrew { s.crew with lanes := new, gone := s.crew.gone.filter (fun l => !new.contains l), missed := s.crew.missed.filter (fun e => new.contains e.1),
                                   sums := s.crew.sums.filter (fun e => new.contains e.1) }
  let mine := new.contains s.lane
  let st := if s.crew.deputy then cwMember else if !s.crew.locked then (if s.crew.st = cwListen then cwListen else cwJoining) else if mine then cwMember else cwJoining
  let s := s.setCrew { s.crew with st := st }
  (if mine then s.txAbortOne 1 crewJoin else s).crewStroke stroke

/-- CREW_REFERENCE_RECEIVED (R308 to R313): the start of frame is captured; before the start of the timer the reference arms ARMRUN. A reference of another length is discarded; none is for its phase, from which R308 takes the error. -/
def doCrewReferenceReceived (s : State) (data : List Byte) (sof : Nat) : State :=
  let s := if s.bit (Reg.CAN_CTRL 1) 0 && s.bit (Reg.CAN_REFID 1) 31 && decide (s.fld (Reg.CAN_REFID 1) 0 11 = 0x010) then s.wrN (Reg.CAN_SOFREF 1) sof else s
  if !s.crewOn then s
  else if data.length ≠ 16 then s.stray
  else
    let s := s.setCrew { s.crew with heardRef := true }
    if !s.running then (s.setBit (Reg.CAN_CTRL 1) 9 true).wrN (Reg.CAN_REFDLY 1) ((s.parN .strokePeriod).toNat - 21)
    else if s.leading && decide (crewField data 4 1 = s.lane) then s
    else s.takeReference data sof

/-- A lane whose lock is known: this lane's own, another's by its latest summary (Table 13-8). (DEDUCED, log entry 24) -/
def State.laneLocked (s : State) (l : Nat) : Bool :=
  if l = s.lane then s.crew.locked else match s.crew.sums.find? (fun e => decide (e.1 = l)) with | some e => e.2.1.locked | none => false

/-- CREW_REFERENCE_MISSING (R308, R313): after 8 missing references the lowest locked admitted lane other than the leader becomes deputy; another lane loses lock. (DEDUCED, log entry 24) -/
def doCrewReferenceMissing (s : State) : State :=
  if !(s.crewOn && !s.leading && decide (8 ≤ s.crew.missing)) then s
  else
    let others := s.crew.lanes.filter (fun l => decide (some l ≠ s.crew.leader) && s.laneLocked l)
    if decide (lowest others = some s.lane) then s.setDeputy true
    else if s.crew.deputy then s
    else s.setLock false

/-! Admission and leadership (R310, R313) -/

/-- CREW_JOIN_RECEIVED: a join frame of another lane is kept for the sender's next watch; one of this lane with another UIDLO is a duplicate. -/
def doCrewJoinReceived (s : State) (lane : Nat) (data : List Byte) (us : Nat) : State :=
  let j := (lane, crewField data 0 4, crewField data 4 1, crewField data 5 1)
  if !s.crewOn then s
  else if data.length ≠ 8 ∨ s.inCrewWindow 4 us = false then s.stray
  else if lane = s.lane then (if j.2.1 ≠ s.rdN Reg.SYS_UID0 then s.duplicate else s)
  else
    let s := if !s.rowing && decide (lane < s.lane) then s.setCrew { s.crew with heardLower := true } else s
    if s.crew.joins.contains j then s else s.setCrew { s.crew with joins := s.crew.joins ++ [j] }

/-- One join frame judged at the leader's watch: reasons 1 period, 2 heat, 3 taken (R310, R418). -/
def State.admitLane (s : State) (j : Nat × Nat × Nat × Nat) : State :=
  let (lane, uid, period, heat) := j
  let taken := s.crew.lanes.contains lane || s.crew.joins.any (fun k => decide (k.1 = lane) && decide (k.2.1 ≠ uid) && !(s.crew.joins.takeWhile (fun x => decide (x ≠ k))).contains j)
  let reason := if period ≠ s.fld Reg.STK_CTRL 0 2 then 1 else if heat ≠ s.heat then 2 else if taken then 3 else 0
  if reason ≠ 0 then s.logS 0x0D15 (u8 lane ++ u8 reason)
  else (s.setCrew { s.crew with lanes := s.crew.lanes ++ [lane], missed := s.crew.missed.filter (fun e => decide (e.1 ≠ lane)) }).logS 0x0D11 (u8 lane)

/-- The leader at a catch that begins its watch: a lower admitted lane takes over, else the join frames of the ended watch are judged (R310, R313). -/
def State.crewWatch (s : State) : State :=
  let s := s.setCrew { s.crew with refused := false }
  if !(s.crewOn && s.rowing) then s
  else if s.leading then
    match lowest s.crew.lanes with
    | some l =>
      if l < s.lane then (s.newLeader l 0).setCrew { s.crew with st := cwMember, leader := some l, joins := [] }
      else
        let s := s.crew.joins.foldl State.admitLane s
        s.setCrew { s.crew with joins := [] }
    | none => s
  else s.setCrew { s.crew with joins := [] }

/-- At the end of the stake-boat interval: restricted operation ends, and a lane that heard no reference and no lower lane leads (R129, R313). -/
def State.crewInterval (s : State) : State :=
  let s := ((s.setBit (Reg.CAN_CTRL 1) 2 false).setBit (Reg.CAN_CTRL 1) 3 false).canCtrl 1
  if s.crewOn && !s.crew.heardRef && !s.crew.heardLower then s.takeLead 1 else s

/-- The crew link at a catch: references and summary rows of the ended stroke are counted, and a lower admitted lane takes over at the catch that begins the leader's watch (R308, R312, R313); join and outcome frames that wait are requested. (DEDUCED, log entry 23) -/
def State.crewCatch (s : State) : State :=
  if !s.crewOn then s
  else
    let c := s.crew
    let missing := if c.ref.isSome then 0 else c.missing + 1
    let row := (c.ref.map (· % 64)).getD ((c.lastRef + missing) % 64)
    let counted := c.lanes.contains row && decide (row ≠ s.lane) && decide (s.cam.state ≠ .stake)
    let n := if c.seen.contains row then 0 else Tab.get 0 c.missed row + 1
    let c := { c with ref := none, missing := missing, seen := [], missed := if counted then Tab.put 0 c.missed row n else c.missed,
                      tPrev := if c.ref.isSome then c.tPrev else 0 }
    let s := s.setCrew c
    let watch := match c.watchAt with
      | some w => decide ((c.lastRef + 1 + missing + 2 ^ 32 - w) % 2 ^ 32 % s.watchLen = 0)
      | none => false
    let s := if s.rowing && !s.leading && watch && decide (lowest c.lanes = some s.lane) && decide (c.leader ≠ some s.lane) then s.takeLead 0 else s
    s.sendJoin.nextOutcome

/-- CREW_SUMMARY_RECEIVED: the lane's row counts as arrived (R312); a status frame with this lane's own identifier is a duplicate (R317). -/
def doCrewSummaryReceived (s : State) (lane : Nat) (data : List Byte) (us : Nat) : State :=
  if !s.crewOn then s
  else if lane = s.lane then s.duplicate
  else if data.length ≠ 64 ∨ crewField data 0 1 ≠ 0 ∨ s.inCrewWindow 1 us = false then s.stray
  else
    let c := s.crew
    s.setCrew { c with seen := lane :: c.seen, sums := (c.sums.filter (fun e => decide (e.1 ≠ lane))) ++ [(lane, summaryOf data, c.lastRef)] }

/-- LANE_GONE: the third missed summary row (R312, R313): the lane leaves LANES, and with the leader gone the helm of the crew leader is freed and the lowest remaining lane leads. -/
def doLaneGone (s : State) (lane : Nat) : State :=
  if !(s.crewOn && s.crew.lanes.contains lane && decide (lane ≠ s.lane) && decide (3 ≤ Tab.get 0 s.crew.missed lane)) then s
  else
    let c := s.crew
    let last := match c.sums.find? (fun e => decide (e.1 = lane)) with | some e => e.2.2 | none => 0
    let rest := c.lanes.filter (fun l => decide (l ≠ lane))
    let s := (s.setCrew { c with lanes := rest, gone := c.gone ++ [lane], missed := Tab.put 0 c.missed lane 0, sums := c.sums.filter (fun e => decide (e.1 ≠ lane)) }).logS 0x0D12
      (u8 lane ++ u32 last)
    if c.leader ≠ some lane then s
    else
      let s := s.freeHelmOf 0x18 9
      match lowest rest with
      | some l => if l = s.lane then s.takeLead 3 else s.newLeader l 3
      | none => s

/-! Orders and outcomes (R314 to R316) -/

/-- An orders frame is discarded and logged at most once per watch: 1 window, 2 stroke, 3 leader, 4 MAC. (DESIGN CHOICE, log entry 27) -/
def State.refuseOrders (s : State) (lane reason : Nat) : State :=
  let s := s.setCrew { s.crew with discarded := s.crew.discarded + 1 }
  if s.crew.refused then s else (s.setCrew { s.crew with refused := true }).logS 0x0D17 (u8 lane ++ u8 reason)

/-- The first condition of R314 that an orders frame fails, 0 for none. -/
def State.ordersReason (s : State) (lane : Nat) (data : List Byte) (us : Nat) : Nat :=
  if s.inCrewWindow 2 us = false then 1
  else if s.crew.ref ≠ some (crewField data 0 4) then 2
  else if s.crew.leader ≠ some (crewField data 4 1) then 3
  else match s.crewKey with
    | some k => if crewMac k lane (data.take 56) = data.drop 56 then 0 else 4
    | none => 4

/-- Accepted entries are orders of rank 5 and source 0x18, stamped with the frame's completion; SURGE 1 and 2 are a request and a release (R314). -/
def State.takeOrders (s : State) (data : List Byte) : State :=
  let f := s.crew.frames.length
  let s := s.setCrew { s.crew with frames := s.crew.frames ++ [crewField data 0 4] }
  let l := ordersOf data
  let s := ((List.range l.length).zip l).foldl (fun s (e : Nat × CrewEntry) => s.placeOrder 0x18 5 e.2.kind e.2.target e.2.value e.2.ref s.now (.crew (4 * f + e.1))) s
  let surge := crewField data 6 1
  if surge = 1 ∨ surge = 2 then s.placeSurge ⟨0x18, 5, s.now, s.strokeNo, surge, crewInt data 44, crewField data 48 4, crewField data 52 4, .crew (4 * f)⟩
  else s

/-- CREW_ORDERS_RECEIVED (R307, R310, R314): a frame to another lane is not this lane's; the leading lane and a lane not admitted take none. (DEDUCED, log entry 27) -/
def doCrewOrdersReceived (s : State) (lane : Nat) (data : List Byte) (us : Nat) : State :=
  if !(s.crewOn && decide (lane = s.lane)) then s
  else if data.length ≠ 64 then s.stray
  else
    let s := s.atUs us
    let reason := s.ordersReason lane data us
    if reason ≠ 0 then s.refuseOrders lane reason
    else if s.leading || !s.crew.lanes.contains s.lane then s.setCrew { s.crew with discarded := s.crew.discarded + 1 }
    else s.takeOrders data

/-- Whether an origin is entry e of accepted frame f. -/
def fromFrame (f : Nat) : Origin → Bool
  | .crew i => decide (i / 4 = f)
  | _ => false

/-- After a resolution: one outcome frame for every orders frame accepted for the set, its outcomes in entry order and its surge result (R315). -/
def State.crewReplies (s : State) (outs : List Outcome) (surges : List SurgeOut) : State :=
  let l := (List.range s.crew.frames.length).zip s.crew.frames
  let img := s
  let frames := l.map (fun e =>
    let ents := (outs.filter (fun x => fromFrame e.1 x.order.origin)).map (fun x =>
      u8 x.code ++ u8 x.kind ++ u8 x.order.target ++ u8 x.winner ++ u32 x.order.ref ++ s32 (img.replyValue x))
    match surges.find? (fun x => fromFrame e.1 x.req.origin) with
    | some x =>
      let p := if x.result = 0 then x.req.power else x.offerP
      let t := if x.result = 0 then x.req.duration else x.offerT
      img.crewOutcomeFrame e.2 ents x.result x.ticket p t x.req.ref
    | none => img.crewOutcomeFrame e.2 ents 0xFF 0 0 0 0)
  (s.setCrew { s.crew with frames := [], outs := s.crew.outs ++ frames }).nextOutcome

/-- The chunks of up to three entries. -/
def chunk3 : List CrewEntry → List (List CrewEntry)
  | a :: b :: c :: t => [a, b, c] :: chunk3 t
  | [] => []
  | l => [l]

/-- The capacity of a lane [0.01 Ah] from its latest summary, or the leader's own (R316). -/
def State.laneCap (s : State) (l : Nat) : Nat :=
  if l = s.lane then (roundRat ((s.strings.map s.strCap).foldl (· + ·) 0 / 10)).toNat
  else match s.crew.sums.find? (fun e => decide (e.1 = l)) with | some e => e.2.1.cap | none => 0

/-- The entries that mirror an applied order on a lane (R316); `held` and `freed` say how the own helm changed. (DEDUCED, log entry 26) -/
def State.mirrorOf (s : State) (held freed : Bool) (lane : Nat) (x : Outcome) : List CrewEntry :=
  let o := x.order
  let total : Nat := (s.crew.lanes.map s.laneCap).foldl (· + ·) 0
  if x.code ≠ 0 ∨ o.rank < 3 ∨ 12 < o.rank then []
  else if (o.kind = kOpen ∨ o.kind = kClose) ∧ o.target = tBattery then [⟨o.kind, o.target, 0, 0⟩]
  else if o.kind = kTake ∧ held = true then [⟨kTake, o.target, 0, 0⟩]
  else if o.kind = kRelease ∧ freed = true then [⟨kRelease, o.target, 0, 0⟩]
  else if (o.kind = kDerate ∨ o.kind = kRaise) ∧ (o.target = tChgBat ∨ o.target = tDisBat) ∧ total ≠ 0 then [⟨x.kind, o.target, o.value * (s.laneCap lane : Int) / (total : Int), 0⟩]
  else []

/-- The leader forwards what its own resolution applied to every other admitted lane, in ascending order (R316). -/
def State.mirror (s : State) (outs : List Outcome) (before after : Nat) : State :=
  if !(s.crewOn && s.leading && s.parS .crewMirror == 1) then s
  else
    let held := decide (before = 0xFF) && decide (after ≠ 0xFF)
    let freed := decide (before ≠ 0xFF) && decide (after = 0xFF)
    let lanes := (List.range 64).filter (fun l => s.crew.lanes.contains l && decide (l ≠ s.lane))
    let send := lanes.flatMap (fun l => (chunk3 (outs.flatMap (s.mirrorOf held freed l))).map (fun e => CrewSend.mk l e none))
    s.setCrew { s.crew with send := s.crew.send ++ send }

/-- The words of a crew outcome on a console (R336, Table 13-8). (DEDUCED, log entry 61) -/
def crewOutcomeText (lane : Nat) (entries : List CrewOutcome) (sresult ticket : Nat) (spower : Int) (stime sref : Nat) : String :=
  "crew outcome lane=" ++ toString lane
    ++ entries.foldl (fun t e => t ++ " outcome=" ++ toString e.outcome ++ " kind=" ++ toString e.kind ++ " target=" ++ hex0x e.target ++ " winner=" ++ hex0x e.winner
        ++ " ref=" ++ toString e.ref ++ " value=" ++ toString e.value) ""
    ++ (if sresult = 0xFF then "" else " sresult=" ++ toString sresult ++ " ticket=" ++ toString ticket ++ " spower=" ++ toString spower ++ " stime=" ++ toString stime
        ++ " sref=" ++ toString sref)

/-- On the leader an outcome is recorded in TL0 and answers the console command that waits for it (R315, R336). -/
def State.takeOutcome (s : State) (lane : Nat) (data : List Byte) : State :=
  let entries := outcomesOf data
  let sresult := crewField data 44 1
  let sref := crewField data 60 4
  let first := entries.head?
  let s := s.logT0 0x0D18 (u8 lane ++ u8 ((first.map CrewOutcome.outcome).getD sresult) ++ u32 ((first.map CrewOutcome.ref).getD sref))
  let hit (w : CrewWait) : Bool :=
    decide (w.lane = lane) && (if w.surge then decide (sresult ≠ 0xFF) && decide (w.ref = sref) else entries.any (fun e => decide (e.ref = w.ref)))
  let text := crewOutcomeText lane entries sresult (crewField data 48 4) (crewInt data 52) (crewField data 56 4) sref
  let l := s.crew.waits.filter hit
  let s := s.setCrew { s.crew with waits := s.crew.waits.filter (fun w => !hit w) }
  l.foldl (fun s w => s.say w.port w.tag [text]) s

/-- CREW_OUTCOME_RECEIVED (R307, R315, R317, R336). -/
def doCrewOutcomeReceived (s : State) (lane : Nat) (data : List Byte) (us : Nat) : State :=
  if !s.crewOn then s
  else if lane = s.lane then s.duplicate
  else if data.length ≠ 64 ∨ crewField data 0 1 ≠ 1 ∨ s.inCrewWindow 3 us = false then s.stray
  else if !s.leading then s
  else s.takeOutcome lane data

/-- CREW_NOREPLY: a command without an outcome after 2 watches receives error 14 (R336). -/
def doCrewNoreply (s : State) (lane : Nat) : State :=
  let late (w : CrewWait) : Bool := decide (w.lane = lane) && decide (2 * s.watchLen ≤ (s.strokeNo + 2 ^ 32 - w.stroke) % 2 ^ 32)
  if !s.camlanOn then s
  else
    let l := s.crew.waits.filter late
    let s := s.setCrew { s.crew with waits := s.crew.waits.filter (fun w => !late w) }
    l.foldl (fun s w => s.say w.port w.tag [errLine 14]) s

/-- A crew command of a console, on the leading lane only (R336). -/
def State.crewCommand (s : State) (port lane ref : Nat) (surge : Bool) (f : CrewSend) : State :=
  s.ianel port Level.isIplus (fun s tag =>
    if !(s.crewOn && s.leading) then s.say port tag [errLine 16 "cond=leader"]
    else if lane = s.lane ∨ !s.crew.lanes.contains lane then s.say port tag [errLine 17]
    else s.setCrew { s.crew with send := s.crew.send ++ [f], waits := s.crew.waits ++ [⟨lane, ref, surge, port, tag, s.strokeNo⟩] })

/-- CREW_ORDER. -/
def doCrewOrder (s : State) (port lane kind target : Nat) (value : Int) (ref : Nat) : State :=
  s.crewCommand port lane ref false ⟨lane, [⟨kind, target, value, ref⟩], none⟩

/-- CREW_SURGE. -/
def doCrewSurge (s : State) (port lane : Nat) (power : Int) (duration ref : Nat) : State :=
  s.crewCommand port lane ref true ⟨lane, [], some (1, power, duration, ref)⟩

/-- The trim of a clean finish from this stroke's error (R308); none for the sender of the references and without a reference. (DEDUCED, log entry 25) -/
def State.crewTrim (s : State) : Option Int :=
  if s.crewOn && !s.leading && !s.crew.deputy && s.crew.ref.isSome then some (clampInt (-64) 63 (-(s.crew.err + s.crew.tPrev))) else none

def execCanaPeriodic (s : State) := done (doCanaPeriodic s)
def execCrewReferenceSend (s : State) := done (doCrewReferenceSend s)
def execCrewReferenceReceived (data : List Byte) (sof : Nat) (s : State) := done (doCrewReferenceReceived s data sof)
def execCrewReferenceMissing (s : State) := done (doCrewReferenceMissing s)
def execCrewJoinReceived (lane : Nat) (data : List Byte) (us : Nat) (s : State) := done (doCrewJoinReceived s lane data us)
def execCrewSummaryReceived (lane : Nat) (data : List Byte) (us : Nat) (s : State) := done (doCrewSummaryReceived s lane data us)
def execLaneGone (lane : Nat) (s : State) := done (doLaneGone s lane)
def execCrewOrdersReceived (lane : Nat) (data : List Byte) (us : Nat) (s : State) := done (doCrewOrdersReceived s lane data us)
def execCrewOutcomeReceived (lane : Nat) (data : List Byte) (us : Nat) (s : State) := done (doCrewOutcomeReceived s lane data us)
def execCrewNoreply (lane : Nat) (s : State) := done (doCrewNoreply s lane)
def execCrewOrder (port lane kind target : Nat) (value : Int) (ref : Nat) (s : State) := done (doCrewOrder s port lane kind target value ref)
def execCrewSurge (port lane : Nat) (power : Int) (duration ref : Nat) (s : State) := done (doCrewSurge s port lane power duration ref)

end Sys2Proof.Machine
end

