-- ==== Sys2Proof/Machine/Session.lean ====
section
/-!
DEFINITION. Sessions: logins, challenges, lockouts, codes (R330 to R332, R407, R408), and the commands about the session itself.
-/

namespace Sys2Proof.Machine

/-! Random words and challenges (R405, R407) -/

/-- A word of the SEC random source: free, 0 while RNG_OK is 0 (Table 19-4). -/
def State.randWord (s : State) : Nat × State := if s.bit Reg.SEC_STAT 2 then s.free else (0, s)

/-- A fresh challenge: the next ID and 16 random bytes, shown in SEC (R407). -/
def State.newChallenge (s : State) : Nat × State :=
  let id := (s.rdN Reg.SEC_CHALID + 1) % 2 ^ 32
  let (a, s) := s.randWord
  let (b, s) := s.randWord
  let (c, s) := s.randWord
  let (d, s) := s.randWord
  (id, ((((s.wrN Reg.SEC_CHALID id).wrN (Reg.SEC_NONCE 0) a).wrN (Reg.SEC_NONCE 1) b).wrN (Reg.SEC_NONCE 2) c).wrN (Reg.SEC_NONCE 3) d)

/-- The 16 bytes of the last nonce. -/
def State.nonceBytes (s : State) : List Byte := ([0, 1, 2, 3] : List Nat).flatMap (fun i => u32 (s.rdN (Reg.SEC_NONCE i)))

/-- Groups of four hex digits joined by `-`. -/
def groups4 : List Byte → String
  | a :: b :: c :: t => hexU 2 a.toNat ++ hexU 2 b.toNat ++ "-" ++ groups4 (c :: t)
  | l => hexBytes l

/-- SEC.AUTH takes the last exchange: purpose, 1 pass or 2 fail, and the slot; with no slot matched SLOT is free (DESIGN CHOICE, log entry 1). -/
def State.showAuth (s : State) (purpose : Nat) (slot : Option Nat) : State :=
  match slot with
  | some n => s.wrN Reg.SEC_AUTH (purpose + 4 + n % 256 * 256)
  | none =>
    let (f, s) := s.free
    s.wrN Reg.SEC_AUTH (purpose + 8 + f % 256 * 256)

/-- The 30 bytes that a response signs: UID, ID, NONCE, PURPOSE, LCS (R407). -/
def State.authMessage (s : State) (id : Nat) (nonce : List Byte) (purpose : Nat) : List Byte :=
  u32 (s.rdN Reg.SYS_UID0) ++ u32 (s.rdN Reg.SYS_UID1) ++ u32 id ++ nonce ++ u8 purpose ++ u8 s.lcs

/-- Whether a key identity may authenticate: an enrolled service slot of the confirmed configuration, or the vendor's 0xFF while `sec.vendor_service` is yes and its hash is fused (R408). -/
def State.slotEnrolled (s : State) (n : Nat) : Bool :=
  if n = 0xFF then s.bit Reg.SEC_STAT 1 && cfgVal s.nv.confirmed (PKey.mk .secVendorService 0) == .sym 1
  else decide (n < 4) && decide (Settings.get s.nv.confirmed (PKey.mk .secSvcKeyhash n) ≠ .absent)

/-- The key hash of an identity: a service slot's, or the fused hash of the vendor service key. -/
def State.keyHash (s : State) (n : Nat) : List Byte :=
  if n = 0xFF then Config.vendorServiceHash
  else match Settings.get s.nv.confirmed (PKey.mk .secSvcKeyhash n) with
    | .table b => b
    | _ => []

/-- The first identity of a list whose hash is that of a key recovered from the signature over the message (R408). -/
def State.signer (s : State) (ids : List Nat) (msg sig : List Byte) : Option Nat :=
  let keys := (Config.ecdsaCandidates (Config.sha256 msg) sig).take 4
  ids.find? (fun n => keys.any (fun q => decide (Config.sha256 q = s.keyHash n)))

/-- The key identity that a signature authenticates: the enrolled service slots in order, then the vendor (R408). -/
def State.matched (s : State) (msg sig : List Byte) : Option Nat := s.signer (([0, 1, 2, 3, 0xFF] : List Nat).filter s.slotEnrolled) msg sig

/-! Failures and lockout (R331) -/

def State.fails (s : State) (p : Nat) : List Nat := if p = 0 then s.nv.fails0 else s.nv.fails1
def State.setFails (s : State) (p : Nat) (l : List Nat) : State :=
  if p = 0 then { s with nv := { s.nv with fails0 := l } } else { s with nv := { s.nv with fails1 := l } }
def State.loginLocked (s : State) (p : Nat) : Bool := if p = 0 then s.nv.locked0 else s.nv.locked1
def State.setLocked (s : State) (p : Nat) (v : Bool) : State :=
  if p = 0 then { s with nv := { s.nv with locked0 := v } } else { s with nv := { s.nv with locked1 := v } }

/-- Microseconds since the failure that locked a port; a time base that a POR restarted shows none (DEDUCED, log entry 53). -/
def State.sinceFail (s : State) (p : Nat) : Nat := s.clock - (s.fails p).foldl max 0

/-- Seconds left of a lockout, rounded up (DEDUCED, log entry 53). -/
def State.lockLeft (s : State) (p : Nat) : Nat := (minutes10 - s.sinceFail p + 999999) / 1000000

/-- Error 10 with the seconds left. -/
def State.lockedErr (s : State) (p : Nat) : String := errLine 10 ("remaining=" ++ toString (s.lockLeft p))

/-- A failed login: recorded before the reply, code 0x0E02; the fifth within ten minutes locks the port out, code 0x0E03, and frees its session's helm (R331). -/
def State.loginFailed (s : State) (p : Nat) (l : Level) : State :=
  let f := within s.clock minutes10 (s.fails p) ++ [s.clock]
  let s := (s.setFails p f).logS 0x0E02 (u8 p ++ u8 l.code ++ u8 f.length)
  if f.length < 5 then s
  else
    let s := (s.setLocked p true).logS 0x0E03 (u8 p)
    match sessionSource p (s.con p).level with
    | some src => s.freeHelmOf src 8
    | none => s

/-- A login that succeeded: the failures are cleared and the session rises (R331). -/
def State.loginOk (s : State) (p : Nat) (l : Level) : State := (s.setFails p []).rise p l

/-- The code that a level needs, none when there is none: in BLANK and COMMISSIONING the nameplate code stands for an INSTALLER code not set (R331). -/
def State.codeOf (s : State) (k : Nat) : Option Nat :=
  match s.nv.codes.find? (fun e => decide (e.1 = k)) with
  | some e => some e.2
  | none => if k = 0 ∧ (s.lcs = lcsBlank ∨ s.lcs = lcsCommissioning) then some s.nv.nameplate else none

/-- A login by code: 0 INSTALLER, k the tenant of partition k. -/
def State.loginCode (s : State) (p : Nat) (l : Level) (k code : Nat) : State :=
  s.ianel p (fun _ => true) (fun s tag =>
    if 7 < k ∨ 999999 < code then s.say p tag [errLine 4]
    else if s.loginLocked p then s.say p tag [s.lockedErr p]
    else if s.codeOf k = some code then (s.loginOk p l).say p tag [loginLine p l]
    else (s.loginFailed p l).say p tag [errLine 13])

/-- LOGIN_INSTALLER. -/
def doLoginInstaller (s : State) (port code : Nat) : State := s.loginCode port .installer 0 code

/-- LOGIN_TENANT. -/
def doLoginTenant (s : State) (port k code : Nat) : State :=
  if k = 0 then s.ianel port (fun _ => true) (fun s tag => s.say port tag [errLine 4]) else s.loginCode port (.tenant k) k code

/-- LOGIN_SERVICE: a challenge for 60 s and one answer; SERVICE is not open in RETIRED (R332). -/
def doLoginService (s : State) (port : Nat) : State :=
  s.ianel port (fun _ => true) (fun s tag =>
    if s.lcs = lcsRetired then s.say port tag [s.stateErr]
    else if s.loginLocked port then s.say port tag [s.lockedErr port]
    else
      let (id, s) := s.newChallenge
      let s := s.setCon port { s.con port with challenge := some id, challengeAt := s.clock, nonce := s.nonceBytes }
      s.say port tag ["challenge id=" ++ toString id ++ " nonce=" ++ groups4 s.nonceBytes])

/-- AUTH: the answer to the outstanding challenge, a signature of 64 bytes (R332, R407, R408). (DEDUCED, log entry 73) (DEDUCED, log entry 118) -/
def doAuth (s : State) (port id : Nat) (sig : List Byte) : State :=
  s.ianel port (fun _ => true) (fun s tag =>
    if s.lcs = lcsRetired then s.say port tag [s.stateErr]
    else if s.loginLocked port then s.say port tag [s.lockedErr port]
    else
      let open_ := decide ((s.con port).challenge = some id) && decide (s.clock < (s.con port).challengeAt + 60000000)
      let s := s.setCon port { s.con port with challenge := none }
      let m := if open_ then s.matched (s.authMessage id (s.con port).nonce 1) sig else none
      let s := s.showAuth 1 m
      match m with
      | some n => ((s.logS0 0x1301 (u8 1 ++ u8 n ++ u32 id)).loginOk port .service).say port tag [loginLine port .service]
      | none => ((s.logS 0x1302 (u8 1 ++ u32 id)).loginFailed port .service).say port tag [errLine 13])

/-- CHALLENGE_EXPIRE: after 60 s. -/
def doChallengeExpire (s : State) (port : Nat) : State :=
  if (s.con port).challenge.isSome && decide ((s.con port).challengeAt + 60000000 ≤ s.clock) then s.setCon port { s.con port with challenge := none } else s

/-- LOGIN_LOCKOUT_END: ten minutes after the failure that locked the port (DEDUCED, log entry 53). -/
def doLoginLockoutEnd (s : State) (port : Nat) : State :=
  if s.loginLocked port && (decide (minutes10 ≤ s.sinceFail port) || decide (s.clock < (s.fails port).foldl max 0)) then s.setLocked port false else s

/-- LOGOUT. -/
def doLogout (s : State) (port : Nat) : State :=
  s.ianel port (fun _ => true) (fun s tag => (s.toView port 1 6).say port tag ["ok"])

/-- SESSION_IDLE: con.idle seconds without a received line (R330). -/
def doSessionIdle (s : State) (port : Nat) : State :=
  if s.camlanOn && decide ((s.con port).lastLine + s.parI .conIdle * 1000000 ≤ s.clock) then s.toView port 2 7 else s

/-- `whoami` (Table 14-3): `idle` counts the seconds since the port's last line. -/
def State.whoami (s : State) (port : Nat) : String :=
  let l := (s.con port).level
  let src := sessionSource port l
  "whoami level=" ++ l.word ++ " port=con" ++ toString port ++ " source=" ++ (match src with | some x => hex0x x | none => "-")
    ++ " rank=" ++ (match l.rank with | some r => toString r | none => "-") ++ " helm=" ++ (if src = some s.cam.helm.holder then "yes" else "no")
    ++ " idle=" ++ toString ((s.clock - (s.con port).lastLine) / 1000000)

/-- WHOAMI. -/
def doWhoami (s : State) (port : Nat) : State := s.report port (fun s => [s.whoami port])

/-- PASSCODE: a login code at INSTALLER in COMMISSIONING or at SERVICE; 0 INSTALLER, k the tenant of partition k. -/
def doPasscode (s : State) (port k code : Nat) : State :=
  s.ianel port Level.isIplus (fun s tag =>
    if 7 < k ∨ 999999 < code then s.say port tag [errLine 4]
    else if !(s.con port).level.isService && decide (s.lcs ≠ lcsCommissioning) then s.say port tag [s.stateErr]
    else
      let s : State := { s with nv := { s.nv with codes := s.nv.codes.filter (fun e => decide (e.1 ≠ k)) ++ [(k, code)] } }
      s.say port tag ["ok"])

/-- PING. -/
def doPing (s : State) (port : Nat) : State := s.report port (fun _ => ["pong"])

def execLoginInstaller (port code : Nat) (s : State) := done (doLoginInstaller s port code)
def execLoginTenant (port k code : Nat) (s : State) := done (doLoginTenant s port k code)
def execLoginService (port : Nat) (s : State) := done (doLoginService s port)
def execAuth (port id : Nat) (sig : List Byte) (s : State) := done (doAuth s port id sig)
def execChallengeExpire (port : Nat) (s : State) := done (doChallengeExpire s port)
def execLoginLockoutEnd (port : Nat) (s : State) := done (doLoginLockoutEnd s port)
def execLogout (port : Nat) (s : State) := done (doLogout s port)
def execSessionIdle (port : Nat) (s : State) := done (doSessionIdle s port)
def execWhoami (port : Nat) (s : State) := done (doWhoami s port)
def execPasscode (port k code : Nat) (s : State) := done (doPasscode s port k code)
def execPing (port : Nat) (s : State) := done (doPing s port)

end Sys2Proof.Machine
end

