-- ==== Sys2Proof/Machine/Show.lean ====
section
/-!
DEFINITION. The commands that read (Table 14-3): what each `show` and `get` replies. Each reply is a function of the state, so that a console and the tag mailbox read the same words.
-/

namespace Sys2Proof.Machine

/-! Values as text (DESIGN CHOICE, log entry 54) -/

/-- n decimal digits of a number, leading zeros kept. -/
def decN : Nat → Nat → String
  | 0, _ => ""
  | n + 1, v => decN n (v / 10) ++ toString (v % 10)

/-- A value in thousandths with 3 decimals: mA as A, mV as V (Table 14-3). -/
def fix3 (v : Int) : String := (if v < 0 then "-" else "") ++ toString (v.natAbs / 1000) ++ "." ++ decN 3 v.natAbs

/-- A value in hundredths with 2 decimals: a percentage or a temperature. -/
def fix2 (v : Int) : String := (if v < 0 then "-" else "") ++ toString (v.natAbs / 100) ++ "." ++ decN 2 v.natAbs

/-- A list joined by commas. -/
def commas (l : List String) : String := joinText "," l

/-- Words of a state by its code. -/
def wordAt (l : List String) (n : Nat) : String := l.getD n (toString n)

def causeNames : List String := ["POR", "PIN", "SOFT", "LOCKSTEP", "ECCFATAL", "STALL", "CLKLOSS", "WAKE", "DEBUG", "LCS"]

/-! Replies -/

/-- `show version`. -/
def State.sayVersion (s : State) : List String :=
  ["version part=" ++ hex0x (s.fld Reg.SYS_ID 8 16) ++ " rev=" ++ hex0x (s.fld Reg.SYS_ID 0 8) ++ " grade=" ++ (if s.gradeX then "x" else "e")
    ++ " camlan=" ++ toString (s.fld Reg.SYS_CAMLAN 24 8) ++ "." ++ toString (s.fld Reg.SYS_CAMLAN 16 8) ++ "." ++ toString (s.fld Reg.SYS_CAMLAN 0 16)
    ++ " uid=0x" ++ hexU 8 (s.rdN Reg.SYS_UID1) ++ hexU 8 (s.rdN Reg.SYS_UID0)]

/-- The verification state of a partition: nothing for one that is empty. -/
def State.partWord (s : State) (k : Nat) : String :=
  match s.partState k with
  | 0 => ""
  | 1 => if (s.part k).verified then " p" ++ toString k ++ "=ok" else " p" ++ toString k ++ "=verifying"
  | 2 => " p" ++ toString k ++ "=ok"
  | _ => " p" ++ toString k ++ "=suspended"

/-- `show start` (R130): milliseconds since the first catch, counted in strokes and the present phase. -/
def State.sayStart (s : State) : List String :=
  let ms := if s.stk.started then (s.strokeNo * s.period + s.us) / 1000 else 0
  let n (f : SeatSt → Bool) : Nat := (((List.range 128).map (· + 1)).filter (fun i => f (s.seat i))).length
  ["start cause=" ++ wordAt causeNames (s.fld Reg.RST_LAST 0 4) ++ " elapsed=" ++ toString ms ++ " chain=" ++ toString (n SeatSt.enumd)
    ++ " radio=" ++ toString (n SeatSt.radioOk) ++ " joins=" ++ toString s.rad.joins.length
    ++ (([1, 2, 3, 4, 5, 6, 7] : List Nat).map s.partWord).foldl (· ++ ·) ""]

/-- `show status`; currents with 3 decimals, the applied limits of the battery (R334). -/
def State.sayStatus (s : State) : List String :=
  let st := match s.cam.state with
    | .run => "run"
    | .crab1 => "crab1"
    | .easy => "easy"
    | _ => "stake"
  ["status state=" ++ st ++ " easycause=" ++ hex0x s.easyCause ++ " lcs=" ++ lcsWord s.lcs ++ " stroke=" ++ toString s.strokeNo ++ " helm=" ++ hex0x s.cam.helm.holder
    ++ " helmrank=" ++ toString s.cam.helm.rank ++ " warn=" ++ wordAt ["none", "warn", "low", "final"] s.est.warn ++ " soc=" ++ toString (centi s.est.soc)
    ++ " i=" ++ fix3 s.meas.cur ++ " vbus=" ++ fix3 (s.volt chBus) ++ " chg=" ++ fix3 (s.appliedLim tChgBat) ++ " dis=" ++ fix3 (s.appliedLim tDisBat)]

def strWords : List String := ["", "open", "precharging", "admitting", "closed", "welded", "locked_out"]

/-- `show string S`: error 17 for a string that is not configured. -/
def State.sayString (s : State) (i : Nat) : List String :=
  if !s.strConf i then [errLine 17]
  else
    let (vlo, vhi) := extremes i ((s.strVolts i).map (fun (v : Nat) => (v : Int)))
    let (tlo, thi) := extremes (i + 4) (s.strTemps i)
    ["string s=" ++ toString i ++ " state=" ++ wordAt strWords (s.str i).st ++ " v=" ++ fix3 (s.volt i) ++ " vsum=" ++ fix3 ((((s.strVolts i).foldl (· + ·) 0) / 10 : Nat) : Int)
      ++ " soc=" ++ toString (centi ((s.strSoc i).getD s.est.soc)) ++ " soh=" ++ toString (centi (s.strSoh i)) ++ " vmin=" ++ toString vlo ++ " vmax=" ++ toString vhi
      ++ " tmin=" ++ toString tlo ++ " tmax=" ++ toString thi ++ " chg=" ++ fix3 (s.appliedLim (0x10 + i)) ++ " dis=" ++ fix3 (s.appliedLim (0x18 + i))
      ++ " cap=" ++ toString (roundRat (s.strCap i)) ++ " qual=" ++ hex0x (s.strQual i)]

/-- `show seat N`: the record, then the cells and the temperatures; error 17 outside the read set. -/
def State.saySeat (s : State) (n : Nat) : List String :=
  let x := s.seat n
  if !s.readSet.contains n then [errLine 17]
  else
    ["seat n=" ++ toString n ++ " string=" ++ (if s.seatStr8 n = 0xFF then "none" else toString (s.seatStr8 n)) ++ " qual=" ++ hex0x x.qual
       ++ " age=" ++ toString (s.ageHeats n) ++ " twin=" ++ toString x.twin ++ " catch=" ++ toString (x.used.getD 0) ++ " serial=0x" ++ hexU 16 x.serial,
     "cells v=" ++ commas (x.cellV.map toString), "temps t=" ++ commas (x.temp.map toString)]

/-- `show helm`. -/
def State.sayHelm (s : State) : List String :=
  ["helm holder=" ++ hex0x s.cam.helm.holder ++ " rank=" ++ toString s.cam.helm.rank ++ " since=" ++ toString s.cam.helm.since]

/-- `show ticket`. -/
def State.sayTicket (s : State) : List String :=
  match s.est.ticket with
  | some t => ["ticket n=" ++ toString t.n ++ " power=" ++ toString t.power ++ " expiry=" ++ toString t.expiry]
  | none => ["ticket n=0"]

/-- `show mdi`. -/
def State.sayMdi (s : State) : List String :=
  ["mdi state=" ++ wordAt ["unknown", "homing", "open", "closed", "waiting", "moving", "fault"] s.mdi.st ++ " pos=" ++ toString s.mdiPos
    ++ " i=" ++ fix3 (s.fld Reg.MDI_IMEAS 0 16) ++ " peak=" ++ fix3 (s.fld Reg.MDI_IMEAS 16 16) ++ " trans=" ++ toString (s.fld Reg.MDI_STAT 16 4)]

/-- `show imd`: the pole resistances of the cell view, the module leakage, the flags and the switches. -/
def State.sayImd (s : State) : List String :=
  ["imd rp=" ++ toString (s.rdN Reg.IMD_RP) ++ " rn=" ++ toString (s.rdN Reg.IMD_RN) ++ " rkin=" ++ toString (s.rdN Reg.IMD_RKIN)
    ++ " rntot=" ++ toString (s.rdN Reg.IMD_RNTOT) ++ " flags=" ++ hex0x (s.fld Reg.IMD_FLAGS 0 8) ++ " stat=" ++ hex0x (s.rdN Reg.IMD_STAT)]

/-- `show sin`: the agreed levels and findings, the latched trips and the source faults. -/
def State.saySin (s : State) : List String :=
  ["sin level=" ++ hex0x (s.fld Reg.AGR_C_SIN 0 8) ++ " cross=" ++ hex0x (s.fld Reg.AGR_C_SIN 8 8) ++ " stuck=" ++ hex0x (s.fld Reg.AGR_C_SIN 16 8)
    ++ " latched=" ++ hex0x s.sin.latched ++ " tpfault=" ++ hex0x (s.fld Reg.SIN_TPSTAT 16 4)]

/-- `show kpa`: the source, the flags, the charger and the auxiliary output. -/
def State.sayKpa (s : State) : List String :=
  ["kpa source=" ++ wordAt ["packaux", "kin", "kbat", "none"] s.ksrc ++ " flags=" ++ hex0x (s.fld Reg.KPA_STAT 8 8) ++ " chg=" ++ toString s.chg
    ++ " zone=" ++ toString (s.fld Reg.KPA_CHGST 4 3) ++ " reason=" ++ toString (s.fld Reg.KPA_CHGST 8 4) ++ " elapsed=" ++ toString (s.fld Reg.KPA_CHGST 16 16)
    ++ " kinv=" ++ toString (s.fld Reg.KPA_MEAS0 0 16) ++ " kini=" ++ toString (s.fld Reg.KPA_MEAS0 16 16) ++ " pav=" ++ toString (s.fld Reg.KPA_MEAS1 0 16)
    ++ " ksysv=" ++ toString (s.fld Reg.KPA_MEAS1 16 16) ++ " kbatv=" ++ toString (s.fld Reg.KPA_MEAS2 0 16)
    ++ " kbati=" ++ toString (signed 16 (s.fld Reg.KPA_MEAS2 16 16)) ++ " kth=" ++ toString (signed 16 (s.fld Reg.KPA_MEAS3 0 16)) ++ " aux=" ++ toString s.aux]

/-- `show part`: one line per partition. -/
def State.sayPart (s : State) : List String :=
  ([1, 2, 3, 4, 5, 6, 7] : List Nat).map (fun k =>
    "part p=" ++ toString k ++ " state=" ++ wordAt ["empty", "verifying", "running", "suspended"] (s.partState k) ++ " cause=" ++ hex0x (s.partCause k)
      ++ " crabs=" ++ toString (s.crabs k) ++ " resumes=" ++ toString (s.fld (Reg.PART_STATE (k - 1)) 24 8) ++ " version=" ++ toString (s.part k).version)

/-- `show crew`: the link, then one line per admitted lane; this lane's own values stand in its own line. -/
def State.sayCrew (s : State) : List String :=
  let c := s.crew
  let head := "crew lane=" ++ toString s.lane ++ " state=" ++ wordAt ["off", "listen", "joining", "member", "leader", "duplicate"] c.st
    ++ " leader=" ++ (match c.leader with | some l => toString l | none => "-") ++ " deputy=" ++ (if c.deputy then "yes" else "no")
    ++ " lock=" ++ (if c.locked then "yes" else "no") ++ " err=" ++ toString c.err ++ " lanes=" ++ hex0x (laneMask c.lanes)
  head :: c.lanes.map (fun l =>
    let own := decide (l = s.lane)
    let sm := (c.sums.find? (fun e => decide (e.1 = l))).map (fun e => e.2.1)
    let f (g : Summary → String) : String := match sm with
      | some x => g x
      | none => "-"
    "lane l=" ++ toString l ++ " soc=" ++ (if own then toString (centi s.est.soc) else f (fun x => toString x.soc))
      ++ " i=" ++ (if own then fix3 s.meas.cur else f (fun x => fix3 x.current))
      ++ " chg=" ++ (if own then fix3 (s.appliedLim tChgBat) else f (fun x => fix3 x.chgLim))
      ++ " dis=" ++ (if own then fix3 (s.appliedLim tDisBat) else f (fun x => fix3 x.disLim))
      ++ " gone=" ++ (if c.gone.contains l then "yes" else "no"))

/-- `show chain`: the ring, the seats and the counters. -/
def State.sayChain (s : State) : List String :=
  let lost := (((List.range 128).map (· + 1)).filter (fun n => (s.seat n).lost)).length
  ["chain ring=" ++ wordAt ["down", "enum", "whole", "split", "isolated"] s.ring ++ " seats=" ++ toString (s.fld Reg.CHN_SEATS 0 8) ++ " arma=" ++ toString (s.fld Reg.CHN_SEATS 8 8)
    ++ " armb=" ++ toString (s.fld Reg.CHN_SEATS 16 8) ++ " lost=" ++ toString lost ++ " crc=" ++ toString (s.rdN Reg.CHN_CNTCRC) ++ " timeouts=" ++ toString (s.rdN Reg.CHN_CNTTMO)
    ++ " retries=" ++ toString (s.rdN Reg.CHN_CNTRETRY) ++ " late=" ++ toString (s.rdN Reg.CHN_CNTLATE) ++ " expired=" ++ toString (s.rdN Reg.TXT_EXPIRED)]

/-- `show radio`: the hop set in force and the forfeits. -/
def State.sayRadio (s : State) : List String :=
  ["radio lock=" ++ (if s.radLocked then "yes" else "no") ++ " hsver=" ++ toString (s.fld Reg.RAD_STAT 16 8)
    ++ " set=" ++ commas ((List.range 16).map (fun i => toString (s.hopset i))) ++ " forfeit_slots=" ++ toString (s.fld Reg.RAD_CNTFORFEIT 0 16)
    ++ " forfeit_beacons=" ++ toString (s.fld Reg.RAD_CNTFORFEIT 16 16)]

/-- `show reset`. -/
def State.sayReset (s : State) : List String :=
  ["reset last=" ++ wordAt causeNames (s.fld Reg.RST_LAST 0 4) ++ " cause=" ++ hex0x (s.fld Reg.RST_CAUSE 0 10) ++ " count=" ++ toString (s.fld Reg.RST_COUNT 0 16)
    ++ " wipe=" ++ toString (s.fld Reg.RST_WIPE 16 12)]

/-- The name of a tally counter (Table 15-6). -/
def tallyName (id : Nat) : String :=
  if id = 0x01 then "run_s"
  else if id = 0x03 then "die_lt60" else if id = 0x04 then "die_60_85" else if id = 0x05 then "die_85_95" else if id = 0x06 then "die_95_105" else if id = 0x07 then "die_ge105"
  else if 0x10 ≤ id ∧ id ≤ 0x1B then "ctr_ops." ++ toString (id - 0x10)
  else if id = 0x20 then "mdi_moves"
  else if 0x24 ≤ id ∧ id ≤ 0x27 then "pre_att." ++ toString (id - 0x24)
  else if id = 0x30 then "chg_nvs" else if id = 0x31 then "dis_nvs"
  else if 0x40 ≤ id ∧ id ≤ 0x49 then "resets." ++ toString (id - 0x40)
  else if 0x50 ≤ id ∧ id ≤ 0x54 then (["easy", "crabs", "ocs", "bki_holds", "welds"] : List String).getD (id - 0x50) ""
  else if id = 0x60 then "kbat_charges"
  else if id = 0x70 then "tally_erase.254" else if id = 0x71 then "tally_erase.255" else if id = 0x72 then "refresh_pos" else ""

/-- `show tally`: one line per counter, its committed value (R360, R362). -/
def State.sayTally (s : State) : List String :=
  tallyIds.map (fun id => "tally " ++ tallyName id ++ "=" ++ toString (s.tallyVal id))

/-- `get`: confirmed values in canonical form; error 03 without a key. -/
def State.sayGet (s : State) (keys : List PKey) : List String :=
  if keys = [] then [errLine 3] else keys.map (fun k => keyText s.nv.confirmed k)

/-! The commands on a port -/

def doShowVersion (s : State) (port : Nat) : State := s.report port State.sayVersion

/-- SHOW_START: answered in the stake-boat interval too (R130). -/
def doShowStart (s : State) (port us : Nat) : State :=
  if !(s.camlanOn && s.conServed port) then s
  else
    let (tag, s) := (s.atUs us).takeLine port
    (s.noteService port).say port tag s.sayStart

def doShowStatus (s : State) (port : Nat) : State := s.report port State.sayStatus
def doShowString (s : State) (port i : Nat) : State := s.report port (fun s => s.sayString i)
def doShowSeat (s : State) (port n : Nat) : State := s.report port (fun s => s.saySeat n)
def doShowHelm (s : State) (port : Nat) : State := s.report port State.sayHelm
def doShowTicket (s : State) (port : Nat) : State := s.report port State.sayTicket
def doShowMdi (s : State) (port : Nat) : State := s.report port State.sayMdi
def doShowImd (s : State) (port : Nat) : State := s.report port State.sayImd
def doShowSin (s : State) (port : Nat) : State := s.report port State.saySin
def doShowKpa (s : State) (port : Nat) : State := s.report port State.sayKpa
def doShowPart (s : State) (port : Nat) : State := s.report port State.sayPart
def doShowCrew (s : State) (port : Nat) : State := s.report port State.sayCrew
def doShowChain (s : State) (port : Nat) : State := s.report port State.sayChain
def doShowRadio (s : State) (port : Nat) : State := s.report port State.sayRadio
def doShowReset (s : State) (port : Nat) : State := s.report port State.sayReset
def doShowTally (s : State) (port : Nat) : State := s.report port State.sayTally
def doGetParam (s : State) (port : Nat) (keys : List PKey) : State := s.report port (fun s => s.sayGet keys)

def execShowVersion (port : Nat) (s : State) := done (doShowVersion s port)
def execShowStart (port us : Nat) (s : State) := done (doShowStart s port us)
def execShowStatus (port : Nat) (s : State) := done (doShowStatus s port)
def execShowString (port i : Nat) (s : State) := done (doShowString s port i)
def execShowSeat (port n : Nat) (s : State) := done (doShowSeat s port n)
def execShowHelm (port : Nat) (s : State) := done (doShowHelm s port)
def execShowTicket (port : Nat) (s : State) := done (doShowTicket s port)
def execShowMdi (port : Nat) (s : State) := done (doShowMdi s port)
def execShowImd (port : Nat) (s : State) := done (doShowImd s port)
def execShowSin (port : Nat) (s : State) := done (doShowSin s port)
def execShowKpa (port : Nat) (s : State) := done (doShowKpa s port)
def execShowPart (port : Nat) (s : State) := done (doShowPart s port)
def execShowCrew (port : Nat) (s : State) := done (doShowCrew s port)
def execShowChain (port : Nat) (s : State) := done (doShowChain s port)
def execShowRadio (port : Nat) (s : State) := done (doShowRadio s port)
def execShowReset (port : Nat) (s : State) := done (doShowReset s port)
def execShowTally (port : Nat) (s : State) := done (doShowTally s port)
def execGetParam (port : Nat) (keys : List PKey) (s : State) := done (doGetParam s port keys)

end Sys2Proof.Machine
end

