-- ==== Sys2Proof/Machine/Commands.lean ====
section
/-!
DEFINITION. The commands that act: orders and surges (R334, R335), clearing (Table 14-6), operation (Table 14-7), restore (R342) and the logbook (R343, R348).
-/

namespace Sys2Proof.Machine

/-! Orders (R334, Table 14-4) -/

/-- An order of a session is stamped and enters the set; its reply waits for the finish of the resolving stroke. At VIEW it is answered at once and logged in TL0 with 0x0226, and enters no set. (DESIGN CHOICE, log entry 103) -/
def State.consoleOrder (s : State) (p kind target : Nat) (value : Int) (us : Nat) : State :=
  (s.atUs us).ianel p (fun _ => true) (fun s tag =>
    let l := (s.con p).level
    match sessionSource p l with
    | some src => s.placeOrder src (l.rank.getD 0) kind target value 0 s.now (.console p tag)
    | none => (s.logIn 1 0x0226 (0x10 + p) (u8 5 ++ u8 target ++ u8 kind ++ u8 0xFF ++ u32 0)).say p tag ["order invalid"])

/-- OPEN. -/
def doOpenOrder (s : State) (port target us : Nat) : State := s.consoleOrder port kOpen target 0 us
/-- CLOSE. -/
def doCloseOrder (s : State) (port target us : Nat) : State := s.consoleOrder port kClose target 0 us
/-- LIMIT: DERATE at or below the standing value, RAISE above it (R42). -/
def doLimitOrder (s : State) (port target : Nat) (mA : Int) (us : Nat) : State :=
  s.consoleOrder port (if mA ≤ s.standing target then kDerate else kRaise) target mA us
/-- HELM_TAKE. -/
def doHelmTake (s : State) (port us : Nat) : State := s.consoleOrder port kTake 0 0 us
/-- HELM_RELEASE. -/
def doHelmRelease (s : State) (port us : Nat) : State := s.consoleOrder port kRelease 0 0 us

/-! Surges (R335) -/

/-- A request or a release of a session enters the set; an earlier one of the same console in the set is answered `superseded` (DEDUCED, log entry 55). -/
def State.consoleSurge (s : State) (p kind : Nat) (power : Int) (duration : Nat) : State :=
  s.ianel p Level.isIplus (fun s tag =>
    let l := (s.con p).level
    let src := 0x10 + p
    let s := match s.est.reqs.find? (fun q => decide (q.source = src)) with
      | some q => (match q.origin with
        | .console p' t => s.say p' t ["surge superseded"]
        | _ => s)
      | none => s
    s.placeSurge ⟨src, l.rank.getD 0, s.now, s.strokeNo, kind, power, duration, 0, .console p tag⟩)

/-- SURGE. -/
def doSurge (s : State) (port : Nat) (power : Int) (duration us : Nat) : State := (s.atUs us).consoleSurge port 1 power duration
/-- SURGE_RELEASE. -/
def doSurgeRelease (s : State) (port : Nat) : State := s.consoleSurge port 2 0 0

/-! Clearing (Table 14-6) -/

/-- A clearing command: `ok` without change when there is nothing to clear, error 16 when the condition fails, else the effect and `ok`. -/
def State.clearing (s : State) (p : Nat) (lvl : Level → Bool) (present something : State → Bool) (cond : State → Bool) (name : String) (act : State → State) : State :=
  s.ianel p lvl (fun s tag =>
    if !present s then s.say p tag [errLine 17]
    else if !something s then s.say p tag ["ok"]
    else if !cond s then s.say p tag [errLine 16 ("cond=" ++ name)]
    else (act s).say p tag ["ok"])

/-- CLEAR_EASY (R54). -/
def doClearEasy (s : State) (port : Nat) : State :=
  s.clearing port Level.isIplus (fun _ => true) State.inEasy State.allOpen "contactors" (fun s => s.leaveEasy 0)

/-- CLEAR_PRECHARGE (R246). -/
def doClearPrecharge (s : State) (port i : Nat) : State :=
  s.clearing port Level.isIplus (fun s => s.strConf i) (fun s => s.nv.preLock.contains i) (fun _ => true) "" (fun s => s.clearPre i)

/-- CLEAR_WELD (R235). -/
def doClearWeld (s : State) (port i : Nat) : State :=
  s.clearing port Level.isService (fun s => s.strConf i) (fun s => s.weldShown i) (fun s => s.weldClearable i) "feedback" (fun s => s.clearWeldOf i)

/-- CLEAR_CONTACTOR (R230). -/
def doClearContactor (s : State) (port c : Nat) : State :=
  s.clearing port Level.isIplus (fun s => decide (c < 12) && s.parS .ctrRole c != 0) (fun s => s.bit Reg.CTR_FAULT c || s.bit Reg.CTR_FAULT (16 + c))
    (fun s => !s.coilOn c) "output" (fun s => s.clearCoil c)

/-- CLEAR_MDI (R259). -/
def doClearMdi (s : State) (port : Nat) : State :=
  s.clearing port Level.isIplus (fun s => s.parS .mdiFitted != 0) (fun s => decide (s.mdi.st = mdiFault)) (fun _ => true) "" State.clearMdiOf

/-- CLEAR_SIN (R253). -/
def doClearSin (s : State) (port n : Nat) : State :=
  s.clearing port Level.isIplus (fun s => decide (n < 8) && s.parS .sinFunc n != 0) (fun s => decide (getField s.sin.latched n 1 = 1)) (fun s => !s.bankTripped n) "input"
    (fun s => s.clearSinOf n)

/-- CLEAR_IMD (R266). -/
def doClearImd (s : State) (port : Nat) : State :=
  s.clearing port Level.isIplus (fun _ => true) (fun s => s.imd.refuse || s.imdFlag 1) (fun s => decide (s.imd.low = 0)) "alarm" State.clearImdAlarm

/-- CLEAR_SEAT (R223). -/
def doClearSeat (s : State) (port n : Nat) : State :=
  s.clearing port Level.isIplus (fun s => s.readSet.contains n) (fun s => (s.seat n).faulty) (fun _ => true) ""
    (fun s => (s.updSeat n (fun x => { x with faulty := false, disag := [] })).logS 0x0910 (u8 n ++ u8 (s.seatString n)))

/-- CLEAR_KBAT (R142, Table 6-4). -/
def doClearKbat (s : State) (port : Nat) : State :=
  s.clearing port Level.isIplus (fun _ => true) (fun s => decide (s.chg = cFault)) (fun _ => true) "" doChargerClear

/-- CLEAR_AUX (R153, Table 6-6). -/
def doClearAux (s : State) (port : Nat) : State :=
  s.clearing port Level.isIplus (fun _ => true) (fun s => decide (s.aux = 5)) (fun _ => true) "" doAuxClear

/-! Operation (Table 14-7) -/

/-- STOP: in the stake-boat interval only (R130). (DEDUCED, log entry 69) -/
def doStop (s : State) (port : Nat) : State :=
  if !(s.camlanOn && s.conServed port) then s
  else
    let (tag, s) := s.takeLine port
    if s.starting then ({ s with cam := { s.cam with stopped := true } }).say port tag ["stop accepted easy=0x16"]
    else s.say port tag [errLine 7 "state=running"]

/-- The condition of R149 that fails, none when ship mode may be entered. -/
def State.shipBar (s : State) : Option String :=
  if !s.allOpen then some "contactors"
  else if s.mdi.st = mdiMoving ∨ s.mdi.st = mdiHoming then some "isolator"
  else if s.kflag 0 ∨ s.kflag 1 then some "source"
  else none

/-- SHIP (R149): the shore record, 0x060A, the commit of the ACC counters, and KPA.SHIP with its key. -/
def doShip (s : State) (port : Nat) : State :=
  s.ianel port Level.isIplus (fun s tag =>
    match s.shipBar with
    | some c => s.say port tag [errLine 16 ("cond=" ++ c)]
    | none =>
      let s := ((s.say port tag ["ship in=10"]).shore 3).logS 0x060A (u16 s.kbatMv)
      doShipEnter s.tallyCommit (wordOf (0x53480000 + 1)))

/-- HIBERNATE (R284). -/
def doHibernate (s : State) (port : Nat) : State :=
  s.ianel port Level.isIplus (fun s tag => (s.hibPending).say port tag ["hibernate in=" ++ toString (s.parI .estHibGrace)])

/-- KBAT_START (R147). -/
def doKbatStart (s : State) (port : Nat) : State := s.ianel port Level.isTplus (fun s tag => (doChargerStart s).say port tag ["ok"])
/-- KBAT_STOP (R147). -/
def doKbatStop (s : State) (port : Nat) : State := s.ianel port Level.isTplus (fun s tag => (doChargerStop s).say port tag ["ok"])

/-- SUSPEND (R104): cause 0x07; a partition already suspended stays as it is. -/
def doSuspend (s : State) (port k : Nat) : State :=
  s.ianel port Level.isIplus (fun s tag =>
    if k < 1 ∨ 7 < k then s.say port tag [errLine 4]
    else if s.partState k = pEmpty then s.say port tag [errLine 17]
    else if s.partState k = pSuspended then s.say port tag ["ok"]
    else (s.suspend k 0x07).say port tag ["ok"])

/-- RESUME (R106): not for causes 0x05 and 0x06, which only a reset ends (Table 4-10), nor for an image that was never verified. (DEDUCED, log entry 104) -/
def doResume (s : State) (port k : Nat) : State :=
  s.ianel port Level.isIplus (fun s tag =>
    if k < 1 ∨ 7 < k then s.say port tag [errLine 4]
    else if s.partState k = pEmpty then s.say port tag [errLine 17]
    else if s.partState k ≠ pSuspended then s.say port tag [errLine 16 "cond=state"]
    else if s.partCause k = 5 ∨ s.partCause k = 6 ∨ !(s.part k).verified then s.say port tag [errLine 16 "cond=cause"]
    else (s.resumePart k 0).say port tag ["ok"])

/-- PAIR_SEAT (R220). -/
def doPairSeat (s : State) (port n : Nat) : State :=
  s.ianel port Level.isIplus (fun s tag =>
    if !s.readSet.contains n then s.say port tag [errLine 17]
    else if !s.rad.pairs.isEmpty then s.say port tag [errLine 8]
    else s.pairOne (.console port tag) false n)

/-- Seats refused, one line each; the last ends the reply unless pairings are under way. -/
def State.refuseSeats (s : State) (asker : Origin) : List Nat → State
  | [] => s
  | [n] => s.pairOne asker false n
  | n :: m :: t => (s.pairOne asker true n).refuseSeats asker (m :: t)

/-- PAIR_ALL (R220): the seats that may be paired first, then the refusals. -/
def doPairAll (s : State) (port : Nat) : State :=
  s.ianel port Level.isIplus (fun s tag =>
    if s.readSet = [] then s.say port tag [errLine 17]
    else if !s.rad.pairs.isEmpty then s.say port tag [errLine 8]
    else
      let asker := Origin.console port tag
      let good := s.readSet.filter s.mayPair
      let bad := s.readSet.filter (fun n => !s.mayPair n)
      (good.foldl (fun s n => s.pairOne asker true n) s).refuseSeats asker bad)

/-! Restore (R342) -/

/-- EST_SAVE: answered after the next finish (R277). -/
def doEstSave (s : State) (port : Nat) : State :=
  s.ianel port (fun _ => true) (fun s tag => s.setEst { s.est with saves := s.est.saves ++ [(port, tag)] })

/-- EST_RESTORE_BEGIN: one transfer at a time on the part. -/
def doEstRestoreBegin (s : State) (port size : Nat) : State :=
  s.ianel port Level.isTplus (fun s tag =>
    match s.est.transfer with
    | some (p, _, _) =>
      if p ≠ port then s.say port tag [errLine 8] else (s.setEst { s.est with transfer := some (port, size, []) }).say port tag ["ok"]
    | none => (s.setEst { s.est with transfer := some (port, size, []) }).say port tag ["ok"])

/-- A wrong sequence receives error 04 and ends the port's own transfer. -/
def State.restoreBad (s : State) (port : Nat) (tag : Option String) : State :=
  match s.est.transfer with
  | some (p, _, _) => (if p = port then s.setEst { s.est with transfer := none } else s).say port tag [errLine 4]
  | none => s.say port tag [errLine 4]

/-- EST_RESTORE_DATA: at most 96 bytes at the next offset. -/
def doEstRestoreData (s : State) (port off : Nat) (data : List Byte) : State :=
  s.ianel port Level.isTplus (fun s tag =>
    match s.est.transfer with
    | some (p, size, got) =>
      if p = port ∧ off = got.length ∧ data ≠ [] ∧ data.length ≤ 96 ∧ got.length + data.length ≤ size then
        (s.setEst { s.est with transfer := some (p, size, got ++ data) }).say port tag ["ok"]
      else s.restoreBad port tag
    | none => s.restoreBad port tag)

def restoreReasons : List String := ["", "crc", "uid", "fmt", "early", "restored"]

/-- EST_RESTORE_END: the record is judged; an accepted one is applied, and answered, at the next catch (R279). -/
def doEstRestoreEnd (s : State) (port : Nat) : State :=
  s.ianel port Level.isTplus (fun s tag =>
    match s.est.transfer with
    | some (p, size, got) =>
      if p ≠ port ∨ got.length ≠ size then s.restoreBad port tag
      else
        let r := s.judgeRecord got
        let s := s.setEst { s.est with transfer := none }
        if r = 0 then s.setEst { s.est with restored := true, restore := some ⟨got, .console port tag⟩ }
        else (s.logS 0x0C11 (u8 r)).say port tag [errLine 16 ("cond=" ++ wordAt restoreReasons r)]
    | none => s.restoreBad port tag)

/-- What answers an applied record (Table 14-7). -/
def State.restoreReply (s : State) (r : Restore) : State :=
  match r.origin with
  | .console p tag =>
    let n := (s.enumSeats.take (leNat ((r.data.drop 6).take 2))).length
    let same := decide (leNat ((r.data.drop 0x10).take 4) = s.rdN (Reg.RST_RETAIN 1))
    s.say p tag ["est restored seats=" ++ toString n ++ " epoch=" ++ (if same then "same" else "other")]
  | _ => s

/-! The logbook (R343, R348) -/

def bookName (b : Nat) : String := if b = 0 then "safety" else "tl" ++ toString (b - 1)

/-- `log head`. -/
def State.sayLogHead (s : State) (b : Nat) : List String :=
  if 8 < b then [errLine 4]
  else
    ["log book=" ++ bookName b ++ " first=" ++ toString (s.rdN (Reg.LOG_BFIRST b)) ++ " next=" ++ toString (s.rdN (Reg.LOG_BNEXT b))
      ++ " overflow=" ++ toString (s.rdN (Reg.LOG_BOVF b)) ++ " suppressed=" ++ toString (s.rdN (Reg.LOG_BSUPP b))]

/-- LOG_HEAD. -/
def doLogHead (s : State) (port book : Nat) : State := s.report port (fun s => s.sayLogHead book)

/-- Whether a session may read a book: the safety book and TL0 at any level, a tenant's book at I+ or at the tenant's own level (Table 14-7, DEDUCED, log entry 64). -/
def mayReadBook (l : Level) (b : Nat) : Bool :=
  decide (b < 2) || l.isIplus || (match l.tenantOf with
    | some k => decide (b = 1 + k)
    | none => false)

/-- `log read`: the records held from a sequence number on, at most 16 (R343); none is error 12. -/
def State.sayLogRead (s : State) (b from_ count : Nat) : List String :=
  if 8 < b ∨ count = 0 then [errLine 4]
  else
    let first := s.rdN (Reg.LOG_BFIRST b)
    let seqs := ((List.range (min count 16)).map (fun i => (from_ + i) % 2 ^ 32)).filter (fun q => decide ((q + 2 ^ 32 - first) % 2 ^ 32 < s.bookHeld b))
    if seqs = [] then [errLine 12]
    else seqs.map (fun q => "rec " ++ toString q ++ " " ++ hexBytes (s.rdBytes (slotAddr b q) 32)) ++ ["log read n=" ++ toString seqs.length]

/-- LOG_READ. -/
def doLogRead (s : State) (port book seq count : Nat) : State :=
  s.ianel port (fun l => decide (8 < book) || mayReadBook l book) (fun s tag => s.say port tag (s.sayLogRead book seq count))

/-- LOG_RELEASE: INSTALLER and SERVICE any book, a tenant its own. -/
def doLogRelease (s : State) (port book upto : Nat) : State :=
  s.ianel port (fun l => l.isIplus || decide (8 < book) || decide (l.tenantOf = some (book - 1) ∧ 2 ≤ book)) (fun s tag =>
    if 8 < book then s.say port tag [errLine 4]
    else (s.release book upto ((sessionSource port (s.con port).level).getD 0)).say port tag ["ok"])

def execOpenOrder (port target us : Nat) (s : State) := done (doOpenOrder s port target us)
def execCloseOrder (port target us : Nat) (s : State) := done (doCloseOrder s port target us)
def execLimitOrder (port target : Nat) (mA : Int) (us : Nat) (s : State) := done (doLimitOrder s port target mA us)
def execHelmTake (port us : Nat) (s : State) := done (doHelmTake s port us)
def execHelmRelease (port us : Nat) (s : State) := done (doHelmRelease s port us)
def execSurge (port : Nat) (power : Int) (duration us : Nat) (s : State) := done (doSurge s port power duration us)
def execSurgeRelease (port : Nat) (s : State) := done (doSurgeRelease s port)
def execClearEasy (port : Nat) (s : State) := done (doClearEasy s port)
def execClearPrecharge (port i : Nat) (s : State) := done (doClearPrecharge s port i)
def execClearWeld (port i : Nat) (s : State) := done (doClearWeld s port i)
def execClearContactor (port c : Nat) (s : State) := done (doClearContactor s port c)
def execClearMdi (port : Nat) (s : State) := done (doClearMdi s port)
def execClearSin (port n : Nat) (s : State) := done (doClearSin s port n)
def execClearImd (port : Nat) (s : State) := done (doClearImd s port)
def execClearSeat (port n : Nat) (s : State) := done (doClearSeat s port n)
def execClearKbat (port : Nat) (s : State) := done (doClearKbat s port)
def execClearAux (port : Nat) (s : State) := done (doClearAux s port)
def execStop (port : Nat) (s : State) := done (doStop s port)
def execShip (port : Nat) (s : State) := done (doShip s port)
def execHibernate (port : Nat) (s : State) := done (doHibernate s port)
def execKbatStart (port : Nat) (s : State) := done (doKbatStart s port)
def execKbatStop (port : Nat) (s : State) := done (doKbatStop s port)
def execSuspend (port k : Nat) (s : State) := done (doSuspend s port k)
def execResume (port k : Nat) (s : State) := done (doResume s port k)
def execPairSeat (port n : Nat) (s : State) := done (doPairSeat s port n)
def execPairAll (port : Nat) (s : State) := done (doPairAll s port)
def execEstSave (port : Nat) (s : State) := done (doEstSave s port)
def execEstRestoreBegin (port size : Nat) (s : State) := done (doEstRestoreBegin s port size)
def execEstRestoreData (port off : Nat) (data : List Byte) (s : State) := done (doEstRestoreData s port off data)
def execEstRestoreEnd (port : Nat) (s : State) := done (doEstRestoreEnd s port)
def execLogHead (port book : Nat) (s : State) := done (doLogHead s port book)
def execLogRead (port book seq count : Nat) (s : State) := done (doLogRead s port book seq count)
def execLogRelease (port book upto : Nat) (s : State) := done (doLogRelease s port book upto)

end Sys2Proof.Machine
end

