-- ==== Sys2Proof/Machine/Grammar.lean ====
section
/-!
DEFINITION. Lines: tokens and their grammar (R322), the machine form (R323), and which lines are commands (Tables 14-3 to 14-7).
-/

namespace Sys2Proof.Machine

/-! Tokens (R322) -/

/-- A token: a word, or a key with its value; words and keys in lower case. -/
abbrev Tok : Type := String × Option String

def charOf (b : Byte) : Char := Char.ofNat b.toNat

/-- Characters of a word: letters, digits, `.`, `_`, `-`, `*`. -/
def wordCh (c : Char) : Bool := c.isAlphanum || c == '.' || c == '_' || c == '-' || c == '*'
/-- Characters of a key after its first letter. -/
def keyCh (c : Char) : Bool := c.isAlphanum || c == '.' || c == '_'

def lowerOf (l : List Char) : String := String.ofList (l.map Char.toLower)

/-- Runs of characters between spaces, a quoted value kept whole; none where a quote stays open. -/
def lexGo : List Char → List Char → Bool → List (List Char) → Option (List (List Char))
  | [], cur, inQ, acc => if inQ then none else some ((if cur = [] then acc else cur.reverse :: acc).reverse)
  | c :: t, cur, inQ, acc =>
    if inQ then lexGo t (c :: cur) (c != '"') acc
    else if c = ' ' then lexGo t [] false (if cur = [] then acc else cur.reverse :: acc)
    else lexGo t (c :: cur) (c == '"') acc

/-- A value: a quoted text without quotes inside, or a word. -/
def valueOf (v : List Char) : Option String :=
  match v with
  | '"' :: t =>
    let inner := t.dropLast
    if t.getLast? = some '"' ∧ !inner.contains '"' then some (String.ofList inner) else none
  | [] => none
  | _ => if v.all wordCh then some (String.ofList v) else none

/-- One token, none where R322 has no such token. -/
def tokOf (l : List Char) : Option Tok :=
  let w := l.takeWhile (· != '=')
  match l.drop w.length with
  | [] => if w.all wordCh then some (lowerOf w, none) else none
  | _ :: v => if (match w with | c :: t => c.isAlpha && t.all keyCh | [] => false) then (valueOf v).map (fun x => (lowerOf w, some x)) else none

/-- Every token of a command, none where it is not a command under R322. -/
def tokens (l : List Char) : Option (List Tok) :=
  match lexGo l [] false [] with
  | some ws => ws.foldr (fun w acc => match tokOf w, acc with
    | some t, some r => some (t :: r)
    | _, _ => none) (some [])
  | none => none

/-! Numbers -/

/-- A hex digit's value in either case. -/
def hexChar (c : Char) : Option Nat := hexVal (byteOf c.toNat)

/-- A natural number in decimal, or in hex after `0x` with underscores. -/
def natTok (t : String) : Option Nat :=
  match t.toList with
  | '0' :: 'x' :: c :: r =>
    if (hexChar c).isSome ∧ r.all (fun d => (hexChar d).isSome || d == '_') then some ((c :: r).foldl (fun n d => match hexChar d with | some h => n * 16 + h | none => n) 0)
    else none
  | [] => none
  | l => if l.all Char.isDigit then some (l.foldl (fun n d => n * 10 + (d.toNat - 48)) 0) else none

/-- Whether a text is a number of R322. -/
def isNumber (t : String) : Bool :=
  if (natTok t).isSome then true
  else
    let l := match t.toList with
      | '-' :: r => r
      | r => r
    let i := l.takeWhile Char.isDigit
    match l.drop i.length with
    | [] => !i.isEmpty
    | '.' :: f => !f.isEmpty && f.all Char.isDigit
    | _ => false

/-- P1 to P7. -/
def partTok (t : String) : Option Nat := (([1, 2, 3, 4, 5, 6, 7] : List Nat).find? (fun k => decide (t = "p" ++ toString k)))

/-- A book by name: `safety`, `tl0` to `tl7`. -/
def bookTok (t : String) : Option Nat := (List.range 9).find? (fun b => decide (t = bookName b))

/-- Six decimal digits. -/
def codeTok (t : String) : Option Nat := if t.toList.length = 6 ∧ t.toList.all Char.isDigit then natTok t else none

/-- A check value: two groups of four hex digits joined by `-` (R340). -/
def checkTok (t : String) : Option Nat :=
  match t.toList with
  | [a, b, c, d, '-', e, f, g, h] => hexNum ([a, b, c, d, e, f, g, h].map (fun x => byteOf x.toNat)) 0
  | _ => none

/-- The keys that a word names: one parameter, or every one whose key begins with what stands before a final `*`. -/
def keysTok (t : String) : List PKey :=
  match t.toList.getLast? with
  | some '*' => allKeys.filter (fun k => (t.toList.dropLast).isPrefixOf (PKey.text k).toList)
  | _ => allKeys.filter (fun k => decide (PKey.text k = t))

/-! The commands (Tables 14-3 to 14-7) -/

/-- Forms of an argument. -/
abbrev aNat : Nat := 0
abbrev aNum : Nat := 1
abbrev aPart : Nat := 2
abbrev aCode : Nat := 3
abbrev aBook : Nat := 4
abbrev aCheck : Nat := 5
abbrev aAny : Nat := 6
abbrev aWho : Nat := 7

/-- Whether a text has an argument's form. -/
def argOk (form : Nat) (t : String) : Bool :=
  if form = aNat then (natTok t).isSome
  else if form = aNum then isNumber t
  else if form = aPart then (partTok t).isSome
  else if form = aCode then (codeTok t).isSome
  else if form = aBook then (bookTok t).isSome
  else if form = aCheck then (checkTok t).isSome
  else if form = aWho then decide (t = "installer") || (partTok t).isSome
  else true

/-- A command: its fixed words, the forms of the words that follow, and its keys with their forms. -/
abbrev Pat : Type := List String × List Nat × List (String × Nat)

def shows : List Pat :=
  ["version", "start", "status", "helm", "ticket", "mdi", "imd", "sin", "kpa", "part", "crew", "chain", "radio", "reset", "tally"].map (fun n => (["show", n], [], []))

def patsRead : List Pat :=
  shows ++ [ (["show", "string"], [aNat], []), (["show", "seat"], [aNat], []), (["ping"], [], []), (["login", "installer"], [aCode], []),
    (["login", "tenant"], [aPart, aCode], []), (["login", "service"], [], []), (["auth"], [], [("id", aNat), ("sig", aAny)]), (["logout"], [], []), (["whoami"], [], []),
    (["passcode"], [aWho, aCode], []), (["get"], [aAny], []) ]

/-- The order commands, which `crew order lane=L` takes too (R336). -/
def patsOrder : List Pat :=
  [ (["open", "battery"], [], []), (["open", "string"], [aNat], []), (["open", "mdi"], [], []), (["close", "battery"], [], []), (["close", "string"], [aNat], []),
    (["close", "mdi"], [], []), (["limit", "chg", "battery"], [aNum], []), (["limit", "dis", "battery"], [aNum], []), (["limit", "chg", "string"], [aNat, aNum], []),
    (["limit", "dis", "string"], [aNat, aNum], []), (["helm", "take"], [], []), (["helm", "release"], [], []) ]

def patsCrew : List Pat :=
  (["crew", "surge"], [], [("lane", aNat), ("power", aNum), ("duration", aNat)])
    :: patsOrder.map (fun p => (["crew", "order"] ++ p.1, p.2.1, ("lane", aNat) :: p.2.2))

def patsConfig : List Pat :=
  [ (["surge"], [], [("power", aNum), ("duration", aNat)]), (["surge", "release"], [], []), (["stage", "drop"], [], []), (["stage", "show"], [], []),
    (["stage", "check"], [], []), (["stage", "dump"], [], []), (["confirm"], [aCheck], []), (["lcs", "commission"], [], []), (["lcs", "commission"], [], [("code", aCode)]),
    (["lcs", "blank"], [], []), (["lcs", "seal"], [], []), (["lcs", "service"], [], []), (["lcs", "retire"], [], []) ]

def patsClear : List Pat :=
  [ (["clear", "easy"], [], []), (["clear", "precharge"], [aNat], []), (["clear", "weld"], [aNat], []), (["clear", "contactor"], [aNat], []), (["clear", "mdi"], [], []),
    (["clear", "sin"], [aNat], []), (["clear", "imd"], [], []), (["clear", "seat"], [aNat], []), (["clear", "kbat"], [], []), (["clear", "aux"], [], []) ]

def patsOper : List Pat :=
  [ (["stop"], [], []), (["ship"], [], []), (["hibernate"], [], []), (["kbat", "start"], [], []), (["kbat", "stop"], [], []), (["suspend"], [aPart], []),
    (["resume"], [aPart], []), (["pair"], [], [("seat", aNat)]), (["pair", "all"], [], []), (["est", "save"], [], []), (["est", "restore", "begin"], [], [("size", aNat)]),
    (["est", "restore"], [], [("off", aNat), ("data", aAny)]), (["est", "restore", "end"], [], []), (["log", "head"], [], [("book", aBook)]),
    (["log", "read"], [], [("book", aBook), ("from", aNat), ("count", aNat)]), (["log", "release"], [], [("book", aBook), ("upto", aNat)]) ]

def patterns : List Pat := patsRead ++ patsOrder ++ patsCrew ++ patsConfig ++ patsClear ++ patsOper

/-- The words of a line, keys apart. -/
def wordsOf (l : List Tok) : List String := (l.filter (fun t => t.2.isNone)).map (fun t => t.1)
/-- The keys of a line with their values. -/
def keysIn (l : List Tok) : List (String × String) := l.filterMap (fun t => t.2.map (fun v => (t.1, v)))
/-- The value of a key. -/
def keyVal (l : List Tok) (k : String) : String := ((keysIn l).find? (fun e => decide (e.1 = k))).elim "" (fun e => e.2)

/-- Whether a line has a command's arguments. -/
def patArgs (p : Pat) (l : List Tok) : Bool :=
  let ws := (wordsOf l).drop p.1.length
  let ks := keysIn l
  decide (ws.length = p.2.1.length) && (p.2.1.zip ws).all (fun e => argOk e.1 e.2)
    && decide (ks.length = p.2.2.length) && p.2.2.all (fun k => ks.any (fun e => decide (e.1 = k.1) && argOk k.2 e.2))

/-- The error of a line that is no command: 1 a first token that is no verb, 3 unknown verb, noun or key, 4 arguments; 0 for a command. (DEDUCED, log entry 117) -/
def commandErr (l : List Tok) : Nat :=
  let ws := wordsOf l
  match l with
  | [] => 0
  | (_, some _) :: _ => 1
  | (v, none) :: rest =>
    if v = "set" then
      (if rest = [] ∨ rest.any (fun t => t.2.isNone) = true then 4 else if rest.any (fun t => (keysTok t.1).isEmpty) then 3 else 0)
    else
      let sameVerb := patterns.filter (fun p => decide (p.1.head? = some v))
      let sameWords := sameVerb.filter (fun p => p.1.isPrefixOf ws)
      if sameVerb = [] then 3
      else if sameWords = [] then (if ws.length = 1 then 4 else 3)
      else if !sameWords.any (fun p => patArgs p l) then 4
      else if v = "get" ∧ (keysTok (ws.getD 1 "")).isEmpty = true then 3
      else 0

/-! The machine form (R323) -/

/-- The tag of a machine line: 1 to 8 letters or digits after `#`, up to a space; none when it cannot be read. -/
def tagOf (l : List Char) : Option String :=
  let t := (l.drop 1).takeWhile (· != ' ')
  if 1 ≤ t.length ∧ t.length ≤ 8 ∧ t.all Char.isAlphanum ∧ (l.drop (1 + t.length)).head? = some ' ' then some (String.ofList t) else none

/-- The command of a machine line whose form and CRC hold, none otherwise. -/
def machineBody (l : List Byte) : Option (String × List Char) :=
  let cs := l.map charOf
  let n := l.length
  match tagOf cs with
  | none => none
  | some t =>
    let tail := l.drop (n - 6)
    let crcd := l.take (n - 5)
    if n < 4 + t.toList.length + 5 then none
    else if tail.take 2 ≠ [0x20, 0x2A] then none
    else match hexNum (tail.drop 2) 0 with
      | some c => if c = crc16 crcd then some (t, (cs.drop (2 + t.toList.length)).take (n - 8 - t.toList.length)) else none
      | none => none

end Sys2Proof.Machine
end

