-- ==== Sys2Proof/Machine/Line.lean ====
section
/-!
DEFINITION. Bytes and lines of the console ports (R318 to R329), the fault states' answers (R71, R116, R122), and the mailbox exchange of the tag (R378).
-/

namespace Sys2Proof.Machine

/-! Replies outside an accepted command -/

/-- A one-line reply that answers no accepted command: the counts of outstanding commands stay. -/
def State.rawReply (s : State) (p : Nat) (tag : Option String) (body : String) : State :=
  let c := s.con p
  let prompt : List OutLine := if tag.isNone && s.parS .conPrompt p == 1 then [OutLine.mk none false false true "rn> "] else []
  s.setCon p { c with out := c.out ++ [OutLine.mk tag false false false body] ++ prompt }

/-! Bytes (R321) -/

abbrev cr : Byte := 0x0D
abbrev lf : Byte := 0x0A

/-- A line has begun, with `#`, as a machine line; one not yet begun is judged by its first byte. -/
def typedLine (line : List Byte) (b : Byte) : Bool :=
  match line with
  | [] => decide (b ≠ 0x23)
  | c :: _ => decide (c ≠ 0x23)

/-- A byte counted toward a line: BS and DEL remove the last byte of a typed line, a 256th byte makes the line too long. -/
def ConSt.take (c : ConSt) (b : Byte) : ConSt :=
  if (b = 0x08 ∨ b = 0x7F) ∧ typedLine c.line b = true then { c with line := c.line.dropLast, lastCr := false }
  else if 255 ≤ c.line.length then { c with tooLong := true, lastCr := false }
  else { c with line := c.line ++ [b], lastCr := false }

/-- A byte of a served port: echoed in the typed form as received, a terminator as CR LF; the line itself ends with CONSOLE_LINE. -/
def State.lineByte (s : State) (p : Nat) (b : Byte) : State :=
  let c := s.con p
  let echo := s.parS .conEcho p == 1
  if b = cr ∨ b = lf then
    let second := decide (b = lf) && c.lastCr
    let s := s.setCon p { c with lastCr := decide (b = cr) }
    if echo && !second && typedLine c.line b then s.bare p "\r\n" else s
  else
    let typed := typedLine c.line b
    let s := s.setCon p (c.take b)
    if echo && typed then s.bare p (String.singleton (charOf b)) else s

/-- The boot ROM's fault states, in which it answers CON0 alone: the words of the answer (R71, R116, R122). -/
def State.faultWords (s : State) : Option String :=
  let two (n : Nat) : String := decN 2 n
  match s.power.phase with
  | .stestFault n => some ("fault stest " ++ two n)
  | .clockFault => some "fault clock"
  | .imageFault n => some ("fault image " ++ two n)
  | _ => none

/-- The partition that holds CON1 gets its CON1 event: receive data, or transmit space (Table 4-2). -/
def State.con1Event (s : State) (port : Nat) : State :=
  match ([1, 2, 3, 4, 5, 6, 7] : List Nat).find? (fun k => decide (port = 1) && s.granted k .misc 0) with
  | some k => s.setEvp k 0x200
  | none => s

/-- CONSOLE_BYTE_RECEIVED: after a byte the line is idle, high; a framing error drops the byte; Camlan takes a byte at once, a port it does not serve keeps up to 256 (DESIGN CHOICE, log entry 52). -/
def doConsoleByteReceived (s : State) (port : Nat) (byte : Byte) (framingOk : Bool) : State :=
  if 1 < port ∨ s.powered = false ∨ s.fld (Reg.CON_CTRL port) 0 2 ≠ 3 then s
  else
    let c := s.con port
    let s := s.setBit (Reg.CON_STAT port) 3 true
    if !framingOk then
      ((s.setCon port { c with fe := c.fe + 1, errFrame := c.errFrame + 1, abArm := c.abArm || decide (3 ≤ c.fe + 1) }).setBit (Reg.CON_STAT port) 8 true).setBit (Reg.CON_IRQ port) 2 true
    else
      let s := (s.setCon port { c with fe := 0 }).setBit (Reg.CON_IRQ port) 0 true
      if s.camlanOn && s.conServed port then s.lineByte port byte
      else if s.faultWords.isSome then
        (if port = 0 ∧ byte ≠ cr ∧ byte ≠ lf then s.setCon 0 ((s.con 0).take byte) else s)
      else if 256 ≤ c.rx.length then
        ((s.setCon port { s.con port with errOver := c.errOver + 1 }).setBit (Reg.CON_STAT port) 9 true).setBit (Reg.CON_IRQ port) 2 true
      else
        ((s.setCon port { s.con port with rx := c.rx ++ [byte] }).showCon port).con1Event port

/-- CONSOLE_BYTE_SENT: the oldest byte of the transmit FIFO is gone; TXEMPTY at the last, and Camlan moves more into it. -/
def doConsoleByteSent (s : State) (port : Nat) : State :=
  if 1 < port ∨ s.powered = false ∨ s.bit (Reg.CON_CTRL port) 0 = false ∨ s.bit (Reg.CON_CTRL port) 2 = false then s
  else
    let c := s.con port
    match c.tx with
    | [] => s
    | _ :: t =>
      let s := (s.setCon port { c with tx := t }).showCon port
      let s := if t = [] then s.setBit (Reg.CON_IRQ port) 1 true else s
      let s := s.con1Event port
      if s.camlanOn ∨ s.faultWords.isSome = true then s.pump port else s

/-! Lines (R321 to R324) -/

/-- The words of a line that Camlan answers before the end of the stake-boat interval (R130). -/
def earlyLine (l : List Tok) : Bool := decide (wordsOf l = ["show", "start"]) || decide (wordsOf l = ["stop"])

/-- Whether a line's bytes may stand in a line: at most 255, printable (R321). -/
def ConSt.sound (c : ConSt) : Bool := !c.tooLong && !c.line.any (fun b => decide (b.toNat < 0x20) || decide (0x7E < b.toNat))

/-- Whether a text is `show start` or `stop`. -/
def earlyText (text : List Char) : Bool := match tokens text with | some l => earlyLine l | none => false

/-- A command text judged: the error that answers it, or acceptance under its tag. -/
def State.judgeLine (s : State) (p : Nat) (tag : Option String) (text : List Char) : State :=
  match tokens text with
  | none => s.rawReply p tag (errLine 1)
  | some l =>
    if commandErr l ≠ 0 then s.rawReply p tag (errLine (commandErr l))
    else
      let c := s.con p
      match tag with
      | some t => s.setCon p { c with ready := c.ready ++ [tag], tags := c.tags ++ [t] }
      | none => s.setCon p { c with ready := c.ready ++ [tag], typed := c.typed + 1 }

/-- Whether a machine line is one that is not answered `starting` in the stake-boat interval (Table 5-8). -/
def ConSt.earlyMachine (c : ConSt) : Bool :=
  c.sound && (match machineBody c.line with | some (_, text) => earlyText text | none => false)

/-- A terminated machine line: `starting` in the interval, whatever is wrong with it (Table 5-8); else 02, 01, 05, 15 and 08 in this order, then the command (R321, R323, R324; DEDUCED, log entry 56). -/
def State.machineLine (s : State) (p : Nat) (c : ConSt) : State :=
  let tag := (tagOf (c.line.map charOf)).getD "?"
  let s := if c.sound && (machineBody c.line).isNone then s.setCon p { s.con p with errCrc := c.errCrc + 1 } else s
  if s.starting && !c.earlyMachine then s.rawReply p (some tag) "starting"
  else if c.tooLong then s.rawReply p (some tag) (errLine 2)
  else if !c.sound then s.rawReply p (some tag) (errLine 1)
  else match machineBody c.line with
    | none => s.rawReply p (some tag) (errLine 5)
    | some (t, text) =>
      if c.tags.contains t then s.rawReply p (some t) (errLine 15)
      else if 8 ≤ c.tags.length then s.rawReply p (some t) (errLine 8)
      else s.judgeLine p (some t) text

/-- A terminated typed line: the prompt alone for an empty one, `starting` in the interval, 02 and 01, 08 for a fifth one held, then the command. -/
def State.typedLineEnd (s : State) (p : Nat) (c : ConSt) : State :=
  if !c.tooLong && c.line.all (fun b => decide (b = 0x20)) then (if s.parS .conPrompt p == 1 then s.bare p "rn> " else s)
  else if s.starting && !(c.sound && earlyText (c.line.map charOf)) then s.rawReply p none "starting"
  else if c.tooLong then s.rawReply p none (errLine 2)
  else if !c.sound then s.rawReply p none (errLine 1)
  else if 5 ≤ c.typed then s.rawReply p none (errLine 8)
  else s.judgeLine p none (c.line.map charOf)

/-- CONSOLE_LINE: the terminator completes the line, which is stamped (R321). -/
def doConsoleLine (s : State) (port us : Nat) : State :=
  if 1 < port then s
  else match s.faultWords with
    | some w => if port = 0 then ((s.setCon 0 { s.con 0 with line := [], tooLong := false, out := (s.con 0).out ++ [OutLine.mk none false false false w] }).pump 0) else s
    | none =>
      if !(s.camlanOn && s.conServed port) then s
      else
        let s := s.atUs us
        let c := s.con port
        let machine := !typedLine c.line cr
        let s := s.setCon port { c with line := [], tooLong := false, lastLine := s.clock, machine := machine }
        let s := s.flushNotices port
        if machine then s.machineLine port c else s.typedLineEnd port c

/-! Rate, break, notices (R319, R320, R327, R329) -/

def conRates : List Nat := [9600, 19200, 38400, 57600, 115200, 230400, 460800, 921600]

/-- The distance of a rate from a measured width [24 MHz cycles]: |24,000,000 − rate × width|. -/
def rateDist (width rate : Nat) : Nat := ((24000000 : Int) - rate * width).natAbs

/-- The rate nearest to a measurement. -/
def nearestRate (width : Nat) : Nat := conRates.foldl (fun r q => if rateDist width q < rateDist width r then q else r) 9600

/-- AUTOBAUD (R319): the first CR after reset, and the next one after 3 framing errors in a row. -/
def doAutobaud (s : State) (port width : Nat) : State :=
  if 1 < port ∨ s.powered = false ∨ s.bit (Reg.CON_CTRL port) 3 = false ∨ (s.con port).abArm = false then s
  else
    let r := nearestRate width
    let s := ((s.wrN (Reg.CON_ABMEAS port) (width % 65536)).setBit (Reg.CON_STAT port) 4 true).setBit (Reg.CON_IRQ port) 4 true
    if width ≠ 0 ∧ 20 * rateDist width r ≤ r * width then
      let s := s.wrN (Reg.CON_BAUD port) (roundDiv 24000000 r).toNat
      let s := s.setCon port { s.con port with adopted := true, abArm := false, fe := 0 }
      if s.camlanOn then s.logS 0x0E09 (u8 port ++ u32 r) else s
    else s.setBit (Reg.CON_STAT port) 11 true

/-- CONSOLE_BREAK (R320): the partly received line and the count of framing errors are gone; a session stays. -/
def doConsoleBreak (s : State) (port : Nat) : State :=
  if 1 < port ∨ s.powered = false then s
  else
    let s := ((s.setBit (Reg.CON_STAT port) 3 false).setBit (Reg.CON_STAT port) 10 true).setBit (Reg.CON_IRQ port) 3 true
    (s.setCon port { s.con port with line := [], tooLong := false, fe := 0 }).flushNotices port

/-- NOTICE_FLUSH (R327): after 5 s the notices withheld are sent, and the partly typed line is echoed again after them. -/
def doNoticeFlush (s : State) (port : Nat) : State :=
  if !(s.camlanOn && s.conServed port) || (s.con port).withheld.isEmpty then s
  else
    let s := s.flushNotices port
    let line := (s.con port).line
    if line ≠ [] ∧ s.parS .conEcho port = 1 then s.bare port (String.ofList (line.map charOf)) else s

/-- LOST_NOTICE (R329): once the buffer holds no more than 3,072 bytes. -/
def doLostNotice (s : State) (port : Nat) : State :=
  let c := s.con port
  if 1 < port ∨ c.dropped = 0 ∨ 3072 < c.outBytes ∨ !(s.camlanOn && s.conServed port) then s
  else
    let s := s.setCon port { c with dropped := 0 }
    (s.notice port ("lost count=" ++ toString c.dropped)).logS 0x0E0A (u8 port ++ u32 c.dropped)

/-- Line errors of the watch (0x0E08). -/
def State.lineErrorsWatch (s : State) : State :=
  ([0, 1] : List Nat).foldl (fun s p =>
    let c := s.con p
    if c.errFrame + c.errOver + c.errCrc = 0 then s
    else (s.setCon p { c with errFrame := 0, errOver := 0, errCrc := 0 }).logS 0x0E08 (u8 p ++ u32 c.errFrame ++ u32 c.errOver ++ u32 c.errCrc)) s

/-- Camlan takes what a port received before it served it. -/
def State.drainRx (s : State) (p : Nat) : State :=
  let l := (s.con p).rx
  l.foldl (fun s b => s.lineByte p b) ((s.setCon p { s.con p with rx := [] }).showCon p)

/-! The mailbox (R378) -/

abbrev mbBase : Nat := 0x50000C00

/-- Words of a mailbox line that a VIEW reader may give, with their reply; none for a command above VIEW (DEDUCED, log entry 57). -/
def State.viewReply (s : State) (l : List Tok) : Option (List String) :=
  let ws := wordsOf l
  let n := (natTok (ws.getD 2 "")).getD 0
  match ws with
  | ["ping"] => some ["pong"]
  | ["logout"] => some ["ok"]
  | ["whoami"] => some ["whoami level=view port=tag source=0x30 rank=- helm=no idle=0"]
  | ["show", "version"] => some s.sayVersion
  | ["show", "start"] => some s.sayStart
  | ["show", "status"] => some s.sayStatus
  | ["show", "string", _] => some (s.sayString n)
  | ["show", "seat", _] => some (s.saySeat n)
  | ["show", "helm"] => some s.sayHelm
  | ["show", "ticket"] => some s.sayTicket
  | ["show", "mdi"] => some s.sayMdi
  | ["show", "imd"] => some s.sayImd
  | ["show", "sin"] => some s.saySin
  | ["show", "kpa"] => some s.sayKpa
  | ["show", "part"] => some s.sayPart
  | ["show", "crew"] => some s.sayCrew
  | ["show", "chain"] => some s.sayChain
  | ["show", "radio"] => some s.sayRadio
  | ["show", "reset"] => some s.sayReset
  | ["show", "tally"] => some s.sayTally
  | ["get", k] => some (s.sayGet (keysTok k))
  | ["stage", "show"] => some (if s.nv.staged = [] then ["ok"] else s.stageLines)
  | ["stage", "check"] => some ["stage staged=" ++ toString s.nv.staged.length ++ " check=" ++ checkText s.checkNow]
  | ["stage", "dump"] => some (dumpLines s.stagedCfg)
  | ["stop"] => some [errLine 7 "state=running"]
  | ["log", "head"] => some (s.sayLogHead ((bookTok (keyVal l "book")).getD 9))
  | ["log", "read"] =>
    let b := (bookTok (keyVal l "book")).getD 9
    if b < 2 then some (s.sayLogRead b ((natTok (keyVal l "from")).getD 0) ((natTok (keyVal l "count")).getD 0)) else none
  | _ => none

/-- Whether words are an order (Table 14-4). -/
def orderWords (ws : List String) : Bool := patsOrder.any (fun p => p.1.isPrefixOf ws)

/-- A line's text in the order record of R334: OPEN, CLOSE, a limit, TAKE_HELM or RELEASE_HELM, and its target. -/
def orderOf (ws : List String) : Nat × Nat :=
  let n := (natTok (ws.getLast?.getD "")).getD 0
  match ws with
  | ["open", "battery"] => (kOpen, tBattery)
  | ["open", "mdi"] => (kOpen, tMdi)
  | ["open", "string", _] => (kOpen, n)
  | ["close", "battery"] => (kClose, tBattery)
  | ["close", "mdi"] => (kClose, tMdi)
  | ["close", "string", _] => (kClose, n)
  | ["limit", "chg", "battery", _] => (kRaise, tChgBat)
  | ["limit", "dis", "battery", _] => (kRaise, tDisBat)
  | ["limit", "chg", "string", i, _] => (kRaise, 0x10 + (natTok i).getD 0)
  | ["limit", "dis", "string", i, _] => (kRaise, 0x18 + (natTok i).getD 0)
  | ["helm", "take"] => (kTake, 0)
  | _ => (kRelease, 0)

/-- Whole lines, each with its end, that fit a room; a first line that does not fit is cut (DEDUCED, log entry 57). -/
def fitLines (room : Nat) : List (List Byte) → List Byte × List (List Byte)
  | [] => ([], [])
  | l :: t => if l.length ≤ room then
      let r := fitLines (room - l.length) t
      (l ++ r.1, r.2)
    else ([], l :: t)

/-- Bytes cut into lines, each ending in LF. -/
def splitLf : List Byte → List Byte → List (List Byte)
  | [], cur => if cur = [] then [] else [cur.reverse]
  | b :: t, cur => if b = lf then (b :: cur).reverse :: splitLf t [] else splitLf t (b :: cur)

/-- The reply text goes into the mailbox, as much as 244 bytes hold; then the status, and the semaphore is free; where the field has taken the mailbox meanwhile the reply waits for it (R378). -/
def State.mailboxText (s : State) (text : List Byte) : State :=
  if s.tag.owner ≠ 2 then s.setTag { s.tag with reply := some text } else
  let (now, later) := match fitLines 244 (splitLf text []) with
    | ([], l :: t) => (l.take 244, l.drop 244 :: t)
    | r => r
  let more := later.flatMap id
  let b := u16 s.tag.lastReq ++ u16 now.length ++ u8 (if more = [] then 0 else 1) ++ [0, 0, 0] ++ now
  let s := (s.wrBytes (mbBase + 0x104) b).setTag { s.tag with more := more }
  let s := s.wrBytes (mbBase + 0x201) (u8 2 ++ u16 s.tag.lastReq)
  s.setOwner 0

/-- The reply of a mailbox line, in the machine form under its tag. -/
def State.mailboxReply (s : State) (tag : String) (lines : List String) : State :=
  let n := lines.length
  s.mailboxText (((List.range n).zip lines).flatMap (fun e => (OutLine.mk (some tag) (decide (e.1 + 1 < n)) false false e.2).bytes))

/-- TAG_MAILBOX_REQUEST: once the semaphore is free Camlan takes it and executes the line as one of source 0x30 at VIEW level; a request of length 0 fetches the next part; a reply that the field cut off is written again first. -/
def doTagMailboxRequest (s : State) : State :=
  if !s.camlanOn || s.tag.owner != 0 then s
  else match s.tag.reply with
  | some text => ((s.setTag { s.tag with reply := none }).setOwner 2).mailboxText text
  | none =>
  match s.tag.request with
  | none => s
  | some _ =>
      let len := s.ld mbBase 2
      let seq := s.ld (mbBase + 2) 2
      let s := (s.setTag { s.tag with request := none, lastReq := seq }).setOwner 2
      let s := s.wrBytes (mbBase + 0x201) (u8 1)
      if len = 0 then s.mailboxText s.tag.more
      else
        let line := s.rdBytes (mbBase + 4) (min len 256)
        let tag := (tagOf (line.map charOf)).getD "?"
        let s := s.logS 0x1004 (u16 seq ++ u16 (Config.freeOf 901 (crc32 line)))
        if 255 < len then s.mailboxReply tag [errLine 2]
        else if line.any (fun b => decide (b.toNat < 0x20) || decide (0x7E < b.toNat)) then s.mailboxReply tag [errLine 1]
        else match machineBody line with
          | none => s.mailboxReply tag [errLine 5]
          | some (t, text) =>
            match tokens text with
            | none => s.mailboxReply t [if s.starting then "starting" else errLine 1]
            | some l =>
              let ws := wordsOf l
              if s.starting && !decide (ws = ["show", "start"]) then s.mailboxReply t ["starting"]
              else if commandErr l ≠ 0 then s.mailboxReply t [errLine (commandErr l)]
              else if ws = ["est", "save"] then s.setEst { s.est with saves := s.est.saves ++ [(2, some t)] }
              else if orderWords ws then
                let o := orderOf ws
                (s.logIn 1 0x0226 0x30 (u8 5 ++ u8 o.2 ++ u8 o.1 ++ u8 0xFF ++ u32 0)).mailboxReply t ["order invalid"]
              else match s.viewReply l with
                | some r => s.mailboxReply t r
                | none => s.mailboxReply t [errLine 6]

def execConsoleByteReceived (port : Nat) (byte : Byte) (framingOk : Bool) (s : State) := done (doConsoleByteReceived s port byte framingOk)
def execConsoleByteSent (port : Nat) (s : State) := done (doConsoleByteSent s port)
def execConsoleLine (port us : Nat) (s : State) := done (doConsoleLine s port us)
def execAutobaud (port width : Nat) (s : State) := done (doAutobaud s port width)
def execConsoleBreak (port : Nat) (s : State) := done (doConsoleBreak s port)
def execNoticeFlush (port : Nat) (s : State) := done (doNoticeFlush s port)
def execLostNotice (port : Nat) (s : State) := done (doLostNotice s port)
def execTagMailboxRequest (s : State) := done (doTagMailboxRequest s)

end Sys2Proof.Machine
end

