-- ==== Sys2Proof/Machine/Regs.lean ====
section
/-!
DEFINITION. Register accesses that have no row of their own (R7, R8, R21 to R23), the read of the time base (R28), and the interrupt lines (R40).
-/

namespace Sys2Proof.Machine

/-- Whether an address lies in the peripheral blocks (Table 1-3). -/
def inPeriph (a : Nat) : Bool := decide (0x40000000 ≤ a) && decide (a ≤ 0x40021FFF)

/-- Whether a slot register belongs to the active bank (Table 4-13). -/
def State.activeSlot (s : State) (a : Nat) : Bool :=
  decide (Reg.PART_SLOTA 0 ≤ a) && decide (a < Reg.PART_SLOTA 0 + 1024) && decide ((a - Reg.PART_SLOTA 0) / 512 = s.bank)

/-- The bits whose write has a row of its own in the table of commands, or is ignored as the register's text says; a plain write keeps them. (DEDUCED, log entry 122) -/
def State.keptBits (s : State) (a : Nat) : Nat :=
  if a = Reg.STK_CTRL then (if s.running then 0x1FF else 0x100)
  else if a = Reg.STK_TRIM then 0xFF
  else if a = Reg.COX_CTRL then 0x3
  else if a = Reg.COX_PERMIT then 0x1
  else if a = Reg.COX_STATUS then (if s.locked then 0x2 else 0)
  else if a = Reg.COX_STEST then (if s.locked then 0x1F000000 else 0)
  else if a = Reg.PART_CTRL then 0xF
  else if Reg.PART_GR_ARX0 0 ≤ a ∧ a < Reg.PART_GR_ARX0 7 ∧ 0x20 ≤ a % 256 ∧ a % 256 < 0x40 then 2 ^ 32 - 1
  else if s.activeSlot a then 2 ^ 32 - 1
  else if a = Reg.LOG_CURSEQ then 2 ^ 32 - 1
  else if a = Reg.CAN_WSEL 0 ∨ a = Reg.CAN_WSEL 1 ∨ a = Reg.CAN_WSEL 2 then 2 ^ 32 - 1
  else if a = Reg.CLK_CTRL then (if s.bit Reg.CLK_STAT 3 then 0x1 else 0)
  else if a = Reg.IMD_FLAGS then 0x20
  else 0

/-- What a plain write leaves in the register it reaches: the access code of each field decides, within the bits the requester reaches and the write may change (R7, R8). -/
def State.writeReg (s : State) (rq : Requester) (a v : Nat) : State :=
  match regRow a with
  | none => s
  | some r =>
    let key := regFor rq a
    let m := s.reachMask rq a
    let kept := s.keptBits a
    let m := m - (m &&& kept)
    let old := s.rdN key
    let new := writeByAccess r old ((v &&& m) + ((old &&& r.rw) - (old &&& r.rw &&& m)))
    s.wrN key new

/-- The port of a console block. -/
def conPort (a : Nat) : Nat := a / 4096 - 0x40017

/-- Effects of the write-only bits of CON.CTRL: a further automatic rate detection, and the two FIFOs emptied (Table 14-10). -/
def State.conCtrl (s : State) (p v : Nat) : State :=
  let c := s.con p
  let c := if getField v 8 1 = 1 then { c with abArm := true } else c
  let c := if getField v 9 1 = 1 then { c with rx := [] } else c
  let c := if getField v 10 1 = 1 then { c with tx := [] } else c
  (s.setCon p c).showCon p

/-- A byte written to TXDATA; a full FIFO takes none (Table 14-10). -/
def State.conTx (s : State) (p v : Nat) : State :=
  let c := s.con p
  if 256 ≤ c.tx.length then s else (s.setCon p { c with tx := c.tx ++ [byteOf v] }).showCon p

/-- What follows from a write beyond the register itself. -/
def State.afterWrite (s : State) (a v kpaOld : Nat) : State :=
  if a = Reg.KPA_CTRL then
    let s := s.kpaCtrlWritten
    if getField kpaOld 3 1 ≠ getField v 3 1 then s.kinHeld else s
  else if a = Reg.KPA_AUXCFG then s.auxWritten
  else if a = Reg.CON_CTRL 0 ∨ a = Reg.CON_CTRL 1 then s.conCtrl (conPort a) v
  else if a = Reg.CON_TXDATA 0 ∨ a = Reg.CON_TXDATA 1 then s.conTx (conPort a) v
  else if a = Reg.PUMP_CTRL then (if s.bit Reg.PUMP_CTRL 0 then s else s.cutFeed)
  else if a = Reg.CAN_CTRL 0 ∨ a = Reg.CAN_CTRL 1 ∨ a = Reg.CAN_CTRL 2 then s.canCtrl (a / 4096 - 0x40014)
  else if a = Reg.IMD_STAT then s.setImdFlag 5 (s.bit Reg.IMD_STAT 8)
  else if Reg.SIN_CFG 0 ≤ a ∧ a ≤ Reg.SIN_CFG 7 then s.sinSourceSet ((a - Reg.SIN_CFG 0) / 4)
  else if a / 4096 = 0x4001C ∧ 0x100 ≤ a % 4096 ∧ a % 4096 < 0x200 ∧ a % 0x40 = 8 then s.qpData ((a % 4096 - 0x100) / 0x40) v
  else s

/-- The partition manager rejects a quota that leaves the tenant quota space, and so meets the cell view or the mailboxes, or overlaps another partition's (R19): the write is ignored. -/
def State.quotaRejected (s : State) (a v : Nat) : Bool :=
  let k := (a - Reg.PART_QBASE 0) / 256
  let b := if a = Reg.PART_QBASE k then getField v 12 10 else s.fld (Reg.PART_QBASE k) 12 10
  let n := if a = Reg.PART_QSIZE k then getField v 12 10 else s.fld (Reg.PART_QSIZE k) 12 10
  let clash (j : Nat) : Bool :=
    let c := s.fld (Reg.PART_QBASE j) 12 10
    let m := s.fld (Reg.PART_QSIZE j) 12 10
    decide (j ≠ k) && decide (0 < m) && decide (b < c + m) && decide (c < b + n)
  decide (Reg.PART_QBASE 0 ≤ a) && decide (k < 7) && (decide (a = Reg.PART_QBASE k) || decide (a = Reg.PART_QSIZE k))
    && decide (0 < n) && (decide (0x3E0 < b + n) || (List.range 7).any clash)

/-- REGISTER_WRITE (R7, R8, R22, R23): the fields without a row of their own; a requester without the right leaves everything as it is, and its refusal is PARTITION_FAULT. -/
def doRegisterWrite (s : State) (rq : Requester) (addr : Nat) (value : Word) : State :=
  if !s.awake || !inPeriph addr || decide (addr % 4 ≠ 0) || !s.mayWrite rq addr || decide (s.reachMask rq addr = 0) || s.quotaRejected addr value.toNat then s
  else (s.writeReg rq addr value.toNat).afterWrite addr value.toNat (s.rdN Reg.KPA_CTRL)

def execRegisterWrite (rq : Requester) (addr : Nat) (value : Word) (s : State) := done (doRegisterWrite s rq addr value)

/-- A console's receive FIFO gives its oldest byte with VALID set, or nothing. -/
def State.popRx (s : State) (p : Nat) : State :=
  match (s.con p).rx with
  | [] => { s with rdata := 0 }
  | b :: t => { (s.setCon p { s.con p with rx := t }).showCon p with rdata := wordOf (b.toNat + 2 ^ 31) }

/-- A completion FIFO gives its oldest tag with VALID set, or nothing (Tables 8-9 and 9-10). -/
def State.popChn (s : State) : State :=
  match s.chn.done with
  | [] => { s with rdata := 0 }
  | _ :: t => { (s.setChn { s.chn with done := t }).showDone with rdata := s.rd Reg.CHN_DONE }

def State.popRad (s : State) : State :=
  match s.rad.done with
  | [] => { s with rdata := 0 }
  | _ :: t => { (s.setRad { s.rad with done := t }).showDone with rdata := s.rd Reg.RAD_DONE }

/-- A read of JOINRD gives the next buffered join request (R219, Table 9-10). -/
def State.popJoin (s : State) : State :=
  let v := s.rdN Reg.RAD_JOINRD
  let word (j : Nat × Nat × Nat) : Nat := j.1 + j.2.1 % 256 * 256 + 2 ^ 31
  let next := match (s.rad.joins.dropWhile (fun j => decide (word j ≠ v))).drop 1 with
    | [] => 0
    | j :: _ => word j
  { s.wrN Reg.RAD_JOINRD next with rdata := wordOf v }

/-- A receive FIFO of a Q-port select, or of the slave, gives its oldest word. -/
def State.popQrx (s : State) (n : Nat) : State :=
  { s.setQrx n ((s.qrx n).drop 1) with rdata := wordOf ((s.qrx n).headD 0) }

/-- The slave's receive FIFO gives its oldest word (R386). -/
def State.popSlave (s : State) : State :=
  let l := s.qp.slave.drop 1
  { ((s.setQp { s.qp with slave := l }).setFld Reg.QP_SLVST 0 7 l.length).wrN Reg.QP_SLVRX (l.headD 0) with rdata := wordOf (s.qp.slave.headD 0) }

/-- The RC fields of a register at their reset values, and the value read. (DEDUCED, log entry 111) -/
def State.readClear (s : State) (rq : Requester) (a : Nat) : State :=
  match regRow a with
  | none => { s with rdata := 0 }
  | some r =>
    let key := regFor rq a
    let old := s.rdN key
    { s.wrN key (old - (old &&& r.rc) + (r.reset &&& r.rc)) with rdata := wordOf (old &&& s.reachMask rq a) }

/-- READ_CLEAR (R7): a completed read returns the value and clears it; a read that is aborted clears nothing. A read of a FIFO register takes its oldest entry. (DESIGN CHOICE, log entry 68) -/
def doReadClear (s : State) (rq : Requester) (addr : Nat) (aborted : Bool) : State :=
  if !s.awake || !inPeriph addr || decide (addr % 4 ≠ 0) || !s.mayRead rq addr || aborted || decide (s.reachMask rq addr = 0) then s
  else if addr = Reg.CON_RXDATA 0 ∨ addr = Reg.CON_RXDATA 1 then s.popRx (conPort addr)
  else if addr = Reg.CHN_DONE then s.popChn
  else if addr = Reg.RAD_DONE then s.popRad
  else if addr / 4096 = 0x4001C ∧ 0x100 ≤ addr % 4096 ∧ addr % 4096 < 0x200 ∧ addr % 0x40 = 0x14 then s.popQrx ((addr % 4096 - 0x100) / 0x40)
  else if addr = Reg.RAD_JOINRD then s.popJoin
  else if addr = Reg.QP_SLVRX then s.popSlave
  else if addr = Reg.SIN_TPSTAT then (s.setFld Reg.SIN_TPSTAT 0 14 s.tpPhase).readClear rq addr
  else s.readClear rq addr

def execReadClear (rq : Requester) (addr : Nat) (aborted : Bool) (s : State) := done (doReadClear s rq addr aborted)

/-- Whether a write to an address meets a read-only region (Table 1-5): boot ROM, eflash, the XIP window, the DBG block. -/
def readOnly (a : Nat) : Bool :=
  decide (a ≤ 0xFFFF) || inEflash a || (decide (0x30000000 ≤ a) && decide (a ≤ 0x3FFFFFFF)) || decide (a / 4096 = 0x40020)

/-- BUS_ERROR (R21, R25): recorded; the Cox's is a Camlan fault with cause 0x02, a tenant's suspends its partition, a monitor's halts its Scull. An access that is neither unmapped nor a write to a read-only region ends in no bus error. -/
def doBusError (s : State) (rq : Requester) (user write : Bool) (addr : Nat) : State :=
  if !s.awake || (mapped addr && !(write && readOnly addr)) then s
  else
    let scull (sc : Nat) : State :=
      if user && !Requester.isMonitor rq then s.tenantBusError sc write addr
      else doScullFault (s.busRecord rq write addr) sc (if write then 7 else 5)
    match rq with
    | .cox => s.coxBusError write addr
    | .scull0 => scull 0
    | .scull1 => scull 1
    | .scull2 => scull 2
    | .scull3 => scull 3
    | .monitor0 | .monitor1 | .monitor2 | .monitor3 => scull ((Requester.scull? rq).getD 0)
    | .linkEngine | .prefetch | .debugPort => s.busRecord rq write addr

def execBusError (rq : Requester) (user write : Bool) (addr : Nat) (s : State) := done (doBusError s rq user write addr)

/-- STROKE_TIME_READ (R28): the low word is returned and the high word is latched for this requester. -/
def doStrokeTimeRead (s : State) (rq : Requester) (us : Nat) : State :=
  if !s.awake || !s.mayRead rq Reg.STK_TIMEL then s
  else
    let s := if s.running then s.atUs us else s
    let t := s.now
    { (s.wrN Reg.STK_TIMEL (t % 2 ^ 32)).wrN (regFor rq Reg.STK_TIMEH) (t / 2 ^ 32) with rdata := wordOf t }

def execStrokeTimeRead (rq : Requester) (us : Nat) (s : State) := done (doStrokeTimeRead s rq us)

/-- INTERRUPT_LINE_CHANGE (R40): both cores see the changed line on the same core cycle, so one copy stands for both. -/
def doInterruptLineChange (s : State) (line : Nat) (level : Bool) : State :=
  { s with stk := { s.stk with lines := putField s.stk.lines line 1 (if level then 1 else 0) } }

def execInterruptLineChange (line : Nat) (level : Bool) (s : State) := done (doInterruptLineChange s line level)

end Sys2Proof.Machine
end

