-- ==== Sys2Proof/Machine/Debug.lean ====
section
/-!
DEFINITION. The debug port: authentication (R75, R77, R116, R409), halt, resume and step (R76), and what a debugger reaches (R74).
-/

namespace Sys2Proof.Machine

def State.attached (s : State) : Bool := s.powered && s.bit Reg.DBG_STAT 2
def State.halted (s : State) : Bool := s.attached && s.bit Reg.DBG_STAT 3

/-- Whether the life-cycle state permits a debug session (Table 3-3). -/
def State.debugState (s : State) : Bool := decide (s.lcs = lcsBlank) || decide (s.lcs = lcsCommissioning) || decide (s.lcs = lcsService)

/-- Whether the boot ROM is in the image fault state. -/
def State.imageFaulty (s : State) : Bool := match s.power.phase with | .imageFault _ => true | _ => false

/-- Who answers an authentication: Camlan in the states of Table 3-3 for every enrolled key, or the boot ROM in the image fault state for the fused vendor service key alone (R116). -/
def State.debugMatch (s : State) (msg sig : List Byte) : Option Nat :=
  if s.imageFaulty then s.signer (if s.bit Reg.SEC_STAT 1 then [0xFF] else []) msg sig else s.matched msg sig

def State.debugAnswers (s : State) : Bool :=
  !s.bit Reg.DBG_STAT 4 && ((s.camlanOn && s.debugState) || (s.imageFaulty && decide (s.lcs ≠ lcsRetired)))

/-- A session opens: SEEN and ATTACHED, the key identity in SESSID, the pump fed no longer, which the model shows in COX.STATUS.PERMIT too (R72; DESIGN CHOICE, log entry 139); a running Camlan logs 0x1301 and 0x0305 and enters easy with cause 0x12 (R77, R408). -/
def State.openDebug (s : State) (n id : Nat) : State :=
  let s := ((s.setBit Reg.DBG_STAT 1 true).setBit Reg.DBG_STAT 2 true).wrN Reg.DBG_SESSID n
  let s := s.stopFeed
  if s.camlanOn then ((s.logS0 0x1301 (u8 2 ++ u8 n ++ u32 id)).logS 0x0305 (u8 s.lcs)).easy 0x12 else s

/-- A failed response is counted; the third refuses every later challenge until reset (R75). -/
def State.debugFail (s : State) (id : Nat) : State :=
  let s := s.incSat Reg.DBG_FAILS 0 2 1
  let s := if s.fld Reg.DBG_FAILS 0 2 = 3 then s.setBit Reg.DBG_STAT 4 true else s
  if s.camlanOn then s.logS 0x1302 (u8 2 ++ u32 id) else s

/-- DEBUG_AUTH (R75, R77, R116, R407, R409): a challenge and its response, a signature of 64 bytes with purpose 2. -/
def doDebugAuth (s : State) (sig : List Byte) : State :=
  if !s.debugAnswers then s
  else
    let (id, s) := s.newChallenge
    let m := s.debugMatch (s.authMessage id s.nonceBytes 2) sig
    let s : State := { s.showAuth 2 m with dbg := { s.dbg with chal := id } }
    match m with
    | some n => s.openDebug n id
    | none => s.debugFail id

def execDebugAuth (sig : List Byte) (s : State) := done (doDebugAuth s sig)

/-- DEBUG_HALT (R76): both cores halt in step. -/
def doDebugHalt (s : State) : State := if s.attached then s.setBit Reg.DBG_STAT 3 true else s

def execDebugHalt (s : State) := done (doDebugHalt s)

/-- What the debugger knew of GPRs and CSRs is gone once the cores execute (DESIGN CHOICE, log entry 1). -/
def State.forget (s : State) : State := { s with dbg := { s.dbg with gpr := [], csr := [] } }

/-- DEBUG_RESUME (R76): both cores resume. -/
def doDebugResume (s : State) : State := if s.halted then (s.setBit Reg.DBG_STAT 3 false).forget else s

def execDebugResume (s : State) := done (doDebugResume s)

/-- DEBUG_STEP (R76): both cores execute one instruction and halt again; which one is the program's, not the block's (DESIGN CHOICE, log entry 62). -/
def doDebugStep (s : State) : State := if s.halted then s.forget else s

def execDebugStep (s : State) := done (doDebugStep s)

abbrev csrMisa : Nat := 0x301
abbrev csrMhartid : Nat := 0xF14

/-- The CSRs that a Cox core implements: the machine-mode set of RV32 with its counters and the debug CSRs, no memory protection (R57; PRESUMED, log entry 140). -/
def csrImplemented (n : Nat) : Bool :=
  [0x300, 0x301, 0x304, 0x305, 0x310, 0x320, 0x340, 0x341, 0x342, 0x343, 0x344, 0xF11, 0xF12, 0xF13, 0xF14].contains n
    || (decide (0x323 ≤ n) && decide (n ≤ 0x33F)) || (decide (0xB00 ≤ n) && decide (n ≤ 0xB1F) && decide (n ≠ 0xB01))
    || (decide (0xB80 ≤ n) && decide (n ≤ 0xB9F) && decide (n ≠ 0xB81)) || (decide (0x7B0 ≤ n) && decide (n ≤ 0x7B3))

/-- The registers of the number space 0xC00 to 0xFFF are read only. -/
def csrReadOnly (n : Nat) : Bool := decide (0xC00 ≤ n)

/-- What an abstract command reads: x0 is 0, misa and mhartid are those of R57, a value the debugger wrote stands, and any other is free, and stays what it was read as while the cores are halted (DESIGN CHOICE, log entries 1, 62). -/
def State.abstractRead (s : State) (regno : Nat) : State :=
  let give (n : Nat) (s : State) : State := { s with dbg := { s.dbg with data := n } }
  if 0x1000 ≤ regno then
    if regno = 0x1000 then give 0 s
    else match s.dbg.gpr.find? (fun e => decide (e.1 = regno)) with
      | some e => give e.2.toNat s
      | none =>
        let (n, s) := s.free
        give n { s with dbg := { s.dbg with gpr := s.dbg.gpr ++ [(regno, wordOf n)] } }
  else if regno = csrMisa then give 0x40001104 s
  else if regno = csrMhartid then give 0 s
  else match s.dbg.csr.find? (fun e => decide (e.1 = regno)) with
    | some e => give e.2.toNat s
    | none =>
      let (n, s) := s.free
      give n { s with dbg := { s.dbg with csr := s.dbg.csr ++ [(regno, wordOf n)] } }

/-- What an abstract command writes: x0 and misa keep their values. -/
def State.abstractWrite (s : State) (regno : Nat) (w : Word) : State :=
  if 0x1000 ≤ regno then
    if regno = 0x1000 then s
    else { s with dbg := { s.dbg with gpr := s.dbg.gpr.filter (fun e => decide (e.1 ≠ regno)) ++ [(regno, w)] } }
  else if regno = csrMisa then s
  else { s with dbg := { s.dbg with csr := s.dbg.csr.filter (fun e => decide (e.1 ≠ regno)) ++ [(regno, w)] } }

/-- Whether an abstract access raises an illegal-instruction exception: an unimplemented CSR, or a write of a read-only one (R57). -/
def abstractIllegal (regno : Nat) (write : Bool) : Bool :=
  decide (regno < 0x1000) && (!csrImplemented regno || (write && csrReadOnly regno))

/-- Whether the last debug command ended in an exception. -/
def State.setDbgExc (s : State) (b : Bool) : State := { s with dbg := { s.dbg with exception := b } }

/-- DEBUG_ABSTRACT_COMMAND (R57, R74): a GPR under 0x1000 to 0x101F, or a CSR under its number, of halted cores (DESIGN CHOICE, log entry 62). -/
def doDebugAbstractCommand (s : State) (regno : Nat) (write : Option Word) : State :=
  if !s.halted ∨ 0x1020 ≤ regno then s
  else if abstractIllegal regno write.isSome then s.setDbgExc true
  else match write with
    | some w => (s.setDbgExc false).abstractWrite regno w
    | none => (s.setDbgExc false).abstractRead regno

def execDebugAbstractCommand (regno : Nat) (write : Option Word) (s : State) := done (doDebugAbstractCommand s regno write)

/-- DEBUG_SYSBUS_READ (R74): the boot ROM alone; any other address ends in a bus error of the debug port. -/
def doDebugSysbusRead (s : State) (addr : Nat) : State :=
  if !s.attached then s
  else if addr ≤ 0xFFFF then { s with dbg := { s.dbg with data := Config.freeOf 990 addr % 2 ^ 32 } }
  else s.busRecord .debugPort false addr

def execDebugSysbusRead (addr : Nat) (s : State) := done (doDebugSysbusRead s addr)

/-- DEBUG_RESET_REQUEST (R113): only while attached; cause DEBUG. -/
def doDebugResetRequest (s : State) : State := if s.attached then s.assertReset 8 else s

def execDebugResetRequest (s : State) := done (doDebugResetRequest s)

end Sys2Proof.Machine
end

