-- ==== Sys2Proof/Machine/Sec.lean ====
section
/-!
DEFINITION. The security engine SEC: its operations, key slots and random source (R101, R210, R221, R389, R405, R408, Table 19-4).
-/

namespace Sys2Proof.Machine

/-- The key that KEYSEL names: one that KEYLOAD put into the slot, else the seat, network and crew keys that Camlan holds; the seal key of a partition is derived inside SEC (R389, log entry 63). -/
def State.secKey (s : State) (n : Nat) : List Byte :=
  match s.sec.keys.find? (fun e => decide (e.1 = n)) with
  | some e => e.2
  | none =>
    if n < 128 then ((s.nv.rad.seats.find? (fun e => decide (e.1 = n + 1))).map (fun e => e.2.2)).getD (List.replicate 16 0)
    else if n = 128 then s.nv.rad.netKey
    else if n = 129 then (match s.par .crewKey with | .table b => b | _ => List.replicate 16 0)
    else s.sealKey (n - 130)

/-- A write of SEC.GO with a function: the operation runs on the registers as they stand; with EN 0, or while BUSY, it starts nothing (DESIGN CHOICE, log entry 63). -/
def State.secStart (s : State) (f : Nat) : State :=
  if !s.awake || !s.bit Reg.SEC_CTRL 0 || s.bit Reg.SEC_STAT 3 then s
  else
    let s := (s.setFld Reg.SEC_OP 0 3 f).setBit Reg.SEC_STAT 3 true
    { s with sec := { s.sec with op := some (f, s.fld Reg.SEC_OP 8 8, s.rdN Reg.SEC_SRC, s.rdN Reg.SEC_DST, s.fld Reg.SEC_LEN 0 16, s.fld Reg.SEC_LEN 16 16) } }

/-- SEC_SHA256, SEC_AES_ECB, SEC_AES_CCM, SEC_AES_CMAC, SEC_ECDSA_VERIFY: FUNC 0 to 4. -/
def execSecSha256 (s : State) := done (s.secStart 0)
def execSecAesEcb (s : State) := done (s.secStart 1)
def execSecAesCcm (s : State) := done (s.secStart 2)
def execSecAesCmac (s : State) := done (s.secStart 3)
def execSecEcdsaVerify (s : State) := done (s.secStart 4)

/-- Whole blocks of 16 bytes encrypted one by one. -/
def ecbBlocks (key : List Byte) (b : List Byte) : Nat → List Byte
  | 0 => []
  | n + 1 => (Config.aes128 key (b.take 16)).take 16 ++ ecbBlocks key (b.drop 16) n

/-- What an operation leaves at DST: a digest of 32 bytes, the encrypted blocks, a MAC of 16 bytes; what CCM leaves is as long as its input and free, for the manual gives no layout; a verification leaves nothing but its result (DESIGN CHOICE, log entries 1, 2, 63). -/
def State.secResult (s : State) (f key src len : Nat) : List Byte :=
  let b := s.rdBytes src len
  if f = 0 then (Config.sha256 b).take 32
  else if f = 1 then ecbBlocks (s.secKey key) b (len / 16)
  else if f = 2 then (List.range len).map (fun i => byteOf (Config.freeOf (992 + s.freeCtr) i))
  else if f = 3 then (Config.aesCmac (s.secKey key) b).take 16
  else []

/-- Whether SEC may store a range: TCMs and shared SRAM (DESIGN CHOICE, log entry 63). -/
def secStores (a n : Nat) : Bool :=
  (decide (0x10000000 ≤ a) && decide (a + n ≤ 0x10040000)) || (decide (0x10100000 ≤ a) && decide (a + n ≤ 0x10120000))
    || (decide (0x20000000 ≤ a) && decide (a + n ≤ 0x20400000))

/-- An operation ends in error: OPERR and ERR. -/
def State.secFail (s : State) : State := (s.setBit Reg.SEC_STAT 9 true).setBit Reg.SEC_IRQ 1 true

/-- SEC_OPERATION_DONE (R408, Table 19-4): a result is stored and DONE set, or OPERR and ERR; an ECDSA signature that does not verify fails. -/
def doSecOperationDone (s : State) (ok : Bool) : State :=
  match s.sec.op with
  | none => s
  | some (f, key, src, dst, len, _) =>
    let r := s.secResult f key src len
    let s := { ((s.setBit Reg.SEC_STAT 3 false).free.2) with sec := { s.sec with op := none } }
    if ok && (r.isEmpty || secStores dst r.length) then (s.wrBytes dst r).setBit Reg.SEC_IRQ 0 true else s.secFail

def execSecOperationDone (ok : Bool) (s : State) := done (doSecOperationDone s ok)

/-- A key slot takes a key; the seal keys are derived inside SEC and take none (R389). -/
def State.putKey (s : State) (slot : Nat) (key : List Byte) : State :=
  { s with sec := { s.sec with keys := s.sec.keys.filter (fun e => decide (e.1 ≠ slot)) ++ [(slot, key)] } }

/-- SEC_KEY_LOAD (Table 19-4): the slot takes the 16 bytes of the DST buffer. -/
def doSecKeyLoad (s : State) (slot : Nat) : State :=
  if !s.awake ∨ s.bit Reg.SEC_CTRL 0 = false ∨ 130 ≤ slot then s else s.putKey slot (s.rdBytes (s.rdN Reg.SEC_DST) 16)

def execSecKeyLoad (slot : Nat) (s : State) := done (doSecKeyLoad s slot)

/-- SEC_KEY_GENERATE (R405): the slot takes 16 random bytes; without a healthy random source the operation fails. -/
def doSecKeyGenerate (s : State) (slot : Nat) : State :=
  if !s.awake ∨ s.bit Reg.SEC_CTRL 0 = false ∨ 130 ≤ slot then s
  else if !s.bit Reg.SEC_STAT 2 then s.secFail
  else
    let (a, s) := s.randWord
    let (b, s) := s.randWord
    let (c, s) := s.randWord
    let (d, s) := s.randWord
    s.putKey slot (u32 a ++ u32 b ++ u32 c ++ u32 d)

def execSecKeyGenerate (slot : Nat) (s : State) := done (doSecKeyGenerate s slot)

/-- SEC_RANDOM_READ (Table 19-4): a fresh random word, 0 while RNG_OK is 0. -/
def doSecRandomRead (s : State) : State :=
  if !s.awake then s
  else
    let (w, s) := s.randWord
    { s.wrN Reg.SEC_RAND w with rdata := wordOf w }

def execSecRandomRead (s : State) := done (doSecRandomRead s)

end Sys2Proof.Machine
end

