-- ==== Sys2Proof/Machine/Boot.lean ====
section
/-!
DEFINITION. From the wipe to Camlan, the start of the stroke timer, and the end of the stake-boat interval (05, R114 to R130; 13, R309; 17, R392).
-/

namespace Sys2Proof.Machine

/-! The boot ROM (R116, R118, R121) -/

/-- The boot ROM loads the fuse trims into the trim registers (R177). -/
def State.loadTrims (s : State) : State :=
  let t := s.nv.trims
  let w (v : Int) : Nat := (v % 65536).toNat
  let s := (s.wrN Reg.CCA_GAIN (w t.ccaGain)).wrN Reg.CCA_OFS (w t.ccaOfs)
  let s := (s.wrN Reg.FCS_TRIM (w t.fcsGain + w t.fcsOfs * 65536)).wrN Reg.TMP_REFTRIM (w t.tmpRef)
  let s := (List.range 6).foldl (fun s c => s.wrN (Reg.HVS_TRIM c) (w (t.hvs.getD c (0, 0)).1 + w (t.hvs.getD c (0, 0)).2 * 65536)) s
  { s with meas := { s.meas with dacOfs := (t.ocsOfs, t.bkiOfs) } }

/-- WIPE_DONE (R118, R114, R367): the wipe is complete, the boot timer starts, the boot ROM runs and repeats a refresh that was cut off. -/
def doWipeDone (s : State) (durUs : Nat) : State :=
  match s.power.phase with
  | .wiping =>
    let s := (s.setBit Reg.RST_WIPE 0 true).setFld Reg.RST_WIPE 16 12 durUs
    let s : State := { s with power := { s.power with phase := .bootRom, bootTimer := true } }
    (s.loadTrims.refreshRecovery).setBit Reg.DBG_STAT 0 s.debugState
  | _ => s

/-- The number of a failed image check, as `fault image NN` names it (R116). -/
def imageCheckNo : ImageCheck → Nat
  | .header => 1 | .digest => 2 | .signature => 3

/-- A copy of the life-cycle record whose CRC fits (R124). -/
def copyGood (c : List Byte × Nat) : Bool := decide (crc32 c.1 = c.2)

/-- The first `bad` copies of the life-cycle record are damaged in eflash. -/
def State.spoilLcs (s : State) (bad : Nat) : State :=
  { s with nv := { s.nv with lcsRec := (s.nv.lcsRec.take bad).map (fun c => (c.1, crc32 c.1 + 1)) ++ s.nv.lcsRec.drop bad } }

/-- The boot ROM reads the two copies of the life-cycle record: a bad one sets ERR, the first good one gives the state and a pending transition, two bad ones, or the fuse, make the part RETIRED (R124, R127, Table 5-13; DESIGN CHOICE, log entry 108). -/
def State.lcsCopies (s : State) (bad : Nat) : State :=
  let s := s.spoilLcs bad
  let s := if s.nv.lcsRec.all copyGood then s else s.setBit Reg.LCS_STAT 1 true
  match (s.nv.lcsRec.filter copyGood).head?, s.bit Reg.LCS_FUSES 1 with
  | some (b, _), false =>
    let get (n k : Nat) : Nat := leNat ((b.drop n).take k)
    let s := (((s.setFld Reg.LCS_STATE 0 3 (get 0 1)).setFld Reg.LCS_STATE 4 3 (get 1 1)).wrN Reg.LCS_WIPESET (get 2 1)).wrN Reg.LCS_TCOUNT (get 3 2)
    { s with nv := { s.nv with pendingLcs := if get 1 1 = 7 then none else some (get 1 1, get 2 1) } }
  | _, _ =>
    let s := (s.setFld Reg.LCS_STATE 0 3 lcsRetired).setFld Reg.LCS_STATE 4 3 7
    { s with nv := { s.nv with pendingLcs := none } }

/-- The easy cause of a reset (Table 5-4). -/
def resetEasyCause : Nat → List Nat
  | 3 => [0x10] | 4 => [0x11] | 5 => [0x14] | 6 => [0x15] | 8 => [0x12] | _ => []

/-- The system runs from the PLL, with the clock monitor active (R121, R123). -/
def State.toPll (s : State) : State :=
  let s := s.orReg Reg.CLK_CTRL 3
  ((s.setFld Reg.CLK_STAT 0 2 3).setBit Reg.CLK_STAT 2 (!s.ao.x32lost)).setBit Reg.CLK_STAT 3 true

/-- A 32.768 kHz crystal found lost at the start, whenever it was lost: X32LOSS and 0x0506 (R123; DESIGN CHOICE, log entry 142). -/
def State.reportX32 (s : State) : State :=
  if s.ao.x32lost then (s.setBit Reg.CLK_STAT 8 true).logS 0x0506 [] else s

/-- The record of a Cox fault kept from before the reset: at the start that follows a reset of any cause (R64; DEDUCED, log entry 138). -/
def State.reportCox (s : State) : State :=
  if !s.ao.coxHeld then s
  else
    let s := if s.fld Reg.COX_MMINFO 0 2 = 1 then s.logS 0x0301 (u32 (s.rdN Reg.COX_MMGRP) ++ u32 (s.rdN Reg.COX_MMPC) ++ u32 (s.rdN Reg.COX_MMSTROKE))
      else s.logS 0x0302 (u8 (s.fld Reg.COX_MMINFO 2 2) ++ u8 (s.fld Reg.COX_MMINFO 4 1) ++ u32 (s.rdN Reg.COX_MMADDR) ++ u32 (s.rdN Reg.COX_MMSTROKE))
    { s with ao := { s.ao with coxHeld := false } }

/-- A power-on reset draws a new value for RETAIN1 (R278). -/
def State.reportPor (s : State) (last : Nat) : State :=
  if last = 0 then
    let (n, s) := s.randWord
    s.wrN (Reg.RST_RETAIN 1) n
  else s

/-- After hibernation: its length is counted and what ended it is logged (R285, R411). -/
def State.reportWake (s : State) (last : Nat) : State :=
  if last = 7 then
    let s := (s.runFor s.power.sleptS).logS 0x0C31 (u8 s.power.wakeSrc)
    if s.power.wakeSrc = 2 then s.logS 0x0D20 (u8 s.power.wakeBall) else s
  else s

/-- A session that a reset returned to VIEW is logged at the start (R330). (DEDUCED, log entry 72) -/
def State.reportSessions (s : State) : State :=
  ([0, 1] : List Nat).foldl (fun s p => if (s.con p).wasUp then (s.setCon p { s.con p with wasUp := false }).logS0 0x0E04 (u8 p ++ u8 3) else s) s

/-- The first record of a run (R347). -/
def State.reportReset (s : State) : State :=
  s.logS 0x0501 (u8 (s.fld Reg.RST_LAST 0 4) ++ u32 (s.rdN Reg.RST_CAUSE) ++ u32 (s.rdN Reg.RST_COUNT))

/-- What Camlan reports of the reset (R64, R278, R285, R411). -/
def State.reportStart (s : State) : State :=
  let last := s.fld Reg.RST_LAST 0 4
  let s := (((s.reportX32.reportCox).reportPor last).reportWake last).reportSessions
  { s with power := { s.power with wakeSrc := 0, wakeBall := 0, sleptS := 0 }, cam := { s.cam with resetEasy := resetEasyCause last, svcAt := s.clock } }

/-- A mailbox request that arrived before Camlan ran waits for it (R378). -/
def State.mailboxStart (s : State) : State :=
  let s := s.setTag { s.tag with lastReq := s.ld (mbBase + 0x202) 2 }
  if s.ld (mbBase + 2) 2 = s.tag.lastReq then s else s.setTag { s.tag with request := some s.now }

/-- Camlan starts (R121, R360, R367, R376): a pending transition is completed at once and resets the part (R127). -/
def State.startCamlan (s : State) (build : Nat) : State :=
  let s : State := { s with power := { s.power with phase := .camlan } }
  let s := s.toPll.wrN Reg.SYS_CAMLAN (4 * 2 ^ 24 + 2 * 2 ^ 16 + build % 2 ^ 16)
  let cut := s.cutRefresh
  let s := (s.reportReset.tallyScan.refreshReport cut).shoreScan
  match s.nv.pendingLcs with
  | some (t, w) => s.finishTransition 0x0505 t w
  | none =>
    let s := (s.reportStart.configure.writeSlots s.inForce).beginVerify
    let s := s.setCrew { s.crew with st := if s.parS .crewEnable = 1 then cwListen else cwOff }
    ((s.mailboxStart.drainRx 0).drainRx 1)

/-- IMAGE_VERIFY (R115, R116, R121, R127): the start test ends first; then the image fault state, or Camlan's start. (DESIGN CHOICE, log entry 108) -/
def doImageVerify (s : State) (failed : Option ImageCheck) (build lcsBad : Nat) : State :=
  match s.power.phase with
  | .bootRom =>
    let s := s.lcsCopies lcsBad
    let s := if s.locked then s else s.startTestEnd
    if !s.locked then s
    else match failed with
      | some c => (s.setBit Reg.COX_STATUS 0 false).bootFault (.imageFault (imageCheckNo c))
      | none => s.startCamlan build
  | _ => s

/-! The stroke timer starts (R28, R32, R114, R128, R309, R392) -/

/-- The end of an image window and its tag area: a header of 4 KiB and one byte of tag for 32 of image (R389). -/
def State.windowEnd (s : State) (i : Nat) : Nat :=
  let n := s.rdN (Reg.PART_XIPSIZE i)
  if n = 0 then 0 else s.rdN (Reg.PART_XIPBASE i) + n + 4096 + n / 32

/-- The flash probe (R392): without an answer 0x1104 is logged and every configured partition is refused; past 16 MiB the address is 4 bytes. (DEDUCED, log entry 88) -/
def State.flashProbe (s : State) (jedec : Nat) : State :=
  let id := jedec % 2 ^ 24
  if id = 0 ∨ id = 0xFFFFFF then
    ((List.range 7).filter (fun i => s.partState (i + 1) = pVerifying)).foldl (fun s i => s.suspend (i + 1) 0x06) (s.logS 0x1104 (leBytes 3 id))
  else if (List.range 7).any (fun i => decide (0x1000000 < s.windowEnd i)) then s.setBit Reg.QP_CTRL 4 true
  else s

/-- RUN is written: period and heat take the values in force, the boot timer stops, the interval, the radio and, with link on a port, the enumeration begin (R32, R114, R128, R129, R191, Table 8-6). -/
def State.startTimer (s : State) (jedec : Nat) : State :=
  if !s.camlanOn || s.running || decide (s.cam.state ≠ .idle) then s
  else
    let p := (s.parN .strokePeriod).toNat
    let s := (s.setFld Reg.STK_CTRL 0 2 (if p = 2000 then 0 else if p = 5000 then 1 else if p = 20000 then 3 else 2)).setFld Reg.STK_CTRL 4 4 (s.parI .strokeHeat - 1)
    let s := s.setBit Reg.STK_CTRL 8 true
    let s : State := { s with power := { s.power with bootTimer := false }, cam := { s.cam with state := .stake, enumLimit := 2 * s.watchLen } }
    let s := (s.orReg Reg.CHN_CTRL 0xF).orReg Reg.TXT_CTRL 3
    let s := (s.setBit Reg.TWN_CTRL 0 true).startRadio
    let s := if s.bit Reg.CHN_RING 4 || s.bit Reg.CHN_RING 5 then s.startEnum false else s
    s.flashProbe jedec

def doStrokeTimerStart (s : State) (jedec : Nat) : State := s.startTimer jedec
def execStrokeTimerStart (jedec : Nat) (s : State) := done (doStrokeTimerStart s jedec)

/-- ARM_RUN (R309): with ARMRUN set the next captured reference starts the timer in hardware. -/
def doArmRun (s : State) (jedec : Nat) : State :=
  if s.bit (Reg.CAN_CTRL 1) 9 then (s.setBit (Reg.CAN_CTRL 1) 9 false).startTimer jedec else s
def execArmRun (jedec : Nat) (s : State) := done (doArmRun s jedec)

/-- CREW_LISTEN_END (R309): no reference was heard within crew.listen, and Camlan starts the timer itself. -/
def doCrewListenEnd (s : State) (jedec : Nat) : State :=
  if s.parS .crewEnable = 1 ∧ s.crew.heardRef = false ∧ s.bit (Reg.CAN_CTRL 1) 9 = false then s.startTimer jedec else s
def execCrewListenEnd (jedec : Nat) (s : State) := done (doCrewListenEnd s jedec)

/-! The end of the stake-boat interval (R129) -/

/-- The helm passes to `helm.default`, if it names a present source and the helm is free (R50). -/
def State.defaultHelm (s : State) : State :=
  let d := s.parS .helmDefault
  let s := if d = 1 ∨ d = 2 then { s with cam := { s.cam with helmPort := some (d - 1) } } else s
  if s.cam.helm.holder ≠ 0xFF then s
  else if d = 3 then
    (if s.crew.st = cwMember ∧ s.crew.locked ∧ s.crew.leader.isSome then s.setHelm ⟨0x18, 5, 0, s.strokeNo⟩ 4 else s)
  else if 4 ≤ d ∧ d ≤ 10 ∧ s.partState (d - 3) = pRunning then s.setHelm ⟨0x20 + (d - 3), partRank (d - 3), 0, s.strokeNo⟩ 4
  else s

/-- A confirmation field written while KSYS was absent is stamped at the catch that ends the interval (R375); an all-zero field is no confirmation. (DEDUCED, log entry 110) -/
def State.findConfirmation (s : State) : State :=
  let f := s.rdBytes 0x500007C0 16
  if f.all (fun b => decide (b = 0)) || decide (leNat (f.take 2) = s.ld (recBase + 0x18) 2) || s.tag.confAt.isSome then s
  else (s.wrN Reg.TAG_CONFSTAMP s.now).setTag { s.tag with confAt := some (s.now, s.strokeNo) }

/-- The causes of easy that stand at the end of the interval (R129, R416): the reset, `stop`, a failed self-test, the life cycle. -/
def State.intervalCauses (s : State) : List Nat :=
  s.cam.resetEasy ++ (if s.cam.stopped then [0x16] else []) ++ s.cam.selfTest
    ++ (if s.lcs = lcsBlank ∨ s.lcs = lcsRetired then [0x03] else [])

/-- STAKE_BOAT_END (R129): at the catch that begins the second watch. (DEDUCED, log entry 112) -/
def doStakeBoatEnd (s : State) : State :=
  if !s.camlanOn || decide (s.cam.state ≠ .stake) || !s.stk.started || decide (s.strokeNo < s.watchLen) then s
  else
    let s : State := { s with cam := { s.cam with state := if s.cam.easyCauses.isEmpty then .run else .easy } }
    let s := (((s.setBit (Reg.CAN_CTRL 0) 2 false).setBit (Reg.CAN_CTRL 2) 2 false).canCtrl 0).canCtrl 2
    let s := s.crewInterval.radioInterval
    let s := (s.readSet.filter (fun n => !(s.seat n).enumd)).foldl (fun s n => s.updSeat n (fun x => { x with lost := true })) s
    let s := (s.showSeats.applyAt .interval).startVerified
    let s := if s.bit Reg.KPA_STAT 16 then s else s.startSculls
    let s := s.defaultHelm.enableKpa.startPeriod.startHoming.findConfirmation
    let s := s.logS 0x0504 (u8 s.enumSeats.length ++ u8 (s.enumSeats.filter (fun n => (s.seat n).radioOk)).length
      ++ u32 s.rad.joins.length ++ u32 (s.fld Reg.RAD_JOINSTAT 16 16))
    let s := (s.easyMany s.intervalCauses).tallyOp (0x40 + s.fld Reg.RST_LAST 0 4)
    s.shore 0
def execStakeBoatEnd (s : State) := done (doStakeBoatEnd s)

def execWipeDone (durUs : Nat) (s : State) := done (doWipeDone s durUs)
def execImageVerify (failed : Option ImageCheck) (build lcsBad : Nat) (s : State) := done (doImageVerify s failed build lcsBad)

end Sys2Proof.Machine
end

