-- ==== Sys2Proof/Machine/Stroke.lean ====
section
/-!
DEFINITION. The stroke: its points, the finish, the crab, the catch and the watch, with all that Camlan and the hardware do at each (02; steps of file 95).
-/

namespace Sys2Proof.Machine

/-- The timer runs and has passed its first catch. -/
def State.rows (s : State) : Bool := s.powered && s.running && s.stk.started

/-! Points of the stroke (R26, Table 2-9) -/

/-- A stroke point raises its interrupt bit. -/
def State.reach (s : State) (percent b : Nat) : State := (s.atUs (max s.us (s.point percent))).setBit Reg.STK_IRQ b true

/-- GATHER_DEADLINE (R26, R216, R222). -/
def doGatherDeadline (s : State) : State :=
  if s.rows then (((s.reach 70 1).chainDeadline).radioQuiet) else s
def execGatherDeadline (s : State) := done (doGatherDeadline s)

/-- FINISH_DEADLINE (R26). -/
def doFinishDeadline (s : State) : State := if s.rows then s.reach 90 2 else s
def execFinishDeadline (s : State) := done (doFinishDeadline s)

/-- RECOVERY_TAIL (R26, R68). -/
def doRecoveryTail (s : State) : State := if s.rows then (s.reach 95 3).scrub else s
def execRecoveryTail (s : State) := done (doRecoveryTail s)

/-- STROKE_TRIM (R27, Table 2-9): a value beyond −64 or +63 µs saturates. -/
def doStrokeTrim (s : State) (v : Int) : State := s.setFld Reg.STK_TRIM 0 8 (clampInt (-64) 63 v % 256).toNat
def execStrokeTrim (v : Int) (s : State) := done (s.byRequester (doStrokeTrim s v))

/-- HEAT_RESTART (R35). -/
def doHeatRestart (s : State) : State := { s with stk := { s.stk with hrestart := true } }
def execHeatRestart (s : State) := done (s.byRequester (doHeatRestart s))

/-! The demand bank (R38, R39) -/

/-- AGREEMENT_DEMAND (R39): while BUSY a demand is lost. -/
def doAgreementDemand (s : State) (mask : Nat) : State :=
  if s.bit Reg.AGR_DSTAT 0 then s.setBit Reg.AGR_DSTAT 2 true
  else { s.setBit Reg.AGR_DSTAT 0 true with stk := { s.stk with demand := mask % 256 } }
def execAgreementDemand (mask : Nat) (s : State) := done (s.byRequester (doAgreementDemand s mask))

/-- What the agreement unit samples for a word of a bank: 0 FB, 1 SIN, 2 MDI, 3 flags, 6 to 8 HVS, 9 to 12 TMP, 13 the die (Table 2-10). -/
def State.sampled (s : State) (fb w : Nat) : Nat :=
  if w = 0 then s.fbBank fb
  else if w = 1 then s.rdN Reg.SIN_STAT
  else if w = 2 then s.mdi.lvl
  else if w = 3 then s.fld Reg.FCS_FLAGS 0 8 + s.fld Reg.KPA_STAT 8 8 * 2 ^ 8 + s.fld Reg.IMD_FLAGS 0 8 * 2 ^ 16
  else if 6 ≤ w ∧ w ≤ 8 then s.fld (Reg.HVS_CH (2 * (w - 6))) 16 16 + s.fld (Reg.HVS_CH (2 * (w - 6) + 1)) 16 16 * 2 ^ 16
  else if 9 ≤ w ∧ w ≤ 12 then s.fld (Reg.TMP_LT (2 * (w - 9))) 0 16 + s.fld (Reg.TMP_LT (2 * (w - 9) + 1)) 0 16 * 2 ^ 16
  else s.fld Reg.TMP_DIE 0 16

/-- The words of the demand bank that a group fills (Table 2-10): the three flag groups share word 3, a byte each. -/
def groupWords : Nat → List Nat
  | 0 => [0] | 1 => [1] | 2 => [2] | 6 => [6, 7, 8] | 7 => [9, 10, 11, 12, 13] | _ => []

/-- One group of a demand into the demand bank. -/
def State.demandGroup (s : State) (fb g : Nat) : State :=
  if 3 ≤ g ∧ g ≤ 5 then s.setFld (Reg.AGR_D_BANK 3) (8 * (g - 3)) 8 (s.sampled fb 3 / 2 ^ (8 * (g - 3)))
  else (groupWords g).foldl (fun s w => s.wrN (Reg.AGR_D_BANK w) (s.sampled fb w)) s

/-- DEMAND_DONE (R39): the masked groups are in the demand bank. -/
def doDemandDone (s : State) (us fb : Nat) : State :=
  if !s.bit Reg.AGR_DSTAT 0 then s
  else
    let s := s.atUs us
    let s := ((List.range 8).filter (fun g => s.stk.demand / 2 ^ g % 2 = 1)).foldl (fun s g => s.demandGroup fb g) s
    ((s.setBit Reg.AGR_DSTAT 0 false).setBit Reg.AGR_DSTAT 1 true).wrN Reg.AGR_DSTAMP s.now
def execDemandDone (us : Nat) (fb : Nat) (s : State) := done (doDemandDone s us fb)

/-! The crab (R53) -/

/-- A crab of the present stroke, counted once. -/
def State.crab (s : State) : State :=
  let n := satAdd (s.fld Reg.STK_STAT 4 2) 3 1
  let s := ((s.setBit Reg.STK_STAT 1 true).setFld Reg.STK_STAT 4 2 n).incSat Reg.STK_CRABCNT 0 16 1
  let s := if n = 2 then s.setBit Reg.STK_STAT 8 true else s
  { s with
    stk := { s.stk with permit := false, crabbed := true },
    cam := { s.cam with state := if s.camlanOn && decide (s.cam.state = .run) then .crab1 else s.cam.state, quietSince := none } }

/-- COX_CRAB (R31, R53): no clean finish by the deadline. -/
def doCoxCrab (s : State) : State :=
  if s.rows && !s.bit Reg.STK_STAT 0 && !s.stk.crabbed then s.crab else s
def execCoxCrab (s : State) := done (doCoxCrab s)

/-- EASY_AUTOCLEAR (R55): easy only for crabs, `easy.autoclear` seconds quiet, and fewer than `easy.autoclear_max` in 24 hours. -/
def doEasyAutoclear (s : State) : State :=
  let recent := within s.clock hours24 s.cam.autoclears
  let quiet := match s.cam.quietSince with
    | some t => decide (t + s.parI .easyAutoclear * 1000000 ≤ s.clock)
    | none => false
  if s.inEasy && s.cam.easyCauses.all (fun c => decide (c = 1)) && quiet && decide (s.parI .easyAutoclear ≠ 0) && decide (recent.length < s.parI .easyAutoclearMax) then
    let s := s.leaveEasy 1
    { s with cam := { s.cam with autoclears := recent ++ [s.clock] } }
  else s
def execEasyAutoclear (s : State) := done (doEasyAutoclear s)

/-! The finish (R31, R44; steps of FINISH) -/

/-- The sum of a string's cell voltages from data that is not blind [mV], none without such data (R173). (DEDUCED, log entry 106) -/
def State.cellSum (s : State) (i : Nat) : Option Nat :=
  let l := (s.strSeats i).filter (fun n => !(s.seat n).blind && decide ((s.seat n).cellV ≠ []))
  if l = [] then none else some ((l.flatMap (fun n => (s.seat n).cellV)).foldl (· + ·) 0 / 10)

/-- HVS_CELL_SUM_CHECK (R173) of one string that is open or closed. -/
def State.sumCheck (s : State) (i : Nat) : State :=
  if (s.str i).st ≠ 1 ∧ (s.str i).st ≠ 4 then s
  else match s.cellSum i with
    | none => s
    | some sum =>
      let v := s.volt i
      let lim : Int := max (s.parN .hvsXchk * (v : Int) / 100000) 5000
      let args (n : Nat) : List Byte := u8 i ++ u32 v ++ u32 sum ++ u8 n
      if lim < (((v : Int) - sum).natAbs : Int) then
        let s := s.setBit Reg.HVS_STAT (16 + i) true
        if getField s.meas.suspLogged i 1 = 1 then s
        else ({ s with meas := { s.meas with suspLogged := s.meas.suspLogged + 2 ^ i } }).logS 0x0705 (args 1)
      else if s.bit Reg.HVS_STAT (16 + i) then (s.setBit Reg.HVS_STAT (16 + i) false).logS 0x0705 (args 0)
      else s

/-- Words of an order's kind, target and outcome on a console (R334, DESIGN CHOICE, log entry 54). -/
def kindWord (k : Nat) : String := (["?", "open", "close", "derate", "raise", "take_helm", "release_helm"] : List String).getD k "?"
def targetWord (o : Order) : String :=
  if o.helmKind then "-"
  else if o.target < 4 then "string" ++ toString o.target
  else if o.target = tBattery then "battery"
  else if o.target = tMdi then "mdi"
  else (if o.target < 0x18 then "chg_" else "dis_") ++ (if o.target % 8 = 4 then "battery" else "string" ++ toString (o.target % 8))
def outcomeWord (c : Nat) : String := (["applied", "order_lost", "no_helm", "superseded", "refused_state", "invalid"] : List String).getD c "?"

/-- The reply line of an order (R334). -/
def State.orderLine (s : State) (x : Outcome) : String :=
  "order " ++ outcomeWord x.code ++ " kind=" ++ kindWord x.kind ++ " target=" ++ targetWord x.order ++ " stroke=" ++ toString x.order.stroke
    ++ (if x.code = 1 then " winner=" ++ hex0x x.winner ++ " wstamp=" ++ toString x.wstamp else "")
    ++ (if !x.order.helmKind && isLimit x.order.target then " value=" ++ fix3 (s.replyValue x) else "")

/-- The reply line of a surge request or a release (R335). -/
def surgeLine (x : SurgeOut) : String :=
  if x.req.kind = 2 then
    (if x.ticket = 0 then errLine 16 "cond=ticket" else "surge released ticket=" ++ toString x.ticket)
  else if x.result = 0 then "surge granted ticket=" ++ toString x.ticket ++ " power=" ++ toString x.req.power ++ " expiry=" ++ toString x.expiry
  else if x.result = 1 then "surge refused offer_p=" ++ toString x.offerP ++ " offer_t=" ++ toString x.offerT
  else if x.result = 2 then "surge no_helm"
  else if x.result = 3 then "surge invalid"
  else "surge refused_state"

/-- A reply goes to the console that asked. -/
def State.answer (s : State) (o : Origin) (t : String) : State :=
  match o with
  | .console p tag => s.say p tag [t]
  | _ => s

/-- The lines of `est save` (R342): 64 bytes each, then the reply's last line. -/
def saveLines : Nat → Nat → List Byte → List String
  | 0, _, _ => []
  | _, _, [] => []
  | n + 1, off, l => ("est off=" ++ toString off ++ " data=" ++ hexBytes (l.take 64)) :: saveLines n (off + 64) (l.drop 64)

/-- The saves awaited are answered with the record of this finish (R277, R342); without a seat there is none. -/
def State.answerSaves (s : State) : State :=
  if s.est.saves = [] then s
  else
    let rec_ := s.saveRecord
    let n := s.enumSeats.length
    let lines := if n = 0 then [errLine 12] else saveLines (rec_.length / 64 + 1) 0 rec_ ++ ["est saved seats=" ++ toString n ++ " bytes=" ++ toString rec_.length]
    let l := s.est.saves
    l.foldl (fun s e =>
      if e.1 < 2 then s.say e.1 e.2 lines else s.mailboxReply (e.2.getD "?") lines)
      (s.setEst { s.est with saves := [] })

/-- Enumeration is complete on both paths (R35, R191). -/
def State.enumComplete (s : State) : Bool :=
  s.chn.complete && (strokeLe s.cam.enumLimit s.strokeNo || (s.enumSeats.filter s.radioSeat).all (fun n => (s.seat n).radioOk))

/-- Camlan restarts the heat phase once, when enumeration is complete (R35). -/
def State.enumRestart (s : State) : State :=
  if s.rowing && !s.cam.enumDone && s.enumComplete then
    { s with stk := { s.stk with hrestart := true }, cam := { s.cam with enumDone := true } }
  else s

/-- The trim of a clean finish (R308); a crab writes none. -/
def State.finishTrim (s : State) (clean : Bool) : State :=
  if !clean then s.setCrew { s.crew with tPrev := 0 }
  else match s.crewTrim with
    | some t => (doStrokeTrim s t).setCrew { s.crew with tPrev := t }
    | none => s.setCrew { s.crew with tPrev := 0 }

/-- The skipped stroke of the pump test is asked for once, in the stake-boat interval, after ten clean finishes (R237). -/
def State.pumpSkipTest (s : State) : State :=
  if s.cam.state = .stake ∧ s.ctr.test = 0 ∧ 10 ≤ s.ctr.clean then { s with ctr := { s.ctr with skip := true, test := 1 } } else s

/-- Replies of the last resolution leave after the finish (R44, R334, R335). -/
def State.finishReplies (s : State) : State :=
  let outs := s.cam.waiting
  let sur := s.est.outs
  let s := outs.foldl (fun s x => s.answer x.order.origin (s.orderLine x)) { s with cam := { s.cam with waiting := [] } }
  let s := sur.foldl (fun s x => s.answer x.req.origin (surgeLine x)) (s.setEst { s.est with outs := [] })
  (s.pump 0).pump 1

/-- What Camlan does at its finish. -/
def State.camlanFinish (s : State) (clean : Bool) : State :=
  let s := s.pumpSkipTest.ageFinish
  let s := s.strings.foldl (fun s i => s.sumCheck i) s
  let s := s.strings.foldl (fun s i => s.restFinish i) s
  let old := s.est.warn
  let s := s.warnFinish
  let s := if s.est.warn = old then s else s.canaWarning old
  let s := s.limitsFinish.ticketFinish.answerSaves.enumRestart
  (s.finishTrim clean).publish.finishReplies

/-- A finish is clean: written at or before the deadline, in a stroke not yet a crab (R31). -/
def State.cleanAt (s : State) (us : Nat) : Bool := decide (us ≤ s.point 90) && !s.stk.crabbed

/-- A clean finish passes the permit and ends the run of crabs (R31, R54). -/
def State.cleanFinish (s : State) : State :=
  let s := (s.setBit Reg.STK_STAT 0 true).setFld Reg.STK_STAT 4 2 0
  { s with
    stk := { s.stk with permit := true }, ctr := { s.ctr with clean := s.ctr.clean + 1 },
    cam := { s.cam with state := if s.cam.state = .crab1 then .run else s.cam.state } }

/-- FINISH (R31, R114): every write clears the stall counter, the first one decides. (DEDUCED, log entry 105) -/
def doFinish (s : State) (us : Nat) : State :=
  if !s.rows then s
  else
    let s := (s.atUs us).setFld Reg.RST_STALL 0 6 0
    if s.stk.finWritten then s
    else
      let clean := s.cleanAt us
      let s : State := { s with stk := { s.stk with finWritten := true, finUs := some us } }
      let s := if clean then s.cleanFinish else s
      if s.camlanOn then s.camlanFinish clean else s
def execFinish (us : Nat) (s : State) := done (doFinish s us)

/-! The catch (R30; steps of CATCH) -/

/-- The stroke that ends: a crab where no finish made it clean, and the stall counter (R31, R114). -/
def State.endStroke (s : State) : State :=
  if !s.stk.started then s
  else
    let s := if s.bit Reg.STK_STAT 0 || s.stk.crabbed then s else s.crab
    if s.stk.finWritten then s else s.incSat Reg.RST_STALL 0 6 1

/-- The time base, the stroke number, heat phase and watch position at a catch (R28, R34, R35, R37), and the trim of the new stroke (R27). A trim and a restart of the heat written in a crabbed stroke are lost (R53), and Camlan writes the restart again (DEDUCED, log entry 129). -/
def State.catchTime (s : State) : State :=
  let first := !s.stk.started
  let len := if first then 0 else ((s.period : Int) + s.stk.trimNow).toNat
  let heat := s.heat
  let hph := if first || (s.stk.hrestart && !s.stk.crabbed) then 0 else (s.fld Reg.STK_POS 0 4 + 1) % heat
  let wph := if first then 0 else (s.fld Reg.STK_POS 16 9 + 1) % s.watchLen
  let num := if first then 0 else (s.strokeNo + 1) % 2 ^ 32
  let lost := s.stk.crabbed
  let trim := if lost then 0 else signed 8 (s.fld Reg.STK_TRIM 0 8)
  let s := ((s.wrN Reg.STK_NUM num).setFld Reg.STK_POS 0 4 hph).setFld Reg.STK_POS 16 9 wph
  let s := (((s.setFld Reg.STK_TRIM 0 8 0).atUs 0).setBit Reg.STK_IRQ 0 true).setBit Reg.STK_STAT 0 false
  { s with
    ao := { s.ao with us := s.ao.us + len },
    cam := { s.cam with enumDone := s.cam.enumDone && !(lost && s.stk.hrestart) },
    stk := { s.stk with
      started := true, base := if first then 0 else (s.stk.base + len) % 2 ^ 48, trimNow := trim,
      finWritten := false, finUs := none, prevCrab := s.stk.crabbed, crabbed := false, hrestart := false } }

/-- The catch bank (R38, Table 2-10). -/
def State.catchBank (s : State) (fb : Nat) : State :=
  let s := s.wrN Reg.AGR_CNUM s.strokeNo
  let s := ([0, 1, 2, 3, 6, 7, 8, 9, 10, 11, 12, 13] : List Nat).foldl (fun s w => s.wrN (Reg.AGR_C_FB + 4 * w) (s.sampled fb w)) s
  s

/-- What the keep-alive path measures (Table 6-9). -/
def State.kpaMeasure (s : State) (m : KpaMeas) : State :=
  let s := (s.wrN Reg.KPA_MEAS0 (m.kinMv % 65536 + m.kinMa % 65536 * 65536)).wrN Reg.KPA_MEAS1 (m.paMv % 65536 + m.ksysMv % 65536 * 65536)
  (s.wrN Reg.KPA_MEAS2 (m.kbatMv % 65536 + (m.kbatMa % 65536).toNat * 65536)).setKpa { s.kpa with drawMw := m.drawMw }

/-- What the pump and the insulation monitor show at a catch (Tables 10-9 and 11-6): gate and rail good, a low gate while fed. -/
def State.catchSense (s : State) (inp : CatchIn) : State :=
  let s := ((s.wrN Reg.IMD_CODE (Config.freeOf 996 s.strokeNo % 65536)).wrN Reg.IMD_MEAN inp.imdMean).wrN Reg.PUMP_VGS (min inp.vgsMv 16383 + min inp.rail 4095 * 2 ^ 16)
  let s := (s.setBit Reg.PUMP_STAT 1 (decide (8000 ≤ inp.vgsMv))).setBit Reg.PUMP_STAT 2 (decide (900 ≤ inp.rail))
  let s := if s.bit Reg.PUMP_STAT 0 && decide (inp.vgsMv < 8000) then s.setBit Reg.PUMP_IRQ 1 true else s
  s.kpaMeasure inp.kpa

/-- A winner governs its target from this catch (R44, R249, R257). -/
def State.applyWinner (s : State) (w : Nat × Order) : State :=
  if w.1 < 4 then s.winString w.1 w.2.kind
  else if w.1 = tPre then s.winPre w.2.kind
  else if w.1 = tMdi then s.winMdi w.2.kind
  else if isLimit w.1 then s.setStanding w.1 w.2.value
  else s

/-- An outcome that goes to a console (R334). -/
def Outcome.toConsole (x : Outcome) : Bool := match x.order.origin with | .console _ _ => true | _ => false

/-- The order set of the ended stroke is resolved, and its surge requests with it (R44, R51, R52, R99, R284, R288, R315, R316). -/
def State.resolve (s : State) (orders : List Order) : State :=
  let before := s.cam.helm.holder
  let s := if s.tally.bad && orders.any (fun o => decide (o.kind = kClose)) then s.tallyDeny else s
  let judge := s
  let r := s.resolveSet orders
  let s := r.winners.foldl State.applyWinner r.state
  let s := r.outcomes.foldl State.logOutcome s
  let s := if r.outcomes.any (fun x => decide (x.code = 0) && judge.closingOrder x.order) || decide (s.est.reqs ≠ []) then s.hibCancel else s
  let known := s.est.outs.length
  let s := s.surgeResolve
  let s := ((List.range 7).map (· + 1)).foldl (fun s k => s.writeReplies r.outcomes k) s
  let s : State := { s with cam := { s.cam with outcomes := r.outcomes, waiting := s.cam.waiting ++ r.outcomes.filter Outcome.toConsole } }
  (s.crewReplies r.outcomes (s.est.outs.drop known)).mirror r.outcomes before s.cam.helm.holder

/-- The quiet time of R55: every contactor open and no crab in the ended stroke. -/
def State.quietCatch (s : State) : State :=
  let q := if s.allOpen && !s.stk.prevCrab then (match s.cam.quietSince with | some t => some t | none => some s.clock) else none
  { s with cam := { s.cam with quietSince := q } }

/-- The slots of a new confirmed configuration are written into the inactive bank (R86, R340). -/
def State.slotsCatch (s : State) : State :=
  if ((List.range 7).map (· + 1)).any (fun k => decide (Settings.get s.nv.confirmed ⟨.partSlots, k⟩ ≠ s.par .partSlots k)) && !s.stk.swapReq then
    s.writeSlots s.nv.confirmed
  else s

/-- The restore record is applied and answered (R279, R342). -/
def State.restoreAnswer (s : State) : State :=
  match s.est.restore with
  | some r => s.restoreCatch.restoreReply r
  | none => s

/-- Camlan's first acts at a catch: the crab of the ended stroke, EASYREQ, and the bank it has just read (R53, R54). -/
def State.camlanFirst (s : State) (crabNo : Nat) (finUs : Option Nat) (inp : CatchIn) : State :=
  let s : State := { s with tally := { s.tally with bad := !inp.tallyOk, failed := false } }
  let s := if s.stk.prevCrab then (s.logS 0x0201 (u32 crabNo ++ u16 (finUs.getD 0xFFFF))).tallyOp 0x51 else s
  if s.bit Reg.STK_STAT 8 then (s.setBit Reg.STK_STAT 8 false).easy 0x01 else s

/-- What Camlan reads out of the catch bank before it resolves: counts, contacts, checks, protection. -/
def State.camlanReads (s : State) (first : Bool) (skipped : Bool) (inp : CatchIn) : State :=
  let s := s.countStroke
  let s := (s.strings.foldl (fun s i => s.strCatch i) s).stepsCatch.kbatCount
  let s := s.shortCircuit.sinCatch
  let s := (List.range 12).foldl (fun s c => s.catchContact c) s
  let s := s.strings.foldl (fun s i => s.catchDrop i) s
  let s := (s.motorMeas inp.motorMa).pumpTest inp.vgsMv skipped
  let s := if first then s else s.crossCheck
  let s := s.satCheck.ntcCheck
  if first then s.heatStart else s.heatCatch

/-- What Camlan decides after the resolution: strings, isolator, partitions, and the housekeeping of the catch. -/
def State.camlanDecides (s : State) : State :=
  let s := s.strings.foldl (fun s i => s.strStep i) s
  let s := s.mdiCatch.catchDefer.kinRelease.blackCatch
  let s := (List.range 12).foldl (fun s c => s.weldCatch c) s
  let s := s.startVerified.sweep.keyCatch.sessionCatch
  let s := s.resubmit.restoreAnswer.idleCatch
  let s := if s.cam.svcBlocked || s.serviceDue then s.shoreCatch.serviceReturn else s.shoreCatch
  s.applyConfirmed.slotsCatch.quietCatch

/-- An entry wanted in this stroke failed its verification three times (R363). -/
def State.tallyJudge (s : State) : State := if s.tally.failed then s.tallyFailed else s

/-- The acts of the catch end: what was gathered and kept is written, one entry for each counter (R362, R363). -/
def State.actsEnd (s : State) : State := { s.tallyFlush with acts := .idle }

/-- Camlan at a catch: the resolution only where the ended stroke was no crab (R53); causes of easy found before it and those found after it each take effect in ascending order (R416). -/
def State.camlanCatch (s : State) (first skipped : Bool) (crabNo : Nat) (finUs : Option Nat) (inp : CatchIn) : State :=
  let set_ := s.cam.orders
  let s : State := if s.stk.prevCrab then s else { s with cam := { s.cam with orders := [] } }
  let s := ((s.findCauses.camlanFirst crabNo finUs inp).camlanReads first skipped inp).takeCauses
  let s := if first then limitTargets.foldl (fun s t => s.setStanding t (s.targetMax t)) (s.setEst { s.est with runStart := s.strokeNo }) else s
  let s := if s.stk.prevCrab then s else s.resolve set_
  let s := s.findCauses.camlanDecides.tallyJudge.takeCauses.actsEnd
  (((s.drainRx 0).drainRx 1).pump 0).pump 1

/-- The hardware at a catch (R12, R30, R161, R184, R207, R308): snapshot, outputs of a clean stroke, the feed of the new one, the broadcast. -/
def State.hardwareCatch (s : State) (first : Bool) : State :=
  let old := s.meas.snap
  let s := ((s.snapshot s.period).noteSnap old).fcsLatch
  let s := ((List.range 7).map (· + 1)).foldl (fun s k => s.setPart k { s.part k with bell := none }) s
  let s : State := { s with ctr := { s.ctr with preWas := s.preOn || s.ctr.preFell, preFell := false } }
  let s := if first || s.stk.prevCrab || s.power.faultReset.isSome then s else s.catchOutputs.mdiOutput.catchImd
  let s := (s.feedStroke s.stk.permit).chainCatch.canCatch
  s.radioCatch.crewCatch

/-- CATCH (R30). -/
def doCatch (s : State) (inp : CatchIn) : State :=
  if !(s.powered && s.running) then s
  else
    let first := !s.stk.started
    let crabNo := s.strokeNo
    let finUs := s.stk.finUs
    let skipped := s.ctr.skip
    let s := s.endStroke.catchTime
    let s := ((s.catchBank inp.fb).catchSense inp).hardwareCatch first
    if s.camlanOn then s.camlanCatch first skipped crabNo finUs inp else s
def execCatchPoint (inp : CatchIn) (s : State) := done (doCatch s inp)

/-! The watch (R37; steps of WATCH) -/

/-- Powered time and the die temperature's band (Table 15-6). -/
def State.lifeWatch (s : State) : State :=
  let t := signed 16 (s.fld Reg.AGR_C_DIE 0 16)
  let band := if t < 6000 then 3 else if t < 8500 then 4 else if t < 9500 then 5 else if t < 10500 then 6 else 7
  (s.runFor 1).tallyAcc band 1

/-- A counter with its sum not yet committed. -/
def State.tallyTotal (s : State) (id : Nat) : Nat := s.tallyVal id + Tab.get 0 s.tally.acc id

/-- The mission profile (R412): at the start of a day of `run_s` beyond 30 days, the share at 95 °C or more and the mean die temperature from the band midpoints, at most once in 30 days. (DEDUCED, log entry 109) -/
def State.profileWatch (s : State) : State :=
  let run := s.tallyTotal 1
  let month := 30 * 86400
  if run % 86400 ≠ 0 ∨ run ≤ month then s
  else
    let n := (List.range 5).map (fun i => s.tallyTotal (3 + i))
    let hot := s.tallyTotal 6 + s.tallyTotal 7
    let share := (s.tallyTotal 6 + s.tallyTotal 7) * 1000 / run
    let mids : List Int := [(Config.freeOf 993 0 : Int), 7250, 9000, 10000, (Config.freeOf 993 1 : Int)]
    let sum : Int := (n.zip mids).foldl (fun (a : Int) (e : Nat × Int) => a + (e.1 : Int) * e.2) 0
    let mean : Int := roundDiv sum run
    let recent : Bool := match s.nv.profileAt with | some t => decide (run < t + month) | none => false
    if (run < 10 * hot ∨ 6000 * (run : Int) < sum) ∧ ¬ recent = true then
      ({ s with nv := { s.nv with profileAt := some run } }).logS 0x1305 (u32 share ++ s16 mean)
    else s

/-- What Camlan does once per watch. -/
def State.camlanWatch (s : State) : State :=
  let s := s.imdWatch.blackWatch
  let s := s.estWatch.crewWatch
  let s := (s.applyAt .watch).lifeWatch.profileWatch
  let s := s.lineErrorsWatch
  { s with cam := { s.cam with corrected := 0, svcLogged := false }, meas := { s.meas with suspLogged := 0, satLogged := false, satCount := 0 } }

/-- WATCH (R37): at a catch at which WPH is 0. -/
def doWatch (s : State) : State :=
  if !(s.rows && decide (s.fld Reg.STK_POS 16 9 = 0) && decide (s.us = 0)) then s
  else
    let s := (s.setBit Reg.STK_IRQ 4 true).canWatch.chop
    let s := s.swapBanks.chargeWatch
    let s := s.logWatch
    if s.camlanOn then s.chainWatch.hopWatch.camlanWatch else s
def execWatch (s : State) := done (doWatch s)

end Sys2Proof.Machine
end

