-- ==== Sys2Proof/Machine/DebugBus.lean ====
section
/-!
DEFINITION. The program buffer (R74, R76): what an instruction of it reaches with P0's rights (Table 1-5), the registers whose write or read has a row of its own among them.
-/

namespace Sys2Proof.Machine

/-- The effects a store of P0 has in the rows of the table, for the blocks of the core: STK, AGR, COX, RST, LCS, PART. -/
def State.storeCore (s : State) (a : Nat) (w : Word) : State :=
  let v := w.toNat
  let b (i : Nat) : Bool := decide (getField v i 1 = 1)
  if a = Reg.STK_FIN then (if b 0 then doFinish s s.us else s)
  else if a = Reg.STK_TRIM then doStrokeTrim s (signed 8 v)
  else if a = Reg.STK_HCTRL then (if b 0 then doHeatRestart s else s)
  else if a = Reg.AGR_DEMAND then doAgreementDemand s (v % 256)
  else if a = Reg.COX_CTRL then doMismatchResetInhibit (if b 0 then doCoxLock s else s) (b 1)
  else if a = Reg.COX_PERMIT then (if b 0 then doPermitArm s else s)
  else if a = Reg.COX_MMINFO then (if b 16 then doMismatchAck s else s)
  else if a = Reg.COX_INJ then
    let g := getField v 0 5
    let s := if b 8 then doInjectDifference s g (2 ^ g) else s
    if b 9 then doInjectClear s else s
  else if a = Reg.RST_SOFT then doSoftReset s w
  else if a = Reg.RST_BOOT then (if b 0 then doBootHold s else s)
  else if a = Reg.LCS_REQ then doLcsRequest s w
  else if a = Reg.PART_CTRL then
    let s := doScullEnable s (v % 16)
    if b 8 then doSlotSwapRequest s else s
  else if a = Reg.PART_EVSET then doEventSet s w
  else
    let k := (a - Reg.PART_QBASE 0) / 256 + 1
    [GrantReg.arx0, .arx1, .atx, .crx0, .crx1, .ctx, .gpio, .misc].foldl (fun s r => if 1 ≤ k ∧ k ≤ 7 ∧ a = grantAddr k r then doGrantWrite s k r w else s) s

/-- The same for the keepalive, the converters, the chain, the radio and the contactors. -/
def State.storeUnits (s : State) (a : Nat) (w : Word) : State :=
  let v := w.toNat
  let b (i : Nat) : Bool := decide (getField v i 1 = 1)
  if a = Reg.KPA_CTRL then
    let s := if b 8 then doChargerStop s else s
    let s := if b 9 then doChargerStart s else s
    let s := if b 10 then doVocNow s else s
    let s := if b 11 then doChargerClear s else s
    if b 12 then doAuxClear s else s
  else if a = Reg.KPA_SHIP then doShipEnter s w
  else if a = Reg.FCS_CTRL then
    let s := if b 2 then doCaptureArm s else s
    if b 3 then doCaptureTrigger s else s
  else if a = Reg.FCS_TEST then (if b 0 then doFcsSelfTest s else s)
  else if a = Reg.HVS_CTRL then (if getField v 16 6 = 0 then s else doHvsTest s (getField v 16 6))
  else if a = Reg.CHN_SUBMIT then doChainSubmit s (getField v 0 15) (getField v 16 2)
  else if a = Reg.RAD_SUBMIT then doRadioSubmit s (getField v 0 15) (getField v 16 2)
  else if a = Reg.RAD_CALCTRL then (if b 0 then doCalibrateNow s else s)
  else if a = Reg.RAD_GRANT then doGrantQueue s (getField v 0 8)
  else if a = Reg.PUMP_CTRL then
    let s := if b 1 then doPumpSkip s else s
    if b 2 then doSnapTest s else s
  else if a = Reg.MDI_CTRL then
    let s := if b 4 then doMdiGo s (b 5) else s
    if b 6 then doMdiStop s else s
  else s

/-- The same for the CAN controllers. -/
def State.storeCan (s : State) (a : Nat) (w : Word) : State :=
  [CanId.a, .b, .c].foldl (fun s x =>
    let n := canIdx x
    if a = Reg.CAN_WSEL n then doWindowSelect s .cox x w
    else if a = Reg.CAN_WCOMMIT n then (if getField w.toNat 0 1 = 1 then doWindowCommit s .cox x else s)
    else if a = Reg.CAN_TXREQ n then doTxRequest s .cox x w s.us
    else if a = Reg.CAN_TXABORT n then doTxAbort s .cox x w
    else s) s

/-- The same for the logbook, the eflash controller, the tag, the Q-port, the pins and SEC. -/
def State.storeLast (s : State) (a : Nat) (w : Word) : State :=
  let v := w.toNat
  let b (i : Nat) : Bool := decide (getField v i 1 = 1)
  if a = Reg.LOG_SUBGO then (if b 0 then doLogSubmit s .cox else s)
  else if a = Reg.LOG_CURSEQ then doLogCursorLoad s .cox w
  else if a = Reg.LOG_RELEASE then (if b 0 then doLogBookRelease s .cox (getField v 4 4) else s)
  else if a = Reg.EFC_CMD then
    (if !b 4 then s
     else match getField v 0 2 with
      | 0 => doEfcProgram s .cox (getField v 16 16)
      | 1 => doEfcErase s .cox (getField v 16 16)
      | 2 => doEfcTolerantRead s .cox 0 0
      | _ => s)
  else if a = Reg.TAG_CTRL then (if b 1 then doTagFlush s else s)
  else if a = Reg.TAG_MBSEM then
    let s := if b 4 then doTagSemaphoreTake s else s
    if b 5 then doTagSemaphoreRelease s else s
  else if a = Reg.TAG_WIPE then doTagWipe s w
  else if a = Reg.QP_CTRL then (if b 8 then doXipInvalidate s else s)
  else if a = Reg.GPIO_SET then doGpioSet s .cox w
  else if a = Reg.GPIO_CLR then doGpioClr s .cox w
  else if a = Reg.SEC_GO then (if b 0 then s.secStart (s.fld Reg.SEC_OP 0 3) else s)
  else if a = Reg.SEC_KEYLOAD then
    (if getField v 16 16 ≠ 0x4B59 then s else if b 8 then doSecKeyGenerate s (getField v 0 8) else doSecKeyLoad s (getField v 0 8))
  else (List.range 4).foldl (fun s n => if a = Reg.QP_Q_PUSH n ∧ b 0 = true then doQpPush s .cox n else s) s

/-- A word as P0 writes it: the plain fields, then what the rows of the table give the register's other bits. -/
def State.coxStore (s : State) (a : Nat) (w : Word) : State :=
  if !mapped a || readOnly a then s.coxBusError true a
  else if inPeriph a then
    let s := doRegisterWrite s .cox a w
    if decide (a % 4 ≠ 0) then s else (((s.storeCore a w).storeUnits a w).storeCan a w).storeLast a w
  else if 0x50000000 ≤ a then doTagHostStore s a (u32 w.toNat)
  else s.st a 4 w.toNat

/-- What a load of P0 does before the register answers: the reads that have a row of their own. -/
def State.loadRow (s : State) (a : Nat) : State :=
  if a = Reg.STK_TIMEL then doStrokeTimeRead s .cox s.us
  else if a = Reg.CCA_ACCL then doCcaLiveRead s
  else if a = Reg.FCS_CAPDATA then doCaptureRead s
  else if a = Reg.SEC_RAND then doSecRandomRead s
  else s

/-- A word as P0 reads it: a register, a memory, the tag with its mailbox for the holder of the semaphore (R371), or what the manual gives no content for: boot ROM, external flash and a mailbox that another side holds (DESIGN CHOICE, log entry 1). -/
def State.coxLoad (s : State) (a : Nat) : State :=
  let give (n : Nat) (s : State) : State := { s with dbg := { s.dbg with data := n } }
  if !mapped a then s.coxBusError false a
  else if inPeriph a then
    let s := doReadClear (s.loadRow a) .cox a false
    let s := give s.rdata.toNat s
    if a = Reg.LOG_WIN 7 then doLogWindowAdvance s .cox else s
  else if 0x50000000 ≤ a then
    (if inMailbox (a - tagBase) && s.tag.owner != 2 then give (Config.freeOf 992 a % 2 ^ 32) s
     else give (leNat ((List.range 4).map (fun i => s.tagByte (a - tagBase + i)))) s)
  else if inMem a then give (s.ld a 4) s
  else give (Config.freeOf 990 a % 2 ^ 32) s

/-- DEBUG_PROGRAM_BUFFER (R74, R76): the 8 words of the buffer, and the access with P0's rights that its instructions make. (DESIGN CHOICE, log entry 62) -/
def doDebugProgramBuffer (s : State) (words : List Word) (acc : BusAccess) : State :=
  if !s.halted then s
  else
    let s : State := { s with dbg := { s.dbg with progbuf := (words ++ List.replicate 8 0).take 8, exception := false } }
    match acc.write with
    | some w => s.coxStore acc.addr w
    | none => s.coxLoad acc.addr

def execDebugProgramBuffer (words : List Word) (acc : BusAccess) (s : State) := done (doDebugProgramBuffer s words acc)

end Sys2Proof.Machine
end

