-- ==== Sys2Proof/Machine/Dispatch.lean ====
section
/-!
DEFINITION. One arm per command: a direct call of its meaning.
-/

namespace Sys2Proof.Machine

/-- The effect of a command on everything but the queue. -/
def exec (i : Instr) (s : State) : Host.Outcome State Fault Refusal :=
  match i with
  | .registerWrite rq addr value => Sys2Proof.Machine.execRegisterWrite rq addr value s
  | .readClear rq addr aborted => Sys2Proof.Machine.execReadClear rq addr aborted s
  | .busError rq user write addr => Sys2Proof.Machine.execBusError rq user write addr s
  | .strokeTimerStart jedec => Sys2Proof.Machine.execStrokeTimerStart jedec s
  | .catchPoint inp => Sys2Proof.Machine.execCatchPoint inp s
  | .gatherDeadline => Sys2Proof.Machine.execGatherDeadline s
  | .finish us => Sys2Proof.Machine.execFinish us s
  | .coxCrab => Sys2Proof.Machine.execCoxCrab s
  | .easyAutoclear => Sys2Proof.Machine.execEasyAutoclear s
  | .recoveryTail => Sys2Proof.Machine.execRecoveryTail s
  | .watch => Sys2Proof.Machine.execWatch s
  | .strokeTrim v => Sys2Proof.Machine.execStrokeTrim v s
  | .heatRestart => Sys2Proof.Machine.execHeatRestart s
  | .agreementDemand mask => Sys2Proof.Machine.execAgreementDemand mask s
  | .demandDone us fb => Sys2Proof.Machine.execDemandDone us fb s
  | .interruptLineChange line level => Sys2Proof.Machine.execInterruptLineChange line level s
  | .tenantCrabLimit k => Sys2Proof.Machine.execTenantCrabLimit k s
  | .lockstepMismatch groups pc => Sys2Proof.Machine.execLockstepMismatch groups pc s
  | .lockstepReset => Sys2Proof.Machine.execLockstepReset s
  | .eccCorrected rq addr data check => Sys2Proof.Machine.execEccCorrected rq addr data check s
  | .eccFatal addr data check pc => Sys2Proof.Machine.execEccFatal addr data check pc s
  | .eccFatalReset => Sys2Proof.Machine.execEccFatalReset s
  | .eccCorrLimit => Sys2Proof.Machine.execEccCorrLimit s
  | .injectDifference group det => Sys2Proof.Machine.execInjectDifference group det s
  | .injectClear => Sys2Proof.Machine.execInjectClear s
  | .coxLock => Sys2Proof.Machine.execCoxLock s
  | .permitArm => Sys2Proof.Machine.execPermitArm s
  | .mismatchAck => Sys2Proof.Machine.execMismatchAck s
  | .mismatchResetInhibit value => Sys2Proof.Machine.execMismatchResetInhibit value s
  | .resetPin lowUs => Sys2Proof.Machine.execResetPin lowUs s
  | .porAssert => Sys2Proof.Machine.execPorAssert s
  | .porRelease => Sys2Proof.Machine.execPorRelease s
  | .softReset value => Sys2Proof.Machine.execSoftReset value s
  | .resetAssert cause => Sys2Proof.Machine.execResetAssert cause s
  | .resetRelease => Sys2Proof.Machine.execResetRelease s
  | .wipeDone durUs => Sys2Proof.Machine.execWipeDone durUs s
  | .crystalStartFail => Sys2Proof.Machine.execCrystalStartFail s
  | .imageVerify failed build lcsBad => Sys2Proof.Machine.execImageVerify failed build lcsBad s
  | .stallReset => Sys2Proof.Machine.execStallReset s
  | .bootTimerExpire => Sys2Proof.Machine.execBootTimerExpire s
  | .bootHold => Sys2Proof.Machine.execBootHold s
  | .clockLoss => Sys2Proof.Machine.execClockLoss s
  | .x32Loss => Sys2Proof.Machine.execX32Loss s
  | .stakeBoatEnd => Sys2Proof.Machine.execStakeBoatEnd s
  | .shorePeriodic => Sys2Proof.Machine.execShorePeriodic s
  | .shoreGapEnd => Sys2Proof.Machine.execShoreGapEnd s
  | .lcsRequest value => Sys2Proof.Machine.execLcsRequest value s
  | .lcsTransitionComplete => Sys2Proof.Machine.execLcsTransitionComplete s
  | .serviceTimeout => Sys2Proof.Machine.execServiceTimeout s
  | .monitorYield sc => Sys2Proof.Machine.execMonitorYield sc s
  | .monitorWait sc mask => Sys2Proof.Machine.execMonitorWait sc mask s
  | .monitorSetvec sc handler mask => Sys2Proof.Machine.execMonitorSetvec sc handler mask s
  | .monitorEvret sc => Sys2Proof.Machine.execMonitorEvret sc s
  | .monitorInfo sc us => Sys2Proof.Machine.execMonitorInfo sc us s
  | .monitorLog sc code sev a2 a3 => Sys2Proof.Machine.execMonitorLog sc code sev a2 a3 s
  | .monitorUnknownCall sc call => Sys2Proof.Machine.execMonitorUnknownCall sc call s
  | .eventDelivery sc => Sys2Proof.Machine.execEventDelivery sc s
  | .eventSet value => Sys2Proof.Machine.execEventSet value s
  | .slotStart sc idx => Sys2Proof.Machine.execSlotStart sc idx s
  | .slotEnd sc => Sys2Proof.Machine.execSlotEnd sc s
  | .slotSwapRequest => Sys2Proof.Machine.execSlotSwapRequest s
  | .scullEnable mask => Sys2Proof.Machine.execScullEnable mask s
  | .grantWrite k reg value => Sys2Proof.Machine.execGrantWrite k reg value s
  | .partitionFault sc why => Sys2Proof.Machine.execPartitionFault sc why s
  | .scullFault sc mcause => Sys2Proof.Machine.execScullFault sc mcause s
  | .doorbell k value us => Sys2Proof.Machine.execDoorbell k value us s
  | .doorbellCopyDone k => Sys2Proof.Machine.execDoorbellCopyDone k s
  | .tenantImageVerify k image header => Sys2Proof.Machine.execTenantImageVerify k image header s
  | .autoResume k => Sys2Proof.Machine.execAutoResume k s
  | .sourceDisqualify src mv => Sys2Proof.Machine.execSourceDisqualify src mv s
  | .sourceQualify src mv => Sys2Proof.Machine.execSourceQualify src mv s
  | .mpptStep rose => Sys2Proof.Machine.execMpptStep rose s
  | .vocCheck => Sys2Proof.Machine.execVocCheck s
  | .vocNow => Sys2Proof.Machine.execVocNow s
  | .vocWindowEnd vocMv => Sys2Proof.Machine.execVocWindowEnd vocMv s
  | .blackStartQualify kinMv => Sys2Proof.Machine.execBlackStartQualify kinMv s
  | .blackStartSculls => Sys2Proof.Machine.execBlackStartSculls s
  | .kbatInserted kthCode kidOhm10 kbatMv => Sys2Proof.Machine.execKbatInserted kthCode kidOhm10 kbatMv s
  | .kbatMissing => Sys2Proof.Machine.execKbatMissing s
  | .kbatShortProbeEnd kbatMv => Sys2Proof.Machine.execKbatShortProbeEnd kbatMv s
  | .chargePhaseLevel kbatMv => Sys2Proof.Machine.execChargePhaseLevel kbatMv s
  | .chargeTimerExpire => Sys2Proof.Machine.execChargeTimerExpire s
  | .chargeTaperEnd => Sys2Proof.Machine.execChargeTaperEnd s
  | .nimhDeltaV => Sys2Proof.Machine.execNimhDeltaV s
  | .nimhDtdt => Sys2Proof.Machine.execNimhDtdt s
  | .chargeZoneChange kthCenti kbatMv => Sys2Proof.Machine.execChargeZoneChange kthCenti kbatMv s
  | .chargeHeadroom kvinMv kbatMv => Sys2Proof.Machine.execChargeHeadroom kvinMv kbatMv s
  | .chargeOvervoltage => Sys2Proof.Machine.execChargeOvervoltage s
  | .chargeOvCheck present => Sys2Proof.Machine.execChargeOvCheck present s
  | .chargeRecharge => Sys2Proof.Machine.execChargeRecharge s
  | .chargeSourceLost => Sys2Proof.Machine.execChargeSourceLost s
  | .chargerStop => Sys2Proof.Machine.execChargerStop s
  | .chargerStart => Sys2Proof.Machine.execChargerStart s
  | .chargerClear => Sys2Proof.Machine.execChargerClear s
  | .auxClear => Sys2Proof.Machine.execAuxClear s
  | .shipEnter value => Sys2Proof.Machine.execShipEnter value s
  | .shipWake => Sys2Proof.Machine.execShipWake s
  | .kbtnLongPress => Sys2Proof.Machine.execKbtnLongPress s
  | .kbtnPress => Sys2Proof.Machine.execKbtnPress s
  | .auxFault => Sys2Proof.Machine.execAuxFault s
  | .auxRetry => Sys2Proof.Machine.execAuxRetry s
  | .auxSoftstartTimeout => Sys2Proof.Machine.execAuxSoftstartTimeout s
  | .auxChargerEnd => Sys2Proof.Machine.execAuxChargerEnd s
  | .auxProbe secondaryMv => Sys2Proof.Machine.execAuxProbe secondaryMv s
  | .ccaInterval sampleNv durNs => Sys2Proof.Machine.execCcaInterval sampleNv durNs s
  | .ccaLiveRead => Sys2Proof.Machine.execCcaLiveRead s
  | .strokeTimeRead rq us => Sys2Proof.Machine.execStrokeTimeRead rq us s
  | .currentWake => Sys2Proof.Machine.execCurrentWake s
  | .ocsTrip us nv => Sys2Proof.Machine.execOcsTrip us nv s
  | .bkiTrip nv => Sys2Proof.Machine.execBkiTrip nv s
  | .bkiRelease nv => Sys2Proof.Machine.execBkiRelease nv s
  | .captureTrigger => Sys2Proof.Machine.execCaptureTrigger s
  | .captureArm => Sys2Proof.Machine.execCaptureArm s
  | .captureRead => Sys2Proof.Machine.execCaptureRead s
  | .fcsSelfTest => Sys2Proof.Machine.execFcsSelfTest s
  | .fcsSelfTestEnd ocs bki meanCode => Sys2Proof.Machine.execFcsSelfTestEnd ocs bki meanCode s
  | .hvsTest mask => Sys2Proof.Machine.execHvsTest mask s
  | .hvsTestEnd fullScale => Sys2Proof.Machine.execHvsTestEnd fullScale s
  | .linkLoss port => Sys2Proof.Machine.execLinkLoss port s
  | .linkRegain port => Sys2Proof.Machine.execLinkRegain port s
  | .enumTimeout echoA echoB => Sys2Proof.Machine.execEnumTimeout echoA echoB s
  | .sampleReadsStart => Sys2Proof.Machine.execSampleReadsStart s
  | .chainResponse dir raw us => Sys2Proof.Machine.execChainResponse dir raw us s
  | .chainTimeout dir us => Sys2Proof.Machine.execChainTimeout dir us s
  | .catchEcho dir good sameEnd latency10ns => Sys2Proof.Machine.execCatchEcho dir good sameEnd latency10ns s
  | .ringSplit armaLast armbLast => Sys2Proof.Machine.execRingSplit armaLast armbLast s
  | .ringHeal => Sys2Proof.Machine.execRingHeal s
  | .seatLost seat => Sys2Proof.Machine.execSeatLost seat s
  | .chainSubmit tag cls => Sys2Proof.Machine.execChainSubmit tag cls s
  | .radioRetune => Sys2Proof.Machine.execRadioRetune s
  | .beacon => Sys2Proof.Machine.execBeacon s
  | .radioSlot slot => Sys2Proof.Machine.execRadioSlot slot s
  | .radioResponse air us => Sys2Proof.Machine.execRadioResponse air us s
  | .radioTimeout us => Sys2Proof.Machine.execRadioTimeout us s
  | .lockLoss => Sys2Proof.Machine.execLockLoss s
  | .lockTimeout => Sys2Proof.Machine.execLockTimeout s
  | .slotForfeit slot lockDelayUs => Sys2Proof.Machine.execSlotForfeit slot lockDelayUs s
  | .calibrateNow => Sys2Proof.Machine.execCalibrateNow s
  | .joinRequest air => Sys2Proof.Machine.execJoinRequest air s
  | .grantQueue seat => Sys2Proof.Machine.execGrantQueue seat s
  | .radioSubmit tag cls => Sys2Proof.Machine.execRadioSubmit tag cls s
  | .channelQuarantineEnd ch => Sys2Proof.Machine.execChannelQuarantineEnd ch s
  | .seatFaulty seat => Sys2Proof.Machine.execSeatFaulty seat s
  | .oneBlade seat => Sys2Proof.Machine.execOneBlade seat s
  | .coilOvercurrent c => Sys2Proof.Machine.execCoilOvercurrent c s
  | .coilOpenLoad c => Sys2Proof.Machine.execCoilOpenLoad c s
  | .closeTimeout c => Sys2Proof.Machine.execCloseTimeout c s
  | .negOpenTimeout str => Sys2Proof.Machine.execNegOpenTimeout str s
  | .weldFeedback c => Sys2Proof.Machine.execWeldFeedback c s
  | .weldHvsJudge c => Sys2Proof.Machine.execWeldHvsJudge c s
  | .pumpSnap => Sys2Proof.Machine.execPumpSnap s
  | .railLoss => Sys2Proof.Machine.execRailLoss s
  | .railUp => Sys2Proof.Machine.execRailUp s
  | .pumpSkip => Sys2Proof.Machine.execPumpSkip s
  | .snapTest => Sys2Proof.Machine.execSnapTest s
  | .deferExpire => Sys2Proof.Machine.execDeferExpire s
  | .energyGateTimeout str => Sys2Proof.Machine.execEnergyGateTimeout str s
  | .admitTimeout str => Sys2Proof.Machine.execAdmitTimeout str s
  | .testPulseFault src => Sys2Proof.Machine.execTestPulseFault src s
  | .sinLevelChange n level => Sys2Proof.Machine.execSinLevelChange n level s
  | .sinFinding n cross => Sys2Proof.Machine.execSinFinding n cross s
  | .sinFindingClear n => Sys2Proof.Machine.execSinFindingClear n s
  | .sinPairDiscrepancy n => Sys2Proof.Machine.execSinPairDiscrepancy n s
  | .mdiTimeout => Sys2Proof.Machine.execMdiTimeout s
  | .mdiStall => Sys2Proof.Machine.execMdiStall s
  | .mdiOvercurrent => Sys2Proof.Machine.execMdiOvercurrent s
  | .mdiBrakeEnd => Sys2Proof.Machine.execMdiBrakeEnd s
  | .mdiWaitDefer => Sys2Proof.Machine.execMdiWaitDefer s
  | .mdiGo close => Sys2Proof.Machine.execMdiGo close s
  | .mdiStop => Sys2Proof.Machine.execMdiStop s
  | .imdHalfEnd v1 v1a v1b u1 => Sys2Proof.Machine.execImdHalfEnd v1 v1a v1b u1 s
  | .imdPeriodEnd v2 v2a v2b u2 => Sys2Proof.Machine.execImdPeriodEnd v2 v2a v2b u2 s
  | .imdKinExclude => Sys2Proof.Machine.execImdKinExclude s
  | .kinStale => Sys2Proof.Machine.execKinStale s
  | .imdSwitchFault nSide => Sys2Proof.Machine.execImdSwitchFault nSide s
  | .hibernateIdle => Sys2Proof.Machine.execHibernateIdle s
  | .hibernateGraceEnd => Sys2Proof.Machine.execHibernateGraceEnd s
  | .consoleWake port => Sys2Proof.Machine.execConsoleWake port s
  | .surgeDoorbell k value us => Sys2Proof.Machine.execSurgeDoorbell k value us s
  | .ticketExpire => Sys2Proof.Machine.execTicketExpire s
  | .canFrameReceived x f us => Sys2Proof.Machine.execCanFrameReceived x f us s
  | .windowSelect rq x value => Sys2Proof.Machine.execWindowSelect rq x value s
  | .windowCommit rq x => Sys2Proof.Machine.execWindowCommit rq x s
  | .txRequest rq x mask us => Sys2Proof.Machine.execTxRequest rq x mask us s
  | .txAbort rq x mask => Sys2Proof.Machine.execTxAbort rq x mask s
  | .txAttempt x obj us => Sys2Proof.Machine.execTxAttempt x obj us s
  | .txAttemptEnd x ok lostArb lec => Sys2Proof.Machine.execTxAttemptEnd x ok lostArb lec s
  | .txLimitReached x obj byDeadline => Sys2Proof.Machine.execTxLimitReached x obj byDeadline s
  | .canErrorState x err tec rec lec dlec => Sys2Proof.Machine.execCanErrorState x err tec rec lec dlec s
  | .canBusOff x => Sys2Proof.Machine.execCanBusOff x s
  | .busoffHoldEnd x => Sys2Proof.Machine.execBusoffHoldEnd x s
  | .busoffRecovered x ms => Sys2Proof.Machine.execBusoffRecovered x ms s
  | .canWake ball => Sys2Proof.Machine.execCanWake ball s
  | .canaPeriodic => Sys2Proof.Machine.execCanaPeriodic s
  | .crewReferenceSend => Sys2Proof.Machine.execCrewReferenceSend s
  | .crewReferenceReceived data sof => Sys2Proof.Machine.execCrewReferenceReceived data sof s
  | .crewReferenceMissing => Sys2Proof.Machine.execCrewReferenceMissing s
  | .crewListenEnd jedec => Sys2Proof.Machine.execCrewListenEnd jedec s
  | .armRun jedec => Sys2Proof.Machine.execArmRun jedec s
  | .crewJoinReceived lane data us => Sys2Proof.Machine.execCrewJoinReceived lane data us s
  | .crewSummaryReceived lane data us => Sys2Proof.Machine.execCrewSummaryReceived lane data us s
  | .laneGone lane => Sys2Proof.Machine.execLaneGone lane s
  | .crewOrdersReceived lane data us => Sys2Proof.Machine.execCrewOrdersReceived lane data us s
  | .crewOutcomeReceived lane data us => Sys2Proof.Machine.execCrewOutcomeReceived lane data us s
  | .crewNoreply lane => Sys2Proof.Machine.execCrewNoreply lane s
  | .consoleLine port us => Sys2Proof.Machine.execConsoleLine port us s
  | .autobaud port width => Sys2Proof.Machine.execAutobaud port width s
  | .consoleBreak port => Sys2Proof.Machine.execConsoleBreak port s
  | .sessionIdle port => Sys2Proof.Machine.execSessionIdle port s
  | .loginLockoutEnd port => Sys2Proof.Machine.execLoginLockoutEnd port s
  | .challengeExpire port => Sys2Proof.Machine.execChallengeExpire port s
  | .noticeFlush port => Sys2Proof.Machine.execNoticeFlush port s
  | .lostNotice port => Sys2Proof.Machine.execLostNotice port s
  | .ping port => Sys2Proof.Machine.execPing port s
  | .loginInstaller port code => Sys2Proof.Machine.execLoginInstaller port code s
  | .loginTenant port k code => Sys2Proof.Machine.execLoginTenant port k code s
  | .loginService port => Sys2Proof.Machine.execLoginService port s
  | .auth port id sig => Sys2Proof.Machine.execAuth port id sig s
  | .logout port => Sys2Proof.Machine.execLogout port s
  | .whoami port => Sys2Proof.Machine.execWhoami port s
  | .passcode port k code => Sys2Proof.Machine.execPasscode port k code s
  | .showVersion port => Sys2Proof.Machine.execShowVersion port s
  | .showStart port us => Sys2Proof.Machine.execShowStart port us s
  | .showStatus port => Sys2Proof.Machine.execShowStatus port s
  | .showString port str => Sys2Proof.Machine.execShowString port str s
  | .showSeat port n => Sys2Proof.Machine.execShowSeat port n s
  | .showHelm port => Sys2Proof.Machine.execShowHelm port s
  | .showTicket port => Sys2Proof.Machine.execShowTicket port s
  | .showMdi port => Sys2Proof.Machine.execShowMdi port s
  | .showImd port => Sys2Proof.Machine.execShowImd port s
  | .showSin port => Sys2Proof.Machine.execShowSin port s
  | .showKpa port => Sys2Proof.Machine.execShowKpa port s
  | .showPart port => Sys2Proof.Machine.execShowPart port s
  | .showCrew port => Sys2Proof.Machine.execShowCrew port s
  | .showChain port => Sys2Proof.Machine.execShowChain port s
  | .showRadio port => Sys2Proof.Machine.execShowRadio port s
  | .showReset port => Sys2Proof.Machine.execShowReset port s
  | .showTally port => Sys2Proof.Machine.execShowTally port s
  | .getParam port keys => Sys2Proof.Machine.execGetParam port keys s
  | .openOrder port target us => Sys2Proof.Machine.execOpenOrder port target us s
  | .closeOrder port target us => Sys2Proof.Machine.execCloseOrder port target us s
  | .limitOrder port target mA us => Sys2Proof.Machine.execLimitOrder port target mA us s
  | .helmTake port us => Sys2Proof.Machine.execHelmTake port us s
  | .helmRelease port us => Sys2Proof.Machine.execHelmRelease port us s
  | .surge port power duration us => Sys2Proof.Machine.execSurge port power duration us s
  | .surgeRelease port => Sys2Proof.Machine.execSurgeRelease port s
  | .crewOrder port lane kind target value ref => Sys2Proof.Machine.execCrewOrder port lane kind target value ref s
  | .crewSurge port lane power duration ref => Sys2Proof.Machine.execCrewSurge port lane power duration ref s
  | .setParams port pairs => Sys2Proof.Machine.execSetParams port pairs s
  | .stageShow port => Sys2Proof.Machine.execStageShow port s
  | .stageCheck port => Sys2Proof.Machine.execStageCheck port s
  | .stageDrop port => Sys2Proof.Machine.execStageDrop port s
  | .stageDump port => Sys2Proof.Machine.execStageDump port s
  | .confirm port check => Sys2Proof.Machine.execConfirm port check s
  | .lcsCommission port code => Sys2Proof.Machine.execLcsCommission port code s
  | .lcsBlank port => Sys2Proof.Machine.execLcsBlank port s
  | .lcsSeal port => Sys2Proof.Machine.execLcsSeal port s
  | .lcsService port => Sys2Proof.Machine.execLcsService port s
  | .lcsRetire port => Sys2Proof.Machine.execLcsRetire port s
  | .clearEasy port => Sys2Proof.Machine.execClearEasy port s
  | .clearPrecharge port str => Sys2Proof.Machine.execClearPrecharge port str s
  | .clearWeld port str => Sys2Proof.Machine.execClearWeld port str s
  | .clearContactor port c => Sys2Proof.Machine.execClearContactor port c s
  | .clearMdi port => Sys2Proof.Machine.execClearMdi port s
  | .clearSin port n => Sys2Proof.Machine.execClearSin port n s
  | .clearImd port => Sys2Proof.Machine.execClearImd port s
  | .clearSeat port n => Sys2Proof.Machine.execClearSeat port n s
  | .clearKbat port => Sys2Proof.Machine.execClearKbat port s
  | .clearAux port => Sys2Proof.Machine.execClearAux port s
  | .stop port => Sys2Proof.Machine.execStop port s
  | .ship port => Sys2Proof.Machine.execShip port s
  | .hibernate port => Sys2Proof.Machine.execHibernate port s
  | .kbatStart port => Sys2Proof.Machine.execKbatStart port s
  | .kbatStop port => Sys2Proof.Machine.execKbatStop port s
  | .suspend port k => Sys2Proof.Machine.execSuspend port k s
  | .resume port k => Sys2Proof.Machine.execResume port k s
  | .pairSeat port n => Sys2Proof.Machine.execPairSeat port n s
  | .pairAll port => Sys2Proof.Machine.execPairAll port s
  | .estSave port => Sys2Proof.Machine.execEstSave port s
  | .estRestoreBegin port size => Sys2Proof.Machine.execEstRestoreBegin port size s
  | .estRestoreData port off data => Sys2Proof.Machine.execEstRestoreData port off data s
  | .estRestoreEnd port => Sys2Proof.Machine.execEstRestoreEnd port s
  | .logHead port book => Sys2Proof.Machine.execLogHead port book s
  | .logRead port book seq count => Sys2Proof.Machine.execLogRead port book seq count s
  | .logRelease port book upto => Sys2Proof.Machine.execLogRelease port book upto s
  | .logSubmit rq => Sys2Proof.Machine.execLogSubmit rq s
  | .logRecordWrite => Sys2Proof.Machine.execLogRecordWrite s
  | .logCursorLoad rq seq => Sys2Proof.Machine.execLogCursorLoad rq seq s
  | .logWindowAdvance rq => Sys2Proof.Machine.execLogWindowAdvance rq s
  | .logBookRelease rq book => Sys2Proof.Machine.execLogBookRelease rq book s
  | .tallyAccCommit verifyOk => Sys2Proof.Machine.execTallyAccCommit verifyOk s
  | .efcProgram rq key => Sys2Proof.Machine.execEfcProgram rq key s
  | .efcErase rq key => Sys2Proof.Machine.execEfcErase rq key s
  | .efcTolerantRead rq data check => Sys2Proof.Machine.execEfcTolerantRead rq data check s
  | .efcOperationDone ok => Sys2Proof.Machine.execEfcOperationDone ok s
  | .sectorRefresh => Sys2Proof.Machine.execSectorRefresh s
  | .tagReqa => Sys2Proof.Machine.execTagReqa s
  | .tagWupa => Sys2Proof.Machine.execTagWupa s
  | .tagAnticollision level bitsKnown => Sys2Proof.Machine.execTagAnticollision level bitsKnown s
  | .tagSelect level uid => Sys2Proof.Machine.execTagSelect level uid s
  | .tagHlta => Sys2Proof.Machine.execTagHlta s
  | .tagRead page => Sys2Proof.Machine.execTagRead page s
  | .tagWrite page data verifyOk us => Sys2Proof.Machine.execTagWrite page data verifyOk us s
  | .tagCompatWrite page data verifyOk us => Sys2Proof.Machine.execTagCompatWrite page data verifyOk us s
  | .tagSectorSelect sector => Sys2Proof.Machine.execTagSectorSelect sector s
  | .tagFieldOn => Sys2Proof.Machine.execTagFieldOn s
  | .tagFieldOff => Sys2Proof.Machine.execTagFieldOff s
  | .tagHostStore addr data => Sys2Proof.Machine.execTagHostStore addr data s
  | .tagFlush => Sys2Proof.Machine.execTagFlush s
  | .tagRowProgramDone verifyOk => Sys2Proof.Machine.execTagRowProgramDone verifyOk s
  | .tagConfirmation => Sys2Proof.Machine.execTagConfirmation s
  | .tagMailboxRequest => Sys2Proof.Machine.execTagMailboxRequest s
  | .tagSemaphoreTake => Sys2Proof.Machine.execTagSemaphoreTake s
  | .tagSemaphoreRelease => Sys2Proof.Machine.execTagSemaphoreRelease s
  | .tagFieldIdleRelease => Sys2Proof.Machine.execTagFieldIdleRelease s
  | .tagWipe value => Sys2Proof.Machine.execTagWipe value s
  | .qpPush rq n => Sys2Proof.Machine.execQpPush rq n s
  | .qpChainRun n => Sys2Proof.Machine.execQpChainRun n s
  | .qpChainEnd received => Sys2Proof.Machine.execQpChainEnd received s
  | .xipMiss sc addr => Sys2Proof.Machine.execXipMiss sc addr s
  | .xipLineDone data tag data2 tag2 => Sys2Proof.Machine.execXipLineDone data tag data2 tag2 s
  | .xipInvalidate => Sys2Proof.Machine.execXipInvalidate s
  | .qpSlaveFrame bits words => Sys2Proof.Machine.execQpSlaveFrame bits words s
  | .gpioSet rq pins => Sys2Proof.Machine.execGpioSet rq pins s
  | .gpioClr rq pins => Sys2Proof.Machine.execGpioClr rq pins s
  | .gpioEdge pin level => Sys2Proof.Machine.execGpioEdge pin level s
  | .debugAuth sig => Sys2Proof.Machine.execDebugAuth sig s
  | .debugHalt => Sys2Proof.Machine.execDebugHalt s
  | .debugResume => Sys2Proof.Machine.execDebugResume s
  | .debugStep => Sys2Proof.Machine.execDebugStep s
  | .debugAbstractCommand regno write => Sys2Proof.Machine.execDebugAbstractCommand regno write s
  | .debugProgramBuffer words acc => Sys2Proof.Machine.execDebugProgramBuffer words acc s
  | .debugSysbusRead addr => Sys2Proof.Machine.execDebugSysbusRead addr s
  | .debugResetRequest => Sys2Proof.Machine.execDebugResetRequest s
  | .secSha256 => Sys2Proof.Machine.execSecSha256 s
  | .secAesEcb => Sys2Proof.Machine.execSecAesEcb s
  | .secAesCcm => Sys2Proof.Machine.execSecAesCcm s
  | .secAesCmac => Sys2Proof.Machine.execSecAesCmac s
  | .secEcdsaVerify => Sys2Proof.Machine.execSecEcdsaVerify s
  | .secOperationDone ok => Sys2Proof.Machine.execSecOperationDone ok s
  | .secKeyLoad slot => Sys2Proof.Machine.execSecKeyLoad slot s
  | .secKeyGenerate slot => Sys2Proof.Machine.execSecKeyGenerate slot s
  | .secRandomRead => Sys2Proof.Machine.execSecRandomRead s
  | .finishDeadline => Sys2Proof.Machine.execFinishDeadline s
  | .fcsSample code => Sys2Proof.Machine.execFcsSample code s
  | .hvsConversion ch code => Sys2Proof.Machine.execHvsConversion ch code s
  | .tmpConversion codes dieCenti => Sys2Proof.Machine.execTmpConversion codes dieCenti s
  | .sourceLimit chargerCut auxCut systemShort => Sys2Proof.Machine.execSourceLimit chargerCut auxCut systemShort s
  | .auxTargetReached => Sys2Proof.Machine.execAuxTargetReached s
  | .pullinEnd c => Sys2Proof.Machine.execPullinEnd c s
  | .lockAcquired us => Sys2Proof.Machine.execLockAcquired us s
  | .consoleByteReceived port byte framingOk => Sys2Proof.Machine.execConsoleByteReceived port byte framingOk s
  | .consoleByteSent port => Sys2Proof.Machine.execConsoleByteSent port s

end Sys2Proof.Machine
end

