-- ==== Sys2Proof/Machine/Step.lean ====
section
/-!
DEFINITION. One step: the command at the front of the queue takes effect; on an empty queue the block idles (DESIGN CHOICE, log entry 15).
-/

namespace Sys2Proof.Machine

/-- Take the oldest waiting command and run it with the queue's rest. (DESIGN CHOICE, log entry 66) (DESIGN CHOICE, log entry 123) -/
def step (s : State) : Host.Outcome State Fault Refusal :=
  match s.pending with
  | [] => .next s
  | c :: rest => exec c { s with pending := rest }

/-- The state with the command a word spells put at the front of the queue; unchanged where the word spells none. -/
def State.withFetchWord (s : State) (nbits w : Nat) : State :=
  match decodeTableWord nbits w with
  | some c => { s with pending := c :: s.pending }
  | none => s

end Sys2Proof.Machine
end

