-- ==== Sys2Proof/Safety.lean ====
section
/-!
DEFINITION. The terms that the claims about this model use: what it means that a command takes effect, what an effect leaves unchanged, the canonical form of a state, and which commands reach the memories, the non-volatile store and the configuration in force.
-/

namespace Sys2Proof.Machine

/-- The command answers a next state, and that state has the property. -/
def Does (c : Instr) (s : State) (P : State → Prop) : Prop := ∃ t, exec c s = .next t ∧ P t

/-- Every register but the listed ones reads as before. -/
def RegsBut (s t : State) (l : List Nat) : Prop := ∀ a, a ∉ l → t.rd a = s.rd a

/-- Every byte of memory reads as before. -/
def SameMem (s t : State) : Prop := ∀ a, t.rdB a = s.rdB a

/-- Only the listed registers changed: every other register, every byte of memory and every other part of the state is as before. -/
def OnlyRegs (s t : State) (l : List Nat) : Prop := RegsBut s t l ∧ SameMem s t ∧ t = { s with regs := t.regs }

/-- Only the listed registers and the logbook's queue, with the registers that show it, changed. -/
def OnlyRegsLog (s t : State) (l : List Nat) : Prop :=
  RegsBut s t (l ++ logRegs 0) ∧ SameMem s t
    ∧ t = { s with regs := t.regs, log := t.log }

/-- Registers and memory are in canonical form: addresses rise, and nothing is listed that equals what it reads as when unlisted; and no acts of a catch are in progress, as is so between commands. -/
def Canon (s : State) : Prop := Tab.wf regReset s.regs = true ∧ Memory.wf s.mem = true ∧ s.acts = .idle

/-- Commands that may store to one of the addressed memories. -/
def mayStore : Instr → Bool
  | .busError .. | .strokeTimerStart .. | .catchPoint .. | .gatherDeadline .. | .finish .. | .watch .. | .lockstepReset .. | .eccCorrected ..
  | .eccFatalReset .. | .eccCorrLimit .. | .resetPin .. | .porAssert .. | .softReset .. | .resetAssert .. | .wipeDone .. | .imageVerify ..
  | .stallReset .. | .bootTimerExpire .. | .clockLoss .. | .stakeBoatEnd .. | .shorePeriodic .. | .shoreGapEnd .. | .lcsRequest ..
  | .lcsTransitionComplete .. | .serviceTimeout .. | .doorbell .. | .autoResume .. | .chargeTaperEnd .. | .nimhDeltaV .. | .nimhDtdt ..
  | .chargerStop .. | .shipWake .. | .kbtnLongPress .. | .kbtnPress .. | .currentWake .. | .fcsSelfTestEnd .. | .linkRegain .. | .sampleReadsStart ..
  | .chainResponse .. | .chainTimeout .. | .chainSubmit .. | .radioSlot .. | .radioResponse .. | .radioTimeout .. | .closeTimeout ..
  | .negOpenTimeout .. | .weldFeedback .. | .weldHvsJudge .. | .deferExpire .. | .admitTimeout .. | .hibernateGraceEnd .. | .consoleWake ..
  | .ticketExpire .. | .canWake .. | .crewListenEnd .. | .armRun .. | .setParams .. | .stageDrop .. | .confirm .. | .lcsCommission .. | .lcsBlank ..
  | .lcsSeal .. | .lcsService .. | .lcsRetire .. | .ship .. | .kbatStop .. | .resume .. | .pairSeat .. | .pairAll .. | .logRecordWrite ..
  | .tallyAccCommit .. | .efcOperationDone .. | .sectorRefresh .. | .tagRead .. | .tagWrite .. | .tagCompatWrite .. | .tagFieldOff ..
  | .tagHostStore .. | .tagRowProgramDone .. | .tagConfirmation .. | .tagMailboxRequest .. | .tagSemaphoreTake .. | .tagSemaphoreRelease ..
  | .tagFieldIdleRelease .. | .tagWipe .. | .debugAuth .. | .debugProgramBuffer .. | .debugResetRequest .. | .secOperationDone .. | .lockAcquired .. => true
  | _ => false

/-- Commands that may change the non-volatile store. -/
def mayKeep : Instr → Bool
  | .busError .. | .strokeTimerStart .. | .catchPoint .. | .watch .. | .lockstepReset .. | .eccFatalReset .. | .eccCorrLimit .. | .resetPin ..
  | .porAssert .. | .softReset .. | .resetAssert .. | .imageVerify .. | .stallReset .. | .bootTimerExpire .. | .clockLoss .. | .stakeBoatEnd ..
  | .shorePeriodic .. | .shoreGapEnd .. | .lcsRequest .. | .lcsTransitionComplete .. | .serviceTimeout .. | .chargeTaperEnd .. | .nimhDeltaV ..
  | .nimhDtdt .. | .chargerStop .. | .shipWake .. | .kbtnLongPress .. | .kbtnPress .. | .currentWake .. | .fcsSelfTestEnd .. | .joinRequest ..
  | .closeTimeout .. | .negOpenTimeout .. | .weldFeedback .. | .weldHvsJudge .. | .deferExpire .. | .admitTimeout .. | .hibernateGraceEnd ..
  | .consoleWake .. | .canWake .. | .crewListenEnd .. | .armRun .. | .loginLockoutEnd .. | .loginInstaller .. | .loginTenant .. | .auth ..
  | .passcode .. | .setParams .. | .stageDrop .. | .confirm .. | .lcsCommission .. | .lcsBlank .. | .lcsSeal .. | .lcsService .. | .lcsRetire ..
  | .clearPrecharge .. | .ship .. | .kbatStop .. | .pairSeat .. | .pairAll .. | .tallyAccCommit .. | .sectorRefresh .. | .tagHostStore ..
  | .tagConfirmation .. | .tagWipe .. | .debugAuth .. | .debugProgramBuffer .. | .debugResetRequest .. => true
  | _ => false

/-- Commands that may change the configuration in force. -/
def mayApply : Instr → Bool
  | .catchPoint .. | .watch .. | .lockstepReset .. | .eccFatalReset .. | .resetPin .. | .porAssert .. | .softReset .. | .resetAssert ..
  | .imageVerify .. | .stallReset .. | .bootTimerExpire .. | .clockLoss .. | .stakeBoatEnd .. | .lcsTransitionComplete .. | .slotStart ..
  | .shipWake .. | .kbtnLongPress .. | .kbtnPress .. | .currentWake .. | .consoleWake .. | .canWake .. | .pairSeat .. | .pairAll ..
  | .debugProgramBuffer .. | .debugResetRequest .. => true
  | _ => false

/-- A step that stops with a fault or a refusal; no command of this model does. -/
def Stuck (s : State) : Prop := ¬ ∃ t, step s = .next t

end Sys2Proof.Machine
end

