-- ==== Sys2Proof/Certificates/Slice0/Obligations.lean ====
section
/-!
DEFINITION. The statements for the provers: what the commands of each family do, what they leave unchanged, and the rules of the whole machine.
-/

open Sys2Proof Sys2Proof.Machine

/-! The queue, the canonical forms and what commands leave alone -/

/-- A step takes the command at the front of the queue and answers what that command answers on the state with the queue's rest; on an empty queue the block idles, which is the model's choice (log entry 15). -/
def Obligations.StepRunsFrontCommand : Prop :=
  (∀ (s : State) (c : Instr) (rest : List Instr), step { s with pending := c :: rest } = exec c { s with pending := rest })
    ∧ ∀ s : State, s.pending = [] → step s = .next s

/-- No command leaves the part stuck: each answers a next state in every state, and so does every step. -/
def everyCommandAnswersANextState : Prop :=
  (∀ (c : Instr) (s : State), ∃ t, exec c s = .next t) ∧ ∀ s : State, ¬ Stuck s

/-- A command leaves the queue of waiting commands as it is, and draws free values only forward. -/
def commandsLeaveTheQueue : Prop :=
  ∀ (c : Instr) (s t : State), exec c s = .next t → t.pending = s.pending ∧ s.freeCtr ≤ t.freeCtr

/-- From every state in canonical form a step leads to a state in canonical form: registers and memories list rising addresses and nothing that equals what an unlisted address reads as. -/
def Obligations.StepKeepsCanonicalForm : Prop :=
  ∀ s t : State, Canon s → step s = .next t → Canon t

/-- Every byte of eflash, TCM, shared SRAM, transaction table, logbook SRAM and tag EEPROM reads as before after a command outside `mayStore`. -/
def memoryChangesOnlyByStoringCommands : Prop :=
  ∀ (c : Instr) (s t : State), mayStore c = false → exec c s = .next t → ∀ a, t.rdB a = s.rdB a

/-- Configuration staged and confirmed, rollback floors, codes, lock-outs, tally, keys and the other non-volatile content change only by the commands of `mayKeep`. -/
def nonVolatileStoreChangesOnlyByListedCommands : Prop :=
  ∀ (c : Instr) (s t : State), mayKeep c = false → exec c s = .next t → t.nv = s.nv

/-- The value of a parameter in force changes only by a command at which parameters are applied or the part starts again: a catch, a watch, the end of the stake-boat interval, a slot's start, a pairing, a reset. -/
def Obligations.ParametersInForceChangeOnlyWhenApplied : Prop :=
  ∀ (c : Instr) (s t : State), mayApply c = false → exec c s = .next t → ∀ (n : PName) (i : Nat), t.par n i = s.par n i

/-- Right after the first power-on reset is released: canonical forms, an empty queue, every register at the reset value of its map, memories wiped and eflash erased, the wipe running and no console output. Where the manual leaves a point open, the model's choice of log entries 3 and 6 stands. -/
def Obligations.ResetState : Prop :=
  Canon State.reset ∧ State.reset.pending = [] ∧ (∀ a, State.reset.rd a = regReset a)
    ∧ (∀ a, State.reset.rdB a = if inEflash a then 0xFF else 0) ∧ State.reset.power.phase = .wiping
    ∧ State.reset.rdN Reg.RST_CAUSE = 1 ∧ State.reset.rdN Reg.STK_CTRL = 0x72 ∧ State.reset.bit Reg.COX_CTRL 0 = false
    ∧ State.reset.con0.out = [] ∧ State.reset.con1.out = []

/-! Register accesses (R7, R21 to R25, R28, R40) -/

/-- A peripheral register of the Cox whose plain write has no follow-up of its own: outside the Q-port, GPIO and DBG blocks and the listed registers. -/
def plainReg (s : State) (a : Nat) : Prop :=
  inPeriph a = true ∧ a % 4 = 0 ∧ a / 4096 ≠ 0x4001C ∧ a / 4096 ≠ 0x4001D ∧ a / 4096 ≠ 0x40020 ∧ s.keptBits a = 0
    ∧ a ∉ [Reg.KPA_CTRL, Reg.KPA_AUXCFG, Reg.PUMP_CTRL, Reg.CON_CTRL 0, Reg.CON_CTRL 1, Reg.CON_TXDATA 0, Reg.CON_TXDATA 1, Reg.IMD_STAT, Reg.CON_RXDATA 0]
    ∧ a ∉ [Reg.CON_RXDATA 1, Reg.CHN_DONE, Reg.RAD_DONE, Reg.RAD_JOINRD, Reg.CAN_CTRL 0, Reg.CAN_CTRL 1, Reg.CAN_CTRL 2, Reg.SIN_TPSTAT]
    ∧ ¬(Reg.SIN_CFG 0 ≤ a ∧ a ≤ Reg.SIN_CFG 7)

/-- A write of the Cox to a plain register: a RW bit takes the value, a W1C bit written as 1 clears, every other bit keeps its state, and nothing else changes (R7, R8); a quota that the partition manager rejects is not written (R19). Where the manual leaves a point open, the model's choice of log entry 122 stands. -/
def Obligations.RegisterWriteFollowsAccessCodes : Prop :=
  (∀ (s : State) (a : Nat) (v : Word) (r : RegRow), s.awake = true → plainReg s a → regRow a = some r → s.quotaRejected a v.toNat = false →
    Does (.registerWrite .cox a v) s (fun t =>
      (∀ b, b < 32 → t.bit a b = if r.rw.testBit b then v.toNat.testBit b else s.bit a b && !(r.w1c.testBit b && v.toNat.testBit b))
        ∧ OnlyRegs s t [a]))
  ∧ ∀ (s : State) (a : Nat) (v : Word), s.quotaRejected a v.toNat = true → exec (.registerWrite .cox a v) s = .next s

/-- A completed read of the Cox of a plain register returns its value and puts its RC bits back to their reset values, with nothing else changed; an aborted read clears nothing; a write or a read without the access right changes nothing (R7, R23). Where the manual leaves a point open, the model's choice of log entry 68 stands. -/
def Obligations.ReadClearReturnsAndClears : Prop :=
  (∀ (s : State) (a : Nat) (r : RegRow), s.awake = true → plainReg s a → regRow a = some r →
    Does (.readClear .cox a false) s (fun t =>
      t.rdata = s.rd a ∧ (∀ b, b < 32 → t.bit a b = if r.rc.testBit b then r.reset.testBit b else s.bit a b)
        ∧ RegsBut s t [a] ∧ SameMem s t ∧ t = { s with regs := t.regs, rdata := t.rdata }))
  ∧ (∀ (s : State) (rq : Requester) (a : Nat), exec (.readClear rq a true) s = .next s)
  ∧ (∀ (s : State) (rq : Requester) (a : Nat), s.mayRead rq a = false → exec (.readClear rq a false) s = .next s)
  ∧ (∀ (s : State) (rq : Requester) (a : Nat) (v : Word), s.mayWrite rq a = false → exec (.registerWrite rq a v) s = .next s)

/-- A bus error, at an unmapped address or a write to a read-only region, is recorded with its address and requester while no earlier one stands (R25); one of the Cox puts a rowing Camlan, not yet in easy, into easy with cause 0x02 (R21). -/
def busErrorIsRecorded : Prop :=
  (∀ (s : State) (rq : Requester) (user write : Bool) (a : Nat), rq = .linkEngine ∨ rq = .prefetch ∨ rq = .debugPort →
    s.awake = true → mapped a = false ∨ (write = true ∧ readOnly a = true) → s.bit Reg.SYS_BESTAT 8 = false →
    Does (.busError rq user write a) s (fun t =>
      t.rdN Reg.SYS_BEADDR = a % 2 ^ 32 ∧ t.fld Reg.SYS_BESTAT 0 4 = Requester.idx rq ∧ t.bit Reg.SYS_BESTAT 7 = write ∧ t.bit Reg.SYS_BESTAT 8 = true
        ∧ OnlyRegs s t [Reg.SYS_BEADDR, Reg.SYS_BESTAT]))
  ∧ (∀ (s : State) (rq : Requester) (user write : Bool) (a : Nat), rq = .linkEngine ∨ rq = .prefetch ∨ rq = .debugPort →
    s.bit Reg.SYS_BESTAT 8 = true → exec (.busError rq user write a) s = .next s)
  ∧ ∀ (s : State) (user write : Bool) (a : Nat), s.rowing = true → s.cam.state ≠ .easy → s.acts = .idle → mapped a = false →
    Does (.busError .cox user write a) s (fun t => t.cam.state = .easy ∧ t.cam.easyCauses = [0x02] ∧ t.bit Reg.SYS_BESTAT 8 = true)

/-- A read of STK.TIMEL returns the low word of the 48-bit count and latches the high word for the reader (R28); the count is the model's sum of the time at the last catch and the time since. -/
def strokeTimeReadLatchesTheHighWord : Prop :=
  ∀ (s : State) (rq : Requester) (us : Nat), s.awake = true → s.mayRead rq Reg.STK_TIMEL = true → s.running = true → us < 2 ^ 15 →
    Does (.strokeTimeRead rq us) s (fun t =>
      t.rdata.toNat = (s.stk.base + us) % 2 ^ 48 % 2 ^ 32 ∧ t.rdN (regFor rq Reg.STK_TIMEH) = (s.stk.base + us) % 2 ^ 48 / 2 ^ 32
        ∧ RegsBut s t [Reg.STK_PHASE, Reg.STK_TIMEL, regFor rq Reg.STK_TIMEH] ∧ SameMem s t ∧ t = { s with regs := t.regs, rdata := t.rdata })

/-- A changed interrupt line is presented to both cores at once: one copy of the lines serves both, and every other line keeps its level (R40). -/
def interruptLineIsPresentedOnce : Prop :=
  ∀ (s : State) (line : Nat) (level : Bool),
    Does (.interruptLineChange line level) s (fun t =>
      getField t.stk.lines line 1 = (if level then 1 else 0) ∧ (∀ l, l ≠ line → getField t.stk.lines l 1 = getField s.stk.lines l 1)
        ∧ t = { s with stk := { s.stk with lines := t.stk.lines } })

/-! Lock-step, memory classes, the start test and the permit (R60 to R73, R78) -/

/-- What a closed gate leaves besides the registers: the pump is no longer fed and any granted feed is cancelled. -/
def gateClosed (s t : State) : Prop :=
  t.bit Reg.COX_STATUS 0 = false ∧ t.bit Reg.PUMP_STAT 0 = false
    ∧ t.stk = { s.stk with feed := false, permit := false } ∧ t.ctr = { s.ctr with fedSince := none, railUp := false }

/-- A mismatch under LOCK sets MM, closes the gate, retains the groups, the program counter and the stroke of its first cycle unless a fault is already held, and leads to a LOCKSTEP reset unless that is inhibited in SERVICE or a reset already follows (R61 to R63, R78); the reset follows as a command of its own. -/
def mismatchUnderLock : Prop :=
  (∀ (s : State) (groups : Nat) (pc : Word), s.powered = true → groups % 2 ^ 24 ≠ 0 → s.locked = true →
    Does (.lockstepMismatch groups pc) s (fun t =>
      t.bit Reg.COX_STATUS 2 = true ∧ gateClosed s t
        ∧ (s.ao.coxHeld = false → t.rdN Reg.COX_MMGRP = groups % 2 ^ 24 ∧ t.rd Reg.COX_MMPC = pc ∧ t.rd Reg.COX_MMSTROKE = s.rd Reg.STK_NUM
            ∧ t.fld Reg.COX_MMINFO 0 2 = 1 ∧ t.rdN Reg.COX_MMADDR = 0 ∧ t.ao.coxHeld = true)
        ∧ (s.ao.coxHeld = true → RegsBut s t [Reg.COX_STATUS, Reg.PUMP_STAT])
        ∧ t.power.faultReset = (if s.resetInhibited || s.power.faultReset.isSome then s.power.faultReset else some 3)
        ∧ RegsBut s t [Reg.COX_STATUS, Reg.PUMP_STAT, Reg.COX_MMGRP, Reg.COX_MMPC, Reg.COX_MMSTROKE, Reg.COX_MMINFO, Reg.COX_MMADDR] ∧ SameMem s t
        ∧ t = { s with regs := t.regs, stk := t.stk, ctr := t.ctr, ao := t.ao, power := t.power }))
  ∧ (∀ s : State, s.power.faultReset = some 3 → exec .lockstepReset s = .next (s.assertReset 3))
  ∧ (∀ s : State, s.power.faultReset ≠ some 3 → exec .lockstepReset s = .next s)

/-- Before LOCK a mismatch, injected or not, closes the gate and shows its groups in COX.STEST.DET, with no reset and nothing retained; INJ.CLR clears DET and MM and opens the gate unless FATAL stands; in the start test it first judges the injected group, which passes only where DET shows it alone and the gate is closed, and else fails; under LOCK a write to INJ has no effect (R69 to R71). -/
def startTestInjection : Prop :=
  (∀ (s : State) (groups : Nat) (pc : Word), s.powered = true → groups % 2 ^ 24 ≠ 0 → s.locked = false →
    Does (.lockstepMismatch groups pc) s (fun t =>
      t.bit Reg.COX_STATUS 2 = true ∧ gateClosed s t ∧ (∀ b, b < 24 → t.bit Reg.COX_STEST b = (s.bit Reg.COX_STEST b || groups.testBit b))
        ∧ t.power = s.power ∧ t.ao = s.ao ∧ RegsBut s t [Reg.COX_STATUS, Reg.PUMP_STAT, Reg.COX_STEST] ∧ SameMem s t
        ∧ t = { s with regs := t.regs, stk := t.stk, ctr := t.ctr }))
  ∧ (∀ (s : State) (group det : Nat), s.awake = true → s.locked = false → group ≤ 23 → det % 2 ^ 24 ≠ 0 →
    Does (.injectDifference group det) s (fun t =>
      (∀ b, b < 24 → t.bit Reg.COX_STEST b = (s.bit Reg.COX_STEST b || det.testBit b)) ∧ t.bit Reg.COX_STATUS 2 = true
        ∧ gateClosed s t ∧ (s.power.phase = .bootRom → t.power.injNow = some group)
        ∧ RegsBut s t [Reg.COX_STATUS, Reg.PUMP_STAT, Reg.COX_STEST] ∧ SameMem s t
        ∧ t = { s with regs := t.regs, stk := t.stk, ctr := t.ctr, power := { s.power with injNow := t.power.injNow } }))
  ∧ (∀ (s : State) (g : Nat), s.awake = true → s.locked = false → s.power.injNow = some g → s.fld Reg.COX_STEST 0 24 = 2 ^ g → s.bit Reg.COX_STATUS 0 = false →
    Does .injectClear s (fun t =>
      t.fld Reg.COX_STEST 0 24 = 0 ∧ t.bit Reg.COX_STATUS 2 = false ∧ t.bit Reg.COX_STATUS 0 = !s.bit Reg.COX_STATUS 3
        ∧ t.power = { s.power with injNow := none, injDone := s.power.injDone ||| 2 ^ g }
        ∧ RegsBut s t [Reg.COX_STATUS, Reg.COX_STEST] ∧ SameMem s t ∧ t = { s with regs := t.regs, power := t.power }))
  ∧ (∀ (s : State) (g : Nat), s.awake = true → s.locked = false → s.power.injNow = some g → s.fld Reg.COX_STEST 0 24 ≠ 2 ^ g ∨ s.bit Reg.COX_STATUS 0 = true →
    exec .injectClear s = .next (s.startTestFail g))
  ∧ (∀ s : State, s.awake = true → s.locked = false → s.power.injNow = none →
    Does .injectClear s (fun t =>
      t.fld Reg.COX_STEST 0 24 = 0 ∧ t.bit Reg.COX_STATUS 2 = false ∧ t.bit Reg.COX_STATUS 0 = !s.bit Reg.COX_STATUS 3
        ∧ OnlyRegs s t [Reg.COX_STATUS, Reg.COX_STEST]))
  ∧ ∀ (s : State) (group det : Nat), s.locked = true → exec (.injectDifference group det) s = .next s ∧ exec .injectClear s = .next s

/-- LOCK is set after a pass: in the boot ROM, once every group has passed its injection, a pass also sets STEST_PASS and PERMIT; a group without its pass fails the test with its number, a stray mismatch with 24 and a fatal class with 25: FAILGRP takes the number, the gate stays closed, and Camlan is not started; the boot ROM's reading of the order of these writes is the model's (log entry 11). ARM is set only under LOCK with STEST_PASS; once 1 it stays (R69 to R71, R73). -/
def lockAndArm : Prop :=
  (∀ s : State, s.locked = false → s.power.phase = .bootRom → (∀ g, g < 24 → getField s.power.injDone g 1 = 1) →
    s.bit Reg.COX_STATUS 2 = false → s.bit Reg.COX_STATUS 3 = false →
    Does .coxLock s (fun t =>
      t.locked = true ∧ t.bit Reg.COX_STATUS 1 = true ∧ t.bit Reg.COX_STATUS 0 = true ∧ OnlyRegs s t [Reg.COX_STATUS, Reg.COX_CTRL]))
  ∧ (∀ (s : State) (g : Nat), s.locked = false → s.power.phase = .bootRom → g < 24 → getField s.power.injDone g 1 = 0 →
    (∀ h, h < g → getField s.power.injDone h 1 = 1) → exec .coxLock s = .next (s.startTestFail g))
  ∧ (∀ s : State, s.locked = false → s.power.phase = .bootRom → (∀ g, g < 24 → getField s.power.injDone g 1 = 1) →
    s.bit Reg.COX_STATUS 2 = true ∨ s.bit Reg.COX_STATUS 3 = true →
    exec .coxLock s = .next (s.startTestFail (if s.bit Reg.COX_STATUS 2 then 24 else 25)))
  ∧ (∀ (s : State) (n : Nat), n < 32 →
    (s.startTestFail n).fld Reg.COX_STEST 24 5 = n ∧ (s.startTestFail n).bit Reg.COX_STATUS 0 = false
      ∧ (s.startTestFail n).power = { s.power with phase := .stestFault n, bootTimer := false }
      ∧ RegsBut s (s.startTestFail n) [Reg.COX_STEST, Reg.COX_STATUS] ∧ SameMem s (s.startTestFail n)
      ∧ s.startTestFail n = { s with regs := (s.startTestFail n).regs, power := (s.startTestFail n).power })
  ∧ (∀ s : State, s.awake = true → s.locked = true → s.bit Reg.COX_STATUS 1 = true →
    Does .permitArm s (fun t => t.bit Reg.COX_PERMIT 0 = true ∧ OnlyRegs s t [Reg.COX_PERMIT]))
  ∧ ∀ s : State, s.locked = false ∨ s.bit Reg.COX_STATUS 1 = false → exec .permitArm s = .next s

/-- The retained records are released for the next fault by MMINFO.ACK (R63); MMRST_INH takes a value only with a debug session seen in SERVICE (R78). -/
def acknowledgeAndInhibit : Prop :=
  (∀ s : State, s.awake = true → Does .mismatchAck s (fun t => t.ao.coxHeld = false ∧ t = { s with ao := { s.ao with coxHeld := false } }))
  ∧ (∀ (s : State) (v : Bool), s.awake = true → s.bit Reg.DBG_STAT 1 = true → s.lcs = lcsService →
    Does (.mismatchResetInhibit v) s (fun t => t.bit Reg.COX_CTRL 1 = v ∧ OnlyRegs s t [Reg.COX_CTRL]))
  ∧ ∀ (s : State) (v : Bool), s.bit Reg.DBG_STAT 1 = false ∨ s.lcs ≠ lcsService → exec (.mismatchResetInhibit v) s = .next s

/-- A read of class CORRECTED writes the corrected word back; for the Cox or the scrubber it is counted for its memory up to the counter's end, its address is held, and a rowing Camlan logs it; for a Scull it is counted in PART.ECC; more than the configured number in a watch is a cause of easy; a read of class ADDRESS or UNCORRECTABLE sets FATAL, closes the gate, and under LOCK is retained and leads to an ECCFATAL reset (R66, R67, R93). -/
def memoryErrorClasses : Prop :=
  (∀ (s : State) (m : EccMem) (a data check d : Nat), memOf a = some m → eccClass m (wordIndex m a) data check = .corrected d →
    Does (.eccCorrected .cox a data check) s (fun t =>
      t.fld (eccReg m) 0 16 = min (s.fld (eccReg m) 0 16 + 1) 0xFFFF ∧ t.rdN Reg.COX_ECCADDR = a % 2 ^ 32 ∧ t.bit Reg.COX_IRQ 0 = true
        ∧ t.cam = { s.cam with corrected := s.cam.corrected + 1 } ∧ (∀ b, t.rdB b = (s.writeBack m a d).rdB b)
        ∧ RegsBut s t ([eccReg m, Reg.COX_ECCADDR, Reg.COX_IRQ] ++ logRegs 0)
        ∧ t = { s with regs := t.regs, mem := t.mem, cam := t.cam, log := t.log }))
  ∧ (∀ (s : State) (rq : Requester) (m : EccMem) (a data check d : Nat), Requester.scull? rq ≠ none → memOf a = some m →
    eccClass m (wordIndex m a) data check = .corrected d →
    Does (.eccCorrected rq a data check) s (fun t =>
      t.fld Reg.PART_ECC 0 16 = min (s.fld Reg.PART_ECC 0 16 + 1) 0xFFFF ∧ (∀ b, t.rdB b = (s.writeBack m a d).rdB b)
        ∧ RegsBut s t [Reg.PART_ECC] ∧ t = { s with regs := t.regs, mem := t.mem }))
  ∧ (∀ (s : State) (m : EccMem) (a data check : Nat) (pc : Word), s.powered = true → s.locked = true → s.ao.coxHeld = false → memOf a = some m →
    (eccClass m (wordIndex m a) data check).fatal = true →
    Does (.eccFatal a data check pc) s (fun t =>
      t.bit Reg.COX_STATUS 3 = true ∧ gateClosed s t ∧ t.rdN Reg.COX_MMADDR = a % 2 ^ 32 ∧ t.rd Reg.COX_MMPC = pc ∧ t.fld Reg.COX_MMINFO 0 2 = 2
        ∧ t.fld Reg.COX_MMINFO 2 3 = memCode m + (if eccClass m (wordIndex m a) data check = .address then 4 else 0)
        ∧ t.power.faultReset = (if s.resetInhibited || s.power.faultReset.isSome then s.power.faultReset else some 4)
        ∧ RegsBut s t [Reg.COX_STATUS, Reg.PUMP_STAT, Reg.COX_MMGRP, Reg.COX_MMPC, Reg.COX_MMSTROKE, Reg.COX_MMINFO, Reg.COX_MMADDR] ∧ SameMem s t
        ∧ t = { s with regs := t.regs, stk := t.stk, ctr := t.ctr, ao := t.ao, power := t.power }))
  ∧ (∀ s : State, s.power.faultReset = some 4 → exec .eccFatalReset s = .next (s.assertReset 4))
  ∧ ∀ s : State, s.rowing = true → s.cam.state ≠ .easy → s.acts = .idle → s.parI .coxEccCorrMax < s.cam.corrected →
    Does .eccCorrLimit s (fun t => t.cam.state = .easy ∧ t.cam.easyCauses = [0x13])

/-! Resets and start-up (R109 to R123, R415) -/

/-- What every reset other than the power-on reset leaves (R113, R115, R117, R154): its cause in LAST and CAUSE, the count of resets; the survivors (always-on domain, retained COX records, eflash, tag EEPROM and fuses) read as before and every other register its reset value, so that every output is off; the CCA converts at its normal rate; the non-volatile store stays, and the memories but for a sector whose erase was cut off. KPA registers other than CTRL and STAT count as the KPA's state (log entry 8). Where the manual leaves a point open, the model's choice of log entry 3 stands. -/
def Obligations.WhatAResetLeaves : Prop :=
  ∀ (s : State) (cause : Nat), 1 ≤ cause → cause ≤ 9 →
    (s.assertReset cause).fld Reg.RST_LAST 0 4 = cause ∧ (s.assertReset cause).bit Reg.RST_CAUSE cause = true
    ∧ (∀ c, c < 32 → s.bit Reg.RST_CAUSE c = true → (s.assertReset cause).bit Reg.RST_CAUSE c = true)
    ∧ (s.assertReset cause).fld Reg.RST_COUNT 0 16 = min (s.fld Reg.RST_COUNT 0 16 + 1) 0xFFFF
    ∧ (∀ a, keptReg a = true → a ∉ [Reg.RST_LAST, Reg.RST_CAUSE, Reg.RST_COUNT, Reg.KPA_CTRL, Reg.KPA_STAT, Reg.COX_MMINFO, Reg.CCA_STAT] →
      (s.assertReset cause).rd a = s.rd a)
    ∧ (s.assertReset cause).bit Reg.CCA_STAT 2 = false
    ∧ (∀ a, keptReg a = false → (s.assertReset cause).rd a = regReset a)
    ∧ (∀ a, keptMem a = true → (∀ e, s.tally.op = some (1, e) ∨ s.tally.suspended = some e → a < 0x08000000 + e ∨ 0x08000000 + e + 0x2000 ≤ a) →
      (s.assertReset cause).rdB a = s.rdB a)
    ∧ (∀ a, keptMem a = false → (s.assertReset cause).rdB a = memDflt a)
    ∧ (s.assertReset cause).nv = s.nv ∧ (s.assertReset cause).ao = s.ao ∧ (s.assertReset cause).cca = s.cca ∧ (s.assertReset cause).tag = s.tag.kept
    ∧ (s.assertReset cause).power.phase = .held ∧ (s.assertReset cause).pending = s.pending

/-- The power-on reset clears the always-on domain and the retained records too and keeps eflash, the tag EEPROM and the fuses (R117); the wipe starts at the release of either kind of reset (R109, R415), and at its end the boot timer starts, the boot ROM runs and loads the trims held in fuses (R114, R118, R177). Where the manual leaves a point open, the model's choice of log entry 3 stands. -/
def Obligations.PowerOnResetAndReleases : Prop :=
  (∀ s : State, Does .porAssert s (fun t =>
    (∀ a, fuseReg a = true → t.rd a = s.rd a) ∧ (∀ a, fuseReg a = false → t.rd a = regReset a)
      ∧ (∀ a, keptMem a = true → (∀ e, s.tally.op = some (1, e) ∨ s.tally.suspended = some e → a < 0x08000000 + e ∨ 0x08000000 + e + 0x2000 ≤ a) →
        t.rdB a = s.rdB a)
      ∧ (∀ a, keptMem a = false → t.rdB a = memDflt a) ∧ t.nv = s.nv ∧ t.ao = State.reset.ao ∧ t.power.phase = .porHeld ∧ t.pending = s.pending))
  ∧ (∀ s : State, s.power.phase = .porHeld → Does .porRelease s (fun t => t = { s with power := { s.power with phase := .wiping } }))
  ∧ (∀ s : State, s.power.phase = .held → Does .resetRelease s (fun t => t = { s with power := { s.power with phase := .wiping } }))
  ∧ (∀ (s : State) (us : Nat), s.power.phase = .wiping → s.cutRefresh = none →
    Does (.wipeDone us) s (fun t =>
      t.bit Reg.RST_WIPE 0 = true ∧ t.fld Reg.RST_WIPE 16 12 = us % 2 ^ 12 ∧ t.power = { s.power with phase := .bootRom, bootTimer := true }
        ∧ t.meas = { s.meas with dacOfs := (s.nv.trims.ocsOfs, s.nv.trims.bkiOfs) }
        ∧ RegsBut s t ([Reg.RST_WIPE, Reg.DBG_STAT, Reg.CCA_GAIN, Reg.CCA_OFS, Reg.FCS_TRIM, Reg.TMP_REFTRIM] ++ (List.range 6).map Reg.HVS_TRIM)
        ∧ SameMem s t ∧ t = { s with regs := t.regs, power := t.power, meas := t.meas }))
  ∧ ∀ s : State, s.power.phase = .bootRom →
    Does .crystalStartFail s (fun t => t = { s with power := { s.power with phase := .clockFault, bootTimer := false } })

/-- The causes of a reset (Table 5-4): RESET_N low for 10 us or longer always and below 2 us never, a stroke timer without finishes for LIMIT catches, the boot timer, a lost clock, and a write of RST.SOFT with its key after the running sums are committed (R113, R114, R123, R362, R415); BOOT.HOLD stops the boot timer (R114). -/
def resetCauses : Prop :=
  (∀ (s : State) (us : Nat), s.power.phase ≠ .porHeld → s.power.phase ≠ .shipMode → 10 ≤ us → exec (.resetPin us) s = .next (s.assertReset 1))
  ∧ (∀ (s : State) (us : Nat), us < 2 → exec (.resetPin us) s = .next s)
  ∧ (∀ s : State, s.fld Reg.RST_STALL 16 6 ≤ s.fld Reg.RST_STALL 0 6 → exec .stallReset s = .next (s.assertReset 5))
  ∧ (∀ s : State, s.power.bootTimer = true → exec .bootTimerExpire s = .next (s.assertReset 5))
  ∧ (∀ s : State, s.awake = true → Does .bootHold s (fun t => t = { s with power := { s.power with bootTimer := false } }))
  ∧ (∀ s : State, s.bit Reg.CLK_STAT 3 = true → exec .clockLoss s = .next (s.stopFeed.assertReset 6))
  ∧ (∀ s : State, s.awake = true → exec (.softReset 0xA5C30001) s = .next (s.tallyCommit.assertReset 2))
  ∧ (∀ (s : State) (v : Word), getField v.toNat 16 16 ≠ 0xA5C3 ∨ getField v.toNat 0 1 = 0 → exec (.softReset v) s = .next s)
  ∧ (∀ (s : State) (c : ResetCause), s.powered = true → c ≠ .por → exec (.resetAssert c) s = .next (s.assertReset (causeCode c)))

/-- A lost 32.768 kHz crystal sets X32LOSS once, is logged by a Camlan that runs, and causes no reset (R123); the current wake that the CCA has raised ends hibernation with a reset of cause WAKE, its length being a free value (log entry 9) (R160, R285). -/
def slowClockLossAndCurrentWake : Prop :=
  (∀ s : State, s.ao.x32lost = false →
    Does .x32Loss s (fun t =>
      t.bit Reg.CLK_STAT 8 = true ∧ t.bit Reg.CLK_STAT 2 = false ∧ t.ao = { s.ao with x32lost := true } ∧ t.power = s.power
        ∧ RegsBut s t (Reg.CLK_STAT :: logRegs 0) ∧ SameMem s t ∧ t = { s with regs := t.regs, ao := t.ao, log := t.log }))
  ∧ (∀ s : State, s.power.phase = .hibernating → s.bit Reg.CCA_IRQ 0 = true →
    Does .currentWake s (fun t =>
      t.power.phase = .held ∧ t.power.wakeSrc = 1 ∧ t.fld Reg.RST_LAST 0 4 = 7 ∧ t.bit Reg.RST_CAUSE 7 = true ∧ t.nv = s.nv
        ∧ t.ao.us = s.ao.us + t.power.sleptS * 1000000))
  ∧ ∀ s : State, s.bit Reg.CCA_IRQ 0 = false → exec .currentWake s = .next s

/-- The rows that are an access of a requester. -/
def requesterRow : Instr → Bool
  | .strokeTrim .. | .heatRestart .. | .agreementDemand .. | .injectDifference .. | .injectClear .. | .permitArm .. | .mismatchAck ..
  | .mismatchResetInhibit .. | .bootHold .. | .eventSet .. | .slotSwapRequest .. | .scullEnable .. | .grantWrite .. | .vocNow .. | .chargerStop ..
  | .chargerStart .. | .chargerClear .. | .auxClear .. | .shipEnter .. | .ccaLiveRead .. | .captureTrigger .. | .captureArm .. | .captureRead ..
  | .fcsSelfTest .. | .hvsTest .. | .chainSubmit .. | .radioSubmit .. | .calibrateNow .. | .grantQueue .. | .pumpSkip .. | .snapTest .. | .mdiGo ..
  | .mdiStop .. | .windowSelect .. | .windowCommit .. | .txRequest .. | .txAbort .. | .logSubmit .. | .logCursorLoad .. | .logWindowAdvance ..
  | .logBookRelease .. | .efcProgram .. | .efcErase .. | .efcTolerantRead .. | .tagHostStore .. | .tagFlush .. | .tagSemaphoreTake ..
  | .tagSemaphoreRelease .. | .tagWipe .. | .qpPush .. | .xipInvalidate .. | .gpioSet .. | .gpioClr .. | .registerWrite .. | .readClear ..
  | .strokeTimeRead .. | .softReset .. | .coxLock .. | .lcsRequest .. | .secSha256 .. | .secAesEcb .. | .secAesCcm .. | .secAesCmac ..
  | .secEcdsaVerify .. | .secKeyLoad .. | .secKeyGenerate .. | .secRandomRead .. => true
  | _ => false

/-- No requester runs from a reset until its wipe is complete: what a requester would command meanwhile has no effect (R118). -/
def requestersWaitForTheWipe : Prop :=
  (∀ s : State, s.power.phase = .wiping → s.awake = false)
  ∧ ∀ (c : Instr) (s : State), requesterRow c = true → s.awake = false → exec c s = .next s

/-- The code of the memories tells errors apart (R65, R66): what was written reads CLEAN; one wrong data or check bit reads CORRECTED with the data written; one wrong bit of the folded address reads ADDRESS, and two wrong data bits UNCORRECTABLE. The columns of the code are the model's choice (log entry 141). -/
def Obligations.MemoryCodeTellsErrorsApart : Prop :=
  (∀ (m : EccMem) (index data : Nat), index < 2 ^ (codeShape m).2.1 → data < 2 ^ (codeShape m).1 →
    let check := checkBits m index data
    check < 2 ^ (codeShape m).2.2 ∧ eccClass m index data check = .clean
      ∧ (∀ i, i < (codeShape m).1 → eccClass m index (data ^^^ 2 ^ i) check = .corrected data)
      ∧ (∀ j, j < (codeShape m).2.2 → eccClass m index data (check ^^^ 2 ^ j) = .corrected data)
      ∧ (∀ j, j < (codeShape m).2.1 → eccClass m (index ^^^ 2 ^ j) data check = .address)
      ∧ (∀ i j, i < (codeShape m).1 → j < (codeShape m).1 → i ≠ j → eccClass m index (data ^^^ 2 ^ i ^^^ 2 ^ j) check = .uncorrectable))
  ∧ ∀ (s : State) (m : EccMem) (a : Nat),
    eccClass m (wordIndex m a) (s.ld (memBase m + wordIndex m a * wordBytes m) (wordBytes m)) (s.storedCheck m a) = .clean

/-- The boot ROM judges the Camlan image after the start test: a failed check leaves the gate closed and the boot timer stopped in the image fault state with the number of the check; a verified image under LOCK starts Camlan; without the pass of the start test neither happens (R115, R116, R121). Camlan starts the stroke timer with the configured period and heat, which stops the boot timer and begins the stake-boat interval; a crew boat starts it when the leader's RUN arrives, or when it has heard no reference (R128, R309, R392). Where the manual leaves a point open, the model's choice of log entries 88 and 108 stands. -/
def Obligations.FromImageToStakeBoat : Prop :=
  (∀ (s : State) (c : ImageCheck) (build bad : Nat), s.power.phase = .bootRom → s.locked = true →
    Does (.imageVerify (some c) build bad) s (fun t =>
      t.bit Reg.COX_STATUS 0 = false ∧ t.power = { s.power with phase := .imageFault (imageCheckNo c), bootTimer := false }
        ∧ RegsBut s t [Reg.COX_STATUS, Reg.LCS_STATE, Reg.LCS_STAT, Reg.LCS_WIPESET, Reg.LCS_TCOUNT] ∧ SameMem s t
        ∧ t = { s with regs := t.regs, power := t.power, nv := { s.nv with lcsRec := t.nv.lcsRec, pendingLcs := t.nv.pendingLcs } }))
  ∧ (∀ (s : State) (build bad : Nat), s.power.phase = .bootRom → s.locked = true →
    exec (.imageVerify none build bad) s = .next ((s.lcsCopies bad).startCamlan build))
  ∧ (∀ (s : State) (failed : Option ImageCheck) (build bad : Nat), s.power.phase = .bootRom → s.locked = false →
    (s.lcsCopies bad).startTestEnd.locked = false → exec (.imageVerify failed build bad) s = .next (s.lcsCopies bad).startTestEnd)
  ∧ (∀ (s : State) (jedec : Nat), s.camlanOn = true → s.running = false → s.cam.state = .idle →
    Does (.strokeTimerStart jedec) s (fun t => t.running = true ∧ t.cam.state = .stake ∧ t.power.bootTimer = false))
  ∧ (∀ (s : State) (jedec : Nat), s.camlanOn = true → s.running = false → s.cam.state = .idle → s.bit (Reg.CAN_CTRL 1) 9 = true →
    Does (.armRun jedec) s (fun t => t.running = true ∧ t.cam.state = .stake ∧ t.power.bootTimer = false))
  ∧ (∀ (s : State) (jedec : Nat), s.camlanOn = true → s.running = false → s.cam.state = .idle → s.parS .crewEnable = 1 → s.crew.heardRef = false →
    s.bit (Reg.CAN_CTRL 1) 9 = false → Does (.crewListenEnd jedec) s (fun t => t.running = true ∧ t.cam.state = .stake))
  ∧ ∀ s : State, s.camlanOn = true → s.cam.state = .stake → s.stk.started = true → s.watchLen ≤ s.strokeNo →
    Does .stakeBoatEnd s (fun t => t.cam.state = .run ∨ t.cam.state = .easy)

/-! The stroke (R26 to R40, R53 to R55, R114) -/

/-- The points of the stroke at 70, 90 and 95 % of the period each raise their interrupt bit (R26); the finish deadline changes nothing else, the recovery tail also scrubs 1,024 bytes onward around 384 KiB (R68), and the gather deadline ends what the chain and the radio still await. -/
def strokePointsRaiseTheirBits : Prop :=
  (∀ s : State, s.rows = true →
    Does .finishDeadline s (fun t =>
      t.bit Reg.STK_IRQ 2 = true ∧ t.us = max s.us (s.point 90) % 2 ^ 15 ∧ OnlyRegs s t [Reg.STK_PHASE, Reg.STK_IRQ]))
  ∧ (∀ s : State, s.rows = true →
    Does .recoveryTail s (fun t =>
      t.bit Reg.STK_IRQ 3 = true ∧ t.us = max s.us (s.point 95) % 2 ^ 15 ∧ t.fld Reg.COX_SCRUB 2 17 = (s.fld Reg.COX_SCRUB 2 17 + 256) % 98304
        ∧ OnlyRegs s t [Reg.STK_PHASE, Reg.STK_IRQ, Reg.COX_SCRUB]))
  ∧ ∀ s : State, s.rows = true →
    ∃ u : State, exec .gatherDeadline s = .next (u.chainDeadline.radioQuiet) ∧ u.bit Reg.STK_IRQ 1 = true ∧ u.us = max s.us (s.point 70) % 2 ^ 15
      ∧ OnlyRegs s u [Reg.STK_PHASE, Reg.STK_IRQ]

/-- A trim is held to −64 to +63 us in the 8 bits of STK.TRIM, read in two's complement (R27, Table 2-9); HRESTART is remembered for the next catch (R35). -/
def trimSaturatesAndHeatRestarts : Prop :=
  (∀ (s : State) (v : Int), s.awake = true →
    Does (.strokeTrim v) s (fun t => signed 8 (t.fld Reg.STK_TRIM 0 8) = min (max v (-64)) 63 ∧ OnlyRegs s t [Reg.STK_TRIM]))
  ∧ ∀ s : State, s.awake = true → Does .heatRestart s (fun t => t = { s with stk := { s.stk with hrestart := true } })

/-- A demand while BUSY is ignored and sets LOST; otherwise it is taken, and its end leaves DONE set, BUSY clear and the stamp of the sampling (R39). -/
def demandBankHandshake : Prop :=
  (∀ (s : State) (mask : Nat), s.awake = true → s.bit Reg.AGR_DSTAT 0 = true →
    Does (.agreementDemand mask) s (fun t => t.bit Reg.AGR_DSTAT 2 = true ∧ t.bit Reg.AGR_DSTAT 0 = true ∧ t.stk = s.stk ∧ OnlyRegs s t [Reg.AGR_DSTAT]))
  ∧ (∀ (s : State) (mask : Nat), s.awake = true → s.bit Reg.AGR_DSTAT 0 = false →
    Does (.agreementDemand mask) s (fun t =>
      t.bit Reg.AGR_DSTAT 0 = true ∧ t.stk.demand = mask % 256 ∧ RegsBut s t [Reg.AGR_DSTAT] ∧ SameMem s t
        ∧ t = { s with regs := t.regs, stk := { s.stk with demand := mask % 256 } }))
  ∧ (∀ (s : State) (us fb : Nat), s.bit Reg.AGR_DSTAT 0 = true → us < 2 ^ 15 → s.stk.demand = 0x01 →
    Does (.demandDone us fb) s (fun t =>
      t.bit Reg.AGR_DSTAT 0 = false ∧ t.bit Reg.AGR_DSTAT 1 = true ∧ t.rdN Reg.AGR_DSTAMP = (s.stk.base + us) % 2 ^ 48 % 2 ^ 32
        ∧ t.rdN (Reg.AGR_D_BANK 0) = s.fbBank fb % 2 ^ 32
        ∧ OnlyRegs s t [Reg.STK_PHASE, Reg.AGR_DSTAT, Reg.AGR_DSTAMP, Reg.AGR_D_BANK 0]))
  ∧ ∀ (s : State) (us fb : Nat), s.bit Reg.AGR_DSTAT 0 = false → exec (.demandDone us fb) s = .next s

/-- The first finish of a stroke written at or before the deadline is clean: it passes the permit, ends the run of crabs, and clears the stall counter as every write does (R31, R114); what Camlan does at its finish follows. A later write in the stroke only clears the stall counter. -/
def finishDecidesTheStroke : Prop :=
  (∀ (s : State) (us : Nat), s.rows = true → us < 2 ^ 15 → s.stk.finWritten = false → s.stk.crabbed = false → us ≤ s.point 90 →
    ∃ u : State, exec (.finish us) s = .next (if s.camlanOn then u.camlanFinish true else u)
      ∧ u.fld Reg.RST_STALL 0 6 = 0 ∧ u.bit Reg.STK_STAT 0 = true ∧ u.fld Reg.STK_STAT 4 2 = 0 ∧ u.us = us
      ∧ u.stk = { s.stk with finWritten := true, finUs := some us, permit := true } ∧ u.ctr = { s.ctr with clean := s.ctr.clean + 1 }
      ∧ u.cam.state = (if s.cam.state = .crab1 then .run else s.cam.state)
      ∧ RegsBut s u [Reg.STK_PHASE, Reg.RST_STALL, Reg.STK_STAT] ∧ SameMem s u)
  ∧ (∀ (s : State) (us : Nat), s.rows = true → us < 2 ^ 15 → s.stk.finWritten = false → s.point 90 < us →
    ∃ u : State, exec (.finish us) s = .next (if s.camlanOn then u.camlanFinish false else u)
      ∧ u.fld Reg.RST_STALL 0 6 = 0 ∧ u.stk = { s.stk with finWritten := true, finUs := some us } ∧ u.cam = s.cam
      ∧ RegsBut s u [Reg.STK_PHASE, Reg.RST_STALL] ∧ SameMem s u)
  ∧ ∀ (s : State) (us : Nat), s.rows = true → us < 2 ^ 15 → s.stk.finWritten = true →
    Does (.finish us) s (fun t => t.fld Reg.RST_STALL 0 6 = 0 ∧ t.us = us ∧ OnlyRegs s t [Reg.STK_PHASE, Reg.RST_STALL])

/-- A Cox crab sets CRAB, raises the count of consecutive crabs to at most 3 and the crab counter to at most 65,535, withholds the permit, asks for easy at the second in a row, and puts a Camlan in RUN into CRAB1 (R31, R53, R54); after a clean finish or a crab already counted nothing happens. -/
def crabIsCountedOnce : Prop :=
  (∀ s : State, s.rows = true → s.bit Reg.STK_STAT 0 = false → s.stk.crabbed = false →
    Does .coxCrab s (fun t =>
      t.bit Reg.STK_STAT 1 = true ∧ t.fld Reg.STK_STAT 4 2 = min (s.fld Reg.STK_STAT 4 2 + 1) 3
        ∧ t.fld Reg.STK_CRABCNT 0 16 = min (s.fld Reg.STK_CRABCNT 0 16 + 1) 0xFFFF ∧ (s.fld Reg.STK_STAT 4 2 = 1 → t.bit Reg.STK_STAT 8 = true)
        ∧ t.stk = { s.stk with permit := false, crabbed := true }
        ∧ t.cam = { s.cam with state := if s.camlanOn && decide (s.cam.state = .run) then .crab1 else s.cam.state, quietSince := none }
        ∧ RegsBut s t [Reg.STK_STAT, Reg.STK_CRABCNT] ∧ SameMem s t ∧ t = { s with regs := t.regs, stk := t.stk, cam := t.cam }))
  ∧ ∀ s : State, s.bit Reg.STK_STAT 0 = true ∨ s.stk.crabbed = true → exec .coxCrab s = .next s

/-- Easy entered because of crabs alone is left by itself after `easy.autoclear` quiet seconds, unless that is 0, fewer than `easy.autoclear_max` times in 24 hours, with a record and a notice (R55). -/
def easyClearsItselfAfterCrabs : Prop :=
  (∀ (s : State) (q : Nat), s.cam.state = .easy → (∀ c ∈ s.cam.easyCauses, c = 1) → s.cam.quietSince = some q → s.parI .easyAutoclear ≠ 0 →
    q + s.parI .easyAutoclear * 1000000 ≤ s.clock → (within s.clock hours24 s.cam.autoclears).length < s.parI .easyAutoclearMax →
    Does .easyAutoclear s (fun t =>
      t.cam.state = .run ∧ t.cam.easyCauses = [] ∧ t.cam.autoclears = within s.clock hours24 s.cam.autoclears ++ [s.clock]
        ∧ RegsBut s t (logRegs 0) ∧ SameMem s t ∧ t = { s with regs := t.regs, cam := t.cam, log := t.log, con0 := t.con0, con1 := t.con1 }))
  ∧ ∀ s : State, s.inEasy = false ∨ (∃ c ∈ s.cam.easyCauses, c ≠ 1) ∨ s.parI .easyAutoclear = 0 → exec .easyAutoclear s = .next s

/-- At a catch after the first the stroke number goes up by 1 modulo 2^32, the time base by the length of the ended stroke modulo 2^48, the heat phase by 1 modulo the heat (0 after HRESTART), the written trim takes effect, and the position in the watch by 1 modulo its length (R27, R28, R29, R35, R37); of a crabbed stroke neither a trim nor a restart takes effect (R53); at the first catch all of them are 0. The inputs are then sampled into the catch bank, the hardware acts, and a Camlan that runs resolves the ended stroke (R30). A watch begins where the position is 0. -/
def Obligations.CatchAdvancesTheStroke : Prop :=
  (∀ (s : State) (inp : CatchIn), s.powered = true → s.running = true → s.stk.started = true →
    ∃ u v : State, exec (.catchPoint inp) s = .next (if v.camlanOn then v.camlanCatch false s.ctr.skip s.strokeNo s.stk.finUs inp else v)
      ∧ v = ((u.catchBank inp.fb).catchSense inp).hardwareCatch false
      ∧ u.strokeNo = (s.strokeNo + 1) % 2 ^ 32 ∧ u.us = 0 ∧ u.now = (s.stk.base + ((s.period : Int) + s.stk.trimNow).toNat) % 2 ^ 48
      ∧ u.fld Reg.STK_POS 0 4 = (if s.stk.hrestart && s.bit Reg.STK_STAT 0 && !s.stk.crabbed then 0 else (s.fld Reg.STK_POS 0 4 + 1) % s.heat % 16)
      ∧ u.fld Reg.STK_POS 16 9 = (s.fld Reg.STK_POS 16 9 + 1) % s.watchLen ∧ u.bit Reg.STK_IRQ 0 = true ∧ u.bit Reg.STK_STAT 0 = false
      ∧ u.stk.trimNow = (if s.bit Reg.STK_STAT 0 && !s.stk.crabbed then signed 8 (s.fld Reg.STK_TRIM 0 8) else 0)
      ∧ u.stk.finWritten = false ∧ u.stk.crabbed = false ∧ u.stk.prevCrab = (!s.bit Reg.STK_STAT 0 || s.stk.crabbed))
  ∧ (∀ (s : State) (inp : CatchIn), s.powered = true → s.running = true → s.stk.started = false →
    ∃ u v : State, exec (.catchPoint inp) s = .next (if v.camlanOn then v.camlanCatch true s.ctr.skip s.strokeNo s.stk.finUs inp else v)
      ∧ v = ((u.catchBank inp.fb).catchSense inp).hardwareCatch true
      ∧ u.strokeNo = 0 ∧ u.now = 0 ∧ u.fld Reg.STK_POS 0 4 = 0 ∧ u.fld Reg.STK_POS 16 9 = 0 ∧ u.stk.started = true)
  ∧ ∀ s : State, s.rows = true → s.fld Reg.STK_POS 16 9 = 0 → s.us = 0 →
    ∃ u v : State, exec .watch s = .next (if v.camlanOn then v.chainWatch.hopWatch.camlanWatch else v)
      ∧ v = u.canWatch.chop.swapBanks.chargeWatch.logWatch ∧ u.bit Reg.STK_IRQ 4 = true ∧ OnlyRegs s u [Reg.STK_IRQ]

/-! Sculls and tenant partitions (R56, R82 to R106) -/

/-- What a monitor call of partition k on Scull sc may change: that context, and the listed registers. -/
def callFrame (s t : State) (sc k : Nat) (l : List Nat) : Prop :=
  RegsBut s t l ∧ SameMem s t ∧ (∀ i, i ≠ sc * 8 + k → Tab.get Ctx.init t.ctxs i = Tab.get Ctx.init s.ctxs i)

/-- YIELD ends the slot cleanly and resets the crab count; WAIT returns at once with the pending events of its mask, which it clears, and blocks otherwise; INFO returns Scull, slot, stroke and the time left; a call number above 5 returns −1 (R82, Table 4-1). -/
def monitorCallsYieldWaitInfo : Prop :=
  (∀ (s : State) (sc k : Nat), s.caller sc = some k → sc < 4 →
    Does (.monitorYield sc) s (fun t =>
      (t.scull sc).yielded = true ∧ t.crabs k = 0 ∧ (t.ctx sc k).a0 = 0 ∧ callFrame s t sc k [Reg.PART_STATE (k - 1), Reg.PART_SCULLST]
        ∧ t = { s with regs := t.regs, sculls := t.sculls, ctxs := t.ctxs }))
  ∧ (∀ (s : State) (sc k mask : Nat), s.caller sc = some k → (s.evp k &&& mask) ≠ 0 →
    Does (.monitorWait sc mask) s (fun t =>
      (t.ctx sc k).a0 = ((s.evp k &&& mask : Nat) : Int) ∧ (∀ b, b < 12 → t.bit (Reg.PART_EVP (k - 1)) b = (s.bit (Reg.PART_EVP (k - 1)) b && !mask.testBit b))
        ∧ callFrame s t sc k [Reg.PART_EVP (k - 1)] ∧ t = { s with regs := t.regs, ctxs := t.ctxs }))
  ∧ (∀ (s : State) (sc k mask : Nat), s.caller sc = some k → (s.evp k &&& mask) = 0 →
    Does (.monitorWait sc mask) s (fun t => (t.ctx sc k).wait = some mask ∧ callFrame s t sc k [] ∧ t = { s with ctxs := t.ctxs }))
  ∧ (∀ (s : State) (sc k us : Nat), s.caller sc = some k →
    Does (.monitorInfo sc us) s (fun t =>
      (t.ctx sc k).a0 = (sc : Int) ∧ (t.ctx sc k).a1 = (s.scull sc).slot.getD 0 ∧ (t.ctx sc k).a2 = s.strokeNo
        ∧ (t.ctx sc k).a3 = (s.scull sc).start + (s.scull sc).len - us ∧ callFrame s t sc k [] ∧ t = { s with ctxs := t.ctxs }))
  ∧ ∀ (s : State) (sc k call : Nat), s.caller sc = some k → 6 ≤ call →
    Does (.monitorUnknownCall sc call) s (fun t => (t.ctx sc k).a0 = -1 ∧ callFrame s t sc k [] ∧ t = { s with ctxs := t.ctxs })

/-- SETVEC takes a 4-byte aligned handler in the partition's own image or quota, 0 disables it, any other address returns −2; EVRET gives the interrupted context its a0 to a3 back, and the WAIT it was blocked in, and unmasks events; LOG returns −2 for a code outside 0x8000 to 0xFFFE and −3 without the LOG grant, and otherwise submits one record to the partition's own book (R82, R83, R349). -/
def monitorCallsSetvecEvretLog : Prop :=
  (∀ (s : State) (sc k h mask : Nat), s.caller sc = some k → h ≠ 0 → h % 4 = 0 → s.ownCode k h = true →
    Does (.monitorSetvec sc h mask) s (fun t =>
      (t.part k).handler = h ∧ (t.part k).hmask = mask ∧ (t.ctx sc k).a0 = 0 ∧ callFrame s t sc k [] ∧ t = { s with parts := t.parts, ctxs := t.ctxs }))
  ∧ (∀ (s : State) (sc k mask : Nat), s.caller sc = some k →
    Does (.monitorSetvec sc 0 mask) s (fun t =>
      (t.part k).handler = 0 ∧ (t.ctx sc k).a0 = 0 ∧ callFrame s t sc k [] ∧ t = { s with parts := t.parts, ctxs := t.ctxs }))
  ∧ (∀ (s : State) (sc k h mask : Nat), s.caller sc = some k → h ≠ 0 → h % 4 ≠ 0 ∨ s.ownCode k h = false →
    Does (.monitorSetvec sc h mask) s (fun t => (t.ctx sc k).a0 = -2 ∧ t.parts = s.parts ∧ callFrame s t sc k [] ∧ t = { s with ctxs := t.ctxs }))
  ∧ (∀ (s : State) (sc k : Nat), s.caller sc = some k → (s.ctx sc k).inHandler = true →
    Does (.monitorEvret sc) s (fun t =>
      t.ctx sc k = { s.ctx sc k with inHandler := false, a0 := (s.ctx sc k).saved, a1 := (s.ctx sc k).saved1, a2 := (s.ctx sc k).saved2,
                                        a3 := (s.ctx sc k).saved3, wait := (s.ctx sc k).savedWait } ∧ (t.part k).masked = false ∧ callFrame s t sc k []
        ∧ t = { s with parts := t.parts, ctxs := t.ctxs }))
  ∧ (∀ (s : State) (sc k code sev a2 a3 : Nat), s.caller sc = some k → code < 0x8000 ∨ 0xFFFE < code →
    Does (.monitorLog sc code sev a2 a3) s (fun t => (t.ctx sc k).a0 = -2 ∧ t.log = s.log ∧ callFrame s t sc k [] ∧ t = { s with ctxs := t.ctxs }))
  ∧ (∀ (s : State) (sc k code sev a2 a3 : Nat), s.caller sc = some k → 0x8000 ≤ code → code ≤ 0xFFFE → s.granted k .misc 4 = false →
    Does (.monitorLog sc code sev a2 a3) s (fun t => (t.ctx sc k).a0 = -3 ∧ t.log = s.log ∧ callFrame s t sc k [] ∧ t = { s with ctxs := t.ctxs }))
  ∧ ∀ (s : State) (sc k code sev a2 a3 : Nat), s.caller sc = some k → 0x8000 ≤ code → code ≤ 0xFFFE → s.granted k .misc 4 = true →
    Does (.monitorLog sc code sev a2 a3) s (fun t =>
      t.log = (s.submit (s.unitOf (1 + k) code (0x20 + k) (min 3 sev + 32) (u32 a2 ++ u32 a3))).2.log
        ∧ (t.ctx sc k).a0 = (if (s.submit (s.unitOf (1 + k) code (0x20 + k) (min 3 sev + 32) (u32 a2 ++ u32 a3))).1 ≤ 1 then 0 else -3)
        ∧ callFrame s t sc k (logRegs (1 + k)) ∧ t = { s with regs := t.regs, log := t.log, ctxs := t.ctxs })

/-- Events set through PART.EVSET join those pending; a waiting context takes the awaited ones, else a registered handler is entered with its events, over a WAIT too, which are cleared and masked until EVRET (R83). Which of the two comes first is the model's choice (log entry 133). -/
def tenantEvents : Prop :=
  (∀ (s : State) (v : Word), s.awake = true → getField v.toNat 0 3 ≠ 0 →
    Does (.eventSet v) s (fun t =>
      (∀ b, b < 12 → t.bit (Reg.PART_EVP (getField v.toNat 0 3 - 1)) b = (s.bit (Reg.PART_EVP (getField v.toNat 0 3 - 1)) b || v.toNat.testBit (16 + b)))
        ∧ OnlyRegs s t [Reg.PART_EVP (getField v.toNat 0 3 - 1)]))
  ∧ (∀ (s : State) (sc idx k mask : Nat), (s.scull sc).slot = some idx → (s.scull sc).part = k → 1 ≤ k → k ≤ 7 → (s.scull sc).yielded = false →
    (s.ctx sc k).wait = some mask → (s.evp k &&& mask) ≠ 0 →
    Does (.eventDelivery sc) s (fun t =>
      (t.ctx sc k).wait = none ∧ (t.ctx sc k).a0 = ((s.evp k &&& mask : Nat) : Int)
        ∧ (∀ b, b < 12 → t.bit (Reg.PART_EVP (k - 1)) b = (s.bit (Reg.PART_EVP (k - 1)) b && !mask.testBit b))
        ∧ callFrame s t sc k [Reg.PART_EVP (k - 1)] ∧ t = { s with regs := t.regs, ctxs := t.ctxs }))
  ∧ ∀ (s : State) (sc idx k : Nat), (s.scull sc).slot = some idx → (s.scull sc).part = k → 1 ≤ k → k ≤ 7 → (s.scull sc).yielded = false →
    (s.evp k &&& (s.ctx sc k).wait.getD 0) = 0 → (s.part k).handler ≠ 0 → (s.part k).masked = false → (s.evp k &&& (s.part k).hmask) ≠ 0 →
    Does (.eventDelivery sc) s (fun t =>
      t.ctx sc k = { s.ctx sc k with inHandler := true, saved := (s.ctx sc k).a0, saved1 := (s.ctx sc k).a1, saved2 := (s.ctx sc k).a2,
                                      saved3 := (s.ctx sc k).a3, savedWait := (s.ctx sc k).wait, wait := none, a0 := ((s.evp k &&& (s.part k).hmask : Nat) : Int) }
        ∧ (∀ b, b < 12 → t.bit (Reg.PART_EVP (k - 1)) b = (s.bit (Reg.PART_EVP (k - 1)) b && !(s.part k).hmask.testBit b))
        ∧ (t.part k).masked = true ∧ callFrame s t sc k [Reg.PART_EVP (k - 1)] ∧ t = { s with regs := t.regs, parts := t.parts, ctxs := t.ctxs })

/-- A slot of a running partition starts with the entry of the active bank, with the PMP of Table 4-3, empty caches and the grants of the partition's page (R85, R88, R90); at its end a yield, or a context blocked in WAIT, makes it clean and clears the crab count, anything else is charged one tenant crab up to 3 and logged with 0x0210 (R56); an exchange of the banks is remembered (R86); Sculls are only started, never stopped, by ENABLE (R102). -/
def slotsAndSculls : Prop :=
  (∀ (s : State) (sc idx : Nat), sc < 4 → idx < 16 → s.bit (Reg.PART_SLOTB (slotIdx s.bank sc idx)) 31 = true → s.bit Reg.PART_CTRL sc = true →
    s.bit Reg.PART_SCULLST (8 * sc + 4) = false → s.fld (Reg.PART_SLOTB (slotIdx s.bank sc idx)) 0 3 ≠ 0 →
    s.partState (s.fld (Reg.PART_SLOTB (slotIdx s.bank sc idx)) 0 3) = pRunning →
    Does (.slotStart sc idx) s (fun t =>
      t.scull sc = { s.scull sc with
          slot := some idx, part := s.fld (Reg.PART_SLOTB (slotIdx s.bank sc idx)) 0 3, yielded := false,
          start := s.fld (Reg.PART_SLOTA (slotIdx s.bank sc idx)) 0 15, len := s.fld (Reg.PART_SLOTA (slotIdx s.bank sc idx)) 16 15,
          pmp := s.pmpOf (s.fld (Reg.PART_SLOTB (slotIdx s.bank sc idx)) 0 3), icache := [], dcache := [] }
        ∧ (∀ r, t.grant (t.scull sc).part r = s.rdN (grantAddr (t.scull sc).part r)) ∧ SameMem s t ∧ t.nv = s.nv))
  ∧ (∀ (s : State) (sc idx : Nat), (s.scull sc).slot = some idx → sc < 4 → 1 ≤ (s.scull sc).part → (s.scull sc).part ≤ 7 →
    (s.scull sc).yielded = true ∨ (s.ctx sc (s.scull sc).part).wait ≠ none →
    Does (.slotEnd sc) s (fun t =>
      t.scull sc = (s.scull sc).ended ∧ t.crabs (s.scull sc).part = 0 ∧ RegsBut s t [Reg.PART_SCULLST, Reg.PART_STATE ((s.scull sc).part - 1)] ∧ SameMem s t
        ∧ t = { s with regs := t.regs, sculls := t.sculls }))
  ∧ (∀ (s : State) (sc idx : Nat), (s.scull sc).slot = some idx → sc < 4 → 1 ≤ (s.scull sc).part → (s.scull sc).part ≤ 7 →
    (s.scull sc).yielded = false → (s.ctx sc (s.scull sc).part).wait = none →
    Does (.slotEnd sc) s (fun t =>
      t.scull sc = (s.scull sc).ended ∧ t.crabs (s.scull sc).part = min 3 (s.crabs (s.scull sc).part + 1) ∧ t.bit Reg.PART_IRQ (8 + (s.scull sc).part) = true
        ∧ RegsBut s t ([Reg.PART_SCULLST, Reg.PART_STATE ((s.scull sc).part - 1), Reg.PART_IRQ] ++ logRegs 0 ++ logRegs (1 + (s.scull sc).part))
        ∧ SameMem s t ∧ t = { s with regs := t.regs, sculls := t.sculls, log := t.log }))
  ∧ (∀ s : State, s.awake = true → Does .slotSwapRequest s (fun t => t = { s with stk := { s.stk with swapReq := true } }))
  ∧ ∀ (s : State) (mask : Nat), s.awake = true →
    Does (.scullEnable mask) s (fun t =>
      (∀ b, b < 32 → t.bit Reg.PART_CTRL b = (s.bit Reg.PART_CTRL b || (decide (b < 4) && mask.testBit b))) ∧ OnlyRegs s t [Reg.PART_CTRL])

/-- A grant that names a CAN object of Camlan, or a bit another partition holds, is ignored and sets GERR; any other is written to the page, reserved bits without effect (R8, R90). A partition with three tenant crabs is suspended with cause 0x01 (R56); an access that the PMP does not permit is recorded, and that and every exception from user mode other than an ECALL is logged with 0x0403 and suspends, with cause 0x02 for an access fault and 0x03 otherwise (R88, R91, R92); a Scull fault halts its Scull (R94); a partition suspended with a resumable cause resumes by itself while its count of 24 hours allows (R106). -/
def grantsAndFaults : Prop :=
  (∀ (s : State) (k : Nat) (v : Word), s.awake = true → 1 ≤ k → k ≤ 7 → (∀ j, 1 ≤ j → j ≤ 7 → j ≠ k → s.rdN (Reg.PART_GR_GPIO (j - 1)) &&& v.toNat = 0) →
    Does (.grantWrite k .gpio v) s (fun t => t.rd (Reg.PART_GR_GPIO (k - 1)) = v ∧ OnlyRegs s t [Reg.PART_GR_GPIO (k - 1)]))
  ∧ (∀ (s : State) (k : Nat) (v : Word), s.awake = true → 1 ≤ k → k ≤ 7 → (∀ j, 1 ≤ j → j ≤ 7 → j ≠ k → s.rdN (Reg.PART_GR_MISC (j - 1)) &&& (v.toNat &&& 0xF) = 0) →
    Does (.grantWrite k .misc v) s (fun t => t.rdN (Reg.PART_GR_MISC (k - 1)) = v.toNat % 32 ∧ OnlyRegs s t [Reg.PART_GR_MISC (k - 1)]))
  ∧ (∀ (s : State) (k j : Nat) (v : Word), s.awake = true → 1 ≤ k → k ≤ 7 → 1 ≤ j → j ≤ 7 → j ≠ k → s.rdN (Reg.PART_GR_GPIO (j - 1)) &&& v.toNat ≠ 0 →
    Does (.grantWrite k .gpio v) s (fun t => t.bit Reg.PART_CTRL 10 = true ∧ OnlyRegs s t [Reg.PART_CTRL]))
  ∧ (∀ (s : State) (k : Nat) (r : GrantReg) (v : Word), s.awake = true → 1 ≤ k → k ≤ 7 → v.toNat &&& grantBitsOf r &&& grantCamlan r ≠ 0 →
    Does (.grantWrite k r v) s (fun t => t.bit Reg.PART_CTRL 10 = true ∧ OnlyRegs s t [Reg.PART_CTRL]))
  ∧ (∀ (s : State) (k : Nat), 1 ≤ k → k ≤ 7 → s.partState k = pRunning → 3 ≤ s.crabs k → exec (.tenantCrabLimit k) s = .next (s.suspend k 0x01))
  ∧ (∀ (s : State) (k : Nat), s.crabs k < 3 → exec (.tenantCrabLimit k) s = .next s)
  ∧ (∀ (s : State) (sc k mcause mepc mtval : Nat), s.tenantOn sc = some k → mcause ≠ 8 →
    exec (.partitionFault sc (.exception mcause mepc mtval)) s
      = .next (s.partFault k (if mcause = 1 ∨ mcause = 5 ∨ mcause = 7 then 0x02 else 0x03) mcause mepc mtval))
  ∧ (∀ (s : State) (sc k a mepc : Nat) (acc : Access), s.tenantOn sc = some k → s.pmpPermits sc acc a = false →
    exec (.partitionFault sc (.access acc a mepc)) s = .next ((s.refusedRecord sc k false (Access.isWrite acc) a).partFault k 0x02 (Access.mcause acc) mepc a))
  ∧ (∀ (s : State) (sc mcause : Nat), sc < 4 → s.bit Reg.PART_SCULLST (8 * sc + 4) = false → s.slotParts sc = [] →
    Does (.scullFault sc mcause) s (fun t => t.bit Reg.PART_SCULLST (8 * sc + 4) = true ∧ OnlyRegsLog s t [Reg.PART_SCULLST]))
  ∧ ∀ (s : State) (k : Nat), 1 ≤ k → k ≤ 7 → s.partState k = pSuspended → 1 ≤ s.partCause k → s.partCause k ≤ 4 → s.parI .partitionAutoresume ≠ 0 →
    (within s.clock hours24 (s.part k).resumes).length < s.parI .partitionAutoresumeMax →
    Does (.autoResume k) s (fun t =>
      t.partState k = pRunning ∧ t.partCause k = 0 ∧ t.crabs k = 0 ∧ (t.part k).resumes = within s.clock hours24 (s.part k).resumes ++ [s.clock] ∧ t.nv = s.nv)

/-- A doorbell with a count of 1 to 32 is stamped and its entries join the order set of the stroke; a count outside that range sets LOST and copies nothing (R97); the end of the copy clears BUSY. A second doorbell of the set is LOST and logged (R98). -/
def doorbellStampsItsEntries : Prop :=
  (∀ (s : State) (k us : Nat) (v : Word), 1 ≤ k → k ≤ 7 → s.partState k = pRunning → us < 2 ^ 15 → 1 ≤ v.toNat % 64 → v.toNat % 64 ≤ 32 → (s.part k).bell = none →
    Does (.doorbell k v us) s (fun t =>
      (t.part k).bell = some ((s.stk.base + us) % 2 ^ 48) ∧ t.rdN (Reg.PART_DBSTAMP (k - 1)) = (s.stk.base + us) % 2 ^ 48 % 2 ^ 32
        ∧ t.bit (Reg.PART_DBSTAT (k - 1)) 0 = true ∧ t.fld (Reg.PART_DBSTAT (k - 1)) 8 6 = v.toNat % 64 ∧ t.bit Reg.PART_IRQ k = true
        ∧ t.cam.orders.length = s.cam.orders.length + v.toNat % 64 ∧ t.nv = s.nv))
  ∧ (∀ (s : State) (k us : Nat) (v : Word), 1 ≤ k → k ≤ 7 → s.partState k = pRunning → v.toNat % 64 = 0 ∨ 32 < v.toNat % 64 →
    Does (.doorbell k v us) s (fun t => t.bit (Reg.PART_DBSTAT (k - 1)) 1 = true ∧ t.cam = s.cam ∧ t.parts = s.parts
      ∧ RegsBut s t [Reg.STK_PHASE, Reg.PART_DBSTAT (k - 1)] ∧ (∀ a, a < mailbox k ∨ mailbox k + 4 ≤ a → t.rdB a = s.rdB a)))
  ∧ ∀ (s : State) (k : Nat), 1 ≤ k → k ≤ 7 →
    Does (.doorbellCopyDone k) s (fun t => t.bit (Reg.PART_DBSTAT (k - 1)) 0 = false ∧ OnlyRegs s t [Reg.PART_DBSTAT (k - 1)])

/-- Tenant images are verified one at a time in partition order; one that fails a check of R102 leaves its partition suspended with cause 0x06, logged with 0x0402 and the number of the check; one that passes is held verified with what its header gives, to start at a catch, and is sealed anew where the header found in the flash is not the one its seal needs (R102, R391). The numbers of the checks follow the order of R102, and an image passes exactly where all of them hold. -/
def tenantImageVerification : Prop :=
  (∀ (s : State) (k : Nat) (image header : List Byte), s.verifyTurn = some k →
    Does (.tenantImageVerify k image header) s (fun t =>
      (s.imageCheck k image ≠ 0 →
        t = (s.logS 0x0402 (u8 k ++ u8 (s.imageCheck k image))).suspend k 0x06 ∧ t.partState k = pSuspended ∧ t.partCause k = 0x06 ∧ (t.part k).verified = false)
      ∧ (s.imageCheck k image = 0 → (t.part k).verified = true ∧ (t.part k).version = (imageHeader image).version ∧ (∀ j, j ≠ k → t.part j = s.part j) ∧ SameMem s t)
      ∧ (s.imageCheck k image = 0 →
        header = sealHeader (s.sealKey k) k (imageHeader image).version (imageHeader image).size (imageDigest image) → t = { s with parts := t.parts })))
  ∧ (∀ (s : State) (k : Nat) (image header : List Byte), s.verifyTurn ≠ some k → exec (.tenantImageVerify k image header) s = .next s)
  ∧ (∀ (s : State) (k : Nat) (image : List Byte), (imageHeader image).magic ≠ 0x54504E52 ∨ (imageHeader image).fmt ≠ 1 → s.imageCheck k image = 1)
  ∧ ∀ (s : State) (k : Nat) (image : List Byte), s.imageCheck k image = 0 ↔
    (imageHeader image).magic = 0x54504E52 ∧ (imageHeader image).fmt = 1 ∧ (imageHeader image).part = k
      ∧ ((imageHeader image).ctxMask &&& s.slotMask k) = s.slotMask k ∧ Tab.get 0 s.nv.floors k ≤ (imageHeader image).version
      ∧ (imageHeader image).quotaMin ≤ (s.quotaOf k).2
      ∧ (imageHeader image).dataDst + (imageHeader image).dataSize + (imageHeader image).bssSize ≤ (s.quotaOf k).2
      ∧ Config.sha256 (imageHeader image).pubkey = s.enrolled k
      ∧ Config.ecdsaVerify (imageHeader image).pubkey (imageDigest image) (imageHeader image).signature = true

/-! The Ianel: lines, replies, sessions (R318 to R334, R405 to R410) -/

/-- A line of port p waits under its tag (none for the typed form), and Camlan executes lines of that port: past the stake-boat interval. -/
def lineWaits (s : State) (p : Nat) (tag : Option String) : Prop :=
  s.camlanOn = true ∧ s.conServed p = true ∧ s.starting = false ∧ ∃ rest, (s.con p).ready = tag :: rest

/-- The state once the oldest waiting line of port p is taken for execution. -/
def lineTaken (s : State) (p : Nat) : State := (s.takeLine p).2.noteService p

/-- The lines of a reply as they are queued: all but the last announce that more follow (R325). -/
def replyLines (tag : Option String) (l : List String) : List OutLine :=
  ((List.range l.length).zip l).map (fun e => ⟨tag, decide (e.1 + 1 < l.length), false, false, e.2⟩)

/-- A reply under a tag appends its lines to the port's output in order and ends the command; taking a line removes it from the waiting ones; neither changes anything but that port's console and, at SERVICE level, the time of the last SERVICE command (R325, R410). -/
def repliesAreQueuedInOrder : Prop :=
  (∀ (s : State) (p : Nat) (tag : String) (l : List String), p ≤ 1 → l ≠ [] →
    ((s.say p (some tag) l).con p).out = (s.con p).out ++ replyLines (some tag) l
      ∧ ((s.say p (some tag) l).con p).tags = (s.con p).tags.erase tag
      ∧ (s.say p (some tag) l).con (1 - p) = s.con (1 - p) ∧ s.say p (some tag) l = { s with con0 := (s.say p (some tag) l).con0, con1 := (s.say p (some tag) l).con1 })
  ∧ (∀ (s : State) (p : Nat) (tag : Option String) (rest : List (Option String)), p ≤ 1 → (s.con p).ready = tag :: rest →
    ((lineTaken s p).con p).ready = rest ∧ ((lineTaken s p).con p).level = (s.con p).level ∧ (lineTaken s p).con (1 - p) = s.con (1 - p)
      ∧ (lineTaken s p).cam = { s.cam with svcAt := (lineTaken s p).cam.svcAt }
      ∧ lineTaken s p = { s with cam := (lineTaken s p).cam, con0 := (lineTaken s p).con0, con1 := (lineTaken s p).con1 })
  ∧ ∀ (s : State) (p : Nat) (tag : Option String) (rest : List (Option String)), s.camlanOn = true → s.conServed p = true → s.starting = true →
    (s.con p).ready = tag :: rest → exec (.showStatus p) s = .next ((s.takeLine p).2.say p tag ["starting"])

/-- Every reading command replies with its record of the state and changes nothing else; `show start` also before the end of the stake-boat interval (R130, R334, Table 14-3). -/
def readingCommandsReply : Prop :=
  ∀ (s : State) (p : Nat) (tag : Option String), lineWaits s p tag →
    let u := lineTaken s p
    exec (.showVersion p) s = .next (u.say p tag u.sayVersion) ∧ exec (.showStatus p) s = .next (u.say p tag u.sayStatus)
    ∧ (∀ i, i ≤ 3 → exec (.showString p i) s = .next (u.say p tag (u.sayString i))) ∧ (∀ n, exec (.showSeat p n) s = .next (u.say p tag (u.saySeat n)))
    ∧ exec (.showHelm p) s = .next (u.say p tag u.sayHelm) ∧ exec (.showTicket p) s = .next (u.say p tag u.sayTicket)
    ∧ exec (.showMdi p) s = .next (u.say p tag u.sayMdi) ∧ exec (.showImd p) s = .next (u.say p tag u.sayImd)
    ∧ exec (.showSin p) s = .next (u.say p tag u.saySin) ∧ exec (.showKpa p) s = .next (u.say p tag u.sayKpa)
    ∧ exec (.showPart p) s = .next (u.say p tag u.sayPart) ∧ exec (.showCrew p) s = .next (u.say p tag u.sayCrew)
    ∧ exec (.showChain p) s = .next (u.say p tag u.sayChain) ∧ exec (.showRadio p) s = .next (u.say p tag u.sayRadio)
    ∧ exec (.showReset p) s = .next (u.say p tag u.sayReset) ∧ exec (.showTally p) s = .next (u.say p tag u.sayTally)
    ∧ (∀ us, exec (.showStart p us) s = .next (lineTaken (s.atUs us) p |>.say p tag (lineTaken (s.atUs us) p).sayStart))
    ∧ (∀ keys, keys ≠ [] → exec (.getParam p keys) s = .next (u.say p tag (keys.map (keyText s.nv.confirmed))))
    ∧ exec (.stageCheck p) s = .next (u.say p tag ["stage staged=" ++ toString s.nv.staged.length ++ " check=" ++ checkText s.checkNow])
    ∧ (s.nv.staged ≠ [] → exec (.stageShow p) s = .next (u.say p tag s.stageLines)) ∧ (s.nv.staged = [] → exec (.stageShow p) s = .next (u.say p tag ["ok"]))
    ∧ exec (.stageDump p) s = .next (u.say p tag (dumpLines s.stagedCfg)) ∧ exec (.ping p) s = .next (u.say p tag ["pong"])
    ∧ exec (.whoami p) s = .next (u.say p tag [u.whoami p])

/-- Bytes of a port (R318 to R321): a served machine line grows by each byte; a framing error drops the byte and is counted; a full receive FIFO of a port that nobody serves keeps its 256 bytes; a sent byte leaves the transmit FIFO. -/
def consoleBytes : Prop :=
  (∀ (s : State) (p : Nat) (b : Byte) (l : List Byte), p ≤ 1 → s.powered = true → s.fld (Reg.CON_CTRL p) 0 2 = 3 → s.camlanOn = true → s.conServed p = true →
    (s.con p).line = 0x23 :: l → l.length < 254 → b ≠ 0x0D → b ≠ 0x0A →
    Does (.consoleByteReceived p b true) s (fun t =>
      (t.con p).line = 0x23 :: l ++ [b] ∧ (t.con p).out = (s.con p).out ∧ (t.con p).fe = 0 ∧ t.bit (Reg.CON_IRQ p) 0 = true ∧ RegsBut s t [Reg.CON_STAT p, Reg.CON_IRQ p] ∧ SameMem s t
        ∧ t = { s with regs := t.regs, con0 := t.con0, con1 := t.con1 }))
  ∧ (∀ (s : State) (p : Nat) (b : Byte), p ≤ 1 → s.powered = true → s.fld (Reg.CON_CTRL p) 0 2 = 3 →
    Does (.consoleByteReceived p b false) s (fun t =>
      t.con p = { s.con p with fe := (s.con p).fe + 1, errFrame := (s.con p).errFrame + 1, abArm := (s.con p).abArm || decide (3 ≤ (s.con p).fe + 1) } ∧ t.bit (Reg.CON_STAT p) 8 = true ∧ t.bit (Reg.CON_IRQ p) 2 = true
        ∧ RegsBut s t [Reg.CON_STAT p, Reg.CON_IRQ p] ∧ SameMem s t ∧ t = { s with regs := t.regs, con0 := t.con0, con1 := t.con1 }))
  ∧ (∀ (s : State) (p : Nat) (b : Byte), p ≤ 1 → s.powered = true → s.fld (Reg.CON_CTRL p) 0 2 = 3 → s.camlanOn = false → s.faultWords = none → 256 ≤ (s.con p).rx.length →
    Does (.consoleByteReceived p b true) s (fun t =>
      (t.con p).rx = (s.con p).rx ∧ (t.con p).errOver = (s.con p).errOver + 1 ∧ t.bit (Reg.CON_STAT p) 9 = true ∧ t.bit (Reg.CON_IRQ p) 2 = true
        ∧ RegsBut s t [Reg.CON_STAT p, Reg.CON_IRQ p] ∧ SameMem s t))
  ∧ (∀ (s : State) (p : Nat) (b : Byte) (l : List Byte), p ≤ 1 → s.powered = true → s.bit (Reg.CON_CTRL p) 0 = true → s.bit (Reg.CON_CTRL p) 2 = true → (s.con p).tx = b :: l → s.camlanOn = false → s.faultWords = none →
    l.length < 256 → s.con1Granted = false →
    Does (.consoleByteSent p) s (fun t =>
      t.con p = { s.con p with tx := l } ∧ t.fld (Reg.CON_FIFO p) 16 9 = l.length ∧ t.bit (Reg.CON_STAT p) 2 = l.isEmpty ∧ (l = [] → t.bit (Reg.CON_IRQ p) 1 = true)
        ∧ RegsBut s t [Reg.CON_STAT p, Reg.CON_FIFO p, Reg.CON_IRQ p] ∧ SameMem s t))

/-- A terminated machine line with a right CRC and a known command joins the waiting lines under its tag; a wrong CRC is answered with error 05 and, in the stake-boat interval, every line but `show start` and `stop` with `starting` (R129, R323, R324); in a fault state of the boot ROM any line of CON0 is answered with that state (R71, R116, R122); the first CR sets the nearest rate within 5 % (R319); withheld notices are sent after the line or after 5 s, and lost ones are reported (R327, R329). The mailbox request is executed once the semaphore is free (R378). Where the manual leaves a point open, the model's choice of log entries 50, 52, 56 and 57 stands. -/
def Obligations.LinesNoticesAndMailbox : Prop :=
  (∀ (s : State) (p us : Nat) (t : String) (text : List Char) (l : List Tok), s.camlanOn = true → s.conServed p = true → s.faultWords = none → s.starting = false →
    (s.con p).line.head? = some 0x23 → (s.con p).tooLong = false → (∀ b ∈ (s.con p).line, 0x20 ≤ b.toNat ∧ b.toNat ≤ 0x7E) → (s.con p).withheld = [] →
    machineBody (s.con p).line = some (t, text) → t ∉ (s.con p).tags → (s.con p).tags.length < 8 → tokens text = some l → commandErr l = 0 →
    Does (.consoleLine p us) s (fun v =>
      (v.con p).ready = (s.con p).ready ++ [some t] ∧ (v.con p).tags = (s.con p).tags ++ [t] ∧ (v.con p).line = [] ∧ (v.con p).out = (s.con p).out
        ∧ RegsBut s v [Reg.STK_PHASE] ∧ SameMem s v ∧ v = { s with regs := v.regs, con0 := v.con0, con1 := v.con1 }))
  ∧ (∀ (s : State) (p us : Nat), s.camlanOn = true → s.conServed p = true → s.faultWords = none → s.starting = true →
    (s.con p).line.head? = some 0x23 → (s.con p).earlyMachine = false → (s.con p).withheld = [] →
    Does (.consoleLine p us) s (fun v =>
      (v.con p).ready = (s.con p).ready ∧ (v.con p).tags = (s.con p).tags
        ∧ (v.con p).out = (s.con p).out ++ [⟨some ((tagOf ((s.con p).line.map charOf)).getD "?"), false, false, false, "starting"⟩]))
  ∧ (∀ (s : State) (p us : Nat), s.camlanOn = true → s.conServed p = true → s.faultWords = none → s.starting = false →
    (s.con p).line.head? = some 0x23 → (s.con p).tooLong = false → (∀ b ∈ (s.con p).line, 0x20 ≤ b.toNat ∧ b.toNat ≤ 0x7E) → (s.con p).withheld = [] →
    machineBody (s.con p).line = none →
    Does (.consoleLine p us) s (fun v =>
      (v.con p).ready = (s.con p).ready ∧ (v.con p).tags = (s.con p).tags ∧ (v.con p).errCrc = (s.con p).errCrc + 1
        ∧ (v.con p).out = (s.con p).out ++ [⟨some ((tagOf ((s.con p).line.map charOf)).getD "?"), false, false, false, "err 05 crc"⟩]))
  ∧ (∀ (s : State) (us : Nat) (w : String), s.faultWords = some w →
    exec (.consoleLine 0 us) s = .next (({ s with con0 := { s.con0 with line := [], tooLong := false, out := s.con0.out ++ [⟨none, false, false, false, w⟩] } } : State).pump 0))
  ∧ (∀ (s : State) (p width : Nat), p ≤ 1 → s.camlanOn = true → s.bit (Reg.CON_CTRL p) 3 = true → (s.con p).abArm = true → width ≠ 0 → width < 65536 →
    20 * rateDist width (nearestRate width) ≤ nearestRate width * width →
    Does (.autobaud p width) s (fun t =>
      t.rdN (Reg.CON_BAUD p) = (roundDiv 24000000 (nearestRate width)).toNat ∧ t.rdN (Reg.CON_ABMEAS p) = width ∧ t.bit (Reg.CON_STAT p) 4 = true ∧ (t.con p).adopted = true
        ∧ RegsBut s t ([Reg.CON_ABMEAS p, Reg.CON_STAT p, Reg.CON_IRQ p, Reg.CON_BAUD p] ++ logRegs 0 ++ logRegs 1) ∧ SameMem s t))
  ∧ (∀ (s : State) (p : Nat) (body : String), p ≤ 1 → s.camlanOn = true → s.conServed p = true → (s.con p).withheld = [body] → (s.con p).outBytes ≤ 3072 → s.parS .conEcho p ≠ 1 →
    Does (.noticeFlush p) s (fun t =>
      t.con p = { s.con p with withheld := [], out := (s.con p).out ++ [⟨(s.con p).noteTag, false, true, false, body⟩] } ∧ t = { s with con0 := t.con0, con1 := t.con1 }))
  ∧ (∀ (s : State) (p : Nat), p ≤ 1 → s.camlanOn = true → s.conServed p = true → (s.con p).dropped ≠ 0 → (s.con p).outBytes ≤ 3072 → (s.con p).line = [] → s.parS .conNotify p ≠ 0 →
    Does (.lostNotice p) s (fun t =>
      (t.con p).dropped = 0 ∧ (t.con p).out = (s.con p).out ++ [⟨(s.con p).noteTag, false, true, false, "lost count=" ++ toString (s.con p).dropped⟩] ∧ RegsBut s t (logRegs 0)
        ∧ SameMem s t ∧ t = { s with regs := t.regs, con0 := t.con0, con1 := t.con1, log := t.log }))
  ∧ ∀ s : State, s.tag.request.isSome = true → s.tag.reply = none → s.camlanOn = true → s.tag.owner = 0 → s.ld mbBase 2 = 0 →
    Does .tagMailboxRequest s (fun t =>
      t.tag.request = none ∧ t.tag.owner = 0 ∧ t.tag.lastReq = s.ld (mbBase + 2) 2 ∧ t.nv = s.nv ∧ t.cam = s.cam
        ∧ ∀ a, a ≠ tagBase + 0xE00 → a < mbBase + 0x104 ∨ mbBase + 0x204 ≤ a → t.rdB a = s.rdB a)

/-- Logins, challenges and lockouts (R330 to R332, R407): the right code raises the session and clears its failures, a wrong one is counted and the fifth within ten minutes locks the port; a challenge stands for 60 s and one answer; a session ends by logout or idle. Where the manual leaves a point open, the model's choice of log entries 51, 53, 71, 73 and 118 stands. -/
def Obligations.SessionsRiseAndEnd : Prop :=
  (∀ (s : State) (p : Nat) (tag : Option String) (code : Nat), lineWaits s p tag → code ≤ 999999 → s.loginLocked p = false → s.codeOf 0 = some code →
    exec (.loginInstaller p code) s = .next (((lineTaken s p).loginOk p .installer).say p tag [loginLine p .installer]))
  ∧ (∀ (s : State) (p : Nat) (tag : Option String) (k code : Nat), lineWaits s p tag → 1 ≤ k → k ≤ 7 → code ≤ 999999 → s.loginLocked p = false → s.codeOf k = some code →
    exec (.loginTenant p k code) s = .next (((lineTaken s p).loginOk p (.tenant k)).say p tag [loginLine p (.tenant k)]))
  ∧ (∀ (s : State) (p : Nat) (tag : Option String) (code : Nat), lineWaits s p tag → code ≤ 999999 → s.loginLocked p = false → s.codeOf 0 ≠ some code →
    exec (.loginInstaller p code) s = .next (((lineTaken s p).loginFailed p .installer).say p tag ["err 13 auth"]))
  ∧ (∀ (s : State) (p : Nat) (l : Level), ((s.loginOk p l).con p).level = l ∧ (s.loginOk p l).fails p = [] ∧ (((s.loginOk p l).con p).authed = true ↔ l = .service))
  ∧ (∀ (s : State) (p : Nat) (l : Level), p ≤ 1 →
    (s.loginFailed p l).fails p = within s.clock minutes10 (s.fails p) ++ [s.clock] ∧ ((s.loginFailed p l).con p).level = (s.con p).level
      ∧ (s.loginFailed p l).loginLocked p = (s.loginLocked p || decide (4 ≤ (within s.clock minutes10 (s.fails p)).length))
      ∧ (s.loginFailed p l).nv.confirmed = s.nv.confirmed)
  ∧ (∀ (s : State) (p : Nat) (tag : Option String), lineWaits s p tag → s.lcs ≠ lcsRetired → s.loginLocked p = false → s.bit Reg.SEC_STAT 2 = true →
    Does (.loginService p) s (fun t =>
      (t.con p).challenge = some ((s.rdN Reg.SEC_CHALID + 1) % 2 ^ 32) ∧ (t.con p).challengeAt = s.clock ∧ t.rdN Reg.SEC_CHALID = (s.rdN Reg.SEC_CHALID + 1) % 2 ^ 32
        ∧ (t.con p).level = (s.con p).level ∧ t.freeCtr = s.freeCtr + 4
        ∧ RegsBut s t [Reg.SEC_CHALID, Reg.SEC_NONCE 0, Reg.SEC_NONCE 1, Reg.SEC_NONCE 2, Reg.SEC_NONCE 3] ∧ SameMem s t ∧ t.nv = s.nv))
  ∧ (∀ (s : State) (p : Nat) (tag : Option String) (id : Nat) (sig : List Byte), lineWaits s p tag → s.lcs ≠ lcsRetired → s.loginLocked p = false →
    let key := if (s.con p).challenge = some id ∧ s.clock < (s.con p).challengeAt + 60000000 then s.matched (s.authMessage id (s.con p).nonce 1) sig else none
    Does (.auth p id sig) s (fun t =>
      (t.con p).challenge = none ∧ (key.isSome = true → (t.con p).level = .service ∧ (t.con p).authed = true ∧ t.fails p = [])
        ∧ (key = none → (t.con p).level = (s.con p).level ∧ t.fails p = within s.clock minutes10 (s.fails p) ++ [s.clock])))
  ∧ (∀ (s : State) (p : Nat), (s.con p).challenge.isSome = true → (s.con p).challengeAt + 60000000 ≤ s.clock →
    Does (.challengeExpire p) s (fun t => t = s.setCon p { s.con p with challenge := none }))
  ∧ (∀ (s : State) (p : Nat), s.loginLocked p = true → minutes10 ≤ s.sinceFail p →
    Does (.loginLockoutEnd p) s (fun t => t.loginLocked p = false ∧ t = { s with nv := t.nv } ∧ t.fails p = s.fails p ∧ t.nv.confirmed = s.nv.confirmed))
  ∧ (∀ (s : State) (p : Nat) (tag : Option String), lineWaits s p tag →
    Does (.logout p) s (fun t => (t.con p).level = .view ∧ (s.cam.helm.holder ≠ 0x10 + p → (s.con p).level = .installer → t.cam.helm = s.cam.helm)))
  ∧ (∀ (s : State) (p : Nat), s.camlanOn = true → (s.con p).lastLine + s.parI .conIdle * 1000000 ≤ s.clock → Does (.sessionIdle p) s (fun t => (t.con p).level = .view))
  ∧ ∀ (s : State) (p : Nat) (tag : Option String) (k code : Nat), lineWaits s p tag → k ≤ 7 → code ≤ 999999 → (s.con p).level = .service ∨ (s.con p).level = .installer ∧ s.lcs = lcsCommissioning →
    Does (.passcode p k code) s (fun t => t.codeOf k = some code ∧ (∀ j, j ≠ k → t.codeOf j = s.codeOf j) ∧ RegsBut s t [] ∧ SameMem s t)

/-! Configuration and the life cycle (R124 to R127, R337 to R341, R374 to R376, R404 to R410) -/

/-- Memory outside the commissioning record of the tag reads as before. -/
def recordOnly (s t : State) : Prop := ∀ a, a < recBase ∨ recBase + 0x3C0 ≤ a → t.rdB a = s.rdB a

/-- A `set` stages every pair or none and confirms nothing (R338); `stage drop` empties the staging (R341); `confirm` with the present check value makes the staged configuration the confirmed one, and with another refuses with error 11 and changes no configuration (R340); the tag's confirmation field is executed as `confirm` when its CRC, its flag and its digits are right, and otherwise changes no configuration (R375). None of them changes a value in force. Where the manual leaves a point open, the model's choice of log entries 51, 58, 59, 70 and 110 stands. -/
def Obligations.StagingAndConfirming : Prop :=
  (∀ (s : State) (p : Nat) (tag : Option String) (pairs : List (PKey × PVal)), lineWaits s p tag →
    s.stagingOpen (s.con p).level (pairs.any (fun e => keyMaterial e.1.name)) = true →
    (∀ e ∈ pairs, pairOk e.1 e.2 = true) → brokenRules (overlay s.stagedCfg (pairs.map (fun e => (e.1, canonVal (PName.info e.1.name).kind e.2))))
      ((diffOf s.nv.confirmed (overlay s.stagedCfg (pairs.map (fun e => (e.1, canonVal (PName.info e.1.name).kind e.2))))
        (keysOf (s.nv.staged ++ pairs.map (fun e => (e.1, canonVal (PName.info e.1.name).kind e.2))))).map (fun e => e.1.name)) = [] →
    Does (.setParams p pairs) s (fun t =>
      t.nv.staged = diffOf s.nv.confirmed (overlay s.stagedCfg (pairs.map (fun e => (e.1, canonVal (PName.info e.1.name).kind e.2))))
          (keysOf (s.nv.staged ++ pairs.map (fun e => (e.1, canonVal (PName.info e.1.name).kind e.2))))
        ∧ t.nv = { s.nv with staged := t.nv.staged } ∧ t.inForce = s.inForce ∧ RegsBut s t (logRegs 0) ∧ recordOnly s t))
  ∧ (∀ (s : State) (p : Nat) (tag : Option String) (pairs : List (PKey × PVal)), lineWaits s p tag → (∃ e ∈ pairs, pairOk e.1 e.2 = false) →
    Does (.setParams p pairs) s (fun t => t.nv = s.nv ∧ t.inForce = s.inForce ∧ RegsBut s t [] ∧ SameMem s t))
  ∧ (∀ (s : State) (p : Nat) (tag : Option String), lineWaits s p tag → s.stagingOpen (s.con p).level false = true → s.nv.staged ≠ [] →
    Does (.stageDrop p) s (fun t => t.nv = { s.nv with staged := [] } ∧ t.inForce = s.inForce ∧ RegsBut s t (logRegs 0) ∧ recordOnly s t))
  ∧ (∀ (s : State) (p : Nat) (tag : Option String) (check : Word), lineWaits s p tag → s.stagingOpen (s.con p).level false = true → check.toNat = s.checkNow → s.nv.staged ≠ [] →
    brokenRules s.stagedCfg (s.nv.staged.map (fun e => e.1.name)) = [] →
    Does (.confirm p check) s (fun t =>
      t.nv.confirmed = s.stagedCfg ∧ t.nv.staged = [] ∧ t.nv.cfgGen = s.nv.cfgGen + 1 ∧ t.nv.codes = s.nv.codes ∧ t.inForce = s.inForce ∧ recordOnly s t))
  ∧ (∀ (s : State) (p : Nat) (tag : Option String) (check : Word), lineWaits s p tag → s.stagingOpen (s.con p).level false = true → check.toNat ≠ s.checkNow →
    ∃ u : State, exec (.confirm p check) s = .next (u.say p tag ["err 11 check"]) ∧ u.nv = s.nv ∧ u.inForce = s.inForce ∧ RegsBut s u (logRegs 0 ++ logRegs 1) ∧ recordOnly s u)
  ∧ (∀ (s : State) (check : Nat), s.camlanOn = true → s.starting = false → s.tag.confAt.isSome = true →
    leNat (((s.rdBytes 0x500007C0 16).drop 12).take 2) = crc16 ((s.rdBytes 0x500007C0 16).take 12) → s.rdB 0x500007CE = 0x43 →
    hexNum (((s.rdBytes 0x500007C0 16).drop 4).take 8) 0 = some check → leNat ((s.rdBytes 0x500007C0 16).take 2) ≠ s.ld (recBase + 0x18) 2 →
    Does .tagConfirmation s (fun t =>
      (check = s.checkNow → s.nv.staged ≠ [] → brokenRules s.stagedCfg (s.nv.staged.map (fun e => e.1.name)) = [] → t.nv.confirmed = s.stagedCfg ∧ t.nv.staged = [])
        ∧ (check ≠ s.checkNow → t.nv = s.nv) ∧ t.tag.confAt = none ∧ t.inForce = s.inForce ∧ recordOnly s t))
  ∧ ∀ s : State, s.camlanOn = true → s.starting = false → s.tag.confAt.isSome = true →
    leNat (((s.rdBytes 0x500007C0 16).drop 12).take 2) ≠ crc16 ((s.rdBytes 0x500007C0 16).take 12) →
    Does .tagConfirmation s (fun t => t.nv = s.nv ∧ t.tag = { s.tag with confAt := none } ∧ RegsBut s t (logRegs 0) ∧ SameMem s t)

/-- A transition begins only where Table 5-7 has it and the conditions of R125 hold: the record takes PENDING and the wipe set; a condition that fails is logged and nothing else changes. Completion erases the wipe set, writes the new state, blows SEALED_ONCE on sealing and resets with cause LCS (R126, R127). The return from SERVICE falls due after 24 hours and waits, refusing closing orders, while a contactor is not open (R410). Where the manual leaves a point open, the model's choice of log entries 47, 48 and 49 stands. -/
def Obligations.LifeCycleTransitions : Prop :=
  (∀ (s : State) (v : Word) (w : Nat), getField v.toNat 16 16 = 0x4C43 → s.camlanOn = true → s.nv.pendingLcs = none → s.lcsCommon (getField v.toNat 0 3) = 0 →
    wipeOf s.lcs (getField v.toNat 0 3) = some w → exec (.lcsRequest v) s = .next (s.beginTransition (getField v.toNat 0 3) w))
  ∧ (∀ (s : State) (v : Word), getField v.toNat 16 16 = 0x4C43 → s.camlanOn = true → s.nv.pendingLcs = none → s.lcsCommon (getField v.toNat 0 3) ≠ 0 →
    Does (.lcsRequest v) s (fun t => RegsBut s t (logRegs 0 ++ logRegs 1) ∧ SameMem s t ∧ t = { s with regs := t.regs, log := t.log }))
  ∧ (∀ (s : State) (v : Word), getField v.toNat 16 16 ≠ 0x4C43 → exec (.lcsRequest v) s = .next s)
  ∧ (∀ (s : State) (target w : Nat), target < 8 → w < 128 →
    (s.beginTransition target w).nv.pendingLcs = some (target, w) ∧ (s.beginTransition target w).fld Reg.LCS_STATE 4 3 = target ∧ (s.beginTransition target w).lcs = s.lcs
      ∧ (s.beginTransition target w).rdN Reg.LCS_WIPESET = w ∧ (s.beginTransition target w).bit Reg.LCS_STAT 0 = true ∧ (s.beginTransition target w).nv.confirmed = s.nv.confirmed)
  ∧ (∀ (s : State) (p : Nat) (tag : Option String) (w : Nat), lineWaits s p tag → s.nv.pendingLcs = none →
    (wipeOf s.lcs lcsCommissioning = some w → s.lcsCommon lcsCommissioning = 0 → (s.con p).level = .service → s.lcs ≠ lcsBlank → ∀ code,
      exec (.lcsCommission p code) s = .next (((lineTaken s p).beginTransition lcsCommissioning w).say p tag ["lcs from=" ++ lcsWord s.lcs ++ " to=" ++ lcsWord lcsCommissioning ++ " wipe=" ++ wipeText w]))
    ∧ (wipeOf s.lcs lcsBlank = some w → s.lcsCommon lcsBlank = 0 → (s.con p).level = .installer →
      exec (.lcsBlank p) s = .next (((lineTaken s p).beginTransition lcsBlank w).say p tag ["lcs from=" ++ lcsWord s.lcs ++ " to=" ++ lcsWord lcsBlank ++ " wipe=" ++ wipeText w]))
    ∧ (wipeOf s.lcs lcsSealed = some w → s.lcsCommon lcsSealed = 0 → (s.con p).level = .service ∨ (s.con p).level = .installer ∧ s.lcs = lcsCommissioning →
      exec (.lcsSeal p) s = .next (((lineTaken s p).beginTransition lcsSealed w).say p tag ["lcs from=" ++ lcsWord s.lcs ++ " to=" ++ lcsWord lcsSealed ++ " wipe=" ++ wipeText w]))
    ∧ (wipeOf s.lcs lcsService = some w → s.lcsCommon lcsService = 0 → (s.con p).authed = true →
      exec (.lcsService p) s = .next (((lineTaken s p).beginTransition lcsService w).say p tag ["lcs from=" ++ lcsWord s.lcs ++ " to=" ++ lcsWord lcsService ++ " wipe=" ++ wipeText w]))
    ∧ (wipeOf s.lcs lcsRetired = some w → s.lcsCommon lcsRetired = 0 → (s.con p).level = .service →
      exec (.lcsRetire p) s = .next (((lineTaken s p).beginTransition lcsRetired w).say p tag ["lcs from=" ++ lcsWord s.lcs ++ " to=" ++ lcsWord lcsRetired ++ " wipe=" ++ wipeText w])))
  ∧ (∀ (s : State) (t w : Nat), s.nv.pendingLcs = some (t, w) → s.camlanOn = true → t < 5 → w < 128 →
    Does .lcsTransitionComplete s (fun u =>
      u.lcs = t ∧ u.fld Reg.RST_LAST 0 4 = 9 ∧ u.nv.pendingLcs = none ∧ u.fld Reg.LCS_TCOUNT 0 16 = min (s.fld Reg.LCS_TCOUNT 0 16 + 1) 0xFFFF
        ∧ (t = lcsSealed → u.bit Reg.LCS_FUSES 0 = true) ∧ (getField w 1 1 = 1 → u.nv.codes = []) ∧ (getField w 3 1 = 1 → u.nv.staged = [])
        ∧ (getField w 2 1 = 1 → u.nv.confirmed = []) ∧ (getField w 0 1 = 1 → u.nv.rad.netKey = [] ∧ u.nv.rad.seats = [])
        ∧ (getField w 2 1 = 0 → getField w 4 1 = 0 → u.nv.confirmed = s.nv.confirmed) ∧ u.power.phase = .held))
  ∧ (∀ s : State, s.serviceDue = true → s.allOpen = true → exec .serviceTimeout s = .next (s.beginTransition lcsSealed (wCfgstg + wTagc)))
  ∧ (∀ s : State, s.serviceDue = true → s.allOpen = false →
    Does .serviceTimeout s (fun t => t.cam = { s.cam with svcBlocked := true, svcLogged := true } ∧ t.nv = s.nv ∧ RegsBut s t (logRegs 0 ++ logRegs 1) ∧ SameMem s t))
  ∧ ∀ s : State, s.serviceDue = false → exec .serviceTimeout s = .next s

/-- A shore record is the 64 bytes of Table 16-7 in the next of sixteen slots of the tag, every ten minutes at the latest and, for a change, after the least gap (R120, R376); hibernation writes one, drops every coil and hands over to the always-on domain (R284). -/
def shoreRecordsAndHibernation : Prop :=
  (∀ (s : State) (a : Nat), s.rowing = true → s.power.shoreAt = some a → a + minutes10 ≤ s.clock →
    Does .shorePeriodic s (fun t =>
      t.nv.shoreSeq = (s.nv.shoreSeq + 1) % 2 ^ 32 ∧ t.power.shoreAt = some s.clock ∧ t.power.shoreFold = 0 ∧ t.power.shoreHeld = false
        ∧ t.rdBytes (shoreSlot t.nv.shoreSeq) 64 = s.shoreBytes t.nv.shoreSeq (2 + (if s.power.shoreFold = 0 then 0 else 0x80))
        ∧ (∀ b, b < shoreSlot t.nv.shoreSeq ∨ shoreSlot t.nv.shoreSeq + 64 ≤ b → t.rdB b = s.rdB b) ∧ RegsBut s t []
        ∧ t = { s with mem := t.mem, power := t.power, nv := t.nv } ∧ t.nv = { s.nv with shoreSeq := t.nv.shoreSeq }))
  ∧ (∀ s : State, s.rowing = true → s.power.shoreHeld = true → s.shoreGapOver = true → (within s.clock hours24 s.power.shoreTimes).length < 1056 →
    Does .shoreGapEnd s (fun t =>
      t.nv.shoreSeq = (s.nv.shoreSeq + 1) % 2 ^ 32 ∧ t.power.shoreAt = some s.clock ∧ t.power.shoreHeld = false
        ∧ t.power.shoreTimes = within s.clock hours24 s.power.shoreTimes ++ [s.clock]
        ∧ t.rdBytes (shoreSlot t.nv.shoreSeq) 64 = s.shoreBytes t.nv.shoreSeq 1
        ∧ (∀ b, b < shoreSlot t.nv.shoreSeq ∨ shoreSlot t.nv.shoreSeq + 64 ≤ b → t.rdB b = s.rdB b) ∧ RegsBut s t [] ∧ t.cam = s.cam ∧ t.nv.confirmed = s.nv.confirmed))
  ∧ (∀ s : State, s.rowing = false ∨ s.power.shoreHeld = false → exec .shoreGapEnd s = .next s)
  ∧ ∀ s : State, s.rowing = true → s.est.pending = true →
    Does .hibernateGraceEnd s (fun t =>
      t.power.phase = .hibernating ∧ t.rdN Reg.CTR_OUT = 0 ∧ t.bit Reg.CCA_STAT 2 = true ∧ t.fld Reg.CCA_WAKE 24 8 = 4 ∧ t.bit Reg.COX_STATUS 0 = false
        ∧ ∀ x, x < 3 → s.bit (Reg.CAN_CTRL x) 8 = true → t.bit (Reg.CAN_CTRL x) 7 = false)

/-! Orders, clearing and operation commands of a session (R334, R335, R342, R343, Tables 14-4 to 14-7) -/

/-- A session's order stands last in the order set of the present stroke, with the session's source and rank and the time of the line as its stamp; nothing else but the phase shown, the time of the last SERVICE command and the port's console changes. -/
def entersSet (s t : State) (p us : Nat) (tag : Option String) (kind target : Nat) (value : Int) : Prop :=
  t.cam.orders = s.cam.orders ++ [⟨(sessionSource p (s.con p).level).getD 0, (Level.rank (s.con p).level).getD 0, kind, target, value, 0,
      (s.stk.base + us) % 2 ^ 48, s.strokeNo, false, .console p tag⟩]
    ∧ t.cam = { s.cam with orders := t.cam.orders, svcAt := t.cam.svcAt } ∧ RegsBut s t [Reg.STK_PHASE] ∧ SameMem s t
    ∧ t = { s with regs := t.regs, cam := t.cam, con0 := t.con0, con1 := t.con1 }

/-- A console order above VIEW enters the order set and is answered after the finish (R334); at VIEW it is answered `order invalid` at once and enters no set. A limit at or below the standing value is a DERATE, one above it a RAISE (R42). A surge request of a console replaces its earlier one (R335, the wording of the answer to the earlier one being the model's, log entry 55). Where the manual leaves a point open, the model's choice of log entry 51 stands. -/
def Obligations.ConsoleOrdersEnterTheSet : Prop :=
  (∀ (s : State) (p us : Nat) (tag : Option String), lineWaits s p tag → us < 2 ^ 15 → (s.con p).level ≠ .view →
    (∀ target, Does (.openOrder p target us) s (fun t => entersSet s t p us tag kOpen target 0))
    ∧ (∀ target, Does (.closeOrder p target us) s (fun t => entersSet s t p us tag kClose target 0))
    ∧ (∀ target mA, mA ≤ s.standing target → Does (.limitOrder p target mA us) s (fun t => entersSet s t p us tag kDerate target mA))
    ∧ (∀ target mA, s.standing target < mA → Does (.limitOrder p target mA us) s (fun t => entersSet s t p us tag kRaise target mA))
    ∧ Does (.helmTake p us) s (fun t => entersSet s t p us tag kTake 0 0) ∧ Does (.helmRelease p us) s (fun t => entersSet s t p us tag kRelease 0 0))
  ∧ (∀ (s : State) (p us target : Nat) (tag : Option String), lineWaits s p tag → (s.con p).level = .view →
    ∃ u : State, exec (.closeOrder p target us) s = .next (u.say p tag ["order invalid"]) ∧ u.cam.orders = s.cam.orders
      ∧ RegsBut s u (Reg.STK_PHASE :: logRegs 1) ∧ SameMem s u)
  ∧ (∀ (s : State) (p us duration : Nat) (power : Int) (tag : Option String), lineWaits s p tag → us < 2 ^ 15 → (s.con p).level = .installer ∨ (s.con p).level = .service →
    Does (.surge p power duration us) s (fun t =>
      t.est.reqs = s.est.reqs.filter (fun q => decide (q.source ≠ 0x10 + p))
          ++ [⟨0x10 + p, (Level.rank (s.con p).level).getD 0, (s.stk.base + us) % 2 ^ 48, s.strokeNo, 1, power, duration, 0, .console p tag⟩]
        ∧ t.est = { s.est with reqs := t.est.reqs } ∧ RegsBut s t [Reg.STK_PHASE] ∧ SameMem s t ∧ t.cam.orders = s.cam.orders))
  ∧ ∀ (s : State) (p : Nat) (tag : Option String), lineWaits s p tag → (s.con p).level = .installer ∨ (s.con p).level = .service →
    (∀ q ∈ s.est.reqs, q.source ≠ 0x10 + p) →
    Does (.surgeRelease p) s (fun t =>
      t.est.reqs = s.est.reqs ++ [⟨0x10 + p, (Level.rank (s.con p).level).getD 0, s.now, s.strokeNo, 2, 0, 0, 0, .console p tag⟩]
        ∧ t.est = { s.est with reqs := t.est.reqs } ∧ RegsBut s t [] ∧ SameMem s t ∧ t.nv = s.nv)

/-- A clearing command at its level whose condition holds clears its fault alone and replies `ok`; with a failing condition it replies error 16, below its level error 06, and clears nothing (Table 14-6). Where the manual leaves a point open, the model's choice of log entries 51 and 117 stands. -/
def Obligations.ClearingCommands : Prop :=
  (∀ (s : State) (p : Nat) (tag : Option String), lineWaits s p tag → (s.con p).level = .installer ∨ (s.con p).level = .service →
    (s.cam.state = .easy → s.allOpen = true → Does (.clearEasy p) s (fun t => t.cam.state = .run ∧ t.cam.easyCauses = [] ∧ t.cam.helm = s.cam.helm ∧ RegsBut s t (logRegs 0) ∧ SameMem s t))
    ∧ (s.cam.state = .easy → s.allOpen = false → exec (.clearEasy p) s = .next ((lineTaken s p).say p tag [errLine 16 "cond=contactors"]))
    ∧ (∀ i, s.strConf i = true → i ∈ s.nv.preLock →
      Does (.clearPrecharge p i) s (fun t => t.nv = { s.nv with preLock := s.nv.preLock.filter (fun j => decide (j ≠ i)) } ∧ (t.str i).st ≠ 6
        ∧ (∀ j, j ≠ i → t.str j = s.str j) ∧ RegsBut s t (logRegs 0 ++ logRegs 1) ∧ SameMem s t))
    ∧ (∀ c, c < 12 → s.parS .ctrRole c ≠ 0 → s.bit Reg.CTR_FAULT c = true ∨ s.bit Reg.CTR_FAULT (16 + c) = true → s.coilOn c = false →
      Does (.clearContactor p c) s (fun t => t.bit Reg.CTR_FAULT c = false ∧ t.bit Reg.CTR_FAULT (16 + c) = false
        ∧ (∀ b, b < 32 → b ≠ c → b ≠ 16 + c → t.bit Reg.CTR_FAULT b = s.bit Reg.CTR_FAULT b) ∧ RegsBut s t (Reg.CTR_FAULT :: (logRegs 0 ++ logRegs 1)) ∧ SameMem s t))
    ∧ (s.parS .mdiFitted ≠ 0 → s.mdi.st = mdiFault → Does (.clearMdi p) s (fun t => t.mdi.st = mdiHoming ∧ t.fld Reg.MDI_FAULT 0 6 = 0 ∧ SameMem s t ∧ t.nv = s.nv))
    ∧ (∀ n, n < 8 → s.parS .sinFunc n ≠ 0 → getField s.sin.latched n 1 = 1 → s.bankTripped n = false →
      Does (.clearSin p n) s (fun t => getField t.sin.latched n 1 = 0 ∧ (∀ m, m < 8 → m ≠ n → getField t.sin.latched m 1 = getField s.sin.latched m 1)
        ∧ RegsBut s t (logRegs 0 ++ logRegs 1) ∧ SameMem s t))
    ∧ (s.imdFlag 1 = true → s.imd.low = 0 → Does (.clearImd p) s (fun t => t.imd.refuse = false ∧ t.imdFlag 1 = false ∧ RegsBut s t (Reg.IMD_FLAGS :: logRegs 0) ∧ SameMem s t))
    ∧ (∀ n, n ∈ s.readSet → (s.seat n).faulty = true →
      Does (.clearSeat p n) s (fun t => (t.seat n).faulty = false ∧ (t.seat n).disag = [] ∧ (∀ m, m ≠ n → t.seat m = s.seat m) ∧ RegsBut s t (logRegs 0) ∧ SameMem s t))
    ∧ (s.chg = cFault → s.mayCharge = true → exec (.clearKbat p) s = .next (((lineTaken s p).detect s.kbatMv).say p tag ["ok"]))
    ∧ (s.aux = 5 → Does (.clearAux p) s (fun t => t.aux = 1 ∧ t.kpa = { s.kpa with auxFaults := [] } ∧ t.fld Reg.KPA_AUXST 4 2 = 0 ∧ RegsBut s t [Reg.KPA_AUXST] ∧ SameMem s t)))
  ∧ (∀ (s : State) (p i : Nat) (tag : Option String), lineWaits s p tag → (s.con p).level = .service → s.strConf i = true → (s.str i).st = 5 → s.weldClearable i = true →
    Does (.clearWeld p i) s (fun t => (t.str i).st = 1 ∧ (∀ j, j ≠ i → t.str j = s.str j) ∧ RegsBut s t (logRegs 0 ++ logRegs 1) ∧ SameMem s t))
  ∧ ∀ (s : State) (p i : Nat) (tag : Option String), lineWaits s p tag → (s.con p).level = .installer → exec (.clearWeld p i) s = .next ((s.takeLine p).2.say p tag ["err 06 level"])

/-- `stop` counts in the stake-boat interval alone (R130); ship mode needs every contactor open, the isolator still and no source but the battery (R149); hibernation begins with its grace (R284); `kbat` starts and stops the charger (R147); `suspend` and `resume` act on a tenant's partition (R104, R106); pairing loads a key into a seat that may be paired (R220). -/
def operationCommands : Prop :=
  (∀ (s : State) (p : Nat) (tag : Option String) (rest : List (Option String)), s.camlanOn = true → s.conServed p = true → s.starting = true → (s.con p).ready = tag :: rest →
    Does (.stop p) s (fun t => t.cam = { s.cam with stopped := true } ∧ RegsBut s t [] ∧ SameMem s t ∧ t.nv = s.nv))
  ∧ (∀ (s : State) (p : Nat) (tag : Option String), lineWaits s p tag → exec (.stop p) s = .next ((s.takeLine p).2.say p tag [errLine 7 "state=running"]))
  ∧ (∀ (s : State) (p : Nat) (tag : Option String), lineWaits s p tag → (s.con p).level = .installer ∨ (s.con p).level = .service →
    (s.shipBar = none → Does (.ship p) s (fun t => t.power.phase = .shipMode ∧ t.rdN Reg.CTR_OUT = 0 ∧ t.nv.confirmed = s.nv.confirmed))
    ∧ (∀ c, s.shipBar = some c → exec (.ship p) s = .next ((lineTaken s p).say p tag [errLine 16 ("cond=" ++ c)]))
    ∧ (s.est.pending = false → Does (.hibernate p) s (fun t => t.est = { s.est with pending := true } ∧ SameMem s t ∧ t.nv = s.nv ∧ t.power = s.power))
    ∧ (∀ k, 1 ≤ k → k ≤ 7 → s.partState k = pRunning ∨ s.partState k = pVerifying → exec (.suspend p k) s = .next (((lineTaken s p).suspend k 7).say p tag ["ok"]))
    ∧ (∀ k, 1 ≤ k → k ≤ 7 → s.partState k = pSuspended → s.partCause k ≠ 5 → s.partCause k ≠ 6 → (s.part k).verified = true →
      exec (.resume p k) s = .next (((lineTaken s p).resumePart k 0).say p tag ["ok"]))
    ∧ (∀ k, 1 ≤ k → k ≤ 7 → s.partState k = pSuspended → s.partCause k = 5 ∨ s.partCause k = 6 → exec (.resume p k) s = .next ((lineTaken s p).say p tag [errLine 16 "cond=cause"]))
    ∧ (∀ n, n ∈ s.readSet → s.rad.pairs = [] → s.mayPair n = true → Does (.pairSeat p n) s (fun t => t.rad.pairs.map (fun x => x.seat) = [n] ∧ t.nv.rad.netKey ≠ [] ∧ t.nv.confirmed = s.nv.confirmed))
    ∧ (s.readSet ≠ [] → s.rad.pairs = [] → (∀ n ∈ s.readSet, s.mayPair n = true) →
      exec (.pairAll p) s = .next (s.readSet.foldl (fun u n => u.pairOne (.console p tag) true n) (lineTaken s p))))
  ∧ (∀ (s : State) (k cause : Nat), 1 ≤ k → k ≤ 7 → cause < 256 →
    (s.suspend k cause).partState k = pSuspended ∧ (s.suspend k cause).partCause k = cause ∧ ((s.suspend k cause).cam.helm.holder ≠ 0x20 + k)
      ∧ (s.resumePart k 0).partState k = pRunning ∧ (s.resumePart k 0).partCause k = 0)
  ∧ ∀ (s : State) (p : Nat) (tag : Option String), lineWaits s p tag → (s.con p).level ≠ .view →
    (s.mayCharge = true → s.chg = cDone → exec (.kbatStart p) s = .next (((lineTaken s p).detect s.kbatMv).say p tag ["ok"]))
    ∧ (s.charging = true → exec (.kbatStop p) s = .next (((lineTaken s p).chargeDone 4).say p tag ["ok"]))

/-- A restore record arrives in order, in pieces of at most 96 bytes at the next offset, is judged at its end and applied at the next catch (R279, R342); a logbook is read and released by a session that may (R343, R348). Where the manual leaves a point open, the model's choice of log entries 51, 64 and 99 stands. -/
def Obligations.RestoreAndLogbookCommands : Prop :=
  (∀ (s : State) (p : Nat) (tag : Option String), lineWaits s p tag →
    Does (.estSave p) s (fun t => t.est = { s.est with saves := s.est.saves ++ [(p, tag)] } ∧ RegsBut s t [] ∧ SameMem s t ∧ t.nv = s.nv))
  ∧ (∀ (s : State) (p : Nat) (tag : Option String), lineWaits s p tag → (s.con p).level ≠ .view →
    (∀ size, s.est.transfer = none →
      Does (.estRestoreBegin p size) s (fun t => t.est = { s.est with transfer := some (p, size, []) } ∧ RegsBut s t [] ∧ SameMem s t ∧ t.nv = s.nv))
    ∧ (∀ q size size' got, q ≠ p → s.est.transfer = some (q, size, got) → exec (.estRestoreBegin p size') s = .next ((lineTaken s p).say p tag ["err 08 busy"]))
    ∧ (∀ size got data, s.est.transfer = some (p, size, got) → data ≠ [] → data.length ≤ 96 → got.length + data.length ≤ size →
      Does (.estRestoreData p got.length data) s (fun t => t.est = { s.est with transfer := some (p, size, got ++ data) } ∧ RegsBut s t [] ∧ SameMem s t ∧ t.nv = s.nv))
    ∧ (∀ size got off data, s.est.transfer = some (p, size, got) → off ≠ got.length →
      Does (.estRestoreData p off data) s (fun t => t.est = { s.est with transfer := none } ∧ RegsBut s t [] ∧ SameMem s t))
    ∧ (∀ size got, s.est.transfer = some (p, size, got) → got.length = size → s.judgeRecord got = 0 →
      Does (.estRestoreEnd p) s (fun t => t.est = { s.est with transfer := none, restored := true, restore := some ⟨got, .console p tag⟩ } ∧ RegsBut s t [] ∧ SameMem s t ∧ t.nv = s.nv))
    ∧ (∀ size got, s.est.transfer = some (p, size, got) → got.length = size → s.judgeRecord got ≠ 0 →
      Does (.estRestoreEnd p) s (fun t => t.est = { s.est with transfer := none } ∧ RegsBut s t (logRegs 0) ∧ SameMem s t)))
  ∧ (∀ (s : State) (p b : Nat) (tag : Option String), lineWaits s p tag → exec (.logHead p b) s = .next ((lineTaken s p).say p tag (s.sayLogHead b)))
  ∧ (∀ (s : State) (p b seq count : Nat) (tag : Option String), lineWaits s p tag → mayReadBook (s.con p).level b = true →
    exec (.logRead p b seq count) s = .next ((lineTaken s p).say p tag (s.sayLogRead b seq count)))
  ∧ (∀ (s : State) (p b seq count : Nat) (tag : Option String), lineWaits s p tag → b ≤ 8 → mayReadBook (s.con p).level b = false →
    exec (.logRead p b seq count) s = .next ((s.takeLine p).2.say p tag ["err 06 level"]))
  ∧ ∀ (s : State) (p b upto : Nat) (tag : Option String), lineWaits s p tag → b ≤ 8 → (s.con p).level = .installer ∨ (s.con p).level = .service →
    (upto + 2 ^ 32 - s.rdN (Reg.LOG_BFIRST b)) % 2 ^ 32 < 2 ^ 31 →
    Does (.logRelease p b upto) s (fun t =>
      t.rdN (Reg.LOG_BFIRST b) = (s.rdN (Reg.LOG_BFIRST b) + min ((upto + 2 ^ 32 - s.rdN (Reg.LOG_BFIRST b)) % 2 ^ 32 + 1) (s.bookHeld b)) % 2 ^ 32
        ∧ RegsBut s t (Reg.LOG_BFIRST b :: logRegs 0) ∧ SameMem s t ∧ t.nv = s.nv)

/-! The keep-alive power path (R131 to R153) -/

/-- The registers that a change of source or of the charger's state may write besides its own. -/
def kpaShown : List Nat := [Reg.KPA_STAT, Reg.KPA_IRQ, Reg.KPA_CHGST] ++ logRegs 0

/-- The hardware selects PACKAUX, then KIN unless Camlan holds it off, then a KBAT that is not being charged, else none (R131, R135, R143); a source that meets its level of Table 6-2 qualifies, KIN only beside another source and without KINHOLD, and one below its level is disqualified, which moves its flag and the selection (the levels at their nominal value: log entry 143); a short KIN is supplemented by a usable KBAT with the charger off, else KIN_SHORT shows, also where the supplement ends (R133). -/
def sourceSelection : Prop :=
  (∀ (s : State) (c : Nat), (s.selectSource c).ksrc
      = if s.kflag 0 then srcPack else if s.kflag 1 && !s.bit Reg.KPA_CTRL 3 then srcKin else if s.kflag 2 && !s.charging then srcKbat else srcNone)
  ∧ (∀ (s : State) (mv : Nat), s.qualifies .packaux mv = true →
    Does (.sourceQualify .packaux mv) s (fun t => t.kflag 0 = true ∧ t.ksrc = srcPack ∧ t.bit Reg.KPA_STAT 16 = false ∧ RegsBut s t kpaShown ∧ SameMem s t
      ∧ (s.chg ≠ cOff → t.kpa = s.kpa)))
  ∧ (∀ (s : State) (mv : Nat), s.qualifies .kin mv = true →
    Does (.sourceQualify .kin mv) s (fun t => t.kflag 1 = true ∧ (s.kflag 0 = false → t.ksrc = srcKin) ∧ RegsBut s t kpaShown ∧ SameMem s t ∧ (s.chg ≠ cOff → t.kpa = s.kpa)))
  ∧ (∀ (s : State) (mv : Nat), s.qualifies .kbat mv = true →
    Does (.sourceQualify .kbat mv) s (fun t => t.kflag 2 = true ∧ t.bit Reg.KPA_STAT 16 = false
      ∧ (s.kflag 0 = false → s.kflag 1 = false → s.charging = false → t.ksrc = srcKbat) ∧ RegsBut s t kpaShown ∧ SameMem s t ∧ t.kpa = s.kpa))
  ∧ (∀ (s : State) (src : KSource) (mv : Nat), s.qualifies src mv = false → exec (.sourceQualify src mv) s = .next s)
  ∧ (∀ s : State, s.bit Reg.KPA_CTRL 3 = true ∨ (s.kflag 0 = false ∧ s.kflag 2 = false) → ∀ mv, s.qualifies .kin mv = false)
  ∧ (∀ (s : State) (mv : Nat), s.disqualifies .packaux mv = true →
    Does (.sourceDisqualify .packaux mv) s (fun t =>
      t.kflag 0 = false ∧ t.ksrc = (if s.kflag 1 && !s.bit Reg.KPA_CTRL 3 then srcKin else if s.kflag 2 && !s.charging then srcKbat else srcNone)
        ∧ RegsBut s t kpaShown ∧ SameMem s t ∧ t.kpa = { s.kpa with paRe := true }))
  ∧ (∀ (s : State) (mv : Nat), s.disqualifies .kin mv = true →
    Does (.sourceDisqualify .kin mv) s (fun t => t.kflag 1 = false ∧ t.kflag 3 = false ∧ t.ksrc ≠ srcKin ∧ RegsBut s t kpaShown ∧ SameMem s t
      ∧ t.kpa = { s.kpa with supplement := false }))
  ∧ (∀ (s : State) (mv : Nat), s.disqualifies .kbat mv = true →
    Does (.sourceDisqualify .kbat mv) s (fun t => t.kflag 2 = false ∧ t.ksrc ≠ srcKbat ∧ (s.kpa.supplement = true → t.ksrc = srcKin → t.kflag 3 = true)
      ∧ RegsBut s t kpaShown ∧ SameMem s t ∧ t.kpa = { s.kpa with supplement := false }))
  ∧ (∀ (s : State) (src : KSource) (mv : Nat), s.disqualifies src mv = false → exec (.sourceDisqualify src mv) s = .next s)
  ∧ (∀ (s : State) (a b : Bool), s.ksrc = srcKin → s.kflag 2 = true →
    Does (.sourceLimit a b true) s (fun t => t.kpa.supplement = true ∧ t.charging = false ∧ t.kflag 4 = (a || b) ∧ RegsBut s t kpaShown ∧ SameMem s t))
  ∧ (∀ (s : State) (a b : Bool), s.ksrc = srcKin → s.kflag 2 = false → s.kflag 3 = false →
    Does (.sourceLimit a b true) s (fun t => t.kflag 3 = true ∧ t.bit Reg.KPA_IRQ 6 = true ∧ t.kflag 4 = (a || b) ∧ RegsBut s t kpaShown ∧ SameMem s t ∧ t.kpa = s.kpa))
  ∧ ∀ (s : State) (a b : Bool),
    Does (.sourceLimit a b false) s (fun t => t.kflag 3 = false ∧ t.kflag 4 = (a || b) ∧ t.kpa.supplement = false ∧ RegsBut s t kpaShown ∧ SameMem s t
      ∧ (s.chg ≠ cOff → RegsBut s t [Reg.KPA_STAT] ∧ t.kpa = { s.kpa with supplement := false }))

/-- Tracking: VREF moves by 0.5 % in the direction that raised the power, between kpa.kin_vmin and 95 % of VOC (R136); the open-circuit check needs a usable KBAT and a closed KIN switch, is skipped and counted otherwise, and re-centres VREF on kpa.kin_frac of VOC (R137). A black start takes the KIN voltage as VOC, and starts the Sculls once the margin has been shown for kpa.bs_hold (R138, R139). -/
def trackingAndBlackStart : Prop :=
  (∀ (s : State) (rose : Bool), s.ksrc = srcKin → s.kflag 3 = true ∨ s.kflag 4 = true → s.bit Reg.KPA_CTRL 2 = true →
    Does (.mpptStep rose) s (fun t =>
      t.kpa = { s.kpa with up := if rose then s.kpa.up else !s.kpa.up }
        ∧ (t.fld Reg.KPA_MPPT 0 16 : Int) = max (min (roundDiv ((s.fld Reg.KPA_MPPT 0 16 : Int) * (if (if rose then s.kpa.up else !s.kpa.up) then 1005 else 995)) 1000)
            ((s.fld Reg.KPA_MPPT 16 16 : Int) * 95 / 100)) (s.fld Reg.KPA_KINCFG 0 16 : Int)
        ∧ t.fld Reg.KPA_MPPT 16 16 = s.fld Reg.KPA_MPPT 16 16 ∧ RegsBut s t [Reg.KPA_MPPT] ∧ SameMem s t))
  ∧ (∀ (s : State) (rose : Bool), s.ksrc ≠ srcKin → exec (.mpptStep rose) s = .next s)
  ∧ (∀ s : State, s.vocMayRun = true → s.awake = true →
    Does .vocCheck s (fun t => t = { s with kpa := { s.kpa with vocOpen := true } }) ∧ Does .vocNow s (fun t => t = { s with kpa := { s.kpa with vocOpen := true } }))
  ∧ (∀ s : State, s.vocMayRun = false → exec .vocNow s = .next s
    ∧ Does .vocCheck s (fun t => t.fld Reg.KPA_MPPTC 0 8 = min (s.fld Reg.KPA_MPPTC 0 8 + 1) 255 ∧ OnlyRegs s t [Reg.KPA_MPPTC]))
  ∧ (∀ (s : State) (voc : Nat), s.kpa.vocOpen = true → voc < 65536 →
    Does (.vocWindowEnd voc) s (fun t =>
      t.kpa = { s.kpa with vocOpen := false } ∧ t.fld Reg.KPA_MPPT 16 16 = voc
        ∧ t.fld Reg.KPA_MPPT 0 16 = (if s.fracVoc voc * 8 < ((s.fld Reg.KPA_MPPT 0 16 : Int) - s.fracVoc voc).natAbs * 100 then s.fracVoc voc else s.fld Reg.KPA_MPPT 0 16)
        ∧ RegsBut s t (Reg.KPA_MPPT :: logRegs 0) ∧ SameMem s t))
  ∧ (∀ (s : State) (kin : Nat), s.kflag 0 = false → s.kflag 2 = false → s.fld Reg.KPA_BSCFG 0 16 ≤ kin → kin < 65536 →
    Does (.blackStartQualify kin) s (fun t =>
      t.kflag 1 = true ∧ t.bit Reg.KPA_STAT 16 = true ∧ t.fld Reg.KPA_MPPT 16 16 = kin ∧ t.fld Reg.KPA_MPPT 0 16 = s.fracVoc kin
        ∧ (s.bit Reg.KPA_CTRL 3 = false → t.ksrc = srcKin) ∧ RegsBut s t (Reg.KPA_MPPT :: kpaShown) ∧ SameMem s t ∧ t.kpa = s.kpa))
  ∧ ∀ s : State, s.bit Reg.KPA_STAT 16 = true → s.marginShown = true → s.rowing = true →
    Does .blackStartSculls s (fun t => t.fld Reg.PART_CTRL 0 4 = 15 ∧ OnlyRegs s t [Reg.PART_CTRL])

/-- No zone and no headroom stops a charge at a KBAT voltage (R144, R145). -/
def chargesAt (s : State) (kbatMv : Nat) : Prop :=
  s.zonePauses (s.fld Reg.KPA_CHGST 4 3) = false ∧ (s.chem = 3 ∨ kbatMv ≤ s.zoneCvMv (s.fld Reg.KPA_CHGST 4 3))

/-- What every event of the charger leaves alone. -/
def chargerFrame (s t : State) : Prop :=
  RegsBut s t ([Reg.KPA_MEAS2, Reg.KPA_MEAS3] ++ kpaShown) ∧ SameMem s t ∧ t.nv = s.nv ∧ t.cam = s.cam ∧ t.power = s.power

/-- The charger's states (Table 6-4): where each event of the battery leads from each phase, with the fault and active flags that follow the state (R140 to R148). Where the manual leaves a point open, the model's choice of log entry 82 stands. -/
def Obligations.ChargerStates : Prop :=
  (∀ (s : State) (n : Nat), n < 10 → (s.toCharge n).chg = n ∧ (s.chg ≠ n → (s.toCharge n).kflag 6 = decide (n = cFault)))
  ∧ (∀ (s : State) (kth kid mv : Nat), kth < 1966 → s.chg ≠ cFault →
    Does (.kbatInserted kth kid mv) s (fun t => t.chg = cFault ∧ t.kflag 2 = false ∧ t.kpa.present = true ∧ t.bit Reg.KPA_IRQ 4 = true ∧ chargerFrame s t))
  ∧ (∀ (s : State) (kth kid mv : Nat), 1966 ≤ kth → kid < 65536 → s.kpa.present = false → s.bit Reg.KPA_CTRL 0 = false →
    Does (.kbatInserted kth kid mv) s (fun t => t.chg = cOff ∧ t.kpa = { s.kpa with present := true, soc := none, setMa := t.kpa.setMa } ∧ t.fld Reg.KPA_MEAS3 16 16 = kid ∧ t.bit Reg.KPA_IRQ 1 = true ∧ chargerFrame s t))
  ∧ (∀ (s : State) (kth kid mv : Nat), 1966 ≤ kth → s.kpa.present = false → s.kpa.supplement = false → s.bit Reg.KPA_CTRL 0 = true → s.chem ≠ 0 → s.ksrc = srcPack ∨ s.ksrc = srcKin → 1000 ≤ mv →
    s.trickleMv ≤ mv → s.preMv ≤ mv → mv < s.rechargeMv → chargesAt s mv → Does (.kbatInserted kth kid mv) s (fun t => t.chg = cCc ∧ t.kpa.present = true ∧ chargerFrame s t))
  ∧ (∀ s : State, Does .kbatMissing s (fun t => t.chg = cMissing ∧ t.kflag 2 = false ∧ t.kpa.present = false ∧ t.kpa.soc = none ∧ t.bit Reg.KPA_IRQ 2 = true ∧ chargerFrame s t))
  ∧ (∀ (s : State) (mv : Nat), s.chg = cDetect → s.kpa.probe = true → mv < 1000 → Does (.kbatShortProbeEnd mv) s (fun t => t.chg = cFault ∧ t.kflag 6 = true ∧ chargerFrame s t))
  ∧ (∀ (s : State) (mv : Nat), s.chg = cDetect → s.kpa.probe = true → 1000 ≤ mv → mv < s.trickleMv → s.zonePauses (s.fld Reg.KPA_CHGST 4 3) = false →
    Does (.kbatShortProbeEnd mv) s (fun t => t.chg = cTrickle ∧ chargerFrame s t))
  ∧ (∀ (s : State) (mv : Nat), s.chg = cTrickle → s.trickleMv ≤ mv → mv < s.preMv → s.kpa.pause < 4 → s.zonePauses (s.fld Reg.KPA_CHGST 4 3) = false →
    Does (.chargePhaseLevel mv) s (fun t => t.chg = cPre ∧ chargerFrame s t))
  ∧ (∀ (s : State) (mv : Nat), s.chg = cPre → s.preMv ≤ mv → s.kpa.pause < 4 → chargesAt s mv → Does (.chargePhaseLevel mv) s (fun t => t.chg = cCc ∧ t.kpa.chargeUs = 0 ∧ chargerFrame s t))
  ∧ (∀ (s : State) (mv : Nat), s.chg = cCc → s.chem ≠ 3 → s.zoneCvMv (s.fld Reg.KPA_CHGST 4 3) ≤ mv → Does (.chargePhaseLevel mv) s (fun t => t.chg = cCv ∧ chargerFrame s t))
  ∧ (∀ (s : State) (mv : Nat), s.chg = cCc → s.chem = 3 → 1600 * s.kcells ≤ mv → Does (.chargePhaseLevel mv) s (fun t => t.chg = cFault ∧ chargerFrame s t))
  ∧ (∀ s : State, s.charging = true → Does .chargeTimerExpire s (fun t => t.chg = cFault ∧ t.kflag 2 = false ∧ chargerFrame s t))
  ∧ (∀ s : State, s.chg = cCv → s.bit Reg.KPA_CHG2 16 = false → Does .chargeTaperEnd s (fun t => t.chg = cDone ∧ t.kpa.soc = some 100 ∧ t.bit Reg.KPA_IRQ 3 = true))
  ∧ (∀ s : State, s.chg = cCc → s.chem = 3 → Does .nimhDtdt s (fun t => t.chg = cDone ∧ t.kpa.soc = some 100)
    ∧ (s.bit Reg.KPA_CHG2 16 = false → Does .nimhDeltaV s (fun t => t.chg = cDone ∧ t.kpa.soc = some 100)))
  ∧ (∀ (s : State) (kth : Int) (mv : Nat), s.charging = true → s.zonePauses (s.zoneOf (s.fld Reg.KPA_CHGST 4 3) kth) = true →
    Does (.chargeZoneChange kth mv) s (fun t => t.chg = cPause ∧ t.kpa.phase = s.chg ∧ t.fld Reg.KPA_CHGST 4 3 = s.zoneOf (s.fld Reg.KPA_CHGST 4 3) kth ∧ chargerFrame s t))
  ∧ (∀ s : State, s.charging = true → Does .chargeOvervoltage s (fun t => t.kflag 5 = false ∧ t.kpa = { s.kpa with ov := true, setMa := 0 } ∧ t.chg = s.chg ∧ RegsBut s t [Reg.KPA_STAT] ∧ SameMem s t))
  ∧ (∀ s : State, s.kpa.ov = true → Does (.chargeOvCheck true) s (fun t => t.chg = cFault ∧ t.kpa.ov = false ∧ chargerFrame s t) ∧ Does (.chargeOvCheck false) s (fun t => t.chg = cMissing ∧ t.kpa.present = false ∧ chargerFrame s t))
  ∧ (∀ s : State, s.chg = cDone → s.bit Reg.KPA_CHG2 16 = false → s.mayCharge = true → exec .chargeRecharge s = .next (s.detect (min s.kbatMv (s.rechargeMv - 1))))
  ∧ (∀ s : State, s.charging = true → Does .chargeSourceLost s (fun t => t.chg = cOff ∧ t.kpa = { s.kpa with lost := true, probe := false, pause := 0, setMa := 0 } ∧ chargerFrame s t))
  ∧ (∀ s : State, s.awake = true → s.charging = true → Does .chargerStop s (fun t => t.chg = cDone ∧ t.kpa.soc = some 100))
  ∧ (∀ s : State, s.awake = true → s.mayCharge = true → s.chg = cDone ∨ s.chg = cOff → exec .chargerStart s = .next (s.detect s.kbatMv))
  ∧ (∀ s : State, s.awake = true → s.mayCharge = true → s.chg = cFault → exec .chargerClear s = .next (s.detect s.kbatMv))
  ∧ ∀ s : State, s.awake = true → s.mayCharge = false → s.chg = cFault → Does .chargerClear s (fun t => t.chg = cOff ∧ t.kflag 6 = false ∧ chargerFrame s t)

/-- Ship mode takes its key and leaves every coil, the bridge, the insulation switches, the charger and the auxiliary output off, the button restarts the part from any mode or shows and wakes (R149 to R151); the auxiliary output soft-starts, retries a fault after 5 s, latches at the third within 10 minutes, and stands by in CHARGER mode (R152, R153). Where the manual leaves a point open, the model's choice of log entry 89 stands. -/
def Obligations.ShipButtonAndAuxiliaryOutput : Prop :=
  (∀ (s : State) (v : Word), s.awake = true → getField v.toNat 16 16 = 0x5348 → getField v.toNat 0 1 = 1 →
    Does (.shipEnter v) s (fun t => t.power = { s.power with phase := .shipMode } ∧ t.rdN Reg.CTR_OUT = 0 ∧ t.rdN Reg.CTR_STAT = 0 ∧ t.fld Reg.IMD_CTRL 0 4 = 0
      ∧ t.bit Reg.MDI_STAT 8 = false ∧ t.aux = 0 ∧ t.chg = cOff ∧ SameMem s t
      ∧ RegsBut s t ([Reg.CTR_OUT, Reg.CTR_STAT, Reg.CTR_PHASE, Reg.CTR_BKI, Reg.IMD_CTRL, Reg.IMD_STAT, Reg.MDI_STAT, Reg.KPA_AUXST] ++ kpaShown)))
  ∧ (∀ (s : State) (v : Word), getField v.toNat 16 16 ≠ 0x5348 ∨ getField v.toNat 0 1 = 0 → exec (.shipEnter v) s = .next s)
  ∧ (∀ s : State, s.power.phase = .shipMode → exec .shipWake s = .next s.assertPor)
  ∧ (∀ s : State, exec .kbtnLongPress s = .next s.assertPor)
  ∧ (∀ s : State, s.power.phase ≠ .hibernating → Does .kbtnPress s (fun t => t.kflag 7 = true ∧ t.bit Reg.KPA_IRQ 7 = true ∧ OnlyRegs s t [Reg.KPA_STAT, Reg.KPA_IRQ]))
  ∧ (∀ s : State, s.power.phase = .hibernating → Does .kbtnPress s (fun t => t.power.phase = .held ∧ t.power.wakeSrc = 4 ∧ t.fld Reg.RST_LAST 0 4 = 7 ∧ t.nv = s.nv))
  ∧ (∀ s : State, s.aux = 1 ∨ s.aux = 2 →
    Does .auxFault s (fun t =>
      t.aux = (if (within s.clock minutes10 s.kpa.auxFaults).length < 2 then 4 else 5) ∧ t.fld Reg.KPA_AUXST 4 2 = min 3 ((within s.clock minutes10 s.kpa.auxFaults).length + 1)
        ∧ t.kpa = { s.kpa with auxFaults := within s.clock minutes10 s.kpa.auxFaults ++ [s.clock] } ∧ t.bit Reg.KPA_IRQ 5 = true
        ∧ RegsBut s t ([Reg.KPA_AUXST, Reg.KPA_IRQ] ++ logRegs 0) ∧ SameMem s t))
  ∧ (∀ s : State, s.aux = 1 → (within s.clock minutes10 s.kpa.auxFaults).length < 2 →
    Does .auxSoftstartTimeout s (fun t => t.aux = 4 ∧ t.bit Reg.KPA_IRQ 5 = true ∧ RegsBut s t ([Reg.KPA_AUXST, Reg.KPA_IRQ] ++ logRegs 0) ∧ SameMem s t))
  ∧ (∀ s : State, s.aux = 4 → Does .auxRetry s (fun t => t.aux = 1 ∧ OnlyRegs s t [Reg.KPA_AUXST]))
  ∧ (∀ s : State, s.aux = 1 → Does .auxTargetReached s (fun t => t.aux = 2 ∧ OnlyRegs s t [Reg.KPA_AUXST]))
  ∧ (∀ s : State, s.aux = 2 → s.fld Reg.KPA_AUXCFG 0 2 = 2 → Does .auxChargerEnd s (fun t => t.aux = 3 ∧ OnlyRegs s t [Reg.KPA_AUXST]))
  ∧ (∀ (s : State) (mv : Nat), s.aux = 3 → mv < s.fld Reg.KPA_AUXCFG 4 12 * 10 - (s.fld Reg.KPA_AUXSCL 26 6 + 1) * 50 → Does (.auxProbe mv) s (fun t => t.aux = 1 ∧ OnlyRegs s t [Reg.KPA_AUXST]))
  ∧ (∀ (s : State) (mv : Nat), s.aux ≠ 3 → exec (.auxProbe mv) s = .next s)
  ∧ ∀ s : State, s.awake = true → s.aux = 5 → Does .auxClear s (fun t => t.aux = 1 ∧ t.fld Reg.KPA_AUXST 4 2 = 0 ∧ t.kpa = { s.kpa with auxFaults := [] } ∧ RegsBut s t [Reg.KPA_AUXST] ∧ SameMem s t)

/-! Measurement, isolator, safety inputs, insulation, contactors (R154 to R177, R227 to R267) -/

/-- The coulomb converter (R154 to R160, R177): a sample is the trimmed mean voltage of an interval as a 24-bit code, with the sign of CCA.CTRL.INV, and its product with the interval's duration is accumulated; in the three settling intervals after a chop the last sample before it is added; at a limit the accumulator saturates and is flagged; with EN 0 nothing is counted; in hibernation the sample that completes CNT consecutive ones above TH raises WAKE; a read of ACCL latches both words of one value. Where the manual leaves a point open, the model's choice of log entry 147 stands. -/
def coulombConverter : Prop :=
  (∀ (s : State) (nv : Int) (ns : Nat) (code : Int), s.bit Reg.CCA_CTRL 0 = true → s.cca.settle = 0 → code = ccaCode (if s.bit Reg.CCA_CTRL 1 then -s.ccaTrimmed nv else s.ccaTrimmed nv) →
    accMin ≤ s.cca.acc + code * ns / 1280 → s.cca.acc + code * ns / 1280 ≤ accMax →
    Does (.ccaInterval nv ns) s (fun t =>
      t.cca.acc = s.cca.acc + code * ns / 1280 ∧ t.cca.sample = code ∧ signed 24 (t.fld Reg.CCA_SAMPLE 0 24) = code ∧ t.rdN Reg.CCA_ACCL = (t.accCount % 4294967296).toNat
        ∧ t.bit Reg.CCA_STAT 1 = false ∧ t.meas = s.meas ∧ (s.bit Reg.CCA_STAT 2 = false → t.rdN Reg.CCA_IRQ = s.rdN Reg.CCA_IRQ)
        ∧ (s.bit Reg.CCA_STAT 2 = true → (s.fld Reg.CCA_WAKE 0 24 : Int) < code.natAbs → s.fld Reg.CCA_WAKE 24 4 ≤ s.cca.wakeRun → t.bit Reg.CCA_IRQ 0 = true)
        ∧ RegsBut s t [Reg.CCA_STAT, Reg.CCA_SAMPLE, Reg.CCA_ACCL, Reg.CCA_IRQ] ∧ SameMem s t))
  ∧ (∀ (s : State) (nv : Int) (ns : Nat), s.bit Reg.CCA_CTRL 0 = true → 0 < s.cca.settle →
    accMin ≤ s.cca.acc + s.cca.held * ns / 1280 → s.cca.acc + s.cca.held * ns / 1280 ≤ accMax →
    Does (.ccaInterval nv ns) s (fun t => t.cca.acc = s.cca.acc + s.cca.held * ns / 1280 ∧ t.cca.settle = s.cca.settle - 1 ∧ t.bit Reg.CCA_STAT 1 = true ∧ t.meas.settled = true))
  ∧ (∀ (s : State) (nv : Int) (ns : Nat), s.bit Reg.CCA_CTRL 0 = true → s.cca.settle = 0 → s.bit Reg.CCA_CTRL 1 = false → accMax < s.cca.acc + ccaCode (s.ccaTrimmed nv) * ns / 1280 →
    Does (.ccaInterval nv ns) s (fun t => t.cca.acc = accMax ∧ t.bit Reg.CCA_STAT 8 = true ∧ t.bit Reg.CCA_IRQ 1 = true))
  ∧ (∀ (s : State) (nv : Int) (ns : Nat), s.bit Reg.CCA_CTRL 0 = false → exec (.ccaInterval nv ns) s = .next s)
  ∧ ∀ s : State, s.awake = true → Does .ccaLiveRead s (fun t =>
      t.rdN Reg.CCA_ACCL = (s.accCount % 4294967296).toNat ∧ t.rdN Reg.CCA_ACCH = (s.accCount / 4294967296 % 4294967296).toNat ∧ OnlyRegs s t [Reg.CCA_ACCL, Reg.CCA_ACCH])

/-- The fast current stream: trimmed samples, inverted where FCS.CTRL.INV is set, the short and break-inhibit comparators, which trip above their threshold, release one step below it and reach only TEST during the self-test, the capture buffer of 1,024 samples and its read-out (R162 to R167, R177). -/
def fastCurrentStream : Prop :=
  (∀ (s : State) (code raw : Int), s.bit Reg.FCS_CTRL 0 = true → raw = (if s.bit Reg.FCS_CTRL 1 then -s.fcsTrimmed code else s.fcsTrimmed code) → -2047 < raw → raw < 2047 →
    s.bit Reg.FCS_CAP 16 = false → s.meas.capLeft = none →
    Does (.fcsSample code) s (fun t =>
      signed 12 (t.fld Reg.FCS_SAMPLE 0 12) = raw ∧ t.meas.fSum = s.meas.fSum + raw ∧ t.meas.fCount = s.meas.fCount + 1 ∧ t.meas.capture = (raw :: s.meas.capture).take 1024
        ∧ (0 < s.meas.fCount → t.meas.fMin = min s.meas.fMin raw ∧ t.meas.fMax = max s.meas.fMax raw) ∧ RegsBut s t [Reg.FCS_SAMPLE] ∧ SameMem s t))
  ∧ (∀ (s : State) (code : Int), s.bit Reg.FCS_CTRL 0 = true → s.fcsTrimmed code ≤ -2048 ∨ 2047 ≤ s.fcsTrimmed code →
    Does (.fcsSample code) s (fun t => t.bit Reg.FCS_FLAGS 3 = true ∧ t.bit Reg.FCS_IRQ 3 = true ∧ RegsBut s t [Reg.FCS_SAMPLE, Reg.FCS_FLAGS, Reg.FCS_IRQ, Reg.FCS_CAP] ∧ SameMem s t))
  ∧ (∀ (s : State) (us nv : Nat), s.fld Reg.FCS_OCS 0 6 ≠ 0 → dacNv (s.fld Reg.FCS_OCS 0 6) < nv → us < 2 ^ 15 →
    (s.meas.selfTest = true → Does (.ocsTrip us nv) s (fun t => t.bit Reg.FCS_TEST 8 = true ∧ OnlyRegs s t [Reg.FCS_TEST]))
    ∧ (s.meas.selfTest = false → Does (.ocsTrip us nv) s (fun t =>
      t.bit Reg.FCS_FLAGS 0 = true ∧ t.rdN Reg.FCS_OCSTIME = (s.stk.base + us) % 2 ^ 48 % 2 ^ 32 ∧ t.bit Reg.FCS_IRQ 0 = true
        ∧ (s.bit Reg.FCS_CAP 16 = false → s.meas.capLeft = none → t.meas = { s.meas with capLeft := some 767 })
        ∧ RegsBut s t ([Reg.STK_PHASE, Reg.FCS_FLAGS, Reg.FCS_OCSTIME, Reg.FCS_IRQ] ++ logRegs 0) ∧ SameMem s t)))
  ∧ (∀ (s : State) (us nv : Nat), s.fld Reg.FCS_OCS 0 6 = 0 ∨ nv ≤ dacNv (s.fld Reg.FCS_OCS 0 6) → exec (.ocsTrip us nv) s = .next s)
  ∧ (∀ (s : State) (nv : Nat), s.fld Reg.FCS_BKI 0 6 ≠ 0 → dacNv (s.fld Reg.FCS_BKI 0 6) < nv →
    (s.meas.selfTest = true → Does (.bkiTrip nv) s (fun t => t.bit Reg.FCS_TEST 9 = true ∧ OnlyRegs s t [Reg.FCS_TEST]))
    ∧ (s.meas.selfTest = false → Does (.bkiTrip nv) s (fun t =>
      t.bit Reg.FCS_FLAGS 1 = true ∧ t.bit Reg.FCS_FLAGS 2 = true ∧ t.bit Reg.CTR_BKI 0 = true ∧ OnlyRegs s t [Reg.FCS_FLAGS, Reg.FCS_IRQ, Reg.CTR_BKI])))
  ∧ (∀ (s : State) (nv : Nat), s.meas.selfTest = false → s.fld Reg.FCS_BKI 0 6 = 0 ∨ nv < releaseNv (s.fld Reg.FCS_BKI 0 6) →
    Does (.bkiRelease nv) s (fun t => t.bit Reg.FCS_FLAGS 1 = false ∧ t.bit Reg.CTR_BKI 0 = false ∧ t.bit Reg.FCS_FLAGS 2 = s.bit Reg.FCS_FLAGS 2 ∧ OnlyRegs s t [Reg.FCS_FLAGS, Reg.CTR_BKI]))
  ∧ (∀ (s : State) (nv : Nat), s.meas.selfTest = true ∨ (s.fld Reg.FCS_BKI 0 6 ≠ 0 ∧ releaseNv (s.fld Reg.FCS_BKI 0 6) ≤ nv) → exec (.bkiRelease nv) s = .next s)
  ∧ (∀ s : State, s.awake = true → s.bit Reg.FCS_CAP 16 = false → s.meas.capLeft = none → Does .captureTrigger s (fun t => t = { s with meas := { s.meas with capLeft := some 767 } }))
  ∧ (∀ s : State, s.awake = true →
    Does .captureArm s (fun t => t.bit Reg.FCS_CAP 16 = false ∧ t.fld Reg.FCS_CAP 0 10 = 0 ∧ t.meas = { s.meas with capLeft := none } ∧ RegsBut s t [Reg.FCS_CAP] ∧ SameMem s t))
  ∧ (∀ s : State, s.awake = true → s.fld Reg.FCS_CAP 0 10 < s.meas.capture.length →
    Does .captureRead s (fun t =>
      t.fld Reg.FCS_CAPDATA 0 12 = (s.meas.capture.reverse.getD (s.fld Reg.FCS_CAP 0 10) 0 % 4096).toNat ∧ t.fld Reg.FCS_CAP 0 10 = (s.fld Reg.FCS_CAP 0 10 + 1) % 1024
        ∧ OnlyRegs s t [Reg.FCS_CAPDATA, Reg.FCS_CAP]))
  ∧ (∀ s : State, s.awake = true → Does .fcsSelfTest s (fun t => t.meas = { s.meas with selfTest := true } ∧ t.fld Reg.FCS_TEST 8 3 = 0 ∧ RegsBut s t [Reg.FCS_TEST] ∧ SameMem s t))
  ∧ (∀ (s : State) (code : Int), s.meas.selfTest = true → 171000000 ≤ code * 200000000 / 2048 → code * 200000000 / 2048 ≤ 189000000 →
    Does (.fcsSelfTestEnd true true code) s (fun t => t.meas = { s.meas with selfTest := false } ∧ t.fld Reg.FCS_TEST 8 3 = 7 ∧ t.cam = s.cam ∧ RegsBut s t [Reg.FCS_TEST] ∧ SameMem s t))
  ∧ ∀ (s : State) (bki : Bool) (code : Int), s.meas.selfTest = true → s.rowing = true → s.cam.state ≠ .easy → s.acts = .idle →
    Does (.fcsSelfTestEnd false bki code) s (fun t => t.bit Reg.FCS_FLAGS 4 = true ∧ t.cam.state = .easy ∧ t.cam.easyCauses = [0x18])

/-- High-voltage and temperature conversions (R169 to R176): a code into RAW and the trimmed mean of the newest codes into MEAN, full scale shown as SAT, a channel that is off reads 0; the test current's result sets and clears OPEN; an NTC code, corrected by the reference trim, is kept to four counts with its open and short flags, and the die sensor is taken when enabled. Where the manual leaves a point open, the model's choice of log entries 2 and 5 stands. -/
def Obligations.VoltageAndTemperatureConversions : Prop :=
  (∀ (s : State) (ch code : Nat), ch < 6 → s.bit Reg.HVS_CTRL ch = true → code < 65535 → getField s.meas.hvsTest ch 1 = 0 →
    Does (.hvsConversion ch code) s (fun t =>
      t.fld (Reg.HVS_CH ch) 0 16 = code ∧ Tab.get [] t.meas.hvs ch = (code :: Tab.get [] s.meas.hvs ch).take (2 ^ s.fld Reg.HVS_CTRL 8 3)
        ∧ t.fld (Reg.HVS_CH ch) 16 16 = s.hvsTrimmed ch ((Tab.get [] t.meas.hvs ch).foldl (· + ·) 0 / (Tab.get [] t.meas.hvs ch).length)
        ∧ RegsBut s t [Reg.HVS_CH ch] ∧ SameMem s t))
  ∧ (∀ (s : State) (ch code : Nat), ch < 6 → s.bit Reg.HVS_CTRL ch = true → 65535 ≤ code →
    Does (.hvsConversion ch code) s (fun t => t.fld (Reg.HVS_CH ch) 0 16 = 65535 ∧ t.bit Reg.HVS_STAT (8 + ch) = true ∧ t.bit Reg.HVS_IRQ 1 = true))
  ∧ (∀ (s : State) (ch code : Nat), ch < 6 → s.bit Reg.HVS_CTRL ch = false → Does (.hvsConversion ch code) s (fun t => t.rdN (Reg.HVS_CH ch) = 0 ∧ OnlyRegs s t [Reg.HVS_CH ch]))
  ∧ (∀ (s : State) (mask : Nat), s.awake = true → Does (.hvsTest mask) s (fun t => t = { s with meas := { s.meas with hvsTest := mask &&& s.fld Reg.HVS_CTRL 0 6 } }))
  ∧ (∀ (s : State) (full : Nat),
    Does (.hvsTestEnd full) s (fun t =>
      (∀ c, c < 6 → t.bit Reg.HVS_STAT c = if getField s.meas.hvsTest c 1 = 0 then s.bit Reg.HVS_STAT c else decide (getField full c 1 = 1))
        ∧ t.meas = { s.meas with hvsTest := 0 } ∧ RegsBut s t ([Reg.HVS_STAT, Reg.HVS_IRQ] ++ logRegs 0) ∧ SameMem s t))
  ∧ ∀ (s : State) (codes : List Nat) (die : Int), codes.length = 8 → -32768 ≤ die → die ≤ 32767 →
    Does (.tmpConversion codes die) s (fun t =>
      (∀ m, m < 8 → s.bit Reg.TMP_CTRL m = true →
        t.fld (Reg.TMP_LT m) 0 16 = s.ntcCode (codes.getD m 0) ∧ t.bit (Reg.TMP_LT m) 16 = decide (63570 < s.ntcCode (codes.getD m 0))
          ∧ t.bit (Reg.TMP_LT m) 17 = decide (s.ntcCode (codes.getD m 0) < 1966))
        ∧ (∀ m, m < 8 → s.bit Reg.TMP_CTRL m = false → t.rd (Reg.TMP_LT m) = s.rd (Reg.TMP_LT m))
        ∧ (s.bit Reg.TMP_CTRL 8 = true → signed 16 (t.fld Reg.TMP_DIE 0 16) = die)
        ∧ OnlyRegs s t ((List.range 8).map Reg.TMP_LT ++ [Reg.TMP_IRQ, Reg.TMP_DIE]))

/-- The isolator: a fault of a move, a stop, the end of braking, a long wait (R255 to R257). A move in the direction of a write of GO follows at the next catch. -/
def isolatorEvents : Prop :=
  (∀ s : State, s.driving = true → s.mdi.st = mdiMoving ∨ s.mdi.st = mdiHoming →
    Does .mdiTimeout s (fun t => t.mdi.st = mdiFault ∧ t.bit Reg.MDI_FAULT 0 = true ∧ t.driving = true ∧ t.bit Reg.MDI_IRQ 1 = true
      ∧ RegsBut s t ([Reg.MDI_FAULT, Reg.MDI_IRQ, Reg.MDI_STAT] ++ logRegs 0) ∧ SameMem s t)
    ∧ Does .mdiStall s (fun t => t.mdi.st = mdiFault ∧ t.bit Reg.MDI_FAULT 1 = true ∧ t.fld Reg.MDI_STAT 0 3 = mdiFault
      ∧ RegsBut s t ([Reg.MDI_FAULT, Reg.MDI_IRQ, Reg.MDI_STAT] ++ logRegs 0) ∧ SameMem s t))
  ∧ (∀ s : State, s.driving = true →
    Does .mdiOvercurrent s (fun t => t.mdi.st = mdiFault ∧ t.bit Reg.MDI_FAULT 5 = true ∧ t.driving = false ∧ t.fld Reg.MDI_STAT 4 3 = 4
      ∧ RegsBut s t ([Reg.MDI_FAULT, Reg.MDI_IRQ, Reg.MDI_STAT] ++ logRegs 0) ∧ SameMem s t))
  ∧ (∀ s : State, s.driving = false → exec .mdiTimeout s = .next s ∧ exec .mdiStall s = .next s ∧ exec .mdiOvercurrent s = .next s)
  ∧ (∀ s : State, s.mdi.brake = true → Does .mdiBrakeEnd s (fun t => t = { s with mdi := { s.mdi with brake := false } }))
  ∧ (∀ s : State, s.mdi.waitSince.isSome = true → s.mdi.waitLogged = false →
    Does .mdiWaitDefer s (fun t => t.mdi = { s.mdi with waitLogged := true } ∧ RegsBut s t (logRegs 0) ∧ SameMem s t))
  ∧ (∀ (s : State) (close : Bool), s.awake = true → Does (.mdiGo close) s (fun t => t = { s with mdi := { s.mdi with go := some (if close then 1 else 0) } }))
  ∧ ∀ s : State, s.awake = true → Does .mdiStop s (fun t => t = { s with mdi := { s.mdi with stop := true } })

/-- Safety inputs: a level, a cross or stuck finding and its clearing show in SIN.STAT, findings only while the level is high and a source is set (R251); an input whose source is off does not rise, and a faulty test-pulse source turns off with its inputs low (R250); a pair that disagrees is latched tripped on both sides (R254). -/
def safetyInputs : Prop :=
  (∀ (s : State) (n : Nat) (level : Bool), n < 8 → s.bit Reg.SIN_STAT n ≠ level → (level = true → s.sourceOff n = false) →
    Does (.sinLevelChange n level) s (fun t => t.bit Reg.SIN_STAT n = level ∧ t.bit Reg.SIN_RAW n = level ∧ t.bit Reg.SIN_IRQ n = true
      ∧ (∀ b, b < 32 → b ≠ n → t.bit Reg.SIN_STAT b = s.bit Reg.SIN_STAT b) ∧ OnlyRegs s t [Reg.SIN_STAT, Reg.SIN_RAW, Reg.SIN_IRQ]))
  ∧ (∀ (s : State) (n : Nat), s.sourceOff n = true → exec (.sinLevelChange n true) s = .next s)
  ∧ (∀ (s : State) (n src : Nat), n < 8 → s.sinSource n ≠ 0 → s.bit Reg.SIN_STAT n = true →
    (src ≠ s.sinSource n → s.bit Reg.SIN_STAT (8 + n) = false → Does (.sinFinding n (some src)) s (fun t =>
      t.bit Reg.SIN_STAT (8 + n) = true ∧ Tab.get 0 t.sin.crossBy n = src ∧ RegsBut s t ([Reg.SIN_STAT, Reg.SIN_IRQ] ++ logRegs 0) ∧ SameMem s t))
    ∧ Does (.sinFinding n none) s (fun t => t.bit Reg.SIN_STAT (16 + n) = true ∧ t.sin = s.sin ∧ RegsBut s t ([Reg.SIN_STAT, Reg.SIN_IRQ] ++ logRegs 0) ∧ SameMem s t))
  ∧ (∀ (s : State) (n : Nat) (cross : Option Nat), s.sinSource n = 0 ∨ s.sinHigh n = false ∨ cross = some (s.sinSource n) → exec (.sinFinding n cross) s = .next s)
  ∧ (∀ (s : State) (n : Nat), n < 8 → s.bit Reg.SIN_STAT n = true →
    Does (.sinFindingClear n) s (fun t => t.bit Reg.SIN_STAT (8 + n) = false ∧ t.bit Reg.SIN_STAT (16 + n) = false ∧ t.bit Reg.SIN_STAT n = true
      ∧ RegsBut s t ([Reg.SIN_STAT, Reg.SIN_IRQ] ++ logRegs 0) ∧ SameMem s t))
  ∧ (∀ (s : State) (n : Nat), s.sinHigh n = false → exec (.sinFindingClear n) s = .next s)
  ∧ (∀ (s : State) (src : Nat), src < 4 →
    Does (.testPulseFault src) s (fun t => t.bit Reg.SIN_TPSTAT (16 + src) = true ∧ t.bit Reg.SIN_CTRL src = false ∧ (∀ n, n < 10 → s.sinSource n = src + 1 → t.bit Reg.SIN_RAW n = false)
      ∧ (∀ n, n < 10 → s.sinSource n ≠ src + 1 → t.bit Reg.SIN_RAW n = s.bit Reg.SIN_RAW n)
      ∧ RegsBut s t ([Reg.SIN_TPSTAT, Reg.SIN_CTRL, Reg.SIN_IRQ, Reg.SIN_RAW] ++ logRegs 0) ∧ SameMem s t))
  ∧ ∀ (s : State) (n p : Nat), n < 8 → p < 8 → s.sinPartner n = some p → s.sinTripped n ≠ s.sinTripped p →
    Does (.sinPairDiscrepancy n) s (fun t => getField t.sin.latched n 1 = 1 ∧ getField t.sin.latched p 1 = 1
      ∧ (∀ m, m ≠ n → m ≠ p → getField t.sin.latched m 1 = getField s.sin.latched m 1) ∧ RegsBut s t (logRegs 0) ∧ SameMem s t)

/-- The insulation monitor: the other switch is ordered at the half of the period (R12, R261); an included valid period publishes both pole resistances and sets VALID; three periods without one show 0xFFFF_FFFF; an excluded period that falls due sets KINHOLD at once and begins at a boundary of a later stroke, where another source may carry the part, else it is postponed (R135, R263); a stale module leakage counts as none; a switch fault turns its switch off (R265). Where the manual leaves a point open, the model's choice of log entries 1, 115, 116 and 146 stands. -/
def Obligations.InsulationMonitor : Prop :=
  (∀ (s : State) (v1 v1a v1b u1 : Nat), s.imd.on = true → s.imd.second = false →
    Does (.imdHalfEnd v1 v1a v1b u1) s (fun t =>
      t.imd = { s.imd with second := true, v1 := v1, u1 := u1, firstOk := decide (((v1a : Int) - v1b).natAbs * 500 < u1) } ∧ t.bit Reg.IMD_CTRL 1 = false
        ∧ t.bit Reg.IMD_CTRL 2 = true ∧ t.bit Reg.IMD_CTRL 3 = s.imd.excl ∧ RegsBut s t [Reg.IMD_CTRL] ∧ SameMem s t))
  ∧ (∀ (s : State) (v1 v1a v1b u1 : Nat), s.imd.on = false ∨ s.imd.second = true → exec (.imdHalfEnd v1 v1a v1b u1) s = .next s)
  ∧ (∀ (s : State) (v2 v2a v2b u2 : Nat) (d gp gn : Rat), s.imd.on = true → s.imd.second = true → s.imd.excl = false → s.imd.faulted = false → s.imd.firstOk = true →
    s.parN .imdUmin ≤ (s.imd.u1 : Int) → s.parN .imdUmin ≤ (u2 : Int) → ((s.imd.u1 : Int) - u2).natAbs * 20 ≤ max s.imd.u1 u2 → ((v2a : Int) - v2b).natAbs * 500 < u2 →
    s.imdSolve s.imd.v1 s.imd.u1 v2 u2 = (d, gp, gn) → 0 < d → 0 ≤ gp → 0 ≤ gn → s.imd.gNExcl = none →
    Does (.imdPeriodEnd v2 v2a v2b u2) s (fun t =>
      t.rdN Reg.IMD_RP = ohmOf gp ∧ t.rdN Reg.IMD_RN = ohmOf gn ∧ t.imdFlag 2 = true ∧ t.imdFlag 3 = false ∧ t.imd.gNPrev = some gn ∧ t.imd.sinceValid = 0
        ∧ ((min (ohmOf gp) (ohmOf gn) : Rat) < (s.parN .imdWarn : Rat) * s.parN .imdVref / 1000000 → t.imdFlag 0 = true)))
  ∧ (∀ (s : State) (v2 v2a v2b u2 : Nat), s.imd.on = true → s.imd.second = true → (u2 : Int) < s.parN .imdUmin →
    Does (.imdPeriodEnd v2 v2a v2b u2) s (fun t =>
      t.imdFlag 2 = false ∧ t.imdFlag 7 = true ∧ t.imd.gNPrev = none ∧ t.imd.sinceValid = s.imd.sinceValid + 1 ∧ t.imd.invalid = s.imd.invalid
        ∧ (2 ≤ s.imd.sinceValid → t.rdN Reg.IMD_RP = 0xFFFFFFFF ∧ t.rdN Reg.IMD_RN = 0xFFFFFFFF)))
  ∧ (∀ (s : State) (v2 v2a v2b u2 : Nat), s.imd.on = true → s.imd.second = true → s.imd.due = none ∨ s.imd.due = some s.strokeNo →
    Does (.imdPeriodEnd v2 v2a v2b u2) s (fun t => t.imd.excl = false ∧ t.bit Reg.IMD_CTRL 3 = false))
  ∧ (∀ s : State, s.imd.on = true → s.imd.excl = false → s.imd.due = none → s.kinMayOpen = true →
    Does .imdKinExclude s (fun t => t.imd = { s.imd with due := some s.strokeNo } ∧ t.bit Reg.KPA_CTRL 3 = true ∧ t.ksrc ≠ srcKin ∧ SameMem s t))
  ∧ (∀ s : State, s.imd.on = true → s.imd.excl = false → s.imd.due = none → s.kinMayOpen = false → s.imd.postponed = false →
    Does .imdKinExclude s (fun t => t.imd = { s.imd with postponed := true } ∧ RegsBut s t (logRegs 0) ∧ SameMem s t))
  ∧ (∀ s : State, Does .kinStale s (fun t => t.imd = { s.imd with gKin := 0 } ∧ t.imdFlag 4 = true ∧ t.rdN Reg.IMD_RKIN = 0xFFFFFFFF ∧ RegsBut s t [Reg.IMD_FLAGS, Reg.IMD_RKIN] ∧ SameMem s t))
  ∧ ∀ (s : State) (n : Bool), s.bit Reg.IMD_STAT (if n then 1 else 0) = true →
    Does (.imdSwitchFault n) s (fun t => t.bit Reg.IMD_STAT 8 = true ∧ t.bit Reg.IMD_STAT (if n then 1 else 0) = false ∧ t.bit Reg.IMD_CTRL (if n then 2 else 1) = false ∧ t.imdFlag 5 = true ∧ t.imd = { s.imd with faulted := true }
      ∧ RegsBut s t ([Reg.IMD_STAT, Reg.IMD_CTRL, Reg.IMD_FLAGS, Reg.IMD_IRQ] ++ logRegs 0) ∧ SameMem s t)

/-- The measurement registers of the coils. -/
def coilMeasures : List Nat := (List.range 12).map Reg.CTR_IMEAS

/-- Every output, ordered or on, is off. -/
def coilsDropped (t : State) : Prop := t.rdN Reg.CTR_OUT = 0 ∧ t.rdN Reg.CTR_STAT = 0 ∧ t.ctr.railUp = false

/-- Coil drivers and the pump: a driver fault turns its output off at once and keeps it off (R230), pull-in ends in the hold current (R229), the snap switch and a lost rail drop every coil and clear CTR.OUT (R417), the rail is up after a feed without a gap (R420), a skip withholds one feed (R237), and the snap test runs only with every output off (R236). -/
def coilDriversAndPump : Prop :=
  (∀ (s : State) (c : Nat), c < 12 → s.coilOn c = true →
    Does (.coilOvercurrent c) s (fun t =>
      t.bit Reg.CTR_STAT c = false ∧ t.bit Reg.CTR_OUT c = false ∧ t.bit Reg.CTR_FAULT c = true ∧ t.bit Reg.CTR_IRQ 0 = true
        ∧ (∀ i, s.strOfCoil c = some i → (s.str i).st = 2 ∨ (s.str i).st = 3 ∨ (s.str i).st = 4 → (t.str i).st = 1 ∧ (t.str i).opening = true ∧ (t.str i).closing = false)
        ∧ RegsBut s t ([Reg.CTR_STAT, Reg.CTR_PHASE, Reg.CTR_OUT, Reg.CTR_FAULT, Reg.CTR_IRQ, Reg.CTR_IMEAS c] ++ logRegs 0) ∧ SameMem s t))
  ∧ (∀ (s : State) (c : Nat), c < 12 → s.coilOn c = true → s.bit Reg.PUMP_STAT 2 = true →
    Does (.coilOpenLoad c) s (fun t =>
      t.bit Reg.CTR_STAT c = false ∧ t.bit Reg.CTR_OUT c = false ∧ t.bit Reg.CTR_FAULT (16 + c) = true
        ∧ RegsBut s t ([Reg.CTR_STAT, Reg.CTR_PHASE, Reg.CTR_OUT, Reg.CTR_FAULT, Reg.CTR_IRQ, Reg.CTR_IMEAS c] ++ logRegs 0) ∧ SameMem s t))
  ∧ (∀ (s : State) (c : Nat), s.coilOn c = false ∨ s.bit Reg.PUMP_STAT 2 = false → exec (.coilOpenLoad c) s = .next s)
  ∧ (∀ (s : State) (c : Nat), c < 12 → s.coilOn c = true → s.bit Reg.CTR_PHASE c = true →
    Does (.pullinEnd c) s (fun t => t.bit Reg.CTR_PHASE c = false ∧ t.fld (Reg.CTR_IMEAS c) 0 12 = s.fld (Reg.CTR_CFG c) 8 10 ∧ t.coilOn c = true ∧ OnlyRegs s t [Reg.CTR_PHASE, Reg.CTR_IMEAS c]))
  ∧ (∀ s : State, Does .pumpSnap s (fun t => coilsDropped t ∧ t.bit Reg.PUMP_STAT 3 = true ∧ t.bit Reg.PUMP_STAT 2 = false
      ∧ RegsBut s t ([Reg.PUMP_STAT, Reg.CTR_OUT, Reg.CTR_STAT, Reg.CTR_PHASE, Reg.CTR_BKI] ++ coilMeasures) ∧ SameMem s t))
  ∧ (∀ s : State, Does .railLoss s (fun t => coilsDropped t ∧ t.bit Reg.PUMP_STAT 2 = false ∧ (s.bit Reg.PUMP_STAT 0 = true → t.bit Reg.PUMP_IRQ 0 = true)
      ∧ RegsBut s t ([Reg.PUMP_STAT, Reg.PUMP_IRQ, Reg.CTR_OUT, Reg.CTR_STAT, Reg.CTR_PHASE, Reg.CTR_BKI] ++ coilMeasures) ∧ SameMem s t))
  ∧ (∀ s : State, s.ctr.fedSince.isSome = true → s.bit Reg.PUMP_STAT 0 = true →
    Does .railUp s (fun t => t.ctr = { s.ctr with railUp := true } ∧ t.bit Reg.PUMP_STAT 1 = true ∧ t.bit Reg.PUMP_STAT 2 = true ∧ RegsBut s t [Reg.PUMP_STAT] ∧ SameMem s t))
  ∧ (∀ s : State, s.ctr.fedSince = none → exec .railUp s = .next s)
  ∧ (∀ s : State, s.awake = true → Does .pumpSkip s (fun t => t = { s with ctr := { s.ctr with skip := true } }))
  ∧ (∀ s : State, s.awake = true → s.fld Reg.CTR_STAT 0 12 = 0 →
    Does .snapTest s (fun t => coilsDropped t ∧ t.bit Reg.PUMP_STAT 3 = true ∧ RegsBut s t ([Reg.PUMP_STAT, Reg.CTR_OUT, Reg.CTR_STAT, Reg.CTR_PHASE, Reg.CTR_BKI] ++ coilMeasures) ∧ SameMem s t))
  ∧ ∀ s : State, s.fld Reg.CTR_STAT 0 12 ≠ 0 → exec .snapTest s = .next s

/-- Contacts and strings: a contact that fails to close ends its string's closing (R232); NEG follows after the POS contact's time (R233); a weld found by feedback or by voltage makes the string WELDED and enters easy (R234, R235); a deferral that expires enters easy (R240); the energy gate and admission end a closing order in time (R245, R248). -/
def contactsAndStrings : Prop :=
  (∀ (s : State) (c i : Nat), c < 12 → s.coilOn c = true → s.fbc c = false → s.strOfCoil c = some i → (s.str i).st ≠ 5 → (s.str i).st ≠ 6 →
    Does (.closeTimeout c) s (fun t => t.bit Reg.CTR_OUT c = false ∧ (t.str i).st = 1 ∧ (t.str i).opening = true ∧ (t.str i).closing = false ∧ (∀ j, j ≠ i → t.str j = s.str j) ∧ t.nv.preLock = s.nv.preLock))
  ∧ (∀ (s : State) (i n : Nat), s.strConf i = true → (s.str i).opening = true → (∀ c, s.posOf i = some c → s.coilOn c = false) → s.negOf i = some n → n < 12 →
    Does (.negOpenTimeout i) s (fun t => t.bit Reg.CTR_OUT n = false ∧ (∀ c, c < 12 → c ≠ n → t.bit Reg.CTR_OUT c = s.bit Reg.CTR_OUT c) ∧ t.ctr = s.ctr))
  ∧ (∀ (s : State) (c i : Nat), c < 12 → s.coilOn c = false → s.fbc c = true → (s.coil c).offAt.isSome = true → s.strOfCoil c = some i → (s.str i).st ≠ 5 → s.rowing = true → s.cam.state ≠ .easy → s.acts = .idle →
    Does (.weldFeedback c) s (fun t => (t.str i).st = 5 ∧ t.cam.state = .easy ∧ t.cam.easyCauses = [0x1B]))
  ∧ (∀ (s : State) (c i : Nat), c < 12 → s.coilOn c = false → s.fbc c = false → (s.coil c).weldRun = true → (s.coil c).weldProved = true → (s.coil c).weldWithin = true →
    s.parL .ctrWeld c ≠ [] → s.strOfCoil c = some i → (s.str i).st ≠ 5 → Does (.weldHvsJudge c) s (fun t => (t.str i).st = 5 ∧ (t.coil c).weldRun = false))
  ∧ (∀ (s : State) (c : Nat), (s.coil c).weldRun = true → s.coilOn c = false → (s.coil c).weldProved = false →
    Does (.weldHvsJudge c) s (fun t => t = s.updCoil c (fun x => { x with weldRun := false })))
  ∧ (∀ s : State, s.ctr.defer.isSome = true → s.ctr.deferDone = false → s.fld Reg.CTR_STAT 16 12 ≠ 0 → s.rowing = true → s.cam.state ≠ .easy → s.acts = .idle →
    Does .deferExpire s (fun t => t.ctr.deferDone = true ∧ t.cam.state = .easy ∧ t.cam.easyCauses = [0x19]))
  ∧ (∀ (s : State) (i : Nat), (s.str i).st = 2 → (s.str i).attempt = false → (s.str i).posOrdered = false → (s.str i).gateLogged = true →
    Does (.energyGateTimeout i) s (fun t => t = s.updStr i (fun x => { x with st := 1, closing := false, gateLogged := false })))
  ∧ (∀ (s : State) (i n : Nat), (s.str i).st = 3 → (s.str i).posOrdered = false → s.negOf i = some n → n < 12 →
    Does (.admitTimeout i) s (fun t => t.bit Reg.CTR_OUT n = false ∧ (t.str i).st = 1 ∧ (t.str i).closing = false ∧ (t.str i).opening = true ∧ (∀ j, j ≠ i → t.str j = s.str j)))
  ∧ ∀ (s : State) (i : Nat), (s.str i).st ≠ 3 ∨ (s.str i).posOrdered = true → exec (.admitTimeout i) s = .next s

/-! Module chain and radio (R178 to R226) -/

/-- Links and the ring (Table 8-6): a lost or regained link with the idle of its port (R179), the end of an enumeration, the echo of the broadcast, the split after chn.break_n bad catches and the heal after chn.heal_n good ones (R191 to R194); a seat is LOST, FAULTY or one-bladed at its count (R195, R223, R224). Where the manual leaves a point open, the model's choice of log entry 43 stands. -/
def Obligations.RingAndSeats : Prop :=
  (∀ s : State, s.bit Reg.CHN_RING 5 = false → s.ring = ringWhole ∨ s.ring = ringSplit →
    Does (.linkLoss .a) s (fun t => t.ring = ringIsolated ∧ t.bit Reg.CHN_RING 4 = false ∧ t.chn = { s.chn with lateDue := false, idleA := true, idleB := true } ∧ RegsBut s t [Reg.CHN_RING, Reg.CHN_IRQ] ∧ SameMem s t))
  ∧ (∀ s : State, s.bit Reg.CHN_RING 4 = true → Does (.linkLoss .b) s (fun t => t.ring = s.ring ∧ t.bit Reg.CHN_RING 5 = false ∧ t.bit Reg.CHN_RING 4 = true ∧ t.chn = { s.chn with idleB := false } ∧ RegsBut s t [Reg.CHN_RING] ∧ SameMem s t))
  ∧ (∀ s : State, s.ring = ringIsolated →
    Does (.linkRegain .a) s (fun t => t.ring = ringSplit ∧ t.bit Reg.CHN_RING 4 = true ∧ t.chn = { s.chn with seen := true, idleA := true } ∧ RegsBut s t [Reg.CHN_RING, Reg.CHN_IRQ] ∧ SameMem s t))
  ∧ (∀ s : State, s.ring = ringDown → s.rowing = true →
    Does (.linkRegain .b) s (fun t => t.ring = ringDown ∧ t.chn = { s.chn with seen := true, idleB := true, lateDue := true } ∧ RegsBut s t [Reg.CHN_RING] ∧ SameMem s t))
  ∧ (∀ s : State, s.ring = ringDown → s.camlanOn = true → s.cam.state = .stake → Does (.linkRegain .a) s (fun t => t.ring = ringEnum ∧ t.chn.enumOn = true ∧ t.chn.enumSeat = 1 ∧ t.chn.late = false))
  ∧ (∀ s : State, s.ring = ringEnum → Does (.enumTimeout true true) s (fun t =>
      t.ring = ringWhole ∧ t.fld Reg.CHN_RING 8 8 = 0 ∧ t.fld Reg.CHN_RING 16 8 = 0 ∧ t.chn.enumOn = false ∧ t.chn.complete = true ∧ SameMem s t))
  ∧ (∀ (s : State) (a : Bool), s.ring = ringEnum → Does (.enumTimeout a false) s (fun t => t.ring = ringSplit ∧ t.chn.enumOn = false ∧ SameMem s t))
  ∧ (∀ (s : State) (good same : Bool) (lat : Nat), lat < 65536 →
    Does (.catchEcho .a good same lat) s (fun t => t.chn = { s.chn with echoA := good && !same } ∧ t.bit Reg.CHN_RING 6 = (good && !same) ∧ t.fld Reg.CHN_RINGLAT 0 16 = lat ∧ RegsBut s t [Reg.CHN_RINGLAT, Reg.CHN_RING] ∧ SameMem s t)
    ∧ Does (.catchEcho .b good same lat) s (fun t => t.chn = { s.chn with echoB := good && !same } ∧ t.bit Reg.CHN_RING 7 = (good && !same) ∧ t.fld Reg.CHN_RINGLAT 0 16 = lat ∧ RegsBut s t [Reg.CHN_RINGLAT, Reg.CHN_RING] ∧ SameMem s t))
  ∧ (∀ (s : State) (a b : Nat), s.ring = ringWhole → s.parI .chnBreakN ≤ s.chn.badRun → a < 256 → b < 256 →
    Does (.ringSplit a b) s (fun t => t.ring = ringSplit ∧ t.armA = a ∧ t.armB = b ∧ t.chn = { s.chn with splitFor := 0, goodRun := 0 } ∧ SameMem s t ∧ t.nv = s.nv))
  ∧ (∀ (s : State) (a b : Nat), s.chn.badRun < s.parI .chnBreakN → exec (.ringSplit a b) s = .next s)
  ∧ (∀ s : State, s.ring = ringSplit → s.parI .chnHealN ≤ s.chn.goodRun →
    Does .ringHeal s (fun t => t.ring = ringWhole ∧ t.armA = 0 ∧ t.armB = 0 ∧ t.chn = { s.chn with badRun := 0 } ∧ SameMem s t ∧ t.nv = s.nv))
  ∧ (∀ (s : State) (n : Nat), n ∈ s.readSet → (s.seat n).lost = false → s.parI .chnLostHeats ≤ (s.seat n).silent →
    Does (.seatLost n) s (fun t => t.seat n = { s.seat n with lost := true } ∧ (∀ m, m ≠ n → t.seat m = s.seat m) ∧ t.bit Reg.CHN_IRQ 2 = true ∧ SameMem s t))
  ∧ (∀ (s : State) (n : Nat), (s.seat n).faulty = false → s.parI .twnDisagreeMax ≤ (within s.clock hours24 (s.seat n).disag).length →
    Does (.seatFaulty n) s (fun t => t.seat n = { s.seat n with faulty := true } ∧ (∀ m, m ≠ n → t.seat m = s.seat m) ∧ RegsBut s t (logRegs 0) ∧ SameMem s t))
  ∧ ∀ (s : State) (n : Nat), (s.seat n).oneBlade = false → 17 ≤ (s.seat n).single →
    Does (.oneBlade n) s (fun t => t.seat n = { s.seat n with oneBlade := true } ∧ (∀ m, m ≠ n → t.seat m = s.seat m) ∧ RegsBut s t (logRegs 0) ∧ SameMem s t)

/-- The registers that a discarded response may count in. -/
def lateRegs : List Nat := [Reg.STK_PHASE, Reg.TXT_LATE, Reg.TXT_IRQ]

/-- The state after a retry: beside its registers and memory, only the last answer kept and the frames sent in the direction differ; a port that is off sends nothing. -/
def sentRetry (s u : State) (t : Nat) (dir : RingPort) (f : Frame) : State :=
  let line := if s.portOn (portB dir) then [f.line] else []
  { s with
    regs := u.regs, mem := u.mem
    chn := { s.chn with
      got := s.chn.got.filter (fun g => decide (g.1 ≠ t))
      sentA := if portB dir then s.chn.sentA else s.chn.sentA ++ line
      sentB := if portB dir then s.chn.sentB ++ line else s.chn.sentB } }

/-- The transaction table and the chain: a transaction that finds entries gets a QUEUED head with its seat, type, paths and stroke, without entries it is not issued and a control or bulk command waits (R203, R419); a submission of a tag that is not QUEUED is counted and ignored; what is cut short, too long or no response is discarded (R180, R188); a good response is stamped and kept for its tag, one after the gather deadline ends its path LATE (R197, R198), a timeout is retried, with TAG and CATCH kept and RETRY set, while a try is left and fits. The reads of a stroke are queued in seat order, then the catch-up reads (R199). Where the manual leaves a point open, the model's choice of log entries 92, 93 and 151 stands. -/
def Obligations.ChainTransactions : Prop :=
  (∀ (s : State) (w : Wanted) (c t : Nat), s.room w.seat w.paths w.req w.rspLen = some t → w.type < 256 → w.seat < 256 → w.paths < 4 → w.req.length < 256 → w.rspLen < 256 →
    (s.enqueue w c).hd t 0 1 = txQueued ∧ (s.enqueue w c).hd t 1 1 = w.type ∧ (s.enqueue w c).hd t 2 1 = w.seat ∧ (s.enqueue w c).hd t 3 1 = w.paths
      ∧ (s.enqueue w c).hd t 4 2 = c % 65536 ∧ (s.enqueue w c).hd t 6 1 = w.req.length ∧ (s.enqueue w c).hd t 7 1 = w.rspLen ∧ (s.enqueue w c).hd t 8 4 = s.strokeNo
      ∧ (s.enqueue w c).chn.own = s.chn.own ++ [(t, w.cls)] ∧ (s.enqueue w c).regs = s.regs)
  ∧ (∀ (s : State) (w : Wanted) (c : Nat), s.room w.seat w.paths w.req w.rspLen = none →
    s.enqueue w c = { s with chn := { s.chn with skipped := s.chn.skipped + 1, wanted := if w.cls < 2 then s.chn.wanted else s.chn.wanted ++ [w] } })
  ∧ (∀ (s : State) (tag cls : Nat), s.awake = true → s.txState tag ≠ txQueued →
    Does (.chainSubmit tag cls) s (fun t => t.fld Reg.TXT_BADSUB 0 16 = min (s.fld Reg.TXT_BADSUB 0 16 + 1) 0xFFFF ∧ OnlyRegs s t [Reg.TXT_BADSUB]))
  ∧ (∀ (s : State) (tag cls : Nat), s.awake = true → s.txState tag = txQueued →
    exec (.chainSubmit tag cls) s = .next (({ s with chn := { s.chn with queue := s.chn.queue ++ [(tag % 32768, cls % 4, s.chn.dirB)], dirB := !s.chn.dirB } } : State).kick))
  ∧ (∀ (s : State) (dir : RingPort) (raw : List Byte) (us : Nat), recvChain raw = none ∨ (∃ f, recvChain raw = some (true, f) ∧ f.flag flagRsp = false) →
    Does (.chainResponse dir raw us) s (fun t => OnlyRegs s t [Reg.STK_PHASE]))
  ∧ (∀ (s : State) (dir : RingPort) (raw : List Byte) (f : Frame) (us t : Nat), us < 2 ^ 15 → recvChain raw = some (true, f) → f.flag flagRsp = true → s.fly dir = some t → us ≤ s.gather →
    s.answers t (s.expectSeat t) f = true → isNak f = false →
    s.hd t 0xE 2 = 0xFFFF ∨ (s.hd t 0xE 2 + dataCount (s.hd t 7 1) ≤ 32768 ∧ (t % 32768 < s.hd t 0xE 2 ∨ s.hd t 0xE 2 + dataCount (s.hd t 7 1) ≤ t % 32768)) →
    ∃ u : State, exec (.chainResponse dir raw us) s = .next (u.chainEnd t 1) ∧ u.hd t 0x10 2 = us ∧ u.hd t 0x18 1 = f.payload.length ∧ u.gotOf t = some f
      ∧ (s.hd t 0xE 2 ≠ 0xFFFF → ∀ i, i < f.payload.length → u.rdB (txAddr (s.hd t 0xE 2) + i) = f.payload.getD i 0) ∧ RegsBut s u lateRegs ∧ u.rad = s.rad ∧ u.est = s.est)
  ∧ (∀ (s : State) (dir : RingPort) (raw : List Byte) (ok : Bool) (f : Frame) (us t : Nat), us < 2 ^ 15 → recvChain raw = some (ok, f) → (ok = true → f.flag flagRsp = true) → s.fly dir = some t → s.gather < us →
    ∃ u : State, exec (.chainResponse dir raw us) s = .next (u.chainEnd t 5) ∧ u.fld Reg.CHN_CNTLATE 0 16 = min (s.fld Reg.CHN_CNTLATE 0 16 + 1) 0xFFFF
      ∧ RegsBut s u (Reg.CHN_CNTLATE :: lateRegs) ∧ SameMem s u ∧ u.chn = { s.chn with readyA := u.chn.readyA, readyB := u.chn.readyB })
  ∧ (∀ (s : State) (dir : RingPort) (us t : Nat), us < 2 ^ 15 → s.fly dir = some t → (s.atUs us).retries t (portB dir) = true →
    Does (.chainTimeout dir us) s (fun u => u.hd t 0x15 1 = s.hd t 0x15 1 + 1 ∧ u.fld Reg.CHN_CNTTMO 0 16 = min (s.fld Reg.CHN_CNTTMO 0 16 + 1) 0xFFFF
      ∧ u.fld Reg.CHN_CNTRETRY 0 16 = min (s.fld Reg.CHN_CNTRETRY 0 16 + 1) 0xFFFF ∧ u.gotOf t = none
      ∧ (∃ p : List Byte, u = sentRetry s u t dir { seat := s.hd t 2 1, type := s.hd t 1 1, tag := t, catchNo := s.hd t 4 2, flags := flagRetry + (if portB dir then flagDirB else 0), payload := p })
      ∧ RegsBut s u [Reg.STK_PHASE, Reg.CHN_CNTTMO, Reg.CHN_CNTRETRY]))
  ∧ (∀ (s : State) (dir : RingPort) (us t : Nat), us < 2 ^ 15 → s.fly dir = some t → min 2 (s.fld Reg.CHN_RETRY 0 2) < s.hd t 0x15 1 →
    ∃ u : State, exec (.chainTimeout dir us) s = .next (u.chainEnd t 2) ∧ u.fld Reg.CHN_CNTTMO 0 16 = min (s.fld Reg.CHN_CNTTMO 0 16 + 1) 0xFFFF ∧ u.gotOf t = none
      ∧ RegsBut s u [Reg.STK_PHASE, Reg.CHN_CNTTMO] ∧ SameMem s u)
  ∧ (∀ s : State, s.camlanOn = true → s.ring = ringWhole ∨ s.ring = ringSplit →
    exec .sampleReadsStart s = .next (
      let u := ((s.atUs 600).phaseSeats (s.atUs 600).hph).foldl (fun u n => u.queueRead n u.strokeNo 0) (s.atUs 600)
      ((u.chn.catchup.filter u.mayCatchUp).foldl (fun v e => v.queueRead e.1 e.2 1) ({ u with chn := { u.chn with catchup := [] } } : State)).kick))
  ∧ ∀ s : State, s.camlanOn = false ∨ s.ring = ringDown ∨ s.ring = ringEnum → exec .sampleReadsStart s = .next s

/-- The registers in which an attempt on the radio counts. -/
def mapRegs : List Nat := [Reg.STK_PHASE, Reg.RAD_MAPLO, Reg.RAD_MAPHI] ++ (List.range 64).map Reg.RAD_CHSTAT

/-- The module radio: the channel of the next stroke is tuned ahead of its catch (R206, R216), beacon and slots need lock or wait for it (R217); a beacon carries session, stroke and hop-set version in clear (R209, R210, R212); a lost lock retunes and a missing one recalibrates, a forfeited slot is counted, a submission and a response follow the rules of the chain (R213, R214), and a channel returns from quarantine (R207). -/
def radioSlotsAndLock : Prop :=
  (∀ s : State, s.radOn = true → s.bit Reg.RAD_CTRL 2 = true →
    Does .radioRetune s (fun t => t.fld Reg.RAD_STAT 8 6 = s.fld Reg.RAD_CTRL 16 6 ∧ t.radLocked = false ∧ t.bit Reg.RAD_STAT 1 = true ∧ t.rad = { s.rad with window := false } ∧ RegsBut s t [Reg.RAD_STAT] ∧ SameMem s t))
  ∧ (∀ s : State, s.radOn = true → s.bit Reg.RAD_CTRL 2 = false → s.fld Reg.RAD_HOPCTRL 0 16 = 0xFFFF →
    Does .radioRetune s (fun t => t.fld Reg.RAD_STAT 8 6 = s.hopset (7 * ((s.strokeNo + 1) % 2 ^ 32) % 16) ∧ t.radLocked = false ∧ t.rad = { s.rad with window := false } ∧ RegsBut s t [Reg.RAD_STAT] ∧ SameMem s t))
  ∧ (∀ s : State, s.radOn = true → s.bit Reg.RAD_CTRL 1 = true → s.bit Reg.RAD_CTRL 2 = false →
    (s.radLocked = true → exec .beacon s = .next (s.sendBeacon 100)) ∧ (s.radLocked = false → Does .beacon s (fun t => t = { s with rad := { s.rad with waiting := some 0 } })))
  ∧ (∀ (s : State) (us : Nat), ∃ sealed : List Byte,
    s.sendBeacon us = { s with rad := { s.rad with
      beaconAt := some s.strokeNo, waiting := none
      sent := s.rad.sent ++ [[0x55, 0x55] ++ u32 (s.rdN Reg.RAD_ACCESS) ++ u8 0 ++ u8 0xFF ++ u8 0 ++ u8 (s.beaconInner us).length ++ u32 (s.rdN Reg.RAD_SESSION) ++ u16 (s.strokeNo / 65536)
        ++ u8 (s.fld Reg.RAD_STAT 16 8) ++ u8 0 ++ sealed] } })
  ∧ (∀ (s : State) (slot tag : Nat), s.radOn = true → s.bit Reg.RAD_CTRL 2 = false → 2 ≤ slot → slot < s.slotsOf → s.rad.fly = none → s.rad.busyTo ≤ slot → s.pickRadio slot = some tag →
    (s.radLocked = true → exec (.radioSlot slot) s = .next (s.sendRadio tag slot)) ∧ (s.radLocked = false → Does (.radioSlot slot) s (fun t => t = { s with rad := { s.rad with waiting := some slot } })))
  ∧ (∀ (s : State) (slot tag : Nat), (s.sendRadio tag slot).rad.fly = some tag ∧ (s.sendRadio tag slot).rad.busyTo = slot + s.txSlots tag ∧ (s.sendRadio tag slot).nv = s.nv)
  ∧ (∀ (s : State) (us : Nat), s.radOn = true → s.rad.waiting = none → Does (.lockAcquired us) s (fun t => t.radLocked = true ∧ t.bit Reg.RAD_STAT 1 = false ∧ OnlyRegs s t [Reg.RAD_STAT]))
  ∧ (∀ (s : State) (us : Nat), s.radOn = true → s.rad.waiting = some 0 →
    Does (.lockAcquired us) s (fun t => t.radLocked = true ∧ t.rad = { s.rad with waiting := none, beaconAt := some s.strokeNo, sent := t.rad.sent } ∧ t.rad.sent.length = s.rad.sent.length + 1
      ∧ RegsBut s t [Reg.RAD_STAT] ∧ SameMem s t))
  ∧ (∀ s : State, s.radOn = true → s.radLocked = true → Does .lockLoss s (fun t => t.radLocked = false ∧ t.bit Reg.RAD_STAT 1 = true ∧ t.bit Reg.RAD_IRQ 4 = true ∧ OnlyRegs s t [Reg.RAD_STAT, Reg.RAD_IRQ]))
  ∧ (∀ s : State, s.radOn = true → s.bit Reg.RAD_STAT 1 = true →
    Does .lockTimeout s (fun t => t.bit Reg.RAD_STAT 2 = true ∧ t.rdN Reg.RAD_CALSTAT = s.fld Reg.AGR_C_DIE 0 16 ∧ t.bit Reg.RAD_IRQ 5 = true ∧ t.rad = { s.rad with calNow := false, calTemp := false, window := false }
      ∧ RegsBut s t ([Reg.RAD_STAT, Reg.RAD_CALSTAT, Reg.RAD_IRQ] ++ logRegs 0) ∧ SameMem s t))
  ∧ (∀ s : State, s.awake = true → Does .calibrateNow s (fun t => t = { s with rad := { s.rad with calNow := true } }))
  ∧ (∀ (s : State) (us : Nat), s.rad.waiting = some 0 →
    Does (.slotForfeit 0 us) s (fun t => t.rad = { s.rad with waiting := none } ∧ t.fld Reg.RAD_CNTFORFEIT 16 16 = min (s.fld Reg.RAD_CNTFORFEIT 16 16 + 1) 0xFFFF
      ∧ t.fld Reg.RAD_CNTFORFEIT 0 16 = s.fld Reg.RAD_CNTFORFEIT 0 16 ∧ RegsBut s t ([Reg.RAD_CNTFORFEIT, Reg.RAD_IRQ] ++ logRegs 0) ∧ SameMem s t))
  ∧ (∀ (s : State) (slot us : Nat), slot ≠ 0 → s.rad.waiting = some slot →
    Does (.slotForfeit slot us) s (fun t => t.rad = { s.rad with waiting := none } ∧ t.fld Reg.RAD_CNTFORFEIT 0 16 = min (s.fld Reg.RAD_CNTFORFEIT 0 16 + 1) 0xFFFF
      ∧ RegsBut s t ([Reg.RAD_CNTFORFEIT, Reg.RAD_IRQ] ++ logRegs 0) ∧ SameMem s t))
  ∧ (∀ (s : State) (tag cls : Nat), s.awake = true → s.txState tag ≠ txQueued →
    Does (.radioSubmit tag cls) s (fun t => t.fld Reg.TXT_BADSUB 0 16 = min (s.fld Reg.TXT_BADSUB 0 16 + 1) 0xFFFF ∧ OnlyRegs s t [Reg.TXT_BADSUB]))
  ∧ (∀ (s : State) (tag cls : Nat), s.awake = true → s.txState tag = txQueued →
    Does (.radioSubmit tag cls) s (fun t => t.rad = { s.rad with queue := s.rad.queue ++ [(tag % 32768, cls % 4)] } ∧ RegsBut s t [Reg.TXT_STAT, Reg.CHN_QSTAT, Reg.TWN_STAT] ∧ SameMem s t))
  ∧ (∀ (s : State) (air : List Byte) (f : Frame) (us t : Nat), us < 2 ^ 15 → s.rad.fly = some t → s.openAir t air = .good f → s.answers t (s.hd t 2 1) f = true → f.flag flagRsp = true → isNak f = false →
    s.hd t 0xE 2 = 0xFFFF ∨ (s.hd t 0xE 2 + 2 * dataCount (s.hd t 7 1) ≤ 32768 ∧ (t % 32768 < s.hd t 0xE 2 ∨ s.hd t 0xE 2 + 2 * dataCount (s.hd t 7 1) ≤ t % 32768)) →
    ∃ u : State, exec (.radioResponse air us) s = .next (u.radioEnd t 1) ∧ u.hd t 0x12 2 = us ∧ u.hd t 0x19 1 = f.payload.length ∧ u.rgotOf t = some f ∧ (u.seat f.seat).radioOk = true)
  ∧ (∀ (s : State) (air : List Byte) (us t : Nat), us < 2 ^ 15 → s.rad.fly = some t → s.openAir t air = .mic →
    ∃ u : State, exec (.radioResponse air us) s = .next (u.radioFail t 3 none) ∧ u.fld Reg.RAD_CNTMIC 0 16 = min (s.fld Reg.RAD_CNTMIC 0 16 + 1) 0xFFFF ∧ RegsBut s u (Reg.RAD_CNTMIC :: mapRegs) ∧ SameMem s u)
  ∧ (∀ (s : State) (us t : Nat), us < 2 ^ 15 → s.rad.fly = some t →
    ∃ u : State, exec (.radioTimeout us) s = .next (u.radioFail t 2 none) ∧ u.fld Reg.RAD_CNTTMO 0 16 = min (s.fld Reg.RAD_CNTTMO 0 16 + 1) 0xFFFF ∧ RegsBut s u (Reg.RAD_CNTTMO :: mapRegs) ∧ SameMem s u)
  ∧ ∀ (s : State) (ch : Nat), s.quarOver ch = true →
    Does (.channelQuarantineEnd ch) s (fun t => t.chBad ch = false ∧ t.histOf ch = [] ∧ (∀ c, c ≠ ch → t.chBad c = s.chBad c) ∧ RegsBut s t [Reg.RAD_MAPLO, Reg.RAD_MAPHI] ∧ SameMem s t)

/-- A join request heard while the radio listens, genuine under its seat's key, with the configured serial and a newer count, enters the buffer with the next index, or keeps the index it has; one that fails a check is counted and enters nothing (R219); a grant is queued as written. -/
def joiningTheRadio : Prop :=
  (∀ (s : State) (air : List Byte), s.listens = true → (joinReq air).kind = 3 → s.joinGenuine air = true → s.serialOf (joinReq air).seat = some (joinReq air).serial →
    Tab.get 0 s.nv.rad.jcounts (joinReq air).seat < (joinReq air).jcount →
    ((∀ j ∈ s.rad.joins, j.1 ≠ (joinReq air).seat) → s.rad.joins.length < 256 → Does (.joinRequest air) s (fun t =>
      t.rad = { s.rad with joins := s.rad.joins ++ [((joinReq air).seat, s.rad.joinNext, (joinReq air).jcount)], joinNext := s.rad.joinNext + 1 }
        ∧ Tab.get 0 t.nv.rad.jcounts (joinReq air).seat = (joinReq air).jcount ∧ (∀ m, m ≠ (joinReq air).seat → Tab.get 0 t.nv.rad.jcounts m = Tab.get 0 s.nv.rad.jcounts m)
        ∧ t.fld Reg.RAD_JOINSTAT 0 9 = s.rad.joins.length + 1 ∧ t.bit Reg.RAD_IRQ 2 = true ∧ RegsBut s t [Reg.RAD_JOINSTAT, Reg.RAD_IRQ, Reg.RAD_JOINRD] ∧ SameMem s t))
    ∧ ((∃ j ∈ s.rad.joins, j.1 = (joinReq air).seat) → Does (.joinRequest air) s (fun t =>
      t.rad.joins.map (fun j => (j.1, j.2.1)) = s.rad.joins.map (fun j => (j.1, j.2.1)) ∧ (∀ j ∈ t.rad.joins, j.1 = (joinReq air).seat → j.2.2 = (joinReq air).jcount) ∧ t.regs = s.regs ∧ SameMem s t)))
  ∧ (∀ (s : State) (air : List Byte), s.listens = true → (joinReq air).kind = 3 →
    s.joinGenuine air = false ∨ s.serialOf (joinReq air).seat ≠ some (joinReq air).serial ∨ (joinReq air).jcount ≤ Tab.get 0 s.nv.rad.jcounts (joinReq air).seat →
    Does (.joinRequest air) s (fun t =>
      t.fld Reg.RAD_CNTUNPAIRED 0 16 = min (s.fld Reg.RAD_CNTUNPAIRED 0 16 + 1) 0xFFFF ∧ t.bit Reg.RAD_IRQ 3 = true ∧ t.rad.joins = s.rad.joins ∧ t.nv = s.nv
        ∧ RegsBut s t ([Reg.RAD_CNTUNPAIRED, Reg.RAD_IRQ] ++ logRegs 0) ∧ SameMem s t))
  ∧ (∀ (s : State) (seat : Nat), s.awake = true → Does (.grantQueue seat) s (fun t => t = { s with rad := { s.rad with grants := s.rad.grants ++ [seat % 256] } }))
  ∧ ∀ (s : State) (air : List Byte), s.listens = false ∨ (joinReq air).kind ≠ 3 → exec (.joinRequest air) s = .next s

/-! CAN and the crew link (R291 to R317) -/

/-- The bits of TXNEW and so on that a mask names. -/
def named (s : State) (rq : Requester) (x : Nat) (mask : Word) (o : Nat) : Bool := mask.toNat.testBit o && (s.txMask rq x).testBit o

/-- Whether a controller takes a frame of the bus (R291, Table 13-12). -/
def Sys2Proof.Machine.State.takesFrame (s : State) (x : CanId) (f : CanFrame) : Bool :=
  s.bit (Reg.CAN_CTRL (canIdx x)) 0 && !s.bit (Reg.CAN_CTRL (canIdx x)) 4 && (!f.fdf || s.bit (Reg.CAN_CTRL (canIdx x)) 1)

/-- The registers of NEW and LOST of a receive object. -/
def rxNew (x : CanId) (i : Nat) : Nat := if i < 32 then Reg.CAN_RXNEW0 (canIdx x) else Reg.CAN_RXNEW1 (canIdx x)

def rxLost (x : CanId) (i : Nat) : Nat := if i < 32 then Reg.CAN_RXLOST0 (canIdx x) else Reg.CAN_RXLOST1 (canIdx x)

/-- CAN objects: a frame that the controller takes, on, not in its internal loop, and with FDEN for an FD frame, goes into the lowest matching receive object, NEW and a standing NEW as LOST, else into the FIFO of 128, which drops the newest when full (R294, R295); an object window loads and commits what its requester may reach (R296); requests and aborts set and end PENDING (R297). -/
def Obligations.CanObjectsAndRequests : Prop :=
  (∀ (s : State) (x : CanId) (f : CanFrame) (us : Nat), s.takesFrame x f = false → exec (.canFrameReceived x f us) s = .next s)
  ∧ (∀ (s : State) (x : CanId) (f : CanFrame) (us i : Nat), us < 2 ^ 15 → s.takesFrame x f = true → s.bit (Reg.CAN_FIFOCTRL (canIdx x)) 0 = false → f.rtr = false →
    s.rxMatch (canIdx x) (frameObj f ((s.stk.base + us) % 2 ^ 48)) = some i →
    Does (.canFrameReceived x f us) s (fun t =>
      Tab.get CanObj.init (t.can (canIdx x)).rx i = frameObj f ((s.stk.base + us) % 2 ^ 48) ∧ t.bit (rxNew x i) (i % 32) = true
        ∧ (s.bit (rxNew x i) (i % 32) = true → t.bit (rxLost x i) (i % 32) = true) ∧ (t.can (canIdx x)).fifo = (s.can (canIdx x)).fifo ∧ SameMem s t))
  ∧ (∀ (s : State) (x : CanId) (f : CanFrame) (us : Nat), us < 2 ^ 15 → s.takesFrame x f = true →
    f.rtr = true ∨ s.rxMatch (canIdx x) (frameObj f ((s.stk.base + us) % 2 ^ 48)) = none →
    Does (.canFrameReceived x f us) s (fun t =>
      (t.can (canIdx x)).fifo = (if 128 ≤ (s.can (canIdx x)).fifo.length then (s.can (canIdx x)).fifo else (s.can (canIdx x)).fifo ++ [frameObj f ((s.stk.base + us) % 2 ^ 48)])
        ∧ (128 ≤ (s.can (canIdx x)).fifo.length → t.fld (Reg.CAN_FIFODROP (canIdx x)) 0 16 = min (s.fld (Reg.CAN_FIFODROP (canIdx x)) 0 16 + 1) 0xFFFF)
        ∧ RegsBut s t [Reg.STK_PHASE, Reg.CAN_FIFODROP (canIdx x), Reg.CAN_FIFOST (canIdx x), Reg.CAN_IRQ (canIdx x)] ∧ SameMem s t))
  ∧ (∀ (s : State) (rq : Requester) (x : CanId) (v : Word), s.maySelect rq (canIdx x) (getField v.toNat 0 2) (getField v.toNat 8 7) = false → exec (.windowSelect rq x v) s = .next s)
  ∧ (∀ (s : State) (x : CanId) (v : Word) (o : CanObj) (l : List CanObj), s.awake = true → getField v.toNat 0 2 = 2 → (s.can (canIdx x)).fifo = o :: l →
    Does (.windowSelect .cox x v) s (fun t => (t.can (canIdx x)).fifo = l ∧ t.rdN (Reg.CAN_WBUF (canIdx x) 0) = o.w0 % 2 ^ 32 ∧ t.rdN (Reg.CAN_WBUF (canIdx x) 1) = o.w1 % 2 ^ 32
      ∧ (∀ i, i < 16 → t.rdN (Reg.CAN_WBUF (canIdx x) (2 + i)) = leNat ((o.held.drop (4 * i)).take 4))
      ∧ (l.length < 256 → t.fld (Reg.CAN_FIFOST (canIdx x)) 0 8 = l.length) ∧ SameMem s t))
  ∧ (∀ (s : State) (x : CanId) (v : Word), s.awake = true → getField v.toNat 0 2 = 0 → getField v.toNat 8 7 < 64 →
    Does (.windowSelect .cox x v) s (fun t => t.rdN (Reg.CAN_WBUF (canIdx x) 0) = (Tab.get CanObj.init (s.can (canIdx x)).rx (getField v.toNat 8 7)).w0 % 2 ^ 32
      ∧ t.bit (rxNew x (getField v.toNat 8 7)) (getField v.toNat 8 7 % 32) = false ∧ t.bit (rxLost x (getField v.toNat 8 7)) (getField v.toNat 8 7 % 32) = false ∧ t.cans = s.cans ∧ SameMem s t))
  ∧ (∀ (s : State) (x : CanId) (o : Nat), s.awake = true → o < 32 → s.fld (Reg.CAN_WSEL (canIdx x)) 0 2 = 1 → s.fld (Reg.CAN_WSEL (canIdx x)) 8 7 = o →
    (s.txPending (canIdx x) o = false → Does (.windowCommit .cox x) s (fun t => t.txObj (canIdx x) o = { s.readBuf .cox (canIdx x) with w1 := (s.readBuf .cox (canIdx x)).w1 % 2 ^ 29 } ∧ RegsBut s t [] ∧ SameMem s t ∧ t = { s with cans := t.cans }))
    ∧ (s.txPending (canIdx x) o = true → exec (.windowCommit .cox x) s = .next s))
  ∧ (∀ (s : State) (rq : Requester) (x : CanId) (mask : Word) (us : Nat), s.awake = true → us < 2 ^ 15 →
    Does (.txRequest rq x mask us) s (fun t => (∀ o, o < 32 → t.txPending (canIdx x) o = (s.txPending (canIdx x) o || named s rq (canIdx x) mask o))
      ∧ (∀ o, o < 32 → named s rq (canIdx x) mask o = true → s.txPending (canIdx x) o = false → t.fld (Reg.CAN_TXST (canIdx x) o) 0 3 = 1 ∧ Tab.get 0 (t.can (canIdx x)).reqAt o = (s.stk.base + us) % 2 ^ 48)
      ∧ RegsBut s t (Reg.STK_PHASE :: Reg.CAN_TXPEND (canIdx x) :: (List.range 32).map (Reg.CAN_TXST (canIdx x))) ∧ SameMem s t))
  ∧ ∀ (s : State) (rq : Requester) (x : CanId) (mask : Word), s.awake = true → (s.can (canIdx x)).attempt = none →
    Does (.txAbort rq x mask) s (fun t => (∀ o, o < 32 → t.txPending (canIdx x) o = (s.txPending (canIdx x) o && !named s rq (canIdx x) mask o))
      ∧ (∀ o, o < 32 → named s rq (canIdx x) mask o = true → s.txPending (canIdx x) o = true → t.fld (Reg.CAN_TXST (canIdx x) o) 0 3 = 6 ∧ t.bit (Reg.CAN_TXDONE (canIdx x)) o = true)
      ∧ RegsBut s t (Reg.CAN_TXPEND (canIdx x) :: Reg.CAN_TXDONE (canIdx x) :: (List.range 32).map (Reg.CAN_TXST (canIdx x))) ∧ SameMem s t)

/-- Transmission and errors: the lowest object that may attempt starts; an attempt ends SENT or counted, with the code of its error (R300, R301); a controller in restricted operation keeps its error state (R302); a passed deadline is TIMEOUT; bus-off stops attempts until recovery with AUTORECOV (R301); an enabled wake ends hibernation (R285, R303). Where the manual leaves a point open, the model's choice of log entries 12, 29 and 45 stands. -/
def Obligations.CanAttemptsAndErrors : Prop :=
  (∀ (s : State) (x : CanId) (o us : Nat), us < 2 ^ 15 → (s.atUs us).mayAttempt (canIdx x) o = true → (∀ p, p < o → (s.atUs us).mayAttempt (canIdx x) p = false) →
    Does (.txAttempt x o us) s (fun t => (t.can (canIdx x)).attempt = some o ∧ t.bit (Reg.CAN_STAT (canIdx x)) 2 = false ∧ t.fld (Reg.CAN_TXST (canIdx x) o) 8 24 = (s.stk.base + us) % 2 ^ 24
      ∧ RegsBut s t [Reg.STK_PHASE, Reg.CAN_STAT (canIdx x), Reg.CAN_TXST (canIdx x) o] ∧ SameMem s t))
  ∧ (∀ (s : State) (x : CanId) (o us : Nat), (s.atUs us).mayAttempt (canIdx x) o = false → exec (.txAttempt x o us) s = .next s)
  ∧ (∀ (s : State) (x : CanId) (o lec : Nat) (lost : Bool), o < 32 → (s.can (canIdx x)).attempt = some o →
    ((x = .b → s.crewOn = false ∨ (o ≠ crewOrd ∧ o ≠ crewOut)) → Does (.txAttemptEnd x true lost lec) s (fun t => (t.can (canIdx x)).attempt = none ∧ t.txPending (canIdx x) o = false ∧ t.fld (Reg.CAN_TXST (canIdx x) o) 0 3 = 2
        ∧ t.bit (Reg.CAN_TXDONE (canIdx x)) o = true ∧ t.bit (Reg.CAN_STAT (canIdx x)) 2 = true ∧ SameMem s t))
    ∧ (getField (s.can (canIdx x)).aborting o 1 = 0 → (s.can (canIdx x)).exclusive = false → Does (.txAttemptEnd x false lost lec) s (fun t =>
        (t.can (canIdx x)).attempt = none ∧ t.txPending (canIdx x) o = s.txPending (canIdx x) o ∧ t.fld (Reg.CAN_TXST (canIdx x) o) 4 4 = min (s.fld (Reg.CAN_TXST (canIdx x) o) 4 4 + 1) 15
        ∧ (lost = false → t.fld (Reg.CAN_STAT (canIdx x)) 4 3 = lec % 8 ∧ t.fld (Reg.CAN_CEL (canIdx x)) 0 16 = min (s.fld (Reg.CAN_CEL (canIdx x)) 0 16 + 1) 0xFFFF) ∧ SameMem s t)))
  ∧ (∀ (s : State) (x : CanId) (o : Nat), o < 32 → s.txPending (canIdx x) o = true → (s.can (canIdx x)).attempt ≠ some o → (s.txDeadline (canIdx x) o).isSome = true →
    Does (.txLimitReached x o true) s (fun t => t.txPending (canIdx x) o = false ∧ t.fld (Reg.CAN_TXST (canIdx x) o) 0 3 = 5 ∧ t.bit (Reg.CAN_IRQ (canIdx x)) 4 = true ∧ SameMem s t))
  ∧ (∀ (s : State) (x : CanId) (o : Nat) (b : Bool), s.txPending (canIdx x) o = false → exec (.txLimitReached x o b) s = .next s)
  ∧ (∀ (s : State) (x : CanId) (err tec rec lec dlec : Nat), s.bit (Reg.CAN_CTRL (canIdx x)) 2 = false → err < 4 → err ≠ 2 →
    Does (.canErrorState x err tec rec lec dlec) s (fun t => t.fld (Reg.CAN_STAT (canIdx x)) 0 2 = err ∧ t.fld (Reg.CAN_STAT (canIdx x)) 4 3 = lec % 8 ∧ t.fld (Reg.CAN_STAT (canIdx x)) 8 3 = dlec % 8
      ∧ t.fld (Reg.CAN_ECR (canIdx x)) 0 8 = tec % 256 ∧ t.fld (Reg.CAN_ECR (canIdx x)) 8 7 = rec % 128 ∧ t.bit (Reg.CAN_ECR (canIdx x)) 15 = decide (128 ≤ rec)
      ∧ (s.fld (Reg.CAN_STAT (canIdx x)) 0 2 ≠ err → t.bit (Reg.CAN_IRQ (canIdx x)) 5 = true) ∧ RegsBut s t ([Reg.CAN_STAT (canIdx x), Reg.CAN_ECR (canIdx x), Reg.CAN_IRQ (canIdx x)] ++ logRegs 0) ∧ SameMem s t))
  ∧ (∀ (s : State) (x : CanId) (err tec rec lec dlec : Nat), s.bit (Reg.CAN_CTRL (canIdx x)) 2 = true → exec (.canErrorState x err tec rec lec dlec) s = .next s ∧ exec (.canBusOff x) s = .next s)
  ∧ (∀ (s : State) (x : CanId), s.bit (Reg.CAN_CTRL (canIdx x)) 2 = false → s.fld (Reg.CAN_STAT (canIdx x)) 0 2 ≠ 2 →
    Does (.canBusOff x) s (fun t => t.fld (Reg.CAN_STAT (canIdx x)) 0 2 = 2 ∧ (t.can (canIdx x)).attempt = none ∧ t.bit (Reg.CAN_IRQ (canIdx x)) 6 = true
      ∧ (∀ o, t.mayAttempt (canIdx x) o = false) ∧ SameMem s t
      ∧ ((s.can (canIdx x)).attempt = none → RegsBut s t ([Reg.CAN_STAT (canIdx x), Reg.CAN_ECR (canIdx x), Reg.CAN_IRQ (canIdx x)] ++ logRegs 0))))
  ∧ (∀ (s : State) (x : CanId), s.fld (Reg.CAN_STAT (canIdx x)) 0 2 = 2 →
    Does (.busoffHoldEnd x) s (fun t => t.bit (Reg.CAN_CTRL (canIdx x)) 6 = true ∧ OnlyRegs s t [Reg.CAN_CTRL (canIdx x)])
    ∧ (s.bit (Reg.CAN_CTRL (canIdx x)) 6 = true → ∀ ms, Does (.busoffRecovered x ms) s (fun t => t.fld (Reg.CAN_STAT (canIdx x)) 0 2 = 0 ∧ t.fld (Reg.CAN_ECR (canIdx x)) 0 16 = 0 ∧ t.bit (Reg.CAN_CTRL (canIdx x)) 6 = decide (x = .b)
        ∧ RegsBut s t ([Reg.CAN_STAT (canIdx x), Reg.CAN_ECR (canIdx x), Reg.CAN_IRQ (canIdx x), Reg.CAN_CTRL (canIdx x)] ++ logRegs 0) ∧ SameMem s t))
    ∧ (s.bit (Reg.CAN_CTRL (canIdx x)) 6 = false → ∀ ms, exec (.busoffRecovered x ms) s = .next s))
  ∧ (∀ (s : State) (x : CanId), s.parS .canWake (canIdx x) = 1 → s.power.phase = .hibernating →
    Does (.canWake (.rx x)) s (fun t => t.power.phase = .held ∧ t.power.wakeSrc = 2 ∧ t.power.wakeBall = canIdx x ∧ t.fld Reg.RST_LAST 0 4 = 7))
  ∧ ∀ (s : State) (x : CanId), s.parS .canWake (canIdx x) ≠ 1 → exec (.canWake (.rx x)) s = .next s

/-- The crew link: references and presence (R308 to R313). A frame of another length or outside its window is counted and does nothing else (R307). A reference heard before the stroke timer runs arms it; in a stroke it gives the lanes and the leader. A lane with this lane's number silences it (R317); a lane missed three times leaves, and with the leader gone the lowest remaining lane leads. CANA carries the limits and the state each period (R304). Where the manual leaves a point open, the model's choice of log entries 23, 24, 28, 60 and 159 stands. -/
def Obligations.CrewPresence : Prop :=
  (∀ s : State, s.rowing = true → s.parS .canaStd = 1 → s.txPending 0 0 = false → s.txPending 0 1 = false →
    Does .canaPeriodic s (fun t => t.txPending 0 0 = true ∧ t.txPending 0 1 = true ∧ t.txObj 0 0 = txFrame false (s.parI .canaId) (s.parI .canaPeriod * 1000) 8 false s.canaLimits
      ∧ t.txObj 0 1 = txFrame false (s.parI .canaId + 1) (s.parI .canaPeriod * 1000) 8 false s.canaState ∧ RegsBut s t [Reg.CAN_TXPEND 0, Reg.CAN_TXST 0 0, Reg.CAN_TXST 0 1] ∧ SameMem s t))
  ∧ (∀ s : State, s.crewOn = true → s.rowing = true → s.leading = true ∨ s.crew.deputy = true → s.canReady 1 = true →
    ∃ u : State, exec .crewReferenceSend s = .next (u.crewStroke s.strokeNo) ∧ (u.can 1).attempt = some crewRef ∧ u.txObj 1 crewRef = txFrame true 0x010 0 10 false s.referenceBytes
      ∧ u.crew = { s.crew with ref := some s.strokeNo, lastRef := s.strokeNo, missing := 0 } ∧ RegsBut s u [Reg.STK_PHASE, Reg.CAN_TXPEND 1, Reg.CAN_TXST 1 crewRef, Reg.CAN_STAT 1] ∧ SameMem s u)
  ∧ (∀ (s : State) (data : List Byte) (sof : Nat), s.crewOn = true →
    (data.length ≠ 16 → Does (.crewReferenceReceived data sof) s (fun t => t.crew = { s.crew with strays := s.crew.strays + 1 } ∧ RegsBut s t [Reg.CAN_SOFREF 1] ∧ SameMem s t))
    ∧ (data.length = 16 → s.running = false → Does (.crewReferenceReceived data sof) s (fun t => t.bit (Reg.CAN_CTRL 1) 9 = true ∧ t.crew = { s.crew with heardRef := true }
      ∧ (s.bit (Reg.CAN_CTRL 1) 0 = true → s.bit (Reg.CAN_REFID 1) 31 = true → s.fld (Reg.CAN_REFID 1) 0 11 = 0x010 → t.rdN (Reg.CAN_SOFREF 1) = sof % 2 ^ 32)
      ∧ RegsBut s t [Reg.CAN_SOFREF 1, Reg.CAN_CTRL 1, Reg.CAN_REFDLY 1] ∧ SameMem s t))
    ∧ (data.length = 16 → s.running = true → s.leading = false ∨ crewField data 4 1 ≠ s.lane → Does (.crewReferenceReceived data sof) s (fun t =>
      t.crew.ref = some (crewField data 0 4) ∧ t.crew.lastRef = crewField data 0 4 ∧ t.crew.missing = 0 ∧ t.crew.heardRef = true
      ∧ t.crew.lanes = (List.range 64).filter (fun l => decide (getField (crewField data 8 8) l 1 = 1)) ∧ (crewField data 5 1 % 2 = 0 → t.crew.leader = some (crewField data 4 1)))))
  ∧ (∀ s : State, s.crewOn = true → s.leading = false → 8 ≤ s.crew.missing → lowest (s.crew.lanes.filter (fun l => decide (some l ≠ s.crew.leader) && s.laneLocked l)) = some s.lane →
    Does .crewReferenceMissing s (fun t => t.crew.deputy = true ∧ t.crew.locked = s.crew.locked ∧ RegsBut s t (Reg.CAN_MTX 1 :: logRegs 0) ∧ SameMem s t))
  ∧ (∀ s : State, s.crewOn = true → s.leading = false → 8 ≤ s.crew.missing → s.crew.deputy = false → lowest (s.crew.lanes.filter (fun l => decide (some l ≠ s.crew.leader) && s.laneLocked l)) ≠ some s.lane →
    Does .crewReferenceMissing s (fun t => t.crew.locked = false ∧ t.crew.deputy = false ∧ RegsBut s t ([Reg.CAN_TXPEND 1, Reg.CAN_TXDONE 1, Reg.CAN_TXST 1 crewSum] ++ logRegs 0) ∧ SameMem s t))
  ∧ (∀ s : State, s.crew.missing < 8 → exec .crewReferenceMissing s = .next s)
  ∧ (∀ (s : State) (l us : Nat) (data : List Byte), s.crewOn = true → data.length ≠ 8 ∨ s.inCrewWindow 4 us = false →
    Does (.crewJoinReceived l data us) s (fun t => t = { s with crew := { s.crew with strays := s.crew.strays + 1 } }))
  ∧ (∀ (s : State) (l us : Nat) (data : List Byte) (j : Nat × Nat × Nat × Nat), s.crewOn = true → data.length = 8 → s.inCrewWindow 4 us = true → l ≠ s.lane → s.rowing = true ∨ s.lane < l →
    j = (l, crewField data 0 4, crewField data 4 1, crewField data 5 1) → j ∉ s.crew.joins →
    Does (.crewJoinReceived l data us) s (fun t => t = { s with crew := { s.crew with joins := s.crew.joins ++ [j] } }))
  ∧ (∀ (s : State) (us : Nat) (data : List Byte), s.crewOn = true → data.length = 8 → s.inCrewWindow 4 us = true → crewField data 0 4 ≠ s.rdN Reg.SYS_UID0 →
    Does (.crewJoinReceived s.lane data us) s (fun t => t.crew.st = cwDuplicate ∧ t.crewOn = false))
  ∧ (∀ (s : State) (l us : Nat) (data : List Byte), s.crewOn = true → l ≠ s.lane →
    (data.length = 64 → crewField data 0 1 = 0 → s.inCrewWindow 1 us = true → Does (.crewSummaryReceived l data us) s (fun t =>
      t.crew.seen = l :: s.crew.seen ∧ t.crew.sums = s.crew.sums.filter (fun e => decide (e.1 ≠ l)) ++ [(l, summaryOf data, s.crew.lastRef)] ∧ t = { s with crew := t.crew }))
    ∧ (data.length ≠ 64 ∨ crewField data 0 1 ≠ 0 ∨ s.inCrewWindow 1 us = false →
      Does (.crewSummaryReceived l data us) s (fun t => t = { s with crew := { s.crew with strays := s.crew.strays + 1 } })))
  ∧ (∀ (s : State) (us : Nat) (data : List Byte), s.crewOn = true → Does (.crewSummaryReceived s.lane data us) s (fun t => t.crew.st = cwDuplicate ∧ t.crew.send = [] ∧ t.crew.outs = []))
  ∧ (∀ (s : State) (l : Nat), s.crewOn = true → l ∈ s.crew.lanes → l ≠ s.lane → 3 ≤ Tab.get 0 s.crew.missed l →
    Does (.laneGone l) s (fun t => l ∉ t.crew.lanes ∧ l ∈ t.crew.gone ∧ (s.crew.leader ≠ some l → t.crew.lanes = s.crew.lanes.filter (fun m => decide (m ≠ l)) ∧ t.crew.leader = s.crew.leader ∧ RegsBut s t (logRegs 0) ∧ SameMem s t)
      ∧ (s.crew.leader = some l → lowest (s.crew.lanes.filter (fun m => decide (m ≠ l))) = some s.lane → t.crew.leader = some s.lane ∧ t.crew.st = cwLeader)))
  ∧ ∀ (s : State) (l : Nat), Tab.get 0 s.crew.missed l < 3 → exec (.laneGone l) s = .next s

/-- Crew orders and outcomes (R307, R314, R315, R336): a frame that passes the four checks places its entries as orders of source 0x18 and rank 5; one that fails a check is counted and places nothing; an outcome and two watches without one answer the waiting commands; a crew command needs the leading lane. Where the manual leaves a point open, the model's choice of log entries 27, 51 and 61 stands. -/
def Obligations.CrewOrdersAndOutcomes : Prop :=
  (∀ (s : State) (data key : List Byte) (us : Nat), us < 2 ^ 15 → s.crewOn = true → data.length = 64 → s.leading = false → s.lane ∈ s.crew.lanes → s.inCrewWindow 2 us = true → s.crew.ref = some (crewField data 0 4) →
    s.crew.leader = some (crewField data 4 1) → s.crewKey = some key → crewMac key s.lane (data.take 56) = data.drop 56 → crewField data 6 1 ≠ 1 → crewField data 6 1 ≠ 2 →
    Does (.crewOrdersReceived s.lane data us) s (fun t =>
      t.cam.orders = s.cam.orders ++ ((List.range (ordersOf data).length).zip (ordersOf data)).map (fun e =>
          (⟨0x18, 5, e.2.kind, e.2.target, e.2.value, e.2.ref, (s.stk.base + us) % 2 ^ 48, s.strokeNo, decide (s.cam.state = .stake), .crew (4 * s.crew.frames.length + e.1)⟩ : Order))
        ∧ t.crew = { s.crew with frames := s.crew.frames ++ [crewField data 0 4] } ∧ RegsBut s t [Reg.STK_PHASE] ∧ SameMem s t))
  ∧ (∀ (s : State) (data : List Byte) (us : Nat), s.crewOn = true → data.length = 64 →
    s.inCrewWindow 2 us = false ∨ s.crew.ref ≠ some (crewField data 0 4) ∨ s.crew.leader ≠ some (crewField data 4 1) ∨ s.crewKey = none ∨ (∃ key, s.crewKey = some key ∧ crewMac key s.lane (data.take 56) ≠ data.drop 56) →
    Does (.crewOrdersReceived s.lane data us) s (fun t => t.cam = s.cam ∧ t.crew = { s.crew with discarded := s.crew.discarded + 1, refused := true } ∧ RegsBut s t (Reg.STK_PHASE :: logRegs 0) ∧ SameMem s t))
  ∧ (∀ (s : State) (data : List Byte) (us : Nat), s.crewOn = true → data.length ≠ 64 →
    Does (.crewOrdersReceived s.lane data us) s (fun t => t = { s with crew := { s.crew with strays := s.crew.strays + 1 } }))
  ∧ (∀ (s : State) (lane us : Nat) (data : List Byte), lane ≠ s.lane → exec (.crewOrdersReceived lane data us) s = .next s)
  ∧ (∀ (s : State) (lane us : Nat) (data : List Byte), s.crewOn = true → s.leading = true → lane ≠ s.lane → data.length = 64 → crewField data 0 1 = 1 → s.inCrewWindow 3 us = true →
    ((∀ w ∈ s.crew.waits, w.lane ≠ lane) → Does (.crewOutcomeReceived lane data us) s (fun t => t.crew = s.crew ∧ RegsBut s t (logRegs 1) ∧ SameMem s t ∧ t.con0 = s.con0 ∧ t.con1 = s.con1))
    ∧ (∀ w, s.crew.waits = [w] → w.lane = lane → w.surge = false → (∃ e ∈ outcomesOf data, e.ref = w.ref) →
      ∃ u : State, exec (.crewOutcomeReceived lane data us) s = .next (u.say w.port w.tag
          [crewOutcomeText lane (outcomesOf data) (crewField data 44 1) (crewField data 48 4) (crewInt data 52) (crewField data 56 4) (crewField data 60 4)])
        ∧ u.crew = { s.crew with waits := [] } ∧ RegsBut s u (logRegs 1) ∧ SameMem s u))
  ∧ (∀ (s : State) (lane us : Nat) (data : List Byte), s.crewOn = true → lane ≠ s.lane → data.length ≠ 64 ∨ crewField data 0 1 ≠ 1 ∨ s.inCrewWindow 3 us = false →
    Does (.crewOutcomeReceived lane data us) s (fun t => t = { s with crew := { s.crew with strays := s.crew.strays + 1 } }))
  ∧ (∀ (s : State) (lane : Nat) (w : CrewWait), s.camlanOn = true → s.crew.waits = [w] → w.lane = lane → 2 * s.watchLen ≤ (s.strokeNo + 2 ^ 32 - w.stroke) % 2 ^ 32 →
    exec (.crewNoreply lane) s = .next (({ s with crew := { s.crew with waits := [] } } : State).say w.port w.tag ["err 14 noreply"]))
  ∧ (∀ (s : State) (lane : Nat), s.camlanOn = true → (∀ w ∈ s.crew.waits, w.lane = lane → (s.strokeNo + 2 ^ 32 - w.stroke) % 2 ^ 32 < 2 * s.watchLen) → exec (.crewNoreply lane) s = .next s)
  ∧ ∀ (s : State) (p : Nat) (tag : Option String), lineWaits s p tag → (s.con p).level = .installer ∨ (s.con p).level = .service →
    (s.crewOn = true → s.leading = true → ∀ lane, lane ≠ s.lane → lane ∈ s.crew.lanes →
      (∀ kind target value ref, Does (.crewOrder p lane kind target value ref) s (fun t =>
        t.crew = { s.crew with send := s.crew.send ++ [⟨lane, [⟨kind, target, value, ref⟩], none⟩], waits := s.crew.waits ++ [⟨lane, ref, false, p, tag, s.strokeNo⟩] } ∧ RegsBut s t [] ∧ SameMem s t))
      ∧ (∀ power duration ref, Does (.crewSurge p lane power duration ref) s (fun t =>
        t.crew = { s.crew with send := s.crew.send ++ [⟨lane, [], some (1, power, duration, ref)⟩], waits := s.crew.waits ++ [⟨lane, ref, true, p, tag, s.strokeNo⟩] } ∧ RegsBut s t [] ∧ SameMem s t)))
    ∧ (s.leading = false → ∀ lane kind target value ref, exec (.crewOrder p lane kind target value ref) s = .next ((lineTaken s p).say p tag [errLine 16 "cond=leader"]))

/-! Hibernation and tickets from outside; the logbook, the tally and the eflash (R284 to R290, R344 to R367) -/

/-- Hibernation is announced after the idle time alone (R284) and ended by a console (R285); a tenant's surge request enters the set from its mailbox, the latest of a source counting (R286); a ticket ends at its expiry with a notice to its holder (R289, log entry 37). -/
def hibernationTicketsAndSurges : Prop :=
  (∀ (s : State) (t0 : Nat), s.est.idleSince = some t0 → s.rowing = true → s.parI .estHibIdle ≠ 0 → t0 + s.parI .estHibIdle * 60000000 ≤ s.clock → s.est.pending = false →
    Does .hibernateIdle s (fun t => t.est = { s.est with pending := true } ∧ RegsBut s t ((List.range 7).map Reg.PART_EVP ++ logRegs 0) ∧ SameMem s t ∧ t.nv = s.nv
      ∧ ∀ k, k < 7 → s.fld (Reg.PART_STATE k) 0 2 = 2 → t.bit (Reg.PART_EVP k) 3 = true))
  ∧ (∀ s : State, s.est.idleSince = none ∨ s.rowing = false ∨ s.parI .estHibIdle = 0 → exec .hibernateIdle s = .next s)
  ∧ (∀ (s : State) (p : Nat), p < 2 → s.power.phase = .hibernating →
    Does (.consoleWake p) s (fun t => t.power.phase = .held ∧ t.power.wakeSrc = 3 ∧ t.fld Reg.RST_LAST 0 4 = 7 ∧ t.bit Reg.RST_CAUSE 7 = true ∧ t.nv = s.nv ∧ t.cca = s.cca))
  ∧ (∀ (s : State) (p : Nat), s.power.phase ≠ .hibernating → exec (.consoleWake p) s = .next s)
  ∧ (∀ (s : State) (k us : Nat), 1 ≤ k → k ≤ 7 → s.rowing = true →
    Does (.surgeDoorbell k 1 us) s (fun t => RegsBut s t [Reg.STK_PHASE] ∧ SameMem s t ∧ t = { s with regs := t.regs, est := t.est }
      ∧ t.est = { s.est with reqs := s.est.reqs.filter (fun x => decide (x.source ≠ 0x20 + k)) ++
          [⟨0x20 + k, 5 + k, (s.stk.base + us % 32768) % 2 ^ 48, s.strokeNo, s.ld (mailbox k + 0x410) 1, signed 32 (s.ld (mailbox k + 0x414) 4), s.ld (mailbox k + 0x418) 4,
            s.ld (mailbox k + 0x41C) 4, .mailbox k 0⟩] }))
  ∧ (∀ (s : State) (k us : Nat) (v : Word), v ≠ 1 ∨ s.rowing = false → exec (.surgeDoorbell k v us) s = .next s)
  ∧ (∀ (s : State) (x : Ticket), s.est.ticket = some x → strokeLe x.expiry s.strokeNo = true →
    Does .ticketExpire s (fun t => t.est = { s.est with ticket := none } ∧ t.nv = s.nv ∧ RegsBut s t ((List.range 7).map Reg.PART_EVP ++ logRegs 0 ++ logRegs (bookOfSource x.holder))
      ∧ (partOfSource x.holder = none → SameMem s t)
      ∧ ∀ k, partOfSource x.holder = some k → t.rdB (mailbox k + 0xC44) = 5 ∧ t.bit (Reg.PART_EVP (k - 1)) 6 = true
        ∧ ∀ a, a < mailbox k + 0xC40 ∨ mailbox k + 0xC50 ≤ a → t.rdB a = s.rdB a))
  ∧ ∀ s : State, (∀ x, s.est.ticket = some x → strokeLe x.expiry s.strokeNo = false) → exec .ticketExpire s = .next s

/-- No earlier half of a unit waits, and the record is not the first half of one. -/
def wholeUnit (s : State) (rq : Requester) : Prop :=
  (∀ e ∈ s.log.units, e.1 ≠ Requester.idx rq) ∧ (rq = .cox → s.bit Reg.LOG_SUBTIMEH 31 = false)

/-- The record takes no token: CRITICAL, or buckets off (R351). -/
def exemptRec (s : State) (r : LogRec) : Prop := r.sevfl % 8 = 4 ∨ s.bit Reg.LOG_CTRL 1 = false

/-- A submission is judged in the order SUPPRESSED, FULL, PENDFULL, QUEUED and its result shown (R349); a unit of two records is judged whole (R345). -/
def logSubmission : Prop :=
  (∀ (s : State) (rq : Requester) (r : LogRec), s.awake = true → s.subRecord rq = some r → wholeUnit s rq → exemptRec s r → Tab.get 0 s.log.lost r.book = 0 →
    s.bookHeld r.book + s.bookQueued r.book < bookCap r.book → s.log.pend.length < 64 →
    Does (.logSubmit rq) s (fun t => t.log = { s.log with pend := s.log.pend ++ [r] } ∧ t.rdN (rqReg rq Reg.LOG_SUBSTAT) = 0 ∧ t.fld Reg.LOG_PEND 0 7 = s.log.pend.length + 1
      ∧ RegsBut s t [Reg.LOG_PEND, rqReg rq Reg.LOG_SUBSTAT] ∧ SameMem s t))
  ∧ (∀ (s : State) (rq : Requester) (r : LogRec), s.awake = true → s.subRecord rq = some r → wholeUnit s rq → r.sevfl % 8 ≠ 4 → r.source ≠ 0xF0 → s.bit Reg.LOG_CTRL 1 = true →
    (s.bucket (s.bucketKey r.book r.code)).tokens = 0 →
    Does (.logSubmit rq) s (fun t => t.rdN (rqReg rq Reg.LOG_SUBSTAT) = 1 ∧ t.log.pend = s.log.pend
      ∧ t.bucket (s.bucketKey r.book r.code) = ⟨0, (s.bucket (s.bucketKey r.book r.code)).supp + 1⟩ ∧ RegsBut s t [Reg.LOG_BSUPP r.book, rqReg rq Reg.LOG_SUBSTAT] ∧ SameMem s t))
  ∧ (∀ (s : State) (rq : Requester) (r : LogRec), s.awake = true → s.subRecord rq = some r → wholeUnit s rq → exemptRec s r → bookCap r.book ≤ s.bookHeld r.book + s.bookQueued r.book →
    Does (.logSubmit rq) s (fun t => t.rdN (rqReg rq Reg.LOG_SUBSTAT) = 2 ∧ t.log = { s.log with lost := Tab.put 0 s.log.lost r.book (Tab.get 0 s.log.lost r.book + 1) }
      ∧ RegsBut s t [Reg.LOG_BOVF r.book, rqReg rq Reg.LOG_SUBSTAT] ∧ SameMem s t))
  ∧ (∀ (s : State) (rq : Requester) (r : LogRec), s.awake = true → s.subRecord rq = some r → wholeUnit s rq → exemptRec s r → s.bookHeld r.book + s.bookQueued r.book < bookCap r.book →
    64 ≤ s.log.pend.length →
    Does (.logSubmit rq) s (fun t => t.rdN (rqReg rq Reg.LOG_SUBSTAT) = 3 ∧ t.log = s.log ∧ t.fld Reg.LOG_PENDDROP 0 16 = min (s.fld Reg.LOG_PENDDROP 0 16 + 1) 0xFFFF ∧ t.bit Reg.LOG_IRQ 1 = true
      ∧ RegsBut s t [Reg.LOG_PENDDROP, Reg.LOG_IRQ, rqReg rq Reg.LOG_SUBSTAT] ∧ SameMem s t))
  ∧ (∀ (s : State) (r : LogRec), s.awake = true → s.subRecord .cox = some r → s.log.units = [] → s.bit Reg.LOG_SUBTIMEH 31 = true →
    Does (.logSubmit .cox) s (fun t => t = { s with log := { s.log with units := [(0, r)] } }))
  ∧ (∀ (s : State) (r first : LogRec), s.awake = true → s.subRecord .cox = some r → s.log.units = [(0, first)] → first.sevfl % 8 = 4 → Tab.get 0 s.log.lost first.book = 0 →
    s.bookHeld first.book + s.bookQueued first.book + 2 ≤ bookCap first.book → s.log.pend.length + 2 ≤ 64 →
    Does (.logSubmit .cox) s (fun t => t.log = { s.log with units := [], pend := s.log.pend ++ [first, { first with sevfl := first.sevfl ||| 64, arg := r.arg }] }
      ∧ t.rdN Reg.LOG_SUBSTAT = 0 ∧ RegsBut s t [Reg.LOG_PEND, Reg.LOG_SUBSTAT] ∧ SameMem s t))
  ∧ ∀ (s : State) (rq : Requester), s.subRecord rq = none → exec (.logSubmit rq) s = .next s

/-- The window of a requester after a load at a sequence number: VALID with the record, GONE or NOTYET with zeros (R354). -/
def windowShows (s t : State) (rq : Requester) (seq : Nat) : Prop :=
  let off := (seq + 2 ^ 32 - s.rdN (Reg.LOG_BFIRST (s.curBook rq))) % 2 ^ 32
  let held := s.bookHeld (s.curBook rq)
  t.rdN (rqReg rq Reg.LOG_CURSEQ) = seq
    ∧ t.rdN (rqReg rq Reg.LOG_WSTAT) = (if off < held then 1 else if 2 ^ 31 ≤ off then 2 else 4)
    ∧ (∀ i, i < 8 → t.rdN (rqReg rq (Reg.LOG_WIN i)) = (if off < held then s.ld (slotAddr (s.curBook rq) seq + 4 * i) 4 else 0))
    ∧ RegsBut s t ((Reg.LOG_CURSEQ :: Reg.LOG_WSTAT :: (List.range 8).map Reg.LOG_WIN).map (rqReg rq)) ∧ SameMem s t ∧ t.log = s.log

/-- The writer stores the oldest record in its book's ring and advances NEXT (R346, R347, R350); the window loads at a write of CURSEQ and advances at a read of WIN7, which returns its word (R354); a release moves FIRST to the smaller of upto + 1 and NEXT (R348). -/
def logWriterWindowAndRelease : Prop :=
  (∀ (s : State) (r : LogRec) (rest : List LogRec), s.log.pend = r :: rest → s.bit Reg.LOG_CTRL 0 = true → r.book < 9 →
    Does .logRecordWrite s (fun t => t.log = { s.log with pend := rest } ∧ t.rdN (Reg.LOG_BNEXT r.book) = (s.rdN (Reg.LOG_BNEXT r.book) + 1) % 2 ^ 32
      ∧ t.rdBytes (slotAddr r.book (s.rdN (Reg.LOG_BNEXT r.book))) (recBytes (s.rdN (Reg.LOG_BNEXT r.book)) r).length = recBytes (s.rdN (Reg.LOG_BNEXT r.book)) r
      ∧ (∀ a, a < slotAddr r.book (s.rdN (Reg.LOG_BNEXT r.book)) ∨ slotAddr r.book (s.rdN (Reg.LOG_BNEXT r.book)) + (recBytes (s.rdN (Reg.LOG_BNEXT r.book)) r).length ≤ a → t.rdB a = s.rdB a)
      ∧ RegsBut s t [Reg.LOG_PEND, Reg.LOG_BNEXT r.book, Reg.LOG_IRQ]))
  ∧ (∀ s : State, s.log.pend = [] ∨ s.bit Reg.LOG_CTRL 0 = false → exec .logRecordWrite s = .next s)
  ∧ (∀ (s : State) (rq : Requester) (seq : Word), s.awake = true → s.mayReadLog rq = true → s.curBook rq < 9 → Does (.logCursorLoad rq seq) s (fun t => windowShows s t rq seq.toNat))
  ∧ (∀ (s : State) (rq : Requester), s.awake = true → s.mayReadLog rq = true → s.curBook rq < 9 →
    Does (.logWindowAdvance rq) s (fun t => windowShows s t rq ((s.rdN (rqReg rq Reg.LOG_CURSEQ) + 1) % 2 ^ 32) ∧ t.rdata = s.rd (rqReg rq (Reg.LOG_WIN 7))))
  ∧ (∀ (s : State) (rq : Requester) (seq : Word), s.mayReadLog rq = false → exec (.logCursorLoad rq seq) s = .next s ∧ exec (.logWindowAdvance rq) s = .next s)
  ∧ (∀ (s : State) (rq : Requester) (book b : Nat), s.awake = true → (rq = .cox ∧ b = book) ∨ (rq ≠ .cox ∧ ∃ k, s.logTenant rq = some k ∧ b = 1 + k) → b < 9 →
    Does (.logBookRelease rq book) s (fun t =>
      t.rdN (Reg.LOG_BFIRST b) = (if 2 ^ 31 ≤ (s.rdN Reg.LOG_RELUPTO + 2 ^ 32 - s.rdN (Reg.LOG_BFIRST b)) % 2 ^ 32 then s.rdN (Reg.LOG_BFIRST b)
        else (s.rdN (Reg.LOG_BFIRST b) + min ((s.rdN Reg.LOG_RELUPTO + 2 ^ 32 - s.rdN (Reg.LOG_BFIRST b)) % 2 ^ 32 + 1) (s.bookHeld b)) % 2 ^ 32)
      ∧ RegsBut s t (Reg.LOG_BFIRST b :: logRegs 0) ∧ SameMem s t))
  ∧ ∀ (s : State) (rq : Requester) (book : Nat), rq ≠ .cox → s.logTenant rq = none → exec (.logBookRelease rq book) s = .next s

/-- A commit writes the sums in the next slot of the active sector (R358, R362) and a failed one keeps them and enters easy (R363); the eflash controller takes one operation at a time from the Cox with its key, a program suspending an erase only with AUTOSUSP (R365); a tolerant read gives the word that its class leaves and the class itself (R359, R66); a refresh that is due leaves the sector as it was, with its copy in the spare, and advances the position (R366). Where the manual leaves a point open, the model's choice of log entries 84 and 90 stands. -/
def Obligations.TallyEflashAndRefresh : Prop :=
  (∀ (s : State) (id n : Nat), s.camlanOn = true → s.tally.keptOps = [] → s.tally.acc = [(id, n)] → s.tallyFrozen id = false → s.nv.tallyNext ≤ 511 →
    Does (.tallyAccCommit true) s (fun t => t.tally = { s.tally with acc := [] } ∧ t.tallyVal id = s.tallyVal id + n ∧ t.nv = { s.nv with tally := t.nv.tally, tallyNext := s.nv.tallyNext + 1 }
      ∧ t.rdBytes (tallyAddr s.nv.tallyActive s.nv.tallyNext) (tallySlot id s.nv.tallyGen (s.tallyVal id + n)).length = tallySlot id s.nv.tallyGen (s.tallyVal id + n) ∧ RegsBut s t []))
  ∧ (∀ s : State, s.camlanOn = true → s.acts = .idle → Does (.tallyAccCommit false) s (fun t => t.tally.acc = s.tally.acc ∧ 0x1D ∈ t.cam.easyCauses ++ t.cam.selfTest))
  ∧ (∀ (s : State) (v : Bool), s.camlanOn = false → exec (.tallyAccCommit v) s = .next s)
  ∧ (∀ s : State, s.awake = true → s.bit Reg.EFC_CTRL 0 = true → s.tally.op = none →
    Does (.efcProgram .cox 0x4546) s (fun t =>
      t.tally = { s.tally with op := some (0, s.efcOff), opData := s.rdN Reg.EFC_WDATA0 + s.rdN Reg.EFC_WDATA1 * 2 ^ 32 }
        ∧ t.bit Reg.EFC_STAT 0 = true ∧ t.bit Reg.EFC_STAT 1 = false ∧ RegsBut s t [Reg.EFC_STAT] ∧ SameMem s t)
    ∧ Does (.efcErase .cox 0x4546) s (fun t =>
      t.tally = { s.tally with op := some (1, s.efcOff / 0x2000 * 0x2000) } ∧ t.bit Reg.EFC_STAT 0 = true ∧ t.bit Reg.EFC_STAT 1 = true ∧ RegsBut s t [Reg.EFC_STAT] ∧ SameMem s t)
    ∧ ∀ data check, Does (.efcTolerantRead .cox data check) s (fun t =>
        let index := wordIndex .eflash (0x08000000 + s.efcOff)
        let cls := eccClass .eflash index data check
        let gives (v : Nat) : Prop := t.rdN Reg.EFC_RDATA0 = v % 2 ^ 32 ∧ t.rdN Reg.EFC_RDATA1 = v / 2 ^ 32 % 2 ^ 32
        (cls = .clean → gives data) ∧ (∀ d, cls = .corrected d → gives d)
          ∧ t.rdN Reg.EFC_RCLASS = (EccClass.code cls + eccSyndrome .eflash index data check * 256) % 2 ^ 32 ∧ t.bit Reg.EFC_IRQ 0 = true
          ∧ RegsBut s t [Reg.EFC_RDATA0, Reg.EFC_RDATA1, Reg.EFC_RCLASS, Reg.EFC_IRQ] ∧ SameMem s t))
  ∧ (∀ s : State, s.bit Reg.EFC_CTRL 0 = false ∨ s.tally.op ≠ none → ∀ data check, exec (.efcTolerantRead .cox data check) s = .next s)
  ∧ (∀ (s : State) (e : Nat), s.awake = true → s.bit Reg.EFC_CTRL 0 = true → s.tally.op = some (1, e) →
    (s.bit Reg.EFC_CTRL 1 = true → Does (.efcProgram .cox 0x4546) s (fun t =>
      t.tally = { s.tally with op := some (0, s.efcOff), opData := s.rdN Reg.EFC_WDATA0 + s.rdN Reg.EFC_WDATA1 * 2 ^ 32, suspended := some e } ∧ t.bit Reg.EFC_STAT 2 = true ∧ RegsBut s t [Reg.EFC_STAT] ∧ SameMem s t))
    ∧ (s.bit Reg.EFC_CTRL 1 = false → exec (.efcProgram .cox 0x4546) s = .next s) ∧ exec (.efcErase .cox 0x4546) s = .next s)
  ∧ (∀ (s : State) (rq : Requester) (key : Nat), rq ≠ .cox ∨ key ≠ 0x4546 → exec (.efcProgram rq key) s = .next s ∧ exec (.efcErase rq key) s = .next s)
  ∧ (∀ (s : State) (off : Nat), s.tally.op = some (0, off) →
    Does (.efcOperationDone true) s (fun t => t.rdBytes (0x08000000 + off) 8 = leBytes 8 s.tally.opData ∧ (∀ a, a < 0x08000000 + off ∨ 0x08000000 + off + 8 ≤ a → t.rdB a = s.rdB a)
      ∧ t.tally = { s.tally with op := s.tally.suspended.map (fun e => (1, e)), suspended := none } ∧ t.bit Reg.EFC_STAT 0 = s.tally.suspended.isSome
      ∧ t.fld Reg.EFC_OPCNT 0 16 = min (s.fld Reg.EFC_OPCNT 0 16 + 1) 0xFFFF ∧ t.bit Reg.EFC_IRQ 0 = true ∧ RegsBut s t [Reg.EFC_STAT, Reg.EFC_IRQ, Reg.EFC_OPCNT])
    ∧ Does (.efcOperationDone false) s (fun t => t.bit Reg.EFC_STAT 8 = true ∧ t.bit Reg.EFC_IRQ 1 = true ∧ (∀ a, a < 0x08000000 + off ∨ 0x08000000 + off + 8 ≤ a → t.rdB a = s.rdB a)))
  ∧ (∀ (s : State) (off : Nat), s.tally.op = some (1, off) → off + 0x2000 ≤ 0x400000 →
    Does (.efcOperationDone true) s (fun t => (∀ a, t.rdB a = if 0x08000000 + off ≤ a ∧ a < 0x08000000 + off + 0x2000 then 0xFF else s.rdB a) ∧ t.tally = { s.tally with op := none }
      ∧ t.bit Reg.EFC_STAT 0 = false ∧ t.fld Reg.EFC_OPCNT 16 16 = min (s.fld Reg.EFC_OPCNT 16 16 + 1) 0xFFFF ∧ RegsBut s t [Reg.EFC_STAT, Reg.EFC_IRQ, Reg.EFC_OPCNT])
    ∧ Does (.efcOperationDone false) s (fun t => t.bit Reg.EFC_STAT 9 = true ∧ t.bit Reg.EFC_IRQ 1 = true ∧ t.tally = { s.tally with op := none }))
  ∧ (∀ s : State, s.camlanOn = true → 0 < s.tally.due → s.tallyVal 0x72 % 2 ^ 32 < 509 → s.nv.tallyNext ≤ 509 → s.nv.tallyActive = 254 ∨ s.nv.tallyActive = 255 →
    let t0 := s.tallyVal 0x72 % 2 ^ 32
    let next := if t0 = 508 then (s.tallyVal 0x72 / 2 ^ 32 + 1) * 2 ^ 32 else s.tallyVal 0x72 + 1
    (s.sectorErased t0 = true → Does .sectorRefresh s (fun t => t.tallyVal 0x72 = next ∧ t.tally = { s.tally with due := s.tally.due - 1 } ∧ RegsBut s t []))
    ∧ (s.sectorErased t0 = false → Does .sectorRefresh s (fun t => t.tallyVal 0x72 = next ∧ t.tally = { s.tally with due := s.tally.due - 1 }
      ∧ (∀ i, i < 0x2000 → t.rdB (sectorAddr t0 + i) = s.rdB (sectorAddr t0 + i) ∧ t.rdB (sectorAddr spareSector + i) = s.rdB (sectorAddr t0 + i)) ∧ RegsBut s t (logRegs 0))))
  ∧ ∀ s : State, s.camlanOn = false ∨ s.tally.due = 0 → exec .sectorRefresh s = .next s

/-! The tag (R368 to R379) -/

/-- The registers that show the tag. -/
def tagShown : List Nat := [Reg.TAG_STAT, Reg.TAG_MBSEM]

/-- The answer of the tag on the air: bytes, a 4-bit answer, or silence. -/
def tagAnswers (s t : State) (bytes : List Byte) (ack : Option Nat) : Prop :=
  t.tag = { s.tag with answer := bytes, ack := ack } ∧ RegsBut s t [] ∧ SameMem s t

/-- Anticollision and selection: ATQA 0x0044, two cascade levels whose check byte closes the exclusive or, SAK 0x04 and 0x00, sector 0 after every selection, silence after a halt (R368, R369; the states' names are the standard's, log entry 17). -/
def tagAirInterface : Prop :=
  (∀ (s : State) (level : Nat), level = 1 ∨ level = 2 → (s.tagLevel level).length = 5 ∧ xorBytes (s.tagLevel level) = 0)
  ∧ (∀ s : State, s.tagAir = true → s.tag.air = 0 →
    Does .tagReqa s (fun t => t.tag = { s.tag with air := 1, star := false, answer := [0x44, 0x00], ack := none } ∧ RegsBut s t [] ∧ SameMem s t)
    ∧ Does .tagWupa s (fun t => t.tag = { s.tag with air := 1, star := false, answer := [0x44, 0x00], ack := none } ∧ RegsBut s t [] ∧ SameMem s t))
  ∧ (∀ s : State, s.tagAir = true → s.tag.air = 4 →
    Does .tagReqa s (fun t => tagAnswers s t [] none)
    ∧ Does .tagWupa s (fun t => t.tag = { s.tag with air := 1, star := true, answer := [0x44, 0x00], ack := none } ∧ RegsBut s t [] ∧ SameMem s t))
  ∧ (∀ (s : State) (level : Nat) (known rest : List Byte), s.tagAir = true → s.tag.air = level → level = 1 ∨ level = 2 → s.tagLevel level = known ++ rest →
    Does (.tagAnticollision level known) s (fun t => tagAnswers s t rest none))
  ∧ (∀ s : State, s.tagAir = true → s.tag.air = 1 →
    Does (.tagSelect 1 (s.tagLevel 1)) s (fun t => t.tag = { s.tag with air := 2, answer := [0x04], ack := none } ∧ RegsBut s t [] ∧ SameMem s t))
  ∧ (∀ s : State, s.tagAir = true → s.tag.air = 2 →
    Does (.tagSelect 2 (s.tagLevel 2)) s (fun t => t.tag = { s.tag with air := 3, sector := 0, answer := [0x00], ack := none } ∧ RegsBut s t tagShown ∧ SameMem s t))
  ∧ (∀ s : State, s.tagAir = true → s.tag.air = 3 →
    Does .tagHlta s (fun t => t.tag = { s.tag with air := 4, star := true, answer := [], ack := none } ∧ RegsBut s t tagShown ∧ SameMem s t)
    ∧ (∀ sector, sector ≤ 7 → Does (.tagSectorSelect sector) s (fun t => t.tag = { s.tag with sector := sector, answer := [], ack := none } ∧ RegsBut s t tagShown ∧ SameMem s t))
    ∧ ∀ sector, 7 < sector → Does (.tagSectorSelect sector) s (fun t => tagAnswers s t [] (some 0)))
  ∧ (∀ s : State, s.tagAir = true → s.tag.air ≠ 3 → ∀ c, c ∈ [Instr.tagHlta, .tagSectorSelect 0, .tagRead 0] →
    Does c s (fun t => t.tag = { s.tag with air := if s.tag.star then 4 else 0, answer := [], ack := none } ∧ RegsBut s t tagShown ∧ SameMem s t))
  ∧ ∀ (s : State) (level page sector us : Nat) (l : List Byte) (v : Bool), s.tagAir = false → ∀ c, c ∈ [Instr.tagReqa, .tagWupa, .tagAnticollision level l, .tagSelect level l, .tagHlta, .tagRead page,
      .tagWrite page l v us, .tagCompatWrite page l v us, .tagSectorSelect sector] → exec c s = .next s

/-- An active tag in a field with no row programming answers commands at once. -/
def tagReady (s : State) : Prop := s.tagAir = true ∧ s.tag.air = 3 ∧ s.tag.rows = []

/-- The 16 bytes of four pages of the current sector, wrapping at page 0xFF. -/
def fourPages (s : State) (page : Nat) : List Byte :=
  ((List.range 4).map (fun i => (page + i) % 256)).flatMap (fun p => (List.range 4).map (fun i => s.tagByte (s.tag.sector * 1024 + p * 4 + i)))

/-- The state with the stamp of a page write. -/
def stamped (s : State) (us : Nat) : State := if s.running then s.atUs us else s

/-- A read answers four pages and a write programs one page where the field may write, with NAK 0x0 elsewhere and NAK 0x5 after a failed verify (R369, R371); page 0xF3 of sector 1 stamps the confirmation (R375) and a new REQSEQ raises the request (R378); the mailbox is taken, from the host too (R377); a command waits while a row programs (R372). -/
def tagReadsAndWrites : Prop :=
  (∀ (s : State) (page : Nat), tagReady s → s.tag.sector ≠ 3 → Does (.tagRead page) s (fun t => tagAnswers s t (fourPages s page) none))
  ∧ (∀ (s : State) (page : Nat), tagReady s → s.tag.sector = 3 → page < 0x7D → s.tag.owner ≠ 2 →
    Does (.tagRead page) s (fun t => t.tag = { s.tag with owner := 1, answer := fourPages t page, ack := none } ∧ t.rdB 0x50000E00 = 1 ∧ (∀ a, a ≠ 0x50000E00 → t.rdB a = s.rdB a) ∧ RegsBut s t tagShown))
  ∧ (∀ (s : State) (page : Nat), tagReady s → s.tag.sector = 3 → page < 0x7D → s.tag.owner = 2 → s.powered = true →
    Does (.tagRead page) s (fun t => t.tag.owner = 1 ∧ t.tag.preempts = (s.tag.preempts + 1) % 65536 ∧ t.bit Reg.TAG_IRQ 4 = true
      ∧ (∀ row l, s.tag.buf = some (row, l) → t.tag.buf = if inMailbox (row - tagBase) then none else some (row, l)) ∧ RegsBut s t (Reg.TAG_IRQ :: tagShown ++ logRegs 0)))
  ∧ (∀ (s : State) (page us : Nat) (d : List Byte) (v : Bool), tagReady s →
    255 < page ∨ (inConfirmation (s.tag.sector * 1024 + page * 4) = false ∧ inMailbox (s.tag.sector * 1024 + page * 4) = false) →
    Does (.tagWrite page d v us) s (fun t => tagAnswers s t [] (some 0)))
  ∧ (∀ (s : State) (page us : Nat) (d : List Byte), tagReady s → s.tag.sector = 1 → 0xF0 ≤ page → page ≤ 0xF3 → d.length = 4 → s.powered = true →
    Does (.tagWrite page d true us) s (fun t => t.tag.ack = some 0xA ∧ t.rdBytes (0x50000400 + page * 4) 4 = d
      ∧ (∀ a, a < 0x50000400 + page * 4 ∨ 0x50000404 + page * 4 ≤ a → t.rdB a = s.rdB a) ∧ t.rdN Reg.TAG_LASTW = page + 256
      ∧ (page < 0xF3 → t.tag = { s.tag with answer := [], ack := some 0xA } ∧ RegsBut s t [Reg.TAG_LASTW, Reg.TAG_FWCNT])
      ∧ (page = 0xF3 → t.tag.confAt = some ((stamped s us).now, s.strokeNo) ∧ t.rdN Reg.TAG_CONFSTAMP = (stamped s us).now % 2 ^ 32 ∧ t.bit Reg.TAG_IRQ 2 = true
        ∧ RegsBut s t [Reg.TAG_LASTW, Reg.TAG_FWCNT, Reg.TAG_CONFSTAMP, Reg.TAG_IRQ, Reg.STK_PHASE]))
    ∧ Does (.tagWrite page d false us) s (fun t => t.tag = { s.tag with answer := [], ack := some 5 } ∧ t.bit Reg.TAG_STAT 9 = true ∧ t.bit Reg.TAG_IRQ 6 = true
      ∧ (∀ a, a < 0x50000400 + page * 4 ∨ 0x50000404 + page * 4 ≤ a → t.rdB a = s.rdB a) ∧ RegsBut s t ([Reg.TAG_STAT, Reg.TAG_IRQ] ++ logRegs 0)))
  ∧ (∀ (s : State) (us : Nat) (d : List Byte), tagReady s → s.tag.sector = 3 → s.tag.owner ≠ 2 → d.length = 4 → s.powered = true →
    Does (.tagWrite 0 d true us) s (fun t => t.tag.ack = some 0xA ∧ t.tag.owner = 1 ∧ t.rdBytes 0x50000C00 4 = d
      ∧ (leNat (d.drop 2) ≠ s.tag.lastReq → t.tag.request = some (stamped s us).now ∧ t.bit Reg.TAG_IRQ 3 = true)
      ∧ (leNat (d.drop 2) = s.tag.lastReq → t.tag.request = s.tag.request)
      ∧ (∀ a, a < 0x50000C00 ∨ 0x50000C04 ≤ a → a ≠ 0x50000E00 → t.rdB a = s.rdB a) ∧ RegsBut s t ([Reg.TAG_LASTW, Reg.TAG_FWCNT, Reg.TAG_IRQ, Reg.STK_PHASE] ++ tagShown)))
  ∧ (∀ (s : State) (page us : Nat) (d : List Byte) (v : Bool), exec (.tagCompatWrite page d v us) s = exec (.tagWrite page (d.take 4) v us) s)
  ∧ (∀ (s : State) (page : Nat), s.tagAir = true → s.tag.air = 3 → s.tag.rows ≠ [] →
    Does (.tagRead page) s (fun t => t.tag = { s.tag with wait := some (.read page), answer := [], ack := none } ∧ RegsBut s t [] ∧ SameMem s t))

/-- The field's coming and going (R377); host stores gather in one row, are refused elsewhere and need the semaphore in the mailbox (R371, R372); a programmed row answers the command that waited (R372); the semaphore's owners (R377); a wipe needs its key and writes zeros (R371). Where the manual leaves a point open, the model's choice of log entry 114 stands. -/
def Obligations.TagHostSide : Prop :=
  (∀ s : State, Does .tagFieldOn s (fun t => t.tag = { s.tag with field := true, air := 0, star := false, answer := [], ack := none }
    ∧ (s.powered = true → t.bit Reg.TAG_IRQ 0 = true) ∧ RegsBut s t (Reg.TAG_IRQ :: tagShown ++ logRegs 0) ∧ SameMem s t))
  ∧ (∀ s : State, Does .tagFieldOff s (fun t => t.tag = { s.tag with field := false, air := 0, star := false, answer := [], ack := none, wait := none, owner := if s.tag.owner = 1 then 0 else s.tag.owner }
    ∧ (s.powered = true → t.bit Reg.TAG_IRQ 1 = true ∧ (s.tag.owner = 1 → t.bit Reg.TAG_IRQ 5 = true)) ∧ RegsBut s t (Reg.TAG_IRQ :: tagShown ++ logRegs 0)
    ∧ (∀ a, a ≠ 0x50000E00 ∨ s.tag.owner ≠ 1 → t.rdB a = s.rdB a)))
  ∧ (∀ (s : State) (off : Nat) (d : List Byte), s.awake = true → inMailbox off = true → s.tag.owner ≠ 2 →
    Does (.tagHostStore (tagBase + off) d) s (fun t => t.bit Reg.TAG_STAT 8 = true ∧ OnlyRegs s t [Reg.TAG_STAT]))
  ∧ (∀ (s : State) (row i : Nat) (d : List Byte), s.awake = true → row % 16 = 0 → row < 0x2000 → i + d.length ≤ 16 → d ≠ [] → hostOwned (row + i) = true ∨ (inMailbox (row + i) = true ∧ s.tag.owner = 2) →
    let new := ((List.range d.length).zip d).map (fun e => (i + e.1, e.2))
    (s.tag.buf = none → Does (.tagHostStore (tagBase + row + i) d) s (fun t => t.tag = { s.tag with buf := some (tagBase + row, new) } ∧ RegsBut s t [] ∧ SameMem s t))
    ∧ (∀ l, s.tag.buf = some (tagBase + row, l) → Does (.tagHostStore (tagBase + row + i) d) s (fun t => t.tag = { s.tag with buf := some (tagBase + row, l ++ new) } ∧ RegsBut s t [] ∧ SameMem s t))
    ∧ (∀ r l, s.tag.buf = some (r, l) → r ≠ tagBase + row → Does (.tagHostStore (tagBase + row + i) d) s (fun t =>
        t.tag = { s.tag with buf := some (tagBase + row, new), rows := s.tag.rows ++ [(r, s.rowBytes r l)] } ∧ RegsBut s t tagShown ∧ SameMem s t)))
  ∧ (∀ (s : State) (off : Nat) (d : List Byte), s.awake = true → hostOwned off = false → inMailbox off = false → exec (.tagHostStore (tagBase + off) d) s = .next (s.coxBusError true (tagBase + off)))
  ∧ (∀ (s : State) (row : Nat) (l : List (Nat × Byte)), s.awake = true → s.tag.buf = some (row, l) →
    Does .tagFlush s (fun t => t.tag = { s.tag with buf := none, rows := s.tag.rows ++ [(row, s.rowBytes row l)] } ∧ (s.powered = true → t.bit Reg.TAG_STAT 2 = true) ∧ RegsBut s t tagShown ∧ SameMem s t))
  ∧ (∀ s : State, s.tag.buf = none → exec .tagFlush s = .next s)
  ∧ (∀ (s : State) (row : Nat) (b : List Byte) (rest : List (Nat × List Byte)), s.tag.rows = (row, b) :: rest → s.tag.wait = none → b.length = 16 →
    Does (.tagRowProgramDone true) s (fun t => t.tag = { s.tag with rows := rest } ∧ t.rdBytes row 16 = b ∧ (∀ a, a < row ∨ row + 16 ≤ a → t.rdB a = s.rdB a) ∧ RegsBut s t tagShown)
    ∧ Does (.tagRowProgramDone false) s (fun t => t.tag = { s.tag with rows := rest } ∧ t.bit Reg.TAG_STAT 9 = true ∧ (∀ a, a < row ∨ row + 16 ≤ a → t.rdB a = s.rdB a)
      ∧ RegsBut s t (Reg.TAG_IRQ :: tagShown ++ logRegs 0)))
  ∧ (∀ (s : State) (row page : Nat) (b : List Byte), s.tagAir = true → s.tag.air = 3 → s.tag.sector ≠ 3 → s.tag.rows = [(row, b)] → s.tag.wait = some (.read page) →
    Does (.tagRowProgramDone true) s (fun t => t.tag = { s.tag with rows := [], wait := none, answer := fourPages t page, ack := none } ∧ RegsBut s t tagShown))
  ∧ (∀ s : State, (s.awake = true → s.tag.owner = 0 → Does .tagSemaphoreTake s (fun t => t.tag = { s.tag with owner := 2 } ∧ t.rdB 0x50000E00 = 2 ∧ (∀ a, a ≠ 0x50000E00 → t.rdB a = s.rdB a) ∧ RegsBut s t tagShown))
    ∧ (s.tag.owner ≠ 0 → exec .tagSemaphoreTake s = .next s)
    ∧ (s.awake = true → s.tag.owner = 2 → Does .tagSemaphoreRelease s (fun t => t.tag = { s.tag with owner := 0 } ∧ t.rdB 0x50000E00 = 0 ∧ (∀ a, a ≠ 0x50000E00 → t.rdB a = s.rdB a) ∧ RegsBut s t tagShown))
    ∧ (s.tag.owner ≠ 2 → exec .tagSemaphoreRelease s = .next s)
    ∧ (s.tag.owner = 1 → Does .tagFieldIdleRelease s (fun t => t.tag = { s.tag with owner := 0 } ∧ t.rdB 0x50000E00 = 0 ∧ (∀ a, a ≠ 0x50000E00 → t.rdB a = s.rdB a) ∧ RegsBut s t (Reg.TAG_IRQ :: tagShown)))
    ∧ (s.tag.owner ≠ 1 → exec .tagFieldIdleRelease s = .next s))
  ∧ (∀ (s : State) (u c : Bool), s.awake = true → Does (.tagWipe (wordOf (0x54570000 + (if c then 2 else 0) + (if u then 1 else 0)))) s (fun t =>
    (∀ off, t.rdB (tagBase + off) = if (u = true ∧ (off < 0x7D0 ∧ 0x400 ≤ off ∨ 0x800 ≤ off ∧ off < 0xE10)) ∨ (c = true ∧ inConfirmation off = true) then 0 else s.rdB (tagBase + off))
      ∧ t.nv = (if u then { s.nv with shoreSeq := 0 } else s.nv) ∧ RegsBut s t []))
  ∧ ∀ (s : State) (v : Word), getField v.toNat 16 16 ≠ 0x5457 → exec (.tagWipe v) s = .next s

/-! The Q-port, the sealed window's buffer and GPIO (R380 to R393) -/

/-- The words an entry needs at its push. -/
def needWords (e : QEnt) : Nat := if e.dir = 0 then e.count else 0

/-- The entry fits: its words, a free place and 128 us for the chain that it ends (R382, R383). -/
def pushFits (s : State) (n : Nat) : Prop :=
  (s.builtEntry n).words.length = needWords (s.builtEntry n) ∧ (s.queue n).length < 16
    ∧ ((openTail (s.queue n) ++ [s.builtEntry n]).map (s.entClocks n)).foldl (· + ·) 0 * s.fld (Reg.QP_Q_CFG n) 0 8 * 10 ≤ 128000

/-- A push is accepted whole or refused with an error bit (R382, R383); the chain whose select is next in the round takes the free bus, or the gap between a fill's tag-group read and its line read, and ends with its received words, DONECNT and the holder's event (R381, R382); a slave frame is accepted or rejected whole (R386); a requester sets and clears only pins it may reach, and an enabled edge raises its holder's event (R393). -/
def queuesSlaveAndPins : Prop :=
  (∀ (s : State) (rq : Requester) (n : Nat), s.awake = true → n < 4 → s.mayQsel rq n = true →
    (pushFits s n → Does (.qpPush rq n) s (fun t => t.queue n = s.queue n ++ [s.builtEntry n] ∧ t.fld (Reg.QP_Q_STAT n) 8 5 = 15 - (s.queue n).length
      ∧ t.qp = { s.qp with queues := t.qp.queues, stage := Tab.put [] s.qp.stage n [], next := if s.busFree then none else s.qp.next } ∧ RegsBut s t [Reg.QP_Q_STAT n, Reg.QP_STAT] ∧ SameMem s t))
    ∧ (¬ pushFits s n → Does (.qpPush rq n) s (fun t => t.bit (Reg.QP_Q_STAT n) 24 = true ∧ t.qp = { s.qp with stage := Tab.put [] s.qp.stage n [] } ∧ RegsBut s t [Reg.QP_Q_STAT n] ∧ SameMem s t)))
  ∧ (∀ (s : State) (rq : Requester) (n : Nat), s.mayQsel rq n = false → exec (.qpPush rq n) s = .next s)
  ∧ (∀ (s : State) (n : Nat), s.nextSelect = some n → s.bit Reg.QP_CTRL 0 = true →
    (s.busFree = true → Does (.qpChainRun n) s (fun t => t.qp = { s.qp with chain := some n, next := none, turn := false, last := n } ∧ t.bit (Reg.QP_Q_STAT n) 0 = true ∧ t.bit Reg.QP_STAT 0 = true
      ∧ t.fld Reg.QP_STAT 1 3 = n + 1 ∧ RegsBut s t [Reg.QP_Q_STAT n, Reg.QP_STAT] ∧ SameMem s t))
    ∧ (∀ g, s.busFree = false → s.groupGap = some g → Does (.qpChainRun n) s (fun t => t.qp = { s.qp with groups := heldGroups s.qp.groups g, chain := some n, next := none, turn := false, last := n }
      ∧ t.bit (Reg.QP_Q_STAT n) 0 = true ∧ t.fld Reg.QP_STAT 1 3 = n + 1 ∧ RegsBut s t [Reg.QP_Q_STAT n, Reg.QP_STAT] ∧ SameMem s t))
    ∧ (s.busFree = false → s.groupGap = none → exec (.qpChainRun n) s = .next s))
  ∧ (∀ (s : State) (n : Nat), s.nextSelect ≠ some n ∨ s.bit Reg.QP_CTRL 0 = false → exec (.qpChainRun n) s = .next s)
  ∧ (∀ (s : State) (n : Nat), s.nextSelect = some n → n < 4 ∧ s.queue n ≠ [] ∧ ∀ m, m < 4 → s.queue m ≠ [] → (n + 3 - s.qp.last % 4) % 4 ≤ (m + 3 - s.qp.last % 4) % 4)
  ∧ (∀ (s : State) (n : Nat) (e : QEnt) (rest : List QEnt) (words : List Word), n < 4 → s.qp.chain = some n → s.qp.misses = [] → s.queue n = e :: rest → e.links = false →
    Does (.qpChainEnd words) s (fun t => t.qp.chain = none ∧ t.queue n = rest ∧ t.bit Reg.QP_STAT 0 = s.qp.fill.isSome
      ∧ t.qrx n = (if e.dir = 1 then (s.qrx n ++ (words.take e.count).map (fun (w : Word) => w.toNat % 2 ^ e.wlen)).take 32 else s.qrx n)
      ∧ t.fld (Reg.QP_Q_DONECNT n) 0 8 = (if e.irq then min (s.fld (Reg.QP_Q_DONECNT n) 0 8 + 1) 255 else s.fld (Reg.QP_Q_DONECNT n) 0 8)
      ∧ (∀ k, e.irq = true → s.qselGrant n = some k → t.bit (Reg.PART_EVP k) 10 = true)
      ∧ RegsBut s t ([Reg.QP_STAT, Reg.QP_Q_STAT n, Reg.QP_Q_RXDATA n, Reg.QP_Q_DONECNT n] ++ (List.range 7).map Reg.PART_EVP) ∧ SameMem s t))
  ∧ (∀ (s : State) (words : List Word), s.qp.chain = none → exec (.qpChainEnd words) s = .next s)
  ∧ (∀ (s : State) (bits : Nat) (words : List Word), s.bit (Reg.QP_Q_CFG 3) 24 = true →
    let wlen := s.fld (Reg.QP_Q_ENTCTL 3) 8 5 + 1
    (bits ≠ 0 → bits % wlen = 0 → bits ≤ 64 * wlen → s.qp.slave.length + bits / wlen ≤ 64 → words.length = bits / wlen →
      Does (.qpSlaveFrame bits words) s (fun t => t.qp = { s.qp with slave := s.qp.slave ++ words.map (fun (w : Word) => w.toNat % 2 ^ wlen) } ∧ t.fld Reg.QP_SLVST 0 7 = s.qp.slave.length + words.length
        ∧ t.fld Reg.QP_SLVST 8 16 = min (s.fld Reg.QP_SLVST 8 16 + 1) 0xFFFF ∧ RegsBut s t [Reg.QP_SLVST, Reg.QP_SLVRX] ∧ SameMem s t))
    ∧ (bits = 0 ∨ bits % wlen ≠ 0 ∨ 64 * wlen < bits ∨ 64 < s.qp.slave.length + bits / wlen →
      Does (.qpSlaveFrame bits words) s (fun t => t.qp = s.qp ∧ t.fld Reg.QP_SLVST 24 8 = min (s.fld Reg.QP_SLVST 24 8 + 1) 0xFF ∧ t.bit Reg.QP_IRQ 1 = true
        ∧ RegsBut s t ([Reg.QP_SLVST, Reg.QP_IRQ] ++ logRegs 0 ++ (List.range 7).flatMap (fun k => logRegs (2 + k))) ∧ SameMem s t)))
  ∧ (∀ (s : State) (bits : Nat) (words : List Word), s.bit (Reg.QP_Q_CFG 3) 24 = false → exec (.qpSlaveFrame bits words) s = .next s)
  ∧ (∀ (s : State) (rq : Requester) (pins : Word), s.awake = true →
    Does (.gpioSet rq pins) s (fun t => (∀ i, i < 32 → t.bit Reg.GPIO_OUT i = (s.bit Reg.GPIO_OUT i || (pins.toNat.testBit i && (s.gpioMask rq).testBit i))) ∧ OnlyRegs s t [Reg.GPIO_OUT])
    ∧ Does (.gpioClr rq pins) s (fun t => (∀ i, i < 32 → t.bit Reg.GPIO_OUT i = (s.bit Reg.GPIO_OUT i && !(pins.toNat.testBit i && (s.gpioMask rq).testBit i))) ∧ OnlyRegs s t [Reg.GPIO_OUT]))
  ∧ (∀ (s : State) (pin : Nat) (level : Bool), pin < 32 → (s.bit (Reg.QP_Q_CFG 3) 24 = false ∨ pin < 30) → s.bit Reg.GPIO_IN pin ≠ level →
    Does (.gpioEdge pin level) s (fun t => t.bit Reg.GPIO_IN pin = level
      ∧ (s.bit (if level then Reg.GPIO_RISE else Reg.GPIO_FALL) pin = true → t.bit Reg.GPIO_EDGE pin = true
        ∧ ∀ k, k < 7 → s.granted (k + 1) .gpio pin = true → (∀ j, j < k → s.granted (j + 1) .gpio pin = false) → t.bit (Reg.PART_EVP k) 11 = true)
      ∧ (s.bit (if level then Reg.GPIO_RISE else Reg.GPIO_FALL) pin = false → RegsBut s t [Reg.GPIO_IN])
      ∧ OnlyRegs s t ([Reg.GPIO_IN, Reg.GPIO_EDGE] ++ (List.range 7).map Reg.PART_EVP)))
  ∧ ∀ (s : State) (pin : Nat) (level : Bool), 32 ≤ pin ∨ (s.bit (Reg.QP_Q_CFG 3) 24 = true ∧ 30 ≤ pin) ∨ s.bit Reg.GPIO_IN pin = level → exec (.gpioEdge pin level) s = .next s

/-- A miss of the window starts a fill that later misses on its line share (R388); a line whose stored tag, on its first or its repeated read, is the one its seal gives is held as the newest of 16, one that fails it twice ends in a recorded error and suspends its partition (R390). -/
def sealedWindow : Prop :=
  (∀ (s : State) (sc addr : Nat), s.bit Reg.QP_CTRL 1 = true →
    let line := addr % 2 ^ 28 / 256
    (s.qp.lines.contains line = true → Does (.xipMiss sc addr) s (fun t => t = { s with qp := { s.qp with lines := line :: s.qp.lines.filter (· ≠ line) } }))
    ∧ (s.qp.lines.contains line = false → s.qp.fill = some line →
      Does (.xipMiss sc addr) s (fun t => t = { s with qp := { s.qp with waiters := s.qp.waiters ++ [sc], demand := true } }))
    ∧ (s.qp.lines.contains line = false → s.qp.fill = none → s.qp.chain = none → s.qp.misses = [] → s.chainFirst = false →
      Does (.xipMiss sc addr) s (fun t => t.qp.fill = some line ∧ t.qp.waiters = [sc] ∧ t.qp.demand = true ∧ t.qp.misses = [] ∧ t.bit Reg.QP_STAT 0 = true ∧ RegsBut s t [Reg.QP_STAT] ∧ SameMem s t))
    ∧ (s.qp.lines.contains line = false → s.qp.fill ≠ some line → s.qp.chain ≠ none →
      Does (.xipMiss sc addr) s (fun t => t = { s with qp := { s.qp with misses := s.qp.misses ++ [(sc, line)] } })))
  ∧ (∀ (s : State) (sc addr : Nat), s.bit Reg.QP_CTRL 1 = false → exec (.xipMiss sc addr) s = .next s)
  ∧ (∀ s : State, s.awake = true → Does .xipInvalidate s (fun t => t = { s with qp := { s.qp with lines := [], groups := [], next := none } }))
  ∧ (∀ (s : State) (line i : Nat) (d g d2 g2 : List Byte), s.qp.fill = some line → s.windowOf line = some i → s.tagOk (i + 1) line d g = true ∨ s.tagOk (i + 1) line d2 g2 = true → s.qp.chain = none → s.qp.misses = [] → s.bit Reg.QP_CTRL 3 = false →
    Does (.xipLineDone d g d2 g2) s (fun t => t.qp.fill = none ∧ t.qp.waiters = [] ∧ t.qp.lines = (line :: s.qp.lines.filter (· ≠ line)).take 16
      ∧ t.qp.groups = heldGroups s.qp.groups (line / 16) ∧ t.fld Reg.QP_FILLCNT 0 16 = min (s.fld Reg.QP_FILLCNT 0 16 + 1) 0xFFFF
      ∧ RegsBut s t [Reg.QP_FILLCNT, Reg.QP_TAGFAIL, Reg.QP_STAT] ∧ SameMem s t ∧ t.nv = s.nv))
  ∧ (∀ (s : State) (line i : Nat) (d g d2 g2 : List Byte), s.qp.fill = some line → line < 2 ^ 24 → s.windowOf line = some i → s.tagOk (i + 1) line d g = false → s.tagOk (i + 1) line d2 g2 = false →
    s.qp.chain = none → s.qp.misses = [] →
    Does (.xipLineDone d g d2 g2) s (fun t => t.qp.fill = none ∧ t.qp.lines = s.qp.lines ∧ t.rdN Reg.QP_TAGADDR = line * 256 ∧ t.bit Reg.QP_IRQ 0 = true
      ∧ t.fld Reg.QP_TAGFAIL 16 16 = min (s.fld Reg.QP_TAGFAIL 16 16 + 1) 0xFFFF
      ∧ (s.partState (i + 1) = pRunning → t.partState (i + 1) = pSuspended ∧ t.fld (Reg.PART_STATE i) 8 8 = 2)
      ∧ (s.partState (i + 1) ≠ pRunning → s.qp.waiters = [] → RegsBut s t ([Reg.QP_TAGFAIL, Reg.QP_TAGADDR, Reg.QP_IRQ, Reg.QP_STAT] ++ logRegs 0 ++ logRegs (2 + i)) ∧ SameMem s t)))
  ∧ (∀ (s : State) (line : Nat) (d g d2 g2 : List Byte), s.qp.fill = some line → s.windowOf line = none → s.qp.chain = none → s.qp.misses = [] → s.bit Reg.QP_CTRL 3 = false →
    Does (.xipLineDone d g d2 g2) s (fun t => t.qp.fill = none ∧ t.qp.lines = (line :: s.qp.lines.filter (· ≠ line)).take 16 ∧ t.qp.groups = s.qp.groups
      ∧ RegsBut s t [Reg.QP_FILLCNT, Reg.QP_STAT] ∧ SameMem s t))
  ∧ ∀ (s : State) (d g d2 g2 : List Byte), s.qp.fill = none ∨ s.qp.chain ≠ none → exec (.xipLineDone d g d2 g2) s = .next s

/-! The debug port and the security engine (R74 to R77, R113, R405 to R409, Table 19-4) -/

/-- The registers that an authentication shows. -/
def authShown : List Nat := [Reg.SEC_CHALID, Reg.SEC_NONCE 0, Reg.SEC_NONCE 1, Reg.SEC_NONCE 2, Reg.SEC_NONCE 3, Reg.SEC_AUTH]

/-- The key identity that a debug response's signature authenticates, over the fresh challenge (R75, R407, R408). -/
def debugKey (s : State) (sig : List Byte) : Option Nat :=
  let c := s.newChallenge
  c.2.debugMatch (c.2.authMessage c.1 c.2.nonceBytes 2) sig

/-- The program buffer takes its 8 words; no exception stands yet. -/
def bufferFilled (s : State) (words : List Word) : State :=
  { s with dbg := { s.dbg with progbuf := (words ++ List.replicate 8 0).take 8, exception := false } }

/-- A response of a matched key opens a session and unfeeds the pump, the third failed one refuses every later challenge (R75, R77); both cores halt and resume in step (R76); a debugger of halted cores reads x0, misa and mhartid as R57 gives them, reads back what it wrote, and meets an exception at a register that the core does not implement (R57, R74, log entries 62, 140); its program buffer holds 8 words and reaches memory with P0's rights, and its own bus only the boot ROM (R74); a reset request needs a session (R113). Where the manual leaves a point open, the model's choice of log entries 73 and 139 stands. -/
def Obligations.DebugPort : Prop :=
  (∀ (s : State) (sig : List Byte), s.debugAnswers = false → exec (.debugAuth sig) s = .next s)
  ∧ (∀ (s : State) (sig : List Byte), s.debugAnswers = true →
    Does (.debugAuth sig) s (fun t => t.dbg = { s.dbg with chal := (s.rdN Reg.SEC_CHALID + 1) % 2 ^ 32 }
      ∧ (∀ n, debugKey s sig = some n → t.bit Reg.DBG_STAT 1 = true ∧ t.bit Reg.DBG_STAT 2 = true ∧ t.rdN Reg.DBG_SESSID = n ∧ t.bit Reg.COX_STATUS 0 = false ∧ t.stk.feed = false
        ∧ (s.camlanOn = false → RegsBut s t (authShown ++ [Reg.DBG_STAT, Reg.DBG_SESSID, Reg.COX_STATUS, Reg.PUMP_STAT]) ∧ SameMem s t)
        ∧ (s.rowing = true → s.inEasy = false → s.acts = .idle → t.cam.state = .easy ∧ t.cam.easyCauses = [0x12]))
      ∧ (debugKey s sig = none → t.fld Reg.DBG_FAILS 0 2 = min (s.fld Reg.DBG_FAILS 0 2 + 1) 3 ∧ (2 ≤ s.fld Reg.DBG_FAILS 0 2 → t.bit Reg.DBG_STAT 4 = true)
        ∧ t.bit Reg.DBG_STAT 2 = s.bit Reg.DBG_STAT 2 ∧ RegsBut s t (authShown ++ [Reg.DBG_STAT, Reg.DBG_FAILS] ++ logRegs 0) ∧ SameMem s t)))
  ∧ (∀ s : State, (s.attached = true → Does .debugHalt s (fun t => t.bit Reg.DBG_STAT 3 = true ∧ OnlyRegs s t [Reg.DBG_STAT])) ∧ (s.attached = false → exec .debugHalt s = .next s))
  ∧ (∀ s : State, s.halted = true →
    Does .debugResume s (fun t => t.bit Reg.DBG_STAT 3 = false ∧ t.dbg = { s.dbg with gpr := [], csr := [] } ∧ RegsBut s t [Reg.DBG_STAT] ∧ SameMem s t)
    ∧ Does .debugStep s (fun t => t = { s with dbg := { s.dbg with gpr := [], csr := [] } })
    ∧ (∀ e, e ∈ ([(0x1000, 0), (0x301, 0x40001104), (0xF14, 0)] : List (Nat × Nat)) →
      Does (.debugAbstractCommand e.1 none) s (fun t => t = { s with dbg := { s.dbg with data := e.2, exception := false } }))
    ∧ (∀ (r : Nat) (w : Word), r < 0x1020 → r ≠ 0x1000 → r ≠ 0x301 → abstractIllegal r true = false →
      Does (.debugAbstractCommand r (some w)) s (fun t => t.halted = true ∧ Does (.debugAbstractCommand r none) t (fun u => u.dbg.data = w.toNat ∧ u.dbg.exception = false ∧ RegsBut s u [] ∧ SameMem s u)))
    ∧ (∀ (r : Nat), 0x1000 < r → r < 0x1020 → s.dbg.gpr = [] →
      Does (.debugAbstractCommand r none) s (fun t => RegsBut s t [] ∧ SameMem s t ∧ Does (.debugAbstractCommand r none) t (fun u => u.dbg.data = t.dbg.data)))
    ∧ (∀ (r : Nat) (w : Option Word), abstractIllegal r w.isSome = true → Does (.debugAbstractCommand r w) s (fun t => t = { s with dbg := { s.dbg with exception := true } })))
  ∧ (∀ (s : State) (words : List Word) (a : Nat), s.halted = true →
    (inMem a = true → a < 0x40000000 → Does (.debugProgramBuffer words ⟨a, none⟩) s (fun t => t = { bufferFilled s words with dbg := { (bufferFilled s words).dbg with data := s.ld a 4 } }))
    ∧ (∀ w : Word, 0x10000000 ≤ a → a + 4 ≤ 0x10040000 →
      Does (.debugProgramBuffer words ⟨a, some w⟩) s (fun t => t.ld a 4 = w.toNat ∧ (∀ b, b < a ∨ a + 4 ≤ b → t.rdB b = s.rdB b) ∧ t = { bufferFilled s words with mem := t.mem }))
    ∧ (∀ w : Word, mapped a = false → exec (.debugProgramBuffer words ⟨a, some w⟩) s = .next ((bufferFilled s words).coxBusError true a)
      ∧ exec (.debugProgramBuffer words ⟨a, none⟩) s = .next ((bufferFilled s words).coxBusError false a)))
  ∧ (∀ s : State, s.halted = false → exec .debugResume s = .next s ∧ exec .debugStep s = .next s ∧ (∀ r w, exec (.debugAbstractCommand r w) s = .next s)
    ∧ ∀ words acc, exec (.debugProgramBuffer words acc) s = .next s)
  ∧ (∀ s : State, s.attached = true →
    (∀ a, a ≤ 0xFFFF → Does (.debugSysbusRead a) s (fun t => ∃ n, t = { s with dbg := { s.dbg with data := n } }))
    ∧ (∀ a, 0xFFFF < a → exec (.debugSysbusRead a) s = .next (s.busRecord .debugPort false a))
    ∧ exec .debugResetRequest s = .next (s.assertReset 8))
  ∧ ∀ s : State, s.attached = false → exec .debugResetRequest s = .next s ∧ ∀ a, exec (.debugSysbusRead a) s = .next s

/-- An operation of SEC starts on the registers as they stand and ends by storing its result with DONE, or in ERR (Table 19-4); a key slot takes a loaded or a random key (R405); the random word is 0 without a healthy source. Where the manual leaves a point open, the model's choice of log entries 2 and 63 stands. -/
def Obligations.SecurityEngine : Prop :=
  (∀ s : State, s.awake = true → s.bit Reg.SEC_CTRL 0 = true → s.bit Reg.SEC_STAT 3 = false →
    ∀ c f, (c, f) ∈ [(Instr.secSha256, 0), (.secAesEcb, 1), (.secAesCcm, 2), (.secAesCmac, 3), (.secEcdsaVerify, 4)] →
    Does c s (fun t => t.sec = { s.sec with op := some (f, s.fld Reg.SEC_OP 8 8, s.rdN Reg.SEC_SRC, s.rdN Reg.SEC_DST, s.fld Reg.SEC_LEN 0 16, s.fld Reg.SEC_LEN 16 16) }
      ∧ t.bit Reg.SEC_STAT 3 = true ∧ t.fld Reg.SEC_OP 0 3 = f ∧ RegsBut s t [Reg.SEC_OP, Reg.SEC_STAT] ∧ SameMem s t))
  ∧ (∀ s : State, s.awake = false ∨ s.bit Reg.SEC_CTRL 0 = false ∨ s.bit Reg.SEC_STAT 3 = true →
    ∀ c, c ∈ [Instr.secSha256, .secAesEcb, .secAesCcm, .secAesCmac, .secEcdsaVerify] → exec c s = .next s)
  ∧ (∀ (s : State) (f key src dst len aux : Nat), s.sec.op = some (f, key, src, dst, len, aux) →
    (s.secResult f key src len ≠ [] → secStores dst (s.secResult f key src len).length = true →
      Does (.secOperationDone true) s (fun t => t.sec = { s.sec with op := none } ∧ t.bit Reg.SEC_STAT 3 = false ∧ t.bit Reg.SEC_IRQ 0 = true
        ∧ t.rdBytes dst (s.secResult f key src len).length = s.secResult f key src len ∧ (∀ a, a < dst ∨ dst + (s.secResult f key src len).length ≤ a → t.rdB a = s.rdB a)
        ∧ RegsBut s t [Reg.SEC_STAT, Reg.SEC_IRQ]))
    ∧ (f = 4 → Does (.secOperationDone true) s (fun t => t.sec = { s.sec with op := none } ∧ t.bit Reg.SEC_STAT 3 = false ∧ t.bit Reg.SEC_IRQ 0 = true ∧ RegsBut s t [Reg.SEC_STAT, Reg.SEC_IRQ] ∧ SameMem s t))
    ∧ Does (.secOperationDone false) s (fun t => t.sec = { s.sec with op := none } ∧ t.bit Reg.SEC_STAT 3 = false ∧ t.bit Reg.SEC_STAT 9 = true ∧ t.bit Reg.SEC_IRQ 1 = true
      ∧ RegsBut s t [Reg.SEC_STAT, Reg.SEC_IRQ] ∧ SameMem s t))
  ∧ (∀ (s : State) (ok : Bool), s.sec.op = none → exec (.secOperationDone ok) s = .next s)
  ∧ (∀ (s : State) (slot : Nat), s.awake = true → s.bit Reg.SEC_CTRL 0 = true → slot < 130 →
    Does (.secKeyLoad slot) s (fun t => t.secKey slot = s.rdBytes (s.rdN Reg.SEC_DST) 16 ∧ (∀ m, m ≠ slot → t.secKey m = s.secKey m) ∧ RegsBut s t [] ∧ SameMem s t)
    ∧ (s.bit Reg.SEC_STAT 2 = true → Does (.secKeyGenerate slot) s (fun t => (t.secKey slot).length = 16 ∧ (∀ m, m ≠ slot → t.secKey m = s.secKey m) ∧ t.freeCtr = s.freeCtr + 4 ∧ RegsBut s t [] ∧ SameMem s t))
    ∧ (s.bit Reg.SEC_STAT 2 = false → Does (.secKeyGenerate slot) s (fun t => t.bit Reg.SEC_STAT 9 = true ∧ t.bit Reg.SEC_IRQ 1 = true ∧ OnlyRegs s t [Reg.SEC_STAT, Reg.SEC_IRQ])))
  ∧ (∀ (s : State) (slot : Nat), s.awake = false ∨ s.bit Reg.SEC_CTRL 0 = false ∨ 130 ≤ slot → exec (.secKeyLoad slot) s = .next s ∧ exec (.secKeyGenerate slot) s = .next s)
  ∧ ∀ s : State, s.awake = true →
    (s.bit Reg.SEC_STAT 2 = false → Does .secRandomRead s (fun t => t.rdata = 0 ∧ t.rdN Reg.SEC_RAND = 0 ∧ RegsBut s t [Reg.SEC_RAND] ∧ SameMem s t))
    ∧ (s.bit Reg.SEC_STAT 2 = true → Does .secRandomRead s (fun t => t.freeCtr = s.freeCtr + 1 ∧ t.rd Reg.SEC_RAND = t.rdata ∧ RegsBut s t [Reg.SEC_RAND] ∧ SameMem s t))

/-! Orders and the helm (R42 to R52) -/

/-- Only the holder's closing orders are applied, and no other order is turned away for want of the helm or by a state: an OPEN, a DERATE or a limit held of any source of ranks 1 to 12, alone in its set, is APPLIED (R48). A closing order is a CLOSE or a limit above the standing value, which R42 names RAISE. -/
def Obligations.ClosingOrdersNeedTheHelm : Prop :=
  (∀ (s : State) (l : List Order) (x : Outcome), x ∈ (s.resolveSet l).outcomes → x.code = 0 → s.closingOrder x.order = true → x.order.source = (s.resolveSet l).state.cam.helm.holder)
  ∧ (∀ (s : State) (l : List Order) (x : Outcome), x ∈ (s.resolveSet l).outcomes → s.closingOrder x.order = false → x.code ≠ 2 ∧ x.code ≠ 4)
  ∧ ∀ (s : State) (o : Order), 1 ≤ o.rank → o.rank ≤ 12 → o.helmKind = false → s.admits o.kind o.target o.value = true → s.closingOrder o = false →
    (s.resolveSet [o]).outcomes = [⟨o, 0, o.source, o.stamp, s.orderKind o⟩] ∧ (s.resolveSet [o]).state = s

/-- TAKE_HELM succeeds when the helm is free or the source outranks the holder, RELEASE_HELM from the holder frees it, and the former holder, a partition, a console or a crew leader, is told who took it (R49; the frame to a crew leader, log entry 126). -/
def Obligations.HelmIsTakenAndReleased : Prop :=
  (∀ (s : State) (o : Order), o.kind = kTake → o.source ≠ s.cam.helm.holder → s.cam.helm.holder = 0xFF ∨ o.rank < s.cam.helm.rank →
    (s.resolveSet [o]).outcomes = [⟨o, 0, o.source, o.stamp, s.orderKind o⟩] ∧ (s.resolveSet [o]).state.cam.helm = ⟨o.source, o.rank, o.stamp, s.strokeNo⟩
    ∧ (∀ k, partOfSource s.cam.helm.holder = some k → o.source < 256 →
      (s.resolveSet [o]).state.ld (mailbox k + 0x808) 4 = o.source + 0x1000 + s.strokeNo % 65536 * 65536 ∧ (s.resolveSet [o]).state.bit (Reg.PART_EVP (k - 1)) 2 = true)
    ∧ (∀ p, portOfSource s.cam.helm.holder = some p → s.conServed p = true → s.parS .conNotify p ≠ 0 → (s.con p).line = [] → (s.con p).outBytes ≤ 3072 →
      ((s.resolveSet [o]).state.con p).out = (s.con p).out ++ [⟨(s.con p).noteTag, false, true, false, "helm taken by=" ++ hex0x o.source⟩])
    ∧ (s.cam.helm.holder = 0x18 → (s.resolveSet [o]).state.crew = { s.crew with outs := s.crew.outs ++ [s.crewFrame s.crew.lastRef 0 (u8 0x10 ++ [0, 0] ++ u8 o.source) 0xFF 0 0 0 0] }))
  ∧ (∀ (s : State) (o : Order), o.kind = kTake → o.source ≠ s.cam.helm.holder → s.cam.helm.holder ≠ 0xFF → s.cam.helm.rank ≤ o.rank →
    (s.resolveSet [o]).outcomes = [⟨o, 1, s.cam.helm.holder, s.cam.helm.stamp, s.orderKind o⟩] ∧ (s.resolveSet [o]).state = s)
  ∧ (∀ (s : State) (o : Order), o.kind = kRelease → o.source = s.cam.helm.holder → (s.resolveSet [o]).state.cam.helm = Helm.free)
  ∧ ∀ (s : State) (o : Order), o.kind = kRelease → o.source ≠ s.cam.helm.holder → (s.resolveSet [o]).state = s

/-- Every order of a set receives exactly one outcome, in the order of the set (R52): INVALID where R42 does not admit it, SUPERSEDED by a later one of its source on all it covers (R43), REFUSED_STATE for a closing order that Camlan's state refuses. On a target the winner is one that no order still counting there beats by rank, stamp or source code, and no closing order wins over a protective one (R51). Where the manual leaves a point open, the model's choice of log entries 74 and 75 stands. -/
def Obligations.OrdersAreResolvedInFiveSteps : Prop :=
  (∀ (s : State) (l : List Order), (s.resolveSet l).outcomes.map (fun x => x.order) = l)
  ∧ (∀ (s : State) (l : List Order) (x : Outcome), x ∈ (s.resolveSet l).outcomes → s.admits x.order.kind x.order.target x.order.value = false → x.code = 5)
  ∧ (∀ (s : State) (l : List Order) (x : Outcome), x ∈ (s.resolveSet l).outcomes → s.admits x.order.kind x.order.target x.order.value = true →
    s.closingOrder x.order = true → s.stateRefuses x.order = true → x.code = 4 ∨ x.code = 3)
  ∧ (∀ (s : State) (a b : Order), a.source = b.source → a.helmKind = false → (∀ t ∈ s.covers a, t ∈ s.covers b) → s.admits a.kind a.target a.value = true →
    s.admits b.kind b.target b.value = true → ((s.resolveSet [a, b]).outcomes.map (fun x => x.code)).head? = some 3)
  ∧ (∀ (s : State) (l here : List Placed) (t : Nat) (w : Placed), s.targetWinner l t here = some w →
    w ∈ here ∧ (s.counting l w).contains t = true
      ∧ ∀ q ∈ here, (s.counting l q).contains t = true → (s.closingOrder q.2 = false → s.closingOrder w.2 = false) ∧ (Order.beats q.2 w.2 = true → s.closingOrder q.2 = true ∧ s.closingOrder w.2 = false))
  ∧ ∀ (s : State) (l here : List Placed) (t : Nat), s.targetWinner l t here = none → ∀ q ∈ here, (s.counting l q).contains t = false

/-! Short rules stated whole -/

/-- A break discards any partly received line and clears the port's count of framing errors, leaves the session as it is, and in hibernation wakes the part (R320). -/
def Obligations.BreakDiscardsThePartlyReceivedLine : Prop :=
  (∀ (s : State) (p : Nat), p ≤ 1 → s.powered = true →
    Does (.consoleBreak p) s (fun t =>
      (t.con p).line = [] ∧ (t.con p).fe = 0 ∧ (t.con p).level = (s.con p).level ∧ (t.con p).challenge = (s.con p).challenge ∧ (t.con p).authed = (s.con p).authed
        ∧ t.con (1 - p) = s.con (1 - p) ∧ t.bit (Reg.CON_STAT p) 10 = true ∧ t.bit (Reg.CON_IRQ p) 3 = true
        ∧ RegsBut s t [Reg.CON_STAT p, Reg.CON_IRQ p] ∧ SameMem s t ∧ t = { s with regs := t.regs, con0 := t.con0, con1 := t.con1 }))
  ∧ ∀ (s : State) (p : Nat), p ≤ 1 → s.power.phase = .hibernating → Does (.consoleWake p) s (fun t => t.power.phase = .held ∧ t.power.wakeSrc = 3 ∧ t.fld Reg.RST_LAST 0 4 = 7)

/-- A charging charger that sees KVIN less than 1.5 V above KBAT enters PAUSE with reason HEADROOM, goes on charging from 1.5 V, stays paused below 2.0 V and resumes its phase at 2.0 V (R145). -/
def Obligations.HeadroomPausesTheCharger : Prop :=
  (∀ (s : State) (kvin mv : Nat), s.charging = true → kvin < mv + 1500 →
    Does (.chargeHeadroom kvin mv) s (fun t => t.chg = cPause ∧ t.kpa.phase = s.chg ∧ getField t.kpa.pause 2 1 = 1 ∧ t.fld Reg.KPA_CHGST 8 4 = kpaCode 0x703C 9 % 16 ∧ chargerFrame s t))
  ∧ (∀ (s : State) (kvin mv : Nat), s.charging = true → s.kpa.pause = 0 → mv + 1500 ≤ kvin →
    Does (.chargeHeadroom kvin mv) s (fun t => t.chg = s.chg ∧ t.kpa.pause = 0 ∧ chargerFrame s t))
  ∧ (∀ (s : State) (kvin mv : Nat), s.chg = cPause → getField s.kpa.pause 2 1 = 1 → kvin < mv + 2000 →
    Does (.chargeHeadroom kvin mv) s (fun t => t.chg = cPause ∧ chargerFrame s t))
  ∧ ∀ (s : State) (kvin mv : Nat), s.chg = cPause → s.kpa.pause = 4 → s.kpa.phase < 10 → mv + 2000 ≤ kvin →
    Does (.chargeHeadroom kvin mv) s (fun t => t.chg = s.kpa.phase ∧ t.kpa.pause = 0 ∧ chargerFrame s t)

/-- The safety book and the pending FIFO have room for one record with code 0x0F05, whose bucket is not empty, and no loss of either book waits for its report. -/
def roomForRelease (s : State) (b : Nat) : Prop :=
  Tab.get 0 s.log.lost 0 = 0 ∧ Tab.get 0 s.log.lost b = 0 ∧ s.bookHeld 0 + s.bookQueued 0 < 4096 ∧ s.log.pend.length < 64 ∧ (s.bit Reg.LOG_CTRL 1 = false ∨ (s.bucket (s.bucketKey 0 0x0F05)).tokens ≠ 0)

/-- A book's FIRST after a release, and the record 0x0F05 of it in the safety book's queue; with upto below FIRST neither. -/
def bookFreed (s t : State) (b upto src : Nat) : Prop :=
  let off := (upto + 2 ^ 32 - s.rdN (Reg.LOG_BFIRST b)) % 2 ^ 32
  (2 ^ 31 ≤ off → t.log = s.log ∧ RegsBut s t [])
  ∧ (off < 2 ^ 31 → t.rdN (Reg.LOG_BFIRST b) = (s.rdN (Reg.LOG_BFIRST b) + min (off + 1) (s.bookHeld b)) % 2 ^ 32
    ∧ t.log.pend = s.log.pend ++ [⟨0, 0x0F05, 0, 1, s.now, if s.running then s.strokeNo else 0xFFFFFFFF, (u8 b ++ u32 upto ++ u8 src ++ List.replicate 12 (0 : Byte)).take 12⟩])
  ∧ RegsBut s t (Reg.LOG_BFIRST b :: logRegs 0) ∧ SameMem s t

/-- A release sets a book's FIRST to the smaller of upto + 1 and NEXT, and has no effect when upto lies below FIRST, in arithmetic modulo 2^32; `log release` gives it at INSTALLER or SERVICE level for any book and a tenant for its own; each is recorded as 0x0F05 in the safety book (R348). -/
def Obligations.ReleaseFreesRecords : Prop :=
  (∀ (s : State) (rq : Requester) (k book : Nat), s.awake = true → rq ≠ .cox → s.logTenant rq = some k → k ≤ 7 → roomForRelease s (1 + k) →
    Does (.logBookRelease rq book) s (fun t => bookFreed s t (1 + k) (s.rdN Reg.LOG_RELUPTO) (0x20 + k)))
  ∧ (∀ (s : State) (book : Nat), s.awake = true → book ≤ 8 → roomForRelease s book → Does (.logBookRelease .cox book) s (fun t => bookFreed s t book (s.rdN Reg.LOG_RELUPTO) 0))
  ∧ (∀ (s : State) (p book upto : Nat) (tag : Option String), lineWaits s p tag → book ≤ 8 → (s.con p).level = .installer ∨ (s.con p).level = .service → roomForRelease s book →
    Does (.logRelease p book upto) s (fun t => bookFreed s t book upto (0x10 + p)))
  ∧ ∀ (s : State) (p k upto : Nat) (tag : Option String), lineWaits s p tag → 1 ≤ k → k ≤ 7 → (s.con p).level = .tenant k → roomForRelease s (1 + k) →
    Does (.logRelease p (1 + k) upto) s (fun t => bookFreed s t (1 + k) upto (0x20 + k))

/-! Statements of several parts -/

/-- No command leaves the part stuck; none touches the queue of waiting commands, and free values are drawn only forward. Where the manual leaves a point open, the model's choice of log entry 1 stands. -/
def Obligations.EveryCommandCompletesAndLeavesTheQueue : Prop := everyCommandAnswersANextState ∧ commandsLeaveTheQueue

/-- Which commands may change a byte of memory, and which the non-volatile content; every other command leaves it as it was. -/
def Obligations.StoredContentChangesOnlyByListedCommands : Prop := memoryChangesOnlyByStoringCommands ∧ nonVolatileStoreChangesOnlyByListedCommands

/-- Bus errors are recorded (R21, R25), the stroke time is read in two words (R28), and an interrupt line is presented to both cores (R40). -/
def Obligations.BusErrorsTimeReadsAndInterruptLines : Prop := busErrorIsRecorded ∧ strokeTimeReadLatchesTheHighWord ∧ interruptLineIsPresentedOnce

/-- The lock-step pair's faults under LOCK: a mismatch, its acknowledgement and inhibition, and the error classes of the memories (R61 to R68, R78). -/
def Obligations.MismatchAndMemoryErrors : Prop := mismatchUnderLock ∧ acknowledgeAndInhibit ∧ memoryErrorClasses

/-- The start test before LOCK, and LOCK and ARM after it (R69 to R73). Where the manual leaves a point open, the model's choice of log entry 11 stands. -/
def Obligations.StartTestAndLock : Prop := startTestInjection ∧ lockAndArm

/-- What resets the part, what a lost slow clock and a current wake do, and that no requester runs before the wipe is complete (R113, R114, R118, R123, R285). Where the manual leaves a point open, the model's choice of log entry 9 stands. -/
def Obligations.ResetCausesAndClocks : Prop := resetCauses ∧ slowClockLossAndCurrentWake ∧ requestersWaitForTheWipe

/-- The points of the stroke, trims and the heat's restart, and the demand bank's handshake (R26, R27, R35, R39). -/
def Obligations.StrokePointsTrimAndDemand : Prop := strokePointsRaiseTheirBits ∧ trimSaturatesAndHeatRestarts ∧ demandBankHandshake

/-- A finish decides its stroke, a crab is counted once, and easy after crabs alone clears itself (R31, R53 to R55). Where the manual leaves a point open, the model's choice of log entry 105 stands. -/
def Obligations.FinishCrabAndEasy : Prop := finishDecidesTheStroke ∧ crabIsCountedOnce ∧ easyClearsItselfAfterCrabs

/-- The monitor calls of a tenant and the delivery of its events (R82, R83). -/
def Obligations.MonitorCallsAndEvents : Prop := monitorCallsYieldWaitInfo ∧ monitorCallsSetvecEvretLog ∧ tenantEvents

/-- Slots and Sculls, grants, and the faults of a tenant (R56, R85 to R92). Where the manual leaves a point open, the model's choice of log entries 14, 79 and 80 stands. -/
def Obligations.SlotsGrantsAndFaults : Prop := slotsAndSculls ∧ grantsAndFaults

/-- Order doorbells and the verification of tenant images (R97, R98, R102). Where the manual leaves a point open, the model's choice of log entry 113 stands. -/
def Obligations.DoorbellsAndTenantImages : Prop := doorbellStampsItsEntries ∧ tenantImageVerification

/-- Bytes on a port, and replies queued in order (R318 to R321, R325). Where the manual leaves a point open, the model's choice of log entry 52 stands. -/
def Obligations.ConsoleBytesAndReplies : Prop := repliesAreQueuedInOrder ∧ consoleBytes

/-- Commands that only read, and those that operate the part (Tables 14-3 and 14-6). Where the manual leaves a point open, the model's choice of log entries 51, 54, 69 and 89 stands. -/
def Obligations.ReadingAndOperatingCommands : Prop := readingCommandsReply ∧ operationCommands

/-- Shore records, the entry to and end of hibernation, tickets and tenants' surge requests (R120, R284 to R289). Where the manual leaves a point open, the model's choice of log entries 9, 35, 37 and 100 stands. -/
def Obligations.HibernationTicketsAndShoreRecords : Prop := shoreRecordsAndHibernation ∧ hibernationTicketsAndSurges

/-- Selection of the keep-alive source, tracking of the KIN input and a black start (R131 to R139). Where the manual leaves a point open, the model's choice of log entries 10 and 83 stands. -/
def Obligations.SourcesTrackingAndBlackStart : Prop := sourceSelection ∧ trackingAndBlackStart

/-- The two current measurements: the Coulomb converter and the fast stream with its comparators (R154 to R167). Where the manual leaves a point open, the model's choice of log entries 5 and 107 stands. -/
def Obligations.CurrentMeasurement : Prop := coulombConverter ∧ fastCurrentStream

/-- The motorized isolator and the safety inputs (R250 to R257). Where the manual leaves a point open, the model's choice of log entries 39, 76, 77 and 78 stands. -/
def Obligations.IsolatorAndSafetyInputs : Prop := isolatorEvents ∧ safetyInputs

/-- Coil drivers and the pump, contacts and strings (R229 to R247, R417, R420). Where the manual leaves a point open, the model's choice of log entries 1 and 81 stands. -/
def Obligations.CoilsContactsAndStrings : Prop := coilDriversAndPump ∧ contactsAndStrings

/-- The module radio's slots and lock, and the joining of a seat (R206 to R219). Where the manual leaves a point open, the model's choice of log entries 1 and 96 stands. -/
def Obligations.RadioAndJoining : Prop := radioSlotsAndLock ∧ joiningTheRadio

/-- The logbook: submission, the writer, the window and releases (R345 to R354). Where the manual leaves a point open, the model's choice of log entries 85 and 87 stands. -/
def Obligations.LogbookSubmissionAndBooks : Prop := logSubmission ∧ logWriterWindowAndRelease

/-- The field side of the tag: selection, reads and writes (R368 to R378). Where the manual leaves a point open, the model's choice of log entries 17 and 91 stands. -/
def Obligations.TagFieldSide : Prop := tagAirInterface ∧ tagReadsAndWrites

/-- The Q-port's queues, slave mode and pins, and the sealed window's line fills (R381 to R393). Where the manual leaves a point open, the model's choice of log entry 66 stands. -/
def Obligations.QueuedPortAndSealedWindow : Prop := queuesSlaveAndPins ∧ sealedWindow
end

