-- ==== Sys2Proof/Laws/Tab.lean ====
section
/-!
SUPPORT. Laws of the sparse tables: a read after a write of the same key, a write leaves every other key, and writes and erasures keep the canonical form.
-/

namespace Sys2Proof.Machine

theorem Tab.get_dropLe {α : Type} (d : α) (a c : Nat) (l : List (Nat × α)) (h : a ≤ c) :
    Tab.get d (Tab.dropLe a l) c = if a = c then d else Tab.get d l c := by
  induction l with
  | nil => simp [Tab.dropLe, Tab.get]
  | cons e t ih =>
    obtain ⟨b, w⟩ := e
    unfold Tab.dropLe
    by_cases hb : b ≤ a
    · rw [if_pos hb, ih]
      by_cases hac : a = c
      · simp [hac]
      · simp only [if_neg hac, Tab.get]
        rw [if_neg (by omega), if_neg (by omega)]
    · rw [if_neg hb]
      by_cases hac : a = c
      · simp only [if_pos hac, Tab.get]; rw [if_pos (by omega)]
      · rw [if_neg hac]

theorem Tab.get_put {α : Type} [DecidableEq α] (d : α) (l : List (Nat × α)) (a c : Nat) (v : α) :
    Tab.get d (Tab.put d l a v) c = if a = c then v else Tab.get d l c := by
  induction l with
  | nil =>
    unfold Tab.put
    by_cases hv : v = d <;> simp only [hv, if_true, if_false, Tab.get]
    · simp
    · by_cases hac : a = c
      · simp [hac]
      · by_cases h : c < a <;> simp [h, hac, Ne.symm hac]
  | cons e t ih =>
    obtain ⟨b, w⟩ := e
    unfold Tab.put
    by_cases hab : a < b
    · rw [if_pos hab]
      by_cases hv : v = d
      · rw [if_pos hv]
        by_cases hac : a = c
        · subst hac; simp [Tab.get, hab, hv]
        · rw [if_neg hac]
      · rw [if_neg hv]
        by_cases hac : a = c
        · subst hac; simp [Tab.get]
        · rw [if_neg hac]
          conv => lhs; unfold Tab.get
          by_cases hc : c < a
          · rw [if_pos hc]; unfold Tab.get; rw [if_pos (by omega)]
          · rw [if_neg hc, if_neg (Ne.symm hac)]
    · rw [if_neg hab]
      by_cases hab2 : a = b
      · subst hab2
        rw [if_pos rfl]
        by_cases hv : v = d
        · rw [if_pos hv]
          by_cases hc : a ≤ c
          · rw [Tab.get_dropLe d a c t hc]
            by_cases hac : a = c
            · simp [hac, hv]
            · rw [if_neg hac, if_neg hac]; conv => rhs; unfold Tab.get
              rw [if_neg (by omega), if_neg (by omega)]
          · rw [if_neg (by omega)]
            conv => rhs; unfold Tab.get
            rw [if_pos (by omega)]
            clear ih
            induction t with
            | nil => simp [Tab.dropLe, Tab.get]
            | cons e2 t2 ih2 =>
              obtain ⟨b2, w2⟩ := e2
              unfold Tab.dropLe
              by_cases hb : b2 ≤ a
              · rw [if_pos hb]; exact ih2
              · rw [if_neg hb]; unfold Tab.get; rw [if_pos (by omega)]
        · rw [if_neg hv]
          by_cases hac : a = c
          · subst hac; simp [Tab.get]
          · rw [if_neg hac]; simp [Tab.get, Ne.symm hac]
      · rw [if_neg hab2]
        conv => lhs; unfold Tab.get
        conv => rhs; unfold Tab.get
        by_cases hc : c < b
        · rw [if_pos hc, if_pos hc, if_neg (by omega)]
        · rw [if_neg hc, if_neg hc]
          by_cases hcb : c = b
          · rw [if_pos hcb, if_pos hcb, if_neg (by omega)]
          · rw [if_neg hcb, if_neg hcb, ih]

@[simp] theorem Tab.get_put_self {α : Type} [DecidableEq α] (d : α) (l : List (Nat × α)) (a : Nat) (v : α) :
    Tab.get d (Tab.put d l a v) a = v := by rw [Tab.get_put, if_pos rfl]

/-- A write of one key leaves what every other key reads as, whatever the two keys read as when unlisted. -/
theorem Tab.get_put_ne {α : Type} [DecidableEq α] (d d' : α) (l : List (Nat × α)) {a c : Nat} (v : α) (h : a ≠ c) :
    Tab.get d' (Tab.put d l a v) c = Tab.get d' l c := by
  have below (t : List (Nat × α)) (hc : c < a) : Tab.get d' (Tab.dropLe a t) c = d' := by
    induction t with
    | nil => rfl
    | cons e t ih =>
      unfold Tab.dropLe
      split
      · exact ih
      · unfold Tab.get; rw [if_pos (by omega)]
  induction l with
  | nil =>
    unfold Tab.put
    split
    · rfl
    · simp [Tab.get, Ne.symm h]
  | cons e t ih =>
    obtain ⟨b, w⟩ := e
    unfold Tab.put
    by_cases hab : a < b
    · rw [if_pos hab]
      split
      · rfl
      · conv => lhs; unfold Tab.get
        by_cases hc : c < a
        · rw [if_pos hc]; unfold Tab.get; rw [if_pos (by omega)]
        · rw [if_neg hc, if_neg (Ne.symm h)]
    · rw [if_neg hab]
      by_cases hab2 : a = b
      · subst hab2
        rw [if_pos rfl]
        conv => rhs; unfold Tab.get
        split
        · by_cases hc : c < a
          · rw [if_pos hc, below t hc]
          · rw [if_neg hc, if_neg (Ne.symm h), Tab.get_dropLe d' a c t (by omega), if_neg h]
        · conv => lhs; unfold Tab.get
          rw [if_neg (Ne.symm h), if_neg (Ne.symm h)]
      · rw [if_neg hab2]
        conv => lhs; unfold Tab.get
        conv => rhs; unfold Tab.get
        by_cases hc : c < b
        · rw [if_pos hc, if_pos hc]
        · rw [if_neg hc, if_neg hc, ih]

/-! The canonical form -/

theorem Tab.rising_mono {α : Type} {l : List (Nat × α)} {lo lo' : Option Nat} (h : Tab.rising lo l = true)
    (hle : ∀ n, lo' = some n → ∃ m, lo = some m ∧ n ≤ m) : Tab.rising lo' l = true := by
  cases l with
  | nil => cases lo' <;> rfl
  | cons e t =>
    obtain ⟨b, w⟩ := e
    cases lo' with
    | none => cases lo with
      | none => exact h
      | some m => simp [Tab.rising] at h ⊢; exact h.2
    | some n =>
      obtain ⟨m, rfl, hm⟩ := hle n rfl
      simp [Tab.rising] at h ⊢; exact ⟨by omega, h.2⟩

theorem Tab.rising_tail {α : Type} {lo : Option Nat} {b : Nat} {w : α} {t : List (Nat × α)} (h : Tab.rising lo ((b, w) :: t) = true) :
    Tab.rising (some b) t = true := by
  cases lo with
  | none => exact h
  | some m => simp [Tab.rising] at h; exact h.2

theorem Tab.rising_dropLe {α : Type} (a : Nat) (l : List (Nat × α)) (lo : Option Nat) (h : Tab.rising lo l = true) :
    Tab.rising lo (Tab.dropLe a l) = true := by
  induction l generalizing lo with
  | nil => exact h
  | cons e t ih =>
    obtain ⟨b, w⟩ := e
    unfold Tab.dropLe
    split
    · apply ih
      refine Tab.rising_mono (Tab.rising_tail h) ?_
      intro n hn
      subst hn
      simp [Tab.rising] at h
      exact ⟨b, rfl, by omega⟩
    · exact h

theorem Tab.rising_put {α : Type} [DecidableEq α] (d : α) (l : List (Nat × α)) (a : Nat) (v : α) (lo : Option Nat)
    (h : Tab.rising lo l = true) (ha : ∀ n, lo = some n → n < a) : Tab.rising lo (Tab.put d l a v) = true := by
  induction l generalizing lo with
  | nil =>
    unfold Tab.put
    split
    · exact h
    · cases lo with
      | none => rfl
      | some n => simp [Tab.rising]; exact ha n rfl
  | cons e t ih =>
    obtain ⟨b, w⟩ := e
    unfold Tab.put
    split
    · split
      · exact h
      · cases lo with
        | none => simp [Tab.rising]; exact ⟨by omega, Tab.rising_tail h⟩
        | some n => simp [Tab.rising]; exact ⟨ha n rfl, by omega, Tab.rising_tail h⟩
    · split
      · split
        · rename_i hab _
          subst hab
          apply Tab.rising_dropLe
          refine Tab.rising_mono (Tab.rising_tail h) ?_
          intro n hn
          exact ⟨a, rfl, by have := ha n hn; omega⟩
        · rename_i hab _
          subst hab
          cases lo with
          | none => exact Tab.rising_tail h
          | some n => simp [Tab.rising] at h ⊢; exact h
      · have ht := ih (some b) (Tab.rising_tail h) (by intro n hn; cases hn; omega)
        cases lo with
        | none => exact ht
        | some n => simp [Tab.rising] at h ⊢; exact ⟨h.1, ht⟩

theorem Tab.mem_dropLe {α : Type} {a : Nat} {l : List (Nat × α)} {e : Nat × α} (h : e ∈ Tab.dropLe a l) : e ∈ l := by
  induction l with
  | nil => exact h
  | cons x t ih =>
    obtain ⟨b, w⟩ := x
    unfold Tab.dropLe at h
    split at h
    · exact List.mem_cons_of_mem _ (ih h)
    · exact h

theorem Tab.mem_put {α : Type} [DecidableEq α] {d : α} {l : List (Nat × α)} {a : Nat} {v : α} {e : Nat × α} (h : e ∈ Tab.put d l a v) :
    e ∈ l ∨ (e = (a, v) ∧ v ≠ d) := by
  induction l with
  | nil =>
    unfold Tab.put at h
    split at h
    · exact .inl h
    · rename_i hv; simp at h; exact .inr ⟨h, hv⟩
  | cons x t ih =>
    obtain ⟨b, w⟩ := x
    unfold Tab.put at h
    split at h
    · split at h
      · exact .inl h
      · rename_i hv
        rcases List.mem_cons.mp h with h | h
        · exact .inr ⟨h, hv⟩
        · exact .inl h
    · split at h
      · split at h
        · exact .inl (List.mem_cons_of_mem _ (Tab.mem_dropLe h))
        · rename_i hv
          rcases List.mem_cons.mp h with h | h
          · exact .inr ⟨h, hv⟩
          · exact .inl (List.mem_cons_of_mem _ h)
      · rcases List.mem_cons.mp h with h | h
        · exact .inl (h ▸ List.mem_cons_self)
        · rcases ih h with h | h
          · exact .inl (List.mem_cons_of_mem _ h)
          · exact .inr h

/-- A write keeps the canonical form. -/
theorem Tab.wf_put {α : Type} [DecidableEq α] (dflt : Nat → α) (l : List (Nat × α)) (a : Nat) (v : α) (h : Tab.wf dflt l = true) :
    Tab.wf dflt (Tab.put (dflt a) l a v) = true := by
  simp only [Tab.wf, Bool.and_eq_true, List.all_eq_true, decide_eq_true_eq] at h ⊢
  refine ⟨Tab.rising_put _ _ _ _ _ h.1 (by intro n hn; cases hn), ?_⟩
  intro e he
  rcases Tab.mem_put he with he | ⟨rfl, hv⟩
  · exact h.2 e he
  · exact hv

theorem Tab.rising_filter {α : Type} (p : Nat × α → Bool) (l : List (Nat × α)) (lo : Option Nat) (h : Tab.rising lo l = true) :
    Tab.rising lo (l.filter p) = true := by
  induction l generalizing lo with
  | nil => exact h
  | cons e t ih =>
    obtain ⟨b, w⟩ := e
    rw [List.filter_cons]
    split
    · have ht := ih (some b) (Tab.rising_tail h)
      cases lo with
      | none => exact ht
      | some n => simp [Tab.rising] at h ⊢; exact ⟨h.1, ht⟩
    · apply ih
      refine Tab.rising_mono (Tab.rising_tail h) ?_
      intro n hn
      subst hn
      simp [Tab.rising] at h
      exact ⟨b, rfl, by omega⟩

/-- An erasure keeps the canonical form. -/
theorem Tab.wf_drop {α : Type} [DecidableEq α] (dflt : Nat → α) (p : Nat → Bool) (l : List (Nat × α)) (h : Tab.wf dflt l = true) :
    Tab.wf dflt (Tab.drop p l) = true := by
  simp only [Tab.wf, Bool.and_eq_true, List.all_eq_true, decide_eq_true_eq] at h ⊢
  refine ⟨Tab.rising_filter _ _ _ h.1, ?_⟩
  intro e he
  exact h.2 e (List.mem_filter.mp he).1

end Sys2Proof.Machine
end

