-- ==== Sys2Proof/Laws/State.lean ====
section
/-!
SUPPORT. The small lemmas of the state: what each named update of a register, of memory, of the logbook and of a console leaves in every other field, so that no later proof unfolds a record update.
-/

namespace Sys2Proof.Machine

/-! Registers -/

@[simp] theorem State.wr_mem (s : State) (a : Nat) (v : Word) : (s.wr a v).mem = s.mem := rfl
@[simp] theorem State.wr_power (s : State) (a : Nat) (v : Word) : (s.wr a v).power = s.power := rfl
@[simp] theorem State.wr_stk (s : State) (a : Nat) (v : Word) : (s.wr a v).stk = s.stk := rfl
@[simp] theorem State.wr_cam (s : State) (a : Nat) (v : Word) : (s.wr a v).cam = s.cam := rfl
@[simp] theorem State.wr_log (s : State) (a : Nat) (v : Word) : (s.wr a v).log = s.log := rfl
@[simp] theorem State.wr_con0 (s : State) (a : Nat) (v : Word) : (s.wr a v).con0 = s.con0 := rfl
@[simp] theorem State.wr_con1 (s : State) (a : Nat) (v : Word) : (s.wr a v).con1 = s.con1 := rfl
@[simp] theorem State.wr_parts (s : State) (a : Nat) (v : Word) : (s.wr a v).parts = s.parts := rfl
@[simp] theorem State.wr_ctxs (s : State) (a : Nat) (v : Word) : (s.wr a v).ctxs = s.ctxs := rfl
@[simp] theorem State.wr_sculls (s : State) (a : Nat) (v : Word) : (s.wr a v).sculls = s.sculls := rfl
@[simp] theorem State.wr_inForce (s : State) (a : Nat) (v : Word) : (s.wr a v).inForce = s.inForce := rfl
@[simp] theorem State.wr_nv (s : State) (a : Nat) (v : Word) : (s.wr a v).nv = s.nv := rfl
@[simp] theorem State.wr_ao (s : State) (a : Nat) (v : Word) : (s.wr a v).ao = s.ao := rfl
@[simp] theorem State.wr_tally (s : State) (a : Nat) (v : Word) : (s.wr a v).tally = s.tally := rfl
@[simp] theorem State.wr_dbg (s : State) (a : Nat) (v : Word) : (s.wr a v).dbg = s.dbg := rfl
@[simp] theorem State.wr_cca (s : State) (a : Nat) (v : Word) : (s.wr a v).cca = s.cca := rfl
@[simp] theorem State.wr_meas (s : State) (a : Nat) (v : Word) : (s.wr a v).meas = s.meas := rfl
@[simp] theorem State.wr_ctr (s : State) (a : Nat) (v : Word) : (s.wr a v).ctr = s.ctr := rfl
@[simp] theorem State.wr_mdi (s : State) (a : Nat) (v : Word) : (s.wr a v).mdi = s.mdi := rfl
@[simp] theorem State.wr_sin (s : State) (a : Nat) (v : Word) : (s.wr a v).sin = s.sin := rfl
@[simp] theorem State.wr_imd (s : State) (a : Nat) (v : Word) : (s.wr a v).imd = s.imd := rfl
@[simp] theorem State.wr_seats (s : State) (a : Nat) (v : Word) : (s.wr a v).seats = s.seats := rfl
@[simp] theorem State.wr_kpa (s : State) (a : Nat) (v : Word) : (s.wr a v).kpa = s.kpa := rfl
@[simp] theorem State.wr_cans (s : State) (a : Nat) (v : Word) : (s.wr a v).cans = s.cans := rfl
@[simp] theorem State.wr_qp (s : State) (a : Nat) (v : Word) : (s.wr a v).qp = s.qp := rfl
@[simp] theorem State.wr_tag (s : State) (a : Nat) (v : Word) : (s.wr a v).tag = s.tag := rfl
@[simp] theorem State.wr_chn (s : State) (a : Nat) (v : Word) : (s.wr a v).chn = s.chn := rfl
@[simp] theorem State.wr_rad (s : State) (a : Nat) (v : Word) : (s.wr a v).rad = s.rad := rfl
@[simp] theorem State.wr_est (s : State) (a : Nat) (v : Word) : (s.wr a v).est = s.est := rfl
@[simp] theorem State.wr_crew (s : State) (a : Nat) (v : Word) : (s.wr a v).crew = s.crew := rfl
@[simp] theorem State.wr_rdata (s : State) (a : Nat) (v : Word) : (s.wr a v).rdata = s.rdata := rfl
@[simp] theorem State.wr_sec (s : State) (a : Nat) (v : Word) : (s.wr a v).sec = s.sec := rfl
@[simp] theorem State.wr_pending (s : State) (a : Nat) (v : Word) : (s.wr a v).pending = s.pending := rfl
@[simp] theorem State.wr_acts (s : State) (a : Nat) (v : Word) : (s.wr a v).acts = s.acts := rfl
@[simp] theorem State.wr_freeCtr (s : State) (a : Nat) (v : Word) : (s.wr a v).freeCtr = s.freeCtr := rfl

@[simp] theorem State.wrN_mem (s : State) (a n : Nat) : (s.wrN a n).mem = s.mem := rfl
@[simp] theorem State.wrN_power (s : State) (a n : Nat) : (s.wrN a n).power = s.power := rfl
@[simp] theorem State.wrN_stk (s : State) (a n : Nat) : (s.wrN a n).stk = s.stk := rfl
@[simp] theorem State.wrN_cam (s : State) (a n : Nat) : (s.wrN a n).cam = s.cam := rfl
@[simp] theorem State.wrN_log (s : State) (a n : Nat) : (s.wrN a n).log = s.log := rfl
@[simp] theorem State.wrN_con0 (s : State) (a n : Nat) : (s.wrN a n).con0 = s.con0 := rfl
@[simp] theorem State.wrN_con1 (s : State) (a n : Nat) : (s.wrN a n).con1 = s.con1 := rfl
@[simp] theorem State.wrN_parts (s : State) (a n : Nat) : (s.wrN a n).parts = s.parts := rfl
@[simp] theorem State.wrN_ctxs (s : State) (a n : Nat) : (s.wrN a n).ctxs = s.ctxs := rfl
@[simp] theorem State.wrN_sculls (s : State) (a n : Nat) : (s.wrN a n).sculls = s.sculls := rfl
@[simp] theorem State.wrN_inForce (s : State) (a n : Nat) : (s.wrN a n).inForce = s.inForce := rfl
@[simp] theorem State.wrN_nv (s : State) (a n : Nat) : (s.wrN a n).nv = s.nv := rfl
@[simp] theorem State.wrN_ao (s : State) (a n : Nat) : (s.wrN a n).ao = s.ao := rfl
@[simp] theorem State.wrN_tally (s : State) (a n : Nat) : (s.wrN a n).tally = s.tally := rfl
@[simp] theorem State.wrN_dbg (s : State) (a n : Nat) : (s.wrN a n).dbg = s.dbg := rfl
@[simp] theorem State.wrN_cca (s : State) (a n : Nat) : (s.wrN a n).cca = s.cca := rfl
@[simp] theorem State.wrN_meas (s : State) (a n : Nat) : (s.wrN a n).meas = s.meas := rfl
@[simp] theorem State.wrN_ctr (s : State) (a n : Nat) : (s.wrN a n).ctr = s.ctr := rfl
@[simp] theorem State.wrN_mdi (s : State) (a n : Nat) : (s.wrN a n).mdi = s.mdi := rfl
@[simp] theorem State.wrN_sin (s : State) (a n : Nat) : (s.wrN a n).sin = s.sin := rfl
@[simp] theorem State.wrN_imd (s : State) (a n : Nat) : (s.wrN a n).imd = s.imd := rfl
@[simp] theorem State.wrN_seats (s : State) (a n : Nat) : (s.wrN a n).seats = s.seats := rfl
@[simp] theorem State.wrN_kpa (s : State) (a n : Nat) : (s.wrN a n).kpa = s.kpa := rfl
@[simp] theorem State.wrN_cans (s : State) (a n : Nat) : (s.wrN a n).cans = s.cans := rfl
@[simp] theorem State.wrN_qp (s : State) (a n : Nat) : (s.wrN a n).qp = s.qp := rfl
@[simp] theorem State.wrN_tag (s : State) (a n : Nat) : (s.wrN a n).tag = s.tag := rfl
@[simp] theorem State.wrN_chn (s : State) (a n : Nat) : (s.wrN a n).chn = s.chn := rfl
@[simp] theorem State.wrN_rad (s : State) (a n : Nat) : (s.wrN a n).rad = s.rad := rfl
@[simp] theorem State.wrN_est (s : State) (a n : Nat) : (s.wrN a n).est = s.est := rfl
@[simp] theorem State.wrN_crew (s : State) (a n : Nat) : (s.wrN a n).crew = s.crew := rfl
@[simp] theorem State.wrN_rdata (s : State) (a n : Nat) : (s.wrN a n).rdata = s.rdata := rfl
@[simp] theorem State.wrN_sec (s : State) (a n : Nat) : (s.wrN a n).sec = s.sec := rfl
@[simp] theorem State.wrN_pending (s : State) (a n : Nat) : (s.wrN a n).pending = s.pending := rfl
@[simp] theorem State.wrN_acts (s : State) (a n : Nat) : (s.wrN a n).acts = s.acts := rfl
@[simp] theorem State.wrN_freeCtr (s : State) (a n : Nat) : (s.wrN a n).freeCtr = s.freeCtr := rfl

@[simp] theorem State.setFld_mem (s : State) (a lo w v : Nat) : (s.setFld a lo w v).mem = s.mem := rfl
@[simp] theorem State.setFld_power (s : State) (a lo w v : Nat) : (s.setFld a lo w v).power = s.power := rfl
@[simp] theorem State.setFld_stk (s : State) (a lo w v : Nat) : (s.setFld a lo w v).stk = s.stk := rfl
@[simp] theorem State.setFld_cam (s : State) (a lo w v : Nat) : (s.setFld a lo w v).cam = s.cam := rfl
@[simp] theorem State.setFld_log (s : State) (a lo w v : Nat) : (s.setFld a lo w v).log = s.log := rfl
@[simp] theorem State.setFld_con0 (s : State) (a lo w v : Nat) : (s.setFld a lo w v).con0 = s.con0 := rfl
@[simp] theorem State.setFld_con1 (s : State) (a lo w v : Nat) : (s.setFld a lo w v).con1 = s.con1 := rfl
@[simp] theorem State.setFld_parts (s : State) (a lo w v : Nat) : (s.setFld a lo w v).parts = s.parts := rfl
@[simp] theorem State.setFld_ctxs (s : State) (a lo w v : Nat) : (s.setFld a lo w v).ctxs = s.ctxs := rfl
@[simp] theorem State.setFld_sculls (s : State) (a lo w v : Nat) : (s.setFld a lo w v).sculls = s.sculls := rfl
@[simp] theorem State.setFld_inForce (s : State) (a lo w v : Nat) : (s.setFld a lo w v).inForce = s.inForce := rfl
@[simp] theorem State.setFld_nv (s : State) (a lo w v : Nat) : (s.setFld a lo w v).nv = s.nv := rfl
@[simp] theorem State.setFld_ao (s : State) (a lo w v : Nat) : (s.setFld a lo w v).ao = s.ao := rfl
@[simp] theorem State.setFld_tally (s : State) (a lo w v : Nat) : (s.setFld a lo w v).tally = s.tally := rfl
@[simp] theorem State.setFld_dbg (s : State) (a lo w v : Nat) : (s.setFld a lo w v).dbg = s.dbg := rfl
@[simp] theorem State.setFld_cca (s : State) (a lo w v : Nat) : (s.setFld a lo w v).cca = s.cca := rfl
@[simp] theorem State.setFld_meas (s : State) (a lo w v : Nat) : (s.setFld a lo w v).meas = s.meas := rfl
@[simp] theorem State.setFld_ctr (s : State) (a lo w v : Nat) : (s.setFld a lo w v).ctr = s.ctr := rfl
@[simp] theorem State.setFld_mdi (s : State) (a lo w v : Nat) : (s.setFld a lo w v).mdi = s.mdi := rfl
@[simp] theorem State.setFld_sin (s : State) (a lo w v : Nat) : (s.setFld a lo w v).sin = s.sin := rfl
@[simp] theorem State.setFld_imd (s : State) (a lo w v : Nat) : (s.setFld a lo w v).imd = s.imd := rfl
@[simp] theorem State.setFld_seats (s : State) (a lo w v : Nat) : (s.setFld a lo w v).seats = s.seats := rfl
@[simp] theorem State.setFld_kpa (s : State) (a lo w v : Nat) : (s.setFld a lo w v).kpa = s.kpa := rfl
@[simp] theorem State.setFld_cans (s : State) (a lo w v : Nat) : (s.setFld a lo w v).cans = s.cans := rfl
@[simp] theorem State.setFld_qp (s : State) (a lo w v : Nat) : (s.setFld a lo w v).qp = s.qp := rfl
@[simp] theorem State.setFld_tag (s : State) (a lo w v : Nat) : (s.setFld a lo w v).tag = s.tag := rfl
@[simp] theorem State.setFld_chn (s : State) (a lo w v : Nat) : (s.setFld a lo w v).chn = s.chn := rfl
@[simp] theorem State.setFld_rad (s : State) (a lo w v : Nat) : (s.setFld a lo w v).rad = s.rad := rfl
@[simp] theorem State.setFld_est (s : State) (a lo w v : Nat) : (s.setFld a lo w v).est = s.est := rfl
@[simp] theorem State.setFld_crew (s : State) (a lo w v : Nat) : (s.setFld a lo w v).crew = s.crew := rfl
@[simp] theorem State.setFld_rdata (s : State) (a lo w v : Nat) : (s.setFld a lo w v).rdata = s.rdata := rfl
@[simp] theorem State.setFld_sec (s : State) (a lo w v : Nat) : (s.setFld a lo w v).sec = s.sec := rfl
@[simp] theorem State.setFld_pending (s : State) (a lo w v : Nat) : (s.setFld a lo w v).pending = s.pending := rfl
@[simp] theorem State.setFld_acts (s : State) (a lo w v : Nat) : (s.setFld a lo w v).acts = s.acts := rfl
@[simp] theorem State.setFld_freeCtr (s : State) (a lo w v : Nat) : (s.setFld a lo w v).freeCtr = s.freeCtr := rfl

@[simp] theorem State.setBit_mem (s : State) (a b : Nat) (v : Bool) : (s.setBit a b v).mem = s.mem := rfl
@[simp] theorem State.setBit_power (s : State) (a b : Nat) (v : Bool) : (s.setBit a b v).power = s.power := rfl
@[simp] theorem State.setBit_stk (s : State) (a b : Nat) (v : Bool) : (s.setBit a b v).stk = s.stk := rfl
@[simp] theorem State.setBit_cam (s : State) (a b : Nat) (v : Bool) : (s.setBit a b v).cam = s.cam := rfl
@[simp] theorem State.setBit_log (s : State) (a b : Nat) (v : Bool) : (s.setBit a b v).log = s.log := rfl
@[simp] theorem State.setBit_con0 (s : State) (a b : Nat) (v : Bool) : (s.setBit a b v).con0 = s.con0 := rfl
@[simp] theorem State.setBit_con1 (s : State) (a b : Nat) (v : Bool) : (s.setBit a b v).con1 = s.con1 := rfl
@[simp] theorem State.setBit_parts (s : State) (a b : Nat) (v : Bool) : (s.setBit a b v).parts = s.parts := rfl
@[simp] theorem State.setBit_ctxs (s : State) (a b : Nat) (v : Bool) : (s.setBit a b v).ctxs = s.ctxs := rfl
@[simp] theorem State.setBit_sculls (s : State) (a b : Nat) (v : Bool) : (s.setBit a b v).sculls = s.sculls := rfl
@[simp] theorem State.setBit_inForce (s : State) (a b : Nat) (v : Bool) : (s.setBit a b v).inForce = s.inForce := rfl
@[simp] theorem State.setBit_nv (s : State) (a b : Nat) (v : Bool) : (s.setBit a b v).nv = s.nv := rfl
@[simp] theorem State.setBit_ao (s : State) (a b : Nat) (v : Bool) : (s.setBit a b v).ao = s.ao := rfl
@[simp] theorem State.setBit_tally (s : State) (a b : Nat) (v : Bool) : (s.setBit a b v).tally = s.tally := rfl
@[simp] theorem State.setBit_dbg (s : State) (a b : Nat) (v : Bool) : (s.setBit a b v).dbg = s.dbg := rfl
@[simp] theorem State.setBit_cca (s : State) (a b : Nat) (v : Bool) : (s.setBit a b v).cca = s.cca := rfl
@[simp] theorem State.setBit_meas (s : State) (a b : Nat) (v : Bool) : (s.setBit a b v).meas = s.meas := rfl
@[simp] theorem State.setBit_ctr (s : State) (a b : Nat) (v : Bool) : (s.setBit a b v).ctr = s.ctr := rfl
@[simp] theorem State.setBit_mdi (s : State) (a b : Nat) (v : Bool) : (s.setBit a b v).mdi = s.mdi := rfl
@[simp] theorem State.setBit_sin (s : State) (a b : Nat) (v : Bool) : (s.setBit a b v).sin = s.sin := rfl
@[simp] theorem State.setBit_imd (s : State) (a b : Nat) (v : Bool) : (s.setBit a b v).imd = s.imd := rfl
@[simp] theorem State.setBit_seats (s : State) (a b : Nat) (v : Bool) : (s.setBit a b v).seats = s.seats := rfl
@[simp] theorem State.setBit_kpa (s : State) (a b : Nat) (v : Bool) : (s.setBit a b v).kpa = s.kpa := rfl
@[simp] theorem State.setBit_cans (s : State) (a b : Nat) (v : Bool) : (s.setBit a b v).cans = s.cans := rfl
@[simp] theorem State.setBit_qp (s : State) (a b : Nat) (v : Bool) : (s.setBit a b v).qp = s.qp := rfl
@[simp] theorem State.setBit_tag (s : State) (a b : Nat) (v : Bool) : (s.setBit a b v).tag = s.tag := rfl
@[simp] theorem State.setBit_chn (s : State) (a b : Nat) (v : Bool) : (s.setBit a b v).chn = s.chn := rfl
@[simp] theorem State.setBit_rad (s : State) (a b : Nat) (v : Bool) : (s.setBit a b v).rad = s.rad := rfl
@[simp] theorem State.setBit_est (s : State) (a b : Nat) (v : Bool) : (s.setBit a b v).est = s.est := rfl
@[simp] theorem State.setBit_crew (s : State) (a b : Nat) (v : Bool) : (s.setBit a b v).crew = s.crew := rfl
@[simp] theorem State.setBit_rdata (s : State) (a b : Nat) (v : Bool) : (s.setBit a b v).rdata = s.rdata := rfl
@[simp] theorem State.setBit_sec (s : State) (a b : Nat) (v : Bool) : (s.setBit a b v).sec = s.sec := rfl
@[simp] theorem State.setBit_pending (s : State) (a b : Nat) (v : Bool) : (s.setBit a b v).pending = s.pending := rfl
@[simp] theorem State.setBit_acts (s : State) (a b : Nat) (v : Bool) : (s.setBit a b v).acts = s.acts := rfl
@[simp] theorem State.setBit_freeCtr (s : State) (a b : Nat) (v : Bool) : (s.setBit a b v).freeCtr = s.freeCtr := rfl

@[simp] theorem State.orReg_mem (s : State) (a m : Nat) : (s.orReg a m).mem = s.mem := rfl
@[simp] theorem State.orReg_power (s : State) (a m : Nat) : (s.orReg a m).power = s.power := rfl
@[simp] theorem State.orReg_stk (s : State) (a m : Nat) : (s.orReg a m).stk = s.stk := rfl
@[simp] theorem State.orReg_cam (s : State) (a m : Nat) : (s.orReg a m).cam = s.cam := rfl
@[simp] theorem State.orReg_log (s : State) (a m : Nat) : (s.orReg a m).log = s.log := rfl
@[simp] theorem State.orReg_con0 (s : State) (a m : Nat) : (s.orReg a m).con0 = s.con0 := rfl
@[simp] theorem State.orReg_con1 (s : State) (a m : Nat) : (s.orReg a m).con1 = s.con1 := rfl
@[simp] theorem State.orReg_parts (s : State) (a m : Nat) : (s.orReg a m).parts = s.parts := rfl
@[simp] theorem State.orReg_ctxs (s : State) (a m : Nat) : (s.orReg a m).ctxs = s.ctxs := rfl
@[simp] theorem State.orReg_sculls (s : State) (a m : Nat) : (s.orReg a m).sculls = s.sculls := rfl
@[simp] theorem State.orReg_inForce (s : State) (a m : Nat) : (s.orReg a m).inForce = s.inForce := rfl
@[simp] theorem State.orReg_nv (s : State) (a m : Nat) : (s.orReg a m).nv = s.nv := rfl
@[simp] theorem State.orReg_ao (s : State) (a m : Nat) : (s.orReg a m).ao = s.ao := rfl
@[simp] theorem State.orReg_tally (s : State) (a m : Nat) : (s.orReg a m).tally = s.tally := rfl
@[simp] theorem State.orReg_dbg (s : State) (a m : Nat) : (s.orReg a m).dbg = s.dbg := rfl
@[simp] theorem State.orReg_cca (s : State) (a m : Nat) : (s.orReg a m).cca = s.cca := rfl
@[simp] theorem State.orReg_meas (s : State) (a m : Nat) : (s.orReg a m).meas = s.meas := rfl
@[simp] theorem State.orReg_ctr (s : State) (a m : Nat) : (s.orReg a m).ctr = s.ctr := rfl
@[simp] theorem State.orReg_mdi (s : State) (a m : Nat) : (s.orReg a m).mdi = s.mdi := rfl
@[simp] theorem State.orReg_sin (s : State) (a m : Nat) : (s.orReg a m).sin = s.sin := rfl
@[simp] theorem State.orReg_imd (s : State) (a m : Nat) : (s.orReg a m).imd = s.imd := rfl
@[simp] theorem State.orReg_seats (s : State) (a m : Nat) : (s.orReg a m).seats = s.seats := rfl
@[simp] theorem State.orReg_kpa (s : State) (a m : Nat) : (s.orReg a m).kpa = s.kpa := rfl
@[simp] theorem State.orReg_cans (s : State) (a m : Nat) : (s.orReg a m).cans = s.cans := rfl
@[simp] theorem State.orReg_qp (s : State) (a m : Nat) : (s.orReg a m).qp = s.qp := rfl
@[simp] theorem State.orReg_tag (s : State) (a m : Nat) : (s.orReg a m).tag = s.tag := rfl
@[simp] theorem State.orReg_chn (s : State) (a m : Nat) : (s.orReg a m).chn = s.chn := rfl
@[simp] theorem State.orReg_rad (s : State) (a m : Nat) : (s.orReg a m).rad = s.rad := rfl
@[simp] theorem State.orReg_est (s : State) (a m : Nat) : (s.orReg a m).est = s.est := rfl
@[simp] theorem State.orReg_crew (s : State) (a m : Nat) : (s.orReg a m).crew = s.crew := rfl
@[simp] theorem State.orReg_rdata (s : State) (a m : Nat) : (s.orReg a m).rdata = s.rdata := rfl
@[simp] theorem State.orReg_sec (s : State) (a m : Nat) : (s.orReg a m).sec = s.sec := rfl
@[simp] theorem State.orReg_pending (s : State) (a m : Nat) : (s.orReg a m).pending = s.pending := rfl
@[simp] theorem State.orReg_acts (s : State) (a m : Nat) : (s.orReg a m).acts = s.acts := rfl
@[simp] theorem State.orReg_freeCtr (s : State) (a m : Nat) : (s.orReg a m).freeCtr = s.freeCtr := rfl

@[simp] theorem State.clrReg_mem (s : State) (a m : Nat) : (s.clrReg a m).mem = s.mem := rfl
@[simp] theorem State.clrReg_power (s : State) (a m : Nat) : (s.clrReg a m).power = s.power := rfl
@[simp] theorem State.clrReg_stk (s : State) (a m : Nat) : (s.clrReg a m).stk = s.stk := rfl
@[simp] theorem State.clrReg_cam (s : State) (a m : Nat) : (s.clrReg a m).cam = s.cam := rfl
@[simp] theorem State.clrReg_log (s : State) (a m : Nat) : (s.clrReg a m).log = s.log := rfl
@[simp] theorem State.clrReg_con0 (s : State) (a m : Nat) : (s.clrReg a m).con0 = s.con0 := rfl
@[simp] theorem State.clrReg_con1 (s : State) (a m : Nat) : (s.clrReg a m).con1 = s.con1 := rfl
@[simp] theorem State.clrReg_parts (s : State) (a m : Nat) : (s.clrReg a m).parts = s.parts := rfl
@[simp] theorem State.clrReg_ctxs (s : State) (a m : Nat) : (s.clrReg a m).ctxs = s.ctxs := rfl
@[simp] theorem State.clrReg_sculls (s : State) (a m : Nat) : (s.clrReg a m).sculls = s.sculls := rfl
@[simp] theorem State.clrReg_inForce (s : State) (a m : Nat) : (s.clrReg a m).inForce = s.inForce := rfl
@[simp] theorem State.clrReg_nv (s : State) (a m : Nat) : (s.clrReg a m).nv = s.nv := rfl
@[simp] theorem State.clrReg_ao (s : State) (a m : Nat) : (s.clrReg a m).ao = s.ao := rfl
@[simp] theorem State.clrReg_tally (s : State) (a m : Nat) : (s.clrReg a m).tally = s.tally := rfl
@[simp] theorem State.clrReg_dbg (s : State) (a m : Nat) : (s.clrReg a m).dbg = s.dbg := rfl
@[simp] theorem State.clrReg_cca (s : State) (a m : Nat) : (s.clrReg a m).cca = s.cca := rfl
@[simp] theorem State.clrReg_meas (s : State) (a m : Nat) : (s.clrReg a m).meas = s.meas := rfl
@[simp] theorem State.clrReg_ctr (s : State) (a m : Nat) : (s.clrReg a m).ctr = s.ctr := rfl
@[simp] theorem State.clrReg_mdi (s : State) (a m : Nat) : (s.clrReg a m).mdi = s.mdi := rfl
@[simp] theorem State.clrReg_sin (s : State) (a m : Nat) : (s.clrReg a m).sin = s.sin := rfl
@[simp] theorem State.clrReg_imd (s : State) (a m : Nat) : (s.clrReg a m).imd = s.imd := rfl
@[simp] theorem State.clrReg_seats (s : State) (a m : Nat) : (s.clrReg a m).seats = s.seats := rfl
@[simp] theorem State.clrReg_kpa (s : State) (a m : Nat) : (s.clrReg a m).kpa = s.kpa := rfl
@[simp] theorem State.clrReg_cans (s : State) (a m : Nat) : (s.clrReg a m).cans = s.cans := rfl
@[simp] theorem State.clrReg_qp (s : State) (a m : Nat) : (s.clrReg a m).qp = s.qp := rfl
@[simp] theorem State.clrReg_tag (s : State) (a m : Nat) : (s.clrReg a m).tag = s.tag := rfl
@[simp] theorem State.clrReg_chn (s : State) (a m : Nat) : (s.clrReg a m).chn = s.chn := rfl
@[simp] theorem State.clrReg_rad (s : State) (a m : Nat) : (s.clrReg a m).rad = s.rad := rfl
@[simp] theorem State.clrReg_est (s : State) (a m : Nat) : (s.clrReg a m).est = s.est := rfl
@[simp] theorem State.clrReg_crew (s : State) (a m : Nat) : (s.clrReg a m).crew = s.crew := rfl
@[simp] theorem State.clrReg_rdata (s : State) (a m : Nat) : (s.clrReg a m).rdata = s.rdata := rfl
@[simp] theorem State.clrReg_sec (s : State) (a m : Nat) : (s.clrReg a m).sec = s.sec := rfl
@[simp] theorem State.clrReg_pending (s : State) (a m : Nat) : (s.clrReg a m).pending = s.pending := rfl
@[simp] theorem State.clrReg_acts (s : State) (a m : Nat) : (s.clrReg a m).acts = s.acts := rfl
@[simp] theorem State.clrReg_freeCtr (s : State) (a m : Nat) : (s.clrReg a m).freeCtr = s.freeCtr := rfl

@[simp] theorem State.incSat_mem (s : State) (a lo w k : Nat) : (s.incSat a lo w k).mem = s.mem := rfl
@[simp] theorem State.incSat_power (s : State) (a lo w k : Nat) : (s.incSat a lo w k).power = s.power := rfl
@[simp] theorem State.incSat_stk (s : State) (a lo w k : Nat) : (s.incSat a lo w k).stk = s.stk := rfl
@[simp] theorem State.incSat_cam (s : State) (a lo w k : Nat) : (s.incSat a lo w k).cam = s.cam := rfl
@[simp] theorem State.incSat_log (s : State) (a lo w k : Nat) : (s.incSat a lo w k).log = s.log := rfl
@[simp] theorem State.incSat_con0 (s : State) (a lo w k : Nat) : (s.incSat a lo w k).con0 = s.con0 := rfl
@[simp] theorem State.incSat_con1 (s : State) (a lo w k : Nat) : (s.incSat a lo w k).con1 = s.con1 := rfl
@[simp] theorem State.incSat_parts (s : State) (a lo w k : Nat) : (s.incSat a lo w k).parts = s.parts := rfl
@[simp] theorem State.incSat_ctxs (s : State) (a lo w k : Nat) : (s.incSat a lo w k).ctxs = s.ctxs := rfl
@[simp] theorem State.incSat_sculls (s : State) (a lo w k : Nat) : (s.incSat a lo w k).sculls = s.sculls := rfl
@[simp] theorem State.incSat_inForce (s : State) (a lo w k : Nat) : (s.incSat a lo w k).inForce = s.inForce := rfl
@[simp] theorem State.incSat_nv (s : State) (a lo w k : Nat) : (s.incSat a lo w k).nv = s.nv := rfl
@[simp] theorem State.incSat_ao (s : State) (a lo w k : Nat) : (s.incSat a lo w k).ao = s.ao := rfl
@[simp] theorem State.incSat_tally (s : State) (a lo w k : Nat) : (s.incSat a lo w k).tally = s.tally := rfl
@[simp] theorem State.incSat_dbg (s : State) (a lo w k : Nat) : (s.incSat a lo w k).dbg = s.dbg := rfl
@[simp] theorem State.incSat_cca (s : State) (a lo w k : Nat) : (s.incSat a lo w k).cca = s.cca := rfl
@[simp] theorem State.incSat_meas (s : State) (a lo w k : Nat) : (s.incSat a lo w k).meas = s.meas := rfl
@[simp] theorem State.incSat_ctr (s : State) (a lo w k : Nat) : (s.incSat a lo w k).ctr = s.ctr := rfl
@[simp] theorem State.incSat_mdi (s : State) (a lo w k : Nat) : (s.incSat a lo w k).mdi = s.mdi := rfl
@[simp] theorem State.incSat_sin (s : State) (a lo w k : Nat) : (s.incSat a lo w k).sin = s.sin := rfl
@[simp] theorem State.incSat_imd (s : State) (a lo w k : Nat) : (s.incSat a lo w k).imd = s.imd := rfl
@[simp] theorem State.incSat_seats (s : State) (a lo w k : Nat) : (s.incSat a lo w k).seats = s.seats := rfl
@[simp] theorem State.incSat_kpa (s : State) (a lo w k : Nat) : (s.incSat a lo w k).kpa = s.kpa := rfl
@[simp] theorem State.incSat_cans (s : State) (a lo w k : Nat) : (s.incSat a lo w k).cans = s.cans := rfl
@[simp] theorem State.incSat_qp (s : State) (a lo w k : Nat) : (s.incSat a lo w k).qp = s.qp := rfl
@[simp] theorem State.incSat_tag (s : State) (a lo w k : Nat) : (s.incSat a lo w k).tag = s.tag := rfl
@[simp] theorem State.incSat_chn (s : State) (a lo w k : Nat) : (s.incSat a lo w k).chn = s.chn := rfl
@[simp] theorem State.incSat_rad (s : State) (a lo w k : Nat) : (s.incSat a lo w k).rad = s.rad := rfl
@[simp] theorem State.incSat_est (s : State) (a lo w k : Nat) : (s.incSat a lo w k).est = s.est := rfl
@[simp] theorem State.incSat_crew (s : State) (a lo w k : Nat) : (s.incSat a lo w k).crew = s.crew := rfl
@[simp] theorem State.incSat_rdata (s : State) (a lo w k : Nat) : (s.incSat a lo w k).rdata = s.rdata := rfl
@[simp] theorem State.incSat_sec (s : State) (a lo w k : Nat) : (s.incSat a lo w k).sec = s.sec := rfl
@[simp] theorem State.incSat_pending (s : State) (a lo w k : Nat) : (s.incSat a lo w k).pending = s.pending := rfl
@[simp] theorem State.incSat_acts (s : State) (a lo w k : Nat) : (s.incSat a lo w k).acts = s.acts := rfl
@[simp] theorem State.incSat_freeCtr (s : State) (a lo w k : Nat) : (s.incSat a lo w k).freeCtr = s.freeCtr := rfl

@[simp] theorem State.atUs_mem (s : State) (us : Nat) : (s.atUs us).mem = s.mem := rfl
@[simp] theorem State.atUs_power (s : State) (us : Nat) : (s.atUs us).power = s.power := rfl
@[simp] theorem State.atUs_stk (s : State) (us : Nat) : (s.atUs us).stk = s.stk := rfl
@[simp] theorem State.atUs_cam (s : State) (us : Nat) : (s.atUs us).cam = s.cam := rfl
@[simp] theorem State.atUs_log (s : State) (us : Nat) : (s.atUs us).log = s.log := rfl
@[simp] theorem State.atUs_con0 (s : State) (us : Nat) : (s.atUs us).con0 = s.con0 := rfl
@[simp] theorem State.atUs_con1 (s : State) (us : Nat) : (s.atUs us).con1 = s.con1 := rfl
@[simp] theorem State.atUs_parts (s : State) (us : Nat) : (s.atUs us).parts = s.parts := rfl
@[simp] theorem State.atUs_ctxs (s : State) (us : Nat) : (s.atUs us).ctxs = s.ctxs := rfl
@[simp] theorem State.atUs_sculls (s : State) (us : Nat) : (s.atUs us).sculls = s.sculls := rfl
@[simp] theorem State.atUs_inForce (s : State) (us : Nat) : (s.atUs us).inForce = s.inForce := rfl
@[simp] theorem State.atUs_nv (s : State) (us : Nat) : (s.atUs us).nv = s.nv := rfl
@[simp] theorem State.atUs_ao (s : State) (us : Nat) : (s.atUs us).ao = s.ao := rfl
@[simp] theorem State.atUs_tally (s : State) (us : Nat) : (s.atUs us).tally = s.tally := rfl
@[simp] theorem State.atUs_dbg (s : State) (us : Nat) : (s.atUs us).dbg = s.dbg := rfl
@[simp] theorem State.atUs_cca (s : State) (us : Nat) : (s.atUs us).cca = s.cca := rfl
@[simp] theorem State.atUs_meas (s : State) (us : Nat) : (s.atUs us).meas = s.meas := rfl
@[simp] theorem State.atUs_ctr (s : State) (us : Nat) : (s.atUs us).ctr = s.ctr := rfl
@[simp] theorem State.atUs_mdi (s : State) (us : Nat) : (s.atUs us).mdi = s.mdi := rfl
@[simp] theorem State.atUs_sin (s : State) (us : Nat) : (s.atUs us).sin = s.sin := rfl
@[simp] theorem State.atUs_imd (s : State) (us : Nat) : (s.atUs us).imd = s.imd := rfl
@[simp] theorem State.atUs_seats (s : State) (us : Nat) : (s.atUs us).seats = s.seats := rfl
@[simp] theorem State.atUs_kpa (s : State) (us : Nat) : (s.atUs us).kpa = s.kpa := rfl
@[simp] theorem State.atUs_cans (s : State) (us : Nat) : (s.atUs us).cans = s.cans := rfl
@[simp] theorem State.atUs_qp (s : State) (us : Nat) : (s.atUs us).qp = s.qp := rfl
@[simp] theorem State.atUs_tag (s : State) (us : Nat) : (s.atUs us).tag = s.tag := rfl
@[simp] theorem State.atUs_chn (s : State) (us : Nat) : (s.atUs us).chn = s.chn := rfl
@[simp] theorem State.atUs_rad (s : State) (us : Nat) : (s.atUs us).rad = s.rad := rfl
@[simp] theorem State.atUs_est (s : State) (us : Nat) : (s.atUs us).est = s.est := rfl
@[simp] theorem State.atUs_crew (s : State) (us : Nat) : (s.atUs us).crew = s.crew := rfl
@[simp] theorem State.atUs_rdata (s : State) (us : Nat) : (s.atUs us).rdata = s.rdata := rfl
@[simp] theorem State.atUs_sec (s : State) (us : Nat) : (s.atUs us).sec = s.sec := rfl
@[simp] theorem State.atUs_pending (s : State) (us : Nat) : (s.atUs us).pending = s.pending := rfl
@[simp] theorem State.atUs_acts (s : State) (us : Nat) : (s.atUs us).acts = s.acts := rfl
@[simp] theorem State.atUs_freeCtr (s : State) (us : Nat) : (s.atUs us).freeCtr = s.freeCtr := rfl

/-! Memory -/

@[simp] theorem State.wrB_regs (s : State) (a : Nat) (v : Byte) : (s.wrB a v).regs = s.regs := rfl
@[simp] theorem State.wrB_power (s : State) (a : Nat) (v : Byte) : (s.wrB a v).power = s.power := rfl
@[simp] theorem State.wrB_stk (s : State) (a : Nat) (v : Byte) : (s.wrB a v).stk = s.stk := rfl
@[simp] theorem State.wrB_cam (s : State) (a : Nat) (v : Byte) : (s.wrB a v).cam = s.cam := rfl
@[simp] theorem State.wrB_log (s : State) (a : Nat) (v : Byte) : (s.wrB a v).log = s.log := rfl
@[simp] theorem State.wrB_con0 (s : State) (a : Nat) (v : Byte) : (s.wrB a v).con0 = s.con0 := rfl
@[simp] theorem State.wrB_con1 (s : State) (a : Nat) (v : Byte) : (s.wrB a v).con1 = s.con1 := rfl
@[simp] theorem State.wrB_parts (s : State) (a : Nat) (v : Byte) : (s.wrB a v).parts = s.parts := rfl
@[simp] theorem State.wrB_ctxs (s : State) (a : Nat) (v : Byte) : (s.wrB a v).ctxs = s.ctxs := rfl
@[simp] theorem State.wrB_sculls (s : State) (a : Nat) (v : Byte) : (s.wrB a v).sculls = s.sculls := rfl
@[simp] theorem State.wrB_inForce (s : State) (a : Nat) (v : Byte) : (s.wrB a v).inForce = s.inForce := rfl
@[simp] theorem State.wrB_nv (s : State) (a : Nat) (v : Byte) : (s.wrB a v).nv = s.nv := rfl
@[simp] theorem State.wrB_ao (s : State) (a : Nat) (v : Byte) : (s.wrB a v).ao = s.ao := rfl
@[simp] theorem State.wrB_tally (s : State) (a : Nat) (v : Byte) : (s.wrB a v).tally = s.tally := rfl
@[simp] theorem State.wrB_dbg (s : State) (a : Nat) (v : Byte) : (s.wrB a v).dbg = s.dbg := rfl
@[simp] theorem State.wrB_cca (s : State) (a : Nat) (v : Byte) : (s.wrB a v).cca = s.cca := rfl
@[simp] theorem State.wrB_meas (s : State) (a : Nat) (v : Byte) : (s.wrB a v).meas = s.meas := rfl
@[simp] theorem State.wrB_ctr (s : State) (a : Nat) (v : Byte) : (s.wrB a v).ctr = s.ctr := rfl
@[simp] theorem State.wrB_mdi (s : State) (a : Nat) (v : Byte) : (s.wrB a v).mdi = s.mdi := rfl
@[simp] theorem State.wrB_sin (s : State) (a : Nat) (v : Byte) : (s.wrB a v).sin = s.sin := rfl
@[simp] theorem State.wrB_imd (s : State) (a : Nat) (v : Byte) : (s.wrB a v).imd = s.imd := rfl
@[simp] theorem State.wrB_seats (s : State) (a : Nat) (v : Byte) : (s.wrB a v).seats = s.seats := rfl
@[simp] theorem State.wrB_kpa (s : State) (a : Nat) (v : Byte) : (s.wrB a v).kpa = s.kpa := rfl
@[simp] theorem State.wrB_cans (s : State) (a : Nat) (v : Byte) : (s.wrB a v).cans = s.cans := rfl
@[simp] theorem State.wrB_qp (s : State) (a : Nat) (v : Byte) : (s.wrB a v).qp = s.qp := rfl
@[simp] theorem State.wrB_tag (s : State) (a : Nat) (v : Byte) : (s.wrB a v).tag = s.tag := rfl
@[simp] theorem State.wrB_chn (s : State) (a : Nat) (v : Byte) : (s.wrB a v).chn = s.chn := rfl
@[simp] theorem State.wrB_rad (s : State) (a : Nat) (v : Byte) : (s.wrB a v).rad = s.rad := rfl
@[simp] theorem State.wrB_est (s : State) (a : Nat) (v : Byte) : (s.wrB a v).est = s.est := rfl
@[simp] theorem State.wrB_crew (s : State) (a : Nat) (v : Byte) : (s.wrB a v).crew = s.crew := rfl
@[simp] theorem State.wrB_rdata (s : State) (a : Nat) (v : Byte) : (s.wrB a v).rdata = s.rdata := rfl
@[simp] theorem State.wrB_sec (s : State) (a : Nat) (v : Byte) : (s.wrB a v).sec = s.sec := rfl
@[simp] theorem State.wrB_pending (s : State) (a : Nat) (v : Byte) : (s.wrB a v).pending = s.pending := rfl
@[simp] theorem State.wrB_acts (s : State) (a : Nat) (v : Byte) : (s.wrB a v).acts = s.acts := rfl
@[simp] theorem State.wrB_freeCtr (s : State) (a : Nat) (v : Byte) : (s.wrB a v).freeCtr = s.freeCtr := rfl

theorem State.wrBytes_eq (s : State) (a : Nat) (l : List Byte) : s.wrBytes a l = { s with mem := (s.wrBytes a l).mem } := by
  induction l generalizing s a with
  | nil => rfl
  | cons b t ih => rw [State.wrBytes, ih]; rfl

@[simp] theorem State.wrBytes_regs (s : State) (a : Nat) (l : List Byte) : (s.wrBytes a l).regs = s.regs := (congrArg State.regs (State.wrBytes_eq s a l) :)
@[simp] theorem State.wrBytes_power (s : State) (a : Nat) (l : List Byte) : (s.wrBytes a l).power = s.power := (congrArg State.power (State.wrBytes_eq s a l) :)
@[simp] theorem State.wrBytes_stk (s : State) (a : Nat) (l : List Byte) : (s.wrBytes a l).stk = s.stk := (congrArg State.stk (State.wrBytes_eq s a l) :)
@[simp] theorem State.wrBytes_cam (s : State) (a : Nat) (l : List Byte) : (s.wrBytes a l).cam = s.cam := (congrArg State.cam (State.wrBytes_eq s a l) :)
@[simp] theorem State.wrBytes_log (s : State) (a : Nat) (l : List Byte) : (s.wrBytes a l).log = s.log := (congrArg State.log (State.wrBytes_eq s a l) :)
@[simp] theorem State.wrBytes_con0 (s : State) (a : Nat) (l : List Byte) : (s.wrBytes a l).con0 = s.con0 := (congrArg State.con0 (State.wrBytes_eq s a l) :)
@[simp] theorem State.wrBytes_con1 (s : State) (a : Nat) (l : List Byte) : (s.wrBytes a l).con1 = s.con1 := (congrArg State.con1 (State.wrBytes_eq s a l) :)
@[simp] theorem State.wrBytes_parts (s : State) (a : Nat) (l : List Byte) : (s.wrBytes a l).parts = s.parts := (congrArg State.parts (State.wrBytes_eq s a l) :)
@[simp] theorem State.wrBytes_ctxs (s : State) (a : Nat) (l : List Byte) : (s.wrBytes a l).ctxs = s.ctxs := (congrArg State.ctxs (State.wrBytes_eq s a l) :)
@[simp] theorem State.wrBytes_sculls (s : State) (a : Nat) (l : List Byte) : (s.wrBytes a l).sculls = s.sculls := (congrArg State.sculls (State.wrBytes_eq s a l) :)
@[simp] theorem State.wrBytes_inForce (s : State) (a : Nat) (l : List Byte) : (s.wrBytes a l).inForce = s.inForce := (congrArg State.inForce (State.wrBytes_eq s a l) :)
@[simp] theorem State.wrBytes_nv (s : State) (a : Nat) (l : List Byte) : (s.wrBytes a l).nv = s.nv := (congrArg State.nv (State.wrBytes_eq s a l) :)
@[simp] theorem State.wrBytes_ao (s : State) (a : Nat) (l : List Byte) : (s.wrBytes a l).ao = s.ao := (congrArg State.ao (State.wrBytes_eq s a l) :)
@[simp] theorem State.wrBytes_tally (s : State) (a : Nat) (l : List Byte) : (s.wrBytes a l).tally = s.tally := (congrArg State.tally (State.wrBytes_eq s a l) :)
@[simp] theorem State.wrBytes_dbg (s : State) (a : Nat) (l : List Byte) : (s.wrBytes a l).dbg = s.dbg := (congrArg State.dbg (State.wrBytes_eq s a l) :)
@[simp] theorem State.wrBytes_cca (s : State) (a : Nat) (l : List Byte) : (s.wrBytes a l).cca = s.cca := (congrArg State.cca (State.wrBytes_eq s a l) :)
@[simp] theorem State.wrBytes_meas (s : State) (a : Nat) (l : List Byte) : (s.wrBytes a l).meas = s.meas := (congrArg State.meas (State.wrBytes_eq s a l) :)
@[simp] theorem State.wrBytes_ctr (s : State) (a : Nat) (l : List Byte) : (s.wrBytes a l).ctr = s.ctr := (congrArg State.ctr (State.wrBytes_eq s a l) :)
@[simp] theorem State.wrBytes_mdi (s : State) (a : Nat) (l : List Byte) : (s.wrBytes a l).mdi = s.mdi := (congrArg State.mdi (State.wrBytes_eq s a l) :)
@[simp] theorem State.wrBytes_sin (s : State) (a : Nat) (l : List Byte) : (s.wrBytes a l).sin = s.sin := (congrArg State.sin (State.wrBytes_eq s a l) :)
@[simp] theorem State.wrBytes_imd (s : State) (a : Nat) (l : List Byte) : (s.wrBytes a l).imd = s.imd := (congrArg State.imd (State.wrBytes_eq s a l) :)
@[simp] theorem State.wrBytes_seats (s : State) (a : Nat) (l : List Byte) : (s.wrBytes a l).seats = s.seats := (congrArg State.seats (State.wrBytes_eq s a l) :)
@[simp] theorem State.wrBytes_kpa (s : State) (a : Nat) (l : List Byte) : (s.wrBytes a l).kpa = s.kpa := (congrArg State.kpa (State.wrBytes_eq s a l) :)
@[simp] theorem State.wrBytes_cans (s : State) (a : Nat) (l : List Byte) : (s.wrBytes a l).cans = s.cans := (congrArg State.cans (State.wrBytes_eq s a l) :)
@[simp] theorem State.wrBytes_qp (s : State) (a : Nat) (l : List Byte) : (s.wrBytes a l).qp = s.qp := (congrArg State.qp (State.wrBytes_eq s a l) :)
@[simp] theorem State.wrBytes_tag (s : State) (a : Nat) (l : List Byte) : (s.wrBytes a l).tag = s.tag := (congrArg State.tag (State.wrBytes_eq s a l) :)
@[simp] theorem State.wrBytes_chn (s : State) (a : Nat) (l : List Byte) : (s.wrBytes a l).chn = s.chn := (congrArg State.chn (State.wrBytes_eq s a l) :)
@[simp] theorem State.wrBytes_rad (s : State) (a : Nat) (l : List Byte) : (s.wrBytes a l).rad = s.rad := (congrArg State.rad (State.wrBytes_eq s a l) :)
@[simp] theorem State.wrBytes_est (s : State) (a : Nat) (l : List Byte) : (s.wrBytes a l).est = s.est := (congrArg State.est (State.wrBytes_eq s a l) :)
@[simp] theorem State.wrBytes_crew (s : State) (a : Nat) (l : List Byte) : (s.wrBytes a l).crew = s.crew := (congrArg State.crew (State.wrBytes_eq s a l) :)
@[simp] theorem State.wrBytes_rdata (s : State) (a : Nat) (l : List Byte) : (s.wrBytes a l).rdata = s.rdata := (congrArg State.rdata (State.wrBytes_eq s a l) :)
@[simp] theorem State.wrBytes_sec (s : State) (a : Nat) (l : List Byte) : (s.wrBytes a l).sec = s.sec := (congrArg State.sec (State.wrBytes_eq s a l) :)
@[simp] theorem State.wrBytes_pending (s : State) (a : Nat) (l : List Byte) : (s.wrBytes a l).pending = s.pending := (congrArg State.pending (State.wrBytes_eq s a l) :)
@[simp] theorem State.wrBytes_acts (s : State) (a : Nat) (l : List Byte) : (s.wrBytes a l).acts = s.acts := (congrArg State.acts (State.wrBytes_eq s a l) :)
@[simp] theorem State.wrBytes_freeCtr (s : State) (a : Nat) (l : List Byte) : (s.wrBytes a l).freeCtr = s.freeCtr := (congrArg State.freeCtr (State.wrBytes_eq s a l) :)

@[simp] theorem State.st_regs (s : State) (a n v : Nat) : (s.st a n v).regs = s.regs := (congrArg State.regs (State.wrBytes_eq s a _) :)
@[simp] theorem State.st_power (s : State) (a n v : Nat) : (s.st a n v).power = s.power := (congrArg State.power (State.wrBytes_eq s a _) :)
@[simp] theorem State.st_stk (s : State) (a n v : Nat) : (s.st a n v).stk = s.stk := (congrArg State.stk (State.wrBytes_eq s a _) :)
@[simp] theorem State.st_cam (s : State) (a n v : Nat) : (s.st a n v).cam = s.cam := (congrArg State.cam (State.wrBytes_eq s a _) :)
@[simp] theorem State.st_log (s : State) (a n v : Nat) : (s.st a n v).log = s.log := (congrArg State.log (State.wrBytes_eq s a _) :)
@[simp] theorem State.st_con0 (s : State) (a n v : Nat) : (s.st a n v).con0 = s.con0 := (congrArg State.con0 (State.wrBytes_eq s a _) :)
@[simp] theorem State.st_con1 (s : State) (a n v : Nat) : (s.st a n v).con1 = s.con1 := (congrArg State.con1 (State.wrBytes_eq s a _) :)
@[simp] theorem State.st_parts (s : State) (a n v : Nat) : (s.st a n v).parts = s.parts := (congrArg State.parts (State.wrBytes_eq s a _) :)
@[simp] theorem State.st_ctxs (s : State) (a n v : Nat) : (s.st a n v).ctxs = s.ctxs := (congrArg State.ctxs (State.wrBytes_eq s a _) :)
@[simp] theorem State.st_sculls (s : State) (a n v : Nat) : (s.st a n v).sculls = s.sculls := (congrArg State.sculls (State.wrBytes_eq s a _) :)
@[simp] theorem State.st_inForce (s : State) (a n v : Nat) : (s.st a n v).inForce = s.inForce := (congrArg State.inForce (State.wrBytes_eq s a _) :)
@[simp] theorem State.st_nv (s : State) (a n v : Nat) : (s.st a n v).nv = s.nv := (congrArg State.nv (State.wrBytes_eq s a _) :)
@[simp] theorem State.st_ao (s : State) (a n v : Nat) : (s.st a n v).ao = s.ao := (congrArg State.ao (State.wrBytes_eq s a _) :)
@[simp] theorem State.st_tally (s : State) (a n v : Nat) : (s.st a n v).tally = s.tally := (congrArg State.tally (State.wrBytes_eq s a _) :)
@[simp] theorem State.st_dbg (s : State) (a n v : Nat) : (s.st a n v).dbg = s.dbg := (congrArg State.dbg (State.wrBytes_eq s a _) :)
@[simp] theorem State.st_cca (s : State) (a n v : Nat) : (s.st a n v).cca = s.cca := (congrArg State.cca (State.wrBytes_eq s a _) :)
@[simp] theorem State.st_meas (s : State) (a n v : Nat) : (s.st a n v).meas = s.meas := (congrArg State.meas (State.wrBytes_eq s a _) :)
@[simp] theorem State.st_ctr (s : State) (a n v : Nat) : (s.st a n v).ctr = s.ctr := (congrArg State.ctr (State.wrBytes_eq s a _) :)
@[simp] theorem State.st_mdi (s : State) (a n v : Nat) : (s.st a n v).mdi = s.mdi := (congrArg State.mdi (State.wrBytes_eq s a _) :)
@[simp] theorem State.st_sin (s : State) (a n v : Nat) : (s.st a n v).sin = s.sin := (congrArg State.sin (State.wrBytes_eq s a _) :)
@[simp] theorem State.st_imd (s : State) (a n v : Nat) : (s.st a n v).imd = s.imd := (congrArg State.imd (State.wrBytes_eq s a _) :)
@[simp] theorem State.st_seats (s : State) (a n v : Nat) : (s.st a n v).seats = s.seats := (congrArg State.seats (State.wrBytes_eq s a _) :)
@[simp] theorem State.st_kpa (s : State) (a n v : Nat) : (s.st a n v).kpa = s.kpa := (congrArg State.kpa (State.wrBytes_eq s a _) :)
@[simp] theorem State.st_cans (s : State) (a n v : Nat) : (s.st a n v).cans = s.cans := (congrArg State.cans (State.wrBytes_eq s a _) :)
@[simp] theorem State.st_qp (s : State) (a n v : Nat) : (s.st a n v).qp = s.qp := (congrArg State.qp (State.wrBytes_eq s a _) :)
@[simp] theorem State.st_tag (s : State) (a n v : Nat) : (s.st a n v).tag = s.tag := (congrArg State.tag (State.wrBytes_eq s a _) :)
@[simp] theorem State.st_chn (s : State) (a n v : Nat) : (s.st a n v).chn = s.chn := (congrArg State.chn (State.wrBytes_eq s a _) :)
@[simp] theorem State.st_rad (s : State) (a n v : Nat) : (s.st a n v).rad = s.rad := (congrArg State.rad (State.wrBytes_eq s a _) :)
@[simp] theorem State.st_est (s : State) (a n v : Nat) : (s.st a n v).est = s.est := (congrArg State.est (State.wrBytes_eq s a _) :)
@[simp] theorem State.st_crew (s : State) (a n v : Nat) : (s.st a n v).crew = s.crew := (congrArg State.crew (State.wrBytes_eq s a _) :)
@[simp] theorem State.st_rdata (s : State) (a n v : Nat) : (s.st a n v).rdata = s.rdata := (congrArg State.rdata (State.wrBytes_eq s a _) :)
@[simp] theorem State.st_sec (s : State) (a n v : Nat) : (s.st a n v).sec = s.sec := (congrArg State.sec (State.wrBytes_eq s a _) :)
@[simp] theorem State.st_pending (s : State) (a n v : Nat) : (s.st a n v).pending = s.pending := (congrArg State.pending (State.wrBytes_eq s a _) :)
@[simp] theorem State.st_acts (s : State) (a n v : Nat) : (s.st a n v).acts = s.acts := (congrArg State.acts (State.wrBytes_eq s a _) :)
@[simp] theorem State.st_freeCtr (s : State) (a n v : Nat) : (s.st a n v).freeCtr = s.freeCtr := (congrArg State.freeCtr (State.wrBytes_eq s a _) :)

/-! Free values -/

@[simp] theorem State.free_fst (s : State) : s.free.1 = (Config.freeWord s.freeCtr).toNat := rfl
@[simp] theorem State.free_freeCtr (s : State) : s.free.2.freeCtr = s.freeCtr + 1 := rfl
@[simp] theorem State.free_regs (s : State) : (s.free.2).regs = s.regs := rfl
@[simp] theorem State.free_mem (s : State) : (s.free.2).mem = s.mem := rfl
@[simp] theorem State.free_power (s : State) : (s.free.2).power = s.power := rfl
@[simp] theorem State.free_stk (s : State) : (s.free.2).stk = s.stk := rfl
@[simp] theorem State.free_cam (s : State) : (s.free.2).cam = s.cam := rfl
@[simp] theorem State.free_log (s : State) : (s.free.2).log = s.log := rfl
@[simp] theorem State.free_con0 (s : State) : (s.free.2).con0 = s.con0 := rfl
@[simp] theorem State.free_con1 (s : State) : (s.free.2).con1 = s.con1 := rfl
@[simp] theorem State.free_parts (s : State) : (s.free.2).parts = s.parts := rfl
@[simp] theorem State.free_ctxs (s : State) : (s.free.2).ctxs = s.ctxs := rfl
@[simp] theorem State.free_sculls (s : State) : (s.free.2).sculls = s.sculls := rfl
@[simp] theorem State.free_inForce (s : State) : (s.free.2).inForce = s.inForce := rfl
@[simp] theorem State.free_nv (s : State) : (s.free.2).nv = s.nv := rfl
@[simp] theorem State.free_ao (s : State) : (s.free.2).ao = s.ao := rfl
@[simp] theorem State.free_tally (s : State) : (s.free.2).tally = s.tally := rfl
@[simp] theorem State.free_dbg (s : State) : (s.free.2).dbg = s.dbg := rfl
@[simp] theorem State.free_cca (s : State) : (s.free.2).cca = s.cca := rfl
@[simp] theorem State.free_meas (s : State) : (s.free.2).meas = s.meas := rfl
@[simp] theorem State.free_ctr (s : State) : (s.free.2).ctr = s.ctr := rfl
@[simp] theorem State.free_mdi (s : State) : (s.free.2).mdi = s.mdi := rfl
@[simp] theorem State.free_sin (s : State) : (s.free.2).sin = s.sin := rfl
@[simp] theorem State.free_imd (s : State) : (s.free.2).imd = s.imd := rfl
@[simp] theorem State.free_seats (s : State) : (s.free.2).seats = s.seats := rfl
@[simp] theorem State.free_kpa (s : State) : (s.free.2).kpa = s.kpa := rfl
@[simp] theorem State.free_cans (s : State) : (s.free.2).cans = s.cans := rfl
@[simp] theorem State.free_qp (s : State) : (s.free.2).qp = s.qp := rfl
@[simp] theorem State.free_tag (s : State) : (s.free.2).tag = s.tag := rfl
@[simp] theorem State.free_chn (s : State) : (s.free.2).chn = s.chn := rfl
@[simp] theorem State.free_rad (s : State) : (s.free.2).rad = s.rad := rfl
@[simp] theorem State.free_est (s : State) : (s.free.2).est = s.est := rfl
@[simp] theorem State.free_crew (s : State) : (s.free.2).crew = s.crew := rfl
@[simp] theorem State.free_rdata (s : State) : (s.free.2).rdata = s.rdata := rfl
@[simp] theorem State.free_sec (s : State) : (s.free.2).sec = s.sec := rfl
@[simp] theorem State.free_pending (s : State) : (s.free.2).pending = s.pending := rfl
@[simp] theorem State.free_acts (s : State) : (s.free.2).acts = s.acts := rfl

/-! The logbook -/

@[simp] theorem State.setPend_mem (s : State) (l : List LogRec) : (s.setPend l).mem = s.mem := rfl
@[simp] theorem State.setPend_power (s : State) (l : List LogRec) : (s.setPend l).power = s.power := rfl
@[simp] theorem State.setPend_stk (s : State) (l : List LogRec) : (s.setPend l).stk = s.stk := rfl
@[simp] theorem State.setPend_cam (s : State) (l : List LogRec) : (s.setPend l).cam = s.cam := rfl
@[simp] theorem State.setPend_con0 (s : State) (l : List LogRec) : (s.setPend l).con0 = s.con0 := rfl
@[simp] theorem State.setPend_con1 (s : State) (l : List LogRec) : (s.setPend l).con1 = s.con1 := rfl
@[simp] theorem State.setPend_parts (s : State) (l : List LogRec) : (s.setPend l).parts = s.parts := rfl
@[simp] theorem State.setPend_ctxs (s : State) (l : List LogRec) : (s.setPend l).ctxs = s.ctxs := rfl
@[simp] theorem State.setPend_sculls (s : State) (l : List LogRec) : (s.setPend l).sculls = s.sculls := rfl
@[simp] theorem State.setPend_inForce (s : State) (l : List LogRec) : (s.setPend l).inForce = s.inForce := rfl
@[simp] theorem State.setPend_nv (s : State) (l : List LogRec) : (s.setPend l).nv = s.nv := rfl
@[simp] theorem State.setPend_ao (s : State) (l : List LogRec) : (s.setPend l).ao = s.ao := rfl
@[simp] theorem State.setPend_tally (s : State) (l : List LogRec) : (s.setPend l).tally = s.tally := rfl
@[simp] theorem State.setPend_dbg (s : State) (l : List LogRec) : (s.setPend l).dbg = s.dbg := rfl
@[simp] theorem State.setPend_cca (s : State) (l : List LogRec) : (s.setPend l).cca = s.cca := rfl
@[simp] theorem State.setPend_meas (s : State) (l : List LogRec) : (s.setPend l).meas = s.meas := rfl
@[simp] theorem State.setPend_ctr (s : State) (l : List LogRec) : (s.setPend l).ctr = s.ctr := rfl
@[simp] theorem State.setPend_mdi (s : State) (l : List LogRec) : (s.setPend l).mdi = s.mdi := rfl
@[simp] theorem State.setPend_sin (s : State) (l : List LogRec) : (s.setPend l).sin = s.sin := rfl
@[simp] theorem State.setPend_imd (s : State) (l : List LogRec) : (s.setPend l).imd = s.imd := rfl
@[simp] theorem State.setPend_seats (s : State) (l : List LogRec) : (s.setPend l).seats = s.seats := rfl
@[simp] theorem State.setPend_kpa (s : State) (l : List LogRec) : (s.setPend l).kpa = s.kpa := rfl
@[simp] theorem State.setPend_cans (s : State) (l : List LogRec) : (s.setPend l).cans = s.cans := rfl
@[simp] theorem State.setPend_qp (s : State) (l : List LogRec) : (s.setPend l).qp = s.qp := rfl
@[simp] theorem State.setPend_tag (s : State) (l : List LogRec) : (s.setPend l).tag = s.tag := rfl
@[simp] theorem State.setPend_chn (s : State) (l : List LogRec) : (s.setPend l).chn = s.chn := rfl
@[simp] theorem State.setPend_rad (s : State) (l : List LogRec) : (s.setPend l).rad = s.rad := rfl
@[simp] theorem State.setPend_est (s : State) (l : List LogRec) : (s.setPend l).est = s.est := rfl
@[simp] theorem State.setPend_crew (s : State) (l : List LogRec) : (s.setPend l).crew = s.crew := rfl
@[simp] theorem State.setPend_rdata (s : State) (l : List LogRec) : (s.setPend l).rdata = s.rdata := rfl
@[simp] theorem State.setPend_sec (s : State) (l : List LogRec) : (s.setPend l).sec = s.sec := rfl
@[simp] theorem State.setPend_pending (s : State) (l : List LogRec) : (s.setPend l).pending = s.pending := rfl
@[simp] theorem State.setPend_acts (s : State) (l : List LogRec) : (s.setPend l).acts = s.acts := rfl
@[simp] theorem State.setPend_freeCtr (s : State) (l : List LogRec) : (s.setPend l).freeCtr = s.freeCtr := rfl

@[simp] theorem State.setBucket_regs (s : State) (k : Nat) (b : Bucket) : (s.setBucket k b).regs = s.regs := rfl
@[simp] theorem State.setBucket_mem (s : State) (k : Nat) (b : Bucket) : (s.setBucket k b).mem = s.mem := rfl
@[simp] theorem State.setBucket_power (s : State) (k : Nat) (b : Bucket) : (s.setBucket k b).power = s.power := rfl
@[simp] theorem State.setBucket_stk (s : State) (k : Nat) (b : Bucket) : (s.setBucket k b).stk = s.stk := rfl
@[simp] theorem State.setBucket_cam (s : State) (k : Nat) (b : Bucket) : (s.setBucket k b).cam = s.cam := rfl
@[simp] theorem State.setBucket_con0 (s : State) (k : Nat) (b : Bucket) : (s.setBucket k b).con0 = s.con0 := rfl
@[simp] theorem State.setBucket_con1 (s : State) (k : Nat) (b : Bucket) : (s.setBucket k b).con1 = s.con1 := rfl
@[simp] theorem State.setBucket_parts (s : State) (k : Nat) (b : Bucket) : (s.setBucket k b).parts = s.parts := rfl
@[simp] theorem State.setBucket_ctxs (s : State) (k : Nat) (b : Bucket) : (s.setBucket k b).ctxs = s.ctxs := rfl
@[simp] theorem State.setBucket_sculls (s : State) (k : Nat) (b : Bucket) : (s.setBucket k b).sculls = s.sculls := rfl
@[simp] theorem State.setBucket_inForce (s : State) (k : Nat) (b : Bucket) : (s.setBucket k b).inForce = s.inForce := rfl
@[simp] theorem State.setBucket_nv (s : State) (k : Nat) (b : Bucket) : (s.setBucket k b).nv = s.nv := rfl
@[simp] theorem State.setBucket_ao (s : State) (k : Nat) (b : Bucket) : (s.setBucket k b).ao = s.ao := rfl
@[simp] theorem State.setBucket_tally (s : State) (k : Nat) (b : Bucket) : (s.setBucket k b).tally = s.tally := rfl
@[simp] theorem State.setBucket_dbg (s : State) (k : Nat) (b : Bucket) : (s.setBucket k b).dbg = s.dbg := rfl
@[simp] theorem State.setBucket_cca (s : State) (k : Nat) (b : Bucket) : (s.setBucket k b).cca = s.cca := rfl
@[simp] theorem State.setBucket_meas (s : State) (k : Nat) (b : Bucket) : (s.setBucket k b).meas = s.meas := rfl
@[simp] theorem State.setBucket_ctr (s : State) (k : Nat) (b : Bucket) : (s.setBucket k b).ctr = s.ctr := rfl
@[simp] theorem State.setBucket_mdi (s : State) (k : Nat) (b : Bucket) : (s.setBucket k b).mdi = s.mdi := rfl
@[simp] theorem State.setBucket_sin (s : State) (k : Nat) (b : Bucket) : (s.setBucket k b).sin = s.sin := rfl
@[simp] theorem State.setBucket_imd (s : State) (k : Nat) (b : Bucket) : (s.setBucket k b).imd = s.imd := rfl
@[simp] theorem State.setBucket_seats (s : State) (k : Nat) (b : Bucket) : (s.setBucket k b).seats = s.seats := rfl
@[simp] theorem State.setBucket_kpa (s : State) (k : Nat) (b : Bucket) : (s.setBucket k b).kpa = s.kpa := rfl
@[simp] theorem State.setBucket_cans (s : State) (k : Nat) (b : Bucket) : (s.setBucket k b).cans = s.cans := rfl
@[simp] theorem State.setBucket_qp (s : State) (k : Nat) (b : Bucket) : (s.setBucket k b).qp = s.qp := rfl
@[simp] theorem State.setBucket_tag (s : State) (k : Nat) (b : Bucket) : (s.setBucket k b).tag = s.tag := rfl
@[simp] theorem State.setBucket_chn (s : State) (k : Nat) (b : Bucket) : (s.setBucket k b).chn = s.chn := rfl
@[simp] theorem State.setBucket_rad (s : State) (k : Nat) (b : Bucket) : (s.setBucket k b).rad = s.rad := rfl
@[simp] theorem State.setBucket_est (s : State) (k : Nat) (b : Bucket) : (s.setBucket k b).est = s.est := rfl
@[simp] theorem State.setBucket_crew (s : State) (k : Nat) (b : Bucket) : (s.setBucket k b).crew = s.crew := rfl
@[simp] theorem State.setBucket_rdata (s : State) (k : Nat) (b : Bucket) : (s.setBucket k b).rdata = s.rdata := rfl
@[simp] theorem State.setBucket_sec (s : State) (k : Nat) (b : Bucket) : (s.setBucket k b).sec = s.sec := rfl
@[simp] theorem State.setBucket_pending (s : State) (k : Nat) (b : Bucket) : (s.setBucket k b).pending = s.pending := rfl
@[simp] theorem State.setBucket_acts (s : State) (k : Nat) (b : Bucket) : (s.setBucket k b).acts = s.acts := rfl
@[simp] theorem State.setBucket_freeCtr (s : State) (k : Nat) (b : Bucket) : (s.setBucket k b).freeCtr = s.freeCtr := rfl

/-- Only the registers and the logbook changed. -/
abbrev LogFrame (s t : State) : Prop := t = { s with regs := t.regs, log := t.log }

theorem LogFrame.trans {s t u : State} (h : LogFrame s t) (k : LogFrame t u) : LogFrame s u := by
  rw [k]
  exact congrArg (fun x : State => { x with regs := u.regs, log := u.log }) h

theorem LogFrame.wrN {s t : State} (h : LogFrame s t) (a n : Nat) : LogFrame s (t.wrN a n) := h.trans rfl

theorem LogFrame.setFld {s t : State} (h : LogFrame s t) (a lo w v : Nat) : LogFrame s (t.setFld a lo w v) := h.trans rfl

theorem LogFrame.setBit {s t : State} (h : LogFrame s t) (a b : Nat) (v : Bool) : LogFrame s (t.setBit a b v) := h.trans rfl

theorem LogFrame.incSat {s t : State} (h : LogFrame s t) (a lo w k : Nat) : LogFrame s (t.incSat a lo w k) := h.trans rfl

theorem LogFrame.setLog {s t : State} (h : LogFrame s t) (l : LogSt) : LogFrame s { t with log := l } := h.trans rfl

theorem LogFrame.setPend {s t : State} (h : LogFrame s t) (l : List LogRec) : LogFrame s (t.setPend l) :=
  ((h.setLog _).setFld _ _ _ _).setFld _ _ _ _

theorem LogFrame.setBucket {s t : State} (h : LogFrame s t) (k : Nat) (b : Bucket) : LogFrame s (t.setBucket k b) := h.setLog _

theorem LogFrame.ite {s a b : State} {c : Prop} [Decidable c] (ha : LogFrame s a) (hb : LogFrame s b) : LogFrame s (if c then a else b) := by
  split
  · exact ha
  · exact hb

theorem State.reportLost_eq (s : State) (b : Nat) : LogFrame s (s.reportLost b) :=
  LogFrame.ite ((LogFrame.setPend (Eq.refl s) _).setLog _) (Eq.refl s)

theorem State.submit_eq (s : State) (u : List LogRec) : LogFrame s (s.submit u).2 := by
  unfold State.submit
  split
  · rfl
  · rename_i r t
    dsimp only
    split
    · exact LogFrame.incSat (LogFrame.setBucket (Eq.refl s) _ _) _ _ _ _
    · have h := LogFrame.trans (LogFrame.ite (c := (decide (r.sevfl % 8 = 4) || decide (r.source = 0xF0) || !s.bit Reg.LOG_CTRL 1) = true) (Eq.refl s)
        (LogFrame.setBucket (Eq.refl s) (s.bucketKey r.book r.code)
          { s.bucket (s.bucketKey r.book r.code) with tokens := (s.bucket (s.bucketKey r.book r.code)).tokens - 1 }))
        (State.reportLost_eq _ r.book)
      generalize State.reportLost _ r.book = u at h ⊢
      split
      · exact (h.incSat _ _ _ _).setLog _
      · split
        · exact (h.incSat _ _ _ _).setBit _ _ _
        · exact h.setPend _

theorem State.logIn_eq (s : State) (b c src : Nat) (l : List Byte) : LogFrame s (s.logIn b c src l) := by
  have h := State.submit_eq s (s.unitOf b c src (severity c) l)
  unfold State.logIn
  dsimp only
  split
  · exact h.setLog _
  · exact h

theorem State.logS0_eq (s : State) (c : Nat) (l : List Byte) : LogFrame s (s.logS0 c l) := (State.logIn_eq s 0 c 0 l).trans (State.logIn_eq _ 1 c 0 l)

theorem State.logSK_eq (s : State) (k c : Nat) (l : List Byte) : LogFrame s (s.logSK k c l) :=
  (State.logIn_eq s 0 c 0 l).trans (State.logIn_eq _ (1 + k) c 0 l)

@[simp] theorem State.logIn_mem (s : State) (b c src : Nat) (l : List Byte) : (s.logIn b c src l).mem = s.mem := (congrArg State.mem (State.logIn_eq s b c src l) :)
@[simp] theorem State.logIn_power (s : State) (b c src : Nat) (l : List Byte) : (s.logIn b c src l).power = s.power := (congrArg State.power (State.logIn_eq s b c src l) :)
@[simp] theorem State.logIn_stk (s : State) (b c src : Nat) (l : List Byte) : (s.logIn b c src l).stk = s.stk := (congrArg State.stk (State.logIn_eq s b c src l) :)
@[simp] theorem State.logIn_cam (s : State) (b c src : Nat) (l : List Byte) : (s.logIn b c src l).cam = s.cam := (congrArg State.cam (State.logIn_eq s b c src l) :)
@[simp] theorem State.logIn_con0 (s : State) (b c src : Nat) (l : List Byte) : (s.logIn b c src l).con0 = s.con0 := (congrArg State.con0 (State.logIn_eq s b c src l) :)
@[simp] theorem State.logIn_con1 (s : State) (b c src : Nat) (l : List Byte) : (s.logIn b c src l).con1 = s.con1 := (congrArg State.con1 (State.logIn_eq s b c src l) :)
@[simp] theorem State.logIn_parts (s : State) (b c src : Nat) (l : List Byte) : (s.logIn b c src l).parts = s.parts := (congrArg State.parts (State.logIn_eq s b c src l) :)
@[simp] theorem State.logIn_ctxs (s : State) (b c src : Nat) (l : List Byte) : (s.logIn b c src l).ctxs = s.ctxs := (congrArg State.ctxs (State.logIn_eq s b c src l) :)
@[simp] theorem State.logIn_sculls (s : State) (b c src : Nat) (l : List Byte) : (s.logIn b c src l).sculls = s.sculls := (congrArg State.sculls (State.logIn_eq s b c src l) :)
@[simp] theorem State.logIn_inForce (s : State) (b c src : Nat) (l : List Byte) : (s.logIn b c src l).inForce = s.inForce := (congrArg State.inForce (State.logIn_eq s b c src l) :)
@[simp] theorem State.logIn_nv (s : State) (b c src : Nat) (l : List Byte) : (s.logIn b c src l).nv = s.nv := (congrArg State.nv (State.logIn_eq s b c src l) :)
@[simp] theorem State.logIn_ao (s : State) (b c src : Nat) (l : List Byte) : (s.logIn b c src l).ao = s.ao := (congrArg State.ao (State.logIn_eq s b c src l) :)
@[simp] theorem State.logIn_tally (s : State) (b c src : Nat) (l : List Byte) : (s.logIn b c src l).tally = s.tally := (congrArg State.tally (State.logIn_eq s b c src l) :)
@[simp] theorem State.logIn_dbg (s : State) (b c src : Nat) (l : List Byte) : (s.logIn b c src l).dbg = s.dbg := (congrArg State.dbg (State.logIn_eq s b c src l) :)
@[simp] theorem State.logIn_cca (s : State) (b c src : Nat) (l : List Byte) : (s.logIn b c src l).cca = s.cca := (congrArg State.cca (State.logIn_eq s b c src l) :)
@[simp] theorem State.logIn_meas (s : State) (b c src : Nat) (l : List Byte) : (s.logIn b c src l).meas = s.meas := (congrArg State.meas (State.logIn_eq s b c src l) :)
@[simp] theorem State.logIn_ctr (s : State) (b c src : Nat) (l : List Byte) : (s.logIn b c src l).ctr = s.ctr := (congrArg State.ctr (State.logIn_eq s b c src l) :)
@[simp] theorem State.logIn_mdi (s : State) (b c src : Nat) (l : List Byte) : (s.logIn b c src l).mdi = s.mdi := (congrArg State.mdi (State.logIn_eq s b c src l) :)
@[simp] theorem State.logIn_sin (s : State) (b c src : Nat) (l : List Byte) : (s.logIn b c src l).sin = s.sin := (congrArg State.sin (State.logIn_eq s b c src l) :)
@[simp] theorem State.logIn_imd (s : State) (b c src : Nat) (l : List Byte) : (s.logIn b c src l).imd = s.imd := (congrArg State.imd (State.logIn_eq s b c src l) :)
@[simp] theorem State.logIn_seats (s : State) (b c src : Nat) (l : List Byte) : (s.logIn b c src l).seats = s.seats := (congrArg State.seats (State.logIn_eq s b c src l) :)
@[simp] theorem State.logIn_kpa (s : State) (b c src : Nat) (l : List Byte) : (s.logIn b c src l).kpa = s.kpa := (congrArg State.kpa (State.logIn_eq s b c src l) :)
@[simp] theorem State.logIn_cans (s : State) (b c src : Nat) (l : List Byte) : (s.logIn b c src l).cans = s.cans := (congrArg State.cans (State.logIn_eq s b c src l) :)
@[simp] theorem State.logIn_qp (s : State) (b c src : Nat) (l : List Byte) : (s.logIn b c src l).qp = s.qp := (congrArg State.qp (State.logIn_eq s b c src l) :)
@[simp] theorem State.logIn_tag (s : State) (b c src : Nat) (l : List Byte) : (s.logIn b c src l).tag = s.tag := (congrArg State.tag (State.logIn_eq s b c src l) :)
@[simp] theorem State.logIn_chn (s : State) (b c src : Nat) (l : List Byte) : (s.logIn b c src l).chn = s.chn := (congrArg State.chn (State.logIn_eq s b c src l) :)
@[simp] theorem State.logIn_rad (s : State) (b c src : Nat) (l : List Byte) : (s.logIn b c src l).rad = s.rad := (congrArg State.rad (State.logIn_eq s b c src l) :)
@[simp] theorem State.logIn_est (s : State) (b c src : Nat) (l : List Byte) : (s.logIn b c src l).est = s.est := (congrArg State.est (State.logIn_eq s b c src l) :)
@[simp] theorem State.logIn_crew (s : State) (b c src : Nat) (l : List Byte) : (s.logIn b c src l).crew = s.crew := (congrArg State.crew (State.logIn_eq s b c src l) :)
@[simp] theorem State.logIn_rdata (s : State) (b c src : Nat) (l : List Byte) : (s.logIn b c src l).rdata = s.rdata := (congrArg State.rdata (State.logIn_eq s b c src l) :)
@[simp] theorem State.logIn_sec (s : State) (b c src : Nat) (l : List Byte) : (s.logIn b c src l).sec = s.sec := (congrArg State.sec (State.logIn_eq s b c src l) :)
@[simp] theorem State.logIn_pending (s : State) (b c src : Nat) (l : List Byte) : (s.logIn b c src l).pending = s.pending := (congrArg State.pending (State.logIn_eq s b c src l) :)
@[simp] theorem State.logIn_acts (s : State) (b c src : Nat) (l : List Byte) : (s.logIn b c src l).acts = s.acts := (congrArg State.acts (State.logIn_eq s b c src l) :)
@[simp] theorem State.logIn_freeCtr (s : State) (b c src : Nat) (l : List Byte) : (s.logIn b c src l).freeCtr = s.freeCtr := (congrArg State.freeCtr (State.logIn_eq s b c src l) :)

@[simp] theorem State.logS_mem (s : State) (c : Nat) (l : List Byte) : (s.logS c l).mem = s.mem := (congrArg State.mem (State.logIn_eq s 0 c 0 l) :)
@[simp] theorem State.logS_power (s : State) (c : Nat) (l : List Byte) : (s.logS c l).power = s.power := (congrArg State.power (State.logIn_eq s 0 c 0 l) :)
@[simp] theorem State.logS_stk (s : State) (c : Nat) (l : List Byte) : (s.logS c l).stk = s.stk := (congrArg State.stk (State.logIn_eq s 0 c 0 l) :)
@[simp] theorem State.logS_cam (s : State) (c : Nat) (l : List Byte) : (s.logS c l).cam = s.cam := (congrArg State.cam (State.logIn_eq s 0 c 0 l) :)
@[simp] theorem State.logS_con0 (s : State) (c : Nat) (l : List Byte) : (s.logS c l).con0 = s.con0 := (congrArg State.con0 (State.logIn_eq s 0 c 0 l) :)
@[simp] theorem State.logS_con1 (s : State) (c : Nat) (l : List Byte) : (s.logS c l).con1 = s.con1 := (congrArg State.con1 (State.logIn_eq s 0 c 0 l) :)
@[simp] theorem State.logS_parts (s : State) (c : Nat) (l : List Byte) : (s.logS c l).parts = s.parts := (congrArg State.parts (State.logIn_eq s 0 c 0 l) :)
@[simp] theorem State.logS_ctxs (s : State) (c : Nat) (l : List Byte) : (s.logS c l).ctxs = s.ctxs := (congrArg State.ctxs (State.logIn_eq s 0 c 0 l) :)
@[simp] theorem State.logS_sculls (s : State) (c : Nat) (l : List Byte) : (s.logS c l).sculls = s.sculls := (congrArg State.sculls (State.logIn_eq s 0 c 0 l) :)
@[simp] theorem State.logS_inForce (s : State) (c : Nat) (l : List Byte) : (s.logS c l).inForce = s.inForce := (congrArg State.inForce (State.logIn_eq s 0 c 0 l) :)
@[simp] theorem State.logS_nv (s : State) (c : Nat) (l : List Byte) : (s.logS c l).nv = s.nv := (congrArg State.nv (State.logIn_eq s 0 c 0 l) :)
@[simp] theorem State.logS_ao (s : State) (c : Nat) (l : List Byte) : (s.logS c l).ao = s.ao := (congrArg State.ao (State.logIn_eq s 0 c 0 l) :)
@[simp] theorem State.logS_tally (s : State) (c : Nat) (l : List Byte) : (s.logS c l).tally = s.tally := (congrArg State.tally (State.logIn_eq s 0 c 0 l) :)
@[simp] theorem State.logS_dbg (s : State) (c : Nat) (l : List Byte) : (s.logS c l).dbg = s.dbg := (congrArg State.dbg (State.logIn_eq s 0 c 0 l) :)
@[simp] theorem State.logS_cca (s : State) (c : Nat) (l : List Byte) : (s.logS c l).cca = s.cca := (congrArg State.cca (State.logIn_eq s 0 c 0 l) :)
@[simp] theorem State.logS_meas (s : State) (c : Nat) (l : List Byte) : (s.logS c l).meas = s.meas := (congrArg State.meas (State.logIn_eq s 0 c 0 l) :)
@[simp] theorem State.logS_ctr (s : State) (c : Nat) (l : List Byte) : (s.logS c l).ctr = s.ctr := (congrArg State.ctr (State.logIn_eq s 0 c 0 l) :)
@[simp] theorem State.logS_mdi (s : State) (c : Nat) (l : List Byte) : (s.logS c l).mdi = s.mdi := (congrArg State.mdi (State.logIn_eq s 0 c 0 l) :)
@[simp] theorem State.logS_sin (s : State) (c : Nat) (l : List Byte) : (s.logS c l).sin = s.sin := (congrArg State.sin (State.logIn_eq s 0 c 0 l) :)
@[simp] theorem State.logS_imd (s : State) (c : Nat) (l : List Byte) : (s.logS c l).imd = s.imd := (congrArg State.imd (State.logIn_eq s 0 c 0 l) :)
@[simp] theorem State.logS_seats (s : State) (c : Nat) (l : List Byte) : (s.logS c l).seats = s.seats := (congrArg State.seats (State.logIn_eq s 0 c 0 l) :)
@[simp] theorem State.logS_kpa (s : State) (c : Nat) (l : List Byte) : (s.logS c l).kpa = s.kpa := (congrArg State.kpa (State.logIn_eq s 0 c 0 l) :)
@[simp] theorem State.logS_cans (s : State) (c : Nat) (l : List Byte) : (s.logS c l).cans = s.cans := (congrArg State.cans (State.logIn_eq s 0 c 0 l) :)
@[simp] theorem State.logS_qp (s : State) (c : Nat) (l : List Byte) : (s.logS c l).qp = s.qp := (congrArg State.qp (State.logIn_eq s 0 c 0 l) :)
@[simp] theorem State.logS_tag (s : State) (c : Nat) (l : List Byte) : (s.logS c l).tag = s.tag := (congrArg State.tag (State.logIn_eq s 0 c 0 l) :)
@[simp] theorem State.logS_chn (s : State) (c : Nat) (l : List Byte) : (s.logS c l).chn = s.chn := (congrArg State.chn (State.logIn_eq s 0 c 0 l) :)
@[simp] theorem State.logS_rad (s : State) (c : Nat) (l : List Byte) : (s.logS c l).rad = s.rad := (congrArg State.rad (State.logIn_eq s 0 c 0 l) :)
@[simp] theorem State.logS_est (s : State) (c : Nat) (l : List Byte) : (s.logS c l).est = s.est := (congrArg State.est (State.logIn_eq s 0 c 0 l) :)
@[simp] theorem State.logS_crew (s : State) (c : Nat) (l : List Byte) : (s.logS c l).crew = s.crew := (congrArg State.crew (State.logIn_eq s 0 c 0 l) :)
@[simp] theorem State.logS_rdata (s : State) (c : Nat) (l : List Byte) : (s.logS c l).rdata = s.rdata := (congrArg State.rdata (State.logIn_eq s 0 c 0 l) :)
@[simp] theorem State.logS_sec (s : State) (c : Nat) (l : List Byte) : (s.logS c l).sec = s.sec := (congrArg State.sec (State.logIn_eq s 0 c 0 l) :)
@[simp] theorem State.logS_pending (s : State) (c : Nat) (l : List Byte) : (s.logS c l).pending = s.pending := (congrArg State.pending (State.logIn_eq s 0 c 0 l) :)
@[simp] theorem State.logS_acts (s : State) (c : Nat) (l : List Byte) : (s.logS c l).acts = s.acts := (congrArg State.acts (State.logIn_eq s 0 c 0 l) :)
@[simp] theorem State.logS_freeCtr (s : State) (c : Nat) (l : List Byte) : (s.logS c l).freeCtr = s.freeCtr := (congrArg State.freeCtr (State.logIn_eq s 0 c 0 l) :)

@[simp] theorem State.logT0_mem (s : State) (c : Nat) (l : List Byte) : (s.logT0 c l).mem = s.mem := (congrArg State.mem (State.logIn_eq s 1 c 0 l) :)
@[simp] theorem State.logT0_power (s : State) (c : Nat) (l : List Byte) : (s.logT0 c l).power = s.power := (congrArg State.power (State.logIn_eq s 1 c 0 l) :)
@[simp] theorem State.logT0_stk (s : State) (c : Nat) (l : List Byte) : (s.logT0 c l).stk = s.stk := (congrArg State.stk (State.logIn_eq s 1 c 0 l) :)
@[simp] theorem State.logT0_cam (s : State) (c : Nat) (l : List Byte) : (s.logT0 c l).cam = s.cam := (congrArg State.cam (State.logIn_eq s 1 c 0 l) :)
@[simp] theorem State.logT0_con0 (s : State) (c : Nat) (l : List Byte) : (s.logT0 c l).con0 = s.con0 := (congrArg State.con0 (State.logIn_eq s 1 c 0 l) :)
@[simp] theorem State.logT0_con1 (s : State) (c : Nat) (l : List Byte) : (s.logT0 c l).con1 = s.con1 := (congrArg State.con1 (State.logIn_eq s 1 c 0 l) :)
@[simp] theorem State.logT0_parts (s : State) (c : Nat) (l : List Byte) : (s.logT0 c l).parts = s.parts := (congrArg State.parts (State.logIn_eq s 1 c 0 l) :)
@[simp] theorem State.logT0_ctxs (s : State) (c : Nat) (l : List Byte) : (s.logT0 c l).ctxs = s.ctxs := (congrArg State.ctxs (State.logIn_eq s 1 c 0 l) :)
@[simp] theorem State.logT0_sculls (s : State) (c : Nat) (l : List Byte) : (s.logT0 c l).sculls = s.sculls := (congrArg State.sculls (State.logIn_eq s 1 c 0 l) :)
@[simp] theorem State.logT0_inForce (s : State) (c : Nat) (l : List Byte) : (s.logT0 c l).inForce = s.inForce := (congrArg State.inForce (State.logIn_eq s 1 c 0 l) :)
@[simp] theorem State.logT0_nv (s : State) (c : Nat) (l : List Byte) : (s.logT0 c l).nv = s.nv := (congrArg State.nv (State.logIn_eq s 1 c 0 l) :)
@[simp] theorem State.logT0_ao (s : State) (c : Nat) (l : List Byte) : (s.logT0 c l).ao = s.ao := (congrArg State.ao (State.logIn_eq s 1 c 0 l) :)
@[simp] theorem State.logT0_tally (s : State) (c : Nat) (l : List Byte) : (s.logT0 c l).tally = s.tally := (congrArg State.tally (State.logIn_eq s 1 c 0 l) :)
@[simp] theorem State.logT0_dbg (s : State) (c : Nat) (l : List Byte) : (s.logT0 c l).dbg = s.dbg := (congrArg State.dbg (State.logIn_eq s 1 c 0 l) :)
@[simp] theorem State.logT0_cca (s : State) (c : Nat) (l : List Byte) : (s.logT0 c l).cca = s.cca := (congrArg State.cca (State.logIn_eq s 1 c 0 l) :)
@[simp] theorem State.logT0_meas (s : State) (c : Nat) (l : List Byte) : (s.logT0 c l).meas = s.meas := (congrArg State.meas (State.logIn_eq s 1 c 0 l) :)
@[simp] theorem State.logT0_ctr (s : State) (c : Nat) (l : List Byte) : (s.logT0 c l).ctr = s.ctr := (congrArg State.ctr (State.logIn_eq s 1 c 0 l) :)
@[simp] theorem State.logT0_mdi (s : State) (c : Nat) (l : List Byte) : (s.logT0 c l).mdi = s.mdi := (congrArg State.mdi (State.logIn_eq s 1 c 0 l) :)
@[simp] theorem State.logT0_sin (s : State) (c : Nat) (l : List Byte) : (s.logT0 c l).sin = s.sin := (congrArg State.sin (State.logIn_eq s 1 c 0 l) :)
@[simp] theorem State.logT0_imd (s : State) (c : Nat) (l : List Byte) : (s.logT0 c l).imd = s.imd := (congrArg State.imd (State.logIn_eq s 1 c 0 l) :)
@[simp] theorem State.logT0_seats (s : State) (c : Nat) (l : List Byte) : (s.logT0 c l).seats = s.seats := (congrArg State.seats (State.logIn_eq s 1 c 0 l) :)
@[simp] theorem State.logT0_kpa (s : State) (c : Nat) (l : List Byte) : (s.logT0 c l).kpa = s.kpa := (congrArg State.kpa (State.logIn_eq s 1 c 0 l) :)
@[simp] theorem State.logT0_cans (s : State) (c : Nat) (l : List Byte) : (s.logT0 c l).cans = s.cans := (congrArg State.cans (State.logIn_eq s 1 c 0 l) :)
@[simp] theorem State.logT0_qp (s : State) (c : Nat) (l : List Byte) : (s.logT0 c l).qp = s.qp := (congrArg State.qp (State.logIn_eq s 1 c 0 l) :)
@[simp] theorem State.logT0_tag (s : State) (c : Nat) (l : List Byte) : (s.logT0 c l).tag = s.tag := (congrArg State.tag (State.logIn_eq s 1 c 0 l) :)
@[simp] theorem State.logT0_chn (s : State) (c : Nat) (l : List Byte) : (s.logT0 c l).chn = s.chn := (congrArg State.chn (State.logIn_eq s 1 c 0 l) :)
@[simp] theorem State.logT0_rad (s : State) (c : Nat) (l : List Byte) : (s.logT0 c l).rad = s.rad := (congrArg State.rad (State.logIn_eq s 1 c 0 l) :)
@[simp] theorem State.logT0_est (s : State) (c : Nat) (l : List Byte) : (s.logT0 c l).est = s.est := (congrArg State.est (State.logIn_eq s 1 c 0 l) :)
@[simp] theorem State.logT0_crew (s : State) (c : Nat) (l : List Byte) : (s.logT0 c l).crew = s.crew := (congrArg State.crew (State.logIn_eq s 1 c 0 l) :)
@[simp] theorem State.logT0_rdata (s : State) (c : Nat) (l : List Byte) : (s.logT0 c l).rdata = s.rdata := (congrArg State.rdata (State.logIn_eq s 1 c 0 l) :)
@[simp] theorem State.logT0_sec (s : State) (c : Nat) (l : List Byte) : (s.logT0 c l).sec = s.sec := (congrArg State.sec (State.logIn_eq s 1 c 0 l) :)
@[simp] theorem State.logT0_pending (s : State) (c : Nat) (l : List Byte) : (s.logT0 c l).pending = s.pending := (congrArg State.pending (State.logIn_eq s 1 c 0 l) :)
@[simp] theorem State.logT0_acts (s : State) (c : Nat) (l : List Byte) : (s.logT0 c l).acts = s.acts := (congrArg State.acts (State.logIn_eq s 1 c 0 l) :)
@[simp] theorem State.logT0_freeCtr (s : State) (c : Nat) (l : List Byte) : (s.logT0 c l).freeCtr = s.freeCtr := (congrArg State.freeCtr (State.logIn_eq s 1 c 0 l) :)

@[simp] theorem State.logS0_mem (s : State) (c : Nat) (l : List Byte) : (s.logS0 c l).mem = s.mem := (congrArg State.mem (State.logS0_eq s c l) :)
@[simp] theorem State.logS0_power (s : State) (c : Nat) (l : List Byte) : (s.logS0 c l).power = s.power := (congrArg State.power (State.logS0_eq s c l) :)
@[simp] theorem State.logS0_stk (s : State) (c : Nat) (l : List Byte) : (s.logS0 c l).stk = s.stk := (congrArg State.stk (State.logS0_eq s c l) :)
@[simp] theorem State.logS0_cam (s : State) (c : Nat) (l : List Byte) : (s.logS0 c l).cam = s.cam := (congrArg State.cam (State.logS0_eq s c l) :)
@[simp] theorem State.logS0_con0 (s : State) (c : Nat) (l : List Byte) : (s.logS0 c l).con0 = s.con0 := (congrArg State.con0 (State.logS0_eq s c l) :)
@[simp] theorem State.logS0_con1 (s : State) (c : Nat) (l : List Byte) : (s.logS0 c l).con1 = s.con1 := (congrArg State.con1 (State.logS0_eq s c l) :)
@[simp] theorem State.logS0_parts (s : State) (c : Nat) (l : List Byte) : (s.logS0 c l).parts = s.parts := (congrArg State.parts (State.logS0_eq s c l) :)
@[simp] theorem State.logS0_ctxs (s : State) (c : Nat) (l : List Byte) : (s.logS0 c l).ctxs = s.ctxs := (congrArg State.ctxs (State.logS0_eq s c l) :)
@[simp] theorem State.logS0_sculls (s : State) (c : Nat) (l : List Byte) : (s.logS0 c l).sculls = s.sculls := (congrArg State.sculls (State.logS0_eq s c l) :)
@[simp] theorem State.logS0_inForce (s : State) (c : Nat) (l : List Byte) : (s.logS0 c l).inForce = s.inForce := (congrArg State.inForce (State.logS0_eq s c l) :)
@[simp] theorem State.logS0_nv (s : State) (c : Nat) (l : List Byte) : (s.logS0 c l).nv = s.nv := (congrArg State.nv (State.logS0_eq s c l) :)
@[simp] theorem State.logS0_ao (s : State) (c : Nat) (l : List Byte) : (s.logS0 c l).ao = s.ao := (congrArg State.ao (State.logS0_eq s c l) :)
@[simp] theorem State.logS0_tally (s : State) (c : Nat) (l : List Byte) : (s.logS0 c l).tally = s.tally := (congrArg State.tally (State.logS0_eq s c l) :)
@[simp] theorem State.logS0_dbg (s : State) (c : Nat) (l : List Byte) : (s.logS0 c l).dbg = s.dbg := (congrArg State.dbg (State.logS0_eq s c l) :)
@[simp] theorem State.logS0_cca (s : State) (c : Nat) (l : List Byte) : (s.logS0 c l).cca = s.cca := (congrArg State.cca (State.logS0_eq s c l) :)
@[simp] theorem State.logS0_meas (s : State) (c : Nat) (l : List Byte) : (s.logS0 c l).meas = s.meas := (congrArg State.meas (State.logS0_eq s c l) :)
@[simp] theorem State.logS0_ctr (s : State) (c : Nat) (l : List Byte) : (s.logS0 c l).ctr = s.ctr := (congrArg State.ctr (State.logS0_eq s c l) :)
@[simp] theorem State.logS0_mdi (s : State) (c : Nat) (l : List Byte) : (s.logS0 c l).mdi = s.mdi := (congrArg State.mdi (State.logS0_eq s c l) :)
@[simp] theorem State.logS0_sin (s : State) (c : Nat) (l : List Byte) : (s.logS0 c l).sin = s.sin := (congrArg State.sin (State.logS0_eq s c l) :)
@[simp] theorem State.logS0_imd (s : State) (c : Nat) (l : List Byte) : (s.logS0 c l).imd = s.imd := (congrArg State.imd (State.logS0_eq s c l) :)
@[simp] theorem State.logS0_seats (s : State) (c : Nat) (l : List Byte) : (s.logS0 c l).seats = s.seats := (congrArg State.seats (State.logS0_eq s c l) :)
@[simp] theorem State.logS0_kpa (s : State) (c : Nat) (l : List Byte) : (s.logS0 c l).kpa = s.kpa := (congrArg State.kpa (State.logS0_eq s c l) :)
@[simp] theorem State.logS0_cans (s : State) (c : Nat) (l : List Byte) : (s.logS0 c l).cans = s.cans := (congrArg State.cans (State.logS0_eq s c l) :)
@[simp] theorem State.logS0_qp (s : State) (c : Nat) (l : List Byte) : (s.logS0 c l).qp = s.qp := (congrArg State.qp (State.logS0_eq s c l) :)
@[simp] theorem State.logS0_tag (s : State) (c : Nat) (l : List Byte) : (s.logS0 c l).tag = s.tag := (congrArg State.tag (State.logS0_eq s c l) :)
@[simp] theorem State.logS0_chn (s : State) (c : Nat) (l : List Byte) : (s.logS0 c l).chn = s.chn := (congrArg State.chn (State.logS0_eq s c l) :)
@[simp] theorem State.logS0_rad (s : State) (c : Nat) (l : List Byte) : (s.logS0 c l).rad = s.rad := (congrArg State.rad (State.logS0_eq s c l) :)
@[simp] theorem State.logS0_est (s : State) (c : Nat) (l : List Byte) : (s.logS0 c l).est = s.est := (congrArg State.est (State.logS0_eq s c l) :)
@[simp] theorem State.logS0_crew (s : State) (c : Nat) (l : List Byte) : (s.logS0 c l).crew = s.crew := (congrArg State.crew (State.logS0_eq s c l) :)
@[simp] theorem State.logS0_rdata (s : State) (c : Nat) (l : List Byte) : (s.logS0 c l).rdata = s.rdata := (congrArg State.rdata (State.logS0_eq s c l) :)
@[simp] theorem State.logS0_sec (s : State) (c : Nat) (l : List Byte) : (s.logS0 c l).sec = s.sec := (congrArg State.sec (State.logS0_eq s c l) :)
@[simp] theorem State.logS0_pending (s : State) (c : Nat) (l : List Byte) : (s.logS0 c l).pending = s.pending := (congrArg State.pending (State.logS0_eq s c l) :)
@[simp] theorem State.logS0_acts (s : State) (c : Nat) (l : List Byte) : (s.logS0 c l).acts = s.acts := (congrArg State.acts (State.logS0_eq s c l) :)
@[simp] theorem State.logS0_freeCtr (s : State) (c : Nat) (l : List Byte) : (s.logS0 c l).freeCtr = s.freeCtr := (congrArg State.freeCtr (State.logS0_eq s c l) :)

@[simp] theorem State.logSK_mem (s : State) (k c : Nat) (l : List Byte) : (s.logSK k c l).mem = s.mem := (congrArg State.mem (State.logSK_eq s k c l) :)
@[simp] theorem State.logSK_power (s : State) (k c : Nat) (l : List Byte) : (s.logSK k c l).power = s.power := (congrArg State.power (State.logSK_eq s k c l) :)
@[simp] theorem State.logSK_stk (s : State) (k c : Nat) (l : List Byte) : (s.logSK k c l).stk = s.stk := (congrArg State.stk (State.logSK_eq s k c l) :)
@[simp] theorem State.logSK_cam (s : State) (k c : Nat) (l : List Byte) : (s.logSK k c l).cam = s.cam := (congrArg State.cam (State.logSK_eq s k c l) :)
@[simp] theorem State.logSK_con0 (s : State) (k c : Nat) (l : List Byte) : (s.logSK k c l).con0 = s.con0 := (congrArg State.con0 (State.logSK_eq s k c l) :)
@[simp] theorem State.logSK_con1 (s : State) (k c : Nat) (l : List Byte) : (s.logSK k c l).con1 = s.con1 := (congrArg State.con1 (State.logSK_eq s k c l) :)
@[simp] theorem State.logSK_parts (s : State) (k c : Nat) (l : List Byte) : (s.logSK k c l).parts = s.parts := (congrArg State.parts (State.logSK_eq s k c l) :)
@[simp] theorem State.logSK_ctxs (s : State) (k c : Nat) (l : List Byte) : (s.logSK k c l).ctxs = s.ctxs := (congrArg State.ctxs (State.logSK_eq s k c l) :)
@[simp] theorem State.logSK_sculls (s : State) (k c : Nat) (l : List Byte) : (s.logSK k c l).sculls = s.sculls := (congrArg State.sculls (State.logSK_eq s k c l) :)
@[simp] theorem State.logSK_inForce (s : State) (k c : Nat) (l : List Byte) : (s.logSK k c l).inForce = s.inForce := (congrArg State.inForce (State.logSK_eq s k c l) :)
@[simp] theorem State.logSK_nv (s : State) (k c : Nat) (l : List Byte) : (s.logSK k c l).nv = s.nv := (congrArg State.nv (State.logSK_eq s k c l) :)
@[simp] theorem State.logSK_ao (s : State) (k c : Nat) (l : List Byte) : (s.logSK k c l).ao = s.ao := (congrArg State.ao (State.logSK_eq s k c l) :)
@[simp] theorem State.logSK_tally (s : State) (k c : Nat) (l : List Byte) : (s.logSK k c l).tally = s.tally := (congrArg State.tally (State.logSK_eq s k c l) :)
@[simp] theorem State.logSK_dbg (s : State) (k c : Nat) (l : List Byte) : (s.logSK k c l).dbg = s.dbg := (congrArg State.dbg (State.logSK_eq s k c l) :)
@[simp] theorem State.logSK_cca (s : State) (k c : Nat) (l : List Byte) : (s.logSK k c l).cca = s.cca := (congrArg State.cca (State.logSK_eq s k c l) :)
@[simp] theorem State.logSK_meas (s : State) (k c : Nat) (l : List Byte) : (s.logSK k c l).meas = s.meas := (congrArg State.meas (State.logSK_eq s k c l) :)
@[simp] theorem State.logSK_ctr (s : State) (k c : Nat) (l : List Byte) : (s.logSK k c l).ctr = s.ctr := (congrArg State.ctr (State.logSK_eq s k c l) :)
@[simp] theorem State.logSK_mdi (s : State) (k c : Nat) (l : List Byte) : (s.logSK k c l).mdi = s.mdi := (congrArg State.mdi (State.logSK_eq s k c l) :)
@[simp] theorem State.logSK_sin (s : State) (k c : Nat) (l : List Byte) : (s.logSK k c l).sin = s.sin := (congrArg State.sin (State.logSK_eq s k c l) :)
@[simp] theorem State.logSK_imd (s : State) (k c : Nat) (l : List Byte) : (s.logSK k c l).imd = s.imd := (congrArg State.imd (State.logSK_eq s k c l) :)
@[simp] theorem State.logSK_seats (s : State) (k c : Nat) (l : List Byte) : (s.logSK k c l).seats = s.seats := (congrArg State.seats (State.logSK_eq s k c l) :)
@[simp] theorem State.logSK_kpa (s : State) (k c : Nat) (l : List Byte) : (s.logSK k c l).kpa = s.kpa := (congrArg State.kpa (State.logSK_eq s k c l) :)
@[simp] theorem State.logSK_cans (s : State) (k c : Nat) (l : List Byte) : (s.logSK k c l).cans = s.cans := (congrArg State.cans (State.logSK_eq s k c l) :)
@[simp] theorem State.logSK_qp (s : State) (k c : Nat) (l : List Byte) : (s.logSK k c l).qp = s.qp := (congrArg State.qp (State.logSK_eq s k c l) :)
@[simp] theorem State.logSK_tag (s : State) (k c : Nat) (l : List Byte) : (s.logSK k c l).tag = s.tag := (congrArg State.tag (State.logSK_eq s k c l) :)
@[simp] theorem State.logSK_chn (s : State) (k c : Nat) (l : List Byte) : (s.logSK k c l).chn = s.chn := (congrArg State.chn (State.logSK_eq s k c l) :)
@[simp] theorem State.logSK_rad (s : State) (k c : Nat) (l : List Byte) : (s.logSK k c l).rad = s.rad := (congrArg State.rad (State.logSK_eq s k c l) :)
@[simp] theorem State.logSK_est (s : State) (k c : Nat) (l : List Byte) : (s.logSK k c l).est = s.est := (congrArg State.est (State.logSK_eq s k c l) :)
@[simp] theorem State.logSK_crew (s : State) (k c : Nat) (l : List Byte) : (s.logSK k c l).crew = s.crew := (congrArg State.crew (State.logSK_eq s k c l) :)
@[simp] theorem State.logSK_rdata (s : State) (k c : Nat) (l : List Byte) : (s.logSK k c l).rdata = s.rdata := (congrArg State.rdata (State.logSK_eq s k c l) :)
@[simp] theorem State.logSK_sec (s : State) (k c : Nat) (l : List Byte) : (s.logSK k c l).sec = s.sec := (congrArg State.sec (State.logSK_eq s k c l) :)
@[simp] theorem State.logSK_pending (s : State) (k c : Nat) (l : List Byte) : (s.logSK k c l).pending = s.pending := (congrArg State.pending (State.logSK_eq s k c l) :)
@[simp] theorem State.logSK_acts (s : State) (k c : Nat) (l : List Byte) : (s.logSK k c l).acts = s.acts := (congrArg State.acts (State.logSK_eq s k c l) :)
@[simp] theorem State.logSK_freeCtr (s : State) (k c : Nat) (l : List Byte) : (s.logSK k c l).freeCtr = s.freeCtr := (congrArg State.freeCtr (State.logSK_eq s k c l) :)

/-! Consoles -/

theorem State.setCon_eq (s : State) (p : Nat) (c : ConSt) : s.setCon p c = { s with con0 := (s.setCon p c).con0, con1 := (s.setCon p c).con1 } := by
  unfold State.setCon
  split <;> rfl

@[simp] theorem State.setCon_regs (s : State) (p : Nat) (c : ConSt) : (s.setCon p c).regs = s.regs := (congrArg State.regs (State.setCon_eq s p c) :)
@[simp] theorem State.setCon_mem (s : State) (p : Nat) (c : ConSt) : (s.setCon p c).mem = s.mem := (congrArg State.mem (State.setCon_eq s p c) :)
@[simp] theorem State.setCon_power (s : State) (p : Nat) (c : ConSt) : (s.setCon p c).power = s.power := (congrArg State.power (State.setCon_eq s p c) :)
@[simp] theorem State.setCon_stk (s : State) (p : Nat) (c : ConSt) : (s.setCon p c).stk = s.stk := (congrArg State.stk (State.setCon_eq s p c) :)
@[simp] theorem State.setCon_cam (s : State) (p : Nat) (c : ConSt) : (s.setCon p c).cam = s.cam := (congrArg State.cam (State.setCon_eq s p c) :)
@[simp] theorem State.setCon_log (s : State) (p : Nat) (c : ConSt) : (s.setCon p c).log = s.log := (congrArg State.log (State.setCon_eq s p c) :)
@[simp] theorem State.setCon_parts (s : State) (p : Nat) (c : ConSt) : (s.setCon p c).parts = s.parts := (congrArg State.parts (State.setCon_eq s p c) :)
@[simp] theorem State.setCon_ctxs (s : State) (p : Nat) (c : ConSt) : (s.setCon p c).ctxs = s.ctxs := (congrArg State.ctxs (State.setCon_eq s p c) :)
@[simp] theorem State.setCon_sculls (s : State) (p : Nat) (c : ConSt) : (s.setCon p c).sculls = s.sculls := (congrArg State.sculls (State.setCon_eq s p c) :)
@[simp] theorem State.setCon_inForce (s : State) (p : Nat) (c : ConSt) : (s.setCon p c).inForce = s.inForce := (congrArg State.inForce (State.setCon_eq s p c) :)
@[simp] theorem State.setCon_nv (s : State) (p : Nat) (c : ConSt) : (s.setCon p c).nv = s.nv := (congrArg State.nv (State.setCon_eq s p c) :)
@[simp] theorem State.setCon_ao (s : State) (p : Nat) (c : ConSt) : (s.setCon p c).ao = s.ao := (congrArg State.ao (State.setCon_eq s p c) :)
@[simp] theorem State.setCon_tally (s : State) (p : Nat) (c : ConSt) : (s.setCon p c).tally = s.tally := (congrArg State.tally (State.setCon_eq s p c) :)
@[simp] theorem State.setCon_dbg (s : State) (p : Nat) (c : ConSt) : (s.setCon p c).dbg = s.dbg := (congrArg State.dbg (State.setCon_eq s p c) :)
@[simp] theorem State.setCon_cca (s : State) (p : Nat) (c : ConSt) : (s.setCon p c).cca = s.cca := (congrArg State.cca (State.setCon_eq s p c) :)
@[simp] theorem State.setCon_meas (s : State) (p : Nat) (c : ConSt) : (s.setCon p c).meas = s.meas := (congrArg State.meas (State.setCon_eq s p c) :)
@[simp] theorem State.setCon_ctr (s : State) (p : Nat) (c : ConSt) : (s.setCon p c).ctr = s.ctr := (congrArg State.ctr (State.setCon_eq s p c) :)
@[simp] theorem State.setCon_mdi (s : State) (p : Nat) (c : ConSt) : (s.setCon p c).mdi = s.mdi := (congrArg State.mdi (State.setCon_eq s p c) :)
@[simp] theorem State.setCon_sin (s : State) (p : Nat) (c : ConSt) : (s.setCon p c).sin = s.sin := (congrArg State.sin (State.setCon_eq s p c) :)
@[simp] theorem State.setCon_imd (s : State) (p : Nat) (c : ConSt) : (s.setCon p c).imd = s.imd := (congrArg State.imd (State.setCon_eq s p c) :)
@[simp] theorem State.setCon_seats (s : State) (p : Nat) (c : ConSt) : (s.setCon p c).seats = s.seats := (congrArg State.seats (State.setCon_eq s p c) :)
@[simp] theorem State.setCon_kpa (s : State) (p : Nat) (c : ConSt) : (s.setCon p c).kpa = s.kpa := (congrArg State.kpa (State.setCon_eq s p c) :)
@[simp] theorem State.setCon_cans (s : State) (p : Nat) (c : ConSt) : (s.setCon p c).cans = s.cans := (congrArg State.cans (State.setCon_eq s p c) :)
@[simp] theorem State.setCon_qp (s : State) (p : Nat) (c : ConSt) : (s.setCon p c).qp = s.qp := (congrArg State.qp (State.setCon_eq s p c) :)
@[simp] theorem State.setCon_tag (s : State) (p : Nat) (c : ConSt) : (s.setCon p c).tag = s.tag := (congrArg State.tag (State.setCon_eq s p c) :)
@[simp] theorem State.setCon_chn (s : State) (p : Nat) (c : ConSt) : (s.setCon p c).chn = s.chn := (congrArg State.chn (State.setCon_eq s p c) :)
@[simp] theorem State.setCon_rad (s : State) (p : Nat) (c : ConSt) : (s.setCon p c).rad = s.rad := (congrArg State.rad (State.setCon_eq s p c) :)
@[simp] theorem State.setCon_est (s : State) (p : Nat) (c : ConSt) : (s.setCon p c).est = s.est := (congrArg State.est (State.setCon_eq s p c) :)
@[simp] theorem State.setCon_crew (s : State) (p : Nat) (c : ConSt) : (s.setCon p c).crew = s.crew := (congrArg State.crew (State.setCon_eq s p c) :)
@[simp] theorem State.setCon_rdata (s : State) (p : Nat) (c : ConSt) : (s.setCon p c).rdata = s.rdata := (congrArg State.rdata (State.setCon_eq s p c) :)
@[simp] theorem State.setCon_sec (s : State) (p : Nat) (c : ConSt) : (s.setCon p c).sec = s.sec := (congrArg State.sec (State.setCon_eq s p c) :)
@[simp] theorem State.setCon_pending (s : State) (p : Nat) (c : ConSt) : (s.setCon p c).pending = s.pending := (congrArg State.pending (State.setCon_eq s p c) :)
@[simp] theorem State.setCon_acts (s : State) (p : Nat) (c : ConSt) : (s.setCon p c).acts = s.acts := (congrArg State.acts (State.setCon_eq s p c) :)
@[simp] theorem State.setCon_freeCtr (s : State) (p : Nat) (c : ConSt) : (s.setCon p c).freeCtr = s.freeCtr := (congrArg State.freeCtr (State.setCon_eq s p c) :)

@[simp] theorem State.con_setCon (s : State) (p : Nat) (c : ConSt) : (s.setCon p c).con p = c := by
  unfold State.con State.setCon
  split <;> rfl

/-- Only the two console ports changed. -/
abbrev ConFrame (s t : State) : Prop := t = { s with con0 := t.con0, con1 := t.con1 }

theorem ConFrame.trans {s t u : State} (h : ConFrame s t) (k : ConFrame t u) : ConFrame s u := by
  rw [k]
  exact congrArg (fun x : State => { x with con0 := u.con0, con1 := u.con1 }) h

theorem State.sayLine_eq (s : State) (p : Nat) (t : Option String) (m : Bool) (b : String) :
    s.sayLine p t m b = { s with con0 := (s.sayLine p t m b).con0, con1 := (s.sayLine p t m b).con1 } := State.setCon_eq _ _ _

theorem State.say_eq (s : State) (p : Nat) (t : Option String) (l : List String) :
    s.say p t l = { s with con0 := (s.say p t l).con0, con1 := (s.say p t l).con1 } := by
  induction l generalizing s with
  | nil => rfl
  | cons b r ih =>
    cases r with
    | nil => exact State.sayLine_eq _ _ _ _ _
    | cons c r => exact ConFrame.trans (State.sayLine_eq s p t true b) (ih _)

theorem State.notice_eq (s : State) (p : Nat) (b : String) :
    s.notice p b = { s with con0 := (s.notice p b).con0, con1 := (s.notice p b).con1 } := by
  unfold State.notice
  dsimp only
  split
  · rfl
  · split
    · exact State.setCon_eq _ _ _
    · split <;> exact State.setCon_eq _ _ _

theorem State.noticeAll_eq (s : State) (b : String) : ConFrame s (s.noticeAll b) := ConFrame.trans (State.notice_eq s 0 b) (State.notice_eq _ 1 b)

@[simp] theorem State.say_regs (s : State) (p : Nat) (t : Option String) (l : List String) : (s.say p t l).regs = s.regs := (congrArg State.regs (State.say_eq s p t l) :)
@[simp] theorem State.say_mem (s : State) (p : Nat) (t : Option String) (l : List String) : (s.say p t l).mem = s.mem := (congrArg State.mem (State.say_eq s p t l) :)
@[simp] theorem State.say_power (s : State) (p : Nat) (t : Option String) (l : List String) : (s.say p t l).power = s.power := (congrArg State.power (State.say_eq s p t l) :)
@[simp] theorem State.say_stk (s : State) (p : Nat) (t : Option String) (l : List String) : (s.say p t l).stk = s.stk := (congrArg State.stk (State.say_eq s p t l) :)
@[simp] theorem State.say_cam (s : State) (p : Nat) (t : Option String) (l : List String) : (s.say p t l).cam = s.cam := (congrArg State.cam (State.say_eq s p t l) :)
@[simp] theorem State.say_log (s : State) (p : Nat) (t : Option String) (l : List String) : (s.say p t l).log = s.log := (congrArg State.log (State.say_eq s p t l) :)
@[simp] theorem State.say_parts (s : State) (p : Nat) (t : Option String) (l : List String) : (s.say p t l).parts = s.parts := (congrArg State.parts (State.say_eq s p t l) :)
@[simp] theorem State.say_ctxs (s : State) (p : Nat) (t : Option String) (l : List String) : (s.say p t l).ctxs = s.ctxs := (congrArg State.ctxs (State.say_eq s p t l) :)
@[simp] theorem State.say_sculls (s : State) (p : Nat) (t : Option String) (l : List String) : (s.say p t l).sculls = s.sculls := (congrArg State.sculls (State.say_eq s p t l) :)
@[simp] theorem State.say_inForce (s : State) (p : Nat) (t : Option String) (l : List String) : (s.say p t l).inForce = s.inForce := (congrArg State.inForce (State.say_eq s p t l) :)
@[simp] theorem State.say_nv (s : State) (p : Nat) (t : Option String) (l : List String) : (s.say p t l).nv = s.nv := (congrArg State.nv (State.say_eq s p t l) :)
@[simp] theorem State.say_ao (s : State) (p : Nat) (t : Option String) (l : List String) : (s.say p t l).ao = s.ao := (congrArg State.ao (State.say_eq s p t l) :)
@[simp] theorem State.say_tally (s : State) (p : Nat) (t : Option String) (l : List String) : (s.say p t l).tally = s.tally := (congrArg State.tally (State.say_eq s p t l) :)
@[simp] theorem State.say_dbg (s : State) (p : Nat) (t : Option String) (l : List String) : (s.say p t l).dbg = s.dbg := (congrArg State.dbg (State.say_eq s p t l) :)
@[simp] theorem State.say_cca (s : State) (p : Nat) (t : Option String) (l : List String) : (s.say p t l).cca = s.cca := (congrArg State.cca (State.say_eq s p t l) :)
@[simp] theorem State.say_meas (s : State) (p : Nat) (t : Option String) (l : List String) : (s.say p t l).meas = s.meas := (congrArg State.meas (State.say_eq s p t l) :)
@[simp] theorem State.say_ctr (s : State) (p : Nat) (t : Option String) (l : List String) : (s.say p t l).ctr = s.ctr := (congrArg State.ctr (State.say_eq s p t l) :)
@[simp] theorem State.say_mdi (s : State) (p : Nat) (t : Option String) (l : List String) : (s.say p t l).mdi = s.mdi := (congrArg State.mdi (State.say_eq s p t l) :)
@[simp] theorem State.say_sin (s : State) (p : Nat) (t : Option String) (l : List String) : (s.say p t l).sin = s.sin := (congrArg State.sin (State.say_eq s p t l) :)
@[simp] theorem State.say_imd (s : State) (p : Nat) (t : Option String) (l : List String) : (s.say p t l).imd = s.imd := (congrArg State.imd (State.say_eq s p t l) :)
@[simp] theorem State.say_seats (s : State) (p : Nat) (t : Option String) (l : List String) : (s.say p t l).seats = s.seats := (congrArg State.seats (State.say_eq s p t l) :)
@[simp] theorem State.say_kpa (s : State) (p : Nat) (t : Option String) (l : List String) : (s.say p t l).kpa = s.kpa := (congrArg State.kpa (State.say_eq s p t l) :)
@[simp] theorem State.say_cans (s : State) (p : Nat) (t : Option String) (l : List String) : (s.say p t l).cans = s.cans := (congrArg State.cans (State.say_eq s p t l) :)
@[simp] theorem State.say_qp (s : State) (p : Nat) (t : Option String) (l : List String) : (s.say p t l).qp = s.qp := (congrArg State.qp (State.say_eq s p t l) :)
@[simp] theorem State.say_tag (s : State) (p : Nat) (t : Option String) (l : List String) : (s.say p t l).tag = s.tag := (congrArg State.tag (State.say_eq s p t l) :)
@[simp] theorem State.say_chn (s : State) (p : Nat) (t : Option String) (l : List String) : (s.say p t l).chn = s.chn := (congrArg State.chn (State.say_eq s p t l) :)
@[simp] theorem State.say_rad (s : State) (p : Nat) (t : Option String) (l : List String) : (s.say p t l).rad = s.rad := (congrArg State.rad (State.say_eq s p t l) :)
@[simp] theorem State.say_est (s : State) (p : Nat) (t : Option String) (l : List String) : (s.say p t l).est = s.est := (congrArg State.est (State.say_eq s p t l) :)
@[simp] theorem State.say_crew (s : State) (p : Nat) (t : Option String) (l : List String) : (s.say p t l).crew = s.crew := (congrArg State.crew (State.say_eq s p t l) :)
@[simp] theorem State.say_rdata (s : State) (p : Nat) (t : Option String) (l : List String) : (s.say p t l).rdata = s.rdata := (congrArg State.rdata (State.say_eq s p t l) :)
@[simp] theorem State.say_sec (s : State) (p : Nat) (t : Option String) (l : List String) : (s.say p t l).sec = s.sec := (congrArg State.sec (State.say_eq s p t l) :)
@[simp] theorem State.say_pending (s : State) (p : Nat) (t : Option String) (l : List String) : (s.say p t l).pending = s.pending := (congrArg State.pending (State.say_eq s p t l) :)
@[simp] theorem State.say_acts (s : State) (p : Nat) (t : Option String) (l : List String) : (s.say p t l).acts = s.acts := (congrArg State.acts (State.say_eq s p t l) :)
@[simp] theorem State.say_freeCtr (s : State) (p : Nat) (t : Option String) (l : List String) : (s.say p t l).freeCtr = s.freeCtr := (congrArg State.freeCtr (State.say_eq s p t l) :)

@[simp] theorem State.notice_regs (s : State) (p : Nat) (b : String) : (s.notice p b).regs = s.regs := (congrArg State.regs (State.notice_eq s p b) :)
@[simp] theorem State.notice_mem (s : State) (p : Nat) (b : String) : (s.notice p b).mem = s.mem := (congrArg State.mem (State.notice_eq s p b) :)
@[simp] theorem State.notice_power (s : State) (p : Nat) (b : String) : (s.notice p b).power = s.power := (congrArg State.power (State.notice_eq s p b) :)
@[simp] theorem State.notice_stk (s : State) (p : Nat) (b : String) : (s.notice p b).stk = s.stk := (congrArg State.stk (State.notice_eq s p b) :)
@[simp] theorem State.notice_cam (s : State) (p : Nat) (b : String) : (s.notice p b).cam = s.cam := (congrArg State.cam (State.notice_eq s p b) :)
@[simp] theorem State.notice_log (s : State) (p : Nat) (b : String) : (s.notice p b).log = s.log := (congrArg State.log (State.notice_eq s p b) :)
@[simp] theorem State.notice_parts (s : State) (p : Nat) (b : String) : (s.notice p b).parts = s.parts := (congrArg State.parts (State.notice_eq s p b) :)
@[simp] theorem State.notice_ctxs (s : State) (p : Nat) (b : String) : (s.notice p b).ctxs = s.ctxs := (congrArg State.ctxs (State.notice_eq s p b) :)
@[simp] theorem State.notice_sculls (s : State) (p : Nat) (b : String) : (s.notice p b).sculls = s.sculls := (congrArg State.sculls (State.notice_eq s p b) :)
@[simp] theorem State.notice_inForce (s : State) (p : Nat) (b : String) : (s.notice p b).inForce = s.inForce := (congrArg State.inForce (State.notice_eq s p b) :)
@[simp] theorem State.notice_nv (s : State) (p : Nat) (b : String) : (s.notice p b).nv = s.nv := (congrArg State.nv (State.notice_eq s p b) :)
@[simp] theorem State.notice_ao (s : State) (p : Nat) (b : String) : (s.notice p b).ao = s.ao := (congrArg State.ao (State.notice_eq s p b) :)
@[simp] theorem State.notice_tally (s : State) (p : Nat) (b : String) : (s.notice p b).tally = s.tally := (congrArg State.tally (State.notice_eq s p b) :)
@[simp] theorem State.notice_dbg (s : State) (p : Nat) (b : String) : (s.notice p b).dbg = s.dbg := (congrArg State.dbg (State.notice_eq s p b) :)
@[simp] theorem State.notice_cca (s : State) (p : Nat) (b : String) : (s.notice p b).cca = s.cca := (congrArg State.cca (State.notice_eq s p b) :)
@[simp] theorem State.notice_meas (s : State) (p : Nat) (b : String) : (s.notice p b).meas = s.meas := (congrArg State.meas (State.notice_eq s p b) :)
@[simp] theorem State.notice_ctr (s : State) (p : Nat) (b : String) : (s.notice p b).ctr = s.ctr := (congrArg State.ctr (State.notice_eq s p b) :)
@[simp] theorem State.notice_mdi (s : State) (p : Nat) (b : String) : (s.notice p b).mdi = s.mdi := (congrArg State.mdi (State.notice_eq s p b) :)
@[simp] theorem State.notice_sin (s : State) (p : Nat) (b : String) : (s.notice p b).sin = s.sin := (congrArg State.sin (State.notice_eq s p b) :)
@[simp] theorem State.notice_imd (s : State) (p : Nat) (b : String) : (s.notice p b).imd = s.imd := (congrArg State.imd (State.notice_eq s p b) :)
@[simp] theorem State.notice_seats (s : State) (p : Nat) (b : String) : (s.notice p b).seats = s.seats := (congrArg State.seats (State.notice_eq s p b) :)
@[simp] theorem State.notice_kpa (s : State) (p : Nat) (b : String) : (s.notice p b).kpa = s.kpa := (congrArg State.kpa (State.notice_eq s p b) :)
@[simp] theorem State.notice_cans (s : State) (p : Nat) (b : String) : (s.notice p b).cans = s.cans := (congrArg State.cans (State.notice_eq s p b) :)
@[simp] theorem State.notice_qp (s : State) (p : Nat) (b : String) : (s.notice p b).qp = s.qp := (congrArg State.qp (State.notice_eq s p b) :)
@[simp] theorem State.notice_tag (s : State) (p : Nat) (b : String) : (s.notice p b).tag = s.tag := (congrArg State.tag (State.notice_eq s p b) :)
@[simp] theorem State.notice_chn (s : State) (p : Nat) (b : String) : (s.notice p b).chn = s.chn := (congrArg State.chn (State.notice_eq s p b) :)
@[simp] theorem State.notice_rad (s : State) (p : Nat) (b : String) : (s.notice p b).rad = s.rad := (congrArg State.rad (State.notice_eq s p b) :)
@[simp] theorem State.notice_est (s : State) (p : Nat) (b : String) : (s.notice p b).est = s.est := (congrArg State.est (State.notice_eq s p b) :)
@[simp] theorem State.notice_crew (s : State) (p : Nat) (b : String) : (s.notice p b).crew = s.crew := (congrArg State.crew (State.notice_eq s p b) :)
@[simp] theorem State.notice_rdata (s : State) (p : Nat) (b : String) : (s.notice p b).rdata = s.rdata := (congrArg State.rdata (State.notice_eq s p b) :)
@[simp] theorem State.notice_sec (s : State) (p : Nat) (b : String) : (s.notice p b).sec = s.sec := (congrArg State.sec (State.notice_eq s p b) :)
@[simp] theorem State.notice_pending (s : State) (p : Nat) (b : String) : (s.notice p b).pending = s.pending := (congrArg State.pending (State.notice_eq s p b) :)
@[simp] theorem State.notice_acts (s : State) (p : Nat) (b : String) : (s.notice p b).acts = s.acts := (congrArg State.acts (State.notice_eq s p b) :)
@[simp] theorem State.notice_freeCtr (s : State) (p : Nat) (b : String) : (s.notice p b).freeCtr = s.freeCtr := (congrArg State.freeCtr (State.notice_eq s p b) :)

@[simp] theorem State.noticeAll_regs (s : State) (b : String) : (s.noticeAll b).regs = s.regs := (congrArg State.regs (State.noticeAll_eq s b) :)
@[simp] theorem State.noticeAll_mem (s : State) (b : String) : (s.noticeAll b).mem = s.mem := (congrArg State.mem (State.noticeAll_eq s b) :)
@[simp] theorem State.noticeAll_power (s : State) (b : String) : (s.noticeAll b).power = s.power := (congrArg State.power (State.noticeAll_eq s b) :)
@[simp] theorem State.noticeAll_stk (s : State) (b : String) : (s.noticeAll b).stk = s.stk := (congrArg State.stk (State.noticeAll_eq s b) :)
@[simp] theorem State.noticeAll_cam (s : State) (b : String) : (s.noticeAll b).cam = s.cam := (congrArg State.cam (State.noticeAll_eq s b) :)
@[simp] theorem State.noticeAll_log (s : State) (b : String) : (s.noticeAll b).log = s.log := (congrArg State.log (State.noticeAll_eq s b) :)
@[simp] theorem State.noticeAll_parts (s : State) (b : String) : (s.noticeAll b).parts = s.parts := (congrArg State.parts (State.noticeAll_eq s b) :)
@[simp] theorem State.noticeAll_ctxs (s : State) (b : String) : (s.noticeAll b).ctxs = s.ctxs := (congrArg State.ctxs (State.noticeAll_eq s b) :)
@[simp] theorem State.noticeAll_sculls (s : State) (b : String) : (s.noticeAll b).sculls = s.sculls := (congrArg State.sculls (State.noticeAll_eq s b) :)
@[simp] theorem State.noticeAll_inForce (s : State) (b : String) : (s.noticeAll b).inForce = s.inForce := (congrArg State.inForce (State.noticeAll_eq s b) :)
@[simp] theorem State.noticeAll_nv (s : State) (b : String) : (s.noticeAll b).nv = s.nv := (congrArg State.nv (State.noticeAll_eq s b) :)
@[simp] theorem State.noticeAll_ao (s : State) (b : String) : (s.noticeAll b).ao = s.ao := (congrArg State.ao (State.noticeAll_eq s b) :)
@[simp] theorem State.noticeAll_tally (s : State) (b : String) : (s.noticeAll b).tally = s.tally := (congrArg State.tally (State.noticeAll_eq s b) :)
@[simp] theorem State.noticeAll_dbg (s : State) (b : String) : (s.noticeAll b).dbg = s.dbg := (congrArg State.dbg (State.noticeAll_eq s b) :)
@[simp] theorem State.noticeAll_cca (s : State) (b : String) : (s.noticeAll b).cca = s.cca := (congrArg State.cca (State.noticeAll_eq s b) :)
@[simp] theorem State.noticeAll_meas (s : State) (b : String) : (s.noticeAll b).meas = s.meas := (congrArg State.meas (State.noticeAll_eq s b) :)
@[simp] theorem State.noticeAll_ctr (s : State) (b : String) : (s.noticeAll b).ctr = s.ctr := (congrArg State.ctr (State.noticeAll_eq s b) :)
@[simp] theorem State.noticeAll_mdi (s : State) (b : String) : (s.noticeAll b).mdi = s.mdi := (congrArg State.mdi (State.noticeAll_eq s b) :)
@[simp] theorem State.noticeAll_sin (s : State) (b : String) : (s.noticeAll b).sin = s.sin := (congrArg State.sin (State.noticeAll_eq s b) :)
@[simp] theorem State.noticeAll_imd (s : State) (b : String) : (s.noticeAll b).imd = s.imd := (congrArg State.imd (State.noticeAll_eq s b) :)
@[simp] theorem State.noticeAll_seats (s : State) (b : String) : (s.noticeAll b).seats = s.seats := (congrArg State.seats (State.noticeAll_eq s b) :)
@[simp] theorem State.noticeAll_kpa (s : State) (b : String) : (s.noticeAll b).kpa = s.kpa := (congrArg State.kpa (State.noticeAll_eq s b) :)
@[simp] theorem State.noticeAll_cans (s : State) (b : String) : (s.noticeAll b).cans = s.cans := (congrArg State.cans (State.noticeAll_eq s b) :)
@[simp] theorem State.noticeAll_qp (s : State) (b : String) : (s.noticeAll b).qp = s.qp := (congrArg State.qp (State.noticeAll_eq s b) :)
@[simp] theorem State.noticeAll_tag (s : State) (b : String) : (s.noticeAll b).tag = s.tag := (congrArg State.tag (State.noticeAll_eq s b) :)
@[simp] theorem State.noticeAll_chn (s : State) (b : String) : (s.noticeAll b).chn = s.chn := (congrArg State.chn (State.noticeAll_eq s b) :)
@[simp] theorem State.noticeAll_rad (s : State) (b : String) : (s.noticeAll b).rad = s.rad := (congrArg State.rad (State.noticeAll_eq s b) :)
@[simp] theorem State.noticeAll_est (s : State) (b : String) : (s.noticeAll b).est = s.est := (congrArg State.est (State.noticeAll_eq s b) :)
@[simp] theorem State.noticeAll_crew (s : State) (b : String) : (s.noticeAll b).crew = s.crew := (congrArg State.crew (State.noticeAll_eq s b) :)
@[simp] theorem State.noticeAll_rdata (s : State) (b : String) : (s.noticeAll b).rdata = s.rdata := (congrArg State.rdata (State.noticeAll_eq s b) :)
@[simp] theorem State.noticeAll_sec (s : State) (b : String) : (s.noticeAll b).sec = s.sec := (congrArg State.sec (State.noticeAll_eq s b) :)
@[simp] theorem State.noticeAll_pending (s : State) (b : String) : (s.noticeAll b).pending = s.pending := (congrArg State.pending (State.noticeAll_eq s b) :)
@[simp] theorem State.noticeAll_acts (s : State) (b : String) : (s.noticeAll b).acts = s.acts := (congrArg State.acts (State.noticeAll_eq s b) :)
@[simp] theorem State.noticeAll_freeCtr (s : State) (b : String) : (s.noticeAll b).freeCtr = s.freeCtr := (congrArg State.freeCtr (State.noticeAll_eq s b) :)

/-! ### A requester's access (R118) -/

@[simp] theorem State.byRequester_awake {s : State} (t : State) (h : s.awake = true) : s.byRequester t = t := by simp [State.byRequester, h]
@[simp] theorem State.byRequester_asleep {s : State} (t : State) (h : s.awake = false) : s.byRequester t = s := by simp [State.byRequester, h]

end Sys2Proof.Machine
end

