-- ==== Sys2Proof/Laws/Regs.lean ====
section
/-!
SUPPORT. Reads after writes of registers, fields and bits: what a read of the written register gives, and that every other register, and every other field of the same register, reads as before.
The side conditions are about addresses and bit numbers alone, so they close by `decide` on the names of the register maps.
-/

namespace Sys2Proof.Machine

/-! Whole registers -/

theorem State.rd_wr (s : State) (a b : Nat) (v : Word) : (s.wr a v).rd b = if a = b then v else s.rd b := by
  unfold State.rd State.wr
  by_cases h : a = b
  · subst h
    simp
  · rw [if_neg h]; exact Tab.get_put_ne _ _ _ _ h

@[simp] theorem State.rd_wr_self (s : State) (a : Nat) (v : Word) : (s.wr a v).rd a = v := by simp [State.rd_wr]

@[simp] theorem State.rd_wr_ne (s : State) {a b : Nat} (v : Word) (h : a ≠ b) : (s.wr a v).rd b = s.rd b := by simp [State.rd_wr, h]

/-- A register's number is below 2^32. -/
theorem State.rdN_lt (s : State) (a : Nat) : s.rdN a < 2 ^ 32 := (s.rd a).isLt

theorem wordOf_toNat (n : Nat) : (wordOf n).toNat = n % 2 ^ 32 := by simp [wordOf]

@[simp] theorem State.rdN_wrN_self (s : State) (a n : Nat) : (s.wrN a n).rdN a = n % 2 ^ 32 := by
  simp [State.rdN, State.wrN]

/-! What leaves every register but one as it was -/

@[simp] theorem State.rd_wrN_ne (s : State) {a b : Nat} (n : Nat) (h : a ≠ b) : (s.wrN a n).rd b = s.rd b := State.rd_wr_ne s _ h
@[simp] theorem State.rd_setFld_ne (s : State) {a b : Nat} (lo w v : Nat) (h : a ≠ b) : (s.setFld a lo w v).rd b = s.rd b := State.rd_wr_ne s _ h
@[simp] theorem State.rd_setBit_ne (s : State) {a b : Nat} (k : Nat) (v : Bool) (h : a ≠ b) : (s.setBit a k v).rd b = s.rd b := State.rd_wr_ne s _ h
@[simp] theorem State.rd_orReg_ne (s : State) {a b : Nat} (m : Nat) (h : a ≠ b) : (s.orReg a m).rd b = s.rd b := State.rd_wr_ne s _ h
@[simp] theorem State.rd_clrReg_ne (s : State) {a b : Nat} (m : Nat) (h : a ≠ b) : (s.clrReg a m).rd b = s.rd b := State.rd_wr_ne s _ h
@[simp] theorem State.rd_incSat_ne (s : State) {a b : Nat} (lo w k : Nat) (h : a ≠ b) : (s.incSat a lo w k).rd b = s.rd b := State.rd_wr_ne s _ h
@[simp] theorem State.rd_atUs_ne (s : State) {b : Nat} (us : Nat) (h : Reg.STK_PHASE ≠ b) : (s.atUs us).rd b = s.rd b := State.rd_wr_ne s _ h

/-! The same read by number, by field and by bit -/

theorem State.rdN_of_rd {s t : State} {a : Nat} (h : t.rd a = s.rd a) : t.rdN a = s.rdN a := congrArg BitVec.toNat h
theorem State.fld_of_rd {s t : State} {a : Nat} (h : t.rd a = s.rd a) (lo w : Nat) : t.fld a lo w = s.fld a lo w := by
  unfold State.fld; rw [State.rdN_of_rd h]
theorem State.bit_of_rd {s t : State} {a : Nat} (h : t.rd a = s.rd a) (b : Nat) : t.bit a b = s.bit a b := by
  unfold State.bit; rw [State.fld_of_rd h]

/-- An update of the other fields leaves every register. -/
@[simp] theorem State.rd_mk (s : State) (a : Nat) {f2 f3 f4 f5 f6 f7 f8 f9 f10 f11 f12 f13 f14 f15 f16 f17 f18 f19 f20 f21 f22 f23 f24 f25 f26 f27 f28 f29 f30 f31 f32 f33 f34 f35 f36} :
    State.rd (State.mk s.regs f2 f3 f4 f5 f6 f7 f8 f9 f10 f11 f12 f13 f14 f15 f16 f17 f18 f19 f20 f21 f22 f23 f24 f25 f26 f27 f28 f29 f30 f31 f32 f33 f34 f35 f36) a = s.rd a := rfl
@[simp] theorem State.rdN_mk (s : State) (a : Nat) {f2 f3 f4 f5 f6 f7 f8 f9 f10 f11 f12 f13 f14 f15 f16 f17 f18 f19 f20 f21 f22 f23 f24 f25 f26 f27 f28 f29 f30 f31 f32 f33 f34 f35 f36} :
    State.rdN (State.mk s.regs f2 f3 f4 f5 f6 f7 f8 f9 f10 f11 f12 f13 f14 f15 f16 f17 f18 f19 f20 f21 f22 f23 f24 f25 f26 f27 f28 f29 f30 f31 f32 f33 f34 f35 f36) a = s.rdN a := rfl
@[simp] theorem State.fld_mk (s : State) (a lo w : Nat) {f2 f3 f4 f5 f6 f7 f8 f9 f10 f11 f12 f13 f14 f15 f16 f17 f18 f19 f20 f21 f22 f23 f24 f25 f26 f27 f28 f29 f30 f31 f32 f33 f34 f35 f36} :
    State.fld (State.mk s.regs f2 f3 f4 f5 f6 f7 f8 f9 f10 f11 f12 f13 f14 f15 f16 f17 f18 f19 f20 f21 f22 f23 f24 f25 f26 f27 f28 f29 f30 f31 f32 f33 f34 f35 f36) a lo w = s.fld a lo w := rfl
@[simp] theorem State.bit_mk (s : State) (a b : Nat) {f2 f3 f4 f5 f6 f7 f8 f9 f10 f11 f12 f13 f14 f15 f16 f17 f18 f19 f20 f21 f22 f23 f24 f25 f26 f27 f28 f29 f30 f31 f32 f33 f34 f35 f36} :
    State.bit (State.mk s.regs f2 f3 f4 f5 f6 f7 f8 f9 f10 f11 f12 f13 f14 f15 f16 f17 f18 f19 f20 f21 f22 f23 f24 f25 f26 f27 f28 f29 f30 f31 f32 f33 f34 f35 f36) a b = s.bit a b := rfl

/-! Fields -/

theorem getField_lt (n lo w : Nat) : getField n lo w < 2 ^ w := Nat.mod_lt _ (Nat.two_pow_pos w)

theorem field_lt (n lo w v : Nat) : v % 2 ^ w * 2 ^ lo + n % 2 ^ lo < 2 ^ (lo + w) := by
  have a : (v % 2 ^ w + 1) * 2 ^ lo ≤ 2 ^ w * 2 ^ lo := Nat.mul_le_mul_right _ (Nat.mod_lt v (Nat.two_pow_pos w))
  have b := Nat.mod_lt n (Nat.two_pow_pos lo)
  rw [pow_add, Nat.mul_comm (2 ^ lo)]
  rw [Nat.add_mul] at a
  omega

/-- A number with a field set stays below 2^32 when the field lies within 32 bits. -/
theorem putField_lt {n lo w v : Nat} (hn : n < 2 ^ 32) (h : lo + w ≤ 32) : putField n lo w v < 2 ^ 32 := by
  unfold putField
  obtain ⟨k, hk⟩ : ∃ k, 32 = lo + w + k := ⟨32 - (lo + w), by omega⟩
  have h2 := field_lt n lo w v
  rw [hk, pow_add] at hn
  rw [hk, pow_add 2 (lo + w) k]
  have h1 : n / 2 ^ (lo + w) < 2 ^ k := Nat.div_lt_of_lt_mul hn
  have h3 : (n / 2 ^ (lo + w) + 1) * 2 ^ (lo + w) ≤ 2 ^ k * 2 ^ (lo + w) := Nat.mul_le_mul_right _ h1
  rw [Nat.add_mul] at h3
  rw [Nat.mul_comm (2 ^ (lo + w)) (2 ^ k)]
  omega

theorem getField_putField_self (n lo w v : Nat) : getField (putField n lo w v) lo w = v % 2 ^ w := by
  unfold getField putField
  have hb := Nat.mod_lt n (Nat.two_pow_pos lo)
  have e : n / 2 ^ (lo + w) * 2 ^ (lo + w) + v % 2 ^ w * 2 ^ lo + n % 2 ^ lo = n % 2 ^ lo + (n / 2 ^ (lo + w) * 2 ^ w + v % 2 ^ w) * 2 ^ lo := by
    rw [pow_add]; ring
  rw [e, Nat.add_mul_div_right _ _ (Nat.two_pow_pos lo), Nat.div_eq_of_lt hb, Nat.zero_add, Nat.mul_comm, Nat.mul_add_mod, Nat.mod_mod]

/-- A field above the one set reads as before. -/
theorem getField_putField_above {lo w lo' : Nat} (n v w' : Nat) (h : lo + w ≤ lo') : getField (putField n lo w v) lo' w' = getField n lo' w' := by
  unfold getField putField
  obtain ⟨k, rfl⟩ : ∃ k, lo' = lo + w + k := ⟨lo' - (lo + w), by omega⟩
  have hs := field_lt n lo w v
  rw [pow_add 2 (lo + w) k, ← Nat.div_div_eq_div_mul, ← Nat.div_div_eq_div_mul, Nat.add_assoc, Nat.mul_comm (n / 2 ^ (lo + w)),
    Nat.mul_add_div (Nat.two_pow_pos _), Nat.div_eq_of_lt hs, Nat.add_zero]

/-- A field below the one set reads as before. -/
theorem getField_putField_below {lo lo' w' : Nat} (n w v : Nat) (h : lo' + w' ≤ lo) : getField (putField n lo w v) lo' w' = getField n lo' w' := by
  unfold getField putField
  obtain ⟨k, rfl⟩ : ∃ k, lo = lo' + w' + k := ⟨lo - (lo' + w'), by omega⟩
  have e : n / 2 ^ (lo' + w' + k + w) * 2 ^ (lo' + w' + k + w) + v % 2 ^ w * 2 ^ (lo' + w' + k) + n % 2 ^ (lo' + w' + k)
      = n % 2 ^ (lo' + w' + k) + 2 ^ (lo' + w') * ((n / 2 ^ (lo' + w' + k + w) * 2 ^ w + v % 2 ^ w) * 2 ^ k) := by
    rw [pow_add 2 (lo' + w' + k) w, pow_add 2 (lo' + w') k]; ring
  rw [e]
  have f (x : Nat) : x / 2 ^ lo' % 2 ^ w' = x % 2 ^ (lo' + w') / 2 ^ lo' := by rw [pow_add, Nat.mod_mul_right_div_self]
  rw [f, f, Nat.add_mul_mod_self_left, pow_add 2 (lo' + w') k, Nat.mod_mul_right_mod]

@[simp] theorem State.fld_setFld_self (s : State) {a lo w : Nat} (v : Nat) (h : lo + w ≤ 32) : (s.setFld a lo w v).fld a lo w = v % 2 ^ w := by
  unfold State.fld State.setFld
  rw [State.rdN_wrN_self, Nat.mod_eq_of_lt (putField_lt (s.rdN_lt a) h), getField_putField_self]

@[simp] theorem State.fld_setFld_other (s : State) {a lo w lo' w' : Nat} (v : Nat) (h : lo + w ≤ 32) (hd : lo + w ≤ lo' ∨ lo' + w' ≤ lo) :
    (s.setFld a lo w v).fld a lo' w' = s.fld a lo' w' := by
  unfold State.fld State.setFld
  rw [State.rdN_wrN_self, Nat.mod_eq_of_lt (putField_lt (s.rdN_lt a) h)]
  rcases hd with hd | hd
  · exact getField_putField_above _ _ _ hd
  · exact getField_putField_below _ _ _ hd

theorem State.fld_lt (s : State) (a lo w : Nat) : s.fld a lo w < 2 ^ w := getField_lt _ _ _

/-- Setting a field to what it reads changes nothing. -/
theorem putField_getField (n lo w : Nat) : putField n lo w (getField n lo w) = n := by
  unfold putField getField
  rw [Nat.mod_mod, pow_add, ← Nat.div_div_eq_div_mul]
  have h1 := Nat.div_add_mod (n / 2 ^ lo) (2 ^ w)
  have h2 := Nat.div_add_mod n (2 ^ lo)
  calc n / 2 ^ lo / 2 ^ w * (2 ^ lo * 2 ^ w) + n / 2 ^ lo % 2 ^ w * 2 ^ lo + n % 2 ^ lo
      = 2 ^ lo * (2 ^ w * (n / 2 ^ lo / 2 ^ w) + n / 2 ^ lo % 2 ^ w) + n % 2 ^ lo := by ring
    _ = n := by rw [h1, h2]

/-! Bits -/

@[simp] theorem State.bit_setBit_self (s : State) {a b : Nat} (v : Bool) (h : b < 32) : (s.setBit a b v).bit a b = v := by
  unfold State.bit State.setBit
  rw [State.fld_setFld_self _ _ (by omega)]
  cases v <;> rfl

@[simp] theorem State.bit_setBit_other (s : State) {a b c : Nat} (v : Bool) (h : b < 32) (hd : b ≠ c) : (s.setBit a b v).bit a c = s.bit a c := by
  unfold State.bit State.setBit
  rw [State.fld_setFld_other _ _ (by omega) (by omega)]

@[simp] theorem State.fld_setBit_other (s : State) {a b lo w : Nat} (v : Bool) (h : b < 32) (hd : b + 1 ≤ lo ∨ lo + w ≤ b) :
    (s.setBit a b v).fld a lo w = s.fld a lo w := by
  unfold State.setBit
  rw [State.fld_setFld_other _ _ (by omega) (by omega)]

@[simp] theorem State.bit_setFld_other (s : State) {a lo w c : Nat} (v : Nat) (h : lo + w ≤ 32) (hd : lo + w ≤ c ∨ c + 1 ≤ lo) :
    (s.setFld a lo w v).bit a c = s.bit a c := by
  unfold State.bit
  rw [State.fld_setFld_other _ _ h hd]

/-- A counter field goes up by k and stops at its largest value. -/
@[simp] theorem State.fld_incSat_self (s : State) {a lo w : Nat} (k : Nat) (h : lo + w ≤ 32) :
    (s.incSat a lo w k).fld a lo w = min (s.fld a lo w + k) (2 ^ w - 1) := by
  unfold State.incSat
  rw [State.fld_setFld_self _ _ h]
  have := s.fld_lt a lo w
  have := Nat.two_pow_pos w
  unfold satAdd
  split
  · rw [Nat.mod_eq_of_lt (by omega), Nat.min_eq_right (by omega)]
  · rw [Nat.mod_eq_of_lt (by omega), Nat.min_eq_left (by omega)]

@[simp] theorem State.us_atUs (s : State) (us : Nat) : (s.atUs us).us = us % 2 ^ 15 := State.fld_setFld_self s us (by decide)

/-! Registers the logbook touches -/

theorem State.rd_setPend (s : State) (l : List LogRec) {a : Nat} (h : a ≠ Reg.LOG_PEND) : (s.setPend l).rd a = s.rd a := by
  have h' : Reg.LOG_PEND ≠ a := Ne.symm h
  unfold State.setPend
  dsimp only
  rw [State.rd_setFld_ne _ _ _ _ h', State.rd_setFld_ne _ _ _ _ h', State.rd_mk]

theorem State.rd_reportLost (s : State) (b : Nat) {a : Nat} (h : a ≠ Reg.LOG_PEND) : (s.reportLost b).rd a = s.rd a := by
  unfold State.reportLost
  dsimp only
  split
  · rw [State.rd_mk, State.rd_setPend s _ h]
  · rfl

theorem State.rd_submit (s : State) (u : List LogRec) (r : LogRec) (t : List LogRec) (hu : u = r :: t) {a : Nat} (h : a ∉ logRegs r.book) :
    (s.submit u).2.rd a = s.rd a := by
  subst hu
  simp only [logRegs, List.mem_cons, List.not_mem_nil, or_false, not_or] at h
  obtain ⟨h1, h2, h3, h4, h5⟩ := h
  unfold State.submit
  dsimp only
  split
  · exact State.rd_incSat_ne _ _ _ _ (Ne.symm h2)
  · have hx : (State.reportLost (if (decide (r.sevfl % 8 = 4) || decide (r.source = 0xF0) || !s.bit Reg.LOG_CTRL 1) = true then s else
        s.setBucket (s.bucketKey r.book r.code)
          { s.bucket (s.bucketKey r.book r.code) with tokens := (s.bucket (s.bucketKey r.book r.code)).tokens - 1 }) r.book).rd a = s.rd a := by
      rw [State.rd_reportLost _ _ h1]
      split <;> rfl
    generalize State.reportLost _ r.book = u at hx ⊢
    split
    · rw [State.rd_mk, State.rd_incSat_ne u _ _ _ (Ne.symm h3)]; exact hx
    · split
      · rw [State.rd_setBit_ne _ _ _ (Ne.symm h5), State.rd_incSat_ne _ _ _ _ (Ne.symm h4)]; exact hx
      · rw [State.rd_setPend _ _ h1]; exact hx

@[simp] theorem State.rd_logIn (s : State) {b a : Nat} (c src : Nat) (l : List Byte) (h : a ∉ logRegs b) : (s.logIn b c src l).rd a = s.rd a := by
  obtain ⟨r, t, hu, hb⟩ : ∃ r t, s.unitOf b c src (severity c) l = r :: t ∧ r.book = b := by
    unfold State.unitOf
    dsimp only
    split
    · exact ⟨_, _, rfl, rfl⟩
    · exact ⟨_, _, rfl, rfl⟩
  have k := State.rd_submit s _ r t hu (a := a) (hb ▸ h)
  unfold State.logIn
  dsimp only
  split
  · rw [State.rd_mk]; exact k
  · exact k

@[simp] theorem State.rd_logS (s : State) {a : Nat} (c : Nat) (l : List Byte) (h : a ∉ logRegs 0) : (s.logS c l).rd a = s.rd a := State.rd_logIn s c 0 l h
@[simp] theorem State.rd_logT0 (s : State) {a : Nat} (c : Nat) (l : List Byte) (h : a ∉ logRegs 1) : (s.logT0 c l).rd a = s.rd a := State.rd_logIn s c 0 l h
@[simp] theorem State.rd_logS0 (s : State) {a : Nat} (c : Nat) (l : List Byte) (h : a ∉ logRegs 0 ++ logRegs 1) : (s.logS0 c l).rd a = s.rd a := by
  rw [List.mem_append, not_or] at h
  rw [State.logS0, State.rd_logT0 _ _ _ h.2, State.rd_logS _ _ _ h.1]
@[simp] theorem State.rd_logSK (s : State) {k a : Nat} (c : Nat) (l : List Byte) (h : a ∉ logRegs 0 ++ logRegs (1 + k)) : (s.logSK k c l).rd a = s.rd a := by
  rw [List.mem_append, not_or] at h
  rw [State.logSK, State.rd_logIn _ _ _ _ h.2, State.rd_logS _ _ _ h.1]

/-! Registers and fields of other parts of the state -/

@[simp] theorem State.rd_setCon (s : State) (p : Nat) (c : ConSt) (a : Nat) : (s.setCon p c).rd a = s.rd a := by simp [State.rd]
@[simp] theorem State.rd_say (s : State) (p : Nat) (t : Option String) (l : List String) (a : Nat) : (s.say p t l).rd a = s.rd a := by simp [State.rd]
@[simp] theorem State.rd_notice (s : State) (p : Nat) (b : String) (a : Nat) : (s.notice p b).rd a = s.rd a := by simp [State.rd]
@[simp] theorem State.rd_noticeAll (s : State) (b : String) (a : Nat) : (s.noticeAll b).rd a = s.rd a := by simp [State.rd]
@[simp] theorem State.rd_wrBytes (s : State) (b : Nat) (l : List Byte) (a : Nat) : (s.wrBytes b l).rd a = s.rd a := by simp [State.rd]
@[simp] theorem State.rd_free (s : State) (a : Nat) : s.free.2.rd a = s.rd a := rfl

/-! Fields and bits of other registers -/

@[simp] theorem State.rdN_wr_ne (s : State) {a : Nat} {b : Nat} (v : Word) (h : b ≠ a) : (s.wr b v).rdN a = s.rdN a := State.rdN_of_rd (State.rd_wr_ne s v h)
@[simp] theorem State.fld_wr_ne (s : State) {a : Nat} {b : Nat} (v : Word) (lo wd : Nat) (h : b ≠ a) : (s.wr b v).fld a lo wd = s.fld a lo wd := State.fld_of_rd (State.rd_wr_ne s v h) lo wd
@[simp] theorem State.bit_wr_ne (s : State) {a : Nat} {b : Nat} (v : Word) (i : Nat) (h : b ≠ a) : (s.wr b v).bit a i = s.bit a i := State.bit_of_rd (State.rd_wr_ne s v h) i
@[simp] theorem State.rdN_wrN_ne (s : State) {a : Nat} {b : Nat} (n : Nat) (h : b ≠ a) : (s.wrN b n).rdN a = s.rdN a := State.rdN_of_rd (State.rd_wrN_ne s n h)
@[simp] theorem State.fld_wrN_ne (s : State) {a : Nat} {b : Nat} (n : Nat) (lo wd : Nat) (h : b ≠ a) : (s.wrN b n).fld a lo wd = s.fld a lo wd := State.fld_of_rd (State.rd_wrN_ne s n h) lo wd
@[simp] theorem State.bit_wrN_ne (s : State) {a : Nat} {b : Nat} (n : Nat) (i : Nat) (h : b ≠ a) : (s.wrN b n).bit a i = s.bit a i := State.bit_of_rd (State.rd_wrN_ne s n h) i
@[simp] theorem State.rdN_setFld_ne (s : State) {a : Nat} {b : Nat} (l w v : Nat) (h : b ≠ a) : (s.setFld b l w v).rdN a = s.rdN a := State.rdN_of_rd (State.rd_setFld_ne s l w v h)
@[simp] theorem State.fld_setFld_ne (s : State) {a : Nat} {b : Nat} (l w v : Nat) (lo wd : Nat) (h : b ≠ a) : (s.setFld b l w v).fld a lo wd = s.fld a lo wd := State.fld_of_rd (State.rd_setFld_ne s l w v h) lo wd
@[simp] theorem State.bit_setFld_ne (s : State) {a : Nat} {b : Nat} (l w v : Nat) (i : Nat) (h : b ≠ a) : (s.setFld b l w v).bit a i = s.bit a i := State.bit_of_rd (State.rd_setFld_ne s l w v h) i
@[simp] theorem State.rdN_setBit_ne (s : State) {a : Nat} {b : Nat} (k : Nat) (v : Bool) (h : b ≠ a) : (s.setBit b k v).rdN a = s.rdN a := State.rdN_of_rd (State.rd_setBit_ne s k v h)
@[simp] theorem State.fld_setBit_ne (s : State) {a : Nat} {b : Nat} (k : Nat) (v : Bool) (lo wd : Nat) (h : b ≠ a) : (s.setBit b k v).fld a lo wd = s.fld a lo wd := State.fld_of_rd (State.rd_setBit_ne s k v h) lo wd
@[simp] theorem State.bit_setBit_ne (s : State) {a : Nat} {b : Nat} (k : Nat) (v : Bool) (i : Nat) (h : b ≠ a) : (s.setBit b k v).bit a i = s.bit a i := State.bit_of_rd (State.rd_setBit_ne s k v h) i
@[simp] theorem State.rdN_orReg_ne (s : State) {a : Nat} {b : Nat} (m : Nat) (h : b ≠ a) : (s.orReg b m).rdN a = s.rdN a := State.rdN_of_rd (State.rd_orReg_ne s m h)
@[simp] theorem State.fld_orReg_ne (s : State) {a : Nat} {b : Nat} (m : Nat) (lo wd : Nat) (h : b ≠ a) : (s.orReg b m).fld a lo wd = s.fld a lo wd := State.fld_of_rd (State.rd_orReg_ne s m h) lo wd
@[simp] theorem State.bit_orReg_ne (s : State) {a : Nat} {b : Nat} (m : Nat) (i : Nat) (h : b ≠ a) : (s.orReg b m).bit a i = s.bit a i := State.bit_of_rd (State.rd_orReg_ne s m h) i
@[simp] theorem State.rdN_clrReg_ne (s : State) {a : Nat} {b : Nat} (m : Nat) (h : b ≠ a) : (s.clrReg b m).rdN a = s.rdN a := State.rdN_of_rd (State.rd_clrReg_ne s m h)
@[simp] theorem State.fld_clrReg_ne (s : State) {a : Nat} {b : Nat} (m : Nat) (lo wd : Nat) (h : b ≠ a) : (s.clrReg b m).fld a lo wd = s.fld a lo wd := State.fld_of_rd (State.rd_clrReg_ne s m h) lo wd
@[simp] theorem State.bit_clrReg_ne (s : State) {a : Nat} {b : Nat} (m : Nat) (i : Nat) (h : b ≠ a) : (s.clrReg b m).bit a i = s.bit a i := State.bit_of_rd (State.rd_clrReg_ne s m h) i
@[simp] theorem State.rdN_incSat_ne (s : State) {a : Nat} {b : Nat} (l w k : Nat) (h : b ≠ a) : (s.incSat b l w k).rdN a = s.rdN a := State.rdN_of_rd (State.rd_incSat_ne s l w k h)
@[simp] theorem State.fld_incSat_ne (s : State) {a : Nat} {b : Nat} (l w k : Nat) (lo wd : Nat) (h : b ≠ a) : (s.incSat b l w k).fld a lo wd = s.fld a lo wd := State.fld_of_rd (State.rd_incSat_ne s l w k h) lo wd
@[simp] theorem State.bit_incSat_ne (s : State) {a : Nat} {b : Nat} (l w k : Nat) (i : Nat) (h : b ≠ a) : (s.incSat b l w k).bit a i = s.bit a i := State.bit_of_rd (State.rd_incSat_ne s l w k h) i
@[simp] theorem State.rdN_atUs_ne (s : State) {a : Nat} (us : Nat) (h : Reg.STK_PHASE ≠ a) : (s.atUs us).rdN a = s.rdN a := State.rdN_of_rd (State.rd_atUs_ne s us h)
@[simp] theorem State.fld_atUs_ne (s : State) {a : Nat} (us : Nat) (lo wd : Nat) (h : Reg.STK_PHASE ≠ a) : (s.atUs us).fld a lo wd = s.fld a lo wd := State.fld_of_rd (State.rd_atUs_ne s us h) lo wd
@[simp] theorem State.bit_atUs_ne (s : State) {a : Nat} (us : Nat) (i : Nat) (h : Reg.STK_PHASE ≠ a) : (s.atUs us).bit a i = s.bit a i := State.bit_of_rd (State.rd_atUs_ne s us h) i

@[simp] theorem State.rdN_logIn (s : State) {a : Nat} {bk : Nat} (c src : Nat) (l : List Byte) (h : a ∉ logRegs bk) : (s.logIn bk c src l).rdN a = s.rdN a := State.rdN_of_rd (State.rd_logIn s c src l h)
@[simp] theorem State.fld_logIn (s : State) {a : Nat} {bk : Nat} (c src : Nat) (l : List Byte) (lo wd : Nat) (h : a ∉ logRegs bk) : (s.logIn bk c src l).fld a lo wd = s.fld a lo wd := State.fld_of_rd (State.rd_logIn s c src l h) lo wd
@[simp] theorem State.bit_logIn (s : State) {a : Nat} {bk : Nat} (c src : Nat) (l : List Byte) (i : Nat) (h : a ∉ logRegs bk) : (s.logIn bk c src l).bit a i = s.bit a i := State.bit_of_rd (State.rd_logIn s c src l h) i
@[simp] theorem State.rdN_logS (s : State) {a : Nat} (c : Nat) (l : List Byte) (h : a ∉ logRegs 0) : (s.logS c l).rdN a = s.rdN a := State.rdN_of_rd (State.rd_logS s c l h)
@[simp] theorem State.fld_logS (s : State) {a : Nat} (c : Nat) (l : List Byte) (lo wd : Nat) (h : a ∉ logRegs 0) : (s.logS c l).fld a lo wd = s.fld a lo wd := State.fld_of_rd (State.rd_logS s c l h) lo wd
@[simp] theorem State.bit_logS (s : State) {a : Nat} (c : Nat) (l : List Byte) (i : Nat) (h : a ∉ logRegs 0) : (s.logS c l).bit a i = s.bit a i := State.bit_of_rd (State.rd_logS s c l h) i
@[simp] theorem State.rdN_logT0 (s : State) {a : Nat} (c : Nat) (l : List Byte) (h : a ∉ logRegs 1) : (s.logT0 c l).rdN a = s.rdN a := State.rdN_of_rd (State.rd_logT0 s c l h)
@[simp] theorem State.fld_logT0 (s : State) {a : Nat} (c : Nat) (l : List Byte) (lo wd : Nat) (h : a ∉ logRegs 1) : (s.logT0 c l).fld a lo wd = s.fld a lo wd := State.fld_of_rd (State.rd_logT0 s c l h) lo wd
@[simp] theorem State.bit_logT0 (s : State) {a : Nat} (c : Nat) (l : List Byte) (i : Nat) (h : a ∉ logRegs 1) : (s.logT0 c l).bit a i = s.bit a i := State.bit_of_rd (State.rd_logT0 s c l h) i
@[simp] theorem State.rdN_logS0 (s : State) {a : Nat} (c : Nat) (l : List Byte) (h : a ∉ logRegs 0 ++ logRegs 1) : (s.logS0 c l).rdN a = s.rdN a := State.rdN_of_rd (State.rd_logS0 s c l h)
@[simp] theorem State.fld_logS0 (s : State) {a : Nat} (c : Nat) (l : List Byte) (lo wd : Nat) (h : a ∉ logRegs 0 ++ logRegs 1) : (s.logS0 c l).fld a lo wd = s.fld a lo wd := State.fld_of_rd (State.rd_logS0 s c l h) lo wd
@[simp] theorem State.bit_logS0 (s : State) {a : Nat} (c : Nat) (l : List Byte) (i : Nat) (h : a ∉ logRegs 0 ++ logRegs 1) : (s.logS0 c l).bit a i = s.bit a i := State.bit_of_rd (State.rd_logS0 s c l h) i
@[simp] theorem State.rdN_logSK (s : State) {a : Nat} {k : Nat} (c : Nat) (l : List Byte) (h : a ∉ logRegs 0 ++ logRegs (1 + k)) : (s.logSK k c l).rdN a = s.rdN a := State.rdN_of_rd (State.rd_logSK s c l h)
@[simp] theorem State.fld_logSK (s : State) {a : Nat} {k : Nat} (c : Nat) (l : List Byte) (lo wd : Nat) (h : a ∉ logRegs 0 ++ logRegs (1 + k)) : (s.logSK k c l).fld a lo wd = s.fld a lo wd := State.fld_of_rd (State.rd_logSK s c l h) lo wd
@[simp] theorem State.bit_logSK (s : State) {a : Nat} {k : Nat} (c : Nat) (l : List Byte) (i : Nat) (h : a ∉ logRegs 0 ++ logRegs (1 + k)) : (s.logSK k c l).bit a i = s.bit a i := State.bit_of_rd (State.rd_logSK s c l h) i

@[simp] theorem State.rdN_setCon (s : State) (p : Nat) (c : ConSt) (a : Nat) : (s.setCon p c).rdN a = s.rdN a := State.rdN_of_rd (State.rd_setCon s p c a)
@[simp] theorem State.fld_setCon (s : State) (p : Nat) (c : ConSt) (a lo w : Nat) : (s.setCon p c).fld a lo w = s.fld a lo w := State.fld_of_rd (State.rd_setCon s p c a) lo w
@[simp] theorem State.bit_setCon (s : State) (p : Nat) (c : ConSt) (a i : Nat) : (s.setCon p c).bit a i = s.bit a i := State.bit_of_rd (State.rd_setCon s p c a) i
@[simp] theorem State.rdN_say (s : State) (p : Nat) (t : Option String) (l : List String) (a : Nat) : (s.say p t l).rdN a = s.rdN a := State.rdN_of_rd (State.rd_say s p t l a)
@[simp] theorem State.fld_say (s : State) (p : Nat) (t : Option String) (l : List String) (a lo w : Nat) : (s.say p t l).fld a lo w = s.fld a lo w := State.fld_of_rd (State.rd_say s p t l a) lo w
@[simp] theorem State.bit_say (s : State) (p : Nat) (t : Option String) (l : List String) (a i : Nat) : (s.say p t l).bit a i = s.bit a i := State.bit_of_rd (State.rd_say s p t l a) i
@[simp] theorem State.rdN_notice (s : State) (p : Nat) (m : String) (a : Nat) : (s.notice p m).rdN a = s.rdN a := State.rdN_of_rd (State.rd_notice s p m a)
@[simp] theorem State.fld_notice (s : State) (p : Nat) (m : String) (a lo w : Nat) : (s.notice p m).fld a lo w = s.fld a lo w := State.fld_of_rd (State.rd_notice s p m a) lo w
@[simp] theorem State.bit_notice (s : State) (p : Nat) (m : String) (a i : Nat) : (s.notice p m).bit a i = s.bit a i := State.bit_of_rd (State.rd_notice s p m a) i
@[simp] theorem State.rdN_noticeAll (s : State) (m : String) (a : Nat) : (s.noticeAll m).rdN a = s.rdN a := State.rdN_of_rd (State.rd_noticeAll s m a)
@[simp] theorem State.fld_noticeAll (s : State) (m : String) (a lo w : Nat) : (s.noticeAll m).fld a lo w = s.fld a lo w := State.fld_of_rd (State.rd_noticeAll s m a) lo w
@[simp] theorem State.bit_noticeAll (s : State) (m : String) (a i : Nat) : (s.noticeAll m).bit a i = s.bit a i := State.bit_of_rd (State.rd_noticeAll s m a) i
@[simp] theorem State.rdN_wrBytes (s : State) (x : Nat) (l : List Byte) (a : Nat) : (s.wrBytes x l).rdN a = s.rdN a := State.rdN_of_rd (State.rd_wrBytes s x l a)
@[simp] theorem State.fld_wrBytes (s : State) (x : Nat) (l : List Byte) (a lo w : Nat) : (s.wrBytes x l).fld a lo w = s.fld a lo w := State.fld_of_rd (State.rd_wrBytes s x l a) lo w
@[simp] theorem State.bit_wrBytes (s : State) (x : Nat) (l : List Byte) (a i : Nat) : (s.wrBytes x l).bit a i = s.bit a i := State.bit_of_rd (State.rd_wrBytes s x l a) i

/-! Memory -/

theorem State.rdB_wrB (s : State) (a b : Nat) (v : Byte) : (s.wrB a v).rdB b = if a = b then v else s.rdB b := by
  unfold State.rdB State.wrB
  by_cases h : a = b
  · subst h
    simp
  · rw [if_neg h]; exact Tab.get_put_ne _ _ _ _ h

/-- A byte outside the stored range reads as before. -/
theorem State.rdB_wrBytes_out (s : State) (a b : Nat) (l : List Byte) (h : b < a ∨ a + l.length ≤ b) : (s.wrBytes a l).rdB b = s.rdB b := by
  induction l generalizing s a with
  | nil => rfl
  | cons x t ih =>
    rw [State.wrBytes, ih _ _ (by simp only [List.length_cons] at h; omega), State.rdB_wrB, if_neg (by simp only [List.length_cons] at h; omega)]

/-- A byte inside the stored range reads as the byte stored there. -/
theorem State.rdB_wrBytes_in (s : State) (a : Nat) (l : List Byte) (i : Nat) (h : i < l.length) : (s.wrBytes a l).rdB (a + i) = l[i] := by
  induction l generalizing s a i with
  | nil => exact absurd h (Nat.not_lt_zero _)
  | cons x t ih =>
    cases i with
    | zero => rw [State.wrBytes, State.rdB_wrBytes_out _ _ _ _ (by omega), State.rdB_wrB, if_pos (by omega)]; rfl
    | succ i =>
      have e : a + (i + 1) = a + 1 + i := by omega
      rw [State.wrBytes, e]
      exact ih _ _ _ (by simpa using h)

/-- Bytes written are read back. -/
theorem State.rdBytes_wrBytes (s : State) (a : Nat) (l : List Byte) : (s.wrBytes a l).rdBytes a l.length = l := by
  induction l generalizing s a with
  | nil => rfl
  | cons x t ih =>
    rw [List.length_cons, State.rdBytes, State.wrBytes, ih, State.rdB_wrBytes_out _ _ _ _ (by omega), State.rdB_wrB, if_pos rfl]

end Sys2Proof.Machine
end

