-- ==== Sys2Proof/Laws/Bits.lean ====
section
/-!
SUPPORT. Masks and bits: what taking the bits of a mask out of a number leaves, and the bits of a register as bits of its number.
-/

namespace Sys2Proof.Machine

/-- Numbers without a common bit add as they join. -/
theorem add_eq_or (n m : Nat) (h : n &&& m = 0) : n + m = n ||| m := by
  induction n using Nat.strongRecOn generalizing m with
  | ind n ih =>
    by_cases hn : n = 0
    · subst hn; simp
    · have hd : n / 2 &&& m / 2 = 0 := by rw [← Nat.and_div_two, h]
      have e := ih (n / 2) (by omega) (m / 2) hd
      rw [← Nat.or_div_two] at e
      have t : ¬(n % 2 = 1 ∧ m % 2 = 1) := by rw [← Nat.and_mod_two_eq_one, h]; omega
      have o : (n ||| m) % 2 = 1 ↔ n % 2 = 1 ∨ m % 2 = 1 := Nat.or_mod_two_eq_one
      omega

/-- The bits of a number without those of a mask. -/
theorem testBit_sub_and (n m b : Nat) : (n - (n &&& m)).testBit b = (n.testBit b && !m.testBit b) := by
  have z : (n &&& m) &&& (n ^^^ (n &&& m)) = 0 := by
    apply Nat.eq_of_testBit_eq; intro i; simp only [Nat.testBit_and, Nat.testBit_xor, Nat.zero_testBit]
    cases n.testBit i <;> cases m.testBit i <;> rfl
  have h1 : (n &&& m) + (n ^^^ (n &&& m)) = n := by
    rw [add_eq_or _ _ z]
    apply Nat.eq_of_testBit_eq; intro i; simp only [Nat.testBit_and, Nat.testBit_xor, Nat.testBit_or]
    cases n.testBit i <;> cases m.testBit i <;> rfl
  have h2 : n - (n &&& m) = n ^^^ (n &&& m) := by omega
  rw [h2, Nat.testBit_xor, Nat.testBit_and]
  cases n.testBit b <;> cases m.testBit b <;> rfl

/-- A bit of a register is that bit of its number. -/
theorem State.bit_eq_testBit (s : State) (a b : Nat) : s.bit a b = (s.rdN a).testBit b := by
  unfold State.bit State.fld getField
  rw [Nat.testBit_eq_decide_div_mod_eq, pow_one]

/-- Clearing the bits of a mask in a register. -/
theorem State.bit_clrReg (s : State) (a m b : Nat) : (s.clrReg a m).bit a b = (s.bit a b && !m.testBit b) := by
  rw [State.bit_eq_testBit, State.bit_eq_testBit, State.clrReg, State.rdN_wrN_self, Nat.mod_eq_of_lt, testBit_sub_and]
  exact Nat.lt_of_le_of_lt (Nat.sub_le _ _) (s.rdN_lt a)

/-- Setting the bits of a mask in a register. -/
theorem State.bit_orReg (s : State) (a m b : Nat) (h : b < 32) : (s.orReg a m).bit a b = (s.bit a b || m.testBit b) := by
  rw [State.bit_eq_testBit, State.bit_eq_testBit, State.orReg, State.rdN_wrN_self, Nat.testBit_mod_two_pow, Nat.testBit_or]
  simp [h]

/-- A software write by access code, bit by bit (R7, R8). -/
theorem testBit_writeByAccess (r : RegRow) (old v b : Nat) :
    (writeByAccess r old v).testBit b = if r.rw.testBit b then v.testBit b else old.testBit b && !(r.w1c.testBit b && v.testBit b) := by
  unfold writeByAccess
  dsimp only
  rw [add_eq_or]
  · simp only [Nat.testBit_or, Nat.testBit_and, testBit_sub_and]
    cases r.rw.testBit b <;> cases old.testBit b <;> cases v.testBit b <;> cases r.w1c.testBit b <;> rfl
  · apply Nat.eq_of_testBit_eq; intro i; simp only [Nat.testBit_and, testBit_sub_and, Nat.zero_testBit]
    cases r.rw.testBit i <;> cases old.testBit i <;> cases v.testBit i <;> cases r.w1c.testBit i <;> rfl

end Sys2Proof.Machine
end

