-- ==== Sys2Proof/Laws/Frames.lean ====
section
/-!
SUPPORT. Frames: a register frame goes through every named update of a register it lists, through the logbook and the consoles, and an update of the other parts of the state; a frame of the memory follows from equal memories.
-/

namespace Sys2Proof.Machine

theorem RegsBut.refl (s : State) (l : List Nat) : RegsBut s s l := fun _ _ => rfl

theorem RegsBut.trans {s t u : State} {l : List Nat} (h : RegsBut s t l) (k : RegsBut t u l) : RegsBut s u l := fun a ha => (k a ha).trans (h a ha)

theorem RegsBut.mono {s t : State} {l m : List Nat} (h : RegsBut s t l) (k : ∀ a, a ∈ l → a ∈ m) : RegsBut s t m := fun a ha => h a (fun x => ha (k a x))

theorem RegsBut.of_regs {s t : State} {l : List Nat} (h : t.regs = s.regs) : RegsBut s t l := fun a _ => by unfold State.rd; rw [h]

theorem SameMem.of_mem {s t : State} (h : t.mem = s.mem) : SameMem s t := fun a => by unfold State.rdB; rw [h]

theorem SameMem.refl (s : State) : SameMem s s := fun _ => rfl

theorem RegsBut.ite {s a b : State} {c : Prop} [Decidable c] {l : List Nat} (ha : c → RegsBut s a l) (hb : ¬c → RegsBut s b l) :
    RegsBut s (if c then a else b) l := by
  split
  · exact ha ‹_›
  · exact hb ‹_›

theorem RegsBut.mk_iff {s t : State} {l : List Nat} {f2 f3 f4 f5 f6 f7 f8 f9 f10 f11 f12 f13 f14 f15 f16 f17 f18 f19 f20 f21 f22 f23 f24 f25 f26 f27 f28 f29 f30 f31 f32 f33 f34 f35 f36} : RegsBut s (State.mk t.regs f2 f3 f4 f5 f6 f7 f8 f9 f10 f11 f12 f13 f14 f15 f16 f17 f18 f19 f20 f21 f22 f23 f24 f25 f26 f27 f28 f29 f30 f31 f32 f33 f34 f35 f36) l ↔ RegsBut s t l := Iff.rfl

theorem RegsBut.wr {s t : State} {l : List Nat} {a : Nat} (v : Word) (h : RegsBut s t l) (ha : a ∈ l) : RegsBut s (t.wr a v) l :=
  fun x hx => (State.rd_wr_ne t v (fun e : a = x => hx (e ▸ ha))).trans (h x hx)

theorem RegsBut.wrN {s t : State} {l : List Nat} {a : Nat} (n : Nat) (h : RegsBut s t l) (ha : a ∈ l) : RegsBut s (t.wrN a n) l :=
  fun x hx => (State.rd_wrN_ne t n (fun e : a = x => hx (e ▸ ha))).trans (h x hx)

theorem RegsBut.setFld {s t : State} {l : List Nat} {a : Nat} (lo w v : Nat) (h : RegsBut s t l) (ha : a ∈ l) : RegsBut s (t.setFld a lo w v) l :=
  fun x hx => (State.rd_setFld_ne t lo w v (fun e : a = x => hx (e ▸ ha))).trans (h x hx)

theorem RegsBut.setBit {s t : State} {l : List Nat} {a : Nat} (k : Nat) (v : Bool) (h : RegsBut s t l) (ha : a ∈ l) : RegsBut s (t.setBit a k v) l :=
  fun x hx => (State.rd_setBit_ne t k v (fun e : a = x => hx (e ▸ ha))).trans (h x hx)

theorem RegsBut.orReg {s t : State} {l : List Nat} {a : Nat} (m : Nat) (h : RegsBut s t l) (ha : a ∈ l) : RegsBut s (t.orReg a m) l :=
  fun x hx => (State.rd_orReg_ne t m (fun e : a = x => hx (e ▸ ha))).trans (h x hx)

theorem RegsBut.clrReg {s t : State} {l : List Nat} {a : Nat} (m : Nat) (h : RegsBut s t l) (ha : a ∈ l) : RegsBut s (t.clrReg a m) l :=
  fun x hx => (State.rd_clrReg_ne t m (fun e : a = x => hx (e ▸ ha))).trans (h x hx)

theorem RegsBut.incSat {s t : State} {l : List Nat} {a : Nat} (lo w k : Nat) (h : RegsBut s t l) (ha : a ∈ l) : RegsBut s (t.incSat a lo w k) l :=
  fun x hx => (State.rd_incSat_ne t lo w k (fun e : a = x => hx (e ▸ ha))).trans (h x hx)

theorem RegsBut.atUs {s t : State} {l : List Nat} (us : Nat) (h : RegsBut s t l) (ha : Reg.STK_PHASE ∈ l) : RegsBut s (t.atUs us) l :=
  fun x hx => (State.rd_atUs_ne t us (fun e : Reg.STK_PHASE = x => hx (e ▸ ha))).trans (h x hx)

theorem RegsBut.logIn {s t : State} {l : List Nat} {b : Nat} (c src : Nat) (m : List Byte) (h : RegsBut s t l) (ha : ∀ a, a ∈ logRegs b → a ∈ l) :
    RegsBut s (t.logIn b c src m) l :=
  fun x hx => (State.rd_logIn t c src m (fun e => hx (ha x e))).trans (h x hx)

theorem RegsBut.logS {s t : State} {l : List Nat} (c : Nat) (m : List Byte) (h : RegsBut s t l) (ha : ∀ a, a ∈ logRegs 0 → a ∈ l) :
    RegsBut s (t.logS c m) l := h.logIn c 0 m ha

theorem RegsBut.logT0 {s t : State} {l : List Nat} (c : Nat) (m : List Byte) (h : RegsBut s t l) (ha : ∀ a, a ∈ logRegs 1 → a ∈ l) :
    RegsBut s (t.logT0 c m) l := h.logIn c 0 m ha

theorem RegsBut.say {s t : State} {l : List Nat} (p : Nat) (g : Option String) (m : List String) (h : RegsBut s t l) : RegsBut s (t.say p g m) l :=
  fun x hx => (State.rd_say t p g m x).trans (h x hx)

theorem RegsBut.notice {s t : State} {l : List Nat} (p : Nat) (m : String) (h : RegsBut s t l) : RegsBut s (t.notice p m) l :=
  fun x hx => (State.rd_notice t p m x).trans (h x hx)

theorem RegsBut.noticeAll {s t : State} {l : List Nat} (m : String) (h : RegsBut s t l) : RegsBut s (t.noticeAll m) l :=
  fun x hx => (State.rd_noticeAll t m x).trans (h x hx)

theorem RegsBut.setCon {s t : State} {l : List Nat} (p : Nat) (c : ConSt) (h : RegsBut s t l) : RegsBut s (t.setCon p c) l :=
  fun x hx => (State.rd_setCon t p c x).trans (h x hx)

theorem RegsBut.wrBytes {s t : State} {l : List Nat} (a : Nat) (m : List Byte) (h : RegsBut s t l) : RegsBut s (t.wrBytes a m) l :=
  fun x hx => (State.rd_wrBytes t a m x).trans (h x hx)

theorem RegsBut.foldl {α : Type} {s t : State} {l : List Nat} (f : State → α → State) (m : List α) (hf : ∀ u x, x ∈ m → RegsBut s u l → RegsBut s (f u x) l)
    (h : RegsBut s t l) : RegsBut s (m.foldl f t) l := by
  induction m generalizing t with
  | nil => exact h
  | cons a r ih => exact ih (fun u x hx => hf u x (List.mem_cons_of_mem _ hx)) (hf _ _ (List.mem_cons_self ..) h)

end Sys2Proof.Machine
end

