-- ==== Sys2Proof/Laws/KeptOps.lean ====
section
/-!
SUPPORT. The shared operations over registers, memory, the logbook, the tally, orders and seats keep the queue, the canonical registers and the canonical memory: one lemma per operation, each from the lemmas of the operations it calls.
-/

namespace Sys2Proof.Machine

/-- What the operations of the model keep: the queue of commands, the order of the draws of free values, the canonical form of the registers and the memory; and, where the flag is false, every byte of memory (cm), the non-volatile store (cn) and the configuration in force (ci); and that no acts of a catch are in progress. -/
structure Kept (cm cn ci : Bool) (s t : State) : Prop where
  queue : t.pending = s.pending
  free : s.freeCtr ≤ t.freeCtr
  regs : Tab.wf regReset s.regs = true → Tab.wf regReset t.regs = true
  mem : Memory.wf s.mem = true → Memory.wf t.mem = true
  memSame : cm = false → t.mem = s.mem
  nvSame : cn = false → t.nv = s.nv
  forceSame : ci = false → t.inForce = s.inForce
  acts : s.acts = .idle → t.acts = .idle

theorem Kept.trans {cm cn ci : Bool} {s t u : State} (h : Kept cm cn ci s t) (k : Kept cm cn ci t u) : Kept cm cn ci s u :=
  ⟨k.1.trans h.1, Nat.le_trans h.2 k.2, fun w => k.3 (h.3 w), fun w => k.4 (h.4 w), fun w => (k.5 w).trans (h.5 w), fun w => (k.6 w).trans (h.6 w),
    fun w => (k.7 w).trans (h.7 w), fun w => k.8 (h.8 w)⟩

theorem Kept.refl (cm cn ci : Bool) (s : State) : Kept cm cn ci s s := ⟨rfl, Nat.le_refl _, id, id, fun _ => rfl, fun _ => rfl, fun _ => rfl, id⟩

theorem foldl_kept {α : Type} {cm cn ci : Bool} {s0 s : State} (f : State → α → State) (l : List α) (hf : ∀ t x, Kept cm cn ci s0 t → Kept cm cn ci s0 (f t x))
    (h : Kept cm cn ci s0 s) : Kept cm cn ci s0 (l.foldl f s) := by
  induction l generalizing s with
  | nil => exact h
  | cons a t ih => exact ih (hf _ _ h)

theorem foldl_pair_kept {α β : Type} {cm cn ci : Bool} {s0 : State} (f : State × β → α → State × β) (l : List α) (p : State × β)
    (hf : ∀ q x, Kept cm cn ci s0 q.1 → Kept cm cn ci s0 (f q x).1) (h : Kept cm cn ci s0 p.1) : Kept cm cn ci s0 (l.foldl f p).1 := by
  induction l generalizing p with
  | nil => exact h
  | cons a t ih => exact ih _ (hf _ _ h)

theorem dropRegs_kept {cm cn ci : Bool} {s0 s : State} (p : Nat → Bool) (h : Kept cm cn ci s0 s) : Kept cm cn ci s0 { s with regs := Tab.drop p s.regs } :=
  ⟨h.1, h.2, fun k => Tab.wf_drop regReset p _ (h.3 k), h.4, h.5, h.6, h.7, h.8⟩

theorem ite_kept {cm cn ci : Bool} {s0 a b : State} {c : Prop} [Decidable c] (ha : c → Kept cm cn ci s0 a) (hb : ¬c → Kept cm cn ci s0 b) :
    Kept cm cn ci s0 (if c then a else b) := by
  split
  · exact ha ‹_›
  · exact hb ‹_›

/-- An update of fields other than the registers, the memory, the non-volatile store, the configuration in force, the queue and the draw counter. -/

theorem mk_kept {cm cn ci : Bool} {s0 t : State} {f3 f4 f5 f6 f7 f8 f9 f10 f11 f14 f15 f16 f17 f18 f19 f20 f21 f22 f23 f24 f25 f26 f27 f28 f29 f30 f31 f32 f33} :
    Kept cm cn ci s0 (State.mk t.regs t.mem f3 f4 f5 f6 f7 f8 f9 f10 f11 t.inForce t.nv f14 f15 f16 f17 f18 f19 f20 f21 f22 f23 f24 f25 f26 f27 f28 f29 f30 f31 f32 f33 t.pending t.freeCtr t.acts) ↔ Kept cm cn ci s0 t :=
  ⟨fun h => ⟨h.1, h.2, h.3, h.4, h.5, h.6, h.7, h.8⟩, fun h => ⟨h.1, h.2, h.3, h.4, h.5, h.6, h.7, h.8⟩⟩

theorem mk_kept_nv {m i : Bool} {s0 t : State} {f3 f4 f5 f6 f7 f8 f9 f10 f11 f13 f14 f15 f16 f17 f18 f19 f20 f21 f22 f23 f24 f25 f26 f27 f28 f29 f30 f31 f32 f33} :
    Kept m true i s0 (State.mk t.regs t.mem f3 f4 f5 f6 f7 f8 f9 f10 f11 t.inForce f13 f14 f15 f16 f17 f18 f19 f20 f21 f22 f23 f24 f25 f26 f27 f28 f29 f30 f31 f32 f33 t.pending t.freeCtr t.acts) ↔ Kept m true i s0 t :=
  ⟨fun h => ⟨h.1, h.2, h.3, h.4, h.5, (fun k => nomatch k), h.7, h.8⟩, fun h => ⟨h.1, h.2, h.3, h.4, h.5, (fun k => nomatch k), h.7, h.8⟩⟩

theorem mk_kept_force {m v : Bool} {s0 t : State} {f3 f4 f5 f6 f7 f8 f9 f10 f11 f12 f14 f15 f16 f17 f18 f19 f20 f21 f22 f23 f24 f25 f26 f27 f28 f29 f30 f31 f32 f33} :
    Kept m v true s0 (State.mk t.regs t.mem f3 f4 f5 f6 f7 f8 f9 f10 f11 f12 t.nv f14 f15 f16 f17 f18 f19 f20 f21 f22 f23 f24 f25 f26 f27 f28 f29 f30 f31 f32 f33 t.pending t.freeCtr t.acts) ↔ Kept m v true s0 t :=
  ⟨fun h => ⟨h.1, h.2, h.3, h.4, h.5, h.6, (fun k => nomatch k), h.8⟩, fun h => ⟨h.1, h.2, h.3, h.4, h.5, h.6, (fun k => nomatch k), h.8⟩⟩

theorem mk_kept_both {m : Bool} {s0 t : State} {f3 f4 f5 f6 f7 f8 f9 f10 f11 f12 f13 f14 f15 f16 f17 f18 f19 f20 f21 f22 f23 f24 f25 f26 f27 f28 f29 f30 f31 f32 f33} :
    Kept m true true s0 (State.mk t.regs t.mem f3 f4 f5 f6 f7 f8 f9 f10 f11 f12 f13 f14 f15 f16 f17 f18 f19 f20 f21 f22 f23 f24 f25 f26 f27 f28 f29 f30 f31 f32 f33 t.pending t.freeCtr t.acts) ↔ Kept m true true s0 t :=
  ⟨fun h => ⟨h.1, h.2, h.3, h.4, h.5, (fun k => nomatch k), (fun k => nomatch k), h.8⟩, fun h => ⟨h.1, h.2, h.3, h.4, h.5, (fun k => nomatch k), (fun k => nomatch k), h.8⟩⟩

theorem State.wr_kept {cm cn ci : Bool} {s0 s : State} (a : Nat) (v : Word) (hk : Kept cm cn ci s0 s) : Kept cm cn ci s0 (State.wr s a v) := ⟨hk.1, hk.2, fun k => Tab.wf_put regReset _ _ _ (hk.3 k), hk.4, hk.5, hk.6, hk.7, hk.8⟩

theorem State.wrN_kept {cm cn ci : Bool} {s0 s : State} (a : Nat) (n : Nat) (hk : Kept cm cn ci s0 s) : Kept cm cn ci s0 (State.wrN s a n) := by
  unfold State.wrN
  try dsimp only
  repeat' first | with_reducible first | assumption | (apply ite_kept <;> intro _) | simp only [mk_kept] | apply State.wr_kept | (split <;> try dsimp only)

theorem State.setFld_kept {cm cn ci : Bool} {s0 s : State} (a : Nat) (lo : Nat) (w : Nat) (v : Nat) (hk : Kept cm cn ci s0 s) : Kept cm cn ci s0 (State.setFld s a lo w v) := by
  unfold State.setFld
  try dsimp only
  repeat' first | with_reducible first | assumption | (apply ite_kept <;> intro _) | simp only [mk_kept] | apply State.wrN_kept | (split <;> try dsimp only)

theorem State.setBit_kept {cm cn ci : Bool} {s0 s : State} (a : Nat) (b : Nat) (v : Bool) (hk : Kept cm cn ci s0 s) : Kept cm cn ci s0 (State.setBit s a b v) := by
  unfold State.setBit
  try dsimp only
  repeat' first | with_reducible first | assumption | (apply ite_kept <;> intro _) | simp only [mk_kept] | apply State.setFld_kept | (split <;> try dsimp only)

theorem State.orReg_kept {cm cn ci : Bool} {s0 s : State} (a : Nat) (m : Nat) (hk : Kept cm cn ci s0 s) : Kept cm cn ci s0 (State.orReg s a m) := by
  unfold State.orReg
  try dsimp only
  repeat' first | with_reducible first | assumption | (apply ite_kept <;> intro _) | simp only [mk_kept] | apply State.wrN_kept | (split <;> try dsimp only)

theorem State.clrReg_kept {cm cn ci : Bool} {s0 s : State} (a : Nat) (m : Nat) (hk : Kept cm cn ci s0 s) : Kept cm cn ci s0 (State.clrReg s a m) := by
  unfold State.clrReg
  try dsimp only
  repeat' first | with_reducible first | assumption | (apply ite_kept <;> intro _) | simp only [mk_kept] | apply State.wrN_kept | (split <;> try dsimp only)

theorem State.incSat_kept {cm cn ci : Bool} {s0 s : State} (a : Nat) (lo : Nat) (w : Nat) (k : Nat) (hk : Kept cm cn ci s0 s) : Kept cm cn ci s0 (State.incSat s a lo w k) := by
  unfold State.incSat
  try dsimp only
  repeat' first | with_reducible first | assumption | (apply ite_kept <;> intro _) | simp only [mk_kept] | apply State.setFld_kept | (split <;> try dsimp only)

theorem State.wrB_kept {cn ci : Bool} {s0 s : State} (a : Nat) (v : Byte) (hk : Kept true cn ci s0 s) : Kept true cn ci s0 (State.wrB s a v) := ⟨hk.1, hk.2, hk.3, fun k => Tab.wf_put memDflt _ _ _ (hk.4 k), (fun k => nomatch k), hk.6, hk.7, hk.8⟩

theorem State.wrBytes_kept {cn ci : Bool} {s0 s : State} (a : Nat) (x0 : List Byte) (hk : Kept true cn ci s0 s) : Kept true cn ci s0 (State.wrBytes s a x0) := by
  induction x0 generalizing s a with
  | nil => exact hk
  | cons b t ih => exact ih _ (State.wrB_kept _ _ hk)

theorem State.st_kept {cn ci : Bool} {s0 s : State} (a : Nat) (n : Nat) (v : Nat) (hk : Kept true cn ci s0 s) : Kept true cn ci s0 (State.st s a n v) := by
  unfold State.st
  try dsimp only
  repeat' first | with_reducible first | assumption | (apply ite_kept <;> intro _) | simp only [mk_kept] | apply State.wrBytes_kept | (split <;> try dsimp only)

theorem State.clearMem_kept {cn ci : Bool} {s0 s : State} (lo : Nat) (hi : Nat) (hk : Kept true cn ci s0 s) : Kept true cn ci s0 (State.clearMem s lo hi) := ⟨hk.1, hk.2, hk.3, fun k => Tab.wf_drop memDflt (fun a => decide (lo ≤ a) && decide (a < hi)) _ (hk.4 k), (fun k => nomatch k), hk.6, hk.7, hk.8⟩

theorem State.free_kept {cm cn ci : Bool} {s0 s : State} (hk : Kept cm cn ci s0 s) : Kept cm cn ci s0 (State.free s).2 := ⟨hk.1, Nat.le_succ_of_le hk.2, hk.3, hk.4, hk.5, hk.6, hk.7, hk.8⟩

theorem State.freeBytes_kept {cm cn ci : Bool} {s0 s : State} (n : Nat) (hk : Kept cm cn ci s0 s) : Kept cm cn ci s0 (State.freeBytes s n).2 := by
  unfold State.freeBytes
  try dsimp only
  repeat' first | with_reducible first | assumption | (apply ite_kept <;> intro _) | simp only [mk_kept] | apply State.free_kept | (split <;> try dsimp only) | grind [State.free_kept]

theorem State.spoil_kept {cn ci : Bool} {s0 s : State} (a : Nat) (n : Nat) (hk : Kept true cn ci s0 s) : Kept true cn ci s0 (State.spoil s a n) := by
  unfold State.spoil
  try dsimp only
  repeat' first | with_reducible first | assumption | (apply ite_kept <;> intro _) | simp only [mk_kept] | apply State.freeBytes_kept | apply State.wrBytes_kept | (split <;> try dsimp only) | grind [State.freeBytes_kept]

theorem State.atUs_kept {cm cn ci : Bool} {s0 s : State} (us : Nat) (hk : Kept cm cn ci s0 s) : Kept cm cn ci s0 (State.atUs s us) := by
  unfold State.atUs
  try dsimp only
  repeat' first | with_reducible first | assumption | (apply ite_kept <;> intro _) | simp only [mk_kept] | apply State.setFld_kept | (split <;> try dsimp only)

theorem State.applyAt_kept {cm cn : Bool} {s0 s : State} (m : Applied) (hk : Kept cm cn true s0 s) : Kept cm cn true s0 (State.applyAt s m) := by
  unfold State.applyAt
  try dsimp only
  repeat' first | with_reducible first | assumption | (apply ite_kept <;> intro _) | simp only [mk_kept, mk_kept_force] | (split <;> try dsimp only)

theorem State.setBucket_kept {cm cn ci : Bool} {s0 s : State} (k : Nat) (b : Bucket) (hk : Kept cm cn ci s0 s) : Kept cm cn ci s0 (State.setBucket s k b) := by
  unfold State.setBucket
  try dsimp only
  repeat' first | with_reducible first | assumption | (apply ite_kept <;> intro _) | simp only [mk_kept] | (split <;> try dsimp only)

theorem State.setPend_kept {cm cn ci : Bool} {s0 s : State} (l : List LogRec) (hk : Kept cm cn ci s0 s) : Kept cm cn ci s0 (State.setPend s l) := by
  unfold State.setPend
  try dsimp only
  repeat' first | with_reducible first | assumption | (apply ite_kept <;> intro _) | simp only [mk_kept] | apply State.setFld_kept | (split <;> try dsimp only)

theorem State.reportLost_kept {cm cn ci : Bool} {s0 s : State} (b : Nat) (hk : Kept cm cn ci s0 s) : Kept cm cn ci s0 (State.reportLost s b) := by
  unfold State.reportLost
  try dsimp only
  repeat' first | with_reducible first | assumption | (apply ite_kept <;> intro _) | simp only [mk_kept] | apply State.setPend_kept | (split <;> try dsimp only)

theorem State.submit_kept {cm cn ci : Bool} {s0 s : State} (unit : List LogRec) (hk : Kept cm cn ci s0 s) : Kept cm cn ci s0 (State.submit s unit).2 := by
  unfold State.submit
  try dsimp only
  repeat' first | with_reducible first | assumption | (apply ite_kept <;> intro _) | simp only [mk_kept] | apply State.setBucket_kept | apply State.incSat_kept | apply State.reportLost_kept | apply State.setBit_kept | apply State.setPend_kept | (split <;> try dsimp only)

theorem State.logIn_kept {cm cn ci : Bool} {s0 s : State} (book : Nat) (code : Nat) (source : Nat) (args : List Byte) (hk : Kept cm cn ci s0 s) : Kept cm cn ci s0 (State.logIn s book code source args) := by
  unfold State.logIn
  try dsimp only
  repeat' first | with_reducible first | assumption | (apply ite_kept <;> intro _) | simp only [mk_kept] | apply State.submit_kept | (split <;> try dsimp only) | grind [State.submit_kept]

theorem State.logS_kept {cm cn ci : Bool} {s0 s : State} (code : Nat) (args : List Byte) (hk : Kept cm cn ci s0 s) : Kept cm cn ci s0 (State.logS s code args) := by
  unfold State.logS
  try dsimp only
  repeat' first | with_reducible first | assumption | (apply ite_kept <;> intro _) | simp only [mk_kept] | apply State.logIn_kept | (split <;> try dsimp only)

theorem State.logT0_kept {cm cn ci : Bool} {s0 s : State} (code : Nat) (args : List Byte) (hk : Kept cm cn ci s0 s) : Kept cm cn ci s0 (State.logT0 s code args) := by
  unfold State.logT0
  try dsimp only
  repeat' first | with_reducible first | assumption | (apply ite_kept <;> intro _) | simp only [mk_kept] | apply State.logIn_kept | (split <;> try dsimp only)

theorem State.logS0_kept {cm cn ci : Bool} {s0 s : State} (code : Nat) (args : List Byte) (hk : Kept cm cn ci s0 s) : Kept cm cn ci s0 (State.logS0 s code args) := by
  unfold State.logS0
  try dsimp only
  repeat' first | with_reducible first | assumption | (apply ite_kept <;> intro _) | simp only [mk_kept] | apply State.logS_kept | apply State.logT0_kept | (split <;> try dsimp only)

theorem State.logSK_kept {cm cn ci : Bool} {s0 s : State} (k : Nat) (code : Nat) (args : List Byte) (hk : Kept cm cn ci s0 s) : Kept cm cn ci s0 (State.logSK s k code args) := by
  unfold State.logSK
  try dsimp only
  repeat' first | with_reducible first | assumption | (apply ite_kept <;> intro _) | simp only [mk_kept] | apply State.logS_kept | apply State.logIn_kept | (split <;> try dsimp only)

theorem State.setEvp_kept {cm cn ci : Bool} {s0 s : State} (k : Nat) (bits : Nat) (hk : Kept cm cn ci s0 s) : Kept cm cn ci s0 (State.setEvp s k bits) := by
  unfold State.setEvp
  try dsimp only
  repeat' first | with_reducible first | assumption | (apply ite_kept <;> intro _) | simp only [mk_kept] | apply State.orReg_kept | (split <;> try dsimp only)

theorem State.setEvpAll_kept {cm cn ci : Bool} {s0 s : State} (bits : Nat) (hk : Kept cm cn ci s0 s) : Kept cm cn ci s0 (State.setEvpAll s bits) := by
  unfold State.setEvpAll
  try dsimp only
  repeat' first | with_reducible first | assumption | (apply ite_kept <;> intro _) | simp only [mk_kept] | apply State.setEvp_kept | (with_reducible refine foldl_kept _ _ (fun _ _ _ => ?_) ?_ <;> try dsimp only) | (split <;> try dsimp only)

theorem State.setCon_kept {cm cn ci : Bool} {s0 s : State} (p : Nat) (c : ConSt) (hk : Kept cm cn ci s0 s) : Kept cm cn ci s0 (State.setCon s p c) := by
  unfold State.setCon
  try dsimp only
  repeat' first | with_reducible first | assumption | (apply ite_kept <;> intro _) | simp only [mk_kept] | (split <;> try dsimp only)

theorem State.showCon_kept {cm cn ci : Bool} {s0 s : State} (p : Nat) (hk : Kept cm cn ci s0 s) : Kept cm cn ci s0 (State.showCon s p) := by
  unfold State.showCon
  try dsimp only
  repeat' first | with_reducible first | assumption | (apply ite_kept <;> intro _) | simp only [mk_kept] | apply State.setBit_kept | apply State.setFld_kept | (split <;> try dsimp only)

theorem State.notice_kept {cm cn ci : Bool} {s0 s : State} (p : Nat) (body : String) (hk : Kept cm cn ci s0 s) : Kept cm cn ci s0 (State.notice s p body) := by
  unfold State.notice
  try dsimp only
  repeat' first | with_reducible first | assumption | (apply ite_kept <;> intro _) | simp only [mk_kept] | apply State.setCon_kept | (split <;> try dsimp only)

theorem State.sayLine_kept {cm cn ci : Bool} {s0 s : State} (p : Nat) (tag : Option String) (more : Bool) (body : String) (hk : Kept cm cn ci s0 s) : Kept cm cn ci s0 (State.sayLine s p tag more body) := by
  unfold State.sayLine
  try dsimp only
  repeat' first | with_reducible first | assumption | (apply ite_kept <;> intro _) | simp only [mk_kept] | apply State.setCon_kept | (split <;> try dsimp only)

theorem State.say_kept {cm cn ci : Bool} {s0 s : State} (p : Nat) (tag : Option String) (x0 : List String) (hk : Kept cm cn ci s0 s) : Kept cm cn ci s0 (State.say s p tag x0) := by
  induction x0 generalizing s with
  | nil => exact hk
  | cons b t ih =>
    cases t with
    | nil => exact State.sayLine_kept _ _ _ _ hk
    | cons c t => exact ih (State.sayLine_kept _ _ _ _ hk)

theorem State.noticeAll_kept {cm cn ci : Bool} {s0 s : State} (body : String) (hk : Kept cm cn ci s0 s) : Kept cm cn ci s0 (State.noticeAll s body) := by
  unfold State.noticeAll
  try dsimp only
  repeat' first | with_reducible first | assumption | (apply ite_kept <;> intro _) | simp only [mk_kept] | apply State.notice_kept | (split <;> try dsimp only)

theorem State.byRequester_kept {cm cn ci : Bool} {s0 s t : State} (hs : Kept cm cn ci s0 s) (ht : Kept cm cn ci s0 t) : Kept cm cn ci s0 (State.byRequester s t) := by
  unfold State.byRequester
  split
  · exact ht
  · exact hs

theorem State.setStanding_kept {cm cn ci : Bool} {s0 s : State} (t : Nat) (v : Int) (hk : Kept cm cn ci s0 s) : Kept cm cn ci s0 (State.setStanding s t v) := by
  unfold State.setStanding
  try dsimp only
  repeat' first | with_reducible first | assumption | (apply ite_kept <;> intro _) | simp only [mk_kept] | (split <;> try dsimp only)

theorem State.tallyAppend_kept {ci : Bool} {s0 s : State} (id : Nat) (v : Nat) (hk : Kept true true ci s0 s) : Kept true true ci s0 (State.tallyAppend s id v) := by
  unfold State.tallyAppend
  try dsimp only
  repeat' first | with_reducible first | assumption | (apply ite_kept <;> intro _) | simp only [mk_kept, mk_kept_nv] | apply State.wrBytes_kept | (split <;> try dsimp only)

theorem State.eraseMilestone_kept {cm cn ci : Bool} {s0 s : State} (sector : Nat) (n : Nat) (hk : Kept cm cn ci s0 s) : Kept cm cn ci s0 (State.eraseMilestone s sector n) := by
  unfold State.eraseMilestone
  try dsimp only
  repeat' first | with_reducible first | assumption | (apply ite_kept <;> intro _) | simp only [mk_kept] | apply State.logS_kept | (split <;> try dsimp only)

theorem State.tallyCompact_kept {ci : Bool} {s0 s : State} (hk : Kept true true ci s0 s) : Kept true true ci s0 (State.tallyCompact s) := by
  unfold State.tallyCompact
  try dsimp only
  repeat' first | with_reducible first | assumption | (apply ite_kept <;> intro _) | simp only [mk_kept, mk_kept_nv] | apply State.clearMem_kept | apply State.tallyAppend_kept | apply State.wrBytes_kept | apply State.logS_kept | apply State.eraseMilestone_kept | (with_reducible refine foldl_kept _ _ (fun _ _ _ => ?_) ?_ <;> try dsimp only) | (split <;> try dsimp only)

theorem State.tallyWrite_kept {ci : Bool} {s0 s : State} (id : Nat) (v : Nat) (hk : Kept true true ci s0 s) : Kept true true ci s0 (State.tallyWrite s id v) := by
  unfold State.tallyWrite
  try dsimp only
  repeat' first | with_reducible first | assumption | (apply ite_kept <;> intro _) | simp only [mk_kept, mk_kept_nv] | apply State.tallyCompact_kept | apply State.tallyAppend_kept | (split <;> try dsimp only)

theorem State.tallyOp_kept {ci : Bool} {s0 s : State} (id : Nat) (hk : Kept true true ci s0 s) : Kept true true ci s0 (State.tallyOp s id) := by
  unfold State.tallyOp
  try dsimp only
  repeat' first | with_reducible first | assumption | (apply ite_kept <;> intro _) | simp only [mk_kept, mk_kept_nv] | apply State.tallyWrite_kept | (split <;> try dsimp only)

theorem State.tallyDeny_kept {cm cn ci : Bool} {s0 s : State} (hk : Kept cm cn ci s0 s) : Kept cm cn ci s0 (State.tallyDeny s) := by
  unfold State.tallyDeny
  try dsimp only
  repeat' first | with_reducible first | assumption | (apply ite_kept <;> intro _) | simp only [mk_kept] | (split <;> try dsimp only)

theorem State.tallyFlush_kept {ci : Bool} {s0 s : State} (hk : Kept true true ci s0 s) : Kept true true ci s0 (State.tallyFlush s) := by
  unfold State.tallyFlush
  try dsimp only
  repeat' first | with_reducible first | assumption | (apply ite_kept <;> intro _) | simp only [mk_kept, mk_kept_nv] | apply State.tallyWrite_kept | (with_reducible refine foldl_kept _ _ (fun _ _ _ => ?_) ?_ <;> try dsimp only) | (split <;> try dsimp only)

theorem State.runFor_kept {cm cn ci : Bool} {s0 s : State} (n : Nat) (hk : Kept cm cn ci s0 s) : Kept cm cn ci s0 (State.runFor s n) := by
  unfold State.runFor
  try dsimp only
  repeat' first | with_reducible first | assumption | (apply ite_kept <;> intro _) | simp only [mk_kept] | (split <;> try dsimp only)

theorem State.tallyAcc_kept {cm cn ci : Bool} {s0 s : State} (id : Nat) (n : Nat) (hk : Kept cm cn ci s0 s) : Kept cm cn ci s0 (State.tallyAcc s id n) := by
  unfold State.tallyAcc
  try dsimp only
  repeat' first | with_reducible first | assumption | (apply ite_kept <;> intro _) | simp only [mk_kept] | (split <;> try dsimp only)

theorem State.tallyCommit_kept {ci : Bool} {s0 s : State} (hk : Kept true true ci s0 s) : Kept true true ci s0 (State.tallyCommit s) := by
  unfold State.tallyCommit
  try dsimp only
  repeat' first | with_reducible first | assumption | (apply ite_kept <;> intro _) | simp only [mk_kept, mk_kept_nv] | apply State.tallyWrite_kept | (with_reducible refine foldl_kept _ _ (fun _ _ _ => ?_) ?_ <;> try dsimp only) | (split <;> try dsimp only)

theorem State.placeOrder_kept {cm cn ci : Bool} {s0 s : State} (source : Nat) (rank : Nat) (kind : Nat) (target : Nat) (value : Int) (ref : Nat) (stamp : Nat) (origin : Origin) (hk : Kept cm cn ci s0 s) : Kept cm cn ci s0 (State.placeOrder s source rank kind target value ref stamp origin) := by
  unfold State.placeOrder
  try dsimp only
  repeat' first | with_reducible first | assumption | (apply ite_kept <;> intro _) | simp only [mk_kept] | (split <;> try dsimp only)

theorem State.protectOpen_kept {cm cn ci : Bool} {s0 s : State} (target : Nat) (hk : Kept cm cn ci s0 s) : Kept cm cn ci s0 (State.protectOpen s target) := by
  unfold State.protectOpen
  try dsimp only
  repeat' first | with_reducible first | assumption | (apply ite_kept <;> intro _) | simp only [mk_kept] | apply State.placeOrder_kept | (split <;> try dsimp only)

theorem State.setHelm_kept {cm cn ci : Bool} {s0 s : State} (h : Helm) (cause : Nat) (hk : Kept cm cn ci s0 s) : Kept cm cn ci s0 (State.setHelm s h cause) := by
  unfold State.setHelm
  try dsimp only
  repeat' first | with_reducible first | assumption | (apply ite_kept <;> intro _) | simp only [mk_kept] | apply State.logS0_kept | (split <;> try dsimp only)

theorem State.freeHelm_kept {cm cn ci : Bool} {s0 s : State} (cause : Nat) (hk : Kept cm cn ci s0 s) : Kept cm cn ci s0 (State.freeHelm s cause) := by
  unfold State.freeHelm
  try dsimp only
  repeat' first | with_reducible first | assumption | (apply ite_kept <;> intro _) | simp only [mk_kept] | apply State.setHelm_kept | apply State.notice_kept | (split <;> try dsimp only)

theorem State.freeHelmOf_kept {cm cn ci : Bool} {s0 s : State} (src : Nat) (cause : Nat) (hk : Kept cm cn ci s0 s) : Kept cm cn ci s0 (State.freeHelmOf s src cause) := by
  unfold State.freeHelmOf
  try dsimp only
  repeat' first | with_reducible first | assumption | (apply ite_kept <;> intro _) | simp only [mk_kept] | apply State.freeHelm_kept | (split <;> try dsimp only)

theorem State.crewHelmTaken_kept {cm cn ci : Bool} {s0 s : State} (holder : Nat) (hk : Kept cm cn ci s0 s) : Kept cm cn ci s0 (State.crewHelmTaken s holder) := by
  unfold State.crewHelmTaken
  try dsimp only
  repeat' first | with_reducible first | assumption | (apply ite_kept <;> intro _) | simp only [mk_kept] | (split <;> try dsimp only)

theorem State.takeHelm_kept {cn ci : Bool} {s0 s : State} (o : Order) (hk : Kept true cn ci s0 s) : Kept true cn ci s0 (State.takeHelm s o) := by
  unfold State.takeHelm
  try dsimp only
  repeat' first | with_reducible first | assumption | (apply ite_kept <;> intro _) | simp only [mk_kept] | apply State.setHelm_kept | apply State.st_kept | apply State.setEvp_kept | apply State.notice_kept | apply State.crewHelmTaken_kept | (split <;> try dsimp only)

theorem State.openAll_kept {cm cn ci : Bool} {s0 s : State} (hk : Kept cm cn ci s0 s) : Kept cm cn ci s0 (State.openAll s) := by
  unfold State.openAll
  try dsimp only
  repeat' first | with_reducible first | assumption | (apply ite_kept <;> intro _) | simp only [mk_kept] | (with_reducible refine foldl_kept _ _ (fun _ _ _ => ?_) ?_ <;> try dsimp only) | (split <;> try dsimp only)

theorem State.easyHeld_kept {cm cn ci : Bool} {s0 s : State} (cause : Nat) (hk : Kept cm cn ci s0 s) : Kept cm cn ci s0 (State.easyHeld s cause) := by
  unfold State.easyHeld
  try dsimp only
  repeat' first | with_reducible first | assumption | (apply ite_kept <;> intro _) | simp only [mk_kept] | (split <;> try dsimp only)

theorem State.easyNow_kept {ci : Bool} {s0 s : State} (cause : Nat) (hk : Kept true true ci s0 s) : Kept true true ci s0 (State.easyNow s cause) := by
  unfold State.easyNow
  try dsimp only
  repeat' first | with_reducible first | assumption | (apply ite_kept <;> intro _) | simp only [mk_kept, mk_kept_nv] | apply State.logS_kept | apply State.tallyOp_kept | apply State.freeHelm_kept | apply State.openAll_kept | apply State.setEvpAll_kept | apply State.noticeAll_kept | (split <;> try dsimp only)

theorem State.easy_kept {ci : Bool} {s0 s : State} (cause : Nat) (hk : Kept true true ci s0 s) : Kept true true ci s0 (State.easy s cause) := by
  unfold State.easy
  split
  · exact State.easyHeld_kept cause hk
  · split
    · rename_i l e
      exact ⟨hk.1, hk.2, hk.3, hk.4, hk.5, hk.6, hk.7, fun w => absurd (hk.8 w) (by simp [e])⟩
    · exact State.easyNow_kept cause hk

theorem State.easyAtEnd_kept {ci : Bool} {s0 s : State} (cause : Nat) (hk : Kept true true ci s0 s) : Kept true true ci s0 (State.easyAtEnd s cause) := by
  unfold State.easyAtEnd
  try dsimp only
  repeat' first | with_reducible first | assumption | (apply ite_kept <;> intro _) | simp only [mk_kept, mk_kept_nv] | apply State.easyHeld_kept | apply State.easy_kept | (split <;> try dsimp only)

theorem State.easyMany_kept {ci : Bool} {s0 s : State} (causes : List Nat) (hk : Kept true true ci s0 s) : Kept true true ci s0 (State.easyMany s causes) := by
  unfold State.easyMany
  try dsimp only
  repeat' first | with_reducible first | assumption | (apply ite_kept <;> intro _) | simp only [mk_kept, mk_kept_nv] | apply State.easyNow_kept | (with_reducible refine foldl_kept _ _ (fun _ _ _ => ?_) ?_ <;> try dsimp only) | (split <;> try dsimp only)

theorem State.findCauses_kept {cm cn ci : Bool} {s0 s : State} (ha : s0.acts ≠ .idle) (hk : Kept cm cn ci s0 s) : Kept cm cn ci s0 (State.findCauses s) :=
  ⟨hk.1, hk.2, hk.3, hk.4, hk.5, hk.6, hk.7, fun w => absurd w ha⟩

theorem State.takeCauses_kept {ci : Bool} {s0 s : State} (ha : s0.acts ≠ .idle) (hk : Kept true true ci s0 s) : Kept true true ci s0 (State.takeCauses s) :=
  State.easyMany_kept _ ⟨hk.1, hk.2, hk.3, hk.4, hk.5, hk.6, hk.7, fun w => absurd w ha⟩

theorem State.leaveEasy_kept {cm cn ci : Bool} {s0 s : State} (how : Nat) (hk : Kept cm cn ci s0 s) : Kept cm cn ci s0 (State.leaveEasy s how) := by
  unfold State.leaveEasy
  try dsimp only
  repeat' first | with_reducible first | assumption | (apply ite_kept <;> intro _) | simp only [mk_kept] | apply State.logS_kept | apply State.noticeAll_kept | (split <;> try dsimp only)

theorem State.logOutcome_kept {cm cn ci : Bool} {s0 s : State} (x : Outcome) (hk : Kept cm cn ci s0 s) : Kept cm cn ci s0 (State.logOutcome s x) := by
  unfold State.logOutcome
  try dsimp only
  repeat' first | with_reducible first | assumption | (apply ite_kept <;> intro _) | simp only [mk_kept] | apply State.logIn_kept | (split <;> try dsimp only)

theorem State.writeReply_kept {cn ci : Bool} {s0 s : State} (k : Nat) (e : Nat) (x : Outcome) (hk : Kept true cn ci s0 s) : Kept true cn ci s0 (State.writeReply s k e x) := by
  unfold State.writeReply
  try dsimp only
  repeat' first | with_reducible first | assumption | (apply ite_kept <;> intro _) | simp only [mk_kept] | apply State.wrBytes_kept | (split <;> try dsimp only)

theorem State.writeReplies_kept {cn ci : Bool} {s0 s : State} (outs : List Outcome) (k : Nat) (hk : Kept true cn ci s0 s) : Kept true cn ci s0 (State.writeReplies s outs k) := by
  unfold State.writeReplies
  try dsimp only
  repeat' first | with_reducible first | assumption | (apply ite_kept <;> intro _) | simp only [mk_kept] | apply State.writeReply_kept | apply State.st_kept | apply State.setEvp_kept | (with_reducible refine foldl_kept _ _ (fun _ _ _ => ?_) ?_ <;> try dsimp only) | (split <;> try dsimp only)

theorem State.setSeat_kept {cm cn ci : Bool} {s0 s : State} (n : Nat) (x : SeatSt) (hk : Kept cm cn ci s0 s) : Kept cm cn ci s0 (State.setSeat s n x) := by
  unfold State.setSeat
  try dsimp only
  repeat' first | with_reducible first | assumption | (apply ite_kept <;> intro _) | simp only [mk_kept] | (split <;> try dsimp only)

theorem State.updSeat_kept {cm cn ci : Bool} {s0 s : State} (n : Nat) (f : SeatSt → SeatSt) (hk : Kept cm cn ci s0 s) : Kept cm cn ci s0 (State.updSeat s n f) := by
  unfold State.updSeat
  try dsimp only
  repeat' first | with_reducible first | assumption | (apply ite_kept <;> intro _) | simp only [mk_kept] | apply State.setSeat_kept | (split <;> try dsimp only)

theorem State.fillCells_kept {cm cn ci : Bool} {s0 s : State} (n : Nat) (hk : Kept cm cn ci s0 s) : Kept cm cn ci s0 (State.fillCells s n) := by
  unfold State.fillCells
  try dsimp only
  repeat' first | with_reducible first | assumption | (apply ite_kept <;> intro _) | simp only [mk_kept] | apply State.free_kept | apply State.setSeat_kept | (split <;> try dsimp only) | grind [State.free_kept]

theorem State.estSample_kept {cm cn ci : Bool} {s0 s : State} (n : Nat) (hk : Kept cm cn ci s0 s) : Kept cm cn ci s0 (State.estSample s n) := by
  unfold State.estSample
  try dsimp only
  repeat' first | with_reducible first | assumption | (apply ite_kept <;> intro _) | simp only [mk_kept] | apply State.fillCells_kept | apply State.setSeat_kept | (split <;> try dsimp only)

theorem State.helmStep_kept {cn ci : Bool} {s0 s : State} (helmOrders : List Placed) (tried : List Nat) (x0 : List Placed) (hk : Kept true cn ci s0 s) : Kept true cn ci s0 (State.helmStep s helmOrders tried x0).1 := by
  induction x0 generalizing s tried with
  | nil => exact hk
  | cons p t ih =>
    unfold State.helmStep
    dsimp only
    split
    · split
      · exact ih _ (State.setHelm_kept _ _ hk)
      · exact ih _ hk
    · split
      · exact ih _ hk
      · split
        · exact ih _ (State.takeHelm_kept _ hk)
        · exact ih _ hk

theorem State.resolveSet_kept {cn ci : Bool} {s0 s : State} (orders : List Order) (hk : Kept true cn ci s0 s) : Kept true cn ci s0 (State.resolveSet s orders).state := by
  unfold State.resolveSet
  try dsimp only
  repeat' first | with_reducible first | assumption | (apply ite_kept <;> intro _) | simp only [mk_kept] | apply State.helmStep_kept  | (split <;> try dsimp only) | grind [State.helmStep_kept]

end Sys2Proof.Machine
end

