-- ==== Sys2Proof/Laws/KeptChain.lean ====
section
/-!
SUPPORT. The chain, the radio and the logbook keep the queue, the canonical registers and the canonical memory: one lemma per operation, each from the lemmas of the operations it calls.
-/

namespace Sys2Proof.Machine

theorem State.setChn_kept {cm cn ci : Bool} {s0 s : State} (c : ChnSt) (hk : Kept cm cn ci s0 s) : Kept cm cn ci s0 (State.setChn s c) := by
  unfold State.setChn
  try dsimp only
  repeat' first | with_reducible first | assumption | (apply ite_kept <;> intro _) | simp only [mk_kept] | (split <;> try dsimp only)

theorem State.setRad_kept {cm cn ci : Bool} {s0 s : State} (r : RadSt) (hk : Kept cm cn ci s0 s) : Kept cm cn ci s0 (State.setRad s r) := by
  unfold State.setRad
  try dsimp only
  repeat' first | with_reducible first | assumption | (apply ite_kept <;> intro _) | simp only [mk_kept] | (split <;> try dsimp only)

theorem State.setHd_kept {cn ci : Bool} {s0 s : State} (t : Nat) (off : Nat) (n : Nat) (v : Nat) (hk : Kept true cn ci s0 s) : Kept true cn ci s0 (State.setHd s t off n v) := by
  unfold State.setHd
  try dsimp only
  repeat' first | with_reducible first | assumption | (apply ite_kept <;> intro _) | simp only [mk_kept] | apply State.st_kept | (split <;> try dsimp only)

theorem State.setPath_kept {cn ci : Bool} {s0 s : State} (t : Nat) (b : Nat) (hk : Kept true cn ci s0 s) : Kept true cn ci s0 (State.setPath s t b) := by
  unfold State.setPath
  try dsimp only
  repeat' first | with_reducible first | assumption | (apply ite_kept <;> intro _) | simp only [mk_kept] | apply State.setHd_kept | (split <;> try dsimp only)

theorem State.showTx_kept {cm cn ci : Bool} {s0 s : State} (hk : Kept cm cn ci s0 s) : Kept cm cn ci s0 (State.showTx s) := by
  unfold State.showTx
  try dsimp only
  repeat' first | with_reducible first | assumption | (apply ite_kept <;> intro _) | simp only [mk_kept] | apply State.setFld_kept | apply State.setBit_kept | (split <;> try dsimp only)

theorem State.showDone_kept {cm cn ci : Bool} {s0 s : State} (hk : Kept cm cn ci s0 s) : Kept cm cn ci s0 (State.showDone s) := by
  unfold State.showDone
  try dsimp only
  repeat' first | with_reducible first | assumption | (apply ite_kept <;> intro _) | simp only [mk_kept] | apply State.wrN_kept | (split <;> try dsimp only)

theorem State.setRing_kept {cm cn ci : Bool} {s0 s : State} (n : Nat) (hk : Kept cm cn ci s0 s) : Kept cm cn ci s0 (State.setRing s n) := by
  unfold State.setRing
  try dsimp only
  repeat' first | with_reducible first | assumption | (apply ite_kept <;> intro _) | simp only [mk_kept] | apply State.setFld_kept | apply State.setBit_kept | (split <;> try dsimp only)

theorem State.setReady_kept {cm cn ci : Bool} {s0 s : State} (dirB : Bool) (us : Nat) (hk : Kept cm cn ci s0 s) : Kept cm cn ci s0 (State.setReady s dirB us) := by
  unfold State.setReady
  try dsimp only
  repeat' first | with_reducible first | assumption | (apply ite_kept <;> intro _) | simp only [mk_kept] | apply State.setChn_kept | (split <;> try dsimp only)

theorem State.sendOn_kept {cm cn ci : Bool} {s0 s : State} (dirB : Bool) (f : Frame) (hk : Kept cm cn ci s0 s) : Kept cm cn ci s0 (State.sendOn s dirB f) := by
  unfold State.sendOn
  try dsimp only
  repeat' first | with_reducible first | assumption | (apply ite_kept <;> intro _) | simp only [mk_kept] | apply State.setChn_kept | (split <;> try dsimp only)

theorem State.broadcast_kept {cm cn ci : Bool} {s0 s : State} (type : Nat) (payload : List Byte) (hk : Kept cm cn ci s0 s) : Kept cm cn ci s0 (State.broadcast s type payload) := by
  unfold State.broadcast
  try dsimp only
  repeat' first | with_reducible first | assumption | (apply ite_kept <;> intro _) | simp only [mk_kept] | apply State.sendOn_kept | (split <;> try dsimp only)

theorem State.sendTx_kept {cm cn ci : Bool} {s0 s : State} (t : Nat) (dirB : Bool) (retry : Bool) (hk : Kept cm cn ci s0 s) : Kept cm cn ci s0 (State.sendTx s t dirB retry) := by
  unfold State.sendTx
  try dsimp only
  repeat' first | with_reducible first | assumption | (apply ite_kept <;> intro _) | simp only [mk_kept] | apply State.sendOn_kept | (split <;> try dsimp only)

theorem State.attempt_kept {cn ci : Bool} {s0 s : State} (t : Nat) (dirB : Bool) (hk : Kept true cn ci s0 s) : Kept true cn ci s0 (State.attempt s t dirB) := by
  unfold State.attempt
  try dsimp only
  repeat' first | with_reducible first | assumption | (apply ite_kept <;> intro _) | simp only [mk_kept] | apply State.setHd_kept | apply State.setPath_kept | apply State.setChn_kept | apply State.sendTx_kept | (split <;> try dsimp only)

theorem State.kick_kept {cn ci : Bool} {s0 s : State} (hk : Kept true cn ci s0 s) : Kept true cn ci s0 (State.kick s) := by
  unfold State.kick
  try dsimp only
  repeat' first | with_reducible first | assumption | (apply ite_kept <;> intro _) | simp only [mk_kept] | apply State.attempt_kept | apply State.showTx_kept | (split <;> try dsimp only)

theorem State.place_kept {cn ci : Bool} {s0 s : State} (t : Nat) (w : Wanted) (catch_ : Nat) (hk : Kept true cn ci s0 s) : Kept true cn ci s0 (State.place s t w catch_) := by
  unfold State.place
  try dsimp only
  repeat' first | with_reducible first | assumption | (apply ite_kept <;> intro _) | simp only [mk_kept] | apply State.wrBytes_kept | apply State.setChn_kept | apply State.setRad_kept | (split <;> try dsimp only)

theorem State.enqueue_kept {cn ci : Bool} {s0 s : State} (w : Wanted) (catch_ : Nat) (hk : Kept true cn ci s0 s) : Kept true cn ci s0 (State.enqueue s w catch_) := by
  unfold State.enqueue
  try dsimp only
  repeat' first | with_reducible first | assumption | (apply ite_kept <;> intro _) | simp only [mk_kept] | apply State.place_kept | apply State.setChn_kept | (split <;> try dsimp only)

theorem State.issue_kept {cn ci : Bool} {s0 s : State} (type : Nat) (seat : Nat) (paths : Nat) (catch_ : Nat) (req : List Byte) (rspLen : Nat) (cls : Nat) (hk : Kept true cn ci s0 s) : Kept true cn ci s0 (State.issue s type seat paths catch_ req rspLen cls) := by
  unfold State.issue
  try dsimp only
  repeat' first | with_reducible first | assumption | (apply ite_kept <;> intro _) | simp only [mk_kept] | apply State.enqueue_kept | apply State.kick_kept | (split <;> try dsimp only)

theorem State.issueWanted_kept {cn ci : Bool} {s0 s : State} (hk : Kept true cn ci s0 s) : Kept true cn ci s0 (State.issueWanted s) := by
  unfold State.issueWanted
  try dsimp only
  repeat' first | with_reducible first | assumption | (apply ite_kept <;> intro _) | simp only [mk_kept] | apply State.place_kept | apply State.setChn_kept | (with_reducible refine foldl_kept _ _ (fun _ _ _ => ?_) ?_ <;> try dsimp only) | (split <;> try dsimp only)

theorem State.dropTx_kept {cn ci : Bool} {s0 s : State} (t : Nat) (st : Nat) (hk : Kept true cn ci s0 s) : Kept true cn ci s0 (State.dropTx s t st) := by
  unfold State.dropTx
  try dsimp only
  repeat' first | with_reducible first | assumption | (apply ite_kept <;> intro _) | simp only [mk_kept] | apply State.setHd_kept | apply State.setChn_kept | (with_reducible refine foldl_kept _ _ (fun _ _ _ => ?_) ?_ <;> try dsimp only) | (split <;> try dsimp only)

theorem State.freeTx_kept {cn ci : Bool} {s0 s : State} (t : Nat) (hk : Kept true cn ci s0 s) : Kept true cn ci s0 (State.freeTx s t) := by
  unfold State.freeTx
  exact State.dropTx_kept _ _ hk

theorem State.showSeats_kept {cm cn ci : Bool} {s0 s : State} (hk : Kept cm cn ci s0 s) : Kept cm cn ci s0 (State.showSeats s) := by
  unfold State.showSeats
  try dsimp only
  repeat' first | with_reducible first | assumption | (apply ite_kept <;> intro _) | simp only [mk_kept] | apply State.wrN_kept | apply State.setFld_kept | (with_reducible refine foldl_kept _ _ (fun _ _ _ => ?_) ?_ <;> try dsimp only) | (split <;> try dsimp only)

theorem State.sendEnum_kept {cn ci : Bool} {s0 s : State} (seat : Nat) (dirB : Bool) (hk : Kept true cn ci s0 s) : Kept true cn ci s0 (State.sendEnum s seat dirB) := by
  unfold State.sendEnum
  try dsimp only
  repeat' first | with_reducible first | assumption | (apply ite_kept <;> intro _) | simp only [mk_kept] | apply State.setChn_kept | apply State.issue_kept | (split <;> try dsimp only)

theorem State.startEnum_kept {cn ci : Bool} {s0 s : State} (late : Bool) (hk : Kept true cn ci s0 s) : Kept true cn ci s0 (State.startEnum s late) := by
  unfold State.startEnum
  try dsimp only
  repeat' first | with_reducible first | assumption | (apply ite_kept <;> intro _) | simp only [mk_kept] | apply State.updSeat_kept | apply State.setRing_kept | apply State.setChn_kept | apply State.broadcast_kept | apply State.sendEnum_kept | apply State.showSeats_kept | (with_reducible refine foldl_kept _ _ (fun _ _ _ => ?_) ?_ <;> try dsimp only) | (split <;> try dsimp only)

theorem State.noteIsolated_kept {cm cn ci : Bool} {s0 s : State} (was : Option (Nat × Nat)) (hk : Kept cm cn ci s0 s) : Kept cm cn ci s0 (State.noteIsolated s was) := by
  unfold State.noteIsolated
  try dsimp only
  repeat' first | with_reducible first | assumption | (apply ite_kept <;> intro _) | simp only [mk_kept] | apply State.logS_kept | (split <;> try dsimp only)

theorem State.endEnum_kept {cm cn ci : Bool} {s0 s : State} (whole : Bool) (hk : Kept cm cn ci s0 s) : Kept cm cn ci s0 (State.endEnum s whole) := by
  unfold State.endEnum
  try dsimp only
  repeat' first | with_reducible first | assumption | (apply ite_kept <;> intro _) | simp only [mk_kept] | apply State.setChn_kept | apply State.setRing_kept | apply State.setFld_kept | apply State.showSeats_kept | apply State.logS_kept | apply State.noteIsolated_kept | (with_reducible refine foldl_kept _ _ (fun _ _ _ => ?_) ?_ <;> try dsimp only) | (split <;> try dsimp only)

theorem State.enumNext_kept {cn ci : Bool} {s0 s : State} (answered : Bool) (hk : Kept true cn ci s0 s) : Kept true cn ci s0 (State.enumNext s answered) := by
  unfold State.enumNext
  try dsimp only
  repeat' first | with_reducible first | assumption | (apply ite_kept <;> intro _) | simp only [mk_kept] | apply State.endEnum_kept | apply State.setChn_kept | apply State.sendEnum_kept | (split <;> try dsimp only)

theorem State.moduleSwap_kept {cm cn ci : Bool} {s0 s : State} (n : Nat) (hk : Kept cm cn ci s0 s) : Kept cm cn ci s0 (State.moduleSwap s n) := by
  unfold State.moduleSwap
  try dsimp only
  repeat' first | with_reducible first | assumption | (apply ite_kept <;> intro _) | simp only [mk_kept] | apply State.logS_kept | apply State.updSeat_kept | (split <;> try dsimp only)

theorem State.identRead_kept {cn ci : Bool} {s0 s : State} (n : Nat) (p : List Byte) (hk : Kept true cn ci s0 s) : Kept true cn ci s0 (State.identRead s n p) := by
  unfold State.identRead
  try dsimp only
  repeat' first | with_reducible first | assumption | (apply ite_kept <;> intro _) | simp only [mk_kept] | apply State.setSeat_kept | apply State.moduleSwap_kept | apply State.updSeat_kept | apply State.setBit_kept | apply State.logS_kept | apply State.showSeats_kept | apply State.issue_kept | (split <;> try dsimp only)

theorem State.twinDecide_kept {cn ci : Bool} {s0 s : State} (t : Nat) (hk : Kept true cn ci s0 s) : Kept true cn ci s0 (State.twinDecide s t) := by
  unfold State.twinDecide
  try dsimp only
  repeat' first | with_reducible first | assumption | (apply ite_kept <;> intro _) | simp only [mk_kept] | apply State.setHd_kept | apply State.updSeat_kept | apply State.incSat_kept | apply State.wrN_kept | apply State.setBit_kept | apply State.logS_kept | (split <;> try dsimp only)

theorem State.noteStep_kept {cm cn ci : Bool} {s0 s : State} (n : Nat) (stroke : Nat) (p : List Byte) (hk : Kept cm cn ci s0 s) : Kept cm cn ci s0 (State.noteStep s n stroke p) := by
  unfold State.noteStep
  try dsimp only
  repeat' first | with_reducible first | assumption | (apply ite_kept <;> intro _) | simp only [mk_kept] | (split <;> try dsimp only)

theorem State.takeSample_kept {cm cn ci : Bool} {s0 s : State} (n : Nat) (stroke : Nat) (payload : List Byte) (agreed : Bool) (hk : Kept cm cn ci s0 s) : Kept cm cn ci s0 (State.takeSample s n stroke payload agreed) := by
  unfold State.takeSample
  try dsimp only
  repeat' first | with_reducible first | assumption | (apply ite_kept <;> intro _) | simp only [mk_kept] | apply State.updSeat_kept | apply State.logS_kept | apply State.estSample_kept | (split <;> try dsimp only)

theorem State.noteWrap_kept {cm cn ci : Bool} {s0 s : State} (n : Nat) (f : Frame) (hk : Kept cm cn ci s0 s) : Kept cm cn ci s0 (State.noteWrap s n f) := by
  unfold State.noteWrap
  try dsimp only
  repeat' first | with_reducible first | assumption | (apply ite_kept <;> intro _) | simp only [mk_kept] | apply State.setFld_kept | apply State.showSeats_kept | apply State.noteIsolated_kept | (split <;> try dsimp only)

theorem State.useSample_kept {cm cn ci : Bool} {s0 s : State} (t : Nat) (n : Nat) (readClass : Nat) (hk : Kept cm cn ci s0 s) : Kept cm cn ci s0 (State.useSample s t n readClass) := by
  unfold State.useSample
  try dsimp only
  repeat' first | with_reducible first | assumption | (apply ite_kept <;> intro _) | simp only [mk_kept] | apply State.updSeat_kept | apply State.setChn_kept | apply State.noteWrap_kept | apply State.noteStep_kept | apply State.takeSample_kept | (split <;> try dsimp only)

theorem State.pairReply_kept {cm cn ci : Bool} {s0 s : State} (p : PairSt) (ok : Bool) (more : Bool) (hk : Kept cm cn ci s0 s) : Kept cm cn ci s0 (State.pairReply s p ok more) := by
  unfold State.pairReply
  try dsimp only
  repeat' first | with_reducible first | assumption | (apply ite_kept <;> intro _) | simp only [mk_kept] | apply State.sayLine_kept | (split <;> try dsimp only)

theorem State.keyLoad_kept {cn ci : Bool} {s0 s : State} (n : Nat) (keyId : Nat) (asker : Origin) (hk : Kept true cn ci s0 s) : Kept true cn ci s0 (State.keyLoad s n keyId asker) := by
  unfold State.keyLoad
  try dsimp only
  repeat' first | with_reducible first | assumption | (apply ite_kept <;> intro _) | simp only [mk_kept] | apply State.free_kept | apply State.setRad_kept | apply State.issue_kept | (split <;> try dsimp only) | grind [State.free_kept]

theorem State.pairAnswer_kept {cn ci : Bool} {s0 s : State} (n : Nat) (type : Nat) (f : Option Frame) (hk : Kept true cn ci s0 s) : Kept true cn ci s0 (State.pairAnswer s n type f) := by
  unfold State.pairAnswer
  try dsimp only
  repeat' first | with_reducible first | assumption | (apply ite_kept <;> intro _) | simp only [mk_kept] | apply State.setRad_kept | apply State.issue_kept | apply State.keyLoad_kept | (split <;> try dsimp only)

theorem State.consume_kept {cn ci : Bool} {s0 s : State} (t : Nat) (hk : Kept true cn ci s0 s) : Kept true cn ci s0 (State.consume s t) := by
  unfold State.consume
  try dsimp only
  repeat' first | with_reducible first | assumption | (apply ite_kept <;> intro _) | simp only [mk_kept] | apply State.useSample_kept | apply State.freeTx_kept | apply State.issue_kept | apply State.updSeat_kept | apply State.showSeats_kept | apply State.enumNext_kept | apply State.identRead_kept | apply State.pairAnswer_kept | (split <;> try dsimp only)

theorem State.pathEnded_kept {cn ci : Bool} {s0 s : State} (t : Nat) (radio : Bool) (hk : Kept true cn ci s0 s) : Kept true cn ci s0 (State.pathEnded s t radio) := by
  unfold State.pathEnded
  try dsimp only
  repeat' first | with_reducible first | assumption | (apply ite_kept <;> intro _) | simp only [mk_kept] | apply State.setPath_kept | apply State.setRad_kept | apply State.setBit_kept | apply State.showDone_kept | apply State.setHd_kept | apply State.setChn_kept | apply State.twinDecide_kept | apply State.consume_kept | apply State.showTx_kept | (split <;> try dsimp only)

theorem State.chainEnd_kept {cn ci : Bool} {s0 s : State} (t : Nat) (st : Nat) (hk : Kept true cn ci s0 s) : Kept true cn ci s0 (State.chainEnd s t st) := by
  unfold State.chainEnd
  try dsimp only
  repeat' first | with_reducible first | assumption | (apply ite_kept <;> intro _) | simp only [mk_kept] | apply State.setHd_kept | apply State.setChn_kept | apply State.updSeat_kept | apply State.pathEnded_kept | apply State.kick_kept | (split <;> try dsimp only)

theorem State.keepGot_kept {cm cn ci : Bool} {s0 s : State} (t : Nat) (f : Option Frame) (hk : Kept cm cn ci s0 s) : Kept cm cn ci s0 (State.keepGot s t f) := by
  unfold State.keepGot
  try dsimp only
  repeat' first | with_reducible first | assumption | (apply ite_kept <;> intro _) | simp only [mk_kept] | apply State.setChn_kept | (split <;> try dsimp only)

theorem State.fillChain_kept {cn ci : Bool} {s0 s : State} (t : Nat) (us : Nat) (f : Frame) (hk : Kept true cn ci s0 s) : Kept true cn ci s0 (State.fillChain s t us f) := by
  unfold State.fillChain
  try dsimp only
  repeat' first | with_reducible first | assumption | (apply ite_kept <;> intro _) | simp only [mk_kept] | apply State.keepGot_kept | apply State.setHd_kept | apply State.wrBytes_kept | (split <;> try dsimp only)

theorem State.chainFail_kept {cn ci : Bool} {s0 s : State} (t : Nat) (dirB : Bool) (st : Nat) (nak : Option (Nat × Frame)) (hk : Kept true cn ci s0 s) : Kept true cn ci s0 (State.chainFail s t dirB st nak) := by
  unfold State.chainFail
  try dsimp only
  repeat' first | with_reducible first | assumption | (apply ite_kept <;> intro _) | simp only [mk_kept] | apply State.keepGot_kept | apply State.setHd_kept | apply State.incSat_kept | apply State.sendTx_kept | apply State.fillChain_kept | apply State.chainEnd_kept | (split <;> try dsimp only)

theorem State.lateResponse_kept {cm cn ci : Bool} {s0 s : State} (f : Frame) (hk : Kept cm cn ci s0 s) : Kept cm cn ci s0 (State.lateResponse s f) := by
  unfold State.lateResponse
  try dsimp only
  repeat' first | with_reducible first | assumption | (apply ite_kept <;> intro _) | simp only [mk_kept] | apply State.incSat_kept | apply State.setBit_kept | (split <;> try dsimp only)

theorem State.noteNak_kept {cn ci : Bool} {s0 s : State} (t : Nat) (f : Frame) (hk : Kept true cn ci s0 s) : Kept true cn ci s0 (State.noteNak s t f) := by
  unfold State.noteNak
  try dsimp only
  repeat' first | with_reducible first | assumption | (apply ite_kept <;> intro _) | simp only [mk_kept] | apply State.setHd_kept | apply State.logS_kept | (split <;> try dsimp only)

theorem doChainResponse_kept {cn ci : Bool} {s0 s : State} (dir : RingPort) (raw : List Byte) (us : Nat) (hk : Kept true cn ci s0 s) : Kept true cn ci s0 (doChainResponse s dir raw us) := by
  unfold doChainResponse
  try dsimp only
  repeat' first | with_reducible first | assumption | (apply ite_kept <;> intro _) | simp only [mk_kept] | apply State.atUs_kept | apply State.lateResponse_kept | apply State.setReady_kept | apply State.incSat_kept | apply State.chainEnd_kept | apply State.chainFail_kept | apply State.noteNak_kept | apply State.fillChain_kept | (split <;> try dsimp only)

theorem doChainTimeout_kept {cn ci : Bool} {s0 s : State} (dir : RingPort) (us : Nat) (hk : Kept true cn ci s0 s) : Kept true cn ci s0 (doChainTimeout s dir us) := by
  unfold doChainTimeout
  try dsimp only
  repeat' first | with_reducible first | assumption | (apply ite_kept <;> intro _) | simp only [mk_kept] | apply State.atUs_kept | apply State.incSat_kept | apply State.chainFail_kept | (split <;> try dsimp only)

theorem doChainSubmit_kept {cn ci : Bool} {s0 s : State} (tag : Nat) (cls : Nat) (hk : Kept true cn ci s0 s) : Kept true cn ci s0 (doChainSubmit s tag cls) := by
  unfold doChainSubmit
  try dsimp only
  repeat' first | with_reducible first | assumption | (apply ite_kept <;> intro _) | simp only [mk_kept] | apply State.incSat_kept | apply State.setChn_kept | apply State.kick_kept | (split <;> try dsimp only)

theorem State.queueRead_kept {cn ci : Bool} {s0 s : State} (n : Nat) (stroke : Nat) (cls : Nat) (hk : Kept true cn ci s0 s) : Kept true cn ci s0 (State.queueRead s n stroke cls) := by
  unfold State.queueRead
  try dsimp only
  repeat' first | with_reducible first | assumption | (apply ite_kept <;> intro _) | simp only [mk_kept] | apply State.enqueue_kept | (split <;> try dsimp only)

theorem doSampleReadsStart_kept {cn ci : Bool} {s0 s : State} (hk : Kept true cn ci s0 s) : Kept true cn ci s0 (doSampleReadsStart s) := by
  unfold doSampleReadsStart
  try dsimp only
  repeat' first | with_reducible first | assumption | (apply ite_kept <;> intro _) | simp only [mk_kept] | apply State.atUs_kept | apply State.queueRead_kept | apply State.setChn_kept | apply State.kick_kept | (with_reducible refine foldl_kept _ _ (fun _ _ _ => ?_) ?_ <;> try dsimp only) | (split <;> try dsimp only)

theorem State.setIdle_kept {cm cn ci : Bool} {s0 s : State} (port : RingPort) (v : Bool) (hk : Kept cm cn ci s0 s) : Kept cm cn ci s0 (State.setIdle s port v) := by
  unfold State.setIdle
  try dsimp only
  repeat' first | with_reducible first | assumption | (apply ite_kept <;> intro _) | simp only [mk_kept] | apply State.setChn_kept | (split <;> try dsimp only)

theorem doLinkLoss_kept {cm cn ci : Bool} {s0 s : State} (port : RingPort) (hk : Kept cm cn ci s0 s) : Kept cm cn ci s0 (doLinkLoss s port) := by
  unfold doLinkLoss
  try dsimp only
  repeat' first | with_reducible first | assumption | (apply ite_kept <;> intro _) | simp only [mk_kept] | apply State.setBit_kept | apply State.setIdle_kept | apply State.setChn_kept | apply State.setRing_kept | (split <;> try dsimp only)

theorem doLinkRegain_kept {cn ci : Bool} {s0 s : State} (port : RingPort) (hk : Kept true cn ci s0 s) : Kept true cn ci s0 (doLinkRegain s port) := by
  unfold doLinkRegain
  try dsimp only
  repeat' first | with_reducible first | assumption | (apply ite_kept <;> intro _) | simp only [mk_kept] | apply State.setBit_kept | apply State.setIdle_kept | apply State.setChn_kept | apply State.setRing_kept | apply State.startEnum_kept | (split <;> try dsimp only)

theorem doEnumTimeout_kept {cm cn ci : Bool} {s0 s : State} (echoA : Bool) (echoB : Bool) (hk : Kept cm cn ci s0 s) : Kept cm cn ci s0 (doEnumTimeout s echoA echoB) := by
  unfold doEnumTimeout
  try dsimp only
  repeat' first | with_reducible first | assumption | (apply ite_kept <;> intro _) | simp only [mk_kept] | apply State.endEnum_kept | (split <;> try dsimp only)

theorem doCatchEcho_kept {cm cn ci : Bool} {s0 s : State} (dir : RingPort) (good : Bool) (sameEnd : Bool) (latency10ns : Nat) (hk : Kept cm cn ci s0 s) : Kept cm cn ci s0 (doCatchEcho s dir good sameEnd latency10ns) := by
  unfold doCatchEcho
  try dsimp only
  repeat' first | with_reducible first | assumption | (apply ite_kept <;> intro _) | simp only [mk_kept] | apply State.setFld_kept | apply State.setChn_kept | apply State.setBit_kept | (split <;> try dsimp only)

theorem doRingSplit_kept {cm cn ci : Bool} {s0 s : State} (armaLast : Nat) (armbLast : Nat) (hk : Kept cm cn ci s0 s) : Kept cm cn ci s0 (doRingSplit s armaLast armbLast) := by
  unfold doRingSplit
  try dsimp only
  repeat' first | with_reducible first | assumption | (apply ite_kept <;> intro _) | simp only [mk_kept] | apply State.setRing_kept | apply State.setFld_kept | apply State.setChn_kept | apply State.showSeats_kept | apply State.logS_kept | apply State.noteIsolated_kept | (split <;> try dsimp only)

theorem doRingHeal_kept {cm cn ci : Bool} {s0 s : State} (hk : Kept cm cn ci s0 s) : Kept cm cn ci s0 (doRingHeal s) := by
  unfold doRingHeal
  try dsimp only
  repeat' first | with_reducible first | assumption | (apply ite_kept <;> intro _) | simp only [mk_kept] | apply State.setRing_kept | apply State.setFld_kept | apply State.setChn_kept | apply State.showSeats_kept | apply State.logS_kept | (split <;> try dsimp only)

theorem doSeatLost_kept {cm cn ci : Bool} {s0 s : State} (seat : Nat) (hk : Kept cm cn ci s0 s) : Kept cm cn ci s0 (doSeatLost s seat) := by
  unfold doSeatLost
  try dsimp only
  repeat' first | with_reducible first | assumption | (apply ite_kept <;> intro _) | simp only [mk_kept] | apply State.setSeat_kept | apply State.showSeats_kept | apply State.setBit_kept | apply State.logS_kept | (split <;> try dsimp only)

theorem doSeatFaulty_kept {cm cn ci : Bool} {s0 s : State} (seat : Nat) (hk : Kept cm cn ci s0 s) : Kept cm cn ci s0 (doSeatFaulty s seat) := by
  unfold doSeatFaulty
  try dsimp only
  repeat' first | with_reducible first | assumption | (apply ite_kept <;> intro _) | simp only [mk_kept] | apply State.setSeat_kept | apply State.logS_kept | (split <;> try dsimp only)

theorem doOneBlade_kept {cm cn ci : Bool} {s0 s : State} (seat : Nat) (hk : Kept cm cn ci s0 s) : Kept cm cn ci s0 (doOneBlade s seat) := by
  unfold doOneBlade
  try dsimp only
  repeat' first | with_reducible first | assumption | (apply ite_kept <;> intro _) | simp only [mk_kept] | apply State.setSeat_kept | apply State.logS_kept | (split <;> try dsimp only)

theorem State.sweep_kept {cn ci : Bool} {s0 s : State} (hk : Kept true cn ci s0 s) : Kept true cn ci s0 (State.sweep s) := by
  unfold State.sweep
  try dsimp only
  repeat' first | with_reducible first | assumption | (apply ite_kept <;> intro _) | simp only [mk_kept] | apply State.dropTx_kept | apply State.setHd_kept | apply State.setChn_kept | apply State.setRad_kept | apply State.incSat_kept | apply State.wrN_kept | apply State.setBit_kept | apply State.logS_kept | apply State.showTx_kept | (with_reducible refine foldl_kept _ _ (fun _ _ _ => ?_) ?_ <;> try dsimp only) | (split <;> try dsimp only)

theorem State.judgeEchoes_kept {cm cn ci : Bool} {s0 s : State} (hk : Kept cm cn ci s0 s) : Kept cm cn ci s0 (State.judgeEchoes s) := by
  unfold State.judgeEchoes
  try dsimp only
  repeat' first | with_reducible first | assumption | (apply ite_kept <;> intro _) | simp only [mk_kept] | apply State.setBit_kept | apply State.setChn_kept | (split <;> try dsimp only)

theorem State.sendCatch_kept {cm cn ci : Bool} {s0 s : State} (hk : Kept cm cn ci s0 s) : Kept cm cn ci s0 (State.sendCatch s) := by
  unfold State.sendCatch
  try dsimp only
  repeat' first | with_reducible first | assumption | (apply ite_kept <;> intro _) | simp only [mk_kept] | apply State.wrN_kept | apply State.broadcast_kept | (split <;> try dsimp only)

theorem State.chainCatch_kept {cn ci : Bool} {s0 s : State} (hk : Kept true cn ci s0 s) : Kept true cn ci s0 (State.chainCatch s) := by
  unfold State.chainCatch
  try dsimp only
  repeat' first | with_reducible first | assumption | (apply ite_kept <;> intro _) | simp only [mk_kept] | apply State.judgeEchoes_kept | apply State.setChn_kept | apply State.sendCatch_kept | apply State.issueWanted_kept | apply State.endEnum_kept | apply State.sendEnum_kept | apply State.kick_kept | (split <;> try dsimp only)

theorem State.chainDeadline_kept {cn ci : Bool} {s0 s : State} (hk : Kept true cn ci s0 s) : Kept true cn ci s0 (State.chainDeadline s) := by
  unfold State.chainDeadline
  try dsimp only
  repeat' first | with_reducible first | assumption | (apply ite_kept <;> intro _) | simp only [mk_kept] | apply State.chainEnd_kept | apply State.setHd_kept | apply State.setRad_kept | apply State.pathEnded_kept | apply State.twinDecide_kept | apply State.setChn_kept | (with_reducible refine foldl_kept _ _ (fun _ _ _ => ?_) ?_ <;> try dsimp only) | (split <;> try dsimp only)

theorem State.chainWatch_kept {cn ci : Bool} {s0 s : State} (hk : Kept true cn ci s0 s) : Kept true cn ci s0 (State.chainWatch s) := by
  unfold State.chainWatch
  try dsimp only
  repeat' first | with_reducible first | assumption | (apply ite_kept <;> intro _) | simp only [mk_kept] | apply State.setChn_kept | apply State.logS_kept | apply State.startEnum_kept | apply State.sendEnum_kept | (split <;> try dsimp only)

theorem State.radStat_kept {cm cn ci : Bool} {s0 s : State} (lock : Bool) (settle : Bool) (cal : Bool) (hk : Kept cm cn ci s0 s) : Kept cm cn ci s0 (State.radStat s lock settle cal) := by
  unfold State.radStat
  try dsimp only
  repeat' first | with_reducible first | assumption | (apply ite_kept <;> intro _) | simp only [mk_kept] | apply State.setBit_kept | (split <;> try dsimp only)

theorem State.putSet_kept {cm cn ci : Bool} {s0 s : State} (reg : Nat → Nat) (l : List Nat) (hk : Kept cm cn ci s0 s) : Kept cm cn ci s0 (State.putSet s reg l) := by
  unfold State.putSet
  try dsimp only
  repeat' first | with_reducible first | assumption | (apply ite_kept <;> intro _) | simp only [mk_kept] | apply State.setFld_kept | (with_reducible refine foldl_kept _ _ (fun _ _ _ => ?_) ?_ <;> try dsimp only) | (split <;> try dsimp only)

theorem State.showMap_kept {cm cn ci : Bool} {s0 s : State} (hk : Kept cm cn ci s0 s) : Kept cm cn ci s0 (State.showMap s) := by
  unfold State.showMap
  try dsimp only
  repeat' first | with_reducible first | assumption | (apply ite_kept <;> intro _) | simp only [mk_kept] | apply State.wrN_kept | apply State.setFld_kept | (with_reducible refine foldl_kept _ _ (fun _ _ _ => ?_) ?_ <;> try dsimp only) | (split <;> try dsimp only)

theorem State.mapAttempt_kept {cm cn ci : Bool} {s0 s : State} (c : Nat) (failed : Bool) (hk : Kept cm cn ci s0 s) : Kept cm cn ci s0 (State.mapAttempt s c failed) := by
  unfold State.mapAttempt
  try dsimp only
  repeat' first | with_reducible first | assumption | (apply ite_kept <;> intro _) | simp only [mk_kept] | apply State.setRad_kept | apply State.incSat_kept | apply State.showMap_kept | (split <;> try dsimp only)

theorem doChannelQuarantineEnd_kept {cm cn ci : Bool} {s0 s : State} (ch : Nat) (hk : Kept cm cn ci s0 s) : Kept cm cn ci s0 (doChannelQuarantineEnd s ch) := by
  unfold doChannelQuarantineEnd
  try dsimp only
  repeat' first | with_reducible first | assumption | (apply ite_kept <;> intro _) | simp only [mk_kept] | apply State.setRad_kept | apply State.showMap_kept | (split <;> try dsimp only)

theorem State.hopWatch_kept {cm cn ci : Bool} {s0 s : State} (hk : Kept cm cn ci s0 s) : Kept cm cn ci s0 (State.hopWatch s) := by
  unfold State.hopWatch
  try dsimp only
  repeat' first | with_reducible first | assumption | (apply ite_kept <;> intro _) | simp only [mk_kept] | apply State.setRad_kept | apply State.putSet_kept | apply State.wrN_kept | apply State.logS_kept | (split <;> try dsimp only)

theorem State.hopCatch_kept {cm cn ci : Bool} {s0 s : State} (hk : Kept cm cn ci s0 s) : Kept cm cn ci s0 (State.hopCatch s) := by
  unfold State.hopCatch
  try dsimp only
  repeat' first | with_reducible first | assumption | (apply ite_kept <;> intro _) | simp only [mk_kept] | apply State.putSet_kept | apply State.setFld_kept | (split <;> try dsimp only)

theorem State.radioCatch_kept {cm cn ci : Bool} {s0 s : State} (hk : Kept cm cn ci s0 s) : Kept cm cn ci s0 (State.radioCatch s) := by
  unfold State.radioCatch
  try dsimp only
  repeat' first | with_reducible first | assumption | (apply ite_kept <;> intro _) | simp only [mk_kept] | apply State.setRad_kept | apply State.hopCatch_kept | (split <;> try dsimp only)

theorem State.newSession_kept {cm ci : Bool} {s0 s : State} (hk : Kept cm true ci s0 s) : Kept cm true ci s0 (State.newSession s) := by
  unfold State.newSession
  try dsimp only
  repeat' first | with_reducible first | assumption | (apply ite_kept <;> intro _) | simp only [mk_kept, mk_kept_nv] | apply State.wrN_kept | (split <;> try dsimp only)

theorem State.sessionCatch_kept {cm ci : Bool} {s0 s : State} (hk : Kept cm true ci s0 s) : Kept cm true ci s0 (State.sessionCatch s) := by
  unfold State.sessionCatch
  try dsimp only
  repeat' first | with_reducible first | assumption | (apply ite_kept <;> intro _) | simp only [mk_kept, mk_kept_nv] | apply State.newSession_kept | (split <;> try dsimp only)

theorem State.startRadio_kept {cm ci : Bool} {s0 s : State} (hk : Kept cm true ci s0 s) : Kept cm true ci s0 (State.startRadio s) := by
  unfold State.startRadio
  try dsimp only
  repeat' first | with_reducible first | assumption | (apply ite_kept <;> intro _) | simp only [mk_kept, mk_kept_nv] | apply State.setBit_kept | apply State.wrN_kept | apply State.putSet_kept | apply State.showMap_kept | apply State.newSession_kept | apply State.setFld_kept | (split <;> try dsimp only)

theorem State.radioInterval_kept {cm cn ci : Bool} {s0 s : State} (hk : Kept cm cn ci s0 s) : Kept cm cn ci s0 (State.radioInterval s) := by
  unfold State.radioInterval
  try dsimp only
  repeat' first | with_reducible first | assumption | (apply ite_kept <;> intro _) | simp only [mk_kept] | apply State.setBit_kept | (split <;> try dsimp only)

theorem State.transmit_kept {cm cn ci : Bool} {s0 s : State} (tail : List Byte) (hk : Kept cm cn ci s0 s) : Kept cm cn ci s0 (State.transmit s tail) := by
  unfold State.transmit
  try dsimp only
  repeat' first | with_reducible first | assumption | (apply ite_kept <;> intro _) | simp only [mk_kept] | apply State.setRad_kept | (split <;> try dsimp only)

theorem State.sendBeacon_kept {cm cn ci : Bool} {s0 s : State} (us : Nat) (hk : Kept cm cn ci s0 s) : Kept cm cn ci s0 (State.sendBeacon s us) := by
  unfold State.sendBeacon
  try dsimp only
  repeat' first | with_reducible first | assumption | (apply ite_kept <;> intro _) | simp only [mk_kept] | apply State.setRad_kept | apply State.transmit_kept | (split <;> try dsimp only)

theorem State.sendRequest_kept {cm cn ci : Bool} {s0 s : State} (t : Nat) (try_ : Nat) (hk : Kept cm cn ci s0 s) : Kept cm cn ci s0 (State.sendRequest s t try_) := by
  unfold State.sendRequest
  try dsimp only
  repeat' first | with_reducible first | assumption | (apply ite_kept <;> intro _) | simp only [mk_kept] | apply State.transmit_kept | (split <;> try dsimp only)

theorem State.sendGrant_kept {cm cn ci : Bool} {s0 s : State} (n : Nat) (jcount : Nat) (us : Nat) (hk : Kept cm cn ci s0 s) : Kept cm cn ci s0 (State.sendGrant s n jcount us) := by
  unfold State.sendGrant
  try dsimp only
  repeat' first | with_reducible first | assumption | (apply ite_kept <;> intro _) | simp only [mk_kept] | apply State.transmit_kept | (split <;> try dsimp only)

theorem doRadioRetune_kept {cm cn ci : Bool} {s0 s : State} (hk : Kept cm cn ci s0 s) : Kept cm cn ci s0 (doRadioRetune s) := by
  unfold doRadioRetune
  try dsimp only
  repeat' first | with_reducible first | assumption | (apply ite_kept <;> intro _) | simp only [mk_kept] | apply State.setRad_kept | apply State.radStat_kept | apply State.setFld_kept | (split <;> try dsimp only)

theorem State.calibrate_kept {cm cn ci : Bool} {s0 s : State} (reason : Nat) (hk : Kept cm cn ci s0 s) : Kept cm cn ci s0 (State.calibrate s reason) := by
  unfold State.calibrate
  try dsimp only
  repeat' first | with_reducible first | assumption | (apply ite_kept <;> intro _) | simp only [mk_kept] | apply State.radStat_kept | apply State.wrN_kept | apply State.setRad_kept | apply State.setBit_kept | apply State.logS_kept | (split <;> try dsimp only)

theorem doCalibrateNow_kept {cm cn ci : Bool} {s0 s : State} (hk : Kept cm cn ci s0 s) : Kept cm cn ci s0 (doCalibrateNow s) := by
  unfold doCalibrateNow
  try dsimp only
  repeat' first | with_reducible first | assumption | (apply ite_kept <;> intro _) | simp only [mk_kept] | apply State.setRad_kept | (split <;> try dsimp only)

theorem doLockLoss_kept {cm cn ci : Bool} {s0 s : State} (hk : Kept cm cn ci s0 s) : Kept cm cn ci s0 (doLockLoss s) := by
  unfold doLockLoss
  try dsimp only
  repeat' first | with_reducible first | assumption | (apply ite_kept <;> intro _) | simp only [mk_kept] | apply State.radStat_kept | apply State.setBit_kept | (split <;> try dsimp only)

theorem doLockTimeout_kept {cm cn ci : Bool} {s0 s : State} (hk : Kept cm cn ci s0 s) : Kept cm cn ci s0 (doLockTimeout s) := by
  unfold doLockTimeout
  try dsimp only
  repeat' first | with_reducible first | assumption | (apply ite_kept <;> intro _) | simp only [mk_kept] | apply State.calibrate_kept | (split <;> try dsimp only)

theorem State.sendRadio_kept {cn ci : Bool} {s0 s : State} (t : Nat) (slot : Nat) (hk : Kept true cn ci s0 s) : Kept true cn ci s0 (State.sendRadio s t slot) := by
  unfold State.sendRadio
  try dsimp only
  repeat' first | with_reducible first | assumption | (apply ite_kept <;> intro _) | simp only [mk_kept] | apply State.setHd_kept | apply State.sendRequest_kept | apply State.setRad_kept | apply State.incSat_kept | apply State.showTx_kept | (split <;> try dsimp only)

theorem doBeacon_kept {cm cn ci : Bool} {s0 s : State} (hk : Kept cm cn ci s0 s) : Kept cm cn ci s0 (doBeacon s) := by
  unfold doBeacon
  try dsimp only
  repeat' first | with_reducible first | assumption | (apply ite_kept <;> intro _) | simp only [mk_kept] | apply State.sendBeacon_kept | apply State.setRad_kept | (split <;> try dsimp only)

theorem doRadioSlot_kept {cn ci : Bool} {s0 s : State} (slot : Nat) (hk : Kept true cn ci s0 s) : Kept true cn ci s0 (doRadioSlot s slot) := by
  unfold doRadioSlot
  try dsimp only
  repeat' first | with_reducible first | assumption | (apply ite_kept <;> intro _) | simp only [mk_kept] | apply State.sendRadio_kept | apply State.setRad_kept | (split <;> try dsimp only)

theorem doLockAcquired_kept {cn ci : Bool} {s0 s : State} (us : Nat) (hk : Kept true cn ci s0 s) : Kept true cn ci s0 (doLockAcquired s us) := by
  unfold doLockAcquired
  try dsimp only
  repeat' first | with_reducible first | assumption | (apply ite_kept <;> intro _) | simp only [mk_kept] | apply State.radStat_kept | apply State.sendBeacon_kept | apply State.sendRadio_kept | apply State.setRad_kept | (split <;> try dsimp only)

theorem doSlotForfeit_kept {cm cn ci : Bool} {s0 s : State} (slot : Nat) (lockDelayUs : Nat) (hk : Kept cm cn ci s0 s) : Kept cm cn ci s0 (doSlotForfeit s slot lockDelayUs) := by
  unfold doSlotForfeit
  try dsimp only
  repeat' first | with_reducible first | assumption | (apply ite_kept <;> intro _) | simp only [mk_kept] | apply State.setRad_kept | apply State.setBit_kept | apply State.incSat_kept | apply State.logS_kept | (split <;> try dsimp only)

theorem doRadioSubmit_kept {cm cn ci : Bool} {s0 s : State} (tag : Nat) (cls : Nat) (hk : Kept cm cn ci s0 s) : Kept cm cn ci s0 (doRadioSubmit s tag cls) := by
  unfold doRadioSubmit
  try dsimp only
  repeat' first | with_reducible first | assumption | (apply ite_kept <;> intro _) | simp only [mk_kept] | apply State.incSat_kept | apply State.setRad_kept | apply State.showTx_kept | (split <;> try dsimp only)

theorem State.radioEnd_kept {cn ci : Bool} {s0 s : State} (t : Nat) (st : Nat) (hk : Kept true cn ci s0 s) : Kept true cn ci s0 (State.radioEnd s t st) := by
  unfold State.radioEnd
  try dsimp only
  repeat' first | with_reducible first | assumption | (apply ite_kept <;> intro _) | simp only [mk_kept] | apply State.setHd_kept | apply State.setRad_kept | apply State.pathEnded_kept | (split <;> try dsimp only)

theorem State.keepRgot_kept {cm cn ci : Bool} {s0 s : State} (t : Nat) (f : Option Frame) (hk : Kept cm cn ci s0 s) : Kept cm cn ci s0 (State.keepRgot s t f) := by
  unfold State.keepRgot
  try dsimp only
  repeat' first | with_reducible first | assumption | (apply ite_kept <;> intro _) | simp only [mk_kept] | apply State.setChn_kept | (split <;> try dsimp only)

theorem State.fillRadio_kept {cn ci : Bool} {s0 s : State} (t : Nat) (us : Nat) (f : Frame) (hk : Kept true cn ci s0 s) : Kept true cn ci s0 (State.fillRadio s t us f) := by
  unfold State.fillRadio
  try dsimp only
  repeat' first | with_reducible first | assumption | (apply ite_kept <;> intro _) | simp only [mk_kept] | apply State.keepRgot_kept | apply State.setHd_kept | apply State.wrBytes_kept | (split <;> try dsimp only)

theorem State.radioFail_kept {cn ci : Bool} {s0 s : State} (t : Nat) (st : Nat) (nak : Option (Nat × Frame)) (hk : Kept true cn ci s0 s) : Kept true cn ci s0 (State.radioFail s t st nak) := by
  unfold State.radioFail
  try dsimp only
  repeat' first | with_reducible first | assumption | (apply ite_kept <;> intro _) | simp only [mk_kept] | apply State.keepRgot_kept | apply State.setHd_kept | apply State.setRad_kept | apply State.fillRadio_kept | apply State.radioEnd_kept | (split <;> try dsimp only)

theorem State.synced_kept {cm cn ci : Bool} {s0 s : State} (n : Nat) (hk : Kept cm cn ci s0 s) : Kept cm cn ci s0 (State.synced s n) := by
  unfold State.synced
  try dsimp only
  repeat' first | with_reducible first | assumption | (apply ite_kept <;> intro _) | simp only [mk_kept] | apply State.updSeat_kept | apply State.setRad_kept | apply State.setFld_kept | apply State.logS_kept | (split <;> try dsimp only)

theorem doRadioResponse_kept {cn ci : Bool} {s0 s : State} (air : List Byte) (us : Nat) (hk : Kept true cn ci s0 s) : Kept true cn ci s0 (doRadioResponse s air us) := by
  unfold doRadioResponse
  try dsimp only
  repeat' first | with_reducible first | assumption | (apply ite_kept <;> intro _) | simp only [mk_kept] | apply State.atUs_kept | apply State.incSat_kept | apply State.mapAttempt_kept | apply State.radioFail_kept | apply State.synced_kept | apply State.noteNak_kept | apply State.fillRadio_kept | apply State.radioEnd_kept | (split <;> try dsimp only)

theorem doRadioTimeout_kept {cn ci : Bool} {s0 s : State} (us : Nat) (hk : Kept true cn ci s0 s) : Kept true cn ci s0 (doRadioTimeout s us) := by
  unfold doRadioTimeout
  try dsimp only
  repeat' first | with_reducible first | assumption | (apply ite_kept <;> intro _) | simp only [mk_kept] | apply State.atUs_kept | apply State.incSat_kept | apply State.mapAttempt_kept | apply State.radioFail_kept | (split <;> try dsimp only)

theorem State.bufferJoin_kept {cm ci : Bool} {s0 s : State} (seat : Nat) (jcount : Nat) (hk : Kept cm true ci s0 s) : Kept cm true ci s0 (State.bufferJoin s seat jcount) := by
  unfold State.bufferJoin
  try dsimp only
  repeat' first | with_reducible first | assumption | (apply ite_kept <;> intro _) | simp only [mk_kept, mk_kept_nv] | apply State.setRad_kept | apply State.incSat_kept | apply State.setFld_kept | apply State.setBit_kept | apply State.wrN_kept | (split <;> try dsimp only)

theorem State.refuseJoin_kept {cm cn ci : Bool} {s0 s : State} (seat : Nat) (serial : Nat) (why : Nat) (hk : Kept cm cn ci s0 s) : Kept cm cn ci s0 (State.refuseJoin s seat serial why) := by
  unfold State.refuseJoin
  try dsimp only
  repeat' first | with_reducible first | assumption | (apply ite_kept <;> intro _) | simp only [mk_kept] | apply State.incSat_kept | apply State.setBit_kept | apply State.setRad_kept | apply State.logS_kept | (split <;> try dsimp only)

theorem doJoinRequest_kept {cm ci : Bool} {s0 s : State} (air : List Byte) (hk : Kept cm true ci s0 s) : Kept cm true ci s0 (doJoinRequest s air) := by
  unfold doJoinRequest
  try dsimp only
  repeat' first | with_reducible first | assumption | (apply ite_kept <;> intro _) | simp only [mk_kept, mk_kept_nv] | apply State.refuseJoin_kept | apply State.bufferJoin_kept | (split <;> try dsimp only)

theorem doGrantQueue_kept {cm cn ci : Bool} {s0 s : State} (seat : Nat) (hk : Kept cm cn ci s0 s) : Kept cm cn ci s0 (doGrantQueue s seat) := by
  unfold doGrantQueue
  try dsimp only
  repeat' first | with_reducible first | assumption | (apply ite_kept <;> intro _) | simp only [mk_kept] | apply State.setRad_kept | (split <;> try dsimp only)

theorem State.joinWindow_kept {cm cn ci : Bool} {s0 s : State} (hk : Kept cm cn ci s0 s) : Kept cm cn ci s0 (State.joinWindow s) := by
  unfold State.joinWindow
  try dsimp only
  repeat' first | with_reducible first | assumption | (apply ite_kept <;> intro _) | simp only [mk_kept] | apply State.radStat_kept | apply State.setFld_kept | apply State.setRad_kept | apply State.sendGrant_kept | (with_reducible refine foldl_kept _ _ (fun _ _ _ => ?_) ?_ <;> try dsimp only) | (split <;> try dsimp only)

theorem State.radioQuiet_kept {cm cn ci : Bool} {s0 s : State} (hk : Kept cm cn ci s0 s) : Kept cm cn ci s0 (State.radioQuiet s) := by
  unfold State.radioQuiet
  try dsimp only
  repeat' first | with_reducible first | assumption | (apply ite_kept <;> intro _) | simp only [mk_kept] | apply State.setRad_kept | apply State.calibrate_kept | apply State.joinWindow_kept | (split <;> try dsimp only)

theorem State.keyCatch_kept {cm ci : Bool} {s0 s : State} (hk : Kept cm true ci s0 s) : Kept cm true ci s0 (State.keyCatch s) := by
  unfold State.keyCatch
  try dsimp only
  repeat' first | with_reducible first | assumption | (apply ite_kept <;> intro _) | simp only [mk_kept, mk_kept_nv] | apply State.setRad_kept | apply State.logS_kept | apply State.pairReply_kept | (with_reducible refine foldl_kept _ _ (fun _ _ _ => ?_) ?_ <;> try dsimp only) | (split <;> try dsimp only)

theorem State.ensureNetwork_kept {cm ci : Bool} {s0 s : State} (hk : Kept cm true ci s0 s) : Kept cm true ci s0 (State.ensureNetwork s) := by
  unfold State.ensureNetwork
  try dsimp only
  repeat' first | with_reducible first | assumption | (apply ite_kept <;> intro _) | simp only [mk_kept, mk_kept_nv] | apply State.free_kept | apply State.wrN_kept | apply State.logS_kept | (split <;> try dsimp only) | grind [State.free_kept]

theorem State.pairOne_kept {s0 s : State} (asker : Origin) (more : Bool) (n : Nat) (hk : Kept true true true s0 s) : Kept true true true s0 (State.pairOne s asker more n) := by
  unfold State.pairOne
  try dsimp only
  repeat' first | with_reducible first | assumption | (apply ite_kept <;> intro _) | simp only [mk_kept, mk_kept_nv, mk_kept_force, mk_kept_both] | apply State.logS_kept | apply State.pairReply_kept | apply State.applyAt_kept | apply State.ensureNetwork_kept | apply State.keyLoad_kept | (split <;> try dsimp only)

theorem doLogSubmit_kept {cm cn ci : Bool} {s0 s : State} (rq : Requester) (hk : Kept cm cn ci s0 s) : Kept cm cn ci s0 (doLogSubmit s rq) := by
  unfold doLogSubmit
  try dsimp only
  repeat' first | with_reducible first | assumption | (apply ite_kept <;> intro _) | simp only [mk_kept] | apply State.submit_kept | apply State.wrN_kept | (split <;> try dsimp only) | grind [State.submit_kept]

theorem doLogRecordWrite_kept {cn ci : Bool} {s0 s : State} (hk : Kept true cn ci s0 s) : Kept true cn ci s0 (doLogRecordWrite s) := by
  unfold doLogRecordWrite
  try dsimp only
  repeat' first | with_reducible first | assumption | (apply ite_kept <;> intro _) | simp only [mk_kept] | apply State.setFld_kept | apply State.wrBytes_kept | apply State.wrN_kept | apply State.setBit_kept | (split <;> try dsimp only)

theorem State.loadWin_kept {cm cn ci : Bool} {s0 s : State} (rq : Requester) (seq : Nat) (hk : Kept cm cn ci s0 s) : Kept cm cn ci s0 (State.loadWin s rq seq) := by
  unfold State.loadWin
  try dsimp only
  repeat' first | with_reducible first | assumption | (apply ite_kept <;> intro _) | simp only [mk_kept] | apply State.wrN_kept | (with_reducible refine foldl_kept _ _ (fun _ _ _ => ?_) ?_ <;> try dsimp only) | (split <;> try dsimp only)

theorem doLogCursorLoad_kept {cm cn ci : Bool} {s0 s : State} (rq : Requester) (seq : Word) (hk : Kept cm cn ci s0 s) : Kept cm cn ci s0 (doLogCursorLoad s rq seq) := by
  unfold doLogCursorLoad
  try dsimp only
  repeat' first | with_reducible first | assumption | (apply ite_kept <;> intro _) | simp only [mk_kept] | apply State.wr_kept | apply State.loadWin_kept | (split <;> try dsimp only)

theorem doLogWindowAdvance_kept {cm cn ci : Bool} {s0 s : State} (rq : Requester) (hk : Kept cm cn ci s0 s) : Kept cm cn ci s0 (doLogWindowAdvance s rq) := by
  unfold doLogWindowAdvance
  try dsimp only
  repeat' first | with_reducible first | assumption | (apply ite_kept <;> intro _) | simp only [mk_kept] | apply State.wrN_kept | apply State.loadWin_kept | (split <;> try dsimp only)

theorem State.release_kept {cm cn ci : Bool} {s0 s : State} (b : Nat) (upto : Nat) (source : Nat) (hk : Kept cm cn ci s0 s) : Kept cm cn ci s0 (State.release s b upto source) := by
  unfold State.release
  try dsimp only
  repeat' first | with_reducible first | assumption | (apply ite_kept <;> intro _) | simp only [mk_kept] | apply State.wrN_kept | apply State.reportLost_kept | apply State.logS_kept | (split <;> try dsimp only)

theorem doLogBookRelease_kept {cm cn ci : Bool} {s0 s : State} (rq : Requester) (book : Nat) (hk : Kept cm cn ci s0 s) : Kept cm cn ci s0 (doLogBookRelease s rq book) := by
  unfold doLogBookRelease
  try dsimp only
  repeat' first | with_reducible first | assumption | (apply ite_kept <;> intro _) | simp only [mk_kept] | apply State.release_kept | (split <;> try dsimp only)

theorem State.bucketWatch_kept {cm cn ci : Bool} {s0 s : State} (e : Nat × Bucket) (hk : Kept cm cn ci s0 s) : Kept cm cn ci s0 (State.bucketWatch s e) := by
  unfold State.bucketWatch
  try dsimp only
  repeat' first | with_reducible first | assumption | (apply ite_kept <;> intro _) | simp only [mk_kept] | apply State.setBucket_kept | apply State.submit_kept | (split <;> try dsimp only) | grind [State.submit_kept]

theorem State.reportDropped_kept {cm cn ci : Bool} {s0 s : State} (n : Nat) (hk : Kept cm cn ci s0 s) : Kept cm cn ci s0 (State.reportDropped s n) := by
  unfold State.reportDropped
  try dsimp only
  repeat' first | with_reducible first | assumption | (apply ite_kept <;> intro _) | simp only [mk_kept] | apply State.submit_kept | apply State.setFld_kept | (split <;> try dsimp only) | grind [State.submit_kept]

theorem State.logWatch_kept {cm cn ci : Bool} {s0 s : State} (hk : Kept cm cn ci s0 s) : Kept cm cn ci s0 (State.logWatch s) := by
  unfold State.logWatch
  try dsimp only
  repeat' first | with_reducible first | assumption | (apply ite_kept <;> intro _) | simp only [mk_kept] | apply State.bucketWatch_kept | apply State.reportDropped_kept | (with_reducible refine foldl_kept _ _ (fun _ _ _ => ?_) ?_ <;> try dsimp only) | (split <;> try dsimp only)

theorem State.resubmit_kept {cm cn ci : Bool} {s0 s : State} (hk : Kept cm cn ci s0 s) : Kept cm cn ci s0 (State.resubmit s) := by
  unfold State.resubmit
  try dsimp only
  repeat' first | with_reducible first | assumption | (apply ite_kept <;> intro _) | simp only [mk_kept] | apply State.submit_kept | (with_reducible refine foldl_kept _ _ (fun _ _ _ => ?_) ?_ <;> try dsimp only) | (split <;> try dsimp only) | grind [State.submit_kept]

theorem State.scanSlot_kept {cm ci : Bool} {s0 s : State} (sector : Nat) (gen : Nat) (slot : Nat) (hk : Kept cm true ci s0 s) : Kept cm true ci s0 (State.scanSlot s sector gen slot) := by
  unfold State.scanSlot
  try dsimp only
  repeat' first | with_reducible first | assumption | (apply ite_kept <;> intro _) | simp only [mk_kept, mk_kept_nv] | apply State.logS_kept | (split <;> try dsimp only)

theorem State.tallyScan_kept {ci : Bool} {s0 s : State} (hk : Kept true true ci s0 s) : Kept true true ci s0 (State.tallyScan s) := by
  unfold State.tallyScan
  try dsimp only
  repeat' first | with_reducible first | assumption | (apply ite_kept <;> intro _) | simp only [mk_kept, mk_kept_nv] | apply State.scanSlot_kept | apply State.clearMem_kept | apply State.wrBytes_kept | (with_reducible refine foldl_kept _ _ (fun _ _ _ => ?_) ?_ <;> try dsimp only) | (split <;> try dsimp only)

theorem State.tallyTear_kept {ci : Bool} {s0 s : State} (hk : Kept true true ci s0 s) : Kept true true ci s0 (State.tallyTear s) := by
  unfold State.tallyTear
  try dsimp only
  repeat' first | with_reducible first | assumption | (apply ite_kept <;> intro _) | simp only [mk_kept, mk_kept_nv] | apply State.tallyCompact_kept | apply State.spoil_kept | (split <;> try dsimp only)

theorem State.tallyFailed_kept {ci : Bool} {s0 s : State} (hk : Kept true true ci s0 s) : Kept true true ci s0 (State.tallyFailed s) := by
  unfold State.tallyFailed
  try dsimp only
  repeat' first | with_reducible first | assumption | (apply ite_kept <;> intro _) | simp only [mk_kept, mk_kept_nv] | apply State.tallyTear_kept | apply State.logS_kept | apply State.easy_kept | (split <;> try dsimp only)

theorem doTallyAccCommit_kept {ci : Bool} {s0 s : State} (verifyOk : Bool) (hk : Kept true true ci s0 s) : Kept true true ci s0 (doTallyAccCommit s verifyOk) := by
  unfold doTallyAccCommit
  try dsimp only
  repeat' first | with_reducible first | assumption | (apply ite_kept <;> intro _) | simp only [mk_kept, mk_kept_nv] | apply State.tallyFlush_kept | apply State.tallyCommit_kept | apply State.tallyFailed_kept | (split <;> try dsimp only)

theorem State.efcShow_kept {cm cn ci : Bool} {s0 s : State} (busy : Bool) (erasing : Bool) (susp : Bool) (off : Nat) (hk : Kept cm cn ci s0 s) : Kept cm cn ci s0 (State.efcShow s busy erasing susp off) := by
  unfold State.efcShow
  try dsimp only
  repeat' first | with_reducible first | assumption | (apply ite_kept <;> intro _) | simp only [mk_kept] | apply State.setBit_kept | (split <;> try dsimp only)

theorem doEfcProgram_kept {cm cn ci : Bool} {s0 s : State} (rq : Requester) (key : Nat) (hk : Kept cm cn ci s0 s) : Kept cm cn ci s0 (doEfcProgram s rq key) := by
  unfold doEfcProgram
  try dsimp only
  repeat' first | with_reducible first | assumption | (apply ite_kept <;> intro _) | simp only [mk_kept] | apply State.efcShow_kept | (split <;> try dsimp only)

theorem doEfcErase_kept {cm cn ci : Bool} {s0 s : State} (rq : Requester) (key : Nat) (hk : Kept cm cn ci s0 s) : Kept cm cn ci s0 (doEfcErase s rq key) := by
  unfold doEfcErase
  try dsimp only
  repeat' first | with_reducible first | assumption | (apply ite_kept <;> intro _) | simp only [mk_kept] | apply State.efcShow_kept | (split <;> try dsimp only)

theorem State.efcAnswer_kept {cm cn ci : Bool} {s0 s : State} (cls : EccClass) (data : Nat) (syndrome : Nat) (hk : Kept cm cn ci s0 s) : Kept cm cn ci s0 (State.efcAnswer s cls data syndrome) := by
  unfold State.efcAnswer
  try dsimp only
  repeat' first | with_reducible first | assumption | (apply ite_kept <;> intro _) | simp only [mk_kept] | apply State.free_kept | apply State.wrN_kept | apply State.setBit_kept | (split <;> try dsimp only) | grind [State.free_kept]

theorem doEfcTolerantRead_kept {cm cn ci : Bool} {s0 s : State} (rq : Requester) (data : Nat) (check : Nat) (hk : Kept cm cn ci s0 s) : Kept cm cn ci s0 (doEfcTolerantRead s rq data check) := by
  unfold doEfcTolerantRead
  try dsimp only
  repeat' first | with_reducible first | assumption | (apply ite_kept <;> intro _) | simp only [mk_kept] | apply State.efcAnswer_kept | (split <;> try dsimp only)

theorem doEfcOperationDone_kept {cn ci : Bool} {s0 s : State} (ok : Bool) (hk : Kept true cn ci s0 s) : Kept true cn ci s0 (doEfcOperationDone s ok) := by
  unfold doEfcOperationDone
  try dsimp only
  repeat' first | with_reducible first | assumption | (apply ite_kept <;> intro _) | simp only [mk_kept] | apply State.setBit_kept | apply State.wrBytes_kept | apply State.spoil_kept | apply State.incSat_kept | apply State.efcShow_kept | apply State.clearMem_kept | (split <;> try dsimp only)

theorem State.copySector_kept {cn ci : Bool} {s0 s : State} (src : Nat) (dst : Nat) (hk : Kept true cn ci s0 s) : Kept true cn ci s0 (State.copySector s src dst) := by
  unfold State.copySector
  try dsimp only
  repeat' first | with_reducible first | assumption | (apply ite_kept <;> intro _) | simp only [mk_kept] | apply State.clearMem_kept | apply State.wrBytes_kept | (split <;> try dsimp only)

theorem State.journalWrite_kept {ci : Bool} {s0 s : State} (t : Nat) (copied : Bool) (hk : Kept true true ci s0 s) : Kept true true ci s0 (State.journalWrite s t copied) := by
  unfold State.journalWrite
  try dsimp only
  repeat' first | with_reducible first | assumption | (apply ite_kept <;> intro _) | simp only [mk_kept, mk_kept_nv] | apply State.tallyCompact_kept | apply State.wrBytes_kept | (split <;> try dsimp only)

theorem doSectorRefresh_kept {ci : Bool} {s0 s : State} (hk : Kept true true ci s0 s) : Kept true true ci s0 (doSectorRefresh s) := by
  unfold doSectorRefresh
  try dsimp only
  repeat' first | with_reducible first | assumption | (apply ite_kept <;> intro _) | simp only [mk_kept, mk_kept_nv] | apply State.tallyWrite_kept | apply State.copySector_kept | apply State.journalWrite_kept | apply State.logS_kept | (split <;> try dsimp only)

theorem State.refreshRecovery_kept {cn ci : Bool} {s0 s : State} (hk : Kept true cn ci s0 s) : Kept true cn ci s0 (State.refreshRecovery s) := by
  unfold State.refreshRecovery
  try dsimp only
  repeat' first | with_reducible first | assumption | (apply ite_kept <;> intro _) | simp only [mk_kept] | apply State.copySector_kept | (split <;> try dsimp only)

theorem State.refreshReport_kept {ci : Bool} {s0 s : State} (cut : Option Nat) (hk : Kept true true ci s0 s) : Kept true true ci s0 (State.refreshReport s cut) := by
  unfold State.refreshReport
  try dsimp only
  repeat' first | with_reducible first | assumption | (apply ite_kept <;> intro _) | simp only [mk_kept, mk_kept_nv] | apply State.journalWrite_kept | apply State.logS_kept | (split <;> try dsimp only)

end Sys2Proof.Machine
end

