-- ==== Sys2Proof/Laws/KeptContactors.lean ====
section
/-!
SUPPORT. The contactors, the measurements, the isolators, reset and the always-on domain keep the queue, the canonical registers and the canonical memory: one lemma per operation, each from the lemmas of the operations it calls.
-/

namespace Sys2Proof.Machine

theorem State.setStr_kept {cm cn ci : Bool} {s0 s : State} (i : Nat) (x : StrSt) (hk : Kept cm cn ci s0 s) : Kept cm cn ci s0 (State.setStr s i x) := by
  unfold State.setStr
  try dsimp only
  repeat' first | with_reducible first | assumption | (apply ite_kept <;> intro _) | simp only [mk_kept] | (split <;> try dsimp only)

theorem State.updStr_kept {cm cn ci : Bool} {s0 s : State} (i : Nat) (f : StrSt → StrSt) (hk : Kept cm cn ci s0 s) : Kept cm cn ci s0 (State.updStr s i f) := by
  unfold State.updStr
  try dsimp only
  repeat' first | with_reducible first | assumption | (apply ite_kept <;> intro _) | simp only [mk_kept] | apply State.setStr_kept | (split <;> try dsimp only)

theorem State.updCoil_kept {cm cn ci : Bool} {s0 s : State} (c : Nat) (f : CoilSt → CoilSt) (hk : Kept cm cn ci s0 s) : Kept cm cn ci s0 (State.updCoil s c f) := by
  unfold State.updCoil
  try dsimp only
  repeat' first | with_reducible first | assumption | (apply ite_kept <;> intro _) | simp only [mk_kept] | (split <;> try dsimp only)

theorem State.order_kept {ci : Bool} {s0 s : State} (c : Nat) (v : Bool) (hk : Kept true true ci s0 s) : Kept true true ci s0 (State.order s c v) := by
  unfold State.order
  try dsimp only
  repeat' first | with_reducible first | assumption | (apply ite_kept <;> intro _) | simp only [mk_kept, mk_kept_nv] | apply State.tallyDeny_kept | apply State.tallyOp_kept | apply State.setBit_kept | (split <;> try dsimp only)

theorem State.orderOpt_kept {ci : Bool} {s0 s : State} (c : Option Nat) (v : Bool) (hk : Kept true true ci s0 s) : Kept true true ci s0 (State.orderOpt s c v) := by
  unfold State.orderOpt
  try dsimp only
  repeat' first | with_reducible first | assumption | (apply ite_kept <;> intro _) | simp only [mk_kept, mk_kept_nv] | apply State.order_kept | (split <;> try dsimp only)

theorem State.cutFeed_kept {cm cn ci : Bool} {s0 s : State} (hk : Kept cm cn ci s0 s) : Kept cm cn ci s0 (State.cutFeed s) := by
  unfold State.cutFeed
  try dsimp only
  repeat' first | with_reducible first | assumption | (apply ite_kept <;> intro _) | simp only [mk_kept] | apply State.setBit_kept | (split <;> try dsimp only)

theorem State.stopFeed_kept {cm cn ci : Bool} {s0 s : State} (hk : Kept cm cn ci s0 s) : Kept cm cn ci s0 (State.stopFeed s) := by
  unfold State.stopFeed
  try dsimp only
  repeat' first | with_reducible first | assumption | (apply ite_kept <;> intro _) | simp only [mk_kept] | apply State.setBit_kept | apply State.cutFeed_kept | (split <;> try dsimp only)

theorem State.feedStroke_kept {cm cn ci : Bool} {s0 s : State} (permit : Bool) (hk : Kept cm cn ci s0 s) : Kept cm cn ci s0 (State.feedStroke s permit) := by
  unfold State.feedStroke
  try dsimp only
  repeat' first | with_reducible first | assumption | (apply ite_kept <;> intro _) | simp only [mk_kept] | apply State.setBit_kept | apply State.incSat_kept | (split <;> try dsimp only)

theorem State.coilSense_kept {cm cn ci : Bool} {s0 s : State} (c : Nat) (phase : Nat) (hk : Kept cm cn ci s0 s) : Kept cm cn ci s0 (State.coilSense s c phase) := by
  unfold State.coilSense
  try dsimp only
  repeat' first | with_reducible first | assumption | (apply ite_kept <;> intro _) | simp only [mk_kept] | apply State.wrN_kept | apply State.setFld_kept | (split <;> try dsimp only)

theorem State.fallCoil_kept {cm cn ci : Bool} {s0 s : State} (c : Nat) (drop : Bool) (hk : Kept cm cn ci s0 s) : Kept cm cn ci s0 (State.fallCoil s c drop) := by
  unfold State.fallCoil
  try dsimp only
  repeat' first | with_reducible first | assumption | (apply ite_kept <;> intro _) | simp only [mk_kept] | apply State.updCoil_kept | apply State.coilSense_kept | (split <;> try dsimp only)

theorem State.dropCoils_kept {cm cn ci : Bool} {s0 s : State} (hk : Kept cm cn ci s0 s) : Kept cm cn ci s0 (State.dropCoils s) := by
  unfold State.dropCoils
  try dsimp only
  repeat' first | with_reducible first | assumption | (apply ite_kept <;> intro _) | simp only [mk_kept] | apply State.fallCoil_kept | apply State.updCoil_kept | apply State.wrN_kept | apply State.setBit_kept | (with_reducible refine foldl_kept _ _ (fun _ _ _ => ?_) ?_ <;> try dsimp only) | (split <;> try dsimp only)

theorem State.catchCoil_kept {cm cn ci : Bool} {s0 s : State} (line : Bool) (c : Nat) (hk : Kept cm cn ci s0 s) : Kept cm cn ci s0 (State.catchCoil s line c) := by
  unfold State.catchCoil
  try dsimp only
  repeat' first | with_reducible first | assumption | (apply ite_kept <;> intro _) | simp only [mk_kept] | apply State.setBit_kept | apply State.updCoil_kept | apply State.coilSense_kept | (split <;> try dsimp only)

theorem State.catchOutputs_kept {cm cn ci : Bool} {s0 s : State} (hk : Kept cm cn ci s0 s) : Kept cm cn ci s0 (State.catchOutputs s) := by
  unfold State.catchOutputs
  try dsimp only
  repeat' first | with_reducible first | assumption | (apply ite_kept <;> intro _) | simp only [mk_kept] | apply State.catchCoil_kept | apply State.setBit_kept | apply State.setFld_kept | (with_reducible refine foldl_kept _ _ (fun _ _ _ => ?_) ?_ <;> try dsimp only) | (split <;> try dsimp only)

theorem State.catchDefer_kept {ci : Bool} {s0 s : State} (hk : Kept true true ci s0 s) : Kept true true ci s0 (State.catchDefer s) := by
  unfold State.catchDefer
  try dsimp only
  repeat' first | with_reducible first | assumption | (apply ite_kept <;> intro _) | simp only [mk_kept, mk_kept_nv] | apply State.setBit_kept | apply State.logS_kept | apply State.tallyOp_kept | (split <;> try dsimp only)

theorem State.openStep_kept {ci : Bool} {s0 s : State} (i : Nat) (hk : Kept true true ci s0 s) : Kept true true ci s0 (State.openStep s i) := by
  unfold State.openStep
  try dsimp only
  repeat' first | with_reducible first | assumption | (apply ite_kept <;> intro _) | simp only [mk_kept, mk_kept_nv] | apply State.orderOpt_kept | apply State.updStr_kept | (split <;> try dsimp only)

theorem State.weld_kept {ci : Bool} {s0 s : State} (c : Nat) (test : Nat) (hk : Kept true true ci s0 s) : Kept true true ci s0 (State.weld s c test) := by
  unfold State.weld
  try dsimp only
  repeat' first | with_reducible first | assumption | (apply ite_kept <;> intro _) | simp only [mk_kept, mk_kept_nv] | apply State.updStr_kept | apply State.updCoil_kept | apply State.openStep_kept | apply State.tallyOp_kept | apply State.logS_kept | apply State.easy_kept | (split <;> try dsimp only)

theorem State.countPreFail_kept {cm ci : Bool} {s0 s : State} (i : Nat) (hk : Kept cm true ci s0 s) : Kept cm true ci s0 (State.countPreFail s i) := by
  unfold State.countPreFail
  try dsimp only
  repeat' first | with_reducible first | assumption | (apply ite_kept <;> intro _) | simp only [mk_kept, mk_kept_nv] | apply State.logS_kept | (split <;> try dsimp only)

theorem State.catchContact_kept {cm cn ci : Bool} {s0 s : State} (c : Nat) (hk : Kept cm cn ci s0 s) : Kept cm cn ci s0 (State.catchContact s c) := by
  unfold State.catchContact
  try dsimp only
  repeat' first | with_reducible first | assumption | (apply ite_kept <;> intro _) | simp only [mk_kept] | apply State.updCoil_kept | apply State.logS_kept | (split <;> try dsimp only)

theorem State.unmark_kept {cm cn ci : Bool} {s0 s : State} (i : Nat) (hk : Kept cm cn ci s0 s) : Kept cm cn ci s0 (State.unmark s i) := by
  unfold State.unmark
  try dsimp only
  repeat' first | with_reducible first | assumption | (apply ite_kept <;> intro _) | simp only [mk_kept] | apply State.updCoil_kept | (with_reducible refine foldl_kept _ _ (fun _ _ _ => ?_) ?_ <;> try dsimp only) | (split <;> try dsimp only)

theorem State.catchDrop_kept {cm ci : Bool} {s0 s : State} (i : Nat) (hk : Kept cm true ci s0 s) : Kept cm true ci s0 (State.catchDrop s i) := by
  unfold State.catchDrop
  try dsimp only
  repeat' first | with_reducible first | assumption | (apply ite_kept <;> intro _) | simp only [mk_kept, mk_kept_nv] | apply State.logS_kept | apply State.countPreFail_kept | apply State.unmark_kept | apply State.updStr_kept | (split <;> try dsimp only)

theorem State.weldCatch_kept {cm cn ci : Bool} {s0 s : State} (c : Nat) (hk : Kept cm cn ci s0 s) : Kept cm cn ci s0 (State.weldCatch s c) := by
  unfold State.weldCatch
  try dsimp only
  repeat' first | with_reducible first | assumption | (apply ite_kept <;> intro _) | simp only [mk_kept] | apply State.updCoil_kept | (split <;> try dsimp only)

theorem State.keepHeat_kept {cm cn ci : Bool} {s0 s : State} (h : Rat) (hk : Kept cm cn ci s0 s) : Kept cm cn ci s0 (State.keepHeat s h) := by
  unfold State.keepHeat
  try dsimp only
  repeat' first | with_reducible first | assumption | (apply ite_kept <;> intro _) | simp only [mk_kept] | apply State.wrN_kept | (split <;> try dsimp only)

theorem State.heatStart_kept {cm cn ci : Bool} {s0 s : State} (hk : Kept cm cn ci s0 s) : Kept cm cn ci s0 (State.heatStart s) := by
  unfold State.heatStart
  try dsimp only
  repeat' first | with_reducible first | assumption | (apply ite_kept <;> intro _) | simp only [mk_kept] | apply State.keepHeat_kept | (with_reducible refine foldl_kept _ _ (fun _ _ _ => ?_) ?_ <;> try dsimp only) | (split <;> try dsimp only)

theorem State.heatCatch_kept {cm cn ci : Bool} {s0 s : State} (hk : Kept cm cn ci s0 s) : Kept cm cn ci s0 (State.heatCatch s) := by
  unfold State.heatCatch
  try dsimp only
  repeat' first | with_reducible first | assumption | (apply ite_kept <;> intro _) | simp only [mk_kept] | apply State.keepHeat_kept | apply State.updStr_kept | (with_reducible refine foldl_kept _ _ (fun _ _ _ => ?_) ?_ <;> try dsimp only) | (split <;> try dsimp only)

theorem State.startPre_kept {ci : Bool} {s0 s : State} (i : Nat) (hk : Kept true true ci s0 s) : Kept true true ci s0 (State.startPre s i) := by
  unfold State.startPre
  try dsimp only
  repeat' first | with_reducible first | assumption | (apply ite_kept <;> intro _) | simp only [mk_kept, mk_kept_nv] | apply State.tallyDeny_kept | apply State.tallyOp_kept | apply State.orderOpt_kept | apply State.updStr_kept | apply State.logS_kept | (split <;> try dsimp only)

theorem State.preFail_kept {ci : Bool} {s0 s : State} (i : Nat) (res : Nat) (hk : Kept true true ci s0 s) : Kept true true ci s0 (State.preFail s i res) := by
  unfold State.preFail
  try dsimp only
  repeat' first | with_reducible first | assumption | (apply ite_kept <;> intro _) | simp only [mk_kept, mk_kept_nv] | apply State.orderOpt_kept | apply State.logS_kept | apply State.countPreFail_kept | apply State.updStr_kept | (split <;> try dsimp only)

theorem State.preRun_kept {ci : Bool} {s0 s : State} (i : Nat) (t0 : Nat) (hk : Kept true true ci s0 s) : Kept true true ci s0 (State.preRun s i t0) := by
  unfold State.preRun
  try dsimp only
  repeat' first | with_reducible first | assumption | (apply ite_kept <;> intro _) | simp only [mk_kept, mk_kept_nv] | apply State.preFail_kept | apply State.weld_kept | apply State.tallyDeny_kept | apply State.orderOpt_kept | apply State.updStr_kept | apply State.logS_kept | (split <;> try dsimp only)

theorem State.preCheck_kept {ci : Bool} {s0 s : State} (i : Nat) (hk : Kept true true ci s0 s) : Kept true true ci s0 (State.preCheck s i) := by
  unfold State.preCheck
  try dsimp only
  repeat' first | with_reducible first | assumption | (apply ite_kept <;> intro _) | simp only [mk_kept, mk_kept_nv] | apply State.updStr_kept | apply State.preRun_kept | (split <;> try dsimp only)

theorem State.startAdmit_kept {ci : Bool} {s0 s : State} (i : Nat) (hk : Kept true true ci s0 s) : Kept true true ci s0 (State.startAdmit s i) := by
  unfold State.startAdmit
  try dsimp only
  repeat' first | with_reducible first | assumption | (apply ite_kept <;> intro _) | simp only [mk_kept, mk_kept_nv] | apply State.updStr_kept | apply State.orderOpt_kept | (split <;> try dsimp only)

theorem State.beginClose_kept {ci : Bool} {s0 s : State} (i : Nat) (hk : Kept true true ci s0 s) : Kept true true ci s0 (State.beginClose s i) := by
  unfold State.beginClose
  try dsimp only
  repeat' first | with_reducible first | assumption | (apply ite_kept <;> intro _) | simp only [mk_kept, mk_kept_nv] | apply State.unmark_kept | apply State.updStr_kept | apply State.startPre_kept | apply State.startAdmit_kept | (split <;> try dsimp only)

theorem State.closeDone_kept {ci : Bool} {s0 s : State} (i : Nat) (hk : Kept true true ci s0 s) : Kept true true ci s0 (State.closeDone s i) := by
  unfold State.closeDone
  try dsimp only
  repeat' first | with_reducible first | assumption | (apply ite_kept <;> intro _) | simp only [mk_kept, mk_kept_nv] | apply State.orderOpt_kept | apply State.updStr_kept | (split <;> try dsimp only)

theorem State.strStep_kept {ci : Bool} {s0 s : State} (i : Nat) (hk : Kept true true ci s0 s) : Kept true true ci s0 (State.strStep s i) := by
  unfold State.strStep
  try dsimp only
  repeat' first | with_reducible first | assumption | (apply ite_kept <;> intro _) | simp only [mk_kept, mk_kept_nv] | apply State.updStr_kept | apply State.openStep_kept | apply State.tallyDeny_kept | apply State.beginClose_kept | apply State.closeDone_kept | apply State.preCheck_kept | apply State.startPre_kept | apply State.startAdmit_kept | apply State.orderOpt_kept | apply State.logS_kept | (split <;> try dsimp only)

theorem State.winString_kept {cm cn ci : Bool} {s0 s : State} (i : Nat) (kind : Nat) (hk : Kept cm cn ci s0 s) : Kept cm cn ci s0 (State.winString s i kind) := by
  unfold State.winString
  try dsimp only
  repeat' first | with_reducible first | assumption | (apply ite_kept <;> intro _) | simp only [mk_kept] | apply State.updStr_kept | (split <;> try dsimp only)

theorem State.winPre_kept {cm cn ci : Bool} {s0 s : State} (kind : Nat) (hk : Kept cm cn ci s0 s) : Kept cm cn ci s0 (State.winPre s kind) := by
  unfold State.winPre
  try dsimp only
  repeat' first | with_reducible first | assumption | (apply ite_kept <;> intro _) | simp only [mk_kept] | apply State.updStr_kept | (with_reducible refine foldl_kept _ _ (fun _ _ _ => ?_) ?_ <;> try dsimp only) | (split <;> try dsimp only)

theorem State.shortCircuit_kept {ci : Bool} {s0 s : State} (hk : Kept true true ci s0 s) : Kept true true ci s0 (State.shortCircuit s) := by
  unfold State.shortCircuit
  try dsimp only
  repeat' first | with_reducible first | assumption | (apply ite_kept <;> intro _) | simp only [mk_kept, mk_kept_nv] | apply State.setBit_kept | apply State.protectOpen_kept | apply State.tallyOp_kept | apply State.logS_kept | apply State.easy_kept | (split <;> try dsimp only)

theorem State.pumpTest_kept {ci : Bool} {s0 s : State} (vgs : Nat) (skipped : Bool) (hk : Kept true true ci s0 s) : Kept true true ci s0 (State.pumpTest s vgs skipped) := by
  unfold State.pumpTest
  try dsimp only
  repeat' first | with_reducible first | assumption | (apply ite_kept <;> intro _) | simp only [mk_kept, mk_kept_nv] | apply State.logS_kept | apply State.easyAtEnd_kept | (split <;> try dsimp only)

theorem State.coilFault_kept {cm cn ci : Bool} {s0 s : State} (c : Nat) (openLoad : Bool) (hk : Kept cm cn ci s0 s) : Kept cm cn ci s0 (State.coilFault s c openLoad) := by
  unfold State.coilFault
  try dsimp only
  repeat' first | with_reducible first | assumption | (apply ite_kept <;> intro _) | simp only [mk_kept] | apply State.setBit_kept | apply State.fallCoil_kept | apply State.updStr_kept | apply State.logS_kept | (split <;> try dsimp only)

theorem doCoilOvercurrent_kept {cm cn ci : Bool} {s0 s : State} (c : Nat) (hk : Kept cm cn ci s0 s) : Kept cm cn ci s0 (doCoilOvercurrent s c) := by
  unfold doCoilOvercurrent
  try dsimp only
  repeat' first | with_reducible first | assumption | (apply ite_kept <;> intro _) | simp only [mk_kept] | apply State.coilFault_kept | (split <;> try dsimp only)

theorem doCoilOpenLoad_kept {cm cn ci : Bool} {s0 s : State} (c : Nat) (hk : Kept cm cn ci s0 s) : Kept cm cn ci s0 (doCoilOpenLoad s c) := by
  unfold doCoilOpenLoad
  try dsimp only
  repeat' first | with_reducible first | assumption | (apply ite_kept <;> intro _) | simp only [mk_kept] | apply State.coilFault_kept | (split <;> try dsimp only)

theorem doCloseTimeout_kept {ci : Bool} {s0 s : State} (c : Nat) (hk : Kept true true ci s0 s) : Kept true true ci s0 (doCloseTimeout s c) := by
  unfold doCloseTimeout
  try dsimp only
  repeat' first | with_reducible first | assumption | (apply ite_kept <;> intro _) | simp only [mk_kept, mk_kept_nv] | apply State.order_kept | apply State.logS_kept | apply State.updStr_kept | (split <;> try dsimp only)

theorem doNegOpenTimeout_kept {ci : Bool} {s0 s : State} (i : Nat) (hk : Kept true true ci s0 s) : Kept true true ci s0 (doNegOpenTimeout s i) := by
  unfold doNegOpenTimeout
  try dsimp only
  repeat' first | with_reducible first | assumption | (apply ite_kept <;> intro _) | simp only [mk_kept, mk_kept_nv] | apply State.orderOpt_kept | (split <;> try dsimp only)

theorem doWeldFeedback_kept {ci : Bool} {s0 s : State} (c : Nat) (hk : Kept true true ci s0 s) : Kept true true ci s0 (doWeldFeedback s c) := by
  unfold doWeldFeedback
  try dsimp only
  repeat' first | with_reducible first | assumption | (apply ite_kept <;> intro _) | simp only [mk_kept, mk_kept_nv] | apply State.weld_kept | (split <;> try dsimp only)

theorem doWeldHvsJudge_kept {ci : Bool} {s0 s : State} (c : Nat) (hk : Kept true true ci s0 s) : Kept true true ci s0 (doWeldHvsJudge s c) := by
  unfold doWeldHvsJudge
  try dsimp only
  repeat' first | with_reducible first | assumption | (apply ite_kept <;> intro _) | simp only [mk_kept, mk_kept_nv] | apply State.updCoil_kept | apply State.weld_kept | (split <;> try dsimp only)

theorem doPumpSnap_kept {cm cn ci : Bool} {s0 s : State} (hk : Kept cm cn ci s0 s) : Kept cm cn ci s0 (doPumpSnap s) := by
  unfold doPumpSnap
  try dsimp only
  repeat' first | with_reducible first | assumption | (apply ite_kept <;> intro _) | simp only [mk_kept] | apply State.setBit_kept | apply State.dropCoils_kept | (split <;> try dsimp only)

theorem doRailLoss_kept {cm cn ci : Bool} {s0 s : State} (hk : Kept cm cn ci s0 s) : Kept cm cn ci s0 (doRailLoss s) := by
  unfold doRailLoss
  try dsimp only
  repeat' first | with_reducible first | assumption | (apply ite_kept <;> intro _) | simp only [mk_kept] | apply State.setBit_kept | apply State.dropCoils_kept | (split <;> try dsimp only)

theorem doRailUp_kept {cm cn ci : Bool} {s0 s : State} (hk : Kept cm cn ci s0 s) : Kept cm cn ci s0 (doRailUp s) := by
  unfold doRailUp
  try dsimp only
  repeat' first | with_reducible first | assumption | (apply ite_kept <;> intro _) | simp only [mk_kept] | apply State.setBit_kept | (split <;> try dsimp only)

theorem doPumpSkip_kept {cm cn ci : Bool} {s0 s : State} (hk : Kept cm cn ci s0 s) : Kept cm cn ci s0 (doPumpSkip s) := by
  unfold doPumpSkip
  try dsimp only
  repeat' first | with_reducible first | assumption | (apply ite_kept <;> intro _) | simp only [mk_kept] | (split <;> try dsimp only)

theorem doSnapTest_kept {cm cn ci : Bool} {s0 s : State} (hk : Kept cm cn ci s0 s) : Kept cm cn ci s0 (doSnapTest s) := by
  unfold doSnapTest
  try dsimp only
  repeat' first | with_reducible first | assumption | (apply ite_kept <;> intro _) | simp only [mk_kept] | apply State.setBit_kept | apply State.dropCoils_kept | (split <;> try dsimp only)

theorem doDeferExpire_kept {ci : Bool} {s0 s : State} (hk : Kept true true ci s0 s) : Kept true true ci s0 (doDeferExpire s) := by
  unfold doDeferExpire
  try dsimp only
  repeat' first | with_reducible first | assumption | (apply ite_kept <;> intro _) | simp only [mk_kept, mk_kept_nv] | apply State.logS_kept | apply State.easy_kept | (split <;> try dsimp only)

theorem doEnergyGateTimeout_kept {cm cn ci : Bool} {s0 s : State} (i : Nat) (hk : Kept cm cn ci s0 s) : Kept cm cn ci s0 (doEnergyGateTimeout s i) := by
  unfold doEnergyGateTimeout
  try dsimp only
  repeat' first | with_reducible first | assumption | (apply ite_kept <;> intro _) | simp only [mk_kept] | apply State.updStr_kept | (split <;> try dsimp only)

theorem doAdmitTimeout_kept {ci : Bool} {s0 s : State} (i : Nat) (hk : Kept true true ci s0 s) : Kept true true ci s0 (doAdmitTimeout s i) := by
  unfold doAdmitTimeout
  try dsimp only
  repeat' first | with_reducible first | assumption | (apply ite_kept <;> intro _) | simp only [mk_kept, mk_kept_nv] | apply State.logS_kept | apply State.orderOpt_kept | apply State.updStr_kept | (split <;> try dsimp only)

theorem doPullinEnd_kept {cm cn ci : Bool} {s0 s : State} (c : Nat) (hk : Kept cm cn ci s0 s) : Kept cm cn ci s0 (doPullinEnd s c) := by
  unfold doPullinEnd
  try dsimp only
  repeat' first | with_reducible first | assumption | (apply ite_kept <;> intro _) | simp only [mk_kept] | apply State.setBit_kept | apply State.coilSense_kept | (split <;> try dsimp only)

theorem State.clearPre_kept {cm ci : Bool} {s0 s : State} (i : Nat) (hk : Kept cm true ci s0 s) : Kept cm true ci s0 (State.clearPre s i) := by
  unfold State.clearPre
  try dsimp only
  repeat' first | with_reducible first | assumption | (apply ite_kept <;> intro _) | simp only [mk_kept, mk_kept_nv] | apply State.updStr_kept | apply State.logS0_kept | (split <;> try dsimp only)

theorem State.clearWeldOf_kept {cm cn ci : Bool} {s0 s : State} (i : Nat) (hk : Kept cm cn ci s0 s) : Kept cm cn ci s0 (State.clearWeldOf s i) := by
  unfold State.clearWeldOf
  try dsimp only
  repeat' first | with_reducible first | assumption | (apply ite_kept <;> intro _) | simp only [mk_kept] | apply State.updCoil_kept | apply State.updStr_kept | apply State.logS0_kept | (with_reducible refine foldl_kept _ _ (fun _ _ _ => ?_) ?_ <;> try dsimp only) | (split <;> try dsimp only)

theorem State.clearCoil_kept {cm cn ci : Bool} {s0 s : State} (c : Nat) (hk : Kept cm cn ci s0 s) : Kept cm cn ci s0 (State.clearCoil s c) := by
  unfold State.clearCoil
  try dsimp only
  repeat' first | with_reducible first | assumption | (apply ite_kept <;> intro _) | simp only [mk_kept] | apply State.setBit_kept | apply State.updCoil_kept | apply State.updStr_kept | apply State.logS0_kept | (split <;> try dsimp only)

theorem State.showAcc_kept {cm cn ci : Bool} {s0 s : State} (hk : Kept cm cn ci s0 s) : Kept cm cn ci s0 (State.showAcc s) := by
  unfold State.showAcc
  try dsimp only
  repeat' first | with_reducible first | assumption | (apply ite_kept <;> intro _) | simp only [mk_kept] | apply State.wrN_kept | (split <;> try dsimp only)

theorem doCcaInterval_kept {cm cn ci : Bool} {s0 s : State} (sampleNv : Int) (durNs : Nat) (hk : Kept cm cn ci s0 s) : Kept cm cn ci s0 (doCcaInterval s sampleNv durNs) := by
  unfold doCcaInterval
  try dsimp only
  repeat' first | with_reducible first | assumption | (apply ite_kept <;> intro _) | simp only [mk_kept] | apply State.setBit_kept | apply State.setFld_kept | apply State.logS_kept | apply State.showAcc_kept | (split <;> try dsimp only)

theorem doCcaLiveRead_kept {cm cn ci : Bool} {s0 s : State} (hk : Kept cm cn ci s0 s) : Kept cm cn ci s0 (doCcaLiveRead s) := by
  unfold doCcaLiveRead
  try dsimp only
  repeat' first | with_reducible first | assumption | (apply ite_kept <;> intro _) | simp only [mk_kept] | apply State.showAcc_kept | apply State.wrN_kept | (split <;> try dsimp only)

theorem State.chop_kept {cm cn ci : Bool} {s0 s : State} (hk : Kept cm cn ci s0 s) : Kept cm cn ci s0 (State.chop s) := by
  unfold State.chop
  try dsimp only
  repeat' first | with_reducible first | assumption | (apply ite_kept <;> intro _) | simp only [mk_kept] | apply State.setBit_kept | (split <;> try dsimp only)

theorem State.snapshot_kept {cm cn ci : Bool} {s0 s : State} (durUs : Nat) (hk : Kept cm cn ci s0 s) : Kept cm cn ci s0 (State.snapshot s durUs) := by
  unfold State.snapshot
  try dsimp only
  repeat' first | with_reducible first | assumption | (apply ite_kept <;> intro _) | simp only [mk_kept] | apply State.wrN_kept | apply State.tallyAcc_kept | (split <;> try dsimp only)

theorem State.trigger_kept {cm cn ci : Bool} {s0 s : State} (hk : Kept cm cn ci s0 s) : Kept cm cn ci s0 (State.trigger s) := by
  unfold State.trigger
  try dsimp only
  repeat' first | with_reducible first | assumption | (apply ite_kept <;> intro _) | simp only [mk_kept] | (split <;> try dsimp only)

theorem State.captureSample_kept {cm cn ci : Bool} {s0 s : State} (code : Int) (hk : Kept cm cn ci s0 s) : Kept cm cn ci s0 (State.captureSample s code) := by
  unfold State.captureSample
  try dsimp only
  repeat' first | with_reducible first | assumption | (apply ite_kept <;> intro _) | simp only [mk_kept] | apply State.setBit_kept | apply State.setFld_kept | (split <;> try dsimp only)

theorem doFcsSample_kept {cm cn ci : Bool} {s0 s : State} (code : Int) (hk : Kept cm cn ci s0 s) : Kept cm cn ci s0 (doFcsSample s code) := by
  unfold doFcsSample
  try dsimp only
  repeat' first | with_reducible first | assumption | (apply ite_kept <;> intro _) | simp only [mk_kept] | apply State.setFld_kept | apply State.setBit_kept | apply State.captureSample_kept | (split <;> try dsimp only)

theorem State.fcsLatch_kept {cm cn ci : Bool} {s0 s : State} (hk : Kept cm cn ci s0 s) : Kept cm cn ci s0 (State.fcsLatch s) := by
  unfold State.fcsLatch
  try dsimp only
  repeat' first | with_reducible first | assumption | (apply ite_kept <;> intro _) | simp only [mk_kept] | apply State.wrN_kept | apply State.setFld_kept | (split <;> try dsimp only)

theorem doOcsTrip_kept {cm cn ci : Bool} {s0 s : State} (us : Nat) (nv : Nat) (hk : Kept cm cn ci s0 s) : Kept cm cn ci s0 (doOcsTrip s us nv) := by
  unfold doOcsTrip
  try dsimp only
  repeat' first | with_reducible first | assumption | (apply ite_kept <;> intro _) | simp only [mk_kept] | apply State.setBit_kept | apply State.atUs_kept | apply State.wrN_kept | apply State.trigger_kept | apply State.logS_kept | (with_reducible refine foldl_kept _ _ (fun _ _ _ => ?_) ?_ <;> try dsimp only) | (split <;> try dsimp only)

theorem doBkiTrip_kept {cm cn ci : Bool} {s0 s : State} (nv : Nat) (hk : Kept cm cn ci s0 s) : Kept cm cn ci s0 (doBkiTrip s nv) := by
  unfold doBkiTrip
  try dsimp only
  repeat' first | with_reducible first | assumption | (apply ite_kept <;> intro _) | simp only [mk_kept] | apply State.setBit_kept | (split <;> try dsimp only)

theorem doBkiRelease_kept {cm cn ci : Bool} {s0 s : State} (nv : Nat) (hk : Kept cm cn ci s0 s) : Kept cm cn ci s0 (doBkiRelease s nv) := by
  unfold doBkiRelease
  try dsimp only
  repeat' first | with_reducible first | assumption | (apply ite_kept <;> intro _) | simp only [mk_kept] | apply State.setBit_kept | (split <;> try dsimp only)

theorem doCaptureTrigger_kept {cm cn ci : Bool} {s0 s : State} (hk : Kept cm cn ci s0 s) : Kept cm cn ci s0 (doCaptureTrigger s) := by
  unfold doCaptureTrigger
  try dsimp only
  repeat' first | with_reducible first | assumption | (apply ite_kept <;> intro _) | simp only [mk_kept] | apply State.trigger_kept | (split <;> try dsimp only)

theorem doCaptureArm_kept {cm cn ci : Bool} {s0 s : State} (hk : Kept cm cn ci s0 s) : Kept cm cn ci s0 (doCaptureArm s) := by
  unfold doCaptureArm
  try dsimp only
  repeat' first | with_reducible first | assumption | (apply ite_kept <;> intro _) | simp only [mk_kept] | apply State.setBit_kept | apply State.setFld_kept | (split <;> try dsimp only)

theorem doCaptureRead_kept {cm cn ci : Bool} {s0 s : State} (hk : Kept cm cn ci s0 s) : Kept cm cn ci s0 (doCaptureRead s) := by
  unfold doCaptureRead
  try dsimp only
  repeat' first | with_reducible first | assumption | (apply ite_kept <;> intro _) | simp only [mk_kept] | apply State.setFld_kept | (split <;> try dsimp only)

theorem doFcsSelfTest_kept {cm cn ci : Bool} {s0 s : State} (hk : Kept cm cn ci s0 s) : Kept cm cn ci s0 (doFcsSelfTest s) := by
  unfold doFcsSelfTest
  try dsimp only
  repeat' first | with_reducible first | assumption | (apply ite_kept <;> intro _) | simp only [mk_kept] | apply State.setFld_kept | (split <;> try dsimp only)

theorem doFcsSelfTestEnd_kept {ci : Bool} {s0 s : State} (ocs : Bool) (bki : Bool) (meanCode : Int) (hk : Kept true true ci s0 s) : Kept true true ci s0 (doFcsSelfTestEnd s ocs bki meanCode) := by
  unfold doFcsSelfTestEnd
  try dsimp only
  repeat' first | with_reducible first | assumption | (apply ite_kept <;> intro _) | simp only [mk_kept, mk_kept_nv] | apply State.free_kept | apply State.setFld_kept | apply State.setBit_kept | apply State.logS_kept | apply State.easyAtEnd_kept | (split <;> try dsimp only) | grind [State.free_kept]

theorem doHvsConversion_kept {cm cn ci : Bool} {s0 s : State} (ch : Nat) (code : Nat) (hk : Kept cm cn ci s0 s) : Kept cm cn ci s0 (doHvsConversion s ch code) := by
  unfold doHvsConversion
  try dsimp only
  repeat' first | with_reducible first | assumption | (apply ite_kept <;> intro _) | simp only [mk_kept] | apply State.wrN_kept | apply State.setFld_kept | apply State.setBit_kept | (with_reducible refine foldl_kept _ _ (fun _ _ _ => ?_) ?_ <;> try dsimp only) | (split <;> try dsimp only)

theorem doHvsTest_kept {cm cn ci : Bool} {s0 s : State} (mask : Nat) (hk : Kept cm cn ci s0 s) : Kept cm cn ci s0 (doHvsTest s mask) := by
  unfold doHvsTest
  try dsimp only
  repeat' first | with_reducible first | assumption | (apply ite_kept <;> intro _) | simp only [mk_kept] | (split <;> try dsimp only)

theorem doHvsTestEnd_kept {cm cn ci : Bool} {s0 s : State} (fullScale : Nat) (hk : Kept cm cn ci s0 s) : Kept cm cn ci s0 (doHvsTestEnd s fullScale) := by
  unfold doHvsTestEnd
  try dsimp only
  repeat' first | with_reducible first | assumption | (apply ite_kept <;> intro _) | simp only [mk_kept] | apply State.setBit_kept | apply State.logS_kept | (with_reducible refine foldl_kept _ _ (fun _ _ _ => ?_) ?_ <;> try dsimp only) | (split <;> try dsimp only)

theorem State.ntcConvert_kept {cm cn ci : Bool} {s0 s : State} (m : Nat) (code : Nat) (hk : Kept cm cn ci s0 s) : Kept cm cn ci s0 (State.ntcConvert s m code) := by
  unfold State.ntcConvert
  try dsimp only
  repeat' first | with_reducible first | assumption | (apply ite_kept <;> intro _) | simp only [mk_kept] | apply State.wrN_kept | apply State.setBit_kept | (split <;> try dsimp only)

theorem doTmpConversion_kept {cm cn ci : Bool} {s0 s : State} (codes : List Nat) (dieCenti : Int) (hk : Kept cm cn ci s0 s) : Kept cm cn ci s0 (doTmpConversion s codes dieCenti) := by
  unfold doTmpConversion
  try dsimp only
  repeat' first | with_reducible first | assumption | (apply ite_kept <;> intro _) | simp only [mk_kept] | apply State.ntcConvert_kept | apply State.setFld_kept | (with_reducible refine foldl_kept _ _ (fun _ _ _ => ?_) ?_ <;> try dsimp only) | (split <;> try dsimp only)

theorem State.crossCheck_kept {ci : Bool} {s0 s : State} (hk : Kept true true ci s0 s) : Kept true true ci s0 (State.crossCheck s) := by
  unfold State.crossCheck
  try dsimp only
  repeat' first | with_reducible first | assumption | (apply ite_kept <;> intro _) | simp only [mk_kept, mk_kept_nv] | apply State.logS_kept | apply State.easy_kept | (split <;> try dsimp only)

theorem State.satCheck_kept {cm cn ci : Bool} {s0 s : State} (hk : Kept cm cn ci s0 s) : Kept cm cn ci s0 (State.satCheck s) := by
  unfold State.satCheck
  try dsimp only
  repeat' first | with_reducible first | assumption | (apply ite_kept <;> intro _) | simp only [mk_kept] | apply State.setBit_kept | apply State.logS_kept | (split <;> try dsimp only)

theorem State.ntcCheck_kept {cm cn ci : Bool} {s0 s : State} (hk : Kept cm cn ci s0 s) : Kept cm cn ci s0 (State.ntcCheck s) := by
  unfold State.ntcCheck
  try dsimp only
  repeat' first | with_reducible first | assumption | (apply ite_kept <;> intro _) | simp only [mk_kept] | apply State.logS_kept | (with_reducible refine foldl_kept _ _ (fun _ _ _ => ?_) ?_ <;> try dsimp only) | (split <;> try dsimp only)

theorem State.setMdi_kept {cm cn ci : Bool} {s0 s : State} (m : MdiSt) (hk : Kept cm cn ci s0 s) : Kept cm cn ci s0 (State.setMdi s m) := by
  unfold State.setMdi
  try dsimp only
  repeat' first | with_reducible first | assumption | (apply ite_kept <;> intro _) | simp only [mk_kept] | (split <;> try dsimp only)

theorem State.showMdi_kept {cm cn ci : Bool} {s0 s : State} (hk : Kept cm cn ci s0 s) : Kept cm cn ci s0 (State.showMdi s) := by
  unfold State.showMdi
  try dsimp only
  repeat' first | with_reducible first | assumption | (apply ite_kept <;> intro _) | simp only [mk_kept] | apply State.setBit_kept | apply State.setFld_kept | (split <;> try dsimp only)

theorem State.leftClosed_kept {cm cn ci : Bool} {s0 s : State} (new : Nat) (hk : Kept cm cn ci s0 s) : Kept cm cn ci s0 (State.leftClosed s new) := by
  unfold State.leftClosed
  try dsimp only
  repeat' first | with_reducible first | assumption | (apply ite_kept <;> intro _) | simp only [mk_kept] | apply State.protectOpen_kept | apply State.logS_kept | (split <;> try dsimp only)

theorem State.startMove_kept {ci : Bool} {s0 s : State} (hk : Kept true true ci s0 s) : Kept true true ci s0 (State.startMove s) := by
  unfold State.startMove
  try dsimp only
  repeat' first | with_reducible first | assumption | (apply ite_kept <;> intro _) | simp only [mk_kept, mk_kept_nv] | apply State.tallyDeny_kept | apply State.tallyOp_kept | apply State.setFld_kept | apply State.setMdi_kept | apply State.showMdi_kept | apply State.leftClosed_kept | apply State.logS_kept | (split <;> try dsimp only)

theorem State.driveBridge_kept {cm cn ci : Bool} {s0 s : State} (hk : Kept cm cn ci s0 s) : Kept cm cn ci s0 (State.driveBridge s) := by
  unfold State.driveBridge
  try dsimp only
  repeat' first | with_reducible first | assumption | (apply ite_kept <;> intro _) | simp only [mk_kept] | apply State.setBit_kept | apply State.setFld_kept | apply State.setMdi_kept | (split <;> try dsimp only)

theorem State.wantMove_kept {ci : Bool} {s0 s : State} (target : Nat) (homing : Bool) (ordered : Bool) (hk : Kept true true ci s0 s) : Kept true true ci s0 (State.wantMove s target homing ordered) := by
  unfold State.wantMove
  try dsimp only
  repeat' first | with_reducible first | assumption | (apply ite_kept <;> intro _) | simp only [mk_kept, mk_kept_nv] | apply State.setMdi_kept | apply State.startMove_kept | apply State.showMdi_kept | (split <;> try dsimp only)

theorem State.mdiOutput_kept {ci : Bool} {s0 s : State} (hk : Kept true true ci s0 s) : Kept true true ci s0 (State.mdiOutput s) := by
  unfold State.mdiOutput
  try dsimp only
  repeat' first | with_reducible first | assumption | (apply ite_kept <;> intro _) | simp only [mk_kept, mk_kept_nv] | apply State.setBit_kept | apply State.setMdi_kept | apply State.showMdi_kept | apply State.driveBridge_kept | apply State.wantMove_kept | (split <;> try dsimp only)

theorem State.winMdi_kept {ci : Bool} {s0 s : State} (kind : Nat) (hk : Kept true true ci s0 s) : Kept true true ci s0 (State.winMdi s kind) := by
  unfold State.winMdi
  try dsimp only
  repeat' first | with_reducible first | assumption | (apply ite_kept <;> intro _) | simp only [mk_kept, mk_kept_nv] | apply State.openAll_kept | apply State.wantMove_kept | apply State.setMdi_kept | apply State.showMdi_kept | (split <;> try dsimp only)

theorem State.mdiFail_kept {cm cn ci : Bool} {s0 s : State} (f : Nat) (hk : Kept cm cn ci s0 s) : Kept cm cn ci s0 (State.mdiFail s f) := by
  unfold State.mdiFail
  try dsimp only
  repeat' first | with_reducible first | assumption | (apply ite_kept <;> intro _) | simp only [mk_kept] | apply State.setBit_kept | apply State.setMdi_kept | apply State.showMdi_kept | apply State.logS_kept | (split <;> try dsimp only)

theorem State.watchPosition_kept {cm cn ci : Bool} {s0 s : State} (hk : Kept cm cn ci s0 s) : Kept cm cn ci s0 (State.watchPosition s) := by
  unfold State.watchPosition
  try dsimp only
  repeat' first | with_reducible first | assumption | (apply ite_kept <;> intro _) | simp only [mk_kept] | apply State.setMdi_kept | apply State.showMdi_kept | apply State.mdiFail_kept | apply State.leftClosed_kept | apply State.logS_kept | (split <;> try dsimp only)

theorem State.moveCatch_kept {cm cn ci : Bool} {s0 s : State} (hk : Kept cm cn ci s0 s) : Kept cm cn ci s0 (State.moveCatch s) := by
  unfold State.moveCatch
  try dsimp only
  repeat' first | with_reducible first | assumption | (apply ite_kept <;> intro _) | simp only [mk_kept] | apply State.mdiFail_kept | apply State.setBit_kept | apply State.setMdi_kept | apply State.showMdi_kept | apply State.logS_kept | (split <;> try dsimp only)

theorem State.mdiCatch_kept {ci : Bool} {s0 s : State} (hk : Kept true true ci s0 s) : Kept true true ci s0 (State.mdiCatch s) := by
  unfold State.mdiCatch
  try dsimp only
  repeat' first | with_reducible first | assumption | (apply ite_kept <;> intro _) | simp only [mk_kept, mk_kept_nv] | apply State.setMdi_kept | apply State.moveCatch_kept | apply State.watchPosition_kept | apply State.wantMove_kept | apply State.startMove_kept | apply State.setFld_kept | (split <;> try dsimp only)

theorem State.motorMeas_kept {cm cn ci : Bool} {s0 s : State} (mA : Nat) (hk : Kept cm cn ci s0 s) : Kept cm cn ci s0 (State.motorMeas s mA) := by
  unfold State.motorMeas
  try dsimp only
  repeat' first | with_reducible first | assumption | (apply ite_kept <;> intro _) | simp only [mk_kept] | apply State.wrN_kept | apply State.setMdi_kept | (split <;> try dsimp only)

theorem State.startHoming_kept {cm cn ci : Bool} {s0 s : State} (hk : Kept cm cn ci s0 s) : Kept cm cn ci s0 (State.startHoming s) := by
  unfold State.startHoming
  try dsimp only
  repeat' first | with_reducible first | assumption | (apply ite_kept <;> intro _) | simp only [mk_kept] | apply State.setMdi_kept | apply State.showMdi_kept | (split <;> try dsimp only)

theorem doMdiTimeout_kept {cm cn ci : Bool} {s0 s : State} (hk : Kept cm cn ci s0 s) : Kept cm cn ci s0 (doMdiTimeout s) := by
  unfold doMdiTimeout
  try dsimp only
  repeat' first | with_reducible first | assumption | (apply ite_kept <;> intro _) | simp only [mk_kept] | apply State.mdiFail_kept | (split <;> try dsimp only)

theorem doMdiStall_kept {cm cn ci : Bool} {s0 s : State} (hk : Kept cm cn ci s0 s) : Kept cm cn ci s0 (doMdiStall s) := by
  unfold doMdiStall
  try dsimp only
  repeat' first | with_reducible first | assumption | (apply ite_kept <;> intro _) | simp only [mk_kept] | apply State.mdiFail_kept | (split <;> try dsimp only)

theorem doMdiOvercurrent_kept {cm cn ci : Bool} {s0 s : State} (hk : Kept cm cn ci s0 s) : Kept cm cn ci s0 (doMdiOvercurrent s) := by
  unfold doMdiOvercurrent
  try dsimp only
  repeat' first | with_reducible first | assumption | (apply ite_kept <;> intro _) | simp only [mk_kept] | apply State.mdiFail_kept | apply State.setBit_kept | apply State.setMdi_kept | (split <;> try dsimp only)

theorem doMdiBrakeEnd_kept {cm cn ci : Bool} {s0 s : State} (hk : Kept cm cn ci s0 s) : Kept cm cn ci s0 (doMdiBrakeEnd s) := by
  unfold doMdiBrakeEnd
  try dsimp only
  repeat' first | with_reducible first | assumption | (apply ite_kept <;> intro _) | simp only [mk_kept] | apply State.setMdi_kept | (split <;> try dsimp only)

theorem doMdiWaitDefer_kept {cm cn ci : Bool} {s0 s : State} (hk : Kept cm cn ci s0 s) : Kept cm cn ci s0 (doMdiWaitDefer s) := by
  unfold doMdiWaitDefer
  try dsimp only
  repeat' first | with_reducible first | assumption | (apply ite_kept <;> intro _) | simp only [mk_kept] | apply State.setMdi_kept | apply State.logS_kept | (split <;> try dsimp only)

theorem doMdiGo_kept {cm cn ci : Bool} {s0 s : State} (close : Bool) (hk : Kept cm cn ci s0 s) : Kept cm cn ci s0 (doMdiGo s close) := by
  unfold doMdiGo
  try dsimp only
  repeat' first | with_reducible first | assumption | (apply ite_kept <;> intro _) | simp only [mk_kept] | apply State.setMdi_kept | (split <;> try dsimp only)

theorem doMdiStop_kept {cm cn ci : Bool} {s0 s : State} (hk : Kept cm cn ci s0 s) : Kept cm cn ci s0 (doMdiStop s) := by
  unfold doMdiStop
  try dsimp only
  repeat' first | with_reducible first | assumption | (apply ite_kept <;> intro _) | simp only [mk_kept] | apply State.setMdi_kept | (split <;> try dsimp only)

theorem doTestPulseFault_kept {cm cn ci : Bool} {s0 s : State} (src : Nat) (hk : Kept cm cn ci s0 s) : Kept cm cn ci s0 (doTestPulseFault s src) := by
  unfold doTestPulseFault
  try dsimp only
  repeat' first | with_reducible first | assumption | (apply ite_kept <;> intro _) | simp only [mk_kept] | apply State.setBit_kept | apply State.logS_kept | (with_reducible refine foldl_kept _ _ (fun _ _ _ => ?_) ?_ <;> try dsimp only) | (split <;> try dsimp only)

theorem State.setLvl_kept {cm cn ci : Bool} {s0 s : State} (b : Nat) (v : Bool) (hk : Kept cm cn ci s0 s) : Kept cm cn ci s0 (State.setLvl s b v) := by
  unfold State.setLvl
  try dsimp only
  repeat' first | with_reducible first | assumption | (apply ite_kept <;> intro _) | simp only [mk_kept] | apply State.setMdi_kept | (split <;> try dsimp only)

theorem doSinLevelChange_kept {cm cn ci : Bool} {s0 s : State} (n : Nat) (level : Bool) (hk : Kept cm cn ci s0 s) : Kept cm cn ci s0 (doSinLevelChange s n level) := by
  unfold doSinLevelChange
  try dsimp only
  repeat' first | with_reducible first | assumption | (apply ite_kept <;> intro _) | simp only [mk_kept] | apply State.setBit_kept | apply State.setLvl_kept | apply State.incSat_kept | (split <;> try dsimp only)

theorem State.setCross_kept {cm cn ci : Bool} {s0 s : State} (n : Nat) (v : Bool) (src : Nat) (hk : Kept cm cn ci s0 s) : Kept cm cn ci s0 (State.setCross s n v src) := by
  unfold State.setCross
  try dsimp only
  repeat' first | with_reducible first | assumption | (apply ite_kept <;> intro _) | simp only [mk_kept] | apply State.setBit_kept | apply State.logS_kept | (split <;> try dsimp only)

theorem State.setStuck_kept {cm cn ci : Bool} {s0 s : State} (n : Nat) (v : Bool) (hk : Kept cm cn ci s0 s) : Kept cm cn ci s0 (State.setStuck s n v) := by
  unfold State.setStuck
  try dsimp only
  repeat' first | with_reducible first | assumption | (apply ite_kept <;> intro _) | simp only [mk_kept] | apply State.setBit_kept | apply State.logS_kept | (split <;> try dsimp only)

theorem doSinFinding_kept {cm cn ci : Bool} {s0 s : State} (n : Nat) (cross : Option Nat) (hk : Kept cm cn ci s0 s) : Kept cm cn ci s0 (doSinFinding s n cross) := by
  unfold doSinFinding
  try dsimp only
  repeat' first | with_reducible first | assumption | (apply ite_kept <;> intro _) | simp only [mk_kept] | apply State.setCross_kept | apply State.setStuck_kept | apply State.setLvl_kept | (split <;> try dsimp only)

theorem doSinFindingClear_kept {cm cn ci : Bool} {s0 s : State} (n : Nat) (hk : Kept cm cn ci s0 s) : Kept cm cn ci s0 (doSinFindingClear s n) := by
  unfold doSinFindingClear
  try dsimp only
  repeat' first | with_reducible first | assumption | (apply ite_kept <;> intro _) | simp only [mk_kept] | apply State.setCross_kept | apply State.setStuck_kept | apply State.setLvl_kept | (split <;> try dsimp only)

theorem State.sinSourceSet_kept {cm cn ci : Bool} {s0 s : State} (n : Nat) (hk : Kept cm cn ci s0 s) : Kept cm cn ci s0 (State.sinSourceSet s n) := by
  unfold State.sinSourceSet
  try dsimp only
  repeat' first | with_reducible first | assumption | (apply ite_kept <;> intro _) | simp only [mk_kept] | apply State.setCross_kept | apply State.setStuck_kept | (split <;> try dsimp only)

theorem doSinPairDiscrepancy_kept {cm cn ci : Bool} {s0 s : State} (n : Nat) (hk : Kept cm cn ci s0 s) : Kept cm cn ci s0 (doSinPairDiscrepancy s n) := by
  unfold doSinPairDiscrepancy
  try dsimp only
  repeat' first | with_reducible first | assumption | (apply ite_kept <;> intro _) | simp only [mk_kept] | apply State.logS_kept | (split <;> try dsimp only)

theorem State.sinCatchOne_kept {cm cn ci : Bool} {s0 s : State} (n : Nat) (hk : Kept cm cn ci s0 s) : Kept cm cn ci s0 (State.sinCatchOne s n) := by
  unfold State.sinCatchOne
  try dsimp only
  repeat' first | with_reducible first | assumption | (apply ite_kept <;> intro _) | simp only [mk_kept] | apply State.logS_kept | apply State.placeOrder_kept | (split <;> try dsimp only)

theorem State.sinCatch_kept {cm cn ci : Bool} {s0 s : State} (hk : Kept cm cn ci s0 s) : Kept cm cn ci s0 (State.sinCatch s) := by
  unfold State.sinCatch
  try dsimp only
  repeat' first | with_reducible first | assumption | (apply ite_kept <;> intro _) | simp only [mk_kept] | apply State.sinCatchOne_kept | (with_reducible refine foldl_kept _ _ (fun _ _ _ => ?_) ?_ <;> try dsimp only) | (split <;> try dsimp only)

theorem State.clearSinOf_kept {cm cn ci : Bool} {s0 s : State} (n : Nat) (hk : Kept cm cn ci s0 s) : Kept cm cn ci s0 (State.clearSinOf s n) := by
  unfold State.clearSinOf
  try dsimp only
  repeat' first | with_reducible first | assumption | (apply ite_kept <;> intro _) | simp only [mk_kept] | apply State.logS0_kept | (split <;> try dsimp only)

theorem State.clearMdiOf_kept {cm cn ci : Bool} {s0 s : State} (hk : Kept cm cn ci s0 s) : Kept cm cn ci s0 (State.clearMdiOf s) := by
  unfold State.clearMdiOf
  try dsimp only
  repeat' first | with_reducible first | assumption | (apply ite_kept <;> intro _) | simp only [mk_kept] | apply State.startHoming_kept | apply State.clrReg_kept | apply State.logS0_kept | (split <;> try dsimp only)

theorem State.stopKpa_kept {cm cn ci : Bool} {s0 s : State} (hk : Kept cm cn ci s0 s) : Kept cm cn ci s0 (State.stopKpa s) := by
  unfold State.stopKpa
  try dsimp only
  repeat' first | with_reducible first | assumption | (apply ite_kept <;> intro _) | simp only [mk_kept] | apply State.clrReg_kept | (split <;> try dsimp only)

theorem State.cutErase_kept {cn ci : Bool} {s0 s : State} (hk : Kept true cn ci s0 s) : Kept true cn ci s0 (State.cutErase s) := by
  unfold State.cutErase
  try dsimp only
  repeat' first | with_reducible first | assumption | (apply ite_kept <;> intro _) | simp only [mk_kept] | apply State.spoil_kept | (split <;> try dsimp only)

theorem State.heldBy_kept {s0 s : State} (cause : Nat) (hk : Kept true true true s0 s) : Kept true true true s0 (State.heldBy s cause) := by
  have h := State.cutErase_kept hk
  exact ⟨h.1, h.2, fun k => Tab.wf_drop regReset (fun a => !keptReg a) _ (h.3 k), fun k => Tab.wf_drop memDflt (fun a => !keptMem a) _ (h.4 k), (fun k => nomatch k), (fun k => nomatch k), (fun k => nomatch k), fun _ => rfl⟩

theorem State.countReset_kept {cm cn ci : Bool} {s0 s : State} (cause : Nat) (hk : Kept cm cn ci s0 s) : Kept cm cn ci s0 (State.countReset s cause) := by
  unfold State.countReset
  try dsimp only
  repeat' first | with_reducible first | assumption | (apply ite_kept <;> intro _) | simp only [mk_kept] | apply State.setFld_kept | apply State.setBit_kept | apply State.incSat_kept | (split <;> try dsimp only)

theorem State.assertReset_kept {s0 s : State} (cause : Nat) (hk : Kept true true true s0 s) : Kept true true true s0 (State.assertReset s cause) := by
  unfold State.assertReset
  try dsimp only
  repeat' first | with_reducible first | assumption | (apply ite_kept <;> intro _) | simp only [mk_kept, mk_kept_nv, mk_kept_force, mk_kept_both] | apply State.heldBy_kept | apply State.stopKpa_kept | apply State.countReset_kept | apply State.setBit_kept | apply State.incSat_kept | (split <;> try dsimp only)

theorem State.assertPor_kept {s0 s : State} (hk : Kept true true true s0 s) : Kept true true true s0 (State.assertPor s) := by
  have h := State.cutErase_kept hk
  exact ⟨h.1, h.2, fun k => Tab.wf_drop regReset (fun a => !fuseReg a) _ (h.3 k), fun k => Tab.wf_drop memDflt (fun a => !keptMem a) _ (h.4 k), (fun k => nomatch k), (fun k => nomatch k), (fun k => nomatch k), fun _ => rfl⟩

theorem State.wake_kept {s0 s : State} (src : Nat) (hk : Kept true true true s0 s) : Kept true true true s0 (State.wake s src) := by
  unfold State.wake
  try dsimp only
  repeat' first | with_reducible first | assumption | (apply ite_kept <;> intro _) | simp only [mk_kept, mk_kept_nv, mk_kept_force, mk_kept_both] | apply State.free_kept | apply State.assertReset_kept | (split <;> try dsimp only) | grind [State.free_kept]

theorem State.setKpa_kept {cm cn ci : Bool} {s0 s : State} (k : KpaSt) (hk : Kept cm cn ci s0 s) : Kept cm cn ci s0 (State.setKpa s k) := by
  unfold State.setKpa
  try dsimp only
  repeat' first | with_reducible first | assumption | (apply ite_kept <;> intro _) | simp only [mk_kept] | (split <;> try dsimp only)

theorem State.logKpa_kept {cm cn ci : Bool} {s0 s : State} (code : Nat) (args : List Byte) (hk : Kept cm cn ci s0 s) : Kept cm cn ci s0 (State.logKpa s code args) := by
  unfold State.logKpa
  try dsimp only
  repeat' first | with_reducible first | assumption | (apply ite_kept <;> intro _) | simp only [mk_kept] | apply State.logS_kept | (split <;> try dsimp only)

theorem State.setKflag_kept {cm cn ci : Bool} {s0 s : State} (b : Nat) (v : Bool) (hk : Kept cm cn ci s0 s) : Kept cm cn ci s0 (State.setKflag s b v) := by
  unfold State.setKflag
  try dsimp only
  repeat' first | with_reducible first | assumption | (apply ite_kept <;> intro _) | simp only [mk_kept] | apply State.setBit_kept | (split <;> try dsimp only)

theorem State.selectSource_kept {cm cn ci : Bool} {s0 s : State} (cause : Nat) (hk : Kept cm cn ci s0 s) : Kept cm cn ci s0 (State.selectSource s cause) := by
  unfold State.selectSource
  try dsimp only
  repeat' first | with_reducible first | assumption | (apply ite_kept <;> intro _) | simp only [mk_kept] | apply State.setFld_kept | apply State.setBit_kept | apply State.logKpa_kept | (split <;> try dsimp only)

theorem State.kinHeld_kept {cm cn ci : Bool} {s0 s : State} (hk : Kept cm cn ci s0 s) : Kept cm cn ci s0 (State.kinHeld s) := by
  unfold State.kinHeld
  try dsimp only
  repeat' first | with_reducible first | assumption | (apply ite_kept <;> intro _) | simp only [mk_kept] | apply State.setKflag_kept | apply State.selectSource_kept | (split <;> try dsimp only)

theorem State.kinHold_kept {cm cn ci : Bool} {s0 s : State} (v : Bool) (hk : Kept cm cn ci s0 s) : Kept cm cn ci s0 (State.kinHold s v) := by
  unfold State.kinHold
  try dsimp only
  repeat' first | with_reducible first | assumption | (apply ite_kept <;> intro _) | simp only [mk_kept] | apply State.setBit_kept | apply State.kinHeld_kept | (split <;> try dsimp only)

theorem State.startSculls_kept {cm cn ci : Bool} {s0 s : State} (hk : Kept cm cn ci s0 s) : Kept cm cn ci s0 (State.startSculls s) := by
  unfold State.startSculls
  try dsimp only
  repeat' first | with_reducible first | assumption | (apply ite_kept <;> intro _) | simp only [mk_kept] | apply State.orReg_kept | (split <;> try dsimp only)

theorem State.endBlack_kept {cm cn ci : Bool} {s0 s : State} (hk : Kept cm cn ci s0 s) : Kept cm cn ci s0 (State.endBlack s) := by
  unfold State.endBlack
  try dsimp only
  repeat' first | with_reducible first | assumption | (apply ite_kept <;> intro _) | simp only [mk_kept] | apply State.setBit_kept | (split <;> try dsimp only)

theorem State.setCurrent_kept {cm cn ci : Bool} {s0 s : State} (hk : Kept cm cn ci s0 s) : Kept cm cn ci s0 (State.setCurrent s) := by
  unfold State.setCurrent
  try dsimp only
  repeat' first | with_reducible first | assumption | (apply ite_kept <;> intro _) | simp only [mk_kept] | apply State.setKpa_kept | (split <;> try dsimp only)

theorem State.toCharge_kept {cm cn ci : Bool} {s0 s : State} (new : Nat) (hk : Kept cm cn ci s0 s) : Kept cm cn ci s0 (State.toCharge s new) := by
  unfold State.toCharge
  try dsimp only
  repeat' first | with_reducible first | assumption | (apply ite_kept <;> intro _) | simp only [mk_kept] | apply State.setFld_kept | apply State.setKflag_kept | apply State.logKpa_kept | apply State.setCurrent_kept | apply State.selectSource_kept | (split <;> try dsimp only)

theorem State.chargeFault_kept {cm cn ci : Bool} {s0 s : State} (reason : Nat) (hk : Kept cm cn ci s0 s) : Kept cm cn ci s0 (State.chargeFault s reason) := by
  unfold State.chargeFault
  try dsimp only
  repeat' first | with_reducible first | assumption | (apply ite_kept <;> intro _) | simp only [mk_kept] | apply State.setKpa_kept | apply State.setFld_kept | apply State.setBit_kept | apply State.setKflag_kept | apply State.toCharge_kept | apply State.logKpa_kept | apply State.selectSource_kept | (split <;> try dsimp only)

theorem State.chargeDone_kept {ci : Bool} {s0 s : State} (reason : Nat) (hk : Kept true true ci s0 s) : Kept true true ci s0 (State.chargeDone s reason) := by
  unfold State.chargeDone
  try dsimp only
  repeat' first | with_reducible first | assumption | (apply ite_kept <;> intro _) | simp only [mk_kept, mk_kept_nv] | apply State.setKpa_kept | apply State.setFld_kept | apply State.setBit_kept | apply State.tallyOp_kept | apply State.toCharge_kept | apply State.logKpa_kept | (split <;> try dsimp only)

theorem State.enterPhase_kept {cm cn ci : Bool} {s0 s : State} (phase : Nat) (kbatMv : Nat) (hk : Kept cm cn ci s0 s) : Kept cm cn ci s0 (State.enterPhase s phase kbatMv) := by
  unfold State.enterPhase
  try dsimp only
  repeat' first | with_reducible first | assumption | (apply ite_kept <;> intro _) | simp only [mk_kept] | apply State.setKpa_kept | apply State.toCharge_kept | (split <;> try dsimp only)

theorem State.detect_kept {cm cn ci : Bool} {s0 s : State} (kbatMv : Nat) (hk : Kept cm cn ci s0 s) : Kept cm cn ci s0 (State.detect s kbatMv) := by
  unfold State.detect
  try dsimp only
  repeat' first | with_reducible first | assumption | (apply ite_kept <;> intro _) | simp only [mk_kept] | apply State.setKpa_kept | apply State.toCharge_kept | apply State.setCurrent_kept | apply State.enterPhase_kept | (split <;> try dsimp only)

theorem State.chargeFromOff_kept {cm cn ci : Bool} {s0 s : State} (hk : Kept cm cn ci s0 s) : Kept cm cn ci s0 (State.chargeFromOff s) := by
  unfold State.chargeFromOff
  try dsimp only
  repeat' first | with_reducible first | assumption | (apply ite_kept <;> intro _) | simp only [mk_kept] | apply State.detect_kept | (split <;> try dsimp only)

theorem State.auxWritten_kept {cm cn ci : Bool} {s0 s : State} (hk : Kept cm cn ci s0 s) : Kept cm cn ci s0 (State.auxWritten s) := by
  unfold State.auxWritten
  try dsimp only
  repeat' first | with_reducible first | assumption | (apply ite_kept <;> intro _) | simp only [mk_kept] | apply State.setFld_kept | (split <;> try dsimp only)

theorem State.kpaCtrlWritten_kept {cm cn ci : Bool} {s0 s : State} (hk : Kept cm cn ci s0 s) : Kept cm cn ci s0 (State.kpaCtrlWritten s) := by
  unfold State.kpaCtrlWritten
  try dsimp only
  repeat' first | with_reducible first | assumption | (apply ite_kept <;> intro _) | simp only [mk_kept] | apply State.chargeFromOff_kept | apply State.toCharge_kept | apply State.auxWritten_kept | (split <;> try dsimp only)

theorem State.enableKpa_kept {cm cn ci : Bool} {s0 s : State} (hk : Kept cm cn ci s0 s) : Kept cm cn ci s0 (State.enableKpa s) := by
  unfold State.enableKpa
  try dsimp only
  repeat' first | with_reducible first | assumption | (apply ite_kept <;> intro _) | simp only [mk_kept] | apply State.setBit_kept | apply State.kpaCtrlWritten_kept | (split <;> try dsimp only)

theorem State.kinShort_kept {cm cn ci : Bool} {s0 s : State} (hk : Kept cm cn ci s0 s) : Kept cm cn ci s0 (State.kinShort s) := by
  unfold State.kinShort
  try dsimp only
  repeat' first | with_reducible first | assumption | (apply ite_kept <;> intro _) | simp only [mk_kept] | apply State.setKflag_kept | apply State.setBit_kept | apply State.logKpa_kept | (split <;> try dsimp only)

theorem doSourceQualify_kept {cm cn ci : Bool} {s0 s : State} (src : KSource) (mv : Nat) (hk : Kept cm cn ci s0 s) : Kept cm cn ci s0 (doSourceQualify s src mv) := by
  unfold doSourceQualify
  try dsimp only
  repeat' first | with_reducible first | assumption | (apply ite_kept <;> intro _) | simp only [mk_kept] | apply State.setKflag_kept | apply State.selectSource_kept | apply State.endBlack_kept | apply State.chargeFromOff_kept | (split <;> try dsimp only)

theorem doSourceDisqualify_kept {cm cn ci : Bool} {s0 s : State} (src : KSource) (mv : Nat) (hk : Kept cm cn ci s0 s) : Kept cm cn ci s0 (doSourceDisqualify s src mv) := by
  unfold doSourceDisqualify
  try dsimp only
  repeat' first | with_reducible first | assumption | (apply ite_kept <;> intro _) | simp only [mk_kept] | apply State.setKflag_kept | apply State.setKpa_kept | apply State.selectSource_kept | apply State.kinShort_kept | (split <;> try dsimp only)

theorem doSourceLimit_kept {cm cn ci : Bool} {s0 s : State} (chargerCut : Bool) (auxCut : Bool) (systemShort : Bool) (hk : Kept cm cn ci s0 s) : Kept cm cn ci s0 (doSourceLimit s chargerCut auxCut systemShort) := by
  unfold doSourceLimit
  try dsimp only
  repeat' first | with_reducible first | assumption | (apply ite_kept <;> intro _) | simp only [mk_kept] | apply State.setKflag_kept | apply State.setKpa_kept | apply State.toCharge_kept | apply State.kinShort_kept | apply State.chargeFromOff_kept | (split <;> try dsimp only)

theorem doMpptStep_kept {cm cn ci : Bool} {s0 s : State} (rose : Bool) (hk : Kept cm cn ci s0 s) : Kept cm cn ci s0 (doMpptStep s rose) := by
  unfold doMpptStep
  try dsimp only
  repeat' first | with_reducible first | assumption | (apply ite_kept <;> intro _) | simp only [mk_kept] | apply State.setFld_kept | apply State.setKpa_kept | (split <;> try dsimp only)

theorem doVocCheck_kept {cm cn ci : Bool} {s0 s : State} (hk : Kept cm cn ci s0 s) : Kept cm cn ci s0 (doVocCheck s) := by
  unfold doVocCheck
  try dsimp only
  repeat' first | with_reducible first | assumption | (apply ite_kept <;> intro _) | simp only [mk_kept] | apply State.setKpa_kept | apply State.incSat_kept | (split <;> try dsimp only)

theorem doVocNow_kept {cm cn ci : Bool} {s0 s : State} (hk : Kept cm cn ci s0 s) : Kept cm cn ci s0 (doVocNow s) := by
  unfold doVocNow
  try dsimp only
  repeat' first | with_reducible first | assumption | (apply ite_kept <;> intro _) | simp only [mk_kept] | apply State.setKpa_kept | (split <;> try dsimp only)

theorem doVocWindowEnd_kept {cm cn ci : Bool} {s0 s : State} (vocMv : Nat) (hk : Kept cm cn ci s0 s) : Kept cm cn ci s0 (doVocWindowEnd s vocMv) := by
  unfold doVocWindowEnd
  try dsimp only
  repeat' first | with_reducible first | assumption | (apply ite_kept <;> intro _) | simp only [mk_kept] | apply State.setKpa_kept | apply State.setFld_kept | apply State.logKpa_kept | (split <;> try dsimp only)

theorem doBlackStartQualify_kept {cm cn ci : Bool} {s0 s : State} (kinMv : Nat) (hk : Kept cm cn ci s0 s) : Kept cm cn ci s0 (doBlackStartQualify s kinMv) := by
  unfold doBlackStartQualify
  try dsimp only
  repeat' first | with_reducible first | assumption | (apply ite_kept <;> intro _) | simp only [mk_kept] | apply State.setFld_kept | apply State.setKflag_kept | apply State.setBit_kept | apply State.selectSource_kept | (split <;> try dsimp only)

theorem State.blackNote_kept {cm cn ci : Bool} {s0 s : State} (hk : Kept cm cn ci s0 s) : Kept cm cn ci s0 (State.blackNote s) := by
  unfold State.blackNote
  try dsimp only
  repeat' first | with_reducible first | assumption | (apply ite_kept <;> intro _) | simp only [mk_kept] | (split <;> try dsimp only)

theorem doBlackStartSculls_kept {cm cn ci : Bool} {s0 s : State} (hk : Kept cm cn ci s0 s) : Kept cm cn ci s0 (doBlackStartSculls s) := by
  unfold doBlackStartSculls
  try dsimp only
  repeat' first | with_reducible first | assumption | (apply ite_kept <;> intro _) | simp only [mk_kept] | apply State.startSculls_kept | (split <;> try dsimp only)

theorem State.blackCatch_kept {cm cn ci : Bool} {s0 s : State} (hk : Kept cm cn ci s0 s) : Kept cm cn ci s0 (State.blackCatch s) := by
  unfold State.blackCatch
  try dsimp only
  repeat' first | with_reducible first | assumption | (apply ite_kept <;> intro _) | simp only [mk_kept] | apply State.blackNote_kept | apply State.startSculls_kept | (split <;> try dsimp only)

theorem State.blackWatch_kept {cm cn ci : Bool} {s0 s : State} (hk : Kept cm cn ci s0 s) : Kept cm cn ci s0 (State.blackWatch s) := by
  unfold State.blackWatch
  try dsimp only
  repeat' first | with_reducible first | assumption | (apply ite_kept <;> intro _) | simp only [mk_kept] | apply State.logS_kept | (split <;> try dsimp only)

theorem doKbatInserted_kept {cm cn ci : Bool} {s0 s : State} (kthCode : Nat) (kidOhm10 : Nat) (kbatMv : Nat) (hk : Kept cm cn ci s0 s) : Kept cm cn ci s0 (doKbatInserted s kthCode kidOhm10 kbatMv) := by
  unfold doKbatInserted
  try dsimp only
  repeat' first | with_reducible first | assumption | (apply ite_kept <;> intro _) | simp only [mk_kept] | apply State.setFld_kept | apply State.setBit_kept | apply State.setKpa_kept | apply State.logKpa_kept | apply State.chargeFault_kept | apply State.detect_kept | apply State.toCharge_kept | (split <;> try dsimp only)

theorem doKbatMissing_kept {cm cn ci : Bool} {s0 s : State} (hk : Kept cm cn ci s0 s) : Kept cm cn ci s0 (doKbatMissing s) := by
  unfold doKbatMissing
  try dsimp only
  repeat' first | with_reducible first | assumption | (apply ite_kept <;> intro _) | simp only [mk_kept] | apply State.setKpa_kept | apply State.setKflag_kept | apply State.toCharge_kept | apply State.setBit_kept | apply State.logKpa_kept | apply State.selectSource_kept | (split <;> try dsimp only)

theorem doKbatShortProbeEnd_kept {cm cn ci : Bool} {s0 s : State} (kbatMv : Nat) (hk : Kept cm cn ci s0 s) : Kept cm cn ci s0 (doKbatShortProbeEnd s kbatMv) := by
  unfold doKbatShortProbeEnd
  try dsimp only
  repeat' first | with_reducible first | assumption | (apply ite_kept <;> intro _) | simp only [mk_kept] | apply State.setFld_kept | apply State.logKpa_kept | apply State.chargeFault_kept | apply State.detect_kept | (split <;> try dsimp only)

theorem State.repause_kept {cm cn ci : Bool} {s0 s : State} (p : Nat) (hk : Kept cm cn ci s0 s) : Kept cm cn ci s0 (State.repause s p) := by
  unfold State.repause
  try dsimp only
  repeat' first | with_reducible first | assumption | (apply ite_kept <;> intro _) | simp only [mk_kept] | apply State.setKpa_kept | apply State.toCharge_kept | (split <;> try dsimp only)

theorem doChargePhaseLevel_kept {cm cn ci : Bool} {s0 s : State} (kbatMv : Nat) (hk : Kept cm cn ci s0 s) : Kept cm cn ci s0 (doChargePhaseLevel s kbatMv) := by
  unfold doChargePhaseLevel
  try dsimp only
  repeat' first | with_reducible first | assumption | (apply ite_kept <;> intro _) | simp only [mk_kept] | apply State.setFld_kept | apply State.enterPhase_kept | apply State.setKpa_kept | apply State.chargeFault_kept | apply State.toCharge_kept | apply State.repause_kept | (split <;> try dsimp only)

theorem doChargeTimerExpire_kept {cm cn ci : Bool} {s0 s : State} (hk : Kept cm cn ci s0 s) : Kept cm cn ci s0 (doChargeTimerExpire s) := by
  unfold doChargeTimerExpire
  try dsimp only
  repeat' first | with_reducible first | assumption | (apply ite_kept <;> intro _) | simp only [mk_kept] | apply State.chargeFault_kept | (split <;> try dsimp only)

theorem doChargeTaperEnd_kept {ci : Bool} {s0 s : State} (hk : Kept true true ci s0 s) : Kept true true ci s0 (doChargeTaperEnd s) := by
  unfold doChargeTaperEnd
  try dsimp only
  repeat' first | with_reducible first | assumption | (apply ite_kept <;> intro _) | simp only [mk_kept, mk_kept_nv] | apply State.chargeDone_kept | (split <;> try dsimp only)

theorem doNimhDeltaV_kept {ci : Bool} {s0 s : State} (hk : Kept true true ci s0 s) : Kept true true ci s0 (doNimhDeltaV s) := by
  unfold doNimhDeltaV
  try dsimp only
  repeat' first | with_reducible first | assumption | (apply ite_kept <;> intro _) | simp only [mk_kept, mk_kept_nv] | apply State.chargeDone_kept | (split <;> try dsimp only)

theorem doNimhDtdt_kept {ci : Bool} {s0 s : State} (hk : Kept true true ci s0 s) : Kept true true ci s0 (doNimhDtdt s) := by
  unfold doNimhDtdt
  try dsimp only
  repeat' first | with_reducible first | assumption | (apply ite_kept <;> intro _) | simp only [mk_kept, mk_kept_nv] | apply State.chargeDone_kept | (split <;> try dsimp only)

theorem doChargeZoneChange_kept {cm cn ci : Bool} {s0 s : State} (kthCenti : Int) (kbatMv : Nat) (hk : Kept cm cn ci s0 s) : Kept cm cn ci s0 (doChargeZoneChange s kthCenti kbatMv) := by
  unfold doChargeZoneChange
  try dsimp only
  repeat' first | with_reducible first | assumption | (apply ite_kept <;> intro _) | simp only [mk_kept] | apply State.setFld_kept | apply State.repause_kept | apply State.setCurrent_kept | (split <;> try dsimp only)

theorem doChargeHeadroom_kept {cm cn ci : Bool} {s0 s : State} (kvinMv : Nat) (kbatMv : Nat) (hk : Kept cm cn ci s0 s) : Kept cm cn ci s0 (doChargeHeadroom s kvinMv kbatMv) := by
  unfold doChargeHeadroom
  try dsimp only
  repeat' first | with_reducible first | assumption | (apply ite_kept <;> intro _) | simp only [mk_kept] | apply State.setFld_kept | apply State.repause_kept | (split <;> try dsimp only)

theorem doChargeOvervoltage_kept {cm cn ci : Bool} {s0 s : State} (hk : Kept cm cn ci s0 s) : Kept cm cn ci s0 (doChargeOvervoltage s) := by
  unfold doChargeOvervoltage
  try dsimp only
  repeat' first | with_reducible first | assumption | (apply ite_kept <;> intro _) | simp only [mk_kept] | apply State.setKpa_kept | apply State.setKflag_kept | apply State.setCurrent_kept | (split <;> try dsimp only)

theorem doChargeOvCheck_kept {cm cn ci : Bool} {s0 s : State} (present : Bool) (hk : Kept cm cn ci s0 s) : Kept cm cn ci s0 (doChargeOvCheck s present) := by
  unfold doChargeOvCheck
  try dsimp only
  repeat' first | with_reducible first | assumption | (apply ite_kept <;> intro _) | simp only [mk_kept] | apply State.chargeFault_kept | apply doKbatMissing_kept | (split <;> try dsimp only)

theorem doChargeRecharge_kept {cm cn ci : Bool} {s0 s : State} (hk : Kept cm cn ci s0 s) : Kept cm cn ci s0 (doChargeRecharge s) := by
  unfold doChargeRecharge
  try dsimp only
  repeat' first | with_reducible first | assumption | (apply ite_kept <;> intro _) | simp only [mk_kept] | apply State.detect_kept | (split <;> try dsimp only)

theorem doChargeSourceLost_kept {cm cn ci : Bool} {s0 s : State} (hk : Kept cm cn ci s0 s) : Kept cm cn ci s0 (doChargeSourceLost s) := by
  unfold doChargeSourceLost
  try dsimp only
  repeat' first | with_reducible first | assumption | (apply ite_kept <;> intro _) | simp only [mk_kept] | apply State.setKpa_kept | apply State.toCharge_kept | (split <;> try dsimp only)

theorem doChargerStop_kept {ci : Bool} {s0 s : State} (hk : Kept true true ci s0 s) : Kept true true ci s0 (doChargerStop s) := by
  unfold doChargerStop
  try dsimp only
  repeat' first | with_reducible first | assumption | (apply ite_kept <;> intro _) | simp only [mk_kept, mk_kept_nv] | apply State.chargeDone_kept | (split <;> try dsimp only)

theorem doChargerStart_kept {cm cn ci : Bool} {s0 s : State} (hk : Kept cm cn ci s0 s) : Kept cm cn ci s0 (doChargerStart s) := by
  unfold doChargerStart
  try dsimp only
  repeat' first | with_reducible first | assumption | (apply ite_kept <;> intro _) | simp only [mk_kept] | apply State.detect_kept | (split <;> try dsimp only)

theorem doChargerClear_kept {cm cn ci : Bool} {s0 s : State} (hk : Kept cm cn ci s0 s) : Kept cm cn ci s0 (doChargerClear s) := by
  unfold doChargerClear
  try dsimp only
  repeat' first | with_reducible first | assumption | (apply ite_kept <;> intro _) | simp only [mk_kept] | apply State.detect_kept | apply State.toCharge_kept | (split <;> try dsimp only)

theorem State.chargeWatch_kept {cm cn ci : Bool} {s0 s : State} (hk : Kept cm cn ci s0 s) : Kept cm cn ci s0 (State.chargeWatch s) := by
  unfold State.chargeWatch
  try dsimp only
  repeat' first | with_reducible first | assumption | (apply ite_kept <;> intro _) | simp only [mk_kept] | apply State.setKpa_kept | apply State.setFld_kept | (split <;> try dsimp only)

theorem State.coreOff_kept {cm cn ci : Bool} {s0 s : State} (hk : Kept cm cn ci s0 s) : Kept cm cn ci s0 (State.coreOff s) := by
  unfold State.coreOff
  try dsimp only
  repeat' first | with_reducible first | assumption | (apply ite_kept <;> intro _) | simp only [mk_kept] | apply State.dropCoils_kept | apply State.clrReg_kept | apply State.setBit_kept | (split <;> try dsimp only)

theorem doShipEnter_kept {cm cn ci : Bool} {s0 s : State} (value : Word) (hk : Kept cm cn ci s0 s) : Kept cm cn ci s0 (doShipEnter s value) := by
  unfold doShipEnter
  try dsimp only
  repeat' first | with_reducible first | assumption | (apply ite_kept <;> intro _) | simp only [mk_kept] | apply State.coreOff_kept | apply State.setFld_kept | apply State.toCharge_kept | (split <;> try dsimp only)

theorem doShipWake_kept {s0 s : State} (hk : Kept true true true s0 s) : Kept true true true s0 (doShipWake s) := by
  unfold doShipWake
  try dsimp only
  repeat' first | with_reducible first | assumption | (apply ite_kept <;> intro _) | simp only [mk_kept, mk_kept_nv, mk_kept_force, mk_kept_both] | apply State.assertPor_kept | (split <;> try dsimp only)

theorem doKbtnLongPress_kept {s0 s : State} (hk : Kept true true true s0 s) : Kept true true true s0 (doKbtnLongPress s) := by
  unfold doKbtnLongPress
  try dsimp only
  repeat' first | with_reducible first | assumption | (apply ite_kept <;> intro _) | simp only [mk_kept, mk_kept_nv, mk_kept_force, mk_kept_both] | apply State.assertPor_kept | (split <;> try dsimp only)

theorem doKbtnPress_kept {s0 s : State} (hk : Kept true true true s0 s) : Kept true true true s0 (doKbtnPress s) := by
  unfold doKbtnPress
  try dsimp only
  repeat' first | with_reducible first | assumption | (apply ite_kept <;> intro _) | simp only [mk_kept, mk_kept_nv, mk_kept_force, mk_kept_both] | apply State.setKflag_kept | apply State.setBit_kept | apply State.wake_kept | (split <;> try dsimp only)

theorem State.toAux_kept {cm cn ci : Bool} {s0 s : State} (n : Nat) (hk : Kept cm cn ci s0 s) : Kept cm cn ci s0 (State.toAux s n) := by
  unfold State.toAux
  try dsimp only
  repeat' first | with_reducible first | assumption | (apply ite_kept <;> intro _) | simp only [mk_kept] | apply State.setFld_kept | (split <;> try dsimp only)

theorem State.auxFail_kept {cm cn ci : Bool} {s0 s : State} (cause : Nat) (hk : Kept cm cn ci s0 s) : Kept cm cn ci s0 (State.auxFail s cause) := by
  unfold State.auxFail
  try dsimp only
  repeat' first | with_reducible first | assumption | (apply ite_kept <;> intro _) | simp only [mk_kept] | apply State.setKpa_kept | apply State.setFld_kept | apply State.toAux_kept | apply State.setBit_kept | apply State.logKpa_kept | (split <;> try dsimp only)

theorem doAuxFault_kept {cm cn ci : Bool} {s0 s : State} (hk : Kept cm cn ci s0 s) : Kept cm cn ci s0 (doAuxFault s) := by
  unfold doAuxFault
  try dsimp only
  repeat' first | with_reducible first | assumption | (apply ite_kept <;> intro _) | simp only [mk_kept] | apply State.auxFail_kept | (split <;> try dsimp only)

theorem doAuxRetry_kept {cm cn ci : Bool} {s0 s : State} (hk : Kept cm cn ci s0 s) : Kept cm cn ci s0 (doAuxRetry s) := by
  unfold doAuxRetry
  try dsimp only
  repeat' first | with_reducible first | assumption | (apply ite_kept <;> intro _) | simp only [mk_kept] | apply State.toAux_kept | (split <;> try dsimp only)

theorem doAuxSoftstartTimeout_kept {cm cn ci : Bool} {s0 s : State} (hk : Kept cm cn ci s0 s) : Kept cm cn ci s0 (doAuxSoftstartTimeout s) := by
  unfold doAuxSoftstartTimeout
  try dsimp only
  repeat' first | with_reducible first | assumption | (apply ite_kept <;> intro _) | simp only [mk_kept] | apply State.auxFail_kept | (split <;> try dsimp only)

theorem doAuxTargetReached_kept {cm cn ci : Bool} {s0 s : State} (hk : Kept cm cn ci s0 s) : Kept cm cn ci s0 (doAuxTargetReached s) := by
  unfold doAuxTargetReached
  try dsimp only
  repeat' first | with_reducible first | assumption | (apply ite_kept <;> intro _) | simp only [mk_kept] | apply State.toAux_kept | (split <;> try dsimp only)

theorem doAuxChargerEnd_kept {cm cn ci : Bool} {s0 s : State} (hk : Kept cm cn ci s0 s) : Kept cm cn ci s0 (doAuxChargerEnd s) := by
  unfold doAuxChargerEnd
  try dsimp only
  repeat' first | with_reducible first | assumption | (apply ite_kept <;> intro _) | simp only [mk_kept] | apply State.toAux_kept | (split <;> try dsimp only)

theorem doAuxProbe_kept {cm cn ci : Bool} {s0 s : State} (secondaryMv : Nat) (hk : Kept cm cn ci s0 s) : Kept cm cn ci s0 (doAuxProbe s secondaryMv) := by
  unfold doAuxProbe
  try dsimp only
  repeat' first | with_reducible first | assumption | (apply ite_kept <;> intro _) | simp only [mk_kept] | apply State.toAux_kept | (split <;> try dsimp only)

theorem doAuxClear_kept {cm cn ci : Bool} {s0 s : State} (hk : Kept cm cn ci s0 s) : Kept cm cn ci s0 (doAuxClear s) := by
  unfold doAuxClear
  try dsimp only
  repeat' first | with_reducible first | assumption | (apply ite_kept <;> intro _) | simp only [mk_kept] | apply State.setKpa_kept | apply State.setFld_kept | apply State.toAux_kept | (split <;> try dsimp only)

end Sys2Proof.Machine
end

