-- ==== Sys2Proof/Laws/KeptBlocks.lean ====
section
/-!
SUPPORT. The estimation, the insulation monitor, the Cox, CAN, the Q port, the partitions and the tag keep the queue, the canonical registers and the canonical memory: one lemma per operation, each from the lemmas of the operations it calls.
-/

namespace Sys2Proof.Machine

theorem State.setEst_kept {cm cn ci : Bool} {s0 s : State} (e : EstSt) (hk : Kept cm cn ci s0 s) : Kept cm cn ci s0 (State.setEst s e) := by
  unfold State.setEst
  try dsimp only
  repeat' first | with_reducible first | assumption | (apply ite_kept <;> intro _) | simp only [mk_kept] | (split <;> try dsimp only)

theorem State.updStrEst_kept {cm cn ci : Bool} {s0 s : State} (i : Nat) (f : StrEst → StrEst) (hk : Kept cm cn ci s0 s) : Kept cm cn ci s0 (State.updStrEst s i f) := by
  unfold State.updStrEst
  try dsimp only
  repeat' first | with_reducible first | assumption | (apply ite_kept <;> intro _) | simp only [mk_kept] | apply State.setEst_kept | (split <;> try dsimp only)

theorem State.ageSeat_kept {cm cn ci : Bool} {s0 s : State} (n : Nat) (hk : Kept cm cn ci s0 s) : Kept cm cn ci s0 (State.ageSeat s n) := by
  unfold State.ageSeat
  try dsimp only
  repeat' first | with_reducible first | assumption | (apply ite_kept <;> intro _) | simp only [mk_kept] | apply State.logS_kept | apply State.updStrEst_kept | apply State.protectOpen_kept | apply State.updSeat_kept | (split <;> try dsimp only)

theorem State.ageFinish_kept {cm cn ci : Bool} {s0 s : State} (hk : Kept cm cn ci s0 s) : Kept cm cn ci s0 (State.ageFinish s) := by
  unfold State.ageFinish
  try dsimp only
  repeat' first | with_reducible first | assumption | (apply ite_kept <;> intro _) | simp only [mk_kept] | apply State.ageSeat_kept | apply State.updStrEst_kept | (with_reducible refine foldl_kept _ _ (fun _ _ _ => ?_) ?_ <;> try dsimp only) | (split <;> try dsimp only)

theorem State.noteSnap_kept {cm cn ci : Bool} {s0 s : State} (old : Option Int) (hk : Kept cm cn ci s0 s) : Kept cm cn ci s0 (State.noteSnap s old) := by
  unfold State.noteSnap
  try dsimp only
  repeat' first | with_reducible first | assumption | (apply ite_kept <;> intro _) | simp only [mk_kept] | apply State.setEst_kept | (split <;> try dsimp only)

theorem State.countStroke_kept {cm cn ci : Bool} {s0 s : State} (hk : Kept cm cn ci s0 s) : Kept cm cn ci s0 (State.countStroke s) := by
  unfold State.countStroke
  try dsimp only
  repeat' first | with_reducible first | assumption | (apply ite_kept <;> intro _) | simp only [mk_kept] | apply State.setSeat_kept | (with_reducible refine foldl_kept _ _ (fun _ _ _ => ?_) ?_ <;> try dsimp only) | (split <;> try dsimp only)

theorem State.stepStart_kept {cm cn ci : Bool} {s0 s : State} (i : Nat) (cur : Rat) (flat : Bool) (closed : Bool) (hk : Kept cm cn ci s0 s) : Kept cm cn ci s0 (State.stepStart s i cur flat closed) := by
  unfold State.stepStart
  try dsimp only
  repeat' first | with_reducible first | assumption | (apply ite_kept <;> intro _) | simp only [mk_kept] | apply State.setEst_kept | apply State.setChn_kept | (split <;> try dsimp only)

theorem State.strCatch_kept {cm cn ci : Bool} {s0 s : State} (i : Nat) (hk : Kept cm cn ci s0 s) : Kept cm cn ci s0 (State.strCatch s i) := by
  unfold State.strCatch
  try dsimp only
  repeat' first | with_reducible first | assumption | (apply ite_kept <;> intro _) | simp only [mk_kept] | apply State.stepStart_kept | apply State.updStrEst_kept | (split <;> try dsimp only)

theorem State.stepLearn_kept {cm cn ci : Bool} {s0 s : State} (e : StepEst) (hk : Kept cm cn ci s0 s) : Kept cm cn ci s0 (State.stepLearn s e) := by
  unfold State.stepLearn
  try dsimp only
  repeat' first | with_reducible first | assumption | (apply ite_kept <;> intro _) | simp only [mk_kept] | apply State.setSeat_kept | apply State.updStrEst_kept | (split <;> try dsimp only)

theorem State.staleClear_kept {cm cn ci : Bool} {s0 s : State} (n : Nat) (hk : Kept cm cn ci s0 s) : Kept cm cn ci s0 (State.staleClear s n) := by
  unfold State.staleClear
  try dsimp only
  repeat' first | with_reducible first | assumption | (apply ite_kept <;> intro _) | simp only [mk_kept] | apply State.setSeat_kept | apply State.logS_kept | (split <;> try dsimp only)

theorem State.stepsCatch_kept {cm cn ci : Bool} {s0 s : State} (hk : Kept cm cn ci s0 s) : Kept cm cn ci s0 (State.stepsCatch s) := by
  unfold State.stepsCatch
  try dsimp only
  repeat' first | with_reducible first | assumption | (apply ite_kept <;> intro _) | simp only [mk_kept] | apply State.stepLearn_kept | apply State.setEst_kept | apply State.staleClear_kept | (with_reducible refine foldl_kept _ _ (fun _ _ _ => ?_) ?_ <;> try dsimp only) | (split <;> try dsimp only)

theorem State.kbatCount_kept {cm cn ci : Bool} {s0 s : State} (hk : Kept cm cn ci s0 s) : Kept cm cn ci s0 (State.kbatCount s) := by
  unfold State.kbatCount
  try dsimp only
  repeat' first | with_reducible first | assumption | (apply ite_kept <;> intro _) | simp only [mk_kept] | apply State.setKpa_kept | (split <;> try dsimp only)

theorem State.resyncSeat_kept {cm cn ci : Bool} {s0 s : State} (i : Nat) (n : Nat) (hk : Kept cm cn ci s0 s) : Kept cm cn ci s0 (State.resyncSeat s i n).1 := by
  unfold State.resyncSeat
  try dsimp only
  repeat' first | with_reducible first | assumption | (apply ite_kept <;> intro _) | simp only [mk_kept] | apply State.setSeat_kept | apply State.logS_kept | apply State.staleClear_kept | (with_reducible refine foldl_kept _ _ (fun _ _ _ => ?_) ?_ <;> try dsimp only) | (split <;> try dsimp only)

theorem State.restFinish_kept {cm cn ci : Bool} {s0 s : State} (i : Nat) (hk : Kept cm cn ci s0 s) : Kept cm cn ci s0 (State.restFinish s i) := by
  unfold State.restFinish
  split
  · exact hk
  · split
    · exact hk
    · have h1 := foldl_pair_kept (fun (a : State × Nat) k => ((a.1.resyncSeat i k).1, a.2 + (a.1.resyncSeat i k).2)) (s.strSeats i) (s, 0)
        (fun q x h => State.resyncSeat_kept _ _ h) hk
      dsimp only
      split
      · exact State.logS_kept _ _ (State.updStrEst_kept _ _ h1)
      · exact h1

theorem State.warnFinish_kept {cm cn ci : Bool} {s0 s : State} (hk : Kept cm cn ci s0 s) : Kept cm cn ci s0 (State.warnFinish s) := by
  unfold State.warnFinish
  try dsimp only
  repeat' first | with_reducible first | assumption | (apply ite_kept <;> intro _) | simp only [mk_kept] | apply State.setEst_kept | apply State.setEvpAll_kept | apply State.logS_kept | apply State.noticeAll_kept | (split <;> try dsimp only)

theorem State.limitsFinish_kept {cm cn ci : Bool} {s0 s : State} (hk : Kept cm cn ci s0 s) : Kept cm cn ci s0 (State.limitsFinish s) := by
  unfold State.limitsFinish
  try dsimp only
  repeat' first | with_reducible first | assumption | (apply ite_kept <;> intro _) | simp only [mk_kept] | apply State.setEst_kept | (split <;> try dsimp only)

theorem State.writeSurge_kept {cn ci : Bool} {s0 s : State} (k : Nat) (result : Nat) (ref : Nat) (ticket : Nat) (power : Int) (expiry : Nat) (offP : Int) (offT : Nat) (stroke : Nat) (hk : Kept true cn ci s0 s) : Kept true cn ci s0 (State.writeSurge s k result ref ticket power expiry offP offT stroke) := by
  unfold State.writeSurge
  try dsimp only
  repeat' first | with_reducible first | assumption | (apply ite_kept <;> intro _) | simp only [mk_kept] | apply State.wrBytes_kept | apply State.st_kept | apply State.setEvp_kept | (split <;> try dsimp only)

theorem State.ticketNotice_kept {cn ci : Bool} {s0 s : State} (t : Ticket) (notice : Nat) (cause : Nat) (expiry : Nat) (hk : Kept true cn ci s0 s) : Kept true cn ci s0 (State.ticketNotice s t notice cause expiry) := by
  unfold State.ticketNotice
  try dsimp only
  repeat' first | with_reducible first | assumption | (apply ite_kept <;> intro _) | simp only [mk_kept] | apply State.logS_kept | apply State.logIn_kept | apply State.wrBytes_kept | apply State.st_kept | apply State.setEvp_kept | apply State.notice_kept | (split <;> try dsimp only)

theorem State.endTicket_kept {cn ci : Bool} {s0 s : State} (notice : Nat) (cause : Nat) (hk : Kept true cn ci s0 s) : Kept true cn ci s0 (State.endTicket s notice cause) := by
  unfold State.endTicket
  try dsimp only
  repeat' first | with_reducible first | assumption | (apply ite_kept <;> intro _) | simp only [mk_kept] | apply State.setEst_kept | apply State.ticketNotice_kept | (split <;> try dsimp only)

theorem State.placeSurge_kept {cm cn ci : Bool} {s0 s : State} (q : SurgeReq) (hk : Kept cm cn ci s0 s) : Kept cm cn ci s0 (State.placeSurge s q) := by
  unfold State.placeSurge
  try dsimp only
  repeat' first | with_reducible first | assumption | (apply ite_kept <;> intro _) | simp only [mk_kept] | apply State.setEst_kept | (split <;> try dsimp only)

theorem State.surgeOne_kept {cn ci : Bool} {s0 s : State} (q : SurgeReq) (hk : Kept true cn ci s0 s) : Kept true cn ci s0 (State.surgeOne s q) := by
  unfold State.surgeOne
  try dsimp only
  repeat' first | with_reducible first | assumption | (apply ite_kept <;> intro _) | simp only [mk_kept] | apply State.setEst_kept | apply State.logS_kept | apply State.logIn_kept | apply State.writeSurge_kept | apply State.endTicket_kept | (split <;> try dsimp only)

theorem State.surgeResolve_kept {cn ci : Bool} {s0 s : State} (hk : Kept true cn ci s0 s) : Kept true cn ci s0 (State.surgeResolve s) := by
  unfold State.surgeResolve
  try dsimp only
  repeat' first | with_reducible first | assumption | (apply ite_kept <;> intro _) | simp only [mk_kept] | apply State.surgeOne_kept | apply State.setEst_kept | (with_reducible refine foldl_kept _ _ (fun _ _ _ => ?_) ?_ <;> try dsimp only) | (split <;> try dsimp only)

theorem State.ticketFinish_kept {cn ci : Bool} {s0 s : State} (hk : Kept true cn ci s0 s) : Kept true cn ci s0 (State.ticketFinish s) := by
  unfold State.ticketFinish
  try dsimp only
  repeat' first | with_reducible first | assumption | (apply ite_kept <;> intro _) | simp only [mk_kept] | apply State.endTicket_kept | apply State.limitsFinish_kept | apply State.setEst_kept | apply State.ticketNotice_kept | (split <;> try dsimp only)

theorem State.ticketWatch_kept {cn ci : Bool} {s0 s : State} (hk : Kept true cn ci s0 s) : Kept true cn ci s0 (State.ticketWatch s) := by
  unfold State.ticketWatch
  try dsimp only
  repeat' first | with_reducible first | assumption | (apply ite_kept <;> intro _) | simp only [mk_kept] | apply State.setEst_kept | apply State.ticketNotice_kept | (split <;> try dsimp only)

theorem State.estWatch_kept {cn ci : Bool} {s0 s : State} (hk : Kept true cn ci s0 s) : Kept true cn ci s0 (State.estWatch s) := by
  unfold State.estWatch
  try dsimp only
  repeat' first | with_reducible first | assumption | (apply ite_kept <;> intro _) | simp only [mk_kept] | apply State.updStrEst_kept | apply State.logS_kept | apply State.ticketWatch_kept | (with_reducible refine foldl_kept _ _ (fun _ _ _ => ?_) ?_ <;> try dsimp only) | (split <;> try dsimp only)

theorem doSurgeDoorbell_kept {cm cn ci : Bool} {s0 s : State} (k : Nat) (value : Word) (us : Nat) (hk : Kept cm cn ci s0 s) : Kept cm cn ci s0 (doSurgeDoorbell s k value us) := by
  unfold doSurgeDoorbell
  try dsimp only
  repeat' first | with_reducible first | assumption | (apply ite_kept <;> intro _) | simp only [mk_kept] | apply State.atUs_kept | apply State.placeSurge_kept | (split <;> try dsimp only)

theorem doTicketExpire_kept {cn ci : Bool} {s0 s : State} (hk : Kept true cn ci s0 s) : Kept true cn ci s0 (doTicketExpire s) := by
  unfold doTicketExpire
  try dsimp only
  repeat' first | with_reducible first | assumption | (apply ite_kept <;> intro _) | simp only [mk_kept] | apply State.endTicket_kept | (split <;> try dsimp only)

theorem State.restoreSeat_kept {cm cn ci : Bool} {s0 s : State} (l : List Byte) (n : Nat) (hk : Kept cm cn ci s0 s) : Kept cm cn ci s0 (State.restoreSeat s l n) := by
  unfold State.restoreSeat
  try dsimp only
  repeat' first | with_reducible first | assumption | (apply ite_kept <;> intro _) | simp only [mk_kept] | apply State.fillCells_kept | apply State.setSeat_kept | apply State.updSeat_kept | apply State.logS_kept | (split <;> try dsimp only)

theorem State.restoreSoc_kept {cm cn ci : Bool} {s0 s : State} (same : Bool) (dq : Int) (l : List Byte) (n : Nat) (hk : Kept cm cn ci s0 s) : Kept cm cn ci s0 (State.restoreSoc s same dq l n) := by
  unfold State.restoreSoc
  try dsimp only
  repeat' first | with_reducible first | assumption | (apply ite_kept <;> intro _) | simp only [mk_kept] | apply State.updSeat_kept | (with_reducible refine foldl_kept _ _ (fun _ _ _ => ?_) ?_ <;> try dsimp only) | (split <;> try dsimp only)

theorem State.restoreCatch_kept {cm cn ci : Bool} {s0 s : State} (hk : Kept cm cn ci s0 s) : Kept cm cn ci s0 (State.restoreCatch s) := by
  unfold State.restoreCatch
  try dsimp only
  repeat' first | with_reducible first | assumption | (apply ite_kept <;> intro _) | simp only [mk_kept] | apply State.restoreSeat_kept | apply State.restoreSoc_kept | apply State.setKpa_kept | apply State.logS_kept | apply State.setEst_kept | (with_reducible refine foldl_kept _ _ (fun _ _ _ => ?_) ?_ <;> try dsimp only) | (split <;> try dsimp only)

theorem State.idleCatch_kept {cm cn ci : Bool} {s0 s : State} (hk : Kept cm cn ci s0 s) : Kept cm cn ci s0 (State.idleCatch s) := by
  unfold State.idleCatch
  try dsimp only
  repeat' first | with_reducible first | assumption | (apply ite_kept <;> intro _) | simp only [mk_kept] | apply State.setEst_kept | (split <;> try dsimp only)

theorem State.hibPending_kept {cm cn ci : Bool} {s0 s : State} (hk : Kept cm cn ci s0 s) : Kept cm cn ci s0 (State.hibPending s) := by
  unfold State.hibPending
  try dsimp only
  repeat' first | with_reducible first | assumption | (apply ite_kept <;> intro _) | simp only [mk_kept] | apply State.setEst_kept | apply State.logS_kept | apply State.setEvpAll_kept | apply State.noticeAll_kept | (split <;> try dsimp only)

theorem State.hibCancel_kept {cm cn ci : Bool} {s0 s : State} (hk : Kept cm cn ci s0 s) : Kept cm cn ci s0 (State.hibCancel s) := by
  unfold State.hibCancel
  try dsimp only
  repeat' first | with_reducible first | assumption | (apply ite_kept <;> intro _) | simp only [mk_kept] | apply State.setEst_kept | apply State.logS_kept | apply State.noticeAll_kept | (split <;> try dsimp only)

theorem doHibernateIdle_kept {cm cn ci : Bool} {s0 s : State} (hk : Kept cm cn ci s0 s) : Kept cm cn ci s0 (doHibernateIdle s) := by
  unfold doHibernateIdle
  try dsimp only
  repeat' first | with_reducible first | assumption | (apply ite_kept <;> intro _) | simp only [mk_kept] | apply State.hibPending_kept | (split <;> try dsimp only)

theorem doConsoleWake_kept {s0 s : State} (port : Nat) (hk : Kept true true true s0 s) : Kept true true true s0 (doConsoleWake s port) := by
  unfold doConsoleWake
  try dsimp only
  repeat' first | with_reducible first | assumption | (apply ite_kept <;> intro _) | simp only [mk_kept, mk_kept_nv, mk_kept_force, mk_kept_both] | apply State.wake_kept | (split <;> try dsimp only)

theorem State.setImd_kept {cm cn ci : Bool} {s0 s : State} (x : ImdSt) (hk : Kept cm cn ci s0 s) : Kept cm cn ci s0 (State.setImd s x) := by
  unfold State.setImd
  try dsimp only
  repeat' first | with_reducible first | assumption | (apply ite_kept <;> intro _) | simp only [mk_kept] | (split <;> try dsimp only)

theorem State.setImdFlag_kept {cm cn ci : Bool} {s0 s : State} (b : Nat) (v : Bool) (hk : Kept cm cn ci s0 s) : Kept cm cn ci s0 (State.setImdFlag s b v) := by
  unfold State.setImdFlag
  try dsimp only
  repeat' first | with_reducible first | assumption | (apply ite_kept <;> intro _) | simp only [mk_kept] | apply State.setBit_kept | (split <;> try dsimp only)

theorem State.imdSwitches_kept {cm cn ci : Bool} {s0 s : State} (p : Bool) (n : Bool) (kin : Bool) (hk : Kept cm cn ci s0 s) : Kept cm cn ci s0 (State.imdSwitches s p n kin) := by
  unfold State.imdSwitches
  try dsimp only
  repeat' first | with_reducible first | assumption | (apply ite_kept <;> intro _) | simp only [mk_kept] | apply State.setBit_kept | (split <;> try dsimp only)

theorem State.catchImd_kept {cm cn ci : Bool} {s0 s : State} (hk : Kept cm cn ci s0 s) : Kept cm cn ci s0 (State.catchImd s) := by
  unfold State.catchImd
  try dsimp only
  repeat' first | with_reducible first | assumption | (apply ite_kept <;> intro _) | simp only [mk_kept] | apply State.setBit_kept | (split <;> try dsimp only)

theorem State.kinRelease_kept {cm cn ci : Bool} {s0 s : State} (hk : Kept cm cn ci s0 s) : Kept cm cn ci s0 (State.kinRelease s) := by
  unfold State.kinRelease
  try dsimp only
  repeat' first | with_reducible first | assumption | (apply ite_kept <;> intro _) | simp only [mk_kept] | apply State.kinHold_kept | (split <;> try dsimp only)

theorem State.startPeriod_kept {cm cn ci : Bool} {s0 s : State} (hk : Kept cm cn ci s0 s) : Kept cm cn ci s0 (State.startPeriod s) := by
  unfold State.startPeriod
  try dsimp only
  repeat' first | with_reducible first | assumption | (apply ite_kept <;> intro _) | simp only [mk_kept] | apply State.setImd_kept | apply State.imdSwitches_kept | apply State.setBit_kept | (split <;> try dsimp only)

theorem State.imdJudge_kept {cm cn ci : Bool} {s0 s : State} (rp : Nat) (rn : Nat) (hk : Kept cm cn ci s0 s) : Kept cm cn ci s0 (State.imdJudge s rp rn) := by
  unfold State.imdJudge
  try dsimp only
  repeat' first | with_reducible first | assumption | (apply ite_kept <;> intro _) | simp only [mk_kept] | apply State.setImdFlag_kept | apply State.logS_kept | apply State.setImd_kept | apply State.protectOpen_kept | (split <;> try dsimp only)

theorem State.imdIncluded_kept {cm cn ci : Bool} {s0 s : State} (gp : Rat) (gn : Rat) (hk : Kept cm cn ci s0 s) : Kept cm cn ci s0 (State.imdIncluded s gp gn) := by
  unfold State.imdIncluded
  try dsimp only
  repeat' first | with_reducible first | assumption | (apply ite_kept <;> intro _) | simp only [mk_kept] | apply State.setImd_kept | apply State.wrN_kept | apply State.setImdFlag_kept | apply State.imdJudge_kept | (split <;> try dsimp only)

theorem State.imdExcluded_kept {cm cn ci : Bool} {s0 s : State} (gn : Rat) (hk : Kept cm cn ci s0 s) : Kept cm cn ci s0 (State.imdExcluded s gn) := by
  unfold State.imdExcluded
  try dsimp only
  repeat' first | with_reducible first | assumption | (apply ite_kept <;> intro _) | simp only [mk_kept] | apply State.setImd_kept | apply State.wrN_kept | apply State.setImdFlag_kept | apply State.logS_kept | (split <;> try dsimp only)

theorem State.postponeExcl_kept {cm cn ci : Bool} {s0 s : State} (hk : Kept cm cn ci s0 s) : Kept cm cn ci s0 (State.postponeExcl s) := by
  unfold State.postponeExcl
  try dsimp only
  repeat' first | with_reducible first | assumption | (apply ite_kept <;> intro _) | simp only [mk_kept] | apply State.setImd_kept | apply State.logS_kept | (split <;> try dsimp only)

theorem State.excludeNext_kept {cm cn ci : Bool} {s0 s : State} (hk : Kept cm cn ci s0 s) : Kept cm cn ci s0 (State.excludeNext s) := by
  unfold State.excludeNext
  try dsimp only
  repeat' first | with_reducible first | assumption | (apply ite_kept <;> intro _) | simp only [mk_kept] | apply State.setImd_kept | apply State.postponeExcl_kept | (split <;> try dsimp only)

theorem doImdHalfEnd_kept {cm cn ci : Bool} {s0 s : State} (v1 : Nat) (v1a : Nat) (v1b : Nat) (u1 : Nat) (hk : Kept cm cn ci s0 s) : Kept cm cn ci s0 (doImdHalfEnd s v1 v1a v1b u1) := by
  unfold doImdHalfEnd
  try dsimp only
  repeat' first | with_reducible first | assumption | (apply ite_kept <;> intro _) | simp only [mk_kept] | apply State.setImd_kept | apply State.imdSwitches_kept | (split <;> try dsimp only)

theorem doImdPeriodEnd_kept {cm cn ci : Bool} {s0 s : State} (v2 : Nat) (v2a : Nat) (v2b : Nat) (u2 : Nat) (hk : Kept cm cn ci s0 s) : Kept cm cn ci s0 (doImdPeriodEnd s v2 v2a v2b u2) := by
  unfold doImdPeriodEnd
  try dsimp only
  repeat' first | with_reducible first | assumption | (apply ite_kept <;> intro _) | simp only [mk_kept] | apply State.setImd_kept | apply State.setImdFlag_kept | apply State.imdExcluded_kept | apply State.imdIncluded_kept | apply State.wrN_kept | apply State.logS_kept | apply State.excludeNext_kept | apply State.startPeriod_kept | (split <;> try dsimp only)

theorem doImdKinExclude_kept {cm cn ci : Bool} {s0 s : State} (hk : Kept cm cn ci s0 s) : Kept cm cn ci s0 (doImdKinExclude s) := by
  unfold doImdKinExclude
  try dsimp only
  repeat' first | with_reducible first | assumption | (apply ite_kept <;> intro _) | simp only [mk_kept] | apply State.setImd_kept | apply State.kinHold_kept | apply State.postponeExcl_kept | (split <;> try dsimp only)

theorem doKinStale_kept {cm cn ci : Bool} {s0 s : State} (hk : Kept cm cn ci s0 s) : Kept cm cn ci s0 (doKinStale s) := by
  unfold doKinStale
  try dsimp only
  repeat' first | with_reducible first | assumption | (apply ite_kept <;> intro _) | simp only [mk_kept] | apply State.setImd_kept | apply State.setImdFlag_kept | apply State.wrN_kept | (split <;> try dsimp only)

theorem doImdSwitchFault_kept {cm cn ci : Bool} {s0 s : State} (nSide : Bool) (hk : Kept cm cn ci s0 s) : Kept cm cn ci s0 (doImdSwitchFault s nSide) := by
  unfold doImdSwitchFault
  try dsimp only
  repeat' first | with_reducible first | assumption | (apply ite_kept <;> intro _) | simp only [mk_kept] | apply State.setBit_kept | apply State.setImdFlag_kept | apply State.setImd_kept | apply State.logKpa_kept | (split <;> try dsimp only)

theorem State.imdWatch_kept {cm cn ci : Bool} {s0 s : State} (hk : Kept cm cn ci s0 s) : Kept cm cn ci s0 (State.imdWatch s) := by
  unfold State.imdWatch
  try dsimp only
  repeat' first | with_reducible first | assumption | (apply ite_kept <;> intro _) | simp only [mk_kept] | apply State.setBit_kept | apply State.setImdFlag_kept | apply State.startPeriod_kept | (split <;> try dsimp only)

theorem State.clearImdAlarm_kept {cm cn ci : Bool} {s0 s : State} (hk : Kept cm cn ci s0 s) : Kept cm cn ci s0 (State.clearImdAlarm s) := by
  unfold State.clearImdAlarm
  try dsimp only
  repeat' first | with_reducible first | assumption | (apply ite_kept <;> intro _) | simp only [mk_kept] | apply State.setImd_kept | apply State.setImdFlag_kept | apply State.logS_kept | (split <;> try dsimp only)

theorem State.armReset_kept {cm cn ci : Bool} {s0 s : State} (cause : Nat) (hk : Kept cm cn ci s0 s) : Kept cm cn ci s0 (State.armReset s cause) := by
  unfold State.armReset
  try dsimp only
  repeat' first | with_reducible first | assumption | (apply ite_kept <;> intro _) | simp only [mk_kept] | (split <;> try dsimp only)

theorem State.retain_kept {cm cn ci : Bool} {s0 s : State} (cause : Nat) (groups : Nat) (pc : Nat) (memClass : Nat) (addr : Nat) (hk : Kept cm cn ci s0 s) : Kept cm cn ci s0 (State.retain s cause groups pc memClass addr) := by
  unfold State.retain
  try dsimp only
  repeat' first | with_reducible first | assumption | (apply ite_kept <;> intro _) | simp only [mk_kept] | apply State.wrN_kept | apply State.setFld_kept | (split <;> try dsimp only)

theorem doLockstepMismatch_kept {cm cn ci : Bool} {s0 s : State} (groups : Nat) (pc : Word) (hk : Kept cm cn ci s0 s) : Kept cm cn ci s0 (doLockstepMismatch s groups pc) := by
  unfold doLockstepMismatch
  try dsimp only
  repeat' first | with_reducible first | assumption | (apply ite_kept <;> intro _) | simp only [mk_kept] | apply State.setBit_kept | apply State.stopFeed_kept | apply State.retain_kept | apply State.armReset_kept | apply State.orReg_kept | (split <;> try dsimp only)

theorem doLockstepReset_kept {s0 s : State} (hk : Kept true true true s0 s) : Kept true true true s0 (doLockstepReset s) := by
  unfold doLockstepReset
  try dsimp only
  repeat' first | with_reducible first | assumption | (apply ite_kept <;> intro _) | simp only [mk_kept, mk_kept_nv, mk_kept_force, mk_kept_both] | apply State.assertReset_kept | (split <;> try dsimp only)

theorem State.writeBack_kept {cn ci : Bool} {s0 s : State} (m : EccMem) (a : Nat) (data : Nat) (hk : Kept true cn ci s0 s) : Kept true cn ci s0 (State.writeBack s m a data) := by
  unfold State.writeBack
  try dsimp only
  repeat' first | with_reducible first | assumption | (apply ite_kept <;> intro _) | simp only [mk_kept] | apply State.st_kept | (split <;> try dsimp only)

theorem doEccCorrected_kept {cn ci : Bool} {s0 s : State} (rq : Requester) (addr : Nat) (data : Nat) (check : Nat) (hk : Kept true cn ci s0 s) : Kept true cn ci s0 (doEccCorrected s rq addr data check) := by
  unfold doEccCorrected
  try dsimp only
  repeat' first | with_reducible first | assumption | (apply ite_kept <;> intro _) | simp only [mk_kept] | apply State.writeBack_kept | apply State.incSat_kept | apply State.wrN_kept | apply State.setBit_kept | apply State.logKpa_kept | (split <;> try dsimp only)

theorem doEccFatal_kept {cm cn ci : Bool} {s0 s : State} (addr : Nat) (data : Nat) (check : Nat) (pc : Word) (hk : Kept cm cn ci s0 s) : Kept cm cn ci s0 (doEccFatal s addr data check pc) := by
  unfold doEccFatal
  try dsimp only
  repeat' first | with_reducible first | assumption | (apply ite_kept <;> intro _) | simp only [mk_kept] | apply State.setBit_kept | apply State.stopFeed_kept | apply State.retain_kept | apply State.armReset_kept | (split <;> try dsimp only)

theorem doEccFatalReset_kept {s0 s : State} (hk : Kept true true true s0 s) : Kept true true true s0 (doEccFatalReset s) := by
  unfold doEccFatalReset
  try dsimp only
  repeat' first | with_reducible first | assumption | (apply ite_kept <;> intro _) | simp only [mk_kept, mk_kept_nv, mk_kept_force, mk_kept_both] | apply State.assertReset_kept | (split <;> try dsimp only)

theorem doEccCorrLimit_kept {ci : Bool} {s0 s : State} (hk : Kept true true ci s0 s) : Kept true true ci s0 (doEccCorrLimit s) := by
  unfold doEccCorrLimit
  try dsimp only
  repeat' first | with_reducible first | assumption | (apply ite_kept <;> intro _) | simp only [mk_kept, mk_kept_nv] | apply State.logKpa_kept | apply State.easy_kept | (split <;> try dsimp only)

theorem State.bootFault_kept {cm cn ci : Bool} {s0 s : State} (p : Phase) (hk : Kept cm cn ci s0 s) : Kept cm cn ci s0 (State.bootFault s p) := by
  unfold State.bootFault
  try dsimp only
  repeat' first | with_reducible first | assumption | (apply ite_kept <;> intro _) | simp only [mk_kept] | (split <;> try dsimp only)

theorem State.startTestFail_kept {cm cn ci : Bool} {s0 s : State} (n : Nat) (hk : Kept cm cn ci s0 s) : Kept cm cn ci s0 (State.startTestFail s n) := by
  unfold State.startTestFail
  try dsimp only
  repeat' first | with_reducible first | assumption | (apply ite_kept <;> intro _) | simp only [mk_kept] | apply State.setFld_kept | apply State.setBit_kept | apply State.bootFault_kept | (split <;> try dsimp only)

theorem doInjectDifference_kept {cm cn ci : Bool} {s0 s : State} (group : Nat) (det : Nat) (hk : Kept cm cn ci s0 s) : Kept cm cn ci s0 (doInjectDifference s group det) := by
  unfold doInjectDifference
  try dsimp only
  repeat' first | with_reducible first | assumption | (apply ite_kept <;> intro _) | simp only [mk_kept] | apply State.setBit_kept | apply State.stopFeed_kept | apply State.orReg_kept | (split <;> try dsimp only)

theorem State.clearInjection_kept {cm cn ci : Bool} {s0 s : State} (hk : Kept cm cn ci s0 s) : Kept cm cn ci s0 (State.clearInjection s) := by
  unfold State.clearInjection
  try dsimp only
  repeat' first | with_reducible first | assumption | (apply ite_kept <;> intro _) | simp only [mk_kept] | apply State.setFld_kept | apply State.setBit_kept | (split <;> try dsimp only)

theorem doInjectClear_kept {cm cn ci : Bool} {s0 s : State} (hk : Kept cm cn ci s0 s) : Kept cm cn ci s0 (doInjectClear s) := by
  unfold doInjectClear
  try dsimp only
  repeat' first | with_reducible first | assumption | (apply ite_kept <;> intro _) | simp only [mk_kept] | apply State.clearInjection_kept | apply State.startTestFail_kept | (split <;> try dsimp only)

theorem State.startTestEnd_kept {cm cn ci : Bool} {s0 s : State} (hk : Kept cm cn ci s0 s) : Kept cm cn ci s0 (State.startTestEnd s) := by
  unfold State.startTestEnd
  try dsimp only
  repeat' first | with_reducible first | assumption | (apply ite_kept <;> intro _) | simp only [mk_kept] | apply State.startTestFail_kept | apply State.setBit_kept | (split <;> try dsimp only)

theorem doCoxLock_kept {cm cn ci : Bool} {s0 s : State} (hk : Kept cm cn ci s0 s) : Kept cm cn ci s0 (doCoxLock s) := by
  unfold doCoxLock
  try dsimp only
  repeat' first | with_reducible first | assumption | (apply ite_kept <;> intro _) | simp only [mk_kept] | apply State.startTestEnd_kept | apply State.setBit_kept | (split <;> try dsimp only)

theorem doPermitArm_kept {cm cn ci : Bool} {s0 s : State} (hk : Kept cm cn ci s0 s) : Kept cm cn ci s0 (doPermitArm s) := by
  unfold doPermitArm
  try dsimp only
  repeat' first | with_reducible first | assumption | (apply ite_kept <;> intro _) | simp only [mk_kept] | apply State.setBit_kept | (split <;> try dsimp only)

theorem doMismatchAck_kept {cm cn ci : Bool} {s0 s : State} (hk : Kept cm cn ci s0 s) : Kept cm cn ci s0 (doMismatchAck s) := by
  unfold doMismatchAck
  try dsimp only
  repeat' first | with_reducible first | assumption | (apply ite_kept <;> intro _) | simp only [mk_kept] | (split <;> try dsimp only)

theorem doMismatchResetInhibit_kept {cm cn ci : Bool} {s0 s : State} (value : Bool) (hk : Kept cm cn ci s0 s) : Kept cm cn ci s0 (doMismatchResetInhibit s value) := by
  unfold doMismatchResetInhibit
  try dsimp only
  repeat' first | with_reducible first | assumption | (apply ite_kept <;> intro _) | simp only [mk_kept] | apply State.setBit_kept | (split <;> try dsimp only)

theorem State.scrub_kept {cm cn ci : Bool} {s0 s : State} (hk : Kept cm cn ci s0 s) : Kept cm cn ci s0 (State.scrub s) := by
  unfold State.scrub
  try dsimp only
  repeat' first | with_reducible first | assumption | (apply ite_kept <;> intro _) | simp only [mk_kept] | apply State.setFld_kept | (split <;> try dsimp only)

theorem doResetPin_kept {s0 s : State} (lowUs : Nat) (hk : Kept true true true s0 s) : Kept true true true s0 (doResetPin s lowUs) := by
  unfold doResetPin
  try dsimp only
  repeat' first | with_reducible first | assumption | (apply ite_kept <;> intro _) | simp only [mk_kept, mk_kept_nv, mk_kept_force, mk_kept_both] | apply State.assertReset_kept | apply State.free_kept | (split <;> try dsimp only) | grind [State.free_kept]

theorem doPorAssert_kept {s0 s : State} (hk : Kept true true true s0 s) : Kept true true true s0 (doPorAssert s) := by
  unfold doPorAssert
  try dsimp only
  repeat' first | with_reducible first | assumption | (apply ite_kept <;> intro _) | simp only [mk_kept, mk_kept_nv, mk_kept_force, mk_kept_both] | apply State.assertPor_kept | (split <;> try dsimp only)

theorem doPorRelease_kept {cm cn ci : Bool} {s0 s : State} (hk : Kept cm cn ci s0 s) : Kept cm cn ci s0 (doPorRelease s) := by
  unfold doPorRelease
  try dsimp only
  repeat' first | with_reducible first | assumption | (apply ite_kept <;> intro _) | simp only [mk_kept] | (split <;> try dsimp only)

theorem doSoftReset_kept {s0 s : State} (value : Word) (hk : Kept true true true s0 s) : Kept true true true s0 (doSoftReset s value) := by
  unfold doSoftReset
  try dsimp only
  repeat' first | with_reducible first | assumption | (apply ite_kept <;> intro _) | simp only [mk_kept, mk_kept_nv, mk_kept_force, mk_kept_both] | apply State.tallyCommit_kept | apply State.assertReset_kept | (split <;> try dsimp only)

theorem doResetAssert_kept {s0 s : State} (cause : ResetCause) (hk : Kept true true true s0 s) : Kept true true true s0 (doResetAssert s cause) := by
  unfold doResetAssert
  try dsimp only
  repeat' first | with_reducible first | assumption | (apply ite_kept <;> intro _) | simp only [mk_kept, mk_kept_nv, mk_kept_force, mk_kept_both] | apply State.assertPor_kept | apply State.assertReset_kept | (split <;> try dsimp only)

theorem doResetRelease_kept {cm cn ci : Bool} {s0 s : State} (hk : Kept cm cn ci s0 s) : Kept cm cn ci s0 (doResetRelease s) := by
  unfold doResetRelease
  try dsimp only
  repeat' first | with_reducible first | assumption | (apply ite_kept <;> intro _) | simp only [mk_kept] | (split <;> try dsimp only)

theorem doCrystalStartFail_kept {cm cn ci : Bool} {s0 s : State} (hk : Kept cm cn ci s0 s) : Kept cm cn ci s0 (doCrystalStartFail s) := by
  unfold doCrystalStartFail
  try dsimp only
  repeat' first | with_reducible first | assumption | (apply ite_kept <;> intro _) | simp only [mk_kept] | apply State.bootFault_kept | (split <;> try dsimp only)

theorem doStallReset_kept {s0 s : State} (hk : Kept true true true s0 s) : Kept true true true s0 (doStallReset s) := by
  unfold doStallReset
  try dsimp only
  repeat' first | with_reducible first | assumption | (apply ite_kept <;> intro _) | simp only [mk_kept, mk_kept_nv, mk_kept_force, mk_kept_both] | apply State.assertReset_kept | (split <;> try dsimp only)

theorem doBootTimerExpire_kept {s0 s : State} (hk : Kept true true true s0 s) : Kept true true true s0 (doBootTimerExpire s) := by
  unfold doBootTimerExpire
  try dsimp only
  repeat' first | with_reducible first | assumption | (apply ite_kept <;> intro _) | simp only [mk_kept, mk_kept_nv, mk_kept_force, mk_kept_both] | apply State.assertReset_kept | (split <;> try dsimp only)

theorem doBootHold_kept {cm cn ci : Bool} {s0 s : State} (hk : Kept cm cn ci s0 s) : Kept cm cn ci s0 (doBootHold s) := by
  unfold doBootHold
  try dsimp only
  repeat' first | with_reducible first | assumption | (apply ite_kept <;> intro _) | simp only [mk_kept] | (split <;> try dsimp only)

theorem doClockLoss_kept {s0 s : State} (hk : Kept true true true s0 s) : Kept true true true s0 (doClockLoss s) := by
  unfold doClockLoss
  try dsimp only
  repeat' first | with_reducible first | assumption | (apply ite_kept <;> intro _) | simp only [mk_kept, mk_kept_nv, mk_kept_force, mk_kept_both] | apply State.stopFeed_kept | apply State.assertReset_kept | (split <;> try dsimp only)

theorem doX32Loss_kept {cm cn ci : Bool} {s0 s : State} (hk : Kept cm cn ci s0 s) : Kept cm cn ci s0 (doX32Loss s) := by
  unfold doX32Loss
  try dsimp only
  repeat' first | with_reducible first | assumption | (apply ite_kept <;> intro _) | simp only [mk_kept] | apply State.setBit_kept | apply State.logKpa_kept | (split <;> try dsimp only)

theorem doCurrentWake_kept {s0 s : State} (hk : Kept true true true s0 s) : Kept true true true s0 (doCurrentWake s) := by
  unfold doCurrentWake
  try dsimp only
  repeat' first | with_reducible first | assumption | (apply ite_kept <;> intro _) | simp only [mk_kept, mk_kept_nv, mk_kept_force, mk_kept_both] | apply State.wake_kept | (split <;> try dsimp only)

theorem State.setCan_kept {cm cn ci : Bool} {s0 s : State} (x : Nat) (c : CanSt) (hk : Kept cm cn ci s0 s) : Kept cm cn ci s0 (State.setCan s x c) := by
  unfold State.setCan
  try dsimp only
  repeat' first | with_reducible first | assumption | (apply ite_kept <;> intro _) | simp only [mk_kept] | (split <;> try dsimp only)

theorem State.toFifo_kept {cm cn ci : Bool} {s0 s : State} (x : Nat) (o : CanObj) (hk : Kept cm cn ci s0 s) : Kept cm cn ci s0 (State.toFifo s x o) := by
  unfold State.toFifo
  try dsimp only
  repeat' first | with_reducible first | assumption | (apply ite_kept <;> intro _) | simp only [mk_kept] | apply State.setCan_kept | apply State.incSat_kept | apply State.setBit_kept | apply State.setFld_kept | (split <;> try dsimp only)

theorem State.toObject_kept {cm cn ci : Bool} {s0 s : State} (x : Nat) (i : Nat) (o : CanObj) (hk : Kept cm cn ci s0 s) : Kept cm cn ci s0 (State.toObject s x i o) := by
  unfold State.toObject
  try dsimp only
  repeat' first | with_reducible first | assumption | (apply ite_kept <;> intro _) | simp only [mk_kept] | apply State.setCan_kept | apply State.setBit_kept | apply State.setEvp_kept | (split <;> try dsimp only)

theorem State.canStore_kept {cm cn ci : Bool} {s0 s : State} (n : Nat) (o : CanObj) (hk : Kept cm cn ci s0 s) : Kept cm cn ci s0 (State.canStore s n o) := by
  unfold State.canStore
  try dsimp only
  repeat' first | with_reducible first | assumption | (apply ite_kept <;> intro _) | simp only [mk_kept] | apply State.toObject_kept | apply State.toFifo_kept | (split <;> try dsimp only)

theorem doCanFrameReceived_kept {cm cn ci : Bool} {s0 s : State} (x : CanId) (f : CanFrame) (us : Nat) (hk : Kept cm cn ci s0 s) : Kept cm cn ci s0 (doCanFrameReceived s x f us) := by
  unfold doCanFrameReceived
  try dsimp only
  repeat' first | with_reducible first | assumption | (apply ite_kept <;> intro _) | simp only [mk_kept] | apply State.atUs_kept | apply State.canStore_kept | (split <;> try dsimp only)

theorem State.loadBuf_kept {cm cn ci : Bool} {s0 s : State} (rq : Requester) (x : Nat) (o : CanObj) (hk : Kept cm cn ci s0 s) : Kept cm cn ci s0 (State.loadBuf s rq x o) := by
  unfold State.loadBuf
  try dsimp only
  repeat' first | with_reducible first | assumption | (apply ite_kept <;> intro _) | simp only [mk_kept] | apply State.wrN_kept | (with_reducible refine foldl_kept _ _ (fun _ _ _ => ?_) ?_ <;> try dsimp only) | (split <;> try dsimp only)

theorem doWindowSelect_kept {cm cn ci : Bool} {s0 s : State} (rq : Requester) (x : CanId) (value : Word) (hk : Kept cm cn ci s0 s) : Kept cm cn ci s0 (doWindowSelect s rq x value) := by
  unfold doWindowSelect
  try dsimp only
  repeat' first | with_reducible first | assumption | (apply ite_kept <;> intro _) | simp only [mk_kept] | apply State.wr_kept | apply State.loadBuf_kept | apply State.setBit_kept | apply State.setCan_kept | apply State.setFld_kept | (split <;> try dsimp only)

theorem doWindowCommit_kept {cm cn ci : Bool} {s0 s : State} (rq : Requester) (x : CanId) (hk : Kept cm cn ci s0 s) : Kept cm cn ci s0 (doWindowCommit s rq x) := by
  unfold doWindowCommit
  try dsimp only
  repeat' first | with_reducible first | assumption | (apply ite_kept <;> intro _) | simp only [mk_kept] | apply State.setCan_kept | (split <;> try dsimp only)

theorem State.txEnd_kept {cm cn ci : Bool} {s0 s : State} (x : Nat) (o : Nat) (result : Nat) (hk : Kept cm cn ci s0 s) : Kept cm cn ci s0 (State.txEnd s x o result) := by
  unfold State.txEnd
  try dsimp only
  repeat' first | with_reducible first | assumption | (apply ite_kept <;> intro _) | simp only [mk_kept] | apply State.setBit_kept | apply State.setFld_kept | apply State.setCan_kept | (split <;> try dsimp only)

theorem State.txRequestOne_kept {cm cn ci : Bool} {s0 s : State} (x : Nat) (o : Nat) (hk : Kept cm cn ci s0 s) : Kept cm cn ci s0 (State.txRequestOne s x o) := by
  unfold State.txRequestOne
  try dsimp only
  repeat' first | with_reducible first | assumption | (apply ite_kept <;> intro _) | simp only [mk_kept] | apply State.setCan_kept | apply State.setBit_kept | apply State.wrN_kept | (split <;> try dsimp only)

theorem State.txRequest_kept {cm cn ci : Bool} {s0 s : State} (x : Nat) (mask : Nat) (hk : Kept cm cn ci s0 s) : Kept cm cn ci s0 (State.txRequest s x mask) := by
  unfold State.txRequest
  try dsimp only
  repeat' first | with_reducible first | assumption | (apply ite_kept <;> intro _) | simp only [mk_kept] | apply State.txRequestOne_kept | (with_reducible refine foldl_kept _ _ (fun _ _ _ => ?_) ?_ <;> try dsimp only) | (split <;> try dsimp only)

theorem doTxRequest_kept {cm cn ci : Bool} {s0 s : State} (rq : Requester) (x : CanId) (mask : Word) (us : Nat) (hk : Kept cm cn ci s0 s) : Kept cm cn ci s0 (doTxRequest s rq x mask us) := by
  unfold doTxRequest
  try dsimp only
  repeat' first | with_reducible first | assumption | (apply ite_kept <;> intro _) | simp only [mk_kept] | apply State.atUs_kept | apply State.txRequest_kept | (split <;> try dsimp only)

theorem State.txAbortOne_kept {cm cn ci : Bool} {s0 s : State} (x : Nat) (o : Nat) (hk : Kept cm cn ci s0 s) : Kept cm cn ci s0 (State.txAbortOne s x o) := by
  unfold State.txAbortOne
  try dsimp only
  repeat' first | with_reducible first | assumption | (apply ite_kept <;> intro _) | simp only [mk_kept] | apply State.setCan_kept | apply State.txEnd_kept | (split <;> try dsimp only)

theorem State.txAbort_kept {cm cn ci : Bool} {s0 s : State} (x : Nat) (mask : Nat) (hk : Kept cm cn ci s0 s) : Kept cm cn ci s0 (State.txAbort s x mask) := by
  unfold State.txAbort
  try dsimp only
  repeat' first | with_reducible first | assumption | (apply ite_kept <;> intro _) | simp only [mk_kept] | apply State.txAbortOne_kept | (with_reducible refine foldl_kept _ _ (fun _ _ _ => ?_) ?_ <;> try dsimp only) | (split <;> try dsimp only)

theorem doTxAbort_kept {cm cn ci : Bool} {s0 s : State} (rq : Requester) (x : CanId) (mask : Word) (hk : Kept cm cn ci s0 s) : Kept cm cn ci s0 (doTxAbort s rq x mask) := by
  unfold doTxAbort
  try dsimp only
  repeat' first | with_reducible first | assumption | (apply ite_kept <;> intro _) | simp only [mk_kept] | apply State.txAbort_kept | (split <;> try dsimp only)

theorem doTxAttempt_kept {cm cn ci : Bool} {s0 s : State} (x : CanId) (obj : Nat) (us : Nat) (hk : Kept cm cn ci s0 s) : Kept cm cn ci s0 (doTxAttempt s x obj us) := by
  unfold doTxAttempt
  try dsimp only
  repeat' first | with_reducible first | assumption | (apply ite_kept <;> intro _) | simp only [mk_kept] | apply State.atUs_kept | apply State.setCan_kept | apply State.setBit_kept | apply State.setFld_kept | (split <;> try dsimp only)

theorem State.windowClosed_kept {cm cn ci : Bool} {s0 s : State} (x : Nat) (o : Nat) (result : Nat) (hk : Kept cm cn ci s0 s) : Kept cm cn ci s0 (State.windowClosed s x o result) := by
  unfold State.windowClosed
  try dsimp only
  repeat' first | with_reducible first | assumption | (apply ite_kept <;> intro _) | simp only [mk_kept] | apply State.txEnd_kept | (split <;> try dsimp only)

theorem State.attemptEnd_kept {cm cn ci : Bool} {s0 s : State} (x : CanId) (ok : Bool) (lostArb : Bool) (hk : Kept cm cn ci s0 s) : Kept cm cn ci s0 (State.attemptEnd s x ok lostArb) := by
  unfold State.attemptEnd
  try dsimp only
  repeat' first | with_reducible first | assumption | (apply ite_kept <;> intro _) | simp only [mk_kept] | apply State.setCan_kept | apply State.setBit_kept | apply State.txEnd_kept | apply State.canStore_kept | apply State.incSat_kept | apply State.windowClosed_kept | (split <;> try dsimp only)

theorem doTxAttemptEnd_kept {cm cn ci : Bool} {s0 s : State} (x : CanId) (ok : Bool) (lostArb : Bool) (lec : Nat) (hk : Kept cm cn ci s0 s) : Kept cm cn ci s0 (doTxAttemptEnd s x ok lostArb lec) := by
  unfold doTxAttemptEnd
  try dsimp only
  repeat' first | with_reducible first | assumption | (apply ite_kept <;> intro _) | simp only [mk_kept] | apply State.setFld_kept | apply State.attemptEnd_kept | (split <;> try dsimp only)

theorem doTxLimitReached_kept {cm cn ci : Bool} {s0 s : State} (x : CanId) (obj : Nat) (byDeadline : Bool) (hk : Kept cm cn ci s0 s) : Kept cm cn ci s0 (doTxLimitReached s x obj byDeadline) := by
  unfold doTxLimitReached
  try dsimp only
  repeat' first | with_reducible first | assumption | (apply ite_kept <;> intro _) | simp only [mk_kept] | apply State.txEnd_kept | apply State.windowClosed_kept | (split <;> try dsimp only)

theorem State.busOff_kept {cm cn ci : Bool} {s0 s : State} (x : CanId) (hk : Kept cm cn ci s0 s) : Kept cm cn ci s0 (State.busOff s x) := by
  unfold State.busOff
  try dsimp only
  repeat' first | with_reducible first | assumption | (apply ite_kept <;> intro _) | simp only [mk_kept] | apply State.attemptEnd_kept | apply State.setBit_kept | apply State.logKpa_kept | (split <;> try dsimp only)

theorem State.errState_kept {cm cn ci : Bool} {s0 s : State} (x : CanId) (err : Nat) (tec : Nat) (rec : Nat) (hk : Kept cm cn ci s0 s) : Kept cm cn ci s0 (State.errState s x err tec rec) := by
  unfold State.errState
  try dsimp only
  repeat' first | with_reducible first | assumption | (apply ite_kept <;> intro _) | simp only [mk_kept] | apply State.setFld_kept | apply State.setBit_kept | apply State.logKpa_kept | apply State.busOff_kept | (split <;> try dsimp only)

theorem doCanErrorState_kept {cm cn ci : Bool} {s0 s : State} (x : CanId) (err : Nat) (tec : Nat) (rec : Nat) (lec : Nat) (dlec : Nat) (hk : Kept cm cn ci s0 s) : Kept cm cn ci s0 (doCanErrorState s x err tec rec lec dlec) := by
  unfold doCanErrorState
  try dsimp only
  repeat' first | with_reducible first | assumption | (apply ite_kept <;> intro _) | simp only [mk_kept] | apply State.setFld_kept | apply State.errState_kept | (split <;> try dsimp only)

theorem doCanBusOff_kept {cm cn ci : Bool} {s0 s : State} (x : CanId) (hk : Kept cm cn ci s0 s) : Kept cm cn ci s0 (doCanBusOff s x) := by
  unfold doCanBusOff
  try dsimp only
  repeat' first | with_reducible first | assumption | (apply ite_kept <;> intro _) | simp only [mk_kept] | apply State.errState_kept | (split <;> try dsimp only)

theorem doBusoffHoldEnd_kept {cm cn ci : Bool} {s0 s : State} (x : CanId) (hk : Kept cm cn ci s0 s) : Kept cm cn ci s0 (doBusoffHoldEnd s x) := by
  unfold doBusoffHoldEnd
  try dsimp only
  repeat' first | with_reducible first | assumption | (apply ite_kept <;> intro _) | simp only [mk_kept] | apply State.setBit_kept | (split <;> try dsimp only)

theorem doBusoffRecovered_kept {cm cn ci : Bool} {s0 s : State} (x : CanId) (ms : Nat) (hk : Kept cm cn ci s0 s) : Kept cm cn ci s0 (doBusoffRecovered s x ms) := by
  unfold doBusoffRecovered
  try dsimp only
  repeat' first | with_reducible first | assumption | (apply ite_kept <;> intro _) | simp only [mk_kept] | apply State.errState_kept | apply State.logKpa_kept | apply State.setBit_kept | (split <;> try dsimp only)

theorem doCanWake_kept {s0 s : State} (ball : CanWakeBall) (hk : Kept true true true s0 s) : Kept true true true s0 (doCanWake s ball) := by
  unfold doCanWake
  try dsimp only
  repeat' first | with_reducible first | assumption | (apply ite_kept <;> intro _) | simp only [mk_kept, mk_kept_nv, mk_kept_force, mk_kept_both] | apply State.wake_kept | (split <;> try dsimp only)

theorem State.canWatch_kept {cm cn ci : Bool} {s0 s : State} (hk : Kept cm cn ci s0 s) : Kept cm cn ci s0 (State.canWatch s) := by
  unfold State.canWatch
  try dsimp only
  repeat' first | with_reducible first | assumption | (apply ite_kept <;> intro _) | simp only [mk_kept] | apply State.setCan_kept | apply State.logS_kept | (with_reducible refine foldl_kept _ _ (fun _ _ _ => ?_) ?_ <;> try dsimp only) | (split <;> try dsimp only)

theorem State.canCtrl_kept {cm cn ci : Bool} {s0 s : State} (x : Nat) (hk : Kept cm cn ci s0 s) : Kept cm cn ci s0 (State.canCtrl s x) := by
  unfold State.canCtrl
  try dsimp only
  repeat' first | with_reducible first | assumption | (apply ite_kept <;> intro _) | simp only [mk_kept] | apply State.setBit_kept | (split <;> try dsimp only)

theorem State.canCatch_kept {cm cn ci : Bool} {s0 s : State} (hk : Kept cm cn ci s0 s) : Kept cm cn ci s0 (State.canCatch s) := by
  unfold State.canCatch
  try dsimp only
  repeat' first | with_reducible first | assumption | (apply ite_kept <;> intro _) | simp only [mk_kept] | apply State.canCtrl_kept | apply State.setFld_kept | apply State.setBit_kept | (with_reducible refine foldl_kept _ _ (fun _ _ _ => ?_) ?_ <;> try dsimp only) | (split <;> try dsimp only)

theorem State.canDisable_kept {cm cn ci : Bool} {s0 s : State} (x : Nat) (mask : Nat) (hk : Kept cm cn ci s0 s) : Kept cm cn ci s0 (State.canDisable s x mask) := by
  unfold State.canDisable
  try dsimp only
  repeat' first | with_reducible first | assumption | (apply ite_kept <;> intro _) | simp only [mk_kept] | apply State.txAbort_kept | (split <;> try dsimp only)

theorem State.setQp_kept {cm cn ci : Bool} {s0 s : State} (q : QpSt) (hk : Kept cm cn ci s0 s) : Kept cm cn ci s0 (State.setQp s q) := by
  unfold State.setQp
  try dsimp only
  repeat' first | with_reducible first | assumption | (apply ite_kept <;> intro _) | simp only [mk_kept] | (split <;> try dsimp only)

theorem State.setQueue_kept {cm cn ci : Bool} {s0 s : State} (n : Nat) (l : List QEnt) (hk : Kept cm cn ci s0 s) : Kept cm cn ci s0 (State.setQueue s n l) := by
  unfold State.setQueue
  try dsimp only
  repeat' first | with_reducible first | assumption | (apply ite_kept <;> intro _) | simp only [mk_kept] | apply State.setQp_kept | apply State.setFld_kept | (split <;> try dsimp only)

theorem State.setQrx_kept {cm cn ci : Bool} {s0 s : State} (n : Nat) (l : List Nat) (hk : Kept cm cn ci s0 s) : Kept cm cn ci s0 (State.setQrx s n l) := by
  unfold State.setQrx
  try dsimp only
  repeat' first | with_reducible first | assumption | (apply ite_kept <;> intro _) | simp only [mk_kept] | apply State.setQp_kept | apply State.setFld_kept | apply State.wrN_kept | (split <;> try dsimp only)

theorem State.qpData_kept {cm cn ci : Bool} {s0 s : State} (n : Nat) (w : Nat) (hk : Kept cm cn ci s0 s) : Kept cm cn ci s0 (State.qpData s n w) := by
  unfold State.qpData
  try dsimp only
  repeat' first | with_reducible first | assumption | (apply ite_kept <;> intro _) | simp only [mk_kept] | apply State.setQp_kept | (split <;> try dsimp only)

theorem State.showBus_kept {cm cn ci : Bool} {s0 s : State} (hk : Kept cm cn ci s0 s) : Kept cm cn ci s0 (State.showBus s) := by
  unfold State.showBus
  try dsimp only
  repeat' first | with_reducible first | assumption | (apply ite_kept <;> intro _) | simp only [mk_kept] | apply State.setBit_kept | apply State.setFld_kept | (split <;> try dsimp only)

theorem doQpPush_kept {cm cn ci : Bool} {s0 s : State} (rq : Requester) (n : Nat) (hk : Kept cm cn ci s0 s) : Kept cm cn ci s0 (doQpPush s rq n) := by
  unfold doQpPush
  try dsimp only
  repeat' first | with_reducible first | assumption | (apply ite_kept <;> intro _) | simp only [mk_kept] | apply State.setQp_kept | apply State.setBit_kept | apply State.setQueue_kept | apply State.showBus_kept | (with_reducible refine foldl_kept _ _ (fun _ _ _ => ?_) ?_ <;> try dsimp only) | (split <;> try dsimp only)

theorem State.runChain_kept {cm cn ci : Bool} {s0 s : State} (n : Nat) (hk : Kept cm cn ci s0 s) : Kept cm cn ci s0 (State.runChain s n) := by
  unfold State.runChain
  try dsimp only
  repeat' first | with_reducible first | assumption | (apply ite_kept <;> intro _) | simp only [mk_kept] | apply State.setQp_kept | apply State.setBit_kept | apply State.showBus_kept | (split <;> try dsimp only)

theorem doQpChainRun_kept {cm cn ci : Bool} {s0 s : State} (n : Nat) (hk : Kept cm cn ci s0 s) : Kept cm cn ci s0 (doQpChainRun s n) := by
  unfold doQpChainRun
  try dsimp only
  repeat' first | with_reducible first | assumption | (apply ite_kept <;> intro _) | simp only [mk_kept] | apply State.runChain_kept | apply State.setQp_kept | (split <;> try dsimp only)

theorem State.entryEnd_kept {cm cn ci : Bool} {s0 s : State} (n : Nat) (e : QEnt) (words : List Nat) (hk : Kept cm cn ci s0 s) : Kept cm cn ci s0 (State.entryEnd s n e words) := by
  unfold State.entryEnd
  try dsimp only
  repeat' first | with_reducible first | assumption | (apply ite_kept <;> intro _) | simp only [mk_kept] | apply State.setQrx_kept | apply State.incSat_kept | apply State.setEvp_kept | (split <;> try dsimp only)

theorem State.entriesEnd_kept {cm cn ci : Bool} {s0 s : State} (n : Nat) (words : List Nat) (x0 : List QEnt) (hk : Kept cm cn ci s0 s) : Kept cm cn ci s0 (State.entriesEnd s n words x0) := by
  induction x0 generalizing s words with
  | nil => exact hk
  | cons e t ih => exact ih _ (State.entryEnd_kept _ _ _ hk)

theorem State.startFill_kept {cm cn ci : Bool} {s0 s : State} (line : Nat) (sculls : List Nat) (demand : Bool) (hk : Kept cm cn ci s0 s) : Kept cm cn ci s0 (State.startFill s line sculls demand) := by
  unfold State.startFill
  try dsimp only
  repeat' first | with_reducible first | assumption | (apply ite_kept <;> intro _) | simp only [mk_kept] | apply State.setQp_kept | apply State.showBus_kept | (split <;> try dsimp only)

theorem State.nextMiss_kept {cm cn ci : Bool} {s0 s : State} (hk : Kept cm cn ci s0 s) : Kept cm cn ci s0 (State.nextMiss s) := by
  unfold State.nextMiss
  try dsimp only
  repeat' first | with_reducible first | assumption | (apply ite_kept <;> intro _) | simp only [mk_kept] | apply State.setQp_kept | apply State.startFill_kept | (split <;> try dsimp only)

theorem doQpChainEnd_kept {cm cn ci : Bool} {s0 s : State} (received : List Word) (hk : Kept cm cn ci s0 s) : Kept cm cn ci s0 (doQpChainEnd s received) := by
  unfold doQpChainEnd
  try dsimp only
  repeat' first | with_reducible first | assumption | (apply ite_kept <;> intro _) | simp only [mk_kept] | apply State.entriesEnd_kept | apply State.setQueue_kept | apply State.setBit_kept | apply State.setQp_kept | apply State.showBus_kept | apply State.nextMiss_kept | (split <;> try dsimp only)

theorem doXipMiss_kept {cm cn ci : Bool} {s0 s : State} (sc : Nat) (addr : Nat) (hk : Kept cm cn ci s0 s) : Kept cm cn ci s0 (doXipMiss s sc addr) := by
  unfold doXipMiss
  try dsimp only
  repeat' first | with_reducible first | assumption | (apply ite_kept <;> intro _) | simp only [mk_kept] | apply State.setQp_kept | apply State.nextMiss_kept | (split <;> try dsimp only)

theorem State.fillEnd_kept {cm cn ci : Bool} {s0 s : State} (hk : Kept cm cn ci s0 s) : Kept cm cn ci s0 (State.fillEnd s) := by
  unfold State.fillEnd
  try dsimp only
  repeat' first | with_reducible first | assumption | (apply ite_kept <;> intro _) | simp only [mk_kept] | apply State.setQp_kept | apply State.showBus_kept | apply State.nextMiss_kept | (split <;> try dsimp only)

theorem State.deliver_kept {cm cn ci : Bool} {s0 s : State} (line : Nat) (tagged : Bool) (hk : Kept cm cn ci s0 s) : Kept cm cn ci s0 (State.deliver s line tagged) := by
  unfold State.deliver
  try dsimp only
  repeat' first | with_reducible first | assumption | (apply ite_kept <;> intro _) | simp only [mk_kept] | apply State.incSat_kept | apply State.setQp_kept | apply State.fillEnd_kept | apply State.startFill_kept | (split <;> try dsimp only)

theorem doXipInvalidate_kept {cm cn ci : Bool} {s0 s : State} (hk : Kept cm cn ci s0 s) : Kept cm cn ci s0 (doXipInvalidate s) := by
  unfold doXipInvalidate
  try dsimp only
  repeat' first | with_reducible first | assumption | (apply ite_kept <;> intro _) | simp only [mk_kept] | apply State.setQp_kept | (split <;> try dsimp only)

theorem doQpSlaveFrame_kept {cm cn ci : Bool} {s0 s : State} (bits : Nat) (words : List Word) (hk : Kept cm cn ci s0 s) : Kept cm cn ci s0 (doQpSlaveFrame s bits words) := by
  unfold doQpSlaveFrame
  try dsimp only
  repeat' first | with_reducible first | assumption | (apply ite_kept <;> intro _) | simp only [mk_kept] | apply State.setQp_kept | apply State.setFld_kept | apply State.incSat_kept | apply State.wrN_kept | apply State.setBit_kept | apply State.logSK_kept | apply State.logS_kept | (split <;> try dsimp only)

theorem State.flushQsel_kept {cm cn ci : Bool} {s0 s : State} (n : Nat) (hk : Kept cm cn ci s0 s) : Kept cm cn ci s0 (State.flushQsel s n) := by
  unfold State.flushQsel
  try dsimp only
  repeat' first | with_reducible first | assumption | (apply ite_kept <;> intro _) | simp only [mk_kept] | apply State.setQueue_kept | apply State.setQrx_kept | (split <;> try dsimp only)

theorem doGpioSet_kept {cm cn ci : Bool} {s0 s : State} (rq : Requester) (pins : Word) (hk : Kept cm cn ci s0 s) : Kept cm cn ci s0 (doGpioSet s rq pins) := by
  unfold doGpioSet
  try dsimp only
  repeat' first | with_reducible first | assumption | (apply ite_kept <;> intro _) | simp only [mk_kept] | apply State.orReg_kept | (split <;> try dsimp only)

theorem doGpioClr_kept {cm cn ci : Bool} {s0 s : State} (rq : Requester) (pins : Word) (hk : Kept cm cn ci s0 s) : Kept cm cn ci s0 (doGpioClr s rq pins) := by
  unfold doGpioClr
  try dsimp only
  repeat' first | with_reducible first | assumption | (apply ite_kept <;> intro _) | simp only [mk_kept] | apply State.clrReg_kept | (split <;> try dsimp only)

theorem doGpioEdge_kept {cm cn ci : Bool} {s0 s : State} (pin : Nat) (level : Bool) (hk : Kept cm cn ci s0 s) : Kept cm cn ci s0 (doGpioEdge s pin level) := by
  unfold doGpioEdge
  try dsimp only
  repeat' first | with_reducible first | assumption | (apply ite_kept <;> intro _) | simp only [mk_kept] | apply State.setBit_kept | apply State.setEvp_kept | (split <;> try dsimp only)

theorem State.gpioSafe_kept {cm cn ci : Bool} {s0 s : State} (mask : Nat) (hk : Kept cm cn ci s0 s) : Kept cm cn ci s0 (State.gpioSafe s mask) := by
  unfold State.gpioSafe
  try dsimp only
  repeat' first | with_reducible first | assumption | (apply ite_kept <;> intro _) | simp only [mk_kept] | apply State.setBit_kept | (with_reducible refine foldl_kept _ _ (fun _ _ _ => ?_) ?_ <;> try dsimp only) | (split <;> try dsimp only)

theorem State.setPart_kept {cm cn ci : Bool} {s0 s : State} (k : Nat) (p : PartSt) (hk : Kept cm cn ci s0 s) : Kept cm cn ci s0 (State.setPart s k p) := by
  unfold State.setPart
  try dsimp only
  repeat' first | with_reducible first | assumption | (apply ite_kept <;> intro _) | simp only [mk_kept] | (split <;> try dsimp only)

theorem State.setScull_kept {cm cn ci : Bool} {s0 s : State} (sc : Nat) (x : ScullSt) (hk : Kept cm cn ci s0 s) : Kept cm cn ci s0 (State.setScull s sc x) := by
  unfold State.setScull
  try dsimp only
  repeat' first | with_reducible first | assumption | (apply ite_kept <;> intro _) | simp only [mk_kept] | (split <;> try dsimp only)

theorem State.setCtx_kept {cm cn ci : Bool} {s0 s : State} (sc : Nat) (k : Nat) (c : Ctx) (hk : Kept cm cn ci s0 s) : Kept cm cn ci s0 (State.setCtx s sc k c) := by
  unfold State.setCtx
  try dsimp only
  repeat' first | with_reducible first | assumption | (apply ite_kept <;> intro _) | simp only [mk_kept] | (split <;> try dsimp only)

theorem State.showScull_kept {cm cn ci : Bool} {s0 s : State} (sc : Nat) (hk : Kept cm cn ci s0 s) : Kept cm cn ci s0 (State.showScull s sc) := by
  unfold State.showScull
  try dsimp only
  repeat' first | with_reducible first | assumption | (apply ite_kept <;> intro _) | simp only [mk_kept] | apply State.setFld_kept | apply State.setBit_kept | (split <;> try dsimp only)

theorem State.idlePart_kept {cm cn ci : Bool} {s0 s : State} (k : Nat) (hk : Kept cm cn ci s0 s) : Kept cm cn ci s0 (State.idlePart s k) := by
  unfold State.idlePart
  try dsimp only
  repeat' first | with_reducible first | assumption | (apply ite_kept <;> intro _) | simp only [mk_kept] | apply State.setScull_kept | apply State.showScull_kept | (with_reducible refine foldl_kept _ _ (fun _ _ _ => ?_) ?_ <;> try dsimp only) | (split <;> try dsimp only)

theorem State.suspend_kept {cm cn ci : Bool} {s0 s : State} (k : Nat) (cause : Nat) (hk : Kept cm cn ci s0 s) : Kept cm cn ci s0 (State.suspend s k cause) := by
  unfold State.suspend
  try dsimp only
  repeat' first | with_reducible first | assumption | (apply ite_kept <;> intro _) | simp only [mk_kept] | apply State.setFld_kept | apply State.idlePart_kept | apply State.freeHelmOf_kept | apply State.canDisable_kept | apply State.flushQsel_kept | apply State.gpioSafe_kept | apply State.showCon_kept | apply State.logSK_kept | (with_reducible refine foldl_kept _ _ (fun _ _ _ => ?_) ?_ <;> try dsimp only) | (split <;> try dsimp only)

theorem State.initPart_kept {cn ci : Bool} {s0 s : State} (k : Nat) (hk : Kept true cn ci s0 s) : Kept true cn ci s0 (State.initPart s k) := by
  unfold State.initPart
  try dsimp only
  repeat' first | with_reducible first | assumption | (apply ite_kept <;> intro _) | simp only [mk_kept] | apply State.clearMem_kept | apply State.wrBytes_kept | apply State.setCtx_kept | apply State.setPart_kept | apply State.setFld_kept | (with_reducible refine foldl_kept _ _ (fun _ _ _ => ?_) ?_ <;> try dsimp only) | (split <;> try dsimp only)

theorem State.loadWindow_kept {cm cn ci : Bool} {s0 s : State} (k : Nat) (hk : Kept cm cn ci s0 s) : Kept cm cn ci s0 (State.loadWindow s k) := by
  unfold State.loadWindow
  try dsimp only
  repeat' first | with_reducible first | assumption | (apply ite_kept <;> intro _) | simp only [mk_kept] | apply State.wrN_kept | apply State.setBit_kept | (split <;> try dsimp only)

theorem State.startPart_kept {ci : Bool} {s0 s : State} (k : Nat) (hk : Kept true true ci s0 s) : Kept true true ci s0 (State.startPart s k) := by
  unfold State.startPart
  try dsimp only
  repeat' first | with_reducible first | assumption | (apply ite_kept <;> intro _) | simp only [mk_kept, mk_kept_nv] | apply State.initPart_kept | apply State.setFld_kept | apply State.loadWindow_kept | apply State.logSK_kept | (split <;> try dsimp only)

theorem State.startVerified_kept {ci : Bool} {s0 s : State} (hk : Kept true true ci s0 s) : Kept true true ci s0 (State.startVerified s) := by
  unfold State.startVerified
  try dsimp only
  repeat' first | with_reducible first | assumption | (apply ite_kept <;> intro _) | simp only [mk_kept, mk_kept_nv] | apply State.startPart_kept | (with_reducible refine foldl_kept _ _ (fun _ _ _ => ?_) ?_ <;> try dsimp only) | (split <;> try dsimp only)

theorem State.resumePart_kept {cn ci : Bool} {s0 s : State} (k : Nat) (how : Nat) (hk : Kept true cn ci s0 s) : Kept true cn ci s0 (State.resumePart s k how) := by
  unfold State.resumePart
  try dsimp only
  repeat' first | with_reducible first | assumption | (apply ite_kept <;> intro _) | simp only [mk_kept] | apply State.initPart_kept | apply State.setFld_kept | apply State.loadWindow_kept | apply State.logSK_kept | (split <;> try dsimp only)

theorem doTenantCrabLimit_kept {cm cn ci : Bool} {s0 s : State} (k : Nat) (hk : Kept cm cn ci s0 s) : Kept cm cn ci s0 (doTenantCrabLimit s k) := by
  unfold doTenantCrabLimit
  try dsimp only
  repeat' first | with_reducible first | assumption | (apply ite_kept <;> intro _) | simp only [mk_kept] | apply State.suspend_kept | (split <;> try dsimp only)

theorem doAutoResume_kept {cn ci : Bool} {s0 s : State} (k : Nat) (hk : Kept true cn ci s0 s) : Kept true cn ci s0 (doAutoResume s k) := by
  unfold doAutoResume
  try dsimp only
  repeat' first | with_reducible first | assumption | (apply ite_kept <;> intro _) | simp only [mk_kept] | apply State.setPart_kept | apply State.setFld_kept | apply State.resumePart_kept | (split <;> try dsimp only)

theorem doMonitorYield_kept {cm cn ci : Bool} {s0 s : State} (sc : Nat) (hk : Kept cm cn ci s0 s) : Kept cm cn ci s0 (doMonitorYield s sc) := by
  unfold doMonitorYield
  try dsimp only
  repeat' first | with_reducible first | assumption | (apply ite_kept <;> intro _) | simp only [mk_kept] | apply State.setScull_kept | apply State.setFld_kept | apply State.setCtx_kept | apply State.showScull_kept | (split <;> try dsimp only)

theorem doMonitorWait_kept {cm cn ci : Bool} {s0 s : State} (sc : Nat) (mask : Nat) (hk : Kept cm cn ci s0 s) : Kept cm cn ci s0 (doMonitorWait s sc mask) := by
  unfold doMonitorWait
  try dsimp only
  repeat' first | with_reducible first | assumption | (apply ite_kept <;> intro _) | simp only [mk_kept] | apply State.setCtx_kept | apply State.clrReg_kept | (split <;> try dsimp only)

theorem doMonitorSetvec_kept {cm cn ci : Bool} {s0 s : State} (sc : Nat) (handler : Nat) (mask : Nat) (hk : Kept cm cn ci s0 s) : Kept cm cn ci s0 (doMonitorSetvec s sc handler mask) := by
  unfold doMonitorSetvec
  try dsimp only
  repeat' first | with_reducible first | assumption | (apply ite_kept <;> intro _) | simp only [mk_kept] | apply State.setPart_kept | apply State.setCtx_kept | (split <;> try dsimp only)

theorem doMonitorEvret_kept {cm cn ci : Bool} {s0 s : State} (sc : Nat) (hk : Kept cm cn ci s0 s) : Kept cm cn ci s0 (doMonitorEvret s sc) := by
  unfold doMonitorEvret
  try dsimp only
  repeat' first | with_reducible first | assumption | (apply ite_kept <;> intro _) | simp only [mk_kept] | apply State.setCtx_kept | apply State.setPart_kept | (split <;> try dsimp only)

theorem doMonitorInfo_kept {cm cn ci : Bool} {s0 s : State} (sc : Nat) (us : Nat) (hk : Kept cm cn ci s0 s) : Kept cm cn ci s0 (doMonitorInfo s sc us) := by
  unfold doMonitorInfo
  try dsimp only
  repeat' first | with_reducible first | assumption | (apply ite_kept <;> intro _) | simp only [mk_kept] | apply State.setCtx_kept | (split <;> try dsimp only)

theorem doMonitorLog_kept {cm cn ci : Bool} {s0 s : State} (sc : Nat) (code : Nat) (sev : Nat) (a2 : Nat) (a3 : Nat) (hk : Kept cm cn ci s0 s) : Kept cm cn ci s0 (doMonitorLog s sc code sev a2 a3) := by
  unfold doMonitorLog
  try dsimp only
  repeat' first | with_reducible first | assumption | (apply ite_kept <;> intro _) | simp only [mk_kept] | apply State.setCtx_kept | apply State.submit_kept | (split <;> try dsimp only) | grind [State.submit_kept]

theorem doMonitorUnknownCall_kept {cm cn ci : Bool} {s0 s : State} (sc : Nat) (call : Nat) (hk : Kept cm cn ci s0 s) : Kept cm cn ci s0 (doMonitorUnknownCall s sc call) := by
  unfold doMonitorUnknownCall
  try dsimp only
  repeat' first | with_reducible first | assumption | (apply ite_kept <;> intro _) | simp only [mk_kept] | apply State.setCtx_kept | (split <;> try dsimp only)

theorem doEventDelivery_kept {cm cn ci : Bool} {s0 s : State} (sc : Nat) (hk : Kept cm cn ci s0 s) : Kept cm cn ci s0 (doEventDelivery s sc) := by
  unfold doEventDelivery
  try dsimp only
  repeat' first | with_reducible first | assumption | (apply ite_kept <;> intro _) | simp only [mk_kept] | apply State.clrReg_kept | apply State.setCtx_kept | apply State.setPart_kept | (split <;> try dsimp only)

theorem doEventSet_kept {cm cn ci : Bool} {s0 s : State} (value : Word) (hk : Kept cm cn ci s0 s) : Kept cm cn ci s0 (doEventSet s value) := by
  unfold doEventSet
  try dsimp only
  repeat' first | with_reducible first | assumption | (apply ite_kept <;> intro _) | simp only [mk_kept] | apply State.setEvp_kept | (split <;> try dsimp only)

theorem State.loadGrants_kept {cm cn ci : Bool} {s0 s : State} (k : Nat) (hk : Kept cm cn ci s0 s) : Kept cm cn ci s0 (State.loadGrants s k) := by
  unfold State.loadGrants
  try dsimp only
  repeat' first | with_reducible first | assumption | (apply ite_kept <;> intro _) | simp only [mk_kept] | apply State.wrN_kept | (split <;> try dsimp only)

theorem State.takeGrants_kept {cm cn ci : Bool} {s0 s : State} (k : Nat) (hk : Kept cm cn ci s0 s) : Kept cm cn ci s0 (State.takeGrants s k) := by
  unfold State.takeGrants
  try dsimp only
  repeat' first | with_reducible first | assumption | (apply ite_kept <;> intro _) | simp only [mk_kept] | apply State.setPart_kept | (with_reducible refine foldl_kept _ _ (fun _ _ _ => ?_) ?_ <;> try dsimp only) | (split <;> try dsimp only)

theorem State.switchTo_kept {cm cn ci : Bool} {s0 s : State} (sc : Nat) (k : Nat) (idx : Nat) (start : Nat) (len : Nat) (hk : Kept cm cn ci s0 s) : Kept cm cn ci s0 (State.switchTo s sc k idx start len) := by
  unfold State.switchTo
  try dsimp only
  repeat' first | with_reducible first | assumption | (apply ite_kept <;> intro _) | simp only [mk_kept] | apply State.setScull_kept | apply State.showScull_kept | (split <;> try dsimp only)

theorem State.zeroWindows_kept {cm cn ci : Bool} {s0 s : State} (sc : Nat) (hk : Kept cm cn ci s0 s) : Kept cm cn ci s0 (State.zeroWindows s sc) := by
  unfold State.zeroWindows
  try dsimp only
  repeat' first | with_reducible first | assumption | (apply ite_kept <;> intro _) | simp only [mk_kept] | apply State.wr_kept | (with_reducible refine foldl_kept _ _ (fun _ _ _ => ?_) ?_ <;> try dsimp only) | (split <;> try dsimp only)

theorem doSlotStart_kept {cm cn : Bool} {s0 s : State} (sc : Nat) (idx : Nat) (hk : Kept cm cn true s0 s) : Kept cm cn true s0 (doSlotStart s sc idx) := by
  unfold doSlotStart
  try dsimp only
  repeat' first | with_reducible first | assumption | (apply ite_kept <;> intro _) | simp only [mk_kept, mk_kept_force] | apply State.takeGrants_kept | apply State.zeroWindows_kept | apply State.switchTo_kept | apply doEventDelivery_kept | (split <;> try dsimp only)

theorem doSlotEnd_kept {cm cn ci : Bool} {s0 s : State} (sc : Nat) (hk : Kept cm cn ci s0 s) : Kept cm cn ci s0 (doSlotEnd s sc) := by
  unfold doSlotEnd
  try dsimp only
  repeat' first | with_reducible first | assumption | (apply ite_kept <;> intro _) | simp only [mk_kept] | apply State.setScull_kept | apply State.showScull_kept | apply State.setFld_kept | apply State.setBit_kept | apply State.logSK_kept | (split <;> try dsimp only)

theorem doSlotSwapRequest_kept {cm cn ci : Bool} {s0 s : State} (hk : Kept cm cn ci s0 s) : Kept cm cn ci s0 (doSlotSwapRequest s) := by
  unfold doSlotSwapRequest
  try dsimp only
  repeat' first | with_reducible first | assumption | (apply ite_kept <;> intro _) | simp only [mk_kept] | (split <;> try dsimp only)

theorem State.swapBanks_kept {cm cn ci : Bool} {s0 s : State} (hk : Kept cm cn ci s0 s) : Kept cm cn ci s0 (State.swapBanks s) := by
  unfold State.swapBanks
  try dsimp only
  repeat' first | with_reducible first | assumption | (apply ite_kept <;> intro _) | simp only [mk_kept] | apply State.setFld_kept | apply State.logS_kept | (split <;> try dsimp only)

theorem State.writeSlots_kept {cm cn ci : Bool} {s0 s : State} (settings : List (PKey × PVal)) (hk : Kept cm cn ci s0 s) : Kept cm cn ci s0 (State.writeSlots s settings) := by
  unfold State.writeSlots
  try dsimp only
  repeat' first | with_reducible first | assumption | (apply ite_kept <;> intro _) | simp only [mk_kept] | apply State.wrN_kept | apply doSlotSwapRequest_kept | (with_reducible refine foldl_kept _ _ (fun _ _ _ => ?_) ?_ <;> try dsimp only) | (split <;> try dsimp only)

theorem doScullEnable_kept {cm cn ci : Bool} {s0 s : State} (mask : Nat) (hk : Kept cm cn ci s0 s) : Kept cm cn ci s0 (doScullEnable s mask) := by
  unfold doScullEnable
  try dsimp only
  repeat' first | with_reducible first | assumption | (apply ite_kept <;> intro _) | simp only [mk_kept] | apply State.orReg_kept | (split <;> try dsimp only)

theorem doGrantWrite_kept {cm cn ci : Bool} {s0 s : State} (k : Nat) (reg : GrantReg) (value : Word) (hk : Kept cm cn ci s0 s) : Kept cm cn ci s0 (doGrantWrite s k reg value) := by
  unfold doGrantWrite
  try dsimp only
  repeat' first | with_reducible first | assumption | (apply ite_kept <;> intro _) | simp only [mk_kept] | apply State.setBit_kept | apply State.wrN_kept | (with_reducible refine foldl_kept _ _ (fun _ _ _ => ?_) ?_ <;> try dsimp only) | (split <;> try dsimp only)

theorem State.busRecord_kept {cm cn ci : Bool} {s0 s : State} (rq : Requester) (write : Bool) (addr : Nat) (hk : Kept cm cn ci s0 s) : Kept cm cn ci s0 (State.busRecord s rq write addr) := by
  unfold State.busRecord
  try dsimp only
  repeat' first | with_reducible first | assumption | (apply ite_kept <;> intro _) | simp only [mk_kept] | apply State.wrN_kept | (split <;> try dsimp only)

theorem State.coxBusError_kept {ci : Bool} {s0 s : State} (write : Bool) (addr : Nat) (hk : Kept true true ci s0 s) : Kept true true ci s0 (State.coxBusError s write addr) := by
  unfold State.coxBusError
  try dsimp only
  repeat' first | with_reducible first | assumption | (apply ite_kept <;> intro _) | simp only [mk_kept, mk_kept_nv] | apply State.busRecord_kept | apply State.easy_kept | (split <;> try dsimp only)

theorem State.partFault_kept {cm cn ci : Bool} {s0 s : State} (k : Nat) (cause : Nat) (mcause : Nat) (mepc : Nat) (mtval : Nat) (hk : Kept cm cn ci s0 s) : Kept cm cn ci s0 (State.partFault s k cause mcause mepc mtval) := by
  unfold State.partFault
  try dsimp only
  repeat' first | with_reducible first | assumption | (apply ite_kept <;> intro _) | simp only [mk_kept] | apply State.logSK_kept | apply State.suspend_kept | (split <;> try dsimp only)

theorem State.refusedRecord_kept {cm cn ci : Bool} {s0 s : State} (sc : Nat) (k : Nat) (filter : Bool) (write : Bool) (addr : Nat) (hk : Kept cm cn ci s0 s) : Kept cm cn ci s0 (State.refusedRecord s sc k filter write addr) := by
  unfold State.refusedRecord
  try dsimp only
  repeat' first | with_reducible first | assumption | (apply ite_kept <;> intro _) | simp only [mk_kept] | apply State.setBit_kept | apply State.wrN_kept | (split <;> try dsimp only)

theorem State.cacheLine_kept {cm cn ci : Bool} {s0 s : State} (sc : Nat) (acc : Access) (a : Nat) (hk : Kept cm cn ci s0 s) : Kept cm cn ci s0 (State.cacheLine s sc acc a) := by
  unfold State.cacheLine
  try dsimp only
  repeat' first | with_reducible first | assumption | (apply ite_kept <;> intro _) | simp only [mk_kept] | apply State.setScull_kept | (split <;> try dsimp only)

theorem State.tenantAccess_kept {cm cn ci : Bool} {s0 s : State} (sc : Nat) (k : Nat) (acc : Access) (a : Nat) (mepc : Nat) (hk : Kept cm cn ci s0 s) : Kept cm cn ci s0 (State.tenantAccess s sc k acc a mepc) := by
  unfold State.tenantAccess
  try dsimp only
  repeat' first | with_reducible first | assumption | (apply ite_kept <;> intro _) | simp only [mk_kept] | apply State.refusedRecord_kept | apply State.partFault_kept | apply State.cacheLine_kept | (split <;> try dsimp only)

theorem State.tenantBusError_kept {cm cn ci : Bool} {s0 s : State} (sc : Nat) (write : Bool) (addr : Nat) (hk : Kept cm cn ci s0 s) : Kept cm cn ci s0 (State.tenantBusError s sc write addr) := by
  unfold State.tenantBusError
  try dsimp only
  repeat' first | with_reducible first | assumption | (apply ite_kept <;> intro _) | simp only [mk_kept] | apply State.busRecord_kept | apply State.free_kept | apply State.partFault_kept | (split <;> try dsimp only) | grind [State.free_kept]

theorem doPartitionFault_kept {cm cn ci : Bool} {s0 s : State} (sc : Nat) (why : UserFault) (hk : Kept cm cn ci s0 s) : Kept cm cn ci s0 (doPartitionFault s sc why) := by
  unfold doPartitionFault
  try dsimp only
  repeat' first | with_reducible first | assumption | (apply ite_kept <;> intro _) | simp only [mk_kept] | apply State.tenantAccess_kept | apply State.partFault_kept | (split <;> try dsimp only)

theorem doScullFault_kept {cm cn ci : Bool} {s0 s : State} (sc : Nat) (mcause : Nat) (hk : Kept cm cn ci s0 s) : Kept cm cn ci s0 (doScullFault s sc mcause) := by
  unfold doScullFault
  try dsimp only
  repeat' first | with_reducible first | assumption | (apply ite_kept <;> intro _) | simp only [mk_kept] | apply State.setBit_kept | apply State.logS_kept | apply State.suspend_kept | apply State.setFld_kept | (with_reducible refine foldl_kept _ _ (fun _ _ _ => ?_) ?_ <;> try dsimp only) | (split <;> try dsimp only)

theorem State.placeEntry_kept {cn ci : Bool} {s0 s : State} (k : Nat) (e : Nat) (hk : Kept true cn ci s0 s) : Kept true cn ci s0 (State.placeEntry s k e) := by
  unfold State.placeEntry
  try dsimp only
  repeat' first | with_reducible first | assumption | (apply ite_kept <;> intro _) | simp only [mk_kept] | apply State.wrBytes_kept | apply State.placeOrder_kept | (split <;> try dsimp only)

theorem doDoorbell_kept {cn ci : Bool} {s0 s : State} (k : Nat) (value : Word) (us : Nat) (hk : Kept true cn ci s0 s) : Kept true cn ci s0 (doDoorbell s k value us) := by
  unfold doDoorbell
  try dsimp only
  repeat' first | with_reducible first | assumption | (apply ite_kept <;> intro _) | simp only [mk_kept] | apply State.atUs_kept | apply State.st_kept | apply State.setBit_kept | apply State.logIn_kept | apply State.setPart_kept | apply State.wrN_kept | apply State.setFld_kept | apply State.placeEntry_kept | (with_reducible refine foldl_kept _ _ (fun _ _ _ => ?_) ?_ <;> try dsimp only) | (split <;> try dsimp only)

theorem doDoorbellCopyDone_kept {cm cn ci : Bool} {s0 s : State} (k : Nat) (hk : Kept cm cn ci s0 s) : Kept cm cn ci s0 (doDoorbellCopyDone s k) := by
  unfold doDoorbellCopyDone
  try dsimp only
  repeat' first | with_reducible first | assumption | (apply ite_kept <;> intro _) | simp only [mk_kept] | apply State.setBit_kept | (split <;> try dsimp only)

theorem doTenantImageVerify_kept {cm cn ci : Bool} {s0 s : State} (k : Nat) (image : List Byte) (header : List Byte) (hk : Kept cm cn ci s0 s) : Kept cm cn ci s0 (doTenantImageVerify s k image header) := by
  unfold doTenantImageVerify
  try dsimp only
  repeat' first | with_reducible first | assumption | (apply ite_kept <;> intro _) | simp only [mk_kept] | apply State.logS_kept | apply State.suspend_kept | apply State.setPart_kept | (split <;> try dsimp only)

theorem State.beginVerify_kept {cm cn ci : Bool} {s0 s : State} (hk : Kept cm cn ci s0 s) : Kept cm cn ci s0 (State.beginVerify s) := by
  unfold State.beginVerify
  try dsimp only
  repeat' first | with_reducible first | assumption | (apply ite_kept <;> intro _) | simp only [mk_kept] | apply State.setFld_kept | (with_reducible refine foldl_kept _ _ (fun _ _ _ => ?_) ?_ <;> try dsimp only) | (split <;> try dsimp only)

theorem doXipLineDone_kept {cm cn ci : Bool} {s0 s : State} (data : List Byte) (tag : List Byte) (data2 : List Byte) (tag2 : List Byte) (hk : Kept cm cn ci s0 s) : Kept cm cn ci s0 (doXipLineDone s data tag data2 tag2) := by
  unfold doXipLineDone
  try dsimp only
  repeat' first | with_reducible first | assumption | (apply ite_kept <;> intro _) | simp only [mk_kept] | apply State.deliver_kept | apply State.incSat_kept | apply State.wrN_kept | apply State.setBit_kept | apply State.busRecord_kept | apply State.setQp_kept | apply State.fillEnd_kept | apply State.logSK_kept | apply State.suspend_kept | (with_reducible refine foldl_kept _ _ (fun _ _ _ => ?_) ?_ <;> try dsimp only) | (split <;> try dsimp only)

theorem State.setTag_kept {cm cn ci : Bool} {s0 s : State} (t : TagSt) (hk : Kept cm cn ci s0 s) : Kept cm cn ci s0 (State.setTag s t) := by
  unfold State.setTag
  try dsimp only
  repeat' first | with_reducible first | assumption | (apply ite_kept <;> intro _) | simp only [mk_kept] | (split <;> try dsimp only)

theorem State.tagAnswer_kept {cm cn ci : Bool} {s0 s : State} (l : List Byte) (hk : Kept cm cn ci s0 s) : Kept cm cn ci s0 (State.tagAnswer s l) := by
  unfold State.tagAnswer
  try dsimp only
  repeat' first | with_reducible first | assumption | (apply ite_kept <;> intro _) | simp only [mk_kept] | apply State.setTag_kept | (split <;> try dsimp only)

theorem State.tagAck_kept {cm cn ci : Bool} {s0 s : State} (n : Nat) (hk : Kept cm cn ci s0 s) : Kept cm cn ci s0 (State.tagAck s n) := by
  unfold State.tagAck
  try dsimp only
  repeat' first | with_reducible first | assumption | (apply ite_kept <;> intro _) | simp only [mk_kept] | apply State.setTag_kept | (split <;> try dsimp only)

theorem State.tagSilent_kept {cm cn ci : Bool} {s0 s : State} (hk : Kept cm cn ci s0 s) : Kept cm cn ci s0 (State.tagSilent s) := by
  unfold State.tagSilent
  try dsimp only
  repeat' first | with_reducible first | assumption | (apply ite_kept <;> intro _) | simp only [mk_kept] | apply State.setTag_kept | (split <;> try dsimp only)

theorem State.showTag_kept {cm cn ci : Bool} {s0 s : State} (hk : Kept cm cn ci s0 s) : Kept cm cn ci s0 (State.showTag s) := by
  unfold State.showTag
  try dsimp only
  repeat' first | with_reducible first | assumption | (apply ite_kept <;> intro _) | simp only [mk_kept] | apply State.setBit_kept | apply State.setFld_kept | (split <;> try dsimp only)

theorem State.tagIrq_kept {cm cn ci : Bool} {s0 s : State} (b : Nat) (hk : Kept cm cn ci s0 s) : Kept cm cn ci s0 (State.tagIrq s b) := by
  unfold State.tagIrq
  try dsimp only
  repeat' first | with_reducible first | assumption | (apply ite_kept <;> intro _) | simp only [mk_kept] | apply State.setBit_kept | (split <;> try dsimp only)

theorem State.flushRow_kept {cm cn ci : Bool} {s0 s : State} (hk : Kept cm cn ci s0 s) : Kept cm cn ci s0 (State.flushRow s) := by
  unfold State.flushRow
  try dsimp only
  repeat' first | with_reducible first | assumption | (apply ite_kept <;> intro _) | simp only [mk_kept] | apply State.setTag_kept | apply State.showTag_kept | (split <;> try dsimp only)

theorem State.setOwner_kept {cn ci : Bool} {s0 s : State} (n : Nat) (hk : Kept true cn ci s0 s) : Kept true cn ci s0 (State.setOwner s n) := by
  unfold State.setOwner
  try dsimp only
  repeat' first | with_reducible first | assumption | (apply ite_kept <;> intro _) | simp only [mk_kept] | apply State.setTag_kept | apply State.wrB_kept | apply State.showTag_kept | (split <;> try dsimp only)

theorem State.fieldTakes_kept {cn ci : Bool} {s0 s : State} (hk : Kept true cn ci s0 s) : Kept true cn ci s0 (State.fieldTakes s) := by
  unfold State.fieldTakes
  try dsimp only
  repeat' first | with_reducible first | assumption | (apply ite_kept <;> intro _) | simp only [mk_kept] | apply State.setTag_kept | apply State.setOwner_kept | apply State.tagIrq_kept | apply State.wrBytes_kept | apply State.logS_kept | (split <;> try dsimp only)

theorem State.freeMailbox_kept {cn ci : Bool} {s0 s : State} (hk : Kept true cn ci s0 s) : Kept true cn ci s0 (State.freeMailbox s) := by
  unfold State.freeMailbox
  try dsimp only
  repeat' first | with_reducible first | assumption | (apply ite_kept <;> intro _) | simp only [mk_kept] | apply State.setOwner_kept | apply State.tagIrq_kept | (split <;> try dsimp only)

theorem State.tagBack_kept {cm cn ci : Bool} {s0 s : State} (hk : Kept cm cn ci s0 s) : Kept cm cn ci s0 (State.tagBack s) := by
  unfold State.tagBack
  try dsimp only
  repeat' first | with_reducible first | assumption | (apply ite_kept <;> intro _) | simp only [mk_kept] | apply State.setTag_kept | apply State.showTag_kept | (split <;> try dsimp only)

theorem doTagReqa_kept {cm cn ci : Bool} {s0 s : State} (hk : Kept cm cn ci s0 s) : Kept cm cn ci s0 (doTagReqa s) := by
  unfold doTagReqa
  try dsimp only
  repeat' first | with_reducible first | assumption | (apply ite_kept <;> intro _) | simp only [mk_kept] | apply State.setTag_kept | apply State.tagSilent_kept | apply State.tagBack_kept | (split <;> try dsimp only)

theorem doTagWupa_kept {cm cn ci : Bool} {s0 s : State} (hk : Kept cm cn ci s0 s) : Kept cm cn ci s0 (doTagWupa s) := by
  unfold doTagWupa
  try dsimp only
  repeat' first | with_reducible first | assumption | (apply ite_kept <;> intro _) | simp only [mk_kept] | apply State.setTag_kept | apply State.tagBack_kept | (split <;> try dsimp only)

theorem doTagAnticollision_kept {cm cn ci : Bool} {s0 s : State} (level : Nat) (bitsKnown : List Byte) (hk : Kept cm cn ci s0 s) : Kept cm cn ci s0 (doTagAnticollision s level bitsKnown) := by
  unfold doTagAnticollision
  try dsimp only
  repeat' first | with_reducible first | assumption | (apply ite_kept <;> intro _) | simp only [mk_kept] | apply State.tagAnswer_kept | apply State.tagSilent_kept | apply State.tagBack_kept | (split <;> try dsimp only)

theorem doTagSelect_kept {cm cn ci : Bool} {s0 s : State} (level : Nat) (uid : List Byte) (hk : Kept cm cn ci s0 s) : Kept cm cn ci s0 (doTagSelect s level uid) := by
  unfold doTagSelect
  try dsimp only
  repeat' first | with_reducible first | assumption | (apply ite_kept <;> intro _) | simp only [mk_kept] | apply State.setTag_kept | apply State.showTag_kept | apply State.tagBack_kept | (split <;> try dsimp only)

theorem doTagHlta_kept {cm cn ci : Bool} {s0 s : State} (hk : Kept cm cn ci s0 s) : Kept cm cn ci s0 (doTagHlta s) := by
  unfold doTagHlta
  try dsimp only
  repeat' first | with_reducible first | assumption | (apply ite_kept <;> intro _) | simp only [mk_kept] | apply State.setTag_kept | apply State.showTag_kept | apply State.tagBack_kept | (split <;> try dsimp only)

theorem State.fieldRead_kept {cn ci : Bool} {s0 s : State} (page : Nat) (hk : Kept true cn ci s0 s) : Kept true cn ci s0 (State.fieldRead s page) := by
  unfold State.fieldRead
  try dsimp only
  repeat' first | with_reducible first | assumption | (apply ite_kept <;> intro _) | simp only [mk_kept] | apply State.fieldTakes_kept | apply State.tagAnswer_kept | (split <;> try dsimp only)

theorem State.fieldWrite_kept {cn ci : Bool} {s0 s : State} (page : Nat) (data : List Byte) (verifyOk : Bool) (us : Nat) (hk : Kept true cn ci s0 s) : Kept true cn ci s0 (State.fieldWrite s page data verifyOk us) := by
  unfold State.fieldWrite
  try dsimp only
  repeat' first | with_reducible first | assumption | (apply ite_kept <;> intro _) | simp only [mk_kept] | apply State.tagAck_kept | apply State.fieldTakes_kept | apply State.free_kept | apply State.wrBytes_kept | apply State.setBit_kept | apply State.tagIrq_kept | apply State.logS_kept | apply State.wrN_kept | apply State.incSat_kept | apply State.atUs_kept | apply State.setTag_kept | (split <;> try dsimp only) | grind [State.free_kept]

theorem State.fieldCmd_kept {cn ci : Bool} {s0 s : State} (c : FieldCmd) (hk : Kept true cn ci s0 s) : Kept true cn ci s0 (State.fieldCmd s c) := by
  unfold State.fieldCmd
  try dsimp only
  repeat' first | with_reducible first | assumption | (apply ite_kept <;> intro _) | simp only [mk_kept] | apply State.tagBack_kept | apply State.setTag_kept | apply State.fieldRead_kept | apply State.fieldWrite_kept | (split <;> try dsimp only)

theorem doTagRead_kept {cn ci : Bool} {s0 s : State} (page : Nat) (hk : Kept true cn ci s0 s) : Kept true cn ci s0 (doTagRead s page) := by
  unfold doTagRead
  try dsimp only
  repeat' first | with_reducible first | assumption | (apply ite_kept <;> intro _) | simp only [mk_kept] | apply State.fieldCmd_kept | (split <;> try dsimp only)

theorem doTagWrite_kept {cn ci : Bool} {s0 s : State} (page : Nat) (data : List Byte) (verifyOk : Bool) (us : Nat) (hk : Kept true cn ci s0 s) : Kept true cn ci s0 (doTagWrite s page data verifyOk us) := by
  unfold doTagWrite
  try dsimp only
  repeat' first | with_reducible first | assumption | (apply ite_kept <;> intro _) | simp only [mk_kept] | apply State.fieldCmd_kept | (split <;> try dsimp only)

theorem doTagCompatWrite_kept {cn ci : Bool} {s0 s : State} (page : Nat) (data : List Byte) (verifyOk : Bool) (us : Nat) (hk : Kept true cn ci s0 s) : Kept true cn ci s0 (doTagCompatWrite s page data verifyOk us) := by
  unfold doTagCompatWrite
  try dsimp only
  repeat' first | with_reducible first | assumption | (apply ite_kept <;> intro _) | simp only [mk_kept] | apply State.fieldCmd_kept | (split <;> try dsimp only)

theorem doTagSectorSelect_kept {cm cn ci : Bool} {s0 s : State} (sector : Nat) (hk : Kept cm cn ci s0 s) : Kept cm cn ci s0 (doTagSectorSelect s sector) := by
  unfold doTagSectorSelect
  try dsimp only
  repeat' first | with_reducible first | assumption | (apply ite_kept <;> intro _) | simp only [mk_kept] | apply State.tagBack_kept | apply State.setTag_kept | apply State.showTag_kept | apply State.tagAck_kept | (split <;> try dsimp only)

theorem doTagFieldOn_kept {cm cn ci : Bool} {s0 s : State} (hk : Kept cm cn ci s0 s) : Kept cm cn ci s0 (doTagFieldOn s) := by
  unfold doTagFieldOn
  try dsimp only
  repeat' first | with_reducible first | assumption | (apply ite_kept <;> intro _) | simp only [mk_kept] | apply State.setTag_kept | apply State.showTag_kept | apply State.tagIrq_kept | apply State.logS_kept | (split <;> try dsimp only)

theorem doTagFieldOff_kept {cn ci : Bool} {s0 s : State} (hk : Kept true cn ci s0 s) : Kept true cn ci s0 (doTagFieldOff s) := by
  unfold doTagFieldOff
  try dsimp only
  repeat' first | with_reducible first | assumption | (apply ite_kept <;> intro _) | simp only [mk_kept] | apply State.setTag_kept | apply State.showTag_kept | apply State.tagIrq_kept | apply State.freeMailbox_kept | apply State.logS_kept | (split <;> try dsimp only)

theorem doTagHostStore_kept {ci : Bool} {s0 s : State} (addr : Nat) (data : List Byte) (hk : Kept true true ci s0 s) : Kept true true ci s0 (doTagHostStore s addr data) := by
  unfold doTagHostStore
  try dsimp only
  repeat' first | with_reducible first | assumption | (apply ite_kept <;> intro _) | simp only [mk_kept, mk_kept_nv] | apply State.coxBusError_kept | apply State.setBit_kept | apply State.setTag_kept | apply State.flushRow_kept | (split <;> try dsimp only)

theorem doTagFlush_kept {cm cn ci : Bool} {s0 s : State} (hk : Kept cm cn ci s0 s) : Kept cm cn ci s0 (doTagFlush s) := by
  unfold doTagFlush
  try dsimp only
  repeat' first | with_reducible first | assumption | (apply ite_kept <;> intro _) | simp only [mk_kept] | apply State.flushRow_kept | (split <;> try dsimp only)

theorem doTagRowProgramDone_kept {cn ci : Bool} {s0 s : State} (verifyOk : Bool) (hk : Kept true cn ci s0 s) : Kept true cn ci s0 (doTagRowProgramDone s verifyOk) := by
  unfold doTagRowProgramDone
  try dsimp only
  repeat' first | with_reducible first | assumption | (apply ite_kept <;> intro _) | simp only [mk_kept] | apply State.free_kept | apply State.setTag_kept | apply State.wrBytes_kept | apply State.setBit_kept | apply State.tagIrq_kept | apply State.logS_kept | apply State.showTag_kept | apply State.fieldCmd_kept | (split <;> try dsimp only) | grind [State.free_kept]

theorem doTagSemaphoreTake_kept {cn ci : Bool} {s0 s : State} (hk : Kept true cn ci s0 s) : Kept true cn ci s0 (doTagSemaphoreTake s) := by
  unfold doTagSemaphoreTake
  try dsimp only
  repeat' first | with_reducible first | assumption | (apply ite_kept <;> intro _) | simp only [mk_kept] | apply State.setOwner_kept | (split <;> try dsimp only)

theorem doTagSemaphoreRelease_kept {cn ci : Bool} {s0 s : State} (hk : Kept true cn ci s0 s) : Kept true cn ci s0 (doTagSemaphoreRelease s) := by
  unfold doTagSemaphoreRelease
  try dsimp only
  repeat' first | with_reducible first | assumption | (apply ite_kept <;> intro _) | simp only [mk_kept] | apply State.setOwner_kept | (split <;> try dsimp only)

theorem doTagFieldIdleRelease_kept {cn ci : Bool} {s0 s : State} (hk : Kept true cn ci s0 s) : Kept true cn ci s0 (doTagFieldIdleRelease s) := by
  unfold doTagFieldIdleRelease
  try dsimp only
  repeat' first | with_reducible first | assumption | (apply ite_kept <;> intro _) | simp only [mk_kept] | apply State.freeMailbox_kept | (split <;> try dsimp only)

theorem State.zeroTag_kept {cn ci : Bool} {s0 s : State} (lo : Nat) (hi : Nat) (hk : Kept true cn ci s0 s) : Kept true cn ci s0 (State.zeroTag s lo hi) := by
  unfold State.zeroTag
  try dsimp only
  repeat' first | with_reducible first | assumption | (apply ite_kept <;> intro _) | simp only [mk_kept] | apply State.clearMem_kept | (split <;> try dsimp only)

theorem State.wipeTagU_kept {ci : Bool} {s0 s : State} (hk : Kept true true ci s0 s) : Kept true true ci s0 (State.wipeTagU s) := by
  unfold State.wipeTagU
  try dsimp only
  repeat' first | with_reducible first | assumption | (apply ite_kept <;> intro _) | simp only [mk_kept, mk_kept_nv] | apply State.zeroTag_kept | (split <;> try dsimp only)

theorem State.wipeTagC_kept {cn ci : Bool} {s0 s : State} (hk : Kept true cn ci s0 s) : Kept true cn ci s0 (State.wipeTagC s) := by
  unfold State.wipeTagC
  try dsimp only
  repeat' first | with_reducible first | assumption | (apply ite_kept <;> intro _) | simp only [mk_kept] | apply State.zeroTag_kept | (split <;> try dsimp only)

theorem doTagWipe_kept {ci : Bool} {s0 s : State} (value : Word) (hk : Kept true true ci s0 s) : Kept true true ci s0 (doTagWipe s value) := by
  unfold doTagWipe
  try dsimp only
  repeat' first | with_reducible first | assumption | (apply ite_kept <;> intro _) | simp only [mk_kept, mk_kept_nv] | apply State.wipeTagU_kept | apply State.wipeTagC_kept | (split <;> try dsimp only)

theorem State.publish_kept {cn ci : Bool} {s0 s : State} (hk : Kept true cn ci s0 s) : Kept true cn ci s0 (State.publish s) := by
  unfold State.publish
  try dsimp only
  repeat' first | with_reducible first | assumption | (apply ite_kept <;> intro _) | simp only [mk_kept] | apply State.clearMem_kept | apply State.wrBytes_kept | apply State.st_kept | apply State.setEvpAll_kept | (with_reducible refine foldl_kept _ _ (fun _ _ _ => ?_) ?_ <;> try dsimp only) | (split <;> try dsimp only)

theorem State.shoreScan_kept {cm ci : Bool} {s0 s : State} (hk : Kept cm true ci s0 s) : Kept cm true ci s0 (State.shoreScan s) := by
  unfold State.shoreScan
  try dsimp only
  repeat' first | with_reducible first | assumption | (apply ite_kept <;> intro _) | simp only [mk_kept, mk_kept_nv] | (with_reducible refine foldl_kept _ _ (fun _ _ _ => ?_) ?_ <;> try dsimp only) | (split <;> try dsimp only)

theorem State.shoreWrite_kept {ci : Bool} {s0 s : State} (reason : Nat) (hk : Kept true true ci s0 s) : Kept true true ci s0 (State.shoreWrite s reason) := by
  unfold State.shoreWrite
  try dsimp only
  repeat' first | with_reducible first | assumption | (apply ite_kept <;> intro _) | simp only [mk_kept, mk_kept_nv] | apply State.wrBytes_kept | (split <;> try dsimp only)

theorem State.shore_kept {ci : Bool} {s0 s : State} (reason : Nat) (hk : Kept true true ci s0 s) : Kept true true ci s0 (State.shore s reason) := by
  unfold State.shore
  try dsimp only
  repeat' first | with_reducible first | assumption | (apply ite_kept <;> intro _) | simp only [mk_kept, mk_kept_nv] | apply State.shoreWrite_kept | apply State.logS_kept | (split <;> try dsimp only)

theorem State.shoreCatch_kept {ci : Bool} {s0 s : State} (hk : Kept true true ci s0 s) : Kept true true ci s0 (State.shoreCatch s) := by
  unfold State.shoreCatch
  try dsimp only
  repeat' first | with_reducible first | assumption | (apply ite_kept <;> intro _) | simp only [mk_kept, mk_kept_nv] | apply State.shore_kept | (split <;> try dsimp only)

theorem doShorePeriodic_kept {ci : Bool} {s0 s : State} (hk : Kept true true ci s0 s) : Kept true true ci s0 (doShorePeriodic s) := by
  unfold doShorePeriodic
  try dsimp only
  repeat' first | with_reducible first | assumption | (apply ite_kept <;> intro _) | simp only [mk_kept, mk_kept_nv] | apply State.shoreWrite_kept | (split <;> try dsimp only)

theorem doShoreGapEnd_kept {ci : Bool} {s0 s : State} (hk : Kept true true ci s0 s) : Kept true true ci s0 (doShoreGapEnd s) := by
  unfold doShoreGapEnd
  try dsimp only
  repeat' first | with_reducible first | assumption | (apply ite_kept <;> intro _) | simp only [mk_kept, mk_kept_nv] | apply State.shore_kept | (split <;> try dsimp only)

theorem doHibernateGraceEnd_kept {ci : Bool} {s0 s : State} (hk : Kept true true ci s0 s) : Kept true true ci s0 (doHibernateGraceEnd s) := by
  unfold doHibernateGraceEnd
  try dsimp only
  repeat' first | with_reducible first | assumption | (apply ite_kept <;> intro _) | simp only [mk_kept, mk_kept_nv] | apply State.shore_kept | apply State.tallyCommit_kept | apply State.wrN_kept | apply State.stopFeed_kept | apply State.coreOff_kept | apply State.setBit_kept | (with_reducible refine foldl_kept _ _ (fun _ _ _ => ?_) ?_ <;> try dsimp only) | (split <;> try dsimp only)

end Sys2Proof.Machine
end

