-- ==== Sys2Proof/Laws/KeptConsole.lean ====
section
/-!
SUPPORT. The consoles, staging, sessions, the life cycle and the crew keep the queue, the canonical registers and the canonical memory: one lemma per operation, each from the lemmas of the operations it calls.
-/

namespace Sys2Proof.Machine

theorem State.leaveLevel_kept {cm cn ci : Bool} {s0 s : State} (p : Nat) (cause : Nat) (hk : Kept cm cn ci s0 s) : Kept cm cn ci s0 (State.leaveLevel s p cause) := by
  unfold State.leaveLevel
  try dsimp only
  repeat' first | with_reducible first | assumption | (apply ite_kept <;> intro _) | simp only [mk_kept] | apply State.freeHelmOf_kept | (split <;> try dsimp only)

theorem State.toView_kept {cm cn ci : Bool} {s0 s : State} (p : Nat) (cause : Nat) (helmCause : Nat) (hk : Kept cm cn ci s0 s) : Kept cm cn ci s0 (State.toView s p cause helmCause) := by
  unfold State.toView
  try dsimp only
  repeat' first | with_reducible first | assumption | (apply ite_kept <;> intro _) | simp only [mk_kept] | apply State.leaveLevel_kept | apply State.setCon_kept | apply State.logS0_kept | (split <;> try dsimp only)

theorem State.rise_kept {cm cn ci : Bool} {s0 s : State} (p : Nat) (l : Level) (hk : Kept cm cn ci s0 s) : Kept cm cn ci s0 (State.rise s p l) := by
  unfold State.rise
  try dsimp only
  repeat' first | with_reducible first | assumption | (apply ite_kept <;> intro _) | simp only [mk_kept] | apply State.leaveLevel_kept | apply State.setCon_kept | apply State.logS0_kept | apply State.hibCancel_kept | apply State.setHelm_kept | (split <;> try dsimp only)

theorem State.takeLine_kept {cm cn ci : Bool} {s0 s : State} (p : Nat) (hk : Kept cm cn ci s0 s) : Kept cm cn ci s0 (State.takeLine s p).2 := by
  unfold State.takeLine
  try dsimp only
  repeat' first | with_reducible first | assumption | (apply ite_kept <;> intro _) | simp only [mk_kept] | apply State.setCon_kept | (split <;> try dsimp only)

theorem State.noteService_kept {cm cn ci : Bool} {s0 s : State} (p : Nat) (hk : Kept cm cn ci s0 s) : Kept cm cn ci s0 (State.noteService s p) := by
  unfold State.noteService
  try dsimp only
  repeat' first | with_reducible first | assumption | (apply ite_kept <;> intro _) | simp only [mk_kept] | (split <;> try dsimp only)

theorem State.ianel_kept {cm cn ci : Bool} {s0 s : State} (p : Nat) (ok : Level → Bool) (act : State → Option String → State) (hk : Kept cm cn ci s0 s) (hact : ∀ t tag, Kept cm cn ci s0 t → Kept cm cn ci s0 (act t tag)) : Kept cm cn ci s0 (State.ianel s p ok act) := by
  unfold State.ianel
  have h1 := State.takeLine_kept p hk
  dsimp only
  split
  · exact hk
  · split
    · exact State.say_kept _ _ _ h1
    · split
      · exact State.say_kept _ _ _ h1
      · exact hact _ _ (State.noteService_kept _ h1)

theorem State.report_kept {cm cn ci : Bool} {s0 s : State} (p : Nat) (f : State → List String) (hk : Kept cm cn ci s0 s) : Kept cm cn ci s0 (State.report s p f) := by
  unfold State.report
  try dsimp only
  repeat' first | with_reducible first | assumption | (apply ite_kept <;> intro _) | simp only [mk_kept] | apply State.ianel_kept | apply State.say_kept | (intro _ _ _; try dsimp only) | (split <;> try dsimp only)

theorem State.pump_kept {cm cn ci : Bool} {s0 s : State} (p : Nat) (hk : Kept cm cn ci s0 s) : Kept cm cn ci s0 (State.pump s p) := by
  unfold State.pump
  try dsimp only
  repeat' first | with_reducible first | assumption | (apply ite_kept <;> intro _) | simp only [mk_kept] | apply State.setCon_kept | apply State.showCon_kept | (split <;> try dsimp only)

theorem State.flushNotices_kept {cm cn ci : Bool} {s0 s : State} (p : Nat) (hk : Kept cm cn ci s0 s) : Kept cm cn ci s0 (State.flushNotices s p) := by
  unfold State.flushNotices
  try dsimp only
  repeat' first | with_reducible first | assumption | (apply ite_kept <;> intro _) | simp only [mk_kept] | apply State.setCon_kept | (with_reducible refine foldl_kept _ _ (fun _ _ _ => ?_) ?_ <;> try dsimp only) | (split <;> try dsimp only)

theorem State.bare_kept {cm cn ci : Bool} {s0 s : State} (p : Nat) (t : String) (hk : Kept cm cn ci s0 s) : Kept cm cn ci s0 (State.bare s p t) := by
  unfold State.bare
  try dsimp only
  repeat' first | with_reducible first | assumption | (apply ite_kept <;> intro _) | simp only [mk_kept] | apply State.setCon_kept | (split <;> try dsimp only)

theorem State.writeRecord_kept {cn ci : Bool} {s0 s : State} (conf : Option (List Byte)) (hk : Kept true cn ci s0 s) : Kept true cn ci s0 (State.writeRecord s conf) := by
  unfold State.writeRecord
  try dsimp only
  repeat' first | with_reducible first | assumption | (apply ite_kept <;> intro _) | simp only [mk_kept] | apply State.wrBytes_kept | (with_reducible refine foldl_kept _ _ (fun _ _ _ => ?_) ?_ <;> try dsimp only) | (split <;> try dsimp only)

theorem State.stagePairs_kept {ci : Bool} {s0 s : State} (src : Nat) (pairs : List (PKey × PVal)) (hk : Kept true true ci s0 s) : Kept true true ci s0 (State.stagePairs s src pairs).2 := by
  unfold State.stagePairs
  try dsimp only
  repeat' first | with_reducible first | assumption | (apply ite_kept <;> intro _) | simp only [mk_kept, mk_kept_nv] | apply State.logS_kept | apply State.writeRecord_kept | (split <;> try dsimp only)

theorem doSetParams_kept {ci : Bool} {s0 s : State} (port : Nat) (pairs : List (PKey × PVal)) (hk : Kept true true ci s0 s) : Kept true true ci s0 (doSetParams s port pairs) := by
  unfold doSetParams
  try dsimp only
  repeat' first | with_reducible first | assumption | (apply ite_kept <;> intro _) | simp only [mk_kept, mk_kept_nv] | apply State.ianel_kept | apply State.say_kept | apply State.stagePairs_kept | (intro _ _ _; try dsimp only) | (split <;> try dsimp only) | grind [State.stagePairs_kept]

theorem doStageShow_kept {cm cn ci : Bool} {s0 s : State} (port : Nat) (hk : Kept cm cn ci s0 s) : Kept cm cn ci s0 (doStageShow s port) := by
  unfold doStageShow
  try dsimp only
  repeat' first | with_reducible first | assumption | (apply ite_kept <;> intro _) | simp only [mk_kept] | apply State.report_kept | (split <;> try dsimp only)

theorem doStageCheck_kept {cm cn ci : Bool} {s0 s : State} (port : Nat) (hk : Kept cm cn ci s0 s) : Kept cm cn ci s0 (doStageCheck s port) := by
  unfold doStageCheck
  try dsimp only
  repeat' first | with_reducible first | assumption | (apply ite_kept <;> intro _) | simp only [mk_kept] | apply State.report_kept | (split <;> try dsimp only)

theorem doStageDump_kept {cm cn ci : Bool} {s0 s : State} (port : Nat) (hk : Kept cm cn ci s0 s) : Kept cm cn ci s0 (doStageDump s port) := by
  unfold doStageDump
  try dsimp only
  repeat' first | with_reducible first | assumption | (apply ite_kept <;> intro _) | simp only [mk_kept] | apply State.report_kept | (split <;> try dsimp only)

theorem doStageDrop_kept {ci : Bool} {s0 s : State} (port : Nat) (hk : Kept true true ci s0 s) : Kept true true ci s0 (doStageDrop s port) := by
  unfold doStageDrop
  try dsimp only
  repeat' first | with_reducible first | assumption | (apply ite_kept <;> intro _) | simp only [mk_kept, mk_kept_nv] | apply State.ianel_kept | apply State.say_kept | apply State.logS_kept | apply State.writeRecord_kept | (intro _ _ _; try dsimp only) | (split <;> try dsimp only)

theorem State.logHashes_kept {cm cn ci : Bool} {s0 s : State} (changed : List PKey) (hk : Kept cm cn ci s0 s) : Kept cm cn ci s0 (State.logHashes s changed) := by
  unfold State.logHashes
  try dsimp only
  repeat' first | with_reducible first | assumption | (apply ite_kept <;> intro _) | simp only [mk_kept] | apply State.logS0_kept | (with_reducible refine foldl_kept _ _ (fun _ _ _ => ?_) ?_ <;> try dsimp only) | (split <;> try dsimp only)

theorem State.showHashes_kept {cm cn ci : Bool} {s0 s : State} (hk : Kept cm cn ci s0 s) : Kept cm cn ci s0 (State.showHashes s) := by
  unfold State.showHashes
  try dsimp only
  repeat' first | with_reducible first | assumption | (apply ite_kept <;> intro _) | simp only [mk_kept] | apply State.wrN_kept | (with_reducible refine foldl_kept _ _ (fun _ _ _ => ?_) ?_ <;> try dsimp only) | (split <;> try dsimp only)

theorem State.confirmCheck_kept {cm ci : Bool} {s0 s : State} (src : Nat) (check : Nat) (hk : Kept cm true ci s0 s) : Kept cm true ci s0 (State.confirmCheck s src check).2 := by
  unfold State.confirmCheck
  try dsimp only
  repeat' first | with_reducible first | assumption | (apply ite_kept <;> intro _) | simp only [mk_kept, mk_kept_nv] | apply State.logS0_kept | apply State.logHashes_kept | apply State.showHashes_kept | apply State.logS_kept | apply State.writeSlots_kept | apply State.loadGrants_kept | (with_reducible refine foldl_kept _ _ (fun _ _ _ => ?_) ?_ <;> try dsimp only) | (split <;> try dsimp only)

theorem doConfirm_kept {ci : Bool} {s0 s : State} (port : Nat) (check : Word) (hk : Kept true true ci s0 s) : Kept true true ci s0 (doConfirm s port check) := by
  unfold doConfirm
  try dsimp only
  repeat' first | with_reducible first | assumption | (apply ite_kept <;> intro _) | simp only [mk_kept, mk_kept_nv] | apply State.ianel_kept | apply State.say_kept | apply State.confirmCheck_kept | apply State.writeRecord_kept | (intro _ _ _; try dsimp only) | (split <;> try dsimp only) | grind [State.confirmCheck_kept]

theorem doTagConfirmation_kept {ci : Bool} {s0 s : State} (hk : Kept true true ci s0 s) : Kept true true ci s0 (doTagConfirmation s) := by
  unfold doTagConfirmation
  try dsimp only
  repeat' first | with_reducible first | assumption | (apply ite_kept <;> intro _) | simp only [mk_kept, mk_kept_nv] | apply State.setTag_kept | apply State.logS_kept | apply State.confirmCheck_kept | apply State.logS0_kept | apply State.writeRecord_kept | (split <;> try dsimp only) | grind [State.confirmCheck_kept]

theorem State.randWord_kept {cm cn ci : Bool} {s0 s : State} (hk : Kept cm cn ci s0 s) : Kept cm cn ci s0 (State.randWord s).2 := by
  unfold State.randWord
  try dsimp only
  repeat' first | with_reducible first | assumption | (apply ite_kept <;> intro _) | simp only [mk_kept] | apply State.free_kept | (split <;> try dsimp only) | grind [State.free_kept]

theorem State.newChallenge_kept {cm cn ci : Bool} {s0 s : State} (hk : Kept cm cn ci s0 s) : Kept cm cn ci s0 (State.newChallenge s).2 := by
  unfold State.newChallenge
  try dsimp only
  repeat' first | with_reducible first | assumption | (apply ite_kept <;> intro _) | simp only [mk_kept] | apply State.randWord_kept | apply State.wrN_kept | (split <;> try dsimp only) | grind [State.randWord_kept]

theorem State.showAuth_kept {cm cn ci : Bool} {s0 s : State} (purpose : Nat) (slot : Option Nat) (hk : Kept cm cn ci s0 s) : Kept cm cn ci s0 (State.showAuth s purpose slot) := by
  unfold State.showAuth
  try dsimp only
  repeat' first | with_reducible first | assumption | (apply ite_kept <;> intro _) | simp only [mk_kept] | apply State.wrN_kept | apply State.free_kept | (split <;> try dsimp only) | grind [State.free_kept]

theorem State.setFails_kept {cm ci : Bool} {s0 s : State} (p : Nat) (l : List Nat) (hk : Kept cm true ci s0 s) : Kept cm true ci s0 (State.setFails s p l) := by
  unfold State.setFails
  try dsimp only
  repeat' first | with_reducible first | assumption | (apply ite_kept <;> intro _) | simp only [mk_kept, mk_kept_nv] | (split <;> try dsimp only)

theorem State.setLocked_kept {cm ci : Bool} {s0 s : State} (p : Nat) (v : Bool) (hk : Kept cm true ci s0 s) : Kept cm true ci s0 (State.setLocked s p v) := by
  unfold State.setLocked
  try dsimp only
  repeat' first | with_reducible first | assumption | (apply ite_kept <;> intro _) | simp only [mk_kept, mk_kept_nv] | (split <;> try dsimp only)

theorem State.loginFailed_kept {cm ci : Bool} {s0 s : State} (p : Nat) (l : Level) (hk : Kept cm true ci s0 s) : Kept cm true ci s0 (State.loginFailed s p l) := by
  unfold State.loginFailed
  try dsimp only
  repeat' first | with_reducible first | assumption | (apply ite_kept <;> intro _) | simp only [mk_kept, mk_kept_nv] | apply State.setFails_kept | apply State.logS_kept | apply State.setLocked_kept | apply State.freeHelmOf_kept | (split <;> try dsimp only)

theorem State.loginOk_kept {cm ci : Bool} {s0 s : State} (p : Nat) (l : Level) (hk : Kept cm true ci s0 s) : Kept cm true ci s0 (State.loginOk s p l) := by
  unfold State.loginOk
  try dsimp only
  repeat' first | with_reducible first | assumption | (apply ite_kept <;> intro _) | simp only [mk_kept, mk_kept_nv] | apply State.setFails_kept | apply State.rise_kept | (split <;> try dsimp only)

theorem State.loginCode_kept {cm ci : Bool} {s0 s : State} (p : Nat) (l : Level) (k : Nat) (code : Nat) (hk : Kept cm true ci s0 s) : Kept cm true ci s0 (State.loginCode s p l k code) := by
  unfold State.loginCode
  try dsimp only
  repeat' first | with_reducible first | assumption | (apply ite_kept <;> intro _) | simp only [mk_kept, mk_kept_nv] | apply State.ianel_kept | apply State.say_kept | apply State.loginOk_kept | apply State.loginFailed_kept | (intro _ _ _; try dsimp only) | (split <;> try dsimp only)

theorem doLoginInstaller_kept {cm ci : Bool} {s0 s : State} (port : Nat) (code : Nat) (hk : Kept cm true ci s0 s) : Kept cm true ci s0 (doLoginInstaller s port code) := by
  unfold doLoginInstaller
  try dsimp only
  repeat' first | with_reducible first | assumption | (apply ite_kept <;> intro _) | simp only [mk_kept, mk_kept_nv] | apply State.loginCode_kept | (split <;> try dsimp only)

theorem doLoginTenant_kept {cm ci : Bool} {s0 s : State} (port : Nat) (k : Nat) (code : Nat) (hk : Kept cm true ci s0 s) : Kept cm true ci s0 (doLoginTenant s port k code) := by
  unfold doLoginTenant
  try dsimp only
  repeat' first | with_reducible first | assumption | (apply ite_kept <;> intro _) | simp only [mk_kept, mk_kept_nv] | apply State.ianel_kept | apply State.say_kept | apply State.loginCode_kept | (intro _ _ _; try dsimp only) | (split <;> try dsimp only)

theorem doLoginService_kept {cm cn ci : Bool} {s0 s : State} (port : Nat) (hk : Kept cm cn ci s0 s) : Kept cm cn ci s0 (doLoginService s port) := by
  unfold doLoginService
  try dsimp only
  repeat' first | with_reducible first | assumption | (apply ite_kept <;> intro _) | simp only [mk_kept] | apply State.ianel_kept | apply State.say_kept | apply State.newChallenge_kept | apply State.setCon_kept | (intro _ _ _; try dsimp only) | (split <;> try dsimp only) | grind [State.newChallenge_kept]

theorem doAuth_kept {cm ci : Bool} {s0 s : State} (port : Nat) (id : Nat) (sig : List Byte) (hk : Kept cm true ci s0 s) : Kept cm true ci s0 (doAuth s port id sig) := by
  unfold doAuth
  try dsimp only
  repeat' first | with_reducible first | assumption | (apply ite_kept <;> intro _) | simp only [mk_kept, mk_kept_nv] | apply State.ianel_kept | apply State.say_kept | apply State.setCon_kept | apply State.showAuth_kept | apply State.logS0_kept | apply State.loginOk_kept | apply State.logS_kept | apply State.loginFailed_kept | (intro _ _ _; try dsimp only) | (split <;> try dsimp only)

theorem doChallengeExpire_kept {cm cn ci : Bool} {s0 s : State} (port : Nat) (hk : Kept cm cn ci s0 s) : Kept cm cn ci s0 (doChallengeExpire s port) := by
  unfold doChallengeExpire
  try dsimp only
  repeat' first | with_reducible first | assumption | (apply ite_kept <;> intro _) | simp only [mk_kept] | apply State.setCon_kept | (split <;> try dsimp only)

theorem doLoginLockoutEnd_kept {cm ci : Bool} {s0 s : State} (port : Nat) (hk : Kept cm true ci s0 s) : Kept cm true ci s0 (doLoginLockoutEnd s port) := by
  unfold doLoginLockoutEnd
  try dsimp only
  repeat' first | with_reducible first | assumption | (apply ite_kept <;> intro _) | simp only [mk_kept, mk_kept_nv] | apply State.setLocked_kept | (with_reducible refine foldl_kept _ _ (fun _ _ _ => ?_) ?_ <;> try dsimp only) | (split <;> try dsimp only)

theorem doLogout_kept {cm cn ci : Bool} {s0 s : State} (port : Nat) (hk : Kept cm cn ci s0 s) : Kept cm cn ci s0 (doLogout s port) := by
  unfold doLogout
  try dsimp only
  repeat' first | with_reducible first | assumption | (apply ite_kept <;> intro _) | simp only [mk_kept] | apply State.ianel_kept | apply State.toView_kept | apply State.say_kept | (intro _ _ _; try dsimp only) | (split <;> try dsimp only)

theorem doSessionIdle_kept {cm cn ci : Bool} {s0 s : State} (port : Nat) (hk : Kept cm cn ci s0 s) : Kept cm cn ci s0 (doSessionIdle s port) := by
  unfold doSessionIdle
  try dsimp only
  repeat' first | with_reducible first | assumption | (apply ite_kept <;> intro _) | simp only [mk_kept] | apply State.toView_kept | (split <;> try dsimp only)

theorem doWhoami_kept {cm cn ci : Bool} {s0 s : State} (port : Nat) (hk : Kept cm cn ci s0 s) : Kept cm cn ci s0 (doWhoami s port) := by
  unfold doWhoami
  try dsimp only
  repeat' first | with_reducible first | assumption | (apply ite_kept <;> intro _) | simp only [mk_kept] | apply State.report_kept | (split <;> try dsimp only)

theorem doPasscode_kept {cm ci : Bool} {s0 s : State} (port : Nat) (k : Nat) (code : Nat) (hk : Kept cm true ci s0 s) : Kept cm true ci s0 (doPasscode s port k code) := by
  unfold doPasscode
  try dsimp only
  repeat' first | with_reducible first | assumption | (apply ite_kept <;> intro _) | simp only [mk_kept, mk_kept_nv] | apply State.ianel_kept | apply State.say_kept | (intro _ _ _; try dsimp only) | (split <;> try dsimp only)

theorem doPing_kept {cm cn ci : Bool} {s0 s : State} (port : Nat) (hk : Kept cm cn ci s0 s) : Kept cm cn ci s0 (doPing s port) := by
  unfold doPing
  try dsimp only
  repeat' first | with_reducible first | assumption | (apply ite_kept <;> intro _) | simp only [mk_kept] | apply State.report_kept | (split <;> try dsimp only)

theorem State.configureKpa_kept {cm cn ci : Bool} {s0 s : State} (hk : Kept cm cn ci s0 s) : Kept cm cn ci s0 (State.configureKpa s) := by
  unfold State.configureKpa
  try dsimp only
  repeat' first | with_reducible first | assumption | (apply ite_kept <;> intro _) | simp only [mk_kept] | apply State.wrN_kept | apply State.setBit_kept | apply State.auxWritten_kept | (split <;> try dsimp only)

theorem State.configureMeas_kept {cm cn ci : Bool} {s0 s : State} (hk : Kept cm cn ci s0 s) : Kept cm cn ci s0 (State.configureMeas s) := by
  unfold State.configureMeas
  try dsimp only
  repeat' first | with_reducible first | assumption | (apply ite_kept <;> intro _) | simp only [mk_kept] | apply State.setBit_kept | apply State.setFld_kept | (with_reducible refine foldl_kept _ _ (fun _ _ _ => ?_) ?_ <;> try dsimp only) | (split <;> try dsimp only)

theorem State.configureCoils_kept {cm cn ci : Bool} {s0 s : State} (hk : Kept cm cn ci s0 s) : Kept cm cn ci s0 (State.configureCoils s) := by
  unfold State.configureCoils
  try dsimp only
  repeat' first | with_reducible first | assumption | (apply ite_kept <;> intro _) | simp only [mk_kept] | apply State.wrN_kept | apply State.setBit_kept | apply State.sinSourceSet_kept | apply State.setFld_kept | (with_reducible refine foldl_kept _ _ (fun _ _ _ => ?_) ?_ <;> try dsimp only) | (split <;> try dsimp only)

theorem State.configureParts_kept {cm cn ci : Bool} {s0 s : State} (hk : Kept cm cn ci s0 s) : Kept cm cn ci s0 (State.configureParts s) := by
  unfold State.configureParts
  try dsimp only
  repeat' first | with_reducible first | assumption | (apply ite_kept <;> intro _) | simp only [mk_kept] | apply State.wrN_kept | apply State.loadGrants_kept | (with_reducible refine foldl_kept _ _ (fun _ _ _ => ?_) ?_ <;> try dsimp only) | (split <;> try dsimp only)

theorem State.canTiming_kept {cm cn ci : Bool} {s0 s : State} (x : Nat) (n : Option (Nat × Nat × Nat)) (d : Option (Nat × Nat × Nat)) (hk : Kept cm cn ci s0 s) : Kept cm cn ci s0 (State.canTiming s x n d) := by
  unfold State.canTiming
  try dsimp only
  repeat' first | with_reducible first | assumption | (apply ite_kept <;> intro _) | simp only [mk_kept] | apply State.wrN_kept | (split <;> try dsimp only)

theorem State.canMatrixInto_kept {cm cn ci : Bool} {s0 s : State} (x : Nat) (cycles : Nat) (cols : List (Nat × Nat)) (cells : List (Nat × Nat × Nat × Nat)) (hk : Kept cm cn ci s0 s) : Kept cm cn ci s0 (State.canMatrixInto s x cycles cols cells) := by
  unfold State.canMatrixInto
  exact State.setFld_kept _ _ _ _ (foldl_kept _ _ (fun _ _ h => State.setFld_kept _ _ _ _ h)
    (dropRegs_kept _ (foldl_kept _ _ (fun _ _ h => State.wrN_kept _ _ h) hk)))

theorem State.configureCan_kept {cm cn ci : Bool} {s0 s : State} (x : Nat) (hk : Kept cm cn ci s0 s) : Kept cm cn ci s0 (State.configureCan s x) := by
  unfold State.configureCan
  try dsimp only
  repeat' first | with_reducible first | assumption | (apply ite_kept <;> intro _) | simp only [mk_kept] | apply State.canTiming_kept | apply State.canMatrixInto_kept | apply State.setBit_kept | apply State.canCtrl_kept | (split <;> try dsimp only)

theorem State.crewMatrix_kept {cm cn ci : Bool} {s0 s : State} (hk : Kept cm cn ci s0 s) : Kept cm cn ci s0 (State.crewMatrix s) := by
  unfold State.crewMatrix
  try dsimp only
  repeat' first | with_reducible first | assumption | (apply ite_kept <;> intro _) | simp only [mk_kept] | apply State.canMatrixInto_kept | apply State.setBit_kept | (split <;> try dsimp only)

theorem State.configureCrew_kept {cm cn ci : Bool} {s0 s : State} (hk : Kept cm cn ci s0 s) : Kept cm cn ci s0 (State.configureCrew s) := by
  unfold State.configureCrew
  try dsimp only
  repeat' first | with_reducible first | assumption | (apply ite_kept <;> intro _) | simp only [mk_kept] | apply State.setBit_kept | apply State.canTiming_kept | apply State.crewMatrix_kept | apply State.wrN_kept | apply State.canCtrl_kept | (split <;> try dsimp only)

theorem State.configureCon_kept {cm cn ci : Bool} {s0 s : State} (p : Nat) (hk : Kept cm cn ci s0 s) : Kept cm cn ci s0 (State.configureCon s p) := by
  unfold State.configureCon
  try dsimp only
  repeat' first | with_reducible first | assumption | (apply ite_kept <;> intro _) | simp only [mk_kept] | apply State.wrN_kept | apply State.setBit_kept | (split <;> try dsimp only)

theorem State.configureQp_kept {cm cn ci : Bool} {s0 s : State} (hk : Kept cm cn ci s0 s) : Kept cm cn ci s0 (State.configureQp s) := by
  unfold State.configureQp
  try dsimp only
  repeat' first | with_reducible first | assumption | (apply ite_kept <;> intro _) | simp only [mk_kept] | apply State.setBit_kept | apply State.wrN_kept | (with_reducible refine foldl_kept _ _ (fun _ _ _ => ?_) ?_ <;> try dsimp only) | (split <;> try dsimp only)

theorem State.configureLinks_kept {cm cn ci : Bool} {s0 s : State} (hk : Kept cm cn ci s0 s) : Kept cm cn ci s0 (State.configureLinks s) := by
  unfold State.configureLinks
  try dsimp only
  repeat' first | with_reducible first | assumption | (apply ite_kept <;> intro _) | simp only [mk_kept] | apply State.setFld_kept | (split <;> try dsimp only)

theorem State.configure_kept {cm cn ci : Bool} {s0 s : State} (hk : Kept cm cn ci s0 s) : Kept cm cn ci s0 (State.configure s) := by
  unfold State.configure
  try dsimp only
  repeat' first | with_reducible first | assumption | (apply ite_kept <;> intro _) | simp only [mk_kept] | apply State.configureKpa_kept | apply State.configureMeas_kept | apply State.configureCoils_kept | apply State.configureParts_kept | apply State.configureCan_kept | apply State.configureCrew_kept | apply State.configureCon_kept | apply State.configureQp_kept | apply State.configureLinks_kept | apply State.showHashes_kept | (split <;> try dsimp only)

theorem State.applyConfirmed_kept {cm cn : Bool} {s0 s : State} (hk : Kept cm cn true s0 s) : Kept cm cn true s0 (State.applyConfirmed s) := by
  unfold State.applyConfirmed
  try dsimp only
  repeat' first | with_reducible first | assumption | (apply ite_kept <;> intro _) | simp only [mk_kept, mk_kept_force] | apply State.applyAt_kept | apply State.configure_kept | (split <;> try dsimp only)

theorem State.lcsRefused_kept {cm cn ci : Bool} {s0 s : State} (target : Nat) (cond : Nat) (hk : Kept cm cn ci s0 s) : Kept cm cn ci s0 (State.lcsRefused s target cond) := by
  unfold State.lcsRefused
  try dsimp only
  repeat' first | with_reducible first | assumption | (apply ite_kept <;> intro _) | simp only [mk_kept] | apply State.logS0_kept | (split <;> try dsimp only)

theorem State.writeLcs_kept {cm ci : Bool} {s0 s : State} (hk : Kept cm true ci s0 s) : Kept cm true ci s0 (State.writeLcs s) := by
  unfold State.writeLcs
  try dsimp only
  repeat' first | with_reducible first | assumption | (apply ite_kept <;> intro _) | simp only [mk_kept, mk_kept_nv] | (split <;> try dsimp only)

theorem State.beginTransition_kept {ci : Bool} {s0 s : State} (target : Nat) (wipe : Nat) (hk : Kept true true ci s0 s) : Kept true true ci s0 (State.beginTransition s target wipe) := by
  unfold State.beginTransition
  try dsimp only
  repeat' first | with_reducible first | assumption | (apply ite_kept <;> intro _) | simp only [mk_kept, mk_kept_nv] | apply State.tallyCommit_kept | apply State.setFld_kept | apply State.wrN_kept | apply State.setBit_kept | apply State.writeLcs_kept | (split <;> try dsimp only)

theorem doLcsRequest_kept {ci : Bool} {s0 s : State} (value : Word) (hk : Kept true true ci s0 s) : Kept true true ci s0 (doLcsRequest s value) := by
  unfold doLcsRequest
  try dsimp only
  repeat' first | with_reducible first | assumption | (apply ite_kept <;> intro _) | simp only [mk_kept, mk_kept_nv] | apply State.beginTransition_kept | apply State.lcsRefused_kept | (split <;> try dsimp only)

theorem State.wipe_kept {ci : Bool} {s0 s : State} (w : Nat) (hk : Kept true true ci s0 s) : Kept true true ci s0 (State.wipe s w) := by
  unfold State.wipe
  try dsimp only
  repeat' first | with_reducible first | assumption | (apply ite_kept <;> intro _) | simp only [mk_kept, mk_kept_nv] | apply State.wipeTagU_kept | apply State.wipeTagC_kept | (split <;> try dsimp only)

theorem State.finishTransition_kept {s0 s : State} (code : Nat) (target : Nat) (wipe : Nat) (hk : Kept true true true s0 s) : Kept true true true s0 (State.finishTransition s code target wipe) := by
  unfold State.finishTransition
  try dsimp only
  repeat' first | with_reducible first | assumption | (apply ite_kept <;> intro _) | simp only [mk_kept, mk_kept_nv, mk_kept_force, mk_kept_both] | apply State.wipe_kept | apply State.setFld_kept | apply State.incSat_kept | apply State.writeLcs_kept | apply State.setBit_kept | apply State.orReg_kept | apply State.writeRecord_kept | apply State.logS_kept | apply State.assertReset_kept | (split <;> try dsimp only)

theorem doLcsTransitionComplete_kept {s0 s : State} (hk : Kept true true true s0 s) : Kept true true true s0 (doLcsTransitionComplete s) := by
  unfold doLcsTransitionComplete
  try dsimp only
  repeat' first | with_reducible first | assumption | (apply ite_kept <;> intro _) | simp only [mk_kept, mk_kept_nv, mk_kept_force, mk_kept_both] | apply State.finishTransition_kept | (split <;> try dsimp only)

theorem State.lcsCommand_kept {ci : Bool} {s0 s : State} (p : Nat) (target : Nat) (own : State → Nat) (hk : Kept true true ci s0 s) : Kept true true ci s0 (State.lcsCommand s p target own) := by
  unfold State.lcsCommand
  try dsimp only
  repeat' first | with_reducible first | assumption | (apply ite_kept <;> intro _) | simp only [mk_kept, mk_kept_nv] | apply State.ianel_kept | apply State.say_kept | apply State.lcsRefused_kept | apply State.beginTransition_kept | (intro _ _ _; try dsimp only) | (split <;> try dsimp only)

theorem doLcsCommission_kept {ci : Bool} {s0 s : State} (port : Nat) (code : Nat) (hk : Kept true true ci s0 s) : Kept true true ci s0 (doLcsCommission s port code) := by
  unfold doLcsCommission
  try dsimp only
  repeat' first | with_reducible first | assumption | (apply ite_kept <;> intro _) | simp only [mk_kept, mk_kept_nv] | apply State.lcsCommand_kept | (split <;> try dsimp only)

theorem doLcsBlank_kept {ci : Bool} {s0 s : State} (port : Nat) (hk : Kept true true ci s0 s) : Kept true true ci s0 (doLcsBlank s port) := by
  unfold doLcsBlank
  try dsimp only
  repeat' first | with_reducible first | assumption | (apply ite_kept <;> intro _) | simp only [mk_kept, mk_kept_nv] | apply State.lcsCommand_kept | (split <;> try dsimp only)

theorem doLcsSeal_kept {ci : Bool} {s0 s : State} (port : Nat) (hk : Kept true true ci s0 s) : Kept true true ci s0 (doLcsSeal s port) := by
  unfold doLcsSeal
  try dsimp only
  repeat' first | with_reducible first | assumption | (apply ite_kept <;> intro _) | simp only [mk_kept, mk_kept_nv] | apply State.lcsCommand_kept | (split <;> try dsimp only)

theorem doLcsService_kept {ci : Bool} {s0 s : State} (port : Nat) (hk : Kept true true ci s0 s) : Kept true true ci s0 (doLcsService s port) := by
  unfold doLcsService
  try dsimp only
  repeat' first | with_reducible first | assumption | (apply ite_kept <;> intro _) | simp only [mk_kept, mk_kept_nv] | apply State.lcsCommand_kept | (split <;> try dsimp only)

theorem doLcsRetire_kept {ci : Bool} {s0 s : State} (port : Nat) (hk : Kept true true ci s0 s) : Kept true true ci s0 (doLcsRetire s port) := by
  unfold doLcsRetire
  try dsimp only
  repeat' first | with_reducible first | assumption | (apply ite_kept <;> intro _) | simp only [mk_kept, mk_kept_nv] | apply State.lcsCommand_kept | (split <;> try dsimp only)

theorem State.serviceReturn_kept {ci : Bool} {s0 s : State} (hk : Kept true true ci s0 s) : Kept true true ci s0 (State.serviceReturn s) := by
  unfold State.serviceReturn
  try dsimp only
  repeat' first | with_reducible first | assumption | (apply ite_kept <;> intro _) | simp only [mk_kept, mk_kept_nv] | apply State.beginTransition_kept | apply State.lcsRefused_kept | (split <;> try dsimp only)

theorem doServiceTimeout_kept {ci : Bool} {s0 s : State} (hk : Kept true true ci s0 s) : Kept true true ci s0 (doServiceTimeout s) := by
  unfold doServiceTimeout
  try dsimp only
  repeat' first | with_reducible first | assumption | (apply ite_kept <;> intro _) | simp only [mk_kept, mk_kept_nv] | apply State.serviceReturn_kept | (split <;> try dsimp only)

theorem State.sendObj_kept {cm cn ci : Bool} {s0 s : State} (x : Nat) (o : Nat) (f : CanObj) (hk : Kept cm cn ci s0 s) : Kept cm cn ci s0 (State.sendObj s x o f) := by
  unfold State.sendObj
  try dsimp only
  repeat' first | with_reducible first | assumption | (apply ite_kept <;> intro _) | simp only [mk_kept] | apply State.txEnd_kept | apply State.setCan_kept | apply State.txRequestOne_kept | (split <;> try dsimp only)

theorem doCanaPeriodic_kept {cm cn ci : Bool} {s0 s : State} (hk : Kept cm cn ci s0 s) : Kept cm cn ci s0 (doCanaPeriodic s) := by
  unfold doCanaPeriodic
  try dsimp only
  repeat' first | with_reducible first | assumption | (apply ite_kept <;> intro _) | simp only [mk_kept] | apply State.sendObj_kept | (split <;> try dsimp only)

theorem State.canaWarning_kept {cm cn ci : Bool} {s0 s : State} (old : Nat) (hk : Kept cm cn ci s0 s) : Kept cm cn ci s0 (State.canaWarning s old) := by
  unfold State.canaWarning
  try dsimp only
  repeat' first | with_reducible first | assumption | (apply ite_kept <;> intro _) | simp only [mk_kept] | apply State.sendObj_kept | (split <;> try dsimp only)

theorem State.setCrew_kept {cm cn ci : Bool} {s0 s : State} (c : CrewSt) (hk : Kept cm cn ci s0 s) : Kept cm cn ci s0 (State.setCrew s c) := by
  unfold State.setCrew
  try dsimp only
  repeat' first | with_reducible first | assumption | (apply ite_kept <;> intro _) | simp only [mk_kept] | (split <;> try dsimp only)

theorem State.newLeader_kept {cm cn ci : Bool} {s0 s : State} (l : Nat) (cause : Nat) (hk : Kept cm cn ci s0 s) : Kept cm cn ci s0 (State.newLeader s l cause) := by
  unfold State.newLeader
  try dsimp only
  repeat' first | with_reducible first | assumption | (apply ite_kept <;> intro _) | simp only [mk_kept] | apply State.setCrew_kept | apply State.logS0_kept | (split <;> try dsimp only)

theorem State.setLock_kept {cm cn ci : Bool} {s0 s : State} (v : Bool) (hk : Kept cm cn ci s0 s) : Kept cm cn ci s0 (State.setLock s v) := by
  unfold State.setLock
  try dsimp only
  repeat' first | with_reducible first | assumption | (apply ite_kept <;> intro _) | simp only [mk_kept] | apply State.setCrew_kept | apply State.logS_kept | apply State.txAbortOne_kept | (split <;> try dsimp only)

theorem State.setDeputy_kept {cm cn ci : Bool} {s0 s : State} (v : Bool) (hk : Kept cm cn ci s0 s) : Kept cm cn ci s0 (State.setDeputy s v) := by
  unfold State.setDeputy
  try dsimp only
  repeat' first | with_reducible first | assumption | (apply ite_kept <;> intro _) | simp only [mk_kept] | apply State.setCrew_kept | apply State.setFld_kept | apply State.logS_kept | (split <;> try dsimp only)

theorem State.takeLead_kept {cm cn ci : Bool} {s0 s : State} (cause : Nat) (hk : Kept cm cn ci s0 s) : Kept cm cn ci s0 (State.takeLead s cause) := by
  unfold State.takeLead
  try dsimp only
  repeat' first | with_reducible first | assumption | (apply ite_kept <;> intro _) | simp only [mk_kept] | apply State.setDeputy_kept | apply State.newLeader_kept | apply State.setCrew_kept | apply State.setLock_kept | apply State.setFld_kept | (split <;> try dsimp only)

theorem State.duplicate_kept {cm cn ci : Bool} {s0 s : State} (hk : Kept cm cn ci s0 s) : Kept cm cn ci s0 (State.duplicate s) := by
  unfold State.duplicate
  try dsimp only
  repeat' first | with_reducible first | assumption | (apply ite_kept <;> intro _) | simp only [mk_kept] | apply State.setCrew_kept | apply State.setDeputy_kept | apply State.logS_kept | apply State.txAbort_kept | (split <;> try dsimp only)

theorem State.sendSummary_kept {cm cn ci : Bool} {s0 s : State} (ref : Nat) (hk : Kept cm cn ci s0 s) : Kept cm cn ci s0 (State.sendSummary s ref) := by
  unfold State.sendSummary
  try dsimp only
  repeat' first | with_reducible first | assumption | (apply ite_kept <;> intro _) | simp only [mk_kept] | apply State.txAbortOne_kept | apply State.sendObj_kept | (split <;> try dsimp only)

theorem State.sendJoin_kept {cm cn ci : Bool} {s0 s : State} (hk : Kept cm cn ci s0 s) : Kept cm cn ci s0 (State.sendJoin s) := by
  unfold State.sendJoin
  try dsimp only
  repeat' first | with_reducible first | assumption | (apply ite_kept <;> intro _) | simp only [mk_kept] | apply State.sendObj_kept | (split <;> try dsimp only)

theorem State.nextOrders_kept {cm cn ci : Bool} {s0 s : State} (hk : Kept cm cn ci s0 s) : Kept cm cn ci s0 (State.nextOrders s) := by
  unfold State.nextOrders
  try dsimp only
  repeat' first | with_reducible first | assumption | (apply ite_kept <;> intro _) | simp only [mk_kept] | apply State.sendObj_kept | (split <;> try dsimp only)

theorem State.nextOutcome_kept {cm cn ci : Bool} {s0 s : State} (hk : Kept cm cn ci s0 s) : Kept cm cn ci s0 (State.nextOutcome s) := by
  unfold State.nextOutcome
  try dsimp only
  repeat' first | with_reducible first | assumption | (apply ite_kept <;> intro _) | simp only [mk_kept] | apply State.sendObj_kept | (split <;> try dsimp only)

theorem State.crewSent_kept {cm cn ci : Bool} {s0 s : State} (o : Nat) (hk : Kept cm cn ci s0 s) : Kept cm cn ci s0 (State.crewSent s o) := by
  unfold State.crewSent
  try dsimp only
  repeat' first | with_reducible first | assumption | (apply ite_kept <;> intro _) | simp only [mk_kept] | apply State.setCrew_kept | apply State.nextOrders_kept | apply State.nextOutcome_kept | (split <;> try dsimp only)

theorem doTxEnd_kept {cm cn ci : Bool} {s0 s : State} (x : CanId) (ok : Bool) (lostArb : Bool) (lec : Nat) (hk : Kept cm cn ci s0 s) : Kept cm cn ci s0 (doTxEnd s x ok lostArb lec) := by
  unfold doTxEnd
  try dsimp only
  repeat' first | with_reducible first | assumption | (apply ite_kept <;> intro _) | simp only [mk_kept] | apply State.crewSent_kept | apply doTxAttemptEnd_kept | (split <;> try dsimp only)

theorem State.crewStroke_kept {cm cn ci : Bool} {s0 s : State} (ref : Nat) (hk : Kept cm cn ci s0 s) : Kept cm cn ci s0 (State.crewStroke s ref) := by
  unfold State.crewStroke
  try dsimp only
  repeat' first | with_reducible first | assumption | (apply ite_kept <;> intro _) | simp only [mk_kept] | apply State.sendSummary_kept | apply State.txAbortOne_kept | apply State.nextOrders_kept | apply State.nextOutcome_kept | apply State.sendJoin_kept | (split <;> try dsimp only)

theorem doCrewReferenceSend_kept {cm cn ci : Bool} {s0 s : State} (hk : Kept cm cn ci s0 s) : Kept cm cn ci s0 (doCrewReferenceSend s) := by
  unfold doCrewReferenceSend
  try dsimp only
  repeat' first | with_reducible first | assumption | (apply ite_kept <;> intro _) | simp only [mk_kept] | apply State.atUs_kept | apply State.setCan_kept | apply State.setBit_kept | apply State.wrN_kept | apply State.setFld_kept | apply State.setCrew_kept | apply State.crewStroke_kept | (split <;> try dsimp only)

theorem State.stray_kept {cm cn ci : Bool} {s0 s : State} (hk : Kept cm cn ci s0 s) : Kept cm cn ci s0 (State.stray s) := by
  unfold State.stray
  try dsimp only
  repeat' first | with_reducible first | assumption | (apply ite_kept <;> intro _) | simp only [mk_kept] | apply State.setCrew_kept | (split <;> try dsimp only)

theorem State.lockStep_kept {cm cn ci : Bool} {s0 s : State} (e : Int) (hk : Kept cm cn ci s0 s) : Kept cm cn ci s0 (State.lockStep s e) := by
  unfold State.lockStep
  try dsimp only
  repeat' first | with_reducible first | assumption | (apply ite_kept <;> intro _) | simp only [mk_kept] | apply State.setCrew_kept | apply State.setLock_kept | (split <;> try dsimp only)

theorem State.setRows_kept {cm cn ci : Bool} {s0 s : State} (stroke : Nat) (hk : Kept cm cn ci s0 s) : Kept cm cn ci s0 (State.setRows s stroke) := by
  unfold State.setRows
  try dsimp only
  repeat' first | with_reducible first | assumption | (apply ite_kept <;> intro _) | simp only [mk_kept] | apply State.setFld_kept | (split <;> try dsimp only)

theorem State.takeReference_kept {cm cn ci : Bool} {s0 s : State} (data : List Byte) (sof : Nat) (hk : Kept cm cn ci s0 s) : Kept cm cn ci s0 (State.takeReference s data sof) := by
  unfold State.takeReference
  try dsimp only
  repeat' first | with_reducible first | assumption | (apply ite_kept <;> intro _) | simp only [mk_kept] | apply State.setDeputy_kept | apply State.setCrew_kept | apply State.lockStep_kept | apply State.setRows_kept | apply State.newLeader_kept | apply State.logS_kept | apply State.txAbortOne_kept | apply State.crewStroke_kept | (with_reducible refine foldl_kept _ _ (fun _ _ _ => ?_) ?_ <;> try dsimp only) | (split <;> try dsimp only)

theorem doCrewReferenceReceived_kept {cm cn ci : Bool} {s0 s : State} (data : List Byte) (sof : Nat) (hk : Kept cm cn ci s0 s) : Kept cm cn ci s0 (doCrewReferenceReceived s data sof) := by
  unfold doCrewReferenceReceived
  try dsimp only
  repeat' first | with_reducible first | assumption | (apply ite_kept <;> intro _) | simp only [mk_kept] | apply State.wrN_kept | apply State.stray_kept | apply State.setCrew_kept | apply State.setBit_kept | apply State.takeReference_kept | (split <;> try dsimp only)

theorem doCrewReferenceMissing_kept {cm cn ci : Bool} {s0 s : State} (hk : Kept cm cn ci s0 s) : Kept cm cn ci s0 (doCrewReferenceMissing s) := by
  unfold doCrewReferenceMissing
  try dsimp only
  repeat' first | with_reducible first | assumption | (apply ite_kept <;> intro _) | simp only [mk_kept] | apply State.setDeputy_kept | apply State.setLock_kept | (split <;> try dsimp only)

theorem doCrewJoinReceived_kept {cm cn ci : Bool} {s0 s : State} (lane : Nat) (data : List Byte) (us : Nat) (hk : Kept cm cn ci s0 s) : Kept cm cn ci s0 (doCrewJoinReceived s lane data us) := by
  unfold doCrewJoinReceived
  try dsimp only
  repeat' first | with_reducible first | assumption | (apply ite_kept <;> intro _) | simp only [mk_kept] | apply State.stray_kept | apply State.duplicate_kept | apply State.setCrew_kept | (split <;> try dsimp only)

theorem State.admitLane_kept {cm cn ci : Bool} {s0 s : State} (j : Nat × Nat × Nat × Nat) (hk : Kept cm cn ci s0 s) : Kept cm cn ci s0 (State.admitLane s j) := by
  unfold State.admitLane
  try dsimp only
  repeat' first | with_reducible first | assumption | (apply ite_kept <;> intro _) | simp only [mk_kept] | apply State.logS_kept | apply State.setCrew_kept | (split <;> try dsimp only)

theorem State.crewWatch_kept {cm cn ci : Bool} {s0 s : State} (hk : Kept cm cn ci s0 s) : Kept cm cn ci s0 (State.crewWatch s) := by
  unfold State.crewWatch
  try dsimp only
  repeat' first | with_reducible first | assumption | (apply ite_kept <;> intro _) | simp only [mk_kept] | apply State.setCrew_kept | apply State.newLeader_kept | apply State.admitLane_kept | (with_reducible refine foldl_kept _ _ (fun _ _ _ => ?_) ?_ <;> try dsimp only) | (split <;> try dsimp only)

theorem State.crewInterval_kept {cm cn ci : Bool} {s0 s : State} (hk : Kept cm cn ci s0 s) : Kept cm cn ci s0 (State.crewInterval s) := by
  unfold State.crewInterval
  try dsimp only
  repeat' first | with_reducible first | assumption | (apply ite_kept <;> intro _) | simp only [mk_kept] | apply State.setBit_kept | apply State.canCtrl_kept | apply State.takeLead_kept | (split <;> try dsimp only)

theorem State.crewCatch_kept {cm cn ci : Bool} {s0 s : State} (hk : Kept cm cn ci s0 s) : Kept cm cn ci s0 (State.crewCatch s) := by
  unfold State.crewCatch
  try dsimp only
  repeat' first | with_reducible first | assumption | (apply ite_kept <;> intro _) | simp only [mk_kept] | apply State.setCrew_kept | apply State.takeLead_kept | apply State.sendJoin_kept | apply State.nextOutcome_kept | (split <;> try dsimp only)

theorem doCrewSummaryReceived_kept {cm cn ci : Bool} {s0 s : State} (lane : Nat) (data : List Byte) (us : Nat) (hk : Kept cm cn ci s0 s) : Kept cm cn ci s0 (doCrewSummaryReceived s lane data us) := by
  unfold doCrewSummaryReceived
  try dsimp only
  repeat' first | with_reducible first | assumption | (apply ite_kept <;> intro _) | simp only [mk_kept] | apply State.duplicate_kept | apply State.stray_kept | apply State.setCrew_kept | (split <;> try dsimp only)

theorem doLaneGone_kept {cm cn ci : Bool} {s0 s : State} (lane : Nat) (hk : Kept cm cn ci s0 s) : Kept cm cn ci s0 (doLaneGone s lane) := by
  unfold doLaneGone
  try dsimp only
  repeat' first | with_reducible first | assumption | (apply ite_kept <;> intro _) | simp only [mk_kept] | apply State.setCrew_kept | apply State.logS_kept | apply State.freeHelmOf_kept | apply State.takeLead_kept | apply State.newLeader_kept | (split <;> try dsimp only)

theorem State.refuseOrders_kept {cm cn ci : Bool} {s0 s : State} (lane : Nat) (reason : Nat) (hk : Kept cm cn ci s0 s) : Kept cm cn ci s0 (State.refuseOrders s lane reason) := by
  unfold State.refuseOrders
  try dsimp only
  repeat' first | with_reducible first | assumption | (apply ite_kept <;> intro _) | simp only [mk_kept] | apply State.setCrew_kept | apply State.logS_kept | (split <;> try dsimp only)

theorem State.takeOrders_kept {cm cn ci : Bool} {s0 s : State} (data : List Byte) (hk : Kept cm cn ci s0 s) : Kept cm cn ci s0 (State.takeOrders s data) := by
  unfold State.takeOrders
  try dsimp only
  repeat' first | with_reducible first | assumption | (apply ite_kept <;> intro _) | simp only [mk_kept] | apply State.setCrew_kept | apply State.placeOrder_kept | apply State.placeSurge_kept | (with_reducible refine foldl_kept _ _ (fun _ _ _ => ?_) ?_ <;> try dsimp only) | (split <;> try dsimp only)

theorem doCrewOrdersReceived_kept {cm cn ci : Bool} {s0 s : State} (lane : Nat) (data : List Byte) (us : Nat) (hk : Kept cm cn ci s0 s) : Kept cm cn ci s0 (doCrewOrdersReceived s lane data us) := by
  unfold doCrewOrdersReceived
  try dsimp only
  repeat' first | with_reducible first | assumption | (apply ite_kept <;> intro _) | simp only [mk_kept] | apply State.stray_kept | apply State.atUs_kept | apply State.refuseOrders_kept | apply State.setCrew_kept | apply State.takeOrders_kept | (split <;> try dsimp only)

theorem State.crewReplies_kept {cm cn ci : Bool} {s0 s : State} (outs : List Outcome) (surges : List SurgeOut) (hk : Kept cm cn ci s0 s) : Kept cm cn ci s0 (State.crewReplies s outs surges) := by
  unfold State.crewReplies
  try dsimp only
  repeat' first | with_reducible first | assumption | (apply ite_kept <;> intro _) | simp only [mk_kept] | apply State.setCrew_kept | apply State.nextOutcome_kept | (split <;> try dsimp only)

theorem State.mirror_kept {cm cn ci : Bool} {s0 s : State} (outs : List Outcome) (before : Nat) (after : Nat) (hk : Kept cm cn ci s0 s) : Kept cm cn ci s0 (State.mirror s outs before after) := by
  unfold State.mirror
  try dsimp only
  repeat' first | with_reducible first | assumption | (apply ite_kept <;> intro _) | simp only [mk_kept] | apply State.setCrew_kept | (split <;> try dsimp only)

theorem State.takeOutcome_kept {cm cn ci : Bool} {s0 s : State} (lane : Nat) (data : List Byte) (hk : Kept cm cn ci s0 s) : Kept cm cn ci s0 (State.takeOutcome s lane data) := by
  unfold State.takeOutcome
  try dsimp only
  repeat' first | with_reducible first | assumption | (apply ite_kept <;> intro _) | simp only [mk_kept] | apply State.logT0_kept | apply State.setCrew_kept | apply State.say_kept | (with_reducible refine foldl_kept _ _ (fun _ _ _ => ?_) ?_ <;> try dsimp only) | (split <;> try dsimp only)

theorem doCrewOutcomeReceived_kept {cm cn ci : Bool} {s0 s : State} (lane : Nat) (data : List Byte) (us : Nat) (hk : Kept cm cn ci s0 s) : Kept cm cn ci s0 (doCrewOutcomeReceived s lane data us) := by
  unfold doCrewOutcomeReceived
  try dsimp only
  repeat' first | with_reducible first | assumption | (apply ite_kept <;> intro _) | simp only [mk_kept] | apply State.duplicate_kept | apply State.stray_kept | apply State.takeOutcome_kept | (split <;> try dsimp only)

theorem doCrewNoreply_kept {cm cn ci : Bool} {s0 s : State} (lane : Nat) (hk : Kept cm cn ci s0 s) : Kept cm cn ci s0 (doCrewNoreply s lane) := by
  unfold doCrewNoreply
  try dsimp only
  repeat' first | with_reducible first | assumption | (apply ite_kept <;> intro _) | simp only [mk_kept] | apply State.setCrew_kept | apply State.say_kept | (with_reducible refine foldl_kept _ _ (fun _ _ _ => ?_) ?_ <;> try dsimp only) | (split <;> try dsimp only)

theorem State.crewCommand_kept {cm cn ci : Bool} {s0 s : State} (port : Nat) (lane : Nat) (ref : Nat) (surge : Bool) (f : CrewSend) (hk : Kept cm cn ci s0 s) : Kept cm cn ci s0 (State.crewCommand s port lane ref surge f) := by
  unfold State.crewCommand
  try dsimp only
  repeat' first | with_reducible first | assumption | (apply ite_kept <;> intro _) | simp only [mk_kept] | apply State.ianel_kept | apply State.say_kept | apply State.setCrew_kept | (intro _ _ _; try dsimp only) | (split <;> try dsimp only)

theorem doCrewOrder_kept {cm cn ci : Bool} {s0 s : State} (port : Nat) (lane : Nat) (kind : Nat) (target : Nat) (value : Int) (ref : Nat) (hk : Kept cm cn ci s0 s) : Kept cm cn ci s0 (doCrewOrder s port lane kind target value ref) := by
  unfold doCrewOrder
  try dsimp only
  repeat' first | with_reducible first | assumption | (apply ite_kept <;> intro _) | simp only [mk_kept] | apply State.crewCommand_kept | (split <;> try dsimp only)

theorem doCrewSurge_kept {cm cn ci : Bool} {s0 s : State} (port : Nat) (lane : Nat) (power : Int) (duration : Nat) (ref : Nat) (hk : Kept cm cn ci s0 s) : Kept cm cn ci s0 (doCrewSurge s port lane power duration ref) := by
  unfold doCrewSurge
  try dsimp only
  repeat' first | with_reducible first | assumption | (apply ite_kept <;> intro _) | simp only [mk_kept] | apply State.crewCommand_kept | (split <;> try dsimp only)

end Sys2Proof.Machine
end

