-- ==== Sys2Proof/Laws/KeptCommands.lean ====
section
/-!
SUPPORT. The console commands, the register accesses, debug, SEC, start-up and the stroke keep the queue, the canonical registers and the canonical memory: one lemma per operation, each from the lemmas of the operations it calls.
-/

namespace Sys2Proof.Machine

theorem doShowVersion_kept {cm cn ci : Bool} {s0 s : State} (port : Nat) (hk : Kept cm cn ci s0 s) : Kept cm cn ci s0 (doShowVersion s port) := by
  unfold doShowVersion
  try dsimp only
  repeat' first | with_reducible first | assumption | (apply ite_kept <;> intro _) | simp only [mk_kept] | apply State.report_kept | (split <;> try dsimp only)

theorem doShowStart_kept {cm cn ci : Bool} {s0 s : State} (port : Nat) (us : Nat) (hk : Kept cm cn ci s0 s) : Kept cm cn ci s0 (doShowStart s port us) := by
  unfold doShowStart
  try dsimp only
  repeat' first | with_reducible first | assumption | (apply ite_kept <;> intro _) | simp only [mk_kept] | apply State.atUs_kept | apply State.takeLine_kept | apply State.noteService_kept | apply State.say_kept | (split <;> try dsimp only) | grind [State.takeLine_kept]

theorem doShowStatus_kept {cm cn ci : Bool} {s0 s : State} (port : Nat) (hk : Kept cm cn ci s0 s) : Kept cm cn ci s0 (doShowStatus s port) := by
  unfold doShowStatus
  try dsimp only
  repeat' first | with_reducible first | assumption | (apply ite_kept <;> intro _) | simp only [mk_kept] | apply State.report_kept | (split <;> try dsimp only)

theorem doShowString_kept {cm cn ci : Bool} {s0 s : State} (port : Nat) (i : Nat) (hk : Kept cm cn ci s0 s) : Kept cm cn ci s0 (doShowString s port i) := by
  unfold doShowString
  try dsimp only
  repeat' first | with_reducible first | assumption | (apply ite_kept <;> intro _) | simp only [mk_kept] | apply State.report_kept | (split <;> try dsimp only)

theorem doShowSeat_kept {cm cn ci : Bool} {s0 s : State} (port : Nat) (n : Nat) (hk : Kept cm cn ci s0 s) : Kept cm cn ci s0 (doShowSeat s port n) := by
  unfold doShowSeat
  try dsimp only
  repeat' first | with_reducible first | assumption | (apply ite_kept <;> intro _) | simp only [mk_kept] | apply State.report_kept | (split <;> try dsimp only)

theorem doShowHelm_kept {cm cn ci : Bool} {s0 s : State} (port : Nat) (hk : Kept cm cn ci s0 s) : Kept cm cn ci s0 (doShowHelm s port) := by
  unfold doShowHelm
  try dsimp only
  repeat' first | with_reducible first | assumption | (apply ite_kept <;> intro _) | simp only [mk_kept] | apply State.report_kept | (split <;> try dsimp only)

theorem doShowTicket_kept {cm cn ci : Bool} {s0 s : State} (port : Nat) (hk : Kept cm cn ci s0 s) : Kept cm cn ci s0 (doShowTicket s port) := by
  unfold doShowTicket
  try dsimp only
  repeat' first | with_reducible first | assumption | (apply ite_kept <;> intro _) | simp only [mk_kept] | apply State.report_kept | (split <;> try dsimp only)

theorem doShowMdi_kept {cm cn ci : Bool} {s0 s : State} (port : Nat) (hk : Kept cm cn ci s0 s) : Kept cm cn ci s0 (doShowMdi s port) := by
  unfold doShowMdi
  try dsimp only
  repeat' first | with_reducible first | assumption | (apply ite_kept <;> intro _) | simp only [mk_kept] | apply State.report_kept | (split <;> try dsimp only)

theorem doShowImd_kept {cm cn ci : Bool} {s0 s : State} (port : Nat) (hk : Kept cm cn ci s0 s) : Kept cm cn ci s0 (doShowImd s port) := by
  unfold doShowImd
  try dsimp only
  repeat' first | with_reducible first | assumption | (apply ite_kept <;> intro _) | simp only [mk_kept] | apply State.report_kept | (split <;> try dsimp only)

theorem doShowSin_kept {cm cn ci : Bool} {s0 s : State} (port : Nat) (hk : Kept cm cn ci s0 s) : Kept cm cn ci s0 (doShowSin s port) := by
  unfold doShowSin
  try dsimp only
  repeat' first | with_reducible first | assumption | (apply ite_kept <;> intro _) | simp only [mk_kept] | apply State.report_kept | (split <;> try dsimp only)

theorem doShowKpa_kept {cm cn ci : Bool} {s0 s : State} (port : Nat) (hk : Kept cm cn ci s0 s) : Kept cm cn ci s0 (doShowKpa s port) := by
  unfold doShowKpa
  try dsimp only
  repeat' first | with_reducible first | assumption | (apply ite_kept <;> intro _) | simp only [mk_kept] | apply State.report_kept | (split <;> try dsimp only)

theorem doShowPart_kept {cm cn ci : Bool} {s0 s : State} (port : Nat) (hk : Kept cm cn ci s0 s) : Kept cm cn ci s0 (doShowPart s port) := by
  unfold doShowPart
  try dsimp only
  repeat' first | with_reducible first | assumption | (apply ite_kept <;> intro _) | simp only [mk_kept] | apply State.report_kept | (split <;> try dsimp only)

theorem doShowCrew_kept {cm cn ci : Bool} {s0 s : State} (port : Nat) (hk : Kept cm cn ci s0 s) : Kept cm cn ci s0 (doShowCrew s port) := by
  unfold doShowCrew
  try dsimp only
  repeat' first | with_reducible first | assumption | (apply ite_kept <;> intro _) | simp only [mk_kept] | apply State.report_kept | (split <;> try dsimp only)

theorem doShowChain_kept {cm cn ci : Bool} {s0 s : State} (port : Nat) (hk : Kept cm cn ci s0 s) : Kept cm cn ci s0 (doShowChain s port) := by
  unfold doShowChain
  try dsimp only
  repeat' first | with_reducible first | assumption | (apply ite_kept <;> intro _) | simp only [mk_kept] | apply State.report_kept | (split <;> try dsimp only)

theorem doShowRadio_kept {cm cn ci : Bool} {s0 s : State} (port : Nat) (hk : Kept cm cn ci s0 s) : Kept cm cn ci s0 (doShowRadio s port) := by
  unfold doShowRadio
  try dsimp only
  repeat' first | with_reducible first | assumption | (apply ite_kept <;> intro _) | simp only [mk_kept] | apply State.report_kept | (split <;> try dsimp only)

theorem doShowReset_kept {cm cn ci : Bool} {s0 s : State} (port : Nat) (hk : Kept cm cn ci s0 s) : Kept cm cn ci s0 (doShowReset s port) := by
  unfold doShowReset
  try dsimp only
  repeat' first | with_reducible first | assumption | (apply ite_kept <;> intro _) | simp only [mk_kept] | apply State.report_kept | (split <;> try dsimp only)

theorem doShowTally_kept {cm cn ci : Bool} {s0 s : State} (port : Nat) (hk : Kept cm cn ci s0 s) : Kept cm cn ci s0 (doShowTally s port) := by
  unfold doShowTally
  try dsimp only
  repeat' first | with_reducible first | assumption | (apply ite_kept <;> intro _) | simp only [mk_kept] | apply State.report_kept | (split <;> try dsimp only)

theorem doGetParam_kept {cm cn ci : Bool} {s0 s : State} (port : Nat) (keys : List PKey) (hk : Kept cm cn ci s0 s) : Kept cm cn ci s0 (doGetParam s port keys) := by
  unfold doGetParam
  try dsimp only
  repeat' first | with_reducible first | assumption | (apply ite_kept <;> intro _) | simp only [mk_kept] | apply State.report_kept | (split <;> try dsimp only)

theorem State.consoleOrder_kept {cm cn ci : Bool} {s0 s : State} (p : Nat) (kind : Nat) (target : Nat) (value : Int) (us : Nat) (hk : Kept cm cn ci s0 s) : Kept cm cn ci s0 (State.consoleOrder s p kind target value us) := by
  unfold State.consoleOrder
  try dsimp only
  repeat' first | with_reducible first | assumption | (apply ite_kept <;> intro _) | simp only [mk_kept] | apply State.atUs_kept | apply State.ianel_kept | apply State.placeOrder_kept | apply State.logIn_kept | apply State.say_kept | (intro _ _ _; try dsimp only) | (split <;> try dsimp only)

theorem doOpenOrder_kept {cm cn ci : Bool} {s0 s : State} (port : Nat) (target : Nat) (us : Nat) (hk : Kept cm cn ci s0 s) : Kept cm cn ci s0 (doOpenOrder s port target us) := by
  unfold doOpenOrder
  try dsimp only
  repeat' first | with_reducible first | assumption | (apply ite_kept <;> intro _) | simp only [mk_kept] | apply State.consoleOrder_kept | (split <;> try dsimp only)

theorem doCloseOrder_kept {cm cn ci : Bool} {s0 s : State} (port : Nat) (target : Nat) (us : Nat) (hk : Kept cm cn ci s0 s) : Kept cm cn ci s0 (doCloseOrder s port target us) := by
  unfold doCloseOrder
  try dsimp only
  repeat' first | with_reducible first | assumption | (apply ite_kept <;> intro _) | simp only [mk_kept] | apply State.consoleOrder_kept | (split <;> try dsimp only)

theorem doLimitOrder_kept {cm cn ci : Bool} {s0 s : State} (port : Nat) (target : Nat) (mA : Int) (us : Nat) (hk : Kept cm cn ci s0 s) : Kept cm cn ci s0 (doLimitOrder s port target mA us) := by
  unfold doLimitOrder
  try dsimp only
  repeat' first | with_reducible first | assumption | (apply ite_kept <;> intro _) | simp only [mk_kept] | apply State.consoleOrder_kept | (split <;> try dsimp only)

theorem doHelmTake_kept {cm cn ci : Bool} {s0 s : State} (port : Nat) (us : Nat) (hk : Kept cm cn ci s0 s) : Kept cm cn ci s0 (doHelmTake s port us) := by
  unfold doHelmTake
  try dsimp only
  repeat' first | with_reducible first | assumption | (apply ite_kept <;> intro _) | simp only [mk_kept] | apply State.consoleOrder_kept | (split <;> try dsimp only)

theorem doHelmRelease_kept {cm cn ci : Bool} {s0 s : State} (port : Nat) (us : Nat) (hk : Kept cm cn ci s0 s) : Kept cm cn ci s0 (doHelmRelease s port us) := by
  unfold doHelmRelease
  try dsimp only
  repeat' first | with_reducible first | assumption | (apply ite_kept <;> intro _) | simp only [mk_kept] | apply State.consoleOrder_kept | (split <;> try dsimp only)

theorem State.consoleSurge_kept {cm cn ci : Bool} {s0 s : State} (p : Nat) (kind : Nat) (power : Int) (duration : Nat) (hk : Kept cm cn ci s0 s) : Kept cm cn ci s0 (State.consoleSurge s p kind power duration) := by
  unfold State.consoleSurge
  try dsimp only
  repeat' first | with_reducible first | assumption | (apply ite_kept <;> intro _) | simp only [mk_kept] | apply State.ianel_kept | apply State.say_kept | apply State.placeSurge_kept | (intro _ _ _; try dsimp only) | (split <;> try dsimp only)

theorem doSurge_kept {cm cn ci : Bool} {s0 s : State} (port : Nat) (power : Int) (duration : Nat) (us : Nat) (hk : Kept cm cn ci s0 s) : Kept cm cn ci s0 (doSurge s port power duration us) := by
  unfold doSurge
  try dsimp only
  repeat' first | with_reducible first | assumption | (apply ite_kept <;> intro _) | simp only [mk_kept] | apply State.atUs_kept | apply State.consoleSurge_kept | (split <;> try dsimp only)

theorem doSurgeRelease_kept {cm cn ci : Bool} {s0 s : State} (port : Nat) (hk : Kept cm cn ci s0 s) : Kept cm cn ci s0 (doSurgeRelease s port) := by
  unfold doSurgeRelease
  try dsimp only
  repeat' first | with_reducible first | assumption | (apply ite_kept <;> intro _) | simp only [mk_kept] | apply State.consoleSurge_kept | (split <;> try dsimp only)

theorem State.clearing_kept {cm cn ci : Bool} {s0 s : State} (p : Nat) (lvl : Level → Bool) (present : State → Bool) (something : State → Bool) (cond : State → Bool) (name : String) (act : State → State) (hk : Kept cm cn ci s0 s) (hact : ∀ t, Kept cm cn ci s0 t → Kept cm cn ci s0 (act t)) : Kept cm cn ci s0 (State.clearing s p lvl present something cond name act) := by
  unfold State.clearing
  refine State.ianel_kept _ _ _ hk (fun t tag h => ?_)
  exact ite_kept (fun _ => State.say_kept _ _ _ h) (fun _ => ite_kept (fun _ => State.say_kept _ _ _ h)
    (fun _ => ite_kept (fun _ => State.say_kept _ _ _ h) (fun _ => State.say_kept _ _ _ (hact _ h))))

theorem doClearEasy_kept {cm cn ci : Bool} {s0 s : State} (port : Nat) (hk : Kept cm cn ci s0 s) : Kept cm cn ci s0 (doClearEasy s port) := by
  unfold doClearEasy
  try dsimp only
  repeat' first | with_reducible first | assumption | (apply ite_kept <;> intro _) | simp only [mk_kept] | apply State.clearing_kept | apply State.leaveEasy_kept | (intro _ _; try dsimp only) | (split <;> try dsimp only)

theorem doClearPrecharge_kept {cm ci : Bool} {s0 s : State} (port : Nat) (i : Nat) (hk : Kept cm true ci s0 s) : Kept cm true ci s0 (doClearPrecharge s port i) := by
  unfold doClearPrecharge
  try dsimp only
  repeat' first | with_reducible first | assumption | (apply ite_kept <;> intro _) | simp only [mk_kept, mk_kept_nv] | apply State.clearing_kept | apply State.clearPre_kept | (intro _ _; try dsimp only) | (split <;> try dsimp only)

theorem doClearWeld_kept {cm cn ci : Bool} {s0 s : State} (port : Nat) (i : Nat) (hk : Kept cm cn ci s0 s) : Kept cm cn ci s0 (doClearWeld s port i) := by
  unfold doClearWeld
  try dsimp only
  repeat' first | with_reducible first | assumption | (apply ite_kept <;> intro _) | simp only [mk_kept] | apply State.clearing_kept | apply State.clearWeldOf_kept | (intro _ _; try dsimp only) | (split <;> try dsimp only)

theorem doClearContactor_kept {cm cn ci : Bool} {s0 s : State} (port : Nat) (c : Nat) (hk : Kept cm cn ci s0 s) : Kept cm cn ci s0 (doClearContactor s port c) := by
  unfold doClearContactor
  try dsimp only
  repeat' first | with_reducible first | assumption | (apply ite_kept <;> intro _) | simp only [mk_kept] | apply State.clearing_kept | apply State.clearCoil_kept | (intro _ _; try dsimp only) | (split <;> try dsimp only)

theorem doClearMdi_kept {cm cn ci : Bool} {s0 s : State} (port : Nat) (hk : Kept cm cn ci s0 s) : Kept cm cn ci s0 (doClearMdi s port) := by
  unfold doClearMdi
  try dsimp only
  repeat' first | with_reducible first | assumption | (apply ite_kept <;> intro _) | simp only [mk_kept] | apply State.clearing_kept | apply State.clearMdiOf_kept | (intro _ _; try dsimp only) | (split <;> try dsimp only)

theorem doClearSin_kept {cm cn ci : Bool} {s0 s : State} (port : Nat) (n : Nat) (hk : Kept cm cn ci s0 s) : Kept cm cn ci s0 (doClearSin s port n) := by
  unfold doClearSin
  try dsimp only
  repeat' first | with_reducible first | assumption | (apply ite_kept <;> intro _) | simp only [mk_kept] | apply State.clearing_kept | apply State.clearSinOf_kept | (intro _ _; try dsimp only) | (split <;> try dsimp only)

theorem doClearImd_kept {cm cn ci : Bool} {s0 s : State} (port : Nat) (hk : Kept cm cn ci s0 s) : Kept cm cn ci s0 (doClearImd s port) := by
  unfold doClearImd
  try dsimp only
  repeat' first | with_reducible first | assumption | (apply ite_kept <;> intro _) | simp only [mk_kept] | apply State.clearing_kept | apply State.clearImdAlarm_kept | (intro _ _; try dsimp only) | (split <;> try dsimp only)

theorem doClearSeat_kept {cm cn ci : Bool} {s0 s : State} (port : Nat) (n : Nat) (hk : Kept cm cn ci s0 s) : Kept cm cn ci s0 (doClearSeat s port n) := by
  unfold doClearSeat
  try dsimp only
  repeat' first | with_reducible first | assumption | (apply ite_kept <;> intro _) | simp only [mk_kept] | apply State.clearing_kept | apply State.updSeat_kept | apply State.logS_kept | (intro _ _; try dsimp only) | (split <;> try dsimp only)

theorem doClearKbat_kept {cm cn ci : Bool} {s0 s : State} (port : Nat) (hk : Kept cm cn ci s0 s) : Kept cm cn ci s0 (doClearKbat s port) := by
  unfold doClearKbat
  try dsimp only
  repeat' first | with_reducible first | assumption | (apply ite_kept <;> intro _) | simp only [mk_kept] | apply State.clearing_kept | apply doChargerClear_kept | (intro _ _; try dsimp only) | (split <;> try dsimp only)

theorem doClearAux_kept {cm cn ci : Bool} {s0 s : State} (port : Nat) (hk : Kept cm cn ci s0 s) : Kept cm cn ci s0 (doClearAux s port) := by
  unfold doClearAux
  try dsimp only
  repeat' first | with_reducible first | assumption | (apply ite_kept <;> intro _) | simp only [mk_kept] | apply State.clearing_kept | apply doAuxClear_kept | (intro _ _; try dsimp only) | (split <;> try dsimp only)

theorem doStop_kept {cm cn ci : Bool} {s0 s : State} (port : Nat) (hk : Kept cm cn ci s0 s) : Kept cm cn ci s0 (doStop s port) := by
  unfold doStop
  try dsimp only
  repeat' first | with_reducible first | assumption | (apply ite_kept <;> intro _) | simp only [mk_kept] | apply State.takeLine_kept | apply State.say_kept | (split <;> try dsimp only) | grind [State.takeLine_kept]

theorem doShip_kept {ci : Bool} {s0 s : State} (port : Nat) (hk : Kept true true ci s0 s) : Kept true true ci s0 (doShip s port) := by
  unfold doShip
  try dsimp only
  repeat' first | with_reducible first | assumption | (apply ite_kept <;> intro _) | simp only [mk_kept, mk_kept_nv] | apply State.ianel_kept | apply State.say_kept | apply State.shore_kept | apply State.logS_kept | apply State.tallyCommit_kept | apply doShipEnter_kept | (intro _ _ _; try dsimp only) | (split <;> try dsimp only)

theorem doHibernate_kept {cm cn ci : Bool} {s0 s : State} (port : Nat) (hk : Kept cm cn ci s0 s) : Kept cm cn ci s0 (doHibernate s port) := by
  unfold doHibernate
  try dsimp only
  repeat' first | with_reducible first | assumption | (apply ite_kept <;> intro _) | simp only [mk_kept] | apply State.ianel_kept | apply State.hibPending_kept | apply State.say_kept | (intro _ _ _; try dsimp only) | (split <;> try dsimp only)

theorem doKbatStart_kept {cm cn ci : Bool} {s0 s : State} (port : Nat) (hk : Kept cm cn ci s0 s) : Kept cm cn ci s0 (doKbatStart s port) := by
  unfold doKbatStart
  try dsimp only
  repeat' first | with_reducible first | assumption | (apply ite_kept <;> intro _) | simp only [mk_kept] | apply State.ianel_kept | apply State.say_kept | apply doChargerStart_kept | (intro _ _ _; try dsimp only) | (split <;> try dsimp only)

theorem doKbatStop_kept {ci : Bool} {s0 s : State} (port : Nat) (hk : Kept true true ci s0 s) : Kept true true ci s0 (doKbatStop s port) := by
  unfold doKbatStop
  try dsimp only
  repeat' first | with_reducible first | assumption | (apply ite_kept <;> intro _) | simp only [mk_kept, mk_kept_nv] | apply State.ianel_kept | apply State.say_kept | apply doChargerStop_kept | (intro _ _ _; try dsimp only) | (split <;> try dsimp only)

theorem doSuspend_kept {cm cn ci : Bool} {s0 s : State} (port : Nat) (k : Nat) (hk : Kept cm cn ci s0 s) : Kept cm cn ci s0 (doSuspend s port k) := by
  unfold doSuspend
  try dsimp only
  repeat' first | with_reducible first | assumption | (apply ite_kept <;> intro _) | simp only [mk_kept] | apply State.ianel_kept | apply State.say_kept | apply State.suspend_kept | (intro _ _ _; try dsimp only) | (split <;> try dsimp only)

theorem doResume_kept {cn ci : Bool} {s0 s : State} (port : Nat) (k : Nat) (hk : Kept true cn ci s0 s) : Kept true cn ci s0 (doResume s port k) := by
  unfold doResume
  try dsimp only
  repeat' first | with_reducible first | assumption | (apply ite_kept <;> intro _) | simp only [mk_kept] | apply State.ianel_kept | apply State.say_kept | apply State.resumePart_kept | (intro _ _ _; try dsimp only) | (split <;> try dsimp only)

theorem doPairSeat_kept {s0 s : State} (port : Nat) (n : Nat) (hk : Kept true true true s0 s) : Kept true true true s0 (doPairSeat s port n) := by
  unfold doPairSeat
  try dsimp only
  repeat' first | with_reducible first | assumption | (apply ite_kept <;> intro _) | simp only [mk_kept, mk_kept_nv, mk_kept_force, mk_kept_both] | apply State.ianel_kept | apply State.say_kept | apply State.pairOne_kept | (intro _ _ _; try dsimp only) | (split <;> try dsimp only)

theorem State.refuseSeats_kept {s0 s : State} (asker : Origin) (x0 : List Nat) (hk : Kept true true true s0 s) : Kept true true true s0 (State.refuseSeats s asker x0) := by
  induction x0 generalizing s with
  | nil => exact hk
  | cons n t ih =>
    cases t with
    | nil => exact State.pairOne_kept _ _ _ hk
    | cons m t => exact ih (State.pairOne_kept _ _ _ hk)

theorem doPairAll_kept {s0 s : State} (port : Nat) (hk : Kept true true true s0 s) : Kept true true true s0 (doPairAll s port) := by
  unfold doPairAll
  try dsimp only
  repeat' first | with_reducible first | assumption | (apply ite_kept <;> intro _) | simp only [mk_kept, mk_kept_nv, mk_kept_force, mk_kept_both] | apply State.ianel_kept | apply State.say_kept | apply State.pairOne_kept | apply State.refuseSeats_kept | (with_reducible refine foldl_kept _ _ (fun _ _ _ => ?_) ?_ <;> try dsimp only) | (intro _ _ _; try dsimp only) | (split <;> try dsimp only)

theorem doEstSave_kept {cm cn ci : Bool} {s0 s : State} (port : Nat) (hk : Kept cm cn ci s0 s) : Kept cm cn ci s0 (doEstSave s port) := by
  unfold doEstSave
  try dsimp only
  repeat' first | with_reducible first | assumption | (apply ite_kept <;> intro _) | simp only [mk_kept] | apply State.ianel_kept | apply State.setEst_kept | (intro _ _ _; try dsimp only) | (split <;> try dsimp only)

theorem doEstRestoreBegin_kept {cm cn ci : Bool} {s0 s : State} (port : Nat) (size : Nat) (hk : Kept cm cn ci s0 s) : Kept cm cn ci s0 (doEstRestoreBegin s port size) := by
  unfold doEstRestoreBegin
  try dsimp only
  repeat' first | with_reducible first | assumption | (apply ite_kept <;> intro _) | simp only [mk_kept] | apply State.ianel_kept | apply State.say_kept | apply State.setEst_kept | (intro _ _ _; try dsimp only) | (split <;> try dsimp only)

theorem State.restoreBad_kept {cm cn ci : Bool} {s0 s : State} (port : Nat) (tag : Option String) (hk : Kept cm cn ci s0 s) : Kept cm cn ci s0 (State.restoreBad s port tag) := by
  unfold State.restoreBad
  try dsimp only
  repeat' first | with_reducible first | assumption | (apply ite_kept <;> intro _) | simp only [mk_kept] | apply State.setEst_kept | apply State.say_kept | (split <;> try dsimp only)

theorem doEstRestoreData_kept {cm cn ci : Bool} {s0 s : State} (port : Nat) (off : Nat) (data : List Byte) (hk : Kept cm cn ci s0 s) : Kept cm cn ci s0 (doEstRestoreData s port off data) := by
  unfold doEstRestoreData
  try dsimp only
  repeat' first | with_reducible first | assumption | (apply ite_kept <;> intro _) | simp only [mk_kept] | apply State.ianel_kept | apply State.setEst_kept | apply State.say_kept | apply State.restoreBad_kept | (intro _ _ _; try dsimp only) | (split <;> try dsimp only)

theorem doEstRestoreEnd_kept {cm cn ci : Bool} {s0 s : State} (port : Nat) (hk : Kept cm cn ci s0 s) : Kept cm cn ci s0 (doEstRestoreEnd s port) := by
  unfold doEstRestoreEnd
  try dsimp only
  repeat' first | with_reducible first | assumption | (apply ite_kept <;> intro _) | simp only [mk_kept] | apply State.ianel_kept | apply State.restoreBad_kept | apply State.setEst_kept | apply State.logS_kept | apply State.say_kept | (intro _ _ _; try dsimp only) | (split <;> try dsimp only)

theorem State.restoreReply_kept {cm cn ci : Bool} {s0 s : State} (r : Restore) (hk : Kept cm cn ci s0 s) : Kept cm cn ci s0 (State.restoreReply s r) := by
  unfold State.restoreReply
  try dsimp only
  repeat' first | with_reducible first | assumption | (apply ite_kept <;> intro _) | simp only [mk_kept] | apply State.say_kept | (split <;> try dsimp only)

theorem doLogHead_kept {cm cn ci : Bool} {s0 s : State} (port : Nat) (book : Nat) (hk : Kept cm cn ci s0 s) : Kept cm cn ci s0 (doLogHead s port book) := by
  unfold doLogHead
  try dsimp only
  repeat' first | with_reducible first | assumption | (apply ite_kept <;> intro _) | simp only [mk_kept] | apply State.report_kept | (split <;> try dsimp only)

theorem doLogRead_kept {cm cn ci : Bool} {s0 s : State} (port : Nat) (book : Nat) (seq : Nat) (count : Nat) (hk : Kept cm cn ci s0 s) : Kept cm cn ci s0 (doLogRead s port book seq count) := by
  unfold doLogRead
  try dsimp only
  repeat' first | with_reducible first | assumption | (apply ite_kept <;> intro _) | simp only [mk_kept] | apply State.ianel_kept | apply State.say_kept | (intro _ _ _; try dsimp only) | (split <;> try dsimp only)

theorem doLogRelease_kept {cm cn ci : Bool} {s0 s : State} (port : Nat) (book : Nat) (upto : Nat) (hk : Kept cm cn ci s0 s) : Kept cm cn ci s0 (doLogRelease s port book upto) := by
  unfold doLogRelease
  try dsimp only
  repeat' first | with_reducible first | assumption | (apply ite_kept <;> intro _) | simp only [mk_kept] | apply State.ianel_kept | apply State.say_kept | apply State.release_kept | (intro _ _ _; try dsimp only) | (split <;> try dsimp only)

theorem State.rawReply_kept {cm cn ci : Bool} {s0 s : State} (p : Nat) (tag : Option String) (body : String) (hk : Kept cm cn ci s0 s) : Kept cm cn ci s0 (State.rawReply s p tag body) := by
  unfold State.rawReply
  try dsimp only
  repeat' first | with_reducible first | assumption | (apply ite_kept <;> intro _) | simp only [mk_kept] | apply State.setCon_kept | (split <;> try dsimp only)

theorem State.lineByte_kept {cm cn ci : Bool} {s0 s : State} (p : Nat) (b : Byte) (hk : Kept cm cn ci s0 s) : Kept cm cn ci s0 (State.lineByte s p b) := by
  unfold State.lineByte
  try dsimp only
  repeat' first | with_reducible first | assumption | (apply ite_kept <;> intro _) | simp only [mk_kept] | apply State.setCon_kept | apply State.bare_kept | (split <;> try dsimp only)

theorem State.con1Event_kept {cm cn ci : Bool} {s0 s : State} (port : Nat) (hk : Kept cm cn ci s0 s) : Kept cm cn ci s0 (State.con1Event s port) := by
  unfold State.con1Event
  try dsimp only
  repeat' first | with_reducible first | assumption | (apply ite_kept <;> intro _) | simp only [mk_kept] | apply State.setEvp_kept | (split <;> try dsimp only)

theorem doConsoleByteReceived_kept {cm cn ci : Bool} {s0 s : State} (port : Nat) (byte : Byte) (framingOk : Bool) (hk : Kept cm cn ci s0 s) : Kept cm cn ci s0 (doConsoleByteReceived s port byte framingOk) := by
  unfold doConsoleByteReceived
  try dsimp only
  repeat' first | with_reducible first | assumption | (apply ite_kept <;> intro _) | simp only [mk_kept] | apply State.setBit_kept | apply State.setCon_kept | apply State.lineByte_kept | apply State.showCon_kept | apply State.con1Event_kept | (split <;> try dsimp only)

theorem doConsoleByteSent_kept {cm cn ci : Bool} {s0 s : State} (port : Nat) (hk : Kept cm cn ci s0 s) : Kept cm cn ci s0 (doConsoleByteSent s port) := by
  unfold doConsoleByteSent
  try dsimp only
  repeat' first | with_reducible first | assumption | (apply ite_kept <;> intro _) | simp only [mk_kept] | apply State.setCon_kept | apply State.showCon_kept | apply State.setBit_kept | apply State.con1Event_kept | apply State.pump_kept | (split <;> try dsimp only)

theorem State.judgeLine_kept {cm cn ci : Bool} {s0 s : State} (p : Nat) (tag : Option String) (text : List Char) (hk : Kept cm cn ci s0 s) : Kept cm cn ci s0 (State.judgeLine s p tag text) := by
  unfold State.judgeLine
  try dsimp only
  repeat' first | with_reducible first | assumption | (apply ite_kept <;> intro _) | simp only [mk_kept] | apply State.rawReply_kept | apply State.setCon_kept | (split <;> try dsimp only)

theorem State.machineLine_kept {cm cn ci : Bool} {s0 s : State} (p : Nat) (c : ConSt) (hk : Kept cm cn ci s0 s) : Kept cm cn ci s0 (State.machineLine s p c) := by
  unfold State.machineLine
  try dsimp only
  repeat' first | with_reducible first | assumption | (apply ite_kept <;> intro _) | simp only [mk_kept] | apply State.setCon_kept | apply State.rawReply_kept | apply State.judgeLine_kept | (split <;> try dsimp only)

theorem State.typedLineEnd_kept {cm cn ci : Bool} {s0 s : State} (p : Nat) (c : ConSt) (hk : Kept cm cn ci s0 s) : Kept cm cn ci s0 (State.typedLineEnd s p c) := by
  unfold State.typedLineEnd
  try dsimp only
  repeat' first | with_reducible first | assumption | (apply ite_kept <;> intro _) | simp only [mk_kept] | apply State.bare_kept | apply State.rawReply_kept | apply State.judgeLine_kept | (split <;> try dsimp only)

theorem doConsoleLine_kept {cm cn ci : Bool} {s0 s : State} (port : Nat) (us : Nat) (hk : Kept cm cn ci s0 s) : Kept cm cn ci s0 (doConsoleLine s port us) := by
  unfold doConsoleLine
  try dsimp only
  repeat' first | with_reducible first | assumption | (apply ite_kept <;> intro _) | simp only [mk_kept] | apply State.setCon_kept | apply State.pump_kept | apply State.atUs_kept | apply State.flushNotices_kept | apply State.machineLine_kept | apply State.typedLineEnd_kept | (split <;> try dsimp only)

theorem doAutobaud_kept {cm cn ci : Bool} {s0 s : State} (port : Nat) (width : Nat) (hk : Kept cm cn ci s0 s) : Kept cm cn ci s0 (doAutobaud s port width) := by
  unfold doAutobaud
  try dsimp only
  repeat' first | with_reducible first | assumption | (apply ite_kept <;> intro _) | simp only [mk_kept] | apply State.wrN_kept | apply State.setBit_kept | apply State.setCon_kept | apply State.logS_kept | (split <;> try dsimp only)

theorem doConsoleBreak_kept {cm cn ci : Bool} {s0 s : State} (port : Nat) (hk : Kept cm cn ci s0 s) : Kept cm cn ci s0 (doConsoleBreak s port) := by
  unfold doConsoleBreak
  try dsimp only
  repeat' first | with_reducible first | assumption | (apply ite_kept <;> intro _) | simp only [mk_kept] | apply State.setBit_kept | apply State.setCon_kept | apply State.flushNotices_kept | (split <;> try dsimp only)

theorem doNoticeFlush_kept {cm cn ci : Bool} {s0 s : State} (port : Nat) (hk : Kept cm cn ci s0 s) : Kept cm cn ci s0 (doNoticeFlush s port) := by
  unfold doNoticeFlush
  try dsimp only
  repeat' first | with_reducible first | assumption | (apply ite_kept <;> intro _) | simp only [mk_kept] | apply State.flushNotices_kept | apply State.bare_kept | (split <;> try dsimp only)

theorem doLostNotice_kept {cm cn ci : Bool} {s0 s : State} (port : Nat) (hk : Kept cm cn ci s0 s) : Kept cm cn ci s0 (doLostNotice s port) := by
  unfold doLostNotice
  try dsimp only
  repeat' first | with_reducible first | assumption | (apply ite_kept <;> intro _) | simp only [mk_kept] | apply State.setCon_kept | apply State.notice_kept | apply State.logS_kept | (split <;> try dsimp only)

theorem State.lineErrorsWatch_kept {cm cn ci : Bool} {s0 s : State} (hk : Kept cm cn ci s0 s) : Kept cm cn ci s0 (State.lineErrorsWatch s) := by
  unfold State.lineErrorsWatch
  try dsimp only
  repeat' first | with_reducible first | assumption | (apply ite_kept <;> intro _) | simp only [mk_kept] | apply State.setCon_kept | apply State.logS_kept | (with_reducible refine foldl_kept _ _ (fun _ _ _ => ?_) ?_ <;> try dsimp only) | (split <;> try dsimp only)

theorem State.drainRx_kept {cm cn ci : Bool} {s0 s : State} (p : Nat) (hk : Kept cm cn ci s0 s) : Kept cm cn ci s0 (State.drainRx s p) := by
  unfold State.drainRx
  try dsimp only
  repeat' first | with_reducible first | assumption | (apply ite_kept <;> intro _) | simp only [mk_kept] | apply State.lineByte_kept | apply State.setCon_kept | apply State.showCon_kept | (with_reducible refine foldl_kept _ _ (fun _ _ _ => ?_) ?_ <;> try dsimp only) | (split <;> try dsimp only)

theorem State.mailboxText_kept {cn ci : Bool} {s0 s : State} (text : List Byte) (hk : Kept true cn ci s0 s) : Kept true cn ci s0 (State.mailboxText s text) := by
  unfold State.mailboxText
  try dsimp only
  repeat' first | with_reducible first | assumption | (apply ite_kept <;> intro _) | simp only [mk_kept] | apply State.setTag_kept | apply State.wrBytes_kept | apply State.setOwner_kept | (split <;> try dsimp only)

theorem State.mailboxReply_kept {cn ci : Bool} {s0 s : State} (tag : String) (lines : List String) (hk : Kept true cn ci s0 s) : Kept true cn ci s0 (State.mailboxReply s tag lines) := by
  unfold State.mailboxReply
  try dsimp only
  repeat' first | with_reducible first | assumption | (apply ite_kept <;> intro _) | simp only [mk_kept] | apply State.mailboxText_kept | (split <;> try dsimp only)

theorem doTagMailboxRequest_kept {cn ci : Bool} {s0 s : State} (hk : Kept true cn ci s0 s) : Kept true cn ci s0 (doTagMailboxRequest s) := by
  unfold doTagMailboxRequest
  try dsimp only
  repeat' first | with_reducible first | assumption | (apply ite_kept <;> intro _) | simp only [mk_kept] | apply State.setTag_kept | apply State.setOwner_kept | apply State.mailboxText_kept | apply State.wrBytes_kept | apply State.logS_kept | apply State.mailboxReply_kept | apply State.setEst_kept | apply State.logIn_kept | (split <;> try dsimp only)

theorem State.writeReg_kept {cm cn ci : Bool} {s0 s : State} (rq : Requester) (a : Nat) (v : Nat) (hk : Kept cm cn ci s0 s) : Kept cm cn ci s0 (State.writeReg s rq a v) := by
  unfold State.writeReg
  try dsimp only
  repeat' first | with_reducible first | assumption | (apply ite_kept <;> intro _) | simp only [mk_kept] | apply State.wrN_kept | (split <;> try dsimp only)

theorem State.conCtrl_kept {cm cn ci : Bool} {s0 s : State} (p : Nat) (v : Nat) (hk : Kept cm cn ci s0 s) : Kept cm cn ci s0 (State.conCtrl s p v) := by
  unfold State.conCtrl
  try dsimp only
  repeat' first | with_reducible first | assumption | (apply ite_kept <;> intro _) | simp only [mk_kept] | apply State.setCon_kept | apply State.showCon_kept | (split <;> try dsimp only)

theorem State.conTx_kept {cm cn ci : Bool} {s0 s : State} (p : Nat) (v : Nat) (hk : Kept cm cn ci s0 s) : Kept cm cn ci s0 (State.conTx s p v) := by
  unfold State.conTx
  try dsimp only
  repeat' first | with_reducible first | assumption | (apply ite_kept <;> intro _) | simp only [mk_kept] | apply State.setCon_kept | apply State.showCon_kept | (split <;> try dsimp only)

theorem State.afterWrite_kept {cm cn ci : Bool} {s0 s : State} (a : Nat) (v : Nat) (kpaOld : Nat) (hk : Kept cm cn ci s0 s) : Kept cm cn ci s0 (State.afterWrite s a v kpaOld) := by
  unfold State.afterWrite
  try dsimp only
  repeat' first | with_reducible first | assumption | (apply ite_kept <;> intro _) | simp only [mk_kept] | apply State.kpaCtrlWritten_kept | apply State.kinHeld_kept | apply State.auxWritten_kept | apply State.conCtrl_kept | apply State.conTx_kept | apply State.cutFeed_kept | apply State.canCtrl_kept | apply State.setImdFlag_kept | apply State.sinSourceSet_kept | apply State.qpData_kept | (split <;> try dsimp only)

theorem doRegisterWrite_kept {cm cn ci : Bool} {s0 s : State} (rq : Requester) (addr : Nat) (value : Word) (hk : Kept cm cn ci s0 s) : Kept cm cn ci s0 (doRegisterWrite s rq addr value) := by
  unfold doRegisterWrite
  try dsimp only
  repeat' first | with_reducible first | assumption | (apply ite_kept <;> intro _) | simp only [mk_kept] | apply State.writeReg_kept | apply State.afterWrite_kept | (split <;> try dsimp only)

theorem State.popRx_kept {cm cn ci : Bool} {s0 s : State} (p : Nat) (hk : Kept cm cn ci s0 s) : Kept cm cn ci s0 (State.popRx s p) := by
  unfold State.popRx
  try dsimp only
  repeat' first | with_reducible first | assumption | (apply ite_kept <;> intro _) | simp only [mk_kept] | apply State.setCon_kept | apply State.showCon_kept | (split <;> try dsimp only)

theorem State.popChn_kept {cm cn ci : Bool} {s0 s : State} (hk : Kept cm cn ci s0 s) : Kept cm cn ci s0 (State.popChn s) := by
  unfold State.popChn
  try dsimp only
  repeat' first | with_reducible first | assumption | (apply ite_kept <;> intro _) | simp only [mk_kept] | apply State.setChn_kept | apply State.showDone_kept | (split <;> try dsimp only)

theorem State.popRad_kept {cm cn ci : Bool} {s0 s : State} (hk : Kept cm cn ci s0 s) : Kept cm cn ci s0 (State.popRad s) := by
  unfold State.popRad
  try dsimp only
  repeat' first | with_reducible first | assumption | (apply ite_kept <;> intro _) | simp only [mk_kept] | apply State.setRad_kept | apply State.showDone_kept | (split <;> try dsimp only)

theorem State.popJoin_kept {cm cn ci : Bool} {s0 s : State} (hk : Kept cm cn ci s0 s) : Kept cm cn ci s0 (State.popJoin s) := by
  unfold State.popJoin
  try dsimp only
  repeat' first | with_reducible first | assumption | (apply ite_kept <;> intro _) | simp only [mk_kept] | apply State.wrN_kept | (split <;> try dsimp only)

theorem State.popQrx_kept {cm cn ci : Bool} {s0 s : State} (n : Nat) (hk : Kept cm cn ci s0 s) : Kept cm cn ci s0 (State.popQrx s n) := by
  unfold State.popQrx
  try dsimp only
  repeat' first | with_reducible first | assumption | (apply ite_kept <;> intro _) | simp only [mk_kept] | apply State.setQrx_kept | (split <;> try dsimp only)

theorem State.popSlave_kept {cm cn ci : Bool} {s0 s : State} (hk : Kept cm cn ci s0 s) : Kept cm cn ci s0 (State.popSlave s) := by
  unfold State.popSlave
  try dsimp only
  repeat' first | with_reducible first | assumption | (apply ite_kept <;> intro _) | simp only [mk_kept] | apply State.setQp_kept | apply State.setFld_kept | apply State.wrN_kept | (split <;> try dsimp only)

theorem State.readClear_kept {cm cn ci : Bool} {s0 s : State} (rq : Requester) (a : Nat) (hk : Kept cm cn ci s0 s) : Kept cm cn ci s0 (State.readClear s rq a) := by
  unfold State.readClear
  try dsimp only
  repeat' first | with_reducible first | assumption | (apply ite_kept <;> intro _) | simp only [mk_kept] | apply State.wrN_kept | (split <;> try dsimp only)

theorem doReadClear_kept {cm cn ci : Bool} {s0 s : State} (rq : Requester) (addr : Nat) (aborted : Bool) (hk : Kept cm cn ci s0 s) : Kept cm cn ci s0 (doReadClear s rq addr aborted) := by
  unfold doReadClear
  try dsimp only
  repeat' first | with_reducible first | assumption | (apply ite_kept <;> intro _) | simp only [mk_kept] | apply State.popRx_kept | apply State.popChn_kept | apply State.popRad_kept | apply State.popQrx_kept | apply State.popJoin_kept | apply State.popSlave_kept | apply State.setFld_kept | apply State.readClear_kept | (split <;> try dsimp only)

theorem doBusError_kept {ci : Bool} {s0 s : State} (rq : Requester) (user : Bool) (write : Bool) (addr : Nat) (hk : Kept true true ci s0 s) : Kept true true ci s0 (doBusError s rq user write addr) := by
  unfold doBusError
  try dsimp only
  repeat' first | with_reducible first | assumption | (apply ite_kept <;> intro _) | simp only [mk_kept, mk_kept_nv] | apply State.tenantBusError_kept | apply State.busRecord_kept | apply State.coxBusError_kept | apply doScullFault_kept | (split <;> try dsimp only)

theorem doStrokeTimeRead_kept {cm cn ci : Bool} {s0 s : State} (rq : Requester) (us : Nat) (hk : Kept cm cn ci s0 s) : Kept cm cn ci s0 (doStrokeTimeRead s rq us) := by
  unfold doStrokeTimeRead
  try dsimp only
  repeat' first | with_reducible first | assumption | (apply ite_kept <;> intro _) | simp only [mk_kept] | apply State.atUs_kept | apply State.wrN_kept | (split <;> try dsimp only)

theorem doInterruptLineChange_kept {cm cn ci : Bool} {s0 s : State} (line : Nat) (level : Bool) (hk : Kept cm cn ci s0 s) : Kept cm cn ci s0 (doInterruptLineChange s line level) := by
  unfold doInterruptLineChange
  try dsimp only
  repeat' first | with_reducible first | assumption | (apply ite_kept <;> intro _) | simp only [mk_kept] | (split <;> try dsimp only)

theorem State.openDebug_kept {ci : Bool} {s0 s : State} (n : Nat) (id : Nat) (hk : Kept true true ci s0 s) : Kept true true ci s0 (State.openDebug s n id) := by
  unfold State.openDebug
  try dsimp only
  repeat' first | with_reducible first | assumption | (apply ite_kept <;> intro _) | simp only [mk_kept, mk_kept_nv] | apply State.setBit_kept | apply State.wrN_kept | apply State.stopFeed_kept | apply State.logS0_kept | apply State.logS_kept | apply State.easy_kept | (split <;> try dsimp only)

theorem State.debugFail_kept {cm cn ci : Bool} {s0 s : State} (id : Nat) (hk : Kept cm cn ci s0 s) : Kept cm cn ci s0 (State.debugFail s id) := by
  unfold State.debugFail
  try dsimp only
  repeat' first | with_reducible first | assumption | (apply ite_kept <;> intro _) | simp only [mk_kept] | apply State.incSat_kept | apply State.setBit_kept | apply State.logS_kept | (split <;> try dsimp only)

theorem doDebugAuth_kept {ci : Bool} {s0 s : State} (sig : List Byte) (hk : Kept true true ci s0 s) : Kept true true ci s0 (doDebugAuth s sig) := by
  unfold doDebugAuth
  try dsimp only
  repeat' first | with_reducible first | assumption | (apply ite_kept <;> intro _) | simp only [mk_kept, mk_kept_nv] | apply State.newChallenge_kept | apply State.showAuth_kept | apply State.openDebug_kept | apply State.debugFail_kept | (split <;> try dsimp only) | grind [State.newChallenge_kept]

theorem doDebugHalt_kept {cm cn ci : Bool} {s0 s : State} (hk : Kept cm cn ci s0 s) : Kept cm cn ci s0 (doDebugHalt s) := by
  unfold doDebugHalt
  try dsimp only
  repeat' first | with_reducible first | assumption | (apply ite_kept <;> intro _) | simp only [mk_kept] | apply State.setBit_kept | (split <;> try dsimp only)

theorem State.forget_kept {cm cn ci : Bool} {s0 s : State} (hk : Kept cm cn ci s0 s) : Kept cm cn ci s0 (State.forget s) := by
  unfold State.forget
  try dsimp only
  repeat' first | with_reducible first | assumption | (apply ite_kept <;> intro _) | simp only [mk_kept] | (split <;> try dsimp only)

theorem doDebugResume_kept {cm cn ci : Bool} {s0 s : State} (hk : Kept cm cn ci s0 s) : Kept cm cn ci s0 (doDebugResume s) := by
  unfold doDebugResume
  try dsimp only
  repeat' first | with_reducible first | assumption | (apply ite_kept <;> intro _) | simp only [mk_kept] | apply State.setBit_kept | apply State.forget_kept | (split <;> try dsimp only)

theorem doDebugStep_kept {cm cn ci : Bool} {s0 s : State} (hk : Kept cm cn ci s0 s) : Kept cm cn ci s0 (doDebugStep s) := by
  unfold doDebugStep
  try dsimp only
  repeat' first | with_reducible first | assumption | (apply ite_kept <;> intro _) | simp only [mk_kept] | apply State.forget_kept | (split <;> try dsimp only)

theorem State.abstractRead_kept {cm cn ci : Bool} {s0 s : State} (regno : Nat) (hk : Kept cm cn ci s0 s) : Kept cm cn ci s0 (State.abstractRead s regno) := by
  unfold State.abstractRead
  try dsimp only
  repeat' first | with_reducible first | assumption | (apply ite_kept <;> intro _) | simp only [mk_kept] | apply State.free_kept | (split <;> try dsimp only) | grind [State.free_kept]

theorem State.abstractWrite_kept {cm cn ci : Bool} {s0 s : State} (regno : Nat) (w : Word) (hk : Kept cm cn ci s0 s) : Kept cm cn ci s0 (State.abstractWrite s regno w) := by
  unfold State.abstractWrite
  try dsimp only
  repeat' first | with_reducible first | assumption | (apply ite_kept <;> intro _) | simp only [mk_kept] | (split <;> try dsimp only)

theorem State.setDbgExc_kept {cm cn ci : Bool} {s0 s : State} (b : Bool) (hk : Kept cm cn ci s0 s) : Kept cm cn ci s0 (State.setDbgExc s b) := by
  unfold State.setDbgExc
  try dsimp only
  repeat' first | with_reducible first | assumption | (apply ite_kept <;> intro _) | simp only [mk_kept] | (split <;> try dsimp only)

theorem doDebugAbstractCommand_kept {cm cn ci : Bool} {s0 s : State} (regno : Nat) (write : Option Word) (hk : Kept cm cn ci s0 s) : Kept cm cn ci s0 (doDebugAbstractCommand s regno write) := by
  unfold doDebugAbstractCommand
  try dsimp only
  repeat' first | with_reducible first | assumption | (apply ite_kept <;> intro _) | simp only [mk_kept] | apply State.setDbgExc_kept | apply State.abstractWrite_kept | apply State.abstractRead_kept | (split <;> try dsimp only)

theorem doDebugSysbusRead_kept {cm cn ci : Bool} {s0 s : State} (addr : Nat) (hk : Kept cm cn ci s0 s) : Kept cm cn ci s0 (doDebugSysbusRead s addr) := by
  unfold doDebugSysbusRead
  try dsimp only
  repeat' first | with_reducible first | assumption | (apply ite_kept <;> intro _) | simp only [mk_kept] | apply State.busRecord_kept | (split <;> try dsimp only)

theorem doDebugResetRequest_kept {s0 s : State} (hk : Kept true true true s0 s) : Kept true true true s0 (doDebugResetRequest s) := by
  unfold doDebugResetRequest
  try dsimp only
  repeat' first | with_reducible first | assumption | (apply ite_kept <;> intro _) | simp only [mk_kept, mk_kept_nv, mk_kept_force, mk_kept_both] | apply State.assertReset_kept | (split <;> try dsimp only)

theorem State.secStart_kept {cm cn ci : Bool} {s0 s : State} (f : Nat) (hk : Kept cm cn ci s0 s) : Kept cm cn ci s0 (State.secStart s f) := by
  unfold State.secStart
  try dsimp only
  repeat' first | with_reducible first | assumption | (apply ite_kept <;> intro _) | simp only [mk_kept] | apply State.setFld_kept | apply State.setBit_kept | (split <;> try dsimp only)

theorem State.secFail_kept {cm cn ci : Bool} {s0 s : State} (hk : Kept cm cn ci s0 s) : Kept cm cn ci s0 (State.secFail s) := by
  unfold State.secFail
  try dsimp only
  repeat' first | with_reducible first | assumption | (apply ite_kept <;> intro _) | simp only [mk_kept] | apply State.setBit_kept | (split <;> try dsimp only)

theorem doSecOperationDone_kept {cn ci : Bool} {s0 s : State} (ok : Bool) (hk : Kept true cn ci s0 s) : Kept true cn ci s0 (doSecOperationDone s ok) := by
  unfold doSecOperationDone
  try dsimp only
  repeat' first | with_reducible first | assumption | (apply ite_kept <;> intro _) | simp only [mk_kept] | apply State.setBit_kept | apply State.free_kept | apply State.wrBytes_kept | apply State.secFail_kept | (split <;> try dsimp only) | grind [State.free_kept]

theorem State.putKey_kept {cm cn ci : Bool} {s0 s : State} (slot : Nat) (key : List Byte) (hk : Kept cm cn ci s0 s) : Kept cm cn ci s0 (State.putKey s slot key) := by
  unfold State.putKey
  try dsimp only
  repeat' first | with_reducible first | assumption | (apply ite_kept <;> intro _) | simp only [mk_kept] | (split <;> try dsimp only)

theorem doSecKeyLoad_kept {cm cn ci : Bool} {s0 s : State} (slot : Nat) (hk : Kept cm cn ci s0 s) : Kept cm cn ci s0 (doSecKeyLoad s slot) := by
  unfold doSecKeyLoad
  try dsimp only
  repeat' first | with_reducible first | assumption | (apply ite_kept <;> intro _) | simp only [mk_kept] | apply State.putKey_kept | (split <;> try dsimp only)

theorem doSecKeyGenerate_kept {cm cn ci : Bool} {s0 s : State} (slot : Nat) (hk : Kept cm cn ci s0 s) : Kept cm cn ci s0 (doSecKeyGenerate s slot) := by
  unfold doSecKeyGenerate
  try dsimp only
  repeat' first | with_reducible first | assumption | (apply ite_kept <;> intro _) | simp only [mk_kept] | apply State.secFail_kept | apply State.randWord_kept | apply State.putKey_kept | (split <;> try dsimp only) | grind [State.randWord_kept]

theorem doSecRandomRead_kept {cm cn ci : Bool} {s0 s : State} (hk : Kept cm cn ci s0 s) : Kept cm cn ci s0 (doSecRandomRead s) := by
  unfold doSecRandomRead
  try dsimp only
  repeat' first | with_reducible first | assumption | (apply ite_kept <;> intro _) | simp only [mk_kept] | apply State.randWord_kept | apply State.wrN_kept | (split <;> try dsimp only) | grind [State.randWord_kept]

theorem State.loadTrims_kept {cm cn ci : Bool} {s0 s : State} (hk : Kept cm cn ci s0 s) : Kept cm cn ci s0 (State.loadTrims s) := by
  unfold State.loadTrims
  try dsimp only
  repeat' first | with_reducible first | assumption | (apply ite_kept <;> intro _) | simp only [mk_kept] | apply State.wrN_kept | (with_reducible refine foldl_kept _ _ (fun _ _ _ => ?_) ?_ <;> try dsimp only) | (split <;> try dsimp only)

theorem doWipeDone_kept {cn ci : Bool} {s0 s : State} (durUs : Nat) (hk : Kept true cn ci s0 s) : Kept true cn ci s0 (doWipeDone s durUs) := by
  unfold doWipeDone
  try dsimp only
  repeat' first | with_reducible first | assumption | (apply ite_kept <;> intro _) | simp only [mk_kept] | apply State.setBit_kept | apply State.setFld_kept | apply State.loadTrims_kept | apply State.refreshRecovery_kept | (split <;> try dsimp only)

theorem State.spoilLcs_kept {cm ci : Bool} {s0 s : State} (bad : Nat) (hk : Kept cm true ci s0 s) : Kept cm true ci s0 (State.spoilLcs s bad) := by
  unfold State.spoilLcs
  try dsimp only
  repeat' first | with_reducible first | assumption | (apply ite_kept <;> intro _) | simp only [mk_kept, mk_kept_nv] | (split <;> try dsimp only)

theorem State.lcsCopies_kept {cm ci : Bool} {s0 s : State} (bad : Nat) (hk : Kept cm true ci s0 s) : Kept cm true ci s0 (State.lcsCopies s bad) := by
  unfold State.lcsCopies
  try dsimp only
  repeat' first | with_reducible first | assumption | (apply ite_kept <;> intro _) | simp only [mk_kept, mk_kept_nv] | apply State.spoilLcs_kept | apply State.setBit_kept | apply State.setFld_kept | apply State.wrN_kept | (split <;> try dsimp only)

theorem State.toPll_kept {cm cn ci : Bool} {s0 s : State} (hk : Kept cm cn ci s0 s) : Kept cm cn ci s0 (State.toPll s) := by
  unfold State.toPll
  try dsimp only
  repeat' first | with_reducible first | assumption | (apply ite_kept <;> intro _) | simp only [mk_kept] | apply State.orReg_kept | apply State.setFld_kept | apply State.setBit_kept | (split <;> try dsimp only)

theorem State.reportX32_kept {cm cn ci : Bool} {s0 s : State} (hk : Kept cm cn ci s0 s) : Kept cm cn ci s0 (State.reportX32 s) := by
  unfold State.reportX32
  try dsimp only
  repeat' first | with_reducible first | assumption | (apply ite_kept <;> intro _) | simp only [mk_kept] | apply State.setBit_kept | apply State.logS_kept | (split <;> try dsimp only)

theorem State.reportCox_kept {cm cn ci : Bool} {s0 s : State} (hk : Kept cm cn ci s0 s) : Kept cm cn ci s0 (State.reportCox s) := by
  unfold State.reportCox
  try dsimp only
  repeat' first | with_reducible first | assumption | (apply ite_kept <;> intro _) | simp only [mk_kept] | apply State.logS_kept | (split <;> try dsimp only)

theorem State.reportPor_kept {cm cn ci : Bool} {s0 s : State} (last : Nat) (hk : Kept cm cn ci s0 s) : Kept cm cn ci s0 (State.reportPor s last) := by
  unfold State.reportPor
  try dsimp only
  repeat' first | with_reducible first | assumption | (apply ite_kept <;> intro _) | simp only [mk_kept] | apply State.randWord_kept | apply State.wrN_kept | (split <;> try dsimp only) | grind [State.randWord_kept]

theorem State.reportWake_kept {cm cn ci : Bool} {s0 s : State} (last : Nat) (hk : Kept cm cn ci s0 s) : Kept cm cn ci s0 (State.reportWake s last) := by
  unfold State.reportWake
  try dsimp only
  repeat' first | with_reducible first | assumption | (apply ite_kept <;> intro _) | simp only [mk_kept] | apply State.runFor_kept | apply State.logS_kept | (split <;> try dsimp only)

theorem State.reportSessions_kept {cm cn ci : Bool} {s0 s : State} (hk : Kept cm cn ci s0 s) : Kept cm cn ci s0 (State.reportSessions s) := by
  unfold State.reportSessions
  try dsimp only
  repeat' first | with_reducible first | assumption | (apply ite_kept <;> intro _) | simp only [mk_kept] | apply State.setCon_kept | apply State.logS0_kept | (with_reducible refine foldl_kept _ _ (fun _ _ _ => ?_) ?_ <;> try dsimp only) | (split <;> try dsimp only)

theorem State.reportReset_kept {cm cn ci : Bool} {s0 s : State} (hk : Kept cm cn ci s0 s) : Kept cm cn ci s0 (State.reportReset s) := by
  unfold State.reportReset
  try dsimp only
  repeat' first | with_reducible first | assumption | (apply ite_kept <;> intro _) | simp only [mk_kept] | apply State.logS_kept | (split <;> try dsimp only)

theorem State.reportStart_kept {cm cn ci : Bool} {s0 s : State} (hk : Kept cm cn ci s0 s) : Kept cm cn ci s0 (State.reportStart s) := by
  unfold State.reportStart
  try dsimp only
  repeat' first | with_reducible first | assumption | (apply ite_kept <;> intro _) | simp only [mk_kept] | apply State.reportX32_kept | apply State.reportCox_kept | apply State.reportPor_kept | apply State.reportWake_kept | apply State.reportSessions_kept | (split <;> try dsimp only)

theorem State.mailboxStart_kept {cm cn ci : Bool} {s0 s : State} (hk : Kept cm cn ci s0 s) : Kept cm cn ci s0 (State.mailboxStart s) := by
  unfold State.mailboxStart
  try dsimp only
  repeat' first | with_reducible first | assumption | (apply ite_kept <;> intro _) | simp only [mk_kept] | apply State.setTag_kept | (split <;> try dsimp only)

theorem State.startCamlan_kept {s0 s : State} (build : Nat) (hk : Kept true true true s0 s) : Kept true true true s0 (State.startCamlan s build) := by
  unfold State.startCamlan
  try dsimp only
  repeat' first | with_reducible first | assumption | (apply ite_kept <;> intro _) | simp only [mk_kept, mk_kept_nv, mk_kept_force, mk_kept_both] | apply State.toPll_kept | apply State.wrN_kept | apply State.reportReset_kept | apply State.tallyScan_kept | apply State.refreshReport_kept | apply State.shoreScan_kept | apply State.finishTransition_kept | apply State.reportStart_kept | apply State.configure_kept | apply State.writeSlots_kept | apply State.beginVerify_kept | apply State.setCrew_kept | apply State.mailboxStart_kept | apply State.drainRx_kept | (split <;> try dsimp only)

theorem doImageVerify_kept {s0 s : State} (failed : Option ImageCheck) (build : Nat) (lcsBad : Nat) (hk : Kept true true true s0 s) : Kept true true true s0 (doImageVerify s failed build lcsBad) := by
  unfold doImageVerify
  try dsimp only
  repeat' first | with_reducible first | assumption | (apply ite_kept <;> intro _) | simp only [mk_kept, mk_kept_nv, mk_kept_force, mk_kept_both] | apply State.lcsCopies_kept | apply State.startTestEnd_kept | apply State.setBit_kept | apply State.bootFault_kept | apply State.startCamlan_kept | (split <;> try dsimp only)

theorem State.flashProbe_kept {cm cn ci : Bool} {s0 s : State} (jedec : Nat) (hk : Kept cm cn ci s0 s) : Kept cm cn ci s0 (State.flashProbe s jedec) := by
  unfold State.flashProbe
  try dsimp only
  repeat' first | with_reducible first | assumption | (apply ite_kept <;> intro _) | simp only [mk_kept] | apply State.suspend_kept | apply State.logS_kept | apply State.setBit_kept | (with_reducible refine foldl_kept _ _ (fun _ _ _ => ?_) ?_ <;> try dsimp only) | (split <;> try dsimp only)

theorem State.startTimer_kept {ci : Bool} {s0 s : State} (jedec : Nat) (hk : Kept true true ci s0 s) : Kept true true ci s0 (State.startTimer s jedec) := by
  unfold State.startTimer
  try dsimp only
  repeat' first | with_reducible first | assumption | (apply ite_kept <;> intro _) | simp only [mk_kept, mk_kept_nv] | apply State.setFld_kept | apply State.setBit_kept | apply State.orReg_kept | apply State.startRadio_kept | apply State.startEnum_kept | apply State.flashProbe_kept | (split <;> try dsimp only)

theorem doStrokeTimerStart_kept {ci : Bool} {s0 s : State} (jedec : Nat) (hk : Kept true true ci s0 s) : Kept true true ci s0 (doStrokeTimerStart s jedec) := by
  unfold doStrokeTimerStart
  try dsimp only
  repeat' first | with_reducible first | assumption | (apply ite_kept <;> intro _) | simp only [mk_kept, mk_kept_nv] | apply State.startTimer_kept | (split <;> try dsimp only)

theorem doArmRun_kept {ci : Bool} {s0 s : State} (jedec : Nat) (hk : Kept true true ci s0 s) : Kept true true ci s0 (doArmRun s jedec) := by
  unfold doArmRun
  try dsimp only
  repeat' first | with_reducible first | assumption | (apply ite_kept <;> intro _) | simp only [mk_kept, mk_kept_nv] | apply State.setBit_kept | apply State.startTimer_kept | (split <;> try dsimp only)

theorem doCrewListenEnd_kept {ci : Bool} {s0 s : State} (jedec : Nat) (hk : Kept true true ci s0 s) : Kept true true ci s0 (doCrewListenEnd s jedec) := by
  unfold doCrewListenEnd
  try dsimp only
  repeat' first | with_reducible first | assumption | (apply ite_kept <;> intro _) | simp only [mk_kept, mk_kept_nv] | apply State.startTimer_kept | (split <;> try dsimp only)

theorem State.defaultHelm_kept {cm cn ci : Bool} {s0 s : State} (hk : Kept cm cn ci s0 s) : Kept cm cn ci s0 (State.defaultHelm s) := by
  unfold State.defaultHelm
  try dsimp only
  repeat' first | with_reducible first | assumption | (apply ite_kept <;> intro _) | simp only [mk_kept] | apply State.setHelm_kept | (split <;> try dsimp only)

theorem State.findConfirmation_kept {cm cn ci : Bool} {s0 s : State} (hk : Kept cm cn ci s0 s) : Kept cm cn ci s0 (State.findConfirmation s) := by
  unfold State.findConfirmation
  try dsimp only
  repeat' first | with_reducible first | assumption | (apply ite_kept <;> intro _) | simp only [mk_kept] | apply State.wrN_kept | apply State.setTag_kept | (split <;> try dsimp only)

theorem doStakeBoatEnd_kept {s0 s : State} (hk : Kept true true true s0 s) : Kept true true true s0 (doStakeBoatEnd s) := by
  unfold doStakeBoatEnd
  try dsimp only
  repeat' first | with_reducible first | assumption | (apply ite_kept <;> intro _) | simp only [mk_kept, mk_kept_nv, mk_kept_force, mk_kept_both] | apply State.setBit_kept | apply State.canCtrl_kept | apply State.crewInterval_kept | apply State.radioInterval_kept | apply State.updSeat_kept | apply State.showSeats_kept | apply State.applyAt_kept | apply State.startVerified_kept | apply State.startSculls_kept | apply State.defaultHelm_kept | apply State.enableKpa_kept | apply State.startPeriod_kept | apply State.startHoming_kept | apply State.findConfirmation_kept | apply State.logS_kept | apply State.easyMany_kept | apply State.tallyOp_kept | apply State.shore_kept | (with_reducible refine foldl_kept _ _ (fun _ _ _ => ?_) ?_ <;> try dsimp only) | (split <;> try dsimp only)

theorem State.reach_kept {cm cn ci : Bool} {s0 s : State} (percent : Nat) (b : Nat) (hk : Kept cm cn ci s0 s) : Kept cm cn ci s0 (State.reach s percent b) := by
  unfold State.reach
  try dsimp only
  repeat' first | with_reducible first | assumption | (apply ite_kept <;> intro _) | simp only [mk_kept] | apply State.atUs_kept | apply State.setBit_kept | (split <;> try dsimp only)

theorem doGatherDeadline_kept {cn ci : Bool} {s0 s : State} (hk : Kept true cn ci s0 s) : Kept true cn ci s0 (doGatherDeadline s) := by
  unfold doGatherDeadline
  try dsimp only
  repeat' first | with_reducible first | assumption | (apply ite_kept <;> intro _) | simp only [mk_kept] | apply State.reach_kept | apply State.chainDeadline_kept | apply State.radioQuiet_kept | (split <;> try dsimp only)

theorem doFinishDeadline_kept {cm cn ci : Bool} {s0 s : State} (hk : Kept cm cn ci s0 s) : Kept cm cn ci s0 (doFinishDeadline s) := by
  unfold doFinishDeadline
  try dsimp only
  repeat' first | with_reducible first | assumption | (apply ite_kept <;> intro _) | simp only [mk_kept] | apply State.reach_kept | (split <;> try dsimp only)

theorem doRecoveryTail_kept {cm cn ci : Bool} {s0 s : State} (hk : Kept cm cn ci s0 s) : Kept cm cn ci s0 (doRecoveryTail s) := by
  unfold doRecoveryTail
  try dsimp only
  repeat' first | with_reducible first | assumption | (apply ite_kept <;> intro _) | simp only [mk_kept] | apply State.reach_kept | apply State.scrub_kept | (split <;> try dsimp only)

theorem doStrokeTrim_kept {cm cn ci : Bool} {s0 s : State} (v : Int) (hk : Kept cm cn ci s0 s) : Kept cm cn ci s0 (doStrokeTrim s v) := by
  unfold doStrokeTrim
  try dsimp only
  repeat' first | with_reducible first | assumption | (apply ite_kept <;> intro _) | simp only [mk_kept] | apply State.setFld_kept | (split <;> try dsimp only)

theorem doHeatRestart_kept {cm cn ci : Bool} {s0 s : State} (hk : Kept cm cn ci s0 s) : Kept cm cn ci s0 (doHeatRestart s) := by
  unfold doHeatRestart
  try dsimp only
  repeat' first | with_reducible first | assumption | (apply ite_kept <;> intro _) | simp only [mk_kept] | (split <;> try dsimp only)

theorem doAgreementDemand_kept {cm cn ci : Bool} {s0 s : State} (mask : Nat) (hk : Kept cm cn ci s0 s) : Kept cm cn ci s0 (doAgreementDemand s mask) := by
  unfold doAgreementDemand
  try dsimp only
  repeat' first | with_reducible first | assumption | (apply ite_kept <;> intro _) | simp only [mk_kept] | apply State.setBit_kept | (split <;> try dsimp only)

theorem State.demandGroup_kept {cm cn ci : Bool} {s0 s : State} (fb : Nat) (g : Nat) (hk : Kept cm cn ci s0 s) : Kept cm cn ci s0 (State.demandGroup s fb g) := by
  unfold State.demandGroup
  try dsimp only
  repeat' first | with_reducible first | assumption | (apply ite_kept <;> intro _) | simp only [mk_kept] | apply State.setFld_kept | apply State.wrN_kept | (with_reducible refine foldl_kept _ _ (fun _ _ _ => ?_) ?_ <;> try dsimp only) | (split <;> try dsimp only)

theorem doDemandDone_kept {cm cn ci : Bool} {s0 s : State} (us : Nat) (fb : Nat) (hk : Kept cm cn ci s0 s) : Kept cm cn ci s0 (doDemandDone s us fb) := by
  unfold doDemandDone
  try dsimp only
  repeat' first | with_reducible first | assumption | (apply ite_kept <;> intro _) | simp only [mk_kept] | apply State.atUs_kept | apply State.demandGroup_kept | apply State.setBit_kept | apply State.wrN_kept | (with_reducible refine foldl_kept _ _ (fun _ _ _ => ?_) ?_ <;> try dsimp only) | (split <;> try dsimp only)

theorem State.crab_kept {cm cn ci : Bool} {s0 s : State} (hk : Kept cm cn ci s0 s) : Kept cm cn ci s0 (State.crab s) := by
  unfold State.crab
  try dsimp only
  repeat' first | with_reducible first | assumption | (apply ite_kept <;> intro _) | simp only [mk_kept] | apply State.setBit_kept | apply State.setFld_kept | apply State.incSat_kept | (split <;> try dsimp only)

theorem doCoxCrab_kept {cm cn ci : Bool} {s0 s : State} (hk : Kept cm cn ci s0 s) : Kept cm cn ci s0 (doCoxCrab s) := by
  unfold doCoxCrab
  try dsimp only
  repeat' first | with_reducible first | assumption | (apply ite_kept <;> intro _) | simp only [mk_kept] | apply State.crab_kept | (split <;> try dsimp only)

theorem doEasyAutoclear_kept {cm cn ci : Bool} {s0 s : State} (hk : Kept cm cn ci s0 s) : Kept cm cn ci s0 (doEasyAutoclear s) := by
  unfold doEasyAutoclear
  try dsimp only
  repeat' first | with_reducible first | assumption | (apply ite_kept <;> intro _) | simp only [mk_kept] | apply State.leaveEasy_kept | (split <;> try dsimp only)

theorem State.sumCheck_kept {cm cn ci : Bool} {s0 s : State} (i : Nat) (hk : Kept cm cn ci s0 s) : Kept cm cn ci s0 (State.sumCheck s i) := by
  unfold State.sumCheck
  try dsimp only
  repeat' first | with_reducible first | assumption | (apply ite_kept <;> intro _) | simp only [mk_kept] | apply State.setBit_kept | apply State.logS_kept | (split <;> try dsimp only)

theorem State.answer_kept {cm cn ci : Bool} {s0 s : State} (o : Origin) (t : String) (hk : Kept cm cn ci s0 s) : Kept cm cn ci s0 (State.answer s o t) := by
  unfold State.answer
  try dsimp only
  repeat' first | with_reducible first | assumption | (apply ite_kept <;> intro _) | simp only [mk_kept] | apply State.say_kept | (split <;> try dsimp only)

theorem State.answerSaves_kept {cn ci : Bool} {s0 s : State} (hk : Kept true cn ci s0 s) : Kept true cn ci s0 (State.answerSaves s) := by
  unfold State.answerSaves
  try dsimp only
  repeat' first | with_reducible first | assumption | (apply ite_kept <;> intro _) | simp only [mk_kept] | apply State.say_kept | apply State.mailboxReply_kept | apply State.setEst_kept | (with_reducible refine foldl_kept _ _ (fun _ _ _ => ?_) ?_ <;> try dsimp only) | (split <;> try dsimp only)

theorem State.enumRestart_kept {cm cn ci : Bool} {s0 s : State} (hk : Kept cm cn ci s0 s) : Kept cm cn ci s0 (State.enumRestart s) := by
  unfold State.enumRestart
  try dsimp only
  repeat' first | with_reducible first | assumption | (apply ite_kept <;> intro _) | simp only [mk_kept] | (split <;> try dsimp only)

theorem State.finishTrim_kept {cm cn ci : Bool} {s0 s : State} (clean : Bool) (hk : Kept cm cn ci s0 s) : Kept cm cn ci s0 (State.finishTrim s clean) := by
  unfold State.finishTrim
  try dsimp only
  repeat' first | with_reducible first | assumption | (apply ite_kept <;> intro _) | simp only [mk_kept] | apply State.setCrew_kept | apply doStrokeTrim_kept | (split <;> try dsimp only)

theorem State.pumpSkipTest_kept {cm cn ci : Bool} {s0 s : State} (hk : Kept cm cn ci s0 s) : Kept cm cn ci s0 (State.pumpSkipTest s) := by
  unfold State.pumpSkipTest
  try dsimp only
  repeat' first | with_reducible first | assumption | (apply ite_kept <;> intro _) | simp only [mk_kept] | (split <;> try dsimp only)

theorem State.finishReplies_kept {cm cn ci : Bool} {s0 s : State} (hk : Kept cm cn ci s0 s) : Kept cm cn ci s0 (State.finishReplies s) := by
  unfold State.finishReplies
  try dsimp only
  repeat' first | with_reducible first | assumption | (apply ite_kept <;> intro _) | simp only [mk_kept] | apply State.answer_kept | apply State.setEst_kept | apply State.pump_kept | (with_reducible refine foldl_kept _ _ (fun _ _ _ => ?_) ?_ <;> try dsimp only) | (split <;> try dsimp only)

theorem State.camlanFinish_kept {cn ci : Bool} {s0 s : State} (clean : Bool) (hk : Kept true cn ci s0 s) : Kept true cn ci s0 (State.camlanFinish s clean) := by
  unfold State.camlanFinish
  try dsimp only
  repeat' first | with_reducible first | assumption | (apply ite_kept <;> intro _) | simp only [mk_kept] | apply State.pumpSkipTest_kept | apply State.ageFinish_kept | apply State.sumCheck_kept | apply State.restFinish_kept | apply State.warnFinish_kept | apply State.canaWarning_kept | apply State.limitsFinish_kept | apply State.ticketFinish_kept | apply State.answerSaves_kept | apply State.enumRestart_kept | apply State.finishTrim_kept | apply State.publish_kept | apply State.finishReplies_kept | (with_reducible refine foldl_kept _ _ (fun _ _ _ => ?_) ?_ <;> try dsimp only) | (split <;> try dsimp only)

theorem State.cleanFinish_kept {cm cn ci : Bool} {s0 s : State} (hk : Kept cm cn ci s0 s) : Kept cm cn ci s0 (State.cleanFinish s) := by
  unfold State.cleanFinish
  try dsimp only
  repeat' first | with_reducible first | assumption | (apply ite_kept <;> intro _) | simp only [mk_kept] | apply State.setBit_kept | apply State.setFld_kept | (split <;> try dsimp only)

theorem doFinish_kept {cn ci : Bool} {s0 s : State} (us : Nat) (hk : Kept true cn ci s0 s) : Kept true cn ci s0 (doFinish s us) := by
  unfold doFinish
  try dsimp only
  repeat' first | with_reducible first | assumption | (apply ite_kept <;> intro _) | simp only [mk_kept] | apply State.atUs_kept | apply State.setFld_kept | apply State.cleanFinish_kept | apply State.camlanFinish_kept | (split <;> try dsimp only)

theorem State.endStroke_kept {cm cn ci : Bool} {s0 s : State} (hk : Kept cm cn ci s0 s) : Kept cm cn ci s0 (State.endStroke s) := by
  unfold State.endStroke
  try dsimp only
  repeat' first | with_reducible first | assumption | (apply ite_kept <;> intro _) | simp only [mk_kept] | apply State.crab_kept | apply State.incSat_kept | (split <;> try dsimp only)

theorem State.catchTime_kept {cm cn ci : Bool} {s0 s : State} (hk : Kept cm cn ci s0 s) : Kept cm cn ci s0 (State.catchTime s) := by
  unfold State.catchTime
  try dsimp only
  repeat' first | with_reducible first | assumption | (apply ite_kept <;> intro _) | simp only [mk_kept] | apply State.wrN_kept | apply State.setFld_kept | apply State.atUs_kept | apply State.setBit_kept | (split <;> try dsimp only)

theorem State.catchBank_kept {cm cn ci : Bool} {s0 s : State} (fb : Nat) (hk : Kept cm cn ci s0 s) : Kept cm cn ci s0 (State.catchBank s fb) := by
  unfold State.catchBank
  try dsimp only
  repeat' first | with_reducible first | assumption | (apply ite_kept <;> intro _) | simp only [mk_kept] | apply State.wrN_kept | (with_reducible refine foldl_kept _ _ (fun _ _ _ => ?_) ?_ <;> try dsimp only) | (split <;> try dsimp only)

theorem State.kpaMeasure_kept {cm cn ci : Bool} {s0 s : State} (m : KpaMeas) (hk : Kept cm cn ci s0 s) : Kept cm cn ci s0 (State.kpaMeasure s m) := by
  unfold State.kpaMeasure
  try dsimp only
  repeat' first | with_reducible first | assumption | (apply ite_kept <;> intro _) | simp only [mk_kept] | apply State.wrN_kept | apply State.setKpa_kept | (split <;> try dsimp only)

theorem State.catchSense_kept {cm cn ci : Bool} {s0 s : State} (inp : CatchIn) (hk : Kept cm cn ci s0 s) : Kept cm cn ci s0 (State.catchSense s inp) := by
  unfold State.catchSense
  try dsimp only
  repeat' first | with_reducible first | assumption | (apply ite_kept <;> intro _) | simp only [mk_kept] | apply State.wrN_kept | apply State.setBit_kept | apply State.kpaMeasure_kept | (split <;> try dsimp only)

theorem State.applyWinner_kept {ci : Bool} {s0 s : State} (w : Nat × Order) (hk : Kept true true ci s0 s) : Kept true true ci s0 (State.applyWinner s w) := by
  unfold State.applyWinner
  try dsimp only
  repeat' first | with_reducible first | assumption | (apply ite_kept <;> intro _) | simp only [mk_kept, mk_kept_nv] | apply State.winString_kept | apply State.winPre_kept | apply State.winMdi_kept | apply State.setStanding_kept | (split <;> try dsimp only)

theorem State.resolve_kept {ci : Bool} {s0 s : State} (orders : List Order) (hk : Kept true true ci s0 s) : Kept true true ci s0 (State.resolve s orders) := by
  unfold State.resolve
  try dsimp only
  repeat' first | with_reducible first | assumption | (apply ite_kept <;> intro _) | simp only [mk_kept, mk_kept_nv] | apply State.tallyDeny_kept | apply State.applyWinner_kept | apply State.logOutcome_kept | apply State.hibCancel_kept | apply State.surgeResolve_kept | apply State.writeReplies_kept | apply State.crewReplies_kept | apply State.mirror_kept | (with_reducible refine foldl_kept _ _ (fun _ _ _ => ?_) ?_ <;> try dsimp only) | apply State.resolveSet_kept | (split <;> try dsimp only)

theorem State.quietCatch_kept {cm cn ci : Bool} {s0 s : State} (hk : Kept cm cn ci s0 s) : Kept cm cn ci s0 (State.quietCatch s) := by
  unfold State.quietCatch
  try dsimp only
  repeat' first | with_reducible first | assumption | (apply ite_kept <;> intro _) | simp only [mk_kept] | (split <;> try dsimp only)

theorem State.slotsCatch_kept {cm cn ci : Bool} {s0 s : State} (hk : Kept cm cn ci s0 s) : Kept cm cn ci s0 (State.slotsCatch s) := by
  unfold State.slotsCatch
  try dsimp only
  repeat' first | with_reducible first | assumption | (apply ite_kept <;> intro _) | simp only [mk_kept] | apply State.writeSlots_kept | (split <;> try dsimp only)

theorem State.restoreAnswer_kept {cm cn ci : Bool} {s0 s : State} (hk : Kept cm cn ci s0 s) : Kept cm cn ci s0 (State.restoreAnswer s) := by
  unfold State.restoreAnswer
  try dsimp only
  repeat' first | with_reducible first | assumption | (apply ite_kept <;> intro _) | simp only [mk_kept] | apply State.restoreCatch_kept | apply State.restoreReply_kept | (split <;> try dsimp only)

theorem State.camlanFirst_kept {ci : Bool} {s0 s : State} (crabNo : Nat) (finUs : Option Nat) (inp : CatchIn) (hk : Kept true true ci s0 s) : Kept true true ci s0 (State.camlanFirst s crabNo finUs inp) := by
  unfold State.camlanFirst
  try dsimp only
  repeat' first | with_reducible first | assumption | (apply ite_kept <;> intro _) | simp only [mk_kept, mk_kept_nv] | apply State.logS_kept | apply State.tallyOp_kept | apply State.setBit_kept | apply State.easy_kept | (split <;> try dsimp only)

theorem State.camlanReads_kept {ci : Bool} {s0 s : State} (first : Bool) (skipped : Bool) (inp : CatchIn) (hk : Kept true true ci s0 s) : Kept true true ci s0 (State.camlanReads s first skipped inp) := by
  unfold State.camlanReads
  try dsimp only
  repeat' first | with_reducible first | assumption | (apply ite_kept <;> intro _) | simp only [mk_kept, mk_kept_nv] | apply State.countStroke_kept | apply State.strCatch_kept | apply State.stepsCatch_kept | apply State.kbatCount_kept | apply State.shortCircuit_kept | apply State.sinCatch_kept | apply State.catchContact_kept | apply State.catchDrop_kept | apply State.motorMeas_kept | apply State.pumpTest_kept | apply State.crossCheck_kept | apply State.satCheck_kept | apply State.ntcCheck_kept | apply State.heatStart_kept | apply State.heatCatch_kept | (with_reducible refine foldl_kept _ _ (fun _ _ _ => ?_) ?_ <;> try dsimp only) | (split <;> try dsimp only)

theorem State.camlanDecides_kept {s0 s : State} (hk : Kept true true true s0 s) : Kept true true true s0 (State.camlanDecides s) := by
  unfold State.camlanDecides
  try dsimp only
  repeat' first | with_reducible first | assumption | (apply ite_kept <;> intro _) | simp only [mk_kept, mk_kept_nv, mk_kept_force, mk_kept_both] | apply State.strStep_kept | apply State.mdiCatch_kept | apply State.catchDefer_kept | apply State.kinRelease_kept | apply State.blackCatch_kept | apply State.weldCatch_kept | apply State.startVerified_kept | apply State.sweep_kept | apply State.keyCatch_kept | apply State.sessionCatch_kept | apply State.resubmit_kept | apply State.restoreAnswer_kept | apply State.idleCatch_kept | apply State.shoreCatch_kept | apply State.serviceReturn_kept | apply State.applyConfirmed_kept | apply State.slotsCatch_kept | apply State.quietCatch_kept | (with_reducible refine foldl_kept _ _ (fun _ _ _ => ?_) ?_ <;> try dsimp only) | (split <;> try dsimp only)

theorem State.tallyJudge_kept {ci : Bool} {s0 s : State} (hk : Kept true true ci s0 s) : Kept true true ci s0 (State.tallyJudge s) := by
  unfold State.tallyJudge
  try dsimp only
  repeat' first | with_reducible first | assumption | (apply ite_kept <;> intro _) | simp only [mk_kept, mk_kept_nv] | apply State.tallyFailed_kept | (split <;> try dsimp only)

theorem State.actsEnd_kept {ci : Bool} {s0 s : State} (hk : Kept true true ci s0 s) : Kept true true ci s0 (State.actsEnd s) := by
  have h := State.tallyFlush_kept hk
  exact ⟨h.1, h.2, h.3, h.4, h.5, h.6, h.7, fun _ => rfl⟩

/-- A catch: from the first acts to the end of the acts, what is kept is judged from a state whose acts are in progress. -/
theorem State.camlanActs_kept {s t : State} (u : State) (ha : t.acts ≠ .idle) (hs : Kept true true true s { t with acts := s.acts })
    (hu : Kept true true true t u) : Kept true true true s (State.actsEnd u) := by
  have h := State.tallyFlush_kept hu
  exact ⟨h.1.trans hs.1, Nat.le_trans hs.2 h.2, fun w => h.3 (hs.3 w), fun w => h.4 (hs.4 w), (fun k => nomatch k), (fun k => nomatch k),
    (fun k => nomatch k), fun _ => rfl⟩

theorem State.camlanCatch_kept {s0 s : State} (first : Bool) (skipped : Bool) (crabNo : Nat) (finUs : Option Nat) (inp : CatchIn) (hk : Kept true true true s0 s) : Kept true true true s0 (State.camlanCatch s first skipped crabNo finUs inp) := by
  unfold State.camlanCatch
  dsimp only
  refine State.pump_kept _ (State.pump_kept _ (State.drainRx_kept _ (State.drainRx_kept _ ?_)))
  refine hk.trans ?_
  generalize hx : (if s.stk.prevCrab = true then s else { s with cam := { s.cam with orders := [] } }) = x
  have hxk : Kept true true true s x := by
    subst hx
    apply ite_kept <;> intro _
    · exact Kept.refl _ _ _ _
    · exact ⟨rfl, Nat.le_refl _, id, id, fun _ => rfl, fun _ => rfl, fun _ => rfl, id⟩
  have ha : x.findCauses.acts ≠ .idle := by simp [State.findCauses]
  refine State.camlanActs_kept (t := x.findCauses) _ ha (s := s) ?_ ?_
  · exact ⟨hxk.1, hxk.2, hxk.3, hxk.4, (fun k => nomatch k), (fun k => nomatch k), (fun k => nomatch k), id⟩
  · have h1 := State.takeCauses_kept (ci := true) ha (State.camlanReads_kept first skipped inp (State.camlanFirst_kept crabNo finUs inp (Kept.refl _ _ _ x.findCauses)))
    refine State.takeCauses_kept ha (State.tallyJudge_kept (State.camlanDecides_kept (State.findCauses_kept ha ?_)))
    repeat' first | with_reducible first | assumption | (apply ite_kept <;> intro _) | simp only [mk_kept] | apply State.setStanding_kept | apply State.setEst_kept | apply State.resolve_kept | (with_reducible refine foldl_kept _ _ (fun _ _ _ => ?_) ?_ <;> try dsimp only)

theorem State.hardwareCatch_kept {ci : Bool} {s0 s : State} (first : Bool) (hk : Kept true true ci s0 s) : Kept true true ci s0 (State.hardwareCatch s first) := by
  unfold State.hardwareCatch
  try dsimp only
  repeat' first | with_reducible first | assumption | (apply ite_kept <;> intro _) | simp only [mk_kept, mk_kept_nv] | apply State.snapshot_kept | apply State.noteSnap_kept | apply State.fcsLatch_kept | apply State.setPart_kept | apply State.catchOutputs_kept | apply State.mdiOutput_kept | apply State.catchImd_kept | apply State.feedStroke_kept | apply State.chainCatch_kept | apply State.canCatch_kept | apply State.radioCatch_kept | apply State.crewCatch_kept | (with_reducible refine foldl_kept _ _ (fun _ _ _ => ?_) ?_ <;> try dsimp only) | (split <;> try dsimp only)

theorem doCatch_kept {s0 s : State} (inp : CatchIn) (hk : Kept true true true s0 s) : Kept true true true s0 (doCatch s inp) := by
  unfold doCatch
  try dsimp only
  repeat' first | with_reducible first | assumption | (apply ite_kept <;> intro _) | simp only [mk_kept, mk_kept_nv, mk_kept_force, mk_kept_both] | apply State.endStroke_kept | apply State.catchTime_kept | apply State.catchBank_kept | apply State.catchSense_kept | apply State.hardwareCatch_kept | apply State.camlanCatch_kept | (split <;> try dsimp only)

theorem State.lifeWatch_kept {cm cn ci : Bool} {s0 s : State} (hk : Kept cm cn ci s0 s) : Kept cm cn ci s0 (State.lifeWatch s) := by
  unfold State.lifeWatch
  try dsimp only
  repeat' first | with_reducible first | assumption | (apply ite_kept <;> intro _) | simp only [mk_kept] | apply State.runFor_kept | apply State.tallyAcc_kept | (split <;> try dsimp only)

theorem State.profileWatch_kept {cm ci : Bool} {s0 s : State} (hk : Kept cm true ci s0 s) : Kept cm true ci s0 (State.profileWatch s) := by
  unfold State.profileWatch
  try dsimp only
  repeat' first | with_reducible first | assumption | (apply ite_kept <;> intro _) | simp only [mk_kept, mk_kept_nv] | apply State.logS_kept | (with_reducible refine foldl_kept _ _ (fun _ _ _ => ?_) ?_ <;> try dsimp only) | (split <;> try dsimp only)

theorem State.camlanWatch_kept {s0 s : State} (hk : Kept true true true s0 s) : Kept true true true s0 (State.camlanWatch s) := by
  unfold State.camlanWatch
  try dsimp only
  repeat' first | with_reducible first | assumption | (apply ite_kept <;> intro _) | simp only [mk_kept, mk_kept_nv, mk_kept_force, mk_kept_both] | apply State.imdWatch_kept | apply State.blackWatch_kept | apply State.estWatch_kept | apply State.crewWatch_kept | apply State.applyAt_kept | apply State.lifeWatch_kept | apply State.profileWatch_kept | apply State.lineErrorsWatch_kept | (split <;> try dsimp only)

theorem doWatch_kept {s0 s : State} (hk : Kept true true true s0 s) : Kept true true true s0 (doWatch s) := by
  unfold doWatch
  try dsimp only
  repeat' first | with_reducible first | assumption | (apply ite_kept <;> intro _) | simp only [mk_kept, mk_kept_nv, mk_kept_force, mk_kept_both] | apply State.setBit_kept | apply State.canWatch_kept | apply State.chop_kept | apply State.swapBanks_kept | apply State.chargeWatch_kept | apply State.logWatch_kept | apply State.chainWatch_kept | apply State.hopWatch_kept | apply State.camlanWatch_kept | (split <;> try dsimp only)

theorem State.storeCore_kept {s0 s : State} (a : Nat) (w : Word) (hk : Kept true true true s0 s) : Kept true true true s0 (State.storeCore s a w) := by
  unfold State.storeCore
  try dsimp only
  repeat' first | with_reducible first | assumption | (apply ite_kept <;> intro _) | simp only [mk_kept, mk_kept_nv, mk_kept_force, mk_kept_both] | apply doFinish_kept | apply doStrokeTrim_kept | apply doHeatRestart_kept | apply doAgreementDemand_kept | apply doMismatchResetInhibit_kept | apply doCoxLock_kept | apply doPermitArm_kept | apply doMismatchAck_kept | apply doInjectDifference_kept | apply doInjectClear_kept | apply doSoftReset_kept | apply doBootHold_kept | apply doLcsRequest_kept | apply doScullEnable_kept | apply doSlotSwapRequest_kept | apply doEventSet_kept | apply doGrantWrite_kept | (with_reducible refine foldl_kept _ _ (fun _ _ _ => ?_) ?_ <;> try dsimp only) | (split <;> try dsimp only)

theorem State.storeUnits_kept {ci : Bool} {s0 s : State} (a : Nat) (w : Word) (hk : Kept true true ci s0 s) : Kept true true ci s0 (State.storeUnits s a w) := by
  unfold State.storeUnits
  try dsimp only
  repeat' first | with_reducible first | assumption | (apply ite_kept <;> intro _) | simp only [mk_kept, mk_kept_nv] | apply doChargerStop_kept | apply doChargerStart_kept | apply doVocNow_kept | apply doChargerClear_kept | apply doAuxClear_kept | apply doShipEnter_kept | apply doCaptureArm_kept | apply doCaptureTrigger_kept | apply doFcsSelfTest_kept | apply doHvsTest_kept | apply doChainSubmit_kept | apply doRadioSubmit_kept | apply doCalibrateNow_kept | apply doGrantQueue_kept | apply doPumpSkip_kept | apply doSnapTest_kept | apply doMdiGo_kept | apply doMdiStop_kept | (split <;> try dsimp only)

theorem State.storeCan_kept {cm cn ci : Bool} {s0 s : State} (a : Nat) (w : Word) (hk : Kept cm cn ci s0 s) : Kept cm cn ci s0 (State.storeCan s a w) := by
  unfold State.storeCan
  try dsimp only
  repeat' first | with_reducible first | assumption | (apply ite_kept <;> intro _) | simp only [mk_kept] | apply doWindowSelect_kept | apply doWindowCommit_kept | apply doTxRequest_kept | apply doTxAbort_kept | (with_reducible refine foldl_kept _ _ (fun _ _ _ => ?_) ?_ <;> try dsimp only) | (split <;> try dsimp only)

theorem State.storeLast_kept {ci : Bool} {s0 s : State} (a : Nat) (w : Word) (hk : Kept true true ci s0 s) : Kept true true ci s0 (State.storeLast s a w) := by
  unfold State.storeLast
  try dsimp only
  repeat' first | with_reducible first | assumption | (apply ite_kept <;> intro _) | simp only [mk_kept, mk_kept_nv] | apply State.secStart_kept | apply doLogSubmit_kept | apply doLogCursorLoad_kept | apply doLogBookRelease_kept | apply doEfcProgram_kept | apply doEfcErase_kept | apply doEfcTolerantRead_kept | apply doTagFlush_kept | apply doTagSemaphoreTake_kept | apply doTagSemaphoreRelease_kept | apply doTagWipe_kept | apply doXipInvalidate_kept | apply doGpioSet_kept | apply doGpioClr_kept | apply doSecKeyGenerate_kept | apply doSecKeyLoad_kept | apply doQpPush_kept | (with_reducible refine foldl_kept _ _ (fun _ _ _ => ?_) ?_ <;> try dsimp only) | (split <;> try dsimp only)

theorem State.coxStore_kept {s0 s : State} (a : Nat) (w : Word) (hk : Kept true true true s0 s) : Kept true true true s0 (State.coxStore s a w) := by
  unfold State.coxStore
  try dsimp only
  repeat' first | with_reducible first | assumption | (apply ite_kept <;> intro _) | simp only [mk_kept, mk_kept_nv, mk_kept_force, mk_kept_both] | apply State.coxBusError_kept | apply State.storeCore_kept | apply State.storeUnits_kept | apply State.storeCan_kept | apply State.storeLast_kept | apply State.st_kept | apply doRegisterWrite_kept | apply doTagHostStore_kept | (split <;> try dsimp only)

theorem State.loadRow_kept {cm cn ci : Bool} {s0 s : State} (a : Nat) (hk : Kept cm cn ci s0 s) : Kept cm cn ci s0 (State.loadRow s a) := by
  unfold State.loadRow
  try dsimp only
  repeat' first | with_reducible first | assumption | (apply ite_kept <;> intro _) | simp only [mk_kept] | apply doStrokeTimeRead_kept | apply doCcaLiveRead_kept | apply doCaptureRead_kept | apply doSecRandomRead_kept | (split <;> try dsimp only)

theorem State.coxLoad_kept {ci : Bool} {s0 s : State} (a : Nat) (hk : Kept true true ci s0 s) : Kept true true ci s0 (State.coxLoad s a) := by
  unfold State.coxLoad
  try dsimp only
  repeat' first | with_reducible first | assumption | (apply ite_kept <;> intro _) | simp only [mk_kept, mk_kept_nv] | apply State.coxBusError_kept | apply State.loadRow_kept | apply doReadClear_kept | apply doLogWindowAdvance_kept | (split <;> try dsimp only)

theorem doDebugProgramBuffer_kept {s0 s : State} (words : List Word) (acc : BusAccess) (hk : Kept true true true s0 s) : Kept true true true s0 (doDebugProgramBuffer s words acc) := by
  unfold doDebugProgramBuffer
  try dsimp only
  repeat' first | with_reducible first | assumption | (apply ite_kept <;> intro _) | simp only [mk_kept, mk_kept_nv, mk_kept_force, mk_kept_both] | apply State.coxStore_kept | apply State.coxLoad_kept | (split <;> try dsimp only)

end Sys2Proof.Machine
end

