-- ==== Sys2Proof/Laws/PerInstr.lean ====
section
/-!
SUPPORT. One lemma per command: opcode_table.json gives no row bits, so no word spells a command.
-/

namespace Sys2Proof.Laws.NoWordSpells

/-- No word, of any length, is decoded to the command. -/
def Statement (i : Instr) : Prop := ∀ nbits w : Nat, decodeTableWord nbits w ≠ some i

theorem of_none (i : Instr) : Statement i := fun _ _ h => nomatch h

theorem registerWrite rq addr value : Statement (.registerWrite rq addr value) := of_none _
theorem readClear rq addr aborted : Statement (.readClear rq addr aborted) := of_none _
theorem busError rq user write addr : Statement (.busError rq user write addr) := of_none _
theorem strokeTimerStart jedec : Statement (.strokeTimerStart jedec) := of_none _
theorem catchPoint inp : Statement (.catchPoint inp) := of_none _
theorem gatherDeadline : Statement .gatherDeadline := of_none _
theorem finish us : Statement (.finish us) := of_none _
theorem coxCrab : Statement .coxCrab := of_none _
theorem easyAutoclear : Statement .easyAutoclear := of_none _
theorem recoveryTail : Statement .recoveryTail := of_none _
theorem watch : Statement .watch := of_none _
theorem strokeTrim v : Statement (.strokeTrim v) := of_none _
theorem heatRestart : Statement .heatRestart := of_none _
theorem agreementDemand mask : Statement (.agreementDemand mask) := of_none _
theorem demandDone us fb : Statement (.demandDone us fb) := of_none _
theorem interruptLineChange line level : Statement (.interruptLineChange line level) := of_none _
theorem tenantCrabLimit k : Statement (.tenantCrabLimit k) := of_none _
theorem lockstepMismatch groups pc : Statement (.lockstepMismatch groups pc) := of_none _
theorem lockstepReset : Statement .lockstepReset := of_none _
theorem eccCorrected rq addr data check : Statement (.eccCorrected rq addr data check) := of_none _
theorem eccFatal addr data check pc : Statement (.eccFatal addr data check pc) := of_none _
theorem eccFatalReset : Statement .eccFatalReset := of_none _
theorem eccCorrLimit : Statement .eccCorrLimit := of_none _
theorem injectDifference group det : Statement (.injectDifference group det) := of_none _
theorem injectClear : Statement .injectClear := of_none _
theorem coxLock : Statement .coxLock := of_none _
theorem permitArm : Statement .permitArm := of_none _
theorem mismatchAck : Statement .mismatchAck := of_none _
theorem mismatchResetInhibit value : Statement (.mismatchResetInhibit value) := of_none _
theorem resetPin lowUs : Statement (.resetPin lowUs) := of_none _
theorem porAssert : Statement .porAssert := of_none _
theorem porRelease : Statement .porRelease := of_none _
theorem softReset value : Statement (.softReset value) := of_none _
theorem resetAssert cause : Statement (.resetAssert cause) := of_none _
theorem resetRelease : Statement .resetRelease := of_none _
theorem wipeDone durUs : Statement (.wipeDone durUs) := of_none _
theorem crystalStartFail : Statement .crystalStartFail := of_none _
theorem imageVerify failed build lcsBad : Statement (.imageVerify failed build lcsBad) := of_none _
theorem stallReset : Statement .stallReset := of_none _
theorem bootTimerExpire : Statement .bootTimerExpire := of_none _
theorem bootHold : Statement .bootHold := of_none _
theorem clockLoss : Statement .clockLoss := of_none _
theorem x32Loss : Statement .x32Loss := of_none _
theorem stakeBoatEnd : Statement .stakeBoatEnd := of_none _
theorem shorePeriodic : Statement .shorePeriodic := of_none _
theorem shoreGapEnd : Statement .shoreGapEnd := of_none _
theorem lcsRequest value : Statement (.lcsRequest value) := of_none _
theorem lcsTransitionComplete : Statement .lcsTransitionComplete := of_none _
theorem serviceTimeout : Statement .serviceTimeout := of_none _
theorem monitorYield sc : Statement (.monitorYield sc) := of_none _
theorem monitorWait sc mask : Statement (.monitorWait sc mask) := of_none _
theorem monitorSetvec sc handler mask : Statement (.monitorSetvec sc handler mask) := of_none _
theorem monitorEvret sc : Statement (.monitorEvret sc) := of_none _
theorem monitorInfo sc us : Statement (.monitorInfo sc us) := of_none _
theorem monitorLog sc code sev a2 a3 : Statement (.monitorLog sc code sev a2 a3) := of_none _
theorem monitorUnknownCall sc call : Statement (.monitorUnknownCall sc call) := of_none _
theorem eventDelivery sc : Statement (.eventDelivery sc) := of_none _
theorem eventSet value : Statement (.eventSet value) := of_none _
theorem slotStart sc idx : Statement (.slotStart sc idx) := of_none _
theorem slotEnd sc : Statement (.slotEnd sc) := of_none _
theorem slotSwapRequest : Statement .slotSwapRequest := of_none _
theorem scullEnable mask : Statement (.scullEnable mask) := of_none _
theorem grantWrite k reg value : Statement (.grantWrite k reg value) := of_none _
theorem partitionFault sc why : Statement (.partitionFault sc why) := of_none _
theorem scullFault sc mcause : Statement (.scullFault sc mcause) := of_none _
theorem doorbell k value us : Statement (.doorbell k value us) := of_none _
theorem doorbellCopyDone k : Statement (.doorbellCopyDone k) := of_none _
theorem tenantImageVerify k image header : Statement (.tenantImageVerify k image header) := of_none _
theorem autoResume k : Statement (.autoResume k) := of_none _
theorem sourceDisqualify src mv : Statement (.sourceDisqualify src mv) := of_none _
theorem sourceQualify src mv : Statement (.sourceQualify src mv) := of_none _
theorem mpptStep rose : Statement (.mpptStep rose) := of_none _
theorem vocCheck : Statement .vocCheck := of_none _
theorem vocNow : Statement .vocNow := of_none _
theorem vocWindowEnd vocMv : Statement (.vocWindowEnd vocMv) := of_none _
theorem blackStartQualify kinMv : Statement (.blackStartQualify kinMv) := of_none _
theorem blackStartSculls : Statement .blackStartSculls := of_none _
theorem kbatInserted kthCode kidOhm10 kbatMv : Statement (.kbatInserted kthCode kidOhm10 kbatMv) := of_none _
theorem kbatMissing : Statement .kbatMissing := of_none _
theorem kbatShortProbeEnd kbatMv : Statement (.kbatShortProbeEnd kbatMv) := of_none _
theorem chargePhaseLevel kbatMv : Statement (.chargePhaseLevel kbatMv) := of_none _
theorem chargeTimerExpire : Statement .chargeTimerExpire := of_none _
theorem chargeTaperEnd : Statement .chargeTaperEnd := of_none _
theorem nimhDeltaV : Statement .nimhDeltaV := of_none _
theorem nimhDtdt : Statement .nimhDtdt := of_none _
theorem chargeZoneChange kthCenti kbatMv : Statement (.chargeZoneChange kthCenti kbatMv) := of_none _
theorem chargeHeadroom kvinMv kbatMv : Statement (.chargeHeadroom kvinMv kbatMv) := of_none _
theorem chargeOvervoltage : Statement .chargeOvervoltage := of_none _
theorem chargeOvCheck present : Statement (.chargeOvCheck present) := of_none _
theorem chargeRecharge : Statement .chargeRecharge := of_none _
theorem chargeSourceLost : Statement .chargeSourceLost := of_none _
theorem chargerStop : Statement .chargerStop := of_none _
theorem chargerStart : Statement .chargerStart := of_none _
theorem chargerClear : Statement .chargerClear := of_none _
theorem auxClear : Statement .auxClear := of_none _
theorem shipEnter value : Statement (.shipEnter value) := of_none _
theorem shipWake : Statement .shipWake := of_none _
theorem kbtnLongPress : Statement .kbtnLongPress := of_none _
theorem kbtnPress : Statement .kbtnPress := of_none _
theorem auxFault : Statement .auxFault := of_none _
theorem auxRetry : Statement .auxRetry := of_none _
theorem auxSoftstartTimeout : Statement .auxSoftstartTimeout := of_none _
theorem auxChargerEnd : Statement .auxChargerEnd := of_none _
theorem auxProbe secondaryMv : Statement (.auxProbe secondaryMv) := of_none _
theorem ccaInterval sampleNv durNs : Statement (.ccaInterval sampleNv durNs) := of_none _
theorem ccaLiveRead : Statement .ccaLiveRead := of_none _
theorem strokeTimeRead rq us : Statement (.strokeTimeRead rq us) := of_none _
theorem currentWake : Statement .currentWake := of_none _
theorem ocsTrip us nv : Statement (.ocsTrip us nv) := of_none _
theorem bkiTrip nv : Statement (.bkiTrip nv) := of_none _
theorem bkiRelease nv : Statement (.bkiRelease nv) := of_none _
theorem captureTrigger : Statement .captureTrigger := of_none _
theorem captureArm : Statement .captureArm := of_none _
theorem captureRead : Statement .captureRead := of_none _
theorem fcsSelfTest : Statement .fcsSelfTest := of_none _
theorem fcsSelfTestEnd ocs bki meanCode : Statement (.fcsSelfTestEnd ocs bki meanCode) := of_none _
theorem hvsTest mask : Statement (.hvsTest mask) := of_none _
theorem hvsTestEnd fullScale : Statement (.hvsTestEnd fullScale) := of_none _
theorem linkLoss port : Statement (.linkLoss port) := of_none _
theorem linkRegain port : Statement (.linkRegain port) := of_none _
theorem enumTimeout echoA echoB : Statement (.enumTimeout echoA echoB) := of_none _
theorem sampleReadsStart : Statement .sampleReadsStart := of_none _
theorem chainResponse dir raw us : Statement (.chainResponse dir raw us) := of_none _
theorem chainTimeout dir us : Statement (.chainTimeout dir us) := of_none _
theorem catchEcho dir good sameEnd latency10ns : Statement (.catchEcho dir good sameEnd latency10ns) := of_none _
theorem ringSplit armaLast armbLast : Statement (.ringSplit armaLast armbLast) := of_none _
theorem ringHeal : Statement .ringHeal := of_none _
theorem seatLost seat : Statement (.seatLost seat) := of_none _
theorem chainSubmit tag cls : Statement (.chainSubmit tag cls) := of_none _
theorem radioRetune : Statement .radioRetune := of_none _
theorem beacon : Statement .beacon := of_none _
theorem radioSlot slot : Statement (.radioSlot slot) := of_none _
theorem radioResponse air us : Statement (.radioResponse air us) := of_none _
theorem radioTimeout us : Statement (.radioTimeout us) := of_none _
theorem lockLoss : Statement .lockLoss := of_none _
theorem lockTimeout : Statement .lockTimeout := of_none _
theorem slotForfeit slot lockDelayUs : Statement (.slotForfeit slot lockDelayUs) := of_none _
theorem calibrateNow : Statement .calibrateNow := of_none _
theorem joinRequest air : Statement (.joinRequest air) := of_none _
theorem grantQueue seat : Statement (.grantQueue seat) := of_none _
theorem radioSubmit tag cls : Statement (.radioSubmit tag cls) := of_none _
theorem channelQuarantineEnd ch : Statement (.channelQuarantineEnd ch) := of_none _
theorem seatFaulty seat : Statement (.seatFaulty seat) := of_none _
theorem oneBlade seat : Statement (.oneBlade seat) := of_none _
theorem coilOvercurrent c : Statement (.coilOvercurrent c) := of_none _
theorem coilOpenLoad c : Statement (.coilOpenLoad c) := of_none _
theorem closeTimeout c : Statement (.closeTimeout c) := of_none _
theorem negOpenTimeout str : Statement (.negOpenTimeout str) := of_none _
theorem weldFeedback c : Statement (.weldFeedback c) := of_none _
theorem weldHvsJudge c : Statement (.weldHvsJudge c) := of_none _
theorem pumpSnap : Statement .pumpSnap := of_none _
theorem railLoss : Statement .railLoss := of_none _
theorem railUp : Statement .railUp := of_none _
theorem pumpSkip : Statement .pumpSkip := of_none _
theorem snapTest : Statement .snapTest := of_none _
theorem deferExpire : Statement .deferExpire := of_none _
theorem energyGateTimeout str : Statement (.energyGateTimeout str) := of_none _
theorem admitTimeout str : Statement (.admitTimeout str) := of_none _
theorem testPulseFault src : Statement (.testPulseFault src) := of_none _
theorem sinLevelChange n level : Statement (.sinLevelChange n level) := of_none _
theorem sinFinding n cross : Statement (.sinFinding n cross) := of_none _
theorem sinFindingClear n : Statement (.sinFindingClear n) := of_none _
theorem sinPairDiscrepancy n : Statement (.sinPairDiscrepancy n) := of_none _
theorem mdiTimeout : Statement .mdiTimeout := of_none _
theorem mdiStall : Statement .mdiStall := of_none _
theorem mdiOvercurrent : Statement .mdiOvercurrent := of_none _
theorem mdiBrakeEnd : Statement .mdiBrakeEnd := of_none _
theorem mdiWaitDefer : Statement .mdiWaitDefer := of_none _
theorem mdiGo close : Statement (.mdiGo close) := of_none _
theorem mdiStop : Statement .mdiStop := of_none _
theorem imdHalfEnd v1 v1a v1b u1 : Statement (.imdHalfEnd v1 v1a v1b u1) := of_none _
theorem imdPeriodEnd v2 v2a v2b u2 : Statement (.imdPeriodEnd v2 v2a v2b u2) := of_none _
theorem imdKinExclude : Statement .imdKinExclude := of_none _
theorem kinStale : Statement .kinStale := of_none _
theorem imdSwitchFault nSide : Statement (.imdSwitchFault nSide) := of_none _
theorem hibernateIdle : Statement .hibernateIdle := of_none _
theorem hibernateGraceEnd : Statement .hibernateGraceEnd := of_none _
theorem consoleWake port : Statement (.consoleWake port) := of_none _
theorem surgeDoorbell k value us : Statement (.surgeDoorbell k value us) := of_none _
theorem ticketExpire : Statement .ticketExpire := of_none _
theorem canFrameReceived x f us : Statement (.canFrameReceived x f us) := of_none _
theorem windowSelect rq x value : Statement (.windowSelect rq x value) := of_none _
theorem windowCommit rq x : Statement (.windowCommit rq x) := of_none _
theorem txRequest rq x mask us : Statement (.txRequest rq x mask us) := of_none _
theorem txAbort rq x mask : Statement (.txAbort rq x mask) := of_none _
theorem txAttempt x obj us : Statement (.txAttempt x obj us) := of_none _
theorem txAttemptEnd x ok lostArb lec : Statement (.txAttemptEnd x ok lostArb lec) := of_none _
theorem txLimitReached x obj byDeadline : Statement (.txLimitReached x obj byDeadline) := of_none _
theorem canErrorState x err tec rec lec dlec : Statement (.canErrorState x err tec rec lec dlec) := of_none _
theorem canBusOff x : Statement (.canBusOff x) := of_none _
theorem busoffHoldEnd x : Statement (.busoffHoldEnd x) := of_none _
theorem busoffRecovered x ms : Statement (.busoffRecovered x ms) := of_none _
theorem canWake ball : Statement (.canWake ball) := of_none _
theorem canaPeriodic : Statement .canaPeriodic := of_none _
theorem crewReferenceSend : Statement .crewReferenceSend := of_none _
theorem crewReferenceReceived data sof : Statement (.crewReferenceReceived data sof) := of_none _
theorem crewReferenceMissing : Statement .crewReferenceMissing := of_none _
theorem crewListenEnd jedec : Statement (.crewListenEnd jedec) := of_none _
theorem armRun jedec : Statement (.armRun jedec) := of_none _
theorem crewJoinReceived lane data us : Statement (.crewJoinReceived lane data us) := of_none _
theorem crewSummaryReceived lane data us : Statement (.crewSummaryReceived lane data us) := of_none _
theorem laneGone lane : Statement (.laneGone lane) := of_none _
theorem crewOrdersReceived lane data us : Statement (.crewOrdersReceived lane data us) := of_none _
theorem crewOutcomeReceived lane data us : Statement (.crewOutcomeReceived lane data us) := of_none _
theorem crewNoreply lane : Statement (.crewNoreply lane) := of_none _
theorem consoleLine port us : Statement (.consoleLine port us) := of_none _
theorem autobaud port width : Statement (.autobaud port width) := of_none _
theorem consoleBreak port : Statement (.consoleBreak port) := of_none _
theorem sessionIdle port : Statement (.sessionIdle port) := of_none _
theorem loginLockoutEnd port : Statement (.loginLockoutEnd port) := of_none _
theorem challengeExpire port : Statement (.challengeExpire port) := of_none _
theorem noticeFlush port : Statement (.noticeFlush port) := of_none _
theorem lostNotice port : Statement (.lostNotice port) := of_none _
theorem ping port : Statement (.ping port) := of_none _
theorem loginInstaller port code : Statement (.loginInstaller port code) := of_none _
theorem loginTenant port k code : Statement (.loginTenant port k code) := of_none _
theorem loginService port : Statement (.loginService port) := of_none _
theorem auth port id sig : Statement (.auth port id sig) := of_none _
theorem logout port : Statement (.logout port) := of_none _
theorem whoami port : Statement (.whoami port) := of_none _
theorem passcode port k code : Statement (.passcode port k code) := of_none _
theorem showVersion port : Statement (.showVersion port) := of_none _
theorem showStart port us : Statement (.showStart port us) := of_none _
theorem showStatus port : Statement (.showStatus port) := of_none _
theorem showString port str : Statement (.showString port str) := of_none _
theorem showSeat port n : Statement (.showSeat port n) := of_none _
theorem showHelm port : Statement (.showHelm port) := of_none _
theorem showTicket port : Statement (.showTicket port) := of_none _
theorem showMdi port : Statement (.showMdi port) := of_none _
theorem showImd port : Statement (.showImd port) := of_none _
theorem showSin port : Statement (.showSin port) := of_none _
theorem showKpa port : Statement (.showKpa port) := of_none _
theorem showPart port : Statement (.showPart port) := of_none _
theorem showCrew port : Statement (.showCrew port) := of_none _
theorem showChain port : Statement (.showChain port) := of_none _
theorem showRadio port : Statement (.showRadio port) := of_none _
theorem showReset port : Statement (.showReset port) := of_none _
theorem showTally port : Statement (.showTally port) := of_none _
theorem getParam port keys : Statement (.getParam port keys) := of_none _
theorem openOrder port target us : Statement (.openOrder port target us) := of_none _
theorem closeOrder port target us : Statement (.closeOrder port target us) := of_none _
theorem limitOrder port target mA us : Statement (.limitOrder port target mA us) := of_none _
theorem helmTake port us : Statement (.helmTake port us) := of_none _
theorem helmRelease port us : Statement (.helmRelease port us) := of_none _
theorem surge port power duration us : Statement (.surge port power duration us) := of_none _
theorem surgeRelease port : Statement (.surgeRelease port) := of_none _
theorem crewOrder port lane kind target value ref : Statement (.crewOrder port lane kind target value ref) := of_none _
theorem crewSurge port lane power duration ref : Statement (.crewSurge port lane power duration ref) := of_none _
theorem setParams port pairs : Statement (.setParams port pairs) := of_none _
theorem stageShow port : Statement (.stageShow port) := of_none _
theorem stageCheck port : Statement (.stageCheck port) := of_none _
theorem stageDrop port : Statement (.stageDrop port) := of_none _
theorem stageDump port : Statement (.stageDump port) := of_none _
theorem confirm port check : Statement (.confirm port check) := of_none _
theorem lcsCommission port code : Statement (.lcsCommission port code) := of_none _
theorem lcsBlank port : Statement (.lcsBlank port) := of_none _
theorem lcsSeal port : Statement (.lcsSeal port) := of_none _
theorem lcsService port : Statement (.lcsService port) := of_none _
theorem lcsRetire port : Statement (.lcsRetire port) := of_none _
theorem clearEasy port : Statement (.clearEasy port) := of_none _
theorem clearPrecharge port str : Statement (.clearPrecharge port str) := of_none _
theorem clearWeld port str : Statement (.clearWeld port str) := of_none _
theorem clearContactor port c : Statement (.clearContactor port c) := of_none _
theorem clearMdi port : Statement (.clearMdi port) := of_none _
theorem clearSin port n : Statement (.clearSin port n) := of_none _
theorem clearImd port : Statement (.clearImd port) := of_none _
theorem clearSeat port n : Statement (.clearSeat port n) := of_none _
theorem clearKbat port : Statement (.clearKbat port) := of_none _
theorem clearAux port : Statement (.clearAux port) := of_none _
theorem stop port : Statement (.stop port) := of_none _
theorem ship port : Statement (.ship port) := of_none _
theorem hibernate port : Statement (.hibernate port) := of_none _
theorem kbatStart port : Statement (.kbatStart port) := of_none _
theorem kbatStop port : Statement (.kbatStop port) := of_none _
theorem suspend port k : Statement (.suspend port k) := of_none _
theorem resume port k : Statement (.resume port k) := of_none _
theorem pairSeat port n : Statement (.pairSeat port n) := of_none _
theorem pairAll port : Statement (.pairAll port) := of_none _
theorem estSave port : Statement (.estSave port) := of_none _
theorem estRestoreBegin port size : Statement (.estRestoreBegin port size) := of_none _
theorem estRestoreData port off data : Statement (.estRestoreData port off data) := of_none _
theorem estRestoreEnd port : Statement (.estRestoreEnd port) := of_none _
theorem logHead port book : Statement (.logHead port book) := of_none _
theorem logRead port book seq count : Statement (.logRead port book seq count) := of_none _
theorem logRelease port book upto : Statement (.logRelease port book upto) := of_none _
theorem logSubmit rq : Statement (.logSubmit rq) := of_none _
theorem logRecordWrite : Statement .logRecordWrite := of_none _
theorem logCursorLoad rq seq : Statement (.logCursorLoad rq seq) := of_none _
theorem logWindowAdvance rq : Statement (.logWindowAdvance rq) := of_none _
theorem logBookRelease rq book : Statement (.logBookRelease rq book) := of_none _
theorem tallyAccCommit verifyOk : Statement (.tallyAccCommit verifyOk) := of_none _
theorem efcProgram rq key : Statement (.efcProgram rq key) := of_none _
theorem efcErase rq key : Statement (.efcErase rq key) := of_none _
theorem efcTolerantRead rq data check : Statement (.efcTolerantRead rq data check) := of_none _
theorem efcOperationDone ok : Statement (.efcOperationDone ok) := of_none _
theorem sectorRefresh : Statement .sectorRefresh := of_none _
theorem tagReqa : Statement .tagReqa := of_none _
theorem tagWupa : Statement .tagWupa := of_none _
theorem tagAnticollision level bitsKnown : Statement (.tagAnticollision level bitsKnown) := of_none _
theorem tagSelect level uid : Statement (.tagSelect level uid) := of_none _
theorem tagHlta : Statement .tagHlta := of_none _
theorem tagRead page : Statement (.tagRead page) := of_none _
theorem tagWrite page data verifyOk us : Statement (.tagWrite page data verifyOk us) := of_none _
theorem tagCompatWrite page data verifyOk us : Statement (.tagCompatWrite page data verifyOk us) := of_none _
theorem tagSectorSelect sector : Statement (.tagSectorSelect sector) := of_none _
theorem tagFieldOn : Statement .tagFieldOn := of_none _
theorem tagFieldOff : Statement .tagFieldOff := of_none _
theorem tagHostStore addr data : Statement (.tagHostStore addr data) := of_none _
theorem tagFlush : Statement .tagFlush := of_none _
theorem tagRowProgramDone verifyOk : Statement (.tagRowProgramDone verifyOk) := of_none _
theorem tagConfirmation : Statement .tagConfirmation := of_none _
theorem tagMailboxRequest : Statement .tagMailboxRequest := of_none _
theorem tagSemaphoreTake : Statement .tagSemaphoreTake := of_none _
theorem tagSemaphoreRelease : Statement .tagSemaphoreRelease := of_none _
theorem tagFieldIdleRelease : Statement .tagFieldIdleRelease := of_none _
theorem tagWipe value : Statement (.tagWipe value) := of_none _
theorem qpPush rq n : Statement (.qpPush rq n) := of_none _
theorem qpChainRun n : Statement (.qpChainRun n) := of_none _
theorem qpChainEnd received : Statement (.qpChainEnd received) := of_none _
theorem xipMiss sc addr : Statement (.xipMiss sc addr) := of_none _
theorem xipLineDone data tag data2 tag2 : Statement (.xipLineDone data tag data2 tag2) := of_none _
theorem xipInvalidate : Statement .xipInvalidate := of_none _
theorem qpSlaveFrame bits words : Statement (.qpSlaveFrame bits words) := of_none _
theorem gpioSet rq pins : Statement (.gpioSet rq pins) := of_none _
theorem gpioClr rq pins : Statement (.gpioClr rq pins) := of_none _
theorem gpioEdge pin level : Statement (.gpioEdge pin level) := of_none _
theorem debugAuth sig : Statement (.debugAuth sig) := of_none _
theorem debugHalt : Statement .debugHalt := of_none _
theorem debugResume : Statement .debugResume := of_none _
theorem debugStep : Statement .debugStep := of_none _
theorem debugAbstractCommand regno write : Statement (.debugAbstractCommand regno write) := of_none _
theorem debugProgramBuffer words acc : Statement (.debugProgramBuffer words acc) := of_none _
theorem debugSysbusRead addr : Statement (.debugSysbusRead addr) := of_none _
theorem debugResetRequest : Statement .debugResetRequest := of_none _
theorem secSha256 : Statement .secSha256 := of_none _
theorem secAesEcb : Statement .secAesEcb := of_none _
theorem secAesCcm : Statement .secAesCcm := of_none _
theorem secAesCmac : Statement .secAesCmac := of_none _
theorem secEcdsaVerify : Statement .secEcdsaVerify := of_none _
theorem secOperationDone ok : Statement (.secOperationDone ok) := of_none _
theorem secKeyLoad slot : Statement (.secKeyLoad slot) := of_none _
theorem secKeyGenerate slot : Statement (.secKeyGenerate slot) := of_none _
theorem secRandomRead : Statement .secRandomRead := of_none _
theorem finishDeadline : Statement .finishDeadline := of_none _
theorem fcsSample code : Statement (.fcsSample code) := of_none _
theorem hvsConversion ch code : Statement (.hvsConversion ch code) := of_none _
theorem tmpConversion codes dieCenti : Statement (.tmpConversion codes dieCenti) := of_none _
theorem sourceLimit chargerCut auxCut systemShort : Statement (.sourceLimit chargerCut auxCut systemShort) := of_none _
theorem auxTargetReached : Statement .auxTargetReached := of_none _
theorem pullinEnd c : Statement (.pullinEnd c) := of_none _
theorem lockAcquired us : Statement (.lockAcquired us) := of_none _
theorem consoleByteReceived port byte framingOk : Statement (.consoleByteReceived port byte framingOk) := of_none _
theorem consoleByteSent port : Statement (.consoleByteSent port) := of_none _

end Sys2Proof.Laws.NoWordSpells
end

