-- ==== Sys2Proof/Laws/Wire.lean ====
section
/-!
SUPPORT. Laws of the frames' bits: little-endian numbers read back, a chain frame is received as it was sent (R180, R181), an air frame opens to what it sealed (R209, R210), and the lengths of the check fields.
-/

namespace Sys2Proof.Machine

theorem byteOf_toNat (v : Nat) : (byteOf v).toNat = v % 256 := by simp [byteOf]

@[simp] theorem leBytes_length (n v : Nat) : (leBytes n v).length = n := by
  induction n generalizing v with
  | zero => rfl
  | succ k ih => simp [leBytes, ih]

theorem leNat_leBytes (n v : Nat) : leNat (leBytes n v) = v % 256 ^ n := by
  induction n generalizing v with
  | zero => simp [leBytes, leNat, Nat.mod_one]
  | succ k ih =>
    rw [leBytes, leNat, ih, byteOf_toNat, pow_succ, Nat.mul_comm (256 ^ k) 256, Nat.mod_mul]

theorem leNat_leBytes_of_lt {n v : Nat} (h : v < 256 ^ n) : leNat (leBytes n v) = v := by
  rw [leNat_leBytes, Nat.mod_eq_of_lt h]

theorem crc32_lt (l : List Byte) : crc32 l < 256 ^ 4 := by
  have hx (c : Nat) (h : c < 2 ^ 32) : crc32Bit c < 2 ^ 32 := by
    unfold crc32Bit
    split
    · exact Nat.xor_lt_two_pow (by omega) (by decide)
    · omega
  have hb (c : Nat) (b : Byte) (h : c < 2 ^ 32) : crc32Byte c b < 2 ^ 32 := by
    unfold crc32Byte
    have h0 : c ^^^ b.toNat < 2 ^ 32 := Nat.xor_lt_two_pow h (lt_trans b.isLt (by decide))
    have (n c : Nat) (h : c < 2 ^ 32) : (List.range n).foldl (fun c _ => crc32Bit c) c < 2 ^ 32 := by
      induction n generalizing c with
      | zero => simpa using h
      | succ k ih => rw [List.range_succ, List.foldl_append]; exact hx _ (ih c h)
    exact this 8 _ h0
  have hl (c : Nat) (h : c < 2 ^ 32) : l.foldl crc32Byte c < 2 ^ 32 := by
    induction l generalizing c with
    | nil => exact h
    | cons b t ih => exact ih _ (hb c b h)
  exact Nat.xor_lt_two_pow (hl _ (by decide)) (by decide)

/-! Chain frames -/

theorem Frame.bytes_length (f : Frame) : f.bytes.length = 8 + f.payload.length := by simp [Frame.bytes]; omega

/-- The numbers of a frame fit their fields (Table 8-1). -/
def Frame.fits (f : Frame) : Prop :=
  f.seat < 256 ∧ f.type < 256 ∧ f.tag < 65536 ∧ f.catchNo < 65536 ∧ f.flags < 256 ∧ f.payload.length < 256

/-- The header and payload of a frame read back, whatever follows. -/
theorem frameOf_bytes (f : Frame) (h : f.fits) (r : List Byte) : frameOf (f.bytes ++ r) = f := by
  obtain ⟨h1, h2, h3, h4, h5, h6⟩ := h
  have e1 (v : Nat) (hv : v < 256) : (byteOf v).toNat = v := by rw [byteOf_toNat]; omega
  have e2 (v : Nat) (hv : v < 65536) : v % 256 + 256 * (v / 256 % 256) = v := by omega
  simp [frameOf, Frame.bytes, leBytes, leNat, e1, e2, h1, h2, h3, h4, h5, h6]

theorem lengthField (f : Frame) (h : f.fits) (r : List Byte) : leNat (((f.bytes ++ r).drop 6).take 1) = f.payload.length := by
  have := h.2.2.2.2.2
  simp [Frame.bytes, leBytes, leNat]; omega

/-- A frame that a port sent is received whole and passes (R180, R181). -/
theorem recvChain_sent (f : Frame) (h : f.fits) (hp : f.payload.length ≤ 96) : recvChain (f.bytes ++ u32 (crc32 f.bytes)) = some (true, f) := by
  unfold recvChain
  have hl := f.bytes_length
  rw [lengthField f h]
  simp only [List.length_append, leBytes_length]
  rw [if_neg (by omega), frameOf_bytes f h, ← hl]
  have h4 : List.take 4 (u32 (crc32 f.bytes)) = u32 (crc32 f.bytes) := List.take_of_length_le (by simp)
  simp [h4, leNat_leBytes_of_lt (crc32_lt f.bytes)]

/-! Air frames -/

theorem aesBlock_length (k x : List Byte) : (aesBlock k x).length = 16 := by simp [aesBlock]

theorem ccmStream_length (k nonce : List Byte) (n : Nat) : (ccmStream k nonce n).length = n := by
  have h (m : Nat) : ((List.range m).flatMap (fun i => ccmBlock k nonce (i + 1))).length = 16 * m := by
    induction m with
    | zero => rfl
    | succ m ih => rw [List.range_succ, List.flatMap_append, List.length_append, ih]; simp [ccmBlock, aesBlock_length]; omega
  rw [ccmStream, List.length_take, h]; omega

theorem ccmMic_length (k nonce aad text : List Byte) : (ccmMic k nonce aad text).length = 4 := by
  have hm : (ccmMac k nonce aad text).length = 16 := by
    unfold ccmMac
    generalize ((0x49 :: nonce) ++ be16 text.length ++ padBlock (be16 aad.length ++ aad) ++ padBlock text) = l
    have (n : Nat) : ((List.range n).foldl (fun x i => aesBlock k (xorBlock x ((l.drop (16 * i)).take 16))) (List.replicate 16 (0 : Byte))).length = 16 := by
      induction n with
      | zero => simp
      | succ m _ => rw [List.range_succ, List.foldl_append]; exact aesBlock_length _ _
    exact this _
  simp [ccmMic, xorBlock, hm, ccmBlock, aesBlock_length]

theorem xorBlock_length (a b : List Byte) : (xorBlock a b).length = min a.length b.length := by simp [xorBlock]

theorem xorBlock_self (a b : List Byte) (h : a.length ≤ b.length) : xorBlock (xorBlock a b) b = a := by
  induction a generalizing b with
  | nil => rfl
  | cons x t ih =>
    cases b with
    | nil => simp at h
    | cons y u =>
      have := ih u (by simpa using h)
      simp only [xorBlock] at this
      simp [xorBlock, this]

/-- What was sealed under a key and nonce opens under them (R210). -/
theorem ccmOpen_ccmSeal (k nonce aad text : List Byte) : ccmOpen k nonce aad (ccmSeal k nonce aad text) = some text := by
  have hx : (xorBlock text (ccmStream k nonce text.length)).length = text.length := by rw [xorBlock_length, ccmStream_length]; simp
  have hn : (ccmSeal k nonce aad text).length - 4 = text.length := by simp [ccmSeal, hx, ccmMic_length]
  unfold ccmOpen
  rw [hn]
  have hs : xorBlock (xorBlock text (ccmStream k nonce text.length)) (ccmStream k nonce text.length) = text :=
    xorBlock_self _ _ (by rw [ccmStream_length])
  simp only [ccmSeal, List.take_left' hx, List.drop_left' hx, hs, if_true]

theorem ccmSeal_length (k nonce aad text : List Byte) : (ccmSeal k nonce aad text).length = text.length + 4 := by
  simp [ccmSeal, xorBlock_length, ccmStream_length, ccmMic_length]

/-- The fields after ACCESS of an air frame with given sealed bytes, cut as a receiver cuts them (R209). -/
theorem recvAir_sealed (k : AirKind) (key nonce ext sealed : List Byte) (seat try_ n : Nat) (he : ext.length = k.ext) (hs : sealed.length = n + 4) (hn : n < 256) :
    recvAir k key nonce ((u8 k.code ++ u8 seat ++ u8 try_ ++ u8 n ++ ext ++ sealed) ++ u32 (crc32 (u8 k.code ++ u8 seat ++ u8 try_ ++ u8 n ++ ext ++ sealed)))
      = match ccmOpen key nonce (u8 k.code ++ u8 seat ++ u8 try_ ++ u8 n ++ ext) sealed with
        | none => .mic
        | some p => .good (frameOf p) := by
  have hc : (u8 k.code ++ u8 seat ++ u8 try_ ++ u8 n ++ ext).length = 4 + k.ext := by simp [he]; omega
  have hlen (r : List Byte) : leNat (((u8 k.code ++ u8 seat ++ u8 try_ ++ u8 n ++ ext ++ sealed ++ r).drop 3).take 1) = n := by
    simp [leBytes, leNat]; omega
  generalize hb : u8 k.code ++ u8 seat ++ u8 try_ ++ u8 n ++ ext ++ sealed = body at *
  have hl : body.length = 8 + k.ext + n := by rw [← hb, List.length_append, hc, hs]; omega
  have h4 : List.take 4 (u32 (crc32 body)) = u32 (crc32 body) := List.take_of_length_le (by simp)
  unfold recvAir
  simp only [hlen, List.take_left' hl, List.drop_left' hl]
  rw [h4, leNat_leBytes_of_lt (crc32_lt _), if_neg (by simp [hl])]
  have ha : (body ++ u32 (crc32 body)).take (4 + k.ext) = u8 k.code ++ u8 seat ++ u8 try_ ++ u8 n ++ ext := by
    rw [← hb, List.append_assoc, List.take_left' hc]
  have hd : body.drop (4 + k.ext) = sealed := by rw [← hb, List.drop_left' hc]
  rw [ha, hd] <;> cases ccmOpen key nonce (u8 k.code ++ u8 seat ++ u8 try_ ++ u8 n ++ ext) sealed <;> rfl

/-- An air frame opens to the inner frame it was built from (R209, R210). -/
theorem recvAir_airTail (k : AirKind) (key nonce ext : List Byte) (seat try_ : Nat) (inner : List Byte) (he : ext.length = k.ext) (hi : inner.length < 256) :
    recvAir k key nonce (airTail k key nonce ext seat try_ inner) = .good (frameOf inner) := by
  have h := recvAir_sealed k key nonce ext (ccmSeal key nonce (u8 k.code ++ u8 seat ++ u8 try_ ++ u8 inner.length ++ ext) inner) seat try_ inner.length he (ccmSeal_length _ _ _ _) hi
  rw [ccmOpen_ccmSeal] at h
  exact h

/-- Another MIC than the one of the text fails (R209). -/
theorem ccmOpen_otherMic (k nonce aad text m : List Byte) (h : m ≠ ccmMic k nonce aad text) (hm : m.length = 4) :
    ccmOpen k nonce aad (xorBlock text (ccmStream k nonce text.length) ++ m) = none := by
  have hx : (xorBlock text (ccmStream k nonce text.length)).length = text.length := by rw [xorBlock_length, ccmStream_length]; simp
  have hn : (xorBlock text (ccmStream k nonce text.length) ++ m).length - 4 = text.length := by simp [hx, hm]
  unfold ccmOpen
  rw [hn]
  have hs : xorBlock (xorBlock text (ccmStream k nonce text.length)) (ccmStream k nonce text.length) = text :=
    xorBlock_self _ _ (by rw [ccmStream_length])
  simp only [List.take_left' hx, List.drop_left' hx, hs]
  rw [if_neg (fun e => h e.symm)]

/-- No byte list but the empty one stays as it is when every byte has a bit turned. -/
theorem turned_ne (l : List Byte) (h : l ≠ []) : l.map (fun b => b ^^^ 1) ≠ l := by
  cases l with
  | nil => exact absurd rfl h
  | cons b t =>
    intro e
    have h1 : b ^^^ 1 = b := (List.cons.inj e).1
    have h2 := congrArg (fun x => b ^^^ x) h1
    rw [← BitVec.xor_assoc, BitVec.xor_self, BitVec.zero_xor] at h2
    exact absurd h2 (by decide)

end Sys2Proof.Machine
end

