-- ==== Sys2Proof/WellFormed.lean ====
section
/-!
DEFINITION. When a command's operands name something the manual has and fit the fields that carry them. A command outside these bounds is no command of the block; what `exec` answers for it says nothing of the hardware (DESIGN CHOICE, log entry 65). Values that a console user may type out of range are well formed: the manual gives them an answer.
-/

namespace Sys2Proof

/-- A console port: CON0, CON1 (14). -/
def wfPort (n : Nat) : Bool := decide (n < 2)
/-- A time after the last catch: STK.PHASE.USEC has 15 bits (Table 2-9). -/
def wfUs (n : Nat) : Bool := decide (n < 32768)
/-- A Scull, 0 to 3 (Table 1-6). -/
def wfScull (n : Nat) : Bool := decide (n < 4)
/-- A partition, P1 to P7 (Table 2-2). -/
def wfPart (n : Nat) : Bool := decide (1 ≤ n) && decide (n ≤ 7)
/-- A coil driver, CD0 to CD11 (R228). -/
def wfCoil (n : Nat) : Bool := decide (n < 12)
/-- A string, 0 to 3 (R228). -/
def wfString (n : Nat) : Bool := decide (n < 4)
/-- A seat, 0x01 to 0x80 (R34). -/
def wfSeat (n : Nat) : Bool := decide (1 ≤ n) && decide (n ≤ 0x80)
/-- A lane of the crew link, 0 to 63 (R306). -/
def wfLane (n : Nat) : Bool := decide (n < 64)
/-- An address of the 32-bit space (Table 1-3). -/
def wfAddr (n : Nat) : Bool := decide (n < 2 ^ 32)
/-- A field of w bits. -/
def wfBits (w n : Nat) : Bool := decide (n < 2 ^ w)
/-- A number below a bound. -/
def wfBelow (b n : Nat) : Bool := decide (n < b)
/-- A signed field of w bits. -/
def wfSigned (w : Nat) (v : Int) : Bool := decide (-(2 ^ (w - 1) : Nat) ≤ v) && decide (v < (2 ^ (w - 1) : Nat))
/-- A cascade level of the tag, 1 or 2 (R368). -/
def wfCascade (n : Nat) : Bool := decide (n = 1) || decide (n = 2)
/-- Exactly n bytes. -/
def wfLen (n : Nat) (l : List Byte) : Bool := decide (l.length = n)
/-- At most n bytes. -/
def wfUpTo (n : Nat) (l : List Byte) : Bool := decide (l.length ≤ n)
/-- The codes of the eight local NTC inputs (R174). -/
def wfCodes (l : List Nat) : Bool := decide (l.length = 8) && l.all (wfBits 16)
/-- A CAN frame: identifier of 11 or 29 bits, DLC of 4 bits, at most 64 data bytes. -/
def CanFrame.wf (f : CanFrame) : Bool := wfBits (if f.ide then 29 else 11) f.ident && wfBits 4 f.dlc && wfUpTo 64 f.data && !(f.rtr && f.fdf)
/-- The measures of the keep-alive path fit their registers. -/
def KpaMeas.wf (m : KpaMeas) : Bool :=
  wfBits 16 m.kinMv && wfBits 16 m.kinMa && wfBits 16 m.paMv && wfBits 16 m.ksysMv && wfBits 16 m.kbatMv && decide (-32768 ≤ m.kbatMa) && decide (m.kbatMa ≤ 32767)

/-- What is sensed at a catch: 12 feedbacks, a 16-bit mean. -/
def CatchIn.wf (i : CatchIn) : Bool := wfBits 12 i.fb && wfBits 16 i.imdMean && KpaMeas.wf i.kpa
/-- What a tenant does: addresses, CSR numbers of 12 bits, causes (R92). -/
def UserFault.wf : UserFault → Bool
  | .access _ addr mepc => wfAddr addr && wfAddr mepc
  | .csr num _ mepc mtval => wfBits 12 num && wfAddr mepc && wfBits 32 mtval
  | .exception mcause mepc mtval => wfBits 32 mcause && wfAddr mepc && wfBits 32 mtval
  | .memory _ addr data check mepc => wfAddr addr && wfBits 64 data && wfBits 8 check && wfAddr mepc
/-- A frame of the crew link after its arbitration: a lane, up to 64 bytes, a time in the stroke (Table 13-7). -/
def wfCrew (lane : Nat) (data : List Byte) (us : Nat) : Bool := wfLane lane && wfUpTo 64 data && wfUs us

/-- The operands of a command are within their bounds. -/
def Instr.wf (i : Instr) : Bool :=
  match i with
  | .registerWrite _ addr _ => wfAddr addr
  | .readClear _ addr _ => wfAddr addr
  | .busError _ _ _ addr => wfAddr addr
  | .strokeTimerStart jedec => wfBits 24 jedec
  | .catchPoint inp => CatchIn.wf inp
  | .finish us => wfUs us
  | .agreementDemand mask => wfBits 8 mask
  | .demandDone us fb => wfUs us && wfBits 12 fb
  | .interruptLineChange line _ => wfBelow 32 line
  | .tenantCrabLimit k => wfPart k
  | .lockstepMismatch groups _ => wfBits 24 groups
  | .eccCorrected _ addr data check => wfAddr addr && wfBits 64 data && wfBits 8 check
  | .eccFatal addr data check _ => wfAddr addr && wfBits 64 data && wfBits 8 check
  | .injectDifference group det => wfBelow 24 group && wfBits 24 det
  | .wipeDone durUs => wfBits 12 durUs
  | .imageVerify _ build lcsBad => wfBits 16 build && wfBelow 3 lcsBad
  | .monitorYield sc => wfScull sc
  | .monitorWait sc mask => wfScull sc && wfBits 12 mask
  | .monitorSetvec sc handler mask => wfScull sc && wfBits 32 handler && wfBits 12 mask
  | .monitorEvret sc => wfScull sc
  | .monitorInfo sc us => wfScull sc && wfUs us
  | .monitorLog sc code sev a2 a3 => wfScull sc && wfBits 16 code && wfBits 8 sev && wfBits 32 a2 && wfBits 32 a3
  | .monitorUnknownCall sc call => wfScull sc && wfBits 32 call
  | .eventDelivery sc => wfScull sc
  | .slotStart sc idx => wfScull sc && wfBelow 16 idx
  | .slotEnd sc => wfScull sc
  | .scullEnable mask => wfBits 4 mask
  | .grantWrite k _ _ => wfPart k
  | .partitionFault sc why => wfScull sc && UserFault.wf why
  | .scullFault sc mcause => wfScull sc && wfBits 32 mcause
  | .doorbell k _ us => wfPart k && wfUs us
  | .doorbellCopyDone k => wfPart k
  | .tenantImageVerify k image header => wfPart k && decide (256 ≤ image.length) && decide (header.length = 56)
  | .autoResume k => wfPart k
  | .kbatInserted kthCode _ _ => wfBits 16 kthCode
  | .chargeZoneChange kthCenti _ => wfSigned 16 kthCenti
  | .strokeTimeRead _ us => wfUs us
  | .ocsTrip us _ => wfUs us
  | .fcsSelfTestEnd _ _ meanCode => wfSigned 12 meanCode
  | .hvsTest mask => wfBits 6 mask
  | .hvsTestEnd fullScale => wfBits 6 fullScale
  | .chainResponse _ raw us => wfUpTo 267 raw && wfUs us
  | .chainTimeout _ us => wfUs us
  | .catchEcho _ _ _ latency10ns => wfBits 16 latency10ns
  | .ringSplit armaLast armbLast => wfBits 8 armaLast && wfBits 8 armbLast
  | .seatLost seat => wfSeat seat
  | .chainSubmit tag cls => wfBits 15 tag && wfBelow 3 cls
  | .radioSlot slot => wfBits 8 slot
  | .radioResponse air us => wfUpTo 279 air && wfUs us
  | .radioTimeout us => wfUs us
  | .slotForfeit slot _ => wfBits 8 slot
  | .joinRequest air => wfUpTo 279 air
  | .grantQueue seat => wfBits 8 seat
  | .radioSubmit tag cls => wfBits 15 tag && wfBelow 3 cls
  | .channelQuarantineEnd ch => wfBelow 40 ch
  | .seatFaulty seat => wfSeat seat
  | .oneBlade seat => wfSeat seat
  | .coilOvercurrent c => wfCoil c
  | .coilOpenLoad c => wfCoil c
  | .closeTimeout c => wfCoil c
  | .negOpenTimeout s => wfString s
  | .weldFeedback c => wfCoil c
  | .weldHvsJudge c => wfCoil c
  | .energyGateTimeout s => wfString s
  | .admitTimeout s => wfString s
  | .testPulseFault src => wfBelow 4 src
  | .sinLevelChange n _ => wfBelow 10 n
  | .sinFinding n _ => wfBelow 10 n
  | .sinFindingClear n => wfBelow 10 n
  | .sinPairDiscrepancy n => wfBelow 8 n
  | .consoleWake port => wfPort port
  | .surgeDoorbell k _ us => wfPart k && wfUs us
  | .canFrameReceived _ f us => CanFrame.wf f && wfUs us
  | .txRequest _ _ _ us => wfUs us
  | .txAttempt _ obj us => wfBelow 32 obj && wfUs us
  | .txLimitReached _ obj _ => wfBelow 32 obj
  | .txAttemptEnd _ _ _ lec => wfBits 3 lec
  | .canErrorState _ err tec rec lec dlec => wfBelow 3 err && wfBits 8 tec && wfBits 7 rec && wfBits 3 lec && wfBits 3 dlec
  | .crewReferenceReceived data sof => wfUpTo 64 data && wfBits 32 sof
  | .crewListenEnd jedec => wfBits 24 jedec
  | .armRun jedec => wfBits 24 jedec
  | .crewJoinReceived lane data us | .crewSummaryReceived lane data us | .crewOrdersReceived lane data us | .crewOutcomeReceived lane data us => wfCrew lane data us
  | .laneGone lane => wfLane lane
  | .crewNoreply lane => wfLane lane
  | .consoleLine port us => wfPort port && wfUs us
  | .autobaud port _ => wfPort port
  | .consoleBreak port => wfPort port
  | .sessionIdle port => wfPort port
  | .loginLockoutEnd port => wfPort port
  | .challengeExpire port => wfPort port
  | .noticeFlush port => wfPort port
  | .lostNotice port => wfPort port
  | .ping port => wfPort port
  | .loginInstaller port _ => wfPort port
  | .loginTenant port k _ => wfPort port && wfPart k
  | .loginService port => wfPort port
  | .auth port id sig => wfPort port && wfBits 32 id && decide (sig.length = 64)
  | .debugAuth sig => decide (sig.length = 64)
  | .xipLineDone data tag data2 tag2 => decide (data.length = 256) && decide (tag.length = 8) && decide (data2.length = 256) && decide (tag2.length = 8)
  | .logout port => wfPort port
  | .whoami port => wfPort port
  | .passcode port k _ => wfPort port && wfBelow 8 k
  | .showVersion port => wfPort port
  | .showStart port us => wfPort port && wfUs us
  | .showStatus port => wfPort port
  | .showString port _ => wfPort port
  | .showSeat port _ => wfPort port
  | .showHelm port => wfPort port
  | .showTicket port => wfPort port
  | .showMdi port => wfPort port
  | .showImd port => wfPort port
  | .showSin port => wfPort port
  | .showKpa port => wfPort port
  | .showPart port => wfPort port
  | .showCrew port => wfPort port
  | .showChain port => wfPort port
  | .showRadio port => wfPort port
  | .showReset port => wfPort port
  | .showTally port => wfPort port
  | .getParam port _ => wfPort port
  | .openOrder port target us => wfPort port && wfBits 8 target && wfUs us
  | .closeOrder port target us => wfPort port && wfBits 8 target && wfUs us
  | .limitOrder port target _ us => wfPort port && wfBits 8 target && wfUs us
  | .helmTake port us => wfPort port && wfUs us
  | .helmRelease port us => wfPort port && wfUs us
  | .surge port _ _ us => wfPort port && wfUs us
  | .surgeRelease port => wfPort port
  | .crewOrder port lane kind target _ _ => wfPort port && wfLane lane && wfBits 8 kind && wfBits 8 target
  | .crewSurge port lane _ _ _ => wfPort port && wfLane lane
  | .setParams port _ => wfPort port
  | .stageShow port => wfPort port
  | .stageCheck port => wfPort port
  | .stageDrop port => wfPort port
  | .stageDump port => wfPort port
  | .confirm port _ => wfPort port
  | .lcsCommission port _ => wfPort port
  | .lcsBlank port => wfPort port
  | .lcsSeal port => wfPort port
  | .lcsService port => wfPort port
  | .lcsRetire port => wfPort port
  | .clearEasy port => wfPort port
  | .clearPrecharge port _ => wfPort port
  | .clearWeld port _ => wfPort port
  | .clearContactor port _ => wfPort port
  | .clearMdi port => wfPort port
  | .clearSin port _ => wfPort port
  | .clearImd port => wfPort port
  | .clearSeat port _ => wfPort port
  | .clearKbat port => wfPort port
  | .clearAux port => wfPort port
  | .stop port => wfPort port
  | .ship port => wfPort port
  | .hibernate port => wfPort port
  | .kbatStart port => wfPort port
  | .kbatStop port => wfPort port
  | .suspend port _ => wfPort port
  | .resume port _ => wfPort port
  | .pairSeat port _ => wfPort port
  | .pairAll port => wfPort port
  | .estSave port => wfPort port
  | .estRestoreBegin port _ => wfPort port
  | .estRestoreData port _ _ => wfPort port
  | .estRestoreEnd port => wfPort port
  | .logHead port _ => wfPort port
  | .logRead port _ _ _ => wfPort port
  | .logRelease port _ _ => wfPort port
  | .logBookRelease _ book => wfBits 4 book
  | .efcProgram _ key => wfBits 16 key
  | .efcErase _ key => wfBits 16 key
  | .efcTolerantRead _ data check => wfBits 64 data && wfBits 8 check
  | .tagAnticollision level bitsKnown => wfCascade level && wfUpTo 5 bitsKnown
  | .tagSelect level uid => wfCascade level && wfLen 5 uid
  | .tagRead page => wfBits 8 page
  | .tagWrite page data _ us => wfBits 8 page && wfLen 4 data && wfUs us
  | .tagCompatWrite page data _ us => wfBits 8 page && wfLen 16 data && wfUs us
  | .tagSectorSelect sector => wfBits 8 sector
  | .tagHostStore addr _ => wfAddr addr
  | .qpPush _ n => wfBelow 4 n
  | .qpChainRun n => wfBelow 4 n
  | .xipMiss sc addr => wfScull sc && wfAddr addr
  | .qpSlaveFrame bits _ => wfBits 16 bits
  | .gpioEdge pin _ => wfBelow 32 pin
  | .debugAbstractCommand regno _ => wfBits 16 regno
  | .debugProgramBuffer words acc => decide (words.length ≤ 8) && wfAddr acc.addr
  | .debugSysbusRead addr => wfAddr addr
  | .secKeyLoad slot => wfBits 8 slot
  | .secKeyGenerate slot => wfBits 8 slot
  | .fcsSample code => wfSigned 12 code
  | .hvsConversion ch code => wfBelow 6 ch && wfBits 16 code
  | .tmpConversion codes dieCenti => wfCodes codes && wfSigned 16 dieCenti
  | .pullinEnd c => wfCoil c
  | .consoleByteReceived port _ _ => wfPort port
  | .consoleByteSent port => wfPort port
  | .gatherDeadline | .coxCrab | .easyAutoclear | .recoveryTail | .watch | .strokeTrim _ | .heatRestart | .lockstepReset => true
  | .eccFatalReset | .eccCorrLimit | .injectClear | .coxLock | .permitArm | .mismatchAck | .mismatchResetInhibit _ | .resetPin _ => true
  | .porAssert | .porRelease | .softReset _ | .resetAssert _ | .resetRelease | .crystalStartFail | .stallReset | .bootTimerExpire => true
  | .bootHold | .clockLoss | .x32Loss | .stakeBoatEnd | .shorePeriodic | .shoreGapEnd | .lcsRequest _ | .lcsTransitionComplete => true
  | .serviceTimeout | .eventSet _ | .slotSwapRequest | .sourceDisqualify _ _ | .sourceQualify _ _ | .mpptStep _ | .vocCheck | .vocNow => true
  | .vocWindowEnd _ | .blackStartQualify _ | .blackStartSculls | .kbatMissing | .kbatShortProbeEnd _ | .chargePhaseLevel _ | .chargeTimerExpire | .chargeTaperEnd => true
  | .nimhDeltaV | .nimhDtdt | .chargeHeadroom _ _ | .chargeOvervoltage | .chargeOvCheck _ | .chargeRecharge | .chargeSourceLost | .chargerStop => true
  | .chargerStart | .chargerClear | .auxClear | .shipEnter _ | .shipWake | .kbtnLongPress | .kbtnPress | .auxFault => true
  | .auxRetry | .auxSoftstartTimeout | .auxChargerEnd | .auxProbe _ | .ccaInterval _ _ | .ccaLiveRead | .currentWake | .bkiTrip _ => true
  | .bkiRelease _ | .captureTrigger | .captureArm | .captureRead | .fcsSelfTest | .linkLoss _ | .linkRegain _ | .enumTimeout _ _ => true
  | .sampleReadsStart | .ringHeal | .radioRetune | .beacon | .lockLoss | .lockTimeout | .calibrateNow | .pumpSnap => true
  | .railLoss | .railUp | .pumpSkip | .snapTest | .deferExpire | .mdiTimeout | .mdiStall | .mdiOvercurrent => true
  | .mdiBrakeEnd | .mdiWaitDefer | .mdiGo _ | .mdiStop | .imdHalfEnd _ _ _ _ | .imdPeriodEnd _ _ _ _ | .imdKinExclude | .kinStale => true
  | .imdSwitchFault _ | .hibernateIdle | .hibernateGraceEnd | .ticketExpire | .windowSelect _ _ _ | .windowCommit _ _ | .txAbort _ _ _ => true
  | .canBusOff _ | .busoffHoldEnd _ | .busoffRecovered _ _ | .canWake _ | .canaPeriodic | .crewReferenceSend | .crewReferenceMissing | .logSubmit _ => true
  | .logRecordWrite | .logCursorLoad _ _ | .logWindowAdvance _ | .tallyAccCommit _ | .efcOperationDone _ | .sectorRefresh | .tagReqa | .tagWupa => true
  | .tagHlta | .tagFieldOn | .tagFieldOff | .tagFlush | .tagRowProgramDone _ | .tagConfirmation | .tagMailboxRequest | .tagSemaphoreTake => true
  | .tagSemaphoreRelease | .tagFieldIdleRelease | .tagWipe _ | .qpChainEnd _ | .xipInvalidate | .gpioSet _ _ | .gpioClr _ _ => true
  | .debugHalt | .debugResume | .debugStep | .debugResetRequest | .secSha256 | .secAesEcb => true
  | .secAesCcm | .secAesCmac | .secEcdsaVerify | .secOperationDone _ | .secRandomRead | .finishDeadline | .sourceLimit _ _ _ | .auxTargetReached => true
  | .lockAcquired us => wfUs us

end Sys2Proof
end

