-- ==== Sys2Proof/Tests/Slice0.lean ====
section
/-!
SUPPORT. Tests: function tests against the manual's worked values, one ill-formed command for each check of WellFormed, and for each statement of Obligations.lean a theorem `wit_<statement>` (for a statement of several parts `wit_<statement>_<part>`) that shows concrete states and operands meeting the hypotheses of every clause.
-/

namespace Sys2Proof.Tests

-- One theorem after the other: in parallel the kernel checks below need a thread each.
set_option Elab.async false

open Sys2Proof.Machine

/-- The machine in a phase of its power. -/
def ph (p : Phase) (s : State) : State := { s with power := { s.power with phase := p } }
/-- Camlan in a state. -/
def cam (c : CamState) (s : State) : State := { s with cam := { s.cam with state := c } }
def w0 : State := State.reset
def wB : State := ph .bootRom w0
def wI : State := ph .camlan w0
def wR : State := cam .run wI
def wE : State := cam .easy wI
def wS : State := cam .stake wI
def par (n : PName) (i : Nat) (v : PVal) (s : State) : State := { s with inForce := (PKey.mk n i, v) :: s.inForce }
/-- A line waits on CON0 under tag a, at a level. -/
def line (l : Level) (s : State) : State := { s with con0 := { s.con0 with ready := [some "a"], tags := ["a"], level := l } }
/-- A started stroke timer. -/
def row (s : State) : State := { s.setBit Reg.STK_CTRL 8 true with stk := { s.stk with started := true } }
/-- P1 runs in slot 0 of Scull 0. -/
def wP : State := (wR.setFld (Reg.PART_STATE 0) 0 2 pRunning).setScull 0 { slot := some 0, part := 1, yielded := false, start := 0, len := 1000, pmp := [], icache := [], dcache := [], mcounteren := 0 }
/-- A tenant image of 4 KiB under a signature of 56 header bytes. -/
def imgOk : List Byte := u32 0x54504E52 ++ u16 1 ++ [1, 15] ++ List.replicate 248 0
def wL : State := line .installer wR
/-- A life-cycle state. -/
def lcs (n : Nat) (s : State) : State := s.setFld Reg.LCS_STATE 0 3 n
def con (l : List Byte) (s : State) : State := { s with con0 := { s.con0 with line := l } }
def confField : List Byte := [1, 0, 0, 0, 0x30, 0x30, 0x30, 0x30, 0x30, 0x30, 0x30, 0x30]
/-- String 0 is configured: POS on coil 0, NEG on 1, PRE on 2. -/
def conf0 (s : State) : State := par .ctrRole 0 (.sym 1) (par .ctrRole 1 (.sym 5) (par .ctrRole 2 (.sym 9) (par .estCap 0 (.num 100000000) s)))
/-- One module. -/
def mod1 (s : State) : State := par .chnModules 0 (.num 1000) s
def seat (n : Nat) (f : SeatSt → SeatSt) (s : State) : State := s.updSeat n f
def pairable (s : State) : State := lcs lcsCommissioning (par .chnSeatSerial 1 (.ident 5) (seat 1 (fun x => { x with enumd := true, serial := 5, caps := 1 }) (mod1 s)))
def kin (s : State) : State := s.setFld Reg.KPA_STAT 0 2 srcKin
def kf (b : Nat) (s : State) : State := s.setKflag b true
/-- The charger may charge, from PACKAUX. -/
def mayC (s : State) : State := { (((s.setBit Reg.KPA_CTRL 0 true).setFld Reg.KPA_CHG0 0 2 1).setFld Reg.KPA_STAT 0 2 srcPack) with kpa := { s.kpa with present := true } }
def chgAt (n : Nat) (s : State) : State := s.setFld Reg.KPA_CHGST 0 4 n
/-- One Li-ion cell with CV at 4.1 V, in zone 2. -/
def li (s : State) : State := ((mayC s).setFld Reg.KPA_CHG0 4 4 1 |>.setFld Reg.KPA_CHG1 16 16 4100).setFld Reg.KPA_CHGST 4 3 2
def ni (s : State) : State := ((mayC s).setFld Reg.KPA_CHG0 0 2 3 |>.setFld Reg.KPA_CHG0 4 4 1).setFld Reg.KPA_CHGST 4 3 2
def aux (n : Nat) (s : State) : State := s.setFld Reg.KPA_AUXST 0 3 n
def cca (s : State) : State := s.setBit Reg.CCA_CTRL 0 true
def mst (f : MeasSt → MeasSt) (s : State) : State := { s with meas := f s.meas }
def imd (f : ImdSt → ImdSt) (s : State) : State := { s with imd := f s.imd }
/-- Coil 0 is on, its contact open. -/
def on0 (s : State) : State := ((conf0 s).setBit Reg.CTR_STAT 0 true).setFld Reg.AGR_C_FB 0 12 0
def str0 (f : StrSt → StrSt) (s : State) : State := s.updStr 0 f
def cl (c : Nat) (f : CoilSt → CoilSt) (s : State) : State := { s with ctr := { s.ctr with coils := [(c, f CoilSt.init)] } }
def ring (n : Nat) (s : State) : State := s.setFld Reg.CHN_RING 0 3 n
def chn (f : ChnSt → ChnSt) (s : State) : State := { s with chn := f s.chn }
/-- Transaction 1 is in flight on direction A, for seat 1. -/
def fly1 (s : State) : State := (((((row s).setHd 1 0 1 txFlight).setHd 1 1 1 0x10).setHd 1 2 1 1).setHd 1 0xE 2 0xFFFF) |> chn (fun c => { c with flyA := some 1 })
def rad (f : RadSt → RadSt) (s : State) : State := { s with rad := f s.rad }
def rOn (s : State) : State := (row s).setFld Reg.RAD_CTRL 0 2 3
def rLk (s : State) : State := (rOn s).setBit Reg.RAD_STAT 0 true
/-- A response of two payload bytes. -/
def fr (tag type seat : Nat) : Frame := ⟨seat, type, tag, 0, 1, [1, 2]⟩
def f0 : CanFrame := ⟨0x123, false, false, false, false, false, 2, [1, 2]⟩
def canOn (x : Nat) (s : State) : State := (row s).setFld (Reg.CAN_CTRL x) 0 2 3
def canS (x : Nat) (f : CanSt → CanSt) (s : State) : State := s.setCan x (f (s.can x))
/-- Receive object 3 takes the frame f0. -/
def rx3 (s : State) : State := (canS 0 (fun c => { c with rx := [(3, ⟨0x123 * 2 ^ 18, 0, []⟩)] }) (canOn 0 s)).setBit (Reg.CAN_RXEN0 0) 3 true
def crw (f : CrewSt → CrewSt) (s : State) : State := { s with crew := f s.crew }
def member (s : State) : State := crw (fun c => { c with st := 3, leader := some 1, lanes := [0, 1], ref := some 50 }) s
def leader (s : State) : State := crw (fun c => { c with st := 4, leader := some 0, lanes := [0, 1] }) s
def est (f : EstSt → EstSt) (s : State) : State := { s with est := f s.est }
def lg (f : LogSt → LogSt) (s : State) : State := { s with log := f s.log }
def rec0 : LogRec := ⟨0, 5, 2, 4, 0, 0, [1, 2, 3, 4]⟩
def subOf (s : State) : LogRec := (s.subRecord .cox).getD rec0
def crit (s : State) : State := s.setFld Reg.LOG_SUBCODE 24 3 4
def tly (f : TallySt → TallySt) (s : State) : State := { s with tally := f s.tally }
def tg (f : TagSt → TagSt) (s : State) : State := { s with tag := f s.tag }
/-- The tag is powered, enabled and active. -/
def tA (s : State) : State := tg (fun x => { x with field := true, air := 3 }) (s.setBit Reg.TAG_CTRL 0 true)
def qp (f : QpSt → QpSt) (s : State) : State := { s with qp := f s.qp }
def qe : QEnt := ⟨0, 8, 1, 0, false, false, [5]⟩
def slv (s : State) : State := (s.setBit (Reg.QP_Q_CFG 3) 24 true).setFld (Reg.QP_Q_ENTCTL 3) 8 5 7
def xip (s : State) : State := ((s.setBit Reg.QP_CTRL 1 true).setBit (Reg.QP_WIN_EN 0) 0 true).setFld (Reg.QP_WIN_SIZE 0) 16 12 1
def att (s : State) : State := s.setBit Reg.DBG_STAT 2 true
def hlt (s : State) : State := (att s).setBit Reg.DBG_STAT 3 true
def sec (s : State) : State := s.setBit Reg.SEC_CTRL 0 true
def secOp (f len : Nat) (s : State) : State := { sec s with sec := { s.sec with op := some (f, 1, 0x20000000, 0x20000100, len, 0) } }
/-- An open order for string 0 of the installer on CON0. -/
def op0 : Order := { source := 0x10, rank := 4, kind := kOpen, target := 0, value := 0, ref := 1, stamp := 5, stroke := 0, inStake := false, origin := .console 0 (some "a") }
def cl0 : Order := { op0 with kind := kClose, stamp := 6 }
def take0 : Order := { op0 with kind := kTake }
/-- The helm is with a holder. -/
def helm (h : Nat) (r : Nat) (s : State) : State := { s with cam := { s.cam with helm := ⟨h, r, 3, 0⟩ } }


def kpa0 : KpaMeas := { kinMv := 0, kinMa := 0, paMv := 0, ksysMv := 0, kbatMv := 0, kbatMa := 0, drawMw := 0 }
/-- What is sensed at a catch when nothing is there. -/
def ci0 : CatchIn := { fb := 0, vgsMv := 0, rail := 0, imdMean := 0, motorMa := 0, tallyOk := true, kpa := kpa0 }
/-- The first n entries hold payload. -/
def full (n : Nat) (s : State) : State := chn (fun c => { c with data := List.range n }) s
/-- The bits of the response `fr 1 0x10 1` after the start byte. -/
def raw1 : List Byte := (fr 1 0x10 1).bytes ++ u32 (crc32 (fr 1 0x10 1).bytes)
/-- The air response of transaction 1 that carries the frame `fr 1 0x10 1`, under the key of its seat. -/
def air1 (s : State) : List Byte :=
  airTail .response (s.seatKey (s.hd 1 2 1)) (airNonce .response (s.hd 1 2 1) (s.rdN Reg.RAD_SESSION) s.strokeNo 1 (s.hd 1 0x17 1 - 1)) [] (s.hd 1 2 1) 0 (fr 1 0x10 1).bytes
/-- The same text with every byte of its MIC turned in one bit, under a CRC that passes. -/
def badMic1 (s : State) : List Byte :=
  let key := s.seatKey (s.hd 1 2 1)
  let nonce := airNonce .response (s.hd 1 2 1) (s.rdN Reg.RAD_SESSION) s.strokeNo 1 (s.hd 1 0x17 1 - 1)
  let text := (fr 1 0x10 1).bytes
  let clear := u8 AirKind.response.code ++ u8 1 ++ u8 0 ++ u8 10
  let body := clear ++ [] ++ (xorBlock text (ccmStream key nonce text.length) ++ (ccmMic key nonce (clear ++ []) text).map (fun b => b ^^^ 1))
  body ++ u32 (crc32 body)
/-- A join request of seat 1, serial 5, JCOUNT 5, under the key of the state. -/
def join1 (s : State) : List Byte :=
  airTail .joinRequest (s.seatKey 1) (airNonce .joinRequest 1 0xFFFFFFFF 5 0 0) (u32 5 ++ u32 0 ++ u32 5) 1 0 (Frame.bytes ⟨1, 0x70, 0, 0, 0, []⟩)

/-! Function tests; each expected value is the manual's. -/

/-- 14, CRC: the check value over the nine ASCII bytes 123456789. -/
theorem test_crc16_check : crc16 (asciiBytes "123456789") = 0x29B1 := by decide +kernel

/-- 14, the worked lines of R322 to R324: D751 covers the eight bytes before it, F0C8 those of the reply. -/
theorem test_crc16_ping : crc16 (asciiBytes "#1 ping ") = 0xD751 ∧ crc16 (asciiBytes "#1 pong ") = 0xF0C8 := by decide +kernel

/-- R181: the CRC-32 of IEEE 802.3, whose published check value over 123456789 is CBF43926. -/
theorem test_crc32_check : crc32 (asciiBytes "123456789") = 0xCBF43926 := by decide +kernel

/-- Lindmoor's shunt of 100 µΩ and 1,500 A give OCS code 48 (07, R164). -/
theorem test_ocs_code : (par .fcsOcs 0 (.num 1500000) (par .measRshunt 0 (.num 100000) w0)).ocsCode = 48 := by decide +kernel

/-- A breaking current of 250 A gives BKI code 7, and 20 A code 1 (10, R239). -/
theorem test_bki_code : w0.bkiCode 250000 = 7 ∧ w0.bkiCode 20000 = 1 := by decide +kernel

/-- A string at 409.6 V reads code 53,553, within one code of 7.648 mV (07, R170). -/
theorem test_hvs_code : ((w0.codeMv 0 53553 : Int) - 409600).natAbs ≤ 8 := by decide +kernel

/-- Reset: the stroke register of Table 2-9, an empty queue, and no command taken from it. -/
theorem test_reset_stroke : State.reset.rdN Reg.STK_CTRL = 0x72 := by decide +kernel
theorem test_reset_queue_empty : State.reset.pending = [] := rfl
theorem test_idle_step : step State.reset = .next State.reset := rfl

/-- A command at the front of the queue runs and leaves it. -/
theorem test_step_runs_front : step { wR with pending := [.heatRestart] } = exec .heatRestart wR := rfl

/-- The opcode table gives no row bits, so no word spells a command. -/
theorem test_no_word : decodeTableWord 16 0x1234 = none ∧ wR.withFetchWord 16 0x1234 = wR := ⟨rfl, rfl⟩

/-- Table 8-1: PING of seat 1 under tag 0x0203 spells its eight header bytes after the preamble and the start byte. -/
theorem test_frame_bytes : (Frame.line ⟨1, 0x10, 0x0203, 0x0405, 0, []⟩).take 11 = [0x55, 0x55, 0xE3, 1, 0x10, 3, 2, 5, 4, 0, 0] := by decide +kernel

/-- R65: a word of the SRAM with one data bit turned is CORRECTED to the word written, with two bits turned it is not. -/
theorem test_ecc_word :
    eccClass .sram 5 (0xA5 ^^^ 4) (checkBits .sram 5 0xA5) = .corrected 0xA5 ∧ (eccClass .sram 5 (0xA5 ^^^ 6) (checkBits .sram 5 0xA5)).fatal = true := by
  decide +kernel

/-! Well-formedness: for each check a command that it refuses, and one it accepts. -/

theorem test_wf_refuses_numbers :
    (Instr.suspend 2 1).wf = false ∧ (Instr.finish 32768).wf = false ∧ (Instr.monitorYield 4).wf = false
    ∧ (Instr.tenantCrabLimit 8).wf = false ∧ (Instr.coilOvercurrent 12).wf = false ∧ (Instr.negOpenTimeout 4).wf = false
    ∧ (Instr.seatLost 0).wf = false ∧ (Instr.laneGone 64).wf = false ∧ (Instr.registerWrite .cox (2 ^ 32) 0).wf = false
    ∧ (Instr.imageVerify none 65536 0).wf = false ∧ (Instr.slotStart 0 16).wf = false ∧ (Instr.fcsSample 2048).wf = false
    ∧ (Instr.catchPoint { ci0 with fb := 4096 }).wf = false ∧ (Instr.catchPoint { ci0 with kpa := { kpa0 with kbatMa := 32768 } }).wf = false := by
  decide +kernel

theorem test_wf_refuses_bytes :
    (Instr.tagSelect 3 []).wf = false ∧ (Instr.tagWrite 4 [1, 2, 3] true 0).wf = false ∧ (Instr.tagAnticollision 1 [1, 2, 3, 4, 5, 6]).wf = false
    ∧ (Instr.tmpConversion [1, 2] 0).wf = false ∧ (Instr.chainResponse .a (List.replicate 268 0) 0).wf = false
    ∧ (Instr.radioResponse (List.replicate 280 0) 0).wf = false ∧ (Instr.canFrameReceived .a { f0 with ident := 2048 } 0).wf = false
    ∧ (Instr.crewOrdersReceived 64 [] 0).wf = false ∧ (Instr.tenantImageVerify 1 [] []).wf = false ∧ (Instr.debugAuth [1]).wf = false
    ∧ (Instr.partitionFault 0 (.csr 4096 false 0 0)).wf = false ∧ (Instr.xipLineDone [] [] [] []).wf = false := by decide +kernel

theorem test_wf_accepts :
    (Instr.suspend 1 7).wf = true ∧ (Instr.finish 32767).wf = true ∧ (Instr.tagSelect 2 [1, 2, 3, 4, 5]).wf = true
    ∧ (Instr.fcsSample (-2048)).wf = true ∧ (Instr.seatLost 128).wf = true ∧ (Instr.canFrameReceived .a f0 32767).wf = true
    ∧ (Instr.tenantImageVerify 7 imgOk (List.replicate 56 0)).wf = true ∧ (Instr.chainResponse .b raw1 900).wf = true := by decide +kernel

/-! Witnesses: lemmas for the hypotheses that no evaluation settles. -/

theorem usable_full (s : State) (n i : Nat) (h : i < n) : (full n s).usable i = false := by
  have : (full n s).isData i = true := by
    show (List.range n).contains i = true
    simpa using h
  simp [State.usable, this]

theorem findRun_full (s : State) (n m : Nat) (hm : 32768 ≤ m) (h : 0 < n) (fuel t : Nat) : (full m s).findRun n fuel t = none := by
  induction fuel generalizing t with
  | zero => rfl
  | succ k ih =>
    have hu := usable_full s m (t % 32768) (Nat.lt_of_lt_of_le (Nat.mod_lt _ (by decide)) hm)
    simp only [State.findRun]
    rw [if_neg, ih]
    rintro ⟨-, ha⟩
    have := List.all_eq_true.mp ha 0 (List.mem_range.mpr h)
    simp [hu] at this

/-- A table whose entries all hold payload has no room. -/
theorem room_full (s : State) (seat rspLen : Nat) (req : List Byte) : (full 32768 s).room seat 1 req rspLen = none := by
  unfold State.room
  rw [if_neg (fun h => absurd h.1 (by decide))]
  exact findRun_full s _ _ (Nat.le_refl _) (by omega) _ _

/-- A line tag has at most 8 bytes, so a longer one fails. -/
theorem tagOk_long (s : State) (k line : Nat) (d g : List Byte) (h : 8 < g.length) : s.tagOk k line d g = false := by
  refine decide_eq_false (fun e => ?_)
  rw [e, lineTag, List.length_take] at h
  omega

/-- A response sealed for transaction 1 under its seat's key opens to its frame. -/
theorem openAir_air1 (s : State) : s.openAir 1 (air1 s) = .good (fr 1 0x10 1) :=
  recvAir_airTail .response _ _ [] _ 0 (fr 1 0x10 1).bytes rfl (by decide)

theorem openAir_badMic1 (s : State) : s.openAir 1 (badMic1 s) = .mic := by
  unfold State.openAir badMic1
  have hm (k n a t : List Byte) : ((ccmMic k n a t).map (fun b => b ^^^ 1)).length = 4 := by rw [List.length_map, ccmMic_length]
  have hn (k n a t : List Byte) : (ccmMic k n a t).map (fun b => b ^^^ 1) ≠ ccmMic k n a t :=
    turned_ne _ (fun e => by have := ccmMic_length k n a t; simp [e] at this)
  refine (recvAir_sealed .response _ _ [] _ 1 0 10 rfl ?_ (by decide)).trans ?_
  · rw [List.length_append, hm, xorBlock_length, ccmStream_length]; rfl
  · rw [ccmOpen_otherMic _ _ _ _ _ (hn _ _ _ _) (hm _ _ _ _)]

/-- A join request sealed under its seat's key is genuine where the seat has one. -/
theorem joinGenuine_join1 (s : State) (h : s.nv.rad.seats.any (fun k => decide (k.1 = 1)) = true) : s.joinGenuine (join1 s) = true := by
  have e : recvAir .joinRequest (s.seatKey 1) (airNonce .joinRequest 1 0xFFFFFFFF 5 0 0) (join1 s) = .good ⟨1, 0x70, 0, 0, 0, []⟩ :=
    recvAir_airTail .joinRequest _ _ _ 1 0 (Frame.bytes ⟨1, 0x70, 0, 0, 0, []⟩) rfl (by decide)
  have q : joinReq (join1 s) = ⟨3, 1, 5, 5⟩ := by
    simp [joinReq, join1, airTail, airBody, AirKind.code, leBytes, leNat, byteOf]
  unfold State.joinGenuine
  simp only [q, h, e]
  rfl

/-- States and operands that meet the hypotheses of StepRunsFrontCommand, clause by clause. -/
theorem wit_StepRunsFrontCommand :
    w0.pending = [] := by
  decide +kernel

/-- States and operands that meet the hypotheses of StepKeepsCanonicalForm, clause by clause. -/
theorem wit_StepKeepsCanonicalForm :
    Canon w0
    ∧ step w0 = .next (w0 : State) := by
  and_intros <;> first | decide +kernel | rfl

/-- States and operands that meet the hypotheses of ParametersInForceChangeOnlyWhenApplied, clause by clause. -/
theorem wit_ParametersInForceChangeOnlyWhenApplied :
    mayApply (.heatRestart : Instr) = false
    ∧ exec (.heatRestart : Instr) wR = .next (doHeatRestart wR : State) := by
  and_intros <;> first | decide +kernel | rfl

def stRegisterWriteFollowsAccessCodes1 : State := wR.setFld (Reg.PART_QSIZE 0) 12 10 1

/-- States and operands that meet the hypotheses of RegisterWriteFollowsAccessCodes, clause by clause. -/
theorem wit_RegisterWriteFollowsAccessCodes :
    wR.awake = true
    ∧ plainReg wR (Reg.LOG_RELUPTO : Nat)
    ∧ regRow (Reg.LOG_RELUPTO : Nat) = some ((regRow Reg.LOG_RELUPTO).getD ⟨0,0,0,0,0,0,0,0,0⟩ : RegRow)
    ∧ wR.quotaRejected (Reg.LOG_RELUPTO : Nat) (5 : Word).toNat = false
    ∧ stRegisterWriteFollowsAccessCodes1.quotaRejected (Reg.PART_QBASE 0 : Nat) (0x3E0000 : Word).toNat = true := by
  and_intros <;> decide +kernel

/-- States and operands that meet the hypotheses of ReadClearReturnsAndClears, clause by clause. -/
theorem wit_ReadClearReturnsAndClears :
    wR.awake = true
    ∧ plainReg wR (Reg.LOG_RELUPTO : Nat)
    ∧ regRow (Reg.LOG_RELUPTO : Nat) = some ((regRow Reg.LOG_RELUPTO).getD ⟨0,0,0,0,0,0,0,0,0⟩ : RegRow)
    ∧ wR.mayRead (.linkEngine : Requester) (Reg.GPIO_DIR : Nat) = false
    ∧ wR.mayWrite (.linkEngine : Requester) (Reg.GPIO_DIR : Nat) = false := by
  and_intros <;> decide +kernel

def stWhatAResetLeaves1 : State := wR.setBit Reg.RST_CAUSE 0 true

/-- States and operands that meet the hypotheses of WhatAResetLeaves, clause by clause. -/
theorem wit_WhatAResetLeaves :
    1 ≤ (2 : Nat)
    ∧ (2 : Nat) ≤ 9
    ∧ (0 : Nat) < 32
    ∧ stWhatAResetLeaves1.bit Reg.RST_CAUSE (0 : Nat) = true
    ∧ keptReg (Reg.RST_RETAIN 0) = true
    ∧ (Reg.RST_RETAIN 0) ∉ [Reg.RST_LAST, Reg.RST_CAUSE, Reg.RST_COUNT, Reg.KPA_CTRL, Reg.KPA_STAT, Reg.COX_MMINFO, Reg.CCA_STAT]
    ∧ keptReg (Reg.GPIO_DIR) = false
    ∧ keptMem (0x08000000 : Nat) = true
    ∧ (∀ e, wR.tally.op = some (1, e) ∨ wR.tally.suspended = some e → (0x08000000 : Nat) < 0x08000000 + e ∨ 0x08000000 + e + 0x2000 ≤ (0x08000000 : Nat))
    ∧ keptMem (0x20000000 : Nat) = false := by
  and_intros <;> first | decide +kernel | (intro e he; rcases he with he | he <;> exact absurd he (by intro h; cases h))

def stPowerOnResetAndReleases0 : State := ph .porHeld w0
def stPowerOnResetAndReleases1 : State := ph .held w0

/-- States and operands that meet the hypotheses of PowerOnResetAndReleases, clause by clause. -/
theorem wit_PowerOnResetAndReleases :
    stPowerOnResetAndReleases0.power.phase = .porHeld
    ∧ stPowerOnResetAndReleases1.power.phase = .held
    ∧ w0.power.phase = .wiping
    ∧ w0.cutRefresh = none
    ∧ wB.power.phase = .bootRom := by
  and_intros <;> decide +kernel

/-- States and operands that meet the hypotheses of MemoryCodeTellsErrorsApart, clause by clause. -/
theorem wit_MemoryCodeTellsErrorsApart :
    (0xFFFF : Nat) < 2 ^ (codeShape (.itcm : EccMem)).2.1
    ∧ (0xFFFFFFFF : Nat) < 2 ^ (codeShape (.itcm : EccMem)).1
    ∧ (31 : Nat) < (codeShape (.itcm : EccMem)).1
    ∧ (6 : Nat) < (codeShape (.itcm : EccMem)).2.2
    ∧ (15 : Nat) < (codeShape (.itcm : EccMem)).2.1
    ∧ (0 : Nat) < (codeShape (.itcm : EccMem)).1
    ∧ (1 : Nat) < (codeShape (.itcm : EccMem)).1
    ∧ (0 : Nat) ≠ (1 : Nat) := by
  and_intros <;> decide +kernel

def stFromImageToStakeBoat1 : State := wB.setBit Reg.COX_CTRL 0 true
def stFromImageToStakeBoat3 : State := wI.setBit (Reg.CAN_CTRL 1) 9 true
def stFromImageToStakeBoat4 : State := par .crewEnable 0 (.sym 1) wI
def stFromImageToStakeBoat5 : State := (wS.setFld Reg.STK_NUM 0 32 200) |> fun s => { s with stk := { s.stk with started := true } }

/-- States and operands that meet the hypotheses of FromImageToStakeBoat, clause by clause. -/
theorem wit_FromImageToStakeBoat :
    stFromImageToStakeBoat1.power.phase = .bootRom
    ∧ stFromImageToStakeBoat1.locked = true
    ∧ wB.power.phase = .bootRom
    ∧ wB.locked = false
    ∧ (wB.lcsCopies (0 : Nat)).startTestEnd.locked = false
    ∧ wI.camlanOn = true
    ∧ wI.running = false
    ∧ wI.cam.state = .idle
    ∧ stFromImageToStakeBoat3.camlanOn = true
    ∧ stFromImageToStakeBoat3.running = false
    ∧ stFromImageToStakeBoat3.cam.state = .idle
    ∧ stFromImageToStakeBoat3.bit (Reg.CAN_CTRL 1) 9 = true
    ∧ stFromImageToStakeBoat4.camlanOn = true
    ∧ stFromImageToStakeBoat4.running = false
    ∧ stFromImageToStakeBoat4.cam.state = .idle
    ∧ stFromImageToStakeBoat4.parS .crewEnable = 1
    ∧ stFromImageToStakeBoat4.crew.heardRef = false
    ∧ stFromImageToStakeBoat4.bit (Reg.CAN_CTRL 1) 9 = false
    ∧ stFromImageToStakeBoat5.camlanOn = true
    ∧ stFromImageToStakeBoat5.cam.state = .stake
    ∧ stFromImageToStakeBoat5.stk.started = true
    ∧ stFromImageToStakeBoat5.watchLen ≤ stFromImageToStakeBoat5.strokeNo := by
  and_intros <;> decide +kernel

def stCatchAdvancesTheStroke0 : State := row wR
def stCatchAdvancesTheStroke1 : State := wR.setBit Reg.STK_CTRL 8 true

/-- States and operands that meet the hypotheses of CatchAdvancesTheStroke, clause by clause. -/
theorem wit_CatchAdvancesTheStroke :
    stCatchAdvancesTheStroke0.powered = true
    ∧ stCatchAdvancesTheStroke0.running = true
    ∧ stCatchAdvancesTheStroke0.stk.started = true
    ∧ stCatchAdvancesTheStroke1.powered = true
    ∧ stCatchAdvancesTheStroke1.running = true
    ∧ stCatchAdvancesTheStroke1.stk.started = false
    ∧ stCatchAdvancesTheStroke0.rows = true
    ∧ stCatchAdvancesTheStroke0.fld Reg.STK_POS 16 9 = 0
    ∧ stCatchAdvancesTheStroke0.us = 0 := by
  and_intros <;> decide +kernel

def stLinesNoticesAndMailbox0 : State := con (asciiBytes "#1 ping *D751") wR
def stLinesNoticesAndMailbox1 : State := con (asciiBytes "#1 ping *D752") wR
def stLinesNoticesAndMailbox2 : State := ph .clockFault w0
def stLinesNoticesAndMailbox3 : State := wR.setBit (Reg.CON_CTRL 0) 3 true
def stLinesNoticesAndMailbox4 : State := par .conEcho 0 (.sym 0) { wR with con0 := { wR.con0 with withheld := ["x"] } }
def stLinesNoticesAndMailbox5 : State := { wR with con0 := { wR.con0 with dropped := 2 } }
def stLinesNoticesAndMailbox6 : State := { wR with tag := { wR.tag with request := some 5 } }
def stStartingLine : State := con [0x23, 0x31] wS

/-- States and operands that meet the hypotheses of LinesNoticesAndMailbox, clause by clause. -/
theorem wit_LinesNoticesAndMailbox :
    stLinesNoticesAndMailbox0.camlanOn = true
    ∧ stLinesNoticesAndMailbox0.conServed (0 : Nat) = true
    ∧ stLinesNoticesAndMailbox0.faultWords = none
    ∧ stLinesNoticesAndMailbox0.starting = false
    ∧ (stLinesNoticesAndMailbox0.con (0 : Nat)).line.head? = some 0x23
    ∧ (stLinesNoticesAndMailbox0.con (0 : Nat)).tooLong = false
    ∧ (∀ b ∈ (stLinesNoticesAndMailbox0.con (0 : Nat)).line, 0x20 ≤ b.toNat ∧ b.toNat ≤ 0x7E)
    ∧ (stLinesNoticesAndMailbox0.con (0 : Nat)).withheld = []
    ∧ machineBody (stLinesNoticesAndMailbox0.con (0 : Nat)).line = some (("1" : String), (['p', 'i', 'n', 'g'] : List Char))
    ∧ ("1" : String) ∉ (stLinesNoticesAndMailbox0.con (0 : Nat)).tags
    ∧ (stLinesNoticesAndMailbox0.con (0 : Nat)).tags.length < 8
    ∧ tokens (['p', 'i', 'n', 'g'] : List Char) = some ((tokens ['p', 'i', 'n', 'g']).getD [] : List Tok)
    ∧ commandErr ((tokens ['p', 'i', 'n', 'g']).getD [] : List Tok) = 0
    ∧ stStartingLine.camlanOn = true
    ∧ stStartingLine.conServed (0 : Nat) = true
    ∧ stStartingLine.faultWords = none
    ∧ stStartingLine.starting = true
    ∧ (stStartingLine.con (0 : Nat)).line.head? = some 0x23
    ∧ (stStartingLine.con (0 : Nat)).earlyMachine = false
    ∧ (stStartingLine.con (0 : Nat)).withheld = []
    ∧ stLinesNoticesAndMailbox1.camlanOn = true
    ∧ stLinesNoticesAndMailbox1.conServed (0 : Nat) = true
    ∧ stLinesNoticesAndMailbox1.faultWords = none
    ∧ stLinesNoticesAndMailbox1.starting = false
    ∧ (stLinesNoticesAndMailbox1.con (0 : Nat)).line.head? = some 0x23
    ∧ (stLinesNoticesAndMailbox1.con (0 : Nat)).tooLong = false
    ∧ (∀ b ∈ (stLinesNoticesAndMailbox1.con (0 : Nat)).line, 0x20 ≤ b.toNat ∧ b.toNat ≤ 0x7E)
    ∧ (stLinesNoticesAndMailbox1.con (0 : Nat)).withheld = []
    ∧ machineBody (stLinesNoticesAndMailbox1.con (0 : Nat)).line = none
    ∧ stLinesNoticesAndMailbox2.faultWords = some ("fault clock" : String)
    ∧ (0 : Nat) ≤ 1
    ∧ stLinesNoticesAndMailbox3.camlanOn = true
    ∧ stLinesNoticesAndMailbox3.bit (Reg.CON_CTRL (0 : Nat)) 3 = true
    ∧ (stLinesNoticesAndMailbox3.con (0 : Nat)).abArm = true
    ∧ (208 : Nat) ≠ 0
    ∧ (208 : Nat) < 65536
    ∧ 20 * rateDist (208 : Nat) (nearestRate (208 : Nat)) ≤ nearestRate (208 : Nat) * (208 : Nat)
    ∧ stLinesNoticesAndMailbox4.camlanOn = true
    ∧ stLinesNoticesAndMailbox4.conServed (0 : Nat) = true
    ∧ (stLinesNoticesAndMailbox4.con (0 : Nat)).withheld = [("x" : String)]
    ∧ (stLinesNoticesAndMailbox4.con (0 : Nat)).outBytes ≤ 3072
    ∧ stLinesNoticesAndMailbox4.parS .conEcho (0 : Nat) ≠ 1
    ∧ stLinesNoticesAndMailbox5.camlanOn = true
    ∧ stLinesNoticesAndMailbox5.conServed (0 : Nat) = true
    ∧ (stLinesNoticesAndMailbox5.con (0 : Nat)).dropped ≠ 0
    ∧ (stLinesNoticesAndMailbox5.con (0 : Nat)).outBytes ≤ 3072
    ∧ (stLinesNoticesAndMailbox5.con (0 : Nat)).line = []
    ∧ stLinesNoticesAndMailbox5.parS .conNotify (0 : Nat) ≠ 0
    ∧ stLinesNoticesAndMailbox6.tag.request.isSome = true
    ∧ stLinesNoticesAndMailbox6.tag.reply = none
    ∧ stLinesNoticesAndMailbox6.camlanOn = true
    ∧ stLinesNoticesAndMailbox6.tag.owner = 0
    ∧ stLinesNoticesAndMailbox6.ld mbBase 2 = 0 := by
  and_intros <;> decide +kernel

def stSessionsRiseAndEnd1 : State := { wL with nv := { wL.nv with codes := [(7, 999999)] } }
def stSessionsRiseAndEnd4 : State := wL.setBit Reg.SEC_STAT 2 true
def stSessionsRiseAndEnd5 : State := { wL with con0 := { wL.con0 with challenge := some 3 }, nv := { wL.nv with confirmed := [(PKey.mk .secSvcKeyhash 0, .table [1])] } }
def stSessionsRiseAndEnd7 : State := { wL with con0 := { wL.con0 with challenge := some 3, challengeAt := 0 }, ao := { wL.ao with us := 60000000 } }
def stSessionsRiseAndEnd8 : State := { wL with nv := { wL.nv with locked0 := true }, ao := { wL.ao with us := minutes10 } }
def stSessionsRiseAndEnd10 : State := { wL with ao := { wL.ao with us := 600000000 } }
def stSessionsRiseAndEnd11 : State := line .service wR

/-- States and operands that meet the hypotheses of SessionsRiseAndEnd, clause by clause. -/
theorem wit_SessionsRiseAndEnd :
    lineWaits wL (0 : Nat) (some "a" : Option String)
    ∧ (0 : Nat) ≤ 999999
    ∧ wL.loginLocked (0 : Nat) = false
    ∧ wL.codeOf 0 = some (0 : Nat)
    ∧ lineWaits stSessionsRiseAndEnd1 (0 : Nat) (some "a" : Option String)
    ∧ 1 ≤ (7 : Nat)
    ∧ (7 : Nat) ≤ 7
    ∧ (999999 : Nat) ≤ 999999
    ∧ stSessionsRiseAndEnd1.loginLocked (0 : Nat) = false
    ∧ stSessionsRiseAndEnd1.codeOf (7 : Nat) = some (999999 : Nat)
    ∧ (1 : Nat) ≤ 999999
    ∧ wL.codeOf 0 ≠ some (1 : Nat)
    ∧ (1 : Nat) ≤ 1
    ∧ lineWaits stSessionsRiseAndEnd4 (0 : Nat) (some "a" : Option String)
    ∧ stSessionsRiseAndEnd4.lcs ≠ lcsRetired
    ∧ stSessionsRiseAndEnd4.loginLocked (0 : Nat) = false
    ∧ stSessionsRiseAndEnd4.bit Reg.SEC_STAT 2 = true
    ∧ lineWaits stSessionsRiseAndEnd5 (0 : Nat) (some "a" : Option String)
    ∧ stSessionsRiseAndEnd5.lcs ≠ lcsRetired
    ∧ stSessionsRiseAndEnd5.loginLocked (0 : Nat) = false
    ∧ (stSessionsRiseAndEnd7.con (0 : Nat)).challenge.isSome = true
    ∧ (stSessionsRiseAndEnd7.con (0 : Nat)).challengeAt + 60000000 ≤ stSessionsRiseAndEnd7.clock
    ∧ stSessionsRiseAndEnd8.loginLocked (0 : Nat) = true
    ∧ minutes10 ≤ stSessionsRiseAndEnd8.sinceFail (0 : Nat)
    ∧ stSessionsRiseAndEnd10.camlanOn = true
    ∧ (stSessionsRiseAndEnd10.con (0 : Nat)).lastLine + stSessionsRiseAndEnd10.parI .conIdle * 1000000 ≤ stSessionsRiseAndEnd10.clock
    ∧ lineWaits stSessionsRiseAndEnd11 (0 : Nat) (some "a" : Option String)
    ∧ ((stSessionsRiseAndEnd11.con (0 : Nat)).level = .service ∨ (stSessionsRiseAndEnd11.con (0 : Nat)).level = .installer ∧ stSessionsRiseAndEnd11.lcs = lcsCommissioning) := by
  and_intros <;> first | decide +kernel | exact ⟨_, rfl⟩

def stStagingAndConfirming0 : State := lcs lcsCommissioning wL
def stStagingAndConfirming2 : State := { lcs lcsCommissioning wL with nv := { wL.nv with staged := [(PKey.mk .strokeHeat 0, .num 12000)] } }
def stStagingAndConfirming5 : State := { wR with tag := { wR.tag with confAt := some (5, 0) } }.wrBytes 0x500007C0 (confField ++ u16 (crc16 confField) ++ [0x43, 0])
def stStagingAndConfirming6 : State := { wR with tag := { wR.tag with confAt := some (5, 0) } }

/-- States and operands that meet the hypotheses of StagingAndConfirming, clause by clause. -/
theorem wit_StagingAndConfirming :
    lineWaits stStagingAndConfirming0 (0 : Nat) (some "a" : Option String)
    ∧ stStagingAndConfirming0.stagingOpen (stStagingAndConfirming0.con (0 : Nat)).level (([(PKey.mk .strokeHeat 0, .num 12000)] : List (PKey × PVal)).any (fun e => keyMaterial e.1.name)) = true
    ∧ (∀ e ∈ ([(PKey.mk .strokeHeat 0, .num 12000)] : List (PKey × PVal)), pairOk e.1 e.2 = true)
    ∧ brokenRules (overlay stStagingAndConfirming0.stagedCfg (([(PKey.mk .strokeHeat 0, .num 12000)] : List (PKey × PVal)).map (fun e => (e.1, canonVal (PName.info e.1.name).kind e.2)))) ((diffOf stStagingAndConfirming0.nv.confirmed (overlay stStagingAndConfirming0.stagedCfg (([(PKey.mk .strokeHeat 0, .num 12000)] : List (PKey × PVal)).map (fun e => (e.1, canonVal (PName.info e.1.name).kind e.2)))) (keysOf (stStagingAndConfirming0.nv.staged ++ ([(PKey.mk .strokeHeat 0, .num 12000)] : List (PKey × PVal)).map (fun e => (e.1, canonVal (PName.info e.1.name).kind e.2))))).map (fun e => e.1.name)) = []
    ∧ (∃ e ∈ ([(PKey.mk .strokeHeat 0, .num 1)] : List (PKey × PVal)), pairOk e.1 e.2 = false)
    ∧ lineWaits stStagingAndConfirming2 (0 : Nat) (some "a" : Option String)
    ∧ stStagingAndConfirming2.stagingOpen (stStagingAndConfirming2.con (0 : Nat)).level false = true
    ∧ stStagingAndConfirming2.nv.staged ≠ []
    ∧ (wordOf ({ lcs lcsCommissioning wL with nv := { wL.nv with staged := [(PKey.mk .strokeHeat 0, .num 12000)] } } : State).checkNow : Word).toNat = stStagingAndConfirming2.checkNow
    ∧ brokenRules stStagingAndConfirming2.stagedCfg (stStagingAndConfirming2.nv.staged.map (fun e => e.1.name)) = []
    ∧ stStagingAndConfirming0.stagingOpen (stStagingAndConfirming0.con (0 : Nat)).level false = true
    ∧ (5 : Word).toNat ≠ stStagingAndConfirming0.checkNow
    ∧ stStagingAndConfirming5.camlanOn = true
    ∧ stStagingAndConfirming5.starting = false
    ∧ stStagingAndConfirming5.tag.confAt.isSome = true
    ∧ leNat (((stStagingAndConfirming5.rdBytes 0x500007C0 16).drop 12).take 2) = crc16 ((stStagingAndConfirming5.rdBytes 0x500007C0 16).take 12)
    ∧ stStagingAndConfirming5.rdB 0x500007CE = 0x43
    ∧ hexNum (((stStagingAndConfirming5.rdBytes 0x500007C0 16).drop 4).take 8) 0 = some (0 : Nat)
    ∧ leNat ((stStagingAndConfirming5.rdBytes 0x500007C0 16).take 2) ≠ stStagingAndConfirming5.ld (recBase + 0x18) 2
    ∧ stStagingAndConfirming6.camlanOn = true
    ∧ stStagingAndConfirming6.starting = false
    ∧ stStagingAndConfirming6.tag.confAt.isSome = true
    ∧ leNat (((stStagingAndConfirming6.rdBytes 0x500007C0 16).drop 12).take 2) ≠ crc16 ((stStagingAndConfirming6.rdBytes 0x500007C0 16).take 12) := by
  and_intros <;> first | decide +kernel | exact ⟨_, rfl⟩

def stLifeCycleTransitions4 : State := lcs lcsSealed (line .service wR)
def stLifeCycleTransitions5 : State := lcs lcsCommissioning wL
def stLifeCycleTransitions6 : State := lcs lcsService (line .service wR)
def stLifeCycleTransitions7 : State := lcs lcsSealed { wL with con0 := { wL.con0 with authed := true } }
def stLifeCycleTransitions9 : State := { wR with nv := { wR.nv with pendingLcs := some (1, wTagu) } }
def stLifeCycleTransitions10 : State := lcs lcsService { wR with cam := { wR.cam with svcBlocked := true } }
def stLifeCycleTransitions11 : State := par .ctrRole 0 (.sym 1) ((lcs lcsService { wR with cam := { wR.cam with svcBlocked := true } }).setFld Reg.AGR_C_FB 0 1 1)

/-- States and operands that meet the hypotheses of LifeCycleTransitions, clause by clause. -/
theorem wit_LifeCycleTransitions :
    getField (0x4C430001 : Word).toNat 16 16 = 0x4C43
    ∧ wR.camlanOn = true
    ∧ wR.nv.pendingLcs = none
    ∧ wR.lcsCommon (getField (0x4C430001 : Word).toNat 0 3) = 0
    ∧ wipeOf wR.lcs (getField (0x4C430001 : Word).toNat 0 3) = some (wTagu : Nat)
    ∧ getField (0x4C430002 : Word).toNat 16 16 = 0x4C43
    ∧ wR.lcsCommon (getField (0x4C430002 : Word).toNat 0 3) ≠ 0
    ∧ getField (0x4C440001 : Word).toNat 16 16 ≠ 0x4C43
    ∧ (7 : Nat) < 8
    ∧ (127 : Nat) < 128
    ∧ lineWaits stLifeCycleTransitions4 (0 : Nat) (some "a" : Option String)
    ∧ stLifeCycleTransitions4.nv.pendingLcs = none
    ∧ wipeOf stLifeCycleTransitions4.lcs lcsCommissioning = some (wKrad + wKlogin + wTen + wCfgstg + wTagu : Nat)
    ∧ stLifeCycleTransitions4.lcsCommon lcsCommissioning = 0
    ∧ (stLifeCycleTransitions4.con (0 : Nat)).level = .service
    ∧ stLifeCycleTransitions4.lcs ≠ lcsBlank
    ∧ lineWaits stLifeCycleTransitions5 (0 : Nat) (some "a" : Option String)
    ∧ stLifeCycleTransitions5.nv.pendingLcs = none
    ∧ wipeOf stLifeCycleTransitions5.lcs lcsBlank = some (wKrad + wKlogin + wCfg + wCfgstg + wTen + wTagu : Nat)
    ∧ stLifeCycleTransitions5.lcsCommon lcsBlank = 0
    ∧ (stLifeCycleTransitions5.con (0 : Nat)).level = .installer
    ∧ lineWaits stLifeCycleTransitions6 (0 : Nat) (some "a" : Option String)
    ∧ stLifeCycleTransitions6.nv.pendingLcs = none
    ∧ wipeOf stLifeCycleTransitions6.lcs lcsSealed = some (wCfgstg + wTagc : Nat)
    ∧ stLifeCycleTransitions6.lcsCommon lcsSealed = 0
    ∧ ((stLifeCycleTransitions6.con (0 : Nat)).level = .service ∨ (stLifeCycleTransitions6.con (0 : Nat)).level = .installer ∧ stLifeCycleTransitions6.lcs = lcsCommissioning)
    ∧ lineWaits stLifeCycleTransitions7 (0 : Nat) (some "a" : Option String)
    ∧ stLifeCycleTransitions7.nv.pendingLcs = none
    ∧ wipeOf stLifeCycleTransitions7.lcs lcsService = some (0 : Nat)
    ∧ stLifeCycleTransitions7.lcsCommon lcsService = 0
    ∧ (stLifeCycleTransitions7.con (0 : Nat)).authed = true
    ∧ wipeOf stLifeCycleTransitions4.lcs lcsRetired = some (wKrad + wKlogin + wCfg + wCfgstg + wTen + wTagu : Nat)
    ∧ stLifeCycleTransitions4.lcsCommon lcsRetired = 0
    ∧ stLifeCycleTransitions9.nv.pendingLcs = some ((1 : Nat), (wTagu : Nat))
    ∧ stLifeCycleTransitions9.camlanOn = true
    ∧ (1 : Nat) < 5
    ∧ (wTagu : Nat) < 128
    ∧ stLifeCycleTransitions10.serviceDue = true
    ∧ stLifeCycleTransitions10.allOpen = true
    ∧ stLifeCycleTransitions11.serviceDue = true
    ∧ stLifeCycleTransitions11.allOpen = false
    ∧ wR.serviceDue = false := by
  and_intros <;> first | decide +kernel | exact ⟨_, rfl⟩

def stConsoleOrdersEnterTheSet4 : State := line .view wR

/-- States and operands that meet the hypotheses of ConsoleOrdersEnterTheSet, clause by clause. -/
theorem wit_ConsoleOrdersEnterTheSet :
    lineWaits wL (0 : Nat) (some "a" : Option String)
    ∧ (5 : Nat) < 2 ^ 15
    ∧ (wL.con (0 : Nat)).level ≠ .view
    ∧ (0 : Int) ≤ wL.standing (0x10 : Nat)
    ∧ wL.standing (0x10 : Nat) < (5 : Int)
    ∧ lineWaits stConsoleOrdersEnterTheSet4 (0 : Nat) (some "a" : Option String)
    ∧ (stConsoleOrdersEnterTheSet4.con (0 : Nat)).level = .view
    ∧ ((wL.con (0 : Nat)).level = .installer ∨ (wL.con (0 : Nat)).level = .service)
    ∧ (∀ q ∈ wL.est.reqs, q.source ≠ 0x10 + (0 : Nat)) := by
  and_intros <;> first | decide +kernel | exact ⟨_, rfl⟩

def stClearingCommands0 : State := line .installer wE
def stClearingCommands1 : State := (par .ctrRole 0 (.sym 1) (line .installer wE)).setFld Reg.AGR_C_FB 0 1 1
def stClearingCommands2 : State := conf0 { wL with nv := { wL.nv with preLock := [0] } }
def stClearingCommands3 : State := (conf0 wL).setBit Reg.CTR_FAULT 0 true
def stClearingCommands4 : State := par .mdiFitted 0 (.sym 1) { wL with mdi := { wL.mdi with st := mdiFault } }
def stClearingCommands5 : State := (par .sinFunc 0 (.sym 1) { wL with sin := { wL.sin with latched := 1 } }).setFld Reg.AGR_C_SIN 0 1 1
def stClearingCommands6 : State := wL.setImdFlag 1 true
def stClearingCommands7 : State := seat 1 (fun x => { x with faulty := true }) (mod1 wL)
def stClearingCommands8 : State := chgAt cFault (mayC wL)
def stClearingCommands9 : State := wL.setFld Reg.KPA_AUXST 0 3 5
def stClearingCommands10 : State := (conf0 (line .service wR)).updStr 0 (fun x => { x with st := 5 })

/-- States and operands that meet the hypotheses of ClearingCommands, clause by clause. -/
theorem wit_ClearingCommands :
    lineWaits stClearingCommands0 (0 : Nat) (some "a" : Option String)
    ∧ ((stClearingCommands0.con (0 : Nat)).level = .installer ∨ (stClearingCommands0.con (0 : Nat)).level = .service)
    ∧ stClearingCommands0.cam.state = .easy
    ∧ stClearingCommands0.allOpen = true
    ∧ lineWaits stClearingCommands1 (0 : Nat) (some "a" : Option String)
    ∧ ((stClearingCommands1.con (0 : Nat)).level = .installer ∨ (stClearingCommands1.con (0 : Nat)).level = .service)
    ∧ stClearingCommands1.cam.state = .easy
    ∧ stClearingCommands1.allOpen = false
    ∧ lineWaits stClearingCommands2 (0 : Nat) (some "a" : Option String)
    ∧ ((stClearingCommands2.con (0 : Nat)).level = .installer ∨ (stClearingCommands2.con (0 : Nat)).level = .service)
    ∧ stClearingCommands2.strConf (0 : Nat) = true
    ∧ (0 : Nat) ∈ stClearingCommands2.nv.preLock
    ∧ lineWaits stClearingCommands3 (0 : Nat) (some "a" : Option String)
    ∧ ((stClearingCommands3.con (0 : Nat)).level = .installer ∨ (stClearingCommands3.con (0 : Nat)).level = .service)
    ∧ (0 : Nat) < 12
    ∧ stClearingCommands3.parS .ctrRole (0 : Nat) ≠ 0
    ∧ (stClearingCommands3.bit Reg.CTR_FAULT (0 : Nat) = true ∨ stClearingCommands3.bit Reg.CTR_FAULT (16 + (0 : Nat)) = true)
    ∧ stClearingCommands3.coilOn (0 : Nat) = false
    ∧ lineWaits stClearingCommands4 (0 : Nat) (some "a" : Option String)
    ∧ ((stClearingCommands4.con (0 : Nat)).level = .installer ∨ (stClearingCommands4.con (0 : Nat)).level = .service)
    ∧ stClearingCommands4.parS .mdiFitted ≠ 0
    ∧ stClearingCommands4.mdi.st = mdiFault
    ∧ lineWaits stClearingCommands5 (0 : Nat) (some "a" : Option String)
    ∧ ((stClearingCommands5.con (0 : Nat)).level = .installer ∨ (stClearingCommands5.con (0 : Nat)).level = .service)
    ∧ (0 : Nat) < 8
    ∧ stClearingCommands5.parS .sinFunc (0 : Nat) ≠ 0
    ∧ getField stClearingCommands5.sin.latched (0 : Nat) 1 = 1
    ∧ stClearingCommands5.bankTripped (0 : Nat) = false
    ∧ lineWaits stClearingCommands6 (0 : Nat) (some "a" : Option String)
    ∧ ((stClearingCommands6.con (0 : Nat)).level = .installer ∨ (stClearingCommands6.con (0 : Nat)).level = .service)
    ∧ stClearingCommands6.imdFlag 1 = true
    ∧ stClearingCommands6.imd.low = 0
    ∧ lineWaits stClearingCommands7 (0 : Nat) (some "a" : Option String)
    ∧ ((stClearingCommands7.con (0 : Nat)).level = .installer ∨ (stClearingCommands7.con (0 : Nat)).level = .service)
    ∧ (1 : Nat) ∈ stClearingCommands7.readSet
    ∧ (stClearingCommands7.seat (1 : Nat)).faulty = true
    ∧ lineWaits stClearingCommands8 (0 : Nat) (some "a" : Option String)
    ∧ ((stClearingCommands8.con (0 : Nat)).level = .installer ∨ (stClearingCommands8.con (0 : Nat)).level = .service)
    ∧ stClearingCommands8.chg = cFault
    ∧ stClearingCommands8.mayCharge = true
    ∧ lineWaits stClearingCommands9 (0 : Nat) (some "a" : Option String)
    ∧ ((stClearingCommands9.con (0 : Nat)).level = .installer ∨ (stClearingCommands9.con (0 : Nat)).level = .service)
    ∧ stClearingCommands9.aux = 5
    ∧ lineWaits stClearingCommands10 (0 : Nat) (some "a" : Option String)
    ∧ (stClearingCommands10.con (0 : Nat)).level = .service
    ∧ stClearingCommands10.strConf (0 : Nat) = true
    ∧ (stClearingCommands10.str (0 : Nat)).st = 5
    ∧ stClearingCommands10.weldClearable (0 : Nat) = true
    ∧ lineWaits wL (0 : Nat) (some "a" : Option String)
    ∧ (wL.con (0 : Nat)).level = .installer := by
  and_intros <;> first | decide +kernel | exact ⟨_, rfl⟩

def stRestoreAndLogbookCommands2 : State := { wL with est := { wL.est with transfer := some (1, 9, []) } }
def stRestoreAndLogbookCommands3 : State := { wL with est := { wL.est with transfer := some (0, 9, [1]) } }
def stRestoreAndLogbookCommands5 : State := { wL with est := { wL.est with transfer := some (0, (wL.saveRecord).length, wL.saveRecord) } }
def stRestoreAndLogbookCommands6 : State := { wL with est := { wL.est with transfer := some (0, 1, [1]) } }
def stRestoreAndLogbookCommands9 : State := line .view wR

/-- States and operands that meet the hypotheses of RestoreAndLogbookCommands, clause by clause. -/
theorem wit_RestoreAndLogbookCommands :
    lineWaits wL (0 : Nat) (some "a" : Option String)
    ∧ (wL.con (0 : Nat)).level ≠ .view
    ∧ wL.est.transfer = none
    ∧ lineWaits stRestoreAndLogbookCommands2 (0 : Nat) (some "a" : Option String)
    ∧ (stRestoreAndLogbookCommands2.con (0 : Nat)).level ≠ .view
    ∧ (1 : Nat) ≠ (0 : Nat)
    ∧ stRestoreAndLogbookCommands2.est.transfer = some ((1 : Nat), (9 : Nat), ([] : List Byte))
    ∧ lineWaits stRestoreAndLogbookCommands3 (0 : Nat) (some "a" : Option String)
    ∧ (stRestoreAndLogbookCommands3.con (0 : Nat)).level ≠ .view
    ∧ stRestoreAndLogbookCommands3.est.transfer = some ((0 : Nat), (9 : Nat), ([1] : List Byte))
    ∧ ([2, 3] : List Byte) ≠ []
    ∧ ([2, 3] : List Byte).length ≤ 96
    ∧ ([1] : List Byte).length + ([2, 3] : List Byte).length ≤ (9 : Nat)
    ∧ (5 : Nat) ≠ ([1] : List Byte).length
    ∧ lineWaits stRestoreAndLogbookCommands5 (0 : Nat) (some "a" : Option String)
    ∧ (stRestoreAndLogbookCommands5.con (0 : Nat)).level ≠ .view
    ∧ stRestoreAndLogbookCommands5.est.transfer = some ((0 : Nat), ((wL.saveRecord).length), (wL.saveRecord))
    ∧ (wL.saveRecord).length = ((wL.saveRecord).length)
    ∧ stRestoreAndLogbookCommands5.judgeRecord (wL.saveRecord) = 0
    ∧ lineWaits stRestoreAndLogbookCommands6 (0 : Nat) (some "a" : Option String)
    ∧ (stRestoreAndLogbookCommands6.con (0 : Nat)).level ≠ .view
    ∧ stRestoreAndLogbookCommands6.est.transfer = some ((0 : Nat), (1 : Nat), ([1] : List Byte))
    ∧ ([1] : List Byte).length = (1 : Nat)
    ∧ stRestoreAndLogbookCommands6.judgeRecord ([1] : List Byte) ≠ 0
    ∧ mayReadBook (wL.con (0 : Nat)).level (0 : Nat) = true
    ∧ lineWaits stRestoreAndLogbookCommands9 (0 : Nat) (some "a" : Option String)
    ∧ (2 : Nat) ≤ 8
    ∧ mayReadBook (stRestoreAndLogbookCommands9.con (0 : Nat)).level (2 : Nat) = false
    ∧ (0 : Nat) ≤ 8
    ∧ ((wL.con (0 : Nat)).level = .installer ∨ (wL.con (0 : Nat)).level = .service)
    ∧ ((5 : Nat) + 2 ^ 32 - wL.rdN (Reg.LOG_BFIRST (0 : Nat))) % 2 ^ 32 < 2 ^ 31 := by
  and_intros <;> first | decide +kernel | exact ⟨_, rfl⟩

def stChargerStates0 : State := li wR
def stChargerStates5 : State := { chgAt cDetect (li wR) with kpa := { (li wR).kpa with probe := true } }
def stChargerStates7 : State := chgAt cTrickle (li wR)
def stChargerStates8 : State := chgAt cPre (li wR)
def stChargerStates9 : State := chgAt cCc (li wR)
def stChargerStates10 : State := chgAt cCc (ni wR)
def stChargerStates12 : State := chgAt cCv (li wR)
def stChargerStates16 : State := { chgAt cCc (li wR) with kpa := { (li wR).kpa with ov := true } }
def stChargerStates17 : State := chgAt cDone (li wR)
def stChargerStates19 : State := chgAt cFault (li wR)
def stChargerStates20 : State := chgAt cFault wR
def stChargerStates4 : State := { li wR with kpa := { (li wR).kpa with present := false } }

/-- States and operands that meet the hypotheses of ChargerStates, clause by clause. -/
theorem wit_ChargerStates :
    (5 : Nat) < 10
    ∧ (cFault : Nat) < 10
    ∧ stChargerStates0.chg ≠ (cFault : Nat)
    ∧ (100 : Nat) < 1966
    ∧ wR.chg ≠ cFault
    ∧ 1966 ≤ (2000 : Nat)
    ∧ (5 : Nat) < 65536
    ∧ wR.kpa.present = false
    ∧ wR.bit Reg.KPA_CTRL 0 = false
    ∧ stChargerStates4.kpa.present = false
    ∧ stChargerStates4.kpa.supplement = false
    ∧ stChargerStates4.bit Reg.KPA_CTRL 0 = true
    ∧ stChargerStates4.chem ≠ 0
    ∧ (stChargerStates4.ksrc = srcPack ∨ stChargerStates4.ksrc = srcKin)
    ∧ 1000 ≤ (3500 : Nat)
    ∧ stChargerStates4.trickleMv ≤ (3500 : Nat)
    ∧ stChargerStates4.preMv ≤ (3500 : Nat)
    ∧ (3500 : Nat) < stChargerStates4.rechargeMv
    ∧ chargesAt stChargerStates4 (3500 : Nat)
    ∧ stChargerStates5.chg = cDetect
    ∧ stChargerStates5.kpa.probe = true
    ∧ (500 : Nat) < 1000
    ∧ 1000 ≤ (1500 : Nat)
    ∧ (1500 : Nat) < stChargerStates5.trickleMv
    ∧ stChargerStates5.zonePauses (stChargerStates5.fld Reg.KPA_CHGST 4 3) = false
    ∧ stChargerStates7.chg = cTrickle
    ∧ stChargerStates7.trickleMv ≤ (2500 : Nat)
    ∧ (2500 : Nat) < stChargerStates7.preMv
    ∧ stChargerStates7.kpa.pause < 4
    ∧ stChargerStates7.zonePauses (stChargerStates7.fld Reg.KPA_CHGST 4 3) = false
    ∧ stChargerStates8.chg = cPre
    ∧ stChargerStates8.preMv ≤ (3500 : Nat)
    ∧ stChargerStates8.kpa.pause < 4
    ∧ chargesAt stChargerStates8 (3500 : Nat)
    ∧ stChargerStates9.chg = cCc
    ∧ stChargerStates9.chem ≠ 3
    ∧ stChargerStates9.zoneCvMv (stChargerStates9.fld Reg.KPA_CHGST 4 3) ≤ (4100 : Nat)
    ∧ stChargerStates10.chg = cCc
    ∧ stChargerStates10.chem = 3
    ∧ 1600 * stChargerStates10.kcells ≤ (1600 : Nat)
    ∧ stChargerStates9.charging = true
    ∧ stChargerStates12.chg = cCv
    ∧ stChargerStates12.bit Reg.KPA_CHG2 16 = false
    ∧ stChargerStates10.bit Reg.KPA_CHG2 16 = false
    ∧ stChargerStates9.zonePauses (stChargerStates9.zoneOf (stChargerStates9.fld Reg.KPA_CHGST 4 3) ((7000 : Int) : Int)) = true
    ∧ stChargerStates16.kpa.ov = true
    ∧ stChargerStates17.chg = cDone
    ∧ stChargerStates17.bit Reg.KPA_CHG2 16 = false
    ∧ stChargerStates17.mayCharge = true
    ∧ stChargerStates9.awake = true
    ∧ stChargerStates17.awake = true
    ∧ (stChargerStates17.chg = cDone ∨ stChargerStates17.chg = cOff)
    ∧ stChargerStates19.awake = true
    ∧ stChargerStates19.mayCharge = true
    ∧ stChargerStates19.chg = cFault
    ∧ stChargerStates20.awake = true
    ∧ stChargerStates20.mayCharge = false
    ∧ stChargerStates20.chg = cFault := by
  and_intros <;> decide +kernel

def stShipButtonAndAuxiliaryOutput2 : State := ph .shipMode w0
def stShipButtonAndAuxiliaryOutput4 : State := ph .hibernating w0
def stShipButtonAndAuxiliaryOutput5 : State := aux 1 wR
def stShipButtonAndAuxiliaryOutput7 : State := aux 4 wR
def stShipButtonAndAuxiliaryOutput9 : State := (aux 2 wR).setFld Reg.KPA_AUXCFG 0 2 2
def stShipButtonAndAuxiliaryOutput10 : State := (aux 3 wR).setFld Reg.KPA_AUXCFG 4 12 1200
def stShipButtonAndAuxiliaryOutput12 : State := aux 5 wR

/-- States and operands that meet the hypotheses of ShipButtonAndAuxiliaryOutput, clause by clause. -/
theorem wit_ShipButtonAndAuxiliaryOutput :
    wR.awake = true
    ∧ getField (0x53480001 : Word).toNat 16 16 = 0x5348
    ∧ getField (0x53480001 : Word).toNat 0 1 = 1
    ∧ (getField (5 : Word).toNat 16 16 ≠ 0x5348 ∨ getField (5 : Word).toNat 0 1 = 0)
    ∧ stShipButtonAndAuxiliaryOutput2.power.phase = .shipMode
    ∧ wR.power.phase ≠ .hibernating
    ∧ stShipButtonAndAuxiliaryOutput4.power.phase = .hibernating
    ∧ (stShipButtonAndAuxiliaryOutput5.aux = 1 ∨ stShipButtonAndAuxiliaryOutput5.aux = 2)
    ∧ stShipButtonAndAuxiliaryOutput5.aux = 1
    ∧ (within stShipButtonAndAuxiliaryOutput5.clock minutes10 stShipButtonAndAuxiliaryOutput5.kpa.auxFaults).length < 2
    ∧ stShipButtonAndAuxiliaryOutput7.aux = 4
    ∧ stShipButtonAndAuxiliaryOutput9.aux = 2
    ∧ stShipButtonAndAuxiliaryOutput9.fld Reg.KPA_AUXCFG 0 2 = 2
    ∧ stShipButtonAndAuxiliaryOutput10.aux = 3
    ∧ (5000 : Nat) < stShipButtonAndAuxiliaryOutput10.fld Reg.KPA_AUXCFG 4 12 * 10 - (stShipButtonAndAuxiliaryOutput10.fld Reg.KPA_AUXSCL 26 6 + 1) * 50
    ∧ wR.aux ≠ 3
    ∧ stShipButtonAndAuxiliaryOutput12.awake = true
    ∧ stShipButtonAndAuxiliaryOutput12.aux = 5 := by
  and_intros <;> decide +kernel

def stVoltageAndTemperatureConversions0 : State := wR.setBit Reg.HVS_CTRL 1 true
def stVoltageAndTemperatureConversions2 : State := wR.setBit Reg.HVS_CTRL 1 false

/-- States and operands that meet the hypotheses of VoltageAndTemperatureConversions, clause by clause. -/
theorem wit_VoltageAndTemperatureConversions :
    (1 : Nat) < 6
    ∧ stVoltageAndTemperatureConversions0.bit Reg.HVS_CTRL (1 : Nat) = true
    ∧ (500 : Nat) < 65535
    ∧ getField stVoltageAndTemperatureConversions0.meas.hvsTest (1 : Nat) 1 = 0
    ∧ 65535 ≤ (65535 : Nat)
    ∧ stVoltageAndTemperatureConversions2.bit Reg.HVS_CTRL (1 : Nat) = false
    ∧ wR.awake = true
    ∧ ([1, 2, 3, 4, 5, 6, 7, 8] : List Nat).length = 8
    ∧ -32768 ≤ ((100 : Int) : Int)
    ∧ ((100 : Int) : Int) ≤ 32767 := by
  and_intros <;> decide +kernel

def stInsulationMonitor0 : State := imd (fun m => { m with on := true }) wR
def stInsulationMonitor2 : State := imd (fun m => { m with on := true, second := true, firstOk := true, v1 := 40000, u1 := 60000 }) (par .imdRinj 0 (.num 1000000) (par .imdRmeas 0 (.num 10000000) wR))
def stInsulationMonitor3 : State := imd (fun m => { m with on := true, second := true }) wR
def stInsulationMonitor4 : State := kf 0 (imd (fun m => { m with on := true, gNPrev := some 5 }) wR)
def stInsulationMonitor5 : State := imd (fun m => { m with on := true, gNPrev := some 5 }) wR
def stInsulationMonitor6 : State := wR.setBit Reg.IMD_STAT 1 true

/-- States and operands that meet the hypotheses of InsulationMonitor, clause by clause. -/
theorem wit_InsulationMonitor :
    stInsulationMonitor0.imd.on = true
    ∧ stInsulationMonitor0.imd.second = false
    ∧ (wR.imd.on = false ∨ wR.imd.second = true)
    ∧ stInsulationMonitor2.imd.on = true
    ∧ stInsulationMonitor2.imd.second = true
    ∧ stInsulationMonitor2.imd.excl = false
    ∧ stInsulationMonitor2.imd.faulted = false
    ∧ stInsulationMonitor2.imd.firstOk = true
    ∧ stInsulationMonitor2.parN .imdUmin ≤ (stInsulationMonitor2.imd.u1 : Int)
    ∧ stInsulationMonitor2.parN .imdUmin ≤ ((60000 : Nat) : Int)
    ∧ ((stInsulationMonitor2.imd.u1 : Int) - (60000 : Nat)).natAbs * 20 ≤ max stInsulationMonitor2.imd.u1 (60000 : Nat)
    ∧ (((20000 : Nat) : Int) - (20001 : Nat)).natAbs * 500 < (60000 : Nat)
    ∧ stInsulationMonitor2.imdSolve stInsulationMonitor2.imd.v1 stInsulationMonitor2.imd.u1 (20000 : Nat) (60000 : Nat) = (((stInsulationMonitor2.imdSolve 40000 60000 20000 60000).1 : Rat), ((stInsulationMonitor2.imdSolve 40000 60000 20000 60000).2.1 : Rat), ((stInsulationMonitor2.imdSolve 40000 60000 20000 60000).2.2 : Rat))
    ∧ 0 < ((stInsulationMonitor2.imdSolve 40000 60000 20000 60000).1 : Rat)
    ∧ 0 ≤ ((stInsulationMonitor2.imdSolve 40000 60000 20000 60000).2.1 : Rat)
    ∧ 0 ≤ ((stInsulationMonitor2.imdSolve 40000 60000 20000 60000).2.2 : Rat)
    ∧ stInsulationMonitor2.imd.gNExcl = none
    ∧ stInsulationMonitor3.imd.on = true
    ∧ stInsulationMonitor3.imd.second = true
    ∧ ((10 : Nat) : Int) < stInsulationMonitor3.parN .imdUmin
    ∧ (stInsulationMonitor3.imd.due = none ∨ stInsulationMonitor3.imd.due = some stInsulationMonitor3.strokeNo)
    ∧ ({ (stInsulationMonitor4.setBit Reg.AGR_C_FLAGS 8 true) with imd := { stInsulationMonitor4.imd with due := none } }).imd.on = true
    ∧ ({ (stInsulationMonitor4.setBit Reg.AGR_C_FLAGS 8 true) with imd := { stInsulationMonitor4.imd with due := none } }).imd.excl = false
    ∧ ({ (stInsulationMonitor4.setBit Reg.AGR_C_FLAGS 8 true) with imd := { stInsulationMonitor4.imd with due := none } }).imd.due = none
    ∧ ({ (stInsulationMonitor4.setBit Reg.AGR_C_FLAGS 8 true) with imd := { stInsulationMonitor4.imd with due := none } }).kinMayOpen = true
    ∧ stInsulationMonitor5.imd.on = true
    ∧ stInsulationMonitor5.imd.excl = false
    ∧ stInsulationMonitor5.imd.due = none
    ∧ stInsulationMonitor5.kinMayOpen = false
    ∧ stInsulationMonitor5.imd.postponed = false
    ∧ stInsulationMonitor6.bit Reg.IMD_STAT (if (true : Bool) then 1 else 0) = true := by
  and_intros <;> decide +kernel

def stRingAndSeats0 : State := ring ringWhole wR
def stRingAndSeats1 : State := (ring ringWhole wR).setBit Reg.CHN_RING 4 true
def stRingAndSeats2 : State := ring ringIsolated wR
def stRingAndSeats3 : State := ring ringDown wR
def stRingAndSeats4 : State := ring ringDown wS
def stRingAndSeats5 : State := ring ringEnum wR
def stRingAndSeats8 : State := chn (fun c => { c with badRun := 5 }) (ring ringWhole wR)
def stRingAndSeats10 : State := chn (fun c => { c with goodRun := 100 }) (ring ringSplit wR)
def stRingAndSeats11 : State := seat 1 (fun x => { x with enumd := true, silent := 2 }) (mod1 wR)
def stRingAndSeats12 : State := seat 1 (fun x => { x with disag := [0, 0, 0, 0, 0, 0, 0, 0] }) (mod1 wR)
def stRingAndSeats13 : State := seat 1 (fun x => { x with single := 17 }) (mod1 wR)

/-- States and operands that meet the hypotheses of RingAndSeats, clause by clause. -/
theorem wit_RingAndSeats :
    stRingAndSeats0.bit Reg.CHN_RING 5 = false
    ∧ (stRingAndSeats0.ring = ringWhole ∨ stRingAndSeats0.ring = ringSplit)
    ∧ stRingAndSeats1.bit Reg.CHN_RING 4 = true
    ∧ stRingAndSeats2.ring = ringIsolated
    ∧ stRingAndSeats3.ring = ringDown
    ∧ stRingAndSeats3.rowing = true
    ∧ stRingAndSeats4.ring = ringDown
    ∧ stRingAndSeats4.camlanOn = true
    ∧ stRingAndSeats4.cam.state = .stake
    ∧ stRingAndSeats5.ring = ringEnum
    ∧ (700 : Nat) < 65536
    ∧ stRingAndSeats8.ring = ringWhole
    ∧ stRingAndSeats8.parI .chnBreakN ≤ stRingAndSeats8.chn.badRun
    ∧ (3 : Nat) < 256
    ∧ wR.chn.badRun < wR.parI .chnBreakN
    ∧ stRingAndSeats10.ring = ringSplit
    ∧ stRingAndSeats10.parI .chnHealN ≤ stRingAndSeats10.chn.goodRun
    ∧ (1 : Nat) ∈ stRingAndSeats11.readSet
    ∧ (stRingAndSeats11.seat (1 : Nat)).lost = false
    ∧ stRingAndSeats11.parI .chnLostHeats ≤ (stRingAndSeats11.seat (1 : Nat)).silent
    ∧ (stRingAndSeats12.seat (1 : Nat)).faulty = false
    ∧ stRingAndSeats12.parI .twnDisagreeMax ≤ (within stRingAndSeats12.clock hours24 (stRingAndSeats12.seat (1 : Nat)).disag).length
    ∧ (stRingAndSeats13.seat (1 : Nat)).oneBlade = false
    ∧ 17 ≤ (stRingAndSeats13.seat (1 : Nat)).single := by
  and_intros <;> decide +kernel

def stChainTransactions3 : State := wR.setHd 1 0 1 txQueued
def stChainTransactions4 : State := fly1 wR
def stChainTransactions7 : State := (fly1 wR).setHd 1 0x15 1 9
def stChainTransactions8 : State := ring ringWhole wR
def stChain14 : State := (fly1 wR).setHd 1 7 1 8
def stChain16 : State := ((fly1 wR).setHd 1 0x15 1 1).setFld Reg.CHN_RETRY 0 2 2

/-- States and operands that meet the hypotheses of ChainTransactions, clause by clause. -/
theorem wit_ChainTransactions :
    wR.room (⟨0x10, 1, 1, [], 4, 2⟩ : Wanted).seat (⟨0x10, 1, 1, [], 4, 2⟩ : Wanted).paths (⟨0x10, 1, 1, [], 4, 2⟩ : Wanted).req (⟨0x10, 1, 1, [], 4, 2⟩ : Wanted).rspLen = some (0 : Nat)
    ∧ (⟨0x10, 1, 1, [], 4, 2⟩ : Wanted).type < 256
    ∧ (⟨0x10, 1, 1, [], 4, 2⟩ : Wanted).seat < 256
    ∧ (⟨0x10, 1, 1, [], 4, 2⟩ : Wanted).paths < 4
    ∧ (⟨0x10, 1, 1, [], 4, 2⟩ : Wanted).req.length < 256
    ∧ (⟨0x10, 1, 1, [], 4, 2⟩ : Wanted).rspLen < 256
    ∧ (full 32768 wR).room (⟨0x10, 1, 1, [], 4, 2⟩ : Wanted).seat (⟨0x10, 1, 1, [], 4, 2⟩ : Wanted).paths (⟨0x10, 1, 1, [], 4, 2⟩ : Wanted).req (⟨0x10, 1, 1, [], 4, 2⟩ : Wanted).rspLen = none
    ∧ wR.awake = true
    ∧ wR.txState (1 : Nat) ≠ txQueued
    ∧ stChainTransactions3.awake = true
    ∧ stChainTransactions3.txState (1 : Nat) = txQueued
    ∧ (recvChain ([] : List Byte) = none ∨ (∃ f, recvChain ([] : List Byte) = some (true, f) ∧ f.flag flagRsp = false))
    ∧ (900 : Nat) < 2 ^ 15
    ∧ recvChain (raw1 : List Byte) = some (true, (fr 1 0x10 1 : Frame))
    ∧ (fr 1 0x10 1 : Frame).flag flagRsp = true
    ∧ stChain14.fly (.a : RingPort) = some (1 : Nat)
    ∧ (900 : Nat) ≤ stChain14.gather
    ∧ stChain14.answers (1 : Nat) (stChain14.expectSeat (1 : Nat)) (fr 1 0x10 1 : Frame) = true
    ∧ isNak (fr 1 0x10 1 : Frame) = false
    ∧ (stChain14.hd (1 : Nat) 0xE 2 = 0xFFFF ∨ (stChain14.hd (1 : Nat) 0xE 2 + dataCount (stChain14.hd (1 : Nat) 7 1) ≤ 32768 ∧ ((1 : Nat) % 32768 < stChain14.hd (1 : Nat) 0xE 2 ∨ stChain14.hd (1 : Nat) 0xE 2 + dataCount (stChain14.hd (1 : Nat) 7 1) ≤ (1 : Nat) % 32768)))
    ∧ (30000 : Nat) < 2 ^ 15
    ∧ recvChain (raw1 : List Byte) = some ((true : Bool), (fr 1 0x10 1 : Frame))
    ∧ ((true : Bool) = true → (fr 1 0x10 1 : Frame).flag flagRsp = true)
    ∧ stChainTransactions4.fly (.a : RingPort) = some (1 : Nat)
    ∧ stChainTransactions4.gather < (30000 : Nat)
    ∧ stChain16.fly (.a : RingPort) = some (1 : Nat)
    ∧ (stChain16.atUs (900 : Nat)).retries (1 : Nat) (portB (.a : RingPort)) = true
    ∧ stChainTransactions7.fly (.a : RingPort) = some (1 : Nat)
    ∧ min 2 (stChainTransactions7.fld Reg.CHN_RETRY 0 2) < stChainTransactions7.hd (1 : Nat) 0x15 1
    ∧ stChainTransactions8.camlanOn = true
    ∧ (stChainTransactions8.ring = ringWhole ∨ stChainTransactions8.ring = ringSplit)
    ∧ (wR.camlanOn = false ∨ wR.ring = ringDown ∨ wR.ring = ringEnum) := by
  and_intros <;> first | with_reducible exact room_full _ _ _ _ | decide +kernel | exact Or.inl rfl

def stCanObjectsAndRequests1 : State := rx3 wR
def stCanObjectsAndRequests2 : State := canOn 0 wR
def stCanObjectsAndRequests4 : State := canS 0 (fun c => { c with fifo := [⟨1, 2, [3]⟩] }) wR
def stCanObjectsAndRequests6 : State := (wR.setFld (Reg.CAN_WSEL 0) 0 2 1).setFld (Reg.CAN_WSEL 0) 8 7 4
def stCanObjectsAndRequests7 : State := ((wR.setFld (Reg.CAN_WSEL 0) 0 2 1).setFld (Reg.CAN_WSEL 0) 8 7 4).setBit (Reg.CAN_TXPEND 0) 4 true
def stCanObjectsAndRequests9 : State := (row wR).setBit (Reg.CAN_TXPEND 0) 2 true

/-- States and operands that meet the hypotheses of CanObjectsAndRequests, clause by clause. -/
theorem wit_CanObjectsAndRequests :
    wR.takesFrame (.a : CanId) (f0 : CanFrame) = false
    ∧ (90 : Nat) < 2 ^ 15
    ∧ stCanObjectsAndRequests1.takesFrame (.a : CanId) (f0 : CanFrame) = true
    ∧ stCanObjectsAndRequests1.bit (Reg.CAN_FIFOCTRL (canIdx (.a : CanId))) 0 = false
    ∧ (f0 : CanFrame).rtr = false
    ∧ stCanObjectsAndRequests1.rxMatch (canIdx (.a : CanId)) (frameObj (f0 : CanFrame) ((stCanObjectsAndRequests1.stk.base + (90 : Nat)) % 2 ^ 48)) = some (3 : Nat)
    ∧ stCanObjectsAndRequests2.takesFrame (.a : CanId) (f0 : CanFrame) = true
    ∧ ((f0 : CanFrame).rtr = true ∨ stCanObjectsAndRequests2.rxMatch (canIdx (.a : CanId)) (frameObj (f0 : CanFrame) ((stCanObjectsAndRequests2.stk.base + (90 : Nat)) % 2 ^ 48)) = none)
    ∧ wR.maySelect (.scull0 : Requester) (canIdx (.a : CanId)) (getField (5 : Word).toNat 0 2) (getField (5 : Word).toNat 8 7) = false
    ∧ stCanObjectsAndRequests4.awake = true
    ∧ getField (2 : Word).toNat 0 2 = 2
    ∧ (stCanObjectsAndRequests4.can (canIdx (.a : CanId))).fifo = (⟨1, 2, [3]⟩ : CanObj) :: ([] : List CanObj)
    ∧ wR.awake = true
    ∧ getField (0x300 : Word).toNat 0 2 = 0
    ∧ getField (0x300 : Word).toNat 8 7 < 64
    ∧ stCanObjectsAndRequests6.awake = true
    ∧ (4 : Nat) < 32
    ∧ stCanObjectsAndRequests6.fld (Reg.CAN_WSEL (canIdx (.a : CanId))) 0 2 = 1
    ∧ stCanObjectsAndRequests6.fld (Reg.CAN_WSEL (canIdx (.a : CanId))) 8 7 = (4 : Nat)
    ∧ stCanObjectsAndRequests6.txPending (canIdx (.a : CanId)) (4 : Nat) = false
    ∧ stCanObjectsAndRequests7.awake = true
    ∧ stCanObjectsAndRequests7.fld (Reg.CAN_WSEL (canIdx (.a : CanId))) 0 2 = 1
    ∧ stCanObjectsAndRequests7.fld (Reg.CAN_WSEL (canIdx (.a : CanId))) 8 7 = (4 : Nat)
    ∧ stCanObjectsAndRequests7.txPending (canIdx (.a : CanId)) (4 : Nat) = true
    ∧ stCanObjectsAndRequests9.awake = true
    ∧ (stCanObjectsAndRequests9.can (canIdx (.a : CanId))).attempt = none := by
  and_intros <;> decide +kernel

def stCanAttemptsAndErrors0 : State := ((canOn 0 wR).setBit (Reg.CAN_TXPEND 0) 2 true).setFld (Reg.CAN_CTRL 0) 2 1 0
def stCanAttemptsAndErrors2 : State := canS 0 (fun c => { c with attempt := some 2 }) ((canOn 0 wR).setBit (Reg.CAN_TXPEND 0) 2 true)
def stCanAttemptsAndErrors4 : State := canS 0 (fun c => { c with tx := [(2, ⟨1, 500, []⟩)] }) ((canOn 0 wR).setBit (Reg.CAN_TXPEND 0) 2 true)
def stCanAttemptsAndErrors8 : State := wR.setFld (Reg.CAN_STAT 0) 0 2 2
def stCanAttemptsAndErrors9 : State := (wR.setFld (Reg.CAN_STAT 0) 0 2 2).setBit (Reg.CAN_CTRL 0) 6 true
def stCanAttemptsAndErrors11 : State := par .canWake 0 (.sym 1) (ph .hibernating w0)
def stCanAttemptsAndErrors7 : State := wR.setBit (Reg.CAN_CTRL 0) 2 true

/-- States and operands that meet the hypotheses of CanAttemptsAndErrors, clause by clause. -/
theorem wit_CanAttemptsAndErrors :
    (90 : Nat) < 2 ^ 15
    ∧ (stCanAttemptsAndErrors0.atUs (90 : Nat)).mayAttempt (canIdx (.a : CanId)) (2 : Nat) = true
    ∧ (∀ p, p < (2 : Nat) → (stCanAttemptsAndErrors0.atUs (90 : Nat)).mayAttempt (canIdx (.a : CanId)) p = false)
    ∧ (wR.atUs (90 : Nat)).mayAttempt (canIdx (.a : CanId)) (2 : Nat) = false
    ∧ (2 : Nat) < 32
    ∧ (stCanAttemptsAndErrors2.can (canIdx (.a : CanId))).attempt = some (2 : Nat)
    ∧ ((.a : CanId) = .b → stCanAttemptsAndErrors2.crewOn = false ∨ ((2 : Nat) ≠ crewOrd ∧ (2 : Nat) ≠ crewOut))
    ∧ getField (stCanAttemptsAndErrors2.can (canIdx (.a : CanId))).aborting (2 : Nat) 1 = 0
    ∧ (stCanAttemptsAndErrors2.can (canIdx (.a : CanId))).exclusive = false
    ∧ stCanAttemptsAndErrors4.txPending (canIdx (.a : CanId)) (2 : Nat) = true
    ∧ (stCanAttemptsAndErrors4.can (canIdx (.a : CanId))).attempt ≠ some (2 : Nat)
    ∧ (stCanAttemptsAndErrors4.txDeadline (canIdx (.a : CanId)) (2 : Nat)).isSome = true
    ∧ wR.txPending (canIdx (.a : CanId)) (2 : Nat) = false
    ∧ wR.bit (Reg.CAN_CTRL (canIdx (.a : CanId))) 2 = false
    ∧ (1 : Nat) < 4
    ∧ (1 : Nat) ≠ 2
    ∧ stCanAttemptsAndErrors7.bit (Reg.CAN_CTRL (canIdx (.a : CanId))) 2 = true
    ∧ wR.fld (Reg.CAN_STAT (canIdx (.a : CanId))) 0 2 ≠ 2
    ∧ stCanAttemptsAndErrors8.fld (Reg.CAN_STAT (canIdx (.a : CanId))) 0 2 = 2
    ∧ stCanAttemptsAndErrors9.fld (Reg.CAN_STAT (canIdx (.a : CanId))) 0 2 = 2
    ∧ stCanAttemptsAndErrors9.bit (Reg.CAN_CTRL (canIdx (.a : CanId))) 6 = true
    ∧ stCanAttemptsAndErrors8.bit (Reg.CAN_CTRL (canIdx (.a : CanId))) 6 = false
    ∧ stCanAttemptsAndErrors11.parS .canWake (canIdx (.a : CanId)) = 1
    ∧ stCanAttemptsAndErrors11.power.phase = .hibernating
    ∧ wR.parS .canWake (canIdx (.a : CanId)) ≠ 1 := by
  and_intros <;> decide +kernel

def stCrewPresence0 : State := par .canaStd 0 (.sym 1) (canOn 0 wR)
def stCrewPresence1 : State := leader (canOn 1 wR)
def stCrewPresence2 : State := (member wR).setBit Reg.STK_CTRL 8 false
def stCrewPresence3 : State := member (row wR)
def stCrewPresence4 : State := crw (fun c => { c with missing := 8, locked := true }) (member (row wR))
def stCrewPresence5 : State := par .crewLane 0 (.num 2000) (crw (fun c => { c with missing := 8, lanes := [0, 1, 2] }) (member (row wR)))
def stCrewPresence7 : State := member wR
def stCrewPresence11 : State := crw (fun c => { c with missed := [(1, 3)] }) (leader wR)
/-- A crew frame of 64 bytes with its first byte. -/
def crew64 (b : Byte) : List Byte := b :: List.replicate 63 0

/-- States and operands that meet the hypotheses of CrewPresence, clause by clause. -/
theorem wit_CrewPresence :
    stCrewPresence0.rowing = true
    ∧ stCrewPresence0.parS .canaStd = 1
    ∧ stCrewPresence0.txPending 0 0 = false
    ∧ stCrewPresence0.txPending 0 1 = false
    ∧ stCrewPresence1.crewOn = true
    ∧ stCrewPresence1.rowing = true
    ∧ (stCrewPresence1.leading = true ∨ stCrewPresence1.crew.deputy = true)
    ∧ stCrewPresence1.canReady 1 = true
    ∧ stCrewPresence3.crewOn = true
    ∧ ([1, 2] : List Byte).length ≠ 16
    ∧ stCrewPresence2.crewOn = true
    ∧ (List.replicate 16 0 : List Byte).length = 16
    ∧ stCrewPresence2.running = false
    ∧ (List.replicate 16 1 : List Byte).length = 16
    ∧ stCrewPresence3.running = true
    ∧ (stCrewPresence3.leading = false ∨ crewField (List.replicate 16 1 : List Byte) 4 1 ≠ stCrewPresence3.lane)
    ∧ stCrewPresence4.crewOn = true
    ∧ stCrewPresence4.leading = false
    ∧ 8 ≤ stCrewPresence4.crew.missing
    ∧ lowest (stCrewPresence4.crew.lanes.filter (fun l => decide (some l ≠ stCrewPresence4.crew.leader) && stCrewPresence4.laneLocked l)) = some stCrewPresence4.lane
    ∧ stCrewPresence5.crewOn = true
    ∧ stCrewPresence5.leading = false
    ∧ 8 ≤ stCrewPresence5.crew.missing
    ∧ stCrewPresence5.crew.deputy = false
    ∧ lowest (stCrewPresence5.crew.lanes.filter (fun l => decide (some l ≠ stCrewPresence5.crew.leader) && stCrewPresence5.laneLocked l)) ≠ some stCrewPresence5.lane
    ∧ wR.crew.missing < 8
    ∧ stCrewPresence7.crewOn = true
    ∧ (([1, 2] : List Byte).length ≠ 8 ∨ stCrewPresence7.inCrewWindow 4 (9000 : Nat) = false)
    ∧ (List.replicate 8 1 : List Byte).length = 8
    ∧ stCrewPresence7.inCrewWindow 4 (9000 : Nat) = true
    ∧ (5 : Nat) ≠ stCrewPresence7.lane
    ∧ (stCrewPresence7.rowing = true ∨ stCrewPresence7.lane < (5 : Nat))
    ∧ ((5, crewField (List.replicate 8 1) 0 4, crewField (List.replicate 8 1) 4 1, crewField (List.replicate 8 1) 5 1) : Nat × Nat × Nat × Nat) = ((5 : Nat), crewField (List.replicate 8 1 : List Byte) 0 4, crewField (List.replicate 8 1 : List Byte) 4 1, crewField (List.replicate 8 1 : List Byte) 5 1)
    ∧ ((5, crewField (List.replicate 8 1) 0 4, crewField (List.replicate 8 1) 4 1, crewField (List.replicate 8 1) 5 1) : Nat × Nat × Nat × Nat) ∉ stCrewPresence7.crew.joins
    ∧ crewField (List.replicate 8 1 : List Byte) 0 4 ≠ stCrewPresence7.rdN Reg.SYS_UID0
    ∧ (crew64 0 : List Byte).length = 64
    ∧ crewField (crew64 0 : List Byte) 0 1 = 0
    ∧ stCrewPresence7.inCrewWindow 1 (1000 : Nat) = true
    ∧ (([1, 2] : List Byte).length ≠ 64 ∨ crewField ([1, 2] : List Byte) 0 1 ≠ 0 ∨ stCrewPresence7.inCrewWindow 1 (1000 : Nat) = false)
    ∧ stCrewPresence11.crewOn = true
    ∧ (1 : Nat) ∈ stCrewPresence11.crew.lanes
    ∧ (1 : Nat) ≠ stCrewPresence11.lane
    ∧ 3 ≤ Tab.get 0 stCrewPresence11.crew.missed (1 : Nat)
    ∧ Tab.get 0 wR.crew.missed (1 : Nat) < 3 := by
  and_intros <;> decide +kernel

def stCrewOrdersAndOutcomes0 : State := member (row wR)
def stCrewOrdersAndOutcomes2 : State := member wR
def stCrewOrdersAndOutcomes3 : State := leader wR
def stCrewOrdersAndOutcomes4 : State := crw (fun c => { c with waits := [⟨1, 5, false, 0, some "a", 0⟩] }) (leader wR)
def stCrewOrdersAndOutcomes5 : State := crw (fun c => { c with waits := [⟨1, 5, false, 0, some "a", 0⟩] }) ((leader (row wR)).setFld Reg.STK_NUM 0 32 500)
def stCrewOrdersAndOutcomes7 : State := leader wL
def stCrewOrdersAndOutcomes9 : State := member wL
/-- One outcome of order 5 of the crew leader. -/
def outcome5 : List Byte := [1, 0, 1, 0] ++ u32 0 ++ [1, 0, 1, 0] ++ u32 5 ++ List.replicate 48 0
/-- The first 56 bytes of an orders frame of stroke 50 of leader 1 with one order for string 0. -/
def orders50 : List Byte := u32 50 ++ [1, 1, 0, 0] ++ [1, 0, 0, 0] ++ u32 0 ++ u32 7 ++ List.replicate 36 0
def stCrewOrders : State := par .crewKey 0 (.table [1, 2]) (member (row wR))

/-- States and operands that meet the hypotheses of CrewOrdersAndOutcomes, clause by clause. -/
theorem wit_CrewOrdersAndOutcomes :
    (3000 : Nat) < 2 ^ 15
    ∧ stCrewOrders.crewOn = true
    ∧ (orders50 ++ crewMac [1, 2] 0 orders50 : List Byte).length = 64
    ∧ stCrewOrders.leading = false
    ∧ stCrewOrders.lane ∈ stCrewOrders.crew.lanes
    ∧ stCrewOrders.inCrewWindow 2 (3000 : Nat) = true
    ∧ stCrewOrders.crew.ref = some (crewField (orders50 ++ crewMac [1, 2] 0 orders50 : List Byte) 0 4)
    ∧ stCrewOrders.crew.leader = some (crewField (orders50 ++ crewMac [1, 2] 0 orders50 : List Byte) 4 1)
    ∧ stCrewOrders.crewKey = some ([1, 2] : List Byte)
    ∧ crewMac ([1, 2] : List Byte) stCrewOrders.lane ((orders50 ++ crewMac [1, 2] 0 orders50 : List Byte).take 56) = (orders50 ++ crewMac [1, 2] 0 orders50 : List Byte).drop 56
    ∧ crewField (orders50 ++ crewMac [1, 2] 0 orders50 : List Byte) 6 1 ≠ 1
    ∧ crewField (orders50 ++ crewMac [1, 2] 0 orders50 : List Byte) 6 1 ≠ 2
    ∧ stCrewOrdersAndOutcomes0.crewOn = true
    ∧ (crew64 1 : List Byte).length = 64
    ∧ (stCrewOrdersAndOutcomes0.inCrewWindow 2 (0 : Nat) = false ∨ stCrewOrdersAndOutcomes0.crew.ref ≠ some (crewField (crew64 1 : List Byte) 0 4) ∨ stCrewOrdersAndOutcomes0.crew.leader ≠ some (crewField (crew64 1 : List Byte) 4 1) ∨ stCrewOrdersAndOutcomes0.crewKey = none ∨ (∃ key, stCrewOrdersAndOutcomes0.crewKey = some key ∧ crewMac key stCrewOrdersAndOutcomes0.lane ((crew64 1 : List Byte).take 56) ≠ (crew64 1 : List Byte).drop 56))
    ∧ stCrewOrdersAndOutcomes2.crewOn = true
    ∧ ([1, 2] : List Byte).length ≠ 64
    ∧ (1 : Nat) ≠ stCrewOrdersAndOutcomes2.lane
    ∧ stCrewOrdersAndOutcomes3.crewOn = true
    ∧ stCrewOrdersAndOutcomes3.leading = true
    ∧ (1 : Nat) ≠ stCrewOrdersAndOutcomes3.lane
    ∧ crewField (crew64 1 : List Byte) 0 1 = 1
    ∧ stCrewOrdersAndOutcomes3.inCrewWindow 3 (6000 : Nat) = true
    ∧ (∀ w ∈ stCrewOrdersAndOutcomes3.crew.waits, w.lane ≠ (1 : Nat))
    ∧ stCrewOrdersAndOutcomes4.crewOn = true
    ∧ stCrewOrdersAndOutcomes4.leading = true
    ∧ (1 : Nat) ≠ stCrewOrdersAndOutcomes4.lane
    ∧ (outcome5 : List Byte).length = 64
    ∧ crewField (outcome5 : List Byte) 0 1 = 1
    ∧ stCrewOrdersAndOutcomes4.inCrewWindow 3 (6000 : Nat) = true
    ∧ stCrewOrdersAndOutcomes4.crew.waits = [(⟨1, 5, false, 0, some "a", 0⟩ : CrewWait)]
    ∧ (⟨1, 5, false, 0, some "a", 0⟩ : CrewWait).lane = (1 : Nat)
    ∧ (⟨1, 5, false, 0, some "a", 0⟩ : CrewWait).surge = false
    ∧ (∃ e ∈ outcomesOf (outcome5 : List Byte), e.ref = (⟨1, 5, false, 0, some "a", 0⟩ : CrewWait).ref)
    ∧ (([1, 2] : List Byte).length ≠ 64 ∨ crewField ([1, 2] : List Byte) 0 1 ≠ 1 ∨ stCrewOrdersAndOutcomes3.inCrewWindow 3 (6000 : Nat) = false)
    ∧ stCrewOrdersAndOutcomes5.camlanOn = true
    ∧ stCrewOrdersAndOutcomes5.crew.waits = [(⟨1, 5, false, 0, some "a", 0⟩ : CrewWait)]
    ∧ 2 * stCrewOrdersAndOutcomes5.watchLen ≤ (stCrewOrdersAndOutcomes5.strokeNo + 2 ^ 32 - (⟨1, 5, false, 0, some "a", 0⟩ : CrewWait).stroke) % 2 ^ 32
    ∧ stCrewOrdersAndOutcomes4.camlanOn = true
    ∧ (∀ w ∈ stCrewOrdersAndOutcomes4.crew.waits, w.lane = (1 : Nat) → (stCrewOrdersAndOutcomes4.strokeNo + 2 ^ 32 - w.stroke) % 2 ^ 32 < 2 * stCrewOrdersAndOutcomes4.watchLen)
    ∧ lineWaits stCrewOrdersAndOutcomes7 (0 : Nat) (some "a" : Option String)
    ∧ ((stCrewOrdersAndOutcomes7.con (0 : Nat)).level = .installer ∨ (stCrewOrdersAndOutcomes7.con (0 : Nat)).level = .service)
    ∧ stCrewOrdersAndOutcomes7.crewOn = true
    ∧ stCrewOrdersAndOutcomes7.leading = true
    ∧ (1 : Nat) ≠ stCrewOrdersAndOutcomes7.lane
    ∧ (1 : Nat) ∈ stCrewOrdersAndOutcomes7.crew.lanes
    ∧ lineWaits stCrewOrdersAndOutcomes9 (0 : Nat) (some "a" : Option String)
    ∧ ((stCrewOrdersAndOutcomes9.con (0 : Nat)).level = .installer ∨ (stCrewOrdersAndOutcomes9.con (0 : Nat)).level = .service)
    ∧ stCrewOrdersAndOutcomes9.leading = false := by
  and_intros <;> first | decide +kernel | exact ⟨_, rfl⟩ | rfl

def stTallyEflashAndRefresh0 : State := tly (fun t => { t with acc := [(0x60, 3)] }) wR
def stTallyEflashAndRefresh3 : State := wR.setBit Reg.EFC_CTRL 0 true
def stTallyEflashAndRefresh5 : State := tly (fun t => { t with op := some (1, 0x2000) }) (wR.setFld Reg.EFC_CTRL 0 2 3)
def stTallyEflashAndRefresh6 : State := tly (fun t => { t with op := some (1, 0x2000) }) (wR.setBit Reg.EFC_CTRL 0 true)
def stTallyEflashAndRefresh9 : State := tly (fun t => { t with op := some (0, 0x2000) }) wR
def stTallyEflashAndRefresh10 : State := tly (fun t => { t with op := some (1, 0x2000) }) wR
def stTallyEflashAndRefresh16 : State := { tly (fun t => { t with due := 1 }) wR with nv := { wR.nv with tallyActive := 254 } }
def stTallyEflashAndRefresh17 : State := stTallyEflashAndRefresh16.wrBytes 0x08000000 [1]

/-- States and operands that meet the hypotheses of TallyEflashAndRefresh, clause by clause. -/
theorem wit_TallyEflashAndRefresh :
    stTallyEflashAndRefresh0.camlanOn = true
    ∧ stTallyEflashAndRefresh0.tally.keptOps = []
    ∧ stTallyEflashAndRefresh0.tally.acc = [((0x60 : Nat), (3 : Nat))]
    ∧ stTallyEflashAndRefresh0.tallyFrozen (0x60 : Nat) = false
    ∧ stTallyEflashAndRefresh0.nv.tallyNext ≤ 511
    ∧ stTallyEflashAndRefresh0.acts = .idle
    ∧ w0.camlanOn = false
    ∧ stTallyEflashAndRefresh3.awake = true
    ∧ stTallyEflashAndRefresh3.bit Reg.EFC_CTRL 0 = true
    ∧ stTallyEflashAndRefresh3.tally.op = none
    ∧ (stTallyEflashAndRefresh10.bit Reg.EFC_CTRL 0 = false ∨ stTallyEflashAndRefresh10.tally.op ≠ none)
    ∧ stTallyEflashAndRefresh5.awake = true
    ∧ stTallyEflashAndRefresh5.bit Reg.EFC_CTRL 0 = true
    ∧ stTallyEflashAndRefresh5.tally.op = some (1, (0x2000 : Nat))
    ∧ stTallyEflashAndRefresh5.bit Reg.EFC_CTRL 1 = true
    ∧ stTallyEflashAndRefresh6.awake = true
    ∧ stTallyEflashAndRefresh6.bit Reg.EFC_CTRL 0 = true
    ∧ stTallyEflashAndRefresh6.tally.op = some (1, (0x2000 : Nat))
    ∧ stTallyEflashAndRefresh6.bit Reg.EFC_CTRL 1 = false
    ∧ ((.scull0 : Requester) ≠ .cox ∨ (0x4546 : Nat) ≠ 0x4546)
    ∧ stTallyEflashAndRefresh9.tally.op = some (0, (0x2000 : Nat))
    ∧ (0x2000 : Nat) + 0x2000 ≤ 0x400000
    ∧ stTallyEflashAndRefresh16.camlanOn = true
    ∧ 0 < stTallyEflashAndRefresh16.tally.due
    ∧ stTallyEflashAndRefresh16.tallyVal 0x72 % 2 ^ 32 < 509
    ∧ stTallyEflashAndRefresh16.nv.tallyNext ≤ 509
    ∧ (stTallyEflashAndRefresh16.nv.tallyActive = 254 ∨ stTallyEflashAndRefresh16.nv.tallyActive = 255)
    ∧ stTallyEflashAndRefresh16.sectorErased (stTallyEflashAndRefresh16.tallyVal 0x72 % 2 ^ 32) = true
    ∧ stTallyEflashAndRefresh17.camlanOn = true
    ∧ 0 < stTallyEflashAndRefresh17.tally.due
    ∧ stTallyEflashAndRefresh17.tallyVal 0x72 % 2 ^ 32 < 509
    ∧ stTallyEflashAndRefresh17.nv.tallyNext ≤ 509
    ∧ (stTallyEflashAndRefresh17.nv.tallyActive = 254 ∨ stTallyEflashAndRefresh17.nv.tallyActive = 255)
    ∧ stTallyEflashAndRefresh17.sectorErased (stTallyEflashAndRefresh17.tallyVal 0x72 % 2 ^ 32) = false
    ∧ (wR.camlanOn = false ∨ wR.tally.due = 0) := by
  and_intros <;> decide +kernel

def stTagHostSide2 : State := tg (fun x => { x with buf := some (0x50000400, [(0, 9)]) }) wR
def stTagHostSide3 : State := tg (fun x => { x with buf := some (0x50000410, [(0, 9)]) }) wR
def stTagHostSide7 : State := tg (fun x => { x with rows := [(0x50000400, List.replicate 16 7)] }) wR
def stTagHostSide8 : State := tg (fun x => { x with rows := [(0x50000400, List.replicate 16 7)], wait := some (.read 4) }) (tA wR)
def stTagHostSide10 : State := tg (fun x => { x with owner := 1 }) wR
def stTagHostSide11 : State := tg (fun x => { x with owner := 2 }) wR

/-- States and operands that meet the hypotheses of TagHostSide, clause by clause. -/
theorem wit_TagHostSide :
    wR.awake = true
    ∧ inMailbox (0xC00 : Nat) = true
    ∧ wR.tag.owner ≠ 2
    ∧ (0x400 : Nat) % 16 = 0
    ∧ (0x400 : Nat) < 0x2000
    ∧ (2 : Nat) + ([1, 2] : List Byte).length ≤ 16
    ∧ ([1, 2] : List Byte) ≠ []
    ∧ (hostOwned ((0x400 : Nat) + (2 : Nat)) = true ∨ (inMailbox ((0x400 : Nat) + (2 : Nat)) = true ∧ wR.tag.owner = 2))
    ∧ wR.tag.buf = none
    ∧ stTagHostSide2.awake = true
    ∧ (hostOwned ((0x400 : Nat) + (2 : Nat)) = true ∨ (inMailbox ((0x400 : Nat) + (2 : Nat)) = true ∧ stTagHostSide2.tag.owner = 2))
    ∧ stTagHostSide2.tag.buf = some (tagBase + (0x400 : Nat), ([(0, 9)] : List (Nat × Byte)))
    ∧ stTagHostSide3.awake = true
    ∧ (hostOwned ((0x400 : Nat) + (2 : Nat)) = true ∨ (inMailbox ((0x400 : Nat) + (2 : Nat)) = true ∧ stTagHostSide3.tag.owner = 2))
    ∧ stTagHostSide3.tag.buf = some ((0x50000410 : Nat), ([(0, 9)] : List (Nat × Byte)))
    ∧ (0x50000410 : Nat) ≠ tagBase + (0x400 : Nat)
    ∧ hostOwned (0x1FF0 : Nat) = false
    ∧ inMailbox (0x1FF0 : Nat) = false
    ∧ stTagHostSide7.tag.rows = ((0x50000400 : Nat), (List.replicate 16 7 : List Byte)) :: ([] : List (Nat × List Byte))
    ∧ stTagHostSide7.tag.wait = none
    ∧ (List.replicate 16 7 : List Byte).length = 16
    ∧ stTagHostSide8.tagAir = true
    ∧ stTagHostSide8.tag.air = 3
    ∧ stTagHostSide8.tag.sector ≠ 3
    ∧ stTagHostSide8.tag.rows = [((0x50000400 : Nat), (List.replicate 16 7 : List Byte))]
    ∧ stTagHostSide8.tag.wait = some (.read (4 : Nat))
    ∧ wR.tag.owner = 0
    ∧ stTagHostSide10.tag.owner ≠ 0
    ∧ stTagHostSide11.awake = true
    ∧ stTagHostSide11.tag.owner = 2
    ∧ stTagHostSide10.tag.owner = 1
    ∧ wR.tag.owner ≠ 1
    ∧ getField (7 : Word).toNat 16 16 ≠ 0x5457 := by
  and_intros <;> decide +kernel

def stDebugPort3 : State := lcs lcsCommissioning wR
def stDebugPort4 : State := att wR
def stDebugPort6 : State := hlt wR

/-- States and operands that meet the hypotheses of DebugPort, clause by clause. -/
theorem wit_DebugPort :
    w0.debugAnswers = false
    ∧ stDebugPort3.debugAnswers = true
    ∧ stDebugPort4.attached = true
    ∧ wR.attached = false
    ∧ stDebugPort6.halted = true
    ∧ ((0x301, 0x40001104) : Nat × Nat) ∈ ([(0x1000, 0), (0x301, 0x40001104), (0xF14, 0)] : List (Nat × Nat))
    ∧ (0x1005 : Nat) < 0x1020
    ∧ (0x1005 : Nat) ≠ 0x1000
    ∧ (0x1005 : Nat) ≠ 0x301
    ∧ abstractIllegal (0x1005 : Nat) true = false
    ∧ 0x1000 < (0x1005 : Nat)
    ∧ stDebugPort6.dbg.gpr = []
    ∧ abstractIllegal (0x180 : Nat) (none : Option Word).isSome = true
    ∧ inMem (0x20000000 : Nat) = true
    ∧ (0x20000000 : Nat) < 0x40000000
    ∧ 0x10000000 ≤ (0x10000000 : Nat)
    ∧ (0x10000000 : Nat) + 4 ≤ 0x10040000
    ∧ mapped (0x60000000 : Nat) = false
    ∧ wR.halted = false
    ∧ (0xFFFF : Nat) ≤ 0xFFFF
    ∧ 0xFFFF < (0x20000000 : Nat) := by
  and_intros <;> decide +kernel

def stSecurityEngine0 : State := sec wR
def stSecurityEngine1 : State := wR.setBit Reg.SEC_CTRL 0 false
def stSecurityEngine2 : State := secOp 2 4 wR
def stSecurityEngine3 : State := secOp 4 4 wR
def stSecurityEngine8 : State := (sec wR).setBit Reg.SEC_STAT 2 false

/-- States and operands that meet the hypotheses of SecurityEngine, clause by clause. -/
theorem wit_SecurityEngine :
    stSecurityEngine0.awake = true
    ∧ stSecurityEngine0.bit Reg.SEC_CTRL 0 = true
    ∧ stSecurityEngine0.bit Reg.SEC_STAT 3 = false
    ∧ ((Instr.secSha256), (0 : Nat)) ∈ [(Instr.secSha256, 0), (.secAesEcb, 1), (.secAesCcm, 2), (.secAesCmac, 3), (.secEcdsaVerify, 4)]
    ∧ (stSecurityEngine1.awake = false ∨ stSecurityEngine1.bit Reg.SEC_CTRL 0 = false ∨ stSecurityEngine1.bit Reg.SEC_STAT 3 = true)
    ∧ ((.secSha256 : Instr)) ∈ [Instr.secSha256, .secAesEcb, .secAesCcm, .secAesCmac, .secEcdsaVerify]
    ∧ stSecurityEngine2.sec.op = some ((2 : Nat), (1 : Nat), (0x20000000 : Nat), (0x20000100 : Nat), (4 : Nat), (0 : Nat))
    ∧ stSecurityEngine2.secResult (2 : Nat) (1 : Nat) (0x20000000 : Nat) (4 : Nat) ≠ []
    ∧ secStores (0x20000100 : Nat) (stSecurityEngine2.secResult (2 : Nat) (1 : Nat) (0x20000000 : Nat) (4 : Nat)).length = true
    ∧ stSecurityEngine3.sec.op = some ((4 : Nat), (1 : Nat), (0x20000000 : Nat), (0x20000100 : Nat), (4 : Nat), (0 : Nat))
    ∧ (4 : Nat) = 4
    ∧ wR.sec.op = none
    ∧ (3 : Nat) < 130
    ∧ stSecurityEngine0.bit Reg.SEC_STAT 2 = true
    ∧ stSecurityEngine8.awake = true
    ∧ stSecurityEngine8.bit Reg.SEC_CTRL 0 = true
    ∧ stSecurityEngine8.bit Reg.SEC_STAT 2 = false
    ∧ (wR.awake = false ∨ wR.bit Reg.SEC_CTRL 0 = false ∨ 130 ≤ (130 : Nat)) := by
  and_intros <;> decide +kernel

def stClosingOrdersNeedTheHelm0 : State := helm 0x10 4 (conf0 (lcs lcsCommissioning wR))
def stClosingOrdersNeedTheHelm1 : State := conf0 wR

/-- States and operands that meet the hypotheses of ClosingOrdersNeedTheHelm, clause by clause. -/
theorem wit_ClosingOrdersNeedTheHelm :
    (⟨cl0, 0, 0x10, 6, cl0.kind⟩ : Outcome) ∈ (stClosingOrdersNeedTheHelm0.resolveSet ([cl0] : List Order)).outcomes
    ∧ (⟨cl0, 0, 0x10, 6, cl0.kind⟩ : Outcome).code = 0
    ∧ stClosingOrdersNeedTheHelm0.closingOrder (⟨cl0, 0, 0x10, 6, cl0.kind⟩ : Outcome).order = true
    ∧ (⟨op0, 0, 0x10, 5, op0.kind⟩ : Outcome) ∈ (stClosingOrdersNeedTheHelm1.resolveSet ([op0] : List Order)).outcomes
    ∧ stClosingOrdersNeedTheHelm1.closingOrder (⟨op0, 0, 0x10, 5, op0.kind⟩ : Outcome).order = false
    ∧ 1 ≤ (op0 : Order).rank
    ∧ (op0 : Order).rank ≤ 12
    ∧ (op0 : Order).helmKind = false
    ∧ stClosingOrdersNeedTheHelm1.admits (op0 : Order).kind (op0 : Order).target (op0 : Order).value = true
    ∧ stClosingOrdersNeedTheHelm1.closingOrder (op0 : Order) = false := by
  and_intros <;> decide +kernel

def stHelmIsTakenAndReleased0 : State := helm 0xFF 0 wR
def stHelmIsTakenAndReleased3 : State := helm 0x11 2 wR
def stHelmIsTakenAndReleased4 : State := helm 0x10 4 wR
def stHelmIsTakenAndReleased5 : State := helm 0x11 4 wR
def stHelmP1 : State := helm 0x21 9 wR
def stHelmCon : State := par .conNotify 0 (.sym 1) (helm 0x10 9 wR)

/-- States and operands that meet the hypotheses of HelmIsTakenAndReleased, clause by clause. -/
theorem wit_HelmIsTakenAndReleased :
    (take0 : Order).kind = kTake
    ∧ (take0 : Order).source ≠ stHelmIsTakenAndReleased0.cam.helm.holder
    ∧ (stHelmIsTakenAndReleased0.cam.helm.holder = 0xFF ∨ (take0 : Order).rank < stHelmIsTakenAndReleased0.cam.helm.rank)
    ∧ (take0 : Order).source ≠ stHelmP1.cam.helm.holder
    ∧ (stHelmP1.cam.helm.holder = 0xFF ∨ (take0 : Order).rank < stHelmP1.cam.helm.rank)
    ∧ partOfSource stHelmP1.cam.helm.holder = some (1 : Nat)
    ∧ (take0 : Order).source < 256
    ∧ ({ take0 with source := 0x11 } : Order).kind = kTake
    ∧ ({ take0 with source := 0x11 } : Order).source ≠ stHelmCon.cam.helm.holder
    ∧ (stHelmCon.cam.helm.holder = 0xFF ∨ ({ take0 with source := 0x11 } : Order).rank < stHelmCon.cam.helm.rank)
    ∧ portOfSource stHelmCon.cam.helm.holder = some (0 : Nat)
    ∧ stHelmCon.conServed (0 : Nat) = true
    ∧ stHelmCon.parS .conNotify (0 : Nat) ≠ 0
    ∧ (stHelmCon.con (0 : Nat)).line = []
    ∧ (stHelmCon.con (0 : Nat)).outBytes ≤ 3072
    ∧ (take0 : Order).source ≠ (helm 0x18 9 wR).cam.helm.holder
    ∧ ((helm 0x18 9 wR).cam.helm.holder = 0xFF ∨ (take0 : Order).rank < (helm 0x18 9 wR).cam.helm.rank)
    ∧ (helm 0x18 9 wR).cam.helm.holder = 0x18
    ∧ (take0 : Order).source ≠ stHelmIsTakenAndReleased3.cam.helm.holder
    ∧ stHelmIsTakenAndReleased3.cam.helm.holder ≠ 0xFF
    ∧ stHelmIsTakenAndReleased3.cam.helm.rank ≤ (take0 : Order).rank
    ∧ ({ op0 with kind := kRelease } : Order).kind = kRelease
    ∧ ({ op0 with kind := kRelease } : Order).source = stHelmIsTakenAndReleased4.cam.helm.holder
    ∧ ({ op0 with kind := kRelease } : Order).source ≠ stHelmIsTakenAndReleased5.cam.helm.holder := by
  and_intros <;> decide +kernel

def stOrdersAreResolvedInFiveSteps1 : State := helm 0x10 4 (conf0 (lcs lcsCommissioning wE))
def stOrdersAreResolvedInFiveSteps2 : State := conf0 wR

/-- States and operands that meet the hypotheses of OrdersAreResolvedInFiveSteps, clause by clause. -/
theorem wit_OrdersAreResolvedInFiveSteps :
    ((wR.resolveSet [op0]).outcomes.headD ⟨op0, 9, 0, 0, 0⟩ : Outcome) ∈ (wR.resolveSet ([op0] : List Order)).outcomes
    ∧ wR.admits ((wR.resolveSet [op0]).outcomes.headD ⟨op0, 9, 0, 0, 0⟩ : Outcome).order.kind ((wR.resolveSet [op0]).outcomes.headD ⟨op0, 9, 0, 0, 0⟩ : Outcome).order.target ((wR.resolveSet [op0]).outcomes.headD ⟨op0, 9, 0, 0, 0⟩ : Outcome).order.value = false
    ∧ (((helm 0x10 4 (conf0 (lcs lcsCommissioning wE))).resolveSet [cl0]).outcomes.headD ⟨cl0, 9, 0, 0, 0⟩ : Outcome) ∈ (stOrdersAreResolvedInFiveSteps1.resolveSet ([cl0] : List Order)).outcomes
    ∧ stOrdersAreResolvedInFiveSteps1.admits (((helm 0x10 4 (conf0 (lcs lcsCommissioning wE))).resolveSet [cl0]).outcomes.headD ⟨cl0, 9, 0, 0, 0⟩ : Outcome).order.kind (((helm 0x10 4 (conf0 (lcs lcsCommissioning wE))).resolveSet [cl0]).outcomes.headD ⟨cl0, 9, 0, 0, 0⟩ : Outcome).order.target (((helm 0x10 4 (conf0 (lcs lcsCommissioning wE))).resolveSet [cl0]).outcomes.headD ⟨cl0, 9, 0, 0, 0⟩ : Outcome).order.value = true
    ∧ stOrdersAreResolvedInFiveSteps1.closingOrder (((helm 0x10 4 (conf0 (lcs lcsCommissioning wE))).resolveSet [cl0]).outcomes.headD ⟨cl0, 9, 0, 0, 0⟩ : Outcome).order = true
    ∧ stOrdersAreResolvedInFiveSteps1.stateRefuses (((helm 0x10 4 (conf0 (lcs lcsCommissioning wE))).resolveSet [cl0]).outcomes.headD ⟨cl0, 9, 0, 0, 0⟩ : Outcome).order = true
    ∧ (cl0 : Order).source = (op0 : Order).source
    ∧ (cl0 : Order).helmKind = false
    ∧ (∀ t ∈ stOrdersAreResolvedInFiveSteps2.covers (cl0 : Order), t ∈ stOrdersAreResolvedInFiveSteps2.covers (op0 : Order))
    ∧ stOrdersAreResolvedInFiveSteps2.admits (cl0 : Order).kind (cl0 : Order).target (cl0 : Order).value = true
    ∧ stOrdersAreResolvedInFiveSteps2.admits (op0 : Order).kind (op0 : Order).target (op0 : Order).value = true
    ∧ stOrdersAreResolvedInFiveSteps2.targetWinner ([(0, op0)] : List Placed) (0 : Nat) ([(0, op0)] : List Placed) = some ((0, op0) : Placed)
    ∧ ((0, op0) : Placed) ∈ ([(0, op0)] : List Placed)
    ∧ (stOrdersAreResolvedInFiveSteps2.counting ([(0, op0)] : List Placed) ((0, op0) : Placed)).contains (0 : Nat) = true
    ∧ stOrdersAreResolvedInFiveSteps2.closingOrder ((0, op0) : Placed).2 = false
    ∧ stOrdersAreResolvedInFiveSteps2.targetWinner ([(0, cl0), (1, { op0 with rank := 9, source := 0x11 })] : List Placed) (0 : Nat) ([(0, cl0), (1, { op0 with rank := 9, source := 0x11 })] : List Placed) = some ((1, { op0 with rank := 9, source := 0x11 }) : Placed)
    ∧ ((0, cl0) : Placed) ∈ ([(0, cl0), (1, { op0 with rank := 9, source := 0x11 })] : List Placed)
    ∧ (stOrdersAreResolvedInFiveSteps2.counting ([(0, cl0), (1, { op0 with rank := 9, source := 0x11 })] : List Placed) ((0, cl0) : Placed)).contains (0 : Nat) = true
    ∧ Order.beats ((0, cl0) : Placed).2 ((1, { op0 with rank := 9, source := 0x11 }) : Placed).2 = true
    ∧ stOrdersAreResolvedInFiveSteps2.targetWinner ([] : List Placed) (1 : Nat) ([(0, op0)] : List Placed) = none := by
  and_intros <;> decide +kernel

def stBreakDiscardsThePartlyReceivedLine0 : State := con [1] wR
def stBreakDiscardsThePartlyReceivedLine1 : State := ph .hibernating w0

/-- States and operands that meet the hypotheses of BreakDiscardsThePartlyReceivedLine, clause by clause. -/
theorem wit_BreakDiscardsThePartlyReceivedLine :
    (0 : Nat) ≤ 1
    ∧ stBreakDiscardsThePartlyReceivedLine0.powered = true
    ∧ stBreakDiscardsThePartlyReceivedLine1.power.phase = .hibernating := by
  and_intros <;> decide +kernel

def stHeadroomPausesTheCharger0 : State := chgAt cCc (li wR)
def stHeadroomPausesTheCharger2 : State := { chgAt cPause (li wR) with kpa := { (li wR).kpa with pause := 4, phase := cCc } }

/-- States and operands that meet the hypotheses of HeadroomPausesTheCharger, clause by clause. -/
theorem wit_HeadroomPausesTheCharger :
    stHeadroomPausesTheCharger0.charging = true
    ∧ (5000 : Nat) < (3600 : Nat) + 1500
    ∧ stHeadroomPausesTheCharger0.kpa.pause = 0
    ∧ (3600 : Nat) + 1500 ≤ (9000 : Nat)
    ∧ stHeadroomPausesTheCharger2.chg = cPause
    ∧ getField stHeadroomPausesTheCharger2.kpa.pause 2 1 = 1
    ∧ (5000 : Nat) < (3600 : Nat) + 2000
    ∧ stHeadroomPausesTheCharger2.kpa.pause = 4
    ∧ stHeadroomPausesTheCharger2.kpa.phase < 10
    ∧ (3600 : Nat) + 2000 ≤ (9000 : Nat) := by
  and_intros <;> decide +kernel

def stReleaseFreesRecords3 : State := line (.tenant 2) wR
def grantedMisc (b : Nat) : State := wP.setPart 1 { wP.part 1 with grants := [(GrantReg.idx .misc, 2 ^ b)] }

/-- States and operands that meet the hypotheses of ReleaseFreesRecords, clause by clause. -/
theorem wit_ReleaseFreesRecords :
    (grantedMisc 4).awake = true
    ∧ (.scull0 : Requester) ≠ .cox
    ∧ (grantedMisc 4).logTenant (.scull0 : Requester) = some (1 : Nat)
    ∧ (1 : Nat) ≤ 7
    ∧ roomForRelease (grantedMisc 4) (1 + (1 : Nat))
    ∧ wR.awake = true
    ∧ (8 : Nat) ≤ 8
    ∧ roomForRelease wR (8 : Nat)
    ∧ lineWaits wL (0 : Nat) (some "a" : Option String)
    ∧ ((wL.con (0 : Nat)).level = .installer ∨ (wL.con (0 : Nat)).level = .service)
    ∧ roomForRelease wL (8 : Nat)
    ∧ lineWaits stReleaseFreesRecords3 (0 : Nat) (some "a" : Option String)
    ∧ 1 ≤ (2 : Nat)
    ∧ (2 : Nat) ≤ 7
    ∧ (stReleaseFreesRecords3.con (0 : Nat)).level = .tenant (2 : Nat)
    ∧ roomForRelease stReleaseFreesRecords3 (1 + (2 : Nat)) := by
  and_intros <;> first | decide +kernel | exact ⟨_, rfl⟩

/-- States and operands that meet the hypotheses of EveryCommandCompletesAndLeavesTheQueue, in its part commandsLeaveTheQueue, clause by clause. -/
theorem wit_EveryCommandCompletesAndLeavesTheQueue_commandsLeaveTheQueue :
    exec (.heatRestart : Instr) wR = .next (doHeatRestart wR : State) := by
  first | decide +kernel | rfl

/-- States and operands that meet the hypotheses of StoredContentChangesOnlyByListedCommands, in its part memoryChangesOnlyByStoringCommands, clause by clause. -/
theorem wit_StoredContentChangesOnlyByListedCommands_memoryChangesOnlyByStoringCommands :
    mayStore (.heatRestart : Instr) = false
    ∧ exec (.heatRestart : Instr) wR = .next (doHeatRestart wR : State) := by
  and_intros <;> first | decide +kernel | rfl

/-- States and operands that meet the hypotheses of StoredContentChangesOnlyByListedCommands, in its part nonVolatileStoreChangesOnlyByListedCommands, clause by clause. -/
theorem wit_StoredContentChangesOnlyByListedCommands_nonVolatileStoreChangesOnlyByListedCommands :
    mayKeep (.heatRestart : Instr) = false
    ∧ exec (.heatRestart : Instr) wR = .next (doHeatRestart wR : State) := by
  and_intros <;> first | decide +kernel | rfl

def stBusErrorIsRecorded1 : State := wR.setBit Reg.SYS_BESTAT 8 true

/-- States and operands that meet the hypotheses of BusErrorsTimeReadsAndInterruptLines, in its part busErrorIsRecorded, clause by clause. -/
theorem wit_BusErrorsTimeReadsAndInterruptLines_busErrorIsRecorded :
    ((.linkEngine : Requester) = .linkEngine ∨ (.linkEngine : Requester) = .prefetch ∨ (.linkEngine : Requester) = .debugPort)
    ∧ wR.awake = true
    ∧ (mapped (0x60000000 : Nat) = false ∨ ((false : Bool) = true ∧ readOnly (0x60000000 : Nat) = true))
    ∧ wR.bit Reg.SYS_BESTAT 8 = false
    ∧ stBusErrorIsRecorded1.bit Reg.SYS_BESTAT 8 = true
    ∧ wR.rowing = true
    ∧ wR.cam.state ≠ .easy
    ∧ wR.acts = .idle
    ∧ mapped (0x60000000 : Nat) = false := by
  and_intros <;> decide +kernel

def stStrokeTimeReadLatchesTheHighWord0 : State := wR.setBit Reg.STK_CTRL 8 true

/-- States and operands that meet the hypotheses of BusErrorsTimeReadsAndInterruptLines, in its part strokeTimeReadLatchesTheHighWord, clause by clause. -/
theorem wit_BusErrorsTimeReadsAndInterruptLines_strokeTimeReadLatchesTheHighWord :
    stStrokeTimeReadLatchesTheHighWord0.awake = true
    ∧ stStrokeTimeReadLatchesTheHighWord0.mayRead (.cox : Requester) Reg.STK_TIMEL = true
    ∧ stStrokeTimeReadLatchesTheHighWord0.running = true
    ∧ (77 : Nat) < 2 ^ 15 := by
  and_intros <;> decide +kernel

def stMismatchUnderLock0 : State := wB.setBit Reg.COX_CTRL 0 true
def stMismatchUnderLock1 : State := { w0 with power := { w0.power with faultReset := some 3 } }

/-- States and operands that meet the hypotheses of MismatchAndMemoryErrors, in its part mismatchUnderLock, clause by clause. -/
theorem wit_MismatchAndMemoryErrors_mismatchUnderLock :
    stMismatchUnderLock0.powered = true
    ∧ (1 : Nat) % 2 ^ 24 ≠ 0
    ∧ stMismatchUnderLock0.locked = true
    ∧ stMismatchUnderLock1.power.faultReset = some 3
    ∧ w0.power.faultReset ≠ some 3 := by
  and_intros <;> decide +kernel

def stAcknowledgeAndInhibit0 : State := (wR.setBit Reg.DBG_STAT 1 true).setFld Reg.LCS_STATE 0 3 lcsService

/-- States and operands that meet the hypotheses of MismatchAndMemoryErrors, in its part acknowledgeAndInhibit, clause by clause. -/
theorem wit_MismatchAndMemoryErrors_acknowledgeAndInhibit :
    stAcknowledgeAndInhibit0.awake = true
    ∧ stAcknowledgeAndInhibit0.bit Reg.DBG_STAT 1 = true
    ∧ stAcknowledgeAndInhibit0.lcs = lcsService
    ∧ (wR.bit Reg.DBG_STAT 1 = false ∨ wR.lcs ≠ lcsService) := by
  and_intros <;> decide +kernel

def stMemoryErrorClasses0 : State := wB.setBit Reg.COX_CTRL 0 true
def stMemoryErrorClasses1 : State := { w0 with power := { w0.power with faultReset := some 4 } }
def stMemoryErrorClasses2 : State := { wR with cam := { wR.cam with corrected := 1000 } }
/-- A word of the DTCM, its address and the check bits of zero there. -/
def tcmAt : Nat := 0x10100000
def tcmCheck : Nat := checkBits .dtcm (wordIndex .dtcm tcmAt) 0
def sramCheck : Nat := checkBits .sram (wordIndex .sram 0x20000000) 0

/-- States and operands that meet the hypotheses of MismatchAndMemoryErrors, in its part memoryErrorClasses, clause by clause. -/
theorem wit_MismatchAndMemoryErrors_memoryErrorClasses :
    memOf (tcmAt : Nat) = some (.dtcm : EccMem)
    ∧ eccClass (.dtcm : EccMem) (wordIndex (.dtcm : EccMem) (tcmAt : Nat)) (0 : Nat) (tcmCheck ^^^ 1 : Nat) = .corrected (0 : Nat)
    ∧ Requester.scull? (.scull0 : Requester) ≠ none
    ∧ memOf (0x20000000 : Nat) = some (.sram : EccMem)
    ∧ eccClass (.sram : EccMem) (wordIndex (.sram : EccMem) (0x20000000 : Nat)) (0 : Nat) (sramCheck ^^^ 1 : Nat) = .corrected (0 : Nat)
    ∧ stMemoryErrorClasses0.powered = true
    ∧ stMemoryErrorClasses0.locked = true
    ∧ stMemoryErrorClasses0.ao.coxHeld = false
    ∧ (eccClass (.dtcm : EccMem) (wordIndex (.dtcm : EccMem) (tcmAt : Nat)) (0 : Nat) (tcmCheck ^^^ 3 : Nat)).fatal = true
    ∧ stMemoryErrorClasses1.power.faultReset = some 4
    ∧ stMemoryErrorClasses2.rowing = true
    ∧ stMemoryErrorClasses2.cam.state ≠ .easy
    ∧ stMemoryErrorClasses2.acts = .idle
    ∧ stMemoryErrorClasses2.parI .coxEccCorrMax < stMemoryErrorClasses2.cam.corrected := by
  and_intros <;> decide +kernel

def stStartTestInjection3 : State := wB.setBit Reg.COX_CTRL 0 true
def stStartTestInjection2 : State := { wB.setFld Reg.COX_STEST 0 24 8 with power := { wB.power with injNow := some 3 } }
def stStartTestInjectionBad : State := { wB.setFld Reg.COX_STEST 0 24 9 with power := { wB.power with injNow := some 3 } }

/-- States and operands that meet the hypotheses of StartTestAndLock, in its part startTestInjection, clause by clause. -/
theorem wit_StartTestAndLock_startTestInjection :
    wB.powered = true
    ∧ (4 : Nat) % 2 ^ 24 ≠ 0
    ∧ wB.locked = false
    ∧ wB.awake = true
    ∧ (5 : Nat) ≤ 23
    ∧ (8 : Nat) % 2 ^ 24 ≠ 0
    ∧ stStartTestInjection2.awake = true
    ∧ stStartTestInjection2.locked = false
    ∧ stStartTestInjection2.power.injNow = some (3 : Nat)
    ∧ stStartTestInjection2.fld Reg.COX_STEST 0 24 = 2 ^ (3 : Nat)
    ∧ stStartTestInjection2.bit Reg.COX_STATUS 0 = false
    ∧ stStartTestInjectionBad.awake = true
    ∧ stStartTestInjectionBad.locked = false
    ∧ stStartTestInjectionBad.power.injNow = some (3 : Nat)
    ∧ (stStartTestInjectionBad.fld Reg.COX_STEST 0 24 ≠ 2 ^ (3 : Nat) ∨ stStartTestInjectionBad.bit Reg.COX_STATUS 0 = true)
    ∧ wB.power.injNow = none
    ∧ stStartTestInjection3.locked = true := by
  and_intros <;> decide +kernel

def stLockAndArm1 : State := wB.setBit Reg.COX_STATUS 3 true
def stLockAndArm2 : State := (wB.setBit Reg.COX_CTRL 0 true).setBit Reg.COX_STATUS 1 true
def allInjected (s : State) : State := { s with power := { s.power with injDone := 0xFFFFFF } }

/-- States and operands that meet the hypotheses of StartTestAndLock, in its part lockAndArm, clause by clause. -/
theorem wit_StartTestAndLock_lockAndArm :
    (allInjected wB).locked = false
    ∧ (allInjected wB).power.phase = .bootRom
    ∧ (∀ g, g < 24 → getField (allInjected wB).power.injDone g 1 = 1)
    ∧ (allInjected wB).bit Reg.COX_STATUS 2 = false
    ∧ (allInjected wB).bit Reg.COX_STATUS 3 = false
    ∧ stLockAndArm1.locked = false
    ∧ stLockAndArm1.power.phase = .bootRom
    ∧ (0 : Nat) < 24
    ∧ getField stLockAndArm1.power.injDone (0 : Nat) 1 = 0
    ∧ (∀ h, h < (0 : Nat) → getField stLockAndArm1.power.injDone h 1 = 1)
    ∧ (allInjected stLockAndArm1).locked = false
    ∧ (allInjected stLockAndArm1).power.phase = .bootRom
    ∧ (∀ g, g < 24 → getField (allInjected stLockAndArm1).power.injDone g 1 = 1)
    ∧ ((allInjected stLockAndArm1).bit Reg.COX_STATUS 2 = true ∨ (allInjected stLockAndArm1).bit Reg.COX_STATUS 3 = true)
    ∧ (0 : Nat) < 32
    ∧ (31 : Nat) < 32
    ∧ stLockAndArm2.awake = true
    ∧ stLockAndArm2.locked = true
    ∧ stLockAndArm2.bit Reg.COX_STATUS 1 = true
    ∧ (wB.locked = false ∨ wB.bit Reg.COX_STATUS 1 = false) := by
  and_intros <;> decide +kernel

def stResetCauses2 : State := wR.setFld Reg.RST_STALL 0 6 63
def stResetCauses3 : State := { wB with power := { wB.power with bootTimer := true } }
def stResetCauses4 : State := wR.setBit Reg.CLK_STAT 3 true

/-- States and operands that meet the hypotheses of ResetCausesAndClocks, in its part resetCauses, clause by clause. -/
theorem wit_ResetCausesAndClocks_resetCauses :
    wR.power.phase ≠ .porHeld
    ∧ wR.power.phase ≠ .shipMode
    ∧ 10 ≤ (12 : Nat)
    ∧ (1 : Nat) < 2
    ∧ stResetCauses2.fld Reg.RST_STALL 16 6 ≤ stResetCauses2.fld Reg.RST_STALL 0 6
    ∧ stResetCauses3.power.bootTimer = true
    ∧ wR.awake = true
    ∧ stResetCauses4.bit Reg.CLK_STAT 3 = true
    ∧ (getField (0x11110001 : Word).toNat 16 16 ≠ 0xA5C3 ∨ getField (0x11110001 : Word).toNat 0 1 = 0)
    ∧ wR.powered = true
    ∧ (.lcs : ResetCause) ≠ .por := by
  and_intros <;> decide +kernel

def stSlowClockLossAndCurrentWake1 : State := ph .hibernating w0

/-- States and operands that meet the hypotheses of ResetCausesAndClocks, in its part slowClockLossAndCurrentWake, clause by clause. -/
theorem wit_ResetCausesAndClocks_slowClockLossAndCurrentWake :
    wR.ao.x32lost = false
    ∧ ((ph .hibernating w0).setBit Reg.CCA_IRQ 0 true).power.phase = .hibernating
    ∧ ((ph .hibernating w0).setBit Reg.CCA_IRQ 0 true).bit Reg.CCA_IRQ 0 = true
    ∧ stSlowClockLossAndCurrentWake1.bit Reg.CCA_IRQ 0 = false := by
  and_intros <;> decide +kernel

/-- States and operands that meet the hypotheses of ResetCausesAndClocks, in its part requestersWaitForTheWipe, clause by clause. -/
theorem wit_ResetCausesAndClocks_requestersWaitForTheWipe :
    (ph .wiping w0).power.phase = .wiping
    ∧ requesterRow (.heatRestart : Instr) = true
    ∧ (ph .wiping w0).awake = false := by
  and_intros <;> decide +kernel

def stStrokePointsRaiseTheirBits0 : State := row wR

/-- States and operands that meet the hypotheses of StrokePointsTrimAndDemand, in its part strokePointsRaiseTheirBits, clause by clause. -/
theorem wit_StrokePointsTrimAndDemand_strokePointsRaiseTheirBits :
    stStrokePointsRaiseTheirBits0.rows = true := by
  decide +kernel

/-- States and operands that meet the hypotheses of StrokePointsTrimAndDemand, in its part trimSaturatesAndHeatRestarts, clause by clause. -/
theorem wit_StrokePointsTrimAndDemand_trimSaturatesAndHeatRestarts :
    wR.awake = true := by
  decide +kernel

def stDemandBankHandshake0 : State := wR.setBit Reg.AGR_DSTAT 0 true
def stDemandBankHandshake2 : State := { wR.setBit Reg.AGR_DSTAT 0 true with stk := { wR.stk with demand := 1 } }

/-- States and operands that meet the hypotheses of StrokePointsTrimAndDemand, in its part demandBankHandshake, clause by clause. -/
theorem wit_StrokePointsTrimAndDemand_demandBankHandshake :
    stDemandBankHandshake0.awake = true
    ∧ stDemandBankHandshake0.bit Reg.AGR_DSTAT 0 = true
    ∧ wR.awake = true
    ∧ wR.bit Reg.AGR_DSTAT 0 = false
    ∧ stDemandBankHandshake2.bit Reg.AGR_DSTAT 0 = true
    ∧ (32767 : Nat) < 2 ^ 15
    ∧ stDemandBankHandshake2.stk.demand = 0x01 := by
  and_intros <;> decide +kernel

def stFinishDecidesTheStroke0 : State := row wR
def stFinishDecidesTheStroke2 : State := { row wR with stk := { (row wR).stk with finWritten := true } }

/-- States and operands that meet the hypotheses of FinishCrabAndEasy, in its part finishDecidesTheStroke, clause by clause. -/
theorem wit_FinishCrabAndEasy_finishDecidesTheStroke :
    stFinishDecidesTheStroke0.rows = true
    ∧ ((row wR).point 90 : Nat) < 2 ^ 15
    ∧ stFinishDecidesTheStroke0.stk.finWritten = false
    ∧ stFinishDecidesTheStroke0.stk.crabbed = false
    ∧ ((row wR).point 90 : Nat) ≤ stFinishDecidesTheStroke0.point 90
    ∧ ((row wR).point 90 + 1 : Nat) < 2 ^ 15
    ∧ stFinishDecidesTheStroke0.point 90 < ((row wR).point 90 + 1 : Nat)
    ∧ stFinishDecidesTheStroke2.rows = true
    ∧ stFinishDecidesTheStroke2.stk.finWritten = true := by
  and_intros <;> decide +kernel

def stCrabIsCountedOnce0 : State := row wR
def stCrabIsCountedOnce1 : State := (row wR).setBit Reg.STK_STAT 0 true

/-- States and operands that meet the hypotheses of FinishCrabAndEasy, in its part crabIsCountedOnce, clause by clause. -/
theorem wit_FinishCrabAndEasy_crabIsCountedOnce :
    stCrabIsCountedOnce0.rows = true
    ∧ stCrabIsCountedOnce0.bit Reg.STK_STAT 0 = false
    ∧ stCrabIsCountedOnce0.stk.crabbed = false
    ∧ (stCrabIsCountedOnce1.bit Reg.STK_STAT 0 = true ∨ stCrabIsCountedOnce1.stk.crabbed = true) := by
  and_intros <;> decide +kernel

def stEasyClearsItselfAfterCrabs0 : State := { par .easyAutoclear 0 (.num 60000) (par .easyAutoclearMax 0 (.num 3000) wE) with cam := { wE.cam with easyCauses := [1], quietSince := some 0 }, ao := { wE.ao with us := 60000000 } }
def stEasyClearsItselfAfterCrabs1 : State := { wE with cam := { wE.cam with easyCauses := [2] } }

/-- States and operands that meet the hypotheses of FinishCrabAndEasy, in its part easyClearsItselfAfterCrabs, clause by clause. -/
theorem wit_FinishCrabAndEasy_easyClearsItselfAfterCrabs :
    stEasyClearsItselfAfterCrabs0.cam.state = .easy
    ∧ (∀ c ∈ stEasyClearsItselfAfterCrabs0.cam.easyCauses, c = 1)
    ∧ stEasyClearsItselfAfterCrabs0.cam.quietSince = some (0 : Nat)
    ∧ stEasyClearsItselfAfterCrabs0.parI .easyAutoclear ≠ 0
    ∧ (0 : Nat) + stEasyClearsItselfAfterCrabs0.parI .easyAutoclear * 1000000 ≤ stEasyClearsItselfAfterCrabs0.clock
    ∧ (within stEasyClearsItselfAfterCrabs0.clock hours24 stEasyClearsItselfAfterCrabs0.cam.autoclears).length < stEasyClearsItselfAfterCrabs0.parI .easyAutoclearMax
    ∧ (stEasyClearsItselfAfterCrabs1.inEasy = false ∨ (∃ c ∈ stEasyClearsItselfAfterCrabs1.cam.easyCauses, c ≠ 1) ∨ stEasyClearsItselfAfterCrabs1.parI .easyAutoclear = 0) := by
  and_intros <;> decide +kernel

def stMonitorCallsYieldWaitInfo1 : State := wP.setEvp 1 4

/-- States and operands that meet the hypotheses of MonitorCallsAndEvents, in its part monitorCallsYieldWaitInfo, clause by clause. -/
theorem wit_MonitorCallsAndEvents_monitorCallsYieldWaitInfo :
    wP.caller (0 : Nat) = some (1 : Nat)
    ∧ (0 : Nat) < 4
    ∧ stMonitorCallsYieldWaitInfo1.caller (0 : Nat) = some (1 : Nat)
    ∧ (stMonitorCallsYieldWaitInfo1.evp (1 : Nat) &&& (4 : Nat)) ≠ 0
    ∧ (wP.evp (1 : Nat) &&& (4 : Nat)) = 0
    ∧ 6 ≤ (6 : Nat) := by
  and_intros <;> decide +kernel

def stMonitorCallsSetvecEvretLog0 : State := (wP.setFld (Reg.PART_QBASE 0) 12 10 1).setFld (Reg.PART_QSIZE 0) 12 10 1
def stMonitorCallsSetvecEvretLog3 : State := wP.setCtx 0 1 { wP.ctx 0 1 with inHandler := true, saved := 9 }

/-- States and operands that meet the hypotheses of MonitorCallsAndEvents, in its part monitorCallsSetvecEvretLog, clause by clause. -/
theorem wit_MonitorCallsAndEvents_monitorCallsSetvecEvretLog :
    stMonitorCallsSetvecEvretLog0.caller (0 : Nat) = some (1 : Nat)
    ∧ (0x20001FFC : Nat) ≠ 0
    ∧ (0x20001FFC : Nat) % 4 = 0
    ∧ stMonitorCallsSetvecEvretLog0.ownCode (1 : Nat) (0x20001FFC : Nat) = true
    ∧ wP.caller (0 : Nat) = some (1 : Nat)
    ∧ (2 : Nat) ≠ 0
    ∧ ((2 : Nat) % 4 ≠ 0 ∨ wP.ownCode (1 : Nat) (2 : Nat) = false)
    ∧ stMonitorCallsSetvecEvretLog3.caller (0 : Nat) = some (1 : Nat)
    ∧ (stMonitorCallsSetvecEvretLog3.ctx (0 : Nat) (1 : Nat)).inHandler = true
    ∧ ((0x7FFF : Nat) < 0x8000 ∨ 0xFFFE < (0x7FFF : Nat))
    ∧ 0x8000 ≤ (0x8000 : Nat)
    ∧ (0x8000 : Nat) ≤ 0xFFFE
    ∧ wP.granted (1 : Nat) .misc 4 = false
    ∧ (grantedMisc 4).caller (0 : Nat) = some (1 : Nat)
    ∧ (grantedMisc 4).granted (1 : Nat) .misc 4 = true := by
  and_intros <;> decide +kernel

def stTenantEvents1 : State := (wP.setCtx 0 1 { wP.ctx 0 1 with wait := some 4 }).setEvp 1 6
def stTenantEvents2 : State := (wP.setPart 1 { wP.part 1 with handler := 0x20001000, hmask := 4 }).setEvp 1 4

/-- States and operands that meet the hypotheses of MonitorCallsAndEvents, in its part tenantEvents, clause by clause. -/
theorem wit_MonitorCallsAndEvents_tenantEvents :
    wR.awake = true
    ∧ getField (0x00100001 : Word).toNat 0 3 ≠ 0
    ∧ (stTenantEvents1.scull (0 : Nat)).slot = some (0 : Nat)
    ∧ (stTenantEvents1.scull (0 : Nat)).part = (1 : Nat)
    ∧ 1 ≤ (1 : Nat)
    ∧ (1 : Nat) ≤ 7
    ∧ (stTenantEvents1.scull (0 : Nat)).yielded = false
    ∧ (stTenantEvents1.ctx (0 : Nat) (1 : Nat)).wait = some (4 : Nat)
    ∧ (stTenantEvents1.evp (1 : Nat) &&& (4 : Nat)) ≠ 0
    ∧ (stTenantEvents2.scull (0 : Nat)).slot = some (0 : Nat)
    ∧ (stTenantEvents2.scull (0 : Nat)).part = (1 : Nat)
    ∧ (stTenantEvents2.scull (0 : Nat)).yielded = false
    ∧ (stTenantEvents2.evp (1 : Nat) &&& (stTenantEvents2.ctx (0 : Nat) (1 : Nat)).wait.getD 0) = 0
    ∧ (stTenantEvents2.part (1 : Nat)).handler ≠ 0
    ∧ (stTenantEvents2.part (1 : Nat)).masked = false
    ∧ (stTenantEvents2.evp (1 : Nat) &&& (stTenantEvents2.part (1 : Nat)).hmask) ≠ 0 := by
  and_intros <;> decide +kernel

def stSlotsAndSculls0 : State := ((wP.setFld (Reg.PART_SLOTB 15) 0 32 0x80000001).setBit Reg.PART_CTRL 0 true).setScull 0 { slot := none, part := 0, yielded := false, start := 0, len := 0, pmp := [], icache := [], dcache := [], mcounteren := 0 }
def stSlotsAndSculls1 : State := wP.setScull 0 { slot := some 0, part := 1, yielded := true, start := 0, len := 1000, pmp := [], icache := [], dcache := [], mcounteren := 0 }

/-- States and operands that meet the hypotheses of SlotsGrantsAndFaults, in its part slotsAndSculls, clause by clause. -/
theorem wit_SlotsGrantsAndFaults_slotsAndSculls :
    (0 : Nat) < 4
    ∧ (15 : Nat) < 16
    ∧ stSlotsAndSculls0.bit (Reg.PART_SLOTB (slotIdx stSlotsAndSculls0.bank (0 : Nat) (15 : Nat))) 31 = true
    ∧ stSlotsAndSculls0.bit Reg.PART_CTRL (0 : Nat) = true
    ∧ stSlotsAndSculls0.bit Reg.PART_SCULLST (8 * (0 : Nat) + 4) = false
    ∧ stSlotsAndSculls0.fld (Reg.PART_SLOTB (slotIdx stSlotsAndSculls0.bank (0 : Nat) (15 : Nat))) 0 3 ≠ 0
    ∧ stSlotsAndSculls0.partState (stSlotsAndSculls0.fld (Reg.PART_SLOTB (slotIdx stSlotsAndSculls0.bank (0 : Nat) (15 : Nat))) 0 3) = pRunning
    ∧ (stSlotsAndSculls1.scull (0 : Nat)).slot = some (0 : Nat)
    ∧ 1 ≤ (stSlotsAndSculls1.scull (0 : Nat)).part
    ∧ (stSlotsAndSculls1.scull (0 : Nat)).part ≤ 7
    ∧ ((stSlotsAndSculls1.scull (0 : Nat)).yielded = true ∨ (stSlotsAndSculls1.ctx (0 : Nat) (stSlotsAndSculls1.scull (0 : Nat)).part).wait ≠ none)
    ∧ (wP.scull (0 : Nat)).slot = some (0 : Nat)
    ∧ 1 ≤ (wP.scull (0 : Nat)).part
    ∧ (wP.scull (0 : Nat)).part ≤ 7
    ∧ (wP.scull (0 : Nat)).yielded = false
    ∧ (wP.ctx (0 : Nat) (wP.scull (0 : Nat)).part).wait = none
    ∧ stSlotsAndSculls0.awake = true
    ∧ stSlotsAndSculls1.awake = true := by
  and_intros <;> decide +kernel

def stGrantsAndFaults1 : State := wP.wrN (Reg.PART_GR_GPIO 1) 1
def stGrantsAndFaults2 : State := wP.setFld (Reg.PART_STATE 0) 16 2 3
def stGrantsAndFaults6 : State := par .partitionAutoresume 0 (.num 1000) (par .partitionAutoresumeMax 0 (.num 1000) ((wP.setFld (Reg.PART_STATE 0) 0 2 pSuspended).setFld (Reg.PART_STATE 0) 8 8 4))

/-- States and operands that meet the hypotheses of SlotsGrantsAndFaults, in its part grantsAndFaults, clause by clause. -/
theorem wit_SlotsGrantsAndFaults_grantsAndFaults :
    wP.awake = true
    ∧ 1 ≤ (7 : Nat)
    ∧ (7 : Nat) ≤ 7
    ∧ (∀ j, 1 ≤ j → j ≤ 7 → j ≠ (7 : Nat) → wP.rdN (Reg.PART_GR_GPIO (j - 1)) &&& (0x80000001 : Word).toNat = 0)
    ∧ (∀ j, 1 ≤ j → j ≤ 7 → j ≠ (7 : Nat) → wP.rdN (Reg.PART_GR_MISC (j - 1)) &&& ((0x80000001 : Word).toNat &&& 0xF) = 0)
    ∧ stGrantsAndFaults1.awake = true
    ∧ 1 ≤ (1 : Nat)
    ∧ (1 : Nat) ≤ 7
    ∧ 1 ≤ (2 : Nat)
    ∧ (2 : Nat) ≤ 7
    ∧ (2 : Nat) ≠ (1 : Nat)
    ∧ stGrantsAndFaults1.rdN (Reg.PART_GR_GPIO ((2 : Nat) - 1)) &&& (3 : Word).toNat ≠ 0
    ∧ (3 : Word).toNat &&& grantBitsOf (.arx0 : GrantReg) &&& grantCamlan (.arx0 : GrantReg) ≠ 0
    ∧ stGrantsAndFaults2.partState (1 : Nat) = pRunning
    ∧ 3 ≤ stGrantsAndFaults2.crabs (1 : Nat)
    ∧ wP.crabs (1 : Nat) < 3
    ∧ wP.tenantOn (0 : Nat) = some (1 : Nat)
    ∧ (2 : Nat) ≠ 8
    ∧ wP.pmpPermits (0 : Nat) (Access.load : Access) (5 : Nat) = false
    ∧ (3 : Nat) < 4
    ∧ wR.bit Reg.PART_SCULLST (8 * (3 : Nat) + 4) = false
    ∧ wR.slotParts (3 : Nat) = []
    ∧ stGrantsAndFaults6.partState (1 : Nat) = pSuspended
    ∧ 1 ≤ stGrantsAndFaults6.partCause (1 : Nat)
    ∧ stGrantsAndFaults6.partCause (1 : Nat) ≤ 4
    ∧ stGrantsAndFaults6.parI .partitionAutoresume ≠ 0
    ∧ (within stGrantsAndFaults6.clock hours24 (stGrantsAndFaults6.part (1 : Nat)).resumes).length < stGrantsAndFaults6.parI .partitionAutoresumeMax := by
  and_intros <;> decide +kernel

/-- States and operands that meet the hypotheses of DoorbellsAndTenantImages, in its part doorbellStampsItsEntries, clause by clause. -/
theorem wit_DoorbellsAndTenantImages_doorbellStampsItsEntries :
    1 ≤ (1 : Nat)
    ∧ (1 : Nat) ≤ 7
    ∧ wP.partState (1 : Nat) = pRunning
    ∧ (32767 : Nat) < 2 ^ 15
    ∧ 1 ≤ (32 : Word).toNat % 64
    ∧ (32 : Word).toNat % 64 ≤ 32
    ∧ (wP.part (1 : Nat)).bell = none
    ∧ ((33 : Word).toNat % 64 = 0 ∨ 32 < (33 : Word).toNat % 64) := by
  and_intros <;> decide +kernel

def stTenantImageVerification0 : State := wP.setFld (Reg.PART_STATE 0) 0 2 pVerifying

/-- States and operands that meet the hypotheses of DoorbellsAndTenantImages, in its part tenantImageVerification, clause by clause. -/
theorem wit_DoorbellsAndTenantImages_tenantImageVerification :
    stTenantImageVerification0.verifyTurn = some (1 : Nat)
    ∧ wR.verifyTurn ≠ some (1 : Nat)
    ∧ ((imageHeader ([1, 2] : List Byte)).magic ≠ 0x54504E52 ∨ (imageHeader ([1, 2] : List Byte)).fmt ≠ 1) := by
  and_intros <;> decide +kernel

def stRepliesAreQueuedInOrder2 : State := line .view wS

/-- States and operands that meet the hypotheses of ConsoleBytesAndReplies, in its part repliesAreQueuedInOrder, clause by clause. -/
theorem wit_ConsoleBytesAndReplies_repliesAreQueuedInOrder :
    (1 : Nat) ≤ 1
    ∧ (["x", "y"] : List String) ≠ []
    ∧ (0 : Nat) ≤ 1
    ∧ (wL.con (0 : Nat)).ready = (some "a" : Option String) :: ([] : List (Option String))
    ∧ stRepliesAreQueuedInOrder2.camlanOn = true
    ∧ stRepliesAreQueuedInOrder2.conServed (0 : Nat) = true
    ∧ stRepliesAreQueuedInOrder2.starting = true
    ∧ (stRepliesAreQueuedInOrder2.con (0 : Nat)).ready = (some "a" : Option String) :: ([] : List (Option String)) := by
  and_intros <;> decide +kernel

def stConsoleBytes0 : State := con [0x23] (wR.setFld (Reg.CON_CTRL 0) 0 2 3)
def stConsoleBytes2 : State := { wB.setFld (Reg.CON_CTRL 0) 0 2 3 with con0 := { wB.con0 with rx := List.replicate 256 0 } }
def stConsoleBytes3 : State := { wB with con0 := { wB.con0 with tx := [5] } }

/-- States and operands that meet the hypotheses of ConsoleBytesAndReplies, in its part consoleBytes, clause by clause. -/
theorem wit_ConsoleBytesAndReplies_consoleBytes :
    (0 : Nat) ≤ 1
    ∧ stConsoleBytes0.powered = true
    ∧ stConsoleBytes0.fld (Reg.CON_CTRL (0 : Nat)) 0 2 = 3
    ∧ stConsoleBytes0.camlanOn = true
    ∧ stConsoleBytes0.conServed (0 : Nat) = true
    ∧ (stConsoleBytes0.con (0 : Nat)).line = 0x23 :: ([] : List Byte)
    ∧ ([] : List Byte).length < 254
    ∧ (0x41 : Byte) ≠ 0x0D
    ∧ (0x41 : Byte) ≠ 0x0A
    ∧ stConsoleBytes2.powered = true
    ∧ stConsoleBytes2.fld (Reg.CON_CTRL (0 : Nat)) 0 2 = 3
    ∧ stConsoleBytes2.camlanOn = false
    ∧ stConsoleBytes2.faultWords = none
    ∧ 256 ≤ (stConsoleBytes2.con (0 : Nat)).rx.length
    ∧ stConsoleBytes3.powered = true
    ∧ stConsoleBytes3.bit (Reg.CON_CTRL (0 : Nat)) 0 = true
    ∧ stConsoleBytes3.bit (Reg.CON_CTRL (0 : Nat)) 2 = true
    ∧ (stConsoleBytes3.con (0 : Nat)).tx = (5 : Byte) :: ([] : List Byte)
    ∧ stConsoleBytes3.camlanOn = false
    ∧ stConsoleBytes3.faultWords = none
    ∧ ([] : List Byte).length < 256
    ∧ stConsoleBytes3.con1Granted = false := by
  and_intros <;> decide +kernel

def stReadingCommandsReply5 : State := { wL with nv := { wL.nv with staged := [(PKey.mk .strokeHeat 0, .num 12000)] } }

/-- States and operands that meet the hypotheses of ReadingAndOperatingCommands, in its part readingCommandsReply, clause by clause. -/
theorem wit_ReadingAndOperatingCommands_readingCommandsReply :
    lineWaits wL (0 : Nat) (some "a" : Option String)
    ∧ (3 : Nat) ≤ 3
    ∧ ([PKey.mk .strokeHeat 0] : List PKey) ≠ []
    ∧ lineWaits stReadingCommandsReply5 (0 : Nat) (some "a" : Option String)
    ∧ stReadingCommandsReply5.nv.staged ≠ []
    ∧ wL.nv.staged = [] := by
  and_intros <;> first | decide +kernel | exact ⟨_, rfl⟩

def stOperationCommands0 : State := line .view wS
def stOperationCommands3 : State := kf 0 wL
def stOperationCommands5 : State := line .installer wP
def stOperationCommands6 : State := ((line .installer (wR.setFld (Reg.PART_STATE 0) 0 2 pSuspended)).setFld (Reg.PART_STATE 0) 8 8 4).setPart 1 { wR.part 1 with verified := true }
def stOperationCommands7 : State := (line .installer (wR.setFld (Reg.PART_STATE 0) 0 2 pSuspended)).setFld (Reg.PART_STATE 0) 8 8 5
def stOperationCommands8 : State := pairable wL
def stOperationCommands11 : State := chgAt cDone (mayC wL)
def stOperationCommands12 : State := chgAt cCc (mayC wL)

/-- States and operands that meet the hypotheses of ReadingAndOperatingCommands, in its part operationCommands, clause by clause. -/
theorem wit_ReadingAndOperatingCommands_operationCommands :
    stOperationCommands0.camlanOn = true
    ∧ stOperationCommands0.conServed (0 : Nat) = true
    ∧ stOperationCommands0.starting = true
    ∧ (stOperationCommands0.con (0 : Nat)).ready = (some "a" : Option String) :: ([] : List (Option String))
    ∧ lineWaits wL (0 : Nat) (some "a" : Option String)
    ∧ ((wL.con (0 : Nat)).level = .installer ∨ (wL.con (0 : Nat)).level = .service)
    ∧ wL.shipBar = none
    ∧ lineWaits stOperationCommands3 (0 : Nat) (some "a" : Option String)
    ∧ ((stOperationCommands3.con (0 : Nat)).level = .installer ∨ (stOperationCommands3.con (0 : Nat)).level = .service)
    ∧ stOperationCommands3.shipBar = some ("source" : String)
    ∧ wL.est.pending = false
    ∧ lineWaits stOperationCommands5 (0 : Nat) (some "a" : Option String)
    ∧ ((stOperationCommands5.con (0 : Nat)).level = .installer ∨ (stOperationCommands5.con (0 : Nat)).level = .service)
    ∧ 1 ≤ (1 : Nat)
    ∧ (1 : Nat) ≤ 7
    ∧ (stOperationCommands5.partState (1 : Nat) = pRunning ∨ stOperationCommands5.partState (1 : Nat) = pVerifying)
    ∧ lineWaits stOperationCommands6 (0 : Nat) (some "a" : Option String)
    ∧ ((stOperationCommands6.con (0 : Nat)).level = .installer ∨ (stOperationCommands6.con (0 : Nat)).level = .service)
    ∧ stOperationCommands6.partState (1 : Nat) = pSuspended
    ∧ stOperationCommands6.partCause (1 : Nat) ≠ 5
    ∧ stOperationCommands6.partCause (1 : Nat) ≠ 6
    ∧ (stOperationCommands6.part (1 : Nat)).verified = true
    ∧ lineWaits stOperationCommands7 (0 : Nat) (some "a" : Option String)
    ∧ ((stOperationCommands7.con (0 : Nat)).level = .installer ∨ (stOperationCommands7.con (0 : Nat)).level = .service)
    ∧ stOperationCommands7.partState (1 : Nat) = pSuspended
    ∧ (stOperationCommands7.partCause (1 : Nat) = 5 ∨ stOperationCommands7.partCause (1 : Nat) = 6)
    ∧ lineWaits stOperationCommands8 (0 : Nat) (some "a" : Option String)
    ∧ ((stOperationCommands8.con (0 : Nat)).level = .installer ∨ (stOperationCommands8.con (0 : Nat)).level = .service)
    ∧ (1 : Nat) ∈ stOperationCommands8.readSet
    ∧ stOperationCommands8.rad.pairs = []
    ∧ stOperationCommands8.mayPair (1 : Nat) = true
    ∧ stOperationCommands8.readSet ≠ []
    ∧ (∀ n ∈ stOperationCommands8.readSet, stOperationCommands8.mayPair n = true)
    ∧ (4 : Nat) < 256
    ∧ lineWaits stOperationCommands11 (0 : Nat) (some "a" : Option String)
    ∧ (stOperationCommands11.con (0 : Nat)).level ≠ .view
    ∧ stOperationCommands11.mayCharge = true
    ∧ stOperationCommands11.chg = cDone
    ∧ lineWaits stOperationCommands12 (0 : Nat) (some "a" : Option String)
    ∧ (stOperationCommands12.con (0 : Nat)).level ≠ .view
    ∧ stOperationCommands12.charging = true := by
  and_intros <;> first | decide +kernel | exact ⟨_, rfl⟩

def stShoreRecordsAndHibernation0 : State := { wR with power := { wR.power with shoreAt := some 0 }, ao := { wR.ao with us := minutes10 } }
def stShoreRecordsAndHibernation1 : State := { wR with power := { wR.power with shoreHeld := true } }
def stShoreRecordsAndHibernation3 : State := { wR with est := { wR.est with pending := true } }

/-- States and operands that meet the hypotheses of HibernationTicketsAndShoreRecords, in its part shoreRecordsAndHibernation, clause by clause. -/
theorem wit_HibernationTicketsAndShoreRecords_shoreRecordsAndHibernation :
    stShoreRecordsAndHibernation0.rowing = true
    ∧ stShoreRecordsAndHibernation0.power.shoreAt = some (0 : Nat)
    ∧ (0 : Nat) + minutes10 ≤ stShoreRecordsAndHibernation0.clock
    ∧ stShoreRecordsAndHibernation1.rowing = true
    ∧ stShoreRecordsAndHibernation1.power.shoreHeld = true
    ∧ stShoreRecordsAndHibernation1.shoreGapOver = true
    ∧ (within stShoreRecordsAndHibernation1.clock hours24 stShoreRecordsAndHibernation1.power.shoreTimes).length < 1056
    ∧ (wR.rowing = false ∨ wR.power.shoreHeld = false)
    ∧ stShoreRecordsAndHibernation3.rowing = true
    ∧ stShoreRecordsAndHibernation3.est.pending = true := by
  and_intros <;> decide +kernel

def stHibernationTicketsAndSurges0 : State := { par .estHibIdle 0 (.num 1000) wR with est := { wR.est with idleSince := some 0 }, ao := { wR.ao with us := 60000000 } }
def stHibernationTicketsAndSurges2 : State := ph .hibernating w0
def stHibernationTicketsAndSurges6 : State := est (fun e => { e with ticket := some ⟨1, 1000, 5, 0, false⟩ }) (wR.setFld Reg.STK_NUM 0 32 5)

/-- States and operands that meet the hypotheses of HibernationTicketsAndShoreRecords, in its part hibernationTicketsAndSurges, clause by clause. -/
theorem wit_HibernationTicketsAndShoreRecords_hibernationTicketsAndSurges :
    stHibernationTicketsAndSurges0.est.idleSince = some (0 : Nat)
    ∧ stHibernationTicketsAndSurges0.rowing = true
    ∧ stHibernationTicketsAndSurges0.parI .estHibIdle ≠ 0
    ∧ (0 : Nat) + stHibernationTicketsAndSurges0.parI .estHibIdle * 60000000 ≤ stHibernationTicketsAndSurges0.clock
    ∧ stHibernationTicketsAndSurges0.est.pending = false
    ∧ (wR.est.idleSince = none ∨ wR.rowing = false ∨ wR.parI .estHibIdle = 0)
    ∧ (1 : Nat) < 2
    ∧ stHibernationTicketsAndSurges2.power.phase = .hibernating
    ∧ wR.power.phase ≠ .hibernating
    ∧ 1 ≤ (1 : Nat)
    ∧ (1 : Nat) ≤ 7
    ∧ ((2 : Word) ≠ 1 ∨ wP.rowing = false)
    ∧ stHibernationTicketsAndSurges6.est.ticket = some (⟨1, 1000, 5, 0, false⟩ : Ticket)
    ∧ strokeLe (⟨1, 1000, 5, 0, false⟩ : Ticket).expiry stHibernationTicketsAndSurges6.strokeNo = true
    ∧ (∀ x, wR.est.ticket = some x → strokeLe x.expiry wR.strokeNo = false) := by
  and_intros <;> decide +kernel

def stSourceSelection0 : State := kf 2 wR
def stSourceSelection1 : State := (kf 2 wR).setBit Reg.KPA_CTRL 3 true
def stSourceSelection3 : State := { kf 2 wR with kpa := { wR.kpa with present := true } }
def stSourceSelection4 : State := kf 2 (kin wR)
def stSourceSelection5 : State := kin wR

/-- States and operands that meet the hypotheses of SourcesTrackingAndBlackStart, in its part sourceSelection, clause by clause. -/
theorem wit_SourcesTrackingAndBlackStart_sourceSelection :
    stSourceSelection0.qualifies .packaux (12000 : Nat) = true
    ∧ stSourceSelection0.qualifies .kin (12000 : Nat) = true
    ∧ stSourceSelection3.qualifies .kbat (20000 : Nat) = true
    ∧ stSourceSelection1.qualifies (.packaux : KSource) (8999 : Nat) = false
    ∧ (stSourceSelection1.bit Reg.KPA_CTRL 3 = true ∨ (stSourceSelection1.kflag 0 = false ∧ stSourceSelection1.kflag 2 = false))
    ∧ stSourceSelection0.disqualifies .packaux (8499 : Nat) = true
    ∧ stSourceSelection0.disqualifies .kin (63000 : Nat) = true
    ∧ (stSourceSelection3.setFld Reg.KPA_CHG0 0 2 1 |>.setFld Reg.KPA_CHG0 4 4 1).disqualifies .kbat (0 : Nat) = true
    ∧ stSourceSelection1.disqualifies (.packaux : KSource) (8500 : Nat) = false
    ∧ stSourceSelection4.ksrc = srcKin
    ∧ stSourceSelection4.kflag 2 = true
    ∧ stSourceSelection5.ksrc = srcKin
    ∧ stSourceSelection5.kflag 2 = false
    ∧ stSourceSelection5.kflag 3 = false := by
  and_intros <;> decide +kernel

def stTrackingAndBlackStart0 : State := (kf 3 (kin wR)).setBit Reg.KPA_CTRL 2 true
def stTrackingAndBlackStart2 : State := kf 2 wR
def stTrackingAndBlackStart4 : State := { wR with kpa := { wR.kpa with vocOpen := true } }
def stTrackingAndBlackStart8 : State := { wR.setBit Reg.KPA_STAT 16 true with cam := { wR.cam with black := ⟨some 0, some 0, some 0⟩ }, ao := { wR.ao with us := 600000000 } }

/-- States and operands that meet the hypotheses of SourcesTrackingAndBlackStart, in its part trackingAndBlackStart, clause by clause. -/
theorem wit_SourcesTrackingAndBlackStart_trackingAndBlackStart :
    stTrackingAndBlackStart0.ksrc = srcKin
    ∧ (stTrackingAndBlackStart0.kflag 3 = true ∨ stTrackingAndBlackStart0.kflag 4 = true)
    ∧ stTrackingAndBlackStart0.bit Reg.KPA_CTRL 2 = true
    ∧ wR.ksrc ≠ srcKin
    ∧ stTrackingAndBlackStart2.vocMayRun = true
    ∧ stTrackingAndBlackStart2.awake = true
    ∧ wR.vocMayRun = false
    ∧ stTrackingAndBlackStart4.kpa.vocOpen = true
    ∧ (9000 : Nat) < 65536
    ∧ wR.kflag 0 = false
    ∧ wR.kflag 2 = false
    ∧ wR.fld Reg.KPA_BSCFG 0 16 ≤ (65535 : Nat)
    ∧ (65535 : Nat) < 65536
    ∧ stTrackingAndBlackStart8.bit Reg.KPA_STAT 16 = true
    ∧ stTrackingAndBlackStart8.marginShown = true
    ∧ stTrackingAndBlackStart8.rowing = true := by
  and_intros <;> decide +kernel

def stCoulombConverter0 : State := cca wR
def stCoulombConverter1 : State := { cca wR with cca := { (cca wR).cca with settle := 3, held := 7 } }
def stCoulombConverter2 : State := { cca wR with cca := { (cca wR).cca with acc := accMax } }
def stCoulombConverter3 : State := wR.setBit Reg.CCA_CTRL 0 false

/-- States and operands that meet the hypotheses of CurrentMeasurement, in its part coulombConverter, clause by clause. -/
theorem wit_CurrentMeasurement_coulombConverter :
    stCoulombConverter0.bit Reg.CCA_CTRL 0 = true
    ∧ stCoulombConverter0.cca.settle = 0
    ∧ accMin ≤ stCoulombConverter0.cca.acc + (ccaCode (if stCoulombConverter0.bit Reg.CCA_CTRL 1 then -stCoulombConverter0.ccaTrimmed (100000 : Int) else stCoulombConverter0.ccaTrimmed (100000 : Int))) * (1000 : Nat) / 1280
    ∧ stCoulombConverter0.cca.acc + (ccaCode (if stCoulombConverter0.bit Reg.CCA_CTRL 1 then -stCoulombConverter0.ccaTrimmed (100000 : Int) else stCoulombConverter0.ccaTrimmed (100000 : Int))) * (1000 : Nat) / 1280 ≤ accMax
    ∧ stCoulombConverter1.bit Reg.CCA_CTRL 0 = true
    ∧ 0 < stCoulombConverter1.cca.settle
    ∧ accMin ≤ stCoulombConverter1.cca.acc + stCoulombConverter1.cca.held * (1000 : Nat) / 1280
    ∧ stCoulombConverter1.cca.acc + stCoulombConverter1.cca.held * (1000 : Nat) / 1280 ≤ accMax
    ∧ stCoulombConverter2.bit Reg.CCA_CTRL 0 = true
    ∧ stCoulombConverter2.cca.settle = 0
    ∧ stCoulombConverter2.bit Reg.CCA_CTRL 1 = false
    ∧ accMax < stCoulombConverter2.cca.acc + ccaCode (stCoulombConverter2.ccaTrimmed ((1000 : Int) : Int)) * (100000 : Nat) / 1280
    ∧ stCoulombConverter3.bit Reg.CCA_CTRL 0 = false
    ∧ stCoulombConverter3.awake = true := by
  and_intros <;> decide +kernel

def stFastCurrentStream0 : State := wR.setBit Reg.FCS_CTRL 0 true
def stFastCurrentStream2 : State := wR.setFld Reg.FCS_OCS 0 6 5
def stFastCurrentStream3 : State := mst (fun m => { m with selfTest := true }) (wR.setFld Reg.FCS_OCS 0 6 5)
def stFastCurrentStream4 : State := wR.setFld Reg.FCS_BKI 0 6 5
def stFastCurrentStream6 : State := mst (fun m => { m with capture := [5] }) wR
def stFastCurrentStream7 : State := mst (fun m => { m with selfTest := true }) wR

/-- States and operands that meet the hypotheses of CurrentMeasurement, in its part fastCurrentStream, clause by clause. -/
theorem wit_CurrentMeasurement_fastCurrentStream :
    stFastCurrentStream0.bit Reg.FCS_CTRL 0 = true
    ∧ (stFastCurrentStream0.fcsTrimmed 100 : Int) = (if stFastCurrentStream0.bit Reg.FCS_CTRL 1 then -stFastCurrentStream0.fcsTrimmed ((100 : Int) : Int) else stFastCurrentStream0.fcsTrimmed ((100 : Int) : Int))
    ∧ -2047 < (stFastCurrentStream0.fcsTrimmed 100 : Int)
    ∧ (stFastCurrentStream0.fcsTrimmed 100 : Int) < 2047
    ∧ stFastCurrentStream0.bit Reg.FCS_CAP 16 = false
    ∧ stFastCurrentStream0.meas.capLeft = none
    ∧ (stFastCurrentStream0.fcsTrimmed ((2047 : Int) : Int) ≤ -2048 ∨ 2047 ≤ stFastCurrentStream0.fcsTrimmed ((2047 : Int) : Int))
    ∧ stFastCurrentStream3.fld Reg.FCS_OCS 0 6 ≠ 0
    ∧ dacNv (stFastCurrentStream3.fld Reg.FCS_OCS 0 6) < (1000000000 : Nat)
    ∧ (9 : Nat) < 2 ^ 15
    ∧ stFastCurrentStream3.meas.selfTest = true
    ∧ stFastCurrentStream2.fld Reg.FCS_OCS 0 6 ≠ 0
    ∧ dacNv (stFastCurrentStream2.fld Reg.FCS_OCS 0 6) < (1000000000 : Nat)
    ∧ stFastCurrentStream2.meas.selfTest = false
    ∧ (stFastCurrentStream3.fld Reg.FCS_OCS 0 6 = 0 ∨ (0 : Nat) ≤ dacNv (stFastCurrentStream3.fld Reg.FCS_OCS 0 6))
    ∧ (mst (fun m => { m with selfTest := true }) stFastCurrentStream4).fld Reg.FCS_BKI 0 6 ≠ 0
    ∧ dacNv ((mst (fun m => { m with selfTest := true }) stFastCurrentStream4).fld Reg.FCS_BKI 0 6) < (1000000000 : Nat)
    ∧ (mst (fun m => { m with selfTest := true }) stFastCurrentStream4).meas.selfTest = true
    ∧ stFastCurrentStream4.fld Reg.FCS_BKI 0 6 ≠ 0
    ∧ dacNv (stFastCurrentStream4.fld Reg.FCS_BKI 0 6) < (1000000000 : Nat)
    ∧ stFastCurrentStream4.meas.selfTest = false
    ∧ (stFastCurrentStream4.fld Reg.FCS_BKI 0 6 = 0 ∨ (0 : Nat) < releaseNv (stFastCurrentStream4.fld Reg.FCS_BKI 0 6))
    ∧ (stFastCurrentStream4.meas.selfTest = true ∨ (stFastCurrentStream4.fld Reg.FCS_BKI 0 6 ≠ 0 ∧ releaseNv (stFastCurrentStream4.fld Reg.FCS_BKI 0 6) ≤ (1000000000 : Nat)))
    ∧ stFastCurrentStream0.awake = true
    ∧ stFastCurrentStream4.awake = true
    ∧ stFastCurrentStream6.awake = true
    ∧ stFastCurrentStream6.fld Reg.FCS_CAP 0 10 < stFastCurrentStream6.meas.capture.length
    ∧ stFastCurrentStream3.awake = true
    ∧ 171000000 ≤ ((1843 : Int) : Int) * 200000000 / 2048
    ∧ ((1843 : Int) : Int) * 200000000 / 2048 ≤ 189000000
    ∧ stFastCurrentStream7.meas.selfTest = true
    ∧ stFastCurrentStream7.rowing = true
    ∧ stFastCurrentStream7.cam.state ≠ .easy
    ∧ stFastCurrentStream7.acts = .idle := by
  and_intros <;> decide +kernel

def stIsolatorEvents0 : State := { wR.setBit Reg.MDI_STAT 8 true with mdi := { wR.mdi with st := mdiMoving } }
def stIsolatorEvents3 : State := { wR with mdi := { wR.mdi with brake := true } }
def stIsolatorEvents4 : State := { wR with mdi := { wR.mdi with waitSince := some 0 } }

/-- States and operands that meet the hypotheses of IsolatorAndSafetyInputs, in its part isolatorEvents, clause by clause. -/
theorem wit_IsolatorAndSafetyInputs_isolatorEvents :
    stIsolatorEvents0.driving = true
    ∧ (stIsolatorEvents0.mdi.st = mdiMoving ∨ stIsolatorEvents0.mdi.st = mdiHoming)
    ∧ wR.driving = false
    ∧ stIsolatorEvents3.mdi.brake = true
    ∧ stIsolatorEvents4.mdi.waitSince.isSome = true
    ∧ stIsolatorEvents4.mdi.waitLogged = false
    ∧ stIsolatorEvents3.awake = true := by
  and_intros <;> decide +kernel

def stSafetyInputs1 : State := (wR.setFld (Reg.SIN_CFG 0) 0 3 1).setBit Reg.SIN_STAT 0 true
def stSafetyInputs5 : State := (par .sinPair 0 (.sym 2) (par .sinPair 1 (.sym 1) (par .sinFunc 0 (.sym 2) (par .sinFunc 1 (.sym 2) { wR with sin := { wR.sin with latched := 1 } })))).setFld Reg.AGR_C_SIN 0 2 3
def stSinOff : State := (wR.setFld (Reg.SIN_CFG 0) 0 3 1).setBit Reg.SIN_CTRL 0 false
def stSinHigh : State := wR.setBit Reg.SIN_STAT 0 true

/-- States and operands that meet the hypotheses of IsolatorAndSafetyInputs, in its part safetyInputs, clause by clause. -/
theorem wit_IsolatorAndSafetyInputs_safetyInputs :
    (0 : Nat) < 8
    ∧ wR.bit Reg.SIN_STAT (0 : Nat) ≠ (true : Bool)
    ∧ ((true : Bool) = true → wR.sourceOff (0 : Nat) = false)
    ∧ stSinOff.sourceOff (0 : Nat) = true
    ∧ stSafetyInputs1.sinSource (0 : Nat) ≠ 0
    ∧ stSafetyInputs1.bit Reg.SIN_STAT (0 : Nat) = true
    ∧ (2 : Nat) ≠ stSafetyInputs1.sinSource (0 : Nat)
    ∧ stSafetyInputs1.bit Reg.SIN_STAT (8 + (0 : Nat)) = false
    ∧ (wR.sinSource (0 : Nat) = 0 ∨ wR.sinHigh (0 : Nat) = false ∨ (none : Option Nat) = some (wR.sinSource (0 : Nat)))
    ∧ stSinHigh.bit Reg.SIN_STAT (0 : Nat) = true
    ∧ wR.sinHigh (0 : Nat) = false
    ∧ (1 : Nat) < 4
    ∧ (1 : Nat) < 8
    ∧ stSafetyInputs5.sinPartner (0 : Nat) = some (1 : Nat)
    ∧ stSafetyInputs5.sinTripped (0 : Nat) ≠ stSafetyInputs5.sinTripped (1 : Nat) := by
  and_intros <;> decide +kernel

def stCoilDriversAndPump0 : State := on0 wR
def stCoilDriversAndPump1 : State := (on0 wR).setBit Reg.PUMP_STAT 2 true
def stCoilDriversAndPump2 : State := wR.setBit Reg.CTR_STAT 0 false
def stCoilDriversAndPump3 : State := (on0 wR).setBit Reg.CTR_PHASE 0 true
def stCoilDriversAndPump4 : State := { wR.setBit Reg.PUMP_STAT 0 true with ctr := { wR.ctr with fedSince := some 0 } }

/-- States and operands that meet the hypotheses of CoilsContactsAndStrings, in its part coilDriversAndPump, clause by clause. -/
theorem wit_CoilsContactsAndStrings_coilDriversAndPump :
    (0 : Nat) < 12
    ∧ stCoilDriversAndPump0.coilOn (0 : Nat) = true
    ∧ stCoilDriversAndPump1.coilOn (0 : Nat) = true
    ∧ stCoilDriversAndPump1.bit Reg.PUMP_STAT 2 = true
    ∧ (stCoilDriversAndPump2.coilOn (0 : Nat) = false ∨ stCoilDriversAndPump2.bit Reg.PUMP_STAT 2 = false)
    ∧ stCoilDriversAndPump3.coilOn (0 : Nat) = true
    ∧ stCoilDriversAndPump3.bit Reg.CTR_PHASE (0 : Nat) = true
    ∧ stCoilDriversAndPump4.ctr.fedSince.isSome = true
    ∧ stCoilDriversAndPump4.bit Reg.PUMP_STAT 0 = true
    ∧ wR.ctr.fedSince = none
    ∧ stCoilDriversAndPump4.awake = true
    ∧ wR.awake = true
    ∧ wR.fld Reg.CTR_STAT 0 12 = 0
    ∧ stCoilDriversAndPump0.fld Reg.CTR_STAT 0 12 ≠ 0 := by
  and_intros <;> decide +kernel

def stContactsAndStrings0 : State := on0 wR
def stContactsAndStrings1 : State := str0 (fun x => { x with opening := true }) (conf0 wR)
def stContactsAndStrings2 : State := cl 0 (fun x => { x with offAt := some 0 }) ((conf0 wR).setFld Reg.AGR_C_FB 0 1 1)
def stContactsAndStrings3 : State := par .ctrWeld 0 (.names [0, 1]) (cl 0 (fun x => { x with weldRun := true, weldProved := true, weldWithin := true }) (conf0 wR))
def stContactsAndStrings4 : State := cl 0 (fun x => { x with weldRun := true }) wR
def stContactsAndStrings5 : State := { wR.setFld Reg.CTR_STAT 16 12 3 with ctr := { wR.ctr with defer := some 0 } }
def stContactsAndStrings7 : State := str0 (fun x => { x with st := 3 }) (conf0 wR)
def stGateTimeout : State := str0 (fun x => { x with st := 2, gateLogged := true }) wR

/-- States and operands that meet the hypotheses of CoilsContactsAndStrings, in its part contactsAndStrings, clause by clause. -/
theorem wit_CoilsContactsAndStrings_contactsAndStrings :
    (0 : Nat) < 12
    ∧ stContactsAndStrings0.coilOn (0 : Nat) = true
    ∧ stContactsAndStrings0.fbc (0 : Nat) = false
    ∧ stContactsAndStrings0.strOfCoil (0 : Nat) = some (0 : Nat)
    ∧ (stContactsAndStrings0.str (0 : Nat)).st ≠ 5
    ∧ (stContactsAndStrings0.str (0 : Nat)).st ≠ 6
    ∧ stContactsAndStrings1.strConf (0 : Nat) = true
    ∧ (stContactsAndStrings1.str (0 : Nat)).opening = true
    ∧ (∀ c, stContactsAndStrings1.posOf (0 : Nat) = some c → stContactsAndStrings1.coilOn c = false)
    ∧ stContactsAndStrings1.negOf (0 : Nat) = some (1 : Nat)
    ∧ (1 : Nat) < 12
    ∧ stContactsAndStrings2.coilOn (0 : Nat) = false
    ∧ stContactsAndStrings2.fbc (0 : Nat) = true
    ∧ (stContactsAndStrings2.coil (0 : Nat)).offAt.isSome = true
    ∧ stContactsAndStrings2.strOfCoil (0 : Nat) = some (0 : Nat)
    ∧ (stContactsAndStrings2.str (0 : Nat)).st ≠ 5
    ∧ stContactsAndStrings2.rowing = true
    ∧ stContactsAndStrings2.cam.state ≠ .easy
    ∧ stContactsAndStrings2.acts = .idle
    ∧ stContactsAndStrings3.coilOn (0 : Nat) = false
    ∧ stContactsAndStrings3.fbc (0 : Nat) = false
    ∧ (stContactsAndStrings3.coil (0 : Nat)).weldRun = true
    ∧ (stContactsAndStrings3.coil (0 : Nat)).weldProved = true
    ∧ (stContactsAndStrings3.coil (0 : Nat)).weldWithin = true
    ∧ stContactsAndStrings3.parL .ctrWeld (0 : Nat) ≠ []
    ∧ stContactsAndStrings3.strOfCoil (0 : Nat) = some (0 : Nat)
    ∧ (stContactsAndStrings3.str (0 : Nat)).st ≠ 5
    ∧ (stContactsAndStrings4.coil (0 : Nat)).weldRun = true
    ∧ stContactsAndStrings4.coilOn (0 : Nat) = false
    ∧ (stContactsAndStrings4.coil (0 : Nat)).weldProved = false
    ∧ stContactsAndStrings5.ctr.defer.isSome = true
    ∧ stContactsAndStrings5.ctr.deferDone = false
    ∧ stContactsAndStrings5.fld Reg.CTR_STAT 16 12 ≠ 0
    ∧ stContactsAndStrings5.rowing = true
    ∧ stContactsAndStrings5.cam.state ≠ .easy
    ∧ stContactsAndStrings5.acts = .idle
    ∧ (stGateTimeout.str (0 : Nat)).st = 2
    ∧ (stGateTimeout.str (0 : Nat)).attempt = false
    ∧ (stGateTimeout.str (0 : Nat)).posOrdered = false
    ∧ (stGateTimeout.str (0 : Nat)).gateLogged = true
    ∧ (stContactsAndStrings7.str (0 : Nat)).st = 3
    ∧ (stContactsAndStrings7.str (0 : Nat)).posOrdered = false
    ∧ stContactsAndStrings7.negOf (0 : Nat) = some (1 : Nat)
    ∧ ((wR.str (0 : Nat)).st ≠ 3 ∨ (wR.str (0 : Nat)).posOrdered = true) := by
  and_intros <;> decide +kernel

def stRadioSlotsAndLock0 : State := (rOn wR).setBit Reg.RAD_CTRL 2 true
def stRadioSlotsAndLock1 : State := (rOn wR).setFld Reg.RAD_HOPCTRL 0 16 0xFFFF
def stRadioSlotsAndLock2 : State := rLk wR
def stRadioSlotsAndLock3 : State := rOn wR
def stRadioSlotsAndLock4 : State := rad (fun r => { r with queue := [(1, 2)] }) (rLk wR)
def stRadioSlotsAndLock5 : State := rad (fun r => { r with queue := [(1, 2)] }) (rOn wR)
def stRadioSlotsAndLock7 : State := rad (fun r => { r with waiting := some 0 }) (rOn wR)
def stRadioSlotsAndLock9 : State := (rOn wR).setBit Reg.RAD_STAT 1 true
def stRadioSlotsAndLock11 : State := rad (fun r => { r with waiting := some 4 }) (rOn wR)
def stRadioSlotsAndLock13 : State := wR.setHd 1 0 1 txQueued
def stRadioSlotsAndLock14 : State := rad (fun r => { r with fly := some 1 }) (fly1 (rLk wR))
def stQuar : State := { rad (fun r => { r with bad := [(5, 0)] }) wR with ao := { wR.ao with us := 60000000000 } }
def stBeacon : State := (rLk wR).setBit Reg.RAD_CTRL 1 true
def stRadio19 : State := rad (fun r => { r with fly := some 1 }) ((fly1 (rLk wR)).setHd 1 7 1 8)

/-- States and operands that meet the hypotheses of RadioAndJoining, in its part radioSlotsAndLock, clause by clause. -/
theorem wit_RadioAndJoining_radioSlotsAndLock :
    stRadioSlotsAndLock0.radOn = true
    ∧ stRadioSlotsAndLock0.bit Reg.RAD_CTRL 2 = true
    ∧ stRadioSlotsAndLock1.radOn = true
    ∧ stRadioSlotsAndLock1.bit Reg.RAD_CTRL 2 = false
    ∧ stRadioSlotsAndLock1.fld Reg.RAD_HOPCTRL 0 16 = 0xFFFF
    ∧ stBeacon.radOn = true
    ∧ stBeacon.bit Reg.RAD_CTRL 1 = true
    ∧ stBeacon.bit Reg.RAD_CTRL 2 = false
    ∧ stBeacon.radLocked = true
    ∧ stRadioSlotsAndLock3.radOn = true
    ∧ stRadioSlotsAndLock3.bit Reg.RAD_CTRL 1 = true
    ∧ stRadioSlotsAndLock3.bit Reg.RAD_CTRL 2 = false
    ∧ stRadioSlotsAndLock3.radLocked = false
    ∧ stRadioSlotsAndLock4.radOn = true
    ∧ stRadioSlotsAndLock4.bit Reg.RAD_CTRL 2 = false
    ∧ 2 ≤ (3 : Nat)
    ∧ (3 : Nat) < stRadioSlotsAndLock4.slotsOf
    ∧ stRadioSlotsAndLock4.rad.fly = none
    ∧ stRadioSlotsAndLock4.rad.busyTo ≤ (3 : Nat)
    ∧ stRadioSlotsAndLock4.pickRadio (3 : Nat) = some (1 : Nat)
    ∧ stRadioSlotsAndLock4.radLocked = true
    ∧ stRadioSlotsAndLock5.radOn = true
    ∧ stRadioSlotsAndLock5.bit Reg.RAD_CTRL 2 = false
    ∧ (3 : Nat) < stRadioSlotsAndLock5.slotsOf
    ∧ stRadioSlotsAndLock5.rad.fly = none
    ∧ stRadioSlotsAndLock5.rad.busyTo ≤ (3 : Nat)
    ∧ stRadioSlotsAndLock5.pickRadio (3 : Nat) = some (1 : Nat)
    ∧ stRadioSlotsAndLock5.radLocked = false
    ∧ stRadioSlotsAndLock3.rad.waiting = none
    ∧ stRadioSlotsAndLock7.radOn = true
    ∧ stRadioSlotsAndLock7.rad.waiting = some 0
    ∧ stRadioSlotsAndLock2.radOn = true
    ∧ stRadioSlotsAndLock2.radLocked = true
    ∧ stRadioSlotsAndLock9.radOn = true
    ∧ stRadioSlotsAndLock9.bit Reg.RAD_STAT 1 = true
    ∧ stRadioSlotsAndLock7.awake = true
    ∧ (4 : Nat) ≠ 0
    ∧ stRadioSlotsAndLock11.rad.waiting = some (4 : Nat)
    ∧ wR.awake = true
    ∧ wR.txState (1 : Nat) ≠ txQueued
    ∧ stRadioSlotsAndLock13.awake = true
    ∧ stRadioSlotsAndLock13.txState (1 : Nat) = txQueued
    ∧ (900 : Nat) < 2 ^ 15
    ∧ stRadio19.rad.fly = some (1 : Nat)
    ∧ stRadio19.openAir (1 : Nat) (air1 stRadio19 : List Byte) = .good (fr 1 0x10 1 : Frame)
    ∧ stRadio19.answers (1 : Nat) (stRadio19.hd (1 : Nat) 2 1) (fr 1 0x10 1 : Frame) = true
    ∧ (fr 1 0x10 1 : Frame).flag flagRsp = true
    ∧ isNak (fr 1 0x10 1 : Frame) = false
    ∧ (stRadio19.hd (1 : Nat) 0xE 2 = 0xFFFF ∨ (stRadio19.hd (1 : Nat) 0xE 2 + 2 * dataCount (stRadio19.hd (1 : Nat) 7 1) ≤ 32768 ∧ ((1 : Nat) % 32768 < stRadio19.hd (1 : Nat) 0xE 2 ∨ stRadio19.hd (1 : Nat) 0xE 2 + 2 * dataCount (stRadio19.hd (1 : Nat) 7 1) ≤ (1 : Nat) % 32768)))
    ∧ stRadioSlotsAndLock14.rad.fly = some (1 : Nat)
    ∧ stRadioSlotsAndLock14.openAir (1 : Nat) (badMic1 stRadioSlotsAndLock14 : List Byte) = .mic
    ∧ stQuar.quarOver (5 : Nat) = true := by
  and_intros <;> first | decide +kernel | with_reducible exact openAir_air1 _ | with_reducible exact openAir_badMic1 _

def stJoinListens : State := { (par .chnSeatSerial 1 (.ident 5) (rLk wR)).setBit Reg.RAD_CTRL 2 true with nv := { wR.nv with rad := { wR.nv.rad with seats := [(1, 0, [])] } } }

/-- States and operands that meet the hypotheses of RadioAndJoining, in its part joiningTheRadio, clause by clause. -/
theorem wit_RadioAndJoining_joiningTheRadio :
    stJoinListens.listens = true
    ∧ (joinReq (join1 stJoinListens : List Byte)).kind = 3
    ∧ stJoinListens.joinGenuine (join1 stJoinListens : List Byte) = true
    ∧ stJoinListens.serialOf (joinReq (join1 stJoinListens : List Byte)).seat = some (joinReq (join1 stJoinListens : List Byte)).serial
    ∧ Tab.get 0 stJoinListens.nv.rad.jcounts (joinReq (join1 stJoinListens : List Byte)).seat < (joinReq (join1 stJoinListens : List Byte)).jcount
    ∧ (∀ j ∈ stJoinListens.rad.joins, j.1 ≠ (joinReq (join1 stJoinListens : List Byte)).seat)
    ∧ stJoinListens.rad.joins.length < 256
    ∧ (rad (fun r => { r with joins := [(1, 0, 3)] }) stJoinListens).listens = true
    ∧ (rad (fun r => { r with joins := [(1, 0, 3)] }) stJoinListens).joinGenuine (join1 stJoinListens : List Byte) = true
    ∧ (rad (fun r => { r with joins := [(1, 0, 3)] }) stJoinListens).serialOf (joinReq (join1 stJoinListens : List Byte)).seat = some (joinReq (join1 stJoinListens : List Byte)).serial
    ∧ Tab.get 0 (rad (fun r => { r with joins := [(1, 0, 3)] }) stJoinListens).nv.rad.jcounts (joinReq (join1 stJoinListens : List Byte)).seat < (joinReq (join1 stJoinListens : List Byte)).jcount
    ∧ (∃ j ∈ (rad (fun r => { r with joins := [(1, 0, 3)] }) stJoinListens).rad.joins, j.1 = (joinReq (join1 stJoinListens : List Byte)).seat)
    ∧ (joinReq ([3] : List Byte)).kind = 3
    ∧ (stJoinListens.joinGenuine ([3] : List Byte) = false ∨ stJoinListens.serialOf (joinReq ([3] : List Byte)).seat ≠ some (joinReq ([3] : List Byte)).serial ∨ (joinReq ([3] : List Byte)).jcount ≤ Tab.get 0 stJoinListens.nv.rad.jcounts (joinReq ([3] : List Byte)).seat)
    ∧ wR.awake = true
    ∧ (wR.listens = false ∨ (joinReq ([3] : List Byte)).kind ≠ 3) := by
  and_intros <;> first | exact joinGenuine_join1 _ (by decide +kernel) | decide +kernel

def stLogSubmission0 : State := crit wR
def stLogSubmission1 : State := lg (fun l => { l with buckets := [(0, ⟨0, 0⟩)] }) (wR.setBit Reg.LOG_CTRL 1 true)
def stLogSubmission2 : State := (crit wR).setFld (Reg.LOG_BNEXT 0) 0 32 4096
def stLogSubmission3 : State := lg (fun l => { l with pend := List.replicate 64 { rec0 with book := 1 } }) (crit wR)
def stLogSubmission4 : State := (crit wR).setBit Reg.LOG_SUBTIMEH 31 true
def stLogSubmission5 : State := lg (fun l => { l with units := [(0, rec0)] }) (crit wR)

/-- States and operands that meet the hypotheses of LogbookSubmissionAndBooks, in its part logSubmission, clause by clause. -/
theorem wit_LogbookSubmissionAndBooks_logSubmission :
    stLogSubmission0.awake = true
    ∧ stLogSubmission0.subRecord (.cox : Requester) = some (subOf (crit wR) : LogRec)
    ∧ wholeUnit stLogSubmission0 (.cox : Requester)
    ∧ exemptRec stLogSubmission0 (subOf (crit wR) : LogRec)
    ∧ Tab.get 0 stLogSubmission0.log.lost (subOf (crit wR) : LogRec).book = 0
    ∧ stLogSubmission0.bookHeld (subOf (crit wR) : LogRec).book + stLogSubmission0.bookQueued (subOf (crit wR) : LogRec).book < bookCap (subOf (crit wR) : LogRec).book
    ∧ stLogSubmission0.log.pend.length < 64
    ∧ stLogSubmission1.awake = true
    ∧ stLogSubmission1.subRecord (.cox : Requester) = some (subOf (wR.setBit Reg.LOG_CTRL 1 true) : LogRec)
    ∧ wholeUnit stLogSubmission1 (.cox : Requester)
    ∧ (subOf (wR.setBit Reg.LOG_CTRL 1 true) : LogRec).sevfl % 8 ≠ 4
    ∧ (subOf (wR.setBit Reg.LOG_CTRL 1 true) : LogRec).source ≠ 0xF0
    ∧ stLogSubmission1.bit Reg.LOG_CTRL 1 = true
    ∧ (stLogSubmission1.bucket (stLogSubmission1.bucketKey (subOf (wR.setBit Reg.LOG_CTRL 1 true) : LogRec).book (subOf (wR.setBit Reg.LOG_CTRL 1 true) : LogRec).code)).tokens = 0
    ∧ stLogSubmission2.awake = true
    ∧ stLogSubmission2.subRecord (.cox : Requester) = some (subOf (crit wR) : LogRec)
    ∧ wholeUnit stLogSubmission2 (.cox : Requester)
    ∧ exemptRec stLogSubmission2 (subOf (crit wR) : LogRec)
    ∧ bookCap (subOf (crit wR) : LogRec).book ≤ stLogSubmission2.bookHeld (subOf (crit wR) : LogRec).book + stLogSubmission2.bookQueued (subOf (crit wR) : LogRec).book
    ∧ stLogSubmission3.awake = true
    ∧ stLogSubmission3.subRecord (.cox : Requester) = some (subOf (crit wR) : LogRec)
    ∧ wholeUnit stLogSubmission3 (.cox : Requester)
    ∧ exemptRec stLogSubmission3 (subOf (crit wR) : LogRec)
    ∧ stLogSubmission3.bookHeld (subOf (crit wR) : LogRec).book + stLogSubmission3.bookQueued (subOf (crit wR) : LogRec).book < bookCap (subOf (crit wR) : LogRec).book
    ∧ 64 ≤ stLogSubmission3.log.pend.length
    ∧ stLogSubmission4.awake = true
    ∧ stLogSubmission4.subRecord .cox = some (subOf ((crit wR).setBit Reg.LOG_SUBTIMEH 31 true) : LogRec)
    ∧ stLogSubmission4.log.units = []
    ∧ stLogSubmission4.bit Reg.LOG_SUBTIMEH 31 = true
    ∧ stLogSubmission5.awake = true
    ∧ stLogSubmission5.subRecord .cox = some (subOf (crit wR) : LogRec)
    ∧ stLogSubmission5.log.units = [(0, (rec0 : LogRec))]
    ∧ (rec0 : LogRec).sevfl % 8 = 4
    ∧ Tab.get 0 stLogSubmission5.log.lost (rec0 : LogRec).book = 0
    ∧ stLogSubmission5.bookHeld (rec0 : LogRec).book + stLogSubmission5.bookQueued (rec0 : LogRec).book + 2 ≤ bookCap (rec0 : LogRec).book
    ∧ stLogSubmission5.log.pend.length + 2 ≤ 64
    ∧ wR.subRecord (.scull0 : Requester) = none := by
  and_intros <;> first | decide +kernel | (unfold exemptRec; decide +kernel)

def stLogWriterWindowAndRelease0 : State := lg (fun l => { l with pend := [rec0] }) (wR.setBit Reg.LOG_CTRL 0 true)

/-- States and operands that meet the hypotheses of LogbookSubmissionAndBooks, in its part logWriterWindowAndRelease, clause by clause. -/
theorem wit_LogbookSubmissionAndBooks_logWriterWindowAndRelease :
    stLogWriterWindowAndRelease0.log.pend = (rec0 : LogRec) :: ([] : List LogRec)
    ∧ stLogWriterWindowAndRelease0.bit Reg.LOG_CTRL 0 = true
    ∧ (rec0 : LogRec).book < 9
    ∧ (wR.log.pend = [] ∨ wR.bit Reg.LOG_CTRL 0 = false)
    ∧ wR.awake = true
    ∧ wR.mayReadLog (.cox : Requester) = true
    ∧ wR.curBook (.cox : Requester) < 9
    ∧ wR.mayReadLog (.scull0 : Requester) = false
    ∧ (((.cox : Requester) = .cox ∧ (1 : Nat) = (1 : Nat)) ∨ ((.cox : Requester) ≠ .cox ∧ ∃ k, wR.logTenant (.cox : Requester) = some k ∧ (1 : Nat) = 1 + k))
    ∧ (1 : Nat) < 9
    ∧ (.scull0 : Requester) ≠ .cox
    ∧ wR.logTenant (.scull0 : Requester) = none := by
  and_intros <;> decide +kernel

def stTagAirInterface1 : State := tg (fun x => { x with air := 0 }) (tA wR)
def stTagAirInterface2 : State := tg (fun x => { x with air := 4 }) (tA wR)
def stTagAirInterface3 : State := tg (fun x => { x with air := 1 }) (tA wR)
def stTagAirInterface5 : State := tg (fun x => { x with air := 2 }) (tA wR)
def stTagAirInterface6 : State := tA wR

/-- States and operands that meet the hypotheses of TagFieldSide, in its part tagAirInterface, clause by clause. -/
theorem wit_TagFieldSide_tagAirInterface :
    ((1 : Nat) = 1 ∨ (1 : Nat) = 2)
    ∧ stTagAirInterface1.tagAir = true
    ∧ stTagAirInterface1.tag.air = 0
    ∧ stTagAirInterface2.tagAir = true
    ∧ stTagAirInterface2.tag.air = 4
    ∧ stTagAirInterface3.tagAir = true
    ∧ stTagAirInterface3.tag.air = (1 : Nat)
    ∧ stTagAirInterface3.tagLevel (1 : Nat) = ([0x88] : List Byte) ++ ((wR.tagLevel 1).drop 1 : List Byte)
    ∧ stTagAirInterface3.tag.air = 1
    ∧ stTagAirInterface5.tagAir = true
    ∧ stTagAirInterface5.tag.air = 2
    ∧ stTagAirInterface6.tagAir = true
    ∧ stTagAirInterface6.tag.air = 3
    ∧ (7 : Nat) ≤ 7
    ∧ 7 < (8 : Nat)
    ∧ stTagAirInterface3.tag.air ≠ 3
    ∧ ((.tagHlta : Instr)) ∈ [Instr.tagHlta, .tagSectorSelect 0, .tagRead 0]
    ∧ wR.tagAir = false
    ∧ ((.tagReqa : Instr)) ∈ [Instr.tagReqa, .tagWupa, .tagAnticollision (1 : Nat) ([] : List Byte), .tagSelect (1 : Nat) ([] : List Byte), .tagHlta, .tagRead (0 : Nat), .tagWrite (0 : Nat) ([] : List Byte) (true : Bool) (9 : Nat), .tagCompatWrite (0 : Nat) ([] : List Byte) (true : Bool) (9 : Nat), .tagSectorSelect (0 : Nat)] := by
  and_intros <;> decide +kernel

def stTagReadsAndWrites0 : State := tA wR
def stTagReadsAndWrites1 : State := tg (fun x => { x with sector := 3 }) (tA wR)
def stTagReadsAndWrites2 : State := tg (fun x => { x with sector := 3, owner := 2 }) (tA wR)
def stTagReadsAndWrites4 : State := tg (fun x => { x with sector := 1 }) (tA (row wR))
def stTagReadsAndWrites5 : State := tg (fun x => { x with sector := 3 }) (tA (row wR))
def stTagReadsAndWrites6 : State := tg (fun x => { x with rows := [(0x50000400, [])] }) (tA wR)

/-- States and operands that meet the hypotheses of TagFieldSide, in its part tagReadsAndWrites, clause by clause. -/
theorem wit_TagFieldSide_tagReadsAndWrites :
    tagReady stTagReadsAndWrites0
    ∧ stTagReadsAndWrites0.tag.sector ≠ 3
    ∧ tagReady stTagReadsAndWrites1
    ∧ stTagReadsAndWrites1.tag.sector = 3
    ∧ (4 : Nat) < 0x7D
    ∧ stTagReadsAndWrites1.tag.owner ≠ 2
    ∧ tagReady stTagReadsAndWrites2
    ∧ stTagReadsAndWrites2.tag.sector = 3
    ∧ stTagReadsAndWrites2.tag.owner = 2
    ∧ stTagReadsAndWrites2.powered = true
    ∧ (255 < (4 : Nat) ∨ (inConfirmation (stTagReadsAndWrites0.tag.sector * 1024 + (4 : Nat) * 4) = false ∧ inMailbox (stTagReadsAndWrites0.tag.sector * 1024 + (4 : Nat) * 4) = false))
    ∧ tagReady stTagReadsAndWrites4
    ∧ stTagReadsAndWrites4.tag.sector = 1
    ∧ 0xF0 ≤ (0xF0 : Nat)
    ∧ (0xF0 : Nat) ≤ 0xF3
    ∧ ([1, 2, 3, 4] : List Byte).length = 4
    ∧ stTagReadsAndWrites4.powered = true
    ∧ tagReady stTagReadsAndWrites5
    ∧ stTagReadsAndWrites5.tag.sector = 3
    ∧ stTagReadsAndWrites5.tag.owner ≠ 2
    ∧ stTagReadsAndWrites5.powered = true
    ∧ stTagReadsAndWrites6.tagAir = true
    ∧ stTagReadsAndWrites6.tag.air = 3
    ∧ stTagReadsAndWrites6.tag.rows ≠ [] := by
  and_intros <;> decide +kernel

def stQueuesSlaveAndPins0 : State := qp (fun q => { q with stage := [(0, [5])] }) wR
def stQueuesSlaveAndPins3 : State := qp (fun q => { q with queues := [(0, [qe])] }) (wR.setBit Reg.QP_CTRL 0 true)
def stQueuesSlaveAndPins5 : State := qp (fun q => { q with queues := [(0, [qe])], chain := some 0 }) (wR.setBit Reg.QP_CTRL 0 true)
def stQueuesSlaveAndPins7 : State := slv wR
def stGap : State := qp (fun q => { q with fill := some 0, queues := [(0, [qe])] }) ((xip wR).setBit Reg.QP_CTRL 0 true)
def stNoGap : State := qp (fun q => { q with chain := some 1, queues := [(0, [qe])] }) (wR.setBit Reg.QP_CTRL 0 true)

/-- States and operands that meet the hypotheses of QueuedPortAndSealedWindow, in its part queuesSlaveAndPins, clause by clause. -/
theorem wit_QueuedPortAndSealedWindow_queuesSlaveAndPins :
    stQueuesSlaveAndPins0.awake = true
    ∧ (0 : Nat) < 4
    ∧ stQueuesSlaveAndPins0.mayQsel (.cox : Requester) (0 : Nat) = true
    ∧ pushFits stQueuesSlaveAndPins0 (0 : Nat)
    ∧ wR.awake = true
    ∧ wR.mayQsel (.cox : Requester) (0 : Nat) = true
    ∧ ¬ pushFits wR (0 : Nat)
    ∧ wR.mayQsel (.scull0 : Requester) (0 : Nat) = false
    ∧ stQueuesSlaveAndPins3.nextSelect = some (0 : Nat)
    ∧ stQueuesSlaveAndPins3.bit Reg.QP_CTRL 0 = true
    ∧ stQueuesSlaveAndPins3.busFree = true
    ∧ stGap.nextSelect = some (0 : Nat)
    ∧ stGap.bit Reg.QP_CTRL 0 = true
    ∧ stGap.busFree = false
    ∧ stGap.groupGap = some (0 : Nat)
    ∧ stNoGap.nextSelect = some (0 : Nat)
    ∧ stNoGap.bit Reg.QP_CTRL 0 = true
    ∧ stNoGap.busFree = false
    ∧ stNoGap.groupGap = none
    ∧ (wR.nextSelect ≠ some (0 : Nat) ∨ wR.bit Reg.QP_CTRL 0 = false)
    ∧ stGap.queue (0 : Nat) ≠ []
    ∧ stQueuesSlaveAndPins5.qp.chain = some (0 : Nat)
    ∧ stQueuesSlaveAndPins5.qp.misses = []
    ∧ stQueuesSlaveAndPins5.queue (0 : Nat) = (qe : QEnt) :: ([] : List QEnt)
    ∧ (qe : QEnt).links = false
    ∧ stQueuesSlaveAndPins3.qp.chain = none
    ∧ stQueuesSlaveAndPins7.bit (Reg.QP_Q_CFG 3) 24 = true
    ∧ (16 : Nat) ≠ 0
    ∧ (16 : Nat) % (stQueuesSlaveAndPins7.fld (Reg.QP_Q_ENTCTL 3) 8 5 + 1) = 0
    ∧ (16 : Nat) ≤ 64 * (stQueuesSlaveAndPins7.fld (Reg.QP_Q_ENTCTL 3) 8 5 + 1)
    ∧ stQueuesSlaveAndPins7.qp.slave.length + (16 : Nat) / (stQueuesSlaveAndPins7.fld (Reg.QP_Q_ENTCTL 3) 8 5 + 1) ≤ 64
    ∧ ([7, 8] : List Word).length = (16 : Nat) / (stQueuesSlaveAndPins7.fld (Reg.QP_Q_ENTCTL 3) 8 5 + 1)
    ∧ ((9 : Nat) = 0 ∨ (9 : Nat) % (stQueuesSlaveAndPins7.fld (Reg.QP_Q_ENTCTL 3) 8 5 + 1) ≠ 0 ∨ 64 * (stQueuesSlaveAndPins7.fld (Reg.QP_Q_ENTCTL 3) 8 5 + 1) < (9 : Nat) ∨ 64 < stQueuesSlaveAndPins7.qp.slave.length + (9 : Nat) / (stQueuesSlaveAndPins7.fld (Reg.QP_Q_ENTCTL 3) 8 5 + 1))
    ∧ wR.bit (Reg.QP_Q_CFG 3) 24 = false
    ∧ (4 : Nat) < 32
    ∧ (wR.bit (Reg.QP_Q_CFG 3) 24 = false ∨ (4 : Nat) < 30)
    ∧ wR.bit Reg.GPIO_IN (4 : Nat) ≠ (true : Bool)
    ∧ (32 ≤ (4 : Nat) ∨ (wR.bit (Reg.QP_Q_CFG 3) 24 = true ∧ 30 ≤ (4 : Nat)) ∨ wR.bit Reg.GPIO_IN (4 : Nat) = (false : Bool)) := by
  and_intros <;> first | decide +kernel | (unfold pushFits; decide +kernel)

def stSealedWindow0 : State := qp (fun q => { q with lines := [0] }) (xip wR)
def stSealedWindow1 : State := qp (fun q => { q with fill := some 0 }) (xip wR)
def stSealedWindow2 : State := xip wR
def stSealedWindow3 : State := qp (fun q => { q with chain := some 0 }) (xip wR)
def stFillNoWindow : State := qp (fun q => { q with fill := some 0 }) (wR.setBit Reg.QP_CTRL 1 true)

/-- States and operands that meet the hypotheses of QueuedPortAndSealedWindow, in its part sealedWindow, clause by clause. -/
theorem wit_QueuedPortAndSealedWindow_sealedWindow :
    stSealedWindow0.bit Reg.QP_CTRL 1 = true
    ∧ stSealedWindow0.qp.lines.contains ((0 : Nat) % 2 ^ 28 / 256) = true
    ∧ stSealedWindow1.bit Reg.QP_CTRL 1 = true
    ∧ stSealedWindow1.qp.lines.contains ((0 : Nat) % 2 ^ 28 / 256) = false
    ∧ stSealedWindow1.qp.fill = some ((0 : Nat) % 2 ^ 28 / 256)
    ∧ stSealedWindow2.bit Reg.QP_CTRL 1 = true
    ∧ stSealedWindow2.qp.lines.contains ((256 : Nat) % 2 ^ 28 / 256) = false
    ∧ stSealedWindow2.qp.fill = none
    ∧ stSealedWindow2.qp.chain = none
    ∧ stSealedWindow2.qp.misses = []
    ∧ stSealedWindow2.chainFirst = false
    ∧ stSealedWindow3.bit Reg.QP_CTRL 1 = true
    ∧ stSealedWindow3.qp.lines.contains ((0 : Nat) % 2 ^ 28 / 256) = false
    ∧ stSealedWindow3.qp.fill ≠ some ((0 : Nat) % 2 ^ 28 / 256)
    ∧ stSealedWindow3.qp.chain ≠ none
    ∧ wR.bit Reg.QP_CTRL 1 = false
    ∧ stSealedWindow0.awake = true
    ∧ stSealedWindow1.qp.fill = some (0 : Nat)
    ∧ stSealedWindow1.windowOf (0 : Nat) = some (0 : Nat)
    ∧ (stSealedWindow1.tagOk ((0 : Nat) + 1) (0 : Nat) ([1] : List Byte) (lineTag (stSealedWindow1.sealKey (0 + 1)) (0 * 256) (stSealedWindow1.rdN (Reg.QP_WIN_VER (0 + 1 - 1))) [1] : List Byte) = true ∨ stSealedWindow1.tagOk ((0 : Nat) + 1) (0 : Nat) ([1] : List Byte) ([1] : List Byte) = true)
    ∧ stSealedWindow1.qp.chain = none
    ∧ stSealedWindow1.qp.misses = []
    ∧ stSealedWindow1.bit Reg.QP_CTRL 3 = false
    ∧ (0 : Nat) < 2 ^ 24
    ∧ stSealedWindow1.tagOk ((0 : Nat) + 1) (0 : Nat) ([1] : List Byte) (List.replicate 16 9 : List Byte) = false
    ∧ stFillNoWindow.qp.fill = some (0 : Nat)
    ∧ stFillNoWindow.windowOf (0 : Nat) = none
    ∧ stFillNoWindow.qp.chain = none
    ∧ stFillNoWindow.qp.misses = []
    ∧ stFillNoWindow.bit Reg.QP_CTRL 3 = false
    ∧ (stSealedWindow2.qp.fill = none ∨ stSealedWindow2.qp.chain ≠ none) := by
  and_intros <;> first | decide +kernel | exact Or.inl (decide_eq_true rfl) | exact tagOk_long _ _ _ _ _ (by decide)

end Sys2Proof.Tests
end

section
/-!
PROOFS. The helm and the resolution of an order set (R48, R49, R51): the resolution in a normal form, one outcome per order, what each outcome's code says of its order, and what a change of the helm does. They settle O13 and O14.
-/

namespace Sys2Proof.Machine

/-! The resolution of a set, order by order -/

/-- Places of a set are distinct, so a place found in a selection of the set is that of an order selected. -/
theorem any_place_filter {l : List Placed} (hl : (l.map Prod.fst).Nodup) {p : Placed} (hp : p ∈ l) (f : Placed → Bool) :
    (l.filter f).any (fun q => decide (q.1 = p.1)) = f p := by
  rw [Bool.eq_iff_iff, List.any_eq_true]
  constructor
  · rintro ⟨q, hq, hqp⟩
    obtain ⟨hql, hf⟩ := List.mem_filter.mp hq
    exact List.inj_on_of_nodup_map hl hql hp (of_decide_eq_true hqp) ▸ hf
  · exact fun hf => ⟨p, List.mem_filter.mpr ⟨hp, hf⟩, decide_eq_true rfl⟩

/-- A set with the places of its orders. -/
def placed (orders : List Order) : List Placed := (List.range orders.length).zip orders

theorem nodup_places (orders : List Order) : ((placed orders).map Prod.fst).Nodup := by
  unfold placed
  rw [List.map_fst_zip (by simp)]
  exact List.nodup_range

/-- A closing order is no helm order (R42). -/
theorem State.closingOrder_eq_false_of_helmKind (s : State) {o : Order} (h : o.helmKind = true) : s.closingOrder o = false := by
  simp only [Order.helmKind, Bool.or_eq_true, decide_eq_true_eq] at h
  rcases h with h | h <;> simp [State.closingOrder, h]

/-- Step 1 (R51): the orders that R42 admits. -/
def State.admitted (s : State) (orders : List Order) : List Placed :=
  (placed orders).filter (fun p => s.admits p.2.kind p.2.target p.2.value)

/-- Step 2: what the helm orders of a set do. -/
def State.helmOf (s : State) (live : List Placed) : HelmResult :=
  s.helmStep (live.filter (fun p => p.2.helmKind)) [] (live.filter (fun p => p.2.helmKind))

/-- The orders that reach step 5: those for contactors and limits that still count and that neither state, helm nor target turns away. -/
def State.contenders (s : State) (live : List Placed) (holder : Nat) : List Placed :=
  live.filter (fun p => !p.2.helmKind && !(s.counting live p).isEmpty && !(s.closingOrder p.2 && s.stateRefuses p.2)
    && !(s.closingOrder p.2 && decide (p.2.source ≠ holder)) && !(s.closingOrder p.2 && s.targetRefuses p.2))

/-- Step 5: the winner on each target. -/
def State.winsOf (s : State) (live : List Placed) (holder : Nat) : List (Nat × Placed) :=
  allTargets.filterMap (fun t => (s.targetWinner live t (s.contenders live holder)).map (fun w => (t, w)))

/-- The outcome of one order of a set, from the orders admitted, the helm's result and the winners. -/
def State.outcomeOf (s : State) (live : List Placed) (helm : HelmResult) (wins : List (Nat × Placed)) (p : Placed) : Outcome :=
  let o := p.2
  if s.admits o.kind o.target o.value = false then ⟨o, 5, 0xFF, 0, o.kind⟩
  else if o.helmKind = false ∧ s.judged live p = [] then ⟨o, 3, 0xFF, 0, s.orderKind o⟩
  else if s.closingOrder o = true ∧ (s.stateRefuses o = true ∨ o.source = helm.state.cam.helm.holder ∧ s.targetRefuses o = true) then
    ⟨o, 4, 0xFF, 0, s.orderKind o⟩
  else if s.closingOrder o = true ∧ o.source ≠ helm.state.cam.helm.holder then ⟨o, 2, 0xFF, 0, s.orderKind o⟩
  else if o.helmKind then
    (if helm.lost.contains p.1 then ⟨o, 1, helm.named.1, helm.named.2, s.orderKind o⟩ else ⟨o, 0, o.source, o.stamp, s.orderKind o⟩)
  else
    match wins.find? (fun w => (s.judged live p).contains w.1 && decide (w.2.1 ≠ p.1)) with
    | some w => ⟨o, 1, w.2.2.source, w.2.2.stamp, s.orderKind o⟩
    | none => ⟨o, 0, o.source, o.stamp, s.orderKind o⟩

/-- An order judged on some target counts somewhere. -/
theorem State.counting_isEmpty_of_judged (s : State) {live : List Placed} {p : Placed} (h : s.judged live p ≠ []) :
    (s.counting live p).isEmpty = false := by
  rw [List.isEmpty_eq_false_iff]
  exact fun hc => h (by rw [State.judged, hc, List.filter_nil])

/-- The resolution of a set in the order of R51, each order's outcome from the admitted orders, the helm's result and the winners. -/
theorem State.resolveSet_eq (s : State) (orders : List Order) :
    s.resolveSet orders =
      let live := s.admitted orders
      let helm := s.helmOf live
      let wins := s.winsOf live helm.state.cam.helm.holder
      ⟨helm.state, (placed orders).map (s.outcomeOf live helm wins), wins.map (fun w => (w.1, w.2.2))⟩ := by
  unfold State.resolveSet
  extract_lets l bad live gone live2 refusedA live3 helmOrders helm s' live4 noHelm live5 refusedB live6 wins has out live' helm' wins'
  have hhelm : helmOrders = live.filter (fun p => p.2.helmKind) := by
    simp only [helmOrders, live3, live2, List.filter_filter]
    refine List.filter_congr fun p _ => ?_
    cases h : p.2.helmKind
    · rfl
    · simp [s.closingOrder_eq_false_of_helmKind h]
  have hresult : helm = helm' := by simp only [helm, hhelm]; rfl
  have hrest : live6 = s.contenders live s'.cam.helm.holder := by
    simp only [live6, live5, live4, live3, live2, List.filter_filter, State.contenders]
    clear_value live s'
    refine List.filter_congr fun p _ => ?_
    cases p.2.helmKind
    · simp [Bool.and_assoc, Bool.and_comm, Bool.and_left_comm]
    · simp
  have hwins : wins = wins' := by simp only [wins, hrest, s', hresult]; rfl
  have hout : ∀ p ∈ l, out p = s.outcomeOf live helm wins p := by
    intro p hp
    have hplace : ∀ f, has (l.filter f) p = f p := any_place_filter (nodup_places orders) hp
    simp only [out, bad, gone, refusedA, refusedB, noHelm, live5, live4, live3, live2, List.filter_filter]
    simp only [live, List.filter_filter, hplace]
    rw [show l.filter (fun p => s.admits p.2.kind p.2.target p.2.value) = live from rfl, show s' = helm.state from rfl]
    clear_value live wins helm
    -- Where this text is a module of its own, the two final matches differ in their matchers: hence `rfl` after `simp`.
    unfold State.outcomeOf
    cases hfit : s.admits p.2.kind p.2.target p.2.value
    case false => simp [hfit]
    cases hkind : p.2.helmKind
    case true => simp [hfit, hkind, s.closingOrder_eq_false_of_helmKind hkind]
    by_cases hjudged : s.judged live p = []
    · simp [hfit, hkind, hjudged]
    have hcounts := s.counting_isEmpty_of_judged hjudged
    cases hcloses : s.closingOrder p.2
    case false => simp [hfit, hkind, hjudged, hcloses] <;> rfl
    cases hstate : s.stateRefuses p.2
    case true => simp [hfit, hkind, hjudged, hcloses, hcounts, hstate]
    by_cases hholder : p.2.source = helm.state.cam.helm.holder
    · simp [hfit, hkind, hjudged, hcloses, hcounts, hstate, hholder] <;> rfl
    · simp [hfit, hkind, hjudged, hcloses, hcounts, hstate, hholder]
  simp only [s', hresult, hwins, List.map_congr_left hout]
  rfl

/-! Outcomes by code -/

/-- What an outcome says of its order, by its code (R48, R51, R52); `holder` has the helm once the set's helm orders are done. -/
inductive Verdict (s : State) (holder : Nat) (x : Outcome) : Prop
  | invalid (code : x.code = 5) (unfit : s.admits x.order.kind x.order.target x.order.value = false)
  | superseded (code : x.code = 3)
  | refused (code : x.code = 4) (closes : s.closingOrder x.order = true)
    (why : s.stateRefuses x.order = true ∨ x.order.source = holder ∧ s.targetRefuses x.order = true)
  | noHelm (code : x.code = 2) (closes : s.closingOrder x.order = true) (other : x.order.source ≠ holder)
  | settled (code : x.code = 0 ∨ x.code = 1) (helm : s.closingOrder x.order = true → x.order.source = holder)

theorem State.outcomeOf_verdict (s : State) (live : List Placed) (helm : HelmResult) (wins : List (Nat × Placed)) (p : Placed) :
    Verdict s helm.state.cam.helm.holder (s.outcomeOf live helm wins p) := by
  unfold State.outcomeOf
  dsimp only
  split
  case isTrue hunfit => exact .invalid rfl hunfit
  split
  · exact .superseded rfl
  split
  case isTrue hrefused => exact .refused rfl hrefused.1 hrefused.2
  split
  case isTrue hother => exact .noHelm rfl hother.1 hother.2
  next hother =>
    have hhelm (hcloses : s.closingOrder p.2 = true) : p.2.source = helm.state.cam.helm.holder :=
      Decidable.byContradiction fun h => hother ⟨hcloses, h⟩
    split
    · split
      · exact .settled (.inr rfl) hhelm
      · exact .settled (.inl rfl) hhelm
    · split
      · exact .settled (.inr rfl) hhelm
      · exact .settled (.inl rfl) hhelm

theorem State.resolveSet_verdict (s : State) (orders : List Order) {x : Outcome} (hx : x ∈ (s.resolveSet orders).outcomes) :
    Verdict s (s.resolveSet orders).state.cam.helm.holder x := by
  rw [State.resolveSet_eq] at hx ⊢
  obtain ⟨p, -, rfl⟩ := List.mem_map.mp hx
  exact s.outcomeOf_verdict _ _ _ p

/-! Sets of one order -/

theorem State.admitted_singleton (s : State) {o : Order} (h : s.admits o.kind o.target o.value = true) :
    s.admitted [o] = [(0, o)] := by
  simp [State.admitted, placed, h]

/-- An order alone in its set is superseded nowhere. -/
theorem State.counting_singleton (s : State) (p : Placed) : s.counting [p] p = s.covers p.2 := by
  simp [State.counting, State.supersededOn]

theorem State.lt_of_mem_strings {s : State} {t : Nat} (h : t ∈ s.strings) : t < 4 :=
  List.mem_range.mp (List.mem_of_mem_filter h)

/-- R42 admits no order on the pre-charge path alone. -/
theorem State.not_admits_tPre (s : State) {kind : Nat} (hkind : kind ≠ kTake ∧ kind ≠ kRelease) (value : Int) : s.admits kind tPre value = false := by
  simp [State.admits, hkind, isLimit, tPre]

/-- An order on the whole battery is admitted only where a string is configured (R42). -/
theorem State.strings_ne_nil_of_admits {s : State} {kind : Nat} {value : Int} (hkind : kind = kOpen ∨ kind = kClose)
    (h : s.admits kind tBattery value = true) : s.strings ≠ [] := by
  rcases hkind with rfl | rfl <;> simpa [State.admits] using h

/-- An admitted order for a contactor or a limit covers a target other than the pre-charge path. -/
theorem State.covers_judgeable {s : State} {o : Order} (hfit : s.admits o.kind o.target o.value = true) (hkind : o.helmKind = false) :
    ∃ t ∈ s.covers o, t ≠ tPre := by
  rw [State.covers, if_neg (by simp [hkind])]
  split
  · next hbattery =>
    obtain ⟨t, ht⟩ := List.exists_mem_of_ne_nil _ (State.strings_ne_nil_of_admits hbattery.2 (hbattery.1 ▸ hfit))
    exact ⟨t, List.mem_append_left _ ht, Nat.ne_of_lt (Nat.lt_trans (State.lt_of_mem_strings ht) (by decide))⟩
  · refine ⟨o.target, List.mem_singleton_self _, fun hpre => ?_⟩
    rw [hpre, s.not_admits_tPre (by simpa [Order.helmKind] using hkind)] at hfit
    exact Bool.false_ne_true hfit

/-- An admitted order for a contactor or a limit, alone in its set, is judged on some target (R52). -/
theorem State.judged_singleton_ne_nil {s : State} {p : Placed} (hfit : s.admits p.2.kind p.2.target p.2.value = true)
    (hkind : p.2.helmKind = false) : s.judged [p] p ≠ [] := by
  obtain ⟨t, ht, hpre⟩ := State.covers_judgeable hfit hkind
  rw [State.judged, State.counting_singleton]
  exact List.ne_nil_of_mem (List.mem_filter.mpr ⟨ht, decide_eq_true hpre⟩)

/-- An order judged on some target, not closing, is applied where no other order wins a target. -/
theorem State.outcomeOf_unopposed {s : State} {live : List Placed} {helm : HelmResult} {wins : List (Nat × Placed)} {p : Placed}
    (hfit : s.admits p.2.kind p.2.target p.2.value = true) (hkind : p.2.helmKind = false) (hopen : s.closingOrder p.2 = false)
    (hjudged : s.judged live p ≠ []) (hwins : ∀ w ∈ wins, w.2.1 = p.1) :
    s.outcomeOf live helm wins p = ⟨p.2, 0, p.2.source, p.2.stamp, s.orderKind p.2⟩ := by
  have hnone : wins.find? (fun w => (s.judged live p).contains w.1 && decide (w.2.1 ≠ p.1)) = none :=
    List.find?_eq_none.mpr fun w hw => by simp [hwins w hw]
  simp only [State.outcomeOf, hfit, hkind, hopen, hjudged, hnone, reduceCtorEq, false_and, and_false, if_false]

theorem winner_mem {l : List Placed} {w : Placed} (h : winner l = some w) : w ∈ l := by
  induction l generalizing w with
  | nil => cases h
  | cons p t ih =>
    rw [winner] at h
    split at h
    · exact Option.some.inj h ▸ List.mem_cons_self
    · next q hq =>
      split at h
      · exact Option.some.inj h ▸ List.mem_cons_self
      · exact Option.some.inj h ▸ List.mem_cons_of_mem _ (ih hq)

theorem State.targetWinner_mem {s : State} {live here : List Placed} {t : Nat} {w : Placed} (h : s.targetWinner live t here = some w) : w ∈ here := by
  have hw := winner_mem h
  split at hw
  · exact List.mem_of_mem_filter hw
  · exact List.mem_of_mem_filter (List.mem_of_mem_filter hw)

/-- The winner on a target is one of the orders admitted. -/
theorem State.winsOf_mem {s : State} {live : List Placed} {holder : Nat} {w : Nat × Placed} (h : w ∈ s.winsOf live holder) : w.2 ∈ live := by
  obtain ⟨t, -, ht⟩ := List.mem_filterMap.mp h
  obtain ⟨q, hq, rfl⟩ := Option.map_eq_some_iff.mp ht
  exact List.mem_of_mem_filter (State.targetWinner_mem hq)

/-- An admitted order that is neither a helm order nor closing is applied when alone in its set (R48). -/
theorem State.resolveSet_protective (s : State) {o : Order} (hkind : o.helmKind = false) (hfit : s.admits o.kind o.target o.value = true)
    (hopen : s.closingOrder o = false) :
    (s.resolveSet [o]).outcomes = [⟨o, 0, o.source, o.stamp, s.orderKind o⟩] ∧ (s.resolveSet [o]).state = s := by
  have hhelm : s.helmOf [(0, o)] = ⟨s, [], []⟩ := by simp [State.helmOf, hkind, State.helmStep]
  have hwins : ∀ w ∈ s.winsOf [(0, o)] s.cam.helm.holder, w.2.1 = 0 := fun w hw => by
    rw [List.mem_singleton.mp (State.winsOf_mem hw)]
  rw [State.resolveSet_eq, s.admitted_singleton hfit]
  dsimp only
  rw [hhelm]
  exact ⟨congrArg (fun x => [x]) (State.outcomeOf_unopposed (p := (0, o)) hfit hkind hopen (State.judged_singleton_ne_nil hfit hkind) hwins), rfl⟩

/-- Settles O13: a closing order turned away by nothing has the holder for its source, and only closing orders are turned away for want of the helm or by a state. -/
theorem closingOrdersNeedTheHelm : Obligations.ClosingOrdersNeedTheHelm := by
  unfold Obligations.ClosingOrdersNeedTheHelm
  refine ⟨fun s l x hx hcode hcloses => ?_, fun s l x hx hopen => ?_, fun s o _ _ hkind hfit hopen => s.resolveSet_protective hkind hfit hopen⟩
  · cases s.resolveSet_verdict l hx with
    | settled _ helm => exact helm hcloses
    | invalid code | superseded code | refused code | noHelm code => omega
  · cases s.resolveSet_verdict l hx with
    | refused _ closes | noHelm _ closes => exact absurd closes (by simp [hopen])
    | invalid code | superseded code | settled code => omega

/-! The helm -/

theorem State.admits_of_helmKind (s : State) {o : Order} (h : o.helmKind = true) : s.admits o.kind o.target o.value = true := by
  simp only [Order.helmKind, Bool.or_eq_true, decide_eq_true_eq] at h
  simp [State.admits, h]

theorem Order.helmKind_of_take {o : Order} (h : o.kind = kTake) : o.helmKind = true := by simp [Order.helmKind, h]

theorem Order.helmKind_of_release {o : Order} (h : o.kind = kRelease) : o.helmKind = true := by simp [Order.helmKind, h]

/-- A helm order is turned away by nothing but the helm's holder or a competing one (R51, R421). -/
theorem State.outcomeOf_helm (s : State) (live : List Placed) (helm : HelmResult) (wins : List (Nat × Placed)) {p : Placed} (h : p.2.helmKind = true) :
    s.outcomeOf live helm wins p =
      if p.1 ∈ helm.lost then ⟨p.2, 1, helm.named.1, helm.named.2, s.orderKind p.2⟩ else ⟨p.2, 0, p.2.source, p.2.stamp, s.orderKind p.2⟩ := by
  simp [State.outcomeOf, h, s.admits_of_helmKind h, s.closingOrder_eq_false_of_helmKind h]

/-- A helm order alone in its set leads to what step 2 makes of it. -/
theorem State.resolveSet_helm (s : State) {o : Order} {r : HelmResult} (h : o.helmKind = true) (hr : s.helmOf [(0, o)] = r) :
    (s.resolveSet [o]).state = r.state
      ∧ (s.resolveSet [o]).outcomes = [if 0 ∈ r.lost then ⟨o, 1, r.named.1, r.named.2, s.orderKind o⟩ else ⟨o, 0, o.source, o.stamp, s.orderKind o⟩] := by
  rw [State.resolveSet_eq, s.admitted_singleton (s.admits_of_helmKind h), ← hr]
  exact ⟨rfl, congrArg (fun x => [x]) (s.outcomeOf_helm _ _ _ (p := (0, o)) h)⟩

theorem State.helmOf_take_won (s : State) {o : Order} (hkind : o.kind = kTake) (hother : o.source ≠ s.cam.helm.holder)
    (hwins : s.cam.helm.holder = 0xFF ∨ o.rank < s.cam.helm.rank) : s.helmOf [(0, o)] = ⟨s.takeHelm o, [], [(0, o)]⟩ := by
  simp [State.helmOf, State.helmStep, Order.helmKind_of_take hkind, hkind, hother, hwins]

theorem State.helmOf_take_lost (s : State) {o : Order} (hkind : o.kind = kTake) (hother : o.source ≠ s.cam.helm.holder)
    (hheld : s.cam.helm.holder ≠ 0xFF) (hrank : s.cam.helm.rank ≤ o.rank) : s.helmOf [(0, o)] = ⟨s, [0], []⟩ := by
  simp [State.helmOf, State.helmStep, Order.helmKind_of_take hkind, hkind, hother, hheld, hrank]

theorem State.helmOf_release (s : State) {o : Order} (hkind : o.kind = kRelease) :
    s.helmOf [(0, o)] = ⟨if o.source = s.cam.helm.holder then s.setHelm Helm.free 3 else s, [], []⟩ := by
  simp [State.helmOf, State.helmStep, Order.helmKind_of_release hkind, hkind]

/-! What the change of the helm leaves -/

@[simp] theorem State.setHelm_helm (s : State) (h : Helm) (c : Nat) : (s.setHelm h c).cam.helm = h := by simp [State.setHelm]
@[simp] theorem State.setHelm_con0 (s : State) (h : Helm) (c : Nat) : (s.setHelm h c).con0 = s.con0 := by simp [State.setHelm]
@[simp] theorem State.setHelm_con1 (s : State) (h : Helm) (c : Nat) : (s.setHelm h c).con1 = s.con1 := by simp [State.setHelm]
@[simp] theorem State.setHelm_parts (s : State) (h : Helm) (c : Nat) : (s.setHelm h c).parts = s.parts := by simp [State.setHelm]
@[simp] theorem State.setHelm_inForce (s : State) (h : Helm) (c : Nat) : (s.setHelm h c).inForce = s.inForce := by simp [State.setHelm]
@[simp] theorem State.setHelm_crew (s : State) (h : Helm) (c : Nat) : (s.setHelm h c).crew = s.crew := by simp [State.setHelm]

theorem State.con_eq_of {s t : State} (h0 : t.con0 = s.con0) (h1 : t.con1 = s.con1) (p : Nat) : t.con p = s.con p := by
  rw [State.con, State.con, h0, h1]

/-- A parameter is read from those in force. -/
theorem State.parS_of_inForce {s t : State} (h : t.inForce = s.inForce) (n : PName) (i : Nat) : t.parS n i = s.parS n i := by
  rw [State.parS, State.parS, State.par, State.par, h]

theorem State.parI_of_inForce {s t : State} (h : t.inForce = s.inForce) (n : PName) (i : Nat) : t.parI n i = s.parI n i := by
  rw [State.parI, State.parI, State.parN, State.parN, State.par, State.par, h]

/-- Whether Camlan serves a port rests on the partitions' grants alone. -/
theorem State.conServed_of_parts {s t : State} (h : t.parts = s.parts) (p : Nat) : t.conServed p = s.conServed p := by
  have hgranted (k : Nat) : t.granted k .misc 0 = s.granted k .misc 0 := by
    rw [State.granted, State.granted, State.grant, State.grant, h]
  simp only [State.conServed, State.con1Granted, hgranted]

/-! Who is told (R49) -/

/-- A notice on a served port that wants notices, with no line partly received and room in its buffer, is queued (R327, R329). -/
theorem State.notice_queued (s : State) {p : Nat} (body : String) (hserved : s.conServed p = true) (hwanted : s.parS .conNotify p ≠ 0)
    (hline : (s.con p).line = []) (hroom : (s.con p).outBytes ≤ 3072) :
    ((s.notice p body).con p).out = (s.con p).out ++ [⟨(s.con p).noteTag, false, true, false, body⟩] := by
  simp [State.notice, hserved, hwanted, hline, Nat.not_lt.mpr hroom]

/-- A number stored is read back. -/
theorem State.ld_st (s : State) (a : Nat) {n v : Nat} (h : v < 256 ^ n) : (s.st a n v).ld a n = v := by
  have hbytes := s.rdBytes_wrBytes a (leBytes n v)
  rw [leBytes_length] at hbytes
  rw [State.ld, State.st, hbytes, leNat_leBytes_of_lt h]

theorem State.rdBytes_of_mem {s t : State} (h : t.mem = s.mem) (a n : Nat) : t.rdBytes a n = s.rdBytes a n := by
  induction n generalizing a with
  | zero => rfl
  | succ n ih => rw [State.rdBytes, State.rdBytes, ih, State.rdB, State.rdB, h]

theorem State.ld_setEvp (s : State) (k bits a n : Nat) : (s.setEvp k bits).ld a n = s.ld a n :=
  congrArg leNat (State.rdBytes_of_mem (s.orReg_mem _ _) a n)

theorem State.takeHelm_helm (s : State) (o : Order) : (s.takeHelm o).cam.helm = ⟨o.source, o.rank, o.stamp, s.strokeNo⟩ := by
  unfold State.takeHelm
  dsimp only
  split
  · simp [State.setEvp]
  · split
    · simp
    · split <;> simp [State.crewHelmTaken]

/-- A partition finds the new holder in its mailbox and an event bit set. -/
theorem State.takeHelm_partition (s : State) {o : Order} {k : Nat} (hold : partOfSource s.cam.helm.holder = some k) (hsrc : o.source < 256) :
    (s.takeHelm o).ld (mailbox k + 0x808) 4 = o.source + 0x1000 + s.strokeNo % 65536 * 65536 ∧ (s.takeHelm o).bit (Reg.PART_EVP (k - 1)) 2 = true := by
  simp only [State.takeHelm, hold]
  rw [State.ld_setEvp, State.ld_st _ _ (by omega), State.setEvp, State.bit_orReg _ _ _ _ (by decide)]
  exact ⟨rfl, Bool.or_true _⟩

theorem partOfSource_of_port {src p : Nat} (h : portOfSource src = some p) : partOfSource src = none := by
  unfold portOfSource at h
  split at h
  · next hsrc => exact if_neg (by omega)
  · cases h

/-- A console is told by a notice. -/
theorem State.takeHelm_console (s : State) {o : Order} {p : Nat} (hold : portOfSource s.cam.helm.holder = some p) (hserved : s.conServed p = true)
    (hwanted : s.parS .conNotify p ≠ 0) (hline : (s.con p).line = []) (hroom : (s.con p).outBytes ≤ 3072) :
    ((s.takeHelm o).con p).out = (s.con p).out ++ [⟨(s.con p).noteTag, false, true, false, "helm taken by=" ++ hex0x o.source⟩] := by
  simp only [State.takeHelm, partOfSource_of_port hold, hold]
  generalize (if s.cam.helm.holder = 0xFF then 1 else 2) = cause
  have hcon := State.con_eq_of (s.setHelm_con0 ⟨o.source, o.rank, o.stamp, s.strokeNo⟩ cause) (s.setHelm_con1 _ cause) p
  rw [State.notice_queued, hcon]
  · rwa [State.conServed_of_parts (s.setHelm_parts _ _)]
  · rwa [State.parS_of_inForce (s.setHelm_inForce _ _)]
  · rwa [hcon]
  · rwa [hcon]

/-- A crew leader is told by a frame of the crew link (log entry 126). -/
theorem State.takeHelm_crew (s : State) {o : Order} (hold : s.cam.helm.holder = 0x18) :
    (s.takeHelm o).crew = { s.crew with outs := s.crew.outs ++ [s.crewFrame s.crew.lastRef 0 (u8 0x10 ++ [0, 0] ++ u8 o.source) 0xFF 0 0 0 0] } := by
  simp [State.takeHelm, hold, partOfSource, portOfSource, State.crewHelmTaken, State.crewFrame, State.parI_of_inForce (s.setHelm_inForce _ _)]

/-- Settles O14: alone in its set a helm order is decided by step 2 of the resolution, and a TAKE_HELM that succeeds tells the former holder. -/
theorem helmIsTakenAndReleased : Obligations.HelmIsTakenAndReleased := by
  unfold Obligations.HelmIsTakenAndReleased
  refine ⟨fun s o hkind hother hwins => ?_, fun s o hkind hother hheld hrank => ?_, fun s o hkind hholder => ?_, fun s o hkind hother => ?_⟩
  · obtain ⟨hstate, hout⟩ := s.resolveSet_helm (Order.helmKind_of_take hkind) (s.helmOf_take_won hkind hother hwins)
    rw [hstate]
    exact ⟨hout, s.takeHelm_helm o, fun k => s.takeHelm_partition, fun p => s.takeHelm_console, s.takeHelm_crew⟩
  · obtain ⟨hstate, hout⟩ := s.resolveSet_helm (Order.helmKind_of_take hkind) (s.helmOf_take_lost hkind hother hheld hrank)
    exact ⟨hout, hstate⟩
  · obtain ⟨hstate, -⟩ := s.resolveSet_helm (Order.helmKind_of_release hkind) (s.helmOf_release hkind)
    rw [hstate, if_pos hholder, State.setHelm_helm]
  · obtain ⟨hstate, -⟩ := s.resolveSet_helm (Order.helmKind_of_release hkind) (s.helmOf_release hkind)
    rw [hstate, if_neg hother]

end Sys2Proof.Machine
end

section
/-!
PROOFS. The charger's pause for headroom (R145): what an entry into a charger state changes, what a change of the pause reasons does in each state, and the headroom that a charger needs. They settle O28.
-/

namespace Sys2Proof.Machine

/-! Entering a charger state (Table 6-4) -/

theorem State.logKpa_eq (s : State) (code : Nat) (args : List Byte) : LogFrame s (s.logKpa code args) :=
  LogFrame.ite (State.logIn_eq s 0 code 0 args) (Eq.refl s)

theorem RegsBut.logKpa {s t : State} {l : List Nat} (code : Nat) (args : List Byte) (h : RegsBut s t l) (hlog : ∀ a, a ∈ logRegs 0 → a ∈ l) :
    RegsBut s (t.logKpa code args) l :=
  RegsBut.ite (fun _ => h.logS code args hlog) (fun _ => h)

theorem State.selectSource_eq (s : State) (cause : Nat) : LogFrame s (s.selectSource cause) :=
  LogFrame.ite (Eq.refl s) (((LogFrame.setFld (Eq.refl s) _ _ _ _).setBit _ _ _).trans (State.logKpa_eq _ _ _))

/-- Where the selection of a source and its record are shown (R131). -/
def sourceShown : List Nat := [Reg.KPA_STAT, Reg.KPA_IRQ] ++ logRegs 0

theorem RegsBut.selectSource {s t : State} (cause : Nat) (h : RegsBut s t sourceShown) : RegsBut s (t.selectSource cause) sourceShown :=
  RegsBut.ite (fun _ => h) (fun _ => ((h.setFld _ _ _ (by decide)).setBit _ _ (by decide)).logKpa _ _ (by decide))

/-- The state entered with its flags and its record, before the charger's current and the source follow it. -/
def State.chargeShown (s : State) (new : Nat) : State :=
  let t := (s.setFld Reg.KPA_CHGST 0 4 new).setKflag 6 (decide (new = cFault))
  let t := t.setKflag 5 (t.charging && !t.kpa.ov)
  let phase (n : Nat) : Bool := (decide (cTrickle ≤ n) && decide (n ≤ cCv)) || decide (n = cPause)
  if phase s.chg || phase new then t.logKpa 0x0607 (u8 s.chg ++ u8 new ++ u8 (t.fld Reg.KPA_CHGST 4 3)) else t

theorem State.toCharge_self {s : State} {n : Nat} (h : s.chg = n) : s.toCharge n = s := if_pos h

theorem State.toCharge_of_ne {s : State} {n : Nat} (h : s.chg ≠ n) : s.toCharge n = (s.chargeShown n).setCurrent.selectSource 5 := if_neg h

theorem State.chargeShown_eq (s : State) (n : Nat) : LogFrame s (s.chargeShown n) :=
  have h := ((LogFrame.setFld (Eq.refl s) Reg.KPA_CHGST 0 4 n).setBit _ _ _).setBit _ _ _
  LogFrame.ite (h.trans (State.logKpa_eq _ _ _)) h

theorem State.chargeShown_regs (s : State) (n : Nat) : RegsBut (s.setFld Reg.KPA_CHGST 0 4 n) (s.chargeShown n) sourceShown :=
  have h := ((RegsBut.refl (s.setFld Reg.KPA_CHGST 0 4 n) sourceShown).setBit _ _ (by decide)).setBit _ _ (by decide)
  RegsBut.ite (fun _ => h.logKpa _ _ (by decide)) (fun _ => h)

/-- Beside registers and logbook an entry changes only the charger's current. -/
theorem State.toCharge_eq (s : State) (n : Nat) : LogFrame (s.setKpa { s.kpa with setMa := (s.toCharge n).kpa.setMa }) (s.toCharge n) := by
  by_cases h : s.chg = n
  · rw [State.toCharge_self h]
    rfl
  · rw [State.toCharge_of_ne h]
    have hcurrent := State.selectSource_eq (s.chargeShown n).setCurrent 5
    have hshown := State.chargeShown_eq s n
    rw [hcurrent, State.setCurrent]
    generalize State.chargeMa _ = ma
    rw [hshown]
    rfl

/-- An entry shows the new state in KPA.CHGST.STATE alone; the rest is where the source is shown. -/
theorem State.toCharge_regs {s : State} {n : Nat} (h : s.chg ≠ n) : RegsBut (s.setFld Reg.KPA_CHGST 0 4 n) (s.toCharge n) sourceShown := by
  rw [State.toCharge_of_ne h]
  exact (s.chargeShown_regs n).trans (RegsBut.selectSource 5 (RegsBut.of_regs rfl))

theorem State.rd_chgst_toCharge {s : State} {n : Nat} (h : s.chg ≠ n) :
    (s.toCharge n).rd Reg.KPA_CHGST = (s.setFld Reg.KPA_CHGST 0 4 n).rd Reg.KPA_CHGST :=
  State.toCharge_regs h Reg.KPA_CHGST (by decide)

theorem State.chg_toCharge (s : State) {n : Nat} (hn : n < 16) : (s.toCharge n).chg = n := by
  by_cases h : s.chg = n
  · rw [State.toCharge_self h, h]
  · rw [State.chg, State.fld_of_rd (State.rd_chgst_toCharge h), State.fld_setFld_self _ _ (by decide)]
    exact Nat.mod_eq_of_lt hn

theorem State.reason_toCharge {s : State} {n : Nat} (h : s.chg ≠ n) : (s.toCharge n).fld Reg.KPA_CHGST 8 4 = s.fld Reg.KPA_CHGST 8 4 := by
  rw [State.fld_of_rd (State.rd_chgst_toCharge h), State.fld_setFld_other _ _ (by decide) (by decide)]

@[simp] theorem State.pause_toCharge (s : State) (n : Nat) : (s.toCharge n).kpa.pause = s.kpa.pause :=
  (congrArg (fun t => t.kpa.pause) (s.toCharge_eq n) :)

@[simp] theorem State.phase_toCharge (s : State) (n : Nat) : (s.toCharge n).kpa.phase = s.kpa.phase :=
  (congrArg (fun t => t.kpa.phase) (s.toCharge_eq n) :)

/-! What the charger leaves alone -/

theorem chargerFrame.refl (s : State) : chargerFrame s s := ⟨RegsBut.refl _ _, SameMem.refl _, rfl, rfl, rfl⟩

theorem chargerFrame.trans {s t u : State} (h : chargerFrame s t) (k : chargerFrame t u) : chargerFrame s u := by
  obtain ⟨hregs, hmem, hnv, hcam, hpower⟩ := h
  obtain ⟨kregs, kmem, knv, kcam, kpower⟩ := k
  exact ⟨hregs.trans kregs, fun a => (kmem a).trans (hmem a), knv.trans hnv, kcam.trans hcam, kpower.trans hpower⟩

theorem State.setKpa_frame (s : State) (k : KpaSt) : chargerFrame s (s.setKpa k) := ⟨RegsBut.of_regs rfl, SameMem.of_mem rfl, rfl, rfl, rfl⟩

theorem State.setFld_chgst_frame (s : State) (lo w v : Nat) : chargerFrame s (s.setFld Reg.KPA_CHGST lo w v) :=
  ⟨(RegsBut.refl s _).setFld lo w v (by decide), SameMem.of_mem rfl, rfl, rfl, rfl⟩

theorem State.toCharge_frame (s : State) (n : Nat) : chargerFrame s (s.toCharge n) := by
  by_cases h : s.chg = n
  · rw [State.toCharge_self h]
    exact chargerFrame.refl s
  · obtain ⟨hstate, -, -, -, -⟩ := s.setFld_chgst_frame 0 4 n
    have hrest := (State.toCharge_regs h).mono (m := [Reg.KPA_MEAS2, Reg.KPA_MEAS3] ++ kpaShown) (by decide)
    have heq := s.toCharge_eq n
    exact ⟨hstate.trans hrest, SameMem.of_mem (congrArg State.mem heq :), (congrArg State.nv heq :), (congrArg State.cam heq :),
      (congrArg State.power heq :)⟩

/-! A change of the pause reasons (Table 6-4) -/

/-- The charger takes no current in PAUSE. -/
theorem State.charging_of_paused {s : State} (h : s.chg = cPause) : s.charging = false := by simp [State.charging, h, cTrickle, cCv, cPause]

theorem State.not_paused_of_charging {s : State} (h : s.charging = true) : s.chg ≠ cPause := fun hpause =>
  Bool.false_ne_true ((State.charging_of_paused hpause).symm.trans h)

/-- A reason stops a charge: PAUSE, with the phase left, and the REASON field as it was. -/
theorem State.repause_charging {s : State} {p : Nat} (h : s.charging = true) (hp : p ≠ 0) :
    (s.repause p).chg = cPause ∧ (s.repause p).kpa.phase = s.chg ∧ (s.repause p).kpa.pause = p
      ∧ (s.repause p).fld Reg.KPA_CHGST 8 4 = s.fld Reg.KPA_CHGST 8 4 ∧ chargerFrame s (s.repause p) := by
  have hpaused : s.repause p = (s.setKpa { s.kpa with pause := p, phase := s.chg }).toCharge cPause := by simp [State.repause, h, hp]
  rw [hpaused]
  exact ⟨State.chg_toCharge _ (by decide), State.phase_toCharge _ _, State.pause_toCharge _ _,
    State.reason_toCharge (State.not_paused_of_charging h :), chargerFrame.trans (s.setKpa_frame _) (State.toCharge_frame _ _)⟩

theorem State.repause_charging_none {s : State} (h : s.charging = true) : s.repause 0 = s.setKpa { s.kpa with pause := 0, phase := s.chg } := by
  simp [State.repause, h]

theorem State.repause_paused {s : State} {p : Nat} (h : s.chg = cPause) (hp : p ≠ 0) : s.repause p = s.setKpa { s.kpa with pause := p } := by
  simp [State.repause, State.charging_of_paused h, h, hp]

theorem State.repause_paused_none {s : State} (h : s.chg = cPause) : s.repause 0 = (s.setKpa { s.kpa with pause := 0 }).toCharge s.kpa.phase := by
  simp [State.repause, State.charging_of_paused h, h, State.setKpa]

/-! The headroom (R145) -/

/-- The headroom the charger needs [mV]: 1.5 V, and 2.0 V while a pause for headroom stands. -/
def State.headroomMv (s : State) : Nat := if getField s.kpa.pause 2 1 = 1 then 2000 else 1500

/-- Short of headroom, a charger that charges shows the reason (its code: log entry 1) and pauses for it. -/
theorem doChargeHeadroom_short {s : State} {kvin mv : Nat} (h : kvin < mv + s.headroomMv) :
    doChargeHeadroom s kvin mv =
      (if s.charging then s.setFld Reg.KPA_CHGST 8 4 (kpaCode 0x703C 9) else s).repause (putField s.kpa.pause 2 1 1) := by
  unfold State.headroomMv at h
  unfold doChargeHeadroom
  split at h
  · next hheld => cases hcharging : s.charging <;> simp [hheld, h]
  · next hheld => cases hcharging : s.charging <;> simp [hheld, h]

/-- With enough of it, headroom is no reason to pause. -/
theorem doChargeHeadroom_enough {s : State} {kvin mv : Nat} (h : mv + s.headroomMv ≤ kvin) :
    doChargeHeadroom s kvin mv = s.repause (putField s.kpa.pause 2 1 0) := by
  unfold State.headroomMv at h
  unfold doChargeHeadroom
  split at h
  · next hheld => simp [hheld, Nat.not_lt.mpr h]
  · next hheld => simp [hheld, Nat.not_lt.mpr h]

/-- A pause reason set is a reason that stands. -/
theorem putField_headroom_ne_zero (p : Nat) : putField p 2 1 1 ≠ 0 := fun h => by
  have hset := getField_putField_self p 2 1 1
  rw [h] at hset
  exact absurd hset (by decide)

/-- A charging charger short of headroom enters PAUSE, keeps its phase and shows the reason. -/
theorem doChargeHeadroom_pauses {s : State} {kvin mv : Nat} (hcharging : s.charging = true) (hshort : kvin < mv + 1500) :
    (doChargeHeadroom s kvin mv).chg = cPause ∧ (doChargeHeadroom s kvin mv).kpa.phase = s.chg
      ∧ getField (doChargeHeadroom s kvin mv).kpa.pause 2 1 = 1 ∧ (doChargeHeadroom s kvin mv).fld Reg.KPA_CHGST 8 4 = kpaCode 0x703C 9 % 16
      ∧ chargerFrame s (doChargeHeadroom s kvin mv) := by
  have hneed : kvin < mv + s.headroomMv := by
    unfold State.headroomMv
    split <;> omega
  have hchg : (s.setFld Reg.KPA_CHGST 8 4 (kpaCode 0x703C 9)).chg = s.chg := State.fld_setFld_other s _ (by decide) (by decide)
  have hstill : (s.setFld Reg.KPA_CHGST 8 4 (kpaCode 0x703C 9)).charging = true := by rwa [State.charging, hchg]
  obtain ⟨hpaused, hphase, hpause, hreason, hframe⟩ := State.repause_charging hstill (putField_headroom_ne_zero s.kpa.pause)
  rw [doChargeHeadroom_short hneed, if_pos hcharging, hpause]
  exact ⟨hpaused, hphase.trans hchg, getField_putField_self _ 2 1 1, hreason.trans (State.fld_setFld_self s _ (by decide)),
    chargerFrame.trans (s.setFld_chgst_frame _ _ _) hframe⟩

/-- A charger with no reason to pause and 1.5 V of headroom goes on. -/
theorem doChargeHeadroom_goes_on {s : State} {kvin mv : Nat} (hcharging : s.charging = true) (hnone : s.kpa.pause = 0) (henough : mv + 1500 ≤ kvin) :
    doChargeHeadroom s kvin mv = s.setKpa { s.kpa with pause := 0, phase := s.chg } := by
  have hneed : s.headroomMv = 1500 := by simp [State.headroomMv, hnone, getField]
  rw [doChargeHeadroom_enough (hneed ▸ henough), hnone]
  exact State.repause_charging_none hcharging

/-- A pause for headroom stands below 2.0 V. -/
theorem doChargeHeadroom_stays_paused {s : State} {kvin mv : Nat} (hpaused : s.chg = cPause) (hheld : getField s.kpa.pause 2 1 = 1)
    (hshort : kvin < mv + 2000) : doChargeHeadroom s kvin mv = s.setKpa { s.kpa with pause := putField s.kpa.pause 2 1 1 } := by
  have hneed : s.headroomMv = 2000 := if_pos hheld
  have hidle : ¬s.charging = true := by simp [State.charging_of_paused hpaused]
  rw [doChargeHeadroom_short (hneed ▸ hshort), if_neg hidle, State.repause_paused hpaused (putField_headroom_ne_zero _)]

/-- A pause for headroom alone ends at 2.0 V in the phase left. -/
theorem doChargeHeadroom_resumes {s : State} {kvin mv : Nat} (hpaused : s.chg = cPause) (honly : s.kpa.pause = 4) (henough : mv + 2000 ≤ kvin) :
    doChargeHeadroom s kvin mv = (s.setKpa { s.kpa with pause := 0 }).toCharge s.kpa.phase := by
  have hneed : s.headroomMv = 2000 := by simp [State.headroomMv, honly, getField]
  rw [doChargeHeadroom_enough (hneed ▸ henough), honly]
  exact State.repause_paused_none hpaused

theorem does_chargeHeadroom {s : State} {kvin mv : Nat} {P : State → Prop} (h : P (doChargeHeadroom s kvin mv)) :
    Does (.chargeHeadroom kvin mv) s P := ⟨_, rfl, h⟩

/-- Settles O28: the reasons that stand, and the headroom needed beside them, decide between the charger's phase and PAUSE. -/
theorem headroomPausesTheCharger : Obligations.HeadroomPausesTheCharger := by
  unfold Obligations.HeadroomPausesTheCharger
  refine ⟨fun s kvin mv hcharging hshort => does_chargeHeadroom ?_, fun s kvin mv hcharging hnone henough => does_chargeHeadroom ?_,
    fun s kvin mv hpaused hheld hshort => does_chargeHeadroom ?_, fun s kvin mv hpaused honly hphase henough => does_chargeHeadroom ?_⟩
  · exact doChargeHeadroom_pauses hcharging hshort
  · rw [doChargeHeadroom_goes_on hcharging hnone henough]
    exact ⟨rfl, rfl, s.setKpa_frame _⟩
  · rw [doChargeHeadroom_stays_paused hpaused hheld hshort]
    exact ⟨hpaused, s.setKpa_frame _⟩
  · rw [doChargeHeadroom_resumes hpaused honly henough]
    exact ⟨State.chg_toCharge _ (by omega), State.pause_toCharge _ _, chargerFrame.trans (s.setKpa_frame _) (State.toCharge_frame _ _)⟩

end Sys2Proof.Machine
end

section
/-!
PROOFS. A break on a console and the wake from hibernation (R320, R285): what a change of one port leaves of the other, what sending the withheld notices changes of a port, the state a break leaves, and what an asserted reset and a wake show. They settle O44.
-/

namespace Sys2Proof.Machine

/-! One port beside the other -/

theorem State.setCon_setCon (s : State) (p : Nat) (c d : ConSt) : (s.setCon p c).setCon p d = s.setCon p d := by
  unfold State.setCon
  split <;> rfl

theorem State.con_setCon_other (s : State) {p : Nat} (c : ConSt) (hp : p ≤ 1) : (s.setCon p c).con (1 - p) = s.con (1 - p) := by
  obtain rfl | rfl := Nat.le_one_iff_eq_zero_or_eq_one.mp hp <;> rfl

/-! The notices withheld (R327) -/

/-- The port p of s once withheld notices have moved to its output buffer or, that being full, were dropped. -/
def State.NoticesMoved (s : State) (p : Nat) (t : State) : Prop :=
  ∃ out dropped, t = s.setCon p { s.con p with withheld := [], out := out, dropped := dropped }

/-- Sending the withheld notices changes only those, the output buffer and the count of dropped notices. -/
theorem State.flushNotices_moves (s : State) (p : Nat) : s.NoticesMoved p (s.flushNotices p) := by
  unfold State.flushNotices
  refine List.foldlRecOn _ _ (motive := s.NoticesMoved p) ⟨_, _, rfl⟩ fun t ht b _ => ?_
  obtain ⟨out, dropped, rfl⟩ := ht
  dsimp only
  split
  case isTrue => exact ⟨out, dropped + 1, by rw [State.con_setCon, State.setCon_setCon]⟩
  case isFalse => exact ⟨_, dropped, by rw [State.con_setCon, State.setCon_setCon]⟩

/-! The break (R320) -/

/-- The registers of a port once it has seen a break: the line low, STAT.BREAK and its interrupt. -/
def State.breakShown (s : State) (p : Nat) : State :=
  ((s.setBit (Reg.CON_STAT p) 3 false).setBit (Reg.CON_STAT p) 10 true).setBit (Reg.CON_IRQ p) 3 true

theorem State.con_breakShown (s : State) (p q : Nat) : (s.breakShown p).con q = s.con q := State.con_eq_of rfl rfl q

theorem conIrq_ne_conStat (p : Nat) : Reg.CON_IRQ p ≠ Reg.CON_STAT p := by
  unfold Reg.CON_IRQ Reg.CON_STAT
  omega

theorem State.breakShown_break (s : State) (p : Nat) : (s.breakShown p).bit (Reg.CON_STAT p) 10 = true := by
  rw [State.breakShown, State.bit_setBit_ne _ _ _ _ (conIrq_ne_conStat p), State.bit_setBit_self _ _ (by decide)]

theorem State.breakShown_irq (s : State) (p : Nat) : (s.breakShown p).bit (Reg.CON_IRQ p) 3 = true := State.bit_setBit_self _ _ (by decide)

theorem State.breakShown_regs (s : State) (p : Nat) : RegsBut s (s.breakShown p) [Reg.CON_STAT p, Reg.CON_IRQ p] :=
  (((RegsBut.refl s _).setBit _ _ (by simp)).setBit _ _ (by simp)).setBit _ _ (by simp)

/-- A break of a powered part shows in the port's registers; of the port itself the received line and the count of framing errors are gone, and its withheld notices move. -/
theorem doConsoleBreak_eq {s : State} {p : Nat} (hp : p ≤ 1) (hon : s.powered = true) :
    ∃ out dropped, doConsoleBreak s p = (s.breakShown p).setCon p
      { s.con p with line := [], tooLong := false, fe := 0, withheld := [], out := out, dropped := dropped } := by
  have hacts : ¬(1 < p ∨ s.powered = false) := by simp [hon, hp]
  obtain ⟨out, dropped, h⟩ := State.flushNotices_moves ((s.breakShown p).setCon p { s.con p with line := [], tooLong := false, fe := 0 }) p
  rw [State.con_setCon, State.setCon_setCon] at h
  exact ⟨out, dropped, (if_neg hacts).trans h⟩

/-- A port updated after a break differs from the state before in the registers and the consoles alone. -/
theorem State.setCon_breakShown_eq (s : State) (p : Nat) (c : ConSt) :
    let t := (s.breakShown p).setCon p c
    t = { s with regs := t.regs, con0 := t.con0, con1 := t.con1 } := by
  intro t
  rw [show t.regs = (s.breakShown p).regs from State.setCon_regs _ p c]
  exact State.setCon_eq _ p c

/-! The wake (R285) -/

theorem State.countReset_power (s : State) (cause : Nat) : (s.countReset cause).power = s.power := rfl

theorem State.last_countReset (s : State) {cause : Nat} (h : cause < 16) : (s.countReset cause).fld Reg.RST_LAST 0 4 = cause := by
  rw [State.countReset, State.fld_incSat_ne _ _ _ _ _ _ (by decide), State.fld_setBit_ne _ _ _ _ _ (by decide), State.fld_setFld_self _ _ (by decide)]
  exact Nat.mod_eq_of_lt h

/-- The part is held while a reset is asserted (R115). -/
theorem State.phase_assertReset (s : State) (cause : Nat) : (s.assertReset cause).power.phase = .held := by
  unfold State.assertReset
  dsimp only
  split <;> rfl

/-- RST.LAST takes the cause of the reset (R113). -/
theorem State.last_assertReset (s : State) {cause : Nat} (h : cause < 16) : (s.assertReset cause).fld Reg.RST_LAST 0 4 = cause := by
  have hshown : ∀ t : State, ((t.countReset cause).setBit Reg.CCA_STAT 2 false).fld Reg.RST_LAST 0 4 = cause := fun t => by
    rw [State.fld_setBit_ne _ _ _ _ _ (by decide), State.last_countReset t h]
  unfold State.assertReset
  dsimp only
  split
  · rw [State.fld_incSat_ne _ _ _ _ _ _ (by decide), hshown]
  · exact hshown _

/-- A hibernating part that wakes is held in the reset WAKE, cause 7, and knows what woke it. -/
theorem State.wake_of_hibernating {s : State} (src : Nat) (h : s.power.phase = .hibernating) :
    (s.wake src).power.phase = .held ∧ (s.wake src).power.wakeSrc = src ∧ (s.wake src).fld Reg.RST_LAST 0 4 = 7 := by
  unfold State.wake
  rw [h]
  exact ⟨State.phase_assertReset s.free.2 7, rfl, State.last_assertReset s.free.2 (by decide)⟩

/-- Settles O44: of its port a break changes the line, the count of framing errors and the notices, never the session; a console wakes a hibernating part. -/
theorem breakDiscardsThePartlyReceivedLine : Obligations.BreakDiscardsThePartlyReceivedLine := by
  unfold Obligations.BreakDiscardsThePartlyReceivedLine
  refine ⟨fun s p hp hon => ⟨doConsoleBreak s p, rfl, ?_⟩, fun s p hp hsleeps => ⟨doConsoleWake s p, rfl, ?_⟩⟩
  · obtain ⟨out, dropped, h⟩ := doConsoleBreak_eq hp hon
    rw [h, State.con_setCon, State.con_setCon_other _ _ hp, State.con_breakShown, State.bit_setCon, State.bit_setCon]
    exact ⟨rfl, rfl, rfl, rfl, rfl, rfl, s.breakShown_break p, s.breakShown_irq p, (s.breakShown_regs p).setCon p _,
      SameMem.of_mem (State.setCon_mem _ p _), s.setCon_breakShown_eq p _⟩
  · rw [doConsoleWake, if_pos (Nat.lt_succ_of_le hp)]
    exact State.wake_of_hibernating 3 hsleeps

end Sys2Proof.Machine
end

section
/-!
PROOFS. Releases of the logbook (R348): a record that finds a token and room is queued as it is, a release moves FIRST and leaves room for its own record, and a console or a requester that may release does just that. They settle O53.
-/

namespace Sys2Proof.Machine

/-! A record that finds room (R349, R351, R352) -/

/-- A book and the pending FIFO have room for one record, and no loss of the book waits for its report. -/
def State.Fits (s : State) (b : Nat) : Prop :=
  Tab.get 0 s.log.lost b = 0 ∧ s.bookHeld b + s.bookQueued b < bookCap b ∧ s.log.pend.length < 64

/-- The bucket of a code in a book has a token, or buckets are off. -/
def State.HasToken (s : State) (b code : Nat) : Prop :=
  s.bit Reg.LOG_CTRL 1 = false ∨ (s.bucket (s.bucketKey b code)).tokens ≠ 0

theorem roomForRelease_iff {s : State} {b : Nat} :
    roomForRelease s b ↔ Tab.get 0 s.log.lost b = 0 ∧ s.Fits 0 ∧ s.HasToken 0 0x0F05 :=
  ⟨fun ⟨h0, hb, hroom, hpend, htoken⟩ => ⟨hb, ⟨h0, hroom, hpend⟩, htoken⟩,
    fun ⟨hb, ⟨h0, hroom, hpend⟩, htoken⟩ => ⟨h0, hb, hroom, hpend, htoken⟩⟩

theorem State.reportLost_of_none {s : State} {b : Nat} (h : Tab.get 0 s.log.lost b = 0) : s.reportLost b = s :=
  if_neg (fun hlost => hlost.1 h)

/-- A record's token taken, unless it needs none (R351). -/
def State.tokenTaken (s : State) (r : LogRec) : State :=
  if (decide (r.sevfl % 8 = 4) || decide (r.source = 0xF0) || !s.bit Reg.LOG_CTRL 1) = true then s
  else
    let b := s.bucket (s.bucketKey r.book r.code)
    s.setBucket (s.bucketKey r.book r.code) { b with tokens := b.tokens - 1 }

theorem State.pend_tokenTaken (s : State) (r : LogRec) : (s.tokenTaken r).log.pend = s.log.pend := by
  unfold State.tokenTaken
  split <;> rfl

theorem State.Fits.tokenTaken {s : State} {b : Nat} (h : s.Fits b) (r : LogRec) : (s.tokenTaken r).Fits b := by
  unfold State.tokenTaken
  split <;> exact h

/-- A record with a token and with room is queued last, as it is. -/
theorem State.submit_queued {s : State} {r : LogRec} (htoken : s.HasToken r.book r.code) (hfits : s.Fits r.book) :
    (s.submit [r]).1 = subQueued ∧ (s.submit [r]).2.log.pend = s.log.pend ++ [r] := by
  obtain ⟨hlost, hroom, hpend⟩ := hfits.tokenTaken r
  have hsubmit : s.submit [r] = (subQueued, (s.tokenTaken r).setPend ((s.tokenTaken r).log.pend ++ [r])) := by
    unfold State.submit
    dsimp only
    rw [if_neg (by obtain h | h := htoken <;> simp [h]), ← State.tokenTaken, State.reportLost_of_none hlost, if_neg (by simpa using hroom),
      if_neg (by simpa using hpend)]
  rw [hsubmit]
  exact ⟨rfl, congrArg (· ++ [r]) (s.pend_tokenTaken r)⟩

/-- The record of an event of at most 12 argument bytes that Camlan logs in a book (R345). -/
def State.eventRec (s : State) (b c : Nat) (l : List Byte) : LogRec :=
  ⟨b, c, 0, severity c, s.now, if s.running then s.strokeNo else 0xFFFFFFFF, (l ++ List.replicate 12 (0 : Byte)).take 12⟩

theorem State.unitOf_short (s : State) (b c : Nat) {l : List Byte} (h : l.length ≤ 12) : s.unitOf b c 0 (severity c) l = [s.eventRec b c l] :=
  if_pos h

/-- Camlan's record of an event in the safety book, given a token and room. -/
theorem State.pend_logS {s : State} {c : Nat} {l : List Byte} (hl : l.length ≤ 12) (htoken : s.HasToken 0 c) (hfits : s.Fits 0) :
    (s.logS c l).log.pend = s.log.pend ++ [s.eventRec 0 c l] := by
  obtain ⟨hresult, hpend⟩ := State.submit_queued (r := s.eventRec 0 c l) htoken hfits
  rw [State.logS, State.logIn, State.unitOf_short s 0 c hl]
  dsimp only
  rw [hresult, if_neg (by simp [subQueued, subPendFull]), hpend]

/-! FIRST moves on (R347, R348) -/

/-- The n oldest records of a book freed. -/
def State.freed (s : State) (b n : Nat) : State := s.wrN (Reg.LOG_BFIRST b) (s.rdN (Reg.LOG_BFIRST b) + n)

theorem bfirst_ne_of_lt {a : Nat} (b : Nat) (h : a < Reg.LOG_BFIRST 0) : Reg.LOG_BFIRST b ≠ a := by
  unfold Reg.LOG_BFIRST at *
  omega

theorem bfirst_notMem_logRegs (b c : Nat) : Reg.LOG_BFIRST b ∉ logRegs c := by
  simp only [logRegs, Reg.LOG_BFIRST, Reg.LOG_PEND, Reg.LOG_BSUPP, Reg.LOG_BOVF, Reg.LOG_PENDDROP, Reg.LOG_IRQ, List.mem_cons, List.not_mem_nil, or_false]
  omega

theorem bfirst_ne_bnext (b c : Nat) : Reg.LOG_BFIRST b ≠ Reg.LOG_BNEXT c := by
  unfold Reg.LOG_BFIRST Reg.LOG_BNEXT
  omega

theorem bfirst_ne_bfirst {b c : Nat} (h : b ≠ c) : Reg.LOG_BFIRST b ≠ Reg.LOG_BFIRST c := by
  unfold Reg.LOG_BFIRST
  omega

theorem State.bookHeld_freed_self {s : State} {b n : Nat} (h : n ≤ s.bookHeld b) : (s.freed b n).bookHeld b = s.bookHeld b - n := by
  have hnext := s.rdN_lt (Reg.LOG_BNEXT b)
  have hfirst := s.rdN_lt (Reg.LOG_BFIRST b)
  unfold State.bookHeld at *
  rw [State.freed, State.rdN_wrN_self, State.rdN_wrN_ne _ _ (bfirst_ne_bnext b b)]
  omega

theorem State.bookHeld_freed_other (s : State) {b c : Nat} (n : Nat) (h : b ≠ c) : (s.freed b n).bookHeld c = s.bookHeld c := by
  rw [State.bookHeld, State.bookHeld, State.freed, State.rdN_wrN_ne _ _ (bfirst_ne_bnext b c), State.rdN_wrN_ne _ _ (bfirst_ne_bfirst h)]

/-- Freeing records held takes no room from any book. -/
theorem State.bookHeld_freed_le {s : State} {b n : Nat} (h : n ≤ s.bookHeld b) (c : Nat) : (s.freed b n).bookHeld c ≤ s.bookHeld c := by
  obtain rfl | hc := eq_or_ne b c
  · exact (State.bookHeld_freed_self h).trans_le (Nat.sub_le _ _)
  · exact (s.bookHeld_freed_other n hc).le

theorem State.Fits.freed {s : State} {b c n : Nat} (hfits : s.Fits c) (h : n ≤ s.bookHeld b) : (s.freed b n).Fits c := by
  obtain ⟨hlost, hroom, hpend⟩ := hfits
  exact ⟨hlost, (Nat.add_le_add_right (State.bookHeld_freed_le h c) _).trans_lt hroom, hpend⟩

theorem State.HasToken.freed {s : State} {c code : Nat} (htoken : s.HasToken c code) (b n : Nat) : (s.freed b n).HasToken c code :=
  htoken.imp_left fun h => (State.bit_wrN_ne _ _ _ (bfirst_ne_of_lt b (by decide))).trans h

@[simp] theorem State.now_freed (s : State) (b n : Nat) : (s.freed b n).now = s.now := by
  simp only [State.now, State.us, State.freed, State.wrN_stk, State.fld_wrN_ne _ _ _ _ (bfirst_ne_of_lt b (show Reg.STK_PHASE < _ by decide))]

@[simp] theorem State.running_freed (s : State) (b n : Nat) : (s.freed b n).running = s.running :=
  State.bit_wrN_ne _ _ _ (bfirst_ne_of_lt b (by decide))

@[simp] theorem State.strokeNo_freed (s : State) (b n : Nat) : (s.freed b n).strokeNo = s.strokeNo :=
  State.rdN_wrN_ne _ _ (bfirst_ne_of_lt b (by decide))

theorem State.eventRec_freed (s : State) (b n k c : Nat) (l : List Byte) : (s.freed b n).eventRec k c l = s.eventRec k c l := by simp [State.eventRec]

/-! A release (R348; DEDUCED, log entry 86) -/

/-- How far upto lies past FIRST, modulo 2^32. -/
def State.pastFirst (s : State) (b upto : Nat) : Nat := (upto + 2 ^ 32 - s.rdN (Reg.LOG_BFIRST b)) % 2 ^ 32

/-- The records a release frees: those up to upto, of those held. -/
def State.releasable (s : State) (b upto : Nat) : Nat := min (s.pastFirst b upto + 1) (s.bookHeld b)

theorem State.release_below {s : State} {b upto : Nat} (src : Nat) (hbelow : 2 ^ 31 ≤ s.pastFirst b upto) : s.release b upto src = s := by
  unfold State.release
  split
  · rfl
  · exact if_pos hbelow

theorem State.release_eq {s : State} {b upto : Nat} (src : Nat) (hb : b ≤ 8) (hpast : s.pastFirst b upto < 2 ^ 31) (hlost : Tab.get 0 s.log.lost b = 0) :
    s.release b upto src = (s.freed b (s.releasable b upto)).logS 0x0F05 (u8 b ++ u32 upto ++ u8 src) := by
  have hnone : (s.freed b (s.releasable b upto)).reportLost b = s.freed b (s.releasable b upto) := State.reportLost_of_none hlost
  rw [State.release, if_neg (Nat.not_lt.mpr hb)]
  exact (if_neg (Nat.not_le.mpr hpast)).trans (congrArg (State.logS · 0x0F05 _) hnone)

/-- A release with room for its record frees the book's records and is recorded. -/
theorem State.release_frees {s : State} {b : Nat} (upto src : Nat) (hb : b ≤ 8) (hroom : roomForRelease s b) :
    bookFreed s (s.release b upto src) b upto src := by
  obtain ⟨hlost, hfits, htoken⟩ := roomForRelease_iff.mp hroom
  obtain hpast | hbelow := Nat.lt_or_ge (s.pastFirst b upto) (2 ^ 31)
  · have hheld : s.releasable b upto ≤ s.bookHeld b := Nat.min_le_right _ _
    have hpend := State.pend_logS (l := u8 b ++ u32 upto ++ u8 src) (by simp) (htoken.freed b (s.releasable b upto)) (hfits.freed hheld)
    rw [State.eventRec_freed] at hpend
    rw [State.release_eq src hb hpast hlost]
    refine ⟨fun hbelow => absurd hbelow (Nat.not_le.mpr hpast), fun _ => ⟨?_, hpend⟩, ?_, SameMem.of_mem (State.logS_mem _ _ _)⟩
    · exact (State.rdN_logS _ _ _ (bfirst_notMem_logRegs b 0)).trans (State.rdN_wrN_self _ _ _)
    · exact ((RegsBut.refl s _).wrN _ List.mem_cons_self).logS _ _ fun _ => List.mem_cons_of_mem _
  · rw [State.release_below src hbelow]
    exact ⟨fun _ => ⟨rfl, RegsBut.refl s _⟩, fun hpast => absurd hpast (Nat.not_lt.mpr hbelow), RegsBut.refl s _, SameMem.refl s⟩

/-! A line taken and answered (R325, R333) -/

/-- Taking a line changes only the ports and what Camlan remembers. -/
theorem lineTaken_eq (s : State) (p : Nat) : ∃ c0 c1 cam, lineTaken s p = { s with con0 := c0, con1 := c1, cam := cam } := by
  obtain ⟨c0, c1, htake⟩ : ∃ c0 c1, (s.takeLine p).2 = { s with con0 := c0, con1 := c1 } := by
    unfold State.takeLine
    split <;> exact ⟨_, _, State.setCon_eq _ _ _⟩
  rw [lineTaken, htake, State.noteService]
  split <;> exact ⟨_, _, _, rfl⟩

theorem State.takeLine_of_ready {s : State} {p : Nat} {tag : Option String} {rest : List (Option String)} (h : (s.con p).ready = tag :: rest) :
    s.takeLine p = (tag, s.setCon p { s.con p with ready := rest }) := by
  rw [State.takeLine, h]

/-- A waiting line is executed under its tag, given the level it wants. -/
theorem State.ianel_of_lineWaits {s : State} {p : Nat} {tag : Option String} {ok : Level → Bool} (act : State → Option String → State)
    (hwaits : lineWaits s p tag) (hok : ok (s.con p).level = true) : s.ianel p ok act = act (lineTaken s p) tag := by
  obtain ⟨hon, hserved, hstarting, rest, hready⟩ := hwaits
  have hstarted : (s.setCon p { s.con p with ready := rest }).starting = false := by rw [← hstarting, State.starting, State.starting, State.setCon_cam]
  simp [State.ianel, lineTaken, State.takeLine_of_ready hready, hon, hserved, hstarted, hok]

theorem State.con_noteService (s : State) (p q : Nat) : (s.noteService p).con q = s.con q := by
  unfold State.noteService
  split <;> rfl

theorem level_lineTaken {s : State} {p : Nat} {tag : Option String} (hwaits : lineWaits s p tag) : ((lineTaken s p).con p).level = (s.con p).level := by
  obtain ⟨-, -, -, rest, hready⟩ := hwaits
  rw [lineTaken, State.takeLine_of_ready hready, State.con_noteService, State.con_setCon]

/-- Neither taking the line before a release nor answering it after touches what the release is about. -/
theorem bookFreed_of_line {s t : State} {p b upto src : Nat} (tag : Option String) (l : List String) (h : bookFreed (lineTaken s p) t b upto src) :
    bookFreed s (t.say p tag l) b upto src := by
  obtain ⟨c0, c1, cam, htaken⟩ := lineTaken_eq s p
  rw [htaken] at h
  rw [State.say_eq]
  exact h

theorem roomForRelease_lineTaken {s : State} {b : Nat} (p : Nat) (h : roomForRelease s b) : roomForRelease (lineTaken s p) b := by
  obtain ⟨c0, c1, cam, htaken⟩ := lineTaken_eq s p
  rw [htaken]
  exact h

/-! Who releases (R348) -/

/-- The Cox releases any book. -/
theorem does_logBookRelease_cox {s : State} {book : Nat} {P : State → Prop} (hawake : s.awake = true) (h : P (s.release book (s.rdN Reg.LOG_RELUPTO) 0)) :
    Does (.logBookRelease .cox book) s P :=
  ⟨_, congrArg Host.Outcome.next (State.byRequester_awake _ hawake), h⟩

theorem doLogBookRelease_tenant {s : State} {rq : Requester} {k : Nat} (book : Nat) (hrq : rq ≠ .cox) (htenant : s.logTenant rq = some k) :
    doLogBookRelease s rq book = s.release (1 + k) (s.rdN Reg.LOG_RELUPTO) (0x20 + k) := by
  unfold doLogBookRelease
  split
  · exact absurd rfl hrq
  · rw [htenant]

/-- A tenant releases its own book, whatever book it names. -/
theorem does_logBookRelease_tenant {s : State} {rq : Requester} {k : Nat} (book : Nat) {P : State → Prop} (hawake : s.awake = true) (hrq : rq ≠ .cox)
    (htenant : s.logTenant rq = some k) (h : P (s.release (1 + k) (s.rdN Reg.LOG_RELUPTO) (0x20 + k))) : Does (.logBookRelease rq book) s P :=
  ⟨_, congrArg Host.Outcome.next ((State.byRequester_awake _ hawake).trans (doLogBookRelease_tenant book hrq htenant)), h⟩

/-- The levels at which `log release` is executed for a book (Table 14-7); a number that names no book is answered at any level. -/
def mayRelease (l : Level) (book : Nat) : Bool := l.isIplus || decide (8 < book) || decide (l.tenantOf = some (book - 1) ∧ 2 ≤ book)

/-- A line `log release` at a level that may release the book frees its records under the session's source. -/
theorem does_logRelease {s : State} {p book src : Nat} (upto : Nat) {tag : Option String} (hwaits : lineWaits s p tag) (hbook : book ≤ 8)
    (hmay : mayRelease (s.con p).level book = true) (hsrc : sessionSource p (s.con p).level = some src) (hroom : roomForRelease s book) :
    Does (.logRelease p book upto) s (fun t => bookFreed s t book upto src) := by
  refine ⟨doLogRelease s p book upto, rfl, ?_⟩
  rw [doLogRelease, State.ianel_of_lineWaits _ hwaits hmay, if_neg (Nat.not_lt.mpr hbook), level_lineTaken hwaits, hsrc]
  exact bookFreed_of_line _ _ (State.release_frees upto src hbook (roomForRelease_lineTaken p hroom))

theorem sessionSource_of_iplus (p : Nat) {l : Level} (h : l = .installer ∨ l = .service) : sessionSource p l = some (0x10 + p) := by
  obtain rfl | rfl := h <;> rfl

theorem mayRelease_of_iplus {l : Level} (h : l = .installer ∨ l = .service) (book : Nat) : mayRelease l book = true := by
  have hiplus : l.isIplus = true := by simpa [Level.isIplus] using h
  simp [mayRelease, hiplus]

theorem mayRelease_own {k : Nat} (hk : 1 ≤ k) : mayRelease (.tenant k) (1 + k) = true := by
  have howns : Level.tenantOf (.tenant k) = some (1 + k - 1) ∧ 2 ≤ 1 + k := ⟨by simp [Level.tenantOf], by omega⟩
  simp [mayRelease, howns]

/-- Settles O53: a release frees a book's records and is recorded, whether a requester writes it or a console line that may give it. -/
theorem releaseFreesRecords : Obligations.ReleaseFreesRecords := by
  unfold Obligations.ReleaseFreesRecords
  refine ⟨fun s rq k book hawake hrq htenant hk hroom => ?_, fun s book hawake hbook hroom => ?_,
    fun s p book upto tag hwaits hbook hlevel hroom => ?_, fun s p k upto tag hwaits hone hk hlevel hroom => ?_⟩
  · exact does_logBookRelease_tenant book hawake hrq htenant (State.release_frees _ _ (by omega) hroom)
  · exact does_logBookRelease_cox hawake (State.release_frees _ _ hbook hroom)
  · exact does_logRelease upto hwaits hbook (mayRelease_of_iplus hlevel book) (sessionSource_of_iplus p hlevel) hroom
  · exact does_logRelease upto hwaits (by omega) (hlevel ▸ mayRelease_own hone) (congrArg (sessionSource p) hlevel) hroom

end Sys2Proof.Machine
end

section
/-!
PROOFS. The whole machine: every command answers a next state that keeps the queue, the order of draws, the canonical forms and, outside the commands listed for each, memory, non-volatile content and the configuration in force. They settle O1 to O6.
-/

namespace Sys2Proof.Machine

/-- Every command answers a next state, which keeps what no command changes and what the command is not listed to change. -/
theorem exec_kept (c : Instr) (s : State) : ∃ t, exec c s = .next t ∧ Kept (mayStore c) (mayKeep c) (mayApply c) s t := by
  have h (cm cn ci : Bool) : Kept cm cn ci s s := Kept.refl cm cn ci s
  cases c with
  | registerWrite => exact ⟨_, rfl, doRegisterWrite_kept _ _ _ (h _ _ _)⟩
  | readClear => exact ⟨_, rfl, doReadClear_kept _ _ _ (h _ _ _)⟩
  | busError => exact ⟨_, rfl, doBusError_kept _ _ _ _ (h _ _ _)⟩
  | strokeTimerStart => exact ⟨_, rfl, doStrokeTimerStart_kept _ (h _ _ _)⟩
  | catchPoint => exact ⟨_, rfl, doCatch_kept _ (h _ _ _)⟩
  | gatherDeadline => exact ⟨_, rfl, doGatherDeadline_kept (h _ _ _)⟩
  | finish => exact ⟨_, rfl, doFinish_kept _ (h _ _ _)⟩
  | coxCrab => exact ⟨_, rfl, doCoxCrab_kept (h _ _ _)⟩
  | easyAutoclear => exact ⟨_, rfl, doEasyAutoclear_kept (h _ _ _)⟩
  | recoveryTail => exact ⟨_, rfl, doRecoveryTail_kept (h _ _ _)⟩
  | watch => exact ⟨_, rfl, doWatch_kept (h _ _ _)⟩
  | strokeTrim => exact ⟨_, rfl, State.byRequester_kept (h _ _ _) (doStrokeTrim_kept _ (h _ _ _))⟩
  | heatRestart => exact ⟨_, rfl, State.byRequester_kept (h _ _ _) (doHeatRestart_kept (h _ _ _))⟩
  | agreementDemand => exact ⟨_, rfl, State.byRequester_kept (h _ _ _) (doAgreementDemand_kept _ (h _ _ _))⟩
  | demandDone => exact ⟨_, rfl, doDemandDone_kept _ _ (h _ _ _)⟩
  | interruptLineChange => exact ⟨_, rfl, doInterruptLineChange_kept _ _ (h _ _ _)⟩
  | tenantCrabLimit => exact ⟨_, rfl, doTenantCrabLimit_kept _ (h _ _ _)⟩
  | lockstepMismatch => exact ⟨_, rfl, doLockstepMismatch_kept _ _ (h _ _ _)⟩
  | lockstepReset => exact ⟨_, rfl, doLockstepReset_kept (h _ _ _)⟩
  | eccCorrected => exact ⟨_, rfl, doEccCorrected_kept _ _ _ _ (h _ _ _)⟩
  | eccFatal => exact ⟨_, rfl, doEccFatal_kept _ _ _ _ (h _ _ _)⟩
  | eccFatalReset => exact ⟨_, rfl, doEccFatalReset_kept (h _ _ _)⟩
  | eccCorrLimit => exact ⟨_, rfl, doEccCorrLimit_kept (h _ _ _)⟩
  | injectDifference => exact ⟨_, rfl, State.byRequester_kept (h _ _ _) (doInjectDifference_kept _ _ (h _ _ _))⟩
  | injectClear => exact ⟨_, rfl, State.byRequester_kept (h _ _ _) (doInjectClear_kept (h _ _ _))⟩
  | coxLock => exact ⟨_, rfl, doCoxLock_kept (h _ _ _)⟩
  | permitArm => exact ⟨_, rfl, State.byRequester_kept (h _ _ _) (doPermitArm_kept (h _ _ _))⟩
  | mismatchAck => exact ⟨_, rfl, State.byRequester_kept (h _ _ _) (doMismatchAck_kept (h _ _ _))⟩
  | mismatchResetInhibit => exact ⟨_, rfl, State.byRequester_kept (h _ _ _) (doMismatchResetInhibit_kept _ (h _ _ _))⟩
  | resetPin => exact ⟨_, rfl, doResetPin_kept _ (h _ _ _)⟩
  | porAssert => exact ⟨_, rfl, doPorAssert_kept (h _ _ _)⟩
  | porRelease => exact ⟨_, rfl, doPorRelease_kept (h _ _ _)⟩
  | softReset => exact ⟨_, rfl, doSoftReset_kept _ (h _ _ _)⟩
  | resetAssert => exact ⟨_, rfl, doResetAssert_kept _ (h _ _ _)⟩
  | resetRelease => exact ⟨_, rfl, doResetRelease_kept (h _ _ _)⟩
  | wipeDone => exact ⟨_, rfl, doWipeDone_kept _ (h _ _ _)⟩
  | crystalStartFail => exact ⟨_, rfl, doCrystalStartFail_kept (h _ _ _)⟩
  | imageVerify => exact ⟨_, rfl, doImageVerify_kept _ _ _ (h _ _ _)⟩
  | stallReset => exact ⟨_, rfl, doStallReset_kept (h _ _ _)⟩
  | bootTimerExpire => exact ⟨_, rfl, doBootTimerExpire_kept (h _ _ _)⟩
  | bootHold => exact ⟨_, rfl, State.byRequester_kept (h _ _ _) (doBootHold_kept (h _ _ _))⟩
  | clockLoss => exact ⟨_, rfl, doClockLoss_kept (h _ _ _)⟩
  | x32Loss => exact ⟨_, rfl, doX32Loss_kept (h _ _ _)⟩
  | stakeBoatEnd => exact ⟨_, rfl, doStakeBoatEnd_kept (h _ _ _)⟩
  | shorePeriodic => exact ⟨_, rfl, doShorePeriodic_kept (h _ _ _)⟩
  | shoreGapEnd => exact ⟨_, rfl, doShoreGapEnd_kept (h _ _ _)⟩
  | lcsRequest => exact ⟨_, rfl, doLcsRequest_kept _ (h _ _ _)⟩
  | lcsTransitionComplete => exact ⟨_, rfl, doLcsTransitionComplete_kept (h _ _ _)⟩
  | serviceTimeout => exact ⟨_, rfl, doServiceTimeout_kept (h _ _ _)⟩
  | monitorYield => exact ⟨_, rfl, doMonitorYield_kept _ (h _ _ _)⟩
  | monitorWait => exact ⟨_, rfl, doMonitorWait_kept _ _ (h _ _ _)⟩
  | monitorSetvec => exact ⟨_, rfl, doMonitorSetvec_kept _ _ _ (h _ _ _)⟩
  | monitorEvret => exact ⟨_, rfl, doMonitorEvret_kept _ (h _ _ _)⟩
  | monitorInfo => exact ⟨_, rfl, doMonitorInfo_kept _ _ (h _ _ _)⟩
  | monitorLog => exact ⟨_, rfl, doMonitorLog_kept _ _ _ _ _ (h _ _ _)⟩
  | monitorUnknownCall => exact ⟨_, rfl, doMonitorUnknownCall_kept _ _ (h _ _ _)⟩
  | eventDelivery => exact ⟨_, rfl, doEventDelivery_kept _ (h _ _ _)⟩
  | eventSet => exact ⟨_, rfl, State.byRequester_kept (h _ _ _) (doEventSet_kept _ (h _ _ _))⟩
  | slotStart => exact ⟨_, rfl, doSlotStart_kept _ _ (h _ _ _)⟩
  | slotEnd => exact ⟨_, rfl, doSlotEnd_kept _ (h _ _ _)⟩
  | slotSwapRequest => exact ⟨_, rfl, State.byRequester_kept (h _ _ _) (doSlotSwapRequest_kept (h _ _ _))⟩
  | scullEnable => exact ⟨_, rfl, State.byRequester_kept (h _ _ _) (doScullEnable_kept _ (h _ _ _))⟩
  | grantWrite => exact ⟨_, rfl, State.byRequester_kept (h _ _ _) (doGrantWrite_kept _ _ _ (h _ _ _))⟩
  | partitionFault => exact ⟨_, rfl, doPartitionFault_kept _ _ (h _ _ _)⟩
  | scullFault => exact ⟨_, rfl, doScullFault_kept _ _ (h _ _ _)⟩
  | doorbell => exact ⟨_, rfl, doDoorbell_kept _ _ _ (h _ _ _)⟩
  | doorbellCopyDone => exact ⟨_, rfl, doDoorbellCopyDone_kept _ (h _ _ _)⟩
  | tenantImageVerify => exact ⟨_, rfl, doTenantImageVerify_kept _ _ _ (h _ _ _)⟩
  | autoResume => exact ⟨_, rfl, doAutoResume_kept _ (h _ _ _)⟩
  | sourceDisqualify => exact ⟨_, rfl, doSourceDisqualify_kept _ _ (h _ _ _)⟩
  | sourceQualify => exact ⟨_, rfl, doSourceQualify_kept _ _ (h _ _ _)⟩
  | mpptStep => exact ⟨_, rfl, doMpptStep_kept _ (h _ _ _)⟩
  | vocCheck => exact ⟨_, rfl, doVocCheck_kept (h _ _ _)⟩
  | vocNow => exact ⟨_, rfl, State.byRequester_kept (h _ _ _) (doVocNow_kept (h _ _ _))⟩
  | vocWindowEnd => exact ⟨_, rfl, doVocWindowEnd_kept _ (h _ _ _)⟩
  | blackStartQualify => exact ⟨_, rfl, doBlackStartQualify_kept _ (h _ _ _)⟩
  | blackStartSculls => exact ⟨_, rfl, doBlackStartSculls_kept (h _ _ _)⟩
  | kbatInserted => exact ⟨_, rfl, doKbatInserted_kept _ _ _ (h _ _ _)⟩
  | kbatMissing => exact ⟨_, rfl, doKbatMissing_kept (h _ _ _)⟩
  | kbatShortProbeEnd => exact ⟨_, rfl, doKbatShortProbeEnd_kept _ (h _ _ _)⟩
  | chargePhaseLevel => exact ⟨_, rfl, doChargePhaseLevel_kept _ (h _ _ _)⟩
  | chargeTimerExpire => exact ⟨_, rfl, doChargeTimerExpire_kept (h _ _ _)⟩
  | chargeTaperEnd => exact ⟨_, rfl, doChargeTaperEnd_kept (h _ _ _)⟩
  | nimhDeltaV => exact ⟨_, rfl, doNimhDeltaV_kept (h _ _ _)⟩
  | nimhDtdt => exact ⟨_, rfl, doNimhDtdt_kept (h _ _ _)⟩
  | chargeZoneChange => exact ⟨_, rfl, doChargeZoneChange_kept _ _ (h _ _ _)⟩
  | chargeHeadroom => exact ⟨_, rfl, doChargeHeadroom_kept _ _ (h _ _ _)⟩
  | chargeOvervoltage => exact ⟨_, rfl, doChargeOvervoltage_kept (h _ _ _)⟩
  | chargeOvCheck => exact ⟨_, rfl, doChargeOvCheck_kept _ (h _ _ _)⟩
  | chargeRecharge => exact ⟨_, rfl, doChargeRecharge_kept (h _ _ _)⟩
  | chargeSourceLost => exact ⟨_, rfl, doChargeSourceLost_kept (h _ _ _)⟩
  | chargerStop => exact ⟨_, rfl, State.byRequester_kept (h _ _ _) (doChargerStop_kept (h _ _ _))⟩
  | chargerStart => exact ⟨_, rfl, State.byRequester_kept (h _ _ _) (doChargerStart_kept (h _ _ _))⟩
  | chargerClear => exact ⟨_, rfl, State.byRequester_kept (h _ _ _) (doChargerClear_kept (h _ _ _))⟩
  | auxClear => exact ⟨_, rfl, State.byRequester_kept (h _ _ _) (doAuxClear_kept (h _ _ _))⟩
  | shipEnter => exact ⟨_, rfl, State.byRequester_kept (h _ _ _) (doShipEnter_kept _ (h _ _ _))⟩
  | shipWake => exact ⟨_, rfl, doShipWake_kept (h _ _ _)⟩
  | kbtnLongPress => exact ⟨_, rfl, doKbtnLongPress_kept (h _ _ _)⟩
  | kbtnPress => exact ⟨_, rfl, doKbtnPress_kept (h _ _ _)⟩
  | auxFault => exact ⟨_, rfl, doAuxFault_kept (h _ _ _)⟩
  | auxRetry => exact ⟨_, rfl, doAuxRetry_kept (h _ _ _)⟩
  | auxSoftstartTimeout => exact ⟨_, rfl, doAuxSoftstartTimeout_kept (h _ _ _)⟩
  | auxChargerEnd => exact ⟨_, rfl, doAuxChargerEnd_kept (h _ _ _)⟩
  | auxProbe => exact ⟨_, rfl, doAuxProbe_kept _ (h _ _ _)⟩
  | ccaInterval => exact ⟨_, rfl, doCcaInterval_kept _ _ (h _ _ _)⟩
  | ccaLiveRead => exact ⟨_, rfl, State.byRequester_kept (h _ _ _) (doCcaLiveRead_kept (h _ _ _))⟩
  | strokeTimeRead => exact ⟨_, rfl, doStrokeTimeRead_kept _ _ (h _ _ _)⟩
  | currentWake => exact ⟨_, rfl, doCurrentWake_kept (h _ _ _)⟩
  | ocsTrip => exact ⟨_, rfl, doOcsTrip_kept _ _ (h _ _ _)⟩
  | bkiTrip => exact ⟨_, rfl, doBkiTrip_kept _ (h _ _ _)⟩
  | bkiRelease => exact ⟨_, rfl, doBkiRelease_kept _ (h _ _ _)⟩
  | captureTrigger => exact ⟨_, rfl, State.byRequester_kept (h _ _ _) (doCaptureTrigger_kept (h _ _ _))⟩
  | captureArm => exact ⟨_, rfl, State.byRequester_kept (h _ _ _) (doCaptureArm_kept (h _ _ _))⟩
  | captureRead => exact ⟨_, rfl, State.byRequester_kept (h _ _ _) (doCaptureRead_kept (h _ _ _))⟩
  | fcsSelfTest => exact ⟨_, rfl, State.byRequester_kept (h _ _ _) (doFcsSelfTest_kept (h _ _ _))⟩
  | fcsSelfTestEnd => exact ⟨_, rfl, doFcsSelfTestEnd_kept _ _ _ (h _ _ _)⟩
  | hvsTest => exact ⟨_, rfl, State.byRequester_kept (h _ _ _) (doHvsTest_kept _ (h _ _ _))⟩
  | hvsTestEnd => exact ⟨_, rfl, doHvsTestEnd_kept _ (h _ _ _)⟩
  | linkLoss => exact ⟨_, rfl, doLinkLoss_kept _ (h _ _ _)⟩
  | linkRegain => exact ⟨_, rfl, doLinkRegain_kept _ (h _ _ _)⟩
  | enumTimeout => exact ⟨_, rfl, doEnumTimeout_kept _ _ (h _ _ _)⟩
  | sampleReadsStart => exact ⟨_, rfl, doSampleReadsStart_kept (h _ _ _)⟩
  | chainResponse => exact ⟨_, rfl, doChainResponse_kept _ _ _ (h _ _ _)⟩
  | chainTimeout => exact ⟨_, rfl, doChainTimeout_kept _ _ (h _ _ _)⟩
  | catchEcho => exact ⟨_, rfl, doCatchEcho_kept _ _ _ _ (h _ _ _)⟩
  | ringSplit => exact ⟨_, rfl, doRingSplit_kept _ _ (h _ _ _)⟩
  | ringHeal => exact ⟨_, rfl, doRingHeal_kept (h _ _ _)⟩
  | seatLost => exact ⟨_, rfl, doSeatLost_kept _ (h _ _ _)⟩
  | chainSubmit => exact ⟨_, rfl, State.byRequester_kept (h _ _ _) (doChainSubmit_kept _ _ (h _ _ _))⟩
  | radioRetune => exact ⟨_, rfl, doRadioRetune_kept (h _ _ _)⟩
  | beacon => exact ⟨_, rfl, doBeacon_kept (h _ _ _)⟩
  | radioSlot => exact ⟨_, rfl, doRadioSlot_kept _ (h _ _ _)⟩
  | radioResponse => exact ⟨_, rfl, doRadioResponse_kept _ _ (h _ _ _)⟩
  | radioTimeout => exact ⟨_, rfl, doRadioTimeout_kept _ (h _ _ _)⟩
  | lockLoss => exact ⟨_, rfl, doLockLoss_kept (h _ _ _)⟩
  | lockTimeout => exact ⟨_, rfl, doLockTimeout_kept (h _ _ _)⟩
  | slotForfeit => exact ⟨_, rfl, doSlotForfeit_kept _ _ (h _ _ _)⟩
  | calibrateNow => exact ⟨_, rfl, State.byRequester_kept (h _ _ _) (doCalibrateNow_kept (h _ _ _))⟩
  | joinRequest => exact ⟨_, rfl, doJoinRequest_kept _ (h _ _ _)⟩
  | grantQueue => exact ⟨_, rfl, State.byRequester_kept (h _ _ _) (doGrantQueue_kept _ (h _ _ _))⟩
  | radioSubmit => exact ⟨_, rfl, State.byRequester_kept (h _ _ _) (doRadioSubmit_kept _ _ (h _ _ _))⟩
  | channelQuarantineEnd => exact ⟨_, rfl, doChannelQuarantineEnd_kept _ (h _ _ _)⟩
  | seatFaulty => exact ⟨_, rfl, doSeatFaulty_kept _ (h _ _ _)⟩
  | oneBlade => exact ⟨_, rfl, doOneBlade_kept _ (h _ _ _)⟩
  | coilOvercurrent => exact ⟨_, rfl, doCoilOvercurrent_kept _ (h _ _ _)⟩
  | coilOpenLoad => exact ⟨_, rfl, doCoilOpenLoad_kept _ (h _ _ _)⟩
  | closeTimeout => exact ⟨_, rfl, doCloseTimeout_kept _ (h _ _ _)⟩
  | negOpenTimeout => exact ⟨_, rfl, doNegOpenTimeout_kept _ (h _ _ _)⟩
  | weldFeedback => exact ⟨_, rfl, doWeldFeedback_kept _ (h _ _ _)⟩
  | weldHvsJudge => exact ⟨_, rfl, doWeldHvsJudge_kept _ (h _ _ _)⟩
  | pumpSnap => exact ⟨_, rfl, doPumpSnap_kept (h _ _ _)⟩
  | railLoss => exact ⟨_, rfl, doRailLoss_kept (h _ _ _)⟩
  | railUp => exact ⟨_, rfl, doRailUp_kept (h _ _ _)⟩
  | pumpSkip => exact ⟨_, rfl, State.byRequester_kept (h _ _ _) (doPumpSkip_kept (h _ _ _))⟩
  | snapTest => exact ⟨_, rfl, State.byRequester_kept (h _ _ _) (doSnapTest_kept (h _ _ _))⟩
  | deferExpire => exact ⟨_, rfl, doDeferExpire_kept (h _ _ _)⟩
  | energyGateTimeout => exact ⟨_, rfl, doEnergyGateTimeout_kept _ (h _ _ _)⟩
  | admitTimeout => exact ⟨_, rfl, doAdmitTimeout_kept _ (h _ _ _)⟩
  | testPulseFault => exact ⟨_, rfl, doTestPulseFault_kept _ (h _ _ _)⟩
  | sinLevelChange => exact ⟨_, rfl, doSinLevelChange_kept _ _ (h _ _ _)⟩
  | sinFinding => exact ⟨_, rfl, doSinFinding_kept _ _ (h _ _ _)⟩
  | sinFindingClear => exact ⟨_, rfl, doSinFindingClear_kept _ (h _ _ _)⟩
  | sinPairDiscrepancy => exact ⟨_, rfl, doSinPairDiscrepancy_kept _ (h _ _ _)⟩
  | mdiTimeout => exact ⟨_, rfl, doMdiTimeout_kept (h _ _ _)⟩
  | mdiStall => exact ⟨_, rfl, doMdiStall_kept (h _ _ _)⟩
  | mdiOvercurrent => exact ⟨_, rfl, doMdiOvercurrent_kept (h _ _ _)⟩
  | mdiBrakeEnd => exact ⟨_, rfl, doMdiBrakeEnd_kept (h _ _ _)⟩
  | mdiWaitDefer => exact ⟨_, rfl, doMdiWaitDefer_kept (h _ _ _)⟩
  | mdiGo => exact ⟨_, rfl, State.byRequester_kept (h _ _ _) (doMdiGo_kept _ (h _ _ _))⟩
  | mdiStop => exact ⟨_, rfl, State.byRequester_kept (h _ _ _) (doMdiStop_kept (h _ _ _))⟩
  | imdHalfEnd => exact ⟨_, rfl, doImdHalfEnd_kept _ _ _ _ (h _ _ _)⟩
  | imdPeriodEnd => exact ⟨_, rfl, doImdPeriodEnd_kept _ _ _ _ (h _ _ _)⟩
  | imdKinExclude => exact ⟨_, rfl, doImdKinExclude_kept (h _ _ _)⟩
  | kinStale => exact ⟨_, rfl, doKinStale_kept (h _ _ _)⟩
  | imdSwitchFault => exact ⟨_, rfl, doImdSwitchFault_kept _ (h _ _ _)⟩
  | hibernateIdle => exact ⟨_, rfl, doHibernateIdle_kept (h _ _ _)⟩
  | hibernateGraceEnd => exact ⟨_, rfl, doHibernateGraceEnd_kept (h _ _ _)⟩
  | consoleWake => exact ⟨_, rfl, doConsoleWake_kept _ (h _ _ _)⟩
  | surgeDoorbell => exact ⟨_, rfl, doSurgeDoorbell_kept _ _ _ (h _ _ _)⟩
  | ticketExpire => exact ⟨_, rfl, doTicketExpire_kept (h _ _ _)⟩
  | canFrameReceived => exact ⟨_, rfl, doCanFrameReceived_kept _ _ _ (h _ _ _)⟩
  | windowSelect => exact ⟨_, rfl, State.byRequester_kept (h _ _ _) (doWindowSelect_kept _ _ _ (h _ _ _))⟩
  | windowCommit => exact ⟨_, rfl, State.byRequester_kept (h _ _ _) (doWindowCommit_kept _ _ (h _ _ _))⟩
  | txRequest => exact ⟨_, rfl, State.byRequester_kept (h _ _ _) (doTxRequest_kept _ _ _ _ (h _ _ _))⟩
  | txAbort => exact ⟨_, rfl, State.byRequester_kept (h _ _ _) (doTxAbort_kept _ _ _ (h _ _ _))⟩
  | txAttempt => exact ⟨_, rfl, doTxAttempt_kept _ _ _ (h _ _ _)⟩
  | txAttemptEnd => exact ⟨_, rfl, doTxEnd_kept _ _ _ _ (h _ _ _)⟩
  | txLimitReached => exact ⟨_, rfl, doTxLimitReached_kept _ _ _ (h _ _ _)⟩
  | canErrorState => exact ⟨_, rfl, doCanErrorState_kept _ _ _ _ _ _ (h _ _ _)⟩
  | canBusOff => exact ⟨_, rfl, doCanBusOff_kept _ (h _ _ _)⟩
  | busoffHoldEnd => exact ⟨_, rfl, doBusoffHoldEnd_kept _ (h _ _ _)⟩
  | busoffRecovered => exact ⟨_, rfl, doBusoffRecovered_kept _ _ (h _ _ _)⟩
  | canWake => exact ⟨_, rfl, doCanWake_kept _ (h _ _ _)⟩
  | canaPeriodic => exact ⟨_, rfl, doCanaPeriodic_kept (h _ _ _)⟩
  | crewReferenceSend => exact ⟨_, rfl, doCrewReferenceSend_kept (h _ _ _)⟩
  | crewReferenceReceived => exact ⟨_, rfl, doCrewReferenceReceived_kept _ _ (h _ _ _)⟩
  | crewReferenceMissing => exact ⟨_, rfl, doCrewReferenceMissing_kept (h _ _ _)⟩
  | crewListenEnd => exact ⟨_, rfl, doCrewListenEnd_kept _ (h _ _ _)⟩
  | armRun => exact ⟨_, rfl, doArmRun_kept _ (h _ _ _)⟩
  | crewJoinReceived => exact ⟨_, rfl, doCrewJoinReceived_kept _ _ _ (h _ _ _)⟩
  | crewSummaryReceived => exact ⟨_, rfl, doCrewSummaryReceived_kept _ _ _ (h _ _ _)⟩
  | laneGone => exact ⟨_, rfl, doLaneGone_kept _ (h _ _ _)⟩
  | crewOrdersReceived => exact ⟨_, rfl, doCrewOrdersReceived_kept _ _ _ (h _ _ _)⟩
  | crewOutcomeReceived => exact ⟨_, rfl, doCrewOutcomeReceived_kept _ _ _ (h _ _ _)⟩
  | crewNoreply => exact ⟨_, rfl, doCrewNoreply_kept _ (h _ _ _)⟩
  | consoleLine => exact ⟨_, rfl, doConsoleLine_kept _ _ (h _ _ _)⟩
  | autobaud => exact ⟨_, rfl, doAutobaud_kept _ _ (h _ _ _)⟩
  | consoleBreak => exact ⟨_, rfl, doConsoleBreak_kept _ (h _ _ _)⟩
  | sessionIdle => exact ⟨_, rfl, doSessionIdle_kept _ (h _ _ _)⟩
  | loginLockoutEnd => exact ⟨_, rfl, doLoginLockoutEnd_kept _ (h _ _ _)⟩
  | challengeExpire => exact ⟨_, rfl, doChallengeExpire_kept _ (h _ _ _)⟩
  | noticeFlush => exact ⟨_, rfl, doNoticeFlush_kept _ (h _ _ _)⟩
  | lostNotice => exact ⟨_, rfl, doLostNotice_kept _ (h _ _ _)⟩
  | ping => exact ⟨_, rfl, doPing_kept _ (h _ _ _)⟩
  | loginInstaller => exact ⟨_, rfl, doLoginInstaller_kept _ _ (h _ _ _)⟩
  | loginTenant => exact ⟨_, rfl, doLoginTenant_kept _ _ _ (h _ _ _)⟩
  | loginService => exact ⟨_, rfl, doLoginService_kept _ (h _ _ _)⟩
  | auth => exact ⟨_, rfl, doAuth_kept _ _ _ (h _ _ _)⟩
  | logout => exact ⟨_, rfl, doLogout_kept _ (h _ _ _)⟩
  | whoami => exact ⟨_, rfl, doWhoami_kept _ (h _ _ _)⟩
  | passcode => exact ⟨_, rfl, doPasscode_kept _ _ _ (h _ _ _)⟩
  | showVersion => exact ⟨_, rfl, doShowVersion_kept _ (h _ _ _)⟩
  | showStart => exact ⟨_, rfl, doShowStart_kept _ _ (h _ _ _)⟩
  | showStatus => exact ⟨_, rfl, doShowStatus_kept _ (h _ _ _)⟩
  | showString => exact ⟨_, rfl, doShowString_kept _ _ (h _ _ _)⟩
  | showSeat => exact ⟨_, rfl, doShowSeat_kept _ _ (h _ _ _)⟩
  | showHelm => exact ⟨_, rfl, doShowHelm_kept _ (h _ _ _)⟩
  | showTicket => exact ⟨_, rfl, doShowTicket_kept _ (h _ _ _)⟩
  | showMdi => exact ⟨_, rfl, doShowMdi_kept _ (h _ _ _)⟩
  | showImd => exact ⟨_, rfl, doShowImd_kept _ (h _ _ _)⟩
  | showSin => exact ⟨_, rfl, doShowSin_kept _ (h _ _ _)⟩
  | showKpa => exact ⟨_, rfl, doShowKpa_kept _ (h _ _ _)⟩
  | showPart => exact ⟨_, rfl, doShowPart_kept _ (h _ _ _)⟩
  | showCrew => exact ⟨_, rfl, doShowCrew_kept _ (h _ _ _)⟩
  | showChain => exact ⟨_, rfl, doShowChain_kept _ (h _ _ _)⟩
  | showRadio => exact ⟨_, rfl, doShowRadio_kept _ (h _ _ _)⟩
  | showReset => exact ⟨_, rfl, doShowReset_kept _ (h _ _ _)⟩
  | showTally => exact ⟨_, rfl, doShowTally_kept _ (h _ _ _)⟩
  | getParam => exact ⟨_, rfl, doGetParam_kept _ _ (h _ _ _)⟩
  | openOrder => exact ⟨_, rfl, doOpenOrder_kept _ _ _ (h _ _ _)⟩
  | closeOrder => exact ⟨_, rfl, doCloseOrder_kept _ _ _ (h _ _ _)⟩
  | limitOrder => exact ⟨_, rfl, doLimitOrder_kept _ _ _ _ (h _ _ _)⟩
  | helmTake => exact ⟨_, rfl, doHelmTake_kept _ _ (h _ _ _)⟩
  | helmRelease => exact ⟨_, rfl, doHelmRelease_kept _ _ (h _ _ _)⟩
  | surge => exact ⟨_, rfl, doSurge_kept _ _ _ _ (h _ _ _)⟩
  | surgeRelease => exact ⟨_, rfl, doSurgeRelease_kept _ (h _ _ _)⟩
  | crewOrder => exact ⟨_, rfl, doCrewOrder_kept _ _ _ _ _ _ (h _ _ _)⟩
  | crewSurge => exact ⟨_, rfl, doCrewSurge_kept _ _ _ _ _ (h _ _ _)⟩
  | setParams => exact ⟨_, rfl, doSetParams_kept _ _ (h _ _ _)⟩
  | stageShow => exact ⟨_, rfl, doStageShow_kept _ (h _ _ _)⟩
  | stageCheck => exact ⟨_, rfl, doStageCheck_kept _ (h _ _ _)⟩
  | stageDrop => exact ⟨_, rfl, doStageDrop_kept _ (h _ _ _)⟩
  | stageDump => exact ⟨_, rfl, doStageDump_kept _ (h _ _ _)⟩
  | confirm => exact ⟨_, rfl, doConfirm_kept _ _ (h _ _ _)⟩
  | lcsCommission => exact ⟨_, rfl, doLcsCommission_kept _ _ (h _ _ _)⟩
  | lcsBlank => exact ⟨_, rfl, doLcsBlank_kept _ (h _ _ _)⟩
  | lcsSeal => exact ⟨_, rfl, doLcsSeal_kept _ (h _ _ _)⟩
  | lcsService => exact ⟨_, rfl, doLcsService_kept _ (h _ _ _)⟩
  | lcsRetire => exact ⟨_, rfl, doLcsRetire_kept _ (h _ _ _)⟩
  | clearEasy => exact ⟨_, rfl, doClearEasy_kept _ (h _ _ _)⟩
  | clearPrecharge => exact ⟨_, rfl, doClearPrecharge_kept _ _ (h _ _ _)⟩
  | clearWeld => exact ⟨_, rfl, doClearWeld_kept _ _ (h _ _ _)⟩
  | clearContactor => exact ⟨_, rfl, doClearContactor_kept _ _ (h _ _ _)⟩
  | clearMdi => exact ⟨_, rfl, doClearMdi_kept _ (h _ _ _)⟩
  | clearSin => exact ⟨_, rfl, doClearSin_kept _ _ (h _ _ _)⟩
  | clearImd => exact ⟨_, rfl, doClearImd_kept _ (h _ _ _)⟩
  | clearSeat => exact ⟨_, rfl, doClearSeat_kept _ _ (h _ _ _)⟩
  | clearKbat => exact ⟨_, rfl, doClearKbat_kept _ (h _ _ _)⟩
  | clearAux => exact ⟨_, rfl, doClearAux_kept _ (h _ _ _)⟩
  | stop => exact ⟨_, rfl, doStop_kept _ (h _ _ _)⟩
  | ship => exact ⟨_, rfl, doShip_kept _ (h _ _ _)⟩
  | hibernate => exact ⟨_, rfl, doHibernate_kept _ (h _ _ _)⟩
  | kbatStart => exact ⟨_, rfl, doKbatStart_kept _ (h _ _ _)⟩
  | kbatStop => exact ⟨_, rfl, doKbatStop_kept _ (h _ _ _)⟩
  | suspend => exact ⟨_, rfl, doSuspend_kept _ _ (h _ _ _)⟩
  | resume => exact ⟨_, rfl, doResume_kept _ _ (h _ _ _)⟩
  | pairSeat => exact ⟨_, rfl, doPairSeat_kept _ _ (h _ _ _)⟩
  | pairAll => exact ⟨_, rfl, doPairAll_kept _ (h _ _ _)⟩
  | estSave => exact ⟨_, rfl, doEstSave_kept _ (h _ _ _)⟩
  | estRestoreBegin => exact ⟨_, rfl, doEstRestoreBegin_kept _ _ (h _ _ _)⟩
  | estRestoreData => exact ⟨_, rfl, doEstRestoreData_kept _ _ _ (h _ _ _)⟩
  | estRestoreEnd => exact ⟨_, rfl, doEstRestoreEnd_kept _ (h _ _ _)⟩
  | logHead => exact ⟨_, rfl, doLogHead_kept _ _ (h _ _ _)⟩
  | logRead => exact ⟨_, rfl, doLogRead_kept _ _ _ _ (h _ _ _)⟩
  | logRelease => exact ⟨_, rfl, doLogRelease_kept _ _ _ (h _ _ _)⟩
  | logSubmit => exact ⟨_, rfl, State.byRequester_kept (h _ _ _) (doLogSubmit_kept _ (h _ _ _))⟩
  | logRecordWrite => exact ⟨_, rfl, doLogRecordWrite_kept (h _ _ _)⟩
  | logCursorLoad => exact ⟨_, rfl, State.byRequester_kept (h _ _ _) (doLogCursorLoad_kept _ _ (h _ _ _))⟩
  | logWindowAdvance => exact ⟨_, rfl, State.byRequester_kept (h _ _ _) (doLogWindowAdvance_kept _ (h _ _ _))⟩
  | logBookRelease => exact ⟨_, rfl, State.byRequester_kept (h _ _ _) (doLogBookRelease_kept _ _ (h _ _ _))⟩
  | tallyAccCommit => exact ⟨_, rfl, doTallyAccCommit_kept _ (h _ _ _)⟩
  | efcProgram => exact ⟨_, rfl, State.byRequester_kept (h _ _ _) (doEfcProgram_kept _ _ (h _ _ _))⟩
  | efcErase => exact ⟨_, rfl, State.byRequester_kept (h _ _ _) (doEfcErase_kept _ _ (h _ _ _))⟩
  | efcTolerantRead => exact ⟨_, rfl, State.byRequester_kept (h _ _ _) (doEfcTolerantRead_kept _ _ _ (h _ _ _))⟩
  | efcOperationDone => exact ⟨_, rfl, doEfcOperationDone_kept _ (h _ _ _)⟩
  | sectorRefresh => exact ⟨_, rfl, doSectorRefresh_kept (h _ _ _)⟩
  | tagReqa => exact ⟨_, rfl, doTagReqa_kept (h _ _ _)⟩
  | tagWupa => exact ⟨_, rfl, doTagWupa_kept (h _ _ _)⟩
  | tagAnticollision => exact ⟨_, rfl, doTagAnticollision_kept _ _ (h _ _ _)⟩
  | tagSelect => exact ⟨_, rfl, doTagSelect_kept _ _ (h _ _ _)⟩
  | tagHlta => exact ⟨_, rfl, doTagHlta_kept (h _ _ _)⟩
  | tagRead => exact ⟨_, rfl, doTagRead_kept _ (h _ _ _)⟩
  | tagWrite => exact ⟨_, rfl, doTagWrite_kept _ _ _ _ (h _ _ _)⟩
  | tagCompatWrite => exact ⟨_, rfl, doTagCompatWrite_kept _ _ _ _ (h _ _ _)⟩
  | tagSectorSelect => exact ⟨_, rfl, doTagSectorSelect_kept _ (h _ _ _)⟩
  | tagFieldOn => exact ⟨_, rfl, doTagFieldOn_kept (h _ _ _)⟩
  | tagFieldOff => exact ⟨_, rfl, doTagFieldOff_kept (h _ _ _)⟩
  | tagHostStore => exact ⟨_, rfl, State.byRequester_kept (h _ _ _) (doTagHostStore_kept _ _ (h _ _ _))⟩
  | tagFlush => exact ⟨_, rfl, State.byRequester_kept (h _ _ _) (doTagFlush_kept (h _ _ _))⟩
  | tagRowProgramDone => exact ⟨_, rfl, doTagRowProgramDone_kept _ (h _ _ _)⟩
  | tagConfirmation => exact ⟨_, rfl, doTagConfirmation_kept (h _ _ _)⟩
  | tagMailboxRequest => exact ⟨_, rfl, doTagMailboxRequest_kept (h _ _ _)⟩
  | tagSemaphoreTake => exact ⟨_, rfl, State.byRequester_kept (h _ _ _) (doTagSemaphoreTake_kept (h _ _ _))⟩
  | tagSemaphoreRelease => exact ⟨_, rfl, State.byRequester_kept (h _ _ _) (doTagSemaphoreRelease_kept (h _ _ _))⟩
  | tagFieldIdleRelease => exact ⟨_, rfl, doTagFieldIdleRelease_kept (h _ _ _)⟩
  | tagWipe => exact ⟨_, rfl, State.byRequester_kept (h _ _ _) (doTagWipe_kept _ (h _ _ _))⟩
  | qpPush => exact ⟨_, rfl, State.byRequester_kept (h _ _ _) (doQpPush_kept _ _ (h _ _ _))⟩
  | qpChainRun => exact ⟨_, rfl, doQpChainRun_kept _ (h _ _ _)⟩
  | qpChainEnd => exact ⟨_, rfl, doQpChainEnd_kept _ (h _ _ _)⟩
  | xipMiss => exact ⟨_, rfl, doXipMiss_kept _ _ (h _ _ _)⟩
  | xipLineDone => exact ⟨_, rfl, doXipLineDone_kept _ _ _ _ (h _ _ _)⟩
  | xipInvalidate => exact ⟨_, rfl, State.byRequester_kept (h _ _ _) (doXipInvalidate_kept (h _ _ _))⟩
  | qpSlaveFrame => exact ⟨_, rfl, doQpSlaveFrame_kept _ _ (h _ _ _)⟩
  | gpioSet => exact ⟨_, rfl, State.byRequester_kept (h _ _ _) (doGpioSet_kept _ _ (h _ _ _))⟩
  | gpioClr => exact ⟨_, rfl, State.byRequester_kept (h _ _ _) (doGpioClr_kept _ _ (h _ _ _))⟩
  | gpioEdge => exact ⟨_, rfl, doGpioEdge_kept _ _ (h _ _ _)⟩
  | debugAuth => exact ⟨_, rfl, doDebugAuth_kept _ (h _ _ _)⟩
  | debugHalt => exact ⟨_, rfl, doDebugHalt_kept (h _ _ _)⟩
  | debugResume => exact ⟨_, rfl, doDebugResume_kept (h _ _ _)⟩
  | debugStep => exact ⟨_, rfl, doDebugStep_kept (h _ _ _)⟩
  | debugAbstractCommand => exact ⟨_, rfl, doDebugAbstractCommand_kept _ _ (h _ _ _)⟩
  | debugProgramBuffer => exact ⟨_, rfl, doDebugProgramBuffer_kept _ _ (h _ _ _)⟩
  | debugSysbusRead => exact ⟨_, rfl, doDebugSysbusRead_kept _ (h _ _ _)⟩
  | debugResetRequest => exact ⟨_, rfl, doDebugResetRequest_kept (h _ _ _)⟩
  | secSha256 => exact ⟨_, rfl, State.secStart_kept _ (h _ _ _)⟩
  | secAesEcb => exact ⟨_, rfl, State.secStart_kept _ (h _ _ _)⟩
  | secAesCcm => exact ⟨_, rfl, State.secStart_kept _ (h _ _ _)⟩
  | secAesCmac => exact ⟨_, rfl, State.secStart_kept _ (h _ _ _)⟩
  | secEcdsaVerify => exact ⟨_, rfl, State.secStart_kept _ (h _ _ _)⟩
  | secOperationDone => exact ⟨_, rfl, doSecOperationDone_kept _ (h _ _ _)⟩
  | secKeyLoad => exact ⟨_, rfl, doSecKeyLoad_kept _ (h _ _ _)⟩
  | secKeyGenerate => exact ⟨_, rfl, doSecKeyGenerate_kept _ (h _ _ _)⟩
  | secRandomRead => exact ⟨_, rfl, doSecRandomRead_kept (h _ _ _)⟩
  | finishDeadline => exact ⟨_, rfl, doFinishDeadline_kept (h _ _ _)⟩
  | fcsSample => exact ⟨_, rfl, doFcsSample_kept _ (h _ _ _)⟩
  | hvsConversion => exact ⟨_, rfl, doHvsConversion_kept _ _ (h _ _ _)⟩
  | tmpConversion => exact ⟨_, rfl, doTmpConversion_kept _ _ (h _ _ _)⟩
  | sourceLimit => exact ⟨_, rfl, doSourceLimit_kept _ _ _ (h _ _ _)⟩
  | auxTargetReached => exact ⟨_, rfl, doAuxTargetReached_kept (h _ _ _)⟩
  | pullinEnd => exact ⟨_, rfl, doPullinEnd_kept _ (h _ _ _)⟩
  | lockAcquired => exact ⟨_, rfl, doLockAcquired_kept _ (h _ _ _)⟩
  | consoleByteReceived => exact ⟨_, rfl, doConsoleByteReceived_kept _ _ _ (h _ _ _)⟩
  | consoleByteSent => exact ⟨_, rfl, doConsoleByteSent_kept _ (h _ _ _)⟩

theorem kept_of_exec {c : Instr} {s t : State} (h : exec c s = .next t) : Kept (mayStore c) (mayKeep c) (mayApply c) s t := by
  obtain ⟨u, hu, hkept⟩ := exec_kept c s
  obtain rfl : u = t := Host.Outcome.next.inj (hu.symm.trans h)
  exact hkept

theorem step_of_empty {s : State} (h : s.pending = []) : step s = .next s := by rw [step, h]

theorem step_of_waiting {s : State} {c : Instr} {rest : List Instr} (h : s.pending = c :: rest) :
    step s = exec c { s with pending := rest } := by rw [step, h]

/-- A step answers a next state: the same with no command waiting, that of the oldest command otherwise. -/
theorem not_stuck (s : State) : ¬ Stuck s := fun hstuck => hstuck <| by
  cases hpending : s.pending with
  | nil => exact ⟨s, step_of_empty hpending⟩
  | cons c rest =>
    obtain ⟨t, ht, -⟩ := exec_kept c { s with pending := rest }
    exact ⟨t, (step_of_waiting hpending).trans ht⟩

theorem Kept.canon {cm cn ci : Bool} {s t : State} (h : Kept cm cn ci s t) (hs : Canon s) : Canon t := by
  obtain ⟨hregs, hmem, hacts⟩ := hs
  exact ⟨h.regs hregs, h.mem hmem, h.acts hacts⟩

/-- Settles O1: `step` is defined by the front of the queue. -/
theorem stepRunsFrontCommand : Obligations.StepRunsFrontCommand :=
  ⟨fun _ _ _ => step_of_waiting rfl, fun _ => step_of_empty⟩

/-- Settles O3: the queue is no part of the canonical form, and what each command keeps includes it. -/
theorem stepKeepsCanonicalForm : Obligations.StepKeepsCanonicalForm := by
  unfold Obligations.StepKeepsCanonicalForm
  intro s t hs hstep
  cases hpending : s.pending with
  | nil =>
    rw [step_of_empty hpending] at hstep
    cases hstep
    exact hs
  | cons c rest =>
    rw [step_of_waiting hpending] at hstep
    exact (kept_of_exec hstep).canon hs

/-- Settles O2: each command answers a state that keeps the queue and the order of the draws. -/
theorem everyCommandCompletesAndLeavesTheQueue : Obligations.EveryCommandCompletesAndLeavesTheQueue := by
  refine ⟨⟨fun c s => ?_, not_stuck⟩, fun c s t h => ⟨(kept_of_exec h).queue, (kept_of_exec h).free⟩⟩
  obtain ⟨t, ht, -⟩ := exec_kept c s
  exact ⟨t, ht⟩

/-- Settles O4: a command that is not listed keeps the memory, or the non-volatile store, as it is. -/
theorem storedContentChangesOnlyByListedCommands : Obligations.StoredContentChangesOnlyByListedCommands :=
  ⟨fun _ _ _ hlisted h => SameMem.of_mem ((kept_of_exec h).memSame hlisted), fun _ _ _ hlisted h => (kept_of_exec h).nvSame hlisted⟩

/-- Settles O5: a parameter's value is that of the configuration in force, which a command that is not listed keeps. -/
theorem parametersInForceChangeOnlyWhenApplied : Obligations.ParametersInForceChangeOnlyWhenApplied := by
  unfold Obligations.ParametersInForceChangeOnlyWhenApplied
  intro c s t hlisted h n i
  rw [State.par, State.par, (kept_of_exec h).forceSame hlisted]

theorem State.reset_rd (a : Nat) : State.reset.rd a = regReset a := rfl

/-- Settles O6: the tables of registers and memory are empty at reset, so every address reads its default. -/
theorem resetState : Obligations.ResetState := by
  refine ⟨⟨rfl, rfl, rfl⟩, rfl, State.reset_rd, fun _ => rfl, rfl, ?_, ?_, ?_, rfl, rfl⟩
  · rw [State.rdN, State.reset_rd]
    decide +kernel
  · rw [State.rdN, State.reset_rd]
    decide +kernel
  · rw [State.bit, State.fld, State.rdN, State.reset_rd]
    decide +kernel

end Sys2Proof.Machine
end

section
/-!
PROOFS. Register accesses of the Cox (R7, R8, R23): what a plain write and a completed read leave in a register, bit by bit. They settle O7 and O8.
-/

namespace Sys2Proof.Machine

/-! Bits of a register after a write -/

theorem State.bit_wrN_self (s : State) (a n : Nat) {b : Nat} (hb : b < 32) : (s.wrN a n).bit a b = n.testBit b := by
  rw [State.bit_eq_testBit, State.rdN_wrN_self, Nat.testBit_mod_two_pow, decide_eq_true hb, Bool.true_and]

theorem testBit_allOnes32 {b : Nat} (hb : b < 32) : (2 ^ 32 - 1).testBit b = true := by
  rw [Nat.testBit_two_pow_sub_one]
  exact decide_eq_true hb

theorem and_allOnes32 {n : Nat} (hn : n < 2 ^ 32) : n &&& (2 ^ 32 - 1) = n := by
  rw [Nat.and_two_pow_sub_one_eq_mod, Nat.mod_eq_of_lt hn]

/-- The Cox has no copy of its own of any register. -/
theorem regFor_cox (a : Nat) : regFor .cox a = a := ite_self a

theorem OnlyRegs.wrN (s : State) (a n : Nat) : OnlyRegs s (s.wrN a n) [a] :=
  ⟨(RegsBut.refl s _).wrN n (by simp), SameMem.of_mem rfl, rfl⟩

/-! A plain register -/

/-- What a plain register is to the Cox: one it reaches whole, and may write. -/
theorem plainReg.access {s : State} {a : Nat} (h : plainReg s a) :
    inPeriph a = true ∧ a % 4 = 0 ∧ s.reachMask .cox a = 2 ^ 32 - 1 ∧ s.mayWrite .cox a = true := by
  obtain ⟨hperiph, halign, -, hgpio, hdbg, -⟩ := h
  exact ⟨hperiph, halign, if_neg hgpio, decide_eq_true hdbg⟩

theorem plainReg.afterWrite {s : State} {a : Nat} (h : plainReg s a) (t : State) (v old : Nat) : t.afterWrite a v old = t := by
  obtain ⟨-, -, hqp, -, -, -, hl1, hl2, hsin⟩ := h
  simp only [List.mem_cons, List.not_mem_nil, or_false, not_or] at hl1 hl2
  simp [State.afterWrite, hl1, hl2, hsin, hqp]

/-- Of the write of a plain register the access codes alone decide each bit (R7, R8). -/
theorem plainReg.bit_writeReg {s : State} {a : Nat} (h : plainReg s a) {r : RegRow} (hrow : regRow a = some r) (v : Nat) {b : Nat} (hb : b < 32) :
    (s.writeReg .cox a v).bit a b = if r.rw.testBit b then v.testBit b else s.bit a b && !(r.w1c.testBit b && v.testBit b) := by
  obtain ⟨-, -, hreach, -⟩ := plainReg.access h
  obtain ⟨-, -, -, -, -, hkept, -⟩ := h
  have hold : (s.rdN a &&& r.rw) - (s.rdN a &&& r.rw &&& (2 ^ 32 - 1)) = 0 := by
    rw [and_allOnes32 (Nat.lt_of_le_of_lt Nat.and_le_left (s.rdN_lt a)), Nat.sub_self]
  have hv : (v &&& (2 ^ 32 - 1)).testBit b = v.testBit b := by rw [Nat.testBit_and, testBit_allOnes32 hb, Bool.and_true]
  simp only [State.writeReg, hrow, regFor_cox, hreach, hkept, Nat.and_zero, Nat.sub_zero, hold, Nat.add_zero]
  rw [State.bit_wrN_self _ _ _ hb, testBit_writeByAccess, hv, State.bit_eq_testBit]

theorem State.writeReg_onlyRegs (s : State) (a v : Nat) : OnlyRegs s (s.writeReg .cox a v) [a] := by
  unfold State.writeReg
  split
  · exact ⟨RegsBut.refl s _, SameMem.refl s, rfl⟩
  · rw [regFor_cox]
    exact OnlyRegs.wrN s a _

theorem plainReg.doRegisterWrite_eq {s : State} {a : Nat} (h : plainReg s a) {v : Word} (hawake : s.awake = true) (hquota : s.quotaRejected a v.toNat = false) :
    doRegisterWrite s .cox a v = s.writeReg .cox a v.toNat := by
  obtain ⟨hperiph, halign, hreach, hwrite⟩ := plainReg.access h
  simp [doRegisterWrite, hawake, hperiph, halign, hreach, hwrite, hquota, plainReg.afterWrite h]

/-- Settles O7: a plain write is `writeReg` alone, whose bits the access codes decide. -/
theorem registerWriteFollowsAccessCodes : Obligations.RegisterWriteFollowsAccessCodes := by
  unfold Obligations.RegisterWriteFollowsAccessCodes
  refine ⟨fun s a v r hawake hplain hrow hquota => ⟨doRegisterWrite s .cox a v, rfl, ?_⟩, fun s a v hquota => congrArg Host.Outcome.next ?_⟩
  · rw [plainReg.doRegisterWrite_eq hplain hawake hquota]
    exact ⟨fun b hb => plainReg.bit_writeReg hplain hrow _ hb, s.writeReg_onlyRegs a _⟩
  · simp [doRegisterWrite, hquota]

/-! A completed read -/

theorem testBit_readClear (r : RegRow) (old b : Nat) :
    (old - (old &&& r.rc) + (r.reset &&& r.rc)).testBit b = if r.rc.testBit b then r.reset.testBit b else old.testBit b := by
  have hdisjoint : (old - (old &&& r.rc)) &&& (r.reset &&& r.rc) = 0 := by
    apply Nat.eq_of_testBit_eq
    intro i
    simp only [Nat.testBit_and, testBit_sub_and, Nat.zero_testBit]
    cases r.rc.testBit i <;> simp
  rw [add_eq_or _ _ hdisjoint]
  simp only [Nat.testBit_or, Nat.testBit_and, testBit_sub_and]
  cases r.rc.testBit b <;> simp

theorem wordOf_rdN (s : State) (a : Nat) : wordOf (s.rdN a) = s.rd a := BitVec.ofNat_toNat _ _ |>.trans (BitVec.setWidth_eq _)

theorem plainReg.doReadClear_eq {s : State} {a : Nat} (h : plainReg s a) (hawake : s.awake = true) : doReadClear s .cox a false = s.readClear .cox a := by
  obtain ⟨hperiph, halign, hreach, -⟩ := plainReg.access h
  obtain ⟨-, -, hqp, -, -, -, hl1, hl2, -⟩ := h
  simp only [List.mem_cons, List.not_mem_nil, or_false, not_or] at hl1 hl2
  have hqueue : a ≠ Reg.QP_SLVRX := fun ha => hqp (by rw [ha]; decide)
  simp [doReadClear, hawake, hperiph, halign, hreach, State.mayRead, hl1, hl2, hqp, hqueue]

/-- A read of a plain register gives its value and its RC bits their reset values (R7). -/
theorem plainReg.readClear_eq {s : State} {a : Nat} (h : plainReg s a) {r : RegRow} (hrow : regRow a = some r) :
    s.readClear .cox a = { s.wrN a (s.rdN a - (s.rdN a &&& r.rc) + (r.reset &&& r.rc)) with rdata := s.rd a } := by
  obtain ⟨-, -, hreach, -⟩ := plainReg.access h
  simp only [State.readClear, hrow, regFor_cox, hreach, and_allOnes32 (s.rdN_lt a), wordOf_rdN]

/-- Settles O8: a completed read is `readClear` alone; what may not read or write ends at the first test. -/
theorem readClearReturnsAndClears : Obligations.ReadClearReturnsAndClears := by
  unfold Obligations.ReadClearReturnsAndClears
  refine ⟨fun s a r hawake hplain hrow => ⟨doReadClear s .cox a false, rfl, ?_⟩, fun s rq a => congrArg Host.Outcome.next ?_,
    fun s rq a hright => congrArg Host.Outcome.next ?_, fun s rq a v hright => congrArg Host.Outcome.next ?_⟩
  · rw [plainReg.doReadClear_eq hplain hawake, plainReg.readClear_eq hplain hrow]
    obtain ⟨hregs, hmem, -⟩ := OnlyRegs.wrN s a (s.rdN a - (s.rdN a &&& r.rc) + (r.reset &&& r.rc))
    refine ⟨rfl, fun b hb => ?_, hregs, hmem, rfl⟩
    rw [s.bit_eq_testBit, ← testBit_readClear]
    exact State.bit_wrN_self s a _ hb
  · simp [doReadClear]
  · simp [doReadClear, hright]
  · simp [doRegisterWrite, hright]

end Sys2Proof.Machine
end

section
/-!
PROOFS. Camlan's entry into easy (R54, R416): which registers and which parts of the state an entry of the tally, a freed helm, the orders to open and the notices touch, and what Camlan then shows.
-/

namespace Sys2Proof.Machine

/-- What leaves the registers as they are. -/
theorem RegsBut.congr {s t u : State} {l : List Nat} (h : RegsBut s t l) (hregs : u.regs = t.regs) : RegsBut s u l := h.trans (RegsBut.of_regs hregs)

/-! Entries of the tally -/

/-- What an entry of the tally and its records touch. -/
abbrev TallyFrame (s t : State) : Prop := t = { s with regs := t.regs, mem := t.mem, log := t.log, nv := t.nv, tally := t.tally }

theorem TallyFrame.trans {s t u : State} (h : TallyFrame s t) (k : TallyFrame t u) : TallyFrame s u := by
  rw [k]
  exact congrArg (fun x : State => { x with regs := u.regs, mem := u.mem, log := u.log, nv := u.nv, tally := u.tally }) h

theorem TallyFrame.refl (s : State) : TallyFrame s s := rfl

theorem TallyFrame.of_log {s t : State} (h : LogFrame s t) : TallyFrame s t := by
  rw [h]

theorem TallyFrame.of_mem (s : State) (a : Nat) (l : List Byte) : TallyFrame s (s.wrBytes a l) := by
  rw [State.wrBytes_eq]

theorem TallyFrame.ite {s a b : State} {c : Prop} [Decidable c] (ha : TallyFrame s a) (hb : TallyFrame s b) : TallyFrame s (if c then a else b) := by
  split
  · exact ha
  · exact hb

theorem TallyFrame.foldl {α : Type} (f : State → α → State) (hf : ∀ t x, TallyFrame t (f t x)) (l : List α) (s : State) : TallyFrame s (l.foldl f s) := by
  induction l generalizing s with
  | nil => rfl
  | cons x l ih => exact (hf s x).trans (ih _)

theorem State.tallyAppend_eq (s : State) (id v : Nat) : TallyFrame s (s.tallyAppend id v) := by
  rw [State.tallyAppend, State.wrBytes_eq]

theorem State.eraseMilestone_eq (s : State) (sector n : Nat) : TallyFrame s (s.eraseMilestone sector n) :=
  TallyFrame.ite (TallyFrame.of_log (State.logIn_eq s 0 _ 0 _)) rfl

theorem State.tallyCompact_eq (s : State) : TallyFrame s s.tallyCompact := by
  unfold State.tallyCompact
  dsimp only
  refine TallyFrame.trans ?_ ((TallyFrame.of_mem _ _ _).trans ((TallyFrame.of_log (State.logIn_eq _ 0 _ 0 _)).trans (State.eraseMilestone_eq _ _ _)))
  refine TallyFrame.trans ?_ (TallyFrame.foldl _ (fun t id => State.tallyAppend_eq t id _) _ _)
  rfl

theorem State.tallyWrite_eq (s : State) (id v : Nat) : TallyFrame s (s.tallyWrite id v) :=
  TallyFrame.trans (TallyFrame.ite s.tallyCompact_eq rfl) (State.tallyAppend_eq _ _ _)

theorem State.tallyOp_eq (s : State) (id : Nat) : TallyFrame s (s.tallyOp id) :=
  TallyFrame.ite rfl (TallyFrame.ite rfl (TallyFrame.trans rfl (State.tallyWrite_eq _ _ _)))

theorem State.tallyFlush_eq (s : State) : TallyFrame s s.tallyFlush :=
  TallyFrame.ite rfl (TallyFrame.trans (t := { s with tally := { s.tally with keptOps := [] } }) rfl (TallyFrame.foldl _ (fun t _ => TallyFrame.ite rfl (t.tallyWrite_eq _ _)) _ _))

theorem State.tallyCommit_eq (s : State) : TallyFrame s s.tallyCommit :=
  TallyFrame.trans (t := { s with tally := { s.tally with acc := [] } }) rfl (TallyFrame.foldl _ (fun t _ => TallyFrame.ite rfl (t.tallyWrite_eq _ _)) _ _)

theorem RegsBut.tallyAppend {s t : State} {l : List Nat} (id v : Nat) (h : RegsBut s t l) : RegsBut s (t.tallyAppend id v) l := by
  unfold State.tallyAppend
  exact RegsBut.mk_iff.mpr (h.wrBytes _ _)

theorem RegsBut.tallyCompact {s t : State} {l : List Nat} (h : RegsBut s t l) (ha : ∀ a, a ∈ logRegs 0 → a ∈ l) : RegsBut s t.tallyCompact l := by
  unfold State.tallyCompact State.eraseMilestone
  dsimp only
  refine RegsBut.ite (fun _ => RegsBut.logS _ _ ?_ ha) (fun _ => ?_)
  all_goals
    refine RegsBut.logS _ _ (RegsBut.wrBytes _ _ (RegsBut.foldl _ _ (fun _ _ _ hu => hu.tallyAppend _ _) ?_)) ha
    exact h.congr rfl

theorem RegsBut.tallyWrite {s t : State} {l : List Nat} (id v : Nat) (h : RegsBut s t l) (ha : ∀ a, a ∈ logRegs 0 → a ∈ l) : RegsBut s (t.tallyWrite id v) l :=
  (RegsBut.ite (fun _ => h.tallyCompact ha) (fun _ => h)).tallyAppend _ _

theorem RegsBut.tallyOp {s t : State} {l : List Nat} (id : Nat) (h : RegsBut s t l) (ha : ∀ a, a ∈ logRegs 0 → a ∈ l) : RegsBut s (t.tallyOp id) l :=
  RegsBut.ite (fun _ => h) (fun _ => RegsBut.ite (fun _ => h.congr rfl)
    (fun _ => RegsBut.tallyWrite _ _ (h.congr rfl) ha))

/-! The helm freed, the strings to open, the events and the notices -/

theorem RegsBut.setHelm {s t : State} {l : List Nat} (x : Helm) (cause : Nat) (h : RegsBut s t l) (h0 : ∀ a, a ∈ logRegs 0 → a ∈ l)
    (h1 : ∀ a, a ∈ logRegs 1 → a ∈ l) : RegsBut s (t.setHelm x cause) l :=
  RegsBut.logT0 _ _ (RegsBut.logS _ _ (h.congr rfl) h0) h1

theorem RegsBut.freeHelm {s t : State} {l : List Nat} (cause : Nat) (h : RegsBut s t l) (h0 : ∀ a, a ∈ logRegs 0 → a ∈ l)
    (h1 : ∀ a, a ∈ logRegs 1 → a ∈ l) : RegsBut s (t.freeHelm cause) l := by
  unfold State.freeHelm
  dsimp only
  split
  · exact h
  · split
    · exact (h.setHelm _ _ h0 h1).notice _ _
    · exact h.setHelm _ _ h0 h1

/-- The registers of the partitions' pending events. -/
def evpRegs : List Nat := (List.range 7).map Reg.PART_EVP

theorem RegsBut.setEvpAll {s t : State} {l : List Nat} (bits : Nat) (h : RegsBut s t l) (he : ∀ a, a ∈ evpRegs → a ∈ l) : RegsBut s (t.setEvpAll bits) l :=
  RegsBut.foldl _ _ (fun _ _ hk hu => RegsBut.ite (fun _ => hu.orReg _ (he _ (List.mem_map_of_mem hk))) (fun _ => hu)) h

theorem State.openAll_eq (s : State) : s.openAll = { s with ctr := { s.ctr with strs := s.openAll.ctr.strs } } := by
  unfold State.openAll
  refine List.foldlRecOn (motive := fun t : State => t = { s with ctr := { s.ctr with strs := t.ctr.strs } }) _ _ rfl fun t ht i _ => ?_
  rw [ht]

/-- What freeing the helm touches. -/
abbrev HelmFrame (s t : State) : Prop :=
  t = { s with regs := t.regs, log := t.log, con0 := t.con0, con1 := t.con1, cam := { s.cam with helm := t.cam.helm } }

theorem State.setHelm_eq (s : State) (x : Helm) (cause : Nat) : HelmFrame s (s.setHelm x cause) := by
  have h := State.logS0_eq { s with cam := { s.cam with helm := x } } 0x0224 (u8 s.cam.helm.holder ++ u8 x.holder ++ u8 cause)
  rw [State.setHelm, h]

theorem State.freeHelm_eq (s : State) (cause : Nat) : HelmFrame s (s.freeHelm cause) := by
  have h := State.setHelm_eq s Helm.free cause
  unfold State.freeHelm
  dsimp only
  split
  · rfl
  · split
    · rw [State.notice_eq, h]
    · exact h

theorem State.setEvpAll_eq (s : State) (bits : Nat) : s.setEvpAll bits = { s with regs := (s.setEvpAll bits).regs } := by
  unfold State.setEvpAll
  refine List.foldlRecOn (motive := fun t : State => t = { s with regs := t.regs }) _ _ rfl fun t ht i _ => ?_
  split
  · rw [ht]
    rfl
  · exact ht

/-! Easy -/

/-- The registers that an entry into easy touches. -/
def easyRegs : List Nat := logRegs 0 ++ logRegs 1 ++ evpRegs

theorem logRegs_subset_easyRegs {b : Nat} (hb : b ≤ 1) {a : Nat} (h : a ∈ logRegs b) : a ∈ easyRegs := by
  obtain rfl | rfl := Nat.le_one_iff_eq_zero_or_eq_one.mp hb
  · exact List.mem_append_left _ (List.mem_append_left _ h)
  · exact List.mem_append_left _ (List.mem_append_right _ h)

/-- What Camlan does when it enters easy, once its state shows it. -/
def State.easyActs (s : State) (cause : Nat) : State :=
  (((s.tallyOp 0x50).freeHelm 10).openAll.setEvpAll 0x80).noticeAll ("easy cause=" ++ hex0x cause)

/-- Camlan shown in easy by a cause. -/
def State.inEasyBy (s : State) (cause : Nat) : State :=
  { s with cam := { s.cam with state := if s.cam.state = CamState.stake then .stake else .easy, easyCauses := [cause], quietSince := none } }

/-- A cause that takes effect, once it is logged. -/
def State.easyLogged (s : State) (cause : Nat) : State :=
  if s.inEasy then { s with cam := { s.cam with easyCauses := s.cam.easyCauses ++ [cause] } } else (s.inEasyBy cause).easyActs cause

theorem State.easyNow_eq (s : State) (cause : Nat) : s.easyNow cause = (s.logS 0x0202 (u8 cause)).easyLogged cause := rfl

theorem RegsBut.easyActs {s t : State} {l : List Nat} (cause : Nat) (h : RegsBut s t l) (ha : ∀ a, a ∈ easyRegs → a ∈ l) : RegsBut s (t.easyActs cause) l := by
  have h0 : ∀ a, a ∈ logRegs 0 → a ∈ l := fun a h => ha a (logRegs_subset_easyRegs (by decide) h)
  have h1 : ∀ a, a ∈ logRegs 1 → a ∈ l := fun a h => ha a (logRegs_subset_easyRegs (by decide) h)
  refine RegsBut.noticeAll _ (RegsBut.setEvpAll _ (RegsBut.congr ?_ (congrArg State.regs (State.openAll_eq _) :)) fun a h => ha a (List.mem_append_right _ h))
  exact (h.tallyOp _ h0).freeHelm _ h0 h1

theorem RegsBut.easyLogged {s t : State} {l : List Nat} (cause : Nat) (h : RegsBut s t l) (ha : ∀ a, a ∈ easyRegs → a ∈ l) : RegsBut s (t.easyLogged cause) l :=
  RegsBut.ite (fun _ => h.congr rfl) (fun _ => RegsBut.easyActs cause (h.congr (u := t.inEasyBy cause) rfl) ha)

theorem RegsBut.easyNow {s t : State} {l : List Nat} (cause : Nat) (h : RegsBut s t l) (ha : ∀ a, a ∈ easyRegs → a ∈ l) : RegsBut s (t.easyNow cause) l := by
  rw [State.easyNow_eq]
  exact (h.logS _ _ fun a h => ha a (logRegs_subset_easyRegs (by decide) h)).easyLogged cause ha

theorem RegsBut.easy {s t : State} {l : List Nat} (cause : Nat) (h : RegsBut s t l) (ha : ∀ a, a ∈ easyRegs → a ∈ l) : RegsBut s (t.easy cause) l := by
  unfold State.easy State.easyHeld
  split
  · exact RegsBut.ite (fun _ => h) (fun _ => h.congr rfl)
  · split
    · exact h.congr rfl
    · exact h.easyNow cause ha

/-- What an entry into easy touches. -/
abbrev EasyFrame (s t : State) : Prop :=
  t = { s with
    regs := t.regs, mem := t.mem, log := t.log, nv := t.nv, tally := t.tally, con0 := t.con0, con1 := t.con1, cam := t.cam, ctr := { s.ctr with strs := t.ctr.strs } }

theorem EasyFrame.trans {s t u : State} (h : EasyFrame s t) (k : EasyFrame t u) : EasyFrame s u := by
  rw [k]
  exact congrArg (fun x : State => { x with
    regs := u.regs, mem := u.mem, log := u.log, nv := u.nv, tally := u.tally, con0 := u.con0, con1 := u.con1, cam := u.cam, ctr := { x.ctr with strs := u.ctr.strs } }) h

theorem EasyFrame.of_tally {s t : State} (h : TallyFrame s t) : EasyFrame s t := by rw [h]

theorem EasyFrame.of_helm {s t : State} (h : HelmFrame s t) : EasyFrame s t := by rw [h]

theorem EasyFrame.of_con {s t : State} (h : ConFrame s t) : EasyFrame s t := by rw [h]

theorem EasyFrame.setEvpAll (s : State) (bits : Nat) : EasyFrame s (s.setEvpAll bits) := by rw [State.setEvpAll_eq]

theorem EasyFrame.openAll (s : State) : EasyFrame s s.openAll := by rw [State.openAll_eq]

theorem State.easyActs_eq (s : State) (cause : Nat) : EasyFrame s (s.easyActs cause) :=
  (((EasyFrame.of_tally (s.tallyOp_eq _)).trans (EasyFrame.of_helm (State.freeHelm_eq _ _))).trans (EasyFrame.openAll _)).trans
    ((EasyFrame.setEvpAll _ _).trans (EasyFrame.of_con (State.noticeAll_eq _ _)))

theorem State.easyActs_cam (s : State) (cause : Nat) : (s.easyActs cause).cam = { s.cam with helm := (s.easyActs cause).cam.helm } := by
  have hcam : (s.easyActs cause).cam = ((s.tallyOp 0x50).freeHelm 10).cam := by
    rw [State.easyActs, State.noticeAll_cam, State.setEvpAll_eq]
    exact (congrArg State.cam (State.openAll_eq _) :)
  rw [hcam, congrArg State.cam (State.freeHelm_eq _ _), congrArg State.cam (State.tallyOp_eq _ _)]

/-- Outside easy a cause makes Camlan enter it, and the cause is that of the entry. -/
theorem State.easyLogged_enters {s : State} (cause : Nat) (h : s.inEasy = false) :
    EasyFrame s (s.easyLogged cause) ∧ (s.easyLogged cause).cam = { s.cam with
      state := if s.cam.state = CamState.stake then .stake else .easy, easyCauses := [cause], quietSince := none, helm := (s.easyLogged cause).cam.helm } := by
  have hentered : s.easyLogged cause = (s.inEasyBy cause).easyActs cause := by rw [State.easyLogged, h, if_neg Bool.false_ne_true]
  rw [hentered]
  exact ⟨EasyFrame.trans rfl (State.easyActs_eq _ cause), State.easyActs_cam _ cause⟩

theorem State.easyNow_enters {s : State} (cause : Nat) (h : s.inEasy = false) :
    EasyFrame s (s.easyNow cause) ∧ (s.easyNow cause).cam = { s.cam with
      state := if s.cam.state = CamState.stake then .stake else .easy, easyCauses := [cause], quietSince := none, helm := (s.easyNow cause).cam.helm } := by
  have hlogged : EasyFrame s (s.logS 0x0202 (u8 cause)) := EasyFrame.of_tally (TallyFrame.of_log (State.logIn_eq s 0 0x0202 0 (u8 cause)))
  have hout : (s.logS 0x0202 (u8 cause)).inEasy = false := by rwa [State.inEasy, State.logS_cam, ← State.inEasy]
  obtain ⟨hframe, hcam⟩ := State.easyLogged_enters cause hout
  rw [State.easyNow_eq]
  rw [State.logS_cam] at hcam
  exact ⟨hlogged.trans hframe, hcam⟩

/-- A cause that comes to a rowing Camlan outside easy, when no catch is under way, makes it enter easy. -/
theorem State.easy_of_rowing {s : State} (cause : Nat) (hrow : s.rowing = true) (hout : s.cam.state ≠ .easy) (hidle : s.acts = .idle) :
    s.easy cause = s.easyNow cause ∧ EasyFrame s (s.easyNow cause)
      ∧ (s.easyNow cause).cam = { s.cam with state := .easy, easyCauses := [cause], quietSince := none, helm := (s.easyNow cause).cam.helm } := by
  simp only [State.rowing, Bool.and_eq_true, decide_eq_true_eq] at hrow
  obtain ⟨⟨-, hstarted⟩, hstake⟩ := hrow
  obtain ⟨hframe, hcam⟩ := State.easyNow_enters (s := s) cause (by simp [State.inEasy, hout, hstake])
  rw [if_neg hstake] at hcam
  refine ⟨?_, hframe, hcam⟩
  rw [State.easy, if_neg hstarted, hidle]

/-! Bus errors (R21, R25) -/

theorem State.awake_of_camlanOn {s : State} (h : s.camlanOn = true) : s.awake = true := by
  simp only [State.camlanOn, State.started, Bool.and_eq_true, decide_eq_true_eq] at h
  obtain ⟨hphase, -⟩ := h
  simp [State.awake, State.powered, hphase]

theorem State.camlanOn_of_rowing {s : State} (h : s.rowing = true) : s.camlanOn = true := by
  simp only [State.rowing, Bool.and_eq_true] at h
  exact h.1.1

/-- Whether Camlan runs rests on the phase of the part and on the debugger. -/
theorem State.camlanOn_congr {s t : State} (hpower : t.power = s.power) (hdbg : t.rd Reg.DBG_STAT = s.rd Reg.DBG_STAT) : t.camlanOn = s.camlanOn := by
  rw [State.camlanOn, State.camlanOn, State.started, State.started, hpower, State.bit_of_rd hdbg]

theorem State.rowing_congr {s t : State} (hpower : t.power = s.power) (hdbg : t.rd Reg.DBG_STAT = s.rd Reg.DBG_STAT) (hstate : t.cam.state = s.cam.state) :
    t.rowing = s.rowing := by
  rw [State.rowing, State.rowing, State.camlanOn_congr hpower hdbg, hstate]

theorem State.busRecord_onlyRegs (s : State) (rq : Requester) (write : Bool) (addr : Nat) :
    OnlyRegs s (s.busRecord rq write addr) [Reg.SYS_BEADDR, Reg.SYS_BESTAT] := by
  unfold State.busRecord
  split
  · exact ⟨RegsBut.refl s _, SameMem.refl s, rfl⟩
  · exact ⟨((RegsBut.refl s _).wrN _ (by simp)).wrN _ (by simp), SameMem.of_mem rfl, rfl⟩

/-- What SYS.BESTAT shows of an error of a requester that is no Scull. -/
def bestat (rq : Requester) (write : Bool) : Nat := Requester.idx rq + (if write then 128 else 0) + 256

theorem State.busRecord_records {s : State} {rq : Requester} (write : Bool) (addr : Nat) (hrq : Requester.scull? rq = none) (hnone : s.bit Reg.SYS_BESTAT 8 = false) :
    (s.busRecord rq write addr).rdN Reg.SYS_BEADDR = addr % 2 ^ 32 ∧ (s.busRecord rq write addr).rdN Reg.SYS_BESTAT = bestat rq write := by
  have hslot : s.slotOf rq = 0 := by simp [State.slotOf, hrq]
  have hidx : bestat rq write < 2 ^ 32 := by cases rq <;> cases write <;> decide
  have hrecord : s.busRecord rq write addr = (s.wrN Reg.SYS_BEADDR addr).wrN Reg.SYS_BESTAT (bestat rq write) := by
    rw [State.busRecord, hnone, hslot, if_neg Bool.false_ne_true, bestat]
    simp only [Nat.zero_mul, Nat.add_zero]
  rw [hrecord, State.rdN_wrN_ne _ _ (by decide), State.rdN_wrN_self, State.rdN_wrN_self, Nat.mod_eq_of_lt hidx]
  exact ⟨rfl, rfl⟩

theorem State.busRecord_standing {s : State} (rq : Requester) (write : Bool) (addr : Nat) (h : s.bit Reg.SYS_BESTAT 8 = true) : s.busRecord rq write addr = s :=
  if_pos h

/-- Once an error is recorded, BESTAT shows one. -/
theorem State.busRecord_stands (s : State) {rq : Requester} (write : Bool) (addr : Nat) (hrq : Requester.scull? rq = none) :
    (s.busRecord rq write addr).bit Reg.SYS_BESTAT 8 = true := by
  cases hbit : s.bit Reg.SYS_BESTAT 8 with
  | true => rwa [State.busRecord_standing _ _ _ hbit]
  | false =>
    obtain ⟨-, hstat⟩ := State.busRecord_records write addr hrq hbit
    rw [State.bit_eq_testBit, hstat]
    cases rq <;> cases write <;> decide

/-- An error of a requester that is no core. -/
theorem doBusError_other {s : State} {rq : Requester} (hrq : rq = .linkEngine ∨ rq = .prefetch ∨ rq = .debugPort) (user write : Bool) (a : Nat) :
    doBusError s rq user write a = if !s.awake || (mapped a && !(write && readOnly a)) then s else s.busRecord rq write a := by
  obtain rfl | rfl | rfl := hrq <;> rfl

theorem busErrorIsRecorded_holds : busErrorIsRecorded := by
  refine ⟨fun s rq user write a hrq hawake herror hnone => ⟨doBusError s rq user write a, rfl, ?_⟩,
    fun s rq user write a hrq hstands => congrArg Host.Outcome.next ?_, fun s user write a hrow hout hidle hunmapped => ⟨doBusError s .cox user write a, rfl, ?_⟩⟩
  · have hguard : (!s.awake || (mapped a && !(write && readOnly a))) = false := by
      obtain h | ⟨hw, hr⟩ := herror
      · simp [hawake, h]
      · simp [hawake, hw, hr]
    have hscull : Requester.scull? rq = none := by obtain rfl | rfl | rfl := hrq <;> rfl
    obtain ⟨haddr, hstat⟩ := State.busRecord_records write a hscull hnone
    rw [doBusError_other hrq, hguard, if_neg Bool.false_ne_true]
    refine ⟨haddr, ?_, ?_, s.busRecord_stands write a hscull, s.busRecord_onlyRegs rq write a⟩
    · rw [State.fld, hstat]
      obtain rfl | rfl | rfl := hrq <;> cases write <;> decide
    · rw [State.bit_eq_testBit, hstat]
      obtain rfl | rfl | rfl := hrq <;> cases write <;> decide
  · rw [doBusError_other hrq, State.busRecord_standing _ _ _ hstands, ite_self]
  · have hon := State.camlanOn_of_rowing hrow
    obtain ⟨hregs, -, hrest⟩ := s.busRecord_onlyRegs .cox write a
    have hcam : (s.busRecord .cox write a).cam = s.cam := (congrArg State.cam hrest :)
    have hstat : (s.busRecord .cox write a).rd Reg.DBG_STAT = s.rd Reg.DBG_STAT := hregs _ (by decide)
    have hpower : (s.busRecord .cox write a).power = s.power := (congrArg State.power hrest :)
    have hon' : (s.busRecord .cox write a).camlanOn = true := (State.camlanOn_congr hpower hstat).trans hon
    have hrow' : (s.busRecord .cox write a).rowing = true := (State.rowing_congr hpower hstat (congrArg CamSt.state hcam)).trans hrow
    obtain ⟨heasy, -, hnow⟩ := State.easy_of_rowing 0x02 hrow' (by rwa [hcam]) (show (s.busRecord .cox write a).acts = .idle by rw [← hidle]; exact (congrArg State.acts hrest :))
    have herror : doBusError s .cox user write a = (s.busRecord .cox write a).easyNow 0x02 := by
      simp [doBusError, State.awake_of_camlanOn hon, hunmapped, State.coxBusError, hon', heasy]
    rw [herror]
    refine ⟨by rw [hnow], by rw [hnow], ?_⟩
    rw [State.bit_of_rd (((RegsBut.refl _ _).easyNow 0x02 fun _ => id) Reg.SYS_BESTAT (by decide))]
    exact s.busRecord_stands write a rfl

/-! The stroke time in two words (R28), the interrupt lines (R40) -/

theorem strokeTimeReadLatchesTheHighWord_holds : strokeTimeReadLatchesTheHighWord := by
  intro s rq us hawake hread hrun hus
  refine ⟨doStrokeTimeRead s rq us, rfl, ?_⟩
  have hnow : (s.atUs us).now = (s.stk.base + us) % 2 ^ 48 := by
    rw [State.now, State.us_atUs, Nat.mod_eq_of_lt hus]
    rfl
  have hhigh : (s.stk.base + us) % 2 ^ 48 / 2 ^ 32 < 2 ^ 32 := by omega
  simp only [doStrokeTimeRead, hawake, hread, hrun, hnow, Bool.not_true, Bool.or_self, Bool.false_eq_true, if_false, if_true]
  refine ⟨wordOf_toNat _, ?_, ?_, SameMem.of_mem rfl, rfl⟩
  · rw [State.rdN_mk, State.rdN_wrN_self, Nat.mod_eq_of_lt hhigh]
  · exact RegsBut.mk_iff.mpr (RegsBut.wrN _ (RegsBut.wrN _ ((RegsBut.refl s _).atUs us (by simp)) (by simp)) (by simp))

theorem getField_putField_bit (n : Nat) {a b : Nat} (v : Nat) (h : b ≠ a) : getField (putField n a 1 v) b 1 = getField n b 1 := by
  obtain hlt | hgt := Nat.lt_or_gt_of_ne h
  · exact getField_putField_below n 1 v hlt
  · exact getField_putField_above n v 1 hgt

theorem interruptLineIsPresentedOnce_holds : interruptLineIsPresentedOnce := by
  intro s line level
  refine ⟨doInterruptLineChange s line level, rfl, ?_, fun l hl => getField_putField_bit _ _ hl, rfl⟩
  exact (getField_putField_self _ _ 1 _).trans (by cases level <;> rfl)

/-- Settles O9: the record of a bus error, the two words of the stroke time and the one copy of the interrupt lines. -/
theorem busErrorsTimeReadsAndInterruptLines : Obligations.BusErrorsTimeReadsAndInterruptLines :=
  ⟨busErrorIsRecorded_holds, strokeTimeReadLatchesTheHighWord_holds, interruptLineIsPresentedOnce_holds⟩

end Sys2Proof.Machine
end

section
/-!
PROOFS. What an operation leaves unchanged, as rewriting rules: a register written within a list leaves the frame of that list as it was, and so does what touches no register.
-/

namespace Sys2Proof.Machine

theorem RegsBut.iff_of_rd {s t u : State} {l : List Nat} (h : ∀ a, a ∉ l → u.rd a = t.rd a) : RegsBut s u l ↔ RegsBut s t l :=
  forall₂_congr fun a ha => by rw [h a ha]

theorem ne_of_mem_of_notMem {a b : Nat} {l : List Nat} (ha : a ∈ l) (hb : b ∉ l) : a ≠ b := fun h => hb (h ▸ ha)

section
variable {s t : State} {l : List Nat} {a : Nat}

@[simp] theorem RegsBut.self_iff : RegsBut s s l ↔ True := iff_true_intro (RegsBut.refl s l)

@[simp] theorem RegsBut.mk_regs_iff {f2 f3 f4 f5 f6 f7 f8 f9 f10 f11 f12 f13 f14 f15 f16 f17 f18 f19 f20 f21 f22 f23 f24 f25 f26 f27 f28 f29 f30 f31 f32 f33 f34 f35 f36} :
    RegsBut s (State.mk t.regs f2 f3 f4 f5 f6 f7 f8 f9 f10 f11 f12 f13 f14 f15 f16 f17 f18 f19 f20 f21 f22 f23 f24 f25 f26 f27 f28 f29 f30 f31 f32 f33 f34 f35 f36) l
      ↔ RegsBut s t l := RegsBut.mk_iff

@[simp] theorem RegsBut.wr_iff (v : Word) (ha : a ∈ l) : RegsBut s (t.wr a v) l ↔ RegsBut s t l :=
  RegsBut.iff_of_rd fun _ hb => State.rd_wr_ne _ _ (ne_of_mem_of_notMem ha hb)

@[simp] theorem RegsBut.wrN_iff (n : Nat) (ha : a ∈ l) : RegsBut s (t.wrN a n) l ↔ RegsBut s t l := RegsBut.wr_iff _ ha

@[simp] theorem RegsBut.setFld_iff (lo w v : Nat) (ha : a ∈ l) : RegsBut s (t.setFld a lo w v) l ↔ RegsBut s t l := RegsBut.wr_iff _ ha

@[simp] theorem RegsBut.setBit_iff (k : Nat) (v : Bool) (ha : a ∈ l) : RegsBut s (t.setBit a k v) l ↔ RegsBut s t l := RegsBut.wr_iff _ ha

@[simp] theorem RegsBut.orReg_iff (m : Nat) (ha : a ∈ l) : RegsBut s (t.orReg a m) l ↔ RegsBut s t l := RegsBut.wr_iff _ ha

@[simp] theorem RegsBut.clrReg_iff (m : Nat) (ha : a ∈ l) : RegsBut s (t.clrReg a m) l ↔ RegsBut s t l := RegsBut.wr_iff _ ha

@[simp] theorem RegsBut.incSat_iff (lo w k : Nat) (ha : a ∈ l) : RegsBut s (t.incSat a lo w k) l ↔ RegsBut s t l := RegsBut.wr_iff _ ha

@[simp] theorem RegsBut.atUs_iff (us : Nat) (ha : Reg.STK_PHASE ∈ l) : RegsBut s (t.atUs us) l ↔ RegsBut s t l := RegsBut.wr_iff _ ha

@[simp] theorem RegsBut.logIn_iff {b : Nat} (c src : Nat) (m : List Byte) (h : ∀ a ∈ logRegs b, a ∈ l) : RegsBut s (t.logIn b c src m) l ↔ RegsBut s t l :=
  RegsBut.iff_of_rd fun _ hb => State.rd_logIn _ _ _ _ fun h' => hb (h _ h')

@[simp] theorem RegsBut.logS_iff (c : Nat) (m : List Byte) (h : ∀ a ∈ logRegs 0, a ∈ l) : RegsBut s (t.logS c m) l ↔ RegsBut s t l := RegsBut.logIn_iff c 0 m h

@[simp] theorem RegsBut.logT0_iff (c : Nat) (m : List Byte) (h : ∀ a ∈ logRegs 1, a ∈ l) : RegsBut s (t.logT0 c m) l ↔ RegsBut s t l := RegsBut.logIn_iff c 0 m h

@[simp] theorem RegsBut.logS0_iff (c : Nat) (m : List Byte) (h : ∀ a ∈ logRegs 0, a ∈ l) (h1 : ∀ a ∈ logRegs 1, a ∈ l) : RegsBut s (t.logS0 c m) l ↔ RegsBut s t l :=
  (RegsBut.logT0_iff c m h1).trans (RegsBut.logS_iff c m h)

@[simp] theorem RegsBut.logSK_iff {k : Nat} (c : Nat) (m : List Byte) (h : ∀ a ∈ logRegs 0, a ∈ l) (hk : ∀ a ∈ logRegs (1 + k), a ∈ l) :
    RegsBut s (t.logSK k c m) l ↔ RegsBut s t l := (RegsBut.logIn_iff c 0 m hk).trans (RegsBut.logS_iff c m h)

@[simp] theorem RegsBut.setCon_iff (p : Nat) (c : ConSt) : RegsBut s (t.setCon p c) l ↔ RegsBut s t l := RegsBut.iff_of_rd fun _ _ => State.rd_setCon ..

@[simp] theorem RegsBut.say_iff (p : Nat) (g : Option String) (m : List String) : RegsBut s (t.say p g m) l ↔ RegsBut s t l :=
  RegsBut.iff_of_rd fun _ _ => State.rd_say ..

@[simp] theorem RegsBut.notice_iff (p : Nat) (m : String) : RegsBut s (t.notice p m) l ↔ RegsBut s t l := RegsBut.iff_of_rd fun _ _ => State.rd_notice ..

@[simp] theorem RegsBut.noticeAll_iff (m : String) : RegsBut s (t.noticeAll m) l ↔ RegsBut s t l := RegsBut.iff_of_rd fun _ _ => State.rd_noticeAll ..

@[simp] theorem RegsBut.wrBytes_iff (b : Nat) (m : List Byte) : RegsBut s (t.wrBytes b m) l ↔ RegsBut s t l := RegsBut.iff_of_rd fun _ _ => State.rd_wrBytes ..

@[simp] theorem State.rd_st (u : State) (b n v a : Nat) : (u.st b n v).rd a = u.rd a := by simp [State.rd]

@[simp] theorem State.rdN_st (u : State) (b n v a : Nat) : (u.st b n v).rdN a = u.rdN a := State.rdN_of_rd (State.rd_st u b n v a)

@[simp] theorem State.fld_st (u : State) (b n v a lo w : Nat) : (u.st b n v).fld a lo w = u.fld a lo w := State.fld_of_rd (State.rd_st u b n v a) lo w

@[simp] theorem State.bit_st (u : State) (b n v a i : Nat) : (u.st b n v).bit a i = u.bit a i := State.bit_of_rd (State.rd_st u b n v a) i

@[simp] theorem RegsBut.st_iff (b n v : Nat) : RegsBut s (t.st b n v) l ↔ RegsBut s t l := RegsBut.iff_of_rd fun _ _ => State.rd_st ..

theorem State.rdB_of_mem {u v : State} (h : u.mem = v.mem) (a : Nat) : u.rdB a = v.rdB a := by rw [State.rdB, State.rdB, h]

@[simp] theorem SameMem.iff_of_mem (h : t.mem = s.mem) : SameMem s t ↔ True := iff_true_intro (SameMem.of_mem h)

end

/-! A record that only a running Camlan writes -/

section
variable (t : State) (code : Nat) (args : List Byte) {a : Nat}

@[simp] theorem State.logKpa_mem : (t.logKpa code args).mem = t.mem := (congrArg State.mem (t.logKpa_eq code args) :)

@[simp] theorem State.rd_logKpa (ha : a ∉ logRegs 0) : (t.logKpa code args).rd a = t.rd a := (RegsBut.refl t (logRegs 0)).logKpa code args (fun _ => id) a ha

@[simp] theorem State.rdN_logKpa (ha : a ∉ logRegs 0) : (t.logKpa code args).rdN a = t.rdN a := State.rdN_of_rd (State.rd_logKpa t code args ha)

@[simp] theorem State.fld_logKpa (lo w : Nat) (ha : a ∉ logRegs 0) : (t.logKpa code args).fld a lo w = t.fld a lo w :=
  State.fld_of_rd (State.rd_logKpa t code args ha) lo w

@[simp] theorem State.bit_logKpa (b : Nat) (ha : a ∉ logRegs 0) : (t.logKpa code args).bit a b = t.bit a b := State.bit_of_rd (State.rd_logKpa t code args ha) b

@[simp] theorem RegsBut.logKpa_iff {s : State} {l : List Nat} (h : ∀ a ∈ logRegs 0, a ∈ l) : RegsBut s (t.logKpa code args) l ↔ RegsBut s t l :=
  RegsBut.iff_of_rd fun _ hb => State.rd_logKpa _ _ _ fun h' => hb (h _ h')

end

/-! Reads of states with the same registers -/

theorem State.rd_of_regs {s t : State} (h : t.regs = s.regs) (a : Nat) : t.rd a = s.rd a := by rw [State.rd, State.rd, h]

theorem State.rdN_of_regs {s t : State} (h : t.regs = s.regs) (a : Nat) : t.rdN a = s.rdN a := State.rdN_of_rd (State.rd_of_regs h a)

theorem State.fld_of_regs {s t : State} (h : t.regs = s.regs) (a lo w : Nat) : t.fld a lo w = s.fld a lo w := State.fld_of_rd (State.rd_of_regs h a) lo w

theorem State.bit_of_regs {s t : State} (h : t.regs = s.regs) (a b : Nat) : t.bit a b = s.bit a b := State.bit_of_rd (State.rd_of_regs h a) b

theorem State.us_of_regs {s t : State} (h : t.regs = s.regs) : t.us = s.us := State.fld_of_regs h _ _ _

/-- A frame from a state with the same registers. -/
theorem RegsBut.source {s t u : State} {l : List Nat} (h : RegsBut u t l) (hregs : u.regs = s.regs) : RegsBut s t l := fun a ha => by
  rw [h a ha, State.rd, State.rd, hregs]

/-! A record with a notice -/

theorem State.logNotice_shows (u : State) (c : Nat) (m : List Byte) (b : String) : let t := (u.logS c m).noticeAll b
    t.cam = u.cam ∧ RegsBut u t (logRegs 0) ∧ t.mem = u.mem ∧ t = { u with regs := t.regs, log := t.log, con0 := t.con0, con1 := t.con1 } := by
  refine ⟨?_, ?_, ?_, ?_⟩
  · simp
  · simp
  · simp
  · ext1 <;> simp

/-! What a command does -/

theorem Does.intro {c : Instr} {s : State} (t : State) {P : State → Prop} (h : exec c s = .next t) (hP : P t) : Does c s P := ⟨t, h, hP⟩

/-- What a requester commands, awake. -/
theorem Does.byRequester {c : Instr} {s t : State} {P : State → Prop} (hawake : s.awake = true) (h : exec c s = .next (s.byRequester t)) (hP : P t) : Does c s P :=
  ⟨t, h.trans (congrArg Host.Outcome.next (State.byRequester_awake t hawake)), hP⟩

/-- A command of a requester that has no effect. -/
theorem next_byRequester {s t : State} (h : t = s) : Host.Outcome.next (s.byRequester t) = (.next s : Host.Outcome State Fault Refusal) := by
  rw [h, State.byRequester, ite_self]

end Sys2Proof.Machine
end

section
/-!
PROOFS. The lock-step pair (R60 to R73, R78): a mismatch and a fatal memory class under LOCK, the injections of the start test, LOCK and ARM, and the classes of a memory error. They settle O16 and O17.
-/

namespace Sys2Proof.Machine

/-! The gate, the retained record and the reset that follows -/

theorem State.stopFeed_eq (s : State) : s.stopFeed = { (s.setBit Reg.COX_STATUS 0 false).setBit Reg.PUMP_STAT 0 false with
    stk := { s.stk with feed := false, permit := false }, ctr := { s.ctr with fedSince := none, railUp := false } } := rfl

/-- A fault shown in COX.STATUS that closes the gate. -/
def State.faultShown (s : State) (b : Nat) : State := (s.setBit Reg.COX_STATUS b true).stopFeed

theorem State.faultShown_gateClosed (s : State) (b : Nat) : gateClosed s (s.faultShown b) := by
  refine ⟨?_, ?_, rfl, rfl⟩ <;> simp [State.faultShown, State.stopFeed_eq]

theorem State.faultShown_bit (s : State) {b : Nat} (hb : b < 32) (h0 : b ≠ 0) : (s.faultShown b).bit Reg.COX_STATUS b = true := by
  simp [State.faultShown, State.stopFeed_eq, hb, Ne.symm h0]

theorem State.faultShown_regs (s : State) (b : Nat) : RegsBut s (s.faultShown b) [Reg.COX_STATUS, Reg.PUMP_STAT] := by
  simp [State.faultShown, State.stopFeed_eq]

theorem State.faultShown_eq (s : State) (b : Nat) : s.faultShown b = { s with regs := (s.faultShown b).regs, stk := (s.faultShown b).stk, ctr := (s.faultShown b).ctr } := rfl

theorem State.retain_held {s : State} (h : s.ao.coxHeld = true) (cause groups pc cls addr : Nat) : s.retain cause groups pc cls addr = s := if_pos h

/-- The registers of the retained records. -/
def retainRegs : List Nat := [Reg.COX_MMGRP, Reg.COX_MMPC, Reg.COX_MMSTROKE, Reg.COX_MMINFO, Reg.COX_MMADDR]

theorem State.retain_free {s : State} (h : s.ao.coxHeld = false) (cause groups pc cls addr : Nat) :
    s.retain cause groups pc cls addr =
      { ((((((s.wrN Reg.COX_MMGRP groups).wrN Reg.COX_MMPC pc).wrN Reg.COX_MMSTROKE s.strokeNo).setFld Reg.COX_MMINFO 0 2 cause).setFld Reg.COX_MMINFO 2 3 cls).wrN
        Reg.COX_MMADDR addr) with ao := { s.ao with coxHeld := true } } := by
  rw [State.retain, h]
  rfl

theorem State.retain_regs (s : State) (cause groups pc cls addr : Nat) : RegsBut s (s.retain cause groups pc cls addr) retainRegs := by
  cases h : s.ao.coxHeld
  · simp [State.retain_free h, retainRegs]
  · simp [State.retain_held h]

theorem State.retain_eq (s : State) (cause groups pc cls addr : Nat) :
    s.retain cause groups pc cls addr = { s with regs := (s.retain cause groups pc cls addr).regs, ao := (s.retain cause groups pc cls addr).ao } := by
  cases h : s.ao.coxHeld
  · rw [State.retain_free h]
    rfl
  · rw [State.retain_held h]

/-- The reset that follows a fault under LOCK (R62, R66, R78). -/
theorem State.armReset_eq {s : State} (h : s.locked = true) (cause : Nat) : s.armReset cause =
    { s with power := { s.power with faultReset := if s.resetInhibited || s.power.faultReset.isSome then s.power.faultReset else some cause } } := by
  unfold State.armReset
  cases hinhibited : s.resetInhibited
  · cases hreset : s.power.faultReset
    · simp [h]
    · rw [if_neg (by simp)]
      exact (congrArg (fun o => ({ s with power := { s.power with faultReset := o } } : State)) hreset.symm :).symm
  · simp

/-- A fault under LOCK: shown, retained and followed by a reset. -/
def State.faultUnderLock (s : State) (b cause groups pc cls addr reset : Nat) : State := ((s.faultShown b).retain cause groups pc cls addr).armReset reset

section
variable {s : State} (hlocked : s.locked = true) (b cause groups pc cls addr reset : Nat)
include hlocked

theorem State.faultUnderLock_eq : s.faultUnderLock b cause groups pc cls addr reset =
    { (s.faultShown b).retain cause groups pc cls addr with
      power := { s.power with faultReset := if s.resetInhibited || s.power.faultReset.isSome then s.power.faultReset else some reset } } := by
  have hregs : RegsBut s ((s.faultShown b).retain cause groups pc cls addr) ([Reg.COX_STATUS, Reg.PUMP_STAT] ++ retainRegs) :=
    ((s.faultShown_regs b).mono fun _ => List.mem_append_left _).trans ((State.retain_regs _ _ _ _ _ _).mono fun _ => List.mem_append_right _)
  have hctrl := hregs Reg.COX_CTRL (by decide)
  have hlock : ((s.faultShown b).retain cause groups pc cls addr).locked = true := by rwa [State.locked, State.bit_of_rd hctrl]
  have hinhibited : ((s.faultShown b).retain cause groups pc cls addr).resetInhibited = s.resetInhibited := by
    rw [State.resetInhibited, State.resetInhibited, State.bit_of_rd hctrl, State.bit_of_rd (hregs Reg.DBG_STAT (by decide)), State.lcs, State.lcs,
      State.fld_of_rd (hregs Reg.LCS_STATE (by decide))]
  have hpower : ((s.faultShown b).retain cause groups pc cls addr).power = s.power := (congrArg State.power (State.retain_eq _ _ _ _ _ _) :)
  rw [State.faultUnderLock, State.armReset_eq hlock, hinhibited, hpower]

/-- What a fault under LOCK leaves: the gate closed, the reset, and the frame. -/
theorem State.faultUnderLock_frame (hb : b < 32) (h0 : b ≠ 0) : let t := s.faultUnderLock b cause groups pc cls addr reset
    t.bit Reg.COX_STATUS b = true ∧ gateClosed s t
      ∧ t.power.faultReset = (if s.resetInhibited || s.power.faultReset.isSome then s.power.faultReset else some reset)
      ∧ RegsBut s t ([Reg.COX_STATUS, Reg.PUMP_STAT] ++ retainRegs) ∧ SameMem s t
      ∧ t = { s with regs := t.regs, stk := t.stk, ctr := t.ctr, ao := t.ao, power := t.power } := by
  dsimp only
  rw [State.faultUnderLock_eq hlocked]
  have hretained := State.retain_eq (s.faultShown b) cause groups pc cls addr
  have hregs := State.retain_regs (s.faultShown b) cause groups pc cls addr
  obtain ⟨hgate, hpump, hstk, hctr⟩ := s.faultShown_gateClosed b
  have hstatus := State.bit_of_rd (hregs Reg.COX_STATUS (by decide))
  refine ⟨?_, ⟨?_, ?_, ?_, ?_⟩, rfl, ?_, ?_, ?_⟩
  · rw [State.bit_mk, hstatus, s.faultShown_bit hb h0]
  · rw [State.bit_mk, hstatus, hgate]
  · rw [State.bit_mk, State.bit_of_rd (hregs Reg.PUMP_STAT (by decide)), hpump]
  · exact (congrArg State.stk hretained :).trans hstk
  · exact (congrArg State.ctr hretained :).trans hctr
  · exact RegsBut.mk_iff.mpr (((s.faultShown_regs b).mono fun _ => List.mem_append_left _).trans (hregs.mono fun _ => List.mem_append_right _))
  · exact SameMem.of_mem (congrArg State.mem hretained :)
  · rw [hretained, s.faultShown_eq]

/-- What is retained of a fault while no earlier one is (R63). -/
theorem State.faultUnderLock_retains (hfree : s.ao.coxHeld = false) (hgroups : groups < 2 ^ 24) : let t := s.faultUnderLock b cause groups pc cls addr reset
    t.rdN Reg.COX_MMGRP = groups ∧ t.rd Reg.COX_MMPC = wordOf pc ∧ t.rd Reg.COX_MMSTROKE = s.rd Reg.STK_NUM ∧ t.fld Reg.COX_MMINFO 0 2 = cause % 4
      ∧ t.fld Reg.COX_MMINFO 2 3 = cls % 8 ∧ t.rdN Reg.COX_MMADDR = addr % 2 ^ 32 ∧ t.ao.coxHeld = true := by
  dsimp only
  have hstroke : (s.faultShown b).strokeNo = s.strokeNo := State.rdN_of_rd (s.faultShown_regs b Reg.STK_NUM (by decide))
  have hfree' : (s.faultShown b).ao.coxHeld = false := hfree
  rw [State.faultUnderLock_eq hlocked, State.retain_free hfree', hstroke]
  refine ⟨?_, ?_, ?_, ?_, ?_, ?_, rfl⟩
  · simp [Nat.mod_eq_of_lt (Nat.lt_trans hgroups (by decide : 2 ^ 24 < 4294967296))]
  · simp [State.wrN]
  · simp only [State.rd_mk]
    simp [State.wrN, State.strokeNo, wordOf_rdN]
  · simp
  · simp
  · simp

end

theorem doLockstepMismatch_locked {s : State} {groups : Nat} (pc : Word) (hon : s.powered = true) (hgroups : groups % 2 ^ 24 ≠ 0) (hlocked : s.locked = true) :
    doLockstepMismatch s groups pc = s.faultUnderLock 2 1 (groups % 2 ^ 24) pc.toNat 0 0 3 := by
  rw [doLockstepMismatch, if_neg (by simpa [hon] using hgroups), if_pos hlocked]
  rfl

theorem mismatchUnderLock_holds : mismatchUnderLock := by
  refine ⟨fun s groups pc hon hgroups hlocked => ?_, fun s h => congrArg Host.Outcome.next (if_pos h), fun s h => congrArg Host.Outcome.next (if_neg h)⟩
  refine Does.intro _ rfl ?_
  rw [doLockstepMismatch_locked pc hon hgroups hlocked]
  obtain ⟨hbit, hgate, hreset, hregs, hmem, hrest⟩ := State.faultUnderLock_frame hlocked 2 1 (groups % 2 ^ 24) pc.toNat 0 0 3 (by decide) (by decide)
  refine ⟨hbit, hgate, fun hfree => ?_, fun hheld => ?_, hreset, hregs, hmem, hrest⟩
  · obtain ⟨hgrp, hpc, hstroke, hcause, -, haddr, hao⟩ :=
      State.faultUnderLock_retains hlocked 2 1 (groups % 2 ^ 24) pc.toNat 0 0 3 hfree (Nat.mod_lt _ (by decide))
    exact ⟨hgrp, hpc.trans (by simp [wordOf]), hstroke, hcause, haddr, hao⟩
  · have hheld' : (s.faultShown 2).ao.coxHeld = true := hheld
    rw [State.faultUnderLock_eq hlocked, State.retain_held hheld']
    exact RegsBut.mk_iff.mpr (s.faultShown_regs 2)

/-! The start test (R69 to R71) -/

/-- A difference found before LOCK: the gate closed and the groups shown in COX.STEST.DET. -/
theorem State.faultShown_det (s : State) (groups : Nat) : let t := (s.faultShown 2).orReg Reg.COX_STEST (groups % 2 ^ 24)
    (∀ b, b < 24 → t.bit Reg.COX_STEST b = (s.bit Reg.COX_STEST b || groups.testBit b)) ∧ t.bit Reg.COX_STATUS 2 = true ∧ gateClosed s t
      ∧ RegsBut s t [Reg.COX_STATUS, Reg.PUMP_STAT, Reg.COX_STEST] ∧ SameMem s t ∧ t = { s with regs := t.regs, stk := t.stk, ctr := t.ctr } := by
  dsimp only
  obtain ⟨hgate, hpump, hstk, hctr⟩ := s.faultShown_gateClosed 2
  refine ⟨fun b hb => ?_, ?_, ⟨?_, ?_, hstk, hctr⟩, ?_, SameMem.of_mem rfl, rfl⟩
  · rw [State.bit_orReg _ _ _ _ (by omega), State.bit_of_rd (s.faultShown_regs 2 Reg.COX_STEST (by decide)), Nat.testBit_mod_two_pow]
    simp [hb]
  · rw [State.bit_orReg_ne _ _ _ (by decide), s.faultShown_bit (by decide) (by decide)]
  · rw [State.bit_orReg_ne _ _ _ (by decide), hgate]
  · rw [State.bit_orReg_ne _ _ _ (by decide), hpump]
  · exact ((s.faultShown_regs 2).mono (by simp +contextual)).orReg _ (by simp)

theorem doLockstepMismatch_unlocked {s : State} {groups : Nat} (pc : Word) (hon : s.powered = true) (hgroups : groups % 2 ^ 24 ≠ 0) (hlocked : s.locked = false) :
    doLockstepMismatch s groups pc = (s.faultShown 2).orReg Reg.COX_STEST (groups % 2 ^ 24) := by
  rw [doLockstepMismatch, if_neg (by simpa [hon] using hgroups), if_neg (by simp [hlocked])]
  rfl

/-- DET and MM cleared: the gate opens unless FATAL stands. -/
theorem State.clearInjection_shows (s : State) :
    s.clearInjection.fld Reg.COX_STEST 0 24 = 0 ∧ s.clearInjection.bit Reg.COX_STATUS 2 = false ∧ s.clearInjection.bit Reg.COX_STATUS 0 = !s.bit Reg.COX_STATUS 3
      ∧ RegsBut s s.clearInjection [Reg.COX_STATUS, Reg.COX_STEST] ∧ SameMem s s.clearInjection ∧ s.clearInjection = { s with regs := s.clearInjection.regs } := by
  refine ⟨?_, ?_, ?_, ?_, SameMem.of_mem rfl, rfl⟩ <;> simp [State.clearInjection]

/-- The injected group noted by the boot ROM. -/
def State.injecting (s : State) (group : Nat) : State :=
  { s with power := { s.power with injNow := if s.inStartTest then some group else s.power.injNow } }

theorem State.injecting_rest {s t : State} {group : Nat} (h : t = { s.injecting group with regs := t.regs, stk := t.stk, ctr := t.ctr }) :
    t = { s with regs := t.regs, stk := t.stk, ctr := t.ctr, power := { s.power with injNow := t.power.injNow } } := by
  rw [h]
  rfl

theorem State.injecting_injNow {s t : State} {group : Nat} (h : t = { s.injecting group with regs := t.regs, stk := t.stk, ctr := t.ctr })
    (hboot : s.power.phase = .bootRom) : t.power.injNow = some group := by
  rw [h]
  exact if_pos (decide_eq_true hboot)

theorem doInjectDifference_found {s : State} {group det : Nat} (hlocked : s.locked = false) (hgroup : group ≤ 23) (hdet : det % 2 ^ 24 ≠ 0) :
    doInjectDifference s group det = ((s.injecting group).faultShown 2).orReg Reg.COX_STEST (det % 2 ^ 24) := by
  have hnot : ¬(s.locked = true ∨ 23 < group) := by simp [hlocked, hgroup]
  rw [doInjectDifference, if_neg hnot]
  exact if_neg hdet

theorem doInjectClear_judged {s : State} {g : Nat} (hlocked : s.locked = false) (hg : s.power.injNow = some g) :
    doInjectClear s = if s.fld Reg.COX_STEST 0 24 ≠ 2 ^ g ∨ s.bit Reg.COX_STATUS 0 = true then s.startTestFail g
      else ({ s with power := { s.power with injNow := none, injDone := s.power.injDone ||| 2 ^ g } } : State).clearInjection := by
  rw [doInjectClear, hlocked, hg, if_neg Bool.false_ne_true]

theorem startTestInjection_holds : startTestInjection := by
  refine ⟨fun s groups pc hon hgroups hlocked => Does.intro _ rfl ?_, fun s group det hawake hlocked hgroup hdet => Does.byRequester hawake rfl ?_,
    fun s g hawake hlocked hg halone hclosed => Does.byRequester hawake rfl ?_, fun s g hawake hlocked hg hfails => ?_,
    fun s hawake hlocked hnone => Does.byRequester hawake rfl ?_, fun s group det hlocked => ⟨next_byRequester ?_, next_byRequester ?_⟩⟩
  · rw [doLockstepMismatch_unlocked pc hon hgroups hlocked]
    obtain ⟨hdet, hbit, hgate, hregs, hmem, hrest⟩ := s.faultShown_det groups
    exact ⟨hbit, hgate, hdet, rfl, rfl, hregs, hmem, hrest⟩
  · rw [doInjectDifference_found hlocked hgroup hdet]
    obtain ⟨hdet, hbit, hgate, hregs, hmem, hrest⟩ := (s.injecting group).faultShown_det det
    exact ⟨hdet, hbit, hgate, State.injecting_injNow hrest, hregs, hmem, State.injecting_rest hrest⟩
  · rw [doInjectClear_judged hlocked hg, if_neg (by simp [halone, hclosed])]
    obtain ⟨hdet, hmm, hgate, hregs, hmem, hrest⟩ :=
      State.clearInjection_shows { s with power := { s.power with injNow := none, injDone := s.power.injDone ||| 2 ^ g } }
    exact ⟨hdet, hmm, hgate, rfl, hregs, hmem, rfl⟩
  · refine congrArg Host.Outcome.next ?_
    rw [State.byRequester_awake _ hawake, doInjectClear_judged hlocked hg, if_pos hfails]
  · have hclear : doInjectClear s = s.clearInjection := by rw [doInjectClear, hlocked, hnone, if_neg Bool.false_ne_true]
    rw [hclear]
    obtain ⟨hdet, hmm, hgate, hrest⟩ := s.clearInjection_shows
    exact ⟨hdet, hmm, hgate, hrest⟩
  · simp [doInjectDifference, hlocked]
  · simp [doInjectClear, hlocked]

/-! LOCK and ARM (R70, R71, R73) -/

theorem State.awake_of_bootRom {s : State} (h : s.power.phase = .bootRom) : s.awake = true := by simp [State.awake, State.powered, h]

theorem doCoxLock_ends {s : State} (hlocked : s.locked = false) (hboot : s.power.phase = .bootRom) : doCoxLock s = s.startTestEnd := by
  simp [doCoxLock, hlocked, State.awake_of_bootRom hboot, State.inStartTest, hboot]

theorem State.untested_none {s : State} (h : ∀ g, g < 24 → getField s.power.injDone g 1 = 1) : s.untested = none := by
  refine List.find?_eq_none.mpr fun g hg => ?_
  simp [h g (List.mem_range.mp hg)]

/-- The lowest group without its pass. -/
theorem State.untested_some {s : State} {g : Nat} (hg : g < 24) (hfails : getField s.power.injDone g 1 = 0) (hpass : ∀ h, h < g → getField s.power.injDone h 1 = 1) :
    s.untested = some g := by
  rw [State.untested, List.find?_range_eq_some]
  exact ⟨decide_eq_true hfails, List.mem_range.mpr hg, fun j hj => by simp [hpass j hj]⟩

theorem State.startTestEnd_passed {s : State} (h : s.untested = none) (hmm : s.bit Reg.COX_STATUS 2 = false) (hfatal : s.bit Reg.COX_STATUS 3 = false) :
    s.startTestEnd = ((s.setBit Reg.COX_STATUS 1 true).setBit Reg.COX_STATUS 0 true).setBit Reg.COX_CTRL 0 true := by
  simp [State.startTestEnd, h, hmm, hfatal]

theorem State.startTestEnd_stray {s : State} (h : s.untested = none) (hfault : s.bit Reg.COX_STATUS 2 = true ∨ s.bit Reg.COX_STATUS 3 = true) :
    s.startTestEnd = s.startTestFail (if s.bit Reg.COX_STATUS 2 then 24 else 25) := by
  cases hmm : s.bit Reg.COX_STATUS 2 <;> simp_all [State.startTestEnd]

/-- The boot ROM's stop after a failed start test (R71). -/
theorem State.startTestFail_shows (s : State) {n : Nat} (hn : n < 32) :
    (s.startTestFail n).fld Reg.COX_STEST 24 5 = n ∧ (s.startTestFail n).bit Reg.COX_STATUS 0 = false
      ∧ (s.startTestFail n).power = { s.power with phase := .stestFault n, bootTimer := false }
      ∧ RegsBut s (s.startTestFail n) [Reg.COX_STEST, Reg.COX_STATUS] ∧ SameMem s (s.startTestFail n)
      ∧ s.startTestFail n = { s with regs := (s.startTestFail n).regs, power := (s.startTestFail n).power } := by
  refine ⟨?_, ?_, rfl, ?_, SameMem.of_mem rfl, rfl⟩
  · simp -implicitDefEqProofs [State.startTestFail, State.bootFault, Nat.mod_eq_of_lt hn]
  · simp -implicitDefEqProofs [State.startTestFail, State.bootFault]
  · simp [State.startTestFail, State.bootFault]

theorem lockAndArm_holds : lockAndArm := by
  refine ⟨fun s hlocked hboot hpassed hmm hfatal => Does.intro _ rfl ?_, fun s g hlocked hboot hg hfails hpass => congrArg Host.Outcome.next ?_,
    fun s hlocked hboot hpassed hfault => congrArg Host.Outcome.next ?_, fun s n hn => ?_, fun s hawake hlocked hpassed => Does.byRequester hawake rfl ?_,
    fun s h => next_byRequester ?_⟩
  · rw [doCoxLock_ends hlocked hboot, State.startTestEnd_passed (State.untested_none hpassed) hmm hfatal]
    refine ⟨?_, ?_, ?_, ?_, SameMem.of_mem rfl, rfl⟩
    · exact State.bit_setBit_self _ _ (by decide)
    · simp
    · simp
    · simp
  · rw [doCoxLock_ends hlocked hboot, State.startTestEnd, State.untested_some hg hfails hpass]
  · rw [doCoxLock_ends hlocked hboot, State.startTestEnd_stray (State.untested_none hpassed) hfault]
  · exact s.startTestFail_shows hn
  · have harm : doPermitArm s = s.setBit Reg.COX_PERMIT 0 true := if_pos (by simp [hlocked, hpassed])
    rw [harm]
    exact ⟨State.bit_setBit_self _ _ (by decide), by simp, SameMem.of_mem rfl, rfl⟩
  · exact if_neg (by obtain h | h := h <;> simp [h])

/-- Settles O17: before LOCK differences are shown and judged by the start test, whose pass sets LOCK. -/
theorem startTestAndLock : Obligations.StartTestAndLock := ⟨startTestInjection_holds, lockAndArm_holds⟩

end Sys2Proof.Machine
end

section
/-!
PROOFS. The memories' error classes (R63, R66, R67, R78): the acknowledgement of a retained fault, the inhibition of the reset, the corrected and the fatal classes. They settle O16.
-/

namespace Sys2Proof.Machine

theorem acknowledgeAndInhibit_holds : acknowledgeAndInhibit := by
  refine ⟨fun s hawake => Does.byRequester hawake rfl ⟨rfl, rfl⟩, fun s v hawake hsession hservice => Does.byRequester hawake rfl ?_, fun s v h => next_byRequester ?_⟩
  · have harm : doMismatchResetInhibit s v = s.setBit Reg.COX_CTRL 1 v := if_pos (by simp [hsession, hservice])
    rw [harm]
    exact ⟨State.bit_setBit_self _ _ (by decide), by simp, SameMem.of_mem rfl, rfl⟩
  · exact if_neg (by obtain h | h := h <;> simp [h])

/-- What a corrected word of the Cox or of the scrubber counts and logs. -/
def State.correctedCounted (s : State) (m : EccMem) (a d : Nat) : State :=
  ({ (((s.writeBack m a d).incSat (eccReg m) 0 16 1).wrN Reg.COX_ECCADDR a).setBit Reg.COX_IRQ 0 true with
    cam := { s.cam with corrected := s.cam.corrected + 1 } } : State)

theorem doEccCorrected_cox {s : State} {m : EccMem} {a data check d : Nat} (hm : memOf a = some m) (hclass : eccClass m (wordIndex m a) data check = .corrected d) :
    doEccCorrected s .cox a data check = (s.correctedCounted m a d).logKpa 0x0303 (u8 (memCode m) ++ u32 a) := by
  simp only [doEccCorrected, hm, hclass, State.correctedCounted, State.writeBack, State.setBit_cam, State.wrN_cam, State.incSat_cam, State.st_cam]

/-- The counter of a memory's corrected words is none of the other registers shown. -/
theorem eccReg_fresh (m : EccMem) : Reg.COX_ECCADDR ≠ eccReg m ∧ Reg.COX_IRQ ≠ eccReg m ∧ eccReg m ∉ logRegs 0 := by
  cases m <;> decide

theorem State.correctedCounted_shows (s : State) (m : EccMem) (a d : Nat) : let t := s.correctedCounted m a d
    t.fld (eccReg m) 0 16 = min (s.fld (eccReg m) 0 16 + 1) 0xFFFF ∧ t.rdN Reg.COX_ECCADDR = a % 2 ^ 32 ∧ t.bit Reg.COX_IRQ 0 = true
      ∧ RegsBut s t [eccReg m, Reg.COX_ECCADDR, Reg.COX_IRQ] ∧ t.mem = (s.writeBack m a d).mem
      ∧ t = { s with regs := t.regs, mem := t.mem, cam := { s.cam with corrected := s.cam.corrected + 1 } } := by
  obtain ⟨haddr, hirq, -⟩ := eccReg_fresh m
  refine ⟨?_, ?_, ?_, ?_, ?_, ?_⟩
  · simp [State.correctedCounted, haddr, hirq, State.writeBack]
  · simp [State.correctedCounted]
  · simp [State.correctedCounted]
  · simp [State.correctedCounted, State.writeBack]
  · simp [State.correctedCounted]
  · ext1 <;> simp [State.correctedCounted, State.writeBack]

theorem correctedByCox {s : State} {m : EccMem} {a data check d : Nat} (hm : memOf a = some m) (hclass : eccClass m (wordIndex m a) data check = .corrected d) :
    Does (.eccCorrected .cox a data check) s (fun t =>
      t.fld (eccReg m) 0 16 = min (s.fld (eccReg m) 0 16 + 1) 0xFFFF ∧ t.rdN Reg.COX_ECCADDR = a % 2 ^ 32 ∧ t.bit Reg.COX_IRQ 0 = true
        ∧ t.cam = { s.cam with corrected := s.cam.corrected + 1 } ∧ (∀ b, t.rdB b = (s.writeBack m a d).rdB b)
        ∧ RegsBut s t ([eccReg m, Reg.COX_ECCADDR, Reg.COX_IRQ] ++ logRegs 0)
        ∧ t = { s with regs := t.regs, mem := t.mem, cam := t.cam, log := t.log }) := by
  refine Does.intro _ rfl ?_
  rw [doEccCorrected_cox hm hclass]
  obtain ⟨hcount, haddr, hirq, hregs, hmem, hrest⟩ := s.correctedCounted_shows m a d
  generalize s.correctedCounted m a d = u at *
  have hlogged := u.logKpa_eq 0x0303 (u8 (memCode m) ++ u32 a)
  have hkept : RegsBut u (u.logKpa 0x0303 (u8 (memCode m) ++ u32 a)) (logRegs 0) := (RegsBut.refl _ _).logKpa _ _ fun _ => id
  generalize u.logKpa 0x0303 (u8 (memCode m) ++ u32 a) = t at *
  have hcam : t.cam = { s.cam with corrected := s.cam.corrected + 1 } := (congrArg State.cam hlogged :).trans (congrArg State.cam hrest :)
  refine ⟨?_, ?_, ?_, hcam, fun b => ?_, ?_, ?_⟩
  · rw [State.fld_of_rd (hkept _ (eccReg_fresh m).2.2), hcount]
  · rw [State.rdN_of_rd (hkept _ (by decide)), haddr]
  · rw [State.bit_of_rd (hkept _ (by decide)), hirq]
  · exact State.rdB_of_mem ((congrArg State.mem hlogged :).trans hmem) b
  · exact (hregs.mono fun _ => List.mem_append_left _).trans (hkept.mono fun _ => List.mem_append_right _)
  · rw [hcam, hlogged, hrest]

theorem correctedByScull {s : State} {rq : Requester} {m : EccMem} {a data check d : Nat} (hrq : Requester.scull? rq ≠ none) (hm : memOf a = some m)
    (hclass : eccClass m (wordIndex m a) data check = .corrected d) :
    Does (.eccCorrected rq a data check) s (fun t =>
      t.fld Reg.PART_ECC 0 16 = min (s.fld Reg.PART_ECC 0 16 + 1) 0xFFFF ∧ (∀ b, t.rdB b = (s.writeBack m a d).rdB b)
        ∧ RegsBut s t [Reg.PART_ECC] ∧ t = { s with regs := t.regs, mem := t.mem }) := by
  have harm : doEccCorrected s rq a data check = (s.writeBack m a d).incSat Reg.PART_ECC 0 16 1 := by
    cases rq with
    | cox | linkEngine | prefetch | debugPort => exact absurd rfl hrq
    | scull0 | scull1 | scull2 | scull3 | monitor0 | monitor1 | monitor2 | monitor3 => simp only [doEccCorrected, hm, hclass]
  refine Does.intro _ rfl ?_
  rw [harm]
  refine ⟨?_, fun b => ?_, ?_, ?_⟩
  · simp [State.writeBack]
  · exact State.rdB_of_mem (State.incSat_mem ..) b
  · simp [State.writeBack]
  · ext1 <;> simp [State.writeBack]

theorem memCode_lt (m : EccMem) : memCode m < 4 := by cases m <;> decide

theorem doEccFatal_locked {s : State} {m : EccMem} {a data check : Nat} (pc : Word) (hon : s.powered = true) (hlocked : s.locked = true) (hm : memOf a = some m)
    (hfatal : (eccClass m (wordIndex m a) data check).fatal = true) :
    doEccFatal s a data check pc =
      s.faultUnderLock 3 2 0 pc.toNat (memCode m + (if eccClass m (wordIndex m a) data check = .address then 4 else 0)) a 4 := by
  have hlock : ((s.setBit Reg.COX_STATUS 3 true).stopFeed).locked = true := by
    refine Eq.trans ?_ hlocked
    exact State.bit_of_rd (s.faultShown_regs 3 Reg.COX_CTRL (by decide)) 0
  simp only [doEccFatal, hon, hm, hfatal, if_true, hlock]
  rfl

theorem memoryErrorClasses_holds : memoryErrorClasses := by
  refine ⟨fun s m a data check d => correctedByCox, fun s rq m a data check d => correctedByScull, fun s m a data check pc hon hlocked hfree hm hfatal => ?_,
    fun s h => congrArg Host.Outcome.next (if_pos h), fun s hrow hout hidle hover => Does.intro _ rfl ?_⟩
  · refine Does.intro _ rfl ?_
    rw [doEccFatal_locked pc hon hlocked hm hfatal]
    have hcls : memCode m + (if eccClass m (wordIndex m a) data check = .address then 4 else 0) < 8 := by
      have := memCode_lt m
      split <;> omega
    generalize memCode m + (if eccClass m (wordIndex m a) data check = .address then 4 else 0) = cls at *
    obtain ⟨hbit, hgate, hreset, hregs, hmem, hrest⟩ := State.faultUnderLock_frame hlocked 3 2 0 pc.toNat cls a 4 (by decide) (by decide)
    obtain ⟨-, hpc, -, hcause, hclass, haddr, -⟩ := State.faultUnderLock_retains hlocked 3 2 0 pc.toNat cls a 4 hfree (by decide)
    exact ⟨hbit, hgate, haddr, hpc.trans (by simp [wordOf]), hcause, hclass.trans (Nat.mod_eq_of_lt hcls), hreset, hregs, hmem, hrest⟩
  · rw [doEccCorrLimit, if_pos hover]
    have hlogged := s.logKpa_eq 0x0304 (u32 s.cam.corrected)
    have hkept : RegsBut s (s.logKpa 0x0304 (u32 s.cam.corrected)) (logRegs 0) := (RegsBut.refl _ _).logKpa _ _ fun _ => id
    generalize s.logKpa 0x0304 (u32 s.cam.corrected) = u at *
    have hcam : u.cam = s.cam := (congrArg State.cam hlogged :)
    obtain ⟨heasy, -, hnow⟩ := State.easy_of_rowing (s := u) 0x13 (by rw [← hrow]; exact State.rowing_congr (congrArg State.power hlogged :) (hkept _ (by decide)) (by rw [hcam])) (by rwa [hcam])
      ((congrArg State.acts hlogged :).trans hidle)
    rw [heasy, hnow]
    exact ⟨rfl, rfl⟩

/-- Settles O16: a mismatch and a fatal class under LOCK close the gate, are retained and lead to a reset; corrected words are written back and counted. -/
theorem mismatchAndMemoryErrors : Obligations.MismatchAndMemoryErrors := ⟨mismatchUnderLock_holds, acknowledgeAndInhibit_holds, memoryErrorClasses_holds⟩

end Sys2Proof.Machine
end

section
/-!
PROOFS. Resets (R109 to R118, R123, R285): the causes of a reset, the slow clock and the current wake, and the requesters that wait for the wipe. They settle O21, O22 and O23.
-/

namespace Sys2Proof.Machine

/-! What survives a reset -/

theorem State.spoil_eq (s : State) (a n : Nat) : s.spoil a n = { s with mem := (s.spoil a n).mem, freeCtr := (s.spoil a n).freeCtr } := by
  ext1 <;> simp [State.spoil, State.freeBytes]

theorem State.cutErase_eq (s : State) : s.cutErase = { s with mem := s.cutErase.mem, freeCtr := s.cutErase.freeCtr } := by
  rw [State.cutErase]
  split
  · exact s.spoil_eq _ _
  · rfl

/-- The non-volatile store and the always-on domain stay through a reset other than POR (R117). -/
theorem State.assertReset_keeps (s : State) (cause : Nat) : (s.assertReset cause).nv = s.nv ∧ (s.assertReset cause).ao = s.ao := by
  have hcut := s.cutErase_eq
  have hheld : (s.heldBy cause).nv = s.nv ∧ (s.heldBy cause).ao = s.ao := ⟨(congrArg State.nv hcut :), (congrArg State.ao hcut :)⟩
  unfold State.assertReset
  dsimp only
  split <;> exact hheld

/-- RST.CAUSE shows the cause of the reset (R113). -/
theorem State.bit_cause_assertReset (s : State) {cause : Nat} (h : cause < 32) : (s.assertReset cause).bit Reg.RST_CAUSE cause = true := by
  have hshown : ∀ t : State, ((t.countReset cause).setBit Reg.CCA_STAT 2 false).bit Reg.RST_CAUSE cause = true := fun t => by
    rw [State.bit_setBit_ne _ _ _ _ (by decide), State.countReset, State.bit_incSat_ne _ _ _ _ _ (by decide), State.bit_setBit_self _ _ h]
  unfold State.assertReset
  dsimp only
  split
  · rw [State.bit_incSat_ne _ _ _ _ _ (by decide), hshown]
  · exact hshown _

/-! The causes of a reset -/

theorem doResetAssert_powered {s : State} {c : ResetCause} (hon : s.powered = true) (hc : c ≠ .por) : doResetAssert s c = s.assertReset (causeCode c) := by
  unfold State.powered at hon
  cases hphase : s.power.phase <;> simp_all [doResetAssert]

theorem resetCauses_holds : resetCauses := by
  refine ⟨fun s us hpor hship hlong => congrArg Host.Outcome.next ?_, fun s us hshort => congrArg Host.Outcome.next (if_pos (.inl hshort)),
    fun s h => congrArg Host.Outcome.next (if_pos h), fun s h => congrArg Host.Outcome.next (if_pos h), fun s hawake => Does.byRequester hawake rfl rfl,
    fun s h => congrArg Host.Outcome.next (if_pos h), fun s hawake => congrArg Host.Outcome.next ?_, fun s v hkey => congrArg Host.Outcome.next ?_,
    fun s c hon hc => congrArg Host.Outcome.next (doResetAssert_powered hon hc)⟩
  · rw [doResetPin, if_neg (by simp [hpor, hship]; omega), if_pos hlong]
  · exact if_pos ⟨by decide, by decide, hawake⟩
  · exact if_neg fun h => by obtain hk | hk := hkey <;> simp [hk] at h

theorem slowClockLossAndCurrentWake_holds : slowClockLossAndCurrentWake := by
  refine ⟨fun s hfirst => Does.intro _ rfl ?_, fun s hsleep hwake => Does.intro _ rfl ?_, fun s h => congrArg Host.Outcome.next (if_neg (by simp [h]))⟩
  · have hshown : doX32Loss s = State.logKpa { (s.setBit Reg.CLK_STAT 2 false).setBit Reg.CLK_STAT 8 true with ao := { s.ao with x32lost := true } } 0x0506 [] :=
      if_neg (by simp [hfirst])
    have hlogged := State.logKpa_eq { (s.setBit Reg.CLK_STAT 2 false).setBit Reg.CLK_STAT 8 true with ao := { s.ao with x32lost := true } } 0x0506 []
    refine ⟨?_, ?_, ?_, ?_, ?_, ?_, ?_⟩
    · rw [hshown, State.bit_logKpa _ _ _ _ (by decide), State.bit_mk, State.bit_setBit_self _ _ (by decide)]
    · rw [hshown, State.bit_logKpa _ _ _ _ (by decide), State.bit_mk, State.bit_setBit_other _ _ (by decide) (by decide), State.bit_setBit_self _ _ (by decide)]
    · rw [hshown, hlogged]
    · rw [hshown, hlogged]
      rfl
    · rw [hshown]
      simp
    · simp [hshown]
    · rw [hshown, hlogged]
      rfl
  · obtain ⟨hphase, hsrc, hlast⟩ := State.wake_of_hibernating 1 hsleep
    have harm : doCurrentWake s = s.wake 1 := if_pos hwake
    obtain ⟨hnv, hao⟩ := s.free.2.assertReset_keeps 7
    have hshown : (s.wake 1).bit Reg.RST_CAUSE 7 = true ∧ (s.wake 1).nv = s.nv ∧ (s.wake 1).ao.us = s.ao.us + (s.wake 1).power.sleptS * 1000000 := by
      unfold State.wake
      rw [hsleep]
      exact ⟨State.bit_cause_assertReset s.free.2 (by decide), hnv, (congrArg (fun ao : AlwaysOn => ao.us + s.free.1 * 1000000) hao :)⟩
    obtain ⟨hcause, hkept, hus⟩ := hshown
    rw [harm]
    exact ⟨hphase, hsrc, hlast, hcause, hkept, hus⟩

/-! Requesters wait for the wipe -/

theorem secStart_asleep {s : State} (h : s.awake = false) (f : Nat) : s.secStart f = s := by simp [State.secStart, h]

/-- No requester runs before the wipe is complete (R118). -/
theorem exec_of_requester_asleep {c : Instr} {s : State} (hc : requesterRow c = true) (h : s.awake = false) : exec c s = .next s := by
  have hwaits : ∀ t : State, s.byRequester t = s := fun t => by rw [State.byRequester, h]; rfl
  have hcamlan : s.camlanOn = false := by
    by_contra hon
    exact Bool.false_ne_true (h.symm.trans (State.awake_of_camlanOn (Bool.eq_true_of_not_eq_false hon)))
  cases c
  all_goals try exact absurd hc Bool.false_ne_true
  case registerWrite => exact congrArg Host.Outcome.next (if_pos (by simp [h]))
  case readClear => exact congrArg Host.Outcome.next (if_pos (by simp [h]))
  case coxLock => exact congrArg Host.Outcome.next (if_pos (by simp [h]))
  case softReset => exact congrArg Host.Outcome.next (if_neg (by simp [h]))
  case lcsRequest => exact congrArg Host.Outcome.next (if_pos (by simp [hcamlan]))
  case strokeTimeRead => exact congrArg Host.Outcome.next (if_pos (by simp [h]))
  case secSha256 => exact congrArg Host.Outcome.next (secStart_asleep h 0)
  case secAesEcb => exact congrArg Host.Outcome.next (secStart_asleep h 1)
  case secAesCcm => exact congrArg Host.Outcome.next (secStart_asleep h 2)
  case secAesCmac => exact congrArg Host.Outcome.next (secStart_asleep h 3)
  case secEcdsaVerify => exact congrArg Host.Outcome.next (secStart_asleep h 4)
  case secKeyLoad => exact congrArg Host.Outcome.next (if_pos (by simp [h]))
  case secKeyGenerate => exact congrArg Host.Outcome.next (if_pos (by simp [h]))
  case secRandomRead => exact congrArg Host.Outcome.next (if_pos (by simp [h]))
  all_goals exact congrArg Host.Outcome.next (hwaits _)

theorem requestersWaitForTheWipe_holds : requestersWaitForTheWipe :=
  ⟨fun s h => by simp [State.awake, h], fun _ _ => exec_of_requester_asleep⟩

/-- Settles O23: the causes of a reset, the lost slow clock and the current wake, and no requester before the wipe is complete. -/
theorem resetCausesAndClocks : Obligations.ResetCausesAndClocks := ⟨resetCauses_holds, slowClockLossAndCurrentWake_holds, requestersWaitForTheWipe_holds⟩

/-! Registers out of order

A read stops at the first listed address that is not below its own, so in a list out of order a survivor behind a higher address is not seen; the reset drops
the higher address and shows it. Neither statement asks for the canonical form, which every step keeps. -/

/-- A state whose registers are listed out of order: one that survives a reset behind one that does not. -/
def disordered (a : Nat) : State := { State.reset with regs := [(Reg.STK_NUM, 1), (a, 1)] }

/-- Refutes O21: with the registers listed out of order RST.RETAIN0 reads 0 before and 1 after a reset, for the step drops what hid it. -/
theorem not_whatAResetLeaves : ¬ Obligations.WhatAResetLeaves := by
  unfold Obligations.WhatAResetLeaves
  intro h
  obtain ⟨-, -, -, -, hkept, -⟩ := h (disordered (Reg.RST_RETAIN 0)) 1 (by decide) (by decide)
  exact absurd (hkept (Reg.RST_RETAIN 0) (by decide) (by decide)) (by decide)

/-- Refutes O22: with the registers listed out of order LCS.STATE reads its reset value before and 1 after a power-on reset. -/
theorem not_powerOnResetAndReleases : ¬ Obligations.PowerOnResetAndReleases := by
  unfold Obligations.PowerOnResetAndReleases
  intro h
  obtain ⟨hpor, -⟩ := h
  obtain ⟨t, ht, hkept, -⟩ := hpor (disordered Reg.LCS_STATE)
  have hnext : (disordered Reg.LCS_STATE).assertPor = t := Host.Outcome.next.inj ht
  rw [← hnext] at hkept
  exact absurd (hkept Reg.LCS_STATE (by decide)) (by decide)

end Sys2Proof.Machine
end

section
/-!
PROOFS. The code of the memories (R65, R66): the check bits are a sum of columns that are apart and of odd weight, so one wrong bit shows its own column and two wrong bits show none. They settle O60.
-/

namespace Sys2Proof.Machine

/-! Bits of numbers -/

theorem getField_bit_eq_one (n b : Nat) : getField n b 1 = 1 ↔ n.testBit b = true := by
  rw [getField, Nat.testBit_eq_decide_div_mod_eq, pow_one, decide_eq_true_iff]

theorem getField_bit (n b : Nat) : getField n b 1 = (n.testBit b).toNat := by
  have hlt : getField n b 1 < 2 := Nat.mod_lt _ (by decide)
  have hone := getField_bit_eq_one n b
  cases h : n.testBit b
  · rw [h] at hone
    have : getField n b 1 ≠ 1 := fun h1 => Bool.false_ne_true (hone.mp h1)
    simp only [Bool.toNat_false]
    omega
  · exact hone.mpr h

theorem testBit_putField_bit (n v lo b : Nat) (hv : v < 2) : (putField n lo 1 v).testBit b = if b = lo then decide (v = 1) else n.testBit b := by
  by_cases h : b = lo
  · rw [if_pos h, h, Bool.eq_iff_iff, ← getField_bit_eq_one, getField_putField_self, pow_one, Nat.mod_eq_of_lt hv, decide_eq_true_iff]
  · rw [if_neg h, Bool.eq_iff_iff, ← getField_bit_eq_one, getField_putField_bit _ _ h, getField_bit_eq_one]

theorem testBit_xor_two_pow (n i b : Nat) : (n ^^^ 2 ^ i).testBit b = if b = i then !n.testBit b else n.testBit b := by
  rw [Nat.testBit_xor, Nat.testBit_two_pow]
  by_cases h : b = i
  · simp [h]
  · simp [h, Ne.symm h]

theorem xor_two_pow_lt {n i k : Nat} (hn : n < 2 ^ k) (hi : i < k) : n ^^^ 2 ^ i < 2 ^ k :=
  Nat.xor_lt_two_pow hn (Nat.pow_lt_pow_right (by decide) hi)

/-- A bit put back to what it was before it went wrong. -/
theorem putField_of_xor_two_pow (n i : Nat) : putField (n ^^^ 2 ^ i) i 1 (1 - getField (n ^^^ 2 ^ i) i 1) = n := by
  refine Nat.eq_of_testBit_eq fun b => ?_
  rw [testBit_putField_bit _ _ _ _ (by omega), getField_bit, testBit_xor_two_pow]
  by_cases h : b = i
  · rw [if_pos h, h, if_pos rfl]
    cases n.testBit i <;> rfl
  · rw [if_neg h, testBit_xor_two_pow, if_neg h]

/-! Sums of columns -/

/-- The sum of the columns of the bits that are 1. -/
def columnSum (f : Nat → Nat) (w N : Nat) : Nat := (List.range N).foldl (fun c i => if getField w i 1 = 1 then c ^^^ f i else c) 0

theorem columnSum_succ (f : Nat → Nat) (w N : Nat) : columnSum f w (N + 1) = if w.testBit N then columnSum f w N ^^^ f N else columnSum f w N := by
  rw [columnSum, List.range_succ, List.foldl_append]
  simp only [List.foldl_cons, List.foldl_nil, columnSum, getField_bit_eq_one]

theorem columnSum_lt {f : Nat → Nat} {r N : Nat} (w : Nat) (hf : ∀ i, i < N → f i < 2 ^ r) : columnSum f w N < 2 ^ r := by
  induction N with
  | zero => exact Nat.two_pow_pos r
  | succ N ih =>
    have hsum := ih fun i hi => hf i (Nat.lt_succ_of_lt hi)
    rw [columnSum_succ]
    split
    · exact Nat.xor_lt_two_pow hsum (hf N (Nat.lt_succ_self N))
    · exact hsum

theorem columnSum_congr {f : Nat → Nat} {w v N : Nat} (h : ∀ i, i < N → v.testBit i = w.testBit i) : columnSum f v N = columnSum f w N := by
  induction N with
  | zero => rfl
  | succ N ih => rw [columnSum_succ, columnSum_succ, ih fun i hi => h i (Nat.lt_succ_of_lt hi), h N (Nat.lt_succ_self N)]

/-- One wrong bit adds its column. -/
theorem columnSum_flip {f : Nat → Nat} {w v j N : Nat} (hj : j < N) (h : ∀ i, i < N → v.testBit i = if i = j then !w.testBit i else w.testBit i) :
    columnSum f v N = columnSum f w N ^^^ f j := by
  induction N with
  | zero => exact absurd hj (Nat.not_lt_zero j)
  | succ N ih =>
    have hlast := h N (Nat.lt_succ_self N)
    rw [columnSum_succ, columnSum_succ]
    by_cases hN : N = j
    · rw [if_pos hN] at hlast
      have hrest : columnSum f v N = columnSum f w N :=
        columnSum_congr fun i hi => (h i (Nat.lt_succ_of_lt hi)).trans (if_neg fun hij => by omega)
      rw [hrest, hlast, ← hN]
      cases w.testBit N
      · rfl
      · simp
    · rw [if_neg hN] at hlast
      rw [ih (by omega) fun i hi => h i (Nat.lt_succ_of_lt hi), hlast]
      split
      · rw [Nat.xor_assoc, Nat.xor_comm (f j), ← Nat.xor_assoc]
      · rfl

/-! The weight of a column -/

theorem parityOf_succ (n v : Nat) : parityOf (n + 1) v = (parityOf n v + getField v n 1) % 2 := by
  rw [parityOf, List.range_succ, List.foldl_append]
  rfl

theorem parityOf_xor (n a b : Nat) : parityOf n (a ^^^ b) = (parityOf n a + parityOf n b) % 2 := by
  induction n with
  | zero => rfl
  | succ n ih =>
    have hbit : getField (a ^^^ b) n 1 = (getField a n 1 + getField b n 1) % 2 := by
      rw [getField_bit, getField_bit, getField_bit, Nat.testBit_xor]
      cases a.testBit n <;> cases b.testBit n <;> rfl
    rw [parityOf_succ, parityOf_succ, parityOf_succ, ih, hbit]
    omega

/-- The columns of the data and address bits are apart, of odd weight and none of the check bits' own, and so are those of the check bits of odd weight. -/
def columnsApart (N r : Nat) : Bool :=
  let cols := (List.range N).map (hammingColumn r)
  decide cols.Nodup && cols.all (fun c => decide (c < 2 ^ r) && decide (parityOf r c = 1) && (List.range r).all fun j => decide (c ≠ 2 ^ j))
    && (List.range r).all fun j => decide (parityOf r (2 ^ j) = 1)

/-- The bits that a code covers. -/
def codeBits (m : EccMem) : Nat := (codeShape m).1 + (codeShape m).2.1

/-- The column of a bit of the code of a memory. -/
def codeColumn (m : EccMem) (i : Nat) : Nat := hammingColumn (codeShape m).2.2 i

theorem columnsApart_code (m : EccMem) : columnsApart (codeBits m) (codeShape m).2.2 = true := by
  cases m <;> decide +kernel

section
variable (m : EccMem) {i j : Nat}

theorem codeColumn_props (hi : i < codeBits m) :
    codeColumn m i < 2 ^ (codeShape m).2.2 ∧ parityOf (codeShape m).2.2 (codeColumn m i) = 1 ∧ ∀ j, j < (codeShape m).2.2 → codeColumn m i ≠ 2 ^ j := by
  have h := columnsApart_code m
  simp only [columnsApart, Bool.and_eq_true, decide_eq_true_eq, List.all_eq_true, List.mem_map, List.mem_range] at h
  obtain ⟨⟨-, hall⟩, -⟩ := h
  obtain ⟨⟨hlt, hodd⟩, hne⟩ := hall _ ⟨i, hi, rfl⟩
  exact ⟨hlt, hodd, hne⟩

theorem parityOf_checkColumn (hj : j < (codeShape m).2.2) : parityOf (codeShape m).2.2 (2 ^ j) = 1 := by
  have h := columnsApart_code m
  simp only [columnsApart, Bool.and_eq_true, decide_eq_true_eq, List.all_eq_true, List.mem_map, List.mem_range] at h
  exact h.2 j hj

theorem codeColumn_inj (hi : i < codeBits m) (hj : j < codeBits m) (h : codeColumn m i = codeColumn m j) : i = j := by
  have happ := columnsApart_code m
  simp only [columnsApart, Bool.and_eq_true, decide_eq_true_eq] at happ
  exact List.inj_on_of_nodup_map happ.1.1 (List.mem_range.mpr hi) (List.mem_range.mpr hj) h

end

/-! Check bits and classes -/

/-- Data and folded address as the code sees them. -/
def codeWord (m : EccMem) (index data : Nat) : Nat := data % 2 ^ (codeShape m).1 + index % 2 ^ (codeShape m).2.1 * 2 ^ (codeShape m).1

theorem checkBits_eq (m : EccMem) (index data : Nat) : checkBits m index data = columnSum (codeColumn m) (codeWord m index data) (codeBits m) := rfl

theorem checkBits_lt (m : EccMem) (index data : Nat) : checkBits m index data < 2 ^ (codeShape m).2.2 :=
  columnSum_lt _ fun _ hi => (codeColumn_props m hi).1

theorem testBit_codeWord (m : EccMem) (index data i : Nat) :
    (codeWord m index data).testBit i = if i < (codeShape m).1 then data.testBit i
      else decide (i - (codeShape m).1 < (codeShape m).2.1) && index.testBit (i - (codeShape m).1) := by
  rw [codeWord, Nat.add_comm, Nat.mul_comm, Nat.testBit_two_pow_mul_add _ (Nat.mod_lt _ (Nat.two_pow_pos _))]
  split
  · next h => rw [Nat.testBit_mod_two_pow, decide_eq_true h, Bool.true_and]
  · rw [Nat.testBit_mod_two_pow]

theorem checkBits_data_flip (m : EccMem) (index data : Nat) {i : Nat} (hi : i < (codeShape m).1) :
    checkBits m index (data ^^^ 2 ^ i) = checkBits m index data ^^^ codeColumn m i := by
  refine columnSum_flip (Nat.lt_of_lt_of_le hi (Nat.le_add_right _ _)) fun b _ => ?_
  change (codeWord m index (data ^^^ 2 ^ i)).testBit b = if b = i then !(codeWord m index data).testBit b else (codeWord m index data).testBit b
  rw [testBit_codeWord, testBit_codeWord, testBit_xor_two_pow]
  by_cases hb : b = i
  · simp [hb, hi]
  · simp [hb]

theorem checkBits_address_flip (m : EccMem) (index data : Nat) {j : Nat} (hj : j < (codeShape m).2.1) :
    checkBits m (index ^^^ 2 ^ j) data = checkBits m index data ^^^ codeColumn m ((codeShape m).1 + j) := by
  refine columnSum_flip (Nat.add_lt_add_left hj _) fun b _ => ?_
  change (codeWord m (index ^^^ 2 ^ j) data).testBit b
    = if b = (codeShape m).1 + j then !(codeWord m index data).testBit b else (codeWord m index data).testBit b
  rw [testBit_codeWord, testBit_codeWord, testBit_xor_two_pow]
  by_cases hb : b = (codeShape m).1 + j
  · simp [hb, hj]
  · have : ¬(¬b < (codeShape m).1 ∧ b - (codeShape m).1 = j) := by omega
    simp only [hb, if_false]
    split
    · rfl
    · next h => rw [if_neg fun h' => this ⟨h, h'⟩]

/-- The class that a syndrome shows. -/
def syndromeClass (m : EccMem) (data syn : Nat) : EccClass :=
  if syn = 0 then .clean
  else match (List.range (codeBits m)).find? (fun i => decide (codeColumn m i = syn)) with
    | some i => if i < (codeShape m).1 then .corrected (putField (data % 2 ^ (codeShape m).1) i 1 (1 - getField data i 1)) else .address
    | none => if (List.range (codeShape m).2.2).any (fun j => decide (2 ^ j = syn)) then .corrected (data % 2 ^ (codeShape m).1) else .uncorrectable

theorem eccClass_eq (m : EccMem) (index data check : Nat) : eccClass m index data check = syndromeClass m data (eccSyndrome m index data check) := rfl

theorem syndromeClass_column (m : EccMem) (data : Nat) {i : Nat} (hi : i < codeBits m) :
    syndromeClass m data (codeColumn m i) =
      if i < (codeShape m).1 then .corrected (putField (data % 2 ^ (codeShape m).1) i 1 (1 - getField data i 1)) else .address := by
  have hzero : codeColumn m i ≠ 0 := fun h => by
    have hodd := (codeColumn_props m hi).2.1
    rw [h] at hodd
    cases m <;> exact absurd hodd (by decide)
  have hfound : (List.range (codeBits m)).find? (fun j => decide (codeColumn m j = codeColumn m i)) = some i := by
    rw [List.find?_range_eq_some]
    exact ⟨decide_eq_true rfl, List.mem_range.mpr hi, fun j hj => by
      simpa using fun h => Nat.ne_of_lt hj (codeColumn_inj m (Nat.lt_trans hj hi) hi h)⟩
  rw [syndromeClass, if_neg hzero, hfound]

theorem syndromeClass_check (m : EccMem) (data : Nat) {j : Nat} (hj : j < (codeShape m).2.2) :
    syndromeClass m data (2 ^ j) = .corrected (data % 2 ^ (codeShape m).1) := by
  have hnone : (List.range (codeBits m)).find? (fun i => decide (codeColumn m i = 2 ^ j)) = none :=
    List.find?_eq_none.mpr fun i hi => by simpa using (codeColumn_props m (List.mem_range.mp hi)).2.2 j hj
  have hany : (List.range (codeShape m).2.2).any (fun k => decide (2 ^ k = 2 ^ j)) = true :=
    List.any_eq_true.mpr ⟨j, List.mem_range.mpr hj, decide_eq_true rfl⟩
  rw [syndromeClass, if_neg (Nat.two_pow_pos j).ne', hnone]
  exact if_pos hany

/-- A syndrome of even weight other than 0 is the column of no bit. -/
theorem syndromeClass_even (m : EccMem) (data : Nat) {syn : Nat} (hzero : syn ≠ 0) (heven : parityOf (codeShape m).2.2 syn = 0) :
    syndromeClass m data syn = .uncorrectable := by
  have hnone : (List.range (codeBits m)).find? (fun i => decide (codeColumn m i = syn)) = none :=
    List.find?_eq_none.mpr fun i hi => by
      simpa using fun h : codeColumn m i = syn => by
        have hodd := (codeColumn_props m (List.mem_range.mp hi)).2.1
        rw [h, heven] at hodd
        exact absurd hodd (by decide)
  have hany : (List.range (codeShape m).2.2).any (fun k => decide (2 ^ k = syn)) = false :=
    List.any_eq_false.mpr fun j hj => by
      simpa using fun h : 2 ^ j = syn => by
        have hodd := parityOf_checkColumn m (List.mem_range.mp hj)
        rw [h, heven] at hodd
        exact absurd hodd (by decide)
  rw [syndromeClass, if_neg hzero, hnone]
  exact if_neg (by rw [hany]; exact Bool.false_ne_true)

/-- The syndrome of a read whose check bits differ from those recomputed by a sum of columns. -/
theorem eccSyndrome_of_xor {m : EccMem} {index data check c : Nat} (hcheck : check < 2 ^ (codeShape m).2.2) (h : checkBits m index data = check ^^^ c) :
    eccSyndrome m index data check = c := by
  rw [eccSyndrome, Nat.mod_eq_of_lt hcheck, h, Nat.xor_comm check, Nat.xor_assoc, Nat.xor_self, Nat.xor_zero]

/-- What was written reads CLEAN. -/
theorem eccClass_clean (m : EccMem) (index data : Nat) : eccClass m index data (checkBits m index data) = .clean := by
  rw [eccClass_eq, eccSyndrome_of_xor (c := 0) (checkBits_lt m index data) (Nat.xor_zero _).symm]
  exact if_pos rfl

section
variable (m : EccMem) (index : Nat) {data : Nat} (hdata : data < 2 ^ (codeShape m).1)
include hdata

theorem eccClass_data_bit {i : Nat} (hi : i < (codeShape m).1) : eccClass m index (data ^^^ 2 ^ i) (checkBits m index data) = .corrected data := by
  rw [eccClass_eq, eccSyndrome_of_xor (checkBits_lt m index data) (checkBits_data_flip m index data hi),
    syndromeClass_column m _ (Nat.lt_of_lt_of_le hi (Nat.le_add_right _ _)), if_pos hi, Nat.mod_eq_of_lt (xor_two_pow_lt hdata hi), putField_of_xor_two_pow]

theorem eccClass_check_bit {j : Nat} (hj : j < (codeShape m).2.2) : eccClass m index data (checkBits m index data ^^^ 2 ^ j) = .corrected data := by
  have hsyn : checkBits m index data = (checkBits m index data ^^^ 2 ^ j) ^^^ 2 ^ j := by rw [Nat.xor_assoc, Nat.xor_self, Nat.xor_zero]
  rw [eccClass_eq, eccSyndrome_of_xor (xor_two_pow_lt (checkBits_lt m index data) hj) hsyn, syndromeClass_check m data hj, Nat.mod_eq_of_lt hdata]

omit hdata in
theorem eccClass_address_bit (data : Nat) {j : Nat} (hj : j < (codeShape m).2.1) : eccClass m (index ^^^ 2 ^ j) data (checkBits m index data) = .address := by
  rw [eccClass_eq, eccSyndrome_of_xor (checkBits_lt m index data) (checkBits_address_flip m index data hj),
    syndromeClass_column m data (Nat.add_lt_add_left hj _), if_neg (by omega)]

omit hdata in
theorem eccClass_two_bits (data : Nat) {i j : Nat} (hi : i < (codeShape m).1) (hj : j < (codeShape m).1) (hij : i ≠ j) :
    eccClass m index (data ^^^ 2 ^ i ^^^ 2 ^ j) (checkBits m index data) = .uncorrectable := by
  have hi' : i < codeBits m := Nat.lt_of_lt_of_le hi (Nat.le_add_right _ _)
  have hj' : j < codeBits m := Nat.lt_of_lt_of_le hj (Nat.le_add_right _ _)
  have hsum : checkBits m index (data ^^^ 2 ^ i ^^^ 2 ^ j) = checkBits m index data ^^^ (codeColumn m i ^^^ codeColumn m j) := by
    rw [checkBits_data_flip m index _ hj, checkBits_data_flip m index data hi, Nat.xor_assoc]
  rw [eccClass_eq, eccSyndrome_of_xor (checkBits_lt m index data) hsum]
  refine syndromeClass_even m _ (fun h => hij (codeColumn_inj m hi' hj' (Nat.xor_eq_zero_iff.mp h))) ?_
  rw [parityOf_xor, (codeColumn_props m hi').2.1, (codeColumn_props m hj').2.1]

end

/-- Settles O60: one wrong bit shows its own column, two wrong bits an even weight that no column has. -/
theorem memoryCodeTellsErrorsApart : Obligations.MemoryCodeTellsErrorsApart :=
  ⟨fun m index data _ hdata => ⟨checkBits_lt m index data, eccClass_clean m index data, fun _ => eccClass_data_bit m index hdata,
    fun _ => eccClass_check_bit m index hdata, fun _ => eccClass_address_bit m index data, fun _ _ => eccClass_two_bits m index data⟩,
   fun _ m a => eccClass_clean m (wordIndex m a) _⟩

end Sys2Proof.Machine
end

section
/-!
PROOFS. The stroke (R26 to R40, R53 to R55, R114): its points, the trim and the demand bank, the finish and the crab, the catch and the watch. They settle O10, O11 and O12.
-/

namespace Sys2Proof.Machine

/-! The points of the stroke (R26) -/

theorem State.reach_shows (s : State) (percent : Nat) {b : Nat} (hb : b < 32) :
    (s.reach percent b).bit Reg.STK_IRQ b = true ∧ (s.reach percent b).us = max s.us (s.point percent) % 2 ^ 15
      ∧ OnlyRegs s (s.reach percent b) [Reg.STK_PHASE, Reg.STK_IRQ] := by
  refine ⟨State.bit_setBit_self _ _ hb, ?_, ?_, SameMem.of_mem rfl, rfl⟩
  · rw [State.us, State.reach, State.fld_setBit_ne _ _ _ _ _ (by decide), ← State.us, State.us_atUs]
  · simp [State.reach]

theorem strokePointsRaiseTheirBits_holds : strokePointsRaiseTheirBits := by
  refine ⟨fun s hrows => Does.intro _ rfl ?_, fun s hrows => Does.intro _ rfl ?_, fun s hrows => ⟨s.reach 70 1, congrArg Host.Outcome.next (if_pos hrows), ?_⟩⟩
  · have harm : doFinishDeadline s = s.reach 90 2 := if_pos hrows
    rw [harm]
    exact s.reach_shows 90 (by decide)
  · have harm : doRecoveryTail s = (s.reach 95 3).scrub := if_pos hrows
    obtain ⟨hirq, hus, hregs, hmem, hrest⟩ := s.reach_shows 95 (b := 3) (by decide)
    rw [harm]
    refine ⟨?_, ?_, ?_, ?_, SameMem.of_mem rfl, rfl⟩
    · rw [State.scrub, State.bit_setFld_ne _ _ _ _ _ (by decide), hirq]
    · rw [State.us, State.scrub, State.fld_setFld_ne _ _ _ _ _ _ (by decide), ← State.us, hus]
    · rw [State.scrub, State.fld_setFld_self _ _ (by decide), State.fld_of_rd (hregs Reg.COX_SCRUB (by decide))]
      exact Nat.mod_eq_of_lt (by omega)
    · exact (hregs.mono (by simp +contextual)).setFld _ _ _ (by simp)
  · exact s.reach_shows 70 (by decide)

/-! The trim, the heat's restart and the demand bank (R27, R35, R39) -/

theorem clampInt_eq (v : Int) : clampInt (-64) 63 v = min (max v (-64)) 63 := by
  unfold clampInt
  omega

/-- A trim read back in two's complement. -/
theorem signed_trim {v : Int} (hlo : -64 ≤ v) (hhi : v ≤ 63) : signed 8 ((v % 256).toNat % 2 ^ 8) = v := by
  unfold signed
  split <;> omega

theorem trimSaturatesAndHeatRestarts_holds : trimSaturatesAndHeatRestarts := by
  refine ⟨fun s v hawake => Does.byRequester hawake rfl ⟨?_, ?_, SameMem.of_mem rfl, rfl⟩, fun s hawake => Does.byRequester hawake rfl rfl⟩
  · rw [doStrokeTrim, State.fld_setFld_self _ _ (by decide), clampInt_eq]
    exact signed_trim (by omega) (by omega)
  · simp [doStrokeTrim]

theorem State.fbBank_congr {s t : State} (h : ∀ c, c < 12 → t.rd (Reg.CTR_CFG c) = s.rd (Reg.CTR_CFG c)) (raw : Nat) : t.fbBank raw = s.fbBank raw := by
  unfold State.fbBank
  refine List.foldl_ext _ _ _ fun n c hc => ?_
  rw [State.bit_of_rd (h c (List.mem_range.mp hc))]

/-- The end of a demand for the contactors' feedback alone. -/
theorem doDemandDone_feedback {s : State} {us fb : Nat} (hbusy : s.bit Reg.AGR_DSTAT 0 = true) (hfb : s.stk.demand = 0x01) :
    doDemandDone s us fb =
      ((((s.atUs us).wrN (Reg.AGR_D_BANK 0) (s.fbBank fb)).setBit Reg.AGR_DSTAT 0 false).setBit Reg.AGR_DSTAT 1 true).wrN Reg.AGR_DSTAMP
        ((s.atUs us).wrN (Reg.AGR_D_BANK 0) (s.fbBank fb)).now := by
  have hgroups : (List.range 8).filter (fun g => (s.atUs us).stk.demand / 2 ^ g % 2 = 1) = [0] := by
    rw [State.atUs_stk, hfb]
    decide
  have hbank : (s.atUs us).fbBank fb = s.fbBank fb := State.fbBank_congr (fun c hc => State.rd_setFld_ne _ _ _ _ (by unfold Reg.CTR_CFG Reg.STK_PHASE; omega)) fb
  unfold doDemandDone
  rw [hbusy]
  dsimp only
  rw [hgroups]
  simp only [Bool.not_true, Bool.false_eq_true, if_false, List.foldl_cons, List.foldl_nil, State.demandGroup, groupWords, State.sampled, hbank]
  rfl

theorem demandBankHandshake_holds : demandBankHandshake := by
  refine ⟨fun s mask hawake hbusy => Does.byRequester hawake rfl ?_, fun s mask hawake hfree => Does.byRequester hawake rfl ?_,
    fun s us fb hbusy hus hfb => Does.intro _ rfl ?_, fun s us fb h => congrArg Host.Outcome.next ?_⟩
  · have harm : doAgreementDemand s mask = s.setBit Reg.AGR_DSTAT 2 true := if_pos hbusy
    rw [harm]
    exact ⟨State.bit_setBit_self _ _ (by decide), by simp [hbusy], rfl, by simp, SameMem.of_mem rfl, rfl⟩
  · have harm : doAgreementDemand s mask = { s.setBit Reg.AGR_DSTAT 0 true with stk := { s.stk with demand := mask % 256 } } := if_neg (by simp [hfree])
    rw [harm]
    exact ⟨State.bit_setBit_self _ _ (by decide), rfl, by simp, SameMem.of_mem rfl, rfl⟩
  · have hnow : ((s.atUs us).wrN (Reg.AGR_D_BANK 0) (s.fbBank fb)).now = (s.stk.base + us) % 2 ^ 48 := by
      have hshown : ((s.atUs us).wrN (Reg.AGR_D_BANK 0) (s.fbBank fb)).us = us := by
        rw [State.us, State.fld_wrN_ne _ _ _ _ (by decide), ← State.us, State.us_atUs, Nat.mod_eq_of_lt hus]
      rw [State.now, hshown]
      rfl
    rw [doDemandDone_feedback hbusy hfb, hnow]
    refine ⟨?_, ?_, ?_, ?_, ?_, SameMem.of_mem rfl, rfl⟩
    · simp
    · simp
    · simp
    · rw [State.rdN_wrN_ne _ _ (by decide), State.rdN_setBit_ne _ _ _ (by decide), State.rdN_setBit_ne _ _ _ (by decide), State.rdN_wrN_self]
    · simp
  · rw [doDemandDone, h]
    rfl

/-- Settles O10: the points of the stroke, the trim and the heat's restart, and the demand bank's handshake. -/
theorem strokePointsTrimAndDemand : Obligations.StrokePointsTrimAndDemand := ⟨strokePointsRaiseTheirBits_holds, trimSaturatesAndHeatRestarts_holds, demandBankHandshake_holds⟩

/-! The finish (R31, R114) -/

/-- What every write of the finish does: the stall counter cleared at the time of the write. -/
def State.finishWritten (s : State) (us : Nat) : State := (s.atUs us).setFld Reg.RST_STALL 0 6 0

theorem State.finishWritten_shows (s : State) (us : Nat) (hus : us < 2 ^ 15) :
    (s.finishWritten us).fld Reg.RST_STALL 0 6 = 0 ∧ (s.finishWritten us).us = us ∧ RegsBut s (s.finishWritten us) [Reg.STK_PHASE, Reg.RST_STALL] := by
  refine ⟨?_, ?_, ?_⟩
  · simp [State.finishWritten]
  · rw [State.us, State.finishWritten, State.fld_setFld_ne _ _ _ _ _ _ (by decide), ← State.us, State.us_atUs, Nat.mod_eq_of_lt hus]
  · simp [State.finishWritten]

/-- The first finish of the stroke, with its time. -/
def State.firstFinish (s : State) (us : Nat) : State := { s.finishWritten us with stk := { s.stk with finWritten := true, finUs := some us } }

theorem State.camlanOn_of_regs {s t : State} {l : List Nat} (hpower : t.power = s.power) (hregs : RegsBut s t l) (hdbg : Reg.DBG_STAT ∉ l) : t.camlanOn = s.camlanOn :=
  State.camlanOn_congr hpower (hregs _ hdbg)

theorem State.finishWritten_point (s : State) (us percent : Nat) : (s.finishWritten us).point percent = s.point percent := by
  rw [State.point, State.point, State.period, State.period, State.finishWritten, State.fld_setFld_ne _ _ _ _ _ _ (by decide), State.fld_atUs_ne _ _ _ _ (by decide)]

section
variable {s : State} {us : Nat} (hrows : s.rows = true)
include hrows

theorem doFinish_again (hwritten : s.stk.finWritten = true) : doFinish s us = s.finishWritten us := by
  rw [doFinish, hrows]
  exact if_pos hwritten

theorem doFinish_first (hwritten : s.stk.finWritten = false) : doFinish s us =
    let u := if (s.finishWritten us).cleanAt us then (s.firstFinish us).cleanFinish else s.firstFinish us
    if u.camlanOn then u.camlanFinish ((s.finishWritten us).cleanAt us) else u := by
  have hwritten' : (s.finishWritten us).stk.finWritten = false := hwritten
  have hfold : (s.atUs us).setFld Reg.RST_STALL 0 6 0 = s.finishWritten us := rfl
  rw [doFinish, hrows, Bool.not_true, if_neg Bool.false_ne_true, hfold]
  dsimp only
  rw [hwritten', if_neg Bool.false_ne_true]
  rfl

end

theorem State.cleanFinish_shows (s : State) :
    s.cleanFinish.bit Reg.STK_STAT 0 = true ∧ s.cleanFinish.fld Reg.STK_STAT 4 2 = 0 ∧ RegsBut s s.cleanFinish [Reg.STK_STAT] := by
  refine ⟨?_, ?_, ?_⟩
  · rw [State.cleanFinish, State.bit_mk, State.bit_setFld_other _ _ (by decide) (by decide), State.bit_setBit_self _ _ (by decide)]
  · rw [State.cleanFinish, State.fld_mk, State.fld_setFld_self _ _ (by decide)]
    rfl
  · simp [State.cleanFinish]

theorem finishDecidesTheStroke_holds : finishDecidesTheStroke := by
  refine ⟨fun s us hrows hus hfirst hcrab htime => ?_, fun s us hrows hus hfirst htime => ?_, fun s us hrows hus hwritten => Does.intro _ rfl ?_⟩
  · obtain ⟨hstall, hat, hregs⟩ := s.finishWritten_shows us hus
    obtain ⟨hclean, hcrabs, hshown⟩ := (s.firstFinish us).cleanFinish_shows
    have hall : RegsBut s (s.firstFinish us).cleanFinish [Reg.STK_PHASE, Reg.RST_STALL, Reg.STK_STAT] :=
      ((RegsBut.mk_iff.mpr hregs).mono (by simp +contextual)).trans (hshown.mono (by simp +contextual))
    have hfine : (s.finishWritten us).cleanAt us = true := by
      have hkept : (s.finishWritten us).stk.crabbed = false := hcrab
      rw [State.cleanAt, State.finishWritten_point, hkept]
      simpa using htime
    refine ⟨(s.firstFinish us).cleanFinish, congrArg Host.Outcome.next ?_, ?_, hclean, hcrabs, ?_, rfl, rfl, rfl, hall, SameMem.of_mem rfl⟩
    · have hon : (s.firstFinish us).cleanFinish.camlanOn = s.camlanOn := State.camlanOn_of_regs rfl hall (by decide)
      rw [doFinish_first hrows hfirst, hfine, if_pos rfl]
      dsimp only
      rw [hon]
    · rw [State.fld_of_rd (hshown _ (by decide)), State.firstFinish, State.fld_mk, hstall]
    · rw [State.us, State.fld_of_rd (hshown _ (by decide)), State.firstFinish, State.fld_mk, ← State.us, hat]
  · obtain ⟨hstall, hat, hregs⟩ := s.finishWritten_shows us hus
    have hlate : (s.finishWritten us).cleanAt us = false := by
      rw [State.cleanAt, State.finishWritten_point]
      simp [Nat.not_le.mpr htime]
    refine ⟨s.firstFinish us, congrArg Host.Outcome.next ?_, ?_, rfl, rfl, RegsBut.mk_iff.mpr hregs, SameMem.of_mem rfl⟩
    · have hon : (s.firstFinish us).camlanOn = s.camlanOn := State.camlanOn_of_regs rfl (RegsBut.mk_iff.mpr hregs) (by decide)
      rw [doFinish_first hrows hfirst, hlate, if_neg Bool.false_ne_true]
      dsimp only
      rw [hon]
    · rw [State.firstFinish, State.fld_mk, hstall]
  · obtain ⟨hstall, hat, hregs⟩ := s.finishWritten_shows us hus
    rw [doFinish_again hrows hwritten]
    exact ⟨hstall, hat, hregs, SameMem.of_mem rfl, rfl⟩

/-! The crab (R31, R53, R54) -/

theorem satAdd_one (n max : Nat) (h : n ≤ max) : satAdd n max 1 = min (n + 1) max := by
  unfold satAdd
  split <;> omega

/-- A crab as the registers count it: CRAB, the run of crabs and the counter, and EASYREQ at the second of a run. -/
def State.crabCounted (s : State) : State :=
  let t := ((s.setBit Reg.STK_STAT 1 true).setFld Reg.STK_STAT 4 2 (satAdd (s.fld Reg.STK_STAT 4 2) 3 1)).incSat Reg.STK_CRABCNT 0 16 1
  if satAdd (s.fld Reg.STK_STAT 4 2) 3 1 = 2 then t.setBit Reg.STK_STAT 8 true else t

theorem State.crabCounted_regs (s : State) : RegsBut s s.crabCounted [Reg.STK_STAT, Reg.STK_CRABCNT] := by
  unfold State.crabCounted
  dsimp only
  split <;> simp

theorem State.crabCounted_eq (s : State) : s.crabCounted = { s with regs := s.crabCounted.regs } := by
  unfold State.crabCounted
  dsimp only
  split <;> rfl

theorem State.crabCounted_shows (s : State) :
    s.crabCounted.bit Reg.STK_STAT 1 = true ∧ s.crabCounted.fld Reg.STK_STAT 4 2 = min (s.fld Reg.STK_STAT 4 2 + 1) 3
      ∧ s.crabCounted.fld Reg.STK_CRABCNT 0 16 = min (s.fld Reg.STK_CRABCNT 0 16 + 1) 0xFFFF
      ∧ (s.fld Reg.STK_STAT 4 2 = 1 → s.crabCounted.bit Reg.STK_STAT 8 = true) := by
  have hrun : s.fld Reg.STK_STAT 4 2 < 4 := getField_lt _ _ _
  have hcount := satAdd_one (s.fld Reg.STK_STAT 4 2) 3 (by omega)
  have hfit : satAdd (s.fld Reg.STK_STAT 4 2) 3 1 % 2 ^ 2 = min (s.fld Reg.STK_STAT 4 2 + 1) 3 := by rw [hcount]; omega
  unfold State.crabCounted
  dsimp only
  split
  · refine ⟨?_, ?_, ?_, fun _ => ?_⟩
    · simp
    · simp [← hfit]
    · simp
    · simp
  · next h =>
    refine ⟨?_, ?_, ?_, fun h1 => absurd (hcount.trans (by rw [h1]; rfl)) h⟩
    · simp
    · simp [← hfit]
    · simp

theorem State.crab_eq (s : State) : s.crab = { s.crabCounted with
    stk := { s.stk with permit := false, crabbed := true },
    cam := { s.cam with state := if s.camlanOn && decide (s.cam.state = .run) then .crab1 else s.cam.state, quietSince := none } } := by
  have hcam : s.crabCounted.cam = s.cam := (congrArg State.cam s.crabCounted_eq :)
  have hstk : s.crabCounted.stk = s.stk := (congrArg State.stk s.crabCounted_eq :)
  have hon : s.crabCounted.camlanOn = s.camlanOn := State.camlanOn_of_regs (congrArg State.power s.crabCounted_eq :) s.crabCounted_regs (by decide)
  change ({ s.crabCounted with
    stk := { s.crabCounted.stk with permit := false, crabbed := true },
    cam := { s.crabCounted.cam with
      state := if s.crabCounted.camlanOn && decide (s.crabCounted.cam.state = CamState.run) then .crab1 else s.crabCounted.cam.state, quietSince := none } } : State) = _
  rw [hcam, hstk, hon]

theorem crabIsCountedOnce_holds : crabIsCountedOnce := by
  refine ⟨fun s hrows hopen hfirst => Does.intro _ rfl ?_, fun s h => congrArg Host.Outcome.next (if_neg ?_)⟩
  · have harm : doCoxCrab s = s.crab := if_pos (by simp [hrows, hopen, hfirst])
    obtain ⟨hcrab, hrun, hcount, heasy⟩ := s.crabCounted_shows
    have hregs := s.crabCounted_regs
    have hrest := s.crabCounted_eq
    rw [harm, State.crab_eq]
    generalize s.crabCounted = u at *
    refine ⟨hcrab, hrun, hcount, heasy, rfl, rfl, RegsBut.mk_iff.mpr hregs, SameMem.of_mem (congrArg State.mem hrest :), ?_⟩
    rw [hrest]
  · obtain h | h := h <;> simp [h]

theorem State.frame_leave {s t : State} {c : CamSt} (h : t = { ({ s with cam := c } : State) with regs := t.regs, log := t.log, con0 := t.con0, con1 := t.con1 }) :
    t = { s with regs := t.regs, cam := t.cam, log := t.log, con0 := t.con0, con1 := t.con1 } := by
  rw [h]

theorem State.leaveEasy_shows (s : State) (how : Nat) : let t := s.leaveEasy how
    t.cam = { s.cam with state := if s.cam.state = .stake then .stake else .run, easyCauses := [], quietSince := none } ∧ RegsBut s t (logRegs 0) ∧ t.mem = s.mem
      ∧ t = { s with regs := t.regs, cam := t.cam, log := t.log, con0 := t.con0, con1 := t.con1 } := by
  dsimp only
  rw [State.leaveEasy]
  obtain ⟨hcam, hregs, hmem, hframe⟩ := State.logNotice_shows
    { s with cam := { s.cam with state := if s.cam.state = CamState.stake then .stake else .run, easyCauses := [], quietSince := none } } 0x0203 (u8 how) "easy left"
  exact ⟨hcam, RegsBut.source hregs rfl, hmem, State.frame_leave hframe⟩

theorem doEasyAutoclear_left {s : State} {q : Nat} (hstate : s.cam.state = .easy) (hcauses : ∀ c ∈ s.cam.easyCauses, c = 1) (hquiet : s.cam.quietSince = some q)
    (hon : s.parI .easyAutoclear ≠ 0) (hdue : q + s.parI .easyAutoclear * 1000000 ≤ s.clock)
    (hrest : (within s.clock hours24 s.cam.autoclears).length < s.parI .easyAutoclearMax) :
    doEasyAutoclear s = { s.leaveEasy 1 with cam := { (s.leaveEasy 1).cam with autoclears := within s.clock hours24 s.cam.autoclears ++ [s.clock] } } := by
  have hin : s.inEasy = true := by simp [State.inEasy, hstate]
  obtain ⟨-, hregs, -, hframe⟩ := s.leaveEasy_shows 1
  have hclock : (s.leaveEasy 1).clock = s.clock := by
    rw [State.clock, State.clock, State.us, State.us, State.fld_of_rd (hregs Reg.STK_PHASE (by decide)), (congrArg State.ao hframe :)]
  unfold doEasyAutoclear
  dsimp only
  rw [hquiet, hin, hclock, if_pos]
  simpa [hdue, hon, hrest] using hcauses

theorem doEasyAutoclear_stays {s : State} (h : s.inEasy = false ∨ (∃ c ∈ s.cam.easyCauses, c ≠ 1) ∨ s.parI .easyAutoclear = 0) : doEasyAutoclear s = s := by
  unfold doEasyAutoclear
  dsimp only
  rw [if_neg]
  obtain h | ⟨c, hc, hne⟩ | h := h
  · simp [h]
  · have hall : s.cam.easyCauses.all (fun c => decide (c = 1)) = false := List.all_eq_false.mpr ⟨c, hc, by simpa using hne⟩
    simp [hall]
  · simp [h]

/-- The times of the autoclears noted. -/
def State.autocleared (s : State) (times : List Nat) : State := { s with cam := { s.cam with autoclears := times } }

theorem State.autocleared_shows {s u : State} (hstate : s.cam.state = .easy) (times : List Nat)
    (hcam : u.cam = { s.cam with state := if s.cam.state = .stake then .stake else .run, easyCauses := [], quietSince := none }) (hregs : RegsBut s u (logRegs 0))
    (hmem : u.mem = s.mem) (hframe : u = { s with regs := u.regs, cam := u.cam, log := u.log, con0 := u.con0, con1 := u.con1 }) :
    (u.autocleared times).cam.state = .run ∧ (u.autocleared times).cam.easyCauses = [] ∧ (u.autocleared times).cam.autoclears = times
      ∧ RegsBut s (u.autocleared times) (logRegs 0) ∧ SameMem s (u.autocleared times)
      ∧ u.autocleared times = { s with
        regs := (u.autocleared times).regs, cam := (u.autocleared times).cam, log := (u.autocleared times).log, con0 := (u.autocleared times).con0,
        con1 := (u.autocleared times).con1 } := by
  refine ⟨?_, ?_, rfl, RegsBut.mk_iff.mpr hregs, SameMem.of_mem hmem, ?_⟩
  · rw [State.autocleared, hcam, hstate]
    rfl
  · rw [State.autocleared, hcam]
  · rw [State.autocleared, hframe]

theorem easyClearsItselfAfterCrabs_holds : easyClearsItselfAfterCrabs := by
  refine ⟨fun s q hstate hcauses hquiet hon hdue hrest => Does.intro _ rfl ?_, fun s h => congrArg Host.Outcome.next (doEasyAutoclear_stays h)⟩
  have harm : doEasyAutoclear s = (s.leaveEasy 1).autocleared (within s.clock hours24 s.cam.autoclears ++ [s.clock]) :=
    doEasyAutoclear_left hstate hcauses hquiet hon hdue hrest
  obtain ⟨hcam, hregs, hmem, hframe⟩ := s.leaveEasy_shows 1
  rw [harm]
  exact State.autocleared_shows hstate _ hcam hregs hmem hframe

/-- Settles O12: the first finish decides the stroke, a crab is counted once, and an easy of crabs alone clears itself. -/
theorem finishCrabAndEasy : Obligations.FinishCrabAndEasy := ⟨finishDecidesTheStroke_holds, crabIsCountedOnce_holds, easyClearsItselfAfterCrabs_holds⟩

/-! The catch and the watch (R27 to R37, R53) -/

theorem RegsBut.crab (s : State) : RegsBut s s.crab [Reg.STK_STAT, Reg.STK_CRABCNT] := by
  rw [State.crab_eq]
  exact RegsBut.mk_iff.mpr s.crabCounted_regs

/-- The stroke that ends is a crab where no finish made it clean. -/
theorem State.endStroke_shows {s : State} (hstarted : s.stk.started = true) :
    s.endStroke.stk = { s.stk with crabbed := !s.bit Reg.STK_STAT 0 || s.stk.crabbed, permit := s.endStroke.stk.permit }
      ∧ RegsBut s s.endStroke [Reg.STK_STAT, Reg.STK_CRABCNT, Reg.RST_STALL] := by
  have hstall : ∀ u : State, RegsBut s u [Reg.STK_STAT, Reg.STK_CRABCNT] →
      RegsBut s (if u.stk.finWritten then u else u.incSat Reg.RST_STALL 0 6 1) [Reg.STK_STAT, Reg.STK_CRABCNT, Reg.RST_STALL] := fun u hu => by
    have hmore := hu.mono (m := [Reg.STK_STAT, Reg.STK_CRABCNT, Reg.RST_STALL]) (by simp)
    split
    · exact hmore
    · exact (RegsBut.incSat_iff _ _ _ (by simp)).mpr hmore
  have hstk : ∀ u : State, (if u.stk.finWritten then u else u.incSat Reg.RST_STALL 0 6 1).stk = u.stk := fun u => by split <;> rfl
  unfold State.endStroke
  rw [hstarted]
  dsimp only
  rw [Bool.not_true, if_neg Bool.false_ne_true, hstk]
  by_cases hdone : (s.bit Reg.STK_STAT 0 || s.stk.crabbed) = true
  · rw [if_pos hdone]
    refine ⟨?_, hstall s (RegsBut.refl _ _)⟩
    have hsame : (!s.bit Reg.STK_STAT 0 || s.stk.crabbed) = s.stk.crabbed := by
      cases h : s.bit Reg.STK_STAT 0
      · rw [h, Bool.false_or] at hdone
        rw [hdone]
        rfl
      · rfl
    rw [hsame]
  · rw [if_neg hdone]
    refine ⟨?_, hstall _ (RegsBut.crab s)⟩
    have hopen : s.bit Reg.STK_STAT 0 = false := by
      cases h : s.bit Reg.STK_STAT 0
      · rfl
      · rw [h] at hdone
        exact absurd rfl hdone
    rw [hopen, State.crab_eq]
    rfl

/-- The registers of a catch, once their new values are known. -/
def State.catchRegs (e : State) (num hph wph : Nat) : State :=
  let t := ((e.wrN Reg.STK_NUM num).setFld Reg.STK_POS 0 4 hph).setFld Reg.STK_POS 16 9 wph
  (((t.setFld Reg.STK_TRIM 0 8 0).atUs 0).setBit Reg.STK_IRQ 0 true).setBit Reg.STK_STAT 0 false

theorem State.catchRegs_shows (e : State) (num hph wph : Nat) : let t := e.catchRegs num hph wph
    t.strokeNo = num % 2 ^ 32 ∧ t.us = 0 ∧ t.fld Reg.STK_POS 0 4 = hph % 16 ∧ t.fld Reg.STK_POS 16 9 = wph % 512 ∧ t.bit Reg.STK_IRQ 0 = true
      ∧ t.bit Reg.STK_STAT 0 = false := by
  refine ⟨?_, ?_, ?_, ?_, ?_, ?_⟩
  · simp [State.catchRegs, State.strokeNo]
  · rw [State.us, State.catchRegs, State.fld_setBit_ne _ _ _ _ _ (by decide), State.fld_setBit_ne _ _ _ _ _ (by decide), ← State.us, State.us_atUs, Nat.zero_mod]
  · simp [State.catchRegs]
  · simp [State.catchRegs]
  · simp [State.catchRegs]
  · simp [State.catchRegs]

theorem State.watchLen_bounds (s : State) : 0 < s.watchLen ∧ s.watchLen ≤ 512 := by
  have hsel : s.fld Reg.STK_CTRL 0 2 < 4 := getField_lt _ _ _
  unfold State.watchLen
  interval_cases s.fld Reg.STK_CTRL 0 2 <;> decide

/-- The new stroke's times and position, from the stroke that has ended (R27, R28, R34, R35, R37). -/
theorem State.catchTime_shows (e : State) (hstarted : e.stk.started = true) : let t := e.catchTime
    t.strokeNo = (e.strokeNo + 1) % 2 ^ 32 ∧ t.us = 0 ∧ t.now = (e.stk.base + ((e.period : Int) + e.stk.trimNow).toNat) % 2 ^ 48
      ∧ t.fld Reg.STK_POS 0 4 = (if e.stk.hrestart && !e.stk.crabbed then 0 else (e.fld Reg.STK_POS 0 4 + 1) % e.heat % 16)
      ∧ t.fld Reg.STK_POS 16 9 = (e.fld Reg.STK_POS 16 9 + 1) % e.watchLen ∧ t.bit Reg.STK_IRQ 0 = true ∧ t.bit Reg.STK_STAT 0 = false
      ∧ t.stk.trimNow = (if e.stk.crabbed then 0 else signed 8 (e.fld Reg.STK_TRIM 0 8)) ∧ t.stk.finWritten = false ∧ t.stk.crabbed = false
      ∧ t.stk.prevCrab = e.stk.crabbed := by
  have hregs : e.catchTime.regs = (e.catchRegs ((e.strokeNo + 1) % 2 ^ 32) (if e.stk.hrestart && !e.stk.crabbed then 0 else (e.fld Reg.STK_POS 0 4 + 1) % e.heat)
      ((e.fld Reg.STK_POS 16 9 + 1) % e.watchLen)).regs := by
    unfold State.catchTime
    rw [hstarted]
    rfl
  have hbase : e.catchTime.stk.base = (e.stk.base + ((e.period : Int) + e.stk.trimNow).toNat) % 2 ^ 48 := by
    unfold State.catchTime
    rw [hstarted]
    rfl
  obtain ⟨hnum, hus, hhph, hwph, hirq, hstat⟩ := e.catchRegs_shows ((e.strokeNo + 1) % 2 ^ 32)
    (if e.stk.hrestart && !e.stk.crabbed then 0 else (e.fld Reg.STK_POS 0 4 + 1) % e.heat) ((e.fld Reg.STK_POS 16 9 + 1) % e.watchLen)
  have hzero : e.catchTime.us = 0 := (State.us_of_regs hregs).trans hus
  refine ⟨?_, hzero, ?_, ?_, ?_, (State.bit_of_regs hregs _ _).trans hirq, (State.bit_of_regs hregs _ _).trans hstat, rfl, rfl, rfl, rfl⟩
  · exact (State.rdN_of_regs hregs _).trans (hnum.trans (Nat.mod_mod _ _))
  · rw [State.now, hzero, hbase, Nat.add_zero, Nat.mod_mod]
  · refine (State.fld_of_regs hregs _ _ _).trans (hhph.trans ?_)
    split <;> rfl
  · exact (State.fld_of_regs hregs _ _ _).trans (hwph.trans (Nat.mod_eq_of_lt (Nat.lt_of_lt_of_le (Nat.mod_lt _ e.watchLen_bounds.1) e.watchLen_bounds.2)))

/-- The first catch: every time and position 0. -/
theorem State.catchTime_first (e : State) (hfirst : e.stk.started = false) : let t := e.catchTime
    t.strokeNo = 0 ∧ t.now = 0 ∧ t.fld Reg.STK_POS 0 4 = 0 ∧ t.fld Reg.STK_POS 16 9 = 0 ∧ t.stk.started = true := by
  have hregs : e.catchTime.regs = (e.catchRegs 0 0 0).regs := by
    unfold State.catchTime
    rw [hfirst]
    rfl
  have hbase : e.catchTime.stk.base = 0 := by
    unfold State.catchTime
    rw [hfirst]
    rfl
  obtain ⟨hnum, hus, hhph, hwph, -, -⟩ := e.catchRegs_shows 0 0 0
  have hzero : e.catchTime.us = 0 := (State.us_of_regs hregs).trans hus
  refine ⟨(State.rdN_of_regs hregs _).trans hnum, ?_, (State.fld_of_regs hregs _ _ _).trans hhph, (State.fld_of_regs hregs _ _ _).trans hwph, rfl⟩
  rw [State.now, hzero, hbase, Nat.add_zero, Nat.zero_mod]

/-- What the hardware has done at a catch when Camlan begins. -/
def State.hardwareDone (s : State) (inp : CatchIn) (first : Bool) : State := ((s.endStroke.catchTime.catchBank inp.fb).catchSense inp).hardwareCatch first

theorem doCatch_eq {s : State} (inp : CatchIn) {first : Bool} (hon : s.powered = true) (hrun : s.running = true) (hfirst : s.stk.started = !first) : doCatch s inp =
    if (s.hardwareDone inp first).camlanOn then (s.hardwareDone inp first).camlanCatch first s.ctr.skip s.strokeNo s.stk.finUs inp else s.hardwareDone inp first := by
  unfold doCatch State.hardwareDone
  rw [hon, hrun, hfirst, Bool.not_not, if_neg (by decide)]

theorem doWatch_begins {s : State} (hrows : s.rows = true) (hpos : s.fld Reg.STK_POS 16 9 = 0) (hus : s.us = 0) : doWatch s =
    let v := (s.setBit Reg.STK_IRQ 4 true).canWatch.chop.swapBanks.chargeWatch.logWatch
    if v.camlanOn then v.chainWatch.hopWatch.camlanWatch else v := by
  rw [doWatch, if_neg (by simp [hrows, hpos, hus])]

/-- Settles O11: a catch advances the stroke's number, times and positions, and a watch begins where the position is 0. -/
theorem catchAdvancesTheStroke : Obligations.CatchAdvancesTheStroke := by
  refine ⟨fun s inp hon hrun hstarted => ?_, fun s inp hon hrun hfirst => ?_, fun s hrows hpos hus => ?_⟩
  · obtain ⟨hstk, hregs⟩ := State.endStroke_shows hstarted
    have hctrl := hregs Reg.STK_CTRL (by decide)
    have hposn := hregs Reg.STK_POS (by decide)
    obtain ⟨hnum, hat, hnow, hhph, hwph, hirq, hstat, htrim, hfin, hcrab, hprev⟩ := s.endStroke.catchTime_shows (by rw [hstk]; exact hstarted)
    refine ⟨s.endStroke.catchTime, s.hardwareDone inp false, congrArg Host.Outcome.next (doCatch_eq inp hon hrun hstarted), rfl, ?_, hat, ?_, ?_, ?_, hirq, hstat, ?_, hfin, hcrab, ?_⟩
    · rw [hnum, State.strokeNo, State.strokeNo, State.rdN_of_rd (hregs Reg.STK_NUM (by decide))]
    · rw [hnow, hstk, State.period, State.period, State.fld_of_rd hctrl]
    · rw [hhph, hstk, State.fld_of_rd hposn, State.heat, State.heat, State.fld_of_rd hctrl]
      cases s.bit Reg.STK_STAT 0 <;> simp
    · rw [hwph, State.fld_of_rd hposn, State.watchLen, State.watchLen, State.fld_of_rd hctrl]
    · rw [htrim, hstk, State.fld_of_rd (hregs Reg.STK_TRIM (by decide))]
      cases s.bit Reg.STK_STAT 0 <;> cases s.stk.crabbed <;> rfl
    · rw [hprev, hstk]
  · have hend : s.endStroke = s := if_pos (by rw [hfirst]; rfl)
    refine ⟨s.endStroke.catchTime, s.hardwareDone inp true, congrArg Host.Outcome.next (doCatch_eq inp hon hrun hfirst), rfl, ?_⟩
    rw [hend]
    exact s.catchTime_first hfirst
  · exact ⟨s.setBit Reg.STK_IRQ 4 true, _, congrArg Host.Outcome.next (doWatch_begins hrows hpos hus), rfl, State.bit_setBit_self _ _ (by decide), by simp,
      SameMem.of_mem rfl, rfl⟩

end Sys2Proof.Machine
end

section
/-!
PROOFS. The resolution of an order set (R29, R51, R52). It settles O15.
-/

namespace Sys2Proof.Machine

/-! Stamps in a ring

A stamp precedes another where the difference modulo 2^48 is below 2^47 (R29), which is no order: of three stamps 3/8 of 2^48 apart each precedes the next. -/

/-- An order of a source to open string 0, stamped at a time. -/
def openAt (source stamp : Nat) : Order := ⟨source, 3, kOpen, 0, 0, 0, stamp, 0, false, .camlan⟩

/-- Three orders of one rank, each stamped before the next and the last before the first. -/
def ringOfStamps : List Placed := [(0, openAt 0x10 0), (1, openAt 0x11 (3 * 2 ^ 45)), (2, openAt 0x12 (6 * 2 ^ 45))]

/-- Refutes O15: of three orders to open string 0 whose stamps precede one another in a ring the first wins, and the third, as protective, beats it. -/
theorem not_ordersAreResolvedInFiveSteps : ¬ Obligations.OrdersAreResolvedInFiveSteps := by
  unfold Obligations.OrdersAreResolvedInFiveSteps
  intro h
  obtain ⟨-, -, -, -, hwinner, -⟩ := h
  obtain ⟨-, -, hunbeaten⟩ := hwinner State.reset [] ringOfStamps 0 (0, openAt 0x10 0) (by decide)
  obtain ⟨-, hbeaten⟩ := hunbeaten (2, openAt 0x12 (6 * 2 ^ 45)) (by decide) (by decide)
  exact absurd (hbeaten (by decide)).1 (by decide)

end Sys2Proof.Machine
end

section
/-!
PROOFS. The monitor of the Sculls (R82, R83): contexts, monitor calls and the delivery of events. They settle O18.
-/

namespace Sys2Proof.Machine

/-! Contexts, partitions and Sculls -/

@[simp] theorem State.ctx_setCtx (s : State) (sc k : Nat) (c : Ctx) : (s.setCtx sc k c).ctx sc k = c := Tab.get_put_self ..

@[simp] theorem State.part_setPart (s : State) (k : Nat) (p : PartSt) : (s.setPart k p).part k = p := Tab.get_put_self ..

theorem State.part_of_parts {s t : State} (h : t.parts = s.parts) (k : Nat) : t.part k = s.part k := by rw [State.part, State.part, h]

theorem State.part_setPart_ne (s : State) {j k : Nat} (p : PartSt) (h : k ≠ j) : (s.setPart k p).part j = s.part j := Tab.get_put_ne _ _ _ _ h

@[simp] theorem State.scull_setScull (s : State) (sc : Nat) (x : ScullSt) : (s.setScull sc x).scull sc = x := Tab.get_put_self ..

/-- A call returns to its context; beside it only the listed registers changed. -/
theorem callFrame_setCtx {s u : State} {l : List Nat} (sc k : Nat) (c : Ctx) (hregs : RegsBut s u l) (hmem : u.mem = s.mem) (hctxs : u.ctxs = s.ctxs) :
    callFrame s (u.setCtx sc k c) sc k l := by
  refine ⟨RegsBut.mk_iff.mpr hregs, SameMem.of_mem hmem, fun i hi => ?_⟩
  rw [State.setCtx, hctxs]
  exact Tab.get_put_ne _ _ _ _ (Ne.symm hi)

theorem State.caller_bounds {s : State} {sc k : Nat} (h : s.caller sc = some k) : 1 ≤ k ∧ k ≤ 7 := by
  unfold State.caller at h
  dsimp only at h
  split at h
  · next hcond =>
    obtain ⟨-, hlo, hhi, -⟩ := hcond
    cases h
    exact ⟨hlo, hhi⟩
  · cases h

/-- The pending events of a partition, bit by bit. -/
theorem State.testBit_evp (s : State) (k : Nat) {b : Nat} (hb : b < 12) : (s.evp k).testBit b = s.bit (Reg.PART_EVP (k - 1)) b := by
  rw [State.evp, State.fld, getField, pow_zero, Nat.div_one, Nat.testBit_mod_two_pow, decide_eq_true hb, Bool.true_and, State.bit_eq_testBit]

/-- Events taken of those pending. -/
theorem State.bit_clrReg_evp (s : State) (k mask : Nat) {b : Nat} (hb : b < 12) :
    (s.clrReg (Reg.PART_EVP (k - 1)) (s.evp k &&& mask)).bit (Reg.PART_EVP (k - 1)) b = (s.bit (Reg.PART_EVP (k - 1)) b && !mask.testBit b) := by
  rw [State.bit_clrReg, Nat.testBit_and, State.testBit_evp s k hb]
  cases s.bit (Reg.PART_EVP (k - 1)) b <;> rfl

/-- A Scull shown in SCULLST: its register alone changes. -/
theorem State.showScull_onlyRegs (s : State) (sc : Nat) : OnlyRegs s (s.showScull sc) [Reg.PART_SCULLST] := by
  refine ⟨?_, SameMem.of_mem rfl, rfl⟩
  simp [State.showScull]

@[simp] theorem State.scull_showScull (s : State) (sc i : Nat) : (s.showScull sc).scull i = s.scull i := by simp [State.scull, State.showScull]

@[simp] theorem State.ctx_showScull (s : State) (sc i k : Nat) : (s.showScull sc).ctx i k = s.ctx i k := by simp [State.ctx, State.showScull]

theorem partState_ne_scullst (k : Nat) : Reg.PART_STATE k ≠ Reg.PART_SCULLST := by
  unfold Reg.PART_STATE Reg.PART_SCULLST
  omega

/-- A context that has yielded. -/
def State.yieldedBy (s : State) (sc k : Nat) : State :=
  ((s.setScull sc { s.scull sc with yielded := true }).setFld (Reg.PART_STATE (k - 1)) 16 2 0).setCtx sc k { s.ctx sc k with a0 := 0 }

theorem doMonitorYield_eq {s : State} {sc k : Nat} (hcall : s.caller sc = some k) : doMonitorYield s sc = (s.yieldedBy sc k).showScull sc := by
  rw [doMonitorYield, hcall]
  rfl

theorem State.yieldedBy_shows (s : State) (sc k : Nat) : let t := (s.yieldedBy sc k).showScull sc
    (t.scull sc).yielded = true ∧ t.crabs k = 0 ∧ (t.ctx sc k).a0 = 0 ∧ callFrame s t sc k [Reg.PART_STATE (k - 1), Reg.PART_SCULLST]
      ∧ t = { s with regs := t.regs, sculls := t.sculls, ctxs := t.ctxs } := by
  obtain ⟨hregs, hmem, hrest⟩ := (s.yieldedBy sc k).showScull_onlyRegs sc
  have hcalled : callFrame s (s.yieldedBy sc k) sc k [Reg.PART_STATE (k - 1), Reg.PART_SCULLST] := callFrame_setCtx _ _ _ (by simp [State.setScull]) rfl rfl
  obtain ⟨hcregs, hcmem, hctxs⟩ := hcalled
  refine ⟨?_, ?_, ?_, ⟨hcregs.trans (hregs.mono (by simp)), fun a => (hmem a).trans (hcmem a), hctxs⟩, rfl⟩
  · have hscull : (s.yieldedBy sc k).scull sc = { s.scull sc with yielded := true } := State.scull_setScull ..
    rw [State.scull_showScull, hscull]
  · rw [State.crabs, State.fld_of_rd (hregs _ (by simp [partState_ne_scullst])), State.yieldedBy, State.setCtx, State.fld_mk, State.fld_setFld_self _ _ (by decide), Nat.zero_mod]
  · have hctx : (s.yieldedBy sc k).ctx sc k = { s.ctx sc k with a0 := 0 } := State.ctx_setCtx ..
    rw [State.ctx_showScull, hctx]

theorem monitorCallsYieldWaitInfo_holds : monitorCallsYieldWaitInfo := by
  refine ⟨fun s sc k hcall hsc => Does.intro _ rfl ?_, fun s sc k mask hcall hgot => Does.intro _ rfl ?_, fun s sc k mask hcall hnone => Does.intro _ rfl ?_,
    fun s sc k us hcall => Does.intro _ rfl ?_, fun s sc k call hcall h6 => Does.intro _ rfl ?_⟩
  · rw [doMonitorYield_eq hcall]
    exact s.yieldedBy_shows sc k
  · have harm : doMonitorWait s sc mask =
        (s.clrReg (Reg.PART_EVP (k - 1)) (s.evp k &&& mask)).setCtx sc k { s.ctx sc k with a0 := ((s.evp k &&& mask : Nat) : Int) } := by
      rw [doMonitorWait, hcall]
      exact if_neg hgot
    rw [harm]
    refine ⟨?_, fun b hb => ?_, callFrame_setCtx _ _ _ (by simp) rfl rfl, rfl⟩
    · rw [State.ctx_setCtx]
    · exact s.bit_clrReg_evp k mask hb
  · have harm : doMonitorWait s sc mask = s.setCtx sc k { s.ctx sc k with wait := some mask } := by
      rw [doMonitorWait, hcall]
      exact if_pos hnone
    rw [harm]
    refine ⟨?_, callFrame_setCtx _ _ _ (RegsBut.refl _ _) rfl rfl, rfl⟩
    rw [State.ctx_setCtx]
  · have harm : doMonitorInfo s sc us = s.setCtx sc k { s.ctx sc k with
        a0 := (sc : Int), a1 := (s.scull sc).slot.getD 0, a2 := s.strokeNo, a3 := (s.scull sc).start + (s.scull sc).len - us } := by
      rw [doMonitorInfo, hcall]
    rw [harm]
    refine ⟨?_, ?_, ?_, ?_, callFrame_setCtx _ _ _ (RegsBut.refl _ _) rfl rfl, rfl⟩ <;> rw [State.ctx_setCtx]
  · have harm : doMonitorUnknownCall s sc call = s.setCtx sc k { s.ctx sc k with a0 := -1 } := by
      rw [doMonitorUnknownCall, hcall]
      exact if_pos h6
    rw [harm]
    refine ⟨?_, callFrame_setCtx _ _ _ (RegsBut.refl _ _) rfl rfl, rfl⟩
    rw [State.ctx_setCtx]

/-! SETVEC, EVRET and LOG -/

theorem RegsBut.submit (s : State) (b c src sev : Nat) (m : List Byte) : RegsBut s (s.submit (s.unitOf b c src sev m)).2 (logRegs b) := by
  obtain ⟨r, l, hunit, hbook⟩ : ∃ r l, s.unitOf b c src sev m = r :: l ∧ r.book = b := by
    unfold State.unitOf
    dsimp only
    split
    · exact ⟨_, _, rfl, rfl⟩
    · exact ⟨_, _, rfl, rfl⟩
  exact fun a ha => State.rd_submit s _ r l hunit (by rwa [hbook])

/-- The interrupted context back from its handler. -/
def Ctx.returned (c : Ctx) : Ctx := { c with inHandler := false, a0 := c.saved, a1 := c.saved1, a2 := c.saved2, a3 := c.saved3, wait := c.savedWait }

theorem doMonitorLog_submits {s : State} {sc k code sev a2 a3 : Nat} (hcall : s.caller sc = some k) (hlo : 0x8000 ≤ code) (hhi : code ≤ 0xFFFE)
    (hgrant : s.granted k .misc 4 = true) : doMonitorLog s sc code sev a2 a3 =
      let r := s.submit (s.unitOf (1 + k) code (0x20 + k) (min 3 sev + 32) (u32 a2 ++ u32 a3))
      r.2.setCtx sc k { r.2.ctx sc k with a0 := if r.1 = subQueued ∨ r.1 = subSuppressed then 0 else -3 } := by
  rw [doMonitorLog, hcall]
  dsimp only
  rw [if_neg (by omega), if_neg (by simp [hgrant])]

/-- What a call returns that has submitted a record. -/
theorem State.submitted_shows {s u : State} {l : List Nat} (sc k res : Nat) (hframe : LogFrame s u) (hregs : RegsBut s u l) :
    let t := u.setCtx sc k { u.ctx sc k with a0 := if res = subQueued ∨ res = subSuppressed then 0 else -3 }
    t.log = u.log ∧ (t.ctx sc k).a0 = (if res ≤ 1 then 0 else -3) ∧ callFrame s t sc k l ∧ t = { s with regs := t.regs, log := t.log, ctxs := t.ctxs } := by
  have hres : (res = subQueued ∨ res = subSuppressed) ↔ res ≤ 1 := by
    unfold subQueued subSuppressed
    omega
  refine ⟨rfl, ?_, callFrame_setCtx _ _ _ hregs (congrArg State.mem hframe :) (congrArg State.ctxs hframe :), ?_⟩
  · rw [State.ctx_setCtx]
    exact if_congr hres rfl rfl
  · rw [hframe]
    rfl

theorem monitorCallsSetvecEvretLog_holds : monitorCallsSetvecEvretLog := by
  refine ⟨fun s sc k h mask hcall hne halign hown => Does.intro _ rfl ?_, fun s sc k mask hcall => Does.intro _ rfl ?_,
    fun s sc k h mask hcall hne hbad => Does.intro _ rfl ?_, fun s sc k hcall hin => Does.intro _ rfl ?_,
    fun s sc k code sev a2 a3 hcall hcode => Does.intro _ rfl ?_, fun s sc k code sev a2 a3 hcall hlo hhi hgrant => Does.intro _ rfl ?_,
    fun s sc k code sev a2 a3 hcall hlo hhi hgrant => Does.intro _ rfl ?_⟩
  · have harm : doMonitorSetvec s sc h mask = (s.setPart k { s.part k with handler := h, hmask := mask }).setCtx sc k { s.ctx sc k with a0 := 0 } := by
      rw [doMonitorSetvec, hcall]
      exact (if_neg hne).trans (if_pos ⟨halign, hown⟩)
    have hpart := s.part_setPart k { s.part k with handler := h, hmask := mask }
    rw [harm]
    refine ⟨(congrArg PartSt.handler hpart :), (congrArg PartSt.hmask hpart :), ?_, callFrame_setCtx _ _ _ (RegsBut.refl _ _) rfl rfl, rfl⟩
    rw [State.ctx_setCtx]
  · have harm : doMonitorSetvec s sc 0 mask = (s.setPart k { s.part k with handler := 0, hmask := 0 }).setCtx sc k { s.ctx sc k with a0 := 0 } := by
      rw [doMonitorSetvec, hcall]
      exact if_pos rfl
    have hpart := s.part_setPart k { s.part k with handler := 0, hmask := 0 }
    rw [harm]
    refine ⟨(congrArg PartSt.handler hpart :), ?_, callFrame_setCtx _ _ _ (RegsBut.refl _ _) rfl rfl, rfl⟩
    rw [State.ctx_setCtx]
  · have harm : doMonitorSetvec s sc h mask = s.setCtx sc k { s.ctx sc k with a0 := -2 } := by
      rw [doMonitorSetvec, hcall]
      refine (if_neg hne).trans (if_neg fun hok => ?_)
      obtain hbad | hbad := hbad
      · exact hbad hok.1
      · exact Bool.false_ne_true (hbad.symm.trans hok.2)
    rw [harm]
    refine ⟨?_, rfl, callFrame_setCtx _ _ _ (RegsBut.refl _ _) rfl rfl, rfl⟩
    rw [State.ctx_setCtx]
  · have harm : doMonitorEvret s sc = (s.setPart k { s.part k with masked := false }).setCtx sc k (s.ctx sc k).returned := by
      rw [doMonitorEvret, hcall]
      exact if_pos hin
    have hpart := s.part_setPart k { s.part k with masked := false }
    rw [harm]
    exact ⟨State.ctx_setCtx .., (congrArg PartSt.masked hpart :), callFrame_setCtx _ _ _ (RegsBut.refl _ _) rfl rfl, rfl⟩
  · have harm : doMonitorLog s sc code sev a2 a3 = s.setCtx sc k { s.ctx sc k with a0 := -2 } := by
      rw [doMonitorLog, hcall]
      exact if_pos hcode
    rw [harm]
    refine ⟨?_, rfl, callFrame_setCtx _ _ _ (RegsBut.refl _ _) rfl rfl, rfl⟩
    rw [State.ctx_setCtx]
  · have harm : doMonitorLog s sc code sev a2 a3 = s.setCtx sc k { s.ctx sc k with a0 := -3 } := by
      rw [doMonitorLog, hcall]
      exact (if_neg (by omega)).trans (if_pos (by simp [hgrant]))
    rw [harm]
    refine ⟨?_, rfl, callFrame_setCtx _ _ _ (RegsBut.refl _ _) rfl rfl, rfl⟩
    rw [State.ctx_setCtx]
  · rw [doMonitorLog_submits hcall hlo hhi hgrant]
    exact State.submitted_shows sc k _ (s.submit_eq _) (RegsBut.submit s (1 + k) code (0x20 + k) (min 3 sev + 32) (u32 a2 ++ u32 a3))

/-! Events (R83) -/

theorem doEventDelivery_awaited {s : State} {sc idx k mask : Nat} (hslot : (s.scull sc).slot = some idx) (hpart : (s.scull sc).part = k) (hlo : 1 ≤ k) (hhi : k ≤ 7)
    (hrun : (s.scull sc).yielded = false) (hwait : (s.ctx sc k).wait = some mask) (hgot : (s.evp k &&& mask) ≠ 0) : doEventDelivery s sc =
      (s.clrReg (Reg.PART_EVP (k - 1)) (s.evp k &&& mask)).setCtx sc k { s.ctx sc k with wait := none, a0 := ((s.evp k &&& mask : Nat) : Int) } := by
  have hmask : (s.ctx sc k).wait.getD 0 = mask := by rw [hwait, Option.getD_some]
  unfold doEventDelivery
  dsimp only
  rw [hslot, hpart, hrun, hmask, if_neg (by simp; omega), if_pos hgot]

theorem doEventDelivery_handled {s : State} {sc idx k : Nat} (hslot : (s.scull sc).slot = some idx) (hpart : (s.scull sc).part = k) (hlo : 1 ≤ k) (hhi : k ≤ 7)
    (hrun : (s.scull sc).yielded = false) (hnone : (s.evp k &&& (s.ctx sc k).wait.getD 0) = 0) (hhandler : (s.part k).handler ≠ 0) (hopen : (s.part k).masked = false)
    (hgot : (s.evp k &&& (s.part k).hmask) ≠ 0) : doEventDelivery s sc =
      ((s.clrReg (Reg.PART_EVP (k - 1)) (s.evp k &&& (s.part k).hmask)).setPart k { s.part k with masked := true }).setCtx sc k { s.ctx sc k with
        inHandler := true, saved := (s.ctx sc k).a0, saved1 := (s.ctx sc k).a1, saved2 := (s.ctx sc k).a2, saved3 := (s.ctx sc k).a3,
        savedWait := (s.ctx sc k).wait, wait := none, a0 := ((s.evp k &&& (s.part k).hmask : Nat) : Int) } := by
  unfold doEventDelivery
  dsimp only
  rw [hslot, hpart, hrun, if_neg (by simp; omega), if_neg (by simp [hnone]), if_pos ⟨hhandler, by simp [hopen], hgot⟩]

theorem tenantEvents_holds : tenantEvents := by
  refine ⟨fun s v hawake hk => Does.byRequester hawake rfl ?_, fun s sc idx k mask hslot hpart hlo hhi hrun hwait hgot => Does.intro _ rfl ?_,
    fun s sc idx k hslot hpart hlo hhi hrun hnone hhandler hopen hgot => Does.intro _ rfl ?_⟩
  · have harm : doEventSet s v = s.setEvp (getField v.toNat 0 3) (getField v.toNat 16 12) := if_neg hk
    rw [harm]
    refine ⟨fun b hb => ?_, by simp [State.setEvp], SameMem.of_mem rfl, rfl⟩
    have hbit : (getField v.toNat 16 12 % 4096).testBit b = v.toNat.testBit (16 + b) := by
      change (v.toNat / 2 ^ 16 % 2 ^ 12 % 2 ^ 12).testBit b = _
      rw [Nat.mod_mod, Nat.testBit_mod_two_pow, decide_eq_true hb, Bool.true_and, Nat.testBit_div_two_pow, Nat.add_comm]
    rw [State.setEvp, State.bit_orReg _ _ _ _ (by omega), hbit]
  · rw [doEventDelivery_awaited hslot hpart hlo hhi hrun hwait hgot]
    refine ⟨?_, ?_, fun b hb => ?_, callFrame_setCtx _ _ _ (by simp) rfl rfl, rfl⟩
    · rw [State.ctx_setCtx]
    · rw [State.ctx_setCtx]
    · exact s.bit_clrReg_evp k mask hb
  · rw [doEventDelivery_handled hslot hpart hlo hhi hrun hnone hhandler hopen hgot]
    have hpart' := (s.clrReg (Reg.PART_EVP (k - 1)) (s.evp k &&& (s.part k).hmask)).part_setPart k { s.part k with masked := true }
    refine ⟨State.ctx_setCtx .., fun b hb => ?_, (congrArg PartSt.masked hpart' :), callFrame_setCtx _ _ _ ?_ rfl rfl, rfl⟩
    · exact s.bit_clrReg_evp k _ hb
    · rw [State.setPart, RegsBut.mk_regs_iff]
      simp

/-- Settles O18: what each monitor call returns and changes, and which context or handler takes pending events. -/
theorem monitorCallsAndEvents : Obligations.MonitorCallsAndEvents := ⟨monitorCallsYieldWaitInfo_holds, monitorCallsSetvecEvretLog_holds, tenantEvents_holds⟩

end Sys2Proof.Machine
end

section
/-!
PROOFS. The suspension of a partition (R94, R105): what it stops, and that the partition's page keeps what the suspension wrote into it.
-/

namespace Sys2Proof.Machine

/-! Which registers a suspension stops -/

/-- The registers of a controller's transmit objects. -/
def txRegs (x : Nat) : List Nat := [Reg.CAN_IRQ x, Reg.CAN_TXPEND x, Reg.CAN_TXDONE x] ++ (List.range 32).map (Reg.CAN_TXST x)

/-- The registers of a select of the Q-port. -/
def qselRegs (n : Nat) : List Nat := [Reg.QP_Q_STAT n, Reg.QP_Q_RXDATA n]

/-- The registers that show a console's FIFOs. -/
def fifoRegs (p : Nat) : List Nat := [Reg.CON_STAT p, Reg.CON_FIFO p]

/-- The registers beside its page that the suspension of partition k touches. -/
def stopRegs (k : Nat) : List Nat :=
  [Reg.PART_SCULLST, Reg.GPIO_OUT, Reg.GPIO_DIR] ++ (txRegs 0 ++ txRegs 2) ++ (qselRegs 1 ++ qselRegs 2 ++ qselRegs 3) ++ fifoRegs 1
    ++ (logRegs 0 ++ logRegs 1 ++ logRegs (1 + k))

/-- What a suspension touches. -/
abbrev SuspendFrame (s t : State) : Prop :=
  t = { s with
    regs := t.regs, log := t.log, con0 := t.con0, con1 := t.con1, cam := { s.cam with helm := t.cam.helm }, sculls := t.sculls, cans := t.cans, qp := t.qp }

theorem SuspendFrame.trans {s t u : State} (h : SuspendFrame s t) (k : SuspendFrame t u) : SuspendFrame s u := by rw [k, h]

theorem SuspendFrame.of_log {s t : State} (h : LogFrame s t) : SuspendFrame s t := by rw [h]

theorem SuspendFrame.of_helm {s t : State} (h : HelmFrame s t) : SuspendFrame s t := by rw [h]

theorem SuspendFrame.foldl {α : Type} (f : State → α → State) (hf : ∀ t x, SuspendFrame t (f t x)) (l : List α) (s : State) : SuspendFrame s (l.foldl f s) :=
  List.foldlRecOn (motive := SuspendFrame s) l f rfl fun t ht x _ => ht.trans (hf t x)

/-! Its steps -/

theorem State.idlePart_frame (s : State) (k : Nat) : SuspendFrame s (s.idlePart k) ∧ RegsBut s (s.idlePart k) [Reg.PART_SCULLST] := by
  refine ⟨SuspendFrame.foldl _ (fun t sc => ?_) _ s, RegsBut.foldl _ _ (fun u sc _ hu => RegsBut.ite (fun _ => ?_) fun _ => hu) (RegsBut.refl _ _)⟩
  · dsimp only
    split <;> rfl
  · exact (RegsBut.mk_iff.mpr hu).trans (State.showScull_onlyRegs _ sc).1

theorem State.freeHelmOf_frame (s : State) (src cause : Nat) : SuspendFrame s (s.freeHelmOf src cause) ∧ RegsBut s (s.freeHelmOf src cause) (logRegs 0 ++ logRegs 1) := by
  unfold State.freeHelmOf
  split
  · exact ⟨SuspendFrame.of_helm (s.freeHelm_eq cause), (RegsBut.refl _ _).freeHelm _ (fun _ => List.mem_append_left _) fun _ => List.mem_append_right _⟩
  · exact ⟨rfl, RegsBut.refl _ _⟩

theorem State.txEnd_frame (s : State) (x result : Nat) {o : Nat} (ho : o < 32) :
    s.txEnd x o result = { s with regs := (s.txEnd x o result).regs, cans := (s.txEnd x o result).cans } ∧ RegsBut s (s.txEnd x o result) (txRegs x) := by
  have hst : Reg.CAN_TXST x o ∈ txRegs x := List.mem_append_right _ (List.mem_map_of_mem (List.mem_range.mpr ho))
  have hirq : Reg.CAN_IRQ x ∈ txRegs x := by simp [txRegs]
  have hpend : Reg.CAN_TXPEND x ∈ txRegs x := by simp [txRegs]
  have hdone : Reg.CAN_TXDONE x ∈ txRegs x := by simp [txRegs]
  unfold State.txEnd
  dsimp only
  split
  · exact ⟨rfl, by simp [State.setCan, hst, hirq, hpend, hdone]⟩
  · split
    · exact ⟨rfl, by simp [State.setCan, hst, hpend, hdone]⟩
    · exact ⟨rfl, by simp [State.setCan, hst, hirq, hpend, hdone]⟩

theorem State.txAbortOne_frame (s : State) (x : Nat) {o : Nat} (ho : o < 32) :
    s.txAbortOne x o = { s with regs := (s.txAbortOne x o).regs, cans := (s.txAbortOne x o).cans } ∧ RegsBut s (s.txAbortOne x o) (txRegs x) := by
  unfold State.txAbortOne
  split
  · exact ⟨rfl, RegsBut.refl _ _⟩
  · split
    · exact ⟨rfl, RegsBut.mk_iff.mpr (RegsBut.refl _ _)⟩
    · exact s.txEnd_frame x 6 ho

theorem State.txAbort_frame (s : State) (x mask : Nat) :
    s.txAbort x mask = { s with regs := (s.txAbort x mask).regs, cans := (s.txAbort x mask).cans } ∧ RegsBut s (s.txAbort x mask) (txRegs x) := by
  unfold State.txAbort
  refine List.foldlRecOn (motive := fun t : State => t = { s with regs := t.regs, cans := t.cans } ∧ RegsBut s t (txRegs x)) _ _ ⟨rfl, RegsBut.refl _ _⟩
    fun t ⟨ht, hregs⟩ o ho => ?_
  split
  · obtain ⟨hone, hmore⟩ := t.txAbortOne_frame x (List.mem_range.mp ho)
    exact ⟨by rw [hone, ht], hregs.trans hmore⟩
  · exact ⟨ht, hregs⟩

/-- What the queues of the Q-port touch. -/
abbrev QpFrame (s t : State) : Prop := t = { s with regs := t.regs, qp := t.qp }

theorem QpFrame.trans {s t u : State} (h : QpFrame s t) (k : QpFrame t u) : QpFrame s u := by rw [k, h]

theorem State.setQueue_frame (s : State) (n : Nat) (l : List QEnt) : QpFrame s (s.setQueue n l) ∧ RegsBut s (s.setQueue n l) (qselRegs n) :=
  ⟨rfl, by simp [State.setQueue, State.setQp, qselRegs]⟩

theorem State.setQrx_frame (s : State) (n : Nat) (l : List Nat) : QpFrame s (s.setQrx n l) ∧ RegsBut s (s.setQrx n l) (qselRegs n) := by
  refine ⟨?_, ?_⟩
  · ext1 <;> simp [State.setQrx, State.setQp]
  · simp [State.setQrx, State.setQp, qselRegs]

theorem State.flushQsel_frame (s : State) (n : Nat) : QpFrame s (s.flushQsel n) ∧ RegsBut s (s.flushQsel n) (qselRegs n) := by
  unfold State.flushQsel
  dsimp only
  generalize (if s.qp.chain = some n then ((s.queue n).take 1).map fun e => { e with cont := false } else []) = l
  obtain ⟨hqueue, hregs⟩ := s.setQueue_frame n l
  obtain ⟨hrx, hmore⟩ := (s.setQueue n l).setQrx_frame n []
  exact ⟨hqueue.trans hrx, hregs.trans hmore⟩

theorem State.gpioSafe_frame (s : State) (mask : Nat) :
    s.gpioSafe mask = { s with regs := (s.gpioSafe mask).regs } ∧ RegsBut s (s.gpioSafe mask) [Reg.GPIO_OUT, Reg.GPIO_DIR] := by
  unfold State.gpioSafe
  refine List.foldlRecOn (motive := fun t : State => t = { s with regs := t.regs } ∧ RegsBut s t [Reg.GPIO_OUT, Reg.GPIO_DIR]) _ _ ⟨rfl, RegsBut.refl _ _⟩
    fun t ⟨ht, hregs⟩ p _ => ?_
  split
  · split
    · exact ⟨by rw [ht]; rfl, hregs.setBit _ _ (by simp)⟩
    · exact ⟨by rw [ht]; rfl, hregs.setBit _ _ (by simp)⟩
  · exact ⟨ht, hregs⟩

theorem State.showCon_frame (s : State) (p : Nat) : s.showCon p = { s with regs := (s.showCon p).regs } ∧ RegsBut s (s.showCon p) (fifoRegs p) :=
  ⟨rfl, by simp [State.showCon, fifoRegs]⟩

/-! The suspension -/

/-- The page of the partition as its suspension writes it. -/
def State.pageSuspended (s : State) (k cause : Nat) : State := (s.setFld (Reg.PART_STATE (k - 1)) 0 2 pSuspended).setFld (Reg.PART_STATE (k - 1)) 8 8 cause

/-- What stops of partition k between two states: the frame of a suspension and its registers beside the page. -/
structure Stops (k : Nat) (s t : State) : Prop where
  frame : SuspendFrame s t
  regs : RegsBut s t (stopRegs k)

section
variable {k : Nat} {s t u : State}

theorem Stops.refl (k : Nat) (s : State) : Stops k s s := ⟨rfl, RegsBut.refl _ _⟩

/-- A step of the suspension. -/
theorem Stops.step {l : List Nat} (h : Stops k s t) (hframe : SuspendFrame t u) (hregs : RegsBut t u l) (hl : ∀ a, a ∈ l → a ∈ stopRegs k) : Stops k s u :=
  ⟨h.frame.trans hframe, h.regs.trans (hregs.mono hl)⟩

theorem Stops.ite {c : Prop} [Decidable c] (ht : Stops k s t) (hu : Stops k s u) : Stops k s (if c then t else u) := by
  split
  · exact ht
  · exact hu

theorem Stops.idlePart (h : Stops k s t) (j : Nat) : Stops k s (t.idlePart j) :=
  h.step (t.idlePart_frame j).1 (t.idlePart_frame j).2 (by simp [stopRegs])

theorem Stops.freeHelmOf (h : Stops k s t) (src cause : Nat) : Stops k s (t.freeHelmOf src cause) :=
  h.step (t.freeHelmOf_frame src cause).1 (t.freeHelmOf_frame src cause).2 fun _ ha => List.mem_append_right _ (List.mem_append_left _ ha)

theorem Stops.canDisable {x : Nat} (h : Stops k s t) (hx : x = 0 ∨ x = 2) (mask : Nat) : Stops k s (t.canDisable x mask) := by
  obtain ⟨hframe, hregs⟩ := t.txAbort_frame x mask
  refine h.step (show SuspendFrame t (t.txAbort x mask) by rw [hframe]) hregs fun a ha => ?_
  refine List.mem_append_left _ (List.mem_append_left _ (List.mem_append_left _ (List.mem_append_right _ ?_)))
  obtain rfl | rfl := hx
  · exact List.mem_append_left _ ha
  · exact List.mem_append_right _ ha

theorem Stops.flushQsel {n : Nat} (h : Stops k s t) (hn : n ∈ [1, 2, 3]) : Stops k s (t.flushQsel n) := by
  obtain ⟨hframe, hregs⟩ := t.flushQsel_frame n
  refine h.step (show SuspendFrame t (t.flushQsel n) by rw [hframe]) hregs fun a ha => ?_
  refine List.mem_append_left _ (List.mem_append_left _ (List.mem_append_right _ ?_))
  fin_cases hn
  · exact List.mem_append_left _ (List.mem_append_left _ ha)
  · exact List.mem_append_left _ (List.mem_append_right _ ha)
  · exact List.mem_append_right _ ha

theorem Stops.gpioSafe (h : Stops k s t) (mask : Nat) : Stops k s (t.gpioSafe mask) := by
  obtain ⟨hframe, hregs⟩ := t.gpioSafe_frame mask
  exact h.step (show SuspendFrame t (t.gpioSafe mask) by rw [hframe]) hregs (by simp [stopRegs])

theorem Stops.emptyCon (h : Stops k s t) (c : ConSt) : Stops k s (State.showCon { t with con1 := c } 1) := by
  obtain ⟨hframe, hregs⟩ := State.showCon_frame { t with con1 := c } 1
  refine h.step (show SuspendFrame t (State.showCon { t with con1 := c } 1) by rw [hframe]) (hregs.source rfl) fun a ha => ?_
  exact List.mem_append_left _ (List.mem_append_right _ ha)

theorem Stops.emptyIf {c : Prop} [Decidable c] (h : Stops k s t) (x : ConSt) : Stops k s (if c then State.showCon { t with con1 := x } 1 else t) :=
  Stops.ite (h.emptyCon x) h

theorem Stops.flushGranted (h : Stops k s t) (j : Nat) : Stops k s (([1, 2, 3] : List Nat).foldl (fun u n => if u.granted j .misc n then u.flushQsel n else u) t) :=
  List.foldlRecOn (motive := Stops k s) _ _ h fun _ hu _ hn => Stops.ite (hu.flushQsel hn) hu

theorem Stops.logSK (h : Stops k s t) (code : Nat) (m : List Byte) : Stops k s (t.logSK k code m) := by
  refine h.step (SuspendFrame.of_log (t.logSK_eq k code m)) (l := logRegs 0 ++ logRegs 1 ++ logRegs (1 + k)) ?_ fun _ => List.mem_append_right _
  exact (RegsBut.logSK_iff code m (fun _ ha => List.mem_append_left _ (List.mem_append_left _ ha)) fun _ ha => List.mem_append_right _ ha).mpr (RegsBut.refl _ _)

end

theorem State.suspend_stops (s : State) (k cause : Nat) : Stops k (s.pageSuspended k cause) (s.suspend k cause) := by
  unfold State.suspend
  dsimp only
  refine Stops.logSK (Stops.emptyIf (Stops.gpioSafe (Stops.flushGranted ?_ k) _) _) _ _
  exact Stops.canDisable (Stops.canDisable (Stops.freeHelmOf (Stops.idlePart (Stops.refl k _) k) _ _) (.inl rfl) _) (.inr rfl) _

/-- The registers that a suspension stops lie outside the partitions' pages. -/
theorem stopRegs_outside {k a : Nat} (ha : a ∈ stopRegs k) : a < 0x40006800 ∨ 0x40007000 ≤ a := by
  simp only [stopRegs, txRegs, qselRegs, fifoRegs, logRegs, List.mem_append, List.mem_cons, List.not_mem_nil, or_false, List.mem_map, List.mem_range] at ha
  unfold Reg.PART_SCULLST Reg.GPIO_OUT Reg.GPIO_DIR Reg.CAN_IRQ Reg.CAN_TXPEND Reg.CAN_TXDONE Reg.CAN_TXST Reg.QP_Q_STAT Reg.QP_Q_RXDATA Reg.CON_STAT Reg.CON_FIFO
    Reg.LOG_PEND Reg.LOG_BSUPP Reg.LOG_BOVF Reg.LOG_PENDDROP Reg.LOG_IRQ at ha
  omega

theorem partState_notMem_stopRegs {j : Nat} (hj : j < 8) (k : Nat) : Reg.PART_STATE j ∉ stopRegs k := fun h => by
  have := stopRegs_outside h
  unfold Reg.PART_STATE at this
  omega

/-- The partition's page after its suspension, and the parts beside it. -/
theorem State.suspend_shows (s : State) {k cause : Nat} (hk : k ≤ 7) (hcause : cause < 256) : let t := s.suspend k cause
    t.partState k = pSuspended ∧ t.partCause k = cause ∧ t.parts = s.parts ∧ t.nv = s.nv := by
  obtain ⟨hframe, hregs⟩ := s.suspend_stops k cause
  have hpage := hregs (Reg.PART_STATE (k - 1)) (partState_notMem_stopRegs (by omega) k)
  refine ⟨?_, ?_, (congrArg State.parts hframe :), (congrArg State.nv hframe :)⟩
  · rw [State.partState, State.fld_of_rd hpage, State.pageSuspended, State.fld_setFld_other _ _ (by decide) (by decide), State.fld_setFld_self _ _ (by decide)]
    rfl
  · rw [State.partCause, State.fld_of_rd hpage, State.pageSuspended, State.fld_setFld_self _ _ (by decide)]
    exact Nat.mod_eq_of_lt hcause

end Sys2Proof.Machine
end

section
/-!
PROOFS. Order doorbells and the verification of tenant images (R97, R98, R102, R391). They settle O20.
-/

namespace Sys2Proof.Machine

/-! The doorbell -/

theorem State.placeEntry_shows (s : State) (k e : Nat) : (s.placeEntry k e).regs = s.regs ∧ (s.placeEntry k e).parts = s.parts ∧ (s.placeEntry k e).nv = s.nv
    ∧ (s.placeEntry k e).cam.orders.length = s.cam.orders.length + 1 := by
  simp [State.placeEntry, State.placeOrder]

/-- Entries of the mailbox enter the set one by one; beside the set and the latch nothing changes. -/
theorem State.placeEntries_shows (s : State) (k : Nat) (l : List Nat) :
    (l.foldl (fun u e => u.placeEntry k e) s).regs = s.regs ∧ (l.foldl (fun u e => u.placeEntry k e) s).parts = s.parts
      ∧ (l.foldl (fun u e => u.placeEntry k e) s).nv = s.nv
      ∧ (l.foldl (fun u e => u.placeEntry k e) s).cam.orders.length = s.cam.orders.length + l.length := by
  induction l generalizing s with
  | nil => exact ⟨rfl, rfl, rfl, rfl⟩
  | cons e l ih =>
    obtain ⟨hregs, hparts, hnv, horders⟩ := ih (s.placeEntry k e)
    obtain ⟨hregs1, hparts1, hnv1, horders1⟩ := s.placeEntry_shows k e
    rw [List.foldl_cons, hregs, hparts, hnv, horders, hregs1, hparts1, hnv1, horders1, List.length_cons]
    exact ⟨rfl, rfl, rfl, by omega⟩

/-- The doorbell written: its time and its word in the mailbox. -/
def State.rung (s : State) (k : Nat) (value : Word) (us : Nat) : State := (s.atUs us).st (mailbox k) 4 value.toNat

/-- A doorbell taken: its stamp, its count and its interrupt. -/
def State.bellTaken (s : State) (k n stamp : Nat) : State :=
  ((((s.setPart k { s.part k with bell := some stamp }).wrN (Reg.PART_DBSTAMP (k - 1)) (stamp % 2 ^ 32)).setFld (Reg.PART_DBSTAT (k - 1)) 8 6 n).setBit
    (Reg.PART_DBSTAT (k - 1)) 0 true).setBit Reg.PART_IRQ k true

theorem State.rung_regs (s : State) (k : Nat) (value : Word) (us : Nat) : RegsBut s (s.rung k value us) [Reg.STK_PHASE] := by simp [State.rung]

theorem State.rung_eq (s : State) (k : Nat) (value : Word) (us : Nat) :
    s.rung k value us = { s with regs := (s.rung k value us).regs, mem := (s.rung k value us).mem } := by
  ext1 <;> simp [State.rung]

theorem State.rung_now (s : State) (k : Nat) (value : Word) {us : Nat} (hus : us < 2 ^ 15) : (s.rung k value us).now = (s.stk.base + us) % 2 ^ 48 := by
  have hat : (s.rung k value us).us = us := by
    rw [State.us, State.rung, State.fld_st, ← State.us, State.us_atUs, Nat.mod_eq_of_lt hus]
  rw [State.now, hat, s.rung_eq]

theorem partState_outside_phase (k : Nat) : Reg.PART_STATE k ≠ Reg.STK_PHASE := by
  unfold Reg.PART_STATE Reg.STK_PHASE
  omega

theorem doDoorbell_rung {s : State} {k : Nat} (value : Word) (us : Nat) (hlo : 1 ≤ k) (hhi : k ≤ 7) (hrun : s.partState k = pRunning) : doDoorbell s k value us =
    let u := s.rung k value us
    let n := value.toNat % 64
    if n = 0 ∨ 32 < n then u.setBit (Reg.PART_DBSTAT (k - 1)) 1 true
    else if (u.part k).bell.isSome then (u.setBit (Reg.PART_DBSTAT (k - 1)) 1 true).logIn (1 + k) 0x0405 0 (u8 k ++ u32 u.strokeNo)
    else (List.range n).foldl (fun v e => v.placeEntry k e) (u.bellTaken k n u.now) := by
  unfold doDoorbell State.bellTaken
  dsimp only
  rw [if_neg (by omega)]
  rfl

theorem dbstat_fresh (k : Nat) : Reg.PART_DBSTAT k ≠ Reg.PART_IRQ ∧ Reg.PART_DBSTAT k ≠ Reg.PART_DBSTAMP k ∧ Reg.PART_DBSTAMP k ≠ Reg.PART_IRQ := by
  unfold Reg.PART_DBSTAT Reg.PART_IRQ Reg.PART_DBSTAMP
  omega

theorem State.bellTaken_shows (s : State) {k n : Nat} (stamp : Nat) (hk : k ≤ 7) (hn : n ≤ 32) : let t := s.bellTaken k n stamp
    (t.part k).bell = some stamp ∧ t.rdN (Reg.PART_DBSTAMP (k - 1)) = stamp % 2 ^ 32 ∧ t.bit (Reg.PART_DBSTAT (k - 1)) 0 = true
      ∧ t.fld (Reg.PART_DBSTAT (k - 1)) 8 6 = n ∧ t.bit Reg.PART_IRQ k = true ∧ t.cam = s.cam ∧ t.nv = s.nv := by
  obtain ⟨hirq, -, hother⟩ := dbstat_fresh (k - 1)
  have hpart : (s.bellTaken k n stamp).parts = (s.setPart k { s.part k with bell := some stamp }).parts := by simp [State.bellTaken]
  refine ⟨?_, ?_, ?_, ?_, ?_, ?_, ?_⟩
  · rw [State.part_of_parts hpart, State.part_setPart]
  · simp [State.bellTaken, Ne.symm hother]
  · simp [State.bellTaken, Ne.symm hirq]
  · simp [State.bellTaken, Ne.symm hirq]
    omega
  · exact State.bit_setBit_self _ _ (by omega)
  · simp [State.bellTaken, State.setPart]
  · simp [State.bellTaken, State.setPart]

theorem doorbellStampsItsEntries_holds : doorbellStampsItsEntries := by
  refine ⟨fun s k us v hlo hhi hrun hus hn1 hn2 hfirst => Does.intro _ rfl ?_, fun s k us v hlo hhi hrun hbad => Does.intro _ rfl ?_,
    fun s k hlo hhi => Does.intro _ rfl ?_⟩
  · have hbell : ((s.rung k v us).part k).bell.isSome = false := by
      have hparts : (s.rung k v us).parts = s.parts := by simp [State.rung]
      rw [State.part_of_parts hparts, hfirst]
      rfl
    have harm : doDoorbell s k v us = (List.range (v.toNat % 64)).foldl (fun u e => u.placeEntry k e) ((s.rung k v us).bellTaken k (v.toNat % 64) (s.rung k v us).now) := by
      rw [doDoorbell_rung v us hlo hhi hrun]
      dsimp only
      rw [if_neg (by omega), hbell, if_neg Bool.false_ne_true]
    rw [harm, s.rung_now k v hus]
    obtain ⟨hregs, hparts, hnv, horders⟩ :=
      ((s.rung k v us).bellTaken k (v.toNat % 64) ((s.stk.base + us) % 2 ^ 48)).placeEntries_shows k (List.range (v.toNat % 64))
    obtain ⟨hstampAt, hstamp, hbusy, hcount, hirq, hcam, hnv1⟩ := (s.rung k v us).bellTaken_shows ((s.stk.base + us) % 2 ^ 48) hhi hn2
    refine ⟨?_, (State.rdN_of_regs hregs _).trans hstamp, (State.bit_of_regs hregs _ _).trans hbusy, (State.fld_of_regs hregs _ _ _).trans hcount,
      (State.bit_of_regs hregs _ _).trans hirq, ?_, ?_⟩
    · rw [State.part_of_parts hparts, hstampAt]
    · rw [horders, hcam, List.length_range, s.rung_eq]
    · rw [hnv, hnv1, s.rung_eq]
  · have harm : doDoorbell s k v us = (s.rung k v us).setBit (Reg.PART_DBSTAT (k - 1)) 1 true := by
      rw [doDoorbell_rung v us hlo hhi hrun]
      dsimp only
      rw [if_pos (by omega)]
    rw [harm]
    refine ⟨State.bit_setBit_self _ _ (by decide), ?_, ?_, ?_, fun a ha => ?_⟩
    · rw [State.setBit_cam, s.rung_eq]
    · rw [State.setBit_parts, s.rung_eq]
    · exact ((s.rung_regs k v us).mono (by simp)).setBit _ _ (by simp)
    · rw [State.rdB_of_mem (State.setBit_mem ..), State.rung, State.st, State.rdB_wrBytes_out _ _ _ _ (by rw [leBytes_length]; omega),
        State.rdB_of_mem (State.atUs_mem ..)]
  · have harm : doDoorbellCopyDone s k = s.setBit (Reg.PART_DBSTAT (k - 1)) 0 false := if_neg (by omega)
    rw [harm]
    exact ⟨State.bit_setBit_self _ _ (by decide), by simp, SameMem.of_mem rfl, rfl⟩

/-! The images -/

/-- The partition in turn is one still to be verified. -/
theorem State.verifyTurn_some {s : State} {k : Nat} (h : s.verifyTurn = some k) : 1 ≤ k ∧ k ≤ 7 ∧ (s.part k).verified = false := by
  have hin := List.mem_of_find?_eq_some h
  have hturn := List.find?_some h
  simp only [List.mem_map, List.mem_range] at hin
  obtain ⟨j, hj, rfl⟩ := hin
  simp only [Bool.and_eq_true, Bool.not_eq_true'] at hturn
  exact ⟨by omega, by omega, hturn.2⟩

/-- The numbers of the checks follow their order; an image passes where all of them hold (R102). -/
theorem State.imageCheck_zero_iff (s : State) (k : Nat) (image : List Byte) : s.imageCheck k image = 0 ↔
    (imageHeader image).magic = 0x54504E52 ∧ (imageHeader image).fmt = 1 ∧ (imageHeader image).part = k
      ∧ ((imageHeader image).ctxMask &&& s.slotMask k) = s.slotMask k ∧ Tab.get 0 s.nv.floors k ≤ (imageHeader image).version
      ∧ (imageHeader image).quotaMin ≤ (s.quotaOf k).2
      ∧ (imageHeader image).dataDst + (imageHeader image).dataSize + (imageHeader image).bssSize ≤ (s.quotaOf k).2
      ∧ Config.sha256 (imageHeader image).pubkey = s.enrolled k
      ∧ Config.ecdsaVerify (imageHeader image).pubkey (imageDigest image) (imageHeader image).signature = true := by
  unfold State.imageCheck
  dsimp only
  generalize imageHeader image = h
  constructor
  · intro hz
    repeat' split at hz
    all_goals simp_all
  · rintro ⟨hmagic, hfmt, hpart, hctx, hfloor, hquota, hdata, hkey, hsig⟩
    rw [if_neg (by simp [hmagic, hfmt]), if_neg (by simp [hpart]), if_neg (by simp [hctx]), if_neg (by omega), if_neg (by omega), if_neg (by simp [hkey]),
      if_neg (by simp [hsig])]

theorem doTenantImageVerify_refused {s : State} {k : Nat} {image : List Byte} (header : List Byte) (hturn : s.verifyTurn = some k) (hbad : s.imageCheck k image ≠ 0) :
    doTenantImageVerify s k image header = (s.logS 0x0402 (u8 k ++ u8 (s.imageCheck k image))).suspend k 0x06 := by
  rw [doTenantImageVerify, if_neg (by simp [hturn])]
  exact if_pos hbad

/-- A verified image held with what its header gives. -/
def State.imageHeld (s : State) (k : Nat) (image : List Byte) : State := s.setPart k ((s.part k).withImage image)

/-- The image's area of tags kept to be written anew. -/
def State.imageSealed (s : State) (k : Nat) (image : List Byte) : State :=
  let h := imageHeader image
  let want := sealHeader (s.sealKey k) k h.version h.size (imageDigest image)
  (s.setPart k { s.part k with sealed := tagArea (s.sealKey k) want (s.rdN (Reg.PART_XIPBASE (k - 1))) h.version image (h.size / 256) }).logS 0x1102
    (u8 k ++ u32 h.version ++ u32 (h.size / 256))

theorem doTenantImageVerify_passed {s : State} {k : Nat} {image : List Byte} (header : List Byte) (hturn : s.verifyTurn = some k) (hgood : s.imageCheck k image = 0) :
    doTenantImageVerify s k image header =
      if header = sealHeader ((s.imageHeld k image).sealKey k) k (imageHeader image).version (imageHeader image).size (imageDigest image) then s.imageHeld k image
      else (s.imageHeld k image).imageSealed k image := by
  rw [doTenantImageVerify, if_neg (by simp [hturn])]
  exact if_neg (by simp [hgood])

theorem State.imageHeld_shows (s : State) (k : Nat) (image : List Byte) :
    ((s.imageHeld k image).part k).verified = true ∧ ((s.imageHeld k image).part k).version = (imageHeader image).version
      ∧ (∀ j, j ≠ k → (s.imageHeld k image).part j = s.part j) ∧ (s.imageHeld k image).mem = s.mem := by
  have hpart : (s.imageHeld k image).part k = (s.part k).withImage image := State.part_setPart ..
  refine ⟨?_, ?_, fun j hj => State.part_setPart_ne _ _ (Ne.symm hj), rfl⟩
  · rw [hpart, PartSt.withImage]
  · rw [hpart, PartSt.withImage]

theorem State.imageSealed_shows (s : State) (k : Nat) (image : List Byte) :
    ((s.imageSealed k image).part k).verified = (s.part k).verified ∧ ((s.imageSealed k image).part k).version = (s.part k).version
      ∧ (∀ j, j ≠ k → (s.imageSealed k image).part j = s.part j) ∧ (s.imageSealed k image).mem = s.mem := by
  unfold State.imageSealed
  dsimp only
  generalize tagArea _ _ _ _ _ _ = area
  have hparts := State.logS_parts (s.setPart k { s.part k with sealed := area }) 0x1102
    (u8 k ++ u32 (imageHeader image).version ++ u32 ((imageHeader image).size / 256))
  rw [State.part_of_parts hparts, State.part_setPart]
  refine ⟨rfl, rfl, fun j hj => ?_, by simp [State.setPart]⟩
  rw [State.part_of_parts hparts, State.part_setPart_ne _ _ (Ne.symm hj)]

theorem tenantImageVerification_holds : tenantImageVerification := by
  refine ⟨fun s k image header hturn => Does.intro _ rfl ⟨fun hbad => ?_, fun hgood => ?_, fun hgood hheader => ?_⟩,
    fun s k image header h => congrArg Host.Outcome.next (if_pos h), fun s k image h => ?_, fun s k image => s.imageCheck_zero_iff k image⟩
  · rw [doTenantImageVerify_refused header hturn hbad]
    obtain ⟨hlo, hhi, hopen⟩ := s.verifyTurn_some hturn
    obtain ⟨hstate, hcause, hparts, -⟩ := (s.logS 0x0402 (u8 k ++ u8 (s.imageCheck k image))).suspend_shows hhi (cause := 0x06) (by decide)
    exact ⟨rfl, hstate, hcause, by rw [State.part_of_parts (hparts.trans (State.logS_parts ..)), hopen]⟩
  · rw [doTenantImageVerify_passed header hturn hgood]
    obtain ⟨hver, hversion, hothers, hmem⟩ := s.imageHeld_shows k image
    split
    · exact ⟨hver, hversion, hothers, SameMem.of_mem hmem⟩
    · obtain ⟨hver2, hversion2, hothers2, hmem2⟩ := (s.imageHeld k image).imageSealed_shows k image
      exact ⟨hver2.trans hver, hversion2.trans hversion, fun j hj => (hothers2 j hj).trans (hothers j hj), SameMem.of_mem (hmem2.trans hmem)⟩
  · rw [doTenantImageVerify_passed header hturn hgood]
    have hkey : (s.imageHeld k image).sealKey k = s.sealKey k := rfl
    rw [hkey, if_pos hheader]
    rfl
  · exact if_pos h

/-- Settles O20: a doorbell stamps and places its entries, and an image is verified by the checks of R102 in their order. -/
theorem doorbellsAndTenantImages : Obligations.DoorbellsAndTenantImages := ⟨doorbellStampsItsEntries_holds, tenantImageVerification_holds⟩

end Sys2Proof.Machine
end

section
/-!
PROOFS. Slots and Sculls, grants, and the faults of a tenant (R56, R85 to R94, R102, R106). They settle O19.
-/

namespace Sys2Proof.Machine

/-! A slot's end and the enables -/

theorem doSlotEnd_clean {s : State} {sc idx : Nat} (hslot : (s.scull sc).slot = some idx) (hlo : 1 ≤ (s.scull sc).part)
    (hclean : (s.scull sc).yielded = true ∨ (s.ctx sc (s.scull sc).part).wait ≠ none) : doSlotEnd s sc =
      ((s.setScull sc (s.scull sc).ended).showScull sc).setFld (Reg.PART_STATE ((s.scull sc).part - 1)) 16 2 0 := by
  have hyield : ((s.scull sc).yielded || (s.scull sc).part = 0 || (s.ctx sc (s.scull sc).part).wait.isSome) = true := by
    obtain h | h := hclean
    · simp [h]
    · simp [Option.isSome_iff_ne_none.mpr h]
  rw [doSlotEnd, hslot]
  dsimp only
  rw [if_neg (by omega), if_pos hyield]

/-- A slot that ended without a yield, charged. -/
def State.slotCharged (s : State) (sc n : Nat) : State :=
  (((s.setScull sc (s.scull sc).ended).showScull sc).setFld (Reg.PART_STATE ((s.scull sc).part - 1)) 16 2 n).setBit Reg.PART_IRQ (8 + (s.scull sc).part) true

theorem State.setScull_showScull_crabs (s : State) (sc k : Nat) (x : ScullSt) : ((s.setScull sc x).showScull sc).crabs k = s.crabs k := by
  rw [State.crabs, State.fld_of_rd ((State.showScull_onlyRegs _ sc).1 _ (by simp [partState_ne_scullst])), State.setScull, State.fld_mk, ← State.crabs]

theorem doSlotEnd_charged {s : State} {sc idx : Nat} (hslot : (s.scull sc).slot = some idx) (hlo : 1 ≤ (s.scull sc).part)
    (hrun : (s.scull sc).yielded = false) (hwait : (s.ctx sc (s.scull sc).part).wait = none) :
    doSlotEnd s sc = (s.slotCharged sc (min 3 (s.crabs (s.scull sc).part + 1))).logSK (s.scull sc).part 0x0210
      (u8 (s.scull sc).part ++ u8 idx ++ u8 (min 3 (s.crabs (s.scull sc).part + 1))) := by
  have hyield : ((s.scull sc).yielded || decide ((s.scull sc).part = 0) || (s.ctx sc (s.scull sc).part).wait.isSome) = false := by
    simp [hrun, hwait]
    omega
  rw [doSlotEnd, hslot]
  dsimp only
  rw [if_neg (by omega), hyield, if_neg Bool.false_ne_true, State.setScull_showScull_crabs]
  rfl

theorem partIrq_ne_state (k : Nat) : Reg.PART_IRQ ≠ Reg.PART_STATE k := by
  unfold Reg.PART_STATE Reg.PART_IRQ
  omega

theorem State.crabs_charged (s : State) (k b : Nat) {n : Nat} (hn : n < 4) :
    ((s.setFld (Reg.PART_STATE (k - 1)) 16 2 n).setBit Reg.PART_IRQ b true).crabs k = n := by
  rw [State.crabs, State.fld_setBit_ne _ _ _ _ _ (partIrq_ne_state (k - 1)), State.fld_setFld_self _ _ (by decide)]
  exact Nat.mod_eq_of_lt hn

theorem State.slotCharged_shows (s : State) {sc n : Nat} (hk : (s.scull sc).part ≤ 7) (hn : n < 4) :
    (s.slotCharged sc n).scull sc = (s.scull sc).ended ∧ (s.slotCharged sc n).crabs (s.scull sc).part = n
      ∧ (s.slotCharged sc n).bit Reg.PART_IRQ (8 + (s.scull sc).part) = true
      ∧ RegsBut s (s.slotCharged sc n) [Reg.PART_SCULLST, Reg.PART_STATE ((s.scull sc).part - 1), Reg.PART_IRQ] ∧ (s.slotCharged sc n).mem = s.mem
      ∧ s.slotCharged sc n = { s with regs := (s.slotCharged sc n).regs, sculls := (s.slotCharged sc n).sculls } := by
  refine ⟨?_, ?_, ?_, ?_, ?_, ?_⟩
  · rw [State.slotCharged, State.scull, State.setBit_sculls, State.setFld_sculls, ← State.scull, State.scull_showScull, State.scull_setScull]
  · rw [State.slotCharged, State.crabs_charged _ _ _ hn]
  · rw [State.slotCharged, State.bit_setBit_self _ _ (by omega)]
  · simp [State.slotCharged, State.showScull, State.setScull]
  · simp [State.slotCharged, State.showScull, State.setScull]
  · ext1 <;> simp [State.slotCharged, State.showScull, State.setScull]

theorem partState_notMem_logRegs {j : Nat} (k : Nat) (hj : j < 8) : Reg.PART_STATE j ∉ logRegs 0 ++ logRegs (1 + k) := by
  unfold Reg.PART_STATE logRegs Reg.LOG_PEND Reg.LOG_BSUPP Reg.LOG_BOVF Reg.LOG_PENDDROP Reg.LOG_IRQ
  simp only [List.mem_append, List.mem_cons, List.not_mem_nil, or_false]
  omega

theorem partIrq_notMem_logRegs {k : Nat} (hk : k ≤ 7) : Reg.PART_IRQ ∉ logRegs 0 ++ logRegs (1 + k) := by
  interval_cases k <;> decide

/-- A log record over a change of registers and Sculls. -/
theorem frame_logged_sculls {s u t : State} (h : u = { s with regs := u.regs, sculls := u.sculls }) (ht : LogFrame u t) :
    t = { s with regs := t.regs, sculls := t.sculls, log := t.log } := by
  rw [h] at ht
  rw [ht]

theorem slotCharged_logged {s u : State} {k n code : Nat} {l : List Byte} {sc : Nat} {x : ScullSt} (hlo : 1 ≤ k) (hhi : k ≤ 7) (hscull : u.scull sc = x)
    (hcrabs : u.crabs k = n) (hirq : u.bit Reg.PART_IRQ (8 + k) = true) (hregs : RegsBut s u [Reg.PART_SCULLST, Reg.PART_STATE (k - 1), Reg.PART_IRQ])
    (hmem : u.mem = s.mem) (hrest : u = { s with regs := u.regs, sculls := u.sculls }) : let t := u.logSK k code l
    t.scull sc = x ∧ t.crabs k = n ∧ t.bit Reg.PART_IRQ (8 + k) = true
      ∧ RegsBut s t ([Reg.PART_SCULLST, Reg.PART_STATE (k - 1), Reg.PART_IRQ] ++ logRegs 0 ++ logRegs (1 + k)) ∧ SameMem s t
      ∧ t = { s with regs := t.regs, sculls := t.sculls, log := t.log } := by
  intro t
  refine ⟨?_, ?_, ?_, ?_, SameMem.of_mem ((State.logSK_mem ..).trans hmem), frame_logged_sculls hrest (u.logSK_eq k code l)⟩
  · rw [State.scull, State.logSK_sculls, ← State.scull, hscull]
  · rw [State.crabs, State.fld_of_rd (State.rd_logSK _ _ _ (partState_notMem_logRegs k (by omega))), ← State.crabs, hcrabs]
  · rw [State.bit_of_rd (State.rd_logSK _ _ _ (partIrq_notMem_logRegs hhi)), hirq]
  · refine (RegsBut.logSK_iff _ _ ?_ ?_).mpr (hregs.mono ?_)
    · exact fun a h => List.mem_append_left _ (List.mem_append_right _ h)
    · exact fun a h => List.mem_append_right _ h
    · exact fun a h => List.mem_append_left _ (List.mem_append_left _ h)

theorem slotEnded_charged {s : State} {sc idx : Nat} (hslot : (s.scull sc).slot = some idx) (hlo : 1 ≤ (s.scull sc).part) (hhi : (s.scull sc).part ≤ 7)
    (hrun : (s.scull sc).yielded = false) (hwait : (s.ctx sc (s.scull sc).part).wait = none) :
    Does (.slotEnd sc) s (fun t =>
      t.scull sc = (s.scull sc).ended ∧ t.crabs (s.scull sc).part = min 3 (s.crabs (s.scull sc).part + 1) ∧ t.bit Reg.PART_IRQ (8 + (s.scull sc).part) = true
        ∧ RegsBut s t ([Reg.PART_SCULLST, Reg.PART_STATE ((s.scull sc).part - 1), Reg.PART_IRQ] ++ logRegs 0 ++ logRegs (1 + (s.scull sc).part))
        ∧ SameMem s t ∧ t = { s with regs := t.regs, sculls := t.sculls, log := t.log }) := by
  obtain ⟨hscull, hcrabs, hirq, hregs, hmem, hrest⟩ := s.slotCharged_shows (n := min 3 (s.crabs (s.scull sc).part + 1)) hhi (by omega)
  refine Does.intro _ rfl ?_
  rw [doSlotEnd_charged hslot hlo hrun hwait]
  exact slotCharged_logged hlo hhi hscull hcrabs hirq hregs hmem hrest

theorem slotEnded_clean {s : State} {sc idx : Nat} (hslot : (s.scull sc).slot = some idx) (hlo : 1 ≤ (s.scull sc).part)
    (hclean : (s.scull sc).yielded = true ∨ (s.ctx sc (s.scull sc).part).wait ≠ none) :
    Does (.slotEnd sc) s (fun t =>
      t.scull sc = (s.scull sc).ended ∧ t.crabs (s.scull sc).part = 0 ∧ RegsBut s t [Reg.PART_SCULLST, Reg.PART_STATE ((s.scull sc).part - 1)] ∧ SameMem s t
        ∧ t = { s with regs := t.regs, sculls := t.sculls }) := by
  refine Does.intro _ rfl ?_
  rw [doSlotEnd_clean hslot hlo hclean]
  refine ⟨?_, State.fld_setFld_self _ _ (by decide), ?_, ?_, ?_⟩
  · rw [State.scull, State.setFld_sculls, ← State.scull, State.scull_showScull, State.scull_setScull]
  · simp [State.showScull, State.setScull]
  · exact SameMem.of_mem (by simp [State.showScull, State.setScull])
  · ext1 <;> simp [State.showScull, State.setScull]

/-! A slot's start -/

/-- A partition put back with its grants. -/
theorem State.grant_setPart (s : State) (k j : Nat) (r : GrantReg) {p : PartSt} (h : p.grants = (s.part k).grants) : (s.setPart k p).grant j r = s.grant j r := by
  have hgrants : ((s.setPart k p).part j).grants = (s.part j).grants := by
    by_cases hj : j = k
    · rw [hj, State.part_setPart, h]
    · rw [State.part_setPart_ne _ _ (Ne.symm hj)]
  exact congrArg (fun l => Tab.get 0 l (GrantReg.idx r)) hgrants

/-- What the delivery of events leaves of Sculls, grants, memory and the non-volatile store. -/
theorem doEventDelivery_keeps (s : State) (sc : Nat) : let t := doEventDelivery s sc
    t.sculls = s.sculls ∧ t.mem = s.mem ∧ t.nv = s.nv ∧ ∀ j r, t.grant j r = s.grant j r := by
  unfold doEventDelivery
  dsimp only
  split
  · exact ⟨rfl, rfl, rfl, fun _ _ => rfl⟩
  · split
    · exact ⟨rfl, rfl, rfl, fun _ _ => rfl⟩
    · split
      · refine ⟨rfl, rfl, rfl, fun j r => ?_⟩
        exact State.grant_setPart _ _ _ _ rfl
      · exact ⟨rfl, rfl, rfl, fun _ _ => rfl⟩


/-- Grants written to every partition of a list: each of the list takes its own, every other keeps what it has. -/
theorem grants_foldl_setPart (f : Nat → List (Nat × Nat)) (l : List Nat) (s : State) (k : Nat) :
    ((l.foldl (fun (s : State) j => s.setPart j { s.part j with grants := f j }) s).part k).grants = if k ∈ l then f k else (s.part k).grants := by
  induction l generalizing s with
  | nil => simp
  | cons j r ih =>
    rw [List.foldl_cons, ih]
    by_cases hj : k = j
    · subst hj
      simp [State.part_setPart]
    · rw [State.part_setPart_ne _ _ (Ne.symm hj)]
      simp [hj]

/-- Puts into the partitions leave the rest of the state. -/
theorem foldl_setPart_frame (f : State → Nat → PartSt) (l : List Nat) (s : State) : let t := l.foldl (fun s j => s.setPart j (f s j)) s
    t = { s with parts := t.parts } := by
  induction l generalizing s with
  | nil => rfl
  | cons j r ih =>
    refine (ih _).trans ?_
    rfl

theorem State.takeGrants_frame (s : State) (k : Nat) : s.takeGrants k = { s with parts := (s.takeGrants k).parts } := foldl_setPart_frame _ _ s

theorem State.grant_takeGrants (s : State) {k : Nat} (hlo : 1 ≤ k) (hhi : k ≤ 7) (r : GrantReg) : (s.takeGrants k).grant k r = s.rdN (grantAddr k r) := by
  have hmem : k ∈ (List.range 7).map (· + 1) := by
    rw [List.mem_map]
    exact ⟨k - 1, List.mem_range.mpr (by omega), by omega⟩
  have hgrants := grants_foldl_setPart (fun j => if j = k then grantRegs.map (fun r => (GrantReg.idx r, s.rdN (grantAddr k r))) else grantRegs.map (fun r =>
    (GrantReg.idx r, s.grant j r - (s.grant j r &&& (s.rdN (grantAddr k r) - (s.rdN (grantAddr k r) &&& grantShared r)))))) ((List.range 7).map (· + 1)) s k
  rw [if_pos hmem, if_pos rfl] at hgrants
  refine (congrArg (fun l => Tab.get 0 l (GrantReg.idx r)) hgrants).trans ?_
  cases r <;> rfl


theorem regs_frame_trans {s t u : State} (h : t = { s with regs := t.regs }) (h' : u = { t with regs := u.regs }) : u = { s with regs := u.regs } := by
  rw [h] at h'
  rw [h']

theorem foldl_regs_frame {α : Type} (f : State → α → State) (hf : ∀ (u : State) x, f u x = { u with regs := (f u x).regs }) (l : List α) (s : State) :
    l.foldl f s = { s with regs := (l.foldl f s).regs } := by
  induction l generalizing s with
  | nil => rfl
  | cons x r ih => exact regs_frame_trans (hf s x) (ih _)

theorem State.zeroWindows_frame (s : State) (sc : Nat) : s.zeroWindows sc = { s with regs := (s.zeroWindows sc).regs } := by
  refine foldl_regs_frame _ (fun u x => ?_) _ s
  exact foldl_regs_frame _ (fun _ _ => rfl) _ _

/-- A Scull's view of the CAN windows lies above the registers that the Cox reaches. -/
theorem rqReg_scull_high (sc a : Nat) : 2 ^ 32 ≤ rqReg (scullRq sc) a := by
  have hidx : 1 ≤ Requester.idx (scullRq sc) := by
    unfold scullRq
    split <;> decide
  rw [rqReg]
  omega

theorem State.rd_zeroWindows (s : State) (sc : Nat) {a : Nat} (h : a < 2 ^ 32) : (s.zeroWindows sc).rd a = s.rd a := by
  have hne (b : Nat) : rqReg (scullRq sc) b ≠ a := by have := rqReg_scull_high sc b; omega
  have hword (l : List Nat) (x : Nat) (u : State) : (l.foldl (fun s i => s.wr (rqReg (scullRq sc) (Reg.CAN_WBUF x i)) 0) u).rd a = u.rd a := by
    induction l generalizing u with
    | nil => rfl
    | cons i r ih => rw [List.foldl_cons, ih, State.rd_wr_ne _ _ (hne _)]
  have hwin (l : List Nat) (u : State) : (l.foldl (fun s x => (List.range 18).foldl (fun s i => s.wr (rqReg (scullRq sc) (Reg.CAN_WBUF x i)) 0)
      (s.wr (rqReg (scullRq sc) (Reg.CAN_WSEL x)) 0)) u).rd a = u.rd a := by
    induction l generalizing u with
    | nil => rfl
    | cons x r ih => rw [List.foldl_cons, ih, hword, State.rd_wr_ne _ _ (hne _)]
  exact hwin _ s

theorem State.pmpOf_of_low {s t : State} {k : Nat} (hk : k ≤ 7) (h : ∀ a, a < 2 ^ 32 → t.rd a = s.rd a) : t.pmpOf k = s.pmpOf k := by
  have hpage (a lo w : Nat) (ha : a < 2 ^ 32) : t.fld a lo w = s.fld a lo w := State.fld_of_rd (h a ha) lo w
  have hlow : Reg.PART_QBASE (k - 1) < 2 ^ 32 ∧ Reg.PART_QSIZE (k - 1) < 2 ^ 32 ∧ Reg.PART_XIPBASE (k - 1) < 2 ^ 32 ∧ Reg.PART_XIPSIZE (k - 1) < 2 ^ 32 := by
    unfold Reg.PART_QBASE Reg.PART_QSIZE Reg.PART_XIPBASE Reg.PART_XIPSIZE
    omega
  obtain ⟨h1, h2, h3, h4⟩ := hlow
  unfold State.pmpOf State.quotaOf
  rw [hpage _ _ _ h1, hpage _ _ _ h2, hpage _ _ _ h3, hpage _ _ _ h4]

/-- The running slot on Sculls, partitions and registers. -/
theorem State.switchTo_shows (s : State) (sc k idx start len : Nat) : let t := s.switchTo sc k idx start len
    t.scull sc = { s.scull sc with slot := some idx, part := k, yielded := false, start := start, len := len, pmp := s.pmpOf k, icache := [], dcache := [] }
      ∧ t.parts = s.parts ∧ t.mem = s.mem ∧ t.nv = s.nv := by
  refine ⟨?_, ?_, ?_, ?_⟩
  · rw [State.switchTo, State.scull_showScull, State.scull_setScull]
  all_goals simp [State.switchTo, State.showScull, State.setScull]

/-- A slot made running with its grants and its windows zeroed. -/
theorem slotSwitched_shows {s u : State} {sc k idx start len : Nat} (hlo : 1 ≤ k) (hhi : k ≤ 7) (hu : u = { s with inForce := u.inForce }) :
    let t := ((u.takeGrants k).zeroWindows sc).switchTo sc k idx start len
    t.scull sc = { s.scull sc with slot := some idx, part := k, yielded := false, start := start, len := len, pmp := s.pmpOf k, icache := [], dcache := [] }
      ∧ (∀ r, t.grant k r = s.rdN (grantAddr k r)) ∧ t.mem = s.mem ∧ t.nv = s.nv := by
  have hregs : u.regs = s.regs := by rw [hu]
  have hsculls : u.sculls = s.sculls := by rw [hu]
  have hmem : u.mem = s.mem := by rw [hu]
  have hnv : u.nv = s.nv := by rw [hu]
  have hgrants (r : GrantReg) : (u.takeGrants k).grant k r = s.rdN (grantAddr k r) := (u.grant_takeGrants hlo hhi r).trans (State.rdN_of_regs hregs _)
  have htake := u.takeGrants_frame k
  generalize u.takeGrants k = v at htake hgrants
  have hvregs : v.regs = s.regs := by rw [htake, ← hregs]
  have hvsculls : v.sculls = s.sculls := by rw [htake, ← hsculls]
  have hvmem : v.mem = s.mem := by rw [htake, ← hmem]
  have hvnv : v.nv = s.nv := by rw [htake, ← hnv]
  have hpmp : (v.zeroWindows sc).pmpOf k = s.pmpOf k :=
    State.pmpOf_of_low hhi (fun a ha => (v.rd_zeroWindows sc ha).trans (State.rd_of_regs hvregs a))
  have hzero := v.zeroWindows_frame sc
  generalize v.zeroWindows sc = w at hzero hpmp
  obtain ⟨h1, h2, h3, h4⟩ := w.switchTo_shows sc k idx start len
  have hwsculls : w.sculls = s.sculls := by rw [hzero, ← hvsculls]
  have hwparts : w.parts = v.parts := by rw [hzero]
  have hwmem : w.mem = s.mem := by rw [hzero, ← hvmem]
  have hwnv : w.nv = s.nv := by rw [hzero, ← hvnv]
  refine ⟨?_, fun r => ?_, h3.trans hwmem, h4.trans hwnv⟩
  · rw [h1, hpmp, State.scull, hwsculls, ← State.scull]
  · rw [State.grant, h2, hwparts, ← State.grant, hgrants]


/-- The partition a slot runs, from its entry of the active bank. -/
def State.slotPart (s : State) (sc idx : Nat) : Nat := s.fld (Reg.PART_SLOTB (slotIdx s.bank sc idx)) 0 3

/-- The grants of a partition as they were confirmed, taken into force at its slot. -/
def State.grantsForced (s : State) (k : Nat) : State :=
  { s with inForce := s.nv.confirmed.filter (fun e => decide (e.1 = (PKey.mk .partGrants k))) ++ s.inForce.filter (fun (e : PKey × PVal) => decide (e.1 ≠ (PKey.mk .partGrants k))) }

/-- A slot made running. -/
def State.slotSwitched (s : State) (sc idx : Nat) : State :=
  (((s.grantsForced (s.slotPart sc idx)).takeGrants (s.slotPart sc idx)).zeroWindows sc).switchTo sc (s.slotPart sc idx) idx
    (s.fld (Reg.PART_SLOTA (slotIdx s.bank sc idx)) 0 15) (s.fld (Reg.PART_SLOTA (slotIdx s.bank sc idx)) 16 15)

theorem doSlotStart_eq {s : State} {sc idx : Nat} (hsc : sc < 4) (hidx : idx < 16) (hvalid : s.bit (Reg.PART_SLOTB (slotIdx s.bank sc idx)) 31 = true)
    (hen : s.bit Reg.PART_CTRL sc = true) (hhalt : s.bit Reg.PART_SCULLST (8 * sc + 4) = false) (hpart : s.slotPart sc idx ≠ 0)
    (hstate : s.partState (s.slotPart sc idx) = pRunning) : doSlotStart s sc idx = s.slotSwitched sc idx
      ∨ doSlotStart s sc idx = doEventDelivery (s.slotSwitched sc idx) sc := by
  have hready : ¬ (4 ≤ sc ∨ 16 ≤ idx ∨ !s.bit (Reg.PART_SLOTB (slotIdx s.bank sc idx)) 31 ∨ !s.bit Reg.PART_CTRL sc ∨ s.bit Reg.PART_SCULLST (8 * sc + 4)) := by
    rw [hvalid, hen, hhalt]
    simp only [Bool.not_true, Bool.false_eq_true, or_false, not_or, Nat.not_le]
    exact ⟨hsc, hidx⟩
  have hruns : ¬ (s.slotPart sc idx = 0 ∨ s.partState (s.slotPart sc idx) ≠ pRunning) := by
    rw [hstate, not_or]
    exact ⟨hpart, fun h => h rfl⟩
  unfold doSlotStart
  dsimp only
  rw [if_neg hready, ← State.slotPart, if_neg hruns, ← State.grantsForced, ← State.slotSwitched]
  split
  · exact .inr rfl
  · exact .inl rfl

theorem slotStarted {s : State} {sc idx : Nat} (hsc : sc < 4) (hidx : idx < 16) (hvalid : s.bit (Reg.PART_SLOTB (slotIdx s.bank sc idx)) 31 = true)
    (hen : s.bit Reg.PART_CTRL sc = true) (hhalt : s.bit Reg.PART_SCULLST (8 * sc + 4) = false) (hpart : s.slotPart sc idx ≠ 0)
    (hstate : s.partState (s.slotPart sc idx) = pRunning) :
    Does (.slotStart sc idx) s (fun t =>
      t.scull sc = { s.scull sc with
          slot := some idx, part := s.slotPart sc idx, yielded := false,
          start := s.fld (Reg.PART_SLOTA (slotIdx s.bank sc idx)) 0 15, len := s.fld (Reg.PART_SLOTA (slotIdx s.bank sc idx)) 16 15,
          pmp := s.pmpOf (s.slotPart sc idx), icache := [], dcache := [] }
        ∧ (∀ r, t.grant (t.scull sc).part r = s.rdN (grantAddr (t.scull sc).part r)) ∧ SameMem s t ∧ t.nv = s.nv) := by
  have hhi : s.slotPart sc idx ≤ 7 := Nat.le_of_lt_succ (State.fld_lt s _ 0 3)
  obtain ⟨hscull, hgrant, hmem, hnv⟩ := slotSwitched_shows (s := s) (u := s.grantsForced (s.slotPart sc idx)) (sc := sc) (idx := idx)
    (start := s.fld (Reg.PART_SLOTA (slotIdx s.bank sc idx)) 0 15) (len := s.fld (Reg.PART_SLOTA (slotIdx s.bank sc idx)) 16 15)
    (Nat.one_le_iff_ne_zero.mpr hpart) hhi rfl
  rw [← State.slotSwitched] at hscull hgrant hmem hnv
  obtain h | h := doSlotStart_eq hsc hidx hvalid hen hhalt hpart hstate
  · refine ⟨_, congrArg Host.Outcome.next h, hscull, fun r => ?_, SameMem.of_mem hmem, hnv⟩
    rw [hscull]
    exact hgrant r
  · obtain ⟨ksculls, kmem, knv, kgrant⟩ := doEventDelivery_keeps (s.slotSwitched sc idx) sc
    have kscull : (doEventDelivery (s.slotSwitched sc idx) sc).scull sc = (s.slotSwitched sc idx).scull sc := by rw [State.scull, ksculls, ← State.scull]
    refine ⟨_, congrArg Host.Outcome.next h, kscull.trans hscull, fun r => ?_, SameMem.of_mem (kmem.trans hmem), knv.trans hnv⟩
    rw [kgrant, kscull, hscull]
    exact hgrant r


theorem slotsAndSculls_holds : slotsAndSculls := by
  refine ⟨?_, ?_, ?_, ?_, ?_⟩
  · intro s sc idx hsc hidx hvalid hen hhalt hpart hstate
    exact slotStarted hsc hidx hvalid hen hhalt hpart hstate
  · intro s sc idx hslot _ hlo _ hclean
    exact slotEnded_clean hslot hlo hclean
  · intro s sc idx hslot _ hlo hhi hrun hwait
    exact slotEnded_charged hslot hlo hhi hrun hwait
  · intro s hawake
    exact Does.byRequester hawake rfl rfl
  · intro s mask hawake
    refine Does.byRequester hawake rfl ⟨fun b hb => ?_, ?_, SameMem.of_mem rfl, rfl⟩
    · rw [doScullEnable, State.bit_orReg _ _ _ _ hb, show (16 : Nat) = 2 ^ 4 from rfl, Nat.testBit_mod_two_pow]
    · simp [doScullEnable]

/-! Grants -/

/-- A write of grants as the partition manager judges it: the bits written, of them those of Camlan, and those another partition holds alone. -/
theorem doGrantWrite_eq (s : State) {k : Nat} (hlo : 1 ≤ k) (hhi : k ≤ 7) (r : GrantReg) (v : Word) : doGrantWrite s k r v =
    if ((v.toNat &&& grantBitsOf r) &&& grantCamlan r) ||| ((v.toNat &&& grantBitsOf r) &&&
      (((List.range 7).map (· + 1)).foldl (fun m j => if j = k then m else m ||| s.rdN (grantAddr j r)) 0
        - (((List.range 7).map (· + 1)).foldl (fun m j => if j = k then m else m ||| s.rdN (grantAddr j r)) 0 &&& grantShared r))) ≠ 0
    then s.setBit Reg.PART_CTRL 10 true else s.wrN (grantAddr k r) (v.toNat &&& grantBitsOf r) := by
  rw [doGrantWrite, if_neg (by omega)]

/-- A bit of what the other partitions hold. -/
theorem testBit_foldl_or (l : List Nat) (k b m : Nat) (f : Nat → Nat) :
    (l.foldl (fun m j => if j = k then m else m ||| f j) m).testBit b = (m.testBit b || l.any (fun j => decide (j ≠ k) && (f j).testBit b)) := by
  induction l generalizing m with
  | nil => simp
  | cons j r ih =>
    rw [List.foldl_cons, ih, List.any_cons]
    by_cases hj : j = k
    · simp [hj]
    · simp [hj, Nat.testBit_or, Bool.or_assoc]

theorem grantSet_GERR (s : State) : (s.setBit Reg.PART_CTRL 10 true).bit Reg.PART_CTRL 10 = true ∧ OnlyRegs s (s.setBit Reg.PART_CTRL 10 true) [Reg.PART_CTRL] :=
  ⟨State.bit_setBit_self _ _ (by decide), by simp, SameMem.of_mem (State.setBit_mem ..), rfl⟩

/-- What the other partitions hold shares no bit with a value that none of them holds. -/
theorem others_disjoint {k v : Nat} {f : Nat → Nat} (h : ∀ j, 1 ≤ j → j ≤ 7 → j ≠ k → f j &&& v = 0) :
    v &&& ((List.range 7).map (· + 1)).foldl (fun m j => if j = k then m else m ||| f j) 0 = 0 := by
  refine Nat.eq_of_testBit_eq fun b => ?_
  rw [Nat.testBit_and, testBit_foldl_or, Nat.zero_testBit, Bool.false_or]
  by_contra hbit
  simp only [Bool.not_eq_false, Bool.and_eq_true, List.any_eq_true, List.mem_map, List.mem_range, decide_eq_true_eq] at hbit
  obtain ⟨hv, j, ⟨i, hi, rfl⟩, hne, hf⟩ := hbit
  have := congrArg (fun n => n.testBit b) (h (i + 1) (by omega) (by omega) hne)
  simp [hv, hf] at this

theorem others_hold {k j v : Nat} {f : Nat → Nat} (hlo : 1 ≤ j) (hhi : j ≤ 7) (hne : j ≠ k) (h : f j &&& v ≠ 0) :
    v &&& ((List.range 7).map (· + 1)).foldl (fun m j => if j = k then m else m ||| f j) 0 ≠ 0 := by
  intro hzero
  obtain ⟨b, hb⟩ := Nat.exists_testBit_of_ne_zero h
  rw [Nat.testBit_and, Bool.and_eq_true] at hb
  have hbit := congrArg (fun n => n.testBit b) hzero
  simp only [Nat.testBit_and, hb.2, Bool.true_and, testBit_foldl_or, Nat.zero_testBit, Bool.false_or, List.any_eq_false, List.mem_map, List.mem_range] at hbit
  exact hbit j ⟨j - 1, by omega, by omega⟩ (by simp [hne, hb.1])

theorem land_word (v : Word) : v.toNat &&& (2 ^ 32 - 1) = v.toNat := by
  rw [Nat.and_two_pow_sub_one_eq_mod]
  exact Nat.mod_eq_of_lt v.isLt


theorem grantAddr_gpio_written {s : State} {k : Nat} {v : Word} (hawake : s.awake = true) (hlo : 1 ≤ k) (hhi : k ≤ 7)
    (hfree : ∀ j, 1 ≤ j → j ≤ 7 → j ≠ k → s.rdN (Reg.PART_GR_GPIO (j - 1)) &&& v.toNat = 0) :
    Does (.grantWrite k .gpio v) s (fun t => t.rd (Reg.PART_GR_GPIO (k - 1)) = v ∧ OnlyRegs s t [Reg.PART_GR_GPIO (k - 1)]) := by
  have hgood : doGrantWrite s k .gpio v = s.wrN (grantAddr k .gpio) v.toNat := by
    have hdis := others_disjoint hfree
    have hbits : v.toNat &&& grantBitsOf .gpio = v.toNat := land_word v
    rw [doGrantWrite_eq s hlo hhi, hbits, if_neg]
    simp only [grantCamlan, grantShared, grantAddr, Nat.and_zero, Nat.sub_zero, Nat.zero_or, hdis, ne_eq, not_true, not_false_eq_true]
  refine Does.byRequester hawake (congrArg (fun t => Host.Outcome.next (s.byRequester t)) hgood) ⟨?_, ?_, SameMem.of_mem (State.wrN_mem ..), rfl⟩
  · refine (State.rd_wr_self s _ _).trans ?_
    exact BitVec.ofNat_toNat 32 v
  · simp [grantAddr]

/-- Of the MISC grants the bits of 0x0F exclude one another, bit 4 is shared. -/
theorem misc_exclusive (v m : Nat) : v % 32 &&& (m - (m &&& 16)) = v &&& 0xF &&& m := by
  have hsmall : ∀ a < 32, ∀ b < 32, a &&& (b - (b &&& 16)) = a &&& 15 &&& b := by decide
  have hm : m &&& 16 = m % 32 &&& 16 := by
    have h : (m &&& 16) % 32 = m % 32 &&& 16 := Nat.and_mod_two_pow (n := 5)
    have hle : m &&& 16 ≤ 16 := Nat.and_le_right
    omega
  have hsub : m % 32 &&& 16 ≤ m % 32 := Nat.and_le_left
  have hleft : v % 32 &&& (m - (m &&& 16)) = v % 32 &&& (m % 32 - (m % 32 &&& 16)) := by
    have hcut : (v % 32 &&& (m - (m &&& 16))) % 2 ^ 5 = v % 32 % 2 ^ 5 &&& (m - (m &&& 16)) % 2 ^ 5 := Nat.and_mod_two_pow
    have hle : v % 32 &&& (m - (m &&& 16)) ≤ v % 32 := Nat.and_le_left
    have hmod : (m - (m &&& 16)) % 2 ^ 5 = m % 32 - (m % 32 &&& 16) := by omega
    rw [hmod, Nat.mod_eq_of_lt (by omega), show v % 32 % 2 ^ 5 = v % 32 by omega] at hcut
    exact hcut
  have hright : v &&& 0xF &&& m = v % 32 &&& 15 &&& m % 32 := by
    have hcut : (v &&& 15 &&& m) % 2 ^ 5 = v % 2 ^ 5 &&& 15 &&& m % 2 ^ 5 := by rw [Nat.and_mod_two_pow, Nat.and_mod_two_pow]
    have hle : v &&& 15 &&& m ≤ 15 := Nat.and_le_left.trans Nat.and_le_right
    rw [Nat.mod_eq_of_lt (by omega)] at hcut
    exact hcut
  rw [hleft, hright, hsmall _ (by omega) _ (by omega)]

theorem grantAddr_misc_written {s : State} {k : Nat} {v : Word} (hawake : s.awake = true) (hlo : 1 ≤ k) (hhi : k ≤ 7)
    (hfree : ∀ j, 1 ≤ j → j ≤ 7 → j ≠ k → s.rdN (Reg.PART_GR_MISC (j - 1)) &&& (v.toNat &&& 0xF) = 0) :
    Does (.grantWrite k .misc v) s (fun t => t.rdN (Reg.PART_GR_MISC (k - 1)) = v.toNat % 32 ∧ OnlyRegs s t [Reg.PART_GR_MISC (k - 1)]) := by
  have hgood : doGrantWrite s k .misc v = s.wrN (grantAddr k .misc) (v.toNat % 32) := by
    have hdis := others_disjoint hfree
    have hbits : v.toNat &&& grantBitsOf .misc = v.toNat % 32 := Nat.and_two_pow_sub_one_eq_mod v.toNat 5
    rw [doGrantWrite_eq s hlo hhi, hbits, if_neg]
    simp only [grantCamlan, grantShared, grantAddr, Nat.and_zero, Nat.zero_or, misc_exclusive, hdis, ne_eq, not_true, not_false_eq_true]
  refine Does.byRequester hawake (congrArg (fun t => Host.Outcome.next (s.byRequester t)) hgood) ⟨?_, ?_, SameMem.of_mem (State.wrN_mem ..), rfl⟩
  · rw [grantAddr, State.rdN_wrN_self]
    omega
  · simp [grantAddr]

theorem grant_refused {s : State} {k : Nat} {r : GrantReg} {v : Word} (hawake : s.awake = true) (hlo : 1 ≤ k) (hhi : k ≤ 7)
    (hbad : v.toNat &&& grantBitsOf r &&& grantCamlan r ≠ 0 ∨ v.toNat &&& grantBitsOf r &&&
      (((List.range 7).map (· + 1)).foldl (fun m j => if j = k then m else m ||| s.rdN (grantAddr j r)) 0
        - (((List.range 7).map (· + 1)).foldl (fun m j => if j = k then m else m ||| s.rdN (grantAddr j r)) 0 &&& grantShared r)) ≠ 0) :
    Does (.grantWrite k r v) s (fun t => t.bit Reg.PART_CTRL 10 = true ∧ OnlyRegs s t [Reg.PART_CTRL]) := by
  refine Does.byRequester hawake (congrArg (fun t => Host.Outcome.next (s.byRequester t)) ((doGrantWrite_eq s hlo hhi r v).trans (if_pos ?_))) (grantSet_GERR s)
  rw [Ne, Nat.or_eq_zero_iff, not_and_or]
  exact hbad


/-! The faults of a tenant -/

theorem accessFault {s : State} {sc k a mepc : Nat} {acc : Access} (hon : s.tenantOn sc = some k) (hno : s.pmpPermits sc acc a = false) :
    exec (.partitionFault sc (.access acc a mepc)) s = .next ((s.refusedRecord sc k false (Access.isWrite acc) a).partFault k 0x02 (Access.mcause acc) mepc a) := by
  change Host.Outcome.next (doPartitionFault s sc (.access acc a mepc)) = _
  rw [doPartitionFault, hon]
  dsimp only
  rw [State.tenantAccess, hno]
  rfl

theorem exceptionFault {s : State} {sc k mcause mepc mtval : Nat} (hon : s.tenantOn sc = some k) (hcall : mcause ≠ 8) :
    exec (.partitionFault sc (.exception mcause mepc mtval)) s
      = .next (s.partFault k (if mcause = 1 ∨ mcause = 5 ∨ mcause = 7 then 0x02 else 0x03) mcause mepc mtval) := by
  change Host.Outcome.next (doPartitionFault s sc (.exception mcause mepc mtval)) = _
  rw [doPartitionFault, hon]
  dsimp only
  rw [if_neg hcall]

theorem crabLimit_suspends {s : State} {k : Nat} (hlo : 1 ≤ k) (hhi : k ≤ 7) (hrun : s.partState k = pRunning) (h3 : 3 ≤ s.crabs k) :
    exec (.tenantCrabLimit k) s = .next (s.suspend k 0x01) :=
  congrArg Host.Outcome.next (if_pos ⟨hlo, hhi, hrun, h3⟩)

theorem crabLimit_waits {s : State} {k : Nat} (h3 : s.crabs k < 3) : exec (.tenantCrabLimit k) s = .next s :=
  congrArg Host.Outcome.next (if_neg (fun h => by omega))

/-- A Scull put out of use, with its record. -/
def State.scullHalted (s : State) (sc mcause : Nat) : State := (s.setBit Reg.PART_SCULLST (8 * sc + 4) true).logS 0x0406 (u8 sc ++ u32 mcause)

theorem State.slotParts_scullHalted (s : State) {sc : Nat} (mcause : Nat) (hsc : sc < 4) : (s.scullHalted sc mcause).slotParts sc = s.slotParts sc := by
  have hfix (a : Nat) (h1 : Reg.PART_SCULLST ≠ a) (h2 : a ∉ logRegs 0) : (s.scullHalted sc mcause).rd a = s.rd a := by
    rw [State.scullHalted, State.rd_logS _ _ _ h2, State.rd_setBit_ne _ _ _ h1]
  have hslot (e : Nat) (he : e ∈ List.range 16) : (s.scullHalted sc mcause).rd (Reg.PART_SLOTB (slotIdx s.bank sc e)) = s.rd (Reg.PART_SLOTB (slotIdx s.bank sc e)) := by
    have hbank : s.bank < 2 := State.fld_lt s _ 9 1
    have hidx : slotIdx s.bank sc e < 128 := by
      have := List.mem_range.mp he
      unfold slotIdx
      omega
    refine hfix _ ?_ ?_
    · unfold Reg.PART_SCULLST Reg.PART_SLOTB
      omega
    · unfold Reg.PART_SLOTB logRegs Reg.LOG_PEND Reg.LOG_BSUPP Reg.LOG_BOVF Reg.LOG_PENDDROP Reg.LOG_IRQ
      simp only [List.mem_cons, List.not_mem_nil, or_false]
      omega
  have hbank : (s.scullHalted sc mcause).bank = s.bank := State.fld_of_rd (hfix _ (by decide) (by decide)) _ _
  unfold State.slotParts
  rw [hbank, List.filter_congr (fun e he => State.bit_of_rd (hslot e he) 31)]
  exact List.map_congr_left (fun e he => State.fld_of_rd (hslot e (List.mem_of_mem_filter he)) 0 3)

theorem foldl_id {α β : Type} (f : α → β → α) (s : α) (l : List β) (h : ∀ x, f s x = s) : l.foldl f s = s := by
  induction l with
  | nil => rfl
  | cons x r ih => rw [List.foldl_cons, h, ih]

theorem scullFault_alone {s : State} {sc mcause : Nat} (hsc : sc < 4) (hfree : s.bit Reg.PART_SCULLST (8 * sc + 4) = false) (hslots : s.slotParts sc = []) :
    Does (.scullFault sc mcause) s (fun t => t.bit Reg.PART_SCULLST (8 * sc + 4) = true ∧ OnlyRegsLog s t [Reg.PART_SCULLST]) := by
  have hdone : doScullFault s sc mcause = s.scullHalted sc mcause := by
    rw [doScullFault, hfree, if_neg (by rw [not_or]; exact ⟨Nat.not_le.mpr hsc, Bool.false_ne_true⟩)]
    refine foldl_id _ _ _ fun k => ?_
    rw [← State.scullHalted, State.slotParts_scullHalted _ _ hsc, hslots]
    rfl
  refine ⟨_, congrArg Host.Outcome.next hdone, ?_, ?_, SameMem.of_mem ?_, ?_⟩
  · rw [State.scullHalted, State.bit_of_rd (State.rd_logS _ _ _ (by decide)), State.bit_setBit_self _ _ (by omega)]
  · simp [State.scullHalted]
  · simp [State.scullHalted]
  · exact LogFrame.trans rfl (State.logIn_eq (s.setBit Reg.PART_SCULLST (8 * sc + 4) true) 0 0x0406 0 (u8 sc ++ u32 mcause))

/-- A partition set up again. -/
theorem State.initPart_shows (s : State) (k : Nat) : let t := s.initPart k
    t.partState k = pRunning ∧ t.crabs k = 0 ∧ (t.part k).resumes = (s.part k).resumes ∧ t.nv = s.nv := by
  have hctx (l : List Nat) (u : State) : (l.foldl (fun s sc => s.setCtx sc k Ctx.init) u).parts = u.parts
      ∧ (l.foldl (fun s sc => s.setCtx sc k Ctx.init) u).nv = u.nv := by
    induction l generalizing u with
    | nil => exact ⟨rfl, rfl⟩
    | cons x r ih => exact ⟨(ih _).1, (ih _).2⟩
  refine ⟨?_, ?_, ?_, ?_⟩
  · rw [State.initPart]
    dsimp only
    rw [State.partState, State.fld_setFld_self _ _ (by decide)]
    rfl
  · rw [State.initPart]
    dsimp only
    rw [State.crabs, State.fld_setFld_other _ _ (by decide) (by decide), State.fld_setFld_self _ _ (by decide), Nat.zero_mod]
  · rw [State.initPart]
    dsimp only
    rw [State.part_of_parts (State.setFld_parts ..), State.part_of_parts (State.setFld_parts ..), State.part_setPart]
    dsimp only
    rw [State.part_of_parts (hctx _ _).1, State.part_of_parts (State.wrBytes_parts ..)]
    rfl
  · rw [State.initPart]
    dsimp only
    rw [State.setFld_nv, State.setFld_nv]
    exact (hctx _ _).2.trans (State.wrBytes_nv ..)

theorem State.loadWindow_shows (s : State) (k : Nat) : let t := s.loadWindow k
    t.rd (Reg.PART_STATE (k - 1)) = s.rd (Reg.PART_STATE (k - 1)) ∧ t.parts = s.parts ∧ t.nv = s.nv := by
  have h1 : Reg.QP_WIN_BASE (k - 1) ≠ Reg.PART_STATE (k - 1) := by unfold Reg.QP_WIN_BASE Reg.PART_STATE; omega
  have h2 : Reg.QP_WIN_SIZE (k - 1) ≠ Reg.PART_STATE (k - 1) := by unfold Reg.QP_WIN_SIZE Reg.PART_STATE; omega
  have h3 : Reg.QP_WIN_VER (k - 1) ≠ Reg.PART_STATE (k - 1) := by unfold Reg.QP_WIN_VER Reg.PART_STATE; omega
  have h4 : Reg.QP_WIN_EN (k - 1) ≠ Reg.PART_STATE (k - 1) := by unfold Reg.QP_WIN_EN Reg.PART_STATE; omega
  refine ⟨?_, ?_, ?_⟩
  · rw [State.loadWindow]
    rw [State.rd_setBit_ne _ _ _ h4, State.rd_wrN_ne _ _ h3, State.rd_wrN_ne _ _ h2, State.rd_wrN_ne _ _ h1]
  all_goals simp [State.loadWindow]

theorem State.resumePart_shows (s : State) {k : Nat} (hhi : k ≤ 7) (how : Nat) : let t := s.resumePart k how
    t.partState k = pRunning ∧ t.partCause k = 0 ∧ t.crabs k = 0 ∧ (t.part k).resumes = (s.part k).resumes ∧ t.nv = s.nv := by
  obtain ⟨hstate, hcrabs, hresumes, hnv⟩ := s.initPart_shows k
  rw [State.resumePart]
  generalize s.initPart k = u at hstate hcrabs hresumes hnv
  obtain ⟨hpage, hparts, hnv'⟩ := (u.setFld (Reg.PART_STATE (k - 1)) 8 8 0).loadWindow_shows k
  generalize (u.setFld (Reg.PART_STATE (k - 1)) 8 8 0).loadWindow k = v at hpage hparts hnv'
  have hlog := (State.rd_logSK v 0x0404 (u8 k ++ u8 how) (partState_notMem_logRegs (j := k - 1) k (by omega))).trans hpage
  refine ⟨?_, ?_, ?_, ?_, ?_⟩
  · rw [State.partState, State.fld_of_rd hlog, State.fld_setFld_other _ _ (by decide) (by decide), ← State.partState, hstate]
  · rw [State.partCause, State.fld_of_rd hlog, State.fld_setFld_self _ _ (by decide), Nat.zero_mod]
  · rw [State.crabs, State.fld_of_rd hlog, State.fld_setFld_other _ _ (by decide) (by decide), ← State.crabs, hcrabs]
  · rw [State.part_of_parts (State.logSK_parts ..), State.part_of_parts hparts, State.part_of_parts (State.setFld_parts ..), hresumes]
  · rw [State.logSK_nv, hnv', State.setFld_nv, hnv]

theorem autoResumed {s : State} {k : Nat} (hlo : 1 ≤ k) (hhi : k ≤ 7) (hstate : s.partState k = pSuspended) (hcause : 1 ≤ s.partCause k) (hcause' : s.partCause k ≤ 4)
    (hon : s.parI .partitionAutoresume ≠ 0) (hroom : (within s.clock hours24 (s.part k).resumes).length < s.parI .partitionAutoresumeMax) :
    Does (.autoResume k) s (fun t =>
      t.partState k = pRunning ∧ t.partCause k = 0 ∧ t.crabs k = 0 ∧ (t.part k).resumes = within s.clock hours24 (s.part k).resumes ++ [s.clock] ∧ t.nv = s.nv) := by
  refine ⟨_, congrArg Host.Outcome.next (if_pos ⟨hlo, hhi, hstate, hcause, hcause', hon, hroom⟩), ?_⟩
  dsimp only
  obtain ⟨h1, h2, h3, h4, h5⟩ := State.resumePart_shows ((s.setPart k { s.part k with resumes := within s.clock hours24 (s.part k).resumes ++ [s.clock] }).setFld
    (Reg.PART_STATE (k - 1)) 24 8 ((within s.clock hours24 (s.part k).resumes).length + 1)) hhi 1
  refine ⟨h1, h2, h3, h4.trans ?_, h5.trans (State.setFld_nv ..)⟩
  rw [State.part_of_parts (State.setFld_parts ..), State.part_setPart]

theorem grantsAndFaults_holds : grantsAndFaults := by
  refine ⟨?_, ?_, ?_, ?_, ?_, ?_, ?_, ?_, ?_, ?_⟩
  · intro s k v hawake hlo hhi hfree
    exact grantAddr_gpio_written hawake hlo hhi hfree
  · intro s k v hawake hlo hhi hfree
    exact grantAddr_misc_written hawake hlo hhi hfree
  · intro s k j v hawake hlo hhi hlo' hhi' hne hheld
    refine grant_refused hawake hlo hhi (.inr ?_)
    have hbits : v.toNat &&& grantBitsOf .gpio = v.toNat := land_word v
    rw [hbits]
    simp only [grantShared, Nat.and_zero, Nat.sub_zero]
    exact others_hold hlo' hhi' hne hheld
  · intro s k r v hawake hlo hhi hcamlan
    exact grant_refused hawake hlo hhi (.inl hcamlan)
  · intro s k hlo hhi hrun h3
    exact crabLimit_suspends hlo hhi hrun h3
  · intro s k h3
    exact crabLimit_waits h3
  · intro s sc k mcause mepc mtval hon hcall
    exact exceptionFault hon hcall
  · intro s sc k a mepc acc hon hno
    exact accessFault hon hno
  · intro s sc mcause hsc hfree hslots
    exact scullFault_alone hsc hfree hslots
  · intro s k hlo hhi hstate hcause hcause' hon hroom
    exact autoResumed hlo hhi hstate hcause hcause' hon hroom

/-- Settles O19: slots and Sculls, grants, and the faults of a tenant, clause by clause. -/
theorem slotsGrantsAndFaults : Obligations.SlotsGrantsAndFaults := ⟨slotsAndSculls_holds, grantsAndFaults_holds⟩

end Sys2Proof.Machine
end

section
/-!
PROOFS. The security engine (R405, R408, Table 19-4). They settle O59.
-/

namespace Sys2Proof.Machine

/-- An operation started: the registers as they stand, FUNC and BUSY shown. -/
def State.secStarted (s : State) (f : Nat) : State :=
  { (s.setFld Reg.SEC_OP 0 3 f).setBit Reg.SEC_STAT 3 true with
    sec := { s.sec with op := some (f, s.fld Reg.SEC_OP 8 8, s.rdN Reg.SEC_SRC, s.rdN Reg.SEC_DST, s.fld Reg.SEC_LEN 0 16, s.fld Reg.SEC_LEN 16 16) } }

theorem State.secStart_starts {s : State} (f : Nat) (hawake : s.awake = true) (hen : s.bit Reg.SEC_CTRL 0 = true) (hbusy : s.bit Reg.SEC_STAT 3 = false) :
    s.secStart f = s.secStarted f := by
  have hkey : ((s.setFld Reg.SEC_OP 0 3 f).setBit Reg.SEC_STAT 3 true).fld Reg.SEC_OP 8 8 = s.fld Reg.SEC_OP 8 8 := by
    rw [State.fld_setBit_ne _ _ _ _ _ (by decide), State.fld_setFld_other _ _ (by decide) (by decide)]
  have hrest (a : Nat) (h1 : Reg.SEC_OP ≠ a) (h2 : Reg.SEC_STAT ≠ a) : ((s.setFld Reg.SEC_OP 0 3 f).setBit Reg.SEC_STAT 3 true).rd a = s.rd a := by
    rw [State.rd_setBit_ne _ _ _ h2, State.rd_setFld_ne _ _ _ _ h1]
  have hgo : (!s.awake || !s.bit Reg.SEC_CTRL 0 || s.bit Reg.SEC_STAT 3) = false := by rw [hawake, hen, hbusy]; rfl
  unfold State.secStart
  rw [hgo, if_neg Bool.false_ne_true]
  dsimp only
  rw [hkey, State.rdN_of_rd (hrest _ (by decide) (by decide)), State.rdN_of_rd (hrest _ (by decide) (by decide)),
    State.fld_of_rd (hrest Reg.SEC_LEN (by decide) (by decide)), State.fld_of_rd (hrest Reg.SEC_LEN (by decide) (by decide))]
  rfl

theorem State.secStart_waits {s : State} (f : Nat) (h : s.awake = false ∨ s.bit Reg.SEC_CTRL 0 = false ∨ s.bit Reg.SEC_STAT 3 = true) : s.secStart f = s := by
  have hidle : (!s.awake || !s.bit Reg.SEC_CTRL 0 || s.bit Reg.SEC_STAT 3) = true := by
    obtain h | h | h := h <;> rw [h] <;> simp
  unfold State.secStart
  rw [if_pos hidle]

theorem State.secStarted_shows (s : State) {f : Nat} (hf : f < 8) : (s.secStarted f).bit Reg.SEC_STAT 3 = true ∧ (s.secStarted f).fld Reg.SEC_OP 0 3 = f
    ∧ RegsBut s (s.secStarted f) [Reg.SEC_OP, Reg.SEC_STAT] ∧ SameMem s (s.secStarted f) := by
  refine ⟨?_, ?_, ?_, SameMem.of_mem (by simp [State.secStarted])⟩
  · rw [State.secStarted, State.bit_mk, State.bit_setBit_self _ _ (by decide)]
  · rw [State.secStarted, State.fld_mk, State.fld_setBit_ne _ _ _ _ _ (by decide), State.fld_setFld_self _ _ (by decide)]
    exact Nat.mod_eq_of_lt hf
  · have h : RegsBut s ((s.setFld Reg.SEC_OP 0 3 f).setBit Reg.SEC_STAT 3 true) [Reg.SEC_OP, Reg.SEC_STAT] := by simp
    exact h

/-- What the end of an operation leaves before its result: BUSY clear and no operation. -/
def State.secEnded (s : State) : State := { ((s.setBit Reg.SEC_STAT 3 false).free.2) with sec := { s.sec with op := none } }

theorem State.secEnded_shows (s : State) : s.secEnded.bit Reg.SEC_STAT 3 = false ∧ RegsBut s s.secEnded [Reg.SEC_STAT] ∧ s.secEnded.mem = s.mem := by
  have hregs : RegsBut s (s.setBit Reg.SEC_STAT 3 false) [Reg.SEC_STAT] := by simp
  refine ⟨?_, hregs, ?_⟩
  · exact (State.bit_of_regs (s := s.setBit Reg.SEC_STAT 3 false) rfl _ _).trans (State.bit_setBit_self _ _ (by decide))
  · exact State.setBit_mem s Reg.SEC_STAT 3 false

theorem doSecOperationDone_none {s : State} {ok : Bool} (h : s.sec.op = none) : doSecOperationDone s ok = s := by
  unfold doSecOperationDone
  rw [h]

theorem doSecOperationDone_stores {s : State} {f key src dst len aux : Nat} (h : s.sec.op = some (f, key, src, dst, len, aux))
    (hstore : (s.secResult f key src len).isEmpty || secStores dst (s.secResult f key src len).length) :
    doSecOperationDone s true = (s.secEnded.wrBytes dst (s.secResult f key src len)).setBit Reg.SEC_IRQ 0 true := by
  unfold doSecOperationDone
  rw [h]
  dsimp only
  rw [hstore]
  rfl

theorem doSecOperationDone_fails {s : State} {f key src dst len aux : Nat} (h : s.sec.op = some (f, key, src, dst, len, aux)) :
    doSecOperationDone s false = s.secEnded.secFail := by
  unfold doSecOperationDone
  rw [h]
  rfl

theorem State.secStored_shows (s : State) (dst : Nat) (r : List Byte) : let t := (s.secEnded.wrBytes dst r).setBit Reg.SEC_IRQ 0 true
    t.sec = { s.sec with op := none } ∧ t.bit Reg.SEC_STAT 3 = false ∧ t.bit Reg.SEC_IRQ 0 = true ∧ t.mem = (s.secEnded.wrBytes dst r).mem
      ∧ RegsBut s t [Reg.SEC_STAT, Reg.SEC_IRQ] := by
  obtain ⟨hbusy, hregs, _⟩ := s.secEnded_shows
  have hsec : s.secEnded.sec = { s.sec with op := none } := rfl
  generalize s.secEnded = u at hbusy hregs hsec
  refine ⟨?_, ?_, State.bit_setBit_self _ _ (by decide), State.setBit_mem .., ?_⟩
  · rw [State.setBit_sec, State.wrBytes_sec, hsec]
  · rw [State.bit_setBit_ne _ _ _ _ (by decide), State.bit_of_rd (State.rd_wrBytes ..), hbusy]
  · simp only [RegsBut.setBit_iff, List.mem_cons, true_or, or_true]
    intro a ha
    rw [State.rd_wrBytes]
    exact hregs a (fun h => ha (List.mem_append_left [Reg.SEC_IRQ] h))

/-- A key slot and the other keys after a put. -/
theorem State.secKey_putKey_self (s : State) (slot : Nat) (key : List Byte) : (s.putKey slot key).secKey slot = key := by
  have hfind : (s.putKey slot key).sec.keys.find? (fun e => decide (e.1 = slot)) = some (slot, key) := by
    rw [State.putKey, List.find?_append, List.find?_eq_none.mpr]
    · simp
    · intro e he
      simpa using (List.mem_filter.mp he).2
  unfold State.secKey
  rw [hfind]

theorem State.secKey_putKey_ne (s : State) {slot m : Nat} (key : List Byte) (h : m ≠ slot) : (s.putKey slot key).secKey m = s.secKey m := by
  have hfind : (s.putKey slot key).sec.keys.find? (fun e => decide (e.1 = m)) = s.sec.keys.find? (fun e => decide (e.1 = m)) := by
    rw [State.putKey, List.find?_append, List.find?_filter]
    have hnone : [(slot, key)].find? (fun e => decide (e.1 = m)) = none := by simp [Ne.symm h]
    rw [hnone, Option.or_none]
    refine congrFun (congrArg _ (funext fun e => ?_)) _
    by_cases he : e.1 = m <;> simp [he, h]
  unfold State.secKey
  rw [hfind]
  rfl

/-- A key put into a slot, with the registers and memory that stand. -/
theorem State.putKey_shows (s : State) (slot : Nat) (key : List Byte) : let t := s.putKey slot key
    t.secKey slot = key ∧ (∀ m, m ≠ slot → t.secKey m = s.secKey m) ∧ RegsBut s t [] ∧ SameMem s t :=
  ⟨s.secKey_putKey_self slot key, fun _ h => s.secKey_putKey_ne key h, fun _ _ => rfl, fun _ => rfl⟩

theorem keyLoaded {s : State} {slot : Nat} (hawake : s.awake = true) (hen : s.bit Reg.SEC_CTRL 0 = true) (hslot : slot < 130) :
    Does (.secKeyLoad slot) s (fun t => t.secKey slot = s.rdBytes (s.rdN Reg.SEC_DST) 16 ∧ (∀ m, m ≠ slot → t.secKey m = s.secKey m) ∧ RegsBut s t [] ∧ SameMem s t) := by
  have hdone : doSecKeyLoad s slot = s.putKey slot (s.rdBytes (s.rdN Reg.SEC_DST) 16) := by
    refine if_neg ?_
    rw [hawake, hen]
    simp [hslot]
  exact ⟨_, congrArg Host.Outcome.next hdone, s.putKey_shows slot _⟩

/-- The state after n free values. -/
def State.drawn (s : State) (n : Nat) : State := { s with freeCtr := s.freeCtr + n }

theorem State.free_snd (s : State) : s.free.2 = s.drawn 1 := rfl

theorem State.free_drawn (s : State) (n : Nat) : (s.drawn n).free.2 = s.drawn (n + 1) := rfl

/-- The four random words of a key, and the state that drew them. -/
theorem doSecKeyGenerate_draws {s : State} {slot : Nat} (hawake : s.awake = true) (hen : s.bit Reg.SEC_CTRL 0 = true) (hslot : slot < 130) (hrng : s.bit Reg.SEC_STAT 2 = true) :
    ∃ key, key.length = 16 ∧ doSecKeyGenerate s slot = (s.drawn 4).putKey slot key := by
  have hdraw (u : State) (h : u.regs = s.regs) : u.randWord = u.free := if_pos ((State.bit_of_regs h _ _).trans hrng)
  have hready : ¬ ((!s.awake) = true ∨ s.bit Reg.SEC_CTRL 0 = false ∨ 130 ≤ slot) := by
    rw [hawake, hen]
    simp [hslot]
  refine ⟨u32 s.randWord.1 ++ u32 s.randWord.2.randWord.1 ++ u32 s.randWord.2.randWord.2.randWord.1 ++ u32 s.randWord.2.randWord.2.randWord.2.randWord.1, ?_, ?_⟩
  · simp
  · unfold doSecKeyGenerate
    rw [if_neg hready, hrng, Bool.not_true, if_neg Bool.false_ne_true]
    dsimp only
    rw [hdraw s rfl, hdraw s.free.2 rfl, hdraw s.free.2.free.2 rfl, hdraw s.free.2.free.2.free.2 rfl]
    rw [State.free_snd s, State.free_drawn, State.free_drawn, State.free_drawn]

theorem keyGenerated {s : State} {slot : Nat} (hawake : s.awake = true) (hen : s.bit Reg.SEC_CTRL 0 = true) (hslot : slot < 130) (hrng : s.bit Reg.SEC_STAT 2 = true) :
    Does (.secKeyGenerate slot) s (fun t => (t.secKey slot).length = 16 ∧ (∀ m, m ≠ slot → t.secKey m = s.secKey m) ∧ t.freeCtr = s.freeCtr + 4 ∧ RegsBut s t [] ∧ SameMem s t) := by
  obtain ⟨key, hlen, hdone⟩ := doSecKeyGenerate_draws hawake hen hslot hrng
  obtain ⟨hself, hne, hregs, hmem⟩ := State.putKey_shows (s.drawn 4) slot key
  exact ⟨_, congrArg Host.Outcome.next hdone, (congrArg List.length hself).trans hlen, hne, rfl, hregs, hmem⟩

theorem State.secFail_shows (s : State) : s.secFail.bit Reg.SEC_STAT 9 = true ∧ s.secFail.bit Reg.SEC_IRQ 1 = true ∧ OnlyRegs s s.secFail [Reg.SEC_STAT, Reg.SEC_IRQ] := by
  refine ⟨?_, State.bit_setBit_self _ _ (by decide), ?_, SameMem.of_mem ?_, rfl⟩
  · rw [State.secFail, State.bit_setBit_ne _ _ _ _ (by decide), State.bit_setBit_self _ _ (by decide)]
  · simp [State.secFail]
  · simp [State.secFail]

theorem keyNotGenerated {s : State} {slot : Nat} (hawake : s.awake = true) (hen : s.bit Reg.SEC_CTRL 0 = true) (hslot : slot < 130) (hrng : s.bit Reg.SEC_STAT 2 = false) :
    Does (.secKeyGenerate slot) s (fun t => t.bit Reg.SEC_STAT 9 = true ∧ t.bit Reg.SEC_IRQ 1 = true ∧ OnlyRegs s t [Reg.SEC_STAT, Reg.SEC_IRQ]) := by
  have hready : ¬ ((!s.awake) = true ∨ s.bit Reg.SEC_CTRL 0 = false ∨ 130 ≤ slot) := by
    rw [hawake, hen]
    simp [hslot]
  have hdone : doSecKeyGenerate s slot = s.secFail := by
    unfold doSecKeyGenerate
    rw [if_neg hready, hrng, Bool.not_false, if_pos rfl]
  exact ⟨_, congrArg Host.Outcome.next hdone, s.secFail_shows⟩

theorem keySlot_refused {s : State} {slot : Nat} (h : s.awake = false ∨ s.bit Reg.SEC_CTRL 0 = false ∨ 130 ≤ slot) :
    exec (.secKeyLoad slot) s = .next s ∧ exec (.secKeyGenerate slot) s = .next s := by
  have hbar : (!s.awake) = true ∨ s.bit Reg.SEC_CTRL 0 = false ∨ 130 ≤ slot := by simpa using h
  exact ⟨congrArg Host.Outcome.next (if_pos hbar), congrArg Host.Outcome.next (if_pos hbar)⟩

theorem randomRead_silent {s : State} (hawake : s.awake = true) (hrng : s.bit Reg.SEC_STAT 2 = false) :
    Does .secRandomRead s (fun t => t.rdata = 0 ∧ t.rdN Reg.SEC_RAND = 0 ∧ RegsBut s t [Reg.SEC_RAND] ∧ SameMem s t) := by
  have hdone : doSecRandomRead s = { s.wrN Reg.SEC_RAND 0 with rdata := 0 } := by
    unfold doSecRandomRead State.randWord
    rw [hawake, hrng]
    rfl
  refine ⟨_, congrArg Host.Outcome.next hdone, rfl, ?_, ?_, SameMem.of_mem (State.wrN_mem s Reg.SEC_RAND 0)⟩
  · rw [State.rdN_mk, State.rdN_wrN_self, Nat.zero_mod]
  · have h : RegsBut s (s.wrN Reg.SEC_RAND 0) [Reg.SEC_RAND] := by simp
    exact h

theorem randomRead_draws {s : State} (hawake : s.awake = true) (hrng : s.bit Reg.SEC_STAT 2 = true) :
    Does .secRandomRead s (fun t => t.freeCtr = s.freeCtr + 1 ∧ t.rd Reg.SEC_RAND = t.rdata ∧ RegsBut s t [Reg.SEC_RAND] ∧ SameMem s t) := by
  have hdone : doSecRandomRead s = { s.free.2.wrN Reg.SEC_RAND s.free.1 with rdata := wordOf s.free.1 } := by
    unfold doSecRandomRead State.randWord
    rw [hawake, hrng]
    rfl
  refine ⟨_, congrArg Host.Outcome.next hdone, ?_, ?_, ?_, SameMem.of_mem (State.wrN_mem s.free.2 Reg.SEC_RAND s.free.1)⟩
  · exact State.wrN_freeCtr s.free.2 Reg.SEC_RAND s.free.1
  · exact State.rd_wr_self ..
  · have h : RegsBut s (s.free.2.wrN Reg.SEC_RAND s.free.1) [Reg.SEC_RAND] := by
      rw [RegsBut.wrN_iff _ (by simp)]
      exact fun _ _ => rfl
    exact h

theorem operationDone_stored {s : State} {f key src dst len aux : Nat} (h : s.sec.op = some (f, key, src, dst, len, aux))
    (hstore : secStores dst (s.secResult f key src len).length = true) :
    Does (.secOperationDone true) s (fun t => t.sec = { s.sec with op := none } ∧ t.bit Reg.SEC_STAT 3 = false ∧ t.bit Reg.SEC_IRQ 0 = true
      ∧ t.rdBytes dst (s.secResult f key src len).length = s.secResult f key src len ∧ (∀ a, a < dst ∨ dst + (s.secResult f key src len).length ≤ a → t.rdB a = s.rdB a)
      ∧ RegsBut s t [Reg.SEC_STAT, Reg.SEC_IRQ]) := by
  have hdone := doSecOperationDone_stores h (by rw [hstore, Bool.or_true])
  obtain ⟨hsec, hbusy, hirq, hmem, hregs⟩ := s.secStored_shows dst (s.secResult f key src len)
  refine ⟨_, congrArg Host.Outcome.next hdone, hsec, hbusy, hirq, ?_, fun a ha => ?_, hregs⟩
  · rw [State.rdBytes_of_mem hmem, State.rdBytes_wrBytes]
  · rw [State.rdB_of_mem hmem, State.rdB_wrBytes_out _ _ _ _ ha, State.rdB_of_mem s.secEnded_shows.2.2]

theorem operationDone_verified {s : State} {f key src dst len aux : Nat} (h : s.sec.op = some (f, key, src, dst, len, aux)) (hf : f = 4) :
    Does (.secOperationDone true) s (fun t => t.sec = { s.sec with op := none } ∧ t.bit Reg.SEC_STAT 3 = false ∧ t.bit Reg.SEC_IRQ 0 = true
      ∧ RegsBut s t [Reg.SEC_STAT, Reg.SEC_IRQ] ∧ SameMem s t) := by
  have hresult : s.secResult f key src len = [] := by rw [hf]; rfl
  have hdone := doSecOperationDone_stores h (by rw [hresult]; rfl)
  rw [hresult] at hdone
  obtain ⟨hsec, hbusy, hirq, hmem, hregs⟩ := s.secStored_shows dst []
  exact ⟨_, congrArg Host.Outcome.next hdone, hsec, hbusy, hirq, hregs, SameMem.of_mem (hmem.trans s.secEnded_shows.2.2)⟩

theorem operationDone_failed {s : State} {f key src dst len aux : Nat} (h : s.sec.op = some (f, key, src, dst, len, aux)) :
    Does (.secOperationDone false) s (fun t => t.sec = { s.sec with op := none } ∧ t.bit Reg.SEC_STAT 3 = false ∧ t.bit Reg.SEC_STAT 9 = true ∧ t.bit Reg.SEC_IRQ 1 = true
      ∧ RegsBut s t [Reg.SEC_STAT, Reg.SEC_IRQ] ∧ SameMem s t) := by
  obtain ⟨hbusy, hregs, hmem⟩ := s.secEnded_shows
  have hsec : s.secEnded.sec = { s.sec with op := none } := rfl
  refine ⟨_, congrArg Host.Outcome.next (doSecOperationDone_fails h), ?_⟩
  generalize s.secEnded = u at hbusy hregs hmem hsec
  obtain ⟨herr, hirq, hfregs, hfmem, _⟩ := u.secFail_shows
  refine ⟨?_, ?_, herr, hirq, ?_, fun a => (hfmem a).trans (State.rdB_of_mem hmem a)⟩
  · rw [State.secFail, State.setBit_sec, State.setBit_sec, hsec]
  · rw [State.secFail, State.bit_setBit_ne _ _ _ _ (by decide), State.bit_setBit_other _ _ (by decide) (by decide), hbusy]
  · exact RegsBut.trans (hregs.mono (by simp)) hfregs

/-- Settles O59: starts, ends, key slots and random words, by the registers they read and write. -/
theorem securityEngine : Obligations.SecurityEngine := by
  refine ⟨?_, ?_, ?_, ?_, ?_, ?_, ?_⟩
  · intro s hawake hen hbusy c f hc
    have hf : f < 8 := by fin_cases hc <;> decide
    have hexec : exec c s = .next (s.secStart f) := by fin_cases hc <;> rfl
    exact ⟨_, hexec.trans (congrArg Host.Outcome.next (State.secStart_starts f hawake hen hbusy)), rfl, s.secStarted_shows hf⟩
  · intro s hidle c hc
    have hexec : ∃ f, exec c s = .next (s.secStart f) := by fin_cases hc <;> exact ⟨_, rfl⟩
    obtain ⟨f, hf⟩ := hexec
    exact hf.trans (congrArg Host.Outcome.next (State.secStart_waits f hidle))
  · intro s f key src dst len aux h
    exact ⟨fun _ hstore => operationDone_stored h hstore, operationDone_verified h, operationDone_failed h⟩
  · intro s ok h
    exact congrArg Host.Outcome.next (doSecOperationDone_none h)
  · intro s slot hawake hen hslot
    exact ⟨keyLoaded hawake hen hslot, keyGenerated hawake hen hslot, keyNotGenerated hawake hen hslot⟩
  · intro s slot h
    exact keySlot_refused h
  · intro s hawake
    exact ⟨randomRead_silent hawake, randomRead_draws hawake⟩

end Sys2Proof.Machine
end

section
/-!
PROOFS. The debug port (R74 to R77, R113, R407 to R409). They settle O58.
-/

namespace Sys2Proof.Machine

/-! Challenges (R407) -/

/-- A state that differs in the free values drawn alone. -/
theorem State.randWord_frame (s : State) : s.randWord.2 = { s with freeCtr := s.randWord.2.freeCtr } := by
  unfold State.randWord
  split <;> rfl

theorem free_frame_trans {s t u : State} (h : t = { s with freeCtr := t.freeCtr }) (k : u = { t with freeCtr := u.freeCtr }) : u = { s with freeCtr := u.freeCtr } := by
  rw [h] at k
  rw [k]

/-- The state once the four words of a nonce are drawn. -/
def State.nonceDrawn (s : State) : State := s.randWord.2.randWord.2.randWord.2.randWord.2

theorem State.nonceDrawn_frame (s : State) : s.nonceDrawn = { s with freeCtr := s.nonceDrawn.freeCtr } :=
  free_frame_trans (free_frame_trans (free_frame_trans s.randWord_frame s.randWord.2.randWord_frame) s.randWord.2.randWord.2.randWord_frame)
    s.randWord.2.randWord.2.randWord.2.randWord_frame

theorem State.nonceDrawn_of_rng {s : State} (h : s.bit Reg.SEC_STAT 2 = true) : s.nonceDrawn = s.drawn 4 := by
  have hdraw (u : State) (hu : u.regs = s.regs) : u.randWord.2 = u.free.2 := congrArg Prod.snd (if_pos ((State.bit_of_regs hu _ _).trans h))
  rw [State.nonceDrawn, hdraw s rfl, hdraw s.free.2 rfl, hdraw s.free.2.free.2 rfl, hdraw s.free.2.free.2.free.2 rfl, State.free_snd s, State.free_drawn, State.free_drawn,
    State.free_drawn]

/-- The registers that a challenge shows. -/
def challengeRegs : List Nat := [Reg.SEC_CHALID, Reg.SEC_NONCE 0, Reg.SEC_NONCE 1, Reg.SEC_NONCE 2, Reg.SEC_NONCE 3]

theorem State.newChallenge_eq (s : State) : ∃ a b c d, s.newChallenge = ((s.rdN Reg.SEC_CHALID + 1) % 2 ^ 32,
    ((((s.nonceDrawn.wrN Reg.SEC_CHALID ((s.rdN Reg.SEC_CHALID + 1) % 2 ^ 32)).wrN (Reg.SEC_NONCE 0) a).wrN (Reg.SEC_NONCE 1) b).wrN (Reg.SEC_NONCE 2) c).wrN (Reg.SEC_NONCE 3) d) :=
  ⟨_, _, _, _, rfl⟩

theorem State.newChallenge_shows (s : State) : s.newChallenge.1 = (s.rdN Reg.SEC_CHALID + 1) % 2 ^ 32 ∧ s.newChallenge.2.rdN Reg.SEC_CHALID = (s.rdN Reg.SEC_CHALID + 1) % 2 ^ 32
    ∧ RegsBut s s.newChallenge.2 challengeRegs ∧ s.newChallenge.2 = { s with regs := s.newChallenge.2.regs, freeCtr := s.nonceDrawn.freeCtr } := by
  obtain ⟨a, b, c, d, h⟩ := s.newChallenge_eq
  have hframe := s.nonceDrawn_frame
  rw [h]
  dsimp only
  generalize s.nonceDrawn = u at hframe
  have hregs : u.regs = s.regs := by rw [hframe]
  refine ⟨rfl, ?_, ?_, ?_⟩
  · rw [State.rdN_wrN_ne _ _ (by decide), State.rdN_wrN_ne _ _ (by decide), State.rdN_wrN_ne _ _ (by decide), State.rdN_wrN_ne _ _ (by decide), State.rdN_wrN_self,
      Nat.mod_mod]
  · have hu : RegsBut s u challengeRegs := fun a _ => State.rd_of_regs hregs a
    exact ((((hu.wrN _ (by simp [challengeRegs])).wrN _ (by simp [challengeRegs])).wrN _ (by simp [challengeRegs])).wrN _ (by simp [challengeRegs])).wrN _
      (by simp [challengeRegs])
  · rw [hframe]
    rfl


/-! Authentication (R75, R77) -/

/-- The part once a challenge is drawn and its answer judged. -/
def State.challenged (s : State) (sig : List Byte) : State :=
  { s.newChallenge.2.showAuth 2 (debugKey s sig) with dbg := { s.newChallenge.2.dbg with chal := s.newChallenge.1 } }

theorem doDebugAuth_eq {s : State} {sig : List Byte} (h : s.debugAnswers = true) : doDebugAuth s sig =
    match debugKey s sig with
    | some n => (s.challenged sig).openDebug n s.newChallenge.1
    | none => (s.challenged sig).debugFail s.newChallenge.1 := by
  unfold doDebugAuth
  rw [h, Bool.not_true, if_neg Bool.false_ne_true]
  rfl

theorem State.showAuth_frame (s : State) (purpose : Nat) (slot : Option Nat) : RegsBut s (s.showAuth purpose slot) [Reg.SEC_AUTH]
    ∧ s.showAuth purpose slot = { s with regs := (s.showAuth purpose slot).regs, freeCtr := (s.showAuth purpose slot).freeCtr } := by
  unfold State.showAuth
  split
  · exact ⟨by simp, rfl⟩
  · exact ⟨RegsBut.wrN _ (fun _ _ => rfl) (List.mem_singleton.mpr rfl), rfl⟩

theorem State.challenged_shows (s : State) (sig : List Byte) : RegsBut s (s.challenged sig) authShown
    ∧ s.challenged sig = { s with regs := (s.challenged sig).regs, freeCtr := (s.challenged sig).freeCtr, dbg := { s.dbg with chal := (s.rdN Reg.SEC_CHALID + 1) % 2 ^ 32 } } := by
  obtain ⟨hid, -, hregs, hframe⟩ := s.newChallenge_shows
  unfold State.challenged
  rw [hid]
  generalize s.newChallenge.2 = u at hregs hframe
  obtain ⟨hauth, hshown⟩ := u.showAuth_frame 2 (debugKey s sig)
  generalize u.showAuth 2 (debugKey s sig) = v at hauth hshown
  refine ⟨?_, ?_⟩
  · have hv : RegsBut s v authShown := RegsBut.trans (hregs.mono (by simp [challengeRegs, authShown])) (hauth.mono (by simp [authShown]))
    exact hv
  · rw [hframe] at hshown
    rw [hshown, hframe]

theorem State.camlanOn_of_bit {s t : State} (hpower : t.power = s.power) (hbit : t.bit Reg.DBG_STAT 3 = s.bit Reg.DBG_STAT 3) : t.camlanOn = s.camlanOn := by
  rw [State.camlanOn, State.camlanOn, State.started, State.started, hpower, hbit]

/-- What an entry into easy leaves of the debugger and of the stroke. -/
theorem EasyFrame.keeps {s t : State} (h : EasyFrame s t) : t.dbg = s.dbg ∧ t.stk = s.stk := ⟨by rw [h], by rw [h]⟩

theorem EasyFrame.easyLogged (s : State) (cause : Nat) : EasyFrame s (s.easyLogged cause) := by
  cases h : s.inEasy with
  | false => exact (State.easyLogged_enters cause h).1
  | true =>
    have hlisted : s.easyLogged cause = { s with cam := { s.cam with easyCauses := s.cam.easyCauses ++ [cause] } } := if_pos h
    rw [hlisted]

theorem EasyFrame.easyNow (s : State) (cause : Nat) : EasyFrame s (s.easyNow cause) := by
  have hlogged : EasyFrame s (s.logS 0x0202 (u8 cause)) := EasyFrame.of_tally (TallyFrame.of_log (State.logIn_eq s 0 0x0202 0 (u8 cause)))
  rw [State.easyNow_eq]
  exact hlogged.trans (EasyFrame.easyLogged _ cause)

theorem State.easy_keeps (s : State) (cause : Nat) : (s.easy cause).dbg = s.dbg ∧ (s.easy cause).stk = s.stk := by
  unfold State.easy State.easyHeld
  split
  · split <;> exact ⟨rfl, rfl⟩
  · split
    · exact ⟨rfl, rfl⟩
    · exact (EasyFrame.easyNow s cause).keeps

theorem State.rd_stopFeed (s : State) {a : Nat} (h1 : Reg.COX_STATUS ≠ a) (h2 : Reg.PUMP_STAT ≠ a) : s.stopFeed.rd a = s.rd a :=
  (State.rd_setBit_ne (s.setBit Reg.COX_STATUS 0 false) 0 false h2).trans (State.rd_setBit_ne s 0 false h1)

theorem State.stopFeed_permit (s : State) : s.stopFeed.bit Reg.COX_STATUS 0 = false :=
  (State.bit_of_rd (State.rd_setBit_ne (s.setBit Reg.COX_STATUS 0 false) 0 false (show Reg.PUMP_STAT ≠ Reg.COX_STATUS by decide)) 0).trans
    (State.bit_setBit_self _ _ (by decide))

theorem RegsBut.stopFeed {s t : State} {l : List Nat} (h : RegsBut s t l) (h1 : Reg.COX_STATUS ∈ l) (h2 : Reg.PUMP_STAT ∈ l) : RegsBut s t.stopFeed l :=
  (h.setBit (a := Reg.COX_STATUS) 0 false h1).setBit (a := Reg.PUMP_STAT) 0 false h2

theorem State.stopFeed_frame (s : State) : s.stopFeed = { s with regs := s.stopFeed.regs, stk := s.stopFeed.stk, ctr := s.stopFeed.ctr } := rfl

/-- A debug session shown, the pump no longer fed. -/
def State.sessionOpened (s : State) (n : Nat) : State := (((s.setBit Reg.DBG_STAT 1 true).setBit Reg.DBG_STAT 2 true).wrN Reg.DBG_SESSID n).stopFeed

theorem State.sessionOpened_shows (s : State) {n : Nat} (hn : n < 2 ^ 32) : let t := s.sessionOpened n
    t.bit Reg.DBG_STAT 1 = true ∧ t.bit Reg.DBG_STAT 2 = true ∧ t.bit Reg.DBG_STAT 3 = s.bit Reg.DBG_STAT 3 ∧ t.rdN Reg.DBG_SESSID = n ∧ t.bit Reg.COX_STATUS 0 = false
      ∧ RegsBut s t [Reg.DBG_STAT, Reg.DBG_SESSID, Reg.COX_STATUS, Reg.PUMP_STAT] ∧ t.stk.feed = false
      ∧ t = { s with regs := t.regs, stk := t.stk, ctr := t.ctr } := by
  have hshow (a : Nat) (h1 : Reg.DBG_STAT = a) : (s.sessionOpened n).rd a = ((s.setBit Reg.DBG_STAT 1 true).setBit Reg.DBG_STAT 2 true).rd a := by
    subst h1
    rw [State.sessionOpened, State.rd_stopFeed _ (by decide) (by decide), State.rd_wrN_ne _ _ (by decide)]
  refine ⟨?_, ?_, ?_, ?_, ?_, ?_, rfl, ?_⟩
  · rw [State.bit_of_rd (hshow _ rfl), State.bit_setBit_other _ _ (by decide) (by decide), State.bit_setBit_self _ _ (by decide)]
  · rw [State.bit_of_rd (hshow _ rfl), State.bit_setBit_self _ _ (by decide)]
  · rw [State.bit_of_rd (hshow _ rfl), State.bit_setBit_other _ _ (by decide) (by decide), State.bit_setBit_other _ _ (by decide) (by decide)]
  · rw [State.sessionOpened, State.rdN_of_rd (State.rd_stopFeed _ (by decide) (by decide)), State.rdN_wrN_self, Nat.mod_eq_of_lt hn]
  · exact State.stopFeed_permit _
  · refine RegsBut.stopFeed ?_ (by simp) (by simp)
    simp
  · exact State.stopFeed_frame _

/-- The records of a session that Camlan sees opened. -/
def State.sessionLogged (s : State) (n id : Nat) : State := (s.logS0 0x1301 (u8 2 ++ u8 n ++ u32 id)).logS 0x0305 (u8 s.lcs)



theorem State.openDebug_eq (s : State) (n id : Nat) : s.openDebug n id =
    if (s.sessionOpened n).camlanOn then ((s.sessionOpened n).sessionLogged n id).easy 0x12 else s.sessionOpened n := rfl

/-- The registers of a debug session and of Camlan's entry into easy. -/
def sessionRegs : List Nat := [Reg.DBG_STAT, Reg.DBG_SESSID, Reg.COX_STATUS, Reg.PUMP_STAT]

theorem State.logS_eq (s : State) (c : Nat) (l : List Byte) : LogFrame s (s.logS c l) := State.logIn_eq s 0 c 0 l

theorem State.sessionLogged_frame (s : State) (n id : Nat) : LogFrame s (s.sessionLogged n id) ∧ RegsBut s (s.sessionLogged n id) easyRegs := by
  have h0 : ∀ a, a ∈ logRegs 0 → a ∈ easyRegs := fun a => logRegs_subset_easyRegs (by decide)
  have h1 : ∀ a, a ∈ logRegs 1 → a ∈ easyRegs := fun a => logRegs_subset_easyRegs (by decide)
  unfold State.sessionLogged
  generalize u8 s.lcs = state
  have hfirst := State.logS0_eq s 0x1301 (u8 2 ++ u8 n ++ u32 id)
  have hregs : RegsBut s (s.logS0 0x1301 (u8 2 ++ u8 n ++ u32 id)) easyRegs := ((RegsBut.refl s easyRegs).logS _ _ h0).logIn _ _ _ h1
  generalize s.logS0 0x1301 (u8 2 ++ u8 n ++ u32 id) = u at hfirst hregs
  exact ⟨hfirst.trans (u.logS_eq 0x0305 state), hregs.logS _ _ h0⟩

/-- What Camlan's part in a session leaves of the session's registers, and how it enters easy. -/
theorem State.sessionEased_shows {s : State} (n id : Nat) : let t := (s.sessionLogged n id).easy 0x12
    RegsBut s t easyRegs ∧ t.dbg = s.dbg ∧ t.stk = s.stk
      ∧ (s.rowing = true → s.inEasy = false → s.acts = .idle → t.cam.state = .easy ∧ t.cam.easyCauses = [0x12]) := by
  obtain ⟨hframe, hregs⟩ := s.sessionLogged_frame n id
  have hcam : (s.sessionLogged n id).cam = s.cam := (congrArg State.cam hframe :)
  have hpower : (s.sessionLogged n id).power = s.power := (congrArg State.power hframe :)
  have hacts : (s.sessionLogged n id).acts = s.acts := (congrArg State.acts hframe :)
  have hdbg : (s.sessionLogged n id).dbg = s.dbg := (congrArg State.dbg hframe :)
  have hstk : (s.sessionLogged n id).stk = s.stk := (congrArg State.stk hframe :)
  clear hframe
  generalize s.sessionLogged n id = u at hregs hcam hpower hacts hdbg hstk
  obtain ⟨kdbg, kstk⟩ := u.easy_keeps 0x12
  refine ⟨RegsBut.easy 0x12 hregs (fun _ h => h), kdbg.trans hdbg, kstk.trans hstk, fun hrow hout hidle => ?_⟩
  have hrow' : u.rowing = true := (State.rowing_congr hpower (hregs _ (by decide)) (congrArg CamSt.state hcam)).trans hrow
  have hout' : u.cam.state ≠ .easy := by
    rw [hcam]
    intro h
    rw [State.inEasy, h] at hout
    exact absurd hout (by simp)
  obtain ⟨heasy, -, hnow⟩ := State.easy_of_rowing 0x12 hrow' hout' (hacts.trans hidle)
  rw [heasy]
  exact ⟨by rw [hnow], by rw [hnow]⟩

theorem sessionRegs_notMem_easyRegs : ∀ a ∈ sessionRegs, a ∉ easyRegs := by decide

theorem State.openDebug_shows (s : State) {n : Nat} (id : Nat) (hn : n < 2 ^ 32) : let t := s.openDebug n id
    t.bit Reg.DBG_STAT 1 = true ∧ t.bit Reg.DBG_STAT 2 = true ∧ t.rdN Reg.DBG_SESSID = n ∧ t.bit Reg.COX_STATUS 0 = false ∧ t.stk.feed = false ∧ t.dbg = s.dbg
      ∧ (s.camlanOn = false → RegsBut s t sessionRegs ∧ t.mem = s.mem)
      ∧ (s.rowing = true → s.inEasy = false → s.acts = .idle → t.cam.state = .easy ∧ t.cam.easyCauses = [0x12]) := by
  obtain ⟨h1, h2, h3, hid, hperm, hregs, hfeed, hframe⟩ := s.sessionOpened_shows hn
  rw [State.openDebug_eq]
  generalize s.sessionOpened n = u at h1 h2 h3 hid hperm hregs hfeed hframe
  have hpower : u.power = s.power := by rw [hframe]
  have hon : u.camlanOn = s.camlanOn := State.camlanOn_of_bit hpower h3
  have hdbg : u.dbg = s.dbg := by rw [hframe]
  have hmem : u.mem = s.mem := by rw [hframe]
  have hcam : u.cam = s.cam := by rw [hframe]
  have hacts : u.acts = s.acts := by rw [hframe]
  have hrow : u.rowing = s.rowing := by rw [State.rowing, State.rowing, hon, hcam]
  cases hc : s.camlanOn with
  | false =>
    rw [hon, hc, if_neg Bool.false_ne_true]
    refine ⟨h1, h2, hid, hperm, hfeed, hdbg, fun _ => ⟨hregs, hmem⟩, fun hr => ?_⟩
    rw [State.rowing, hc] at hr
    exact absurd hr (by simp)
  | true =>
    rw [hon, hc, if_pos rfl]
    obtain ⟨kregs, kdbg, kstk, keasy⟩ := u.sessionEased_shows n id
    have hrd (a : Nat) (ha : a ∈ sessionRegs) := kregs a (sessionRegs_notMem_easyRegs a ha)
    refine ⟨?_, ?_, ?_, ?_, ?_, kdbg.trans hdbg, fun h => absurd h (by simp), fun hr ho hi => ?_⟩
    · rw [State.bit_of_rd (hrd _ (by decide)), h1]
    · rw [State.bit_of_rd (hrd _ (by decide)), h2]
    · rw [State.rdN_of_rd (hrd _ (by decide)), hid]
    · rw [State.bit_of_rd (hrd _ (by decide)), hperm]
    · rw [kstk, hfeed]
    · exact keasy (hrow.trans hr) (by rwa [State.inEasy, hcam, ← State.inEasy]) (hacts.trans hi)

theorem State.debugFail_eq (s : State) (id : Nat) : s.debugFail id =
    let u := if (s.incSat Reg.DBG_FAILS 0 2 1).fld Reg.DBG_FAILS 0 2 = 3 then (s.incSat Reg.DBG_FAILS 0 2 1).setBit Reg.DBG_STAT 4 true else s.incSat Reg.DBG_FAILS 0 2 1
    if u.camlanOn then u.logS 0x1302 (u8 2 ++ u32 id) else u := rfl

/-- Failures counted, the third closing the port. -/
def State.failCounted (s : State) : State :=
  if (s.incSat Reg.DBG_FAILS 0 2 1).fld Reg.DBG_FAILS 0 2 = 3 then (s.incSat Reg.DBG_FAILS 0 2 1).setBit Reg.DBG_STAT 4 true else s.incSat Reg.DBG_FAILS 0 2 1

theorem State.failCounted_shows (s : State) : s.failCounted.fld Reg.DBG_FAILS 0 2 = min (s.fld Reg.DBG_FAILS 0 2 + 1) 3
    ∧ (2 ≤ s.fld Reg.DBG_FAILS 0 2 → s.failCounted.bit Reg.DBG_STAT 4 = true) ∧ s.failCounted.bit Reg.DBG_STAT 2 = s.bit Reg.DBG_STAT 2
    ∧ OnlyRegs s s.failCounted [Reg.DBG_STAT, Reg.DBG_FAILS] := by
  have hcount : (s.incSat Reg.DBG_FAILS 0 2 1).fld Reg.DBG_FAILS 0 2 = min (s.fld Reg.DBG_FAILS 0 2 + 1) 3 := State.fld_incSat_self _ _ (by decide)
  have hlt : s.fld Reg.DBG_FAILS 0 2 < 4 := State.fld_lt s _ 0 2
  have hstat (b : Nat) : (s.incSat Reg.DBG_FAILS 0 2 1).bit Reg.DBG_STAT b = s.bit Reg.DBG_STAT b := State.bit_of_rd (State.rd_incSat_ne _ _ _ _ (by decide)) b
  have hregs : RegsBut s (s.incSat Reg.DBG_FAILS 0 2 1) [Reg.DBG_STAT, Reg.DBG_FAILS] := by simp
  unfold State.failCounted
  split
  case isTrue h3 =>
    refine ⟨?_, fun _ => State.bit_setBit_self _ _ (by decide), ?_, hregs.setBit 4 true (by simp), SameMem.of_mem ?_, rfl⟩
    · rw [State.fld_setBit_ne _ _ _ _ _ (by decide), hcount]
    · rw [State.bit_setBit_other _ _ (by decide) (by decide), hstat]
    · rw [State.setBit_mem, State.incSat_mem]
  case isFalse h3 =>
    rw [hcount] at h3
    exact ⟨hcount, fun h => absurd h (by omega), hstat 2, hregs, SameMem.of_mem (State.incSat_mem ..), rfl⟩

theorem State.debugFail_shows (s : State) (id : Nat) : let t := s.debugFail id
    t.fld Reg.DBG_FAILS 0 2 = min (s.fld Reg.DBG_FAILS 0 2 + 1) 3 ∧ (2 ≤ s.fld Reg.DBG_FAILS 0 2 → t.bit Reg.DBG_STAT 4 = true) ∧ t.bit Reg.DBG_STAT 2 = s.bit Reg.DBG_STAT 2
      ∧ RegsBut s t ([Reg.DBG_STAT, Reg.DBG_FAILS] ++ logRegs 0) ∧ t.mem = s.mem ∧ t.dbg = s.dbg := by
  obtain ⟨hcount, hclosed, hatt, hregs, hmem, hframe⟩ := s.failCounted_shows
  rw [State.debugFail_eq]
  dsimp only
  rw [← State.failCounted]
  generalize s.failCounted = u at hcount hclosed hatt hregs hmem hframe
  have hmem' : u.mem = s.mem := by rw [hframe]
  have hdbg : u.dbg = s.dbg := by rw [hframe]
  split
  · refine ⟨?_, fun h => ?_, ?_, ?_, (State.logS_mem ..).trans hmem', (State.logS_dbg ..).trans hdbg⟩
    · rw [State.fld_of_rd (State.rd_logS _ _ _ (by decide)), hcount]
    · rw [State.bit_of_rd (State.rd_logS _ _ _ (by decide)), hclosed h]
    · rw [State.bit_of_rd (State.rd_logS _ _ _ (by decide)), hatt]
    · exact (hregs.mono (by simp +contextual)).logS _ _ (by simp)
  · exact ⟨hcount, hclosed, hatt, hregs.mono (by simp +contextual), hmem', hdbg⟩


theorem keyId_lt {s : State} {sig : List Byte} {n : Nat} (h : debugKey s sig = some n) : n < 2 ^ 32 := by
  have hsign (u : State) (ids : List Nat) (hids : ∀ m ∈ ids, m < 2 ^ 32) (msg : List Byte) (hs : u.signer ids msg sig = some n) : n < 2 ^ 32 := hids n (List.mem_of_find?_eq_some hs)
  have hmatch : ∀ (u : State) (msg : List Byte), u.debugMatch msg sig = some n → n < 2 ^ 32 := by
    intro u msg hm
    unfold State.debugMatch at hm
    split at hm
    · refine hsign u _ (fun m hm => ?_) msg hm
      split at hm
      · exact (List.mem_singleton.mp hm) ▸ by decide
      · exact absurd hm (List.not_mem_nil)
    · refine hsign u _ (fun m hm => ?_) msg hm
      have hmem := List.mem_of_mem_filter hm
      simp only [List.mem_cons, List.not_mem_nil, or_false] at hmem
      omega
  exact hmatch _ _ h

theorem authenticated {s : State} {sig : List Byte} (h : s.debugAnswers = true) :
    Does (.debugAuth sig) s (fun t => t.dbg = { s.dbg with chal := (s.rdN Reg.SEC_CHALID + 1) % 2 ^ 32 }
      ∧ (∀ n, debugKey s sig = some n → t.bit Reg.DBG_STAT 1 = true ∧ t.bit Reg.DBG_STAT 2 = true ∧ t.rdN Reg.DBG_SESSID = n ∧ t.bit Reg.COX_STATUS 0 = false ∧ t.stk.feed = false
        ∧ (s.camlanOn = false → RegsBut s t (authShown ++ [Reg.DBG_STAT, Reg.DBG_SESSID, Reg.COX_STATUS, Reg.PUMP_STAT]) ∧ SameMem s t)
        ∧ (s.rowing = true → s.inEasy = false → s.acts = .idle → t.cam.state = .easy ∧ t.cam.easyCauses = [0x12]))
      ∧ (debugKey s sig = none → t.fld Reg.DBG_FAILS 0 2 = min (s.fld Reg.DBG_FAILS 0 2 + 1) 3 ∧ (2 ≤ s.fld Reg.DBG_FAILS 0 2 → t.bit Reg.DBG_STAT 4 = true)
        ∧ t.bit Reg.DBG_STAT 2 = s.bit Reg.DBG_STAT 2 ∧ RegsBut s t (authShown ++ [Reg.DBG_STAT, Reg.DBG_FAILS] ++ logRegs 0) ∧ SameMem s t)) := by
  have hauth := doDebugAuth_eq (sig := sig) h
  obtain ⟨hregs, hframe⟩ := s.challenged_shows sig
  generalize s.challenged sig = u at hauth hregs hframe
  have hpower : u.power = s.power := by rw [hframe]
  have hdbg : u.dbg = { s.dbg with chal := (s.rdN Reg.SEC_CHALID + 1) % 2 ^ 32 } := by rw [hframe]
  have hmem : u.mem = s.mem := by rw [hframe]
  have hcam : u.cam = s.cam := by rw [hframe]
  have hacts : u.acts = s.acts := by rw [hframe]
  clear hframe
  cases hkey : debugKey s sig with
  | some n =>
    rw [hkey] at hauth
    have hon : u.camlanOn = s.camlanOn := State.camlanOn_congr hpower (hregs _ (by decide))
    have hrow : u.rowing = s.rowing := State.rowing_congr hpower (hregs _ (by decide)) (congrArg CamSt.state hcam)
    obtain ⟨h1, h2, hid, hperm, hfeed, kdbg, koff, keasy⟩ := u.openDebug_shows s.newChallenge.1 (keyId_lt hkey)
    refine ⟨_, congrArg Host.Outcome.next hauth, kdbg.trans hdbg, fun m hm => ?_, fun hm => absurd hm (by simp)⟩
    obtain rfl := Option.some.inj hm
    refine ⟨h1, h2, hid, hperm, hfeed, fun hoff => ?_, fun hr ho hi => ?_⟩
    · obtain ⟨kregs, kmem⟩ := koff (hon.trans hoff)
      exact ⟨RegsBut.trans (hregs.mono (fun a ha => List.mem_append_left _ ha)) (kregs.mono (fun a ha => List.mem_append_right _ ha)), SameMem.of_mem (kmem.trans hmem)⟩
    · exact keasy (hrow.trans hr) (by rwa [State.inEasy, hcam, ← State.inEasy]) (hacts.trans hi)
  | none =>
    rw [hkey] at hauth
    obtain ⟨hcount, hclosed, hatt, kregs, kmem, kdbg⟩ := u.debugFail_shows s.newChallenge.1
    have hfails : u.fld Reg.DBG_FAILS 0 2 = s.fld Reg.DBG_FAILS 0 2 := State.fld_of_rd (hregs _ (by decide)) 0 2
    rw [hfails] at hcount hclosed
    refine ⟨_, congrArg Host.Outcome.next hauth, kdbg.trans hdbg, fun m hm => absurd hm (by simp), fun _ => ⟨hcount, hclosed, ?_, ?_, SameMem.of_mem (kmem.trans hmem)⟩⟩
    · rw [hatt, State.bit_of_rd (hregs _ (by decide))]
    · rw [List.append_assoc]
      exact RegsBut.trans (hregs.mono (fun a ha => List.mem_append_left _ ha)) (kregs.mono (fun a ha => List.mem_append_right _ ha))

/-! Halted cores (R57, R74, R76) -/

theorem State.attached_of_halted {s : State} (h : s.halted = true) : s.attached = true := by
  rw [State.halted, Bool.and_eq_true] at h
  exact h.1

theorem resumed {s : State} (h : s.halted = true) :
    Does .debugResume s (fun t => t.bit Reg.DBG_STAT 3 = false ∧ t.dbg = { s.dbg with gpr := [], csr := [] } ∧ RegsBut s t [Reg.DBG_STAT] ∧ SameMem s t) := by
  have hregs : RegsBut s (s.setBit Reg.DBG_STAT 3 false) [Reg.DBG_STAT] := by simp
  refine ⟨_, congrArg Host.Outcome.next (if_pos h), ?_, rfl, hregs, SameMem.of_mem (State.setBit_mem s Reg.DBG_STAT 3 false)⟩
  exact (State.bit_of_regs (s := s.setBit Reg.DBG_STAT 3 false) rfl _ _).trans (State.bit_setBit_self _ _ (by decide))

/-- An abstract command on halted cores, by what it accesses. -/
theorem abstractCommand_reads {s : State} {r : Nat} (h : s.halted = true) (hr : r < 0x1020) (hlegal : abstractIllegal r false = false) :
    exec (.debugAbstractCommand r none) s = .next ((s.setDbgExc false).abstractRead r) := by
  have hgo : ¬ ((!s.halted) = true ∨ 0x1020 ≤ r) := by simp [h, hr]
  change Host.Outcome.next (doDebugAbstractCommand s r none) = _
  rw [doDebugAbstractCommand, if_neg hgo, Option.isSome_none, hlegal, if_neg Bool.false_ne_true]

theorem abstractCommand_writes {s : State} {r : Nat} {w : Word} (h : s.halted = true) (hr : r < 0x1020) (hlegal : abstractIllegal r true = false) :
    exec (.debugAbstractCommand r (some w)) s = .next ((s.setDbgExc false).abstractWrite r w) := by
  have hgo : ¬ ((!s.halted) = true ∨ 0x1020 ≤ r) := by simp [h, hr]
  change Host.Outcome.next (doDebugAbstractCommand s r (some w)) = _
  rw [doDebugAbstractCommand, if_neg hgo, Option.isSome_some, hlegal, if_neg Bool.false_ne_true]

theorem abstractCommand_traps {s : State} {r : Nat} {w : Option Word} (h : s.halted = true) (hill : abstractIllegal r w.isSome = true) :
    exec (.debugAbstractCommand r w) s = .next (s.setDbgExc true) := by
  have hlow : r < 0x1000 := by
    rw [abstractIllegal, Bool.and_eq_true, decide_eq_true_eq] at hill
    exact hill.1
  have hgo : ¬ ((!s.halted) = true ∨ 0x1020 ≤ r) := by
    simp only [h, Bool.not_true, Bool.false_eq_true, false_or]
    omega
  have hdone : doDebugAbstractCommand s r w = s.setDbgExc true := by
    unfold doDebugAbstractCommand
    rw [if_neg hgo, if_pos hill]
  exact congrArg Host.Outcome.next hdone

theorem find?_put {α : Type} (l : List (Nat × α)) (r : Nat) (w : α) :
    (l.filter (fun e => decide (e.1 ≠ r)) ++ [(r, w)]).find? (fun e => decide (e.1 = r)) = some (r, w) := by
  rw [List.find?_append, List.find?_eq_none.mpr]
  · simp
  · intro e he
    simpa using (List.mem_filter.mp he).2

theorem State.abstractRead_gpr {s : State} {r : Nat} {w : Word} (hr : 0x1000 < r) (h : s.dbg.gpr.find? (fun e => decide (e.1 = r)) = some (r, w)) :
    s.abstractRead r = { s with dbg := { s.dbg with data := w.toNat } } := by
  unfold State.abstractRead
  rw [if_pos (by omega), if_neg (by omega), h]

theorem State.abstractRead_csr {s : State} {r : Nat} {w : Word} (hr : r < 0x1000) (hmisa : r ≠ 0x301) (hhart : r ≠ 0xF14)
    (h : s.dbg.csr.find? (fun e => decide (e.1 = r)) = some (r, w)) : s.abstractRead r = { s with dbg := { s.dbg with data := w.toNat } } := by
  unfold State.abstractRead
  rw [if_neg (by omega), if_neg hmisa, if_neg hhart, h]

/-- A register that was written is read back. -/
theorem abstract_written_read {s : State} {r : Nat} {w : Word} (hx0 : r ≠ 0x1000) (hmisa : r ≠ 0x301) (hhart : r ≠ 0xF14) :
    ((s.abstractWrite r w).setDbgExc false).abstractRead r
      = { s.abstractWrite r w with dbg := { (s.abstractWrite r w).dbg with data := w.toNat, exception := false } } := by
  by_cases hr : 0x1000 ≤ r
  · have hgpr : ((s.abstractWrite r w).setDbgExc false).dbg.gpr = s.dbg.gpr.filter (fun e => decide (e.1 ≠ r)) ++ [(r, w)] := by
      rw [State.abstractWrite, if_pos hr, if_neg hx0]
      rfl
    rw [State.abstractRead_gpr (w := w) (by omega) (by rw [hgpr, find?_put])]
    rfl
  · have hcsr : ((s.abstractWrite r w).setDbgExc false).dbg.csr = s.dbg.csr.filter (fun e => decide (e.1 ≠ r)) ++ [(r, w)] := by
      rw [State.abstractWrite, if_neg hr, if_neg hmisa]
      rfl
    rw [State.abstractRead_csr (w := w) (by omega) hmisa hhart (by rw [hcsr, find?_put])]
    rfl

theorem State.abstractWrite_frame (s : State) (r : Nat) (w : Word) : s.abstractWrite r w = { s with dbg := (s.abstractWrite r w).dbg } := by
  unfold State.abstractWrite
  split
  · split <;> rfl
  · split <;> rfl

theorem abstract_readBack {s : State} {r : Nat} {w : Word} (h : s.halted = true) (hr : r < 0x1020) (hx0 : r ≠ 0x1000) (hmisa : r ≠ 0x301)
    (hlegal : abstractIllegal r true = false) :
    Does (.debugAbstractCommand r (some w)) s (fun t => t.halted = true ∧
      Does (.debugAbstractCommand r none) t (fun u => u.dbg.data = w.toNat ∧ u.dbg.exception = false ∧ RegsBut s u [] ∧ SameMem s u)) := by
  have hlegal' : abstractIllegal r false = false := by
    simp only [abstractIllegal, Bool.true_and, Bool.false_and, Bool.or_false, Bool.and_eq_false_imp, Bool.or_eq_false_iff] at hlegal ⊢
    exact fun hlow => (hlegal hlow).1
  have hhart : r ≠ 0xF14 := by
    rintro rfl
    exact absurd hlegal (by decide)
  have hframe := (s.setDbgExc false).abstractWrite_frame r w
  have hread := abstract_written_read (s := s.setDbgExc false) (w := w) hx0 hmisa hhart
  refine ⟨_, abstractCommand_writes h hr hlegal, ?_⟩
  generalize (s.setDbgExc false).abstractWrite r w = t at hframe hread
  have hregs : t.regs = s.regs := by rw [hframe]; rfl
  have hpower : t.power = s.power := by rw [hframe]; rfl
  have hmem : t.mem = s.mem := by rw [hframe]; rfl
  have ht : t.halted = true := by
    rw [← h, State.halted, State.halted, State.attached, State.attached, State.powered, State.powered, hpower, State.bit_of_regs hregs, State.bit_of_regs hregs]
  refine ⟨ht, _, (abstractCommand_reads ht hr hlegal').trans (congrArg Host.Outcome.next hread), rfl, rfl, ?_, ?_⟩
  · exact fun a _ => State.rd_of_regs hregs a
  · exact SameMem.of_mem hmem

theorem State.abstractRead_fresh {s : State} {r : Nat} (hr : 0x1000 < r) (hgpr : s.dbg.gpr = []) :
    s.abstractRead r = { s with freeCtr := s.freeCtr + 1, dbg := { s.dbg with gpr := [(r, wordOf s.free.1)], data := s.free.1 } } := by
  unfold State.abstractRead
  rw [if_pos (by omega), if_neg (by omega), hgpr]
  dsimp only [List.find?_nil, State.free]
  rw [hgpr, List.nil_append]

theorem abstract_stays {s : State} {r : Nat} (h : s.halted = true) (hlo : 0x1000 < r) (hr : r < 0x1020) (hgpr : s.dbg.gpr = []) :
    Does (.debugAbstractCommand r none) s (fun t => RegsBut s t [] ∧ SameMem s t ∧ Does (.debugAbstractCommand r none) t (fun u => u.dbg.data = t.dbg.data)) := by
  have hlegal : abstractIllegal r false = false := by
    rw [abstractIllegal, decide_eq_false (by omega), Bool.false_and]
  have hread := State.abstractRead_fresh (s := s.setDbgExc false) hlo hgpr
  have hword : (wordOf (s.setDbgExc false).free.1).toNat = (s.setDbgExc false).free.1 := BitVec.toNat_ofNat .. |>.trans (Nat.mod_eq_of_lt (Config.freeWord _).isLt)
  refine ⟨_, (abstractCommand_reads h hr hlegal).trans (congrArg Host.Outcome.next hread), fun _ _ => rfl, fun _ => rfl, ?_⟩
  refine ⟨_, abstractCommand_reads h hr hlegal, ?_⟩
  rw [State.abstractRead_gpr (w := wordOf (s.setDbgExc false).free.1) hlo (by simp [State.setDbgExc])]
  exact hword



/-! The program buffer (R74) -/

theorem programBuffer_runs {s : State} (words : List Word) (acc : BusAccess) (h : s.halted = true) : exec (.debugProgramBuffer words acc) s =
    .next (match acc.write with | some w => (bufferFilled s words).coxStore acc.addr w | none => (bufferFilled s words).coxLoad acc.addr) := by
  have hdone : doDebugProgramBuffer s words acc = (match acc.write with | some w => (bufferFilled s words).coxStore acc.addr w | none => (bufferFilled s words).coxLoad acc.addr) := by
    unfold doDebugProgramBuffer
    rw [h, Bool.not_true, if_neg Bool.false_ne_true]
    rfl
  exact congrArg Host.Outcome.next hdone

theorem State.coxLoad_mem (s : State) {a : Nat} (hmem : inMem a = true) (ha : a < 0x40000000) : s.coxLoad a = { s with dbg := { s.dbg with data := s.ld a 4 } } := by
  have hmapped : mapped a = true := by
    rw [mapped, hmem]
    rfl
  have hper : inPeriph a = false := by
    rw [inPeriph, decide_eq_false (by omega), Bool.false_and]
  unfold State.coxLoad
  dsimp only
  rw [hmapped, Bool.not_true, if_neg Bool.false_ne_true, hper, if_neg Bool.false_ne_true, if_neg (by omega), hmem, if_pos rfl]

theorem tcm_plain {a : Nat} (hlo : 0x10000000 ≤ a) (hhi : a + 4 ≤ 0x10040000) : mapped a = true ∧ readOnly a = false ∧ inPeriph a = false := by
  refine ⟨?_, ?_, ?_⟩
  · simp only [mapped, inMem, Bool.or_eq_true, Bool.and_eq_true, decide_eq_true_eq]
    omega
  · have heflash : inEflash a = false := by
      simp only [inEflash, Bool.and_eq_false_imp, decide_eq_true_eq, decide_eq_false_iff_not]
      omega
    simp only [readOnly, heflash, Bool.or_eq_false_iff, Bool.and_eq_false_imp, decide_eq_true_eq, decide_eq_false_iff_not, Bool.or_false]
    omega
  · simp only [inPeriph, Bool.and_eq_false_imp, decide_eq_true_eq, decide_eq_false_iff_not]
    omega

theorem State.coxStore_tcm (s : State) {a : Nat} (w : Word) (hlo : 0x10000000 ≤ a) (hhi : a + 4 ≤ 0x10040000) : s.coxStore a w = s.st a 4 w.toNat := by
  obtain ⟨hmapped, hwrite, hper⟩ := tcm_plain hlo hhi
  have hok : (!mapped a || readOnly a) = false := by rw [hmapped, hwrite]; rfl
  unfold State.coxStore
  rw [hok, if_neg Bool.false_ne_true, hper, if_neg Bool.false_ne_true, if_neg (by omega)]

theorem buffer_stores {s : State} (words : List Word) {a : Nat} (w : Word) (h : s.halted = true) (hlo : 0x10000000 ≤ a) (hhi : a + 4 ≤ 0x10040000) :
    Does (.debugProgramBuffer words ⟨a, some w⟩) s (fun t => t.ld a 4 = w.toNat ∧ (∀ b, b < a ∨ a + 4 ≤ b → t.rdB b = s.rdB b) ∧ t = { bufferFilled s words with mem := t.mem }) := by
  refine ⟨_, (programBuffer_runs words ⟨a, some w⟩ h).trans (congrArg Host.Outcome.next ((bufferFilled s words).coxStore_tcm w hlo hhi)), ?_, fun b hb => ?_, ?_⟩
  · rw [State.ld_st]
    exact w.isLt
  · exact (State.rdB_wrBytes_out _ _ _ _ (by rwa [leBytes_length])).trans rfl
  · exact State.wrBytes_eq _ _ _

theorem buffer_unmapped {s : State} (words : List Word) {a : Nat} (w : Word) (h : s.halted = true) (hun : mapped a = false) :
    exec (.debugProgramBuffer words ⟨a, some w⟩) s = .next ((bufferFilled s words).coxBusError true a)
      ∧ exec (.debugProgramBuffer words ⟨a, none⟩) s = .next ((bufferFilled s words).coxBusError false a) := by
  have hstore : (bufferFilled s words).coxStore a w = (bufferFilled s words).coxBusError true a := by
    unfold State.coxStore
    rw [hun, Bool.not_false, Bool.true_or, if_pos rfl]
  have hload : (bufferFilled s words).coxLoad a = (bufferFilled s words).coxBusError false a := by
    unfold State.coxLoad
    dsimp only
    rw [hun, Bool.not_false, if_pos rfl]
  exact ⟨(programBuffer_runs words ⟨a, some w⟩ h).trans (congrArg Host.Outcome.next hstore),
    (programBuffer_runs words ⟨a, none⟩ h).trans (congrArg Host.Outcome.next hload)⟩

/-- Cores that are not halted ignore the debugger. -/
theorem notHalted_ignores {s : State} (h : s.halted = false) : exec .debugResume s = .next s ∧ exec .debugStep s = .next s
    ∧ (∀ r w, exec (.debugAbstractCommand r w) s = .next s) ∧ ∀ words acc, exec (.debugProgramBuffer words acc) s = .next s := by
  refine ⟨congrArg Host.Outcome.next (if_neg (by simp [h])), congrArg Host.Outcome.next (if_neg (by simp [h])), fun r w => ?_, fun words acc => ?_⟩
  · exact congrArg Host.Outcome.next (if_pos (.inl (by simp [h])))
  · exact congrArg Host.Outcome.next (if_pos (by simp [h]))

theorem sysbusRead_rom {s : State} {a : Nat} (h : s.attached = true) (ha : a ≤ 0xFFFF) :
    Does (.debugSysbusRead a) s (fun t => ∃ n, t = { s with dbg := { s.dbg with data := n } }) := by
  have hdone : doDebugSysbusRead s a = { s with dbg := { s.dbg with data := Config.freeOf 990 a % 2 ^ 32 } } := by
    rw [doDebugSysbusRead, h, Bool.not_true, if_neg Bool.false_ne_true, if_pos ha]
  exact ⟨_, congrArg Host.Outcome.next hdone, _, rfl⟩

theorem sysbusRead_beyond {s : State} {a : Nat} (h : s.attached = true) (ha : 0xFFFF < a) : exec (.debugSysbusRead a) s = .next (s.busRecord .debugPort false a) := by
  have hdone : doDebugSysbusRead s a = s.busRecord .debugPort false a := by
    rw [doDebugSysbusRead, h, Bool.not_true, if_neg Bool.false_ne_true, if_neg (by omega)]
  exact congrArg Host.Outcome.next hdone

/-- The registers that R57 gives. -/
theorem abstract_fixed {s : State} (h : s.halted = true) (e : Nat × Nat) (he : e ∈ ([(0x1000, 0), (0x301, 0x40001104), (0xF14, 0)] : List (Nat × Nat))) :
    Does (.debugAbstractCommand e.1 none) s (fun t => t = { s with dbg := { s.dbg with data := e.2, exception := false } }) := by
  simp only [List.mem_cons, List.not_mem_nil, or_false] at he
  obtain rfl | rfl | rfl := he
  all_goals exact ⟨_, abstractCommand_reads h (by decide) (by decide), rfl⟩

/-- Settles O58: authentication, halted cores, the program buffer and the debug bus, clause by clause. -/
theorem debugPort : Obligations.DebugPort := by
  refine ⟨?_, ?_, ?_, ?_, ?_, ?_, ?_, ?_⟩
  · intro s sig h
    exact congrArg Host.Outcome.next (if_pos (by rw [h]; rfl))
  · intro s sig h
    exact authenticated h
  · refine fun s => ⟨fun h => ?_, fun h => congrArg Host.Outcome.next (if_neg (by simp [h]))⟩
    exact ⟨_, congrArg Host.Outcome.next (if_pos h), State.bit_setBit_self _ _ (by decide), by simp, SameMem.of_mem (State.setBit_mem s Reg.DBG_STAT 3 true), rfl⟩
  · intro s h
    refine ⟨resumed h, ⟨_, congrArg Host.Outcome.next (if_pos h), rfl⟩, abstract_fixed h, fun r w hr hx0 hmisa hlegal => abstract_readBack h hr hx0 hmisa hlegal,
      fun r hlo hr hgpr => abstract_stays h hlo hr hgpr, fun r w hill => ⟨_, abstractCommand_traps h hill, rfl⟩⟩
  · intro s words a h
    refine ⟨fun hmem ha => ?_, fun w hlo hhi => buffer_stores words w h hlo hhi, fun w hun => buffer_unmapped words w h hun⟩
    exact ⟨_, (programBuffer_runs words ⟨a, none⟩ h).trans (congrArg Host.Outcome.next ((bufferFilled s words).coxLoad_mem hmem ha)), rfl⟩
  · intro s h
    exact notHalted_ignores h
  · intro s h
    exact ⟨fun a ha => sysbusRead_rom h ha, fun a ha => sysbusRead_beyond h ha, congrArg Host.Outcome.next (if_pos h)⟩
  · intro s h
    exact ⟨congrArg Host.Outcome.next (if_neg (by simp [h])), fun a => congrArg Host.Outcome.next (if_pos (by rw [h]; rfl))⟩

end Sys2Proof.Machine
end

section
/-!
PROOFS. High-voltage and temperature conversions (R169 to R176). They settle O31.
-/

namespace Sys2Proof.Machine

theorem OnlyRegs.refl (s : State) (l : List Nat) : OnlyRegs s s l := ⟨RegsBut.refl s l, SameMem.refl s, rfl⟩

theorem OnlyRegs.trans {s t u : State} {l : List Nat} (h : OnlyRegs s t l) (k : OnlyRegs t u l) : OnlyRegs s u l := by
  obtain ⟨hregs, hmem, hframe⟩ := h
  obtain ⟨kregs, kmem, kframe⟩ := k
  exact ⟨hregs.trans kregs, fun a => (kmem a).trans (hmem a), regs_frame_trans hframe kframe⟩

theorem OnlyRegs.mono {s t : State} {l m : List Nat} (h : OnlyRegs s t l) (hm : ∀ a ∈ l, a ∈ m) : OnlyRegs s t m :=
  ⟨RegsBut.mono h.1 hm, h.2⟩

theorem OnlyRegs.setBit {s t : State} {l : List Nat} {a : Nat} (b : Nat) (v : Bool) (h : OnlyRegs s t l) (ha : a ∈ l) : OnlyRegs s (t.setBit a b v) l :=
  h.trans ⟨RegsBut.setBit b v (RegsBut.refl t l) ha, SameMem.of_mem (State.setBit_mem t a b v), rfl⟩

theorem OnlyRegs.setFld {s t : State} {l : List Nat} {a : Nat} (lo w v : Nat) (h : OnlyRegs s t l) (ha : a ∈ l) : OnlyRegs s (t.setFld a lo w v) l :=
  h.trans ⟨RegsBut.setFld lo w v (RegsBut.refl t l) ha, SameMem.of_mem (State.setFld_mem t a lo w v), rfl⟩

/-! High-voltage sense (R169 to R172) -/

theorem hvsCh_ne {ch : Nat} (h : ch < 6) : Reg.HVS_CH ch ≠ Reg.HVS_STAT ∧ Reg.HVS_CH ch ≠ Reg.HVS_IRQ ∧ ∀ c, Reg.HVS_CH ch ≠ Reg.HVS_TRIM c := by
  unfold Reg.HVS_CH Reg.HVS_STAT Reg.HVS_IRQ Reg.HVS_TRIM
  exact ⟨by omega, by omega, fun c => by omega⟩

theorem clampInt_toNat_le (v : Int) : (clampInt 0 65535 v).toNat ≤ 65535 := by
  unfold clampInt
  split
  · decide
  · split
    · decide
    · omega

/-- A code taken into RAW. -/
def State.hvsRaw (s : State) (ch code : Nat) : State := s.setFld (Reg.HVS_CH ch) 0 16 code

/-- The codes of a channel's window with the newest first, and their mean in MEAN. -/
def State.hvsMeaned (s : State) (ch : Nat) (w : List Nat) : State :=
  ({ s with meas := { s.meas with hvs := Tab.put [] s.meas.hvs ch w } } : State).setFld (Reg.HVS_CH ch) 16 16
    (({ s with meas := { s.meas with hvs := Tab.put [] s.meas.hvs ch w } } : State).hvsTrimmed ch (w.foldl (· + ·) 0 / w.length))

theorem State.hvsTrimmed_of_rd {s t : State} {c : Nat} (h : t.rd (Reg.HVS_TRIM c) = s.rd (Reg.HVS_TRIM c)) (mean : Nat) : t.hvsTrimmed c mean = s.hvsTrimmed c mean := by
  rw [State.hvsTrimmed, State.hvsTrimmed, State.fld_of_rd h, State.fld_of_rd h]

theorem State.hvsMeaned_shows (s : State) (ch : Nat) (w : List Nat) : let t := s.hvsMeaned ch w
    t.fld (Reg.HVS_CH ch) 0 16 = s.fld (Reg.HVS_CH ch) 0 16 ∧ Tab.get [] t.meas.hvs ch = w
      ∧ t.fld (Reg.HVS_CH ch) 16 16 = s.hvsTrimmed ch (w.foldl (· + ·) 0 / w.length) ∧ RegsBut s t [Reg.HVS_CH ch] ∧ t.mem = s.mem := by
  refine ⟨?_, ?_, ?_, ?_, ?_⟩
  · rw [State.hvsMeaned, State.fld_setFld_other _ _ (by decide) (by decide), State.fld_mk]
  · rw [State.hvsMeaned, State.setFld_meas]
    exact Tab.get_put_self ..
  · have hle : s.hvsTrimmed ch (w.foldl (· + ·) 0 / w.length) ≤ 65535 := clampInt_toNat_le _
    rw [State.hvsMeaned, State.fld_setFld_self _ _ (by decide)]
    exact Nat.mod_eq_of_lt (a := s.hvsTrimmed ch (w.foldl (· + ·) 0 / w.length)) (by omega)
  · refine RegsBut.setFld _ _ _ (fun _ _ => rfl) (List.mem_singleton.mpr rfl)
  · rw [State.hvsMeaned, State.setFld_mem]

theorem doHvsConversion_takes {s : State} {ch code : Nat} (hch : ch < 6) (hon : s.bit Reg.HVS_CTRL ch = true) (hcode : code < 65535)
    (htest : getField s.meas.hvsTest ch 1 = 0) :
    doHvsConversion s ch code = (s.hvsRaw ch code).hvsMeaned ch ((code :: Tab.get [] s.meas.hvs ch).take (2 ^ s.fld Reg.HVS_CTRL 8 3)) := by
  have hctrl : Reg.HVS_CH ch ≠ Reg.HVS_CTRL := by unfold Reg.HVS_CH Reg.HVS_CTRL; omega
  have hmin : min code 65535 = code := by omega
  have hmeas : (s.hvsRaw ch code).meas = s.meas := State.setFld_meas ..
  have hctl : (s.hvsRaw ch code).fld Reg.HVS_CTRL 8 3 = s.fld Reg.HVS_CTRL 8 3 := State.fld_setFld_ne _ _ _ _ _ _ hctrl
  unfold doHvsConversion
  rw [if_neg (by omega), hon, Bool.not_true, if_neg Bool.false_ne_true, hmin]
  dsimp only
  rw [if_neg (show ¬ code = 65535 by omega), ← State.hvsRaw, hmeas, htest, if_neg (by decide), hctl]
  rfl

theorem hvsConverted {s : State} {ch code : Nat} (hch : ch < 6) (hon : s.bit Reg.HVS_CTRL ch = true) (hcode : code < 65535)
    (htest : getField s.meas.hvsTest ch 1 = 0) :
    Does (.hvsConversion ch code) s (fun t =>
      t.fld (Reg.HVS_CH ch) 0 16 = code ∧ Tab.get [] t.meas.hvs ch = (code :: Tab.get [] s.meas.hvs ch).take (2 ^ s.fld Reg.HVS_CTRL 8 3)
        ∧ t.fld (Reg.HVS_CH ch) 16 16 = s.hvsTrimmed ch ((Tab.get [] t.meas.hvs ch).foldl (· + ·) 0 / (Tab.get [] t.meas.hvs ch).length)
        ∧ RegsBut s t [Reg.HVS_CH ch] ∧ SameMem s t) := by
  refine ⟨_, congrArg Host.Outcome.next (doHvsConversion_takes hch hon hcode htest), ?_⟩
  obtain ⟨hraw, hwin, hmean, hregs, hmem⟩ := (s.hvsRaw ch code).hvsMeaned_shows ch ((code :: Tab.get [] s.meas.hvs ch).take (2 ^ s.fld Reg.HVS_CTRL 8 3))
  have hfld : (s.hvsRaw ch code).fld (Reg.HVS_CH ch) 0 16 = code := by
    rw [State.hvsRaw, State.fld_setFld_self _ _ (by decide)]
    exact Nat.mod_eq_of_lt (by omega)
  have htrim : (s.hvsRaw ch code).rd (Reg.HVS_TRIM ch) = s.rd (Reg.HVS_TRIM ch) := State.rd_setFld_ne _ _ _ _ ((hvsCh_ne hch).2.2 ch)
  refine ⟨hraw.trans hfld, hwin, ?_, ?_, SameMem.of_mem (hmem.trans (State.setFld_mem ..))⟩
  · rw [hwin, hmean, State.hvsTrimmed_of_rd htrim]
  · exact RegsBut.trans (RegsBut.setFld _ _ _ (RegsBut.refl s _) (List.mem_singleton.mpr rfl)) hregs

theorem hvsFullScale {s : State} {ch code : Nat} (hch : ch < 6) (hon : s.bit Reg.HVS_CTRL ch = true) (hcode : 65535 ≤ code) :
    Does (.hvsConversion ch code) s (fun t => t.fld (Reg.HVS_CH ch) 0 16 = 65535 ∧ t.bit Reg.HVS_STAT (8 + ch) = true ∧ t.bit Reg.HVS_IRQ 1 = true) := by
  obtain ⟨hstat, hirq, -⟩ := hvsCh_ne hch
  have hmin : min code 65535 = 65535 := by omega
  refine ⟨_, rfl, ?_⟩
  unfold doHvsConversion
  rw [if_neg (by omega), hon, Bool.not_true, if_neg Bool.false_ne_true, hmin]
  dsimp only
  rw [if_pos rfl]
  have hraw : (((s.setFld (Reg.HVS_CH ch) 0 16 65535).setBit Reg.HVS_STAT (8 + ch) true).setBit Reg.HVS_IRQ 1 true).fld (Reg.HVS_CH ch) 0 16 = 65535 := by
    rw [State.fld_setBit_ne _ _ _ _ _ hirq.symm, State.fld_setBit_ne _ _ _ _ _ hstat.symm, State.fld_setFld_self _ _ (by decide),
      Nat.mod_eq_of_lt (by decide)]
  have hsat : (((s.setFld (Reg.HVS_CH ch) 0 16 65535).setBit Reg.HVS_STAT (8 + ch) true).setBit Reg.HVS_IRQ 1 true).bit Reg.HVS_STAT (8 + ch) = true := by
    rw [State.bit_setBit_ne _ _ _ _ (by decide), State.bit_setBit_self _ _ (by omega)]
  have hflag : (((s.setFld (Reg.HVS_CH ch) 0 16 65535).setBit Reg.HVS_STAT (8 + ch) true).setBit Reg.HVS_IRQ 1 true).bit Reg.HVS_IRQ 1 = true := State.bit_setBit_self _ _ (by decide)
  generalize ((s.setFld (Reg.HVS_CH ch) 0 16 65535).setBit Reg.HVS_STAT (8 + ch) true).setBit Reg.HVS_IRQ 1 true = u at hraw hsat hflag
  split
  · exact ⟨hraw, hsat, hflag⟩
  · obtain ⟨kraw, -, -, kregs, -⟩ := u.hvsMeaned_shows ch ((65535 :: Tab.get [] u.meas.hvs ch).take (2 ^ u.fld Reg.HVS_CTRL 8 3))
    refine ⟨kraw.trans hraw, ?_, ?_⟩
    · exact (State.bit_of_rd (kregs _ (by simpa using hstat.symm)) _).trans hsat
    · exact (State.bit_of_rd (kregs _ (by simpa using hirq.symm)) _).trans hflag

theorem hvsOff {s : State} {ch code : Nat} (hch : ch < 6) (hoff : s.bit Reg.HVS_CTRL ch = false) :
    Does (.hvsConversion ch code) s (fun t => t.rdN (Reg.HVS_CH ch) = 0 ∧ OnlyRegs s t [Reg.HVS_CH ch]) := by
  have hdone : doHvsConversion s ch code = s.wrN (Reg.HVS_CH ch) 0 := by
    unfold doHvsConversion
    rw [if_neg (by omega), hoff, Bool.not_false, if_pos rfl]
  refine ⟨_, congrArg Host.Outcome.next hdone, ?_, OnlyRegs.wrN s _ 0⟩
  rw [State.rdN_wrN_self, Nat.zero_mod]

/-- One channel's test judged: OPEN follows, a change is flagged and logged (R172). -/
def State.openJudged (t full : Nat) (s : State) (c : Nat) : State :=
  if getField t c 1 = 0 then s
  else if s.bit Reg.HVS_STAT c = decide (getField full c 1 = 1) then s
  else ((s.setBit Reg.HVS_STAT c (decide (getField full c 1 = 1))).setBit Reg.HVS_IRQ 0 true).logS 0x0704 (u8 c ++ u8 (if decide (getField full c 1 = 1) then 1 else 0))

/-- The registers that a test's end may write. -/
def openRegs : List Nat := [Reg.HVS_STAT, Reg.HVS_IRQ] ++ logRegs 0

theorem State.openJudged_shows (t full : Nat) (s : State) {c : Nat} (hc : c < 6) : RegsBut s (s.openJudged t full c) openRegs ∧ LogFrame s (s.openJudged t full c)
    ∧ (s.openJudged t full c).bit Reg.HVS_STAT c = (if getField t c 1 = 0 then s.bit Reg.HVS_STAT c else decide (getField full c 1 = 1))
    ∧ ∀ d, d < 6 → d ≠ c → (s.openJudged t full c).bit Reg.HVS_STAT d = s.bit Reg.HVS_STAT d := by
  unfold State.openJudged
  split
  case isTrue => exact ⟨RegsBut.refl s _, rfl, rfl, fun _ _ _ => rfl⟩
  split
  case isTrue h => exact ⟨RegsBut.refl s _, rfl, h, fun _ _ _ => rfl⟩
  have hstat (b : Nat) (u : State) (l : List Byte) : ((u.setBit Reg.HVS_IRQ 0 true).logS 0x0704 l).bit Reg.HVS_STAT b = u.bit Reg.HVS_STAT b := by
    rw [State.bit_of_rd (State.rd_logS _ _ _ (by decide)), State.bit_setBit_ne _ _ _ _ (by decide)]
  refine ⟨?_, ?_, ?_, fun d hd hne => ?_⟩
  · refine RegsBut.logS _ _ (RegsBut.setBit _ _ (RegsBut.setBit _ _ (RegsBut.refl s _) (by decide)) (by decide)) ?_
    exact fun a ha => List.mem_append_right _ ha
  · exact LogFrame.trans rfl (State.logS_eq _ _ _)
  · rw [hstat, State.bit_setBit_self _ _ (by omega)]
  · rw [hstat, State.bit_setBit_other _ _ (by omega) hne.symm]

/-- Channels judged one after the other. -/
theorem openJudged_foldl (t full : Nat) (l : List Nat) (hl : ∀ c ∈ l, c < 6) (s : State) : let u := l.foldl (State.openJudged t full) s
    RegsBut s u openRegs ∧ LogFrame s u
      ∧ (∀ d, d < 6 → u.bit Reg.HVS_STAT d = if d ∉ l ∨ getField t d 1 = 0 then s.bit Reg.HVS_STAT d else decide (getField full d 1 = 1)) := by
  induction l generalizing s with
  | nil => exact ⟨RegsBut.refl s _, rfl, fun d _ => by simp⟩
  | cons c r ih =>
    obtain ⟨hregs, hframe, hself, hother⟩ := s.openJudged_shows t full (hl c (List.mem_cons_self ..))
    obtain ⟨kregs, kframe, kbits⟩ := ih (fun d hd => hl d (List.mem_cons_of_mem _ hd)) (s.openJudged t full c)
    refine ⟨hregs.trans kregs, hframe.trans kframe, fun d hd => ?_⟩
    rw [List.foldl_cons, kbits d hd]
    by_cases hdc : d = c
    · subst hdc
      rw [hself]
      by_cases h0 : getField t d 1 = 0 <;> by_cases hr : d ∈ r <;> simp [h0, hr]
    · rw [hother d hd hdc]
      simp [hdc]

theorem hvsTestEnded (s : State) (full : Nat) :
    Does (.hvsTestEnd full) s (fun t =>
      (∀ c, c < 6 → t.bit Reg.HVS_STAT c = if getField s.meas.hvsTest c 1 = 0 then s.bit Reg.HVS_STAT c else decide (getField full c 1 = 1))
        ∧ t.meas = { s.meas with hvsTest := 0 } ∧ RegsBut s t ([Reg.HVS_STAT, Reg.HVS_IRQ] ++ logRegs 0) ∧ SameMem s t) := by
  obtain ⟨hregs, hframe, hbits⟩ := openJudged_foldl s.meas.hvsTest full (List.range 6) (fun c hc => List.mem_range.mp hc) s
  refine ⟨{ (List.range 6).foldl (State.openJudged s.meas.hvsTest full) s with
    meas := { ((List.range 6).foldl (State.openJudged s.meas.hvsTest full) s).meas with hvsTest := 0 } }, rfl, ?_⟩
  generalize (List.range 6).foldl (State.openJudged s.meas.hvsTest full) s = u at hregs hframe hbits
  have hmeas : u.meas = s.meas := by rw [hframe]
  have hmem : u.mem = s.mem := by rw [hframe]
  refine ⟨fun c hc => ?_, by rw [hmeas], hregs, SameMem.of_mem hmem⟩
  rw [State.bit_mk, hbits c hc]
  simp [hc]

/-! Temperatures (R174, R176) -/

/-- The word of TMP.LT after a conversion: the code with its open and short flags. -/
def State.ntcWord (s : State) (code : Nat) : Nat :=
  s.ntcCode code + (if decide (63570 < s.ntcCode code) then 65536 else 0) + (if decide (s.ntcCode code < 1966) then 131072 else 0)

theorem State.ntcCode_le (s : State) (code : Nat) : s.ntcCode code ≤ 65535 := by
  unfold State.ntcCode
  have := clampInt_toNat_le (roundDiv ((code : Int) * (1000000 + signed 16 (s.fld Reg.TMP_REFTRIM 0 16))) 1000000)
  omega

/-- What a word of TMP.LT shows. -/
theorem State.ntcWord_shows {s t : State} {m code : Nat} (h : t.rdN (Reg.TMP_LT m) = s.ntcWord code) : t.fld (Reg.TMP_LT m) 0 16 = s.ntcCode code
    ∧ t.bit (Reg.TMP_LT m) 16 = decide (63570 < s.ntcCode code) ∧ t.bit (Reg.TMP_LT m) 17 = decide (s.ntcCode code < 1966) := by
  have hle := s.ntcCode_le code
  unfold State.bit State.fld getField
  rw [h]
  unfold State.ntcWord
  generalize s.ntcCode code = n at hle
  simp only [decide_eq_true_eq]
  refine ⟨?_, decide_eq_decide.mpr ?_, decide_eq_decide.mpr ?_⟩
  all_goals split_ifs <;> omega

/-- The registers that the conversions write. -/
def tmpRegs : List Nat := (List.range 8).map Reg.TMP_LT ++ [Reg.TMP_IRQ, Reg.TMP_DIE]

theorem tmpLt_mem {m : Nat} (h : m < 8) : Reg.TMP_LT m ∈ tmpRegs := List.mem_append_left _ (List.mem_map.mpr ⟨m, List.mem_range.mpr h, rfl⟩)

theorem tmpLt_ne {m : Nat} (h : m < 8) : Reg.TMP_IRQ ≠ Reg.TMP_LT m ∧ Reg.TMP_DIE ≠ Reg.TMP_LT m := by
  unfold Reg.TMP_LT Reg.TMP_IRQ Reg.TMP_DIE
  omega

theorem tmpLt_inj {m k : Nat} (h : m ≠ k) : Reg.TMP_LT m ≠ Reg.TMP_LT k := by
  unfold Reg.TMP_LT
  omega

theorem State.ntcConvert_shows (s : State) {m : Nat} (code : Nat) (hm : m < 8) : OnlyRegs s (s.ntcConvert m code) tmpRegs
    ∧ (s.bit Reg.TMP_CTRL m = true → (s.ntcConvert m code).rdN (Reg.TMP_LT m) = s.ntcWord code)
    ∧ (s.bit Reg.TMP_CTRL m = false → (s.ntcConvert m code).rd (Reg.TMP_LT m) = s.rd (Reg.TMP_LT m))
    ∧ ∀ k, k < 8 → k ≠ m → (s.ntcConvert m code).rd (Reg.TMP_LT k) = s.rd (Reg.TMP_LT k) := by
  have hword : s.ntcWord code < 2 ^ 32 := by
    have := s.ntcCode_le code
    unfold State.ntcWord
    split_ifs <;> omega
  have hval : (s.wrN (Reg.TMP_LT m) (s.ntcWord code)).rdN (Reg.TMP_LT m) = s.ntcWord code := by rw [State.rdN_wrN_self, Nat.mod_eq_of_lt hword]
  have honly : OnlyRegs s (s.wrN (Reg.TMP_LT m) (s.ntcWord code)) tmpRegs :=
    (OnlyRegs.wrN s _ _).mono (fun a ha => List.mem_singleton.mp ha ▸ tmpLt_mem hm)
  have hother (k : Nat) (hk : k ≠ m) : (s.wrN (Reg.TMP_LT m) (s.ntcWord code)).rd (Reg.TMP_LT k) = s.rd (Reg.TMP_LT k) := State.rd_wrN_ne _ _ (tmpLt_inj hk.symm)
  unfold State.ntcConvert
  dsimp only
  rw [← State.ntcWord]
  cases hon : s.bit Reg.TMP_CTRL m with
  | false => exact ⟨OnlyRegs.refl s _, fun h => absurd h (by simp), fun _ => rfl, fun _ _ _ => rfl⟩
  | true =>
    rw [Bool.not_true, if_neg Bool.false_ne_true]
    generalize s.wrN (Reg.TMP_LT m) (s.ntcWord code) = u at hval honly hother
    split
    · refine ⟨honly.setBit _ _ (by decide), fun _ => ?_, fun h => absurd h (by simp), fun k hk hne => ?_⟩
      · rw [State.rdN_of_rd (State.rd_setBit_ne _ _ _ (tmpLt_ne hm).1), hval]
      · rw [State.rd_setBit_ne _ _ _ (tmpLt_ne hk).1, hother k hne]
    · exact ⟨honly, fun _ => hval, fun h => absurd h (by simp), fun k _ hne => hother k hne⟩

theorem State.ntcWord_of_rd {s t : State} (h : t.rd Reg.TMP_REFTRIM = s.rd Reg.TMP_REFTRIM) (code : Nat) : t.ntcWord code = s.ntcWord code := by
  unfold State.ntcWord State.ntcCode
  rw [State.fld_of_rd h]

/-- Inputs converted one after the other, each named once. -/
theorem ntcConvert_foldl (l : List (Nat × Nat)) (hl : ∀ e ∈ l, e.1 < 8) (hnd : (l.map Prod.fst).Nodup) (s : State) : let u := l.foldl (fun s e => s.ntcConvert e.1 e.2) s
    OnlyRegs s u tmpRegs ∧ (∀ e ∈ l, s.bit Reg.TMP_CTRL e.1 = true → u.rdN (Reg.TMP_LT e.1) = s.ntcWord e.2)
      ∧ (∀ m, m < 8 → m ∉ l.map Prod.fst ∨ s.bit Reg.TMP_CTRL m = false → u.rd (Reg.TMP_LT m) = s.rd (Reg.TMP_LT m)) := by
  induction l generalizing s with
  | nil => exact ⟨OnlyRegs.refl s _, fun e he => absurd he (List.not_mem_nil), fun _ _ _ => rfl⟩
  | cons x r ih =>
    obtain ⟨m, code⟩ := x
    have hm : m < 8 := hl (m, code) (List.mem_cons_self ..)
    rw [List.map_cons, List.nodup_cons] at hnd
    obtain ⟨hnot, hnd⟩ := hnd
    obtain ⟨honly, hself, hoff, hother⟩ := s.ntcConvert_shows code hm
    obtain ⟨konly, kself, krest⟩ := ih (fun e he => hl e (List.mem_cons_of_mem _ he)) hnd (s.ntcConvert m code)
    have hctrl (b : Nat) : (s.ntcConvert m code).bit Reg.TMP_CTRL b = s.bit Reg.TMP_CTRL b := State.bit_of_rd (honly.1 _ (by decide)) b
    refine ⟨honly.trans konly, fun e he hon => ?_, fun k hk hfree => ?_⟩
    · rw [List.foldl_cons]
      obtain rfl | he := List.mem_cons.mp he
      · rw [State.rdN_of_rd (krest m hm (.inl hnot)), hself hon]
      · rw [kself e he ((hctrl _).trans hon), State.ntcWord_of_rd (honly.1 _ (by decide))]
    · rw [List.foldl_cons]
      by_cases hkm : k = m
      · subst hkm
        rw [krest k hk (.inl hnot)]
        exact hoff (hfree.resolve_left (fun h => h (List.mem_cons_self ..)))
      · rw [krest k hk (hfree.imp (fun h hr => h (List.mem_cons_of_mem _ hr)) (fun h => (hctrl k).trans h)), hother k hk hkm]

/-- The die sensor taken when enabled. -/
def State.dieTaken (s : State) (die : Int) : State :=
  if s.bit Reg.TMP_CTRL 8 then s.setFld Reg.TMP_DIE 0 16 (clampInt (-32768) 32767 die % 65536).toNat else s

theorem State.dieTaken_shows (s : State) {die : Int} (hlo : -32768 ≤ die) (hhi : die ≤ 32767) : OnlyRegs s (s.dieTaken die) tmpRegs
    ∧ (s.bit Reg.TMP_CTRL 8 = true → signed 16 ((s.dieTaken die).fld Reg.TMP_DIE 0 16) = die) ∧ ∀ m, m < 8 → (s.dieTaken die).rd (Reg.TMP_LT m) = s.rd (Reg.TMP_LT m) := by
  have hclamp : clampInt (-32768) 32767 die = die := by
    unfold clampInt
    rw [if_neg (by omega), if_neg (by omega)]
  unfold State.dieTaken
  split
  case isTrue h =>
    refine ⟨(OnlyRegs.refl s tmpRegs).setFld _ _ _ (by decide), fun _ => ?_, fun m hm => State.rd_setFld_ne _ _ _ _ (tmpLt_ne hm).2⟩
    rw [State.fld_setFld_self _ _ (by decide), hclamp]
    unfold signed
    split_ifs <;> omega
  case isFalse h => exact ⟨OnlyRegs.refl s _, fun h' => absurd h' h, fun _ _ => rfl⟩

theorem temperaturesConverted {s : State} {codes : List Nat} {die : Int} (hlen : codes.length = 8) (hlo : -32768 ≤ die) (hhi : die ≤ 32767) :
    Does (.tmpConversion codes die) s (fun t =>
      (∀ m, m < 8 → s.bit Reg.TMP_CTRL m = true →
        t.fld (Reg.TMP_LT m) 0 16 = s.ntcCode (codes.getD m 0) ∧ t.bit (Reg.TMP_LT m) 16 = decide (63570 < s.ntcCode (codes.getD m 0))
          ∧ t.bit (Reg.TMP_LT m) 17 = decide (s.ntcCode (codes.getD m 0) < 1966))
        ∧ (∀ m, m < 8 → s.bit Reg.TMP_CTRL m = false → t.rd (Reg.TMP_LT m) = s.rd (Reg.TMP_LT m))
        ∧ (s.bit Reg.TMP_CTRL 8 = true → signed 16 (t.fld Reg.TMP_DIE 0 16) = die)
        ∧ OnlyRegs s t ((List.range 8).map Reg.TMP_LT ++ [Reg.TMP_IRQ, Reg.TMP_DIE])) := by
  have hkeys : ((List.range 8).zip codes).map Prod.fst = List.range 8 := List.map_fst_zip (by simp [hlen])
  obtain ⟨honly, hself, hrest⟩ := ntcConvert_foldl ((List.range 8).zip codes) (fun e he => List.mem_range.mp (List.of_mem_zip he).1)
    (by rw [hkeys]; exact List.nodup_range) s
  refine ⟨(((List.range 8).zip codes).foldl (fun s e => s.ntcConvert e.1 e.2) s).dieTaken die, rfl, ?_⟩
  generalize ((List.range 8).zip codes).foldl (fun s e => s.ntcConvert e.1 e.2) s = u at honly hself hrest
  obtain ⟨konly, kdie, krest⟩ := u.dieTaken_shows hlo hhi
  refine ⟨fun m hm hon => ?_, fun m hm hoff => ?_, fun hon => kdie ((State.bit_of_rd (honly.1 _ (by decide)) 8).trans hon), honly.trans konly⟩
  · have hmem : (m, codes.getD m 0) ∈ (List.range 8).zip codes := by
      refine List.mem_iff_getElem.mpr ⟨m, by simp [hlen, hm], ?_⟩
      simp [List.getD_eq_getElem?_getD, List.getElem?_eq_getElem (show m < codes.length by omega)]
    have hword : u.rdN (Reg.TMP_LT m) = s.ntcWord (codes.getD m 0) := hself (m, codes.getD m 0) hmem hon
    have hkept : (u.dieTaken die).rdN (Reg.TMP_LT m) = u.rdN (Reg.TMP_LT m) := State.rdN_of_rd (krest m hm)
    exact State.ntcWord_shows (hkept.trans hword)
  · rw [krest m hm, hrest m hm (.inr hoff)]

/-- Settles O31: the conversions of a channel, the test's end and the temperatures, clause by clause. -/
theorem voltageAndTemperatureConversions : Obligations.VoltageAndTemperatureConversions := by
  refine ⟨?_, ?_, ?_, ?_, ?_, ?_⟩
  · intro s ch code hch hon hcode htest
    exact hvsConverted hch hon hcode htest
  · intro s ch code hch hon hcode
    exact hvsFullScale hch hon hcode
  · intro s ch code hch hoff
    exact hvsOff hch hoff
  · intro s mask hawake
    exact Does.byRequester hawake rfl rfl
  · intro s full
    exact hvsTestEnded s full
  · intro s codes die hlen hlo hhi
    exact temperaturesConverted hlen hlo hhi

end Sys2Proof.Machine
end

section
/-!
PROOFS. The Coulomb converter and the fast current stream (R154 to R167, R177). They settle O30.
-/

namespace Sys2Proof.Machine

/-! The Coulomb converter (R154 to R160) -/

/-- The converter once an interval is counted: accumulator, sample and run above the wake threshold. -/
def State.ccaCounted (s : State) (settling above : Bool) (code : Int) (durNs : Nat) : State :=
  { s with
      cca := ⟨clampInt accMin accMax (s.cca.acc + ccaAdds code durNs), s.cca.settle - 1, code, s.cca.held, if above then s.cca.wakeRun + 1 else 0⟩
      meas := { s.meas with settled := s.meas.settled || settling } }

/-- The counted interval shown in CCA.STAT and CCA.SAMPLE. -/
def State.ccaShown (s : State) (settling : Bool) (code : Int) : State := (s.setBit Reg.CCA_STAT 1 settling).setFld Reg.CCA_SAMPLE 0 24 (code % 16777216).toNat

/-- The flags of an interval: the wake, the saturation and its record, and ACCL. -/
def State.ccaFlagged (s : State) (wake sat new : Bool) : State :=
  let s := if wake then s.setBit Reg.CCA_IRQ 0 true else s
  let s := if sat then ((s.setBit Reg.CCA_STAT 8 true).setBit Reg.CCA_IRQ 1 true) else s
  let s := if new && s.camlanOn then s.logS 0x0707 [] else s
  s.showAcc

/-- The sample of an interval. -/
def State.ccaSample (s : State) (nv : Int) : Int :=
  if decide (0 < s.cca.settle) then s.cca.held else ccaCode (if s.bit Reg.CCA_CTRL 1 then -s.ccaTrimmed nv else s.ccaTrimmed nv)

/-- Whether the converter is under its wake's watch and the sample above the threshold. -/
def State.ccaAbove (s : State) (code : Int) : Bool := s.bit Reg.CCA_STAT 2 && decide (s.fld Reg.CCA_WAKE 0 24 < code.natAbs)

def ccaSaturates (sum : Int) : Bool := decide (accMax < sum) || decide (sum < accMin)

theorem doCcaInterval_eq {s : State} {nv : Int} {ns : Nat} (h : s.bit Reg.CCA_CTRL 0 = true) : doCcaInterval s nv ns =
    let u := (s.ccaCounted (decide (0 < s.cca.settle)) (s.ccaAbove (s.ccaSample nv)) (s.ccaSample nv) ns).ccaShown (decide (0 < s.cca.settle)) (s.ccaSample nv)
    u.ccaFlagged (s.ccaAbove (s.ccaSample nv) && decide (u.fld Reg.CCA_WAKE 24 4 ≤ u.cca.wakeRun)) (ccaSaturates (s.cca.acc + ccaAdds (s.ccaSample nv) ns))
      (ccaSaturates (s.cca.acc + ccaAdds (s.ccaSample nv) ns) && !s.bit Reg.CCA_STAT 8) := by
  unfold doCcaInterval
  rw [h, Bool.not_true, if_neg Bool.false_ne_true]
  rfl

theorem State.ccaShown_shows (s : State) (settling : Bool) (code : Int) : (s.ccaShown settling code).bit Reg.CCA_STAT 1 = settling
    ∧ (s.ccaShown settling code).fld Reg.CCA_SAMPLE 0 24 = (code % 16777216).toNat ∧ OnlyRegs s (s.ccaShown settling code) [Reg.CCA_STAT, Reg.CCA_SAMPLE] := by
  refine ⟨?_, ?_, ((OnlyRegs.refl s _).setBit 1 settling (by decide)).setFld 0 24 _ (by decide)⟩
  · rw [State.ccaShown, State.bit_setFld_ne _ _ _ _ _ (by decide), State.bit_setBit_self _ _ (by decide)]
  · rw [State.ccaShown, State.fld_setFld_self _ _ (by decide)]
    omega

/-- The registers that the flags of an interval write. -/
def ccaFlagRegs : List Nat := [Reg.CCA_STAT, Reg.CCA_ACCL, Reg.CCA_IRQ] ++ logRegs 0

/-- The wake and the saturation flagged. -/
def State.ccaWarned (s : State) (wake sat : Bool) : State :=
  let s := if wake then s.setBit Reg.CCA_IRQ 0 true else s
  if sat then ((s.setBit Reg.CCA_STAT 8 true).setBit Reg.CCA_IRQ 1 true) else s

theorem State.ccaWarned_shows (s : State) (wake sat : Bool) : OnlyRegs s (s.ccaWarned wake sat) [Reg.CCA_STAT, Reg.CCA_IRQ]
    ∧ (s.ccaWarned wake sat).bit Reg.CCA_STAT 1 = s.bit Reg.CCA_STAT 1 ∧ (wake = true → (s.ccaWarned wake sat).bit Reg.CCA_IRQ 0 = true)
    ∧ (sat = true → (s.ccaWarned wake sat).bit Reg.CCA_STAT 8 = true ∧ (s.ccaWarned wake sat).bit Reg.CCA_IRQ 1 = true)
    ∧ (wake = false → sat = false → s.ccaWarned wake sat = s) := by
  have hwake : OnlyRegs s (s.setBit Reg.CCA_IRQ 0 true) [Reg.CCA_STAT, Reg.CCA_IRQ] := (OnlyRegs.refl s _).setBit 0 true (by decide)
  have hset : (s.setBit Reg.CCA_IRQ 0 true).bit Reg.CCA_IRQ 0 = true := State.bit_setBit_self _ _ (by decide)
  have hstat : (s.setBit Reg.CCA_IRQ 0 true).bit Reg.CCA_STAT 1 = s.bit Reg.CCA_STAT 1 := State.bit_setBit_ne _ _ _ _ (by decide)
  have hsat (u : State) (h : OnlyRegs s u [Reg.CCA_STAT, Reg.CCA_IRQ]) :
      OnlyRegs s ((u.setBit Reg.CCA_STAT 8 true).setBit Reg.CCA_IRQ 1 true) [Reg.CCA_STAT, Reg.CCA_IRQ]
        ∧ ((u.setBit Reg.CCA_STAT 8 true).setBit Reg.CCA_IRQ 1 true).bit Reg.CCA_STAT 1 = u.bit Reg.CCA_STAT 1
        ∧ ((u.setBit Reg.CCA_STAT 8 true).setBit Reg.CCA_IRQ 1 true).bit Reg.CCA_IRQ 0 = u.bit Reg.CCA_IRQ 0
        ∧ ((u.setBit Reg.CCA_STAT 8 true).setBit Reg.CCA_IRQ 1 true).bit Reg.CCA_STAT 8 = true
        ∧ ((u.setBit Reg.CCA_STAT 8 true).setBit Reg.CCA_IRQ 1 true).bit Reg.CCA_IRQ 1 = true := by
    refine ⟨(h.setBit 8 true (by decide)).setBit 1 true (by decide), ?_, ?_, ?_, State.bit_setBit_self _ _ (by decide)⟩
    · rw [State.bit_setBit_ne _ _ _ _ (by decide), State.bit_setBit_other _ _ (by decide) (by decide)]
    · rw [State.bit_setBit_other _ _ (by decide) (by decide), State.bit_setBit_ne _ _ _ _ (by decide)]
    · rw [State.bit_setBit_ne _ _ _ _ (by decide), State.bit_setBit_self _ _ (by decide)]
  cases wake <;> cases sat
  case false.false =>
    rw [show s.ccaWarned false false = s from rfl]
    exact ⟨OnlyRegs.refl s _, rfl, fun h => absurd h (by simp), fun h => absurd h (by simp), fun _ _ => rfl⟩
  case false.true =>
    rw [show s.ccaWarned false true = (s.setBit Reg.CCA_STAT 8 true).setBit Reg.CCA_IRQ 1 true from rfl]
    obtain ⟨h1, h2, -, h4, h5⟩ := hsat s (OnlyRegs.refl s _)
    exact ⟨h1, h2, fun h => absurd h (by simp), fun _ => ⟨h4, h5⟩, fun _ h => absurd h (by simp)⟩
  case true.false =>
    rw [show s.ccaWarned true false = s.setBit Reg.CCA_IRQ 0 true from rfl]
    exact ⟨hwake, hstat, fun _ => hset, fun h => absurd h (by simp), fun h => absurd h (by simp)⟩
  case true.true =>
    rw [show s.ccaWarned true true = ((s.setBit Reg.CCA_IRQ 0 true).setBit Reg.CCA_STAT 8 true).setBit Reg.CCA_IRQ 1 true from rfl]
    obtain ⟨h1, h2, h3, h4, h5⟩ := hsat _ hwake
    exact ⟨h1, h2.trans hstat, fun _ => h3.trans hset, fun _ => ⟨h4, h5⟩, fun h => absurd h (by simp)⟩

theorem State.showAcc_shows (s : State) : s.showAcc.rdN Reg.CCA_ACCL = (s.accCount % 4294967296).toNat ∧ OnlyRegs s s.showAcc [Reg.CCA_ACCL] := by
  refine ⟨?_, OnlyRegs.wrN s _ _⟩
  rw [State.showAcc, State.rdN_wrN_self]
  omega

/-- What the flags of an interval leave, set, and show. -/
theorem State.ccaFlagged_shows (s : State) (wake sat new : Bool) : let t := s.ccaFlagged wake sat new
    t.cca = s.cca ∧ t.meas = s.meas ∧ t.mem = s.mem ∧ t.rdN Reg.CCA_ACCL = (s.accCount % 4294967296).toNat ∧ t.bit Reg.CCA_STAT 1 = s.bit Reg.CCA_STAT 1
      ∧ t.fld Reg.CCA_SAMPLE 0 24 = s.fld Reg.CCA_SAMPLE 0 24 ∧ (wake = true → t.bit Reg.CCA_IRQ 0 = true)
      ∧ (sat = true → t.bit Reg.CCA_STAT 8 = true ∧ t.bit Reg.CCA_IRQ 1 = true)
      ∧ (wake = false → sat = false → t.rd Reg.CCA_IRQ = s.rd Reg.CCA_IRQ) ∧ (new = false → RegsBut s t [Reg.CCA_STAT, Reg.CCA_ACCL, Reg.CCA_IRQ]) := by
  obtain ⟨hregs, hstat, hwake, hsat, hsame⟩ := s.ccaWarned_shows wake sat
  have hflag : s.ccaFlagged wake sat new = (if new && (s.ccaWarned wake sat).camlanOn then (s.ccaWarned wake sat).logS 0x0707 [] else s.ccaWarned wake sat).showAcc := rfl
  rw [hflag]
  generalize s.ccaWarned wake sat = u at hregs hstat hwake hsat hsame
  obtain ⟨hregs, -, hframe⟩ := hregs
  have hcca : u.cca = s.cca := by rw [hframe]
  have hmeas : u.meas = s.meas := by rw [hframe]
  have hmem : u.mem = s.mem := by rw [hframe]
  clear hframe
  have hlogged : ∃ v, (if new && u.camlanOn then u.logS 0x0707 [] else u) = v ∧ v.cca = u.cca ∧ v.meas = u.meas ∧ v.mem = u.mem ∧ RegsBut u v (logRegs 0)
      ∧ (new = false → v = u) := by
    refine ⟨_, rfl, ?_⟩
    split
    case isTrue h =>
      refine ⟨State.logS_cca .., State.logS_meas .., State.logS_mem .., RegsBut.logS _ _ (RegsBut.refl u _) (fun _ h => h), fun hn => ?_⟩
      rw [hn] at h
      exact absurd h (by simp)
    case isFalse => exact ⟨rfl, rfl, rfl, RegsBut.refl u _, fun _ => rfl⟩
  obtain ⟨v, hv, vcca, vmeas, vmem, vregs, vsame⟩ := hlogged
  rw [hv]
  obtain ⟨haccl, hshow, -, hshown⟩ := v.showAcc_shows
  have hcount : v.accCount = s.accCount := by rw [State.accCount, State.accCount, vcca, hcca]
  have hrd (a : Nat) (h : a ∉ Reg.CCA_ACCL :: logRegs 0) : v.showAcc.rd a = u.rd a := by
    rw [List.mem_cons, not_or] at h
    rw [hshow a (by simpa using h.1), vregs a h.2]
  refine ⟨?_, ?_, ?_, ?_, ?_, ?_, fun h => ?_, fun h => ⟨?_, ?_⟩, fun h1 h2 => ?_, fun h => ?_⟩
  · exact (congrArg State.cca hshown :).trans (vcca.trans hcca)
  · exact (congrArg State.meas hshown :).trans (vmeas.trans hmeas)
  · exact (congrArg State.mem hshown :).trans (vmem.trans hmem)
  · rw [haccl, hcount]
  · rw [State.bit_of_rd (hrd _ (by decide)), hstat]
  · rw [State.fld_of_rd (hrd _ (by decide)), State.fld_of_rd (hregs _ (by decide))]
  · rw [State.bit_of_rd (hrd _ (by decide)), hwake h]
  · rw [State.bit_of_rd (hrd _ (by decide)), (hsat h).1]
  · rw [State.bit_of_rd (hrd _ (by decide)), (hsat h).2]
  · rw [hrd _ (by decide), hsame h1 h2]
  · rw [vsame h] at hshow ⊢
    exact RegsBut.trans (hregs.mono (by simp +contextual)) (hshow.mono (by simp))


/-- What an interval leaves, sets and shows. -/
theorem doCcaInterval_shows {s : State} (nv : Int) (ns : Nat) (h : s.bit Reg.CCA_CTRL 0 = true) : let t := doCcaInterval s nv ns
    let sum := s.cca.acc + ccaAdds (s.ccaSample nv) ns
    t.cca = (s.ccaCounted (decide (0 < s.cca.settle)) (s.ccaAbove (s.ccaSample nv)) (s.ccaSample nv) ns).cca
      ∧ t.meas = { s.meas with settled := s.meas.settled || decide (0 < s.cca.settle) } ∧ t.mem = s.mem ∧ t.rdN Reg.CCA_ACCL = (t.accCount % 4294967296).toNat
      ∧ t.bit Reg.CCA_STAT 1 = decide (0 < s.cca.settle) ∧ t.fld Reg.CCA_SAMPLE 0 24 = (s.ccaSample nv % 16777216).toNat
      ∧ (s.ccaAbove (s.ccaSample nv) = true → s.fld Reg.CCA_WAKE 24 4 ≤ s.cca.wakeRun → t.bit Reg.CCA_IRQ 0 = true)
      ∧ (ccaSaturates sum = true → t.bit Reg.CCA_STAT 8 = true ∧ t.bit Reg.CCA_IRQ 1 = true)
      ∧ (s.ccaAbove (s.ccaSample nv) = false → ccaSaturates sum = false → t.rd Reg.CCA_IRQ = s.rd Reg.CCA_IRQ)
      ∧ (ccaSaturates sum = false → RegsBut s t [Reg.CCA_STAT, Reg.CCA_SAMPLE, Reg.CCA_ACCL, Reg.CCA_IRQ]) := by
  dsimp only
  rw [doCcaInterval_eq h]
  dsimp only
  generalize s.ccaAbove (s.ccaSample nv) = ab
  generalize s.ccaSample nv = code
  generalize ccaSaturates (s.cca.acc + ccaAdds code ns) = sat
  obtain ⟨hstat, hsample, hregs, hmem, hframe⟩ := (s.ccaCounted (decide (0 < s.cca.settle)) ab code ns).ccaShown_shows (decide (0 < s.cca.settle)) code
  have hcca : ((s.ccaCounted (decide (0 < s.cca.settle)) ab code ns).ccaShown (decide (0 < s.cca.settle)) code).cca
      = (s.ccaCounted (decide (0 < s.cca.settle)) ab code ns).cca := (congrArg State.cca hframe :)
  have hmeas : ((s.ccaCounted (decide (0 < s.cca.settle)) ab code ns).ccaShown (decide (0 < s.cca.settle)) code).meas
      = { s.meas with settled := s.meas.settled || decide (0 < s.cca.settle) } := (congrArg State.meas hframe :)
  have hmem' : ((s.ccaCounted (decide (0 < s.cca.settle)) ab code ns).ccaShown (decide (0 < s.cca.settle)) code).mem = s.mem := (congrArg State.mem hframe :)
  have hrun : ab = true → s.cca.wakeRun + 1 = (s.ccaCounted (decide (0 < s.cca.settle)) ab code ns).cca.wakeRun := by rintro rfl; rfl
  have hcounted : RegsBut s (s.ccaCounted (decide (0 < s.cca.settle)) ab code ns) [Reg.CCA_STAT, Reg.CCA_SAMPLE] := fun _ _ => rfl
  have hregs := hcounted.trans hregs
  clear hmem hframe hcounted
  generalize (s.ccaCounted (decide (0 < s.cca.settle)) ab code ns).ccaShown (decide (0 < s.cca.settle)) code = u at hstat hsample hregs hcca hmeas hmem'
  obtain ⟨kcca, kmeas, kmem, kaccl, kstat, ksample, kwake, ksat, ksame, kregs⟩ :=
    u.ccaFlagged_shows (ab && decide (u.fld Reg.CCA_WAKE 24 4 ≤ u.cca.wakeRun)) sat (sat && !s.bit Reg.CCA_STAT 8)
  generalize u.ccaFlagged (ab && decide (u.fld Reg.CCA_WAKE 24 4 ≤ u.cca.wakeRun)) sat (sat && !s.bit Reg.CCA_STAT 8) = t at kcca kmeas kmem kaccl kstat ksample kwake ksat ksame kregs
  have hcount : t.accCount = u.accCount := by rw [State.accCount, State.accCount, kcca]
  refine ⟨kcca.trans hcca, kmeas.trans hmeas, kmem.trans hmem', ?_, kstat.trans hstat, ksample.trans hsample, fun hab hcnt => kwake ?_, ksat, fun hab hs => ?_, fun hs => ?_⟩
  · rw [kaccl, hcount]
  · rw [hab, Bool.true_and, decide_eq_true_eq, State.fld_of_rd (hregs _ (by decide)), hcca, ← hrun hab]
    omega
  · rw [ksame (by rw [hab, Bool.false_and]) hs, hregs _ (by decide)]
  · exact RegsBut.trans (hregs.mono (by simp)) ((kregs (by rw [hs, Bool.false_and])).mono (by simp +contextual))

theorem clampInt_within {lo hi v : Int} (h1 : lo ≤ v) (h2 : v ≤ hi) : clampInt lo hi v = v := by
  rw [clampInt, if_neg (by omega), if_neg (by omega)]

theorem clampInt_above {lo hi v : Int} (h : hi < v) (hlo : lo ≤ hi) : clampInt lo hi v = hi := by
  rw [clampInt, if_neg (by omega), if_pos h]

theorem clampInt_bounds {lo hi : Int} (v : Int) (h : lo ≤ hi) : lo ≤ clampInt lo hi v ∧ clampInt lo hi v ≤ hi := by
  unfold clampInt
  split
  · exact ⟨le_refl _, h⟩
  · split
    · exact ⟨h, le_refl _⟩
    · omega

theorem ccaSaturates_within {sum : Int} (h1 : accMin ≤ sum) (h2 : sum ≤ accMax) : ccaSaturates sum = false := by
  rw [ccaSaturates, decide_eq_false (not_lt.mpr h2), decide_eq_false (not_lt.mpr h1)]
  rfl

theorem ccaInterval_counts {s : State} {nv : Int} {ns : Nat} {code : Int} (h : s.bit Reg.CCA_CTRL 0 = true) (hsettle : s.cca.settle = 0)
    (hcode : code = ccaCode (if s.bit Reg.CCA_CTRL 1 then -s.ccaTrimmed nv else s.ccaTrimmed nv))
    (hlo : accMin ≤ s.cca.acc + code * ns / 1280) (hhi : s.cca.acc + code * ns / 1280 ≤ accMax) :
    Does (.ccaInterval nv ns) s (fun t =>
      t.cca.acc = s.cca.acc + code * ns / 1280 ∧ t.cca.sample = code ∧ signed 24 (t.fld Reg.CCA_SAMPLE 0 24) = code ∧ t.rdN Reg.CCA_ACCL = (t.accCount % 4294967296).toNat
        ∧ t.bit Reg.CCA_STAT 1 = false ∧ t.meas = s.meas ∧ (s.bit Reg.CCA_STAT 2 = false → t.rdN Reg.CCA_IRQ = s.rdN Reg.CCA_IRQ)
        ∧ (s.bit Reg.CCA_STAT 2 = true → (s.fld Reg.CCA_WAKE 0 24 : Int) < code.natAbs → s.fld Reg.CCA_WAKE 24 4 ≤ s.cca.wakeRun → t.bit Reg.CCA_IRQ 0 = true)
        ∧ RegsBut s t [Reg.CCA_STAT, Reg.CCA_SAMPLE, Reg.CCA_ACCL, Reg.CCA_IRQ] ∧ SameMem s t) := by
  have hsample : s.ccaSample nv = code := by
    rw [State.ccaSample, hsettle, hcode]
    rfl
  have hrange : -8388608 ≤ code ∧ code ≤ 8388607 := hcode ▸ clampInt_bounds _ (by decide)
  obtain ⟨hcca, hmeas, hmem, haccl, hstat, hfld, hwake, -, hsame, hregs⟩ := doCcaInterval_shows nv ns h
  rw [hsample] at hcca hfld hwake hsame hregs
  have hsat : ccaSaturates (s.cca.acc + ccaAdds code ns) = false := ccaSaturates_within hlo hhi
  refine ⟨doCcaInterval s nv ns, rfl, ?_, ?_, ?_, haccl, ?_, ?_, fun h2 => ?_, fun h2 hth hcnt => ?_, hregs hsat, SameMem.of_mem hmem⟩
  · rw [hcca]
    exact clampInt_within hlo hhi
  · rw [hcca]
    rfl
  · rw [hfld]
    unfold signed
    split_ifs <;> omega
  · rw [hstat, hsettle]
    rfl
  · rw [hmeas, hsettle]
    simp
  · exact State.rdN_of_rd (hsame (by rw [State.ccaAbove, h2, Bool.false_and]) hsat)
  · refine hwake ?_ hcnt
    rw [State.ccaAbove, h2, Bool.true_and, decide_eq_true_eq]
    exact_mod_cast hth

theorem ccaInterval_settles {s : State} {nv : Int} {ns : Nat} (h : s.bit Reg.CCA_CTRL 0 = true) (hsettle : 0 < s.cca.settle)
    (hlo : accMin ≤ s.cca.acc + s.cca.held * ns / 1280) (hhi : s.cca.acc + s.cca.held * ns / 1280 ≤ accMax) :
    Does (.ccaInterval nv ns) s (fun t => t.cca.acc = s.cca.acc + s.cca.held * ns / 1280 ∧ t.cca.settle = s.cca.settle - 1 ∧ t.bit Reg.CCA_STAT 1 = true ∧ t.meas.settled = true) := by
  have hsample : s.ccaSample nv = s.cca.held := by rw [State.ccaSample, decide_eq_true hsettle, if_pos rfl]
  obtain ⟨hcca, hmeas, -, -, hstat, -⟩ := doCcaInterval_shows nv ns h
  rw [hsample] at hcca
  refine ⟨doCcaInterval s nv ns, rfl, ?_, ?_, ?_, ?_⟩
  · rw [hcca]
    exact clampInt_within hlo hhi
  · rw [hcca]
    rfl
  · rw [hstat, decide_eq_true hsettle]
  · rw [hmeas, decide_eq_true hsettle]
    exact Bool.or_true _

theorem ccaInterval_saturates {s : State} {nv : Int} {ns : Nat} (h : s.bit Reg.CCA_CTRL 0 = true) (hsettle : s.cca.settle = 0) (hinv : s.bit Reg.CCA_CTRL 1 = false)
    (hover : accMax < s.cca.acc + ccaCode (s.ccaTrimmed nv) * ns / 1280) :
    Does (.ccaInterval nv ns) s (fun t => t.cca.acc = accMax ∧ t.bit Reg.CCA_STAT 8 = true ∧ t.bit Reg.CCA_IRQ 1 = true) := by
  have hsample : s.ccaSample nv = ccaCode (s.ccaTrimmed nv) := by
    rw [State.ccaSample, hsettle, hinv]
    rfl
  obtain ⟨hcca, -, -, -, -, -, -, hsat, -⟩ := doCcaInterval_shows nv ns h
  rw [hsample] at hcca hsat
  refine ⟨doCcaInterval s nv ns, rfl, ?_, hsat ?_⟩
  · rw [hcca]
    exact clampInt_above hover (by decide)
  · rw [ccaSaturates, Bool.or_eq_true, decide_eq_true_eq]
    exact .inl hover

theorem coulombConverter_holds : coulombConverter := by
  refine ⟨?_, ?_, ?_, ?_, ?_⟩
  · intro s nv ns code h hsettle hcode hlo hhi
    exact ccaInterval_counts h hsettle hcode hlo hhi
  · intro s nv ns h hsettle hlo hhi
    exact ccaInterval_settles h hsettle hlo hhi
  · intro s nv ns h hsettle hinv hover
    exact ccaInterval_saturates h hsettle hinv hover
  · intro s nv ns h
    exact congrArg Host.Outcome.next (if_pos (by rw [h]; rfl))
  · intro s hawake
    obtain ⟨haccl, hshow⟩ := s.showAcc_shows
    refine Does.byRequester hawake rfl ⟨?_, ?_, (hshow.mono (by simp)).trans ((OnlyRegs.wrN s.showAcc _ _).mono (by simp))⟩
    · rw [doCcaLiveRead, State.rdN_wrN_ne _ _ (by decide), haccl]
    · rw [doCcaLiveRead, State.rdN_wrN_self]
      omega


/-! The fast current stream (R162 to R167) -/

/-- A trimmed code counted in the stroke's minimum, maximum and sum, and shown. -/
def State.fcsCounted (s : State) (c : Int) : State :=
  ({ s with meas := { s.meas with
    fMin := if s.meas.fCount = 0 then c else min s.meas.fMin c, fMax := if s.meas.fCount = 0 then c else max s.meas.fMax c, fSum := s.meas.fSum + c, fCount := s.meas.fCount + 1 } } : State).setFld
    Reg.FCS_SAMPLE 0 12 (c % 4096).toNat

/-- A saturated code flagged. -/
def State.fcsSaturated (s : State) (raw : Int) : State :=
  if raw = -2048 ∨ raw = 2047 then (s.setBit Reg.FCS_FLAGS 3 true).setBit Reg.FCS_IRQ 3 true else s

theorem doFcsSample_eq {s : State} (code : Int) (h : s.bit Reg.FCS_CTRL 0 = true) : doFcsSample s code =
    let raw := clampInt (-2048) 2047 (s.fcsTrimmed code)
    let c := clampInt (-2048) 2047 (if s.bit Reg.FCS_CTRL 1 then -raw else raw)
    ((s.fcsCounted c).fcsSaturated raw).captureSample c := by
  unfold doFcsSample
  rw [h, Bool.not_true, if_neg Bool.false_ne_true]
  rfl

theorem State.fcsCounted_shows (s : State) {c : Int} (hlo : -2048 ≤ c) (hhi : c ≤ 2047) : signed 12 ((s.fcsCounted c).fld Reg.FCS_SAMPLE 0 12) = c
    ∧ (s.fcsCounted c).meas = { s.meas with
      fMin := if s.meas.fCount = 0 then c else min s.meas.fMin c, fMax := if s.meas.fCount = 0 then c else max s.meas.fMax c, fSum := s.meas.fSum + c, fCount := s.meas.fCount + 1 }
    ∧ RegsBut s (s.fcsCounted c) [Reg.FCS_SAMPLE] ∧ (s.fcsCounted c).mem = s.mem := by
  refine ⟨?_, State.setFld_meas .., RegsBut.setFld _ _ _ (fun _ _ => rfl) (List.mem_singleton.mpr rfl), State.setFld_mem ..⟩
  rw [State.fcsCounted, State.fld_setFld_self _ _ (by decide)]
  unfold signed
  split_ifs <;> omega

theorem fcsSampled {s : State} {code raw : Int} (h : s.bit Reg.FCS_CTRL 0 = true) (hraw : raw = (if s.bit Reg.FCS_CTRL 1 then -s.fcsTrimmed code else s.fcsTrimmed code))
    (hlo : -2047 < raw) (hhi : raw < 2047) (hcap : s.bit Reg.FCS_CAP 16 = false) (hleft : s.meas.capLeft = none) :
    Does (.fcsSample code) s (fun t =>
      signed 12 (t.fld Reg.FCS_SAMPLE 0 12) = raw ∧ t.meas.fSum = s.meas.fSum + raw ∧ t.meas.fCount = s.meas.fCount + 1 ∧ t.meas.capture = (raw :: s.meas.capture).take 1024
        ∧ (0 < s.meas.fCount → t.meas.fMin = min s.meas.fMin raw ∧ t.meas.fMax = max s.meas.fMax raw) ∧ RegsBut s t [Reg.FCS_SAMPLE] ∧ SameMem s t) := by
  have htrim : -2047 < s.fcsTrimmed code ∧ s.fcsTrimmed code < 2047 := by
    split at hraw <;> omega
  have hclamp : clampInt (-2048) 2047 (s.fcsTrimmed code) = s.fcsTrimmed code := clampInt_within (by omega) (by omega)
  have hcode : clampInt (-2048) 2047 (if s.bit Reg.FCS_CTRL 1 then -s.fcsTrimmed code else s.fcsTrimmed code) = raw := by
    rw [← hraw, clampInt_within (by omega) (by omega)]
  have hdone := doFcsSample_eq code h
  dsimp only at hdone
  rw [hclamp, hcode, State.fcsSaturated, if_neg (by omega)] at hdone
  obtain ⟨hshown, hmeas, hregs, hmem⟩ := s.fcsCounted_shows (c := raw) (by omega) (by omega)
  refine ⟨_, congrArg Host.Outcome.next hdone, ?_⟩
  generalize s.fcsCounted raw = u at hshown hmeas hregs hmem
  have hcap' : u.bit Reg.FCS_CAP 16 = false := (State.bit_of_rd (hregs _ (by decide)) _).trans hcap
  have hleft' : u.meas.capLeft = none := by rw [hmeas]; exact hleft
  have htaken : u.captureSample raw = { u with meas := { u.meas with capture := (raw :: u.meas.capture).take 1024 } } := by
    unfold State.captureSample
    rw [hcap', if_neg Bool.false_ne_true]
    dsimp only
    rw [hleft']
  rw [htaken]
  refine ⟨hshown, ?_, ?_, ?_, fun hcount => ?_, hregs, SameMem.of_mem hmem⟩
  · dsimp only; rw [hmeas]
  · dsimp only; rw [hmeas]
  · dsimp only; rw [hmeas]
  · dsimp only
    rw [hmeas]
    exact ⟨if_neg (by omega), if_neg (by omega)⟩

theorem State.captureSample_keeps (s : State) (c : Int) : RegsBut s (s.captureSample c) [Reg.FCS_CAP, Reg.FCS_IRQ] ∧ (s.captureSample c).mem = s.mem
    ∧ (s.captureSample c).bit Reg.FCS_FLAGS 3 = s.bit Reg.FCS_FLAGS 3 ∧ (s.captureSample c).bit Reg.FCS_IRQ 3 = s.bit Reg.FCS_IRQ 3 := by
  have hdone (u : State) (hu : u.regs = s.regs) (hm : u.mem = s.mem) : let t := ((u.setBit Reg.FCS_CAP 16 true).setFld Reg.FCS_CAP 0 10 0).setBit Reg.FCS_IRQ 2 true
      RegsBut s t [Reg.FCS_CAP, Reg.FCS_IRQ] ∧ t.mem = s.mem ∧ t.bit Reg.FCS_FLAGS 3 = s.bit Reg.FCS_FLAGS 3 ∧ t.bit Reg.FCS_IRQ 3 = s.bit Reg.FCS_IRQ 3 := by
    have hregs : RegsBut s u [Reg.FCS_CAP, Reg.FCS_IRQ] := fun a _ => State.rd_of_regs hu a
    refine ⟨((hregs.setBit 16 true (by decide)).setFld 0 10 0 (by decide)).setBit 2 true (by decide), ?_, ?_, ?_⟩
    · rw [State.setBit_mem, State.setFld_mem, State.setBit_mem, hm]
    · rw [State.bit_setBit_ne _ _ _ _ (by decide), State.bit_setFld_ne _ _ _ _ _ (by decide), State.bit_setBit_ne _ _ _ _ (by decide), State.bit_of_regs hu]
    · rw [State.bit_setBit_other _ _ (by decide) (by decide), State.bit_setFld_ne _ _ _ _ _ (by decide), State.bit_setBit_ne _ _ _ _ (by decide), State.bit_of_regs hu]
  unfold State.captureSample
  split
  · exact ⟨RegsBut.refl s _, rfl, rfl, rfl⟩
  · dsimp only
    split
    · split
      · exact hdone _ rfl rfl
      · exact ⟨fun _ _ => rfl, rfl, rfl, rfl⟩
    · exact ⟨fun _ _ => rfl, rfl, rfl, rfl⟩

theorem fcsSaturates {s : State} {code : Int} (h : s.bit Reg.FCS_CTRL 0 = true) (hend : s.fcsTrimmed code ≤ -2048 ∨ 2047 ≤ s.fcsTrimmed code) :
    Does (.fcsSample code) s (fun t => t.bit Reg.FCS_FLAGS 3 = true ∧ t.bit Reg.FCS_IRQ 3 = true ∧ RegsBut s t [Reg.FCS_SAMPLE, Reg.FCS_FLAGS, Reg.FCS_IRQ, Reg.FCS_CAP] ∧ SameMem s t) := by
  have hclamp : clampInt (-2048) 2047 (s.fcsTrimmed code) = -2048 ∨ clampInt (-2048) 2047 (s.fcsTrimmed code) = 2047 := by
    unfold clampInt
    split_ifs <;> omega
  have hdone := doFcsSample_eq code h
  dsimp only at hdone
  rw [State.fcsSaturated, if_pos hclamp] at hdone
  have hbounds := clampInt_bounds (lo := -2048) (hi := 2047) (if s.bit Reg.FCS_CTRL 1 then -clampInt (-2048) 2047 (s.fcsTrimmed code) else clampInt (-2048) 2047 (s.fcsTrimmed code)) (by decide)
  generalize clampInt (-2048) 2047 (if s.bit Reg.FCS_CTRL 1 then -clampInt (-2048) 2047 (s.fcsTrimmed code) else clampInt (-2048) 2047 (s.fcsTrimmed code)) = c at hdone hbounds
  refine ⟨_, congrArg Host.Outcome.next hdone, ?_⟩
  obtain ⟨-, -, hregs, hmem⟩ := s.fcsCounted_shows hbounds.1 hbounds.2
  generalize s.fcsCounted c = u at hregs hmem
  have hflag : ((u.setBit Reg.FCS_FLAGS 3 true).setBit Reg.FCS_IRQ 3 true).bit Reg.FCS_FLAGS 3 = true := by
    rw [State.bit_setBit_ne _ _ _ _ (by decide), State.bit_setBit_self _ _ (by decide)]
  have hirq : ((u.setBit Reg.FCS_FLAGS 3 true).setBit Reg.FCS_IRQ 3 true).bit Reg.FCS_IRQ 3 = true := State.bit_setBit_self _ _ (by decide)
  have hset : RegsBut s ((u.setBit Reg.FCS_FLAGS 3 true).setBit Reg.FCS_IRQ 3 true) [Reg.FCS_SAMPLE, Reg.FCS_FLAGS, Reg.FCS_IRQ, Reg.FCS_CAP] :=
    ((hregs.mono (by simp)).setBit 3 true (by decide)).setBit 3 true (by decide)
  have hsmem : ((u.setBit Reg.FCS_FLAGS 3 true).setBit Reg.FCS_IRQ 3 true).mem = s.mem := by rw [State.setBit_mem, State.setBit_mem, hmem]
  generalize (u.setBit Reg.FCS_FLAGS 3 true).setBit Reg.FCS_IRQ 3 true = v at hflag hirq hset hsmem
  obtain ⟨kregs, kmem, kflag, kirq⟩ := v.captureSample_keeps c
  exact ⟨kflag.trans hflag, kirq.trans hirq, hset.trans (kregs.mono (by simp +contextual)), SameMem.of_mem (kmem.trans hsmem)⟩


/-! The comparators (R163 to R165) -/

theorem State.trigger_idle {s : State} (hcap : s.bit Reg.FCS_CAP 16 = false) (hleft : s.meas.capLeft = none) :
    s.trigger = { s with meas := { s.meas with capLeft := some 767 } } := by
  have hgo : (s.bit Reg.FCS_CAP 16 || s.meas.capLeft.isSome) = false := by rw [hcap, hleft]; rfl
  unfold State.trigger
  rw [hgo, if_neg Bool.false_ne_true]

theorem State.trigger_frame (s : State) : s.trigger = { s with meas := s.trigger.meas } := by
  unfold State.trigger
  split <;> rfl

/-- A short latched: flag, time and interrupt. -/
def State.shortLatched (s : State) (us : Nat) : State :=
  (((s.atUs us).setBit Reg.FCS_FLAGS 0 true).wrN Reg.FCS_OCSTIME ((s.atUs us).now % 4294967296)).setBit Reg.FCS_IRQ 0 true

theorem State.shortLatched_shows (s : State) {us : Nat} (hus : us < 2 ^ 15) : (s.shortLatched us).bit Reg.FCS_FLAGS 0 = true
    ∧ (s.shortLatched us).rdN Reg.FCS_OCSTIME = (s.stk.base + us) % 2 ^ 48 % 2 ^ 32 ∧ (s.shortLatched us).bit Reg.FCS_IRQ 0 = true
    ∧ OnlyRegs s (s.shortLatched us) [Reg.STK_PHASE, Reg.FCS_FLAGS, Reg.FCS_OCSTIME, Reg.FCS_IRQ] := by
  have hnow : (s.atUs us).now = (s.stk.base + us) % 2 ^ 48 := by
    rw [State.now, State.us_atUs, Nat.mod_eq_of_lt hus, State.atUs, State.setFld_stk]
  unfold State.shortLatched
  rw [hnow]
  refine ⟨?_, ?_, State.bit_setBit_self _ _ (by decide), ?_⟩
  · rw [State.bit_setBit_ne _ _ _ _ (by decide), State.bit_wrN_ne _ _ _ (by decide), State.bit_setBit_self _ _ (by decide)]
  · rw [State.rdN_setBit_ne _ _ _ (by decide), State.rdN_wrN_self]
    omega
  · have hphase : OnlyRegs s (s.atUs us) [Reg.STK_PHASE, Reg.FCS_FLAGS, Reg.FCS_OCSTIME, Reg.FCS_IRQ] := (OnlyRegs.refl s _).setFld 0 15 us (by decide)
    exact ((hphase.setBit 0 true (by decide)).trans ((OnlyRegs.wrN _ _ _).mono (by decide))).setBit 0 true (by decide)

/-- The record that Camlan makes of a short. -/
def State.shortLogged (s : State) (peak : Int) : State := if s.camlanOn then s.logS 0x0701 (u32 (s.rdN Reg.FCS_OCSTIME) ++ s16 peak) else s

theorem State.shortLogged_shows (s : State) (peak : Int) : RegsBut s (s.shortLogged peak) (logRegs 0) ∧ (s.shortLogged peak).meas = s.meas ∧ (s.shortLogged peak).mem = s.mem := by
  unfold State.shortLogged
  split
  · exact ⟨RegsBut.logS _ _ (RegsBut.refl s _) (fun _ h => h), State.logS_meas .., State.logS_mem ..⟩
  · exact ⟨RegsBut.refl s _, rfl, rfl⟩

theorem doOcsTrip_latches {s : State} {us nv : Nat} (hth : s.fld Reg.FCS_OCS 0 6 ≠ 0) (hnv : dacNv (s.fld Reg.FCS_OCS 0 6) < nv) (htest : s.meas.selfTest = false) :
    ∃ peak, doOcsTrip s us nv = (s.shortLatched us).trigger.shortLogged peak := by
  refine ⟨(s.shortLatched us).meas.capture.foldl (fun (m : Int) c => if m.natAbs < c.natAbs then c else m) 0, ?_⟩
  unfold doOcsTrip
  rw [if_neg (by omega), htest, if_neg Bool.false_ne_true]
  rfl

theorem ocsTripped {s : State} {us nv : Nat} (hth : s.fld Reg.FCS_OCS 0 6 ≠ 0) (hnv : dacNv (s.fld Reg.FCS_OCS 0 6) < nv) (hus : us < 2 ^ 15) :
    (s.meas.selfTest = true → Does (.ocsTrip us nv) s (fun t => t.bit Reg.FCS_TEST 8 = true ∧ OnlyRegs s t [Reg.FCS_TEST]))
    ∧ (s.meas.selfTest = false → Does (.ocsTrip us nv) s (fun t =>
      t.bit Reg.FCS_FLAGS 0 = true ∧ t.rdN Reg.FCS_OCSTIME = (s.stk.base + us) % 2 ^ 48 % 2 ^ 32 ∧ t.bit Reg.FCS_IRQ 0 = true
        ∧ (s.bit Reg.FCS_CAP 16 = false → s.meas.capLeft = none → t.meas = { s.meas with capLeft := some 767 })
        ∧ RegsBut s t ([Reg.STK_PHASE, Reg.FCS_FLAGS, Reg.FCS_OCSTIME, Reg.FCS_IRQ] ++ logRegs 0) ∧ SameMem s t)) := by
  refine ⟨fun htest => ?_, fun htest => ?_⟩
  · have hdone : doOcsTrip s us nv = s.setBit Reg.FCS_TEST 8 true := by
      unfold doOcsTrip
      rw [if_neg (by omega), htest, if_pos rfl]
    exact ⟨_, congrArg Host.Outcome.next hdone, State.bit_setBit_self _ _ (by decide), (OnlyRegs.refl s _).setBit 8 true (by decide)⟩
  · obtain ⟨peak, hdone⟩ := doOcsTrip_latches (us := us) hth hnv htest
    obtain ⟨hflag, htime, hirq, hregs, -, hframe⟩ := s.shortLatched_shows hus
    refine ⟨_, congrArg Host.Outcome.next hdone, ?_⟩
    generalize s.shortLatched us = u at hflag htime hirq hregs hframe
    have hmeas : u.meas = s.meas := by rw [hframe]
    have hmem : u.mem = s.mem := by rw [hframe]
    have htrig := u.trigger_frame
    have harmed : s.bit Reg.FCS_CAP 16 = false → s.meas.capLeft = none → u.trigger.meas = { s.meas with capLeft := some 767 } := by
      intro h1 h2
      rw [State.trigger_idle ((State.bit_of_rd (hregs _ (by decide)) _).trans h1) (by rw [hmeas, h2])]
      dsimp only
      rw [hmeas]
    generalize u.trigger = v at htrig harmed
    have hvregs : v.regs = u.regs := by rw [htrig]
    have hvmem : v.mem = s.mem := by rw [htrig, ← hmem]
    obtain ⟨kregs, kmeas, kmem⟩ := v.shortLogged_shows peak
    have hrd (a : Nat) (ha : a ∉ logRegs 0) : (v.shortLogged peak).rd a = u.rd a := (kregs a ha).trans (State.rd_of_regs hvregs a)
    refine ⟨?_, ?_, ?_, fun h1 h2 => kmeas.trans (harmed h1 h2), ?_, SameMem.of_mem (kmem.trans hvmem)⟩
    · rw [State.bit_of_rd (hrd _ (by decide)), hflag]
    · rw [State.rdN_of_rd (hrd _ (by decide)), htime]
    · rw [State.bit_of_rd (hrd _ (by decide)), hirq]
    · intro a ha
      rw [List.mem_append, not_or] at ha
      rw [hrd a ha.2, hregs a ha.1]

theorem bkiTripped {s : State} {nv : Nat} (hth : s.fld Reg.FCS_BKI 0 6 ≠ 0) (hnv : dacNv (s.fld Reg.FCS_BKI 0 6) < nv) :
    (s.meas.selfTest = true → Does (.bkiTrip nv) s (fun t => t.bit Reg.FCS_TEST 9 = true ∧ OnlyRegs s t [Reg.FCS_TEST]))
    ∧ (s.meas.selfTest = false → Does (.bkiTrip nv) s (fun t =>
      t.bit Reg.FCS_FLAGS 1 = true ∧ t.bit Reg.FCS_FLAGS 2 = true ∧ t.bit Reg.CTR_BKI 0 = true ∧ OnlyRegs s t [Reg.FCS_FLAGS, Reg.FCS_IRQ, Reg.CTR_BKI])) := by
  refine ⟨fun htest => ?_, fun htest => ?_⟩
  · have hdone : doBkiTrip s nv = s.setBit Reg.FCS_TEST 9 true := by
      unfold doBkiTrip
      rw [if_neg (by omega), htest, if_pos rfl]
    exact ⟨_, congrArg Host.Outcome.next hdone, State.bit_setBit_self _ _ (by decide), (OnlyRegs.refl s _).setBit 9 true (by decide)⟩
  · have hdone : doBkiTrip s nv = (((s.setBit Reg.FCS_FLAGS 1 true).setBit Reg.FCS_FLAGS 2 true).setBit Reg.FCS_IRQ 1 true).setBit Reg.CTR_BKI 0 true := by
      unfold doBkiTrip
      rw [if_neg (by omega), htest, if_neg Bool.false_ne_true]
    refine ⟨_, congrArg Host.Outcome.next hdone, ?_, ?_, State.bit_setBit_self _ _ (by decide), ?_⟩
    · rw [State.bit_setBit_ne _ _ _ _ (by decide), State.bit_setBit_ne _ _ _ _ (by decide), State.bit_setBit_other _ _ (by decide) (by decide),
        State.bit_setBit_self _ _ (by decide)]
    · rw [State.bit_setBit_ne _ _ _ _ (by decide), State.bit_setBit_ne _ _ _ _ (by decide), State.bit_setBit_self _ _ (by decide)]
    · exact ((((OnlyRegs.refl s _).setBit 1 true (by decide)).setBit 2 true (by decide)).setBit 1 true (by decide)).setBit 0 true (by decide)

theorem bkiReleased {s : State} {nv : Nat} (htest : s.meas.selfTest = false) (hlow : s.fld Reg.FCS_BKI 0 6 = 0 ∨ nv < releaseNv (s.fld Reg.FCS_BKI 0 6)) :
    Does (.bkiRelease nv) s (fun t => t.bit Reg.FCS_FLAGS 1 = false ∧ t.bit Reg.CTR_BKI 0 = false ∧ t.bit Reg.FCS_FLAGS 2 = s.bit Reg.FCS_FLAGS 2
      ∧ OnlyRegs s t [Reg.FCS_FLAGS, Reg.CTR_BKI]) := by
  have hgo : ¬ (s.meas.selfTest = true ∨ (s.fld Reg.FCS_BKI 0 6 ≠ 0 ∧ releaseNv (s.fld Reg.FCS_BKI 0 6) ≤ nv)) := by
    rw [htest]
    simp only [Bool.false_eq_true, false_or]
    omega
  have hdone : doBkiRelease s nv = (s.setBit Reg.FCS_FLAGS 1 false).setBit Reg.CTR_BKI 0 false := if_neg hgo
  refine ⟨_, congrArg Host.Outcome.next hdone, ?_, State.bit_setBit_self _ _ (by decide), ?_, ((OnlyRegs.refl s _).setBit 1 false (by decide)).setBit 0 false (by decide)⟩
  · rw [State.bit_setBit_ne _ _ _ _ (by decide), State.bit_setBit_self _ _ (by decide)]
  · rw [State.bit_setBit_ne _ _ _ _ (by decide), State.bit_setBit_other _ _ (by decide) (by decide)]

/-! The capture buffer (R166) and the self-test (R167) -/

theorem captureArmed {s : State} (hawake : s.awake = true) :
    Does .captureArm s (fun t => t.bit Reg.FCS_CAP 16 = false ∧ t.fld Reg.FCS_CAP 0 10 = 0 ∧ t.meas = { s.meas with capLeft := none } ∧ RegsBut s t [Reg.FCS_CAP] ∧ SameMem s t) := by
  have hregs : RegsBut s (doCaptureArm s) [Reg.FCS_CAP] := by simp [doCaptureArm]
  refine Does.byRequester hawake rfl ⟨?_, ?_, rfl, hregs, SameMem.of_mem ?_⟩
  · rw [doCaptureArm, State.bit_mk, State.bit_setFld_other _ _ (by decide) (by decide), State.bit_setBit_self _ _ (by decide)]
  · rw [doCaptureArm, State.fld_mk, State.fld_setFld_self _ _ (by decide), Nat.zero_mod]
  · rw [doCaptureArm, State.setFld_mem, State.setBit_mem]

theorem captureReadOut {s : State} (hawake : s.awake = true) :
    Does .captureRead s (fun t =>
      t.fld Reg.FCS_CAPDATA 0 12 = (s.meas.capture.reverse.getD (s.fld Reg.FCS_CAP 0 10) 0 % 4096).toNat ∧ t.fld Reg.FCS_CAP 0 10 = (s.fld Reg.FCS_CAP 0 10 + 1) % 1024
        ∧ OnlyRegs s t [Reg.FCS_CAPDATA, Reg.FCS_CAP]) := by
  refine Does.byRequester hawake rfl ⟨?_, ?_, ((OnlyRegs.refl s _).setFld 0 12 _ (by decide)).setFld 0 10 _ (by decide)⟩
  · rw [doCaptureRead]
    rw [State.fld_setFld_ne _ _ _ _ _ _ (by decide), State.fld_setFld_self _ _ (by decide)]
    omega
  · exact State.fld_setFld_self _ _ (by decide)

theorem selfTestBegun {s : State} (hawake : s.awake = true) :
    Does .fcsSelfTest s (fun t => t.meas = { s.meas with selfTest := true } ∧ t.fld Reg.FCS_TEST 8 3 = 0 ∧ RegsBut s t [Reg.FCS_TEST] ∧ SameMem s t) := by
  have hregs : RegsBut s (doFcsSelfTest s) [Reg.FCS_TEST] := by simp [doFcsSelfTest]
  refine Does.byRequester hawake rfl ⟨rfl, ?_, hregs, SameMem.of_mem ?_⟩
  · rw [doFcsSelfTest, State.fld_mk, State.fld_setFld_self _ _ (by decide), Nat.zero_mod]
  · rw [doFcsSelfTest, State.setFld_mem]

/-- The results of a self-test shown in FCS.TEST. -/
def State.selfTestShown (s : State) (ocs bki mok : Bool) : State :=
  ((((({ s.free.2 with meas := { s.free.2.meas with selfTest := false } } : State).setFld Reg.FCS_TEST 16 8 (s.free.1 % 256)).setBit Reg.FCS_TEST 8 ocs).setBit Reg.FCS_TEST 9 bki).setBit
    Reg.FCS_TEST 10 mok)

/-- The end of a self-test that failed. -/
def State.selfTestFailed (s : State) : State :=
  ((s.setBit Reg.FCS_FLAGS 4 true).logS 0x0703 (u8 (s.fld Reg.FCS_TEST 8 3))).easyAtEnd 0x18

theorem doFcsSelfTestEnd_eq {s : State} (ocs bki : Bool) {mok : Bool} {code : Int} (h : s.meas.selfTest = true)
    (hm : (decide (171000000 ≤ code * 200000000 / 2048) && decide (code * 200000000 / 2048 ≤ 189000000)) = mok) :
    doFcsSelfTestEnd s ocs bki code = if ocs && bki && mok then s.selfTestShown ocs bki mok else (s.selfTestShown ocs bki mok).selfTestFailed := by
  unfold doFcsSelfTestEnd
  rw [h, Bool.not_true, if_neg Bool.false_ne_true, show s.free = (s.free.1, s.free.2) from rfl]
  dsimp only
  rw [hm]
  unfold State.selfTestShown State.selfTestFailed
  rfl

/-- The three results in FCS.TEST. -/
theorem State.selfTestShown_shows (s : State) (ocs bki mok : Bool) : (s.selfTestShown ocs bki mok).bit Reg.FCS_TEST 8 = ocs ∧ (s.selfTestShown ocs bki mok).bit Reg.FCS_TEST 9 = bki
    ∧ (s.selfTestShown ocs bki mok).bit Reg.FCS_TEST 10 = mok ∧ RegsBut s (s.selfTestShown ocs bki mok) [Reg.FCS_TEST]
    ∧ s.selfTestShown ocs bki mok = { s with
      regs := (s.selfTestShown ocs bki mok).regs, freeCtr := s.freeCtr + 1, meas := { s.meas with selfTest := false } } := by
  have honly : OnlyRegs ({ s.free.2 with meas := { s.free.2.meas with selfTest := false } } : State) (s.selfTestShown ocs bki mok) [Reg.FCS_TEST] :=
    ((((OnlyRegs.refl _ _).setFld 16 8 _ (by decide)).setBit 8 ocs (by decide)).setBit 9 bki (by decide)).setBit 10 mok (by decide)
  refine ⟨?_, ?_, State.bit_setBit_self _ _ (by decide), fun a ha => honly.1 a ha, ?_⟩
  · rw [State.selfTestShown, State.bit_setBit_other _ _ (by decide) (by decide), State.bit_setBit_other _ _ (by decide) (by decide), State.bit_setBit_self _ _ (by decide)]
  · rw [State.selfTestShown, State.bit_setBit_other _ _ (by decide) (by decide), State.bit_setBit_self _ _ (by decide)]
  · generalize s.selfTestShown ocs bki mok = t at honly
    exact honly.2.2

theorem fld_three {s : State} {a : Nat} (h0 : s.bit a 8 = true) (h1 : s.bit a 9 = true) (h2 : s.bit a 10 = true) : s.fld a 8 3 = 7 := by
  unfold State.bit State.fld getField at h0 h1 h2
  unfold State.fld getField
  simp only [decide_eq_true_eq] at h0 h1 h2
  omega

theorem selfTestPassed {s : State} {code : Int} (h : s.meas.selfTest = true) (hlo : 171000000 ≤ code * 200000000 / 2048) (hhi : code * 200000000 / 2048 ≤ 189000000) :
    Does (.fcsSelfTestEnd true true code) s (fun t => t.meas = { s.meas with selfTest := false } ∧ t.fld Reg.FCS_TEST 8 3 = 7 ∧ t.cam = s.cam ∧ RegsBut s t [Reg.FCS_TEST] ∧ SameMem s t) := by
  have hm : (decide (171000000 ≤ code * 200000000 / 2048) && decide (code * 200000000 / 2048 ≤ 189000000)) = true := by
    rw [decide_eq_true hlo, decide_eq_true hhi]
    rfl
  refine ⟨_, congrArg Host.Outcome.next (doFcsSelfTestEnd_eq true true h hm), ?_⟩
  obtain ⟨h8, h9, h10, hregs, hframe⟩ := s.selfTestShown_shows true true true
  rw [if_pos (by decide)]
  generalize s.selfTestShown true true true = u at h8 h9 h10 hregs hframe
  have hmem : u.mem = s.mem := by rw [hframe]
  exact ⟨by rw [hframe], fld_three h8 h9 h10, by rw [hframe], hregs, SameMem.of_mem hmem⟩

theorem State.selfTestFailed_shows {s : State} (hrow : s.rowing = true) (hout : s.cam.state ≠ .easy) (hidle : s.acts = .idle) :
    s.selfTestFailed.bit Reg.FCS_FLAGS 4 = true ∧ s.selfTestFailed.cam.state = .easy ∧ s.selfTestFailed.cam.easyCauses = [0x18] := by
  have hstake : s.cam.state ≠ .idle ∧ s.cam.state ≠ .stake := by
    simp only [State.rowing, Bool.and_eq_true, decide_eq_true_eq] at hrow
    exact ⟨hrow.1.2, hrow.2⟩
  have hframe : LogFrame s ((s.setBit Reg.FCS_FLAGS 4 true).logS 0x0703 (u8 (s.fld Reg.FCS_TEST 8 3))) := LogFrame.trans (LogFrame.setBit rfl _ _ _) (State.logS_eq _ _ _)
  have hflag : ((s.setBit Reg.FCS_FLAGS 4 true).logS 0x0703 (u8 (s.fld Reg.FCS_TEST 8 3))).bit Reg.FCS_FLAGS 4 = true := by
    rw [State.bit_of_rd (State.rd_logS _ _ _ (by decide)), State.bit_setBit_self _ _ (by decide)]
  have hdbg : ((s.setBit Reg.FCS_FLAGS 4 true).logS 0x0703 (u8 (s.fld Reg.FCS_TEST 8 3))).rd Reg.DBG_STAT = s.rd Reg.DBG_STAT := by
    rw [State.rd_logS _ _ _ (by decide), State.rd_setBit_ne _ _ _ (by decide)]
  unfold State.selfTestFailed
  generalize (s.setBit Reg.FCS_FLAGS 4 true).logS 0x0703 (u8 (s.fld Reg.FCS_TEST 8 3)) = u at hframe hflag hdbg
  have hcam : u.cam = s.cam := by rw [hframe]
  have hpower : u.power = s.power := by rw [hframe]
  have hacts : u.acts = s.acts := by rw [hframe]
  have hrow' : u.rowing = true := (State.rowing_congr hpower hdbg (congrArg CamSt.state hcam)).trans hrow
  obtain ⟨heasy, -, hnow⟩ := State.easy_of_rowing 0x18 hrow' (by rwa [hcam]) (hacts.trans hidle)
  have hend : u.easyAtEnd 0x18 = u.easyNow 0x18 := by
    rw [State.easyAtEnd, hcam, if_neg (not_or.mpr hstake), heasy]
  rw [hend]
  refine ⟨?_, by rw [hnow], by rw [hnow]⟩
  rw [State.bit_of_rd (((RegsBut.refl u _).easyNow 0x18 fun _ => id) Reg.FCS_FLAGS (by decide)), hflag]

theorem selfTestOcsFailed {s : State} {bki : Bool} {code : Int} (h : s.meas.selfTest = true) (hrow : s.rowing = true) (hout : s.cam.state ≠ .easy) (hidle : s.acts = .idle) :
    Does (.fcsSelfTestEnd false bki code) s (fun t => t.bit Reg.FCS_FLAGS 4 = true ∧ t.cam.state = .easy ∧ t.cam.easyCauses = [0x18]) := by
  have hdone := doFcsSelfTestEnd_eq (code := code) false bki h rfl
  rw [Bool.false_and, Bool.false_and, if_neg Bool.false_ne_true] at hdone
  refine ⟨_, congrArg Host.Outcome.next hdone, ?_⟩
  obtain ⟨-, -, -, hregs, hframe⟩ := s.selfTestShown_shows false bki (decide (171000000 ≤ code * 200000000 / 2048) && decide (code * 200000000 / 2048 ≤ 189000000))
  generalize s.selfTestShown false bki (decide (171000000 ≤ code * 200000000 / 2048) && decide (code * 200000000 / 2048 ≤ 189000000)) = u at hregs hframe
  have hcam : u.cam = s.cam := by rw [hframe]
  have hpower : u.power = s.power := by rw [hframe]
  have hacts : u.acts = s.acts := by rw [hframe]
  exact State.selfTestFailed_shows ((State.rowing_congr hpower (hregs _ (by decide)) (congrArg CamSt.state hcam)).trans hrow) (by rwa [hcam]) (hacts.trans hidle)

theorem fastCurrentStream_holds : fastCurrentStream := by
  refine ⟨?_, ?_, ?_, ?_, ?_, ?_, ?_, ?_, ?_, ?_, ?_, ?_, ?_⟩
  · intro s code raw h hraw hlo hhi hcap hleft
    exact fcsSampled h hraw hlo hhi hcap hleft
  · intro s code h hend
    exact fcsSaturates h hend
  · intro s us nv hth hnv hus
    exact ocsTripped hth hnv hus
  · intro s us nv h
    exact congrArg Host.Outcome.next (if_pos h)
  · intro s nv hth hnv
    exact bkiTripped hth hnv
  · intro s nv htest hlow
    exact bkiReleased htest hlow
  · intro s nv h
    exact congrArg Host.Outcome.next (if_pos h)
  · intro s hawake hcap hleft
    exact Does.byRequester hawake rfl (State.trigger_idle hcap hleft)
  · intro s hawake
    exact captureArmed hawake
  · intro s hawake _
    exact captureReadOut hawake
  · intro s hawake
    exact selfTestBegun hawake
  · intro s code h hlo hhi
    exact selfTestPassed h hlo hhi
  · intro s bki code h hrow hout hidle
    exact selfTestOcsFailed h hrow hout hidle

/-- Settles O30: the Coulomb converter and the fast current stream, clause by clause. -/
theorem currentMeasurement : Obligations.CurrentMeasurement := ⟨coulombConverter_holds, fastCurrentStream_holds⟩

end Sys2Proof.Machine
end

section
/-!
PROOFS. Ship mode (R149). It settles O29.
-/

namespace Sys2Proof.Machine

/-- Camlan runs with the coil of contactor 0 on, its current shown in CTR.IMEAS0. -/
def coilHeld : State :=
  { State.reset with
    regs := [(Reg.CTR_STAT, 1), (Reg.CTR_IMEAS 0, 5)]
    power := { PowerSt.init with phase := .camlan } }

/-- Ship mode drops the coil, and the measured current of an output that is off is 0. -/
theorem shipMode_clears_coilCurrent : (doShipEnter coilHeld 0x53480001).rd (Reg.CTR_IMEAS 0) ≠ coilHeld.rd (Reg.CTR_IMEAS 0) := by decide

/-- Refutes O29: ship mode drops every coil, which clears the measured current of one that was on, and no CTR.IMEAS is among the registers said to change. -/
theorem not_shipButtonAndAuxiliaryOutput : ¬ Obligations.ShipButtonAndAuxiliaryOutput := by
  unfold Obligations.ShipButtonAndAuxiliaryOutput
  rintro ⟨hship, -⟩
  obtain ⟨t, hnext, -, -, -, -, -, -, -, -, hrest⟩ := hship coilHeld 0x53480001 (by decide) (by decide) (by decide)
  have ht : doShipEnter coilHeld 0x53480001 = t := Host.Outcome.next.inj hnext
  rw [← ht] at hrest
  exact shipMode_clears_coilCurrent (hrest (Reg.CTR_IMEAS 0) (by decide))

end Sys2Proof.Machine
end

section
/-!
PROOFS. The end of an insulation period whose bus voltage was too low (R261, R262). It settles O37.
-/

namespace Sys2Proof.Machine

/-- The second half of a period runs, after one invalid period. -/
def secondHalf : State := { State.reset with imd := { ImdSt.init with on := true, second := true, invalid := 1 } }

/-- A period without the required bus voltage ends the row of invalid periods. -/
theorem lowBus_ends_invalidRow : (doImdPeriodEnd secondHalf 0 0 0 0).imd.invalid = 0 := by decide

/-- Refutes O37: a period whose bus voltage is below imd.umin sets the count of invalid periods to 0, where the statement keeps it. -/
theorem not_insulationMonitor : ¬ Obligations.InsulationMonitor := by
  unfold Obligations.InsulationMonitor
  rintro ⟨-, -, -, hlow, -⟩
  obtain ⟨t, hnext, -, -, -, -, hkept, -⟩ := hlow secondHalf 0 0 0 0 rfl rfl (by decide)
  have ht : doImdPeriodEnd secondHalf 0 0 0 0 = t := Host.Outcome.next.inj hnext
  rw [← ht, lowBus_ends_invalidRow] at hkept
  exact absurd hkept (by decide)

end Sys2Proof.Machine
end

section
/-!
PROOFS. The end of an erase of the eflash over a memory out of canonical form (R365). It settles O54.
-/

namespace Sys2Proof.Machine

/-- An erase of the second sector is under way; the memory lists a later address before the first byte of the eflash. -/
def eraseUnsorted : State :=
  { State.reset with mem := [(0x08002000, 0), (0x08000000, 0)], tally := { TallySt.init with op := some (1, 0x2000) } }

/-- Before the erase the first byte of the eflash is hidden behind the later address, after it the byte shows. -/
theorem eraseUnsorted_shows :
    eraseUnsorted.rdB 0x08000000 = 0xFF ∧ (doEfcOperationDone eraseUnsorted true).rdB 0x08000000 = 0 := by decide

/-- Refutes O54: in a state whose memory is not in canonical form the end of an erase changes a byte outside the erased sector. -/
theorem not_tallyEflashAndRefresh : ¬ Obligations.TallyEflashAndRefresh := by
  unfold Obligations.TallyEflashAndRefresh
  rintro ⟨-, -, -, -, -, -, -, -, herase, -⟩
  obtain ⟨⟨t, hnext, hbytes, -⟩, -⟩ := herase eraseUnsorted 0x2000 rfl (by decide)
  have ht : doEfcOperationDone eraseUnsorted true = t := Host.Outcome.next.inj hnext
  obtain ⟨hbefore, hafter⟩ := eraseUnsorted_shows
  have hkept := hbytes 0x08000000
  rw [if_neg (by decide), ← ht, hbefore, hafter] at hkept
  exact absurd hkept (by decide)

end Sys2Proof.Machine
end

section
/-!
PROOFS. A wipe of the tag over a memory out of canonical form (R371). It settles O56.
-/

namespace Sys2Proof.Machine

/-- The awake part; the memory lists a byte of the user area before the first byte of the tag. -/
def wipeUnsorted : State :=
  { State.reset with mem := [(tagBase + 0x400, 1), (tagBase, 1)], power := { PowerSt.init with phase := .camlan } }

/-- Before a wipe of the user area the first byte of the tag is hidden behind the later address, after it the byte shows. -/
theorem wipeUnsorted_shows :
    wipeUnsorted.awake = true ∧ wipeUnsorted.rdB tagBase = 0 ∧ (doTagWipe wipeUnsorted (wordOf 0x54570001)).rdB tagBase = 1 := by
  decide

/-- Refutes O56: in a state whose memory is not in canonical form a wipe of the user area changes a byte outside it. -/
theorem not_tagHostSide : ¬ Obligations.TagHostSide := by
  unfold Obligations.TagHostSide
  rintro ⟨-, -, -, -, -, -, -, -, -, -, hwipe, -⟩
  obtain ⟨hawake, hbefore, hafter⟩ := wipeUnsorted_shows
  obtain ⟨t, hnext, hbytes, -⟩ := hwipe wipeUnsorted true false hawake
  have ht : doTagWipe wipeUnsorted (wordOf 0x54570001) = t := Host.Outcome.next.inj hnext
  have hkept := hbytes 0
  rw [if_neg (by decide), ← ht, Nat.add_zero, hbefore, hafter] at hkept
  exact absurd hkept (by decide)

end Sys2Proof.Machine
end

section
/-!
PROOFS. The field side of the tag (R368 to R378). They settle O55.
-/

namespace Sys2Proof.Machine

/-! What is shown of the tag -/

theorem State.showTag_only (s : State) : OnlyRegs s s.showTag tagShown := by
  rw [State.showTag]
  split
  · exact .refl s _
  · exact (((((OnlyRegs.refl s _).setBit _ _ (by decide)).setBit _ _ (by decide)).setBit _ _ (by decide)).setFld _ _ _ (by decide)).setFld _ _ _ (by decide)

theorem State.tagIrq_only (s : State) (b : Nat) : OnlyRegs s (s.tagIrq b) [Reg.TAG_IRQ] := by
  rw [State.tagIrq]
  split
  · exact (OnlyRegs.refl s _).setBit _ _ (by decide)
  · exact .refl s _

theorem State.showTag_frame (s : State) : s.showTag = { s with regs := s.showTag.regs } := s.showTag_only.2.2

@[simp] theorem State.showTag_mem (s : State) : s.showTag.mem = s.mem := by rw [s.showTag_frame]
@[simp] theorem State.showTag_tag (s : State) : s.showTag.tag = s.tag := by rw [s.showTag_frame]
@[simp] theorem State.showTag_stk (s : State) : s.showTag.stk = s.stk := by rw [s.showTag_frame]
@[simp] theorem State.showTag_power (s : State) : s.showTag.power = s.power := by rw [s.showTag_frame]

@[simp] theorem State.tagIrq_mem (s : State) (b : Nat) : (s.tagIrq b).mem = s.mem := by rw [(s.tagIrq_only b).2.2]
@[simp] theorem State.tagIrq_tag (s : State) (b : Nat) : (s.tagIrq b).tag = s.tag := by rw [(s.tagIrq_only b).2.2]
@[simp] theorem State.tagIrq_stk (s : State) (b : Nat) : (s.tagIrq b).stk = s.stk := by rw [(s.tagIrq_only b).2.2]

theorem tagIrq_of_powered {s : State} (h : s.powered = true) (b : Nat) : s.tagIrq b = s.setBit Reg.TAG_IRQ b true := if_pos h

theorem State.powered_of_power {s t : State} (h : t.power = s.power) : t.powered = s.powered := by rw [State.powered, State.powered, h]

/-- The tag's record alone changes. -/
theorem setTag_keeps (s : State) (x : TagSt) : (s.setTag x).tag = x ∧ RegsBut s (s.setTag x) [] ∧ SameMem s (s.setTag x) :=
  ⟨rfl, fun _ _ => rfl, fun _ => rfl⟩

/-- The tag's record changes and is shown. -/
theorem setTag_shown (s : State) (x : TagSt) : (s.setTag x).showTag.tag = x ∧ RegsBut s (s.setTag x).showTag tagShown ∧ SameMem s (s.setTag x).showTag :=
  ⟨State.showTag_tag _, (s.setTag x).showTag_only.1, (s.setTag x).showTag_only.2.1⟩

/-! Anticollision and selection (R368, R369) -/

theorem xorBytes_concat (l : List Byte) (b : Byte) : xorBytes (l ++ [b]) = xorBytes l ^^^ b := by
  rw [xorBytes, List.foldl_append]
  rfl

theorem tagLevel_checked (s : State) {level : Nat} (h : level = 1 ∨ level = 2) : (s.tagLevel level).length = 5 ∧ xorBytes (s.tagLevel level) = 0 := by
  refine ⟨?_, ?_⟩
  · obtain rfl | rfl := h <;> simp [State.tagLevel, State.tagUid]
  · rw [State.tagLevel, xorBytes_concat, BitVec.xor_self]
    rfl

theorem tagBack_shown (s : State) : let t := s.tagBack
    t.tag = { s.tag with air := if s.tag.star then 4 else 0, answer := [], ack := none } ∧ RegsBut s t tagShown ∧ SameMem s t :=
  setTag_shown s _

theorem doTagReqa_idle {s : State} (hair : s.tagAir = true) (h0 : s.tag.air = 0) :
    doTagReqa s = s.setTag { s.tag with air := 1, star := false, answer := [0x44, 0x00], ack := none } := by
  rw [doTagReqa, hair, Bool.not_true, if_neg Bool.false_ne_true, if_pos h0]
  rfl

theorem doTagReqa_halted {s : State} (hair : s.tagAir = true) (h4 : s.tag.air = 4) : doTagReqa s = s.tagSilent := by
  rw [doTagReqa, hair, Bool.not_true, if_neg Bool.false_ne_true, if_neg (by omega), if_pos h4]

theorem doTagWupa_wakes {s : State} (hair : s.tagAir = true) (h : s.tag.air = 0 ∨ s.tag.air = 4) :
    doTagWupa s = s.setTag { s.tag with air := 1, star := s.tag.air == 4, answer := [0x44, 0x00], ack := none } := by
  rw [doTagWupa, hair, Bool.not_true, if_neg Bool.false_ne_true, if_pos h]
  rfl

theorem doTagAnticollision_matches {s : State} {level : Nat} {known rest : List Byte} (hair : s.tagAir = true) (hlevel : s.tag.air = level)
    (h : level = 1 ∨ level = 2) (hknown : s.tagLevel level = known ++ rest) : doTagAnticollision s level known = s.tagAnswer rest := by
  rw [doTagAnticollision, hair, Bool.not_true, if_neg Bool.false_ne_true, if_pos ⟨hlevel, h⟩, hknown, List.take_left, if_pos rfl, List.drop_left]

theorem doTagSelect_level {s : State} {level : Nat} (hair : s.tagAir = true) (hlevel : s.tag.air = level) (h : level = 1 ∨ level = 2) :
    doTagSelect s level (s.tagLevel level) =
      if level = 1 then s.setTag { s.tag with air := 2, answer := [0x04], ack := none }
      else (s.setTag { s.tag with air := 3, sector := 0, answer := [0x00], ack := none }).showTag := by
  obtain ⟨hlength, -⟩ := tagLevel_checked s h
  rw [doTagSelect, hair, Bool.not_true, if_neg Bool.false_ne_true, if_pos ⟨hlevel, h, List.take_length.symm, by omega⟩]
  rfl

theorem doTagHlta_active {s : State} (hair : s.tagAir = true) (h3 : s.tag.air = 3) :
    doTagHlta s = (s.setTag { s.tag with air := 4, star := true, answer := [], ack := none }).showTag := by
  rw [doTagHlta, hair, Bool.not_true, if_neg Bool.false_ne_true, if_pos h3]

theorem doTagSectorSelect_active {s : State} {sector : Nat} (hair : s.tagAir = true) (h3 : s.tag.air = 3) :
    doTagSectorSelect s sector = if sector ≤ 7 then (s.setTag { s.tag with sector := sector, answer := [], ack := none }).showTag else s.tagAck 0 := by
  rw [doTagSectorSelect, hair, Bool.not_true, if_neg Bool.false_ne_true, if_neg (not_not_intro h3)]

/-- A command of an ACTIVE tag sends any other tag back. -/
theorem exec_misfit {s : State} (hair : s.tagAir = true) (h3 : s.tag.air ≠ 3) {c : Instr} (hc : c ∈ [Instr.tagHlta, .tagSectorSelect 0, .tagRead 0]) :
    exec c s = .next s.tagBack := by
  have hback (x y : State) : (if (!s.tagAir) = true then s else if s.tag.air = 3 then x else s.tagBack) = s.tagBack
      ∧ (if (!s.tagAir) = true then s else if s.tag.air ≠ 3 then s.tagBack else y) = s.tagBack := by
    rw [hair, Bool.not_true, if_neg Bool.false_ne_true, if_neg h3, if_neg Bool.false_ne_true, if_pos h3]
    exact ⟨rfl, rfl⟩
  simp only [List.mem_cons, List.not_mem_nil, or_false] at hc
  obtain rfl | rfl | rfl := hc
  · exact congrArg Host.Outcome.next (hback _ s).1
  · exact congrArg Host.Outcome.next (hback s _).2
  · exact congrArg Host.Outcome.next (hback s _).2

/-- Without a field, or with the field side disabled, no command does anything. -/
theorem exec_noAir {s : State} (hair : s.tagAir = false) {level page sector us : Nat} {l : List Byte} {v : Bool} {c : Instr}
    (hc : c ∈ [Instr.tagReqa, .tagWupa, .tagAnticollision level l, .tagSelect level l, .tagHlta, .tagRead page,
      .tagWrite page l v us, .tagCompatWrite page l v us, .tagSectorSelect sector]) : exec c s = .next s := by
  have hoff (x : State) : (if (!s.tagAir) = true then s else x) = s := by
    rw [hair]
    rfl
  simp only [List.mem_cons, List.not_mem_nil, or_false] at hc
  obtain rfl | rfl | rfl | rfl | rfl | rfl | rfl | rfl | rfl := hc <;> exact congrArg Host.Outcome.next (hoff _)

theorem tagAirInterface_holds : tagAirInterface := by
  refine ⟨?_, ?_, ?_, ?_, ?_, ?_, ?_, ?_, ?_⟩
  · intro s level h
    exact tagLevel_checked s h
  · intro s hair h0
    refine ⟨⟨_, congrArg Host.Outcome.next (doTagReqa_idle hair h0), setTag_keeps s _⟩, _, congrArg Host.Outcome.next (doTagWupa_wakes hair (.inl h0)), ?_⟩
    rw [h0]
    exact setTag_keeps s _
  · intro s hair h4
    refine ⟨⟨_, congrArg Host.Outcome.next (doTagReqa_halted hair h4), setTag_keeps s _⟩, _, congrArg Host.Outcome.next (doTagWupa_wakes hair (.inr h4)), ?_⟩
    rw [h4]
    exact setTag_keeps s _
  · intro s level known rest hair hlevel h hknown
    exact ⟨_, congrArg Host.Outcome.next (doTagAnticollision_matches hair hlevel h hknown), setTag_keeps s _⟩
  · intro s hair h1
    exact ⟨_, congrArg Host.Outcome.next (doTagSelect_level hair h1 (.inl rfl)), setTag_keeps s _⟩
  · intro s hair h2
    exact ⟨_, congrArg Host.Outcome.next (doTagSelect_level hair h2 (.inr rfl)), setTag_shown s _⟩
  · intro s hair h3
    refine ⟨⟨_, congrArg Host.Outcome.next (doTagHlta_active hair h3), setTag_shown s _⟩, ?_, ?_⟩
    · intro sector hsector
      exact ⟨_, congrArg Host.Outcome.next ((doTagSectorSelect_active hair h3).trans (if_pos hsector)), setTag_shown s _⟩
    · intro sector hsector
      exact ⟨_, congrArg Host.Outcome.next ((doTagSectorSelect_active hair h3).trans (if_neg (by omega))), setTag_keeps s _⟩
  · intro s hair h3 c hc
    exact ⟨_, exec_misfit hair h3 hc, tagBack_shown s⟩
  · intro s level page sector us l v hair c hc
    exact exec_noAir hair hc

/-! The mailbox's owner (R377) -/

theorem State.setOwner_shows (s : State) (n : Nat) : let t := s.setOwner n
    t.tag = { s.tag with owner := n } ∧ t.rdB 0x50000E00 = byteOf n ∧ (∀ a, a ≠ 0x50000E00 → t.rdB a = s.rdB a) ∧ RegsBut s t tagShown
      ∧ t = { s with regs := t.regs, mem := t.mem, tag := t.tag } := by
  have hbyte (a : Nat) : (s.setOwner n).rdB a = if 0x50000E00 = a then byteOf n else s.rdB a := by
    rw [State.setOwner, State.rdB, State.showTag_mem]
    exact State.rdB_wrB _ _ _ _
  refine ⟨?_, ?_, ?_, ?_, ?_⟩
  · rw [State.setOwner, State.showTag_tag]
    rfl
  · rw [hbyte, if_pos rfl]
  · intro a ha
    rw [hbyte, if_neg (Ne.symm ha)]
  · exact (State.showTag_only _).1
  · rw [State.setOwner, State.showTag_frame]
    rfl

theorem fieldTakes_free {s : State} (h : s.tag.owner ≠ 2) : s.fieldTakes = s.setOwner 1 := if_neg h

/-- The row buffer after the field has taken the mailbox from the host: a mailbox row is discarded. -/
def keptBuf : Option (Nat × List (Nat × Byte)) → Option (Nat × List (Nat × Byte))
  | some (row, l) => if !inMailbox (row - tagBase) then some (row, l) else none
  | none => none

theorem keptBuf_some (row : Nat) (l : List (Nat × Byte)) : keptBuf (some (row, l)) = if inMailbox (row - tagBase) then none else some (row, l) := by
  rw [keptBuf]
  cases inMailbox (row - tagBase) <;> rfl

/-- The tag when the field has taken the mailbox from the host. -/
def preempted (x : TagSt) : TagSt :=
  { x with buf := keptBuf x.buf, rows := x.rows.filter (fun r => !inMailbox (r.1 - tagBase)), preempts := (x.preempts + 1) % 65536 }

theorem State.fieldTakes_host {s : State} (h : s.tag.owner = 2) :
    s.fieldTakes =
      if ((((s.setTag (preempted s.tag)).setOwner 1).tagIrq 4).wrBytes (tagBase + 0xE04) (u16 ((s.tag.preempts + 1) % 65536))).camlanOn
      then ((((s.setTag (preempted s.tag)).setOwner 1).tagIrq 4).wrBytes (tagBase + 0xE04) (u16 ((s.tag.preempts + 1) % 65536))).logS 0x1005 (u32 ((s.tag.preempts + 1) % 65536))
      else (((s.setTag (preempted s.tag)).setOwner 1).tagIrq 4).wrBytes (tagBase + 0xE04) (u16 ((s.tag.preempts + 1) % 65536)) := by
  rw [State.fieldTakes, if_pos h]
  rfl

theorem State.fieldTakes_preempts {s : State} (h : s.tag.owner = 2) (hpow : s.powered = true) : let t := s.fieldTakes
    t.tag = { preempted s.tag with owner := 1 } ∧ t.bit Reg.TAG_IRQ 4 = true ∧ RegsBut s t (Reg.TAG_IRQ :: tagShown ++ logRegs 0) := by
  dsimp only
  rw [State.fieldTakes_host h]
  obtain ⟨htag, -, -, hregs, hframe⟩ := (s.setTag (preempted s.tag)).setOwner_shows 1
  generalize (s.setTag (preempted s.tag)).setOwner 1 = u at htag hregs hframe
  have hupow : u.powered = true := (State.powered_of_power (by rw [hframe]; rfl)).trans hpow
  rw [tagIrq_of_powered hupow]
  have hall : RegsBut s ((u.setBit Reg.TAG_IRQ 4 true).wrBytes (tagBase + 0xE04) (u16 ((s.tag.preempts + 1) % 65536))) (Reg.TAG_IRQ :: tagShown ++ logRegs 0) := by
    intro a ha
    rw [State.rd_wrBytes]
    exact RegsBut.setBit 4 true (RegsBut.mono (l := tagShown) hregs (fun b hb => by simp [hb])) (by simp) a ha
  have hbit : ((u.setBit Reg.TAG_IRQ 4 true).wrBytes (tagBase + 0xE04) (u16 ((s.tag.preempts + 1) % 65536))).bit Reg.TAG_IRQ 4 = true := by
    rw [State.bit_wrBytes, State.bit_setBit_self _ _ (by decide)]
  split
  · exact ⟨by rw [State.logS_tag, State.wrBytes_tag, State.setBit_tag, htag]; rfl, by rw [State.bit_logS _ _ _ _ (by decide), hbit],
      RegsBut.logS _ _ hall (fun b hb => by simp [hb])⟩
  · exact ⟨by rw [State.wrBytes_tag, State.setBit_tag, htag]; rfl, hbit, hall⟩

/-! Reads (R369) -/

/-- A selected tag with no row under way passes its gates: what is left of `fieldCmd` is the command itself. -/
theorem fieldCmd_ready_read {s : State} (h : tagReady s) (page : Nat) : s.fieldCmd (.read page) = s.fieldRead page := by
  obtain ⟨hair, h3, hrows⟩ := h
  exact (if_neg (by rw [hair]; decide)).trans ((if_neg (not_not_intro h3)).trans (if_neg (not_not_intro hrows)))

theorem fieldCmd_ready_write {s : State} (h : tagReady s) (page : Nat) (d : List Byte) (v : Bool) (us : Nat) :
    s.fieldCmd (.write page d v us) = s.fieldWrite page d v us := by
  obtain ⟨hair, h3, hrows⟩ := h
  exact (if_neg (by rw [hair]; decide)).trans ((if_neg (not_not_intro h3)).trans (if_neg (not_not_intro hrows)))

theorem fieldCmd_waits {s : State} (hair : s.tagAir = true) (h3 : s.tag.air = 3) (hrows : s.tag.rows ≠ []) (c : FieldCmd) :
    s.fieldCmd c = s.setTag { s.tag with wait := some c, answer := [], ack := none } := by
  unfold State.fieldCmd
  rw [hair, Bool.not_true, if_neg Bool.false_ne_true, if_neg (not_not_intro h3), if_pos hrows]

theorem doTagRead_ready {s : State} (h : tagReady s) (page : Nat) : doTagRead s page = s.fieldRead page := fieldCmd_ready_read h _

theorem doTagWrite_ready {s : State} (h : tagReady s) (page : Nat) (d : List Byte) (v : Bool) (us : Nat) :
    doTagWrite s page d v us = s.fieldWrite page d v us := fieldCmd_ready_write h _ _ _ _

theorem fieldRead_elsewhere {s : State} (h : s.tag.sector ≠ 3) (page : Nat) : s.fieldRead page = s.tagAnswer (fourPages s page) := by
  rw [State.fieldRead, if_neg (fun hc => h hc.1)]
  rfl

theorem fieldRead_mailbox {s : State} (h : s.tag.sector = 3) {page : Nat} (hpage : page < 0x7D) (ht : s.fieldTakes.tag.sector = 3) :
    s.fieldRead page = s.fieldTakes.tagAnswer (fourPages s.fieldTakes page) := by
  have hany : (((List.range 4).map (fun i => (page + i) % 256)).any (fun p => decide (p < 0x80))) = true :=
    List.any_eq_true.mpr ⟨page % 256, List.mem_map.mpr ⟨0, by simp, rfl⟩, decide_eq_true (by omega)⟩
  rw [State.fieldRead, if_pos ⟨h, hany⟩, fourPages, ht, h]

theorem fourPages_tagAnswer (s : State) (l : List Byte) (page : Nat) : fourPages (s.tagAnswer l) page = fourPages s page := rfl

theorem tagRead_mailbox {s : State} {page : Nat} (hready : tagReady s) (h3 : s.tag.sector = 3) (hpage : page < 0x7D) (howner : s.tag.owner ≠ 2) :
    Does (.tagRead page) s (fun t => t.tag = { s.tag with owner := 1, answer := fourPages t page, ack := none } ∧ t.rdB 0x50000E00 = 1
      ∧ (∀ a, a ≠ 0x50000E00 → t.rdB a = s.rdB a) ∧ RegsBut s t tagShown) := by
  obtain ⟨htag, hbyte, hother, hregs, -⟩ := s.setOwner_shows 1
  rw [← fieldTakes_free howner] at htag hbyte hother hregs
  have hsector : s.fieldTakes.tag.sector = 3 := by rw [htag, ← h3]
  refine ⟨_, congrArg Host.Outcome.next ((doTagRead_ready hready page).trans (fieldRead_mailbox h3 hpage hsector)), ?_, hbyte, hother, hregs⟩
  rw [fourPages_tagAnswer]
  show { s.fieldTakes.tag with answer := fourPages s.fieldTakes page, ack := none } = _
  rw [htag]

theorem tagRead_preempts {s : State} {page : Nat} (hready : tagReady s) (h3 : s.tag.sector = 3) (hpage : page < 0x7D) (howner : s.tag.owner = 2) (hpow : s.powered = true) :
    Does (.tagRead page) s (fun t => t.tag.owner = 1 ∧ t.tag.preempts = (s.tag.preempts + 1) % 65536 ∧ t.bit Reg.TAG_IRQ 4 = true
      ∧ (∀ row l, s.tag.buf = some (row, l) → t.tag.buf = if inMailbox (row - tagBase) then none else some (row, l)) ∧ RegsBut s t (Reg.TAG_IRQ :: tagShown ++ logRegs 0)) := by
  obtain ⟨htag, hirq, hregs⟩ := State.fieldTakes_preempts howner hpow
  have hsector : s.fieldTakes.tag.sector = 3 := by rw [htag, ← h3]; rfl
  refine ⟨_, congrArg Host.Outcome.next ((doTagRead_ready hready page).trans (fieldRead_mailbox h3 hpage hsector)), ?_, ?_, hirq, ?_, hregs⟩
  · exact congrArg TagSt.owner htag
  · exact congrArg TagSt.preempts htag
  · intro row l hbuf
    refine (congrArg TagSt.buf htag).trans ?_
    show keptBuf s.tag.buf = _
    rw [hbuf, keptBuf_some]


/-! Writes of a page (R371, R375, R378) -/

theorem fieldWrite_refused {s : State} {page : Nat}
    (h : 255 < page ∨ (inConfirmation (s.tag.sector * 1024 + page * 4) = false ∧ inMailbox (s.tag.sector * 1024 + page * 4) = false)) (d : List Byte) (v : Bool) (us : Nat) :
    s.fieldWrite page d v us = s.tagAck 0 := by
  rw [State.fieldWrite]
  refine if_pos (h.imp_right ?_)
  rintro ⟨hconf, hmail⟩
  rw [hconf, hmail]
  rfl

/-- A page takes its bytes, and the write is shown and counted. -/
def State.pageWritten (s : State) (off page : Nat) (d : List Byte) : State :=
  ((s.wrBytes (tagBase + off) d).wrN Reg.TAG_LASTW page).incSat Reg.TAG_FWCNT 0 16 1

theorem State.pageWritten_shows (s : State) {off page : Nat} {d : List Byte} (hd : d.length = 4) : let t := s.pageWritten off page d
    t.rdBytes (tagBase + off) 4 = d ∧ (∀ a, a < tagBase + off ∨ tagBase + off + 4 ≤ a → t.rdB a = s.rdB a) ∧ t.rdN Reg.TAG_LASTW = page % 2 ^ 32
      ∧ RegsBut s t [Reg.TAG_LASTW, Reg.TAG_FWCNT] ∧ t = { s with regs := t.regs, mem := t.mem } := by
  have hmem : (s.pageWritten off page d).mem = (s.wrBytes (tagBase + off) d).mem := by
    rw [State.pageWritten, State.incSat_mem, State.wrN_mem]
  refine ⟨?_, ?_, ?_, ?_, ?_⟩
  · rw [State.rdBytes_of_mem hmem, ← hd, State.rdBytes_wrBytes]
  · intro a ha
    rw [State.rdB, hmem]
    exact State.rdB_wrBytes_out _ _ _ _ (by rwa [hd])
  · rw [State.pageWritten, State.rdN_incSat_ne _ _ _ _ (by decide), State.rdN_wrN_self]
  · intro a ha
    simp only [List.mem_cons, List.not_mem_nil, or_false, not_or] at ha
    obtain ⟨hlast, hcnt⟩ := ha
    rw [State.pageWritten, State.rd_incSat_ne _ _ _ _ (Ne.symm hcnt), State.rd_wrN_ne _ _ (Ne.symm hlast), State.rd_wrBytes]
  · rw [State.pageWritten, State.wrBytes_eq]
    rfl

/-- The confirmation is stamped. -/
def State.confirmedAt (s : State) : State := ((s.wrN Reg.TAG_CONFSTAMP s.now).tagIrq 2).setTag { s.tag with confAt := some (s.now, s.strokeNo) }

/-- A request waits with its stamp. -/
def State.requestedAt (s : State) : State := (s.tagIrq 3).setTag { s.tag with request := some s.now }

theorem take_four {d : List Byte} (hd : d.length = 4) : (d ++ List.replicate 4 0).take 4 = d := by
  rw [← hd, List.take_left]

theorem State.pageWritten_powered {s : State} (h : s.powered = true) (off page : Nat) (d : List Byte) : (s.pageWritten off page d).powered = true := by
  refine (State.powered_of_power ?_).trans h
  rw [State.pageWritten, State.incSat_power, State.wrN_power, State.wrBytes_power]

theorem fieldWrite_confirmation {s : State} {page us : Nat} {d : List Byte} (hsector : s.tag.sector = 1) (hlo : 0xF0 ≤ page) (hhi : page ≤ 0xF3)
    (hd : d.length = 4) (hpow : s.powered = true) :
    s.fieldWrite page d true us =
      (if page = 0xF3 then (stamped (s.pageWritten (1024 + page * 4) (page + 256) d) us).confirmedAt else s.pageWritten (1024 + page * 4) (page + 256) d).tagAck 0xA := by
  have hconf : inConfirmation (1 * 1024 + page * 4) = true := by simp [inConfirmation]; omega
  have hmail : inMailbox (1 * 1024 + page * 4) = false := by simp [inMailbox]; omega
  have hlast : (1024 + page * 4 = 1996) ↔ page = 243 := by omega
  have hreq : ¬ 1024 + page * 4 = 3072 := by omega
  have hpow' : (s.pageWritten (1024 + page * 4) (page + 256) d).powered = true := State.pageWritten_powered hpow ..
  have hpow'' : (s.wrBytes (tagBase + (1024 + page * 4)) d).powered = true := (State.powered_of_power (State.wrBytes_power ..)).trans hpow
  rw [State.fieldWrite, hsector, if_neg (by rw [hconf]; simp; omega), hmail, take_four hd]
  simp only [State.wrBytes_tag, hsector, Nat.one_mul, Bool.false_eq_true, if_false, Bool.not_true, hpow'', if_true, hreq, false_and]
  rw [← State.pageWritten]
  simp only [hlast, hpow', and_true]
  rfl


/-- A page whose verify failed: unknown bytes, the fault shown and logged (R371). -/
def State.pageSpoiled (s : State) (off : Nat) : State :=
  (({ s.free.2 with mem := (s.free.2.wrBytes (tagBase + off) (u32 s.free.1)).mem } : State).setBit Reg.TAG_STAT 9 true).setBit Reg.TAG_IRQ 6 true

theorem fieldWrite_unverified {s : State} {page us : Nat} {d : List Byte} (hsector : s.tag.sector = 1) (hlo : 0xF0 ≤ page) (hhi : page ≤ 0xF3) (hpow : s.powered = true) :
    s.fieldWrite page d false us =
      (if (s.pageSpoiled (1024 + page * 4)).camlanOn then (s.pageSpoiled (1024 + page * 4)).logS 0x1006 (u8 1 ++ u8 page) else s.pageSpoiled (1024 + page * 4)).tagAck 5 := by
  have hconf : inConfirmation (1 * 1024 + page * 4) = true := by simp [inConfirmation]; omega
  have hmail : inMailbox (1 * 1024 + page * 4) = false := by simp [inMailbox]; omega
  have hpow' : (s.free.2.wrBytes (tagBase + (1024 + page * 4)) (u32 s.free.1)).powered = true := (State.powered_of_power (State.wrBytes_power ..)).trans hpow
  have hpow'' : ((s.free.2.wrBytes (tagBase + (1024 + page * 4)) (u32 s.free.1)).setBit Reg.TAG_STAT 9 true).powered = true :=
    (State.powered_of_power (State.setBit_power ..)).trans hpow'
  have hspoiled : ((s.free.2.wrBytes (tagBase + (1024 + page * 4)) (u32 s.free.1)).setBit Reg.TAG_STAT 9 true).setBit Reg.TAG_IRQ 6 true = s.pageSpoiled (1024 + page * 4) := by
    rw [State.pageSpoiled, ← State.wrBytes_eq]
  have hsec : (s.pageSpoiled (1024 + page * 4)).tag.sector = 1 := by rw [← hsector]; rfl
  rw [State.fieldWrite, hsector, if_neg (by rw [hconf]; simp; omega), hmail]
  simp only [Nat.one_mul, Bool.false_eq_true, if_false, Bool.not_false, if_true]
  rw [show s.free = (s.free.1, s.free.2) from rfl]
  simp only [hpow', if_true]
  rw [tagIrq_of_powered hpow'', hspoiled, hsec]

theorem fieldWrite_request {s : State} {us : Nat} {d : List Byte} (hsector : s.tag.sector = 3) (howner : s.tag.owner ≠ 2) (hd : d.length = 4) (hpow : s.powered = true) :
    s.fieldWrite 0 d true us =
      (if leNat (d.drop 2) ≠ s.tag.lastReq then (stamped ((s.setOwner 1).pageWritten 0xC00 768 d) us).requestedAt else (s.setOwner 1).pageWritten 0xC00 768 d).tagAck 0xA := by
  obtain ⟨htag, -, -, -, hframe⟩ := s.setOwner_shows 1
  have hsec : ((s.setOwner 1).wrBytes (tagBase + 3072) d).tag.sector = 3 := by rw [State.wrBytes_tag, htag, ← hsector]
  have hpow1 : (s.setOwner 1).powered = true := (State.powered_of_power (by rw [hframe])).trans hpow
  have hpow2 : ((s.setOwner 1).wrBytes (tagBase + 3072) d).powered = true := (State.powered_of_power (State.wrBytes_power ..)).trans hpow1
  have hpow3 : ((s.setOwner 1).pageWritten 3072 768 d).powered = true := State.pageWritten_powered hpow1 ..
  obtain ⟨hbytes, -, -, -, hpage⟩ := (s.setOwner 1).pageWritten_shows (off := 3072) (page := 768) hd
  have hlast : ((s.setOwner 1).pageWritten 3072 768 d).tag.lastReq = s.tag.lastReq := by rw [hpage]; exact (congrArg TagSt.lastReq htag :)
  have hseq : ((s.setOwner 1).pageWritten 3072 768 d).ld (tagBase + 3074) 2 = leNat (d.drop 2) := by
    show leNat ((((s.setOwner 1).pageWritten 3072 768 d).rdBytes (tagBase + 3072) 4).drop 2) = _
    rw [hbytes]
  rw [State.fieldWrite, hsector, if_neg (by decide), show inMailbox (3 * 1024 + 0 * 4) = true from rfl, take_four hd, fieldTakes_free howner]
  simp only [Nat.reduceMul, Nat.add_zero, Nat.zero_add, if_true, hsec, Bool.not_true, Bool.false_eq_true, if_false, hpow2, Nat.reduceEqDiff, false_and]
  rw [← State.pageWritten]
  simp only [hpow3, hseq, hlast, ne_eq, true_and]
  rfl


theorem stamped_only (s : State) (us : Nat) : OnlyRegs s (stamped s us) [Reg.STK_PHASE] := by
  rw [stamped]
  split
  · exact (OnlyRegs.refl s _).setFld _ _ _ (by decide)
  · exact .refl s _

/-- The stamp of a page write reads the stroke's base, its phase and its start alone. -/
theorem stamped_now {s u : State} (hstk : u.stk = s.stk) (hphase : u.rd Reg.STK_PHASE = s.rd Reg.STK_PHASE) (hctrl : u.rd Reg.STK_CTRL = s.rd Reg.STK_CTRL) (us : Nat) :
    (stamped u us).now = (stamped s us).now := by
  have hrun : u.running = s.running := State.bit_of_rd hctrl 8
  rw [stamped, stamped, hrun]
  split
  · rw [State.now, State.now, State.us_atUs, State.us_atUs, State.atUs_stk, State.atUs_stk, hstk]
  · rw [State.now, State.now, State.us, State.us, State.fld_of_rd hphase, hstk]

theorem State.confirmedAt_shows {s : State} (hpow : s.powered = true) : let t := s.confirmedAt
    t.tag = { s.tag with confAt := some (s.now, s.strokeNo) } ∧ t.rdN Reg.TAG_CONFSTAMP = s.now % 2 ^ 32 ∧ t.bit Reg.TAG_IRQ 2 = true
      ∧ RegsBut s t [Reg.TAG_CONFSTAMP, Reg.TAG_IRQ] ∧ t.mem = s.mem := by
  have heq : s.confirmedAt = ((s.wrN Reg.TAG_CONFSTAMP s.now).setBit Reg.TAG_IRQ 2 true).setTag { s.tag with confAt := some (s.now, s.strokeNo) } := by
    rw [State.confirmedAt, tagIrq_of_powered ((State.powered_of_power (State.wrN_power ..)).trans hpow)]
  dsimp only
  rw [heq]
  refine ⟨rfl, ?_, ?_, ?_, ?_⟩
  · show ((s.wrN Reg.TAG_CONFSTAMP s.now).setBit Reg.TAG_IRQ 2 true).rdN _ = _
    rw [State.rdN_setBit_ne _ _ _ (by decide), State.rdN_wrN_self]
  · exact State.bit_setBit_self _ _ (by decide)
  · exact RegsBut.setBit 2 true (RegsBut.wrN _ (RegsBut.refl s _) (by simp)) (by simp)
  · rfl

theorem State.requestedAt_shows {s : State} (hpow : s.powered = true) : let t := s.requestedAt
    t.tag = { s.tag with request := some s.now } ∧ t.bit Reg.TAG_IRQ 3 = true ∧ RegsBut s t [Reg.TAG_IRQ] ∧ t.mem = s.mem := by
  dsimp only
  rw [State.requestedAt, tagIrq_of_powered hpow]
  exact ⟨rfl, State.bit_setBit_self _ _ (by decide), RegsBut.setBit 3 true (RegsBut.refl s _) (by simp), rfl⟩

theorem State.stamped_powered {s : State} (hpow : s.powered = true) (us : Nat) : (stamped s us).powered = true :=
  (State.powered_of_power (by rw [(stamped_only s us).2.2])).trans hpow

theorem tagWrite_confirmation {s : State} {page us : Nat} {d : List Byte} (hready : tagReady s) (hsector : s.tag.sector = 1) (hlo : 0xF0 ≤ page) (hhi : page ≤ 0xF3)
    (hd : d.length = 4) (hpow : s.powered = true) :
    Does (.tagWrite page d true us) s (fun t => t.tag.ack = some 0xA ∧ t.rdBytes (0x50000400 + page * 4) 4 = d
      ∧ (∀ a, a < 0x50000400 + page * 4 ∨ 0x50000404 + page * 4 ≤ a → t.rdB a = s.rdB a) ∧ t.rdN Reg.TAG_LASTW = page + 256
      ∧ (page < 0xF3 → t.tag = { s.tag with answer := [], ack := some 0xA } ∧ RegsBut s t [Reg.TAG_LASTW, Reg.TAG_FWCNT])
      ∧ (page = 0xF3 → t.tag.confAt = some ((stamped s us).now, s.strokeNo) ∧ t.rdN Reg.TAG_CONFSTAMP = (stamped s us).now % 2 ^ 32 ∧ t.bit Reg.TAG_IRQ 2 = true
        ∧ RegsBut s t [Reg.TAG_LASTW, Reg.TAG_FWCNT, Reg.TAG_CONFSTAMP, Reg.TAG_IRQ, Reg.STK_PHASE])) := by
  obtain ⟨hbytes, hother, hlast, hregs, hframe⟩ := s.pageWritten_shows (off := 1024 + page * 4) (page := page + 256) hd
  have hpow1 := State.pageWritten_powered hpow (1024 + page * 4) (page + 256) d
  have haddr : tagBase + (1024 + page * 4) = 0x50000400 + page * 4 := by
    show 0x50000000 + (1024 + page * 4) = 0x50000400 + page * 4
    omega
  rw [haddr] at hbytes hother
  rw [Nat.mod_eq_of_lt (by omega)] at hlast
  refine ⟨_, congrArg Host.Outcome.next ((doTagWrite_ready hready page d true us).trans (fieldWrite_confirmation hsector hlo hhi hd hpow)), ?_⟩
  generalize s.pageWritten (1024 + page * 4) (page + 256) d = u at hbytes hother hlast hregs hframe hpow1
  have hother' (a : Nat) (ha : a < 0x50000400 + page * 4 ∨ 0x50000404 + page * 4 ≤ a) : u.rdB a = s.rdB a := hother a (by omega)
  have hutag : u.tag = s.tag := by rw [hframe]
  split
  · rename_i hpage
    obtain ⟨htag, hstamp, hirq, hregs', hmem⟩ := State.confirmedAt_shows (State.stamped_powered hpow1 us)
    obtain ⟨hsregs, -, hsframe⟩ := stamped_only u us
    have hsmem : (stamped u us).mem = u.mem := by rw [hsframe]
    have hnow : (stamped u us).now = (stamped s us).now := stamped_now (by rw [hframe]) (hregs _ (by decide)) (hregs _ (by decide)) us
    have hno : (stamped u us).strokeNo = s.strokeNo := State.rdN_of_rd ((hsregs _ (by decide)).trans (hregs _ (by decide)))
    rw [hnow, hno] at htag
    rw [hnow] at hstamp
    refine ⟨rfl, (State.rdBytes_of_mem (hmem.trans hsmem) _ _).trans hbytes, ?_, ?_, fun h => absurd h (by omega), fun _ => ⟨congrArg TagSt.confAt htag, hstamp, hirq, ?_⟩⟩
    · intro a ha
      exact (SameMem.of_mem (hmem.trans hsmem) a).trans (hother' a ha)
    · exact ((State.rdN_of_rd (hregs' _ (by decide))).trans (State.rdN_of_rd (hsregs _ (by decide)))).trans hlast
    · refine RegsBut.trans (RegsBut.mono hregs ?_) (RegsBut.trans (RegsBut.mono hsregs ?_) (RegsBut.mono hregs' ?_)) <;> simp
  · rename_i hpage
    refine ⟨rfl, hbytes, hother', hlast, fun _ => ⟨?_, hregs⟩, fun h => absurd h hpage⟩
    rw [← hutag]
    rfl

theorem tagWrite_unverified {s : State} {page us : Nat} {d : List Byte} (hready : tagReady s) (hsector : s.tag.sector = 1) (hlo : 0xF0 ≤ page) (hhi : page ≤ 0xF3)
    (hpow : s.powered = true) :
    Does (.tagWrite page d false us) s (fun t => t.tag = { s.tag with answer := [], ack := some 5 } ∧ t.bit Reg.TAG_STAT 9 = true ∧ t.bit Reg.TAG_IRQ 6 = true
      ∧ (∀ a, a < 0x50000400 + page * 4 ∨ 0x50000404 + page * 4 ≤ a → t.rdB a = s.rdB a) ∧ RegsBut s t ([Reg.TAG_STAT, Reg.TAG_IRQ] ++ logRegs 0)) := by
  refine ⟨_, congrArg Host.Outcome.next ((doTagWrite_ready hready page d false us).trans (fieldWrite_unverified hsector hlo hhi hpow)), ?_⟩
  have htag : (s.pageSpoiled (1024 + page * 4)).tag = s.tag := rfl
  have hstat : (s.pageSpoiled (1024 + page * 4)).bit Reg.TAG_STAT 9 = true := by
    rw [State.pageSpoiled, State.bit_setBit_ne _ _ _ _ (by decide), State.bit_setBit_self _ _ (by decide)]
  have hirq : (s.pageSpoiled (1024 + page * 4)).bit Reg.TAG_IRQ 6 = true := by
    rw [State.pageSpoiled, State.bit_setBit_self _ _ (by decide)]
  have hother (a : Nat) (ha : a < 0x50000400 + page * 4 ∨ 0x50000404 + page * 4 ≤ a) : (s.pageSpoiled (1024 + page * 4)).rdB a = s.rdB a :=
    State.rdB_wrBytes_out s.free.2 _ a _ (by rw [show (u32 s.free.1).length = 4 from leBytes_length .., show tagBase = 0x50000000 from rfl]; omega)
  have hregs : RegsBut s (s.pageSpoiled (1024 + page * 4)) ([Reg.TAG_STAT, Reg.TAG_IRQ] ++ logRegs 0) := by
    refine RegsBut.setBit 6 true (RegsBut.setBit 9 true ?_ (by simp)) (by simp)
    exact fun a _ => rfl
  generalize s.pageSpoiled (1024 + page * 4) = u at htag hstat hirq hother hregs
  split
  · refine ⟨?_, (State.bit_logS _ _ _ _ (by decide)).trans hstat, (State.bit_logS _ _ _ _ (by decide)).trans hirq, ?_, RegsBut.logS _ _ hregs (fun b hb => by simp [hb])⟩
    · rw [← htag, ← State.logS_tag u 0x1006 (u8 1 ++ u8 page)]
      rfl
    · intro a ha
      exact (SameMem.of_mem (State.logS_mem ..) a).trans (hother a ha)
  · exact ⟨by rw [← htag]; rfl, hstat, hirq, hother, hregs⟩

theorem tagWrite_request {s : State} {us : Nat} {d : List Byte} (hready : tagReady s) (hsector : s.tag.sector = 3) (howner : s.tag.owner ≠ 2) (hd : d.length = 4) (hpow : s.powered = true) :
    Does (.tagWrite 0 d true us) s (fun t => t.tag.ack = some 0xA ∧ t.tag.owner = 1 ∧ t.rdBytes 0x50000C00 4 = d
      ∧ (leNat (d.drop 2) ≠ s.tag.lastReq → t.tag.request = some (stamped s us).now ∧ t.bit Reg.TAG_IRQ 3 = true)
      ∧ (leNat (d.drop 2) = s.tag.lastReq → t.tag.request = s.tag.request)
      ∧ (∀ a, a < 0x50000C00 ∨ 0x50000C04 ≤ a → a ≠ 0x50000E00 → t.rdB a = s.rdB a) ∧ RegsBut s t ([Reg.TAG_LASTW, Reg.TAG_FWCNT, Reg.TAG_IRQ, Reg.STK_PHASE] ++ tagShown)) := by
  obtain ⟨htag, -, hkept, hown, hoframe⟩ := s.setOwner_shows 1
  obtain ⟨hbytes, hother, -, hregs, hframe⟩ := (s.setOwner 1).pageWritten_shows (off := 0xC00) (page := 768) hd
  have hpow1 : ((s.setOwner 1).pageWritten 0xC00 768 d).powered = true :=
    State.pageWritten_powered ((State.powered_of_power (by rw [hoframe])).trans hpow) ..
  refine ⟨_, congrArg Host.Outcome.next ((doTagWrite_ready hready 0 d true us).trans (fieldWrite_request hsector howner hd hpow)), ?_⟩
  generalize (s.setOwner 1).pageWritten 0xC00 768 d = u at hbytes hother hregs hframe hpow1
  have hutag : u.tag = { s.tag with owner := 1 } := by rw [hframe]; exact htag
  have hustk : u.stk = s.stk := by rw [hframe]; exact (congrArg State.stk hoframe :)
  have hureg : RegsBut s u ([Reg.TAG_LASTW, Reg.TAG_FWCNT, Reg.TAG_IRQ, Reg.STK_PHASE] ++ tagShown) :=
    RegsBut.trans (RegsBut.mono hown (by simp +contextual)) (RegsBut.mono hregs (by simp))
  have hubytes (a : Nat) (ha : a < 0x50000C00 ∨ 0x50000C04 ≤ a) (hne : a ≠ 0x50000E00) : u.rdB a = s.rdB a :=
    (hother a ha).trans (hkept a hne)
  have hphase : u.rd Reg.STK_PHASE = s.rd Reg.STK_PHASE := (hregs _ (by decide)).trans (hown _ (by decide))
  have hctrl : u.rd Reg.STK_CTRL = s.rd Reg.STK_CTRL := (hregs _ (by decide)).trans (hown _ (by decide))
  split
  · rename_i hnew
    obtain ⟨hrtag, hirq, hregs', hmem⟩ := State.requestedAt_shows (State.stamped_powered hpow1 us)
    obtain ⟨hsregs, -, hsframe⟩ := stamped_only u us
    have hsmem : (stamped u us).mem = u.mem := by rw [hsframe]
    have hstag : (stamped u us).tag = u.tag := by rw [hsframe]
    rw [stamped_now hustk hphase hctrl us, hstag, hutag] at hrtag
    refine ⟨rfl, congrArg TagSt.owner hrtag, (State.rdBytes_of_mem (hmem.trans hsmem) _ _).trans hbytes, fun _ => ⟨congrArg TagSt.request hrtag, hirq⟩, fun h => absurd h hnew, ?_, ?_⟩
    · intro a ha hne
      exact (SameMem.of_mem (hmem.trans hsmem) a).trans (hubytes a ha hne)
    · exact RegsBut.trans hureg (RegsBut.trans (RegsBut.mono hsregs (by simp)) (RegsBut.mono hregs' (by simp)))
  · rename_i hsame
    exact ⟨rfl, congrArg TagSt.owner hutag, hbytes, fun h => absurd h hsame, fun _ => (congrArg TagSt.request hutag :), hubytes, hureg⟩

theorem tagReadsAndWrites_holds : tagReadsAndWrites := by
  refine ⟨?_, ?_, ?_, ?_, ?_, ?_, ?_, ?_⟩
  · intro s page hready hsector
    exact ⟨_, congrArg Host.Outcome.next ((doTagRead_ready hready page).trans (fieldRead_elsewhere hsector page)), setTag_keeps s _⟩
  · intro s page hready h3 hpage howner
    exact tagRead_mailbox hready h3 hpage howner
  · intro s page hready h3 hpage howner hpow
    exact tagRead_preempts hready h3 hpage howner hpow
  · intro s page us d v hready h
    exact ⟨_, congrArg Host.Outcome.next ((doTagWrite_ready hready page d v us).trans (fieldWrite_refused h d v us)), setTag_keeps s _⟩
  · intro s page us d hready hsector hlo hhi hd hpow
    exact ⟨tagWrite_confirmation hready hsector hlo hhi hd hpow, tagWrite_unverified hready hsector hlo hhi hpow⟩
  · intro s us d hready hsector howner hd hpow
    exact tagWrite_request hready hsector howner hd hpow
  · intro s page us d v
    rfl
  · intro s page hair h3 hrows
    exact ⟨_, congrArg Host.Outcome.next (fieldCmd_waits hair h3 hrows _), setTag_keeps s _⟩

/-- Settles O55: the air interface of the tag, its reads and its writes, clause by clause. -/
theorem tagFieldSide : Obligations.TagFieldSide := ⟨tagAirInterface_holds, tagReadsAndWrites_holds⟩


end Sys2Proof.Machine
end

section
/-!
PROOFS. The Q-port's queues, slave mode and pins, and the sealed window (R381 to R393). They settle O57.
-/

namespace Sys2Proof.Machine

/-! The bus (R381) -/

theorem State.showBus_only (s : State) : OnlyRegs s s.showBus [Reg.QP_STAT] :=
  (((OnlyRegs.refl s _).setBit _ _ (by simp)).setFld _ _ _ (by simp)).setBit _ _ (by simp)

@[simp] theorem State.showBus_qp (s : State) : s.showBus.qp = s.qp := by rw [s.showBus_only.2.2]
@[simp] theorem State.showBus_mem (s : State) : s.showBus.mem = s.mem := by rw [s.showBus_only.2.2]

theorem State.bit_showBus_busy (s : State) : s.showBus.bit Reg.QP_STAT 0 = !s.busFree := by
  rw [State.showBus, State.bit_setBit_other _ _ (by decide) (by decide), State.bit_setFld_other _ _ (by decide) (by decide), State.bit_setBit_self _ _ (by decide)]

theorem State.fld_showBus_owner {s : State} {n : Nat} (h : s.qp.chain = some n) (hn : n < 4) : s.showBus.fld Reg.QP_STAT 1 3 = n + 1 := by
  rw [State.showBus, h, State.fld_setBit_other _ _ (by decide) (by decide), State.fld_setFld_self _ _ (by decide)]
  exact Nat.mod_eq_of_lt (a := n + 1) (by omega)

theorem State.busFree_of_qp {s t : State} (hchain : t.qp.chain = s.qp.chain) (hfill : t.qp.fill = s.qp.fill) : t.busFree = s.busFree := by
  rw [State.busFree, State.busFree, hchain, hfill]

theorem qpStat_ne (n : Nat) : Reg.QP_Q_STAT n ≠ Reg.QP_STAT := by
  unfold Reg.QP_Q_STAT Reg.QP_STAT
  omega

/-! Pushes (R382, R383) -/

/-- The entry being built is dropped. -/
def State.unstaged (s : State) (n : Nat) : State := s.setQp { s.qp with stage := Tab.put [] s.qp.stage n [] }

/-- The entry being built joins its queue. -/
def State.pushed (s : State) (n : Nat) : State := (s.unstaged n).setQueue n (s.queue n ++ [s.builtEntry n])

theorem doQpPush_refused {s : State} {rq : Requester} {n : Nat} (hmay : s.mayQsel rq n = true) (h : ¬ pushFits s n) :
    doQpPush s rq n = (s.unstaged n).setBit (Reg.QP_Q_STAT n) 24 true := by
  have hno : (s.builtEntry n).words.length ≠ needWords (s.builtEntry n) ∨ 16 ≤ (s.queue n).length
      ∨ 128000 < ((openTail (s.queue n) ++ [s.builtEntry n]).map (s.entClocks n)).foldl (· + ·) 0 * s.fld (Reg.QP_Q_CFG n) 0 8 * 10 := by
    rw [pushFits] at h
    omega
  rw [doQpPush, hmay, Bool.not_true, if_neg Bool.false_ne_true]
  exact if_pos hno

theorem doQpPush_accepted {s : State} {rq : Requester} {n : Nat} (hmay : s.mayQsel rq n = true) (h : pushFits s n) :
    doQpPush s rq n = if s.busFree then ((s.pushed n).setQp { (s.pushed n).qp with next := none }).showBus else s.pushed n := by
  have hyes : ¬ ((s.builtEntry n).words.length ≠ needWords (s.builtEntry n) ∨ 16 ≤ (s.queue n).length
      ∨ 128000 < ((openTail (s.queue n) ++ [s.builtEntry n]).map (s.entClocks n)).foldl (· + ·) 0 * s.fld (Reg.QP_Q_CFG n) 0 8 * 10) := by
    rw [pushFits] at h
    omega
  have hfree : (s.pushed n).busFree = s.busFree := State.busFree_of_qp rfl rfl
  rw [doQpPush, hmay, Bool.not_true, if_neg Bool.false_ne_true, ← hfree]
  exact if_neg hyes

theorem State.pushed_shows {s : State} {n : Nat} (hn : (s.queue n).length < 16) : let t := s.pushed n
    t.queue n = s.queue n ++ [s.builtEntry n] ∧ t.fld (Reg.QP_Q_STAT n) 8 5 = 15 - (s.queue n).length
      ∧ t.qp = { s.qp with queues := t.qp.queues, stage := Tab.put [] s.qp.stage n [] } ∧ RegsBut s t [Reg.QP_Q_STAT n] ∧ t.mem = s.mem := by
  refine ⟨?_, ?_, rfl, RegsBut.setFld _ _ _ (fun _ _ => rfl) (by simp), rfl⟩
  · exact Tab.get_put_self ..
  · rw [State.pushed, State.setQueue, State.fld_setFld_self _ _ (by decide), List.length_append, List.length_singleton]
    omega

theorem qpPush_accepted {s : State} {rq : Requester} {n : Nat} (hawake : s.awake = true) (hmay : s.mayQsel rq n = true) (h : pushFits s n) :
    Does (.qpPush rq n) s (fun t => t.queue n = s.queue n ++ [s.builtEntry n] ∧ t.fld (Reg.QP_Q_STAT n) 8 5 = 15 - (s.queue n).length
      ∧ t.qp = { s.qp with queues := t.qp.queues, stage := Tab.put [] s.qp.stage n [], next := if s.busFree then none else s.qp.next } ∧ RegsBut s t [Reg.QP_Q_STAT n, Reg.QP_STAT] ∧ SameMem s t) := by
  obtain ⟨hqueue, hfree, hqp, hregs, hmem⟩ := State.pushed_shows h.2.1
  refine Does.byRequester hawake rfl ?_
  rw [doQpPush_accepted hmay h]
  generalize s.pushed n = u at hqueue hfree hqp hregs hmem
  split
  · refine ⟨?_, ?_, ?_, ?_, SameMem.of_mem ?_⟩
    · rw [State.queue, State.showBus_qp]
      exact hqueue
    · rw [State.fld_of_rd (((u.setQp { u.qp with next := none }).showBus_only.1 _ (by simpa using qpStat_ne n)))]
      exact hfree
    · rw [State.showBus_qp]
      show { u.qp with next := none } = _
      rw [hqp]
      rfl
    · exact RegsBut.trans (hregs.mono (by simp)) (RegsBut.mono (l := [Reg.QP_STAT]) (State.showBus_only _).1 (by simp))
    · rw [State.showBus_mem]
      exact hmem
  · exact ⟨hqueue, hfree, hqp, hregs.mono (by simp), SameMem.of_mem hmem⟩

theorem qpPush_refused {s : State} {rq : Requester} {n : Nat} (hawake : s.awake = true) (hmay : s.mayQsel rq n = true) (h : ¬ pushFits s n) :
    Does (.qpPush rq n) s (fun t => t.bit (Reg.QP_Q_STAT n) 24 = true ∧ t.qp = { s.qp with stage := Tab.put [] s.qp.stage n [] } ∧ RegsBut s t [Reg.QP_Q_STAT n] ∧ SameMem s t) := by
  refine Does.byRequester hawake rfl ?_
  rw [doQpPush_refused hmay h]
  exact ⟨State.bit_setBit_self _ _ (by decide), rfl, RegsBut.setBit _ _ (fun _ _ => rfl) (by simp), SameMem.of_mem rfl⟩

theorem qpPush_foreign {s : State} {rq : Requester} {n : Nat} (h : s.mayQsel rq n = false) : exec (.qpPush rq n) s = .next s := by
  have hdo : doQpPush s rq n = s := if_pos (by rw [h]; rfl)
  show Host.Outcome.next (s.byRequester (doQpPush s rq n)) = _
  rw [hdo, State.byRequester, ite_self]

/-! The turn of a chain (R381, R388) -/

theorem State.nextSelect_lt {s : State} {n : Nat} (h : s.nextSelect = some n) : n < 4 ∧ s.queue n ≠ [] := by
  have hmem := List.mem_of_find?_eq_some h
  have hqueue := List.find?_some h
  obtain ⟨i, -, rfl⟩ := List.mem_map.mp hmem
  exact ⟨Nat.mod_lt _ (by decide), of_decide_eq_true hqueue⟩

/-- The turn goes to the first select with entries after the one served last. -/
theorem State.nextSelect_first {s : State} {n m : Nat} (h : s.nextSelect = some n) (hm : m < 4) (hqueue : s.queue m ≠ []) :
    (n + 3 - s.qp.last % 4) % 4 ≤ (m + 3 - s.qp.last % 4) % 4 := by
  have hskip (i : Nat) (hi : decide (s.queue ((s.qp.last + i) % 4) ≠ []) = false) : m ≠ (s.qp.last + i) % 4 := by
    rintro rfl
    exact of_decide_eq_false hi hqueue
  simp only [State.nextSelect, List.map_cons, List.map_nil, List.find?_cons] at h
  split at h
  · cases h
    omega
  · rename_i h1
    have hm1 := hskip 1 h1
    split at h
    · cases h
      omega
    · rename_i h2
      have hm2 := hskip 2 h2
      split at h
      · cases h
        omega
      · rename_i h3
        have hm3 := hskip 3 h3
        split at h
        · cases h
          omega
        · exact absurd h (by simp)

/-- A chain on the bus: its select is the one served last. -/
theorem State.runChain_shows (s : State) {n : Nat} (hn : n < 4) : let t := s.runChain n
    t.qp = { s.qp with chain := some n, next := none, turn := false, last := n } ∧ t.bit (Reg.QP_Q_STAT n) 0 = true ∧ t.bit Reg.QP_STAT 0 = true
      ∧ t.fld Reg.QP_STAT 1 3 = n + 1 ∧ RegsBut s t [Reg.QP_Q_STAT n, Reg.QP_STAT] ∧ SameMem s t := by
  refine ⟨?_, ?_, ?_, ?_, ?_, ?_⟩
  · rw [State.runChain, State.showBus_qp]
    rfl
  · rw [State.runChain, State.bit_of_rd ((State.showBus_only _).1 _ (by simpa using qpStat_ne n)), State.bit_setBit_self _ _ (by decide)]
  · rw [State.runChain, State.bit_showBus_busy]
    rfl
  · exact State.fld_showBus_owner rfl hn
  · exact RegsBut.trans (RegsBut.setBit _ _ (fun _ _ => rfl) (by simp)) (RegsBut.mono (l := [Reg.QP_STAT]) (State.showBus_only _).1 (by simp))
  · refine SameMem.of_mem ?_
    rw [State.runChain, State.showBus_mem]
    rfl

theorem doQpChainRun_free {s : State} {n : Nat} (hnext : s.nextSelect = some n) (hon : s.bit Reg.QP_CTRL 0 = true) (hfree : s.busFree = true) :
    doQpChainRun s n = s.runChain n := by
  rw [doQpChainRun, if_neg (by simp [hnext, hon]), if_pos hfree]

theorem doQpChainRun_gap {s : State} {n g : Nat} (hnext : s.nextSelect = some n) (hon : s.bit Reg.QP_CTRL 0 = true) (hbusy : s.busFree = false) (hgap : s.groupGap = some g) :
    doQpChainRun s n = (s.setQp { s.qp with groups := heldGroups s.qp.groups g }).runChain n := by
  rw [doQpChainRun, if_neg (by simp [hnext, hon]), if_neg (by simp [hbusy]), hgap]

theorem doQpChainRun_waits {s : State} {n : Nat} (hbusy : s.busFree = false) (hgap : s.groupGap = none) : doQpChainRun s n = s := by
  rw [doQpChainRun, hbusy, hgap, if_neg Bool.false_ne_true, ite_self]

theorem doQpChainRun_noTurn {s : State} {n : Nat} (h : s.nextSelect ≠ some n ∨ s.bit Reg.QP_CTRL 0 = false) : doQpChainRun s n = s :=
  if_pos (h.imp_right (fun hoff => by rw [hoff]; rfl))

/-! The end of a chain (R382) -/

/-- The received words of an entry join its select's FIFO, which keeps 32. -/
def State.entryReceived (s : State) (n : Nat) (e : QEnt) (words : List Nat) : State :=
  if e.dir = 1 then s.setQrx n ((s.qrx n ++ (words.take e.count).map (fun w => w % 2 ^ e.wlen)).take 32) else s

/-- An entry that asks for it is counted, with the event of the select's holder. -/
def State.entryCounted (s : State) (n : Nat) (e : QEnt) : State :=
  if e.irq then
    match s.qselGrant n with
    | some k => (s.incSat (Reg.QP_Q_DONECNT n) 0 8 1).setEvp (k + 1) 0x400
    | none => s.incSat (Reg.QP_Q_DONECNT n) 0 8 1
  else s

theorem State.qselGrant_of_parts {s t : State} (h : t.parts = s.parts) (n : Nat) : t.qselGrant n = s.qselGrant n := by
  have hgrant (k : Nat) : t.granted (k + 1) .misc n = s.granted (k + 1) .misc n := by
    rw [State.granted, State.granted, State.grant, State.grant, h]
  rw [State.qselGrant, State.qselGrant]
  simp only [hgrant]

theorem State.qselGrant_lt {s : State} {n k : Nat} (h : s.qselGrant n = some k) : k < 7 := by
  rw [State.qselGrant] at h
  split at h
  · exact List.mem_range.mp (List.mem_of_find?_eq_some h)
  · exact absurd h (by simp)

theorem State.entryEnd_eq (s : State) (n : Nat) (e : QEnt) (words : List Nat) : s.entryEnd n e words = (s.entryReceived n e words).entryCounted n e := by
  have hgrant (u : State) : (u.incSat (Reg.QP_Q_DONECNT n) 0 8 1).qselGrant n = u.qselGrant n := State.qselGrant_of_parts (State.incSat_parts ..) n
  rw [State.entryEnd, State.entryCounted]
  dsimp only
  rw [hgrant]
  rfl

theorem State.entryReceived_shows (s : State) (n : Nat) (e : QEnt) (words : List Nat) : let t := s.entryReceived n e words
    t.qrx n = (if e.dir = 1 then (s.qrx n ++ (words.take e.count).map (fun w => w % 2 ^ e.wlen)).take 32 else s.qrx n)
      ∧ t.qp = { s.qp with rx := t.qp.rx } ∧ RegsBut s t [Reg.QP_Q_STAT n, Reg.QP_Q_RXDATA n] ∧ t = { s with regs := t.regs, qp := t.qp } := by
  dsimp only
  rw [State.entryReceived]
  split
  · generalize (s.qrx n ++ (words.take e.count).map (fun w => w % 2 ^ e.wlen)).take 32 = l
    obtain ⟨hframe, hregs⟩ := s.setQrx_frame n l
    have hqp : (s.setQrx n l).qp = { s.qp with rx := Tab.put [] s.qp.rx n l } := by rw [State.setQrx, State.wrN_qp, State.setFld_qp]; rfl
    exact ⟨by rw [State.qrx, hqp]; exact Tab.get_put_self .., by rw [hqp], hregs, hframe⟩
  · exact ⟨rfl, rfl, RegsBut.refl s _, rfl⟩

theorem State.entryCounted_shows (s : State) (n : Nat) (e : QEnt) : let t := s.entryCounted n e
    t.fld (Reg.QP_Q_DONECNT n) 0 8 = (if e.irq then min (s.fld (Reg.QP_Q_DONECNT n) 0 8 + 1) 255 else s.fld (Reg.QP_Q_DONECNT n) 0 8)
      ∧ (∀ k, e.irq = true → s.qselGrant n = some k → t.bit (Reg.PART_EVP k) 10 = true)
      ∧ OnlyRegs s t (Reg.QP_Q_DONECNT n :: evpRegs) := by
  dsimp only
  rw [State.entryCounted]
  cases hirq : e.irq with
  | false => exact ⟨rfl, fun k h => absurd h (by simp), .refl s _⟩
  | true =>
    have hcnt : (s.incSat (Reg.QP_Q_DONECNT n) 0 8 1).fld (Reg.QP_Q_DONECNT n) 0 8 = min (s.fld (Reg.QP_Q_DONECNT n) 0 8 + 1) 255 := State.fld_incSat_self _ _ (by decide)
    have honly : OnlyRegs s (s.incSat (Reg.QP_Q_DONECNT n) 0 8 1) (Reg.QP_Q_DONECNT n :: evpRegs) :=
      ⟨RegsBut.incSat _ _ _ (RegsBut.refl s _) (by simp), SameMem.of_mem (State.incSat_mem ..), rfl⟩
    generalize s.incSat (Reg.QP_Q_DONECNT n) 0 8 1 = u at hcnt honly
    rw [if_pos rfl, if_pos rfl]
    split
    · rename_i k hk
      have hk7 := State.qselGrant_lt hk
      have hne : Reg.PART_EVP k ≠ Reg.QP_Q_DONECNT n := by unfold Reg.PART_EVP Reg.QP_Q_DONECNT; omega
      refine ⟨?_, ?_, ?_⟩
      · rw [State.setEvp, Nat.add_sub_cancel, State.fld_orReg_ne _ _ _ _ hne, hcnt]
      · intro j _ hj
        cases hk.symm.trans hj
        rw [State.setEvp, Nat.add_sub_cancel, State.bit_orReg _ _ _ _ (by decide)]
        exact Bool.or_eq_true_iff.mpr (.inr (by decide))
      · rw [State.setEvp, Nat.add_sub_cancel]
        refine honly.trans ⟨RegsBut.orReg _ (RegsBut.refl u _) ?_, SameMem.of_mem (State.orReg_mem ..), rfl⟩
        exact List.mem_cons_of_mem _ (List.mem_map_of_mem (List.mem_range.mpr hk7))
    · rename_i hk
      exact ⟨hcnt, fun j _ hj => absurd (hk.symm.trans hj) (by simp), honly⟩


theorem State.nextMiss_nil {s : State} (h : s.qp.misses = []) : s.nextMiss = s := by
  unfold State.nextMiss
  rw [h]
  split
  · rename_i heq
    exact absurd heq (by simp)
  · rfl

/-- The chain of one entry leaves the bus. -/
def State.chainLeft (s : State) (n : Nat) (rest : List QEnt) : State :=
  (((s.setQueue n rest).setBit (Reg.QP_Q_STAT n) 0 false).setQp { s.qp with queues := Tab.put [] s.qp.queues n rest, chain := none }).showBus

theorem State.chainLeft_shows (s : State) (n : Nat) (rest : List QEnt) : let t := s.chainLeft n rest
    t.qp = { s.qp with queues := t.qp.queues, chain := none } ∧ t.queue n = rest ∧ t.bit Reg.QP_STAT 0 = s.qp.fill.isSome
      ∧ RegsBut s t [Reg.QP_STAT, Reg.QP_Q_STAT n] ∧ t.mem = s.mem := by
  have hqp : (s.chainLeft n rest).qp = { s.qp with queues := Tab.put [] s.qp.queues n rest, chain := none } := State.showBus_qp _
  refine ⟨?_, ?_, ?_, ?_, ?_⟩
  · rw [hqp]
  · rw [State.queue, hqp]
    exact Tab.get_put_self ..
  · rw [State.chainLeft, State.bit_showBus_busy]
    show (!(s.qp.fill.isNone)) = _
    cases s.qp.fill <;> rfl
  · refine RegsBut.trans ?_ (RegsBut.mono (l := [Reg.QP_STAT]) (State.showBus_only _).1 (by simp))
    exact RegsBut.setBit _ _ (RegsBut.setFld _ _ _ (fun _ _ => rfl) (by simp)) (by simp)
  · exact State.showBus_mem _

theorem doQpChainEnd_single {s : State} {n : Nat} {e : QEnt} {rest : List QEnt} {words : List Word} (hchain : s.qp.chain = some n) (hmiss : s.qp.misses = [])
    (hqueue : s.queue n = e :: rest) (hlinks : e.links = false) :
    doQpChainEnd s words = (s.entryEnd n e (words.map (fun w => w.toNat))).chainLeft n rest := by
  have hfront : frontChain (e :: rest) = [e] := by rw [frontChain, hlinks, if_neg Bool.false_ne_true]
  obtain ⟨-, hrx, -, -⟩ := s.entryReceived_shows n e (words.map (fun w => w.toNat))
  obtain ⟨-, -, -, -, hframe⟩ := (s.entryReceived n e (words.map (fun w => w.toNat))).entryCounted_shows n e
  rw [← State.entryEnd_eq] at hframe
  have hmiss' : (s.entryEnd n e (words.map (fun w => w.toNat))).qp.misses = [] := by
    rw [hframe, ← hmiss]
    exact (congrArg QpSt.misses hrx :)
  unfold doQpChainEnd
  rw [hchain]
  dsimp only
  rw [hqueue, hfront]
  show ((s.entryEnd n e (words.map (fun w => w.toNat))).chainLeft n rest).nextMiss = _
  obtain ⟨hqp, -, -, -, -⟩ := (s.entryEnd n e (words.map (fun w => w.toNat))).chainLeft_shows n rest
  exact State.nextMiss_nil ((congrArg QpSt.misses hqp).trans hmiss')

theorem qpChainEnd_single {s : State} {n : Nat} {e : QEnt} {rest : List QEnt} {words : List Word} (hchain : s.qp.chain = some n) (hmiss : s.qp.misses = [])
    (hqueue : s.queue n = e :: rest) (hlinks : e.links = false) :
    Does (.qpChainEnd words) s (fun t => t.qp.chain = none ∧ t.queue n = rest ∧ t.bit Reg.QP_STAT 0 = s.qp.fill.isSome
      ∧ t.qrx n = (if e.dir = 1 then (s.qrx n ++ (words.take e.count).map (fun (w : Word) => w.toNat % 2 ^ e.wlen)).take 32 else s.qrx n)
      ∧ t.fld (Reg.QP_Q_DONECNT n) 0 8 = (if e.irq then min (s.fld (Reg.QP_Q_DONECNT n) 0 8 + 1) 255 else s.fld (Reg.QP_Q_DONECNT n) 0 8)
      ∧ (∀ k, e.irq = true → s.qselGrant n = some k → t.bit (Reg.PART_EVP k) 10 = true)
      ∧ RegsBut s t ([Reg.QP_STAT, Reg.QP_Q_STAT n, Reg.QP_Q_RXDATA n, Reg.QP_Q_DONECNT n] ++ (List.range 7).map Reg.PART_EVP) ∧ SameMem s t) := by
  have hdone : Reg.QP_Q_DONECNT n ∉ [Reg.QP_Q_STAT n, Reg.QP_Q_RXDATA n] ∧ Reg.QP_Q_DONECNT n ∉ [Reg.QP_STAT, Reg.QP_Q_STAT n] := by
    simp [Reg.QP_Q_DONECNT, Reg.QP_Q_STAT, Reg.QP_Q_RXDATA, Reg.QP_STAT]
    omega
  have hevp (k : Nat) (hk : k < 7) : Reg.PART_EVP k ∉ [Reg.QP_STAT, Reg.QP_Q_STAT n] := by
    simp [Reg.PART_EVP, Reg.QP_Q_STAT, Reg.QP_STAT]
    omega
  obtain ⟨hrx, hrqp, hrregs, hrframe⟩ := s.entryReceived_shows n e (words.map (fun w => w.toNat))
  obtain ⟨hcnt, hev, hcregs, -, hcframe⟩ := (s.entryReceived n e (words.map (fun w => w.toNat))).entryCounted_shows n e
  rw [State.fld_of_rd (hrregs _ hdone.1)] at hcnt
  rw [State.qselGrant_of_parts (by rw [hrframe])] at hev
  refine ⟨_, congrArg Host.Outcome.next ((doQpChainEnd_single hchain hmiss hqueue hlinks).trans (congrArg (·.chainLeft n rest) (State.entryEnd_eq ..))), ?_⟩
  generalize s.entryReceived n e (words.map (fun w => w.toNat)) = u at hrx hrqp hrregs hrframe hcnt hev hcregs hcframe
  generalize u.entryCounted n e = v at hcnt hev hcregs hcframe
  have hvqp : v.qp = u.qp := by rw [hcframe]
  obtain ⟨hqp, hq, hbusy, hlregs, hlmem⟩ := v.chainLeft_shows n rest
  generalize v.chainLeft n rest = t at hqp hq hbusy hlregs hlmem
  refine ⟨congrArg QpSt.chain hqp, hq, ?_, ?_, ?_, ?_, ?_, ?_⟩
  · rw [hbusy, hvqp, hrqp]
  · rw [State.qrx, hqp]
    show Tab.get [] v.qp.rx n = _
    rw [hvqp, ← State.qrx, hrx, ← List.map_take, List.map_map]
    rfl
  · rw [State.fld_of_rd (hlregs _ hdone.2), hcnt]
  · intro k hirq hk
    rw [State.bit_of_rd (hlregs _ (hevp k (State.qselGrant_lt hk)))]
    exact hev k hirq hk
  · refine RegsBut.trans (RegsBut.mono hrregs (by simp +contextual)) (RegsBut.trans (RegsBut.mono hcregs ?_) (RegsBut.mono hlregs (by simp +contextual)))
    intro a ha
    obtain rfl | ha := List.mem_cons.mp ha
    · simp
    · exact List.mem_append_right _ ha
  · refine SameMem.of_mem ?_
    rw [hlmem, hcframe, hrframe]


/-! Slave mode (R386) -/

/-- A frame's words join the slave FIFO. -/
def State.slaveTaken (s : State) (l : List Nat) : State :=
  ((({ s with qp := { s.qp with slave := l } } : State).setFld Reg.QP_SLVST 0 7 l.length).incSat Reg.QP_SLVST 8 16 1).wrN Reg.QP_SLVRX (l.headD 0)

/-- A frame is counted as rejected. -/
def State.slaveRejected (s : State) : State := (s.incSat Reg.QP_SLVST 24 8 1).setBit Reg.QP_IRQ 1 true

/-- Why a frame is rejected: 1 length, 2 size, 3 FIFO, 0 not. -/
def slaveReason (s : State) (wlen bits : Nat) : Nat :=
  if bits = 0 ∨ bits % wlen ≠ 0 then 1 else if 64 * wlen < bits then 2 else if 64 < s.qp.slave.length + bits / wlen then 3 else 0

theorem doQpSlaveFrame_off {s : State} (h : s.bit (Reg.QP_Q_CFG 3) 24 = false) (bits : Nat) (words : List Word) : doQpSlaveFrame s bits words = s :=
  if_pos (by rw [h]; rfl)

theorem doQpSlaveFrame_on {s : State} (h : s.bit (Reg.QP_Q_CFG 3) 24 = true) (bits : Nat) (words : List Word) :
    doQpSlaveFrame s bits words =
      if slaveReason s (s.fld (Reg.QP_Q_ENTCTL 3) 8 5 + 1) bits = 0 then
        s.slaveTaken (s.qp.slave ++ (words.take (bits / (s.fld (Reg.QP_Q_ENTCTL 3) 8 5 + 1))).map (fun (w : Word) => w.toNat % 2 ^ (s.fld (Reg.QP_Q_ENTCTL 3) 8 5 + 1)))
      else if s.slaveRejected.camlanOn then
        match s.slaveRejected.qselGrant 3 with
        | some k => s.slaveRejected.logSK (k + 1) 0x1103 (u32 bits ++ u8 (slaveReason s (s.fld (Reg.QP_Q_ENTCTL 3) 8 5 + 1) bits))
        | none => s.slaveRejected.logS 0x1103 (u32 bits ++ u8 (slaveReason s (s.fld (Reg.QP_Q_ENTCTL 3) 8 5 + 1) bits))
      else s.slaveRejected := by
  rw [doQpSlaveFrame, h, Bool.not_true, if_neg Bool.false_ne_true]
  rfl

theorem State.slaveTaken_shows (s : State) {l : List Nat} (hl : l.length ≤ 64) : let t := s.slaveTaken l
    t.qp = { s.qp with slave := l } ∧ t.fld Reg.QP_SLVST 0 7 = l.length ∧ t.fld Reg.QP_SLVST 8 16 = min (s.fld Reg.QP_SLVST 8 16 + 1) 0xFFFF
      ∧ RegsBut s t [Reg.QP_SLVST, Reg.QP_SLVRX] ∧ SameMem s t := by
  refine ⟨rfl, ?_, ?_, ?_, SameMem.of_mem rfl⟩
  · rw [State.slaveTaken, State.fld_wrN_ne _ _ _ _ (by decide), State.incSat, State.fld_setFld_other _ _ (by decide) (by decide), State.fld_setFld_self _ _ (by decide)]
    omega
  · rw [State.slaveTaken, State.fld_wrN_ne _ _ _ _ (by decide), State.fld_incSat_self _ _ (by decide), State.fld_setFld_other _ _ (by decide) (by decide), State.fld_mk]
    rfl
  · exact RegsBut.wrN _ (RegsBut.incSat _ _ _ (RegsBut.setFld _ _ _ (fun _ _ => rfl) (by simp)) (by simp)) (by simp)

theorem qpSlaveFrame_taken {s : State} {bits : Nat} {words : List Word} (hon : s.bit (Reg.QP_Q_CFG 3) 24 = true) : let wlen := s.fld (Reg.QP_Q_ENTCTL 3) 8 5 + 1
    bits ≠ 0 → bits % wlen = 0 → bits ≤ 64 * wlen → s.qp.slave.length + bits / wlen ≤ 64 → words.length = bits / wlen →
      Does (.qpSlaveFrame bits words) s (fun t => t.qp = { s.qp with slave := s.qp.slave ++ words.map (fun (w : Word) => w.toNat % 2 ^ wlen) } ∧ t.fld Reg.QP_SLVST 0 7 = s.qp.slave.length + words.length
        ∧ t.fld Reg.QP_SLVST 8 16 = min (s.fld Reg.QP_SLVST 8 16 + 1) 0xFFFF ∧ RegsBut s t [Reg.QP_SLVST, Reg.QP_SLVRX] ∧ SameMem s t) := by
  intro wlen hsome hwhole hsize hroom hwords
  have hreason : slaveReason s wlen bits = 0 := by
    rw [slaveReason, if_neg (by omega), if_neg (by omega), if_neg (by omega)]
  have hlength : (s.qp.slave ++ words.map (fun (w : Word) => w.toNat % 2 ^ wlen)).length = s.qp.slave.length + words.length := by
    rw [List.length_append, List.length_map]
  refine ⟨_, congrArg Host.Outcome.next ((doQpSlaveFrame_on hon bits words).trans (if_pos hreason)), ?_⟩
  rw [← hwords, List.take_length]
  obtain ⟨hqp, hlen, hcnt, hregs, hmem⟩ := s.slaveTaken_shows (l := s.qp.slave ++ words.map (fun (w : Word) => w.toNat % 2 ^ wlen)) (by omega)
  exact ⟨hqp, hlen.trans hlength, hcnt, hregs, hmem⟩

theorem State.slaveRejected_shows (s : State) : let t := s.slaveRejected
    t.fld Reg.QP_SLVST 24 8 = min (s.fld Reg.QP_SLVST 24 8 + 1) 0xFF ∧ t.bit Reg.QP_IRQ 1 = true ∧ OnlyRegs s t [Reg.QP_SLVST, Reg.QP_IRQ] := by
  refine ⟨?_, State.bit_setBit_self _ _ (by decide), RegsBut.setBit _ _ (RegsBut.incSat _ _ _ (RegsBut.refl s _) (by simp)) (by simp), SameMem.of_mem rfl, rfl⟩
  rw [State.slaveRejected, State.fld_setBit_ne _ _ _ _ _ (by decide), State.fld_incSat_self _ _ (by decide)]
  rfl

theorem slaveRegs_notMem_logRegs {j : Nat} (hj : j ≤ 8) : Reg.QP_SLVST ∉ logRegs j ∧ Reg.QP_IRQ ∉ logRegs j := by
  interval_cases j <;> decide

theorem qpSlaveFrame_rejected {s : State} {bits : Nat} {words : List Word} (hon : s.bit (Reg.QP_Q_CFG 3) 24 = true) : let wlen := s.fld (Reg.QP_Q_ENTCTL 3) 8 5 + 1
    bits = 0 ∨ bits % wlen ≠ 0 ∨ 64 * wlen < bits ∨ 64 < s.qp.slave.length + bits / wlen →
      Does (.qpSlaveFrame bits words) s (fun t => t.qp = s.qp ∧ t.fld Reg.QP_SLVST 24 8 = min (s.fld Reg.QP_SLVST 24 8 + 1) 0xFF ∧ t.bit Reg.QP_IRQ 1 = true
        ∧ RegsBut s t ([Reg.QP_SLVST, Reg.QP_IRQ] ++ logRegs 0 ++ (List.range 7).flatMap (fun k => logRegs (2 + k))) ∧ SameMem s t) := by
  intro wlen h
  have hreason : slaveReason s wlen bits ≠ 0 := by
    rw [slaveReason]
    split
    · decide
    · split
      · decide
      · rw [if_pos (by omega)]
        decide
  obtain ⟨hcnt, hirq, hregs, hmem, hframe⟩ := s.slaveRejected_shows
  refine ⟨_, congrArg Host.Outcome.next ((doQpSlaveFrame_on hon bits words).trans (if_neg hreason)), ?_⟩
  have hall : RegsBut s s.slaveRejected ([Reg.QP_SLVST, Reg.QP_IRQ] ++ logRegs 0 ++ (List.range 7).flatMap (fun k => logRegs (2 + k))) := hregs.mono (by simp +contextual)
  have hqp : s.slaveRejected.qp = s.qp := by rw [hframe]
  generalize slaveReason s (s.fld (Reg.QP_Q_ENTCTL 3) 8 5 + 1) bits = why
  generalize s.slaveRejected = u at hcnt hirq hmem hall hqp
  obtain ⟨h0, h0'⟩ := slaveRegs_notMem_logRegs (j := 0) (by decide)
  split
  · split
    · rename_i k hk
      obtain ⟨hk1, hk1'⟩ := slaveRegs_notMem_logRegs (j := 1 + (k + 1)) (by have := State.qselGrant_lt hk; omega)
      have hno : Reg.QP_SLVST ∉ logRegs 0 ++ logRegs (1 + (k + 1)) := fun hm => (List.mem_append.mp hm).elim h0 hk1
      have hno' : Reg.QP_IRQ ∉ logRegs 0 ++ logRegs (1 + (k + 1)) := fun hm => (List.mem_append.mp hm).elim h0' hk1'
      refine ⟨by rw [State.logSK_qp, hqp], by rw [State.fld_logSK _ _ _ _ _ hno, hcnt], by rw [State.bit_logSK _ _ _ _ hno', hirq], ?_, fun a => ?_⟩
      · refine (RegsBut.logSK_iff _ _ (fun a ha => List.mem_append_left _ (List.mem_append_right _ ha)) fun a ha => ?_).mpr hall
        exact List.mem_append_right _ (List.mem_flatMap.mpr ⟨k, List.mem_range.mpr (State.qselGrant_lt hk), by rwa [show 2 + k = 1 + (k + 1) by omega]⟩)
      · exact (SameMem.of_mem (State.logSK_mem ..) a).trans (hmem a)
    · exact ⟨by rw [State.logS_qp, hqp], by rw [State.fld_logS _ _ _ _ _ h0, hcnt], by rw [State.bit_logS _ _ _ _ h0', hirq],
        RegsBut.logS _ _ hall (fun a ha => List.mem_append_left _ (List.mem_append_right _ ha)), fun a => (SameMem.of_mem (State.logS_mem ..) a).trans (hmem a)⟩
  · exact ⟨hqp, hcnt, hirq, hall, hmem⟩

/-! Pins (R393) -/

theorem bit_orPins (s : State) (pins m : Nat) {i : Nat} (hi : i < 32) : (s.orReg Reg.GPIO_OUT (pins &&& m)).bit Reg.GPIO_OUT i = (s.bit Reg.GPIO_OUT i || (pins.testBit i && m.testBit i)) := by
  rw [State.bit_orReg _ _ _ _ hi, Nat.testBit_and]

theorem bit_clrPins (s : State) (pins m i : Nat) : (s.clrReg Reg.GPIO_OUT (pins &&& m)).bit Reg.GPIO_OUT i = (s.bit Reg.GPIO_OUT i && !(pins.testBit i && m.testBit i)) := by
  rw [State.bit_clrReg, Nat.testBit_and]

/-- The enabled edge of a pin: it is latched, with the event of the pin's holder. -/
def State.edgeSeen (s : State) (pin : Nat) : State :=
  match (List.range 7).find? (fun k => (s.setBit Reg.GPIO_EDGE pin true).granted (k + 1) .gpio pin) with
  | some k => (s.setBit Reg.GPIO_EDGE pin true).setEvp (k + 1) 0x800
  | none => s.setBit Reg.GPIO_EDGE pin true

theorem doGpioEdge_same {s : State} {pin : Nat} {level : Bool} (h : 32 ≤ pin ∨ (s.bit (Reg.QP_Q_CFG 3) 24 = true ∧ 30 ≤ pin) ∨ s.bit Reg.GPIO_IN pin = level) :
    doGpioEdge s pin level = s := if_pos h

theorem doGpioEdge_changes {s : State} {pin : Nat} {level : Bool} (hpin : pin < 32) (hfree : s.bit (Reg.QP_Q_CFG 3) 24 = false ∨ pin < 30) (hnew : s.bit Reg.GPIO_IN pin ≠ level) :
    doGpioEdge s pin level =
      if s.bit (if level then Reg.GPIO_RISE else Reg.GPIO_FALL) pin then (s.setBit Reg.GPIO_IN pin level).edgeSeen pin else s.setBit Reg.GPIO_IN pin level := by
  have hno : ¬ (32 ≤ pin ∨ (s.bit (Reg.QP_Q_CFG 3) 24 = true ∧ 30 ≤ pin) ∨ s.bit Reg.GPIO_IN pin = level) := by
    rintro (h | ⟨h, h30⟩ | h)
    · omega
    · rw [h] at hfree
      simp at hfree
      omega
    · exact hnew h
  have hedge : (s.setBit Reg.GPIO_IN pin level).bit (if level then Reg.GPIO_RISE else Reg.GPIO_FALL) pin = s.bit (if level then Reg.GPIO_RISE else Reg.GPIO_FALL) pin := by
    cases level <;> exact State.bit_setBit_ne _ _ _ _ (by decide)
  rw [doGpioEdge, if_neg hno]
  dsimp only
  rw [hedge]
  rfl

theorem State.edgeSeen_shows (s : State) {pin : Nat} (hpin : pin < 32) : let t := s.edgeSeen pin
    t.bit Reg.GPIO_EDGE pin = true
      ∧ (∀ k, k < 7 → s.granted (k + 1) .gpio pin = true → (∀ j, j < k → s.granted (j + 1) .gpio pin = false) → t.bit (Reg.PART_EVP k) 11 = true)
      ∧ OnlyRegs s t (Reg.GPIO_EDGE :: evpRegs) := by
  have hedge : (s.setBit Reg.GPIO_EDGE pin true).bit Reg.GPIO_EDGE pin = true := State.bit_setBit_self _ _ hpin
  have honly : OnlyRegs s (s.setBit Reg.GPIO_EDGE pin true) (Reg.GPIO_EDGE :: evpRegs) := (OnlyRegs.refl s _).setBit _ _ (by simp)
  have hgrant (k : Nat) : (s.setBit Reg.GPIO_EDGE pin true).granted (k + 1) .gpio pin = s.granted (k + 1) .gpio pin := rfl
  rw [State.edgeSeen]
  generalize s.setBit Reg.GPIO_EDGE pin true = u at hedge honly hgrant
  simp only [hgrant]
  split
  · rename_i j hj
    obtain ⟨hjg, hjmem, hbefore⟩ := List.find?_range_eq_some.mp hj
    have hj7 : j < 7 := List.mem_range.mp hjmem
    refine ⟨?_, ?_, ?_⟩
    · rw [State.setEvp, Nat.add_sub_cancel, State.bit_orReg_ne _ _ _ (by unfold Reg.PART_EVP Reg.GPIO_EDGE; omega), hedge]
    · intro k hk hkg hfirst
      have hkj : k = j := by
        by_contra hne
        obtain hlt | hlt := Nat.lt_or_gt_of_ne hne
        · exact absurd (hbefore k hlt) (by simp [hkg])
        · exact absurd (hfirst j hlt) (by simp [hjg])
      rw [hkj, State.setEvp, Nat.add_sub_cancel, State.bit_orReg _ _ _ _ (by decide)]
      exact Bool.or_eq_true_iff.mpr (.inr (by decide))
    · refine honly.trans ⟨RegsBut.orReg _ (RegsBut.refl u _) ?_, SameMem.of_mem (State.orReg_mem ..), rfl⟩
      exact List.mem_cons_of_mem _ (List.mem_map_of_mem (List.mem_range.mpr hj7))
  · rename_i hnone
    refine ⟨hedge, fun k hk hkg _ => ?_, honly⟩
    exact absurd hkg (List.find?_eq_none.mp hnone k (List.mem_range.mpr hk))


theorem gpioEdge_changes {s : State} {pin : Nat} {level : Bool} (hpin : pin < 32) (hfree : s.bit (Reg.QP_Q_CFG 3) 24 = false ∨ pin < 30) (hnew : s.bit Reg.GPIO_IN pin ≠ level) :
    Does (.gpioEdge pin level) s (fun t => t.bit Reg.GPIO_IN pin = level
      ∧ (s.bit (if level then Reg.GPIO_RISE else Reg.GPIO_FALL) pin = true → t.bit Reg.GPIO_EDGE pin = true
        ∧ ∀ k, k < 7 → s.granted (k + 1) .gpio pin = true → (∀ j, j < k → s.granted (j + 1) .gpio pin = false) → t.bit (Reg.PART_EVP k) 11 = true)
      ∧ (s.bit (if level then Reg.GPIO_RISE else Reg.GPIO_FALL) pin = false → RegsBut s t [Reg.GPIO_IN])
      ∧ OnlyRegs s t ([Reg.GPIO_IN, Reg.GPIO_EDGE] ++ (List.range 7).map Reg.PART_EVP)) := by
  refine ⟨_, congrArg Host.Outcome.next (doGpioEdge_changes hpin hfree hnew), ?_⟩
  have hin : (s.setBit Reg.GPIO_IN pin level).bit Reg.GPIO_IN pin = level := State.bit_setBit_self _ _ hpin
  have honly : OnlyRegs s (s.setBit Reg.GPIO_IN pin level) [Reg.GPIO_IN] := (OnlyRegs.refl s _).setBit _ _ (by simp)
  have hgrant (k : Nat) : (s.setBit Reg.GPIO_IN pin level).granted (k + 1) .gpio pin = s.granted (k + 1) .gpio pin := rfl
  generalize s.setBit Reg.GPIO_IN pin level = u at hin honly hgrant
  cases s.bit (if level then Reg.GPIO_RISE else Reg.GPIO_FALL) pin with
  | true =>
    obtain ⟨hedge, hev, hmore⟩ := u.edgeSeen_shows hpin
    simp only [hgrant] at hev
    have hno : Reg.GPIO_IN ∉ Reg.GPIO_EDGE :: evpRegs := by decide
    refine ⟨(State.bit_of_rd (hmore.1 _ hno) _).trans hin, fun _ => ⟨hedge, hev⟩, fun hoff => absurd hoff (by decide), ?_⟩
    exact (honly.mono (by simp)).trans (hmore.mono (fun a ha => List.mem_cons_of_mem _ ha))
  | false => exact ⟨hin, fun hon => absurd hon (by decide), fun _ => honly.1, honly.mono (by simp)⟩

theorem queuesSlaveAndPins_holds : queuesSlaveAndPins := by
  refine ⟨?_, ?_, ?_, ?_, ?_, ?_, ?_, ?_, ?_, ?_, ?_, ?_⟩
  · intro s rq n hawake hn hmay
    exact ⟨qpPush_accepted hawake hmay, qpPush_refused hawake hmay⟩
  · intro s rq n hmay
    exact qpPush_foreign hmay
  · intro s n hnext hon
    obtain ⟨hn, -⟩ := State.nextSelect_lt hnext
    refine ⟨?_, ?_, ?_⟩
    · intro hfree
      exact ⟨_, congrArg Host.Outcome.next (doQpChainRun_free hnext hon hfree), s.runChain_shows hn⟩
    · intro g hbusy hgap
      obtain ⟨hqp, hstart, -, howner, hregs, hmem⟩ := (s.setQp { s.qp with groups := heldGroups s.qp.groups g }).runChain_shows hn
      exact ⟨_, congrArg Host.Outcome.next (doQpChainRun_gap hnext hon hbusy hgap), hqp, hstart, howner, hregs, hmem⟩
    · intro hbusy hgap
      exact congrArg Host.Outcome.next (doQpChainRun_waits hbusy hgap)
  · intro s n h
    exact congrArg Host.Outcome.next (doQpChainRun_noTurn h)
  · intro s n hnext
    obtain ⟨hn, hqueue⟩ := State.nextSelect_lt hnext
    exact ⟨hn, hqueue, fun m hm hm' => State.nextSelect_first hnext hm hm'⟩
  · intro s n e rest words hn hchain hmiss hqueue hlinks
    exact qpChainEnd_single hchain hmiss hqueue hlinks
  · intro s words hchain
    refine congrArg Host.Outcome.next ?_
    unfold doQpChainEnd
    rw [hchain]
  · intro s bits words hon
    exact ⟨qpSlaveFrame_taken hon, qpSlaveFrame_rejected hon⟩
  · intro s bits words hoff
    exact congrArg Host.Outcome.next (doQpSlaveFrame_off hoff bits words)
  · intro s rq pins hawake
    refine ⟨Does.byRequester hawake rfl ⟨fun i hi => bit_orPins s _ _ hi, ?_⟩, Does.byRequester hawake rfl ⟨fun i _ => bit_clrPins s _ _ i, ?_⟩⟩
    · exact ⟨RegsBut.orReg _ (RegsBut.refl s _) (by simp), SameMem.of_mem (State.orReg_mem ..), rfl⟩
    · exact ⟨RegsBut.clrReg _ (RegsBut.refl s _) (by simp), SameMem.of_mem (State.clrReg_mem ..), rfl⟩
  · intro s pin level hpin hfree hnew
    exact gpioEdge_changes hpin hfree hnew
  · intro s pin level h
    exact congrArg Host.Outcome.next (doGpioEdge_same h)


/-! Misses of the window (R388) -/

theorem xipMiss_off {s : State} (h : s.bit Reg.QP_CTRL 1 = false) (sc addr : Nat) : doXipMiss s sc addr = s := if_pos (by rw [h]; rfl)

theorem doXipMiss_on {s : State} (h : s.bit Reg.QP_CTRL 1 = true) (sc addr : Nat) :
    doXipMiss s sc addr =
      if s.qp.lines.contains (addr % 2 ^ 28 / 256) then s.setQp { s.qp with lines := (addr % 2 ^ 28 / 256) :: s.qp.lines.filter (· ≠ addr % 2 ^ 28 / 256) }
      else if s.qp.fill = some (addr % 2 ^ 28 / 256) then s.setQp { s.qp with waiters := s.qp.waiters ++ [sc], demand := true }
      else (s.setQp { s.qp with misses := s.qp.misses ++ [(sc, addr % 2 ^ 28 / 256)] }).nextMiss := by
  rw [doXipMiss, h, Bool.not_true]
  rfl

/-- A lone miss is filled at once when the bus is free and no chain goes first. -/
theorem State.nextMiss_lone {s : State} {sc line : Nat} (hmiss : s.qp.misses = [(sc, line)]) (hfree : s.busFree = true) (hfirst : s.chainFirst = false) :
    s.nextMiss = (s.setQp { s.qp with misses := [] }).startFill line [sc] true := by
  unfold State.nextMiss
  rw [hfree, hfirst, hmiss]
  simp

theorem State.nextMiss_busy {s : State} (h : s.busFree = false) : s.nextMiss = s := by
  unfold State.nextMiss
  rw [h]
  rfl

theorem State.startFill_shows (s : State) (line : Nat) (sculls : List Nat) (demand : Bool) : let t := s.startFill line sculls demand
    t.qp.fill = some line ∧ t.qp.waiters = sculls ∧ t.qp.demand = demand ∧ t.qp.misses = s.qp.misses ∧ t.bit Reg.QP_STAT 0 = true
      ∧ RegsBut s t [Reg.QP_STAT] ∧ SameMem s t := by
  refine ⟨?_, ?_, ?_, ?_, ?_, (State.showBus_only _).1, SameMem.of_mem (State.showBus_mem _)⟩
  iterate 4
    rw [State.startFill, State.showBus_qp]
    rfl
  rw [State.startFill, State.bit_showBus_busy]
  simp [State.busFree, State.setQp]

theorem xipMiss_fills {s : State} {sc addr : Nat} (hon : s.bit Reg.QP_CTRL 1 = true) (hline : s.qp.lines.contains (addr % 2 ^ 28 / 256) = false)
    (hfill : s.qp.fill = none) (hchain : s.qp.chain = none) (hmiss : s.qp.misses = []) (hfirst : s.chainFirst = false) :
    Does (.xipMiss sc addr) s (fun t => t.qp.fill = some (addr % 2 ^ 28 / 256) ∧ t.qp.waiters = [sc] ∧ t.qp.demand = true ∧ t.qp.misses = [] ∧ t.bit Reg.QP_STAT 0 = true
      ∧ RegsBut s t [Reg.QP_STAT] ∧ SameMem s t) := by
  have hqueued : doXipMiss s sc addr = (s.setQp { s.qp with misses := s.qp.misses ++ [(sc, addr % 2 ^ 28 / 256)] }).nextMiss := by
    rw [doXipMiss_on hon, hline, if_neg Bool.false_ne_true, if_neg (by rw [hfill]; exact nofun)]
  rw [hmiss] at hqueued
  have hfree : s.busFree = true := by rw [State.busFree, hchain, hfill]; rfl
  refine ⟨_, congrArg Host.Outcome.next (hqueued.trans (State.nextMiss_lone (sc := sc) (line := addr % 2 ^ 28 / 256) rfl hfree hfirst)), ?_⟩
  obtain ⟨h1, h2, h3, h4, h5, h6, h7⟩ := (s.setQp { s.qp with misses := [] }).startFill_shows (addr % 2 ^ 28 / 256) [sc] true
  exact ⟨h1, h2, h3, h4, h5, h6, h7⟩

theorem xipMiss_waits {s : State} {sc addr : Nat} (hon : s.bit Reg.QP_CTRL 1 = true) (hline : s.qp.lines.contains (addr % 2 ^ 28 / 256) = false)
    (hfill : s.qp.fill ≠ some (addr % 2 ^ 28 / 256)) (hchain : s.qp.chain ≠ none) :
    doXipMiss s sc addr = { s with qp := { s.qp with misses := s.qp.misses ++ [(sc, addr % 2 ^ 28 / 256)] } } := by
  have hbusy : (s.setQp { s.qp with misses := s.qp.misses ++ [(sc, addr % 2 ^ 28 / 256)] }).busFree = false := by
    rw [State.busFree, Bool.and_eq_false_iff]
    exact .inl (Option.isNone_eq_false_iff.mpr (Option.isSome_iff_ne_none.mpr hchain))
  rw [doXipMiss_on hon, hline, if_neg Bool.false_ne_true, if_neg hfill, State.nextMiss_busy hbusy]
  rfl

/-! The end of a line fill (R388, R390) -/

theorem State.fillEnd_nil {s : State} (h : s.qp.misses = []) : s.fillEnd = (s.setQp { s.qp with turn := s.nextSelect.isSome }).showBus :=
  State.nextMiss_nil (by rw [State.showBus_qp]; exact h)

/-- The window's buffer with a delivered line. -/
def lineHeld (s : State) (line : Nat) (tagged : Bool) : QpSt :=
  { s.qp with
    fill := none, waiters := [], demand := false, lines := (line :: s.qp.lines.filter (· ≠ line)).take 16,
    groups := if tagged then heldGroups s.qp.groups (line / 16) else s.qp.groups,
    next := if s.bit Reg.QP_CTRL 2 && s.nextSelect.isNone then some (line + 1) else none }

/-- What a delivered line leaves, once the turn of the next transaction is settled. -/
def delivered (s : State) (line : Nat) (tagged : Bool) : QpSt := { lineHeld s line tagged with turn := s.nextSelect.isSome }

theorem State.deliver_eq {s : State} (hmiss : s.qp.misses = []) (hahead : s.bit Reg.QP_CTRL 3 = false) (line : Nat) (tagged : Bool) :
    s.deliver line tagged = ((s.incSat Reg.QP_FILLCNT 0 16 1).setQp (delivered s line tagged)).showBus := by
  have hqp : (s.incSat Reg.QP_FILLCNT 0 16 1).qp = s.qp := State.incSat_qp ..
  have hselect : (s.incSat Reg.QP_FILLCNT 0 16 1).nextSelect = s.nextSelect := rfl
  have hctrl : (s.incSat Reg.QP_FILLCNT 0 16 1).bit Reg.QP_CTRL 2 = s.bit Reg.QP_CTRL 2 := State.bit_incSat_ne _ _ _ _ _ (by decide)
  have hahead' : ((s.incSat Reg.QP_FILLCNT 0 16 1).setQp (delivered s line tagged)).showBus.bit Reg.QP_CTRL 3 = false := by
    rw [State.bit_of_rd ((State.showBus_only _).1 _ (by decide))]
    exact (State.bit_incSat_ne s _ _ _ _ (by decide)).trans hahead
  have hend : ((s.incSat Reg.QP_FILLCNT 0 16 1).setQp (lineHeld s line tagged)).fillEnd = ((s.incSat Reg.QP_FILLCNT 0 16 1).setQp (delivered s line tagged)).showBus :=
    State.fillEnd_nil hmiss
  rw [State.deliver]
  dsimp only
  rw [hqp, hselect, hctrl, ← lineHeld, hend, hahead', Bool.and_false, Bool.false_and, Bool.false_and, Bool.false_and, if_neg Bool.false_ne_true]

theorem State.deliver_shows {s : State} (hmiss : s.qp.misses = []) (hahead : s.bit Reg.QP_CTRL 3 = false) (line : Nat) (tagged : Bool) : let t := s.deliver line tagged
    t.qp = delivered s line tagged ∧ t.fld Reg.QP_FILLCNT 0 16 = min (s.fld Reg.QP_FILLCNT 0 16 + 1) 0xFFFF ∧ OnlyRegs s { t with qp := s.qp } [Reg.QP_FILLCNT, Reg.QP_STAT] := by
  dsimp only
  rw [State.deliver_eq hmiss hahead]
  have hcnt : (s.incSat Reg.QP_FILLCNT 0 16 1).fld Reg.QP_FILLCNT 0 16 = min (s.fld Reg.QP_FILLCNT 0 16 + 1) 0xFFFF := State.fld_incSat_self _ _ (by decide)
  have honly : OnlyRegs s (s.incSat Reg.QP_FILLCNT 0 16 1) [Reg.QP_FILLCNT, Reg.QP_STAT] := ⟨RegsBut.incSat _ _ _ (RegsBut.refl s _) (by simp), SameMem.of_mem rfl, rfl⟩
  generalize s.incSat Reg.QP_FILLCNT 0 16 1 = u at hcnt honly
  obtain ⟨hregs, hmem, hframe⟩ := (u.setQp (delivered s line tagged)).showBus_only
  refine ⟨State.showBus_qp _, (State.fld_of_rd (hregs _ (by decide)) _ _).trans hcnt, ?_, ?_, ?_⟩
  · exact honly.1.trans (RegsBut.mono hregs (by simp))
  · exact fun a => (hmem a).trans (honly.2.1 a)
  · rw [hframe, honly.2.2]
    rfl


theorem xipLineDone_idle {s : State} (h : s.qp.fill = none ∨ s.qp.chain ≠ none) (d g d2 g2 : List Byte) : doXipLineDone s d g d2 g2 = s := by
  unfold doXipLineDone
  split
  · rfl
  · rename_i line hfill
    have hchain : s.qp.chain ≠ none := h.resolve_left (by simp [hfill])
    exact if_pos (Option.isSome_iff_ne_none.mpr hchain)

theorem doXipLineDone_plain {s : State} {line : Nat} (hfill : s.qp.fill = some line) (hchain : s.qp.chain = none) (hwin : s.windowOf line = none) (d g d2 g2 : List Byte) :
    doXipLineDone s d g d2 g2 = s.deliver line false := by
  unfold doXipLineDone
  rw [hfill]
  dsimp only
  rw [hchain, hwin]
  rfl

theorem State.tagOk_incSat (s : State) (k line : Nat) (d g : List Byte) : (s.incSat Reg.QP_TAGFAIL 0 16 1).tagOk k line d g = s.tagOk k line d g := by
  have hne : Reg.QP_TAGFAIL ≠ Reg.QP_WIN_VER (k - 1) := by
    unfold Reg.QP_TAGFAIL Reg.QP_WIN_VER
    omega
  rw [State.tagOk, State.tagOk, State.rdN_incSat_ne _ _ _ _ hne]
  rfl

/-- A line fails its tag twice: it is counted and its address is shown. -/
def State.tagFailed (s : State) (line : Nat) : State :=
  (((s.incSat Reg.QP_TAGFAIL 0 16 1).incSat Reg.QP_TAGFAIL 16 16 1).wrN Reg.QP_TAGADDR (line * 256)).setBit Reg.QP_IRQ 0 true

/-- The Sculls that waited for the line meet a bus error. -/
def State.waitersFault (s : State) (line : Nat) : State :=
  s.qp.waiters.foldl (fun s sc => s.busRecord (scullRq sc) false (0x30000000 + line * 256)) s

/-- The fill ends without its line. -/
def State.fillDropped (s : State) : State := (s.setQp { s.qp with fill := none, waiters := [], demand := false, next := none }).fillEnd

theorem doXipLineDone_sealed {s : State} {line i : Nat} (hfill : s.qp.fill = some line) (hchain : s.qp.chain = none) (hwin : s.windowOf line = some i) (d g d2 g2 : List Byte) :
    doXipLineDone s d g d2 g2 =
      if s.tagOk (i + 1) line d g then s.deliver line true
      else if s.tagOk (i + 1) line d2 g2 then (s.incSat Reg.QP_TAGFAIL 0 16 1).deliver line true
      else
        if (((s.tagFailed line).waitersFault line).fillDropped.logSK (i + 1) 0x1101 (u8 (i + 1) ++ u32 (line * 256))).partState (i + 1) = pRunning
        then (((s.tagFailed line).waitersFault line).fillDropped.logSK (i + 1) 0x1101 (u8 (i + 1) ++ u32 (line * 256))).suspend (i + 1) 0x02
        else ((s.tagFailed line).waitersFault line).fillDropped.logSK (i + 1) 0x1101 (u8 (i + 1) ++ u32 (line * 256)) := by
  unfold doXipLineDone
  rw [hfill]
  dsimp only
  rw [hchain, hwin]
  dsimp only
  rw [State.tagOk_incSat]
  rfl

theorem xipLineDone_delivers {s u : State} {line : Nat} {tagged : Bool} {d g d2 g2 : List Byte} (hdo : doXipLineDone s d g d2 g2 = u.deliver line tagged)
    (hu : OnlyRegs s u [Reg.QP_TAGFAIL]) (hmiss : s.qp.misses = []) (hahead : s.bit Reg.QP_CTRL 3 = false) :
    Does (.xipLineDone d g d2 g2) s (fun t => t.qp.fill = none ∧ t.qp.waiters = [] ∧ t.qp.lines = (line :: s.qp.lines.filter (· ≠ line)).take 16
      ∧ t.qp.groups = (if tagged then heldGroups s.qp.groups (line / 16) else s.qp.groups) ∧ t.fld Reg.QP_FILLCNT 0 16 = min (s.fld Reg.QP_FILLCNT 0 16 + 1) 0xFFFF
      ∧ RegsBut u t [Reg.QP_FILLCNT, Reg.QP_STAT] ∧ SameMem s t ∧ t.nv = s.nv) := by
  obtain ⟨huregs, humem, huframe⟩ := hu
  have huqp : u.qp = s.qp := by rw [huframe]
  obtain ⟨hqp, hcnt, hregs, hmem, hframe⟩ := State.deliver_shows (s := u) (by rw [huqp]; exact hmiss) ((State.bit_of_rd (huregs _ (by decide)) _).trans hahead) line tagged
  rw [State.fld_of_rd (huregs _ (by decide))] at hcnt
  refine ⟨_, congrArg Host.Outcome.next hdo, ?_, ?_, ?_, ?_, hcnt, hregs, fun a => (hmem a).trans (humem a), ?_⟩
  · exact congrArg QpSt.fill hqp
  · exact congrArg QpSt.waiters hqp
  · rw [← huqp]
    exact congrArg QpSt.lines hqp
  · rw [← huqp]
    exact congrArg QpSt.groups hqp
  · exact ((congrArg State.nv hframe :)).trans (by rw [huframe])

/-! A suspension leaves the lines that the window holds -/

/-- The queues and receive FIFOs of the Q-port alone may have changed. -/
abbrev KeepsLines (s t : State) : Prop := t.qp = { s.qp with queues := t.qp.queues, rx := t.qp.rx }

theorem KeepsLines.of_qp {s t u : State} (h : KeepsLines s t) (hqp : u.qp = t.qp) : KeepsLines s u := by rwa [KeepsLines, hqp]

theorem State.flushQsel_qp (s : State) (n : Nat) : KeepsLines s (s.flushQsel n) := by
  unfold State.flushQsel
  dsimp only
  rw [KeepsLines, State.setQrx, State.wrN_qp, State.setFld_qp]
  rfl

theorem State.idlePart_qp (s : State) (k : Nat) : (s.idlePart k).qp = s.qp := by
  unfold State.idlePart
  refine List.foldlRecOn (motive := fun t : State => t.qp = s.qp) _ _ rfl fun t ht sc _ => ?_
  split
  · exact ht
  · exact ht

theorem State.suspend_qp (s : State) (k cause : Nat) : KeepsLines s (s.suspend k cause) := by
  have hhelm (u : State) (src c : Nat) : (u.freeHelmOf src c).qp = u.qp := by
    unfold State.freeHelmOf
    split
    · exact (congrArg State.qp (u.freeHelm_eq c) :)
    · rfl
  have hcan (u : State) (x mask : Nat) : (u.canDisable x mask).qp = u.qp := (congrArg State.qp (u.txAbort_frame x mask).1 :)
  have hgpio (u : State) (mask : Nat) : (u.gpioSafe mask).qp = u.qp := (congrArg State.qp (u.gpioSafe_frame mask).1 :)
  have hflush (u : State) (hu : KeepsLines s u) :
      KeepsLines s (([1, 2, 3] : List Nat).foldl (fun v n => if v.granted k .misc n then v.flushQsel n else v) u) := by
    refine List.foldlRecOn (motive := KeepsLines s) _ _ hu fun v hv n _ => ?_
    split
    · have hf := v.flushQsel_qp n
      rw [KeepsLines] at hv hf ⊢
      rw [hf, hv]
    · exact hv
  have hcon (c : Prop) [Decidable c] (u : State) : (if c then ({ u with con1 := { u.con1 with rx := [] } } : State).showCon 1 else u).qp = u.qp := by
    split <;> rfl
  unfold State.suspend
  dsimp only
  refine KeepsLines.of_qp ?_ (State.logSK_qp ..)
  refine KeepsLines.of_qp ?_ (hcon _ _)
  refine KeepsLines.of_qp ?_ (hgpio ..)
  refine hflush _ ?_
  rw [KeepsLines, hcan, hcan, hhelm, State.idlePart_qp]
  rfl


/-! A line that fails its tag twice (R390) -/

/-- The registers that show a failed tag. -/
def tagFailRegs : List Nat := [Reg.QP_TAGFAIL, Reg.QP_TAGADDR, Reg.QP_IRQ]

theorem tagFailRegs_notMem_logRegs {k a : Nat} (hk : k ≤ 7) (ha : a ∈ tagFailRegs) : a ∉ logRegs 0 ++ logRegs (1 + k) := by
  intro hm
  simp only [tagFailRegs, logRegs, List.mem_append, List.mem_cons, List.not_mem_nil, or_false] at ha hm
  unfold Reg.QP_TAGFAIL Reg.QP_TAGADDR Reg.QP_IRQ at ha
  unfold Reg.LOG_PEND Reg.LOG_BSUPP Reg.LOG_BOVF Reg.LOG_PENDDROP Reg.LOG_IRQ at hm
  omega

theorem tagFailRegs_notMem_stopRegs {k a : Nat} (hk : k ≤ 7) (ha : a ∈ tagFailRegs) : a ∉ stopRegs k := by
  intro hm
  simp only [tagFailRegs, stopRegs, txRegs, qselRegs, fifoRegs, logRegs, List.mem_append, List.mem_cons, List.not_mem_nil, or_false, List.mem_map, List.mem_range] at ha hm
  unfold Reg.QP_TAGFAIL Reg.QP_TAGADDR Reg.QP_IRQ at ha
  unfold Reg.PART_SCULLST Reg.GPIO_OUT Reg.GPIO_DIR Reg.CAN_IRQ Reg.CAN_TXPEND Reg.CAN_TXDONE Reg.CAN_TXST Reg.QP_Q_STAT Reg.QP_Q_RXDATA Reg.CON_STAT Reg.CON_FIFO
    Reg.LOG_PEND Reg.LOG_BSUPP Reg.LOG_BOVF Reg.LOG_PENDDROP Reg.LOG_IRQ at hm
  omega

theorem State.tagFailed_shows (s : State) {line : Nat} (hline : line < 2 ^ 24) : let t := s.tagFailed line
    t.rdN Reg.QP_TAGADDR = line * 256 ∧ t.bit Reg.QP_IRQ 0 = true ∧ t.fld Reg.QP_TAGFAIL 16 16 = min (s.fld Reg.QP_TAGFAIL 16 16 + 1) 0xFFFF ∧ OnlyRegs s t tagFailRegs := by
  refine ⟨?_, State.bit_setBit_self _ _ (by decide), ?_, ?_, SameMem.of_mem rfl, rfl⟩
  · rw [State.tagFailed, State.rdN_setBit_ne _ _ _ (by decide), State.rdN_wrN_self]
    omega
  · rw [State.tagFailed, State.fld_setBit_ne _ _ _ _ _ (by decide), State.fld_wrN_ne _ _ _ _ (by decide), State.fld_incSat_self _ _ (by decide), State.incSat,
      State.fld_setFld_other _ _ (by decide) (by decide)]
    rfl
  · exact RegsBut.setBit _ _ (RegsBut.wrN _ (RegsBut.incSat _ _ _ (RegsBut.incSat _ _ _ (RegsBut.refl s _) (by decide)) (by decide)) (by decide)) (by decide)

theorem State.waitersFault_only (s : State) (line : Nat) : OnlyRegs s (s.waitersFault line) [Reg.SYS_BEADDR, Reg.SYS_BESTAT] :=
  List.foldlRecOn (motive := fun t : State => OnlyRegs s t [Reg.SYS_BEADDR, Reg.SYS_BESTAT]) _ _ (.refl s _) fun t ht sc _ => ht.trans (t.busRecord_onlyRegs (scullRq sc) false _)

/-- What a dropped fill leaves. -/
def fillLeft (s : State) : QpSt := { s.qp with fill := none, waiters := [], demand := false, next := none, turn := s.nextSelect.isSome }

theorem State.fillDropped_shows {s : State} (hmiss : s.qp.misses = []) :
    s.fillDropped.qp = fillLeft s ∧ RegsBut s s.fillDropped [Reg.QP_STAT] ∧ s.fillDropped = { s with regs := s.fillDropped.regs, qp := s.fillDropped.qp } := by
  have heq : s.fillDropped = (s.setQp (fillLeft s)).showBus := State.fillEnd_nil hmiss
  rw [heq]
  obtain ⟨hregs, -, hframe⟩ := (s.setQp (fillLeft s)).showBus_only
  refine ⟨State.showBus_qp _, hregs, ?_⟩
  rw [hframe]
  rfl

/-- The state in which a line has failed its tag twice, before its partition is suspended. -/
def State.lineFailed (s : State) (line k : Nat) : State := ((s.tagFailed line).waitersFault line).fillDropped.logSK k 0x1101 (u8 k ++ u32 (line * 256))

theorem State.lineFailed_shows {s : State} {line k : Nat} (hline : line < 2 ^ 24) (hlo : 1 ≤ k) (hk : k ≤ 7) (hmiss : s.qp.misses = []) : let t := s.lineFailed line k
    t.qp.fill = none ∧ t.qp.lines = s.qp.lines ∧ t.rdN Reg.QP_TAGADDR = line * 256 ∧ t.bit Reg.QP_IRQ 0 = true
      ∧ t.fld Reg.QP_TAGFAIL 16 16 = min (s.fld Reg.QP_TAGFAIL 16 16 + 1) 0xFFFF ∧ t.partState k = s.partState k ∧ t.mem = s.mem
      ∧ (s.qp.waiters = [] → RegsBut s t ([Reg.QP_TAGFAIL, Reg.QP_TAGADDR, Reg.QP_IRQ, Reg.QP_STAT] ++ logRegs 0 ++ logRegs (1 + k))) := by
  obtain ⟨haddr, hirq, hcnt, hregs1, -, hframe1⟩ := s.tagFailed_shows hline
  obtain ⟨hregs2, -, hframe2⟩ := (s.tagFailed line).waitersFault_only line
  have hnone (h : s.qp.waiters = []) : (s.tagFailed line).waitersFault line = s.tagFailed line := by
    rw [State.waitersFault, hframe1]
    show List.foldl _ _ s.qp.waiters = _
    rw [h]
    rfl
  have hqp2 : ((s.tagFailed line).waitersFault line).qp = s.qp := by rw [hframe2, hframe1]
  have hmem2 : ((s.tagFailed line).waitersFault line).mem = s.mem := by rw [hframe2, hframe1]
  obtain ⟨hqp3, hregs3, hframe3⟩ := State.fillDropped_shows (s := (s.tagFailed line).waitersFault line) (by rw [hqp2, hmiss])
  have hrd (a : Nat) (ha : a ∈ tagFailRegs) : (s.lineFailed line k).rd a = (s.tagFailed line).rd a := by
    rw [State.lineFailed, State.rd_logSK _ _ _ (tagFailRegs_notMem_logRegs hk ha)]
    have hne : a ∉ [Reg.QP_STAT] ∧ a ∉ [Reg.SYS_BEADDR, Reg.SYS_BESTAT] := by
      simp only [tagFailRegs, List.mem_cons, List.not_mem_nil, or_false] at ha ⊢
      obtain rfl | rfl | rfl := ha <;> decide
    exact (hregs3 a hne.1).trans (hregs2 a hne.2)
  have hpage : Reg.PART_STATE (k - 1) ∉ [Reg.QP_STAT] ∧ Reg.PART_STATE (k - 1) ∉ [Reg.SYS_BEADDR, Reg.SYS_BESTAT] ∧ Reg.PART_STATE (k - 1) ∉ tagFailRegs := by
    interval_cases k <;> decide
  refine ⟨?_, ?_, ?_, ?_, ?_, ?_, ?_, ?_⟩
  · rw [State.lineFailed, State.logSK_qp, hqp3]
    rfl
  · rw [State.lineFailed, State.logSK_qp, hqp3, fillLeft, hqp2]
  · rw [State.rdN_of_rd (hrd _ (by decide)), haddr]
  · rw [State.bit_of_rd (hrd _ (by decide)), hirq]
  · rw [State.fld_of_rd (hrd _ (by decide)), hcnt]
  · refine State.fld_of_rd ?_ 0 2
    rw [State.lineFailed, State.rd_logSK _ _ _ (partState_notMem_logRegs k (by omega))]
    exact ((hregs3 _ hpage.1).trans (hregs2 _ hpage.2.1)).trans (hregs1 _ hpage.2.2)
  · rw [State.lineFailed, State.logSK_mem, hframe3]
    exact hmem2
  · intro hw
    refine (RegsBut.logSK_iff _ _ (fun a ha => List.mem_append_left _ (List.mem_append_right _ ha)) fun a ha => List.mem_append_right _ ha).mpr ?_
    rw [hnone hw] at hregs3 ⊢
    exact RegsBut.trans (hregs1.mono (by simp +contextual [tagFailRegs])) (hregs3.mono (by simp))

theorem xipLineDone_fails {s : State} {line i : Nat} {d g d2 g2 : List Byte} (hfill : s.qp.fill = some line) (hline : line < 2 ^ 24) (hwin : s.windowOf line = some i)
    (hbad : s.tagOk (i + 1) line d g = false) (hbad2 : s.tagOk (i + 1) line d2 g2 = false) (hchain : s.qp.chain = none) (hmiss : s.qp.misses = []) :
    Does (.xipLineDone d g d2 g2) s (fun t => t.qp.fill = none ∧ t.qp.lines = s.qp.lines ∧ t.rdN Reg.QP_TAGADDR = line * 256 ∧ t.bit Reg.QP_IRQ 0 = true
      ∧ t.fld Reg.QP_TAGFAIL 16 16 = min (s.fld Reg.QP_TAGFAIL 16 16 + 1) 0xFFFF
      ∧ (s.partState (i + 1) = pRunning → t.partState (i + 1) = pSuspended ∧ t.fld (Reg.PART_STATE i) 8 8 = 2)
      ∧ (s.partState (i + 1) ≠ pRunning → s.qp.waiters = [] → RegsBut s t ([Reg.QP_TAGFAIL, Reg.QP_TAGADDR, Reg.QP_IRQ, Reg.QP_STAT] ++ logRegs 0 ++ logRegs (2 + i)) ∧ SameMem s t)) := by
  have hi : i < 7 := List.mem_range.mp (List.mem_of_find?_eq_some hwin)
  obtain ⟨hnone, hlines, haddr, hirq, hcnt, hpage, hmem, hregs⟩ := State.lineFailed_shows (k := i + 1) hline (by omega) (by omega) hmiss
  refine ⟨_, congrArg Host.Outcome.next (doXipLineDone_sealed hfill hchain hwin d g d2 g2), ?_⟩
  rw [hbad, hbad2, if_neg Bool.false_ne_true, if_neg Bool.false_ne_true, ← State.lineFailed, hpage]
  generalize s.lineFailed line (i + 1) = u at hnone hlines haddr hirq hcnt hpage hmem hregs
  split
  · rename_i hrun
    have hqp := u.suspend_qp (i + 1) 2
    obtain ⟨-, hstops⟩ := u.suspend_stops (i + 1) 2
    obtain ⟨hstate, hcause, -, -⟩ := u.suspend_shows (k := i + 1) (cause := 2) (by omega) (by decide)
    have hrd (a : Nat) (ha : a ∈ tagFailRegs) : (u.suspend (i + 1) 2).rd a = u.rd a := by
      have hne : Reg.PART_STATE (i + 1 - 1) ≠ a := by
        simp only [tagFailRegs, List.mem_cons, List.not_mem_nil, or_false] at ha
        unfold Reg.QP_TAGFAIL Reg.QP_TAGADDR Reg.QP_IRQ at ha
        unfold Reg.PART_STATE
        omega
      rw [hstops a (tagFailRegs_notMem_stopRegs (by omega) ha), State.pageSuspended, State.rd_setFld_ne _ _ _ _ hne, State.rd_setFld_ne _ _ _ _ hne]
    exact ⟨(congrArg QpSt.fill hqp).trans hnone, (congrArg QpSt.lines hqp).trans hlines, (State.rdN_of_rd (hrd _ (by decide))).trans haddr, (State.bit_of_rd (hrd _ (by decide)) _).trans hirq,
      (State.fld_of_rd (hrd _ (by decide)) _ _).trans hcnt, fun _ => ⟨hstate, hcause⟩, fun hno => absurd hrun hno⟩
  · rename_i hstop
    exact ⟨hnone, hlines, haddr, hirq, hcnt, fun hrun => absurd hrun hstop, fun _ hw => ⟨by rw [show 2 + i = 1 + (i + 1) by omega]; exact hregs hw, SameMem.of_mem hmem⟩⟩

theorem sealedWindow_holds : sealedWindow := by
  refine ⟨?_, ?_, ?_, ?_, ?_, ?_, ?_⟩
  · intro s sc addr hon line
    refine ⟨?_, ?_, ?_, ?_⟩
    · intro hline
      exact ⟨_, congrArg Host.Outcome.next ((doXipMiss_on hon sc addr).trans (if_pos hline)), rfl⟩
    · intro hline hfill
      refine ⟨_, congrArg Host.Outcome.next ((doXipMiss_on hon sc addr).trans ?_), rfl⟩
      exact (if_neg (by rw [hline]; exact Bool.false_ne_true)).trans (if_pos hfill)
    · intro hline hfill hchain hmiss hfirst
      exact xipMiss_fills hon hline hfill hchain hmiss hfirst
    · intro hline hfill hchain
      exact ⟨_, congrArg Host.Outcome.next (xipMiss_waits hon hline hfill hchain), rfl⟩
  · intro s sc addr hoff
    exact congrArg Host.Outcome.next (xipMiss_off hoff sc addr)
  · intro s hawake
    exact Does.byRequester hawake rfl rfl
  · intro s line i d g d2 g2 hfill hwin hok hchain hmiss hahead
    cases hfirst : s.tagOk (i + 1) line d g with
    | true =>
      obtain ⟨t, hnext, h1, h2, h3, h4, h5, h6, h7, h8⟩ :=
        xipLineDone_delivers ((doXipLineDone_sealed hfill hchain hwin d g d2 g2).trans (if_pos hfirst)) (.refl s _) hmiss hahead
      exact ⟨t, hnext, h1, h2, h3, h4, h5, h6.mono (by simp), h7, h8⟩
    | false =>
      have hsecond : s.tagOk (i + 1) line d2 g2 = true := hok.resolve_left (by simp [hfirst])
      have hdo := (doXipLineDone_sealed hfill hchain hwin d g d2 g2).trans ((if_neg (by simp [hfirst])).trans (if_pos hsecond))
      have hu : OnlyRegs s (s.incSat Reg.QP_TAGFAIL 0 16 1) [Reg.QP_TAGFAIL] := ⟨RegsBut.incSat _ _ _ (RegsBut.refl s _) (by simp), SameMem.of_mem rfl, rfl⟩
      obtain ⟨t, hnext, h1, h2, h3, h4, h5, h6, h7, h8⟩ := xipLineDone_delivers hdo hu hmiss hahead
      exact ⟨t, hnext, h1, h2, h3, h4, h5, RegsBut.trans (hu.1.mono (by simp)) (h6.mono (by simp)), h7, h8⟩
  · intro s line i d g d2 g2 hfill hline hwin hbad hbad2 hchain hmiss
    exact xipLineDone_fails hfill hline hwin hbad hbad2 hchain hmiss
  · intro s line d g d2 g2 hfill hwin hchain hmiss hahead
    obtain ⟨t, hnext, h1, -, h3, h4, -, h6, h7, -⟩ := xipLineDone_delivers (doXipLineDone_plain hfill hchain hwin d g d2 g2) (.refl s _) hmiss hahead
    exact ⟨t, hnext, h1, h3, h4, h6, h7⟩
  · intro s d g d2 g2 h
    exact congrArg Host.Outcome.next (xipLineDone_idle h d g d2 g2)

/-- Settles O57: the queues, slave mode and pins, and the sealed window, clause by clause. -/
theorem queuedPortAndSealedWindow : Obligations.QueuedPortAndSealedWindow := ⟨queuesSlaveAndPins_holds, sealedWindow_holds⟩


end Sys2Proof.Machine
end

section
/-!
PROOFS. Shore records, hibernation, tickets and surge requests (R120, R284 to R289). They settle O38.
-/

namespace Sys2Proof.Machine

/-! Shore records (Table 16-7, R376) -/

theorem State.shoreBytes_length (s : State) (seq reason : Nat) : (s.shoreBytes seq reason).length = 64 := by
  unfold State.shoreBytes
  simp only [List.length_append, leBytes_length, leInt, List.length_replicate]

/-- The number of the next shore record. -/
def State.nextShore (s : State) : Nat := (s.nv.shoreSeq + 1) % 2 ^ 32

/-- A shore record of these bytes is stored. -/
def State.shoreStored (s : State) (seq : Nat) (l : List Byte) : State :=
  { s with
    mem := (s.wrBytes (shoreSlot seq) l).mem, nv := { s.nv with shoreSeq := seq },
    power := { s.power with shoreAt := some s.clock, shoreHeld := false, shoreFb := s.fld Reg.AGR_C_FB 0 12, shoreMdi := s.mdiPos } }

theorem State.shoreWrite_eq (s : State) (reason : Nat) : s.shoreWrite reason = s.shoreStored s.nextShore (s.shoreBytes s.nextShore reason) := by
  rw [State.shoreWrite, ← State.nextShore]
  generalize s.shoreBytes s.nextShore reason = l
  generalize s.nextShore = seq
  rw [State.wrBytes_eq]
  rfl

theorem State.shoreWrite_regs (s : State) (reason : Nat) : (s.shoreWrite reason).regs = s.regs := by
  rw [State.shoreWrite_eq]
  generalize s.shoreBytes s.nextShore reason = l
  rfl

theorem State.shoreWrite_clock (s : State) (reason : Nat) : (s.shoreWrite reason).clock = s.clock := by
  rw [State.shoreWrite_eq]
  generalize s.shoreBytes s.nextShore reason = l
  rfl

theorem State.shoreStored_shows (s : State) (seq : Nat) {l : List Byte} (hl : l.length = 64) (p : PowerSt) : let t : State := { s.shoreStored seq l with power := p }
    t.nv.shoreSeq = seq ∧ t.rdBytes (shoreSlot seq) 64 = l ∧ (∀ b, b < shoreSlot seq ∨ shoreSlot seq + 64 ≤ b → t.rdB b = s.rdB b) ∧ RegsBut s t [] ∧ t.cam = s.cam
      ∧ t = { s with mem := t.mem, power := t.power, nv := t.nv } ∧ t.nv = { s.nv with shoreSeq := t.nv.shoreSeq } := by
  have hmem : ({ s.shoreStored seq l with power := p } : State).mem = (s.wrBytes (shoreSlot seq) l).mem := rfl
  refine ⟨rfl, ?_, fun b hb => (SameMem.of_mem hmem b).trans (State.rdB_wrBytes_out _ _ _ _ (by rwa [hl])), fun _ _ => rfl, rfl, rfl, rfl⟩
  rw [State.rdBytes_of_mem hmem, ← hl, State.rdBytes_wrBytes]

theorem shorePeriodic_writes {s : State} {a : Nat} (hrow : s.rowing = true) (hat : s.power.shoreAt = some a) (hdue : a + minutes10 ≤ s.clock) :
    Does .shorePeriodic s (fun t =>
      t.nv.shoreSeq = (s.nv.shoreSeq + 1) % 2 ^ 32 ∧ t.power.shoreAt = some s.clock ∧ t.power.shoreFold = 0 ∧ t.power.shoreHeld = false
        ∧ t.rdBytes (shoreSlot t.nv.shoreSeq) 64 = s.shoreBytes t.nv.shoreSeq (2 + (if s.power.shoreFold = 0 then 0 else 0x80))
        ∧ (∀ b, b < shoreSlot t.nv.shoreSeq ∨ shoreSlot t.nv.shoreSeq + 64 ≤ b → t.rdB b = s.rdB b) ∧ RegsBut s t []
        ∧ t = { s with mem := t.mem, power := t.power, nv := t.nv } ∧ t.nv = { s.nv with shoreSeq := t.nv.shoreSeq }) := by
  have hdo : doShorePeriodic s = { s.shoreWrite (2 + (if s.power.shoreFold = 0 then 0 else 0x80)) with
      power := { (s.shoreWrite (2 + (if s.power.shoreFold = 0 then 0 else 0x80))).power with shoreFold := 0 } } := by
    unfold doShorePeriodic
    rw [hrow, hat]
    exact if_pos (by simpa using hdue)
  rw [State.shoreWrite_eq] at hdo
  refine ⟨_, congrArg Host.Outcome.next hdo, ?_⟩
  obtain ⟨hseq, hbytes, hother, hregs, -, hframe, hnv⟩ := s.shoreStored_shows s.nextShore (s.shoreBytes_length s.nextShore (2 + (if s.power.shoreFold = 0 then 0 else 0x80)))
    { (s.shoreStored s.nextShore (s.shoreBytes s.nextShore (2 + (if s.power.shoreFold = 0 then 0 else 0x80)))).power with shoreFold := 0 }
  exact ⟨hseq, rfl, rfl, rfl, hbytes, hother, hregs, hframe, hnv⟩

theorem shoreGapEnd_writes {s : State} (hrow : s.rowing = true) (hheld : s.power.shoreHeld = true) (hgap : s.shoreGapOver = true)
    (hroom : (within s.clock hours24 s.power.shoreTimes).length < 1056) :
    Does .shoreGapEnd s (fun t =>
      t.nv.shoreSeq = (s.nv.shoreSeq + 1) % 2 ^ 32 ∧ t.power.shoreAt = some s.clock ∧ t.power.shoreHeld = false
        ∧ t.power.shoreTimes = within s.clock hours24 s.power.shoreTimes ++ [s.clock]
        ∧ t.rdBytes (shoreSlot t.nv.shoreSeq) 64 = s.shoreBytes t.nv.shoreSeq 1
        ∧ (∀ b, b < shoreSlot t.nv.shoreSeq ∨ shoreSlot t.nv.shoreSeq + 64 ≤ b → t.rdB b = s.rdB b) ∧ RegsBut s t [] ∧ t.cam = s.cam ∧ t.nv.confirmed = s.nv.confirmed) := by
  have hlength := s.shoreBytes_length s.nextShore 1
  have hdo : doShoreGapEnd s = { s.shoreWrite 1 with power := { (s.shoreWrite 1).power with shoreTimes := within s.clock hours24 s.power.shoreTimes ++ [s.clock] } } := by
    have hclock := s.shoreWrite_clock 1
    rw [doShoreGapEnd, hrow, hheld, hgap]
    show s.shore 1 = _
    rw [State.shore]
    generalize s.shoreWrite 1 = u at hclock
    dsimp only
    rw [if_pos hroom, hclock]
  obtain ⟨l, hl⟩ : ∃ l, s.shoreBytes s.nextShore 1 = l := ⟨_, rfl⟩
  rw [State.shoreWrite_eq, hl] at hdo
  rw [hl] at hlength
  refine ⟨_, congrArg Host.Outcome.next hdo, ?_⟩
  obtain ⟨hseq, hbytes, hother, hregs, hcam, -, hnv⟩ := s.shoreStored_shows s.nextShore hlength
    { (s.shoreStored s.nextShore l).power with shoreTimes := within s.clock hours24 s.power.shoreTimes ++ [s.clock] }
  exact ⟨hseq, rfl, rfl, rfl, hbytes.trans hl.symm, hother, hregs, hcam, rfl⟩

/-! The entry to hibernation (R284) -/

theorem State.shore_regs (s : State) (reason : Nat) : RegsBut s (s.shore reason) (logRegs 0) := by
  unfold State.shore
  dsimp only
  split
  · exact RegsBut.mk_iff.mpr (RegsBut.of_regs (State.shoreWrite_regs ..))
  · exact RegsBut.mk_iff.mpr (RegsBut.ite (fun _ => RegsBut.logS _ _ (RegsBut.refl s _) (fun _ h => h)) fun _ => RegsBut.refl s _)

theorem RegsBut.tallyCommit {s t : State} {l : List Nat} (h : RegsBut s t l) (ha : ∀ a, a ∈ logRegs 0 → a ∈ l) : RegsBut s t.tallyCommit l :=
  RegsBut.foldl _ _ (fun _ _ _ hu => RegsBut.ite (fun _ => hu) fun _ => hu.tallyWrite _ _ ha) (RegsBut.mk_iff.mpr h)

/-- The registers of the coil drivers. -/
def coilRegs : List Nat := (List.range 12).map Reg.CTR_IMEAS ++ [Reg.CTR_OUT, Reg.CTR_STAT, Reg.CTR_PHASE, Reg.CTR_BKI]

theorem RegsBut.fallCoil {s t : State} {l : List Nat} {c : Nat} (drop : Bool) (h : RegsBut s t l) (hc : Reg.CTR_IMEAS c ∈ l) : RegsBut s (t.fallCoil c drop) l := by
  unfold State.fallCoil State.coilSense
  dsimp only
  rw [if_pos rfl]
  exact RegsBut.wrN _ (RegsBut.ite (fun _ => RegsBut.mk_iff.mpr h) fun _ => h) hc

theorem State.dropCoils_regs (s : State) : RegsBut s s.dropCoils coilRegs := by
  have hcoil (c : Nat) (hc : c ∈ List.range 12) : Reg.CTR_IMEAS c ∈ coilRegs := List.mem_append_left _ (List.mem_map_of_mem hc)
  unfold State.dropCoils
  refine RegsBut.mk_iff.mpr (RegsBut.setBit _ _ (RegsBut.wrN _ (RegsBut.wrN _ (RegsBut.wrN _ ?_ (by decide)) (by decide)) (by decide)) (by decide))
  refine RegsBut.foldl _ _ (fun u c hc hu => RegsBut.ite (fun _ => hu.fallCoil _ (hcoil c hc)) fun _ => RegsBut.ite (fun _ => hu) fun _ => hu) (RegsBut.refl s _)

theorem State.dropCoils_out (s : State) : s.dropCoils.rdN Reg.CTR_OUT = 0 := by
  rw [State.dropCoils, State.rdN_mk, State.rdN_setBit_ne _ _ _ (by decide), State.rdN_wrN_ne _ _ (by decide), State.rdN_wrN_ne _ _ (by decide), State.rdN_wrN_self,
    Nat.zero_mod]

/-- The registers of the core's outputs. -/
def coreRegs : List Nat := coilRegs ++ [Reg.IMD_CTRL, Reg.IMD_STAT, Reg.MDI_STAT]

theorem State.coreOff_regs (s : State) : RegsBut s s.coreOff coreRegs :=
  RegsBut.setBit _ _ (RegsBut.mk_iff.mpr (RegsBut.clrReg _ (RegsBut.clrReg _ (s.dropCoils_regs.mono fun _ h => List.mem_append_left _ h) (by decide)) (by decide))) (by decide)

theorem State.coreOff_out (s : State) : s.coreOff.rdN Reg.CTR_OUT = 0 := by
  rw [State.coreOff, State.rdN_setBit_ne _ _ _ (by decide), State.rdN_mk, State.rdN_clrReg_ne _ _ (by decide), State.rdN_clrReg_ne _ _ (by decide), State.dropCoils_out]

/-- A CAN port with its wake enabled goes to sleep. -/
def State.canSleep (s : State) (x : Nat) : State := if s.bit (Reg.CAN_CTRL x) 8 then s.setBit (Reg.CAN_CTRL x) 7 false else s

theorem State.canSleep_regs (s : State) (x : Nat) : RegsBut s (s.canSleep x) [Reg.CAN_CTRL x] :=
  RegsBut.ite (fun _ => RegsBut.setBit _ _ (RegsBut.refl s _) (by simp)) fun _ => RegsBut.refl s _

theorem State.canSleep_asleep {s : State} {x : Nat} (h : s.bit (Reg.CAN_CTRL x) 8 = true) : (s.canSleep x).bit (Reg.CAN_CTRL x) 7 = false := by
  rw [State.canSleep, if_pos h, State.bit_setBit_self _ _ (by decide)]

/-- The three CAN ports go to sleep. -/
def State.cansSleep (s : State) : State := ((s.canSleep 0).canSleep 1).canSleep 2

theorem State.cansSleep_regs (s : State) : RegsBut s s.cansSleep [Reg.CAN_CTRL 0, Reg.CAN_CTRL 1, Reg.CAN_CTRL 2] :=
  RegsBut.trans (RegsBut.mono (s.canSleep_regs 0) (by simp))
    (RegsBut.trans (RegsBut.mono ((s.canSleep 0).canSleep_regs 1) (by simp)) (RegsBut.mono (((s.canSleep 0).canSleep 1).canSleep_regs 2) (by simp)))

theorem State.cansSleep_asleep {s : State} {x : Nat} (hx : x < 3) (h : s.bit (Reg.CAN_CTRL x) 8 = true) : s.cansSleep.bit (Reg.CAN_CTRL x) 7 = false := by
  have hrd0 := s.canSleep_regs 0
  have hrd1 := (s.canSleep 0).canSleep_regs 1
  have hrd2 := ((s.canSleep 0).canSleep 1).canSleep_regs 2
  interval_cases x
  · rw [State.cansSleep, State.bit_of_rd (hrd2 _ (by decide)), State.bit_of_rd (hrd1 _ (by decide)), State.canSleep_asleep h]
  · rw [State.cansSleep, State.bit_of_rd (hrd2 _ (by decide))]
    exact State.canSleep_asleep ((State.bit_of_rd (hrd0 _ (by decide)) _).trans h)
  · refine State.canSleep_asleep ?_
    rw [State.bit_of_rd (hrd1 _ (by decide)), State.bit_of_rd (hrd0 _ (by decide)), h]

/-- The threshold of the current wake with its four samples, as CCA.WAKE holds it (R160, R284). -/
def State.wakeWord (s : State) : Nat := min 16777215 (roundRat (s.wakeI * s.rshunt / 1000 * 8388608 / 100000000)).toNat + 4 * 2 ^ 24

/-- The outputs are off and the CCA is in its hibernation mode. -/
def State.outputsOff (s : State) (w : Nat) : State := ((s.wrN Reg.CCA_WAKE w).stopFeed.coreOff).setBit Reg.CCA_STAT 2 true

theorem State.outputsOff_shows (s : State) {w : Nat} (hw : w < 2 ^ 32) : let t := s.outputsOff w
    t.rdN Reg.CTR_OUT = 0 ∧ t.bit Reg.CCA_STAT 2 = true ∧ t.fld Reg.CCA_WAKE 24 8 = w / 2 ^ 24 ∧ t.bit Reg.COX_STATUS 0 = false
      ∧ ∀ x, x < 3 → t.bit (Reg.CAN_CTRL x) 8 = s.bit (Reg.CAN_CTRL x) 8 := by
  have hcore := ((s.wrN Reg.CCA_WAKE w).stopFeed).coreOff_regs
  have hwake : (s.wrN Reg.CCA_WAKE w).stopFeed.rd Reg.CCA_WAKE = (s.wrN Reg.CCA_WAKE w).rd Reg.CCA_WAKE := State.rd_stopFeed _ (by decide) (by decide)
  refine ⟨?_, State.bit_setBit_self _ _ (by decide), ?_, ?_, ?_⟩
  · rw [State.outputsOff, State.rdN_setBit_ne _ _ _ (by decide), State.coreOff_out]
  · rw [State.outputsOff, State.fld_setBit_ne _ _ _ _ _ (by decide), State.fld_of_rd (hcore _ (by decide)), State.fld_of_rd hwake, State.fld, State.rdN_wrN_self, getField]
    omega
  · rw [State.outputsOff, State.bit_setBit_ne _ _ _ _ (by decide), State.bit_of_rd (hcore _ (by decide))]
    show ((s.wrN Reg.CCA_WAKE w).setBit Reg.COX_STATUS 0 false |>.setBit Reg.PUMP_STAT 0 false).bit Reg.COX_STATUS 0 = false
    rw [State.bit_setBit_ne _ _ _ _ (by decide), State.bit_setBit_self _ _ (by decide)]
  · intro x hx
    have hport : Reg.CCA_STAT ≠ Reg.CAN_CTRL x ∧ Reg.CAN_CTRL x ∉ coreRegs ∧ Reg.COX_STATUS ≠ Reg.CAN_CTRL x ∧ Reg.PUMP_STAT ≠ Reg.CAN_CTRL x ∧ Reg.CCA_WAKE ≠ Reg.CAN_CTRL x := by
      interval_cases x <;> decide
    obtain ⟨h1, h2, h3, h4, h5⟩ := hport
    rw [State.outputsOff, State.bit_setBit_ne _ _ _ _ h1, State.bit_of_rd (hcore _ h2), State.bit_of_rd (State.rd_stopFeed _ h3 h4), State.bit_wrN_ne _ _ _ h5]

theorem doHibernateGraceEnd_enters {s : State} (hrow : s.rowing = true) (hpending : s.est.pending = true) :
    doHibernateGraceEnd s =
      let u := (s.shore 4).tallyCommit
      let v := u.outputsOff u.wakeWord
      let w := ({ v with cca := { v.cca with wakeRun := 0 } } : State).cansSleep
      { w with power := { w.power with phase := .hibernating } } := by
  unfold doHibernateGraceEnd
  rw [hrow, hpending]
  rfl

theorem hibernateGraceEnd_enters {s : State} (hrow : s.rowing = true) (hpending : s.est.pending = true) :
    Does .hibernateGraceEnd s (fun t =>
      t.power.phase = .hibernating ∧ t.rdN Reg.CTR_OUT = 0 ∧ t.bit Reg.CCA_STAT 2 = true ∧ t.fld Reg.CCA_WAKE 24 8 = 4 ∧ t.bit Reg.COX_STATUS 0 = false
        ∧ ∀ x, x < 3 → s.bit (Reg.CAN_CTRL x) 8 = true → t.bit (Reg.CAN_CTRL x) 7 = false) := by
  refine ⟨_, congrArg Host.Outcome.next (doHibernateGraceEnd_enters hrow hpending), ?_⟩
  dsimp only
  have hregs : RegsBut s (s.shore 4).tallyCommit (logRegs 0) := RegsBut.tallyCommit (s.shore_regs 4) fun _ h => h
  generalize (s.shore 4).tallyCommit = u at hregs
  have hword : u.wakeWord < 2 ^ 32 ∧ u.wakeWord / 2 ^ 24 = 4 := by
    rw [State.wakeWord]
    omega
  obtain ⟨hout, hstat, hwake, hpermit, hports⟩ := u.outputsOff_shows hword.1
  generalize u.outputsOff u.wakeWord = v at hout hstat hwake hpermit hports
  have hsleep := ({ v with cca := { v.cca with wakeRun := 0 } } : State).cansSleep_regs
  refine ⟨rfl, (State.rdN_of_rd (hsleep _ (by decide))).trans hout, (State.bit_of_rd (hsleep _ (by decide)) _).trans hstat,
    ((State.fld_of_rd (hsleep _ (by decide)) _ _).trans hwake).trans hword.2, (State.bit_of_rd (hsleep _ (by decide)) _).trans hpermit, ?_⟩
  intro x hx hen
  have hport : Reg.CAN_CTRL x ∉ logRegs 0 := by interval_cases x <;> decide
  exact State.cansSleep_asleep (s := { v with cca := { v.cca with wakeRun := 0 } }) hx ((hports x hx).trans ((State.bit_of_rd (hregs _ hport) _).trans hen))

theorem shoreRecordsAndHibernation_holds : shoreRecordsAndHibernation := by
  refine ⟨?_, ?_, ?_, ?_⟩
  · intro s a hrow hat hdue
    exact shorePeriodic_writes hrow hat hdue
  · intro s hrow hheld hgap hroom
    exact shoreGapEnd_writes hrow hheld hgap hroom
  · intro s h
    refine congrArg Host.Outcome.next (if_neg ?_)
    rcases h with h | h <;> simp [h]
  · intro s hrow hpending
    exact hibernateGraceEnd_enters hrow hpending

/-! Idleness and the end of hibernation (R284, R285) -/

/-- The events of every running partition. -/
theorem State.bit_setEvpAll (s : State) {bits b k : Nat} (hk : k < 7) (hb : b < 12) (hbits : bits.testBit b = true) (hrun : s.fld (Reg.PART_STATE k) 0 2 = 2) :
    (s.setEvpAll bits).bit (Reg.PART_EVP k) b = true := by
  have hmask : (bits % 4096).testBit b = true := by
    rw [show 4096 = 2 ^ 12 from rfl, Nat.testBit_mod_two_pow, decide_eq_true hb, hbits]
    rfl
  have hstep (l : List Nat) (u : State) (hpage : u.fld (Reg.PART_STATE k) 0 2 = 2) (hset : k ∈ l ∨ u.bit (Reg.PART_EVP k) b = true) :
      (l.foldl (fun s j => if s.fld (Reg.PART_STATE j) 0 2 = 2 then s.setEvp (j + 1) bits else s) u).bit (Reg.PART_EVP k) b = true := by
    induction l generalizing u with
    | nil => exact hset.resolve_left List.not_mem_nil
    | cons j l ih =>
      have hpage' : (if u.fld (Reg.PART_STATE j) 0 2 = 2 then u.setEvp (j + 1) bits else u).fld (Reg.PART_STATE k) 0 2 = 2 := by
        split
        · rw [State.setEvp, State.fld_orReg_ne _ _ _ _ (by unfold Reg.PART_EVP Reg.PART_STATE; omega), hpage]
        · exact hpage
      refine ih _ hpage' ?_
      by_cases hj : k = j
      · refine .inr ?_
        rw [← hj]
        show (if u.fld (Reg.PART_STATE k) 0 2 = 2 then u.setEvp (k + 1) bits else u).bit (Reg.PART_EVP k) b = true
        rw [if_pos hpage, State.setEvp, Nat.add_sub_cancel, State.bit_orReg _ _ _ _ (by omega), hmask, Bool.or_true]
      · refine hset.imp (fun h => (List.mem_cons.mp h).resolve_left hj) fun h => ?_
        show (if u.fld (Reg.PART_STATE j) 0 2 = 2 then u.setEvp (j + 1) bits else u).bit (Reg.PART_EVP k) b = true
        split
        · rw [State.setEvp, Nat.add_sub_cancel, State.bit_orReg_ne _ _ _ (by unfold Reg.PART_EVP; omega), h]
        · exact h
  exact hstep _ _ hrun (.inl (List.mem_range.mpr hk))

theorem State.hibPending_shows {s : State} (h : s.est.pending = false) : let t := s.hibPending
    t.est = { s.est with pending := true } ∧ RegsBut s t (evpRegs ++ logRegs 0) ∧ t.mem = s.mem ∧ t.nv = s.nv ∧ t.power = s.power
      ∧ ∀ k, k < 7 → s.fld (Reg.PART_STATE k) 0 2 = 2 → t.bit (Reg.PART_EVP k) 3 = true := by
  have heq : s.hibPending = ((({ s with est := { s.est with pending := true } } : State).logS 0x0C30 (u32 (s.parI .estHibGrace) ++ u8 1)).setEvpAll 8).noticeAll
      ("hibernate in=" ++ toString (s.parI .estHibGrace)) := by
    rw [State.hibPending, h]
    rfl
  have hregs : RegsBut s (({ s with est := { s.est with pending := true } } : State).logS 0x0C30 (u32 (s.parI .estHibGrace) ++ u8 1)) (evpRegs ++ logRegs 0) :=
    RegsBut.logS _ _ (fun _ _ => rfl) fun _ ha => List.mem_append_right _ ha
  have hlog := State.logS_eq { s with est := { s.est with pending := true } } 0x0C30 (u32 (s.parI .estHibGrace) ++ u8 1)
  dsimp only
  rw [heq]
  generalize ("hibernate in=" ++ toString (s.parI .estHibGrace)) = m
  generalize ({ s with est := { s.est with pending := true } } : State).logS 0x0C30 (u32 (s.parI .estHibGrace) ++ u8 1) = u at hregs hlog
  have hevp := u.setEvpAll_eq 8
  refine ⟨?_, RegsBut.noticeAll _ (hregs.setEvpAll _ fun _ ha => List.mem_append_left _ ha), ?_, ?_, ?_, ?_⟩
  · rw [State.noticeAll_est, hevp, hlog]
  · rw [State.noticeAll_mem, hevp, hlog]
  · rw [State.noticeAll_nv, hevp, hlog]
  · rw [State.noticeAll_power, hevp, hlog]
  · intro k hk hrun
    rw [State.bit_noticeAll]
    refine u.bit_setEvpAll hk (by decide) (by decide) ((State.fld_of_rd (hregs _ ?_) _ _).trans hrun)
    interval_cases k <;> decide

theorem doHibernateIdle_starts {s : State} {t0 : Nat} (hidle : s.est.idleSince = some t0) (hrow : s.rowing = true) (hon : s.parI .estHibIdle ≠ 0)
    (hdue : t0 + s.parI .estHibIdle * 60000000 ≤ s.clock) : doHibernateIdle s = s.hibPending := by
  unfold doHibernateIdle
  rw [hidle]
  exact if_pos ⟨hrow, hon, hdue⟩

theorem doHibernateIdle_waits {s : State} (h : s.est.idleSince = none ∨ s.rowing = false ∨ s.parI .estHibIdle = 0) : doHibernateIdle s = s := by
  unfold doHibernateIdle
  dsimp only
  split
  · rename_i t0 hidle
    refine if_neg ?_
    rintro ⟨hrow, hon, -⟩
    rcases h with h | h | h
    · exact absurd (hidle.symm.trans h) nofun
    · exact absurd (hrow.symm.trans h) (by decide)
    · exact hon h
  · rfl

theorem State.cca_assertReset (s : State) (cause : Nat) : (s.assertReset cause).cca = s.cca := by
  have hheld : (s.heldBy cause).cca = s.cca := (congrArg State.cca s.cutErase_eq :)
  unfold State.assertReset
  dsimp only
  split <;> exact hheld

theorem consoleWake_wakes {s : State} {p : Nat} (hp : p < 2) (h : s.power.phase = .hibernating) :
    Does (.consoleWake p) s (fun t => t.power.phase = .held ∧ t.power.wakeSrc = 3 ∧ t.fld Reg.RST_LAST 0 4 = 7 ∧ t.bit Reg.RST_CAUSE 7 = true ∧ t.nv = s.nv ∧ t.cca = s.cca) := by
  obtain ⟨hphase, hsrc, hlast⟩ := State.wake_of_hibernating 3 h
  have hshown : (s.wake 3).bit Reg.RST_CAUSE 7 = true ∧ (s.wake 3).nv = s.nv ∧ (s.wake 3).cca = s.cca := by
    unfold State.wake
    rw [h]
    exact ⟨State.bit_cause_assertReset s.free.2 (by decide), (s.free.2.assertReset_keeps 7).1, State.cca_assertReset s.free.2 7⟩
  exact ⟨_, congrArg Host.Outcome.next (if_pos hp), hphase, hsrc, hlast, hshown⟩

theorem doConsoleWake_awake {s : State} (h : s.power.phase ≠ .hibernating) (p : Nat) : doConsoleWake s p = s := by
  have hwake : s.wake 3 = s := by
    unfold State.wake
    split
    · rename_i hphase
      exact absurd hphase h
    · rfl
  rw [doConsoleWake, hwake, ite_self]

/-! Surge requests of tenants and tickets (R286, R289) -/

theorem doSurgeDoorbell_rings {s : State} {k : Nat} (hlo : 1 ≤ k) (hhi : k ≤ 7) (hrow : s.rowing = true) (us : Nat) :
    doSurgeDoorbell s k 1 us = (s.atUs us).placeSurge ⟨0x20 + k, partRank k, (s.atUs us).now, (s.atUs us).strokeNo, s.ld (mailbox k + 0x410) 1, signed 32 (s.ld (mailbox k + 0x414) 4),
      s.ld (mailbox k + 0x418) 4, s.ld (mailbox k + 0x41C) 4, .mailbox k 0⟩ := by
  have hno : ¬ ((1 : Word) ≠ 1 ∨ k < 1 ∨ 7 < k ∨ !s.rowing) := by
    rw [hrow]
    simp
    omega
  rw [doSurgeDoorbell, if_neg hno]
  rfl

/-- The ticket's end is logged in the system's and the holder's book. -/
def State.ticketLogged (s : State) (x : Ticket) (args : List Byte) : State :=
  (({ s with est := { s.est with ticket := none } } : State).logS 0x0C41 args).logIn (bookOfSource x.holder) 0x0C41 0 args

theorem State.ticketLogged_shows (s : State) (x : Ticket) (args : List Byte) : let t := s.ticketLogged x args
    t.est = { s.est with ticket := none } ∧ t.nv = s.nv ∧ t.mem = s.mem ∧ t.stk = s.stk
      ∧ RegsBut s t ((List.range 7).map Reg.PART_EVP ++ logRegs 0 ++ logRegs (bookOfSource x.holder)) := by
  have h1 := State.logS_eq { s with est := { s.est with ticket := none } } 0x0C41 args
  have h2 := State.logIn_eq (({ s with est := { s.est with ticket := none } } : State).logS 0x0C41 args) (bookOfSource x.holder) 0x0C41 0 args
  refine ⟨?_, ?_, ?_, ?_, ?_⟩
  · rw [State.ticketLogged, h2, h1]
  · rw [State.ticketLogged, h2, h1]
  · rw [State.ticketLogged, h2, h1]
  · rw [State.ticketLogged, h2, h1]
  · refine RegsBut.logIn _ _ _ (RegsBut.logS _ _ (fun _ _ => rfl) fun _ ha => ?_) fun _ ha => List.mem_append_right _ ha
    exact List.mem_append_left _ (List.mem_append_right _ ha)

/-- A tenant's notice of the end of its ticket, in its mailbox, with the ticket event. -/
def State.tenantNoticed (s : State) (k : Nat) (l : List Byte) : State := ((s.wrBytes (mailbox k + 0xC44) l).st (mailbox k + 0xC40) 4 (s.wrBytes (mailbox k + 0xC44) l).strokeNo).setEvp k 0x40

theorem State.tenantNoticed_shows (s : State) {k : Nat} (hlo : 1 ≤ k) (hhi : k ≤ 7) {b : Byte} {l : List Byte} (hl : l.length = 12) (hb : l[0]? = some b) : let t := s.tenantNoticed k l
    t.rdB (mailbox k + 0xC44) = b ∧ t.bit (Reg.PART_EVP (k - 1)) 6 = true ∧ (∀ a, a < mailbox k + 0xC40 ∨ mailbox k + 0xC50 ≤ a → t.rdB a = s.rdB a)
      ∧ t.est = s.est ∧ t.nv = s.nv ∧ RegsBut s t evpRegs := by
  have hmem : (s.tenantNoticed k l).mem = ((s.wrBytes (mailbox k + 0xC44) l).wrBytes (mailbox k + 0xC40) (leBytes 4 (s.wrBytes (mailbox k + 0xC44) l).strokeNo)).mem := rfl
  refine ⟨?_, ?_, ?_, ?_, ?_, ?_⟩
  · rw [State.rdB, hmem]
    refine (State.rdB_wrBytes_out _ _ _ _ (by rw [leBytes_length]; omega)).trans ?_
    exact (State.rdB_wrBytes_in s (mailbox k + 0xC44) l 0 (by omega)).trans (List.getElem_eq_iff (by omega) |>.mpr hb)
  · rw [State.tenantNoticed, State.setEvp, State.bit_orReg _ _ _ _ (by decide)]
    exact Bool.or_eq_true_iff.mpr (.inr (by decide))
  · intro a ha
    rw [State.rdB, hmem]
    exact (State.rdB_wrBytes_out _ _ _ _ (by rw [leBytes_length]; omega)).trans (State.rdB_wrBytes_out _ _ _ _ (by omega))
  · rw [State.tenantNoticed, State.setEvp, State.orReg_est, State.st, State.wrBytes_est, State.wrBytes_est]
  · rw [State.tenantNoticed, State.setEvp, State.orReg_nv, State.st, State.wrBytes_nv, State.wrBytes_nv]
  · exact RegsBut.orReg _ (RegsBut.wrBytes _ _ (RegsBut.wrBytes _ _ (RegsBut.refl s _))) (List.mem_map_of_mem (List.mem_range.mpr (by omega)))

/-- What the notice of a ticket's end leaves: the holder's mailbox and event, or its console or the crew link. -/
theorem State.ticketNotice_shows (s : State) (x : Ticket) (cause expiry : Nat) : let t := (s.setEst { s.est with ticket := none }).ticketNotice x 5 cause expiry
    t.est = { s.est with ticket := none } ∧ t.nv = s.nv ∧ RegsBut s t ((List.range 7).map Reg.PART_EVP ++ logRegs 0 ++ logRegs (bookOfSource x.holder))
      ∧ (partOfSource x.holder = none → SameMem s t)
      ∧ ∀ k, partOfSource x.holder = some k → t.rdB (mailbox k + 0xC44) = 5 ∧ t.bit (Reg.PART_EVP (k - 1)) 6 = true
        ∧ ∀ a, a < mailbox k + 0xC40 ∨ mailbox k + 0xC50 ≤ a → t.rdB a = s.rdB a := by
  dsimp only
  rw [State.ticketNotice]
  have hlogged : ((s.setEst { s.est with ticket := none }).logS 0x0C41 (u32 x.n ++ u8 5 ++ u32 expiry)).logIn (bookOfSource x.holder) 0x0C41 0 (u32 x.n ++ u8 5 ++ u32 expiry)
      = s.ticketLogged x (u32 x.n ++ u8 5 ++ u32 expiry) := rfl
  rw [hlogged]
  obtain ⟨hest, hnv, hmem, -, hregs⟩ := s.ticketLogged_shows x (u32 x.n ++ u8 5 ++ u32 expiry)
  generalize s.ticketLogged x (u32 x.n ++ u8 5 ++ u32 expiry) = u at hest hnv hmem hregs
  split
  · rename_i k hk
    have hkr : 1 ≤ k ∧ k ≤ 7 := by
      rw [partOfSource] at hk
      split at hk
      · cases hk
        omega
      · exact absurd hk nofun
    have hlength : (u8 5 ++ u8 cause ++ [0, 0] ++ u32 x.n ++ u32 expiry).length = 12 := by simp
    have hhead : (u8 5 ++ u8 cause ++ [0, 0] ++ u32 x.n ++ u32 expiry)[0]? = some 5 := rfl
    generalize u8 5 ++ u8 cause ++ [0, 0] ++ u32 x.n ++ u32 expiry = l at hlength hhead ⊢
    obtain ⟨hbyte, hbit, hother, hest', hnv', hregs'⟩ := u.tenantNoticed_shows hkr.1 hkr.2 hlength hhead
    dsimp only
    rw [← State.tenantNoticed]
    refine ⟨hest'.trans hest, hnv'.trans hnv, RegsBut.trans hregs (hregs'.mono fun a ha => List.mem_append_left _ (List.mem_append_left _ ha)), fun h => absurd (hk.symm.trans h) nofun, ?_⟩
    intro j hj
    cases hk.symm.trans hj
    exact ⟨hbyte, hbit, fun a ha => (hother a ha).trans (SameMem.of_mem hmem a)⟩
  · rename_i hk
    have hnone (j : Nat) (hj : partOfSource x.holder = some j) : False := absurd (hk.symm.trans hj) nofun
    split
    · dsimp only
      rw [if_neg (by decide)]
      exact ⟨(State.notice_est ..).trans hest, (State.notice_nv ..).trans hnv, RegsBut.notice _ _ hregs, fun _ => SameMem.of_mem ((State.notice_mem ..).trans hmem), fun j hj => (hnone j hj).elim⟩
    · split
      · exact ⟨hest, hnv, RegsBut.mk_iff.mpr hregs, fun _ => SameMem.of_mem hmem, fun j hj => (hnone j hj).elim⟩
      · exact ⟨hest, hnv, hregs, fun _ => SameMem.of_mem hmem, fun j hj => (hnone j hj).elim⟩

theorem doTicketExpire_ends {s : State} {x : Ticket} (hticket : s.est.ticket = some x) (hdue : strokeLe x.expiry s.strokeNo = true) :
    doTicketExpire s = (s.setEst { s.est with ticket := none }).ticketNotice x 5 0 s.strokeNo := by
  unfold doTicketExpire
  rw [hticket]
  dsimp only
  rw [if_pos hdue, State.endTicket, hticket]

theorem ticketExpire_ends {s : State} {x : Ticket} (hticket : s.est.ticket = some x) (hdue : strokeLe x.expiry s.strokeNo = true) :
    Does .ticketExpire s (fun t => t.est = { s.est with ticket := none } ∧ t.nv = s.nv ∧ RegsBut s t ((List.range 7).map Reg.PART_EVP ++ logRegs 0 ++ logRegs (bookOfSource x.holder))
      ∧ (partOfSource x.holder = none → SameMem s t)
      ∧ ∀ k, partOfSource x.holder = some k → t.rdB (mailbox k + 0xC44) = 5 ∧ t.bit (Reg.PART_EVP (k - 1)) 6 = true
        ∧ ∀ a, a < mailbox k + 0xC40 ∨ mailbox k + 0xC50 ≤ a → t.rdB a = s.rdB a) :=
  ⟨_, congrArg Host.Outcome.next (doTicketExpire_ends hticket hdue), s.ticketNotice_shows x 0 s.strokeNo⟩

theorem doTicketExpire_runs {s : State} (h : ∀ x, s.est.ticket = some x → strokeLe x.expiry s.strokeNo = false) : doTicketExpire s = s := by
  unfold doTicketExpire
  split
  · rename_i x hx
    exact if_neg (by rw [h x hx]; exact Bool.false_ne_true)
  · rfl

theorem hibernationTicketsAndSurges_holds : hibernationTicketsAndSurges := by
  refine ⟨?_, ?_, ?_, ?_, ?_, ?_, ?_, ?_⟩
  · intro s t0 hidle hrow hon hdue hpending
    obtain ⟨hest, hregs, hmem, hnv, -, hevents⟩ := State.hibPending_shows hpending
    exact ⟨_, congrArg Host.Outcome.next (doHibernateIdle_starts hidle hrow hon hdue), hest, hregs, SameMem.of_mem hmem, hnv, hevents⟩
  · intro s h
    exact congrArg Host.Outcome.next (doHibernateIdle_waits h)
  · intro s p hp h
    exact consoleWake_wakes hp h
  · intro s p h
    exact congrArg Host.Outcome.next (doConsoleWake_awake h p)
  · intro s k us hlo hhi hrow
    refine ⟨_, congrArg Host.Outcome.next (doSurgeDoorbell_rings hlo hhi hrow us), ?_, SameMem.of_mem rfl, rfl, ?_⟩
    · exact RegsBut.mk_iff.mpr (RegsBut.atUs us (RegsBut.refl s _) (by simp))
    · rw [State.now, State.us_atUs, show (s.atUs us).strokeNo = s.strokeNo from State.rdN_of_rd (State.rd_atUs_ne s us (by decide))]
      rfl
  · intro s k us v h
    refine congrArg Host.Outcome.next (if_pos ?_)
    exact h.imp_right fun hoff => .inr (.inr (by rw [hoff]; rfl))
  · intro s x hticket hdue
    exact ticketExpire_ends hticket hdue
  · intro s h
    exact congrArg Host.Outcome.next (doTicketExpire_runs h)

/-- Settles O38: shore records and hibernation, tickets and surge requests, clause by clause. -/
theorem hibernationTicketsAndShoreRecords : Obligations.HibernationTicketsAndShoreRecords := ⟨shoreRecordsAndHibernation_holds, hibernationTicketsAndSurges_holds⟩


end Sys2Proof.Machine
end

section
/-!
PROOFS. The motorized isolator and the safety inputs (R250 to R257). They settle O36.
-/

namespace Sys2Proof.Machine

/-! The isolator (R255 to R257) -/

/-- What the isolator shows. -/
theorem State.showMdi_shows (s : State) : let t := s.showMdi
    t.fld Reg.MDI_STAT 0 3 = s.mdi.st % 2 ^ 3 ∧ t.fld Reg.MDI_STAT 4 3 = s.mdi.pos % 2 ^ 3 ∧ t.driving = s.driving ∧ (s.bit Reg.MDI_IRQ 1 = true → t.bit Reg.MDI_IRQ 1 = true)
      ∧ OnlyRegs s t [Reg.MDI_IRQ, Reg.MDI_STAT] := by
  dsimp only
  rw [State.showMdi]
  have hirq : OnlyRegs s (if s.fld Reg.MDI_STAT 4 3 = s.mdi.pos then s else s.setBit Reg.MDI_IRQ 2 true) [Reg.MDI_IRQ]
      ∧ (s.bit Reg.MDI_IRQ 1 = true → (if s.fld Reg.MDI_STAT 4 3 = s.mdi.pos then s else s.setBit Reg.MDI_IRQ 2 true).bit Reg.MDI_IRQ 1 = true) := by
    split
    · exact ⟨.refl s _, id⟩
    · exact ⟨(OnlyRegs.refl s _).setBit _ _ (by simp), fun h => by rw [State.bit_setBit_other _ _ (by decide) (by decide), h]⟩
  obtain ⟨honly, h1⟩ := hirq
  generalize (if s.fld Reg.MDI_STAT 4 3 = s.mdi.pos then s else s.setBit Reg.MDI_IRQ 2 true) = u at honly h1
  refine ⟨?_, ?_, ?_, ?_, ((honly.mono (by simp)).setFld _ _ _ (by simp)).setFld _ _ _ (by simp)⟩
  · rw [State.fld_setFld_other _ _ (by decide) (by decide), State.fld_setFld_self _ _ (by decide)]
  · rw [State.fld_setFld_self _ _ (by decide)]
  · rw [State.driving, State.bit_setFld_other _ _ (by decide) (by decide), State.bit_setFld_other _ _ (by decide) (by decide)]
    exact State.bit_of_rd (honly.1 _ (by decide)) 8
  · intro h
    rw [State.bit_setFld_ne _ _ _ _ _ (by decide), State.bit_setFld_ne _ _ _ _ _ (by decide), h1 h]

/-- The isolator's record after a fault. -/
def failedMdi (s : State) : MdiSt := { s.mdi with st := mdiFault, nextMove := none, waitSince := none, cmd := if s.driving then 1 else 0 }

/-- A fault of the isolator: it is shown, its move has ended, and it is logged (R256). -/
theorem State.mdiFail_shows (s : State) {f : Nat} (hf : f < 32) : let t := s.mdiFail f
    t.mdi = failedMdi s ∧ t.bit Reg.MDI_FAULT f = true ∧ t.driving = s.driving ∧ t.bit Reg.MDI_IRQ 1 = true ∧ t.fld Reg.MDI_STAT 0 3 = mdiFault
      ∧ t.fld Reg.MDI_STAT 4 3 = 4 ∧ RegsBut s t ([Reg.MDI_FAULT, Reg.MDI_IRQ, Reg.MDI_STAT] ++ logRegs 0) ∧ SameMem s t := by
  dsimp only
  rw [State.mdiFail]
  dsimp only
  generalize ((if s.driving then (s.now - s.mdi.since) / 1000 else 0 : Nat)) = ms
  have hmdi : (((s.setBit Reg.MDI_FAULT f true).setBit Reg.MDI_IRQ 1 true).setMdi (failedMdi s)).mdi = failedMdi s := rfl
  have hfault : (((s.setBit Reg.MDI_FAULT f true).setBit Reg.MDI_IRQ 1 true).setMdi (failedMdi s)).bit Reg.MDI_FAULT f = true :=
    (State.bit_setBit_ne (s.setBit Reg.MDI_FAULT f true) _ _ _ (by decide)).trans (State.bit_setBit_self _ _ hf)
  have hirq : (((s.setBit Reg.MDI_FAULT f true).setBit Reg.MDI_IRQ 1 true).setMdi (failedMdi s)).bit Reg.MDI_IRQ 1 = true := State.bit_setBit_self _ _ (by decide)
  have hdriving : (((s.setBit Reg.MDI_FAULT f true).setBit Reg.MDI_IRQ 1 true).setMdi (failedMdi s)).driving = s.driving :=
    (State.bit_setBit_ne (s.setBit Reg.MDI_FAULT f true) _ _ _ (by decide)).trans (State.bit_setBit_ne _ _ _ _ (by decide))
  have hregs : RegsBut s (((s.setBit Reg.MDI_FAULT f true).setBit Reg.MDI_IRQ 1 true).setMdi (failedMdi s)) ([Reg.MDI_FAULT, Reg.MDI_IRQ, Reg.MDI_STAT] ++ logRegs 0) :=
    RegsBut.setBit 1 true (RegsBut.setBit f true (RegsBut.refl s _) (by simp)) (by simp)
  have hmem : SameMem s (((s.setBit Reg.MDI_FAULT f true).setBit Reg.MDI_IRQ 1 true).setMdi (failedMdi s)) := SameMem.of_mem rfl
  rw [← failedMdi]
  generalize ((s.setBit Reg.MDI_FAULT f true).setBit Reg.MDI_IRQ 1 true).setMdi (failedMdi s) = u at hmdi hfault hirq hdriving hregs hmem
  obtain ⟨hst, hpos, hdrive, hkept, hregs', hmem', hframe⟩ := u.showMdi_shows
  have hmdi' : u.showMdi.mdi = u.mdi := by rw [hframe]
  rw [hmdi] at hst hpos
  refine ⟨by rw [State.logS_mdi, hmdi', hmdi], ?_, ?_, ?_, ?_, ?_, ?_, fun a => ?_⟩
  · rw [State.bit_logS _ _ _ _ (by decide), State.bit_of_rd (hregs' _ (by decide)), hfault]
  · rw [State.driving, State.bit_logS _ _ _ _ (by decide), ← State.driving, hdrive, hdriving]
  · rw [State.bit_logS _ _ _ _ (by decide), hkept hirq]
  · rw [State.fld_logS _ _ _ _ _ (by decide), hst]
    rfl
  · rw [State.fld_logS _ _ _ _ _ (by decide), hpos]
    rfl
  · exact RegsBut.logS _ _ (RegsBut.trans hregs (hregs'.mono (by simp))) fun a ha => List.mem_append_right _ ha
  · exact (SameMem.of_mem (State.logS_mem ..) a).trans ((hmem' a).trans (hmem a))

theorem isolatorEvents_holds : isolatorEvents := by
  refine ⟨?_, ?_, ?_, ?_, ?_, ?_, ?_⟩
  · intro s hdrive hmoves
    refine ⟨⟨_, congrArg Host.Outcome.next (if_pos ⟨hdrive, hmoves⟩), ?_⟩, ⟨_, congrArg Host.Outcome.next (if_pos ⟨hdrive, hmoves⟩), ?_⟩⟩
    · obtain ⟨hmdi, hfault, hdriving, hirq, -, -, hregs, hmem⟩ := s.mdiFail_shows (f := 0) (by decide)
      exact ⟨congrArg MdiSt.st hmdi, hfault, hdriving.trans hdrive, hirq, hregs, hmem⟩
    · obtain ⟨hmdi, hfault, -, -, hst, -, hregs, hmem⟩ := s.mdiFail_shows (f := 1) (by decide)
      exact ⟨congrArg MdiSt.st hmdi, hfault, hst, hregs, hmem⟩
  · intro s hdrive
    refine ⟨_, congrArg Host.Outcome.next (if_pos hdrive), ?_⟩
    obtain ⟨hmdi, hfault, -, -, -, hpos, hregs, hmem⟩ := s.mdiFail_shows (f := 5) (by decide)
    dsimp only
    generalize s.mdiFail 5 = u at hmdi hfault hpos hregs hmem
    refine ⟨congrArg MdiSt.st hmdi, (State.bit_setBit_ne u _ _ _ (by decide)).trans hfault, State.bit_setBit_self u _ (by decide),
      (State.fld_setBit_other u _ (by decide) (by decide)).trans hpos, RegsBut.setBit 8 false hregs (by simp), hmem⟩
  · intro s hstill
    refine ⟨congrArg Host.Outcome.next (if_neg ?_), congrArg Host.Outcome.next (if_neg ?_), congrArg Host.Outcome.next (if_neg ?_)⟩ <;> simp [hstill]
  · intro s hbrake
    exact ⟨_, congrArg Host.Outcome.next (if_pos hbrake), rfl⟩
  · intro s hwait hlogged
    refine ⟨_, congrArg Host.Outcome.next (if_pos ⟨hwait, by rw [hlogged]; rfl⟩), ?_, ?_, SameMem.of_mem (State.logS_mem ..)⟩
    · exact State.logS_mdi ..
    · exact RegsBut.logS _ _ (fun _ _ => rfl) fun _ ha => ha
  · intro s close hawake
    exact Does.byRequester hawake rfl rfl
  · intro s hawake
    exact Does.byRequester hawake rfl rfl

/-! Levels and findings (R250, R251) -/

theorem State.setStuck_set {s : State} {n : Nat} (hn : n < 8) (v : Bool) : let t := s.setStuck n v
    t.bit Reg.SIN_STAT (16 + n) = v ∧ (∀ b, b ≠ 16 + n → t.bit Reg.SIN_STAT b = s.bit Reg.SIN_STAT b) ∧ t.sin = s.sin
      ∧ RegsBut s t ([Reg.SIN_STAT, Reg.SIN_IRQ] ++ logRegs 0) ∧ SameMem s t := by
  dsimp only
  rw [State.setStuck]
  split
  · rename_i h
    exact ⟨h, fun _ _ => rfl, rfl, RegsBut.refl s _, SameMem.refl s⟩
  · refine ⟨?_, fun b hb => ?_, State.logS_sin .., ?_, SameMem.of_mem (State.logS_mem ..)⟩
    · rw [State.bit_logS _ _ _ _ (by decide), State.bit_setBit_ne _ _ _ _ (by decide), State.bit_setBit_self _ _ (by omega)]
    · rw [State.bit_logS _ _ _ _ (by decide), State.bit_setBit_ne _ _ _ _ (by decide), State.bit_setBit_other _ _ (by omega) (Ne.symm hb)]
    · exact RegsBut.logS _ _ (RegsBut.setBit _ _ (RegsBut.setBit _ _ (RegsBut.refl s _) (by simp)) (by simp)) fun _ ha => List.mem_append_right _ ha

theorem State.setCross_set {s : State} {n : Nat} (hn : n < 8) (v : Bool) (src : Nat) : let t := s.setCross n v src
    t.bit Reg.SIN_STAT (8 + n) = v ∧ (∀ b, b ≠ 8 + n → t.bit Reg.SIN_STAT b = s.bit Reg.SIN_STAT b)
      ∧ (v = true → s.bit Reg.SIN_STAT (8 + n) = false → Tab.get 0 t.sin.crossBy n = src)
      ∧ RegsBut s t ([Reg.SIN_STAT, Reg.SIN_IRQ] ++ logRegs 0) ∧ SameMem s t := by
  dsimp only
  rw [State.setCross]
  split
  · rename_i h
    exact ⟨h, fun _ _ => rfl, fun hv hold => absurd ((hold.symm.trans h).trans hv) (by decide), RegsBut.refl s _, SameMem.refl s⟩
  · refine ⟨?_, fun b hb => ?_, fun hv _ => ?_, ?_, SameMem.of_mem (State.logS_mem ..)⟩
    · rw [State.bit_logS _ _ _ _ (by decide), State.bit_mk, State.bit_setBit_ne _ _ _ _ (by decide), State.bit_setBit_self _ _ (by omega)]
    · rw [State.bit_logS _ _ _ _ (by decide), State.bit_mk, State.bit_setBit_ne _ _ _ _ (by decide), State.bit_setBit_other _ _ (by omega) (Ne.symm hb)]
    · rw [State.logS_sin, hv]
      exact Tab.get_put_self ..
    · refine RegsBut.logS _ _ (RegsBut.mk_iff.mpr ?_) fun _ ha => List.mem_append_right _ ha
      exact RegsBut.setBit _ _ (RegsBut.setBit _ _ (RegsBut.refl s _) (by simp)) (by simp)

theorem State.sinHigh_low {s : State} {n : Nat} (hn : n < 8) (h : s.bit Reg.SIN_STAT n = true) : s.sinHigh n = true := by
  rw [State.sinHigh, if_pos hn, h]

theorem doSinFinding_cross {s : State} {n src : Nat} (hn : n < 8) (hsource : s.sinSource n ≠ 0) (hhigh : s.bit Reg.SIN_STAT n = true) (hcross : src ≠ s.sinSource n) :
    doSinFinding s n (some src) = s.setCross n true src := by
  rw [doSinFinding, State.sinHigh_low hn hhigh, if_neg (by simpa using ⟨hsource, hcross⟩), if_pos hn]

theorem doSinFinding_stuck {s : State} {n : Nat} (hn : n < 8) (hsource : s.sinSource n ≠ 0) (hhigh : s.bit Reg.SIN_STAT n = true) :
    doSinFinding s n none = s.setStuck n true := by
  rw [doSinFinding, State.sinHigh_low hn hhigh, if_neg (by simpa using hsource), if_pos hn]

theorem doSinFindingClear_seen {s : State} {n : Nat} (hn : n < 8) (hhigh : s.bit Reg.SIN_STAT n = true) :
    doSinFindingClear s n = (s.setCross n false (Tab.get 0 s.sin.crossBy n)).setStuck n false := by
  rw [doSinFindingClear, State.sinHigh_low hn hhigh, Bool.not_true, if_neg Bool.false_ne_true, if_pos hn]

theorem sinLevelChange_shows {s : State} {n : Nat} {level : Bool} (hn : n < 8) (hnew : s.bit Reg.SIN_STAT n ≠ level) (hon : level = true → s.sourceOff n = false) :
    Does (.sinLevelChange n level) s (fun t => t.bit Reg.SIN_STAT n = level ∧ t.bit Reg.SIN_RAW n = level ∧ t.bit Reg.SIN_IRQ n = true
      ∧ (∀ b, b < 32 → b ≠ n → t.bit Reg.SIN_STAT b = s.bit Reg.SIN_STAT b) ∧ OnlyRegs s t [Reg.SIN_STAT, Reg.SIN_RAW, Reg.SIN_IRQ]) := by
  have hdo : doSinLevelChange s n level = ((s.setBit Reg.SIN_STAT n level).setBit Reg.SIN_RAW n level).setBit Reg.SIN_IRQ n true := by
    rw [doSinLevelChange, if_neg (fun h => by simp [hon h.1] at h), if_pos hn, if_neg hnew]
  refine ⟨_, congrArg Host.Outcome.next hdo, ?_, ?_, State.bit_setBit_self _ _ (by omega), ?_, ?_⟩
  · rw [State.bit_setBit_ne _ _ _ _ (by decide), State.bit_setBit_ne _ _ _ _ (by decide), State.bit_setBit_self _ _ (by omega)]
  · rw [State.bit_setBit_ne _ _ _ _ (by decide), State.bit_setBit_self _ _ (by omega)]
  · intro b _ hb
    rw [State.bit_setBit_ne _ _ _ _ (by decide), State.bit_setBit_ne _ _ _ _ (by decide), State.bit_setBit_other _ _ (by omega) (Ne.symm hb)]
  · exact (((OnlyRegs.refl s _).setBit _ _ (by simp)).setBit _ _ (by simp)).setBit _ _ (by simp)

theorem doSinLevelChange_sourceOff {s : State} {n : Nat} (h : s.sourceOff n = true) : doSinLevelChange s n true = s := if_pos ⟨rfl, h⟩

theorem doSinFinding_unseen {s : State} {n : Nat} {cross : Option Nat} (h : s.sinSource n = 0 ∨ s.sinHigh n = false ∨ cross = some (s.sinSource n)) : doSinFinding s n cross = s :=
  if_pos (h.imp_right (.imp_left fun hlow => by rw [hlow]; rfl))

theorem doSinFindingClear_low {s : State} {n : Nat} (h : s.sinHigh n = false) : doSinFindingClear s n = s := if_pos (by rw [h]; rfl)

theorem sinFindingClear_clears {s : State} {n : Nat} (hn : n < 8) (hhigh : s.bit Reg.SIN_STAT n = true) :
    Does (.sinFindingClear n) s (fun t => t.bit Reg.SIN_STAT (8 + n) = false ∧ t.bit Reg.SIN_STAT (16 + n) = false ∧ t.bit Reg.SIN_STAT n = true
      ∧ RegsBut s t ([Reg.SIN_STAT, Reg.SIN_IRQ] ++ logRegs 0) ∧ SameMem s t) := by
  refine ⟨_, congrArg Host.Outcome.next (doSinFindingClear_seen hn hhigh), ?_⟩
  obtain ⟨hcross, hother, -, hregs, hmem⟩ := State.setCross_set (s := s) hn false (Tab.get 0 s.sin.crossBy n)
  generalize s.setCross n false (Tab.get 0 s.sin.crossBy n) = u at hcross hother hregs hmem
  obtain ⟨hstuck, hother', -, hregs', hmem'⟩ := State.setStuck_set (s := u) hn false
  refine ⟨(hother' _ (by omega)).trans hcross, hstuck, ?_, hregs.trans hregs', fun a => (hmem' a).trans (hmem a)⟩
  exact ((hother' _ (by omega)).trans (hother _ (by omega))).trans hhigh

/-! Test pulses and pairs (R250, R254) -/

/-- The registers that name the source of an input. -/
def sinCfgRegs : List Nat := (List.range 8).map Reg.SIN_CFG ++ [Reg.MDI_CFG]

theorem State.sinSource_of_rd {s t : State} (h : ∀ a ∈ sinCfgRegs, t.rd a = s.rd a) (n : Nat) : t.sinSource n = s.sinSource n := by
  have hmdi : t.rd Reg.MDI_CFG = s.rd Reg.MDI_CFG := h _ (by decide)
  rw [State.sinSource, State.sinSource, State.fld_of_rd hmdi, State.fld_of_rd hmdi]
  split
  · rename_i hn
    exact State.fld_of_rd (h _ (List.mem_append_left _ (List.mem_map_of_mem (List.mem_range.mpr hn)))) _ _
  · rfl

/-- The inputs of a source read low. -/
def State.sinsLow (s : State) (src : Nat) (l : List Nat) : State := l.foldl (fun s n => if s.sinSource n = src then s.setBit Reg.SIN_RAW n false else s) s

theorem State.sinsLow_shows (s : State) (src : Nat) (l : List Nat) (hl : ∀ n ∈ l, n < 32) : let t := s.sinsLow src l
    (∀ n ∈ l, s.sinSource n = src → t.bit Reg.SIN_RAW n = false) ∧ (∀ n, s.sinSource n ≠ src → t.bit Reg.SIN_RAW n = s.bit Reg.SIN_RAW n)
      ∧ (∀ n, s.bit Reg.SIN_RAW n = false → t.bit Reg.SIN_RAW n = false) ∧ OnlyRegs s t [Reg.SIN_RAW] := by
  induction l generalizing s with
  | nil => exact ⟨fun n hn => absurd hn List.not_mem_nil, fun _ _ => rfl, fun _ h => h, .refl s _⟩
  | cons n l ih =>
    have hn : n < 32 := hl n List.mem_cons_self
    have hstep : OnlyRegs s (if s.sinSource n = src then s.setBit Reg.SIN_RAW n false else s) [Reg.SIN_RAW]
        ∧ (∀ m, s.sinSource m ≠ src → (if s.sinSource n = src then s.setBit Reg.SIN_RAW n false else s).bit Reg.SIN_RAW m = s.bit Reg.SIN_RAW m)
        ∧ (s.sinSource n = src → (if s.sinSource n = src then s.setBit Reg.SIN_RAW n false else s).bit Reg.SIN_RAW n = false)
        ∧ ∀ m, s.bit Reg.SIN_RAW m = false → (if s.sinSource n = src then s.setBit Reg.SIN_RAW n false else s).bit Reg.SIN_RAW m = false := by
      split
      · rename_i hsrc
        refine ⟨(OnlyRegs.refl s _).setBit _ _ (by simp), fun m hm => ?_, fun _ => State.bit_setBit_self _ _ hn, fun m hm => ?_⟩
        · exact State.bit_setBit_other _ _ hn (fun h => hm (h ▸ hsrc))
        · by_cases hnm : n = m
          · rw [← hnm, State.bit_setBit_self _ _ hn]
          · rw [State.bit_setBit_other _ _ hn hnm, hm]
      · rename_i hsrc
        exact ⟨.refl s _, fun _ _ => rfl, fun h => absurd h hsrc, fun _ h => h⟩
    obtain ⟨honly, hother, hself, hlow⟩ := hstep
    obtain ⟨ihset, ihother, ihlow, ihonly⟩ := ih (if s.sinSource n = src then s.setBit Reg.SIN_RAW n false else s) fun m hm => hl m (List.mem_cons_of_mem _ hm)
    have hsource (m : Nat) : (if s.sinSource n = src then s.setBit Reg.SIN_RAW n false else s).sinSource m = s.sinSource m :=
      State.sinSource_of_rd (fun a ha => honly.1 a (fun h => absurd ha (by rw [List.mem_singleton.mp h]; decide))) m
    refine ⟨fun m hm hsrc => ?_, fun m hm => (ihother m (by rwa [hsource])).trans (hother m hm), fun m hm => ihlow m (hlow m hm), honly.trans ihonly⟩
    obtain rfl | hm := List.mem_cons.mp hm
    · exact ihlow m (hself hsrc)
    · exact ihset m hm (by rwa [hsource])

theorem testPulseFault_shows {s : State} {src : Nat} (hsrc : src < 4) :
    Does (.testPulseFault src) s (fun t => t.bit Reg.SIN_TPSTAT (16 + src) = true ∧ t.bit Reg.SIN_CTRL src = false ∧ (∀ n, n < 10 → s.sinSource n = src + 1 → t.bit Reg.SIN_RAW n = false)
      ∧ (∀ n, n < 10 → s.sinSource n ≠ src + 1 → t.bit Reg.SIN_RAW n = s.bit Reg.SIN_RAW n)
      ∧ RegsBut s t ([Reg.SIN_TPSTAT, Reg.SIN_CTRL, Reg.SIN_IRQ, Reg.SIN_RAW] ++ logRegs 0) ∧ SameMem s t) := by
  have hstat : (((s.setBit Reg.SIN_TPSTAT (16 + src) true).setBit Reg.SIN_CTRL src false).setBit Reg.SIN_IRQ (16 + src) true).bit Reg.SIN_TPSTAT (16 + src) = true := by
    rw [State.bit_setBit_ne _ _ _ _ (by decide), State.bit_setBit_ne _ _ _ _ (by decide), State.bit_setBit_self _ _ (by omega)]
  have hctrl : (((s.setBit Reg.SIN_TPSTAT (16 + src) true).setBit Reg.SIN_CTRL src false).setBit Reg.SIN_IRQ (16 + src) true).bit Reg.SIN_CTRL src = false := by
    rw [State.bit_setBit_ne _ _ _ _ (by decide), State.bit_setBit_self _ _ (by omega)]
  have honly : OnlyRegs s (((s.setBit Reg.SIN_TPSTAT (16 + src) true).setBit Reg.SIN_CTRL src false).setBit Reg.SIN_IRQ (16 + src) true) [Reg.SIN_TPSTAT, Reg.SIN_CTRL, Reg.SIN_IRQ] :=
    (((OnlyRegs.refl s _).setBit _ _ (by simp)).setBit _ _ (by simp)).setBit _ _ (by simp)
  refine ⟨_, congrArg Host.Outcome.next (if_pos hsrc), ?_⟩
  dsimp only
  generalize ((s.setBit Reg.SIN_TPSTAT (16 + src) true).setBit Reg.SIN_CTRL src false).setBit Reg.SIN_IRQ (16 + src) true = u at hstat hctrl honly
  have hsource (n : Nat) : u.sinSource n = s.sinSource n :=
    State.sinSource_of_rd (fun a ha => honly.1 a (fun h => by fin_cases h <;> exact absurd ha (by decide))) n
  have hraw (n : Nat) : u.bit Reg.SIN_RAW n = s.bit Reg.SIN_RAW n := State.bit_of_rd (honly.1 _ (by decide)) n
  obtain ⟨hlow, hother, -, honly'⟩ := u.sinsLow_shows (src + 1) (List.range 10) (fun n hn => by have := List.mem_range.mp hn; omega)
  rw [← State.sinsLow]
  generalize u.sinsLow (src + 1) (List.range 10) = v at hlow hother honly'
  refine ⟨?_, ?_, fun n hn h => ?_, fun n hn h => ?_, ?_, fun a => ?_⟩
  · rw [State.bit_logS _ _ _ _ (by decide), State.bit_of_rd (honly'.1 _ (by decide)), hstat]
  · rw [State.bit_logS _ _ _ _ (by decide), State.bit_of_rd (honly'.1 _ (by decide)), hctrl]
  · rw [State.bit_logS _ _ _ _ (by decide), hlow n (List.mem_range.mpr hn) ((hsource n).trans h)]
  · rw [State.bit_logS _ _ _ _ (by decide), hother n (fun hn' => h ((hsource n).symm.trans hn')), hraw]
  · refine RegsBut.logS _ _ (RegsBut.trans (honly.1.mono ?_) (honly'.1.mono ?_)) fun _ ha => List.mem_append_right _ ha <;> simp +contextual
  · exact (SameMem.of_mem (State.logS_mem ..) a).trans ((honly'.2.1 a).trans (honly.2.1 a))

theorem sinPairDiscrepancy_latches {s : State} {n p : Nat} (hpartner : s.sinPartner n = some p) (hdiffer : s.sinTripped n ≠ s.sinTripped p) :
    Does (.sinPairDiscrepancy n) s (fun t => getField t.sin.latched n 1 = 1 ∧ getField t.sin.latched p 1 = 1
      ∧ (∀ m, m ≠ n → m ≠ p → getField t.sin.latched m 1 = getField s.sin.latched m 1) ∧ RegsBut s t (logRegs 0) ∧ SameMem s t) := by
  have hne : n ≠ p := fun h => hdiffer (by rw [h])
  have hdo : doSinPairDiscrepancy s n =
      ({ s with sin := { s.sin with latched := putField (putField s.sin.latched n 1 1) p 1 1 } } : State).logS 0x0B25 (u8 (min n p) ++ u8 (max n p)) := by
    unfold doSinPairDiscrepancy
    rw [hpartner]
    exact if_neg hdiffer
  refine ⟨_, congrArg Host.Outcome.next hdo, ?_⟩
  dsimp only
  rw [State.logS_sin]
  refine ⟨?_, ?_, fun m hm hp => ?_, RegsBut.logS _ _ (fun _ _ => rfl) fun _ ha => ha, SameMem.of_mem (State.logS_mem ..)⟩
  · show getField (putField (putField s.sin.latched n 1 1) p 1 1) n 1 = 1
    rw [getField_putField_bit _ _ hne, getField_putField_self, Nat.pow_one, Nat.mod_eq_of_lt (by decide)]
  · show getField (putField (putField s.sin.latched n 1 1) p 1 1) p 1 = 1
    rw [getField_putField_self, Nat.pow_one, Nat.mod_eq_of_lt (by decide)]
  · show getField (putField (putField s.sin.latched n 1 1) p 1 1) m 1 = _
    rw [getField_putField_bit _ _ hp, getField_putField_bit _ _ hm]

theorem safetyInputs_holds : safetyInputs := by
  refine ⟨?_, ?_, ?_, ?_, ?_, ?_, ?_, ?_⟩
  · intro s n level hn hnew hon
    exact sinLevelChange_shows hn hnew hon
  · intro s n h
    exact congrArg Host.Outcome.next (doSinLevelChange_sourceOff h)
  · intro s n src hn hsource hhigh
    refine ⟨fun hforeign hclear => ?_, ?_⟩
    · refine ⟨_, congrArg Host.Outcome.next (doSinFinding_cross hn hsource hhigh hforeign), ?_⟩
      obtain ⟨hcross, -, hby, hregs, hmem⟩ := State.setCross_set (s := s) hn true src
      exact ⟨hcross, hby rfl hclear, hregs, hmem⟩
    · refine ⟨_, congrArg Host.Outcome.next (doSinFinding_stuck hn hsource hhigh), ?_⟩
      obtain ⟨hstuck, -, hsin, hregs, hmem⟩ := State.setStuck_set (s := s) hn true
      exact ⟨hstuck, hsin, hregs, hmem⟩
  · intro s n cross h
    exact congrArg Host.Outcome.next (doSinFinding_unseen h)
  · intro s n hn hhigh
    exact sinFindingClear_clears hn hhigh
  · intro s n h
    exact congrArg Host.Outcome.next (doSinFindingClear_low h)
  · intro s src hsrc
    exact testPulseFault_shows hsrc
  · intro s n p _ _ hpartner hdiffer
    exact sinPairDiscrepancy_latches hpartner hdiffer

/-- Settles O36: the isolator's events and the safety inputs, clause by clause. -/
theorem isolatorAndSafetyInputs : Obligations.IsolatorAndSafetyInputs := ⟨isolatorEvents_holds, safetyInputs_holds⟩

end Sys2Proof.Machine
end

section
/-!
PROOFS. Bytes and replies of the console ports (R318 to R321, R325): the lines a reply queues, the state once a waiting line is taken, and what a received or sent byte leaves in a port and its registers. They settle O43.
-/

namespace Sys2Proof.Machine

/-! Replies (R325) -/

theorem replyLines_cons (tag : Option String) (b c : String) (l : List String) :
    replyLines tag (b :: c :: l) = ⟨tag, true, false, false, b⟩ :: replyLines tag (c :: l) := by
  unfold replyLines
  simp [List.range_succ_eq_map, List.zip_map_left, Function.comp_def, Nat.succ_le_iff]

/-- A reply under a tag appends its lines to the output of its port and takes the tag off those not yet answered. -/
theorem State.say_tagged (s : State) (p : Nat) (tag : String) (l : List String) (hl : l ≠ []) :
    s.say p (some tag) l = s.setCon p { s.con p with out := (s.con p).out ++ replyLines (some tag) l, tags := (s.con p).tags.erase tag } := by
  induction l generalizing s with
  | nil => exact absurd rfl hl
  | cons b r ih =>
    cases r with
    | nil => simp [State.say, State.sayLine, replyLines]
    | cons c r =>
      rw [State.say, ih _ (by simp), State.sayLine, replyLines_cons]
      simp [State.setCon_setCon]

/-! Lines taken (R324, R410) -/

theorem State.noteService_eq (s : State) (p : Nat) : s.noteService p = { s with cam := { s.cam with svcAt := (s.noteService p).cam.svcAt } } := by
  unfold State.noteService
  split <;> rfl

/-- A waiting line that is taken leaves its port and, at SERVICE level, restarts the 24 hours of R410. -/
theorem lineTaken_of_ready {s : State} {p : Nat} {tag : Option String} {rest : List (Option String)} (h : (s.con p).ready = tag :: rest) :
    lineTaken s p = (s.setCon p { s.con p with ready := rest }).noteService p := by
  rw [lineTaken, State.takeLine_of_ready h]

theorem State.starting_of_cam {s t : State} (h : t.cam = s.cam) : t.starting = s.starting := by rw [State.starting, State.starting, h]

theorem State.starting_takeLine (s : State) (p : Nat) : (s.takeLine p).2.starting = s.starting := by
  refine State.starting_of_cam ?_
  unfold State.takeLine
  split <;> exact State.setCon_cam ..

/-- In the stake-boat interval a line is answered `starting`, whatever its command (R130). -/
theorem State.ianel_starting {s : State} {p : Nat} (ok : Level → Bool) (act : State → Option String → State) (hon : s.camlanOn = true)
    (hserved : s.conServed p = true) (hstarting : s.starting = true) :
    s.ianel p ok act = (s.takeLine p).2.say p (s.takeLine p).1 ["starting"] := by
  simp [State.ianel, hon, hserved, State.starting_takeLine, hstarting]

theorem repliesAreQueuedInOrder_holds : repliesAreQueuedInOrder := by
  unfold repliesAreQueuedInOrder
  refine ⟨fun s p tag l hp hl => ?reply, fun s p tag rest hp hready => ?taken, fun s p tag rest hon hserved hstarting hready => ?starting⟩
  case reply =>
    refine ⟨?_, ?_, ?_, State.say_eq ..⟩ <;> rw [State.say_tagged s p tag l hl]
    · rw [State.con_setCon]
    · rw [State.con_setCon]
    · exact State.con_setCon_other s _ hp
  case taken =>
    rw [lineTaken_of_ready hready]
    have heq := State.noteService_eq (s.setCon p { s.con p with ready := rest }) p
    refine ⟨?_, ?_, ?_, ?_, ?_⟩
    · rw [State.con_noteService, State.con_setCon]
    · rw [State.con_noteService, State.con_setCon]
    · rw [State.con_noteService, State.con_setCon_other s _ hp]
    · exact (congrArg State.cam heq :).trans (by rw [State.setCon_cam])
    · generalize State.noteService _ p = t at heq ⊢
      rw [State.setCon_eq] at heq
      rw [heq]
  case starting =>
    have h := State.ianel_starting (fun _ => true) (fun s tag => s.say p tag s.sayStatus) hon hserved hstarting
    rw [State.takeLine_of_ready hready] at h ⊢
    exact congrArg Host.Outcome.next h

/-! The registers of a port -/

@[simp] theorem State.con_setBit (s : State) (a i : Nat) (v : Bool) (q : Nat) : (s.setBit a i v).con q = s.con q := State.con_eq_of rfl rfl q

theorem conFifo_ne_conStat (p : Nat) : Reg.CON_FIFO p ≠ Reg.CON_STAT p := by
  unfold Reg.CON_FIFO Reg.CON_STAT
  omega

theorem conIrq_ne_conFifo (p : Nat) : Reg.CON_IRQ p ≠ Reg.CON_FIFO p := by
  unfold Reg.CON_IRQ Reg.CON_FIFO
  omega

theorem State.showCon_regs (s : State) (p : Nat) : RegsBut s (s.showCon p) [Reg.CON_STAT p, Reg.CON_FIFO p] := by
  unfold State.showCon
  exact (((((RegsBut.refl s _).setBit _ _ (by simp)).setBit _ _ (by simp)).setBit _ _ (by simp)).setFld _ _ _ (by simp)).setFld _ _ _ (by simp)

theorem State.showCon_eq (s : State) (p : Nat) : s.showCon p = { s with regs := (s.showCon p).regs } := rfl

theorem State.con_showCon (s : State) (p q : Nat) : (s.showCon p).con q = s.con q := State.con_eq_of rfl rfl q

/-! Bytes received (R318 to R321) -/

/-- A port once a byte came in: the line high again, seen before the byte is judged. -/
def State.lineHigh (s : State) (p : Nat) : State := s.setBit (Reg.CON_STAT p) 3 true

/-- The port takes a byte of a sound frame: no framing error stands in a row, and RXDATA asks for an interrupt. -/
def State.byteIn (s : State) (p : Nat) : State := ((s.lineHigh p).setCon p { s.con p with fe := 0 }).setBit (Reg.CON_IRQ p) 0 true

/-- Both differ from the state before in the registers of the port and the consoles alone. -/
structure State.PortOnly (s : State) (p : Nat) (t : State) : Prop where
  eq : t = { s with regs := t.regs, con0 := t.con0, con1 := t.con1 }
  regs : RegsBut s t [Reg.CON_STAT p, Reg.CON_IRQ p]

theorem State.PortOnly.setBit {s t : State} {p a : Nat} (h : s.PortOnly p t) (i : Nat) (v : Bool) (ha : a ∈ [Reg.CON_STAT p, Reg.CON_IRQ p]) :
    s.PortOnly p (t.setBit a i v) := by
  obtain ⟨heq, hregs⟩ := h
  refine ⟨?_, hregs.setBit i v ha⟩
  rw [heq]
  rfl

theorem State.PortOnly.setCon {s t : State} {p : Nat} (h : s.PortOnly p t) (q : Nat) (c : ConSt) : s.PortOnly p (t.setCon q c) := by
  obtain ⟨heq, hregs⟩ := h
  refine ⟨?_, hregs.setCon q c⟩
  rw [State.setCon_eq, heq]

theorem State.PortOnly.mem {s t : State} {p : Nat} (h : s.PortOnly p t) : SameMem s t := SameMem.of_mem (congrArg State.mem h.eq :)

theorem State.lineHigh_only (s : State) (p : Nat) : s.PortOnly p (s.lineHigh p) := State.PortOnly.setBit ⟨rfl, RegsBut.refl s _⟩ _ _ (by simp)

theorem State.byteIn_only (s : State) (p : Nat) : s.PortOnly p (s.byteIn p) := ((s.lineHigh_only p).setCon _ _).setBit _ _ (by simp)

theorem State.con_byteIn (s : State) (p : Nat) : (s.byteIn p).con p = { s.con p with fe := 0 } := by
  rw [State.byteIn, State.con_setBit, State.con_setCon]

theorem State.byteIn_irq (s : State) (p : Nat) : (s.byteIn p).bit (Reg.CON_IRQ p) 0 = true := State.bit_setBit_self _ _ (by decide)

/-- The registers of a console port are not those by which Camlan runs. -/
theorem dbgStat_notMem_port (p : Nat) : Reg.DBG_STAT ∉ [Reg.CON_STAT p, Reg.CON_IRQ p] := by
  unfold Reg.DBG_STAT Reg.CON_STAT Reg.CON_IRQ
  simp only [List.mem_cons, List.not_mem_nil, or_false, not_or]
  omega

theorem State.PortOnly.camlanOn {s t : State} {p : Nat} (h : s.PortOnly p t) : t.camlanOn = s.camlanOn :=
  State.camlanOn_congr (congrArg State.power h.eq :) (h.regs _ (dbgStat_notMem_port p))

theorem State.faultWords_of_power {s t : State} (h : t.power = s.power) : t.faultWords = s.faultWords := by
  rw [State.faultWords, State.faultWords, h]

/-- A byte of a machine line that is neither a terminator nor one too many joins the line, without an echo. -/
theorem State.lineByte_machine {s : State} {p : Nat} {b : Byte} {l : List Byte} (hline : (s.con p).line = 0x23 :: l) (hlen : l.length < 254)
    (hcr : b ≠ 0x0D) (hlf : b ≠ 0x0A) : s.lineByte p b = s.setCon p { s.con p with line := 0x23 :: l ++ [b], lastCr := false } := by
  have htyped : typedLine (s.con p).line b = false := by rw [hline]; rfl
  have hshort : ¬255 ≤ (s.con p).line.length := by rw [hline, List.length_cons]; omega
  have htake : (s.con p).take b = { s.con p with line := (s.con p).line ++ [b], lastCr := false } := by
    rw [ConSt.take, if_neg (by simp [htyped]), if_neg hshort]
  simp only [State.lineByte]
  rw [if_neg (show ¬(b = cr ∨ b = lf) from not_or.mpr ⟨hcr, hlf⟩), htyped, htake, Bool.and_false, if_neg Bool.false_ne_true, hline]

/-- A byte of a sound frame on a powered port that receives. -/
theorem doConsoleByteReceived_sound {s : State} {p : Nat} (b : Byte) (hp : p ≤ 1) (hpow : s.powered = true) (hctrl : s.fld (Reg.CON_CTRL p) 0 2 = 3) :
    doConsoleByteReceived s p b true =
      if s.camlanOn && s.conServed p then (s.byteIn p).lineByte p b
      else if s.faultWords.isSome then (if p = 0 ∧ b ≠ cr ∧ b ≠ lf then (s.byteIn p).setCon 0 (((s.byteIn p).con 0).take b) else s.byteIn p)
      else if 256 ≤ (s.con p).rx.length then
        (((s.byteIn p).setCon p { (s.byteIn p).con p with errOver := (s.con p).errOver + 1 }).setBit (Reg.CON_STAT p) 9 true).setBit (Reg.CON_IRQ p) 2 true
      else (((s.byteIn p).setCon p { (s.byteIn p).con p with rx := (s.con p).rx ++ [b] }).showCon p).con1Event p := by
  have hgoes : ¬(1 < p ∨ s.powered = false ∨ s.fld (Reg.CON_CTRL p) 0 2 ≠ 3) := by simp [hpow, hctrl, hp]
  rw [doConsoleByteReceived, if_neg hgoes]
  have hon : (s.byteIn p).camlanOn = s.camlanOn := (s.byteIn_only p).camlanOn
  have hserved : (s.byteIn p).conServed p = s.conServed p := State.conServed_of_parts (congrArg State.parts (s.byteIn_only p).eq :) p
  have hwords : (s.byteIn p).faultWords = s.faultWords := State.faultWords_of_power (congrArg State.power (s.byteIn_only p).eq :)
  rw [← hon, ← hserved, ← hwords]
  rfl

/-! Bytes sent (R329) -/

/-- With no partition at CON1 a byte of a console raises no partition's event. -/
theorem State.con1Event_none {s : State} (h : s.con1Granted = false) (p : Nat) : s.con1Event p = s := by
  have hnone (k : Nat) (hk : k ∈ ([1, 2, 3, 4, 5, 6, 7] : List Nat)) : s.granted k .misc 0 = false := by
    rw [State.con1Granted, List.any_eq_false] at h
    have := h (k - 1)
    fin_cases hk <;> simpa using this
  have hfind : ([1, 2, 3, 4, 5, 6, 7] : List Nat).find? (fun k => decide (p = 1) && s.granted k .misc 0) = none := by
    rw [List.find?_eq_none]
    intro k hk
    simp [hnone k hk]
  rw [State.con1Event, hfind]

theorem State.con1Granted_of_parts {s t : State} (h : t.parts = s.parts) : t.con1Granted = s.con1Granted := by
  have hgranted (k : Nat) : t.granted k .misc 0 = s.granted k .misc 0 := by
    rw [State.granted, State.granted, State.grant, State.grant, h]
  simp only [State.con1Granted, hgranted]

theorem State.showCon_txLevel (s : State) (p : Nat) : (s.showCon p).fld (Reg.CON_FIFO p) 16 9 = (s.con p).tx.length % 2 ^ 9 :=
  State.fld_setFld_self _ _ (by decide)

theorem State.showCon_txEmpty (s : State) (p : Nat) : (s.showCon p).bit (Reg.CON_STAT p) 2 = (s.con p).tx.isEmpty := by
  simp only [State.showCon]
  rw [State.bit_setFld_ne _ _ _ _ _ (conFifo_ne_conStat p), State.bit_setFld_ne _ _ _ _ _ (conFifo_ne_conStat p), State.bit_setBit_self _ _ (by decide)]

/-- TXEMPTY asks for an interrupt at the last byte. -/
def State.txIrq (s : State) (p : Nat) (last : Bool) : State := if last then s.setBit (Reg.CON_IRQ p) 1 true else s

@[simp] theorem State.con_txIrq (s : State) (p : Nat) (last : Bool) (q : Nat) : (s.txIrq p last).con q = s.con q := by
  unfold State.txIrq
  split <;> rfl

theorem State.rd_txIrq_ne (s : State) (p : Nat) (last : Bool) {a : Nat} (h : Reg.CON_IRQ p ≠ a) : (s.txIrq p last).rd a = s.rd a := by
  unfold State.txIrq
  split
  · exact State.rd_setBit_ne _ _ _ h
  · rfl

theorem State.txIrq_eq (s : State) (p : Nat) (last : Bool) : s.txIrq p last = { s with regs := (s.txIrq p last).regs } := by
  unfold State.txIrq
  split <;> rfl

/-- A port once a byte is sent, the Ianel having nothing to move into its FIFO. -/
def State.byteOut (s : State) (p : Nat) (l : List Byte) : State := ((s.setCon p { s.con p with tx := l }).showCon p).txIrq p l.isEmpty

theorem State.byteOut_eq (s : State) (p : Nat) (l : List Byte) :
    s.byteOut p l = { s with regs := (s.byteOut p l).regs, con0 := (s.byteOut p l).con0, con1 := (s.byteOut p l).con1 } := by
  rw [State.byteOut]
  generalize hc : s.setCon p _ = u
  have hu : u = { s with con0 := u.con0, con1 := u.con1 } := by rw [← hc]; exact State.setCon_eq ..
  rw [State.txIrq_eq, State.showCon_eq, hu]

theorem State.byteOut_regs (s : State) (p : Nat) (l : List Byte) : RegsBut s (s.byteOut p l) [Reg.CON_STAT p, Reg.CON_FIFO p, Reg.CON_IRQ p] := by
  have hshown := ((RegsBut.refl s _).setCon p { s.con p with tx := l }).trans (State.showCon_regs _ p)
  rw [State.byteOut, State.txIrq]
  cases l.isEmpty
  · exact hshown.mono (by simp)
  · exact (hshown.mono (m := [Reg.CON_STAT p, Reg.CON_FIFO p, Reg.CON_IRQ p]) (by simp)).setBit _ _ (by simp)

theorem doConsoleByteSent_unserved {s : State} {p : Nat} {b : Byte} {l : List Byte} (hp : p ≤ 1) (hpow : s.powered = true)
    (hen : s.bit (Reg.CON_CTRL p) 0 = true) (htxen : s.bit (Reg.CON_CTRL p) 2 = true) (htx : (s.con p).tx = b :: l) (hon : s.camlanOn = false)
    (hwords : s.faultWords = none) (hgrant : s.con1Granted = false) : doConsoleByteSent s p = s.byteOut p l := by
  have hgoes : ¬(1 < p ∨ s.powered = false ∨ s.bit (Reg.CON_CTRL p) 0 = false ∨ s.bit (Reg.CON_CTRL p) 2 = false) := by simp [hpow, hen, htxen, hp]
  have hout : (if l = [] then ((s.setCon p { s.con p with tx := l }).showCon p).setBit (Reg.CON_IRQ p) 1 true else (s.setCon p { s.con p with tx := l }).showCon p)
      = s.byteOut p l := by
    cases l <;> rfl
  have hparts : (s.byteOut p l).parts = s.parts := (congrArg State.parts (s.byteOut_eq p l) :)
  have hpower : (s.byteOut p l).power = s.power := (congrArg State.power (s.byteOut_eq p l) :)
  have hdbg : (s.byteOut p l).rd Reg.DBG_STAT = s.rd Reg.DBG_STAT := s.byteOut_regs p l _ (by
    unfold Reg.DBG_STAT Reg.CON_STAT Reg.CON_FIFO Reg.CON_IRQ
    simp only [List.mem_cons, List.not_mem_nil, or_false, not_or]
    omega)
  rw [doConsoleByteSent, if_neg hgoes]
  simp only [htx]
  rw [hout, State.con1Event_none ((State.con1Granted_of_parts hparts).trans hgrant), State.camlanOn_congr hpower hdbg, State.faultWords_of_power hpower, hon, hwords,
    if_neg (by decide)]

theorem consoleBytes_holds : consoleBytes := by
  unfold consoleBytes
  refine ⟨fun s p b l hp hpow hctrl hon hserved hline hlen hcr hlf => ?served, fun s p b hp hpow hctrl => ?framing,
    fun s p b hp hpow hctrl hon hwords hfull => ?full, fun s p b l hp hpow hen htxen htx hon hwords hlen hgrant => ?sent⟩
  case served =>
    have hin : ((s.byteIn p).con p).line = 0x23 :: l := by rw [State.con_byteIn]; exact hline
    refine ⟨_, congrArg Host.Outcome.next (doConsoleByteReceived_sound b hp hpow hctrl), ?_⟩
    rw [hon, hserved, Bool.and_self, if_pos rfl, State.lineByte_machine hin hlen hcr hlf]
    have honly := (s.byteIn_only p).setCon p { (s.byteIn p).con p with line := 0x23 :: l ++ [b], lastCr := false }
    exact ⟨by rw [State.con_setCon], by rw [State.con_setCon, State.con_byteIn], by rw [State.con_setCon, State.con_byteIn],
      by rw [State.bit_setCon, State.byteIn_irq], honly.regs, honly.mem, honly.eq⟩
  case framing =>
    have hgoes : ¬(1 < p ∨ s.powered = false ∨ s.fld (Reg.CON_CTRL p) 0 2 ≠ 3) := by simp [hpow, hctrl, hp]
    have honly := ((((s.lineHigh_only p).setCon p { s.con p with fe := (s.con p).fe + 1, errFrame := (s.con p).errFrame + 1, abArm := (s.con p).abArm || decide (3 ≤ (s.con p).fe + 1) }).setBit
      (a := Reg.CON_STAT p) 8 true (by simp)).setBit (a := Reg.CON_IRQ p) 2 true (by simp))
    refine ⟨(((s.lineHigh p).setCon p { s.con p with
      fe := (s.con p).fe + 1, errFrame := (s.con p).errFrame + 1, abArm := (s.con p).abArm || decide (3 ≤ (s.con p).fe + 1) }).setBit (Reg.CON_STAT p) 8 true).setBit
        (Reg.CON_IRQ p) 2 true, congrArg Host.Outcome.next (if_neg hgoes), ?_, ?_, State.bit_setBit_self _ _ (by decide), honly.regs, honly.mem, honly.eq⟩
    · rw [State.con_setBit, State.con_setBit, State.con_setCon]
    · rw [State.bit_setBit_ne _ _ _ _ (conIrq_ne_conStat p), State.bit_setBit_self _ _ (by decide)]
  case full =>
    refine ⟨_, congrArg Host.Outcome.next (doConsoleByteReceived_sound b hp hpow hctrl), ?_⟩
    rw [hon, hwords, Bool.false_and, if_neg Bool.false_ne_true, Option.isSome_none, if_neg Bool.false_ne_true, if_pos hfull]
    have honly := (((s.byteIn_only p).setCon p { (s.byteIn p).con p with errOver := (s.con p).errOver + 1 }).setBit
      (a := Reg.CON_STAT p) 9 true (by simp)).setBit (a := Reg.CON_IRQ p) 2 true (by simp)
    refine ⟨?_, ?_, ?_, State.bit_setBit_self _ _ (by decide), honly.regs, honly.mem⟩
    · rw [State.con_setBit, State.con_setBit, State.con_setCon, State.con_byteIn]
    · rw [State.con_setBit, State.con_setBit, State.con_setCon]
    · rw [State.bit_setBit_ne _ _ _ _ (conIrq_ne_conStat p), State.bit_setBit_self _ _ (by decide)]
  case sent =>
    refine ⟨_, congrArg Host.Outcome.next (doConsoleByteSent_unserved hp hpow hen htxen htx hon hwords hgrant), ?_, ?_, ?_, ?_, s.byteOut_regs p l,
      SameMem.of_mem (congrArg State.mem (s.byteOut_eq p l) :)⟩
    · rw [State.byteOut, State.con_txIrq, State.con_showCon, State.con_setCon]
    · rw [State.byteOut, State.fld_of_rd (State.rd_txIrq_ne _ _ _ (conIrq_ne_conFifo p)) 16 9, State.showCon_txLevel, State.con_setCon, Nat.mod_eq_of_lt]
      exact Nat.lt_trans hlen (by decide)
    · rw [State.byteOut, State.bit_of_rd (State.rd_txIrq_ne _ _ _ (conIrq_ne_conStat p)) 2, State.showCon_txEmpty, State.con_setCon]
    · rintro rfl
      exact State.bit_setBit_self _ _ (by decide)

/-! O43 -/

/-- Settles O43: a reply queues its lines by induction over them; a byte touches the registers of its port and that port alone. -/
theorem consoleBytesAndReplies : Obligations.ConsoleBytesAndReplies := by
  unfold Obligations.ConsoleBytesAndReplies
  exact ⟨repliesAreQueuedInOrder_holds, consoleBytes_holds⟩

end Sys2Proof.Machine
end

section
/-!
PROOFS. Links, the ring and the states of seats (R179, R191 to R195, R223, R224): what an issued transaction can change, what the start and the end of an enumeration leave, and what each event of the ring or of a seat shows. They settle O32.
-/

namespace Sys2Proof.Machine

/-! What an issued transaction can change (R199, R203) -/

/-- The registers that show the transaction table and the queues of the chain. -/
def shownTxRegs : List Nat := [Reg.TWN_STAT, Reg.TXT_STAT, Reg.CHN_QSTAT]

/-- Issuing transactions touches the table's memory, the registers that show it and the queues, flights and frames sent of the chain and the radio; nothing of the enumeration, of the links or of the seats. -/
structure IssueFrame (s t : State) : Prop where
  eq : t = { s with regs := t.regs, mem := t.mem, chn := t.chn, rad := t.rad }
  chn : t.chn = { s.chn with
    own := t.chn.own, data := t.chn.data, next := t.chn.next, queue := t.chn.queue, dirB := t.chn.dirB, flyA := t.chn.flyA, flyB := t.chn.flyB,
    sentA := t.chn.sentA, sentB := t.chn.sentB, skipped := t.chn.skipped, wanted := t.chn.wanted }
  rad : t.rad = { s.rad with queue := t.rad.queue }
  regs : RegsBut s t shownTxRegs

theorem IssueFrame.refl (s : State) : IssueFrame s s := ⟨rfl, rfl, rfl, RegsBut.refl s _⟩

theorem IssueFrame.trans {s t u : State} (h : IssueFrame s t) (k : IssueFrame t u) : IssueFrame s u := by
  obtain ⟨heq, hchn, hrad, hregs⟩ := h
  obtain ⟨keq, kchn, krad, kregs⟩ := k
  refine ⟨?_, ?_, ?_, hregs.trans kregs⟩
  · rw [heq] at keq
    exact keq
  · rw [hchn] at kchn
    exact kchn
  · rw [hrad] at krad
    exact krad

theorem IssueFrame.ite {s t u : State} {c : Prop} [Decidable c] (h : IssueFrame s t) (k : IssueFrame s u) : IssueFrame s (if c then t else u) := by
  split
  · exact h
  · exact k

theorem State.setHd_issue (s : State) (t off n v : Nat) : IssueFrame s (s.setHd t off n v) := by
  refine ⟨?_, by rw [State.setHd, State.st_chn], by rw [State.setHd, State.st_rad], RegsBut.of_regs (State.st_regs ..)⟩
  rw [State.setHd, State.st, State.wrBytes_eq]

theorem State.wrBytes_issue (s : State) (a : Nat) (l : List Byte) : IssueFrame s (s.wrBytes a l) :=
  ⟨by rw [State.wrBytes_eq], by rw [State.wrBytes_chn], by rw [State.wrBytes_rad], RegsBut.of_regs (State.wrBytes_regs ..)⟩

theorem State.sendOn_issue (s : State) (dirB : Bool) (f : Frame) : IssueFrame s (s.sendOn dirB f) := by
  unfold State.sendOn
  dsimp only
  refine IssueFrame.ite (IssueFrame.refl s) ?_
  cases dirB <;> exact ⟨rfl, rfl, rfl, RegsBut.refl s _⟩

theorem State.broadcast_issue (s : State) (type : Nat) (payload : List Byte) : IssueFrame s (s.broadcast type payload) :=
  (s.sendOn_issue false _).trans (State.sendOn_issue _ true _)

theorem IssueFrame.setFld {s t : State} {a : Nat} (h : IssueFrame s t) (lo w v : Nat) (ha : a ∈ shownTxRegs) : IssueFrame s (t.setFld a lo w v) :=
  h.trans ⟨rfl, rfl, rfl, (RegsBut.refl t _).setFld _ _ _ ha⟩

theorem IssueFrame.setBit {s t : State} {a : Nat} (h : IssueFrame s t) (i : Nat) (v : Bool) (ha : a ∈ shownTxRegs) : IssueFrame s (t.setBit a i v) :=
  h.trans ⟨rfl, rfl, rfl, (RegsBut.refl t _).setBit _ _ ha⟩

theorem State.showTx_issue (s : State) : IssueFrame s s.showTx := by
  unfold State.showTx
  exact ((((((IssueFrame.refl s).setFld _ _ _ (by decide)).setFld _ _ _ (by decide)).setFld _ _ _ (by decide)).setFld _ _ _ (by decide)).setBit _ _ (by decide)).setBit _ _
    (by decide)

/-- The head of an attempt that begins: in flight, one attempt more, and the direction it takes. -/
def State.headFlies (s : State) (t : Nat) (dirB : Bool) : State :=
  let u := (s.setHd t 0 1 txFlight).setHd t 0x15 1 (s.hd t 0x15 1 + 1)
  if dirB then u.setPath t 4 else u

theorem State.headFlies_issue (s : State) (t : Nat) (dirB : Bool) : IssueFrame s (s.headFlies t dirB) := by
  have h := (s.setHd_issue t 0 1 txFlight).trans (State.setHd_issue _ t 0x15 1 (s.hd t 0x15 1 + 1))
  exact IssueFrame.ite (h.trans (State.setHd_issue _ _ _ _ _)) h

/-- A transaction leaves the queue of the chain and is in flight in a direction. -/
def State.takesOff (s : State) (t : Nat) (dirB : Bool) : State :=
  let c := { s.chn with queue := s.chn.queue.filter (fun e => decide (e.1 ≠ t)) }
  s.setChn (if dirB then { c with flyB := some t } else { c with flyA := some t })

theorem State.takesOff_issue (s : State) (t : Nat) (dirB : Bool) : IssueFrame s (s.takesOff t dirB) := by
  cases dirB <;> exact ⟨rfl, rfl, rfl, RegsBut.refl _ _⟩

theorem State.attempt_eq (s : State) (t : Nat) (dirB : Bool) : s.attempt t dirB = ((s.headFlies t dirB).takesOff t dirB).sendTx t dirB false := rfl

theorem State.attempt_issue (s : State) (t : Nat) (dirB : Bool) : IssueFrame s (s.attempt t dirB) := by
  rw [State.attempt_eq]
  exact ((s.headFlies_issue t dirB).trans (State.takesOff_issue _ t dirB)).trans (State.sendOn_issue _ _ _)

/-- An idle direction takes its next transaction. -/
def State.takeNext (s : State) (dirB busy : Bool) : State :=
  if busy then s else match s.pick dirB with
    | some t => s.attempt t dirB
    | none => s

theorem State.takeNext_issue (s : State) (dirB busy : Bool) : IssueFrame s (s.takeNext dirB busy) := by
  unfold State.takeNext
  refine IssueFrame.ite (IssueFrame.refl s) ?_
  split
  · exact s.attempt_issue _ _
  · exact IssueFrame.refl s

theorem State.kick_eq (s : State) :
    s.kick = ((s.takeNext false s.chn.flyA.isSome).takeNext true (s.takeNext false s.chn.flyA.isSome).chn.flyB.isSome).showTx := rfl

theorem State.kick_issue (s : State) : IssueFrame s s.kick := by
  rw [State.kick_eq]
  exact ((s.takeNext_issue _ _).trans (State.takeNext_issue _ _ _)).trans (State.showTx_issue _)

theorem IssueFrame.setChn {s t : State} (h : IssueFrame s t) (own : List (Nat × Nat)) (data : List Nat) (next : Nat) (queue : List (Nat × Nat × Bool)) (dirB : Bool) :
    IssueFrame s (t.setChn { t.chn with own := own, data := data, next := next, queue := queue, dirB := dirB }) := h.trans ⟨rfl, rfl, rfl, RegsBut.refl t _⟩

theorem IssueFrame.radQueue {s t : State} (h : IssueFrame s t) (queue : List (Nat × Nat)) : IssueFrame s (t.setRad { t.rad with queue := queue }) :=
  h.trans ⟨rfl, rfl, rfl, RegsBut.refl t _⟩

theorem State.place_issue (s : State) (t : Nat) (w : Wanted) (catch_ : Nat) : IssueFrame s (s.place t w catch_) := by
  unfold State.place
  dsimp only
  generalize u8 txQueued ++ _ ++ _ ++ _ ++ _ ++ _ ++ _ ++ _ ++ _ ++ _ ++ _ = head
  generalize (if (s.entriesFor w.req w.rspLen).1 = 0 then ([] : List Byte) else w.req) = req
  have h := ((s.wrBytes_issue (txAddr t) head).trans (State.wrBytes_issue _ (txAddr (t + 1)) req)).setChn
  exact IssueFrame.ite ((h _ _ _ _ _).radQueue _) (h _ _ _ _ _)

theorem State.enqueue_issue (s : State) (w : Wanted) (catch_ : Nat) : IssueFrame s (s.enqueue w catch_) := by
  unfold State.enqueue
  split
  · exact s.place_issue _ _ _
  · exact ⟨rfl, rfl, rfl, RegsBut.refl _ _⟩

theorem State.issue_issue (s : State) (type seat paths catch_ : Nat) (req : List Byte) (rspLen cls : Nat) :
    IssueFrame s (s.issue type seat paths catch_ req rspLen cls) := (s.enqueue_issue _ _).trans (State.kick_issue _)

/-! The ring's register (Table 8-6) -/

theorem State.ring_eq_of {s t : State} (h : t.rd Reg.CHN_RING = s.rd Reg.CHN_RING) : t.ring = s.ring := State.fld_of_rd h 0 3

theorem State.setRing_eq (s : State) (n : Nat) : s.setRing n = { s with regs := (s.setRing n).regs } := by
  unfold State.setRing
  split <;> rfl

theorem State.ring_setRing (s : State) {n : Nat} (hn : n < 8) : (s.setRing n).ring = n := by
  unfold State.setRing
  split
  case isTrue h => exact h
  case isFalse h =>
    rw [State.ring, State.fld_setBit_ne _ _ _ _ _ (by decide), State.fld_setFld_self _ _ (by decide)]
    exact Nat.mod_eq_of_lt hn

theorem State.bit_setRing (s : State) (n : Nat) {i : Nat} (hi : 3 ≤ i) : (s.setRing n).bit Reg.CHN_RING i = s.bit Reg.CHN_RING i := by
  unfold State.setRing
  split
  · rfl
  · rw [State.bit_setBit_ne _ _ _ _ (by decide), State.bit_setFld_other _ _ (by decide) (Or.inl hi)]

theorem State.setRing_regs (s : State) (n : Nat) : RegsBut s (s.setRing n) [Reg.CHN_RING, Reg.CHN_IRQ] := by
  unfold State.setRing
  exact RegsBut.ite (fun _ => RegsBut.refl s _) fun _ => ((RegsBut.refl s _).setFld _ _ _ (by decide)).setBit _ _ (by decide)

/-- The registers that show the seats found. -/
def seatRegs : List Nat := (List.range 4).map Reg.CHN_PRES ++ (List.range 4).map Reg.CHN_LOST ++ [Reg.CHN_SEATS]


theorem OnlyRegs.putN {s t : State} {l : List Nat} {a : Nat} (h : OnlyRegs s t l) (n : Nat) (ha : a ∈ l) : OnlyRegs s (t.wrN a n) l :=
  h.trans ((OnlyRegs.wrN t a n).mono (by simpa using ha))

theorem State.showSeats_only (s : State) : OnlyRegs s s.showSeats seatRegs := by
  have hpres (i : Nat) (hi : i ∈ List.range 4) : Reg.CHN_PRES i ∈ seatRegs := List.mem_append_left _ (List.mem_append_left _ (List.mem_map_of_mem hi))
  have hlost (i : Nat) (hi : i ∈ List.range 4) : Reg.CHN_LOST i ∈ seatRegs := List.mem_append_left _ (List.mem_append_right _ (List.mem_map_of_mem hi))
  have hseats : Reg.CHN_SEATS ∈ seatRegs := List.mem_append_right _ (List.mem_singleton_self _)
  have hmasks (f g : Nat → Nat) : OnlyRegs s ((List.range 4).foldl (fun u i => (u.wrN (Reg.CHN_PRES i) (f i)).wrN (Reg.CHN_LOST i) (g i)) s) seatRegs :=
    List.foldlRecOn _ _ (motive := fun u => OnlyRegs s u seatRegs) (OnlyRegs.refl s _) fun u hu i hi => (hu.putN _ (hpres i hi)).putN _ (hlost i hi)
  unfold State.showSeats
  dsimp only
  split
  · exact ((((hmasks _ _).setFld _ _ _ hseats).setFld _ _ _ hseats).setFld _ _ _ hseats)
  · exact ((((hmasks _ _).setFld _ _ _ hseats).setFld _ _ _ hseats).setFld _ _ _ hseats)

theorem chnRing_notMem_seatRegs : Reg.CHN_RING ∉ seatRegs := by decide

theorem State.rd_showSeats (s : State) {a : Nat} (h : a ∉ seatRegs) : s.showSeats.rd a = s.rd a := s.showSeats_only.1 a h

theorem State.showSeats_eq (s : State) : s.showSeats = { s with regs := s.showSeats.regs } := s.showSeats_only.2.2

theorem State.noteIsolated_log (s : State) (was : Option (Nat × Nat)) : LogFrame s (s.noteIsolated was) := by
  unfold State.noteIsolated
  split
  · exact LogFrame.ite rfl (State.logS_eq ..)
  · rfl

theorem State.noteIsolated_regs (s : State) (was : Option (Nat × Nat)) : RegsBut s (s.noteIsolated was) (logRegs 0) := by
  unfold State.noteIsolated
  split
  · exact RegsBut.ite (fun _ => RegsBut.refl s _) fun _ => RegsBut.logS _ _ (RegsBut.refl s _) fun _ h => h
  · exact RegsBut.refl s _

/-! Links (R179, Table 8-6) -/

/-- A port whose link is lost, or seen again, before the ring follows. -/
def State.linkSeen (s : State) (port : RingPort) (v : Bool) : State := (s.setBit Reg.CHN_RING (linkBit port) v).setIdle port v

theorem State.ring_setBit_ring (s : State) {i : Nat} (v : Bool) (h : 3 ≤ i) (hi : i < 32) : (s.setBit Reg.CHN_RING i v).ring = s.ring :=
  State.fld_setBit_other _ _ hi (Or.inr h)

theorem State.setIdle_regs (s : State) (port : RingPort) (v : Bool) : (s.setIdle port v).regs = s.regs := by cases port <;> rfl

theorem State.ring_linkSeen (s : State) (port : RingPort) (v : Bool) : (s.linkSeen port v).ring = s.ring := by
  rw [State.linkSeen, State.ring_eq_of (State.rd_of_regs (State.setIdle_regs ..) _), State.ring_setBit_ring _ _ (by cases port <;> decide) (by cases port <;> decide)]

theorem State.linkSeen_eq (s : State) (port : RingPort) (v : Bool) : s.linkSeen port v = { s with regs := (s.linkSeen port v).regs, chn := (s.linkSeen port v).chn } := by
  cases port <;> rfl

theorem State.linkSeen_regs (s : State) (port : RingPort) (v : Bool) : RegsBut s (s.linkSeen port v) [Reg.CHN_RING] :=
  ((RegsBut.refl s _).setBit _ _ (by decide)).trans (RegsBut.of_regs (State.setIdle_regs ..))

theorem State.bit_linkSeen (s : State) (port : RingPort) (v : Bool) (i : Nat) : (s.linkSeen port v).bit Reg.CHN_RING i = (s.setBit Reg.CHN_RING (linkBit port) v).bit Reg.CHN_RING i :=
  State.bit_of_rd (State.rd_of_regs (State.setIdle_regs ..) _) i

/-! The ring found (R191, R193) -/

/-- What follows a change of the ring's register leaves it, and the chain's state, the memories and the non-volatile store with it. -/
structure RingKept (u t : State) : Prop where
  ring : t.rd Reg.CHN_RING = u.rd Reg.CHN_RING
  chn : t.chn = u.chn
  mem : t.mem = u.mem
  nv : t.nv = u.nv

theorem RingKept.refl (u : State) : RingKept u u := ⟨rfl, rfl, rfl, rfl⟩

theorem RingKept.trans {s t u : State} (h : RingKept s t) (k : RingKept t u) : RingKept s u :=
  ⟨k.ring.trans h.ring, k.chn.trans h.chn, k.mem.trans h.mem, k.nv.trans h.nv⟩

theorem State.showSeats_ring (u : State) : RingKept u u.showSeats :=
  ⟨u.rd_showSeats chnRing_notMem_seatRegs, (congrArg State.chn u.showSeats_eq :), (congrArg State.mem u.showSeats_eq :), (congrArg State.nv u.showSeats_eq :)⟩

theorem State.logS_ring (u : State) (c : Nat) (l : List Byte) : RingKept u (u.logS c l) :=
  ⟨State.rd_logS _ _ _ (by decide), State.logS_chn .., State.logS_mem .., State.logS_nv ..⟩

theorem State.noteIsolated_ring (u : State) (was : Option (Nat × Nat)) : RingKept u (u.noteIsolated was) := by
  have h := u.noteIsolated_log was
  exact ⟨u.noteIsolated_regs was _ (by decide), (congrArg State.chn h :), (congrArg State.mem h :), (congrArg State.nv h :)⟩

theorem State.seatsLogged_ring (u : State) (c : Nat) (l : List Nat) : RingKept u (l.foldl (fun s n => s.logS c (u8 n)) u) :=
  List.foldlRecOn _ _ (motive := RingKept u) (RingKept.refl u) fun t ht n _ => ht.trans (t.logS_ring c (u8 n))

/-- The ring's register once the ring is found in a state with the ends of its arms. -/
def State.ringFound (s : State) (n lastA firstB : Nat) : State := ((s.setRing n).setFld Reg.CHN_RING 8 8 lastA).setFld Reg.CHN_RING 16 8 firstB

theorem State.ringFound_shows (s : State) {n a b : Nat} (hn : n < 8) (ha : a < 256) (hb : b < 256) : let t := s.ringFound n a b
    t.ring = n ∧ t.armA = a ∧ t.armB = b ∧ t = { s with regs := t.regs } := by
  refine ⟨?_, ?_, ?_, ?_⟩
  · rw [State.ring, State.ringFound, State.fld_setFld_other _ _ (by decide) (by decide), State.fld_setFld_other _ _ (by decide) (by decide)]
    exact s.ring_setRing hn
  · rw [State.armA, State.ringFound, State.fld_setFld_other _ _ (by decide) (by decide), State.fld_setFld_self _ _ (by decide)]
    exact Nat.mod_eq_of_lt ha
  · rw [State.armB, State.ringFound, State.fld_setFld_self _ _ (by decide)]
    exact Nat.mod_eq_of_lt hb
  · rw [State.ringFound, State.setRing_eq]
    rfl

theorem State.ring_ringFound (s : State) {n : Nat} (hn : n < 8) (a b : Nat) : (s.ringFound n a b).ring = n := by
  rw [State.ring, State.ringFound, State.fld_setFld_other _ _ (by decide) (by decide), State.fld_setFld_other _ _ (by decide) (by decide)]
  exact s.ring_setRing hn

theorem State.ringFound_eq (s : State) (n a b : Nat) : s.ringFound n a b = { s with regs := (s.ringFound n a b).regs } := by
  rw [State.ringFound, State.setRing_eq]
  rfl

/-- The chain's state once an enumeration has ended. -/
def State.enumClosed (s : State) : State :=
  s.setChn { s.chn with enumOn := false, enumWait := false, enumSent := false, complete := true, late := false, badRun := 0, goodRun := 0, splitFor := 0 }

/-- The restart of the heat phase after a late enumeration (R194). -/
theorem RingKept.hrestart {u v : State} (h : RingKept u v) (late : Bool) : RingKept u (if late then { v with stk := { v.stk with hrestart := true } } else v) := by
  cases late
  · exact h
  · exact h.trans ⟨rfl, rfl, rfl, rfl⟩

/-- What is reported once the ring is found: the registers of the seats, code 0x0807 and an isolated segment. -/
theorem State.ringReported_ring (u : State) (c : Nat) (l : List Byte) (was : Option (Nat × Nat)) : RingKept u ((u.showSeats.logS c l).noteIsolated was) :=
  (u.showSeats_ring.trans (State.logS_ring ..)).trans (State.noteIsolated_ring ..)

theorem State.endEnum_whole (s : State) : RingKept (s.enumClosed.ringFound ringWhole 0 0) (s.endEnum true) := by
  unfold State.endEnum
  dsimp only
  rw [if_pos rfl, ← State.enumClosed, ← State.ringFound]
  exact RingKept.hrestart ((State.ringReported_ring ..).trans (State.seatsLogged_ring ..)) _

theorem State.endEnum_split (s : State) : ∃ a b, RingKept (s.enumClosed.ringFound ringSplit a b) (s.endEnum false) := by
  unfold State.endEnum
  dsimp only
  rw [if_neg Bool.false_ne_true, ← State.enumClosed, ← State.ringFound]
  exact ⟨_, _, RingKept.hrestart ((State.ringReported_ring ..).trans (State.seatsLogged_ring ..)) _⟩

/-! The start of an enumeration (R191) -/

/-- ENUM_CLEAR: every module releases its seat. -/
def State.seatsReleased (s : State) : State :=
  (List.range 128).foldl (fun s i => if (s.seat (i + 1)).enumd then s.updSeat (i + 1) (fun x => { x with enumd := false }) else s) s

theorem State.seatsReleased_eq (s : State) : s.seatsReleased = { s with seats := s.seatsReleased.seats } := by
  unfold State.seatsReleased
  refine List.foldlRecOn _ _ (motive := fun u : State => u = { s with seats := u.seats }) rfl fun u hu i _ => ?_
  split
  · rw [hu]
    rfl
  · exact hu

/-- The chain's state as an enumeration begins from seat 1 on CHA. -/
def ChnSt.enumOpened (c : ChnSt) (late : Bool) : ChnSt :=
  { c with enumOn := true, enumB := false, enumSeat := 1, enumWait := false, enumSent := false, late := late, complete := false }

theorem State.sendEnum_issue (s : State) (seat : Nat) (dirB : Bool) : IssueFrame s (s.sendEnum seat dirB) :=
  IssueFrame.trans (t := s.setChn { s.chn with dirB := dirB }) ⟨rfl, rfl, rfl, RegsBut.refl s _⟩ (State.issue_issue ..)

theorem State.startEnum_shows (s : State) (late : Bool) : let t := s.startEnum late
    t.ring = ringEnum ∧ t.chn.enumOn = true ∧ t.chn.enumSeat = 1 ∧ t.chn.late = late := by
  rw [State.startEnum, ← State.seatsReleased]
  have hring := s.seatsReleased.ring_setRing (n := ringEnum) (by decide)
  dsimp only
  generalize s.seatsReleased.setRing ringEnum = v at hring ⊢
  generalize s.seatsReleased.chn = c
  change let t := (((v.setChn (c.enumOpened late)).broadcast 0x02 []).sendEnum 1 false).showSeats
    t.ring = ringEnum ∧ t.chn.enumOn = true ∧ t.chn.enumSeat = 1 ∧ t.chn.late = late
  have hissue := ((v.setChn (c.enumOpened late)).broadcast_issue 0x02 []).trans (State.sendEnum_issue _ 1 false)
  generalize State.sendEnum _ _ _ = x at hissue ⊢
  have hshow := x.showSeats_ring
  have hchn := hshow.chn.trans hissue.chn
  refine ⟨?_, (congrArg ChnSt.enumOn hchn :), (congrArg ChnSt.enumSeat hchn :), (congrArg ChnSt.late hchn :)⟩
  rw [State.ring_eq_of hshow.ring, State.ring_eq_of (hissue.regs _ (by decide))]
  exact hring

/-! Events of the links -/

/-- Without link on either port an enumerated ring is ISOLATED and both ports send idle. -/
theorem doLinkLoss_isolates {s : State} (hb5 : s.bit Reg.CHN_RING 5 = false) (hring : s.ring = ringWhole ∨ s.ring = ringSplit) :
    doLinkLoss s .a = ((((s.linkSeen .a false).setChn { (s.linkSeen .a false).chn with lateDue := false }).setRing ringIsolated).setIdle .a true).setIdle .b true := by
  have hbits : ((s.linkSeen .a false).bit Reg.CHN_RING 4 || (s.linkSeen .a false).bit Reg.CHN_RING 5) = false := by
    rw [State.bit_linkSeen, State.bit_linkSeen, linkBit, State.bit_setBit_self _ _ (by decide), State.bit_setBit_other _ _ (by decide) (by decide), hb5]
    rfl
  have hring' : (s.linkSeen .a false).ring = ringWhole ∨ (s.linkSeen .a false).ring = ringSplit := by rwa [State.ring_linkSeen]
  exact (if_neg (show ¬((s.linkSeen .a false).bit Reg.CHN_RING 4 || (s.linkSeen .a false).bit Reg.CHN_RING 5) = true by rw [hbits]; decide)).trans (if_pos hring')

/-- While the other port has link a lost link shows in its bit and its idle alone. -/
theorem doLinkLoss_other {s : State} (hb4 : s.bit Reg.CHN_RING 4 = true) : doLinkLoss s .b = s.linkSeen .b false := by
  have hbits : ((s.linkSeen .b false).bit Reg.CHN_RING 4 || (s.linkSeen .b false).bit Reg.CHN_RING 5) = true := by
    rw [State.bit_linkSeen, linkBit, State.bit_setBit_other _ _ (by decide) (by decide), hb4, Bool.true_or]
  exact if_pos hbits

/-- The state in which a regained link is judged: it shows, and a link has been seen. -/
def State.linkBack (s : State) (port : RingPort) : State := (s.linkSeen port true).setChn { (s.linkSeen port true).chn with seen := true }

theorem State.ring_linkBack (s : State) (port : RingPort) : (s.linkBack port).ring = s.ring := s.ring_linkSeen port true

theorem State.linkBack_eq (s : State) (port : RingPort) : s.linkBack port = { s with regs := (s.linkBack port).regs, chn := (s.linkBack port).chn } := by
  cases port <;> rfl

theorem State.linkBack_regs (s : State) (port : RingPort) : RegsBut s (s.linkBack port) [Reg.CHN_RING] := s.linkSeen_regs port true

theorem State.camlanOn_linkBack (s : State) (port : RingPort) : (s.linkBack port).camlanOn = s.camlanOn :=
  State.camlanOn_congr (congrArg State.power (s.linkBack_eq port) :) (s.linkBack_regs port _ (by decide))

theorem State.rowing_linkBack (s : State) (port : RingPort) : (s.linkBack port).rowing = s.rowing := by
  rw [State.rowing, State.rowing, s.camlanOn_linkBack, show (s.linkBack port).cam = s.cam from (congrArg State.cam (s.linkBack_eq port) :)]

theorem doLinkRegain_isolated {s : State} (port : RingPort) (h : s.ring = ringIsolated) : doLinkRegain s port = (s.linkBack port).setRing ringSplit :=
  if_pos (show (s.linkBack port).ring = ringIsolated by rwa [State.ring_linkBack])

theorem doLinkRegain_down {s : State} (port : RingPort) (h : s.ring = ringDown) (hon : s.camlanOn = true) : doLinkRegain s port =
    if (s.linkBack port).cam.state = .stake then (s.linkBack port).startEnum false
    else if (s.linkBack port).rowing then (s.linkBack port).setChn { (s.linkBack port).chn with lateDue := true } else s.linkBack port :=
  (if_neg (show ¬(s.linkBack port).ring = ringIsolated by rw [State.ring_linkBack, h]; decide)).trans
    (if_pos (show (s.linkBack port).ring = ringDown ∧ (s.linkBack port).camlanOn by rw [State.ring_linkBack, State.camlanOn_linkBack]; exact ⟨h, hon⟩))

/-- An echo: the latency, and whether it counts for the whole ring (R193). -/
theorem State.catchEcho_a (s : State) (good same : Bool) (lat : Nat) : doCatchEcho s .a good same lat =
    ((s.setFld Reg.CHN_RINGLAT 0 16 lat).setChn { s.chn with echoA := good && !same }).setBit Reg.CHN_RING 6 (good && !same) := rfl

theorem State.catchEcho_b (s : State) (good same : Bool) (lat : Nat) : doCatchEcho s .b good same lat =
    ((s.setFld Reg.CHN_RINGLAT 0 16 lat).setChn { s.chn with echoB := good && !same }).setBit Reg.CHN_RING 7 (good && !same) := rfl

/-! Seats (R195, R223, R224) -/

theorem State.seat_of_seats {s t : State} (h : t.seats = s.seats) (n : Nat) : t.seat n = s.seat n := by rw [State.seat, State.seat, h]

/-- Of the seats only the one written changes. -/
theorem State.seat_setSeat (s : State) (n : Nat) (x : SeatSt) : (s.setSeat n x).seat n = x ∧ ∀ m, m ≠ n → (s.setSeat n x).seat m = s.seat m :=
  ⟨Tab.get_put_self .., fun _ h => Tab.get_put_ne _ _ _ _ h.symm⟩

/-- A seat's state is written and a record logged: the other seats, the memories and every register beside the logbook's stay. -/
theorem State.seatLogged_shows (s : State) (n : Nat) (x : SeatSt) (c : Nat) (l : List Byte) : let t := (s.setSeat n x).logS c l
    t.seat n = x ∧ (∀ m, m ≠ n → t.seat m = s.seat m) ∧ RegsBut s t (logRegs 0) ∧ SameMem s t := by
  have hseats : ((s.setSeat n x).logS c l).seats = (s.setSeat n x).seats := State.logS_seats ..
  obtain ⟨hself, hother⟩ := s.seat_setSeat n x
  exact ⟨(State.seat_of_seats hseats n).trans hself, fun m hm => (State.seat_of_seats hseats m).trans (hother m hm),
    RegsBut.logS (t := s.setSeat n x) _ _ (RegsBut.of_regs rfl) (fun _ h => h), SameMem.of_mem (State.logS_mem ..)⟩

/-! Split and heal (R193) -/

/-- What a split reports, and the counts it restarts. -/
def State.splitReported (u : State) (a b : Nat) : State :=
  let v := (u.setChn { u.chn with splitFor := 0, goodRun := 0 }).showSeats
  (v.logS 0x0801 (u8 (v.fld Reg.CHN_RING 6 2) ++ u8 a ++ u8 b)).noteIsolated none

theorem State.splitReported_ring (u : State) (a b : Nat) : RingKept (u.setChn { u.chn with splitFor := 0, goodRun := 0 }) (u.splitReported a b) :=
  State.ringReported_ring ..

theorem doRingSplit_splits {s : State} (a b : Nat) (h : s.ring = ringWhole ∧ s.parI .chnBreakN ≤ s.chn.badRun) :
    doRingSplit s a b = (s.ringFound ringSplit a b).splitReported a b := if_pos h

/-- What a heal reports, and the count it restarts. -/
def State.healReported (u : State) : State := (u.setChn { u.chn with badRun := 0 }).showSeats.logS 0x0802 (u32 u.chn.splitFor)

theorem State.healReported_ring (u : State) : RingKept (u.setChn { u.chn with badRun := 0 }) u.healReported := (State.showSeats_ring _).trans (State.logS_ring ..)

theorem doRingHeal_heals {s : State} (h : s.ring = ringSplit ∧ s.parI .chnHealN ≤ s.chn.goodRun) : doRingHeal s = (s.ringFound ringWhole 0 0).healReported := if_pos h

/-- A ring found differs from the state before in its register alone, and what is reported of it leaves that. -/
theorem RingKept.shows {s u v t : State} {n a b : Nat} (h : RingKept v t) (hv : v = u.setChn v.chn) (hu : u = { s with regs := u.regs }) (hring : u.ring = n)
    (ha : u.armA = a) (hb : u.armB = b) : t.ring = n ∧ t.armA = a ∧ t.armB = b ∧ t.chn = v.chn ∧ SameMem s t ∧ t.nv = s.nv := by
  have hreg : t.rd Reg.CHN_RING = u.rd Reg.CHN_RING := h.ring.trans (State.rd_of_regs (congrArg State.regs hv :) _)
  exact ⟨(State.ring_eq_of hreg).trans hring, (State.fld_of_rd hreg 8 8).trans ha, (State.fld_of_rd hreg 16 8).trans hb, h.chn,
    SameMem.of_mem (h.mem.trans ((congrArg State.mem hv :).trans (congrArg State.mem hu :))), h.nv.trans ((congrArg State.nv hv :).trans (congrArg State.nv hu :))⟩

/-! O32 -/

/-- Settles O32: what is reported once the ring is found leaves the ring's register and the chain's state, and an issued transaction leaves the enumeration's. -/
theorem ringAndSeats : Obligations.RingAndSeats := by
  unfold Obligations.RingAndSeats
  refine ⟨fun s hb5 hring => ?lostBoth, fun s hb4 => ?lostOne, fun s hring => ?regainIsolated, fun s hring hrow => ?regainDown, fun s hring hon hstake => ?regainStake,
    fun s hring => ?enumWhole, fun s a hring => ?enumSplit, fun s good same lat hlat => ?echo, fun s a b hring hbad ha hb => ?split, fun s a b hgood => ?noSplit,
    fun s hring hgood => ?heal, fun s n hn hlost hsilent => ?lost, fun s n hfaulty hdisag => ?faulty, fun s n hone hsingle => ?oneBlade⟩
  case lostBoth =>
    refine ⟨_, congrArg Host.Outcome.next (doLinkLoss_isolates hb5 hring), ?_⟩
    have hregs := (s.linkSeen_regs .a false)
    have hbit : (s.linkSeen .a false).bit Reg.CHN_RING 4 = false := by rw [State.bit_linkSeen]; exact State.bit_setBit_self _ _ (by decide)
    have hframe : s.linkSeen .a false = { s with regs := (s.linkSeen .a false).regs, chn := { s.chn with idleA := false } } := rfl
    generalize s.linkSeen .a false = u at hregs hbit hframe ⊢
    have hring := (u.setChn { u.chn with lateDue := false }).ring_setRing (n := ringIsolated) (by decide)
    have hkept := (u.setChn { u.chn with lateDue := false }).setRing_regs ringIsolated
    have hbits := (u.setChn { u.chn with lateDue := false }).bit_setRing ringIsolated (i := 4) (by decide)
    have heq := (u.setChn { u.chn with lateDue := false }).setRing_eq ringIsolated
    generalize (u.setChn { u.chn with lateDue := false }).setRing ringIsolated = v at hring hkept hbits heq ⊢
    refine ⟨hring, hbits.trans hbit, ?_, (hregs.mono (by decide)).trans hkept, SameMem.of_mem ?_⟩
    · rw [heq, hframe]
      rfl
    · rw [heq, hframe]
      rfl
  case lostOne =>
    refine ⟨_, congrArg Host.Outcome.next (doLinkLoss_other hb4), s.ring_linkSeen .b false, ?_, ?_, rfl, s.linkSeen_regs .b false, SameMem.of_mem rfl⟩
    · rw [State.bit_linkSeen]
      exact State.bit_setBit_self _ _ (by decide)
    · rw [State.bit_linkSeen, linkBit, State.bit_setBit_other _ _ (by decide) (by decide), hb4]
  case regainIsolated =>
    refine ⟨_, congrArg Host.Outcome.next (doLinkRegain_isolated .a hring), State.ring_setRing _ (by decide), ?_, ?_,
      ((s.linkBack_regs .a).mono (by decide)).trans (State.setRing_regs _ _), ?_⟩
    · rw [State.bit_setRing _ _ (by decide)]
      exact (s.bit_linkSeen .a true 4).trans (State.bit_setBit_self _ _ (by decide))
    · rw [State.setRing_eq]
      rfl
    · rw [State.setRing_eq]
      exact SameMem.of_mem rfl
  case regainDown =>
    have hon : s.camlanOn = true := by rw [State.rowing, Bool.and_eq_true, Bool.and_eq_true] at hrow; exact hrow.1.1
    have hstake : (s.linkBack .b).cam.state ≠ .stake := by
      rw [State.rowing, Bool.and_eq_true, decide_eq_true_eq] at hrow
      exact hrow.2
    refine ⟨_, congrArg Host.Outcome.next ((doLinkRegain_down .b hring hon).trans ((if_neg hstake).trans (if_pos ((s.rowing_linkBack .b).trans hrow)))), ?_, rfl, s.linkBack_regs .b,
      SameMem.of_mem rfl⟩
    exact (s.ring_linkBack .b).trans hring
  case regainStake =>
    refine ⟨_, congrArg Host.Outcome.next ((doLinkRegain_down .a hring hon).trans (if_pos hstake)), ?_⟩
    exact State.startEnum_shows _ false
  case enumWhole =>
    obtain ⟨hring', ha, hb, heq⟩ := s.enumClosed.ringFound_shows (n := ringWhole) (a := 0) (b := 0) (by decide) (by decide) (by decide)
    have h := s.endEnum_whole
    refine ⟨s.endEnum true, congrArg Host.Outcome.next (if_pos hring), ?_⟩
    have hchn := h.chn.trans (congrArg State.chn heq :)
    exact ⟨(State.ring_eq_of h.ring).trans hring', (State.fld_of_rd h.ring 8 8).trans ha, (State.fld_of_rd h.ring 16 8).trans hb, (congrArg ChnSt.enumOn hchn :),
      (congrArg ChnSt.complete hchn :), SameMem.of_mem (h.mem.trans (congrArg State.mem heq :))⟩
  case enumSplit =>
    obtain ⟨x, y, h⟩ := s.endEnum_split
    have heq := s.enumClosed.ringFound_eq ringSplit x y
    refine ⟨s.endEnum false, congrArg Host.Outcome.next ((if_pos hring).trans (by rw [Bool.and_false])), (State.ring_eq_of h.ring).trans (State.ring_ringFound _ (by decide) _ _), ?_,
      SameMem.of_mem (h.mem.trans (congrArg State.mem heq :))⟩
    exact congrArg ChnSt.enumOn (h.chn.trans (congrArg State.chn heq :))
  case echo =>
    refine ⟨⟨_, congrArg Host.Outcome.next (s.catchEcho_a good same lat), rfl, State.bit_setBit_self _ _ (by decide), ?_, ?_, SameMem.of_mem rfl⟩,
      ⟨_, congrArg Host.Outcome.next (s.catchEcho_b good same lat), rfl, State.bit_setBit_self _ _ (by decide), ?_, ?_, SameMem.of_mem rfl⟩⟩
    · rw [State.fld_setBit_ne _ _ _ _ _ (by decide)]
      exact (State.fld_setFld_self _ _ (by decide)).trans (Nat.mod_eq_of_lt hlat)
    · exact ((((RegsBut.refl s _).setFld _ _ _ (by decide)).trans (RegsBut.of_regs rfl)).setBit _ _ (by decide))
    · rw [State.fld_setBit_ne _ _ _ _ _ (by decide)]
      exact (State.fld_setFld_self _ _ (by decide)).trans (Nat.mod_eq_of_lt hlat)
    · exact ((((RegsBut.refl s _).setFld _ _ _ (by decide)).trans (RegsBut.of_regs rfl)).setBit _ _ (by decide))
  case split =>
    obtain ⟨hring', ha', hb', heq⟩ := s.ringFound_shows (n := ringSplit) (a := a) (b := b) (by decide) ha hb
    obtain ⟨h1, h2, h3, hchn, hsame⟩ := (State.splitReported_ring _ a b).shows rfl heq hring' ha' hb'
    refine ⟨_, congrArg Host.Outcome.next (doRingSplit_splits a b ⟨hring, hbad⟩), h1, h2, h3, hchn.trans ?_, hsame⟩
    rw [State.setChn, show (s.ringFound ringSplit a b).chn = s.chn from (congrArg State.chn heq :)]
  case noSplit => exact congrArg Host.Outcome.next (if_neg fun h => absurd h.2 (by omega))
  case heal =>
    obtain ⟨hring', ha', hb', heq⟩ := s.ringFound_shows (n := ringWhole) (a := 0) (b := 0) (by decide) (by decide) (by decide)
    obtain ⟨h1, h2, h3, hchn, hsame⟩ := (State.healReported_ring _).shows rfl heq hring' ha' hb'
    refine ⟨_, congrArg Host.Outcome.next (doRingHeal_heals ⟨hring, hgood⟩), h1, h2, h3, hchn.trans ?_, hsame⟩
    rw [State.setChn, show (s.ringFound ringWhole 0 0).chn = s.chn from (congrArg State.chn heq :)]
  case lost =>
    have hgoes : s.readSet.contains n ∧ !(s.seat n).lost ∧ s.parI .chnLostHeats ≤ (s.seat n).silent := ⟨by simpa using hn, by simp [hlost], hsilent⟩
    refine ⟨_, congrArg Host.Outcome.next (if_pos hgoes), ?_⟩
    dsimp only
    obtain ⟨hself, hother⟩ := s.seat_setSeat n { s.seat n with lost := true }
    generalize hu : s.setSeat n { s.seat n with lost := true } = u at hself hother ⊢
    have hmem : u.mem = s.mem := by rw [← hu]; rfl
    have hseats : ((u.showSeats.setBit Reg.CHN_IRQ 2 true).logS 0x0803 (u8 n ++ u16 ((s.seat n).lastGood % 65536))).seats = u.seats := by
      rw [State.logS_seats, State.setBit_seats, u.showSeats_eq]
    refine ⟨(State.seat_of_seats hseats n).trans hself, fun m hm => (State.seat_of_seats hseats m).trans (hother m hm), ?_, SameMem.of_mem ?_⟩
    · rw [State.bit_logS _ _ _ _ (by decide)]
      exact State.bit_setBit_self _ _ (by decide)
    · rw [State.logS_mem, State.setBit_mem, u.showSeats_eq]
      exact hmem
  case faulty =>
    exact ⟨_, congrArg Host.Outcome.next (if_pos (show !(s.seat n).faulty ∧ _ from ⟨by simp [hfaulty], hdisag⟩)), s.seatLogged_shows n _ 0x090F _⟩
  case oneBlade =>
    exact ⟨_, congrArg Host.Outcome.next (if_pos (show !(s.seat n).oneBlade ∧ _ from ⟨by simp [hone], hsingle⟩)), s.seatLogged_shows n _ 0x090B _⟩

end Sys2Proof.Machine
end

section
/-!
PROOFS. The transaction table and the chain (R180, R188, R197 to R199, R203, R204, R419): the fields of a head once it is written, what a store outside a head leaves of it, and what a submission, a response and a timeout lead to. They settle O33.
-/

namespace Sys2Proof.Machine

/-! Loads beside stores -/

/-- Bytes are read from the place that holds them in what was stored. -/
theorem State.rdBytes_wrBytes_part (s : State) (a : Nat) (l : List Byte) {off n : Nat} (h : off + n ≤ l.length) :
    (s.wrBytes a l).rdBytes (a + off) n = (l.drop off).take n := by
  induction n generalizing off with
  | zero => simp [State.rdBytes]
  | succ n ih =>
    have hrest := ih (off := off + 1) (by omega)
    rw [State.rdBytes, State.rdB_wrBytes_in _ _ _ _ (by omega), Nat.add_assoc, hrest, List.drop_eq_getElem_cons (i := off) (l := l) (by omega), List.take_succ_cons]

/-- Bytes outside a store are read as before. -/
theorem State.rdBytes_wrBytes_out (s : State) (a b : Nat) (l : List Byte) {n : Nat} (h : b + n ≤ a ∨ a + l.length ≤ b) :
    (s.wrBytes a l).rdBytes b n = s.rdBytes b n := by
  induction n generalizing b with
  | zero => rfl
  | succ n ih => rw [State.rdBytes, State.rdBytes, State.rdB_wrBytes_out _ _ _ _ (by omega), ih _ (by omega)]

theorem State.ld_wrBytes_out (s : State) (a b : Nat) (l : List Byte) {n : Nat} (h : b + n ≤ a ∨ a + l.length ≤ b) : (s.wrBytes a l).ld b n = s.ld b n :=
  congrArg leNat (s.rdBytes_wrBytes_out a b l h)

theorem State.ld_st_out (s : State) (a b v : Nat) {n m : Nat} (h : b + n ≤ a ∨ a + m ≤ b) : (s.st a m v).ld b n = s.ld b n :=
  s.ld_wrBytes_out a b _ (by rwa [leBytes_length])

theorem State.ld_of_mem {s t : State} (h : t.mem = s.mem) (a n : Nat) : t.ld a n = s.ld a n := congrArg leNat (State.rdBytes_of_mem h a n)

theorem State.hd_of_mem {s t : State} (h : t.mem = s.mem) (t' off n : Nat) : t.hd t' off n = s.hd t' off n := State.ld_of_mem h _ _

/-! Heads (R202, R203) -/

theorem State.hd_lt (s : State) (t off n : Nat) : s.hd t off n < 256 ^ n := by
  rw [State.hd, State.ld]
  generalize txAddr t + off = a
  induction n generalizing a with
  | zero => simp [State.rdBytes, leNat]
  | succ n ih =>
    have hbyte := (s.rdB a).isLt
    have hrest := ih (a + 1)
    rw [State.rdBytes, leNat, Nat.pow_succ]
    omega

theorem State.hd_setHd_self (s : State) (t off : Nat) {n v : Nat} (h : v < 256 ^ n) : (s.setHd t off n v).hd t off n = v := State.ld_st _ _ h

theorem State.hd_setHd_other (s : State) (t v : Nat) {off n off' n' : Nat} (h : off + n ≤ off' ∨ off' + n' ≤ off) : (s.setHd t off' n' v).hd t off n = s.hd t off n :=
  State.ld_st_out _ _ _ _ (by omega)

/-- The head that a transaction takes as it is placed (Table 8-9). -/
def headBytes (w : Wanted) (catch_ stroke reqAt rspAt : Nat) : List Byte :=
  u8 txQueued ++ u8 w.type ++ u8 w.seat ++ u8 w.paths ++ u16 catch_ ++ u8 w.req.length ++ u8 w.rspLen ++ u32 stroke ++ u16 reqAt ++ u16 rspAt ++ List.replicate 16 0

theorem headBytes_length (w : Wanted) (catch_ stroke reqAt rspAt : Nat) : (headBytes w catch_ stroke reqAt rspAt).length = 32 := rfl

/-- The fields of a head that was written, after what its request data wrote elsewhere. -/
theorem State.hd_headBytes (s : State) (t : Nat) (w : Wanted) (catch_ stroke reqAt rspAt : Nat) {l : List Byte} (hl : l.length < 256) {off n : Nat} (h : off + n ≤ 32) :
    ((s.wrBytes (txAddr t) (headBytes w catch_ stroke reqAt rspAt)).wrBytes (txAddr (t + 1)) l).hd t off n = leNat (((headBytes w catch_ stroke reqAt rspAt).drop off).take n) := by
  rw [State.hd, State.ld_wrBytes_out _ _ _ _ (by unfold txAddr; omega), State.ld, State.rdBytes_wrBytes_part _ _ _ (by rw [headBytes_length]; exact h)]

/-- Where a transaction is placed: its head and request data are stored, then the queues follow. -/
theorem State.place_shows (s : State) (t : Nat) (w : Wanted) (catch_ : Nat) : ∃ reqAt rspAt l, l.length ≤ w.req.length ∧
    (s.place t w catch_).mem = ((s.wrBytes (txAddr t) (headBytes w catch_ s.strokeNo reqAt rspAt)).wrBytes (txAddr (t + 1)) l).mem
      ∧ (s.place t w catch_).chn.own = s.chn.own ++ [(t, w.cls)] ∧ (s.place t w catch_).regs = s.regs := by
  unfold State.place
  dsimp only
  rw [← headBytes]
  refine ⟨(s.sharedReq w.req).getD (if w.req = [] then 0xFFFF else t + 1), if (s.entriesFor w.req w.rspLen).2 = 0 then 0xFFFF else t + 1 + (s.entriesFor w.req w.rspLen).1,
    if (s.entriesFor w.req w.rspLen).1 = 0 then [] else w.req, ?_, ?_⟩
  · split
    · exact Nat.zero_le _
    · exact Nat.le_refl _
  · generalize headBytes _ _ _ _ _ = head
    generalize (if (s.entriesFor w.req w.rspLen).1 = 0 then ([] : List Byte) else w.req) = l
    have hregs : ((s.wrBytes (txAddr t) head).wrBytes (txAddr (t + 1)) l).regs = s.regs := by rw [State.wrBytes_regs, State.wrBytes_regs]
    have hchn : ((s.wrBytes (txAddr t) head).wrBytes (txAddr (t + 1)) l).chn = s.chn := by rw [State.wrBytes_chn, State.wrBytes_chn]
    generalize (s.wrBytes (txAddr t) head).wrBytes (txAddr (t + 1)) l = u at hregs hchn ⊢
    rw [hchn]
    split <;> exact ⟨rfl, rfl, hregs⟩

/-- A transaction that finds entries gets its QUEUED head. -/
theorem State.enqueue_placed {s : State} {w : Wanted} {c t : Nat} (h : s.room w.seat w.paths w.req w.rspLen = some t) : s.enqueue w c = s.place t w c := by
  rw [State.enqueue, h]

theorem State.strokeNo_lt (s : State) : s.strokeNo < 256 ^ 4 := (s.rd Reg.STK_NUM).isLt

theorem leNat_u8 {v : Nat} (h : v < 256) : leNat (u8 v) = v := leNat_leBytes_of_lt (n := 1) (by omega)

theorem placedHead {s : State} {w : Wanted} {c t : Nat} (htype : w.type < 256) (hseat : w.seat < 256) (hpaths : w.paths < 4) (hreq : w.req.length < 256) (hrsp : w.rspLen < 256) :
    let u := s.place t w c
    u.hd t 0 1 = txQueued ∧ u.hd t 1 1 = w.type ∧ u.hd t 2 1 = w.seat ∧ u.hd t 3 1 = w.paths ∧ u.hd t 4 2 = c % 65536 ∧ u.hd t 6 1 = w.req.length
      ∧ u.hd t 7 1 = w.rspLen ∧ u.hd t 8 4 = s.strokeNo ∧ u.chn.own = s.chn.own ++ [(t, w.cls)] ∧ u.regs = s.regs := by
  obtain ⟨reqAt, rspAt, l, hl, hmem, hown, hregs⟩ := s.place_shows t w c
  have hhd {off n : Nat} (h : off + n ≤ 32) : (s.place t w c).hd t off n = leNat (((headBytes w c s.strokeNo reqAt rspAt).drop off).take n) :=
    (State.hd_of_mem hmem t off n).trans (State.hd_headBytes s t w c _ _ _ (by omega) h)
  refine ⟨?_, ?_, ?_, ?_, ?_, ?_, ?_, ?_, hown, hregs⟩ <;> rw [hhd (by decide)]
  · rfl
  · exact leNat_u8 htype
  · exact leNat_u8 hseat
  · exact leNat_u8 (by omega)
  · exact leNat_leBytes 2 c
  · exact leNat_u8 hreq
  · exact leNat_u8 hrsp
  · exact leNat_leBytes_of_lt (State.strokeNo_lt s)

/-! Responses (R180, R197, R198, R203) -/

/-- The last answer that a tag keeps is the one kept last. -/
theorem State.gotOf_keepGot (s : State) (t : Nat) (f : Option Frame) : (s.keepGot t f).gotOf t = f := by
  have hnone : (s.chn.got.filter (fun (g : Nat × Frame) => decide (g.1 ≠ t))).find? (fun g => decide (g.1 = t)) = none := by
    rw [List.find?_eq_none]
    intro g hg
    simpa using (List.mem_filter.mp hg).2
  unfold State.gotOf State.keepGot State.setChn
  cases f with
  | none => rw [List.append_nil, hnone]; rfl
  | some f => rw [List.find?_append, hnone, Option.none_or, List.find?_cons_of_pos (by simp)]; rfl

theorem State.gotOf_keepGot_none (s : State) (t : Nat) : ((s.chn.got.filter (fun g => decide (g.1 ≠ t))).find? (fun g => decide (g.1 = t))).map (fun g => g.2) = none := by
  rw [Option.map_eq_none_iff, List.find?_eq_none]
  intro g hg
  simpa using (List.mem_filter.mp hg).2

theorem State.lateResponse_regs (s : State) (f : Frame) : RegsBut s (s.lateResponse f) [Reg.TXT_LATE, Reg.TXT_IRQ] := by
  unfold State.lateResponse
  exact RegsBut.ite (fun _ => ((RegsBut.refl s _).incSat _ _ _ (by decide)).setBit _ _ (by decide)) fun _ => RegsBut.refl s _

theorem State.lateResponse_eq (s : State) (f : Frame) : s.lateResponse f = { s with regs := (s.lateResponse f).regs } := by
  unfold State.lateResponse
  dsimp only
  split <;> rfl

/-- The state in which a response to a transaction in flight is judged. -/
def State.heard (s : State) (dir : RingPort) (ok : Bool) (f : Frame) (us : Nat) : State :=
  (if ok then (s.atUs us).lateResponse f else s.atUs us).setReady (portB dir) (us + 2)

theorem State.heard_regs (s : State) (dir : RingPort) (ok : Bool) (f : Frame) (us : Nat) : RegsBut s (s.heard dir ok f us) lateRegs := by
  have hat : RegsBut s (s.atUs us) lateRegs := (RegsBut.refl s _).atUs _ (by decide)
  have hlate := hat.trans (((s.atUs us).lateResponse_regs f).mono (m := lateRegs) (by decide))
  unfold State.heard
  cases ok <;> cases dir
  · exact hat
  · exact hat
  · exact hlate
  · exact hlate

theorem State.heard_eq (s : State) (dir : RingPort) (ok : Bool) (f : Frame) (us : Nat) :
    s.heard dir ok f us = { s with regs := (s.heard dir ok f us).regs, chn := { s.chn with readyA := (s.heard dir ok f us).chn.readyA, readyB := (s.heard dir ok f us).chn.readyB } } := by
  unfold State.heard
  cases ok
  · cases dir <;> rfl
  · rw [if_pos rfl, State.lateResponse_eq]
    cases dir <;> rfl

/-- A response that comes after a flight was begun is judged by time, CRC, SEAT, TAG and TYPE. -/
theorem doChainResponse_judged {s : State} {dir : RingPort} {raw : List Byte} {ok : Bool} {f : Frame} {us t : Nat} (hraw : recvChain raw = some (ok, f))
    (hrsp : ok = true → f.flag flagRsp = true) (hfly : s.fly dir = some t) : doChainResponse s dir raw us =
      let u := s.heard dir ok f us
      if u.gather < us then (u.incSat Reg.CHN_CNTLATE 0 16 1).chainEnd t 5
      else if !ok then (u.incSat Reg.CHN_CNTCRC 0 16 1).chainFail t (portB dir) 3 none
      else if !u.answers t (u.expectSeat t) f then u.chainFail t (portB dir) 3 none
      else if nakRetried f then (u.noteNak t f).chainFail t (portB dir) 4 (some (us, f))
      else if isNak f then ((u.noteNak t f).fillChain t us f).chainEnd t 4
      else (u.fillChain t us f).chainEnd t 1 := by
  have hgoes : ¬(ok = true ∧ (!f.flag flagRsp) = true) := by
    rintro ⟨hok, hf⟩
    rw [hrsp hok] at hf
    exact absurd hf (by decide)
  have hfly' : (if ok then (s.atUs us).lateResponse f else s.atUs us).fly dir = some t := by
    rw [← hfly]
    cases ok
    · cases dir <;> rfl
    · rw [if_pos rfl, State.lateResponse_eq]
      cases dir <;> rfl
  unfold doChainResponse
  simp only [hraw]
  rw [if_neg hgoes]
  simp only [hfly']
  rfl

/-- The data of a response does not reach into the head of its own tag (Table 8-9). -/
def dataApart (s : State) (t : Nat) : Prop :=
  s.hd t 0xE 2 = 0xFFFF ∨ (s.hd t 0xE 2 + dataCount (s.hd t 7 1) ≤ 32768 ∧ (t % 32768 < s.hd t 0xE 2 ∨ s.hd t 0xE 2 + dataCount (s.hd t 7 1) ≤ t % 32768))

/-- A head that an answer stamps, before its data. -/
def State.stamped (s : State) (t us : Nat) (f : Frame) : State := ((s.keepGot t (some f)).setHd t 0x10 2 us).setHd t 0x18 1 f.payload.length

theorem State.keepGot_mem (s : State) (t : Nat) (f : Option Frame) : (s.keepGot t f).mem = s.mem := rfl

theorem State.hd_stamped {s : State} {t us : Nat} {f : Frame} {off n : Nat} (h : off + n ≤ 0x10) : (s.stamped t us f).hd t off n = s.hd t off n := by
  rw [State.stamped, State.hd_setHd_other _ _ _ (by omega), State.hd_setHd_other _ _ _ (by omega), State.hd_of_mem (s.keepGot_mem t (some f))]

/-- An answer no longer than awaited fills in the time, the length and the data of its transaction. -/
theorem State.fillChain_shows {s : State} {t us : Nat} {f : Frame} (hus : us < 2 ^ 15) (hlen : f.payload.length ≤ s.hd t 7 1) (hapart : dataApart s t) : let u := s.fillChain t us f
    u.hd t 0x10 2 = us ∧ u.hd t 0x18 1 = f.payload.length ∧ u.gotOf t = some f
      ∧ (s.hd t 0xE 2 ≠ 0xFFFF → ∀ i, i < f.payload.length → u.rdB (txAddr (s.hd t 0xE 2) + i) = f.payload.getD i 0) ∧ u.regs = s.regs ∧ u.rad = s.rad ∧ u.est = s.est := by
  have hshort : f.payload.length < 256 := Nat.lt_of_le_of_lt hlen (s.hd_lt t 7 1)
  have htime : (s.stamped t us f).hd t 0x10 2 = us := by
    rw [State.stamped, State.hd_setHd_other _ _ _ (by omega), State.hd_setHd_self _ _ _ (by omega)]
  have hsize : (s.stamped t us f).hd t 0x18 1 = f.payload.length := State.hd_setHd_self _ _ _ (by omega)
  have hgot : (s.stamped t us f).chn = (s.keepGot t (some f)).chn := by
    rw [State.stamped, State.setHd, State.st_chn, State.setHd, State.st_chn]
  have hregs : (s.stamped t us f).regs = s.regs := by rw [State.stamped, State.setHd, State.st_regs, State.setHd, State.st_regs]; rfl
  have hrad : (s.stamped t us f).rad = s.rad := by rw [State.stamped, State.setHd, State.st_rad, State.setHd, State.st_rad]; rfl
  have hest : (s.stamped t us f).est = s.est := by rw [State.stamped, State.setHd, State.st_est, State.setHd, State.st_est]; rfl
  have hall : f.payload.take (32 * dataCount ((s.stamped t us f).hd t 7 1)) = f.payload := by
    rw [State.hd_stamped (by decide)]
    exact List.take_of_length_le (by unfold dataCount; omega)
  have hfill : s.fillChain t us f = if (s.stamped t us f).hd t 0xE 2 = 0xFFFF then s.stamped t us f else (s.stamped t us f).wrBytes (txAddr ((s.stamped t us f).hd t 0xE 2))
    (f.payload.take (32 * dataCount ((s.stamped t us f).hd t 7 1))) := rfl
  rw [hall, State.hd_stamped (by decide)] at hfill
  have hkeep {u : State} (h : u.chn = (s.stamped t us f).chn) : u.gotOf t = some f := by
    have hlast := s.gotOf_keepGot t (some f)
    rw [State.gotOf] at hlast ⊢
    rw [h, hgot]
    exact hlast
  dsimp only
  rw [hfill]
  generalize s.stamped t us f = v at htime hsize hregs hrad hest hkeep
  obtain hdata | ⟨hin, hout⟩ := hapart
  · rw [if_pos hdata]
    exact ⟨htime, hsize, hkeep rfl, fun h => absurd hdata h, hregs, hrad, hest⟩
  · rw [if_neg (by omega)]
    have hcount : f.payload.length ≤ 32 * dataCount (s.hd t 7 1) := by unfold dataCount; omega
    refine ⟨?_, ?_, hkeep (State.wrBytes_chn ..), fun _ i hi => ?_, ?_, ?_, ?_⟩
    · rw [State.hd, State.ld_wrBytes_out _ _ _ _ (by unfold txAddr; omega)]
      exact htime
    · rw [State.hd, State.ld_wrBytes_out _ _ _ _ (by unfold txAddr; omega)]
      exact hsize
    · rw [State.rdB_wrBytes_in _ _ _ _ hi, List.getD_eq_getElem _ _ hi]
    · rw [State.wrBytes_regs, hregs]
    · rw [State.wrBytes_rad, hrad]
    · rw [State.wrBytes_est, hest]

/-! Retries (R198) -/

/-- Whether an attempt is retried does not rest on the counter of timeouts. -/
theorem State.retries_countTimeout (s : State) (t : Nat) (dirB : Bool) : (s.incSat Reg.CHN_CNTTMO 0 16 1).retries t dirB = s.retries t dirB := by
  have hfld {a : Nat} (lo w : Nat) (h : Reg.CHN_CNTTMO ≠ a) : (s.incSat Reg.CHN_CNTTMO 0 16 1).fld a lo w = s.fld a lo w := State.fld_incSat_ne _ _ _ _ _ _ h
  have hhops : (s.incSat Reg.CHN_CNTTMO 0 16 1).hops dirB = s.hops dirB := by
    rw [State.hops, State.hops, State.ring, State.ring, hfld _ _ (by decide), hfld _ _ (by decide), hfld _ _ (by decide)]
    rfl
  have hready : (s.incSat Reg.CHN_CNTTMO 0 16 1).ready dirB = s.ready dirB := by
    rw [State.ready, State.ready, State.us, State.us, hfld _ _ (by decide)]
    rfl
  have hgather : (s.incSat Reg.CHN_CNTTMO 0 16 1).gather = s.gather := by
    rw [State.gather, State.gather, State.point, State.point, State.period, State.period, hfld _ _ (by decide)]
  rw [State.retries, State.retries, State.fits, State.fits, State.tRead, State.tRead, hhops, hready, hgather, hfld _ _ (by decide)]
  rfl

/-- The line of a frame sent in a direction, where its port is on. -/
def State.sentLine (s : State) (dirB : Bool) (f : Frame) : List (List Byte) :=
  if s.portOn dirB then [({ f with flags := f.flags + if dirB then flagDirB else 0 } : Frame).line] else []

theorem State.sendOn_eq (s : State) (dirB : Bool) (f : Frame) : s.sendOn dirB f = { s with
    chn := { s.chn with
      sentA := if dirB then s.chn.sentA else s.chn.sentA ++ s.sentLine dirB f
      sentB := if dirB then s.chn.sentB ++ s.sentLine dirB f else s.chn.sentB } } := by
  unfold State.sendOn State.sentLine
  cases hon : s.portOn dirB
  · cases dirB <;> simp
  · cases dirB <;> rfl

/-- The registers and the head of a retry, before it is sent. -/
def State.retryCounted (s : State) (t us : Nat) : State :=
  ((((s.atUs us).incSat Reg.CHN_CNTTMO 0 16 1).keepGot t none).setHd t 0x15 1 (s.hd t 0x15 1 + 1)).incSat Reg.CHN_CNTRETRY 0 16 1

theorem State.fly_atUs (s : State) (dir : RingPort) (us : Nat) : (s.atUs us).fly dir = s.fly dir := by cases dir <;> rfl

theorem doChainTimeout_flying {s : State} {dir : RingPort} {t : Nat} (us : Nat) (h : s.fly dir = some t) :
    doChainTimeout s dir us = ((s.atUs us).incSat Reg.CHN_CNTTMO 0 16 1).chainFail t (portB dir) 2 none := by
  unfold doChainTimeout
  simp only [State.fly_atUs, h]

theorem doChainTimeout_retries {s : State} {dir : RingPort} {us t : Nat} (hfly : s.fly dir = some t) (h : (s.atUs us).retries t (portB dir) = true) :
    doChainTimeout s dir us = (s.retryCounted t us).sendTx t (portB dir) true := by
  rw [doChainTimeout_flying us hfly, State.chainFail, State.retries_countTimeout, if_pos h]
  rfl

theorem doChainTimeout_ends {s : State} {dir : RingPort} {us t : Nat} (hfly : s.fly dir = some t) (h : (s.atUs us).retries t (portB dir) = false) :
    doChainTimeout s dir us = (((s.atUs us).incSat Reg.CHN_CNTTMO 0 16 1).keepGot t none).chainEnd t 2 := by
  rw [doChainTimeout_flying us hfly, State.chainFail, State.retries_countTimeout, if_neg (by rw [h]; decide)]

theorem State.timeout_counted (s : State) (us : Nat) :
    ((s.atUs us).incSat Reg.CHN_CNTTMO 0 16 1).fld Reg.CHN_CNTTMO 0 16 = min (s.fld Reg.CHN_CNTTMO 0 16 + 1) 0xFFFF := by
  rw [State.fld_incSat_self _ _ (by decide), State.fld_atUs_ne _ _ _ _ (by decide)]
  rfl

theorem State.keepGot_none (s : State) (t : Nat) : s.keepGot t none = { s with chn := { s.chn with got := s.chn.got.filter (fun g => decide (g.1 ≠ t)) } } := by
  rw [State.keepGot, List.append_nil]
  rfl

/-- The timeout counted and the last answer forgotten, before the head counts its attempt. -/
def State.timedOut (s : State) (t us : Nat) : State := ((s.atUs us).incSat Reg.CHN_CNTTMO 0 16 1).keepGot t none

theorem State.timedOut_eq (s : State) (t us : Nat) : s.timedOut t us = { s with
    regs := (s.timedOut t us).regs, chn := { s.chn with got := s.chn.got.filter (fun g => decide (g.1 ≠ t)) } } := State.keepGot_none ..

theorem State.timedOut_regs (s : State) (t us : Nat) : RegsBut s (s.timedOut t us) [Reg.STK_PHASE, Reg.CHN_CNTTMO] :=
  ((((RegsBut.refl s _).atUs _ (by decide)).incSat _ _ _ (by decide)).trans (RegsBut.of_regs rfl))

/-- A retry counted: the head's attempts and the two counters go up, the last answer is forgotten. -/
theorem State.retryCounted_shows (s : State) (t us : Nat) (h : s.hd t 0x15 1 < 255) : let u := s.retryCounted t us
    u.hd t 0x15 1 = s.hd t 0x15 1 + 1 ∧ u.fld Reg.CHN_CNTTMO 0 16 = min (s.fld Reg.CHN_CNTTMO 0 16 + 1) 0xFFFF
      ∧ u.fld Reg.CHN_CNTRETRY 0 16 = min (s.fld Reg.CHN_CNTRETRY 0 16 + 1) 0xFFFF ∧ RegsBut s u [Reg.STK_PHASE, Reg.CHN_CNTTMO, Reg.CHN_CNTRETRY]
      ∧ (∀ off n, off + n ≤ 0x15 → u.hd t off n = s.hd t off n)
      ∧ u = { s with regs := u.regs, mem := u.mem, chn := { s.chn with got := s.chn.got.filter (fun g => decide (g.1 ≠ t)) } } := by
  have hcount := s.timeout_counted us
  have hregs := s.timedOut_regs t us
  have heq := s.timedOut_eq t us
  have hcount' : (s.timedOut t us).fld Reg.CHN_CNTTMO 0 16 = min (s.fld Reg.CHN_CNTTMO 0 16 + 1) 0xFFFF := hcount
  have hu : s.retryCounted t us = ((s.timedOut t us).setHd t 0x15 1 (s.hd t 0x15 1 + 1)).incSat Reg.CHN_CNTRETRY 0 16 1 := rfl
  rw [hu]
  generalize s.timedOut t us = v at hcount' hregs heq
  have hmem : v.mem = s.mem := (congrArg State.mem heq :)
  have hself := v.hd_setHd_self t 0x15 (n := 1) (v := s.hd t 0x15 1 + 1) (by omega)
  have hother (off n : Nat) (ho : off + n ≤ 0x15) : (v.setHd t 0x15 1 (s.hd t 0x15 1 + 1)).hd t off n = s.hd t off n :=
    (v.hd_setHd_other t _ (Or.inl ho)).trans (State.hd_of_mem hmem t off n)
  have hstore : v.setHd t 0x15 1 (s.hd t 0x15 1 + 1) = { v with mem := (v.setHd t 0x15 1 (s.hd t 0x15 1 + 1)).mem } := State.wrBytes_eq ..
  have hretry : v.fld Reg.CHN_CNTRETRY 0 16 = s.fld Reg.CHN_CNTRETRY 0 16 := State.fld_of_rd (hregs _ (by decide)) 0 16
  generalize v.setHd t 0x15 1 (s.hd t 0x15 1 + 1) = w at hself hother hstore
  have hw (a : Nat) : w.rd a = v.rd a := State.rd_of_regs (congrArg State.regs hstore :) a
  refine ⟨hself, ?_, ?_, ?_, fun off n ho => (State.hd_of_mem (State.incSat_mem ..) ..).trans (hother off n ho), ?_⟩
  · rw [State.fld_incSat_ne _ _ _ _ _ _ (by decide), State.fld_of_rd (hw _) 0 16, hcount']
  · rw [State.fld_incSat_self _ _ (by decide), State.fld_of_rd (hw _) 0 16, hretry]
    rfl
  · exact ((hregs.mono (by decide)).trans (fun a _ => hw a)).incSat _ _ _ (by decide)
  · rw [hstore, heq]
    rfl

/-- A retry goes out as its transaction's request, with TAG and CATCH kept and RETRY set. -/
theorem State.retrySent {s u : State} {t : Nat} {dir : RingPort} (hhd : ∀ off n, off + n ≤ 0x15 → u.hd t off n = s.hd t off n) (hport : u.portOn (portB dir) = s.portOn (portB dir))
    (heq : u = { s with regs := u.regs, mem := u.mem, chn := { s.chn with got := s.chn.got.filter (fun g => decide (g.1 ≠ t)) } }) :
    u.sendTx t (portB dir) true = sentRetry s u t dir
      { seat := s.hd t 2 1, type := s.hd t 1 1, tag := t, catchNo := s.hd t 4 2, flags := flagRetry + (if portB dir then flagDirB else 0), payload := u.reqOf t } := by
  rw [State.sendTx, State.sendOn_eq, State.sentLine, hport, hhd _ _ (by decide), hhd _ _ (by decide), hhd _ _ (by decide), sentRetry]
  generalize u.reqOf t = p
  generalize s.portOn (portB dir) = on
  generalize s.hd t 2 1 = x
  generalize s.hd t 1 1 = y
  generalize s.hd t 4 2 = z
  have hchn : u.chn = { s.chn with got := s.chn.got.filter (fun g => decide (g.1 ≠ t)) } := (congrArg State.chn heq :)
  rw [hchn]
  generalize u.regs = r at heq ⊢
  generalize u.mem = m at heq ⊢
  subst heq
  rfl

theorem State.gather_of_ctrl {s t : State} (h : t.rd Reg.STK_CTRL = s.rd Reg.STK_CTRL) : t.gather = s.gather := by
  rw [State.gather, State.gather, State.point, State.point, State.period, State.period, State.fld_of_rd h]

theorem State.heard_gather (s : State) (dir : RingPort) (ok : Bool) (f : Frame) (us : Nat) : (s.heard dir ok f us).gather = s.gather :=
  State.gather_of_ctrl (s.heard_regs dir ok f us _ (by decide))

theorem State.heard_mem (s : State) (dir : RingPort) (ok : Bool) (f : Frame) (us : Nat) : (s.heard dir ok f us).mem = s.mem := (congrArg State.mem (s.heard_eq dir ok f us) :)

/-- Whether a response is the one awaited rests on the table alone. -/
theorem State.answers_of_mem {s u : State} (h : u.mem = s.mem) (t : Nat) (f : Frame) : u.answers t (u.expectSeat t) f = s.answers t (s.expectSeat t) f := by
  have hbyte (a : Nat) : u.rdB a = s.rdB a := by rw [State.rdB, State.rdB, h]
  have hseat : u.expectSeat t = s.expectSeat t := by rw [State.expectSeat, State.expectSeat, State.hd_of_mem h, State.hd_of_mem h, hbyte]
  rw [State.answers, State.answers, hseat, State.hd_of_mem h, State.hd_of_mem h]

theorem doChainResponse_answered {s : State} {dir : RingPort} {raw : List Byte} {f : Frame} {us t : Nat} (hraw : recvChain raw = some (true, f)) (hrsp : f.flag flagRsp = true)
    (hfly : s.fly dir = some t) (hin : us ≤ s.gather) (hans : s.answers t (s.expectSeat t) f = true) (hnak : isNak f = false) :
    doChainResponse s dir raw us = ((s.heard dir true f us).fillChain t us f).chainEnd t 1 := by
  rw [doChainResponse_judged hraw (fun _ => hrsp) hfly]
  dsimp only
  rw [if_neg (by rw [State.heard_gather]; omega), if_neg (by decide), if_neg (by rw [State.answers_of_mem (s.heard_mem dir true f us), hans]; decide),
    if_neg (by rw [nakRetried, hnak, Bool.false_and]; decide), if_neg (by rw [hnak]; decide)]

theorem doChainResponse_late {s : State} {dir : RingPort} {raw : List Byte} {ok : Bool} {f : Frame} {us t : Nat} (hraw : recvChain raw = some (ok, f))
    (hrsp : ok = true → f.flag flagRsp = true) (hfly : s.fly dir = some t) (hlate : s.gather < us) :
    doChainResponse s dir raw us = ((s.heard dir ok f us).incSat Reg.CHN_CNTLATE 0 16 1).chainEnd t 5 := by
  rw [doChainResponse_judged hraw hrsp hfly]
  exact if_pos (by rw [State.heard_gather]; exact hlate)

theorem doChainResponse_discards {s : State} (dir : RingPort) {raw : List Byte} (us : Nat)
    (h : recvChain raw = none ∨ ∃ f, recvChain raw = some (true, f) ∧ f.flag flagRsp = false) : doChainResponse s dir raw us = s.atUs us := by
  obtain hnone | ⟨f, hsome, hflag⟩ := h
  · simp only [doChainResponse, hnone]
  · simp only [doChainResponse, hsome]
    exact if_pos ⟨trivial, by rw [hflag]; rfl⟩

/-- Settles O33: heads are read back from what was stored, and each response and timeout is taken to the branch that ends it. -/
theorem chainTransactions : Obligations.ChainTransactions := by
  unfold Obligations.ChainTransactions
  refine ⟨fun s w c t hroom htype hseat hpaths hreq hrsp => ?placed, fun s w c hroom => ?noRoom, fun s tag cls hawake hstate => ?badSubmit, fun s tag cls hawake hstate => ?submit,
    fun s dir raw us hraw => ?discarded, fun s dir raw f us t hus hraw hrsp hfly hin hans hnak hapart => ?answered, fun s dir raw ok f us t hus hraw hrsp hfly hlate => ?late,
    fun s dir us t hus hfly hretries => ?retried, fun s dir us t hus hfly hlast => ?ended, fun s hon hring => ?reads, fun s h => ?noReads⟩
  case placed =>
    rw [State.enqueue_placed hroom]
    exact placedHead htype hseat hpaths hreq hrsp
  case noRoom => rw [State.enqueue, hroom]; rfl
  case badSubmit =>
    refine Does.byRequester hawake rfl ?_
    rw [doChainSubmit, if_pos hstate]
    exact ⟨by rw [State.fld_incSat_self _ _ (by decide)]; rfl, (RegsBut.refl s _).incSat _ _ _ (by decide), SameMem.of_mem (State.incSat_mem ..), rfl⟩
  case submit =>
    refine (congrArg Host.Outcome.next (if_pos hawake)).trans (congrArg Host.Outcome.next ?_)
    exact if_neg (not_not_intro hstate)
  case discarded =>
    exact ⟨_, congrArg Host.Outcome.next (doChainResponse_discards dir us hraw), (RegsBut.refl s _).atUs _ (by decide), SameMem.of_mem rfl, rfl⟩
  case answered =>
    have heq := s.heard_eq dir true f us
    have hregs := s.heard_regs dir true f us
    have hmem := s.heard_mem dir true f us
    have hlen : f.payload.length ≤ s.hd t 7 1 := by
      rw [State.answers, hnak, Bool.false_or, Bool.and_eq_true, decide_eq_true_eq] at hans
      exact hans.2
    refine ⟨(s.heard dir true f us).fillChain t us f, congrArg Host.Outcome.next (doChainResponse_answered hraw hrsp hfly hin hans hnak), ?_⟩
    generalize s.heard dir true f us = v at heq hregs hmem
    have hhd (off n : Nat) : v.hd t off n = s.hd t off n := State.hd_of_mem hmem t off n
    obtain ⟨htime, hsize, hgot, hdata, hregs', hrad, hest⟩ := State.fillChain_shows (s := v) (f := f) (t := t) hus (by rwa [hhd]) (by simpa only [dataApart, hhd] using hapart)
    rw [hhd] at hdata
    exact ⟨htime, hsize, hgot, hdata, hregs.trans (RegsBut.of_regs hregs'), hrad.trans (congrArg State.rad heq :), hest.trans (congrArg State.est heq :)⟩
  case late =>
    have heq := s.heard_eq dir ok f us
    have hregs := s.heard_regs dir ok f us
    refine ⟨(s.heard dir ok f us).incSat Reg.CHN_CNTLATE 0 16 1, congrArg Host.Outcome.next (doChainResponse_late hraw hrsp hfly hlate), ?_⟩
    generalize s.heard dir ok f us = v at heq hregs
    refine ⟨?_, (hregs.mono fun _ h => List.mem_cons_of_mem _ h).incSat _ _ _ (by decide), SameMem.of_mem ?_, ?_⟩
    · rw [State.fld_incSat_self _ _ (by decide), State.fld_of_rd (hregs _ (by decide)) 0 16]
      rfl
    · rw [State.incSat_mem, heq]
    · exact (congrArg State.chn heq :)
  case retried =>
    have hfew : s.hd t 0x15 1 < 255 := by
      rw [State.retries, Bool.and_eq_true, decide_eq_true_eq] at hretries
      have hsame : (s.atUs us).hd t 0x15 1 = s.hd t 0x15 1 := State.hd_of_mem rfl ..
      omega
    obtain ⟨hattempts, htimeouts, hcount, hregs, hhd, heq⟩ := s.retryCounted_shows t us hfew
    refine ⟨_, congrArg Host.Outcome.next (doChainTimeout_retries hfly hretries), ?_⟩
    generalize s.retryCounted t us = u at hattempts htimeouts hcount hregs hhd heq
    have hport : u.portOn (portB dir) = s.portOn (portB dir) := State.bit_of_rd (hregs _ (by decide)) _
    have hsent := State.retrySent hhd hport heq
    have hregs' : (u.sendTx t (portB dir) true).regs = u.regs := (congrArg State.regs hsent :)
    have hmem' : (u.sendTx t (portB dir) true).mem = u.mem := (congrArg State.mem hsent :)
    refine ⟨(State.hd_of_mem hmem' ..).trans hattempts, (State.fld_of_regs hregs' ..).trans htimeouts, (State.fld_of_regs hregs' ..).trans hcount, ?_, ⟨u.reqOf t, ?_⟩,
      hregs.trans (RegsBut.of_regs hregs')⟩
    · rw [State.gotOf, (congrArg (fun v => v.chn.got) hsent : (u.sendTx t (portB dir) true).chn.got = s.chn.got.filter (fun g => decide (g.1 ≠ t)))]
      exact s.gotOf_keepGot_none t
    · rw [sentRetry, hregs', hmem', hsent, sentRetry]
  case ended =>
    have hno : (s.atUs us).retries t (portB dir) = false := by
      have hmax : (s.atUs us).fld Reg.CHN_RETRY 0 2 = s.fld Reg.CHN_RETRY 0 2 := State.fld_atUs_ne _ _ _ _ (by decide)
      have hsame : (s.atUs us).hd t 0x15 1 = s.hd t 0x15 1 := State.hd_of_mem rfl ..
      rw [State.retries, hmax, hsame, decide_eq_false (by omega), Bool.false_and]
    exact ⟨s.timedOut t us, congrArg Host.Outcome.next (doChainTimeout_ends hfly hno), s.timeout_counted us, State.gotOf_keepGot .., s.timedOut_regs t us, SameMem.of_mem rfl⟩
  case reads =>
    have hgoes : ¬(!s.camlanOn ∨ s.ring = ringDown ∨ s.ring = ringEnum) := by
      rw [hon]
      obtain h | h := hring <;> rw [h] <;> decide
    exact congrArg Host.Outcome.next (if_neg hgoes)
  case noReads => exact congrArg Host.Outcome.next (if_pos (by simpa using h))

end Sys2Proof.Machine
end

section
/-!
PROOFS. The commands that only read and those that operate the part (Tables 14-3 and 14-6; R104, R106, R130, R147, R149, R220, R284): a reading command is the reply of its record, and what ship mode, hibernation, suspensions, pairings and the charger's commands leave. They settle O47.
-/

namespace Sys2Proof.Machine

/-! Lines and the state they are read in -/

/-- What a taken line changes reaches no record that a command reads but the console's own. -/
theorem lineTaken_of {α : Type} (f : State → α) (s : State) (p : Nat) (hf : ∀ c0 c1 cam, f { s with con0 := c0, con1 := c1, cam := cam } = f s) : f (lineTaken s p) = f s := by
  obtain ⟨c0, c1, cam, h⟩ := lineTaken_eq s p
  rw [h]
  exact hf c0 c1 cam

/-- A report on a waiting line is its reply. -/
theorem State.report_of_lineWaits {s : State} {p : Nat} {tag : Option String} (f : State → List String) (h : lineWaits s p tag) :
    s.report p f = (lineTaken s p).say p tag (f (lineTaken s p)) := State.ianel_of_lineWaits _ h rfl

theorem State.conServed_atUs (s : State) (us p : Nat) : (s.atUs us).conServed p = s.conServed p := State.conServed_of_parts rfl p

theorem State.con_atUs (s : State) (us p : Nat) : (s.atUs us).con p = s.con p := State.con_eq_of rfl rfl p

theorem State.camlanOn_atUs (s : State) (us : Nat) : (s.atUs us).camlanOn = s.camlanOn := State.camlanOn_congr rfl (State.rd_atUs_ne s us (by decide))

theorem lineWaits_atUs {s : State} {p : Nat} {tag : Option String} (us : Nat) (h : lineWaits s p tag) : lineWaits (s.atUs us) p tag := by
  obtain ⟨hon, hserved, hstarting, rest, hready⟩ := h
  exact ⟨(State.camlanOn_atUs s us).trans hon, (s.conServed_atUs us p).trans hserved, (State.starting_of_cam rfl).trans hstarting, rest,
    by rw [State.con_atUs, hready]⟩

theorem State.sayStart_noteService (s : State) (p : Nat) : (s.noteService p).sayStart = s.sayStart := by
  unfold State.noteService
  split <;> rfl

theorem doShowStart_waits {s : State} {p us : Nat} {tag : Option String} (h : lineWaits s p tag) :
    doShowStart s p us = (lineTaken (s.atUs us) p).say p tag (lineTaken (s.atUs us) p).sayStart := by
  have hat := lineWaits_atUs us h
  obtain ⟨hon, hserved, -, -⟩ := h
  obtain ⟨-, -, -, rest, hready⟩ := hat
  rw [lineTaken, State.sayStart_noteService, State.takeLine_of_ready hready]
  unfold doShowStart
  rw [hon, hserved, State.takeLine_of_ready hready]
  rfl

theorem readingCommandsReply_holds : readingCommandsReply := by
  unfold readingCommandsReply
  intro s p tag h
  have reply (f : State → List String) : done (s.report p f) = done ((lineTaken s p).say p tag (f (lineTaken s p))) := congrArg done (State.report_of_lineWaits f h)
  have hnv : (lineTaken s p).nv = s.nv := lineTaken_of State.nv s p fun _ _ _ => rfl
  have hstaged : (lineTaken s p).stagedCfg = s.stagedCfg := by rw [State.stagedCfg, State.stagedCfg, hnv]
  have hlines : (lineTaken s p).stageLines = s.stageLines := by rw [State.stageLines, State.stageLines, hstaged, hnv]
  refine ⟨reply _, reply _, fun i _ => reply _, fun n => reply _, reply _, reply _, reply _, reply _, reply _, reply _, reply _, reply _, reply _, reply _, reply _, reply _,
    fun us => congrArg Host.Outcome.next (doShowStart_waits h), fun keys hkeys => ?_, ?_, fun hstage => ?_, fun hstage => ?_, ?_, reply _, reply _⟩
  · refine (reply _).trans (congrArg (fun l => done ((lineTaken s p).say p tag l)) ?_)
    rw [State.sayGet, if_neg hkeys, hnv]
  · refine (reply _).trans (congrArg (fun l => done ((lineTaken s p).say p tag l)) ?_)
    rw [State.checkNow, State.checkNow, hstaged, hnv]
  · refine (reply _).trans (congrArg (fun l => done ((lineTaken s p).say p tag l)) ?_)
    rw [hnv, if_neg hstage, hlines]
  · refine (reply _).trans (congrArg (fun l => done ((lineTaken s p).say p tag l)) ?_)
    rw [hnv, if_pos hstage]
  · refine (reply _).trans (congrArg (fun l => done ((lineTaken s p).say p tag l)) ?_)
    rw [hstaged]

/-! What the tally keeps of the non-volatile store (R360, R362) -/

/-- Entries of the tally change its own records of the non-volatile store alone. -/
abbrev TallyNv (s t : State) : Prop :=
  t.nv = { s.nv with tally := t.nv.tally, tallyActive := t.nv.tallyActive, tallyGen := t.nv.tallyGen, tallyNext := t.nv.tallyNext }

theorem TallyNv.trans {s t u : State} (h : TallyNv s t) (k : TallyNv t u) : TallyNv s u := by
  rw [TallyNv, k, h]

theorem TallyNv.of_nv {s t : State} (h : t.nv = s.nv) : TallyNv s t := by rw [TallyNv, h]

theorem TallyNv.ite {s t u : State} {c : Prop} [Decidable c] (h : TallyNv s t) (k : TallyNv s u) : TallyNv s (if c then t else u) := by
  split
  · exact h
  · exact k

theorem TallyNv.foldl {α : Type} (f : State → α → State) (hf : ∀ t x, TallyNv t (f t x)) (l : List α) (s : State) : TallyNv s (l.foldl f s) := by
  induction l generalizing s with
  | nil => rfl
  | cons x l ih => exact (hf s x).trans (ih _)

theorem State.tallyAppend_nv (s : State) (id v : Nat) : TallyNv s (s.tallyAppend id v) := by
  rw [TallyNv, State.tallyAppend, State.wrBytes_nv]

theorem State.eraseMilestone_nv (s : State) (sector n : Nat) : (s.eraseMilestone sector n).nv = s.nv := by
  unfold State.eraseMilestone
  split
  · exact State.logS_nv ..
  · rfl

theorem State.tallyCompact_nv (s : State) : TallyNv s s.tallyCompact := by
  unfold State.tallyCompact
  dsimp only
  refine TallyNv.trans ?_ (TallyNv.of_nv ((State.eraseMilestone_nv ..).trans ((State.logS_nv ..).trans (State.wrBytes_nv ..))))
  refine TallyNv.trans ?_ (TallyNv.foldl _ (fun t id => t.tallyAppend_nv id _) _ _)
  rfl

theorem State.tallyWrite_nv (s : State) (id v : Nat) : TallyNv s (s.tallyWrite id v) :=
  (TallyNv.ite s.tallyCompact_nv rfl).trans (State.tallyAppend_nv _ _ _)

theorem State.tallyCommit_nv (s : State) : TallyNv s s.tallyCommit :=
  TallyNv.trans (t := { s with tally := { s.tally with acc := [] } }) rfl (TallyNv.foldl _ (fun t _ => TallyNv.ite rfl (t.tallyWrite_nv _ _)) _ _)

/-! Ship mode (R149) -/

/-- Entering ship mode with its key. -/
theorem doShipEnter_keyed (s : State) : doShipEnter s (wordOf (0x53480000 + 1)) =
    { (s.coreOff.setFld Reg.KPA_AUXST 0 3 0).toCharge cOff with power := { ((s.coreOff.setFld Reg.KPA_AUXST 0 3 0).toCharge cOff).power with phase := .shipMode } } :=
  if_pos (by decide)

theorem State.toCharge_nv (s : State) (n : Nat) : (s.toCharge n).nv = s.nv := (congrArg State.nv (s.toCharge_eq n) :)

theorem State.rdN_toCharge (s : State) (n : Nat) {a : Nat} (h : a ∉ Reg.KPA_CHGST :: sourceShown) : (s.toCharge n).rdN a = s.rdN a := by
  by_cases hn : s.chg = n
  · rw [State.toCharge_self hn]
  · rw [State.rdN_of_rd (State.toCharge_regs hn a fun ha => h (List.mem_cons_of_mem _ ha)), State.rdN_setFld_ne _ _ _ _ (fun he : Reg.KPA_CHGST = a => h (he ▸ List.mem_cons_self))]

theorem State.shore_nv (s : State) (reason : Nat) : ∃ seq, (s.shore reason).nv = { s.nv with shoreSeq := seq } := by
  unfold State.shore
  dsimp only
  split
  · exact ⟨_, by rw [State.shoreWrite_eq]; rfl⟩
  · have hlog (c : Prop) [Decidable c] (l : List Byte) : (if c then s.logS 0x1007 l else s).nv = s.nv := by
      split
      · exact State.logS_nv ..
      · rfl
    exact ⟨s.nv.shoreSeq, hlog _ _⟩

theorem State.coreOff_nv (s : State) : s.coreOff.nv = s.nv := (State.coreOff_kept (Kept.refl false false false s)).nvSame rfl

/-- The state in which `ship` enters ship mode: the reply, the shore record, code 0x060A and the committed tally. -/
def State.shipReady (s : State) (p : Nat) (tag : Option String) : State :=
  (((s.say p tag ["ship in=10"]).shore 3).logS 0x060A (u16 s.kbatMv)).tallyCommit

theorem State.shipReady_confirmed (s : State) (p : Nat) (tag : Option String) : (s.shipReady p tag).nv.confirmed = s.nv.confirmed := by
  unfold State.shipReady
  obtain ⟨seq, hshore⟩ := (s.say p tag ["ship in=10"]).shore_nv 3
  generalize (s.say p tag ["ship in=10"]).shore 3 = u at hshore
  have htally := (u.logS 0x060A (u16 s.kbatMv)).tallyCommit_nv
  generalize (u.logS 0x060A (u16 s.kbatMv)).tallyCommit = v at htally
  rw [htally, State.logS_nv, hshore, State.say_nv]

theorem State.shipMode_shows (s : State) : let t := doShipEnter s (wordOf (0x53480000 + 1))
    t.power.phase = .shipMode ∧ t.rdN Reg.CTR_OUT = 0 ∧ t.nv = s.nv := by
  dsimp only
  rw [doShipEnter_keyed]
  refine ⟨rfl, ?_, ?_⟩
  · rw [State.rdN_mk, State.rdN_toCharge _ _ (by decide), State.rdN_setFld_ne _ _ _ _ (by decide), State.coreOff_out]
  · exact (State.toCharge_nv ..).trans ((State.setFld_nv ..).trans s.coreOff_nv)

/-! Suspension and the helm (R104) -/

theorem State.holder_freeHelm (s : State) (cause : Nat) : (s.freeHelm cause).cam.helm.holder = 0xFF := by
  unfold State.freeHelm
  dsimp only
  split
  case isTrue h => exact h
  case isFalse =>
    have hset : (s.setHelm Helm.free cause).cam.helm.holder = 0xFF := by rw [State.setHelm, State.logS0_cam]; rfl
    split
    · rw [State.notice_cam]
      exact hset
    · exact hset

theorem State.holder_freeHelmOf (s : State) {src : Nat} (cause : Nat) (h : src ≠ 0xFF) : (s.freeHelmOf src cause).cam.helm.holder ≠ src := by
  unfold State.freeHelmOf
  split
  case isFalse hother => exact hother
  case isTrue => rw [State.holder_freeHelm]; exact h.symm

theorem State.flushGranted_cam (s : State) (k : Nat) (l : List Nat) : (l.foldl (fun u n => if u.granted k .misc n then u.flushQsel n else u) s).cam = s.cam := by
  refine List.foldlRecOn _ _ (motive := fun u : State => u.cam = s.cam) rfl fun u hu n _ => ?_
  split
  · exact (congrArg State.cam (u.flushQsel_frame n).1 :).trans hu
  · exact hu

theorem State.canDisable_cam (s : State) (x mask : Nat) : (s.canDisable x mask).cam = s.cam := (congrArg State.cam (s.txAbort_frame x mask).1 :)

/-- After a suspension the partition does not hold the helm. -/
theorem State.suspend_holder (s : State) {k : Nat} (cause : Nat) (hk : k ≤ 7) : (s.suspend k cause).cam.helm.holder ≠ 0x20 + k := by
  unfold State.suspend
  dsimp only
  rw [State.logSK_cam]
  generalize hv : State.gpioSafe _ _ = v
  have hcam : v.cam.helm.holder ≠ 0x20 + k := by
    rw [← hv, (congrArg State.cam (State.gpioSafe_frame _ _).1 :), State.flushGranted_cam, State.canDisable_cam, State.canDisable_cam]
    exact State.holder_freeHelmOf _ _ (by omega)
  split
  · rw [(congrArg State.cam (State.showCon_frame _ 1).1 :)]
    exact hcam
  · exact hcam

/-! Pairing (R220) -/

theorem State.ensureNetwork_shows (s : State) : let t := s.ensureNetwork
    t.nv.rad.netKey ≠ [] ∧ t.nv.confirmed = s.nv.confirmed ∧ t.rad = s.rad := by
  unfold State.ensureNetwork
  dsimp only
  split
  case isTrue h => exact ⟨h, rfl, rfl⟩
  case isFalse h =>
    rw [State.logS_nv, State.logS_rad, State.wrN_nv, State.wrN_rad]
    exact ⟨by simp, rfl, rfl⟩

theorem State.keyLoad_shows (s : State) (n keyId : Nat) (asker : Origin) : let t := s.keyLoad n keyId asker
    (∃ x : PairSt, x.seat = n ∧ t.rad.pairs = s.rad.pairs.filter (fun p => decide (p.seat ≠ n)) ++ [x]) ∧ t.nv = s.nv := by
  unfold State.keyLoad
  dsimp only
  generalize u8 keyId ++ _ ++ _ ++ _ ++ _ ++ _ ++ _ ++ _ = req
  generalize hx : (⟨n, keyId, _, none, asker⟩ : PairSt) = x
  have h := State.issue_issue (s.free.2.setRad { s.free.2.rad with pairs := s.free.2.rad.pairs.filter (fun p => decide (p.seat ≠ n)) ++ [x] }) 0x40 n 1
    (s.free.2.strokeNo % 65536) req 8 2
  exact ⟨⟨x, by rw [← hx], (congrArg RadSt.pairs h.rad :)⟩, (congrArg State.nv h.eq :)⟩

/-- A pairing of a seat that may be paired loads a key for it, on a network that has one; the confirmed configuration stays. -/
theorem State.pairOne_shows {s : State} {n : Nat} (asker : Origin) (more : Bool) (hmay : s.mayPair n = true) (hnone : s.rad.pairs = []) : let t := s.pairOne asker more n
    t.rad.pairs.map (fun x => x.seat) = [n] ∧ t.nv.rad.netKey ≠ [] ∧ t.nv.confirmed = s.nv.confirmed := by
  unfold State.pairOne
  rw [if_neg (by rw [hmay]; decide)]
  dsimp only
  obtain ⟨hkey, hconf, hrad⟩ := (s.applyAt .pairing).ensureNetwork_shows
  generalize (s.applyAt .pairing).ensureNetwork = u at hkey hconf hrad
  generalize (((u.nv.rad.seats.find? (fun k => decide (k.1 = n))).map (fun k => k.2.1)).getD 0 + 1) % 256 = keyId
  obtain ⟨⟨x, hx, hpairs⟩, hnv⟩ := u.keyLoad_shows n keyId asker
  have hempty : u.rad.pairs = [] := (congrArg RadSt.pairs hrad :).trans hnone
  refine ⟨?_, by rwa [hnv], by rw [hnv, hconf]; rfl⟩
  rw [hpairs, hempty, List.filter_nil, List.nil_append, List.map_singleton, hx]

/-! The commands on a waiting line -/

section
variable {s : State} {p : Nat} {tag : Option String}

theorem State.isIplus_of {l : Level} (h : l = .installer ∨ l = .service) : l.isIplus = true := by
  obtain rfl | rfl := h <;> rfl

theorem doShip_refused {c : String} (h : lineWaits s p tag) (hlvl : (s.con p).level = .installer ∨ (s.con p).level = .service) (hbar : s.shipBar = some c) :
    doShip s p = (lineTaken s p).say p tag [errLine 16 ("cond=" ++ c)] := by
  have hbar' : (lineTaken s p).shipBar = some c := (lineTaken_of State.shipBar s p fun _ _ _ => rfl).trans hbar
  rw [doShip, State.ianel_of_lineWaits _ h (State.isIplus_of hlvl)]
  simp only [hbar']

theorem doShip_ships (h : lineWaits s p tag) (hlvl : (s.con p).level = .installer ∨ (s.con p).level = .service) (hbar : s.shipBar = none) :
    doShip s p = doShipEnter ((lineTaken s p).shipReady p tag) (wordOf (0x53480000 + 1)) := by
  have hbar' : (lineTaken s p).shipBar = none := (lineTaken_of State.shipBar s p fun _ _ _ => rfl).trans hbar
  rw [doShip, State.ianel_of_lineWaits _ h (State.isIplus_of hlvl)]
  simp only [hbar']
  rfl

theorem doSuspend_suspends {k : Nat} (h : lineWaits s p tag) (hlvl : (s.con p).level = .installer ∨ (s.con p).level = .service) (hlo : 1 ≤ k) (hhi : k ≤ 7)
    (hstate : s.partState k = pRunning ∨ s.partState k = pVerifying) : doSuspend s p k = ((lineTaken s p).suspend k 7).say p tag ["ok"] := by
  have hpart : (lineTaken s p).partState k = s.partState k := lineTaken_of (fun u => u.partState k) s p fun _ _ _ => rfl
  rw [doSuspend, State.ianel_of_lineWaits _ h (State.isIplus_of hlvl), hpart, if_neg (by omega), if_neg (by obtain h | h := hstate <;> rw [h] <;> decide),
    if_neg (by obtain h | h := hstate <;> rw [h] <;> decide)]

theorem doResume_judged {k : Nat} (h : lineWaits s p tag) (hlvl : (s.con p).level = .installer ∨ (s.con p).level = .service) (hlo : 1 ≤ k) (hhi : k ≤ 7)
    (hstate : s.partState k = pSuspended) : doResume s p k =
      if s.partCause k = 5 ∨ s.partCause k = 6 ∨ !(s.part k).verified then (lineTaken s p).say p tag [errLine 16 "cond=cause"]
      else ((lineTaken s p).resumePart k 0).say p tag ["ok"] := by
  have hpart : (lineTaken s p).partState k = s.partState k := lineTaken_of (fun u => u.partState k) s p fun _ _ _ => rfl
  have hcause : (lineTaken s p).partCause k = s.partCause k := lineTaken_of (fun u => u.partCause k) s p fun _ _ _ => rfl
  have hverified : (lineTaken s p).part k = s.part k := lineTaken_of (fun u => u.part k) s p fun _ _ _ => rfl
  rw [doResume, State.ianel_of_lineWaits _ h (State.isIplus_of hlvl), hpart, hcause, hverified, if_neg (by omega), if_neg (by rw [hstate]; decide),
    if_neg (by rw [hstate]; decide)]

theorem doPairSeat_pairs {n : Nat} (h : lineWaits s p tag) (hlvl : (s.con p).level = .installer ∨ (s.con p).level = .service) (hn : n ∈ s.readSet) (hnone : s.rad.pairs = []) :
    doPairSeat s p n = (lineTaken s p).pairOne (.console p tag) false n := by
  have hset : (lineTaken s p).readSet = s.readSet := lineTaken_of State.readSet s p fun _ _ _ => rfl
  have hrad : (lineTaken s p).rad = s.rad := lineTaken_of State.rad s p fun _ _ _ => rfl
  rw [doPairSeat, State.ianel_of_lineWaits _ h (State.isIplus_of hlvl), hset, hrad, hnone, if_neg (by simpa using hn), if_neg (by decide)]

theorem doPairAll_pairs (h : lineWaits s p tag) (hlvl : (s.con p).level = .installer ∨ (s.con p).level = .service) (hset : s.readSet ≠ []) (hnone : s.rad.pairs = [])
    (hall : ∀ n ∈ s.readSet, s.mayPair n = true) : doPairAll s p = s.readSet.foldl (fun u n => u.pairOne (.console p tag) true n) (lineTaken s p) := by
  have hset' : (lineTaken s p).readSet = s.readSet := lineTaken_of State.readSet s p fun _ _ _ => rfl
  have hrad : (lineTaken s p).rad = s.rad := lineTaken_of State.rad s p fun _ _ _ => rfl
  have hmay (n : Nat) : (lineTaken s p).mayPair n = s.mayPair n := lineTaken_of (fun u => u.mayPair n) s p fun _ _ _ => rfl
  have hgood : s.readSet.filter (lineTaken s p).mayPair = s.readSet := List.filter_eq_self.mpr fun n hn => (hmay n).trans (hall n hn)
  have hbad : s.readSet.filter (fun n => !(lineTaken s p).mayPair n) = [] := List.filter_eq_nil_iff.mpr fun n hn => by simp [hmay, hall n hn]
  rw [doPairAll, State.ianel_of_lineWaits _ h (State.isIplus_of hlvl)]
  dsimp only
  rw [hset', hrad, hnone, if_neg hset, if_neg (by decide), hgood, hbad]
  rfl

theorem doHibernate_waits (h : lineWaits s p tag) (hlvl : (s.con p).level = .installer ∨ (s.con p).level = .service) :
    doHibernate s p = (lineTaken s p).hibPending.say p tag ["hibernate in=" ++ toString ((lineTaken s p).parI .estHibGrace)] :=
  State.ianel_of_lineWaits _ h (State.isIplus_of hlvl)

theorem State.isTplus_of {l : Level} (h : l ≠ .view) : l.isTplus = true := by
  cases l
  · exact absurd rfl h
  · rfl
  · rfl
  · rfl

theorem doKbatStart_detects (h : lineWaits s p tag) (hlvl : (s.con p).level ≠ .view) (hmay : s.mayCharge = true) (hdone : s.chg = cDone) :
    doKbatStart s p = ((lineTaken s p).detect s.kbatMv).say p tag ["ok"] := by
  have hmay' : (lineTaken s p).mayCharge = s.mayCharge := lineTaken_of State.mayCharge s p fun _ _ _ => rfl
  have hchg : (lineTaken s p).chg = s.chg := lineTaken_of State.chg s p fun _ _ _ => rfl
  have hmv : (lineTaken s p).kbatMv = s.kbatMv := lineTaken_of State.kbatMv s p fun _ _ _ => rfl
  rw [doKbatStart, State.ianel_of_lineWaits _ h (State.isTplus_of hlvl), doChargerStart, hmay', hchg, hmv, if_pos ⟨hmay, .inl hdone⟩]

theorem doKbatStop_stops (h : lineWaits s p tag) (hlvl : (s.con p).level ≠ .view) (hcharging : s.charging = true) :
    doKbatStop s p = ((lineTaken s p).chargeDone 4).say p tag ["ok"] := by
  have hcharging' : (lineTaken s p).charging = s.charging := lineTaken_of State.charging s p fun _ _ _ => rfl
  rw [doKbatStop, State.ianel_of_lineWaits _ h (State.isTplus_of hlvl), doChargerStop, hcharging', if_pos (.inl hcharging)]

theorem doStop_waits (h : lineWaits s p tag) : doStop s p = (s.takeLine p).2.say p tag [errLine 7 "state=running"] := by
  obtain ⟨hon, hserved, hstarting, rest, hready⟩ := h
  have hnot : ¬(s.takeLine p).2.starting = true := by rw [s.starting_takeLine p, hstarting]; decide
  rw [State.takeLine_of_ready hready] at hnot ⊢
  unfold doStop
  rw [hon, hserved, State.takeLine_of_ready hready]
  exact if_neg hnot

theorem doStop_stops {rest : List (Option String)} (hon : s.camlanOn = true) (hserved : s.conServed p = true) (hstarting : s.starting = true) (hready : (s.con p).ready = tag :: rest) :
    doStop s p = State.say { s.setCon p { s.con p with ready := rest } with cam := { s.cam with stopped := true } } p tag ["stop accepted easy=0x16"] := by
  have hyes : (s.takeLine p).2.starting = true := (s.starting_takeLine p).trans hstarting
  rw [State.takeLine_of_ready hready] at hyes
  unfold doStop
  rw [hon, hserved, State.takeLine_of_ready hready]
  refine (if_pos hyes).trans ?_
  rw [State.setCon_cam]

end

theorem operationCommands_holds : operationCommands := by
  unfold operationCommands
  refine ⟨fun s p tag rest hon hserved hstarting hready => ?stop, fun s p tag h => congrArg Host.Outcome.next (doStop_waits h), fun s p tag h hlvl => ?iplus,
    fun s k cause hlo hhi hcause => ?parts, fun s p tag h hlvl => ⟨fun hmay hdone => congrArg Host.Outcome.next (doKbatStart_detects h hlvl hmay hdone),
      fun hcharging => congrArg Host.Outcome.next (doKbatStop_stops h hlvl hcharging)⟩⟩
  case stop =>
    refine ⟨_, congrArg Host.Outcome.next (doStop_stops hon hserved hstarting hready), ?_, ?_, ?_, ?_⟩
    · rw [State.say_cam]
    · exact RegsBut.of_regs (by rw [State.say_regs, State.setCon_regs])
    · exact SameMem.of_mem (by rw [State.say_mem, State.setCon_mem])
    · rw [State.say_nv, State.setCon_nv]
  case iplus =>
    refine ⟨fun hbar => ?ship, fun c hbar => congrArg Host.Outcome.next (doShip_refused h hlvl hbar), fun hpending => ?hibernate,
      fun k hlo hhi hstate => congrArg Host.Outcome.next (doSuspend_suspends h hlvl hlo hhi hstate), fun k hlo hhi hstate h5 h6 hverified => ?resume,
      fun k hlo hhi hstate hcause => ?noResume, fun n hn hnone hmay => ?pair,
      fun hset hnone hall => congrArg Host.Outcome.next (doPairAll_pairs h hlvl hset hnone hall)⟩
    case ship =>
      refine ⟨_, congrArg Host.Outcome.next (doShip_ships h hlvl hbar), ?_⟩
      obtain ⟨hphase, hout, hnv⟩ := ((lineTaken s p).shipReady p tag).shipMode_shows
      have hconf : (lineTaken s p).nv.confirmed = s.nv.confirmed := lineTaken_of (fun u => u.nv.confirmed) s p fun _ _ _ => rfl
      exact ⟨hphase, hout, by rw [hnv, State.shipReady_confirmed, hconf]⟩
    case hibernate =>
      refine ⟨_, congrArg Host.Outcome.next (doHibernate_waits h hlvl), ?_⟩
      have hest : (lineTaken s p).est = s.est := lineTaken_of State.est s p fun _ _ _ => rfl
      have hmem : (lineTaken s p).mem = s.mem := lineTaken_of State.mem s p fun _ _ _ => rfl
      have hnv : (lineTaken s p).nv = s.nv := lineTaken_of State.nv s p fun _ _ _ => rfl
      have hpower : (lineTaken s p).power = s.power := lineTaken_of State.power s p fun _ _ _ => rfl
      obtain ⟨hest', -, hmem', hnv', hpower', -⟩ := State.hibPending_shows (s := lineTaken s p) (by rw [hest, hpending])
      refine ⟨?_, SameMem.of_mem ?_, ?_, ?_⟩
      · rw [State.say_est, hest', hest]
      · rw [State.say_mem, hmem', hmem]
      · rw [State.say_nv, hnv', hnv]
      · rw [State.say_power, hpower', hpower]
    case resume =>
      refine congrArg Host.Outcome.next ((doResume_judged h hlvl hlo hhi hstate).trans (if_neg ?_))
      rw [hverified]
      simp [h5, h6]
    case noResume =>
      refine congrArg Host.Outcome.next ((doResume_judged h hlvl hlo hhi hstate).trans (if_pos ?_))
      obtain h5 | h6 := hcause
      · exact .inl h5
      · exact .inr (.inl h6)
    case pair =>
      have hmay' : (lineTaken s p).mayPair n = true := (lineTaken_of (fun u => u.mayPair n) s p fun _ _ _ => rfl).trans hmay
      have hnone' : (lineTaken s p).rad.pairs = [] := (lineTaken_of (fun u => u.rad.pairs) s p fun _ _ _ => rfl).trans hnone
      have hconf : (lineTaken s p).nv.confirmed = s.nv.confirmed := lineTaken_of (fun u => u.nv.confirmed) s p fun _ _ _ => rfl
      obtain ⟨hpairs, hkey, hsame⟩ := State.pairOne_shows (.console p tag) false hmay' hnone'
      exact ⟨_, congrArg Host.Outcome.next (doPairSeat_pairs h hlvl hn hnone), hpairs, hkey, hsame.trans hconf⟩
  case parts =>
    obtain ⟨hstate, hpcause, -, -⟩ := s.suspend_shows hhi hcause
    obtain ⟨hrun, hclear, -, -, -⟩ := s.resumePart_shows hhi 0
    exact ⟨hstate, hpcause, s.suspend_holder cause hhi, hrun, hclear⟩

/-! O47 -/

/-- Settles O47: a command on a waiting line is its effect on the state with the line taken, which differs from the state before in the consoles and the time of the last SERVICE command. -/
theorem readingAndOperatingCommands : Obligations.ReadingAndOperatingCommands := by
  unfold Obligations.ReadingAndOperatingCommands
  exact ⟨readingCommandsReply_holds, operationCommands_holds⟩

end Sys2Proof.Machine
end

section
/-!
PROOFS. Orders and surge requests of a session (R42, R334, R335): what an order that is taken leaves, what the answer at VIEW leaves, and the request that replaces an earlier one. They settle O48.
-/

namespace Sys2Proof.Machine

section
variable {s : State} {p us : Nat} {tag : Option String}

/-- The level of a console is what it was before its line is taken at a time of the stroke. -/
theorem level_lineTaken_atUs (us : Nat) (h : lineWaits s p tag) : ((lineTaken (s.atUs us) p).con p).level = (s.con p).level := by
  rw [level_lineTaken (lineWaits_atUs us h), State.con_atUs]

theorem State.stroke_lineTaken_atUs (s : State) (p us : Nat) : (lineTaken (s.atUs us) p).strokeNo = s.strokeNo :=
  (lineTaken_of State.strokeNo (s.atUs us) p fun _ _ _ => rfl).trans (State.rdN_atUs_ne s us (by decide))

theorem State.now_lineTaken_atUs (s : State) (p : Nat) {us : Nat} (hus : us < 2 ^ 15) : (lineTaken (s.atUs us) p).now = (s.stk.base + us) % 2 ^ 48 := by
  refine (lineTaken_of State.now (s.atUs us) p fun _ _ _ => rfl).trans ?_
  rw [State.now, State.us_atUs, Nat.mod_eq_of_lt hus]
  rfl

theorem State.lineTaken_cam (s : State) (p : Nat) : (lineTaken s p).cam = { s.cam with svcAt := (lineTaken s p).cam.svcAt } := by
  rw [lineTaken, State.noteService_eq]
  have h : (s.takeLine p).2.cam = s.cam := by
    unfold State.takeLine
    split <;> exact State.setCon_cam ..
  rw [h]

theorem lineTaken_frame (s : State) (p : Nat) : lineTaken s p = { s with cam := (lineTaken s p).cam, con0 := (lineTaken s p).con0, con1 := (lineTaken s p).con1 } := by
  obtain ⟨c0, c1, cam, h⟩ := lineTaken_eq s p
  rw [h]

theorem State.isStake_of_running {s : State} (h : s.starting = false) : decide (s.cam.state = .stake) = false := by
  rw [State.starting, Bool.or_eq_false_iff] at h
  exact h.2

/-- A session above VIEW has a source code. -/
theorem sessionSource_of {l : Level} (p : Nat) (h : l ≠ .view) : ∃ src, sessionSource p l = some src := by
  cases l
  · exact absurd rfl h
  · exact ⟨_, rfl⟩
  · exact ⟨_, rfl⟩
  · exact ⟨_, rfl⟩

theorem consoleOrder_enters (h : lineWaits s p tag) (hus : us < 2 ^ 15) (hlvl : (s.con p).level ≠ .view) (kind target : Nat) (value : Int) :
    entersSet s (s.consoleOrder p kind target value us) p us tag kind target value := by
  obtain ⟨src, hsrc⟩ := sessionSource_of p hlvl
  have hrun : decide ((lineTaken (s.atUs us) p).cam.state = .stake) = false := by
    rw [State.lineTaken_cam]
    exact State.isStake_of_running h.2.2.1
  have hdo : s.consoleOrder p kind target value us = (lineTaken (s.atUs us) p).placeOrder src ((s.con p).level.rank.getD 0) kind target value 0 ((s.stk.base + us) % 2 ^ 48)
      (.console p tag) := by
    rw [State.consoleOrder, State.ianel_of_lineWaits _ (lineWaits_atUs us h) rfl]
    simp only [level_lineTaken_atUs us h, hsrc, State.now_lineTaken_atUs s p hus]
  have hcam := (s.atUs us).lineTaken_cam p
  have hframe := lineTaken_frame (s.atUs us) p
  rw [hdo, State.placeOrder, hrun, State.stroke_lineTaken_atUs]
  generalize lineTaken (s.atUs us) p = u at hcam hframe
  have horders : u.cam.orders = s.cam.orders := (congrArg CamSt.orders hcam :)
  refine ⟨?_, ?_, ?_, SameMem.of_mem ?_, ?_⟩
  · rw [horders, hsrc]
    rfl
  · rw [hcam]
    rfl
  · exact RegsBut.mk_iff.mpr (((RegsBut.refl s _).atUs us (by decide)).trans (RegsBut.of_regs (congrArg State.regs hframe :)))
  · exact (congrArg State.mem hframe :)
  · rw [hframe]
    rfl

/-- At VIEW an order is answered at once, with its record in TL0, and enters no set. -/
theorem consoleOrder_atView (h : lineWaits s p tag) (hlvl : (s.con p).level = .view) (kind target : Nat) (value : Int) :
    s.consoleOrder p kind target value us =
      ((lineTaken (s.atUs us) p).logIn 1 0x0226 (0x10 + p) (u8 5 ++ u8 target ++ u8 kind ++ u8 0xFF ++ u32 0)).say p tag ["order invalid"] := by
  rw [State.consoleOrder, State.ianel_of_lineWaits _ (lineWaits_atUs us h) rfl]
  simp only [level_lineTaken_atUs us h, hlvl, sessionSource]

/-! Surges (R335) -/

/-- The answer to an earlier request of a source in the set. -/
def State.surgeAnswered (s : State) (src : Nat) : State :=
  match s.est.reqs.find? (fun q => decide (q.source = src)) with
  | some q => (match q.origin with
    | .console p' t => s.say p' t ["surge superseded"]
    | _ => s)
  | none => s

theorem State.surgeAnswered_con (s : State) (src : Nat) : ConFrame s (s.surgeAnswered src) := by
  unfold State.surgeAnswered
  split
  · split
    · exact State.say_eq ..
    · rfl
  · rfl

theorem consoleSurge_places (h : lineWaits s p tag) (hlvl : (s.con p).level = .installer ∨ (s.con p).level = .service) (kind : Nat) (power : Int) (duration : Nat) :
    s.consoleSurge p kind power duration = ((lineTaken s p).surgeAnswered (0x10 + p)).placeSurge
      ⟨0x10 + p, (s.con p).level.rank.getD 0, s.now, s.strokeNo, kind, power, duration, 0, .console p tag⟩ := by
  have hnow : (lineTaken s p).now = s.now := lineTaken_of State.now s p fun _ _ _ => rfl
  have hstroke : (lineTaken s p).strokeNo = s.strokeNo := lineTaken_of State.strokeNo s p fun _ _ _ => rfl
  have hsame := (lineTaken s p).surgeAnswered_con (0x10 + p)
  have hdo : s.consoleSurge p kind power duration = ((lineTaken s p).surgeAnswered (0x10 + p)).placeSurge
      ⟨0x10 + p, ((lineTaken s p).con p).level.rank.getD 0, ((lineTaken s p).surgeAnswered (0x10 + p)).now, ((lineTaken s p).surgeAnswered (0x10 + p)).strokeNo, kind, power, duration,
        0, .console p tag⟩ := State.ianel_of_lineWaits _ h (State.isIplus_of hlvl)
  rw [hdo, level_lineTaken h]
  generalize State.surgeAnswered _ _ = u at hsame
  rw [show u.now = s.now by rw [hsame]; exact hnow, show u.strokeNo = s.strokeNo by rw [hsame]; exact hstroke]

/-- A request entered in the set leaves the rest of the estimation, the registers, the memories and the orders as they are. -/
theorem placeSurge_shows (s : State) (p : Nat) (q : SurgeReq) : let t := ((lineTaken s p).surgeAnswered q.source).placeSurge q
    t.est.reqs = s.est.reqs.filter (fun x => decide (x.source ≠ q.source)) ++ [q] ∧ t.est = { s.est with reqs := t.est.reqs } ∧ t.regs = s.regs ∧ t.mem = s.mem
      ∧ t.cam.orders = s.cam.orders ∧ t.nv = s.nv := by
  have hsame := (lineTaken s p).surgeAnswered_con q.source
  obtain ⟨c0, c1, cam, hline⟩ := lineTaken_eq s p
  have horders : (lineTaken s p).cam.orders = s.cam.orders := (congrArg CamSt.orders (s.lineTaken_cam p) :)
  dsimp only
  generalize State.surgeAnswered _ _ = u at hsame
  have hest : u.est = s.est := by rw [hsame, hline]
  refine ⟨?_, ?_, ?_, ?_, ?_, ?_⟩
  · rw [State.placeSurge, hest]
    rfl
  · rw [State.placeSurge, hest]
    rfl
  · exact (congrArg State.regs hsame :).trans (congrArg State.regs hline :)
  · exact (congrArg State.mem hsame :).trans (congrArg State.mem hline :)
  · exact (congrArg (fun v => v.cam.orders) hsame :).trans horders
  · exact (congrArg State.nv hsame :).trans (congrArg State.nv hline :)

end

/-! O48 -/

/-- Settles O48: an order or a request is the effect on the state with its line taken, whose time and stroke are those of the line. -/
theorem consoleOrdersEnterTheSet : Obligations.ConsoleOrdersEnterTheSet := by
  unfold Obligations.ConsoleOrdersEnterTheSet
  refine ⟨fun s p us tag h hus hlvl => ?orders, fun s p us target tag h hlvl => ?view, fun s p us duration power tag h hus hlvl => ?surge, fun s p tag h hlvl hnone => ?release⟩
  case orders =>
    have enters := consoleOrder_enters h hus hlvl
    refine ⟨fun target => ⟨_, rfl, enters kOpen target 0⟩, fun target => ⟨_, rfl, enters kClose target 0⟩, fun target mA hle => ⟨s.consoleOrder p kDerate target mA us, ?_, enters ..⟩,
      fun target mA hlt => ⟨s.consoleOrder p kRaise target mA us, ?_, enters ..⟩, ⟨_, rfl, enters kTake 0 0⟩, ⟨_, rfl, enters kRelease 0 0⟩⟩
    · exact congrArg (fun k => done (s.consoleOrder p k target mA us)) (if_pos hle)
    · exact congrArg (fun k => done (s.consoleOrder p k target mA us)) (if_neg (by omega))
  case view =>
    refine ⟨_, congrArg Host.Outcome.next (consoleOrder_atView h hlvl kClose target 0), ?_, ?_, SameMem.of_mem ?_⟩
    · rw [State.logIn_cam, State.lineTaken_cam]
      rfl
    · exact RegsBut.logIn _ _ _ (((RegsBut.refl s _).atUs us List.mem_cons_self).trans (RegsBut.of_regs (congrArg State.regs (lineTaken_frame (s.atUs us) p) :)))
        fun _ ha => List.mem_cons_of_mem _ ha
    · rw [State.logIn_mem, lineTaken_frame]
      rfl
  case surge =>
    have hlvl' : ((s.atUs us).con p).level = .installer ∨ ((s.atUs us).con p).level = .service := by rwa [State.con_atUs]
    refine ⟨_, congrArg Host.Outcome.next (consoleSurge_places (lineWaits_atUs us h) hlvl' 1 power duration), ?_⟩
    have hnow : (s.atUs us).now = (s.stk.base + us) % 2 ^ 48 := by
      rw [State.now, State.us_atUs, Nat.mod_eq_of_lt hus]
      rfl
    rw [hnow, State.con_atUs, show (s.atUs us).strokeNo = s.strokeNo from State.rdN_atUs_ne s us (by decide)]
    obtain ⟨hreqs, hest, hregs, hmem, horders, -⟩ := placeSurge_shows (s.atUs us) p
      ⟨0x10 + p, (s.con p).level.rank.getD 0, (s.stk.base + us) % 2 ^ 48, s.strokeNo, 1, power, duration, 0, .console p tag⟩
    exact ⟨hreqs, hest, ((RegsBut.refl s _).atUs us (by decide)).trans (RegsBut.of_regs hregs), SameMem.of_mem hmem, horders⟩
  case release =>
    refine ⟨_, congrArg Host.Outcome.next (consoleSurge_places h hlvl 2 0 0), ?_⟩
    obtain ⟨hreqs, hest, hregs, hmem, -, hnv⟩ := placeSurge_shows s p ⟨0x10 + p, (s.con p).level.rank.getD 0, s.now, s.strokeNo, 2, 0, 0, 0, .console p tag⟩
    refine ⟨hreqs.trans ?_, hest, RegsBut.of_regs hregs, SameMem.of_mem hmem, hnv⟩
    rw [List.filter_eq_self.mpr fun q hq => by simpa using hnone q hq]

end Sys2Proof.Machine
end

section
/-!
PROOFS. Restore records and the logbook by console (R279, R342, R343, R348): what each command of a transfer leaves, who may read a book, and a release by a console whose book has lost records. They settle O51.
-/

namespace Sys2Proof.Machine

/-- What a taken line changes, the time of the last SERVICE command and the consoles, reaches no function of the rest. -/
theorem lineTaken_svc {α : Type} (f : State → α) (s : State) (p : Nat) (hf : ∀ c0 c1 x, f { s with con0 := c0, con1 := c1, cam := { s.cam with svcAt := x } } = f s) :
    f (lineTaken s p) = f s := by
  rw [lineTaken_frame, State.lineTaken_cam]
  exact hf _ _ _

/-- A line whose level may not run its command is answered with error 06 (R333). -/
theorem State.ianel_below {s : State} {p : Nat} {tag : Option String} {ok : Level → Bool} (act : State → Option String → State) (h : lineWaits s p tag)
    (hok : ok (s.con p).level = false) : s.ianel p ok act = (s.takeLine p).2.say p tag ["err 06 level"] := by
  obtain ⟨hon, hserved, hstarting, rest, hready⟩ := h
  have hnot : (s.takeLine p).2.starting = false := (s.starting_takeLine p).trans hstarting
  rw [State.takeLine_of_ready hready] at hnot ⊢
  have hlvl : ((s.setCon p { s.con p with ready := rest }).con p).level = (s.con p).level := by rw [State.con_setCon]
  rw [State.ianel, hon, hserved, State.takeLine_of_ready hready]
  simp only [Bool.and_self, Bool.not_true, Bool.false_eq_true, if_false, hnot, hlvl, hok, Bool.not_false, if_true]
  exact congrArg (fun l => State.say _ p tag [l]) (by decide)

section
variable {s : State} {p : Nat} {tag : Option String}

/-- A command of the estimation that only changes its state and replies. -/
theorem estChanged_shows (s : State) (p : Nat) (tag : Option String) (l : List String) (e : EstSt) : let t := ((lineTaken s p).setEst e).say p tag l
    t.est = e ∧ RegsBut s t [] ∧ SameMem s t ∧ t.nv = s.nv := by
  have hregs : (lineTaken s p).regs = s.regs := lineTaken_of State.regs s p fun _ _ _ => rfl
  have hmem : (lineTaken s p).mem = s.mem := lineTaken_of State.mem s p fun _ _ _ => rfl
  have hnv : (lineTaken s p).nv = s.nv := lineTaken_of State.nv s p fun _ _ _ => rfl
  dsimp only
  exact ⟨by rw [State.say_est]; rfl, RegsBut.of_regs (by rw [State.say_regs]; exact hregs), SameMem.of_mem (by rw [State.say_mem]; exact hmem), by rw [State.say_nv]; exact hnv⟩

theorem est_lineTaken (s : State) (p : Nat) : (lineTaken s p).est = s.est := lineTaken_of State.est s p fun _ _ _ => rfl

theorem doEstRestoreBegin_begins (h : lineWaits s p tag) (hlvl : (s.con p).level ≠ .view) (size : Nat) (hnone : s.est.transfer = none) :
    doEstRestoreBegin s p size = ((lineTaken s p).setEst { s.est with transfer := some (p, size, []) }).say p tag ["ok"] := by
  rw [doEstRestoreBegin, State.ianel_of_lineWaits _ h (State.isTplus_of hlvl), est_lineTaken]
  simp only [hnone]

theorem doEstRestoreBegin_busy {q size size' : Nat} {got : List Byte} (h : lineWaits s p tag) (hlvl : (s.con p).level ≠ .view) (hq : q ≠ p)
    (hsome : s.est.transfer = some (q, size, got)) : doEstRestoreBegin s p size' = (lineTaken s p).say p tag ["err 08 busy"] := by
  rw [doEstRestoreBegin, State.ianel_of_lineWaits _ h (State.isTplus_of hlvl), est_lineTaken]
  simp only [hsome, ne_eq, hq, not_false_eq_true, if_true]
  exact congrArg (fun l => State.say _ p tag [l]) (by decide)

theorem doEstRestoreData_goesOn {size : Nat} {got data : List Byte} (h : lineWaits s p tag) (hlvl : (s.con p).level ≠ .view) (hsome : s.est.transfer = some (p, size, got))
    (hdata : data ≠ []) (hlen : data.length ≤ 96) (hfits : got.length + data.length ≤ size) :
    doEstRestoreData s p got.length data = ((lineTaken s p).setEst { s.est with transfer := some (p, size, got ++ data) }).say p tag ["ok"] := by
  rw [doEstRestoreData, State.ianel_of_lineWaits _ h (State.isTplus_of hlvl), est_lineTaken]
  simp only [hsome]
  exact if_pos ⟨trivial, trivial, hdata, hlen, hfits⟩

theorem State.restoreBad_own {s : State} {p size : Nat} {got : List Byte} (hsome : s.est.transfer = some (p, size, got)) (tag : Option String) :
    s.restoreBad p tag = (s.setEst { s.est with transfer := none }).say p tag [errLine 4] := by
  simp only [State.restoreBad, hsome]
  rfl

theorem doEstRestoreData_bad {size off : Nat} {got data : List Byte} (h : lineWaits s p tag) (hlvl : (s.con p).level ≠ .view) (hsome : s.est.transfer = some (p, size, got))
    (hoff : off ≠ got.length) : doEstRestoreData s p off data = ((lineTaken s p).setEst { s.est with transfer := none }).say p tag [errLine 4] := by
  have hsome' : (lineTaken s p).est.transfer = some (p, size, got) := by rw [est_lineTaken, hsome]
  rw [doEstRestoreData, State.ianel_of_lineWaits _ h (State.isTplus_of hlvl)]
  simp only [hsome']
  rw [if_neg (fun hc => hoff hc.2.1), State.restoreBad_own hsome', est_lineTaken]

theorem doEstRestoreEnd_judged {size : Nat} {got : List Byte} (h : lineWaits s p tag) (hlvl : (s.con p).level ≠ .view) (hsome : s.est.transfer = some (p, size, got))
    (hall : got.length = size) : doEstRestoreEnd s p =
      if s.judgeRecord got = 0 then (lineTaken s p).setEst { s.est with transfer := none, restored := true, restore := some ⟨got, .console p tag⟩ }
      else (((lineTaken s p).setEst { s.est with transfer := none }).logS 0x0C11 (u8 (s.judgeRecord got))).say p tag [errLine 16 ("cond=" ++ wordAt restoreReasons (s.judgeRecord got))] := by
  have hjudged : (lineTaken s p).judgeRecord got = s.judgeRecord got := lineTaken_svc (fun u => u.judgeRecord got) s p fun _ _ _ => rfl
  rw [doEstRestoreEnd, State.ianel_of_lineWaits _ h (State.isTplus_of hlvl), est_lineTaken]
  simp only [hsome]
  rw [if_neg (by rintro (hp | hlen); exacts [hp rfl, hlen hall]), hjudged]
  rfl

/-! The logbook by console (R343, R348) -/

/-- What a book's records read as rests on the registers and the memories. -/
theorem State.sayLogRead_of {s t : State} (hregs : t.regs = s.regs) (hmem : t.mem = s.mem) (b seq count : Nat) : t.sayLogRead b seq count = s.sayLogRead b seq count := by
  have hheld : t.bookHeld b = s.bookHeld b := by rw [State.bookHeld, State.bookHeld, State.rdN_of_regs hregs, State.rdN_of_regs hregs]
  simp only [State.sayLogRead, hheld, State.rdN_of_regs hregs, State.rdBytes_of_mem hmem]

theorem sayLogRead_lineTaken (s : State) (p b seq count : Nat) : (lineTaken s p).sayLogRead b seq count = s.sayLogRead b seq count :=
  State.sayLogRead_of (lineTaken_of State.regs s p fun _ _ _ => rfl) (lineTaken_of State.mem s p fun _ _ _ => rfl) b seq count

theorem doLogRead_said {b : Nat} (seq count : Nat) (h : lineWaits s p tag) (hok : (decide (8 < b) || mayReadBook (s.con p).level b) = true) :
    doLogRead s p b seq count = (lineTaken s p).say p tag ((lineTaken s p).sayLogRead b seq count) :=
  State.ianel_of_lineWaits (ok := fun l => decide (8 < b) || mayReadBook l b) (fun s tag => s.say p tag (s.sayLogRead b seq count)) h hok

theorem doLogRead_reads {b : Nat} (seq count : Nat) (h : lineWaits s p tag) (hmay : mayReadBook (s.con p).level b = true) :
    doLogRead s p b seq count = (lineTaken s p).say p tag (s.sayLogRead b seq count) := by
  have hok : (decide (8 < b) || mayReadBook (s.con p).level b) = true := by rw [hmay, Bool.or_true]
  rw [doLogRead_said seq count h hok, sayLogRead_lineTaken]

theorem State.setPend_regs (s : State) (l : List LogRec) : RegsBut s (s.setPend l) [Reg.LOG_PEND] := by
  unfold State.setPend
  exact RegsBut.setFld _ _ _ (RegsBut.setFld _ _ _ (RegsBut.mk_iff.mpr (RegsBut.refl s _)) (by decide)) (by decide)

/-- A report of records lost changes the queue and the register that shows it. -/
theorem State.reportLost_shows (s : State) (b : Nat) : RegsBut s (s.reportLost b) [Reg.LOG_PEND] ∧ LogFrame s (s.reportLost b) := by
  unfold State.reportLost
  dsimp only
  split
  · generalize s.log.pend ++ [s.ownRec b 0x0F03 (severity 0x0F03) (u32 (Tab.get 0 s.log.lost b))] = l
    exact ⟨RegsBut.mk_iff.mpr (s.setPend_regs l), ((LogFrame.setPend rfl l).setLog _)⟩
  · exact ⟨RegsBut.refl s _, rfl⟩

/-- A release not below FIRST moves it to the smaller of upto + 1 and NEXT, whatever the book reports besides. -/
theorem State.release_moves {s : State} {b upto : Nat} (src : Nat) (hb : b ≤ 8) (hpast : s.pastFirst b upto < 2 ^ 31) : let t := s.release b upto src
    t.rdN (Reg.LOG_BFIRST b) = (s.rdN (Reg.LOG_BFIRST b) + s.releasable b upto) % 2 ^ 32 ∧ RegsBut s t (Reg.LOG_BFIRST b :: logRegs 0) ∧ t.mem = s.mem ∧ t.nv = s.nv := by
  have hdo : s.release b upto src = ((s.freed b (s.releasable b upto)).reportLost b).logS 0x0F05 (u8 b ++ u32 upto ++ u8 src) := by
    rw [State.release, if_neg (Nat.not_lt.mpr hb)]
    exact if_neg (Nat.not_le.mpr hpast)
  obtain ⟨hregs, hframe⟩ := (s.freed b (s.releasable b upto)).reportLost_shows b
  dsimp only
  rw [hdo]
  generalize (s.freed b (s.releasable b upto)).reportLost b = u at hregs hframe
  have hfirst : Reg.LOG_BFIRST b ∉ [Reg.LOG_PEND] := fun hmem => bfirst_notMem_logRegs b 0 (by rw [List.mem_singleton.mp hmem]; decide)
  refine ⟨?_, ?_, ?_, ?_⟩
  · rw [State.rdN_logS _ _ _ (bfirst_notMem_logRegs b 0), State.rdN_of_rd (hregs _ hfirst)]
    exact State.rdN_wrN_self _ _ _
  · refine RegsBut.logS _ _ (RegsBut.trans ((RegsBut.refl s _).wrN _ List.mem_cons_self) (hregs.mono fun a ha => ?_)) fun _ ha => List.mem_cons_of_mem _ ha
    rw [List.mem_singleton.mp ha]
    exact List.mem_cons_of_mem _ (by decide)
  · rw [State.logS_mem, hframe]
    rfl
  · rw [State.logS_nv, hframe]
    rfl

theorem doLogRelease_releases {b upto : Nat} (h : lineWaits s p tag) (hb : b ≤ 8) (hlvl : (s.con p).level = .installer ∨ (s.con p).level = .service) :
    doLogRelease s p b upto = ((lineTaken s p).release b upto (0x10 + p)).say p tag ["ok"] := by
  rw [doLogRelease, State.ianel_of_lineWaits _ h (mayRelease_of_iplus hlvl b), if_neg (Nat.not_lt.mpr hb), level_lineTaken h, sessionSource_of_iplus p hlvl]
  rfl

end

/-! O51 -/

/-- Settles O51: each command is its effect on the state with the line taken. -/
theorem restoreAndLogbookCommands : Obligations.RestoreAndLogbookCommands := by
  unfold Obligations.RestoreAndLogbookCommands
  refine ⟨fun s p tag h => ?save, fun s p tag h hlvl => ⟨fun size hnone => ?begin, fun q size size' got hq hsome => ?busy, fun size got data hsome hdata hlen hfits => ?data,
    fun size got off data hsome hoff => ?bad, fun size got hsome hall hgood => ?good, fun size got hsome hall hbad => ?refused⟩, fun s p b tag h => ?head,
    fun s p b seq count tag h hmay => congrArg Host.Outcome.next (doLogRead_reads seq count h hmay), fun s p b seq count tag h hb hno => ?noRead,
    fun s p b upto tag h hb hlvl hpast => ?release⟩
  case save =>
    have hdo : doEstSave s p = (lineTaken s p).setEst { s.est with saves := s.est.saves ++ [(p, tag)] } := by
      rw [doEstSave, State.ianel_of_lineWaits _ h rfl, est_lineTaken]
    exact ⟨_, congrArg Host.Outcome.next hdo, estChanged_shows s p tag [] _⟩
  case begin => exact ⟨_, congrArg Host.Outcome.next (doEstRestoreBegin_begins h hlvl size hnone), estChanged_shows s p tag _ _⟩
  case busy => exact congrArg Host.Outcome.next (doEstRestoreBegin_busy h hlvl hq hsome)
  case data => exact ⟨_, congrArg Host.Outcome.next (doEstRestoreData_goesOn h hlvl hsome hdata hlen hfits), estChanged_shows s p tag _ _⟩
  case bad =>
    obtain ⟨hest, hregs, hmem, -⟩ := estChanged_shows s p tag [errLine 4] { s.est with transfer := none }
    exact ⟨_, congrArg Host.Outcome.next (doEstRestoreData_bad h hlvl hsome hoff), hest, hregs, hmem⟩
  case good =>
    exact ⟨_, congrArg Host.Outcome.next ((doEstRestoreEnd_judged h hlvl hsome hall).trans (if_pos hgood)), estChanged_shows s p tag [] _⟩
  case refused =>
    obtain ⟨hest, hregs, hmem, -⟩ := estChanged_shows s p tag [] { s.est with transfer := none }
    refine ⟨_, congrArg Host.Outcome.next ((doEstRestoreEnd_judged h hlvl hsome hall).trans (if_neg hbad)), ?_, ?_, ?_⟩
    · rw [State.say_est, State.logS_est]
      exact hest
    · refine RegsBut.say _ _ _ (RegsBut.logS _ _ (hregs.mono (by simp)) fun _ ha => ha)
    · refine fun a => Eq.trans ?_ (hmem a)
      exact SameMem.of_mem (by rw [State.say_mem, State.logS_mem]; rfl) a
  case head =>
    have hsay : (lineTaken s p).sayLogHead b = s.sayLogHead b := lineTaken_of (fun u => u.sayLogHead b) s p fun _ _ _ => rfl
    exact congrArg Host.Outcome.next ((State.report_of_lineWaits _ h).trans (by rw [hsay]))
  case noRead =>
    refine congrArg Host.Outcome.next (State.ianel_below _ h ?_)
    rw [hno, decide_eq_false (by omega)]
    rfl
  case release =>
    obtain ⟨c0, c1, cam, hline⟩ := lineTaken_eq s p
    obtain ⟨hfirst, hregs, hmem, hnv⟩ := (lineTaken s p).release_moves (upto := upto) (0x10 + p) hb (by rw [hline]; exact hpast)
    refine ⟨_, congrArg Host.Outcome.next (doLogRelease_releases h hb hlvl), ?_⟩
    generalize (lineTaken s p).release b upto (0x10 + p) = t at hfirst hregs hmem hnv
    rw [hline] at hfirst hregs hmem hnv
    exact ⟨by rw [State.rdN_say]; exact hfirst, RegsBut.say _ _ _ hregs, SameMem.of_mem (by rw [State.say_mem]; exact hmem), by rw [State.say_nv]; exact hnv⟩

end Sys2Proof.Machine
end

section
/-!
PROOFS. The clearing commands (R54, R142, R153, R223, R230, R235, R246, R253, R259, R266, Table 14-6): what a clearing command answers on a waiting line, and what each clears. They settle O49.
-/

namespace Sys2Proof.Machine

/-! One clearing command -/

section
variable {s : State} {p : Nat} {tag : Option String} {lvl : Level → Bool} {present something cond : State → Bool} {name : String} {act : State → State}

theorem State.clearing_clears (h : lineWaits s p tag) (hlvl : lvl (s.con p).level = true) (hpresent : present (lineTaken s p) = true)
    (hsomething : something (lineTaken s p) = true) (hcond : cond (lineTaken s p) = true) :
    s.clearing p lvl present something cond name act = (act (lineTaken s p)).say p tag ["ok"] := by
  rw [State.clearing, State.ianel_of_lineWaits _ h hlvl, if_neg (by rw [hpresent]; decide), if_neg (by rw [hsomething]; decide), if_neg (by rw [hcond]; decide)]

theorem State.clearing_refused (h : lineWaits s p tag) (hlvl : lvl (s.con p).level = true) (hpresent : present (lineTaken s p) = true)
    (hsomething : something (lineTaken s p) = true) (hcond : cond (lineTaken s p) = false) :
    s.clearing p lvl present something cond name act = (lineTaken s p).say p tag [errLine 16 ("cond=" ++ name)] := by
  rw [State.clearing, State.ianel_of_lineWaits _ h hlvl, if_neg (by rw [hpresent]; decide), if_neg (by rw [hsomething]; decide), if_pos (by rw [hcond]; rfl)]

end

/-- A property of the effect on the state with the line taken is one of the state after the reply. -/
theorem clears_of {u t : State} {p : Nat} {tag : Option String} {l : List String} (h : t = u.say p tag l) :
    t.regs = u.regs ∧ t.mem = u.mem ∧ t.nv = u.nv ∧ t.cam = u.cam ∧ t.ctr = u.ctr ∧ t.mdi = u.mdi ∧ t.sin = u.sin ∧ t.imd = u.imd ∧ t.seats = u.seats ∧ t.kpa = u.kpa := by
  subst h
  exact ⟨State.say_regs .., State.say_mem .., State.say_nv .., State.say_cam .., State.say_ctr .., State.say_mdi .., State.say_sin .., State.say_imd .., State.say_seats ..,
    State.say_kpa ..⟩

theorem lineTaken_regs (s : State) (p : Nat) : (lineTaken s p).regs = s.regs := lineTaken_of State.regs s p fun _ _ _ => rfl
theorem lineTaken_mem (s : State) (p : Nat) : (lineTaken s p).mem = s.mem := lineTaken_of State.mem s p fun _ _ _ => rfl
theorem lineTaken_nv (s : State) (p : Nat) : (lineTaken s p).nv = s.nv := lineTaken_of State.nv s p fun _ _ _ => rfl
theorem lineTaken_ctr (s : State) (p : Nat) : (lineTaken s p).ctr = s.ctr := lineTaken_of State.ctr s p fun _ _ _ => rfl

/-! What each clears, on any state -/

/-- The registers of the logbook that a record in both books may touch. -/
abbrev bothLogRegs : List Nat := logRegs 0 ++ logRegs 1

theorem RegsBut.logS0 {s t : State} {l : List Nat} (c : Nat) (m : List Byte) (h : RegsBut s t l) (ha : ∀ a, a ∈ bothLogRegs → a ∈ l) : RegsBut s (t.logS0 c m) l :=
  (RegsBut.logS0_iff c m (fun a h0 => ha a (List.mem_append_left _ h0)) fun a h1 => ha a (List.mem_append_right _ h1)).mpr h

theorem State.str_of_ctr {s t : State} (h : t.ctr = s.ctr) (i : Nat) : t.str i = s.str i := by rw [State.str, State.str, h]

theorem State.str_updStr_self (s : State) (i : Nat) (f : StrSt → StrSt) : (s.updStr i f).str i = f (s.str i) := Tab.get_put_self ..

theorem State.str_updStr_other (s : State) {i j : Nat} (f : StrSt → StrSt) (h : j ≠ i) : (s.updStr i f).str j = s.str j := Tab.get_put_ne _ _ _ _ h.symm

theorem State.clearPre_shows (s : State) (i : Nat) : let t := s.clearPre i
    t.nv = { s.nv with preLock := s.nv.preLock.filter (fun j => decide (j ≠ i)) } ∧ (t.str i).st ≠ 6 ∧ (∀ j, j ≠ i → t.str j = s.str j) ∧ RegsBut s t bothLogRegs ∧ SameMem s t := by
  unfold State.clearPre
  dsimp only
  refine ⟨State.logS0_nv .., ?_, fun j hj => ?_, RegsBut.logS0 _ _ (fun _ _ => rfl) fun _ ha => ha, SameMem.of_mem (State.logS0_mem ..)⟩
  · rw [State.str_of_ctr (State.logS0_ctr ..), State.str_updStr_self]
    dsimp only
    split
    · split <;> decide
    · assumption
  · rw [State.str_of_ctr (State.logS0_ctr ..), State.str_updStr_other _ _ hj]
    rfl

/-- Coils that a clearing judges anew leave the strings as they are. -/
theorem State.weldsCleared_strs (s : State) (l : List Nat) : let t := l.foldl (fun u c => u.updCoil c (fun x => { x with welded := false })) s
    t.ctr.strs = s.ctr.strs ∧ t.regs = s.regs ∧ t.mem = s.mem :=
  List.foldlRecOn l _ (motive := fun u : State => u.ctr.strs = s.ctr.strs ∧ u.regs = s.regs ∧ u.mem = s.mem) ⟨rfl, rfl, rfl⟩ fun _ h _ _ => h

theorem State.clearWeldOf_shows {s : State} {i : Nat} (h : (s.str i).st = 5) : let t := s.clearWeldOf i
    (t.str i).st = 1 ∧ (∀ j, j ≠ i → t.str j = s.str j) ∧ RegsBut s t bothLogRegs ∧ SameMem s t := by
  obtain ⟨hstrs, hregs, hmem⟩ := s.weldsCleared_strs (s.strCoils i)
  unfold State.clearWeldOf
  dsimp only
  generalize (s.strCoils i).foldl _ s = u at hstrs hregs hmem
  have hstr (j : Nat) : u.str j = s.str j := by rw [State.str, State.str, hstrs]
  refine ⟨?_, fun j hj => ?_, RegsBut.logS0 _ _ (RegsBut.of_regs hregs) fun _ ha => ha, SameMem.of_mem ((State.logS0_mem ..).trans hmem)⟩
  · rw [State.str_of_ctr (State.logS0_ctr ..), State.str_updStr_self, hstr, h]
    rfl
  · rw [State.str_of_ctr (State.logS0_ctr ..), State.str_updStr_other _ _ hj, hstr]

/-- The fault bits of a coil driver taken away. -/
def State.faultCleared (s : State) (c : Nat) : State := (s.setBit Reg.CTR_FAULT c false).setBit Reg.CTR_FAULT (16 + c) false

theorem State.clearCoil_eq (s : State) (c : Nat) : ∃ ctr, s.clearCoil c = ({ s.faultCleared c with ctr := ctr } : State).logS0 0x0A12 (u8 c ++ u8 3) := by
  unfold State.clearCoil
  dsimp only
  split
  · exact ⟨_, rfl⟩
  · exact ⟨_, rfl⟩

theorem State.clearCoil_shows (s : State) {c : Nat} (hc : c < 12) : let t := s.clearCoil c
    t.bit Reg.CTR_FAULT c = false ∧ t.bit Reg.CTR_FAULT (16 + c) = false ∧ (∀ b, b < 32 → b ≠ c → b ≠ 16 + c → t.bit Reg.CTR_FAULT b = s.bit Reg.CTR_FAULT b)
      ∧ RegsBut s t (Reg.CTR_FAULT :: bothLogRegs) ∧ SameMem s t := by
  obtain ⟨ctr, heq⟩ := s.clearCoil_eq c
  dsimp only
  rw [heq]
  have hreg : (({ s.faultCleared c with ctr := ctr } : State).logS0 0x0A12 (u8 c ++ u8 3)).rd Reg.CTR_FAULT = (s.faultCleared c).rd Reg.CTR_FAULT :=
    State.rd_logS0 _ _ _ (by decide)
  refine ⟨?_, ?_, fun b hb hne hne' => ?_, RegsBut.logS0 _ _ (RegsBut.mk_iff.mpr ?_) fun _ ha => List.mem_cons_of_mem _ ha, SameMem.of_mem (State.logS0_mem ..)⟩
  · rw [State.bit_of_rd hreg, State.faultCleared, State.bit_setBit_other _ _ (by omega) (by omega), State.bit_setBit_self _ _ (by omega)]
  · rw [State.bit_of_rd hreg, State.faultCleared, State.bit_setBit_self _ _ (by omega)]
  · rw [State.bit_of_rd hreg, State.faultCleared, State.bit_setBit_other _ _ (by omega) (by omega), State.bit_setBit_other _ _ (by omega) (by omega)]
  · exact ((RegsBut.refl s _).setBit _ _ List.mem_cons_self).setBit _ _ List.mem_cons_self

/-- The low bits of a register are 0 once they are cleared. -/
theorem State.fld_clrReg_low (s : State) (a w : Nat) : (s.clrReg a (2 ^ w - 1)).fld a 0 w = 0 := by
  rw [State.fld, State.clrReg, State.rdN_wrN_self, Nat.and_two_pow_sub_one_eq_mod, Nat.mod_eq_of_lt (a := s.rdN a - s.rdN a % 2 ^ w) (Nat.lt_of_le_of_lt (Nat.sub_le ..) (s.rd a).isLt), getField, Nat.pow_zero,
    Nat.div_one]
  exact Nat.mod_eq_zero_of_dvd (Nat.dvd_sub_mod _)

theorem State.clearMdiOf_shows {s : State} (h : s.parS .mdiFitted ≠ 0) : let t := s.clearMdiOf
    t.mdi.st = mdiHoming ∧ t.fld Reg.MDI_FAULT 0 6 = 0 ∧ SameMem s t ∧ t.nv = s.nv := by
  have hhoming : s.startHoming.mdi.st = mdiHoming ∧ s.startHoming.mem = s.mem ∧ s.startHoming.nv = s.nv := by
    rw [State.startHoming, if_neg h]
    unfold State.showMdi
    dsimp only
    split <;> exact ⟨rfl, rfl, rfl⟩
  obtain ⟨hst, hmem, hnv⟩ := hhoming
  unfold State.clearMdiOf
  dsimp only
  generalize s.startHoming = u at hst hmem hnv
  refine ⟨?_, ?_, SameMem.of_mem ?_, ?_⟩
  · rw [State.logS0_mdi]
    exact hst
  · rw [State.fld_of_rd (State.rd_logS0 _ _ _ (by decide)) 0 6]
    exact u.fld_clrReg_low Reg.MDI_FAULT 6
  · rw [State.logS0_mem]
    exact hmem
  · rw [State.logS0_nv]
    exact hnv

theorem State.clearSinOf_shows (s : State) {n : Nat} : let t := s.clearSinOf n
    getField t.sin.latched n 1 = 0 ∧ (∀ m, m ≠ n → getField t.sin.latched m 1 = getField s.sin.latched m 1) ∧ RegsBut s t bothLogRegs ∧ SameMem s t := by
  unfold State.clearSinOf
  refine ⟨?_, fun m hm => ?_, RegsBut.logS0 _ _ (RegsBut.of_regs rfl) fun _ ha => ha, SameMem.of_mem (State.logS0_mem ..)⟩
  · rw [State.logS0_sin, getField_putField_self]
    rfl
  · rw [State.logS0_sin, getField_putField_bit _ _ hm]

theorem State.clearImdAlarm_shows {s : State} (h : s.imdFlag 1 = true) : let t := s.clearImdAlarm
    t.imd.refuse = false ∧ t.imdFlag 1 = false ∧ RegsBut s t (Reg.IMD_FLAGS :: logRegs 0) ∧ SameMem s t := by
  unfold State.clearImdAlarm
  dsimp only
  rw [if_pos (show (s.setImd { s.imd with refuse := false, low := 0 }).imdFlag 1 = true from h)]
  refine ⟨?_, ?_, RegsBut.logS _ _ (RegsBut.setBit _ _ (RegsBut.of_regs rfl) List.mem_cons_self) fun _ ha => List.mem_cons_of_mem _ ha, SameMem.of_mem ?_⟩
  · rw [State.logS_imd]
    rfl
  · rw [State.imdFlag, State.bit_logS _ _ _ _ (by decide)]
    exact State.bit_setBit_self _ _ (by decide)
  · rw [State.logS_mem]
    rfl

theorem doAuxClear_shows {s : State} (h : s.aux = 5) : let t := doAuxClear s
    t.aux = 1 ∧ t.kpa = { s.kpa with auxFaults := [] } ∧ t.fld Reg.KPA_AUXST 4 2 = 0 ∧ RegsBut s t [Reg.KPA_AUXST] ∧ SameMem s t := by
  rw [doAuxClear, if_pos h]
  refine ⟨State.fld_setFld_self _ _ (by decide), rfl, ?_, ?_, SameMem.of_mem rfl⟩
  · rw [State.toAux, State.fld_setFld_other _ _ (by decide) (by decide), State.fld_setFld_self _ _ (by decide)]
    rfl
  · exact RegsBut.setFld _ _ _ (RegsBut.setFld _ _ _ (RegsBut.of_regs rfl) (by decide)) (by decide)

/-! The clearing commands, one by one -/

section
variable {s : State} {p i c n : Nat} {tag : Option String} (h : lineWaits s p tag)

/-- The frame of an effect on the state with the line taken is the frame of the command. -/
theorem cleared_frame {v t : State} {l : List Nat} (hregs : t.regs = v.regs) (hmem : t.mem = v.mem) (hbut : RegsBut (lineTaken s p) v l) (hsame : SameMem (lineTaken s p) v) :
    RegsBut s t l ∧ SameMem s t :=
  ⟨(RegsBut.source hbut (lineTaken_regs s p)).trans (RegsBut.of_regs hregs), fun a => by rw [SameMem.of_mem hmem a, hsame a, SameMem.of_mem (lineTaken_mem s p) a]⟩

section
variable (hlvl : (s.con p).level = .installer ∨ (s.con p).level = .service)
include h hlvl

theorem clearEasy_holds (heasy : s.cam.state = .easy) (hopen : s.allOpen = true) :
    Does (.clearEasy p) s (fun t => t.cam.state = .run ∧ t.cam.easyCauses = [] ∧ t.cam.helm = s.cam.helm ∧ RegsBut s t (logRegs 0) ∧ SameMem s t) := by
  have hcam : (lineTaken s p).cam.state = .easy := (lineTaken_svc (fun u => u.cam.state) s p fun _ _ _ => rfl).trans heasy
  have heq : doClearEasy s p = ((lineTaken s p).leaveEasy 0).say p tag ["ok"] :=
    State.clearing_clears h (State.isIplus_of hlvl) rfl (by rw [State.inEasy, hcam]; rfl) ((lineTaken_of State.allOpen s p fun _ _ _ => rfl).trans hopen)
  obtain ⟨hregs, hmem, _, hsay, -⟩ := clears_of heq
  obtain ⟨hleft, hleftRegs, hleftMem, -⟩ := (lineTaken s p).leaveEasy_shows 0
  refine ⟨doClearEasy s p, rfl, ?_⟩
  dsimp only
  rw [hsay, hleft, hcam]
  exact ⟨rfl, rfl, lineTaken_svc (fun u => u.cam.helm) s p fun _ _ _ => rfl, cleared_frame hregs hmem hleftRegs (SameMem.of_mem hleftMem)⟩

theorem clearEasy_refused (heasy : s.cam.state = .easy) (hopen : s.allOpen = false) :
    exec (.clearEasy p) s = .next ((lineTaken s p).say p tag [errLine 16 "cond=contactors"]) := by
  have hcam : (lineTaken s p).cam.state = .easy := (lineTaken_svc (fun u => u.cam.state) s p fun _ _ _ => rfl).trans heasy
  have heq : doClearEasy s p = (lineTaken s p).say p tag [errLine 16 "cond=contactors"] :=
    State.clearing_refused h (State.isIplus_of hlvl) rfl (by rw [State.inEasy, hcam]; rfl) ((lineTaken_of State.allOpen s p fun _ _ _ => rfl).trans hopen)
  exact congrArg Host.Outcome.next heq

theorem clearPrecharge_holds (hconf : s.strConf i = true) (hlock : i ∈ s.nv.preLock) :
    Does (.clearPrecharge p i) s (fun t => t.nv = { s.nv with preLock := s.nv.preLock.filter (fun j => decide (j ≠ i)) } ∧ (t.str i).st ≠ 6
      ∧ (∀ j, j ≠ i → t.str j = s.str j) ∧ RegsBut s t (logRegs 0 ++ logRegs 1) ∧ SameMem s t) := by
  have heq : doClearPrecharge s p i = ((lineTaken s p).clearPre i).say p tag ["ok"] :=
    State.clearing_clears h (State.isIplus_of hlvl) ((lineTaken_of (fun u => u.strConf i) s p fun _ _ _ => rfl).trans hconf)
      (by rw [lineTaken_nv]; exact List.contains_iff_mem.mpr hlock) rfl
  obtain ⟨hregs, hmem, hnv, _, hctr, -⟩ := clears_of heq
  obtain ⟨hpre, hst, hother, hbut, hsame⟩ := (lineTaken s p).clearPre_shows i
  refine ⟨doClearPrecharge s p i, rfl, ?_⟩
  dsimp only
  rw [hnv, hpre, State.str_of_ctr hctr, lineTaken_nv]
  exact ⟨rfl, hst, fun j hj => (State.str_of_ctr hctr j).trans ((hother j hj).trans (State.str_of_ctr (lineTaken_ctr s p) j)), cleared_frame hregs hmem hbut hsame⟩

theorem clearContactor_holds (hc : c < 12) (hrole : s.parS .ctrRole c ≠ 0) (hfault : s.bit Reg.CTR_FAULT c = true ∨ s.bit Reg.CTR_FAULT (16 + c) = true) (hoff : s.coilOn c = false) :
    Does (.clearContactor p c) s (fun t => t.bit Reg.CTR_FAULT c = false ∧ t.bit Reg.CTR_FAULT (16 + c) = false
      ∧ (∀ b, b < 32 → b ≠ c → b ≠ 16 + c → t.bit Reg.CTR_FAULT b = s.bit Reg.CTR_FAULT b) ∧ RegsBut s t (Reg.CTR_FAULT :: (logRegs 0 ++ logRegs 1)) ∧ SameMem s t) := by
  have hbit (b : Nat) : (lineTaken s p).bit Reg.CTR_FAULT b = s.bit Reg.CTR_FAULT b := State.bit_of_rd (State.rd_of_regs (lineTaken_regs s p) _) b
  have heq : doClearContactor s p c = ((lineTaken s p).clearCoil c).say p tag ["ok"] :=
    State.clearing_clears h (State.isIplus_of hlvl)
      (by rw [lineTaken_of (fun u => u.parS .ctrRole c) s p fun _ _ _ => rfl, decide_eq_true hc, Bool.true_and]; exact bne_iff_ne.mpr hrole)
      (by rw [hbit, hbit]; exact Bool.or_eq_true_iff.mpr hfault) (by rw [lineTaken_of (fun u => u.coilOn c) s p fun _ _ _ => rfl, hoff]; rfl)
  obtain ⟨hregs, hmem, -⟩ := clears_of heq
  obtain ⟨hlow, hhigh, hother, hbut, hsame⟩ := (lineTaken s p).clearCoil_shows hc
  have hshown (b : Nat) : (doClearContactor s p c).bit Reg.CTR_FAULT b = ((lineTaken s p).clearCoil c).bit Reg.CTR_FAULT b := State.bit_of_rd (State.rd_of_regs hregs _) b
  exact ⟨doClearContactor s p c, rfl, (hshown _).trans hlow, (hshown _).trans hhigh, fun b hb hne hne' => (hshown b).trans ((hother b hb hne hne').trans (hbit b)),
    cleared_frame hregs hmem hbut hsame⟩

theorem clearMdi_holds (hfitted : s.parS .mdiFitted ≠ 0) (hst : s.mdi.st = mdiFault) :
    Does (.clearMdi p) s (fun t => t.mdi.st = mdiHoming ∧ t.fld Reg.MDI_FAULT 0 6 = 0 ∧ SameMem s t ∧ t.nv = s.nv) := by
  have hpar : (lineTaken s p).parS .mdiFitted = s.parS .mdiFitted := lineTaken_of (fun u => u.parS .mdiFitted) s p fun _ _ _ => rfl
  have heq : doClearMdi s p = ((lineTaken s p).clearMdiOf).say p tag ["ok"] :=
    State.clearing_clears h (State.isIplus_of hlvl) (by rw [hpar]; exact bne_iff_ne.mpr hfitted)
      (by rw [lineTaken_of (fun u => u.mdi.st) s p fun _ _ _ => rfl]; exact decide_eq_true hst) rfl
  obtain ⟨hregs, hmem, hnv, _, _, hmdi, -⟩ := clears_of heq
  obtain ⟨hhoming, hfault, hsame, hkeep⟩ := State.clearMdiOf_shows (s := lineTaken s p) (by rw [hpar]; exact hfitted)
  refine ⟨doClearMdi s p, rfl, ?_⟩
  dsimp only
  rw [hmdi, State.fld_of_rd (State.rd_of_regs hregs _), hnv, hkeep, lineTaken_nv]
  exact ⟨hhoming, hfault, fun a => by rw [SameMem.of_mem hmem a, hsame a, SameMem.of_mem (lineTaken_mem s p) a], rfl⟩

theorem clearSin_holds (hn : n < 8) (hfunc : s.parS .sinFunc n ≠ 0) (hlatched : getField s.sin.latched n 1 = 1) (htrip : s.bankTripped n = false) :
    Does (.clearSin p n) s (fun t => getField t.sin.latched n 1 = 0 ∧ (∀ m, m < 8 → m ≠ n → getField t.sin.latched m 1 = getField s.sin.latched m 1)
      ∧ RegsBut s t (logRegs 0 ++ logRegs 1) ∧ SameMem s t) := by
  have hsin : (lineTaken s p).sin = s.sin := lineTaken_of State.sin s p fun _ _ _ => rfl
  have heq : doClearSin s p n = ((lineTaken s p).clearSinOf n).say p tag ["ok"] :=
    State.clearing_clears h (State.isIplus_of hlvl)
      (by rw [lineTaken_of (fun u => u.parS .sinFunc n) s p fun _ _ _ => rfl, decide_eq_true hn, Bool.true_and]; exact bne_iff_ne.mpr hfunc)
      (by rw [hsin]; exact decide_eq_true hlatched) (by rw [lineTaken_of (fun u => u.bankTripped n) s p fun _ _ _ => rfl, htrip]; rfl)
  obtain ⟨hregs, hmem, _, _, _, _, hshown, -⟩ := clears_of heq
  obtain ⟨hself, hother, hbut, hsame⟩ := (lineTaken s p).clearSinOf_shows (n := n)
  refine ⟨doClearSin s p n, rfl, ?_⟩
  dsimp only
  rw [hshown, ← hsin]
  exact ⟨hself, fun m _ hm => hother m hm, cleared_frame hregs hmem hbut hsame⟩

theorem clearImd_holds (hflag : s.imdFlag 1 = true) (hlow : s.imd.low = 0) :
    Does (.clearImd p) s (fun t => t.imd.refuse = false ∧ t.imdFlag 1 = false ∧ RegsBut s t (Reg.IMD_FLAGS :: logRegs 0) ∧ SameMem s t) := by
  have hset : (lineTaken s p).imdFlag 1 = true := (lineTaken_of (fun u => u.imdFlag 1) s p fun _ _ _ => rfl).trans hflag
  have heq : doClearImd s p = ((lineTaken s p).clearImdAlarm).say p tag ["ok"] :=
    State.clearing_clears h (State.isIplus_of hlvl) rfl (by rw [hset]; exact Bool.or_true _) (by rw [lineTaken_of State.imd s p fun _ _ _ => rfl]; exact decide_eq_true hlow)
  obtain ⟨hregs, hmem, _, _, _, _, _, himd, -⟩ := clears_of heq
  obtain ⟨hrefuse, hclear, hbut, hsame⟩ := State.clearImdAlarm_shows hset
  refine ⟨doClearImd s p, rfl, ?_⟩
  dsimp only
  rw [himd, State.imdFlag, State.bit_of_rd (State.rd_of_regs hregs _), ← State.imdFlag]
  exact ⟨hrefuse, hclear, cleared_frame hregs hmem hbut hsame⟩

theorem clearSeat_holds (hread : n ∈ s.readSet) (hfaulty : (s.seat n).faulty = true) :
    Does (.clearSeat p n) s (fun t => (t.seat n).faulty = false ∧ (t.seat n).disag = [] ∧ (∀ m, m ≠ n → t.seat m = s.seat m) ∧ RegsBut s t (logRegs 0) ∧ SameMem s t) := by
  have hseat (m : Nat) : (lineTaken s p).seat m = s.seat m := lineTaken_of (fun u => u.seat m) s p fun _ _ _ => rfl
  have heq : doClearSeat s p n = (((lineTaken s p).updSeat n (fun x => { x with faulty := false, disag := [] })).logS 0x0910 (u8 n ++ u8 ((lineTaken s p).seatString n))).say p tag ["ok"] :=
    State.clearing_clears h (State.isIplus_of hlvl)
      (by rw [lineTaken_of State.readSet s p fun _ _ _ => rfl]; exact List.contains_iff_mem.mpr hread) (by rw [hseat]; exact hfaulty) rfl
  obtain ⟨hregs, hmem, _, _, _, _, _, _, hseats, -⟩ := clears_of heq
  obtain ⟨hself, hother, hbut, hsame⟩ := (lineTaken s p).seatLogged_shows n { (lineTaken s p).seat n with faulty := false, disag := [] } 0x0910
    (u8 n ++ u8 ((lineTaken s p).seatString n))
  refine ⟨doClearSeat s p n, rfl, ?_⟩
  dsimp only
  rw [State.seat_of_seats hseats, State.updSeat, hself]
  exact ⟨rfl, rfl, fun m hm => (State.seat_of_seats hseats m).trans ((hother m hm).trans (hseat m)), cleared_frame hregs hmem hbut hsame⟩

theorem clearKbat_holds (hfault : s.chg = cFault) (hmay : s.mayCharge = true) : exec (.clearKbat p) s = .next (((lineTaken s p).detect s.kbatMv).say p tag ["ok"]) := by
  have hchg : (lineTaken s p).chg = cFault := (lineTaken_of State.chg s p fun _ _ _ => rfl).trans hfault
  have hcharge : (lineTaken s p).mayCharge = true := (lineTaken_of State.mayCharge s p fun _ _ _ => rfl).trans hmay
  have heq : doClearKbat s p = (doChargerClear (lineTaken s p)).say p tag ["ok"] := State.clearing_clears h (State.isIplus_of hlvl) rfl (decide_eq_true hchg) rfl
  have hclear : doChargerClear (lineTaken s p) = (lineTaken s p).detect s.kbatMv := by
    rw [doChargerClear, if_pos hchg, if_pos hcharge, lineTaken_of State.kbatMv s p fun _ _ _ => rfl]
  exact congrArg Host.Outcome.next (heq.trans (by rw [hclear]))

theorem clearAux_holds (haux : s.aux = 5) :
    Does (.clearAux p) s (fun t => t.aux = 1 ∧ t.kpa = { s.kpa with auxFaults := [] } ∧ t.fld Reg.KPA_AUXST 4 2 = 0 ∧ RegsBut s t [Reg.KPA_AUXST] ∧ SameMem s t) := by
  have hat : (lineTaken s p).aux = 5 := (lineTaken_of State.aux s p fun _ _ _ => rfl).trans haux
  have heq : doClearAux s p = (doAuxClear (lineTaken s p)).say p tag ["ok"] := State.clearing_clears h (State.isIplus_of hlvl) rfl (decide_eq_true hat) rfl
  obtain ⟨hregs, hmem, _, _, _, _, _, _, _, hkpa⟩ := clears_of heq
  obtain ⟨hshown, hfaults, hcount, hbut, hsame⟩ := doAuxClear_shows hat
  refine ⟨doClearAux s p, rfl, ?_⟩
  dsimp only
  rw [State.aux, State.fld_of_rd (State.rd_of_regs hregs _), ← State.aux, State.fld_of_rd (State.rd_of_regs hregs _), hkpa, hfaults, lineTaken_of State.kpa s p fun _ _ _ => rfl]
  exact ⟨hshown, rfl, hcount, cleared_frame hregs hmem hbut hsame⟩

end

include h

theorem clearWeld_holds (hlvl : (s.con p).level = .service) (hconf : s.strConf i = true) (hst : (s.str i).st = 5) (hcond : s.weldClearable i = true) :
    Does (.clearWeld p i) s (fun t => (t.str i).st = 1 ∧ (∀ j, j ≠ i → t.str j = s.str j) ∧ RegsBut s t (logRegs 0 ++ logRegs 1) ∧ SameMem s t) := by
  have hstr (j : Nat) : (lineTaken s p).str j = s.str j := State.str_of_ctr (lineTaken_ctr s p) j
  have hwelded : ((lineTaken s p).str i).st = 5 := by rw [hstr, hst]
  have heq : doClearWeld s p i = ((lineTaken s p).clearWeldOf i).say p tag ["ok"] :=
    State.clearing_clears h (by rw [hlvl]; rfl) ((lineTaken_of (fun u => u.strConf i) s p fun _ _ _ => rfl).trans hconf)
      (by rw [State.weldShown, decide_eq_true hwelded]; exact Bool.true_or _) ((lineTaken_of (fun u => u.weldClearable i) s p fun _ _ _ => rfl).trans hcond)
  obtain ⟨hregs, hmem, _, _, hctr, -⟩ := clears_of heq
  obtain ⟨hopen, hother, hbut, hsame⟩ := State.clearWeldOf_shows hwelded
  exact ⟨doClearWeld s p i, rfl, (congrArg StrSt.st (State.str_of_ctr hctr i) :).trans hopen,
    fun j hj => (State.str_of_ctr hctr j).trans ((hother j hj).trans (hstr j)), cleared_frame hregs hmem hbut hsame⟩

theorem clearWeld_below (hlvl : (s.con p).level = .installer) : exec (.clearWeld p i) s = .next ((s.takeLine p).2.say p tag ["err 06 level"]) :=
  congrArg Host.Outcome.next (show doClearWeld s p i = _ by
    unfold doClearWeld State.clearing
    exact State.ianel_below _ h (by rw [hlvl]; rfl))

end

/-- Settles O49: each clearing command is the generic one with its own fault, condition and effect, run on the state with the line taken. -/
theorem clearingCommands : Obligations.ClearingCommands := by
  unfold Obligations.ClearingCommands
  refine ⟨fun s p tag h hlvl => ⟨clearEasy_holds h hlvl, clearEasy_refused h hlvl, fun i => clearPrecharge_holds h hlvl, fun c => clearContactor_holds h hlvl,
    clearMdi_holds h hlvl, fun n => clearSin_holds h hlvl, clearImd_holds h hlvl, fun n => clearSeat_holds h hlvl, clearKbat_holds h hlvl, clearAux_holds h hlvl⟩,
    fun s p i tag h => clearWeld_holds h, fun s p i tag h => clearWeld_below h⟩


end Sys2Proof.Machine
end

section
/-!
PROOFS. Console lines, the rate, notices and the mailbox (R71, R116, R122, R129, R319, R323, R324, R327, R329, R378): how a terminated machine line is judged, what a measured width and the withheld and lost notices leave, and the mailbox request that asks for the next part. They settle O45.
-/

namespace Sys2Proof.Machine

/-! A terminated machine line -/

/-- A port whose line has been terminated at `us`: the line is taken from it, with nothing withheld. -/
def State.lineEnded (s : State) (p us : Nat) : State :=
  (s.atUs us).setCon p { s.con p with line := [], tooLong := false, lastLine := (s.atUs us).clock, machine := true, withheld := [] }

theorem State.con_lineEnded (s : State) (p us : Nat) :
    (s.lineEnded p us).con p = { s.con p with line := [], tooLong := false, lastLine := (s.atUs us).clock, machine := true, withheld := [] } := State.con_setCon ..

theorem State.lineEnded_frame (s : State) (p us : Nat) : let t := s.lineEnded p us
    t = { s with regs := t.regs, con0 := t.con0, con1 := t.con1 } ∧ RegsBut s t [Reg.STK_PHASE] := by
  refine ⟨?_, RegsBut.setCon p _ (RegsBut.atUs us (RegsBut.refl s _) List.mem_cons_self)⟩
  rw [State.lineEnded, State.setCon]
  split <;> rfl

theorem State.flushNotices_none {s : State} {p : Nat} (h : (s.con p).withheld = []) : s.flushNotices p = s.setCon p { s.con p with withheld := [] } := by
  rw [State.flushNotices, h]
  rfl

theorem conServed_le_one {s : State} {p : Nat} (h : s.conServed p = true) : p ≤ 1 := by
  simp only [State.conServed, Bool.or_eq_true, Bool.and_eq_true, decide_eq_true_eq] at h
  omega

theorem typedLine_machine {l : List Byte} (h : l.head? = some 0x23) : typedLine l cr = false := by
  cases l with
  | nil => contradiction
  | cons b l =>
    have hb : b = 0x23 := Option.some.inj h
    subst hb
    rfl

/-- A machine line of a served port is judged on the port with the line ended. -/
theorem doConsoleLine_machine {s : State} {p : Nat} (us : Nat) (hon : s.camlanOn = true) (hserved : s.conServed p = true) (hfault : s.faultWords = none)
    (hline : (s.con p).line.head? = some 0x23) (hnone : (s.con p).withheld = []) : doConsoleLine s p us = (s.lineEnded p us).machineLine p (s.con p) := by
  have hp : ¬ 1 < p := Nat.not_lt.mpr (conServed_le_one hserved)
  unfold doConsoleLine
  rw [if_neg hp]
  simp only [hfault, hon, hserved, State.con_atUs, typedLine_machine hline, Bool.and_self, Bool.not_true, Bool.not_false, Bool.false_eq_true, if_false, if_true]
  rw [State.flushNotices_none (by rw [State.con_setCon]; exact hnone), State.con_setCon, State.setCon_setCon]
  rfl

theorem ConSt.sound_of {c : ConSt} (hlong : c.tooLong = false) (h : ∀ b ∈ c.line, 0x20 ≤ b.toNat ∧ b.toNat ≤ 0x7E) : c.sound = true := by
  have hany : c.line.any (fun b => decide (b.toNat < 0x20) || decide (0x7E < b.toNat)) = false := by
    rw [List.any_eq_false]
    intro b hb
    obtain ⟨hlow, hhigh⟩ := h b hb
    simp only [Bool.or_eq_true, decide_eq_true_eq]
    omega
  rw [ConSt.sound, hlong, hany]
  rfl

theorem State.judgeLine_accepted {s : State} {p : Nat} {t : String} {text : List Char} {l : List Tok} (htok : tokens text = some l) (herr : commandErr l = 0) :
    s.judgeLine p (some t) text = s.setCon p { s.con p with ready := (s.con p).ready ++ [some t], tags := (s.con p).tags ++ [t] } := by
  unfold State.judgeLine
  simp only [htok]
  exact if_neg (not_not_intro herr)

theorem State.machineLine_accepted {s : State} {p : Nat} {c : ConSt} {t : String} {text : List Char} {l : List Tok} (hstart : s.starting = false) (hlong : c.tooLong = false)
    (hsound : c.sound = true) (hbody : machineBody c.line = some (t, text)) (htag : t ∉ c.tags) (hroom : c.tags.length < 8) (htok : tokens text = some l) (herr : commandErr l = 0) :
    s.machineLine p c = s.setCon p { s.con p with ready := (s.con p).ready ++ [some t], tags := (s.con p).tags ++ [t] } := by
  unfold State.machineLine
  simp only [hsound, hbody, Option.isNone_some, Bool.and_false, Bool.false_eq_true, if_false, hstart, Bool.false_and, hlong, Bool.not_true]
  rw [if_neg (by rw [List.contains_iff_mem]; exact htag), if_neg (Nat.not_le.mpr hroom)]
  exact State.judgeLine_accepted htok herr

theorem State.rawReply_tagged (s : State) (p : Nat) (t body : String) :
    s.rawReply p (some t) body = s.setCon p { s.con p with out := (s.con p).out ++ [⟨some t, false, false, false, body⟩] } := by
  rw [State.rawReply]
  simp

theorem State.machineLine_starting {s : State} {p : Nat} {c : ConSt} (hstart : s.starting = true) (hearly : c.earlyMachine = false) : ∃ n,
    s.machineLine p c = (s.setCon p { s.con p with errCrc := n }).rawReply p (some ((tagOf (c.line.map charOf)).getD "?")) "starting" := by
  have hset (n : Nat) : (s.setCon p { s.con p with errCrc := n }).starting = true := (State.starting_of_cam (State.setCon_cam ..)).trans hstart
  unfold State.machineLine
  simp only
  split
  · exact ⟨c.errCrc + 1, by rw [hset, hearly]; rfl⟩
  · refine ⟨(s.con p).errCrc, ?_⟩
    rw [hstart, hearly]
    have hsame : s.setCon p { s.con p with errCrc := (s.con p).errCrc } = s := by
      unfold State.setCon State.con
      split <;> rfl
    rw [hsame]
    rfl

theorem State.machineLine_wrongCrc {s : State} {p : Nat} {c : ConSt} (hstart : s.starting = false) (hlong : c.tooLong = false) (hsound : c.sound = true)
    (hbody : machineBody c.line = none) :
    s.machineLine p c = (s.setCon p { s.con p with errCrc := c.errCrc + 1 }).rawReply p (some ((tagOf (c.line.map charOf)).getD "?")) (errLine 5) := by
  have hset (n : Nat) : (s.setCon p { s.con p with errCrc := n }).starting = false := (State.starting_of_cam (State.setCon_cam ..)).trans hstart
  unfold State.machineLine
  simp only [hsound, hbody, Option.isNone_none, Bool.and_self, if_true, hset, Bool.false_and, Bool.false_eq_true, if_false, hlong, Bool.not_true]

section
variable {s : State} {p : Nat} (us : Nat) (hon : s.camlanOn = true) (hserved : s.conServed p = true) (hfault : s.faultWords = none)
  (hline : (s.con p).line.head? = some 0x23) (hnone : (s.con p).withheld = [])
include hon hserved hfault hline hnone

theorem lineAccepted_holds {t : String} {text : List Char} {l : List Tok} (hstart : s.starting = false) (hlong : (s.con p).tooLong = false)
    (hprint : ∀ b ∈ (s.con p).line, 0x20 ≤ b.toNat ∧ b.toNat ≤ 0x7E) (hbody : machineBody (s.con p).line = some (t, text)) (htag : t ∉ (s.con p).tags)
    (hroom : (s.con p).tags.length < 8) (htok : tokens text = some l) (herr : commandErr l = 0) :
    Does (.consoleLine p us) s (fun v =>
      (v.con p).ready = (s.con p).ready ++ [some t] ∧ (v.con p).tags = (s.con p).tags ++ [t] ∧ (v.con p).line = [] ∧ (v.con p).out = (s.con p).out
        ∧ RegsBut s v [Reg.STK_PHASE] ∧ SameMem s v ∧ v = { s with regs := v.regs, con0 := v.con0, con1 := v.con1 }) := by
  obtain ⟨hframe, hregs⟩ := s.lineEnded_frame p us
  have hcon := s.con_lineEnded p us
  have heq := doConsoleLine_machine us hon hserved hfault hline hnone
  generalize s.lineEnded p us = u at *
  have hready : u.starting = false := by rw [State.starting_of_cam (s := s) (congrArg State.cam hframe :), hstart]
  rw [State.machineLine_accepted hready hlong (ConSt.sound_of hlong hprint) hbody htag hroom htok herr, hcon] at heq
  refine ⟨doConsoleLine s p us, rfl, ?_⟩
  dsimp only
  rw [heq, State.con_setCon]
  refine ⟨rfl, rfl, rfl, rfl, RegsBut.setCon p _ hregs, SameMem.of_mem ((State.setCon_mem ..).trans (congrArg State.mem hframe :)), ?_⟩
  rw [State.setCon_eq u, hframe]

theorem lineStarting_holds (hstart : s.starting = true) (hearly : (s.con p).earlyMachine = false) :
    Does (.consoleLine p us) s (fun v =>
      (v.con p).ready = (s.con p).ready ∧ (v.con p).tags = (s.con p).tags
        ∧ (v.con p).out = (s.con p).out ++ [⟨some ((tagOf ((s.con p).line.map charOf)).getD "?"), false, false, false, "starting"⟩]) := by
  have hready : (s.lineEnded p us).starting = true := (State.starting_of_cam (congrArg State.cam (s.lineEnded_frame p us).1 :)).trans hstart
  obtain ⟨n, hmachine⟩ := State.machineLine_starting (p := p) hready hearly
  refine ⟨doConsoleLine s p us, rfl, ?_⟩
  dsimp only
  rw [doConsoleLine_machine us hon hserved hfault hline hnone, hmachine, State.rawReply_tagged, State.con_setCon, State.con_setCon, State.con_lineEnded]
  exact ⟨rfl, rfl, rfl⟩

theorem lineWrongCrc_holds (hstart : s.starting = false) (hlong : (s.con p).tooLong = false) (hprint : ∀ b ∈ (s.con p).line, 0x20 ≤ b.toNat ∧ b.toNat ≤ 0x7E)
    (hbody : machineBody (s.con p).line = none) :
    Does (.consoleLine p us) s (fun v =>
      (v.con p).ready = (s.con p).ready ∧ (v.con p).tags = (s.con p).tags ∧ (v.con p).errCrc = (s.con p).errCrc + 1
        ∧ (v.con p).out = (s.con p).out ++ [⟨some ((tagOf ((s.con p).line.map charOf)).getD "?"), false, false, false, "err 05 crc"⟩]) := by
  have hready : (s.lineEnded p us).starting = false := (State.starting_of_cam (congrArg State.cam (s.lineEnded_frame p us).1 :)).trans hstart
  have htext : errLine 5 = "err 05 crc" := by decide
  refine ⟨doConsoleLine s p us, rfl, ?_⟩
  dsimp only
  rw [doConsoleLine_machine us hon hserved hfault hline hnone, State.machineLine_wrongCrc hready hlong (ConSt.sound_of hlong hprint) hbody, htext, State.rawReply_tagged,
    State.con_setCon, State.con_setCon, State.con_lineEnded]
  exact ⟨rfl, rfl, rfl, rfl⟩

end

/-- In a fault state of the boot ROM a line of CON0 is answered with that state. -/
theorem doConsoleLine_fault {s : State} (us : Nat) {w : String} (h : s.faultWords = some w) : doConsoleLine s 0 us
    = (s.setCon 0 { s.con 0 with line := [], tooLong := false, out := (s.con 0).out ++ [⟨none, false, false, false, w⟩] }).pump 0 := by
  unfold doConsoleLine
  rw [if_neg (by decide)]
  simp only [h]
  rfl

/-! The rate of a first CR -/

theorem nearestRate_mem (width : Nat) : nearestRate width ∈ conRates :=
  List.foldlRecOn conRates _ (motive := fun r => r ∈ conRates) (by decide) fun r hr q hq => by
    split
    · exact hq
    · exact hr

theorem rateDivisor_lt {r : Nat} (h : r ∈ conRates) : (roundDiv 24000000 r).toNat < 2 ^ 32 := by
  revert r
  decide

/-- The measurement of a width, and the divisor of the rate that is adopted. -/
def State.rateShown (s : State) (p width : Nat) : State :=
  (((s.wrN (Reg.CON_ABMEAS p) (width % 65536)).setBit (Reg.CON_STAT p) 4 true).setBit (Reg.CON_IRQ p) 4 true).wrN (Reg.CON_BAUD p) (roundDiv 24000000 (nearestRate width)).toNat

theorem State.rateShown_shows (s : State) (p : Nat) {width : Nat} (hw : width < 65536) : let t := s.rateShown p width
    t.rdN (Reg.CON_BAUD p) = (roundDiv 24000000 (nearestRate width)).toNat ∧ t.rdN (Reg.CON_ABMEAS p) = width ∧ t.bit (Reg.CON_STAT p) 4 = true
      ∧ RegsBut s t [Reg.CON_ABMEAS p, Reg.CON_STAT p, Reg.CON_IRQ p, Reg.CON_BAUD p] := by
  have hbaud : Reg.CON_BAUD p ≠ Reg.CON_ABMEAS p ∧ Reg.CON_IRQ p ≠ Reg.CON_ABMEAS p ∧ Reg.CON_STAT p ≠ Reg.CON_ABMEAS p ∧ Reg.CON_BAUD p ≠ Reg.CON_STAT p ∧ Reg.CON_IRQ p ≠ Reg.CON_STAT p := by
    unfold Reg.CON_BAUD Reg.CON_ABMEAS Reg.CON_IRQ Reg.CON_STAT
    omega
  obtain ⟨hba, hia, hsa, hbs, his⟩ := hbaud
  refine ⟨?_, ?_, ?_, ?_⟩
  · exact (State.rdN_wrN_self ..).trans (Nat.mod_eq_of_lt (rateDivisor_lt (nearestRate_mem width)))
  · rw [State.rateShown, State.rdN_wrN_ne _ _ hba, State.rdN_of_rd (State.rd_setBit_ne _ _ _ hia), State.rdN_of_rd (State.rd_setBit_ne _ _ _ hsa), State.rdN_wrN_self,
      Nat.mod_eq_of_lt hw, Nat.mod_eq_of_lt (by omega)]
  · rw [State.rateShown, State.bit_of_rd (State.rd_wrN_ne _ _ hbs), State.bit_setBit_ne _ _ _ _ his, State.bit_setBit_self _ _ (by decide)]
  · refine RegsBut.wrN _ (RegsBut.setBit _ _ (RegsBut.setBit _ _ (RegsBut.wrN _ (RegsBut.refl s _) ?_) ?_) ?_) ?_ <;> simp

theorem State.powered_of_camlanOn {s : State} (h : s.camlanOn = true) : s.powered = true := by
  have hphase : s.power.phase = .camlan := of_decide_eq_true (Bool.and_eq_true_iff.mp h).1
  rw [State.powered, hphase]

theorem doAutobaud_adopts {s : State} {p width : Nat} (hp : p ≤ 1) (hon : s.camlanOn = true) (hab : s.bit (Reg.CON_CTRL p) 3 = true) (harm : (s.con p).abArm = true)
    (hw : width ≠ 0) (hw16 : width < 65536) (hnear : 20 * rateDist width (nearestRate width) ≤ nearestRate width * width) :
    doAutobaud s p width = ((s.rateShown p width).setCon p { (s.rateShown p width).con p with adopted := true, abArm := false, fe := 0 }).logS 0x0E09
      (u8 p ++ u32 (nearestRate width)) := by
  have hpow : s.powered = true := State.powered_of_camlanOn hon
  have hshown : ((s.rateShown p width).setCon p { (s.rateShown p width).con p with adopted := true, abArm := false, fe := 0 }).camlanOn = true := by
    have hdbg (a : Nat) (ha : a ∈ [Reg.CON_ABMEAS p, Reg.CON_STAT p, Reg.CON_IRQ p, Reg.CON_BAUD p]) : a ≠ Reg.DBG_STAT := by
      simp only [List.mem_cons, List.not_mem_nil, or_false] at ha
      unfold Reg.CON_BAUD Reg.CON_ABMEAS Reg.CON_IRQ Reg.CON_STAT at ha
      unfold Reg.DBG_STAT
      omega
    obtain ⟨_, _, _, hregs⟩ := s.rateShown_shows p hw16
    have hrate : (s.rateShown p width).camlanOn = true := (State.camlanOn_congr (s := s) (t := s.rateShown p width) rfl (hregs _ fun h => hdbg _ h rfl)).trans hon
    exact (State.camlanOn_congr (State.setCon_power ..) (State.rd_of_regs (State.setCon_regs ..) _)).trans hrate
  unfold doAutobaud
  rw [if_neg (by rw [hpow, hab, harm]; simp; omega)]
  dsimp only
  rw [if_pos ⟨hw, hnear⟩]
  exact if_pos hshown

theorem autobaud_holds {s : State} {p width : Nat} (hp : p ≤ 1) (hon : s.camlanOn = true) (hab : s.bit (Reg.CON_CTRL p) 3 = true) (harm : (s.con p).abArm = true)
    (hw : width ≠ 0) (hw16 : width < 65536) (hnear : 20 * rateDist width (nearestRate width) ≤ nearestRate width * width) :
    Does (.autobaud p width) s (fun t =>
      t.rdN (Reg.CON_BAUD p) = (roundDiv 24000000 (nearestRate width)).toNat ∧ t.rdN (Reg.CON_ABMEAS p) = width ∧ t.bit (Reg.CON_STAT p) 4 = true ∧ (t.con p).adopted = true
        ∧ RegsBut s t ([Reg.CON_ABMEAS p, Reg.CON_STAT p, Reg.CON_IRQ p, Reg.CON_BAUD p] ++ logRegs 0 ++ logRegs 1) ∧ SameMem s t) := by
  have heq := doAutobaud_adopts hp hon hab harm hw hw16 hnear
  obtain ⟨hbaud, hmeas, hdone, hregs⟩ := s.rateShown_shows p hw16
  have hmem : (s.rateShown p width).mem = s.mem := rfl
  generalize s.rateShown p width = u at *
  have hlow : Reg.CON_BAUD p ∉ logRegs 0 ∧ Reg.CON_ABMEAS p ∉ logRegs 0 ∧ Reg.CON_STAT p ∉ logRegs 0 := by
    obtain rfl | rfl := Nat.le_one_iff_eq_zero_or_eq_one.mp hp <;> decide
  obtain ⟨hlb, hla, hls⟩ := hlow
  have hrd {a : Nat} (ha : a ∉ logRegs 0) : (doAutobaud s p width).rd a = u.rd a := by
    rw [heq, State.rd_logS _ _ _ ha]
    exact State.rd_of_regs (State.setCon_regs ..) a
  refine ⟨doAutobaud s p width, rfl, (State.rdN_of_rd (hrd hlb)).trans hbaud, (State.rdN_of_rd (hrd hla)).trans hmeas, (State.bit_of_rd (hrd hls) 4).trans hdone, ?_, ?_, ?_⟩
  · rw [heq, State.con_eq_of (State.logS_con0 ..) (State.logS_con1 ..), State.con_setCon]
  · rw [heq]
    exact RegsBut.logS _ _ (RegsBut.setCon p _ (RegsBut.mono hregs fun a ha => List.mem_append_left _ (List.mem_append_left _ ha))) fun a ha =>
      List.mem_append_left _ (List.mem_append_right _ ha)
  · rw [heq]
    exact SameMem.of_mem ((State.logS_mem ..).trans ((State.setCon_mem ..).trans hmem))

/-! Notices withheld and lost -/

theorem State.flushNotices_one {s : State} {p : Nat} {body : String} (h : (s.con p).withheld = [body]) (hroom : (s.con p).outBytes ≤ 3072) :
    s.flushNotices p = s.setCon p { s.con p with withheld := [], out := (s.con p).out ++ [⟨(s.con p).noteTag, false, true, false, body⟩] } := by
  have hcount : ({ s.con p with withheld := [] } : ConSt).outBytes = (s.con p).outBytes := rfl
  rw [State.flushNotices, h]
  simp only [List.foldl_cons, List.foldl_nil, State.con_setCon, hcount]
  rw [if_neg (Nat.not_lt.mpr hroom), State.setCon_setCon]
  rfl

theorem noticeFlush_holds {s : State} {p : Nat} {body : String} (hon : s.camlanOn = true) (hserved : s.conServed p = true) (hheld : (s.con p).withheld = [body])
    (hroom : (s.con p).outBytes ≤ 3072) (hecho : s.parS .conEcho p ≠ 1) :
    Does (.noticeFlush p) s (fun t =>
      t.con p = { s.con p with withheld := [], out := (s.con p).out ++ [⟨(s.con p).noteTag, false, true, false, body⟩] } ∧ t = { s with con0 := t.con0, con1 := t.con1 }) := by
  have hpar (c : ConSt) : (s.setCon p c).parS .conEcho p = s.parS .conEcho p := State.parS_of_inForce (State.setCon_inForce ..) ..
  have heq : doNoticeFlush s p = s.setCon p { s.con p with withheld := [], out := (s.con p).out ++ [⟨(s.con p).noteTag, false, true, false, body⟩] } := by
    unfold doNoticeFlush
    rw [hon, hserved, hheld, State.flushNotices_one hheld hroom, if_neg (by simp)]
    dsimp only
    rw [if_neg fun h => hecho ((hpar _).symm.trans h.2)]
  refine ⟨doNoticeFlush s p, rfl, ?_⟩
  dsimp only
  rw [heq]
  exact ⟨State.con_setCon .., State.setCon_eq ..⟩

theorem State.notice_room {s : State} {p : Nat} (body : String) (hserved : s.conServed p = true) (hwanted : s.parS .conNotify p ≠ 0)
    (hline : (s.con p).line = []) (hroom : (s.con p).outBytes ≤ 3072) :
    s.notice p body = s.setCon p { s.con p with out := (s.con p).out ++ [⟨(s.con p).noteTag, false, true, false, body⟩] } := by
  rw [State.notice, if_neg (by rw [hserved]; simpa using hwanted)]
  dsimp only
  rw [if_neg (fun h => h.1 hline), if_neg (Nat.not_lt.mpr hroom)]

theorem lostNotice_holds {s : State} {p : Nat} (hp : p ≤ 1) (hon : s.camlanOn = true) (hserved : s.conServed p = true) (hlost : (s.con p).dropped ≠ 0)
    (hroom : (s.con p).outBytes ≤ 3072) (hline : (s.con p).line = []) (hwanted : s.parS .conNotify p ≠ 0) :
    Does (.lostNotice p) s (fun t =>
      (t.con p).dropped = 0 ∧ (t.con p).out = (s.con p).out ++ [⟨(s.con p).noteTag, false, true, false, "lost count=" ++ toString (s.con p).dropped⟩] ∧ RegsBut s t (logRegs 0)
        ∧ SameMem s t ∧ t = { s with regs := t.regs, con0 := t.con0, con1 := t.con1, log := t.log }) := by
  have hnote : (s.setCon p { s.con p with dropped := 0 }).notice p ("lost count=" ++ toString (s.con p).dropped)
      = s.setCon p { s.con p with dropped := 0, out := (s.con p).out ++ [⟨(s.con p).noteTag, false, true, false, "lost count=" ++ toString (s.con p).dropped⟩] } := by
    rw [State.notice_room _ ((State.conServed_of_parts (State.setCon_parts ..) p).trans hserved)
      (by rw [State.parS_of_inForce (State.setCon_inForce ..)]; exact hwanted) (by rw [State.con_setCon]; exact hline) (by rw [State.con_setCon]; exact hroom),
      State.con_setCon, State.setCon_setCon]
    rfl
  have heq : doLostNotice s p = (s.setCon p { s.con p with dropped := 0, out := (s.con p).out ++ [⟨(s.con p).noteTag, false, true, false, "lost count=" ++ toString (s.con p).dropped⟩] }).logS
      0x0E0A (u8 p ++ u32 (s.con p).dropped) := by
    rw [doLostNotice, if_neg (by rw [hon, hserved]; simp; omega)]
    exact congrArg (fun u : State => u.logS 0x0E0A _) hnote
  have hframe (c : ConSt) : LogFrame (s.setCon p c) ((s.setCon p c).logS 0x0E0A (u8 p ++ u32 (s.con p).dropped)) := State.logS_eq ..
  refine ⟨doLostNotice s p, rfl, ?_⟩
  dsimp only
  rw [heq, State.con_eq_of (State.logS_con0 ..) (State.logS_con1 ..), State.con_setCon]
  refine ⟨rfl, rfl, RegsBut.logS _ _ (RegsBut.setCon p _ (RegsBut.refl s _)) fun _ ha => ha, SameMem.of_mem ((State.logS_mem ..).trans (State.setCon_mem ..)), ?_⟩
  rw [hframe, State.setCon_eq]

/-! The mailbox -/

/-- The lines that fit a room fill no more than the room. -/
theorem fitLines_length (room : Nat) (l : List (List Byte)) : (fitLines room l).1.length ≤ room := by
  induction l generalizing room with
  | nil => exact Nat.zero_le _
  | cons b l ih =>
    rw [fitLines]
    split
    · have := ih (room - b.length)
      rw [List.length_append]
      omega
    · exact Nat.zero_le _

/-- The reply part of the mailbox written with `b`, and its status. -/
def State.mailboxWritten (s : State) (b more : List Byte) : State :=
  ((s.wrBytes (mbBase + 0x104) b).setTag { s.tag with more := more }).wrBytes (mbBase + 0x201) (u8 2 ++ u16 s.tag.lastReq)

theorem State.mailboxText_eq {s : State} (text : List Byte) (h : s.tag.owner = 2) : ∃ b more, b.length ≤ 252 ∧ s.mailboxText text = (s.mailboxWritten b more).setOwner 0 := by
  have hfit := fitLines_length 244 (splitLf text [])
  unfold State.mailboxText
  rw [if_neg (not_not_intro h)]
  split
  next now later hr =>
    have hnow : now.length ≤ 244 := by
      split at hr
      · obtain ⟨rfl, -⟩ := Prod.mk.inj hr
        exact List.length_take_le ..
      · rwa [hr] at hfit
    refine ⟨u16 s.tag.lastReq ++ u16 now.length ++ u8 (if later.flatMap id = [] then 0 else 1) ++ [0, 0, 0] ++ now, later.flatMap id, ?_, ?_⟩
    · simp only [List.length_append, leBytes_length, List.length_cons, List.length_nil]
      omega
    · rfl

/-- Memory outside the reply part of the mailbox, its status and the semaphore. -/
def mailboxOnly (s t : State) : Prop := ∀ a, a ≠ tagBase + 0xE00 → a < mbBase + 0x104 ∨ mbBase + 0x204 ≤ a → t.rdB a = s.rdB a

theorem State.mailboxWritten_shows (s : State) {b : List Byte} (more : List Byte) (h : b.length ≤ 252) : let t := s.mailboxWritten b more
    t.tag = { s.tag with more := more } ∧ t.nv = s.nv ∧ t.cam = s.cam ∧ mailboxOnly s t := by
  unfold State.mailboxWritten
  refine ⟨by rw [State.wrBytes_tag]; rfl, (State.wrBytes_nv ..).trans (State.wrBytes_nv s _ _), (State.wrBytes_cam ..).trans (State.wrBytes_cam s _ _), fun a _ ha => ?_⟩
  rw [State.rdB_wrBytes_out _ _ _ _ (by rw [List.length_append, leBytes_length, leBytes_length]; omega)]
  exact State.rdB_wrBytes_out s _ _ _ (by omega)

theorem State.mailboxText_shows {s : State} (text : List Byte) (h : s.tag.owner = 2) : let t := s.mailboxText text
    t.tag.owner = 0 ∧ t.tag.request = s.tag.request ∧ t.tag.lastReq = s.tag.lastReq ∧ t.nv = s.nv ∧ t.cam = s.cam ∧ mailboxOnly s t := by
  obtain ⟨b, more, hlen, heq⟩ := State.mailboxText_eq text h
  obtain ⟨htag, hnv, hcam, hmem⟩ := s.mailboxWritten_shows more hlen
  generalize s.mailboxWritten b more = v at *
  obtain ⟨howner, _, hout, _, hfr⟩ := v.setOwner_shows 0
  dsimp only
  rw [heq, howner, htag]
  exact ⟨rfl, rfl, rfl, (congrArg State.nv hfr :).trans hnv, (congrArg State.cam hfr :).trans hcam, fun a hne ha => (hout a hne).trans (hmem a hne ha)⟩

/-- The mailbox taken for a request: its number kept, the status at work. -/
def State.mailboxTaken (s : State) : State := ((s.setTag { s.tag with request := none, lastReq := s.ld (mbBase + 2) 2 }).setOwner 2).wrBytes (mbBase + 0x201) (u8 1)

theorem State.mailboxTaken_shows (s : State) : let t := s.mailboxTaken
    t.tag.owner = 2 ∧ t.tag.request = none ∧ t.tag.lastReq = s.ld (mbBase + 2) 2 ∧ t.nv = s.nv ∧ t.cam = s.cam ∧ mailboxOnly s t := by
  obtain ⟨howner, _, hout, _, hfr⟩ := (s.setTag { s.tag with request := none, lastReq := s.ld (mbBase + 2) 2 }).setOwner_shows 2
  unfold State.mailboxTaken
  dsimp only
  rw [State.wrBytes_tag, State.wrBytes_nv, State.wrBytes_cam, howner]
  refine ⟨rfl, rfl, rfl, (congrArg State.nv hfr :), (congrArg State.cam hfr :), fun a hne ha => ?_⟩
  rw [State.rdB_wrBytes_out _ _ _ _ (by rw [leBytes_length]; omega), hout a hne]
  rfl

theorem doTagMailboxRequest_more {s : State} (hreq : s.tag.request.isSome = true) (hreply : s.tag.reply = none) (hon : s.camlanOn = true) (howner : s.tag.owner = 0)
    (hlen : s.ld mbBase 2 = 0) : doTagMailboxRequest s = s.mailboxTaken.mailboxText s.mailboxTaken.tag.more := by
  obtain ⟨r, hr⟩ := Option.isSome_iff_exists.mp hreq
  unfold doTagMailboxRequest
  rw [if_neg (by rw [hon, howner]; decide)]
  split
  · next text htext => rw [hreply] at htext; contradiction
  · split
    · next hnone => rw [hr] at hnone; contradiction
    · exact if_pos hlen

theorem mailboxMore_holds {s : State} (hreq : s.tag.request.isSome = true) (hreply : s.tag.reply = none) (hon : s.camlanOn = true) (howner : s.tag.owner = 0)
    (hlen : s.ld mbBase 2 = 0) :
    Does .tagMailboxRequest s (fun t =>
      t.tag.request = none ∧ t.tag.owner = 0 ∧ t.tag.lastReq = s.ld (mbBase + 2) 2 ∧ t.nv = s.nv ∧ t.cam = s.cam
        ∧ ∀ a, a ≠ tagBase + 0xE00 → a < mbBase + 0x104 ∨ mbBase + 0x204 ≤ a → t.rdB a = s.rdB a) := by
  have heq := doTagMailboxRequest_more hreq hreply hon howner hlen
  obtain ⟨htaken, hnone, hlast, hnv, hcam, hmem⟩ := s.mailboxTaken_shows
  generalize s.mailboxTaken = u at *
  obtain ⟨hfree, hrequest, hseq, hnv', hcam', hmem'⟩ := State.mailboxText_shows u.tag.more htaken
  refine ⟨doTagMailboxRequest s, rfl, ?_⟩
  dsimp only
  rw [heq]
  exact ⟨hrequest.trans hnone, hfree, hseq.trans hlast, hnv'.trans hnv, hcam'.trans hcam, fun a hne ha => (hmem' a hne ha).trans (hmem a hne ha)⟩

/-- Settles O45: a terminated line is judged on the port with the line ended, and each clause about the rate, the notices and the mailbox is the one of its function. -/
theorem linesNoticesAndMailbox : Obligations.LinesNoticesAndMailbox := by
  unfold Obligations.LinesNoticesAndMailbox
  exact ⟨fun s p us t text l hon hserved hfault hstart hline hlong hprint hnone hbody htag hroom htok herr =>
      lineAccepted_holds us hon hserved hfault hline hnone hstart hlong hprint hbody htag hroom htok herr,
    fun s p us hon hserved hfault hstart hline hearly hnone => lineStarting_holds us hon hserved hfault hline hnone hstart hearly,
    fun s p us hon hserved hfault hstart hline hlong hprint hnone hbody => lineWrongCrc_holds us hon hserved hfault hline hnone hstart hlong hprint hbody,
    fun s us w h => congrArg Host.Outcome.next (doConsoleLine_fault us h),
    fun s p width hp hon hab harm hw hw16 hnear => autobaud_holds hp hon hab harm hw hw16 hnear,
    fun s p body _ hon hserved hheld hroom hecho => noticeFlush_holds hon hserved hheld hroom hecho,
    fun s p hp hon hserved hlost hroom hline hwanted => lostNotice_holds hp hon hserved hlost hroom hline hwanted,
    fun s hreq hreply hon howner hlen => mailboxMore_holds hreq hreply hon howner hlen⟩

end Sys2Proof.Machine
end

section
/-!
PROOFS. Logins, challenges, lockouts and the end of sessions (R330 to R332, R407): what a login that succeeds and one that fails leave of a port's session and of the counted failures, the challenge and its answer, and how a session ends. They settle O46.
-/

namespace Sys2Proof.Machine

/-! What leaves the sessions as they are -/

/-- The sessions of both ports and the non-volatile content are the same; only output may have been queued. -/
structure SessionKept (s t : State) : Prop where
  nv : t.nv = s.nv
  level : ∀ q, (t.con q).level = (s.con q).level
  challenge : ∀ q, (t.con q).challenge = (s.con q).challenge
  challengeAt : ∀ q, (t.con q).challengeAt = (s.con q).challengeAt
  authed : ∀ q, (t.con q).authed = (s.con q).authed

theorem SessionKept.refl (s : State) : SessionKept s s := ⟨rfl, fun _ => rfl, fun _ => rfl, fun _ => rfl, fun _ => rfl⟩

theorem SessionKept.trans {s t u : State} (h : SessionKept s t) (h' : SessionKept t u) : SessionKept s u :=
  ⟨h'.nv.trans h.nv, fun q => (h'.level q).trans (h.level q), fun q => (h'.challenge q).trans (h.challenge q),
    fun q => (h'.challengeAt q).trans (h.challengeAt q), fun q => (h'.authed q).trans (h.authed q)⟩

theorem SessionKept.of_con {s t : State} (hnv : t.nv = s.nv) (h0 : t.con0 = s.con0) (h1 : t.con1 = s.con1) : SessionKept s t := by
  have hcon (q : Nat) : t.con q = s.con q := State.con_eq_of h0 h1 q
  exact ⟨hnv, fun q => by rw [hcon], fun q => by rw [hcon], fun q => by rw [hcon], fun q => by rw [hcon]⟩

/-- A port written with what it held but for its output. -/
theorem SessionKept.setCon (s : State) (p : Nat) {c : ConSt} (hl : c.level = (s.con p).level) (hc : c.challenge = (s.con p).challenge)
    (hat : c.challengeAt = (s.con p).challengeAt) (ha : c.authed = (s.con p).authed) :
    SessionKept s (s.setCon p c) := by
  have hcon (q : Nat) : (s.setCon p c).con q = s.con q ∨ (s.setCon p c).con q = c ∧ s.con q = s.con p := by
    unfold State.setCon State.con
    by_cases hp : p = 0 <;> by_cases hq : q = 0
    · exact .inr (by simp [hp, hq])
    · exact .inl (by simp [hp, hq])
    · exact .inl (by simp [hp, hq])
    · exact .inr (by simp [hp, hq])
  refine ⟨State.setCon_nv .., fun q => ?_, fun q => ?_, fun q => ?_, fun q => ?_⟩
  · obtain h | ⟨h, hs⟩ := hcon q
    · rw [h]
    · rw [h, hs, hl]
  · obtain h | ⟨h, hs⟩ := hcon q
    · rw [h]
    · rw [h, hs, hc]
  · obtain h | ⟨h, hs⟩ := hcon q
    · rw [h]
    · rw [h, hs, hat]
  · obtain h | ⟨h, hs⟩ := hcon q
    · rw [h]
    · rw [h, hs, ha]

theorem SessionKept.notice (s : State) (p : Nat) (body : String) : SessionKept s (s.notice p body) := by
  unfold State.notice
  dsimp only
  split
  · exact SessionKept.refl s
  · split
    · exact SessionKept.setCon s p rfl rfl rfl rfl
    · split
      · exact SessionKept.setCon s p rfl rfl rfl rfl
      · exact SessionKept.setCon s p rfl rfl rfl rfl

theorem SessionKept.sayLine (s : State) (p : Nat) (tag : Option String) (more : Bool) (body : String) : SessionKept s (s.sayLine p tag more body) := by
  unfold State.sayLine
  dsimp only
  split
  · exact SessionKept.setCon s p rfl rfl rfl rfl
  · split
    · exact SessionKept.setCon s p rfl rfl rfl rfl
    · exact SessionKept.setCon s p rfl rfl rfl rfl

theorem SessionKept.say (s : State) (p : Nat) (tag : Option String) (l : List String) : SessionKept s (s.say p tag l) := by
  induction l generalizing s with
  | nil => exact SessionKept.refl s
  | cons b r ih =>
    cases r with
    | nil => exact SessionKept.sayLine ..
    | cons c r => exact (SessionKept.sayLine s p tag true b).trans (ih _)

theorem SessionKept.logS (s : State) (c : Nat) (l : List Byte) : SessionKept s (s.logS c l) := SessionKept.of_con (State.logS_nv ..) (State.logS_con0 ..) (State.logS_con1 ..)

theorem SessionKept.logS0 (s : State) (c : Nat) (l : List Byte) : SessionKept s (s.logS0 c l) := SessionKept.of_con (State.logS0_nv ..) (State.logS0_con0 ..) (State.logS0_con1 ..)

theorem SessionKept.setHelm (s : State) (x : Helm) (cause : Nat) : SessionKept s (s.setHelm x cause) :=
  (SessionKept.of_con rfl rfl rfl : SessionKept s { s with cam := { s.cam with helm := x } }).trans (SessionKept.logS0 ..)

theorem SessionKept.freeHelm (s : State) (cause : Nat) : SessionKept s (s.freeHelm cause) := by
  unfold State.freeHelm
  dsimp only
  split
  · exact SessionKept.refl s
  · split
    · exact (SessionKept.setHelm s Helm.free cause).trans (SessionKept.notice ..)
    · exact SessionKept.setHelm s Helm.free cause

theorem SessionKept.freeHelmOf (s : State) (src cause : Nat) : SessionKept s (s.freeHelmOf src cause) := by
  unfold State.freeHelmOf
  split
  · exact SessionKept.freeHelm s cause
  · exact SessionKept.refl s

theorem SessionKept.leaveLevel (s : State) (p cause : Nat) : SessionKept s (s.leaveLevel p cause) := by
  unfold State.leaveLevel
  split
  · exact SessionKept.freeHelmOf ..
  · exact SessionKept.refl s

theorem SessionKept.hibCancel (s : State) : SessionKept s s.hibCancel := by
  unfold State.hibCancel
  split
  · exact SessionKept.refl s
  · have hlog : SessionKept s ((s.setEst { s.est with pending := false, idleSince := none }).logS 0x0C30 (u32 (s.parI .estHibGrace) ++ u8 0)) :=
      (SessionKept.of_con rfl rfl rfl : SessionKept s (s.setEst { s.est with pending := false, idleSince := none })).trans (SessionKept.logS ..)
    exact hlog.trans ((SessionKept.notice ..).trans (SessionKept.notice ..))

/-- A port's failures, and whether it is locked, are the non-volatile content's. -/
theorem SessionKept.fails {s t : State} (h : t.nv = s.nv) (p : Nat) : t.fails p = s.fails p ∧ t.loginLocked p = s.loginLocked p := by
  rw [State.fails, State.fails, State.loginLocked, State.loginLocked, h]
  exact ⟨rfl, rfl⟩

/-! The failures of a port -/

theorem State.setFails_shows (s : State) (p : Nat) (l : List Nat) : let t := s.setFails p l
    t.fails p = l ∧ t.loginLocked p = s.loginLocked p ∧ t.nv.confirmed = s.nv.confirmed ∧ t = { s with nv := t.nv } := by
  unfold State.setFails State.fails State.loginLocked
  split <;> exact ⟨rfl, rfl, rfl, rfl⟩

theorem State.setLocked_shows (s : State) (p : Nat) (v : Bool) : let t := s.setLocked p v
    t.fails p = s.fails p ∧ t.loginLocked p = v ∧ t.nv.confirmed = s.nv.confirmed ∧ t = { s with nv := t.nv } := by
  unfold State.setLocked State.fails State.loginLocked
  split <;> exact ⟨rfl, rfl, rfl, rfl⟩

/-! A login that succeeds, and one that fails -/

/-- The port after its level is set, before the records and notices. -/
def State.raised (s : State) (p : Nat) (l : Level) : State :=
  let u := if (s.con p).level = l then s else s.leaveLevel p 6
  u.setCon p { u.con p with level := l, authed := decide (l = .service) }

theorem State.raised_shows (s : State) (p : Nat) (l : Level) : let t := s.raised p l
    (t.con p).level = l ∧ (t.con p).authed = decide (l = .service) ∧ (t.con p).challenge = (s.con p).challenge ∧ t.nv = s.nv := by
  have hleave : SessionKept s (if (s.con p).level = l then s else s.leaveLevel p 6) := by
    split
    · exact SessionKept.refl s
    · exact SessionKept.leaveLevel s p 6
  unfold State.raised
  dsimp only
  generalize (if (s.con p).level = l then s else s.leaveLevel p 6) = u at hleave
  rw [State.con_setCon, State.setCon_nv]
  exact ⟨rfl, rfl, hleave.challenge p, hleave.nv⟩

theorem SessionKept.rise (s : State) (p : Nat) (l : Level) : SessionKept (s.raised p l) (s.rise p l) := by
  have hlog := SessionKept.logS0 (s.raised p l) 0x0E01 (u8 p ++ u8 l.code ++ u8 (l.tenantOf.getD 0))
  have hhib := SessionKept.hibCancel ((s.raised p l).logS0 0x0E01 (u8 p ++ u8 l.code ++ u8 (l.tenantOf.getD 0)))
  have hrise : s.rise p l = let u := ((s.raised p l).logS0 0x0E01 (u8 p ++ u8 l.code ++ u8 (l.tenantOf.getD 0))).hibCancel
      if u.cam.helmPort = some p ∧ l.isIplus = true then
        (if u.cam.helm.holder = 0xFF then ({ u with cam := { u.cam with helmPort := none } } : State).setHelm ⟨0x10 + p, l.rank.getD 0, 0, u.strokeNo⟩ 4
        else { u with cam := { u.cam with helmPort := none } })
      else u := rfl
  rw [hrise]
  generalize State.hibCancel _ = u at hhib
  dsimp only
  have hport : SessionKept u { u with cam := { u.cam with helmPort := none } } := SessionKept.of_con rfl rfl rfl
  split
  · split
    · exact hlog.trans (hhib.trans (hport.trans (SessionKept.setHelm ..)))
    · exact hlog.trans (hhib.trans hport)
  · exact hlog.trans hhib

theorem State.loginOk_shows (s : State) (p : Nat) (l : Level) : let t := s.loginOk p l
    (t.con p).level = l ∧ t.fails p = [] ∧ (t.con p).authed = decide (l = .service) ∧ (t.con p).challenge = (s.con p).challenge := by
  obtain ⟨hfails, -, -, hframe⟩ := s.setFails_shows p []
  have hcon : (s.setFails p []).con p = s.con p := State.con_eq_of (congrArg State.con0 hframe :) (congrArg State.con1 hframe :) p
  have hkept := SessionKept.rise (s.setFails p []) p l
  obtain ⟨hlevel, hauthed, hchallenge, hnv⟩ := (s.setFails p []).raised_shows p l
  dsimp only
  rw [State.loginOk]
  exact ⟨(hkept.level p).trans hlevel, (SessionKept.fails (hkept.nv.trans hnv) p).1.trans hfails, (hkept.authed p).trans hauthed,
    ((hkept.challenge p).trans hchallenge).trans (by rw [hcon])⟩

/-- The failures of a port with the present one. -/
def State.failsNow (s : State) (p : Nat) : List Nat := within s.clock minutes10 (s.fails p) ++ [s.clock]

/-- The lock-out that a fifth failure brings. -/
def State.lockedOut (s : State) (p : Nat) : State :=
  let t := (s.setLocked p true).logS 0x0E03 (u8 p)
  match sessionSource p (t.con p).level with
  | some src => t.freeHelmOf src 8
  | none => t

theorem State.loginFailed_eq (s : State) (p : Nat) (l : Level) : s.loginFailed p l =
    let u := (s.setFails p (s.failsNow p)).logS 0x0E02 (u8 p ++ u8 l.code ++ u8 (s.failsNow p).length)
    if (s.failsNow p).length < 5 then u else u.lockedOut p := rfl

theorem State.lockedOut_shows (s : State) (p : Nat) : let t := s.lockedOut p
    t.fails p = s.fails p ∧ t.loginLocked p = true ∧ t.nv.confirmed = s.nv.confirmed ∧ (t.con p).level = (s.con p).level ∧ (t.con p).challenge = (s.con p).challenge := by
  obtain ⟨hfails, hlocked, hconf, hframe⟩ := s.setLocked_shows p true
  have hcon : (s.setLocked p true).con p = s.con p := State.con_eq_of (congrArg State.con0 hframe :) (congrArg State.con1 hframe :) p
  have hkept : SessionKept (s.setLocked p true) (s.lockedOut p) := by
    unfold State.lockedOut
    dsimp only
    split
    · exact (SessionKept.logS ..).trans (SessionKept.freeHelmOf ..)
    · exact SessionKept.logS ..
  obtain ⟨hf, hl⟩ := SessionKept.fails hkept.nv p
  exact ⟨hf.trans hfails, hl.trans hlocked, (congrArg NonVol.confirmed hkept.nv).trans hconf, (hkept.level p).trans (by rw [hcon]), (hkept.challenge p).trans (by rw [hcon])⟩

theorem State.loginFailed_shows (s : State) (p : Nat) (l : Level) : let t := s.loginFailed p l
    t.fails p = s.failsNow p ∧ (t.con p).level = (s.con p).level ∧ (t.con p).challenge = (s.con p).challenge
      ∧ t.loginLocked p = (s.loginLocked p || decide (5 ≤ (s.failsNow p).length)) ∧ t.nv.confirmed = s.nv.confirmed := by
  obtain ⟨hfails, hlocked, hconf, hframe⟩ := s.setFails_shows p (s.failsNow p)
  have hcon : (s.setFails p (s.failsNow p)).con p = s.con p := State.con_eq_of (congrArg State.con0 hframe :) (congrArg State.con1 hframe :) p
  have hlog := SessionKept.logS (s.setFails p (s.failsNow p)) 0x0E02 (u8 p ++ u8 l.code ++ u8 (s.failsNow p).length)
  obtain ⟨hf, hl⟩ := SessionKept.fails hlog.nv p
  have hlevel := (hlog.level p).trans (by rw [hcon])
  have hchallenge := (hlog.challenge p).trans (by rw [hcon])
  have hnv := (congrArg NonVol.confirmed hlog.nv).trans hconf
  dsimp only
  rw [State.loginFailed_eq]
  dsimp only
  generalize (s.setFails p (s.failsNow p)).logS 0x0E02 (u8 p ++ u8 l.code ++ u8 (s.failsNow p).length) = u at *
  split
  next hfew => exact ⟨hf.trans hfails, hlevel, hchallenge, by rw [hl, hlocked, decide_eq_false (Nat.not_le.mpr hfew), Bool.or_false], hnv⟩
  next hmany =>
    obtain ⟨hf', hl', hn', hv', hc'⟩ := u.lockedOut_shows p
    exact ⟨hf'.trans (hf.trans hfails), hv'.trans hlevel, hc'.trans hchallenge, by rw [hl', decide_eq_true (Nat.not_lt.mp hmany), Bool.or_true], hn'.trans hnv⟩

/-! Logins by code -/

section
variable {s : State} {p : Nat} {tag : Option String} (h : lineWaits s p tag)
include h

/-- A login by code, on the state with the line taken. -/
theorem State.loginCode_eq (l : Level) {k code : Nat} (hk : k ≤ 7) (hcode : code ≤ 999999) (hopen : s.loginLocked p = false) : s.loginCode p l k code =
    if s.codeOf k = some code then ((lineTaken s p).loginOk p l).say p tag [loginLine p l] else ((lineTaken s p).loginFailed p l).say p tag [errLine 13] := by
  have hrange : ¬ (7 < k ∨ 999999 < code) := by omega
  rw [State.loginCode, State.ianel_of_lineWaits _ h rfl, if_neg hrange, lineTaken_of (fun u => u.loginLocked p) s p fun _ _ _ => rfl, hopen,
    lineTaken_of (fun u => u.codeOf k) s p fun _ _ _ => rfl]
  exact if_neg Bool.false_ne_true

theorem loginCode_right (l : Level) {k code : Nat} (hk : k ≤ 7) (hcode : code ≤ 999999) (hopen : s.loginLocked p = false) (hright : s.codeOf k = some code) :
    s.loginCode p l k code = ((lineTaken s p).loginOk p l).say p tag [loginLine p l] := by
  rw [State.loginCode_eq h l hk hcode hopen, if_pos hright]

theorem loginCode_wrong (l : Level) {k code : Nat} (hk : k ≤ 7) (hcode : code ≤ 999999) (hopen : s.loginLocked p = false) (hwrong : s.codeOf k ≠ some code) :
    s.loginCode p l k code = ((lineTaken s p).loginFailed p l).say p tag ["err 13 auth"] := by
  have htext : errLine 13 = "err 13 auth" := by decide
  rw [State.loginCode_eq h l hk hcode hopen, if_neg hwrong, htext]

/-! A challenge and its answer -/

theorem con_lineTaken : ∃ rest, (lineTaken s p).con p = { s.con p with ready := rest } := by
  obtain ⟨-, -, -, rest, hready⟩ := h
  exact ⟨rest, by rw [lineTaken, State.takeLine_of_ready hready, State.con_noteService, State.con_setCon]⟩

end

/-- A fresh challenge held by the port. -/
def State.challengeHeld (s : State) (p : Nat) : State :=
  let c := s.newChallenge
  c.2.setCon p { c.2.con p with challenge := some c.1, challengeAt := c.2.clock, nonce := c.2.nonceBytes }

theorem State.challengeHeld_shows {s : State} (p : Nat) (hrng : s.bit Reg.SEC_STAT 2 = true) : let t := s.challengeHeld p
    (t.con p).challenge = some ((s.rdN Reg.SEC_CHALID + 1) % 2 ^ 32) ∧ (t.con p).challengeAt = s.clock ∧ t.rdN Reg.SEC_CHALID = (s.rdN Reg.SEC_CHALID + 1) % 2 ^ 32
      ∧ (t.con p).level = (s.con p).level ∧ t.freeCtr = s.freeCtr + 4 ∧ RegsBut s t challengeRegs ∧ t.mem = s.mem ∧ t.nv = s.nv := by
  obtain ⟨hid, hshown, hbut, hframe⟩ := s.newChallenge_shows
  have hdrawn : s.nonceDrawn.freeCtr = s.freeCtr + 4 := congrArg State.freeCtr (State.nonceDrawn_of_rng hrng)
  rw [hdrawn] at hframe
  unfold State.challengeHeld
  dsimp only
  rw [hid]
  generalize s.newChallenge.2 = v at *
  have hcon : v.con p = s.con p := State.con_eq_of (congrArg State.con0 hframe :) (congrArg State.con1 hframe :) p
  have hclock : v.clock = s.clock := by
    rw [State.clock, State.clock, State.us, State.us, State.fld_of_rd (hbut Reg.STK_PHASE (by decide)), (congrArg State.ao hframe :)]
  rw [State.con_setCon, State.setCon_freeCtr, State.setCon_mem, State.setCon_nv, State.rdN_of_regs (State.setCon_regs ..), hcon]
  exact ⟨rfl, hclock, hshown, rfl, (congrArg State.freeCtr hframe :), RegsBut.setCon p _ hbut, (congrArg State.mem hframe :), (congrArg State.nv hframe :)⟩

section
variable {s : State} {p : Nat} {tag : Option String} (h : lineWaits s p tag)
include h

theorem doLoginService_eq (hlcs : s.lcs ≠ lcsRetired) (hopen : s.loginLocked p = false) : ∃ l, doLoginService s p = ((lineTaken s p).challengeHeld p).say p tag l := by
  have hret : (lineTaken s p).lcs ≠ lcsRetired := by rwa [lineTaken_of State.lcs s p fun _ _ _ => rfl]
  have hfree : ¬ (lineTaken s p).loginLocked p = true := by
    rw [lineTaken_of (fun u => u.loginLocked p) s p fun _ _ _ => rfl, hopen]
    exact Bool.false_ne_true
  unfold doLoginService
  rw [State.ianel_of_lineWaits _ h rfl]
  dsimp only
  rw [if_neg hret, if_neg hfree]
  exact ⟨_, rfl⟩

theorem loginService_holds (hlcs : s.lcs ≠ lcsRetired) (hopen : s.loginLocked p = false) (hrng : s.bit Reg.SEC_STAT 2 = true) :
    Does (.loginService p) s (fun t =>
      (t.con p).challenge = some ((s.rdN Reg.SEC_CHALID + 1) % 2 ^ 32) ∧ (t.con p).challengeAt = s.clock ∧ t.rdN Reg.SEC_CHALID = (s.rdN Reg.SEC_CHALID + 1) % 2 ^ 32
        ∧ (t.con p).level = (s.con p).level ∧ t.freeCtr = s.freeCtr + 4
        ∧ RegsBut s t [Reg.SEC_CHALID, Reg.SEC_NONCE 0, Reg.SEC_NONCE 1, Reg.SEC_NONCE 2, Reg.SEC_NONCE 3] ∧ SameMem s t ∧ t.nv = s.nv) := by
  obtain ⟨l, heq⟩ := doLoginService_eq h hlcs hopen
  have hregs := lineTaken_regs s p
  obtain ⟨hid, hat, hshown, hlevel, hdrawn, hbut, hmem, hnv⟩ := State.challengeHeld_shows p ((State.bit_of_regs hregs _ _).trans hrng)
  generalize (lineTaken s p).challengeHeld p = v at *
  have hkept := SessionKept.say v p tag l
  rw [← heq] at hkept
  refine ⟨doLoginService s p, rfl, (hkept.challenge p).trans (hid.trans (by rw [State.rdN_of_regs hregs])), (hkept.challengeAt p).trans (hat.trans (lineTaken_of State.clock s p fun _ _ _ => rfl)),
    ?_, (hkept.level p).trans (hlevel.trans (level_lineTaken h)), ?_, ?_, ?_, hkept.nv.trans (hnv.trans (lineTaken_nv s p))⟩
  · rw [heq, State.rdN_of_regs (State.say_regs ..), hshown, State.rdN_of_regs hregs]
  · rw [heq, State.say_freeCtr, hdrawn, lineTaken_of State.freeCtr s p fun _ _ _ => rfl]
  · rw [heq]
    exact RegsBut.say p tag l (RegsBut.source hbut hregs)
  · rw [heq]
    exact SameMem.of_mem ((State.say_mem ..).trans (hmem.trans (lineTaken_mem s p)))

end

/-- The slot whose key signed the answer to the port's standing challenge. -/
def State.answerKey (s : State) (p id : Nat) (sig : List Byte) : Option Nat :=
  if (s.con p).challenge = some id ∧ s.clock < (s.con p).challengeAt + 60000000 then s.matched (s.authMessage id (s.con p).nonce 1) sig else none

/-- The challenge of the port used up, and SEC showing how it was answered. -/
def State.answered (s : State) (p : Nat) (m : Option Nat) : State := (s.setCon p { s.con p with challenge := none }).showAuth 1 m

theorem State.answered_shows (s : State) (p : Nat) (m : Option Nat) : let t := s.answered p m
    (t.con p).challenge = none ∧ (t.con p).level = (s.con p).level ∧ t.nv = s.nv ∧ t.clock = s.clock := by
  obtain ⟨hbut, hframe⟩ := (s.setCon p { s.con p with challenge := none }).showAuth_frame 1 m
  unfold State.answered
  dsimp only
  generalize (s.setCon p { s.con p with challenge := none }).showAuth 1 m = t at *
  have hcon : t.con p = (s.setCon p { s.con p with challenge := none }).con p := State.con_eq_of (congrArg State.con0 hframe :) (congrArg State.con1 hframe :) p
  have hao : t.ao = s.ao := (congrArg State.ao hframe :).trans (State.setCon_ao ..)
  rw [hcon, State.con_setCon]
  refine ⟨rfl, rfl, (congrArg State.nv hframe :).trans (State.setCon_nv ..), ?_⟩
  rw [State.clock, State.clock, State.us, State.us, State.fld_of_rd (hbut Reg.STK_PHASE (by decide)), State.fld_of_regs (State.setCon_regs ..), hao]

/-- A key is judged on the state whose port has given up its challenge as on the state before it. -/
theorem State.answerKey_used (s : State) (p id : Nat) (sig : List Byte) : (if (decide ((s.con p).challenge = some id) && decide (s.clock < (s.con p).challengeAt + 60000000)) = true then
    let u := s.setCon p { s.con p with challenge := none }
    u.matched (u.authMessage id (u.con p).nonce 1) sig else none) = s.answerKey p id sig := by
  have hsame (c : ConSt) (m : List Byte) : (s.setCon p c).matched m sig = s.matched m sig := by
    rw [State.setCon_eq]
    rfl
  have hmsg (c : ConSt) : (s.setCon p c).authMessage id (s.con p).nonce 1 = s.authMessage id (s.con p).nonce 1 := by
    rw [State.setCon_eq]
    rfl
  dsimp only
  simp only [Bool.and_eq_true, decide_eq_true_eq]
  rw [State.con_setCon, hsame, hmsg, State.answerKey]

theorem answerKey_lineTaken {s : State} {p : Nat} {tag : Option String} (h : lineWaits s p tag) (id : Nat) (sig : List Byte) :
    (lineTaken s p).answerKey p id sig = s.answerKey p id sig := by
  obtain ⟨rest, hcon⟩ := con_lineTaken h
  have hclock : (lineTaken s p).clock = s.clock := lineTaken_of State.clock s p fun _ _ _ => rfl
  have hkey : (lineTaken s p).matched ((lineTaken s p).authMessage id (s.con p).nonce 1) sig = s.matched (s.authMessage id (s.con p).nonce 1) sig :=
    lineTaken_of (fun u => u.matched (u.authMessage id (s.con p).nonce 1) sig) s p fun _ _ _ => rfl
  rw [State.answerKey, State.answerKey, hcon, hclock, hkey]

section
variable {s : State} {p id : Nat} {sig : List Byte} {tag : Option String} (h : lineWaits s p tag) (hlcs : s.lcs ≠ lcsRetired) (hopen : s.loginLocked p = false)
include h hlcs hopen

theorem doAuth_matched {n : Nat} (hkey : s.answerKey p id sig = some n) : doAuth s p id sig =
    ((((lineTaken s p).answered p (some n)).logS0 0x1301 (u8 1 ++ u8 n ++ u32 id)).loginOk p .service).say p tag [loginLine p .service] := by
  have hret : (lineTaken s p).lcs ≠ lcsRetired := by rwa [lineTaken_of State.lcs s p fun _ _ _ => rfl]
  have hfree : ¬ (lineTaken s p).loginLocked p = true := by
    rw [lineTaken_of (fun u => u.loginLocked p) s p fun _ _ _ => rfl, hopen]
    exact Bool.false_ne_true
  unfold doAuth
  rw [State.ianel_of_lineWaits _ h rfl]
  dsimp only
  rw [if_neg hret, if_neg hfree, State.answerKey_used, answerKey_lineTaken h, hkey]
  rfl

theorem doAuth_unmatched (hkey : s.answerKey p id sig = none) : doAuth s p id sig =
    ((((lineTaken s p).answered p none).logS 0x1302 (u8 1 ++ u32 id)).loginFailed p .service).say p tag [errLine 13] := by
  have hret : (lineTaken s p).lcs ≠ lcsRetired := by rwa [lineTaken_of State.lcs s p fun _ _ _ => rfl]
  have hfree : ¬ (lineTaken s p).loginLocked p = true := by
    rw [lineTaken_of (fun u => u.loginLocked p) s p fun _ _ _ => rfl, hopen]
    exact Bool.false_ne_true
  unfold doAuth
  rw [State.ianel_of_lineWaits _ h rfl]
  dsimp only
  rw [if_neg hret, if_neg hfree, State.answerKey_used, answerKey_lineTaken h, hkey]
  rfl

theorem auth_holds :
    Does (.auth p id sig) s (fun t =>
      (t.con p).challenge = none ∧ ((s.answerKey p id sig).isSome = true → (t.con p).level = .service ∧ (t.con p).authed = true ∧ t.fails p = [])
        ∧ (s.answerKey p id sig = none → (t.con p).level = (s.con p).level ∧ t.fails p = within s.clock minutes10 (s.fails p) ++ [s.clock])) := by
  have htaken : (lineTaken s p).clock = s.clock := lineTaken_of State.clock s p fun _ _ _ => rfl
  refine ⟨doAuth s p id sig, rfl, ?_⟩
  cases hkey : s.answerKey p id sig with
  | some n =>
    have heq := doAuth_matched h hlcs hopen hkey
    obtain ⟨hchallenge, -⟩ := (lineTaken s p).answered_shows p (some n)
    have hlog := SessionKept.logS0 ((lineTaken s p).answered p (some n)) 0x1301 (u8 1 ++ u8 n ++ u32 id)
    generalize ((lineTaken s p).answered p (some n)).logS0 0x1301 (u8 1 ++ u8 n ++ u32 id) = u at *
    obtain ⟨hlevel, hfails, hauthed, hkeep⟩ := u.loginOk_shows p .service
    have hsay := SessionKept.say (u.loginOk p .service) p tag [loginLine p .service]
    rw [← heq] at hsay
    exact ⟨(hsay.challenge p).trans (hkeep.trans ((hlog.challenge p).trans hchallenge)), fun _ => ⟨(hsay.level p).trans hlevel, (hsay.authed p).trans hauthed,
      (SessionKept.fails hsay.nv p).1.trans hfails⟩, fun hnone => by contradiction⟩
  | none =>
    have heq := doAuth_unmatched h hlcs hopen hkey
    obtain ⟨hchallenge, hlevel, hnv, hclock⟩ := (lineTaken s p).answered_shows p none
    have hlog := SessionKept.logS ((lineTaken s p).answered p none) 0x1302 (u8 1 ++ u32 id)
    have hnow : (((lineTaken s p).answered p none).logS 0x1302 (u8 1 ++ u32 id)).clock = s.clock := by
      rw [State.clock, State.us, State.fld_of_rd (State.rd_logS _ _ _ (by decide)), State.logS_ao]
      exact hclock.trans htaken
    generalize ((lineTaken s p).answered p none).logS 0x1302 (u8 1 ++ u32 id) = u at *
    obtain ⟨hfails, hkept, hkeep, -⟩ := u.loginFailed_shows p .service
    have hsay := SessionKept.say (u.loginFailed p .service) p tag [errLine 13]
    rw [← heq] at hsay
    have hbefore : u.fails p = s.fails p := (SessionKept.fails (hlog.nv.trans (hnv.trans (lineTaken_nv s p))) p).1
    exact ⟨(hsay.challenge p).trans (hkeep.trans ((hlog.challenge p).trans hchallenge)), fun hsome => by contradiction,
      fun _ => ⟨(hsay.level p).trans (hkept.trans ((hlog.level p).trans (hlevel.trans (level_lineTaken h)))),
        (SessionKept.fails hsay.nv p).1.trans (hfails.trans (by rw [State.failsNow, hnow, hbefore]))⟩⟩

end

/-! The end of a session -/

theorem challengeExpire_holds {s : State} {p : Nat} (hsome : (s.con p).challenge.isSome = true) (hold : (s.con p).challengeAt + 60000000 ≤ s.clock) :
    Does (.challengeExpire p) s (fun t => t = s.setCon p { s.con p with challenge := none }) :=
  ⟨doChallengeExpire s p, rfl, by rw [doChallengeExpire, hsome, decide_eq_true hold]; rfl⟩

theorem loginLockoutEnd_holds {s : State} {p : Nat} (hlocked : s.loginLocked p = true) (hold : minutes10 ≤ s.sinceFail p) :
    Does (.loginLockoutEnd p) s (fun t => t.loginLocked p = false ∧ t = { s with nv := t.nv } ∧ t.fails p = s.fails p ∧ t.nv.confirmed = s.nv.confirmed) := by
  have heq : doLoginLockoutEnd s p = s.setLocked p false := by
    rw [doLoginLockoutEnd, hlocked, decide_eq_true hold]
    rfl
  obtain ⟨hfails, hopen, hconf, hframe⟩ := s.setLocked_shows p false
  rw [← heq] at hfails hopen hconf hframe
  exact ⟨doLoginLockoutEnd s p, rfl, hopen, hframe, hfails, hconf⟩

theorem State.toView_shows (s : State) (p cause helmCause : Nat) : let t := s.toView p cause helmCause
    (t.con p).level = .view ∧ (s.cam.helm.holder ≠ 0x10 + p → (s.con p).level = .installer → t.cam.helm = s.cam.helm) := by
  unfold State.toView
  split
  case isTrue hview => exact ⟨of_decide_eq_true hview, fun _ _ => rfl⟩
  case isFalse =>
    dsimp only
    refine ⟨?_, fun hother hinst => ?_⟩
    · rw [State.con_eq_of (State.logS0_con0 ..) (State.logS0_con1 ..), State.con_setCon]
    · have hleave : s.leaveLevel p helmCause = s := by
        rw [State.leaveLevel, hinst]
        exact if_neg hother
      rw [State.logS0_cam, State.setCon_cam, hleave]

theorem logout_holds {s : State} {p : Nat} {tag : Option String} (h : lineWaits s p tag) :
    Does (.logout p) s (fun t => (t.con p).level = .view ∧ (s.cam.helm.holder ≠ 0x10 + p → (s.con p).level = .installer → t.cam.helm = s.cam.helm)) := by
  have heq : doLogout s p = ((lineTaken s p).toView p 1 6).say p tag ["ok"] := State.ianel_of_lineWaits _ h rfl
  have hhelm : (lineTaken s p).cam.helm = s.cam.helm := lineTaken_svc (fun u => u.cam.helm) s p fun _ _ _ => rfl
  obtain ⟨hview, hkeep⟩ := (lineTaken s p).toView_shows p 1 6
  generalize (lineTaken s p).toView p 1 6 = u at *
  have hsay := SessionKept.say u p tag ["ok"]
  refine ⟨doLogout s p, rfl, ?_⟩
  dsimp only
  rw [heq]
  refine ⟨(hsay.level p).trans hview, fun hother hinst => ?_⟩
  rw [State.say_cam]
  exact (hkeep (by rw [hhelm]; exact hother) ((level_lineTaken h).trans hinst)).trans hhelm

theorem sessionIdle_holds {s : State} {p : Nat} (hon : s.camlanOn = true) (hidle : (s.con p).lastLine + s.parI .conIdle * 1000000 ≤ s.clock) :
    Does (.sessionIdle p) s (fun t => (t.con p).level = .view) := by
  have heq : doSessionIdle s p = s.toView p 2 7 := by
    rw [doSessionIdle, hon, decide_eq_true hidle]
    rfl
  exact ⟨doSessionIdle s p, rfl, by rw [heq]; exact (s.toView_shows p 2 7).1⟩

/-! Codes -/

/-- The code of a level put in place of the one it had. -/
def State.codeSet (s : State) (k code : Nat) : State := { s with nv := { s.nv with codes := s.nv.codes.filter (fun e => decide (e.1 ≠ k)) ++ [(k, code)] } }

theorem State.codeSet_self (s : State) (k code : Nat) : (s.codeSet k code).codeOf k = some code := by
  have hfind : (s.nv.codes.filter (fun e => decide (e.1 ≠ k)) ++ [(k, code)]).find? (fun e => decide (e.1 = k)) = some (k, code) := by
    have hnone : (s.nv.codes.filter (fun e => decide (e.1 ≠ k))).find? (fun e => decide (e.1 = k)) = none :=
      List.find?_eq_none.mpr fun e he => by simpa using (List.mem_filter.mp he).2
    rw [List.find?_append, hnone]
    simp
  unfold State.codeOf State.codeSet
  rw [hfind]

theorem State.codeSet_other (s : State) {j k : Nat} (code : Nat) (hj : j ≠ k) : (s.codeSet k code).codeOf j = s.codeOf j := by
  have hfind : (s.nv.codes.filter (fun e => decide (e.1 ≠ k)) ++ [(k, code)]).find? (fun e => decide (e.1 = j)) = s.nv.codes.find? (fun e => decide (e.1 = j)) := by
    rw [List.find?_append, List.find?_filter, List.find?_singleton, if_neg (by simpa using hj.symm), Option.or_none]
    congr 1
    funext e
    by_cases he : e.1 = j <;> simp [he, hj]
  unfold State.codeOf State.codeSet
  rw [hfind]
  rfl

theorem passcode_holds {s : State} {p k code : Nat} {tag : Option String} (h : lineWaits s p tag) (hk : k ≤ 7) (hcode : code ≤ 999999)
    (hmay : (s.con p).level = .service ∨ (s.con p).level = .installer ∧ s.lcs = lcsCommissioning) :
    Does (.passcode p k code) s (fun t => t.codeOf k = some code ∧ (∀ j, j ≠ k → t.codeOf j = s.codeOf j) ∧ RegsBut s t [] ∧ SameMem s t) := by
  have hiplus : (s.con p).level.isIplus = true := State.isIplus_of (hmay.symm.imp And.left id)
  have hrange : ¬ (7 < k ∨ 999999 < code) := by omega
  have hopen : (!((lineTaken s p).con p).level.isService && decide ((lineTaken s p).lcs ≠ lcsCommissioning)) = false := by
    rw [level_lineTaken h, lineTaken_of State.lcs s p fun _ _ _ => rfl]
    obtain hsvc | ⟨-, hlcs⟩ := hmay
    · rw [hsvc]
      rfl
    · rw [decide_eq_false (not_not_intro hlcs)]
      exact Bool.and_false _
  have heq : doPasscode s p k code = ((lineTaken s p).codeSet k code).say p tag ["ok"] := by
    unfold doPasscode
    rw [State.ianel_of_lineWaits _ h hiplus, if_neg hrange, hopen]
    rfl
  have hsay (j : Nat) : (doPasscode s p k code).codeOf j = ((lineTaken s p).codeSet k code).codeOf j := by
    rw [heq, State.say_eq]
    rfl
  refine ⟨doPasscode s p k code, rfl, (hsay k).trans (State.codeSet_self ..), fun j hj => (hsay j).trans ((State.codeSet_other _ code hj).trans ?_), ?_, ?_⟩
  · exact lineTaken_of (fun u => u.codeOf j) s p fun _ _ _ => rfl
  · rw [heq]
    exact RegsBut.say p tag _ (RegsBut.of_regs (lineTaken_regs s p))
  · rw [heq]
    exact SameMem.of_mem ((State.say_mem ..).trans (lineTaken_mem s p))

/-- Settles O46: a login, an answer and a session's end act on the state with the line taken; what is queued as output leaves the sessions as they are. -/
theorem sessionsRiseAndEnd : Obligations.SessionsRiseAndEnd := by
  unfold Obligations.SessionsRiseAndEnd
  refine ⟨fun s p tag code h hcode hopen hright => congrArg Host.Outcome.next (loginCode_right h .installer (by decide) hcode hopen hright),
    fun s p tag k code h hk hk7 hcode hopen hright => ?_, fun s p tag code h hcode hopen hwrong => congrArg Host.Outcome.next (loginCode_wrong h .installer (by decide) hcode hopen hwrong),
    fun s p l => ?_, fun s p l _ => ?_, fun s p tag h hlcs hopen hrng => loginService_holds h hlcs hopen hrng, fun s p tag id sig h hlcs hopen => auth_holds h hlcs hopen,
    fun s p hsome hold => challengeExpire_holds hsome hold, fun s p hlocked hold => loginLockoutEnd_holds hlocked hold, fun s p tag h => logout_holds h,
    fun s p hon hidle => sessionIdle_holds hon hidle, fun s p tag k code h hk hcode hmay => passcode_holds h hk hcode hmay⟩
  · have heq : doLoginTenant s p k code = s.loginCode p (.tenant k) k code := if_neg (by omega)
    exact congrArg Host.Outcome.next (heq.trans (loginCode_right h (.tenant k) hk7 hcode hopen hright))
  · obtain ⟨hlevel, hfails, hauthed, -⟩ := s.loginOk_shows p l
    exact ⟨hlevel, hfails, by rw [hauthed, decide_eq_true_eq]⟩
  · obtain ⟨hfails, hlevel, -, hlocked, hconf⟩ := s.loginFailed_shows p l
    refine ⟨hfails, hlevel, hlocked.trans ?_, hconf⟩
    rw [State.failsNow, List.length_append, List.length_singleton]
    exact congrArg _ (decide_eq_decide.mpr (by omega))

end Sys2Proof.Machine
end

section
/-!
PROOFS. Staging and confirming (R338, R340, R341, R374, R375): what a `set`, a dropped staging, a confirmation by console and one by the tag's field leave of the configurations, and that only the commissioning record of the tag is written. They settle O50.
-/

namespace Sys2Proof.Machine

/-! The commissioning record -/

theorem dumpFit_length (room : Nat) (l : List (List Byte)) : (dumpFit room l).length ≤ room := by
  induction l generalizing room with
  | nil => exact Nat.zero_le _
  | cons b l ih =>
    rw [dumpFit]
    split
    · have := ih (room - b.length)
      rw [List.length_append]
      omega
    · exact Nat.zero_le _

theorem rdBytes_length (s : State) (a n : Nat) : (s.rdBytes a n).length = n := by
  induction n generalizing a with
  | zero => rfl
  | succ n ih => rw [State.rdBytes, List.length_cons, ih]

theorem rdBytes_getD (s : State) {a n i : Nat} (h : i < n) : (s.rdBytes a n).getD i 0 = s.rdB (a + i) := by
  induction n generalizing a i with
  | zero => omega
  | succ n ih =>
    cases i with
    | zero => rfl
    | succ i => exact (ih (a := a + 1) (by omega)).trans (by rw [Nat.add_right_comm, Nat.add_assoc])

/-- The record is written as 960 bytes at its place. -/
theorem State.writeRecord_eq (s : State) {conf : Option (List Byte)} (h : ∀ b, conf = some b → b.length = 12) :
    ∃ l : List Byte, l.length = 0x3C0 ∧ s.writeRecord conf = s.wrBytes recBase l := by
  refine ⟨_, ?_, rfl⟩
  have hconf (kept : List Byte) (hk : kept.length = 12) : (conf.getD kept).length = 12 := by
    cases conf with
    | none => exact hk
    | some b => exact h b rfl
  simp only [List.length_append, leBytes_length, List.length_take, List.length_replicate, List.length_cons, List.length_nil]
  rw [hconf]
  · omega
  · split
    · exact rdBytes_length ..
    · simp

theorem State.writeRecord_shows (s : State) {conf : Option (List Byte)} (h : ∀ b, conf = some b → b.length = 12) : let t := s.writeRecord conf
    t = { s with mem := t.mem } ∧ recordOnly s t := by
  obtain ⟨l, hl, heq⟩ := s.writeRecord_eq h
  dsimp only
  rw [heq]
  exact ⟨State.wrBytes_eq .., fun a ha => State.rdB_wrBytes_out _ _ _ _ (by rw [hl]; omega)⟩

theorem recordOnly_of_mem {s t u : State} (h : u.mem = s.mem) (ho : recordOnly u t) : recordOnly s t := fun a ha => (ho a ha).trans (SameMem.of_mem h a)

/-! Staging -/

/-- The staging that a `set` of the pairs leaves. -/
def State.stagedAfter (s : State) (pairs : List (PKey × PVal)) : List (PKey × PVal) :=
  let l := pairs.map (fun e => (e.1, canonVal (PName.info e.1.name).kind e.2))
  diffOf s.nv.confirmed (overlay s.stagedCfg l) (keysOf (s.nv.staged ++ l))

/-- The state with another staging, recorded. -/
def State.restaged (s : State) (src : Nat) (l : List (PKey × PVal)) : State :=
  let u : State := { s with nv := { s.nv with staged := l } }
  (u.logS 0x0E06 (u8 (cfgSource src) ++ u32 l.length ++ u32 u.checkNow)).writeRecord none

theorem State.restaged_shows (s : State) (src : Nat) (l : List (PKey × PVal)) : let t := s.restaged src l
    t.nv = { s.nv with staged := l } ∧ t.inForce = s.inForce ∧ RegsBut s t (logRegs 0) ∧ recordOnly s t := by
  unfold State.restaged
  dsimp only
  have hlog := State.logS_eq ({ s with nv := { s.nv with staged := l } } : State) 0x0E06 (u8 (cfgSource src) ++ u32 l.length ++ u32 ({ s with nv := { s.nv with staged := l } } : State).checkNow)
  have hregs : RegsBut s (State.logS { s with nv := { s.nv with staged := l } } 0x0E06 (u8 (cfgSource src) ++ u32 l.length ++ u32 ({ s with nv := { s.nv with staged := l } } : State).checkNow))
      (logRegs 0) := RegsBut.logS _ _ (RegsBut.mk_iff.mpr (RegsBut.refl s _)) fun _ ha => ha
  generalize State.logS { s with nv := { s.nv with staged := l } } 0x0E06 _ = u at *
  obtain ⟨hframe, hrec⟩ := u.writeRecord_shows (conf := none) (by simp)
  generalize u.writeRecord none = t at *
  exact ⟨(congrArg State.nv hframe :).trans (congrArg State.nv hlog :), (congrArg State.inForce hframe :).trans (congrArg State.inForce hlog :),
    hregs.trans (RegsBut.of_regs (congrArg State.regs hframe :)), recordOnly_of_mem (congrArg State.mem hlog :) hrec⟩

theorem State.stagePairs_set {s : State} (src : Nat) {pairs : List (PKey × PVal)} (hok : ∀ e ∈ pairs, pairOk e.1 e.2 = true)
    (hrules : brokenRules (overlay s.stagedCfg (pairs.map (fun e => (e.1, canonVal (PName.info e.1.name).kind e.2)))) ((s.stagedAfter pairs).map (fun e => e.1.name)) = []) :
    (s.stagePairs src pairs).2 = s.restaged src (s.stagedAfter pairs) := by
  have hnone : pairs.find? (fun e => !pairOk e.1 e.2) = none := List.find?_eq_none.mpr fun e he => by simp [hok e he]
  unfold State.stagedAfter at hrules
  unfold State.stagePairs
  simp only [hnone, hrules]
  rfl

theorem State.stagePairs_refused {s : State} (src : Nat) {pairs : List (PKey × PVal)} (hbad : ∃ e ∈ pairs, pairOk e.1 e.2 = false) : (s.stagePairs src pairs).2 = s := by
  obtain ⟨e, he, hwrong⟩ := hbad
  have hsome : (pairs.find? (fun e => !pairOk e.1 e.2)).isSome = true := List.find?_isSome.mpr ⟨e, he, by rw [hwrong]; rfl⟩
  obtain ⟨x, hx⟩ := Option.isSome_iff_exists.mp hsome
  unfold State.stagePairs
  simp only [hx]

section
variable {s : State} {p : Nat} {tag : Option String} (h : lineWaits s p tag)
include h

/-- Whether staging is open is judged on the state with the line taken as on the state before it. -/
theorem stagingOpen_lineTaken (keys : Bool) : (lineTaken s p).stagingOpen ((lineTaken s p).con p).level keys = s.stagingOpen (s.con p).level keys := by
  rw [level_lineTaken h]
  exact lineTaken_of (fun u => u.stagingOpen (s.con p).level keys) s p fun _ _ _ => rfl

theorem doSetParams_open {pairs : List (PKey × PVal)} (hopen : s.stagingOpen (s.con p).level (pairs.any (fun e => keyMaterial e.1.name)) = true) :
    ∃ l, doSetParams s p pairs = ((lineTaken s p).stagePairs p pairs).2.say p tag l := by
  unfold doSetParams
  rw [State.ianel_of_lineWaits _ h rfl]
  dsimp only
  rw [stagingOpen_lineTaken h, hopen, if_neg (by decide)]
  exact ⟨_, rfl⟩

theorem setParams_holds {pairs : List (PKey × PVal)} (hopen : s.stagingOpen (s.con p).level (pairs.any (fun e => keyMaterial e.1.name)) = true)
    (hok : ∀ e ∈ pairs, pairOk e.1 e.2 = true)
    (hrules : brokenRules (overlay s.stagedCfg (pairs.map (fun e => (e.1, canonVal (PName.info e.1.name).kind e.2)))) ((s.stagedAfter pairs).map (fun e => e.1.name)) = []) :
    Does (.setParams p pairs) s (fun t =>
      t.nv.staged = s.stagedAfter pairs ∧ t.nv = { s.nv with staged := t.nv.staged } ∧ t.inForce = s.inForce ∧ RegsBut s t (logRegs 0) ∧ recordOnly s t) := by
  obtain ⟨l, heq⟩ := doSetParams_open h hopen
  have hafter : (lineTaken s p).stagedAfter pairs = s.stagedAfter pairs := by rw [State.stagedAfter, State.stagedAfter, State.stagedCfg, State.stagedCfg, lineTaken_nv]
  have hcfg : (lineTaken s p).stagedCfg = s.stagedCfg := by rw [State.stagedCfg, State.stagedCfg, lineTaken_nv]
  rw [State.stagePairs_set p hok (by rw [hafter, hcfg]; exact hrules), hafter] at heq
  obtain ⟨hnv, hforce, hregs, hrec⟩ := (lineTaken s p).restaged_shows p (s.stagedAfter pairs)
  refine ⟨doSetParams s p pairs, rfl, ?_⟩
  dsimp only
  rw [heq, State.say_nv, State.say_inForce, hnv, hforce, lineTaken_nv]
  exact ⟨rfl, rfl, lineTaken_of State.inForce s p fun _ _ _ => rfl, RegsBut.say p tag l (RegsBut.source hregs (lineTaken_regs s p)),
    fun a ha => (SameMem.of_mem (State.say_mem ..) a).trans (recordOnly_of_mem (lineTaken_mem s p) hrec a ha)⟩

theorem setParams_refused {pairs : List (PKey × PVal)} (hbad : ∃ e ∈ pairs, pairOk e.1 e.2 = false) :
    Does (.setParams p pairs) s (fun t => t.nv = s.nv ∧ t.inForce = s.inForce ∧ RegsBut s t [] ∧ SameMem s t) := by
  have hsaid : ∃ l, doSetParams s p pairs = (lineTaken s p).say p tag l := by
    cases hopen : s.stagingOpen (s.con p).level (pairs.any (fun e => keyMaterial e.1.name)) with
    | true =>
      obtain ⟨l, heq⟩ := doSetParams_open h hopen
      exact ⟨l, heq.trans (by rw [State.stagePairs_refused p hbad])⟩
    | false =>
      unfold doSetParams
      rw [State.ianel_of_lineWaits _ h rfl]
      dsimp only
      rw [stagingOpen_lineTaken h, hopen, if_pos (by decide)]
      exact ⟨_, rfl⟩
  obtain ⟨l, heq⟩ := hsaid
  refine ⟨doSetParams s p pairs, rfl, ?_⟩
  dsimp only
  rw [heq, State.say_nv, State.say_inForce]
  exact ⟨lineTaken_nv s p, lineTaken_of State.inForce s p fun _ _ _ => rfl, RegsBut.say p tag l (RegsBut.of_regs (lineTaken_regs s p)),
    SameMem.of_mem ((State.say_mem ..).trans (lineTaken_mem s p))⟩

theorem stageDrop_holds (hopen : s.stagingOpen (s.con p).level false = true) (hstaged : s.nv.staged ≠ []) :
    Does (.stageDrop p) s (fun t => t.nv = { s.nv with staged := [] } ∧ t.inForce = s.inForce ∧ RegsBut s t (logRegs 0) ∧ recordOnly s t) := by
  have heq : doStageDrop s p = ((lineTaken s p).restaged p []).say p tag ["ok"] := by
    unfold doStageDrop
    rw [State.ianel_of_lineWaits _ h rfl, stagingOpen_lineTaken h, hopen, if_neg (by decide), if_neg (by rw [lineTaken_nv]; exact hstaged)]
    rfl
  obtain ⟨hnv, hforce, hregs, hrec⟩ := (lineTaken s p).restaged_shows p []
  refine ⟨doStageDrop s p, rfl, ?_⟩
  dsimp only
  rw [heq, State.say_nv, State.say_inForce, hnv, hforce, lineTaken_nv]
  exact ⟨rfl, lineTaken_of State.inForce s p fun _ _ _ => rfl, RegsBut.say p tag _ (RegsBut.source hregs (lineTaken_regs s p)),
    fun a ha => (SameMem.of_mem (State.say_mem ..) a).trans (recordOnly_of_mem (lineTaken_mem s p) hrec a ha)⟩

end

/-! Confirming -/

/-- Only registers, the log's state and the exchange of slot banks differ. -/
abbrev ShownFrame (s t : State) : Prop := t = { s with regs := t.regs, log := t.log, stk := t.stk }

theorem ShownFrame.trans {s t u : State} (h : ShownFrame s t) (h' : ShownFrame t u) : ShownFrame s u := by
  rw [ShownFrame, h', h]

theorem ShownFrame.of_log {s t : State} (h : LogFrame s t) : ShownFrame s t := by
  rw [ShownFrame, h]

theorem ShownFrame.foldl {α : Type} {s : State} {f : State → α → State} (l : List α) (h : ∀ u a, ShownFrame u (f u a)) : ShownFrame s (l.foldl f s) :=
  List.foldlRecOn l f (motive := fun u => ShownFrame s u) rfl fun u hu a _ => hu.trans (h u a)

theorem State.logHashes_frame (s : State) (changed : List PKey) : ShownFrame s (s.logHashes changed) :=
  ShownFrame.foldl changed fun u k => by
    split
    · exact ShownFrame.of_log (State.logS0_eq ..)
    · exact ShownFrame.of_log (State.logS0_eq ..)
    · rfl

theorem State.wrN_frame (s : State) (a n : Nat) : ShownFrame s (s.wrN a n) := rfl

/-- A list of pairs of register writes. -/
theorem ShownFrame.writes {α : Type} (s : State) (l : List α) (a m b n : α → Nat) : ShownFrame s (l.foldl (fun u e => (u.wrN (a e) (m e)).wrN (b e) (n e)) s) :=
  ShownFrame.foldl l fun u e => (u.wrN_frame (a e) (m e)).trans (State.wrN_frame _ (b e) (n e))

theorem State.writeSlots_frame (s : State) (settings : List (PKey × PVal)) : ShownFrame s (s.writeSlots settings) := by
  have hswap (u : State) : ShownFrame u (doSlotSwapRequest u) := rfl
  unfold State.writeSlots
  dsimp only
  generalize List.range 64 = l64
  generalize List.range 4 = l4
  exact (ShownFrame.writes s l64 _ _ _ _).trans ((ShownFrame.foldl l4 fun u sc => ShownFrame.writes u _ _ _ _ _).trans (hswap _))

theorem State.loadGrants_frame (s : State) (k : Nat) : ShownFrame s (s.loadGrants k) := by
  unfold State.loadGrants
  dsimp only
  exact (((((((s.wrN_frame _ _).trans (State.wrN_frame ..)).trans (State.wrN_frame ..)).trans (State.wrN_frame ..)).trans (State.wrN_frame ..)).trans (State.wrN_frame ..)).trans
    (State.wrN_frame ..)).trans (State.wrN_frame ..)

/-- What a confirmation shows and logs once the configuration is confirmed. -/
def State.confirmShown (s : State) (src check n m : Nat) (cfg : Settings) (changed : List PKey) : State :=
  let s := s.logS0 0x0E05 (u8 (cfgSource src) ++ u32 check ++ u32 n ++ u32 m)
  let s := (s.logHashes changed).showHashes
  let s := if changed.any (fun k => decide (k.name = .strokePeriod) || decide (k.name = .strokeHeat)) then
      s.logS 0x0204 (u8 ((Settings.get cfg (PKey.mk .strokePeriod 0) |> numOf |>.getD 0) / 1000).toNat ++ u8 ((Settings.get cfg (PKey.mk .strokeHeat 0) |> numOf |>.getD 0) / 1000).toNat)
    else s
  let s := if changed.any (fun k => decide (k.name = .partSlots)) then s.writeSlots cfg else s
  if changed.any (fun k => decide (k.name = .partGrants)) then ((List.range 7).map (· + 1)).foldl State.loadGrants s else s

theorem ShownFrame.ite {s t u : State} {c : Prop} [Decidable c] (ht : ShownFrame s t) (hu : ShownFrame s u) : ShownFrame s (if c then t else u) := by
  split
  · exact ht
  · exact hu

theorem State.confirmShown_frame (s : State) (src check n m : Nat) (cfg : Settings) (changed : List PKey) : ShownFrame s (s.confirmShown src check n m cfg changed) := by
  have hlog := ShownFrame.of_log (State.logS0_eq s 0x0E05 (u8 (cfgSource src) ++ u32 check ++ u32 n ++ u32 m))
  have hhash (u : State) : ShownFrame u (u.logHashes changed).showHashes := (u.logHashes_frame changed).trans rfl
  have hperiod (u : State) (c : Prop) [Decidable c] (l : List Byte) : ShownFrame u (if c then u.logS 0x0204 l else u) := ShownFrame.ite (ShownFrame.of_log (State.logS_eq ..)) rfl
  have hslots (u : State) (c : Prop) [Decidable c] : ShownFrame u (if c then u.writeSlots cfg else u) := ShownFrame.ite (u.writeSlots_frame cfg) rfl
  have hgrants (u : State) (c : Prop) [Decidable c] (l : List Nat) : ShownFrame u (if c then l.foldl State.loadGrants u else u) :=
    ShownFrame.ite (ShownFrame.foldl l State.loadGrants_frame) rfl
  exact hlog.trans ((hhash _).trans ((hperiod _ _ _).trans ((hslots _ _).trans (hgrants _ _ _))))

/-- The state whose staged configuration has become the confirmed one. -/
def State.confirmedNow (s : State) : State :=
  let changed := s.nv.staged.map (fun e => e.1)
  let serials := (changed.filter (fun k => decide (k.name = .chnSeatSerial))).map (fun k => k.idx)
  let r := s.nv.rad
  let rad := if s.lcs = lcsService then { r with changed := r.changed ++ serials.filter (fun i => !r.changed.contains i) } else r
  { s with nv := { s.nv with confirmed := s.stagedCfg, staged := [], cfgGen := s.nv.cfgGen + 1, rad := rad, floors := resetFloors s.nv.floors changed } }

theorem State.confirmCheck_right {s : State} (src : Nat) {check : Nat} (hcheck : check = s.checkNow) (hstaged : s.nv.staged ≠ [])
    (hrules : brokenRules s.stagedCfg (s.nv.staged.map (fun e => e.1.name)) = []) : ∃ n m,
    s.confirmCheck src check = (⟨0, "", n, m⟩, s.confirmedNow.confirmShown src check n m s.stagedCfg (s.nv.staged.map (fun e => e.1))) := by
  have hnames : (s.nv.staged.map (fun e => e.1)).map (fun k => k.name) = s.nv.staged.map (fun e => e.1.name) := List.map_map ..
  refine ⟨(s.nv.staged.map (fun e => e.1)).length - ((s.nv.staged.map (fun e => e.1)).filter (fun k => decide ((PName.info k.name).applied = .reset))).length,
    ((s.nv.staged.map (fun e => e.1)).filter (fun k => decide ((PName.info k.name).applied = .reset))).length, ?_⟩
  unfold State.confirmCheck
  dsimp only
  rw [if_neg (not_not_intro hcheck), if_neg hstaged, hnames, hrules]
  rfl

/-- A confirmation that is refused is logged with its error. -/
def State.confirmRefused (s : State) (src n : Nat) : State := s.logS0 0x0E07 (u8 (cfgSource src) ++ u8 n)

theorem State.confirmCheck_wrong {s : State} (src : Nat) {check : Nat} (hcheck : check ≠ s.checkNow) :
    s.confirmCheck src check = (⟨11, "", 0, 0⟩, s.confirmRefused src 11) := if_pos hcheck

theorem State.confirmCheck_cases (s : State) (src check : Nat) : (∃ n, (s.confirmCheck src check).2 = s.confirmRefused src n)
    ∨ check = s.checkNow ∧ s.nv.staged ≠ [] ∧ brokenRules s.stagedCfg (s.nv.staged.map (fun e => e.1.name)) = [] := by
  have hnames : (s.nv.staged.map (fun e => e.1)).map (fun k => k.name) = s.nv.staged.map (fun e => e.1.name) := List.map_map ..
  by_cases hcheck : check = s.checkNow
  · by_cases hstaged : s.nv.staged = []
    · refine .inl ⟨12, ?_⟩
      unfold State.confirmCheck
      dsimp only
      rw [if_neg (not_not_intro hcheck), if_pos hstaged]
      rfl
    · cases hrules : brokenRules s.stagedCfg (s.nv.staged.map (fun e => e.1.name)) with
      | nil => exact .inr ⟨hcheck, hstaged, rfl⟩
      | cons b l =>
        refine .inl ⟨9, ?_⟩
        unfold State.confirmCheck
        dsimp only
        rw [if_neg (not_not_intro hcheck), if_neg hstaged, hnames, hrules]
        rfl
  · exact .inl ⟨11, by rw [State.confirmCheck_wrong src hcheck]⟩

theorem State.confirmRefused_frame (s : State) (src n : Nat) : ShownFrame s (s.confirmRefused src n) := ShownFrame.of_log (State.logS0_eq ..)

theorem State.confirmed_shows {s : State} (src : Nat) {check : Nat} (hcheck : check = s.checkNow) (hstaged : s.nv.staged ≠ [])
    (hrules : brokenRules s.stagedCfg (s.nv.staged.map (fun e => e.1.name)) = []) : let r := s.confirmCheck src check
    r.1.err = 0 ∧ r.2.nv.confirmed = s.stagedCfg ∧ r.2.nv.staged = [] ∧ r.2.nv.cfgGen = s.nv.cfgGen + 1 ∧ r.2.nv.codes = s.nv.codes ∧ r.2.inForce = s.inForce
      ∧ r.2.mem = s.mem ∧ r.2.tag = s.tag := by
  obtain ⟨n, m, heq⟩ := State.confirmCheck_right src hcheck hstaged hrules
  have hframe := s.confirmedNow.confirmShown_frame src check n m s.stagedCfg (s.nv.staged.map (fun e => e.1))
  dsimp only
  rw [heq]
  generalize s.confirmedNow.confirmShown src check n m s.stagedCfg (s.nv.staged.map (fun e => e.1)) = t at *
  have hnv : t.nv = s.confirmedNow.nv := (congrArg State.nv hframe :)
  dsimp only
  rw [hnv]
  exact ⟨rfl, rfl, rfl, rfl, rfl, (congrArg State.inForce hframe :), (congrArg State.mem hframe :), (congrArg State.tag hframe :)⟩

theorem State.confirmCheck_keeps (s : State) (src check : Nat) : let t := (s.confirmCheck src check).2
    t.inForce = s.inForce ∧ t.mem = s.mem ∧ t.tag = s.tag := by
  obtain ⟨n, heq⟩ | ⟨hcheck, hstaged, hrules⟩ := s.confirmCheck_cases src check
  · have hframe := s.confirmRefused_frame src n
    rw [← heq] at hframe
    exact ⟨(congrArg State.inForce hframe :), (congrArg State.mem hframe :), (congrArg State.tag hframe :)⟩
  · obtain ⟨-, -, -, -, -, hforce, hmem, htag⟩ := State.confirmed_shows src hcheck hstaged hrules
    exact ⟨hforce, hmem, htag⟩

section
variable {s : State} {p : Nat} {tag : Option String} {check : Word} (h : lineWaits s p tag) (hopen : s.stagingOpen (s.con p).level false = true)
include h hopen

theorem doConfirm_eq : doConfirm s p check =
    if ((lineTaken s p).confirmCheck p check.toNat).1.err ≠ 0 then
      (((lineTaken s p).confirmCheck p check.toNat).2.writeRecord none).say p tag [errLine ((lineTaken s p).confirmCheck p check.toNat).1.err ((lineTaken s p).confirmCheck p check.toNat).1.detail]
    else (((lineTaken s p).confirmCheck p check.toNat).2.writeRecord none).say p tag ["confirm applied=" ++ toString ((lineTaken s p).confirmCheck p check.toNat).1.applied ++ " pending_reset="
      ++ toString ((lineTaken s p).confirmCheck p check.toNat).1.pending ++ " check=" ++ checkText check.toNat] := by
  unfold doConfirm
  rw [State.ianel_of_lineWaits _ h rfl, stagingOpen_lineTaken h, hopen, if_neg (by decide)]

theorem confirm_holds (hcheck : check.toNat = s.checkNow) (hstaged : s.nv.staged ≠ []) (hrules : brokenRules s.stagedCfg (s.nv.staged.map (fun e => e.1.name)) = []) :
    Does (.confirm p check) s (fun t =>
      t.nv.confirmed = s.stagedCfg ∧ t.nv.staged = [] ∧ t.nv.cfgGen = s.nv.cfgGen + 1 ∧ t.nv.codes = s.nv.codes ∧ t.inForce = s.inForce ∧ recordOnly s t) := by
  have hnv := lineTaken_nv s p
  have hcfg : (lineTaken s p).stagedCfg = s.stagedCfg := by rw [State.stagedCfg, State.stagedCfg, hnv]
  obtain ⟨herr, hconf, hnone, hgen, hcodes, hforce, hmem, -⟩ := State.confirmed_shows (s := lineTaken s p) p (check := check.toNat)
    (by rw [State.checkNow, hcfg]; exact hcheck) (by rw [hnv]; exact hstaged) (by rw [hcfg, hnv]; exact hrules)
  have heq := doConfirm_eq (check := check) h hopen
  rw [if_neg (not_not_intro herr)] at heq
  generalize ((lineTaken s p).confirmCheck p check.toNat).2 = u at *
  obtain ⟨hframe, hrec⟩ := u.writeRecord_shows (conf := none) (by simp)
  have hwnv : (u.writeRecord none).nv = u.nv := (congrArg State.nv hframe :)
  have hwforce : (u.writeRecord none).inForce = u.inForce := (congrArg State.inForce hframe :)
  refine ⟨doConfirm s p check, rfl, ?_⟩
  dsimp only
  rw [heq, State.say_nv, State.say_inForce, hwnv, hwforce, hconf, hgen, hcodes, hforce, hcfg, hnv]
  exact ⟨rfl, hnone, rfl, rfl, lineTaken_of State.inForce s p fun _ _ _ => rfl,
    fun a ha => (SameMem.of_mem (State.say_mem ..) a).trans (recordOnly_of_mem (hmem.trans (lineTaken_mem s p)) hrec a ha)⟩

theorem confirm_refused (hcheck : check.toNat ≠ s.checkNow) : ∃ u : State, exec (.confirm p check) s = .next (u.say p tag ["err 11 check"]) ∧ u.nv = s.nv ∧ u.inForce = s.inForce
    ∧ RegsBut s u (logRegs 0 ++ logRegs 1) ∧ recordOnly s u := by
  have hnv := lineTaken_nv s p
  have htext : errLine 11 = "err 11 check" := by decide
  have hwrong := State.confirmCheck_wrong (s := lineTaken s p) p (check := check.toNat) (by rw [State.checkNow, State.stagedCfg, hnv]; exact hcheck)
  have hlog : LogFrame (lineTaken s p) ((lineTaken s p).confirmRefused p 11) := State.logS0_eq ..
  have hregs : RegsBut s ((lineTaken s p).confirmRefused p 11) bothLogRegs := RegsBut.logS0 _ _ (RegsBut.of_regs (lineTaken_regs s p)) fun _ ha => ha
  have heq := doConfirm_eq (check := check) h hopen
  rw [hwrong, if_pos (show (11 : Nat) ≠ 0 by decide), htext] at heq
  generalize (lineTaken s p).confirmRefused p 11 = u at *
  obtain ⟨hframe, hrec⟩ := u.writeRecord_shows (conf := none) (by simp)
  refine ⟨u.writeRecord none, congrArg Host.Outcome.next heq, ?_, ?_, hregs.trans (RegsBut.of_regs (congrArg State.regs hframe :)), ?_⟩
  · exact (congrArg State.nv hframe :).trans ((congrArg State.nv hlog :).trans hnv)
  · exact (congrArg State.inForce hframe :).trans ((congrArg State.inForce hlog :).trans (lineTaken_of State.inForce s p fun _ _ _ => rfl))
  · exact recordOnly_of_mem ((congrArg State.mem hlog :).trans (lineTaken_mem s p)) hrec

end

/-! The tag's confirmation field -/

/-- The state whose confirmation field is no longer awaited. -/
def State.fieldTaken (s : State) : State := s.setTag { s.tag with confAt := none }

/-- The tag's confirmation field. -/
abbrev State.confField (s : State) : List Byte := s.rdBytes 0x500007C0 16

section
variable {s : State} (hon : s.camlanOn = true) (hstart : s.starting = false) (hat : s.tag.confAt.isSome = true)
include hon hstart hat

theorem doTagConfirmation_badCrc (hcrc : leNat ((s.confField.drop 12).take 2) ≠ crc16 (s.confField.take 12)) :
    doTagConfirmation s = s.fieldTaken.logS 0x1003 (u16 (leNat (s.confField.take 2)) ++ u8 (Config.freeOf 0x1003 1)) := by
  have hgo : ¬ (!s.camlanOn || s.starting || s.tag.confAt.isNone) = true := by
    rw [hon, hstart, Option.isNone_eq_false_iff.mpr hat]
    decide
  have hfield : s.fieldTaken.confField = s.confField := State.rdBytes_of_mem rfl ..
  unfold doTagConfirmation
  rw [if_neg hgo]
  dsimp only
  rw [← State.fieldTaken, ← State.confField, hfield, if_pos hcrc]
  exact if_pos (by decide)

theorem doTagConfirmation_valid {check : Nat} (hcrc : leNat ((s.confField.drop 12).take 2) = crc16 (s.confField.take 12)) (hflag : s.rdB 0x500007CE = 0x43)
    (hdigits : hexNum ((s.confField.drop 4).take 8) 0 = some check) (hnew : leNat (s.confField.take 2) ≠ s.ld (recBase + 0x18) 2) :
    ∃ b : List Byte, b.length = 12 ∧ doTagConfirmation s =
      ((s.fieldTaken.confirmCheck srcTag check).2.logS0 0x1002 (u16 (leNat (s.confField.take 2)) ++ u8 (s.fieldTaken.confirmCheck srcTag check).1.err)).writeRecord (some b) := by
  have hgo : ¬ (!s.camlanOn || s.starting || s.tag.confAt.isNone) = true := by
    rw [hon, hstart, Option.isNone_eq_false_iff.mpr hat]
    decide
  have hfield : s.fieldTaken.confField = s.confField := State.rdBytes_of_mem rfl ..
  have hbyte : s.confField.getD 14 0 = 0x43 := (rdBytes_getD s (by decide)).trans hflag
  have hseq : s.fieldTaken.ld (recBase + 0x18) 2 = s.ld (recBase + 0x18) 2 := State.ld_of_mem rfl ..
  unfold doTagConfirmation
  rw [if_neg hgo]
  dsimp only
  rw [← State.fieldTaken, ← State.confField, hfield, if_neg (not_not_intro hcrc), if_neg (not_not_intro hbyte), hdigits, hseq, if_neg (by simp), if_neg hnew, Option.getD_some]
  refine ⟨_, ?_, rfl⟩
  simp

theorem tagConfirmation_badCrc (hcrc : leNat ((s.confField.drop 12).take 2) ≠ crc16 (s.confField.take 12)) :
    Does .tagConfirmation s (fun t => t.nv = s.nv ∧ t.tag = { s.tag with confAt := none } ∧ RegsBut s t (logRegs 0) ∧ SameMem s t) := by
  refine ⟨doTagConfirmation s, rfl, ?_⟩
  dsimp only
  rw [doTagConfirmation_badCrc hon hstart hat hcrc, State.logS_nv, State.logS_tag]
  exact ⟨rfl, rfl, RegsBut.logS _ _ (RegsBut.of_regs rfl) fun _ ha => ha, SameMem.of_mem (State.logS_mem ..)⟩

theorem tagConfirmation_holds {check : Nat} (hcrc : leNat ((s.confField.drop 12).take 2) = crc16 (s.confField.take 12)) (hflag : s.rdB 0x500007CE = 0x43)
    (hdigits : hexNum ((s.confField.drop 4).take 8) 0 = some check) (hnew : leNat (s.confField.take 2) ≠ s.ld (recBase + 0x18) 2) :
    Does .tagConfirmation s (fun t =>
      (check = s.checkNow → s.nv.staged ≠ [] → brokenRules s.stagedCfg (s.nv.staged.map (fun e => e.1.name)) = [] → t.nv.confirmed = s.stagedCfg ∧ t.nv.staged = [])
        ∧ (check ≠ s.checkNow → t.nv = s.nv) ∧ t.tag.confAt = none ∧ t.inForce = s.inForce ∧ recordOnly s t) := by
  obtain ⟨b, hb, heq⟩ := doTagConfirmation_valid hon hstart hat hcrc hflag hdigits hnew
  obtain ⟨hforce, hmem, htag⟩ := s.fieldTaken.confirmCheck_keeps srcTag check
  have hright := State.confirmed_shows (s := s.fieldTaken) srcTag (check := check)
  have hwrong (hne : check ≠ s.checkNow) : (s.fieldTaken.confirmCheck srcTag check).2.nv = s.nv := by
    rw [State.confirmCheck_wrong (s := s.fieldTaken) srcTag hne]
    exact (congrArg State.nv (s.fieldTaken.confirmRefused_frame srcTag 11) :)
  generalize s.fieldTaken.confirmCheck srcTag check = r at *
  have hlog := State.logS0_eq r.2 0x1002 (u16 (leNat (s.confField.take 2)) ++ u8 r.1.err)
  generalize r.2.logS0 0x1002 (u16 (leNat (s.confField.take 2)) ++ u8 r.1.err) = u at *
  obtain ⟨hframe, hrec⟩ := u.writeRecord_shows (conf := some b) (by rintro _ ⟨⟩; exact hb)
  rw [← heq] at hframe hrec
  have hnv : (doTagConfirmation s).nv = r.2.nv := (congrArg State.nv hframe :).trans (congrArg State.nv hlog :)
  refine ⟨doTagConfirmation s, rfl, fun hcheck hstaged hrules => ?_, fun hne => hnv.trans (hwrong hne), ?_, ?_, ?_⟩
  · obtain ⟨-, hconf, hnone, -⟩ := hright hcheck hstaged hrules
    rw [hnv]
    exact ⟨hconf, hnone⟩
  · rw [(congrArg State.tag hframe :), (congrArg State.tag hlog :), htag]
    rfl
  · exact (congrArg State.inForce hframe :).trans ((congrArg State.inForce hlog :).trans hforce)
  · exact recordOnly_of_mem ((congrArg State.mem hlog :).trans hmem) hrec

end

/-- Settles O50: `set` and `stage drop` leave a new staging, a right confirmation makes it the confirmed configuration, and each writes the record alone. -/
theorem stagingAndConfirming : Obligations.StagingAndConfirming := by
  unfold Obligations.StagingAndConfirming
  exact ⟨fun s p tag pairs h hopen hok hrules => setParams_holds h hopen hok hrules, fun s p tag pairs h hbad => setParams_refused h hbad,
    fun s p tag h hopen hstaged => stageDrop_holds h hopen hstaged, fun s p tag check h hopen hcheck hstaged hrules => confirm_holds h hopen hcheck hstaged hrules,
    fun s p tag check h hopen hcheck => confirm_refused h hopen hcheck,
    fun s check hon hstart hat hcrc hflag hdigits hnew => tagConfirmation_holds hon hstart hat hcrc hflag hdigits hnew,
    fun s hon hstart hat hcrc => tagConfirmation_badCrc hon hstart hat hcrc⟩

end Sys2Proof.Machine
end

section
/-!
PROOFS. The life cycle (R126, R127): the new state of a completed transition, with the registers listed out of order. They refute O25.
-/

namespace Sys2Proof.Machine

/-! Registers out of order

`LCS.STATE` holds its reset value when a transition to BLANK is completed, so that its write lists nothing: a stale entry of `LCS.STATE` behind a higher address that
the reset drops is then read instead. The statement does not ask for the canonical form, which every step keeps. -/

/-- A part with a pending transition to BLANK, its registers listed out of order: one that a reset drops before a stale `LCS.STATE`. -/
def disorderedTransition : State :=
  { State.reset with
    regs := [(Reg.LCS_STATE + 1, 1), (Reg.LCS_STATE, 3)], power := { PowerSt.init with phase := .camlan }, nv := { State.reset.nv with pendingLcs := some (lcsBlank, 0) } }

theorem lcs_disorderedTransition : (doLcsTransitionComplete disorderedTransition).lcs = 3 := by decide +kernel

/-- Refutes O25: with the registers listed out of order the completed transition to BLANK shows state 3, for the reset drops what hid it. -/
theorem not_lifeCycleTransitions : ¬ Obligations.LifeCycleTransitions := by
  unfold Obligations.LifeCycleTransitions
  rintro ⟨-, -, -, -, -, hcomplete, -⟩
  obtain ⟨t, ht, hlcs, -⟩ := hcomplete disorderedTransition lcsBlank 0 rfl (by decide) (by decide) (by decide)
  have hnext : doLcsTransitionComplete disorderedTransition = t := Host.Outcome.next.inj ht
  rw [← hnext, lcs_disorderedTransition] at hlcs
  exact absurd hlcs (by decide)

end Sys2Proof.Machine
end

section
/-!
PROOFS. The logbook (R345 to R354): how a submission is judged, the writer, the reading window and the releases. They settle O52.
-/

namespace Sys2Proof.Machine

/-! A submission judged -/

/-- A unit that takes no token judged by the room of its book and of the pending FIFO. -/
def State.judgeRoom (s : State) (b : Nat) (unit : List LogRec) : Nat × State :=
  if bookCap b < s.bookHeld b + s.bookQueued b + unit.length then
    (subFull, { s.incSat (Reg.LOG_BOVF b) 0 32 unit.length with log := { s.log with lost := Tab.put 0 s.log.lost b (Tab.get 0 s.log.lost b + unit.length) } })
  else if 64 < s.log.pend.length + unit.length then (subPendFull, (s.incSat Reg.LOG_PENDDROP 0 16 1).setBit Reg.LOG_IRQ 1 true)
  else (subQueued, s.setPend (s.log.pend ++ unit))

theorem State.reportLost_none {s : State} {b : Nat} (h : Tab.get 0 s.log.lost b = 0 ∨ bookCap b ≤ s.bookHeld b + s.bookQueued b ∨ 64 ≤ s.log.pend.length) : s.reportLost b = s := by
  unfold State.reportLost
  dsimp only
  rw [if_neg (by omega)]

theorem State.judgeRoom_full {s : State} {b : Nat} {l : List LogRec} (h : bookCap b < s.bookHeld b + s.bookQueued b + l.length) : s.judgeRoom b l =
    (subFull, { s.incSat (Reg.LOG_BOVF b) 0 32 l.length with log := { s.log with lost := Tab.put 0 s.log.lost b (Tab.get 0 s.log.lost b + l.length) } }) := if_pos h

theorem State.judgeRoom_pendFull {s : State} {b : Nat} {l : List LogRec} (h : s.bookHeld b + s.bookQueued b + l.length ≤ bookCap b) (hpend : 64 < s.log.pend.length + l.length) :
    s.judgeRoom b l = (subPendFull, (s.incSat Reg.LOG_PENDDROP 0 16 1).setBit Reg.LOG_IRQ 1 true) := (if_neg (Nat.not_lt.mpr h)).trans (if_pos hpend)

theorem State.judgeRoom_queued {s : State} {b : Nat} {l : List LogRec} (h : s.bookHeld b + s.bookQueued b + l.length ≤ bookCap b) (hpend : s.log.pend.length + l.length ≤ 64) :
    s.judgeRoom b l = (subQueued, s.setPend (s.log.pend ++ l)) := (if_neg (Nat.not_lt.mpr h)).trans (if_neg (Nat.not_lt.mpr hpend))

theorem State.submit_exempt {s : State} {r : LogRec} (l : List LogRec) (hex : exemptRec s r) (hlost : s.reportLost r.book = s) : s.submit (r :: l) = s.judgeRoom r.book (r :: l) := by
  have hexempt : (decide (r.sevfl % 8 = 4) || decide (r.source = 0xF0) || !s.bit Reg.LOG_CTRL 1) = true := by
    obtain hcrit | hoff := hex
    · rw [decide_eq_true hcrit]
      rfl
    · rw [hoff]
      exact Bool.or_true _
  unfold State.submit
  dsimp only
  rw [hexempt, if_neg (by simp), if_pos rfl, hlost]
  rfl

theorem State.submit_suppressed {s : State} {r : LogRec} (hcrit : r.sevfl % 8 ≠ 4) (hown : r.source ≠ 0xF0) (hon : s.bit Reg.LOG_CTRL 1 = true)
    (htok : (s.bucket (s.bucketKey r.book r.code)).tokens = 0) : s.submit [r] = (subSuppressed,
      (s.setBucket (s.bucketKey r.book r.code) { s.bucket (s.bucketKey r.book r.code) with supp := (s.bucket (s.bucketKey r.book r.code)).supp + 1 }).incSat (Reg.LOG_BSUPP r.book) 0 32 1) := by
  have hexempt : (decide (r.sevfl % 8 = 4) || decide (r.source = 0xF0) || !s.bit Reg.LOG_CTRL 1) = false := by
    rw [decide_eq_false hcrit, decide_eq_false hown, hon]
    rfl
  unfold State.submit
  dsimp only
  rw [hexempt, if_pos (by rw [decide_eq_true htok]; rfl)]
  rfl

theorem State.bucket_setBucket (s : State) (k : Nat) (b : Bucket) : (s.setBucket k b).bucket k = b := by
  have hnone : (s.log.buckets.filter (fun e => decide (e.1 ≠ k))).find? (fun e => decide (e.1 = k)) = none :=
    List.find?_eq_none.mpr fun e he => by simpa using (List.mem_filter.mp he).2
  have hfind : (s.log.buckets.filter (fun e => decide (e.1 ≠ k)) ++ [(k, b)]).find? (fun e => decide (e.1 = k)) = some (k, b) := by
    rw [List.find?_append, hnone]
    simp
  unfold State.bucket State.setBucket
  rw [hfind]

theorem State.bucket_of_log {s t : State} (h : t.log = s.log) (k : Nat) : t.bucket k = s.bucket k := by rw [State.bucket, State.bucket, h]

theorem State.setPend_shows (s : State) {l : List LogRec} (hl : l.length ≤ 64) : let t := s.setPend l
    t.log = { s.log with pend := l } ∧ t.fld Reg.LOG_PEND 0 7 = l.length ∧ RegsBut s t [Reg.LOG_PEND] ∧ t.mem = s.mem := by
  refine ⟨rfl, ?_, s.setPend_regs l, rfl⟩
  rw [State.setPend, State.fld_setFld_other _ _ (by decide) (by decide), State.fld_setFld_self _ _ (by decide)]
  exact Nat.mod_eq_of_lt (by omega)

/-! A submission of a requester -/

/-- A requester's word for the result of its submission. -/
theorem rqReg_ne {rq : Requester} {a b : Nat} (ha : a < 2 ^ 32) (hb : b < 2 ^ 32) (h : a ≠ b) : rqReg rq a ≠ b := by
  unfold rqReg
  generalize Requester.idx rq = i
  cases i with
  | zero => omega
  | succ i => omega

theorem rqReg_inj {rq : Requester} {a b : Nat} (h : a ≠ b) : rqReg rq a ≠ rqReg rq b := by
  unfold rqReg
  omega

theorem doLogSubmit_single {s u : State} {rq : Requester} {r : LogRec} {n : Nat} (hr : s.subRecord rq = some r) (h : wholeUnit s rq) (hsub : s.submit [r] = (n, u)) :
    doLogSubmit s rq = u.wrN (rqReg rq Reg.LOG_SUBSTAT) n := by
  obtain ⟨hunits, hcont⟩ := h
  have hnone : s.log.units.find? (fun e => decide (e.1 = Requester.idx rq)) = none := List.find?_eq_none.mpr fun e he => by simpa using hunits e he
  have hwhole : ¬ (s.bit (rqReg rq Reg.LOG_SUBTIMEH) 31 = true ∧ rq = .cox) := by
    rintro ⟨hbit, rfl⟩
    exact Bool.false_ne_true ((hcont rfl).symm.trans hbit)
  unfold doLogSubmit
  simp only [hr, hnone]
  rw [if_neg hwhole, hsub]

theorem doLogSubmit_queued {s : State} {rq : Requester} {r : LogRec} (hr : s.subRecord rq = some r) (hunit : wholeUnit s rq) (hex : exemptRec s r)
    (hlost : Tab.get 0 s.log.lost r.book = 0) (hroom : s.bookHeld r.book + s.bookQueued r.book < bookCap r.book) (hpend : s.log.pend.length < 64) :
    doLogSubmit s rq = (s.setPend (s.log.pend ++ [r])).wrN (rqReg rq Reg.LOG_SUBSTAT) 0 :=
  doLogSubmit_single hr hunit ((State.submit_exempt [] hex (State.reportLost_none (.inl hlost))).trans (State.judgeRoom_queued (l := [r]) hroom hpend))

/-- The unit stands in the pending FIFO, and the requester is told so. -/
theorem submitted_shows {s u : State} {rq : Requester} {x : LogSt} {n : Nat} (hlog : u.log = x) (hdepth : u.fld Reg.LOG_PEND 0 7 = n) (hregs : RegsBut s u [Reg.LOG_PEND])
    (hmem : u.mem = s.mem) : let t := u.wrN (rqReg rq Reg.LOG_SUBSTAT) 0
    t.log = x ∧ t.rdN (rqReg rq Reg.LOG_SUBSTAT) = 0 ∧ t.fld Reg.LOG_PEND 0 7 = n ∧ RegsBut s t [Reg.LOG_PEND, rqReg rq Reg.LOG_SUBSTAT] ∧ SameMem s t := by
  refine ⟨hlog, (State.rdN_wrN_self ..).trans (Nat.zero_mod _), ?_, RegsBut.wrN _ (hregs.mono (by simp)) (by simp), SameMem.of_mem hmem⟩
  rw [State.fld_of_rd (State.rd_wrN_ne _ 0 (rqReg_ne (by decide) (by decide) (by decide))), hdepth]

section
variable {s : State} {rq : Requester} {r : LogRec} (hawake : s.awake = true) (hr : s.subRecord rq = some r) (hunit : wholeUnit s rq)
include hawake hr hunit

theorem logSubmit_queued (hex : exemptRec s r) (hlost : Tab.get 0 s.log.lost r.book = 0) (hroom : s.bookHeld r.book + s.bookQueued r.book < bookCap r.book) (hpend : s.log.pend.length < 64) :
    Does (.logSubmit rq) s (fun t => t.log = { s.log with pend := s.log.pend ++ [r] } ∧ t.rdN (rqReg rq Reg.LOG_SUBSTAT) = 0 ∧ t.fld Reg.LOG_PEND 0 7 = s.log.pend.length + 1
      ∧ RegsBut s t [Reg.LOG_PEND, rqReg rq Reg.LOG_SUBSTAT] ∧ SameMem s t) := by
  obtain ⟨hlog, hdepth, hregs, hmem⟩ := s.setPend_shows (l := s.log.pend ++ [r]) (by simp; omega)
  rw [List.length_append] at hdepth
  have hshows := submitted_shows (rq := rq) hlog hdepth hregs hmem
  rw [← doLogSubmit_queued hr hunit hex hlost hroom hpend] at hshows
  exact Does.byRequester hawake rfl hshows

theorem logSubmit_suppressed (hcrit : r.sevfl % 8 ≠ 4) (hown : r.source ≠ 0xF0) (hon : s.bit Reg.LOG_CTRL 1 = true) (htok : (s.bucket (s.bucketKey r.book r.code)).tokens = 0) :
    Does (.logSubmit rq) s (fun t => t.rdN (rqReg rq Reg.LOG_SUBSTAT) = 1 ∧ t.log.pend = s.log.pend
      ∧ t.bucket (s.bucketKey r.book r.code) = ⟨0, (s.bucket (s.bucketKey r.book r.code)).supp + 1⟩ ∧ RegsBut s t [Reg.LOG_BSUPP r.book, rqReg rq Reg.LOG_SUBSTAT] ∧ SameMem s t) := by
  have heq := doLogSubmit_single hr hunit (State.submit_suppressed hcrit hown hon htok)
  refine Does.byRequester hawake rfl ?_
  rw [heq]
  refine ⟨State.rdN_wrN_self .., rfl, ?_, RegsBut.wrN _ (RegsBut.incSat _ _ _ (RegsBut.of_regs rfl) (by simp)) (by simp), SameMem.of_mem rfl⟩
  refine (State.bucket_of_log rfl _).trans ((State.bucket_setBucket ..).trans ?_)
  dsimp only
  rw [htok]

theorem logSubmit_full (hex : exemptRec s r) (hfull : bookCap r.book ≤ s.bookHeld r.book + s.bookQueued r.book) :
    Does (.logSubmit rq) s (fun t => t.rdN (rqReg rq Reg.LOG_SUBSTAT) = 2 ∧ t.log = { s.log with lost := Tab.put 0 s.log.lost r.book (Tab.get 0 s.log.lost r.book + 1) }
      ∧ RegsBut s t [Reg.LOG_BOVF r.book, rqReg rq Reg.LOG_SUBSTAT] ∧ SameMem s t) := by
  have heq := doLogSubmit_single hr hunit
    ((State.submit_exempt [] hex (State.reportLost_none (.inr (.inl hfull)))).trans (State.judgeRoom_full (l := [r]) (Nat.lt_succ_of_le hfull)))
  refine Does.byRequester hawake rfl ?_
  rw [heq]
  exact ⟨State.rdN_wrN_self .., rfl, RegsBut.wrN _ (RegsBut.mk_iff.mpr (RegsBut.incSat _ _ _ (RegsBut.refl s _) (by simp))) (by simp), SameMem.of_mem rfl⟩

theorem logSubmit_pendFull (hex : exemptRec s r) (hroom : s.bookHeld r.book + s.bookQueued r.book < bookCap r.book) (hpend : 64 ≤ s.log.pend.length) :
    Does (.logSubmit rq) s (fun t => t.rdN (rqReg rq Reg.LOG_SUBSTAT) = 3 ∧ t.log = s.log ∧ t.fld Reg.LOG_PENDDROP 0 16 = min (s.fld Reg.LOG_PENDDROP 0 16 + 1) 0xFFFF ∧ t.bit Reg.LOG_IRQ 1 = true
      ∧ RegsBut s t [Reg.LOG_PENDDROP, Reg.LOG_IRQ, rqReg rq Reg.LOG_SUBSTAT] ∧ SameMem s t) := by
  have heq := doLogSubmit_single hr hunit
    ((State.submit_exempt [] hex (State.reportLost_none (.inr (.inr hpend)))).trans (State.judgeRoom_pendFull (l := [r]) hroom (Nat.lt_succ_of_le hpend)))
  refine Does.byRequester hawake rfl ?_
  rw [heq]
  refine ⟨State.rdN_wrN_self .., rfl, ?_, ?_, RegsBut.wrN _ (RegsBut.setBit _ _ (RegsBut.incSat _ _ _ (RegsBut.refl s _) (by simp)) (by simp)) (by simp), SameMem.of_mem rfl⟩
  · rw [State.fld_of_rd (State.rd_wrN_ne _ _ (rqReg_ne (by decide) (by decide) (by decide))), State.fld_setBit_ne _ _ _ _ _ (by decide), State.fld_incSat_self _ _ (by decide)]
    rfl
  · rw [State.bit_of_rd (State.rd_wrN_ne _ _ (rqReg_ne (by decide) (by decide) (by decide))), State.bit_setBit_self _ _ (by decide)]

end

theorem logSubmit_first {s : State} {r : LogRec} (hawake : s.awake = true) (hr : s.subRecord .cox = some r) (hnone : s.log.units = []) (hcont : s.bit Reg.LOG_SUBTIMEH 31 = true) :
    Does (.logSubmit .cox) s (fun t => t = { s with log := { s.log with units := [(0, r)] } }) := by
  refine Does.byRequester hawake rfl ?_
  unfold doLogSubmit
  simp only [hr, hnone, List.find?_nil]
  exact if_pos ⟨hcont, trivial⟩

/-- The unit of a first half and its continuation. -/
def unitOfTwo (first r : LogRec) : List LogRec := [first, { first with sevfl := first.sevfl ||| 64, arg := r.arg }]

/-- No first half waits any more. -/
def State.unitsDone (s : State) : State := { s with log := { s.log with units := [] } }

theorem doLogSubmit_unit {s u : State} {r first : LogRec} {n : Nat} (hr : s.subRecord .cox = some r) (hunits : s.log.units = [(0, first)])
    (hsub : s.unitsDone.submit (unitOfTwo first r) = (n, u)) : doLogSubmit s .cox = u.wrN Reg.LOG_SUBSTAT n := by
  unfold doLogSubmit
  simp only [hr, hunits]
  exact congrArg (fun e : Nat × State => e.2.wrN Reg.LOG_SUBSTAT e.1) hsub

theorem doLogSubmit_unitQueued {s : State} {r first : LogRec} (hr : s.subRecord .cox = some r) (hunits : s.log.units = [(0, first)]) (hcrit : first.sevfl % 8 = 4)
    (hlost : Tab.get 0 s.log.lost first.book = 0) (hroom : s.bookHeld first.book + s.bookQueued first.book + 2 ≤ bookCap first.book) (hpend : s.log.pend.length + 2 ≤ 64) :
    doLogSubmit s .cox = (s.unitsDone.setPend (s.log.pend ++ unitOfTwo first r)).wrN Reg.LOG_SUBSTAT 0 := by
  have hqueued : s.unitsDone.judgeRoom first.book (unitOfTwo first r) = (subQueued, s.unitsDone.setPend (s.log.pend ++ unitOfTwo first r)) :=
    State.judgeRoom_queued (s := s.unitsDone) (l := unitOfTwo first r) hroom hpend
  exact doLogSubmit_unit hr hunits ((State.submit_exempt (s := s.unitsDone) _ (.inl hcrit) (State.reportLost_none (.inl hlost))).trans hqueued)

theorem logSubmit_second {s : State} {r first : LogRec} (hawake : s.awake = true) (hr : s.subRecord .cox = some r) (hunits : s.log.units = [(0, first)]) (hcrit : first.sevfl % 8 = 4)
    (hlost : Tab.get 0 s.log.lost first.book = 0) (hroom : s.bookHeld first.book + s.bookQueued first.book + 2 ≤ bookCap first.book) (hpend : s.log.pend.length + 2 ≤ 64) :
    Does (.logSubmit .cox) s (fun t => t.log = { s.log with units := [], pend := s.log.pend ++ [first, { first with sevfl := first.sevfl ||| 64, arg := r.arg }] }
      ∧ t.rdN Reg.LOG_SUBSTAT = 0 ∧ RegsBut s t [Reg.LOG_PEND, Reg.LOG_SUBSTAT] ∧ SameMem s t) := by
  obtain ⟨hlog, hdepth, hregs, hmem⟩ := s.unitsDone.setPend_shows (l := s.log.pend ++ unitOfTwo first r) (by rw [List.length_append]; exact hpend)
  obtain ⟨htlog, hstat, -, htregs, htmem⟩ := submitted_shows (s := s.unitsDone) (rq := .cox) hlog hdepth hregs hmem
  refine Does.byRequester hawake rfl ?_
  rw [doLogSubmit_unitQueued hr hunits hcrit hlost hroom hpend]
  exact ⟨htlog, hstat, RegsBut.source htregs rfl, htmem⟩

theorem byRequester_self (s : State) : s.byRequester s = s := ite_self ..

theorem logSubmission_holds : logSubmission :=
  ⟨fun _ _ _ hawake hr hunit hex hlost hroom hpend => logSubmit_queued hawake hr hunit hex hlost hroom hpend,
    fun _ _ _ hawake hr hunit hcrit hown hon htok => logSubmit_suppressed hawake hr hunit hcrit hown hon htok,
    fun _ _ _ hawake hr hunit hex hfull => logSubmit_full hawake hr hunit hex hfull,
    fun _ _ _ hawake hr hunit hex hroom hpend => logSubmit_pendFull hawake hr hunit hex hroom hpend,
    fun _ _ hawake hr hnone hcont => logSubmit_first hawake hr hnone hcont,
    fun _ _ _ hawake hr hunits hcrit hlost hroom hpend => logSubmit_second hawake hr hunits hcrit hlost hroom hpend,
    fun s rq hnone => congrArg Host.Outcome.next (show s.byRequester (doLogSubmit s rq) = s by
      have hdo : doLogSubmit s rq = s := by
        unfold doLogSubmit
        simp only [hnone]
      rw [hdo, byRequester_self])⟩

/-! The writer -/

theorem State.wrBytes_mem_congr {s t : State} (h : t.mem = s.mem) (a : Nat) (l : List Byte) : (t.wrBytes a l).mem = (s.wrBytes a l).mem := by
  induction l generalizing s t a with
  | nil => exact h
  | cons b l ih => exact ih (by rw [State.wrB, State.wrB, h]) _

/-- The oldest record stored in its book's ring. -/
def State.recordStored (s : State) (r : LogRec) (rest : List LogRec) : State :=
  ((State.setFld { s with log := { s.log with pend := rest } } Reg.LOG_PEND 0 7 rest.length).wrBytes (slotAddr r.book (s.rdN (Reg.LOG_BNEXT r.book)))
    (recBytes (s.rdN (Reg.LOG_BNEXT r.book)) r)).wrN (Reg.LOG_BNEXT r.book) (s.rdN (Reg.LOG_BNEXT r.book) + 1)

theorem State.recordStored_shows (s : State) (r : LogRec) (rest : List LogRec) : let t := s.recordStored r rest
    t.log = { s.log with pend := rest } ∧ t.rdN (Reg.LOG_BNEXT r.book) = (s.rdN (Reg.LOG_BNEXT r.book) + 1) % 2 ^ 32
      ∧ t.mem = (s.wrBytes (slotAddr r.book (s.rdN (Reg.LOG_BNEXT r.book))) (recBytes (s.rdN (Reg.LOG_BNEXT r.book)) r)).mem ∧ RegsBut s t [Reg.LOG_PEND, Reg.LOG_BNEXT r.book] := by
  unfold State.recordStored
  generalize slotAddr r.book (s.rdN (Reg.LOG_BNEXT r.book)) = a
  generalize recBytes (s.rdN (Reg.LOG_BNEXT r.book)) r = l
  have hmem : (State.wrBytes (State.setFld { s with log := { s.log with pend := rest } } Reg.LOG_PEND 0 7 rest.length) a l).mem = (s.wrBytes a l).mem := by
    refine State.wrBytes_mem_congr ?_ a l
    rfl
  have hregs : RegsBut s (State.setFld { s with log := { s.log with pend := rest } } Reg.LOG_PEND 0 7 rest.length) [Reg.LOG_PEND, Reg.LOG_BNEXT r.book] :=
    RegsBut.setFld _ _ _ (RegsBut.of_regs rfl) (by simp)
  exact ⟨State.wrBytes_log .., State.rdN_wrN_self .., hmem, RegsBut.wrN _ (RegsBut.wrBytes _ _ hregs) (by simp)⟩

/-- The interrupt bits of a stored record change nothing else. -/
theorem irqShown_keeps (s : State) {c d : Prop} [Decidable c] [Decidable d] : let u := if c then s.setBit Reg.LOG_IRQ 2 true else s
    let t := if d then u.setBit Reg.LOG_IRQ 0 true else u
    RegsBut s t [Reg.LOG_IRQ] ∧ t.mem = s.mem ∧ t.log = s.log := by
  have hbit (u : State) (b : Nat) {e : Prop} [Decidable e] : RegsBut u (if e then u.setBit Reg.LOG_IRQ b true else u) [Reg.LOG_IRQ]
      ∧ (if e then u.setBit Reg.LOG_IRQ b true else u).mem = u.mem ∧ (if e then u.setBit Reg.LOG_IRQ b true else u).log = u.log := by
    split
    · exact ⟨RegsBut.setBit _ _ (RegsBut.refl u _) (by simp), rfl, rfl⟩
    · exact ⟨RegsBut.refl u _, rfl, rfl⟩
  obtain ⟨hr, hm, hl⟩ := hbit s 2 (e := c)
  generalize (if c then s.setBit Reg.LOG_IRQ 2 true else s) = u at *
  obtain ⟨hr', hm', hl'⟩ := hbit u 0 (e := d)
  exact ⟨hr.trans hr', hm'.trans hm, hl'.trans hl⟩

theorem doLogRecordWrite_eq {s : State} {r : LogRec} {rest : List LogRec} (hpend : s.log.pend = r :: rest) (hon : s.bit Reg.LOG_CTRL 0 = true) : doLogRecordWrite s =
    let u := if getField r.sevfl 3 1 = 1 then (s.recordStored r rest).setBit Reg.LOG_IRQ 2 true else s.recordStored r rest
    if u.bookHeld r.book = bookCap r.book then u.setBit Reg.LOG_IRQ 0 true else u := by
  unfold doLogRecordWrite
  simp only [hpend]
  rw [hon, if_neg (by decide)]
  rfl

theorem logRecordWrite_holds {s : State} {r : LogRec} {rest : List LogRec} (hpend : s.log.pend = r :: rest) (hon : s.bit Reg.LOG_CTRL 0 = true) :
    Does .logRecordWrite s (fun t => t.log = { s.log with pend := rest } ∧ t.rdN (Reg.LOG_BNEXT r.book) = (s.rdN (Reg.LOG_BNEXT r.book) + 1) % 2 ^ 32
      ∧ t.rdBytes (slotAddr r.book (s.rdN (Reg.LOG_BNEXT r.book))) (recBytes (s.rdN (Reg.LOG_BNEXT r.book)) r).length = recBytes (s.rdN (Reg.LOG_BNEXT r.book)) r
      ∧ (∀ a, a < slotAddr r.book (s.rdN (Reg.LOG_BNEXT r.book)) ∨ slotAddr r.book (s.rdN (Reg.LOG_BNEXT r.book)) + (recBytes (s.rdN (Reg.LOG_BNEXT r.book)) r).length ≤ a → t.rdB a = s.rdB a)
      ∧ RegsBut s t [Reg.LOG_PEND, Reg.LOG_BNEXT r.book, Reg.LOG_IRQ]) := by
  obtain ⟨hlog, hnext, hmem, hregs⟩ := s.recordStored_shows r rest
  have heq := doLogRecordWrite_eq hpend hon
  generalize s.recordStored r rest = v at *
  obtain ⟨hr, hm, hl⟩ := irqShown_keeps v (c := getField r.sevfl 3 1 = 1)
    (d := (if getField r.sevfl 3 1 = 1 then v.setBit Reg.LOG_IRQ 2 true else v).bookHeld r.book = bookCap r.book)
  dsimp only at heq hr hm hl
  rw [← heq] at hr hm hl
  have hne : Reg.LOG_BNEXT r.book ∉ [Reg.LOG_IRQ] := by
    unfold Reg.LOG_BNEXT Reg.LOG_IRQ
    simp only [List.mem_singleton]
    omega
  have hdone := hm.trans hmem
  refine ⟨doLogRecordWrite s, rfl, hl.trans hlog, (State.rdN_of_rd (hr _ hne)).trans hnext, ?_, fun a ha => ?_, (hregs.mono (by simp)).trans (hr.mono (by simp))⟩
  · rw [State.rdBytes_of_mem hdone, State.rdBytes_wrBytes]
  · rw [State.rdB, hdone, ← State.rdB, State.rdB_wrBytes_out _ _ _ _ ha]

/-! The reading window -/

/-- A row of registers written in order, from values that only the memory gives. -/
theorem writeRow_shows (s : State) {a : Nat → Nat} {f : State → Nat → Nat} (hinj : ∀ i j, i ≠ j → a i ≠ a j) (hf : ∀ u i, u.mem = s.mem → f u i = f s i) (n : Nat) :
    let t := (List.range n).foldl (fun u i => u.wrN (a i) (f u i)) s
    (∀ i, i < n → t.rdN (a i) = f s i % 2 ^ 32) ∧ RegsBut s t ((List.range n).map a) ∧ t.mem = s.mem ∧ t.log = s.log := by
  induction n with
  | zero => exact ⟨fun i hi => absurd hi (Nat.not_lt_zero i), RegsBut.refl s _, rfl, rfl⟩
  | succ n ih =>
    obtain ⟨hrow, hregs, hmem, hlog⟩ := ih
    dsimp only
    rw [List.range_succ, List.foldl_append, List.map_append]
    generalize (List.range n).foldl (fun u i => u.wrN (a i) (f u i)) s = u at *
    refine ⟨fun i hi => ?_, RegsBut.wrN _ (hregs.mono fun x hx => List.mem_append_left _ hx) (List.mem_append_right _ (List.mem_singleton.mpr rfl)), hmem, hlog⟩
    by_cases hin : i = n
    · rw [hin]
      exact (State.rdN_wrN_self ..).trans (by rw [hf u n hmem])
    · exact (State.rdN_wrN_ne _ _ (hinj n i (Ne.symm hin))).trans (hrow i (by omega))

section
variable {s : State} {rq : Requester}

/-- The registers of a requester's window. -/
def winRegs (rq : Requester) : List Nat := (Reg.LOG_CURSEQ :: Reg.LOG_WSTAT :: (List.range 8).map Reg.LOG_WIN).map (rqReg rq)

theorem curseq_mem_winRegs : rqReg rq Reg.LOG_CURSEQ ∈ winRegs rq := List.mem_map_of_mem List.mem_cons_self

theorem wstat_mem_winRegs : rqReg rq Reg.LOG_WSTAT ∈ winRegs rq := List.mem_map_of_mem (List.mem_cons_of_mem _ List.mem_cons_self)

theorem curBook_wrN (n : Nat) : (s.wrN (rqReg rq Reg.LOG_CURSEQ) n).curBook rq = s.curBook rq := by
  unfold State.curBook
  split
  · exact State.fld_wrN_ne _ _ _ _ (by decide)
  · rfl

theorem ld_lt (s : State) (a : Nat) : s.ld a 4 < 2 ^ 32 := by
  have hbyte (b : Nat) : (s.rdB b).toNat < 256 := (s.rdB b).isLt
  have h0 := hbyte a
  have h1 := hbyte (a + 1)
  have h2 := hbyte (a + 1 + 1)
  have h3 := hbyte (a + 1 + 1 + 1)
  simp only [State.ld, State.rdBytes, leNat]
  omega

/-- A word of the window: of the record at `addr`, or 0. -/
def State.winWord (s : State) (addr : Nat) (valid : Bool) (i : Nat) : Nat := if valid then s.ld (addr + 4 * i) 4 else 0

theorem State.winWord_of_mem {s t : State} (h : t.mem = s.mem) (addr : Nat) (valid : Bool) (i : Nat) : t.winWord addr valid i = s.winWord addr valid i := by
  rw [State.winWord, State.winWord, State.ld_of_mem h]

theorem State.winWord_mod (s : State) (addr : Nat) (valid : Bool) (i : Nat) : s.winWord addr valid i % 2 ^ 32 = s.winWord addr valid i := by
  rw [State.winWord]
  split
  · exact Nat.mod_eq_of_lt (ld_lt _ _)
  · exact Nat.zero_mod _

/-- The window filled with `stat` and, if `valid`, the words of the record at `addr`. -/
def State.fillWin (s : State) (rq : Requester) (stat addr : Nat) (valid : Bool) : State :=
  (List.range 8).foldl (fun u i => u.wrN (rqReg rq (Reg.LOG_WIN i)) (u.winWord addr valid i)) (s.wrN (rqReg rq Reg.LOG_WSTAT) stat)

/-- How far a number lies past the first record of the cursor's book. -/
def State.seqPast (s : State) (rq : Requester) (seq : Nat) : Nat := (seq + 2 ^ 32 - s.rdN (Reg.LOG_BFIRST (s.curBook rq))) % 2 ^ 32

theorem State.loadWin_eq {s : State} {rq : Requester} (seq : Nat) (hb : s.curBook rq < 9) : s.loadWin rq seq =
    s.fillWin rq (if decide (s.seqPast rq seq < s.bookHeld (s.curBook rq)) then 1 else if !decide (s.seqPast rq seq < s.bookHeld (s.curBook rq)) && decide (2 ^ 31 ≤ s.seqPast rq seq) then 2 else 4)
      (slotAddr (s.curBook rq) seq) (decide (s.seqPast rq seq < s.bookHeld (s.curBook rq))) := by
  unfold State.loadWin
  dsimp only
  rw [if_pos hb, if_pos hb]
  rfl

theorem State.fillWin_row (s : State) (rq : Requester) (stat addr : Nat) (valid : Bool) : let t := s.fillWin rq stat addr valid
    (∀ i, i < 8 → t.rdN (rqReg rq (Reg.LOG_WIN i)) = (s.wrN (rqReg rq Reg.LOG_WSTAT) stat).winWord addr valid i % 2 ^ 32)
      ∧ RegsBut (s.wrN (rqReg rq Reg.LOG_WSTAT) stat) t ((List.range 8).map fun i => rqReg rq (Reg.LOG_WIN i)) ∧ t.mem = s.mem ∧ t.log = s.log := by
  have hinj : ∀ i j, i ≠ j → rqReg rq (Reg.LOG_WIN i) ≠ rqReg rq (Reg.LOG_WIN j) := fun i j h => rqReg_inj (by unfold Reg.LOG_WIN; omega)
  exact writeRow_shows (s.wrN (rqReg rq Reg.LOG_WSTAT) stat) (a := fun i => rqReg rq (Reg.LOG_WIN i)) (f := fun v i => v.winWord addr valid i) hinj
    (fun v i hv => State.winWord_of_mem hv ..) 8

theorem State.fillWin_shows (s : State) (rq : Requester) (stat addr : Nat) (valid : Bool) : let t := s.fillWin rq stat addr valid
    t.rdN (rqReg rq Reg.LOG_CURSEQ) = s.rdN (rqReg rq Reg.LOG_CURSEQ) ∧ t.rdN (rqReg rq Reg.LOG_WSTAT) = stat % 2 ^ 32
      ∧ (∀ i, i < 8 → t.rdN (rqReg rq (Reg.LOG_WIN i)) = s.winWord addr valid i) ∧ RegsBut s t (winRegs rq) ∧ t.mem = s.mem ∧ t.log = s.log := by
  obtain ⟨hwin, hrow, hmem, hlog⟩ := s.fillWin_row rq stat addr valid
  dsimp only
  generalize s.fillWin rq stat addr valid = t at *
  have hcur : rqReg rq Reg.LOG_WSTAT ≠ rqReg rq Reg.LOG_CURSEQ := rqReg_inj (by decide)
  have hwrite : (s.wrN (rqReg rq Reg.LOG_WSTAT) stat).rdN (rqReg rq Reg.LOG_CURSEQ) = s.rdN (rqReg rq Reg.LOG_CURSEQ)
      ∧ (s.wrN (rqReg rq Reg.LOG_WSTAT) stat).rdN (rqReg rq Reg.LOG_WSTAT) = stat % 2 ^ 32 := ⟨State.rdN_wrN_ne _ _ hcur, State.rdN_wrN_self ..⟩
  have hwords (i : Nat) : (s.wrN (rqReg rq Reg.LOG_WSTAT) stat).winWord addr valid i % 2 ^ 32 = s.winWord addr valid i := by
    rw [State.winWord_of_mem (s := s) (t := s.wrN (rqReg rq Reg.LOG_WSTAT) stat) rfl, State.winWord_mod]
  have hregs : RegsBut s (s.wrN (rqReg rq Reg.LOG_WSTAT) stat) (winRegs rq) := RegsBut.wrN _ (RegsBut.refl s _) wstat_mem_winRegs
  generalize s.wrN (rqReg rq Reg.LOG_WSTAT) stat = u at *
  have hkeep {a : Nat} (h : ∀ i, a ≠ Reg.LOG_WIN i) : rqReg rq a ∉ (List.range 8).map (fun i => rqReg rq (Reg.LOG_WIN i)) := fun hin => by
    obtain ⟨i, -, hi⟩ := List.mem_map.mp hin
    exact rqReg_inj (h i).symm hi
  refine ⟨(State.rdN_of_rd (hrow _ (hkeep fun i => ?_))).trans hwrite.1, (State.rdN_of_rd (hrow _ (hkeep fun i => ?_))).trans hwrite.2,
    fun i hi => (hwin i hi).trans (hwords i), hregs.trans (hrow.mono fun a ha => ?_), hmem, hlog⟩
  · unfold Reg.LOG_CURSEQ Reg.LOG_WIN
    omega
  · unfold Reg.LOG_WSTAT Reg.LOG_WIN
    omega
  · obtain ⟨i, hi, rfl⟩ := List.mem_map.mp ha
    exact List.mem_map.mpr ⟨Reg.LOG_WIN i, List.mem_cons_of_mem _ (List.mem_cons_of_mem _ (List.mem_map_of_mem hi)), rfl⟩

/-- The cursor's book, and what it holds, are the same after the cursor is written. -/
theorem seqPast_wrN (hb : s.curBook rq < 9) (n seq : Nat) : let u := s.wrN (rqReg rq Reg.LOG_CURSEQ) n
    u.seqPast rq seq = s.seqPast rq seq ∧ u.bookHeld (u.curBook rq) = s.bookHeld (s.curBook rq) := by
  have hfirst : Reg.LOG_BFIRST (s.curBook rq) < 2 ^ 32 ∧ Reg.LOG_CURSEQ ≠ Reg.LOG_BFIRST (s.curBook rq) := by
    unfold Reg.LOG_BFIRST Reg.LOG_CURSEQ
    omega
  have hnext : Reg.LOG_BNEXT (s.curBook rq) < 2 ^ 32 ∧ Reg.LOG_CURSEQ ≠ Reg.LOG_BNEXT (s.curBook rq) := by
    unfold Reg.LOG_BNEXT Reg.LOG_CURSEQ
    omega
  have hrdfirst := State.rdN_wrN_ne s n (rqReg_ne (rq := rq) (by decide) hfirst.1 hfirst.2)
  have hrdnext := State.rdN_wrN_ne s n (rqReg_ne (rq := rq) (by decide) hnext.1 hnext.2)
  dsimp only
  rw [State.seqPast, State.seqPast, State.bookHeld, State.bookHeld, curBook_wrN, hrdfirst, hrdnext]
  exact ⟨rfl, rfl⟩

theorem winStat_eq (off held : Nat) : (if decide (off < held) then 1 else if !decide (off < held) && decide (2 ^ 31 ≤ off) then 2 else 4) % 2 ^ 32
    = if off < held then 1 else if 2 ^ 31 ≤ off then 2 else 4 := by
  by_cases hv : off < held
  · simp [hv]
  · rw [decide_eq_false hv, if_neg Bool.false_ne_true, if_neg hv]
    by_cases hg : 2 ^ 31 ≤ off
    · rw [decide_eq_true hg, if_pos (by decide), if_pos hg]
      rfl
    · rw [decide_eq_false hg, if_neg (by decide), if_neg hg]
      rfl

theorem windowShows_of {t : State} {seq : Nat} (hcur : t.rdN (rqReg rq Reg.LOG_CURSEQ) = seq)
    (hstat : t.rdN (rqReg rq Reg.LOG_WSTAT) = if s.seqPast rq seq < s.bookHeld (s.curBook rq) then 1 else if 2 ^ 31 ≤ s.seqPast rq seq then 2 else 4)
    (hwin : ∀ i, i < 8 → t.rdN (rqReg rq (Reg.LOG_WIN i)) = s.winWord (slotAddr (s.curBook rq) seq) (decide (s.seqPast rq seq < s.bookHeld (s.curBook rq))) i)
    (hregs : RegsBut s t (winRegs rq)) (hmem : t.mem = s.mem) (hlog : t.log = s.log) : windowShows s t rq seq := by
  refine ⟨hcur, hstat, fun i hi => (hwin i hi).trans ?_, hregs, SameMem.of_mem hmem, hlog⟩
  rw [State.winWord]
  simp only [decide_eq_true_eq]
  rfl

/-- The window loaded after the cursor was written shows the record that the book held at that number. -/
theorem loadWin_shows {seq : Nat} (hb : s.curBook rq < 9) (hseq : seq < 2 ^ 32) : windowShows s ((s.wrN (rqReg rq Reg.LOG_CURSEQ) seq).loadWin rq seq) rq seq := by
  obtain ⟨hpast, hheld⟩ := seqPast_wrN (rq := rq) hb seq seq
  have hbook := curBook_wrN (s := s) (rq := rq) seq
  have hcur : (s.wrN (rqReg rq Reg.LOG_CURSEQ) seq).rdN (rqReg rq Reg.LOG_CURSEQ) = seq := (State.rdN_wrN_self ..).trans (Nat.mod_eq_of_lt hseq)
  have hregs : RegsBut s (s.wrN (rqReg rq Reg.LOG_CURSEQ) seq) (winRegs rq) := RegsBut.wrN _ (RegsBut.refl s _) curseq_mem_winRegs
  have hmem : (s.wrN (rqReg rq Reg.LOG_CURSEQ) seq).mem = s.mem := rfl
  have hlog : (s.wrN (rqReg rq Reg.LOG_CURSEQ) seq).log = s.log := rfl
  generalize s.wrN (rqReg rq Reg.LOG_CURSEQ) seq = u at *
  have heq := State.loadWin_eq (s := u) (rq := rq) seq (by rw [hbook]; exact hb)
  rw [hpast, hheld, hbook] at heq
  obtain ⟨hfcur, hfstat, hfwin, hfregs, hfmem, hflog⟩ := u.fillWin_shows rq
    (if decide (s.seqPast rq seq < s.bookHeld (s.curBook rq)) then 1 else if !decide (s.seqPast rq seq < s.bookHeld (s.curBook rq)) && decide (2 ^ 31 ≤ s.seqPast rq seq) then 2 else 4)
    (slotAddr (s.curBook rq) seq) (decide (s.seqPast rq seq < s.bookHeld (s.curBook rq)))
  rw [← heq] at hfcur hfstat hfwin hfregs hfmem hflog
  exact windowShows_of (hfcur.trans hcur) (hfstat.trans (winStat_eq ..)) (fun i hi => (hfwin i hi).trans (State.winWord_of_mem hmem ..)) (hregs.trans hfregs) (hfmem.trans hmem)
    (hflog.trans hlog)

theorem cursorLoad_holds {seq : Word} (hawake : s.awake = true) (hmay : s.mayReadLog rq = true) (hb : s.curBook rq < 9) :
    Does (.logCursorLoad rq seq) s (fun t => windowShows s t rq seq.toNat) := by
  have heq : doLogCursorLoad s rq seq = (s.wrN (rqReg rq Reg.LOG_CURSEQ) seq.toNat).loadWin rq seq.toNat := by
    rw [doLogCursorLoad, hmay, if_pos rfl, State.wrN, wordOf, BitVec.ofNat_toNat, BitVec.setWidth_eq]
  refine Does.byRequester hawake rfl ?_
  rw [heq]
  exact loadWin_shows hb seq.isLt

theorem windowShows_read {u : State} {seq : Nat} (v : Word) (h : windowShows s u rq seq) : windowShows s { u with rdata := v } rq seq ∧ ({ u with rdata := v } : State).rdata = v := ⟨h, rfl⟩

/-- The number after the cursor's. -/
def State.nextSeq (s : State) (rq : Requester) : Nat := (s.rdN (rqReg rq Reg.LOG_CURSEQ) + 1) % 2 ^ 32

theorem doLogWindowAdvance_eq (hmay : s.mayReadLog rq = true) : doLogWindowAdvance s rq =
    { (s.wrN (rqReg rq Reg.LOG_CURSEQ) (s.nextSeq rq)).loadWin rq (s.nextSeq rq) with rdata := s.rd (rqReg rq (Reg.LOG_WIN 7)) } := if_pos hmay

theorem windowAdvance_holds (hawake : s.awake = true) (hmay : s.mayReadLog rq = true) (hb : s.curBook rq < 9) :
    Does (.logWindowAdvance rq) s (fun t => windowShows s t rq (s.nextSeq rq) ∧ t.rdata = s.rd (rqReg rq (Reg.LOG_WIN 7))) := by
  have hshows := windowShows_read (s.rd (rqReg rq (Reg.LOG_WIN 7))) (loadWin_shows (s := s) (rq := rq) hb (Nat.mod_lt (s.rdN (rqReg rq Reg.LOG_CURSEQ) + 1) (by decide)))
  rw [← State.nextSeq, ← doLogWindowAdvance_eq hmay] at hshows
  exact Does.byRequester hawake rfl hshows

theorem window_refused {seq : Word} (hmay : s.mayReadLog rq = false) : exec (.logCursorLoad rq seq) s = .next s ∧ exec (.logWindowAdvance rq) s = .next s := by
  have hload : doLogCursorLoad s rq seq = s := by
    rw [doLogCursorLoad, hmay]
    rfl
  have hadvance : doLogWindowAdvance s rq = s := by
    rw [doLogWindowAdvance, hmay]
    rfl
  exact ⟨congrArg Host.Outcome.next (show s.byRequester (doLogCursorLoad s rq seq) = s by rw [hload, byRequester_self]),
    congrArg Host.Outcome.next (show s.byRequester (doLogWindowAdvance s rq) = s by rw [hadvance, byRequester_self])⟩

/-! Releases -/

theorem release_holds {b : Nat} (src : Nat) (hb : b < 9) : let t := s.release b (s.rdN Reg.LOG_RELUPTO) src
    t.rdN (Reg.LOG_BFIRST b) = (if 2 ^ 31 ≤ (s.rdN Reg.LOG_RELUPTO + 2 ^ 32 - s.rdN (Reg.LOG_BFIRST b)) % 2 ^ 32 then s.rdN (Reg.LOG_BFIRST b)
      else (s.rdN (Reg.LOG_BFIRST b) + min ((s.rdN Reg.LOG_RELUPTO + 2 ^ 32 - s.rdN (Reg.LOG_BFIRST b)) % 2 ^ 32 + 1) (s.bookHeld b)) % 2 ^ 32)
    ∧ RegsBut s t (Reg.LOG_BFIRST b :: logRegs 0) ∧ SameMem s t := by
  by_cases hpast : s.pastFirst b (s.rdN Reg.LOG_RELUPTO) < 2 ^ 31
  · obtain ⟨hmoved, hregs, hmem, -⟩ := State.release_moves (upto := s.rdN Reg.LOG_RELUPTO) src (Nat.le_of_lt_succ hb) hpast
    exact ⟨hmoved.trans (if_neg (Nat.not_le.mpr hpast)).symm, hregs, SameMem.of_mem hmem⟩
  · have hsame : s.release b (s.rdN Reg.LOG_RELUPTO) src = s := by
      rw [State.release, if_neg (by omega)]
      exact if_pos (Nat.not_lt.mp hpast)
    dsimp only
    rw [hsame]
    exact ⟨(if_pos (Nat.not_lt.mp hpast)).symm, RegsBut.refl s _, SameMem.refl s⟩

theorem bookRelease_holds {book b : Nat} (hawake : s.awake = true) (hwho : (rq = .cox ∧ b = book) ∨ (rq ≠ .cox ∧ ∃ k, s.logTenant rq = some k ∧ b = 1 + k)) (hb : b < 9) :
    Does (.logBookRelease rq book) s (fun t =>
      t.rdN (Reg.LOG_BFIRST b) = (if 2 ^ 31 ≤ (s.rdN Reg.LOG_RELUPTO + 2 ^ 32 - s.rdN (Reg.LOG_BFIRST b)) % 2 ^ 32 then s.rdN (Reg.LOG_BFIRST b)
        else (s.rdN (Reg.LOG_BFIRST b) + min ((s.rdN Reg.LOG_RELUPTO + 2 ^ 32 - s.rdN (Reg.LOG_BFIRST b)) % 2 ^ 32 + 1) (s.bookHeld b)) % 2 ^ 32)
      ∧ RegsBut s t (Reg.LOG_BFIRST b :: logRegs 0) ∧ SameMem s t) := by
  refine Does.byRequester hawake rfl ?_
  obtain ⟨rfl, rfl⟩ | ⟨hrq, k, hk, rfl⟩ := hwho
  · exact release_holds 0 hb
  · have heq : doLogBookRelease s rq book = s.release (1 + k) (s.rdN Reg.LOG_RELUPTO) (0x20 + k) := by
      unfold doLogBookRelease
      split
      · exact absurd rfl hrq
      · simp only [hk]
    rw [heq]
    exact release_holds (0x20 + k) hb

theorem bookRelease_refused {book : Nat} (hrq : rq ≠ .cox) (hnone : s.logTenant rq = none) : exec (.logBookRelease rq book) s = .next s := by
  have heq : doLogBookRelease s rq book = s := by
    unfold doLogBookRelease
    split
    · exact absurd rfl hrq
    · simp only [hnone]
  exact congrArg Host.Outcome.next (show s.byRequester (doLogBookRelease s rq book) = s by rw [heq, byRequester_self])

end

theorem logRecordWrite_waits {s : State} (h : s.log.pend = [] ∨ s.bit Reg.LOG_CTRL 0 = false) : exec .logRecordWrite s = .next s := by
  have heq : doLogRecordWrite s = s := by
    unfold doLogRecordWrite
    split
    · rfl
    · next r rest hpend =>
      obtain hnone | hoff := h
      · rw [hnone] at hpend
        contradiction
      · exact if_pos (by rw [hoff]; rfl)
  exact congrArg Host.Outcome.next heq

theorem logWriterWindowAndRelease_holds : logWriterWindowAndRelease :=
  ⟨fun _ _ _ hpend hon _ => logRecordWrite_holds hpend hon, fun _ h => logRecordWrite_waits h, fun _ _ _ hawake hmay hb => cursorLoad_holds hawake hmay hb,
    fun _ _ hawake hmay hb => windowAdvance_holds hawake hmay hb, fun _ _ _ hmay => window_refused hmay, fun _ _ _ _ hawake hwho hb => bookRelease_holds hawake hwho hb,
    fun _ _ _ hrq hnone => bookRelease_refused hrq hnone⟩

/-- Settles O52: the submission's four outcomes and its units, and the writer, the window and the releases. -/
theorem logbookSubmissionAndBooks : Obligations.LogbookSubmissionAndBooks := ⟨logSubmission_holds, logWriterWindowAndRelease_holds⟩

end Sys2Proof.Machine
end

section
/-!
PROOFS. CAN objects: reception, object windows, requests and aborts (R294 to R297). It settles O39.
-/

namespace Sys2Proof.Machine

theorem canIdx_le (x : CanId) : canIdx x ≤ 2 := by cases x <;> decide

@[simp] theorem State.can_setCan (s : State) (x : Nat) (c : CanSt) : (s.setCan x c).can x = c := Tab.get_put_self ..

theorem State.can_of_cans {s t : State} (h : t.cans = s.cans) (x : Nat) : t.can x = s.can x := congrArg (fun c => Tab.get CanSt.init c x) h

/-! Reception (R294, R295) -/

theorem State.markNew_shows (s : State) {new lost irq k : Nat} (hk : k < 32) (hlost : lost ≠ new) (hirq : irq ≠ new) (hirq' : irq ≠ lost) :
    let t := ((if s.bit new k then s.setBit lost k true else s).setBit new k true).setBit irq 0 true
    t.bit new k = true ∧ (s.bit new k = true → t.bit lost k = true) ∧ RegsBut s t [new, lost, irq] ∧ t.cans = s.cans := by
  refine ⟨by simp [hk, hirq], fun hnew => by simp [hnew, hk, hirq', hlost.symm], ?_, ?_⟩
  · exact ((RegsBut.ite (fun _ => (RegsBut.refl s _).setBit _ _ (by simp)) fun _ => RegsBut.refl s _).setBit _ _ (by simp)).setBit _ _ (by simp)
  · simp only [State.setBit_cans]
    split <;> rfl

theorem State.rxGrant_lt {s : State} {x i k : Nat} (h : s.rxGrant x i = some k) : k < 7 := List.mem_range.mp (List.mem_of_find?_eq_some h)

theorem State.rd_setEvp_ne (s : State) {k a : Nat} (bits : Nat) (h : Reg.PART_EVP k ≠ a) : (s.setEvp (k + 1) bits).rd a = s.rd a := State.rd_orReg_ne s _ h

theorem State.toObject_shows (s : State) {x i : Nat} (o : CanObj) (hx : x ≤ 2) {new lost : Nat} (hnew : (if i < 32 then Reg.CAN_RXNEW0 x else Reg.CAN_RXNEW1 x) = new)
    (hlost : (if i < 32 then Reg.CAN_RXLOST0 x else Reg.CAN_RXLOST1 x) = lost) : let t := s.toObject x i o
    t.can x = { s.can x with rx := Tab.put CanObj.init (s.can x).rx i o } ∧ t.bit new (i % 32) = true ∧ (s.bit new (i % 32) = true → t.bit lost (i % 32) = true)
      ∧ ∀ a, 0x40014000 ≤ a → a ≠ new → a ≠ lost → a ≠ Reg.CAN_IRQ x → t.rd a = s.rd a := by
  have hk : i % 32 < 32 := Nat.mod_lt _ (by decide)
  have hrange : 0x40014080 ≤ new ∧ new < lost ∧ lost < 0x400160B0 ∧ lost < Reg.CAN_IRQ x := by
    subst hnew hlost
    unfold Reg.CAN_RXNEW0 Reg.CAN_RXNEW1 Reg.CAN_RXLOST0 Reg.CAN_RXLOST1 Reg.CAN_IRQ
    split <;> omega
  unfold State.toObject
  dsimp only
  rw [hnew, hlost]
  obtain ⟨hset, hstood, hregs, hcans⟩ := (s.setCan x { s.can x with rx := Tab.put CanObj.init (s.can x).rx i o }).markNew_shows (irq := Reg.CAN_IRQ x) hk (by omega : lost ≠ new)
    (by omega) (by omega)
  have hcan := State.can_of_cans hcans x
  rw [State.can_setCan] at hcan
  have hrd (a : Nat) (hnew : a ≠ new) (hlost : a ≠ lost) (hirq : a ≠ Reg.CAN_IRQ x) := hregs a (by simp [hnew, hlost, hirq])
  split
  case h_1 k hgrant =>
    have hk7 := State.rxGrant_lt hgrant
    have hevp (a : Nat) (ha : 0x40014000 ≤ a) : Reg.PART_EVP k ≠ a := by unfold Reg.PART_EVP; omega
    refine ⟨(State.can_of_cans (State.orReg_cans _ _ _) x).trans hcan, ?_, fun h => ?_, fun a ha hnew hlost hirq => ?_⟩
    · exact (State.bit_of_rd (State.rd_setEvp_ne _ _ (hevp _ (by omega))) _).trans hset
    · exact (State.bit_of_rd (State.rd_setEvp_ne _ _ (hevp _ (by omega))) _).trans (hstood h)
    · exact (State.rd_setEvp_ne _ _ (hevp _ ha)).trans (hrd a hnew hlost hirq)
  case h_2 => exact ⟨hcan, hset, hstood, fun a _ => hrd a⟩

theorem State.toFifo_shows (s : State) (x : Nat) (o : CanObj) : let t := s.toFifo x o
    (t.can x).fifo = (if 128 ≤ (s.can x).fifo.length then (s.can x).fifo else (s.can x).fifo ++ [o])
      ∧ (128 ≤ (s.can x).fifo.length → t.fld (Reg.CAN_FIFODROP x) 0 16 = min (s.fld (Reg.CAN_FIFODROP x) 0 16 + 1) 0xFFFF)
      ∧ RegsBut s t [Reg.CAN_FIFODROP x, Reg.CAN_FIFOST x, Reg.CAN_IRQ x] := by
  have hirq : Reg.CAN_IRQ x ≠ Reg.CAN_FIFODROP x := by unfold Reg.CAN_IRQ Reg.CAN_FIFODROP; omega
  unfold State.toFifo
  dsimp only
  split
  case isTrue hfull =>
    refine ⟨?_, fun _ => ?_, by simp [State.setCan]⟩
    · exact (congrArg CanSt.fifo (State.can_setCan s x { s.can x with dropped := (s.can x).dropped + 1 }) :)
    · rw [State.fld_setBit_ne _ _ _ _ _ hirq, State.fld_incSat_self _ _ (by decide)]
      rfl
  case isFalse hroom =>
    refine ⟨?_, fun h => absurd h hroom, by simp [State.setCan]⟩
    exact (congrArg CanSt.fifo (State.can_setCan s x { s.can x with fifo := (s.can x).fifo ++ [o] }) :)

theorem takesFrame_iff (s : State) (x : CanId) (f : CanFrame) :
    (!s.bit (Reg.CAN_CTRL (canIdx x)) 0 || s.bit (Reg.CAN_CTRL (canIdx x)) 4 || (f.fdf && !s.bit (Reg.CAN_CTRL (canIdx x)) 1)) = !s.takesFrame x f := by
  simp [State.takesFrame, Bool.not_and, Bool.or_assoc]

theorem doCanFrameReceived_refused {s : State} {x : CanId} {f : CanFrame} (us : Nat) (h : s.takesFrame x f = false) : doCanFrameReceived s x f us = s :=
  if_pos ((takesFrame_iff s x f).trans (by rw [h]; rfl))

theorem State.now_atUs {s : State} {us : Nat} (h : us < 2 ^ 15) : (s.atUs us).now = (s.stk.base + us) % 2 ^ 48 := by
  rw [State.now, State.us_atUs, Nat.mod_eq_of_lt h, State.atUs, State.setFld_stk]

theorem doCanFrameReceived_taken {s : State} {x : CanId} {f : CanFrame} {us : Nat} (h : s.takesFrame x f = true) (hus : us < 2 ^ 15) :
    doCanFrameReceived s x f us = (s.atUs us).canStore (canIdx x) (frameObj f ((s.stk.base + us) % 2 ^ 48)) := by
  unfold doCanFrameReceived
  dsimp only
  rw [takesFrame_iff, h, if_neg (by decide), State.now_atUs hus]

theorem frameObj_remote (f : CanFrame) (ts : Nat) : getField (frameObj f ts).w1 31 1 = if f.rtr then 1 else 0 := by
  unfold frameObj getField
  dsimp only
  cases f.rtr <;> cases f.esi <;> simp <;> omega

theorem State.rxMatch_atUs (s : State) (us x : Nat) (hx : x ≤ 2) (o : CanObj) : (s.atUs us).rxMatch x o = s.rxMatch x o := by
  have h0 : Reg.STK_PHASE ≠ Reg.CAN_RXEN0 x := by unfold Reg.STK_PHASE Reg.CAN_RXEN0; omega
  have h1 : Reg.STK_PHASE ≠ Reg.CAN_RXEN1 x := by unfold Reg.STK_PHASE Reg.CAN_RXEN1; omega
  unfold State.rxMatch State.atUs
  simp only [State.bit_setFld_ne _ _ _ _ _ h0, State.bit_setFld_ne _ _ _ _ _ h1]
  rfl

theorem State.canStore_object {s : State} {x i : Nat} {o : CanObj} (hdata : getField o.w1 31 1 ≠ 1) (hmatch : s.rxMatch x o = some i) (hall : (s.toObject x i o).bit (Reg.CAN_FIFOCTRL x) 0 = false) :
    s.canStore x o = s.toObject x i o := by
  unfold State.canStore
  rw [if_neg hdata, hmatch]
  dsimp only
  rw [hall]
  rfl

theorem State.canStore_fifo {s : State} {x : Nat} {o : CanObj} (h : getField o.w1 31 1 = 1 ∨ s.rxMatch x o = none) : s.canStore x o = s.toFifo x o := by
  have hnone : (if getField o.w1 31 1 = 1 then none else s.rxMatch x o) = none := by
    obtain h | h := h
    · exact if_pos h
    · rw [h, ite_self]
  unfold State.canStore
  rw [hnone]

/-! Object windows (R296) -/

@[simp] theorem rqReg_cox (a : Nat) : rqReg .cox a = a := Nat.add_zero a

theorem leNat_lt_of_length {l : List Byte} {n : Nat} (h : l.length ≤ n) : leNat l < 256 ^ n := by
  induction l generalizing n with
  | nil => exact Nat.pow_pos (by decide)
  | cons b l ih =>
    obtain ⟨m, rfl⟩ : ∃ m, n = m + 1 := ⟨n - 1, by simp at h; omega⟩
    have hl := ih (n := m) (by simpa using h)
    have hb := b.isLt
    rw [leNat, Nat.pow_succ]
    omega

theorem CAN_WBUF_ne (x : Nat) {i j : Nat} (h : i ≠ j) : Reg.CAN_WBUF x i ≠ Reg.CAN_WBUF x j := by
  unfold Reg.CAN_WBUF
  omega

theorem State.loadBuf_shows {s t : State} {x : Nat} {o : CanObj} (ht : s.loadBuf .cox x o = t) :
    t.rdN (Reg.CAN_WBUF x 0) = o.w0 % 2 ^ 32 ∧ t.rdN (Reg.CAN_WBUF x 1) = o.w1 % 2 ^ 32 ∧ (∀ i, i < 16 → t.rdN (Reg.CAN_WBUF x (2 + i)) = leNat ((o.held.drop (4 * i)).take 4))
      ∧ t.cans = s.cans ∧ t.mem = s.mem := by
  have hrow := writeRow_shows ((s.wrN (Reg.CAN_WBUF x 0) o.w0).wrN (Reg.CAN_WBUF x 1) o.w1) (a := fun i => Reg.CAN_WBUF x (2 + i)) (f := fun _ i => leNat ((o.held.drop (4 * i)).take 4))
    (fun i j h => CAN_WBUF_ne x (by omega)) (fun _ _ _ => rfl) 16
  have hframe := foldl_regs_frame (fun (u : State) i => u.wrN (Reg.CAN_WBUF x (2 + i)) (leNat ((o.held.drop (4 * i)).take 4))) (fun _ _ => rfl) (List.range 16)
    ((s.wrN (Reg.CAN_WBUF x 0) o.w0).wrN (Reg.CAN_WBUF x 1) o.w1)
  have heq : s.loadBuf .cox x o = (List.range 16).foldl (fun (u : State) i => u.wrN (Reg.CAN_WBUF x (2 + i)) (leNat ((o.held.drop (4 * i)).take 4)))
      ((s.wrN (Reg.CAN_WBUF x 0) o.w0).wrN (Reg.CAN_WBUF x 1) o.w1) := by
    simp only [State.loadBuf, rqReg_cox]
  dsimp only at hrow
  rw [← heq, ht] at hrow hframe
  obtain ⟨hrow, hregs, -, -⟩ := hrow
  have hout (i : Nat) (hi : i < 2) : Reg.CAN_WBUF x i ∉ (List.range 16).map fun i => Reg.CAN_WBUF x (2 + i) := by
    intro h
    obtain ⟨j, -, h⟩ := List.mem_map.mp h
    exact CAN_WBUF_ne x (by omega : 2 + j ≠ i) h
  refine ⟨?_, ?_, fun i hi => (hrow i hi).trans (Nat.mod_eq_of_lt (leNat_lt_of_length (n := 4) (List.length_take_le _ _))), (congrArg State.cans hframe :), (congrArg State.mem hframe :)⟩
  · rw [State.rdN_of_rd (hregs _ (hout 0 (by decide))), State.rdN_wrN_ne _ _ (CAN_WBUF_ne x (by decide)), State.rdN_wrN_self]
  · rw [State.rdN_of_rd (hregs _ (hout 1 (by decide))), State.rdN_wrN_self]

theorem State.takeHead_shows {s u : State} {x : Nat} {o : CanObj} {c : CanSt} {l : List CanObj} (hu : (s.setCan x c).loadBuf .cox x o = u) (hc : c.fifo = l) :
    let t := (u.setFld (Reg.CAN_FIFOST x) 0 8 l.length).setBit (Reg.CAN_FIFOST x) 8 false
    (t.can x).fifo = l ∧ t.rdN (Reg.CAN_WBUF x 0) = o.w0 % 2 ^ 32 ∧ t.rdN (Reg.CAN_WBUF x 1) = o.w1 % 2 ^ 32
      ∧ (∀ i, i < 16 → t.rdN (Reg.CAN_WBUF x (2 + i)) = leNat ((o.held.drop (4 * i)).take 4)) ∧ (l.length < 256 → t.fld (Reg.CAN_FIFOST x) 0 8 = l.length) ∧ t.mem = s.mem := by
  obtain ⟨h0, h1, hdata, hcans, hmem⟩ := State.loadBuf_shows hu
  have hcan : (u.can x).fifo = l := by
    rw [State.can_of_cans hcans]
    exact (congrArg CanSt.fifo (State.can_setCan s x c)).trans hc
  have hne (i : Nat) : Reg.CAN_FIFOST x ≠ Reg.CAN_WBUF x i := by unfold Reg.CAN_FIFOST Reg.CAN_WBUF; omega
  have hrd (i : Nat) : ((u.setFld (Reg.CAN_FIFOST x) 0 8 l.length).setBit (Reg.CAN_FIFOST x) 8 false).rdN (Reg.CAN_WBUF x i) = u.rdN (Reg.CAN_WBUF x i) :=
    (State.rdN_setBit_ne _ _ _ (hne i)).trans (State.rdN_setFld_ne _ _ _ _ (hne i))
  refine ⟨hcan, (hrd 0).trans h0, (hrd 1).trans h1, fun i hi => (hrd _).trans (hdata i hi), fun hl => ?_, hmem⟩
  rw [State.fld_setBit_other _ _ (by decide) (by decide), State.fld_setFld_self _ _ (by decide)]
  exact Nat.mod_eq_of_lt hl

theorem doWindowSelect_refused {s : State} {rq : Requester} {x : CanId} {v : Word} (h : s.maySelect rq (canIdx x) (getField v.toNat 0 2) (getField v.toNat 8 7) = false) :
    doWindowSelect s rq x v = s := if_pos (by rw [h]; rfl)

theorem doWindowSelect_head {s : State} {x : CanId} {v : Word} {o : CanObj} {l : List CanObj} (hkind : getField v.toNat 0 2 = 2) (hfifo : (s.can (canIdx x)).fifo = o :: l) :
    ∃ (u : State) (c : CanSt), u.mem = s.mem ∧ c.fifo = l ∧
      doWindowSelect s .cox x v = (((u.setCan (canIdx x) c).loadBuf .cox (canIdx x) o).setFld (Reg.CAN_FIFOST (canIdx x)) 0 8 l.length).setBit (Reg.CAN_FIFOST (canIdx x)) 8 false := by
  unfold doWindowSelect
  dsimp only
  rw [hkind, if_neg (by simp [State.maySelect]), if_neg (by decide), if_neg (by decide), rqReg_cox]
  generalize hu : s.wr (Reg.CAN_WSEL (canIdx x)) (wordOf (2 + getField v.toNat 8 7 * 256)) = u
  have hcans : u.cans = s.cans := by rw [← hu, State.wr_cans]
  have hmem : u.mem = s.mem := by rw [← hu, State.wr_mem]
  rw [State.can_of_cans hcans, hfifo]
  exact ⟨u, _, hmem, rfl, rfl⟩

/-- A receive object is shown in the Cox's window, and NEW and LOST end. -/
def State.readReceive (s : State) (x : Nat) (o : CanObj) (new lost k : Nat) : State := ((s.loadBuf .cox x o).setBit new k false).setBit lost k false

theorem State.readReceive_shows {s t : State} {x : Nat} {o : CanObj} {new lost k : Nat} (ht : s.readReceive x o new lost k = t) (hk : k < 32) (hne : lost ≠ new) (hnew : new < Reg.CAN_WBUF x 0)
    (hlost : lost < Reg.CAN_WBUF x 0) : t.rdN (Reg.CAN_WBUF x 0) = o.w0 % 2 ^ 32 ∧ t.bit new k = false ∧ t.bit lost k = false ∧ t.cans = s.cans ∧ t.mem = s.mem := by
  unfold State.readReceive at ht
  generalize hu : s.loadBuf .cox x o = u at ht
  obtain ⟨h0, -, -, hcans, hmem⟩ := State.loadBuf_shows hu
  rw [← ht]
  refine ⟨?_, ?_, State.bit_setBit_self _ _ hk, hcans, hmem⟩
  · rw [State.rdN_setBit_ne _ _ _ (by omega), State.rdN_setBit_ne _ _ _ (by omega), h0]
  · rw [State.bit_setBit_ne _ _ _ _ hne, State.bit_setBit_self _ _ hk]

/-- The words that say a receive object's NEW and LOST. -/
theorem receiveRegs_lt (x i : Nat) :
    (if i < 32 then Reg.CAN_RXLOST0 x else Reg.CAN_RXLOST1 x) ≠ (if i < 32 then Reg.CAN_RXNEW0 x else Reg.CAN_RXNEW1 x)
      ∧ (if i < 32 then Reg.CAN_RXNEW0 x else Reg.CAN_RXNEW1 x) < Reg.CAN_WBUF x 0 ∧ (if i < 32 then Reg.CAN_RXLOST0 x else Reg.CAN_RXLOST1 x) < Reg.CAN_WBUF x 0 := by
  unfold Reg.CAN_RXNEW0 Reg.CAN_RXNEW1 Reg.CAN_RXLOST0 Reg.CAN_RXLOST1 Reg.CAN_WBUF
  split <;> omega

theorem doWindowSelect_receive {s : State} {x : CanId} {v : Word} (hkind : getField v.toNat 0 2 = 0) (hidx : getField v.toNat 8 7 < 64) :
    ∃ (u : State) (w1 : Nat), u.cans = s.cans ∧ u.mem = s.mem ∧ doWindowSelect s .cox x v = u.readReceive (canIdx x)
      { Tab.get CanObj.init (s.can (canIdx x)).rx (getField v.toNat 8 7) with w1 := w1 }
      (if getField v.toNat 8 7 < 32 then Reg.CAN_RXNEW0 (canIdx x) else Reg.CAN_RXNEW1 (canIdx x))
      (if getField v.toNat 8 7 < 32 then Reg.CAN_RXLOST0 (canIdx x) else Reg.CAN_RXLOST1 (canIdx x)) (getField v.toNat 8 7 % 32) := by
  unfold doWindowSelect
  dsimp only
  rw [hkind, if_neg (by simp [State.maySelect, hidx]), if_pos rfl, rqReg_cox]
  generalize hu : s.wr (Reg.CAN_WSEL (canIdx x)) (wordOf (0 + getField v.toNat 8 7 * 256)) = u
  have hcans : u.cans = s.cans := by rw [← hu, State.wr_cans]
  have hmem : u.mem = s.mem := by rw [← hu, State.wr_mem]
  rw [State.can_of_cans hcans]
  exact ⟨u, _, hcans, hmem, rfl⟩

theorem doWindowCommit_transmit {s : State} {x : CanId} {o : Nat} (ho : o < 32) (hkind : s.fld (Reg.CAN_WSEL (canIdx x)) 0 2 = 1) (hidx : s.fld (Reg.CAN_WSEL (canIdx x)) 8 7 = o) :
    doWindowCommit s .cox x = if s.txPending (canIdx x) o then s
      else s.setCan (canIdx x) { s.can (canIdx x) with
        tx := Tab.put CanObj.init (s.can (canIdx x)).tx o { s.readBuf .cox (canIdx x) with w1 := (s.readBuf .cox (canIdx x)).w1 % 2 ^ 29 } } := by
  unfold State.fld at hkind hidx
  unfold doWindowCommit
  dsimp only
  rw [rqReg_cox, hkind, hidx, if_neg (by simp [State.maySelect, ho]), if_neg (by decide), if_pos rfl]

/-! Requests and aborts (R297) -/

/-- What a command of a mask of objects does to one of them: the others do not matter to it. -/
theorem maskFold_view {α : Type} {f : State → Nat → State} (V : State → α) (g : α → α) (mask : Nat) {o : Nat} (ho : o < 32) (hown : ∀ t, V (f t o) = g (V t))
    (hother : ∀ t p, p < 32 → p ≠ o → V (f t p) = V t) (s : State) :
    V ((List.range 32).foldl (fun t p => if getField mask p 1 = 1 then f t p else t) s) = if getField mask o 1 = 1 then g (V s) else V s := by
  have hupto (n : Nat) (hn : n ≤ 32) :
      V ((List.range n).foldl (fun t p => if getField mask p 1 = 1 then f t p else t) s) = if o < n ∧ getField mask o 1 = 1 then g (V s) else V s := by
    induction n with
    | zero => exact (if_neg (by omega)).symm
    | succ n ih =>
      have ih := ih (by omega)
      rw [List.range_succ, List.foldl_append]
      generalize (List.range n).foldl (fun t p => if getField mask p 1 = 1 then f t p else t) s = t at *
      simp only [List.foldl_cons, List.foldl_nil]
      by_cases hin : n = o
      · subst hin
        rw [if_neg (by omega)] at ih
        by_cases hmask : getField mask n 1 = 1
        · rw [if_pos hmask, if_pos ⟨by omega, hmask⟩, hown, ih]
        · rw [if_neg hmask, if_neg (fun h => hmask h.2), ih]
      · have hstep : V (if getField mask n 1 = 1 then f t n else t) = V t := by
          split
          · exact hother t n (by omega) hin
          · rfl
        rw [hstep, ih]
        exact if_congr (by omega) rfl rfl
  rw [hupto 32 (Nat.le_refl _)]
  exact if_congr (and_iff_right ho) rfl rfl

theorem CAN_TXST_ne (x : Nat) {o p : Nat} (h : o ≠ p) : Reg.CAN_TXST x o ≠ Reg.CAN_TXST x p := by
  unfold Reg.CAN_TXST
  omega

theorem CAN_TXST_gt (x o : Nat) : Reg.CAN_TXDONE x < Reg.CAN_TXST x o ∧ Reg.CAN_TXPEND x < Reg.CAN_TXDONE x ∧ Reg.STK_PHASE < Reg.CAN_TXPEND x := by
  unfold Reg.CAN_TXST Reg.CAN_TXDONE Reg.CAN_TXPEND Reg.STK_PHASE
  omega

/-- What a request sees of an object. -/
def State.requestView (s : State) (x o : Nat) : Bool × Nat × Nat × Nat := (s.txPending x o, s.fld (Reg.CAN_TXST x o) 0 3, Tab.get 0 (s.can x).reqAt o, s.now)

/-- A request of an object that is not PENDING. -/
def requested (v : Bool × Nat × Nat × Nat) : Bool × Nat × Nat × Nat := if v.1 then v else (true, 1, v.2.2.2, v.2.2.2)

theorem State.requestView_eq {s : State} {x o : Nat} {p : Bool} {st r n : Nat} (hp : s.txPending x o = p) (hst : s.fld (Reg.CAN_TXST x o) 0 3 = st) (hr : Tab.get 0 (s.can x).reqAt o = r)
    (hn : s.now = n) : s.requestView x o = (p, st, r, n) := by rw [State.requestView, hp, hst, hr, hn]

theorem State.txRequestOne_free {s : State} {x o : Nat} (h : s.txPending x o = false) :
    s.txRequestOne x o = ((s.setCan x { s.can x with reqAt := Tab.put 0 (s.can x).reqAt o s.now }).setBit (Reg.CAN_TXPEND x) o true).wrN (Reg.CAN_TXST x o) 1 := if_neg (by simp [h])

theorem State.requestView_requestOne (s : State) (x : Nat) {o : Nat} (ho : o < 32) : (s.txRequestOne x o).requestView x o = requested (s.requestView x o) := by
  obtain ⟨hst, hpend, hphase⟩ := CAN_TXST_gt x o
  by_cases hp : s.txPending x o = true
  · rw [State.txRequestOne, if_pos hp, requested, if_pos (show (s.requestView x o).1 = true from hp)]
  · have hfree := Bool.eq_false_of_not_eq_true hp
    rw [State.txRequestOne_free hfree, requested, if_neg (show ¬ (s.requestView x o).1 = true from hp)]
    refine State.requestView_eq ?_ ?_ ?_ ?_
    · rw [State.txPending, State.bit_wrN_ne _ _ _ (by omega), State.bit_setBit_self _ _ ho]
    · rw [State.fld, State.rdN_wrN_self]
      decide
    · refine (congrArg (fun c : CanSt => Tab.get 0 c.reqAt o) (State.can_setCan s x { s.can x with reqAt := Tab.put 0 (s.can x).reqAt o s.now })).trans ?_
      exact Tab.get_put_self ..
    · rw [State.now, State.us, State.fld_wrN_ne _ _ _ _ (by omega), State.fld_setBit_ne _ _ _ _ _ (by omega)]
      rfl

theorem State.requestView_requestOther (s : State) (x : Nat) {o p : Nat} (hp : p < 32) (h : p ≠ o) : (s.txRequestOne x p).requestView x o = s.requestView x o := by
  obtain ⟨hst, hpend, hphase⟩ := CAN_TXST_gt x p
  by_cases hset : s.txPending x p = true
  · rw [State.txRequestOne, if_pos hset]
  · rw [State.txRequestOne_free (Bool.eq_false_of_not_eq_true hset)]
    have hgt := CAN_TXST_gt x o
    refine State.requestView_eq ?_ ?_ ?_ ?_
    · rw [State.txPending, State.bit_wrN_ne _ _ _ (by omega), State.bit_setBit_other _ _ hp h]
      rfl
    · rw [State.fld_wrN_ne _ _ _ _ (CAN_TXST_ne x h), State.fld_setBit_ne _ _ _ _ _ (by omega)]
      rfl
    · refine (congrArg (fun c : CanSt => Tab.get 0 c.reqAt o) (State.can_setCan s x { s.can x with reqAt := Tab.put 0 (s.can x).reqAt p s.now })).trans ?_
      exact Tab.get_put_ne _ _ _ _ h
    · rw [State.now, State.us, State.fld_wrN_ne _ _ _ _ (by omega), State.fld_setBit_ne _ _ _ _ _ (by omega)]
      rfl

theorem State.requestView_request (s : State) (x mask : Nat) {o : Nat} (ho : o < 32) :
    (s.txRequest x mask).requestView x o = if getField mask o 1 = 1 then requested (s.requestView x o) else s.requestView x o :=
  maskFold_view (fun t => t.requestView x o) requested mask ho (fun t => t.requestView_requestOne x ho) (fun t _ hp h => t.requestView_requestOther x hp h) s

theorem State.txRequestOne_regs (s : State) (x : Nat) {o : Nat} (ho : o < 32) : RegsBut s (s.txRequestOne x o) (Reg.CAN_TXPEND x :: (List.range 32).map (Reg.CAN_TXST x)) := by
  unfold State.txRequestOne
  split
  · exact RegsBut.refl _ _
  · exact RegsBut.wrN _ (RegsBut.setBit _ _ (RegsBut.mk_iff.mpr (RegsBut.refl s _)) List.mem_cons_self) (List.mem_cons_of_mem _ (List.mem_map_of_mem (List.mem_range.mpr ho)))

theorem State.txRequest_regs (s : State) (x mask : Nat) : RegsBut s (s.txRequest x mask) (Reg.CAN_TXPEND x :: (List.range 32).map (Reg.CAN_TXST x)) :=
  List.foldlRecOn (motive := fun t => RegsBut s t _) _ _ (RegsBut.refl s _) fun t ht _ ho =>
    RegsBut.ite (fun _ => ht.trans (t.txRequestOne_regs x (List.mem_range.mp ho))) fun _ => ht

/-- What an abort sees of an object. -/
def State.abortView (s : State) (x o : Nat) : Bool × Nat × Bool × Option Nat := (s.txPending x o, s.fld (Reg.CAN_TXST x o) 0 3, s.bit (Reg.CAN_TXDONE x) o, (s.can x).attempt)

/-- An abort of an object. -/
def aborted (o : Nat) (v : Bool × Nat × Bool × Option Nat) : Bool × Nat × Bool × Option Nat :=
  if v.1 = false ∨ v.2.2.2 = some o then v else (false, 6, true, v.2.2.2)

theorem State.abortView_eq {s : State} {x o : Nat} {p d : Bool} {st : Nat} {a : Option Nat} (hp : s.txPending x o = p) (hst : s.fld (Reg.CAN_TXST x o) 0 3 = st)
    (hd : s.bit (Reg.CAN_TXDONE x) o = d) (ha : (s.can x).attempt = a) : s.abortView x o = (p, st, d, a) := by rw [State.abortView, hp, hst, hd, ha]

@[simp] theorem State.bit_setCan (s : State) (x : Nat) (c : CanSt) (a i : Nat) : (s.setCan x c).bit a i = s.bit a i := rfl

@[simp] theorem State.fld_setCan (s : State) (x : Nat) (c : CanSt) (a lo w : Nat) : (s.setCan x c).fld a lo w = s.fld a lo w := rfl

@[simp] theorem State.txPending_setCan (s : State) (x : Nat) (c : CanSt) (y o : Nat) : (s.setCan x c).txPending y o = s.txPending y o := rfl

/-- A transmit object before the interrupt of its result shows. -/
def State.txEnded (s : State) (x o result : Nat) : State :=
  (((s.setBit (Reg.CAN_TXPEND x) o false).setBit (Reg.CAN_TXDONE x) o true).setFld (Reg.CAN_TXST x o) 0 3 result).setCan x { s.can x with aborting := putField (s.can x).aborting o 1 0 }

theorem State.txEnd_eq (s : State) (x o result : Nat) : s.txEnd x o result =
    if result = 2 then (s.txEnded x o result).setBit (Reg.CAN_IRQ x) 3 true else if result = 6 then s.txEnded x o result else (s.txEnded x o result).setBit (Reg.CAN_IRQ x) 4 true := rfl

/-- The interrupt of a result touches no object: what is said of the objects is kept by it. -/
theorem State.txEnd_of_ended {P : State → Prop} {s : State} {x o result : Nat} (h : P (s.txEnded x o result)) (hirq : ∀ t i, P t → P (t.setBit (Reg.CAN_IRQ x) i true)) : P (s.txEnd x o result) := by
  rw [State.txEnd_eq]
  split
  · exact hirq _ _ h
  · split
    · exact h
    · exact hirq _ _ h

theorem State.txEnded_shows (s : State) (x : Nat) {o result : Nat} (ho : o < 32) (hresult : result < 8) : let t := s.txEnded x o result
    t.txPending x o = false ∧ t.fld (Reg.CAN_TXST x o) 0 3 = result ∧ t.bit (Reg.CAN_TXDONE x) o = true ∧ t.can x = { s.can x with aborting := putField (s.can x).aborting o 1 0 } := by
  obtain ⟨hst, hpend, -⟩ := CAN_TXST_gt x o
  refine ⟨?_, ?_, ?_, State.can_setCan ..⟩
  · rw [State.txEnded, State.txPending_setCan, State.txPending, State.bit_setFld_ne _ _ _ _ _ (by omega), State.bit_setBit_ne _ _ _ _ (by omega), State.bit_setBit_self _ _ ho]
  · rw [State.txEnded, State.fld_setCan, State.fld_setFld_self _ _ (by decide)]
    exact Nat.mod_eq_of_lt hresult
  · rw [State.txEnded, State.bit_setCan, State.bit_setFld_ne _ _ _ _ _ (by omega), State.bit_setBit_self _ _ ho]

theorem State.txEnded_other (s : State) (x result : Nat) {o p : Nat} (hp : p < 32) (h : p ≠ o) : let t := s.txEnded x p result
    t.txPending x o = s.txPending x o ∧ t.fld (Reg.CAN_TXST x o) 0 3 = s.fld (Reg.CAN_TXST x o) 0 3 ∧ t.bit (Reg.CAN_TXDONE x) o = s.bit (Reg.CAN_TXDONE x) o := by
  obtain ⟨hst, hpend, -⟩ := CAN_TXST_gt x p
  obtain ⟨hst', -, -⟩ := CAN_TXST_gt x o
  refine ⟨?_, ?_, ?_⟩
  · rw [State.txEnded, State.txPending_setCan, State.txPending, State.bit_setFld_ne _ _ _ _ _ (by omega), State.bit_setBit_ne _ _ _ _ (by omega), State.bit_setBit_other _ _ hp h]
    rfl
  · rw [State.txEnded, State.fld_setCan, State.fld_setFld_ne _ _ _ _ _ _ (CAN_TXST_ne x h), State.fld_setBit_ne _ _ _ _ _ (by omega), State.fld_setBit_ne _ _ _ _ _ (by omega)]
  · rw [State.txEnded, State.bit_setCan, State.bit_setFld_ne _ _ _ _ _ (by omega), State.bit_setBit_other _ _ hp h, State.bit_setBit_ne _ _ _ _ (by omega)]

theorem State.abortView_abortOne (s : State) (x : Nat) {o : Nat} (ho : o < 32) : (s.txAbortOne x o).abortView x o = aborted o (s.abortView x o) := by
  unfold State.txAbortOne aborted
  by_cases hp : s.txPending x o = true
  · rw [if_neg (by simp [hp])]
    by_cases ha : (s.can x).attempt = some o
    · rw [if_pos ha, if_pos (show (s.abortView x o).1 = false ∨ (s.abortView x o).2.2.2 = some o from Or.inr ha)]
      exact State.abortView_eq rfl rfl rfl (congrArg CanSt.attempt (State.can_setCan ..) :)
    · rw [if_neg ha, if_neg (show ¬ ((s.abortView x o).1 = false ∨ (s.abortView x o).2.2.2 = some o) from not_or.mpr ⟨ne_false_of_eq_true hp, ha⟩)]
      obtain ⟨hpend, hst, hdone, hcan⟩ := s.txEnded_shows x ho (by decide : 6 < 8)
      exact State.abortView_eq hpend hst hdone (congrArg CanSt.attempt hcan :)
  · rw [if_pos (by simp [hp]), if_pos (show (s.abortView x o).1 = false ∨ (s.abortView x o).2.2.2 = some o from Or.inl (Bool.eq_false_of_not_eq_true hp))]

theorem State.abortView_abortOther (s : State) (x : Nat) {o p : Nat} (hp : p < 32) (h : p ≠ o) : (s.txAbortOne x p).abortView x o = s.abortView x o := by
  unfold State.txAbortOne
  split
  · rfl
  · split
    · exact State.abortView_eq rfl rfl rfl (congrArg CanSt.attempt (State.can_setCan ..) :)
    · obtain ⟨hpend, hst, hdone⟩ := s.txEnded_other x 6 hp h
      exact State.abortView_eq hpend hst hdone (congrArg CanSt.attempt (State.can_setCan ..) :)

theorem State.abortView_abort (s : State) (x mask : Nat) {o : Nat} (ho : o < 32) :
    (s.txAbort x mask).abortView x o = if getField mask o 1 = 1 then aborted o (s.abortView x o) else s.abortView x o :=
  maskFold_view (fun t => t.abortView x o) (aborted o) mask ho (fun t => t.abortView_abortOne x ho) (fun t _ hp h => t.abortView_abortOther x hp h) s

theorem State.txAbortOne_regs (s : State) (x : Nat) {o : Nat} (ho : o < 32) : RegsBut s (s.txAbortOne x o) (Reg.CAN_TXPEND x :: Reg.CAN_TXDONE x :: (List.range 32).map (Reg.CAN_TXST x)) := by
  have hst : Reg.CAN_TXST x o ∈ Reg.CAN_TXPEND x :: Reg.CAN_TXDONE x :: (List.range 32).map (Reg.CAN_TXST x) :=
    List.mem_cons_of_mem _ (List.mem_cons_of_mem _ (List.mem_map_of_mem (List.mem_range.mpr ho)))
  refine RegsBut.ite (fun _ => RegsBut.refl _ _) fun _ => RegsBut.ite (fun _ => RegsBut.mk_iff.mpr (RegsBut.refl _ _)) fun _ => ?_
  exact RegsBut.mk_iff.mpr (RegsBut.setFld _ _ _ (RegsBut.setBit _ _ (RegsBut.setBit _ _ (RegsBut.refl s _) List.mem_cons_self) (List.mem_cons_of_mem _ List.mem_cons_self)) hst)

theorem State.txAbort_regs (s : State) (x mask : Nat) : RegsBut s (s.txAbort x mask) (Reg.CAN_TXPEND x :: Reg.CAN_TXDONE x :: (List.range 32).map (Reg.CAN_TXST x)) :=
  List.foldlRecOn (motive := fun t => RegsBut s t _) _ _ (RegsBut.refl s _) fun t ht _ ho =>
    RegsBut.ite (fun _ => ht.trans (t.txAbortOne_regs x (List.mem_range.mp ho))) fun _ => ht

/-- The object that a mask names for its requester. -/
theorem named_iff (s : State) (rq : Requester) (x : Nat) (mask : Word) (o : Nat) : getField (mask.toNat &&& s.txMask rq x) o 1 = 1 ↔ named s rq x mask o = true := by
  rw [getField_bit_eq_one, Nat.testBit_and]
  rfl

/-! Together -/

theorem receive_object {s : State} {x : CanId} {f : CanFrame} {us i : Nat} (hus : us < 2 ^ 15) (htakes : s.takesFrame x f = true) (hall : s.bit (Reg.CAN_FIFOCTRL (canIdx x)) 0 = false)
    (hdata : f.rtr = false) (hmatch : s.rxMatch (canIdx x) (frameObj f ((s.stk.base + us) % 2 ^ 48)) = some i) :
    Does (.canFrameReceived x f us) s (fun t =>
      Tab.get CanObj.init (t.can (canIdx x)).rx i = frameObj f ((s.stk.base + us) % 2 ^ 48) ∧ t.bit (rxNew x i) (i % 32) = true
        ∧ (s.bit (rxNew x i) (i % 32) = true → t.bit (rxLost x i) (i % 32) = true) ∧ (t.can (canIdx x)).fifo = (s.can (canIdx x)).fifo ∧ SameMem s t) := by
  have hx := canIdx_le x
  have hnew : (if i < 32 then Reg.CAN_RXNEW0 (canIdx x) else Reg.CAN_RXNEW1 (canIdx x)) = rxNew x i := rfl
  have hlost : (if i < 32 then Reg.CAN_RXLOST0 (canIdx x) else Reg.CAN_RXLOST1 (canIdx x)) = rxLost x i := rfl
  have hrange : 0x40014080 ≤ rxNew x i ∧ rxNew x i < rxLost x i ∧ rxLost x i < Reg.CAN_FIFOCTRL (canIdx x) ∧ Reg.CAN_FIFOCTRL (canIdx x) < Reg.CAN_IRQ (canIdx x) := by
    rw [← hnew, ← hlost]
    unfold Reg.CAN_RXNEW0 Reg.CAN_RXNEW1 Reg.CAN_RXLOST0 Reg.CAN_RXLOST1 Reg.CAN_FIFOCTRL Reg.CAN_IRQ
    split <;> omega
  have hphase (a : Nat) (ha : 0x40014080 ≤ a) : (s.atUs us).rd a = s.rd a := State.rd_atUs_ne s us (by unfold Reg.STK_PHASE; omega)
  have hmem : SameMem s (doCanFrameReceived s x f us) := SameMem.of_mem ((doCanFrameReceived_kept x f us (Kept.refl false false false s)).memSame rfl)
  have hremote := frameObj_remote f ((s.stk.base + us) % 2 ^ 48)
  rw [hdata] at hremote
  have hcase := doCanFrameReceived_taken htakes hus
  generalize frameObj f ((s.stk.base + us) % 2 ^ 48) = o at *
  obtain ⟨hcan, hset, hstood, hrd⟩ := (s.atUs us).toObject_shows o hx hnew hlost
  rw [State.canStore_object (i := i) (by rw [hremote]; decide) ((s.rxMatch_atUs us _ hx o).trans hmatch)
    ((State.bit_of_rd ((hrd _ (by omega) (by omega) (by omega) (by omega)).trans (hphase _ (by omega))) 0).trans hall)] at hcase
  dsimp only at hcan hset hstood
  rw [← hcase] at hcan hset hstood
  refine ⟨doCanFrameReceived s x f us, rfl, ?_, hset, fun h => hstood ((State.bit_of_rd (hphase _ (by omega)) _).trans h), (congrArg CanSt.fifo hcan :), hmem⟩
  rw [hcan]
  exact Tab.get_put_self ..

theorem receive_fifo {s : State} {x : CanId} {f : CanFrame} {us : Nat} (hus : us < 2 ^ 15) (htakes : s.takesFrame x f = true)
    (hfifo : f.rtr = true ∨ s.rxMatch (canIdx x) (frameObj f ((s.stk.base + us) % 2 ^ 48)) = none) :
    Does (.canFrameReceived x f us) s (fun t =>
      (t.can (canIdx x)).fifo = (if 128 ≤ (s.can (canIdx x)).fifo.length then (s.can (canIdx x)).fifo else (s.can (canIdx x)).fifo ++ [frameObj f ((s.stk.base + us) % 2 ^ 48)])
        ∧ (128 ≤ (s.can (canIdx x)).fifo.length → t.fld (Reg.CAN_FIFODROP (canIdx x)) 0 16 = min (s.fld (Reg.CAN_FIFODROP (canIdx x)) 0 16 + 1) 0xFFFF)
        ∧ RegsBut s t [Reg.STK_PHASE, Reg.CAN_FIFODROP (canIdx x), Reg.CAN_FIFOST (canIdx x), Reg.CAN_IRQ (canIdx x)] ∧ SameMem s t) := by
  have hx := canIdx_le x
  have hmem : SameMem s (doCanFrameReceived s x f us) := SameMem.of_mem ((doCanFrameReceived_kept x f us (Kept.refl false false false s)).memSame rfl)
  have hremote := frameObj_remote f ((s.stk.base + us) % 2 ^ 48)
  have hcase := doCanFrameReceived_taken htakes hus
  generalize frameObj f ((s.stk.base + us) % 2 ^ 48) = o at *
  have hstore : getField o.w1 31 1 = 1 ∨ (s.atUs us).rxMatch (canIdx x) o = none := by
    obtain hrtr | hnone := hfifo
    · rw [hrtr] at hremote
      exact Or.inl hremote
    · exact Or.inr ((s.rxMatch_atUs us _ hx o).trans hnone)
  rw [State.canStore_fifo hstore] at hcase
  obtain ⟨hlist, hdrop, hregs⟩ := (s.atUs us).toFifo_shows (canIdx x) o
  have hphase : Reg.STK_PHASE ≠ Reg.CAN_FIFODROP (canIdx x) := by unfold Reg.STK_PHASE Reg.CAN_FIFODROP; omega
  rw [← hcase] at hlist hdrop hregs
  rw [State.fld_of_rd (State.rd_atUs_ne s us hphase)] at hdrop
  exact ⟨doCanFrameReceived s x f us, rfl, hlist, hdrop, ((RegsBut.refl s _).atUs us List.mem_cons_self).trans (hregs.mono fun a ha => List.mem_cons_of_mem _ ha), hmem⟩

theorem State.windowSelect_mem (s : State) (rq : Requester) (x : CanId) (v : Word) : SameMem s (doWindowSelect s rq x v) :=
  SameMem.of_mem ((doWindowSelect_kept rq x v (Kept.refl false false false s)).memSame rfl)

theorem select_head {s : State} {x : CanId} {v : Word} {o : CanObj} {l : List CanObj} (hawake : s.awake = true) (hkind : getField v.toNat 0 2 = 2)
    (hfifo : (s.can (canIdx x)).fifo = o :: l) :
    Does (.windowSelect .cox x v) s (fun t => (t.can (canIdx x)).fifo = l ∧ t.rdN (Reg.CAN_WBUF (canIdx x) 0) = o.w0 % 2 ^ 32 ∧ t.rdN (Reg.CAN_WBUF (canIdx x) 1) = o.w1 % 2 ^ 32
      ∧ (∀ i, i < 16 → t.rdN (Reg.CAN_WBUF (canIdx x) (2 + i)) = leNat ((o.held.drop (4 * i)).take 4))
      ∧ (l.length < 256 → t.fld (Reg.CAN_FIFOST (canIdx x)) 0 8 = l.length) ∧ SameMem s t) := by
  have hmem := s.windowSelect_mem .cox x v
  obtain ⟨u, c, -, hc, hcase⟩ := doWindowSelect_head hkind hfifo
  generalize hb : (u.setCan (canIdx x) c).loadBuf .cox (canIdx x) o = b at hcase
  obtain ⟨hlist, h0, h1, hdata, hlen, -⟩ := State.takeHead_shows hb hc
  rw [← hcase] at hlist h0 h1 hdata hlen
  exact Does.byRequester hawake rfl ⟨hlist, h0, h1, hdata, hlen, hmem⟩

theorem select_receive {s : State} {x : CanId} {v : Word} (hawake : s.awake = true) (hkind : getField v.toNat 0 2 = 0) (hidx : getField v.toNat 8 7 < 64) :
    Does (.windowSelect .cox x v) s (fun t => t.rdN (Reg.CAN_WBUF (canIdx x) 0) = (Tab.get CanObj.init (s.can (canIdx x)).rx (getField v.toNat 8 7)).w0 % 2 ^ 32
      ∧ t.bit (rxNew x (getField v.toNat 8 7)) (getField v.toNat 8 7 % 32) = false ∧ t.bit (rxLost x (getField v.toNat 8 7)) (getField v.toNat 8 7 % 32) = false ∧ t.cans = s.cans ∧ SameMem s t) := by
  have hmem := s.windowSelect_mem .cox x v
  obtain ⟨u, w1, hcans, -, hcase⟩ := doWindowSelect_receive (s := s) (x := x) hkind hidx
  obtain ⟨hne, hnew, hlost⟩ := receiveRegs_lt (canIdx x) (getField v.toNat 8 7)
  obtain ⟨h0, hn, hl, hc, -⟩ := State.readReceive_shows hcase.symm (Nat.mod_lt _ (by decide)) hne hnew hlost
  exact Does.byRequester hawake rfl ⟨h0, hn, hl, hc.trans hcans, hmem⟩

theorem commit_transmit {s : State} {x : CanId} {o : Nat} (hawake : s.awake = true) (ho : o < 32) (hkind : s.fld (Reg.CAN_WSEL (canIdx x)) 0 2 = 1)
    (hidx : s.fld (Reg.CAN_WSEL (canIdx x)) 8 7 = o) :
    (s.txPending (canIdx x) o = false → Does (.windowCommit .cox x) s (fun t =>
      t.txObj (canIdx x) o = { s.readBuf .cox (canIdx x) with w1 := (s.readBuf .cox (canIdx x)).w1 % 2 ^ 29 } ∧ RegsBut s t [] ∧ SameMem s t ∧ t = { s with cans := t.cans }))
      ∧ (s.txPending (canIdx x) o = true → exec (.windowCommit .cox x) s = .next s) := by
  have hcase := doWindowCommit_transmit ho hkind hidx
  refine ⟨fun hfree => ?_, fun hpend => ?_⟩
  · rw [if_neg (by simp [hfree])] at hcase
    refine Does.byRequester hawake rfl ?_
    rw [hcase]
    refine ⟨?_, RegsBut.mk_iff.mpr (RegsBut.refl s _), SameMem.of_mem rfl, rfl⟩
    rw [State.txObj, State.can_setCan]
    exact Tab.get_put_self ..
  · rw [if_pos hpend] at hcase
    exact congrArg Host.Outcome.next ((State.byRequester_awake _ hawake).trans hcase)

theorem request_shows {s : State} {rq : Requester} {x : CanId} {mask : Word} {us : Nat} (hawake : s.awake = true) (hus : us < 2 ^ 15) :
    Does (.txRequest rq x mask us) s (fun t => (∀ o, o < 32 → t.txPending (canIdx x) o = (s.txPending (canIdx x) o || named s rq (canIdx x) mask o))
      ∧ (∀ o, o < 32 → named s rq (canIdx x) mask o = true → s.txPending (canIdx x) o = false → t.fld (Reg.CAN_TXST (canIdx x) o) 0 3 = 1 ∧ Tab.get 0 (t.can (canIdx x)).reqAt o = (s.stk.base + us) % 2 ^ 48)
      ∧ RegsBut s t (Reg.STK_PHASE :: Reg.CAN_TXPEND (canIdx x) :: (List.range 32).map (Reg.CAN_TXST (canIdx x))) ∧ SameMem s t) := by
  refine Does.byRequester hawake rfl ?_
  have hobject (o : Nat) (ho : o < 32) : (doTxRequest s rq x mask us).requestView (canIdx x) o =
      if named s rq (canIdx x) mask o = true then requested ((s.atUs us).requestView (canIdx x) o) else (s.atUs us).requestView (canIdx x) o :=
    ((s.atUs us).requestView_request (canIdx x) _ ho).trans (if_congr (named_iff s rq (canIdx x) mask o) rfl rfl)
  have hpend (o : Nat) : (s.atUs us).txPending (canIdx x) o = s.txPending (canIdx x) o :=
    State.bit_of_rd (State.rd_atUs_ne s us (by unfold Reg.STK_PHASE Reg.CAN_TXPEND; omega)) o
  refine ⟨fun o ho => ?_, fun o ho hnamed hfree => ?_, ?_, SameMem.of_mem ((doTxRequest_kept rq x mask us (Kept.refl false false false s)).memSame rfl)⟩
  · have hview : (doTxRequest s rq x mask us).txPending (canIdx x) o = (if named s rq (canIdx x) mask o = true then requested ((s.atUs us).requestView (canIdx x) o)
        else (s.atUs us).requestView (canIdx x) o).1 := congrArg Prod.fst (hobject o ho)
    rw [hview, requested, ← hpend o]
    cases hset : (s.atUs us).txPending (canIdx x) o <;> cases named s rq (canIdx x) mask o <;> simp [State.requestView, hset]
  · have hview := hobject o ho
    rw [if_pos hnamed, requested, if_neg (show ¬ ((s.atUs us).requestView (canIdx x) o).1 = true by simp [State.requestView, hpend, hfree])] at hview
    exact ⟨congrArg (fun v => v.2.1) hview, (congrArg (fun v => v.2.2.1) hview).trans (State.now_atUs hus)⟩
  · exact ((RegsBut.refl s _).atUs us List.mem_cons_self).trans (((s.atUs us).txRequest_regs (canIdx x) _).mono fun a ha => List.mem_cons_of_mem _ ha)

theorem abort_shows {s : State} {rq : Requester} {x : CanId} {mask : Word} (hawake : s.awake = true) (hidle : (s.can (canIdx x)).attempt = none) :
    Does (.txAbort rq x mask) s (fun t => (∀ o, o < 32 → t.txPending (canIdx x) o = (s.txPending (canIdx x) o && !named s rq (canIdx x) mask o))
      ∧ (∀ o, o < 32 → named s rq (canIdx x) mask o = true → s.txPending (canIdx x) o = true → t.fld (Reg.CAN_TXST (canIdx x) o) 0 3 = 6 ∧ t.bit (Reg.CAN_TXDONE (canIdx x)) o = true)
      ∧ RegsBut s t (Reg.CAN_TXPEND (canIdx x) :: Reg.CAN_TXDONE (canIdx x) :: (List.range 32).map (Reg.CAN_TXST (canIdx x))) ∧ SameMem s t) := by
  refine Does.byRequester hawake rfl ?_
  have hobject (o : Nat) (ho : o < 32) : (doTxAbort s rq x mask).abortView (canIdx x) o =
      if named s rq (canIdx x) mask o = true then aborted o (s.abortView (canIdx x) o) else s.abortView (canIdx x) o :=
    (s.abortView_abort (canIdx x) _ ho).trans (if_congr (named_iff s rq (canIdx x) mask o) rfl rfl)
  refine ⟨fun o ho => ?_, fun o ho hnamed hpend => ?_, s.txAbort_regs (canIdx x) _, SameMem.of_mem ((doTxAbort_kept rq x mask (Kept.refl false false false s)).memSame rfl)⟩
  · have hview : (doTxAbort s rq x mask).txPending (canIdx x) o = (if named s rq (canIdx x) mask o = true then aborted o (s.abortView (canIdx x) o)
        else s.abortView (canIdx x) o).1 := congrArg Prod.fst (hobject o ho)
    rw [hview, aborted]
    cases hset : s.txPending (canIdx x) o <;> cases named s rq (canIdx x) mask o <;> simp [State.abortView, hset, hidle]
  · have hview := hobject o ho
    rw [if_pos hnamed, aborted, if_neg (by simp [State.abortView, hpend, hidle])] at hview
    exact ⟨congrArg (fun v => v.2.1) hview, congrArg (fun v => v.2.2.1) hview⟩

/-- Settles O39: reception puts a frame into the object that matches or the FIFO, a window shows and commits an object, and a command of a mask acts on each named object once. -/
theorem canObjectsAndRequests : Obligations.CanObjectsAndRequests := by
  unfold Obligations.CanObjectsAndRequests
  refine ⟨fun s x f us h => congrArg Host.Outcome.next (doCanFrameReceived_refused us h), fun s x f us i hus htakes hall hdata hmatch => receive_object hus htakes hall hdata hmatch,
    fun s x f us hus htakes hfifo => receive_fifo hus htakes hfifo, fun s rq x v h => ?_, fun s x v o l hawake hkind hfifo => select_head hawake hkind hfifo,
    fun s x v hawake hkind hidx => select_receive hawake hkind hidx, fun s x o hawake ho hkind hidx => commit_transmit hawake ho hkind hidx,
    fun s rq x mask us hawake hus => request_shows hawake hus, fun s rq x mask hawake hidle => abort_shows hawake hidle⟩
  refine congrArg Host.Outcome.next ?_
  rw [doWindowSelect_refused h, State.byRequester, ite_self]

end Sys2Proof.Machine
end

section
/-!
PROOFS. CAN attempts, limits, bus-off and wake-up (R285, R300 to R303). It settles O40.
-/

namespace Sys2Proof.Machine

/-! The start of an attempt (R300) -/

/-- An attempt of an object shows. -/
def State.attemptShown (s : State) (x o : Nat) (c : CanSt) (now : Nat) : State := ((s.setCan x c).setBit (Reg.CAN_STAT x) 2 false).setFld (Reg.CAN_TXST x o) 8 24 now

theorem doTxAttempt_starts {s : State} {x : CanId} {o us : Nat} (hmay : (s.atUs us).mayAttempt (canIdx x) o = true) (hlow : ∀ p, p < o → (s.atUs us).mayAttempt (canIdx x) p = false) :
    ∃ c : CanSt, c.attempt = some o ∧
      doTxAttempt s x o us = (s.atUs us).attemptShown (canIdx x) o c (s.atUs us).now := by
  have hnone : ((List.range o).any fun p => (s.atUs us).mayAttempt (canIdx x) p) = false :=
    List.any_eq_false.mpr fun p hp => ne_true_of_eq_false (hlow p (List.mem_range.mp hp))
  unfold doTxAttempt
  dsimp only
  rw [hmay, hnone, if_pos (by decide)]
  exact ⟨_, rfl, rfl⟩

theorem State.attemptShown_shows (s : State) (x o : Nat) (c : CanSt) (now : Nat) : let t := s.attemptShown x o c now
    t.can x = c ∧ t.bit (Reg.CAN_STAT x) 2 = false ∧ t.fld (Reg.CAN_TXST x o) 8 24 = now % 2 ^ 24 ∧ RegsBut s t [Reg.CAN_STAT x, Reg.CAN_TXST x o] := by
  have hne : Reg.CAN_TXST x o ≠ Reg.CAN_STAT x := by unfold Reg.CAN_TXST Reg.CAN_STAT; omega
  refine ⟨State.can_setCan .., ?_, State.fld_setFld_self _ _ (by decide), by simp [State.attemptShown, State.setCan]⟩
  rw [State.attemptShown, State.bit_setFld_ne _ _ _ _ _ hne, State.bit_setBit_self _ _ (by decide)]

theorem doTxAttempt_refused {s : State} {x : CanId} {o us : Nat} (hmay : (s.atUs us).mayAttempt (canIdx x) o = false) : doTxAttempt s x o us = s :=
  if_neg (by rw [hmay]; exact Bool.false_ne_true)

theorem attempt_starts {s : State} {x : CanId} {o us : Nat} (hus : us < 2 ^ 15) (hmay : (s.atUs us).mayAttempt (canIdx x) o = true)
    (hlow : ∀ p, p < o → (s.atUs us).mayAttempt (canIdx x) p = false) :
    Does (.txAttempt x o us) s (fun t => (t.can (canIdx x)).attempt = some o ∧ t.bit (Reg.CAN_STAT (canIdx x)) 2 = false ∧ t.fld (Reg.CAN_TXST (canIdx x) o) 8 24 = (s.stk.base + us) % 2 ^ 24
      ∧ RegsBut s t [Reg.STK_PHASE, Reg.CAN_STAT (canIdx x), Reg.CAN_TXST (canIdx x) o] ∧ SameMem s t) := by
  obtain ⟨c, hc, hcase⟩ := doTxAttempt_starts hmay hlow
  obtain ⟨hcan, hidle, htime, hregs⟩ := (s.atUs us).attemptShown_shows (canIdx x) o c (s.atUs us).now
  rw [← hcase] at hcan hidle htime hregs
  rw [State.now_atUs hus, Nat.mod_mod_of_dvd _ (Nat.pow_dvd_pow 2 (by decide))] at htime
  exact ⟨doTxAttempt s x o us, rfl, (congrArg CanSt.attempt hcan).trans hc, hidle, htime, ((RegsBut.refl s _).atUs us List.mem_cons_self).trans (hregs.mono fun a ha => List.mem_cons_of_mem _ ha),
    SameMem.of_mem ((doTxAttempt_kept x o us (Kept.refl false false false s)).memSame rfl)⟩

/-! The end of an attempt (R300) -/

theorem State.txEnd_shows (s : State) (x : Nat) {o result : Nat} (ho : o < 32) (hresult : result < 8) : let t := s.txEnd x o result
    t.txPending x o = false ∧ t.fld (Reg.CAN_TXST x o) 0 3 = result ∧ t.bit (Reg.CAN_TXDONE x) o = true ∧ (t.can x).attempt = (s.can x).attempt := by
  obtain ⟨hpend, hst, hdone, hcan⟩ := s.txEnded_shows x ho hresult
  have hirq (a : Nat) (ha : a ∈ [Reg.CAN_TXPEND x, Reg.CAN_TXDONE x, Reg.CAN_TXST x o]) : Reg.CAN_IRQ x ≠ a := by
    unfold Reg.CAN_TXPEND Reg.CAN_TXDONE Reg.CAN_TXST at ha
    unfold Reg.CAN_IRQ
    simp only [List.mem_cons, List.not_mem_nil, or_false] at ha
    omega
  refine State.txEnd_of_ended (P := fun t => t.txPending x o = false ∧ t.fld (Reg.CAN_TXST x o) 0 3 = result ∧ t.bit (Reg.CAN_TXDONE x) o = true ∧ (t.can x).attempt = (s.can x).attempt)
    ⟨hpend, hst, hdone, (congrArg CanSt.attempt hcan :)⟩ fun t i ⟨hp, hs, hd, ha⟩ => ⟨?_, ?_, ?_, ha⟩
  · exact (State.bit_setBit_ne _ _ _ _ (hirq _ (by simp))).trans hp
  · exact (State.fld_setBit_ne _ _ _ _ _ (hirq _ (by simp))).trans hs
  · exact (State.bit_setBit_ne _ _ _ _ (hirq _ (by simp))).trans hd

theorem State.rd_setCan (s : State) (x : Nat) (c : CanSt) (a : Nat) : (s.setCan x c).rd a = s.rd a := rfl

theorem State.txEnd_stat (s : State) (x o result : Nat) : (s.txEnd x o result).rd (Reg.CAN_STAT x) = s.rd (Reg.CAN_STAT x) := by
  have hne (a : Nat) (ha : Reg.CAN_TXPEND x ≤ a) : a ≠ Reg.CAN_STAT x := by
    unfold Reg.CAN_TXPEND at ha
    unfold Reg.CAN_STAT
    omega
  refine State.txEnd_of_ended (P := fun t => t.rd (Reg.CAN_STAT x) = s.rd (Reg.CAN_STAT x)) ?_ fun t i h => (State.rd_setBit_ne _ _ _ (hne _ (by unfold Reg.CAN_TXPEND Reg.CAN_IRQ; omega))).trans h
  have hset : ((s.setBit (Reg.CAN_TXPEND x) o false).setBit (Reg.CAN_TXDONE x) o true).rd (Reg.CAN_STAT x) = s.rd (Reg.CAN_STAT x) :=
    (State.rd_setBit_ne _ _ _ (hne _ (by unfold Reg.CAN_TXPEND Reg.CAN_TXDONE; omega))).trans (State.rd_setBit_ne _ _ _ (hne _ (Nat.le_refl _)))
  rw [State.txEnded, State.rd_setCan, State.rd_setFld_ne _ _ _ _ (hne _ (by unfold Reg.CAN_TXPEND Reg.CAN_TXST; omega)), hset]

theorem State.toFifo_can (s : State) (x : Nat) (o : CanObj) : ((s.toFifo x o).can x).attempt = (s.can x).attempt := by
  unfold State.toFifo
  dsimp only
  split
  · exact (congrArg CanSt.attempt (State.can_setCan s x { s.can x with dropped := (s.can x).dropped + 1 }) :)
  · exact (congrArg CanSt.attempt (State.can_setCan s x { s.can x with fifo := (s.can x).fifo ++ [o] }) :)

/-- Reception touches the registers of reception and the interrupt alone. -/
theorem State.canStore_keeps (s : State) {x : Nat} (o : CanObj) (hx : x ≤ 2) : let t := s.canStore x o
    (t.can x).attempt = (s.can x).attempt ∧ ∀ a, 0x40014000 ≤ a → (a < Reg.CAN_RXNEW0 x ∨ Reg.CAN_RXLOST1 x < a) → a ≠ Reg.CAN_FIFODROP x → a ≠ Reg.CAN_FIFOST x → a ≠ Reg.CAN_IRQ x → t.rd a = s.rd a := by
  have hfifo (u : State) (a : Nat) (hdrop : a ≠ Reg.CAN_FIFODROP x) (hst : a ≠ Reg.CAN_FIFOST x) (hirq : a ≠ Reg.CAN_IRQ x) : (u.toFifo x o).rd a = u.rd a :=
    (u.toFifo_shows x o).2.2 a (by simp [hdrop, hst, hirq])
  unfold State.canStore
  dsimp only
  split
  case h_1 i hmatch =>
    obtain ⟨hcan, -, -, hrd⟩ := s.toObject_shows (i := i) o hx rfl rfl
    have hatt : ((s.toObject x i o).can x).attempt = (s.can x).attempt := (congrArg CanSt.attempt hcan :)
    have hobject (a : Nat) (ha : 0x40014000 ≤ a) (hout : a < Reg.CAN_RXNEW0 x ∨ Reg.CAN_RXLOST1 x < a) (hirq : a ≠ Reg.CAN_IRQ x) : (s.toObject x i o).rd a = s.rd a := by
      have hnew : Reg.CAN_RXNEW0 x < Reg.CAN_RXNEW1 x ∧ Reg.CAN_RXNEW1 x < Reg.CAN_RXLOST0 x ∧ Reg.CAN_RXLOST0 x < Reg.CAN_RXLOST1 x := by
        unfold Reg.CAN_RXNEW0 Reg.CAN_RXNEW1 Reg.CAN_RXLOST0 Reg.CAN_RXLOST1
        omega
      refine hrd a ha ?_ ?_ hirq
      · split <;> omega
      · split <;> omega
    split
    · exact ⟨(State.toFifo_can ..).trans hatt, fun a ha hout hdrop hst hirq => (hfifo _ a hdrop hst hirq).trans (hobject a ha hout hirq)⟩
    · exact ⟨hatt, fun a ha hout _ _ hirq => hobject a ha hout hirq⟩
  case h_2 => exact ⟨State.toFifo_can .., fun a _ _ hdrop hst hirq => hfifo s a hdrop hst hirq⟩

/-- An attempt that has ended, before what its end means for the object. -/
def State.attemptOver (s : State) (x : Nat) : State := (s.setCan x { s.can x with attempt := none, exclusive := false }).setBit (Reg.CAN_STAT x) 2 true

theorem State.attemptOver_shows (s : State) (x : Nat) : let t := s.attemptOver x
    (t.can x).attempt = none ∧ t.bit (Reg.CAN_STAT x) 2 = true ∧ (∀ lo w, lo + w ≤ 2 → t.fld (Reg.CAN_STAT x) lo w = s.fld (Reg.CAN_STAT x) lo w)
      ∧ (∀ lo w, 3 ≤ lo → t.fld (Reg.CAN_STAT x) lo w = s.fld (Reg.CAN_STAT x) lo w) ∧ RegsBut s t [Reg.CAN_STAT x] := by
  refine ⟨?_, State.bit_setBit_self _ _ (by decide), fun lo w h => ?_, fun lo w h => ?_, by simp [State.attemptOver, State.setCan]⟩
  · exact (congrArg CanSt.attempt (State.can_setCan s x { s.can x with attempt := none, exclusive := false }) :)
  · rw [State.attemptOver, State.fld_setBit_other _ _ (by decide) (Or.inr h), State.fld_setCan]
  · rw [State.attemptOver, State.fld_setBit_other _ _ (by decide) (Or.inl h), State.fld_setCan]

theorem State.attemptEnd_sent {s : State} {x : CanId} {o : Nat} (lost : Bool) (hatt : (s.can (canIdx x)).attempt = some o) :
    ∃ obj, s.attemptEnd x true lost = if ((s.attemptOver (canIdx x)).txEnd (canIdx x) o 2).bit (Reg.CAN_CTRL (canIdx x)) 4
      then ((s.attemptOver (canIdx x)).txEnd (canIdx x) o 2).canStore (canIdx x) obj else (s.attemptOver (canIdx x)).txEnd (canIdx x) o 2 := by
  unfold State.attemptEnd
  dsimp only
  rw [hatt]
  dsimp only
  rw [if_pos rfl]
  exact ⟨_, rfl⟩

theorem State.attemptEnd_failed {s : State} {x : CanId} {o : Nat} (lost : Bool) (hatt : (s.can (canIdx x)).attempt = some o) (habort : getField (s.can (canIdx x)).aborting o 1 = 0)
    (hexcl : (s.can (canIdx x)).exclusive = false) : s.attemptEnd x false lost = if lost then (s.attemptOver (canIdx x)).incSat (Reg.CAN_TXST (canIdx x) o) 4 4 1
      else ((s.attemptOver (canIdx x)).incSat (Reg.CAN_TXST (canIdx x) o) 4 4 1).incSat (Reg.CAN_CEL (canIdx x)) 0 16 1 := by
  unfold State.attemptEnd
  dsimp only
  rw [hatt]
  dsimp only
  rw [if_neg Bool.false_ne_true, habort, if_neg (by decide), hexcl, if_neg Bool.false_ne_true]
  rfl

theorem doTxEnd_uncrewed {s : State} {x : CanId} {o : Nat} {ok : Bool} (lost : Bool) (lec : Nat) (hatt : (s.can (canIdx x)).attempt = some o)
    (h : x = .b → ok = true → s.crewOn = false ∨ (o ≠ crewOrd ∧ o ≠ crewOut)) : doTxEnd s x ok lost lec = doTxAttemptEnd s x ok lost lec := by
  unfold doTxEnd
  dsimp only
  split
  case h_1 p hp =>
    have hpo : p = o := Option.some.inj (hp.symm.trans hatt)
    subst hpo
    split
    case isTrue hcond =>
      obtain ⟨hok, hcrew⟩ := Bool.and_eq_true_iff.mp hcond
      obtain hoff | ⟨hord, hout⟩ := h rfl hok
      · exact absurd (hcrew.symm.trans hoff) (by decide)
      · rw [State.crewSent, if_neg hord, if_neg hout]
    case isFalse => rfl
  case h_2 => rfl

theorem attempt_sent {s : State} {x : CanId} {o : Nat} (lost : Bool) (lec : Nat) (ho : o < 32) (hatt : (s.can (canIdx x)).attempt = some o)
    (hcrew : x = .b → s.crewOn = false ∨ (o ≠ crewOrd ∧ o ≠ crewOut)) : Does (.txAttemptEnd x true lost lec) s (fun t => (t.can (canIdx x)).attempt = none
      ∧ t.txPending (canIdx x) o = false ∧ t.fld (Reg.CAN_TXST (canIdx x) o) 0 3 = 2 ∧ t.bit (Reg.CAN_TXDONE (canIdx x)) o = true ∧ t.bit (Reg.CAN_STAT (canIdx x)) 2 = true ∧ SameMem s t) := by
  have hx := canIdx_le x
  have hmem : SameMem s (doTxEnd s x true lost lec) := SameMem.of_mem ((doTxEnd_kept x true lost lec (Kept.refl false false false s)).memSame rfl)
  have hcase : doTxEnd s x true lost lec = s.attemptEnd x true lost := (doTxEnd_uncrewed lost lec hatt fun h _ => hcrew h).trans (congrArg (fun u => State.attemptEnd u x true lost) (if_neg (by simp)))
  obtain ⟨obj, hsent⟩ := State.attemptEnd_sent lost hatt
  rw [hsent] at hcase
  obtain ⟨hnone, hidle, -⟩ := s.attemptOver_shows (canIdx x)
  obtain ⟨hpend, hst, hdone, hatt'⟩ := (s.attemptOver (canIdx x)).txEnd_shows (canIdx x) ho (by decide : 2 < 8)
  have hstat := (s.attemptOver (canIdx x)).txEnd_stat (canIdx x) o 2
  rw [hnone] at hatt'
  replace hidle := (State.bit_of_rd hstat 2).trans hidle
  generalize (s.attemptOver (canIdx x)).txEnd (canIdx x) o 2 = u at *
  refine ⟨doTxEnd s x true lost lec, rfl, ?_⟩
  generalize doTxEnd s x true lost lec = t at *
  split at hcase
  case isTrue =>
    obtain ⟨hkept, hrd⟩ := u.canStore_keeps obj hx
    rw [← hcase] at hkept hrd
    have hreg (a : Nat) (ha : a ∈ [Reg.CAN_TXPEND (canIdx x), Reg.CAN_TXDONE (canIdx x), Reg.CAN_TXST (canIdx x) o, Reg.CAN_STAT (canIdx x)]) : t.rd a = u.rd a := by
      unfold Reg.CAN_TXPEND Reg.CAN_TXDONE Reg.CAN_TXST Reg.CAN_STAT at ha
      simp only [List.mem_cons, List.not_mem_nil, or_false] at ha
      refine hrd a ?_ ?_ ?_ ?_ ?_
      all_goals
        unfold Reg.CAN_RXNEW0 Reg.CAN_RXLOST1 Reg.CAN_FIFODROP Reg.CAN_FIFOST Reg.CAN_IRQ at *
        omega
    exact ⟨hkept.trans hatt', (State.bit_of_rd (hreg _ (by simp)) o).trans hpend, (State.fld_of_rd (hreg _ (by simp)) 0 3).trans hst, (State.bit_of_rd (hreg _ (by simp)) o).trans hdone,
      (State.bit_of_rd (hreg _ (by simp)) 2).trans hidle, hmem⟩
  case isFalse =>
    rw [hcase] at hmem ⊢
    exact ⟨hatt', hpend, hst, hdone, hidle, hmem⟩

theorem attempt_failed {s : State} {x : CanId} {o : Nat} (lost : Bool) (lec : Nat) (hatt : (s.can (canIdx x)).attempt = some o) (habort : getField (s.can (canIdx x)).aborting o 1 = 0)
    (hexcl : (s.can (canIdx x)).exclusive = false) : Does (.txAttemptEnd x false lost lec) s (fun t =>
      (t.can (canIdx x)).attempt = none ∧ t.txPending (canIdx x) o = s.txPending (canIdx x) o ∧ t.fld (Reg.CAN_TXST (canIdx x) o) 4 4 = min (s.fld (Reg.CAN_TXST (canIdx x) o) 4 4 + 1) 15
      ∧ (lost = false → t.fld (Reg.CAN_STAT (canIdx x)) 4 3 = lec % 8 ∧ t.fld (Reg.CAN_CEL (canIdx x)) 0 16 = min (s.fld (Reg.CAN_CEL (canIdx x)) 0 16 + 1) 0xFFFF) ∧ SameMem s t) := by
  have hmem : SameMem s (doTxEnd s x false lost lec) := SameMem.of_mem ((doTxEnd_kept x false lost lec (Kept.refl false false false s)).memSame rfl)
  have hcase := doTxEnd_uncrewed lost lec hatt fun _ h => absurd h Bool.false_ne_true
  have hne : Reg.CAN_TXPEND (canIdx x) < Reg.CAN_TXST (canIdx x) o ∧ Reg.CAN_CEL (canIdx x) < Reg.CAN_TXPEND (canIdx x) ∧ Reg.CAN_STAT (canIdx x) < Reg.CAN_CEL (canIdx x) := by
    unfold Reg.CAN_TXPEND Reg.CAN_TXST Reg.CAN_CEL Reg.CAN_STAT
    omega
  refine ⟨doTxEnd s x false lost lec, rfl, ?_⟩
  generalize doTxEnd s x false lost lec = t at *
  unfold doTxAttemptEnd at hcase
  dsimp only at hcase
  cases lost with
  | true =>
    rw [if_neg (by simp), State.attemptEnd_failed true hatt habort hexcl, if_pos rfl] at hcase
    obtain ⟨hnone, -, -, -, hregs⟩ := s.attemptOver_shows (canIdx x)
    have hrd (a : Nat) (ha : Reg.CAN_STAT (canIdx x) < a) : (s.attemptOver (canIdx x)).rd a = s.rd a := hregs a (fun h => Nat.ne_of_gt ha (List.mem_singleton.mp h))
    generalize s.attemptOver (canIdx x) = u at *
    rw [hcase] at hmem ⊢
    refine ⟨hnone, ?_, ?_, fun h => absurd h (by decide), hmem⟩
    · exact (State.bit_incSat_ne _ _ _ _ _ (by omega)).trans (State.bit_of_rd (hrd _ (by omega)) o)
    · rw [State.fld_incSat_self _ _ (by decide), State.fld_of_rd (hrd _ (by omega))]
      rfl
  | false =>
    have hcan : (s.setFld (Reg.CAN_STAT (canIdx x)) 4 3 lec).can (canIdx x) = s.can (canIdx x) := State.can_of_cans (State.setFld_cans ..) _
    rw [if_pos (by simp [hatt]), State.attemptEnd_failed (o := o) false (by rw [hcan, hatt]) (by rw [hcan, habort]) (by rw [hcan, hexcl]), if_neg Bool.false_ne_true] at hcase
    obtain ⟨hnone, -, -, hlec, hregs⟩ := (s.setFld (Reg.CAN_STAT (canIdx x)) 4 3 lec).attemptOver_shows (canIdx x)
    have hrd (a : Nat) (ha : Reg.CAN_STAT (canIdx x) < a) : ((s.setFld (Reg.CAN_STAT (canIdx x)) 4 3 lec).attemptOver (canIdx x)).rd a = s.rd a :=
      (hregs a (fun h => Nat.ne_of_gt ha (List.mem_singleton.mp h))).trans (State.rd_setFld_ne _ _ _ _ (Nat.ne_of_lt ha))
    have hcode := (hlec 4 3 (by decide)).trans (State.fld_setFld_self s lec (by decide))
    generalize (s.setFld (Reg.CAN_STAT (canIdx x)) 4 3 lec).attemptOver (canIdx x) = u at *
    rw [hcase] at hmem ⊢
    refine ⟨hnone, ?_, ?_, fun _ => ⟨?_, ?_⟩, hmem⟩
    · exact (State.bit_incSat_ne _ _ _ _ _ (by omega)).trans ((State.bit_incSat_ne _ _ _ _ _ (by omega)).trans (State.bit_of_rd (hrd _ (by omega)) o))
    · rw [State.fld_incSat_ne _ _ _ _ _ _ (by omega), State.fld_incSat_self _ _ (by decide), State.fld_of_rd (hrd _ (by omega))]
      rfl
    · rw [State.fld_incSat_ne _ _ _ _ _ _ (by omega), State.fld_incSat_ne _ _ _ _ _ _ (by omega), hcode]
      rfl
    · rw [State.fld_incSat_self _ _ (by decide), State.fld_incSat_ne _ _ _ _ _ _ (by omega), State.fld_of_rd (hrd _ (by omega))]
      rfl

/-! Limits (R300) -/

theorem limit_reached {s : State} {x : CanId} {o : Nat} (ho : o < 32) (hpend : s.txPending (canIdx x) o = true) (hatt : (s.can (canIdx x)).attempt ≠ some o)
    (hdl : (s.txDeadline (canIdx x) o).isSome = true) :
    Does (.txLimitReached x o true) s (fun t => t.txPending (canIdx x) o = false ∧ t.fld (Reg.CAN_TXST (canIdx x) o) 0 3 = 5 ∧ t.bit (Reg.CAN_IRQ (canIdx x)) 4 = true ∧ SameMem s t) := by
  have hmem : SameMem s (doTxLimitReached s x o true) := SameMem.of_mem ((doTxLimitReached_kept x o true (Kept.refl false false false s)).memSame rfl)
  have hcase : doTxLimitReached s x o true = s.txEnd (canIdx x) o 5 := by
    unfold doTxLimitReached
    dsimp only
    rw [if_neg (by simp [hpend, hatt]), if_pos rfl, if_pos hdl]
  obtain ⟨hp, hst, -⟩ := s.txEnd_shows (canIdx x) ho (by decide : 5 < 8)
  have hirq : (s.txEnd (canIdx x) o 5).bit (Reg.CAN_IRQ (canIdx x)) 4 = true := by
    rw [State.txEnd_eq, if_neg (by decide), if_neg (by decide)]
    exact State.bit_setBit_self _ _ (by decide)
  rw [← hcase] at hp hst hirq
  exact ⟨_, rfl, hp, hst, hirq, hmem⟩

theorem doTxLimitReached_ended {s : State} {x : CanId} {o : Nat} (b : Bool) (h : s.txPending (canIdx x) o = false) : doTxLimitReached s x o b = s := if_pos (Or.inl (by simp [h]))

/-! Error states and bus-off (R301, R302) -/

/-- The error state and the counters show. -/
def State.showError (s : State) (x err tec rec : Nat) : State :=
  (((s.setFld (Reg.CAN_STAT x) 0 2 err).setFld (Reg.CAN_ECR x) 0 8 tec).setFld (Reg.CAN_ECR x) 8 7 rec).setBit (Reg.CAN_ECR x) 15 (decide (128 ≤ rec))

theorem State.showError_shows (s : State) (x err tec rec : Nat) : let t := s.showError x err tec rec
    t.fld (Reg.CAN_STAT x) 0 2 = err % 4 ∧ (∀ lo w, 2 ≤ lo → t.fld (Reg.CAN_STAT x) lo w = s.fld (Reg.CAN_STAT x) lo w) ∧ t.fld (Reg.CAN_ECR x) 0 8 = tec % 256
      ∧ t.fld (Reg.CAN_ECR x) 8 7 = rec % 128 ∧ t.bit (Reg.CAN_ECR x) 15 = decide (128 ≤ rec) ∧ OnlyRegs s t [Reg.CAN_STAT x, Reg.CAN_ECR x] := by
  have hne : Reg.CAN_ECR x ≠ Reg.CAN_STAT x := by unfold Reg.CAN_ECR Reg.CAN_STAT; omega
  refine ⟨?_, fun lo w h => ?_, ?_, ?_, State.bit_setBit_self _ _ (by decide), ?_⟩
  · rw [State.showError, State.fld_setBit_ne _ _ _ _ _ hne, State.fld_setFld_ne _ _ _ _ _ _ hne, State.fld_setFld_ne _ _ _ _ _ _ hne]
    exact State.fld_setFld_self _ _ (by decide)
  · rw [State.showError, State.fld_setBit_ne _ _ _ _ _ hne, State.fld_setFld_ne _ _ _ _ _ _ hne, State.fld_setFld_ne _ _ _ _ _ _ hne]
    exact State.fld_setFld_other _ _ (by decide) (Or.inl h)
  · rw [State.showError, State.fld_setBit_other _ _ (by decide) (by decide), State.fld_setFld_other _ _ (by decide) (by decide)]
    exact State.fld_setFld_self _ _ (by decide)
  · rw [State.showError, State.fld_setBit_other _ _ (by decide) (by decide)]
    exact State.fld_setFld_self _ _ (by decide)
  · exact ((((OnlyRegs.refl s _).setFld _ _ _ List.mem_cons_self).setFld _ _ _ (List.mem_cons_of_mem _ List.mem_cons_self)).setFld _ _ _ (List.mem_cons_of_mem _ List.mem_cons_self)).setBit _ _
      (List.mem_cons_of_mem _ List.mem_cons_self)

/-- A change of the error state shows and is logged with 0x0D01. -/
def State.errorLogged (s : State) (x err tec rec : Nat) : State :=
  ((s.showError x err tec rec).setBit (Reg.CAN_IRQ x) 5 true).logKpa 0x0D01 (u8 x ++ u8 (err % 4) ++ u8 tec ++ u8 rec)

theorem State.errState_same {s : State} {x : CanId} {err : Nat} (tec rec : Nat) (h : s.fld (Reg.CAN_STAT (canIdx x)) 0 2 = err % 4) : s.errState x err tec rec = s.showError (canIdx x) err tec rec :=
  if_pos h

theorem State.errState_changed {s : State} {x : CanId} {err : Nat} (tec rec : Nat) (h : s.fld (Reg.CAN_STAT (canIdx x)) 0 2 ≠ err % 4) : s.errState x err tec rec =
    if err % 4 = 2 then (s.errorLogged (canIdx x) err tec rec).busOff x else s.errorLogged (canIdx x) err tec rec := if_neg h

theorem CAN_notLog (x : Nat) {a : Nat} (h : a ∈ [Reg.CAN_STAT x, Reg.CAN_ECR x, Reg.CAN_IRQ x, Reg.CAN_CTRL x]) : a ∉ logRegs 0 := by
  intro hlog
  unfold Reg.CAN_STAT Reg.CAN_ECR Reg.CAN_IRQ Reg.CAN_CTRL at h
  unfold logRegs Reg.LOG_PEND Reg.LOG_BSUPP Reg.LOG_BOVF Reg.LOG_PENDDROP Reg.LOG_IRQ at hlog
  simp only [List.mem_cons, List.not_mem_nil, or_false] at h hlog
  omega

theorem State.errorLogged_shows (s : State) {x : Nat} (err tec rec : Nat) : let t := s.errorLogged x err tec rec
    (∀ lo w, t.fld (Reg.CAN_STAT x) lo w = (s.showError x err tec rec).fld (Reg.CAN_STAT x) lo w) ∧ (∀ lo w, t.fld (Reg.CAN_ECR x) lo w = (s.showError x err tec rec).fld (Reg.CAN_ECR x) lo w)
      ∧ t.bit (Reg.CAN_IRQ x) 5 = true ∧ t.cans = s.cans ∧ RegsBut s t ([Reg.CAN_STAT x, Reg.CAN_ECR x, Reg.CAN_IRQ x] ++ logRegs 0) := by
  obtain ⟨-, -, -, -, -, hregs, -, hframe⟩ := s.showError_shows x err tec rec
  have hcans : (s.showError x err tec rec).cans = s.cans := (congrArg State.cans hframe :)
  unfold State.errorLogged
  dsimp only
  generalize s.showError x err tec rec = u at *
  have hne : Reg.CAN_IRQ x ≠ Reg.CAN_STAT x ∧ Reg.CAN_IRQ x ≠ Reg.CAN_ECR x := by unfold Reg.CAN_IRQ Reg.CAN_STAT Reg.CAN_ECR; omega
  refine ⟨fun lo w => ?_, fun lo w => ?_, ?_, ?_, ?_⟩
  · rw [State.fld_logKpa _ _ _ _ _ (CAN_notLog x (by simp)), State.fld_setBit_ne _ _ _ _ _ hne.1]
  · rw [State.fld_logKpa _ _ _ _ _ (CAN_notLog x (by simp)), State.fld_setBit_ne _ _ _ _ _ hne.2]
  · rw [State.bit_logKpa _ _ _ _ (CAN_notLog x (by simp)), State.bit_setBit_self _ _ (by decide)]
  · rw [State.logKpa_eq]
    exact hcans
  · exact RegsBut.logKpa _ _ (RegsBut.setBit _ _ (hregs.mono fun a ha => List.mem_append_left _ (List.mem_append_left [Reg.CAN_IRQ x] ha))
      (List.mem_append_left _ (List.mem_append_right [Reg.CAN_STAT x, Reg.CAN_ECR x] List.mem_cons_self))) fun a ha => List.mem_append_right _ ha

theorem State.txEnd_attempt (s : State) (x o result : Nat) : ((s.txEnd x o result).can x).attempt = (s.can x).attempt :=
  State.txEnd_of_ended (P := fun t => (t.can x).attempt = (s.can x).attempt) (congrArg CanSt.attempt (State.can_setCan ..) :) fun _ _ h => h

theorem State.windowClosed_cases (s : State) (x o result : Nat) : s.windowClosed x o result = s ∨ s.windowClosed x o result = s.txEnd x o result := by
  unfold State.windowClosed
  split
  · exact Or.inr rfl
  · split
    · split
      · exact Or.inl rfl
      · exact Or.inr rfl
    · exact Or.inl rfl

/-- A failed attempt ends, whatever becomes of its object. -/
theorem State.attemptEnd_stat {s : State} {x : CanId} {o : Nat} (hatt : (s.can (canIdx x)).attempt = some o) : let t := s.attemptEnd x false false
    (t.can (canIdx x)).attempt = none ∧ t.fld (Reg.CAN_STAT (canIdx x)) 0 2 = s.fld (Reg.CAN_STAT (canIdx x)) 0 2 := by
  obtain ⟨hnone, -, hstate, -⟩ := s.attemptOver_shows (canIdx x)
  have hne : Reg.CAN_TXST (canIdx x) o ≠ Reg.CAN_STAT (canIdx x) ∧ Reg.CAN_CEL (canIdx x) ≠ Reg.CAN_STAT (canIdx x) := by
    unfold Reg.CAN_TXST Reg.CAN_CEL Reg.CAN_STAT
    omega
  have hcount : (((s.attemptOver (canIdx x)).incSat (Reg.CAN_TXST (canIdx x) o) 4 4 1).incSat (Reg.CAN_CEL (canIdx x)) 0 16 1).fld (Reg.CAN_STAT (canIdx x)) 0 2 = s.fld (Reg.CAN_STAT (canIdx x)) 0 2 :=
    (State.fld_incSat_ne _ _ _ _ _ _ hne.2).trans ((State.fld_incSat_ne _ _ _ _ _ _ hne.1).trans (hstate 0 2 (by decide)))
  have hcan : ((((s.attemptOver (canIdx x)).incSat (Reg.CAN_TXST (canIdx x) o) 4 4 1).incSat (Reg.CAN_CEL (canIdx x)) 0 16 1).can (canIdx x)).attempt = none :=
    (congrArg CanSt.attempt (State.can_of_cans ((State.incSat_cans ..).trans (State.incSat_cans ..)) _)).trans hnone
  have hcase : s.attemptEnd x false false =
      if getField (s.can (canIdx x)).aborting o 1 = 1 then (((s.attemptOver (canIdx x)).incSat (Reg.CAN_TXST (canIdx x) o) 4 4 1).incSat (Reg.CAN_CEL (canIdx x)) 0 16 1).txEnd (canIdx x) o 6
      else if (s.can (canIdx x)).exclusive then (((s.attemptOver (canIdx x)).incSat (Reg.CAN_TXST (canIdx x) o) 4 4 1).incSat (Reg.CAN_CEL (canIdx x)) 0 16 1).windowClosed (canIdx x) o 3
      else ((s.attemptOver (canIdx x)).incSat (Reg.CAN_TXST (canIdx x) o) 4 4 1).incSat (Reg.CAN_CEL (canIdx x)) 0 16 1 := by
    unfold State.attemptEnd
    dsimp only
    rw [hatt]
    dsimp only
    rw [if_neg Bool.false_ne_true, if_neg Bool.false_ne_true]
    rfl
  generalize ((s.attemptOver (canIdx x)).incSat (Reg.CAN_TXST (canIdx x) o) 4 4 1).incSat (Reg.CAN_CEL (canIdx x)) 0 16 1 = u at *
  dsimp only
  rw [hcase]
  have hended (result : Nat) : ((u.txEnd (canIdx x) o result).can (canIdx x)).attempt = none ∧ (u.txEnd (canIdx x) o result).fld (Reg.CAN_STAT (canIdx x)) 0 2 = s.fld (Reg.CAN_STAT (canIdx x)) 0 2 :=
    ⟨(u.txEnd_attempt ..).trans hcan, (State.fld_of_rd (u.txEnd_stat ..) 0 2).trans hcount⟩
  split
  · exact hended 6
  · split
    · obtain h | h := u.windowClosed_cases (canIdx x) o 3
      · rw [h]
        exact ⟨hcan, hcount⟩
      · rw [h]
        exact hended 3
    · exact ⟨hcan, hcount⟩

/-- Bus-off shows and is logged with 0x0D02. -/
def State.busOffLogged (s : State) (x : Nat) : State := ((s.setBit (Reg.CAN_IRQ x) 6 true).setBit (Reg.CAN_STAT x) 2 true).logKpa 0x0D02 (u8 x)

theorem State.busOffLogged_shows (s : State) (x : Nat) : let t := s.busOffLogged x
    t.fld (Reg.CAN_STAT x) 0 2 = s.fld (Reg.CAN_STAT x) 0 2 ∧ t.bit (Reg.CAN_IRQ x) 6 = true ∧ t.cans = s.cans ∧ RegsBut s t ([Reg.CAN_STAT x, Reg.CAN_IRQ x] ++ logRegs 0) := by
  have hne : Reg.CAN_IRQ x ≠ Reg.CAN_STAT x := by unfold Reg.CAN_IRQ Reg.CAN_STAT; omega
  refine ⟨?_, ?_, ?_, ?_⟩
  · rw [State.busOffLogged, State.fld_logKpa _ _ _ _ _ (CAN_notLog x (by simp)), State.fld_setBit_other _ _ (by decide) (by decide), State.fld_setBit_ne _ _ _ _ _ hne]
  · rw [State.busOffLogged, State.bit_logKpa _ _ _ _ (CAN_notLog x (by simp)), State.bit_setBit_ne _ _ _ _ (Ne.symm hne), State.bit_setBit_self _ _ (by decide)]
  · rw [State.busOffLogged, State.logKpa_eq]
    rfl
  · exact RegsBut.logKpa _ _ (RegsBut.setBit _ _ (RegsBut.setBit _ _ (RegsBut.refl s _) (List.mem_append_left _ (List.mem_cons_of_mem _ List.mem_cons_self))) (List.mem_append_left _ List.mem_cons_self))
      fun a ha => List.mem_append_right _ ha

theorem State.busOff_eq (s : State) (x : CanId) : s.busOff x = (if (s.can (canIdx x)).attempt.isSome then s.attemptEnd x false false else s).busOffLogged (canIdx x) := rfl

theorem State.busOff_shows (s : State) (x : CanId) : let t := s.busOff x
    t.fld (Reg.CAN_STAT (canIdx x)) 0 2 = s.fld (Reg.CAN_STAT (canIdx x)) 0 2 ∧ t.bit (Reg.CAN_IRQ (canIdx x)) 6 = true ∧ (t.can (canIdx x)).attempt = none
      ∧ ((s.can (canIdx x)).attempt = none → RegsBut s t ([Reg.CAN_STAT (canIdx x), Reg.CAN_IRQ (canIdx x)] ++ logRegs 0)) := by
  have hended : ((if (s.can (canIdx x)).attempt.isSome then s.attemptEnd x false false else s).can (canIdx x)).attempt = none
      ∧ (if (s.can (canIdx x)).attempt.isSome then s.attemptEnd x false false else s).fld (Reg.CAN_STAT (canIdx x)) 0 2 = s.fld (Reg.CAN_STAT (canIdx x)) 0 2
      ∧ ((s.can (canIdx x)).attempt = none → (if (s.can (canIdx x)).attempt.isSome then s.attemptEnd x false false else s) = s) := by
    cases hatt : (s.can (canIdx x)).attempt with
    | none => exact ⟨hatt, rfl, fun _ => rfl⟩
    | some o =>
      obtain ⟨hnone, hstat⟩ := State.attemptEnd_stat hatt
      exact ⟨hnone, hstat, fun h => absurd h (by simp)⟩
  have heq := s.busOff_eq x
  dsimp only
  rw [heq]
  generalize (if (s.can (canIdx x)).attempt.isSome then s.attemptEnd x false false else s) = u at *
  obtain ⟨hnone, hstat, hsame⟩ := hended
  obtain ⟨hshown, hirq, hcans, hregs⟩ := u.busOffLogged_shows (canIdx x)
  refine ⟨hshown.trans hstat, hirq, (congrArg CanSt.attempt (State.can_of_cans hcans _)).trans hnone, fun hatt => ?_⟩
  rw [← hsame hatt]
  exact hregs

theorem State.mayAttempt_busOff {s : State} {x : Nat} (o : Nat) (h : s.fld (Reg.CAN_STAT x) 0 2 = 2) : s.mayAttempt x o = false := by
  have hready : s.canReady x = false := by simp [State.canReady, h]
  simp [State.mayAttempt, hready]

theorem doCanErrorState_restricted {s : State} {x : CanId} (err tec rec lec dlec : Nat) (h : s.bit (Reg.CAN_CTRL (canIdx x)) 2 = true) : doCanErrorState s x err tec rec lec dlec = s := if_pos h

theorem doCanBusOff_restricted {s : State} {x : CanId} (h : s.bit (Reg.CAN_CTRL (canIdx x)) 2 = true) : doCanBusOff s x = s := if_pos (by rw [h]; exact Bool.or_true _)

theorem error_state {s : State} {x : CanId} {err : Nat} (tec rec lec dlec : Nat) (hctrl : s.bit (Reg.CAN_CTRL (canIdx x)) 2 = false) (herr : err < 4) (hoff : err ≠ 2) :
    Does (.canErrorState x err tec rec lec dlec) s (fun t => t.fld (Reg.CAN_STAT (canIdx x)) 0 2 = err ∧ t.fld (Reg.CAN_STAT (canIdx x)) 4 3 = lec % 8 ∧ t.fld (Reg.CAN_STAT (canIdx x)) 8 3 = dlec % 8
      ∧ t.fld (Reg.CAN_ECR (canIdx x)) 0 8 = tec % 256 ∧ t.fld (Reg.CAN_ECR (canIdx x)) 8 7 = rec % 128 ∧ t.bit (Reg.CAN_ECR (canIdx x)) 15 = decide (128 ≤ rec)
      ∧ (s.fld (Reg.CAN_STAT (canIdx x)) 0 2 ≠ err → t.bit (Reg.CAN_IRQ (canIdx x)) 5 = true) ∧ RegsBut s t ([Reg.CAN_STAT (canIdx x), Reg.CAN_ECR (canIdx x), Reg.CAN_IRQ (canIdx x)] ++ logRegs 0) ∧ SameMem s t) := by
  have hmem : SameMem s (doCanErrorState s x err tec rec lec dlec) := SameMem.of_mem ((doCanErrorState_kept x err tec rec lec dlec (Kept.refl false false false s)).memSame rfl)
  have hcase : doCanErrorState s x err tec rec lec dlec = ((s.setFld (Reg.CAN_STAT (canIdx x)) 4 3 lec).setFld (Reg.CAN_STAT (canIdx x)) 8 3 dlec).errState x err tec rec :=
    if_neg (by rw [hctrl]; exact Bool.false_ne_true)
  have hold : ((s.setFld (Reg.CAN_STAT (canIdx x)) 4 3 lec).setFld (Reg.CAN_STAT (canIdx x)) 8 3 dlec).fld (Reg.CAN_STAT (canIdx x)) 0 2 = s.fld (Reg.CAN_STAT (canIdx x)) 0 2 :=
    (State.fld_setFld_other _ _ (by decide) (by decide)).trans (State.fld_setFld_other _ _ (by decide) (by decide))
  have hlec : ((s.setFld (Reg.CAN_STAT (canIdx x)) 4 3 lec).setFld (Reg.CAN_STAT (canIdx x)) 8 3 dlec).fld (Reg.CAN_STAT (canIdx x)) 4 3 = lec % 8 :=
    (State.fld_setFld_other _ _ (by decide) (by decide)).trans (State.fld_setFld_self _ _ (by decide))
  have hdlec : ((s.setFld (Reg.CAN_STAT (canIdx x)) 4 3 lec).setFld (Reg.CAN_STAT (canIdx x)) 8 3 dlec).fld (Reg.CAN_STAT (canIdx x)) 8 3 = dlec % 8 := State.fld_setFld_self _ _ (by decide)
  have hregs : RegsBut s ((s.setFld (Reg.CAN_STAT (canIdx x)) 4 3 lec).setFld (Reg.CAN_STAT (canIdx x)) 8 3 dlec) ([Reg.CAN_STAT (canIdx x), Reg.CAN_ECR (canIdx x), Reg.CAN_IRQ (canIdx x)] ++ logRegs 0) :=
    ((RegsBut.refl s _).setFld _ _ _ List.mem_cons_self).setFld _ _ _ List.mem_cons_self
  generalize (s.setFld (Reg.CAN_STAT (canIdx x)) 4 3 lec).setFld (Reg.CAN_STAT (canIdx x)) 8 3 dlec = u at *
  have hmod : err % 4 = err := Nat.mod_eq_of_lt herr
  obtain ⟨hstate, hrest, htec, hrec, hpassive, hshown, -⟩ := u.showError_shows (canIdx x) err tec rec
  refine ⟨doCanErrorState s x err tec rec lec dlec, rfl, ?_⟩
  generalize doCanErrorState s x err tec rec lec dlec = t at *
  by_cases hsame : u.fld (Reg.CAN_STAT (canIdx x)) 0 2 = err % 4
  · rw [State.errState_same tec rec hsame] at hcase
    rw [hcase] at hmem ⊢
    exact ⟨hstate.trans hmod, (hrest 4 3 (by decide)).trans hlec, (hrest 8 3 (by decide)).trans hdlec, htec, hrec, hpassive, fun h => absurd (hold.symm.trans (hsame.trans hmod)) h,
      hregs.trans (hshown.mono fun a ha => List.mem_append_left _ (List.mem_append_left [Reg.CAN_IRQ (canIdx x)] ha)), hmem⟩
  · rw [State.errState_changed tec rec hsame, hmod, if_neg hoff] at hcase
    obtain ⟨hstat, hecr, hirq, -, hlogged⟩ := u.errorLogged_shows (x := canIdx x) err tec rec
    rw [hcase] at hmem ⊢
    exact ⟨(hstat 0 2).trans (hstate.trans hmod), (hstat 4 3).trans ((hrest 4 3 (by decide)).trans hlec), (hstat 8 3).trans ((hrest 8 3 (by decide)).trans hdlec), (hecr 0 8).trans htec,
      (hecr 8 7).trans hrec, (congrArg (fun n => decide (n = 1)) (hecr 15 1)).trans hpassive, fun _ => hirq, hregs.trans hlogged, hmem⟩

theorem bus_off {s : State} {x : CanId} (hctrl : s.bit (Reg.CAN_CTRL (canIdx x)) 2 = false) (hon : s.fld (Reg.CAN_STAT (canIdx x)) 0 2 ≠ 2) :
    Does (.canBusOff x) s (fun t => t.fld (Reg.CAN_STAT (canIdx x)) 0 2 = 2 ∧ (t.can (canIdx x)).attempt = none ∧ t.bit (Reg.CAN_IRQ (canIdx x)) 6 = true
      ∧ (∀ o, t.mayAttempt (canIdx x) o = false) ∧ SameMem s t
      ∧ ((s.can (canIdx x)).attempt = none → RegsBut s t ([Reg.CAN_STAT (canIdx x), Reg.CAN_ECR (canIdx x), Reg.CAN_IRQ (canIdx x)] ++ logRegs 0))) := by
  have hmem : SameMem s (doCanBusOff s x) := SameMem.of_mem ((doCanBusOff_kept x (Kept.refl false false false s)).memSame rfl)
  have hcase : doCanBusOff s x = (s.errorLogged (canIdx x) 2 (s.fld (Reg.CAN_ECR (canIdx x)) 0 8) (s.fld (Reg.CAN_ECR (canIdx x)) 8 7)).busOff x := by
    unfold doCanBusOff
    dsimp only
    rw [if_neg (by simp [hctrl, hon]), State.errState_changed _ _ (by simpa using hon), if_pos rfl]
  obtain ⟨hstate, -⟩ := s.showError_shows (canIdx x) 2 (s.fld (Reg.CAN_ECR (canIdx x)) 0 8) (s.fld (Reg.CAN_ECR (canIdx x)) 8 7)
  obtain ⟨hstat, -, -, hcans, hlogged⟩ := s.errorLogged_shows (x := canIdx x) 2 (s.fld (Reg.CAN_ECR (canIdx x)) 0 8) (s.fld (Reg.CAN_ECR (canIdx x)) 8 7)
  replace hstate := (hstat 0 2).trans hstate
  generalize s.errorLogged (canIdx x) 2 (s.fld (Reg.CAN_ECR (canIdx x)) 0 8) (s.fld (Reg.CAN_ECR (canIdx x)) 8 7) = u at *
  obtain ⟨hkept, hirq, hnone, hregs⟩ := u.busOff_shows x
  rw [← hcase] at hkept hirq hnone hregs
  have hoff := hkept.trans hstate
  refine ⟨_, rfl, hoff, hnone, hirq, fun o => State.mayAttempt_busOff o hoff, hmem, fun hatt => hlogged.trans ((hregs ?_).mono fun a ha => ?_)⟩
  · rw [State.can_of_cans hcans, hatt]
  · obtain h | h := List.mem_append.mp ha
    · exact List.mem_append_left _ (by simp only [List.mem_cons, List.not_mem_nil, or_false] at h ⊢; omega)
    · exact List.mem_append_right _ h

/-! Recovery and wake (R285, R301, R303) -/

/-- Recovery is logged with 0x0D03. -/
def State.recoveryLogged (s : State) (x ms : Nat) : State := (s.errorLogged x 0 0 0).logKpa 0x0D03 (u8 x ++ u32 ms)

theorem getField_counters (n : Nat) : getField n 0 16 = getField n 0 8 + 256 * getField n 8 7 + 32768 * getField n 15 1 := by
  unfold getField
  omega

theorem State.recoveryLogged_shows (s : State) (x ms : Nat) : let t := s.recoveryLogged x ms
    t.fld (Reg.CAN_STAT x) 0 2 = 0 ∧ t.fld (Reg.CAN_ECR x) 0 16 = 0 ∧ RegsBut s t ([Reg.CAN_STAT x, Reg.CAN_ECR x, Reg.CAN_IRQ x] ++ logRegs 0) := by
  obtain ⟨hstate, -, htec, hrec, hpassive, -⟩ := s.showError_shows x 0 0 0
  obtain ⟨hstat, hecr, -, -, hregs⟩ := s.errorLogged_shows (x := x) 0 0 0
  have htop : (s.showError x 0 0 0).fld (Reg.CAN_ECR x) 15 1 ≠ 1 := fun h => absurd (hpassive.symm.trans (decide_eq_true h)) (by decide)
  have htop' : (s.showError x 0 0 0).fld (Reg.CAN_ECR x) 15 1 < 2 := State.fld_lt ..
  refine ⟨?_, ?_, RegsBut.logKpa _ _ hregs fun a ha => List.mem_append_right _ ha⟩
  · rw [State.recoveryLogged, State.fld_logKpa _ _ _ _ _ (CAN_notLog x (by simp)), hstat, hstate]
  · rw [State.recoveryLogged, State.fld_logKpa _ _ _ _ _ (CAN_notLog x (by simp)), hecr]
    unfold State.fld at *
    rw [getField_counters, htec, hrec]
    omega

theorem busoff_recovers {s : State} {x : CanId} (hoff : s.fld (Reg.CAN_STAT (canIdx x)) 0 2 = 2) (hauto : s.bit (Reg.CAN_CTRL (canIdx x)) 6 = true) (ms : Nat) :
    Does (.busoffRecovered x ms) s (fun t => t.fld (Reg.CAN_STAT (canIdx x)) 0 2 = 0 ∧ t.fld (Reg.CAN_ECR (canIdx x)) 0 16 = 0 ∧ t.bit (Reg.CAN_CTRL (canIdx x)) 6 = decide (x = .b)
        ∧ RegsBut s t ([Reg.CAN_STAT (canIdx x), Reg.CAN_ECR (canIdx x), Reg.CAN_IRQ (canIdx x), Reg.CAN_CTRL (canIdx x)] ++ logRegs 0) ∧ SameMem s t) := by
  have hmem : SameMem s (doBusoffRecovered s x ms) := SameMem.of_mem ((doBusoffRecovered_kept x ms (Kept.refl false false false s)).memSame rfl)
  have hcase : doBusoffRecovered s x ms = if canIdx x = 1 then s.recoveryLogged (canIdx x) ms else (s.recoveryLogged (canIdx x) ms).setBit (Reg.CAN_CTRL (canIdx x)) 6 false := by
    unfold doBusoffRecovered
    dsimp only
    rw [if_pos ⟨hoff, hauto⟩, State.errState_changed 0 0 (by rw [hoff]; decide), if_neg (show ¬ 0 % 4 = 2 by decide)]
    rfl
  obtain ⟨hstat, hecr, hregs⟩ := s.recoveryLogged_shows (canIdx x) ms
  have hne : Reg.CAN_CTRL (canIdx x) ≠ Reg.CAN_STAT (canIdx x) ∧ Reg.CAN_CTRL (canIdx x) ≠ Reg.CAN_ECR (canIdx x) ∧ Reg.CAN_CTRL (canIdx x) ≠ Reg.CAN_IRQ (canIdx x) := by
    unfold Reg.CAN_CTRL Reg.CAN_STAT Reg.CAN_ECR Reg.CAN_IRQ
    omega
  have hctrl : (s.recoveryLogged (canIdx x) ms).bit (Reg.CAN_CTRL (canIdx x)) 6 = s.bit (Reg.CAN_CTRL (canIdx x)) 6 := by
    refine State.bit_of_rd (hregs _ fun h => ?_) 6
    obtain h | h := List.mem_append.mp h
    · simp only [List.mem_cons, List.not_mem_nil, or_false] at h
      omega
    · exact CAN_notLog (canIdx x) (by simp) h
  have hwide : RegsBut s (s.recoveryLogged (canIdx x) ms) ([Reg.CAN_STAT (canIdx x), Reg.CAN_ECR (canIdx x), Reg.CAN_IRQ (canIdx x), Reg.CAN_CTRL (canIdx x)] ++ logRegs 0) :=
    hregs.mono fun a ha => by
      obtain h | h := List.mem_append.mp ha
      · exact List.mem_append_left _ (List.mem_append_left [Reg.CAN_CTRL (canIdx x)] h)
      · exact List.mem_append_right _ h
  generalize s.recoveryLogged (canIdx x) ms = u at *
  refine ⟨doBusoffRecovered s x ms, rfl, ?_⟩
  rw [hcase] at hmem ⊢
  cases x with
  | b => exact ⟨hstat, hecr, hctrl.trans hauto, hwide, hmem⟩
  | a | c =>
    exact ⟨(State.fld_setBit_ne _ _ _ _ _ hne.1).trans hstat, (State.fld_setBit_ne _ _ _ _ _ hne.2.1).trans hecr, State.bit_setBit_self _ _ (by decide),
      RegsBut.setBit _ _ hwide (List.mem_append_left _ (by simp)), hmem⟩

theorem can_wakes {s : State} {x : CanId} (hwake : s.parS .canWake (canIdx x) = 1) (hphase : s.power.phase = .hibernating) :
    Does (.canWake (.rx x)) s (fun t => t.power.phase = .held ∧ t.power.wakeSrc = 2 ∧ t.power.wakeBall = canIdx x ∧ t.fld Reg.RST_LAST 0 4 = 7) := by
  obtain ⟨hheld, hsrc, hlast⟩ := State.wake_of_hibernating 2 hphase
  have hcase : doCanWake s (.rx x) = { s.wake 2 with power := { (s.wake 2).power with wakeBall := canIdx x } } := by
    unfold doCanWake
    dsimp only
    rw [if_pos (by simpa using hwake), if_pos hsrc]
  generalize s.wake 2 = u at *
  exact ⟨_, congrArg Host.Outcome.next hcase, hheld, hsrc, rfl, hlast⟩

/-- Settles O40: attempts start and end by the rule, a limit ends an object, and the error states follow the controller. -/
theorem canAttemptsAndErrors : Obligations.CanAttemptsAndErrors := by
  unfold Obligations.CanAttemptsAndErrors
  refine ⟨fun s x o us hus hmay hlow => attempt_starts hus hmay hlow, fun s x o us hmay => congrArg Host.Outcome.next (doTxAttempt_refused hmay),
    fun s x o lec lost ho hatt => ⟨fun hcrew => attempt_sent lost lec ho hatt hcrew, fun habort hexcl => attempt_failed lost lec hatt habort hexcl⟩,
    fun s x o ho hpend hatt hdl => limit_reached ho hpend hatt hdl, fun s x o b h => congrArg Host.Outcome.next (doTxLimitReached_ended b h),
    fun s x err tec rec lec dlec hctrl herr hoff => error_state tec rec lec dlec hctrl herr hoff,
    fun s x err tec rec lec dlec h => ⟨congrArg Host.Outcome.next (doCanErrorState_restricted err tec rec lec dlec h), congrArg Host.Outcome.next (doCanBusOff_restricted h)⟩,
    fun s x hctrl hon => bus_off hctrl hon, fun s x hoff => ⟨?_, fun hauto ms => busoff_recovers hoff hauto ms, fun hauto ms => ?_⟩, fun s x hwake hphase => ?_, fun s x hwake => ?_⟩
  · have hcase : doBusoffHoldEnd s x = s.setBit (Reg.CAN_CTRL (canIdx x)) 6 true := if_pos hoff
    refine ⟨_, congrArg Host.Outcome.next hcase, State.bit_setBit_self _ _ (by decide), (OnlyRegs.refl s _).setBit _ _ List.mem_cons_self⟩
  · exact congrArg Host.Outcome.next (if_neg (by simp [hauto]))
  · exact can_wakes hwake hphase
  · exact congrArg Host.Outcome.next (if_neg (by simpa using hwake))

end Sys2Proof.Machine
end

section
/-!
PROOFS. The states of the backup charger (R140 to R148, Table 6-4). It settles O27.
-/

namespace Sys2Proof.Machine

/-! What a change of the source and of the charger's state keep of KPA.STAT and KPA.IRQ -/

theorem State.bit_stat_selectSource (s : State) (cause : Nat) {i : Nat} (hi : 2 ≤ i) : (s.selectSource cause).bit Reg.KPA_STAT i = s.bit Reg.KPA_STAT i := by
  unfold State.selectSource
  dsimp only
  split
  · rfl
  · rw [State.bit_logKpa _ _ _ _ (by decide), State.bit_setBit_ne _ _ _ _ (by decide), State.bit_setFld_other _ _ (by decide) (Or.inl hi)]

theorem State.bit_irq_selectSource (s : State) (cause : Nat) {i : Nat} (hi : i ≠ 0) : (s.selectSource cause).bit Reg.KPA_IRQ i = s.bit Reg.KPA_IRQ i := by
  unfold State.selectSource
  dsimp only
  split
  · rfl
  · rw [State.bit_logKpa _ _ _ _ (by decide), State.bit_setBit_other _ _ (by decide) (Ne.symm hi), State.bit_setFld_ne _ _ _ _ _ (by decide)]

theorem State.selectSource_kpa (s : State) (cause : Nat) : (s.selectSource cause).kpa = s.kpa := (congrArg State.kpa (s.selectSource_eq cause) :)

theorem State.selectSource_regs (s : State) (cause : Nat) : RegsBut s (s.selectSource cause) sourceShown := RegsBut.selectSource cause (RegsBut.refl s _)

theorem State.chg_selectSource (s : State) (cause : Nat) : (s.selectSource cause).chg = s.chg := State.fld_of_rd (s.selectSource_regs cause _ (by decide)) 0 4

/-- What reads the registers of the charger's states is kept by an entry but for the flags 5 and 6. -/
theorem State.bit_stat_toCharge (s : State) (n : Nat) {i : Nat} (hi : 2 ≤ i) (h5 : i ≠ 13) (h6 : i ≠ 14) : (s.toCharge n).bit Reg.KPA_STAT i = s.bit Reg.KPA_STAT i := by
  by_cases h : s.chg = n
  · rw [State.toCharge_self h]
  · have hflags : (s.chargeShown n).bit Reg.KPA_STAT i = s.bit Reg.KPA_STAT i := by
      unfold State.chargeShown State.setKflag
      dsimp only
      have hset : ∀ b c, (((s.setFld Reg.KPA_CHGST 0 4 n).setBit Reg.KPA_STAT (8 + 6) b).setBit Reg.KPA_STAT (8 + 5) c).bit Reg.KPA_STAT i = s.bit Reg.KPA_STAT i := fun b c => by
        rw [State.bit_setBit_other _ _ (by decide) (Ne.symm h5), State.bit_setBit_other _ _ (by decide) (Ne.symm h6), State.bit_setFld_ne _ _ _ _ _ (by decide)]
      split
      · exact (State.bit_logKpa _ _ _ _ (by decide)).trans (hset _ _)
      · exact hset _ _
    rw [State.toCharge_of_ne h, State.bit_stat_selectSource _ _ hi]
    exact hflags

theorem State.bit_irq_toCharge (s : State) (n : Nat) {i : Nat} (hi : i ≠ 0) : (s.toCharge n).bit Reg.KPA_IRQ i = s.bit Reg.KPA_IRQ i := by
  by_cases h : s.chg = n
  · rw [State.toCharge_self h]
  · have hirq : (s.chargeShown n).bit Reg.KPA_IRQ i = s.bit Reg.KPA_IRQ i := by
      unfold State.chargeShown State.setKflag
      dsimp only
      have hset : ∀ b c, (((s.setFld Reg.KPA_CHGST 0 4 n).setBit Reg.KPA_STAT (8 + 6) b).setBit Reg.KPA_STAT (8 + 5) c).bit Reg.KPA_IRQ i = s.bit Reg.KPA_IRQ i := fun b c => by
        rw [State.bit_setBit_ne _ _ _ _ (by decide), State.bit_setBit_ne _ _ _ _ (by decide), State.bit_setFld_ne _ _ _ _ _ (by decide)]
      split
      · exact (State.bit_logKpa _ _ _ _ (by decide)).trans (hset _ _)
      · exact hset _ _
    rw [State.toCharge_of_ne h, State.bit_irq_selectSource _ _ hi]
    exact hirq

theorem State.kflag_toCharge_fault (s : State) {n : Nat} (h : s.chg ≠ n) : (s.toCharge n).kflag 6 = decide (n = cFault) := by
  have hfault : (s.chargeShown n).bit Reg.KPA_STAT 14 = decide (n = cFault) := by
    unfold State.chargeShown State.setKflag
    dsimp only
    have hset : ∀ c, (((s.setFld Reg.KPA_CHGST 0 4 n).setBit Reg.KPA_STAT (8 + 6) (decide (n = cFault))).setBit Reg.KPA_STAT (8 + 5) c).bit Reg.KPA_STAT 14 = decide (n = cFault) := fun c => by
      rw [State.bit_setBit_other _ _ (by decide) (by decide), State.bit_setBit_self _ _ (by decide)]
    split
    · exact (State.bit_logKpa _ _ _ _ (by decide)).trans (hset _)
    · exact hset _
  rw [State.kflag, State.toCharge_of_ne h, State.bit_stat_selectSource _ _ (by decide)]
  exact hfault

theorem State.toCharge_kpa (s : State) (n : Nat) : (s.toCharge n).kpa = { s.kpa with setMa := (s.toCharge n).kpa.setMa } := (congrArg State.kpa (s.toCharge_eq n) :)

theorem State.setMa_toCharge_off (s : State) (h : s.chg ≠ cOff) : (s.toCharge cOff).kpa.setMa = 0 := by
  have hin : (s.chargeShown cOff).chg = cOff := (State.fld_of_rd (s.chargeShown_regs cOff _ (by decide)) 0 4).trans (State.fld_setFld_self _ _ (by decide))
  have hma : (s.chargeShown cOff).chargeMa = 0 := by
    unfold State.chargeMa
    rw [hin]
    simp
  rw [State.toCharge_of_ne h, State.selectSource_kpa]
  exact hma

theorem State.logKpa_frame (s : State) (code : Nat) (args : List Byte) : chargerFrame s (s.logKpa code args) := by
  have heq := s.logKpa_eq code args
  exact ⟨(RegsBut.refl s _).logKpa code args (by decide), SameMem.of_mem (congrArg State.mem heq :), (congrArg State.nv heq :), (congrArg State.cam heq :), (congrArg State.power heq :)⟩

theorem State.selectSource_frame (s : State) (cause : Nat) : chargerFrame s (s.selectSource cause) := by
  have heq := s.selectSource_eq cause
  exact ⟨(s.selectSource_regs cause).mono (by decide), SameMem.of_mem (congrArg State.mem heq :), (congrArg State.nv heq :), (congrArg State.cam heq :), (congrArg State.power heq :)⟩

/-- A register that the charger shows itself in. -/
theorem State.setFld_frame (s : State) {a : Nat} (lo w v : Nat) (ha : a ∈ [Reg.KPA_MEAS2, Reg.KPA_MEAS3] ++ kpaShown) : chargerFrame s (s.setFld a lo w v) :=
  ⟨(RegsBut.refl s _).setFld lo w v ha, SameMem.of_mem rfl, rfl, rfl, rfl⟩

/-! Faults and removal (R141, R142, R418) -/

/-- A charge fault, before FAULT is entered. -/
def State.chargeFaultShown (s : State) (reason : Nat) : State :=
  (((s.setKpa { s.kpa with probe := false, ov := false, pause := 0 }).setFld Reg.KPA_CHGST 8 4 (kpaCode 0x703C (4 + reason))).setBit Reg.KPA_IRQ 4 true).setKflag 2 false

theorem State.chargeFaultShown_shows (s : State) (reason : Nat) : let t := s.chargeFaultShown reason
    t.chg = s.chg ∧ t.kflag 2 = false ∧ t.bit Reg.KPA_IRQ 4 = true ∧ t.kpa = { s.kpa with probe := false, ov := false, pause := 0 } ∧ chargerFrame s t := by
  refine ⟨?_, State.bit_setBit_self _ _ (by decide), ?_, rfl, ?_⟩
  · rw [State.chg, State.chargeFaultShown, State.setKflag, State.fld_setBit_ne _ _ _ _ _ (by decide), State.fld_setBit_ne _ _ _ _ _ (by decide), State.fld_setFld_other _ _ (by decide) (by decide)]
    rfl
  · rw [State.chargeFaultShown, State.setKflag, State.bit_setBit_ne _ _ _ _ (by decide), State.bit_setBit_self _ _ (by decide)]
  · exact chargerFrame.trans (chargerFrame.trans (chargerFrame.trans (s.setKpa_frame _) (State.setFld_frame _ _ _ _ (by decide))) (State.setFld_frame _ _ _ _ (by decide))) (State.setFld_frame _ _ _ _ (by decide))

theorem State.chargeFault_eq (s : State) (reason : Nat) : s.chargeFault reason = (((s.chargeFaultShown reason).toCharge cFault).logKpa 0x0609 (u8 reason)).selectSource 5 := rfl

theorem State.chargeFault_shows (s : State) (reason : Nat) : let t := s.chargeFault reason
    t.chg = cFault ∧ t.kflag 2 = false ∧ (s.chg ≠ cFault → t.kflag 6 = true) ∧ t.bit Reg.KPA_IRQ 4 = true ∧ t.kpa.present = s.kpa.present ∧ t.kpa.ov = false ∧ chargerFrame s t := by
  obtain ⟨hchg, hflag, hirq, hkpa, hframe⟩ := s.chargeFaultShown_shows reason
  rw [State.chargeFault_eq]
  dsimp only at hchg hflag hirq hkpa
  generalize s.chargeFaultShown reason = u at *
  have hto := State.toCharge_kpa u cFault
  have hentered : chargerFrame u (u.toCharge cFault) := u.toCharge_frame cFault
  have hin := u.chg_toCharge (n := cFault) (by decide)
  have husable := u.bit_stat_toCharge cFault (i := 10) (by decide) (by decide) (by decide)
  have hshown := u.bit_irq_toCharge cFault (i := 4) (by decide)
  have hsix : u.chg ≠ cFault → (u.toCharge cFault).kflag 6 = true := fun h => (u.kflag_toCharge_fault h).trans (by decide)
  generalize u.toCharge cFault = v at *
  refine ⟨?_, ?_, fun h => ?_, ?_, ?_, ?_, chargerFrame.trans (chargerFrame.trans (chargerFrame.trans hframe hentered) (v.logKpa_frame _ _)) (State.selectSource_frame _ _)⟩
  · rw [State.chg_selectSource, State.chg, State.fld_logKpa _ _ _ _ _ (by decide), ← State.chg, hin]
  · rw [State.kflag, State.bit_stat_selectSource _ _ (by decide), State.bit_logKpa _ _ _ _ (by decide)]
    exact husable.trans hflag
  · rw [State.kflag, State.bit_stat_selectSource _ _ (by decide), State.bit_logKpa _ _ _ _ (by decide)]
    exact hsix (by rwa [hchg])
  · rw [State.bit_irq_selectSource _ _ (by decide), State.bit_logKpa _ _ _ _ (by decide), hshown, hirq]
  · rw [State.selectSource_kpa, State.logKpa_eq]
    dsimp only
    rw [hto, hkpa]
  · rw [State.selectSource_kpa, State.logKpa_eq]
    dsimp only
    rw [hto, hkpa]

/-- The battery is gone, before MISSING is entered. -/
def State.batteryGone (s : State) : State :=
  (s.setKpa { s.kpa with present := false, probe := false, ov := false, pause := 0, soc := none, removed := s.kpa.removed || s.camlanOn }).setKflag 2 false

theorem State.batteryGone_shows (s : State) : let t := s.batteryGone
    t.kflag 2 = false ∧ t.kpa = { s.kpa with present := false, probe := false, ov := false, pause := 0, soc := none, removed := s.kpa.removed || s.camlanOn } ∧ chargerFrame s t :=
  ⟨State.bit_setBit_self _ _ (by decide), rfl, chargerFrame.trans (s.setKpa_frame _) (State.setFld_frame _ _ _ _ (by decide))⟩

theorem doKbatMissing_eq (s : State) : doKbatMissing s = (((s.batteryGone.toCharge cMissing).setBit Reg.KPA_IRQ 2 true).logKpa 0x0605 (u8 s.chg)).selectSource 3 := rfl

theorem doKbatMissing_shows (s : State) : let t := doKbatMissing s
    t.chg = cMissing ∧ t.kflag 2 = false ∧ t.kpa.present = false ∧ t.kpa.soc = none ∧ t.bit Reg.KPA_IRQ 2 = true ∧ chargerFrame s t := by
  obtain ⟨hflag, hkpa, hframe⟩ := s.batteryGone_shows
  rw [doKbatMissing_eq]
  generalize s.batteryGone = u at *
  have hto := State.toCharge_kpa u cMissing
  have hentered : chargerFrame u (u.toCharge cMissing) := u.toCharge_frame cMissing
  have hin := u.chg_toCharge (n := cMissing) (by decide)
  have husable := u.bit_stat_toCharge cMissing (i := 10) (by decide) (by decide) (by decide)
  generalize u.toCharge cMissing = v at *
  have hkept : (((v.setBit Reg.KPA_IRQ 2 true).logKpa 0x0605 (u8 s.chg)).selectSource 3).kpa = v.kpa := by
    rw [State.selectSource_kpa, State.logKpa_eq]
    rfl
  refine ⟨?_, ?_, ?_, ?_, ?_,
    chargerFrame.trans (chargerFrame.trans (chargerFrame.trans (chargerFrame.trans hframe hentered) (State.setFld_frame _ _ _ _ (by decide))) (State.logKpa_frame _ _ _)) (State.selectSource_frame _ _)⟩
  · rw [State.chg_selectSource, State.chg, State.fld_logKpa _ _ _ _ _ (by decide), State.fld_setBit_ne _ _ _ _ _ (by decide), ← State.chg, hin]
  · rw [State.kflag, State.bit_stat_selectSource _ _ (by decide), State.bit_logKpa _ _ _ _ (by decide), State.bit_setBit_ne _ _ _ _ (by decide)]
    exact husable.trans hflag
  · rw [hkept, hto, hkpa]
  · rw [hkept, hto, hkpa]
  · rw [State.bit_irq_selectSource _ _ (by decide), State.bit_logKpa _ _ _ _ (by decide), State.bit_setBit_self _ _ (by decide)]

/-! Phases (R143, R144) -/

/-- The levels of Table 6-3 and the zones of Table 6-5 stand through every event of the charger. -/
theorem State.levels_of {s t : State} (h : chargerFrame s t) : t.chem = s.chem ∧ t.kcells = s.kcells ∧ t.trickleMv = s.trickleMv ∧ t.preMv = s.preMv ∧ t.rechargeMv = s.rechargeMv
    ∧ (∀ z, t.zoneCvMv z = s.zoneCvMv z) ∧ ∀ z, t.zonePauses z = s.zonePauses z := by
  obtain ⟨hregs, -⟩ := h
  have h0 : t.rd Reg.KPA_CHG0 = s.rd Reg.KPA_CHG0 := hregs _ (by decide)
  have h1 : t.rd Reg.KPA_CHG1 = s.rd Reg.KPA_CHG1 := hregs _ (by decide)
  have hchem : t.chem = s.chem := State.fld_of_rd h0 0 2
  have hcells : t.kcells = s.kcells := State.fld_of_rd h0 4 4
  have hper (a b c : Nat) : t.perCell a b c = s.perCell a b c := by rw [State.perCell, State.perCell, hchem, hcells]
  have hcv : t.cvMv = s.cvMv := by rw [State.cvMv, State.cvMv, hcells, State.fld_of_rd h1]
  refine ⟨hchem, hcells, hper _ _ _, hper _ _ _, ?_, fun z => ?_, fun z => ?_⟩
  · rw [State.rechargeMv, State.rechargeMv, hchem, hcells, hcv, hper]
  · rw [State.zoneCvMv, State.zoneCvMv, hcv, hper, hper]
  · rw [State.zonePauses, State.zonePauses, hchem]

/-- The zone and the reason stand through an entry into a state. -/
theorem State.chgst_toCharge (s : State) (n : Nat) {lo w : Nat} (h : 4 ≤ lo) : (s.toCharge n).fld Reg.KPA_CHGST lo w = s.fld Reg.KPA_CHGST lo w := by
  by_cases hn : s.chg = n
  · rw [State.toCharge_self hn]
  · rw [State.fld_of_rd (State.rd_chgst_toCharge hn), State.fld_setFld_other _ _ (by decide) (Or.inl h)]

/-- A phase is entered where no zone and no voltage stops it. -/
theorem State.enterPhase_runs {s : State} {phase mv : Nat} (hpause : s.kpa.pause < 4) (hzone : s.zonePauses (s.fld Reg.KPA_CHGST 4 3) = false)
    (hcv : (phase = cCc ∨ phase = cCv) → s.chem = 3 ∨ mv ≤ s.zoneCvMv (s.fld Reg.KPA_CHGST 4 3)) : s.enterPhase phase mv = (s.setKpa { s.kpa with phase := phase, pause := 0 }).toCharge phase := by
  have hlow : (decide (s.chem ≠ 3) && (decide (phase = cCc) || decide (phase = cCv)) && decide (s.zoneCvMv (s.fld Reg.KPA_CHGST 4 3) < mv)) = false := by
    by_cases hphase : phase = cCc ∨ phase = cCv
    · obtain h | h := hcv hphase
      · simp [h]
      · simp [Nat.not_lt.mpr h]
    · rw [not_or] at hphase
      simp [hphase.1, hphase.2]
  have hnone : putField (putField s.kpa.pause 0 1 0) 1 1 0 = 0 := by
    unfold putField
    omega
  unfold State.enterPhase
  dsimp only
  rw [hlow, hzone, if_neg Bool.false_ne_true, hnone, if_pos rfl]

theorem State.enterPhase_shows {s : State} {phase mv : Nat} (hphase : phase < 16) (hpause : s.kpa.pause < 4) (hzone : s.zonePauses (s.fld Reg.KPA_CHGST 4 3) = false)
    (hcv : (phase = cCc ∨ phase = cCv) → s.chem = 3 ∨ mv ≤ s.zoneCvMv (s.fld Reg.KPA_CHGST 4 3)) : let t := s.enterPhase phase mv
    t.chg = phase ∧ t.kpa = { s.kpa with phase := phase, pause := 0, setMa := t.kpa.setMa } ∧ chargerFrame s t := by
  have hcase := State.enterPhase_runs hpause hzone hcv
  have hto := State.toCharge_kpa (s.setKpa { s.kpa with phase := phase, pause := 0 }) phase
  have hentered : chargerFrame (s.setKpa { s.kpa with phase := phase, pause := 0 }) ((s.setKpa { s.kpa with phase := phase, pause := 0 }).toCharge phase) := State.toCharge_frame _ phase
  have hin := (s.setKpa { s.kpa with phase := phase, pause := 0 }).chg_toCharge hphase
  rw [← hcase] at hto hentered hin
  exact ⟨hin, hto, chargerFrame.trans (s.setKpa_frame _) hentered⟩

/-- DETECT is entered anew. -/
def State.detecting (s : State) : State := (s.setKpa { s.kpa with chargeUs := 0, pause := 0, lost := false, ov := false }).toCharge cDetect

theorem State.detecting_shows (s : State) : let t := s.detecting
    t.kpa = { s.kpa with chargeUs := 0, pause := 0, lost := false, ov := false, setMa := t.kpa.setMa } ∧ t.fld Reg.KPA_CHGST 4 3 = s.fld Reg.KPA_CHGST 4 3 ∧ chargerFrame s t := by
  refine ⟨?_, ?_, ?_⟩
  · exact State.toCharge_kpa (s.setKpa { s.kpa with chargeUs := 0, pause := 0, lost := false, ov := false }) cDetect
  · exact State.chgst_toCharge _ _ (by decide)
  · exact chargerFrame.trans (s.setKpa_frame { s.kpa with chargeUs := 0, pause := 0, lost := false, ov := false }) (State.toCharge_frame _ cDetect)

theorem State.detect_eq (s : State) {mv : Nat} (h : 1000 ≤ mv) : s.detect mv =
    if mv < (s.detecting.setKpa { s.detecting.kpa with probe := false }).trickleMv then (s.detecting.setKpa { s.detecting.kpa with probe := false }).enterPhase cTrickle mv
    else if mv < (s.detecting.setKpa { s.detecting.kpa with probe := false }).preMv then (s.detecting.setKpa { s.detecting.kpa with probe := false }).enterPhase cPre mv
    else if mv < (s.detecting.setKpa { s.detecting.kpa with probe := false }).rechargeMv then (s.detecting.setKpa { s.detecting.kpa with probe := false }).enterPhase cCc mv
    else (s.detecting.setKpa { s.detecting.kpa with probe := false }).toCharge cDone := if_neg (Nat.not_lt.mpr h)

/-- DETECT ends in the phase of the battery's voltage. -/
theorem State.detect_phase {s : State} {mv phase : Nat} (hmv : 1000 ≤ mv) (hzone : s.zonePauses (s.fld Reg.KPA_CHGST 4 3) = false)
    (hphase : (phase = cTrickle ∧ mv < s.trickleMv) ∨ (phase = cCc ∧ s.trickleMv ≤ mv ∧ s.preMv ≤ mv ∧ mv < s.rechargeMv ∧ (s.chem = 3 ∨ mv ≤ s.zoneCvMv (s.fld Reg.KPA_CHGST 4 3)))) :
    let t := s.detect mv
    t.chg = phase ∧ t.kpa.present = s.kpa.present ∧ chargerFrame s t := by
  have hcase := s.detect_eq hmv
  obtain ⟨hkpa, hz, hframe⟩ := s.detecting_shows
  dsimp only at hkpa
  generalize s.detecting = d at *
  have hprobe : chargerFrame s (d.setKpa { d.kpa with probe := false }) := chargerFrame.trans hframe (d.setKpa_frame _)
  have hpause : (d.setKpa { d.kpa with probe := false }).kpa.pause < 4 := by
    rw [State.setKpa, hkpa]
    exact Nat.zero_lt_succ 3
  have hpresent : (d.setKpa { d.kpa with probe := false }).kpa.present = s.kpa.present := by
    rw [State.setKpa, hkpa]
  have hzone' : (d.setKpa { d.kpa with probe := false }).fld Reg.KPA_CHGST 4 3 = s.fld Reg.KPA_CHGST 4 3 := hz
  generalize d.setKpa { d.kpa with probe := false } = u at *
  obtain ⟨hchem, -, htrickle, hpre, hrecharge, hcv, hpauses⟩ := State.levels_of hprobe
  rw [htrickle, hpre, hrecharge] at hcase
  have hruns : ∀ phase, phase < 16 → ((phase = cCc ∨ phase = cCv) → s.chem = 3 ∨ mv ≤ s.zoneCvMv (s.fld Reg.KPA_CHGST 4 3)) → let t := u.enterPhase phase mv
      t.chg = phase ∧ t.kpa.present = s.kpa.present ∧ chargerFrame s t := fun phase hlt hcv' => by
    obtain ⟨hin, hk, hf⟩ := State.enterPhase_shows (s := u) (mv := mv) hlt hpause (by rw [hzone', hpauses, hzone]) (by rw [hchem, hzone', hcv]; exact hcv')
    exact ⟨hin, (congrArg KpaSt.present hk).trans hpresent, chargerFrame.trans hprobe hf⟩
  obtain ⟨rfl, hlt⟩ | ⟨rfl, ht, hp, hr, hlow⟩ := hphase
  · rw [if_pos hlt] at hcase
    rw [hcase]
    exact hruns cTrickle (by decide) (fun h => absurd h (by decide))
  · rw [if_neg (Nat.not_lt.mpr ht), if_neg (Nat.not_lt.mpr hp), if_pos hr] at hcase
    rw [hcase]
    exact hruns cCc (by decide) fun _ => hlow

/-! The end of a charge (R146, R147) -/

/-- A charge's end shows, before DONE is entered. -/
def State.doneShown (s : State) (reason : Nat) : State :=
  ((s.setKpa { s.kpa with probe := false, pause := 0, chargeUs := 0, soc := some 100 }).setFld Reg.KPA_CHGST 8 4 (kpaCode 0x703C reason)).setBit Reg.KPA_IRQ 3 true

theorem State.chargeDone_eq (s : State) (reason : Nat) : s.chargeDone reason =
    ((if (s.doneShown reason).camlanOn then (s.doneShown reason).tallyOp 0x60 else s.doneShown reason).toCharge cDone).logKpa 0x0608 (u8 reason) := rfl

theorem State.chargeDone_shows (s : State) (reason : Nat) : let t := s.chargeDone reason
    t.chg = cDone ∧ t.kpa.soc = some 100 ∧ t.bit Reg.KPA_IRQ 3 = true := by
  have hirq : (s.doneShown reason).bit Reg.KPA_IRQ 3 = true := State.bit_setBit_self _ _ (by decide)
  have hsoc : (s.doneShown reason).kpa.soc = some 100 := rfl
  rw [State.chargeDone_eq]
  generalize s.doneShown reason = d at *
  have htally : (if d.camlanOn then d.tallyOp 0x60 else d).bit Reg.KPA_IRQ 3 = true ∧ (if d.camlanOn then d.tallyOp 0x60 else d).kpa.soc = some 100 := by
    split
    · exact ⟨(State.bit_of_rd ((RegsBut.refl d (logRegs 0)).tallyOp 0x60 (fun _ => id) _ (by decide)) 3).trans hirq, (congrArg (fun t : State => t.kpa.soc) (d.tallyOp_eq 0x60)).trans hsoc⟩
    · exact ⟨hirq, hsoc⟩
  generalize (if d.camlanOn then d.tallyOp 0x60 else d) = u at *
  have hto := State.toCharge_kpa u cDone
  have hin := u.chg_toCharge (n := cDone) (by decide)
  have hshown := u.bit_irq_toCharge cDone (i := 3) (by decide)
  generalize u.toCharge cDone = v at *
  refine ⟨?_, ?_, ?_⟩
  · rw [State.chg, State.fld_logKpa _ _ _ _ _ (by decide), ← State.chg, hin]
  · rw [State.logKpa_eq]
    dsimp only
    rw [hto, htally.2]
  · rw [State.bit_logKpa _ _ _ _ (by decide), hshown, htally.1]

/-! Presence (R141) -/

theorem State.rd_setKpa (s : State) (k : KpaSt) (a : Nat) : (s.setKpa k).rd a = s.rd a := rfl

/-- A new battery is noted and logged with 0x0604. -/
def State.batteryNew (s : State) (args : List Byte) : State := ((s.setBit Reg.KPA_IRQ 1 true).setKpa { s.kpa with present := true, soc := none }).logKpa 0x0604 args

theorem State.batteryNew_shows (s : State) (args : List Byte) : let t := s.batteryNew args
    t.kpa = { s.kpa with present := true, soc := none } ∧ t.bit Reg.KPA_IRQ 1 = true ∧ (∀ a, Reg.KPA_IRQ ≠ a → a ∉ logRegs 0 → t.rd a = s.rd a) ∧ chargerFrame s t := by
  refine ⟨?_, ?_, fun a hirq hlog => ?_, chargerFrame.trans (chargerFrame.trans (State.setFld_frame _ _ _ _ (by decide)) (State.setKpa_frame _ _)) (State.logKpa_frame _ _ _)⟩
  · rw [State.batteryNew, State.logKpa_eq]
    rfl
  · rw [State.batteryNew, State.bit_logKpa _ _ _ _ (by decide), State.bit_of_rd (State.rd_setKpa _ _ _), State.bit_setBit_self _ _ (by decide)]
  · rw [State.batteryNew, State.rd_logKpa _ _ _ hlog, State.rd_setKpa, State.rd_setBit_ne _ _ _ hirq]

/-- The presence samples. -/
def State.presenceSampled (s : State) (kid mv : Nat) : State := (s.setFld Reg.KPA_MEAS3 16 16 kid).setFld Reg.KPA_MEAS2 0 16 mv

theorem State.presenceSampled_shows (s : State) (kid mv : Nat) : let t := s.presenceSampled kid mv
    t.fld Reg.KPA_MEAS3 16 16 = kid % 65536 ∧ t.kpa = s.kpa ∧ (∀ a, Reg.KPA_MEAS3 ≠ a → Reg.KPA_MEAS2 ≠ a → t.rd a = s.rd a) ∧ chargerFrame s t := by
  refine ⟨?_, rfl, fun a h3 h2 => (State.rd_setFld_ne _ _ _ _ h2).trans (State.rd_setFld_ne _ _ _ _ h3),
    chargerFrame.trans (State.setFld_frame _ _ _ _ (by decide)) (State.setFld_frame _ _ _ _ (by decide))⟩
  exact (State.fld_setFld_ne _ _ _ _ _ _ (by decide)).trans (State.fld_setFld_self _ _ (by decide))

/-- The presence samples, of a battery known or new. -/
def State.presenceShown (s : State) (kth kid mv : Nat) : State :=
  if s.kpa.present then s.presenceSampled kid mv else (s.presenceSampled kid mv).batteryNew (u16 kth ++ u32 (kid * 10))

theorem doKbatInserted_eq (s : State) (kth kid mv : Nat) : doKbatInserted s kth kid mv =
    if kthShorted kth then (if (s.presenceShown kth kid mv).chg = cFault then s.presenceShown kth kid mv else (s.presenceShown kth kid mv).chargeFault 3)
    else if s.kpa.present then s.presenceShown kth kid mv
    else if (s.presenceShown kth kid mv).mayCharge then (s.presenceShown kth kid mv).detect mv else (s.presenceShown kth kid mv).toCharge cOff := rfl

theorem State.presenceShown_shows (s : State) (kth kid mv : Nat) : let t := s.presenceShown kth kid mv
    t.chg = s.chg ∧ t.ksrc = s.ksrc ∧ t.fld Reg.KPA_CHGST 4 3 = s.fld Reg.KPA_CHGST 4 3 ∧ t.fld Reg.KPA_MEAS3 16 16 = kid % 65536 ∧ t.kpa.present = true
      ∧ (s.kpa.present = false → t.kpa = { s.kpa with present := true, soc := none } ∧ t.bit Reg.KPA_IRQ 1 = true) ∧ chargerFrame s t := by
  obtain ⟨hkid, hkpa, hrd, hsamples⟩ := s.presenceSampled_shows kid mv
  unfold State.presenceShown
  generalize s.presenceSampled kid mv = u at *
  have hchg : u.rd Reg.KPA_CHGST = s.rd Reg.KPA_CHGST := hrd _ (by decide) (by decide)
  have hstat : u.rd Reg.KPA_STAT = s.rd Reg.KPA_STAT := hrd _ (by decide) (by decide)
  cases hpresent : s.kpa.present with
  | true => exact ⟨State.fld_of_rd hchg 0 4, State.fld_of_rd hstat 0 2, State.fld_of_rd hchg 4 3, hkid, (congrArg KpaSt.present hkpa).trans hpresent, fun h => absurd h (by decide), hsamples⟩
  | false =>
    obtain ⟨hk, hirq, hnew, hframe⟩ := u.batteryNew_shows (u16 kth ++ u32 (kid * 10))
    dsimp only at hk
    rw [if_neg Bool.false_ne_true]
    generalize u.batteryNew (u16 kth ++ u32 (kid * 10)) = v at *
    rw [hkpa] at hk
    exact ⟨State.fld_of_rd ((hnew _ (by decide) (by decide)).trans hchg) 0 4, State.fld_of_rd ((hnew _ (by decide) (by decide)).trans hstat) 0 2,
      State.fld_of_rd ((hnew _ (by decide) (by decide)).trans hchg) 4 3, (State.fld_of_rd (hnew _ (by decide) (by decide)) 16 16).trans hkid, congrArg KpaSt.present hk, fun _ => ⟨hk, hirq⟩,
      chargerFrame.trans hsamples hframe⟩

theorem kbat_shorted {s : State} {kth : Nat} (kid mv : Nat) (hkth : kth < 1966) (hfault : s.chg ≠ cFault) :
    Does (.kbatInserted kth kid mv) s (fun t => t.chg = cFault ∧ t.kflag 2 = false ∧ t.kpa.present = true ∧ t.bit Reg.KPA_IRQ 4 = true ∧ chargerFrame s t) := by
  obtain ⟨hchg, -, -, -, hpresent, -, hframe⟩ := s.presenceShown_shows kth kid mv
  have hcase := doKbatInserted_eq s kth kid mv
  generalize s.presenceShown kth kid mv = u at *
  rw [if_pos (show kthShorted kth = true from decide_eq_true hkth), if_neg (by rw [hchg]; exact hfault)] at hcase
  obtain ⟨hin, hflag, -, hirq, hstill, -, hf⟩ := u.chargeFault_shows 3
  rw [← hcase] at hin hflag hirq hstill hf
  exact ⟨_, rfl, hin, hflag, hstill.trans hpresent, hirq, chargerFrame.trans hframe hf⟩

theorem kbat_new {s : State} {kth kid : Nat} (mv : Nat) (hkth : 1966 ≤ kth) (hkid : kid < 65536) (hpresent : s.kpa.present = false) (hoff : s.bit Reg.KPA_CTRL 0 = false) :
    Does (.kbatInserted kth kid mv) s (fun t => t.chg = cOff ∧ t.kpa = { s.kpa with present := true, soc := none, setMa := t.kpa.setMa } ∧ t.fld Reg.KPA_MEAS3 16 16 = kid ∧ t.bit Reg.KPA_IRQ 1 = true
      ∧ chargerFrame s t) := by
  obtain ⟨-, -, -, hmeas, -, hnew, hframe⟩ := s.presenceShown_shows kth kid mv
  obtain ⟨hkpa, hirq⟩ := hnew hpresent
  have hcase := doKbatInserted_eq s kth kid mv
  dsimp only at hmeas hkpa hirq
  generalize s.presenceShown kth kid mv = u at *
  have hidle : u.mayCharge = false := by
    rw [State.mayCharge, State.bit_of_rd (hframe.1 _ (by decide)), hoff]
    rfl
  rw [if_neg (by simpa [kthShorted] using hkth), if_neg (by rw [hpresent]; exact Bool.false_ne_true), if_neg (by rw [hidle]; exact Bool.false_ne_true)] at hcase
  have hto := State.toCharge_kpa u cOff
  have hentered : chargerFrame u (u.toCharge cOff) := u.toCharge_frame cOff
  have hin := u.chg_toCharge (n := cOff) (by decide)
  have hshown := u.bit_irq_toCharge cOff (i := 1) (by decide)
  have hmeas' : (u.toCharge cOff).fld Reg.KPA_MEAS3 16 16 = u.fld Reg.KPA_MEAS3 16 16 := congrArg (fun n => getField n 16 16) (u.rdN_toCharge cOff (by decide))
  rw [← hcase] at hto hentered hin hshown hmeas'
  refine ⟨_, rfl, hin, ?_, ?_, hshown.trans hirq, chargerFrame.trans hframe hentered⟩
  · rw [hkpa] at hto
    exact hto
  · rw [hmeas', hmeas]
    exact Nat.mod_eq_of_lt hkid

theorem kbat_charged {s : State} {kth mv : Nat} (kid : Nat) (hkth : 1966 ≤ kth) (hpresent : s.kpa.present = false) (hfree : s.kpa.supplement = false) (hon : s.bit Reg.KPA_CTRL 0 = true)
    (hchem : s.chem ≠ 0) (hsrc : s.ksrc = srcPack ∨ s.ksrc = srcKin) (hmv : 1000 ≤ mv) (htrickle : s.trickleMv ≤ mv) (hpre : s.preMv ≤ mv) (hrecharge : mv < s.rechargeMv) (hcharges : chargesAt s mv) :
    Does (.kbatInserted kth kid mv) s (fun t => t.chg = cCc ∧ t.kpa.present = true ∧ chargerFrame s t) := by
  obtain ⟨-, hksrc, hz, -, hp, hnew, hframe⟩ := s.presenceShown_shows kth kid mv
  obtain ⟨hkpa, -⟩ := hnew hpresent
  have hcase := doKbatInserted_eq s kth kid mv
  dsimp only at hksrc hz hp hkpa
  generalize s.presenceShown kth kid mv = u at *
  obtain ⟨hchem', -, ht', hp', hr', hcv', hz'⟩ := State.levels_of hframe
  have hmay : u.mayCharge = true := by
    rw [State.mayCharge, State.bit_of_rd (hframe.1 _ (by decide)), hon, hchem', hp, hkpa, hksrc]
    simp [hchem, hfree, hsrc]
  rw [if_neg (by simpa [kthShorted] using hkth), if_neg (by rw [hpresent]; exact Bool.false_ne_true), if_pos hmay] at hcase
  obtain ⟨hzone, hcv⟩ := hcharges
  obtain ⟨hin, hstill, hf⟩ := State.detect_phase (s := u) (phase := cCc) hmv (by rw [hz, hz', hzone])
    (Or.inr ⟨rfl, by rw [ht']; exact htrickle, by rw [hp']; exact hpre, by rw [hr']; exact hrecharge, by rw [hchem', hz, hcv']; exact hcv⟩)
  rw [← hcase] at hin hstill hf
  exact ⟨_, rfl, hin, hstill.trans hp, chargerFrame.trans hframe hf⟩

/-! Zones, overvoltage and the loss of the source (R143, R144, R148) -/

theorem State.zoneOf_le (s : State) (old : Nat) (t : Int) : s.zoneOf old t ≤ 5 := (List.length_filter_le _ _).trans_eq List.length_range

/-- The samples and the zone of a change of zone. -/
def State.zoneShown (s : State) (kth : Int) (mv zone : Nat) : State :=
  ((s.setFld Reg.KPA_MEAS3 0 16 (kth % 65536).toNat).setFld Reg.KPA_MEAS2 0 16 mv).setFld Reg.KPA_CHGST 4 3 zone

theorem State.zoneShown_shows (s : State) (kth : Int) (mv : Nat) {zone : Nat} (hzone : zone ≤ 5) : let t := s.zoneShown kth mv zone
    t.chg = s.chg ∧ t.fld Reg.KPA_CHGST 4 3 = zone ∧ t.kpa = s.kpa ∧ chargerFrame s t := by
  refine ⟨?_, ?_, rfl, chargerFrame.trans (chargerFrame.trans (State.setFld_frame _ _ _ _ (by decide)) (State.setFld_frame _ _ _ _ (by decide))) (State.setFld_frame _ _ _ _ (by decide))⟩
  · rw [State.chg, State.zoneShown, State.fld_setFld_other _ _ (by decide) (by decide), State.fld_setFld_ne _ _ _ _ _ _ (by decide), State.fld_setFld_ne _ _ _ _ _ _ (by decide), ← State.chg]
  · rw [State.zoneShown, State.fld_setFld_self _ _ (by decide)]
    exact Nat.mod_eq_of_lt (by omega)

theorem State.repause_eq {s : State} {p : Nat} (h : s.charging = true) (hp : p ≠ 0) : s.repause p = (s.setKpa { s.kpa with pause := p, phase := s.chg }).toCharge cPause := by
  simp [State.repause, h, hp]

theorem putField_zone_ne_zero (p b : Nat) : putField (putField p 0 1 1) 1 1 b ≠ 0 := fun h => by
  have hset := (getField_putField_below (lo := 1) (lo' := 0) (w' := 1) (putField p 0 1 1) 1 b (by decide)).trans (getField_putField_self p 0 1 1)
  rw [h] at hset
  exact absurd hset (by decide)

theorem doChargeZoneChange_pauses {s : State} {kth : Int} (mv : Nat) (hpauses : s.zonePauses (s.zoneOf (s.fld Reg.KPA_CHGST 4 3) kth) = true) :
    ∃ p, p ≠ 0 ∧ doChargeZoneChange s kth mv = ((s.zoneShown kth mv (s.zoneOf (s.fld Reg.KPA_CHGST 4 3) kth)).repause p).setCurrent := by
  obtain ⟨hchg, hzone, -, hframe⟩ := s.zoneShown_shows kth mv (s.zoneOf_le (s.fld Reg.KPA_CHGST 4 3) kth)
  obtain ⟨-, -, -, -, -, -, hz⟩ := State.levels_of hframe
  unfold doChargeZoneChange
  dsimp only
  rw [← State.zoneShown, hz, hpauses, if_pos rfl]
  exact ⟨_, putField_zone_ne_zero _ _, rfl⟩

theorem zone_pauses {s : State} {kth : Int} (mv : Nat) (hcharging : s.charging = true) (hpauses : s.zonePauses (s.zoneOf (s.fld Reg.KPA_CHGST 4 3) kth) = true) :
    Does (.chargeZoneChange kth mv) s (fun t => t.chg = cPause ∧ t.kpa.phase = s.chg ∧ t.fld Reg.KPA_CHGST 4 3 = s.zoneOf (s.fld Reg.KPA_CHGST 4 3) kth ∧ chargerFrame s t) := by
  obtain ⟨p, hp, hcase⟩ := doChargeZoneChange_pauses mv hpauses
  obtain ⟨hchg, hzone, -, hframe⟩ := s.zoneShown_shows kth mv (s.zoneOf_le (s.fld Reg.KPA_CHGST 4 3) kth)
  generalize s.zoneShown kth mv (s.zoneOf (s.fld Reg.KPA_CHGST 4 3) kth) = u at *
  have hstill : u.charging = true := by rw [State.charging, hchg, ← State.charging, hcharging]
  obtain ⟨hpaused, hphase, -, -, hf⟩ := State.repause_charging hstill hp
  have hz : (u.repause p).fld Reg.KPA_CHGST 4 3 = u.fld Reg.KPA_CHGST 4 3 := by
    rw [State.repause_eq hstill hp, State.chgst_toCharge _ _ (by decide)]
    rfl
  generalize u.repause p = v at *
  exact ⟨_, congrArg Host.Outcome.next hcase, hpaused, hphase.trans hchg, hz.trans hzone, chargerFrame.trans (chargerFrame.trans hframe hf) (v.setKpa_frame _)⟩

theorem overvoltage_stops {s : State} (hcharging : s.charging = true) : Does .chargeOvervoltage s (fun t => t.kflag 5 = false ∧ t.kpa = { s.kpa with ov := true, setMa := 0 } ∧ t.chg = s.chg
    ∧ RegsBut s t [Reg.KPA_STAT] ∧ SameMem s t) := by
  have hcase : doChargeOvervoltage s = ((s.setKpa { s.kpa with ov := true }).setKflag 5 false).setCurrent := if_pos hcharging
  have hma : ((s.setKpa { s.kpa with ov := true }).setKflag 5 false).chargeMa = 0 := by simp [State.chargeMa, State.setKpa, State.setKflag]
  rw [State.setCurrent, hma] at hcase
  refine ⟨_, congrArg Host.Outcome.next hcase, State.bit_setBit_self _ _ (by decide), rfl, ?_, ?_, SameMem.of_mem rfl⟩
  · exact State.fld_setBit_ne _ _ _ _ _ (by decide)
  · exact (RegsBut.refl s _).setBit _ _ List.mem_cons_self

theorem source_lost {s : State} (hcharging : s.charging = true) : Does .chargeSourceLost s (fun t => t.chg = cOff
    ∧ t.kpa = { s.kpa with lost := true, probe := false, pause := 0, setMa := 0 } ∧ chargerFrame s t) := by
  have hcase : doChargeSourceLost s = (s.setKpa { s.kpa with lost := true, probe := false, pause := 0 }).toCharge cOff := if_pos (Or.inl hcharging)
  have hne : s.chg ≠ cOff := fun h => by simp [State.charging, h] at hcharging
  have hframe := s.setKpa_frame { s.kpa with lost := true, probe := false, pause := 0 }
  have hchg : (s.setKpa { s.kpa with lost := true, probe := false, pause := 0 }).chg = s.chg := rfl
  have hk : (s.setKpa { s.kpa with lost := true, probe := false, pause := 0 }).kpa = { s.kpa with lost := true, probe := false, pause := 0 } := rfl
  generalize s.setKpa { s.kpa with lost := true, probe := false, pause := 0 } = u at *
  have hma : (u.toCharge cOff).kpa.setMa = 0 := u.setMa_toCharge_off (by rw [hchg]; exact hne)
  have hto := State.toCharge_kpa u cOff
  rw [hma, hk] at hto
  exact ⟨_, congrArg Host.Outcome.next hcase, u.chg_toCharge (by decide), hto, chargerFrame.trans hframe (u.toCharge_frame cOff)⟩

/-! The levels of a phase -/

/-- The sample of the battery's voltage. -/
theorem State.sampled_shows (s : State) (mv : Nat) : let t := s.setFld Reg.KPA_MEAS2 0 16 mv
    t.chg = s.chg ∧ t.fld Reg.KPA_CHGST 4 3 = s.fld Reg.KPA_CHGST 4 3 ∧ t.kpa = s.kpa ∧ chargerFrame s t :=
  ⟨State.fld_setFld_ne _ _ _ _ _ _ (by decide), State.fld_setFld_ne _ _ _ _ _ _ (by decide), rfl, State.setFld_frame _ _ _ _ (by decide)⟩

theorem probe_shorted {s : State} {mv : Nat} (hchg : s.chg = cDetect) (hprobe : s.kpa.probe = true) (hmv : mv < 1000) :
    Does (.kbatShortProbeEnd mv) s (fun t => t.chg = cFault ∧ t.kflag 6 = true ∧ chargerFrame s t) := by
  have hcase : doKbatShortProbeEnd s mv = ((s.setFld Reg.KPA_MEAS2 0 16 mv).logKpa 0x0606 (u16 mv)).chargeFault 4 := (if_pos ⟨hchg, hprobe⟩).trans (if_pos hmv)
  obtain ⟨hchg', -, -, hframe⟩ := s.sampled_shows mv
  have hlog := (s.setFld Reg.KPA_MEAS2 0 16 mv).logKpa_frame 0x0606 (u16 mv)
  have hstill : ((s.setFld Reg.KPA_MEAS2 0 16 mv).logKpa 0x0606 (u16 mv)).chg = cDetect := (State.fld_logKpa _ _ _ _ _ (by decide)).trans (hchg'.trans hchg)
  generalize (s.setFld Reg.KPA_MEAS2 0 16 mv).logKpa 0x0606 (u16 mv) = u at *
  obtain ⟨hin, -, hsix, -, -, -, hf⟩ := u.chargeFault_shows 4
  exact ⟨_, congrArg Host.Outcome.next hcase, hin, hsix (by rw [hstill]; decide), chargerFrame.trans (chargerFrame.trans hframe hlog) hf⟩

theorem probe_trickle {s : State} {mv : Nat} (hchg : s.chg = cDetect) (hprobe : s.kpa.probe = true) (hmv : 1000 ≤ mv) (htrickle : mv < s.trickleMv)
    (hzone : s.zonePauses (s.fld Reg.KPA_CHGST 4 3) = false) : Does (.kbatShortProbeEnd mv) s (fun t => t.chg = cTrickle ∧ chargerFrame s t) := by
  have hcase : doKbatShortProbeEnd s mv = (s.setFld Reg.KPA_MEAS2 0 16 mv).detect mv := (if_pos ⟨hchg, hprobe⟩).trans (if_neg (Nat.not_lt.mpr hmv))
  obtain ⟨-, hz, -, hframe⟩ := s.sampled_shows mv
  generalize s.setFld Reg.KPA_MEAS2 0 16 mv = u at *
  obtain ⟨-, -, ht, -, -, -, hz'⟩ := State.levels_of hframe
  obtain ⟨hin, -, hf⟩ := State.detect_phase (s := u) (phase := cTrickle) hmv (by rw [hz, hz', hzone]) (Or.inl ⟨rfl, by rw [ht]; exact htrickle⟩)
  exact ⟨_, congrArg Host.Outcome.next hcase, hin, chargerFrame.trans hframe hf⟩

theorem doChargePhaseLevel_eq (s : State) (mv : Nat) {u : State} (hu : s.setFld Reg.KPA_MEAS2 0 16 mv = u) : doChargePhaseLevel s mv =
    if u.chg = cTrickle ∧ u.trickleMv ≤ mv then u.enterPhase (if u.preMv ≤ mv then cCc else cPre) mv
    else if u.chg = cPre ∧ u.preMv ≤ mv then (u.setKpa { u.kpa with chargeUs := 0 }).enterPhase cCc mv
    else if u.chg = cCc ∧ u.chem = 3 ∧ 1600 * u.kcells ≤ mv then u.chargeFault 2
    else if u.chg = cCc ∧ u.chem ≠ 3 ∧ u.zoneCvMv (u.fld Reg.KPA_CHGST 4 3) ≤ mv then u.toCharge cCv
    else if u.chg = cPause ∧ getField u.kpa.pause 1 1 = 1 ∧ mv < u.zoneCvMv (u.fld Reg.KPA_CHGST 4 3) then u.repause (putField u.kpa.pause 1 1 0)
    else u := by
  subst hu
  rfl

theorem level_trickle {s : State} {mv : Nat} (hchg : s.chg = cTrickle) (htrickle : s.trickleMv ≤ mv) (hpre : mv < s.preMv) (hpause : s.kpa.pause < 4)
    (hzone : s.zonePauses (s.fld Reg.KPA_CHGST 4 3) = false) : Does (.chargePhaseLevel mv) s (fun t => t.chg = cPre ∧ chargerFrame s t) := by
  obtain ⟨hchg', hz, hk, hframe⟩ := s.sampled_shows mv
  generalize hu : s.setFld Reg.KPA_MEAS2 0 16 mv = u at *
  have hcase := doChargePhaseLevel_eq s mv hu
  obtain ⟨-, -, ht, hp, -, -, hz'⟩ := State.levels_of hframe
  rw [if_pos ⟨hchg'.trans hchg, by rw [ht]; exact htrickle⟩, if_neg (by rw [hp]; exact Nat.not_le.mpr hpre)] at hcase
  obtain ⟨hin, -, hf⟩ := State.enterPhase_shows (s := u) (phase := cPre) (mv := mv) (by decide) (by rw [hk]; exact hpause) (by rw [hz, hz', hzone]) (fun h => absurd h (by decide))
  exact ⟨_, congrArg Host.Outcome.next hcase, hin, chargerFrame.trans hframe hf⟩

theorem level_pre {s : State} {mv : Nat} (hchg : s.chg = cPre) (hpre : s.preMv ≤ mv) (hpause : s.kpa.pause < 4) (hcharges : chargesAt s mv) :
    Does (.chargePhaseLevel mv) s (fun t => t.chg = cCc ∧ t.kpa.chargeUs = 0 ∧ chargerFrame s t) := by
  obtain ⟨hchg', hz, hk, hframe⟩ := s.sampled_shows mv
  generalize hu : s.setFld Reg.KPA_MEAS2 0 16 mv = u at *
  have hcase := doChargePhaseLevel_eq s mv hu
  obtain ⟨-, -, -, hp, -, -, -⟩ := State.levels_of hframe
  rw [if_neg (fun h => absurd (h.1.symm.trans (hchg'.trans hchg)) (by decide)), if_pos ⟨hchg'.trans hchg, by rw [hp]; exact hpre⟩] at hcase
  have hreset : chargerFrame s (u.setKpa { u.kpa with chargeUs := 0 }) := chargerFrame.trans hframe (u.setKpa_frame _)
  have hz0 : (u.setKpa { u.kpa with chargeUs := 0 }).fld Reg.KPA_CHGST 4 3 = s.fld Reg.KPA_CHGST 4 3 := hz
  have hus : (u.setKpa { u.kpa with chargeUs := 0 }).kpa.chargeUs = 0 := rfl
  have hpause' : (u.setKpa { u.kpa with chargeUs := 0 }).kpa.pause < 4 := (congrArg KpaSt.pause hk).trans_lt hpause
  generalize u.setKpa { u.kpa with chargeUs := 0 } = v at *
  obtain ⟨hchem, -, -, -, -, hcv', hz'⟩ := State.levels_of hreset
  obtain ⟨hzone, hcv⟩ := hcharges
  obtain ⟨hin, hkpa, hf⟩ := State.enterPhase_shows (s := v) (phase := cCc) (mv := mv) (by decide) hpause' (by rw [hz0, hz', hzone]) (fun _ => by rw [hchem, hz0, hcv']; exact hcv)
  exact ⟨_, congrArg Host.Outcome.next hcase, hin, (congrArg KpaSt.chargeUs hkpa).trans hus, chargerFrame.trans hreset hf⟩

theorem level_cv {s : State} {mv : Nat} (hchg : s.chg = cCc) (hchem : s.chem ≠ 3) (hcv : s.zoneCvMv (s.fld Reg.KPA_CHGST 4 3) ≤ mv) :
    Does (.chargePhaseLevel mv) s (fun t => t.chg = cCv ∧ chargerFrame s t) := by
  obtain ⟨hchg', hz, -, hframe⟩ := s.sampled_shows mv
  generalize hu : s.setFld Reg.KPA_MEAS2 0 16 mv = u at *
  have hcase := doChargePhaseLevel_eq s mv hu
  obtain ⟨hch, -, -, -, -, hcv', -⟩ := State.levels_of hframe
  rw [if_neg (fun h => absurd (h.1.symm.trans (hchg'.trans hchg)) (by decide)), if_neg (fun h => absurd (h.1.symm.trans (hchg'.trans hchg)) (by decide)),
    if_neg (fun h => hchem (hch.symm.trans h.2.1)), if_pos ⟨hchg'.trans hchg, by rw [hch]; exact hchem, by rw [hz, hcv']; exact hcv⟩] at hcase
  exact ⟨_, congrArg Host.Outcome.next hcase, u.chg_toCharge (by decide), chargerFrame.trans hframe (u.toCharge_frame cCv)⟩

theorem level_nimh {s : State} {mv : Nat} (hchg : s.chg = cCc) (hchem : s.chem = 3) (hmax : 1600 * s.kcells ≤ mv) :
    Does (.chargePhaseLevel mv) s (fun t => t.chg = cFault ∧ chargerFrame s t) := by
  obtain ⟨hchg', -, -, hframe⟩ := s.sampled_shows mv
  generalize hu : s.setFld Reg.KPA_MEAS2 0 16 mv = u at *
  have hcase := doChargePhaseLevel_eq s mv hu
  obtain ⟨hch, hcells, -⟩ := State.levels_of hframe
  rw [if_neg (fun h => absurd (h.1.symm.trans (hchg'.trans hchg)) (by decide)), if_neg (fun h => absurd (h.1.symm.trans (hchg'.trans hchg)) (by decide)),
    if_pos ⟨hchg'.trans hchg, hch.trans hchem, by rw [hcells]; exact hmax⟩] at hcase
  obtain ⟨hin, -, -, -, -, -, hf⟩ := u.chargeFault_shows 2
  exact ⟨_, congrArg Host.Outcome.next hcase, hin, chargerFrame.trans hframe hf⟩

/-- A charge that ends in DONE. -/
theorem Does.done {c : Instr} {s : State} {reason : Nat} (h : exec c s = .next (s.chargeDone reason)) : Does c s (fun t => t.chg = cDone ∧ t.kpa.soc = some 100 ∧ t.bit Reg.KPA_IRQ 3 = true) :=
  ⟨_, h, s.chargeDone_shows reason⟩

theorem Does.ended {c : Instr} {s : State} {reason : Nat} (h : exec c s = .next (s.chargeDone reason)) : Does c s (fun t => t.chg = cDone ∧ t.kpa.soc = some 100) := by
  obtain ⟨hin, hsoc, -⟩ := s.chargeDone_shows reason
  exact ⟨_, h, hin, hsoc⟩

/-- Settles O27: each event leads from its state to the one of Table 6-4, by the entry into a state, the phase of DETECT, a fault, an end or a pause. -/
theorem chargerStates : Obligations.ChargerStates := by
  unfold Obligations.ChargerStates
  refine ⟨fun s n hn => ⟨s.chg_toCharge (by omega), fun h => s.kflag_toCharge_fault h⟩, fun s kth kid mv hkth hfault => kbat_shorted kid mv hkth hfault,
    fun s kth kid mv hkth hkid hpresent hoff => kbat_new mv hkth hkid hpresent hoff,
    fun s kth kid mv hkth hpresent hfree hon hchem hsrc hmv htrickle hpre hrecharge hcharges => kbat_charged kid hkth hpresent hfree hon hchem hsrc hmv htrickle hpre hrecharge hcharges,
    fun s => ⟨_, rfl, doKbatMissing_shows s⟩, fun s mv hchg hprobe hmv => ?_, fun s mv hchg hprobe hmv htrickle hzone => ?_, fun s mv hchg htrickle hpre hpause hzone => ?_,
    fun s mv hchg hpre hpause hcharges => ?_, fun s mv hchg hchem hcv => ?_, fun s mv hchg hchem hmax => ?_, fun s hcharging => ?_, fun s hchg hauto => ?_, fun s hchg hchem => ⟨?_, fun hauto => ?_⟩,
    fun s kth mv hcharging hpauses => zone_pauses mv hcharging hpauses, fun s hcharging => overvoltage_stops hcharging, fun s hov => ⟨?_, ?_⟩,
    fun s hchg hauto hmay => ?_, fun s hcharging => source_lost hcharging, fun s hawake hcharging => ?_, fun s hawake hmay hchg => ?_, fun s hawake hmay hchg => ?_, fun s hawake hmay hchg => ?_⟩
  · exact probe_shorted hchg hprobe hmv
  · exact probe_trickle hchg hprobe hmv htrickle hzone
  · exact level_trickle hchg htrickle hpre hpause hzone
  · exact level_pre hchg hpre hpause hcharges
  · exact level_cv hchg hchem hcv
  · exact level_nimh hchg hchem hmax
  · obtain ⟨hin, hflag, -, -, -, -, hframe⟩ := s.chargeFault_shows 1
    exact ⟨_, congrArg Host.Outcome.next (if_pos hcharging), hin, hflag, hframe⟩
  · exact Does.done (congrArg Host.Outcome.next (if_pos ⟨hchg, by simp [hauto]⟩))
  · exact Does.ended (reason := 3) (congrArg Host.Outcome.next (if_pos ⟨hchg, hchem⟩))
  · exact Does.ended (reason := 2) (congrArg Host.Outcome.next (if_pos ⟨hchg, hchem, by simp [hauto]⟩))
  · obtain ⟨hin, -, -, -, -, hcleared, hframe⟩ := s.chargeFault_shows 2
    exact ⟨_, congrArg Host.Outcome.next ((if_pos hov).trans (if_pos rfl)), hin, hcleared, hframe⟩
  · obtain ⟨hin, -, hgone, -, -, hframe⟩ := doKbatMissing_shows s
    exact ⟨_, congrArg Host.Outcome.next ((if_pos hov).trans (if_neg Bool.false_ne_true)), hin, hgone, hframe⟩
  · exact congrArg Host.Outcome.next (if_pos ⟨hchg, by simp [hauto], hmay⟩)
  · exact Does.ended (reason := 4) (congrArg Host.Outcome.next ((State.byRequester_awake _ hawake).trans (if_pos (Or.inl hcharging))))
  · exact congrArg Host.Outcome.next ((State.byRequester_awake _ hawake).trans (if_pos ⟨hmay, hchg⟩))
  · exact congrArg Host.Outcome.next ((State.byRequester_awake _ hawake).trans ((if_pos hchg).trans (if_pos hmay)))
  · refine ⟨_, congrArg Host.Outcome.next ((State.byRequester_awake _ hawake).trans ((if_pos hchg).trans (if_neg (by rw [hmay]; exact Bool.false_ne_true)))), s.chg_toCharge (by decide),
      s.kflag_toCharge_fault (by rw [hchg]; decide), s.toCharge_frame cOff⟩

end Sys2Proof.Machine
end

section
/-!
PROOFS. Selection of the keep-alive source, tracking of KIN and a black start (R131 to R139). It settles O26.
-/

namespace Sys2Proof.Machine

/-! The selection (R131) -/

theorem State.bestSource_lt (s : State) : s.bestSource < 4 := by
  unfold State.bestSource
  split
  · decide
  · split
    · decide
    · split <;> decide

theorem State.ksrc_selectSource (s : State) (cause : Nat) : (s.selectSource cause).ksrc = s.bestSource := by
  unfold State.selectSource
  dsimp only
  split
  case isTrue h => exact h
  case isFalse =>
    rw [State.ksrc, State.fld_logKpa _ _ _ _ _ (by decide), State.fld_setBit_ne _ _ _ _ _ (by decide), State.fld_setFld_self _ _ (by decide)]
    exact Nat.mod_eq_of_lt s.bestSource_lt

theorem State.bestSource_pack {s : State} (h : s.kflag 0 = true) : s.bestSource = srcPack := if_pos h

theorem State.bestSource_kin {s : State} (hpack : s.kflag 0 = false) (hkin : s.kflag 1 = true) (hheld : s.bit Reg.KPA_CTRL 3 = false) : s.bestSource = srcKin := by
  unfold State.bestSource
  rw [if_neg (by simp [hpack]), if_pos (by simp [hkin, hheld])]

theorem State.bestSource_kbat {s : State} (hpack : s.kflag 0 = false) (hkin : s.kflag 1 = false) (hkbat : s.kflag 2 = true) (hidle : s.charging = false) : s.bestSource = srcKbat := by
  unfold State.bestSource
  rw [if_neg (by simp [hpack]), if_neg (by simp [hkin]), if_pos (by simp [hkbat, hidle])]

theorem State.bestSource_ne_kin {s : State} (hkin : s.kflag 1 = false) : s.bestSource ≠ srcKin := by
  unfold State.bestSource
  rw [hkin]
  split
  · decide
  · split
    · next h => exact absurd h (by simp)
    · split <;> decide

theorem State.bestSource_ne_kbat {s : State} (hkbat : s.kflag 2 = false) : s.bestSource ≠ srcKbat := by
  unfold State.bestSource
  rw [hkbat]
  split
  · decide
  · split
    · decide
    · split
      · next h => exact absurd h (by simp)
      · decide

/-! Flags of KPA.STAT -/

theorem State.kflag_setKflag_self (s : State) {b : Nat} (v : Bool) (hb : b < 8) : (s.setKflag b v).kflag b = v := State.bit_setBit_self s v (by omega)

theorem State.kflag_setKflag_other (s : State) {b c : Nat} (v : Bool) (hb : b < 8) (h : b ≠ c) : (s.setKflag b v).kflag c = s.kflag c := State.bit_setBit_other s v (by omega) (by omega)

theorem State.rd_setKflag (s : State) (b : Nat) (v : Bool) {a : Nat} (h : Reg.KPA_STAT ≠ a) : (s.setKflag b v).rd a = s.rd a := State.rd_setBit_ne s _ v h

theorem State.chg_setKflag (s : State) (b : Nat) (v : Bool) : (s.setKflag b v).chg = s.chg := State.fld_of_rd (s.rd_setKflag b v (by decide)) 0 4

theorem State.ksrc_setKflag (s : State) {b : Nat} (v : Bool) (hb : b < 8) : (s.setKflag b v).ksrc = s.ksrc := State.fld_setBit_other s v (by omega) (by omega)

theorem State.charging_of_chg {s t : State} (h : t.chg = s.chg) : t.charging = s.charging := by rw [State.charging, State.charging, h]

theorem State.setKflag_regs (s : State) (b : Nat) (v : Bool) : RegsBut s (s.setKflag b v) kpaShown := (RegsBut.refl s _).setBit _ _ (by decide)

theorem State.selectSource_shown (s : State) (cause : Nat) : RegsBut s (s.selectSource cause) kpaShown := (s.selectSource_regs cause).mono (by decide)

theorem State.selectSource_mem (s : State) (cause : Nat) : (s.selectSource cause).mem = s.mem := (congrArg State.mem (s.selectSource_eq cause) :)

theorem State.kflag_selectSource (s : State) (cause b : Nat) : (s.selectSource cause).kflag b = s.kflag b := s.bit_stat_selectSource cause (by omega)

/-! What the charger leaves of the sources -/

/-- The source that stands whatever the charger does: PACKAUX, or KIN where nothing is before it. -/
def State.sourceFixed (s : State) (k : Nat) : Prop :=
  s.ksrc = k ∧ (k = srcPack ∧ s.kflag 0 = true ∨ k = srcKin ∧ s.kflag 0 = false ∧ s.kflag 1 = true ∧ s.bit Reg.KPA_CTRL 3 = false)

/-- What an event of the charger keeps of the sources. -/
structure SourceKept (s t : State) : Prop where
  regs : RegsBut s t kpaShown
  mem : t.mem = s.mem
  flags : ∀ i, 2 ≤ i → i ≠ 13 → i ≠ 14 → t.bit Reg.KPA_STAT i = s.bit Reg.KPA_STAT i
  supplement : t.kpa.supplement = s.kpa.supplement
  fixed : ∀ k, s.sourceFixed k → t.sourceFixed k

theorem SourceKept.refl (s : State) : SourceKept s s := ⟨RegsBut.refl s _, rfl, fun _ _ _ _ => rfl, rfl, fun _ h => h⟩

theorem SourceKept.trans {s t u : State} (h : SourceKept s t) (k : SourceKept t u) : SourceKept s u :=
  ⟨h.regs.trans k.regs, k.mem.trans h.mem, fun i hi h5 h6 => (k.flags i hi h5 h6).trans (h.flags i hi h5 h6), k.supplement.trans h.supplement, fun n hn => k.fixed n (h.fixed n hn)⟩

theorem SourceKept.setKpa {s t : State} (h : SourceKept s t) {k : KpaSt} (hk : k.supplement = t.kpa.supplement) : SourceKept s (t.setKpa k) :=
  h.trans ⟨RegsBut.of_regs rfl, rfl, fun _ _ _ _ => rfl, hk, fun _ h => h⟩

theorem State.toCharge_kept_sources (s : State) (n : Nat) : SourceKept s (s.toCharge n) := by
  have hflags (i : Nat) (hi : 2 ≤ i) (h5 : i ≠ 13) (h6 : i ≠ 14) := s.bit_stat_toCharge n hi h5 h6
  have hkpa := congrArg KpaSt.supplement (s.toCharge_kpa n)
  have hmem : (s.toCharge n).mem = s.mem := (congrArg State.mem (s.toCharge_eq n) :)
  by_cases h : s.chg = n
  · rw [State.toCharge_self h]
    exact SourceKept.refl s
  · have hregs : RegsBut s (s.toCharge n) kpaShown := ((RegsBut.refl s kpaShown).setFld _ _ _ (by decide)).trans ((State.toCharge_regs h).mono (by decide))
    have hctrl := State.bit_of_rd (hregs Reg.KPA_CTRL (by decide)) 3
    rw [State.toCharge_of_ne h] at hflags hkpa hmem hregs hctrl ⊢
    generalize (s.chargeShown n).setCurrent = u at *
    have hflag (b : Nat) (hb : b < 5) : (u.selectSource 5).kflag b = s.kflag b := hflags (8 + b) (by omega) (by omega) (by omega)
    have hu (b : Nat) (hb : b < 5) : u.kflag b = s.kflag b := (u.kflag_selectSource 5 b).symm.trans (hflag b hb)
    have huctrl : u.bit Reg.KPA_CTRL 3 = s.bit Reg.KPA_CTRL 3 := (State.bit_of_rd (u.selectSource_regs 5 Reg.KPA_CTRL (by decide)) 3).symm.trans hctrl
    refine ⟨hregs, hmem, hflags, hkpa, fun k ⟨_, hk⟩ => ⟨?_, ?_⟩⟩
    · rw [State.ksrc_selectSource]
      obtain ⟨rfl, hpack⟩ | ⟨rfl, hpack, hkin, hheld⟩ := hk
      · exact State.bestSource_pack ((hu 0 (by decide)).trans hpack)
      · exact State.bestSource_kin ((hu 0 (by decide)).trans hpack) ((hu 1 (by decide)).trans hkin) (huctrl.trans hheld)
    · rw [hflag 0 (by decide), hflag 1 (by decide), hctrl]
      exact hk

theorem SourceKept.toCharge {s t : State} (h : SourceKept s t) (n : Nat) : SourceKept s (t.toCharge n) := h.trans (t.toCharge_kept_sources n)

theorem SourceKept.setCurrent {s t : State} (h : SourceKept s t) : SourceKept s t.setCurrent := h.setKpa rfl

theorem SourceKept.enterPhase {s t : State} (h : SourceKept s t) (phase mv : Nat) : SourceKept s (t.enterPhase phase mv) := by
  unfold State.enterPhase
  dsimp only
  generalize putField _ 1 1 _ = p
  exact (h.setKpa (k := { t.kpa with phase := phase, pause := p }) rfl).toCharge _

theorem SourceKept.detect {s t : State} (h : SourceKept s t) (mv : Nat) : SourceKept s (t.detect mv) := by
  have hd : SourceKept s ((t.setKpa { t.kpa with chargeUs := 0, pause := 0, lost := false, ov := false }).toCharge cDetect) :=
    (h.setKpa (k := { t.kpa with chargeUs := 0, pause := 0, lost := false, ov := false }) rfl).toCharge cDetect
  unfold State.detect
  dsimp only
  generalize (t.setKpa { t.kpa with chargeUs := 0, pause := 0, lost := false, ov := false }).toCharge cDetect = d at *
  split
  · exact (hd.setKpa (k := { d.kpa with probe := true }) rfl).setCurrent
  · have hp : SourceKept s (d.setKpa { d.kpa with probe := false }) := hd.setKpa (k := { d.kpa with probe := false }) rfl
    generalize d.setKpa { d.kpa with probe := false } = p at *
    split
    · exact hp.enterPhase _ _
    · split
      · exact hp.enterPhase _ _
      · split
        · exact hp.enterPhase _ _
        · exact hp.toCharge _

theorem State.chargeFromOff_kept_sources (s : State) : SourceKept s s.chargeFromOff := by
  unfold State.chargeFromOff
  split
  · exact (SourceKept.refl s).detect _
  · exact SourceKept.refl s

theorem State.chargeFromOff_running {s : State} (h : s.chg ≠ cOff) : s.chargeFromOff = s := if_neg fun hoff => h hoff.1

/-! A source qualifies (R131, R139) -/

theorem doSourceQualify_refused {s : State} {src : KSource} {mv : Nat} (h : s.qualifies src mv = false) : doSourceQualify s src mv = s := if_pos (by rw [h]; rfl)

theorem doSourceQualify_eq {s : State} {src : KSource} {mv : Nat} (h : s.qualifies src mv = true) :
    (src = .packaux → doSourceQualify s src mv = (((s.setKflag 0 true).selectSource 1).endBlack).chargeFromOff)
      ∧ (src = .kin → doSourceQualify s src mv = ((s.setKflag 1 true).selectSource 2).chargeFromOff)
      ∧ (src = .kbat → doSourceQualify s src mv = ((s.setKflag 2 true).selectSource 3).endBlack) := by
  refine ⟨fun hs => ?_, fun hs => ?_, fun hs => ?_⟩ <;> subst hs <;> exact if_neg (by rw [h]; decide)

/-- A flag set or cleared and the selection that follows. -/
theorem State.flagSelected_shows (s : State) {b : Nat} (v : Bool) (cause : Nat) (hb : b < 8) : let t := (s.setKflag b v).selectSource cause
    t.kflag b = v ∧ (∀ c, b ≠ c → t.kflag c = s.kflag c) ∧ t.ksrc = (s.setKflag b v).bestSource ∧ t.chg = s.chg ∧ t.kpa = s.kpa ∧ t.mem = s.mem ∧ RegsBut s t sourceShown := by
  refine ⟨?_, fun c hc => ?_, State.ksrc_selectSource _ _, ?_, (State.selectSource_kpa _ _).trans (State.setBit_kpa ..), (State.selectSource_mem _ _).trans (State.setBit_mem ..), ?_⟩
  · rw [State.kflag_selectSource, State.kflag_setKflag_self _ _ hb]
  · rw [State.kflag_selectSource, State.kflag_setKflag_other _ _ hb hc]
  · rw [State.chg_selectSource, State.chg_setKflag]
  · exact ((RegsBut.refl s _).setBit _ _ (by decide)).trans (State.selectSource_regs _ _)

theorem qualify_pack {s : State} {mv : Nat} (h : s.qualifies .packaux mv = true) :
    Does (.sourceQualify .packaux mv) s (fun t => t.kflag 0 = true ∧ t.ksrc = srcPack ∧ t.bit Reg.KPA_STAT 16 = false ∧ RegsBut s t kpaShown ∧ SameMem s t ∧ (s.chg ≠ cOff → t.kpa = s.kpa)) := by
  have hcase := (doSourceQualify_eq h).1 rfl
  obtain ⟨hflag, -, hsrc, hchg, hkpa, hmem, hregs⟩ := s.flagSelected_shows (b := 0) true 1 (by decide)
  rw [State.bestSource_pack (State.kflag_setKflag_self s true (by decide))] at hsrc
  generalize (s.setKflag 0 true).selectSource 1 = u at *
  have hflag' : u.endBlack.kflag 0 = true := (State.bit_setBit_other u false (by decide) (by decide)).trans hflag
  have hsrc' : u.endBlack.ksrc = srcPack := (State.fld_setBit_other u false (by decide) (by decide)).trans hsrc
  have hblack : u.endBlack.bit Reg.KPA_STAT 16 = false := State.bit_setBit_self u false (by decide)
  have hchg' : u.endBlack.chg = s.chg := (State.fld_setBit_ne u _ _ _ _ (by decide)).trans hchg
  have hkpa' : u.endBlack.kpa = s.kpa := hkpa
  have hmem' : u.endBlack.mem = s.mem := hmem
  have hregs' : RegsBut s u.endBlack kpaShown := (hregs.mono (by decide)).setBit _ _ (by decide)
  generalize u.endBlack = v at *
  have hkept := v.chargeFromOff_kept_sources
  obtain ⟨hsrc'', -⟩ := hkept.fixed srcPack ⟨hsrc', Or.inl ⟨rfl, hflag'⟩⟩
  refine ⟨_, congrArg Host.Outcome.next hcase, (hkept.flags 8 (by decide) (by decide) (by decide)).trans hflag', hsrc'', (hkept.flags 16 (by decide) (by decide) (by decide)).trans hblack,
    hregs'.trans hkept.regs, SameMem.of_mem (hkept.mem.trans hmem'), fun hrun => ?_⟩
  rw [State.chargeFromOff_running (by rw [hchg']; exact hrun), hkpa']

theorem State.qualifies_kin {s : State} {mv : Nat} (h : s.qualifies .kin mv = true) : s.bit Reg.KPA_CTRL 3 = false ∧ (s.kflag 0 = true ∨ s.kflag 2 = true) := by
  have hq : (decide (9000 ≤ mv) && decide (mv < 62000) && !s.bit Reg.KPA_CTRL 3 && (s.kflag 0 || s.kflag 2)) = true := h
  simp only [Bool.and_eq_true, Bool.or_eq_true, Bool.not_eq_true'] at hq
  exact ⟨hq.1.2, hq.2⟩

theorem qualify_kin {s : State} {mv : Nat} (h : s.qualifies .kin mv = true) :
    Does (.sourceQualify .kin mv) s (fun t => t.kflag 1 = true ∧ (s.kflag 0 = false → t.ksrc = srcKin) ∧ RegsBut s t kpaShown ∧ SameMem s t ∧ (s.chg ≠ cOff → t.kpa = s.kpa)) := by
  have hcase := (doSourceQualify_eq h).2.1 rfl
  obtain ⟨hheld, -⟩ := State.qualifies_kin h
  obtain ⟨hflag, hflags, hsrc, hchg, hkpa, hmem, hregs⟩ := s.flagSelected_shows (b := 1) true 2 (by decide)
  have hbest : s.kflag 0 = false → (s.setKflag 1 true).bestSource = srcKin := fun hpack =>
    State.bestSource_kin ((State.kflag_setKflag_other s true (by decide) (by decide)).trans hpack) (State.kflag_setKflag_self s true (by decide))
      ((State.bit_of_rd (s.rd_setKflag 1 true (by decide)) 3).trans hheld)
  generalize (s.setKflag 1 true).selectSource 2 = u at *
  have hkept := u.chargeFromOff_kept_sources
  have hctrl : u.bit Reg.KPA_CTRL 3 = false := (State.bit_of_rd (hregs _ (by decide)) 3).trans hheld
  refine ⟨_, congrArg Host.Outcome.next hcase, (hkept.flags 9 (by decide) (by decide) (by decide)).trans hflag, fun hpack => ?_, (hregs.mono (by decide)).trans hkept.regs,
    SameMem.of_mem (hkept.mem.trans hmem), fun hrun => ?_⟩
  · obtain ⟨hfixed, -⟩ := hkept.fixed srcKin ⟨hsrc.trans (hbest hpack), Or.inr ⟨rfl, (hflags 0 (by decide)).trans hpack, hflag, hctrl⟩⟩
    exact hfixed
  · rw [State.chargeFromOff_running (by rw [hchg]; exact hrun), hkpa]

theorem qualify_kbat {s : State} {mv : Nat} (h : s.qualifies .kbat mv = true) :
    Does (.sourceQualify .kbat mv) s (fun t => t.kflag 2 = true ∧ t.bit Reg.KPA_STAT 16 = false
      ∧ (s.kflag 0 = false → s.kflag 1 = false → s.charging = false → t.ksrc = srcKbat) ∧ RegsBut s t kpaShown ∧ SameMem s t ∧ t.kpa = s.kpa) := by
  have hcase := (doSourceQualify_eq h).2.2 rfl
  obtain ⟨hflag, -, hsrc, -, hkpa, hmem, hregs⟩ := s.flagSelected_shows (b := 2) true 3 (by decide)
  have hbest : s.kflag 0 = false → s.kflag 1 = false → s.charging = false → (s.setKflag 2 true).bestSource = srcKbat := fun hpack hkin hidle =>
    State.bestSource_kbat ((State.kflag_setKflag_other s true (by decide) (by decide)).trans hpack) ((State.kflag_setKflag_other s true (by decide) (by decide)).trans hkin)
      (State.kflag_setKflag_self s true (by decide)) ((State.charging_of_chg (s.chg_setKflag 2 true)).trans hidle)
  generalize (s.setKflag 2 true).selectSource 3 = u at *
  refine ⟨_, congrArg Host.Outcome.next hcase, (State.bit_setBit_other u false (by decide) (by decide)).trans hflag, State.bit_setBit_self u false (by decide), fun hpack hkin hidle => ?_,
    (hregs.mono (by decide)).setBit _ _ (by decide), SameMem.of_mem hmem, hkpa⟩
  exact (State.fld_setBit_other u false (by decide) (by decide)).trans (hsrc.trans (hbest hpack hkin hidle))

theorem State.qualifies_kin_refused {s : State} (h : s.bit Reg.KPA_CTRL 3 = true ∨ (s.kflag 0 = false ∧ s.kflag 2 = false)) (mv : Nat) : s.qualifies .kin mv = false := by
  refine Bool.eq_false_iff.mpr fun hq => ?_
  obtain ⟨hheld, hother⟩ := State.qualifies_kin hq
  obtain hhold | ⟨hpack, hkbat⟩ := h
  · exact absurd (hhold.symm.trans hheld) (by decide)
  · simp [hpack, hkbat] at hother

/-! A source is disqualified (R131, R133) -/

theorem doSourceDisqualify_refused {s : State} {src : KSource} {mv : Nat} (h : s.disqualifies src mv = false) : doSourceDisqualify s src mv = s := if_pos (by rw [h]; rfl)

theorem disqualify_pack {s : State} {mv : Nat} (h : s.disqualifies .packaux mv = true) :
    Does (.sourceDisqualify .packaux mv) s (fun t =>
      t.kflag 0 = false ∧ t.ksrc = (if s.kflag 1 && !s.bit Reg.KPA_CTRL 3 then srcKin else if s.kflag 2 && !s.charging then srcKbat else srcNone)
        ∧ RegsBut s t kpaShown ∧ SameMem s t ∧ t.kpa = { s.kpa with paRe := true }) := by
  have hcase : doSourceDisqualify s .packaux mv = ((s.setKflag 0 false).setKpa { s.kpa with paRe := true }).selectSource 1 := if_neg (by rw [h]; decide)
  have hflag : ((s.setKflag 0 false).setKpa { s.kpa with paRe := true }).kflag 0 = false := State.kflag_setKflag_self s false (by decide)
  have hflags (c : Nat) (hc : 0 ≠ c) : ((s.setKflag 0 false).setKpa { s.kpa with paRe := true }).kflag c = s.kflag c := State.kflag_setKflag_other s false (by decide) hc
  have hchg : ((s.setKflag 0 false).setKpa { s.kpa with paRe := true }).chg = s.chg := s.chg_setKflag 0 false
  have hctrl : ((s.setKflag 0 false).setKpa { s.kpa with paRe := true }).bit Reg.KPA_CTRL 3 = s.bit Reg.KPA_CTRL 3 := State.bit_of_rd (s.rd_setKflag 0 false (by decide)) 3
  have hregs : RegsBut s ((s.setKflag 0 false).setKpa { s.kpa with paRe := true }) kpaShown := s.setKflag_regs 0 false
  have hk : ((s.setKflag 0 false).setKpa { s.kpa with paRe := true }).kpa = { s.kpa with paRe := true } := rfl
  have hm : ((s.setKflag 0 false).setKpa { s.kpa with paRe := true }).mem = s.mem := rfl
  generalize (s.setKflag 0 false).setKpa { s.kpa with paRe := true } = u at *
  refine ⟨_, congrArg Host.Outcome.next hcase, (u.kflag_selectSource 1 0).trans hflag, ?_, hregs.trans (u.selectSource_shown 1), SameMem.of_mem ((u.selectSource_mem 1).trans hm), (u.selectSource_kpa 1).trans hk⟩
  rw [State.ksrc_selectSource, State.bestSource, hflag, hflags 1 (by decide), hflags 2 (by decide), hctrl, State.charging_of_chg hchg, if_neg Bool.false_ne_true]

theorem disqualify_kin {s : State} {mv : Nat} (h : s.disqualifies .kin mv = true) :
    Does (.sourceDisqualify .kin mv) s (fun t => t.kflag 1 = false ∧ t.kflag 3 = false ∧ t.ksrc ≠ srcKin ∧ RegsBut s t kpaShown ∧ SameMem s t ∧ t.kpa = { s.kpa with supplement := false }) := by
  have hcase : doSourceDisqualify s .kin mv = (((s.setKflag 1 false).setKflag 3 false).setKpa { s.kpa with supplement := false }).selectSource 2 := if_neg (by rw [h]; decide)
  have hkin : (((s.setKflag 1 false).setKflag 3 false).setKpa { s.kpa with supplement := false }).kflag 1 = false :=
    (State.kflag_setKflag_other (s.setKflag 1 false) false (by decide) (by decide)).trans (State.kflag_setKflag_self s false (by decide))
  have hshort : (((s.setKflag 1 false).setKflag 3 false).setKpa { s.kpa with supplement := false }).kflag 3 = false := State.kflag_setKflag_self (s.setKflag 1 false) false (by decide)
  have hregs : RegsBut s (((s.setKflag 1 false).setKflag 3 false).setKpa { s.kpa with supplement := false }) kpaShown := (s.setKflag_regs 1 false).trans (State.setKflag_regs _ 3 false)
  have hk : (((s.setKflag 1 false).setKflag 3 false).setKpa { s.kpa with supplement := false }).kpa = { s.kpa with supplement := false } := rfl
  have hm : (((s.setKflag 1 false).setKflag 3 false).setKpa { s.kpa with supplement := false }).mem = s.mem := rfl
  generalize ((s.setKflag 1 false).setKflag 3 false).setKpa { s.kpa with supplement := false } = u at *
  refine ⟨_, congrArg Host.Outcome.next hcase, (u.kflag_selectSource 2 1).trans hkin, (u.kflag_selectSource 2 3).trans hshort, ?_, hregs.trans (u.selectSource_shown 2),
    SameMem.of_mem ((u.selectSource_mem 2).trans hm), (u.selectSource_kpa 2).trans hk⟩
  rw [State.ksrc_selectSource]
  exact State.bestSource_ne_kin hkin

theorem State.kinShort_shows (s : State) : let t := s.kinShort
    t.kflag 3 = true ∧ (∀ c, 3 ≠ c → t.kflag c = s.kflag c) ∧ (s.kflag 3 = false → t.bit Reg.KPA_IRQ 6 = true) ∧ t.ksrc = s.ksrc ∧ t.kpa = s.kpa ∧ t.mem = s.mem ∧ RegsBut s t kpaShown := by
  unfold State.kinShort
  split
  case isTrue h => exact ⟨h, fun _ _ => rfl, fun hno => absurd (h.symm.trans hno) (by decide), rfl, rfl, rfl, RegsBut.refl s _⟩
  case isFalse =>
    dsimp only
    generalize u16 _ ++ u32 _ = args
    refine ⟨?_, fun c hc => ?_, fun _ => ?_, ?_, ?_, ?_, ?_⟩
    · rw [State.kflag, State.bit_logKpa _ _ _ _ (by decide), State.bit_setBit_ne _ _ _ _ (by decide)]
      exact State.kflag_setKflag_self s true (by decide)
    · rw [State.kflag, State.bit_logKpa _ _ _ _ (by decide), State.bit_setBit_ne _ _ _ _ (by decide)]
      exact State.kflag_setKflag_other s true (by decide) hc
    · rw [State.bit_logKpa _ _ _ _ (by decide), State.bit_setBit_self _ _ (by decide)]
    · rw [State.ksrc, State.fld_logKpa _ _ _ _ _ (by decide), State.fld_setBit_ne _ _ _ _ _ (by decide)]
      exact s.ksrc_setKflag true (by decide)
    · rw [State.logKpa_eq]
      rfl
    · rw [State.logKpa_mem]
      rfl
    · exact ((s.setKflag_regs 3 true).setBit _ _ (by decide)).logKpa _ _ (by decide)

theorem disqualify_kbat {s : State} {mv : Nat} (h : s.disqualifies .kbat mv = true) :
    Does (.sourceDisqualify .kbat mv) s (fun t => t.kflag 2 = false ∧ t.ksrc ≠ srcKbat ∧ (s.kpa.supplement = true → t.ksrc = srcKin → t.kflag 3 = true)
      ∧ RegsBut s t kpaShown ∧ SameMem s t ∧ t.kpa = { s.kpa with supplement := false }) := by
  have hcase : doSourceDisqualify s .kbat mv = if s.kpa.supplement && decide ((((s.setKflag 2 false).setKpa { s.kpa with supplement := false }).selectSource 3).ksrc = srcKin)
      then (((s.setKflag 2 false).setKpa { s.kpa with supplement := false }).selectSource 3).kinShort else ((s.setKflag 2 false).setKpa { s.kpa with supplement := false }).selectSource 3 :=
    if_neg (by rw [h]; decide)
  have hkbat : ((s.setKflag 2 false).setKpa { s.kpa with supplement := false }).kflag 2 = false := State.kflag_setKflag_self s false (by decide)
  have hregs : RegsBut s ((s.setKflag 2 false).setKpa { s.kpa with supplement := false }) kpaShown := s.setKflag_regs 2 false
  have hk : ((s.setKflag 2 false).setKpa { s.kpa with supplement := false }).kpa = { s.kpa with supplement := false } := rfl
  have hm : ((s.setKflag 2 false).setKpa { s.kpa with supplement := false }).mem = s.mem := rfl
  generalize (s.setKflag 2 false).setKpa { s.kpa with supplement := false } = u at *
  have hflag := (u.kflag_selectSource 3 2).trans hkbat
  have hsrc : (u.selectSource 3).ksrc ≠ srcKbat := by
    rw [State.ksrc_selectSource]
    exact State.bestSource_ne_kbat hkbat
  have hregs' := hregs.trans (u.selectSource_shown 3)
  have hk' := (u.selectSource_kpa 3).trans hk
  have hm' := (u.selectSource_mem 3).trans hm
  generalize u.selectSource 3 = v at *
  refine ⟨_, congrArg Host.Outcome.next hcase, ?_⟩
  split
  case isTrue =>
    obtain ⟨hshort, hflags, -, hksrc, hkpa, hmem, hr⟩ := v.kinShort_shows
    exact ⟨(hflags 2 (by decide)).trans hflag, by rw [hksrc]; exact hsrc, fun _ _ => hshort, hregs'.trans hr, SameMem.of_mem (hmem.trans hm'), hkpa.trans hk'⟩
  case isFalse hno =>
    exact ⟨hflag, hsrc, fun hsupp hkin => absurd (by rw [hsupp, hkin]; rfl) hno, hregs', SameMem.of_mem hm', hk'⟩

/-! A short source (R133) -/

theorem State.sourceLimited_shows (s : State) (v : Bool) : let t := s.setKflag 4 v
    t.kflag 4 = v ∧ (∀ c, 4 ≠ c → t.kflag c = s.kflag c) ∧ t.ksrc = s.ksrc ∧ t.chg = s.chg ∧ t.kpa = s.kpa ∧ t.mem = s.mem ∧ RegsBut s t [Reg.KPA_STAT] :=
  ⟨State.kflag_setKflag_self s v (by decide), fun _ hc => State.kflag_setKflag_other s v (by decide) hc, s.ksrc_setKflag v (by decide), s.chg_setKflag 4 v, rfl, rfl,
    (RegsBut.refl s _).setBit _ _ List.mem_cons_self⟩

theorem doSourceLimit_eq (s : State) (a b short : Bool) {u : State} (hu : s.setKflag 4 (a || b) = u) : doSourceLimit s a b short =
    if short && decide (u.ksrc = srcKin) then
      if u.kflag 2 then
        if ((u.setKflag 3 false).setKpa { u.kpa with supplement := true }).charging ∨ ((u.setKflag 3 false).setKpa { u.kpa with supplement := true }).chg = cPause
            ∨ ((u.setKflag 3 false).setKpa { u.kpa with supplement := true }).chg = cDetect then ((u.setKflag 3 false).setKpa { u.kpa with supplement := true }).toCharge cOff
        else (u.setKflag 3 false).setKpa { u.kpa with supplement := true }
      else u.kinShort
    else ((u.setKflag 3 false).setKpa { u.kpa with supplement := false }).chargeFromOff := by
  subst hu
  rfl

/-- The shortfall's flag is cleared and the supplement set or ended. -/
theorem State.shortCleared_shows (s : State) (v : Bool) : let t := (s.setKflag 3 false).setKpa { s.kpa with supplement := v }
    t.kflag 3 = false ∧ t.kflag 4 = s.kflag 4 ∧ t.chg = s.chg ∧ t.kpa = { s.kpa with supplement := v } ∧ t.mem = s.mem ∧ RegsBut s t [Reg.KPA_STAT] := by
  have hflag : (s.setKflag 3 false).kflag 3 = false := State.kflag_setKflag_self s false (by decide)
  have hcut : (s.setKflag 3 false).kflag 4 = s.kflag 4 := State.kflag_setKflag_other s false (by decide) (by decide)
  have hchg := s.chg_setKflag 3 false
  have hregs : RegsBut s (s.setKflag 3 false) [Reg.KPA_STAT] := (RegsBut.refl s _).setBit _ _ List.mem_cons_self
  have hmem : (s.setKflag 3 false).mem = s.mem := rfl
  generalize s.setKflag 3 false = u at *
  exact ⟨hflag, hcut, hchg, rfl, hmem, hregs⟩

theorem limit_supplemented {s : State} (a b : Bool) (hsrc : s.ksrc = srcKin) (hkbat : s.kflag 2 = true) :
    Does (.sourceLimit a b true) s (fun t => t.kpa.supplement = true ∧ t.charging = false ∧ t.kflag 4 = (a || b) ∧ RegsBut s t kpaShown ∧ SameMem s t) := by
  obtain ⟨hcut, hflags, hksrc, -, -, hmem, hregs⟩ := s.sourceLimited_shows (a || b)
  generalize hu : s.setKflag 4 (a || b) = u at *
  have hcase := doSourceLimit_eq s a b true hu
  rw [if_pos (by rw [hksrc, hsrc]; rfl), if_pos ((hflags 2 (by decide)).trans hkbat)] at hcase
  obtain ⟨-, hcut', -, hkpa, hmem', hregs'⟩ := u.shortCleared_shows true
  generalize (u.setKflag 3 false).setKpa { u.kpa with supplement := true } = v at *
  have hsupp : v.kpa.supplement = true := congrArg KpaSt.supplement hkpa
  have hto : RegsBut s v kpaShown := (hregs.trans hregs').mono (by decide)
  refine ⟨_, congrArg Host.Outcome.next hcase, ?_⟩
  split
  case isTrue =>
    have hkept := v.toCharge_kept_sources cOff
    have hoff := v.chg_toCharge (n := cOff) (by decide)
    refine ⟨hkept.supplement.trans hsupp, ?_, (hkept.flags 12 (by decide) (by decide) (by decide)).trans (hcut'.trans hcut), hto.trans hkept.regs, SameMem.of_mem (hkept.mem.trans (hmem'.trans hmem))⟩
    rw [State.charging, hoff]
    rfl
  case isFalse hno =>
    exact ⟨hsupp, Bool.eq_false_of_not_eq_true fun h => hno (Or.inl h), hcut'.trans hcut, hto, SameMem.of_mem (hmem'.trans hmem)⟩

theorem limit_short {s : State} (a b : Bool) (hsrc : s.ksrc = srcKin) (hkbat : s.kflag 2 = false) (hfree : s.kflag 3 = false) :
    Does (.sourceLimit a b true) s (fun t => t.kflag 3 = true ∧ t.bit Reg.KPA_IRQ 6 = true ∧ t.kflag 4 = (a || b) ∧ RegsBut s t kpaShown ∧ SameMem s t ∧ t.kpa = s.kpa) := by
  obtain ⟨hcut, hflags, hksrc, -, hkpa, hmem, hregs⟩ := s.sourceLimited_shows (a || b)
  generalize hu : s.setKflag 4 (a || b) = u at *
  have hcase := doSourceLimit_eq s a b true hu
  rw [if_pos (by rw [hksrc, hsrc]; rfl), if_neg (by rw [hflags 2 (by decide), hkbat]; exact Bool.false_ne_true)] at hcase
  obtain ⟨hshort, hflags', hirq, -, hkpa', hmem', hregs'⟩ := u.kinShort_shows
  exact ⟨_, congrArg Host.Outcome.next hcase, hshort, hirq ((hflags 3 (by decide)).trans hfree), (hflags' 4 (by decide)).trans hcut, (hregs.mono (by decide)).trans hregs',
    SameMem.of_mem (hmem'.trans hmem), hkpa'.trans hkpa⟩

theorem limit_ends (s : State) (a b : Bool) :
    Does (.sourceLimit a b false) s (fun t => t.kflag 3 = false ∧ t.kflag 4 = (a || b) ∧ t.kpa.supplement = false ∧ RegsBut s t kpaShown ∧ SameMem s t
      ∧ (s.chg ≠ cOff → RegsBut s t [Reg.KPA_STAT] ∧ t.kpa = { s.kpa with supplement := false })) := by
  obtain ⟨hcut, -, -, hchg, hkpa, hmem, hregs⟩ := s.sourceLimited_shows (a || b)
  generalize hu : s.setKflag 4 (a || b) = u at *
  have hcase := doSourceLimit_eq s a b false hu
  rw [if_neg (by rw [Bool.false_and]; exact Bool.false_ne_true)] at hcase
  obtain ⟨hshort, hcut', hchg', hkpa', hmem', hregs'⟩ := u.shortCleared_shows false
  dsimp only at hkpa'
  generalize (u.setKflag 3 false).setKpa { u.kpa with supplement := false } = v at *
  have hkept := v.chargeFromOff_kept_sources
  refine ⟨_, congrArg Host.Outcome.next hcase, (hkept.flags 11 (by decide) (by decide) (by decide)).trans hshort, (hkept.flags 12 (by decide) (by decide) (by decide)).trans (hcut'.trans hcut),
    hkept.supplement.trans (congrArg KpaSt.supplement hkpa'), ((hregs.trans hregs').mono (by decide)).trans hkept.regs, SameMem.of_mem (hkept.mem.trans (hmem'.trans hmem)), fun hrun => ?_⟩
  rw [State.chargeFromOff_running (by rw [hchg', hchg]; exact hrun)]
  refine ⟨hregs.trans hregs', ?_⟩
  rw [hkpa', hkpa]

theorem sourcesAreSelected : sourceSelection := by
  unfold sourceSelection
  exact ⟨fun s c => s.ksrc_selectSource c, fun s mv h => qualify_pack h, fun s mv h => qualify_kin h, fun s mv h => qualify_kbat h, fun s src mv h => congrArg Host.Outcome.next (doSourceQualify_refused h),
    fun s h mv => State.qualifies_kin_refused h mv, fun s mv h => disqualify_pack h, fun s mv h => disqualify_kin h, fun s mv h => disqualify_kbat h,
    fun s src mv h => congrArg Host.Outcome.next (doSourceDisqualify_refused h), fun s a b hsrc hkbat => limit_supplemented a b hsrc hkbat,
    fun s a b hsrc hkbat hfree => limit_short a b hsrc hkbat hfree, fun s a b => limit_ends s a b⟩

/-! Tracking (R136, R137) -/

/-- The reference that a step of the tracking asks for, in its bounds. -/
def State.trackedMv (s : State) (up : Bool) : Int :=
  max (min (roundDiv ((s.fld Reg.KPA_MPPT 0 16 : Int) * (if up then 1005 else 995)) 1000) ((s.fld Reg.KPA_MPPT 16 16 : Int) * 95 / 100)) (s.fld Reg.KPA_KINCFG 0 16 : Int)

theorem State.trackedMv_range (s : State) (up : Bool) : 0 ≤ s.trackedMv up ∧ s.trackedMv up < 65536 := by
  have hvoc : s.fld Reg.KPA_MPPT 16 16 < 65536 := State.fld_lt ..
  have hmin : s.fld Reg.KPA_KINCFG 0 16 < 65536 := State.fld_lt ..
  unfold State.trackedMv
  omega

theorem mppt_steps {s : State} (rose : Bool) (hsrc : s.ksrc = srcKin) (hlimit : s.kflag 3 = true ∨ s.kflag 4 = true) (hon : s.bit Reg.KPA_CTRL 2 = true) :
    Does (.mpptStep rose) s (fun t =>
      t.kpa = { s.kpa with up := if rose then s.kpa.up else !s.kpa.up } ∧ (t.fld Reg.KPA_MPPT 0 16 : Int) = s.trackedMv (if rose then s.kpa.up else !s.kpa.up)
        ∧ t.fld Reg.KPA_MPPT 16 16 = s.fld Reg.KPA_MPPT 16 16 ∧ RegsBut s t [Reg.KPA_MPPT] ∧ SameMem s t) := by
  generalize hup : (if rose then s.kpa.up else !s.kpa.up) = up
  obtain ⟨hlow, hhigh⟩ := s.trackedMv_range up
  have hcase : doMpptStep s rose = (s.setFld Reg.KPA_MPPT 0 16 (s.trackedMv up).toNat).setKpa { s.kpa with up := up } := by
    subst hup
    exact if_pos ⟨hsrc, hlimit, hon⟩
  have hset : (s.setFld Reg.KPA_MPPT 0 16 (s.trackedMv up).toNat).fld Reg.KPA_MPPT 0 16 = (s.trackedMv up).toNat :=
    (State.fld_setFld_self _ _ (by decide)).trans (Nat.mod_eq_of_lt (by omega))
  have hvoc : (s.setFld Reg.KPA_MPPT 0 16 (s.trackedMv up).toNat).fld Reg.KPA_MPPT 16 16 = s.fld Reg.KPA_MPPT 16 16 := State.fld_setFld_other _ _ (by decide) (by decide)
  have hregs : RegsBut s (s.setFld Reg.KPA_MPPT 0 16 (s.trackedMv up).toNat) [Reg.KPA_MPPT] := (RegsBut.refl s _).setFld _ _ _ List.mem_cons_self
  have hmem : (s.setFld Reg.KPA_MPPT 0 16 (s.trackedMv up).toNat).mem = s.mem := rfl
  generalize hv : (s.trackedMv up).toNat = v at *
  generalize s.setFld Reg.KPA_MPPT 0 16 v = u at *
  refine ⟨_, congrArg Host.Outcome.next hcase, rfl, ?_, hvoc, hregs, SameMem.of_mem hmem⟩
  have hshown : (u.setKpa { s.kpa with up := up }).fld Reg.KPA_MPPT 0 16 = v := hset
  rw [hshown]
  omega

theorem State.fracVoc_lt (s : State) {voc : Nat} (h : voc < 65536) : s.fracVoc voc < 65536 := by
  have hfrac : s.fld Reg.KPA_KINCFG 16 8 ≤ 255 := Nat.lt_succ_iff.mp (State.fld_lt ..)
  have hprod := Nat.mul_le_mul hfrac (Nat.le_of_lt_succ h)
  unfold State.fracVoc
  omega

/-- An open-circuit voltage and the reference that follows it. -/
def State.vocShown (s : State) (voc : Nat) : State :=
  if s.fracVoc voc * 8 < ((s.fld Reg.KPA_MPPT 0 16 : Int) - s.fracVoc voc).natAbs * 100 then
    ((s.setKpa { s.kpa with vocOpen := false }).setFld Reg.KPA_MPPT 16 16 voc).setFld Reg.KPA_MPPT 0 16 (s.fracVoc voc)
  else (s.setKpa { s.kpa with vocOpen := false }).setFld Reg.KPA_MPPT 16 16 voc

theorem State.vocTaken_shows (s : State) {voc : Nat} (hvoc : voc < 65536) : let t := (s.setKpa { s.kpa with vocOpen := false }).setFld Reg.KPA_MPPT 16 16 voc
    t.kpa = { s.kpa with vocOpen := false } ∧ t.fld Reg.KPA_MPPT 16 16 = voc ∧ t.fld Reg.KPA_MPPT 0 16 = s.fld Reg.KPA_MPPT 0 16 ∧ RegsBut s t [Reg.KPA_MPPT] ∧ t.mem = s.mem := by
  have hregs : RegsBut s (s.setKpa { s.kpa with vocOpen := false }) [Reg.KPA_MPPT] := RegsBut.of_regs rfl
  have hsame : (s.setKpa { s.kpa with vocOpen := false }).fld Reg.KPA_MPPT 0 16 = s.fld Reg.KPA_MPPT 0 16 := rfl
  have hkpa : (s.setKpa { s.kpa with vocOpen := false }).kpa = { s.kpa with vocOpen := false } := rfl
  have hmem : (s.setKpa { s.kpa with vocOpen := false }).mem = s.mem := rfl
  generalize s.setKpa { s.kpa with vocOpen := false } = u at *
  exact ⟨hkpa, (State.fld_setFld_self _ _ (by decide)).trans (Nat.mod_eq_of_lt hvoc), (State.fld_setFld_other _ _ (by decide) (by decide)).trans hsame, hregs.setFld _ _ _ List.mem_cons_self, hmem⟩

/-- A reference that follows the voltage only where it is far from it. -/
theorem State.follows_voc {s u : State} {voc p : Nat} {q : Prop} [Decidable q] (hkpa : u.kpa = { s.kpa with vocOpen := false }) (htop : u.fld Reg.KPA_MPPT 16 16 = voc)
    (hlow : u.fld Reg.KPA_MPPT 0 16 = s.fld Reg.KPA_MPPT 0 16) (hregs : RegsBut s u [Reg.KPA_MPPT]) (hmem : u.mem = s.mem) (hp : p < 65536) : let t := if q then u.setFld Reg.KPA_MPPT 0 16 p else u
    t.kpa = { s.kpa with vocOpen := false } ∧ t.fld Reg.KPA_MPPT 16 16 = voc ∧ t.fld Reg.KPA_MPPT 0 16 = (if q then p else s.fld Reg.KPA_MPPT 0 16) ∧ RegsBut s t [Reg.KPA_MPPT] ∧ t.mem = s.mem := by
  dsimp only
  by_cases h : q
  · rw [if_pos h, if_pos h]
    refine ⟨hkpa, (State.fld_setFld_other _ _ (by decide) (by decide)).trans htop, ?_, hregs.setFld _ _ _ List.mem_cons_self, hmem⟩
    rw [State.fld_setFld_self _ _ (by decide)]
    exact Nat.mod_eq_of_lt hp
  · rw [if_neg h, if_neg h]
    exact ⟨hkpa, htop, hlow, hregs, hmem⟩

theorem State.vocShown_shows (s : State) {voc : Nat} (hvoc : voc < 65536) : let t := s.vocShown voc
    t.kpa = { s.kpa with vocOpen := false } ∧ t.fld Reg.KPA_MPPT 16 16 = voc
      ∧ t.fld Reg.KPA_MPPT 0 16 = (if s.fracVoc voc * 8 < ((s.fld Reg.KPA_MPPT 0 16 : Int) - s.fracVoc voc).natAbs * 100 then s.fracVoc voc else s.fld Reg.KPA_MPPT 0 16)
      ∧ RegsBut s t [Reg.KPA_MPPT] ∧ t.mem = s.mem := by
  obtain ⟨hkpa, htop, hlow, hregs, hmem⟩ := s.vocTaken_shows hvoc
  exact State.follows_voc hkpa htop hlow hregs hmem (s.fracVoc_lt hvoc)

theorem doVocWindowEnd_open {s : State} (voc : Nat) (h : s.kpa.vocOpen = true) : ∃ args, doVocWindowEnd s voc = (s.vocShown voc).logKpa 0x060C args := ⟨_, if_pos h⟩

theorem voc_ends {s : State} {voc : Nat} (hopen : s.kpa.vocOpen = true) (hvoc : voc < 65536) :
    Does (.vocWindowEnd voc) s (fun t =>
      t.kpa = { s.kpa with vocOpen := false } ∧ t.fld Reg.KPA_MPPT 16 16 = voc
        ∧ t.fld Reg.KPA_MPPT 0 16 = (if s.fracVoc voc * 8 < ((s.fld Reg.KPA_MPPT 0 16 : Int) - s.fracVoc voc).natAbs * 100 then s.fracVoc voc else s.fld Reg.KPA_MPPT 0 16)
        ∧ RegsBut s t (Reg.KPA_MPPT :: logRegs 0) ∧ SameMem s t) := by
  obtain ⟨args, hcase⟩ := doVocWindowEnd_open voc hopen
  obtain ⟨hkpa, htop, hlow, hregs, hmem⟩ := s.vocShown_shows hvoc
  generalize s.vocShown voc = u at *
  refine ⟨_, congrArg Host.Outcome.next hcase, ?_, (State.fld_logKpa _ _ _ _ _ (by decide)).trans htop, (State.fld_logKpa _ _ _ _ _ (by decide)).trans hlow,
    (hregs.mono fun a ha => List.mem_cons.mpr (Or.inl (List.mem_singleton.mp ha))).logKpa _ _ fun a ha => List.mem_cons_of_mem _ ha, SameMem.of_mem ((u.logKpa_mem 0x060C args).trans hmem)⟩
  rw [State.logKpa_eq]
  exact hkpa

/-! The black start (R138, R139) -/

/-- VOC and VREF of a black start. -/
def State.blackTracked (s : State) (kin : Nat) : State := (s.setFld Reg.KPA_MPPT 16 16 kin).setFld Reg.KPA_MPPT 0 16 (s.fracVoc kin)

theorem State.blackTracked_shows (s : State) {kin : Nat} (hkin : kin < 65536) : let t := s.blackTracked kin
    t.fld Reg.KPA_MPPT 16 16 = kin ∧ t.fld Reg.KPA_MPPT 0 16 = s.fracVoc kin ∧ RegsBut s t [Reg.KPA_MPPT] ∧ t.mem = s.mem ∧ t.kpa = s.kpa := by
  refine ⟨?_, ?_, ((RegsBut.refl s _).setFld _ _ _ List.mem_cons_self).setFld _ _ _ List.mem_cons_self, rfl, rfl⟩
  · rw [State.blackTracked, State.fld_setFld_other _ _ (by decide) (by decide), State.fld_setFld_self _ _ (by decide)]
    exact Nat.mod_eq_of_lt hkin
  · rw [State.blackTracked, State.fld_setFld_self _ _ (by decide)]
    exact Nat.mod_eq_of_lt (s.fracVoc_lt hkin)

theorem doBlackStartQualify_starts {s : State} {kin : Nat} (hpack : s.kflag 0 = false) (hkbat : s.kflag 2 = false) (hlevel : s.fld Reg.KPA_BSCFG 0 16 ≤ kin) :
    doBlackStartQualify s kin = (((s.blackTracked kin).setKflag 1 true).setBit Reg.KPA_STAT 16 true).selectSource 2 := if_neg (by simp [hpack, hkbat, hlevel])

/-- KIN and the black start show in KPA.STAT. -/
theorem State.blackFlags_shows (s : State) : let t := (s.setKflag 1 true).setBit Reg.KPA_STAT 16 true
    t.kflag 1 = true ∧ t.kflag 0 = s.kflag 0 ∧ t.bit Reg.KPA_STAT 16 = true ∧ RegsBut s t [Reg.KPA_STAT] ∧ t.mem = s.mem ∧ t.kpa = s.kpa := by
  refine ⟨?_, ?_, State.bit_setBit_self _ _ (by decide), ((RegsBut.refl s _).setBit _ _ List.mem_cons_self).setBit _ _ List.mem_cons_self, rfl, rfl⟩
  · exact (State.bit_setBit_other (s.setKflag 1 true) true (by decide) (by decide)).trans (State.kflag_setKflag_self s true (by decide))
  · exact (State.bit_setBit_other (s.setKflag 1 true) true (by decide) (by decide)).trans (State.kflag_setKflag_other s true (by decide) (by decide))

theorem black_starts {s : State} {kin : Nat} (hpack : s.kflag 0 = false) (hkbat : s.kflag 2 = false) (hlevel : s.fld Reg.KPA_BSCFG 0 16 ≤ kin) (hkin : kin < 65536) :
    Does (.blackStartQualify kin) s (fun t =>
      t.kflag 1 = true ∧ t.bit Reg.KPA_STAT 16 = true ∧ t.fld Reg.KPA_MPPT 16 16 = kin ∧ t.fld Reg.KPA_MPPT 0 16 = s.fracVoc kin
        ∧ (s.bit Reg.KPA_CTRL 3 = false → t.ksrc = srcKin) ∧ RegsBut s t (Reg.KPA_MPPT :: kpaShown) ∧ SameMem s t ∧ t.kpa = s.kpa) := by
  have hcase := doBlackStartQualify_starts hpack hkbat hlevel
  obtain ⟨htop, hlow, hregs, hmem, hkpa⟩ := s.blackTracked_shows hkin
  generalize s.blackTracked kin = u at *
  obtain ⟨hflag, hpack', hblack, hflags, hmem', hkpa'⟩ := u.blackFlags_shows
  generalize (u.setKflag 1 true).setBit Reg.KPA_STAT 16 true = v at *
  have hregs' : RegsBut s v (Reg.KPA_MPPT :: kpaShown) := (hregs.mono fun a ha => List.mem_cons.mpr (Or.inl (List.mem_singleton.mp ha))).trans
    (hflags.mono fun a ha => List.mem_cons_of_mem _ (by rw [List.mem_singleton.mp ha]; decide))
  have hmppt : (v.selectSource 2).rd Reg.KPA_MPPT = u.rd Reg.KPA_MPPT := (v.selectSource_regs 2 _ (by decide)).trans (hflags _ (by decide))
  have hkflag : s.kflag 0 = u.kflag 0 := (State.bit_of_rd (hregs _ (by decide)) 8).symm
  refine ⟨_, congrArg Host.Outcome.next hcase, (v.kflag_selectSource 2 1).trans hflag, (v.bit_stat_selectSource 2 (by decide)).trans hblack, (State.fld_of_rd hmppt 16 16).trans htop,
    (State.fld_of_rd hmppt 0 16).trans hlow, fun hheld => ?_, hregs'.trans ((v.selectSource_shown 2).mono fun a ha => List.mem_cons_of_mem _ ha),
    SameMem.of_mem ((v.selectSource_mem 2).trans (hmem'.trans hmem)), (v.selectSource_kpa 2).trans (hkpa'.trans hkpa)⟩
  rw [State.ksrc_selectSource]
  exact State.bestSource_kin (hpack'.trans (hkflag.symm.trans hpack)) hflag ((State.bit_of_rd (hregs' _ (by decide)) 3).trans hheld)

theorem lor_fifteen {n : Nat} (h : n < 16) : n ||| 15 = 15 := by
  revert n
  decide

theorem State.fld_orReg_low (s : State) (a : Nat) : (s.orReg a 0xF).fld a 0 4 = 15 := by
  have hlow : (s.rdN a ||| 15) % 2 ^ 4 = 15 := by
    rw [Nat.or_mod_two_pow]
    exact lor_fifteen (Nat.mod_lt _ (by decide))
  rw [State.fld, State.orReg, State.rdN_wrN_self, getField]
  omega

theorem sculls_start {s : State} (hblack : s.bit Reg.KPA_STAT 16 = true) (hmargin : s.marginShown = true) (hrowing : s.rowing = true) :
    Does .blackStartSculls s (fun t => t.fld Reg.PART_CTRL 0 4 = 15 ∧ OnlyRegs s t [Reg.PART_CTRL]) := by
  have hcase : doBlackStartSculls s = s.orReg Reg.PART_CTRL 0xF := (if_pos (by rw [hblack, hmargin]; rfl)).trans (if_pos hrowing)
  exact ⟨_, congrArg Host.Outcome.next hcase, s.fld_orReg_low _, (RegsBut.refl s _).orReg _ List.mem_cons_self, SameMem.of_mem rfl, rfl⟩

theorem kinIsTracked : trackingAndBlackStart := by
  unfold trackingAndBlackStart
  refine ⟨fun s rose hsrc hlimit hon => mppt_steps rose hsrc hlimit hon, fun s rose hsrc => congrArg Host.Outcome.next (if_neg fun h => hsrc h.1), fun s hmay hawake => ⟨?_, ?_⟩,
    fun s hmay => ⟨?_, ?_⟩, fun s voc hopen hvoc => voc_ends hopen hvoc, fun s kin hpack hkbat hlevel hkin => black_starts hpack hkbat hlevel hkin, fun s hblack hmargin hrowing => sculls_start hblack hmargin hrowing⟩
  · exact ⟨_, congrArg Host.Outcome.next (if_pos hmay), rfl⟩
  · exact ⟨_, congrArg Host.Outcome.next ((State.byRequester_awake _ hawake).trans (if_pos hmay)), rfl⟩
  · have hcase : doVocNow s = s := if_neg (by rw [hmay]; exact Bool.false_ne_true)
    refine congrArg Host.Outcome.next ?_
    rw [hcase, State.byRequester, ite_self]
  · have hcase : doVocCheck s = s.incSat Reg.KPA_MPPTC 0 8 1 := if_neg (by rw [hmay]; exact Bool.false_ne_true)
    exact ⟨_, congrArg Host.Outcome.next hcase, State.fld_incSat_self s 1 (by decide), (RegsBut.refl s _).incSat _ _ _ List.mem_cons_self, SameMem.of_mem rfl, rfl⟩

/-- Settles O26: a selection follows the flags of the sources, and no event of the charger moves a source that stands before KBAT. -/
theorem sourcesTrackingAndBlackStart : Obligations.SourcesTrackingAndBlackStart := ⟨sourcesAreSelected, kinIsTracked⟩

end Sys2Proof.Machine
end

section
/-!
PROOFS. The module radio (R205 to R219): what a channel's attempt, a beacon, a calibration and an answer on the air leave unchanged, and the join buffer. They settle O34.
-/

namespace Sys2Proof.Machine

/-! The synthesizer (R216, R217) -/

theorem State.radStat_only (s : State) (lock settle cal : Bool) : OnlyRegs s (s.radStat lock settle cal) [Reg.RAD_STAT] :=
  (((OnlyRegs.refl s _).setBit _ _ (by decide)).setBit _ _ (by decide)).setBit _ _ (by decide)

theorem State.radStat_lock (s : State) (lock settle cal : Bool) : (s.radStat lock settle cal).bit Reg.RAD_STAT 0 = lock := by
  unfold State.radStat
  rw [State.bit_setBit_other _ _ (by decide) (by decide), State.bit_setBit_other _ _ (by decide) (by decide), State.bit_setBit_self _ _ (by decide)]

theorem State.radStat_settle (s : State) (lock settle cal : Bool) : (s.radStat lock settle cal).bit Reg.RAD_STAT 1 = settle := by
  unfold State.radStat
  rw [State.bit_setBit_other _ _ (by decide) (by decide), State.bit_setBit_self _ _ (by decide)]

theorem State.radStat_cal (s : State) (lock settle cal : Bool) : (s.radStat lock settle cal).bit Reg.RAD_STAT 2 = cal := State.bit_setBit_self _ _ (by decide)

/-- A retune toward a channel: no lock, settling, the join window over. -/
theorem retuned_shows (s : State) {ch : Nat} (hch : ch < 64) :
    let t := ((s.setRad { s.rad with window := false }).radStat false true false).setFld Reg.RAD_STAT 8 6 ch
    t.fld Reg.RAD_STAT 8 6 = ch ∧ t.radLocked = false ∧ t.bit Reg.RAD_STAT 1 = true ∧ t.rad = { s.rad with window := false } ∧ RegsBut s t [Reg.RAD_STAT] ∧ SameMem s t := by
  refine ⟨?_, ?_, ?_, rfl, ?_, SameMem.of_mem rfl⟩
  · rw [State.fld_setFld_self _ _ (by decide)]
    exact Nat.mod_eq_of_lt hch
  · rw [State.radLocked, State.bit_setFld_other _ _ (by decide) (by decide), State.radStat_lock]
  · rw [State.bit_setFld_other _ _ (by decide) (by decide), State.radStat_settle]
  · have hwindow : RegsBut s (s.setRad { s.rad with window := false }) [Reg.RAD_STAT] := RegsBut.of_regs rfl
    exact (hwindow.trans (State.radStat_only _ _ _ _).1).setFld _ _ _ (by decide)

theorem State.hopset_lt (s : State) (i : Nat) : s.hopset i < 64 := State.fld_lt ..

theorem doRadioRetune_join {s : State} (hon : s.radOn = true) (hjoin : s.bit Reg.RAD_CTRL 2 = true) :
    doRadioRetune s = ((s.setRad { s.rad with window := false }).radStat false true false).setFld Reg.RAD_STAT 8 6 (s.fld Reg.RAD_CTRL 16 6) := by
  unfold doRadioRetune
  dsimp only
  rw [if_neg (by simp [hon]), if_pos hjoin]

theorem doRadioRetune_hops {s : State} (hon : s.radOn = true) (hjoin : s.bit Reg.RAD_CTRL 2 = false) (hset : s.fld Reg.RAD_HOPCTRL 0 16 = 0xFFFF) :
    doRadioRetune s =
      ((s.setRad { s.rad with window := false }).radStat false true false).setFld Reg.RAD_STAT 8 6 (s.hopset (7 * ((s.strokeNo + 1) % 2 ^ 32) % 16)) := by
  unfold doRadioRetune
  dsimp only
  rw [if_neg (by simp [hon]), if_neg (by simp [hjoin]), if_neg (fun h => h.1 hset), State.dataChannel]

/-- A calibration shows CAL and the die temperature, and ends the requests for it and the join window. -/
theorem State.calibrate_shows (s : State) (reason : Nat) : let t := s.calibrate reason
    t.bit Reg.RAD_STAT 2 = true ∧ t.rdN Reg.RAD_CALSTAT = s.fld Reg.AGR_C_DIE 0 16 ∧ t.bit Reg.RAD_IRQ 5 = true ∧ t.rad = { s.rad with calNow := false, calTemp := false, window := false }
      ∧ RegsBut s t ([Reg.RAD_STAT, Reg.RAD_CALSTAT, Reg.RAD_IRQ] ++ logRegs 0) ∧ SameMem s t := by
  have hdie := s.fld_lt Reg.AGR_C_DIE 0 16
  have hcal := s.radStat_cal false false true
  have honly := s.radStat_only false false true
  unfold State.calibrate
  dsimp only
  generalize s.radStat false false true = u at hcal honly ⊢
  obtain ⟨hregs, hmem, heq⟩ := honly
  have hrad : u.rad = s.rad := (congrArg State.rad heq :)
  have hmemory : u.mem = s.mem := (congrArg State.mem heq :)
  refine ⟨?_, ?_, ?_, ?_, ?_, SameMem.of_mem ?_⟩
  · rw [State.bit_logS _ _ _ _ (by decide), State.bit_setBit_ne _ _ _ _ (by decide)]
    exact (State.bit_wrN_ne u _ _ (by decide)).trans hcal
  · rw [State.rdN_logS _ _ _ (by decide), State.rdN_setBit_ne _ _ _ (by decide)]
    exact (State.rdN_wrN_self u _ _).trans (Nat.mod_eq_of_lt (by omega))
  · rw [State.bit_logS _ _ _ _ (by decide), State.bit_setBit_self _ _ (by decide)]
  · rw [State.logS_rad, State.setBit_rad, ← hrad]
    rfl
  · have hstat : RegsBut s u ([Reg.RAD_STAT, Reg.RAD_CALSTAT, Reg.RAD_IRQ] ++ logRegs 0) := hregs.mono fun a ha => List.mem_append_left _ (by rw [List.mem_singleton.mp ha]; decide)
    have hdieKept := hstat.wrN (s.fld Reg.AGR_C_DIE 0 16) (a := Reg.RAD_CALSTAT) (by decide)
    have hdone := hdieKept.trans (t := u.wrN Reg.RAD_CALSTAT (s.fld Reg.AGR_C_DIE 0 16))
      (RegsBut.of_regs (t := (u.wrN Reg.RAD_CALSTAT (s.fld Reg.AGR_C_DIE 0 16)).setRad { (u.wrN Reg.RAD_CALSTAT (s.fld Reg.AGR_C_DIE 0 16)).rad with calNow := false, calTemp := false, window := false }) rfl)
    exact (hdone.setBit _ _ (by decide)).logS _ _ fun a ha => List.mem_append_right _ ha
  · rw [State.logS_mem, State.setBit_mem]
    exact hmemory

/-! The channel map (R207) -/

theorem State.showMap_rad (s : State) : s.showMap.rad = s.rad := rfl

theorem State.showMap_regs (s : State) : RegsBut s s.showMap [Reg.RAD_MAPLO, Reg.RAD_MAPHI] :=
  ((RegsBut.refl s _).wrN _ (by decide)).setFld _ _ _ (by decide)

/-- What an attempt on a channel may touch: its counter, the map and its history. -/
structure MapFrame (s t : State) : Prop where
  eq : t = { s with regs := t.regs, rad := t.rad }
  rad : t.rad = { s.rad with hist := t.rad.hist, bad := t.rad.bad }
  regs : RegsBut s t mapRegs

theorem MapFrame.refl (s : State) : MapFrame s s := ⟨rfl, rfl, RegsBut.refl s _⟩

theorem MapFrame.trans {s t u : State} (h : MapFrame s t) (k : MapFrame t u) : MapFrame s u := by
  obtain ⟨heq, hrad, hregs⟩ := h
  obtain ⟨keq, krad, kregs⟩ := k
  refine ⟨?_, ?_, hregs.trans kregs⟩
  · rw [heq] at keq
    exact keq
  · rw [hrad] at krad
    exact krad

theorem MapFrame.ite {s t u : State} {c : Prop} [Decidable c] (h : MapFrame s t) (k : MapFrame s u) : MapFrame s (if c then t else u) := by
  split
  · exact h
  · exact k

theorem State.showMap_map (s : State) : MapFrame s s.showMap := ⟨rfl, rfl, s.showMap_regs.mono (by decide)⟩

theorem RAD_CHSTAT_mem {c : Nat} (h : c < 64) : Reg.RAD_CHSTAT c ∈ mapRegs :=
  List.mem_append_right _ (List.mem_map.mpr ⟨c, List.mem_range.mpr h, rfl⟩)

theorem State.countFailed_map (s : State) {c : Nat} (h : c < 64) (failed : Bool) : MapFrame s (if failed then s.incSat (Reg.RAD_CHSTAT c) 16 16 1 else s) :=
  MapFrame.ite ⟨rfl, rfl, (RegsBut.refl s _).incSat _ _ _ (RAD_CHSTAT_mem h)⟩ (MapFrame.refl s)

theorem State.mapAttempt_map (s : State) {c : Nat} (h : c < 64) (failed : Bool) : MapFrame s (s.mapAttempt c failed) := by
  unfold State.mapAttempt
  dsimp only
  generalize List.drop _ (s.histOf c ++ [failed]) = l
  have hhist : MapFrame s (s.setRad { s.rad with hist := Tab.put [] s.rad.hist c l }) := ⟨rfl, rfl, RegsBut.of_regs rfl⟩
  have hcounted := hhist.trans (State.countFailed_map _ h failed)
  generalize (if failed = true then _ else _) = u at hcounted ⊢
  refine MapFrame.ite ?_ hcounted
  have hbad : MapFrame u (u.setRad { u.rad with bad := u.rad.bad ++ [(c, u.clock)] }) := ⟨rfl, rfl, RegsBut.of_regs rfl⟩
  exact hcounted.trans (hbad.trans (State.showMap_map _))

theorem MapFrame.mem {s t : State} (h : MapFrame s t) : t.mem = s.mem := (congrArg State.mem h.eq :)

theorem atUs_map (s : State) (us : Nat) : MapFrame s (s.atUs us) := ⟨rfl, rfl, (RegsBut.refl s _).atUs _ (by decide)⟩

/-- The state in which a failed attempt is judged: its own counter went up, and the channel's use counts. -/
theorem failedOn_shows (s : State) (us : Nat) {a : Nat} (ha : a ∉ mapRegs) : let u := ((s.atUs us).incSat a 0 16 1).mapAttempt (s.fld Reg.RAD_STAT 8 6) true
    u.fld a 0 16 = min (s.fld a 0 16 + 1) 0xFFFF ∧ RegsBut s u (a :: mapRegs) ∧ SameMem s u := by
  have hmap := State.mapAttempt_map ((s.atUs us).incSat a 0 16 1) (c := s.fld Reg.RAD_STAT 8 6) (State.fld_lt ..) true
  have hat := atUs_map s us
  refine ⟨?_, ?_, SameMem.of_mem (hmap.mem.trans (State.incSat_mem ..))⟩
  · rw [State.fld_of_rd (hmap.regs a ha) 0 16, State.fld_incSat_self _ _ (by decide), State.fld_of_rd (hat.regs a ha) 0 16]
    rfl
  · have hcounted : RegsBut s ((s.atUs us).incSat a 0 16 1) (a :: mapRegs) := (hat.regs.mono fun _ h => List.mem_cons_of_mem _ h).incSat _ _ _ List.mem_cons_self
    exact hcounted.trans (hmap.regs.mono fun _ h => List.mem_cons_of_mem _ h)

theorem quarantineOver_shows (s : State) (ch : Nat) :
    let t := (s.setRad { s.rad with bad := s.rad.bad.filter (fun e => decide (e.1 ≠ ch)), hist := Tab.put [] s.rad.hist ch [] }).showMap
    t.chBad ch = false ∧ t.histOf ch = [] ∧ (∀ c, c ≠ ch → t.chBad c = s.chBad c) ∧ RegsBut s t [Reg.RAD_MAPLO, Reg.RAD_MAPHI] ∧ SameMem s t := by
  dsimp only
  refine ⟨?_, ?_, fun c hc => ?_, ?_, SameMem.of_mem rfl⟩
  · rw [State.chBad, State.showMap_rad]
    simp [State.setRad]
  · rw [State.histOf, State.showMap_rad]
    exact Tab.get_put_self ..
  · rw [State.chBad, State.chBad, State.showMap_rad, State.setRad, List.any_filter]
    congr 1
    funext e
    by_cases he : e.1 = c
    · simp [he, hc]
    · simp [he]
  · exact RegsBut.trans (t := s.setRad { s.rad with bad := s.rad.bad.filter (fun e => decide (e.1 ≠ ch)), hist := Tab.put [] s.rad.hist ch [] }) (RegsBut.of_regs rfl) (State.showMap_regs _)

/-! Beacons and slots (R209 to R214) -/

/-- An air frame shows its access word, header and clear extension before what is sealed. -/
theorem airFrame_clear (access seat try_ : Nat) (k : AirKind) (key nonce inner e₁ e₂ e₃ e₄ : List Byte) : ∃ sealed : List Byte,
    airFrame access (airTail k key nonce (e₁ ++ e₂ ++ e₃ ++ e₄) seat try_ inner)
      = [0x55, 0x55] ++ u32 access ++ u8 k.code ++ u8 seat ++ u8 try_ ++ u8 inner.length ++ e₁ ++ e₂ ++ e₃ ++ e₄ ++ sealed := by
  unfold airFrame airTail airBody
  exact ⟨_, by simp only [List.append_assoc]; rfl⟩

/-- The clear fields of a beacon and what is sealed after them. -/
theorem State.sendBeacon_frame (s : State) (us : Nat) : ∃ sealed : List Byte,
    s.sendBeacon us = { s with rad := { s.rad with
      beaconAt := some s.strokeNo, waiting := none
      sent := s.rad.sent ++ [[0x55, 0x55] ++ u32 (s.rdN Reg.RAD_ACCESS) ++ u8 0 ++ u8 0xFF ++ u8 0 ++ u8 (s.beaconInner us).length ++ u32 (s.rdN Reg.RAD_SESSION) ++ u16 (s.strokeNo / 65536)
        ++ u8 (s.fld Reg.RAD_STAT 16 8) ++ u8 0 ++ sealed] } } := by
  obtain ⟨sealed, hframe⟩ := airFrame_clear (s.rdN Reg.RAD_ACCESS) 0xFF 0 .beacon s.nv.rad.netKey (airNonce .beacon 0xFF (s.rdN Reg.RAD_SESSION) s.strokeNo 0 0) (s.beaconInner us)
    (u32 (s.rdN Reg.RAD_SESSION)) (u16 (s.strokeNo / 65536)) (u8 (s.fld Reg.RAD_STAT 16 8)) (u8 0)
  exact ⟨sealed, (congrArg (fun l => ({ s with rad := { s.rad with beaconAt := some s.strokeNo, waiting := none, sent := s.rad.sent ++ [l] } } : State)) hframe :)⟩

theorem doLockAcquired_eq {s : State} (us : Nat) (hon : s.radOn = true) (hwait : s.rad.waiting = none) : doLockAcquired s us = s.radStat true false false := by
  unfold doLockAcquired
  dsimp only
  have hrad : (s.radStat true false false).rad = s.rad := rfl
  rw [if_neg (by simp [hon]), hrad, hwait]

theorem doLockAcquired_beacon {s : State} (us : Nat) (hon : s.radOn = true) (hwait : s.rad.waiting = some 0) :
    doLockAcquired s us = (s.radStat true false false).sendBeacon us := by
  unfold doLockAcquired
  dsimp only
  have hrad : (s.radStat true false false).rad = s.rad := rfl
  rw [if_neg (by simp [hon]), hrad, hwait]
  rfl

theorem doRadioSlot_picks {s : State} {slot tag : Nat} (hon : s.radOn = true) (hjoin : s.bit Reg.RAD_CTRL 2 = false) (hlow : 2 ≤ slot) (hin : slot < s.slotsOf) (hfly : s.rad.fly = none)
    (hfree : s.rad.busyTo ≤ slot) (hpick : s.pickRadio slot = some tag) :
    doRadioSlot s slot = if s.radLocked then s.sendRadio tag slot else s.setRad { s.rad with waiting := some slot } := by
  unfold doRadioSlot
  rw [if_neg (by simp [hon, hjoin, hfly]; omega), hpick]

/-- The head of an attempt on the air: in flight, one attempt more. -/
def State.airHead (s : State) (t : Nat) : State :=
  let u := if s.hd t 0 1 = txQueued then s.setHd t 0 1 txFlight else s
  u.setHd t 0x17 1 (u.hd t 0x17 1 + 1)

theorem State.airHead_issue (s : State) (t : Nat) : IssueFrame s (s.airHead t) :=
  (IssueFrame.ite (s.setHd_issue t 0 1 txFlight) (IssueFrame.refl s)).trans (State.setHd_issue _ _ _ _ _)

theorem State.airHead_hd (s : State) (t : Nat) {off n : Nat} (hlow : 1 ≤ off) (hhigh : off + n ≤ 0x17) : (s.airHead t).hd t off n = s.hd t off n := by
  unfold State.airHead
  dsimp only
  rw [State.hd_setHd_other _ _ _ (Or.inl hhigh)]
  split
  · exact State.hd_setHd_other _ _ _ (Or.inr hlow)
  · rfl

theorem State.sendRadio_shows (s : State) (tag slot : Nat) :
    (s.sendRadio tag slot).rad.fly = some tag ∧ (s.sendRadio tag slot).rad.busyTo = slot + s.txSlots tag ∧ (s.sendRadio tag slot).nv = s.nv := by
  have hissue := s.airHead_issue tag
  have hslots : (s.airHead tag).txSlots tag = s.txSlots tag := by
    rw [State.txSlots, State.txSlots, s.airHead_hd tag (by decide) (by decide), s.airHead_hd tag (by decide) (by decide)]
  have hnv : (s.airHead tag).nv = s.nv := (congrArg State.nv hissue.eq :)
  have hsend : ∃ (v : State) (n : Nat), s.sendRadio tag slot = (v.incSat (Reg.RAD_CHSTAT n) 0 16 1).showTx ∧ v.rad.fly = some tag ∧ v.rad.busyTo = slot + (s.airHead tag).txSlots tag ∧ v.nv = (s.airHead tag).nv :=
    ⟨_, _, rfl, rfl, rfl, rfl⟩
  obtain ⟨v, n, heq, hfly, hbusy, hvnv⟩ := hsend
  have hshow := (v.incSat (Reg.RAD_CHSTAT n) 0 16 1).showTx_issue
  rw [heq]
  generalize (v.incSat (Reg.RAD_CHSTAT n) 0 16 1).showTx = w at hshow ⊢
  have hrad : w.rad = { v.rad with queue := w.rad.queue } := hshow.rad
  have hw : w.nv = v.nv := (congrArg State.nv hshow.eq :)
  have hflyKept : w.rad.fly = v.rad.fly := (congrArg RadSt.fly hrad :)
  have hbusyKept : w.rad.busyTo = v.rad.busyTo := (congrArg RadSt.busyTo hrad :)
  exact ⟨hflyKept.trans hfly, (hbusyKept.trans hbusy).trans (by rw [hslots]), (hw.trans hvnv).trans hnv⟩

/-- A forfeited slot, of the beacon or of a transaction, is counted and logged. -/
theorem forfeited_shows (s : State) {lo : Nat} (hlo : lo + 16 ≤ 32) (c : Nat) (l : List Byte) :
    let t := (((s.setRad { s.rad with waiting := none }).setBit Reg.RAD_IRQ 1 true).incSat Reg.RAD_CNTFORFEIT lo 16 1).logS c l
    t.rad = { s.rad with waiting := none } ∧ t.fld Reg.RAD_CNTFORFEIT lo 16 = min (s.fld Reg.RAD_CNTFORFEIT lo 16 + 1) 0xFFFF
      ∧ (∀ lo', lo' + 16 ≤ lo → t.fld Reg.RAD_CNTFORFEIT lo' 16 = s.fld Reg.RAD_CNTFORFEIT lo' 16) ∧ RegsBut s t ([Reg.RAD_CNTFORFEIT, Reg.RAD_IRQ] ++ logRegs 0) ∧ SameMem s t := by
  have hwait : RegsBut s (s.setRad { s.rad with waiting := none }) ([Reg.RAD_CNTFORFEIT, Reg.RAD_IRQ] ++ logRegs 0) := RegsBut.of_regs rfl
  have hirq := hwait.setBit 1 true (a := Reg.RAD_IRQ) (by decide)
  have hfld (lo' : Nat) : ((s.setRad { s.rad with waiting := none }).setBit Reg.RAD_IRQ 1 true).fld Reg.RAD_CNTFORFEIT lo' 16 = s.fld Reg.RAD_CNTFORFEIT lo' 16 :=
    State.fld_setBit_ne _ _ _ _ _ (by decide)
  dsimp only
  refine ⟨by rw [State.logS_rad, State.incSat_rad, State.setBit_rad]; rfl, ?_, fun lo' hlow => ?_, (hirq.incSat _ _ _ (by decide)).logS _ _ fun a ha => List.mem_append_right _ ha,
    SameMem.of_mem (by rw [State.logS_mem, State.incSat_mem, State.setBit_mem]; rfl)⟩
  · rw [State.fld_logS _ _ _ _ _ (by decide), State.fld_incSat_self _ _ hlo, hfld]
    rfl
  · rw [State.fld_logS _ _ _ _ _ (by decide), State.incSat, State.fld_setFld_other _ _ hlo (by omega), hfld]

theorem doSlotForfeit_beacon {s : State} (us : Nat) (hwait : s.rad.waiting = some 0) : ∃ l, doSlotForfeit s 0 us =
    (((s.setRad { s.rad with waiting := none }).setBit Reg.RAD_IRQ 1 true).incSat Reg.RAD_CNTFORFEIT 16 16 1).logS 0x0901 l := by
  unfold doSlotForfeit
  dsimp only
  rw [if_neg (not_not_intro hwait), if_pos rfl]
  exact ⟨_, rfl⟩

theorem doSlotForfeit_slot {s : State} {slot : Nat} (us : Nat) (hslot : slot ≠ 0) (hwait : s.rad.waiting = some slot) : ∃ l, doSlotForfeit s slot us =
    (((s.setRad { s.rad with waiting := none }).setBit Reg.RAD_IRQ 1 true).incSat Reg.RAD_CNTFORFEIT 0 16 1).logS 0x0902 l := by
  unfold doSlotForfeit
  dsimp only
  rw [if_neg (not_not_intro hwait), if_neg hslot]
  exact ⟨_, rfl⟩

theorem doRadioSubmit_queued {s : State} {tag : Nat} (cls : Nat) (h : s.txState tag = txQueued) :
    doRadioSubmit s tag cls = (s.setRad { s.rad with queue := s.rad.queue ++ [(tag % 32768, cls % 4)] }).showTx := if_neg (not_not_intro h)

theorem State.showTx_rad (s : State) : s.showTx.rad = s.rad := by
  unfold State.showTx
  dsimp only
  rw [State.setBit_rad, State.setBit_rad, State.setFld_rad, State.setFld_rad, State.setFld_rad, State.setFld_rad]

theorem State.showTx_mem (s : State) : s.showTx.mem = s.mem := by
  unfold State.showTx
  dsimp only
  rw [State.setBit_mem, State.setBit_mem, State.setFld_mem, State.setFld_mem, State.setFld_mem, State.setFld_mem]

/-! Answers on the air (R209, R213, R214) -/

theorem State.openAir_atUs (s : State) (us t : Nat) (air : List Byte) : (s.atUs us).openAir t air = s.openAir t air := by
  have hsession : (s.atUs us).rdN Reg.RAD_SESSION = s.rdN Reg.RAD_SESSION := State.rdN_atUs_ne _ _ (by decide)
  have hstroke : (s.atUs us).strokeNo = s.strokeNo := State.rdN_atUs_ne _ _ (by decide)
  unfold State.openAir
  dsimp only
  rw [hsession, hstroke]
  rfl

/-- A seat's answer on the radio is remembered for the seat; nothing of the table changes. -/
theorem State.synced_shows (s : State) (n : Nat) : ((s.synced n).seat n).radioOk = true ∧ (s.synced n).mem = s.mem := by
  obtain ⟨hself, -⟩ := s.seat_setSeat n { s.seat n with radioOk := true }
  have hok : ((s.updSeat n (fun x => { x with radioOk := true })).seat n).radioOk = true := by rw [State.updSeat, hself]
  have hmem : (s.updSeat n (fun x => { x with radioOk := true })).mem = s.mem := rfl
  unfold State.synced
  dsimp only
  generalize s.updSeat n (fun x => { x with radioOk := true }) = u at hok hmem ⊢
  split
  · split
    · generalize hv : u.setRad _ = v
      have hseats : v.seats = u.seats := by rw [← hv]; rfl
      have hvmem : v.mem = u.mem := by rw [← hv]; rfl
      refine ⟨?_, ?_⟩
      · rw [State.seat_of_seats ((State.logS_seats ..).trans ((State.setFld_seats ..).trans hseats)), hok]
      · rw [State.logS_mem, State.setFld_mem, hvmem, hmem]
    · exact ⟨hok, hmem⟩
  · exact ⟨hok, hmem⟩

/-- The last answer that a tag keeps on the radio is the one kept last. -/
theorem State.rgotOf_keepRgot (s : State) (t : Nat) (f : Frame) : (s.keepRgot t (some f)).rgotOf t = some f := by
  have hnone : (s.chn.rgot.filter (fun (g : Nat × Frame) => decide (g.1 ≠ t))).find? (fun g => decide (g.1 = t)) = none := by
    rw [List.find?_eq_none]
    intro g hg
    simpa using (List.mem_filter.mp hg).2
  unfold State.rgotOf State.keepRgot State.setChn
  rw [List.find?_append, hnone, Option.none_or, List.find?_cons_of_pos (by simp)]
  rfl

/-- A head that an answer on the radio stamps, before its data. -/
def State.radioStamped (s : State) (t us : Nat) (f : Frame) : State := ((s.keepRgot t (some f)).setHd t 0x12 2 us).setHd t 0x19 1 f.payload.length

theorem State.fillRadio_eq (s : State) (t us : Nat) (f : Frame) : s.fillRadio t us f =
    if (s.radioStamped t us f).hd t 0xE 2 = 0xFFFF then s.radioStamped t us f else (s.radioStamped t us f).wrBytes
      (txAddr ((s.radioStamped t us f).hd t 0xE 2 + dataCount ((s.radioStamped t us f).hd t 7 1))) (f.payload.take (32 * dataCount ((s.radioStamped t us f).hd t 7 1))) := rfl

theorem State.radioStamped_hd (s : State) (t us : Nat) (f : Frame) {off n : Nat} (h : off + n ≤ 0x12) : (s.radioStamped t us f).hd t off n = s.hd t off n := by
  rw [State.radioStamped, State.hd_setHd_other _ _ _ (by omega), State.hd_setHd_other _ _ _ (by omega)]
  exact State.hd_of_mem (s := s) (t := s.keepRgot t (some f)) rfl t off n

theorem State.radioStamped_shows (s : State) {t us : Nat} {f : Frame} (hus : us < 2 ^ 15) (hlen : f.payload.length < 256) : let u := s.radioStamped t us f
    u.hd t 0x12 2 = us ∧ u.hd t 0x19 1 = f.payload.length ∧ u.rgotOf t = some f ∧ u.seats = s.seats := by
  have hkept := s.rgotOf_keepRgot t f
  have hchn : (s.radioStamped t us f).chn = (s.keepRgot t (some f)).chn := by
    rw [State.radioStamped, State.setHd, State.st_chn, State.setHd, State.st_chn]
  refine ⟨?_, State.hd_setHd_self _ _ _ (by omega), ?_, ?_⟩
  · rw [State.radioStamped, State.hd_setHd_other _ _ _ (by omega), State.hd_setHd_self _ _ _ (by omega)]
  · rw [State.rgotOf] at hkept ⊢
    rw [hchn, hkept]
  · rw [State.radioStamped, State.setHd, State.st_seats, State.setHd, State.st_seats]
    rfl

/-- An answer whose data lie apart from the head fills in the time, the length and the data of its transaction. -/
theorem State.fillRadio_shows {s : State} {t us : Nat} {f : Frame} (hus : us < 2 ^ 15) (hlen : f.payload.length < 256)
    (hapart : s.hd t 0xE 2 = 0xFFFF ∨ (s.hd t 0xE 2 + 2 * dataCount (s.hd t 7 1) ≤ 32768 ∧ (t % 32768 < s.hd t 0xE 2 ∨ s.hd t 0xE 2 + 2 * dataCount (s.hd t 7 1) ≤ t % 32768))) :
    let u := s.fillRadio t us f
    u.hd t 0x12 2 = us ∧ u.hd t 0x19 1 = f.payload.length ∧ u.rgotOf t = some f ∧ u.seats = s.seats := by
  obtain ⟨htime, hsize, hgot, hseats⟩ := s.radioStamped_shows (t := t) hus hlen
  dsimp only
  rw [State.fillRadio_eq, State.radioStamped_hd _ _ _ _ (by decide), State.radioStamped_hd _ _ _ _ (by decide)]
  generalize s.radioStamped t us f = v at htime hsize hgot hseats ⊢
  obtain hdata | ⟨hin, hout⟩ := hapart
  · rw [if_pos hdata]
    exact ⟨htime, hsize, hgot, hseats⟩
  · rw [if_neg (by omega)]
    have htake : (f.payload.take (32 * dataCount (s.hd t 7 1))).length ≤ 32 * dataCount (s.hd t 7 1) := List.length_take_le ..
    refine ⟨?_, ?_, ?_, (State.wrBytes_seats ..).trans hseats⟩
    · rw [State.hd, State.ld_wrBytes_out _ _ _ _ (by unfold txAddr; omega)]
      exact htime
    · rw [State.hd, State.ld_wrBytes_out _ _ _ _ (by unfold txAddr; omega)]
      exact hsize
    · rw [State.rgotOf, State.wrBytes_chn]
      exact hgot

/-- The state in which an answer is filled in: the channel's use counts, and its seat answered. -/
def State.airHeard (s : State) (us seat : Nat) : State := ((s.atUs us).mapAttempt (s.fld Reg.RAD_STAT 8 6) false).synced seat

theorem State.airHeard_shows (s : State) (us seat : Nat) : ((s.airHeard us seat).seat seat).radioOk = true ∧ (s.airHeard us seat).mem = s.mem := by
  obtain ⟨hok, hmem⟩ := State.synced_shows ((s.atUs us).mapAttempt (s.fld Reg.RAD_STAT 8 6) false) seat
  exact ⟨hok, hmem.trans (State.mapAttempt_map (s.atUs us) (State.fld_lt ..) false).mem⟩

theorem State.fld_stat_atUs (s : State) (us : Nat) : (s.atUs us).fld Reg.RAD_STAT 8 6 = s.fld Reg.RAD_STAT 8 6 := State.fld_atUs_ne _ _ _ _ (by decide)

theorem doRadioResponse_answered {s : State} {air : List Byte} {f : Frame} {us t : Nat} (hfly : s.rad.fly = some t) (hopen : s.openAir t air = .good f) (hans : s.answers t (s.hd t 2 1) f = true)
    (hrsp : f.flag flagRsp = true) (hnak : isNak f = false) : doRadioResponse s air us = ((s.airHeard us f.seat).fillRadio t us f).radioEnd t 1 := by
  have hmem : ((s.atUs us).mapAttempt (s.fld Reg.RAD_STAT 8 6) false).mem = s.mem := (State.mapAttempt_map (s.atUs us) (State.fld_lt ..) false).mem
  have hanswers : ((s.atUs us).mapAttempt (s.fld Reg.RAD_STAT 8 6) false).answers t (((s.atUs us).mapAttempt (s.fld Reg.RAD_STAT 8 6) false).hd t 2 1) f = true := by
    rw [← hans, State.answers, State.answers, State.hd_of_mem hmem, State.hd_of_mem hmem, State.hd_of_mem hmem]
  have hfly' : (s.atUs us).rad.fly = some t := hfly
  unfold doRadioResponse
  dsimp only
  rw [hfly']
  dsimp only
  rw [State.openAir_atUs, hopen, State.fld_stat_atUs]
  dsimp only
  rw [if_neg (by rw [hanswers, hrsp]; decide), if_neg (by rw [nakRetried, hnak, Bool.false_and]; decide), if_neg (by rw [hnak]; decide)]
  rfl

theorem doRadioResponse_mic {s : State} {air : List Byte} {us t : Nat} (hfly : s.rad.fly = some t) (hopen : s.openAir t air = .mic) :
    doRadioResponse s air us = (((s.atUs us).incSat Reg.RAD_CNTMIC 0 16 1).mapAttempt (s.fld Reg.RAD_STAT 8 6) true).radioFail t 3 none := by
  have hfly' : (s.atUs us).rad.fly = some t := hfly
  unfold doRadioResponse
  dsimp only
  rw [hfly']
  dsimp only
  rw [State.openAir_atUs, hopen, State.fld_stat_atUs]

theorem doRadioTimeout_flying {s : State} {us t : Nat} (hfly : s.rad.fly = some t) :
    doRadioTimeout s us = (((s.atUs us).incSat Reg.RAD_CNTTMO 0 16 1).mapAttempt (s.fld Reg.RAD_STAT 8 6) true).radioFail t 2 none := by
  have hfly' : (s.atUs us).rad.fly = some t := hfly
  unfold doRadioTimeout
  dsimp only
  rw [hfly']
  dsimp only
  rw [State.fld_stat_atUs]

/-! The join buffer (R219) -/

/-- The JCOUNT of a seat is kept in the non-volatile store. -/
def State.countJoin (s : State) (seat jcount : Nat) : State :=
  { s with nv := { s.nv with rad := { s.nv.rad with jcounts := Tab.put 0 s.nv.rad.jcounts seat jcount } } }

theorem doJoinRequest_accepted {s : State} {air : List Byte} (hlisten : s.listens = true) (hkind : (joinReq air).kind = 3) (hgen : s.joinGenuine air = true)
    (hserial : s.serialOf (joinReq air).seat = some (joinReq air).serial) (hnew : Tab.get 0 s.nv.rad.jcounts (joinReq air).seat < (joinReq air).jcount) :
    doJoinRequest s air = s.bufferJoin (joinReq air).seat (joinReq air).jcount := by
  unfold doJoinRequest
  dsimp only
  rw [if_neg (by simp [hlisten, hkind]), if_neg (by simp [hgen]), if_neg (by simp [hserial]), if_neg (by omega)]

theorem doJoinRequest_ignored {s : State} {air : List Byte} (h : s.listens = false ∨ (joinReq air).kind ≠ 3) : doJoinRequest s air = s :=
  if_pos (by simpa using h)

/-- Of a request that fails a check only the reason of its record differs. -/
theorem doJoinRequest_refused {s : State} {air : List Byte} (hlisten : s.listens = true) (hkind : (joinReq air).kind = 3)
    (h : s.joinGenuine air = false ∨ s.serialOf (joinReq air).seat ≠ some (joinReq air).serial ∨ (joinReq air).jcount ≤ Tab.get 0 s.nv.rad.jcounts (joinReq air).seat) :
    ∃ why, doJoinRequest s air = s.refuseJoin (joinReq air).seat (joinReq air).serial why := by
  unfold doJoinRequest
  dsimp only
  rw [if_neg (by simp [hlisten, hkind])]
  split
  · exact ⟨1, rfl⟩
  · next hgen =>
    split
    · exact ⟨2, rfl⟩
    · next hserial =>
      rw [if_pos (by simpa [hserial, Bool.not_eq_true] using h.resolve_left (by simpa using hgen))]
      exact ⟨3, rfl⟩

theorem State.refuseJoin_shows (s : State) (seat serial why : Nat) : let t := s.refuseJoin seat serial why
    t.fld Reg.RAD_CNTUNPAIRED 0 16 = min (s.fld Reg.RAD_CNTUNPAIRED 0 16 + 1) 0xFFFF ∧ t.bit Reg.RAD_IRQ 3 = true ∧ t.rad.joins = s.rad.joins ∧ t.nv = s.nv
      ∧ RegsBut s t ([Reg.RAD_CNTUNPAIRED, Reg.RAD_IRQ] ++ logRegs 0) ∧ SameMem s t := by
  have hcount : ((s.incSat Reg.RAD_CNTUNPAIRED 0 16 1).setBit Reg.RAD_IRQ 3 true).fld Reg.RAD_CNTUNPAIRED 0 16 = min (s.fld Reg.RAD_CNTUNPAIRED 0 16 + 1) 0xFFFF := by
    rw [State.fld_setBit_ne _ _ _ _ _ (by decide), State.fld_incSat_self _ _ (by decide)]
    rfl
  have hirq : ((s.incSat Reg.RAD_CNTUNPAIRED 0 16 1).setBit Reg.RAD_IRQ 3 true).bit Reg.RAD_IRQ 3 = true := State.bit_setBit_self _ _ (by decide)
  have honly : RegsBut s ((s.incSat Reg.RAD_CNTUNPAIRED 0 16 1).setBit Reg.RAD_IRQ 3 true) ([Reg.RAD_CNTUNPAIRED, Reg.RAD_IRQ] ++ logRegs 0) :=
    ((RegsBut.refl s _).incSat _ _ _ (by decide)).setBit _ _ (by decide)
  have hrad : ((s.incSat Reg.RAD_CNTUNPAIRED 0 16 1).setBit Reg.RAD_IRQ 3 true).rad = s.rad := rfl
  have hnv : ((s.incSat Reg.RAD_CNTUNPAIRED 0 16 1).setBit Reg.RAD_IRQ 3 true).nv = s.nv := rfl
  have hmem : ((s.incSat Reg.RAD_CNTUNPAIRED 0 16 1).setBit Reg.RAD_IRQ 3 true).mem = s.mem := rfl
  unfold State.refuseJoin
  dsimp only
  generalize (s.incSat Reg.RAD_CNTUNPAIRED 0 16 1).setBit Reg.RAD_IRQ 3 true = u at hcount hirq honly hrad hnv hmem ⊢
  split
  · exact ⟨hcount, hirq, by rw [hrad], hnv, honly, SameMem.of_mem hmem⟩
  · generalize hv : u.setRad { u.rad with refused := u.rad.refused ++ [seat] } = v
    have hregs : v.regs = u.regs := by rw [← hv]; rfl
    have hjoins : v.rad.joins = u.rad.joins := by rw [← hv]; rfl
    refine ⟨?_, ?_, ?_, ?_, ?_, ?_⟩
    · rw [State.fld_logS _ _ _ _ _ (by decide), State.fld_of_regs hregs, hcount]
    · rw [State.bit_logS _ _ _ _ (by decide), State.bit_of_regs hregs, hirq]
    · rw [State.logS_rad, hjoins, hrad]
    · rw [State.logS_nv, ← hv]
      exact hnv
    · exact (honly.trans (RegsBut.of_regs hregs)).logS _ _ fun a ha => List.mem_append_right _ ha
    · refine SameMem.of_mem ?_
      rw [State.logS_mem, ← hv]
      exact hmem

/-- What a new entry of the join buffer shows. -/
def State.showJoin (s : State) (seat idx : Nat) : State :=
  let s := (s.setFld Reg.RAD_JOINSTAT 0 9 s.rad.joins.length).setBit Reg.RAD_IRQ 2 true
  if s.rdN Reg.RAD_JOINRD = 0 then s.wrN Reg.RAD_JOINRD (seat + idx % 256 * 256 + 2 ^ 31) else s

theorem State.showJoin_shows (s : State) (seat idx : Nat) (hlen : s.rad.joins.length ≤ 256) : let t := s.showJoin seat idx
    t.fld Reg.RAD_JOINSTAT 0 9 = s.rad.joins.length ∧ t.bit Reg.RAD_IRQ 2 = true ∧ OnlyRegs s t [Reg.RAD_JOINSTAT, Reg.RAD_IRQ, Reg.RAD_JOINRD] := by
  have hcount : ((s.setFld Reg.RAD_JOINSTAT 0 9 s.rad.joins.length).setBit Reg.RAD_IRQ 2 true).fld Reg.RAD_JOINSTAT 0 9 = s.rad.joins.length := by
    rw [State.fld_setBit_ne _ _ _ _ _ (by decide), State.fld_setFld_self _ _ (by decide)]
    exact Nat.mod_eq_of_lt (by omega)
  have hirq : ((s.setFld Reg.RAD_JOINSTAT 0 9 s.rad.joins.length).setBit Reg.RAD_IRQ 2 true).bit Reg.RAD_IRQ 2 = true := State.bit_setBit_self _ _ (by decide)
  have honly : OnlyRegs s ((s.setFld Reg.RAD_JOINSTAT 0 9 s.rad.joins.length).setBit Reg.RAD_IRQ 2 true) [Reg.RAD_JOINSTAT, Reg.RAD_IRQ, Reg.RAD_JOINRD] :=
    ((OnlyRegs.refl s _).setFld _ _ _ (by decide)).setBit _ _ (by decide)
  unfold State.showJoin
  dsimp only
  generalize (s.setFld Reg.RAD_JOINSTAT 0 9 s.rad.joins.length).setBit Reg.RAD_IRQ 2 true = u at hcount hirq honly ⊢
  split
  · exact ⟨(State.fld_wrN_ne u _ _ _ (by decide)).trans hcount, (State.bit_wrN_ne u _ _ (by decide)).trans hirq, honly.trans ((OnlyRegs.wrN u _ _).mono (by decide))⟩
  · exact ⟨hcount, hirq, honly⟩

theorem State.bufferJoin_new {s : State} {seat : Nat} (jcount : Nat) (hnone : ∀ j ∈ s.rad.joins, j.1 ≠ seat) (hroom : s.rad.joins.length < 256) : s.bufferJoin seat jcount =
    ((s.countJoin seat jcount).setRad { s.rad with joins := s.rad.joins ++ [(seat, s.rad.joinNext, jcount)], joinNext := s.rad.joinNext + 1 }).showJoin seat s.rad.joinNext := by
  have hno : ¬ s.rad.joins.any (fun j => decide (j.1 = seat)) = true := by
    rw [List.any_eq_true]
    rintro ⟨j, hj, hseat⟩
    exact hnone j hj (of_decide_eq_true hseat)
  unfold State.bufferJoin
  dsimp only
  rw [if_neg hno, if_neg (by omega)]
  rfl

theorem State.bufferJoin_again {s : State} {seat : Nat} (jcount : Nat) (h : ∃ j ∈ s.rad.joins, j.1 = seat) : s.bufferJoin seat jcount =
    (s.countJoin seat jcount).setRad { s.rad with
      joins := s.rad.joins.map (fun j => if j.1 = seat then (j.1, j.2.1, jcount) else j), granted := s.rad.granted.filter (fun g => decide (g ≠ seat)) } := by
  have hyes : s.rad.joins.any (fun j => decide (j.1 = seat)) = true := by simpa using h
  unfold State.bufferJoin
  dsimp only
  rw [if_pos hyes]
  rfl

/-- A repeated request keeps the seats and indices of the buffer and takes the newer count. -/
theorem rejoined_shows (joins : List (Nat × Nat × Nat)) (seat jcount : Nat) :
    (joins.map (fun j => if j.1 = seat then (j.1, j.2.1, jcount) else j)).map (fun j => (j.1, j.2.1)) = joins.map (fun j => (j.1, j.2.1))
      ∧ ∀ j ∈ joins.map (fun j => if j.1 = seat then (j.1, j.2.1, jcount) else j), j.1 = seat → j.2.2 = jcount := by
  refine ⟨?_, fun j hj hseat => ?_⟩
  · rw [List.map_map]
    refine List.map_congr_left fun j _ => ?_
    rw [Function.comp_apply]
    split <;> rfl
  · obtain ⟨i, -, rfl⟩ := List.mem_map.mp hj
    by_cases hi : i.1 = seat
    · rw [if_pos hi]
    · rw [if_neg hi] at hseat
      exact absurd hseat hi

theorem radioSlotsAndLock_holds : radioSlotsAndLock := by
  unfold radioSlotsAndLock
  refine ⟨fun s hon hjoin => ?joinTune, fun s hon hjoin hset => ?hopTune, fun s hon hbeacon hjoin => ?beacon, State.sendBeacon_frame, fun s slot tag hon hjoin hlow hin hfly hfree hpick => ?slot,
    fun s slot tag => s.sendRadio_shows tag slot, fun s us hon hwait => ?lock, fun s us hon hwait => ?lockBeacon, fun s hon hlock => ?loss, fun s hon hsettle => ?timeout, fun s hawake => ?calibrateNow,
    fun s us hwait => ?forfeitBeacon, fun s slot us hslot hwait => ?forfeitSlot, fun s tag cls hawake hstate => ?badSubmit, fun s tag cls hawake hstate => ?submit,
    fun s air f us t hus hfly hopen hans hrsp hnak hapart => ?answered, fun s air us t _ hfly hopen => ?mic, fun s us t _ hfly => ?airTimeout, fun s ch hover => ?quarantine⟩
  case joinTune => exact ⟨_, congrArg Host.Outcome.next (doRadioRetune_join hon hjoin), retuned_shows s (State.fld_lt ..)⟩
  case hopTune =>
    obtain ⟨hch, hlock, -, hrest⟩ := retuned_shows s (s.hopset_lt (7 * ((s.strokeNo + 1) % 2 ^ 32) % 16))
    exact ⟨_, congrArg Host.Outcome.next (doRadioRetune_hops hon hjoin hset), hch, hlock, hrest⟩
  case beacon =>
    have hgoes : ¬((!s.radOn) = true ∨ (!s.bit Reg.RAD_CTRL 1) = true ∨ s.bit Reg.RAD_CTRL 2 = true) := by simp [hon, hbeacon, hjoin]
    refine ⟨fun hlock => congrArg Host.Outcome.next ?_, fun hlock => ⟨_, congrArg Host.Outcome.next ?_, rfl⟩⟩
    · rw [doBeacon, if_neg hgoes, if_pos hlock]
    · rw [doBeacon, if_neg hgoes, if_neg (by rw [hlock]; decide)]
      rfl
  case slot =>
    refine ⟨fun hlock => congrArg Host.Outcome.next ?_, fun hlock => ⟨_, congrArg Host.Outcome.next ?_, rfl⟩⟩
    · rw [doRadioSlot_picks hon hjoin hlow hin hfly hfree hpick, if_pos hlock]
    · rw [doRadioSlot_picks hon hjoin hlow hin hfly hfree hpick, if_neg (by rw [hlock]; decide)]
      rfl
  case lock => exact ⟨_, congrArg Host.Outcome.next (doLockAcquired_eq us hon hwait), s.radStat_lock _ _ _, s.radStat_settle _ _ _, s.radStat_only _ _ _⟩
  case lockBeacon =>
    have hlock := s.radStat_lock true false false
    obtain ⟨hregs, hmem, heq⟩ := s.radStat_only true false false
    have hstroke : (s.radStat true false false).strokeNo = s.strokeNo := State.rdN_of_rd (hregs _ (by decide))
    refine ⟨_, congrArg Host.Outcome.next (doLockAcquired_beacon us hon hwait), ?_⟩
    generalize s.radStat true false false = u at hlock hregs hmem heq hstroke ⊢
    have hrad : u.rad = s.rad := (congrArg State.rad heq :)
    obtain ⟨sealed, hsent⟩ := u.sendBeacon_frame us
    rw [hsent, hstroke, hrad]
    exact ⟨hlock, rfl, List.length_append, hregs, hmem⟩
  case loss =>
    refine ⟨_, congrArg Host.Outcome.next (if_pos ⟨hon, hlock⟩), ?_, ?_, State.bit_setBit_self _ _ (by decide), ?_⟩
    · rw [State.radLocked, State.bit_setBit_ne _ _ _ _ (by decide), State.radStat_lock]
    · rw [State.bit_setBit_ne _ _ _ _ (by decide), State.radStat_settle]
    · exact ((s.radStat_only false true false).mono (by decide)).setBit _ _ (by decide)
  case timeout => exact ⟨_, congrArg Host.Outcome.next (if_pos ⟨hon, hsettle⟩), s.calibrate_shows 3⟩
  case calibrateNow => exact Does.byRequester hawake rfl rfl
  case forfeitBeacon =>
    obtain ⟨l, heq⟩ := doSlotForfeit_beacon us hwait
    obtain ⟨hrad, hcount, hother, hregs, hmem⟩ := forfeited_shows s (lo := 16) (by decide) 0x0901 l
    exact ⟨_, congrArg Host.Outcome.next heq, hrad, hcount, hother 0 (by decide), hregs, hmem⟩
  case forfeitSlot =>
    obtain ⟨l, heq⟩ := doSlotForfeit_slot us hslot hwait
    obtain ⟨hrad, hcount, -, hregs, hmem⟩ := forfeited_shows s (lo := 0) (by decide) 0x0902 l
    exact ⟨_, congrArg Host.Outcome.next heq, hrad, hcount, hregs, hmem⟩
  case badSubmit =>
    refine Does.byRequester hawake rfl ?_
    rw [doRadioSubmit, if_pos hstate]
    exact ⟨by rw [State.fld_incSat_self _ _ (by decide)]; rfl, (RegsBut.refl s _).incSat _ _ _ (by decide), SameMem.of_mem (State.incSat_mem ..), rfl⟩
  case submit =>
    refine Does.byRequester hawake rfl ?_
    rw [doRadioSubmit_queued cls hstate]
    generalize hu : s.setRad { s.rad with queue := s.rad.queue ++ [(tag % 32768, cls % 4)] } = u
    have hregs : u.regs = s.regs := by rw [← hu]; rfl
    have hrad : u.rad = { s.rad with queue := s.rad.queue ++ [(tag % 32768, cls % 4)] } := by rw [← hu]; rfl
    have hmem : u.mem = s.mem := by rw [← hu]; rfl
    exact ⟨u.showTx_rad.trans hrad, (RegsBut.of_regs hregs).trans (u.showTx_issue.regs.mono (by decide)), SameMem.of_mem (u.showTx_mem.trans hmem)⟩
  case answered =>
    obtain ⟨hok, hmem⟩ := s.airHeard_shows us f.seat
    have hlen : f.payload.length < 256 := by
      have hhd := s.hd_lt t 7 1
      rw [State.answers, hnak, Bool.false_or, Bool.and_eq_true, decide_eq_true_eq] at hans
      omega
    refine ⟨(s.airHeard us f.seat).fillRadio t us f, congrArg Host.Outcome.next (doRadioResponse_answered hfly hopen hans hrsp hnak), ?_⟩
    generalize s.airHeard us f.seat = v at hok hmem
    have hhd (off n : Nat) : v.hd t off n = s.hd t off n := State.hd_of_mem hmem t off n
    obtain ⟨htime, hsize, hgot, hseats⟩ := State.fillRadio_shows (s := v) (t := t) hus hlen (by simpa only [hhd] using hapart)
    exact ⟨htime, hsize, hgot, (congrArg SeatSt.radioOk (State.seat_of_seats hseats f.seat)).trans hok⟩
  case mic => exact ⟨_, congrArg Host.Outcome.next (doRadioResponse_mic hfly hopen), failedOn_shows s us (by decide)⟩
  case airTimeout => exact ⟨_, congrArg Host.Outcome.next (doRadioTimeout_flying hfly), failedOn_shows s us (by decide)⟩
  case quarantine => exact ⟨_, congrArg Host.Outcome.next (if_pos hover), quarantineOver_shows s ch⟩

theorem joiningTheRadio_holds : joiningTheRadio := by
  unfold joiningTheRadio
  refine ⟨fun s air hlisten hkind hgen hserial hnew => ⟨fun hnone hroom => ?joins, fun hin => ?again⟩, fun s air hlisten hkind hfails => ?refused, fun s seat hawake => ?grant, fun s air h => ?ignored⟩
  case joins =>
    refine ⟨_, congrArg Host.Outcome.next ((doJoinRequest_accepted hlisten hkind hgen hserial hnew).trans (State.bufferJoin_new _ hnone hroom)), ?_⟩
    generalize hu : (s.countJoin (joinReq air).seat (joinReq air).jcount).setRad
      { s.rad with joins := s.rad.joins ++ [((joinReq air).seat, s.rad.joinNext, (joinReq air).jcount)], joinNext := s.rad.joinNext + 1 } = u
    have hrad : u.rad = { s.rad with joins := s.rad.joins ++ [((joinReq air).seat, s.rad.joinNext, (joinReq air).jcount)], joinNext := s.rad.joinNext + 1 } := by rw [← hu]; rfl
    have hregs : u.regs = s.regs := by rw [← hu]; rfl
    have hmem : u.mem = s.mem := by rw [← hu]; rfl
    have hcounts : u.nv.rad.jcounts = Tab.put 0 s.nv.rad.jcounts (joinReq air).seat (joinReq air).jcount := by rw [← hu]; rfl
    have hlen : u.rad.joins.length = s.rad.joins.length + 1 := by rw [hrad, List.length_append]; rfl
    obtain ⟨hcount, hirq, honly, hbytes, heq⟩ := u.showJoin_shows (joinReq air).seat s.rad.joinNext (by omega)
    generalize u.showJoin (joinReq air).seat s.rad.joinNext = t at hcount hirq honly hbytes heq ⊢
    have hnv : t.nv.rad.jcounts = u.nv.rad.jcounts := (congrArg (fun v => v.nv.rad.jcounts) heq :)
    have hkept : t.rad = u.rad := (congrArg State.rad heq :)
    refine ⟨hkept.trans hrad, ?_, fun m hm => ?_, hcount.trans hlen, hirq, RegsBut.trans (RegsBut.of_regs hregs) honly, fun a => ?_⟩
    · rw [hnv, hcounts, Tab.get_put_self]
    · rw [hnv, hcounts, Tab.get_put_ne _ _ _ _ hm.symm]
    · exact (hbytes a).trans (SameMem.of_mem hmem a)
  case again =>
    refine ⟨_, congrArg Host.Outcome.next ((doJoinRequest_accepted hlisten hkind hgen hserial hnew).trans (State.bufferJoin_again _ hin)), ?_⟩
    obtain ⟨hmap, hcount⟩ := rejoined_shows s.rad.joins (joinReq air).seat (joinReq air).jcount
    exact ⟨hmap, hcount, rfl, SameMem.of_mem rfl⟩
  case refused =>
    obtain ⟨why, heq⟩ := doJoinRequest_refused hlisten hkind hfails
    exact ⟨_, congrArg Host.Outcome.next heq, s.refuseJoin_shows _ _ why⟩
  case grant => exact Does.byRequester hawake rfl rfl
  case ignored => exact congrArg Host.Outcome.next (doJoinRequest_ignored h)

/-- Settles O34: each event of the radio by what it leaves unchanged, and each join request by the check that it passes or fails. -/
theorem radioAndJoining : Obligations.RadioAndJoining := ⟨radioSlotsAndLock_holds, joiningTheRadio_holds⟩

end Sys2Proof.Machine
end

section
/-!
PROOFS. Coil drivers, the pump, contacts and strings (R229 to R248, R417, R420): what an order to an output, a coil that falls, a weld and an entry into easy leave of the outputs and of the strings. They settle O35.
-/

namespace Sys2Proof.Machine

/-! Coils that fall (R230, R417) -/

theorem State.coil_updCoil_self (s : State) (c : Nat) (f : CoilSt → CoilSt) : (s.updCoil c f).coil c = f (s.coil c) := Tab.get_put_self ..

theorem State.coil_of_ctr {s t : State} (h : t.ctr.coils = s.ctr.coils) (c : Nat) : t.coil c = s.coil c := by rw [State.coil, State.coil, h]

theorem State.str_of_strs {s t : State} (h : t.ctr.strs = s.ctr.strs) (i : Nat) : t.str i = s.str i := by rw [State.str, State.str, h]

theorem State.strOfCoil_of_inForce {s t : State} (h : t.inForce = s.inForce) (c : Nat) : t.strOfCoil c = s.strOfCoil c := by
  rw [State.strOfCoil, State.strOfCoil, State.parS_of_inForce h]

theorem State.fallCoil_shows (s : State) (c : Nat) (drop : Bool) : let t := s.fallCoil c drop
    RegsBut s t [Reg.CTR_IMEAS c] ∧ t.mem = s.mem ∧ t.ctr.strs = s.ctr.strs ∧ t.inForce = s.inForce := by
  refine ⟨(RegsBut.refl s _).fallCoil drop List.mem_cons_self, ?_⟩
  unfold State.fallCoil State.coilSense
  dsimp only
  rw [if_pos rfl]
  split <;> exact ⟨rfl, rfl, rfl⟩

/-- The registers of an output that a driver fault turns off. -/
def State.driverOff (s : State) (c bit : Nat) : State :=
  (((((s.setBit Reg.CTR_STAT c false).setBit Reg.CTR_STAT (16 + c) false).setBit Reg.CTR_PHASE c false).setBit Reg.CTR_OUT c false).setBit Reg.CTR_FAULT bit true).setBit Reg.CTR_IRQ 0 true

theorem State.driverOff_shows (s : State) {c bit : Nat} (hc : c < 12) (hbit : bit < 32) : let t := s.driverOff c bit
    t.bit Reg.CTR_STAT c = false ∧ t.bit Reg.CTR_OUT c = false ∧ t.bit Reg.CTR_FAULT bit = true ∧ t.bit Reg.CTR_IRQ 0 = true
      ∧ OnlyRegs s t [Reg.CTR_STAT, Reg.CTR_PHASE, Reg.CTR_OUT, Reg.CTR_FAULT, Reg.CTR_IRQ] := by
  unfold State.driverOff
  refine ⟨?_, ?_, ?_, State.bit_setBit_self _ _ (by decide), ?_⟩
  · rw [State.bit_setBit_ne _ _ _ _ (by decide), State.bit_setBit_ne _ _ _ _ (by decide), State.bit_setBit_ne _ _ _ _ (by decide), State.bit_setBit_ne _ _ _ _ (by decide),
      State.bit_setBit_other _ _ (by omega) (by omega), State.bit_setBit_self _ _ (by omega)]
  · rw [State.bit_setBit_ne _ _ _ _ (by decide), State.bit_setBit_ne _ _ _ _ (by decide), State.bit_setBit_self _ _ (by omega)]
  · rw [State.bit_setBit_ne _ _ _ _ (by decide), State.bit_setBit_self _ _ hbit]
  · exact ((((((OnlyRegs.refl s _).setBit _ _ (by decide)).setBit _ _ (by decide)).setBit _ _ (by decide)).setBit _ _ (by decide)).setBit _ _ (by decide)).setBit _ _ (by decide)

/-- A string whose contactor's driver failed counts as opened. -/
def StrSt.fallen (x : StrSt) : StrSt := { x with st := 1, closing := false, opening := true, wantOpen := false, attempt := false, t0 := none, coilFault := true }

/-- What a driver fault of an output means for its string. -/
def State.strFallen (s : State) (c i kind : Nat) : State :=
  if (s.str i).st = 2 ∨ (s.str i).st = 3 ∨ (s.str i).st = 4 then (s.updStr i StrSt.fallen).logS 0x0A08 (u8 c ++ u8 kind) else s

theorem State.strFallen_shows (s : State) (c i kind : Nat) : let t := s.strFallen c i kind
    ((s.str i).st = 2 ∨ (s.str i).st = 3 ∨ (s.str i).st = 4 → (t.str i).st = 1 ∧ (t.str i).opening = true ∧ (t.str i).closing = false) ∧ RegsBut s t (logRegs 0) ∧ t.mem = s.mem := by
  unfold State.strFallen
  dsimp only
  split
  · have hself : ((s.updStr i StrSt.fallen).logS 0x0A08 (u8 c ++ u8 kind)).str i = StrSt.fallen (s.str i) :=
      (State.str_of_ctr (State.logS_ctr ..) i).trans (s.str_updStr_self i _)
    refine ⟨fun _ => by rw [hself]; exact ⟨rfl, rfl, rfl⟩, ?_, State.logS_mem ..⟩
    exact RegsBut.logS (t := s.updStr i StrSt.fallen) _ _ (RegsBut.of_regs rfl) fun _ h => h
  · next h => exact ⟨fun k => absurd k h, RegsBut.refl s _, rfl⟩

theorem State.coilFault_none {s : State} {c bit : Nat} {openLoad : Bool} (hbit : (if openLoad then 16 + c else c) = bit) (h : s.strOfCoil c = none) :
    s.coilFault c openLoad = (s.driverOff c bit).fallCoil c false := by
  have hstr : ((s.driverOff c bit).fallCoil c false).strOfCoil c = none := (State.strOfCoil_of_inForce (State.fallCoil_shows _ c false).2.2.2 c).trans h
  rw [State.driverOff] at hstr ⊢
  unfold State.coilFault
  dsimp only
  rw [hbit, hstr]

theorem State.coilFault_some {s : State} {c bit i : Nat} {openLoad : Bool} (hbit : (if openLoad then 16 + c else c) = bit) (h : s.strOfCoil c = some i) :
    s.coilFault c openLoad = ((s.driverOff c bit).fallCoil c false).strFallen c i (if openLoad then 2 else 1) := by
  have hstr : ((s.driverOff c bit).fallCoil c false).strOfCoil c = some i := (State.strOfCoil_of_inForce (State.fallCoil_shows _ c false).2.2.2 c).trans h
  rw [State.driverOff] at hstr ⊢
  unfold State.coilFault
  dsimp only
  rw [hbit, hstr]
  rfl

/-- The registers that a driver fault touches. -/
def faultRegs (c : Nat) : List Nat := [Reg.CTR_STAT, Reg.CTR_PHASE, Reg.CTR_OUT, Reg.CTR_FAULT, Reg.CTR_IRQ, Reg.CTR_IMEAS c] ++ logRegs 0

theorem CTR_IMEAS_gt (c : Nat) : Reg.CTR_STAT < Reg.CTR_IMEAS c ∧ Reg.CTR_PHASE < Reg.CTR_IMEAS c ∧ Reg.CTR_OUT < Reg.CTR_IMEAS c ∧ Reg.CTR_FAULT < Reg.CTR_IMEAS c ∧ Reg.CTR_IRQ < Reg.CTR_IMEAS c := by
  unfold Reg.CTR_STAT Reg.CTR_PHASE Reg.CTR_OUT Reg.CTR_FAULT Reg.CTR_IRQ Reg.CTR_IMEAS
  omega

theorem State.fallen_shows (s : State) {c bit : Nat} (hc : c < 12) (hbit : bit < 32) : let t := (s.driverOff c bit).fallCoil c false
    t.bit Reg.CTR_STAT c = false ∧ t.bit Reg.CTR_OUT c = false ∧ t.bit Reg.CTR_FAULT bit = true ∧ t.bit Reg.CTR_IRQ 0 = true
      ∧ RegsBut s t (faultRegs c) ∧ t.mem = s.mem ∧ t.ctr.strs = s.ctr.strs := by
  obtain ⟨hstat, hout, hfault, hirq, hregs, -, heq⟩ := s.driverOff_shows hc hbit
  obtain ⟨hfall, hmem, hstrs, -⟩ := (s.driverOff c bit).fallCoil_shows c false
  have hother {a : Nat} (ha : a < Reg.CTR_IMEAS c) : a ∉ [Reg.CTR_IMEAS c] := fun h => Nat.lt_irrefl _ (List.mem_singleton.mp h ▸ ha)
  obtain ⟨gstat, -, gout, gfault, girq⟩ := CTR_IMEAS_gt c
  generalize s.driverOff c bit = u at *
  refine ⟨?_, ?_, ?_, ?_, ?_, hmem.trans (congrArg State.mem heq :), hstrs.trans (congrArg (fun v => v.ctr.strs) heq :)⟩
  · rw [State.bit_of_rd (hfall _ (hother gstat)), hstat]
  · rw [State.bit_of_rd (hfall _ (hother gout)), hout]
  · rw [State.bit_of_rd (hfall _ (hother gfault)), hfault]
  · rw [State.bit_of_rd (hfall _ (hother girq)), hirq]
  · have hfirst : RegsBut s u (faultRegs c) := hregs.mono fun a ha => List.mem_append_left _ (by simp only [List.mem_cons, List.not_mem_nil, or_false] at ha ⊢; tauto)
    exact hfirst.trans (hfall.mono fun a ha => List.mem_append_left _ (by rw [List.mem_singleton.mp ha]; simp))

theorem faultRegs_first {a : Nat} (ha : a ∈ [Reg.CTR_STAT, Reg.CTR_PHASE, Reg.CTR_OUT, Reg.CTR_FAULT, Reg.CTR_IRQ]) : a ∉ logRegs 0 :=
  (by decide : ∀ a ∈ [Reg.CTR_STAT, Reg.CTR_PHASE, Reg.CTR_OUT, Reg.CTR_FAULT, Reg.CTR_IRQ], a ∉ logRegs 0) a ha

/-- A driver fault turns its output off and opens the string. -/
theorem State.coilFault_shows (s : State) {c bit : Nat} {openLoad : Bool} (hc : c < 12) (hbit : (if openLoad then 16 + c else c) = bit) : let t := s.coilFault c openLoad
    t.bit Reg.CTR_STAT c = false ∧ t.bit Reg.CTR_OUT c = false ∧ t.bit Reg.CTR_FAULT bit = true ∧ t.bit Reg.CTR_IRQ 0 = true
      ∧ (∀ i, s.strOfCoil c = some i → (s.str i).st = 2 ∨ (s.str i).st = 3 ∨ (s.str i).st = 4 → (t.str i).st = 1 ∧ (t.str i).opening = true ∧ (t.str i).closing = false)
      ∧ RegsBut s t (faultRegs c) ∧ SameMem s t := by
  have hlow : bit < 32 := by
    rw [← hbit]
    split <;> omega
  obtain ⟨hstat, hout, hfault, hirq, hregs, hmem, hstrs⟩ := s.fallen_shows hc hlow
  cases hstr : s.strOfCoil c with
  | none =>
    rw [State.coilFault_none hbit hstr]
    exact ⟨hstat, hout, hfault, hirq, fun i hi => absurd hi (by simp), hregs, SameMem.of_mem hmem⟩
  | some i =>
    rw [State.coilFault_some hbit hstr]
    generalize (s.driverOff c bit).fallCoil c false = u at *
    obtain ⟨hfallen, hlog, hsame⟩ := u.strFallen_shows c i (if openLoad then 2 else 1)
    have hkeep {a : Nat} (k : Nat) (ha : a ∈ [Reg.CTR_STAT, Reg.CTR_PHASE, Reg.CTR_OUT, Reg.CTR_FAULT, Reg.CTR_IRQ]) : (u.strFallen c i (if openLoad then 2 else 1)).bit a k = u.bit a k :=
      State.bit_of_rd (hlog _ (faultRegs_first ha)) k
    refine ⟨(hkeep _ (by decide)).trans hstat, (hkeep _ (by decide)).trans hout, (hkeep _ (by decide)).trans hfault, (hkeep _ (by decide)).trans hirq, fun j hj hst => ?_,
      hregs.trans (hlog.mono fun a ha => List.mem_append_right _ ha), SameMem.of_mem (hsame.trans hmem)⟩
    obtain rfl := Option.some.inj hj
    rw [State.str_of_strs hstrs] at hfallen
    exact hfallen hst

/-! Every coil dropped (R417) -/

/-- What a rail that turned off drops: every output, ordered or on. -/
theorem State.dropCoils_shows (s : State) : coilsDropped s.dropCoils ∧ RegsBut s s.dropCoils coilRegs ∧ SameMem s s.dropCoils := by
  refine ⟨⟨s.dropCoils_out, ?_, rfl⟩, s.dropCoils_regs, SameMem.of_mem ((State.dropCoils_kept (Kept.refl false false false s)).memSame rfl)⟩
  rw [State.dropCoils, State.rdN_mk, State.rdN_setBit_ne _ _ _ (by decide), State.rdN_wrN_ne _ _ (by decide), State.rdN_wrN_self, Nat.zero_mod]

/-- The rail switch turned off, as PUMP.STAT shows it. -/
def State.railSwitchedOff (s : State) : State := ((s.setBit Reg.PUMP_STAT 3 true).setBit Reg.PUMP_STAT 1 false).setBit Reg.PUMP_STAT 2 false

theorem coilsDropped_regs {s u : State} {l : List Nat} (h : RegsBut s u l) (hmem : SameMem s u) : coilsDropped u.dropCoils ∧ (∀ a, a ∉ coilRegs → u.dropCoils.rd a = u.rd a)
    ∧ RegsBut s u.dropCoils (l ++ [Reg.CTR_OUT, Reg.CTR_STAT, Reg.CTR_PHASE, Reg.CTR_BKI] ++ coilMeasures) ∧ SameMem s u.dropCoils := by
  obtain ⟨hdropped, hregs, hbytes⟩ := u.dropCoils_shows
  have hsub : ∀ a ∈ coilRegs, a ∈ l ++ [Reg.CTR_OUT, Reg.CTR_STAT, Reg.CTR_PHASE, Reg.CTR_BKI] ++ coilMeasures := fun a ha => by
    rw [List.append_assoc]
    exact List.mem_append_right _ ((by decide : ∀ a ∈ coilRegs, a ∈ [Reg.CTR_OUT, Reg.CTR_STAT, Reg.CTR_PHASE, Reg.CTR_BKI] ++ coilMeasures) a ha)
  exact ⟨hdropped, hregs, (h.mono fun a ha => List.mem_append_left _ (List.mem_append_left _ ha)).trans (hregs.mono hsub), fun a => (hbytes a).trans (hmem a)⟩

theorem State.snapped_shows (s : State) : let t := s.railSwitchedOff.dropCoils
    coilsDropped t ∧ t.bit Reg.PUMP_STAT 3 = true ∧ t.bit Reg.PUMP_STAT 2 = false
      ∧ RegsBut s t ([Reg.PUMP_STAT, Reg.CTR_OUT, Reg.CTR_STAT, Reg.CTR_PHASE, Reg.CTR_BKI] ++ coilMeasures) ∧ SameMem s t := by
  have honly : OnlyRegs s s.railSwitchedOff [Reg.PUMP_STAT] := (((OnlyRegs.refl s _).setBit _ _ (by decide)).setBit _ _ (by decide)).setBit _ _ (by decide)
  have hswitch : s.railSwitchedOff.bit Reg.PUMP_STAT 3 = true := by
    unfold State.railSwitchedOff
    rw [State.bit_setBit_other _ _ (by decide) (by decide), State.bit_setBit_other _ _ (by decide) (by decide), State.bit_setBit_self _ _ (by decide)]
  have hok : s.railSwitchedOff.bit Reg.PUMP_STAT 2 = false := State.bit_setBit_self _ _ (by decide)
  obtain ⟨hdropped, hkeep, hregs, hmem⟩ := coilsDropped_regs honly.1 honly.2.1
  exact ⟨hdropped, (State.bit_of_rd (hkeep _ (by decide)) 3).trans hswitch, (State.bit_of_rd (hkeep _ (by decide)) 2).trans hok, hregs, hmem⟩

/-- A lost rail, before the coils fall. -/
def State.railLost (s : State) : State :=
  let s := s.setBit Reg.PUMP_STAT 2 false
  if s.bit Reg.PUMP_STAT 0 then s.setBit Reg.PUMP_IRQ 0 true else s

theorem State.railLost_shows (s : State) : s.railLost.bit Reg.PUMP_STAT 2 = false ∧ (s.bit Reg.PUMP_STAT 0 = true → s.railLost.bit Reg.PUMP_IRQ 0 = true)
    ∧ OnlyRegs s s.railLost [Reg.PUMP_STAT, Reg.PUMP_IRQ] := by
  have honly : OnlyRegs s (s.setBit Reg.PUMP_STAT 2 false) [Reg.PUMP_STAT, Reg.PUMP_IRQ] := (OnlyRegs.refl s _).setBit _ _ (by decide)
  have hfed : (s.setBit Reg.PUMP_STAT 2 false).bit Reg.PUMP_STAT 0 = s.bit Reg.PUMP_STAT 0 := State.bit_setBit_other _ _ (by decide) (by decide)
  have hok : (s.setBit Reg.PUMP_STAT 2 false).bit Reg.PUMP_STAT 2 = false := State.bit_setBit_self _ _ (by decide)
  unfold State.railLost
  dsimp only
  rw [hfed]
  split
  · exact ⟨(State.bit_setBit_ne _ _ _ _ (by decide)).trans hok, fun _ => State.bit_setBit_self _ _ (by decide), honly.setBit _ _ (by decide)⟩
  · next h => exact ⟨hok, fun k => absurd k h, honly⟩

theorem State.railLost_drops (s : State) : let t := s.railLost.dropCoils
    coilsDropped t ∧ t.bit Reg.PUMP_STAT 2 = false ∧ (s.bit Reg.PUMP_STAT 0 = true → t.bit Reg.PUMP_IRQ 0 = true)
      ∧ RegsBut s t ([Reg.PUMP_STAT, Reg.PUMP_IRQ, Reg.CTR_OUT, Reg.CTR_STAT, Reg.CTR_PHASE, Reg.CTR_BKI] ++ coilMeasures) ∧ SameMem s t := by
  obtain ⟨hok, hirq, honly, hbytes, -⟩ := s.railLost_shows
  obtain ⟨hdropped, hkeep, hregs, hmem⟩ := coilsDropped_regs honly hbytes
  exact ⟨hdropped, (State.bit_of_rd (hkeep _ (by decide)) 2).trans hok, fun h => (State.bit_of_rd (hkeep _ (by decide)) 0).trans (hirq h), hregs, hmem⟩

/-- The rail is up. -/
theorem State.railUp_shows (s : State) : let t := ((s.setBit Reg.PUMP_STAT 1 true).setBit Reg.PUMP_STAT 2 true).setBit Reg.PUMP_STAT 3 false
    t.bit Reg.PUMP_STAT 1 = true ∧ t.bit Reg.PUMP_STAT 2 = true ∧ OnlyRegs s t [Reg.PUMP_STAT] := by
  refine ⟨?_, ?_, (((OnlyRegs.refl s _).setBit _ _ (by decide)).setBit _ _ (by decide)).setBit _ _ (by decide)⟩
  · rw [State.bit_setBit_other _ _ (by decide) (by decide), State.bit_setBit_other _ _ (by decide) (by decide), State.bit_setBit_self _ _ (by decide)]
  · rw [State.bit_setBit_other _ _ (by decide) (by decide), State.bit_setBit_self _ _ (by decide)]

/-- A coil in hold shows the configured current. -/
theorem State.held_shows (s : State) {c : Nat} (hc : c < 12) : let t := (s.setBit Reg.CTR_PHASE c false).coilSense c 2
    t.bit Reg.CTR_PHASE c = false ∧ t.fld (Reg.CTR_IMEAS c) 0 12 = s.fld (Reg.CTR_CFG c) 8 10 ∧ t.coilOn c = s.coilOn c ∧ OnlyRegs s t [Reg.CTR_PHASE, Reg.CTR_IMEAS c] := by
  obtain ⟨gstat, gphase, -⟩ := CTR_IMEAS_gt c
  have hcfg : Reg.CTR_PHASE ≠ Reg.CTR_CFG c := by unfold Reg.CTR_PHASE Reg.CTR_CFG; omega
  unfold State.coilSense
  dsimp only
  rw [if_neg (by decide), if_neg (by decide)]
  refine ⟨?_, ?_, ?_, ((((OnlyRegs.refl s _).setBit _ _ List.mem_cons_self).setFld _ _ _ (by simp)).setFld _ _ _ (by simp))⟩
  · rw [State.bit_setFld_ne _ _ _ _ _ (by omega), State.bit_setFld_ne _ _ _ _ _ (by omega), State.bit_setBit_self _ _ (by omega)]
  · have hlow := s.fld_lt (Reg.CTR_CFG c) 8 10
    rw [State.fld_setFld_other _ _ (by decide) (by decide), State.fld_setFld_self _ _ (by decide), State.fld_setBit_ne _ _ _ _ _ hcfg]
    exact Nat.mod_eq_of_lt (by omega)
  · rw [State.coilOn, State.bit_setFld_ne _ _ _ _ _ (by omega), State.bit_setFld_ne _ _ _ _ _ (by omega), State.bit_setBit_ne _ _ _ _ (by decide)]
    rfl

theorem coilDriversAndPump_holds : coilDriversAndPump := by
  unfold coilDriversAndPump
  refine ⟨fun s c hc hon => ?overcurrent, fun s c hc hon hok => ?openLoad, fun s c h => ?noOpenLoad, fun s c hc hon hpull => ?pullin, fun s => ?snap, fun s => ?railLoss,
    fun s hfed hpump => ?railUp, fun s hfed => ?notFed, fun s hawake => ?skip, fun s hawake hoff => ?snapTest, fun s hon => ?noSnapTest⟩
  case overcurrent => exact ⟨_, congrArg Host.Outcome.next (if_pos ⟨hc, hon⟩), s.coilFault_shows (openLoad := false) hc rfl⟩
  case openLoad =>
    obtain ⟨hstat, hout, hfault, -, -, hrest⟩ := s.coilFault_shows (openLoad := true) hc rfl
    exact ⟨_, congrArg Host.Outcome.next (if_pos ⟨hc, hon, hok⟩), hstat, hout, hfault, hrest⟩
  case noOpenLoad => exact congrArg Host.Outcome.next (if_neg (by rintro ⟨-, hon, hok⟩; obtain h | h := h <;> simp_all))
  case pullin =>
    obtain ⟨hphase, hcurrent, hstay, honly⟩ := s.held_shows hc
    exact ⟨_, congrArg Host.Outcome.next (if_pos ⟨hc, hon, hpull⟩), hphase, hcurrent, hstay.trans hon, honly⟩
  case snap => exact ⟨_, rfl, s.snapped_shows⟩
  case railLoss => exact ⟨_, rfl, s.railLost_drops⟩
  case railUp =>
    obtain ⟨hrail, hok, hregs, hmem, -⟩ := s.railUp_shows
    exact ⟨_, congrArg Host.Outcome.next (if_pos ⟨hfed, hpump⟩), rfl, hrail, hok, RegsBut.mk_iff.mpr hregs, hmem⟩
  case notFed => exact congrArg Host.Outcome.next (if_neg (by rw [hfed]; rintro ⟨h, -⟩; exact absurd h (by decide)))
  case skip => exact Does.byRequester hawake rfl rfl
  case snapTest =>
    obtain ⟨hdropped, hswitch, -, hrest⟩ := s.snapped_shows
    refine Does.byRequester hawake rfl ?_
    rw [doSnapTest, if_pos hoff]
    exact ⟨hdropped, hswitch, hrest⟩
  case noSnapTest =>
    have hkeep : doSnapTest s = s := if_neg hon
    refine congrArg Host.Outcome.next ?_
    rw [hkeep, State.byRequester]
    split <;> rfl

/-! Orders to an output (R231) -/

/-- The registers that an order to an output touches. -/
def orderRegs : List Nat := Reg.CTR_OUT :: logRegs 0

theorem State.order_frame (s : State) (c : Nat) (v : Bool) : TallyFrame s (s.order c v) :=
  TallyFrame.ite rfl (TallyFrame.ite rfl (TallyFrame.trans (s.tallyOp_eq _) rfl))

theorem State.order_regs (s : State) (c : Nat) (v : Bool) : RegsBut s (s.order c v) orderRegs :=
  RegsBut.ite (fun _ => RegsBut.refl s _) fun _ => RegsBut.ite (fun _ => RegsBut.of_regs rfl)
    fun _ => ((RegsBut.refl s _).tallyOp _ fun _ h => List.mem_cons_of_mem _ h).setBit _ _ List.mem_cons_self

theorem State.tallyOp_out (s : State) (id k : Nat) : (s.tallyOp id).bit Reg.CTR_OUT k = s.bit Reg.CTR_OUT k :=
  State.bit_of_rd ((RegsBut.refl s (logRegs 0)).tallyOp id (fun _ h => h) _ (by decide)) k

theorem State.order_off (s : State) {c : Nat} (hc : c < 12) : (s.order c false).bit Reg.CTR_OUT c = false := by
  unfold State.order
  split
  · assumption
  · exact State.bit_setBit_self _ _ (by omega)

theorem State.order_other (s : State) {c k : Nat} (hc : c < 12) (h : k ≠ c) : (s.order c false).bit Reg.CTR_OUT k = s.bit Reg.CTR_OUT k := by
  unfold State.order
  split
  · rfl
  · exact (State.bit_setBit_other _ _ (by omega) h.symm).trans (s.tallyOp_out _ k)

theorem State.order_nv (s : State) (c : Nat) (v : Bool) : TallyNv s (s.order c v) := by
  unfold State.order
  refine TallyNv.ite (TallyNv.of_nv rfl) (TallyNv.ite (TallyNv.of_nv rfl) ?_)
  have hop : TallyNv s (s.tallyOp (0x10 + c)) := by
    unfold State.tallyOp
    exact TallyNv.ite (TallyNv.of_nv rfl) (TallyNv.ite (TallyNv.of_nv rfl) (TallyNv.trans (t := { s with tally := { s.tally with keptOps := Tab.put 0 s.tally.keptOps (0x10 + c) 0 } })
      (TallyNv.of_nv rfl) (State.tallyWrite_nv _ _ _)))
  exact hop.trans (TallyNv.of_nv rfl)

theorem State.orderOpt_frame (s : State) (c : Option Nat) (v : Bool) : TallyFrame s (s.orderOpt c v) := by
  cases c
  · rfl
  · exact s.order_frame _ v

theorem State.orderOpt_regs (s : State) (c : Option Nat) (v : Bool) : RegsBut s (s.orderOpt c v) orderRegs := by
  cases c
  · exact RegsBut.refl s _
  · exact s.order_regs _ v

/-! Strings (R233 to R235) -/

/-- What the steps of a string touch: outputs ordered and counted, and the strings. -/
abbrev StringFrame (s t : State) : Prop :=
  t = { s with regs := t.regs, mem := t.mem, log := t.log, nv := t.nv, tally := t.tally, ctr := { s.ctr with strs := t.ctr.strs } }

theorem StringFrame.trans {s t u : State} (h : StringFrame s t) (k : StringFrame t u) : StringFrame s u := by
  rw [k]
  exact congrArg (fun x : State => { x with regs := u.regs, mem := u.mem, log := u.log, nv := u.nv, tally := u.tally, ctr := { x.ctr with strs := u.ctr.strs } }) h

theorem StringFrame.of_tally {s t : State} (h : TallyFrame s t) : StringFrame s t := by rw [h]

theorem StringFrame.ite {s t u : State} {c : Prop} [Decidable c] (h : StringFrame s t) (k : StringFrame s u) : StringFrame s (if c then t else u) := by
  split
  · exact h
  · exact k

/-- The orders of an opening, before its end is judged. -/
def State.openOrders (s : State) (i : Nat) : State :=
  let s := (s.orderOpt (s.posOf i) false).orderOpt (s.preOf i) false
  if s.fbcOpt (s.posOf i) then s else s.orderOpt (s.negOf i) false

theorem State.openOrders_frame (s : State) (i : Nat) : TallyFrame s (s.openOrders i) ∧ RegsBut s (s.openOrders i) orderRegs := by
  have hframe : TallyFrame s ((s.orderOpt (s.posOf i) false).orderOpt (s.preOf i) false) := TallyFrame.trans (s.orderOpt_frame _ _) (State.orderOpt_frame _ _ _)
  have hregs : RegsBut s ((s.orderOpt (s.posOf i) false).orderOpt (s.preOf i) false) orderRegs := (s.orderOpt_regs _ _).trans (State.orderOpt_regs _ _ _)
  unfold State.openOrders
  dsimp only
  generalize (s.orderOpt (s.posOf i) false).orderOpt (s.preOf i) false = u at hframe hregs ⊢
  split
  · exact ⟨hframe, hregs⟩
  · exact ⟨TallyFrame.trans hframe (State.orderOpt_frame _ _ _), hregs.trans (State.orderOpt_regs _ _ _)⟩

theorem State.openStep_shows (s : State) (i : Nat) : StringFrame s (s.openStep i) ∧ RegsBut s (s.openStep i) orderRegs ∧ ((s.str i).st = 5 → ((s.openStep i).str i).st = 5) := by
  obtain ⟨hframe, hregs⟩ := s.openOrders_frame i
  have hstr : (s.openOrders i).str i = s.str i := State.str_of_ctr (congrArg State.ctr hframe :) i
  rw [State.openOrders] at hframe hregs hstr
  unfold State.openStep
  dsimp only at hframe hregs hstr ⊢
  generalize (if State.fbcOpt _ _ = true then _ else _) = u at hframe hregs hstr ⊢
  have hkept := StringFrame.of_tally hframe
  split
  · exact ⟨hkept, hregs, fun h => by rw [hstr, h]⟩
  · refine ⟨hkept.trans rfl, hregs.trans (RegsBut.of_regs rfl), fun h => ?_⟩
    rw [State.str_updStr_self, hstr, h]
    rfl

/-- A string that welded. -/
def StrSt.weldedNow (x : StrSt) : StrSt := { x with st := 5, closing := false, opening := true, wantOpen := false, attempt := false }

/-- A contactor that welded. -/
def CoilSt.weldedNow (x : CoilSt) : CoilSt := { x with weldRun := false, offAt := none, welded := true }

/-- A welded contactor and its string, before easy. -/
def State.weldFound (s : State) (c i test : Nat) : State :=
  ((((s.updStr i StrSt.weldedNow).updCoil c CoilSt.weldedNow).openStep i).tallyOp 0x54).logS 0x0A04 (u8 c ++ u8 test)

theorem State.weld_eq {s : State} {c i : Nat} (test : Nat) (h : s.strOfCoil c = some i) : s.weld c test = (s.weldFound c i test).easy 0x1B := by
  unfold State.weld
  rw [h]
  rfl

/-- The state that a weld hands to easy: its string WELDED, its contactor judged, Camlan as it was. -/
theorem State.weldFound_shows (s : State) (c i test : Nat) : let u := s.weldFound c i test
    (u.str i).st = 5 ∧ (u.coil c).weldRun = false ∧ RegsBut s u orderRegs ∧ u.power = s.power ∧ u.cam = s.cam ∧ u.acts = s.acts := by
  have hstr : (((s.updStr i StrSt.weldedNow).updCoil c CoilSt.weldedNow).str i).st = 5 := by
    exact congrArg StrSt.st (s.str_updStr_self i StrSt.weldedNow)
  have hcoil : (((s.updStr i StrSt.weldedNow).updCoil c CoilSt.weldedNow).coil c).weldRun = false := by
    rw [State.coil_updCoil_self]
    rfl
  have hsame : ((s.updStr i StrSt.weldedNow).updCoil c CoilSt.weldedNow).regs = s.regs ∧ ((s.updStr i StrSt.weldedNow).updCoil c CoilSt.weldedNow).power = s.power
    ∧ ((s.updStr i StrSt.weldedNow).updCoil c CoilSt.weldedNow).cam = s.cam ∧ ((s.updStr i StrSt.weldedNow).updCoil c CoilSt.weldedNow).acts = s.acts := ⟨rfl, rfl, rfl, rfl⟩
  unfold State.weldFound
  dsimp only
  generalize (s.updStr i StrSt.weldedNow).updCoil c CoilSt.weldedNow = u at *
  obtain ⟨hframe, hregs, hkeep⟩ := u.openStep_shows i
  have hwelded := hkeep hstr
  generalize u.openStep i = v at *
  have htally : TallyFrame v ((v.tallyOp 0x54).logS 0x0A04 (u8 c ++ u8 test)) := TallyFrame.trans (v.tallyOp_eq _) (TallyFrame.of_log (State.logS_eq _ _ _))
  have hlast : RegsBut v ((v.tallyOp 0x54).logS 0x0A04 (u8 c ++ u8 test)) orderRegs :=
    ((RegsBut.refl v _).tallyOp _ fun _ h => List.mem_cons_of_mem _ h).logS _ _ fun _ h => List.mem_cons_of_mem _ h
  generalize (v.tallyOp 0x54).logS 0x0A04 (u8 c ++ u8 test) = w at *
  have hctr : w.ctr = v.ctr := (congrArg State.ctr htally :)
  have hcoils : v.ctr.coils = u.ctr.coils := (congrArg (fun x => x.ctr.coils) hframe :)
  have hall := (StringFrame.trans hframe (StringFrame.of_tally htally))
  obtain ⟨hr, hp, hc, ha⟩ := hsame
  have hpower : w.power = u.power := (congrArg State.power hall :)
  have hcam : w.cam = u.cam := (congrArg State.cam hall :)
  have hacts : w.acts = u.acts := (congrArg State.acts hall :)
  refine ⟨?_, ?_, (RegsBut.of_regs hr).trans (hregs.trans hlast), hpower.trans hp, hcam.trans hc, hacts.trans ha⟩
  · rw [State.str_of_ctr hctr, hwelded]
  · rw [State.coil_of_ctr ((congrArg CtrSt.coils hctr).trans hcoils), hcoil]

/-! Strings and contacts at an entry into easy (R54) -/

theorem State.openAll_st (s : State) (i : Nat) : (s.openAll.str i).st = (s.str i).st := by
  unfold State.openAll
  refine List.foldlRecOn (motive := fun t : State => (t.str i).st = (s.str i).st) _ _ rfl fun t ht j _ => ?_
  rw [← ht]
  by_cases h : i = j
  · subst h
    exact (congrArg StrSt.st (State.str_updStr_self t i (fun x => { x with wantOpen := true, closing := false })) :)
  · exact congrArg StrSt.st (State.str_updStr_other t (fun x => { x with wantOpen := true, closing := false }) h)

theorem State.easyActs_st (s : State) (cause i : Nat) : ((s.easyActs cause).str i).st = (s.str i).st := by
  have hctr : (s.easyActs cause).ctr = ((s.tallyOp 0x50).freeHelm 10).openAll.ctr := by rw [State.easyActs, State.noticeAll_ctr, State.setEvpAll_eq]
  have hhelm : ((s.tallyOp 0x50).freeHelm 10).ctr = s.ctr := (congrArg State.ctr (State.freeHelm_eq _ _) :).trans (congrArg State.ctr (State.tallyOp_eq s 0x50) :)
  rw [State.str_of_ctr hctr, State.openAll_st, State.str_of_ctr hhelm]

theorem State.easyLogged_st (s : State) (cause i : Nat) : ((s.easyLogged cause).str i).st = (s.str i).st := by
  unfold State.easyLogged
  split
  · rfl
  · exact (State.easyActs_st _ cause i).trans (congrArg StrSt.st (State.str_of_ctr (s := s) (t := s.inEasyBy cause) rfl i))

theorem State.easyNow_st (s : State) (cause i : Nat) : ((s.easyNow cause).str i).st = (s.str i).st := by
  rw [State.easyNow_eq, State.easyLogged_st, State.str_of_ctr (State.logS_ctr ..)]

theorem EasyFrame.coil {s t : State} (h : EasyFrame s t) (c : Nat) : t.coil c = s.coil c := State.coil_of_ctr (congrArg (fun x => x.ctr.coils) h :) c

theorem EasyFrame.deferDone {s t : State} (h : EasyFrame s t) : t.ctr.deferDone = s.ctr.deferDone := (congrArg (fun x => x.ctr.deferDone) h :)

/-- An entry into easy, or its cause held, leaves the state of every string and every contactor. -/
theorem State.easy_keepsStrings (s : State) (cause i c : Nat) : ((s.easy cause).str i).st = (s.str i).st ∧ (s.easy cause).coil c = s.coil c := by
  unfold State.easy State.easyHeld
  split
  · split <;> exact ⟨rfl, rfl⟩
  · split
    · exact ⟨rfl, rfl⟩
    · exact ⟨s.easyNow_st cause i, (EasyFrame.easyNow s cause).coil c⟩

/-- A rowing Camlan that is not in easy enters it for a cause that follows an order or a record. -/
theorem easyAfter_enters {s u : State} (cause : Nat) (hregs : RegsBut s u orderRegs) (hpower : u.power = s.power) (hcam : u.cam = s.cam) (hacts : u.acts = s.acts)
    (hrow : s.rowing = true) (hout : s.cam.state ≠ .easy) (hidle : s.acts = .idle) : u.easy cause = u.easyNow cause ∧ (u.easy cause).cam.state = .easy ∧ (u.easy cause).cam.easyCauses = [cause] := by
  have hrowing : u.rowing = true := (State.rowing_congr hpower (hregs _ (by decide)) (by rw [hcam])).trans hrow
  obtain ⟨heq, -, hentered⟩ := State.easy_of_rowing cause hrowing (by rwa [hcam]) (hacts.trans hidle)
  rw [heq]
  exact ⟨rfl, (congrArg CamSt.state hentered :), (congrArg CamSt.easyCauses hentered :)⟩

/-! Contacts that fail to follow (R232 to R235) -/

/-- A string whose contact failed to close. -/
def StrSt.failedClose (x : StrSt) : StrSt := { x with st := if x.st = 5 ∨ x.st = 6 then x.st else 1, closing := false, opening := true, wantOpen := false, attempt := false, t0 := none }

theorem doCloseTimeout_fails {s : State} {c i : Nat} (hc : c < 12) (hon : s.coilOn c = true) (hopen : s.fbc c = false) (hstr : s.strOfCoil c = some i) :
    doCloseTimeout s c = ((s.order c false).logS 0x0A03 (u8 c)).updStr i StrSt.failedClose := by
  unfold doCloseTimeout
  rw [if_pos ⟨hc, hon, by rw [hopen]; rfl⟩, hstr]
  rfl

theorem doNegOpenTimeout_opens {s : State} {i n : Nat} (hconf : s.strConf i = true) (hopening : (s.str i).opening = true) (hpos : ∀ c, s.posOf i = some c → s.coilOn c = false)
    (hneg : s.negOf i = some n) : doNegOpenTimeout s i = s.order n false := by
  unfold doNegOpenTimeout
  rw [if_pos, hneg]
  · rfl
  · refine ⟨hconf, hopening, ?_⟩
    cases h : s.posOf i with
    | none => rfl
    | some c => exact congrArg (!·) (hpos c h)

theorem doWeldHvsJudge_welds {s : State} {c : Nat} (hrun : (s.coil c).weldRun = true) (hoff : s.coilOn c = false) (hopen : s.fbc c = false) (hproved : (s.coil c).weldProved = true)
    (hwithin : (s.coil c).weldWithin = true) (hpair : s.parL .ctrWeld c ≠ []) : doWeldHvsJudge s c = (s.updCoil c (fun x => { x with weldRun := false })).weld c 2 := by
  have hfb : (s.updCoil c (fun x => { x with weldRun := false })).fbc c = false := hopen
  have hpar : (s.updCoil c (fun x => { x with weldRun := false })).parL .ctrWeld c ≠ [] := hpair
  unfold doWeldHvsJudge
  dsimp only
  rw [if_pos ⟨hrun, by rw [hoff]; rfl⟩, if_pos]
  rw [hfb, hproved, hwithin, decide_eq_true hpar]
  rfl

theorem doWeldHvsJudge_clears {s : State} {c : Nat} (hrun : (s.coil c).weldRun = true) (hoff : s.coilOn c = false) (hproved : (s.coil c).weldProved = false) :
    doWeldHvsJudge s c = s.updCoil c (fun x => { x with weldRun := false }) := by
  unfold doWeldHvsJudge
  dsimp only
  rw [if_pos ⟨hrun, by rw [hoff]; rfl⟩, if_neg]
  rw [hproved, Bool.and_false, Bool.false_and, Bool.false_and]
  exact Bool.false_ne_true

/-- The deferral is done with. -/
def State.deferEnded (s : State) : State := { s with ctr := { s.ctr with deferDone := true } }

/-- A deferral that expired, before easy. -/
def State.deferOver (s : State) : State := (s.logS 0x0A06 (u32 (s.fld Reg.CTR_STAT 16 12) ++ s32 (s.meas.cur / 1000))).deferEnded

theorem State.deferEnded_shows (s : State) : s.deferEnded.ctr.deferDone = true ∧ s.deferEnded.regs = s.regs ∧ s.deferEnded.power = s.power ∧ s.deferEnded.cam = s.cam ∧ s.deferEnded.acts = s.acts :=
  ⟨rfl, rfl, rfl, rfl, rfl⟩

theorem State.deferOver_shows (s : State) : s.deferOver.ctr.deferDone = true ∧ RegsBut s s.deferOver orderRegs ∧ s.deferOver.power = s.power ∧ s.deferOver.cam = s.cam ∧ s.deferOver.acts = s.acts := by
  unfold State.deferOver
  generalize u32 (s.fld Reg.CTR_STAT 16 12) ++ s32 (s.meas.cur / 1000) = l
  have hregs : RegsBut s (s.logS 0x0A06 l) orderRegs := (RegsBut.refl s _).logS _ _ fun _ h => List.mem_cons_of_mem _ h
  have hpower : (s.logS 0x0A06 l).power = s.power := State.logS_power ..
  have hcam : (s.logS 0x0A06 l).cam = s.cam := State.logS_cam ..
  have hacts : (s.logS 0x0A06 l).acts = s.acts := State.logS_acts ..
  obtain ⟨hdone, kregs, kpower, kcam, kacts⟩ := (s.logS 0x0A06 l).deferEnded_shows
  exact ⟨hdone, hregs.congr kregs, kpower.trans hpower, kcam.trans hcam, kacts.trans hacts⟩

/-- A string whose wait for admission ended. -/
def StrSt.notAdmitted (x : StrSt) : StrSt := { x with st := 1, closing := false, opening := true }

theorem doAdmitTimeout_ends {s : State} {i n : Nat} (hst : (s.str i).st = 3) (hpos : (s.str i).posOrdered = false) (hneg : s.negOf i = some n) :
    ∃ l, doAdmitTimeout s i = ((s.logS 0x0A10 l).order n false).updStr i StrSt.notAdmitted := by
  refine ⟨u8 i ++ u32 (s.deltaV i) ++ u32 (s.iPred i / 1000).floor.toNat, ?_⟩
  have hkept : (s.logS 0x0A10 (u8 i ++ u32 (s.deltaV i) ++ u32 (s.iPred i / 1000).floor.toNat)).negOf i = some n := by
    rw [← hneg, State.negOf, State.negOf, State.coilOf, State.coilOf]
    congr 1
    funext c
    rw [State.parS_of_inForce (State.logS_inForce ..)]
  unfold doAdmitTimeout
  dsimp only
  rw [if_pos ⟨hst, by rw [hpos]; rfl⟩]
  generalize s.logS 0x0A10 _ = u at hkept ⊢
  rw [hkept]
  rfl

theorem contactsAndStrings_holds : contactsAndStrings := by
  unfold contactsAndStrings
  refine ⟨fun s c i hc hon hopen hstr hst5 hst6 => ?closeTimeout, fun s i n hconf hopening hpos hneg hn => ?negOpen, fun s c i hc hoff hclosed hjudge hstr _ hrow hout hidle => ?weldFeedback,
    fun s c i _ hoff hopen hrun hproved hwithin hpair hstr _ => ?weldHvs, fun s c hrun hoff hproved => ?noWeld, fun s hdefer hdone hheld hrow hout hidle => ?deferred,
    fun s i hst hattempt hpos hgate => ?gate, fun s i n hst hpos hneg hn => ?admitted, fun s i h => ?noAdmit⟩
  case closeTimeout =>
    have hframe := s.order_frame c false
    have hoff := s.order_off hc
    have hnv := s.order_nv c false
    refine ⟨_, congrArg Host.Outcome.next (doCloseTimeout_fails hc hon hopen hstr), ?_⟩
    generalize s.order c false = u at hframe hoff hnv ⊢
    have hlog : (u.logS 0x0A03 (u8 c)).ctr = s.ctr := (State.logS_ctr ..).trans (congrArg State.ctr hframe :)
    have hout : (u.logS 0x0A03 (u8 c)).bit Reg.CTR_OUT c = false := (State.bit_logS _ _ _ _ (by decide)).trans hoff
    have hlock : (u.logS 0x0A03 (u8 c)).nv.preLock = s.nv.preLock := by
      rw [State.logS_nv]
      exact (congrArg (fun n => n.preLock) hnv :)
    generalize u.logS 0x0A03 (u8 c) = v at hlog hout hlock
    have hstr' : (v.updStr i StrSt.failedClose).str i = StrSt.failedClose (s.str i) := (v.str_updStr_self i _).trans (by rw [State.str_of_ctr hlog])
    refine ⟨hout, ?_, ?_, ?_, fun j hj => ?_, hlock⟩
    · rw [hstr', StrSt.failedClose, if_neg (by omega)]
    · rw [hstr']
      rfl
    · rw [hstr']
      rfl
    · rw [State.str_updStr_other _ _ hj, State.str_of_ctr hlog]
  case negOpen =>
    exact ⟨_, congrArg Host.Outcome.next (doNegOpenTimeout_opens hconf hopening hpos hneg), s.order_off hn, fun c _ hc => s.order_other hn hc, (congrArg State.ctr (s.order_frame n false) :)⟩
  case weldFeedback =>
    have hcase : doWeldFeedback s c = (s.weldFound c i 1).easy 0x1B := (if_pos ⟨hc, by rw [hoff]; rfl, hclosed, hjudge⟩).trans (State.weld_eq 1 hstr)
    obtain ⟨hst, -, hregs, hpower, hcam, hacts⟩ := s.weldFound_shows c i 1
    refine ⟨_, congrArg Host.Outcome.next hcase, ?_⟩
    generalize s.weldFound c i 1 = u at *
    obtain ⟨-, heasy, hcauses⟩ := easyAfter_enters 0x1B hregs hpower hcam hacts hrow hout hidle
    exact ⟨(u.easy_keepsStrings 0x1B i c).1.trans hst, heasy, hcauses⟩
  case weldHvs =>
    have hcase : doWeldHvsJudge s c = ((s.updCoil c (fun x => { x with weldRun := false })).weldFound c i 2).easy 0x1B :=
      (doWeldHvsJudge_welds hrun hoff hopen hproved hwithin hpair).trans (State.weld_eq 2 hstr)
    obtain ⟨hst, hcoil, -⟩ := (s.updCoil c (fun x => { x with weldRun := false })).weldFound_shows c i 2
    refine ⟨_, congrArg Host.Outcome.next hcase, ?_⟩
    generalize (s.updCoil c (fun x => { x with weldRun := false })).weldFound c i 2 = u at *
    obtain ⟨hkeptSt, hkeptCoil⟩ := u.easy_keepsStrings 0x1B i c
    exact ⟨hkeptSt.trans hst, by rw [hkeptCoil, hcoil]⟩
  case noWeld => exact ⟨_, congrArg Host.Outcome.next (doWeldHvsJudge_clears hrun hoff hproved), rfl⟩
  case deferred =>
    have hcase : doDeferExpire s = s.deferOver.easy 0x19 := if_pos ⟨hdefer, by rw [hdone]; rfl, hheld⟩
    obtain ⟨hover, hregs, hpower, hcam, hacts⟩ := s.deferOver_shows
    refine ⟨_, congrArg Host.Outcome.next hcase, ?_⟩
    generalize s.deferOver = u at *
    obtain ⟨hnow, heasy, hcauses⟩ := easyAfter_enters 0x19 hregs hpower hcam hacts hrow hout hidle
    refine ⟨?_, heasy, hcauses⟩
    rw [hnow, ← hover]
    exact EasyFrame.deferDone (EasyFrame.easyNow u 0x19)
  case gate => exact ⟨_, congrArg Host.Outcome.next (if_pos ⟨hst, by rw [hattempt]; rfl, by rw [hpos]; rfl, hgate⟩), rfl⟩
  case admitted =>
    obtain ⟨l, hcase⟩ := doAdmitTimeout_ends hst hpos hneg
    have hlog : (s.logS 0x0A10 l).ctr = s.ctr := State.logS_ctr ..
    refine ⟨_, congrArg Host.Outcome.next hcase, ?_⟩
    generalize s.logS 0x0A10 l = u at hlog
    have hoff := u.order_off hn
    have hctr : (u.order n false).ctr = s.ctr := (congrArg State.ctr (u.order_frame n false) :).trans hlog
    generalize u.order n false = v at hoff hctr
    have hstr : (v.updStr i StrSt.notAdmitted).str i = StrSt.notAdmitted (v.str i) := v.str_updStr_self i _
    refine ⟨hoff, ?_, ?_, ?_, fun j hj => ?_⟩
    · rw [hstr]
      rfl
    · rw [hstr]
      rfl
    · rw [hstr]
      rfl
    · rw [State.str_updStr_other _ _ hj, State.str_of_ctr hctr]
  case noAdmit => exact congrArg Host.Outcome.next (if_neg (by rintro ⟨hst, hpos⟩; obtain h | h := h <;> simp_all))

/-- Settles O35: each driver fault, drop, weld and timeout by the outputs and strings that it leaves. -/
theorem coilsContactsAndStrings : Obligations.CoilsContactsAndStrings := ⟨coilDriversAndPump_holds, contactsAndStrings_holds⟩

end Sys2Proof.Machine
end

section
/-!
PROOFS. References and presence on the crew link (R304, R307 to R313, R317): what a transmit object that is written and requested shows, what of the crew each change of lock, deputy and leader touches, and what each frame received leads to. They settle O41.
-/

namespace Sys2Proof.Machine

/-! Transmit objects that Camlan writes (R297, R304) -/

theorem State.sendObj_free {s : State} {x o : Nat} (f : CanObj) (h : s.txPending x o = false) :
    s.sendObj x o f = (s.setCan x { s.can x with tx := Tab.put CanObj.init (s.can x).tx o f }).txRequestOne x o := by
  unfold State.sendObj
  simp only [h, Bool.false_and, Bool.false_eq_true, ↓reduceIte]

/-- A free object that is written and requested is pending with its frame; the others keep theirs. -/
theorem State.sendObj_shows {s : State} {x o : Nat} (f : CanObj) (ho : o < 32) (h : s.txPending x o = false) : let t := s.sendObj x o f
    t.txPending x o = true ∧ t.txObj x o = f ∧ (∀ k, k ≠ o → t.txPending x k = s.txPending x k ∧ t.txObj x k = s.txObj x k)
      ∧ RegsBut s t [Reg.CAN_TXPEND x, Reg.CAN_TXST x o] ∧ t.mem = s.mem := by
  have hwritten : (s.setCan x { s.can x with tx := Tab.put CanObj.init (s.can x).tx o f }).txPending x o = false := h
  obtain ⟨gdone, gpend, -⟩ := CAN_TXST_gt x o
  have hne : Reg.CAN_TXST x o ≠ Reg.CAN_TXPEND x := by omega
  dsimp only
  rw [s.sendObj_free f h, State.txRequestOne_free hwritten]
  generalize hu : (s.setCan x { s.can x with tx := Tab.put CanObj.init (s.can x).tx o f }).setCan x _ = u
  have hregs : u.regs = s.regs := by rw [← hu]; rfl
  have hmem : u.mem = s.mem := by rw [← hu]; rfl
  have htx : (u.can x).tx = Tab.put CanObj.init (s.can x).tx o f := by rw [← hu]; simp
  have hcan : (((u.setBit (Reg.CAN_TXPEND x) o true).wrN (Reg.CAN_TXST x o) 1).can x).tx = (u.can x).tx := rfl
  refine ⟨?_, ?_, fun k hk => ⟨?_, ?_⟩, ?_, hmem⟩
  · rw [State.txPending, State.bit_wrN_ne _ _ _ hne, State.bit_setBit_self _ _ ho]
  · rw [State.txObj, hcan, htx]
    exact Tab.get_put_self ..
  · rw [State.txPending, State.bit_wrN_ne _ _ _ hne, State.bit_setBit_other _ _ ho hk.symm, State.bit_of_regs hregs]
    rfl
  · rw [State.txObj, hcan, htx, State.txObj]
    exact Tab.get_put_ne _ _ _ _ hk.symm
  · have hpend : RegsBut s u [Reg.CAN_TXPEND x, Reg.CAN_TXST x o] := RegsBut.of_regs hregs
    exact (hpend.setBit _ _ List.mem_cons_self).wrN _ (List.mem_cons_of_mem _ List.mem_cons_self)

/-! What sending leaves of the crew (R311) -/

theorem State.txEnd_crew (s : State) (x o result : Nat) : (s.txEnd x o result).crew = s.crew := by
  rw [State.txEnd_eq]
  split
  · rfl
  · split <;> rfl

theorem State.txAbortOne_crew (s : State) (x o : Nat) : (s.txAbortOne x o).crew = s.crew := by
  unfold State.txAbortOne
  split
  · rfl
  · split
    · rfl
    · exact s.txEnd_crew _ _ _

theorem State.txAbort_crew (s : State) (x mask : Nat) : (s.txAbort x mask).crew = s.crew := by
  unfold State.txAbort
  refine List.foldlRecOn (motive := fun t : State => t.crew = s.crew) _ _ rfl fun t ht o _ => ?_
  split
  · exact (t.txAbortOne_crew x o).trans ht
  · exact ht

theorem State.txRequestOne_crew (s : State) (x o : Nat) : (s.txRequestOne x o).crew = s.crew := by
  unfold State.txRequestOne
  split <;> rfl

theorem crew_ite {c : Prop} [Decidable c] {t u : State} {k : CrewSt} (ht : t.crew = k) (hu : u.crew = k) : (if c then t else u).crew = k := by
  split
  · exact ht
  · exact hu

theorem State.sendObj_crew (s : State) (x o : Nat) (f : CanObj) : (s.sendObj x o f).crew = s.crew := by
  have hsent {u : State} (hu : u.crew = s.crew) :
      (if u.txPending x o then u else (u.setCan x { u.can x with tx := Tab.put CanObj.init (u.can x).tx o f }).txRequestOne x o).crew = s.crew := by
    split
    · exact hu
    · exact (State.txRequestOne_crew _ x o).trans hu
  unfold State.sendObj
  dsimp only
  exact hsent (crew_ite (s.txEnd_crew _ _ _) rfl)

theorem State.sendSummary_crew (s : State) (ref : Nat) : (s.sendSummary ref).crew = s.crew := by
  unfold State.sendSummary
  split
  · exact (State.sendObj_crew _ _ _ _).trans (s.txAbortOne_crew _ _)
  · rfl

theorem State.sendJoin_crew (s : State) : s.sendJoin.crew = s.crew := by
  unfold State.sendJoin
  split
  · exact State.sendObj_crew _ _ _ _
  · rfl

theorem State.nextOrders_crew (s : State) : s.nextOrders.crew = s.crew := by
  unfold State.nextOrders
  split
  · exact State.sendObj_crew _ _ _ _
  · rfl

theorem State.nextOutcome_crew (s : State) : s.nextOutcome.crew = s.crew := by
  unfold State.nextOutcome
  split
  · rfl
  · split
    · exact State.sendObj_crew _ _ _ _
    · rfl

/-- What a lane sends in a stroke changes nothing that it knows of the crew. -/
theorem State.crewStroke_crew (s : State) (ref : Nat) : (s.crewStroke ref).crew = s.crew := by
  have hsum := s.sendSummary_crew ref
  unfold State.crewStroke
  dsimp only
  generalize s.sendSummary ref = u at hsum ⊢
  split
  · rw [State.nextOutcome_crew, State.nextOrders_crew, State.txAbortOne_crew, hsum]
  · rw [State.nextOutcome_crew, State.sendJoin_crew, hsum]

/-! Lock, deputy and leader (R308, R311, R313) -/

/-- The registers that a lost lock may touch. -/
def unlockRegs : List Nat := [Reg.CAN_TXPEND 1, Reg.CAN_TXDONE 1, Reg.CAN_TXST 1 crewSum] ++ logRegs 0

theorem State.txAbortOne_shows (s : State) {x o : Nat} : RegsBut s (s.txAbortOne x o) [Reg.CAN_TXPEND x, Reg.CAN_TXDONE x, Reg.CAN_TXST x o] ∧ (s.txAbortOne x o).mem = s.mem := by
  unfold State.txAbortOne
  split
  · exact ⟨RegsBut.refl s _, rfl⟩
  · split
    · exact ⟨RegsBut.mk_iff.mpr (RegsBut.refl s _), rfl⟩
    · rw [State.txEnd_eq, if_neg (by decide), if_pos rfl]
      exact ⟨RegsBut.mk_iff.mpr ((((RegsBut.refl s _).setBit _ _ List.mem_cons_self).setBit _ _ (by simp)).setFld _ _ _ (by simp)), rfl⟩

theorem State.setDeputy_shows (s : State) (v : Bool) : let t := s.setDeputy v
    t.crew = { s.crew with deputy := v, sender := t.crew.sender } ∧ RegsBut s t (Reg.CAN_MTX 1 :: logRegs 0) ∧ t.mem = s.mem ∧ t.power = s.power ∧ t.inForce = s.inForce := by
  unfold State.setDeputy
  dsimp only
  split
  · next h =>
    subst h
    exact ⟨rfl, RegsBut.refl s _, rfl, rfl, rfl⟩
  · generalize hu : (s.setCrew { s.crew with deputy := v, sender := none }).setFld (Reg.CAN_MTX 1) 16 6 _ = u
    have hcrew : u.crew = { s.crew with deputy := v, sender := none } := by rw [← hu]; rfl
    have hregs : RegsBut s u (Reg.CAN_MTX 1 :: logRegs 0) := by
      rw [← hu]
      exact RegsBut.setFld (t := s.setCrew { s.crew with deputy := v, sender := none }) _ _ _ (RegsBut.of_regs rfl) List.mem_cons_self
    have hrest : u.mem = s.mem ∧ u.power = s.power ∧ u.inForce = s.inForce := by
      rw [← hu]
      exact ⟨rfl, rfl, rfl⟩
    obtain ⟨hmem, hpower, hforce⟩ := hrest
    refine ⟨?_, hregs.logS _ _ fun _ h => List.mem_cons_of_mem _ h, ?_, ?_, ?_⟩
    · rw [State.logS_crew, hcrew]
    · rw [State.logS_mem, hmem]
    · rw [State.logS_power, hpower]
    · rw [State.logS_inForce, hforce]

theorem State.setLock_shows (s : State) (v : Bool) : let t := s.setLock v
    t.crew = { s.crew with locked := v, lockAt := t.crew.lockAt } ∧ RegsBut s t unlockRegs ∧ t.mem = s.mem := by
  unfold State.setLock
  dsimp only
  split
  · next h =>
    subst h
    exact ⟨rfl, RegsBut.refl s _, rfl⟩
  · generalize hu : (s.setCrew { s.crew with locked := v, lockAt := s.strokeNo }).logS 0x0D10 _ = u
    have hcrew : u.crew = { s.crew with locked := v, lockAt := s.strokeNo } := by rw [← hu, State.logS_crew]; rfl
    have hmem : u.mem = s.mem := by rw [← hu, State.logS_mem]; rfl
    have hregs : RegsBut s u unlockRegs := by
      rw [← hu]
      exact RegsBut.logS (t := s.setCrew { s.crew with locked := v, lockAt := s.strokeNo }) _ _ (RegsBut.of_regs rfl) fun _ h => List.mem_append_right _ h
    split
    · exact ⟨by rw [hcrew], hregs, hmem⟩
    · obtain ⟨kregs, kmem⟩ := u.txAbortOne_shows (x := 1) (o := crewSum)
      exact ⟨by rw [State.txAbortOne_crew, hcrew], hregs.trans (kregs.mono fun _ h => List.mem_append_left _ h), kmem.trans hmem⟩

theorem State.newLeader_crew (s : State) (l cause : Nat) : (s.newLeader l cause).crew = { s.crew with leader := some l } := by
  unfold State.newLeader
  split
  · next h => rw [← h]
  · dsimp only
    rw [State.logS0_crew]
    rfl

theorem State.newLeader_inForce (s : State) (l cause : Nat) : (s.newLeader l cause).inForce = s.inForce := by
  unfold State.newLeader
  split
  · rfl
  · dsimp only
    rw [State.logS0_inForce]
    rfl

/-- What a reference gives of the stroke, which nothing after it in the stroke changes. -/
def CrewSt.refParts (c : CrewSt) : Option Nat × Nat × Nat × Bool := (c.ref, c.lastRef, c.missing, c.heardRef)

theorem State.setLock_refParts (s : State) (v : Bool) : (s.setLock v).crew.refParts = s.crew.refParts := by
  obtain ⟨hcrew, -⟩ := s.setLock_shows v
  dsimp only at hcrew
  rw [hcrew]
  rfl

/-- Lock by the runs of references, once the error is counted (R308). -/
def State.lockJudged (s : State) (good bad : Nat) : State :=
  if !s.crew.locked && decide (8 ≤ good) then s.setLock true else if s.crew.locked && decide (4 ≤ bad) then s.setLock false else s

theorem State.lockJudged_refParts (s : State) (good bad : Nat) : (s.lockJudged good bad).crew.refParts = s.crew.refParts := by
  unfold State.lockJudged
  split
  · exact s.setLock_refParts true
  · split
    · exact s.setLock_refParts false
    · rfl

theorem State.lockStep_refParts (s : State) (e : Int) : (s.lockStep e).crew.refParts = s.crew.refParts := by
  have hcase : ∃ good bad, s.lockStep e = (s.setCrew { s.crew with good := good, badRun := bad, err := e }).lockJudged good bad := ⟨_, _, rfl⟩
  obtain ⟨good, bad, h⟩ := hcase
  rw [h, State.lockJudged_refParts]
  rfl

/-! References (R308 to R313), step by step -/

/-- A leader's own reference ends the deputy's part. -/
def State.refDeputy (s : State) (dep : Bool) : State := if s.crew.deputy && !dep then s.setDeputy false else s

/-- A reference noted for the stroke. -/
def State.refNoted (s : State) (stroke leader flags : Nat) (dep : Bool) : State :=
  s.setCrew { s.crew with
    ref := some stroke, lastRef := stroke, missing := 0, sender := some (leader, dep), watchAt := if flags / 2 % 2 = 1 then some stroke else s.crew.watchAt }

/-- The phase taken, but by the deputy. -/
def State.refLocked (s : State) (sof : Nat) : State := if s.crew.deputy then s else s.lockStep (s.phaseErr sof)

/-- The rows set anew at a change. -/
def State.refRows (s : State) (c : Bool) (stroke : Nat) : State := if c then s.setRows stroke else s

/-- The leader that the reference names. -/
def State.refLed (s : State) (dep : Bool) (leader : Nat) : State := if dep then s else s.newLeader leader 2

/-- The lanes that the reference gives. -/
def State.refLanes (s : State) (new : List Nat) : State :=
  let s := (new.filter (fun l => !s.crew.lanes.contains l)).foldl (fun s l => s.logS 0x0D11 (u8 l)) s
  s.setCrew { s.crew with
    lanes := new, gone := s.crew.gone.filter (fun l => !new.contains l), missed := s.crew.missed.filter (fun e => new.contains e.1), sums := s.crew.sums.filter (fun e => new.contains e.1) }

/-- This lane's part in the crew after a reference, and what it sends. -/
def State.refPart (s : State) (new : List Nat) (stroke : Nat) : State :=
  let mine := new.contains s.lane
  let st := if s.crew.deputy then cwMember else if !s.crew.locked then (if s.crew.st = cwListen then cwListen else cwJoining) else if mine then cwMember else cwJoining
  let s := s.setCrew { s.crew with st := st }
  (if mine then s.txAbortOne 1 crewJoin else s).crewStroke stroke

theorem State.takeReference_eq (s : State) (data : List Byte) (sof : Nat) : ∃ changed : Bool, s.takeReference data sof =
    ((((((s.refDeputy (decide (crewField data 5 1 % 2 = 1))).refNoted (crewField data 0 4) (crewField data 4 1) (crewField data 5 1) (decide (crewField data 5 1 % 2 = 1))).refLocked sof).refRows
      changed (crewField data 0 4)).refLed (decide (crewField data 5 1 % 2 = 1)) (crewField data 4 1)).refLanes
      ((List.range 64).filter (fun l => decide (getField (crewField data 8 8) l 1 = 1)))).refPart ((List.range 64).filter (fun l => decide (getField (crewField data 8 8) l 1 = 1)))
      (crewField data 0 4) := ⟨_, rfl⟩

theorem State.refDeputy_heard (s : State) (dep : Bool) : (s.refDeputy dep).crew.heardRef = s.crew.heardRef := by
  obtain ⟨hcrew, -⟩ := s.setDeputy_shows false
  dsimp only at hcrew
  unfold State.refDeputy
  split
  · rw [hcrew]
  · rfl

theorem State.refNoted_parts (s : State) (stroke leader flags : Nat) (dep : Bool) : (s.refNoted stroke leader flags dep).crew.refParts = (some stroke, stroke, 0, s.crew.heardRef) := rfl

theorem State.refLocked_parts (s : State) (sof : Nat) : (s.refLocked sof).crew.refParts = s.crew.refParts := by
  unfold State.refLocked
  split
  · rfl
  · exact s.lockStep_refParts _

theorem State.refRows_crew (s : State) (c : Bool) (stroke : Nat) : (s.refRows c stroke).crew = s.crew := by
  unfold State.refRows
  split <;> rfl

theorem State.refLed_shows (s : State) (dep : Bool) (leader : Nat) : (s.refLed dep leader).crew.refParts = s.crew.refParts ∧ (dep = false → (s.refLed dep leader).crew.leader = some leader) := by
  unfold State.refLed
  cases dep
  · rw [if_neg Bool.false_ne_true, State.newLeader_crew]
    exact ⟨rfl, fun _ => rfl⟩
  · exact ⟨rfl, fun h => absurd h.symm Bool.false_ne_true⟩

theorem State.refLanes_shows (s : State) (new : List Nat) : (s.refLanes new).crew.refParts = s.crew.refParts ∧ (s.refLanes new).crew.leader = s.crew.leader ∧ (s.refLanes new).crew.lanes = new := by
  have hlogs : ((new.filter (fun l => !s.crew.lanes.contains l)).foldl (fun (u : State) l => u.logS 0x0D11 (u8 l)) s).crew = s.crew :=
    List.foldlRecOn (motive := fun t : State => t.crew = s.crew) _ _ rfl fun t ht l _ => (State.logS_crew ..).trans ht
  unfold State.refLanes
  dsimp only
  generalize (new.filter (fun l => !s.crew.lanes.contains l)).foldl (fun (u : State) l => u.logS 0x0D11 (u8 l)) s = v at hlogs ⊢
  rw [← hlogs]
  exact ⟨rfl, rfl, rfl⟩

theorem State.refPart_crew (s : State) (new : List Nat) (stroke : Nat) : (s.refPart new stroke).crew = { s.crew with st := (s.refPart new stroke).crew.st } := by
  have hcase : ∃ st mine, s.refPart new stroke = (if mine = true then (s.setCrew { s.crew with st := st }).txAbortOne 1 crewJoin else s.setCrew { s.crew with st := st }).crewStroke stroke := ⟨_, _, rfl⟩
  obtain ⟨st, mine, h⟩ := hcase
  have hcrew : (s.refPart new stroke).crew = { s.crew with st := st } := by
    rw [h, State.crewStroke_crew]
    exact crew_ite (State.txAbortOne_crew _ _ _) rfl
  rw [hcrew]

/-- What a reference gives in a stroke: its STROKE, the lanes, and from a leader the leader. -/
theorem State.takeReference_shows (s : State) (data : List Byte) (sof : Nat) : (s.takeReference data sof).crew.refParts = (some (crewField data 0 4), crewField data 0 4, 0, s.crew.heardRef)
    ∧ (s.takeReference data sof).crew.lanes = (List.range 64).filter (fun l => decide (getField (crewField data 8 8) l 1 = 1))
    ∧ (crewField data 5 1 % 2 = 0 → (s.takeReference data sof).crew.leader = some (crewField data 4 1)) := by
  obtain ⟨changed, h⟩ := s.takeReference_eq data sof
  rw [h]
  generalize (List.range 64).filter (fun l => decide (getField (crewField data 8 8) l 1 = 1)) = new
  have hheard := s.refDeputy_heard (decide (crewField data 5 1 % 2 = 1))
  generalize s.refDeputy (decide (crewField data 5 1 % 2 = 1)) = u₁ at hheard ⊢
  have hnoted := u₁.refNoted_parts (crewField data 0 4) (crewField data 4 1) (crewField data 5 1) (decide (crewField data 5 1 % 2 = 1))
  generalize u₁.refNoted (crewField data 0 4) (crewField data 4 1) (crewField data 5 1) (decide (crewField data 5 1 % 2 = 1)) = u₂ at hnoted ⊢
  have hlocked := u₂.refLocked_parts sof
  generalize u₂.refLocked sof = u₃ at hlocked ⊢
  have hrows := u₃.refRows_crew changed (crewField data 0 4)
  generalize u₃.refRows changed (crewField data 0 4) = u₄ at hrows ⊢
  obtain ⟨hled, hleader⟩ := u₄.refLed_shows (decide (crewField data 5 1 % 2 = 1)) (crewField data 4 1)
  generalize u₄.refLed (decide (crewField data 5 1 % 2 = 1)) (crewField data 4 1) = u₅ at hled hleader ⊢
  obtain ⟨hgiven, hkept, hlanes⟩ := u₅.refLanes_shows new
  generalize u₅.refLanes new = u₆ at hgiven hkept hlanes ⊢
  have hpart := u₆.refPart_crew new (crewField data 0 4)
  generalize u₆.refPart new (crewField data 0 4) = u₇ at hpart ⊢
  have hparts : u₆.crew.refParts = (some (crewField data 0 4), crewField data 0 4, 0, s.crew.heardRef) := by rw [hgiven, hled, hrows, hlocked, hnoted, hheard]
  rw [hpart]
  exact ⟨hparts, hlanes, fun heven => hkept.trans (hleader (decide_eq_false (by omega)))⟩

/-- The start of frame of a reference captured, where the controller is on and its filter names the reference's identifier. -/
def State.captured (s : State) (sof : Nat) : State :=
  if s.bit (Reg.CAN_CTRL 1) 0 && s.bit (Reg.CAN_REFID 1) 31 && decide (s.fld (Reg.CAN_REFID 1) 0 11 = 0x010) then s.wrN (Reg.CAN_SOFREF 1) sof else s

theorem State.captured_only (s : State) (sof : Nat) : OnlyRegs s (s.captured sof) [Reg.CAN_SOFREF 1] := by
  unfold State.captured
  split
  · exact OnlyRegs.wrN s _ _
  · exact OnlyRegs.refl s _

theorem State.captured_sof {s : State} (sof : Nat) (hon : s.bit (Reg.CAN_CTRL 1) 0 = true) (hid : s.bit (Reg.CAN_REFID 1) 31 = true) (hfilter : s.fld (Reg.CAN_REFID 1) 0 11 = 0x010) :
    (s.captured sof).rdN (Reg.CAN_SOFREF 1) = sof % 2 ^ 32 := by
  unfold State.captured
  rw [hon, hid, hfilter, if_pos (by decide)]
  exact State.rdN_wrN_self ..

/-- Whether the crew link works, the timer runs and this lane leads does not rest on the captured start of frame. -/
theorem State.captured_keeps (s : State) (sof : Nat) : (s.captured sof).crew = s.crew ∧ (s.captured sof).crewOn = s.crewOn ∧ (s.captured sof).running = s.running
    ∧ (s.captured sof).leading = s.leading ∧ (s.captured sof).lane = s.lane := by
  obtain ⟨hregs, -, heq⟩ := s.captured_only sof
  have hcrew : (s.captured sof).crew = s.crew := (congrArg State.crew heq :)
  have hpower : (s.captured sof).power = s.power := (congrArg State.power heq :)
  have hforce : (s.captured sof).inForce = s.inForce := (congrArg State.inForce heq :)
  refine ⟨hcrew, ?_, State.bit_of_rd (hregs _ (by decide)) _, ?_, State.parI_of_inForce hforce ..⟩
  · rw [State.crewOn, State.crewOn, State.camlanOn_congr hpower (hregs _ (by decide)), hcrew]
  · rw [State.leading, State.leading, hcrew]

theorem doCrewReferenceReceived_stray {s : State} {data : List Byte} (sof : Nat) (hon : s.crewOn = true) (hlen : data.length ≠ 16) :
    doCrewReferenceReceived s data sof = (s.captured sof).stray := by
  obtain ⟨-, hcrewOn, -⟩ := s.captured_keeps sof
  unfold doCrewReferenceReceived
  rw [← State.captured]
  dsimp only
  rw [if_neg (by rw [hcrewOn, hon]; decide), if_pos hlen]

/-- A reference that was heard, before it is taken or arms the timer. -/
def State.heardReference (s : State) (sof : Nat) : State := (s.captured sof).setCrew { (s.captured sof).crew with heardRef := true }

theorem doCrewReferenceReceived_heard {s : State} {data : List Byte} (sof : Nat) (hon : s.crewOn = true) (hlen : data.length = 16) : doCrewReferenceReceived s data sof =
    let u := s.heardReference sof
    if !s.running then (u.setBit (Reg.CAN_CTRL 1) 9 true).wrN (Reg.CAN_REFDLY 1) ((u.parN .strokePeriod).toNat - 21)
    else if s.leading && decide (crewField data 4 1 = s.lane) then u else u.takeReference data sof := by
  obtain ⟨-, hcrewOn, hrunning, hleading, hlane⟩ := s.captured_keeps sof
  have hrunning' : (s.heardReference sof).running = s.running := hrunning
  have hleading' : (s.heardReference sof).leading = s.leading := hleading
  have hlane' : (s.heardReference sof).lane = s.lane := hlane
  unfold doCrewReferenceReceived
  rw [← State.captured]
  dsimp only
  rw [if_neg (by rw [hcrewOn, hon]; decide), if_neg (not_not_intro hlen), ← State.heardReference, hrunning', hleading', hlane']

theorem State.heardReference_shows (s : State) (sof : Nat) : let u := s.heardReference sof
    u.crew = { s.crew with heardRef := true } ∧ RegsBut s u [Reg.CAN_SOFREF 1] ∧ SameMem s u := by
  obtain ⟨hregs, hmem, -⟩ := s.captured_only sof
  obtain ⟨hcrew, -⟩ := s.captured_keeps sof
  unfold State.heardReference
  generalize s.captured sof = v at hregs hmem hcrew ⊢
  exact ⟨by rw [← hcrew]; rfl, hregs.congr rfl, hmem⟩

/-- The reference in its transmit object, its attempt begun. -/
def State.refObject (s : State) : State :=
  s.setCan 1 { s.can 1 with
    tx := Tab.put CanObj.init (s.can 1).tx crewRef (txFrame true 0x010 0 10 false s.referenceBytes), attempt := some crewRef, exclusive := true, reqAt := Tab.put 0 (s.can 1).reqAt crewRef s.now }

/-- The registers of the reference's object. -/
def State.refPended (s : State) : State := ((s.setBit (Reg.CAN_TXPEND 1) crewRef true).wrN (Reg.CAN_TXST 1 crewRef) 1).setFld (Reg.CAN_TXST 1 crewRef) 8 24 s.now

/-- This lane's own reference is the stroke's, and the controller sends. -/
def State.refOwn (s : State) (stroke : Nat) : State := (s.setBit (Reg.CAN_STAT 1) 2 false).setCrew { s.crew with ref := some stroke, lastRef := stroke, missing := 0 }

/-- The registers of the stroke's own reference. -/
def ownRefRegs : List Nat := [Reg.CAN_TXPEND 1, Reg.CAN_TXST 1 crewRef, Reg.CAN_STAT 1]

theorem State.refObject_shows (s : State) : (s.refObject.can 1).attempt = some crewRef
    ∧ (s.refObject.can 1).tx = Tab.put CanObj.init (s.can 1).tx crewRef (txFrame true 0x010 0 10 false s.referenceBytes) ∧ s.refObject.crew = s.crew ∧ s.refObject.regs = s.regs
    ∧ s.refObject.mem = s.mem := by
  have hcan : s.refObject.can 1 = { s.can 1 with
      tx := Tab.put CanObj.init (s.can 1).tx crewRef (txFrame true 0x010 0 10 false s.referenceBytes), attempt := some crewRef, exclusive := true, reqAt := Tab.put 0 (s.can 1).reqAt crewRef s.now } :=
    State.can_setCan ..
  rw [hcan]
  exact ⟨rfl, rfl, rfl, rfl, rfl⟩

theorem State.refPended_shows (s : State) : s.refPended.cans = s.cans ∧ s.refPended.crew = s.crew ∧ s.refPended.mem = s.mem ∧ RegsBut s s.refPended ownRefRegs :=
  ⟨rfl, rfl, rfl, (((RegsBut.refl s _).setBit _ _ (by decide)).wrN _ (by decide)).setFld _ _ _ (by decide)⟩

theorem State.refOwn_shows (s : State) (stroke : Nat) : (s.refOwn stroke).cans = s.cans ∧ (s.refOwn stroke).crew = { s.crew with ref := some stroke, lastRef := stroke, missing := 0 }
    ∧ (s.refOwn stroke).mem = s.mem ∧ RegsBut s (s.refOwn stroke) ownRefRegs :=
  ⟨rfl, rfl, rfl, ((RegsBut.refl s _).setBit 2 false (a := Reg.CAN_STAT 1) (by decide)).congr rfl⟩

/-- The state in which the stroke is sent after this lane's own reference started. -/
theorem refSent_shows {s u v w : State} {stroke : Nat} (hu : s.refObject = u) (hv : u.refPended = v) (hw : v.refOwn stroke = w) : (w.can 1).attempt = some crewRef
    ∧ w.txObj 1 crewRef = txFrame true 0x010 0 10 false s.referenceBytes ∧ w.crew = { s.crew with ref := some stroke, lastRef := stroke, missing := 0 } ∧ RegsBut s v ownRefRegs
    ∧ RegsBut s w ownRefRegs ∧ w.mem = s.mem := by
  obtain ⟨hattempt, htx, ucrew, uregs, umem⟩ := s.refObject_shows
  obtain ⟨vcans, vcrew, vmem, vregs⟩ := u.refPended_shows
  obtain ⟨wcans, wcrew, wmem, wregs⟩ := v.refOwn_shows stroke
  rw [hu] at hattempt htx ucrew uregs umem
  rw [hv] at vcans vcrew vmem vregs
  rw [hw] at wcans wcrew wmem wregs
  have hcan : w.can 1 = u.can 1 := State.can_of_cans (wcans.trans vcans) 1
  have hregs : RegsBut s v ownRefRegs := (RegsBut.of_regs uregs).trans vregs
  refine ⟨by rw [hcan, hattempt], ?_, by rw [wcrew, vcrew, ucrew], hregs, hregs.trans wregs, (wmem.trans vmem).trans umem⟩
  rw [State.txObj, hcan, htx]
  exact Tab.get_put_self ..

theorem State.referenceBytes_atUs (s : State) (us : Nat) : (s.atUs us).referenceBytes = s.referenceBytes := by
  have hstroke : (s.atUs us).strokeNo = s.strokeNo := State.rdN_atUs_ne _ _ (by decide)
  have hwph : (s.atUs us).wph = s.wph := State.fld_atUs_ne _ _ _ _ (by decide)
  have hheat : (s.atUs us).heat = s.heat := congrArg (· + 1) (State.fld_atUs_ne _ _ _ _ (by decide))
  have hperiod : (s.atUs us).fld Reg.STK_CTRL 0 2 = s.fld Reg.STK_CTRL 0 2 := State.fld_atUs_ne _ _ _ _ (by decide)
  rw [State.referenceBytes, State.referenceBytes, hstroke, hwph, hheat, hperiod]
  rfl

theorem doCrewReferenceSend_case {s : State} (hon : s.crewOn = true) (hrow : s.rowing = true) (hmay : s.leading = true ∨ s.crew.deputy = true) (hready : s.canReady 1 = true) :
    doCrewReferenceSend s = ((s.atUs 20).refObject.refPended.refOwn (s.atUs 20).refObject.refPended.strokeNo).crewStroke
      ((s.atUs 20).refObject.refPended.refOwn (s.atUs 20).refObject.refPended.strokeNo).strokeNo := by
  unfold doCrewReferenceSend
  rw [if_neg (by rw [hon, hrow, hready, Bool.or_eq_true_iff.mpr hmay]; decide)]
  rfl

/-- A reference that starts on the bus: its object attempted, its STROKE the crew's, then what the lane sends in the stroke. -/
theorem doCrewReferenceSend_sends {s : State} (hon : s.crewOn = true) (hrow : s.rowing = true) (hmay : s.leading = true ∨ s.crew.deputy = true) (hready : s.canReady 1 = true) :
    ∃ u : State, doCrewReferenceSend s = u.crewStroke s.strokeNo ∧ (u.can 1).attempt = some crewRef ∧ u.txObj 1 crewRef = txFrame true 0x010 0 10 false s.referenceBytes
      ∧ u.crew = { s.crew with ref := some s.strokeNo, lastRef := s.strokeNo, missing := 0 } ∧ RegsBut s u (Reg.STK_PHASE :: ownRefRegs) ∧ SameMem s u := by
  have hcase := doCrewReferenceSend_case hon hrow hmay hready
  have hbytes := s.referenceBytes_atUs 20
  have hat : RegsBut s (s.atUs 20) (Reg.STK_PHASE :: ownRefRegs) := (RegsBut.refl s _).atUs _ List.mem_cons_self
  have hsame : (s.atUs 20).crew = s.crew ∧ (s.atUs 20).mem = s.mem := ⟨rfl, rfl⟩
  obtain ⟨hcrew, hmem⟩ := hsame
  generalize s.atUs 20 = v at hcase hbytes hat hcrew hmem
  obtain ⟨hattempt, hobj, wcrew, hpended, hregs, wmem⟩ := refSent_shows (s := v) (stroke := v.refObject.refPended.strokeNo) rfl rfl rfl
  have hto {u : State} (h : RegsBut v u ownRefRegs) : RegsBut s u (Reg.STK_PHASE :: ownRefRegs) := hat.trans (h.mono fun _ ha => List.mem_cons_of_mem _ ha)
  have hstroke {u : State} (h : RegsBut v u ownRefRegs) : u.strokeNo = s.strokeNo := State.rdN_of_rd (hto h _ (by decide))
  rw [hstroke hregs] at hcase
  rw [hstroke hpended] at hcase hattempt hobj hregs wcrew wmem
  generalize v.refObject.refPended.refOwn s.strokeNo = w at *
  exact ⟨w, hcase, hattempt, by rw [hobj, hbytes], by rw [wcrew, hcrew], hto hregs, SameMem.of_mem (wmem.trans hmem)⟩

/-! Missing references, joins and duplicates (R308, R310, R313, R317) -/

theorem doCrewReferenceMissing_late {s : State} (hon : s.crewOn = true) (hfollow : s.leading = false) (hmissing : 8 ≤ s.crew.missing) : doCrewReferenceMissing s =
    if lowest (s.crew.lanes.filter (fun l => decide (some l ≠ s.crew.leader) && s.laneLocked l)) = some s.lane then s.setDeputy true else if s.crew.deputy then s else s.setLock false := by
  unfold doCrewReferenceMissing
  rw [if_neg (by rw [hon, hfollow, decide_eq_true hmissing]; decide)]
  dsimp only
  simp only [decide_eq_true_eq]

/-- A lane that found its number taken falls silent. -/
theorem State.duplicate_shows (s : State) : s.duplicate.crew.st = cwDuplicate ∧ s.duplicate.crew.send = [] ∧ s.duplicate.crew.outs = [] := by
  unfold State.duplicate
  extract_lets _ u
  have hcrew : u.crew.st = cwDuplicate ∧ u.crew.send = [] ∧ u.crew.outs = [] := by
    have hdeputy := (State.setDeputy_shows (s.setCrew { s.crew with st := cwDuplicate, send := [], outs := [] }) false).1
    dsimp only at hdeputy
    simp only [u]
    rw [State.logS_crew, hdeputy]
    exact ⟨rfl, rfl, rfl⟩
  clear_value u
  rw [State.txAbort_crew]
  exact hcrew

theorem crewOn_of_duplicate {s : State} (h : s.crew.st = cwDuplicate) : s.crewOn = false := by
  rw [State.crewOn, h, decide_eq_false (p := cwDuplicate ≠ cwDuplicate) (by decide), Bool.and_false]

theorem doCrewJoinReceived_stray {s : State} {data : List Byte} {us : Nat} (l : Nat) (hon : s.crewOn = true) (h : data.length ≠ 8 ∨ s.inCrewWindow 4 us = false) :
    doCrewJoinReceived s l data us = s.stray := by
  unfold doCrewJoinReceived
  dsimp only
  rw [if_neg (by rw [hon]; decide), if_pos h]

theorem doCrewJoinReceived_own {s : State} {data : List Byte} {us : Nat} (hon : s.crewOn = true) (hlen : data.length = 8) (hin : s.inCrewWindow 4 us = true)
    (huid : crewField data 0 4 ≠ s.rdN Reg.SYS_UID0) : doCrewJoinReceived s s.lane data us = s.duplicate := by
  unfold doCrewJoinReceived
  dsimp only
  rw [if_neg (by rw [hon]; decide), if_neg (by simp [hlen, hin]), if_pos rfl, if_pos huid]

theorem doCrewJoinReceived_joins {s : State} {data : List Byte} {l us : Nat} (hon : s.crewOn = true) (hlen : data.length = 8) (hin : s.inCrewWindow 4 us = true) (hother : l ≠ s.lane)
    (hhigher : s.rowing = true ∨ s.lane < l) (hnew : (l, crewField data 0 4, crewField data 4 1, crewField data 5 1) ∉ s.crew.joins) :
    doCrewJoinReceived s l data us = s.setCrew { s.crew with joins := s.crew.joins ++ [(l, crewField data 0 4, crewField data 4 1, crewField data 5 1)] } := by
  have hlower : ¬((!s.rowing && decide (l < s.lane)) = true) := by
    rw [Bool.and_eq_true, Bool.not_eq_true', decide_eq_true_eq]
    rintro ⟨hno, hlow⟩
    obtain hrow | hhigh := hhigher
    · exact absurd (hno.symm.trans hrow) Bool.false_ne_true
    · omega
  unfold doCrewJoinReceived
  dsimp only
  rw [if_neg (by rw [hon]; decide), if_neg (by simp [hlen, hin]), if_neg hother, if_neg hlower, if_neg (by rw [List.contains_iff_mem]; exact hnew)]

/-! Summaries and lanes that go (R312, R313, R317) -/

theorem doCrewSummaryReceived_own {s : State} (data : List Byte) (us : Nat) (hon : s.crewOn = true) : doCrewSummaryReceived s s.lane data us = s.duplicate := by
  unfold doCrewSummaryReceived
  rw [if_neg (by rw [hon]; decide), if_pos rfl]

theorem doCrewSummaryReceived_stray {s : State} {data : List Byte} {l us : Nat} (hon : s.crewOn = true) (hother : l ≠ s.lane)
    (h : data.length ≠ 64 ∨ crewField data 0 1 ≠ 0 ∨ s.inCrewWindow 1 us = false) : doCrewSummaryReceived s l data us = s.stray := by
  unfold doCrewSummaryReceived
  rw [if_neg (by rw [hon]; decide), if_neg hother, if_pos h]

theorem doCrewSummaryReceived_taken {s : State} {data : List Byte} {l us : Nat} (hon : s.crewOn = true) (hother : l ≠ s.lane) (hlen : data.length = 64) (htype : crewField data 0 1 = 0)
    (hin : s.inCrewWindow 1 us = true) : doCrewSummaryReceived s l data us =
      s.setCrew { s.crew with seen := l :: s.crew.seen, sums := (s.crew.sums.filter (fun e => decide (e.1 ≠ l))) ++ [(l, summaryOf data, s.crew.lastRef)] } := by
  unfold doCrewSummaryReceived
  rw [if_neg (by rw [hon]; decide), if_neg hother, if_neg (by simp [hlen, htype, hin])]

/-- This lane leads: it is the leader, and of the lanes only its own may be new. -/
theorem State.takeLead_shows (s : State) (cause : Nat) : let t := s.takeLead cause
    t.crew.leader = some s.lane ∧ t.crew.st = cwLeader ∧ t.crew.gone = s.crew.gone ∧ (∀ l, l ≠ s.lane → l ∉ s.crew.lanes → l ∉ t.crew.lanes) := by
  unfold State.takeLead
  extract_lets u lanes _ v
  have hu : u.crew.leader = some s.lane ∧ u.crew.gone = s.crew.gone ∧ u.crew.lanes = s.crew.lanes ∧ u.lane = s.lane := by
    obtain ⟨hdeputy, -, -, -, hforce⟩ := s.setDeputy_shows false
    have hinForce : u.inForce = s.inForce := (State.newLeader_inForce ..).trans hforce
    have hcrew : u.crew = { (s.setDeputy false).crew with leader := some s.lane } := State.newLeader_crew ..
    rw [hcrew, hdeputy]
    exact ⟨rfl, rfl, rfl, State.parI_of_inForce hinForce ..⟩
  clear_value u
  obtain ⟨hleader, hgone, hlanes, hlane⟩ := hu
  have hv : v.crew = { u.crew with st := cwLeader, lanes := lanes, joins := [], sender := none } := rfl
  clear_value v
  obtain ⟨hlock, -⟩ := v.setLock_shows true
  have hend : ((v.setLock true).setFld (Reg.CAN_MTX 1) 16 6 0).crew = (v.setLock true).crew := rfl
  dsimp only at hlock
  rw [hend, hlock, hv]
  refine ⟨hleader, rfl, hgone, fun l hl hout => ?_⟩
  have hin : l ∉ lanes := by
    simp only [lanes, hlanes, hlane]
    split
    · exact hout
    · rw [List.mem_append, List.mem_singleton]
      exact not_or.mpr ⟨hout, hl⟩
  exact hin

theorem State.freeHelmOf_keeps (s : State) (src cause : Nat) : (s.freeHelmOf src cause).crew = s.crew ∧ (s.freeHelmOf src cause).inForce = s.inForce := by
  unfold State.freeHelmOf
  split
  · exact ⟨(congrArg State.crew (s.freeHelm_eq cause) :), (congrArg State.inForce (s.freeHelm_eq cause) :)⟩
  · exact ⟨rfl, rfl⟩

/-- A lane declared gone leaves the lanes. -/
def State.laneLeft (s : State) (l last : Nat) : State :=
  (s.setCrew { s.crew with
    lanes := s.crew.lanes.filter (fun m => decide (m ≠ l)), gone := s.crew.gone ++ [l], missed := Tab.put 0 s.crew.missed l 0, sums := s.crew.sums.filter (fun e => decide (e.1 ≠ l)) }).logS
    0x0D12 (u8 l ++ u32 last)

theorem State.laneLeft_shows (s : State) (l last : Nat) : let t := s.laneLeft l last
    t.crew.lanes = s.crew.lanes.filter (fun m => decide (m ≠ l)) ∧ t.crew.gone = s.crew.gone ++ [l] ∧ t.crew.leader = s.crew.leader ∧ RegsBut s t (logRegs 0) ∧ t.mem = s.mem ∧ t.inForce = s.inForce := by
  unfold State.laneLeft
  dsimp only
  generalize hu : s.setCrew _ = u
  have hcrew : u.crew.lanes = s.crew.lanes.filter (fun m => decide (m ≠ l)) ∧ u.crew.gone = s.crew.gone ++ [l] ∧ u.crew.leader = s.crew.leader ∧ u.regs = s.regs ∧ u.mem = s.mem
      ∧ u.inForce = s.inForce := by
    rw [← hu]
    exact ⟨rfl, rfl, rfl, rfl, rfl, rfl⟩
  obtain ⟨hlanes, hgone, hleader, hregs, hmem, hforce⟩ := hcrew
  rw [State.logS_crew, State.logS_mem, State.logS_inForce]
  exact ⟨hlanes, hgone, hleader, RegsBut.logS (t := u) _ _ (RegsBut.of_regs hregs) fun _ h => h, hmem, hforce⟩

theorem doLaneGone_goes {s : State} {l : Nat} (hon : s.crewOn = true) (hin : l ∈ s.crew.lanes) (hother : l ≠ s.lane) (hmissed : 3 ≤ Tab.get 0 s.crew.missed l) : ∃ last,
    (s.crew.leader ≠ some l → doLaneGone s l = s.laneLeft l last)
      ∧ (s.crew.leader = some l → ∀ m, lowest (s.crew.lanes.filter (fun m => decide (m ≠ l))) = some m →
        doLaneGone s l = if m = s.lane then ((s.laneLeft l last).freeHelmOf 0x18 9).takeLead 3 else ((s.laneLeft l last).freeHelmOf 0x18 9).newLeader m 3)
      ∧ (s.crew.leader = some l → lowest (s.crew.lanes.filter (fun m => decide (m ≠ l))) = none → doLaneGone s l = (s.laneLeft l last).freeHelmOf 0x18 9) := by
  have hgoes : ¬((!(s.crewOn && s.crew.lanes.contains l && decide (l ≠ s.lane) && decide (3 ≤ Tab.get 0 s.crew.missed l))) = true) := by
    rw [hon, List.contains_iff_mem.mpr hin, decide_eq_true hother, decide_eq_true hmissed]
    decide
  unfold doLaneGone
  rw [if_neg hgoes]
  extract_lets c last rest u
  refine ⟨last, ?_⟩
  have hu : u = s.laneLeft l last := rfl
  obtain ⟨-, -, -, -, -, hforce⟩ := s.laneLeft_shows l last
  rw [← hu] at hforce ⊢
  clear_value u
  have hlane : (u.freeHelmOf 0x18 9).lane = s.lane := State.parI_of_inForce ((u.freeHelmOf_keeps 0x18 9).2.trans hforce) ..
  refine ⟨fun h => if_pos h, fun h m hm => ?_, fun h hm => ?_⟩
  · rw [if_neg (not_not_intro h)]
    rw [show lowest rest = some m from hm]
    dsimp only
    rw [hlane]
  · rw [if_neg (not_not_intro h)]
    rw [show lowest rest = none from hm]

/-- With the leader gone the lowest remaining lane leads; the lane that left is not among the lanes. -/
theorem leaderGone_shows {s : State} {l : Nat} (u : State) (hlanes : u.crew.lanes = s.crew.lanes.filter (fun m => decide (m ≠ l))) (hgone : u.crew.gone = s.crew.gone ++ [l])
    (hlane : u.lane = s.lane) (hother : l ≠ s.lane) (m : Nat) : let t := if m = s.lane then u.takeLead 3 else u.newLeader m 3
    l ∉ t.crew.lanes ∧ l ∈ t.crew.gone ∧ (m = s.lane → t.crew.leader = some s.lane ∧ t.crew.st = cwLeader) := by
  have hout : l ∉ u.crew.lanes := by
    rw [hlanes]
    simp
  have hin : l ∈ u.crew.gone := by
    rw [hgone]
    simp
  dsimp only
  split
  · obtain ⟨hleader, hst, kgone, klanes⟩ := u.takeLead_shows 3
    refine ⟨klanes l (by rwa [hlane]) hout, by rwa [kgone], fun _ => ⟨by rw [hleader, hlane], hst⟩⟩
  · next h =>
    rw [State.newLeader_crew]
    exact ⟨hout, hin, fun hm => absurd hm h⟩

/-! CANA (R304) -/

theorem doCanaPeriodic_sends {s : State} (hrow : s.rowing = true) (hstd : s.parS .canaStd = 1) : doCanaPeriodic s =
    (s.sendObj 0 0 (txFrame false (s.parI .canaId) (s.parI .canaPeriod * 1000) 8 false s.canaLimits)).sendObj 0 1
      (txFrame false (s.parI .canaId + 1) (s.parI .canaPeriod * 1000) 8 false s.canaState) := by
  unfold doCanaPeriodic
  rw [if_neg (by rw [hrow, hstd]; decide)]

theorem crewPresence_holds : Obligations.CrewPresence := by
  unfold Obligations.CrewPresence
  refine ⟨fun s hrow hstd hfree₀ hfree₁ => ?cana, fun s hon hrow hmay hready => ?send, fun s data sof hon => ⟨fun hlen => ?refStray, fun hlen hstopped => ?refArms, fun hlen hrun hother => ?refTaken⟩,
    fun s hon hfollow hmissing hlow => ?deputy, fun s hon hfollow hmissing hno hlow => ?unlocked, fun s hfew => ?notMissing, fun s l us data hon h => ?joinStray,
    fun s l us data j hon hlen hin hother hhigher hj hnew => ?join, fun s us data hon hlen hin huid => ?joinOwn, fun s l us data hon hother => ⟨fun hlen htype hin => ?summary, fun h => ?summaryStray⟩,
    fun s us data hon => ?summaryOwn, fun s l hon hin hother hmissed => ?gone, fun s l hfew => ?notGone⟩
  case cana =>
    obtain ⟨hpend₀, hobj₀, hkeep₀, hregs₀, hmem₀⟩ := State.sendObj_shows (txFrame false (s.parI .canaId) (s.parI .canaPeriod * 1000) 8 false s.canaLimits) (by decide) hfree₀
    refine ⟨_, congrArg Host.Outcome.next (doCanaPeriodic_sends hrow hstd), ?_⟩
    generalize s.sendObj 0 0 (txFrame false (s.parI .canaId) (s.parI .canaPeriod * 1000) 8 false s.canaLimits) = u at hpend₀ hobj₀ hkeep₀ hregs₀ hmem₀ ⊢
    obtain ⟨hpend₁, hobj₁, hkeep₁, hregs₁, hmem₁⟩ := State.sendObj_shows (txFrame false (s.parI .canaId + 1) (s.parI .canaPeriod * 1000) 8 false s.canaState) (by decide)
      ((hkeep₀ 1 (by decide)).1.trans hfree₁)
    obtain ⟨hk₁, hk₂⟩ := hkeep₁ 0 (by decide)
    exact ⟨hk₁.trans hpend₀, hpend₁, hk₂.trans hobj₀, hobj₁, (hregs₀.mono (by decide)).trans (hregs₁.mono (by decide)), SameMem.of_mem (hmem₁.trans hmem₀)⟩
  case send =>
    obtain ⟨u, hcase, hrest⟩ := doCrewReferenceSend_sends hon hrow hmay hready
    exact ⟨u, congrArg Host.Outcome.next hcase, hrest⟩
  case refStray =>
    obtain ⟨hregs, hmem, -⟩ := s.captured_only sof
    obtain ⟨hcrew, -⟩ := s.captured_keeps sof
    refine ⟨_, congrArg Host.Outcome.next (doCrewReferenceReceived_stray sof hon hlen), ?_⟩
    generalize s.captured sof = u at hregs hmem hcrew ⊢
    exact ⟨by rw [← hcrew]; rfl, hregs.congr rfl, hmem⟩
  case refArms =>
    obtain ⟨hcrew, hregs, hmem⟩ := s.heardReference_shows sof
    have hsof (h₀ : s.bit (Reg.CAN_CTRL 1) 0 = true) (h₁ : s.bit (Reg.CAN_REFID 1) 31 = true) (h₂ : s.fld (Reg.CAN_REFID 1) 0 11 = 0x010) :
        (s.heardReference sof).rdN (Reg.CAN_SOFREF 1) = sof % 2 ^ 32 := State.captured_sof sof h₀ h₁ h₂
    refine ⟨_, congrArg Host.Outcome.next ((doCrewReferenceReceived_heard sof hon hlen).trans (if_pos (by rw [hstopped]; rfl))), ?_⟩
    generalize s.heardReference sof = u at hcrew hregs hmem hsof ⊢
    refine ⟨?_, hcrew, fun h₀ h₁ h₂ => ?_, ((hregs.mono (by decide)).setBit 9 true (a := Reg.CAN_CTRL 1) (by decide)).wrN _ (by decide), hmem⟩
    · exact (State.bit_wrN_ne (u.setBit (Reg.CAN_CTRL 1) 9 true) _ _ (by decide)).trans (State.bit_setBit_self _ _ (by decide))
    · exact ((State.rdN_wrN_ne (u.setBit (Reg.CAN_CTRL 1) 9 true) _ (by decide)).trans (State.rdN_setBit_ne _ _ _ (by decide))).trans (hsof h₀ h₁ h₂)
  case refTaken =>
    have hgoes : ¬((s.leading && decide (crewField data 4 1 = s.lane)) = true) := by
      rw [Bool.and_eq_true, decide_eq_true_eq]
      rintro ⟨hlead, hown⟩
      obtain h | h := hother
      · exact absurd (h.symm.trans hlead) Bool.false_ne_true
      · exact h hown
    have hcase : doCrewReferenceReceived s data sof = (s.heardReference sof).takeReference data sof := by
      rw [doCrewReferenceReceived_heard sof hon hlen]
      dsimp only
      rw [if_neg (by rw [hrun]; decide), if_neg hgoes]
    obtain ⟨hcrew, -⟩ := s.heardReference_shows sof
    have hheard : (s.heardReference sof).crew.heardRef = true := by rw [hcrew]
    refine ⟨_, congrArg Host.Outcome.next hcase, ?_⟩
    generalize s.heardReference sof = u at hheard ⊢
    obtain ⟨hparts, hlanes, hleader⟩ := u.takeReference_shows data sof
    rw [hheard] at hparts
    simp only [CrewSt.refParts, Prod.mk.injEq] at hparts
    obtain ⟨href, hlast, hmissing, hheard'⟩ := hparts
    exact ⟨href, hlast, hmissing, hheard', hlanes, hleader⟩
  case deputy =>
    obtain ⟨hcrew, hregs, hmem, -⟩ := s.setDeputy_shows true
    refine ⟨_, congrArg Host.Outcome.next ((doCrewReferenceMissing_late hon hfollow hmissing).trans (if_pos hlow)), ?_, ?_, hregs, SameMem.of_mem hmem⟩
    · rw [hcrew]
    · rw [hcrew]
  case unlocked =>
    obtain ⟨hcrew, hregs, hmem⟩ := s.setLock_shows false
    refine ⟨_, congrArg Host.Outcome.next ((doCrewReferenceMissing_late hon hfollow hmissing).trans ((if_neg hlow).trans (if_neg (by rw [hno]; exact Bool.false_ne_true)))), ?_, ?_, hregs,
      SameMem.of_mem hmem⟩
    · rw [hcrew]
    · rw [hcrew]
      exact hno
  case notMissing => exact congrArg Host.Outcome.next (if_pos (by rw [decide_eq_false (by omega : ¬ 8 ≤ s.crew.missing), Bool.and_false]; rfl))
  case joinStray => exact ⟨_, congrArg Host.Outcome.next (doCrewJoinReceived_stray l hon h), rfl⟩
  case join =>
    subst hj
    exact ⟨_, congrArg Host.Outcome.next (doCrewJoinReceived_joins hon hlen hin hother hhigher hnew), rfl⟩
  case joinOwn =>
    obtain ⟨hst, -, -⟩ := s.duplicate_shows
    exact ⟨_, congrArg Host.Outcome.next (doCrewJoinReceived_own hon hlen hin huid), hst, crewOn_of_duplicate hst⟩
  case summary => exact ⟨_, congrArg Host.Outcome.next (doCrewSummaryReceived_taken hon hother hlen htype hin), rfl, rfl, rfl⟩
  case summaryStray => exact ⟨_, congrArg Host.Outcome.next (doCrewSummaryReceived_stray hon hother h), rfl⟩
  case summaryOwn => exact ⟨_, congrArg Host.Outcome.next (doCrewSummaryReceived_own data us hon), s.duplicate_shows⟩
  case gone =>
    obtain ⟨last, hstays, hleads, hnone⟩ := doLaneGone_goes hon hin hother hmissed
    obtain ⟨hlanes, hgone, hleader, hregs, hmem, hforce⟩ := s.laneLeft_shows l last
    by_cases hled : s.crew.leader = some l
    · generalize s.laneLeft l last = u at *
      obtain ⟨kcrew, kforce⟩ := u.freeHelmOf_keeps 0x18 9
      have hlane : (u.freeHelmOf 0x18 9).lane = s.lane := State.parI_of_inForce (kforce.trans hforce) ..
      generalize u.freeHelmOf 0x18 9 = v at *
      rw [← kcrew] at hlanes hgone
      cases hrest : lowest (s.crew.lanes.filter (fun m => decide (m ≠ l))) with
      | none =>
        refine ⟨_, congrArg Host.Outcome.next (hnone hled hrest), ?_, ?_, fun h => absurd hled h, fun _ h => absurd h (by simp)⟩
        · rw [hlanes]
          simp
        · rw [hgone]
          simp
      | some m =>
        obtain ⟨hout, hin', hlead⟩ := leaderGone_shows v hlanes hgone hlane hother m
        exact ⟨_, congrArg Host.Outcome.next (hleads hled m hrest), hout, hin', fun h => absurd hled h, fun _ hm => hlead (Option.some.inj hm)⟩
    · refine ⟨_, congrArg Host.Outcome.next (hstays hled), ?_, ?_, fun _ => ⟨hlanes, hleader, hregs, SameMem.of_mem hmem⟩, fun h => absurd h hled⟩
      · rw [hlanes]
        simp
      · rw [hgone]
        simp
  case notGone => exact congrArg Host.Outcome.next (if_pos (by rw [decide_eq_false (by omega : ¬ 3 ≤ Tab.get 0 s.crew.missed l), Bool.and_false]; rfl))

/-- Settles O41: each frame and each missed reference by what it changes of the crew. -/
theorem crewPresence : Obligations.CrewPresence := crewPresence_holds

end Sys2Proof.Machine
end

section
/-!
PROOFS. Crew orders and outcomes (R307, R314, R315, R336): the checks of an orders frame, the orders that its entries place, the console commands that an outcome or its absence answers, and the crew commands of a console. They settle O42.
-/

namespace Sys2Proof.Machine

/-! Orders frames (R314) -/

/-- The order that entry e of accepted frame f places. -/
def State.crewOrderOf (s : State) (f : Nat) (e : Nat × CrewEntry) : Order :=
  ⟨0x18, 5, e.2.kind, e.2.target, e.2.value, e.2.ref, s.now, s.strokeNo, decide (s.cam.state = .stake), .crew (4 * f + e.1)⟩

/-- Entries placed one after the other join the set in their order. -/
theorem State.placeEntries (s : State) (f : Nat) (l : List (Nat × CrewEntry)) :
    l.foldl (fun (s : State) (e : Nat × CrewEntry) => s.placeOrder 0x18 5 e.2.kind e.2.target e.2.value e.2.ref s.now (.crew (4 * f + e.1))) s
      = { s with cam := { s.cam with orders := s.cam.orders ++ l.map (s.crewOrderOf f) } } := by
  induction l generalizing s with
  | nil => rw [List.foldl_nil, List.map_nil, List.append_nil]
  | cons e l ih =>
    rw [List.foldl_cons, ih, List.map_cons]
    have hfirst : s.placeOrder 0x18 5 e.2.kind e.2.target e.2.value e.2.ref s.now (.crew (4 * f + e.1)) = { s with cam := { s.cam with orders := s.cam.orders ++ [s.crewOrderOf f e] } } := rfl
    have hsame : ({ s with cam := { s.cam with orders := s.cam.orders ++ [s.crewOrderOf f e] } } : State).crewOrderOf f = s.crewOrderOf f := rfl
    rw [hfirst, hsame]
    dsimp only
    rw [List.append_assoc, List.singleton_append]

/-- Where an orders frame asks for no surge, its entries are all that it places. -/
theorem State.takeOrders_places (s : State) {data : List Byte} (hno₁ : crewField data 6 1 ≠ 1) (hno₂ : crewField data 6 1 ≠ 2) : s.takeOrders data =
    { s.setCrew { s.crew with frames := s.crew.frames ++ [crewField data 0 4] } with
      cam := { s.cam with orders := s.cam.orders ++ ((List.range (ordersOf data).length).zip (ordersOf data)).map (s.crewOrderOf s.crew.frames.length) } } := by
  unfold State.takeOrders
  dsimp only
  rw [if_neg (not_or.mpr ⟨hno₁, hno₂⟩), State.placeEntries]
  rfl

theorem State.inCrewWindow_atUs (s : State) (at_ c us : Nat) : (s.atUs at_).inCrewWindow c us = s.inCrewWindow c us := by
  have hperiod : (s.atUs at_).period = s.period := by
    rw [State.period, State.period, State.fld_atUs_ne _ _ _ _ (by decide)]
  rw [State.inCrewWindow, State.inCrewWindow, State.crewWindow, State.crewWindow, hperiod]

/-- The four checks of an orders frame do not rest on the time at which they are made. -/
theorem State.ordersReason_atUs (s : State) (at_ lane us : Nat) (data : List Byte) : (s.atUs at_).ordersReason lane data us = s.ordersReason lane data us := by
  unfold State.ordersReason
  rw [State.inCrewWindow_atUs]
  rfl

theorem ordersReason_passes {s : State} {data key : List Byte} {lane us : Nat} (hin : s.inCrewWindow 2 us = true) (href : s.crew.ref = some (crewField data 0 4))
    (hleader : s.crew.leader = some (crewField data 4 1)) (hkey : s.crewKey = some key) (hmac : crewMac key lane (data.take 56) = data.drop 56) : s.ordersReason lane data us = 0 := by
  unfold State.ordersReason
  rw [if_neg (by rw [hin]; decide), if_neg (not_not_intro href), if_neg (not_not_intro hleader), hkey]
  exact if_pos hmac

theorem ordersReason_fails {s : State} {data : List Byte} {lane us : Nat} (h : s.inCrewWindow 2 us = false ∨ s.crew.ref ≠ some (crewField data 0 4) ∨ s.crew.leader ≠ some (crewField data 4 1)
    ∨ s.crewKey = none ∨ ∃ key, s.crewKey = some key ∧ crewMac key lane (data.take 56) ≠ data.drop 56) : s.ordersReason lane data us ≠ 0 := by
  unfold State.ordersReason
  by_cases hin : s.inCrewWindow 2 us = false
  · rw [if_pos hin]
    decide
  by_cases href : s.crew.ref ≠ some (crewField data 0 4)
  · rw [if_neg hin, if_pos href]
    decide
  by_cases hleader : s.crew.leader ≠ some (crewField data 4 1)
  · rw [if_neg hin, if_neg href, if_pos hleader]
    decide
  rw [if_neg hin, if_neg href, if_neg hleader]
  obtain hkey | ⟨key, hkey, hmac⟩ := ((h.resolve_left hin).resolve_left href).resolve_left hleader
  · rw [hkey]
    exact (by decide : (4 : Nat) ≠ 0)
  · rw [hkey]
    dsimp only
    rw [if_neg hmac]
    decide

theorem doCrewOrdersReceived_stray {s : State} {data : List Byte} (us : Nat) (hon : s.crewOn = true) (hlen : data.length ≠ 64) : doCrewOrdersReceived s s.lane data us = s.stray := by
  unfold doCrewOrdersReceived
  rw [if_neg (by rw [hon, decide_eq_true rfl]; decide), if_pos hlen]

theorem doCrewOrdersReceived_refused {s : State} {data : List Byte} {us : Nat} (hon : s.crewOn = true) (hlen : data.length = 64) (h : s.ordersReason s.lane data us ≠ 0) :
    doCrewOrdersReceived s s.lane data us = (s.atUs us).refuseOrders s.lane (s.ordersReason s.lane data us) := by
  unfold doCrewOrdersReceived
  rw [if_neg (by rw [hon, decide_eq_true rfl]; decide), if_neg (not_not_intro hlen)]
  dsimp only
  rw [State.ordersReason_atUs, if_pos h]

theorem doCrewOrdersReceived_taken {s : State} {data : List Byte} {us : Nat} (hon : s.crewOn = true) (hlen : data.length = 64) (h : s.ordersReason s.lane data us = 0) (hfollow : s.leading = false)
    (hin : s.lane ∈ s.crew.lanes) : doCrewOrdersReceived s s.lane data us = (s.atUs us).takeOrders data := by
  have hmember : ¬(((s.atUs us).leading || !(s.atUs us).crew.lanes.contains (s.atUs us).lane) = true) := by
    have hlanes : (s.atUs us).crew.lanes.contains (s.atUs us).lane = true := List.contains_iff_mem.mpr hin
    have hleading : (s.atUs us).leading = false := hfollow
    rw [hlanes, hleading]
    decide
  unfold doCrewOrdersReceived
  rw [if_neg (by rw [hon, decide_eq_true rfl]; decide), if_neg (not_not_intro hlen)]
  dsimp only
  rw [State.ordersReason_atUs, if_neg (not_not_intro h), if_neg hmember]

theorem State.refuseOrders_shows (s : State) (lane reason : Nat) : let t := s.refuseOrders lane reason
    t.cam = s.cam ∧ t.crew = { s.crew with discarded := s.crew.discarded + 1, refused := true } ∧ RegsBut s t (logRegs 0) ∧ t.mem = s.mem := by
  unfold State.refuseOrders
  dsimp only
  split
  · next h =>
    have hrefused : s.crew.refused = true := h
    refine ⟨rfl, ?_, RegsBut.of_regs rfl, rfl⟩
    rw [← hrefused]
    rfl
  · generalize hu : State.setCrew _ { State.crew _ with refused := true } = u
    have hrest : u.cam = s.cam ∧ u.crew = { s.crew with discarded := s.crew.discarded + 1, refused := true } ∧ u.regs = s.regs ∧ u.mem = s.mem := by
      rw [← hu]
      exact ⟨rfl, rfl, rfl, rfl⟩
    obtain ⟨hcam, hcrew, hregs, hmem⟩ := hrest
    exact ⟨(State.logS_cam ..).trans hcam, (State.logS_crew ..).trans hcrew, RegsBut.logS (t := u) _ _ (RegsBut.of_regs hregs) fun _ h => h, (State.logS_mem ..).trans hmem⟩

/-! Outcomes and the commands that wait for them (R315, R336) -/

/-- Whether an outcome frame of a lane answers a waiting command. -/
def answersWait (lane : Nat) (data : List Byte) (w : CrewWait) : Bool :=
  decide (w.lane = lane) && (if w.surge then decide (crewField data 44 1 ≠ 0xFF) && decide (w.ref = crewField data 60 4) else (outcomesOf data).any (fun e => decide (e.ref = w.ref)))

/-- The words in which an outcome frame answers. -/
def outcomeWords (lane : Nat) (data : List Byte) : String :=
  crewOutcomeText lane (outcomesOf data) (crewField data 44 1) (crewField data 48 4) (crewInt data 52) (crewField data 56 4) (crewField data 60 4)

/-- The waiting commands of a list leave those of the crew. -/
def State.waitsLeft (s : State) (hit : CrewWait → Bool) : State := s.setCrew { s.crew with waits := s.crew.waits.filter (fun w => !hit w) }

theorem State.takeOutcome_eq (s : State) (lane : Nat) (data : List Byte) : ∃ l, s.takeOutcome lane data =
    ((s.logT0 0x0D18 l).crew.waits.filter (answersWait lane data)).foldl (fun (u : State) w => u.say w.port w.tag [outcomeWords lane data]) ((s.logT0 0x0D18 l).waitsLeft (answersWait lane data)) :=
  ⟨_, rfl⟩

theorem doCrewOutcomeReceived_taken {s : State} {lane us : Nat} {data : List Byte} (hon : s.crewOn = true) (hlead : s.leading = true) (hother : lane ≠ s.lane) (hlen : data.length = 64)
    (htype : crewField data 0 1 = 1) (hin : s.inCrewWindow 3 us = true) : doCrewOutcomeReceived s lane data us = s.takeOutcome lane data := by
  unfold doCrewOutcomeReceived
  rw [if_neg (by rw [hon]; decide), if_neg hother, if_neg (by simp [hlen, htype, hin]), if_neg (by rw [hlead]; decide)]

theorem doCrewOutcomeReceived_stray {s : State} {lane us : Nat} {data : List Byte} (hon : s.crewOn = true) (hother : lane ≠ s.lane)
    (h : data.length ≠ 64 ∨ crewField data 0 1 ≠ 1 ∨ s.inCrewWindow 3 us = false) : doCrewOutcomeReceived s lane data us = s.stray := by
  unfold doCrewOutcomeReceived
  rw [if_neg (by rw [hon]; decide), if_neg hother, if_pos h]

/-- Commands of which none leaves stay as they are. -/
theorem waitsLeft_none {s : State} {hit : CrewWait → Bool} (h : ∀ w ∈ s.crew.waits, hit w = false) : s.waitsLeft hit = s ∧ s.crew.waits.filter hit = [] := by
  have hkeep : s.crew.waits.filter (fun w => !hit w) = s.crew.waits := List.filter_eq_self.mpr fun w hw => by rw [h w hw]; rfl
  refine ⟨?_, List.filter_eq_nil_iff.mpr fun w hw => by rw [h w hw]; exact Bool.false_ne_true⟩
  rw [State.waitsLeft, hkeep]
  rfl

/-- A command that is the only one and leaves is taken from the waiting ones. -/
theorem waitsLeft_only {s : State} {hit : CrewWait → Bool} {w : CrewWait} (hone : s.crew.waits = [w]) (h : hit w = true) :
    s.waitsLeft hit = s.setCrew { s.crew with waits := [] } ∧ s.crew.waits.filter hit = [w] := by
  rw [State.waitsLeft, hone, List.filter_cons_of_neg (by rw [h]; decide), List.filter_cons_of_pos h]
  exact ⟨rfl, rfl⟩

/-- Whether a waiting command of a lane has waited for two watches. -/
def State.waitLate (s : State) (lane : Nat) (w : CrewWait) : Bool := decide (w.lane = lane) && decide (2 * s.watchLen ≤ (s.strokeNo + 2 ^ 32 - w.stroke) % 2 ^ 32)

theorem doCrewNoreply_eq {s : State} (lane : Nat) (hon : s.camlanOn = true) :
    doCrewNoreply s lane = (s.crew.waits.filter (s.waitLate lane)).foldl (fun (u : State) w => u.say w.port w.tag [errLine 14]) (s.waitsLeft (s.waitLate lane)) := by
  unfold doCrewNoreply
  dsimp only
  rw [if_neg (by rw [hon]; decide)]
  rfl

/-! Crew commands of a console (R336) -/

theorem crewOn_lineTaken (s : State) (p : Nat) : (lineTaken s p).crewOn = s.crewOn := lineTaken_of State.crewOn s p fun _ _ _ => rfl

theorem leading_lineTaken (s : State) (p : Nat) : (lineTaken s p).leading = s.leading := lineTaken_of State.leading s p fun _ _ _ => rfl

/-- On the leading lane a command to another admitted lane is sent and waits for its outcome. -/
theorem crewCommand_sends {s : State} {p lane : Nat} {tag : Option String} (ref : Nat) (surge : Bool) (f : CrewSend) (hwaits : lineWaits s p tag)
    (hlevel : (s.con p).level = .installer ∨ (s.con p).level = .service) (hon : s.crewOn = true) (hlead : s.leading = true) (hother : lane ≠ s.lane) (hin : lane ∈ s.crew.lanes) :
    s.crewCommand p lane ref surge f = (lineTaken s p).setCrew { s.crew with send := s.crew.send ++ [f], waits := s.crew.waits ++ [⟨lane, ref, surge, p, tag, s.strokeNo⟩] } := by
  have hcrew : (lineTaken s p).crew = s.crew := lineTaken_of State.crew s p fun _ _ _ => rfl
  have hlane : (lineTaken s p).lane = s.lane := lineTaken_of State.lane s p fun _ _ _ => rfl
  have hstroke : (lineTaken s p).strokeNo = s.strokeNo := lineTaken_of State.strokeNo s p fun _ _ _ => rfl
  have hcontains : s.crew.lanes.contains lane = true := List.contains_iff_mem.mpr hin
  rw [State.crewCommand, State.ianel_of_lineWaits _ hwaits (State.isIplus_of hlevel), crewOn_lineTaken, leading_lineTaken, hon, hlead, hcrew, hlane, hstroke,
    if_neg (by decide), if_neg (by rw [hcontains]; simpa using hother)]

theorem crewCommand_refused {s : State} {p : Nat} {tag : Option String} (lane ref : Nat) (surge : Bool) (f : CrewSend) (hwaits : lineWaits s p tag)
    (hlevel : (s.con p).level = .installer ∨ (s.con p).level = .service) (hfollow : s.leading = false) :
    s.crewCommand p lane ref surge f = (lineTaken s p).say p tag [errLine 16 "cond=leader"] := by
  rw [State.crewCommand, State.ianel_of_lineWaits _ hwaits (State.isIplus_of hlevel), leading_lineTaken, hfollow, Bool.and_false]
  rfl

/-- A command that was sent touches the crew alone, beside the line that it was. -/
theorem crewCommanded_shows (s : State) (p : Nat) (c : CrewSt) : ((lineTaken s p).setCrew c).crew = c ∧ RegsBut s ((lineTaken s p).setCrew c) [] ∧ SameMem s ((lineTaken s p).setCrew c) :=
  ⟨rfl, RegsBut.of_regs (t := (lineTaken s p).setCrew c) (lineTaken_regs s p), SameMem.of_mem (t := (lineTaken s p).setCrew c) (lineTaken_mem s p)⟩

/-- Settles O42: an orders frame by its four checks, an outcome and its absence by the commands that wait, and a command by the lane that leads. -/
theorem crewOrdersAndOutcomes : Obligations.CrewOrdersAndOutcomes := by
  unfold Obligations.CrewOrdersAndOutcomes
  refine ⟨fun s data key us hus hon hlen hfollow hin hwindow href hleader hkey hmac hno₁ hno₂ => ?taken, fun s data us hon hlen hfails => ?refused, fun s data us hon hlen => ?ordersStray,
    fun s lane us data hother => ?otherLane, fun s lane us data hon hlead hother hlen htype hin => ⟨fun hnone => ?noWait, fun w hone hlane hsurge href => ?answered⟩,
    fun s lane us data hon hother h => ?outcomeStray, fun s lane w hon hone hlane hlate => ?noreply, fun s lane hon hsoon => ?stillWaits,
    fun s p tag hwaits hlevel => ⟨fun hon hlead lane hother hin => ⟨fun kind target value ref => ?order, fun power duration ref => ?surge⟩, fun hfollow lane kind target value ref => ?notLeader⟩⟩
  case taken =>
    have hcase := (doCrewOrdersReceived_taken hon hlen (ordersReason_passes hwindow href hleader hkey hmac) hfollow hin).trans ((s.atUs us).takeOrders_places hno₁ hno₂)
    have hnow := State.now_atUs (s := s) hus
    have hstroke : (s.atUs us).strokeNo = s.strokeNo := State.rdN_atUs_ne _ _ (by decide)
    have hsame : (s.atUs us).cam = s.cam ∧ (s.atUs us).crew = s.crew ∧ (s.atUs us).mem = s.mem := ⟨rfl, rfl, rfl⟩
    have hregs : RegsBut s (s.atUs us) [Reg.STK_PHASE] := (RegsBut.refl s _).atUs _ (by decide)
    obtain ⟨hcam, hcrew, hmem⟩ := hsame
    refine ⟨_, congrArg Host.Outcome.next hcase, ?_⟩
    generalize s.atUs us = u at hnow hstroke hcam hcrew hmem hregs ⊢
    refine ⟨?_, ?_, hregs.congr rfl, SameMem.of_mem hmem⟩
    · rw [← hnow, ← hstroke, ← hcam, ← hcrew]
      rfl
    · rw [← hcrew]
      rfl
  case refused =>
    obtain ⟨hcam, hcrew, hregs, hmem⟩ := (s.atUs us).refuseOrders_shows s.lane (s.ordersReason s.lane data us)
    have hat : RegsBut s (s.atUs us) (Reg.STK_PHASE :: logRegs 0) := (RegsBut.refl s _).atUs _ List.mem_cons_self
    exact ⟨_, congrArg Host.Outcome.next (doCrewOrdersReceived_refused hon hlen (ordersReason_fails hfails)), hcam, hcrew, hat.trans (hregs.mono fun _ h => List.mem_cons_of_mem _ h),
      SameMem.of_mem hmem⟩
  case ordersStray => exact ⟨_, congrArg Host.Outcome.next (doCrewOrdersReceived_stray us hon hlen), rfl⟩
  case otherLane => exact congrArg Host.Outcome.next (if_pos (by rw [decide_eq_false hother, Bool.and_false]; rfl))
  case noWait =>
    obtain ⟨l, heq⟩ := s.takeOutcome_eq lane data
    have hcase := (doCrewOutcomeReceived_taken hon hlead hother hlen htype hin).trans heq
    have hcrew : (s.logT0 0x0D18 l).crew = s.crew := State.logT0_crew ..
    obtain ⟨hleft, hnil⟩ := waitsLeft_none (s := s.logT0 0x0D18 l) (hit := answersWait lane data) fun w hw => by
      rw [answersWait, decide_eq_false (hnone w (by rwa [hcrew] at hw)), Bool.false_and]
    rw [hleft, hnil] at hcase
    exact ⟨_, congrArg Host.Outcome.next hcase, hcrew, (RegsBut.refl s _).logT0 _ _ fun _ h => h, SameMem.of_mem (State.logT0_mem ..), State.logT0_con0 .., State.logT0_con1 ..⟩
  case answered =>
    obtain ⟨l, heq⟩ := s.takeOutcome_eq lane data
    have hcase := (doCrewOutcomeReceived_taken hon hlead hother hlen htype hin).trans heq
    have hcrew : (s.logT0 0x0D18 l).crew = s.crew := State.logT0_crew ..
    have hregs : RegsBut s (s.logT0 0x0D18 l) (logRegs 1) := (RegsBut.refl s _).logT0 _ _ fun _ h => h
    have hmem : (s.logT0 0x0D18 l).mem = s.mem := State.logT0_mem ..
    have hhit : answersWait lane data w = true := by
      obtain ⟨e, he, hsame⟩ := href
      rw [answersWait, decide_eq_true hlane, hsurge, Bool.true_and, if_neg Bool.false_ne_true, List.any_eq_true]
      exact ⟨e, he, decide_eq_true hsame⟩
    generalize s.logT0 0x0D18 l = u at hcase hcrew hregs hmem
    obtain ⟨hleft, honly⟩ := waitsLeft_only (s := u) (by rw [hcrew, hone]) hhit
    rw [hleft, honly] at hcase
    exact ⟨u.setCrew { u.crew with waits := [] }, congrArg Host.Outcome.next hcase, by rw [← hcrew]; rfl, hregs.congr rfl, SameMem.of_mem hmem⟩
  case outcomeStray => exact ⟨_, congrArg Host.Outcome.next (doCrewOutcomeReceived_stray hon hother h), rfl⟩
  case noreply =>
    obtain ⟨hleft, honly⟩ := waitsLeft_only (hit := s.waitLate lane) hone (by rw [State.waitLate, decide_eq_true hlane, decide_eq_true hlate]; rfl)
    have hcase := doCrewNoreply_eq lane hon
    rw [hleft, honly] at hcase
    have herr : errLine 14 = "err 14 noreply" := by decide +kernel
    rw [herr] at hcase
    exact congrArg Host.Outcome.next hcase
  case stillWaits =>
    obtain ⟨hleft, hnil⟩ := waitsLeft_none (s := s) (hit := s.waitLate lane) fun w hw => by
      by_cases hlane : w.lane = lane
      · rw [State.waitLate, decide_eq_false (p := 2 * s.watchLen ≤ (s.strokeNo + 2 ^ 32 - w.stroke) % 2 ^ 32) (Nat.not_le.mpr (hsoon w hw hlane)), Bool.and_false]
      · rw [State.waitLate, decide_eq_false hlane, Bool.false_and]
    have hcase := doCrewNoreply_eq lane hon
    rw [hleft, hnil] at hcase
    exact congrArg Host.Outcome.next hcase
  case order => exact ⟨_, congrArg Host.Outcome.next (crewCommand_sends ref false _ hwaits hlevel hon hlead hother hin), crewCommanded_shows s p _⟩
  case surge => exact ⟨_, congrArg Host.Outcome.next (crewCommand_sends ref true _ hwaits hlevel hon hlead hother hin), crewCommanded_shows s p _⟩
  case notLeader => exact congrArg Host.Outcome.next (crewCommand_refused lane ref false _ hwaits hlevel hfollow)

end Sys2Proof.Machine
end

section
/-!
PROOFS. From the Camlan image to the end of the stake-boat interval (R115, R116, R121, R124, R128, R129, R309, R392): what the life-cycle record's copies give, what the start of the stroke timer leaves of RUN and of Camlan's state, and that no step at the end of the interval leaves RUN or easy. They settle O24.
-/

namespace Sys2Proof.Machine

/-! The Camlan image (R116, R121, R124) -/

/-- The registers that show the life-cycle record. -/
def lcsRegs : List Nat := [Reg.LCS_STATE, Reg.LCS_STAT, Reg.LCS_WIPESET, Reg.LCS_TCOUNT]

/-- Reading the copies of the life-cycle record touches the registers that show it and its non-volatile copies. -/
structure LcsFrame (s t : State) : Prop where
  eq : t = { s with regs := t.regs, nv := { s.nv with lcsRec := t.nv.lcsRec, pendingLcs := t.nv.pendingLcs } }
  regs : RegsBut s t lcsRegs

theorem LcsFrame.trans {s t u : State} (h : LcsFrame s t) (k : LcsFrame t u) : LcsFrame s u := by
  obtain ⟨heq, hregs⟩ := h
  obtain ⟨keq, kregs⟩ := k
  refine ⟨?_, hregs.trans kregs⟩
  rw [heq] at keq
  exact keq

theorem State.spoilLcs_frame (s : State) (bad : Nat) : LcsFrame s (s.spoilLcs bad) := ⟨rfl, RegsBut.of_regs rfl⟩

/-- ERR where a copy is bad. -/
def State.lcsErrShown (s : State) : State := if s.nv.lcsRec.all copyGood then s else s.setBit Reg.LCS_STAT 1 true

theorem State.lcsErrShown_frame (s : State) : LcsFrame s s.lcsErrShown := by
  unfold State.lcsErrShown
  split
  · exact ⟨rfl, RegsBut.refl s _⟩
  · exact ⟨rfl, (RegsBut.refl s _).setBit _ _ (by decide)⟩

/-- The registers of a life-cycle record, with its pending transition. -/
def State.lcsShown (s : State) (state target wipe count : Nat) (p : Option (Nat × Nat)) : State :=
  let s := (((s.setFld Reg.LCS_STATE 0 3 state).setFld Reg.LCS_STATE 4 3 target).wrN Reg.LCS_WIPESET wipe).wrN Reg.LCS_TCOUNT count
  { s with nv := { s.nv with pendingLcs := p } }

theorem State.lcsShown_frame (s : State) (state target wipe count : Nat) (p : Option (Nat × Nat)) : LcsFrame s (s.lcsShown state target wipe count p) :=
  ⟨rfl, RegsBut.mk_iff.mpr (((((RegsBut.refl s _).setFld _ _ _ (by decide)).setFld _ _ _ (by decide)).wrN _ (by decide)).wrN _ (by decide))⟩

/-- RETIRED, by the fuse or without a good copy. -/
def State.lcsRetire (s : State) : State :=
  let s := (s.setFld Reg.LCS_STATE 0 3 lcsRetired).setFld Reg.LCS_STATE 4 3 7
  { s with nv := { s.nv with pendingLcs := none } }

theorem State.lcsRetire_frame (s : State) : LcsFrame s s.lcsRetire :=
  ⟨rfl, RegsBut.mk_iff.mpr (((RegsBut.refl s _).setFld _ _ _ (by decide)).setFld _ _ _ (by decide))⟩

theorem State.lcsCopies_frame (s : State) (bad : Nat) : LcsFrame s (s.lcsCopies bad) := by
  have herr := (s.spoilLcs_frame bad).trans (s.spoilLcs bad).lcsErrShown_frame
  unfold State.lcsCopies
  dsimp only
  rw [← State.lcsErrShown]
  generalize (s.spoilLcs bad).lcsErrShown = u at herr ⊢
  split
  · exact herr.trans (u.lcsShown_frame ..)
  · exact herr.trans u.lcsRetire_frame

theorem State.locked_lcsCopies (s : State) (bad : Nat) : (s.lcsCopies bad).locked = s.locked := State.bit_of_rd ((s.lcsCopies_frame bad).regs _ (by decide)) 0

theorem doImageVerify_locked {s : State} (build bad : Nat) (hphase : s.power.phase = .bootRom) (hlocked : s.locked = true) :
    doImageVerify s none build bad = (s.lcsCopies bad).startCamlan build
      ∧ ∀ c, doImageVerify s (some c) build bad = ((s.lcsCopies bad).setBit Reg.COX_STATUS 0 false).bootFault (.imageFault (imageCheckNo c)) := by
  have hkept := (s.locked_lcsCopies bad).trans hlocked
  refine ⟨?_, fun c => ?_⟩
  · unfold doImageVerify
    rw [hphase]
    dsimp only
    rw [if_pos hkept, if_neg (by rw [hkept]; decide)]
  · unfold doImageVerify
    rw [hphase]
    dsimp only
    rw [if_pos hkept, if_neg (by rw [hkept]; decide)]

theorem doImageVerify_untested {s : State} (failed : Option ImageCheck) (build bad : Nat) (hphase : s.power.phase = .bootRom) (hlocked : s.locked = false)
    (hfails : (s.lcsCopies bad).startTestEnd.locked = false) : doImageVerify s failed build bad = (s.lcsCopies bad).startTestEnd := by
  have hkept := (s.locked_lcsCopies bad).trans hlocked
  unfold doImageVerify
  rw [hphase]
  simp only [hkept, Bool.false_eq_true, ↓reduceIte, hfails, Bool.not_false]

/-- The image fault state. -/
theorem imageFault_shows (s : State) (bad : Nat) (p : Phase) : let t := ((s.lcsCopies bad).setBit Reg.COX_STATUS 0 false).bootFault p
    t.bit Reg.COX_STATUS 0 = false ∧ t.power = { s.power with phase := p, bootTimer := false }
      ∧ RegsBut s t [Reg.COX_STATUS, Reg.LCS_STATE, Reg.LCS_STAT, Reg.LCS_WIPESET, Reg.LCS_TCOUNT] ∧ SameMem s t
      ∧ t = { s with regs := t.regs, power := t.power, nv := { s.nv with lcsRec := t.nv.lcsRec, pendingLcs := t.nv.pendingLcs } } := by
  obtain ⟨heq, hregs⟩ := s.lcsCopies_frame bad
  have hgate : (((s.lcsCopies bad).setBit Reg.COX_STATUS 0 false).bootFault p).bit Reg.COX_STATUS 0 = false :=
    (State.bit_of_rd (s := (s.lcsCopies bad).setBit Reg.COX_STATUS 0 false) rfl 0).trans (State.bit_setBit_self _ _ (by decide))
  generalize s.lcsCopies bad = u at *
  have hpower : u.power = s.power := (congrArg State.power heq :)
  have hmem : u.mem = s.mem := (congrArg State.mem heq :)
  have hall : RegsBut s u [Reg.COX_STATUS, Reg.LCS_STATE, Reg.LCS_STAT, Reg.LCS_WIPESET, Reg.LCS_TCOUNT] := hregs.mono (by decide)
  refine ⟨hgate, ?_, ?_, SameMem.of_mem (t := (u.setBit Reg.COX_STATUS 0 false).bootFault p) hmem, ?_⟩
  · rw [← hpower]
    rfl
  · exact (hall.setBit 0 false (a := Reg.COX_STATUS) (by decide)).congr rfl
  · exact (congrArg (fun x : State => (x.setBit Reg.COX_STATUS 0 false).bootFault p) heq).trans (by rw [heq]; rfl)

/-! The start of the stroke timer (R128, R392) -/

/-- RUN, Camlan's state and the boot timer are as before. -/
structure TimerKept (s t : State) : Prop where
  ctrl : t.rd Reg.STK_CTRL = s.rd Reg.STK_CTRL
  state : t.cam.state = s.cam.state
  boot : t.power.bootTimer = s.power.bootTimer

theorem TimerKept.refl (s : State) : TimerKept s s := ⟨rfl, rfl, rfl⟩

theorem TimerKept.trans {s t u : State} (h : TimerKept s t) (k : TimerKept t u) : TimerKept s u := ⟨k.ctrl.trans h.ctrl, k.state.trans h.state, k.boot.trans h.boot⟩

theorem TimerKept.ite {s t u : State} {c : Prop} [Decidable c] (h : TimerKept s t) (k : TimerKept s u) : TimerKept s (if c then t else u) := by
  split
  · exact h
  · exact k

theorem TimerKept.foldl {α : Type} (f : State → α → State) (l : List α) (hf : ∀ t, ∀ x ∈ l, TimerKept t (f t x)) (s : State) : TimerKept s (l.foldl f s) :=
  List.foldlRecOn (motive := TimerKept s) l f (TimerKept.refl s) fun t ht x hx => ht.trans (hf t x hx)

/-- Registers other than STK.CTRL are written. -/
theorem TimerKept.of_regs {s t : State} {l : List Nat} (hregs : RegsBut s t l) (hl : Reg.STK_CTRL ∉ l) (hcam : t.cam = s.cam) (hpower : t.power = s.power) : TimerKept s t :=
  ⟨hregs _ hl, by rw [hcam], by rw [hpower]⟩

theorem State.setFld_timer (s : State) {a : Nat} (lo w v : Nat) (ha : a ≠ Reg.STK_CTRL) : TimerKept s (s.setFld a lo w v) := ⟨State.rd_setFld_ne _ _ _ _ ha, rfl, rfl⟩

theorem State.setBit_timer (s : State) {a : Nat} (i : Nat) (v : Bool) (ha : a ≠ Reg.STK_CTRL) : TimerKept s (s.setBit a i v) := ⟨State.rd_setBit_ne _ _ _ ha, rfl, rfl⟩

theorem State.wrN_timer (s : State) {a : Nat} (v : Nat) (ha : a ≠ Reg.STK_CTRL) : TimerKept s (s.wrN a v) := ⟨State.rd_wrN_ne _ _ ha, rfl, rfl⟩

theorem State.putSet_timer (s : State) (reg : Nat → Nat) (l : List Nat) (h : ∀ i, reg i ≠ Reg.STK_CTRL) : TimerKept s (s.putSet reg l) :=
  TimerKept.foldl _ _ (fun t _ _ => t.setFld_timer _ _ _ (h _)) s

theorem State.showMap_timer (s : State) : TimerKept s s.showMap := TimerKept.of_regs s.showMap_regs (by decide) rfl rfl

theorem State.newSession_timer (s : State) : TimerKept s s.newSession :=
  TimerKept.trans (t := { s with nv := { s.nv with rad := { s.nv.rad with session := (s.nv.rad.session + 1) % 2 ^ 32 } } }) ⟨rfl, rfl, rfl⟩ (State.wrN_timer _ _ (by decide))

/-- The module radio is on and listens with its access word. -/
def State.radioOpened (s : State) : State := ((s.setBit Reg.RAD_CTRL 0 true).setBit Reg.RAD_CTRL 2 true).wrN Reg.RAD_ACCESS s.nv.rad.access

/-- The hop set is built anew and shown. -/
def State.hopsBuilt (s : State) : State := (s.putSet Reg.RAD_HOPSET (s.buildSet []).1).showMap

/-- A new session whose first channel is the configured one. -/
def State.radioSession (s : State) : State := s.newSession.setFld Reg.RAD_STAT 8 6 (s.fld Reg.RAD_CTRL 16 6)

theorem State.startRadio_eq (s : State) :
    s.startRadio = if s.lcs = lcsBlank ∨ s.lcs = lcsRetired then s.setBit Reg.RAD_CTRL 0 false else s.radioOpened.hopsBuilt.radioSession := rfl

theorem State.radioOpened_timer (s : State) : TimerKept s s.radioOpened :=
  ((s.setBit_timer _ _ (by decide)).trans (State.setBit_timer _ _ _ (by decide))).trans (State.wrN_timer _ _ (by decide))

theorem State.hopsBuilt_timer (s : State) : TimerKept s s.hopsBuilt := by
  have hset (i : Nat) : Reg.RAD_HOPSET i ≠ Reg.STK_CTRL := by
    unfold Reg.RAD_HOPSET Reg.STK_CTRL
    omega
  exact (s.putSet_timer _ _ hset).trans (State.showMap_timer _)

theorem State.radioSession_timer (s : State) : TimerKept s s.radioSession := s.newSession_timer.trans (State.setFld_timer _ _ _ _ (by decide))

theorem State.startRadio_timer (s : State) : TimerKept s s.startRadio := by
  rw [s.startRadio_eq]
  exact TimerKept.ite (s.setBit_timer _ _ (by decide)) ((s.radioOpened_timer.trans (State.hopsBuilt_timer _)).trans (State.radioSession_timer _))

theorem IssueFrame.timer {s t : State} (h : IssueFrame s t) : TimerKept s t := TimerKept.of_regs h.regs (by decide) (congrArg State.cam h.eq :) (congrArg State.power h.eq :)

theorem State.setRing_timer (s : State) (n : Nat) : TimerKept s (s.setRing n) := by
  unfold State.setRing
  exact TimerKept.ite (TimerKept.refl s) ((s.setFld_timer _ _ _ (by decide)).trans (State.setBit_timer _ _ _ (by decide)))

theorem State.showSeats_timer (s : State) : TimerKept s s.showSeats :=
  TimerKept.of_regs s.showSeats_only.1 (by decide) (congrArg State.cam s.showSeats_eq :) (congrArg State.power s.showSeats_eq :)

theorem State.startEnum_timer (s : State) (late : Bool) : TimerKept s (s.startEnum late) := by
  have hseats : TimerKept s s.seatsReleased :=
    TimerKept.of_regs (RegsBut.of_regs (l := []) (congrArg State.regs s.seatsReleased_eq :)) List.not_mem_nil (congrArg State.cam s.seatsReleased_eq :) (congrArg State.power s.seatsReleased_eq :)
  have hring := hseats.trans (s.seatsReleased.setRing_timer ringEnum)
  rw [State.startEnum, ← State.seatsReleased]
  dsimp only
  generalize s.seatsReleased.setRing ringEnum = v at hring ⊢
  have hopened (c : ChnSt) : TimerKept s (v.setChn c) := hring.trans ⟨rfl, rfl, rfl⟩
  exact (((hopened _).trans (State.broadcast_issue _ _ _).timer).trans (State.sendEnum_issue _ _ _).timer).trans (State.showSeats_timer _)

theorem stkCtrl_notMem_stopRegs (k : Nat) : Reg.STK_CTRL ∉ stopRegs k := fun h => by
  simp only [stopRegs, txRegs, qselRegs, fifoRegs, logRegs, List.mem_append, List.mem_cons, List.not_mem_nil, or_false, List.mem_map, List.mem_range] at h
  unfold Reg.STK_CTRL Reg.PART_SCULLST Reg.GPIO_OUT Reg.GPIO_DIR Reg.CAN_IRQ Reg.CAN_TXPEND Reg.CAN_TXDONE Reg.CAN_TXST Reg.QP_Q_STAT Reg.QP_Q_RXDATA Reg.CON_STAT Reg.CON_FIFO
    Reg.LOG_PEND Reg.LOG_BSUPP Reg.LOG_BOVF Reg.LOG_PENDDROP Reg.LOG_IRQ at h
  omega

theorem State.suspend_timer (s : State) (k cause : Nat) : TimerKept s (s.suspend k cause) := by
  have hpage : Reg.PART_STATE (k - 1) ≠ Reg.STK_CTRL := by
    unfold Reg.PART_STATE Reg.STK_CTRL
    omega
  have hset := (s.setFld_timer 0 2 pSuspended hpage).trans (State.setFld_timer _ 8 8 cause hpage)
  obtain ⟨hframe, hregs⟩ := s.suspend_stops k cause
  unfold State.pageSuspended at hframe hregs
  generalize (s.setFld (Reg.PART_STATE (k - 1)) 0 2 pSuspended).setFld (Reg.PART_STATE (k - 1)) 8 8 cause = u at hset hframe hregs
  exact hset.trans ⟨hregs _ (stkCtrl_notMem_stopRegs k), (congrArg (fun x => x.cam.state) hframe :), (congrArg (fun x => x.power.bootTimer) hframe :)⟩

theorem State.logS_timer (s : State) (c : Nat) (l : List Byte) : TimerKept s (s.logS c l) :=
  ⟨State.rd_logS _ _ _ (by decide), by rw [State.logS_cam], by rw [State.logS_power]⟩

theorem State.flashProbe_timer (s : State) (jedec : Nat) : TimerKept s (s.flashProbe jedec) := by
  unfold State.flashProbe
  refine TimerKept.ite ?_ (TimerKept.ite (s.setBit_timer _ _ (by decide)) (TimerKept.refl s))
  exact (s.logS_timer _ _).trans (TimerKept.foldl _ _ (fun t i _ => t.suspend_timer _ _) _)

/-- RUN with the period and the heat in force. -/
def State.timerWritten (s : State) : State :=
  let p := (s.parN .strokePeriod).toNat
  let s := (s.setFld Reg.STK_CTRL 0 2 (if p = 2000 then 0 else if p = 5000 then 1 else if p = 20000 then 3 else 2)).setFld Reg.STK_CTRL 4 4 (s.parI .strokeHeat - 1)
  s.setBit Reg.STK_CTRL 8 true

/-- The stake-boat interval begins and the boot timer stops. -/
def State.stakeBegun (s : State) : State :=
  { s with power := { s.power with bootTimer := false }, cam := { s.cam with state := .stake, enumLimit := 2 * s.watchLen } }

/-- The chain and the transaction table are on. -/
def State.linksOpened (s : State) : State := ((s.orReg Reg.CHN_CTRL 0xF).orReg Reg.TXT_CTRL 3).setBit Reg.TWN_CTRL 0 true

/-- The enumeration begins where a port has link. -/
def State.enumIfLinked (s : State) : State := if s.bit Reg.CHN_RING 4 || s.bit Reg.CHN_RING 5 then s.startEnum false else s

theorem State.startTimer_eq {s : State} (jedec : Nat) (hon : s.camlanOn = true) (hstopped : s.running = false) (hidle : s.cam.state = .idle) :
    s.startTimer jedec = s.timerWritten.stakeBegun.linksOpened.startRadio.enumIfLinked.flashProbe jedec := by
  unfold State.startTimer
  rw [if_neg (by rw [hon, hstopped, hidle]; decide)]
  rfl

theorem State.linksOpened_timer (s : State) : TimerKept s s.linksOpened :=
  ⟨(State.rd_setBit_ne _ _ _ (by decide)).trans ((State.rd_orReg_ne _ _ (by decide)).trans (State.rd_orReg_ne _ _ (by decide))), rfl, rfl⟩

/-- The start of the stroke timer by whoever starts it. -/
theorem State.startTimer_shows {s : State} (jedec : Nat) (hon : s.camlanOn = true) (hstopped : s.running = false) (hidle : s.cam.state = .idle) : let t := s.startTimer jedec
    t.running = true ∧ t.cam.state = .stake ∧ t.power.bootTimer = false := by
  have hrun : s.timerWritten.stakeBegun.bit Reg.STK_CTRL 8 = true := State.bit_setBit_self _ _ (by decide)
  have hbegun : s.timerWritten.stakeBegun.cam.state = .stake ∧ s.timerWritten.stakeBegun.power.bootTimer = false := ⟨rfl, rfl⟩
  obtain ⟨hstate, hboot⟩ := hbegun
  dsimp only
  rw [s.startTimer_eq jedec hon hstopped hidle]
  generalize s.timerWritten.stakeBegun = u at hrun hstate hboot ⊢
  have hopened := u.linksOpened_timer.trans (State.startRadio_timer _)
  generalize u.linksOpened.startRadio = v at hopened ⊢
  have henum : TimerKept v v.enumIfLinked := TimerKept.ite (v.startEnum_timer false) (TimerKept.refl v)
  obtain ⟨kctrl, kstate, kboot⟩ := (hopened.trans henum).trans (State.flashProbe_timer _ jedec)
  exact ⟨(State.bit_of_rd kctrl 8).trans hrun, kstate.trans hstate, kboot.trans hboot⟩

/-! The end of the stake-boat interval (R129) -/

/-- Camlan is in RUN or in easy. -/
def RunsOrEasy (s : State) : Prop := s.cam.state = .run ∨ s.cam.state = .easy

theorem RunsOrEasy.of_state {s t : State} (h : RunsOrEasy s) (hstate : t.cam.state = s.cam.state) : RunsOrEasy t := by rwa [RunsOrEasy, hstate]

theorem RunsOrEasy.of_cam {s t : State} (h : RunsOrEasy s) (hcam : t.cam = s.cam) : RunsOrEasy t := h.of_state (by rw [hcam])

theorem cam_ite {c : Prop} [Decidable c] {s t u : State} (ht : t.cam = s.cam) (hu : u.cam = s.cam) : (if c then t else u).cam = s.cam := by
  split
  · exact ht
  · exact hu

theorem cam_foldl {α : Type} (f : State → α → State) (hf : ∀ t x, (f t x).cam = t.cam) (l : List α) (s : State) : (l.foldl f s).cam = s.cam :=
  List.foldlRecOn (motive := fun t : State => t.cam = s.cam) l f rfl fun t ht x _ => (hf t x).trans ht

theorem State.setDeputy_cam (s : State) (v : Bool) : (s.setDeputy v).cam = s.cam := by
  unfold State.setDeputy
  refine cam_ite rfl ?_
  rw [State.logS_cam]
  rfl

theorem State.newLeader_cam (s : State) (l cause : Nat) : (s.newLeader l cause).cam = s.cam := by
  unfold State.newLeader
  refine cam_ite rfl ?_
  dsimp only
  rw [State.logS0_cam]
  rfl

theorem State.txAbortOne_cam (s : State) (x o : Nat) : (s.txAbortOne x o).cam = s.cam := by
  unfold State.txAbortOne
  refine cam_ite rfl (cam_ite rfl ?_)
  rw [State.txEnd_eq]
  exact cam_ite rfl (cam_ite rfl rfl)

theorem State.setLock_cam (s : State) (v : Bool) : (s.setLock v).cam = s.cam := by
  have hlogged (c : CrewSt) (code : Nat) (l : List Byte) : ((s.setCrew c).logS code l).cam = s.cam := State.logS_cam ..
  unfold State.setLock
  exact cam_ite rfl (cam_ite (hlogged _ _ _) ((State.txAbortOne_cam _ _ _).trans (hlogged _ _ _)))

theorem State.takeLead_cam (s : State) (cause : Nat) : (s.takeLead cause).cam = s.cam := by
  have hlead := (State.newLeader_cam (s.setDeputy false) s.lane cause).trans (s.setDeputy_cam false)
  have hlane : (s.setDeputy false).lane = s.lane := State.parI_of_inForce (s.setDeputy_shows false).2.2.2.2 ..
  unfold State.takeLead
  dsimp only
  generalize (s.setDeputy false).newLeader s.lane cause = u at hlead ⊢
  have hset (c : CrewSt) : (((u.setCrew c).setLock true).setFld (Reg.CAN_MTX 1) 16 6 0).cam = u.cam := (State.setFld_cam ..).trans ((State.setLock_cam _ _).trans rfl)
  exact (hset _).trans hlead

theorem State.crewInterval_cam (s : State) : s.crewInterval.cam = s.cam := by
  have hopened : (((s.setBit (Reg.CAN_CTRL 1) 2 false).setBit (Reg.CAN_CTRL 1) 3 false).canCtrl 1).cam = s.cam := rfl
  unfold State.crewInterval
  dsimp only
  generalize ((s.setBit (Reg.CAN_CTRL 1) 2 false).setBit (Reg.CAN_CTRL 1) 3 false).canCtrl 1 = u at hopened ⊢
  exact cam_ite ((u.takeLead_cam 1).trans hopened) hopened

theorem State.radioInterval_cam (s : State) : s.radioInterval.cam = s.cam := by
  unfold State.radioInterval
  exact cam_ite rfl rfl

theorem State.initPart_cam (s : State) (k : Nat) : (s.initPart k).cam = s.cam := by
  unfold State.initPart
  dsimp only
  rw [State.setFld_cam, State.setFld_cam]
  have hctx (u : State) : ((List.range 4).foldl (fun (v : State) sc => v.setCtx sc k Ctx.init) u).cam = u.cam := cam_foldl (fun (v : State) sc => v.setCtx sc k Ctx.init) (fun _ _ => rfl) _ u
  exact (hctx _).trans ((State.wrBytes_cam ..).trans rfl)

theorem State.startPart_cam (s : State) (k : Nat) : (s.startPart k).cam = s.cam := by
  unfold State.startPart
  dsimp only
  have hwindow (u : State) : (u.loadWindow k).cam = u.cam := rfl
  rw [State.logSK_cam, hwindow, State.setFld_cam, State.initPart_cam]

theorem State.startVerified_cam (s : State) : s.startVerified.cam = s.cam := by
  unfold State.startVerified
  exact cam_ite (cam_foldl _ (fun t k => cam_ite (t.startPart_cam k) rfl) _ s) rfl

theorem State.startSculls_cam (s : State) : s.startSculls.cam = s.cam := by
  unfold State.startSculls
  exact cam_ite rfl rfl

theorem State.setHelm_state (s : State) (h : Helm) (cause : Nat) : (s.setHelm h cause).cam.state = s.cam.state := by
  unfold State.setHelm
  dsimp only
  rw [State.logS0_cam]

theorem State.defaultHelm_state (s : State) : s.defaultHelm.cam.state = s.cam.state := by
  unfold State.defaultHelm
  dsimp only
  generalize hu : (if s.parS .helmDefault = 1 ∨ s.parS .helmDefault = 2 then { s with cam := { s.cam with helmPort := some (s.parS .helmDefault - 1) } } else s : State) = u
  have hstate : u.cam.state = s.cam.state := by
    rw [← hu]
    split <;> rfl
  rw [← hstate]
  split
  · rfl
  · split
    · split
      · exact u.setHelm_state _ _
      · rfl
    · split
      · exact u.setHelm_state _ _
      · rfl

theorem State.toCharge_cam (s : State) (n : Nat) : (s.toCharge n).cam = s.cam := (s.toCharge_frame n).2.2.2.1

theorem State.enterPhase_cam (s : State) (phase mv : Nat) : (s.enterPhase phase mv).cam = s.cam := by
  unfold State.enterPhase
  dsimp only
  rw [State.toCharge_cam]
  rfl

theorem State.detect_cam (s : State) (mv : Nat) : (s.detect mv).cam = s.cam := by
  have hdetect (k : KpaSt) : ((s.setKpa k).toCharge cDetect).cam = s.cam := (State.toCharge_cam _ _).trans rfl
  unfold State.detect
  dsimp only
  generalize hd : State.toCharge _ cDetect = d
  have hcam : d.cam = s.cam := by
    rw [← hd]
    exact hdetect _
  have hset (k : KpaSt) : (d.setKpa k).cam = s.cam := hcam
  refine cam_ite hcam (cam_ite ?_ (cam_ite ?_ (cam_ite ?_ ?_)))
  · exact (State.enterPhase_cam _ _ _).trans (hset _)
  · exact (State.enterPhase_cam _ _ _).trans (hset _)
  · exact (State.enterPhase_cam _ _ _).trans (hset _)
  · exact (State.toCharge_cam _ _).trans (hset _)

theorem State.auxWritten_cam (s : State) : s.auxWritten.cam = s.cam := by
  unfold State.auxWritten
  exact cam_ite (cam_ite rfl rfl) rfl

theorem State.kpaCtrlWritten_cam (s : State) : s.kpaCtrlWritten.cam = s.cam := by
  unfold State.kpaCtrlWritten
  dsimp only
  rw [State.auxWritten_cam]
  refine cam_ite ?_ (cam_ite rfl (s.toCharge_cam cOff))
  unfold State.chargeFromOff
  exact cam_ite (s.detect_cam _) rfl

theorem State.enableKpa_cam (s : State) : s.enableKpa.cam = s.cam := (State.kpaCtrlWritten_cam _).trans rfl

theorem State.startPeriod_cam (s : State) : s.startPeriod.cam = s.cam := by
  unfold State.startPeriod
  exact cam_ite rfl rfl

theorem State.startHoming_cam (s : State) : s.startHoming.cam = s.cam := by
  have hshow (u : State) : u.showMdi.cam = u.cam := by
    unfold State.showMdi
    dsimp only
    rw [State.setFld_cam, State.setFld_cam]
    exact cam_ite rfl rfl
  unfold State.startHoming
  exact cam_ite rfl ((hshow _).trans rfl)

theorem State.findConfirmation_cam (s : State) : s.findConfirmation.cam = s.cam := by
  unfold State.findConfirmation
  exact cam_ite rfl rfl

theorem State.shore_cam (s : State) (reason : Nat) : (s.shore reason).cam = s.cam := by
  have hwrite : (s.shoreWrite reason).cam = s.cam := by
    have hstored (n : Nat) (l : List Byte) : (s.shoreStored n l).cam = s.cam := rfl
    rw [State.shoreWrite_eq, hstored]
  have hlog (c : Prop) [Decidable c] (l : List Byte) : (if c then s.logS 0x1007 l else s).cam = s.cam := cam_ite (State.logS_cam ..) rfl
  unfold State.shore
  dsimp only
  generalize s.shoreWrite reason = u at hwrite ⊢
  split
  · exact hwrite
  · exact hlog _ _

theorem RunsOrEasy.easyLogged {s : State} (h : RunsOrEasy s) (cause : Nat) : RunsOrEasy (s.easyLogged cause) := by
  cases hin : s.inEasy with
  | true =>
    have hkept : (s.easyLogged cause).cam.state = s.cam.state := by
      rw [State.easyLogged, hin, if_pos rfl]
    exact h.of_state hkept
  | false =>
    obtain ⟨-, hcam⟩ := State.easyLogged_enters cause hin
    generalize s.easyLogged cause = t at hcam ⊢
    have hstake : s.cam.state ≠ .stake := by
      obtain h | h := h <;> rw [h] <;> decide
    rw [if_neg hstake] at hcam
    exact Or.inr (congrArg CamSt.state hcam :)

/-- A cause of easy leaves a rowing Camlan in RUN or brings it into easy. -/
theorem RunsOrEasy.easyNow {s : State} (h : RunsOrEasy s) (cause : Nat) : RunsOrEasy (s.easyNow cause) := by
  rw [State.easyNow_eq]
  exact (h.of_cam (State.logS_cam ..)).easyLogged cause

theorem RunsOrEasy.easyMany {s : State} (h : RunsOrEasy s) (causes : List Nat) : RunsOrEasy (s.easyMany causes) := by
  unfold State.easyMany
  generalize (List.range 256).filter (fun c => causes.contains c) = l
  exact List.foldlRecOn (motive := RunsOrEasy) l State.easyNow h fun _ ht c _ => ht.easyNow c

/-- Camlan leaves the stake-boat state. -/
def State.intervalEnded (s : State) : State := { s with cam := { s.cam with state := if s.cam.easyCauses.isEmpty then .run else .easy } }

/-- CANA, CANC, the crew link and the radio leave restricted operation; the chain's seats that are missing are lost. -/
def State.linksJudged (s : State) : State :=
  let s := (((s.setBit (Reg.CAN_CTRL 0) 2 false).setBit (Reg.CAN_CTRL 2) 2 false).canCtrl 0).canCtrl 2
  let s := s.crewInterval.radioInterval
  let s := (s.readSet.filter (fun n => !(s.seat n).enumd)).foldl (fun s n => s.updSeat n (fun x => { x with lost := true })) s
  (s.showSeats.applyAt .interval).startVerified

/-- What Camlan starts at the end of the interval. -/
def State.duesStarted (s : State) : State :=
  let s := if s.bit Reg.KPA_STAT 16 then s else s.startSculls
  s.defaultHelm.enableKpa.startPeriod.startHoming.findConfirmation

theorem State.linksJudged_cam (s : State) : s.linksJudged.cam = s.cam := by
  have hopened : ((((s.setBit (Reg.CAN_CTRL 0) 2 false).setBit (Reg.CAN_CTRL 2) 2 false).canCtrl 0).canCtrl 2).cam = s.cam := rfl
  unfold State.linksJudged
  dsimp only
  generalize (((s.setBit (Reg.CAN_CTRL 0) 2 false).setBit (Reg.CAN_CTRL 2) 2 false).canCtrl 0).canCtrl 2 = u at hopened ⊢
  have hlinks := (u.crewInterval.radioInterval_cam.trans u.crewInterval_cam).trans hopened
  generalize u.crewInterval.radioInterval = v at hlinks ⊢
  have hseats : ((v.readSet.filter (fun n => !(v.seat n).enumd)).foldl (fun (w : State) n => w.updSeat n (fun x => { x with lost := true })) v).cam = v.cam := 
    cam_foldl (fun (w : State) n => w.updSeat n (fun x => { x with lost := true })) (fun _ _ => rfl) _ v
  generalize (v.readSet.filter (fun n => !(v.seat n).enumd)).foldl (fun (w : State) n => w.updSeat n (fun x => { x with lost := true })) v = w at hseats ⊢
  have hshow : w.showSeats.cam = w.cam := (congrArg State.cam w.showSeats_eq :)
  have happly : (w.showSeats.applyAt .interval).cam = w.showSeats.cam := rfl
  rw [State.startVerified_cam, happly, hshow, hseats, hlinks]

theorem State.duesStarted_state (s : State) : s.duesStarted.cam.state = s.cam.state := by
  have hsculls : (if s.bit Reg.KPA_STAT 16 then s else s.startSculls).cam = s.cam := cam_ite rfl s.startSculls_cam
  unfold State.duesStarted
  dsimp only
  generalize (if s.bit Reg.KPA_STAT 16 = true then s else s.startSculls) = u at hsculls ⊢
  rw [State.findConfirmation_cam, State.startHoming_cam, State.startPeriod_cam, State.enableKpa_cam, State.defaultHelm_state, hsculls]

/-- The record of the interval's end. -/
def State.intervalLogged (s : State) : State :=
  s.logS 0x0504 (u8 s.enumSeats.length ++ u8 (s.enumSeats.filter (fun n => (s.seat n).radioOk)).length
    ++ u32 s.rad.joins.length ++ u32 (s.fld Reg.RAD_JOINSTAT 16 16))

/-- The causes of easy that the interval has found, the tally of the reset and the shore record. -/
def State.intervalClosed (s : State) : State :=
  ((s.easyMany s.intervalCauses).tallyOp (0x40 + s.fld Reg.RST_LAST 0 4)).shore 0

theorem doStakeBoatEnd_eq (s : State) : doStakeBoatEnd s = if !s.camlanOn || decide (s.cam.state ≠ .stake) || !s.stk.started || decide (s.strokeNo < s.watchLen) then s
    else s.intervalEnded.linksJudged.duesStarted.intervalLogged.intervalClosed := rfl

theorem doStakeBoatEnd_ends {s : State} (hon : s.camlanOn = true) (hstake : s.cam.state = .stake) (hstarted : s.stk.started = true) (hwatch : s.watchLen ≤ s.strokeNo) :
    doStakeBoatEnd s = s.intervalEnded.linksJudged.duesStarted.intervalLogged.intervalClosed := by
  rw [doStakeBoatEnd_eq, if_neg (by simp [hon, hstake, hstarted, Nat.not_lt.mpr hwatch])]

theorem RunsOrEasy.intervalClosed {s : State} (h : RunsOrEasy s) : RunsOrEasy s.intervalClosed := by
  have hmany := h.easyMany s.intervalCauses
  unfold State.intervalClosed
  generalize s.easyMany s.intervalCauses = t at hmany ⊢
  exact (hmany.of_cam (congrArg State.cam (t.tallyOp_eq _) :)).of_cam (State.shore_cam _ 0)

/-- At the end of the interval Camlan runs, or is in easy. -/
theorem intervalEnd_runsOrEasy (s : State) : RunsOrEasy s.intervalEnded.linksJudged.duesStarted.intervalLogged.intervalClosed := by
  have hended : RunsOrEasy s.intervalEnded := by
    unfold RunsOrEasy State.intervalEnded
    dsimp only
    split
    · exact Or.inl rfl
    · exact Or.inr rfl
  have hdues := (hended.of_cam (State.linksJudged_cam _)).of_state (State.duesStarted_state _)
  exact (hdues.of_cam (State.logS_cam ..)).intervalClosed

/-- Settles O24: the image by its check, the timer's start by what it leaves of RUN, and the interval's end by Camlan's state. -/
theorem fromImageToStakeBoat : Obligations.FromImageToStakeBoat := by
  unfold Obligations.FromImageToStakeBoat
  refine ⟨fun s c build bad hphase hlocked => ?fault, fun s build bad hphase hlocked => ?starts, fun s failed build bad hphase hlocked hfails => ?untested,
    fun s jedec hon hstopped hidle => ?timer, fun s jedec hon hstopped hidle harmed => ?armed, fun s jedec hon hstopped hidle hcrew hheard hunarmed => ?alone, fun s hon hstake hstarted hwatch => ?interval⟩
  case fault => exact ⟨_, congrArg Host.Outcome.next ((doImageVerify_locked build bad hphase hlocked).2 c), imageFault_shows s bad _⟩
  case starts => exact congrArg Host.Outcome.next (doImageVerify_locked build bad hphase hlocked).1
  case untested => exact congrArg Host.Outcome.next (doImageVerify_untested failed build bad hphase hlocked hfails)
  case timer => exact ⟨_, rfl, State.startTimer_shows jedec hon hstopped hidle⟩
  case armed =>
    have hctrl : (s.setBit (Reg.CAN_CTRL 1) 9 false).running = s.running := State.bit_setBit_ne _ _ _ _ (by decide)
    have hcamlan : (s.setBit (Reg.CAN_CTRL 1) 9 false).camlanOn = s.camlanOn := State.camlanOn_congr rfl (State.rd_setBit_ne _ _ _ (by decide))
    exact ⟨_, congrArg Host.Outcome.next (if_pos harmed), State.startTimer_shows jedec (hcamlan.trans hon) (hctrl.trans hstopped) hidle⟩
  case alone =>
    obtain ⟨hrun, hstate, -⟩ := State.startTimer_shows jedec hon hstopped hidle
    exact ⟨_, congrArg Host.Outcome.next (if_pos ⟨hcrew, hheard, hunarmed⟩), hrun, hstate⟩
  case interval =>
    exact ⟨_, congrArg Host.Outcome.next (doStakeBoatEnd_ends hon hstake hstarted hwatch), intervalEnd_runsOrEasy s⟩

end Sys2Proof.Machine
end
